-- ==== Sys2Proof/Word.lean ====
section
/-! DEFINITION. The words of the KT-8416: bytes, nibbles (the native datapath unit, spec/00), 16-, 32- and
64-bit words, and their plainest arithmetic. -/

namespace Sys2Proof

/-- A byte of the device address map (R16). -/
abbrev Byte := BitVec 8
/-- A nibble, the unit of lanes, splices and Perimeter symbols. -/
abbrev Nib := BitVec 4
/-- A 16-bit half word. -/
abbrev Half := BitVec 16
/-- A 32-bit word. -/
abbrev Word := BitVec 32
/-- A 64-bit word. -/
abbrev DWord := BitVec 64

/-- Whether bit `i` of the number `n` is 1. -/
def bitOf (n i : Nat) : Bool := n / 2 ^ i % 2 == 1

/-- The field `[msb:lsb]` of the number `n` (R3), given as lsb and width. -/
def fieldOf (n lsb width : Nat) : Nat := n / 2 ^ lsb % 2 ^ width

/-- `n` with the field at `lsb`, `width` replaced by `v`. -/
def putField (n lsb width v : Nat) : Nat :=
  n - fieldOf n lsb width * 2 ^ lsb + v % 2 ^ width * 2 ^ lsb

/-- Serial comparison of two 32-bit counts (R57): `a` is newer than `b`. -/
def newer (a b : Nat) : Bool :=
  let d := (a + 2 ^ 32 - b % 2 ^ 32) % 2 ^ 32
  0 < d && d < 2 ^ 31

end Sys2Proof
end

