-- ==== Sys2Proof/Config.lean ====
section
/-! DEFINITION. What the manual leaves open: free values (constants without a body) and what one implementation
fixes. No proof can see what a free value is. -/

namespace Sys2Proof

/-- A free value of `w` bits, fresh for each count the state hands to it (log entry 5). -/
opaque Config.freeValue : (w : Nat) → Nat → BitVec w

/-- The device's fuse rows as Apex reads them with FUSERD (R167); contents are per device (log entry 6). -/
opaque Config.fuseWord : Nat → BitVec 32

/-- The words of Apex's private code space (R166): its boot ROM with the ROM recovery image, and the image that bring-up
step 6 puts into its instruction RAM; contents are not in the manual (log entry 6). -/
opaque Config.apexRom : Nat → BitVec 32

/-- The device's 64-bit unique ID (0x2000:08), whose low word is SERIAL (R52, R98): per device (log entry 33). -/
opaque Config.uniqueId : BitVec 64

/-- Where in MRAM the strings of 0x1008, 0x1009 and 0x100A lie, and the VERSION of the Apex image (R568, log entry 33). -/
opaque Config.stringAt : Nat → Fin 0x1000
opaque Config.apexVersion : BitVec 32

/-- Whether the word "truncated" of a READ_STATUS reply (R319) is TRUNCATED_SEEN rather than TRUNCATED_OWN (log entry 38). -/
opaque Config.statusTruncatedSeen : Bool

/-- Which of several equal first hops the keeper chooses for a device and a destination, and which of several alternates
(R380, log entry 40). -/
opaque Config.routeTie : Nat → Nat → Nat
opaque Config.altTie : Nat → Nat → Nat

/-- Which of its two ports a chord instance takes as its upstream port: the lower-numbered one or the other (R398,
log entry 43). -/
opaque Config.upstreamHigh : Nat → Bool

/-- Which integrity events of R526 (LOCKSTEP, WATCHDOG, CRITICAL_DBE, REGISTER_PARITY) the loss of the rim PLL's lock
raises; R13 names none (log entry 48). -/
opaque Config.unlockEvents : BitVec 4

/-- The spare columns each bank uses, 0–64, as the factory fuses assign them (R467): per device (log entry 168). -/
opaque Config.repairedColumns : Nat → Fin 65

end Sys2Proof
end

