-- ==== Sys2Proof/Syntax.lean ====
section
/-! DEFINITION. The commands the block takes: one constructor per row of spec/opcode_table.json, with the values
that come from outside as operands. Every state an engine, a port or another unit holds is in `State`; an operand is
what the outside world supplies (who writes, what is written, what arrives on a pin or a wire, what a check that the
model does not compute answers, how much time has passed). -/

namespace Sys2Proof

/-- A path (R40, R20): the master that makes the access and whether the access is secure (R41). -/
structure Path where
  id : Fin 64
  secure : Bool
  deriving DecidableEq, Repr

/-- Widths of one access of the device address map (R16). -/
inductive Size where
  | b1 | b2 | b4 | b8
  deriving DecidableEq, Repr

/-- Bytes of one access. -/
def Size.bytes : Size → Nat
  | .b1 => 1
  | .b2 => 2
  | .b4 => 4
  | .b8 => 8

/-- AtomicOps a PCIe requester can send (R493). `other` is a CAS or a 128-bit AtomicOp. -/
inductive AtomicOp where
  | fetchAdd | swap | other
  deriving DecidableEq, Repr

/-- What a bring-up step finds outside the model (R92): the straps, the fuse rows' checks, the signature checks of
the Apex image slots, and the version and timing of what starts. -/
structure StepInput where
  bootMode : BitVec 2
  fuseOk : Bool
  slotA : Bool
  slotB : Bool
  startMicros : Word
  deriving DecidableEq, Repr

/-- TAP instructions (R558); `debug` stands for the debug instructions, `unlisted` for any other. -/
inductive TapOp where
  | idcode | bypass | samplePreload | extest | debug | unlisted
  deriving DecidableEq, Repr

/-- What a field network asks for (R405): the class and selector services, a selector and its value, memory access,
native object access, a connection that opens, and the selector and value registers of a Modbus connection. -/
inductive NetOp where
  | attr (inst sel : Nat) (v : Option DWord)
  | select (v : Word)
  | value (v : Option DWord)
  | memory (addr : Word) (v : Option Word)
  | sdo (idx : Half) (sub : Byte) (v : Option DWord)
  | opened
  | register (k : Fin 6) (v : Option Half)
  deriving DecidableEq, Repr

/-- A CAN frame as the bus carries it (R413). -/
structure BusFrame where
  id : BitVec 29
  ide : Bool
  rtr : Bool
  dlc : BitVec 4
  fdf : Bool
  brs : Bool
  esi : Bool
  data : List Byte
  deriving DecidableEq, Repr

/-- The commands, one constructor per row of spec/opcode_table.json. -/
inductive Instr where
  /-- MAP_READ (R19): A master reads a naturally aligned word or burst in the device address map and receives data, zero, or an error response. -/
  | mapRead (p : Path) (addr : Word) (size : Size) (beats : Nat)
  /-- MAP_WRITE (R18): A master writes the device address map; forbidden writes are ignored and counted, unmapped ones ignored silently. -/
  | mapWrite (p : Path) (addr : Word) (size : Size) (data : List Byte)
  /-- OD_WRITE (R44): A path writes an object that has no behaviour of its own; the value is checked and stored or refused. -/
  | odWrite (p : Path) (idx : Half) (sub : Byte) (v : DWord)
  /-- WINDOW_READ_LOW_SLOT (R47): Reading slot n of a 64-bit object returns the low word and latches all 64 bits in the path's read latch. -/
  | windowReadLowSlot (p : Path) (idx : Half) (sub : Byte)
  /-- WINDOW_READ_HIGH_SLOT (R47): Reading slot n+1 returns the latched high word or the live one. -/
  | windowReadHighSlot (p : Path) (idx : Half) (sub : Byte)
  /-- WINDOW_WRITE_LOW_SLOT (R47): Writing slot n stages the low word in the path's write stage. -/
  | windowWriteLowSlot (p : Path) (idx : Half) (sub : Byte) (v : Word)
  /-- WINDOW_WRITE_HIGH_SLOT (R47): Writing slot n+1 commits both staged words in one indivisible update. -/
  | windowWriteHighSlot (p : Path) (idx : Half) (sub : Byte) (v : Word)
  /-- EVENT_STATUS_CLEAR (R65): Writing 1 to event status bits clears them, except a bit whose event occurs at once. -/
  | eventStatusClear (p : Path) (idx : Half) (sub : Byte) (v again : Word)
  /-- PARAM_SAVE (R56): Writing the save signature to a subindex of 0x1010 starts or holds a save of that group. -/
  | paramSave (p : Path) (sub : Byte) (v : Word)
  /-- PARAM_RESTORE (R56): Writing the restore signature to 0x1011 starts or holds a restore of that group. -/
  | paramRestore (p : Path) (sub : Byte) (v : Word)
  /-- PARAM_HOLD_EXPIRY (R58): The 100 ms spacing ends and a held save or restore starts as one new copy. -/
  | paramHoldExpiry
  /-- PARAM_COPY_WRITTEN (R56): A parameter store copy finishes writing and is verified by read-back. -/
  | paramCopyWritten (ok : Bool)
  /-- RIM_PLL_LOCK_LOST (R13): The rim PLL loses lock: launch gates close, rings stop, domains UNSYNCED, HOLD_N low. -/
  | rimPllLockLost
  /-- RIM_PLL_RELOCK (R13): The rim PLL relocks and the rim resumes with domains, launches and rings still disabled. -/
  | rimPllRelock
  /-- VDDIO_PRESENT (R71): A VDDIO bank rises and its pads take their reset states. -/
  | vddioPresent (bank : Fin 6)
  /-- VDDIO_BANK_LOST (R545): A VDDIO bank falls while other supplies remain; its balls float and SUPPLY holds HOLD_N low. -/
  | vddioBankLost (bank : Fin 6)
  /-- VDDIO_CLASS_SENSE (R542): Every millisecond an unclassed VDDIO bank is sensed and takes a class after 1 ms in range. -/
  | vddioClassSense (bank : Fin 6) (mv : Half) (stable : Bool)
  /-- AON_POWER_GOOD (R79): VDD_AON reaches power-good and bring-up starts at step 1. -/
  | aonPowerGood
  /-- POR (R78): VDD_AON falls below power-good and everything including AON is reset. -/
  | por
  /-- CORE_BROWNOUT (R78): VDD_CORE falls below brown-out and everything except AON content is reset. -/
  | coreBrownout
  /-- CORE_BROWNOUT_RELEASE (R79): VDD_CORE rises above brown-out release and bring-up starts at step 1. -/
  | coreBrownoutRelease
  /-- RESET_N_FALL (R80): RESET_N falls and the glitch filter starts judging the pulse. -/
  | resetNFall
  /-- RESET_N_ACCEPT (R80): The filter takes a RESET_N pulse as a warm reset and pads reach reset states within 20 ns. -/
  | resetNAccept
  /-- RESET_N_RISE (R80): RESET_N rises after acceptance and bring-up starts at step 2. -/
  | resetNRise
  /-- BRINGUP_STEP_DONE (R92): A bring-up step completes and the next step begins. -/
  | bringupStepDone (b : StepInput)
  /-- HOLD_RELEASE (R74): A write of 0xA55A to 0x2001:01 releases HOLD_N if the device runs with no hold reason. -/
  | holdRelease (p : Path) (v : Word) (overtaken : Fin 3)
  /-- HOLD_ACK (R76): Writing a latched hold reason bit clears it when its condition has ended. -/
  | holdAck (p : Path) (v : Word)
  /-- HOLD_REQUEST (R76): Writing HOLD_REQUEST sets or clears the HOLD_REQUESTED reason. -/
  | holdRequest (p : Path) (v : Word)
  /-- DEVICE_RESET (R85): Writing the reset signature to 0x2004:01 performs a warm reset. -/
  | deviceReset (p : Path) (v : Word)
  /-- ENGINE_RESET (R85): Writing an engine bit resets and halts that engine, releasing its locks. -/
  | engineReset (p : Path) (v : Word)
  /-- FACET_RESET (R87): Writing a facet bit resets its four engines and clears its lane bindings. -/
  | facetReset (p : Path) (v : BitVec 8)
  /-- MAC_PORT_RESET (R87): Writing a MAC port bit drops the link and discards its queued frames. -/
  | macPortReset (p : Path) (v : BitVec 12)
  /-- RING_RESET (R87): Writing a ring bit turns its transmitters off and sets node state OFF. -/
  | ringReset (p : Path) (v : BitVec 4)
  /-- CAN_RESET (R87): Writing a CAN bit takes the controller offline with error counters 0. -/
  | canReset (p : Path) (v : BitVec 4)
  /-- PIO_BLOCK_RESET (R448): Writing a PIO block bit stops its SMs, empties FIFOs, stops channels and returns pins to quiet. -/
  | pioBlockReset (p : Path) (v : BitVec 4)
  /-- LOCUS_RESET (R87): Writing the LOCUS bit disables every track. -/
  | locusReset (p : Path)
  /-- SWITCH_RESET (R87): Writing the SWITCH bit discards every buffered frame and rebuilds the free list. -/
  | switchReset (p : Path)
  /-- TIME_DOMAIN_RESET (R87): Writing a domain bit restarts its time at 0 with default rate and UNSYNCED. -/
  | timeDomainReset (p : Path) (v : BitVec 4)
  /-- BLOCK_RESET_COMPLETE (R86): A per-block reset ends and the block is left disabled with BLOCK_RESET set. -/
  | blockResetComplete (sub : Fin 6) (bit : Fin 32)
  /-- INTEGRITY_RESET (R78): A double-bit or parity error in critical state causes a warm integrity reset. -/
  | integrityReset (detail : BitVec 6) (addr : Word)
  /-- LOCKSTEP_MISMATCH (R522): The Apex halves differ, the access is held and an integrity reset follows. -/
  | lockstepMismatch
  /-- APEX_WATCHDOG_EXPIRY (R523): The Apex watchdog expires and a warm reset with cause APEX_WATCHDOG follows. -/
  | apexWatchdogExpiry
  /-- THERMAL_TRIP (R78): A junction sensor crosses 135 °C and the device is held in thermal reset. -/
  | thermalTrip (sensor : Fin 4) (reading : Half)
  /-- THERMAL_RELEASE (R78): Every sensor falls below 120 °C and the thermal reset ends. -/
  | thermalRelease
  /-- TRIES_CLEAR (R95): Writing 1 to TRIES_CLEAR writes START_TRIES to 0 in the start counter copies. -/
  | triesClear (p : Path) (v : Word)
  /-- OPTIONS_COMMIT (R91): Writing the options signature writes subs 02–06 to the older option copy, or holds it. -/
  | optionsCommit (p : Path) (v : Word)
  /-- OPTIONS_COMMIT_END (R91): An option commit completes and a held commit starts. -/
  | optionsCommitEnd
  /-- DOZE_REQUEST (R102): Writing 2 to SLEEP_REQUEST starts the Doze transition. -/
  | dozeRequest (p : Path)
  /-- STANDBY_REQUEST (R104): Writing 3 to SLEEP_REQUEST starts the Standby transition. -/
  | standbyRequest (p : Path)
  /-- DOZE_TRANSITION_DONE (R102): Every bank has reached its Doze state and the Doze transition ends. -/
  | dozeTransitionDone
  /-- STANDBY_POWER_DOWN (R104): The core powers down and only AON and enabled wake detectors remain. -/
  | standbyPowerDown
  /-- DOZE_WAKE_WRITE (R102): Writing 1 to SLEEP_REQUEST in Doze starts the wake. -/
  | dozeWakeWrite (p : Path)
  /-- WAKE_SOURCE_EVENT (R105): An enabled wake source fires; during a transition it is latched. -/
  | wakeSourceEvent (src : Fin 11) (unit : Fin 64) (rising : Bool)
  /-- DOZE_WAKE_DONE (R102): The device enters run after Doze, resumes engines, marks domains UNSYNCED and sets WAKE_STALE. -/
  | dozeWakeDone
  /-- STANDBY_WAKE (R104): A wake from Standby starts bring-up at step 1 with cause 9. -/
  | standbyWake
  /-- WAKE_CONFIG_CHECK (R103): After a Doze wake Apex checks the parameter store and writes 0x2000:07. -/
  | wakeConfigCheck (verified : Bool) (found : Word)
  /-- CONFIG_CONFIRMED_WRITE (R103): Apex writes the configuration generation to 0x2000:07, clearing WAKE_STALE. -/
  | configConfirmedWrite (p : Path) (v : Word)
  /-- LANE_BINDING_WRITE (R117): A write of RX_SOURCE or TX_DEST requests a lane binding change, checked against the binding rules. -/
  | laneBindingWrite (p : Path) (f : Fin 8) (k : Fin 8) (v : Word)
  /-- LANE_BINDING_APPLY (R118): A binding change takes effect at the next frame boundary of the stream. -/
  | laneBindingApply (e : Fin 32) (tx : Bool)
  /-- RX_LANE_FRAME (R120): A frame enters a receive lane as START marker, nibbles and END marker. -/
  | rxLaneFrame (e : Fin 32) (first : Option (Word × BitVec 2)) (nibs : List Nib) (last : Option (BitVec 3))
  /-- TX_LANE_FRAME_START (R122): A lane frame begins on the wire once enough nibbles are queued and its class is granted. -/
  | txLaneFrameStart (e : Fin 32) (phase : Fin 8) (dt : Nat)
  /-- TX_LANE_UNDERRUN (R122): The transmit FIFO empties mid-frame and the frame ends with a stomped FCS. -/
  | txLaneUnderrun (e : Fin 32)
  /-- ENGINE_RUN (R140): COMMAND 1 starts a halted engine at its program counter. -/
  | engineRun (p : Path) (e : Fin 32)
  /-- ENGINE_HALT (R124): COMMAND 2 halts the engine after its instruction in progress. -/
  | engineHalt (p : Path) (e : Fin 32)
  /-- ENGINE_STEP (R126): COMMAND 3 executes one instruction of a halted engine. -/
  | engineStep (p : Path) (e : Fin 32)
  /-- ENGINE_LOAD (R134): COMMAND 4 makes Apex load the engine's image, or is refused if the engine runs. -/
  | engineLoad (p : Path) (e : Fin 32)
  /-- ENGINE_HALTED (R124): A pending halt completes once the instruction and posted stores finish. -/
  | engineHalted (e : Fin 32)
  /-- ENGINE_LOAD_DONE (R134): An engine load finishes, verified or failed, and the engine halts or runs. -/
  | engineLoadDone (e : Fin 32) (signed digestOk : Bool)
  /-- HB_PERIOD_EXPIRY (R128): An engine's heartbeat period expires and HB_ACTION is applied. -/
  | hbPeriodExpiry (e : Fin 32)
  /-- FACET_DBE_RESTART (R129): Apex restores bindings, reloads and restarts the engines of a facet reset by a double-bit error. -/
  | facetDbeRestart (f : Fin 8)
  /-- IMAGE_INSTALL (R133): 0x2480 COMMAND 1 verifies and installs the staged image into the library. -/
  | imageInstall (p : Path)
  /-- IMAGE_REMOVE (R133): 0x2480 COMMAND 2 removes the highest version of REMOVE_ID unless in use. -/
  | imageRemove (p : Path)
  /-- IMAGE_LIBRARY_OP_DONE (R133): An install or removal finishes writing MRAM and STATUS shows its result. -/
  | imageLibraryOpDone (signed : Bool)
  /-- PROCESS_DATA_READ (R139): A read of a process data object takes a snapshot of the process image. -/
  | processDataRead (p : Path) (idx : Half) (sub : Byte) (retries : Nat)
  /-- POSTED_STORE_COMPLETE (R112): A posted facet or far store of an engine completes. -/
  | postedStoreComplete (c : Fin 33)
  /-- ENGINE_WAIT_END (R151): The condition a class-W instruction waits for arises and the instruction completes. -/
  | engineWaitEnd (c : Fin 33) (dt : Nat)
  /-- ADD (R152): RD gets RA plus RB with flags. -/
  | add (c : Fin 33)
  /-- ADDI (R152): RD gets RA plus a sign-extended immediate with flags. -/
  | addi (c : Fin 33)
  /-- SUB (R152): RD gets RA minus RB with flags. -/
  | sub (c : Fin 33)
  /-- ADC (R152): RD gets RA plus RB plus carry. -/
  | adc (c : Fin 33)
  /-- SBC (R152): RD gets RA minus RB minus borrow. -/
  | sbc (c : Fin 33)
  /-- AND (R152): RD gets RA AND RB. -/
  | andReg (c : Fin 33)
  /-- ANDI (R152): RD gets RA AND a zero-extended immediate. -/
  | andi (c : Fin 33)
  /-- OR (R152): RD gets RA OR RB. -/
  | orReg (c : Fin 33)
  /-- ORI (R152): RD gets RA OR a zero-extended immediate. -/
  | ori (c : Fin 33)
  /-- XOR (R152): RD gets RA XOR RB. -/
  | xor (c : Fin 33)
  /-- XORI (R152): RD gets RA XOR a zero-extended immediate. -/
  | xori (c : Fin 33)
  /-- CMP (R152): Sets flags from RA minus RB. -/
  | cmp (c : Fin 33)
  /-- CMPI (R152): Sets flags from RA minus an immediate. -/
  | cmpi (c : Fin 33)
  /-- MUL (R152): RD gets the low 32 bits of RA times RB. -/
  | mul (c : Fin 33)
  /-- LUI (R152): RD gets the immediate shifted left 14. -/
  | lui (c : Fin 33)
  /-- MOVI (R152): RD gets a sign-extended immediate. -/
  | movi (c : Fin 33)
  /-- SHL (R152): RD gets RA shifted left. -/
  | shl (c : Fin 33)
  /-- SHR (R152): RD gets RA shifted right logically. -/
  | shr (c : Fin 33)
  /-- SAR (R152): RD gets RA shifted right arithmetically. -/
  | sar (c : Fin 33)
  /-- ROR (R152): RD gets RA rotated right. -/
  | ror (c : Fin 33)
  /-- EXT (R152): RD gets a zero- or sign-extended bit field of RA. -/
  | ext (c : Fin 33)
  /-- INS (R152): Inserts the low bits of RA into a field of RD. -/
  | ins (c : Fin 33)
  /-- NSWAP (R152): Swaps the nibbles of every byte. -/
  | nswap (c : Fin 33)
  /-- BSWAP16 (R152): Swaps the two low bytes, upper half 0. -/
  | bswap16 (c : Fin 33)
  /-- BSWAP32 (R152): Reverses the four bytes. -/
  | bswap32 (c : Fin 33)
  /-- CLZ (R152): Counts leading zeros of RA. -/
  | clz (c : Fin 33)
  /-- POPC (R152): Counts set bits of RA. -/
  | popc (c : Fin 33)
  /-- NOT (R152): RD gets the bitwise inverse of RA. -/
  | notReg (c : Fin 33)
  /-- NEG (R152): RD gets 0 minus RA with flags. -/
  | neg (c : Fin 33)
  /-- SEXT8 (R152): Sign-extends the low byte. -/
  | sext8 (c : Fin 33)
  /-- SEXT16 (R152): Sign-extends the low halfword. -/
  | sext16 (c : Fin 33)
  /-- LDL (R153): Loads from local data RAM. -/
  | ldl (c : Fin 33)
  /-- STL (R153): Stores to local data RAM. -/
  | stl (c : Fin 33)
  /-- LDF (R153): Loads from the facet store. -/
  | ldf (c : Fin 33)
  /-- STF (R153): Posts a store to the facet store. -/
  | stf (c : Fin 33)
  /-- LDX (R153): Loads from the device address map. -/
  | ldx (c : Fin 33)
  /-- STX (R153): Posts a store to the device address map. -/
  | stx (c : Fin 33)
  /-- FADD_F (R154): Indivisible fetch-and-add on a facet store word. -/
  | faddF (c : Fin 33)
  /-- SWAP_F (R154): Indivisible swap on a facet store word. -/
  | swapF (c : Fin 33)
  /-- FADD_X (R154): Indivisible fetch-and-add on a far bank or facet store word. -/
  | faddX (c : Fin 33)
  /-- SWAP_X (R154): Indivisible swap on a far bank or facet store word. -/
  | swapX (c : Fin 33)
  /-- FENCE (R155): Waits until every posted store of the engine has completed. -/
  | fence (c : Fin 33)
  /-- B_COND (R156): Branches if the condition holds. -/
  | bCond (c : Fin 33)
  /-- CALL (R156): Writes the return address to g15 and branches. -/
  | call (c : Fin 33)
  /-- JR (R156): Jumps to the address in RA. -/
  | jr (c : Fin 33)
  /-- CALLR (R156): Writes the return address to g15 and jumps to RA. -/
  | callr (c : Fin 33)
  /-- CBZ (R156): Branches if a register is zero. -/
  | cbz (c : Fin 33)
  /-- CBNZ (R156): Branches if a register is non-zero. -/
  | cbnz (c : Fin 33)
  /-- HALT (R156): Waits for posted stores and enters HALTED. -/
  | halt (c : Fin 33)
  /-- NOP (R156): Does nothing. -/
  | nop (c : Fin 33)
  /-- HBEAT (R128): Restarts the engine's heartbeat watchdog. -/
  | hbeat (c : Fin 33)
  /-- TAKE (R157): Removes up to 8 nibbles from the receive lane, stopping at a marker. -/
  | take (c : Fin 33)
  /-- PEEK (R157): Reads nibbles at an offset without removing them. -/
  | peek (c : Fin 33)
  /-- SKIP (R157): Arms the lane to discard a count of nibbles. -/
  | skip (c : Fin 33)
  /-- GIVE (R157): Appends nibbles to the transmit FIFO. -/
  | give (c : Fin 33)
  /-- MATCH (R157): Compares peeked nibbles under a mask and sets Z. -/
  | matchLane (c : Fin 33)
  /-- MARK (R157): Removes a head marker into RD or reports a nibble. -/
  | mark (c : Fin 33)
  /-- SKIPF (R157): Arms the lane to discard up to and including the next END. -/
  | skipf (c : Fin 33)
  /-- GEND (R160): Appends the transmit END marker, optionally stomping or discarding the frame. -/
  | gend (c : Fin 33)
  /-- LSTAT (R157): Reads lane position and FIFO levels. -/
  | lstat (c : Fin 33)
  /-- CRC_INIT (R161): Selects the polynomial and loads the CRC state. -/
  | crcInit (c : Fin 33)
  /-- CRC_FOLD (R161): Folds nibbles of RA into the CRC state. -/
  | crcFold (c : Fin 33)
  /-- CRC_READ (R161): Reads the CRC state with its final XOR. -/
  | crcRead (c : Fin 33)
  /-- CRC_WRITE (R161): Writes the raw CRC state. -/
  | crcWrite (c : Fin 33)
  /-- CRC_TAP (R161): Selects lane tapping for the CRC unit. -/
  | crcTap (c : Fin 33)
  /-- TIME (R162): Reads the low 32 bits of a domain and latches all 64. -/
  | timeRead (c : Fin 33) (dt : Nat)
  /-- TIMEH (R162): Reads the high 32 bits from the domain latch. -/
  | timeh (c : Fin 33)
  /-- TWAIT (R162): Waits until a domain time is due. -/
  | twait (c : Fin 33) (dt : Nat)
  /-- EWAIT (R163): Waits for pending events under a mask and clears them. -/
  | ewait (c : Fin 33)
  /-- EWAIT_TIMEOUT (R163): Waits for pending events or a domain time. -/
  | ewaitTimeout (c : Fin 33) (dt : Nat)
  /-- EPOLL (R163): Takes pending events under a mask without waiting. -/
  | epoll (c : Fin 33)
  /-- LOCK (R164): Reads a channel lock and takes ownership if free. -/
  | lock (c : Fin 33)
  /-- UNLOCK (R164): Releases a channel lock the engine owns. -/
  | unlock (c : Fin 33)
  /-- POST (R164): Posts the message area with doorbell bits. -/
  | post (c : Fin 33)
  /-- DBRD (R164): Reads pending unmasked doorbell bits and checks the message. -/
  | dbrd (c : Fin 33)
  /-- DBCLR (R164): Clears pending doorbell bits. -/
  | dbclr (c : Fin 33)
  /-- WDKICK (R167): Apex restarts its watchdog. -/
  | wdkick (c : Fin 33)
  /-- FUSERD (R167): Apex reads a fuse word. -/
  | fuserd (c : Fin 33)
  /-- MRAMW (R167): Apex writes an MRAM doubleword through the controller and waits for verify. -/
  | mramw (c : Fin 33)
  /-- SHA (R167): Apex performs one SHA-256 compression. -/
  | sha (c : Fin 33)
  /-- ENGSEC (R167): Apex sets an engine's secure setting while it is LOADING. -/
  | engsec (c : Fin 33)
  /-- CHORD_FRAME (R176): A frame passes a forwarding chord direction, spliced by its active table. -/
  | chordFrame (d : Fin 8) (data : List Byte) (er : Option Nat) (express : Bool) (ago : Nat) (phase : Fin 8) (delay : Nat) (lost : Fin 3)
  /-- CHORD_CAPTURE_WRITE (R180): After a good frame the captured nibbles are written to the capture area. -/
  | chordCaptureWrite (d : Fin 16)
  /-- SPLICE_COMMIT (R179): A write of COUNT and HALF starts a splice table load, or is held. -/
  | spliceCommit (q : Path) (d : Fin 16) (v : Half)
  /-- SPLICE_LOAD_DONE (R179): A table load finishes its copy and check; a held commit then starts. -/
  | spliceLoadDone (d : Fin 16)
  /-- SPLICE_TABLE_ACTIVATE (R179): A checked table becomes active at the next SFD. -/
  | spliceTableActivate (d : Fin 16)
  /-- CHORD_CONFIG_APPLY (R185): A change of ENABLE, EGRESS, GATE or SWITCH_COPY takes effect at a frame boundary. -/
  | chordConfigApply (d : Fin 8)
  /-- MDIO_C22_WRITE (R193): COMMAND OP 1 starts a clause 22 write frame. -/
  | mdioC22Write (q : Path) (m : Fin 2) (phy reg : BitVec 5) (data : Half)
  /-- MDIO_C22_READ (R193): COMMAND OP 2 starts a clause 22 read frame. -/
  | mdioC22Read (q : Path) (m : Fin 2) (phy reg : BitVec 5) (data : Half)
  /-- MDIO_C45_ADDRESS (R193): COMMAND OP 3 starts a clause 45 address frame. -/
  | mdioC45Address (q : Path) (m : Fin 2) (phy reg : BitVec 5) (data : Half)
  /-- MDIO_C45_WRITE (R193): COMMAND OP 4 starts a clause 45 write frame. -/
  | mdioC45Write (q : Path) (m : Fin 2) (phy reg : BitVec 5) (data : Half)
  /-- MDIO_C45_READ (R193): COMMAND OP 5 starts a clause 45 read frame. -/
  | mdioC45Read (q : Path) (m : Fin 2) (phy reg : BitVec 5) (data : Half)
  /-- MDIO_C45_READ_INCREMENT (R193): COMMAND OP 6 starts a clause 45 read-increment frame. -/
  | mdioC45ReadIncrement (q : Path) (m : Fin 2) (phy reg : BitVec 5) (data : Half)
  /-- MDIO_FRAME_END (R193): An MDIO frame ends, BUSY clears and read data is placed. -/
  | mdioFrameEnd (m : Fin 2) (data : Half)
  /-- MDIO_POLL (R194): POLL_PERIOD expires and the master polls a port's PHY for link and speed. -/
  | mdioPoll (p : Fin 8) (r1 r4 r5 r9 r10 : Half) (got : Option Nat)
  /-- LINK_UP (R197): A port's link comes up at a speed from its SPEED_SOURCE. -/
  | linkUp (p : Fin 12) (told : Fin 8)
  /-- LINK_DOWN (R199): A port's link goes down, ending frames and discarding its queues. -/
  | linkDown (p : Fin 12) (got : Option Nat)
  /-- PORT_LINK_CONFIG_CHANGE (R198): A change of interface or PHY settings takes the link down after the frames in progress. -/
  | portLinkConfigChange (p : Fin 12)
  /-- PORT_FRAME_CONFIG_APPLY (R198): A change of MAX_FRAME, pause or timestamp settings takes effect at the next SFD. -/
  | portFrameConfigApply (p : Fin 12) (tx : Bool)
  /-- SERDES_LOCK_LOST (R195): A span port SerDes loses lock. -/
  | serdesLockLost (n : Fin 4) (got : Option Nat)
  /-- PORT_FRAME_RECEIVED (R202): A port receives a frame and gives it exactly one result. -/
  | portFrameReceived (p : Fin 12) (d : List Byte) (er : Option Nat) (frags : Nat) (br : Fin 3)
  /-- PORT_FRAME_TRANSMITTED (R212): A frame's last nibble leaves a port and transmit counters change. -/
  | portFrameTransmitted (p : Fin 12) (frags : Nat) (dt : Nat)
  /-- TS_RECORD_WRITE (R207): An egress timestamp record is written into the port's ring. -/
  | tsRecordWrite (p : Fin 12)
  /-- PREEMPT_VERIFY_SEND (R203): A verify mPacket is sent every VERIFY_TIME. -/
  | preemptVerifySend (p : Fin 12)
  /-- PREEMPT_VERIFY_RESPONSE (R203): A verify response arrives and preemption becomes active. -/
  | preemptVerifyResponse (p : Fin 12)
  /-- PREEMPT_VERIFY_FAILED (R203): Three verifies get no response and the port sends frames whole. -/
  | preemptVerifyFailed (p : Fin 12)
  /-- PAUSE_REQUEST_RECEIVED (R208): An honoured pause or PFC request pauses classes. -/
  | pauseRequestReceived (p : Fin 12)
  /-- PAUSE_EXPIRY (R208): The requested pause quanta run out and the class resumes. -/
  | pauseExpiry (p : Fin 12) (c : Fin 8)
  /-- PAUSE_REFRESH_TIMER (R209): While flow control persists a pause request is re-sent every PAUSE_REFRESH quanta. -/
  | pauseRefreshTimer (p : Fin 12) (c : Fin 8)
  /-- PAUSE_WATCHDOG_EXPIRY (R210): A class paused too long is released and its requests ignored. -/
  | pauseWatchdogExpiry (p : Fin 12) (c : Fin 8)
  /-- PAUSE_RESUME (R210): Writing 1 to PAUSE_RESUME honours pause requests again. -/
  | pauseResume (q : Path) (p : Fin 12) (v : Word)
  /-- SWITCH_ADMISSION (R228): Once 64 bytes have arrived a frame is classified, filtered, looked up and admitted to queues. -/
  | switchAdmission (p : Fin 12) (head : List Byte) (ago : Nat) (phase : Fin 8) (whole : Bool)
  /-- FRAME_STORE_COMPLETE (R234): A frame's end is stored, its FCS judged and the unused charge returned. -/
  | frameStoreComplete (p : Fin 12)
  /-- TX_SELECTION (R237): At a frame boundary the port sends the highest eligible class. -/
  | txSelection (p : Fin 12) (phase : Fin 8) (dt : Nat)
  /-- FDB_AGE_EXPIRY (R222): A learned entry not refreshed for AGE_TIME is removed. -/
  | fdbAgeExpiry (e : Fin 8192) (dt : Nat)
  /-- FDB_READ_ENTRY (R253): FDB COMMAND 1 reads entry ENTRY into the staging subindexes. -/
  | fdbReadEntry (q : Path)
  /-- FDB_INSERT (R253): FDB COMMAND 2 inserts the staged key. -/
  | fdbInsert (q : Path)
  /-- FDB_DELETE (R253): FDB COMMAND 3 deletes the staged key. -/
  | fdbDelete (q : Path)
  /-- FDB_FLUSH (R253): FDB COMMAND 4 flushes learned entries. -/
  | fdbFlush (q : Path)
  /-- GATE_CONFIG_CHANGE (R239): CONFIG_CHANGE copies and checks the admin gate list and sets the change time. -/
  | gateConfigChange (m : Path) (p : Fin 12) (v : Word)
  /-- GATE_CONFIG_OPERATIONAL (R239): At the change time the new gate list becomes operational. -/
  | gateConfigOperational (p : Fin 12) (dt : Nat)
  /-- GATE_INTERVAL_EXPIRY (R238): A gate list entry's interval ends and the next entry's states apply. -/
  | gateIntervalExpiry (p : Fin 12) (dt : Nat)
  /-- STREAM_READ (R255): Stream COMMAND 1 reads the selected stream. -/
  | streamRead (q : Path)
  /-- STREAM_WRITE (R255): Stream COMMAND 2 writes the selected stream. -/
  | streamWrite (q : Path)
  /-- STREAM_CLEAR_BLOCKED (R255): Stream COMMAND 3 clears BLOCKED. -/
  | streamClearBlocked (q : Path)
  /-- STREAM_GATE_READ (R256): Stream gate COMMAND 1 reads the selected gate. -/
  | streamGateRead (q : Path)
  /-- STREAM_GATE_WRITE (R256): Stream gate COMMAND 2 writes the selected gate. -/
  | streamGateWrite (q : Path)
  /-- STREAM_GATE_CHANGE_LIST (R256): Stream gate COMMAND 3 changes its list as for port gates. -/
  | streamGateChangeList (q : Path)
  /-- STREAM_GATE_INTERVAL_EXPIRY (R243): A stream gate entry's interval ends. -/
  | streamGateIntervalExpiry (g : Fin 64) (dt : Nat)
  /-- METER_READ (R256): Meter COMMAND 1 reads the selected meter. -/
  | meterRead (q : Path)
  /-- METER_WRITE (R256): Meter COMMAND 2 writes the selected meter. -/
  | meterWrite (q : Path)
  /-- METER_CLEAR_MARK_ALL_RED (R256): Meter COMMAND 3 clears MARK_ALL_RED. -/
  | meterClearMarkAllRed (q : Path)
  /-- CB_READ (R257): 802.1CB COMMAND 1 reads the selected handle. -/
  | cbRead (q : Path)
  /-- CB_WRITE (R257): 802.1CB COMMAND 2 writes the selected handle. -/
  | cbWrite (q : Path)
  /-- CB_RESET_RECOVERY (R257): 802.1CB COMMAND 3 resets recovery of the handle. -/
  | cbResetRecovery (q : Path)
  /-- CB_RESET_TIMEOUT (R244): RESET_TIMEOUT passes with no frame and recovery resets. -/
  | cbResetTimeout (h : Fin 256)
  /-- RX_RING_DELIVERY (R246): A complete frame is written into ring descriptors once one is free. -/
  | rxRingDelivery (st : Fin 10) (c : Fin 8)
  /-- TX_RING_FRAME (R247): The device takes a frame from a transmit ring, admits it and writes DONE. -/
  | txRingFrame (st : Fin 10)
  /-- AUDIT_PASS (R248): Every AUDIT_PERIOD the switch sweeps leaked cells and fixes reference counts. -/
  | auditPass
  /-- INCREMENT_WRITE (R260): A write of INCREMENT takes effect at the first tick after it reaches the rim. -/
  | incrementWrite (q : Path) (d : Fin 4) (v : DWord)
  /-- ADJUST_START (R261): A write of ADJUST_TICKS starts or ends an adjustment. -/
  | adjustStart (q : Path) (d : Fin 4) (v : Word)
  /-- ADJUST_END (R261): The adjustment tick count runs out, INCREMENT applies and ADJUST_DONE is set. -/
  | adjustEnd (d : Fin 4) (dt : Nat)
  /-- STEP_DISARM (R262): STEP_COMMAND 0 disarms an armed step. -/
  | stepDisarm (q : Path) (d : Fin 4)
  /-- STEP_NOW (R262): STEP_COMMAND 1 applies STEP_OFFSET at the next tick. -/
  | stepNow (q : Path) (d : Fin 4)
  /-- STEP_ARM_AT (R262): STEP_COMMAND 2 arms a step at STEP_AT. -/
  | stepArmAt (q : Path) (d : Fin 4)
  /-- STEP_APPLY (R262): An armed step falls due and the offset is added in one tick. -/
  | stepApply (d : Fin 4) (dt : Nat)
  /-- SYNC_WRITE (R266): A write of SYNC declares a domain SYNCED or UNSYNCED. -/
  | syncWrite (q : Path) (d : Fin 4) (v : Word)
  /-- TRIGGER_FIRE (R268): A trigger's target falls due, it fires and re-arms or disables. -/
  | triggerFire (d : Fin 4) (t : Fin 16) (dt : Nat)
  /-- CAPTURE_EDGE (R269): A filtered capture edge is stamped into its FIFO or counted as overrun. -/
  | captureEdge (i' : Fin 4) (falling : Bool) (ago : Nat) (phase : Fin 8)
  /-- CAPTURE_POP (R269): Writing POP removes the head capture entry. -/
  | capturePop (q : Path) (i' : Fin 4) (v : Word)
  /-- PPS_EDGE (R270): A PPS output reaches START + k × PERIOD and its leading edge starts. -/
  | ppsEdge (i' : Fin 4) (dt : Nat)
  /-- PPS_PULSE_END (R270): WIDTH elapses and the PPS output returns inactive. -/
  | ppsPulseEnd (i' : Fin 4) (dt : Nat)
  /-- LAUNCH_ENABLE (R287): A write of CONTROL with ENABLE = 1 arms a launch entry after its checks. -/
  | launchEnable (q : Path) (k : Fin 64) (v : Half)
  /-- LAUNCH_DISABLE (R279): A write of CONTROL with ENABLE = 0 acts as an abort. -/
  | launchDisable (q : Path) (k : Fin 64) (v : Half)
  /-- LAUNCH_FETCH_START (R273): At target − LEAD the template fetch into a launch buffer starts. -/
  | launchFetchStart (k : Fin 64) (dt : Nat)
  /-- LAUNCH_FETCH_DONE (R273): The template fetch completes and the entry is STAGED, or ends READ_ERROR. -/
  | launchFetchDone (k : Fin 64) (dt : Nat)
  /-- LAUNCH_BEGIN (R275): A launch's first preamble nibble leaves at its commit point. -/
  | launchBegin (k : Fin 64) (phase : Fin 8) (dt : Nat)
  /-- LAUNCH_END (R276): A launch ends and a periodic entry moves to its next target. -/
  | launchEnd (k : Fin 64) (dt : Nat)
  /-- LAUNCH_ABORT (R279): Writing ABORT cancels the pending launch and clears ENABLE. -/
  | launchAbort (q : Path) (k : Fin 64) (v : Byte)
  /-- RING_ENABLE (R329): ENABLE of a ring moves the station from OFF to LISTEN or back to OFF. -/
  | ringEnable (q : Path) (n : Fin 4) (v : Word)
  /-- PER_LOCK_ACQUIRED (R294): A Perimeter receiver gets symbol lock after 32 valid symbols. -/
  | perLockAcquired (n : Fin 4) (east : Bool)
  /-- PER_LOCK_LOST (R294): A Perimeter receiver loses lock. -/
  | perLockLost (n : Fin 4) (east lostRx lostTx : Bool)
  /-- HEALING_SILENCE_END (R338): After 10 µs of silence the station sends IDLE on the cut link. -/
  | healingSilenceEnd (n : Fin 4)
  /-- PER_FRAME_RECEIVED (R299): A Perimeter frame is received, accepted or discarded, and stored or forwarded. -/
  | perFrameReceived (n : Fin 4) (east : Bool) (f : List Nib) (fin : Fin 3) (ago : Nat) (phase : Fin 8) (displaced : Bool)
  /-- ECHO_REQUEST_SEND (R303): A station sends ECHO_REQUEST on a link to measure its delay. -/
  | echoRequestSend (n : Fin 4) (east : Bool)
  /-- ECHO_REQUEST_RECEIVED (R303): A neighbour returns ECHO_REPLY after ECHO_TURN. -/
  | echoRequestReceived (n : Fin 4) (east sending : Bool)
  /-- ECHO_REPLY_RECEIVED (R303): The requester measures the round time toward LINK_DELAY. -/
  | echoReplyReceived (n : Fin 4) (east : Bool) (t : Nat)
  /-- ECHO_TIMEOUT (R303): No reply arrives within 2 µs and the request is repeated. -/
  | echoTimeout (n : Fin 4) (east : Bool)
  /-- MEASURE_SEND (R305): The controller sends a MEASURE frame in one direction. -/
  | measureSend (n : Fin 4) (east : Bool)
  /-- MEASURE_FORWARD (R305): A node adds its delay and hop to a passing MEASURE frame and writes its entry. -/
  | measureForward (n : Fin 4)
  /-- MEASURE_RETURN (R306): Both MEASURE frames return and the controller writes the node table. -/
  | measureReturn (n : Fin 4) (ids : List (Half × DWord))
  /-- SLOT_TABLE_LOAD (R312): A write of SLOT_COUNT copies a mode's table and starts its check. -/
  | slotTableLoad (q : Path) (n : Fin 4) (m : Fin 8) (v : Half)
  /-- SLOT_TABLE_CHECKED (R312): The slot table check ends valid or rejected. -/
  | slotTableChecked (n : Fin 4) (m : Fin 8)
  /-- SLOT_FETCH_START (R313): At START − TX_LEAD the ring fetches a slot's payload. -/
  | slotFetchStart (n : Fin 4) (k : Fin 1024)
  /-- SLOT_FETCH_DONE (R313): A slot payload fetch completes or fails. -/
  | slotFetchDone (n : Fin 4) (k : Fin 1024)
  /-- SLOT_INSERT (R301): At its slot time a station inserts its frame as the guardian allows. -/
  | slotInsert (n : Fin 4) (k : Fin 1024) (busy : Bool) (phase : Fin 8) (dt : Nat)
  /-- GUARDIAN_CUT (R335): A window closes during an insertion or splice and the frame ends with ABT. -/
  | guardianCut (n : Fin 4)
  /-- GUARD_TABLE_COMMIT (R337): A write of GUARD_COUNT commits guardian windows, once non-securely per POR. -/
  | guardTableCommit (q : Path) (n : Fin 4) (v : Byte)
  /-- REFERENCE_SEND (R308): Each cycle the time master sends the reference with its time fields. -/
  | referenceSend (n : Fin 4) (phase : Fin 8) (dt : Nat)
  /-- REFERENCE_ACCEPT (R321): A station accepts a reference, corrects its rate and advances its state. -/
  | referenceAccept (n : Fin 4)
  /-- REFERENCE_MISSED (R329): A reference acceptance window closes with no reference. -/
  | referenceMissed (n : Fin 4) (dt : Nat)
  /-- BACKUP_TAKEOVER (R334): A backup of rank k sends the reference after E + k × GUARD. -/
  | backupTakeover (n : Fin 4) (phase : Fin 8) (dt : Nat)
  /-- COLDSTART_LISTEN_TIMEOUT (R331): A listening station with both links locked starts a cold-start attempt. -/
  | coldstartListenTimeout (n : Fin 4)
  /-- COLDSTART_SEND (R332): An attempting station sends a COLDSTART frame each cycle. -/
  | coldstartSend (n : Fin 4)
  /-- COLDSTART_RECEIVED (R332): An attempting station judges a COLDSTART frame: abandon, discard or count a return. -/
  | coldstartReceived (n : Fin 4)
  /-- MODE_REQUEST (R344): A write of MODE_REQUEST at the head announces a mode change. -/
  | modeRequest (q : Path) (n : Fin 4) (v : Half)
  /-- RESTORE_REQUEST (R343): A write of RESTORE at the head announces a restore. -/
  | restoreRequest (q : Path) (n : Fin 4) (v : Word)
  /-- MGMT_SEND (R327): Writing SEND queues a management request for the next MANAGEMENT slot. -/
  | mgmtSend (q : Path) (n : Fin 4) (v : Word)
  /-- MGMT_RETURN (R327): The management request returns and its payload is written to REPLY. -/
  | mgmtReturn (n : Fin 4) (d : List Byte) (good : Bool)
  /-- MGMT_TIMEOUT (R327): A management request does not return within RING_LOOP + 2 µs. -/
  | mgmtTimeout (n : Fin 4)
  /-- MGMT_READ_IDENTITY (R319): A target writes its identity reply into the passing frame. -/
  | mgmtReadIdentity (n : Fin 4)
  /-- MGMT_ASSIGN_NUMBER (R319): A target at a position takes a new node number. -/
  | mgmtAssignNumber (n : Fin 4)
  /-- MGMT_WRITE_TABLE (R319): A target stages table data. -/
  | mgmtWriteTable (n : Fin 4)
  /-- MGMT_COMMIT (R319): A target commits staged table data if the count and check pass. -/
  | mgmtCommit (n : Fin 4)
  /-- MGMT_READ_STATUS (R319): A target writes its status counters into the frame. -/
  | mgmtReadStatus (n : Fin 4)
  /-- MGMT_READ_LINKS (R319): A target writes its link delays into the frame. -/
  | mgmtReadLinks (n : Fin 4)
  /-- TRACK_ENABLE (R357): A write of a track's ENABLE checks and starts or stops the track. -/
  | trackEnable (q : Path) (t : Fin 16) (v : Word)
  /-- LOCUS_STAGING_START (R356): At D(c) − LEAD a track starts reading its record. -/
  | locusStagingStart (t : Fin 16) (dt : Nat)
  /-- LOCUS_READ_DONE (R356): The record is in the track buffer and its write to the destination starts. -/
  | locusReadDone (t : Fin 16) (dt : Nat)
  /-- LOCUS_PIO_PUSH (R356): A record word enters a PIO TX FIFO as room appears. -/
  | locusPioPush (t : Fin 16)
  /-- LOCUS_STAGED (R356): The last byte or word is written at the commit point. -/
  | locusStaged (t : Fin 16)
  /-- LOCUS_DEADLINE_MISS (R358): The read is not done by D(c) − WB and the underrun policy applies. -/
  | locusDeadlineMiss (t : Fin 16) (dt : Nat)
  /-- SWAP_ARM (R360): SWAP_COMMAND 1 arms a pattern swap. -/
  | swapArm (q : Path)
  /-- SWAP_CANCEL (R360): SWAP_COMMAND 2 cancels an armed swap. -/
  | swapCancel (q : Path)
  /-- SWAP_ARM_TIED (R360): SWAP_COMMAND 3 arms a swap tied to the Perimeter mode change. -/
  | swapArmTied (q : Path)
  /-- TRACK_ABORT (R362): Writing ABORT ends a track's staging and disables it. -/
  | trackAbort (q : Path) (t : Fin 16) (v : Byte)
  /-- LATTICE_ENABLE (R377): ENABLE starts the Lattice agent in DISCOVERING. -/
  | latticeEnable (q : Path) (v : Word)
  /-- HELLO_SEND (R372): Every HELLO_PERIOD the agent sends HELLOs, the keeper incrementing KEEPER_SEQ. -/
  | helloSend (dt : Nat)
  /-- HELLO_RECEIVED (R373): A HELLO updates the neighbour and keeper claims. -/
  | helloReceived
  /-- NEIGHBOUR_TIMEOUT (R373): 3 × HELLO_PERIOD without a HELLO loses the neighbour. -/
  | neighbourTimeout (n : Fin 16)
  /-- KEEPER_CLAIM_STALE (R375): A keeper claim's KEEPER_SEQ stops rising and the keeper is dropped. -/
  | keeperClaimStale (id : DWord)
  /-- DISCOVERY_END (R377): Discovery ends and the device names its keeper. -/
  | discoveryEnd
  /-- JOIN_SEND (R378): A member without an address sends a JOIN to its sponsor. -/
  | joinSend
  /-- JOIN_RELAY (R378): A sponsor relays a JOIN to the keeper and the grant back. -/
  | joinRelay
  /-- JOIN_RECEIVED (R379): The keeper grants an address. -/
  | joinReceived
  /-- JOIN_GRANT_RECEIVED (R379): A member takes its granted address and stores it. -/
  | joinGrantReceived
  /-- LINK_REPORT_SEND (R378): A member sends a LINK_REPORT on change or every 10 × HELLO_PERIOD. -/
  | linkReportSend
  /-- LINK_REPORT_RECEIVED (R380): The keeper recomputes routes and redistributes them. -/
  | linkReportReceived
  /-- ROUTE_PART_RECEIVED (R381): A ROUTE part arrives; a complete generation goes into force. -/
  | routePartReceived
  /-- ROUTE_HEAD_TIMEOUT (R385): No route head arrives within 2 s and the device quarantines as UNCONFIRMED. -/
  | routeHeadTimeout
  /-- LATTICE_FRAME_FORWARD (R369): A Lattice frame from a link is forwarded by route. -/
  | latticeFrameForward (p : Fin 12) (head : List Byte) (ago : Nat) (phase : Fin 8)
  /-- LATTICE_FRAME_DELIVERED (R368): A Lattice frame reaches the agent and its PAYLOAD_CRC is checked. -/
  | latticeFrameDelivered (p : Fin 12) (d : List Byte)
  /-- OD_ACCESS_REQUEST (R382): A target carries out OD operations and answers. -/
  | odAccessRequest (secure : Bool)
  /-- MAILBOX_RELAY_REQUEST (R382): A target posts a relayed message. -/
  | mailboxRelayRequest (secure : Bool)
  /-- LOG_REQUEST (R382): A target answers with log records. -/
  | logRequest
  /-- FIRMWARE_OFFER (R382): A target prepares to stage an offered image. -/
  | firmwareOffer (len : Word) (sha : List Byte) (at' : Word)
  /-- FIRMWARE_BLOCK (R382): A target stages an image block. -/
  | firmwareBlock (off : Word) (d : List Byte)
  /-- FIRMWARE_COMPLETE (R382): A target verifies and installs the staged image. -/
  | firmwareComplete (secure apexGood : Bool)
  /-- CONFIG_REQUEST (R382): The keeper answers with blocks of its current set. -/
  | configRequest
  /-- RESET_REQUEST (R382): A secure request performs a LATTICE_REMOTE warm reset. -/
  | resetRequest (secure : Bool)
  /-- SESSION_REQUEST (R382): A target takes a session exchange message. -/
  | sessionRequest (good : Bool)
  /-- SERVICE_ANSWER_RECEIVED (R382): A requester receives its answer. -/
  | serviceAnswerReceived
  /-- REQUEST_REPEAT_TIMEOUT (R382): No answer after 50 ms and the request is repeated. -/
  | requestRepeatTimeout (k : Nat)
  /-- ANSWER_CACHE_EXPIRY (R382): A kept answer expires after 1 s. -/
  | answerCacheExpiry (k : Nat)
  /-- CONFIG_PUBLISH (R384): Writing PUBLISH on the keeper stores and distributes a new set. -/
  | configPublish (p : Path) (v : Word)
  /-- CONFIG_FETCH_COMPLETE (R386): A fetched set is verified, applied and stored, leaving quarantine. -/
  | configFetchComplete
  /-- CONFIG_FETCH_RETRY (R386): A failed set is fetched again every 1 s. -/
  | configFetchRetry
  /-- KEEPER_FORGET (R379): A secure write of FORGET removes an address entry. -/
  | keeperForget (q : Path) (v : Half)
  /-- INSTANCE_START (R399): COMMAND 1 starts an instance, or refuses it with a cause. -/
  | instanceStart (p : Path) (n : Fin 6)
  /-- INSTANCE_START_DONE (R400): An instance finishes loading and STATE becomes 2. -/
  | instanceStartDone (n : Fin 6) (binds : List (Fin 32 × Half × Half))
  /-- INSTANCE_STOP (R401): COMMAND 2 halts the engines and removes the instance's objects. -/
  | instanceStop (p : Path) (n : Fin 6)
  /-- PRIVATE_VALUE_ACCESS (R404): PRIVATE_VALUE reads or writes the selected PRIVATE entry. -/
  | privateValueAccess (p : Path) (n : Fin 6) (w : Option DWord)
  /-- NETWORK_OD_ACCESS (R405): A network acyclic service accesses the OD through its mapping. -/
  | networkOdAccess (n : Fin 6) (conn : Nat) (op : NetOp)
  /-- MODBUS_VALUE_READ (R405): A read of register 0xF002 performs the OD read and latches the value. -/
  | modbusValueRead (n : Fin 6) (conn : Nat)
  /-- MODBUS_VALUE_COMMIT (R405): A write of register 0xF005 commits the value registers. -/
  | modbusValueCommit (n : Fin 6) (conn : Nat) (v : Half)
  /-- CAN_MODE_WRITE (R422): A write of MODE changes the controller's operation. -/
  | canModeWrite (p : Path) (c : Fin 4) (v : Word)
  /-- CAN_INTEGRATED (R422): After 11 recessive bits the controller integrates. -/
  | canIntegrated (c : Fin 4)
  /-- CAN_FRAME_RECEIVED (R415): A valid frame is accepted by a buffer or filter. -/
  | canFrameReceived (c : Fin 4) (f : BusFrame) (ago : Nat) (phase : Fin 8)
  /-- CAN_FRAME_STORED (R414): A received frame is stored in its slot or shadow. -/
  | canFrameStored (c : Fin 4)
  /-- CAN_RX_ERROR (R423): An error during reception updates REC. -/
  | canRxError (c : Fin 4) (lec : Fin 7) (data res : Bool) (eights : Fin 32)
  /-- CAN_TX_REQUEST (R419): TX_REQUEST bits make buffers pending. -/
  | canTxRequest (p : Path) (c : Fin 4) (v : DWord)
  /-- CAN_TX_ATTEMPT (R420): At SOF the controller starts its best pending buffer. -/
  | canTxAttempt (c : Fin 4) (phase : Fin 8) (dt : Nat)
  /-- CAN_TX_SUCCESS (R420): A frame is valid for the transmitter, STATE 4. -/
  | canTxSuccess (c : Fin 4) (delay : BitVec 7)
  /-- CAN_TX_ERROR (R423): A transmission attempt ends in error. -/
  | canTxError (c : Fin 4) (lec : Fin 7) (data free : Bool) (eights : Fin 32) (delay : BitVec 7)
  /-- CAN_TX_ABORT (R421): TX_ABORT bits abort buffers. -/
  | canTxAbort (p : Path) (c : Fin 4) (v : DWord)
  /-- CAN_LOCK_SET (R417): LOCK_SET locks receive buffers. -/
  | canLockSet (p : Path) (c : Fin 4) (v : DWord)
  /-- CAN_LOCK_CLEAR (R417): LOCK_CLEAR unlocks buffers and starts shadow promotion. -/
  | canLockClear (p : Path) (c : Fin 4) (v : DWord)
  /-- CAN_SHADOW_PROMOTED (R417): The shadow is copied into the slot. -/
  | canShadowPromoted (c : Fin 4) (b : Fin 64)
  /-- CAN_LOST_CLEAR (R417): LOST_CLEAR clears LOST bits. -/
  | canLostClear (p : Path) (c : Fin 4) (v : DWord)
  /-- CAN_FIFO_GET (R416): A write of GET frees FIFO slots. -/
  | canFifoGet (p : Path) (c : Fin 4) (k : Fin 2) (v : Word)
  /-- CAN_RECOVER (R423): Writing RECOVER starts bus-off recovery counting. -/
  | canRecover (p : Path) (c : Fin 4) (v : Word)
  /-- CAN_BUS_OFF_RECOVERED (R423): 128 × 11 recessive bits end bus off with counters 0. -/
  | canBusOffRecovered (c : Fin 4)
  /-- PIO_B (R440): Branch always. -/
  | pioB (m : Fin 32)
  /-- PIO_LOOPA (R440): Decrements A and branches while non-zero. -/
  | pioLoopa (m : Fin 32)
  /-- PIO_LOOPB (R440): Decrements B and branches while non-zero. -/
  | pioLoopb (m : Fin 32)
  /-- PIO_BC (R441): Branches if BRANCH_COND holds. -/
  | pioBc (m : Fin 32) (pins : Half)
  /-- PIO_DRIVE (R440): Drives n bits to pin level registers. -/
  | pioDrive (m : Fin 32)
  /-- PIO_SAMPLE (R440): Samples n pins into RW. -/
  | pioSample (m : Fin 32) (pins : Half)
  /-- PIO_FETCH (R440): Loads TW from the TX FIFO. -/
  | pioFetch (m : Fin 32)
  /-- PIO_STORE (R440): Stores RW to the RX FIFO. -/
  | pioStore (m : Fin 32)
  /-- PIO_LOAD (R440): Loads A, B, or SET pin levels or directions. -/
  | pioLoad (m : Fin 32)
  /-- PIO_AWAIT (R442): Waits for a pin, flag or trigger. -/
  | pioAwait (m : Fin 32) (pins : Half)
  /-- PIO_FLAG (R440): Sets or clears a block flag. -/
  | pioFlag (m : Fin 32)
  /-- PIO_COPY (R440): Copies a source to a destination. -/
  | pioCopy (m : Fin 32) (pins : Half)
  /-- PIO_UNPACK (R440): Takes n TX stream bits into a destination. -/
  | pioUnpack (m : Fin 32)
  /-- PIO_PACK (R440): Puts n bits of a source into RW. -/
  | pioPack (m : Fin 32)
  /-- PIO_NOP (R440): Does nothing. -/
  | pioNop (m : Fin 32)
  /-- PIO_WAIT_END (R434): A stalled or waiting SM instruction completes. -/
  | pioWaitEnd (m : Fin 32) (pins : Half)
  /-- PIO_DELAY_EXPIRY (R434): DELAY cycles end and the SM fetches its next instruction. -/
  | pioDelayExpiry (m : Fin 32)
  /-- PIO_SM_ENABLE (R446): Setting an SM_ENABLE bit starts the SM. -/
  | pioSmEnable (q : Path) (b : Fin 4) (v : Byte)
  /-- PIO_SM_DISABLE (R446): Clearing an SM_ENABLE bit stops the SM at a cycle boundary. -/
  | pioSmDisable (q : Path) (b : Fin 4) (v : Byte)
  /-- PIO_RESTART (R446): RESTART resets a disabled SM's PC and staging. -/
  | pioRestart (q : Path) (m : Fin 32) (v : Word)
  /-- PIO_FIFO_CLEAR (R451): FIFO_CLEAR empties both FIFOs. -/
  | pioFifoClear (q : Path) (m : Fin 32) (v : Word)
  /-- PIO_WRAP_WRITE (R437): A WRAP write is staged or applied at once. -/
  | pioWrapWrite (q : Path) (m : Fin 32) (v : Half)
  /-- PIO_SYNC_APPLY_ARM (R447): COMMAND 1 applies or arms the synchronous start masks. -/
  | pioSyncApplyArm (q : Path)
  /-- PIO_SYNC_CANCEL (R447): COMMAND 2 cancels an armed synchronous start. -/
  | pioSyncCancel (q : Path)
  /-- PIO_SYNC_APPLY (R447): On the apply tick masks stop, restart and start SMs. -/
  | pioSyncApply
  /-- PIO_FLAG_SET_WRITE (R442): FLAG_SET sets block flags. -/
  | pioFlagSetWrite (q : Path) (b : Fin 4) (v : Byte)
  /-- PIO_FLAG_CLEAR_WRITE (R442): FLAG_CLEAR clears block flags. -/
  | pioFlagClearWrite (q : Path) (b : Fin 4) (v : Byte)
  /-- PIO_TX_FIFO_PUSH (R452): A write of TX_FIFO pushes a word. -/
  | pioTxFifoPush (q : Path) (m : Fin 32) (v : Word)
  /-- PIO_RX_FIFO_POP (R452): A read of RX_FIFO pops a word. -/
  | pioRxFifoPop (q : Path) (m : Fin 32)
  /-- PIO_DMA_ENABLE (R454): ENABLE = 1 starts a PIO DMA channel. -/
  | pioDmaEnable (q : Path) (k : Fin 64) (v : Word)
  /-- PIO_DMA_STOP (R445): STOP or ENABLE = 0 ends a channel after its words in flight. -/
  | pioDmaStop (q : Path) (k : Fin 64) (v : Word)
  /-- PIO_DMA_WORD (R445): A channel moves one word when its FIFO allows. -/
  | pioDmaWord (k : Fin 64)
  /-- BANK_POWER_WRITE (R458): A write of RUN_STATE starts a bank power transition. -/
  | bankPowerWrite (p : Path) (b : Fin 96) (v : Word)
  /-- BANK_TRANSITION_DONE (R458): A bank reaches its new power state. -/
  | bankTransitionDone (b : Fin 96)
  /-- SCRUB_PASS_START (R466): Every SCRUB_PERIOD the scrubber starts a pass. -/
  | scrubPassStart
  /-- SCRUB_PASS_DONE (R466): A scrub pass completes. -/
  | scrubPassDone
  /-- MBOX_LOCK_READ (R478): A read of LOCK takes a free lock or returns the owner. -/
  | mboxLockRead (p : Path) (ch : Fin 48)
  /-- MBOX_LOCK_RELEASE (R478): The owner writes 0 to LOCK. -/
  | mboxLockRelease (p : Path) (ch : Fin 48) (v : Word)
  /-- MBOX_POST (R480): A write of POST commits the message and doorbell bits. -/
  | mboxPost (p : Path) (ch : Fin 48) (bits : Word) (len : Word)
  /-- MBOX_DOORBELL_READ (R482): A read of DOORBELL returns pending bits and checks the message. -/
  | mboxDoorbellRead (p : Path) (ch : Fin 48)
  /-- MBOX_DOORBELL_CLEAR (R481): A write of 1 to DOORBELL bits clears them. -/
  | mboxDoorbellClear (p : Path) (ch : Fin 48) (v : Word)
  /-- MBOX_MASK_WRITE (R484): A write of MASK changes notification. -/
  | mboxMaskWrite (p : Path) (ch : Fin 48) (v : Word)
  /-- MBOX_DISCARD_ZEROED (R488): A discarded area is zeroed and the lock released. -/
  | mboxDiscardZeroed (ch : Fin 48)
  /-- PCIE_PERST (R494): PERST_N low resets the PCIe interface. -/
  | pciePerst
  /-- PCIE_FLR (R494): A Function Level Reset resets the PCIe interface. -/
  | pcieFlr
  /-- PCIE_LINK_DOWN_TIMEOUT (R494): A link-down lasting over 1 ms resets the PCIe interface. -/
  | pcieLinkDownTimeout
  /-- PCIE_LINK_UP (R507): The PCIe link trains up. -/
  | pcieLinkUp (width speed : Fin 4) (busMaster msixEnabled : Bool)
  /-- PCIE_LINK_DOWN (R507): The PCIe link goes down. -/
  | pcieLinkDown
  /-- PCIE_ATOMIC_OP (R493): An AtomicOp on BAR2 executes or completes with 0. -/
  | pcieAtomicOp (op : AtomicOp) (addr : DWord) (wide : Bool) (operand : DWord)
  /-- MSIX_UNMASK (R495): Unmasking a vector sends its pending message. -/
  | msixUnmask (vec : Fin 64)
  /-- HOST_DMA_TAIL_WRITE (R496): A TAIL write hands descriptors to a host DMA channel. -/
  | hostDmaTailWrite (p : Path) (k : Fin 8) (v : Word)
  /-- HOST_DMA_DESCRIPTOR (R497): A channel checks and moves one descriptor and writes it back. -/
  | hostDmaDescriptor (k : Fin 8) (hostData : List Byte) (hostError : Bool)
  /-- HOST_DMA_ABORT (R498): ABORT aborts the transfer in progress at its commit point. -/
  | hostDmaAbort (p : Path) (k : Fin 8) (v : Word) (moved : Bool)
  /-- QSPI_READ_ID (R500): Opcode 0x9F returns the ID bytes. -/
  | qspiReadId
  /-- QSPI_READ_STATUS (R502): Opcode 0x05 returns the status byte. -/
  | qspiReadStatus
  /-- QSPI_READ (R501): Opcode 0x0B reads up to 128 bytes with a prefix byte. -/
  | qspiRead (addr : Word) (len : Nat) (late : Bool)
  /-- QSPI_WRITE (R501): Opcode 0x02 writes whole words after CS_N rises. -/
  | qspiWrite (addr : Word) (data : List Byte)
  /-- QSPI_ATOMIC_ADD (R501): Opcode 0x3A performs fetch-and-add. -/
  | qspiAtomicAdd (addr : Word) (wide : Bool) (operand : DWord)
  /-- QSPI_ATOMIC_SWAP (R501): Opcode 0x3B performs swap. -/
  | qspiAtomicSwap (addr : Word) (wide : Bool) (operand : DWord)
  /-- QSPI_ATOMIC_RESULT (R500): Opcode 0x3C returns the old value. -/
  | qspiAtomicResult
  /-- QSPI_RESET_ENABLE (R500): Opcode 0x66 enables the reset command. -/
  | qspiResetEnable
  /-- QSPI_RESET (R502): Opcode 0x99 after 0x66 resets the quad-SPI interface. -/
  | qspiReset
  /-- QSPI_UNKNOWN_OPCODE (R500): An unlisted opcode leaves IO undriven with no effect. -/
  | qspiUnknownOpcode (op : Byte)
  /-- SESSION_OPEN (R503): An OPEN message starts a session exchange. -/
  | sessionOpen (ch : Fin 4)
  /-- SESSION_PROVE (R504): A valid PROVE opens the session. -/
  | sessionProve (ch : Fin 4) (good : Bool)
  /-- SESSION_OD_ACCESS (R504): Authenticated OD operations run as secure accesses. -/
  | sessionOdAccess (ch : Fin 4) (good : Bool)
  /-- SESSION_CLOSE (R504): A CLOSE message closes the session. -/
  | sessionClose (ch : Fin 4) (good : Bool)
  /-- SESSION_IDLE_TIMEOUT (R504): IDLE_TIMEOUT without an accepted message closes the session. -/
  | sessionIdleTimeout (ch : Fin 4)
  /-- HOST_LOAD_GO (R506): Writing GO starts verification of a host-loaded image. -/
  | hostLoadGo (p : Path) (v : Word)
  /-- HOST_LOAD_VERIFIED (R506): Verification ends and the image runs or the device waits again. -/
  | hostLoadVerified (ok : Bool)
  /-- RECORD_EVENT (R514): An event is queued as a record with the next SEQUENCE. -/
  | recordEvent (typ : Half) (b : List Byte)
  /-- RECORD_COMMITTED (R514): A record's trailer is written and COMMITTED_SEQ advances. -/
  | recordCommitted
  /-- LOG_SCAN_DONE (R516): The log scan ends and queued records are written. -/
  | logScanDone
  /-- LOG_CLEAR (R520): Writing the clear signature starts a new log. -/
  | logClear (p : Path) (v : Word)
  /-- OPERATING_MINUTE (R512): A minute of operating time completes and is counted. -/
  | operatingMinute
  /-- TEMP_SAMPLE (R524): Every millisecond the sensors are read and warnings judged. -/
  | tempSample (temps volts : List Half)
  /-- SUPPLY_EXCURSION (R525): A supply leaves its range and the SUPPLY hold reason is set. -/
  | supplyExcursion (m : Fin 11) (mv : Half)
  /-- SUPPLY_RECOVERED (R525): All supplies return to range and SUPPLY clears. -/
  | supplyRecovered (m : Fin 11) (mv : Half)
  /-- PACE_UPDATE (R527): Every 10 s Apex computes PACE and MARGIN for each monitor. -/
  | paceUpdate (factory : List Word)
  /-- MARGIN_RECORD (R529): Every 30 days Apex writes an ageing margin record. -/
  | marginRecord
  /-- PERTURB_ARM (R530): Writing the arm signature queues an arming record. -/
  | perturbArm (p : Path) (v : Word)
  /-- PERTURB_ARMED (R530): The arming record commits and injections take effect. -/
  | perturbArmed
  /-- PERTURB_DISARM (R530): Writing 0 to ARM disarms and stops injections. -/
  | perturbDisarm (p : Path) (v : Word)
  /-- TEST_IN_SERVICE_WRITE (R532): The keeper writes TEST_IN_SERVICE, starting TEST_TIMEOUT. -/
  | testInServiceWrite (p : Path) (v : Word) (keeper : Bool)
  /-- TEST_TIMEOUT_EXPIRY (R532): TEST_TIMEOUT expires, clearing the flag or disarming. -/
  | testTimeoutExpiry
  /-- AUTO_DISARM_EXPIRY (R531): AUTO_DISARM ends and the device disarms. -/
  | autoDisarmExpiry
  /-- BACKPRESSURE_SLOT (R533): Each SLOT the next back-pressure pattern bit applies. -/
  | backpressureSlot
  /-- SYMBOL_INJECT (R533): A code violation is sent in place of a Perimeter symbol every INTERVAL. -/
  | symbolInject
  /-- JITTER_DRAW (R533): Every PERIOD a new jitter offset is drawn for the domain. -/
  | jitterDraw
  /-- JTAG_UNLOCK (R558): A signed token delivered to Apex unlocks the TAP. -/
  | jtagUnlock (p : Path) (good : Bool)
  /-- JTAG_INSTRUCTION (R558): A TAP instruction runs, limited while locked. -/
  | jtagInstruction (ir : TapOp)
  /-- ILLEGAL_ENCODING (R146): An engine or Apex fetches a word whose OP is not listed (such as the 0x0000_0000 fill, or the word past IRAM_WORDS) and stops in FAULT. -/
  | illegalEncoding (c : Fin 33)
  /-- RESET_N_PULSE_IGNORED (R80): RESET_N rises before the glitch filter has taken the pulse, and the pulse has no effect at all. -/
  | resetNPulseIgnored
  /-- PCIE_PERST_RELEASE (R494): PERST_N is deasserted and PCIe link training starts once bring-up step 5 has completed. -/
  | pciePerstRelease
  /-- SERDES_LOCK_ACQUIRED (R195): A span port SerDes lane gains symbol lock and sets SERDES_LOCK. -/
  | serdesLockAcquired (n : Fin 4)
  /-- STREAM_GATE_LIST_OPERATIONAL (R243): At its change time a stream gate's new list becomes operational and its STATUS reads 2. -/
  | streamGateListOperational (g : Fin 64) (dt : Nat)
  /-- FDB_COMMAND_DONE (R253): A forwarding database command finishes and STATUS leaves busy for done, not found or bucket full. -/
  | fdbCommandDone
  /-- GUARD_TABLE_CHECKED (R337): The guardian table check ends and GUARD_STATUS reads committed or rejected. -/
  | guardTableChecked (n : Fin 4)
  /-- PACE_WINDOW_END (R527): A pace monitor's 2^19-tick window ends, its handshake count is taken and SAMPLES increments. -/
  | paceWindowEnd (k : Fin 21) (count : Nat)
  /-- TRIGGERED_HELLO (R372): The 10 ms HELLO spacing on a link ends and a HELLO held back by a payload change or a risen KEEPER_SEQ is sent. -/
  | triggeredHello (p : Fin 12) (dt : Nat)
  deriving DecidableEq, Repr

end Sys2Proof
end

