-- ==== Sys2Proof/Decode.lean ====
section
/-! DEFINITION. Commands spelled by bits. The block takes its commands from outside and its command table gives no row
any bits (spec/opcode_table.json: every row's `fields` is empty), so no word spells a command. -/

namespace Sys2Proof

/-- The command a word spells by the table's bits: no row of the table has bits. -/
def decodeTableWord (_nbits _w : Nat) : Option Instr := none

end Sys2Proof
end

