-- ==== Sys2Proof/Machine/Crc.lean ====
section
/-! DEFINITION. The checks the device computes: the four CRC polynomials of R161 and SHA-256 (R131, R167). -/

namespace Sys2Proof.Machine

/-- The reflected polynomial of POLY 0–2 (R161). -/
def crcPolyRef (p : Nat) : Word := if p = 0 then 0xEDB88320 else if p = 1 then 0x82F63B78 else 0x0000A001

/-- The final XOR of a polynomial (R161). -/
def crcFinal (p : Nat) : Word := if p ≤ 1 then 0xFFFFFFFF else 0

/-- The state bits a polynomial uses: CRC-16 states keep [31:16] zero (R161). -/
def crcTrim (p : Nat) (s : Word) : Word := if p ≤ 1 then s else s &&& 0xFFFF

/-- Shift one reflected state by a bit. -/
def crcRefBit (poly s : Word) (b : Bool) : Word :=
  let t := s >>> 1
  if (s.getLsbD 0 ^^ b) then t ^^^ poly else t

/-- POLY 3, not reflected: one bit, most significant first. -/
def crc3Bit (s : Word) (b : Bool) : Word :=
  let t := (s <<< 1) &&& 0xFFFF
  if (s.getLsbD 15 ^^ b) then t ^^^ 0x1021 else t

/-- Fold a nibble under a reflected polynomial, least significant bit first (R161). -/
def crcNibRef (poly s : Word) (n : Nib) : Word :=
  crcRefBit poly (crcRefBit poly (crcRefBit poly (crcRefBit poly s (n.getLsbD 0)) (n.getLsbD 1)) (n.getLsbD 2)) (n.getLsbD 3)

/-- Fold a nibble under POLY 3, most significant bit first. -/
def crcNib3 (s : Word) (n : Nib) : Word :=
  crc3Bit (crc3Bit (crc3Bit (crc3Bit s (n.getLsbD 3)) (n.getLsbD 2)) (n.getLsbD 1)) (n.getLsbD 0)

/-- Fold nibbles in the order they come: POLY 3 takes whole bytes, high nibble then low nibble (R161). A single last
nibble under POLY 3 is left to the caller. -/
def crcFold (p : Nat) (s : Word) : List Nib → Word
  | [] => s
  | [a] => if p = 3 then s else crcNibRef (crcPolyRef p) s a
  | a :: b :: t =>
    if p = 3 then crcFold p (crcNib3 (crcNib3 s b) a) t
    else crcFold p (crcNibRef (crcPolyRef p) (crcNibRef (crcPolyRef p) s a) b) t

/-- The nibbles of bytes, low nibble first (R158). -/
def nibsOf : List Byte → List Nib
  | [] => []
  | b :: t => b.extractLsb' 0 4 :: b.extractLsb' 4 4 :: nibsOf t

/-- Bytes from nibbles, low nibble first; a last single nibble is dropped. -/
def bytesOf : List Nib → List Byte
  | a :: b :: t => (b ++ a) :: bytesOf t
  | _ => []

/-- CRC-32C of bytes (POLY 1: initial and final all ones). -/
def crc32c (l : List Byte) : Word := crcFold 1 0xFFFFFFFF (nibsOf l) ^^^ 0xFFFFFFFF

/-- CRC-32 of bytes (POLY 0), the Ethernet FCS. -/
def crc32 (l : List Byte) : Word := crcFold 0 0xFFFFFFFF (nibsOf l) ^^^ 0xFFFFFFFF

/-! ### SHA-256 -/

/-- The round constants of SHA-256 (FIPS 180-4). -/
def shaK : List Word := [
  0x428a2f98, 0x71374491, 0xb5c0fbcf, 0xe9b5dba5, 0x3956c25b, 0x59f111f1, 0x923f82a4, 0xab1c5ed5,
  0xd807aa98, 0x12835b01, 0x243185be, 0x550c7dc3, 0x72be5d74, 0x80deb1fe, 0x9bdc06a7, 0xc19bf174,
  0xe49b69c1, 0xefbe4786, 0x0fc19dc6, 0x240ca1cc, 0x2de92c6f, 0x4a7484aa, 0x5cb0a9dc, 0x76f988da,
  0x983e5152, 0xa831c66d, 0xb00327c8, 0xbf597fc7, 0xc6e00bf3, 0xd5a79147, 0x06ca6351, 0x14292967,
  0x27b70a85, 0x2e1b2138, 0x4d2c6dfc, 0x53380d13, 0x650a7354, 0x766a0abb, 0x81c2c92e, 0x92722c85,
  0xa2bfe8a1, 0xa81a664b, 0xc24b8b70, 0xc76c51a3, 0xd192e819, 0xd6990624, 0xf40e3585, 0x106aa070,
  0x19a4c116, 0x1e376c08, 0x2748774c, 0x34b0bcb5, 0x391c0cb3, 0x4ed8aa4a, 0x5b9cca4f, 0x682e6ff3,
  0x748f82ee, 0x78a5636f, 0x84c87814, 0x8cc70208, 0x90befffa, 0xa4506ceb, 0xbef9a3f7, 0xc67178f2]

/-- The schedule, newest word first, extended `n` words. -/
def shaExtend : Nat → List Word → List Word
  | 0, w => w
  | n + 1, w =>
    let a := w.getD 14 0
    let b := w.getD 1 0
    let s0 := a.rotateRight 7 ^^^ a.rotateRight 18 ^^^ (a >>> 3)
    let s1 := b.rotateRight 17 ^^^ b.rotateRight 19 ^^^ (b >>> 10)
    shaExtend n ((w.getD 15 0 + s0 + w.getD 6 0 + s1) :: w)

/-- One round: working words a–h as a list, the round constant and the schedule word. -/
def shaRound (v : List Word) (k w : Word) : List Word :=
  match v with
  | [a, b, c, d, e, f, g, h] =>
    let t1 := h + (e.rotateRight 6 ^^^ e.rotateRight 11 ^^^ e.rotateRight 25) + ((e &&& f) ^^^ (~~~e &&& g)) + k + w
    let t2 := (a.rotateRight 2 ^^^ a.rotateRight 13 ^^^ a.rotateRight 22) + ((a &&& b) ^^^ (a &&& c) ^^^ (b &&& c))
    [t1 + t2, a, b, c, d + t1, e, f, g]
  | _ => v

/-- One compression of a 64-byte block into the eight-word state: the block's words are big-endian (FIPS 180-4). -/
def shaCompress (state : List Word) (block : List Word) : List Word :=
  let w := (shaExtend 48 block.reverse).reverse
  let r := (shaK.zip w).foldl (fun v (k, x) => shaRound v k x) state
  List.zipWith (· + ·) state r

/-- The initial state of SHA-256. -/
def shaInit : List Word :=
  [0x6a09e667, 0xbb67ae85, 0x3c6ef372, 0xa54ff53a, 0x510e527f, 0x9b05688c, 0x1f83d9ab, 0x5be0cd19]

/-- A big-endian word from four bytes. -/
def beWord (l : List Byte) : Word := BitVec.ofNat 32 (l.foldl (fun a b => a * 256 + b.toNat) 0)

/-- The big-endian bytes of a number. -/
def beBytes (v : Nat) (n : Nat) : List Byte :=
  (List.range n).map (fun i => BitVec.ofNat 8 (v / 256 ^ (n - 1 - i)))

/-- Sixteen big-endian words of a 64-byte block. -/
def shaBlock (l : List Byte) : List Word := (List.range 16).map (fun i => beWord ((l.drop (4 * i)).take 4))

/-- SHA-256 over whole blocks. -/
def shaBlocks : Nat → List Word → List Byte → List Word
  | 0, st, _ => st
  | n + 1, st, l => shaBlocks n (shaCompress st (shaBlock (l.take 64))) (l.drop 64)

/-- SHA-256 of bytes, as 32 bytes. -/
def sha256 (l : List Byte) : List Byte :=
  let pad := (119 - l.length % 64) % 64
  let m := l ++ 0x80 :: List.replicate pad 0 ++ beBytes (8 * l.length) 8
  (shaBlocks (m.length / 64) shaInit m).flatMap (fun w => beBytes w.toNat 4)

end Sys2Proof.Machine
end

