-- ==== Sys2Proof/Machine/OdRow.lean ====
section
/-! DEFINITION. The form of one line of an object table (spec/02, R35–R40): where the object lies, its type, its
access code, its default, the bits its map names and the ranges it accepts. -/

namespace Sys2Proof.Machine

/-- Data types of R37. Strings, DOMAINs, INTEGER64 and TIME_NS64 occupy two slots as `u64` does. -/
inductive OdTy where
  | bool | u8 | u16 | u32 | i8 | i16 | i32 | u64
  deriving DecidableEq, Repr

/-- Access codes of R40. -/
inductive OdAcc where
  | ro | rw | wo | const | rws | sec
  deriving DecidableEq, Repr

/-- A range a table states for the whole value or for one field of it (R38). -/
inductive OdRange where
  | whole (lo hi : Nat)
  | field (lsb width lo hi : Nat)
  | signed (lo hi : Int)
  | zeroOr (lo hi : Nat)
  | orVal (lo hi alt : Nat)
  | zeroOr3 (lsb width : Nat)
  deriving DecidableEq, Repr

/-- How the parameter store and a write treat the object: `stored` configuration, `enable` objects (stored, written
last), `clear1` (write 1 to clear), `plain` (never stored) (R54, R65). -/
inductive OdKind where
  | plain | stored | enable | clear1
  deriving DecidableEq, Repr

/-- One line of an object table. -/
structure OdRow where
  idx : Nat
  count : Nat
  stride : Nat
  subLo : Nat
  subHi : Nat
  ty : OdTy
  acc : OdAcc
  dflt : Nat
  mask : Nat
  ranges : List OdRange
  align : Nat
  kind : OdKind
  deriving DecidableEq, Repr

end Sys2Proof.Machine
end

