-- ==== Sys2Proof/Machine/OdTable.lean ====
section
/-! DEFINITION. The Object Dictionary's tables, one line per row of the object tables of spec/02 to spec/21
(index, count, stride, first and last sub, type, access code, default, named bits, ranges, alignment, kind).
The comment after a line names the object and the rule of its table. -/

namespace Sys2Proof.Machine

/-- Object table rows of indexes 0x1000–0x10FF. -/
def odRows10 : List OdRow := [
  ⟨0x1000, 1, 1, 0, 0, .u32, .const, 0, 0xffffffff, [], 1, .plain⟩,  -- DEVICE_TYPE (R52)
  ⟨0x1001, 1, 1, 0, 0, .u8, .ro, 0, 0xff, [], 1, .plain⟩,  -- ERROR_REGISTER (R52)
  ⟨0x1008, 1, 1, 0, 0, .u64, .const, 0, 0xffffffffffffffff, [], 1, .plain⟩,  -- DEVICE_NAME (R52)
  ⟨0x1009, 1, 1, 0, 0, .u64, .const, 0, 0xffffffffffffffff, [], 1, .plain⟩,  -- HARDWARE_VERSION (R52)
  ⟨0x100a, 1, 1, 0, 0, .u64, .ro, 0, 0xffffffffffffffff, [], 1, .plain⟩,  -- FIRMWARE_VERSION (R52)
  ⟨0x1010, 1, 1, 0, 0, .u8, .const, 4, 0xff, [], 1, .plain⟩,  -- HIGHEST_SUB (R55)
  ⟨0x1010, 1, 1, 1, 4, .u32, .rw, 1, 0xffffffff, [.whole 0x65766173 0x65766173], 1, .plain⟩,  -- save group (R55)
  ⟨0x1011, 1, 1, 0, 0, .u8, .const, 4, 0xff, [], 1, .plain⟩,  -- HIGHEST_SUB (R55)
  ⟨0x1011, 1, 1, 1, 4, .u32, .rw, 1, 0xffffffff, [.whole 0x64616f6c 0x64616f6c], 1, .plain⟩,  -- restore group (R55)
  ⟨0x1018, 1, 1, 0, 0, .u8, .const, 4, 0xff, [], 1, .plain⟩,  -- HIGHEST_SUB (R52)
  ⟨0x1018, 1, 1, 1, 1, .u32, .const, 0x554d, 0xffffffff, [], 1, .plain⟩,  -- VENDOR_CODE (R52)
  ⟨0x1018, 1, 1, 2, 2, .u32, .const, 0x8416, 0xffffffff, [], 1, .plain⟩,  -- PRODUCT_CODE (R52)
  ⟨0x1018, 1, 1, 3, 3, .u32, .const, 0xb0, 0xffffffff, [], 1, .plain⟩,  -- REVISION (R52)
  ⟨0x1018, 1, 1, 4, 4, .u32, .const, 0, 0xffffffff, [], 1, .plain⟩]  -- SERIAL (R52)

/-- Object table rows of indexes 0x2000–0x20FF. -/
def odRows20a : List OdRow := [
  ⟨0x2000, 1, 1, 0, 0, .u8, .const, 0xa, 0xff, [], 1, .plain⟩,  -- HIGHEST_SUB (R98)
  ⟨0x2000, 1, 1, 1, 1, .u8, .ro, 0, 0xff, [], 1, .plain⟩,  -- STATE (R98)
  ⟨0x2000, 1, 1, 2, 2, .u8, .ro, 0, 0xff, [], 1, .plain⟩,  -- STEP (R98)
  ⟨0x2000, 1, 1, 3, 3, .u32, .ro, 0, 0xffffffff, [], 1, .plain⟩,  -- START_TIME (R98)
  ⟨0x2000, 1, 1, 4, 4, .u32, .ro, 0, 0xffffffff, [], 1, .plain⟩,  -- SLEEP_EPOCH [W] (R98)
  ⟨0x2000, 1, 1, 5, 5, .u32, .rw, 0, 0x1ff, [], 1, .clear1⟩,  -- EVENT_STATUS (R98)
  ⟨0x2000, 1, 1, 6, 6, .u32, .rw, 0, 0x1ff, [], 1, .plain⟩,  -- EVENT_ENABLE (R98)
  ⟨0x2000, 1, 1, 7, 7, .u32, .rws, 0, 0xffffffff, [], 1, .plain⟩,  -- CONFIG_CONFIRMED (R98)
  ⟨0x2000, 1, 1, 8, 8, .u64, .const, 0, 0xffffffffffffffff, [], 1, .plain⟩,  -- UNIQUE_ID (R98)
  ⟨0x2000, 1, 1, 0xa, 0xa, .u8, .ro, 0, 0xff, [], 1, .plain⟩,  -- BOOT_MODE (R98)
  ⟨0x2001, 1, 1, 0, 0, .u8, .const, 5, 0xff, [], 1, .plain⟩,  -- HIGHEST_SUB (R76)
  ⟨0x2001, 1, 1, 1, 1, .u32, .rws, 0, 0xffffffff, [.whole 0xa55a 0xa55a], 1, .plain⟩,  -- RELEASE (R76)
  ⟨0x2001, 1, 1, 2, 2, .u32, .ro, 1, 0xffffffff, [], 1, .plain⟩,  -- HOLD_REASONS (R76)
  ⟨0x2001, 1, 1, 3, 3, .u32, .rws, 0, 0xff, [], 1, .plain⟩,  -- HOLD_ACK (R76)
  ⟨0x2001, 1, 1, 4, 4, .bool, .rw, 0, 1, [], 1, .plain⟩,  -- HOLD_REQUEST (R76)
  ⟨0x2001, 1, 1, 5, 5, .u32, .ro, 0, 0xffffffff, [], 1, .plain⟩,  -- REFUSED_RELEASES [W] (R76)
  ⟨0x2002, 1, 1, 0, 0, .u8, .const, 5, 0xff, [], 1, .plain⟩,  -- HIGHEST_SUB (R94)
  ⟨0x2002, 1, 1, 1, 1, .u8, .ro, 0, 0xff, [], 1, .plain⟩,  -- START_TRIES [S] (R94)
  ⟨0x2002, 1, 1, 2, 2, .bool, .rws, 0, 1, [], 1, .plain⟩,  -- START_OK (R94)
  ⟨0x2002, 1, 1, 3, 3, .bool, .rws, 0, 1, [], 1, .plain⟩,  -- TRIES_CLEAR (R94)
  ⟨0x2002, 1, 1, 4, 4, .u8, .ro, 0, 0xff, [], 1, .plain⟩,  -- RECOVERY_CAUSE (R94)
  ⟨0x2002, 1, 1, 5, 5, .u32, .ro, 0, 0xffffffff, [], 1, .plain⟩,  -- STARTS [S] (R94)
  ⟨0x2003, 1, 1, 0, 0, .u8, .const, 5, 0xff, [], 1, .plain⟩,  -- HIGHEST_SUB (R83)
  ⟨0x2003, 1, 1, 1, 1, .u8, .ro, 0, 0xff, [], 1, .plain⟩,  -- LAST_CAUSE (R83)
  ⟨0x2003, 1, 1, 2, 2, .u32, .rw, 0, 0x1ff, [], 1, .clear1⟩,  -- CAUSES (R83)
  ⟨0x2003, 1, 1, 3, 3, .u32, .ro, 0, 0xffffffff, [], 1, .plain⟩,  -- INTEGRITY_DETAIL (R83)
  ⟨0x2003, 1, 1, 4, 4, .u32, .ro, 0, 0xffffffff, [], 1, .plain⟩,  -- BLOCK_RESETS [W] (R83)
  ⟨0x2003, 1, 1, 5, 5, .u32, .rw, 0, 0xff, [], 1, .clear1⟩,  -- FACET_DBE (R83)
  ⟨0x2004, 1, 1, 0, 0, .u8, .const, 5, 0xff, [], 1, .plain⟩,  -- HIGHEST_SUB (R85)
  ⟨0x2004, 1, 1, 1, 1, .u32, .rws, 0, 0xffffffff, [.whole 0x74736572 0x74736572], 1, .plain⟩,  -- DEVICE_RESET (R85)
  ⟨0x2004, 1, 1, 2, 2, .u32, .rws, 0, 0xffffffff, [], 1, .plain⟩,  -- ENGINE_RESET (R85)
  ⟨0x2004, 1, 1, 3, 3, .u32, .rws, 0, 0xfffff, [], 1, .plain⟩,  -- FACET_MAC_RESET (R85)
  ⟨0x2004, 1, 1, 4, 4, .u32, .rws, 0, 0xf0f0f, [], 1, .plain⟩,  -- RING_CAN_PIO_RESET (R85)
  ⟨0x2004, 1, 1, 5, 5, .u32, .rws, 0, 0xf3, [], 1, .plain⟩,  -- CORE_UNIT_RESET (R85)
  ⟨0x2005, 1, 1, 0, 0, .u8, .const, 8, 0xff, [], 1, .plain⟩,  -- HIGHEST_SUB (R99)
  ⟨0x2005, 1, 1, 1, 8, .u32, .rw, 0, 0xffffffff, [], 1, .plain⟩,  -- BACKUP_k (R99)
  ⟨0x2006, 1, 1, 0, 0, .u8, .const, 7, 0xff, [], 1, .plain⟩,  -- HIGHEST_SUB (R59)
  ⟨0x2006, 1, 1, 1, 1, .u8, .ro, 0, 0xff, [], 1, .plain⟩,  -- STATE (R59)
  ⟨0x2006, 1, 1, 2, 2, .u8, .ro, 0, 0xff, [], 1, .plain⟩,  -- LAST_RESULT (R59)
  ⟨0x2006, 1, 1, 3, 3, .u8, .ro, 0, 0xff, [], 1, .plain⟩]  -- LOADED_FROM (R59)

/-- Object table rows of indexes 0x2000–0x20FF. -/
def odRows20b : List OdRow := [
  ⟨0x2006, 1, 1, 4, 4, .u32, .ro, 0, 0xffffffff, [], 1, .plain⟩,  -- GENERATION (R59)
  ⟨0x2006, 1, 1, 5, 5, .u32, .ro, 0, 0xffffffff, [], 1, .plain⟩,  -- SAVES [S] (R59)
  ⟨0x2006, 1, 1, 6, 6, .u32, .rw, 0, 7, [], 1, .clear1⟩,  -- EVENT_STATUS (R59)
  ⟨0x2006, 1, 1, 7, 7, .u32, .rw, 0, 7, [], 1, .plain⟩,  -- EVENT_ENABLE (R59)
  ⟨0x2007, 1, 1, 0, 0, .u8, .const, 9, 0xff, [], 1, .plain⟩,  -- HIGHEST_SUB (R91)
  ⟨0x2007, 1, 1, 2, 2, .u64, .rws, 0, 0xffffffffffffffff, [], 1, .plain⟩,  -- QUIET_EN (R91)
  ⟨0x2007, 1, 1, 4, 4, .u64, .rws, 0, 0xffffffffffffffff, [], 1, .plain⟩,  -- QUIET_LEVEL (R91)
  ⟨0x2007, 1, 1, 6, 6, .u8, .rws, 3, 0xff, [.whole 2 0xf], 1, .plain⟩,  -- RECOVERY_THRESHOLD (R91)
  ⟨0x2007, 1, 1, 7, 7, .u32, .ro, 0, 0xffffffff, [], 1, .plain⟩,  -- GENERATION (R91)
  ⟨0x2007, 1, 1, 8, 8, .u8, .ro, 0, 0xff, [], 1, .plain⟩,  -- LOADED_FROM (R91)
  ⟨0x2007, 1, 1, 9, 9, .u32, .rws, 0, 0xffffffff, [.whole 0x7374706f 0x7374706f], 1, .plain⟩,  -- COMMIT (R91)
  ⟨0x2008, 1, 1, 0, 0, .u8, .const, 8, 0xff, [], 1, .plain⟩,  -- HIGHEST_SUB (R100)
  ⟨0x2008, 1, 1, 1, 1, .u8, .rws, 1, 0xff, [.whole 1 3], 1, .plain⟩,  -- SLEEP_REQUEST (R100)
  ⟨0x2008, 1, 1, 2, 2, .u32, .rw, 0x100, 0x7ff, [], 1, .stored⟩,  -- WAKE_SOURCES (R100)
  ⟨0x2008, 1, 1, 3, 3, .u16, .rw, 0, 0xfff, [], 1, .stored⟩,  -- WAKE_MAC_PORTS (R100)
  ⟨0x2008, 1, 1, 4, 4, .u64, .rw, 0, 0xffffffffffffffff, [], 1, .stored⟩,  -- WAKE_PIO_MASK (R100)
  ⟨0x2008, 1, 1, 6, 6, .u8, .rw, 0, 0xff, [.whole 0 2], 1, .stored⟩,  -- WAKE_PIO_EDGE (R100)
  ⟨0x2008, 1, 1, 7, 7, .u8, .ro, 0xff, 0xff, [], 1, .plain⟩,  -- LAST_WAKE (R100)
  ⟨0x2008, 1, 1, 8, 8, .u32, .ro, 0, 0xffffffff, [], 1, .plain⟩]  -- SLEEP_REFUSED [W] (R100)

/-- Object table rows of indexes 0x2100–0x21FF. -/
def odRows21a : List OdRow := [
  ⟨0x2100, 4, 1, 0, 0, .u8, .const, 0x12, 0xff, [], 1, .plain⟩,  -- HIGHEST_SUB (R282)
  ⟨0x2100, 4, 1, 1, 1, .u8, .rws, 0, 0xff, [.whole 0 4], 1, .stored⟩,  -- RATE_OWNER (R282)
  ⟨0x2100, 4, 1, 2, 2, .u64, .ro, 0, 0xffffffffffffffff, [], 1, .plain⟩,  -- TIME (R282)
  ⟨0x2100, 4, 1, 4, 4, .u32, .ro, 0, 0xffffffff, [], 1, .plain⟩,  -- FRACTION (R282)
  ⟨0x2100, 4, 1, 5, 5, .u8, .rws, 0, 0xff, [.whole 0 1], 1, .plain⟩,  -- SYNC (R282)
  ⟨0x2100, 4, 1, 6, 6, .u64, .rws, 0x200000000, 0xffffffffffffffff, [.whole 0x1c0000000 0x240000000], 1, .stored⟩,  -- INCREMENT (R282)
  ⟨0x2100, 4, 1, 8, 8, .u64, .rws, 0x200000000, 0xffffffffffffffff, [.whole 0x1c0000000 0x240000000], 1, .stored⟩,  -- ADJUST_INCREMENT (R282)
  ⟨0x2100, 4, 1, 0xa, 0xa, .u32, .rws, 0, 0xffffffff, [], 1, .plain⟩,  -- ADJUST_TICKS (R282)
  ⟨0x2100, 4, 1, 0xb, 0xb, .u32, .rws, 0, 0xffffffff, [], 1, .stored⟩,  -- STEP_AT (R282)
  ⟨0x2100, 4, 1, 0xc, 0xc, .u64, .rws, 0, 0xffffffffffffffff, [], 1, .stored⟩,  -- STEP_OFFSET (R282)
  ⟨0x2100, 4, 1, 0xe, 0xe, .u8, .rws, 0, 0xff, [.whole 0 2], 1, .plain⟩,  -- STEP_COMMAND (R282)
  ⟨0x2100, 4, 1, 0xf, 0xf, .u32, .ro, 0, 0xffffffff, [], 1, .plain⟩,  -- STEPS [W] (R282)
  ⟨0x2100, 4, 1, 0x10, 0x10, .u32, .rw, 0, 0xffffff, [], 1, .clear1⟩,  -- EVENT_STATUS (R282)
  ⟨0x2100, 4, 1, 0x11, 0x11, .u32, .rw, 0, 0xffffff, [], 1, .plain⟩,  -- EVENT_ENABLE (R282)
  ⟨0x2100, 4, 1, 0x12, 0x12, .u32, .ro, 0, 0xffffffff, [], 1, .plain⟩,  -- USERS (R282)
  ⟨0x2110, 64, 1, 0, 0, .u8, .const, 6, 0xff, [], 1, .plain⟩,  -- HIGHEST_SUB (R283)
  ⟨0x2110, 64, 1, 1, 1, .bool, .rws, 0, 1, [], 1, .enable⟩,  -- ENABLE (R283)
  ⟨0x2110, 64, 1, 2, 2, .u32, .rws, 0, 0xffffffff, [], 1, .stored⟩,  -- TARGET (R283)
  ⟨0x2110, 64, 1, 3, 3, .u32, .rws, 0, 0xffffffff, [.zeroOr 0x64 0x7fffffff], 1, .stored⟩,  -- PERIOD (R283)
  ⟨0x2110, 64, 1, 4, 4, .u32, .ro, 0, 0xffffffff, [], 1, .plain⟩,  -- FIRES [W] (R283)
  ⟨0x2110, 64, 1, 5, 5, .u32, .ro, 0, 0xffffffff, [], 1, .plain⟩,  -- SKIPPED [W] (R283)
  ⟨0x2110, 64, 1, 6, 6, .u32, .ro, 0, 0xffffffff, [], 1, .plain⟩,  -- NEXT (R283)
  ⟨0x2150, 4, 1, 0, 0, .u8, .const, 8, 0xff, [], 1, .plain⟩,  -- HIGHEST_SUB (R284)
  ⟨0x2150, 4, 1, 1, 1, .u16, .rws, 0, 0xf1f, [.field 2 2 0 2], 1, .enable⟩,  -- CONTROL (R284)
  ⟨0x2150, 4, 1, 2, 2, .u64, .ro, 0, 0xffffffffffffffff, [], 1, .plain⟩,  -- HEAD_TIME (R284)
  ⟨0x2150, 4, 1, 4, 4, .u32, .ro, 0, 0xffffffff, [], 1, .plain⟩,  -- HEAD_INFO (R284)
  ⟨0x2150, 4, 1, 5, 5, .bool, .rw, 0, 1, [.whole 0 1], 1, .plain⟩,  -- POP (R284)
  ⟨0x2150, 4, 1, 6, 6, .u32, .ro, 0, 0xffffffff, [], 1, .plain⟩,  -- CAPTURES [W] (R284)
  ⟨0x2150, 4, 1, 7, 7, .u32, .ro, 0, 0xffffffff, [], 1, .plain⟩,  -- OVERRUNS [W] (R284)
  ⟨0x2150, 4, 1, 8, 8, .bool, .ro, 0, 1, [], 1, .plain⟩,  -- LEVEL (R284)
  ⟨0x2158, 4, 1, 0, 0, .u8, .const, 7, 0xff, [], 1, .plain⟩,  -- HIGHEST_SUB (R285)
  ⟨0x2158, 4, 1, 1, 1, .u8, .rws, 0, 0x1f, [], 1, .enable⟩,  -- CONTROL (R285)
  ⟨0x2158, 4, 1, 2, 2, .u64, .rws, 0, 0xffffffffffffffff, [], 1, .stored⟩,  -- START (R285)
  ⟨0x2158, 4, 1, 4, 4, .u32, .rws, 0x3b9aca00, 0xffffffff, [.whole 0x64 0x77359400], 1, .stored⟩,  -- PERIOD (R285)
  ⟨0x2158, 4, 1, 5, 5, .u32, .rws, 0x5f5e100, 0xffffffff, [], 1, .stored⟩,  -- WIDTH (R285)
  ⟨0x2158, 4, 1, 6, 6, .u32, .ro, 0, 0xffffffff, [], 1, .plain⟩,  -- EDGES [W] (R285)
  ⟨0x2158, 4, 1, 7, 7, .u32, .ro, 0, 0xffffffff, [], 1, .plain⟩,  -- SKIPPED [W] (R285)
  ⟨0x2160, 12, 1, 0, 0, .u8, .const, 0x11, 0xff, [], 1, .plain⟩,  -- HIGHEST_SUB (R286)
  ⟨0x2160, 12, 1, 1, 8, .u32, .rws, 0x3e8, 0x1fffff, [.field 0 20 0 0xf4240], 1, .stored⟩,  -- LATE_c (R286)
  ⟨0x2160, 12, 1, 9, 9, .u32, .ro, 0, 0xffffffff, [], 1, .plain⟩]  -- LAUNCHED [H] (R286)

/-- Object table rows of indexes 0x2100–0x21FF. -/
def odRows21b : List OdRow := [
  ⟨0x2160, 12, 1, 0xa, 0xa, .u32, .ro, 0, 0xffffffff, [], 1, .plain⟩,  -- LATE_SENT [H] (R286)
  ⟨0x2160, 12, 1, 0xb, 0xb, .u32, .ro, 0, 0xffffffff, [], 1, .plain⟩,  -- LATE_DROPPED [H] (R286)
  ⟨0x2160, 12, 1, 0xc, 0xc, .u32, .ro, 0, 0xffffffff, [], 1, .plain⟩,  -- SUPPRESSED [H] (R286)
  ⟨0x2160, 12, 1, 0xd, 0xd, .u32, .ro, 0, 0xffffffff, [], 1, .plain⟩,  -- READ_ERRORS [H] (R286)
  ⟨0x2160, 12, 1, 0xe, 0xe, .u8, .rws, 0, 3, [], 1, .stored⟩,  -- ONE_STEP (R286)
  ⟨0x2160, 12, 1, 0xf, 0xf, .u32, .ro, 0, 0xffffffff, [], 1, .plain⟩,  -- ONE_STEP_FRAMES [H] (R286)
  ⟨0x2160, 12, 1, 0x10, 0x10, .u32, .rw, 0, 0x8000000f, [], 1, .clear1⟩,  -- EVENT_STATUS (R286)
  ⟨0x2160, 12, 1, 0x11, 0x11, .u32, .rw, 0, 0x8000000f, [], 1, .plain⟩,  -- EVENT_ENABLE (R286)
  ⟨0x2180, 64, 1, 0, 0, .u8, .const, 0xb, 0xff, [], 1, .plain⟩,  -- HIGHEST_SUB (R287)
  ⟨0x2180, 64, 1, 1, 1, .u16, .rws, 0, 0x7f03, [], 1, .enable⟩,  -- CONTROL (R287)
  ⟨0x2180, 64, 1, 2, 2, .u32, .rws, 0, 0xffffffff, [], 1, .stored⟩,  -- TEMPLATE (R287)
  ⟨0x2180, 64, 1, 3, 3, .u16, .rws, 0x3c, 0xffff, [], 1, .stored⟩,  -- LENGTH (R287)
  ⟨0x2180, 64, 1, 4, 4, .u32, .rws, 0, 0xffffffff, [], 1, .stored⟩,  -- TARGET (R287)
  ⟨0x2180, 64, 1, 5, 5, .u32, .rws, 0, 0xffffffff, [.whole 0 0x3b9aca00], 1, .stored⟩,  -- PERIOD (R287)
  ⟨0x2180, 64, 1, 6, 6, .u32, .rws, 0x2710, 0xffffffff, [.whole 0x7d0 0xf4240], 1, .stored⟩,  -- LEAD (R287)
  ⟨0x2180, 64, 1, 7, 7, .u8, .ro, 0, 0xff, [], 1, .plain⟩,  -- STATE (R287)
  ⟨0x2180, 64, 1, 8, 8, .u8, .rw, 0, 0xff, [.whole 1 1], 1, .plain⟩,  -- ABORT (R287)
  ⟨0x2180, 64, 1, 9, 9, .u32, .ro, 0, 0xffffffff, [], 1, .plain⟩,  -- NEXT_TARGET (R287)
  ⟨0x2180, 64, 1, 0xa, 0xa, .u32, .ro, 0, 0xffffffff, [], 1, .plain⟩,  -- RESULTS [W] (R287)
  ⟨0x2180, 64, 1, 0xb, 0xb, .u8, .ro, 0, 0xff, [], 1, .plain⟩]  -- LAST_RESULT (R287)

/-- Object table rows of indexes 0x2200–0x22FF. -/
def odRows22a : List OdRow := [
  ⟨0x2200, 1, 1, 0, 0, .u8, .const, 0x10, 0xff, [], 1, .plain⟩,  -- HIGHEST_SUB (R250)
  ⟨0x2200, 1, 1, 1, 1, .bool, .rws, 0, 1, [], 1, .enable⟩,  -- ENABLE (R250)
  ⟨0x2200, 1, 1, 2, 2, .u16, .rws, 0x858, 0x3f7f, [], 1, .stored⟩,  -- PARTITION (R250)
  ⟨0x2200, 1, 1, 3, 3, .u32, .ro, 0x10000, 0xffffffff, [], 1, .plain⟩,  -- CELLS_TOTAL (R250)
  ⟨0x2200, 1, 1, 4, 4, .u32, .ro, 0x10000, 0xffffffff, [], 1, .plain⟩,  -- CELLS_FREE (R250)
  ⟨0x2200, 1, 1, 5, 5, .u32, .ro, 0xd400, 0xffffffff, [], 1, .plain⟩,  -- SHARED_FREE (R250)
  ⟨0x2200, 1, 1, 6, 6, .u32, .ro, 0x20000, 0xffffffff, [], 1, .plain⟩,  -- ENTRIES_FREE (R250)
  ⟨0x2200, 1, 1, 7, 7, .i8, .rws, 0, 0xffffffff, [.signed (-3) 3], 1, .stored⟩,  -- ALPHA_SHIFT (R250)
  ⟨0x2200, 1, 1, 8, 8, .u8, .rws, 0, 0xff, [], 1, .stored⟩,  -- ALL_OR_NONE (R250)
  ⟨0x2200, 1, 1, 9, 9, .u32, .ro, 0, 0xffffffff, [], 1, .plain⟩,  -- NO_DESTINATION [H] (R250)
  ⟨0x2200, 1, 1, 0xa, 0xa, .u32, .ro, 0, 0xffffffff, [], 1, .plain⟩,  -- CELL_CHECK_FAILS [H] (R250)
  ⟨0x2200, 1, 1, 0xb, 0xb, .u16, .rws, 0x3e8, 0xffff, [.zeroOr 0x64 0xea60], 1, .stored⟩,  -- AUDIT_PERIOD (R250)
  ⟨0x2200, 1, 1, 0xc, 0xc, .u32, .ro, 0, 0xffffffff, [], 1, .plain⟩,  -- AUDIT_PASSES [W] (R250)
  ⟨0x2200, 1, 1, 0xd, 0xd, .u32, .ro, 0, 0xffffffff, [], 1, .plain⟩,  -- CELLS_SWEPT [S] (R250)
  ⟨0x2200, 1, 1, 0xe, 0xe, .u32, .ro, 0, 0xffffffff, [], 1, .plain⟩,  -- REFCOUNTS_FIXED [S] (R250)
  ⟨0x2200, 1, 1, 0xf, 0xf, .u32, .rw, 0, 0x800000ff, [], 1, .clear1⟩,  -- EVENT_STATUS (R250)
  ⟨0x2200, 1, 1, 0x10, 0x10, .u32, .rw, 0, 0x800000ff, [], 1, .plain⟩,  -- EVENT_ENABLE (R250)
  ⟨0x2210, 22, 1, 0, 0, .u8, .const, 0x10, 0xff, [], 1, .plain⟩,  -- HIGHEST_SUB (R251)
  ⟨0x2210, 22, 1, 1, 8, .u32, .rws, 0x40, 0x3ffff, [.field 0 16 0 0x2000, .field 16 2 0 2], 1, .stored⟩,  -- QUEUE_c (R251)
  ⟨0x2210, 22, 1, 9, 0x10, .u32, .ro, 0, 0xffffffff, [], 1, .plain⟩,  -- DEPTH_c (R251)
  ⟨0x2230, 22, 1, 0, 0, .u8, .const, 8, 0xff, [], 1, .plain⟩,  -- HIGHEST_SUB (R251)
  ⟨0x2230, 22, 1, 1, 8, .u32, .ro, 0, 0xffffffff, [], 1, .plain⟩,  -- DROPS_c [H] (R251)
  ⟨0x2250, 12, 1, 0, 0, .u8, .const, 7, 0xff, [], 1, .plain⟩,  -- HIGHEST_SUB (R252)
  ⟨0x2250, 12, 1, 1, 1, .u32, .rws, 0x76543210, 0x77777777, [], 1, .stored⟩,  -- PCP_MAP (R252)
  ⟨0x2250, 12, 1, 2, 2, .u16, .rws, 1, 0x7fff, [], 1, .stored⟩,  -- PORT_DEFAULT (R252)
  ⟨0x2250, 12, 1, 3, 3, .bool, .rws, 0, 1, [], 1, .stored⟩,  -- LEARN (R252)
  ⟨0x2250, 12, 1, 4, 4, .u32, .rws, 0xfff, 0x3fffff, [], 1, .stored⟩,  -- FLOOD_MASK (R252)
  ⟨0x2250, 12, 1, 5, 5, .u16, .rws, 0x200, 0xffff, [], 1, .stored⟩,  -- XOFF (R252)
  ⟨0x2250, 12, 1, 6, 6, .u16, .rws, 0x100, 0xffff, [], 1, .stored⟩,  -- XON (R252)
  ⟨0x2250, 12, 1, 7, 7, .u8, .ro, 0, 0xff, [], 1, .plain⟩,  -- FC_ASSERTED (R252)
  ⟨0x2260, 12, 1, 0, 0, .u8, .const, 0xd, 0xff, [], 1, .plain⟩,  -- HIGHEST_SUB (R254)
  ⟨0x2260, 12, 1, 1, 1, .bool, .rws, 0, 1, [], 1, .enable⟩,  -- GATE_ENABLE (R254)
  ⟨0x2260, 12, 1, 2, 2, .u32, .rws, 0, 0xffffffff, [], 8, .stored⟩,  -- ADMIN_LIST (R254)
  ⟨0x2260, 12, 1, 3, 3, .u16, .rws, 1, 0xffff, [.whole 1 0x100], 1, .stored⟩,  -- ADMIN_LENGTH (R254)
  ⟨0x2260, 12, 1, 4, 4, .u32, .rws, 0xf4240, 0xffffffff, [.whole 0x7d0 0x3b9aca00], 2, .stored⟩,  -- ADMIN_CYCLE_TIME (R254)
  ⟨0x2260, 12, 1, 6, 6, .u64, .rws, 0, 0xffffffffffffffff, [], 1, .stored⟩,  -- ADMIN_BASE_TIME (R254)
  ⟨0x2260, 12, 1, 8, 8, .bool, .rws, 0, 1, [], 1, .plain⟩,  -- CONFIG_CHANGE (R254)
  ⟨0x2260, 12, 1, 9, 9, .u8, .ro, 0, 0xff, [], 1, .plain⟩,  -- CONFIG_STATUS (R254)
  ⟨0x2260, 12, 1, 0xa, 0xa, .u64, .ro, 0, 0xffffffffffffffff, [], 1, .plain⟩,  -- CONFIG_CHANGE_TIME (R254)
  ⟨0x2260, 12, 1, 0xc, 0xc, .u32, .ro, 0, 0xffffffff, [], 1, .plain⟩]  -- TRANSMISSION_OVERRUNS [H] (R254)

/-- Object table rows of indexes 0x2200–0x22FF. -/
def odRows22b : List OdRow := [
  ⟨0x2260, 12, 1, 0xd, 0xd, .u32, .ro, 0, 0xffffffff, [], 1, .plain⟩,  -- CONFIG_CHANGE_ERRORS [W] (R254)
  ⟨0x2270, 12, 1, 0, 0, .u8, .const, 8, 0xff, [], 1, .plain⟩,  -- HIGHEST_SUB (R254)
  ⟨0x2270, 12, 1, 1, 8, .u32, .rws, 0, 0xffffffff, [], 1, .stored⟩,  -- IDLE_SLOPE_c (R254)
  ⟨0x2280, 1, 1, 0, 0, .u8, .const, 0xb, 0xff, [], 1, .plain⟩,  -- HIGHEST_SUB (R255)
  ⟨0x2280, 1, 1, 1, 1, .u16, .rw, 0, 0xffff, [.whole 0 0x1ff], 1, .plain⟩,  -- SELECT (R255)
  ⟨0x2280, 1, 1, 2, 2, .u64, .rw, 0, 0xffffffffffff, [], 1, .stored⟩,  -- IDENT_MAC (R255)
  ⟨0x2280, 1, 1, 4, 4, .u32, .rw, 0, 0x3f3fff, [.field 12 2 0 2, .field 16 5 0 0x15], 1, .stored⟩,  -- IDENT (R255)
  ⟨0x2280, 1, 1, 5, 5, .u32, .rw, 0, 0xffffff7f, [], 1, .stored⟩,  -- FILTER (R255)
  ⟨0x2280, 1, 1, 6, 6, .u8, .rws, 0, 0xff, [.whole 1 3], 1, .plain⟩,  -- COMMAND (R255)
  ⟨0x2280, 1, 1, 7, 7, .bool, .ro, 0, 1, [], 1, .plain⟩,  -- BLOCKED (R255)
  ⟨0x2280, 1, 1, 8, 8, .u32, .ro, 0, 0xffffffff, [], 1, .plain⟩,  -- MATCHED [H] (R255)
  ⟨0x2280, 1, 1, 9, 9, .u32, .ro, 0, 0xffffffff, [], 1, .plain⟩,  -- PASSED [H] (R255)
  ⟨0x2280, 1, 1, 0xa, 0xa, .u32, .ro, 0, 0xffffffff, [], 1, .plain⟩,  -- DISCARDED_GATE [H] (R255)
  ⟨0x2280, 1, 1, 0xb, 0xb, .u32, .ro, 0, 0xffffffff, [], 1, .plain⟩,  -- DISCARDED_SDU [H] (R255)
  ⟨0x2281, 1, 1, 0, 0, .u8, .const, 0xa, 0xff, [], 1, .plain⟩,  -- HIGHEST_SUB (R256)
  ⟨0x2281, 1, 1, 1, 1, .u8, .rw, 0, 0xff, [.whole 0 0x3f], 1, .plain⟩,  -- SELECT (R256)
  ⟨0x2281, 1, 1, 2, 2, .u32, .rw, 0, 0xffffffff, [], 8, .stored⟩,  -- LIST (R256)
  ⟨0x2281, 1, 1, 3, 3, .u32, .rw, 1, 0xffffffff, [.whole 1 0x40], 1, .stored⟩,  -- LENGTH (R256)
  ⟨0x2281, 1, 1, 4, 4, .u32, .rw, 0xf4240, 0xffffffff, [.whole 0x7d0 0x3b9aca00], 2, .stored⟩,  -- CYCLE_TIME (R256)
  ⟨0x2281, 1, 1, 6, 6, .u64, .rw, 0, 0xffffffffffffffff, [], 1, .stored⟩,  -- BASE_TIME (R256)
  ⟨0x2281, 1, 1, 8, 8, .u8, .rw, 0, 0xff, [.whole 0 3], 1, .stored⟩,  -- DOMAIN (R256)
  ⟨0x2281, 1, 1, 9, 9, .u8, .rws, 0, 0xff, [.whole 1 3], 1, .plain⟩,  -- COMMAND (R256)
  ⟨0x2281, 1, 1, 0xa, 0xa, .u8, .ro, 0, 0xff, [], 1, .plain⟩,  -- STATUS (R256)
  ⟨0x2282, 1, 1, 0, 0, .u8, .const, 0xb, 0xff, [], 1, .plain⟩,  -- HIGHEST_SUB (R256)
  ⟨0x2282, 1, 1, 1, 1, .u8, .rw, 0, 0xff, [.whole 0 0xff], 1, .plain⟩,  -- SELECT (R256)
  ⟨0x2282, 1, 1, 2, 5, .u32, .rw, 0, 0xffffffff, [], 1, .stored⟩,  -- CIR, CBS, EIR, EBS (R256)
  ⟨0x2282, 1, 1, 6, 6, .u8, .rw, 0, 0xf, [], 1, .stored⟩,  -- MODE (R256)
  ⟨0x2282, 1, 1, 7, 7, .u8, .rws, 0, 0xff, [.whole 1 3], 1, .plain⟩,  -- COMMAND (R256)
  ⟨0x2282, 1, 1, 8, 8, .bool, .ro, 0, 1, [], 1, .plain⟩,  -- MARK_ALL_RED (R256)
  ⟨0x2282, 1, 1, 9, 0xb, .u32, .ro, 0, 0xffffffff, [], 1, .plain⟩,  -- GREEN, YELLOW, RED [H] (R256)
  ⟨0x2283, 1, 1, 0, 0, .u8, .const, 0xb, 0xff, [], 1, .plain⟩,  -- HIGHEST_SUB (R257)
  ⟨0x2283, 1, 1, 1, 1, .u8, .rw, 0, 0xff, [.whole 0 0xff], 1, .plain⟩,  -- SELECT (R257)
  ⟨0x2283, 1, 1, 2, 2, .u32, .rw, 0, 0xffff03f7, [.field 4 6 0 0x20], 1, .stored⟩,  -- FUNCTION (R257)
  ⟨0x2283, 1, 1, 3, 3, .u32, .rw, 0, 0x3fffff, [], 1, .stored⟩,  -- REPLICATE_MASK (R257)
  ⟨0x2283, 1, 1, 4, 4, .u8, .rws, 0, 0xff, [.whole 1 3], 1, .plain⟩,  -- COMMAND (R257)
  ⟨0x2283, 1, 1, 5, 5, .u16, .ro, 0, 0xffff, [], 1, .plain⟩,  -- GEN_SEQ [W] (R257)
  ⟨0x2283, 1, 1, 6, 0xa, .u32, .ro, 0, 0xffffffff, [], 1, .plain⟩,  -- PASSED, DISCARDED, OUT_OF_ORDER, ROGUE, LOST [H] (R257)
  ⟨0x2283, 1, 1, 0xb, 0xb, .u32, .ro, 0, 0xffffffff, [], 1, .plain⟩,  -- RESETS [W] (R257)
  ⟨0x2290, 1, 1, 0, 0, .u8, .const, 0xb, 0xff, [], 1, .plain⟩,  -- HIGHEST_SUB (R253)
  ⟨0x2290, 1, 1, 1, 1, .u16, .rw, 0, 0xffff, [.whole 0 0x1fff], 1, .plain⟩]  -- ENTRY (R253)

/-- Object table rows of indexes 0x2200–0x22FF. -/
def odRows22c : List OdRow := [
  ⟨0x2290, 1, 1, 2, 2, .u64, .rw, 0, 0xffffffffffff, [], 1, .plain⟩,  -- MAC (R253)
  ⟨0x2290, 1, 1, 4, 4, .u32, .rw, 0, 0x3fff, [], 1, .plain⟩,  -- KEY (R253)
  ⟨0x2290, 1, 1, 5, 5, .u32, .rw, 0, 0x3fffff, [], 1, .plain⟩,  -- DEST_MASK (R253)
  ⟨0x2290, 1, 1, 6, 6, .u32, .ro, 0, 0xffffffff, [], 1, .plain⟩,  -- AGE (R253)
  ⟨0x2290, 1, 1, 7, 7, .u8, .rws, 0, 0xff, [.whole 1 4], 1, .plain⟩,  -- COMMAND (R253)
  ⟨0x2290, 1, 1, 8, 8, .u8, .ro, 0, 0xff, [], 1, .plain⟩,  -- STATUS (R253)
  ⟨0x2290, 1, 1, 9, 9, .u32, .rws, 0x12c, 0xffffffff, [.whole 0 0xf4240], 1, .stored⟩,  -- AGE_TIME (R253)
  ⟨0x2290, 1, 1, 0xa, 0xa, .u16, .ro, 0, 0xffff, [], 1, .plain⟩,  -- ENTRIES_USED (R253)
  ⟨0x2290, 1, 1, 0xb, 0xb, .u32, .ro, 0, 0xffffffff, [], 1, .plain⟩,  -- LEARN_FAILS [W] (R253)
  ⟨0x22a0, 10, 1, 0, 0, .u8, .const, 0x29, 0xff, [], 1, .plain⟩,  -- HIGHEST_SUB (R258)
  ⟨0x22a0, 10, 1, 1, 8, .u32, .rws, 0, 0xffffff1f, [.field 0 4 0 8], 1, .enable⟩,  -- RX_RING_c (R258)
  ⟨0x22a0, 10, 1, 9, 0x10, .u16, .rw, 0, 0xffff, [], 1, .plain⟩,  -- RX_TAIL_c (R258)
  ⟨0x22a0, 10, 1, 0x11, 0x18, .u16, .ro, 0, 0xffff, [], 1, .plain⟩,  -- RX_HEAD_c (R258)
  ⟨0x22a0, 10, 1, 0x19, 0x1c, .u32, .rws, 0, 0xffffff1f, [.field 0 4 0 8], 1, .enable⟩,  -- TX_RING_t (R258)
  ⟨0x22a0, 10, 1, 0x1d, 0x20, .u16, .rw, 0, 0xffff, [], 1, .plain⟩,  -- TX_TAIL_t (R258)
  ⟨0x22a0, 10, 1, 0x21, 0x24, .u16, .ro, 0, 0xffff, [], 1, .plain⟩,  -- TX_HEAD_t (R258)
  ⟨0x22a0, 10, 1, 0x25, 0x25, .u32, .ro, 0, 0xffffffff, [], 1, .plain⟩,  -- RX_TRUNCATED [H] (R258)
  ⟨0x22a0, 10, 1, 0x26, 0x26, .u32, .ro, 0, 0xffffffff, [], 1, .plain⟩,  -- RX_CHECK_FAILED [H] (R258)
  ⟨0x22a0, 10, 1, 0x27, 0x27, .u32, .ro, 0, 0xffffffff, [], 1, .plain⟩,  -- TX_REFUSED [H] (R258)
  ⟨0x22a0, 10, 1, 0x28, 0x28, .u32, .rw, 0, 0x80003fff, [], 1, .clear1⟩,  -- EVENT_STATUS (R258)
  ⟨0x22a0, 10, 1, 0x29, 0x29, .u32, .rw, 0, 0x80003fff, [], 1, .plain⟩]  -- EVENT_ENABLE (R258)

/-- Object table rows of indexes 0x2300–0x23FF. -/
def odRows23a : List OdRow := [
  ⟨0x2300, 12, 1, 0, 0, .u8, .const, 0x1a, 0xff, [], 1, .plain⟩,  -- HIGHEST_SUB (R215)
  ⟨0x2300, 12, 1, 1, 1, .bool, .rws, 0, 1, [], 1, .enable⟩,  -- ENABLE (R215)
  ⟨0x2300, 12, 1, 2, 2, .u8, .rws, 0, 0xff, [.whole 0 8], 1, .stored⟩,  -- INTERFACE (R215)
  ⟨0x2300, 8, 1, 3, 3, .u8, .rws, 0x10, 0x37, [.field 0 3 0 3, .field 4 2 0 2], 1, .stored⟩,  -- SPEED_CONTROL (R215)
  ⟨0x2300, 12, 1, 4, 4, .u16, .rws, 0, 0x11f, [], 1, .stored⟩,  -- PHY (R215)
  ⟨0x2300, 8, 1, 5, 5, .u8, .rws, 0x88, 0xff, [], 1, .stored⟩,  -- RGMII_DELAY (R215)
  ⟨0x2300, 12, 1, 6, 6, .u8, .rws, 0, 0xff, [.whole 0 1], 1, .stored⟩,  -- RMII_REFCLK (R215)
  ⟨0x2300, 8, 1, 7, 7, .u32, .rws, 0, 0x17fff, [], 1, .stored⟩,  -- SERDES_TX (R215)
  ⟨0x2300, 12, 1, 8, 8, .u32, .rws, 0, 0x7f1, [.field 9 2 0 2], 1, .stored⟩,  -- SERDES_RX (R215)
  ⟨0x2300, 12, 1, 9, 9, .u16, .ro, 0, 0xffff, [], 1, .plain⟩,  -- LINK_STATUS (R215)
  ⟨0x2300, 12, 1, 0xa, 0xa, .u64, .rws, 0, 0xffffffffffff, [], 1, .stored⟩,  -- MAC_ADDRESS (R215)
  ⟨0x2300, 12, 1, 0xc, 0xc, .u16, .rws, 0x5f2, 0xffff, [.whole 0x5ee 0x2580], 1, .stored⟩,  -- MAX_FRAME (R215)
  ⟨0x2300, 12, 1, 0xd, 0xd, .u32, .rws, 0, 0xffff07, [], 1, .stored⟩,  -- PAUSE_CONTROL (R215)
  ⟨0x2300, 12, 1, 0xe, 0xe, .u16, .rws, 0xffff, 0xffff, [.whole 1 0xffff], 1, .stored⟩,  -- PAUSE_QUANTA (R215)
  ⟨0x2300, 12, 1, 0xf, 0xf, .u16, .rws, 0x8000, 0xffff, [], 1, .stored⟩,  -- PAUSE_REFRESH (R215)
  ⟨0x2300, 12, 1, 0x10, 0x10, .u16, .rws, 0x64, 0xffff, [.whole 0 0x2710], 1, .stored⟩,  -- PAUSE_WATCHDOG (R215)
  ⟨0x2300, 12, 1, 0x11, 0x11, .bool, .rws, 0, 1, [], 1, .plain⟩,  -- PAUSE_RESUME (R215)
  ⟨0x2300, 12, 1, 0x12, 0x12, .u32, .rws, 0xa00ff00, 0xff03ff03, [.field 24 8 1 0x80], 1, .stored⟩,  -- PREEMPTION (R215)
  ⟨0x2300, 12, 1, 0x13, 0x13, .u8, .ro, 0, 0xff, [], 1, .plain⟩,  -- PREEMPTION_STATUS (R215)
  ⟨0x2300, 12, 1, 0x14, 0x14, .u8, .rws, 0, 0xff, [.whole 0 3], 1, .stored⟩,  -- TS_DOMAIN (R215)
  ⟨0x2300, 12, 1, 0x15, 0x15, .i32, .rws, 0, 0xffffffff, [.signed (-1000000) 1000000], 1, .stored⟩,  -- RX_LATENCY (R215)
  ⟨0x2300, 12, 1, 0x16, 0x16, .i32, .rws, 0, 0xffffffff, [.signed (-1000000) 1000000], 1, .stored⟩,  -- TX_LATENCY (R215)
  ⟨0x2300, 12, 1, 0x17, 0x17, .u32, .rws, 0, 0xffffffff, [], 0x100, .stored⟩,  -- TS_RING_BASE (R215)
  ⟨0x2300, 12, 1, 0x18, 0x18, .u32, .rws, 0x1e0188f7, 0xff01ffff, [.field 24 8 0 0xfd], 1, .stored⟩,  -- TS_MATCH (R215)
  ⟨0x2300, 12, 1, 0x19, 0x19, .u32, .rw, 0, 0x800003ff, [], 1, .clear1⟩,  -- EVENT_STATUS (R215)
  ⟨0x2300, 12, 1, 0x1a, 0x1a, .u32, .rw, 0, 0x800003ff, [], 1, .plain⟩,  -- EVENT_ENABLE (R215)
  ⟨0x2308, 4, 1, 3, 3, .u8, .rws, 0, 0x37, [.field 0 3 0 0, .field 4 2 0 2], 1, .stored⟩,  -- SPEED_CONTROL (R215)
  ⟨0x2308, 4, 1, 5, 5, .u8, .rws, 0, 0xff, [], 1, .stored⟩,  -- RGMII_DELAY (R215)
  ⟨0x2308, 4, 1, 7, 7, .u32, .rws, 0x14, 0x17fff, [], 1, .stored⟩,  -- SERDES_TX (R215)
  ⟨0x2310, 12, 1, 0, 0, .u8, .const, 0x2c, 0xff, [], 1, .plain⟩,  -- HIGHEST_SUB (R216)
  ⟨0x2310, 12, 1, 1, 1, .u32, .ro, 0, 0xffffffff, [], 1, .plain⟩,  -- RX_FRAMES_OK [H] (R216)
  ⟨0x2310, 12, 1, 2, 2, .u32, .ro, 0, 0xffffffff, [], 1, .plain⟩,  -- RX_BROADCAST [H] (R216)
  ⟨0x2310, 12, 1, 3, 3, .u32, .ro, 0, 0xffffffff, [], 1, .plain⟩,  -- RX_MULTICAST [H] (R216)
  ⟨0x2310, 12, 1, 4, 0xa, .u32, .ro, 0, 0xffffffff, [], 1, .plain⟩,  -- RX_64, RX_65_127, RX_128_255, RX_256_511, RX_512_1023, RX_1024_1518, RX_1519_MAX [H] (R216)
  ⟨0x2310, 12, 1, 0xb, 0xb, .u32, .ro, 0, 0xffffffff, [], 1, .plain⟩,  -- RX_FCS_ERRORS [H] (R216)
  ⟨0x2310, 12, 1, 0xc, 0xc, .u32, .ro, 0, 0xffffffff, [], 1, .plain⟩,  -- RX_STOMPED [H] (R216)
  ⟨0x2310, 12, 1, 0xd, 0xd, .u32, .ro, 0, 0xffffffff, [], 1, .plain⟩,  -- RX_SYMBOL_ERRORS [H] (R216)
  ⟨0x2310, 12, 1, 0xe, 0xe, .u32, .ro, 0, 0xffffffff, [], 1, .plain⟩,  -- RX_RUNTS [H] (R216)
  ⟨0x2310, 12, 1, 0xf, 0xf, .u32, .ro, 0, 0xffffffff, [], 1, .plain⟩,  -- RX_FRAGMENTS [H] (R216)
  ⟨0x2310, 12, 1, 0x10, 0x10, .u32, .ro, 0, 0xffffffff, [], 1, .plain⟩]  -- RX_OVERSIZE [H] (R216)

/-- Object table rows of indexes 0x2300–0x23FF. -/
def odRows23b : List OdRow := [
  ⟨0x2310, 12, 1, 0x11, 0x11, .u32, .ro, 0, 0xffffffff, [], 1, .plain⟩,  -- RX_JABBERS [H] (R216)
  ⟨0x2310, 12, 1, 0x12, 0x12, .u32, .ro, 0, 0xffffffff, [], 1, .plain⟩,  -- RX_PAUSE [H] (R216)
  ⟨0x2310, 12, 1, 0x13, 0x13, .u32, .ro, 0, 0xffffffff, [], 1, .plain⟩,  -- RX_PFC [H] (R216)
  ⟨0x2310, 12, 1, 0x14, 0x14, .u32, .ro, 0, 0xffffffff, [], 1, .plain⟩,  -- RX_ASSEMBLY_ERRORS [H] (R216)
  ⟨0x2310, 12, 1, 0x15, 0x15, .u32, .ro, 0, 0xffffffff, [], 1, .plain⟩,  -- RX_SMD_ERRORS [H] (R216)
  ⟨0x2310, 12, 1, 0x16, 0x16, .u32, .ro, 0, 0xffffffff, [], 1, .plain⟩,  -- RX_ASSEMBLY_OK [H] (R216)
  ⟨0x2310, 12, 1, 0x17, 0x17, .u32, .ro, 0, 0xffffffff, [], 1, .plain⟩,  -- RX_MPACKETS [H] (R216)
  ⟨0x2310, 12, 1, 0x18, 0x18, .u32, .ro, 0, 0xffffffff, [], 1, .plain⟩,  -- TX_FRAMES_OK [H] (R216)
  ⟨0x2310, 12, 1, 0x19, 0x19, .u32, .ro, 0, 0xffffffff, [], 1, .plain⟩,  -- TX_BROADCAST [H] (R216)
  ⟨0x2310, 12, 1, 0x1a, 0x1a, .u32, .ro, 0, 0xffffffff, [], 1, .plain⟩,  -- TX_MULTICAST [H] (R216)
  ⟨0x2310, 12, 1, 0x1b, 0x21, .u32, .ro, 0, 0xffffffff, [], 1, .plain⟩,  -- TX_64 to TX_1519_MAX [H] (R216)
  ⟨0x2310, 12, 1, 0x22, 0x22, .u32, .ro, 0, 0xffffffff, [], 1, .plain⟩,  -- TX_STOMPED [H] (R216)
  ⟨0x2310, 12, 1, 0x23, 0x23, .u32, .ro, 0, 0xffffffff, [], 1, .plain⟩,  -- TX_PAUSE [H] (R216)
  ⟨0x2310, 12, 1, 0x24, 0x24, .u32, .ro, 0, 0xffffffff, [], 1, .plain⟩,  -- TX_PFC [H] (R216)
  ⟨0x2310, 12, 1, 0x25, 0x25, .u32, .ro, 0, 0xffffffff, [], 1, .plain⟩,  -- TX_MPACKETS [H] (R216)
  ⟨0x2310, 12, 1, 0x26, 0x26, .u32, .ro, 0, 0xffffffff, [], 1, .plain⟩,  -- TX_HOLDS [H] (R216)
  ⟨0x2310, 12, 1, 0x27, 0x27, .u32, .ro, 0, 0xffffffff, [], 1, .plain⟩,  -- PAUSE_WATCHDOG_TRIPS [H] (R216)
  ⟨0x2310, 12, 1, 0x28, 0x28, .u64, .ro, 0, 0xffffffffffffffff, [], 1, .plain⟩,  -- RX_OCTETS_OK [H] (R216)
  ⟨0x2310, 12, 1, 0x2a, 0x2a, .u64, .ro, 0, 0xffffffffffffffff, [], 1, .plain⟩,  -- TX_OCTETS_OK [H] (R216)
  ⟨0x2310, 12, 1, 0x2c, 0x2c, .u32, .ro, 0, 0xffffffff, [], 1, .plain⟩,  -- LINK_DOWNS [H] (R216)
  ⟨0x2320, 12, 1, 0, 0, .u8, .const, 0x2f, 0xff, [], 1, .plain⟩,  -- HIGHEST_SUB (R217)
  ⟨0x2320, 12, 1, 1, 1, .u8, .rw, 0, 7, [], 1, .stored⟩,  -- WAKE_MODE (R217)
  ⟨0x2320, 12, 1, 2, 2, .u64, .rw, 0, 0xffffffffffffffff, [], 1, .stored⟩,  -- PATTERN0_MASK (R217)
  ⟨0x2320, 12, 1, 4, 4, .u64, .rw, 0, 0xffffffffffffffff, [], 1, .stored⟩,  -- PATTERN1_MASK (R217)
  ⟨0x2320, 12, 1, 6, 6, .u8, .ro, 0, 0xff, [], 1, .plain⟩,  -- WAKE_SEEN (R217)
  ⟨0x2320, 12, 1, 7, 7, .u32, .ro, 0, 0xffffffff, [], 1, .plain⟩,  -- WAKE_FRAMES [W] (R217)
  ⟨0x2320, 12, 1, 0x10, 0x1f, .u32, .rw, 0, 0xffffffff, [], 1, .stored⟩,  -- PATTERN0_WORD_0 to _15 (R217)
  ⟨0x2320, 12, 1, 0x20, 0x2f, .u32, .rw, 0, 0xffffffff, [], 1, .stored⟩,  -- PATTERN1_WORD_0 to _15 (R217)
  ⟨0x2330, 2, 1, 0, 0, .u8, .const, 5, 0xff, [], 1, .plain⟩,  -- HIGHEST_SUB (R218)
  ⟨0x2330, 2, 1, 1, 1, .u8, .rws, 0x63, 0xff, [.whole 0x13 0xf9], 1, .stored⟩,  -- CLOCK_DIV (R218)
  ⟨0x2330, 2, 1, 2, 2, .u32, .rws, 0, 0xffff3ff7, [.field 0 3 1 6], 1, .plain⟩,  -- COMMAND (R218)
  ⟨0x2330, 2, 1, 3, 3, .u32, .ro, 0, 0xffffffff, [], 1, .plain⟩,  -- STATUS (R218)
  ⟨0x2330, 2, 1, 4, 4, .bool, .rws, 0, 1, [], 1, .stored⟩,  -- PREAMBLE_SUPPRESS (R218)
  ⟨0x2330, 2, 1, 5, 5, .u16, .rws, 0xa, 0xffff, [.whole 1 0x3e8], 1, .stored⟩]  -- POLL_PERIOD (R218)

/-- Object table rows of indexes 0x2400–0x24FF. -/
def odRows24a : List OdRow := [
  ⟨0x2400, 32, 1, 0, 0, .u8, .const, 0xe, 0xff, [], 1, .plain⟩,  -- HIGHEST_SUB (R140)
  ⟨0x2400, 32, 1, 1, 1, .u8, .ro, 0, 0xff, [], 1, .plain⟩,  -- STATE (R140)
  ⟨0x2400, 32, 1, 2, 2, .u8, .rws, 0, 0xff, [.whole 1 4], 1, .plain⟩,  -- COMMAND (R140)
  ⟨0x2400, 32, 1, 3, 3, .u16, .rws, 0, 0xffff, [.whole 0 0xfffe], 1, .stored⟩,  -- IMAGE_ID (R140)
  ⟨0x2400, 32, 1, 4, 4, .bool, .rws, 0, 1, [], 1, .stored⟩,  -- AUTO_START (R140)
  ⟨0x2400, 32, 1, 5, 5, .u16, .rws, 0, 0x1fff, [], 1, .stored⟩,  -- PC (R140)
  ⟨0x2400, 32, 1, 6, 6, .u8, .ro, 0, 0xff, [], 1, .plain⟩,  -- HALT_CAUSE (R140)
  ⟨0x2400, 32, 1, 7, 7, .u16, .ro, 0, 0xffff, [], 1, .plain⟩,  -- FAULT_CODE (R140)
  ⟨0x2400, 32, 1, 8, 8, .u16, .ro, 0, 0xffff, [], 1, .plain⟩,  -- FAULT_PC (R140)
  ⟨0x2400, 32, 1, 9, 9, .u32, .rws, 0, 0xffffffff, [.whole 0 0xf4240], 1, .stored⟩,  -- HB_PERIOD (R140)
  ⟨0x2400, 32, 1, 0xa, 0xa, .u8, .rws, 0, 0xff, [.whole 0 2], 1, .stored⟩,  -- HB_ACTION (R140)
  ⟨0x2400, 32, 1, 0xb, 0xb, .u32, .ro, 0, 0xffffffff, [], 1, .plain⟩,  -- HEARTBEATS [W] (R140)
  ⟨0x2400, 32, 1, 0xc, 0xc, .u32, .ro, 0, 0xffffffff, [], 1, .plain⟩,  -- HB_MISSES [W] (R140)
  ⟨0x2400, 32, 1, 0xd, 0xd, .u8, .ro, 0, 0xff, [], 1, .plain⟩,  -- LOAD_STATUS (R140)
  ⟨0x2400, 32, 1, 0xe, 0xe, .bool, .ro, 0, 1, [], 1, .plain⟩,  -- SECURE (R140)
  ⟨0x2440, 8, 1, 0, 0, .u8, .const, 0x15, 0xff, [], 1, .plain⟩,  -- HIGHEST_SUB (R141)
  ⟨0x2440, 8, 1, 1, 4, .u16, .rws, 0, 0x11f, [], 1, .stored⟩,  -- RX_SOURCE_k (R141)
  ⟨0x2440, 8, 1, 5, 8, .u16, .rws, 0x7000, 0xf71f, [], 1, .stored⟩,  -- TX_DEST_k (R141)
  ⟨0x2440, 8, 1, 9, 0xc, .u32, .ro, 0, 0xffffffff, [], 1, .plain⟩,  -- RX_OVERRUNS_k [H] (R141)
  ⟨0x2440, 8, 1, 0xd, 0x10, .u32, .ro, 0, 0xffffffff, [], 1, .plain⟩,  -- TX_UNDERRUNS_k [H] (R141)
  ⟨0x2440, 8, 1, 0x11, 0x11, .u32, .rw, 0, 0x8000ffff, [], 1, .clear1⟩,  -- EVENT_STATUS (R141)
  ⟨0x2440, 8, 1, 0x12, 0x12, .u32, .rw, 0, 0x8000ffff, [], 1, .plain⟩,  -- EVENT_ENABLE (R141)
  ⟨0x2440, 8, 1, 0x13, 0x13, .u32, .ro, 0, 0xffffffff, [], 1, .plain⟩,  -- SBE_CORRECTED [W] (R141)
  ⟨0x2440, 8, 1, 0x14, 0x14, .u32, .ro, 0, 0xffffffff, [], 1, .plain⟩,  -- STORE_DBE_ADDRESS (R141)
  ⟨0x2440, 8, 1, 0x15, 0x15, .bool, .rws, 0, 1, [], 1, .stored⟩,  -- RESTART_AFTER_DBE (R141)
  ⟨0x2480, 1, 1, 0, 0, .u8, .const, 7, 0xff, [], 1, .plain⟩,  -- HIGHEST_SUB (R142)
  ⟨0x2480, 1, 1, 1, 1, .u8, .ro, 0, 0xff, [], 1, .plain⟩,  -- ENTRIES (R142)
  ⟨0x2480, 1, 1, 2, 2, .u32, .ro, 0x180000, 0xffffffff, [], 1, .plain⟩,  -- FREE_BYTES (R142)
  ⟨0x2480, 1, 1, 3, 3, .u32, .rws, 0, 0xffffffff, [], 1, .stored⟩,  -- STAGE_ADDRESS (R142)
  ⟨0x2480, 1, 1, 4, 4, .u32, .rws, 0, 0xffffffff, [.whole 0 0x180000], 1, .stored⟩,  -- STAGE_LENGTH (R142)
  ⟨0x2480, 1, 1, 5, 5, .u8, .rws, 0, 0xff, [.whole 1 2], 1, .plain⟩,  -- COMMAND (R142)
  ⟨0x2480, 1, 1, 6, 6, .u16, .rws, 0, 0xffff, [], 1, .stored⟩,  -- REMOVE_ID (R142)
  ⟨0x2480, 1, 1, 7, 7, .u8, .ro, 0, 0xff, [], 1, .plain⟩,  -- STATUS (R142)
  ⟨0x2481, 32, 1, 0, 0, .u8, .const, 8, 0xff, [], 1, .plain⟩,  -- HIGHEST_SUB (R143)
  ⟨0x2481, 32, 1, 1, 1, .u16, .ro, 0, 0xffff, [], 1, .plain⟩,  -- IMAGE_ID (R143)
  ⟨0x2481, 32, 1, 2, 2, .u32, .ro, 0, 0xffffffff, [], 1, .plain⟩,  -- VERSION (R143)
  ⟨0x2481, 32, 1, 3, 3, .u32, .ro, 0, 0xffffffff, [], 1, .plain⟩,  -- ATTRIBUTES (R143)
  ⟨0x2481, 32, 1, 4, 4, .u32, .ro, 0, 0xffffffff, [], 1, .plain⟩,  -- MRAM_ADDRESS (R143)
  ⟨0x2481, 32, 1, 5, 5, .u32, .ro, 0, 0xffffffff, [], 1, .plain⟩,  -- LENGTH (R143)
  ⟨0x2481, 32, 1, 6, 6, .u16, .ro, 0, 0xffff, [], 1, .plain⟩]  -- ROLLBACK_LEVEL (R143)

/-- Object table rows of indexes 0x2400–0x24FF. -/
def odRows24b : List OdRow := [
  ⟨0x2481, 32, 1, 7, 7, .u32, .ro, 0, 0xffffffff, [], 1, .plain⟩,  -- SIGNER_SERIAL (R143)
  ⟨0x2481, 32, 1, 8, 8, .bool, .ro, 0, 1, [], 1, .plain⟩,  -- VALID (R143)
  ⟨0x24c0, 64, 1, 0, 0, .u8, .const, 5, 0xff, [], 1, .plain⟩,  -- HIGHEST_SUB (R144)
  ⟨0x24c0, 64, 1, 1, 1, .u16, .rws, 0, 0xffff, [], 1, .stored⟩,  -- OD_FIRST (R144)
  ⟨0x24c0, 64, 1, 2, 2, .u16, .rws, 0, 0xffff, [], 1, .stored⟩,  -- OD_LAST (R144)
  ⟨0x24c0, 64, 1, 3, 3, .u32, .rws, 0, 0xffffffff, [], 8, .stored⟩,  -- DESCRIPTOR (R144)
  ⟨0x24c0, 64, 1, 4, 4, .u32, .ro, 0, 0xffffffff, [], 1, .plain⟩,  -- SNAPSHOTS [W] (R144)
  ⟨0x24c0, 64, 1, 5, 5, .u32, .ro, 0, 0xffffffff, [], 1, .plain⟩]  -- RETRIES [W] (R144)

/-- Object table rows of indexes 0x2500–0x25FF. -/
def odRows25 : List OdRow := [
  ⟨0x2500, 16, 1, 0, 0, .u8, .const, 0x14, 0xff, [], 1, .plain⟩,  -- HIGHEST_SUB (R187)
  ⟨0x2500, 8, 1, 1, 1, .bool, .rws, 0, 1, [], 1, .enable⟩,  -- ENABLE (R187)
  ⟨0x2500, 1, 1, 2, 2, .u8, .rws, 0, 0xff, [], 1, .stored⟩,  -- EGRESS (R187)
  ⟨0x2500, 16, 1, 3, 3, .bool, .rws, 0, 1, [], 1, .stored⟩,  -- SWITCH_COPY (R187)
  ⟨0x2500, 16, 1, 4, 4, .u8, .rws, 0, 0xff, [.whole 0 7], 1, .stored⟩,  -- FACET (R187)
  ⟨0x2500, 16, 1, 5, 5, .u32, .rws, 0, 0xffffffff, [], 0x2000, .stored⟩,  -- TABLE_BASE (R187)
  ⟨0x2500, 16, 1, 6, 6, .u32, .rws, 0x2000, 0xffffffff, [], 0x1000, .stored⟩,  -- CAPTURE_BASE (R187)
  ⟨0x2500, 16, 1, 7, 7, .u32, .rws, 0, 0x1ffff, [], 1, .stored⟩,  -- GATE (R187)
  ⟨0x2500, 16, 1, 8, 8, .u8, .rws, 0xff, 0xff, [.orVal 0 0x1f 0xff], 1, .stored⟩,  -- OWNER_ENGINE (R187)
  ⟨0x2500, 16, 1, 9, 9, .u8, .rws, 0, 3, [], 1, .stored⟩,  -- STALE_POLICY (R187)
  ⟨0x2500, 16, 1, 0xa, 0xa, .u16, .rw, 0, 0x17f, [.field 0 7 0 0x40], 1, .plain⟩,  -- COMMIT (R187)
  ⟨0x2500, 16, 1, 0xb, 0xb, .u8, .ro, 0, 0xff, [], 1, .plain⟩,  -- COMMIT_STATUS (R187)
  ⟨0x2500, 16, 1, 0xc, 0xc, .u8, .ro, 0, 0xff, [], 1, .plain⟩,  -- REJECT_ENTRY (R187)
  ⟨0x2500, 16, 1, 0xd, 0xd, .u32, .ro, 0, 0xffffffff, [], 1, .plain⟩,  -- TABLE_GEN [W] (R187)
  ⟨0x2500, 16, 1, 0xe, 0xe, .u32, .ro, 0, 0xffffffff, [], 1, .plain⟩,  -- FRAMES_FORWARDED [H] (R187)
  ⟨0x2500, 16, 1, 0xf, 0xf, .u32, .ro, 0, 0xffffffff, [], 1, .plain⟩,  -- FRAMES_SPLICED [H] (R187)
  ⟨0x2500, 16, 1, 0x10, 0x10, .u32, .ro, 0, 0xffffffff, [], 1, .plain⟩,  -- FRAMES_STOMPED [H] (R187)
  ⟨0x2500, 16, 1, 0x11, 0x11, .u32, .ro, 0, 0xffffffff, [], 1, .plain⟩,  -- DROPPED [H] (R187)
  ⟨0x2500, 16, 1, 0x12, 0x12, .u8, .ro, 0, 0xff, [], 1, .plain⟩,  -- STATE (R187)
  ⟨0x2500, 16, 1, 0x13, 0x13, .u32, .ro, 0, 0xffffffff, [], 1, .plain⟩,  -- STALE_FRAMES [H] (R187)
  ⟨0x2500, 16, 1, 0x14, 0x14, .u32, .ro, 0, 0xffffffff, [], 1, .plain⟩,  -- ADD_OVERFLOWS [W] (R187)
  ⟨0x2501, 1, 1, 2, 2, .u8, .rws, 1, 0xff, [], 1, .stored⟩,  -- EGRESS (R187)
  ⟨0x2502, 1, 1, 2, 2, .u8, .rws, 2, 0xff, [], 1, .stored⟩,  -- EGRESS (R187)
  ⟨0x2503, 1, 1, 2, 2, .u8, .rws, 3, 0xff, [], 1, .stored⟩,  -- EGRESS (R187)
  ⟨0x2504, 1, 1, 2, 2, .u8, .rws, 4, 0xff, [], 1, .stored⟩,  -- EGRESS (R187)
  ⟨0x2505, 1, 1, 2, 2, .u8, .rws, 5, 0xff, [], 1, .stored⟩,  -- EGRESS (R187)
  ⟨0x2506, 1, 1, 2, 2, .u8, .rws, 6, 0xff, [], 1, .stored⟩,  -- EGRESS (R187)
  ⟨0x2507, 1, 1, 2, 2, .u8, .rws, 7, 0xff, [], 1, .stored⟩,  -- EGRESS (R187)
  ⟨0x2508, 8, 1, 1, 1, .bool, .ro, 0, 1, [], 1, .plain⟩,  -- ENABLE (R187)
  ⟨0x2508, 1, 1, 2, 2, .u8, .ro, 8, 0xff, [], 1, .plain⟩,  -- EGRESS (R187)
  ⟨0x2509, 1, 1, 2, 2, .u8, .ro, 9, 0xff, [], 1, .plain⟩,  -- EGRESS (R187)
  ⟨0x250a, 1, 1, 2, 2, .u8, .ro, 0xa, 0xff, [], 1, .plain⟩,  -- EGRESS (R187)
  ⟨0x250b, 1, 1, 2, 2, .u8, .ro, 0xb, 0xff, [], 1, .plain⟩,  -- EGRESS (R187)
  ⟨0x250c, 1, 1, 2, 2, .u8, .ro, 0xc, 0xff, [], 1, .plain⟩,  -- EGRESS (R187)
  ⟨0x250d, 1, 1, 2, 2, .u8, .ro, 0xd, 0xff, [], 1, .plain⟩,  -- EGRESS (R187)
  ⟨0x250e, 1, 1, 2, 2, .u8, .ro, 0xe, 0xff, [], 1, .plain⟩,  -- EGRESS (R187)
  ⟨0x250f, 1, 1, 2, 2, .u8, .ro, 0xf, 0xff, [], 1, .plain⟩,  -- EGRESS (R187)
  ⟨0x2510, 1, 1, 0, 0, .u8, .const, 2, 0xff, [], 1, .plain⟩,  -- HIGHEST_SUB (R188)
  ⟨0x2510, 1, 1, 1, 1, .u32, .rw, 0, 0x800fffff, [], 1, .clear1⟩,  -- EVENT_STATUS (R188)
  ⟨0x2510, 1, 1, 2, 2, .u32, .rw, 0, 0x800fffff, [], 1, .plain⟩]  -- EVENT_ENABLE (R188)

/-- Object table rows of indexes 0x2600–0x26FF. -/
def odRows26a : List OdRow := [
  ⟨0x2600, 4, 1, 0, 0, .u8, .const, 0x10, 0xff, [], 1, .plain⟩,  -- HIGHEST_SUB (R324)
  ⟨0x2600, 4, 1, 1, 1, .bool, .rws, 0, 1, [], 1, .enable⟩,  -- ENABLE (R324)
  ⟨0x2600, 4, 1, 2, 2, .u8, .rws, 0, 0xff, [.whole 0 1], 1, .stored⟩,  -- ROLE (R324)
  ⟨0x2600, 4, 1, 3, 3, .u8, .rws, 0, 0xff, [.whole 0 0xfe], 1, .stored⟩,  -- NODE_NUMBER (R324)
  ⟨0x2600, 4, 1, 4, 4, .u8, .rws, 0, 0xff, [.whole 0 4], 1, .stored⟩,  -- RANK (R324)
  ⟨0x2600, 4, 1, 5, 5, .u8, .rws, 0, 0xff, [.whole 0 1], 1, .stored⟩,  -- BAUD (R324)
  ⟨0x2600, 4, 1, 6, 6, .u8, .rws, 0, 0xff, [.whole 0 3], 1, .stored⟩,  -- DOMAIN (R324)
  ⟨0x2600, 4, 1, 7, 7, .u16, .rws, 0x28, 0xffff, [.whole 0x14 0x2710], 1, .stored⟩,  -- GUARD (R324)
  ⟨0x2600, 4, 1, 8, 8, .u8, .rws, 0, 0xff, [.whole 0 7], 1, .stored⟩,  -- START_MODE (R324)
  ⟨0x2600, 4, 1, 9, 9, .u32, .rws, 0x3e8, 0xffffffff, [.whole 0xa 0xf4240], 1, .stored⟩,  -- STEP_THRESHOLD (R324)
  ⟨0x2600, 4, 1, 0xa, 0xa, .u16, .rws, 0xc8, 0xffff, [.whole 1 0x1f4], 1, .stored⟩,  -- RATE_LIMIT (R324)
  ⟨0x2600, 4, 1, 0xb, 0xb, .bool, .rws, 0, 1, [], 1, .stored⟩,  -- ASSIGN (R324)
  ⟨0x2600, 4, 1, 0xc, 0xc, .u32, .rws, 0, 0xffffffff, [], 0x20, .stored⟩,  -- NODE_TABLE (R324)
  ⟨0x2600, 4, 1, 0xd, 0xd, .u32, .rws, 0x2710, 0xffffffff, [.whole 0x7d0 0xf4240], 1, .stored⟩,  -- TX_LEAD (R324)
  ⟨0x2600, 4, 1, 0xe, 0xe, .u16, .ro, 0x20, 0xffff, [], 1, .plain⟩,  -- FWD_DELAY (R324)
  ⟨0x2600, 4, 1, 0xf, 0xf, .u32, .rw, 0, 0x8003ffff, [], 1, .clear1⟩,  -- EVENT_STATUS (R324)
  ⟨0x2600, 4, 1, 0x10, 0x10, .u32, .rw, 0, 0x8003ffff, [], 1, .plain⟩,  -- EVENT_ENABLE (R324)
  ⟨0x2610, 4, 1, 0, 0, .u8, .const, 0x16, 0xff, [], 1, .plain⟩,  -- HIGHEST_SUB (R325)
  ⟨0x2610, 4, 1, 1, 1, .u8, .ro, 0, 0xff, [], 1, .plain⟩,  -- NODE_STATE (R325)
  ⟨0x2610, 4, 1, 2, 2, .u8, .ro, 0, 0xff, [], 1, .plain⟩,  -- TIME_MASTER (R325)
  ⟨0x2610, 4, 1, 3, 3, .u8, .ro, 0, 0xff, [], 1, .plain⟩,  -- NODES (R325)
  ⟨0x2610, 4, 1, 4, 4, .u8, .ro, 0, 0xff, [], 1, .plain⟩,  -- POSITION (R325)
  ⟨0x2610, 4, 1, 5, 5, .u32, .ro, 0, 0xffffffff, [], 1, .plain⟩,  -- PRIMARY_DELAY (R325)
  ⟨0x2610, 4, 1, 6, 6, .u32, .ro, 0, 0xffffffff, [], 1, .plain⟩,  -- SECONDARY_DELAY (R325)
  ⟨0x2610, 4, 1, 7, 7, .u32, .ro, 0, 0xffffffff, [], 1, .plain⟩,  -- RING_LOOP (R325)
  ⟨0x2610, 4, 1, 8, 8, .u32, .ro, 0, 0xffffffff, [], 1, .plain⟩,  -- LINK_E_DELAY (R325)
  ⟨0x2610, 4, 1, 9, 9, .u32, .ro, 0, 0xffffffff, [], 1, .plain⟩,  -- LINK_W_DELAY (R325)
  ⟨0x2610, 4, 1, 0xa, 0xa, .u8, .ro, 0, 0xff, [], 1, .plain⟩,  -- LINK_LOCK (R325)
  ⟨0x2610, 4, 1, 0xb, 0xb, .u32, .ro, 0, 0xffffffff, [], 1, .plain⟩,  -- CYCLE [W] (R325)
  ⟨0x2610, 4, 1, 0xc, 0xc, .u8, .ro, 0, 0xff, [], 1, .plain⟩,  -- ACTIVE_MODE (R325)
  ⟨0x2610, 4, 1, 0xd, 0xd, .i32, .ro, 0, 0xffffffff, [], 1, .plain⟩,  -- OFFSET_ERROR (R325)
  ⟨0x2610, 4, 1, 0xe, 0xe, .u32, .ro, 0, 0xffffffff, [], 1, .plain⟩,  -- FRAMES_RX [H] (R325)
  ⟨0x2610, 4, 1, 0xf, 0xf, .u32, .ro, 0, 0xffffffff, [], 1, .plain⟩,  -- FRAMES_TX [H] (R325)
  ⟨0x2610, 4, 1, 0x10, 0x10, .u32, .ro, 0, 0xffffffff, [], 1, .plain⟩,  -- CRC_ERRORS [H] (R325)
  ⟨0x2610, 4, 1, 0x11, 0x11, .u32, .ro, 0, 0xffffffff, [], 1, .plain⟩,  -- SYMBOL_ERRORS [H] (R325)
  ⟨0x2610, 4, 1, 0x12, 0x12, .u32, .ro, 0, 0xffffffff, [], 1, .plain⟩,  -- REFERENCES_MISSED [H] (R325)
  ⟨0x2610, 4, 1, 0x13, 0x13, .u32, .ro, 0, 0xffffffff, [], 1, .plain⟩,  -- FETCH_LATE [H] (R325)
  ⟨0x2610, 4, 1, 0x14, 0x14, .u32, .ro, 0, 0xffffffff, [], 1, .plain⟩,  -- TYPE_DISCARDS [H] (R325)
  ⟨0x2610, 4, 1, 0x15, 0x15, .u32, .ro, 0, 0xffffffff, [], 1, .plain⟩,  -- LOCK_LOSSES [H] (R325)
  ⟨0x2610, 4, 1, 0x16, 0x16, .u32, .ro, 0, 0xffffffff, [], 1, .plain⟩]  -- SLOT_BUSY_DISPLACED [H] (R325)

/-- Object table rows of indexes 0x2600–0x26FF. -/
def odRows26b : List OdRow := [
  ⟨0x2620, 32, 1, 0, 0, .u8, .const, 5, 0xff, [], 1, .plain⟩,  -- HIGHEST_SUB (R326)
  ⟨0x2620, 32, 1, 1, 1, .u32, .rws, 0, 0xffffffff, [], 0x20, .stored⟩,  -- SLOT_TABLE (R326)
  ⟨0x2620, 32, 1, 2, 2, .u16, .rws, 0, 0xffff, [.whole 0 0x400], 1, .plain⟩,  -- SLOT_COUNT (R326)
  ⟨0x2620, 32, 1, 3, 3, .u32, .rws, 0x186a0, 0xffffffff, [.whole 0x2710 0x5f5e100], 2, .stored⟩,  -- CYCLE_LENGTH (R326)
  ⟨0x2620, 32, 1, 4, 4, .u8, .ro, 0, 0xff, [], 1, .plain⟩,  -- STATUS (R326)
  ⟨0x2620, 32, 1, 5, 5, .u32, .ro, 0, 0xffffffff, [], 1, .plain⟩,  -- REJECT (R326)
  ⟨0x2640, 4, 1, 0, 0, .u8, .const, 6, 0xff, [], 1, .plain⟩,  -- HIGHEST_SUB (R327)
  ⟨0x2640, 4, 1, 1, 1, .u32, .rws, 0, 0xffffffff, [], 8, .stored⟩,  -- REQUEST (R327)
  ⟨0x2640, 4, 1, 2, 2, .u16, .rws, 0x10, 0xffff, [.whole 0x10 0x400], 1, .stored⟩,  -- LENGTH (R327)
  ⟨0x2640, 4, 1, 3, 3, .u32, .rws, 0, 0xffffffff, [], 8, .stored⟩,  -- REPLY (R327)
  ⟨0x2640, 4, 1, 4, 4, .bool, .rws, 0, 1, [], 1, .plain⟩,  -- SEND (R327)
  ⟨0x2640, 4, 1, 5, 5, .u8, .ro, 0, 0xff, [], 1, .plain⟩,  -- STATUS (R327)
  ⟨0x2640, 4, 1, 6, 6, .u32, .ro, 0, 0xffffffff, [], 1, .plain⟩,  -- SENT [W] (R327)
  ⟨0x2650, 4, 1, 0, 0, .u8, .const, 0x17, 0xff, [], 1, .plain⟩,  -- HIGHEST_SUB (R348)
  ⟨0x2650, 4, 1, 1, 1, .u32, .rw, 0, 0xffffffff, [], 8, .stored⟩,  -- GUARD_TABLE (R348)
  ⟨0x2650, 4, 1, 2, 2, .u8, .rw, 0, 0xff, [.whole 1 0x40], 1, .plain⟩,  -- GUARD_COUNT (R348)
  ⟨0x2650, 4, 1, 3, 3, .u8, .ro, 0, 0xff, [], 1, .plain⟩,  -- GUARD_STATUS (R348)
  ⟨0x2650, 4, 1, 4, 4, .u8, .rws, 8, 0xff, [.whole 2 0xff], 1, .stored⟩,  -- PASSIVE_HOLD (R348)
  ⟨0x2650, 4, 1, 5, 5, .u16, .rws, 0, 0xff07, [.field 8 8 4 0xff], 1, .plain⟩,  -- MODE_REQUEST (R348)
  ⟨0x2650, 4, 1, 6, 6, .bool, .rws, 0, 1, [], 1, .plain⟩,  -- RESTORE (R348)
  ⟨0x2650, 4, 1, 7, 7, .u8, .ro, 0, 0xff, [], 1, .plain⟩,  -- CHANGE_STATUS (R348)
  ⟨0x2650, 4, 1, 8, 8, .u32, .ro, 0, 0xffffffff, [], 1, .plain⟩,  -- SWITCH_CYCLE (R348)
  ⟨0x2650, 4, 1, 9, 9, .u8, .ro, 0, 0xff, [], 1, .plain⟩,  -- ACKS_MISSING (R348)
  ⟨0x2650, 4, 1, 0xa, 0xa, .u32, .ro, 0xffffffff, 0xffffffff, [], 1, .plain⟩,  -- WRAP_DELAY (R348)
  ⟨0x2650, 4, 1, 0xb, 0xb, .u32, .ro, 0, 0xffffffff, [], 1, .plain⟩,  -- GUARDIAN_BLOCKED [H] (R348)
  ⟨0x2650, 4, 1, 0xc, 0xc, .u32, .ro, 0, 0xffffffff, [], 1, .plain⟩,  -- TRUNCATED_OWN [H] (R348)
  ⟨0x2650, 4, 1, 0xd, 0xd, .u32, .ro, 0, 0xffffffff, [], 1, .plain⟩,  -- TRUNCATED_SEEN [H] (R348)
  ⟨0x2650, 4, 1, 0xe, 0xe, .u32, .ro, 0, 0xffffffff, [], 1, .plain⟩,  -- MISPLACED [H] (R348)
  ⟨0x2650, 4, 1, 0xf, 0xf, .u32, .ro, 0, 0xffffffff, [], 1, .plain⟩,  -- SUPPRESSED [H] (R348)
  ⟨0x2650, 4, 1, 0x10, 0x10, .u32, .ro, 0, 0xffffffff, [], 1, .plain⟩,  -- HEALING_LOST [H] (R348)
  ⟨0x2650, 4, 1, 0x11, 0x11, .u32, .ro, 0, 0xffffffff, [], 1, .plain⟩,  -- PASSIVE_ENTRIES [W] (R348)
  ⟨0x2650, 4, 1, 0x12, 0x12, .u32, .ro, 0, 0xffffffff, [], 1, .plain⟩,  -- COLDSTARTS [W] (R348)
  ⟨0x2650, 4, 1, 0x13, 0x13, .u32, .ro, 0, 0xffffffff, [], 1, .plain⟩,  -- COLDSTARTS_ABANDONED [W] (R348)
  ⟨0x2650, 4, 1, 0x14, 0x14, .u32, .ro, 0, 0xffffffff, [], 1, .plain⟩,  -- TAKEOVERS [W] (R348)
  ⟨0x2650, 4, 1, 0x15, 0x15, .u32, .ro, 0, 0xffffffff, [], 1, .plain⟩,  -- WRAPS [W] (R348)
  ⟨0x2650, 4, 1, 0x16, 0x16, .u32, .ro, 0, 0xffffffff, [], 1, .plain⟩,  -- MODE_SWITCHES [W] (R348)
  ⟨0x2650, 4, 1, 0x17, 0x17, .u32, .ro, 0, 0xffffffff, [], 1, .plain⟩,  -- MODE_CANCELS [W] (R348)
  ⟨0x2660, 4, 1, 0, 0, .u8, .const, 0xff, 0xff, [], 1, .plain⟩,  -- HIGHEST_SUB (R349)
  ⟨0x2660, 4, 1, 1, 0xff, .u32, .ro, 0, 0xffffffff, [], 1, .plain⟩]  -- TRUNCATED_k [H] (R349)

/-- Object table rows of indexes 0x2700–0x27FF. -/
def odRows27a : List OdRow := [
  ⟨0x2700, 1, 1, 0, 0, .u8, .const, 8, 0xff, [], 1, .plain⟩,  -- HIGHEST_SUB (R363)
  ⟨0x2700, 1, 1, 1, 1, .u16, .rws, 0x4000, 0x7f7f, [.field 8 7 0 0x40], 1, .stored⟩,  -- PATTERN_STORE (R363)
  ⟨0x2700, 1, 1, 2, 2, .u16, .rws, 0, 0xffff, [], 1, .plain⟩,  -- SWAP_MASK (R363)
  ⟨0x2700, 1, 1, 3, 3, .u32, .rws, 0, 0xffffffff, [], 1, .plain⟩,  -- SWAP_CYCLE (R363)
  ⟨0x2700, 1, 1, 4, 4, .u8, .rws, 0, 0xff, [.whole 1 3], 1, .plain⟩,  -- SWAP_COMMAND (R363)
  ⟨0x2700, 1, 1, 5, 5, .u8, .ro, 0, 0xff, [], 1, .plain⟩,  -- SWAP_STATUS (R363)
  ⟨0x2700, 1, 1, 6, 6, .u32, .ro, 0, 0xffffffff, [], 1, .plain⟩,  -- SWAPS [W] (R363)
  ⟨0x2700, 1, 1, 7, 7, .u32, .rw, 0, 0x800fffff, [], 1, .clear1⟩,  -- EVENT_STATUS (R363)
  ⟨0x2700, 1, 1, 8, 8, .u32, .rw, 0, 0x800fffff, [], 1, .plain⟩,  -- EVENT_ENABLE (R363)
  ⟨0x2710, 16, 1, 0, 0, .u8, .const, 0x14, 0xff, [], 1, .plain⟩,  -- HIGHEST_SUB (R364)
  ⟨0x2710, 16, 1, 1, 1, .bool, .rws, 0, 1, [], 1, .enable⟩,  -- ENABLE (R364)
  ⟨0x2710, 16, 1, 2, 2, .u16, .rws, 0, 0x33f, [.field 0 2 0 2], 1, .stored⟩,  -- SOURCE (R364)
  ⟨0x2710, 16, 1, 3, 3, .u32, .rws, 0, 0x3ff03, [], 1, .stored⟩,  -- DESTINATION (R364)
  ⟨0x2710, 16, 1, 4, 4, .u32, .rws, 0, 0xffffffff, [], 1, .stored⟩,  -- DEST_ADDRESS (R364)
  ⟨0x2710, 16, 1, 5, 5, .i32, .rws, 0, 0xffffffff, [.signed (-1000000000) 1000000000], 1, .stored⟩,  -- DEADLINE_OFFSET (R364)
  ⟨0x2710, 16, 1, 6, 6, .u32, .rws, 0x2710, 0xffffffff, [.whole 0x3e8 0xf4240], 1, .stored⟩,  -- LEAD (R364)
  ⟨0x2710, 16, 1, 7, 7, .u16, .rws, 8, 0xffff, [.whole 8 0x1000], 8, .stored⟩,  -- RECORD_BYTES (R364)
  ⟨0x2710, 16, 1, 8, 8, .u16, .rws, 0, 0xff03, [], 1, .stored⟩,  -- POLICY (R364)
  ⟨0x2710, 16, 1, 9, 9, .u32, .rws, 0, 0xffffffff, [], 8, .stored⟩,  -- ACTIVE_BASE (R364)
  ⟨0x2710, 16, 1, 0xa, 0xa, .u32, .rws, 8, 0xffffffff, [], 1, .stored⟩,  -- ACTIVE_STRIDE (R364)
  ⟨0x2710, 16, 1, 0xb, 0xb, .u32, .rws, 1, 0xffffffff, [.whole 1 0x1000000], 1, .stored⟩,  -- ACTIVE_LENGTH (R364)
  ⟨0x2710, 16, 1, 0xc, 0xc, .u8, .rws, 1, 0xff, [.whole 0 3], 1, .stored⟩,  -- ACTIVE_ADVANCE (R364)
  ⟨0x2710, 16, 1, 0xd, 0xd, .u32, .rws, 0, 0xffffffff, [], 0x10, .stored⟩,  -- ACTIVE_REPEAT_TABLE (R364)
  ⟨0x2710, 16, 1, 0xe, 0xe, .u16, .rws, 0, 0xffff, [.whole 0 0x100], 1, .stored⟩,  -- ACTIVE_REPEAT_ENTRIES (R364)
  ⟨0x2710, 16, 1, 0xf, 0xf, .u32, .rws, 0, 0xffffffff, [], 8, .stored⟩,  -- STANDBY_BASE (R364)
  ⟨0x2710, 16, 1, 0x10, 0x10, .u32, .rws, 8, 0xffffffff, [], 1, .stored⟩,  -- STANDBY_STRIDE (R364)
  ⟨0x2710, 16, 1, 0x11, 0x11, .u32, .rws, 1, 0xffffffff, [.whole 1 0x1000000], 1, .stored⟩,  -- STANDBY_LENGTH (R364)
  ⟨0x2710, 16, 1, 0x12, 0x12, .u8, .rws, 1, 0xff, [.whole 0 3], 1, .stored⟩,  -- STANDBY_ADVANCE (R364)
  ⟨0x2710, 16, 1, 0x13, 0x13, .u32, .rws, 0, 0xffffffff, [], 0x10, .stored⟩,  -- STANDBY_REPEAT_TABLE (R364)
  ⟨0x2710, 16, 1, 0x14, 0x14, .u16, .rws, 0, 0xffff, [.whole 0 0x100], 1, .stored⟩,  -- STANDBY_REPEAT_ENTRIES (R364)
  ⟨0x2720, 16, 1, 0, 0, .u8, .const, 0xc, 0xff, [], 1, .plain⟩,  -- HIGHEST_SUB (R365)
  ⟨0x2720, 16, 1, 1, 1, .u8, .ro, 0, 0xff, [], 1, .plain⟩,  -- STATE (R365)
  ⟨0x2720, 16, 1, 2, 2, .u32, .rws, 0, 0xffffffff, [], 1, .stored⟩,  -- INDEX (R365)
  ⟨0x2720, 16, 1, 3, 3, .u8, .rws, 0, 0xff, [], 1, .stored⟩,  -- REPEAT_ENTRY (R365)
  ⟨0x2720, 16, 1, 4, 4, .u16, .rws, 0, 0xffff, [], 1, .stored⟩,  -- REPEAT_PASS (R365)
  ⟨0x2720, 16, 1, 5, 5, .u32, .ro, 0, 0xffffffff, [], 1, .plain⟩,  -- CYCLE (R365)
  ⟨0x2720, 16, 1, 6, 6, .u32, .ro, 0, 0xffffffff, [], 1, .plain⟩,  -- STAGED [H] (R365)
  ⟨0x2720, 16, 1, 7, 7, .u32, .ro, 0, 0xffffffff, [], 1, .plain⟩,  -- UNDERRUNS [H] (R365)
  ⟨0x2720, 16, 1, 8, 8, .u32, .ro, 0, 0xffffffff, [], 1, .plain⟩,  -- READ_ERRORS [H] (R365)
  ⟨0x2720, 16, 1, 9, 9, .u32, .ro, 0, 0xffffffff, [], 1, .plain⟩]  -- SUPPRESSED [H] (R365)

/-- Object table rows of indexes 0x2700–0x27FF. -/
def odRows27b : List OdRow := [
  ⟨0x2720, 16, 1, 0xa, 0xa, .i32, .ro, 0, 0xffffffff, [], 1, .plain⟩,  -- SLACK (R365)
  ⟨0x2720, 16, 1, 0xb, 0xb, .i32, .rw, 0x7fffffff, 0xffffffff, [], 1, .plain⟩,  -- MIN_SLACK (R365)
  ⟨0x2720, 16, 1, 0xc, 0xc, .u8, .rw, 0, 0xff, [.whole 1 1], 1, .plain⟩]  -- ABORT (R365)

/-- Object table rows of indexes 0x2800–0x28FF. -/
def odRows28a : List OdRow := [
  ⟨0x2800, 1, 1, 0, 0, .u8, .const, 0x11, 0xff, [], 1, .plain⟩,  -- HIGHEST_SUB (R391)
  ⟨0x2800, 1, 1, 1, 1, .bool, .rws, 0, 1, [], 1, .enable⟩,  -- ENABLE (R391)
  ⟨0x2800, 1, 1, 2, 2, .u16, .rws, 0x88b5, 0xffff, [.whole 0x600 0xffff], 1, .stored⟩,  -- ETHERTYPE (R391)
  ⟨0x2800, 1, 1, 3, 3, .u16, .rws, 0, 0xfff, [], 1, .stored⟩,  -- LINK_PORTS (R391)
  ⟨0x2800, 1, 1, 4, 4, .u64, .rws, 0x30000008416, 0xffffffffffff, [], 1, .stored⟩,  -- LINK_MAC (R391)
  ⟨0x2800, 1, 1, 6, 6, .u16, .rws, 0x64, 0xffff, [.whole 0xa 0x3e8], 1, .stored⟩,  -- HELLO_PERIOD (R391)
  ⟨0x2800, 1, 1, 7, 7, .u8, .rws, 0x20, 0xff, [.whole 1 0xff], 1, .stored⟩,  -- HOP_LIMIT (R391)
  ⟨0x2800, 1, 1, 8, 8, .u32, .rws, 0x76543210, 0x77777777, [], 1, .stored⟩,  -- CLASS_MAP (R391)
  ⟨0x2800, 1, 1, 9, 9, .u8, .rws, 3, 7, [], 1, .stored⟩,  -- TIME_CONTROL (R391)
  ⟨0x2800, 1, 1, 0xa, 0xa, .u64, .ro, 0, 0xffffffffffffffff, [], 1, .plain⟩,  -- SET_DIGEST (R391)
  ⟨0x2800, 1, 1, 0xc, 0xc, .u32, .ro, 0, 0xffffffff, [], 1, .plain⟩,  -- LATTICE_ID (R391)
  ⟨0x2800, 1, 1, 0xd, 0xd, .u32, .ro, 0, 0xffffffff, [], 1, .plain⟩,  -- CONFIG_GENERATION (R391)
  ⟨0x2800, 1, 1, 0xe, 0xe, .u8, .ro, 0, 0xff, [], 1, .plain⟩,  -- STATE (R391)
  ⟨0x2800, 1, 1, 0xf, 0xf, .u8, .ro, 0, 0xff, [], 1, .plain⟩,  -- QUARANTINE_CAUSE (R391)
  ⟨0x2800, 1, 1, 0x10, 0x10, .u32, .rw, 0, 0x80000fff, [], 1, .clear1⟩,  -- EVENT_STATUS (R391)
  ⟨0x2800, 1, 1, 0x11, 0x11, .u32, .rw, 0, 0x80000fff, [], 1, .plain⟩,  -- EVENT_ENABLE (R391)
  ⟨0x2801, 1, 1, 0, 0, .u8, .const, 0xb, 0xff, [], 1, .plain⟩,  -- HIGHEST_SUB (R392)
  ⟨0x2801, 1, 1, 1, 1, .u8, .rws, 0x80, 0xff, [], 1, .stored⟩,  -- OWN_PRIORITY (R392)
  ⟨0x2801, 1, 1, 2, 2, .u64, .ro, 0, 0xffffffffffffffff, [], 1, .plain⟩,  -- KEEPER_ID (R392)
  ⟨0x2801, 1, 1, 4, 4, .u16, .ro, 0, 0xffff, [], 1, .plain⟩,  -- KEEPER_ADDRESS (R392)
  ⟨0x2801, 1, 1, 5, 5, .u32, .ro, 0, 0xffffffff, [], 1, .plain⟩,  -- KEEPER_SEQ (R392)
  ⟨0x2801, 1, 1, 6, 6, .u32, .ro, 0, 0xffffffff, [], 1, .plain⟩,  -- KEEPER_CHANGES [W] (R392)
  ⟨0x2801, 1, 1, 7, 7, .u16, .ro, 0, 0xffff, [], 1, .plain⟩,  -- DEVICES (R392)
  ⟨0x2801, 1, 1, 8, 8, .u32, .ro, 0, 0xffffffff, [], 1, .plain⟩,  -- ROUTE_GEN (R392)
  ⟨0x2801, 1, 1, 9, 9, .u16, .ro, 0, 0xffff, [], 1, .plain⟩,  -- TREE (R392)
  ⟨0x2801, 1, 1, 0xa, 0xa, .u32, .ro, 0, 0xffffffff, [], 1, .plain⟩,  -- JOINS_REFUSED [W] (R392)
  ⟨0x2801, 1, 1, 0xb, 0xb, .u16, .rws, 0, 0xffff, [.whole 0 0x3ff], 1, .plain⟩,  -- FORGET (R392)
  ⟨0x2802, 1, 1, 0, 0, .u8, .const, 2, 0xff, [], 1, .plain⟩,  -- HIGHEST_SUB (R392)
  ⟨0x2802, 1, 1, 1, 1, .u16, .ro, 0, 0xffff, [], 1, .plain⟩,  -- ADDRESS (R392)
  ⟨0x2802, 1, 1, 2, 2, .u16, .rws, 0, 0xffff, [.whole 0 0x3ff], 1, .stored⟩,  -- STORED_ADDRESS (R392)
  ⟨0x2803, 1, 1, 0, 0, .u8, .const, 0xc, 0xff, [], 1, .plain⟩,  -- HIGHEST_SUB (R392)
  ⟨0x2803, 1, 1, 1, 0xc, .u16, .rws, 0, 0xffff, [], 1, .stored⟩,  -- COST_p (R392)
  ⟨0x2804, 1, 1, 0, 0, .u8, .const, 6, 0xff, [], 1, .plain⟩,  -- HIGHEST_SUB (R393)
  ⟨0x2804, 1, 1, 1, 1, .u32, .rws, 0, 0xffffffff, [], 8, .stored⟩,  -- STAGE_ADDRESS (R393)
  ⟨0x2804, 1, 1, 2, 2, .u32, .rws, 0, 0xffffffff, [.whole 0x50 0x10040], 1, .stored⟩,  -- STAGE_LENGTH (R393)
  ⟨0x2804, 1, 1, 3, 3, .bool, .rws, 0, 1, [], 1, .plain⟩,  -- PUBLISH (R393)
  ⟨0x2804, 1, 1, 4, 4, .u8, .ro, 0, 0xff, [], 1, .plain⟩,  -- STATUS (R393)
  ⟨0x2804, 1, 1, 5, 5, .u32, .ro, 0, 0xffffffff, [], 1, .plain⟩,  -- ENTRIES_APPLIED [W] (R393)
  ⟨0x2804, 1, 1, 6, 6, .u32, .ro, 0, 0xffffffff, [], 1, .plain⟩,  -- ENTRIES_REFUSED [W] (R393)
  ⟨0x2810, 16, 1, 0, 0, .u8, .const, 9, 0xff, [], 1, .plain⟩]  -- HIGHEST_SUB (R394)

/-- Object table rows of indexes 0x2800–0x28FF. -/
def odRows28b : List OdRow := [
  ⟨0x2810, 16, 1, 1, 1, .u8, .ro, 0, 0xff, [], 1, .plain⟩,  -- STATE (R394)
  ⟨0x2810, 16, 1, 2, 2, .u64, .ro, 0, 0xffffffffffffffff, [], 1, .plain⟩,  -- UNIQUE_ID (R394)
  ⟨0x2810, 16, 1, 4, 4, .u16, .ro, 0, 0xffff, [], 1, .plain⟩,  -- ADDRESS (R394)
  ⟨0x2810, 16, 1, 5, 5, .u8, .ro, 0, 0xff, [], 1, .plain⟩,  -- PORT (R394)
  ⟨0x2810, 16, 1, 6, 6, .u16, .ro, 0, 0xffff, [], 1, .plain⟩,  -- COST (R394)
  ⟨0x2810, 16, 1, 7, 7, .u32, .ro, 0, 0xffffffff, [], 1, .plain⟩,  -- GENERATION (R394)
  ⟨0x2810, 16, 1, 8, 8, .u32, .ro, 0, 0xffffffff, [], 1, .plain⟩,  -- HELLOS [W] (R394)
  ⟨0x2810, 16, 1, 9, 9, .u32, .ro, 0, 0xffffffff, [], 1, .plain⟩,  -- LOSSES [W] (R394)
  ⟨0x2820, 1, 1, 0, 0, .u8, .const, 2, 0xff, [], 1, .plain⟩,  -- HIGHEST_SUB (R395)
  ⟨0x2820, 1, 1, 1, 1, .u16, .rw, 0, 0xffff, [.whole 0 0x3ff], 1, .plain⟩,  -- SELECT (R395)
  ⟨0x2820, 1, 1, 2, 2, .u32, .ro, 0, 0xffffffff, [], 1, .plain⟩,  -- ENTRY (R395)
  ⟨0x2821, 1, 1, 0, 0, .u8, .const, 0xa, 0xff, [], 1, .plain⟩,  -- HIGHEST_SUB (R395)
  ⟨0x2821, 1, 1, 1, 1, .u32, .ro, 0, 0xffffffff, [], 1, .plain⟩,  -- FORWARDED [H] (R395)
  ⟨0x2821, 1, 1, 2, 2, .u32, .ro, 0, 0xffffffff, [], 1, .plain⟩,  -- DELIVERED [H] (R395)
  ⟨0x2821, 1, 1, 3, 3, .u32, .ro, 0, 0xffffffff, [], 1, .plain⟩,  -- NO_ROUTE [H] (R395)
  ⟨0x2821, 1, 1, 4, 4, .u32, .ro, 0, 0xffffffff, [], 1, .plain⟩,  -- HOP_EXPIRED [H] (R395)
  ⟨0x2821, 1, 1, 5, 5, .u32, .ro, 0, 0xffffffff, [], 1, .plain⟩,  -- ROUTE_CHANGED [H] (R395)
  ⟨0x2821, 1, 1, 6, 6, .u32, .ro, 0, 0xffffffff, [], 1, .plain⟩,  -- NOT_ADDRESSED [H] (R395)
  ⟨0x2821, 1, 1, 7, 7, .u32, .ro, 0, 0xffffffff, [], 1, .plain⟩,  -- FORMAT_DISCARDS [H] (R395)
  ⟨0x2821, 1, 1, 8, 8, .u32, .ro, 0, 0xffffffff, [], 1, .plain⟩,  -- PAYLOAD_CRC_FAILED [H] (R395)
  ⟨0x2821, 1, 1, 9, 9, .u32, .ro, 0, 0xffffffff, [], 1, .plain⟩,  -- DUPLICATES [H] (R395)
  ⟨0x2821, 1, 1, 0xa, 0xa, .u32, .ro, 0, 0xffffffff, [], 1, .plain⟩]  -- NEIGHBOURS_REFUSED [W] (R395)

/-- Object table rows of indexes 0x2900–0x29FF. -/
def odRows29a : List OdRow := [
  ⟨0x2900, 4, 16, 0, 0, .u8, .const, 0x11, 0xff, [], 1, .plain⟩,  -- HIGHEST_SUB (R426)
  ⟨0x2900, 4, 16, 1, 1, .u8, .rws, 0, 0xff, [.whole 0 3], 1, .stored⟩,  -- MODE (R426)
  ⟨0x2900, 4, 16, 2, 2, .u8, .rws, 1, 3, [], 1, .stored⟩,  -- FD_CONTROL (R426)
  ⟨0x2900, 4, 16, 3, 3, .u32, .rws, 0x1f1f7e00, 0x7f7fffff, [], 1, .stored⟩,  -- NOMINAL_TIMING (R426)
  ⟨0x2900, 4, 16, 4, 4, .u32, .rws, 0x7071e00, 0xf0f1f1f, [], 1, .stored⟩,  -- DATA_TIMING (R426)
  ⟨0x2900, 4, 16, 5, 5, .u16, .rws, 0, 0x7f01, [], 1, .stored⟩,  -- TDC (R426)
  ⟨0x2900, 4, 16, 6, 6, .u8, .rws, 0x10, 0xff, [], 1, .stored⟩,  -- ALONE_LIMIT (R426)
  ⟨0x2900, 4, 16, 7, 7, .u8, .rws, 0, 0xff, [.whole 0 3], 1, .stored⟩,  -- TIME_DOMAIN (R426)
  ⟨0x2900, 4, 16, 8, 8, .u32, .rws, 0, 0xffffffff, [], 0x100, .stored⟩,  -- BUFFER_BASE (R426)
  ⟨0x2900, 4, 16, 9, 9, .u32, .rws, 0, 0x31f1f, [.field 16 2 0 2], 1, .stored⟩,  -- FIFO_CONFIG (R426)
  ⟨0x2900, 4, 16, 0xa, 0xa, .u32, .ro, 0, 0xffffffff, [], 1, .plain⟩,  -- STATUS (R426)
  ⟨0x2900, 4, 16, 0xb, 0xb, .u16, .ro, 0, 0xffff, [], 1, .plain⟩,  -- TEC [ISO 11898-1] (R426)
  ⟨0x2900, 4, 16, 0xc, 0xc, .u8, .ro, 0, 0xff, [], 1, .plain⟩,  -- REC [ISO 11898-1] (R426)
  ⟨0x2900, 4, 16, 0xd, 0xd, .u8, .rws, 0, 0xff, [.whole 0 1], 1, .stored⟩,  -- BUS_OFF_RECOVERY (R426)
  ⟨0x2900, 4, 16, 0xe, 0xe, .bool, .rws, 0, 1, [], 1, .plain⟩,  -- RECOVER (R426)
  ⟨0x2900, 4, 16, 0xf, 0xf, .u32, .ro, 0, 0xffffffff, [], 1, .plain⟩,  -- UNACKED_BUFFERS [W] (R426)
  ⟨0x2900, 4, 16, 0x10, 0x10, .u32, .rw, 0, 0x80003fff, [], 1, .clear1⟩,  -- EVENT_STATUS (R426)
  ⟨0x2900, 4, 16, 0x11, 0x11, .u32, .rw, 0, 0x80003fff, [], 1, .plain⟩,  -- EVENT_ENABLE (R426)
  ⟨0x2901, 4, 16, 0, 0, .u8, .const, 7, 0xff, [], 1, .plain⟩,  -- HIGHEST_SUB (R427)
  ⟨0x2901, 4, 16, 1, 1, .u32, .ro, 0, 0xffffffff, [], 1, .plain⟩,  -- FRAMES_RX [H] (R427)
  ⟨0x2901, 4, 16, 2, 2, .u32, .ro, 0, 0xffffffff, [], 1, .plain⟩,  -- FRAMES_TX [H] (R427)
  ⟨0x2901, 4, 16, 3, 3, .u32, .ro, 0, 0xffffffff, [], 1, .plain⟩,  -- ERRORS_DETECTED [H] (R427)
  ⟨0x2901, 4, 16, 4, 4, .u32, .ro, 0, 0xffffffff, [], 1, .plain⟩,  -- LOST_FRAMES [H] (R427)
  ⟨0x2901, 4, 16, 5, 5, .u32, .ro, 0, 0xffffffff, [], 1, .plain⟩,  -- FIFO_OVERFLOWS [H] (R427)
  ⟨0x2901, 4, 16, 6, 6, .u32, .ro, 0, 0xffffffff, [], 1, .plain⟩,  -- FILTER_DISCARDS [H] (R427)
  ⟨0x2901, 4, 16, 7, 7, .u32, .ro, 0, 0xffffffff, [], 1, .plain⟩,  -- BUS_OFFS [W] (R427)
  ⟨0x2902, 4, 16, 0, 0, .u8, .const, 0x40, 0xff, [], 1, .plain⟩,  -- HIGHEST_SUB (R428)
  ⟨0x2902, 4, 16, 1, 0x40, .u8, .rws, 0, 7, [.field 0 2 0 2], 1, .stored⟩,  -- BUF_MODE_b (R428)
  ⟨0x2903, 4, 16, 0, 0, .u8, .const, 0x40, 0xff, [], 1, .plain⟩,  -- HIGHEST_SUB (R428)
  ⟨0x2903, 4, 16, 1, 0x40, .u32, .rws, 0, 0x3fffffff, [], 1, .stored⟩,  -- BUF_ID_b (R428)
  ⟨0x2904, 4, 16, 0, 0, .u8, .const, 0x40, 0xff, [], 1, .plain⟩,  -- HIGHEST_SUB (R428)
  ⟨0x2904, 4, 16, 1, 0x40, .u32, .rws, 0x1fffffff, 0x1fffffff, [], 1, .stored⟩,  -- BUF_MASK_b (R428)
  ⟨0x2905, 4, 16, 0, 0, .u8, .const, 0x40, 0xff, [], 1, .plain⟩,  -- HIGHEST_SUB (R428)
  ⟨0x2905, 4, 16, 1, 0x40, .u16, .ro, 0, 0xffff, [], 1, .plain⟩,  -- BUF_STATUS_b (R428)
  ⟨0x2906, 4, 16, 0, 0, .u8, .const, 0xa, 0xff, [], 1, .plain⟩,  -- HIGHEST_SUB (R429)
  ⟨0x2906, 4, 16, 2, 2, .u64, .rw, 0, 0xffffffffffffffff, [], 1, .plain⟩,  -- TX_REQUEST (R429)
  ⟨0x2906, 4, 16, 4, 4, .u64, .rw, 0, 0xffffffffffffffff, [], 1, .plain⟩,  -- TX_ABORT (R429)
  ⟨0x2906, 4, 16, 6, 6, .u64, .rw, 0, 0xffffffffffffffff, [], 1, .plain⟩,  -- LOCK_SET (R429)
  ⟨0x2906, 4, 16, 8, 8, .u64, .rw, 0, 0xffffffffffffffff, [], 1, .plain⟩,  -- LOCK_CLEAR (R429)
  ⟨0x2906, 4, 16, 0xa, 0xa, .u64, .rw, 0, 0xffffffffffffffff, [], 1, .plain⟩]  -- LOST_CLEAR (R429)

/-- Object table rows of indexes 0x2900–0x29FF. -/
def odRows29b : List OdRow := [
  ⟨0x2907, 4, 16, 0, 0, .u8, .const, 0x20, 0xff, [], 1, .plain⟩,  -- HIGHEST_SUB (R430)
  ⟨0x2907, 4, 16, 1, 0x20, .u32, .rws, 0, 0xffffffff, [], 1, .stored⟩,  -- FILTER_ID_e (R430)
  ⟨0x2908, 4, 16, 0, 0, .u8, .const, 0x20, 0xff, [], 1, .plain⟩,  -- HIGHEST_SUB (R430)
  ⟨0x2908, 4, 16, 1, 0x20, .u32, .rws, 0x1fffffff, 0x1fffffff, [], 1, .stored⟩,  -- FILTER_MASK_e (R430)
  ⟨0x2909, 4, 16, 0, 0, .u8, .const, 4, 0xff, [], 1, .plain⟩,  -- HIGHEST_SUB (R430)
  ⟨0x2909, 4, 16, 1, 1, .u8, .rw, 0, 0xff, [], 1, .plain⟩,  -- FIFO0_GET (R430)
  ⟨0x2909, 4, 16, 2, 2, .u8, .ro, 0, 0xff, [], 1, .plain⟩,  -- FIFO0_PUT (R430)
  ⟨0x2909, 4, 16, 3, 3, .u8, .rw, 0, 0xff, [], 1, .plain⟩,  -- FIFO1_GET (R430)
  ⟨0x2909, 4, 16, 4, 4, .u8, .ro, 0, 0xff, [], 1, .plain⟩]  -- FIFO1_PUT (R430)

/-- Object table rows of indexes 0x2A00–0x2AFF. -/
def odRows2Aa : List OdRow := [
  ⟨0x2a00, 4, 1, 0, 0, .u8, .const, 9, 0xff, [], 1, .plain⟩,  -- HIGHEST_SUB (R450)
  ⟨0x2a00, 4, 1, 1, 1, .u8, .rws, 0, 0xff, [], 1, .enable⟩,  -- SM_ENABLE (R450)
  ⟨0x2a00, 4, 1, 2, 2, .u64, .rws, 0xffffffffffffffff, 0xffffffffffffffff, [], 1, .stored⟩,  -- PIN_OWNER (R450)
  ⟨0x2a00, 4, 1, 4, 4, .bool, .rws, 0, 1, [], 1, .stored⟩,  -- HOLD_QUIET (R450)
  ⟨0x2a00, 4, 1, 5, 5, .u32, .ro, 0, 0xffffffff, [], 1, .plain⟩,  -- PIN_LEVELS (R450)
  ⟨0x2a00, 4, 1, 6, 6, .u8, .rw, 0, 0xff, [], 1, .plain⟩,  -- FLAG_SET (R450)
  ⟨0x2a00, 4, 1, 7, 7, .u8, .rw, 0, 0xff, [], 1, .plain⟩,  -- FLAG_CLEAR (R450)
  ⟨0x2a00, 4, 1, 8, 8, .u32, .rw, 0, 0x87ffffff, [], 1, .clear1⟩,  -- EVENT_STATUS (R450)
  ⟨0x2a00, 4, 1, 9, 9, .u32, .rw, 0, 0x87ffffff, [], 1, .plain⟩,  -- EVENT_ENABLE (R450)
  ⟨0x2a10, 32, 1, 0, 0, .u8, .const, 0xa, 0xff, [], 1, .plain⟩,  -- HIGHEST_SUB (R451)
  ⟨0x2a10, 32, 1, 1, 1, .u32, .rws, 0x100, 0xffffff, [.field 8 16 1 0xffff], 1, .stored⟩,  -- CLOCK_DIV (R451)
  ⟨0x2a10, 32, 1, 2, 2, .u16, .rws, 0x7f00, 0x7f7f, [], 1, .stored⟩,  -- WRAP (R451)
  ⟨0x2a10, 32, 1, 3, 3, .u8, .rws, 0, 0x7f, [], 1, .stored⟩,  -- START_ADDRESS (R451)
  ⟨0x2a10, 32, 1, 4, 4, .u32, .rws, 0x202000, 0x33f3f0f, [.field 8 6 1 0x20, .field 16 6 1 0x20, .field 24 2 0 2], 1, .stored⟩,  -- STREAM (R451)
  ⟨0x2a10, 32, 1, 5, 5, .u32, .rws, 0x1000, 0xff7fff, [.field 12 3 1 5], 1, .stored⟩,  -- PINS (R451)
  ⟨0x2a10, 32, 1, 6, 6, .u8, .rws, 0, 0x77, [], 1, .stored⟩,  -- BRANCH (R451)
  ⟨0x2a10, 32, 1, 7, 7, .u8, .rws, 0, 0x3f, [], 1, .stored⟩,  -- AWAIT_TRIGGER (R451)
  ⟨0x2a10, 32, 1, 8, 8, .bool, .rws, 0, 1, [], 1, .plain⟩,  -- RESTART (R451)
  ⟨0x2a10, 32, 1, 9, 9, .bool, .rws, 0, 1, [], 1, .plain⟩,  -- FIFO_CLEAR (R451)
  ⟨0x2a10, 32, 1, 0xa, 0xa, .u32, .rws, 0, 0xffffffff, [], 1, .stored⟩,  -- IDLE_WORD (R451)
  ⟨0x2a40, 32, 1, 0, 0, .u8, .const, 0xa, 0xff, [], 1, .plain⟩,  -- HIGHEST_SUB (R452)
  ⟨0x2a40, 32, 1, 1, 1, .u8, .ro, 0, 0xff, [], 1, .plain⟩,  -- STATE (R452)
  ⟨0x2a40, 32, 1, 2, 2, .u8, .ro, 0, 0xff, [], 1, .plain⟩,  -- PC (R452)
  ⟨0x2a40, 32, 1, 3, 3, .u16, .ro, 0, 0xffff, [], 1, .plain⟩,  -- INSTRUCTION (R452)
  ⟨0x2a40, 32, 1, 4, 4, .u32, .rws, 0, 0xffffffff, [], 1, .stored⟩,  -- A (R452)
  ⟨0x2a40, 32, 1, 5, 5, .u32, .rws, 0, 0xffffffff, [], 1, .stored⟩,  -- B (R452)
  ⟨0x2a40, 32, 1, 6, 6, .u16, .ro, 0, 0xffff, [], 1, .plain⟩,  -- FIFO_LEVELS (R452)
  ⟨0x2a40, 32, 1, 7, 7, .u32, .wo, 0, 0xffffffff, [], 1, .plain⟩,  -- TX_FIFO (R452)
  ⟨0x2a40, 32, 1, 8, 8, .u32, .ro, 0, 0xffffffff, [], 1, .plain⟩,  -- RX_FIFO (R452)
  ⟨0x2a40, 32, 1, 9, 9, .u32, .ro, 0, 0xffffffff, [], 1, .plain⟩,  -- TX_EMPTY_FETCHES [H] (R452)
  ⟨0x2a40, 32, 1, 0xa, 0xa, .u32, .ro, 0, 0xffffffff, [], 1, .plain⟩,  -- RX_DROPS [H] (R452)
  ⟨0x2a80, 1, 1, 0, 0, .u8, .const, 7, 0xff, [], 1, .plain⟩,  -- HIGHEST_SUB (R453)
  ⟨0x2a80, 1, 1, 1, 1, .u32, .rws, 0, 0xffffffff, [], 1, .plain⟩,  -- START_MASK (R453)
  ⟨0x2a80, 1, 1, 2, 2, .u32, .rws, 0, 0xffffffff, [], 1, .plain⟩,  -- RESTART_MASK (R453)
  ⟨0x2a80, 1, 1, 3, 3, .u32, .rws, 0, 0xffffffff, [], 1, .plain⟩,  -- STOP_MASK (R453)
  ⟨0x2a80, 1, 1, 4, 4, .u8, .rws, 0, 0xbf, [], 1, .stored⟩,  -- TRIGGER (R453)
  ⟨0x2a80, 1, 1, 5, 5, .u8, .rws, 0, 0xff, [.whole 1 2], 1, .plain⟩,  -- COMMAND (R453)
  ⟨0x2a80, 1, 1, 6, 6, .u32, .ro, 0, 0xffffffff, [], 1, .plain⟩,  -- APPLIED [W] (R453)
  ⟨0x2a80, 1, 1, 7, 7, .u32, .ro, 0, 0xffffffff, [], 1, .plain⟩,  -- CANCELLED [W] (R453)
  ⟨0x2a90, 64, 1, 0, 0, .u8, .const, 8, 0xff, [], 1, .plain⟩]  -- HIGHEST_SUB (R454)

/-- Object table rows of indexes 0x2A00–0x2AFF. -/
def odRows2Ab : List OdRow := [
  ⟨0x2a90, 64, 1, 1, 1, .u32, .rws, 0, 0x1f1f03, [.zeroOr3 16 4], 1, .enable⟩,  -- CONTROL (R454)
  ⟨0x2a90, 64, 1, 2, 2, .u32, .rws, 0, 0xffffffff, [], 1, .stored⟩,  -- ADDRESS (R454)
  ⟨0x2a90, 64, 1, 3, 3, .u32, .rws, 1, 0xffffffff, [.whole 1 0x1000000], 1, .stored⟩,  -- COUNT (R454)
  ⟨0x2a90, 64, 1, 4, 4, .u32, .ro, 0, 0xffffffff, [], 1, .plain⟩,  -- REMAINING (R454)
  ⟨0x2a90, 64, 1, 5, 5, .u8, .ro, 0, 0xff, [], 1, .plain⟩,  -- STATUS (R454)
  ⟨0x2a90, 64, 1, 6, 6, .bool, .rw, 0, 1, [.whole 0 1], 1, .plain⟩,  -- STOP (R454)
  ⟨0x2a90, 64, 1, 7, 7, .u32, .ro, 0, 0xffffffff, [], 1, .plain⟩,  -- WORDS [W] (R454)
  ⟨0x2a90, 64, 1, 8, 8, .u32, .ro, 0, 0xffffffff, [], 1, .plain⟩]  -- NEXT_ADDRESS (R454)

/-- Object table rows of indexes 0x2B00–0x2BFF. -/
def odRows2B : List OdRow := [
  ⟨0x2b00, 1, 1, 0, 0, .u8, .const, 0xa, 0xff, [], 1, .plain⟩,  -- HIGHEST_SUB (R473)
  ⟨0x2b00, 1, 1, 1, 1, .u32, .ro, 0, 0xffffffff, [], 1, .plain⟩,  -- SBE_CORRECTED [W] (R473)
  ⟨0x2b00, 1, 1, 2, 2, .u32, .ro, 0, 0xffffffff, [], 1, .plain⟩,  -- DBE_DETECTED [W] (R473)
  ⟨0x2b00, 1, 1, 3, 3, .u32, .ro, 0, 0xffffffff, [], 1, .plain⟩,  -- LAST_DBE_ADDRESS (R473)
  ⟨0x2b00, 1, 1, 4, 4, .u8, .ro, 0, 0xff, [], 1, .plain⟩,  -- LAST_DBE_MASTER (R473)
  ⟨0x2b00, 1, 1, 5, 5, .u32, .ro, 0, 0xffffffff, [], 1, .plain⟩,  -- PARTIAL_WRITES_REFUSED [W] (R473)
  ⟨0x2b00, 1, 1, 6, 6, .u16, .rws, 0x18, 0xffff, [.zeroOr 1 0x2d0], 1, .stored⟩,  -- SCRUB_PERIOD (R473)
  ⟨0x2b00, 1, 1, 7, 7, .u32, .ro, 0, 0xffffffff, [], 1, .plain⟩,  -- SCRUB_PASSES [W] (R473)
  ⟨0x2b00, 1, 1, 8, 8, .u32, .ro, 0, 0xffffffff, [], 1, .plain⟩,  -- NOT_ON_WAITS [W] (R473)
  ⟨0x2b00, 1, 1, 9, 9, .u32, .rw, 0, 0x3f, [], 1, .clear1⟩,  -- EVENT_STATUS (R473)
  ⟨0x2b00, 1, 1, 0xa, 0xa, .u32, .rw, 0, 0x3f, [], 1, .plain⟩,  -- EVENT_ENABLE (R473)
  ⟨0x2b10, 12, 1, 0, 0, .u8, .const, 0x18, 0xff, [], 1, .plain⟩,  -- HIGHEST_SUB (R474)
  ⟨0x2b10, 12, 1, 1, 8, .u8, .rws, 4, 0xf, [.field 0 2 0 2, .field 2 2 0 2], 1, .stored⟩,  -- POWER_k (R474)
  ⟨0x2b10, 12, 1, 9, 0x10, .u32, .ro, 0, 0xffffffff, [], 1, .plain⟩,  -- EPOCH_k (R474)
  ⟨0x2b10, 12, 1, 0x11, 0x18, .u16, .ro, 0, 0xffff, [], 1, .plain⟩,  -- STATUS_k (R474)
  ⟨0x2b40, 1, 1, 0, 0, .u8, .const, 0x2b, 0xff, [], 1, .plain⟩,  -- HIGHEST_SUB (R475)
  ⟨0x2b40, 1, 1, 1, 0x2b, .u32, .ro, 0, 0xffffffff, [], 1, .plain⟩]  -- CONFLICTS_n [W] (R475)

/-- Object table rows of indexes 0x2C00–0x2CFF. -/
def odRows2C : List OdRow := [
  ⟨0x2c00, 1, 1, 0, 0, .u8, .const, 6, 0xff, [], 1, .plain⟩,  -- HIGHEST_SUB (R489)
  ⟨0x2c00, 1, 1, 1, 1, .u32, .rw, 0, 0xf, [], 1, .clear1⟩,  -- EVENT_STATUS (R489)
  ⟨0x2c00, 1, 1, 2, 2, .u32, .rw, 0, 0xf, [], 1, .plain⟩,  -- EVENT_ENABLE (R489)
  ⟨0x2c00, 1, 1, 3, 3, .u32, .ro, 0, 0xffffffff, [], 1, .plain⟩,  -- LOCKS_RELEASED_BY_RESET [W] (R489)
  ⟨0x2c00, 1, 1, 4, 4, .u32, .ro, 0, 0xffffffff, [], 1, .plain⟩,  -- COMPOSITIONS_DISCARDED [W] (R489)
  ⟨0x2c00, 1, 1, 5, 5, .u32, .ro, 0, 0xffffffff, [], 1, .plain⟩,  -- FLUSHES [W] (R489)
  ⟨0x2c00, 1, 1, 6, 6, .u32, .ro, 0, 0xffffffff, [], 1, .plain⟩,  -- CHECK_FAILURES [W] (R489)
  ⟨0x2c10, 48, 1, 0, 0, .u8, .const, 0x10, 0xff, [], 1, .plain⟩,  -- HIGHEST_SUB (R490)
  ⟨0x2c10, 48, 1, 1, 1, .u8, .rws, 0, 0xff, [.whole 0 0x24], 1, .stored⟩,  -- RECEIVER (R490)
  ⟨0x2c10, 48, 1, 2, 2, .u64, .rws, 0, 0xffffffffffffffff, [], 1, .stored⟩,  -- SENDERS (R490)
  ⟨0x2c10, 48, 1, 4, 4, .u8, .rws, 0, 3, [], 1, .stored⟩,  -- OPTIONS (R490)
  ⟨0x2c10, 48, 1, 5, 5, .u32, .rws, 0, 0x73f, [], 1, .stored⟩,  -- ROUTE (R490)
  ⟨0x2c10, 48, 1, 6, 6, .u8, .rw, 0, 0xff, [], 1, .plain⟩,  -- LOCK (R490)
  ⟨0x2c10, 48, 1, 7, 7, .u8, .ro, 0, 0xff, [], 1, .plain⟩,  -- LOCK_OWNER (R490)
  ⟨0x2c10, 48, 1, 8, 8, .u64, .rw, 0, 0x7ffffffffff, [.field 32 11 0 0x400], 1, .plain⟩,  -- POST (R490)
  ⟨0x2c10, 48, 1, 0xa, 0xa, .u8, .ro, 0, 0xff, [], 1, .plain⟩,  -- STATE (R490)
  ⟨0x2c10, 48, 1, 0xb, 0xb, .u16, .ro, 0, 0xffff, [], 1, .plain⟩,  -- LENGTH (R490)
  ⟨0x2c10, 48, 1, 0xc, 0xc, .u32, .rw, 0, 0xffffffff, [], 1, .clear1⟩,  -- DOORBELL (R490)
  ⟨0x2c10, 48, 1, 0xd, 0xd, .u32, .rw, 0xffffffff, 0xffffffff, [], 1, .plain⟩,  -- MASK (R490)
  ⟨0x2c10, 48, 1, 0xe, 0xe, .u8, .ro, 0, 0xff, [], 1, .plain⟩,  -- CHECK (R490)
  ⟨0x2c10, 48, 1, 0xf, 0xf, .u32, .ro, 0, 0xffffffff, [], 1, .plain⟩,  -- POSTS [W] (R490)
  ⟨0x2c10, 48, 1, 0x10, 0x10, .u32, .ro, 0, 0xffffffff, [], 1, .plain⟩]  -- LOCK_CONTENTIONS [W] (R490)

/-- Object table rows of indexes 0x2D00–0x2DFF. -/
def odRows2D : List OdRow := [
  ⟨0x2d00, 1, 1, 0, 0, .u8, .const, 0x1d, 0xff, [], 1, .plain⟩,  -- HIGHEST_SUB (R521)
  ⟨0x2d00, 1, 1, 1, 1, .u32, .ro, 0, 0xffffffff, [], 1, .plain⟩,  -- COMMITTED_SEQ (R521)
  ⟨0x2d00, 1, 1, 2, 2, .u32, .ro, 0, 0xffffffff, [], 1, .plain⟩,  -- FIRST_SEQ (R521)
  ⟨0x2d00, 1, 1, 3, 3, .u32, .ro, 0, 0xffffffff, [], 1, .plain⟩,  -- WRITE_OFFSET (R521)
  ⟨0x2d00, 1, 1, 4, 4, .u32, .ro, 0, 0xffffffff, [], 1, .plain⟩,  -- OPERATING_MINUTES [S] (R521)
  ⟨0x2d00, 1, 1, 5, 5, .u32, .ro, 0, 0xffffffff, [], 1, .plain⟩,  -- POWER_CYCLES [S] (R521)
  ⟨0x2d00, 1, 1, 6, 6, .u32, .ro, 0, 0xffffffff, [], 1, .plain⟩,  -- DROPPED [S] (R521)
  ⟨0x2d00, 1, 1, 7, 7, .u32, .ro, 0, 0xffffffff, [], 1, .plain⟩,  -- CLEARS [W] (R521)
  ⟨0x2d00, 1, 1, 8, 8, .u32, .sec, 0, 0xffffffff, [.whole 0x67726c63 0x67726c63], 1, .plain⟩,  -- CLEAR (R521)
  ⟨0x2d00, 1, 1, 9, 9, .u8, .ro, 0, 0xff, [], 1, .plain⟩,  -- STATUS (R521)
  ⟨0x2d00, 1, 1, 0xa, 0xa, .u32, .rw, 0, 0x1f, [], 1, .clear1⟩,  -- EVENT_STATUS (R521)
  ⟨0x2d00, 1, 1, 0xb, 0xb, .u32, .rw, 0, 0x1f, [], 1, .plain⟩,  -- EVENT_ENABLE (R521)
  ⟨0x2d00, 1, 1, 0xc, 0x14, .u32, .ro, 0, 0xffffffff, [], 1, .plain⟩,  -- RATE_LIMITED_c [S] (R521)
  ⟨0x2d00, 1, 1, 0x15, 0x1d, .u32, .ro, 0, 0xffffffff, [], 1, .plain⟩,  -- ALLOWANCE_c (R521)
  ⟨0x2d01, 1, 1, 0, 0, .u64, .ro, 0x8280040, 0xffffffffffffffff, [], 1, .plain⟩]  -- LOG (R521)

/-- Object table rows of indexes 0x2E00–0x2EFF. -/
def odRows2Ea : List OdRow := [
  ⟨0x2e00, 1, 1, 0, 0, .u8, .const, 7, 0xff, [], 1, .plain⟩,  -- HIGHEST_SUB (R534)
  ⟨0x2e00, 1, 1, 1, 1, .u16, .sec, 0x7d0, 0xffff, [.whole 0xa 0x2710], 1, .plain⟩,  -- APEX_WDT_PERIOD (R534)
  ⟨0x2e00, 1, 1, 2, 2, .u32, .ro, 0, 0xffffffff, [], 1, .plain⟩,  -- INTEGRITY_EVENTS [W] (R534)
  ⟨0x2e00, 1, 1, 3, 3, .u8, .rws, 3, 0xff, [.whole 1 0x14], 1, .stored⟩,  -- MARGIN_WARN (R534)
  ⟨0x2e00, 1, 1, 4, 4, .i16, .rws, 0x73, 0xffffffff, [.signed (60) 130], 1, .stored⟩,  -- TEMP_WARN (R534)
  ⟨0x2e00, 1, 1, 5, 5, .i16, .ro, 0xffff8000, 0xffffffff, [], 1, .plain⟩,  -- TEMP_PEAK (R534)
  ⟨0x2e00, 1, 1, 6, 6, .u32, .rw, 0, 0x1ff, [], 1, .clear1⟩,  -- EVENT_STATUS (R534)
  ⟨0x2e00, 1, 1, 7, 7, .u32, .rw, 0, 0x1ff, [], 1, .plain⟩,  -- EVENT_ENABLE (R534)
  ⟨0x2e10, 1, 1, 0, 0, .u8, .const, 0x10, 0xff, [], 1, .plain⟩,  -- HIGHEST_SUB (R535)
  ⟨0x2e10, 1, 1, 1, 4, .i16, .ro, 0, 0xffffffff, [], 1, .plain⟩,  -- TEMP_k (R535)
  ⟨0x2e10, 1, 1, 5, 0xf, .u16, .ro, 0, 0xffff, [], 1, .plain⟩,  -- VOLT_m (R535)
  ⟨0x2e10, 1, 1, 0x10, 0x10, .u16, .ro, 0, 0xffff, [], 1, .plain⟩,  -- SUPPLY_OUT (R535)
  ⟨0x2e20, 1, 1, 0, 0, .u8, .const, 0x2a, 0xff, [], 1, .plain⟩,  -- HIGHEST_SUB (R51)
  ⟨0x2e20, 1, 1, 1, 0x2a, .u32, .ro, 0, 0xffffffff, [], 1, .plain⟩,  -- VIOLATIONS_n [W] (R51)
  ⟨0x2e30, 21, 1, 0, 0, .u8, .const, 4, 0xff, [], 1, .plain⟩,  -- HIGHEST_SUB (R536)
  ⟨0x2e30, 21, 1, 1, 1, .u32, .ro, 0, 0xffffffff, [], 1, .plain⟩,  -- PACE (R536)
  ⟨0x2e30, 21, 1, 2, 2, .u32, .const, 0, 0xffffffff, [], 1, .plain⟩,  -- PACE_FLOOR (R536)
  ⟨0x2e30, 21, 1, 3, 3, .i16, .ro, 0, 0xffffffff, [], 1, .plain⟩,  -- MARGIN (R536)
  ⟨0x2e30, 21, 1, 4, 4, .u32, .ro, 0, 0xffffffff, [], 1, .plain⟩,  -- SAMPLES [W] (R536)
  ⟨0x2e80, 1, 1, 0, 0, .u8, .const, 8, 0xff, [], 1, .plain⟩,  -- HIGHEST_SUB (R537)
  ⟨0x2e80, 1, 1, 1, 1, .u32, .sec, 0, 0xffffffff, [.orVal 0 0 0x646d7261], 1, .plain⟩,  -- ARM (R537)
  ⟨0x2e80, 1, 1, 2, 2, .bool, .sec, 0, 1, [], 1, .plain⟩,  -- TEST_IN_SERVICE (R537)
  ⟨0x2e80, 1, 1, 3, 3, .u16, .sec, 0x3c, 0xffff, [.whole 1 0x5a0], 1, .plain⟩,  -- TEST_TIMEOUT (R537)
  ⟨0x2e80, 1, 1, 4, 4, .u16, .sec, 0xa, 0xffff, [.whole 1 0x5a0], 1, .plain⟩,  -- AUTO_DISARM (R537)
  ⟨0x2e80, 1, 1, 5, 5, .u32, .ro, 0, 0xffffffff, [], 1, .plain⟩,  -- ARMS [W] (R537)
  ⟨0x2e80, 1, 1, 6, 6, .u32, .ro, 0, 0xffffffff, [], 1, .plain⟩,  -- ARMS_REFUSED [W] (R537)
  ⟨0x2e80, 1, 1, 7, 7, .u32, .ro, 0, 0xffffffff, [], 1, .plain⟩,  -- INJECTED [W] (R537)
  ⟨0x2e80, 1, 1, 8, 8, .u32, .ro, 0, 0xffffffff, [], 1, .plain⟩,  -- INJECT_DROPS [W] (R537)
  ⟨0x2e81, 1, 1, 0, 0, .u8, .const, 0x3, 0xff, [], 1, .plain⟩,  -- HIGHEST_SUB (R537)
  ⟨0x2e81, 1, 1, 1, 1, .u32, .sec, 0, 0x3fffff, [], 1, .plain⟩,  -- STATIONS (R537)
  ⟨0x2e81, 1, 1, 2, 2, .u32, .sec, 0, 0xffffffff, [], 1, .plain⟩,  -- PATTERN (R537)
  ⟨0x2e81, 1, 1, 3, 3, .u32, .sec, 0x3e8, 0xffffffff, [.whole 2 0xf4240], 1, .plain⟩,  -- SLOT (R537)
  ⟨0x2e82, 1, 1, 0, 0, .u8, .const, 0xc, 0xff, [], 1, .plain⟩,  -- HIGHEST_SUB (R537)
  ⟨0x2e82, 1, 1, 1, 0xc, .u16, .sec, 0, 0xffff, [], 1, .plain⟩,  -- DELAY_p (R537)
  ⟨0x2e83, 1, 1, 0, 0, .u8, .const, 0x8, 0xff, [], 1, .plain⟩,  -- HIGHEST_SUB (R537)
  ⟨0x2e83, 1, 1, 1, 8, .u16, .sec, 0, 0xffff, [.whole 0 0x12c], 1, .plain⟩,  -- STRETCH_f (R537)
  ⟨0x2e84, 1, 1, 0, 0, .u8, .const, 0x2, 0xff, [], 1, .plain⟩,  -- HIGHEST_SUB (R537)
  ⟨0x2e84, 1, 1, 1, 1, .u16, .sec, 0, 0x1f03, [.field 0 2 0 3], 1, .plain⟩,  -- CORRUPT_TARGET (R537)
  ⟨0x2e84, 1, 1, 2, 2, .bool, .ro, 0, 1, [], 1, .plain⟩,  -- CORRUPT_FIRED (R537)
  ⟨0x2e85, 1, 1, 0, 0, .u8, .const, 0x2, 0xff, [], 1, .plain⟩,  -- HIGHEST_SUB (R537)
  ⟨0x2e85, 1, 1, 1, 1, .u32, .sec, 0, 0xffffffff, [], 8, .plain⟩,  -- BANK_ADDRESS (R537)
  ⟨0x2e85, 1, 1, 2, 2, .u16, .sec, 0, 0xff7f, [.field 0 7 0 0x47, .field 8 7 0 0x47], 1, .plain⟩,  -- BANK_BITS (R537)
  ⟨0x2e86, 1, 1, 0, 0, .u8, .const, 0x2, 0xff, [], 1, .plain⟩,  -- HIGHEST_SUB (R537)
  ⟨0x2e86, 1, 1, 1, 1, .u16, .sec, 0, 0x1f, [], 1, .plain⟩,  -- SYMBOL_CONTROL (R537)
  ⟨0x2e86, 1, 1, 2, 2, .u32, .sec, 0x3e8, 0xffffffff, [.whole 0x10 0xffffffff], 1, .plain⟩,  -- SYMBOL_INTERVAL (R537)
  ⟨0x2e87, 1, 1, 0, 0, .u8, .const, 0x1, 0xff, [], 1, .plain⟩,  -- HIGHEST_SUB (R537)
  ⟨0x2e87, 1, 1, 1, 1, .u16, .sec, 0, 0xfff7, [], 1, .plain⟩]  -- CAN_CONTROL (R537)

/-- Object table rows of indexes 0x2E00–0x2EFF. -/
def odRows2Eb : List OdRow := [
  ⟨0x2e88, 1, 1, 0, 0, .u8, .const, 0x3, 0xff, [], 1, .plain⟩,  -- HIGHEST_SUB (R537)
  ⟨0x2e88, 1, 1, 1, 1, .u8, .sec, 0, 7, [], 1, .plain⟩,  -- JITTER_CONTROL (R537)
  ⟨0x2e88, 1, 1, 2, 2, .u16, .sec, 0, 0xffff, [.whole 0 0xfa0], 1, .plain⟩,  -- JITTER_AMPLITUDE (R537)
  ⟨0x2e88, 1, 1, 3, 3, .u32, .sec, 0xf4240, 0xffffffff, [.whole 0x3e8 0x3b9aca00], 1, .plain⟩]  -- JITTER_PERIOD (R537)

/-- Object table rows of indexes 0x2F00–0x2FFF. -/
def odRows2F : List OdRow := [
  ⟨0x2f00, 47, 1, 0, 0, .u8, .const, 3, 0xff, [], 1, .plain⟩,  -- HIGHEST_SUB (R67)
  ⟨0x2f00, 47, 1, 1, 1, .u32, .rws, 0x400, 0x1f0f3f, [], 1, .stored⟩,  -- TARGETS (R67)
  ⟨0x2f00, 47, 1, 2, 2, .bool, .ro, 0, 1, [], 1, .plain⟩,  -- ASSERTED (R67)
  ⟨0x2f00, 47, 1, 3, 3, .u32, .ro, 0, 0xffffffff, [], 1, .plain⟩,  -- NOTIFICATIONS [W] (R67)
  ⟨0x2f40, 1, 1, 0, 0, .u8, .const, 7, 0xff, [], 1, .plain⟩,  -- HIGHEST_SUB (R507)
  ⟨0x2f40, 1, 1, 1, 1, .u16, .ro, 0, 0xffff, [], 1, .plain⟩,  -- LINK_STATUS (R507)
  ⟨0x2f40, 1, 1, 2, 2, .u32, .rws, 0, 0xffffffff, [.orVal 0 0 0x8000000], 1, .stored⟩,  -- BANK_WINDOW_BASE (R507)
  ⟨0x2f40, 1, 1, 3, 3, .u32, .ro, 0, 0xffffffff, [], 1, .plain⟩,  -- PCIE_RESETS [W] (R507)
  ⟨0x2f40, 1, 1, 4, 4, .u32, .ro, 0, 0xffffffff, [], 1, .plain⟩,  -- POISONED [W] (R507)
  ⟨0x2f40, 1, 1, 5, 5, .u8, .rws, 0x30, 0xff, [.whole 8 0x40], 1, .stored⟩,  -- QSPI_CONTROL (R507)
  ⟨0x2f40, 1, 1, 6, 6, .u32, .rw, 0, 0xfffff0f, [], 1, .clear1⟩,  -- EVENT_STATUS (R507)
  ⟨0x2f40, 1, 1, 7, 7, .u32, .rw, 0, 0xfffff0f, [], 1, .plain⟩,  -- EVENT_ENABLE (R507)
  ⟨0x2f41, 1, 1, 0, 0, .u8, .const, 2, 0xff, [], 1, .plain⟩,  -- HIGHEST_SUB (R508)
  ⟨0x2f41, 1, 1, 1, 1, .u32, .ro, 0, 0xffffffff, [], 1, .plain⟩,  -- NOT_READY_READS [W] (R508)
  ⟨0x2f41, 1, 1, 2, 2, .u32, .ro, 0, 0xffffffff, [], 1, .plain⟩,  -- WRITES_DROPPED [W] (R508)
  ⟨0x2f42, 1, 1, 0, 0, .u8, .const, 3, 0xff, [], 1, .plain⟩,  -- HIGHEST_SUB (R508)
  ⟨0x2f42, 1, 1, 1, 1, .u32, .rw, 0, 0xffffffff, [.whole 1 0x40000], 1, .plain⟩,  -- IMAGE_LENGTH (R508)
  ⟨0x2f42, 1, 1, 2, 2, .bool, .rw, 0, 1, [], 1, .plain⟩,  -- GO (R508)
  ⟨0x2f42, 1, 1, 3, 3, .u8, .ro, 0, 0xff, [], 1, .plain⟩,  -- STATUS (R508)
  ⟨0x2f48, 8, 1, 0, 0, .u8, .const, 8, 0xff, [], 1, .plain⟩,  -- HIGHEST_SUB (R509)
  ⟨0x2f48, 8, 1, 1, 1, .u32, .rws, 0, 0xffffff1f, [.field 0 4 0 8], 1, .enable⟩,  -- RING (R509)
  ⟨0x2f48, 8, 1, 2, 2, .u16, .rw, 0, 0xffff, [], 1, .plain⟩,  -- TAIL (R509)
  ⟨0x2f48, 8, 1, 3, 3, .u16, .ro, 0, 0xffff, [], 1, .plain⟩,  -- HEAD (R509)
  ⟨0x2f48, 8, 1, 4, 4, .u8, .rw, 0, 0xff, [.whole 1 1], 1, .plain⟩,  -- ABORT (R509)
  ⟨0x2f48, 8, 1, 5, 5, .u32, .ro, 0, 0xffffffff, [], 1, .plain⟩,  -- DESCRIPTORS_DONE [W] (R509)
  ⟨0x2f48, 8, 1, 6, 6, .u32, .ro, 0, 0xffffffff, [], 1, .plain⟩,  -- BYTES_MOVED [W] (R509)
  ⟨0x2f48, 8, 1, 7, 7, .u32, .ro, 0, 0xffffffff, [], 1, .plain⟩,  -- ERRORS [W] (R509)
  ⟨0x2f48, 8, 1, 8, 8, .u8, .ro, 0, 0xff, [], 1, .plain⟩,  -- LAST_RESULT (R509)
  ⟨0x2f50, 1, 1, 0, 0, .u8, .const, 7, 0xff, [], 1, .plain⟩,  -- HIGHEST_SUB (R510)
  ⟨0x2f50, 1, 1, 1, 4, .u8, .ro, 0, 0xff, [], 1, .plain⟩,  -- SESSION_STATE_c (R510)
  ⟨0x2f50, 1, 1, 5, 5, .u16, .rws, 0x3c, 0xffff, [.whole 1 0xe10], 1, .stored⟩,  -- IDLE_TIMEOUT (R510)
  ⟨0x2f50, 1, 1, 6, 6, .u32, .ro, 0, 0xffffffff, [], 1, .plain⟩,  -- OPENED [W] (R510)
  ⟨0x2f50, 1, 1, 7, 7, .u32, .ro, 0, 0xffffffff, [], 1, .plain⟩,  -- REFUSED [W] (R510)
  ⟨0x2f58, 8, 1, 0, 0, .u8, .const, 0x11, 0xff, [], 1, .plain⟩,  -- HIGHEST_SUB (R510)
  ⟨0x2f58, 8, 1, 1, 0x10, .u32, .sec, 0, 0xffffffff, [], 1, .plain⟩,  -- KEY_WORD_i (R510)
  ⟨0x2f58, 8, 1, 0x11, 0x11, .bool, .sec, 0, 1, [], 1, .plain⟩]  -- ENABLED (R510)

/-- Object table rows of indexes 0x3000–0x30FF. -/
def odRows30 : List OdRow := [
  ⟨0x3000, 6, 2048, 0, 0, .u8, .const, 0xd, 0xff, [], 1, .plain⟩,  -- HIGHEST_SUB (R407)
  ⟨0x3000, 6, 2048, 1, 1, .u16, .rws, 0, 0xffff, [], 1, .stored⟩,  -- IMAGE_ID (R407)
  ⟨0x3000, 6, 2048, 2, 2, .u8, .rws, 0, 0xff, [.whole 0 0x1f], 1, .stored⟩,  -- FIRST_ENGINE (R407)
  ⟨0x3000, 6, 2048, 3, 3, .u16, .rws, 0, 0xfff, [], 1, .stored⟩,  -- PORTS (R407)
  ⟨0x3000, 6, 2048, 4, 4, .u32, .rws, 0, 0xffff, [], 1, .stored⟩,  -- RESOURCES (R407)
  ⟨0x3000, 6, 2048, 5, 5, .u8, .rws, 0, 7, [], 1, .stored⟩,  -- DOMAINS (R407)
  ⟨0x3000, 6, 2048, 6, 6, .u8, .rws, 0, 0xff, [.whole 1 2], 1, .plain⟩,  -- COMMAND (R407)
  ⟨0x3000, 6, 2048, 7, 7, .u8, .ro, 0, 0xff, [], 1, .plain⟩,  -- STATE (R407)
  ⟨0x3000, 6, 2048, 8, 8, .u8, .ro, 0, 0xff, [], 1, .plain⟩,  -- REFUSE_CAUSE (R407)
  ⟨0x3000, 6, 2048, 9, 9, .bool, .rws, 0, 1, [], 1, .stored⟩,  -- AUTO_START (R407)
  ⟨0x3000, 6, 2048, 0xa, 0xa, .u64, .rw, 0, 0xffffffffffffffff, [], 1, .plain⟩,  -- PRIVATE_VALUE (R407)
  ⟨0x3000, 6, 2048, 0xc, 0xc, .u32, .rw, 0, 0xffffff, [], 1, .plain⟩,  -- PRIVATE_SELECT (R407)
  ⟨0x3000, 6, 2048, 0xd, 0xd, .u32, .ro, 0, 0xffffffff, [], 1, .plain⟩]  -- STORE_OFFSET (R407)

/-- The rows that can hold index `idx`: the tables are kept apart by the index's high byte; the instance
objects of R397 lie 0x800 apart from 0x3000 on. -/
def odRowsFor (idx : Nat) : List OdRow :=
  match idx / 256 with
  | 0x10 => odRows10
  | 0x20 => odRows20a ++ odRows20b
  | 0x21 => odRows21a ++ odRows21b
  | 0x22 => odRows22a ++ odRows22b ++ odRows22c
  | 0x23 => odRows23a ++ odRows23b
  | 0x24 => odRows24a ++ odRows24b
  | 0x25 => odRows25
  | 0x26 => odRows26a ++ odRows26b
  | 0x27 => odRows27a ++ odRows27b
  | 0x28 => odRows28a ++ odRows28b
  | 0x29 => odRows29a ++ odRows29b
  | 0x2A => odRows2Aa ++ odRows2Ab
  | 0x2B => odRows2B
  | 0x2C => odRows2C
  | 0x2D => odRows2D
  | 0x2E => odRows2Ea ++ odRows2Eb
  | 0x2F => odRows2F
  | h => if 0x30 ≤ h && h < 0x60 then odRows30 else []

end Sys2Proof.Machine
end

