-- ==== Sys2Proof/Machine/Tbl.lean ====
section
/-! DEFINITION. Tables: lists of (key, value) pairs with strictly rising keys in which no entry equals what an
unlisted key reads as, so that equal tables are equal data. Memory, the OD and every block's instances are tables. -/

namespace Sys2Proof.Machine

/-- A table. -/
abbrev Tbl (α : Type) := List (Nat × α)

/-- What key `k` holds; an unlisted key reads as `d k`. -/
def tblGet {α : Type} (d : Nat → α) (k : Nat) : Tbl α → α
  | [] => d k
  | (j, v) :: t => if j = k then v else tblGet d k t

/-- The table without key `k`. -/
def tblDel {α : Type} (k : Nat) : Tbl α → Tbl α
  | [] => []
  | (j, v) :: t => if j = k then tblDel k t else (j, v) :: tblDel k t

/-- Insert before the first larger key. -/
def tblIns {α : Type} (k : Nat) (v : α) : Tbl α → Tbl α
  | [] => [(k, v)]
  | (j, w) :: t => if k < j then (k, v) :: (j, w) :: t else (j, w) :: tblIns k v t

/-- Write key `k`; writing what an unlisted key reads as removes the entry. -/
def tblSet {α : Type} [DecidableEq α] (d : Nat → α) (k : Nat) (v : α) (t : Tbl α) : Tbl α :=
  if v = d k then tblDel k t else tblIns k v (tblDel k t)

/-- Every key lies above `b` and keys rise strictly. -/
def tblRising {α : Type} (b : Nat) : Tbl α → Bool
  | [] => true
  | (j, _) :: t => decide (b ≤ j) && tblRising (j + 1) t

/-- The canonical form: strictly rising keys and no entry equal to the default. -/
def tblWf {α : Type} [DecidableEq α] (d : Nat → α) (t : Tbl α) : Bool :=
  tblRising 0 t && t.all (fun p => p.2 ≠ d p.1)

/-- Remove every entry whose key lies in `[lo, hi)`. -/
def tblClear {α : Type} (lo hi : Nat) : Tbl α → Tbl α
  | [] => []
  | (j, v) :: t => if lo ≤ j ∧ j < hi then tblClear lo hi t else (j, v) :: tblClear lo hi t

/-- Keep only the entries whose key satisfies `f`. -/
def tblKeep {α : Type} (f : Nat → Bool) : Tbl α → Tbl α
  | [] => []
  | (j, v) :: t => if f j then (j, v) :: tblKeep f t else tblKeep f t

end Sys2Proof.Machine
end

