-- ==== Sys2Proof/Machine/State.lean ====
section
/-! DEFINITION. The state of the KT-8416 block as plain data: the Object Dictionary (every object the spec names,
at its index and subindex), the byte memory of the device address map, the state of each unit that the OD does not
show, the queue of waiting commands and what the block has emitted. -/

namespace Sys2Proof.Machine

/-- What the block gives to the outside, in order of emission. -/
inductive Out where
  /-- The answer to a master's access: the data and whether it is an error response (R19). -/
  | reply (master : Nat) (data : List Byte) (error : Bool)
  /-- A quad-SPI answer: the bytes driven after the opcode (R500). -/
  | qspi (data : List Byte)
  /-- An MSI-X message (R68, R495). -/
  | msix (vector : Nat)
  /-- A frame on a MAC port's wire; `stomped` when its FCS is the complement (R30). -/
  | frame (port : Nat) (data : List Byte) (stomped : Bool)
  /-- A verify mPacket of 802.3br on a port (R203). -/
  | verify (port : Nat)
  /-- An MDIO frame on bus `bus`: operation and its fields (R193). -/
  | mdio (bus op : Nat) (phy reg : Nat) (data : Nat)
  /-- Data symbols of a Perimeter frame on a ring's link; `abt` when it ends with ABT. -/
  | perimeter (ring : Nat) (east : Bool) (data : List Nib) (abt : Bool)
  /-- A link signal on a ring's link: ECHO_REPLY, or ECHO_REQUEST (R293). -/
  | linkSignal (ring : Nat) (east reply : Bool)
  /-- A CAN frame attempt on a bus. -/
  | can (ctl : Nat) (buffer : Nat) (id : Nat) (data : List Byte)
  /-- Host DMA writes to host memory (R497). -/
  | hostWrite (addr : Nat) (data : List Byte)
  /-- An answer on a network's acyclic service (R69). -/
  | network (data : List Byte)
  /-- A code violation sent in place of a Perimeter symbol (R533). -/
  | symbol (ring : Nat) (west : Bool)
  /-- What the TAP shifts out (R558). -/
  | tap (value : Nat)
  /-- An edge on a trigger or PPS output. -/
  | edge (kind unit : Nat) (level : Bool)
  deriving DecidableEq, Repr

/-- A path's read latch and write stage for 64-bit objects (R47): key of the object and the word; with a domain's TIME
the FRACTION of the same tick (R282). -/
structure PathSt where
  latch : Option (Nat × DWord) := none
  frac : Word := 0
  stage : Option (Nat × Word) := none
  deriving DecidableEq, Repr

/-- Sleep phases (R102, R104). -/
inductive Sleep where
  | awake | toDoze | doze | waking | toStandby | standby
  deriving DecidableEq, Repr

/-- The RESET_N glitch filter (R79, R80). -/
inductive PinFilter where
  | high | judging | accepted
  deriving DecidableEq, Repr

/-- Power, reset and pins (spec/03, R541–R545). -/
structure Power where
  aonGood : Bool := false
  coreGood : Bool := true
  /-- Bring-up is in progress. -/
  starting : Bool := false
  /-- This start began at step 1 (R92, R512). -/
  cold : Bool := true
  /-- Failed fuse loads of this start (R90). -/
  fuseTries : Nat := 0
  pllLocked : Bool := false
  resetPin : PinFilter := .high
  /-- Held in reset until every sensor is below 120 °C (R78). -/
  thermalHeld : Bool := false
  /-- The sensor and reading of a thermal trip, recorded at the next start (R567, 0x0905). -/
  tripNote : Option (Nat × Nat) := none
  /-- Event status bits of 0x2E00:06 that the next start sets (R526). -/
  integrityNote : Nat := 0
  resetOutLow : Bool := true
  faultLow : Bool := false
  /-- VDDIO banks 0–5 that are present. -/
  vddio : Tbl Bool := []
  /-- Class of a VDDIO bank: 0 none, 1 1.8 V, 2 2.5 V, 3 3.3 V (R542). -/
  vddioClass : Tbl Nat := []
  /-- Quiet levels in force, as the option load applied them (R89). -/
  quietEn : DWord := 0
  quietLevel : DWord := 0
  threshold : Nat := 3
  sleep : Sleep := .awake
  /-- A wake source latched during a transition (R105). -/
  wakeLatched : Option Nat := none
  /-- EDGE of the capture inputs as the Standby request found it (R104). -/
  standbyEdges : Nat := 0
  /-- Engines that a Doze halted and its wake resumes (R102). -/
  dozeEngines : Nat := 0
  /-- Sources of the reset in progress as 0x2003:02 shows them, and the failing word of an integrity reset (R81, R83). -/
  causes : Nat := 0
  failAddr : Nat := 0
  /-- START_TRIES and STARTS that wait for the supplies to be in range before MRAM takes them (R544). -/
  startWrite : Option (Nat × Nat) := none
  /-- Since the latest wake from Doze Apex has not yet confirmed the configuration (R102, R103). -/
  confirmPending : Bool := false
  deriving DecidableEq, Repr

/-- One copy of the parameter store (R54, R56, R59). -/
structure ParamCopy where
  valid : Bool := false
  gen : Nat := 0
  saves : Nat := 0
  vals : Tbl DWord := []
  deriving DecidableEq, Repr

/-- The parameter store and its operation (R55–R59). -/
structure ParamStore where
  copyA : ParamCopy := {}
  copyB : ParamCopy := {}
  /-- Groups (1–4) of a held save and a held restore (R58). -/
  heldSave : List Nat := []
  heldRestore : List Nat := []
  /-- The 100 ms after the latest start have not passed. -/
  spacing : Bool := false
  /-- The copy being written, whether it goes to A, and the LAST_RESULT it gives. -/
  writing : Option (ParamCopy × Bool × Nat) := none
  deriving DecidableEq, Repr

/-- One option copy (R91). -/
structure OptCopy where
  valid : Bool := false
  gen : Nat := 0
  en : DWord := 0
  level : DWord := 0
  threshold : Nat := 3
  deriving DecidableEq, Repr

/-- The option block (R91). -/
structure OptStore where
  copyA : OptCopy := {}
  copyB : OptCopy := {}
  /-- The copy being written and whether it goes to A. -/
  writing : Option (OptCopy × Bool) := none
  held : Bool := false
  deriving DecidableEq, Repr

/-- An item of a receive lane FIFO (R120). -/
inductive LaneItem where
  | nib (n : Nib)
  | start (w : Word)
  | fin (w : Word)
  deriving DecidableEq, Repr

/-- An item of a transmit lane FIFO (R122, R160). -/
inductive TxItem where
  | nib (n : Nib)
  | fin (stomp : Bool)
  deriving DecidableEq, Repr

/-- The discard a receive lane is armed for (R157, R159). -/
inductive Discard where
  | off | count (n : Nat) | frame
  deriving DecidableEq, Repr

/-- A posted store not yet completed (R112). -/
structure Posted where
  far : Bool
  addr : Nat
  data : List Byte
  deriving DecidableEq, Repr

/-- What a waiting engine instruction waits for (R124, R151). -/
inductive WaitFor where
  | none | lane | room | time | event | stores | bank
  deriving DecidableEq, Repr

/-- An engine or Apex beyond its OD objects (R110, R157–R163, R166). STATE, PC, HALT_CAUSE and the fault registers
are the OD objects 0x2400 + e; Apex keeps the same cells at the model's index 0x10000. -/
structure Engine where
  regs : Tbl Word := []
  z : Bool := false
  n : Bool := false
  c : Bool := false
  v : Bool := false
  crcPoly : Nat := 0
  crc : Word := 0
  crcTap : Nat := 0
  /-- POLY 3 under a tap holds a single nibble until its pair arrives (R161). -/
  crcHalf : Option Nib := none
  /-- The time latch per domain (R162). -/
  tdLatch : Tbl DWord := []
  evp : BitVec 64 := 0
  waiting : WaitFor := .none
  /-- HALT_CAUSE of the halt that is pending; a STEP is one (R126). -/
  haltWhy : Nat := 0
  posted : List Posted := []
  rx : List LaneItem := []
  rxDiscard : Discard := .off
  rxPos : Nat := 0
  /-- The rest of the frame arriving is being discarded after an overrun (R121). -/
  rxDrop : Bool := false
  /-- Nibbles of the frame arriving that have reached the lane, and its timestamp's fraction (R120). -/
  rxCount : Nat := 0
  rxFrac : BitVec 2 := 0
  tx : List TxItem := []
  /-- The frame at the head of the transmit FIFO is on the wire; its bytes so far. -/
  txOn : Bool := false
  txWire : List Nib := []
  /-- After an underrun the frame's remaining nibbles are discarded to its END marker (R122). -/
  txDrop : Bool := false
  /-- Bindings in effect, as RX_SOURCE and TX_DEST hold them (R118). -/
  rxBound : Nat := 0
  txBound : Nat := 0x7000
  /-- IRAM_WORDS of the loaded image (R131); 0 when none is loaded. -/
  words : Nat := 0
  /-- IMAGE_ID of the loaded image. -/
  image : Nat := 0
  needReload : Bool := false
  deriving DecidableEq, Repr

/-- A bank's transition (R458): the state it goes to while CHANGING, as two bits. -/
structure Bank where
  target : Nat := 0
  deriving DecidableEq, Repr

/-- An access waiting for a bank that is not ON (R459). -/
structure BankWait where
  path : Path
  write : Bool
  addr : Nat
  size : Size
  beats : Nat := 1
  data : List Byte
  /-- A fetch-and-add (false) or swap (true) with its operand (R468). -/
  atomic : Option (Bool × Nat) := none
  deriving DecidableEq, Repr

/-- The memory state outside the stored bytes (spec/17): words (address / 8) that hold a single-bit or a double-bit
error, bank transitions and waiting accesses. -/
structure MemCtl where
  sbe : Tbl Bool := []
  dbe : Tbl Bool := []
  bank : Tbl Bank := []
  waits : List BankWait := []
  scrubbing : Bool := false
  deriving DecidableEq, Repr

/-- A mailbox channel beyond its OD objects (R476–R488). -/
structure Mbox where
  bits : Word := 0
  crc : Word := 0
  /-- A discarded area is being zeroed; the lock is released after it (R488). -/
  zeroing : Bool := false
  deriving DecidableEq, Repr

/-- A queued record (R513, R514). -/
structure Rec where
  typ : Nat
  body : List Byte
  minutes : Nat
  cycles : Nat
  seq : Nat
  deriving DecidableEq, Repr

/-- The event recorder beyond its OD objects (spec/20). -/
structure Recorder where
  queue : List Rec := []
  nextSeq : Nat := 0
  /-- Bytes of each class in the log or admitted to the queue (R517). -/
  classBytes : Tbl Nat := []
  clearMinutes : Nat := 0
  /-- SCAN_DONE is due when the queue empties (R516). -/
  scanPending : Bool := false
  deriving DecidableEq, Repr

/-- Supervision and perturbation beyond the OD (spec/21), and the TAP (R558). -/
structure Supervision where
  watchdog : Bool := false
  /-- The 0x0801 record whose commit arms the device. -/
  armSeq : Option Nat := none
  testTimer : Bool := false
  autoTimer : Bool := false
  patternBit : Nat := 0
  symbolDone : Bool := false
  canDone : Bool := false
  /-- The jitter offset of the jittered domain, in quarter nanoseconds (R533). -/
  jitter : Int := 0
  /-- The last 64 window counts of each pace monitor (R527). -/
  pace : Tbl (List Nat) := []
  jtagUnlocked : Bool := false
  tap : TapOp := .idcode
  deriving DecidableEq, Repr

/-- A host DMA channel beyond its OD objects (R496–R498). -/
structure DmaCh where
  /-- A transfer is in progress (its first descriptor has begun, its LAST has not ended). -/
  active : Bool := false
  /-- The rest of the transfer is being written back with RESULT 1. -/
  flushing : Bool := false
  /-- Bytes of the descriptor in progress already moved. -/
  moved : Nat := 0
  deriving DecidableEq, Repr

/-- A secure session (R503, R504). -/
structure Session where
  path : Nat := 0
  number : Nat := 0
  counter : Nat := 0
  refusals : Nat := 0
  keySlot : Nat := 0
  origin : Nat := 0
  deriving DecidableEq, Repr

/-- The host interfaces beyond their OD objects (spec/19). -/
structure HostIf where
  msixMask : BitVec 64 := BitVec.allOnes 64
  msixPend : BitVec 64 := 0
  perstLow : Bool := true
  /-- The link has come up since PERST_N rose and bring-up step 5 completed. -/
  training : Bool := false
  dma : Tbl DmaCh := []
  qDropped : Bool := false
  qResetEnabled : Bool := false
  /-- The old value of the latest atomic, and whether it carried a double-bit error (R501). -/
  qResult : Option (DWord × Bool) := none
  sessions : Tbl Session := []
  deriving DecidableEq, Repr

/-- The image library operation in progress (R133): true for an install, with the master that commanded it. -/
structure Library where
  busy : Option (Bool × Nat) := none
  deriving DecidableEq, Repr
/-- A time domain beyond its objects (R261, R262). -/
structure TimeDom where
  adjusting : Bool := false
  /-- The armed step: 0 none, 1 the next tick, 2 STEP_AT. -/
  stepMode : Nat := 0
  deriving DecidableEq, Repr

/-- An entry of a capture FIFO (R269, R284). -/
structure CapEntry where
  time : Nat
  frac : Nat
  falling : Bool
  deriving DecidableEq, Repr

/-- A PPS output beyond its objects (R270): the next leading edge, the pulse in progress and its end. -/
structure Pps where
  next : Nat := 0
  on : Bool := false
  endAt : Nat := 0
  deriving DecidableEq, Repr

/-- A launch entry beyond its objects (R273–R276): its template is being fetched, the staged frame, and whether its frame
has begun on the wire. -/
structure Launch where
  fetching : Bool := false
  data : Option (List Byte) := none
  begun : Bool := false
  deriving DecidableEq, Repr

/-- Where a frame on a port's transmitter comes from (R122, R170, R209, R237, R275). -/
inductive TxSrc where
  | queue | lane (e : Nat) | launch (k : Nat) | pause | chord | verify
  deriving DecidableEq, Repr

/-- A queue entry (R227) with the charge it holds (R229). -/
structure QEntry where
  frame : Nat
  ingress : Nat
  cls : Nat
  tsRecord : Bool := false
  rtagInsert : Bool := false
  rtagRemove : Bool := false
  storeWhole : Bool := true
  bad : Bool := false
  /-- Start mode of its queue at admission (R232). -/
  mode : Nat := 0
  tsNs : Nat := 0
  tsFrac : Nat := 0
  rtagSeq : Nat := 0
  stream : Option Nat := none
  charge : Nat := 0
  deriving DecidableEq, Repr

/-- The frame on a port's transmitter: its bytes without FCS once they are known, its egress timestamp, and whether it
leaves stomped. -/
structure TxCur where
  src : TxSrc
  cls : Nat := 0
  entry : Option QEntry := none
  data : List Byte := []
  done : Bool := false
  stomp : Bool := false
  tsNs : Nat := 0
  tsFrac : Nat := 0
  tsReq : Bool := false
  /-- Next-hop MAC address a forwarded Lattice frame gets (R370). -/
  newDa : Option Nat := none
  deriving DecidableEq, Repr

/-- A frame entering the switch from a port: stored frame and the destinations that accepted it (R228). -/
structure SwCtx where
  frame : Option Nat := none
  deriving DecidableEq, Repr

/-- A port beyond its objects (spec/07, R237–R241, R274). -/
structure Port where
  /-- Speed code of the link source's latest report, 0 no link (R197). -/
  report : Nat := 0
  /-- Speed of the previous link-up since the port's latest reset (R197). -/
  prevSpeed : Nat := 0
  /-- Link settings (subs 02–08) and frame settings (subs 0C, 0D, 14–16, per direction) in force (R198). -/
  linkCfg : Tbl DWord := []
  rxCfg : Tbl DWord := []
  txCfg : Tbl DWord := []
  cur : Option TxCur := none
  /-- Pause frames that wait for the next frame boundary; true for PFC (R209). -/
  pauseQ : List (List Byte × Bool) := []
  /-- The latest frame received whole: its bytes without FCS, and whether it was good (R202). -/
  rxDone : Option (List Byte × Bool) := none
  ctx : Option SwCtx := none
  /-- Classes paused by the link partner, and classes whose requests are ignored (R208, R210). -/
  paused : Nat := 0
  ignored : Nat := 0
  /-- A request that was received: classes paused, classes released (R208). -/
  pauseReq : Option (Nat × Nat) := none
  tsSeq : Nat := 0
  tsSlot : Nat := 0
  tsPending : List (List Byte) := []
  verifyTries : Nat := 0
  /-- Classes whose next turn belongs to a lane stream (R237). -/
  laneTurn : Nat := 0
  /-- Shaper credit of each class in 10^-6 bit (R241). -/
  credit : Tbl Int := []
  creditAt : Nat := 0
  /-- The MAC hold of 802.3br is asserted (R240). -/
  held : Bool := false
  deriving DecidableEq, Repr

/-- A gate control list that runs, and one that waits for its change time (R238, R239, R243): entries are gate states,
operation and interval. -/
structure GateCtl where
  oper : List (Nat × Nat × Nat) := []
  cycle : Nat := 0
  idx : Nat := 0
  entryAt : Nat := 0
  cycleAt : Nat := 0
  pend : Option (List (Nat × Nat × Nat) × Nat × Nat) := none
  deriving DecidableEq, Repr

/-- A frame stored in the switch's cells (R226); LENGTH is 0 while it is arriving. -/
structure SwFrame where
  len : Nat := 0
  cells : List Nat := []
  checks : List Word := []
  refs : Nat := 0
  ingress : Nat := 0
  cls : Nat := 0
  bad : Bool := false
  head : List Byte := []
  deriving DecidableEq, Repr

/-- A forwarding database entry (R222). -/
structure FdbEntry where
  mac : Nat := 0
  vid : Nat := 0
  isStatic : Bool := false
  mask : Nat := 0
  /-- Rim ticks when it was last refreshed. -/
  at' : Nat := 0
  deriving DecidableEq, Repr

/-- A stream (R242, R255). -/
structure Stream where
  mac : Nat := 0
  ident : Nat := 0
  filter : Nat := 0
  blocked : Bool := false
  matched : Nat := 0
  passed : Nat := 0
  gateDisc : Nat := 0
  sduDisc : Nat := 0
  deriving DecidableEq, Repr

/-- A stream gate (R243, R256). -/
structure SGate where
  list : Nat := 0
  len : Nat := 1
  cycle : Nat := 1000000
  base : Nat := 0
  dom : Nat := 0
  status : Nat := 0
  ctl : GateCtl := {}
  deriving DecidableEq, Repr

/-- A meter (R243, R256): token buckets in bits, and the rim tick they were last filled at. -/
structure Meter where
  cir : Nat := 0
  cbs : Nat := 0
  eir : Nat := 0
  ebs : Nat := 0
  mode : Nat := 0
  allRed : Bool := false
  green : Nat := 0
  yellow : Nat := 0
  red : Nat := 0
  /-- Tokens in 10^-6 bit. -/
  cTok : Nat := 0
  eTok : Nat := 0
  at' : Nat := 0
  deriving DecidableEq, Repr

/-- 802.1CB state of a handle (R244, R257). -/
structure Cb where
  func : Nat := 0
  mask : Nat := 0
  genSeq : Nat := 0
  passed : Nat := 0
  discarded : Nat := 0
  outOfOrder : Nat := 0
  rogue : Nat := 0
  lost : Nat := 0
  resets : Nat := 0
  takeAny : Bool := true
  recovSeq : Nat := 0
  history : Nat := 0
  deriving DecidableEq, Repr

/-- The switch core beyond its objects (spec/08). -/
structure Switch where
  frames : Tbl SwFrame := []
  nextFrame : Nat := 0
  /-- Queue station × 8 + class, head first. -/
  queues : Tbl (List QEntry) := []
  /-- The free list: cells from this number on that were never used, then the freed ones, oldest first (R227). -/
  freeNext : Nat := 0
  freed : List Nat := []
  /-- Cells held per ingress port × 8 + class (R230). -/
  held : Tbl Nat := []
  fdb : Tbl FdbEntry := []
  fdbCmd : Option Nat := none
  gates : Tbl GateCtl := []
  streams : Tbl Stream := []
  sgates : Tbl SGate := []
  meters : Tbl Meter := []
  cbs : Tbl Cb := []
  /-- Next transmit ring per ring station (R247). -/
  txTurn : Tbl Nat := []
  deriving DecidableEq, Repr

/-- A chord direction beyond its objects (spec/06). -/
structure Chord where
  /-- ENABLE, EGRESS, GATE and SWITCH_COPY in force (R185). -/
  enable : Bool := false
  egress : Nat := 0
  gate : Nat := 0
  copy : Bool := false
  /-- The active table: entry words and pool (R179). -/
  table : List (List Word) := []
  pool : List Byte := []
  /-- The load in progress and the one held: COUNT and HALF as written. -/
  loading : Option Nat := none
  held : Option Nat := none
  /-- A checked table waits for the next SFD. -/
  ready : Option (List (List Word) × List Byte) := none
  /-- No commit has taken effect since the table last spliced a frame (R184). -/
  spliced : Bool := false
  /-- Captured data of the latest good frame not yet written (R180): frame bytes, time, (offset, bytes). -/
  capture : Option (Nat × Nat × List (Nat × List Byte)) := none
  deriving DecidableEq, Repr

/-- An MDIO master beyond its objects: the frame in progress (R193). -/
structure Mdio where
  op : Nat := 0
  deriving DecidableEq, Repr

/-- A Lattice frame the agent has accepted (R367): its link, source MAC address, header and payload. -/
structure LatFrame where
  port : Nat
  mac : Nat
  typ : Nat
  hop : Nat
  dest : Nat
  source : Nat
  cls : Nat
  resp : Bool
  seq : Nat
  payload : List Byte
  deriving DecidableEq, Repr

/-- What is known of a keeper candidate (R375). -/
structure LatClaim where
  id : Nat
  prio : Nat
  addr : Nat
  seq : Nat
  fresh : Bool
  deriving DecidableEq, Repr

/-- A neighbour as a LINK_REPORT lists it (R378): its index at the sender, port, address, link cost, unique ID. -/
structure LatLink where
  idx : Nat
  port : Nat
  addr : Nat
  cost : Nat
  id : Nat
  deriving DecidableEq, Repr

/-- A request without an answer yet, or an answer kept for repeats (R382): the other device, type, class, sequence, frame,
repeats so far. -/
structure LatReq where
  addr : Nat
  typ : Nat
  cls : Nat
  seq : Nat
  frame : List Byte
  tries : Nat := 0
  deriving DecidableEq, Repr

/-- A set being fetched (R386): its generation, the stage (0 opening a session, 1 proving, 2 fetching), the blocks so far. -/
structure LatFetch where
  gen : Nat
  stage : Nat
  data : List Byte := []
  failed : Bool := false
  deriving DecidableEq, Repr

/-- The Lattice agent beyond its objects (spec/13). -/
structure Lattice where
  /-- The route table in force, by destination address (R380, R381). -/
  routes : Tbl Nat := []
  /-- MAC address of each neighbour (R373), and the keeper, priority and address its latest HELLO names. -/
  nbMac : Tbl Nat := []
  names : Tbl (Nat × Nat × Nat) := []
  claims : List LatClaim := []
  /-- Port, unique ID and rim tick of the HELLOs heard; the next HEARD_ID of each port (R372). -/
  heard : List (Nat × Nat × Nat) := []
  turn : Tbl Nat := []
  /-- Rim tick and payload, HEARD_ID aside, of the latest HELLO sent on each port. -/
  sent : Tbl (Option (Nat × List Byte)) := []
  ownSeq : Nat := 0
  /-- Next SEQUENCE of each flow class; the latest 64 sequences seen of each source (R367, R371). -/
  seqs : Tbl Nat := []
  seen : Tbl (List Nat) := []
  /-- The keeper's table of unique IDs by address, kept in MRAM, and the reports it holds (R379, R380). -/
  addrs : Tbl Nat := []
  reports : Tbl (List LatLink) := []
  /-- Parts of the ROUTE_GEN that is arriving; generation, LATTICE_ID and digest of the latest ROUTE head (R381). -/
  partGen : Nat := 0
  parts : Tbl (List Nat) := []
  head : Option (Nat × Nat × Nat) := none
  /-- The join comparison with the present keeper is still due (R385). -/
  awaitHead : Bool := false
  /-- JOINs relayed: unique ID, port and MAC address (R378). -/
  relays : List (Nat × Nat × Nat) := []
  reqs : List LatReq := []
  answers : List LatReq := []
  /-- The configuration set, kept in MRAM (R383, R384). -/
  set : List Byte := []
  fetch : Option LatFetch := none
  /-- Firmware on offer: length, SHA-256, staging address (R382). -/
  offer : Option (Nat × List Byte × Nat) := none
  got : Option LatFrame := none
  deriving DecidableEq, Repr


/-- A Perimeter frame received whole that waits for its handling: the link it came on, its fields, its payload nibbles,
and its SOF's arrival in quarter nanoseconds of the ring's domain and of the rim (R296, R314). -/
structure PerFrame where
  east : Bool
  slot : Nat
  source : Nat
  typ : Nat
  payload : List Nib
  at' : Nat
  rim : Nat
  deriving DecidableEq, Repr

/-- Link delay measurement of one link (R303). -/
structure Echo where
  waiting : Bool := false
  tries : Nat := 0
  count : Nat := 0
  sum : Nat := 0
  deriving DecidableEq, Repr

/-- A mode change or restore at the head (R343–R345): the mode, the lead, whether it is a restore, the first and the
switch cycle once announced, the members that acknowledged, and the decision. -/
structure ModeChange where
  mode : Nat
  lead : Nat
  restore : Bool
  span : Option (Nat × Nat) := none
  acks : List Nat := []
  confirmed : Bool := false
  deriving DecidableEq, Repr

/-- A Perimeter ring beyond its objects (spec/10, spec/11). Times are quarter nanoseconds. -/
structure Ring where
  /-- Time master; a first reference was sent. -/
  head : Bool := false
  started : Bool := false
  /-- A cold-start attempt: COLDSTART frames sent; consecutive returns. -/
  attempt : Option Nat := none
  returns : Nat := 0
  /-- P and S measured since ENABLE. -/
  haveP : Bool := false
  haveS : Bool := false
  /-- Schedule memory: the valid table of each mode, entries of eight words (R312). -/
  tables : Tbl (List (List Word)) := []
  /-- Slot payloads: 1 being fetched, 2 fetched, 3 failed (R313). -/
  fetch : Tbl (Nat × List Nib) := []
  /-- The committed guardian windows, and that a commit was made since POR (R335, R337). -/
  guard : List (Word × Word) := []
  guardOnce : Bool := false
  guardMaster : Nat := 0
  got : Option PerFrame := none
  /-- Expected arrival of the next reference, and the latest accepted one (R321, R334). -/
  expect : Nat := 0
  haveLast : Bool := false
  lastRing : Nat := 0
  lastArrival : Nat := 0
  anyRef : Bool := false
  /-- REF_TX and REF_RX of the present cycle, the pair its reference came on, and whether there was one (R309, R340). -/
  refTx : Nat := 0
  refRx : Nat := 0
  refEast : Bool := false
  refSeen : Bool := false
  /-- The guardian's start on the rim and the interval of the two latest references there (R335). -/
  guardAt : Nat := 0
  guardSpan : Nat := 0
  missed : Nat := 0
  good : Nat := 0
  hold : Nat := 0
  /-- References a HEALING station still needs before it inserts again (R329). -/
  mute : Nat := 0
  /-- Consecutive own attempts blocked or cut (R335). -/
  blocked : Nat := 0
  /-- A frame being sent that its window will cut: what leaves before the cut, its link, attempts blocked before it. -/
  cutting : Option (List Nib × Bool × Nat) := none
  /-- The pending change the latest reference announced: mode and switch cycle; and that it was confirmed (R344). -/
  announced : Option (Nat × Nat) := none
  agreed : Bool := false
  change : Option ModeChange := none
  /-- A new time master cancels the pending change in its first reference (R345). -/
  cancelFirst : Bool := false
  wrapped : Bool := false
  adopted : Bool := false
  /-- The cut link (true East), its silence, its delay before the break, when its lock came back, and whether its delay
  was measured again (R338, R343). -/
  cut : Option Bool := none
  silent : Bool := false
  cutDelay : Nat := 0
  cutLockAt : Option Nat := none
  remeasured : Bool := false
  /-- East (1) and West (0). -/
  echo : Tbl Echo := []
  /-- The returned MEASURE frames: hops, delay and entries (R306). -/
  measP : Option (Nat × Nat × List Byte) := none
  measS : Option (Nat × Nat × List Byte) := none
  conflict : Bool := false
  /-- The management request is on the ring. -/
  mgmtSent : Bool := false
  /-- Staged table data: pieces (offset, bytes) per table (R319). -/
  staging : Tbl (List (Nat × List Byte)) := []
  deriving DecidableEq, Repr


/-- A PIO block beyond its objects (R432): level and direction registers of its 16 pins, and the inputs as the
synchroniser last gave them. -/
structure Pio where
  level : Half := 0
  dir : Half := 0
  pins : Half := 0
  deriving DecidableEq, Repr

/-- A PIO state machine beyond its objects (R434–R439, R446). -/
structure Sm where
  tw : Word := 0
  txLeft : Nat := 0
  rw : Word := 0
  rxHave : Nat := 0
  txF : List Word := []
  rxF : List Word := []
  /-- The instruction latched at fetch that has not completed. -/
  latched : Option Half := none
  /-- DELAY cycles that are to pass before the next fetch. -/
  delay : Nat := 0
  /-- STATE that the SM has while it is enabled. -/
  st : Nat := 1
  /-- Bits a stalled instruction has taken, and those it has still to deliver. -/
  taken : List Bool := []
  rest : Option (List Bool) := none
  /-- WRAP in force. -/
  wrap : Nat := 0x7F00
  /-- Rim tick at which the divider last restarted. -/
  divAt : Nat := 0
  deriving DecidableEq, Repr

/-- A Locus track beyond its objects (spec/12). -/
structure Track where
  /-- The copied repeat tables of the ACTIVE and STANDBY sets: FIRST, LAST, COUNT. -/
  table : List (Nat × Nat × Nat) := []
  standby : List (Nat × Nat × Nat) := []
  /-- The next cycle, and its instant T(c) in ns. -/
  cycle : Nat := 0
  target : Nat := 0
  /-- The record as it stood when the read began; the record in the buffer. -/
  snap : List Byte := []
  data : Option (List Byte) := none
  /-- What is being written replaces a late record. -/
  late : Bool := false
  slack : Int := 0
  /-- The previous record since enable. -/
  prev : Option (List Byte) := none
  /-- Words still to be pushed into a FIFO. -/
  push : List Word := []
  abortReq : Bool := false
  /-- The last record of the set has been staged. -/
  overrun : Bool := false
  deriving DecidableEq, Repr

/-- The Locus beyond its objects (R360): tracks of the armed swap, those that have not yet swapped, and the tie. -/
structure Locus where
  swapSet : Nat := 0
  swapLeft : Nat := 0
  tied : Bool := false
  deriving DecidableEq, Repr

/-- A CAN frame (R413, R415): identifier with a base identifier in bits 28–18, and the timestamp of its SOF. -/
structure CanFrame where
  id : Nat := 0
  ide : Bool := false
  rtr : Bool := false
  dlc : Nat := 0
  fdf : Bool := false
  brs : Bool := false
  esi : Bool := false
  data : List Byte := []
  time : Nat := 0
  deriving DecidableEq, Repr

/-- A CAN controller beyond its objects (spec/15). -/
structure Can where
  /-- MODE in force, and one that waits for the end of a frame (R422). -/
  mode : Nat := 0
  next : Option Nat := none
  /-- The transmit store of each pending buffer (R419); the buffer on the bus, and that a bit of its frame was inverted (R533). -/
  store : Tbl CanFrame := []
  cur : Option Nat := none
  inject : Bool := false
  /-- Buffers whose abort came while they were on the bus (R421). -/
  aborts : Nat := 0
  /-- Shadows: the frame and its bits 14–8 of word 1; buffers being promoted, and those locked again meanwhile (R417). -/
  shadow : Tbl (CanFrame × Nat) := []
  promo : Nat := 0
  relock : Nat := 0
  /-- A frame accepted and not yet stored: its slot (buffer b, or 64 + k for FIFO k) and bits 14–8 of word 1. -/
  got : Option (CanFrame × Nat × Nat) := none
  /-- Frame count of each slot (R414). -/
  seqs : Tbl Nat := []
  /-- Consecutive acknowledge errors (R424); the bus-off recovery counts (R423). -/
  acks : Nat := 0
  recovering : Bool := false
  deriving DecidableEq, Repr

/-- One entry of a running instance's object table (R403), its LOCATION as a device address. -/
structure InstObj where
  off : Nat
  sub : Nat
  ty : Nat
  acc : Nat
  vol : Bool
  priv : Bool
  loc : Nat
  limit : Nat
  dflt : Nat
  deriving DecidableEq, Repr

/-- A field network instance beyond its objects (spec/14): what it holds while it starts, runs or is faulted, its image's
objects, and of each connection the selector, the latched value and the registers written (R405). -/
structure Inst where
  engines : Nat := 0
  domain : Option Nat := none
  size : Nat := 0
  launches : List Nat := []
  objs : List InstObj := []
  sel : Tbl Nat := []
  latch : Tbl DWord := []
  regs : Tbl Nat := []
  deriving DecidableEq, Repr

/-- Why the block stops. -/
inductive Fault where
  /-- Raised by the access commands for an access no master can issue: not naturally aligned, or longer than a
  burst (R16). Safe: the device never carries it. -/
  | illFormed
  deriving DecidableEq, Repr

/-- Why a command has no meaning here. -/
inductive Refusal where
  /-- Raised by the dispatcher for a command without a meaning yet. Safe: nothing is claimed of it. -/
  | notModelled (mnemonic : String)
  deriving DecidableEq, Repr

/-- The state of the block. -/
structure State where
  /-- Commands waiting, first in, first out. -/
  pending : List Instr := []
  /-- The model's own counter that makes each free value fresh (log entry 5). -/
  freeCtr : Nat := 0
  out : List Out := []
  /-- The Object Dictionary: key index × 256 + subindex; 64-bit objects at their even subindex (R35, R47). -/
  od : Tbl DWord := []
  /-- Bytes of the device address map (R16); Apex's private memories at 2^32 and above (R166). -/
  mem : List Host.Cell := []
  paths : Tbl PathSt := []
  pw : Power := {}
  store : ParamStore := {}
  opts : OptStore := {}
  /-- Engines 0–31 and Apex (32). -/
  eng : Tbl Engine := []
  memc : MemCtl := {}
  mbox : Tbl Mbox := []
  log : Recorder := {}
  sup : Supervision := {}
  host : HostIf := {}
  lib : Library := {}
  dom : Tbl TimeDom := []
  caps : Tbl (List CapEntry) := []
  pps : Tbl Pps := []
  /-- Rim ticks since reset; the model's own clock for ages and token buckets. -/
  ticks : Nat := 0
  ports : Tbl Port := []
  sw : Switch := {}
  chord : Tbl Chord := []
  mdio : Tbl Mdio := []
  lat : Lattice := {}
  launch : Tbl Launch := []
  rings : Tbl Ring := []
  pio : Tbl Pio := []
  sms : Tbl Sm := []
  tracks : Tbl Track := []
  locus : Locus := {}
  can : Tbl Can := []
  insts : Tbl Inst := []
  deriving DecidableEq, Repr

/-- The block right after a power-on reset, before VDD_AON reaches power-good: every object at its default, memory
zeroed, every unit at rest. -/
def State.reset : State := {}

end Sys2Proof.Machine
end

