-- ==== Sys2Proof/Machine/Ops.lean ====
section
/-! DEFINITION. The named operations over the Object Dictionary, memory, counters, events and records that every
meaning is built from. -/

namespace Sys2Proof.Machine

/-- The outcome of a command. -/
abbrev Res := Host.Outcome State Fault Refusal

/-! ### Object Dictionary -/

/-- Key of object `i:j` in the OD table. -/
def odKey (i j : Nat) : Nat := i * 256 + j

/-- Whether a line of an object table covers `i:j`. -/
def OdRow.covers (r : OdRow) (i j : Nat) : Bool :=
  r.idx ≤ i && (i - r.idx) % r.stride == 0 && (i - r.idx) / r.stride < r.count && r.subLo ≤ j && j ≤ r.subHi

/-- The line that describes `i:j`, if the tables have one (R35). -/
def odRow (i j : Nat) : Option OdRow := (odRowsFor i).find? (fun r => r.covers i j)

/-- Bytes of the strings of R52: 0x1008, 0x1009 and 0x100A (R568). -/
def deviceString (k : Nat) : List Byte :=
  let ascii := fun (x : String) => x.toList.map (fun c => BitVec.ofNat 8 c.toNat)
  if k = 0 then ascii "KT-8416"
  else if k = 1 then ascii "B0"
  else
    let v := Config.apexVersion.toNat
    ascii (toString (v / 2 ^ 24) ++ "." ++ toString (fieldOf v 16 8) ++ "." ++ toString (fieldOf v 0 16))

/-- Where string `k` lies: in the part of MRAM that holds nothing the manual places (log entry 33). -/
def stringAddr (k : Nat) : Nat := 0x0839_0000 + k * 0x1_0000 + (Config.stringAt k).val

/-- Objects whose constant value is per device or left open: string descriptors (R39), UNIQUE_ID and SERIAL. -/
def odOpen (k : Nat) : Option DWord :=
  if 0x1008 * 256 ≤ k ∧ k ≤ 0x100A * 256 ∧ k % 256 = 0 then
    let j := k / 256 - 0x1008
    some (BitVec.ofNat 64 (stringAddr j + (deviceString j).length * 2 ^ 32))
  else if k = 0x1018 * 256 + 4 then some (BitVec.ofNat 64 (Config.uniqueId.toNat % 2 ^ 32))
  else if k = 0x2000 * 256 + 8 then some Config.uniqueId
  else none

/-- The default of an object: its table's Default column, and the program counter of Apex's boot ROM (R166). -/
def odDefault (k : Nat) : DWord :=
  if k = 0x10000 * 256 + 5 then 0xC000 else
  match odOpen k with
  | some v => v
  | none =>
    match odRow (k / 256) (k % 256) with
    | some r => BitVec.ofNat 64 r.dflt
    | none => 0

/-- The 64 bits object `i:j` holds. -/
def State.rd (s : State) (i j : Nat) : DWord := tblGet odDefault (odKey i j) s.od

/-- The number object `i:j` holds. -/
def State.n (s : State) (i j : Nat) : Nat := (s.rd i j).toNat

/-- Bit `b` of object `i:j`. -/
def State.bit (s : State) (i j b : Nat) : Bool := bitOf (s.n i j) b

/-- Store a number into object `i:j`. -/
def State.wr (s : State) (i j v : Nat) : State :=
  { s with od := tblSet odDefault (odKey i j) (BitVec.ofNat 64 v) s.od }

/-- Store 64 bits into object `i:j`. -/
def State.wrD (s : State) (i j : Nat) (v : DWord) : State :=
  { s with od := tblSet odDefault (odKey i j) v s.od }

/-- Set the bits of `m` in object `i:j`. -/
def State.setBits (s : State) (i j m : Nat) : State := s.wr i j (s.n i j ||| m)

/-- Clear the bits of `m` in object `i:j`. -/
def State.clrBits (s : State) (i j m : Nat) : State := s.wr i j (s.n i j - (s.n i j &&& m))

/-- Set or clear the bits of `m`. -/
def State.putBits (s : State) (i j m : Nat) (on : Bool) : State :=
  if on then s.setBits i j m else s.clrBits i j m

/-- Set one bit. -/
def State.setBit (s : State) (i j b : Nat) : State := s.setBits i j (2 ^ b)

/-! ### Output and free values -/

/-- Emit. -/
def State.emit (s : State) (o : Out) : State := { s with out := s.out ++ [o] }

/-- A free value of `w` bits, fresh for this state (log entry 5). -/
def State.free (s : State) (w : Nat) : BitVec w := Config.freeValue w s.freeCtr

/-- Advance to the next free value. -/
def State.tick (s : State) : State := { s with freeCtr := s.freeCtr + 1 }

/-! ### Units -/

/-- Engine `c` (0–31) or Apex (32). -/
def State.engine (s : State) (c : Nat) : Engine := tblGet (fun _ => {}) c s.eng

/-- Replace engine `c`. -/
def State.setEngine (s : State) (c : Nat) (e : Engine) : State := { s with eng := tblSet (fun _ => {}) c e s.eng }

/-- Where the STATE, PC, HALT_CAUSE and fault objects of a core lie: 0x2400 + e, and the model's own 0x10000 for
Apex, which has no object of its own (R140, R166). -/
def coreIdx (c : Nat) : Nat := if c < 32 then 0x2400 + c else 0x10000

/-- The channel's state beyond its objects. -/
def State.chan (s : State) (c : Nat) : Mbox := tblGet (fun _ => {}) c s.mbox

/-- Replace a channel's state beyond its objects. -/
def State.setChan (s : State) (c : Nat) (m : Mbox) : State := { s with mbox := tblSet (fun _ => {}) c m s.mbox }

/-- A port's state beyond its objects. -/
def State.port (s : State) (p : Nat) : Port := tblGet (fun _ => {}) p s.ports

/-- Replace a port's state beyond its objects. -/
def State.setPort (s : State) (p : Nat) (x : Port) : State := { s with ports := tblSet (fun _ => {}) p x s.ports }

/-! ### Events and routing (R65–R68) -/

/-- Routing sources: for each entry 0x2F00 + r the event status objects it follows (R66 and the Events sentences of
the object chapters). The event enable object is the next subindex in every table. -/
def routeSources (r : Nat) : List (Nat × Nat) :=
  if r = 0 then [(0x2000, 5)]
  else if r ≤ 4 then [(0x2100 + (r - 1), 0x10)]
  else if r = 5 then [(0x2200, 0xF), (0x22A1, 0x28)]
  else if r ≤ 17 then [(0x2300 + (r - 6), 0x19), (0x2160 + (r - 6), 0x10)]
  else if r ≤ 0x19 then [(0x2440 + (r - 0x12), 0x11), (0x22A2 + (r - 0x12), 0x28)]
  else if r = 0x1A then [(0x2510, 1)]
  else if r ≤ 0x1E then [(0x2600 + (r - 0x1B), 0xF)]
  else if r = 0x1F then [(0x2700, 7)]
  else if r = 0x20 then [(0x2800, 0x10)]
  else if r ≤ 0x24 then [(0x2900 + 16 * (r - 0x21), 0x10)]
  else if r ≤ 0x28 then [(0x2A00 + (r - 0x25), 8)]
  else if r = 0x29 then [(0x2B00, 9)]
  else if r = 0x2A then [(0x2C00, 1)]
  else if r = 0x2B then [(0x2D00, 0xA)]
  else if r = 0x2C then [(0x2E00, 6)]
  else if r = 0x2D then [(0x2F40, 6), (0x22A0, 0x28)]
  else if r = 0x2E then [(0x2006, 6)]
  else []

/-- The routing entry an event status object of index `i` feeds. -/
def routeOf (i : Nat) : Nat :=
  if i = 0x2000 then 0
  else if 0x2100 ≤ i ∧ i ≤ 0x2103 then i - 0x2100 + 1
  else if i = 0x2200 ∨ i = 0x22A1 then 5
  else if 0x2300 ≤ i ∧ i ≤ 0x230B then i - 0x2300 + 6
  else if 0x2160 ≤ i ∧ i ≤ 0x216B then i - 0x2160 + 6
  else if 0x2440 ≤ i ∧ i ≤ 0x2447 then i - 0x2440 + 0x12
  else if 0x22A2 ≤ i ∧ i ≤ 0x22A9 then i - 0x22A2 + 0x12
  else if i = 0x2510 then 0x1A
  else if 0x2600 ≤ i ∧ i ≤ 0x2603 then i - 0x2600 + 0x1B
  else if i = 0x2700 then 0x1F
  else if i = 0x2800 then 0x20
  else if 0x2900 ≤ i ∧ i ≤ 0x2930 then (i - 0x2900) / 16 + 0x21
  else if 0x2A00 ≤ i ∧ i ≤ 0x2A03 then i - 0x2A00 + 0x25
  else if i = 0x2B00 then 0x29
  else if i = 0x2C00 then 0x2A
  else if i = 0x2D00 then 0x2B
  else if i = 0x2E00 then 0x2C
  else if i = 0x2F40 ∨ i = 0x22A0 then 0x2D
  else 0x2E

/-- Whether a source of entry `r` has a set, enabled bit (R65). -/
def State.asserts (s : State) (r : Nat) : Bool :=
  (routeSources r).any (fun (i, j) => s.n i j &&& s.n i (j + 1) ≠ 0)

/-- A message for vector `v`: sent, or kept pending while the vector is masked; nothing happens while MSI-X or bus
mastering is off (R495). -/
def State.msix (s : State) (v : Nat) : State :=
  if s.bit 0x2F40 1 5 && s.bit 0x2F40 1 6 then
    if bitOf s.host.msixMask.toNat v then
      { s with host := { s.host with msixPend := s.host.msixPend ||| BitVec.twoPow 64 v } }
    else s.emit (.msix v)
  else s

/-- Set bit `b` of a core's pending set EVP (R163). -/
def State.evpSet (s : State) (c b : Nat) : State :=
  s.setEngine c { s.engine c with evp := (s.engine c).evp ||| BitVec.twoPow 64 b }

/-- Notify every target that entry `r` enables (R68), counting the notifications (R67). -/
def State.notify (s : State) (r : Nat) : State :=
  let t := s.n (0x2F00 + r) 1
  let k := (if bitOf t 8 then 1 else 0) + (if bitOf t 10 then 1 else 0) + (if bitOf t 11 then 1 else 0)
  let s := if bitOf t 8 then s.msix (fieldOf t 0 6) else s
  let s := if bitOf t 10 then s.evpSet 32 r else s
  let s := if bitOf t 11 then s.evpSet (fieldOf t 16 5) r else s
  s.wr (0x2F00 + r) 3 ((s.n (0x2F00 + r) 3 + k) % 2 ^ 32)

/-- Follow a change of a status or enable object of entry `r`: ASSERTED takes its value, and the targets are notified
when it rises, or after a write to the status object that leaves it at 1 (R68). -/
def State.route (s : State) (r : Nat) (statusWritten : Bool) : State :=
  let was := s.n (0x2F00 + r) 2 ≠ 0
  let now := s.asserts r
  let s := s.wr (0x2F00 + r) 2 (if now then 1 else 0)
  if now && (!was || statusWritten) then s.notify r else s

/-- An event: set the bits of `m` in the event status object `i:j` (R65). -/
def State.event (s : State) (i j m : Nat) : State := (s.setBits i j m).route (routeOf i) false

/-- HOST_INT_N is low while any entry with HOST_INT_EN = 1 is asserted (R68), or while an unmasked doorbell of a
channel whose ROUTE enables it pends (R484). -/
def State.hostIntLow (s : State) : Bool :=
  (List.range 47).any (fun r => s.bit (0x2F00 + r) 1 9 && s.n (0x2F00 + r) 2 ≠ 0) ||
  (List.range 48).any (fun c => s.bit (0x2C10 + c) 5 9 &&
    ((s.chan c).bits.toNat - ((s.chan c).bits.toNat &&& s.n (0x2C10 + c) 0xD)) ≠ 0)

/-! ### Counters (R7, R60–R63) -/

/-- Add to a [W] counter of width `w`. -/
def State.addW (s : State) (i j w k : Nat) : State := s.wr i j ((s.n i j + k) % 2 ^ w)

/-- Count one in a 32-bit [W] counter. -/
def State.cnt (s : State) (i j : Nat) : State := s.addW i j 32 1

/-- Add to a 32-bit [S] counter. -/
def State.cntS (s : State) (i j : Nat) : State := s.wr i j (min (s.n i j + 1) (2 ^ 32 - 1))

/-- Add `k` to an [H] counter of width `w`; the block's HALF_RANGE event is raised when bit w − 1 rises and when the
counter wraps (R61). `ei:ej` is the block's event status object. -/
def State.addH (s : State) (i j w k ei ej : Nat) : State :=
  let a := s.n i j
  let b := a + k
  let s := s.wr i j (b % 2 ^ w)
  if a / 2 ^ (w - 1) ≠ b / 2 ^ (w - 1) then s.event ei ej (2 ^ 31) else s

/-- Count one in a 32-bit [H] counter. -/
def State.cntH (s : State) (i j ei ej : Nat) : State := s.addH i j 32 1 ei ej

/-! ### Memory bytes -/

/-- What an unlisted address holds: 0. Banks, facet stores and engine RAMs are zeroed (R99, R467); Apex's code space
holds what the manual does not give (log entry 6); the strings of R52
lie in MRAM (R568). -/
def memDefault (a : Nat) : Byte :=
  if 0x1_0000_0000 ≤ a ∧ a < 0x1_0004_0000 then
    (Config.apexRom ((a - 0x1_0000_0000) / 4)).extractLsb' (8 * (a % 4)) 8
  else if 0x0839_0000 ≤ a ∧ a < 0x083C_0000 then
    let k := (a - 0x0839_0000) / 0x1_0000
    if stringAddr k ≤ a then (deviceString k).getD (a - stringAddr k) 0 else 0
  else 0

/-- The byte at `a`. -/
def State.byte (s : State) (a : Nat) : Byte := tblGet memDefault a s.mem

/-- Store a byte. -/
def State.setByte (s : State) (a : Nat) (b : Byte) : State := { s with mem := tblSet memDefault a b s.mem }

/-- The `n` bytes from `a` on, lowest address first. -/
def State.bytes (s : State) (a : Nat) : Nat → List Byte
  | 0 => []
  | n + 1 => s.byte a :: s.bytes (a + 1) n

/-- Store bytes from `a` on. -/
def State.setBytes (s : State) (a : Nat) : List Byte → State
  | [] => s
  | b :: bs => (s.setByte a b).setBytes (a + 1) bs

/-- The number little-endian bytes spell (R4). -/
def leNat : List Byte → Nat
  | [] => 0
  | b :: bs => b.toNat + 256 * leNat bs

/-- The `n` little-endian bytes of a number (R4). -/
def leBytes (v : Nat) : Nat → List Byte
  | 0 => []
  | n + 1 => BitVec.ofNat 8 v :: leBytes (v / 256) n

/-- The `n`-byte little-endian number at `a`. -/
def State.le (s : State) (a n : Nat) : Nat := leNat (s.bytes a n)

/-- The 32-bit word at `a`. -/
def State.w32 (s : State) (a : Nat) : Nat := s.le a 4

/-- Store a 32-bit word at `a`. -/
def State.setW32 (s : State) (a v : Nat) : State := s.setBytes a (leBytes v 4)

/-- `n` zero bytes. -/
def zeros (n : Nat) : List Byte := List.replicate n 0

/-- Remove every listed byte in `[lo, hi)`: the range reads as after zeroing. -/
def State.zeroRange (s : State) (lo hi : Nat) : State := { s with mem := tblClear lo hi s.mem }

/-! ### Device state -/

/-- 0x2000:01 (R97). -/
def State.dev (s : State) : Nat := s.n 0x2000 1

/-- Enter a device state, setting STATE_CHANGED when it changes (R97, R98). -/
def State.enter (s : State) (st : Nat) : State :=
  if s.dev = st then s else (s.wr 0x2000 1 st).event 0x2000 5 1

/-- Set 0x1001 [0] GENERIC while any other bit is set (R53). -/
def State.errGeneric (s : State) : State :=
  let v := s.n 0x1001 0 / 2 * 2
  s.wr 0x1001 0 (if v = 0 then 0 else v + 1)

/-- Set or clear a condition bit of 0x1001 (R53). -/
def State.errBit (s : State) (b : Nat) (on : Bool) : State := (s.putBits 0x1001 0 (2 ^ b) on).errGeneric

/-- Drive HOLD_N low; HOLD_ASSERTED when it was high (R73). -/
def State.holdLow (s : State) : State :=
  if s.n 0x2001 1 = 1 then (s.wr 0x2001 1 0).event 0x2000 5 2 else s

/-- Set hold reason bits; HOLD_N goes low (R73). -/
def State.hold (s : State) (m : Nat) : State := (s.setBits 0x2001 2 m).holdLow

/-- Clear hold reason bits; HOLD_N stays as it is until a release (R73). -/
def State.unhold (s : State) (m : Nat) : State := s.clrBits 0x2001 2 m

/-! ### Violations (R18, R50) -/

/-- Count a violation of master `id` in 0x2E20; an ID outside 1–42 has no entry (R51, R20). -/
def State.violate (s : State) (id : Nat) : State :=
  if 1 ≤ id ∧ id ≤ 42 then s.cnt 0x2E20 id else s

/-! ### Event recorder (R513–R518) -/

/-- The whole record's length: 20 bytes and the body, rounded up to a multiple of 4 (R567). -/
def recLen (body : List Byte) : Nat := (20 + body.length + 3) / 4 * 4

/-- BURST and REFILL of a class (R517). -/
def classBurst (c : Nat) : Nat := if c = 4 ∨ c = 8 then 16384 else 32768
def classRefill (c : Nat) : Nat :=
  if c = 1 then 16 else if c = 2 then 8 else if c = 3 then 12 else if c = 4 then 4 else if c = 8 then 2
  else if c = 9 then 4 else 8

/-- The allowance of class `c` now (R517). -/
def State.allowance (s : State) (c : Nat) : Nat :=
  classBurst c + classRefill c * ((s.n 0x2D00 4 - s.log.clearMinutes) / 1440) - tblGet (fun _ => 0) c s.log.classBytes

/-- Show the allowances in 0x2D00:15–1D. -/
def State.showAllowances (s : State) : State :=
  (List.range 9).foldl (fun t k => t.wr 0x2D00 (0x15 + k) (s.allowance (k + 1))) s

/-- Bytes of the queue (R514: 4 KiB). -/
def queueBytes (q : List Rec) : Nat := (q.map (fun r => recLen r.body)).sum

/-- Admit a record: refused and counted when the log is full, when its class's allowance is too small, when it does
not fit in the log (LOG_FULL) or in the queue; else queued with the next SEQUENCE (R514, R517, R518). -/
def State.admitRec (s : State) (r : Rec) : State :=
  let c := r.typ / 256
  let len := recLen r.body
  if s.n 0x2D00 9 = 2 then s.cntS 0x2D00 6
  else if s.allowance c < len then (s.cntS 0x2D00 (0xB + c)).event 0x2D00 0xA 4
  else if 1048512 < s.n 0x2D00 3 + queueBytes s.log.queue + len then
    ((s.wr 0x2D00 9 2).cntS 0x2D00 6).event 0x2D00 0xA 2
  else if 4096 < queueBytes s.log.queue + len then s.cntS 0x2D00 6
  else
    { s with log := { s.log with
        queue := s.log.queue ++ [{ r with seq := s.log.nextSeq }]
        nextSeq := (s.log.nextSeq + 1) % 2 ^ 32
        classBytes := tblSet (fun _ => 0) c (tblGet (fun _ => 0) c s.log.classBytes + len) s.log.classBytes } }.showAllowances

/-- Raise a record of type `typ`. While the log scan runs (STATUS 0) it waits in the queue (R516). -/
def State.record (s : State) (typ : Nat) (body : List Byte) : State :=
  let r : Rec := { typ := typ, body := body, minutes := s.n 0x2D00 4, cycles := s.n 0x2D00 5, seq := 0 }
  if s.n 0x2D00 9 = 0 then
    if 4096 < queueBytes s.log.queue + recLen body then s.cntS 0x2D00 6
    else { s with log := { s.log with queue := s.log.queue ++ [r] } }
  else s.admitRec r

/-- Little-endian fields of a record body: (value, bytes) in order. -/
def body (fs : List (Nat × Nat)) : List Byte := fs.foldl (fun l (v, n) => l ++ leBytes v n) []

end Sys2Proof.Machine
end

