-- ==== Sys2Proof/Machine/TimeOps.lean ====
section
/-! DEFINITION. Time domains: value, increment, the passing of rim ticks, comparisons and stamps (R259–R265). -/

namespace Sys2Proof.Machine

/-- A domain's state beyond its objects. -/
def State.tdom (s : State) (d : Nat) : TimeDom := tblGet (fun _ => {}) d s.dom
def State.setTdom (s : State) (d : Nat) (x : TimeDom) : State := { s with dom := tblSet (fun _ => {}) d x s.dom }

/-- A launch entry beyond its objects. -/
def State.launchOf (s : State) (k : Nat) : Launch := tblGet (fun _ => {}) k s.launch
def State.setLaunch (s : State) (k : Nat) (x : Launch) : State := { s with launch := tblSet (fun _ => {}) k x s.launch }

/-- The stored 96-bit value of a domain, in units of 2^-32 ns (R259). -/
def State.domVal (s : State) (d : Nat) : Nat := s.n (0x2100 + d) 2 * 2 ^ 32 + s.n (0x2100 + d) 4

/-- Store it. -/
def State.setDomVal (s : State) (d v : Nat) : State :=
  (s.wr (0x2100 + d) 2 (v / 2 ^ 32 % 2 ^ 64)).wr (0x2100 + d) 4 (v % 2 ^ 32)

/-- `k` rim ticks of domain `d` (R259, R261): ADJUST_INCREMENT for the ticks an adjustment has left, then INCREMENT. -/
def State.domAdvance (s : State) (d k : Nat) : State :=
  let i := 0x2100 + d
  let a := if (s.tdom d).adjusting then min k (s.n i 0xA) else 0
  let s' := s.setDomVal d ((s.domVal d + a * s.n i 8 + (k - a) * s.n i 6) % 2 ^ 96)
  if a = 0 then s' else s'.wr i 0xA (s.n i 0xA - a)

/-- `k` rim ticks of every domain; without PLL lock the rim stands still until relock (R13, log entry 21). -/
def State.advance (s : State) (k : Nat) : State :=
  if k = 0 then s
  else
    let s := { s with ticks := s.ticks + k }
    if s.pw.pllLocked then (List.range 4).foldl (fun s d => s.domAdvance d k) s else s

/-- The jitter that an armed 0x2E88 adds to every timestamp, comparison and read of domain `d`, in 2^-32 ns (R533). -/
def State.jitterOf (s : State) (d : Nat) : Int :=
  if s.n 0x2E80 1 = 2 && s.bit 0x2E88 1 2 && fieldOf (s.n 0x2E88 1) 0 2 = d then s.sup.jitter * 2 ^ 30 else 0

/-- The value of domain `d` as every read, stamp and comparison sees it. -/
def State.domSeen (s : State) (d : Nat) : Nat := (((s.domVal d : Int) + s.jitterOf d) % 2 ^ 96).toNat

/-- Its nanoseconds, all 64 bits and the low 32. -/
def State.now64 (s : State) (d : Nat) : Nat := s.domSeen d / 2 ^ 32
def State.now32 (s : State) (d : Nat) : Nat := s.now64 d % 2 ^ 32

/-- (int32)(now − target) ≥ 0 (R264). -/
def isDue (now target : Nat) : Bool := !(BitVec.ofNat 32 now - BitVec.ofNat 32 target).msb

/-- The signed distance now − target (R264, R276). -/
def lateness (now target : Nat) : Int := (BitVec.ofNat 32 now - BitVec.ofNat 32 target).toInt

/-- The first target + k × period, k ≥ 1, that is not yet due, and k − 1 (R265). -/
def nextTarget (now target period : Nat) : Nat × Nat :=
  let k := (lateness now target).toNat / period + 1
  ((target + k * period) % 2 ^ 32, k - 1)

/-- A stamp taken at phase 0–7 between ticks: nanoseconds and quarter nanoseconds (R259). -/
def State.stamp (s : State) (d phase : Nat) : Nat × Nat :=
  let v := (s.domSeen d + phase * s.n (0x2100 + d) 6 / 8) % 2 ^ 96
  (v / 2 ^ 32, v / 2 ^ 30 % 4)

/-- A time `ps` picoseconds after the stamp taken `ago` ticks back at phase `phase` (R205, R259), in quarter
nanoseconds of domain `d`. The latency is rounded to the nearest 0.25 ns. -/
def State.stampAt (s : State) (d ago phase : Nat) (ps : Int) : Nat :=
  let inc : Int := s.n (0x2100 + d) 6
  let v : Int := (s.domSeen d : Int) - ago * inc + phase * inc / 8
  (((v / 2 ^ 30) + (ps + 125) / 250) % 2 ^ 66).toNat

end Sys2Proof.Machine
end

