-- ==== Sys2Proof/Machine/Views.lean ====
section
/-! DEFINITION. Readings of units that the checks of the Object Dictionary need as well as the units themselves. -/

namespace Sys2Proof.Machine

/-- Fields of an entry, which is a list of eight words. -/
def entW (e : List Word) (k : Nat) : Nat := (e.getD k 0).toNat

/-- A ring's state beyond its objects. -/
def State.ring (s : State) (n : Nat) : Ring := tblGet (fun _ => {}) n s.rings
def State.setRing (s : State) (n : Nat) (x : Ring) : State := { s with rings := tblSet (fun _ => {}) n x s.rings }
/-- Configuration, status and operation objects of ring `n` (R324, R325, R348). -/
def State.perC (s : State) (n j : Nat) : Nat := s.n (0x2600 + n) j
def State.perS (s : State) (n j : Nat) : Nat := s.n (0x2610 + n) j
def State.perState (s : State) (n : Nat) : Nat := s.perS n 1
def State.perDom (s : State) (n : Nat) : Nat := s.perC n 6
def State.perMode (s : State) (n : Nat) : Nat := s.perS n 0xC
def State.perModeObj (s : State) (n m j : Nat) : Nat := s.n (0x2620 + 8 * n + m) j
/-- The station's number as SOURCE: 0 for a controller (R289). -/
def State.perSelf (s : State) (n : Nat) : Nat := if s.perC n 2 = 0 then 0 else s.perC n 3
/-- One symbol in quarter nanoseconds (R292). -/
def State.perSym (s : State) (n : Nat) : Nat := if s.perC n 5 = 0 then 20 else 80
/-- CYCLE_LENGTH of the active mode. -/
def State.perCycle (s : State) (n : Nat) : Nat := s.perModeObj n (s.perMode n) 3 * 4

/-- Fields of a slot table entry (R310). -/
def slotStart (e : List Word) : Nat := entW e 0
def slotDur (e : List Word) : Nat := fieldOf (entW e 1) 0 16
def slotOwner (e : List Word) : Nat := fieldOf (entW e 1) 16 8
def slotKind (e : List Word) : Nat := fieldOf (entW e 1) 24 3
def slotTx (e : List Word) : Bool := bitOf (entW e 1) 27
def slotRx (e : List Word) : Bool := bitOf (entW e 1) 28
def slotLen (e : List Word) : Nat := fieldOf (entW e 2) 0 12
def slotReadAt (e : List Word) : Nat := fieldOf (entW e 2) 16 12
def slotReadLen (e : List Word) : Nat := fieldOf (entW e 3) 0 12

/-- The table of a mode, and its entry `k`. -/
def State.perTable (s : State) (n m : Nat) : List (List Word) := tblGet (fun _ => []) m (s.ring n).tables
def State.perEntry (s : State) (n k : Nat) : Option (List Word) := (s.perTable n (s.perMode n))[k]?
/-- The mode holds a valid table. -/
def State.perValid (s : State) (n m : Nat) : Bool := s.perModeObj n m 4 = 2

/-- The port's own objects. -/
def State.portN (s : State) (p j : Nat) : Nat := s.n (0x2300 + p) j
/-- A link setting in force (R198), and the frame settings of the receive and the transmit direction. -/
def State.linkCfg (s : State) (p j : Nat) : Nat :=
  (tblGet (fun k => odDefault (odKey (0x2300 + p) k)) j (s.port p).linkCfg).toNat
def State.rxCfg (s : State) (p j : Nat) : Nat :=
  (tblGet (fun k => odDefault (odKey (0x2300 + p) k)) j (s.port p).rxCfg).toNat
def State.txCfg (s : State) (p j : Nat) : Nat :=
  (tblGet (fun k => odDefault (odKey (0x2300 + p) k)) j (s.port p).txCfg).toNat
/-- LINK_UP and SPEED of LINK_STATUS. -/
def State.linkUp (s : State) (p : Nat) : Bool := s.bit (0x2300 + p) 9 0
def State.speedOf (s : State) (p : Nat) : Nat := fieldOf (s.portN p 9) 1 3

/-- The gate unit of port `p`. -/
def State.gate (s : State) (p : Nat) : GateCtl := tblGet (fun _ => {}) p s.sw.gates

/-- Object of trigger `t` of domain `d`. -/
def trigIdx (d t : Nat) : Nat := 0x2110 + 16 * d + t

/-- A Locus track beyond its objects. -/
def State.track (s : State) (t : Nat) : Track := tblGet (fun _ => {}) t s.tracks
def State.setTrack (s : State) (t : Nat) (x : Track) : State := { s with tracks := tblSet (fun _ => {}) t x s.tracks }
/-- Configuration and status objects of track `t` (R364, R365). -/
def State.trkC (s : State) (t j : Nat) : Nat := s.n (0x2710 + t) j
def State.trkS (s : State) (t j : Nat) : Nat := s.n (0x2720 + t) j

/-- The domain's launches, tracks and guardians are suppressed (R266): UNSYNCED, or WAKE_STALE set; in Doze and on the way
to Standby the tracks stop and the launch gates are closed (R102). -/
def State.domHeld (s : State) (d : Nat) : Bool :=
  s.n (0x2100 + d) 5 = 0 || s.bit 0x2001 2 4 || s.dev = 2 || s.dev = 3

/-- An address in a bank, and in a facet store (R16). -/
def inBank (a : Nat) : Bool := a < 0x0600_0000
def inFacetStore (a : Nat) : Bool := 0x0D00_0000 ≤ a && a < 0x0D20_0000
def inBankOrStore (a : Nat) : Bool := inBank a || inFacetStore a

/-- A buffer of `bytes` lies wholly in a bank or in the facet stores. -/
def inStorage (a bytes : Nat) : Bool :=
  bytes = 0 || (inBank a && inBank (a + bytes - 1)) || (inFacetStore a && inFacetStore (a + bytes - 1))

/-- Link rate of a speed code in kbit/s (R215). -/
def rateOf (sp : Nat) : Nat :=
  if sp = 1 then 10000 else if sp = 2 then 100000 else if sp = 3 then 1000000 else if sp = 4 then 2500000
  else if sp = 5 then 5000000 else if sp = 6 then 10000000 else 0

/-- Speed codes an interface supports (R189). -/
def ifaceSpeed (i sp : Nat) : Bool :=
  if i = 1 || i = 2 then sp = 1 || sp = 2
  else if i = 3 then sp = 1 || sp = 2 || sp = 3
  else if i = 4 || i = 5 then sp = 3
  else if i = 6 then sp = 4
  else if i = 7 then sp = 5
  else if i = 8 then sp = 6
  else false

/-- The speed a span interface fixes, and the highest speed of an interface. -/
def ifaceTop (i : Nat) : Nat :=
  if i = 1 || i = 2 then 2 else if i = 3 || i = 4 || i = 5 then 3 else if i = 6 then 4 else if i = 7 then 5
  else if i = 8 then 6 else 0

/-- Set a Locus event. -/
def State.locusEvent (s : State) (b : Nat) : State := s.event 0x2700 7 (2 ^ b)

/-- GUARD in quarter nanoseconds (R295). -/
def State.perGuard (s : State) (n : Nat) : Nat := s.perC n 7 * 4

end Sys2Proof.Machine
end

