-- ==== Sys2Proof/Machine/InstBase.lean ====
section
/-! DEFINITION. Field network instances as other units see them: their control objects, the objects their images declare,
faults, and the chord directions they keep (R397–R404). -/

namespace Sys2Proof.Machine

/-- Base of instance `n`, and its control object's values (R397, R407). -/
def instBase (n : Nat) : Nat := 0x3000 + n * 0x800
def State.instN (s : State) (n j : Nat) : Nat := s.n (instBase n) j
def State.instState (s : State) (n : Nat) : Nat := s.instN n 7

/-- An instance beyond its objects. -/
def State.inst (s : State) (n : Nat) : Inst := tblGet (fun _ => {}) n s.insts
def State.setInst (s : State) (n : Nat) (x : Inst) : State := { s with insts := tblSet (fun _ => {}) n x s.insts }

/-- The instance holds its resources: it starts, runs or is faulted (R398, R400). -/
def State.instHolds (s : State) (n : Nat) : Bool :=
  s.instState n = 1 || s.instState n = 2 || s.instState n = 4

/-- Engines, ports and chord directions of an instance as bit masks. -/
def State.instEngines (s : State) (n : Nat) : Nat := (2 ^ (s.inst n).engines - 1) * 2 ^ s.instN n 2
def State.instDirs (s : State) (n : Nat) : Nat := fieldOf (s.instN n 4) 8 8

/-! ### Image objects (R403, R404) -/

/-- A 64-bit type; a string or DOMAIN. -/
def InstObj.isStr (o : InstObj) : Bool := o.ty = 0x09 || o.ty = 0x0A || o.ty = 0x0F
def InstObj.wide (o : InstObj) : Bool := o.isStr || o.ty = 0x15 || o.ty = 0x1B || o.ty = 0x40
def InstObj.bytes (o : InstObj) : Nat :=
  if o.isStr then o.dflt % 2 ^ 32 else if o.wide then 8
  else if o.ty = 4 ∨ o.ty = 7 then 4 else if o.ty = 3 ∨ o.ty = 6 then 2 else 1

/-- The type of R37 in which the object's slot is checked. -/
def InstObj.odTy (o : InstObj) : OdTy :=
  if o.wide then .u64 else if o.ty = 1 then .bool else if o.ty = 2 then .i8 else if o.ty = 3 then .i16
  else if o.ty = 4 then .i32 else if o.ty = 5 then .u8 else if o.ty = 6 then .u16 else .u32

/-- Its access code; a descriptor is read-only (R39). -/
def InstObj.odAcc (o : InstObj) : OdAcc :=
  if o.isStr then (if o.acc = 3 then .const else .ro)
  else if o.acc = 0 then .ro else if o.acc = 1 then .rw else if o.acc = 2 then .wo else if o.acc = 3 then .const
  else if o.acc = 4 then .rws else .sec

/-- Stored in the parameter store: RW and RWS objects that are not volatile (R54). -/
def InstObj.stored (o : InstObj) : Bool := (o.odAcc = .rw || o.odAcc = .rws) && !o.vol

/-- The value lies within LIMIT: highest unsigned value, or highest magnitude of a signed one (R403). -/
def InstObj.within (o : InstObj) (v : Nat) : Bool :=
  o.limit = 0 ||
  (if o.ty = 2 ∨ o.ty = 3 ∨ o.ty = 4 then decide ((BitVec.ofNat 32 v).toInt.natAbs ≤ o.limit)
   else if o.ty = 0x15 then decide ((BitVec.ofNat 64 v).toInt.natAbs ≤ o.limit)
   else decide (v ≤ o.limit))

/-- The line of R35 that the entry stands for. -/
def InstObj.row (o : InstObj) (i j : Nat) : OdRow :=
  { idx := i, count := 1, stride := 1, subLo := j, subHi := j, ty := o.odTy, acc := o.odAcc, dflt := 0
    mask := 2 ^ 64 - 1, ranges := [], align := 1, kind := if o.stored then .stored else .plain }

/-- The image object at `i:j` of a running or faulted instance. -/
def State.instObj (s : State) (i j : Nat) : Option InstObj :=
  if 0x3000 ≤ i ∧ i < 0x6000 then
    (s.inst ((i - 0x3000) / 0x800)).objs.find? (fun o => !o.priv && o.off = (i - 0x3000) % 0x800 && o.sub = j)
  else none

/-- The PRIVATE entry of instance `n` for a network's index and subindex (R404). -/
def State.privEntry (s : State) (n idx sub : Nat) : Option InstObj :=
  (s.inst n).objs.find? (fun o => o.priv && o.off = idx && o.sub = sub)

/-- The instance whose PRIVATE_VALUE `i:j` is, and the entry PRIVATE_SELECT names (R404). -/
def privInst (i j : Nat) : Option Nat :=
  if 0x3000 ≤ i ∧ i < 0x6000 ∧ (i - 0x3000) % 0x800 = 0 ∧ j = 0xA then some ((i - 0x3000) / 0x800) else none
def State.privSelected (s : State) (n : Nat) : Option InstObj :=
  s.privEntry n (fieldOf (s.instN n 0xC) 0 16) (fieldOf (s.instN n 0xC) 16 8)

/-- The line that describes `i:j`: the tables', or a running image's (R35, R403); PRIVATE_VALUE takes the line of the
selected entry, and without one it has none. -/
def State.rowOf (s : State) (i j : Nat) : Option OdRow :=
  match privInst i j with
  | some n => (s.privSelected n).map (fun o => { o.row i j with ty := .u64 })
  | none =>
    match odRow i j with
    | some r => some r
    | none => (s.instObj i j).map (fun o => o.row i j)

/-- LIMIT of an image object, and the slot type of a PRIVATE entry (R403, R404). -/
def State.instLimit (s : State) (i j v : Nat) : Bool :=
  match privInst i j with
  | some n => (match s.privSelected n with | some o => o.within v && (o.wide || v < 2 ^ 32) | none => false)
  | none => (match s.instObj i j with | some o => o.within v | none => true)

/-! ### Faults (R400) -/

/-- An engine fault or a facet reset in a running instance: STATE 4 and a 0x0403 record, each of its engines once. -/
def State.instFault (s : State) (e : Nat) : State :=
  (List.range 6).foldl (fun s n =>
    if s.instState n = 2 && bitOf (s.instEngines n) e then
      (((s.wr (instBase n) 7 4).event (0x2440 + e / 4) 0x11 (2 ^ (e % 4)))).record 0x0403
        (body [(n, 1), (e, 1), (s.instN n 1, 2)])
    else s) s

/-! ### Chord instances (R398) -/

/-- The instance runs a chord image. -/
def State.instChord (s : State) (n : Nat) : Bool := s.instState n = 2 && s.instDirs n ≠ 0

/-- Its two ports, upstream and downstream. -/
def State.instUp (s : State) (n : Nat) : Nat × Nat :=
  let l := (List.range 8).filter (fun p => bitOf (s.instN n 3) p)
  let a := l.headD 0
  let b := l.getLastD 0
  if Config.upstreamHigh n then (b, a) else (a, b)

/-- The downstream link of port `p` went down: the other direction is disabled, the upstream direction loops back. -/
def State.chordLoss (s : State) (p : Nat) : State :=
  (List.range 6).foldl (fun s n =>
    let (u, d) := s.instUp n
    if s.instChord n && d = p then (s.wr (0x2500 + d) 1 0).wr (0x2500 + u) 2 u else s) s

/-- The downstream link of port `p` is up again. -/
def State.chordBack (s : State) (p : Nat) : State :=
  (List.range 6).foldl (fun s n =>
    let (u, d) := s.instUp n
    if s.instChord n && d = p then (s.wr (0x2500 + u) 2 d).wr (0x2500 + d) 1 1 else s) s

end Sys2Proof.Machine
end

