-- ==== Sys2Proof/Machine/LocusBase.lean ====
section
/-! DEFINITION. Locus swaps: their course and the tie to a Perimeter mode change (R360). -/

namespace Sys2Proof.Machine

/-- KIND and INSTANCE of a track's source, its domain, KIND of its destination (R354, R355). -/
def State.trkKind (s : State) (t : Nat) : Nat := fieldOf (s.trkC t 2) 0 2
def State.trkInst (s : State) (t : Nat) : Nat := fieldOf (s.trkC t 2) 2 4
def State.trkDom (s : State) (t : Nat) : Nat :=
  if s.trkKind t = 0 then s.perDom (s.trkInst t) else if s.trkKind t = 1 then s.txCfg (s.trkInst t) 0x14
  else fieldOf (s.trkC t 2) 8 2
def State.trkDest (s : State) (t : Nat) : Nat := fieldOf (s.trkC t 3) 0 2
def State.trkLen (s : State) (t : Nat) : Nat := s.trkC t 7

/-- The source runs: an instant T of it in ns, and its period (R354). -/
def State.trkSource (s : State) (t : Nat) : Option (Nat × Nat) :=
  let n := s.trkInst t
  if s.trkKind t = 0 then
    (if (s.ring n).refSeen || (s.ring n).haveLast then some ((s.ring n).refTx / 4 % 2 ^ 32, s.perModeObj n (s.perMode n) 3) else none)
  else if s.trkKind t = 1 then
    (let g := s.gate n
     if g.oper.isEmpty || g.cycle = 0 then none else some (g.cycleAt % 2 ^ 32, g.cycle))
  else
    (let i := trigIdx (s.trkDom t) n
     if s.n i 1 = 1 && s.n i 3 ≠ 0 then some (s.n i 6, s.n i 3) else none)

/-- The period in force, which a source has before it runs as well (R357). -/
def State.trkPeriod (s : State) (t : Nat) : Nat :=
  let n := s.trkInst t
  if s.trkKind t = 0 then s.perModeObj n (s.perMode n) 3
  else if s.trkKind t = 1 then (if (s.gate n).oper.isEmpty then s.n (0x2260 + n) 4 else (s.gate n).cycle)
  else s.n (trigIdx (s.trkDom t) n) 3

/-- The mode that cycle `c` of ring `n` uses, from the reference of c − 1 (R345, R355). -/
def State.ringModeAt (s : State) (n c : Nat) : Nat :=
  let r := s.ring n
  match r.announced with
  | some (m, k) =>
    if k = c && (r.agreed || (r.head && r.change.any (fun x => x.confirmed))) then m else s.perMode n
  | none => s.perMode n

/-- The slot entry a PERIMETER track fills in cycle `c` (R355). -/
def State.trkEntry (s : State) (t c : Nat) : Option (List Word) :=
  (s.perTable (s.trkInst t) (s.ringModeAt (s.trkInst t) c))[fieldOf (s.trkC t 3) 8 10]?

/-- The signed value of an INTEGER32 object. -/
def signed32 (v : Nat) : Int := (BitVec.ofNat 32 v).toInt

/-- D(c) − T(c) in ns (R355). -/
def State.trkOff (s : State) (t c : Nat) : Int :=
  if s.trkDest t = 0 then
    match s.trkEntry t c with
    | some e => (slotStart e : Int) - s.perC (s.trkInst t) 0xD - 6
    | none => -(s.perC (s.trkInst t) 0xD : Int) - 6
  else signed32 (s.trkC t 5)

/-- Blocks of 128 bytes of a record; the slow-corner bounds of its read and its write in ns (R357). -/
def State.trkBlocks (s : State) (t : Nat) : Nat := (s.trkLen t + 127) / 128
def State.trkRead (s : State) (t : Nat) : Nat := 200 + 40 * s.trkBlocks t
def State.trkWb (s : State) (t : Nat) : Nat := 100 + 60 * s.trkBlocks t

/-- A repeat table at `a`: FIRST, LAST and COUNT of its `n` entries, or none where an entry breaks R352. -/
def State.repeatTable (s : State) (a len : Nat) : Nat → Option (List (Nat × Nat × Nat))
  | 0 => some []
  | n + 1 =>
    match s.repeatTable a len n with
    | none => none
    | some l =>
      let w := fun k => s.w32 (a + 16 * n + 4 * k)
      if w 0 < 2 ^ 24 && w 1 < 2 ^ 24 && 1 ≤ w 2 && w 2 < 2 ^ 16 && w 3 = 0 && w 0 ≤ w 1 && w 1 < len then
        some (l ++ [(w 0, w 1, w 2)]) else none

/-- The repeat table of the set whose objects begin at sub `o`; empty for ADVANCE 0 and 1. -/
def State.setTable (s : State) (t o : Nat) : Option (List (Nat × Nat × Nat)) :=
  if s.trkC t (o + 3) < 2 then some []
  else if 1 ≤ s.trkC t (o + 5) ∧ s.trkC t (o + 5) ≤ 256 then s.repeatTable (s.trkC t (o + 4)) (s.trkC t (o + 2)) (s.trkC t (o + 5))
  else none

/-- The pattern store's first byte and the byte after its last (R350). -/
def State.patternLo (s : State) : Nat := fieldOf (s.n 0x2700 1) 0 7 * 0x10_0000
def State.patternHi (s : State) : Nat := s.patternLo + fieldOf (s.n 0x2700 1) 8 7 * 0x10_0000

/-- A set that meets R351 and R352, its records within the store. -/
def State.setOk (s : State) (t o : Nat) : Bool :=
  let b := s.trkC t o
  let stride := s.trkC t (o + 1)
  let len := s.trkC t (o + 2)
  b % 8 = 0 && stride % 8 = 0 && s.trkLen t ≤ stride && 1 ≤ len && s.patternLo ≤ b &&
  b + (len - 1) * stride + s.trkLen t ≤ s.patternHi && (s.setTable t o).isSome

/-- First byte and length of a track's destination in memory; a PIO destination has none (R355). -/
def State.trkRange (s : State) (t : Nat) : Nat × Nat :=
  let d := s.trkDest t
  if d = 0 then
    match s.trkEntry t (s.perS (s.trkInst t) 0xB) with
    | some e => (entW e 4 + s.trkC t 4, s.trkLen t)
    | none => (0, 0)
  else if d = 2 then (0, 0)
  else (s.trkC t 4, s.trkLen t + (if d = 3 then 16 else 0))

def rangesMeet (a b : Nat × Nat) : Bool := a.2 ≠ 0 && b.2 ≠ 0 && a.1 < b.1 + b.2 && b.1 < a.1 + a.2

/-- A write of ENABLE = 1 that R350–R357, R444 and R460 allow. -/
def State.trackOk (s : State) (t : Nat) : Bool :=
  let d := s.trkDest t
  let off := s.trkOff t (s.perS (s.trkInst t) 0xB)
  s.setOk t 9 &&
  (d ≠ 0 || (s.trkKind t = 0 && signed32 (s.trkC t 5) = 0)) &&
  (s.trkKind t ≠ 0 || s.trkInst t < 4) && (s.trkKind t ≠ 1 || s.trkInst t < 12) &&
  (s.trkKind t ≠ 2 || s.trkPeriod t ≠ 0) &&
  decide ((s.trkC t 6 : Int) - off < s.trkPeriod t - 2000) &&
  s.trkRead t + s.trkWb t ≤ s.trkC t 6 - 6 &&
  (d ≠ 3 || s.trkC t 4 % 16 = 0) &&
  (List.range 16).all (fun u => u = t || s.trkC u 1 = 0 || !rangesMeet (s.trkRange t) (s.trkRange u)) &&
  (List.range 96).all (fun b => !(s.patternLo ≤ b * 0x10_0000 && b * 0x10_0000 < s.patternHi) ||
    fieldOf (s.n (0x2B10 + b / 8) (0x11 + b % 8)) 0 2 = 0)

/-- A track stages nothing (R361). -/
def State.trkHeld (s : State) (t : Nat) : Bool :=
  s.domHeld (s.trkDom t) || s.dev = 5 ||
  (s.trkKind t = 0 && s.perState (s.trkInst t) ≠ 3 && s.perState (s.trkInst t) ≠ 5)

/-- Tracks of SWAP_MASK. -/
def State.swapTracks (s : State) : List Nat := (List.range 16).filter (fun t => bitOf (s.n 0x2700 2) t)

/-- The source's current cycle: the ring's, or the one before the track's next (R360). -/
def State.trkNow (s : State) (t : Nat) : Nat :=
  if s.trkKind t = 0 then s.perS (s.trkInst t) 0xB else ((s.track t).cycle + 2 ^ 32 - 1) % 2 ^ 32

/-- An arm that R360 allows. -/
def State.swapOk (s : State) (v : Nat) : Bool :=
  match s.swapTracks with
  | [] => false
  | t :: ts =>
    s.n 0x2700 5 ≠ 1 && (t :: ts).all (fun u => s.trkC u 1 = 1 && s.trkC u 2 = s.trkC t 2 && s.setOk u 0xF) &&
    decide (2 ≤ signed32 (s.n 0x2700 3 + 2 ^ 32 - s.trkNow t)) && (v ≠ 3 || s.trkKind t = 0)

/-- The armed swap ends as cancelled. -/
def State.swapCancel (s : State) : State :=
  ({ s with locus := {} }.wr 0x2700 5 3).locusEvent 17

/-- A track leaves the armed swap; it is done when no track is left. -/
def State.swapLeave (s : State) (t : Nat) : State :=
  let left := s.locus.swapLeft - (s.locus.swapLeft &&& 2 ^ t)
  if s.n 0x2700 5 ≠ 1 || left = s.locus.swapLeft then s
  else
    let s := { s with locus := { s.locus with swapLeft := left } }
    if left = 0 then (({ s with locus := {} }.wr 0x2700 5 2).cnt 0x2700 6).locusEvent 16 else s

/-- A tied swap is cancelled with the mode change of ring `n` (R360, R345). -/
def State.swapUntie (s : State) (n : Nat) : State :=
  let tracks := (List.range 16).filter (fun t => bitOf s.locus.swapSet t)
  if s.n 0x2700 5 = 1 && s.locus.tied && tracks.any (fun t => fieldOf (s.trkC t 2) 2 4 = n) then s.swapCancel else s

end Sys2Proof.Machine
end

