-- ==== Sys2Proof/Machine/OdAccess.lean ====
section
/-! DEFINITION. The Object Dictionary server's checks: which objects exist, which accesses a path may make, which
values an object accepts (spec/02 R35–R50, and the sentences of each object chapter that call a write out of range). -/

namespace Sys2Proof.Machine

/-- Whether 0x2000:01 restricts the OD to the recovery objects: in RECOVERY, and during host load (R43, R506). -/
def State.narrowed (s : State) : Bool :=
  s.dev = 4 || (1 ≤ s.n 0x2F42 3 && s.n 0x2F42 3 ≤ 3)

/-- The indexes that remain in RECOVERY (R43). -/
def recoveryIndex (i : Nat) : Bool :=
  i = 0x1000 || i = 0x1001 || i = 0x1008 || i = 0x1009 || i = 0x100A || i = 0x1018 || i = 0x2000 || i = 0x2002 ||
  i = 0x2003 || i = 0x2D00 || i = 0x2D01 || i = 0x2E20 || (0x2480 ≤ i && i ≤ 0x24A0) || i = 0x2F50 ||
  (0x2F58 ≤ i && i ≤ 0x2F5F) || (0x2C3C ≤ i && i ≤ 0x2C3F) || i = 0x2F42

/-- Type check of R37 on a slot value (64 bits for two-slot types). -/
def typeOk (ty : OdTy) (v : Nat) : Bool :=
  match ty with
  | .bool => v < 2
  | .u8 => v < 2 ^ 8
  | .u16 => v < 2 ^ 16
  | .u32 | .i32 => v < 2 ^ 32
  | .i8 => v < 2 ^ 7 || (2 ^ 32 - 2 ^ 7 ≤ v && v < 2 ^ 32)
  | .i16 => v < 2 ^ 15 || (2 ^ 32 - 2 ^ 15 ≤ v && v < 2 ^ 32)
  | .u64 => true

/-- The signed number a 32-bit slot holds. -/
def sint (v : Nat) : Int := (BitVec.ofNat 32 v).toInt

/-- One stated range (R38). -/
def rangeOk (v : Nat) : OdRange → Bool
  | .whole lo hi => lo ≤ v && v ≤ hi
  | .field l w lo hi => lo ≤ fieldOf v l w && fieldOf v l w ≤ hi
  | .signed lo hi => decide (lo ≤ sint v) && decide (sint v ≤ hi)
  | .zeroOr lo hi => v = 0 || (lo ≤ v && v ≤ hi)
  | .orVal lo hi alt => (lo ≤ v && v ≤ hi) || v = alt
  | .zeroOr3 l w => fieldOf v l w = 0 || 3 ≤ fieldOf v l w

/-- The value is accepted by the type, the bit-field map, the ranges and the alignment of the object's line (R38). -/
def OdRow.accepts (r : OdRow) (v : Nat) : Bool :=
  typeOk r.ty v && (v &&& r.mask = v || r.ty = .i8 || r.ty = .i16 || r.ty = .i32) && r.ranges.all (rangeOk v) && v % r.align = 0

/-- Bits of a value outside an object's map: EVENT_STATUS and other write-1-to-clear objects accept only named bits
(R38). -/
def isEventStatus (i j : Nat) : Bool := (routeSources (routeOf i)).contains (i, j)

/-- Whether the process data entry `e` of 0x24C0 covers index `i` (R139). -/
def State.procEntry (s : State) (i : Nat) : Option Nat :=
  (List.range 64).find? (fun e => s.n (0x24C0 + e) 1 ≠ 0 && s.n (0x24C0 + e) 1 ≤ i && i ≤ s.n (0x24C0 + e) 2)

/-- Byte offset of process data object `i:j` within its image, or none where it does not exist (R139). -/
def State.procOffset (s : State) (i j : Nat) : Option (Nat × Nat) :=
  match s.procEntry i with
  | none => none
  | some e =>
    let off := (i - s.n (0x24C0 + e) 1) * 256 + (j - 1) * 4
    if 1 ≤ j ∧ j ≤ 0x40 ∧ off < s.w32 (s.n (0x24C0 + e) 3 + 4) then some (e, off) else none

/-- Whether object `i:j` exists now (R35, R43, R90, R139, R508). -/
def State.odExists (s : State) (i j : Nat) : Bool :=
  if s.dev = 6 then i = 0x2000 && j = 1
  else if s.narrowed && !recoveryIndex i then false
  else if i = 0x2F42 && (j = 1 || j = 2) then s.n 0x2F42 3 = 1 || s.n 0x2F42 3 = 3
  else if 0x6000 ≤ i && i < 0xA000 then
    (j = 0 && (s.procEntry i).isSome) || (s.procOffset i j).isSome
  else (s.rowOf i j).isSome

/-- The channel whose control object index `i` is (R490). -/
def chanOf (i : Nat) : Option Nat := if 0x2C10 ≤ i ∧ i ≤ 0x2C3F then some (i - 0x2C10) else none

/-- Whether a path may address channel `c` at all: secure channels follow SEC, but for the gated session channels of
R483 (R476). -/
def State.chanReach (s : State) (p : Path) (c : Nat) : Bool :=
  c < 32 || p.secure ||
  (44 ≤ c && s.bit (0x2C10 + c) 4 1 && (p.id.val = 34 || p.id.val = 35) && s.bit (0x2C10 + c) 2 p.id.val)

/-- RECEIVER or a member of SENDERS (R477). -/
def State.chanParty (s : State) (p : Path) (c : Nat) : Bool :=
  s.n (0x2C10 + c) 1 ≠ 0 && (s.n (0x2C10 + c) 1 = p.id.val || s.bit (0x2C10 + c) 2 p.id.val)

/-- A gated host path may only take the lock, write the area and post (R483). -/
def State.chanGated (s : State) (p : Path) (c : Nat) : Bool :=
  32 ≤ c && !p.secure && s.chanReach p c

/-- The path is the channel's RECEIVER (R477). -/
def State.chanReceiver (s : State) (p : Path) (c : Nat) : Bool :=
  s.n (0x2C10 + c) 1 ≠ 0 && s.n (0x2C10 + c) 1 = p.id.val

/-- Reading a channel object: R476, R477 and R483. -/
def State.chanReadOk (s : State) (p : Path) (c j : Nat) : Bool :=
  s.chanReach p c &&
  (if s.chanGated p c then j = 6 && s.chanParty p c
   else if j = 6 then s.chanParty p c
   else if j = 0xC then s.chanReceiver p c
   else true)

/-- No key is ENABLED (R505). -/
def State.noKeys (s : State) : Bool := (List.range 8).all (fun k => s.n (0x2F58 + k) 0x11 = 0)

/-- A read that R40, R41 and R43 allow. -/
def State.readOk (s : State) (p : Path) (i j : Nat) : Bool :=
  s.odExists i j &&
  match chanOf i with
  | some c => s.chanReadOk p c j
  | none =>
    match s.rowOf i j with
    | some r => (match r.acc with | .wo => false | .sec => p.secure | _ => true)
    | none => true

/-- The access code lets the path write (R40, R41), with the exception of R505. -/
def State.codeOk (s : State) (p : Path) (i : Nat) (r : OdRow) : Bool :=
  match r.acc with
  | .rw | .wo => true
  | .rws => p.secure
  | .sec => p.secure || (0x2F58 ≤ i && i ≤ 0x2F5F && (p.id.val = 34 || p.id.val = 35) && s.noKeys)
  | .ro | .const => false

/-- Whether bank `b` lies in the switch partition or in the pattern store (R456, R225, R350). -/
def State.inSwitch (s : State) (b : Nat) : Bool :=
  fieldOf (s.n 0x2200 2) 0 7 ≤ b && b < fieldOf (s.n 0x2200 2) 0 7 + fieldOf (s.n 0x2200 2) 8 6
def State.inPattern (s : State) (b : Nat) : Bool :=
  fieldOf (s.n 0x2700 1) 0 7 ≤ b && b < fieldOf (s.n 0x2700 1) 0 7 + fieldOf (s.n 0x2700 1) 8 7

/-- Some Locus track is enabled. -/
def State.trackOn (s : State) : Bool := (List.range 16).any (fun t => s.n (0x2710 + t) 1 = 1)

/-- State of bank `b`: 0 ON, 1 RETENTION, 2 OFF (R474). -/
def State.bankState (s : State) (b : Nat) : Nat := fieldOf (s.n (0x2B10 + b / 8) (0x11 + b % 8)) 0 2

/-- The bank is ON and serves accesses. -/
def State.bankOn (s : State) (b : Nat) : Bool := s.bankState b = 0

/-! ### Feeders and drains (R444) -/

/-- A running DMA channel moves words from (or to) the FIFOs of SM `m`. -/
def State.pioServed (s : State) (m : Nat) (rx : Bool) : Bool :=
  (List.range 64).any (fun k => s.n (0x2A90 + k) 5 = 1 && fieldOf (s.n (0x2A90 + k) 1) 8 5 = m && s.bit (0x2A90 + k) 1 1 = rx)

/-- An enabled Locus track feeds SM `m`. -/
def State.locusFeeds (s : State) (m : Nat) : Bool :=
  (List.range 16).any (fun t => s.n (0x2710 + t) 1 = 1 && fieldOf (s.n (0x2710 + t) 3) 0 2 = 2 &&
    fieldOf (s.n (0x2710 + t) 3) 8 5 = m)

/-- A channel drains the RX FIFO; a channel or a track feeds the TX FIFO. -/
def State.pioDrained (s : State) (m : Nat) : Bool := s.pioServed m true
def State.pioFed (s : State) (m : Nat) : Bool := s.pioServed m false || s.locusFeeds m

/-- Writes out of range in spec/03: START_OK accepts only Apex's own write at step 10 (R94). -/
def State.condPower (s : State) (p : Path) (i j v : Nat) : Bool :=
  if i = 0x2002 && j = 2 then p.id.val = 33 && v = 1 && s.pw.starting && s.n 0x2000 2 = 9 else true

/-- Writes out of range in spec/04 (R140–R144). -/
def State.condEngine (s : State) (i j v : Nat) : Bool :=
  if 0x2400 ≤ i ∧ i ≤ 0x241F ∧ j = 5 then (s.n i 1 = 0 || s.n i 1 = 3) && v < 8192
  else if i = 0x2480 ∧ j = 3 then inBankOrStore v
  else if i = 0x2480 ∧ j = 5 then s.n 0x2480 7 ≠ 1
  else if 0x24C0 ≤ i ∧ i ≤ 0x24FF ∧ j ≤ 3 then
    let first := if j = 1 then v else s.n i 1
    let last := if j = 2 then v else s.n i 2
    let free := (List.range 64).all (fun e =>
      0x24C0 + e = i || s.n (0x24C0 + e) 1 = 0 || first = 0 || last < s.n (0x24C0 + e) 1 || s.n (0x24C0 + e) 2 < first)
    if j = 1 then (v = 0 || (0x6000 ≤ v && v ≤ 0x9FFF)) && free
    else if j = 2 then (s.n i 1 ≤ v && v ≤ 0x9FFF || v = 0) && free
    else inBankOrStore v
  else true

/-- Writes out of range in spec/17: R460. -/
def State.condBank (s : State) (i j v : Nat) : Bool :=
  if 0x2B10 ≤ i ∧ i ≤ 0x2B1B ∧ 1 ≤ j ∧ j ≤ 8 then
    let b := (i - 0x2B10) * 8 + (j - 1)
    fieldOf v 0 2 = 0 || (!(s.inSwitch b && s.n 0x2200 1 = 1) && !(s.inPattern b && s.trackOn))
  else true

/-- Writes out of range or not allowed in spec/18 (R477, R480, R483, R490). -/
def State.condMbox (s : State) (p : Path) (i j v : Nat) : Bool :=
  match chanOf i with
  | none => true
  | some c =>
    s.chanReach p c &&
    (if 1 ≤ j ∧ j ≤ 5 then
       !s.chanGated p c && s.n i 7 = 0 && s.n i 0xA = 0 &&
       (if j = 4 then !bitOf v 1 || (44 ≤ c && s.n i 1 = 33) else true)
     else if j = 6 then v = 0 && s.n i 7 = p.id.val && s.n i 7 ≠ 0
     else if j = 8 then
       s.n i 7 = p.id.val && s.n i 7 ≠ 0 && s.n i 1 ≠ 0 && v % 2 ^ 32 ≠ 0 && fieldOf v 32 11 ≤ 1024 &&
       (s.n i 0xA ≠ 2 || fieldOf v 32 11 = 0)
     else if j = 0xC ∨ j = 0xD then !s.chanGated p c && s.chanReceiver p c
     else true)

/-- Writes out of range in spec/19 (R492, R508, R509). -/
def State.condHost (s : State) (i j v : Nat) : Bool :=
  if i = 0x2F42 ∧ j = 2 then v = 1
  else if 0x2F48 ≤ i ∧ i ≤ 0x2F4F ∧ j = 1 then
    inBank (v / 256 * 256) && (!(s.bit i 1 4) || (fieldOf v 0 4 = fieldOf (s.n i 1) 0 4 && v / 256 = s.n i 1 / 256))
  else true

/-- Writes out of range in spec/21 (R530, R537). -/
def State.condSup (s : State) (i j v : Nat) : Bool :=
  if 0x2E81 ≤ i ∧ i ≤ 0x2E88 then s.n 0x2E80 1 = 0 && (i ≠ 0x2E85 || j ≠ 1 || inBank v) else true

end Sys2Proof.Machine
end

