-- ==== Sys2Proof/Machine/OdCondUnits.lean ====
section
/-! DEFINITION. The sentences of each object chapter that call a write out of range in the present state, for ports, the
switch, time, launches, rings, the Locus, PIO, the Lattice, field networks and CAN (R38). -/

namespace Sys2Proof.Machine

/-- Source of a receive lane and destination of a transmit lane as the OD holds them (R141). -/
def State.laneRx (s : State) (e : Nat) : Nat := fieldOf (s.n (0x2440 + e / 4) (1 + e % 4)) 0 5
def State.laneTx (s : State) (e : Nat) : Nat := fieldOf (s.n (0x2440 + e / 4) (5 + e % 4)) 0 5
def engineList : List Nat := List.range 32

/-- Lane bindings (R116, R117, R170). -/
def State.condLane (s : State) (i j v : Nat) : Bool :=
  if 0x2440 ≤ i ∧ i ≤ 0x2447 ∧ 1 ≤ j ∧ j ≤ 8 then
    let f := i - 0x2440
    let e := 4 * f + (j - 1) % 4
    let b := fieldOf v 0 5
    let port := b = 0 || (b ≤ 12 && s.n (0x2300 + (b - 1)) 2 < 7 &&
      engineList.all (fun x => x / 4 = f || (s.laneRx x ≠ b && s.laneTx x ≠ b)))
    if j ≤ 4 then
      if b ≤ 12 then port
      else 16 ≤ b && b ≤ 19 && b - 16 ≠ j - 1 && s.laneTx (4 * f + (b - 16)) = 0 &&
        engineList.all (fun x => x = e || x / 4 ≠ f || s.laneRx x ≠ b)
    else
      b ≤ 12 && port && engineList.all (fun x => x = e || b = 0 || s.laneTx x ≠ b) &&
      (b = 0 || (List.range 8).all (fun d => !(s.n (0x2500 + d) 1 = 1 && s.n (0x2500 + d) 2 = b - 1))) &&
      (b = 0 || engineList.all (fun x => x / 4 ≠ f || s.laneRx x ≠ 16 + (j - 5)))
  else true

/-- A VDDIO class that suits an interface of a field port: MII and RMII 2.5 or 3.3 V, RGMII 1.8 or 2.5 V (R189, R542). -/
def State.ifaceClassOk (s : State) (p v : Nat) : Bool :=
  let c := tblGet (fun _ => 0) (p / 4) s.pw.vddioClass
  if v = 3 then c = 1 || c = 2 else c = 2 || c = 3

/-- Ports (R189, R193, R196, R197, R207, R209, R215). -/
def State.condPort (s : State) (i j v : Nat) : Bool :=
  if 0x2300 ≤ i ∧ i ≤ 0x230B then
    let p := i - 0x2300
    let span := 8 ≤ p
    let mode := fun (iface sc : Nat) =>
      let src := fieldOf sc 4 2
      if span then src = 0 || (src = 2 && iface ≠ 7 && iface ≠ 8)
      else src ≠ 3 && !(src = 2 && (iface = 1 || iface = 2))
    if j = 2 then
      (v = 0 || (if span then 4 ≤ v && v ≤ 8 else v ≤ 3 && s.ifaceClassOk p v)) && mode v (s.n i 3) &&
      !((v = 7 || v = 8) && engineList.any (fun e => s.laneRx e = p + 1 || s.laneTx e = p + 1))
    else if j = 3 then mode (s.n i 2) v && (span || fieldOf v 4 2 ≠ 0 || fieldOf v 0 3 ≠ 0)
    else if j = 5 ∨ j = 6 then !span || v = 0
    else if j = 7 ∨ j = 8 then span || v = 0
    else if j = 0xE then s.n i 0xF < v
    else if j = 0xF then v < s.n i 0xE
    else if j = 0x17 then inStorage v 256
    else true
  else if (i = 0x2330 ∨ i = 0x2331) ∧ j = 2 then !s.bit i 3 0 && 1 ≤ fieldOf v 0 3 && fieldOf v 0 3 ≤ 6
  else true

/-- Chord directions (R169–R171, R174, R187, R366). -/
def State.condChord (s : State) (i j v : Nat) : Bool :=
  if 0x2500 ≤ i ∧ i ≤ 0x250F then
    let d := i - 0x2500
    let egressOk := fun e => e < 8 && !s.bit 0x2800 3 e &&
      (List.range 8).all (fun x => x = d || s.n (0x2500 + x) 1 = 0 || s.n (0x2500 + x) 2 ≠ e)
    if j = 1 then d < 8 && (v = 0 || (s.n (0x2300 + d) 2 = 3 && s.n (0x2300 + s.n i 2) 2 = 3 && egressOk (s.n i 2)))
    else if j = 2 then d < 8 && v < 8 && (s.n i 1 = 0 || egressOk v)
    else if j = 5 then v + 0x2000 ≤ 0x4_0000
    else if j = 6 then v + 0x1000 ≤ 0x4_0000 && (v + 0x1000 ≤ s.n i 5 || s.n i 5 + 0x2000 ≤ v)
    else true
  else true

/-- The switch partition and the pattern store, given as their objects' values, share no bank (R350). -/
def regionsApart (part pat : Nat) : Bool :=
  fieldOf pat 0 7 + fieldOf pat 8 7 ≤ fieldOf part 0 7 || fieldOf part 0 7 + fieldOf part 8 6 ≤ fieldOf pat 0 7 || fieldOf pat 8 7 = 0

/-- Σ RESERVED with queue `i:j` at `v` (R229). -/
def State.reservedSum (s : State) (i j v : Nat) : Nat :=
  ((List.range 22).map (fun t => ((List.range 8).map (fun c =>
    fieldOf (if 0x2210 + t = i ∧ c + 1 = j then v else s.n (0x2210 + t) (c + 1)) 0 16)).sum)).sum

/-- The switch core (R225, R229, R230, R232, R241, R258, R460). -/
def State.condSwitch (s : State) (i j v : Nat) : Bool :=
  if i = 0x2200 ∧ j = 1 then v = 0 || (List.range 96).all (fun b => !s.inSwitch b || s.bankOn b)
  else if i = 0x2200 ∧ j = 2 then
    let f := fieldOf v 0 7
    let k := fieldOf v 8 6
    s.n i 1 = 0 && (k = 8 || k = 16 || k = 24 || k = 32) && f % 8 = 0 && f + k ≤ 96 && regionsApart v (s.n 0x2700 1)
  else if 0x2210 ≤ i ∧ i ≤ 0x2225 ∧ 1 ≤ j ∧ j ≤ 8 then
    fieldOf v 16 2 ≤ 2 && (i < 0x221C || fieldOf v 16 2 = 0) && fieldOf v 0 16 ≤ 8192 &&
    s.reservedSum i j v ≤ fieldOf (s.n 0x2200 2) 8 6 * 8192 / 2
  else if 0x2250 ≤ i ∧ i ≤ 0x225B ∧ j = 5 then s.n i 6 < v
  else if 0x2250 ≤ i ∧ i ≤ 0x225B ∧ j = 6 then v < s.n i 5
  else if 0x2270 ≤ i ∧ i ≤ 0x227B ∧ 1 ≤ j ∧ j ≤ 8 then
    let p := i - 0x2270
    ((List.range 8).map (fun c => if c + 1 = j then v else s.n i (c + 1))).sum ≤
      (if s.linkUp p then rateOf (s.speedOf p) else 10000000)
  else if 0x22A0 ≤ i ∧ i ≤ 0x22A9 ∧ ((1 ≤ j ∧ j ≤ 8) ∨ (0x19 ≤ j ∧ j ≤ 0x1C)) then
    let o := s.n i j
    fieldOf v 0 4 ≤ 8 && inBankOrStore (v / 256 * 256) && (!bitOf o 4 || (fieldOf v 0 4 = fieldOf o 0 4 && v / 256 = o / 256))
  else true

/-- Time domains and launches (R267, R272, R279, R287). -/
def State.condTime (s : State) (i j v : Nat) : Bool :=
  if 0x2100 ≤ i ∧ i ≤ 0x2103 ∧ (j = 5 ∨ j = 6 ∨ j = 0xA ∨ j = 0xE) then s.n i 1 = 0
  else if 0x2158 ≤ i ∧ i ≤ 0x215B ∧ j = 5 then 2 ≤ v && v + 2 ≤ s.n i 4
  else if 0x2180 ≤ i ∧ i ≤ 0x21BF then
    let on := s.bit i 1 0
    if j = 1 then
      if !bitOf v 0 then true
      else
        let p := fieldOf v 8 4
        let len := s.n i 3
        let rate := if s.linkUp p then rateOf (s.speedOf p) else rateOf (ifaceTop (s.portN p 2))
        !on && p ≤ 11 && s.n i 2 % 8 = 0 && inStorage (s.n i 2) len && inBankOrStore (s.n i 2) && 60 ≤ len &&
        len + 4 ≤ s.portN p 0xC && (s.n i 5 = 0 || rate = 0 || (24 + max len 60) * 8000000 ≤ s.n i 5 * rate)
    else if 2 ≤ j ∧ j ≤ 6 then !on
    else if j = 8 then v = 1
    else true
  else true

/-- A mode change is pending on ring `n`; mode `m` is active or pending (R312, R343, R344). -/
def State.ringPends (s : State) (n : Nat) : Bool := (s.ring n).change.isSome || (s.ring n).announced.isSome
def State.modeBusy (s : State) (n m : Nat) : Bool :=
  (s.perC n 1 = 1 && s.perMode n = m) || (s.ring n).change.any (fun x => x.mode = m) ||
  (s.ring n).announced.any (fun x => x.1 = m)

/-- Perimeter rings (R312, R322, R324, R327, R337, R348). -/
def State.condRing (s : State) (p : Path) (i j v : Nat) : Bool :=
  if 0x2600 ≤ i ∧ i ≤ 0x2603 then
    let n := i - 0x2600
    if j = 1 then
      v = 0 || (!(s.perC n 2 = 0 && s.perC n 3 ≠ 0) && ((s.perC n 2 = 0 && s.perC n 4 = 0) || s.n (0x2100 + s.perDom n) 1 = n + 1) &&
        8 * s.perSym n ≤ s.perGuard n && (s.perC n 2 = 1 || s.perValid n (s.perC n 8)))
    else if 2 ≤ j ∧ j ≤ 0xD then s.perC n 1 = 0
    else true
  else if 0x2620 ≤ i ∧ i ≤ 0x263F ∧ j = 2 then
    let n := (i - 0x2620) / 8
    let m := (i - 0x2620) % 8
    !s.modeBusy n m && ((List.range 8).map (fun x => if x = m then v else (s.perTable n x).length)).sum ≤ 4096
  else if 0x2640 ≤ i ∧ i ≤ 0x2643 ∧ j = 4 then s.n i 5 ≠ 1 && s.perC (i - 0x2640) 2 ≠ 1
  else if 0x2650 ≤ i ∧ i ≤ 0x2653 then
    let n := i - 0x2650
    if j = 2 then p.secure || !(s.ring n).guardOnce
    else if j = 5 then (s.ring n).head && !s.ringPends n && s.perValid n (fieldOf v 0 3) && 4 ≤ fieldOf v 8 8
    else if j = 6 then (s.ring n).head && (s.ring n).wrapped && !s.ringPends n
    else true
  else true

/-- The Locus (R350, R357, R360–R364, R444, R460). -/
def State.condLocus (s : State) (i j v : Nat) : Bool :=
  if i = 0x2700 ∧ j = 1 then
    !s.trackOn && fieldOf v 8 7 ≤ 64 && fieldOf v 0 7 + fieldOf v 8 7 ≤ 96 && regionsApart (s.n 0x2200 2) v
  else if i = 0x2700 ∧ j = 4 then v = 2 || ((v = 1 || v = 3) && s.swapOk v)
  else if 0x2710 ≤ i ∧ i ≤ 0x271F then
    let t := i - 0x2710
    let m := fieldOf (s.n i 3) 8 5
    if j = 1 then v = 0 || s.n i 1 = 1 || (s.trackOk t && !(s.trkDest t = 2 && s.pioFed m))
    else if 2 ≤ j ∧ j ≤ 0xE then s.n i 1 = 0
    else if 0xF ≤ j then !(s.n 0x2700 5 = 1 && bitOf s.locus.swapSet t)
    else true
  else if 0x2720 ≤ i ∧ i ≤ 0x272F then
    let t := i - 0x2720
    if 2 ≤ j ∧ j ≤ 4 then s.n (0x2710 + t) 1 = 0 || s.trkHeld t
    else if j = 0xC then v = 1
    else true
  else true

/-- SM `m` (0–31) is enabled; owner of pin `p` in a PIN_OWNER value. -/
def State.smEnabled (s : State) (m : Nat) : Bool := s.bit (0x2A00 + m / 8) 1 (m % 8)

/-- PIO (R432, R437, R443, R444, R447, R451–R454). -/
def State.condPio (s : State) (i j v : Nat) : Bool :=
  if 0x2A00 ≤ i ∧ i ≤ 0x2A03 ∧ j = 2 then
    let b := i - 0x2A00
    let on := fun o => o < 8 && s.smEnabled (8 * b + o)
    (List.range 16).all (fun q =>
      let was := fieldOf (s.n i 2) (4 * q) 4
      let now := fieldOf v (4 * q) 4
      was = now || (!on was && !on now))
  else if 0x2A10 ≤ i ∧ i ≤ 0x2A2F then
    if j = 2 then fieldOf v 0 7 ≤ fieldOf v 8 7
    else !s.smEnabled (i - 0x2A10) && (j ≠ 4 || (fieldOf v 24 2 ≠ 3 && 1 ≤ fieldOf v 8 6 && fieldOf v 8 6 ≤ 32 &&
      1 ≤ fieldOf v 16 6 && fieldOf v 16 6 ≤ 32))
  else if 0x2A40 ≤ i ∧ i ≤ 0x2A5F then
    let m := i - 0x2A40
    if j = 4 ∨ j = 5 then !s.smEnabled m
    else if j = 7 then
      let d := fieldOf (s.n (0x2A10 + m) 4) 24 2
      !s.pioFed m && fieldOf (s.n i 6) 0 5 < (if d = 0 then 8 else if d = 1 then 16 else 0)
    else true
  else if i = 0x2A80 ∧ 1 ≤ j ∧ j ≤ 4 then s.n i 5 ≠ 1
  else if 0x2A90 ≤ i ∧ i ≤ 0x2ACF then
    let on := s.bit i 1 0
    if j = 1 then
      if !bitOf v 0 then true
      else !on && s.n i 2 % 4 = 0 && inBankOrStore (s.n i 2) && inStorage (s.n i 2) 4 &&
        !(if bitOf v 1 then s.pioDrained (fieldOf v 8 5) else s.pioFed (fieldOf v 8 5))
    else if j = 2 ∨ j = 3 then !on
    else true
  else true

/-- The Lattice (R366, R384, R391, R393). -/
def State.condLattice (s : State) (i j v : Nat) : Bool :=
  if i = 0x2800 ∧ 2 ≤ j ∧ j ≤ 4 then
    s.n i 1 = 0 && (j ≠ 3 || (List.range 8).all (fun d => !(s.n (0x2500 + d) 1 = 1 && bitOf v (s.n (0x2500 + d) 2))))
  else if i = 0x2804 ∧ j = 3 then s.n 0x2800 0xE = 3 && s.n i 4 ≠ 1
  else true

/-- Instance control objects and PRIVATE values (R404, R407). -/
def State.condInst (s : State) (i j v : Nat) : Bool :=
  match privInst i j with
  | some n => (match s.privSelected n with | some o => typeOk o.odTy v | none => false)
  | none =>
    if 0x3000 ≤ i ∧ i < 0x6000 ∧ (i - 0x3000) % 0x800 = 0 ∧ ((1 ≤ j ∧ j ≤ 5) ∨ j = 9) then s.n i 7 ≠ 1 && s.n i 7 ≠ 2
    else true

/-- A CAN bit timing: BRP, TSEG1, TSEG2 and SJW, each one more than its field. -/
structure BitTiming where
  brp : Nat
  seg1 : Nat
  seg2 : Nat
  sjw : Nat
  deriving DecidableEq, Repr

def nominalOf (v : Nat) : BitTiming := ⟨fieldOf v 0 8 + 1, fieldOf v 8 8 + 1, fieldOf v 16 7 + 1, fieldOf v 24 7 + 1⟩
def dataOf (v : Nat) : BitTiming := ⟨fieldOf v 0 5 + 1, fieldOf v 8 5 + 1, fieldOf v 16 4 + 1, fieldOf v 24 4 + 1⟩
/-- Time quanta of a bit, and CAN clock periods of 12.5 ns (R410). -/
def BitTiming.tq (t : BitTiming) : Nat := 1 + t.seg1 + t.seg2
def BitTiming.periods (t : BitTiming) : Nat := t.brp * t.tq
def BitTiming.jumpOk (t : BitTiming) : Bool := t.sjw ≤ t.seg1 && t.sjw ≤ t.seg2

/-- The two timings together (R411). -/
def timingOk (nom dat : Nat) : Bool :=
  let a := nominalOf nom
  let b := dataOf dat
  a.jumpOk && b.jumpOk && 80 ≤ a.periods && 10 ≤ b.periods && b.periods ≤ a.periods && 8 ≤ a.tq && 5 ≤ b.tq

/-- CAN controllers (R411, R413, R416, R419, R426, R428). -/
def State.condCan (s : State) (i j v : Nat) : Bool :=
  if 0x2900 ≤ i ∧ i ≤ 0x2939 then
    let k := (i - 0x2900) % 16
    let c := i - k
    let st := fun b => fieldOf (s.n (c + 5) (b + 1)) 0 4
    if k = 0 ∧ j = 2 then s.n c 1 = 0
    else if k = 0 ∧ j = 3 then s.n c 1 = 0 && timingOk v (s.n c 4)
    else if k = 0 ∧ j = 4 then s.n c 1 = 0 && timingOk (s.n c 3) v
    else if k = 0 ∧ j = 8 then s.n c 1 = 0 && v % 256 = 0 && inStorage v 10240 && inBankOrStore v
    else if k = 0 ∧ j = 9 then 1 ≤ fieldOf v 0 5
    else if k = 2 ∧ 1 ≤ j then st (j - 1) ≠ 2 && st (j - 1) ≠ 3
    else if k = 6 ∧ j = 2 then (List.range 64).all (fun b => !bitOf v b || fieldOf (s.n (c + 2) (b + 1)) 0 2 = 2)
    else if k = 9 ∧ (j = 1 ∨ j = 3) then (s.n i (j + 1) + 256 - v) % 256 ≤ 32
    else true
  else true

/-- Every unit's own conditions. -/
def State.condUnits (s : State) (p : Path) (i j v : Nat) : Bool :=
  s.condLane i j v && s.condPort i j v && s.condChord i j v && s.condSwitch i j v && s.condTime i j v &&
  s.condRing p i j v && s.condLocus i j v && s.condPio i j v && s.condLattice i j v && s.condInst i j v && s.condCan i j v

end Sys2Proof.Machine
end

