-- ==== Sys2Proof/Machine/OdCond.lean ====
section
/-! DEFINITION. The whole check of a write to the Object Dictionary (R38, R40–R43, R50). -/

namespace Sys2Proof.Machine

/-- Every chapter's own sentence that calls a write out of range in the present state. -/
def State.odCond (s : State) (p : Path) (i j v : Nat) : Bool :=
  s.condPower p i j v && s.condEngine i j v && s.condBank i j v && s.condMbox p i j v && s.condHost i j v &&
  s.condSup i j v && s.condUnits p i j v

/-- A write the OD accepts: the object exists, its access code and the device state allow the path to write it, and
the value is in range (R38–R43). -/
def State.writeOk (s : State) (p : Path) (i j v : Nat) : Bool :=
  s.odExists i j &&
  match s.rowOf i j with
  | none => false
  | some r =>
    s.codeOk p i r && (s.dev ≠ 5 || p.secure) && r.accepts v && s.instLimit i j v && s.odCond p i j v

/-- A write through the OD: the effect where it is accepted, a counted violation otherwise (R50). -/
def State.guard (s : State) (p : Path) (i j v : Nat) (f : State → State) : State :=
  if s.writeOk p i j v then f s else s.violate p.id.val

end Sys2Proof.Machine
end

