-- ==== Sys2Proof/Machine/MboxOps.lean ====
section
/-! DEFINITION. Mailbox channels: lock, post, doorbells, notification and the resets of their masters (spec/18). -/

namespace Sys2Proof.Machine

/-- Address of a channel's message area (R476). -/
def areaOf (c : Nat) : Nat := 0x0C10_0000 + c * 0x400

/-- Pending AND NOT MASK (R482). -/
def State.unmasked (s : State) (c : Nat) : Word := (s.chan c).bits &&& ~~~ BitVec.ofNat 32 (s.n (0x2C10 + c) 0xD)

/-- EVP as a core sees it: bit 47 follows the doorbells of the channels it receives (R163, R484); for Apex also those
whose ROUTE enables it (log entry 20). -/
def State.evpSeen (s : State) (core : Nat) : BitVec 64 :=
  let m := core + 1
  let db := (List.range 48).any (fun c =>
    s.unmasked c ≠ 0 && (s.n (0x2C10 + c) 1 = m || (core = 32 && s.bit (0x2C10 + c) 5 10)))
  let e := (s.engine core).evp &&& ~~~ BitVec.twoPow 64 47
  if db then e ||| BitVec.twoPow 64 47 else e

/-- Serve the ROUTE of channel `c` after its unmasked value was `was`: on a change from 0, or after a post or a MASK
write that leaves it non-zero (R484). -/
def State.mboxServe (s : State) (c : Nat) (was : Word) (again : Bool) : State :=
  if s.unmasked c ≠ 0 && (was = 0 || again) && s.bit (0x2C10 + c) 5 8 then s.msix (fieldOf (s.n (0x2C10 + c) 5) 0 6)
  else s

/-- A read of LOCK by master `m` (R478): the answer and the state after it. -/
def State.lockRead (s : State) (c m : Nat) : Nat × State :=
  let o := s.n (0x2C10 + c) 7
  if o = 0 then (0, s.wr (0x2C10 + c) 7 m)
  else if o = m then (0, s)
  else (o, s.cnt (0x2C10 + c) 0x10)

/-- The lock is free again. -/
def State.lockFree (s : State) (c : Nat) : State := s.wr (0x2C10 + c) 7 0

/-- A post of `len` bytes with doorbell bits (R480). -/
def State.post (s : State) (c : Nat) (bits : Word) (len : Nat) : State :=
  let was := s.unmasked c
  let i := 0x2C10 + c
  let m := s.chan c
  let s1 :=
    if s.n i 0xA = 2 then s.setChan c { m with bits := m.bits ||| bits }
    else ((s.wr i 0xA 2).wr i 0xB len).setChan c
      { m with bits := m.bits ||| bits, crc := crc32c (s.bytes (areaOf c) len) }
  (s1.cnt i 0xF).mboxServe c was true

/-- Whether the posted message still matches its CRC-32C (R482). -/
def State.mboxIntact (s : State) (c : Nat) : Bool :=
  crc32c (s.bytes (areaOf c) (s.n (0x2C10 + c) 0xB)) = (s.chan c).crc || s.n (0x2C10 + c) 0xA ≠ 2

/-- A read of DOORBELL or dbrd: the bits and the state after the check (R482). -/
def State.dbRead (s : State) (c : Nat) : Word × State :=
  (s.unmasked c,
   if s.mboxIntact c then s.wr (0x2C10 + c) 0xE 0
   else ((s.wr (0x2C10 + c) 0xE 1).cnt 0x2C00 6).event 0x2C00 1 8)

/-- Clear doorbell bits; with none left the state becomes EMPTY (R481). -/
def State.dbClear (s : State) (c : Nat) (v : Word) : State :=
  let m := s.chan c
  let b := m.bits &&& ~~~ v
  let s := s.setChan c { m with bits := b }
  if b = 0 && s.n (0x2C10 + c) 0xA = 2 then s.wr (0x2C10 + c) 0xA 0 else s

/-- A write of MASK (R484). -/
def State.maskWrite (s : State) (c : Nat) (v : Word) : State :=
  let was := s.unmasked c
  (s.wr (0x2C10 + c) 0xD v.toNat).mboxServe c was true

/-- The lock owner's first write to an EMPTY area makes the channel COMPOSING (R480). -/
def State.composeStart (s : State) (c : Nat) : State :=
  if s.n (0x2C10 + c) 0xA = 0 then s.wr (0x2C10 + c) 0xA 1 else s

/-- Release the lock of a reset owner and log it (R487 step 2). -/
def State.lockReleaseReset (s : State) (c : Nat) : State :=
  let o := s.n (0x2C10 + c) 7
  (((s.lockFree c).cnt 0x2C00 3).event 0x2C00 1 1).record 0x0103 (body [(c, 1), (o, 1)])

/-- The owner of channel `c` is reset (R487): a composition is discarded, its area zeroed, and the lock released after
the zeroing (R488); otherwise the lock is released at once. -/
def State.ownerReset (s : State) (c : Nat) : State :=
  let o := s.n (0x2C10 + c) 7
  if s.n (0x2C10 + c) 0xA = 1 then
    let s := (s.zeroRange (areaOf c) (areaOf c + 0x400)).wr (0x2C10 + c) 0xA 0
    let s := ((s.cnt 0x2C00 4).event 0x2C00 1 2).record 0x0104 (body [(c, 1), (o, 1)])
    s.setChan c { s.chan c with zeroing := true }
  else s.lockReleaseReset c

/-- The RECEIVER of channel `c` is reset (R486). -/
def State.receiverReset (s : State) (c : Nat) : State :=
  let s := s.wr (0x2C10 + c) 0xD 0xFFFF_FFFF
  if s.bit (0x2C10 + c) 4 0 then
    (((s.setChan c { s.chan c with bits := 0 }).wr (0x2C10 + c) 0xA 0).cnt 0x2C00 5).event 0x2C00 1 4
  else s

/-- A reset of master `m` as the mailboxes treat it (R485–R487). -/
def State.masterReset (s : State) (m : Nat) : State :=
  (List.range 48).foldl (fun s c =>
    let s := if s.n (0x2C10 + c) 1 = m then s.receiverReset c else s
    if s.n (0x2C10 + c) 7 = m && !(s.chan c).zeroing then s.ownerReset c else s) s

/-- A reset of a master empties its latch and its stage (R47). -/
def State.pathReset (s : State) (m : Nat) : State := { s with paths := tblDel m s.paths }

end Sys2Proof.Machine
end

