-- ==== Sys2Proof/Machine/Lanes.lean ====
section
/-! DEFINITION. Lanes of the engines: receive and transmit FIFOs, discards, CRC taps, bindings (R115–R122, R157–R161). -/

namespace Sys2Proof.Machine

/-- Fold one nibble into a core's CRC state; POLY 3 holds a single nibble until its pair arrives (R161). -/
def Engine.foldNib (e : Engine) (n : Nib) : Engine :=
  if e.crcPoly = 3 then
    match e.crcHalf with
    | none => { e with crcHalf := some n }
    | some a => { e with crcHalf := none, crc := crcFold 3 e.crc [a, n] }
  else { e with crc := crcTrim e.crcPoly (crcFold e.crcPoly e.crc [n]) }

/-- Fold the nibble when the tap mode is `mode` (R161). -/
def Engine.tap (e : Engine) (mode : Nat) (n : Nib) : Engine := if e.crcTap = mode then e.foldNib n else e

/-- Nibbles in the receive FIFO. -/
def nibCount : List LaneItem → Nat
  | [] => 0
  | .nib _ :: t => nibCount t + 1
  | _ :: t => nibCount t

/-- Nibbles before the first marker. -/
def headNibs : List LaneItem → List Nib
  | .nib n :: t => n :: headNibs t
  | _ => []

/-- Whether a marker stands in the FIFO. -/
def hasMarker (l : List LaneItem) : Bool := l.any (fun i => match i with | .nib _ => false | _ => true)

/-- Carry out an armed discard as far as the FIFO allows (R157, R159): `skip` removes nibbles, counts them in POS and
folds them under tap mode 1, and stops at a marker; `skipf` removes everything up to and including the next END. -/
def Engine.drain (e : Engine) : List LaneItem → Engine
  | [] => { e with rx := [] }
  | i :: t =>
    match e.rxDiscard, i with
    | .off, _ => { e with rx := i :: t }
    | .count 0, _ => { e with rx := i :: t, rxDiscard := .off }
    | .count (k + 1), .nib n =>
      Engine.drain ({ e with rxPos := e.rxPos + 1, rxDiscard := if k = 0 then .off else .count k }.tap 1 n) t
    | .count _, .start _ => { e with rx := i :: t, rxDiscard := .off }
    | .count _, .fin _ => { e with rx := i :: t, rxDiscard := .off }
    | .frame, .nib _ => Engine.drain { e with rxPos := e.rxPos + 1 } t
    | .frame, .start _ => Engine.drain { e with rxPos := 0 } t
    | .frame, .fin _ => Engine.drain { e with rxDiscard := .off } t

/-- The discard runs over what the FIFO holds. -/
def Engine.settleRx (e : Engine) : Engine := e.drain e.rx

/-- Port field of END: the bound port, 15 for a loop (R120). -/
def boundPort (b : Nat) : Nat := let src := fieldOf b 0 5; if 1 ≤ src ∧ src ≤ 12 then src - 1 else 15

/-- END marker word (R120). -/
def endWord (bytes status port : Nat) (frac : BitVec 2) : Word :=
  BitVec.ofNat 32 (bytes % 2 ^ 16 + status * 2 ^ 16 + port * 2 ^ 20 + frac.toNat * 2 ^ 24)

/-- One nibble reaches the receive lane; at a full FIFO the rest of the frame is discarded and END with STATUS 3
follows (R121). Answers whether an overrun began. -/
def Engine.rxNib (e : Engine) (n : Nib) : Engine × Bool :=
  let e := { e with rxCount := e.rxCount + 1 }
  if e.rxDrop then (e, false)
  else
    let e := e.settleRx
    if 128 ≤ nibCount e.rx then
      ({ e with rx := e.rx ++ [LaneItem.fin (endWord (e.rxCount / 2) 3 (boundPort e.rxBound) e.rxFrac)], rxDrop := true }, true)
    else (({ e with rx := e.rx ++ [LaneItem.nib n] }).settleRx, false)

/-- Nibbles reach the lane in order; answers the overruns that began. -/
def Engine.rxNibs (e : Engine) : List Nib → Engine × Nat
  | [] => (e, 0)
  | n :: t =>
    let r := e.rxNib n
    let q := r.1.rxNibs t
    (q.1, q.2 + if r.2 then 1 else 0)

/-- A frame's START reaches the lane (R120). -/
def Engine.rxStart (e : Engine) (ts : Word) (frac : BitVec 2) : Engine :=
  ({ e with rx := e.rx ++ [LaneItem.start ts], rxDrop := false, rxCount := 0, rxFrac := frac }).settleRx

/-- A frame's END reaches the lane, unless an overrun has already ended it (R120, R121). -/
def Engine.rxEnd (e : Engine) (status : Nat) : Engine :=
  if e.rxDrop then { e with rxDrop := false, rxCount := 0 }
  else ({ e with rx := e.rx ++ [LaneItem.fin (endWord (e.rxCount / 2) status (boundPort e.rxBound) e.rxFrac)]
                 rxCount := 0 }).settleRx

/-- Count overruns of engine `e`'s receive lane [H] (R121). -/
def State.countOverruns (s : State) (e k : Nat) : State :=
  if k = 0 then s else s.addH (0x2440 + e / 4) (9 + e % 4) 32 k (0x2440 + e / 4) 0x11

/-- A portion of a frame enters receive lane `e`: its START, nibbles, and its END with a status (R120). -/
def State.laneReceive (s : State) (e : Nat) (first : Option (Word × BitVec 2)) (nibs : List Nib)
    (last : Option (BitVec 3)) : State :=
  let g := s.engine e
  let g := match first with | some (ts, f) => g.rxStart ts f | none => g
  let r := g.rxNibs nibs
  let g := match last with | some st => r.1.rxEnd st.toNat | none => r.1
  (s.setEngine e g).countOverruns e r.2

/-- RX_LANE_FRAME (R120, R121): happens on a bound lane. -/
def execRxLaneFrame (e : Fin 32) (first : Option (Word × BitVec 2)) (nibs : List Nib) (last : Option (BitVec 3))
    (s : State) : Res :=
  .next (if fieldOf (s.engine e).rxBound 0 5 = 0 then s else s.laneReceive e first nibs last)

/-! ### Transmit lanes -/

/-- A frame with its FCS, or with the complement when it is stomped (R30). -/
def withFcs (d : List Byte) (stomp : Bool) : List Byte :=
  let f := crc32 d
  d ++ leBytes (if stomp then ~~~ f else f).toNat 4

/-- The nibbles before the first END of a transmit FIFO, the END's STOMP if there is one, and the rest. -/
def txSplit : List TxItem → List Nib × Option Bool × List TxItem
  | [] => ([], none, [])
  | .nib n :: t => let r := txSplit t; (n :: r.1, r.2.1, r.2.2)
  | .fin b :: t => ([], some b, t)

/-- The receive lane that loops from the transmit lane of engine `e`, if any (R116). -/
def State.loopOf (s : State) (e : Nat) : Option Nat :=
  (List.range 4).find? (fun k => fieldOf (s.engine (e / 4 * 4 + k)).rxBound 0 5 = 16 + e % 4) |>.map (e / 4 * 4 + ·)

/-- A lane frame is whole: its port's transmitter sends it, or it enters the looped receive lane, whose START timestamp
the manual does not state (log entry 14). -/
def State.laneSend (s : State) (e : Nat) (d : List Byte) (stomp : Bool) : State :=
  let dest := fieldOf (s.engine e).txBound 0 5
  if 1 ≤ dest ∧ dest ≤ 12 then
    let p := s.port (dest - 1)
    match p.cur with
    | some c =>
      if c.src = .lane e then
        s.setPort (dest - 1) { p with cur := some { c with data := d, done := true, stomp := c.stomp || stomp } }
      else s
    | none => s
  else match s.loopOf e with
    | some r => s.tick.laneReceive r (some (s.free 32, 0)) (nibsOf (withFcs d stomp)) (some (if stomp then 2 else 0))
    | none => s

/-- A started frame takes what the FIFO holds; with its END the frame is complete (R122, R160). -/
def State.settleTx (s : State) (e : Nat) : State :=
  let g := s.engine e
  if g.txOn then
    let r := txSplit g.tx
    match r.2.1 with
    | none => s.setEngine e { g with tx := [], txWire := g.txWire ++ r.1 }
    | some stomp =>
      (s.setEngine e { g with tx := r.2.2, txWire := [], txOn := false }).laneSend e (bytesOf (g.txWire ++ r.1)) stomp
  else s

/-- Enough of a frame is queued for it to begin: TX_START nibbles or its END (R122). -/
def State.txReady (s : State) (e : Nat) : Bool :=
  let g := s.engine e
  let r := txSplit g.tx
  !g.txOn && (r.2.1.isSome || (fieldOf (s.n (0x2440 + e / 4) (5 + e % 4)) 12 4 + 1) * 8 ≤ r.1.length) &&
  (fieldOf g.txBound 0 5 ≠ 0 || (s.loopOf e).isSome)

/-- The FIFO empties before END: the frame ends stomped, the underrun is counted, and its remaining nibbles are
discarded up to and including its END (R122). -/
def State.txUnderrun (s : State) (e : Nat) : State :=
  let g := s.engine e
  let s := (s.setEngine e { g with txOn := false, txWire := [], txDrop := true }).laneSend e (bytesOf g.txWire) true
  s.cntH (0x2440 + e / 4) (0xD + e % 4) (0x2440 + e / 4) 0x11

/-- TX_LANE_UNDERRUN (R122). -/
def execTxLaneUnderrun (e : Fin 32) (s : State) : Res :=
  .next (if (s.engine e).txOn && (s.engine e).tx.isEmpty then s.txUnderrun e else s)

/-! ### Bindings (R116–R119) -/

/-- The RX_SOURCE and TX_DEST values of engine `e` as the OD holds them. -/
def State.rxSource (s : State) (e : Nat) : Nat := fieldOf (s.n (0x2440 + e / 4) (1 + e % 4)) 0 5
def State.txDest (s : State) (e : Nat) : Nat := fieldOf (s.n (0x2440 + e / 4) (5 + e % 4)) 0 5

/-- A change of a binding takes effect at the next frame boundary (R118). -/
def execLaneBindingApply (e : Fin 32) (tx : Bool) (s : State) : Res :=
  let g := s.engine e
  .next (if tx then
      if g.txOn then s else s.setEngine e { g with txBound := s.n (0x2440 + e.val / 4) (5 + e.val % 4) }
    else s.setEngine e { g with rxBound := s.n (0x2440 + e.val / 4) (1 + e.val % 4) })

/-- A facet reset clears the bindings of engine `e` (R118): a frame in progress on the transmit lane leaves stomped, one
on the receive lane ends with status 5; what else the FIFOs hold is gone (R86). -/
def State.endLaneFrames (s : State) (e : Nat) : State :=
  let g := s.engine e
  let s := if g.txOn then s.laneSend e (bytesOf g.txWire) true else s
  let ends := if g.rxCount ≠ 0 && !g.rxDrop then [LaneItem.fin (endWord (g.rxCount / 2) 5 (boundPort g.rxBound) g.rxFrac)] else []
  s.setEngine e { s.engine e with tx := [], txOn := false, txWire := [], txDrop := false, rx := ends, rxCount := 0,
                                  rxDrop := false, rxDiscard := .off, rxPos := 0, rxBound := 0, txBound := 0x7000 }

end Sys2Proof.Machine
end

