-- ==== Sys2Proof/Machine/BlockReset.lean ====
section
/-! DEFINITION. Per-block resets of engines and facets, and what every per-block reset shares (R84–R88, R129). -/

namespace Sys2Proof.Machine

/-- Where 0x2004 shows a block of a KIND of R567 (R85). -/
def resetBit (kind unit : Nat) : Nat × Nat :=
  if kind = 1 then (2, unit) else if kind = 2 then (3, unit) else if kind = 3 then (3, 8 + unit)
  else if kind = 4 then (4, unit) else if kind = 5 then (4, 8 + unit) else if kind = 6 then (4, 16 + unit)
  else if kind = 7 then (5, 0) else if kind = 8 then (5, 1) else (5, 4 + unit)

/-- The block is held in reset (R85). -/
def State.inReset (s : State) (kind unit : Nat) : Bool := s.bit 0x2004 (resetBit kind unit).1 (resetBit kind unit).2

/-- What every per-block reset shares (R83, R86): it is counted, BLOCK_RESET is latched, its bit of 0x2004 reads 1 until
the reset ends, and a 0x0102 record is raised. A reset that overlaps one of the same block is part of it (R88). `kind` and
`reason` as R567 lists them. -/
def State.noteBlockReset (s : State) (master kind unit reason : Nat) : State :=
  if s.inReset kind unit then s
  else
    let b := resetBit kind unit
    (((s.cnt 0x2003 4).hold 2).setBit 0x2004 b.1 b.2).record 0x0102 (body [(master, 1), (kind, 1), (unit, 1), (reason, 1)])

/-- Objects of `i` whose subindex lies in `[lo, hi]` return to their defaults. -/
def State.dropSubs (s : State) (i lo hi : Nat) : State :=
  { s with od := tblClear (odKey i lo) (odKey i hi + 1) s.od }

/-- An engine's own volatile state returns to its reset values (R86, R87): HALTED, its counters and status at 0, its
lane FIFOs empty. The image stays in instruction RAM and the bindings stay. -/
def State.clearEngine (s : State) (e cause : Nat) : State :=
  let i := 0x2400 + e
  let old := s.engine e
  let s := ((s.dropSubs i 5 8).dropSubs i 0xB 0xE).wr i 1 0
  let s := s.wr i 6 cause
  s.setEngine e { words := old.words, image := old.image, needReload := old.needReload,
                  rxBound := old.rxBound, txBound := old.txBound }

/-- Reset of engine `e` without its log entry: locks released, latch and stage emptied (R87, R485, R47). -/
def State.engineReset (s : State) (e cause : Nat) : State :=
  ((s.clearEngine e cause).masterReset (e + 1)).pathReset (e + 1)

/-- A facet reset (R86, R87, R118, R129): its engines, its lane bindings, its event status and enable; every image needs a
reload. `reason`: 0 command, 1 heartbeat, 2 double-bit error (R567). -/
def State.facetReset (s : State) (f master reason : Nat) : State :=
  let s := (List.range 4).foldl (fun s k =>
    let ends := ((s.endLaneFrames (4 * f + k)).engine (4 * f + k)).rx
    let s := (s.endLaneFrames (4 * f + k)).engineReset (4 * f + k) 5
    s.setEngine (4 * f + k) { s.engine (4 * f + k) with needReload := true, rx := ends }) s
  let i := 0x2440 + f
  let s := s.dropSubs i 1 0x14
  let s := s.event i 0x11 0x1000
  let s := if reason = 2 then (s.setBits 0x2003 5 (2 ^ f)).hold 4 else s
  let s := (List.range 4).foldl (fun s k => s.instFault (4 * f + k)) s
  s.noteBlockReset master 2 f reason

/-- Apex restores, reloads and starts what R129 says after a reset by a double-bit error. -/
def State.facetRestartDue (s : State) (f : Nat) : Bool := s.n (0x2440 + f) 0x15 = 1

end Sys2Proof.Machine
end

