-- ==== Sys2Proof/Machine/Mem.lean ====
section
/-! DEFINITION. Accesses to the device address map outside the OD window: regions, access rules, SECDED errors, banks
that are not ON, atomics (R16–R19, R107–R113, R459, R463–R468, R477). -/

namespace Sys2Proof.Machine

/-- Regions of the device address map (R16). -/
inductive Region where
  | bank (n : Nat) | mram | retained | mailbox (c : Nat) | store (f : Nat) | engineRam (e : Nat) | pioRam (b : Nat)
  | window | unmapped
  deriving DecidableEq, Repr

/-- The region of an address (R16). -/
def regionOf (a : Nat) : Region :=
  if a < 0x0600_0000 then .bank (a / 0x10_0000)
  else if 0x0800_0000 ≤ a ∧ a < 0x0840_0000 then .mram
  else if 0x0C00_0000 ≤ a ∧ a < 0x0C00_4000 then .retained
  else if 0x0C10_0000 ≤ a ∧ a < 0x0C10_C000 then .mailbox ((a - 0x0C10_0000) / 0x400)
  else if 0x0D00_0000 ≤ a ∧ a < 0x0D20_0000 then .store ((a - 0x0D00_0000) / 0x4_0000)
  else if 0x0E00_0000 ≤ a ∧ a < 0x0E20_0000 then
    if (a - 0x0E00_0000) % 0x1_0000 < 0xC000 then .engineRam ((a - 0x0E00_0000) / 0x1_0000) else .unmapped
  else if 0x0F00_0000 ≤ a ∧ a < 0x0F00_4000 then
    if (a - 0x0F00_0000) % 0x1000 < 0x100 then .pioRam ((a - 0x0F00_0000) / 0x1000) else .unmapped
  else if 0x1000_0000 ≤ a ∧ a < 0x1400_0000 then .window
  else .unmapped

/-- Whether a region's access rule lets the path read (R16, R18, R477). -/
def State.mayRead (s : State) (p : Path) : Region → Bool
  | .mailbox c => s.chanReach p c && !s.chanGated p c && s.chanParty p c
  | _ => true

/-- Whether a region's access rule lets the path write (R16, R18, R113, R225, R477). -/
def State.mayWrite (s : State) (p : Path) : Region → Bool
  | .bank n => !(s.inSwitch n && s.n 0x2200 1 = 1 && p.id.val ≠ 37)
  | .mram => false
  | .mailbox c => s.chanReach p c && s.n (0x2C10 + c) 7 = p.id.val && s.n (0x2C10 + c) 7 ≠ 0 &&
      s.n (0x2C10 + c) 1 ≠ 0 && s.n (0x2C10 + c) 0xA ≠ 2
  | .engineRam e => s.n (0x2400 + e) 1 = 0 || s.n (0x2400 + e) 1 = 3
  | .window => false
  | _ => true

/-- Whether the bank an address lies in serves accesses now; other regions always do (R459). -/
def State.ready (s : State) (a : Nat) : Bool :=
  match regionOf a with
  | .bank n => s.bankOn n
  | _ => true

/-- An access that waits for its bank counts in NOT_ON_WAITS and sets NOT_ON_ACCESS (R459). -/
def State.noteNotOn (s : State) : State := (s.cnt 0x2B00 8).event 0x2B00 9 0x10

/-- The word at `a` (address / 8) holds a double-bit or a single-bit error. -/
def State.hasDbe (s : State) (a : Nat) : Bool := tblGet (fun _ => false) (a / 8) s.memc.dbe
def State.hasSbe (s : State) (a : Nat) : Bool := tblGet (fun _ => false) (a / 8) s.memc.sbe

/-- Mark or clear the errors of the word at `a`. -/
def State.setDbe (s : State) (a : Nat) (b : Bool) : State :=
  { s with memc := { s.memc with dbe := tblSet (fun _ => false) (a / 8) b s.memc.dbe } }
def State.setSbe (s : State) (a : Nat) (b : Bool) : State :=
  { s with memc := { s.memc with sbe := tblSet (fun _ => false) (a / 8) b s.memc.sbe } }

/-- A single-bit error met by a read: corrected in the data, written back and counted (R463, R141). -/
def State.correct (s : State) (a : Nat) : State :=
  let s := s.setSbe a false
  match regionOf a with
  | .bank _ => (s.cnt 0x2B00 1).event 0x2B00 9 1
  | .store f => s.cnt (0x2440 + f) 0x13
  | .engineRam e => s.cnt (0x2440 + e / 4) 0x13
  | _ => s

/-- A double-bit error met by a read of master `m` (0 for a master without an ID): banks count and record it (R464);
a facet store sets STORE_DBE and shows the address (R109); an engine RAM resets its facet (R84). -/
def State.meetDbe (s : State) (a m : Nat) : State :=
  match regionOf a with
  | .bank _ =>
    let s := ((s.cnt 0x2B00 2).wr 0x2B00 3 (a / 8 * 8)).wr 0x2B00 4 m
    (s.event 0x2B00 9 2).record 0x0202 (body [(a / 8 * 8, 4), (m, 1)])
  | .store f =>
    ((s.wr (0x2440 + f) 0x14 (a / 8 * 8)).event (0x2440 + f) 0x11 0x2000).record 0x0203
      (body [(a / 8 * 8, 4), (m, 1), (f, 1), (0, 1)])
  | .engineRam e =>
    let k := if (a - 0x0E00_0000) % 0x1_0000 < 0x8000 then 1 else 2
    ((s.record 0x0203 (body [(a / 8 * 8, 4), (m, 1), (e / 4, 1), (k, 1)])).facetReset (e / 4) 0 2)
  | _ => s

/-- Addresses of MRAM whose byte layout the manual does not give: the parameter store and the option copies (R54,
R91). Their bytes are free values (log entry 7). -/
def mramOpaque (a : Nat) : Bool :=
  (0x0820_0000 ≤ a && a < 0x0828_0000) ||
  (0x0838_0000 ≤ a && a < 0x0839_0000 && a % 0x8000 < 0x7FC0)

/-- An aligned read of `n` ≤ 8 bytes by a path: data, error response, state (R16–R19). -/
def State.memRead (s : State) (p : Path) (a n : Nat) : List Byte × Bool × State :=
  let r := regionOf a
  if r = .unmapped ∨ r = .window then (zeros n, false, s)
  else if !s.mayRead p r then (zeros n, false, s.violate p.id.val)
  else if r = .mram ∧ mramOpaque a then (leBytes (s.free 64).toNat n, false, s.tick)
  else
    let d := s.bytes a n
    if s.hasDbe a then (d, true, s.meetDbe a p.id.val)
    else if s.hasSbe a then (d, false, s.correct a)
    else (d, false, s)

/-- ORIGIN of a bank becomes 1 (written) at its first write (R462). -/
def State.originWritten (s : State) (b : Nat) : State :=
  let i := 0x2B10 + b / 8
  let j := 0x11 + b % 8
  s.wr i j (putField (s.n i j) 3 2 1)

/-- An aligned write of up to 8 bytes by a path (R16, R18, R462, R465, R480). -/
def State.memWrite (s : State) (p : Path) (a : Nat) (d : List Byte) : State :=
  let r := regionOf a
  if r = .unmapped ∨ r = .window then s
  else if !s.mayWrite p r then s.violate p.id.val
  else if s.hasDbe a && d.length < 8 then
    match r with
    | .bank _ => (s.cnt 0x2B00 5).event 0x2B00 9 4
    | _ => s
  else
    let s := if d.length = 8 then (s.setDbe a false).setSbe a false else s
    let s := s.setBytes a d
    match r with
    | .bank b => s.originWritten b
    | .mailbox c => s.composeStart c
    | _ => s

/-- Fetch-and-add or swap on an aligned word or doubleword of a bank or facet store, indivisible (R108, R468): the old
value and whether a double-bit error answered (then nothing is written, R464). -/
def State.atomic (s : State) (p : Path) (a n : Nat) (swap : Bool) (x : Nat) : Nat × Bool × State :=
  let (d, err, s1) := s.memRead p a n
  let old := leNat d
  if err then (old, true, s1)
  else (old, false, s1.memWrite p a (leBytes (if swap then x else old + x) n))

/-- Whether an address is one an atomic may act on (R154, R468, R493). -/
def atomicTarget (a : Nat) : Bool := inBankOrStore a

/-- Bytes read for a unit that takes no error response: data and whether any word failed (R109). -/
def State.fetchBytes (s : State) (m a n : Nat) : List Byte × Bool × State :=
  let bad := (List.range (n / 8 + 2)).find? (fun k => s.hasDbe (a / 8 * 8 + 8 * k) && a / 8 * 8 + 8 * k < a + n)
  match bad with
  | some k => (s.bytes a n, true, s.meetDbe (a / 8 * 8 + 8 * k) m)
  | none => (s.bytes a n, false, s)

end Sys2Proof.Machine
end

