-- ==== Sys2Proof/Machine/Banks.lean ====
section
/-! DEFINITION. The memory bank commands (spec/17). -/

namespace Sys2Proof.Machine

/-- STATUS object of bank `b` (R474). -/
def bankIdx (b : Nat) : Nat := 0x2B10 + b / 8
def bankStatusSub (b : Nat) : Nat := 0x11 + b % 8

/-- CHANGING of bank `b`. -/
def State.changing (s : State) (b : Nat) : Bool := s.bit (bankIdx b) (bankStatusSub b) 2

/-- Replace fields of a bank's STATUS. -/
def State.bankField (s : State) (b lsb w v : Nat) : State :=
  s.wr (bankIdx b) (bankStatusSub b) (putField (s.n (bankIdx b) (bankStatusSub b)) lsb w v)

/-- Start the transition of bank `b` to power state `t` (R457, R458). -/
def State.bankGo (s : State) (b t : Nat) : State :=
  if s.bankState b = t ∧ s.changing b = false then s
  else
    let s := { s with memc := { s.memc with bank := tblSet (fun _ => {}) b { target := t } s.memc.bank } }
    s.bankField b 2 1 1

/-- Zero bank `b` with valid check bits: ORIGIN 0, EPOCH 0 (R457, R462). -/
def State.bankZero (s : State) (b : Nat) : State :=
  let s := s.zeroRange (b * 0x10_0000) ((b + 1) * 0x10_0000)
  let s := { s with memc := { s.memc with
    dbe := tblClear (b * 0x2_0000) ((b + 1) * 0x2_0000) s.memc.dbe
    sbe := tblClear (b * 0x2_0000) ((b + 1) * 0x2_0000) s.memc.sbe } }
  (s.bankField b 3 2 0).wr (bankIdx b) (9 + b % 8) 0

/-- Tag a bank entering or staying in RETENTION with the sleep epoch: ORIGIN 2 (R462). -/
def State.bankRetain (s : State) (b : Nat) : State :=
  (s.bankField b 3 2 2).wr (bankIdx b) (9 + b % 8) (s.n 0x2000 4)

/-- An access that meets a bank that is not ON waits for it (R459). -/
def State.waitFor (s : State) (w : BankWait) : State :=
  { s with memc := { s.memc with waits := s.memc.waits ++ [w] } }.noteNotOn

/-- A burst of `k` reads of `n` bytes, and one of writes, in ascending order (R16); the writes from the first bank on that
is not ON wait. -/
def State.memBurst (s : State) (p : Path) (a n : Nat) : Nat → List Byte × Bool × State
  | 0 => ([], false, s)
  | k + 1 =>
    let r := s.memRead p a n
    let q := r.2.2.memBurst p (a + n) n k
    (r.1 ++ q.1, r.2.1 || q.2.1, q.2.2)
def State.memStores (s : State) (p : Path) (a : Nat) (size : Size) (d : List Byte) : Nat → State
  | 0 => s
  | k + 1 =>
    if s.ready a then (s.memWrite p a (d.take size.bytes)).memStores p (a + size.bytes) size (d.drop size.bytes) k
    else s.waitFor { path := p, write := true, addr := a, size := size, beats := k + 1, data := d }

/-- The answer to a read; a poisoned completion counts (R19, R492). -/
def State.readAnswer (s : State) (p : Path) (d : List Byte) (err : Bool) : State :=
  (if p.id.val = 34 && err then s.cnt 0x2F40 4 else s).emit (.reply p.id.val d err)

/-- The old value of an atomic goes back to its master: to ATOMIC_RESULT for quad-SPI (R501), as a completion for PCIe,
where a poisoned one counts (R492, R493). -/
def State.atomicAnswer (s : State) (p : Path) (n : Nat) (r : Nat × Bool) : State :=
  if p.id.val = 35 then { s with host := { s.host with qResult := some (BitVec.ofNat 64 r.1, r.2) } }
  else s.readAnswer p (leBytes r.1 n) r.2

/-- Serve one access that waited for its bank (R459). -/
def State.serveWait (s : State) (w : BankWait) : State :=
  match w.atomic with
  | some (swap, x) =>
    let r := s.atomic w.path w.addr w.size.bytes swap x
    r.2.2.atomicAnswer w.path w.size.bytes (r.1, r.2.1)
  | none =>
    if w.write then s.memStores w.path w.addr w.size w.data w.beats
    else
      let r := s.memBurst w.path w.addr w.size.bytes w.beats
      r.2.2.readAnswer w.path r.1 r.2.1

/-- Serve every access that waited for bank `b`, in order of arrival. -/
def State.serveWaits (s : State) (b : Nat) : State :=
  let mine := s.memc.waits.filter (fun w => w.addr / 0x10_0000 = b)
  let rest := s.memc.waits.filter (fun w => w.addr / 0x10_0000 ≠ b)
  mine.foldl (fun s w => s.serveWait w) { s with memc := { s.memc with waits := rest } }

/-- The transition of bank `b` ends: CHANGING 0 and POWER_CHANGED (R458). -/
def State.bankSettled (s : State) (b : Nat) : State :=
  (({ s with memc := { s.memc with bank := tblDel b s.memc.bank } }).bankField b 2 1 0).event 0x2B00 9 8

/-- One step of the transition of bank `b` (R457): leaving OFF it is zeroed and becomes ON first; contents are lost on
entry to OFF; entry to RETENTION tags it. -/
def State.bankStep (s : State) (b : Nat) : State :=
  let t := (tblGet (fun _ => ({} : Bank)) b s.memc.bank).target
  let cur := s.bankState b
  if cur = 2 ∧ t ≠ 2 then
    let s := ((s.bankZero b).bankField b 0 2 0).serveWaits b
    if t = 0 then s.bankSettled b else s
  else if t = 0 then ((s.bankField b 0 2 0).bankSettled b).serveWaits b
  else if t = 1 then ((s.bankField b 0 2 1).bankRetain b).bankSettled b
  else ((s.bankZero b).bankField b 0 2 2).bankSettled b

/-- A write of POWER: RUN_STATE starts the transition (R458); in Doze the bank follows DOZE_STATE until the wake
(R461). -/
def State.doBankPower (s : State) (b v : Nat) : State :=
  let s := s.wr (bankIdx b) (1 + b % 8) v
  if s.dev = 2 then s else s.bankGo b (fieldOf v 0 2)

/-- BANK_POWER_WRITE (R457, R458, R460, R474). -/
def execBankPowerWrite (p : Path) (b : Fin 96) (v : Word) (s : State) : Res :=
  .next (s.guard p (bankIdx b) (1 + b % 8) v.toNat (fun s => s.doBankPower b v.toNat))

/-- BANK_TRANSITION_DONE (R458): the banks of a group change one at a time, in ascending order. -/
def execBankTransitionDone (b : Fin 96) (s : State) : Res :=
  .next (if s.changing b && (List.range (b.val % 8)).all (fun k => !s.changing (b.val / 8 * 8 + k)) then s.bankStep b
         else s)

/-- Words of ON banks among the keys of an error table. -/
def State.scrubbable (s : State) (t : Tbl Bool) : List Nat :=
  (t.map (·.1)).filter (fun k => inBank (8 * k) && s.bankOn (8 * k / 0x10_0000))

/-- SCRUB_PASS_START (R466): every word of every ON bank is read; single-bit errors are corrected, double-bit errors
counted and recorded under ID 0. -/
def execScrubPassStart (s : State) : Res :=
  .next (if s.n 0x2B00 6 ≠ 0 && !s.memc.scrubbing then
    let s := { s with memc := { s.memc with scrubbing := true } }
    let s := (s.scrubbable s.memc.sbe).foldl (fun s k => if s.hasDbe (8 * k) then s else s.correct (8 * k)) s
    (s.scrubbable s.memc.dbe).foldl (fun s k => s.meetDbe (8 * k) 0) s
  else s)

/-- SCRUB_PASS_DONE (R466). -/
def execScrubPassDone (s : State) : Res :=
  .next (if s.memc.scrubbing then
    (({ s with memc := { s.memc with scrubbing := false } }).cnt 0x2B00 7).event 0x2B00 9 0x20
  else s)

end Sys2Proof.Machine
end

