-- ==== Sys2Proof/Machine/WakeOps.lean ====
section
/-! DEFINITION. What a wake source does (R100, R102, R104, R105). -/

namespace Sys2Proof.Machine

/-- WAKE_SOURCES enables source `src` (R100); RESET_N always wakes. -/
def State.wakeOn (s : State) (src : Nat) : Bool := src = 8 || s.bit 0x2008 2 src

/-- A wake source fires (R105): latched during a transition, it starts the wake from Doze or Standby. -/
def State.wake (s : State) (src : Nat) : State :=
  if !s.wakeOn src then s
  else match s.pw.sleep with
    | .awake => s
    | .waking => s
    | .toDoze => { s with pw := { s.pw with wakeLatched := some (s.pw.wakeLatched.getD src) } }
    | .toStandby => { s with pw := { s.pw with wakeLatched := some (s.pw.wakeLatched.getD src) } }
    | .doze => { s with pw := { s.pw with sleep := .waking, wakeLatched := some src } }
    | .standby => { s with pw := { s.pw with wakeLatched := some (s.pw.wakeLatched.getD src) } }

end Sys2Proof.Machine
end

