-- ==== Sys2Proof/Machine/PortOps.lean ====
section
/-! DEFINITION. Ports: settings in force, link state, the fields of a frame, results and counters (spec/07). -/

namespace Sys2Proof.Machine

def bytePs (sp : Nat) : Nat := if rateOf sp = 0 then 0 else 8000000000 / rateOf sp

/-- A lane binding requested on port `p`: a receive source or a transmit destination (R116, R117). -/
def State.rxLaneOn (s : State) (p : Nat) : Bool := (List.range 32).any (fun e => s.rxSource e = p + 1)
def State.txLaneOn (s : State) (p : Nat) : Bool := (List.range 32).any (fun e => s.txDest e = p + 1)

/-- The enabled chord direction whose egress is port `p` (R170), by the setting in force. -/
def State.chordOf (s : State) (d : Nat) : Chord := tblGet (fun _ => {}) d s.chord
def State.setChord (s : State) (d : Nat) (x : Chord) : State := { s with chord := tblSet (fun _ => {}) d x s.chord }
def State.chordEgress (s : State) (p : Nat) : Option Nat :=
  (List.range 8).find? (fun d => (s.chordOf d).enable && (s.chordOf d).egress = p)

/-- Count in a port statistic [H] (R211). -/
def State.stat (s : State) (p j : Nat) : State := s.cntH (0x2310 + p) j (0x2300 + p) 0x19
def State.statAdd (s : State) (p j w k : Nat) : State := s.addH (0x2310 + p) j w k (0x2300 + p) 0x19

/-- Set an event of a port. -/
def State.portEvent (s : State) (p b : Nat) : State := s.event (0x2300 + p) 0x19 (2 ^ b)

/-! ### Frames -/

/-- Byte `i` of a frame, 0 beyond its end. -/
def at' (d : List Byte) (i : Nat) : Nat := (d.getD i 0).toNat

/-- The 16-bit field at byte `i`, most significant byte first. -/
def be16 (d : List Byte) (i : Nat) : Nat := at' d i * 256 + at' d (i + 1)

/-- The 48-bit MAC address at byte `i`, first octet in [47:40]. -/
def mac48 (d : List Byte) (i : Nat) : Nat := (List.range 6).foldl (fun a k => a * 256 + at' d (i + k)) 0

/-- Whether a VLAN tag follows the addresses (R207, R221), and where the EtherType lies. -/
def tagged (d : List Byte) : Bool := be16 d 12 = 0x8100 || be16 d 12 = 0x88A8
def etPos (d : List Byte) : Nat := if tagged d then 16 else 12
def etherType (d : List Byte) : Nat := be16 d (etPos d)

/-- The group bit of the destination, and the broadcast address. -/
def isGroup (d : List Byte) : Bool := at' d 0 % 2 = 1
def isBroadcast (d : List Byte) : Bool := mac48 d 0 = 2 ^ 48 - 1

/-- The size bucket of a length: its offset from the first bucket (R212, R216). -/
def bucket (n : Nat) : Nat :=
  if n ≤ 64 then 0 else if n ≤ 127 then 1 else if n ≤ 255 then 2 else if n ≤ 511 then 3 else if n ≤ 1023 then 4
  else if n ≤ 1518 then 5 else 6

/-- The results of a received frame (R202). -/
inductive RxResult where
  | runt | fragment | oversize | jabber | symbol | stomped | fcs | good
  deriving DecidableEq, Repr

/-- The FCS a frame carries, and whether it is right or its complement (R33, R202). `d` includes the FCS. -/
def carriedFcs (d : List Byte) : Word := BitVec.ofNat 32 (leNat (d.drop (d.length - 4)))
def fcsGood (d : List Byte) : Bool := 4 ≤ d.length && crc32 (d.take (d.length - 4)) = carriedFcs d
def fcsStomped (d : List Byte) : Bool := 4 ≤ d.length && ~~~ crc32 (d.take (d.length - 4)) = carriedFcs d

/-- The one result of a received frame, in the order of precedence of R202. `er` is the nibble RX_ER or a code violation
was first seen at. -/
def rxResult (d : List Byte) (er : Option Nat) (maxFrame : Nat) : RxResult :=
  let n := d.length
  let early : Bool := match er with | some k => decide (k + 8 < 2 * n) | none => false
  if n < 64 then (if fcsGood d && er.isNone then .runt else .fragment)
  else if maxFrame < n then (if fcsGood d && er.isNone then .oversize else .jabber)
  else if early then .symbol
  else if fcsStomped d || er.isSome then .stomped
  else if !fcsGood d then .fcs
  else .good

/-- The counters a result changes (R202, R212). -/
def State.countRx (s : State) (p : Nat) (d : List Byte) (r : RxResult) : State :=
  let size := fun (s : State) => s.stat p (4 + bucket d.length)
  match r with
  | .runt => s.stat p 0xE
  | .fragment => s.stat p 0xF
  | .oversize => s.stat p 0x10
  | .jabber => s.stat p 0x11
  | .symbol => size (s.stat p 0xD)
  | .stomped => size ((s.stat p 0xC).stat p 0xB)
  | .fcs => size (s.stat p 0xB)
  | .good =>
    let s := size ((s.stat p 1).statAdd p 0x28 64 d.length)
    if isBroadcast d then s.stat p 2 else if isGroup d then s.stat p 3 else s

/-- Lane END STATUS of a result (R120, R202). -/
def RxResult.status : RxResult → Nat
  | .stomped => 2
  | .fcs => 1
  | .good => 0
  | .runt => 4
  | .fragment => 4
  | .oversize => 4
  | .jabber => 4
  | .symbol => 4

/-! ### Transmit -/

/-- Frame padded to 60 bytes (R200). -/
def pad60 (d : List Byte) : List Byte := d ++ zeros (60 - d.length)

/-- Nanoseconds a frame of `n` bytes without FCS occupies the wire, preamble and SFD included, rounded up. -/
def wireNs (sp n : Nat) : Nat := ((8 + max n 60 + 4) * bytePs sp + 999) / 1000

/-- Egress timestamp of a frame whose preamble begins now at `phase` (R205): 8 byte times to the first nibble after the
SFD, plus TX_LATENCY. -/
def State.egressStamp (s : State) (p phase : Nat) : Nat :=
  let d := s.txCfg p 0x14
  s.stampAt d 0 phase (8 * (bytePs (s.speedOf p) : Int) + sint (s.txCfg p 0x16))

/-- A frame begins on port `p`'s transmitter. -/
def State.beginTx (s : State) (p phase : Nat) (c : TxCur) : State :=
  let t := s.egressStamp p phase
  s.setPort p { s.port p with cur := some { c with tsNs := t / 4 % 2 ^ 64, tsFrac := t % 4 } }

/-- The wire is free for another frame. -/
def State.txIdle (s : State) (p : Nat) : Bool := (s.port p).cur.isNone && s.linkUp p

end Sys2Proof.Machine
end

