-- ==== Sys2Proof/Machine/SwitchOps.lean ====
section
/-! DEFINITION. The switch's buffer: cells, queues, charges, counts for flow control, and the discard of frames
(R225–R231, R235). -/

namespace Sys2Proof.Machine

/-- Replace the switch's state beyond its objects. -/
def State.setSw (s : State) (f : Switch → Switch) : State := { s with sw := f s.sw }

/-- The switch forwards (R250). -/
def State.swOn (s : State) : Bool := s.n 0x2200 1 = 1

/-- Count an [H] counter of the switch globals, and of the drops of queue (st, c) (R250, R251). -/
def State.swCnt (s : State) (j : Nat) : State := s.cntH 0x2200 j 0x2200 0xF
def State.swEvent (s : State) (b : Nat) : State := s.event 0x2200 0xF (2 ^ b)
def State.drop (s : State) (st c : Nat) : State := s.cntH (0x2230 + st) (1 + c) 0x2200 0xF

/-- The queue of station `st`, class `c`. -/
def State.queue (s : State) (st c : Nat) : List QEntry := tblGet (fun _ => []) (st * 8 + c) s.sw.queues
def State.setQueue (s : State) (st c : Nat) (l : List QEntry) : State :=
  s.setSw (fun w => { w with queues := tblSet (fun _ => []) (st * 8 + c) l w.queues })

/-- A stored frame. -/
def State.frame (s : State) (f : Nat) : SwFrame := tblGet (fun _ => {}) f s.sw.frames
def State.setFrame (s : State) (f : Nat) (x : SwFrame) : State :=
  s.setSw (fun w => { w with frames := tblSet (fun _ => {}) f x w.frames })

/-- USED and RESERVED of a queue (R229). -/
def State.used (s : State) (st c : Nat) : Nat := s.n (0x2210 + st) (9 + c)
def State.reserved (s : State) (st c : Nat) : Nat := fieldOf (s.n (0x2210 + st) (1 + c)) 0 16
def State.startMode (s : State) (st c : Nat) : Nat := fieldOf (s.n (0x2210 + st) (1 + c)) 16 2

/-- Set USED; SHARED_FREE follows the unused reservation (R229). -/
def State.setUsed (s : State) (st c u : Nat) : State :=
  let r := s.reserved st c
  let old := r - s.used st c
  (s.wr (0x2210 + st) (9 + c) u).wr 0x2200 5 (s.n 0x2200 5 + old - (r - u))

/-- A write of QUEUE_c: SHARED_FREE follows RESERVED (R229). -/
def State.writeQueue (s : State) (st c v : Nat) : State :=
  let old := s.reserved st c - s.used st c
  let s := s.wr (0x2210 + st) (1 + c) v
  s.wr 0x2200 5 (s.n 0x2200 5 + old - (s.reserved st c - s.used st c))

/-! ### Gates and shapers (R238–R241) -/

def State.setGate (s : State) (p : Nat) (g : GateCtl) : State :=
  s.setSw (fun w => { w with gates := tblSet (fun _ => {}) p g w.gates })

/-- States of the entry a list stands at; a list that is not running gives `dflt` (log entry 28). -/
def GateCtl.states (c : GateCtl) (dflt : Nat) : Nat :=
  match c.oper[c.idx]? with | some e => e.1 | none => dflt

/-- The open gates of port `p`; all of them with GATE_ENABLE = 0. -/
def State.openGates (s : State) (p : Nat) : Nat := if s.n (0x2260 + p) 1 = 0 then 0xFF else (s.gate p).states 0xFF

/-- When entry `idx` of a list ends: its interval later, at the cycle's end for the last entry, and never after the
cycle's end (R238). -/
def entryEnd (l : List (Nat × Nat × Nat)) (cycle idx start cycleAt : Nat) : Nat :=
  match l[idx]? with
  | some e => if idx + 1 = l.length then cycleAt + cycle else min (start + e.2.2) (cycleAt + cycle)
  | none => cycleAt + cycle

/-- When the gate of class `c` closes next, walking the running list and then the pending one; none when it stays open
over the whole list. -/
def closeWalk (c : Nat) : Nat → List (Nat × Nat × Nat) → Nat → Nat → Nat → Nat →
    Option (List (Nat × Nat × Nat) × Nat × Nat) → Option Nat
  | 0, _, _, _, _, _, _ => none
  | k + 1, l, cycle, idx, start, cycleAt, pend =>
    match l[idx]? with
    | none => none
    | some e =>
      if !bitOf e.1 c then some start
      else
        let t := entryEnd l cycle idx start cycleAt
        match pend with
        | some (l', cy', at') =>
          if at' ≤ t then closeWalk c k l' cy' 0 at' at' none
          else if t = cycleAt + cycle then closeWalk c k l cycle 0 t t pend else closeWalk c k l cycle (idx + 1) t cycleAt pend
        | none =>
          if t = cycleAt + cycle then closeWalk c k l cycle 0 t t pend else closeWalk c k l cycle (idx + 1) t cycleAt pend

/-- A frame of class `c` that lasts `ns` from now ends before its gate closes (R240). -/
def State.fitsGate (s : State) (p c ns : Nat) : Bool :=
  if s.n (0x2260 + p) 1 = 0 then true
  else
    let g := s.gate p
    let n := 2 * g.oper.length + (match g.pend with | some x => 2 * x.1.length | none => 0) + 2
    match closeWalk c n g.oper g.cycle g.idx g.entryAt g.cycleAt g.pend with
    | none => true
    | some t => s.now64 (s.txCfg p 0x14) + ns ≤ t

/-- The credit of a class after `dt` ticks (R241, IEEE 802.1Qav), in 10^-6 bit: it falls at sendSlope while the class
transmits, rises at idleSlope while frames wait or it is below 0, and is at most 0 with nothing to send. -/
def creditAfter (credit : Int) (idle rate maxFrame dt : Nat) (sending waiting : Bool) : Int :=
  let bits : Int := maxFrame * 8000000
  if sending then max (credit + ((idle : Int) - rate) * 2 * dt) (bits * ((idle : Int) - rate) / rate)
  else if waiting then min (credit + (idle : Int) * 2 * dt) (bits * idle / rate)
  else min 0 (credit + (idle : Int) * 2 * dt)

/-- Bring the credits of port `p` up to the present tick; a closed gate freezes them. -/
def State.touchCredit (s : State) (p : Nat) : State :=
  let g := s.port p
  let rate := rateOf (s.speedOf p)
  let shaped := (List.range 8).filter (fun c => (s.od.any (fun e => e.1 = odKey (0x2270 + p) (c + 1))))
  let cr := shaped.foldl (fun t c =>
    let idle := s.n (0x2270 + p) (c + 1)
    let sending := match g.cur with | some x => x.cls = c && x.src ≠ .pause | none => false
    if rate = 0 || !bitOf (s.openGates p) c then t
    else tblSet (fun _ => 0) c (creditAfter (tblGet (fun _ => 0) c t) idle rate (s.txCfg p 0xC) (s.ticks - g.creditAt)
      sending (!(s.queue p c).isEmpty)) t) g.credit
  if shaped.isEmpty then s else s.setPort p { g with credit := cr, creditAt := s.ticks }

/-- The test of R229. -/
def admits (used reserved n shared : Nat) (alpha : Int) : Bool :=
  let before := used - reserved
  let after := used + n - reserved
  let surplus := after - before
  if surplus = 0 then true
  else if shared < surplus then false
  else
    let limit := if 0 ≤ alpha then shared * 2 ^ alpha.toNat else shared / 2 ^ (-alpha).toNat
    after ≤ limit

/-- Cells of `n` bytes. -/
def cellsOf (n : Nat) : Nat := (n + 127) / 128

/-- Where cell `n` lies (R225). -/
def State.cellAt (s : State) (n : Nat) : Nat :=
  let banks := fieldOf (s.n 0x2200 2) 8 6
  (fieldOf (s.n 0x2200 2) 0 7 + n % banks) * 0x10_0000 + n / banks * 128

/-- Take the head of the free list (R227). -/
def State.takeCell (s : State) : Option (Nat × State) :=
  if s.sw.freeNext < s.n 0x2200 3 then
    some (s.sw.freeNext, (s.setSw (fun w => { w with freeNext := w.freeNext + 1 })).wr 0x2200 4 (s.n 0x2200 4 - 1))
  else match s.sw.freed with
    | [] => none
    | c :: t => some (c, (s.setSw (fun w => { w with freed := t })).wr 0x2200 4 (s.n 0x2200 4 - 1))

/-- Append cells at the tail of the free list. -/
def State.freeCells (s : State) (l : List Nat) : State :=
  (s.setSw (fun w => { w with freed := w.freed ++ l })).wr 0x2200 4 (s.n 0x2200 4 + l.length)

/-- Change the free cells and SHARED_FREE together: what is free and not reserved is shared (R229). -/
def State.shareCells (s : State) (d : Int) : State := s.wr 0x2200 5 ((s.n 0x2200 5 : Int) + d).toNat

/-- Cells held by frames of ingress `p` and class `c` (R230). -/
def State.cellsHeld (s : State) (p c : Nat) : Nat := tblGet (fun _ => 0) (p * 8 + c) s.sw.held

/-- The pause frame with these quanta, or the PFC frame that sets the classes of `m` to them (R208, R209). -/
def State.pauseFrame (s : State) (p quanta m : Nat) (pfc : Bool) : List Byte :=
  let mac := (List.range 6).map (fun k => BitVec.ofNat 8 (s.portN p 0xA / 256 ^ (5 - k)))
  let q : List Byte := [BitVec.ofNat 8 (quanta / 256), BitVec.ofNat 8 quanta]
  [0x01, 0x80, 0xC2, 0x00, 0x00, 0x01] ++ mac ++ [0x88, 0x08] ++
  (if pfc then
    [0x01, 0x01, 0x00, BitVec.ofNat 8 m] ++ (List.range 8).flatMap (fun c => if bitOf m c then q else [0, 0])
  else [0x00, 0x01] ++ q)

/-- The port sends flow-control requests for class `c` (R209). -/
def State.fcSends (s : State) (p c : Nat) : Bool :=
  let pc := s.txCfg p 0xD
  if bitOf pc 2 then bitOf pc (16 + c) else bitOf pc 1

/-- Queue a request for class `c` of port `p` (R209); an enabled chord egress carries only chord frames (R170). -/
def State.queuePause (s : State) (p c quanta : Nat) : State :=
  if s.fcSends p c && s.linkUp p && (s.chordEgress p).isNone then
    let pfc := bitOf (s.txCfg p 0xD) 2
    let g := s.port p
    s.setPort p { g with pauseQ := g.pauseQ ++ [(s.pauseFrame p quanta (2 ^ c) pfc, pfc)] }
  else s

/-- Flow control follows the cells held (R230): asserted at XOFF with a request of PAUSE_QUANTA, released at XON with one
of 0 quanta. Under 802.3 pause, which has no classes, the release waits for the last class (log entry 27). -/
def State.flowControl (s : State) (p c : Nat) : State :=
  let i := 0x2250 + p
  let held := s.cellsHeld p c
  if p ≥ 12 then s
  else if !s.bit i 7 c && s.n i 5 ≤ held then (s.setBit i 7 c).queuePause p c (s.portN p 0xE)
  else if s.bit i 7 c && held ≤ s.n i 6 then
    let s := s.clrBits i 7 (2 ^ c)
    if bitOf (s.txCfg p 0xD) 2 || s.n i 7 = 0 then s.queuePause p c 0 else s
  else s

/-- Count cells taken (or given back) by frames of ingress `p`, class `c`. -/
def State.addHeld (s : State) (p c : Nat) (d : Int) : State :=
  (s.setSw (fun w => { w with held := tblSet (fun _ => 0) (p * 8 + c) ((s.cellsHeld p c : Int) + d).toNat w.held })).flowControl p c

/-- Store bytes of frame `f` into new cells, each with its CRC-32C (R226). -/
def State.storeCells (s : State) (f : Nat) : Nat → List Byte → State
  | 0, _ => s
  | k + 1, d =>
    if d.isEmpty then s
    else match s.takeCell with
      | none => s
      | some (c, s) =>
        let part := d.take 128
        let s := s.setBytes (s.cellAt c) part
        let x := s.frame f
        let s := s.setFrame f { x with cells := x.cells ++ [c], checks := x.checks ++ [crc32c part] }
        ((s.shareCells (-1)).addHeld x.ingress x.cls 1).storeCells f k (d.drop 128)

/-- The bytes of a stored frame as an egress reads them, and whether every cell passes its check and reads without a
double-bit error (R30, R234). -/
def State.readCells (s : State) : List Nat → List Word → Nat → List Byte × Bool
  | c :: cs, k :: ks, n =>
    let part := s.bytes (s.cellAt c) (min n 128)
    let ok := crc32c part = k && !(List.range 16).any (fun j => s.hasDbe (s.cellAt c + 8 * j))
    let r := s.readCells cs ks (n - 128)
    (part ++ r.1, ok && r.2)
  | _, _, _ => ([], true)

/-- Free a frame whose last share is gone. -/
def State.freeFrame (s : State) (f : Nat) : State :=
  let x := s.frame f
  let s := (s.freeCells x.cells).shareCells x.cells.length
  let s := s.setSw (fun w => { w with frames := tblDel f w.frames })
  s.addHeld x.ingress x.cls (-(x.cells.length : Int))

/-- One queue or egress gives up its share of a frame (R231); the last one frees it, unless it still arrives. -/
def State.unref (s : State) (f : Nat) : State :=
  let x := s.frame f
  if x.refs ≤ 1 && x.len ≠ 0 then s.freeFrame f else s.setFrame f { x with refs := x.refs - 1 }

/-- A queue's entry is gone: its charge and its entry return (R229). -/
def State.releaseEntry (s : State) (st c : Nat) (e : QEntry) : State :=
  ((s.setUsed st c (s.used st c - e.charge)).wr 0x2200 6 (s.n 0x2200 6 + 1)).unref e.frame

/-- Discard every frame of queue (st, c), each counted as a drop (R235). -/
def State.flushQueue (s : State) (st c : Nat) : State :=
  (s.queue st c).foldl (fun s e => (s.drop st c).releaseEntry st c e) (s.setQueue st c [])

/-- Discard every frame queued for station `st`. -/
def State.flushStation (s : State) (st : Nat) : State := (List.range 8).foldl (fun s c => s.flushQueue st c) s

/-- The switch is disabled or reset: every buffered frame is discarded and the free list rebuilt (R87, R225). -/
def State.switchClear (s : State) : State :=
  let s := (List.range 22).foldl (fun s st =>
    (List.range 8).foldl (fun s c => if (s.queue st c).isEmpty && s.used st c = 0 then s else s.setUsed st c 0) s) s
  let total := fieldOf (s.n 0x2200 2) 8 6 * 8192
  let reserved := ((List.range 176).map (fun q => s.reserved (q / 8) (q % 8))).sum
  let s := ((((s.wr 0x2200 3 total).wr 0x2200 4 total).wr 0x2200 5 (total - reserved)).wr 0x2200 6 131072)
  let s := s.setSw (fun w => { w with frames := [], queues := [], freeNext := 0, freed := [], held := [] })
  let s := (List.range 12).foldl (fun s p => if s.n (0x2250 + p) 7 = 0 then s else s.wr (0x2250 + p) 7 0) s
  (List.range 12).foldl (fun s p =>
    let g := s.port p
    let cur := match g.cur with | some c => if c.src = .queue then none else some c | none => none
    if g.ctx.isSome || g.cur.isSome then s.setPort p { g with ctx := none, cur := cur } else s) s

/-- The link of port `p` goes down or the port is disabled (R199, R235): the frame in transmission is lost and counts as
a drop of its queue, queued frames are discarded, and the link partner's pauses end. -/
def State.dropPortFrames (s : State) (p : Nat) : State :=
  let s := match (s.port p).cur with
    | some c =>
      let s := s.setPort p { s.port p with cur := none }
      (match c.entry with
      | some e => (s.drop p c.cls).releaseEntry p c.cls e
      | none =>
        match c.src with
        | .lane _ => s.drop p c.cls
        | .launch _ => s.drop p c.cls
        | _ => s)
    | none => s
  let s := s.flushStation p
  s.setPort p { s.port p with pauseQ := [], paused := 0, ignored := 0, pauseReq := none }

end Sys2Proof.Machine
end

