-- ==== Sys2Proof/Machine/SwitchIn.lean ====
section
/-! DEFINITION. The way of a frame into the switch: classification, streams, redundancy, lookup, pruning, admission and
the end of its storing (R219–R224, R228–R234, R242–R244, R369). -/

namespace Sys2Proof.Machine

/-- Class and VID of a frame from port `p` (R221). -/
def State.classify (s : State) (p : Nat) (d : List Byte) : Nat × Nat :=
  let def' := s.n (0x2250 + p) 2
  let tci := be16 d 14
  let vid := if tagged d && tci % 4096 ≠ 0 then tci % 4096 else fieldOf def' 0 12
  let pcp := if tagged d then tci / 8192 else fieldOf def' 12 3
  (fieldOf (s.n (0x2250 + p) 1) (4 * pcp) 3, vid)

/-- VID of a frame from a ring station (R221). -/
def ringVid (d : List Byte) : Nat := if tagged d && be16 d 14 % 4096 ≠ 0 then be16 d 14 % 4096 else 1

/-! ### Streams (R242–R244) -/

/-- The stream of a frame: the lowest-numbered match (R242). -/
def State.streamOf (s : State) (ingress vid : Nat) (d : List Byte) : Option Nat :=
  (s.sw.streams.find? (fun (_, t) =>
    let kind := fieldOf t.ident 12 2
    fieldOf t.ident 0 12 = vid && (bitOf t.ident 21 || fieldOf t.ident 16 5 = ingress) &&
    ((kind = 1 && mac48 d 0 = t.mac) || (kind = 2 && mac48 d 6 = t.mac)))).map (·.1)

def State.stream (s : State) (h : Nat) : Stream := tblGet (fun _ => {}) h s.sw.streams
def State.setStream (s : State) (h : Nat) (x : Stream) : State :=
  s.setSw (fun w => { w with streams := tblSet (fun _ => {}) h x w.streams })

/-- A stream needs the whole length of its frames (R233). -/
def Stream.needsWhole (t : Stream) : Bool := bitOf t.filter 16 || fieldOf t.filter 18 14 ≠ 0

/-- Add one to an [H] counter a table entry keeps: the value, and whether HALF_RANGE is raised (R61). -/
def bump (a : Nat) : Nat × Bool := ((a + 1) % 2 ^ 32, a / 2 ^ 31 ≠ (a + 1) / 2 ^ 31)
def State.halfIf (s : State) (b : Bool) : State := if b then s.swEvent 31 else s

def State.sgate (s : State) (g : Nat) : SGate := tblGet (fun _ => {}) g s.sw.sgates
def State.setSgate (s : State) (g : Nat) (x : SGate) : State :=
  s.setSw (fun w => { w with sgates := tblSet (fun _ => {}) g x w.sgates })

def State.meter (s : State) (m : Nat) : Meter := tblGet (fun _ => {}) m s.sw.meters
def State.setMeter (s : State) (m : Nat) (x : Meter) : State :=
  s.setSw (fun w => { w with meters := tblSet (fun _ => {}) m x w.meters })

/-- Tokens fill at CIR and EIR since the last frame; with COUPLING what overflows the committed bucket goes to the
excess bucket (R243). -/
def Meter.fill (m : Meter) (now : Nat) : Meter :=
  let dt := now - m.at'
  let cMax := m.cbs * 8000000
  let eMax := m.ebs * 8000000
  let c := m.cTok + m.cir * 2 * dt
  let extra := if bitOf m.mode 1 then c - cMax else 0
  { m with cTok := min c cMax, eTok := min (m.eTok + m.eir * 2 * dt + extra) eMax, at' := now }

/-- Colour of a frame of `n` bytes: 0 green, 1 yellow, 2 red (R243). -/
def Meter.colour (m : Meter) (n : Nat) (yellowIn : Bool) : Nat × Meter :=
  let u := n * 8000000
  if m.allRed && bitOf m.mode 3 then (2, m)
  else if !(bitOf m.mode 0 && yellowIn) && u ≤ m.cTok then (0, { m with cTok := m.cTok - u })
  else if u ≤ m.eTok then (1, { m with eTok := m.eTok - u })
  else (2, { m with allRed := m.allRed || bitOf m.mode 3 })

/-- The meter passes or discards a frame and counts its colour (R243). -/
def State.metered (s : State) (mi n : Nat) (yellowIn : Bool) : Bool × State :=
  let r := ((s.meter mi).fill s.ticks).colour n yellowIn
  let c := r.1
  let m := r.2
  let b := bump (if c = 0 then m.green else if c = 1 then m.yellow else m.red)
  let m := if c = 0 then { m with green := b.1 } else if c = 1 then { m with yellow := b.1 } else { m with red := b.1 }
  (c = 0 || (c = 1 && !bitOf m.mode 2), (s.setMeter mi m).halfIf b.2)

/-- The stream filter: stream gate with its IPV, size, meter (R242, R243). Answers whether the frame passes, its class
and the state. `n` is the frame's length with its FCS when it is known. -/
def State.filterStream (s : State) (h cls n : Nat) (yellowIn : Bool) : Bool × Nat × State :=
  let t := s.stream h
  let b := bump t.matched
  let t := { t with matched := b.1 }
  let s := (s.setStream h t).halfIf b.2
  let ge := bitOf t.filter 6
  let gs := (s.sgate (fieldOf t.filter 0 6)).ctl.states 1
  let cls := if ge && bitOf gs 4 then fieldOf gs 1 3 else cls
  let sdu := fieldOf t.filter 18 14
  if ge && !bitOf gs 0 then
    let b := bump t.gateDisc
    (false, cls, (s.setStream h { t with gateDisc := b.1 }).halfIf b.2)
  else if t.blocked || (sdu ≠ 0 && sdu < n) then
    let b := bump t.sduDisc
    let block := bitOf t.filter 17 && !t.blocked
    let s := (s.setStream h { t with sduDisc := b.1, blocked := t.blocked || block }).halfIf b.2
    (false, cls, if block then s.swEvent 7 else s)
  else
    let r := if bitOf t.filter 16 then s.metered (fieldOf t.filter 8 8) n yellowIn else (true, s)
    if r.1 then
      let b := bump t.passed
      (true, cls, (r.2.setStream h { t with passed := b.1 }).halfIf b.2)
    else (false, cls, r.2)

/-! ### 802.1CB (R244) -/

def State.cb (s : State) (h : Nat) : Cb := tblGet (fun _ => {}) h s.sw.cbs
def State.setCb (s : State) (h : Nat) (x : Cb) : State :=
  s.setSw (fun w => { w with cbs := tblSet (fun _ => {}) h x w.cbs })

/-- An R-TAG stands after the VLAN tag or the addresses; its sequence number (R244). -/
def hasRtag (d : List Byte) : Bool := etherType d = 0xF1C1
def rtagSeq (d : List Byte) : Nat := be16 d (etPos d + 4)

/-- Ones among the low `n` history bits that are about to be shifted out unseen count as lost. -/
def lostBits (hist len k : Nat) : Nat :=
  ((List.range (min k len)).filter (fun j => !bitOf hist (len - 1 - j))).length + (k - min k len)

/-- Recovery of a frame with sequence number `q` (R244): whether it passes, and the new state. -/
def Cb.recover (c : Cb) (q : Nat) : Bool × Cb :=
  let len := max 1 (fieldOf c.func 4 6)
  let d := (BitVec.ofNat 16 q - BitVec.ofNat 16 c.recovSeq).toInt
  let pass := fun (c : Cb) => (true, { c with passed := (c.passed + 1) % 2 ^ 32 })
  let disc := fun (c : Cb) => (false, { c with discarded := (c.discarded + 1) % 2 ^ 32 })
  if c.takeAny then pass { c with takeAny := false, recovSeq := q, history := 1 }
  else if bitOf c.func 2 then
    if d = 0 then disc c
    else pass { c with recovSeq := q, outOfOrder := if d = 1 then c.outOfOrder else (c.outOfOrder + 1) % 2 ^ 32 }
  else if (len : Int) ≤ d ∨ d ≤ -(len : Int) then disc { c with rogue := (c.rogue + 1) % 2 ^ 32 }
  else if d ≤ 0 then
    let k := (-d).toNat
    if bitOf c.history k then disc c
    else pass { c with history := c.history + 2 ^ k, outOfOrder := (c.outOfOrder + 1) % 2 ^ 32 }
  else
    let k := d.toNat
    pass { c with
      recovSeq := q
      lost := (c.lost + lostBits c.history len k) % 2 ^ 32
      history := (c.history * 2 ^ k + 1) % 2 ^ len
      outOfOrder := if k = 1 then c.outOfOrder else (c.outOfOrder + 1) % 2 ^ 32 }

/-- Step 3 of R220: a recovering stream discards duplicates; a frame without an R-TAG passes (log entry 29). -/
def State.recoverStep (s : State) (h : Nat) (d : List Byte) : Bool × State :=
  let c := s.cb h
  if h < 256 && bitOf c.func 1 && hasRtag d then
    let r := c.recover (rtagSeq d)
    let half := c.passed / 2 ^ 31 ≠ r.2.passed / 2 ^ 31 || c.discarded / 2 ^ 31 ≠ r.2.discarded / 2 ^ 31 ||
      c.outOfOrder / 2 ^ 31 ≠ r.2.outOfOrder / 2 ^ 31 || c.rogue / 2 ^ 31 ≠ r.2.rogue / 2 ^ 31 ||
      c.lost / 2 ^ 31 ≠ r.2.lost / 2 ^ 31
    (r.1, (s.setCb h r.2).halfIf half)
  else (true, s)

/-! ### Forwarding database (R222) -/

/-- The bucket of an address and VID: CRC-32C over the address in wire order and the VID's three nibbles, lowest first
(log entry 30). -/
def fdbBucket (mac vid : Nat) : Nat :=
  let b := (List.range 6).map (fun k => BitVec.ofNat 8 (mac / 256 ^ (5 - k)))
  let v : List Nib := (List.range 3).map (fun k => BitVec.ofNat 4 (vid / 16 ^ k))
  (crcFold 1 0xFFFFFFFF (nibsOf b ++ v) ^^^ 0xFFFFFFFF).toNat % 2048

def State.fdbAt (s : State) (e : Nat) : Option FdbEntry := (s.sw.fdb.find? (fun p => p.1 = e)).map (·.2)
def State.setFdb (s : State) (e : Nat) (x : FdbEntry) : State :=
  s.setSw (fun w => { w with fdb := tblIns e x (tblDel e w.fdb) })

/-- ENTRIES_USED follows the table (R253). -/
def State.showFdb (s : State) : State := s.wr 0x2290 0xA s.sw.fdb.length

/-- The entry of an address and VID, and a free slot of its bucket. -/
def State.fdbFind (s : State) (mac vid : Nat) : Option Nat :=
  (List.range 4).map (fdbBucket mac vid * 4 + ·) |>.find? (fun e =>
    match s.fdbAt e with | some x => x.mac = mac && x.vid = vid | none => false)
def State.fdbFree (s : State) (mac vid : Nat) : Option Nat :=
  (List.range 4).map (fdbBucket mac vid * 4 + ·) |>.find? (fun e => (s.fdbAt e).isNone)

/-- A good frame from port `p` inserts or refreshes its source (R222). -/
def State.learn (s : State) (p mac vid : Nat) : State :=
  if s.n (0x2250 + p) 3 = 0 then s
  else match s.fdbFind mac vid with
    | some e =>
      (match s.fdbAt e with
      | some x => if x.isStatic then s else s.setFdb e { x with mask := 2 ^ p, at' := s.ticks }
      | none => s)
    | none =>
      match s.fdbFree mac vid with
      | some e => (s.setFdb e { mac := mac, vid := vid, mask := 2 ^ p, at' := s.ticks }).showFdb
      | none => (s.cnt 0x2290 0xB).swEvent 4

/-- The destination mask of a lookup; a ring station has no flood mask (R222, log entry 32). -/
def State.lookup (s : State) (p mac vid : Nat) : Nat :=
  match s.fdbFind mac vid with
  | some e => (match s.fdbAt e with | some x => x.mask | none => 0)
  | none => if p < 12 then s.n (0x2250 + p) 4 else 0

/-! ### Lattice frames (R366, R369) -/

/-- Port `p` is a Lattice link (R366). -/
def State.isLink (s : State) (p : Nat) : Bool := s.n 0x2800 1 = 1 && p < 12 && s.bit 0x2800 3 p

/-- The frame carries the Lattice EtherType on a link; its destination makes it a Lattice frame (R366). -/
def State.latticeType (s : State) (p : Nat) (d : List Byte) : Bool := s.isLink p && etherType d = s.n 0x2800 2
def State.latticeMine (s : State) (p : Nat) (d : List Byte) : Bool :=
  mac48 d 0 = s.portN p 0xA || mac48 d 0 = s.n 0x2800 4

/-- Count a Lattice counter [H] (R395). -/
def State.latCnt (s : State) (j : Nat) : State := s.cntH 0x2821 j 0x2800 0x10

/-- A next hop of a route entry that can be used now: VALID, its port's link up, its neighbour up. -/
def State.hopUp (s : State) (valid : Bool) (port hop : Nat) : Bool :=
  valid && s.linkUp port && s.n (0x2810 + hop) 1 = 2

/-- The port a Lattice frame for `a` leaves by (R369, R380). -/
def State.routeFor (s : State) (a : Nat) : Option Nat :=
  let e := tblGet (fun _ => 0) a s.lat.routes
  if s.hopUp (bitOf e 9) (fieldOf e 0 5) (fieldOf e 5 4) then some (fieldOf e 0 5)
  else if s.hopUp (bitOf e 19) (fieldOf e 10 5) (fieldOf e 15 4) then some (fieldOf e 10 5)
  else none

/-- Destination set of a Lattice frame received on a link, or the counter that its discard changes (R369). -/
def State.latticeDest (s : State) (d : List Byte) : Nat ⊕ List Nat :=
  let h := etPos d + 2
  let dest := be16 d (h + 2)
  if 8 ≤ at' d (h + 6) / 16 ∨ at' d h / 16 ≠ 1 then .inl 7
  else if dest = 0 ∨ dest = 0xFFFF ∨ dest = s.n 0x2802 1 then .inr [13]
  else if 1023 < dest then .inl 7
  else if at' d (h + 1) ≤ 1 then .inl 4
  else match s.routeFor dest with | some p => .inr [p] | none => .inl 3

/-! ### Pruning and admission (R223, R228–R233) -/

/-- A destination stays in the set (R223). -/
def State.reachable (s : State) (ingress cls t : Nat) : Bool :=
  t ≠ ingress && t < 22 &&
  (if t < 12 then s.linkUp t && s.portN t 1 = 1 && (s.chordEgress t).isNone
   else s.bit (0x22A0 + (t - 12)) (1 + cls) 4)

/-- Stations of a mask. -/
def stationsOf (m : Nat) : List Nat := (List.range 22).filter (bitOf m)

/-- The destinations whose queues accept a frame of charge `n`, all tested against the counts as they stand (R228,
R229, R231). -/
def State.accepting (s : State) (dests : List Nat) (cls n : Nat) : List Nat :=
  let shared := s.n 0x2200 5
  let alpha := sint (s.n 0x2200 7)
  let ok := (dests.filter (fun t => admits (s.used t cls) (s.reserved t cls) n shared alpha)).take (s.n 0x2200 6)
  if s.bit 0x2200 8 cls && ok.length ≠ dests.length then [] else ok

/-- Put an entry at the tail of queue (t, its class) with its charge. -/
def State.enqueue (s : State) (t : Nat) (e : QEntry) : State :=
  let s := if t < 12 then s.touchCredit t else s
  let s := s.setQueue t e.cls (s.queue t e.cls ++ [e])
  (s.setUsed t e.cls (s.used t e.cls + e.charge)).wr 0x2200 6 (s.n 0x2200 6 - 1)

/-- Admit a frame to `dests` under class `cls` with charge `n` (R229–R231): the frame's number when some queue accepts
it. `mk` makes the entry of each destination. -/
def State.admitFrame (s : State) (ingress cls n : Nat) (dests : List Nat) (mk : Nat → QEntry) : Option Nat × State :=
  let ok := s.accepting dests cls n
  let bad := if ok.isEmpty then dests else dests.filter (fun t => !ok.contains t)
  let s := bad.foldl (fun s t => s.drop t cls) s
  if ok.isEmpty then (none, s)
  else
    let f := s.sw.nextFrame
    let s := s.setSw (fun w => { w with nextFrame := w.nextFrame + 1 })
    let s := s.setFrame f { refs := ok.length, ingress := ingress, cls := cls }
    (some f, ok.foldl (fun s t => s.enqueue t { mk t with frame := f, ingress := ingress, cls := cls, charge := n }) s)

/-- What steps 1 to 5 of R220 make of a frame: its class, its stream, its destinations after pruning, and R-TAG work;
none when it is discarded on the way. -/
structure Way where
  cls : Nat
  stream : Option Nat
  dests : List Nat
  rtagInsert : Bool
  rtagRemove : Bool
  rtagSeq : Nat
  deriving DecidableEq, Repr

/-- Steps 2 to 4 of R220 for a frame of class `cls` and VID `vid`; `n` is its length with FCS. -/
def State.streamSteps (s : State) (ingress cls vid n : Nat) (d : List Byte) : Option (Nat × Option Nat) × State :=
  match s.streamOf ingress vid d with
  | none => (some (cls, none), s)
  | some h =>
    let r := s.recoverStep h d
    if !r.1 then (none, r.2)
    else
      let q := r.2.filterStream h cls n (tagged d && bitOf (be16 d 14) 12)
      if q.1 then (some (q.2.1, some h), q.2.2) else (none, q.2.2)

/-- Generation for a passed frame of stream `h` (R244): the sequence number, the replication mask and R-TAG work. -/
def State.cbEgress (s : State) (h : Option Nat) (d : List Byte) : Option Nat × Bool × Bool × Nat × State :=
  match h with
  | none => (none, false, false, 0, s)
  | some k =>
    let c := s.cb k
    let remove := k < 256 && bitOf c.func 1 && hasRtag d
    if k < 256 && bitOf c.func 0 then
      (some c.mask, true, remove, c.genSeq, s.setCb k { c with genSeq := (c.genSeq + 1) % 2 ^ 16 })
    else (none, false, remove, 0, s)

/-- Step 5: destinations from `mask` (a descriptor's), replication, the Lattice rule or the lookup, then pruning. -/
def State.wayOf (s : State) (ingress cls vid n mask : Nat) (d : List Byte) (filtered : Bool) : Option Way × State :=
  let r := if filtered then s.streamSteps ingress cls vid n d else (some (cls, none), s)
  match r.1 with
  | none => (none, r.2)
  | some (cls, h) =>
    let (rep, ins, rem, seq, s) := r.2.cbEgress h d
    let set := if mask ≠ 0 then stationsOf mask else
      match rep with
      | some m => stationsOf m
      | none => stationsOf (s.lookup ingress (mac48 d 0) vid)
    let dests := set.filter (s.reachable ingress cls)
    if dests.isEmpty then (none, s.swCnt 9)
    else (some { cls := cls, stream := h, dests := dests, rtagInsert := ins, rtagRemove := rem, rtagSeq := seq }, s)

/-- The way of a frame from port `p` (R220, R369). -/
def State.portWay (s : State) (p n : Nat) (d : List Byte) : Option Way × State :=
  if s.latticeType p d then
    if !s.latticeMine p d then (none, s.latCnt 6)
    else
      let cls := fieldOf (s.n 0x2800 8) (4 * (at' d (etPos d + 8) / 16)) 3
      match s.latticeDest d with
      | .inl j => (none, s.latCnt j)
      | .inr set =>
        let dests := set.filter (s.reachable p cls)
        if dests.isEmpty then (none, s.swCnt 9)
        else
          let s := if dests = [13] then s.latCnt 2 else s
          (some { cls := cls, stream := none, dests := dests, rtagInsert := false, rtagRemove := false, rtagSeq := 0 }, s)
  else
    let cv := s.classify p d
    s.wayOf p cv.1 cv.2 n 0 d true

/-- The queue entry for destination `t` (R227, R232, R233). -/
def State.entryFor (s : State) (p t : Nat) (w : Way) (whole : Bool) (ts : Nat) (tsReq : Bool) : QEntry :=
  let mode := s.startMode t w.cls
  let streamWhole := match w.stream with | some h => (s.stream h).needsWhole | none => false
  let slow := p < 12 && t < 12 && rateOf (s.speedOf p) < rateOf (s.speedOf t)
  { frame := 0, ingress := p, cls := w.cls, tsRecord := tsReq, rtagInsert := w.rtagInsert, rtagRemove := w.rtagRemove
    storeWhole := mode = 0 || 12 ≤ p || whole || streamWhole || slow, mode := mode
    tsNs := ts / 4 % 2 ^ 64, tsFrac := ts % 4, rtagSeq := w.rtagSeq, stream := w.stream }

/-- The switch takes frames of port `p`: it is enabled, no lane binds the port exclusively (R119), and no enabled chord
direction keeps its copy (R170). -/
def State.swTakes (s : State) (p : Nat) : Bool :=
  s.swOn && s.linkUp p &&
  !(List.range 32).any (fun e => fieldOf (s.engine e).rxBound 0 5 = p + 1 && bitOf (s.engine e).rxBound 8) &&
  (p ≥ 8 || !(s.chordOf p).enable || (s.chordOf p).copy)

/-- A stream of the frame needs its whole length, and the frame has not ended (R233). -/
def State.waitsWhole (s : State) (p : Nat) (d : List Byte) : Bool :=
  match s.streamOf p (s.classify p d).2 d with
  | some h => (s.stream h).needsWhole && (s.port p).rxDone.isNone
  | none => false

/-- A frame from port `p` is admitted (R228): `head` is what has arrived of it, `ago` and `phase` say when the first
nibble after its SFD was sampled, `whole` marks a reassembled preemptable frame. MAC control frames never get here
(R202). -/
def State.admission (s : State) (p : Nat) (head : List Byte) (ago phase : Nat) (whole : Bool) : State :=
  let g := s.port p
  if !s.swTakes p || g.ctx.isSome || be16 head 12 = 0x8808 || s.waitsWhole p head then s
  else
    let len := match g.rxDone with | some (d, _) => d.length + 4 | none => head.length
    let r := s.portWay p len head
    match r.1 with
    | none => r.2.setPort p { r.2.port p with ctx := some {} }
    | some w =>
      let ts := r.2.stampAt (s.rxCfg p 0x14) ago phase (-sint (s.rxCfg p 0x15))
      let charge := cellsOf (s.rxCfg p 0xC)
      let q := r.2.admitFrame p w.cls charge w.dests (fun t => r.2.entryFor p t w whole ts false)
      let s := match q.1 with
        | some f => q.2.setFrame f { q.2.frame f with head := head }
        | none => q.2
      s.setPort p { s.port p with ctx := some { frame := q.1 } }

/-- SWITCH_ADMISSION (R220, R228). -/
def execSwitchAdmission (p : Fin 12) (head : List Byte) (ago : Nat) (phase : Fin 8) (whole : Bool) (s : State) : Res :=
  .next (s.admission p head ago phase whole)

/-- LATTICE_FRAME_FORWARD (R369): the admission of a Lattice frame from a link that goes on to another device. -/
def execLatticeFrameForward (p : Fin 12) (head : List Byte) (ago : Nat) (phase : Fin 8) (s : State) : Res :=
  .next (if s.latticeType p head && s.latticeMine p head && be16 head (etPos head + 4) ≠ s.n 0x2802 1 &&
            1 ≤ be16 head (etPos head + 4) && be16 head (etPos head + 4) ≤ 1023 then
    s.admission p head ago phase false
  else s)

/-! ### The end of a frame (R229, R234) -/

/-- Return the charge of frame `f` above the `n` cells it uses, in every queue that holds it and on every egress. -/
def State.returnCharge (s : State) (f n : Nat) : State :=
  (List.range 176).foldl (fun s q =>
    let l := s.queue (q / 8) (q % 8)
    match l.find? (fun e => e.frame = f) with
    | none => s
    | some e =>
      let s := s.setQueue (q / 8) (q % 8) (l.map (fun x => if x.frame = f then { x with charge := n } else x))
      s.setUsed (q / 8) (q % 8) (s.used (q / 8) (q % 8) - (e.charge - n))) s

/-- Drop frame `f` from every queue: its check failed before any egress took it (R234). -/
def State.unqueue (s : State) (f : Nat) : State :=
  (List.range 176).foldl (fun s q =>
    let l := s.queue (q / 8) (q % 8)
    match l.find? (fun e => e.frame = f) with
    | none => s
    | some e => (s.setQueue (q / 8) (q % 8) (l.filter (fun x => x.frame ≠ f))).releaseEntry (q / 8) (q % 8) e) s

/-- Egresses that already send frame `f` get its bytes (R232) and stomp it when it is bad (R234). -/
def State.feedEgress (s : State) (f n : Nat) (d : List Byte) (bad : Bool) : State :=
  (List.range 12).foldl (fun s p =>
    match (s.port p).cur with
    | none => s
    | some c =>
      match c.entry with
      | none => s
      | some e =>
        if e.frame = f then
          let s := s.setUsed p c.cls (s.used p c.cls - (e.charge - n))
          s.setPort p { s.port p with cur := some { c with
            entry := some { e with charge := n }, data := d, done := true, stomp := c.stomp || bad } }
        else s) s

/-- The end of the frame that port `p` has received (R229, R234): stored, judged, its unused charge returned; a good
frame teaches its source (R222). -/
def State.storeComplete (s : State) (p : Nat) : State :=
  let g := s.port p
  match g.ctx, g.rxDone with
  | some ctx, some (d, good) =>
    let s := s.setPort p { g with ctx := none, rxDone := none }
    let s := if good then s.learn p (mac48 d 6) (s.classify p d).2 else s
    match ctx.frame with
    | none => s
    | some f =>
      let sending := (List.range 12).any (fun t => match (s.port t).cur with
        | some c => (match c.entry with | some e => e.frame = f | none => false) | none => false)
      let s := s.setFrame f { s.frame f with len := d.length, head := [] }
      if good then
        let s := s.storeCells f (cellsOf d.length) d
        (s.returnCharge f (cellsOf d.length)).feedEgress f (cellsOf d.length) d false
      else
        let s := if sending then s.setFrame f { s.frame f with bad := true } else s
        (s.unqueue f).feedEgress f 0 d true
  | _, _ => s

/-- FRAME_STORE_COMPLETE (R234). -/
def execFrameStoreComplete (p : Fin 12) (s : State) : Res := .next (s.storeComplete p)

end Sys2Proof.Machine
end

