-- ==== Sys2Proof/Machine/TxSelect.lean ====
section
/-! DEFINITION. Transmission selection, what a frame becomes on its way out, transmit counters and timestamp records,
and the gate lists (R204–R207, R212, R237–R241, R274, R281, R370). -/

namespace Sys2Proof.Machine

/-! ### The launch guard (R274) -/

/-- Launch entries enabled on port `p` (R272). -/
def State.launchesOf (s : State) (p : Nat) : List Nat :=
  (List.range 64).filter (fun k => s.od.any (fun e => e.1 = odKey (0x2180 + k) 1) &&
    s.bit (0x2180 + k) 1 0 && !(s.launchOf k).begun && fieldOf (s.n (0x2180 + k) 1) 8 4 = p)

/-- Nanoseconds from the first preamble nibble of a frame on port `p` to its egress timestamp: 8 byte times and
TX_LATENCY (R205). -/
def State.leadIn (s : State) (p : Nat) : Int := (8 * (bytePs (s.speedOf p) : Int) + sint (s.txCfg p 0x16)) / 1000

/-- A frame that lasts `ns` from now, and 12 bytes of gap, end before the preamble of every launch pending on the
port; a launch that is on the wire is pending no longer. -/
def State.guardOk (s : State) (p ns : Nat) : Bool :=
  (s.launchesOf p).all (fun k =>
    decide (lateness (s.now32 (s.txCfg p 0x14)) (s.n (0x2180 + k) 9) + s.leadIn p + ns +
      (12 * bytePs (s.speedOf p) + 999) / 1000 ≤ 0))

/-! ### Eligibility (R237) -/

/-- Frame preemption is active and class `c` is preemptable (R203). -/
def State.preemptable (s : State) (p c : Nat) : Bool :=
  (s.portN p 0x13 = 2 || s.portN p 0x13 = 4) && !bitOf (s.portN p 0x12) (8 + c)

/-- A class may send a frame of `n` bytes (without FCS) now. -/
def State.eligible (s : State) (p c n : Nat) : Bool :=
  let ns := wireNs (s.speedOf p) n
  bitOf (s.openGates p) c && decide (0 ≤ tblGet (fun _ => 0) c (s.port p).credit) &&
  !bitOf (s.port p).paused c &&
  (s.preemptable p c && !(s.port p).held || (s.fitsGate p c ns && s.guardOk p ns))

/-- The stored frame of an entry may begin: whole, or as far as its start mode asks (R232). -/
def State.entryReady (s : State) (e : QEntry) : Bool :=
  let x := s.frame e.frame
  x.len ≠ 0 || (!e.storeWhole && (if e.mode = 2 then 128 else 64) ≤ x.head.length)

/-- Bytes the selection reckons with (R240). -/
def State.entryBytes (s : State) (p : Nat) (e : QEntry) : Nat :=
  let x := s.frame e.frame
  if x.len ≠ 0 then x.len + (if e.rtagInsert then 6 else 0) - (if e.rtagRemove then 6 else 0) else s.txCfg p 0xC - 4

/-- The lane bound to port `p` with class `c` that has a frame ready (R122). -/
def State.laneReady (s : State) (p c : Nat) : Option Nat :=
  (List.range 32).find? (fun e =>
    fieldOf (s.engine e).txBound 0 5 = p + 1 && fieldOf (s.engine e).txBound 8 3 = c && s.txReady e)

/-- Bytes a lane frame is reckoned with (R240, R274). -/
def State.laneBytes (s : State) (p e : Nat) : Nat :=
  let r := txSplit (s.engine e).tx
  if r.2.1.isSome then r.1.length / 2 else s.txCfg p 0xC - 4

/-- What the selection grants at this frame boundary: the highest class that holds a frame and is eligible, and within
it the queue's head or the lane, which alternate (R237). -/
def State.grant (s : State) (p : Nat) : Option (Nat × Option Nat) :=
  (List.range 8).foldl (fun g c =>
    let q := match s.queue p c with | e :: _ => s.entryReady e && s.eligible p c (s.entryBytes p e) | [] => false
    let l := match s.laneReady p c with | some e => if s.eligible p c (s.laneBytes p e) then some e else none | none => none
    match l with
    | some e => if q && !bitOf (s.port p).laneTurn c then some (c, none) else some (c, some e)
    | none => if q then some (c, none) else g) none

/-- A store-and-forward frame that exceeds the egress MAX_FRAME is dropped before it starts (R201). -/
def State.dropOversize (s : State) (p : Nat) : State :=
  (List.range 8).foldl (fun s c =>
    match s.queue p c with
    | e :: t =>
      if (s.frame e.frame).len ≠ 0 && s.txCfg p 0xC < s.entryBytes p e + 4 then
        ((s.setQueue p c t).drop p c).releaseEntry p c e
      else s
    | [] => s) s

/-! ### Lattice frames on the way out (R370) -/

/-- What the route in force says of a forwarded Lattice frame on port `p`: the next hop's MAC address, or none when the
entry no longer names the port. -/
def State.latticeHop (s : State) (p : Nat) (d : List Byte) : Option Nat :=
  let e := tblGet (fun _ => 0) (be16 d (etPos d + 4)) s.lat.routes
  if bitOf e 9 && fieldOf e 0 5 = p then some (tblGet (fun _ => 0) (fieldOf e 5 4) s.lat.nbMac)
  else if bitOf e 19 && fieldOf e 10 5 = p then some (tblGet (fun _ => 0) (fieldOf e 15 4) s.lat.nbMac)
  else none

/-- First bytes of an entry's frame. -/
def State.entryHead (s : State) (e : QEntry) : List Byte :=
  let x := s.frame e.frame
  if x.len ≠ 0 then (s.readCells x.cells x.checks x.len).1 else x.head

/-- The entry holds a Lattice frame that came in on another port. -/
def State.latticeForward (s : State) (p : Nat) (e : QEntry) : Bool :=
  s.isLink p && e.ingress < 12 && s.latticeType e.ingress (s.entryHead e)

/-- The queue's head begins on the wire (R232, R370). -/
def State.startQueue (s : State) (p c phase : Nat) : State :=
  match s.queue p c with
  | [] => s
  | e :: t =>
    let whole := (s.frame e.frame).len ≠ 0
    let s1 := s.setQueue p c t
    let cur : TxCur := { src := .queue, cls := c, entry := some e, done := whole, tsReq := e.tsRecord }
    let s2 :=
      if s.latticeForward p e then
        match s.latticeHop p (s.entryHead e) with
        | none => (s1.latCnt 5).releaseEntry p c e
        | some m => (s1.latCnt 1).beginTx p phase { cur with newDa := some m }
      else s1.beginTx p phase cur
    s2.setPort p { s2.port p with laneTurn := (s2.port p).laneTurn ||| 2 ^ c }

/-- Begin the pause frame at the head of the port's list (R209). -/
def State.startPause (s : State) (p phase : Nat) : State :=
  match (s.port p).pauseQ with
  | [] => s
  | (d, pfc) :: t =>
    (s.setPort p { s.port p with pauseQ := t }).beginTx p phase
      { src := .pause, cls := if pfc then 1 else 0, data := d, done := true }

/-- TX_SELECTION (R237): `dt` ticks pass; at a frame boundary a pause frame goes first, then the granted class. -/
def execTxSelection (p : Fin 12) (phase : Fin 8) (dt : Nat) (s : State) : Res :=
  let s := (s.advance dt).touchCredit p
  .next (if s.txIdle p && (s.chordEgress p).isNone then
    if !(s.port p).pauseQ.isEmpty && s.guardOk p (wireNs (s.speedOf p) 60) then s.startPause p phase
    else
      let s := s.dropOversize p
      match s.grant p with
      | some (c, none) => s.startQueue p c phase
      | _ => s
  else s)

/-- The lane's frame begins: the wire takes each nibble as it comes (log entry 15). -/
def State.startLane (s : State) (e : Nat) : State :=
  (s.setEngine e { s.engine e with txOn := true, txWire := [] }).settleTx e

/-- TX_LANE_FRAME_START (R122): a loop starts as soon as the frame is ready; on a port the selection grants the lane's
class. -/
def execTxLaneFrameStart (e : Fin 32) (phase : Fin 8) (dt : Nat) (s : State) : Res :=
  let s := s.advance dt
  let dest := fieldOf (s.engine e).txBound 0 5
  .next (if 1 ≤ dest ∧ dest ≤ 12 then
    let p := dest - 1
    let s := s.touchCredit p
    match s.grant p with
    | some (c, some l) =>
      if l = e.val && s.txIdle p && (s.chordEgress p).isNone then
        let s := s.beginTx p phase { src := .lane e, cls := c }
        let s := s.setPort p { s.port p with laneTurn := (s.port p).laneTurn - ((s.port p).laneTurn &&& 2 ^ c) }
        s.startLane e
      else s
    | _ => s
  else if s.txReady e then s.startLane e
  else s)

/-! ### What leaves (R201, R244, R281, R370) -/

/-- Replace `l.length` bytes from `i` on. -/
def splice (d : List Byte) (i : Nat) (l : List Byte) : List Byte := d.take i ++ l ++ d.drop (i + l.length)

/-- `n` big-endian bytes. -/
def beOf (v n : Nat) : List Byte := (List.range n).map (fun k => BitVec.ofNat 8 (v / 256 ^ (n - 1 - k)))

/-- R-TAG removal and insertion (R244). -/
def rtagWork (e : QEntry) (d : List Byte) : List Byte :=
  let d := if e.rtagRemove && hasRtag d then d.take (etPos d) ++ d.drop (etPos d + 6) else d
  if e.rtagInsert then d.take (etPos d) ++ [0xF1, 0xC1, 0, 0] ++ beOf e.rtagSeq 2 ++ d.drop (etPos d) else d

/-- A forwarded Lattice frame gets its addresses and one hop less (R370). -/
def State.latticeWork (s : State) (p : Nat) (da : Option Nat) (d : List Byte) : List Byte :=
  match da with
  | none => d
  | some m =>
    let d := splice (splice d 0 (beOf m 6)) 6 (beOf (s.portN p 0xA) 6)
    splice d (etPos d + 3) [BitVec.ofNat 8 (at' d (etPos d + 3) - 1)]

/-- ONE_STEP acts on Sync frames without twoStepFlag (R281). -/
def isSync (d : List Byte) : Bool :=
  etherType d = 0x88F7 && at' d (etPos d + 2) % 16 = 0 && !bitOf (at' d (etPos d + 8)) 1

/-- Add to the correctionField, in 2^-16 ns (R281). -/
def addCorrection (d : List Byte) (v : Int) : List Byte :=
  let i := etPos d + 10
  let old := (List.range 8).foldl (fun a k => a * 256 + at' d (i + k)) 0
  splice d i (beOf (((old : Int) + v) % 2 ^ 64).toNat 8)

/-- The one-step changes of R281 and whether the frame was changed. -/
def State.oneStep (s : State) (p : Nat) (c : TxCur) (d : List Byte) : List Byte × Bool :=
  let o := s.n (0x2160 + p) 0xE
  if !isSync d then (d, false)
  else
    let r1 := if bitOf o 0 then
        (addCorrection (splice d (etPos d + 36) (beOf (c.tsNs / 10 ^ 9) 6 ++ beOf (c.tsNs % 10 ^ 9) 4)) (c.tsFrac * 0x4000), true)
      else (d, false)
    match c.entry with
    | some e =>
      if bitOf o 1 && e.ingress < 12 && s.rxCfg e.ingress 0x14 = s.txCfg p 0x14 then
        (addCorrection r1.1 (((c.tsNs * 4 + c.tsFrac : Int) - (e.tsNs * 4 + e.tsFrac)) * 0x4000), true)
      else r1
    | none => r1

/-- The bytes of the current frame as stored, and whether all their checks hold (R30, R234). -/
def State.curBytes (s : State) (c : TxCur) : List Byte × Bool :=
  match c.entry with
  | some e =>
    let x := s.frame e.frame
    if x.cells.isEmpty then (c.data, true) else s.readCells x.cells x.checks x.len
  | none => (c.data, true)

/-- A double-bit error in a cell that an egress reads is met as any other (R464). -/
def State.meetCells (s : State) (c : TxCur) : State :=
  match c.entry with
  | none => s
  | some e =>
    match (s.frame e.frame).cells.find? (fun k => (List.range 16).any (fun j => s.hasDbe (s.cellAt k + 8 * j))) with
    | none => s
    | some k =>
      match (List.range 16).find? (fun j => s.hasDbe (s.cellAt k + 8 * j)) with
      | some j => s.meetDbe (s.cellAt k + 8 * j) 37
      | none => s

/-- Count a sent frame of `n` bytes with FCS (R212). -/
def State.countTx (s : State) (p : Nat) (d : List Byte) (stomp : Bool) (c : TxCur) : State :=
  let n := d.length + 4
  let s := s.stat p (0x1B + bucket n)
  if stomp then s.stat p 0x22
  else
    let s := (s.stat p 0x18).statAdd p 0x2A 64 n
    let s := if isBroadcast d then s.stat p 0x19 else if isGroup d then s.stat p 0x1A else s
    if c.src = .pause then s.stat p (if c.cls = 1 then 0x24 else 0x23) else s

/-- The timestamp record of a sent frame, words 0 to 2 (R207). -/
def State.tsRecord (s : State) (p : Nat) (c : TxCur) (d : List Byte) : List Byte :=
  let e := etPos d + 2
  let k := e + fieldOf (s.portN p 0x18) 24 8
  leBytes (c.tsNs % 2 ^ 32) 4 ++
  leBytes (c.tsFrac + at' d e * 2 ^ 8 + at' d k * 2 ^ 16 + at' d (k + 1) * 2 ^ 24) 4 ++ leBytes (c.tsNs / 2 ^ 32) 4

/-- A frame gets a timestamp record (R207). -/
def State.wantsTs (s : State) (p : Nat) (c : TxCur) (d : List Byte) : Bool :=
  s.portN p 0x17 ≠ 0 && (c.tsReq || (s.bit (0x2300 + p) 0x18 16 && etherType d = fieldOf (s.portN p 0x18) 0 16))

/-- The current frame has ended (R212): what left, its counters, its record, its share given back. -/
def State.transmitted (s : State) (p : Nat) (c : TxCur) : State :=
  let b := s.curBytes c
  let s := if b.2 then s else (s.meetCells c).swCnt 0xA |>.swEvent 0
  let d := match c.entry with | some e => rtagWork e b.1 | none => b.1
  let d := s.latticeWork p c.newDa d
  let o := if c.src = .chord then (d, false) else s.oneStep p c d
  let long := c.src ≠ .chord && s.txCfg p 0xC < o.1.length + 4
  let d := if c.src = .chord then o.1 else pad60 (if long then o.1.take (s.txCfg p 0xC - 4) else o.1)
  let stomp := c.stomp || !b.2 || long
  let s := if o.2 then s.cntH (0x2160 + p) 0xF (0x2160 + p) 0x10 else s
  let s := (s.countTx p d stomp c).emit (.frame p (withFcs d stomp) stomp)
  let s := if s.wantsTs p c d then
      s.setPort p { s.port p with tsPending := (s.port p).tsPending ++ [s.tsRecord p c d] }
    else s
  let s := (s.touchCredit p).setPort p { (s.touchCredit p).port p with cur := none }
  match c.entry with
  | some e => s.releaseEntry p c.cls e
  | none => s

/-- PORT_FRAME_TRANSMITTED (R212): `frags` mPackets were sent when the frame was preempted (R204). -/
def execPortFrameTransmitted (p : Fin 12) (frags : Nat) (dt : Nat) (s : State) : Res :=
  let s := s.advance dt
  .next (match (s.port p).cur with
    | some c => if c.done then (if frags = 0 then s else s.statAdd p 0x25 32 frags).transmitted p c else s
    | none => s)

/-- A unit's aligned write into a bank or facet store; its path has no master ID (R20). -/
def State.unitWrite (s : State) (a : Nat) (d : List Byte) : State :=
  (List.range ((d.length + 7) / 8)).foldl (fun s k =>
    s.memWrite { id := 0, secure := true } (a + 8 * k) ((d.drop (8 * k)).take 8)) s

/-- TS_RECORD_WRITE (R207): the next record goes into the ring, its number last. -/
def execTsRecordWrite (p : Fin 12) (s : State) : Res :=
  let g := s.port p
  .next (match g.tsPending with
    | [] => s
    | r :: t =>
      let s := s.setPort p { g with
        tsPending := t, tsSlot := (g.tsSlot + 1) % 16, tsSeq := if g.tsSeq = 0xFFFF_FFFE then 0 else g.tsSeq + 1 }
      (s.unitWrite (s.portN p 0x17 + 16 * g.tsSlot) (r ++ leBytes g.tsSeq 4)).portEvent p 8)

/-! ### Gate lists (R238–R240, R243) -/

/-- Read a gate control list of `n` entries at `a`: none where it is empty, lies outside banks and facet stores or an
entry breaks its rule. `width` bounds word 0, whose OP (bits 9:8) may not be 3 (R238, R243). -/
def State.readGateList (s : State) (a n width : Nat) : Option (List (Nat × Nat × Nat)) :=
  if n = 0 || !inBankOrStore a then none
  else
    let l := (List.range n).map (fun k => (s.w32 (a + 8 * k), s.w32 (a + 8 * k + 4)))
    if l.all (fun (w, t) => w < 2 ^ width && fieldOf w 8 2 ≠ 3 && t % 2 = 0 && 2 ≤ t) then
      some (l.map (fun (w, t) => (w % 256, fieldOf w 8 2, t)))
    else none

/-- The change time: base + N × cycle for the smallest N that places it at least 10 µs from now (R239). -/
def changeTime (base cycle now : Nat) : Nat :=
  if now + 10000 ≤ base then base
  else base + (now + 10000 - base + cycle - 1) / cycle * cycle

/-- A write of 1 to CONFIG_CHANGE (R239). -/
def State.gateChange (s : State) (p : Nat) : State :=
  let i := 0x2260 + p
  match s.readGateList (s.n i 2) (s.n i 3) 10 with
  | none => ((s.wr i 9 3).cnt i 0xD).swEvent 6
  | some l =>
    let t := changeTime (s.n i 6) (s.n i 4) (s.now64 (s.txCfg p 0x14))
    ((s.wr i 9 1).wr i 0xA t).setGate p { s.gate p with pend := some (l, s.n i 4, t) }

/-- GATE_CONFIG_CHANGE (R239). -/
def execGateConfigChange (m : Path) (p : Fin 12) (v : Word) (s : State) : Res :=
  .next (s.guard m (0x2260 + p.val) 8 v.toNat (fun s => s.gateChange p))

/-- The MAC operation of a gate list entry (R240): a hold is asserted and counted, or released. -/
def State.gateOp (s : State) (p op : Nat) : State :=
  let active := s.portN p 0x13 = 2 || s.portN p 0x13 = 4
  let g := s.port p
  if active && op = 1 then (if g.held then s else (s.setPort p { g with held := true }).stat p 0x26)
  else if op = 2 || (active && op = 0) then (if g.held then s.setPort p { g with held := false } else s)
  else s

/-- The gate unit of port `p` moves to `g`: a frame on the wire whose gate closes is an overrun (R240). -/
def State.moveGate (s : State) (p : Nat) (g : GateCtl) : State :=
  let was := s.openGates p
  let s := (s.touchCredit p).setGate p g
  let s := match g.oper[g.idx]? with | some e => s.gateOp p e.2.1 | none => s
  match (s.port p).cur with
  | some c =>
    if bitOf was c.cls && !bitOf (s.openGates p) c.cls && !s.preemptable p c.cls then
      s.cntH (0x2260 + p) 0xC 0x2200 0xF
    else s
  | none => s

/-- GATE_CONFIG_OPERATIONAL (R239). -/
def execGateConfigOperational (p : Fin 12) (dt : Nat) (s : State) : Res :=
  let s := s.advance dt
  .next (match (s.gate p).pend with
    | some (l, cy, t) =>
      if t ≤ s.now64 (s.txCfg p 0x14) then
        ((s.wr (0x2260 + p.val) 9 2).moveGate p
          { oper := l, cycle := cy, idx := 0, entryAt := t, cycleAt := t, pend := none }).swEvent 5
      else s
    | none => s)

/-- The next entry of a running list whose present one has ended (R238). -/
def GateCtl.next (g : GateCtl) (now : Nat) : Option GateCtl :=
  if g.oper.isEmpty then none
  else
    let t := entryEnd g.oper g.cycle g.idx g.entryAt g.cycleAt
    if now < t then none
    else if t = g.cycleAt + g.cycle then some { g with idx := 0, entryAt := t, cycleAt := t }
    else some { g with idx := g.idx + 1, entryAt := t }

/-- GATE_INTERVAL_EXPIRY (R238). -/
def execGateIntervalExpiry (p : Fin 12) (dt : Nat) (s : State) : Res :=
  let s := s.advance dt
  .next (match (s.gate p).next (s.now64 (s.txCfg p 0x14)) with
    | some g => s.moveGate p g
    | none => s)

end Sys2Proof.Machine
end

