-- ==== Sys2Proof/Machine/SwitchTables.lean ====
section
/-! DEFINITION. Commands of the table-access objects: forwarding database, streams, stream gates, meters, 802.1CB
(R222, R224, R242–R244, R253–R257). Staging subindexes are the OD objects themselves. -/

namespace Sys2Proof.Machine

/-! ### Forwarding database (R222, R253) -/

/-- A write of COMMAND: STATUS reads busy until FDB_COMMAND_DONE; a command written meanwhile does nothing (log entry
34). -/
def State.fdbCommand (s : State) (v : Nat) : State :=
  if v = 0 ∨ s.sw.fdbCmd.isSome then s else (s.wr 0x2290 8 1).setSw (fun w => { w with fdbCmd := some v })

/-- FDB_READ_ENTRY, FDB_INSERT, FDB_DELETE, FDB_FLUSH (R253). -/
def execFdbReadEntry (q : Path) (s : State) : Res := .next (s.guard q 0x2290 7 1 (fun s => s.fdbCommand 1))
def execFdbInsert (q : Path) (s : State) : Res := .next (s.guard q 0x2290 7 2 (fun s => s.fdbCommand 2))
def execFdbDelete (q : Path) (s : State) : Res := .next (s.guard q 0x2290 7 3 (fun s => s.fdbCommand 3))
def execFdbFlush (q : Path) (s : State) : Res := .next (s.guard q 0x2290 7 4 (fun s => s.fdbCommand 4))

/-- Rim ticks of a second. -/
def secondTicks : Nat := 500000000

/-- Show entry `e` in the staging subindexes; a slot without an entry reads VALID 0. -/
def State.fdbShow (s : State) (e : Nat) : State :=
  let x := (s.fdbAt e).getD {}
  let key := if (s.fdbAt e).isSome then x.vid + 0x1000 + (if x.isStatic then 0x2000 else 0) else 0
  let age := if (s.fdbAt e).isSome && !x.isStatic then (s.ticks - x.at') / secondTicks else 0
  (((s.wr 0x2290 2 x.mac).wr 0x2290 4 key).wr 0x2290 5 x.mask).wr 0x2290 6 age

/-- Insert the staged key, replacing its entry where it has one: the state and STATUS. -/
def State.fdbPut (s : State) : State :=
  let mac := s.n 0x2290 2
  let vid := fieldOf (s.n 0x2290 4) 0 12
  let x : FdbEntry := { mac := mac, vid := vid, isStatic := s.bit 0x2290 4 13, mask := s.n 0x2290 5, at' := s.ticks }
  match (match s.fdbFind mac vid with | some e => some e | none => s.fdbFree mac vid) with
  | some e => ((s.setFdb e x).showFdb).wr 0x2290 8 2
  | none => s.wr 0x2290 8 4

/-- The pending command's effect. -/
def State.fdbDone (s : State) : State :=
  match s.sw.fdbCmd with
  | none => s
  | some v =>
    let s := s.setSw (fun w => { w with fdbCmd := none })
    if v = 1 then (s.fdbShow (s.n 0x2290 1)).wr 0x2290 8 2
    else if v = 2 then s.fdbPut
    else if v = 3 then
      match s.fdbFind (s.n 0x2290 2) (fieldOf (s.n 0x2290 4) 0 12) with
      | some e => ((s.setSw (fun w => { w with fdb := tblDel e w.fdb })).showFdb).wr 0x2290 8 2
      | none => s.wr 0x2290 8 3
    else ((s.setSw (fun w => { w with fdb := w.fdb.filter (fun e => e.2.isStatic) })).showFdb).wr 0x2290 8 2

/-- FDB_COMMAND_DONE (R253). -/
def execFdbCommandDone (s : State) : Res := .next s.fdbDone

/-- FDB_AGE_EXPIRY (R222): a learned entry not refreshed for AGE_TIME is removed. -/
def execFdbAgeExpiry (e : Fin 8192) (dt : Nat) (s : State) : Res :=
  let s := s.advance dt
  .next (match s.fdbAt e with
    | some x =>
      if !x.isStatic && s.n 0x2290 9 ≠ 0 && s.n 0x2290 9 * secondTicks ≤ s.ticks - x.at' then
        (s.setSw (fun w => { w with fdb := tblDel e w.fdb })).showFdb
      else s
    | none => s)

/-! ### Streams (R255) -/

/-- COMMAND 1 to 3 of the stream table. -/
def State.streamCommand (s : State) (v : Nat) : State :=
  let h := s.n 0x2280 1
  let t := s.stream h
  if v = 1 then
    (((((((s.wr 0x2280 2 t.mac).wr 0x2280 4 t.ident).wr 0x2280 5 t.filter).wr 0x2280 7 (if t.blocked then 1 else 0)).wr
      0x2280 8 t.matched).wr 0x2280 9 t.passed).wr 0x2280 0xA t.gateDisc).wr 0x2280 0xB t.sduDisc
  else if v = 2 then s.setStream h { t with mac := s.n 0x2280 2, ident := s.n 0x2280 4, filter := s.n 0x2280 5 }
  else if v = 3 then (s.setStream h { t with blocked := false }).wr 0x2280 7 0
  else s

/-- STREAM_READ, STREAM_WRITE, STREAM_CLEAR_BLOCKED (R255). -/
def execStreamRead (q : Path) (s : State) : Res := .next (s.guard q 0x2280 6 1 (fun s => s.streamCommand 1))
def execStreamWrite (q : Path) (s : State) : Res := .next (s.guard q 0x2280 6 2 (fun s => s.streamCommand 2))
def execStreamClearBlocked (q : Path) (s : State) : Res := .next (s.guard q 0x2280 6 3 (fun s => s.streamCommand 3))

/-! ### Stream gates (R243, R256) -/

/-- Set a gate's STATUS; the staging subindex shows it while the gate is selected. -/
def State.sgateStatus (s : State) (g v : Nat) : State :=
  let s := s.setSgate g { s.sgate g with status := v }
  if s.n 0x2281 1 = g then s.wr 0x2281 0xA v else s

/-- COMMAND 3: the gate's list is copied and checked, and waits for its change time (R239, R243). -/
def State.sgateChange (s : State) (g : Nat) : State :=
  let x := s.sgate g
  match s.readGateList x.list x.len 5 with
  | none => (s.sgateStatus g 3).swEvent 6
  | some l =>
    let t := changeTime x.base x.cycle (s.now64 x.dom)
    (s.setSgate g { x with ctl := { x.ctl with pend := some (l, x.cycle, t) } }).sgateStatus g 1

/-- COMMAND 1 to 3 of the stream gates. -/
def State.sgateCommand (s : State) (v : Nat) : State :=
  let g := s.n 0x2281 1
  let x := s.sgate g
  if v = 1 then
    (((((s.wr 0x2281 2 x.list).wr 0x2281 3 x.len).wr 0x2281 4 x.cycle).wr 0x2281 6 x.base).wr 0x2281 8 x.dom).wr
      0x2281 0xA x.status
  else if v = 2 then
    s.setSgate g { x with list := s.n 0x2281 2, len := s.n 0x2281 3, cycle := s.n 0x2281 4, base := s.n 0x2281 6
                          dom := s.n 0x2281 8 }
  else if v = 3 then s.sgateChange g
  else s

/-- STREAM_GATE_READ, STREAM_GATE_WRITE, STREAM_GATE_CHANGE_LIST (R256). -/
def execStreamGateRead (q : Path) (s : State) : Res := .next (s.guard q 0x2281 9 1 (fun s => s.sgateCommand 1))
def execStreamGateWrite (q : Path) (s : State) : Res := .next (s.guard q 0x2281 9 2 (fun s => s.sgateCommand 2))
def execStreamGateChangeList (q : Path) (s : State) : Res := .next (s.guard q 0x2281 9 3 (fun s => s.sgateCommand 3))

/-- STREAM_GATE_LIST_OPERATIONAL (R243). -/
def execStreamGateListOperational (g : Fin 64) (dt : Nat) (s : State) : Res :=
  let s := s.advance dt
  let x := s.sgate g
  .next (match x.ctl.pend with
    | some (l, cy, t) =>
      if t ≤ s.now64 x.dom then
        ((s.setSgate g { x with ctl := { oper := l, cycle := cy, idx := 0, entryAt := t, cycleAt := t, pend := none } }).sgateStatus
          g 2).swEvent 5
      else s
    | none => s)

/-- STREAM_GATE_INTERVAL_EXPIRY (R243). -/
def execStreamGateIntervalExpiry (g : Fin 64) (dt : Nat) (s : State) : Res :=
  let s := s.advance dt
  let x := s.sgate g
  .next (match x.ctl.next (s.now64 x.dom) with
    | some c => s.setSgate g { x with ctl := c }
    | none => s)

/-! ### Meters (R243, R256) -/

/-- COMMAND 1 to 3 of the meters. A written meter starts with full buckets. -/
def State.meterCommand (s : State) (v : Nat) : State :=
  let i := s.n 0x2282 1
  let m := s.meter i
  if v = 1 then
    ((((((((s.wr 0x2282 2 m.cir).wr 0x2282 3 m.cbs).wr 0x2282 4 m.eir).wr 0x2282 5 m.ebs).wr 0x2282 6 m.mode).wr
      0x2282 8 (if m.allRed then 1 else 0)).wr 0x2282 9 m.green).wr 0x2282 0xA m.yellow).wr 0x2282 0xB m.red
  else if v = 2 then
    s.setMeter i { m with
      cir := s.n 0x2282 2, cbs := s.n 0x2282 3, eir := s.n 0x2282 4, ebs := s.n 0x2282 5, mode := s.n 0x2282 6
      cTok := s.n 0x2282 3 * 8000000, eTok := s.n 0x2282 5 * 8000000, at' := s.ticks }
  else if v = 3 then (s.setMeter i { m with allRed := false }).wr 0x2282 8 0
  else s

/-- METER_READ, METER_WRITE, METER_CLEAR_MARK_ALL_RED (R256). -/
def execMeterRead (q : Path) (s : State) : Res := .next (s.guard q 0x2282 7 1 (fun s => s.meterCommand 1))
def execMeterWrite (q : Path) (s : State) : Res := .next (s.guard q 0x2282 7 2 (fun s => s.meterCommand 2))
def execMeterClearMarkAllRed (q : Path) (s : State) : Res := .next (s.guard q 0x2282 7 3 (fun s => s.meterCommand 3))

/-! ### 802.1CB (R244, R257) -/

/-- Recovery resets: the next frame is taken whatever its number. -/
def Cb.resetRecovery (c : Cb) : Cb := { c with takeAny := true, history := 0, resets := (c.resets + 1) % 2 ^ 32 }

/-- COMMAND 1 to 3 of 802.1CB. -/
def State.cbCommand (s : State) (v : Nat) : State :=
  let h := s.n 0x2283 1
  let c := s.cb h
  if v = 1 then
    ((((((((s.wr 0x2283 2 c.func).wr 0x2283 3 c.mask).wr 0x2283 5 c.genSeq).wr 0x2283 6 c.passed).wr 0x2283 7 c.discarded).wr
      0x2283 8 c.outOfOrder).wr 0x2283 9 c.rogue).wr 0x2283 0xA c.lost).wr 0x2283 0xB c.resets
  else if v = 2 then s.setCb h { c with func := s.n 0x2283 2, mask := s.n 0x2283 3 }
  else if v = 3 then s.setCb h c.resetRecovery
  else s

/-- CB_READ, CB_WRITE, CB_RESET_RECOVERY (R257). -/
def execCbRead (q : Path) (s : State) : Res := .next (s.guard q 0x2283 4 1 (fun s => s.cbCommand 1))
def execCbWrite (q : Path) (s : State) : Res := .next (s.guard q 0x2283 4 2 (fun s => s.cbCommand 2))
def execCbResetRecovery (q : Path) (s : State) : Res := .next (s.guard q 0x2283 4 3 (fun s => s.cbCommand 3))

/-- CB_RESET_TIMEOUT (R244): RESET_TIMEOUT has passed with no frame of the stream. -/
def execCbResetTimeout (h : Fin 256) (s : State) : Res :=
  let c := s.cb h
  .next (if bitOf c.func 1 && fieldOf c.func 16 16 ≠ 0 && !c.takeAny then s.setCb h c.resetRecovery else s)

/-- Accepted writes of COMMAND and CONFIG_CHANGE objects, of the partition, of ENABLE and of QUEUE_c (R225, R229,
R239, R253–R257). -/
def State.effSwitch (s : State) (i j v : Nat) : Option State :=
  if i = 0x2200 ∧ j = 1 then some (if v = 0 then (s.wr i j 0).switchClear else s.wr i j 1)
  else if i = 0x2200 ∧ j = 2 then some ((s.wr i j v).switchClear)
  else if 0x2210 ≤ i ∧ i ≤ 0x2225 ∧ 1 ≤ j ∧ j ≤ 8 then some (s.writeQueue (i - 0x2210) (j - 1) v)
  else if 0x2260 ≤ i ∧ i ≤ 0x226B ∧ j = 8 then some (if v = 1 then s.gateChange (i - 0x2260) else s)
  else if 0x2270 ≤ i ∧ i ≤ 0x227B ∧ 1 ≤ j then some ((s.touchCredit (i - 0x2270)).wr i j v)
  else if i = 0x2290 ∧ j = 7 then some (s.fdbCommand v)
  else if i = 0x2280 ∧ j = 6 then some (s.streamCommand v)
  else if i = 0x2281 ∧ j = 9 then some (s.sgateCommand v)
  else if i = 0x2282 ∧ j = 7 then some (s.meterCommand v)
  else if i = 0x2283 ∧ j = 4 then some (s.cbCommand v)
  else none

end Sys2Proof.Machine
end

