-- ==== Sys2Proof/Machine/Rings.lean ====
section
/-! DEFINITION. Delivery rings of stations 12–21 and the audit (R245–R248, R258). -/

namespace Sys2Proof.Machine

/-- The path of the switch's buffer manager (R20). -/
def swPath : Path := { id := 37, secure := true }

/-- Bytes a unit of master ID `m` reads from a bank or a facet store, and whether a double-bit error met it; any other
address gives zeros (R16, R19). -/
def State.dmaRead (s : State) (m a n : Nat) : List Byte × Bool × State :=
  if n = 0 then ([], false, s) else if inBankOrStore a then s.fetchBytes m a n else (zeros n, false, s)

/-- A unit's write of bytes from an 8-byte-aligned address on. -/
def State.dmaWrite (s : State) (q : Path) (a : Nat) (d : List Byte) : State :=
  (List.range ((d.length + 7) / 8)).foldl (fun s k => s.memWrite q (a + 8 * k) ((d.drop (8 * k)).take 8)) s

/-- Ring objects: SIZE gives the number of descriptors, BASE their place, HEAD and TAIL are free-running (R245). -/
def ringOn (r : Nat) : Bool := bitOf r 4
def ringSize (r : Nat) : Nat := 2 ^ (fieldOf r 0 4 + 4)
def ringDesc (r k : Nat) : Nat := r / 256 * 256 + 16 * (k % ringSize r)

/-! ### Receive rings (R246) -/

/-- The bytes of a stored frame before its first cell that fails, and whether a cell fails. -/
def State.cellPrefix (s : State) : List Nat → List Word → Nat → List Byte × Bool
  | c :: cs, k :: ks, n =>
    let r := s.readCells [c] [k] n
    if r.2 then
      let q := s.cellPrefix cs ks (n - 128)
      (r.1 ++ q.1, q.2)
    else ([], true)
  | _, _, _ => ([], false)

/-- What the descriptors of a frame share. -/
structure RxInfo where
  ring : Nat
  cls : Nat
  ingress : Nat
  tsNs : Nat
  tsFrac : Nat
  stream : Option Nat
  /-- RESULT where the frame ends with the bytes it has (0 or 2). -/
  last : Nat
  deriving DecidableEq, Repr

/-- Word 3 of a receive descriptor (R245). -/
def RxInfo.word3 (x : RxInfo) (first lastD : Bool) (result : Nat) : Nat :=
  1 + (if first then 2 else 0) + (if lastD then 4 else 0) + result * 8 + x.cls * 32 + x.ingress * 256 +
  x.tsFrac * 8192 + (match x.stream with | some h => h * 32768 + 2 ^ 24 | none => 0)

/-- Fill descriptors from index `k` on, `left` of them being free, with bytes `d`: how many were filled, and whether the
ring ran out. A later descriptor's word 2 is a free value (log entry 35). -/
def State.fillRx (s : State) (x : RxInfo) (k : Nat) (first : Bool) : Nat → List Byte → Nat × Bool × State
  | 0, _ => (0, true, s)
  | left + 1, d =>
    let a := ringDesc x.ring k
    let size := fieldOf (s.w32 (a + 4)) 0 16
    let part := d.take size
    let rest := d.drop size
    let ends := rest.isEmpty
    let cut := !ends && left = 0
    let w2 := if first then x.tsNs % 2 ^ 32 else (s.free 32).toNat
    let s := if first then s else s.tick
    let s := s.dmaWrite swPath (s.w32 a / 8 * 8) part
    let s := s.dmaWrite swPath (a + 4) (leBytes (size + part.length * 2 ^ 16) 4)
    let s := s.dmaWrite swPath (a + 8) (leBytes w2 4)
    let s := s.dmaWrite swPath (a + 12) (leBytes (x.word3 first (ends || cut) (if ends then x.last else if cut then 1 else 0)) 4)
    if ends then (1, false, s)
    else if cut then (1, true, s)
    else
      let r := s.fillRx x (k + 1) false left rest
      (r.1 + 1, r.2.1, r.2.2)

/-- Without its R-TAG where recovery removes it and generation does not apply (R244); only an egress MAC inserts one. -/
def ringBytes (e : QEntry) (d : List Byte) : List Byte :=
  if e.rtagRemove && !e.rtagInsert && hasRtag d then d.take (etPos d) ++ d.drop (etPos d + 6) else d

/-- A complete frame at the head of queue (12 + st, c) goes into its ring. -/
def State.deliver (s : State) (st c : Nat) : State :=
  let i := 0x22A0 + st
  let ring := s.n i (1 + c)
  let head := s.n i (0x11 + c)
  let left := (s.n i (9 + c) + 2 ^ 16 - head) % 2 ^ 16
  match s.queue (12 + st) c with
  | [] => s
  | e :: t =>
    let x := s.frame e.frame
    if x.len = 0 || !ringOn ring || left = 0 then s
    else
      let b := s.cellPrefix x.cells x.checks x.len
      let s := if b.2 then s.meetCells { src := .queue, entry := some e } else s
      let info : RxInfo := { ring := ring, cls := c, ingress := e.ingress, tsNs := e.tsNs, tsFrac := e.tsFrac
                             stream := e.stream, last := if b.2 then 2 else 0 }
      let r := s.fillRx info head true left (ringBytes e b.1)
      let s := (r.2.2.wr i (0x11 + c) ((head + r.1) % 2 ^ 16)).setQueue (12 + st) c t
      let s := if r.2.1 then (s.cntH i 0x25 i 0x28).event i 0x28 0x1000
        else if b.2 then (s.cntH i 0x26 i 0x28).event i 0x28 0x2000 else s
      (s.event i 0x28 (2 ^ c)).releaseEntry (12 + st) c e

/-- RX_RING_DELIVERY (R246). -/
def execRxRingDelivery (st : Fin 10) (c : Fin 8) (s : State) : Res := .next (s.deliver st c)

/-! ### Transmit rings (R247) -/

/-- The descriptors of the next frame, from index `k` on: up to LAST, or up to the one before another FIRST; whether the
frame is well formed. None while its end is not yet in the ring. -/
def State.txFrame (s : State) (ring k : Nat) (first : Bool) : Nat → Option (List Nat × Bool)
  | 0 => none
  | n + 1 =>
    let a := ringDesc ring k
    let w := s.w32 (a + 4)
    if !first && bitOf w 16 then some ([], false)
    else if bitOf w 17 then some ([a], !first || bitOf w 16)
    else match s.txFrame ring (k + 1) false n with
      | some (l, ok) => some (a :: l, ok && (!first || bitOf w 16))
      | none => none

/-- The bytes of the frame's buffers, and whether one of them met a double-bit error. -/
def State.txBytes (s : State) : List Nat → List Byte × Bool × State
  | [] => ([], false, s)
  | a :: t =>
    let r := s.dmaRead 37 (s.w32 a) (fieldOf (s.w32 (a + 4)) 0 16)
    let q := r.2.2.txBytes t
    (r.1 ++ q.1, r.2.1 || q.2.1, q.2.2)

/-- Steps 2 to 6 of R220 for a frame of station 12 + `st`: whether a queue took it. -/
def State.ringAdmit (s : State) (st mask cls : Nat) (gen ts : Bool) (d : List Byte) : Bool × State :=
  let r := s.wayOf (12 + st) cls (ringVid d) (d.length + 4) mask d gen
  match r.1 with
  | none => (false, r.2)
  | some w =>
    let stamp := (r.2.free 64).toNat
    let s := r.2.tick
    let q := s.admitFrame (12 + st) w.cls (cellsOf d.length) w.dests (fun t => s.entryFor (12 + st) t w true (stamp * 4) ts)
    match q.1 with
    | none => (false, q.2)
    | some f => (true, (q.2.setFrame f { q.2.frame f with len := d.length }).storeCells f (cellsOf d.length) d)

/-- Write DONE and RESULT: the result on the last descriptor, 0 on the earlier ones. -/
def State.txDone (s : State) (result : Nat) : List Nat → State
  | [] => s
  | [a] => s.dmaWrite swPath (a + 12) (leBytes (1 + 2 * result) 4)
  | a :: t => (s.dmaWrite swPath (a + 12) (leBytes 1 4)).txDone result t

/-- Ring `t` of station 12 + `st` gives its next frame. -/
def State.txRing (s : State) (st t : Nat) (l : List Nat) (ok : Bool) : State :=
  let i := 0x22A0 + st
  let w2 := s.w32 (l.headD 0 + 8)
  let ts := bitOf (s.w32 (l.getLastD 0 + 4)) 18 || bitOf (s.w32 (l.headD 0 + 4)) 18
  let len := (l.map (fun a => fieldOf (s.w32 (a + 4)) 0 16)).sum
  let r : Nat × State :=
    if !ok || 16383 < len then (3, s)
    else
      let b := s.txBytes l
      if b.2.1 then (2, b.2.2)
      else
        let q := b.2.2.ringAdmit st (fieldOf w2 0 22) (fieldOf w2 24 3) (bitOf w2 27) ts b.1
        (if q.1 then 0 else 1, q.2)
  let s := (r.2.txDone r.1 l).wr i (0x21 + t) ((s.n i (0x21 + t) + l.length) % 2 ^ 16)
  let s := s.setSw (fun w => { w with txTurn := tblSet (fun _ => 0) st ((t + 1) % 4) w.txTurn })
  let s := if r.1 = 0 then s else s.cntH i 0x27 i 0x28
  s.event i 0x28 (2 ^ (8 + t))

/-- A transmit ring with a whole frame: its descriptors and whether they are well formed. -/
def State.txReadyRing (s : State) (st t : Nat) : Option (List Nat × Bool) :=
  let i := 0x22A0 + st
  let ring := s.n i (0x19 + t)
  let head := s.n i (0x21 + t)
  if ringOn ring then s.txFrame ring head true ((s.n i (0x1D + t) + 2 ^ 16 - head) % 2 ^ 16) else none

/-- TX_RING_FRAME (R247): the four rings in turn, one frame. -/
def execTxRingFrame (st : Fin 10) (s : State) : Res :=
  let turn := tblGet (fun _ => 0) st.val s.sw.txTurn
  .next (if !s.swOn then s
  else match ((List.range 4).map (fun k => (turn + k) % 4)).find? (fun t => (s.txReadyRing st t).isSome) with
    | none => s
    | some t => (match s.txReadyRing st t with
      | some (l, ok) => s.txRing st t l ok
      | none => s))

/-! ### Audit (R248) -/

/-- References of frame `f`: queue entries, egress contexts and the ingress context that holds it. -/
def State.refsOf (s : State) (f : Nat) : Nat :=
  (s.sw.queues.map (fun q => (q.2.filter (fun e => e.frame = f)).length)).sum +
  ((List.range 12).filter (fun p => match (s.port p).cur with
    | some c => (match c.entry with | some e => e.frame = f | none => false) | none => false)).length

/-- The frame is still entering. -/
def State.entering (s : State) (f : Nat) : Bool :=
  (List.range 12).any (fun p => match (s.port p).ctx with | some c => c.frame = some f | none => false)

/-- Queue entries in use. -/
def State.entriesUsed (s : State) : Nat :=
  (s.sw.queues.map (fun q => q.2.length)).sum +
  ((List.range 12).filter (fun p => match (s.port p).cur with | some c => c.entry.isSome | none => false)).length

/-- AUDIT_PASS (R248): frames nothing refers to and cells in no list are freed, reference counts are set right. -/
def State.auditPass (s : State) : State :=
  let lost := s.sw.frames.filter (fun x => s.refsOf x.1 = 0 && !s.entering x.1)
  let fixed := (s.sw.frames.filter (fun x => s.refsOf x.1 ≠ 0 && s.refsOf x.1 ≠ x.2.refs)).length
  let used := s.sw.frames.flatMap (fun x => x.2.cells)
  let leaked := (List.range s.sw.freeNext).filter (fun c => !s.sw.freed.contains c && !used.contains c)
  let dead := 131072 - s.entriesUsed - s.n 0x2200 6
  let swept := (lost.map (fun x => x.2.cells.length)).sum + leaked.length + dead
  let s := s.setSw (fun w => { w with frames := w.frames.map (fun x =>
    if s.refsOf x.1 = 0 then x else (x.1, { x.2 with refs := s.refsOf x.1 })) })
  let s := lost.foldl (fun s x => s.freeFrame x.1) s
  let s := if leaked.isEmpty then s else (s.freeCells leaked).shareCells leaked.length
  let s := if dead = 0 then s else s.wr 0x2200 6 (s.n 0x2200 6 + dead)
  let s := (s.cnt 0x2200 0xC).swEvent 3
  let s := if swept = 0 then s else (s.wr 0x2200 0xD (min (s.n 0x2200 0xD + swept) (2 ^ 32 - 1))).swEvent 1
  let s := if fixed = 0 then s else (s.wr 0x2200 0xE (min (s.n 0x2200 0xE + fixed) (2 ^ 32 - 1))).swEvent 2
  if swept = 0 ∧ fixed = 0 then s else s.record 0x0204 (body [(swept, 4), (fixed, 4)])

/-- AUDIT_PASS: every AUDIT_PERIOD; 0 turns it off. -/
def execAuditPass (s : State) : Res := .next (if s.n 0x2200 0xB = 0 then s else s.auditPass)

end Sys2Proof.Machine
end

