-- ==== Sys2Proof/Machine/HostOps.lean ====
section
/-! DEFINITION. Host interfaces: secure sessions as they open and close, host DMA channels, resets of the PCIe and the
quad-SPI interface, host objects (R491–R509). -/

namespace Sys2Proof.Machine

/-! ### Sessions (R503, R504) -/

/-- The session of channel 44 + c; its SESSION_STATE. -/
def State.session (s : State) (c : Nat) : Session := tblGet (fun _ => {}) c s.host.sessions
def State.setSession (s : State) (c : Nat) (x : Session) : State :=
  { s with host := { s.host with sessions := tblSet (fun _ => {}) c x s.host.sessions } }
def State.sessionState (s : State) (c : Nat) : Nat := s.n 0x2F50 (1 + c)

/-- A session closes (R504): an open one is recorded with the reason of R567. -/
def State.sessionClose (s : State) (c reason : Nat) : State :=
  let x := s.session c
  let was := s.sessionState c
  let s := (s.wr 0x2F50 (1 + c) 0).setSession c {}
  if was = 2 then
    (s.event 0x2F40 6 (2 ^ 25)).record 0x0106 (body [(44 + c, 1), (x.path, 1), (reason, 1), (0, 1), (x.origin, 2)])
  else s

/-- The sessions of a path close with its reset. -/
def State.sessionsEnd (s : State) (path : Nat) : State :=
  (List.range 4).foldl (fun s c => if s.sessionState c ≠ 0 && (s.session c).path = path then s.sessionClose c 3 else s) s

/-! ### Host DMA (R496–R498) -/

/-- A channel beyond its objects, and its objects. -/
def State.dmaCh (s : State) (k : Nat) : DmaCh := tblGet (fun _ => {}) k s.host.dma
def State.setDmaCh (s : State) (k : Nat) (x : DmaCh) : State :=
  { s with host := { s.host with dma := tblSet (fun _ => {}) k x s.host.dma } }
def dmaObj (k : Nat) : Nat := 0x2F48 + k
def State.dmaOn (s : State) (k : Nat) : Bool := s.bit (dmaObj k) 1 4
def State.dmaReady (s : State) (k : Nat) : Bool := s.n (dmaObj k) 2 ≠ s.n (dmaObj k) 3

/-- The descriptor at HEAD. -/
def State.dmaDesc (s : State) (k : Nat) : Nat :=
  s.n (dmaObj k) 1 / 256 * 256 + 32 * (s.n (dmaObj k) 3 % ringSize (s.n (dmaObj k) 1))

/-- The path of host DMA (R20). -/
def dmaPath : Path := { id := 40, secure := false }

/-- A region of R16 as one row of its table, with the unit for those that have one per unit. -/
def mapRow : Region → Nat × Nat
  | .bank _ => (0, 0)
  | .mram => (1, 0)
  | .retained => (2, 0)
  | .mailbox c => (3, c)
  | .store f => (4, f)
  | .engineRam e => (5, e)
  | .pioRam b => (6, b)
  | .window => (7, 0)
  | .unmapped => (8, 0)

/-- The device range may be moved in this direction (R497): wholly in one region that ID 40 may access, outside the
partition of an enabled switch and the RAM of an engine that is not halted. -/
def State.dmaAllowed (s : State) (a n : Nat) (toDevice : Bool) : Bool :=
  let r := regionOf a
  let blocks := (List.range (n / 0x10_0000 + 2)).map (fun k => regionOf (min (a + k * 0x10_0000) (a + n - 1)))
  r ≠ .unmapped && r ≠ .window && blocks.all (fun q =>
    mapRow q = mapRow r && (if toDevice then s.mayWrite dmaPath q else s.mayRead dmaPath q) &&
    (match q with
      | .bank b => !(s.inSwitch b && s.n 0x2200 1 = 1)
      | .engineRam e => s.n (0x2400 + e) 1 = 0 || s.n (0x2400 + e) 1 = 3
      | _ => true))

/-- Every bank of the range serves accesses. -/
def State.rangeReady (s : State) (a n : Nat) : Bool :=
  (List.range (n / 0x10_0000 + 2)).all (fun k => s.ready (min (a + k * 0x10_0000) (a + n - 1)))

/-- The descriptor at HEAD is written back (R496): the bytes moved, then DONE with RESULT; HEAD advances, and the run
ends with LAST. -/
def State.dmaBack (s : State) (k result moved : Nat) : State :=
  let a := s.dmaDesc k
  let w := s.w32 (a + 0xC)
  let s := (s.memWrite dmaPath (a + 0x14) (leBytes moved 4)).memWrite dmaPath (a + 0x10) (leBytes (1 + 2 * result) 4)
  let s := (((s.cnt (dmaObj k) 5).addW (dmaObj k) 6 32 moved).wr (dmaObj k) 8 result).addW (dmaObj k) 3 16 1
  let s := s.setDmaCh k { s.dmaCh k with active := !bitOf w 25, flushing := !bitOf w 25 && result ≠ 0, moved := 0 }
  if bitOf w 26 then s.event 0x2F40 6 (2 ^ (8 + k)) else s

/-- The rest of a transfer is written back with RESULT 1, as far as it has been handed over. -/
def State.dmaFlush (s : State) (k : Nat) : Nat → State
  | 0 => s
  | n + 1 =>
    if (s.dmaCh k).flushing && s.dmaReady k && s.ready (s.dmaDesc k) then (s.dmaBack k 1 0).dmaFlush k n else s

/-- The word of the device range that fails, if any. -/
def State.dmaBad (s : State) (a n : Nat) : Option Nat :=
  (List.range (n / 8 + 2)).find? (fun j => s.hasDbe (a / 8 * 8 + 8 * j) && a / 8 * 8 + 8 * j < a + n)

/-- Bytes reach the device map from a 4-byte-aligned address on. -/
def State.dmaPut (s : State) (a : Nat) (d : List Byte) : State :=
  (List.range ((d.length + 3) / 4)).foldl (fun s j => s.memWrite dmaPath (a + 4 * j) ((d.drop (4 * j)).take 4)) s

/-- A descriptor fails with a RESULT of 2 to 4: it counts, and the rest of the transfer follows with RESULT 1. -/
def State.dmaFail (s : State) (k result moved : Nat) : State :=
  (((s.dmaBack k result moved).cnt (dmaObj k) 7).event 0x2F40 6 (2 ^ (16 + k))).dmaFlush k 4096

/-- The channel takes the descriptor at HEAD (R497). `d` is what the host gives, `bad` that the host answered with an
error after it. -/
def State.dmaTake (s : State) (k : Nat) (d : List Byte) (bad : Bool) : State :=
  let a := s.dmaDesc k
  if (s.dmaCh k).flushing then s.dmaFlush k 4096
  else
    let w := s.w32 (a + 0xC)
    let len := fieldOf w 0 24
    let dev := s.w32 (a + 8)
    let host := s.le a 8
    let s := if (s.dmaCh k).active then s else (s.wr (dmaObj k) 4 0).setDmaCh k { s.dmaCh k with active := true }
    let toDev := !bitOf w 24
    if (s.dmaBad a 32).isSome then (s.fetchBytes 40 a 32).2.2.dmaFail k 3 0
    else if len % 4 ≠ 0 || len = 0 || dev % 4 ≠ 0 || host % 4 ≠ 0 || !s.dmaAllowed dev len toDev then
      (s.violate 40).dmaFail k 4 0
    else if toDev then
      let got := d.take len
      let s := s.dmaPut dev got
      if bad then s.dmaFail k 2 got.length else (s.dmaPut (dev + got.length) (zeros (len - got.length))).dmaBack k 0 len
    else match s.dmaBad dev len with
      | some j =>
        let n := (dev / 8 * 8 + 8 * j) - dev
        let t := s.meetDbe (dev / 8 * 8 + 8 * j) 40
        (if n = 0 then t else t.emit (.hostWrite host (s.bytes dev n))).dmaFail k 3 n
      | none => (s.emit (.hostWrite host (s.bytes dev len))).dmaBack k 0 len

/-- An abort before the commit point (R498): ABORTED, the unfinished descriptors get RESULT 1. With no transfer pending
it has no effect (R27). `late` says that the commit point has passed: COMPLETED. -/
def State.dmaAbort (s : State) (k : Nat) (late : Bool) : State :=
  if !((s.dmaOn k && s.dmaReady k) || (s.dmaCh k).active) || (s.dmaCh k).flushing then s
  else if late then s.wr (dmaObj k) 4 2
  else ((s.wr (dmaObj k) 4 1).setDmaCh k { s.dmaCh k with active := true, flushing := true }).dmaFlush k 4096

/-! ### Interface resets (R494, R502) -/

/-- A reset of the PCIe interface, which is the reset of ID 34. -/
def State.pcieReset (s : State) : State :=
  let s := (s.clrBits 0x2F40 1 0x60)
  let s := { s with host := { s.host with msixMask := BitVec.allOnes 64, msixPend := 0 } }
  let s := (List.range 8).foldl (fun s k =>
    ((s.dmaAbort k false).clrBits (dmaObj k) 1 0x10).setDmaCh k {}) s
  let s := ((s.sessionsEnd 34).masterReset 34).pathReset 34
  (s.cnt 0x2F40 3).event 0x2F40 6 4

/-- The PCIe link goes down. -/
def State.pcieDown (s : State) : State :=
  if s.bit 0x2F40 1 0 then (s.wr 0x2F40 1 0).event 0x2F40 6 2 else s

/-- A reset of the quad-SPI interface, which is the reset of ID 35. -/
def State.qspiReset (s : State) : State :=
  let s := { s with host := { s.host with qDropped := false, qResetEnabled := false, qResult := none } }
  let s := { s with memc := { s.memc with waits := s.memc.waits.filter (fun w => w.path.id.val ≠ 35) } }
  (((s.sessionsEnd 35).masterReset 35).pathReset 35).event 0x2F40 6 8

/-! ### Accepted writes -/

/-- GO, ABORT, and host keys written by a host while no key is ENABLED (R505): the provisioning is recorded when the key
becomes usable. -/
def State.effHost (s : State) (p : Path) (i j v : Nat) : Option State :=
  if i = 0x2F42 ∧ j = 2 then some (s.wr 0x2F42 3 2)
  else if 0x2F48 ≤ i ∧ i ≤ 0x2F4F ∧ j = 4 then some (s.dmaAbort (i - 0x2F48) false)
  else if 0x2F58 ≤ i ∧ i ≤ 0x2F5F ∧ j = 0x11 then
    some (let t := s.wr i j v
          if v = 1 && !p.secure then t.record 0x0306 (body [(i - 0x2F58, 1), (p.id.val, 1)]) else t)
  else none

end Sys2Proof.Machine
end

