-- ==== Sys2Proof/Machine/InstOps.lean ====
section
/-! DEFINITION. Values of image objects at their LOCATION, and which the parameter store keeps (R39, R54, R403). -/

namespace Sys2Proof.Machine

/-- The slot value of a stored number of an object's width: signed types are extended (R37). -/
def InstObj.slot (o : InstObj) (v : Nat) : Nat :=
  if o.ty = 2 then ((BitVec.ofNat 8 v).signExtend 32).toNat
  else if o.ty = 3 then ((BitVec.ofNat 16 v).signExtend 32).toNat
  else v

/-- What the object reads: a descriptor of its LOCATION, or the value there; a word with a double-bit error gives 0
(R39, R109, log entry 45). -/
def State.instRead (s : State) (o : InstObj) : Nat × State :=
  if o.isStr then (o.loc + o.dflt % 2 ^ 32 * 2 ^ 32, s)
  else
    let r := s.fetchBytes 33 o.loc o.bytes
    if r.2.1 then (0, r.2.2) else (o.slot (leNat r.1), r.2.2)

/-- A write reaches LOCATION (R403). -/
def State.instWrite (s : State) (o : InstObj) (v : Nat) : State :=
  s.memWrite { id := 33, secure := true } o.loc (leBytes v o.bytes)

/-- Key under which the parameter store keeps an image object; a PRIVATE entry's index is no index of the OD. -/
def InstObj.key (o : InstObj) (n : Nat) : Nat :=
  if o.priv then odKey (0x2_0000 + n * 0x2000 + o.off) o.sub else odKey (instBase n + o.off) o.sub

/-- A key of an image object, and the instance it belongs to. -/
def imageKey (k : Nat) : Option Nat :=
  let i := k / 256
  if 0x2_0000 ≤ i then some ((i - 0x2_0000) / 0x2000)
  else if 0x3000 ≤ i ∧ i < 0x6000 ∧ 0x10 ≤ (i - 0x3000) % 0x800 then some ((i - 0x3000) / 0x800)
  else none

/-- The present values of every running image's stored objects. -/
def State.imageVals (s : State) : List (Nat × DWord) :=
  (List.range 6).flatMap (fun n =>
    ((s.inst n).objs.filter InstObj.stored).map (fun o => (o.key n, BitVec.ofNat 64 (s.instRead o).1)))

end Sys2Proof.Machine
end

