-- ==== Sys2Proof/Machine/Recorder.lean ====
section
/-! DEFINITION. The event recorder's commands (spec/20). -/

namespace Sys2Proof.Machine

/-- The bytes of a record (R513): length and type, sequence, minutes, power cycles, padded body, CRC-32C trailer. -/
def recBytes (r : Rec) : List Byte :=
  let len := recLen r.body
  let h := leBytes (len + r.typ * 0x1000) 4 ++ leBytes r.seq 4 ++ leBytes r.minutes 4 ++ leBytes r.cycles 4 ++
    r.body ++ zeros (len - 20 - r.body.length)
  h ++ leBytes (crc32c h).toNat 4

/-- Where records begin, and the bytes there are for them (R511). -/
def logBase : Nat := 0x0828_0040
def logSpace : Nat := 1048512

/-- Every supply monitor is in range, so MRAM may be written (R544). -/
def State.mramWritable (s : State) : Bool := s.n 0x2E10 0x10 = 0

/-- The types R567 lists. -/
def recTypes : List Nat := [
  0x101, 0x102, 0x103, 0x104, 0x105, 0x106, 0x201, 0x202, 0x203, 0x204, 0x205, 0x301, 0x302, 0x303, 0x304, 0x305,
  0x306, 0x401, 0x402, 0x403, 0x404, 0x405, 0x501, 0x502, 0x601, 0x602, 0x603, 0x604, 0x605, 0x701, 0x702, 0x703,
  0x704, 0x801, 0x802, 0x803, 0x804, 0x901, 0x902, 0x903, 0x904, 0x905]

/-- RECORD_EVENT (R514): an event of a listed type reaches the recorder. -/
def execRecordEvent (typ : Half) (b : List Byte) (s : State) : Res :=
  .next (if recTypes.contains typ.toNat && b.length ≤ 236 then s.record typ.toNat b else s)

/-- SCAN_DONE once the records that waited are written (R516). -/
def State.scanSettled (s : State) : State :=
  if s.log.scanPending && s.log.queue.isEmpty then
    ({ s with log := { s.log with scanPending := false } }).event 0x2D00 0xA 0x10
  else s

/-- Write the record at the head of the queue; its trailer is its commit (R514). -/
def State.commitRecord (s : State) : State :=
  match s.log.queue with
  | [] => s
  | r :: q =>
    let b := recBytes r
    let s := s.setBytes (logBase + s.n 0x2D00 3) b
    let s := (s.wr 0x2D00 3 (s.n 0x2D00 3 + b.length)).wr 0x2D00 1 r.seq
    (({ s with log := { s.log with queue := q } }).event 0x2D00 0xA 1).scanSettled

/-- RECORD_COMMITTED (R514): happens while a record is queued, the scan has ended and MRAM may be written. -/
def execRecordCommitted (s : State) : Res :=
  .next (if s.n 0x2D00 9 ≠ 0 && s.mramWritable then s.commitRecord else s)

/-- A log head copy at `a`: SEQ_BASE, CLEAR_MINUTES, CLEARS when its CRC-32C matches (R511). -/
def State.logHead (s : State) (a : Nat) : Option (Nat × Nat × Nat) :=
  if s.w32 (a + 12) = (crc32c (s.bytes a 12)).toNat then some (s.w32 a, s.w32 (a + 4), s.w32 (a + 8)) else none

/-- The head in force and whether it is copy A (R511). -/
def State.logHeadInForce (s : State) : (Nat × Nat × Nat) × Bool :=
  match s.logHead 0x0828_0000, s.logHead 0x0828_0010 with
  | some a, some b => if newer b.2.2 a.2.2 then (b, false) else (a, true)
  | some a, none => (a, true)
  | none, some b => (b, false)
  | none, none => ((0, 0, 0), false)

/-- One accepted record at offset `off` with sequence `seq`: its length and class, or none where the scan stops
(R516). -/
def State.scanOne (s : State) (off seq : Nat) : Option (Nat × Nat) :=
  let w := s.w32 (logBase + off)
  let len := fieldOf w 0 12
  let typ := fieldOf w 12 12
  if len < 20 ∨ 256 < len ∨ len % 4 ≠ 0 ∨ logSpace < off + len ∨ typ < 0x100 ∨ 0x9FF < typ then none
  else if s.w32 (logBase + off + 4) ≠ seq then none
  else if s.w32 (logBase + off + len - 4) ≠ (crc32c (s.bytes (logBase + off) (len - 4))).toNat then none
  else some (len, typ / 256)

/-- The scan of R516 from `off`: write position, next sequence, bytes per class. -/
def State.scanLog (s : State) : Nat → Nat → Nat → Tbl Nat → Nat × Nat × Tbl Nat
  | 0, off, seq, cb => (off, seq, cb)
  | n + 1, off, seq, cb =>
    match s.scanOne off seq with
    | none => (off, seq, cb)
    | some (len, c) =>
      s.scanLog n (off + len) ((seq + 1) % 2 ^ 32) (tblSet (fun _ => 0) c (tblGet (fun _ => 0) c cb + len) cb)

/-- The scan ends: the write position, the sequence and the allowances are known, and the records that waited are
admitted in order (R516, R517). -/
def State.finishScan (s : State) : State :=
  let h := s.logHeadInForce.1
  let r := s.scanLog 52426 0 h.1 []
  let waiting := s.log.queue
  let s := { s with log := { s.log with
    queue := [], nextSeq := r.2.1, classBytes := r.2.2, clearMinutes := h.2.1, scanPending := true } }
  let s := ((((s.wr 0x2D00 1 ((r.2.1 + 2 ^ 32 - 1) % 2 ^ 32)).wr 0x2D00 2 h.1).wr 0x2D00 3 r.1).wr 0x2D00 7 h.2.2)
  let s := (s.wr 0x2D00 9 1).showAllowances
  (waiting.foldl (fun s r => s.admitRec r) s).scanSettled

/-- LOG_SCAN_DONE (R516). -/
def execLogScanDone (s : State) : Res := .next (if s.n 0x2D00 9 = 0 then s.finishScan else s)

/-- A new log (R520): every record ordered before is committed and cleared away, the older head copy takes the new
SEQ_BASE, and the 0x0301 record is the first of the new log. -/
def State.clearLog (s : State) (master : Nat) : State :=
  let base := s.log.nextSeq
  let first := s.n 0x2D00 2
  let last := (base + 2 ^ 32 - 1) % 2 ^ 32
  let clears := (s.n 0x2D00 7 + 1) % 2 ^ 32
  let h := leBytes base 4 ++ leBytes (s.n 0x2D00 4) 4 ++ leBytes clears 4
  let a := if s.logHeadInForce.2 then 0x0828_0010 else 0x0828_0000
  let s := s.setBytes a (h ++ leBytes (crc32c h).toNat 4)
  let r : Rec := { typ := 0x0301, body := body [(first, 4), (last, 4), (master, 1)], minutes := s.n 0x2D00 4,
                   cycles := s.n 0x2D00 5, seq := base }
  let s := s.setBytes logBase (recBytes r)
  let s := { s with log := { s.log with
    queue := [], nextSeq := (base + 1) % 2 ^ 32, clearMinutes := s.n 0x2D00 4
    classBytes := [(3, recLen r.body)] } }
  let s := (((s.wr 0x2D00 1 base).wr 0x2D00 2 base).wr 0x2D00 3 (recLen r.body)).wr 0x2D00 7 clears
  ((s.wr 0x2D00 9 1).showAllowances).event 0x2D00 0xA 9

/-- LOG_CLEAR (R520): the clear signature written to 0x2D00:08 by a secure path. -/
def execLogClear (p : Path) (v : Word) (s : State) : Res :=
  .next (s.guard p 0x2D00 8 v.toNat (fun s => s.clearLog p.id.val))

/-- Write one of the two copies of a log counter (R511); updates alternate. -/
def State.logCounter (s : State) (a v : Nat) : State :=
  s.setBytes (a + 8 * (v % 2)) (leBytes v 4 ++ leBytes (crc32c (leBytes v 4)).toNat 4)

/-- Operating time runs: in every state but fuse fault and Standby, and not in steps 1–4 of a start that begins at
step 1 (R512). -/
def State.minutesRun (s : State) : Bool :=
  s.pw.aonGood && s.pw.coreGood && s.dev ≠ 6 && s.pw.sleep ≠ .standby &&
  !(s.pw.starting && s.n 0x2000 2 < 4 && s.pw.cold)

/-- OPERATING_MINUTE (R512). -/
def execOperatingMinute (s : State) : Res :=
  .next (if s.minutesRun then
    let s := s.cntS 0x2D00 4
    (s.logCounter 0x0828_0020 (s.n 0x2D00 4)).showAllowances
  else s)

end Sys2Proof.Machine
end

