-- ==== Sys2Proof/Machine/Params.lean ====
section
/-! DEFINITION. The parameter store, the option block and the start counters (R54–R59, R91, R94, R95). -/

namespace Sys2Proof.Machine

/-! ### Parameter store -/

/-- Whether index `i` lies in group `g` of R55. -/
def inGroup (g i : Nat) : Bool :=
  if g = 1 then (0x1000 ≤ i && i < 0x6000) || 0x2_0000 ≤ i
  else if g = 2 then 0x1000 ≤ i && i < 0x2000
  else if g = 3 then 0x2000 ≤ i && i < 0x3000
  else (0x3000 ≤ i && i < 0x6000) || 0x2_0000 ≤ i

/-- A stored object (R54): its table line marks it so. -/
def isStored (k : Nat) : Bool :=
  match odRow (k / 256) (k % 256) with
  | some r => r.kind = .stored || r.kind = .enable
  | none => false

/-- An enable object of its block (R54). -/
def isEnable (k : Nat) : Bool :=
  match odRow (k / 256) (k % 256) with
  | some r => r.kind = .enable
  | none => false

/-- The newest valid copy and whether it is A (R57). -/
def ParamStore.newest (st : ParamStore) : Option (ParamCopy × Bool) :=
  if st.copyA.valid then
    if st.copyB.valid && newer st.copyB.gen st.copyA.gen then some (st.copyB, false) else some (st.copyA, true)
  else if st.copyB.valid then some (st.copyB, false) else none

/-- Replace one copy. -/
def ParamStore.put (st : ParamStore) (a : Bool) (c : ParamCopy) : ParamStore :=
  if a then { st with copyA := c } else { st with copyB := c }

/-- The new copy of R56: the newest valid copy, the saved groups' entries replaced by their present values (those of an
instance that does not run stay, R406), the restored groups' entries removed (a group in both is restored, R58), generation and SAVES counted up. -/
def State.newCopy (s : State) (saves restores : List Nat) : ParamCopy :=
  let old := (s.store.newest.map (·.1)).getD {}
  let absent := fun k => match imageKey k with | some n => (s.inst n).objs.isEmpty | none => false
  let keep := tblKeep (fun k => !restores.any (fun g => inGroup g (k / 256)) &&
    (!saves.any (fun g => inGroup g (k / 256)) || absent k)) old.vals
  let now := (tblKeep isStored s.od ++ s.imageVals).filter (fun e => saves.any (fun g => inGroup g (e.1 / 256)) &&
    !restores.any (fun g => inGroup g (e.1 / 256)))
  { valid := true, gen := (old.gen + 1) % 2 ^ 32, saves := min (old.saves + 1) (2 ^ 32 - 1)
    vals := now.foldl (fun t (k, v) => tblIns k v t) keep }

/-- Start writing a new copy over the older one, whose commit word is gone from then on (R56, R57). -/
def State.startCopy (s : State) (saves restores : List Nat) : State :=
  let c := s.newCopy saves restores
  let toA := match s.store.newest with | some (_, a) => !a | none => true
  let res := if saves.isEmpty then 2 else if restores.isEmpty then 1 else 4
  let st := s.store.put toA {}
  ({ s with store := { st with heldSave := [], heldRestore := [], spacing := true, writing := some (c, toA, res) } }).wr
    0x2006 1 2

/-- A save or restore of group `g`: held while the 100 ms run or a copy is written, joined to what is held (R58). -/
def State.paramOp (s : State) (restore : Bool) (g : Nat) : State :=
  if s.store.spacing || s.store.writing.isSome then
    let s := { s with store :=
      if restore then { s.store with heldRestore := s.store.heldRestore.insert g }
      else { s.store with heldSave := s.store.heldSave.insert g } }
    if s.store.writing.isSome then s else s.wr 0x2006 1 1
  else if restore then s.startCopy [] [g] else s.startCopy [g] []

/-- Start what is held. -/
def State.startHeld (s : State) : State :=
  if s.store.heldSave.isEmpty && s.store.heldRestore.isEmpty then s
  else s.startCopy s.store.heldSave s.store.heldRestore

/-- PARAM_SAVE (R55, R56, R58). -/
def execParamSave (p : Path) (sub : Byte) (v : Word) (s : State) : Res :=
  .next (s.guard p 0x1010 sub.toNat v.toNat (fun s => s.paramOp false sub.toNat))

/-- PARAM_RESTORE (R55, R56, R58). -/
def execParamRestore (p : Path) (sub : Byte) (v : Word) (s : State) : Res :=
  .next (s.guard p 0x1011 sub.toNat v.toNat (fun s => s.paramOp true sub.toNat))

/-- PARAM_HOLD_EXPIRY (R58): the 100 ms end; what is held starts as one new copy. -/
def execParamHoldExpiry (s : State) : Res :=
  .next (
    let s := { s with store := { s.store with spacing := false } }
    if s.store.writing.isSome then s else s.startHeld)

/-- The copy written is verified by reading it back (R56, R59). -/
def State.copyWritten (s : State) (ok : Bool) : State :=
  match s.store.writing with
  | none => s
  | some (c, toA, res) =>
    let st := { s.store with writing := none }
    let s :=
      if ok then
        ((((({ s with store := st.put toA c }).wr 0x2006 2 res).wr 0x2006 4 c.gen).wr 0x2006 5 c.saves).event 0x2006 6 1)
      else (({ s with store := st }).wr 0x2006 2 3).event 0x2006 6 2
    let s := s.wr 0x2006 1 (if s.store.heldSave.isEmpty && s.store.heldRestore.isEmpty then 0 else 1)
    if s.store.spacing then s else s.startHeld

/-- PARAM_COPY_WRITTEN (R56, R59). -/
def execParamCopyWritten (ok : Bool) (s : State) : Res := .next (s.copyWritten ok)

/-! ### Option block -/

/-- The newest valid option copy and whether it is A (R91). -/
def OptStore.newest (o : OptStore) : Option (OptCopy × Bool) :=
  if o.copyA.valid then
    if o.copyB.valid && newer o.copyB.gen o.copyA.gen then some (o.copyB, false) else some (o.copyA, true)
  else if o.copyB.valid then some (o.copyB, false) else none

/-- Start a commit of subs 02–06 to the older copy, whose commit word is gone from then on (R91). -/
def State.startCommit (s : State) : State :=
  let toA := match s.opts.newest with | some (_, a) => !a | none => true
  let gen := match s.opts.newest with | some (c, _) => (c.gen + 1) % 2 ^ 32 | none => 1
  let c : OptCopy := { valid := true, gen := gen, en := s.rd 0x2007 2, level := s.rd 0x2007 4, threshold := s.n 0x2007 6 }
  let o := if toA then { s.opts with copyA := {} } else { s.opts with copyB := {} }
  ({ s with opts := { o with writing := some (c, toA), held := false } }).wr 0x2007 9 1

/-- The options signature: a commit, or one held commit while one is writing (R91). -/
def State.doCommit (s : State) : State :=
  if s.opts.writing.isSome then ({ s with opts := { s.opts with held := true } }).wr 0x2007 9 2 else s.startCommit

/-- OPTIONS_COMMIT (R91). -/
def execOptionsCommit (p : Path) (v : Word) (s : State) : Res := .next (s.guard p 0x2007 9 v.toNat State.doCommit)

/-- OPTIONS_COMMIT_END (R91): the copy is valid; a held commit starts with the values as they stand. -/
def execOptionsCommitEnd (s : State) : Res :=
  .next (match s.opts.writing with
    | none => s
    | some (c, toA) =>
      let o := if toA then { s.opts with copyA := c, writing := none } else { s.opts with copyB := c, writing := none }
      let s := ({ s with opts := o }).wr 0x2007 9 0
      if s.opts.held then s.startCommit else s)

/-- The option load (R89, R91): the newest valid copy or the factory defaults; the quiet levels apply at its end. -/
def State.optionLoad (s : State) : State :=
  let c := (s.opts.newest.map (·.1)).getD {}
  let src := match s.opts.newest with | some (_, true) => 1 | some (_, false) => 2 | none => 0
  let s := { s with pw := { s.pw with quietEn := c.en, quietLevel := c.level, threshold := c.threshold } }
  let s := ((((s.wrD 0x2007 2 c.en).wrD 0x2007 4 c.level).wr 0x2007 6 c.threshold).wr 0x2007 7 c.gen).wr 0x2007 8 src
  if src = 0 then (s.event 0x2000 5 0x10).record 0x0303 (body [(2, 1)]) else s

/-! ### Start counters (R95) -/

/-- A start counter copy at `a`: START_TRIES, STARTS and sequence when its CRC-32C matches. -/
def State.startCopyAt (s : State) (a : Nat) : Option (Nat × Nat × Nat) :=
  if s.w32 (a + 12) = (crc32c (s.bytes a 12)).toNat then some (s.le a 1, s.w32 (a + 4), s.w32 (a + 8)) else none

/-- The copy in force and whether it is A; counts are 0 where neither is valid (R95). -/
def State.startInForce (s : State) : (Nat × Nat × Nat) × Bool :=
  match s.startCopyAt 0x0838_7FC0, s.startCopyAt 0x0838_FFC0 with
  | some a, some b => if newer b.2.2 a.2.2 then (b, false) else (a, true)
  | some a, none => (a, true)
  | none, some b => (b, false)
  | none, none => ((0, 0, 0), false)

/-- Write the older copy, with the next sequence and the CRC last, and show the values in 0x2002 (R95). While a supply
monitor is out of range no MRAM write starts (R544): the values wait. -/
def State.writeStart (s : State) (tries starts : Nat) : State :=
  if !s.mramWritable then
    ({ s with pw := { s.pw with startWrite := some (tries, starts) } }.wr 0x2002 1 tries).wr 0x2002 5 starts
  else
  let s := { s with pw := { s.pw with startWrite := none } }
  let f := s.startInForce
  let a := if f.2 then 0x0838_FFC0 else 0x0838_7FC0
  let h := leBytes tries 4 ++ leBytes starts 4 ++ leBytes ((f.1.2.2 + 1) % 2 ^ 32) 4
  ((s.setBytes a (h ++ leBytes (crc32c h).toNat 4)).wr 0x2002 1 tries).wr 0x2002 5 starts

/-- What waited for the supplies is written (R544). -/
def State.writeWaiting (s : State) : State :=
  match s.pw.startWrite with
  | some (t, n) => if s.mramWritable then s.writeStart t n else s
  | none => s

/-- TRIES_CLEAR (R94, R95): writing 1 to 0x2002:03 writes START_TRIES to 0. -/
def State.clearTries (s : State) (v : Nat) : State :=
  if v = 1 then s.writeStart 0 (s.n 0x2002 5) else s

/-- TRIES_CLEAR. -/
def execTriesClear (p : Path) (v : Word) (s : State) : Res :=
  .next (s.guard p 0x2002 3 v.toNat (fun s => s.clearTries v.toNat))

end Sys2Proof.Machine
end

