-- ==== Sys2Proof/Machine/EngineCtl.lean ====
section
/-! DEFINITION. Engine control, heartbeats, engine images and the image library (R123–R135, R140–R143). -/

namespace Sys2Proof.Machine

/-- Event status of engine `e`'s facet: bit `b` + e mod 4 (R141). -/
def State.engEvent (s : State) (e b : Nat) : State := s.event (0x2440 + e / 4) 0x11 (2 ^ (b + e % 4))

/-- STATE of core `c` (R123). -/
def State.coreState (s : State) (c : Nat) : Nat := s.n (coreIdx c) 1
def State.setCoreState (s : State) (c v : Nat) : State := s.wr (coreIdx c) 1 v

/-- The program counter of core `c`. -/
def State.pc (s : State) (c : Nat) : Nat := s.n (coreIdx c) 5
def State.setPc (s : State) (c v : Nat) : State := s.wr (coreIdx c) 5 v

/-- A wait of an instruction in progress, which a halt lets finish: for a bank, or for posted stores; the waits that R124
lists (an empty or full lane FIFO, time, event) are abandoned. -/
def waitStays (w : WaitFor) : Bool := w = .bank || w = .stores

/-- A halt of a running engine becomes pending: an instruction that waits as R124 lists is abandoned, the program counter
stays on it; one in progress goes on to its end. `why` is the HALT_CAUSE to come. -/
def State.haltPending (s : State) (e why : Nat) : State :=
  (s.setCoreState e 2).setEngine e { s.engine e with
    haltWhy := why, waiting := if waitStays (s.engine e).waiting then (s.engine e).waiting else .none }

/-- RUN (R126): starts a HALTED or FAULT engine at its program counter; an engine whose image needs a reload stays
halted (R129). -/
def State.doRun (s : State) (e : Nat) : State :=
  if (s.coreState e = 0 ∨ s.coreState e = 3) ∧ (s.engine e).needReload = false then
    (s.setCoreState e 1).setEngine e { s.engine e with haltWhy := 0, waiting := .none }
  else s

/-- HALT (R124, R126). -/
def State.doHalt (s : State) (e : Nat) : State := if s.coreState e = 1 then s.haltPending e 1 else s

/-- STEP (R126): one instruction, then halt with cause 7. -/
def State.doStep (s : State) (e : Nat) : State :=
  if (s.coreState e = 0 ∨ s.coreState e = 3) ∧ (s.engine e).needReload = false then
    (s.setCoreState e 1).setEngine e { s.engine e with haltWhy := 7, waiting := .none }
  else s

/-- LOAD (R134, R135): refused with 5 while RUNNING or HALTING, ignored while LOADING; an engine whose IMAGE_ID is 0
has nothing to load. -/
def State.doLoad (s : State) (e : Nat) : State :=
  let st := s.coreState e
  if st = 1 ∨ st = 2 then s.wr (0x2400 + e) 0xD 5
  else if st = 4 ∨ s.n (0x2400 + e) 3 = 0 then s
  else s.setCoreState e 4

/-- A write of COMMAND (R140). -/
def State.engCommand (s : State) (e v : Nat) : State :=
  if v = 1 then s.doRun e else if v = 2 then s.doHalt e else if v = 3 then s.doStep e else s.doLoad e

/-- ENGINE_RUN: COMMAND 1 (R123, R125, R126). -/
def execEngineRun (p : Path) (e : Fin 32) (s : State) : Res :=
  .next (s.guard p (0x2400 + e.val) 2 1 (fun s => s.doRun e))

/-- ENGINE_HALT: COMMAND 2 (R124, R126). -/
def execEngineHalt (p : Path) (e : Fin 32) (s : State) : Res :=
  .next (s.guard p (0x2400 + e.val) 2 2 (fun s => s.doHalt e))

/-- ENGINE_STEP: COMMAND 3 (R126). -/
def execEngineStep (p : Path) (e : Fin 32) (s : State) : Res :=
  .next (s.guard p (0x2400 + e.val) 2 3 (fun s => s.doStep e))

/-- ENGINE_LOAD: COMMAND 4 (R134, R135). -/
def execEngineLoad (p : Path) (e : Fin 32) (s : State) : Res :=
  .next (s.guard p (0x2400 + e.val) 2 4 (fun s => s.doLoad e))

/-- The pending halt completes: HALTED with its cause and ENGINE_HALTED (R123, R141). -/
def State.halted (s : State) (e : Nat) : State :=
  (((s.setCoreState e 0).wr (0x2400 + e) 6 (s.engine e).haltWhy).setEngine e
    { s.engine e with haltWhy := 0, waiting := .none }).engEvent e 8

/-- ENGINE_HALTED (R123, R124): the instruction in progress and the posted stores have finished. -/
def execEngineHalted (e : Fin 32) (s : State) : Res :=
  .next (if s.coreState e = 2 && (s.engine e).posted.isEmpty && !waitStays (s.engine e).waiting then s.halted e
    else s)

/-! ### Images (R131–R135) -/

/-- An image's header fields at address `a` (R131). -/
structure ImageHead where
  id : Nat
  version : Nat
  rollback : Nat
  attrs : Nat
  entry : Nat
  words : Nat
  dram : Nat
  objs : Nat
  total : Nat
  perms : Nat
  serial : Nat
  deriving DecidableEq, Repr

/-- Read the header. -/
def State.imageHead (s : State) (a : Nat) : ImageHead :=
  { id := s.le (a + 6) 2, version := s.w32 (a + 8), rollback := s.le (a + 0xC) 2, attrs := s.w32 (a + 0x10)
    entry := s.le (a + 0x14) 2, words := s.le (a + 0x16) 2, dram := s.w32 (a + 0x18), objs := s.w32 (a + 0x20)
    total := s.w32 (a + 0x24), perms := s.w32 (a + 0x88), serial := s.w32 (a + 0x8C) }

/-- Every field obeys its rule (R131, R132). -/
def State.imageFormat (s : State) (a : Nat) : Bool :=
  let h := s.imageHead a
  s.w32 a = 0x8416_E001 && s.le (a + 4) 2 = 1 && h.id ≠ 0 && h.id ≠ 0xFFFF && s.le (a + 0xE) 2 = 0 &&
  h.attrs < 0x80 && fieldOf h.attrs 2 2 ≤ 2 && h.entry < h.words && 1 ≤ h.words && h.words ≤ 8192 &&
  h.dram ≤ 16384 && h.dram % 8 = 0 && h.objs ≤ 16384 && h.total = 256 + 4 * h.words + h.dram + h.objs + 64 &&
  (0x8000 ≤ h.id || bitOf h.perms 1) && (s.bytes (a + 0x90) 8).all (· = 0) && (s.bytes (a + 0xD8) 40).all (· = 0)

/-- PAYLOAD_DIGEST matches the three sections (R131, R132). -/
def State.imageDigest (s : State) (a : Nat) : Bool :=
  let h := s.imageHead a
  s.bytes (a + 0x28) 32 = sha256 (s.bytes (a + 0x100) (4 * h.words + h.dram + h.objs))

/-- Directory entries in use (R143). -/
def State.dirUsed (s : State) (d : Nat) : Bool := s.n (0x2481 + d) 1 ≠ 0

/-- The directory entry of the highest version of image `id` (R133). -/
def State.findImage (s : State) (id : Nat) : Option Nat :=
  (List.range 32).foldl (fun best d =>
    if s.n (0x2481 + d) 1 = id && id ≠ 0 then
      match best with
      | none => some d
      | some b => if s.n (0x2481 + b) 2 < s.n (0x2481 + d) 2 then some d else some b
    else best) none

/-- Addresses and lengths in 4 KiB pages of the installed images. -/
def State.imagePages (s : State) : List (Nat × Nat) :=
  ((List.range 32).filter s.dirUsed).map (fun d => (s.n (0x2481 + d) 4 / 4096, (s.n (0x2481 + d) 5 + 4095) / 4096))

/-- Page `q` of the library (0–383) is free. -/
def pageFree (l : List (Nat × Nat)) (q : Nat) : Bool := l.all (fun (a, n) => q < a - 0x8080 || a - 0x8080 + n ≤ q)

/-- Free pages run from page `q` on, at most `n`. -/
def freeRun (l : List (Nat × Nat)) : Nat → Nat → Nat
  | 0, _ => 0
  | n + 1, q => if q < 384 && pageFree l q then 1 + freeRun l n (q + 1) else 0

/-- ENTRIES and FREE_BYTES follow the directory (R142). -/
def State.showLibrary (s : State) : State :=
  let l := s.imagePages
  let best := (List.range 384).foldl (fun m q => max m (freeRun l 384 q)) 0
  (s.wr 0x2480 1 ((List.range 32).filter s.dirUsed).length).wr 0x2480 2 (best * 4096)

/-- An install or removal starts (R133): STATUS busy. -/
def State.libraryStart (s : State) (install : Bool) (master : Nat) : State :=
  ({ s with lib := { busy := some (install, master) } }).wr 0x2480 7 1

/-- IMAGE_INSTALL: COMMAND 1 (R133, R142). -/
def execImageInstall (p : Path) (s : State) : Res :=
  .next (s.guard p 0x2480 5 1 (fun s => s.libraryStart true p.id.val))

/-- IMAGE_REMOVE: COMMAND 2 (R133, R142). -/
def execImageRemove (p : Path) (s : State) : Res :=
  .next (s.guard p 0x2480 5 2 (fun s => s.libraryStart false p.id.val))

/-- The end of an install (R133): verification (`signed`: both signatures are valid), rollback, room, and the new
directory entry with its record. -/
def State.installDone (s : State) (master : Nat) (signed : Bool) : State :=
  let a := s.n 0x2480 3
  let h := s.imageHead a
  if !(signed && inBankOrStore a && s.imageFormat a && h.total = s.n 0x2480 4 && s.imageDigest a) then s.wr 0x2480 7 3
  else if (List.range 32).any (fun d => s.n (0x2481 + d) 1 = h.id && h.rollback < s.n (0x2481 + d) 6) then s.wr 0x2480 7 6
  else
    match (List.range 32).find? (fun d => !s.dirUsed d) with
    | none => s.wr 0x2480 7 7
    | some d =>
      let need := (h.total + 4095) / 4096
      match (List.range 384).find? (fun q => freeRun s.imagePages need q = need) with
      | none => s.wr 0x2480 7 4
      | some q =>
        let at' := 0x0808_0000 + q * 4096
        let s := s.setBytes at' (s.bytes a h.total)
        let i := 0x2481 + d
        let s := ((((s.wr i 1 h.id).wr i 2 h.version).wr i 3 h.attrs).wr i 4 at').wr i 5 h.total
        let s := (((s.wr i 6 h.rollback).wr i 7 h.serial).wr i 8 1).showLibrary
        (s.wr 0x2480 7 2).record 0x0404 (body [(h.id, 2), (master, 1), (0, 1), (h.version, 4), (h.serial, 4)])

/-- The end of a removal (R133): refused while an engine that is not HALTED names the image. With no such image there
is nothing to remove (log entry 16). -/
def State.removeDone (s : State) (master : Nat) : State :=
  let id := s.n 0x2480 6
  if (List.range 32).any (fun e => s.n (0x2400 + e) 3 = id && s.coreState e ≠ 0) then s.wr 0x2480 7 5
  else match s.findImage id with
    | none => s.wr 0x2480 7 2
    | some d =>
      let i := 0x2481 + d
      let v := s.n i 2
      let sn := s.n i 7
      let s := (s.dropSubs i 1 8).showLibrary
      (s.wr 0x2480 7 2).record 0x0405 (body [(id, 2), (master, 1), (0, 1), (v, 4), (sn, 4)])

/-- IMAGE_LIBRARY_OP_DONE (R133, R142). -/
def execImageLibraryOpDone (signed : Bool) (s : State) : Res :=
  .next (match s.lib.busy with
    | none => s
    | some (install, m) =>
      let s := { s with lib := { busy := none } }
      if install then s.installDone m signed else s.removeDone m)

/-- Where engine `e`'s RAMs lie in the device map (R16). -/
def iramAt (e : Nat) : Nat := 0x0E00_0000 + e * 0x1_0000
def dramAt (e : Nat) : Nat := iramAt e + 0x8000

/-- A load of engine `e` fails with cause `st` (R134). -/
def State.loadFailed (s : State) (e st : Nat) : State :=
  (((s.setCoreState e 0).wr (0x2400 + e) 0xD st).event (0x2440 + e / 4) 0x11 0x8000).record 0x0402
    (body [(e, 1), (st, 1), (s.n (0x2400 + e) 3, 2)])

/-- A load of engine `e` from directory entry `d` succeeds (R134 steps 3–6). -/
def State.loadGood (s : State) (e d : Nat) : State :=
  let a := s.n (0x2481 + d) 4
  let h := s.imageHead a
  let code := s.bytes (a + 0x100) (4 * h.words)
  let data := s.bytes (a + 0x100 + 4 * h.words) h.dram
  let s := ((s.zeroRange (iramAt e) (iramAt e + 0xC000)).setBytes (iramAt e) code).setBytes (dramAt e) data
  let s := { s with memc := { s.memc with
    dbe := tblClear (iramAt e / 8) (iramAt e / 8 + 0x1800) s.memc.dbe
    sbe := tblClear (iramAt e / 8) (iramAt e / 8 + 0x1800) s.memc.sbe } }
  let s := ((s.setPc e h.entry).wr (0x2400 + e) 0xD 1).wr (0x2400 + e) 0xE
    (if bitOf h.attrs 0 && bitOf h.perms 0 then 1 else 0)
  let s := s.setEngine e { s.engine e with words := h.words, image := h.id, needReload := false, haltWhy := 0, waiting := .none }
  let s := (s.setCoreState e (if s.n (0x2400 + e) 4 = 1 then 1 else 0)).wr (0x2481 + d) 8 1
  s.event (0x2440 + e / 4) 0x11 0x4000

/-- The load of engine `e` ends (R134): `signed` says the image's signatures are valid, `digestOk` that the digest over
the copied RAM contents matches. -/
def State.loadDone (s : State) (e : Nat) (signed digestOk : Bool) : State :=
  match s.findImage (s.n (0x2400 + e) 3) with
  | none => s.loadFailed e 2
  | some d =>
    let a := s.n (0x2481 + d) 4
    if !s.imageFormat a then (s.wr (0x2481 + d) 8 0).loadFailed e 6
    else if !(signed && s.imageDigest a) then (s.wr (0x2481 + d) 8 0).loadFailed e 3
    else if !digestOk then s.loadFailed e 4
    else s.loadGood e d

/-- ENGINE_LOAD_DONE (R134). -/
def execEngineLoadDone (e : Fin 32) (signed digestOk : Bool) (s : State) : Res :=
  .next (if s.coreState e = 4 then s.loadDone e signed digestOk else s)

/-- HB_PERIOD_EXPIRY (R128): HB_MISSED, the count, HB_ACTION. -/
def execHbPeriodExpiry (e : Fin 32) (s : State) : Res :=
  .next (if s.n (0x2400 + e.val) 9 ≠ 0 && s.coreState e = 1 then
    let s := (s.cnt (0x2400 + e.val) 0xC).engEvent e 4
    let a := s.n (0x2400 + e.val) 0xA
    if a = 1 then s.haltPending e 4 else if a = 2 then s.facetReset (e.val / 4) 0 1 else s
  else s)

/-- FACET_DBE_RESTART (R129): Apex restores the bindings from the parameter store and reloads the engines; each load's
end starts the engine if AUTO_START = 1. -/
def State.dbeRestart (s : State) (f : Nat) : State :=
  let vals : Tbl DWord := match s.store.newest with | some (c, _) => c.vals | none => []
  let i := 0x2440 + f
  let s := (List.range 8).foldl (fun s j => s.wrD i (j + 1) (tblGet odDefault (odKey i (j + 1)) vals)) s
  (List.range 4).foldl (fun s k =>
    let e := 4 * f + k
    let s := s.setEngine e { s.engine e with rxBound := s.n i (1 + k), txBound := s.n i (5 + k) }
    if s.n (0x2400 + e) 3 ≠ 0 && s.coreState e = 0 then s.setCoreState e 4 else s) s

/-- FACET_DBE_RESTART. -/
def execFacetDbeRestart (f : Fin 8) (s : State) : Res :=
  .next (if s.n (0x2440 + f.val) 0x15 = 1 && s.bit 0x2003 5 f && (s.engine (4 * f.val)).needReload then s.dbeRestart f
         else s)

end Sys2Proof.Machine
end

