-- ==== Sys2Proof/Machine/LatBase.lean ====
section
/-! DEFINITION. Lattice neighbours as links come and go (R373), and the confirmed configuration (R98, R102). -/

namespace Sys2Proof.Machine

/-- Set an event of the Lattice globals. -/
def State.latEvent (s : State) (b : Nat) : State := s.event 0x2800 0x10 (2 ^ b)

/-- Neighbour objects (R394). -/
def State.nbN (s : State) (n j : Nat) : Nat := s.n (0x2810 + n) j

/-- Neighbour `n` is lost (R373). -/
def State.neighbourLost (s : State) (n : Nat) : State :=
  let was := s.nbN n 1
  let s := s.wr (0x2810 + n) 1 0
  let s := { s with lat := { s.lat with names := tblDel n s.lat.names } }
  if was = 2 then (s.cnt (0x2810 + n) 9).latEvent 3 else s

/-- Every neighbour on port `p` ends with its link (R373). -/
def State.neighboursDown (s : State) (p : Nat) : State :=
  (List.range 16).foldl (fun s n => if s.nbN n 1 ≠ 0 && s.nbN n 5 = p then s.neighbourLost n else s) s

/-- A write of CONFIG_CONFIRMED clears WAKE_STALE (R102). -/
def State.confirmConfig (s : State) (v : Nat) : State :=
  ({ s with pw := { s.pw with confirmPending := false } }.wr 0x2000 7 v).unhold 0x10

end Sys2Proof.Machine
end

