-- ==== Sys2Proof/Machine/Link.lean ====
section
/-! DEFINITION. Links: settings and how they take effect, link up and down, SerDes lock, MDIO masters, and the chord
directions' state as it follows the links (R169–R172, R185, R192–R199). -/

namespace Sys2Proof.Machine

/-! ### Chord direction state (R171) -/

/-- What STATE of a field-port direction reads. -/
def State.chordNow (s : State) (d : Nat) : Nat :=
  let c := s.chordOf d
  if !c.enable then 0
  else if !s.linkUp d || !s.linkUp c.egress then 1
  else if s.speedOf d ≠ s.speedOf c.egress then 3
  else if s.speedOf d = 1 then 4
  else 2

/-- STATE follows; LINK_MISMATCH when it becomes 3 or 4. -/
def State.chordFollow (s : State) (d : Nat) : State :=
  let v := s.chordNow d
  if s.n (0x2500 + d) 0x12 = v then s
  else
    let s := s.wr (0x2500 + d) 0x12 v
    if v = 3 ∨ v = 4 then s.event 0x2510 1 0x2_0000 else s

/-- All field-port directions follow, and CHORD_EGRESS of every field port with them. -/
def State.chordsFollow (s : State) : State :=
  let s := (List.range 8).foldl State.chordFollow s
  (List.range 8).foldl (fun s p => s.putBits (0x2300 + p) 9 0x40 (s.chordEgress p).isSome) s

/-! ### Preemption (R203, R204) -/

/-- PREEMPTION_STATUS when the link comes up or PREEMPTION changes: off, active without verify, or verifying. -/
def State.preemptStart (s : State) (p : Nat) : State :=
  let c := s.portN p 0x12
  let v := if !s.linkUp p || !bitOf c 0 || (s.chordEgress p).isSome then 0 else if bitOf c 1 then 4 else 1
  let s := s.setPort p { s.port p with verifyTries := 0, held := false }
  let s := s.wr (0x2300 + p) 0x13 v
  if v = 4 then s.portEvent p 6 else s

/-! ### Link down (R199, R235) -/

/-- The transmit lane's frame on the wire of port `p` is lost with the link; what the FIFO still gets of it is
discarded to its END. -/
def State.loseLaneFrame (s : State) (p : Nat) : State :=
  (List.range 32).foldl (fun s e =>
    let g := s.engine e
    if g.txOn && fieldOf g.txBound 0 5 = p + 1 then
      s.setEngine e { g with txOn := false, txWire := [], txDrop := true }
    else s) s

/-- A frame being received on port `p` ends as a symbol error: `n` bytes of it had arrived (R199, R202). -/
def State.cutRx (s : State) (p n : Nat) : State :=
  let s := s.stat p 0xD
  let s := if 64 ≤ n ∧ n ≤ s.rxCfg p 0xC then s.stat p (4 + bucket n) else s
  let s := (List.range 32).foldl (fun s e =>
    let g := s.engine e
    if fieldOf g.rxBound 0 5 = p + 1 && (g.rxCount ≠ 0 || g.rxDrop) then s.setEngine e (g.rxEnd 4) else s) s
  (s.setPort p { s.port p with rxDone := some ([], false) }).storeComplete p

/-- The link of port `p` goes from 1 to 0. -/
def State.linkDown (s : State) (p : Nat) : State :=
  if !s.linkUp p then s
  else
    let s := (s.loseLaneFrame p).dropPortFrames p
    let s := ((s.clrBits (0x2300 + p) 9 0xAF).portEvent p 1).stat p 0x2C
    ((s.preemptStart p).chordsFollow).neighboursDown p |>.chordLoss p

/-! ### Link up (R197) -/

/-- The speed that the source of SPEED_SOURCE reports: forced, the latest poll, or in-band (`told`); 0 for no link.
A span port needs symbol lock. -/
def State.sourceSpeed (s : State) (p told : Nat) : Nat :=
  let src := fieldOf (s.linkCfg p 3) 4 2
  let lock := p < 8 || s.bit (0x2300 + p) 9 4
  if !lock then 0
  else if src = 0 then (if p < 8 then fieldOf (s.linkCfg p 3) 0 3 else ifaceTop (s.linkCfg p 2))
  else if src = 1 then (s.port p).report
  else told

/-- The source reports link at `told`: the link comes up, or SPEED_UNSUPPORTED is set (R196, R197). -/
def State.linkCome (s : State) (p told : Nat) : State :=
  let sp := s.sourceSpeed p told
  let iface := s.linkCfg p 2
  if s.linkUp p || s.portN p 1 = 0 || iface = 0 || sp = 0 then s
  else if !ifaceSpeed iface sp then s.portEvent p 3
  else
    let prev := (s.port p).prevSpeed
    let an := if 8 ≤ p && fieldOf (s.linkCfg p 3) 4 2 = 2 then 32 else 0
    let s := s.wr (0x2300 + p) 9 (putField (s.portN p 9) 0 4 (1 + 2 * sp) ||| an)
    let s := s.setPort p { s.port p with prevSpeed := sp, ignored := 0, creditAt := s.ticks }
    let s := s.portEvent p 0
    let s := if prev ≠ 0 && prev ≠ sp then s.portEvent p 2 else s
    ((s.preemptStart p).chordsFollow).chordBack p

/-- LINK_UP (R197): `told` is the speed that in-band status or auto-negotiation gives. -/
def execLinkUp (p : Fin 12) (told : Fin 8) (s : State) : Res := .next (s.linkCome p told)

/-- LINK_DOWN (R199): the source reports no link any more; `got` is how much of a frame had arrived, if one was in
progress. -/
def execLinkDown (p : Fin 12) (got : Option Nat) (s : State) : Res :=
  .next (if s.linkUp p then
    let s := s.setPort p { s.port p with report := 0 }
    (match got with | some n => s.cutRx p n | none => s).linkDown p
  else s)

/-! ### Configuration changes (R198) -/

/-- Copy objects of port `p` into a table of settings in force. -/
def State.cfgCopy (s : State) (p : Nat) (js : List Nat) (t : Tbl DWord) : Tbl DWord :=
  js.foldl (fun t j => tblSet (fun k => odDefault (odKey (0x2300 + p) k)) j (s.rd (0x2300 + p) j) t) t

/-- Link settings (subs 02–08) and frame settings (0C, 0D, 14–16) take effect. -/
def State.applyLinkCfg (s : State) (p : Nat) : State :=
  s.setPort p { s.port p with linkCfg := s.cfgCopy p [2, 3, 4, 5, 6, 7, 8] (s.port p).linkCfg }
def State.applyRxCfg (s : State) (p : Nat) : State :=
  s.setPort p { s.port p with rxCfg := s.cfgCopy p [0xC, 0xD, 0x14, 0x15, 0x16] (s.port p).rxCfg }
def State.applyTxCfg (s : State) (p : Nat) : State :=
  s.setPort p { s.port p with txCfg := s.cfgCopy p [0xC, 0xD, 0x14, 0x15, 0x16] (s.port p).txCfg }

/-- A link setting waits for its change. -/
def State.linkCfgDiffers (s : State) (p : Nat) : Bool :=
  [2, 3, 4, 5, 6, 7, 8].any (fun j => s.linkCfg p j ≠ s.portN p j)

/-- PORT_LINK_CONFIG_CHANGE (R198): after the frames in progress the link goes down and the new settings apply. -/
def execPortLinkConfigChange (p : Fin 12) (s : State) : Res :=
  .next (if s.linkCfgDiffers p && (s.port p).cur.isNone then (s.linkDown p).applyLinkCfg p else s)

/-- PORT_FRAME_CONFIG_APPLY (R198): the next SFD in the receive or the transmit direction. -/
def execPortFrameConfigApply (p : Fin 12) (tx : Bool) (s : State) : Res :=
  .next (if tx then (s.touchCredit p).applyTxCfg p else s.applyRxCfg p)

/-- Accepted writes of a port's objects with more effect than their value: ENABLE, link settings and frame settings,
which apply at once where no frame can be in progress, PAUSE_RESUME and PREEMPTION (R197, R198, R203, R207, R210). -/
def State.effPort (s : State) (i j v : Nat) : Option State :=
  if 0x2300 ≤ i ∧ i ≤ 0x230B then
    let p := i - 0x2300
    let idle := !s.linkUp p && (s.port p).cur.isNone
    if j = 1 then
      some (if v = 0 then ((s.linkDown p).flushStation p).wr i 1 0
        else if s.n i 1 = 0 then (s.setPort p { s.port p with tsSeq := 0, tsSlot := 0, report := 0 }).wr i 1 1
        else s)
    else if 2 ≤ j ∧ j ≤ 8 then
      let s := s.wr i j v
      some (if idle then s.applyLinkCfg p else s)
    else if j = 0xC ∨ j = 0xD ∨ (0x14 ≤ j ∧ j ≤ 0x16) then
      let s := s.wr i j v
      some (if idle then (s.applyRxCfg p).applyTxCfg p else s)
    else if j = 0x11 then some (if v = 1 then s.setPort p { s.port p with ignored := 0 } else s)
    else if j = 0x12 then some ((s.wr i j v).preemptStart p)
    else none
  else none

/-! ### SerDes (R195) -/

/-- SERDES_LOCK_ACQUIRED and SERDES_LOCK_LOST (R195). -/
def execSerdesLockAcquired (n : Fin 4) (s : State) : Res :=
  .next (if s.portN (8 + n) 1 = 1 then s.setBits (0x2308 + n) 9 0x10 else s)
def execSerdesLockLost (n : Fin 4) (got : Option Nat) (s : State) : Res :=
  .next (if s.bit (0x2308 + n) 9 4 then
    let s := (s.clrBits (0x2308 + n) 9 0x10).portEvent (8 + n) 9
    (match got with | some k => if s.linkUp (8 + n) then s.cutRx (8 + n) k else s | none => s).linkDown (8 + n)
  else s)

/-! ### MDIO (R192–R194) -/

def State.mdioOf (s : State) (m : Nat) : Mdio := tblGet (fun _ => {}) m s.mdio
def State.setMdio (s : State) (m : Nat) (x : Mdio) : State := { s with mdio := tblSet (fun _ => {}) m x s.mdio }

/-- A write of COMMAND starts a frame (R193). -/
def State.mdioStart (s : State) (m v : Nat) : State :=
  ((((s.wr (0x2330 + m) 2 v).setBit (0x2330 + m) 3 0).setMdio m { op := fieldOf v 0 3 }).emit
    (.mdio m (fieldOf v 0 3) (fieldOf v 4 5) (fieldOf v 9 5) (fieldOf v 16 16)))

/-- COMMAND for an operation, an address and data (R218). -/
def mdioWord (op : Nat) (phy reg : BitVec 5) (data : Half) : Nat :=
  op + phy.toNat * 16 + reg.toNat * 512 + data.toNat * 65536

/-- A software frame (R193). -/
def State.mdioFrame (s : State) (q : Path) (m op : Nat) (phy reg : BitVec 5) (data : Half) : State :=
  s.guard q (0x2330 + m) 2 (mdioWord op phy reg data) (fun s => s.mdioStart m (mdioWord op phy reg data))

/-- MDIO_C22_WRITE, MDIO_C22_READ, MDIO_C45_ADDRESS, MDIO_C45_WRITE, MDIO_C45_READ, MDIO_C45_READ_INCREMENT (R193). -/
def execMdioC22Write (q : Path) (m : Fin 2) (phy reg : BitVec 5) (data : Half) (s : State) : Res :=
  .next (s.mdioFrame q m 1 phy reg data)
def execMdioC22Read (q : Path) (m : Fin 2) (phy reg : BitVec 5) (data : Half) (s : State) : Res :=
  .next (s.mdioFrame q m 2 phy reg data)
def execMdioC45Address (q : Path) (m : Fin 2) (phy reg : BitVec 5) (data : Half) (s : State) : Res :=
  .next (s.mdioFrame q m 3 phy reg data)
def execMdioC45Write (q : Path) (m : Fin 2) (phy reg : BitVec 5) (data : Half) (s : State) : Res :=
  .next (s.mdioFrame q m 4 phy reg data)
def execMdioC45Read (q : Path) (m : Fin 2) (phy reg : BitVec 5) (data : Half) (s : State) : Res :=
  .next (s.mdioFrame q m 5 phy reg data)
def execMdioC45ReadIncrement (q : Path) (m : Fin 2) (phy reg : BitVec 5) (data : Half) (s : State) : Res :=
  .next (s.mdioFrame q m 6 phy reg data)

/-- MDIO_FRAME_END (R193): BUSY clears; a read places what the line carried, all ones where no PHY answers. -/
def execMdioFrameEnd (m : Fin 2) (data : Half) (s : State) : Res :=
  let i := 0x2330 + m.val
  let op := (s.mdioOf m).op
  .next (if s.bit i 3 0 then
    let v := if op = 2 ∨ op = 5 ∨ op = 6 then data.toNat * 2 ^ 16 else s.n i 3 / 2 ^ 16 * 2 ^ 16
    (s.wr i 3 v).setMdio m {}
  else s)

/-- The speed of the highest ability that both partners advertise, in the order of clause 28 (R194). -/
def pollSpeed (r4 r5 r9 r10 : Nat) : Nat :=
  if (bitOf r9 9 && bitOf r10 11) || (bitOf r9 8 && bitOf r10 10) then 3
  else if (bitOf r4 8 && bitOf r5 8) || (bitOf r4 9 && bitOf r5 9) || (bitOf r4 7 && bitOf r5 7) then 2
  else if (bitOf r4 6 && bitOf r5 6) || (bitOf r4 5 && bitOf r5 5) then 1
  else 0

/-- MDIO_POLL (R194): the values of registers 1, 4, 5, 9 and 10; a lost link or another speed takes the link down. -/
def execMdioPoll (p : Fin 8) (r1 r4 r5 r9 r10 : Half) (got : Option Nat) (s : State) : Res :=
  let phy := s.linkCfg p 4
  let m := fieldOf phy 8 1
  .next (if s.portN p 1 = 1 && fieldOf (s.linkCfg p 3) 4 2 = 1 && !s.bit (0x2330 + m) 3 0 then
    let sp := if bitOf r1.toNat 2 then pollSpeed r4.toNat r5.toNat r9.toNat r10.toNat else 0
    let s := [1, 4, 5, 9, 10].foldl (fun s r => s.emit (.mdio m 2 (fieldOf phy 0 5) r 0)) s
    let s := s.setPort p { s.port p with report := sp }
    if s.linkUp p && sp ≠ s.speedOf p then
      (match got with | some k => s.cutRx p k | none => s).linkDown p
    else s
  else s)

end Sys2Proof.Machine
end

