-- ==== Sys2Proof/Machine/Users.lean ====
section
/-! DEFINITION. Which blocks select a time domain (R267, 0x2100 + d sub 12). -/

namespace Sys2Proof.Machine

/-- Ports with TS_DOMAIN = d. -/
def State.userPorts (s : State) (d : Nat) : Nat :=
  (List.range 12).foldl (fun m p => if s.portN p 0x14 = d then m + 2 ^ p else m) 0

/-- Enabled rings, enabled tracks, stream gates with a list that runs or waits, and Lattice time. -/
def State.userRings (s : State) (d : Nat) : Nat :=
  (List.range 4).foldl (fun m n => if s.perC n 1 = 1 && s.perDom n = d then m + 2 ^ n else m) 0
def State.userTrack (s : State) (d : Nat) : Bool := (List.range 16).any (fun t => s.trkC t 1 = 1 && s.trkDom t = d)
def State.userGate (s : State) (d : Nat) : Bool :=
  s.sw.sgates.any (fun e => e.2.dom = d && (!e.2.ctl.oper.isEmpty || e.2.ctl.pend.isSome))
def State.userLattice (s : State) (d : Nat) : Bool := s.bit 0x2800 9 2 && fieldOf (s.n 0x2800 9) 0 2 = d

/-- USERS. -/
def State.users (s : State) (d : Nat) : Nat :=
  s.userPorts d + s.userRings d * 2 ^ 12 + (if s.userTrack d then 2 ^ 16 else 0) + (if s.userGate d then 2 ^ 17 else 0) +
  (if s.userLattice d then 2 ^ 18 else 0)

end Sys2Proof.Machine
end

