-- ==== Sys2Proof/Machine/Instances.lean ====
section
/-! DEFINITION. Field network instances: what an image consumes, the start with its refusals, the object table, the stop
(R396–R406). -/

namespace Sys2Proof.Machine

/-! ### Resources (R398) -/

/-- Bits set among the lowest 16 of a mask. -/
def popCount (v : Nat) : Nat := ((List.range 16).filter (bitOf v)).length

/-- What an image consumes in one of its forms: engines, own domains, facet store in bytes, launch entries, how many
instances of the form may be, and whether its ports are chord ports. -/
structure ImageForm where
  engines : Nat
  domains : Nat
  store : Nat
  launches : Nat := 0
  most : Nat
  chord : Bool := false
  deriving DecidableEq, Repr

/-- The form of image `id` that PORTS and RESOURCES give, or none where they differ from R398. -/
def imageForm (id ports res : Nat) : Option ImageForm :=
  let np := popCount ports
  let nc := popCount (fieldOf res 0 4)
  let nq := popCount (fieldOf res 4 4)
  let dirs := fieldOf res 8 8
  let only := fun (c q d : Bool) => (c || nc = 0) && (q || nq = 0) && (d || dirs = 0)
  let line := np = 2 && ports < 256 && dirs = ports && only false false true
  if id = 0x0101 && 1 ≤ np && only false false false then some { engines := 1, domains := 1, store := 0x8000, most := 1 }
  else if id = 0x0102 && (np = 2 || np = 3) && only false false false then
    some { engines := 4, domains := 0, store := 0x1_0000, most := 2 }
  else if id = 0x0103 && (np = 1 || np = 2) && only false false false then
    some { engines := 2, domains := 1, store := 0x1_0000, most := 2 }
  else if id = 0x0104 && np = 2 && only false false false then
    some { engines := 4, domains := 1, store := 0x1_8000, launches := 8, most := 1 }
  else if id = 0x0105 && np = 0 && nq = 1 && only false true false then
    some { engines := 1, domains := 0, store := 0x2000, most := 4 }
  else if id = 0x0106 && (np = 1 || np = 2) && only false false false then
    some { engines := 2, domains := 1, store := 0x1_0000, launches := 8, most := 2 }
  else if id = 0x0107 && line then some { engines := 2, domains := 1, store := 0x8000, most := 4, chord := true }
  else if id = 0x0107 && np = 1 && only false false false then
    some { engines := 2, domains := 1, store := 0x2_0000, launches := 4, most := 1 }
  else if id = 0x0108 && np = 1 && only false false false then
    some { engines := 2, domains := 1, store := 0x1_0000, launches := 2, most := 2 }
  else if id = 0x0109 && line then some { engines := 2, domains := 1, store := 0x8000, most := 4, chord := true }
  else if id = 0x010A && np ≤ 1 && nq ≤ 1 && only false true false then
    some { engines := 1, domains := 0, store := 0x4000, most := 6 }
  else if id = 0x010B && np = 0 && nc = 1 && only true false false then
    some { engines := 1, domains := 0, store := 0x4000, most := 4 }
  else if id = 0x010C && np = 0 && 1 ≤ nq && only false true false then
    some { engines := 2, domains := 0, store := 0x8000, most := 4 }
  else none

/-- Engines the image needs, whatever its resources; an image outside the catalogue says so in ATTRIBUTES (R131). -/
def State.imageEngines (s : State) (id d : Nat) : Nat :=
  if id = 0x0102 ∨ id = 0x0104 then 4
  else if id = 0x0101 ∨ id = 0x0105 ∨ id = 0x010A ∨ id = 0x010B then 1
  else if 0x0101 ≤ id ∧ id ≤ 0x010C then 2
  else fieldOf (s.n (0x2481 + d) 3) 4 3 + 1

/-- Other instances that hold resources. -/
def State.others (s : State) (n : Nat) : List Nat := (List.range 6).filter (fun m => m ≠ n && s.instHolds m)

/-! ### Facet store areas (R400, R402) -/

/-- Occupied parts of facet `f`'s store: instance areas, and the chord tables and capture areas of enabled directions. -/
def State.storeUsed (s : State) (n f : Nat) : List (Nat × Nat) :=
  (s.others n).filterMap (fun m => if s.instN m 2 / 4 = f then some (s.instN m 0xD, (s.inst m).size) else none) ++
  (List.range 16).flatMap (fun d =>
    if s.n (0x2500 + d) 4 = f && (s.n (0x2500 + d) 1 = 1 || s.n (0x2500 + d) 0xD ≠ 0) then
      [(s.n (0x2500 + d) 5, 0x2000), (s.n (0x2500 + d) 6, 0x1000)] else [])

/-- The highest free place of `size` bytes. -/
def State.storePlace (s : State) (n f size : Nat) : Option Nat :=
  let used := s.storeUsed n f
  let tops := 0x4_0000 :: used.map (·.1)
  let fits := tops.filter (fun t => size ≤ t && used.all (fun (a, l) => t ≤ a || a + l ≤ t - size))
  fits.foldl (fun b t => match b with | none => some (t - size) | some x => some (max x (t - size))) none

/-! ### Refusals (R399) -/

/-- Cause 2: the engines leave one facet, belong to another instance, or are not HALTED. -/
def State.enginesBad (s : State) (n k : Nat) : Bool :=
  let e := s.instN n 2
  e / 4 ≠ (e + k - 1) / 4 ||
  (List.range k).any (fun x => s.coreState (e + x) ≠ 0 || (s.others n).any (fun m => bitOf (s.instEngines m) (e + x)))

/-- Cause 3: resources differ from R398, are another instance's, are an enabled chord egress, or do not fit. -/
def State.resourcesBad (s : State) (n : Nat) (f : ImageForm) : Bool :=
  (s.others n).any (fun m => s.instN m 3 &&& s.instN n 3 ≠ 0 || s.instN m 4 &&& s.instN n 4 ≠ 0) ||
  f.most ≤ ((s.others n).filter (fun m => s.instN m 1 = s.instN n 1 && imageForm (s.instN m 1) (s.instN m 3) (s.instN m 4) = some f)).length ||
  (!f.chord && (List.range 8).any (fun p => bitOf (s.instN n 3) p && (s.chordEgress p).isSome)) ||
  (s.storePlace n (s.instN n 2 / 4) f.store).isNone

/-- Cause 4: the domain. -/
def State.domainBad (s : State) (n : Nat) (f : ImageForm) : Bool :=
  let d := fieldOf (s.instN n 5) 0 2
  f.domains ≠ 0 &&
  (!bitOf (s.instN n 5) 2 || (s.others n).any (fun m => (s.inst m).domain = some d) ||
   s.n (0x2100 + d) 1 ≠ 0 || s.users d / 2 ^ 12 ≠ 0 ||
   (s.others n).any (fun m => s.instN m 3 &&& s.userPorts d ≠ 0))

/-- Cause 5: a chord port that is not RGMII, or a port faster than a lane. -/
def State.portsBad (s : State) (n : Nat) (f : ImageForm) : Bool :=
  (List.range 12).any (fun p => bitOf (s.instN n 3) p && (if f.chord then s.portN p 2 ≠ 3 else 7 ≤ s.portN p 2))

/-- The first cause that applies, or none. -/
def State.startCause (s : State) (n : Nat) : Option Nat :=
  match s.findImage (s.instN n 1) with
  | none => some 1
  | some d =>
    if s.enginesBad n (s.imageEngines (s.instN n 1) d) then some 2
    else match imageForm (s.instN n 1) (s.instN n 3) (s.instN n 4) with
      | none => some 3
      | some f =>
        if s.resourcesBad n f then some 3
        else if s.domainBad n f then some 4
        else if s.portsBad n f then some 5
        else if 6 ≤ (s.others n).length then some 6
        else none

/-- A refusal: STATE 3 and the cause. -/
def State.refuse (s : State) (n cause : Nat) : State := (s.wr (instBase n) 7 3).wr (instBase n) 8 cause

/-! ### Start (R398, R400) -/

/-- Free launch entries, highest first, at most `k` (R398). -/
def State.freeLaunches (s : State) (k : Nat) : List Nat :=
  let taken := (List.range 6).flatMap (fun m => (s.inst m).launches)
  ((List.range 64).reverse.filter (fun x => s.n (0x2180 + x) 1 % 2 = 0 && !taken.contains x)).take k

/-- Steps 1–3: STATE 1, the facet store area zeroed, the engines told to load. -/
def State.beginInst (s : State) (n : Nat) (f : ImageForm) (at' : Nat) : State :=
  let e := s.instN n 2
  let b := instBase n
  let a := 0x0D00_0000 + e / 4 * 0x4_0000 + at'
  let s := s.setInst n { engines := f.engines, domain := if f.domains = 0 then none else some (fieldOf (s.instN n 5) 0 2)
                         size := f.store, launches := s.freeLaunches f.launches }
  let s := (((s.wr b 7 1).wr b 8 0).wr b 0xD at').zeroRange a (a + f.store)
  let s := { s with memc := { s.memc with dbe := tblClear (a / 8) ((a + f.store) / 8) s.memc.dbe
                                          sbe := tblClear (a / 8) ((a + f.store) / 8) s.memc.sbe } }
  (List.range f.engines).foldl (fun s k =>
    ((s.wr (0x2400 + e + k) 3 (s.instN n 1)).wr (0x2400 + e + k) 4 1).doLoad (e + k)) s

/-- A start (R399, R400); an instance that starts, runs or is faulted stays as it is (log entry 47). -/
def State.instStart (s : State) (n : Nat) : State :=
  if s.instHolds n then s
  else match s.startCause n with
    | some c => s.refuse n c
    | none =>
      match imageForm (s.instN n 1) (s.instN n 3) (s.instN n 4) with
      | none => s
      | some f =>
        match s.storePlace n (s.instN n 2 / 4) f.store with
        | none => s
        | some a => s.beginInst n f a

/-! ### Object table (R403) -/

/-- Entry at `a` of a table, with the addresses of its two spaces. -/
def State.objAt (s : State) (a ram area : Nat) : InstObj :=
  let l := s.w32 (a + 8)
  { off := s.le a 2, sub := s.le (a + 2) 1, ty := s.le (a + 3) 1, acc := s.le (a + 4) 1, vol := bitOf (s.le (a + 5) 1) 0
    priv := bitOf (s.le (a + 5) 1) 1, loc := fieldOf l 0 18 + (if fieldOf l 30 2 = 1 then area else ram)
    limit := s.w32 (a + 12), dflt := s.le (a + 16) 8 }

/-- An entry's own rules: bounds of its fields, alignment, and the space its access allows; the value within the space. -/
def State.objFieldOk (s : State) (a size : Nat) (o : InstObj) : Bool :=
  let l := s.w32 (a + 8)
  let sp := fieldOf l 30 2
  let off := fieldOf l 0 18
  let align := if o.isStr then 1 else o.bytes
  (if o.priv then 0x1000 ≤ o.off && o.off ≤ 0x1FFF else 0x10 ≤ o.off && o.off ≤ 0x7FF) &&
  (!o.wide || o.sub % 2 = 0) && [1, 2, 3, 4, 5, 6, 7, 9, 10, 15, 0x15, 0x1B, 0x40].contains o.ty && o.acc ≤ 5 &&
  s.le (a + 5) 1 < 4 && s.le (a + 6) 2 = 0 && l = off + sp * 2 ^ 30 && off % align = 0 &&
  (if sp = 0 then (o.acc = 0 || o.acc = 3) && off + o.bytes ≤ 0x4000 else sp = 1 && off + o.bytes ≤ size)

/-- Strictly rising by INDEX, then SUB; every record declares its sub 0. -/
def objsSorted : Nat → Bool → List InstObj → Bool
  | _, _, [] => true
  | k, first, o :: t =>
    let key := odKey o.off o.sub
    (first || k < key) && (o.sub = 0 || (!first && k / 256 = o.off)) && objsSorted key false t

/-- The object table of the image in library entry `d` for instance `n`, or none where it breaks R403. -/
def State.objTable (s : State) (n d : Nat) : Option (List InstObj) :=
  let a := s.n (0x2481 + d) 4
  let h := s.imageHead a
  let t := a + 0x100 + 4 * h.words + h.dram
  let e := s.instN n 2
  if h.objs = 0 then some []
  else
    let c := s.w32 t
    let area := 0x0D00_0000 + e / 4 * 0x4_0000 + s.instN n 0xD
    let l := (List.range (min c 683)).map (fun k => (t + 8 + 24 * k, s.objAt (t + 8 + 24 * k) (dramAt e) area))
    if c ≤ 682 && 8 + 24 * c ≤ h.objs && s.w32 (t + 4) = 0 && l.all (fun (x, o) => s.objFieldOk x (s.inst n).size o) &&
       objsSorted 0 true (l.map (·.2)) then some (l.map (·.2))
    else none

/-- A value is put at an object's LOCATION whatever its access; engine RAM of a running engine included (R400). -/
def State.objPut (s : State) (o : InstObj) (v : Nat) : State := if o.isStr then s else s.setBytes o.loc (leBytes v o.bytes)

/-- Step 4: the objects, each with its stored value or its default. -/
def State.createObjs (s : State) (n : Nat) (l : List InstObj) : State :=
  let vals : Tbl DWord := match s.store.newest with | some (c, _) => c.vals | none => []
  (l.foldl (fun s o =>
    match vals.find? (fun e => e.1 = o.key n && o.stored) with
    | some (_, v) => s.objPut o v.toNat
    | none => s.objPut o o.dflt) s).setInst n { s.inst n with objs := l }

/-- Step 5: TS_DOMAIN of the ports. -/
def State.instPorts (s : State) (n : Nat) : State :=
  match (s.inst n).domain with
  | none => s
  | some d => (List.range 12).foldl (fun s p =>
      if bitOf (s.instN n 3) p then (s.effPort (0x2300 + p) 0x14 d).getD s else s) s

/-- Step 5: one lane binding as the image wants it, on an engine and a port of the instance. -/
def State.instBind (s : State) (n : Nat) (b : Nat × Nat × Nat) : State :=
  let (e, rx, tx) := b
  let mine := fun v => fieldOf v 0 5 = 0 || (fieldOf v 0 5 ≤ 12 && bitOf (s.instN n 3) (fieldOf v 0 5 - 1))
  if bitOf (s.instEngines n) e && mine rx && mine tx then
    (s.wr (0x2440 + e / 4) (1 + e % 4) (rx &&& 0x11F)).wr (0x2440 + e / 4) (5 + e % 4) (tx &&& 0xF71F)
  else s

/-! ### Stop (R401) -/

/-- Engines halt, lanes unbind, objects go, areas and entries return. -/
def State.instEnd (s : State) (n : Nat) : State :=
  let e := s.instN n 2
  let s := (List.range (s.inst n).engines).foldl (fun s k =>
    ((s.doHalt (e + k)).wr (0x2440 + (e + k) / 4) (1 + (e + k) % 4) 0).wr (0x2440 + (e + k) / 4) (5 + (e + k) % 4) 0x7000) s
  (s.setInst n {}).wr (instBase n) 0xD 0

/-- COMMAND 2. -/
def State.instStop (s : State) (n : Nat) : State :=
  if s.instState n = 0 then s else ((s.instEnd n).wr (instBase n) 7 0).wr (instBase n) 8 0

/-- The loads have ended: the objects, the bindings and STATE 2, or a refusal with cause 7 (R399, R400). -/
def State.instDone (s : State) (n : Nat) (binds : List (Nat × Nat × Nat)) : State :=
  let e := s.instN n 2
  let es := (List.range (s.inst n).engines).map (· + e)
  if s.instState n ≠ 1 || es.any (fun x => s.coreState x = 4) then s
  else if es.any (fun x => s.n (0x2400 + x) 0xD ≠ 1) then (s.instEnd n).refuse n 7
  else match (s.findImage (s.instN n 1)).bind (s.objTable n) with
    | none => (s.instEnd n).refuse n 7
    | some l =>
      let s := (((binds.foldl (fun s b => s.instBind n b) (s.createObjs n l)).instPorts n)).wr (instBase n) 7 2
      let (_, d) := s.instUp n
      if s.instChord n && !s.linkUp d then s.chordLoss d else s

/-- INSTANCE_START, INSTANCE_STOP (R399, R401): writes of COMMAND. -/
def execInstanceStart (p : Path) (n : Fin 6) (s : State) : Res :=
  .next (s.guard p (instBase n) 6 1 (fun s => s.instStart n))
def execInstanceStop (p : Path) (n : Fin 6) (s : State) : Res :=
  .next (s.guard p (instBase n) 6 2 (fun s => s.instStop n))

/-- INSTANCE_START_DONE (R400); `binds` are the lane bindings the image asks for: engine, RX_SOURCE, TX_DEST. -/
def execInstanceStartDone (n : Fin 6) (binds : List (Fin 32 × Half × Half)) (s : State) : Res :=
  .next (s.instDone n (binds.map (fun (e, r, t) => (e.val, r.toNat, t.toNat))))

/-- Writes of an instance's control object and of image objects (R404, R407). -/
def State.effInst (s : State) (i j v : Nat) : Option State :=
  match privInst i j with
  | some n => (s.privSelected n).map (fun o => s.instWrite o v)
  | none =>
    match s.instObj i j with
    | some o => some (s.instWrite o v)
    | none =>
      if 0x3000 ≤ i ∧ i < 0x6000 ∧ (i - 0x3000) % 0x800 = 0 ∧ j = 6 then
        some (if v = 1 then s.instStart ((i - 0x3000) / 0x800) else s.instStop ((i - 0x3000) / 0x800))
      else none

end Sys2Proof.Machine
end

