-- ==== Sys2Proof/Machine/CanOps.lean ====
section
/-! DEFINITION. CAN FD controllers: message slots, acceptance, buffers and FIFOs, error states, attempts and what ends them
(R408–R430). -/

namespace Sys2Proof.Machine

/-- A controller beyond its objects; its objects' values. -/
def State.canOf (s : State) (c : Nat) : Can := tblGet (fun _ => {}) c s.can
def State.setCan (s : State) (c : Nat) (x : Can) : State := { s with can := tblSet (fun _ => {}) c x s.can }
def canIdx (c : Nat) : Nat := 0x2900 + 16 * c
def State.canN (s : State) (c j : Nat) : Nat := s.n (canIdx c) j
def State.canEvent (s : State) (c b : Nat) : State := s.event (canIdx c) 0x10 (2 ^ b)
/-- Count in an [H] counter of 0x2901 (R427). -/
def State.canCnt (s : State) (c j : Nat) : State := s.cntH (canIdx c + 1) j (canIdx c) 0x10

/-- BUF_MODE, BUF_STATUS and its fields (R428). -/
def State.bufMode (s : State) (c b : Nat) : Nat := fieldOf (s.n (canIdx c + 2) (b + 1)) 0 2
def State.oneShot (s : State) (c b : Nat) : Bool := s.bit (canIdx c + 2) (b + 1) 2
def State.bufSt (s : State) (c b : Nat) : Nat := s.n (canIdx c + 5) (b + 1)
def State.bufState (s : State) (c b : Nat) : Nat := fieldOf (s.bufSt c b) 0 4
def State.setBuf (s : State) (c b lsb w v : Nat) : State := s.wr (canIdx c + 5) (b + 1) (putField (s.bufSt c b) lsb w v)
def State.setBufState (s : State) (c b v : Nat) : State := s.setBuf c b 0 4 v

/-- Buffers whose status has STATE pending or on bus; those with a status bit set (R429). -/
def State.canWaiting (s : State) (c : Nat) : Nat :=
  (List.range 64).foldl (fun m b => if s.bufState c b = 2 ∨ s.bufState c b = 3 then m + 2 ^ b else m) 0
def State.canBits (s : State) (c k : Nat) : Nat :=
  (List.range 64).foldl (fun m b => if bitOf (s.bufSt c b) k then m + 2 ^ b else m) 0

/-- Data bytes of a DLC (R414). -/
def dlcLen (fdf : Bool) (d : Nat) : Nat :=
  if d ≤ 8 then d else if !fdf then 8
  else if d = 9 then 12 else if d = 10 then 16 else if d = 11 then 20 else if d = 12 then 24 else if d = 13 then 32
  else if d = 14 then 48 else 64

/-- The present timestamp domain (R413). -/
def State.canDom (s : State) (c : Nat) : Nat := s.canN c 7

/-- The timestamp of an SOF `ago` ticks back at `phase`: late by at most 12.5 ns (R425), by a free amount. -/
def State.canStamp (s : State) (c ago phase : Nat) : Nat × State :=
  ((s.stampAt (s.canDom c) ago phase 0 + (s.free 8).toNat % 51) / 4 % 2 ^ 32, s.tick)

/-! ### Slots (R413, R414) -/

/-- Address of buffer `b`'s slot, and of entry `j` of FIFO `k`. -/
def State.slotAt (s : State) (c b : Nat) : Nat := s.canN c 8 + 80 * b
def State.fifoAt (s : State) (c k j : Nat) : Nat := s.canN c 8 + 0x1400 + 0xA00 * k + 80 * j

/-- Words 0 and 1 of a frame; `how` is bits 14–8 of word 1. -/
def CanFrame.w0 (f : CanFrame) : Nat := f.id + (if f.ide then 2 ^ 29 else 0) + (if f.rtr then 2 ^ 30 else 0)
def CanFrame.w1 (f : CanFrame) (how : Nat) : Nat :=
  f.dlc + (if f.fdf then 16 else 0) + (if f.brs then 32 else 0) + (if f.esi then 64 else 0) + how * 2 ^ 8

/-- Store a frame into the slot at `a`, whose count is kept under key `k`: SEQUENCE invalid, data, words 0–2, the
count (R414). -/
def State.canPut (s : State) (c k a : Nat) (f : CanFrame) (how : Nat) : State :=
  let x := s.canOf c
  let q := tblGet (fun _ => 0) k x.seqs
  let q := if q = 0xFFFF_FFFE then 0 else q + 1
  let n := dlcLen f.fdf f.dlc
  let d := if f.rtr then zeros 64 else (f.data.take n ++ zeros 64).take 64
  let s := s.setCan c { x with seqs := tblSet (fun _ => 0) k q x.seqs }
  let s := s.unitWrite (a + 0xC) (leBytes 0xFFFF_FFFF 4)
  let s := s.unitWrite (a + 0x10) d
  let s := (s.unitWrite a (leBytes f.w0 4 ++ leBytes (f.w1 how) 4)).unitWrite (a + 8) (leBytes f.time 4)
  s.unitWrite (a + 0xC) (leBytes q 4)

/-- The frame a transmit buffer's slot holds (R413, R419). -/
def State.canTake (s : State) (c b : Nat) : CanFrame × State :=
  let r := s.fetchBytes 0 (s.slotAt c b) 80
  let w0 := leNat (r.1.take 4)
  let w1 := leNat ((r.1.drop 4).take 4)
  let ide := bitOf w0 29
  ({ id := if ide then fieldOf w0 0 29 else fieldOf w0 18 11 * 2 ^ 18, ide := ide, rtr := bitOf w0 30, dlc := fieldOf w1 0 4
     fdf := bitOf w1 4, brs := bitOf w1 5, data := (r.1.drop 0x10).take (dlcLen (bitOf w1 4) (fieldOf w1 0 4)) }, r.2.2)

/-! ### Acceptance and storage (R415–R417) -/

/-- An identifier entry matches a frame: masked identifier and IDE. -/
def idMatches (entry mask : Nat) (f : CanFrame) : Bool :=
  (f.id ^^^ fieldOf entry 0 29) &&& mask = 0 && bitOf entry 29 = f.ide

/-- Where a frame goes: buffer b, 64 for FIFO 0, 65 for FIFO 1, or none for reject; and bits 14–8 of its word 1, which
a frame that nothing matched leaves open. -/
def State.canAccept (s : State) (c : Nat) (f : CanFrame) : Option (Nat × Nat) × State :=
  match (List.range 64).find? (fun b => s.bufMode c b = 1 && idMatches (s.n (canIdx c + 3) (b + 1)) (s.n (canIdx c + 4) (b + 1)) f) with
  | some b => (some (b, b), s)
  | none =>
    match (List.range 32).find? (fun e => fieldOf (s.n (canIdx c + 7) (e + 1)) 30 2 ≠ 0 &&
        idMatches (s.n (canIdx c + 7) (e + 1)) (s.n (canIdx c + 8) (e + 1)) f) with
    | some e =>
      let a := fieldOf (s.n (canIdx c + 7) (e + 1)) 30 2
      (if a = 3 then none else some (63 + a, e + 64), s)
    | none =>
      let a := fieldOf (s.canN c 9) 16 2
      if a = 0 then (none, s) else (some (63 + a, (s.free 7).toNat), s.tick)

/-- A FIFO's fill (R416). -/
def State.fifoFill (s : State) (c k : Nat) : Nat :=
  (s.n (canIdx c + 9) (2 + 2 * k) + 256 - s.n (canIdx c + 9) (1 + 2 * k)) % 256

/-- A frame enters FIFO `k`, or is discarded where 32 slots are held. -/
def State.fifoStore (s : State) (c k : Nat) (f : CanFrame) (how : Nat) : State :=
  if 32 ≤ s.fifoFill c k then (s.canCnt c 5).canEvent c 4
  else
    let put := s.n (canIdx c + 9) (2 + 2 * k)
    let s := s.canPut c (64 + 32 * k + put % 32) (s.fifoAt c k (put % 32)) f how
    let s := s.wr (canIdx c + 9) (2 + 2 * k) ((put + 1) % 256)
    if s.fifoFill c k = fieldOf (s.canN c 9) (8 * k) 5 then s.canEvent c (2 + k) else s

/-- A lost frame of buffer `b`. -/
def State.canLose (s : State) (c b : Nat) : State := ((s.setBuf c b 6 1 1).canCnt c 4).canEvent c 5

/-- A frame enters receive buffer `b` (R417). -/
def State.bufStore (s : State) (c b : Nat) (f : CanFrame) (how : Nat) : State :=
  if bitOf (s.bufSt c b) 4 then
    let s := if bitOf (s.bufSt c b) 5 then s.canLose c b else s.setBuf c b 5 1 1
    s.setCan c { s.canOf c with shadow := tblIns b (f, how) (tblDel b (s.canOf c).shadow) }
  else
    let s := if s.bufState c b = 1 then s.canLose c b else s
    ((s.canPut c b (s.slotAt c b) f how).setBufState c b 1).canEvent c 0

/-- The accepted frame is stored (R414). -/
def State.canStore (s : State) (c : Nat) : State :=
  match (s.canOf c).got with
  | none => s
  | some (f, k, how) =>
    let s := s.setCan c { s.canOf c with got := none }
    if k < 64 then s.bufStore c k f how else s.fifoStore c (k - 64) f how

/-- A valid frame is offered to the buffers and filters (R415): counted, and held for storage or rejected. -/
def State.canOffer (s : State) (c : Nat) (f : CanFrame) : State :=
  let s := (s.canStore c).canCnt c 1
  match s.canAccept c f with
  | (some (k, how), s) => s.setCan c { s.canOf c with got := some (f, k, how) }
  | (none, s) => s.canCnt c 6

/-! ### Error counters and states (R423) -/

/-- Set a field of STATUS. -/
def State.canStatus (s : State) (c lsb w v : Nat) : State := s.wr (canIdx c) 0xA (putField (s.canN c 0xA) lsb w v)
def State.busOff (s : State) (c : Nat) : Bool := fieldOf (s.canN c 0xA) 0 2 = 2

/-- TEC and REC take values, and the error state follows them. Passing 255 in TEC is bus off, whose recovery starts at once
where BUS_OFF_RECOVERY = 0. -/
def State.canCounters (s : State) (c tec rec : Nat) : State :=
  let was := fieldOf (s.canN c 0xA) 0 2
  let s := (s.wr (canIdx c) 0xB (min tec 511)).wr (canIdx c) 0xC rec
  let st := if 255 < tec then 2 else if 127 < tec ∨ 127 < rec then 1 else 0
  let s := s.canStatus c 0 2 st
  if st = 2 ∧ was ≠ 2 then
    let s := s.setCan c { s.canOf c with recovering := s.canN c 0xD = 0 }
    (((s.cnt (canIdx c + 1) 7).canEvent c 7).canStatus c 3 1 0).record 0x0502 (body [(c, 1)])
  else if st = 1 ∧ was = 0 then s.canEvent c 6 else s

/-- REC after an increase: above 127 it is passive, and what its low bits then read is open (log entry 46). -/
def State.recUp (s : State) (c k : Nat) : Nat × State :=
  let r := s.canN c 0xC
  if 127 < r then (r, s) else if 127 < r + k then (128 + (s.free 7).toNat, s.tick) else (r + k, s)

/-- REC after a valid reception: one less, or from passive a value from 119 to 127. -/
def State.recDown (s : State) (c : Nat) : Nat × State :=
  let r := s.canN c 0xC
  if 127 < r then (119 + (s.free 8).toNat % 9, s.tick) else (r - 1, s)

/-- An error is detected (R423): counted, and its code kept. -/
def State.canErr (s : State) (c lec : Nat) (data : Bool) : State :=
  (s.canCnt c 3).canStatus c (if data then 12 else 8) 3 lec

/-! ### Modes (R422) -/

/-- A mode takes effect: entry to mode 1 or 2 integrates. -/
def State.canEnter (s : State) (c m : Nat) : State :=
  let old := (s.canOf c).mode
  let s := s.setCan c { s.canOf c with mode := m, next := none }
  if old = m then s else s.canStatus c 3 1 (if m = 1 ∨ m = 2 then 1 else 0)

/-- A write of MODE: a change away from mode 1 lets a frame on the bus end first. -/
def State.canMode (s : State) (c m : Nat) : State :=
  let s := s.wr (canIdx c) 1 m
  if (s.canOf c).cur.isSome then s.setCan c { s.canOf c with next := some m } else s.canEnter c m

/-- The attempt on the bus is over: what it holds is `x`, and a waiting mode takes effect. -/
def State.canIdle (s : State) (c : Nat) : State :=
  let x := s.canOf c
  let s := (s.setCan c { x with cur := none, inject := false }).canStatus c 5 1 0
  match x.next with
  | some m => s.canEnter c m
  | none => s

/-- The controller takes part in the bus as mode `x.mode` says. -/
def State.canLive (s : State) (c : Nat) : Bool :=
  let m := (s.canOf c).mode
  (m = 1 || m = 2) && !s.bit (canIdx c) 0xA 3 && !s.busOff c

/-- ALONE ends with any valid received frame and any acknowledged transmission (R424). -/
def State.canHeard (s : State) (c : Nat) : State :=
  (s.setCan c { s.canOf c with acks := 0 }).canStatus c 2 1 0

/-! ### Transmission (R419–R421, R424) -/

/-- One buffer is requested: copied into the transmit store and pending, or refused for its format. -/
def State.canRequest (s : State) (c b : Nat) : State :=
  if s.bufState c b = 2 ∨ s.bufState c b = 3 then s
  else
    let r := s.canTake c b
    let s := r.2.setBuf c b 8 2 0
    if (r.1.fdf && !s.bit (canIdx c) 2 0) || (r.1.brs && !r.1.fdf) then s.setBufState c b 8
    else (s.setCan c { s.canOf c with store := tblIns b r.1 (tblDel b (s.canOf c).store) }).setBufState c b 2

/-- The attempt of buffer `b` ended without success and the buffer is to be sent again, unless it was aborted or has one
shot (R420, R421). -/
def State.canRetry (s : State) (c b : Nat) : State :=
  let x := s.canOf c
  if bitOf x.aborts b then
    ((s.setCan c { x with aborts := x.aborts - 2 ^ b }).setBufState c b 5).setBuf c b 8 2 1 |>.canEvent c 11
  else if s.oneShot c b then s.setBufState c b 7
  else s.setBufState c b 2

/-- Arbitration on the bus is lost (R420). -/
def State.canLost (s : State) (c : Nat) : State :=
  match (s.canOf c).cur with
  | some b => (s.canRetry c b).canIdle c
  | none => s

/-- Bits of the arbitration field as the bus carries them, and with them the order of identifiers (R420): an FD frame has a
dominant bit in the place of RTR. -/
def CanFrame.arbitration (f : CanFrame) : List Bool :=
  let bits := fun lo n => (List.range n).map (fun k => bitOf f.id (lo + n - 1 - k))
  if f.ide then bits 18 11 ++ [true, true] ++ bits 0 18 ++ [f.rtr && !f.fdf]
  else bits 18 11 ++ [f.rtr && !f.fdf, false]
def CanFrame.order (f : CanFrame) : Nat :=
  (f.arbitration ++ List.replicate 20 false).take 32 |>.foldl (fun a b => 2 * a + (if b then 1 else 0)) 0

/-- The pending buffer that enters arbitration: the lowest identifier, then the lowest buffer (R420). -/
def State.canBest (s : State) (c : Nat) : Option (Nat × CanFrame) :=
  (List.range 64).foldl (fun best b =>
    if s.bufState c b ≠ 2 then best
    else match (s.canOf c).store.find? (fun e => e.1 = b), best with
      | some (_, f), some (k, g) => if f.order < g.order then some (b, f) else some (k, g)
      | some (_, f), none => some (b, f)
      | none, _ => best) none

/-- Bits on the wire from SOF to the end of the arbitration field, stuff bits counted (R533). -/
def stuffed : Bool → Nat → List Bool → Nat
  | _, _, [] => 0
  | last, run, b :: t =>
    if b = last then
      if run = 4 then 2 + stuffed (!b) 1 t else 1 + stuffed b (run + 1) t
    else 1 + stuffed b 1 t
def CanFrame.arbBits (f : CanFrame) : Nat :=
  1 + stuffed false 1 (if f.ide then f.arbitration else f.arbitration.take 12)

/-- Fewest bits the frame has on the wire (ISO 11898-1, without stuff bits). -/
def CanFrame.wireBits (f : CanFrame) : Nat :=
  let n := if f.rtr then 0 else 8 * dlcLen f.fdf f.dlc
  (if f.ide then 64 else 44) + n

/-- The armed CAN injection applies to this controller's next frame (R533): the inverted bit, once. -/
def State.canInject (s : State) (c : Nat) : Option Nat :=
  if s.n 0x2E80 1 = 2 && s.bit 0x2E87 1 2 && fieldOf (s.n 0x2E87 1) 0 2 = c && !s.sup.canDone then
    some (fieldOf (s.n 0x2E87 1) 4 12) else none

/-- A buffer's attempt starts at SOF (R420). -/
def State.canAttempt (s : State) (c phase : Nat) : State :=
  match s.canBest c with
  | none => s
  | some (b, f) =>
    let t := s.canStamp c 0 phase
    let f := { f with time := t.1, esi := fieldOf (s.canN c 0xA) 0 2 = 1 }
    let s := (t.2.setBufState c b 3).canStatus c 5 1 1
    let s := s.setCan c { s.canOf c with cur := some b, store := tblIns b f (tblDel b (s.canOf c).store) }
    let s := if (s.canOf c).mode = 3 then s else s.emit (.can c b f.w0 f.data)
    match s.canInject c with
    | none => s
    | some k =>
      let s := { s with sup := { s.sup with canDone := true } }.cnt 0x2E80 7
      if k < f.arbBits then s.canLost c
      else if k < f.wireBits then s.setCan c { s.canOf c with inject := true } else s

/-- MEASURED_DELAY of an FD frame with bit rate switching (R412). -/
def State.canDelay (s : State) (c : Nat) (f : CanFrame) (delay : Nat) : State :=
  if f.fdf && f.brs then s.canStatus c 16 7 delay else s
/-- The secondary sample point lies beyond 127 periods (R412). -/
def State.canFar (s : State) (c : Nat) (f : CanFrame) (delay : Nat) : Bool :=
  f.fdf && f.brs && s.bit (canIdx c) 5 0 && 127 < delay + fieldOf (s.canN c 5) 8 7

/-- The frame on the bus and its buffer. -/
def State.canSending (s : State) (c : Nat) : Option (Nat × CanFrame) :=
  match (s.canOf c).cur with
  | some b => (s.canOf c).store.find? (fun e => e.1 = b)
  | none => none

/-- An attempt succeeds (R420, R424); in mode 3 the controller receives the frame itself. -/
def State.canSent (s : State) (c b : Nat) (f : CanFrame) : State :=
  let x := s.canOf c
  let ended := bitOf x.aborts b
  let s := (s.setCan c { x with store := tblDel b x.store, aborts := if ended then x.aborts - 2 ^ b else x.aborts }).setBufState c b 4
  let s := if ended then (s.setBuf c b 8 2 2).canEvent c 11 else s
  let s := (s.unitWrite (s.slotAt c b + 8) (leBytes f.time 4)).canCnt c 2 |>.canEvent c 1
  let s := (s.canHeard c).canCounters c (s.canN c 0xB - 1) (s.canN c 0xC)
  let s := if x.mode = 3 then s.canOffer c f else s
  s.canIdle c

/-- An attempt ends in an acknowledge error (R424): the count, and UNACKED once ALONE_LIMIT is reached. -/
def State.canUnacked (s : State) (c b : Nat) : State :=
  let k := (s.canOf c).acks + 1
  let s := s.setCan c { s.canOf c with acks := k }
  let limit := s.canN c 6
  if bitOf (s.canOf c).aborts b || limit = 0 || (k < limit && !s.bit (canIdx c) 0xA 2) then s.canRetry c b
  else
    let s := if s.bit (canIdx c) 0xA 2 then s else (s.canStatus c 2 1 1).canEvent c 9
    ((s.setBufState c b 6).cnt (canIdx c) 0xF).canEvent c 10

/-- Abort of one buffer (R421, R27). -/
def State.canAbort (s : State) (c b : Nat) : State :=
  if s.bufState c b = 2 then
    let x := s.canOf c
    (((s.setCan c { x with store := tblDel b x.store }).setBufState c b 5).setBuf c b 8 2 1).canEvent c 11
  else if s.bufState c b = 3 && !bitOf (s.canOf c).aborts b then
    s.setCan c { s.canOf c with aborts := (s.canOf c).aborts + 2 ^ b }
  else s

/-! ### Locks (R417) -/

def State.canLock (s : State) (c b : Nat) : State :=
  let x := s.canOf c
  if bitOf x.promo b then s.setCan c { x with relock := x.relock ||| 2 ^ b } else s.setBuf c b 4 1 1

/-- An unlock clears NEW; a full shadow is promoted first. -/
def State.canUnlock (s : State) (c b : Nat) : State :=
  let x := s.canOf c
  if !bitOf (s.bufSt c b) 4 then s
  else if bitOf x.promo b then s.setCan c { x with relock := x.relock - (x.relock &&& 2 ^ b) }
  else
    let s := if s.bufState c b = 1 then s.setBufState c b 0 else s
    if bitOf (s.bufSt c b) 5 then s.setCan c { x with promo := x.promo ||| 2 ^ b } else s.setBuf c b 4 1 0

/-- The shadow has been copied into the slot. -/
def State.canPromoted (s : State) (c b : Nat) : State :=
  let x := s.canOf c
  match x.shadow.find? (fun e => e.1 = b) with
  | none => s
  | some (_, f, how) =>
    let again := bitOf x.relock b
    let s := s.setCan c { x with shadow := tblDel b x.shadow, promo := x.promo - (x.promo &&& 2 ^ b)
                                 relock := x.relock - (x.relock &&& 2 ^ b) }
    let s := ((s.canPut c b (s.slotAt c b) f how).setBufState c b 1).canEvent c 0
    (s.setBuf c b 5 1 0).setBuf c b 4 1 (if again then 1 else 0)

/-- Apply `f` to every buffer whose bit is set. -/
def State.canEach (s : State) (v : Nat) (f : State → Nat → State) : State :=
  (List.range 64).foldl (fun s b => if bitOf v b then f s b else s) s

/-- A per-block reset (R87, R409): offline, error counters 0, MODE 0; buffers and FIFOs empty. -/
def State.canReset (s : State) (c : Nat) : State :=
  let i := canIdx c
  let s := ((((s.setCan c {}).wr i 1 0).dropSubs i 0xA 0xC).dropSubs i 0xF 0x11).route (routeOf i) false
  ((((s.dropSubs (i + 1) 1 7).dropSubs (i + 5) 1 0x40).dropSubs (i + 6) 2 0xA).dropSubs (i + 9) 1 4)

/-! ### Effects of object writes -/

def State.effCan (s : State) (i j v : Nat) : Option State :=
  if 0x2900 ≤ i ∧ i ≤ 0x2939 then
    let c := (i - 0x2900) / 16
    let k := (i - 0x2900) % 16
    if k = 0 ∧ j = 1 then some (s.canMode c v)
    else if k = 0 ∧ j = 0xE then
      some (if v = 1 && s.busOff c && s.canN c 0xD = 1 then s.setCan c { s.canOf c with recovering := true } else s)
    else if k = 6 ∧ j = 2 then some (s.canEach v (fun s b => s.canRequest c b))
    else if k = 6 ∧ j = 4 then some (s.canEach v (fun s b => s.canAbort c b))
    else if k = 6 ∧ j = 6 then some (s.canEach v (fun s b => s.canLock c b))
    else if k = 6 ∧ j = 8 then some (s.canEach v (fun s b => s.canUnlock c b))
    else if k = 6 ∧ j = 0xA then some (s.canEach v (fun s b => s.setBuf c b 6 1 0))
    else none
  else none

end Sys2Proof.Machine
end

