-- ==== Sys2Proof/Machine/Can.lean ====
section
/-! DEFINITION. The commands of the CAN FD controllers (spec/15). -/

namespace Sys2Proof.Machine

/-- CAN_MODE_WRITE (R422). -/
def execCanModeWrite (p : Path) (c : Fin 4) (v : Word) (s : State) : Res :=
  .next (s.guard p (canIdx c) 1 v.toNat (fun s => s.canMode c v.toNat))

/-- CAN_INTEGRATED (R422): 11 recessive bits. -/
def execCanIntegrated (c : Fin 4) (s : State) : Res := .next (s.canStatus c 3 1 0)

/-- CAN_FRAME_RECEIVED (R415): a valid frame whose SOF came `ago` ticks back at `phase`; an attempt of this controller that
was on the bus has lost arbitration to it. -/
def execCanFrameReceived (c : Fin 4) (f : BusFrame) (ago : Nat) (phase : Fin 8) (s : State) : Res :=
  .next (if s.canLive c then
    let t := s.canStamp c ago phase
    let s := (t.2.canHeard c).canLost c
    let s := if (s.canOf c).mode = 1 then
        let r := s.recDown c
        r.2.canCounters c (s.canN c 0xB) r.1
      else s
    s.canOffer c { id := if f.ide then f.id.toNat else fieldOf f.id.toNat 18 11 * 2 ^ 18, ide := f.ide
                   rtr := f.rtr && !f.fdf, dlc := f.dlc.toNat, fdf := f.fdf, brs := f.brs, esi := f.esi
                   data := f.data, time := t.1 }
  else s)

/-- CAN_FRAME_STORED (R414). -/
def execCanFrameStored (c : Fin 4) (s : State) : Res := .next (s.canStore c)

/-- CAN_RX_ERROR (R423): an error while receiving, in the nominal or the data phase; `eights` are the further eight steps
that ISO 11898-1 adds, `res` that the error is a recessive res bit, which with PROTOCOL_EXCEPTION is none (R408). -/
def execCanRxError (c : Fin 4) (lec : Fin 7) (data res : Bool) (eights : Fin 32) (s : State) : Res :=
  .next (if s.canLive c then
    let s := s.canLost c
    if res && s.bit (canIdx c) 2 1 then (s.canStatus c 3 1 1).canEvent c 12
    else
      let s := s.canErr c lec data
      if (s.canOf c).mode = 1 then
        let r := s.recUp c (1 + 8 * eights.val)
        r.2.canCounters c (s.canN c 0xB) r.1
      else s
  else s)

/-- CAN_TX_REQUEST (R419). -/
def execCanTxRequest (p : Path) (c : Fin 4) (v : DWord) (s : State) : Res :=
  .next (s.guard p (canIdx c + 6) 2 v.toNat (fun s => s.canEach v.toNat (fun s b => s.canRequest c b)))

/-- CAN_TX_ATTEMPT (R420): SOF. -/
def execCanTxAttempt (c : Fin 4) (phase : Fin 8) (dt : Nat) (s : State) : Res :=
  let s := s.advance dt
  let m := (s.canOf c).mode
  .next (if (s.canOf c).cur.isNone && ((m = 1 && s.canLive c) || (m = 3 && !s.busOff c)) then s.canAttempt c phase else s)

/-- CAN_TX_SUCCESS (R420): the frame is valid for the transmitter; `delay` is what an FD frame measured (R412). -/
def execCanTxSuccess (c : Fin 4) (delay : BitVec 7) (s : State) : Res :=
  .next (match s.canSending c with
    | some (b, f) =>
      if s.canFar c f delay.toNat || (s.canOf c).inject then s else (s.canDelay c f delay.toNat).canSent c b f
    | none => s)

/-- CAN_TX_ERROR (R423, R424): TEC rises by 8, but not by a passive transmitter's acknowledge error, nor where `free` says
that ISO 11898-1 leaves it; `eights` are further steps. A secondary sample point beyond 127 periods sets TDC_RANGE (R412). -/
def execCanTxError (c : Fin 4) (lec : Fin 7) (data free : Bool) (eights : Fin 32) (delay : BitVec 7) (s : State) : Res :=
  .next (match s.canSending c with
    | some (b, f) =>
      let far := data && s.canFar c f delay.toNat
      let s := if data then s.canDelay c f delay.toNat else s
      let s := if far then s.canEvent c 13 else s
      let s := s.canErr c lec data
      let passive := fieldOf (s.canN c 0xA) 0 2 = 1
      let tec := s.canN c 0xB + 8 * eights.val + (if free || (passive && lec.val = 3) then 0 else 8)
      let s := s.canCounters c tec (s.canN c 0xC)
      let s := if lec.val = 3 then s.canUnacked c b else s.canRetry c b
      s.canIdle c
    | none => s)

/-- CAN_TX_ABORT (R421). -/
def execCanTxAbort (p : Path) (c : Fin 4) (v : DWord) (s : State) : Res :=
  .next (s.guard p (canIdx c + 6) 4 v.toNat (fun s => s.canEach v.toNat (fun s b => s.canAbort c b)))

/-- CAN_LOCK_SET and CAN_LOCK_CLEAR (R417). -/
def execCanLockSet (p : Path) (c : Fin 4) (v : DWord) (s : State) : Res :=
  .next (s.guard p (canIdx c + 6) 6 v.toNat (fun s => s.canEach v.toNat (fun s b => s.canLock c b)))
def execCanLockClear (p : Path) (c : Fin 4) (v : DWord) (s : State) : Res :=
  .next (s.guard p (canIdx c + 6) 8 v.toNat (fun s => s.canEach v.toNat (fun s b => s.canUnlock c b)))

/-- CAN_SHADOW_PROMOTED (R417). -/
def execCanShadowPromoted (c : Fin 4) (b : Fin 64) (s : State) : Res :=
  .next (if bitOf (s.canOf c).promo b then s.canPromoted c b else s)

/-- CAN_LOST_CLEAR (R417). -/
def execCanLostClear (p : Path) (c : Fin 4) (v : DWord) (s : State) : Res :=
  .next (s.guard p (canIdx c + 6) 0xA v.toNat (fun s => s.canEach v.toNat (fun s b => s.setBuf c b 6 1 0)))

/-- CAN_FIFO_GET (R416). -/
def execCanFifoGet (p : Path) (c : Fin 4) (k : Fin 2) (v : Word) (s : State) : Res :=
  .next (s.guard p (canIdx c + 9) (1 + 2 * k.val) v.toNat (fun s => s.wr (canIdx c + 9) (1 + 2 * k.val) v.toNat))

/-- CAN_RECOVER (R423). -/
def execCanRecover (p : Path) (c : Fin 4) (v : Word) (s : State) : Res :=
  .next (s.guard p (canIdx c) 0xE v.toNat (fun s =>
    if v = 1 && s.busOff c && s.canN c 0xD = 1 then s.setCan c { s.canOf c with recovering := true } else s))

/-- CAN_BUS_OFF_RECOVERED (R423): 128 × 11 recessive bits. -/
def execCanBusOffRecovered (c : Fin 4) (s : State) : Res :=
  .next (if s.busOff c && (s.canOf c).recovering then
    ((s.setCan c { s.canOf c with recovering := false }).canCounters c 0 0).canEvent c 8
  else s)

end Sys2Proof.Machine
end

