-- ==== Sys2Proof/Machine/LatAgent.lean ====
section
/-! DEFINITION. The Lattice agent: frames, HELLOs, neighbours, election, addresses, routes, join comparison
(R366–R381, R385). -/

namespace Sys2Proof.Machine

def State.setLat (s : State) (f : Lattice → Lattice) : State := { s with lat := f s.lat }

/-- Globals, keeper view. -/
def State.latState (s : State) : Nat := s.n 0x2800 0xE
def State.ownId (s : State) : Nat := s.n 0x2000 8
def State.ownAddr (s : State) : Nat := s.n 0x2802 1
def State.latOn (s : State) : Bool := s.n 0x2800 1 = 1
def State.isKeeper (s : State) : Bool := s.latState = 3
/-- OWN_PRIORITY; 255 in RECOVERY (R389). -/
def State.ownPrio (s : State) : Nat := if s.dev = 4 then 255 else s.n 0x2801 1

/-- The links that are up. -/
def State.latPorts (s : State) : List Nat := (List.range 12).filter (fun p => s.isLink p && s.linkUp p)

/-- Number of the most-significant-first bytes at `i`. -/
def beNat (p : List Byte) (i n : Nat) : Nat := ((p.drop i).take n).foldl (fun a b => a * 256 + b.toNat) 0

/-! ### Frames (R367, R368) -/

/-- Header, payload and PAYLOAD_CRC. -/
def latBytes (typ hop dest source cls : Nat) (resp : Bool) (seq : Nat) (payload : List Byte) : List Byte :=
  let h := fun (hop : Nat) => beOf (16 + typ) 1 ++ beOf hop 1 ++ beOf dest 2 ++ beOf source 2 ++ beOf (cls * 16) 1 ++
    beOf (if resp then 1 else 0) 1 ++ beOf seq 4 ++ beOf payload.length 2 ++ zeros 2
  h hop ++ payload ++ beOf (crc32c (h 0 ++ payload)).toNat 4

/-- The flow class of the agent's own frames (log entry 41). -/
def agentClass : Nat := 7

/-- A frame leaves on port `p` for MAC address `da`, through station 13 and the port's queue. -/
def State.latOut (s : State) (p da cls : Nat) (f : List Byte) : State :=
  (s.ringAdmit 1 (2 ^ p) (fieldOf (s.n 0x2800 8) (4 * cls) 3) false false
    (beOf da 6 ++ beOf (s.portN p 0xA) 6 ++ beOf (s.n 0x2800 2) 2 ++ f)).2

/-- The next SEQUENCE of a flow class. -/
def State.latSeq (s : State) (cls : Nat) : Nat × State :=
  let q := tblGet (fun _ => 0) cls s.lat.seqs
  (q, s.setLat (fun l => { l with seqs := tblSet (fun _ => 0) cls ((q + 1) % 2 ^ 32) l.seqs }))

/-- Neighbours that are up. -/
def State.upNbs (s : State) : List Nat := (List.range 16).filter (fun n => s.nbN n 1 = 2)

/-- The sponsor (R378): the neighbour with an address over the cheapest link, then the lowest unique ID. -/
def State.sponsor (s : State) : Option Nat :=
  (s.upNbs.filter (fun n => s.nbN n 4 ≠ 0)).foldl (fun best n =>
    match best with
    | none => some n
    | some b => if s.nbN n 6 < s.nbN b 6 || (s.nbN n 6 = s.nbN b 6 && s.nbN n 2 < s.nbN b 2) then some n else best) none

/-- Send to neighbour `n`. -/
def State.latToNb (s : State) (n cls : Nat) (f : List Byte) : State :=
  s.latOut (s.nbN n 5) (tblGet (fun _ => 0) n s.lat.nbMac) cls f

/-- Send to address `a`: by the route in force, else to a neighbour of that address, else through the sponsor. -/
def State.latTo (s : State) (a cls : Nat) (f : List Byte) : State :=
  let e := tblGet (fun _ => 0) a s.lat.routes
  if s.hopUp (bitOf e 9) (fieldOf e 0 5) (fieldOf e 5 4) then s.latToNb (fieldOf e 5 4) cls f
  else if s.hopUp (bitOf e 19) (fieldOf e 10 5) (fieldOf e 15 4) then s.latToNb (fieldOf e 15 4) cls f
  else match s.upNbs.find? (fun n => s.nbN n 4 = a) with
    | some n => s.latToNb n cls f
    | none => match s.sponsor with
      | some n => s.latToNb n cls f
      | none => s.latCnt 3

/-- An unsolicited frame or a request to address `a` of type `typ`. -/
def State.latSend (s : State) (a typ : Nat) (payload : List Byte) : State :=
  let q := s.latSeq agentClass
  q.2.latTo a agentClass (latBytes typ (s.n 0x2800 7) a s.ownAddr agentClass false q.1 payload)

/-- A link-local frame to neighbour `n`. -/
def State.latLocal (s : State) (port mac typ : Nat) (resp : Bool) (payload : List Byte) : State :=
  let q := s.latSeq agentClass
  q.2.latOut port mac agentClass (latBytes typ (s.n 0x2800 7) 0 s.ownAddr agentClass resp q.1 payload)

/-! ### HELLOs (R372, R374) -/

/-- Cost of the link on port `p` (R374). -/
def State.linkCost (s : State) (p : Nat) : Nat :=
  let c := s.n 0x2803 (p + 1)
  let sp := s.speedOf p
  if c ≠ 0 then c
  else if sp = 6 then 1 else if sp = 5 then 2 else if sp = 4 then 4 else if sp = 3 then 10 else if sp = 2 then 100 else 1000

/-- Priority of the keeper this device names. -/
def State.keeperPrio (s : State) : Nat :=
  if s.n 0x2801 2 = s.ownId then s.ownPrio
  else match s.lat.claims.find? (fun c => c.id = s.n 0x2801 2) with | some c => c.prio | none => 255

/-- The payload of a HELLO on port `p` with a given HEARD_ID. -/
def State.helloPayload (s : State) (p heard : Nat) : List Byte :=
  beOf s.ownId 8 ++ beOf s.ownAddr 2 ++ beOf p 1 ++ beOf s.ownPrio 1 ++ beOf (s.n 0x2801 2) 8 ++ beOf (s.n 0x2801 4) 2 ++
  beOf s.keeperPrio 1 ++ beOf ((if s.latState = 4 then 1 else 0) + (if s.dev = 4 then 2 else 0)) 1 ++
  beOf (s.n 0x2801 5) 4 ++ beOf (s.n 0x2800 0xD) 4 ++ beOf (s.n 0x2800 0xC) 4 ++ beOf (s.n 0x2800 0xA) 8 ++ beOf heard 8 ++
  beOf (s.linkCost p) 2 ++ zeros 2 ++ beOf (s.n 0x2801 8) 4 ++ zeros 4

/-- Rim ticks of 3 × HELLO_PERIOD, and of the 10 ms spacing. -/
def State.helloSpan (s : State) : Nat := 3 * s.n 0x2800 6 * 500000
def helloGap : Nat := 5000000

/-- Send a HELLO on port `p`, with the next device heard there. -/
def State.hello (s : State) (p : Nat) : State :=
  let ids := (s.lat.heard.filter (fun h => h.1 = p && s.ticks - h.2.2 ≤ s.helloSpan)).map (·.2.1)
  let k := tblGet (fun _ => 0) p s.lat.turn
  let heard := if ids.isEmpty then 0 else ids.getD (k % ids.length) 0
  let q := s.latSeq agentClass
  let f := latBytes 0 (s.n 0x2800 7) 0 s.ownAddr agentClass false q.1 (s.helloPayload p heard)
  (q.2.latOut p (s.n 0x2800 4) agentClass f).setLat (fun l => { l with
    turn := tblSet (fun _ => 0) p (k + 1) l.turn, sent := tblSet (fun _ => none) p (some (s.ticks, s.helloPayload p 0)) l.sent })

/-- A HELLO held back on port `p` may go, or one is due because a field other than HEARD_ID has changed (R372). -/
def State.helloDue (s : State) (p : Nat) : Bool :=
  match tblGet (fun _ => none) p s.lat.sent with
  | none => true
  | some (at', d) => d ≠ s.helloPayload p 0 && helloGap ≤ s.ticks - at'

/-- HELLOs that a change of the payload sends at once. -/
def State.latRefresh (s : State) : State :=
  if s.latOn then s.latPorts.foldl (fun s p => if s.helloDue p then s.hello p else s) s else s

/-! ### Election (R375, R376) -/

/-- Candidate `a` is better than `b`: (priority, unique ID). -/
def betterKeeper (a b : Nat × Nat) : Bool := a.1 < b.1 || (a.1 = b.1 && a.2 < b.2)

/-- The best keeper: priority, unique ID, address. -/
def State.bestKeeper (s : State) : Nat × Nat × Nat :=
  s.upNbs.foldl (fun b n =>
    match tblGet (fun _ => (0, 0, 0)) n s.lat.names with
    | (id, prio, addr) =>
      let ok := id ≠ 0 && id ≠ s.ownId && s.lat.claims.any (fun c => c.id = id && c.fresh)
      if ok && betterKeeper (prio, id) (b.1, b.2.1) then (prio, id, addr) else b) (s.ownPrio, s.ownId, s.ownAddr)

/-- Enter a Lattice state. -/
def State.latEnter (s : State) (st : Nat) : State := if s.latState = st then s else (s.wr 0x2800 0xE st).latEvent 0

/-- An address for unique ID `id` whose stored one is `stored` (R379); 0 where none is free. -/
def State.grantFor (s : State) (id stored : Nat) : Nat :=
  let holder := fun a => tblGet (fun _ => 0) a s.lat.addrs
  if stored ≠ 0 && stored ≤ 1023 && (holder stored = 0 || holder stored = id) then stored
  else ((List.range 1023).map (· + 1)).find? (fun a => holder a = 0) |>.getD 0

/-- Enter a grant into the keeper's table; DEVICES follows. -/
def State.enterAddr (s : State) (a id : Nat) : State :=
  let s := s.setLat (fun l => { l with addrs := tblSet (fun _ => 0) a id l.addrs })
  s.wr 0x2801 7 s.lat.addrs.length

/-- Values kept in the parameter store without a save of their own (R379). -/
def State.persist (s : State) (i j v : Nat) : State :=
  let put := fun (c : ParamCopy) => if c.valid then { c with vals := tblIns (odKey i j) (BitVec.ofNat 64 v) c.vals } else c
  { s with store := { s.store with copyA := put s.store.copyA, copyB := put s.store.copyB } }

/-- This device takes an address (R379). -/
def State.takeAddr (s : State) (a : Nat) : State :=
  let old := s.ownAddr
  if old = a then s
  else ((((s.wr 0x2802 1 a).wr 0x2802 2 a).persist 0x2802 2 a).latEvent 9).record 0x0702 (body [(old, 2), (a, 2)])

/-- The keeper's own address: as a JOIN of its own would be granted. -/
def State.keeperAddr (s : State) : State :=
  let a := if s.ownAddr ≠ 0 then s.ownAddr else s.grantFor s.ownId (s.n 0x2802 2)
  let s := (s.enterAddr a s.ownId).takeAddr a
  s.wr 0x2801 4 s.ownAddr

/-- The device names a keeper (R375–R377). -/
def State.nameKeeper (s : State) (k : Nat × Nat × Nat) : State :=
  let old := s.n 0x2801 2
  let s := (s.wr 0x2801 2 k.2.1).wr 0x2801 4 k.2.2
  let s := if old = k.2.1 || old = 0 then s
    else ((s.cnt 0x2801 6).latEvent 1).record 0x0701 (body [(k.2.1, 8), (k.2.2, 2)])
  if k.2.1 = s.ownId then
    ((s.setLat (fun l => { l with awaitHead := false, fetch := none })).latEnter 3).keeperAddr.wr 0x2801 5 s.lat.ownSeq
  else
    let seq := match s.lat.claims.find? (fun c => c.id = k.2.1) with | some c => c.seq | none => 0
    let s := s.wr 0x2801 5 seq
    if old = k.2.1 && s.latState ≠ 1 then s
    else
      let s := s.setLat (fun l => { l with awaitHead := true, head := none, fetch := none, reports := [] })
      if s.latState = 4 then s else s.latEnter 2

/-- KEEPER_ELECTION: outside discovery, a better keeper than the present one, or the loss of it, changes it. -/
def State.elect (s : State) : State :=
  if s.latState < 2 then s
  else
    let b := s.bestKeeper
    if b.2.1 = s.n 0x2801 2 then s.wr 0x2801 4 (if b.2.1 = s.ownId then s.ownAddr else b.2.2) else s.nameKeeper b

/-! ### Enable and discovery (R377) -/

/-- A write of ENABLE: discovery begins with HELLOs that name the device itself; 0 ends the agent. -/
def State.latEnable (s : State) (v : Nat) : State :=
  if v = 1 then
    if s.latOn then s
    else
      let s := (s.wr 0x2800 1 1).setLat (fun l => { set := l.set, addrs := l.addrs })
      let s := ((s.wr 0x2801 2 s.ownId).wr 0x2801 4 s.ownAddr).latEnter 1
      s.latRefresh
  else
    let s := ((List.range 16).foldl (fun s n => if s.nbN n 1 ≠ 0 then s.neighbourLost n else s) s).wr 0x2800 1 0
    (s.setLat (fun l => { set := l.set, addrs := l.addrs })).latEnter 0

/-- LATTICE_ENABLE (R377). -/
def execLatticeEnable (q : Path) (v : Word) (s : State) : Res :=
  .next (s.guard q 0x2800 1 v.toNat (fun s => s.latEnable v.toNat))

/-- DISCOVERY_END (R377). -/
def execDiscoveryEnd (s : State) : Res :=
  .next (if s.latState ≠ 1 then s
  else
    let b := s.bestKeeper
    let s := s.nameKeeper b
    let s := if b.2.1 = s.ownId && s.upNbs.isEmpty then (s.confirmConfig (s.n 0x2800 0xD)).latEvent 11 else s
    s.latRefresh)

/-- HELLO_SEND (R372, R375): every HELLO_PERIOD; the keeper counts KEEPER_SEQ. -/
def execHelloSend (dt : Nat) (s : State) : Res :=
  let s := s.advance dt
  .next (if !s.latOn then s
  else
    let s := s.elect
    let s := if s.isKeeper then
        let q := (s.lat.ownSeq + 1) % 2 ^ 32
        (s.setLat (fun l => { l with ownSeq := q })).wr 0x2801 5 q
      else s
    s.latPorts.foldl (fun s p => s.hello p) s)

/-- TRIGGERED_HELLO (R372): the 10 ms spacing on a link ends and the HELLO held back is sent. -/
def execTriggeredHello (p : Fin 12) (dt : Nat) (s : State) : Res :=
  let s := s.advance dt
  .next (if s.latOn && s.latPorts.contains p.val && s.helloDue p then s.hello p else s)

/-! ### Delivered frames (R368, R371) -/

/-- The header of a frame on its Ethernet bytes. -/
def latParse (p : Nat) (d : List Byte) : LatFrame :=
  let h := etPos d + 2
  { port := p, mac := mac48 d 6, typ := at' d h % 16, hop := at' d (h + 1), dest := beNat d (h + 2) 2, source := beNat d (h + 4) 2
    cls := at' d (h + 6) / 16, resp := decide (at' d (h + 7) % 2 = 1), seq := beNat d (h + 8) 4
    payload := (d.drop (h + 16)).take (beNat d (h + 12) 2) }

/-- PAYLOAD_CRC over the header with HOP_LIMIT 0 and the payload. -/
def latIntact (d : List Byte) : Bool :=
  let h := etPos d + 2
  let n := beNat d (h + 12) 2
  h + 20 + n ≤ d.length &&
  (crc32c ((d.drop h).take 1 ++ zeros 1 ++ (d.drop (h + 2)).take (14 + n))).toNat = beNat d (h + 16 + n) 4

/-- Copies of a frame for every device go to the tree neighbours but the one it came from (R371). -/
def State.latFlood (s : State) (x : LatFrame) (f : List Byte) : State :=
  s.upNbs.foldl (fun s n =>
    if s.bit 0x2801 9 n && !(s.nbN n 5 = x.port && tblGet (fun _ => 0) n s.lat.nbMac = x.mac) then s.latToNb n x.cls f else s) s

/-- LATTICE_FRAME_DELIVERED (R368): the agent takes a frame `d` (without FCS) that station 13 got from port `p`. A request
that was answered already gets its answer again (R382). -/
def execLatticeFrameDelivered (p : Fin 12) (d : List Byte) (s : State) : Res :=
  .next (if !s.latticeType p d || !s.latticeMine p d then s
  else
    let s := s.latCnt 2
    let x := latParse p d
    let h := etPos d + 2
    if !latIntact d then s.latCnt 8
    else if at' d h / 16 ≠ 1 || 11 ≤ x.typ || 1472 < x.payload.length then s.latCnt 7
    else if x.dest = 0xFFFF && (tblGet (fun _ => []) x.source s.lat.seen).contains x.seq then s.latCnt 9
    else
      let s := if x.dest = 0xFFFF then
          let s := s.setLat (fun l => { l with
            seen := tblSet (fun _ => []) x.source ((x.seq :: tblGet (fun _ => []) x.source l.seen).take 64) l.seen })
          if x.hop ≤ 1 then s else s.latFlood x ((d.drop h).take 1 ++ beOf (x.hop - 1) 1 ++ d.drop (h + 2))
        else s
      match s.lat.answers.find? (fun a => !x.resp && a.addr = x.source && a.typ = x.typ && a.cls = x.cls && a.seq = x.seq) with
      | some a => (s.latCnt 9).latTo x.source x.cls a.frame
      | none => s.setLat (fun l => { l with got := some x }))

/-- The frame taken last, if it is of type `typ` and a request or a response as `resp` says; it is consumed. -/
def State.latGot (s : State) (typ : Nat) (resp : Bool) : Option (LatFrame × State) :=
  match s.lat.got with
  | some x => if x.typ = typ && x.resp = resp && s.latOn then some (x, s.setLat (fun l => { l with got := none })) else none
  | none => none

/-! ### Neighbours (R373) -/

/-- The entry a HELLO of device `id` on port `p` belongs to: its own, a free one, or for a device that hears this one an
entry of a device only heard. -/
def State.nbSlot (s : State) (id p : Nat) (hears : Bool) : Option Nat :=
  match (List.range 16).find? (fun n => s.nbN n 1 ≠ 0 && s.nbN n 2 = id && s.nbN n 5 = p) with
  | some n => some n
  | none => match (List.range 16).find? (fun n => s.nbN n 1 = 0) with
    | some n => some n
    | none => if hears then (List.range 16).find? (fun n => s.nbN n 1 = 1) else none

/-- The claim a HELLO carries (R375). -/
def State.latClaim (s : State) (id prio addr seq : Nat) : State :=
  if id = 0 || id = s.ownId then s
  else match s.lat.claims.find? (fun c => c.id = id) with
    | none => s.setLat (fun l => { l with claims := { id := id, prio := prio, addr := addr, seq := seq, fresh := true } :: l.claims })
    | some c =>
      let rose := newer seq c.seq
      s.setLat (fun l => { l with claims := l.claims.map (fun x =>
        if x.id = id then (if rose then { id := id, prio := prio, addr := addr, seq := seq, fresh := true } else x) else x) })

/-- A HELLO updates neighbour and claims (R373, R375). -/
def State.helloTaken (s : State) (x : LatFrame) : State :=
  let d := x.payload
  let id := beNat d 0 8
  let p := x.port
  let hears := beNat d 44 8 = s.ownId
  let s := s.setLat (fun l => { l with
    heard := (p, id, s.ticks) :: l.heard.filter (fun h => !(h.1 = p && h.2.1 = id)) })
  let s := s.latClaim (beNat d 12 8) (beNat d 22 1) (beNat d 20 2) (beNat d 24 4)
  let s := match s.nbSlot id p hears with
    | none => if hears then (s.cnt 0x2821 0xA).latEvent 10 else s
    | some n =>
      let o := 0x2810 + n
      let was := if s.nbN n 2 = id && s.nbN n 5 = p then s.nbN n 1 else 0
      let s := if was = 0 then (s.wr o 8 0).wr o 9 (if s.nbN n 2 = id then s.nbN n 9 else 0) else s
      let s := ((((s.wr o 2 id).wr o 4 (beNat d 8 2)).wr o 5 p).wr o 6 (s.linkCost p)).wr o 7 (beNat d 28 4)
      let s := (s.cnt o 8).setLat (fun l => { l with
        nbMac := tblSet (fun _ => 0) n x.mac l.nbMac
        names := tblSet (fun _ => (0, 0, 0)) n (beNat d 12 8, beNat d 22 1, beNat d 20 2) l.names })
      if hears && was ≠ 2 then (s.wr o 1 2).latEvent 2 else if was = 0 then s.wr o 1 1 else s
  let s := if s.latState ≥ 2 && beNat d 12 8 = s.n 0x2801 2 && s.n 0x2801 2 ≠ s.ownId then
      (match s.lat.claims.find? (fun c => c.id = s.n 0x2801 2) with | some c => s.wr 0x2801 5 c.seq | none => s)
    else s
  s.elect.latRefresh

/-- HELLO_RECEIVED (R373). -/
def execHelloReceived (s : State) : Res :=
  .next (match s.latGot 0 false with
    | some (x, t) => if x.payload.length = 64 && x.dest = 0 then t.helloTaken x else t
    | none => s)

/-- NEIGHBOUR_TIMEOUT (R373). -/
def execNeighbourTimeout (n : Fin 16) (s : State) : Res :=
  .next (if s.latOn && s.nbN n 1 ≠ 0 then ((s.neighbourLost n).elect).latRefresh else s)

/-- KEEPER_CLAIM_STALE (R375): the KEEPER_SEQ of keeper `id` has not risen within 3 × HELLO_PERIOD. -/
def execKeeperClaimStale (id : DWord) (s : State) : Res :=
  .next (if s.lat.claims.any (fun c => c.id = id.toNat && c.fresh) then
    ((s.setLat (fun l => { l with claims := l.claims.map (fun c => if c.id = id.toNat then { c with fresh := false } else c) })).elect).latRefresh
  else s)

/-! ### Joining (R378, R379) -/

/-- JOIN_SEND (R378): a member without an address. -/
def execJoinSend (s : State) : Res :=
  .next (if (s.latState = 2 || s.latState = 4) && s.ownAddr = 0 then
    match s.sponsor with
    | some n => s.latLocal (s.nbN n 5) (tblGet (fun _ => 0) n s.lat.nbMac) 3 false (beOf s.ownId 8 ++ beOf (s.n 0x2802 2) 2)
    | none => s
  else s)

/-- The device a relayed JOIN came from. -/
def State.relayOf (s : State) (id : Nat) : Option (Nat × Nat) := (s.lat.relays.find? (fun r => r.1 = id)).map (·.2)

/-- JOIN_RELAY (R378): a sponsor relays a JOIN to the keeper, and the grant back to the joiner. -/
def execJoinRelay (s : State) : Res :=
  .next (if s.isKeeper || s.ownAddr = 0 then s
  else match s.latGot 3 false with
    | some (x, t) =>
      let id := beNat x.payload 0 8
      let t := t.setLat (fun l => { l with relays := (id, x.port, x.mac) :: l.relays.filter (fun r => r.1 ≠ id) })
      t.latSend (t.n 0x2801 4) 3 x.payload
    | none => match s.latGot 3 true with
      | some (x, t) =>
        (match t.relayOf (beNat x.payload 0 8) with
        | some (p, m) =>
          (t.latLocal p m 3 true x.payload).setLat (fun l => { l with relays := l.relays.filter (fun r => r.1 ≠ beNat x.payload 0 8) })
        | none => s)
      | none => s)

/-- JOIN_RECEIVED (R379): the keeper grants an address. -/
def execJoinReceived (s : State) : Res :=
  .next (if !s.isKeeper then s
  else match s.latGot 3 false with
    | some (x, t) =>
      let id := beNat x.payload 0 8
      let a := t.grantFor id (beNat x.payload 8 2)
      let t := if a = 0 then t.cnt 0x2801 0xA else t.enterAddr a id
      let grant := beOf id 8 ++ beOf a 2
      if x.dest = 0 then t.latLocal x.port x.mac 3 true grant
      else t.latTo x.source x.cls (latBytes 3 (t.n 0x2800 7) x.source t.ownAddr x.cls true x.seq grant)
    | none => s)

/-- JOIN_GRANT_RECEIVED (R379). -/
def execJoinGrantReceived (s : State) : Res :=
  .next (match s.latGot 3 true with
    | some (x, t) =>
      if beNat x.payload 0 8 = s.ownId then
        (if beNat x.payload 8 2 = 0 then t.cnt 0x2801 0xA else (t.takeAddr (beNat x.payload 8 2)).latRefresh)
      else s
    | none => s)

/-- A write of FORGET (R379). -/
def State.latForget (s : State) (a : Nat) : State :=
  let s := s.setLat (fun l => { l with addrs := tblDel a l.addrs })
  if s.isKeeper then s.wr 0x2801 7 s.lat.addrs.length else s

/-- KEEPER_FORGET (R379). -/
def execKeeperForget (q : Path) (v : Half) (s : State) : Res :=
  .next (s.guard q 0x2801 0xB v.toNat (fun s => s.latForget v.toNat))

/-! ### Link reports and routes (R378, R380, R381) -/

/-- This device's links. -/
def State.ownLinks (s : State) : List LatLink :=
  s.upNbs.map (fun n => { idx := n, port := s.nbN n 5, addr := s.nbN n 4, cost := s.nbN n 6, id := s.nbN n 2 })

/-- A LINK_REPORT's payload: 16 bytes for each neighbour (log entry 42). -/
def linkBytes (l : List LatLink) : List Byte :=
  (l.map (fun k => beOf k.idx 1 ++ beOf k.port 1 ++ beOf k.addr 2 ++ beOf k.cost 2 ++ zeros 2 ++ beOf k.id 8)).flatten

def linksOf (d : List Byte) : List LatLink :=
  (List.range (d.length / 16)).map (fun k =>
    let b := d.drop (16 * k)
    { idx := beNat b 0 1, port := beNat b 1 1, addr := beNat b 2 2, cost := beNat b 4 2, id := beNat b 8 8 })

/-- LINK_REPORT_SEND (R378). -/
def execLinkReportSend (s : State) : Res :=
  .next (if (s.latState = 2 || s.latState = 4) && s.ownAddr ≠ 0 then s.latSend (s.n 0x2801 4) 1 (linkBytes s.ownLinks) else s)

/-- No path. -/
def farAway : Nat := 2 ^ 32

/-- Links of the device at address `x`, as the keeper knows them. -/
def State.linksAt (s : State) (x : Nat) : List LatLink :=
  (if x = s.ownAddr then s.ownLinks else tblGet (fun _ => []) x s.lat.reports).filter (fun k => k.addr ≠ 0)

/-- Addresses in the keeper's graph. -/
def State.latNodes (s : State) : List Nat := s.ownAddr :: (s.lat.reports.map (·.1)).filter (· ≠ s.ownAddr)

/-- One round of relaxation of the distances to `a`. -/
def State.relax (s : State) (a : Nat) (d : Tbl Nat) : Tbl Nat :=
  s.latNodes.foldl (fun t x =>
    let m := (s.linksAt x).foldl (fun m k => min m (k.cost + tblGet (fun _ => farAway) k.addr d)) farAway
    tblSet (fun _ => farAway) x (if x = a then 0 else m) t) []

/-- Distances to `a` after `k` rounds. -/
def State.distTo (s : State) (a : Nat) : Nat → Tbl Nat
  | 0 => [(a, 0)]
  | k + 1 => s.relax a (s.distTo a k)

/-- First hops of the shortest paths from `x` to `a`, and the links that may serve as alternates (R380). -/
def State.firstHops (s : State) (x : Nat) (d : Tbl Nat) : List LatLink :=
  let far := fun y => tblGet (fun _ => farAway) y d
  (s.linksAt x).filter (fun k => far x < farAway && k.cost + far k.addr = far x)
def State.altHops (s : State) (x : Nat) (d : Tbl Nat) (hop : Nat) : List LatLink :=
  let far := fun y => tblGet (fun _ => farAway) y d
  (s.linksAt x).filter (fun k => k.idx ≠ hop && far k.addr < far x)

/-- One of several equally good links: which is open (log entry 40). -/
def pickLink (l : List LatLink) (k : Nat) : Option LatLink := l[k % l.length]?

/-- The route entry of device `x` for destination `a`. -/
def State.routeEntry (s : State) (x a : Nat) (d : Tbl Nat) : Nat :=
  if x = a then 13 + 2 ^ 9
  else match pickLink (s.firstHops x d) (Config.routeTie x a) with
    | none => 0
    | some h =>
      h.port + h.idx * 2 ^ 5 + 2 ^ 9 +
      (match pickLink (s.altHops x d h.idx) (Config.altTie x a) with
        | some k => k.port * 2 ^ 10 + k.idx * 2 ^ 15 + 2 ^ 19
        | none => 0)

/-- The table of device `x`: entries of the addresses in the graph. -/
def State.routeTable (s : State) (x : Nat) : Tbl Nat :=
  s.latNodes.foldl (fun t a => tblSet (fun _ => 0) a (s.routeEntry x a (s.distTo a s.latNodes.length)) t) []

/-- TREE of device `x`: its first hop toward the keeper, and the neighbours whose first hop toward it is `x` (R376). -/
def State.treeOf (s : State) (x : Nat) : Nat :=
  let k := s.ownAddr
  let d := s.distTo k s.latNodes.length
  let hop := fun y => (pickLink (s.firstHops y d) (Config.routeTie y k)).map (·.addr)
  (s.linksAt x).foldl (fun m l => if (x ≠ k && hop x = some l.addr) || (l.addr ≠ k && hop l.addr = some x) then m ||| 2 ^ l.idx else m) 0

/-- Bytes of one part of a table. -/
def routePart (t : Tbl Nat) (part : Nat) : List Byte :=
  ((List.range 256).map (fun k => beOf (tblGet (fun _ => 0) (256 * part + k) t) 4)).flatten

/-- The head of a ROUTE frame. -/
def State.routeHead (s : State) (gen part tree : Nat) : List Byte :=
  beOf gen 4 ++ beOf part 1 ++ zeros 1 ++ beOf tree 2 ++ beOf (s.n 0x2800 0xD) 4 ++ beOf (s.n 0x2800 0xC) 4 ++
  beOf (s.n 0x2800 0xA) 8 ++ zeros 16

/-- The keeper recomputes the routes, puts its own in force and sends every device its table (R380, R381). -/
def State.distribute (s : State) : State :=
  if !s.isKeeper then s
  else
    let gen := (s.n 0x2801 8 + 1) % 2 ^ 32
    let own := s.routeTable s.ownAddr
    let others := s.latNodes.filter (· ≠ s.ownAddr)
    let tables := others.map (fun x => (x, s.routeTable x, s.treeOf x))
    let s := (((s.wr 0x2801 8 gen).wr 0x2801 9 (s.treeOf s.ownAddr)).setLat (fun l => { l with routes := own })).latEvent 4
    tables.foldl (fun s t =>
      (List.range 4).foldl (fun s part => s.latSend t.1 2 (s.routeHead gen part t.2.2 ++ routePart t.2.1 part)) s) s

/-- LINK_REPORT_RECEIVED (R380, R381). Two devices reported with one address and no entry of either in the table: the lower
unique ID keeps it (R379). -/
def execLinkReportReceived (s : State) : Res :=
  .next (if !s.isKeeper then s
  else match s.latGot 1 false with
    | some (x, t) =>
      let l := linksOf x.payload
      let t := l.foldl (fun t k =>
        let h := tblGet (fun _ => 0) k.addr t.lat.addrs
        if k.addr ≠ 0 && (h = 0 || (k.id < h && !(t.lat.reports.any (fun r => r.1 = k.addr)))) then t.enterAddr k.addr k.id else t) t
      (t.setLat (fun y => { y with reports := tblSet (fun _ => []) x.source l y.reports })).distribute.latRefresh
    | none => s)

/-! ### The join comparison (R385) -/

/-- The first cause that applies, against a ROUTE head. -/
def State.joinCause (s : State) (h : Nat × Nat × Nat) : Option Nat :=
  let own := s.n 0x2800 0xD
  let id := s.n 0x2800 0xC
  let diff := signed32 (own + 2 ^ 32 - h.1)
  if h.2.1 = 0 then none
  else if id ≠ 0 && id ≠ h.2.1 then some 2
  else if diff < 0 then some 1
  else if 0 < diff then some 3
  else if s.n 0x2800 0xA ≠ h.2.2 then some 4
  else none

/-- Free bytes. -/
def State.freeBytes (s : State) (n : Nat) : List Byte × State := (leBytes (s.free (8 * n)).toNat n, s.tick)

/-- A request of this device's own. -/
def State.latAsk (s : State) (a typ : Nat) (payload : List Byte) : State :=
  let q := s.latSeq agentClass
  let f := latBytes typ (s.n 0x2800 7) a s.ownAddr agentClass false q.1 payload
  (q.2.latTo a agentClass f).setLat (fun l => { l with
    reqs := l.reqs ++ [{ addr := a, typ := typ, cls := agentClass, seq := q.1, frame := f }] })

/-- Ask the keeper for the next block of the set. -/
def State.askBlock (s : State) (f : LatFetch) : State :=
  (s.setLat (fun l => { l with fetch := some { f with stage := 2, failed := false } })).latAsk (s.n 0x2801 4) 8
    (beOf f.gen 4 ++ beOf (f.data.length / 1024) 2)

/-- Fetch the keeper's set: in quarantine through a secure session, whose messages are free values but for their head (R386,
R503); else at once (R384). -/
def State.fetchSet (s : State) (gen : Nat) : State :=
  if s.latState = 4 then
    let r := s.freeBytes 84
    (r.2.setLat (fun l => { l with fetch := some { gen := gen, stage := 0 } })).latAsk (s.n 0x2801 4) 10
      (beOf 1 4 ++ zeros 12 ++ r.1)
  else s.askBlock { gen := gen, stage := 2 }

/-- QUARANTINE_ENTRY (R385, R386): during a start, step 10 enters state 5 in place of 1. -/
def State.quarantine (s : State) (cause : Nat) : State :=
  let keeper := match s.lat.head with | some h => h.1 | none => 0
  let s := ((s.wr 0x2800 0xF cause).latEnter 4).latEvent 5
  let s := s.record 0x0703 (body [(cause, 1), (0, 3), (s.n 0x2800 0xD, 4), (keeper, 4)])
  let s := if s.pw.starting then s else (s.enter 5).hold 1
  if cause = 5 then s else s.fetchSet keeper

/-- JOIN_COMPARISON. -/
def State.joinCompare (s : State) (h : Nat × Nat × Nat) : State :=
  let s := s.setLat (fun l => { l with awaitHead := false })
  match s.joinCause h with
  | some c => s.quarantine c
  | none => if s.latState = 4 then s else s.confirmConfig h.1

/-- What a ROUTE head says of the keeper's set: compared at the join, fetched when newer (R384, R385). -/
def State.headTaken (s : State) (h : Nat × Nat × Nat) : State :=
  let s := s.setLat (fun l => { l with head := some h })
  if s.lat.awaitHead then s.joinCompare h
  else if s.latState = 4 then (if s.lat.fetch.any (fun f => f.gen ≠ h.1) || s.lat.fetch.isNone then s.fetchSet h.1 else s)
  else if s.dev = 1 && h.2.1 ≠ 0 && newer h.1 (s.n 0x2800 0xD) && s.lat.fetch.all (fun f => f.gen ≠ h.1) then s.fetchSet h.1
  else s

/-- ROUTE_PART_RECEIVED (R381). -/
def State.routePartTaken (s : State) (x : LatFrame) : State :=
  let d := x.payload
  let gen := beNat d 0 4
  let part := beNat d 4 1
  if x.source ≠ s.n 0x2801 4 || d.length ≠ 1064 || 4 ≤ part || newer s.lat.partGen gen then s
  else
    let entries := (List.range 256).map (fun k => beNat d (40 + 4 * k) 4)
    let s := s.setLat (fun l => { l with
      parts := tblSet (fun _ => []) part entries (if gen = l.partGen then l.parts else []), partGen := gen })
    let s := s.headTaken (beNat d 8 4, beNat d 12 4, beNat d 16 8)
    if s.lat.parts.length = 4 then
      let all := (List.range 4).flatMap (fun k => tblGet (fun _ => []) k s.lat.parts)
      let table := (all.zip (List.range 1024)).foldl (fun t q => tblSet (fun _ => 0) q.2 q.1 t) []
      (((s.setLat (fun l => { l with routes := table })).wr 0x2801 8 gen).wr 0x2801 9 (beNat d 6 2)).latEvent 4
    else s

def execRoutePartReceived (s : State) : Res :=
  .next (match s.latGot 2 false with
    | some (x, t) => (t.routePartTaken x).latRefresh
    | none => s)

/-- ROUTE_HEAD_TIMEOUT (R385): no ROUTE head within 2 s of the join. -/
def execRouteHeadTimeout (s : State) : Res :=
  .next (if s.lat.awaitHead && (s.latState = 2 || s.latState = 4) then
    ((s.setLat (fun l => { l with awaitHead := false })).quarantine 5).latRefresh
  else s)

/-- Accepted writes of Lattice objects that act on the agent. -/
def State.effLattice (s : State) (i j v : Nat) : Option State :=
  if i = 0x2800 ∧ j = 1 then some (s.latEnable v)
  else if i = 0x2801 ∧ j = 0xB then some (s.latForget v)
  else none

end Sys2Proof.Machine
end

