-- ==== Sys2Proof/Machine/Chord.lean ====
section
/-! DEFINITION. Chord directions and splice units: tables and their checks, what a table does to a frame, captures, the
chord stomp, stale tables (spec/06, R169–R188). -/

namespace Sys2Proof.Machine

/-! ### Entries (R175, R176) -/

def entOp (e : List Word) : Nat := fieldOf (entW e 0) 0 3
def entPool (e : List Word) : Bool := bitOf (entW e 0) 3
def entMatch (e : List Word) : Bool := bitOf (entW e 0) 4
def entLen (e : List Word) : Nat := fieldOf (entW e 0) 16 8 + 1
def entAt (e : List Word) : Nat := fieldOf (entW e 1) 0 12
def entMatchAt (e : List Word) : Nat := fieldOf (entW e 1) 16 12
def entMatchLen (e : List Word) : Nat := fieldOf (entW e 1) 28 4 + 1
def entOperand (e : List Word) : Nat := entW e 4 + entW e 5 * 2 ^ 32

/-- An operation that changes nibbles: REPLACE, OR or ADD. -/
def entChanges (e : List Word) : Bool := entOp e = 1 || entOp e = 2 || entOp e = 3

/-- The rules of R175: unnamed bits are 0, the operation is known, POOL, lengths and the match window fit. -/
def entFieldOk (e : List Word) : Bool :=
  let op := entOp e
  entW e 0 &&& 0x00FF_001F = entW e 0 && entW e 1 &&& 0xFFFF_0FFF = entW e 1 && entW e 6 = 0 && entW e 7 = 0 &&
  op ≤ 4 && (!entPool e || op = 0 || op = 1 || op = 2) &&
  (!(op = 1 || op = 2) || entPool e || entLen e ≤ 16) && (op ≠ 3 || entLen e ≤ 16) && entMatchLen e ≤ 8 &&
  (!((op = 1 || op = 2) && entPool e) || entOperand e < 2 ^ 11) && (op ≠ 4 || entOperand e < 2 ^ 12)

/-- The match window of a changing entry ends two nibbles before its field (R177). -/
def entOrderOk (e : List Word) : Bool :=
  !(entChanges e && entMatch e) || entMatchAt e + entMatchLen e + 2 ≤ entAt e

/-- Pool operand and capture stay within their regions (R175, R180). -/
def entRangeOk (e : List Word) : Bool :=
  (!(entChanges e && entPool e) || entOperand e + (entLen e + 1) / 2 ≤ 2048) &&
  (entOp e ≠ 4 || entOperand e + (entLen e + 1) / 2 ≤ 4080)

/-- Two changing entries share no nibble (R177). -/
def entDisjoint (a b : List Word) : Bool :=
  !(entChanges a && entChanges b) || entAt a + entLen a ≤ entAt b || entAt b + entLen b ≤ entAt a

/-- REJECT_ENTRY of a table whose first faulty entry this is, or none for a table without fault. -/
def tableFault : Nat → List (List Word) → List (List Word) → Option Nat
  | _, _, [] => none
  | k, before, e :: t =>
    if !entFieldOk e then some k
    else if !before.all (fun b => entDisjoint b e) then some (k + 64)
    else if !entOrderOk e then some (k + 128)
    else if !entRangeOk e then some (k + 192)
    else tableFault (k + 1) (before ++ [e]) t

/-! ### What a table does to a frame (R176–R178) -/

/-- The number that nibbles spell, first nibble lowest (R158). -/
def nibNat : List Nib → Nat
  | [] => 0
  | n :: t => n.toNat + 16 * nibNat t

/-- The entry's match window matches the frame; a window that the frame does not hold does not match. -/
def entHits (e : List Word) (f : List Nib) : Bool :=
  !entMatch e ||
  (entMatchAt e + entMatchLen e ≤ f.length &&
    (nibNat ((f.drop (entMatchAt e)).take (entMatchLen e)) ^^^ entW e 2) &&& entW e 3 &&& (2 ^ (4 * entMatchLen e) - 1) = 0)

/-- Operand nibble `i`: inline, or from the pool, low nibble first. -/
def entNib (e : List Word) (pool : List Byte) (i : Nat) : Nib :=
  if entPool e then
    let b := (pool.getD (entOperand e + i / 2) 0).toNat
    BitVec.ofNat 4 (if i % 2 = 0 then b else b / 16)
  else BitVec.ofNat 4 (entOperand e / 16 ^ i)

/-- Put nibbles into a frame at `k`, as far as it reaches. -/
def putNibs (f : List Nib) (k : Nat) (l : List Nib) : List Nib :=
  f.take k ++ l.take (f.length - k) ++ f.drop (k + l.length)

/-- `n` nibbles of a number, lowest first. -/
def nibsOfNat (v : Nat) : Nat → List Nib
  | 0 => []
  | n + 1 => BitVec.ofNat 4 v :: nibsOfNat (v / 16) n

/-- What one entry sends in its field, over the incoming nibbles `f`; and whether ADD carries out of its top nibble. -/
def entSend (e : List Word) (pool : List Byte) (f : List Nib) : List Nib × Bool :=
  let field := (f.drop (entAt e)).take (entLen e)
  let n := field.length
  if entOp e = 1 then ((List.range n).map (entNib e pool), false)
  else if entOp e = 2 then ((List.range n).map (fun i => field.getD i 0 ||| entNib e pool i), false)
  else if entOp e = 3 then
    let sum := nibNat field + entOperand e % 16 ^ entLen e
    (nibsOfNat sum n, n = entLen e && 16 ^ n ≤ sum)
  else (field, false)

/-- What a table makes of a frame: the outgoing nibbles, captures (data offset, bytes), carries out of ADD, and whether
an applied entry's field reaches beyond the frame's data (R182). -/
structure Spliced where
  out : List Nib
  caps : List (Nat × List Byte) := []
  carries : Nat := 0
  overrun : Bool := false
  deriving DecidableEq, Repr

/-- Apply the entries: `change` is false for a stale table that only captures (R184); `win` says whether an entry's
field may be changed (the slot windows of R186). -/
def spliceTable (pool : List Byte) (f : List Nib) (change : Bool) (win : List Word → Bool) :
    List (List Word) → Spliced → Spliced
  | [], r => r
  | e :: t, r =>
    if entOp e = 0 || !entHits e f then spliceTable pool f change win t r
    else if entOp e = 4 then
      spliceTable pool f change win t { r with
        caps := r.caps ++ [(entOperand e, bytesOf ((f.drop (entAt e)).take (entLen e) ++
          (if entLen e % 2 = 1 then [0] else [])))]
        overrun := r.overrun || decide (f.length < entAt e + entLen e) }
    else if change && win e then
      let q := entSend e pool f
      spliceTable pool f change win t { r with
        out := putNibs r.out (entAt e) q.1
        carries := r.carries + (if q.2 then 1 else 0)
        overrun := r.overrun || decide (f.length < entAt e + entLen e) }
    else spliceTable pool f change win t r

/-- The first field of a table. -/
def firstField (t : List (List Word)) : Nat :=
  (t.filter (fun e => entOp e ≠ 0)).foldl (fun a e => min a (entAt e)) 4096

/-! ### Staging and commit (R179) -/

/-- Where the direction's facet store areas lie. -/
def State.chordStore (s : State) (d off : Nat) : Nat := 0x0D00_0000 + fieldOf (s.n (0x2500 + d) 4) 0 3 * 0x4_0000 + off

/-- A load starts (R179): the inactive shadow no longer holds a checked table. -/
def State.spliceStart (s : State) (d v : Nat) : State :=
  (s.wr (0x2500 + d) 0xB 1).setChord d { s.chordOf d with loading := some v, ready := none }

/-- A commit: a load starts, or is held in place of any held one while a load runs. -/
def State.spliceCommit (s : State) (d v : Nat) : State :=
  let s := s.wr (0x2500 + d) 0xA v
  if (s.chordOf d).loading.isSome then s.setChord d { s.chordOf d with held := some v } else s.spliceStart d v

/-- SPLICE_COMMIT (R179). -/
def execSpliceCommit (q : Path) (d : Fin 16) (v : Half) (s : State) : Res :=
  .next (s.guard q (0x2500 + d.val) 0xA v.toNat (fun s => s.spliceCommit d v.toNat))

/-- Copy entries `k` to `k + n − 1` at `a`: the entries, and the first that met a double-bit error. -/
def State.spliceCopy (s : State) (a pool k : Nat) : Nat → List (List Word) × Option Nat × State
  | 0 => ([], none, s)
  | n + 1 =>
    let r := s.fetchBytes 0 (a + 32 * k) 32
    let e : List Word := (List.range 8).map (fun j => BitVec.ofNat 32 (leNat ((r.1.drop (4 * j)).take 4)))
    let q := if entChanges e && entPool e then r.2.2.fetchBytes 0 (pool + entOperand e % 2048) ((entLen e + 1) / 2)
      else ([], false, r.2.2)
    if r.2.1 || q.2.1 then ([e], some k, q.2.2)
    else
      let t := q.2.2.spliceCopy a pool (k + 1) n
      (e :: t.1, t.2.1, t.2.2)

/-- The running load ends: the table waits for the next SFD, or is rejected; a held commit then starts. -/
def State.spliceLoaded (s : State) (d : Nat) : State :=
  match (s.chordOf d).loading with
  | none => s
  | some v =>
    let a := s.chordStore d (s.n (0x2500 + d) 5 + fieldOf v 8 1 * 0x1000)
    let r := s.spliceCopy a (a + 0x800) 0 (fieldOf v 0 7)
    let s := r.2.2
    let pool := if r.1.any entPool then s.bytes (a + 0x800) 2048 else []
    let s := match (match r.2.1 with | some k => some k | none => tableFault 0 [] r.1) with
      | some k =>
        (((s.wr (0x2500 + d) 0xB 3).wr (0x2500 + d) 0xC k).event 0x2510 1 0x1_0000).setChord d
          { s.chordOf d with loading := none }
      | none => s.setChord d { s.chordOf d with loading := none, ready := some (r.1, pool) }
    match (s.chordOf d).held with
    | some h => (s.setChord d { s.chordOf d with held := none }).spliceStart d h
    | none => s

/-- SPLICE_LOAD_DONE (R179). -/
def execSpliceLoadDone (d : Fin 16) (s : State) : Res := .next (s.spliceLoaded d)

/-- The checked table becomes active at an SFD (R179). -/
def State.spliceActivate (s : State) (d : Nat) : State :=
  match (s.chordOf d).ready with
  | none => s
  | some (t, pool) =>
    (((s.setChord d { s.chordOf d with table := t, pool := pool, ready := none, spliced := false }).wr (0x2500 + d) 0xB 2).cnt
      (0x2500 + d) 0xD).event 0x2510 1 0x8_0000

/-- SPLICE_TABLE_ACTIVATE (R179). -/
def execSpliceTableActivate (d : Fin 16) (s : State) : Res := .next (s.spliceActivate d)

/-- CHORD_CONFIG_APPLY (R185): ENABLE, EGRESS, GATE and SWITCH_COPY take effect at a frame boundary. -/
def execChordConfigApply (d : Fin 8) (s : State) : Res :=
  let i := 0x2500 + d.val
  let was := s.chordOf d
  let s := (s.setChord d { was with enable := s.n i 1 = 1, egress := s.n i 2, gate := s.n i 7, copy := s.n i 3 = 1 }).chordsFollow
  .next (if was.enable = (s.n i 1 = 1) ∧ was.egress = s.n i 2 then s
    else (s.preemptStart was.egress).preemptStart (s.n i 2))

/-! ### Frames on a chord (R171, R178, R181–R184) -/

/-- The active table is stale (R184). -/
def State.chordStale (s : State) (d : Nat) : Bool :=
  let o := s.n (0x2500 + d) 8
  (o < 32 && s.n (0x2400 + o) 1 ≠ 1) || (s.bit (0x2500 + d) 9 1 && (s.chordOf d).spliced)

/-- Count in an [H] counter of a direction. -/
def State.chordCnt (s : State) (d j : Nat) : State := s.cntH (0x2500 + d) j 0x2510 1

/-- A table works on a frame's data nibbles: what comes of it, with a stale table's policy and counters (R176, R184). -/
def State.spliceWork (s : State) (d : Nat) (f : List Nib) (win : List Word → Bool) : Spliced × State :=
  let c := s.chordOf d
  let stale := s.chordStale d
  let r := spliceTable c.pool f (!(stale && s.bit (0x2500 + d) 9 0)) win c.table { out := f }
  let s := if stale then (s.chordCnt d 0x13).event 0x2510 1 0x4_0000 else s
  let s := if r.carries = 0 then s else s.addW (0x2500 + d) 0x14 32 r.carries
  let s := if r.out = f then s else s.chordCnt d 0xF
  (r, if c.table.isEmpty then s else s.setChord d { s.chordOf d with spliced := true })

/-- The conditions of R178 under which direction `d` splices an express frame: the gate and no early RX_ER. -/
def State.spliceable (s : State) (d : Nat) (data : List Byte) (er : Option Nat) : Bool :=
  let g := (s.chordOf d).gate
  (!bitOf g 16 || be16 data 12 = fieldOf g 0 16) &&
  (match er with | some k => firstField (s.chordOf d).table ≤ k | none => true)

/-- The nibble of the FCS from which the outgoing FCS is complemented, 8 for none (R181, R182). -/
def stompFrom (expect got : List Nib) (dataNibs : Nat) (er : Option Nat) (overrun : Bool) : Nat :=
  let k := (List.range 8).find? (fun i => expect.getD i 0 ≠ got.getD i 0) |>.getD 8
  let e := match er with | some x => x - dataNibs | none => 8
  if overrun then 0 else min k e

/-- A frame with FCS, sent by a chord egress, goes into the port's counters and records (R207, R212). -/
def State.chordSent (s : State) (p : Nat) (wire : List Byte) (stomp : Bool) (t : Nat) : State :=
  let d := wire.take (wire.length - 4)
  let c : TxCur := { src := .chord, tsNs := t / 4 % 2 ^ 64, tsFrac := t % 4 }
  let s := (s.countTx p d stomp c).emit (.frame p wire stomp)
  if s.wantsTs p c d then s.setPort p { s.port p with tsPending := (s.port p).tsPending ++ [s.tsRecord p c d] } else s

/-- A frame passes direction `d` (R171, R178, R181–R184). `lost` is 1 when the ingress link was lost in the frame,
2 when the egress link was. Stamps: the first nibble came `ago` ticks and `phase` before now and left `delay` ps later. -/
def State.chordFrame (s : State) (d : Nat) (data : List Byte) (er : Option Nat) (express : Bool) (ago phase delay lost : Nat) :
    State :=
  let s := s.spliceActivate d
  let c := s.chordOf d
  let p := c.egress
  if !c.enable then s
  else if s.chordNow d ≠ 2 || lost = 2 then s.chordCnt d 0x11
  else
    let tIn := s.stampAt (s.rxCfg d 0x14) ago phase (-sint (s.rxCfg d 0x15))
    let tOut := s.stampAt (s.txCfg p 0x14) ago phase (delay + sint (s.txCfg p 0x16))
    let s := s.chordCnt d 0xE
    if lost = 1 then ((s.chordCnt d 0x10).event 0x2510 1 (2 ^ d)).chordSent p data true tOut
    else if !express then
      let bad := er.isSome
      (if bad then (s.chordCnt d 0x10).event 0x2510 1 (2 ^ d) else s).chordSent p data bad tOut
    else
      let f := nibsOf (data.take (data.length - 4))
      let got := nibsOf (data.drop (data.length - 4))
      let r := if s.spliceable d data er then s.spliceWork d f (fun _ => true) else ({ out := f }, s)
      let s := r.2
      let k := stompFrom (nibsOf (leBytes (crc32 (bytesOf f)).toNat 4)) got f.length er r.1.overrun
      let fcs := nibsOf (leBytes (crc32 (bytesOf r.1.out)).toNat 4)
      let wire := bytesOf (r.1.out ++ fcs.take k ++ (fcs.drop k).map (fun n => ~~~ n))
      let s := if k < 8 then (s.chordCnt d 0x10).event 0x2510 1 (2 ^ d) else s
      let s := s.chordSent p wire (k < 8) tOut
      if r.1.caps.isEmpty || !fcsGood data || er.isSome then s
      else s.setChord d { s.chordOf d with capture := some (data.length, tIn / 4 % 2 ^ 32, r.1.caps) }

/-- CHORD_FRAME (R176): a frame on a field-port direction. -/
def execChordFrame (d : Fin 8) (data : List Byte) (er : Option Nat) (express : Bool) (ago : Nat) (phase : Fin 8)
    (delay : Nat) (lost : Fin 3) (s : State) : Res :=
  .next (s.chordFrame d data er express ago phase delay lost)

/-- Write bytes one by one as a unit without a master ID (R20). -/
def State.unitBytes (s : State) (a : Nat) : List Byte → State
  | [] => s
  | b :: t => (s.memWrite { id := 0, secure := true } a [b]).unitBytes (a + 1) t

/-- The capture area is written (R180): SEQUENCE invalid first, then data, STATUS and INGRESS_TIME, then the SEQUENCE
that follows the one the area held (log entry 31). -/
def State.captureWrite (s : State) (d : Nat) : State :=
  match (s.chordOf d).capture with
  | none => s
  | some (len, time, caps) =>
    let a := s.chordStore d (s.n (0x2500 + d) 6)
    let old := s.w32 a
    let s := (s.setChord d { s.chordOf d with capture := none }).unitBytes a (leBytes 0xFFFF_FFFF 4)
    let s := caps.foldl (fun s (o, l) => s.unitBytes (a + 0x10 + o) l) s
    let s := (s.unitBytes (a + 4) (leBytes (len % 2 ^ 16) 4)).unitBytes (a + 8) (leBytes time 4 ++ zeros 4)
    s.unitBytes a (leBytes (if 0xFFFF_FFFE ≤ old then 0 else old + 1) 4)

/-- CHORD_CAPTURE_WRITE (R180). -/
def execChordCaptureWrite (d : Fin 16) (s : State) : Res := .next (s.captureWrite d)

end Sys2Proof.Machine
end

