-- ==== Sys2Proof/Machine/TimeUnits.lean ====
section
/-! DEFINITION. Rate, adjustment and steps of a time domain, its synchronisation state, triggers, captures and PPS outputs
(R259–R271, R282–R285). -/

namespace Sys2Proof.Machine

/-! ### Rate, adjustment, step (R260–R263) -/

/-- INCREMENT_WRITE (R260). -/
def execIncrementWrite (q : Path) (d : Fin 4) (v : DWord) (s : State) : Res :=
  .next (s.guard q (0x2100 + d.val) 6 v.toNat (fun s => s.wr (0x2100 + d) 6 v.toNat))

/-- A write of ADJUST_TICKS restarts or ends an adjustment (R261). -/
def State.adjustStart (s : State) (d v : Nat) : State :=
  (s.wr (0x2100 + d) 0xA v).setTdom d { s.tdom d with adjusting := v ≠ 0 }

/-- ADJUST_START (R261). -/
def execAdjustStart (q : Path) (d : Fin 4) (v : Word) (s : State) : Res :=
  .next (s.guard q (0x2100 + d.val) 0xA v.toNat (fun s => s.adjustStart d v.toNat))

/-- ADJUST_END (R261): the ticks have run out. -/
def execAdjustEnd (d : Fin 4) (dt : Nat) (s : State) : Res :=
  let s := s.advance dt
  .next (if (s.tdom d).adjusting && s.n (0x2100 + d) 0xA = 0 then
    (s.setTdom d { s.tdom d with adjusting := false }).event (0x2100 + d) 0x10 0x40_0000
  else s)

/-- A write of STEP_COMMAND: it replaces what is armed; 0 disarms (R262). -/
def State.stepCommand (s : State) (d v : Nat) : State :=
  (s.wr (0x2100 + d) 0xE (if v = 0 then 0 else 1)).setTdom d { s.tdom d with stepMode := v }

/-- STEP_DISARM, STEP_NOW, STEP_ARM_AT (R262). -/
def execStepDisarm (q : Path) (d : Fin 4) (s : State) : Res :=
  .next (s.guard q (0x2100 + d.val) 0xE 0 (fun s => s.stepCommand d 0))
def execStepNow (q : Path) (d : Fin 4) (s : State) : Res :=
  .next (s.guard q (0x2100 + d.val) 0xE 1 (fun s => s.stepCommand d 1))
def execStepArmAt (q : Path) (d : Fin 4) (s : State) : Res :=
  .next (s.guard q (0x2100 + d.val) 0xE 2 (fun s => s.stepCommand d 2))

/-- Add STEP_OFFSET to the nanoseconds; the fraction is kept (R262, R263). -/
def State.stepAdd (s : State) (d : Nat) : State :=
  let i := 0x2100 + d
  let off := (s.rd i 0xC).toInt
  let s := s.setDomVal d (((s.domVal d : Int) + off * 2 ^ 32) % 2 ^ 96).toNat
  ((((s.wr i 0xE 0).setTdom d { s.tdom d with stepMode := 0 }).cnt i 0xF)).event i 0x10 0x20_0000

/-- STEP_APPLY (R262): the first tick after the command, or the tick at which STEP_AT is due. -/
def execStepApply (d : Fin 4) (dt : Nat) (s : State) : Res :=
  let s := s.advance dt
  let m := (s.tdom d).stepMode
  .next (if m = 1 || (m = 2 && isDue (s.now32 d) (s.n (0x2100 + d) 0xB)) then s.stepAdd d else s)

/-! ### PPS outputs (R270) -/

def State.ppsOf (s : State) (i : Nat) : Pps := tblGet (fun _ => {}) i s.pps
def State.setPps (s : State) (i : Nat) (x : Pps) : State := { s with pps := tblSet (fun _ => {}) i x s.pps }

/-- Fields of CONTROL. -/
def State.ppsDom (s : State) (i : Nat) : Nat := fieldOf (s.n (0x2158 + i) 1) 0 2
def State.ppsOn (s : State) (i : Nat) : Bool := s.bit (0x2158 + i) 1 2
def State.ppsInvert (s : State) (i : Nat) : Bool := s.bit (0x2158 + i) 1 3
/-- The output may leave its inactive level. -/
def State.ppsRuns (s : State) (i : Nat) : Bool :=
  s.ppsOn i && (!s.bit (0x2158 + i) 1 4 || s.n (0x2100 + s.ppsDom i) 5 = 1)

/-- The output returns to its inactive level. -/
def State.ppsRest (s : State) (i : Nat) : State :=
  if (s.ppsOf i).on then (s.setPps i { s.ppsOf i with on := false }).emit (.edge 1 i (s.ppsInvert i)) else s

/-- The first START + k × PERIOD not yet reached at `now`, and the multiples before it. -/
def ppsNext (start period now : Nat) : Nat × Nat :=
  if now < start ∨ period = 0 then (start, 0)
  else
    let k := (now - start) / period + 1
    (start + k * period, k)

/-- Arm an output; only enabling counts the multiples passed. -/
def State.ppsArm (s : State) (i : Nat) (count : Bool) : State :=
  let o := 0x2158 + i
  let r := ppsNext (s.n o 2) (s.n o 4) (s.now64 (s.ppsDom i))
  let s := s.setPps i { s.ppsOf i with next := r.1 }
  if count then s.addW o 7 32 r.2 else s

/-- An accepted write of a PPS object (R270). -/
def State.ppsWrite (s : State) (i j v : Nat) : State :=
  let o := 0x2158 + i
  if j = 1 then
    let was := s.n o 1
    let s := s.wr o 1 v
    if !bitOf v 2 then s.ppsRest i
    else if !bitOf was 2 then s.ppsArm i true
    else
      let s := if fieldOf was 0 2 ≠ fieldOf v 0 2 then s.ppsArm i false else s
      if !s.ppsRuns i then s.ppsRest i
      else if bitOf was 3 ≠ bitOf v 3 && (s.ppsOf i).on then s.emit (.edge 1 i (!s.ppsInvert i)) else s
  else
    let s := s.wr o j v
    if (j = 2 ∨ j = 4) ∧ s.ppsOn i then s.ppsArm i false else s

/-- PPS_EDGE (R270). While REQUIRE_SYNC holds the output, the multiples pass without a pulse. -/
def execPpsEdge (i' : Fin 4) (dt : Nat) (s : State) : Res :=
  let s := s.advance dt
  let i := i'.val
  let o := 0x2158 + i
  let x := s.ppsOf i
  let now := s.now64 (s.ppsDom i)
  .next (if s.ppsOn i && x.next ≤ now then
    let r := ppsNext x.next (s.n o 4) now
    if s.ppsRuns i then
      let s := s.setPps i { next := r.1, on := true, endAt := now + s.n o 5 }
      ((s.cnt o 6).addW o 7 32 (r.2 - 1)).emit (.edge 1 i (!s.ppsInvert i))
    else s.setPps i { x with next := r.1 }
  else s)

/-- PPS_PULSE_END (R270). -/
def execPpsPulseEnd (i' : Fin 4) (dt : Nat) (s : State) : Res :=
  let s := s.advance dt
  let i := i'.val
  .next (if (s.ppsOf i).on && (s.ppsOf i).endAt ≤ s.now64 (s.ppsDom i) then s.ppsRest i else s)

/-! ### Synchronisation state (R266) -/

/-- A domain becomes UNSYNCED: the event, and PPS outputs that require sync stop. -/
def State.unsync (s : State) (d : Nat) : State :=
  let s := (s.wr (0x2100 + d) 5 0).event (0x2100 + d) 0x10 0x10_0000
  (List.range 4).foldl (fun s i => if s.ppsDom i = d && !s.ppsRuns i then s.ppsRest i else s) s

/-- A write of SYNC. -/
def State.syncWrite (s : State) (d v : Nat) : State := if v = 0 then s.unsync d else s.wr (0x2100 + d) 5 1

/-- SYNC_WRITE (R266). -/
def execSyncWrite (q : Path) (d : Fin 4) (v : Word) (s : State) : Res :=
  .next (s.guard q (0x2100 + d.val) 5 v.toNat (fun s => s.syncWrite d v.toNat))

/-! ### Triggers (R268, R283) -/

/-- A write of a trigger's object: enabling arms it, TARGET and PERIOD re-arm it while enabled. -/
def State.trigWrite (s : State) (i j v : Nat) : State :=
  let s := s.wr i j v
  if s.n i 1 = 1 then s.wr i 6 (s.n i 2) else s

/-- The trigger fires when its target is due: none where it does not. -/
def State.trigFire (s : State) (d t : Nat) : Option State :=
  let i := trigIdx d t
  if s.n i 1 = 1 && isDue (s.now32 d) (s.n i 6) then
    let s := (s.cnt i 4).event (0x2100 + d) 0x10 (2 ^ t)
    some (if s.n i 3 = 0 then s.wr i 1 0
      else
        let r := nextTarget (s.now32 d) (s.n i 6) (s.n i 3)
        (s.wr i 6 r.1).addW i 5 32 r.2)
  else none

/-! ### Captures (R269, R284) -/

def State.capFifo (s : State) (i : Nat) : List CapEntry := tblGet (fun _ => []) i s.caps

/-- Show the head of a capture FIFO; with none its time is a free value (log entry 36). -/
def State.capShow (s : State) (i : Nat) (l : List CapEntry) : State :=
  let s := { s with caps := tblSet (fun _ => []) i l s.caps }
  match l with
  | [] => ((s.wr (0x2150 + i) 2 (s.free 64).toNat).wr (0x2150 + i) 4 0).tick
  | e :: _ => (s.wr (0x2150 + i) 2 e.time).wr (0x2150 + i) 4 (e.frac + (if e.falling then 4 else 0) + l.length * 8)

/-- The edge is one that CONTROL selects. -/
def State.capSelects (s : State) (i : Nat) (falling : Bool) : Bool :=
  let e := fieldOf (s.n (0x2150 + i) 1) 2 2
  e = 2 || (e = 0 && !falling) || (e = 1 && falling)

/-- CAPTURE_EDGE (R269): the filtered level changes; an enabled input stamps the edge, which was `ago` ticks and `phase`
before now. -/
def execCaptureEdge (i' : Fin 4) (falling : Bool) (ago : Nat) (phase : Fin 8) (s : State) : Res :=
  let i := i'.val
  let o := 0x2150 + i
  let s := s.wr o 8 (if falling then 0 else 1)
  let d := fieldOf (s.n o 1) 0 2
  .next (if s.bit o 1 4 && s.capSelects i falling then
    let l := s.capFifo i
    if l.length < 4 then
      let t := s.stampAt d ago phase 0
      (((s.capShow i (l ++ [{ time := t / 4 % 2 ^ 64, frac := t % 4, falling := falling }])).cnt o 6)).event (0x2100 + d) 0x10
        (2 ^ (16 + i))
    else (s.cnt o 7).event (0x2100 + d) 0x10 0x80_0000
  else s)

/-- A write of 1 to POP removes the head. -/
def State.capPop (s : State) (i v : Nat) : State :=
  match s.capFifo i with
  | [] => s
  | _ :: t => if v = 1 then s.capShow i t else s

/-- CAPTURE_POP (R269). -/
def execCapturePop (q : Path) (i' : Fin 4) (v : Word) (s : State) : Res :=
  .next (s.guard q (0x2150 + i'.val) 5 v.toNat (fun s => s.capPop i' v.toNat))

/-- Accepted writes of time domain, trigger, capture and PPS objects. -/
def State.effTime (s : State) (i j v : Nat) : Option State :=
  if 0x2100 ≤ i ∧ i ≤ 0x2103 then
    if j = 5 then some (s.syncWrite (i - 0x2100) v)
    else if j = 0xA then some (s.adjustStart (i - 0x2100) v)
    else if j = 0xE then some (s.stepCommand (i - 0x2100) v)
    else none
  else if 0x2110 ≤ i ∧ i ≤ 0x214F then some (s.trigWrite i j v)
  else if 0x2150 ≤ i ∧ i ≤ 0x2153 ∧ j = 5 then some (s.capPop (i - 0x2150) v)
  else if 0x2158 ≤ i ∧ i ≤ 0x215B then some (s.ppsWrite (i - 0x2158) j v)
  else none

end Sys2Proof.Machine
end

