-- ==== Sys2Proof/Machine/Launch.lean ====
section
/-! DEFINITION. Scheduled launch (R272–R280, R286, R287). -/

namespace Sys2Proof.Machine

/-- Fields of a launch entry. -/
def launchIdx (k : Nat) : Nat := 0x2180 + k
def State.launchPort (s : State) (k : Nat) : Nat := fieldOf (s.n (launchIdx k) 1) 8 4
def State.launchCls (s : State) (k : Nat) : Nat := fieldOf (s.n (launchIdx k) 1) 12 3
def State.launchDom (s : State) (k : Nat) : Nat := s.txCfg (s.launchPort k) 0x14

/-- Arm an entry: a write of CONTROL with ENABLE = 1 (R279, R287). -/
def State.launchArm (s : State) (k v : Nat) : State :=
  let i := launchIdx k
  ((((s.wr i 1 v).wr i 7 1).wr i 8 0).wr i 9 (s.n i 4)).setLaunch k {}

/-- LAUNCH_ENABLE (R287). -/
def execLaunchEnable (q : Path) (k : Fin 64) (v : Half) (s : State) : Res :=
  .next (if bitOf v.toNat 0 then s.guard q (launchIdx k) 1 v.toNat (fun s => s.launchArm k v.toNat) else s)

/-- Launch controls of a port: count an [H] counter, set an event (R286). -/
def State.launchCnt (s : State) (p j : Nat) : State := s.cntH (0x2160 + p) j (0x2160 + p) 0x10
def State.launchEvent (s : State) (p b : Nat) : State := s.event (0x2160 + p) 0x10 (2 ^ b)

/-- A launch of entry `k` has ended with a result: a periodic entry moves its target, a one-shot entry or an aborted one
is disabled (R276, R279). -/
def State.launchEnd (s : State) (k : Nat) : State :=
  let i := launchIdx k
  let s := (s.cnt i 0xA).setLaunch k {}
  if s.n i 5 = 0 || !s.bit i 1 0 then (s.clrBits i 1 1).wr i 7 0
  else
    let r := nextTarget (s.now32 (s.launchDom k)) (s.n i 9) (s.n i 5)
    ((s.wr i 9 r.1).wr i 7 1).addH (0x2160 + s.launchPort k) 0xB 32 r.2 (0x2160 + s.launchPort k) 0x10

/-- Discard the pending launch with a result. -/
def State.launchResult (s : State) (k r : Nat) : State := (s.wr (launchIdx k) 0xB r).launchEnd k

/-- ABORT (R279): before the commit point nothing goes on the wire; after it the frame completes and no later period is
launched. -/
def State.launchAbort (s : State) (k : Nat) : State :=
  let i := launchIdx k
  if !s.bit i 1 0 then s
  else if (s.launchOf k).begun then (s.wr i 8 2).clrBits i 1 1
  else (((s.wr i 8 1).clrBits i 1 1)).launchResult k 7

/-- A write of CONTROL with ENABLE = 0 acts as ABORT. -/
def State.launchOff (s : State) (k v : Nat) : State := (s.launchAbort k).wr (launchIdx k) 1 v

/-- LAUNCH_DISABLE (R279). -/
def execLaunchDisable (q : Path) (k : Fin 64) (v : Half) (s : State) : Res :=
  .next (if bitOf v.toNat 0 then s else s.guard q (launchIdx k) 1 v.toNat (fun s => s.launchOff k v.toNat))

/-- LAUNCH_ABORT (R279). -/
def execLaunchAbort (q : Path) (k : Fin 64) (v : Byte) (s : State) : Res :=
  .next (s.guard q (launchIdx k) 8 v.toNat (fun s => s.launchAbort k))

/-- Launch buffers of port `p` in use (R273). -/
def State.launchBuffers (s : State) (p : Nat) : Nat :=
  ((List.range 64).filter (fun k => s.launchPort k = p &&
    ((s.launchOf k).fetching || (s.launchOf k).data.isSome || (s.launchOf k).begun))).length

/-- LAUNCH_FETCH_START (R273): at target − LEAD, with a launch buffer free. -/
def execLaunchFetchStart (k : Fin 64) (dt : Nat) (s : State) : Res :=
  let s := s.advance dt
  let i := launchIdx k
  .next (if s.n i 7 = 1 && !(s.launchOf k).fetching && s.launchBuffers (s.launchPort k) < 2 &&
      isDue (s.now32 (s.launchDom k)) ((s.n i 9 + 2 ^ 32 - s.n i 6) % 2 ^ 32) then
    s.setLaunch k { s.launchOf k with fetching := true }
  else s)

/-- LAUNCH_FETCH_DONE (R273): the entry is STAGED, or a double-bit error discards it. -/
def execLaunchFetchDone (k : Fin 64) (dt : Nat) (s : State) : Res :=
  let s := s.advance dt
  let i := launchIdx k
  let p := s.launchPort k
  .next (if (s.launchOf k).fetching then
    let r := s.dmaRead 0 (s.n i 2) (s.n i 3)
    if r.2.1 then ((r.2.2.launchCnt p 0xD).launchEvent p 3).launchResult k 6
    else (r.2.2.setLaunch k { fetching := false, data := some r.1 }).wr i 7 2
  else s)

/-- The worst launch error of R278 on port `p`, in quarter nanoseconds: a launch beyond it is late. -/
def State.launchSlack (s : State) (p : Nat) : Int :=
  let f := s.linkCfg p 2
  if f = 1 then (if s.speedOf p = 1 then 1600 else 160) else if f = 2 then 80 else if f = 7 then 12 else 8

/-- Egress timestamp minus target if the preamble begins now, in quarter nanoseconds. -/
def State.launchLate (s : State) (k phase : Nat) : Int :=
  let d : Nat := (s.egressStamp (s.launchPort k) phase % 2 ^ 34 + 2 ^ 34 - s.n (launchIdx k) 9 * 4) % 2 ^ 34
  if d < 2 ^ 33 then (d : Int) else (d : Int) - 2 ^ 34

/-- No other staged entry of the port goes before entry `k` (R280). -/
def State.launchFirst (s : State) (k : Nat) : Bool :=
  (List.range 64).all (fun j => j = k || s.launchPort j ≠ s.launchPort k || (s.launchOf j).data.isNone ||
    let l := lateness (s.n (launchIdx j) 9) (s.n (launchIdx k) 9)
    0 < l || (l = 0 && k < j))

/-- LAUNCH_BEGIN (R275–R277): the tick at which a staged launch begins, on time or as soon as its port is free. -/
def State.launchBegin (s : State) (k phase : Nat) : State :=
  let p := s.launchPort k
  let c := s.launchCls k
  let l := s.launchLate k phase
  match (s.launchOf k).data with
  | none => s
  | some d =>
    if l < -8 || !s.launchFirst k then s
    else if s.domHeld (s.launchDom k) || !s.linkUp p || (s.chordEgress p).isSome then
      ((s.launchCnt p 0xC).launchEvent p 2).launchResult k 5
    else if (s.port p).cur.isSome then s
    else
      let late := s.launchSlack p < l
      let limit := s.n (0x2160 + p) (1 + c)
      let beyond := (fieldOf limit 0 20 : Int) * 4 < l
      if late && beyond && !bitOf limit 20 then ((s.launchCnt p 0xB).launchEvent p 1).launchResult k 4
      else
        let s := (s.launchCnt p 9).wr (launchIdx k) 0xB (if !late then 1 else if beyond then 3 else 2)
        let s := if late then (s.launchCnt p 0xA).launchEvent p 0 else s
        let s := s.setLaunch k { begun := true }
        (s.touchCredit p).beginTx p phase
          { src := .launch k, cls := c, data := d, done := true, tsReq := s.bit (launchIdx k) 1 1 }

/-- LAUNCH_BEGIN (R275). -/
def execLaunchBegin (k : Fin 64) (phase : Fin 8) (dt : Nat) (s : State) : Res := .next ((s.advance dt).launchBegin k phase)

/-- LAUNCH_END (R276): the frame has left the port, or was lost with its link. -/
def execLaunchEnd (k : Fin 64) (dt : Nat) (s : State) : Res :=
  let s := s.advance dt
  let onWire := (List.range 12).any (fun p => match (s.port p).cur with | some c => c.src = .launch k | none => false)
  .next (if (s.launchOf k).begun && !onWire then s.launchEnd k else s)

/-- Accepted writes of a launch entry: CONTROL and ABORT. -/
def State.effLaunch (s : State) (i j v : Nat) : Option State :=
  if 0x2180 ≤ i ∧ i ≤ 0x21BF then
    if j = 1 then some (if bitOf v 0 then s.launchArm (i - 0x2180) v else s.launchOff (i - 0x2180) v)
    else if j = 8 then some (s.launchAbort (i - 0x2180))
    else none
  else none

end Sys2Proof.Machine
end

