-- ==== Sys2Proof/Machine/PerOps.lean ====
section
/-! DEFINITION. Perimeter rings: frames, times, the guardian, state changes, what leaves a station (R288–R302, R307–R310,
R328–R330, R335, R338, R341). -/

namespace Sys2Proof.Machine

def State.perLock (s : State) (n : Nat) (east : Bool) : Bool := s.bit (0x2610 + n) 0xA (if east then 0 else 1)

/-- Set an event, count an [H] counter of the status objects or of the operation objects. -/
def State.perEvent (s : State) (n b : Nat) : State := s.event (0x2600 + n) 0xF (2 ^ b)
def State.perCnt (s : State) (n j : Nat) : State := s.cntH (0x2610 + n) j (0x2600 + n) 0xF
def State.perOpCnt (s : State) (n j : Nat) : State := s.cntH (0x2650 + n) j (0x2600 + n) 0xF

def State.perFwd (s : State) (n : Nat) : Nat := s.perC n 0xE
def State.perTurn (s : State) (n : Nat) : Nat := if s.perC n 5 = 0 then 160 else 640

/-- A domain's time and the rim's own time in quarter nanoseconds; the signed distance of two domain times. -/
def State.nowQ (s : State) (d phase : Nat) : Nat := s.stampAt d 0 phase 0
def State.rimQ (s : State) (ago phase : Nat) : Nat := (s.ticks * 8 + phase) - ago * 8
def distQ (a b : Nat) : Int := (BitVec.ofNat 66 a - BitVec.ofNat 66 b).toInt

/-! ### Frames (R296, R298) -/

/-- CRC of header and payload nibbles. -/
def perCrc (l : List Nib) : Nat := (crcFold 0 0xFFFFFFFF l ^^^ 0xFFFFFFFF).toNat

/-- Header and payload nibbles, and the data symbols of a frame with its CRC. -/
def perBody (slot source typ : Nat) (payload : List Nib) : List Nib :=
  nibsOfNat slot 4 ++ nibsOfNat source 2 ++ nibsOfNat typ 1 ++ nibsOfNat payload.length 3 ++ payload
def perFrame (slot source typ : Nat) (payload : List Nib) : List Nib :=
  perBody slot source typ payload ++ nibsOfNat (perCrc (perBody slot source typ payload)) 8

/-- Fields of received data symbols. -/
def perSlot (f : List Nib) : Nat := nibNat (f.take 4)
def perSource (f : List Nib) : Nat := nibNat ((f.drop 4).take 2)
def perType (f : List Nib) : Nat := nibNat ((f.drop 6).take 1)
def perLen (f : List Nib) : Nat := nibNat ((f.drop 7).take 3)

/-- Time of a frame with `l` payload nibbles, in symbols (R296). -/
def perSymbols (l : Nat) : Nat := 20 + l

/-- Little-endian field of a payload of bytes. -/
def pLe (p : List Byte) (i n : Nat) : Nat := leNat ((p.drop i).take n)

/-! ### What leaves (R300, R341) -/

/-- The link a station sends on in place of `east`: a HEALING station loops its cut link's traffic (R341). -/
def State.perOut (s : State) (n : Nat) (east : Bool) : Bool :=
  match (s.ring n).cut with
  | some c => if s.perState n = 5 && c = east then !east else east
  | none => east

/-- Send data symbols on a link. -/
def State.perSend (s : State) (n : Nat) (east : Bool) (f : List Nib) (abt : Bool) : State :=
  s.emit (.perimeter n (s.perOut n east) f abt)

/-- The link a station inserts on: West once it has adopted a reference on its East pair (R340). -/
def State.perInsertEast (s : State) (n : Nat) : Bool := !(s.ring n).adopted

/-! ### States (R328, R329) -/

/-- SYNC of the ring's domain follows its state when the ring owns the rate (R322). -/
def State.perSync (s : State) (n : Nat) : State :=
  let d := s.perDom n
  if s.n (0x2100 + d) 1 = n + 1 then
    let on := s.perState n = 3
    if on && s.n (0x2100 + d) 5 = 0 then s.syncWrite d 1
    else if !on && s.n (0x2100 + d) 5 = 1 then s.syncWrite d 0
    else s
  else s

/-- Enter a node state. -/
def State.perGo (s : State) (n st : Nat) : State :=
  if s.perState n = st then s
  else
    let s := (s.wr (0x2610 + n) 1 st).perEvent n 0
    let s := if st = 4 then (s.perEvent n 11).cnt (0x2650 + n) 0x11 else s
    let s := s.setRing n { s.ring n with good := 0, hold := 0, anyRef := false }
    s.perSync n

/-- What a station forgets when it stops following references: back to LISTEN, or OFF. -/
def State.perForget (s : State) (n : Nat) : State :=
  let r := s.ring n
  let s := s.setRing n { r with
    head := false, started := false, attempt := none, returns := 0, got := none, haveLast := false, refSeen := false,
    fetch := [], missed := 0, mute := 0, blocked := 0, cutting := none, announced := none, agreed := false, change := none,
    cancelFirst := false, wrapped := false, adopted := false, cut := none, silent := false, cutLockAt := none, remeasured := false,
    guardSpan := 0 }
  s.wr (0x2650 + n) 0xA 0xFFFFFFFF

def State.perListen (s : State) (n : Nat) : State := (s.perForget n).perGo n 1

/-- ENABLE = 0, reset or Doze entry. -/
def State.perOff (s : State) (n : Nat) : State :=
  let s := (s.perForget n).perGo n 0
  s.setRing n { s.ring n with haveP := false, haveS := false, echo := [], measP := none, measS := none, mgmtSent := false
                              conflict := false, staging := [] }

/-- A PASSIVE condition (R329): a SYNCED station goes to PASSIVE, a HEALING one keeps its loop and stays mute until
PASSIVE_HOLD references have been accepted. -/
def State.perPassive (s : State) (n : Nat) : State :=
  if s.perState n = 3 then s.perGo n 4
  else if s.perState n = 5 then s.setRing n { s.ring n with mute := s.n (0x2650 + n) 4 }
  else s

/-- R330: the domain is suppressed or the device is in QUARANTINE. -/
def State.perHeld (s : State) (n : Nat) : Bool := s.domHeld (s.perDom n) || s.dev = 5

/-! ### Slot table entries (R310) -/

/-! ### The guardian (R335) -/

def winStart (w : Word × Word) : Nat := w.1.toNat * 4
def winDur (w : Word × Word) : Nat := fieldOf w.2.toNat 0 16 * 4
def winMode (w : Word × Word) (m : Nat) : Bool := bitOf w.2.toNat (16 + m)
def winKind (w : Word × Word) : Nat := fieldOf w.2.toNat 24 2

/-- The guardian's counter at rim time `t`: it runs from REF_TX at the rate of the two latest references. -/
def State.guardNow (s : State) (n t : Nat) : Nat :=
  let r := s.ring n
  let d := t - r.guardAt
  if r.guardSpan = 0 then d else d * s.perCycle n / r.guardSpan

/-- When, by the guardian's counter, the open window of `kind` closes; none while every window is closed. -/
def State.guardOpen (s : State) (n kind g : Nat) : Option Nat :=
  let gd := s.perGuard n
  ((s.ring n).guard.find? (fun w =>
    winKind w = kind && winMode w (s.perMode n) && winStart w ≤ g + gd && g + gd < winStart w + winDur w)).map
    (fun w => winStart w + winDur w - gd)

/-- An own attempt was blocked or cut after `before` in a row (R329, R335). -/
def State.perBlocked (s : State) (n before : Nat) : State :=
  let s := s.setRing n { s.ring n with blocked := before + 1 }
  if 2 ≤ before + 1 then s.perPassive n else s

/-! ### Mode change (R344–R346) -/

/-- A mode takes effect (R346). -/
def State.perSwitch (s : State) (n m : Nat) : State :=
  let old := s.perMode n
  if old = m then s
  else
    let s := ((s.wr (0x2610 + n) 0xC m).cnt (0x2650 + n) 0x16).perEvent n 13
    let s := s.record 0x0605 (body [(n, 1), (m, 1), (old, 1), (0, 1), (s.perS n 0xB, 4)])
    let s := s.setRing n { s.ring n with fetch := [] }
    if s.perValid n m then s else s.perPassive n

/-- A member answers with DATA_ACK (R343, R344): it holds a valid table for the announced mode; for a restore, a HEALING
station's cut link has held lock for 10 ms with its delay unchanged, and every other station holds valid P and S. -/
def State.perAck (s : State) (n : Nat) : Bool :=
  let r := s.ring n
  match r.announced with
  | none => false
  | some (m, c) =>
    (s.perS n 0xB + 2 ≤ c) && s.perValid n m &&
    (m ≠ s.perMode n ||
      (if s.perState n = 5 then
        r.remeasured && (match r.cutLockAt with | some t => 5000000 ≤ s.ticks - t | none => false)
      else r.haveP && r.haveS))

/-- Members: the owners of OWN slots in the active mode's table, this station aside (R344). -/
def State.perMembers (s : State) (n : Nat) : List Nat :=
  (((s.perTable n (s.perMode n)).filter (fun e => slotKind e = 1)).map slotOwner).eraseDups.filter (· ≠ s.perSelf n)

end Sys2Proof.Machine
end

