-- ==== Sys2Proof/Machine/PerLinks.lean ====
section
/-! DEFINITION. Perimeter: enable, symbol lock, healing, reception and forwarding, link delays (R292–R303, R314, R315,
R329, R336, R338–R341). -/

namespace Sys2Proof.Machine

/-! ### Enable (R329) -/

/-- A write of ENABLE. -/
def State.perEnable (s : State) (n v : Nat) : State :=
  if v = 0 then (s.wr (0x2600 + n) 1 0).perOff n
  else if s.perState n = 0 then (s.wr (0x2600 + n) 1 1).perGo n 1
  else s

/-- RING_ENABLE (R329). -/
def execRingEnable (q : Path) (n : Fin 4) (v : Word) (s : State) : Res :=
  .next (s.guard q (0x2600 + n.val) 1 v.toNat (fun s => s.perEnable n v.toNat))

/-! ### Lock (R294, R329, R338, R339) -/

/-- PER_LOCK_ACQUIRED (R294). -/
def execPerLockAcquired (n : Fin 4) (east : Bool) (s : State) : Res :=
  .next (if s.perState n = 0 then s
  else
    let s := s.setBits (0x2610 + n) 0xA (if east then 1 else 2)
    let r := s.ring n
    if r.cut = some east then s.setRing n { r with cutLockAt := some s.ticks, remeasured := false } else s)

/-- Loss of lock on a link; `lostRx` and `lostTx` say whether a frame was being received or sent on it (R339). -/
def State.perLockLost (s : State) (n : Nat) (east lostRx lostTx : Bool) : State :=
  let s := ((s.clrBits (0x2610 + n) 0xA (if east then 1 else 2)).perCnt n 0x15).perEvent n (if east then 3 else 4)
  let s := if lostRx then s.perOpCnt n 0x10 else s
  let s := if lostTx then s.perOpCnt n 0x10 else s
  let r := s.ring n
  let s := s.setRing n { r with attempt := none, returns := 0, got := if r.got.any (·.east = east) then none else r.got
                                cutLockAt := if r.cut = some east then none else r.cutLockAt
                                remeasured := r.remeasured && r.cut ≠ some east }
  if s.perS n 0xA = 0 then (s.perListen n).perEvent n 10
  else if s.perState n = 2 ∨ s.perState n = 3 ∨ s.perState n = 4 then
    let s := s.setRing n { s.ring n with
      cut := some east, silent := true, cutDelay := s.perS n (if east then 8 else 9), cutLockAt := none, remeasured := false
      mute := 0 }
    s.perGo n 5
  else s

/-- PER_LOCK_LOST (R294). -/
def execPerLockLost (n : Fin 4) (east lostRx lostTx : Bool) (s : State) : Res :=
  .next (if s.perState n ≠ 0 && s.perLock n east then s.perLockLost n east lostRx lostTx else s)

/-- HEALING_SILENCE_END (R338): IDLE again on the cut link. -/
def execHealingSilenceEnd (n : Fin 4) (s : State) : Res :=
  .next (if (s.ring n).silent then s.setRing n { s.ring n with silent := false } else s)

/-! ### Reception (R293, R299, R336) -/

/-- How a received frame ended: EOF, ABT, or another symbol (R293). -/
inductive PerEnd where
  | eof | abt | violation
  deriving DecidableEq, Repr

def perEnd (k : Fin 3) : PerEnd := if k = 0 then .eof else if k = 1 then .abt else .violation

/-- What R299 finds in the data symbols of a frame that ended with EOF. -/
inductive PerCheck where
  | symbols | crc | kind | good
  deriving DecidableEq, Repr

def perCheck (f : List Nib) : PerCheck :=
  if f.length ≠ perLen f + 18 || f.length < 18 || 2048 < perLen f then .symbols
  else if perCrc (f.take (10 + perLen f)) ≠ nibNat (f.drop (10 + perLen f)) then .crc
  else if 7 ≤ perType f || !(perSlot f < 1024 || perSlot f = 0xFFFE || perSlot f = 0xFFFF) then .kind
  else .good

/-- A frame of slot `k` arrived within its window (R336). -/
def State.perInWindow (s : State) (n : Nat) (e : List Word) (t : Nat) : Bool :=
  decide ((distQ t ((s.ring n).refRx + slotStart e * 4)).natAbs ≤ s.perGuard n)

/-- The receive area gets the nibbles of an accepted frame (R314). -/
def State.perStore (s : State) (n : Nat) (e : List Word) (x : PerFrame) : State :=
  let a := entW e 5
  let old := s.w32 a
  let q : Path := { id := 41, secure := true }
  let data := (x.payload.drop (slotReadAt e)).take (slotReadLen e)
  let s := s.dmaWrite q a (leBytes 0xFFFF_FFFF 4)
  let s := s.dmaWrite q (a + 0x10) (bytesOf (data ++ (if data.length % 2 = 1 then [0] else [])))
  let s := s.dmaWrite q (a + 4) (leBytes data.length 4)
  let s := s.dmaWrite q (a + 8) (leBytes (x.at' / 4 % 2 ^ 32) 4 ++ leBytes (s.perS n 0xB) 4)
  s.dmaWrite q a (leBytes (if 0xFFFF_FFFE ≤ old then 0 else old + 1) 4)

/-- A good frame in a slot, in a state that stores (R314, R336, R340): accepted in its window on the pair of the cycle's
reference. -/
def State.perSlotFrame (s : State) (n : Nat) (x : PerFrame) : State :=
  let r := s.ring n
  if x.east ≠ r.refEast || !r.refSeen then s
  else match s.perEntry n x.slot with
    | none => s
    | some e =>
      if !s.perInWindow n e x.at' then (s.perOpCnt n 0xE).perEvent n 17
      else
        let s := s.perCnt n 0xE
        let s := if slotRx e then s.perStore n e x else s
        match r.change with
        | some c =>
          if x.typ = 6 && r.head && c.span.isSome && !c.acks.contains x.source then
            s.setRing n { s.ring n with change := some { c with acks := x.source :: c.acks } }
          else s
        | none => s

/-- An unscheduled frame is accepted during start and in MANAGEMENT slots (R336). -/
def State.perUnscheduled (s : State) (n : Nat) (x : PerFrame) : Bool :=
  s.perState n ≤ 2 || !(s.ring n).started && (s.ring n).head ||
  (s.perTable n (s.perMode n)).any (fun e => slotKind e = 3 && s.perInWindow n e x.at')

/-- What the station itself makes of a good frame: slot frames are stored, the others wait for their handling. -/
def State.perTake (s : State) (n : Nat) (x : PerFrame) : State :=
  let st := s.perState n
  if x.slot < 1024 ∧ x.typ ≠ 5 then
    (if 2 ≤ st && (x.typ = 1 || x.typ = 2 || x.typ = 6) then s.perSlotFrame n x else s)
  else if x.slot < 1024 then
    (match s.perEntry n x.slot with
    | some e => if (s.ring n).refSeen && slotKind e = 3 && !s.perInWindow n e x.at' then (s.perOpCnt n 0xE).perEvent n 17
        else (s.perCnt n 0xE).setRing n { s.ring n with got := some x }
    | none => (s.perCnt n 0xE).setRing n { s.ring n with got := some x })
  else if x.slot = 0xFFFE && !s.perUnscheduled n x then (s.perOpCnt n 0xE).perEvent n 17
  else if x.typ = 0 ∨ x.typ = 3 ∨ x.typ = 4 ∨ x.typ = 5 then (s.perCnt n 0xE).setRing n { s.ring n with got := some x }
  else s

/-! ### Splicing (R186, R302, R315, R335) -/

/-- Nibbles a splice changes: first and last index at which the outgoing frame may differ. -/
def spliceSpan (t : List (List Word)) (f : List Nib) : Option (Nat × Nat) :=
  let l := t.filter (fun e => entChanges e && entHits e f && entAt e < f.length)
  if l.isEmpty then none
  else some (l.foldl (fun a e => min a (entAt e)) 4096, l.foldl (fun a e => max a (min f.length (entAt e + entLen e))) 0)

/-- A forwarded frame of the primary or secondary direction passes the splice unit and its guardian: the symbols that
leave, and whether they end with ABT. `ok` says whether the incoming CRC held (R302). -/
def State.perSplice (s : State) (n d : Nat) (f : List Nib) (ok : Bool) (x : PerFrame) : List Nib × Bool × State :=
  let s := s.spliceActivate d
  let c := s.chordOf d
  let data := f.take (f.length - 8)
  let g := fun (k : Nat) => s.guardNow n (x.rim + s.perFwd n + (k + 1) * s.perSym n)
  if c.table.isEmpty || s.perHeld n || !(s.ring n).refSeen || s.perState n < 2 then (f, false, s)
  else
    let r := s.spliceWork d data (fun _ => true)
    let cap := fun (s : State) => if r.1.caps.isEmpty || !ok then s
      else s.setChord d { s.chordOf d with capture := some (f.length / 2, x.at' / 4 % 2 ^ 32, r.1.caps) }
    match spliceSpan c.table data with
    | none => (f, false, cap r.2)
    | some (a, b) =>
      match s.guardOpen n 2 (g a) with
      | none =>
        let q := s.spliceWork d data (fun _ => false)
        (f, false, cap ((q.2.perOpCnt n 0xB).perEvent n 15 |>.perBlocked n (s.ring n).blocked))
      | some close =>
        let out := r.1.out ++ nibsOfNat (perCrc r.1.out) 8
        if close < g b then
          let k := ((List.range data.length).find? (fun k => close ≤ g k)).getD data.length
          (out.take k, true, ((r.2.perOpCnt n 0xC).perBlocked n (s.ring n).blocked))
        else if !ok || r.1.overrun then (r.1.out, true, r.2)
        else (out, false, cap (r.2.setRing n { r.2.ring n with blocked := 0 }))

/-- The station forwards what comes in on a link (R290, R300, R328, R332, R341). -/
def State.perForwards (s : State) (n : Nat) (x : PerFrame) : Bool :=
  let r := s.ring n
  if s.perState n = 0 then false
  else if r.attempt.isSome then x.east
  else if r.head then x.east && !(x.source = s.perSelf n && (x.typ = 3 || x.typ = 4))
  else true

/-- Types that the station forwards itself when it handles them: MEASURE at a node, COLDSTART while attempting, and
management requests to this node. -/
def State.perDefers (s : State) (n : Nat) (x : PerFrame) : Bool :=
  (x.typ = 3 && s.perC n 2 = 1) || (x.typ = 4 && (s.ring n).attempt.isSome) ||
  (x.typ = 5 && s.perC n 2 = 1 &&
    (let p := bytesOf x.payload
     let t := pLe p 2 1
     let mine := t = 255 || (pLe p 1 1 = 0 && t = s.perC n 3 && t ≠ 0) || (pLe p 1 1 = 1 && t = s.perS n 4 && t ≠ 0)
     mine && 1 ≤ pLe p 0 1 && pLe p 0 1 ≤ 6 && 16 ≤ p.length))

/-- PER_FRAME_RECEIVED (R293, R299, R314, R336): data symbols `f` and how the frame ended; its SOF arrived `ago` ticks and
`phase` before now. `displaced` says that it arrived while the station was inserting (R301). -/
def State.perReceive (s : State) (n : Nat) (east : Bool) (f : List Nib) (fin : PerEnd) (ago phase : Nat) (displaced : Bool) :
    State :=
  let x : PerFrame := { east := east, slot := perSlot f, source := perSource f, typ := perType f
                        payload := (f.drop 10).take (perLen f)
                        at' := s.stampAt (s.perDom n) ago phase 0, rim := s.rimQ ago phase }
  let check := perCheck f
  let ok := fin = .eof && check = .good
  let fwd := s.perForwards n x && !displaced
  let s := if displaced && s.perForwards n x then s.perCnt n 0x16 else s
  let s :=
    if fin = .abt then
      let s := (s.perOpCnt n 0xD).perEvent n 16
      if 6 ≤ f.length then
        (if x.source = 0 then s.cntH (0x2660 + n) 0xFF (0x2600 + n) 0xF
         else if x.source ≤ 254 then s.cntH (0x2660 + n) x.source (0x2600 + n) 0xF else s)
      else s
    else if fin = .violation || check = .symbols then s.perCnt n 0x11
    else if check = .crc then (s.perCnt n 0x10).perEvent n 8
    else if check = .kind then s.perCnt n 0x14
    else s
  let s :=
    if !fwd || (ok && s.perDefers n x) then s
    else if fin = .eof && check ≠ .symbols && !(s.ring n).head then
      let r := s.perSplice n (if east then 8 + 2 * n else 9 + 2 * n) f ok x
      r.2.2.perSend n (!east) r.1 r.2.1
    else s.perSend n (!east) f (fin ≠ .eof)
  if ok then s.perTake n x else s

/-- PER_FRAME_RECEIVED (R299). -/
def execPerFrameReceived (n : Fin 4) (east : Bool) (f : List Nib) (fin : Fin 3) (ago : Nat) (phase : Fin 8)
    (displaced : Bool) (s : State) : Res :=
  .next (if s.perState n ≠ 0 && s.perLock n east then s.perReceive n east f (perEnd fin) ago phase displaced else s)

/-! ### Link delays (R303) -/

def State.echoOf (s : State) (n : Nat) (east : Bool) : Echo := tblGet (fun _ => {}) (if east then 1 else 0) (s.ring n).echo
def State.setEcho (s : State) (n : Nat) (east : Bool) (x : Echo) : State :=
  s.setRing n { s.ring n with echo := tblSet (fun _ => {}) (if east then 1 else 0) x (s.ring n).echo }

/-- ECHO_REQUEST_SEND (R303). -/
def execEchoRequestSend (n : Fin 4) (east : Bool) (s : State) : Res :=
  let x := s.echoOf n east
  .next (if s.perState n ≠ 0 && s.perLock n east && !x.waiting && x.tries < 64 then
    (s.setEcho n east { x with waiting := true, tries := x.tries + 1 }).emit (.linkSignal n east false)
  else s)

/-- ECHO_REQUEST_RECEIVED (R303): the reply is omitted while the reverse transmitter is sending a frame. -/
def execEchoRequestReceived (n : Fin 4) (east sending : Bool) (s : State) : Res :=
  .next (if s.perState n ≠ 0 && s.perLock n east && !sending then s.emit (.linkSignal n east true) else s)

/-- ECHO_REPLY_RECEIVED (R303): `t` is the round time in quarter nanoseconds; LINK_DELAY is the mean of 16 exchanges. -/
def execEchoReplyReceived (n : Fin 4) (east : Bool) (t : Nat) (s : State) : Res :=
  let x := s.echoOf n east
  let j := if east then 8 else 9
  .next (if x.waiting then
    if x.count + 1 < 16 then s.setEcho n east { waiting := false, tries := 0, count := x.count + 1, sum := x.sum + t }
    else
      let d := (x.sum + t - 16 * s.perTurn n + 16) / 32
      let s := (s.setEcho n east {}).wr (0x2610 + n) j d
      let r := s.ring n
      if r.cut = some east then s.setRing n { r with remeasured := decide (d ≤ r.cutDelay + 4) && decide (r.cutDelay ≤ d + 4) }
      else s
  else s)

/-- ECHO_TIMEOUT (R303): the request is repeated, and after 64 the link counts as unmeasured. -/
def execEchoTimeout (n : Fin 4) (east : Bool) (s : State) : Res :=
  let x := s.echoOf n east
  .next (if x.waiting then
    if x.tries < 64 then s.setEcho n east { x with waiting := false }
    else (s.setEcho n east {}).wr (0x2610 + n) (if east then 8 else 9) 0xFFFF_FFFF
  else s)

end Sys2Proof.Machine
end

