-- ==== Sys2Proof/Machine/PerCycle.lean ====
section
/-! DEFINITION. Perimeter: references, rate correction, backups, cold start, slots, mode change (R306–R318, R321, R322,
R330–R337, R342–R346). -/

namespace Sys2Proof.Machine

/-! ### Sending the reference (R308, R317, R318, R345) -/

/-- Payload of a reference (R317). -/
def State.refPayload (s : State) (n cycle time : Nat) (pend : Option (Nat × Nat)) (flags : Nat) : List Byte :=
  let r := s.ring n
  let m := s.perMode n
  let modes := m + (match pend with | some (p, _) => p * 8 + 64 | none => 0)
  let c := match pend with | some (_, c) => c | none => 0
  let rank := if s.perC n 4 ≤ 3 then s.perC n 4 else 0
  let off := if s.perC n 2 = 0 then 0 else s.perS n 5 + s.perFwd n
  leBytes cycle 4 ++ leBytes (time / 4 % 2 ^ 64) 8 ++ leBytes modes 1 ++ leBytes c 4 ++
  leBytes (flags + (if r.wrapped then 4 else 0) + rank * 8) 1 ++ leBytes (time % 4) 1 ++ zeros 1 ++
  leBytes (s.perModeObj n m 3) 4 ++ leBytes off 4 ++ leBytes (s.perS n 7) 4

/-- The reference of cycle `cycle` leaves now (R309, R335). -/
def State.refLeaves (s : State) (n cycle phase : Nat) (pend : Option (Nat × Nat)) (flags : Nat) : State :=
  let t := s.nowQ (s.perDom n) phase
  let s := s.perSend n (s.perInsertEast n) (perFrame 0xFFFF (s.perSelf n) 0 (nibsOf (s.refPayload n cycle t pend flags))) false
  let s := (s.perCnt n 0xF).wr (0x2610 + n) 0xB cycle
  let s := s.wr (0x2610 + n) 2 (s.perSelf n)
  let r := s.ring n
  let rim := s.rimQ 0 phase
  s.setRing n { r with
    refTx := t, refRx := t + s.perS n 7 - s.perFwd n, refSeen := true, refEast := false, started := true
    guardSpan := if r.haveLast then rim - r.guardAt else 0, guardAt := rim, haveLast := true, lastRing := t, lastArrival := t
    announced := pend, missed := 0, cancelFirst := false }

/-- The head's pending change at the reference of `cycle`: announce, decide at c − 1, switch at c (R344, R345). Answers
what the reference carries. -/
def State.changeStep (s : State) (n cycle : Nat) : Option (Nat × Nat) × Nat × State :=
  match (s.ring n).change with
  | none => (none, 0, s)
  | some c =>
    let span := match c.span with | some p => p | none => (cycle, cycle + c.lead)
    let s := match c.span with
      | some _ => s
      | none => (s.wr (0x2650 + n) 7 1).wr (0x2650 + n) 8 (span.2 % 2 ^ 32)
    let c := { c with span := some span }
    let put := fun (s : State) (x : Option ModeChange) => s.setRing n { s.ring n with change := x }
    if cycle + 1 < span.2 then (some (c.mode, span.2), 0, put s (some c))
    else if cycle + 1 = span.2 then
      let missing := ((s.perMembers n).filter (fun m => !c.acks.contains m)).length
      let s := s.wr (0x2650 + n) 9 (min missing 255)
      if missing = 0 then (some (c.mode, span.2), 1, (put s (some { c with confirmed := true })).wr (0x2650 + n) 7 2)
      else (some (c.mode, span.2), 2, ((((put s none).wr (0x2650 + n) 7 3).cnt (0x2650 + n) 0x17).perEvent n 14).swapUntie n)
    else
      let s := (put s none).wr (0x2650 + n) 7 4
      if c.restore then (none, 0, s.setRing n { s.ring n with wrapped := false }) else (none, 0, s.perSwitch n c.mode)

/-- A HEALING station ends its loop at the restore cycle (R343). -/
def State.perRestore (s : State) (n : Nat) : State :=
  let s := (s.setRing n { s.ring n with cut := none, silent := false, cutLockAt := none, remeasured := false, adopted := false
                                        mute := 0 }).wr (0x2650 + n) 0xA 0xFFFF_FFFF
  if s.perState n = 5 then s.perGo n 3 else s

/-- The head may send references: it is SYNCED or HEALING, its table is valid, and a controller has measured its ring
without a conflict (R306, R333). -/
def State.perHeadReady (s : State) (n : Nat) : Bool :=
  let r := s.ring n
  r.head && (s.perState n = 3 || s.perState n = 5) && s.perValid n (s.perMode n) &&
  (s.perC n 2 ≠ 0 || (r.measP.isSome && r.measS.isSome && !r.conflict))

/-- REFERENCE_SEND (R308): CYCLE 0 first, then every CYCLE_LENGTH. -/
def execReferenceSend (n : Fin 4) (phase : Fin 8) (dt : Nat) (s : State) : Res :=
  let s := s.advance dt
  let r := s.ring n
  let due : Bool := !r.started || decide (0 ≤ distQ (s.nowQ (s.perDom n) phase) (r.refTx + s.perCycle n))
  .next (if s.perHeadReady n && due then
    let cycle := if r.started then (s.perS n 0xB + 1) % 2 ^ 32 else 0
    let restore : Bool := match r.change with | some c => c.restore && c.confirmed && c.span.any (fun p => p.2 = cycle) | none => false
    let q := s.changeStep n cycle
    let s := if restore then q.2.2.perRestore n else q.2.2
    s.refLeaves n cycle phase q.1 (if r.cancelFirst && q.2.1 = 0 then 2 else q.2.1)
  else s)

/-! ### Accepting a reference (R317, R321, R329, R334, R340) -/

/-- Fields of a received reference. -/
def refRingTime (p : List Byte) : Nat := pLe p 4 8 * 4 + pLe p 18 1 % 4
def refMode (p : List Byte) : Nat := pLe p 12 1 % 8
def refPend (p : List Byte) : Option (Nat × Nat) :=
  if bitOf (pLe p 12 1) 6 then some (fieldOf (pLe p 12 1) 3 3, pLe p 13 4) else none
def refConfirm (p : List Byte) : Bool := bitOf (pLe p 17 1) 0
def refRank (p : List Byte) : Nat := fieldOf (pLe p 17 1) 3 2

/-- The expected arrival of a reference (R321, R340). -/
def State.refExpect (s : State) (n : Nat) (p : List Byte) : Nat :=
  let loop := pLe p 28 4
  let d : Int := (s.perS n 5 : Int) - pLe p 24 4
  refRingTime p + (if (s.ring n).adopted then s.n (0x2650 + n) 0xA else if loop = 0 then d.toNat else (d % loop).toNat)

/-- Rate and offset correction of the ring's domain by R321, with e in quarter nanoseconds; only where the ring owns the
rate (R322). -/
def State.perRate (s : State) (n : Nat) (p : List Byte) (arrival : Nat) (e : Int) : State :=
  let r := s.ring n
  let i := 0x2100 + s.perDom n
  if s.n i 1 ≠ n + 1 then s
  else
    let lim := 2 ^ 33 * s.perC n 0xA / 1000000
    let dr := (distQ (refRingTime p) r.lastRing).toNat
    let da := (distQ arrival r.lastArrival).toNat
    let incr := if r.haveLast && da ≠ 0 then
        max (2 ^ 33 - lim) (min (2 ^ 33 + lim) ((s.n i 6 * dr * 2 + da) / (2 * da)))
      else s.n i 6
    let ticks := pLe p 20 4 / 4
    let s := s.wr i 6 incr
    if (s.perC n 9 * 4 : Int) < e.natAbs then
      (s.wr i 0xC ((-(e.tdiv 4)) % 2 ^ 64).toNat).stepCommand (s.perDom n) 1
    else
      let adj : Int := incr - (e * 2 ^ 30).tdiv ticks
      (s.wr i 8 (adj % 2 ^ 64).toNat).adjustStart (s.perDom n) ticks

/-- Node state after an accepted reference (R329). -/
def State.refState (s : State) (n : Nat) (e : Int) : State :=
  let r := s.ring n
  let st := s.perState n
  if st = 1 then
    let s := s.perGo n 2
    s.setRing n { s.ring n with anyRef := true }
  else if st = 2 then
    let good := if e.natAbs ≤ s.perC n 7 then r.good + 1 else 0
    let s := s.setRing n { r with good := good, anyRef := false }
    if 2 ≤ good && r.haveP && r.haveS && s.perValid n (s.perMode n) then s.perGo n 3 else s
  else if st = 3 then (if s.perC n 9 * 4 < e.natAbs then s.perPassive n else s)
  else if st = 4 then
    let s := s.setRing n { r with hold := r.hold + 1 }
    if s.n (0x2650 + n) 4 ≤ r.hold + 1 then s.perGo n 2 else s
  else if s.perC n 9 * 4 < e.natAbs then s.perPassive n
  else s.setRing n { r with mute := r.mute - 1 }

/-- An accepted reference: status objects, times, the mode it carries, the announcement, rate and state. -/
def State.refTaken (s : State) (n : Nat) (x : PerFrame) (p : List Byte) : State :=
  let r := s.ring n
  let restore := r.agreed && r.announced.any (fun a => a.2 = pLe p 0 4 && a.1 = s.perMode n)
  let s := if restore then s.perRestore n else s
  let e := distQ x.at' (s.refExpect n p)
  let stepping := decide ((s.perC n 9 * 4 : Int) < e.natAbs) && s.n (0x2100 + s.perDom n) 1 = n + 1
  let s := if bitOf (pLe p 17 1) 1 then s.swapUntie n else s
  let s := s.perRate n p x.at' e
  let at0 := ((x.at' : Int) - (if stepping then e.tdiv 4 * 4 else 0)).toNat
  let s := ((((s.wr (0x2610 + n) 0xB (pLe p 0 4)).wr (0x2610 + n) 2 x.source).wr (0x2610 + n) 7 (pLe p 28 4)).wr (0x2610 + n) 0xD
    ((e * 250) % 2 ^ 32).toNat)
  let r := s.ring n
  let s := s.setRing n { r with
    refRx := at0, refTx := at0 + s.perFwd n, refEast := x.east, refSeen := true, missed := 0, got := none
    guardSpan := if r.haveLast then x.rim + s.perFwd n - r.guardAt else 0, guardAt := x.rim + s.perFwd n
    haveLast := true, lastRing := refRingTime p, lastArrival := ((x.at' : Int) - e).toNat
    expect := ((x.at' : Int) - e).toNat + pLe p 20 4 * 4
    announced := refPend p, agreed := refConfirm p, head := false, attempt := none }
  (s.perSwitch n (refMode p)).refState n e

/-- A head judges a reference it receives: its own, back on its East pair, tells it that the ring is wrapped (R342); a
lower rank, or an equal rank and a lower SOURCE, ends its headship (R334). -/
def State.refAtHead (s : State) (n : Nat) (x : PerFrame) (p : List Byte) : State :=
  let r := { s.ring n with got := none }
  let s := s.setRing n r
  if x.source = s.perSelf n then
    if x.east then
      if r.wrapped then s
      else ((s.setRing n { r with wrapped := true }).cnt (0x2650 + n) 0x15 |>.perEvent n 12).record 0x0603
        (body [(n, 1), (0, 1), (0, 2), (pLe p 0 4, 4)])
    else s.setRing n { r with refRx := x.at' }
  else
    let mine := if s.perC n 4 ≤ 3 then s.perC n 4 else 3
    if refRank p < mine ∨ (refRank p = mine ∧ x.source < s.perSelf n) then
      s.setRing n { r with head := false, started := false, change := none, refSeen := false, haveLast := false
                           expect := x.at' + s.perCycle n }
    else s

/-- The reference lies in its acceptance window (R334, R340). -/
def State.refInTime (s : State) (n : Nat) (x : PerFrame) (p : List Byte) : Bool :=
  let r := s.ring n
  let d := distQ x.at' r.expect
  let g : Int := s.perGuard n
  let win := -g ≤ d && d ≤ 4 * g
  let restore := r.agreed && r.announced.any (fun a => a.2 = pLe p 0 4 && a.1 = s.perMode n)
  if s.perState n = 1 then !x.east
  else if restore then !x.east
  else if r.adopted then x.east && win
  else if x.east then 3 ≤ s.perState n && pLe p 0 4 = (s.perS n 0xB + 1) % 2 ^ 32 && r.haveLast
  else win || r.anyRef || (s.perState n = 2 && !r.haveLast)

/-- REFERENCE_ACCEPT (R321): the reference received last is judged, accepted and followed. -/
def State.refAccept (s : State) (n : Nat) : State :=
  match (s.ring n).got with
  | none => s
  | some x =>
    let p := bytesOf x.payload
    if x.typ ≠ 0 || s.perState n = 0 || (s.ring n).attempt.isSome || p.length ≠ 32 then s
    else if (s.ring n).head then s.refAtHead n x p
    else if !s.refInTime n x p then s.setRing n { s.ring n with got := none }
    else if s.perValid n (refMode p) && s.perModeObj n (refMode p) 3 ≠ pLe p 20 4 then
      let s := (s.setRing n { s.ring n with got := none }).perCnt n 0x12
      s.perPassive n
    else
      let s := if x.east && !(s.ring n).adopted then
          let w := (distQ x.at' (refRingTime p)).toNat
          (s.setRing n { s.ring n with adopted := true }).wr (0x2650 + n) 0xA (w % 2 ^ 32)
        else s
      s.refTaken n x p

def execReferenceAccept (n : Fin 4) (s : State) : Res := .next (s.refAccept n)

/-- REFERENCE_MISSED (R329): the acceptance window has closed without a reference. -/
def State.refMissed (s : State) (n : Nat) : State :=
  let r := s.ring n
  let s := (s.perCnt n 0x12).perEvent n 2
  let s := s.setRing n { r with missed := r.missed + 1, refSeen := false, good := 0, hold := 0
                                expect := r.expect + s.perCycle n
                                mute := if s.perState n = 5 && r.mute ≠ 0 then s.n (0x2650 + n) 4 else r.mute }
  if 8 ≤ r.missed + 1 then s.perListen n
  else if 2 ≤ r.missed + 1 then s.perPassive n
  else s

def execReferenceMissed (n : Fin 4) (dt : Nat) (s : State) : Res :=
  let s := s.advance dt
  let r := s.ring n
  .next (if 2 ≤ s.perState n && !r.head && r.haveLast &&
      decide (4 * (s.perGuard n : Int) < distQ (s.nowQ (s.perDom n) 0) r.expect) then s.refMissed n else s)

/-- BACKUP_TAKEOVER (R334): rank k sends the reference k × GUARD after it should have left. -/
def execBackupTakeover (n : Fin 4) (phase : Fin 8) (dt : Nat) (s : State) : Res :=
  let s := s.advance dt
  let r := s.ring n
  let k := s.perC n 4
  let now := s.nowQ (s.perDom n) phase
  .next (if s.perState n = 3 && !r.head && 1 ≤ k && k ≤ 3 && r.haveLast && s.perC n 2 = 1 &&
      0 ≤ distQ now (r.expect + s.perFwd n + k * s.perGuard n) then
    let cycle := (s.perS n 0xB + 1) % 2 ^ 32
    let s := (s.cnt (0x2650 + n) 0x14).record 0x0602 (body [(n, 1), (k, 1), (0, 2), (cycle, 4)])
    let s := s.setRing n { s.ring n with head := true, change := none, announced := none }
    s.refLeaves n cycle phase none (if r.announced.isSome then 2 else 0)
  else s)

/-! ### Cold start (R331–R333) -/

/-- COLDSTART_LISTEN_TIMEOUT (R331): the listen time has passed without a reference or a COLDSTART frame. -/
def execColdstartListenTimeout (n : Fin 4) (s : State) : Res :=
  let r := s.ring n
  .next (if s.perState n = 1 && s.perC n 4 ≤ 3 && s.perS n 0xA = 3 && r.attempt.isNone &&
      (s.perC n 2 = 0 || (r.haveP && r.haveS && s.perS n 7 ≠ 0)) then
    s.setRing n { r with attempt := some 0, returns := 0 }
  else s)

/-- COLDSTART_SEND (R332): ATTEMPT counts this frame too (log entry 37). -/
def execColdstartSend (n : Fin 4) (s : State) : Res :=
  let r := s.ring n
  .next (match r.attempt with
    | none => s
    | some k =>
      let p := leBytes (s.n 0x2000 8) 8 ++ leBytes (s.perC n 4) 1 ++ leBytes (s.perC n 8) 1 ++ zeros 2 ++ leBytes (k + 1) 4
      let s := s.perSend n true (perFrame 0xFFFF (s.perSelf n) 4 (nibsOf p)) false
      (s.setRing n { s.ring n with attempt := some (k + 1) }).cnt (0x2650 + n) 0x12)

/-- The attempt is won: the station is time master (R332, R333). -/
def State.coldWin (s : State) (n : Nat) : State :=
  let s := s.setRing n { s.ring n with attempt := none, returns := 0, head := true, started := false }
  let s := s.wr (0x2610 + n) 0xC (s.perC n 8)
  (s.record 0x0601 (body [(n, 1), (s.perC n 4, 1), (0, 2), (0, 4)])).perGo n 3

/-- COLDSTART_RECEIVED (R332): better, worse, or the station's own. -/
def execColdstartReceived (n : Fin 4) (s : State) : Res :=
  let r := s.ring n
  .next (match r.got with
    | none => s
    | some x =>
      let p := bytesOf x.payload
      if x.typ ≠ 4 then s
      else
        let s := s.setRing n { r with got := none }
        if r.attempt.isNone || p.length ≠ 16 then s
        else
          let id := pLe p 0 8
          let rank := pLe p 8 1 % 4
          let mine := s.n 0x2000 8
          if id = mine && x.source = s.perSelf n then
            (if 2 ≤ r.returns + 1 then s.coldWin n else s.setRing n { s.ring n with returns := r.returns + 1 })
          else if rank < s.perC n 4 ∨ (rank = s.perC n 4 ∧ id < mine) then
            (s.setRing n { s.ring n with attempt := none, returns := 0 }).cnt (0x2650 + n) 0x13
          else s)

/-! ### Slot tables (R311, R312) -/

/-- The first rule of R311 that entry `k` breaks, given the entry before it. -/
def State.slotFault (s : State) (n m : Nat) (prev : Option (List Word)) (e : List Word) (last : Bool) : Option Nat :=
  let g := s.perC n 7
  let sym := s.perSym n / 4
  let time := fun l => (20 + l) * sym
  let self := s.perSelf n
  if entW e 1 / 2 ^ 29 ≠ 0 || 3 < slotKind e || entW e 2 &&& 0x0FFF_0FFF ≠ entW e 2 || entW e 3 &&& 0xFFF ≠ entW e 3 ||
      entW e 6 ≠ 0 || entW e 7 ≠ 0 || 2048 < slotLen e || prev.any (fun p => slotStart e < slotStart p) then some 1
  else if prev.isNone && slotStart e < time 64 + 4 * sym + g then some 2
  else if slotDur e < time (slotLen e) + 2 * g + 4 * sym then some 3
  else if prev.any (fun p => slotStart e < slotStart p + slotDur p) then some 4
  else if last && s.perModeObj n m 3 < slotStart e + slotDur e + 4 * sym + g then some 5
  else if (slotKind e = 3 && slotOwner e ≠ 0) || (slotTx e && slotOwner e ≠ self) then some 6
  else if slotLen e < slotReadAt e + slotReadLen e ||
      (slotTx e && (entW e 4 % 8 ≠ 0 || !inStorage (entW e 4) ((slotLen e + 1) / 2))) ||
      (slotRx e && (entW e 5 % 16 ≠ 0 || slotReadLen e = 0 || 2048 < slotReadLen e ||
        !inStorage (entW e 5) (16 + (slotReadLen e + 1) / 2))) then some 7
  else none

/-- REJECT of a table, or none for a valid one. -/
def State.slotTableFault (s : State) (n m : Nat) : Nat → Option (List Word) → List (List Word) → Option Nat
  | _, _, [] => none
  | k, prev, e :: t =>
    match s.slotFault n m prev e t.isEmpty with
    | some r => some (k + r * 2 ^ 16)
    | none => s.slotTableFault n m (k + 1) (some e) t

/-- Accept a table into the schedule memory, or leave the mode empty (R312). -/
def State.slotInstall (s : State) (n m : Nat) (l : List (List Word)) : Bool × State :=
  let o := 0x2620 + 8 * n + m
  match s.slotTableFault n m 0 none l with
  | some r =>
    (false, (((s.setRing n { s.ring n with tables := tblSet (fun _ => []) m [] (s.ring n).tables }).wr o 4 3).wr o 5 r).perEvent n 5)
  | none => (true, (s.setRing n { s.ring n with tables := tblSet (fun _ => []) m l (s.ring n).tables }).wr o 4 2)

/-- SLOT_COUNT is written: the load and its check start (R312). -/
def State.slotLoad (s : State) (n m v : Nat) : State := (s.wr (0x2620 + 8 * n + m) 2 v).wr (0x2620 + 8 * n + m) 4 1

/-- SLOT_TABLE_LOAD (R312). -/
def execSlotTableLoad (q : Path) (n : Fin 4) (m : Fin 8) (v : Half) (s : State) : Res :=
  .next (s.guard q (0x2620 + 8 * n.val + m.val) 2 v.toNat (fun s => s.slotLoad n m v.toNat))

/-- Words of `k` entries of eight words at `a`. -/
def State.entriesAt (s : State) (a : Nat) (k : Nat) : List (List Word) :=
  (List.range k).map (fun i => (List.range 8).map (fun j => BitVec.ofNat 32 (s.w32 (a + 32 * i + 4 * j))))

/-- SLOT_TABLE_CHECKED (R312). -/
def execSlotTableChecked (n : Fin 4) (m : Fin 8) (s : State) : Res :=
  let o := 0x2620 + 8 * n.val + m.val
  .next (if s.n o 4 = 1 then (s.slotInstall n m (s.entriesAt (s.n o 1) (s.n o 2))).2 else s)

/-! ### Slots (R301, R313, R330, R335) -/

def State.slotFetch (s : State) (n k : Nat) : Nat × List Nib := tblGet (fun _ => (0, [])) k (s.ring n).fetch
def State.setSlotFetch (s : State) (n k : Nat) (x : Nat × List Nib) : State :=
  s.setRing n { s.ring n with fetch := tblSet (fun _ => (0, [])) k x (s.ring n).fetch }

/-- SLOT_FETCH_START (R313): the payload of an own slot of the active mode. -/
def execSlotFetchStart (n : Fin 4) (k : Fin 1024) (s : State) : Res :=
  .next (match s.perEntry n k with
    | some e => if slotTx e && slotKind e ≠ 3 && (s.perState n = 3 || s.perState n = 5) && (s.slotFetch n k).1 = 0 then
        s.setSlotFetch n k (1, []) else s
    | none => s)

/-- SLOT_FETCH_DONE (R313). -/
def execSlotFetchDone (n : Fin 4) (k : Fin 1024) (s : State) : Res :=
  .next (match s.perEntry n k with
    | some e =>
      if (s.slotFetch n k).1 = 1 then
        let r := s.dmaRead 41 (entW e 4) ((slotLen e + 1) / 2)
        r.2.2.setSlotFetch n k (if r.2.1 then (3, []) else (2, (nibsOf r.1).take (slotLen e)))
      else s
    | none => s)

/-- An own frame leaves under the guardian: blocked, cut later, or sent whole (R335). -/
def State.perInsert (s : State) (n : Nat) (f : List Nib) (phase : Nat) : State :=
  let r := s.ring n
  let rim := s.rimQ 0 phase
  let g := fun (k : Nat) => s.guardNow n (rim + k * s.perSym n)
  match s.guardOpen n 1 (g 0) with
  | none => ((s.perOpCnt n 0xB).perEvent n 15).perBlocked n r.blocked
  | some close =>
    if close < g (f.length + 2) then
      let k := ((List.range f.length).find? (fun k => close ≤ g (k + 1))).getD f.length
      s.setRing n { r with cutting := some (f.take k, s.perInsertEast n, r.blocked) }
    else ((s.perSend n (s.perInsertEast n) f false).perCnt n 0xF).setRing n { s.ring n with blocked := 0 }

/-- GUARDIAN_CUT (R335): the window closes during the frame, which ends with ABT. -/
def execGuardianCut (n : Fin 4) (s : State) : Res :=
  let r := s.ring n
  .next (match r.cutting with
    | none => s
    | some (f, east, before) =>
      (((s.setRing n { r with cutting := none }).perSend n east f true).perOpCnt n 0xC).perBlocked n before)

/-- The controller's request goes out (R316, R327). -/
def State.mgmtLeaves (s : State) (n slot : Nat) (put : State → List Nib → State) : State :=
  let o := 0x2640 + n
  let r := s.dmaRead 41 (s.n o 1) (s.n o 2)
  let s := (put r.2.2 (perFrame slot 0 5 (nibsOf r.1))).cnt o 6
  s.setRing n { s.ring n with mgmtSent := true }

/-- SLOT_INSERT (R301, R313, R316, R330): `busy` says that a forwarded frame is still passing. -/
def State.slotInsert (s : State) (n k : Nat) (busy : Bool) (phase : Nat) : State :=
  let r := s.ring n
  match s.perEntry n k with
  | none => s
  | some e =>
    let self := s.perSelf n
    let due := 0 ≤ distQ (s.nowQ (s.perDom n) phase) (r.refTx + slotStart e * 4)
    if !slotTx e || slotKind e = 0 || !r.refSeen || !due || r.mute ≠ 0 || (s.perState n ≠ 3 && s.perState n ≠ 5) ||
        (self = 0 && s.perC n 2 = 1) then s
    else if slotKind e = 3 then
      if s.n (0x2640 + n) 5 ≠ 1 || r.mgmtSent then s
      else if busy then s.perCnt n 0x16
      else s.mgmtLeaves n k (fun s f => s.perInsert n f phase)
    else
      let x := s.slotFetch n k
      let s := s.setSlotFetch n k (0, [])
      if s.perHeld n then s.perOpCnt n 0xF
      else if busy then s.perCnt n 0x16
      else if x.1 ≠ 2 then (s.perCnt n 0x13).perEvent n 7
      else s.perInsert n (perFrame k self (if slotKind e = 2 then 2 else if s.perAck n then 6 else 1) x.2) phase

def execSlotInsert (n : Fin 4) (k : Fin 1024) (busy : Bool) (phase : Fin 8) (dt : Nat) (s : State) : Res :=
  .next ((s.advance dt).slotInsert n k busy phase)

/-! ### Guardian table (R335, R337) -/

/-- A write of GUARD_COUNT commits. -/
def State.guardCommit (s : State) (n v master : Nat) : State :=
  ((s.wr (0x2650 + n) 2 v).wr (0x2650 + n) 3 1).setRing n { s.ring n with guardMaster := master }

/-- GUARD_TABLE_COMMIT (R337). -/
def execGuardTableCommit (q : Path) (n : Fin 4) (v : Byte) (s : State) : Res :=
  .next (s.guard q (0x2650 + n.val) 2 v.toNat (fun s => s.guardCommit n v.toNat q.id.val))

/-- A window that breaks no rule. -/
def winOk (w : Word × Word) : Bool := winKind w ≠ 3 && w.2.toNat / 2 ^ 26 = 0

/-- Checked windows take effect (R335, R337). -/
def State.guardInstall (s : State) (n master : Nat) (l : List (Word × Word)) : Bool × State :=
  if l.all winOk then
    (true, ((s.setRing n { s.ring n with guard := l, guardOnce := true }).wr (0x2650 + n) 3 2).record 0x0604
      (body [(n, 1), (l.length, 1), (master, 1)]))
  else (false, s.wr (0x2650 + n) 3 3)

/-- GUARD_TABLE_CHECKED (R337). -/
def execGuardTableChecked (n : Fin 4) (s : State) : Res :=
  let o := 0x2650 + n.val
  let a := s.n o 1
  .next (if s.n o 3 = 1 then
    (s.guardInstall n (s.ring n).guardMaster ((List.range (s.n o 2)).map (fun k =>
      (BitVec.ofNat 32 (s.w32 (a + 8 * k)), BitVec.ofNat 32 (s.w32 (a + 8 * k + 4)))))).2
  else s)

/-! ### Mode change and restore at the head (R343, R344) -/

/-- A request at the head. -/
def State.changeAsk (s : State) (n mode lead : Nat) (restore : Bool) : State :=
  s.setRing n { s.ring n with change := some { mode := mode, lead := lead, restore := restore } }

/-- MODE_REQUEST (R344). -/
def execModeRequest (q : Path) (n : Fin 4) (v : Half) (s : State) : Res :=
  .next (s.guard q (0x2650 + n.val) 5 v.toNat (fun s =>
    (s.wr (0x2650 + n) 5 v.toNat).changeAsk n (fieldOf v.toNat 0 3) (fieldOf v.toNat 8 8) false))

/-- RESTORE_REQUEST (R343): a change to the active mode with a lead of 4 cycles. -/
def execRestoreRequest (q : Path) (n : Fin 4) (v : Word) (s : State) : Res :=
  .next (s.guard q (0x2650 + n.val) 6 v.toNat (fun s => if v = 1 then s.changeAsk n (s.perMode n) 4 true else s))

end Sys2Proof.Machine
end

