-- ==== Sys2Proof/Machine/PerMgmt.lean ====
section
/-! DEFINITION. Perimeter: measurement of positions and delays, management frames (R304–R306, R319, R320, R327). -/

namespace Sys2Proof.Machine

/-! ### Measurement (R305, R306) -/

/-- MEASURE_SEND (R305): primary on East, secondary on West. -/
def execMeasureSend (n : Fin 4) (east : Bool) (s : State) : Res :=
  let r := s.ring n
  .next (if s.perC n 2 = 0 && s.perState n ≠ 0 && s.perLock n east then
    let s := s.setRing n (if east then { r with measP := none } else { r with measS := none })
    s.emit (.perimeter n east (perFrame 0xFFFE 0 3 (nibsOf (zeros 5 ++ leBytes (if east then 0 else 1) 1 ++ zeros 1018))) false)
  else s)

/-- Put bytes at offset `i` of a payload. -/
def pPut (p : List Byte) (i : Nat) (d : List Byte) : List Byte := p.take i ++ d ++ p.drop (i + d.length)

/-- A handled frame goes on, on the other link, with a new CRC. -/
def State.perRelay (s : State) (n : Nat) (x : PerFrame) (p : List Byte) : State :=
  s.perSend n (!x.east) (perFrame x.slot x.source x.typ (nibsOf p)) false

/-- A node's part in a MEASURE frame: the frame it forwards, and what it records (R305). -/
def State.measureNode (s : State) (n : Nat) (x : PerFrame) : State :=
  let p := bytesOf x.payload
  let own := (pLe p 0 4 + s.perS n (if x.east then 8 else 9)) % 2 ^ 32
  let h := (pLe p 4 1 + 1) % 256
  let q := pPut p 0 (leBytes ((own + s.perFwd n) % 2 ^ 32) 4 ++ leBytes h 1)
  let q := if 1 ≤ h ∧ h ≤ 254 then pPut q (4 + 4 * h) (leBytes (s.perC n 3 + own % 2 ^ 24 * 256) 4) else q
  let r := { s.ring n with got := none }
  let s := if pLe p 5 1 = 0 then
      ((s.setRing n { r with haveP := true }).wr (0x2610 + n) 4 h).wr (0x2610 + n) 5 own
    else (s.setRing n { r with haveS := true }).wr (0x2610 + n) 6 own
  s.perRelay n x q

/-- MEASURE_FORWARD (R305). -/
def execMeasureForward (n : Fin 4) (s : State) : Res :=
  .next (match (s.ring n).got with
    | some x => if x.typ = 3 && s.perC n 2 = 1 && x.payload.length = 2048 then s.measureNode n x else s
    | none => s)

/-- ENTRY_h of a returned frame's entries. -/
def measEntry (l : List Byte) (h : Nat) : Nat := if h = 0 then 0 else pLe l (4 * (h - 1)) 4

/-- One entry of the node table (R306): number, position, flags, P, S, FWD and unique ID. -/
def nodeEntry (number pos : Nat) (conflict : Bool) (p s fwd : Nat) (id : DWord) : List Byte :=
  leBytes (number + pos * 256 + 2 ^ 16 + (if conflict then 2 ^ 17 else 0)) 4 ++ leBytes p 4 ++ leBytes s 4 ++
  leBytes fwd 4 ++ leBytes id.toNat 8 ++ zeros 8

/-- Both frames are back (R306): the controller's own delays, the node table, conflicts, and the numbers it assigns. `ids`
are FWD and unique ID of the nodes in order of position, as READ_IDENTITY answered. -/
def State.measured (s : State) (n : Nat) (mp ms : Nat × Nat × List Byte) (ids : List (Half × DWord)) : State :=
  let count := mp.1
  let round := (mp.2.1 + s.perS n 9) % 2 ^ 32
  let sec := (ms.2.1 + s.perS n 8) % 2 ^ 32
  let o := 0x2610 + n
  let s := ((((s.wr o 3 count).wr o 4 0).wr o 5 round).wr o 6 sec).wr o 7 ((round + s.perFwd n) % 2 ^ 32)
  let assign := s.perC n 0xB = 1
  let num := fun pos => if assign then pos else measEntry mp.2.2 pos % 256
  let positions := (List.range count).map (· + 1)
  let nums := positions.map num
  let clash := fun (k : Nat) => decide (2 ≤ nums.count k)
  let id := fun (pos : Nat) => ids.getD (pos - 1) (0, 0)
  let table := nodeEntry 0 0 false round sec (s.perFwd n) (s.rd 0x2000 8) ++
    (positions.map (fun pos => nodeEntry (num pos) pos (clash (num pos)) (measEntry mp.2.2 pos / 256)
      (measEntry ms.2.2 (count + 1 - pos) / 256) (id pos).1.toNat (id pos).2)).flatten ++ zeros (32 * (254 - count))
  let a := s.perC n 0xC
  let s := if a = 0 then s else s.dmaWrite { id := 41, secure := true } a table
  let bad := nums.any clash
  let s := s.setRing n { s.ring n with haveP := true, haveS := true, conflict := bad }
  let s := if assign then positions.foldl (fun s pos =>
      s.perSend n true (perFrame 0xFFFE 0 5 (nibsOf ([2, 1] ++ leBytes pos 1 ++ zeros 1 ++ leBytes pos 4 ++ zeros 8))) false) s
    else s
  let s := s.perEvent n 1
  if bad then s.perEvent n 9 else s

/-- MEASURE_RETURN (R305, R306): a frame returns with a good CRC; the second of the two completes the measurement. -/
def execMeasureReturn (n : Fin 4) (ids : List (Half × DWord)) (s : State) : Res :=
  .next (match (s.ring n).got with
    | none => s
    | some x =>
      if x.typ = 3 && s.perC n 2 = 0 && x.payload.length = 2048 then
        let p := bytesOf x.payload
        let m := some (pLe p 4 1, pLe p 0 4, p.drop 8)
        let r := { s.ring n with got := none }
        let s := s.setRing n (if pLe p 5 1 = 0 then { r with measP := m } else { r with measS := m })
        match (s.ring n).measP, (s.ring n).measS with
        | some a, some b => s.measured n a b ids
        | _, _ => s
      else s)

/-! ### The controller's requests (R327) -/

/-- A write of 1 to SEND: pending until the next MANAGEMENT slot, or sent at once during start. -/
def State.mgmtSend (s : State) (n : Nat) : State :=
  let s := (s.wr (0x2640 + n) 5 1).setRing n { s.ring n with mgmtSent := false }
  if (s.ring n).head && !(s.ring n).started then s.mgmtLeaves n 0xFFFE (fun s f => s.perSend n true f false) else s

/-- MGMT_SEND (R327). -/
def execMgmtSend (q : Path) (n : Fin 4) (v : Word) (s : State) : Res :=
  .next (s.guard q (0x2640 + n.val) 4 v.toNat (fun s => if v = 1 then s.mgmtSend n else s))

/-- MGMT_RETURN (R327): the request is back with payload `d`; `good` says whether its CRC held. -/
def execMgmtReturn (n : Fin 4) (d : List Byte) (good : Bool) (s : State) : Res :=
  let o := 0x2640 + n.val
  .next (if s.n o 5 = 1 && (s.ring n).mgmtSent && d.length = s.n o 2 then
    let s := s.dmaWrite { id := 41, secure := true } (s.n o 3) d
    ((s.wr o 5 (if good then 2 else 3)).setRing n { s.ring n with mgmtSent := false, got := none }).perEvent n 6
  else s)

/-- MGMT_TIMEOUT (R327): not returned within RING_LOOP + 2 µs. -/
def execMgmtTimeout (n : Fin 4) (s : State) : Res :=
  let o := 0x2640 + n.val
  .next (if s.n o 5 = 1 && (s.ring n).mgmtSent then
    ((s.wr o 5 4).setRing n { s.ring n with mgmtSent := false }).perEvent n 6
  else s)

/-! ### The target of a request (R319, R320) -/

/-- The request this node is a target of, if the frame received last is one with COMMAND `c`. -/
def State.mgmtFor (s : State) (n c : Nat) : Option (PerFrame × List Byte) :=
  match (s.ring n).got with
  | some x => if x.typ = 5 && s.perDefers n x && pLe (bytesOf x.payload) 0 1 = c then some (x, bytesOf x.payload) else none
  | none => none

/-- Answer: REPLY_STATUS and the reply over the frame's own bytes; a broadcast goes on unchanged. -/
def State.mgmtAnswer (s : State) (n : Nat) (x : PerFrame) (p : List Byte) (status : Nat) (reply : List Byte) : State :=
  let s := s.setRing n { s.ring n with got := none }
  if pLe p 2 1 = 255 then s.perRelay n x p
  else s.perRelay n x (pPut (pPut p 12 (leBytes status 1)) 16 ((reply.take (pLe p 3 1)).take (p.length - 16)))

/-- MGMT_READ_IDENTITY (R319). -/
def execMgmtReadIdentity (n : Fin 4) (s : State) : Res :=
  .next (match s.mgmtFor n 1 with
    | none => s
    | some (x, p) =>
      s.mgmtAnswer n x p 1 (leBytes (s.n 0x2000 8) 8 ++ leBytes (s.n 0x1018 1) 4 ++ leBytes (s.n 0x1018 2) 4 ++
        leBytes (s.n 0x1018 3) 4 ++ leBytes 32 2 ++ leBytes 96 2 ++ [64] ++ leBytes (s.perC n 4) 1 ++ leBytes (s.perC n 3) 1 ++
        zeros 5))

/-- MGMT_ASSIGN_NUMBER (R319): by position only, 1–254. -/
def execMgmtAssignNumber (n : Fin 4) (s : State) : Res :=
  .next (match s.mgmtFor n 2 with
    | none => s
    | some (x, p) =>
      let k := pLe p 4 1
      if pLe p 1 1 = 1 && 1 ≤ k && k ≤ 254 then (s.wr (0x2600 + n) 3 k).mgmtAnswer n x p 1 [] else s.mgmtAnswer n x p 2 [])

/-- Staged pieces of a table. -/
def State.staged (s : State) (n t : Nat) : List (Nat × List Byte) := tblGet (fun _ => []) t (s.ring n).staging
def State.setStaged (s : State) (n t : Nat) (l : List (Nat × List Byte)) : State :=
  s.setRing n { s.ring n with staging := tblSet (fun _ => []) t l (s.ring n).staging }

/-- MGMT_WRITE_TABLE (R319). -/
def execMgmtWriteTable (n : Fin 4) (s : State) : Res :=
  .next (match s.mgmtFor n 3 with
    | none => s
    | some (x, p) =>
      let t := pLe p 4 1
      if t ≤ 8 then (s.setStaged n t ((s.staged n t) ++ [(pLe p 6 2, p.drop 16)])).mgmtAnswer n x p 1 []
      else s.mgmtAnswer n x p 2 [])

/-- The bytes of the staged pieces, laid out by offset. -/
def stagedBytes (l : List (Nat × List Byte)) : List Byte :=
  l.foldl (fun d (o, b) => pPut (d ++ zeros (o + b.length - d.length)) o b) []

/-- Staged slot entries: words 0–3; words 4–7 stay as the table of the mode has them (log entry 39). -/
def State.stagedEntries (s : State) (n m : Nat) (d : List Byte) : List (List Word) :=
  (List.range (d.length / 16)).map (fun k =>
    (List.range 4).map (fun j => BitVec.ofNat 32 (pLe d (16 * k + 4 * j) 4)) ++
    (((s.perTable n m).getD k (List.replicate 8 0)).drop 4))

/-- Staged windows. -/
def stagedWindows (d : List Byte) : List (Word × Word) :=
  (List.range (d.length / 8)).map (fun k => (BitVec.ofNat 32 (pLe d (8 * k) 4), BitVec.ofNat 32 (pLe d (8 * k + 4) 4)))

/-- Entries in the schedule memory for the other modes. -/
def State.slotsElse (s : State) (n m : Nat) : Nat :=
  ((List.range 8).map (fun k => if k = m then 0 else (s.perTable n k).length)).sum

/-- A COMMIT is applied when the count matches and the table passes; otherwise it is refused and nothing changes but the
staging (R319, R320, R337). -/
def State.mgmtCommit (s : State) (n t count : Nat) : Bool × State :=
  let l := s.staged n t
  let d := stagedBytes l
  if t ≤ 8 && (l.map (·.2.length)).sum = count then
    if t = 8 then
      let w := stagedWindows d
      if !(s.ring n).guardOnce && d.length % 8 = 0 && 1 ≤ w.length && w.length ≤ 64 && w.all winOk then s.guardInstall n 41 w
      else (false, s)
    else
      let e := s.stagedEntries n t d
      if d.length % 16 = 0 && e.length ≤ 1024 && s.slotsElse n t + e.length ≤ 4096 && (s.slotTableFault n t 0 none e).isNone then
        s.slotInstall n t e
      else (false, s)
  else (false, s)

/-- MGMT_COMMIT (R319): in both cases the staging is emptied. -/
def execMgmtCommit (n : Fin 4) (s : State) : Res :=
  .next (match s.mgmtFor n 4 with
    | none => s
    | some (x, p) =>
      let t := pLe p 8 1
      let r := s.mgmtCommit n t (pLe p 4 4)
      (r.2.setStaged n t []).mgmtAnswer n x p (if r.1 then 1 else 2) [])

/-- MGMT_READ_STATUS (R319). -/
def execMgmtReadStatus (n : Fin 4) (s : State) : Res :=
  .next (match s.mgmtFor n 5 with
    | none => s
    | some (x, p) =>
      let w := fun j => leBytes (s.perS n j) 4
      let v := fun j => leBytes (s.n (0x2650 + n) j) 4
      s.mgmtAnswer n x p 1 (leBytes (s.perState n) 4 ++ w 0x10 ++ w 0x11 ++ w 0x12 ++ w 0x15 ++ v 0xB ++
        v (if Config.statusTruncatedSeen then 0xD else 0xC) ++ v 0xE))

/-- MGMT_READ_LINKS (R319). -/
def execMgmtReadLinks (n : Fin 4) (s : State) : Res :=
  .next (match s.mgmtFor n 6 with
    | none => s
    | some (x, p) => s.mgmtAnswer n x p 1 (((List.range 4).map (fun k =>
        leBytes (s.perS n (if k = 0 then 8 else if k = 1 then 9 else k + 3)) 4)).flatten))

end Sys2Proof.Machine
end

