-- ==== Sys2Proof/Machine/Supervise.lean ====
section
/-! DEFINITION. Supervision, ageing and perturbation, and the TAP (spec/21, R558). -/

namespace Sys2Proof.Machine

/-- The 32-bit slot of an INTEGER16 reading (R37). -/
def slot16 (v : Half) : Nat := (v.signExtend 32).toNat

/-- Sensor readings in 0.25 °C, as signed numbers. -/
def tempInt (v : Half) : Int := v.toInt

/-- The four sensors are read (R524): the readings, the peak since POR, the warning and its end 5 °C below. -/
def State.sampleTemps (s : State) (ts : List Half) : State :=
  let s := (List.range 4).foldl (fun s k => s.wr 0x2E10 (1 + k) (slot16 (ts.getD k 0))) s
  let peak := ts.foldl (fun m t => max m (tempInt t)) (sint (s.n 0x2E00 5))
  let s := s.wr 0x2E00 5 (BitVec.ofInt 32 peak).toNat
  let warn := 4 * sint (s.n 0x2E00 4)
  match ts.findIdx? (fun t => warn < tempInt t) with
  | some k =>
    if s.bit 0x1001 0 3 then s
    else ((s.errBit 3 true).event 0x2E00 6 8).record 0x0902 (body [(k, 2), ((ts.getD k 0).toNat, 2)])
  | none =>
    if s.bit 0x1001 0 3 && ts.all (fun t => decide (tempInt t ≤ warn - 20)) then s.errBit 3 false else s

/-- TEMP_SAMPLE (R524, R525): temperatures and voltages are measured every millisecond. -/
def execTempSample (temps volts : List Half) (s : State) : Res :=
  .next ((List.range 11).foldl (fun s m => s.wr 0x2E10 (5 + m) (volts.getD m 0).toNat) (s.sampleTemps temps))

/-- The operating range in mV of monitor `m` (R542); a VDDIO bank without a class has none. -/
def State.supplyRange (s : State) (m : Nat) : Nat × Nat :=
  if m = 0 then (720, 900) else if m = 1 then (760, 880) else if m = 2 then (810, 890)
  else if m = 3 ∨ m = 4 then (1710, 1890)
  else
    let c := tblGet (fun _ => 0) (m - 5) s.pw.vddioClass
    if c = 1 then (1710, 1890) else if c = 2 then (2375, 2625) else if c = 3 then (3135, 3465) else (1, 0)

/-- Whether `mv` lies in the operating range of monitor `m` (R525, R542). -/
def State.supplyOk (s : State) (m mv : Nat) : Bool := (s.supplyRange m).1 ≤ mv && mv ≤ (s.supplyRange m).2

/-- Monitor `m` leaves its range (R525): the SUPPLY reason, 0x1001 [2], SUPPLY_EVENT and a 0x0903 record. -/
def State.supplyOut (s : State) (m mv : Nat) : State :=
  let s := (s.setBit 0x2E10 0x10 m).wr 0x2E10 (5 + m) mv
  (((s.hold 0x40).errBit 2 true).event 0x2E00 6 0x10).record 0x0903 (body [(s.n 0x2E10 0x10, 2)])

/-- Monitor `m` returns to its range; with all in range SUPPLY clears (R76, R525). -/
def State.supplyBack (s : State) (m mv : Nat) : State :=
  let s := (s.clrBits 0x2E10 0x10 (2 ^ m)).wr 0x2E10 (5 + m) mv
  if s.n 0x2E10 0x10 = 0 then ((s.unhold 0x40).errBit 2 false).writeWaiting else s

/-- SUPPLY_EXCURSION (R525). -/
def execSupplyExcursion (m : Fin 11) (mv : Half) (s : State) : Res :=
  .next (if s.supplyOk m mv.toNat then s else s.supplyOut m mv.toNat)

/-- SUPPLY_RECOVERED (R525). -/
def execSupplyRecovered (m : Fin 11) (mv : Half) (s : State) : Res :=
  .next (if s.supplyOk m mv.toNat then s.supplyBack m mv.toNat else s)

/-- PACE_WINDOW_END (R527): a window's handshake count is taken. -/
def execPaceWindowEnd (k : Fin 21) (count : Nat) (s : State) : Res :=
  .next (({ s with sup := { s.sup with
    pace := tblSet (fun _ => []) k ((count :: tblGet (fun _ => []) k s.sup.pace).take 64) s.sup.pace } }).cnt (0x2E30 + k) 4)

/-- PACE and MARGIN of monitor `i` (R527, R528): the mean of the last windows over the factory value, and
PACE / PACE_FLOOR − 1 in 0.01 %. Rounding toward zero is log entry 12; with PACE_FLOOR 0 the margin is a free value. -/
def State.paceOne (s : State) (i factory : Nat) : State :=
  let l := tblGet (fun _ => []) i s.sup.pace
  if l.isEmpty || factory = 0 then s
  else
    let pace := l.sum * 65536 / (l.length * factory) % 2 ^ 32
    let floor := s.n (0x2E30 + i) 2
    let s := s.wr (0x2E30 + i) 1 pace
    let m : Half := if floor = 0 then s.free 16 else BitVec.ofInt 16 ((pace * 10000 / floor : Int) - 10000)
    let s := if floor = 0 then s.tick else s
    let s := s.wr (0x2E30 + i) 3 (slot16 m)
    if m.toInt < 100 * (s.n 0x2E00 3 : Int) then
      (s.event 0x2E00 6 0x20).record 0x0904 (body [(i, 2), (m.toNat, 2)])
    else s

/-- PACE_UPDATE (R527, R528): every monitor, with the factory value that the fuses give for each. -/
def execPaceUpdate (factory : List Word) (s : State) : Res :=
  .next ((List.range 21).foldl (fun s i => s.paceOne i (factory.getD i 0).toNat) s)

/-- MARGIN_RECORD (R529): the 64-byte 0x0901 record of all margins. -/
def execMarginRecord (s : State) : Res :=
  .next (s.record 0x0901 (body ((List.range 21).map (fun i => (s.n (0x2E30 + i) 3 % 2 ^ 16, 2)) ++ [(0, 2)])))

/-! ### Perturbation (R530–R533) -/

/-- Armed (R530). -/
def State.armed (s : State) : Bool := s.n 0x2E80 1 = 2

/-- Some sub of perturbation object 0x2E81 + k holds a non-default value (R567, 0x0801). CORRUPT_FIRED is a result,
not a setting. -/
def State.perturbSet (s : State) (k : Nat) : Bool :=
  s.od.any (fun e => e.1 / 256 = 0x2E81 + k && e.1 ≠ odKey 0x2E84 2)

/-- A record of this type and length would be admitted now (R517, R518). -/
def State.recordable (s : State) (typ len : Nat) : Bool :=
  s.n 0x2D00 9 = 1 && len ≤ s.allowance (typ / 256) && s.n 0x2D00 3 + queueBytes s.log.queue + len ≤ logSpace &&
  queueBytes s.log.queue + len ≤ 4096

/-- An arming: refused and counted in the cases of R531, else its 0x0801 record is queued (R530). -/
def State.doArm (s : State) (master : Nat) : State :=
  if (s.n 0x2001 1 = 1 && s.n 0x2E80 2 = 0) || !s.recordable 0x0801 24 || s.n 0x2E80 1 ≠ 0 then s.cnt 0x2E80 6
  else
    let bits := (List.range 8).foldl (fun b k => if s.perturbSet k then b + 2 ^ k else b) 0
    let q := s.log.nextSeq
    let s := (s.record 0x0801 (body [(master, 1), (0, 1), (bits, 2)])).wr 0x2E80 1 1
    { s with sup := { s.sup with armSeq := some q } }

/-- Disarm (R530, R531) with the reason of the 0x0802 record (R567). -/
def State.disarm (s : State) (master reason : Nat) : State :=
  if s.n 0x2E80 1 = 0 then s
  else
    let s := s.record 0x0802 (body [(master, 1), (reason, 1), (0, 2), (s.n 0x2E80 7, 4)])
    let s := { s with sup := { s.sup with armSeq := none, autoTimer := false, jitter := 0 } }
    (s.wr 0x2E80 1 0).event 0x2E00 6 0x80

/-- Flip stored bits of a bank word at arming (R533, 0x2E85): one bit leaves a correctable word, two different bits a
double-bit error whose data bits read flipped. -/
def State.flipBits (s : State) (a b1 b2 : Nat) (double : Bool) : State :=
  let flip (s : State) (b : Nat) : State :=
    if b < 64 then s.setByte (a + b / 8) (s.byte (a + b / 8) ^^^ BitVec.twoPow 8 (b % 8)) else s
  if double && b1 ≠ b2 then (((flip (flip s b1) b2).setDbe a true).setSbe a false).cnt 0x2E80 7
  else if double then s
  else if s.hasDbe a || s.hasSbe a then ((flip s b1).setDbe a true).cnt 0x2E80 7
  else (s.setSbe a true).cnt 0x2E80 7

/-- The arming record has committed: the device becomes armed (R530). -/
def State.becomeArmed (s : State) : State :=
  let s := { s with sup := { s.sup with
    armSeq := none, autoTimer := true, patternBit := 0, symbolDone := false, canDone := false } }
  let s := (((s.wr 0x2E80 1 2).wr 0x2E84 2 0).cnt 0x2E80 5).event 0x2E00 6 0x40
  let a := s.n 0x2E85 1
  let w := s.n 0x2E85 2
  if s.perturbSet 4 && inBank a && s.bankOn (a / 0x10_0000) then
    s.flipBits a (fieldOf w 0 7) (fieldOf w 8 7) (bitOf w 15)
  else s

/-- PERTURB_ARM (R530, R531): the arm signature written to 0x2E80:01. -/
def execPerturbArm (p : Path) (v : Word) (s : State) : Res :=
  .next (if v.toNat = 0 then s else s.guard p 0x2E80 1 v.toNat (fun s => s.doArm p.id.val))

/-- PERTURB_ARMED (R530): its record has committed. -/
def execPerturbArmed (s : State) : Res :=
  .next (match s.sup.armSeq with
    | some q => if s.log.queue.any (fun r => r.seq = q) then s else s.becomeArmed
    | none => s)

/-- PERTURB_DISARM (R530): 0 written to 0x2E80:01. -/
def execPerturbDisarm (p : Path) (v : Word) (s : State) : Res :=
  .next (if v.toNat ≠ 0 then s else s.guard p 0x2E80 1 0 (fun s => s.disarm p.id.val 0))

/-- TEST_IN_SERVICE may be written by the Lattice keeper only: on the keeper a secure path, on a member a secure
access under ID 36 acting for the keeper's address (R532). -/
def State.keeperWrite (s : State) (p : Path) (keeper : Bool) : Bool :=
  p.secure && (s.n 0x2800 0xE = 3 || (p.id.val = 36 && keeper))

/-- A write of TEST_IN_SERVICE (R532): 1 starts TEST_TIMEOUT; each write is recorded. -/
def State.doTestInService (s : State) (p v : Nat) : State :=
  let s := (s.wr 0x2E80 2 v).record 0x0803 (body [(v, 1), (p, 1), (0, 2)])
  { s with sup := { s.sup with testTimer := decide (v = 1) } }

/-- TEST_IN_SERVICE_WRITE (R532). -/
def execTestInServiceWrite (p : Path) (v : Word) (keeper : Bool) (s : State) : Res :=
  .next (if s.keeperWrite p keeper then s.guard p 0x2E80 2 v.toNat (fun s => s.doTestInService p.id.val v.toNat)
         else s.violate p.id.val)

/-- TEST_TIMEOUT_EXPIRY (R531, R532): the flag clears; with HOLD_N high the device disarms. -/
def execTestTimeoutExpiry (s : State) : Res :=
  .next (if s.sup.testTimer then
    let s := ({ s with sup := { s.sup with testTimer := false } }).wr 0x2E80 2 0
    if s.n 0x2001 1 = 1 then s.disarm 0 2 else s
  else s)

/-- AUTO_DISARM_EXPIRY (R531). -/
def execAutoDisarmExpiry (s : State) : Res :=
  .next (if s.sup.autoTimer then s.disarm 0 3 else s)

/-- The pattern bit that applies now (R533, 0x2E81). -/
def State.backPressure (s : State) (station : Nat) : Bool :=
  s.armed && s.bit 0x2E81 1 station && s.bit 0x2E81 2 s.sup.patternBit

/-- BACKPRESSURE_SLOT (R533): the next bit of PATTERN, least significant first, then repeated. -/
def execBackpressureSlot (s : State) : Res :=
  .next (if s.armed && s.n 0x2E81 1 ≠ 0 then
    let b := (s.sup.patternBit + 1) % 32
    let s := { s with sup := { s.sup with patternBit := b } }
    if s.bit 0x2E81 2 b then s.cnt 0x2E80 7 else s
  else s)

/-- SYMBOL_INJECT (R533, 0x2E86): a code violation in place of one symbol; every INTERVAL with REPEAT, else once. -/
def execSymbolInject (s : State) : Res :=
  .next (if s.armed && s.bit 0x2E86 1 4 && (s.bit 0x2E86 1 3 || !s.sup.symbolDone) then
    let s := { s with sup := { s.sup with symbolDone := true } }
    (s.cnt 0x2E80 7).emit (.symbol (fieldOf (s.n 0x2E86 1) 0 2) (s.bit 0x2E86 1 2))
  else s)

/-- JITTER_DRAW (R533, 0x2E88): an offset uniform within ±AMPLITUDE, here a free value in that range. -/
def execJitterDraw (s : State) : Res :=
  .next (if s.armed && s.bit 0x2E88 1 2 then
    let a := s.n 0x2E88 2
    let x : Int := ((s.free 32).toNat % (2 * a + 1) : Nat) - (a : Int)
    ({ s.tick with sup := { s.sup with jitter := x } }).cnt 0x2E80 7
  else s)

/-! ### TAP (R558) -/

/-- JTAG_UNLOCK (R558): a token signed for this device reaches Apex on a secure channel. -/
def execJtagUnlock (p : Path) (good : Bool) (s : State) : Res :=
  .next (if good && p.secure then
    ({ s with sup := { s.sup with jtagUnlocked := true } }).record 0x0804 (body [(p.id.val, 1)])
  else s)

/-- The instruction the TAP acts on (R558): IDCODE, BYPASS and SAMPLE/PRELOAD always; EXTEST and the debug
instructions only while unlocked and in states 0 and 4; any other acts as BYPASS. -/
def State.tapActs (s : State) (ir : TapOp) : TapOp :=
  match ir with
  | .idcode => .idcode
  | .samplePreload => .samplePreload
  | .extest => if s.sup.jtagUnlocked && (s.dev = 0 || s.dev = 4) then .extest else .bypass
  | .debug => if s.sup.jtagUnlocked && (s.dev = 0 || s.dev = 4) then .debug else .bypass
  | .bypass => .bypass
  | .unlisted => .bypass

/-- JTAG_INSTRUCTION (R558); IDCODE shifts out 0x1841_654F. -/
def execJtagInstruction (ir : TapOp) (s : State) : Res :=
  let t := s.tapActs ir
  let s := { s with sup := { s.sup with tap := t } }
  .next (if t = .idcode then s.emit (.tap 0x1841_654F) else s)

end Sys2Proof.Machine
end

