-- ==== Sys2Proof/Machine/PioOps.lean ====
section
/-! DEFINITION. PIO blocks: pins, FIFOs, bit staging, the course of an instruction (R431–R443). -/

namespace Sys2Proof.Machine

def State.pioOf (s : State) (b : Nat) : Pio := tblGet (fun _ => {}) b s.pio
def State.setPio (s : State) (b : Nat) (x : Pio) : State := { s with pio := tblSet (fun _ => {}) b x s.pio }
def State.sm (s : State) (m : Nat) : Sm := tblGet (fun _ => {}) m s.sms

/-- Configuration and data objects of SM `m` (R451, R452). -/
def State.smC (s : State) (m j : Nat) : Nat := s.n (0x2A10 + m) j
def State.smD (s : State) (m j : Nat) : Nat := s.n (0x2A40 + m) j
def smBlock (m : Nat) : Nat := m / 8

/-- The SM is enabled (R446). -/
def State.smOn (s : State) (m : Nat) : Bool := s.bit (0x2A00 + smBlock m) 1 (m % 8)

/-- Replace an SM; STATE and FIFO_LEVELS follow. -/
def State.setSm (s : State) (m : Nat) (x : Sm) : State :=
  let s := { s with sms := tblSet (fun _ => {}) m x s.sms }
  (s.wr (0x2A40 + m) 1 (if s.smOn m then x.st else 0)).wr (0x2A40 + m) 6 (x.txF.length + x.rxF.length * 256)

/-- Raise events of a block. -/
def State.pioEvent (s : State) (b k : Nat) : State := s.event (0x2A00 + b) 8 (2 ^ k)

/-! ### Pins (R432, R433) -/

/-- Pin `p` of block `b` is owned by SM `m`. -/
def State.pioOwner (s : State) (b p : Nat) : Nat := fieldOf (s.n (0x2A00 + b) 2) (4 * p) 4
def State.pioOwns (s : State) (m p : Nat) : Bool := s.pioOwner (smBlock m) p = m % 8

/-- PIN_LEVELS shows the synchronised inputs and the directions. -/
def State.pioShow (s : State) (b : Nat) : State := s.wr (0x2A00 + b) 5 ((s.pioOf b).pins.toNat + (s.pioOf b).dir.toNat * 2 ^ 16)

/-- Set bit `p` of a word to `v`. -/
def setPin (w : Half) (p : Nat) (v : Bool) : Half := if v then w ||| BitVec.twoPow 16 p else w &&& ~~~ BitVec.twoPow 16 p

/-- The SM writes bits to the level (or direction) registers of the pins from `base` on; only pins it owns change. -/
def State.pioDrive (s : State) (m base : Nat) (dir : Bool) (bits : List Bool) : State :=
  let b := smBlock m
  let put := fun (w : Half) (q : Bool × Nat) =>
    let p := (base + q.2) % 16
    if s.pioOwns m p then setPin w p q.1 else w
  let x := s.pioOf b
  let l := bits.zip (List.range bits.length)
  if dir then (s.setPio b { x with dir := l.foldl put x.dir }).pioShow b
  else s.setPio b { x with level := l.foldl put x.level }

/-- What the ball of pin `p` of block `b` is driven to, or none where it keeps its quiet state (R432, R433). -/
def State.pioBall (s : State) (b p : Nat) : Option Bool :=
  let x := s.pioOf b
  if s.pioOwner b p < 8 && x.dir.getLsbD p && !(s.n (0x2A00 + b) 4 = 1 && s.n 0x2001 1 = 0) then some (x.level.getLsbD p) else none

/-- The level register of a pin at reset: its quiet level, or 0 (R89, R432). -/
def State.pioQuiet (s : State) (b : Nat) : Half :=
  BitVec.ofNat 16 (fieldOf (s.pw.quietEn.toNat &&& s.pw.quietLevel.toNat) (16 * b) 16)

/-- New synchronised inputs of a block. -/
def State.pioInputs (s : State) (b : Nat) (pins : Half) : State := (s.setPio b { s.pioOf b with pins := pins }).pioShow b

/-- The flags of a block. -/
def State.pioFlags (s : State) (b : Nat) : Nat := s.n (0x2A00 + b) 6
def State.setPioFlags (s : State) (b v : Nat) : State := (s.wr (0x2A00 + b) 6 v).wr (0x2A00 + b) 7 v

/-! ### FIFOs (R443) -/

def State.smDepth (s : State) (m : Nat) : Nat := fieldOf (s.smC m 4) 24 2
def State.txCap (s : State) (m : Nat) : Nat := if s.smDepth m = 0 then 8 else if s.smDepth m = 1 then 16 else 0
def State.rxCap (s : State) (m : Nat) : Nat := if s.smDepth m = 0 then 8 else if s.smDepth m = 1 then 0 else 16
def State.txRoom (s : State) (m : Nat) : Bool := (s.sm m).txF.length < s.txCap m
def State.rxRoom (s : State) (m : Nat) : Bool := (s.sm m).rxF.length < s.rxCap m

/-- A word enters the TX FIFO. -/
def State.txPush (s : State) (m : Nat) (w : Word) : State := s.setSm m { s.sm m with txF := (s.sm m).txF ++ [w] }

/-- The SM takes the head of its TX FIFO into TW; TX_EMPTY when that was the last word. -/
def State.txTake (s : State) (m : Nat) : State :=
  match (s.sm m).txF with
  | [] => s
  | w :: t =>
    let s := s.setSm m { s.sm m with txF := t, tw := w, txLeft := fieldOf (s.smC m 4) 8 6 }
    if t.isEmpty then s.pioEvent (smBlock m) (16 + m % 8) else s

/-- RW as it reads: bits at or above RX_WIDTH are 0 (R439). -/
def State.rwSeen (s : State) (m : Nat) : Word := (s.sm m).rw &&& BitVec.ofNat 32 (2 ^ fieldOf (s.smC m 4) 16 6 - 1)

/-- RW goes into the RX FIFO, and is cleared; RX_NOT_EMPTY when the FIFO was empty. -/
def State.rxPut (s : State) (m : Nat) : State :=
  let x := s.sm m
  let s := s.setSm m { x with rxF := x.rxF ++ [s.rwSeen m], rw := 0, rxHave := 0 }
  if x.rxF.isEmpty then s.pioEvent (smBlock m) (8 + m % 8) else s

/-- Pop the RX FIFO; an empty one reads 0. -/
def State.rxPop (s : State) (m : Nat) : Word × State :=
  match (s.sm m).rxF with
  | [] => (0, s)
  | w :: t => (w, s.setSm m { s.sm m with rxF := t })

/-! ### Bit staging (R439) -/

/-- Take the next bit of TW. -/
def State.txBit (s : State) (m : Nat) : Bool × State :=
  let x := s.sm m
  let c := s.smC m 4
  let at' := if bitOf c 0 then x.txLeft - 1 else fieldOf c 8 6 - x.txLeft
  (x.tw.getLsbD at', s.setSm m { x with txLeft := x.txLeft - 1 })

/-- Take `n` more bits of the stream after those in `got`: all of them, or those there are when the TX FIFO runs empty. -/
def State.takeBits (s : State) (m : Nat) (got : List Bool) : Nat → List Bool × Bool × State
  | 0 => (got, true, s)
  | n + 1 =>
    if (s.sm m).txLeft ≠ 0 then
      let r := s.txBit m
      r.2.takeBits m (got ++ [r.1]) n
    else if s.bit (0x2A10 + m) 4 2 then
      if (s.sm m).txF.isEmpty then (got, false, s)
      else
        let r := (s.txTake m).txBit m
        r.2.takeBits m (got ++ [r.1]) n
    else s.takeBits m (got ++ [false]) n

/-- With AUTOSTORE, a full RW is stored; false where the FIFO has no room. -/
def State.rxFlush (s : State) (m : Nat) : Bool × State :=
  if s.bit (0x2A10 + m) 4 3 && fieldOf (s.smC m 4) 16 6 ≤ (s.sm m).rxHave then
    (if s.rxRoom m then (true, s.rxPut m) else (false, s))
  else (true, s)

/-- Place one bit into RW; a bit beyond RX_WIDTH is discarded. -/
def State.rxBit (s : State) (m : Nat) (v : Bool) : State :=
  let x := s.sm m
  let c := s.smC m 4
  let w := fieldOf c 16 6
  if w ≤ x.rxHave then s
  else
    let at' := if bitOf c 1 then w - 1 - x.rxHave else x.rxHave
    let cleared := x.rw &&& ~~~ BitVec.twoPow 32 at'
    s.setSm m { x with rw := if v then cleared ||| BitVec.twoPow 32 at' else cleared, rxHave := x.rxHave + 1 }

/-- Deliver bits into RW: none left, or those that wait for room. -/
def State.giveBits (s : State) (m : Nat) : List Bool → Option (List Bool) × State
  | [] =>
    let r := s.rxFlush m
    (if r.1 then none else some [], r.2)
  | v :: t =>
    let r := s.rxFlush m
    if r.1 then (r.2.rxBit m v).giveBits m t else (some (v :: t), r.2)

/-- The number bits spell, first bit in bit 0, and the low `n` bits of a number. -/
def bitsNat : List Bool → Nat
  | [] => 0
  | b :: t => (if b then 1 else 0) + 2 * bitsNat t
def natBits (v n : Nat) : List Bool := (List.range n).map (fun k => bitOf v k)

/-! ### The course of an instruction (R434–R437) -/

/-- OP and OPERAND of a word. -/
def pioOp (w : Half) : Nat := fieldOf w.toNat 12 4
def pioArg (w : Half) : Nat := fieldOf w.toNat 0 7

/-- The word at an address of block `b`'s instruction memory (R431, R16). -/
def State.pioWord (s : State) (b a : Nat) : Half := BitVec.ofNat 16 (s.le (0x0F00_0000 + b * 0x1000 + 2 * (a % 128)) 2)

/-- The instruction completes: the branch target, or the next address; DELAY begins; a staged WRAP takes effect at
WRAP_TOP (R434, R435, R437). -/
def State.smDone (s : State) (m : Nat) (w : Half) (branch : Option Nat) : State :=
  let x := s.sm m
  let pc := s.smD m 2
  let top := decide (pc = fieldOf x.wrap 8 7)
  let wrap := if branch.isNone && top then s.smC m 2 else x.wrap
  let next := match branch with
    | some a => a % 128
    | none => if top then fieldOf wrap 0 7 else (pc + 1) % 128
  (s.setSm m { x with latched := none, delay := fieldOf w.toNat 7 5, st := 1, taken := [], rest := none, wrap := wrap }).wr
    (0x2A40 + m) 2 next

/-- The instruction waits in state `st`. -/
def State.smStall (s : State) (m st : Nat) : State := s.setSm m { s.sm m with st := st }

/-- The instruction to execute now if its OP is `op`: the SM is enabled, not waiting and not in a delay; it is latched at
fetch (R434, R436). -/
def State.smFetch (s : State) (m op : Nat) : Option (Half × State) :=
  let x := s.sm m
  if !s.smOn m || x.st ≠ 1 || x.delay ≠ 0 then none
  else
    let w := match x.latched with | some w => w | none => s.pioWord (smBlock m) (s.smD m 2)
    if pioOp w = op then some (w, (s.setSm m { x with latched := some w }).wr (0x2A40 + m) 3 w.toNat) else none

/-- Inputs of the block. -/
def State.pioPin (s : State) (m p : Nat) : Bool := (s.pioOf (smBlock m)).pins.getLsbD (p % 16)
def State.sampleBase (s : State) (m : Nat) : Nat := fieldOf (s.smC m 5) 16 4

/-! ### What each instruction does once it is latched (R440) -/

/-- A stream-out instruction: with its `n` bits taken it goes on with `f`, or it stalls on TX. -/
def State.smTakes (s : State) (m n : Nat) (f : State → List Bool → State) : State :=
  let r := s.takeBits m (s.sm m).taken (n - (s.sm m).taken.length)
  if r.2.1 then f r.2.2 r.1 else (r.2.2.setSm m { r.2.2.sm m with taken := r.1 }).smStall m 2

/-- A stream-in instruction delivers `l` and completes, or stalls on RX. -/
def State.smGives (s : State) (m : Nat) (w : Half) (l : List Bool) : State :=
  let r := s.giveBits m l
  match r.1 with
  | none => r.2.smDone m w none
  | some t => (r.2.setSm m { r.2.sm m with rest := some t }).smStall m 3

/-- drive. -/
def State.smDrive (s : State) (m : Nat) (w : Half) : State :=
  let n := pioArg w % 16 + 1
  let base := fieldOf (s.smC m 5) 0 4
  let src := pioArg w / 32
  let go := fun (s : State) (l : List Bool) => (s.pioDrive m base false l).smDone m w none
  if src = 0 then s.smTakes m n go
  else go s (natBits (if src = 1 then s.smD m 4 else if src = 2 then s.smD m 5 else 0) n)

/-- sample: the pins are read when it executes. -/
def State.smSample (s : State) (m : Nat) (w : Half) : State :=
  s.smGives m w ((List.range (pioArg w % 16 + 1)).map (fun k => s.pioPin m (s.sampleBase m + k)))

/-- fetch. -/
def State.smLoadTw (s : State) (m : Nat) (w : Half) : State :=
  if !(s.sm m).txF.isEmpty then (s.txTake m).smDone m w none
  else if bitOf (pioArg w) 0 then
    ((s.setSm m { s.sm m with tw := BitVec.ofNat 32 (s.smC m 0xA), txLeft := fieldOf (s.smC m 4) 8 6 }).cntH (0x2A40 + m) 9
      (0x2A00 + smBlock m) 8).smDone m w none
  else s.smStall m 2

/-- store. -/
def State.smStoreRw (s : State) (m : Nat) (w : Half) : State :=
  if s.rxRoom m then (s.rxPut m).smDone m w none
  else if bitOf (pioArg w) 0 then
    ((s.setSm m { s.sm m with rw := 0, rxHave := 0 }).cntH (0x2A40 + m) 0xA (0x2A00 + smBlock m) 8).smDone m w none
  else s.smStall m 3

/-- load. -/
def State.smLoadImm (s : State) (m : Nat) (w : Half) : State :=
  let dst := pioArg w / 32
  let v := pioArg w % 32
  let base := fieldOf (s.smC m 5) 8 4
  let bits := natBits v (fieldOf (s.smC m 5) 12 3)
  let s := if dst = 0 then s.wr (0x2A40 + m) 4 v else if dst = 1 then s.wr (0x2A40 + m) 5 v
    else s.pioDrive m base (decide (dst = 3)) bits
  s.smDone m w none

/-- What await waits for holds now; KIND 2 ends with its trigger only (R442). -/
def State.awaitMet (s : State) (m : Nat) (w : Half) : Bool :=
  let a := pioArg w
  let want := bitOf a 4
  if a / 32 = 0 then s.pioPin m (a % 16) = want
  else if a / 32 = 1 then bitOf (s.pioFlags (smBlock m)) (a % 8) = want
  else if a / 32 = 3 then s.pioPin m (s.sampleBase m + a % 16) = want
  else false

/-- await: it ends now, clearing its flag with CLEAR, or it waits. -/
def State.smAwait (s : State) (m : Nat) (w : Half) : State :=
  let a := pioArg w
  if s.awaitMet m w then
    let b := smBlock m
    let s := if a / 32 = 1 && bitOf a 3 then
        s.setPioFlags b (s.pioFlags b - (s.pioFlags b &&& 2 ^ (a % 8))) else s
    s.smDone m w none
  else s.smStall m (if a / 32 = 2 then 5 else 4)

/-- flag. -/
def State.smFlag (s : State) (m : Nat) (w : Half) : State :=
  let a := pioArg w
  let b := smBlock m
  let f := 2 ^ (a % 8)
  let v := s.pioFlags b
  let s := s.setPioFlags b (if bitOf a 6 then v - (v &&& f) else v ||| f)
  let s := if bitOf a 4 then s.pioEvent b (a % 8) else s
  if bitOf a 5 && !bitOf a 6 then s.smStall m 6 else s.smDone m w none

/-- STATUS of copy. -/
def State.smStatus (s : State) (m : Nat) : Nat :=
  let x := s.sm m
  x.txF.length + x.rxF.length * 256 + s.pioFlags (smBlock m) * 2 ^ 16 + x.txLeft * 2 ^ 24

/-- The source of copy before INVERT. -/
def State.copySrc (s : State) (m k : Nat) : Word :=
  if k = 0 then BitVec.ofNat 32 (s.smD m 4)
  else if k = 1 then BitVec.ofNat 32 (s.smD m 5)
  else if k = 2 then s.rwSeen m
  else if k = 3 then (s.sm m).tw
  else if k = 4 then BitVec.ofNat 32 (bitsNat ((List.range 16).map (fun i => s.pioPin m (s.sampleBase m + i))))
  else if k = 5 then 0
  else if k = 6 then BitVec.ofNat 32 (s.smStatus m)
  else BitVec.allOnes 32

/-- copy. -/
def State.smCopy (s : State) (m : Nat) (w : Half) : State :=
  let a := pioArg w
  let v0 := s.copySrc m (a % 8)
  let v := if bitOf a 3 then ~~~ v0 else v0
  let dst := a / 16
  let base := fieldOf (s.smC m 5) 0 4
  let bits := natBits v.toNat (fieldOf (s.smC m 5) 4 4 + 1)
  if dst = 6 then s.smDone m w (some (v.toNat % 128))
  else
    let s := if dst = 0 then s.wr (0x2A40 + m) 4 v.toNat
      else if dst = 1 then s.wr (0x2A40 + m) 5 v.toNat
      else if dst = 2 then s.setSm m { s.sm m with tw := v, txLeft := fieldOf (s.smC m 4) 8 6 }
      else if dst = 3 then s.setSm m { s.sm m with rw := v, rxHave := 0 }
      else if dst = 4 then s.pioDrive m base false bits
      else if dst = 5 then s.pioDrive m base true bits
      else s
    s.smDone m w none

/-- unpack. -/
def State.smUnpack (s : State) (m : Nat) (w : Half) : State :=
  let a := pioArg w
  let dst := a / 32
  s.smTakes m (a % 32 + 1) (fun s l =>
    if dst = 0 then (s.wr (0x2A40 + m) 4 (bitsNat l)).smDone m w none
    else if dst = 1 then (s.wr (0x2A40 + m) 5 (bitsNat l)).smDone m w none
    else if dst = 2 then s.smDone m w none
    else s.smGives m w l)

/-- pack. -/
def State.smPack (s : State) (m : Nat) (w : Half) : State :=
  let a := pioArg w
  let src := a / 32
  s.smGives m w (natBits (if src = 0 then s.smD m 4 else if src = 1 then s.smD m 5 else if src = 2 then 0 else 2 ^ 32 - 1)
    (a % 32 + 1))

/-- The condition of bc (R441). -/
def State.branchHolds (s : State) (m : Nat) : Bool :=
  let x := s.sm m
  let c := fieldOf (s.smC m 6) 0 3
  let pin := s.pioPin m (fieldOf (s.smC m 5) 20 4)
  if c = 0 then pin
  else if c = 1 then !pin
  else if c = 2 then !x.txF.isEmpty
  else if c = 3 then s.rxRoom m
  else if c = 4 then s.smD m 4 ≠ s.smD m 5
  else if c = 5 then x.txLeft ≠ 0
  else if c = 6 then bitOf (s.pioFlags (smBlock m)) (fieldOf (s.smC m 6) 4 3)
  else s.smD m 4 = 0

/-- loopa and loopb on object `j`. -/
def State.smLoop (s : State) (m j : Nat) (w : Half) : State :=
  if s.smD m j ≠ 0 then (s.wr (0x2A40 + m) j (s.smD m j - 1)).smDone m w (some (pioArg w)) else s.smDone m w none

/-- A waiting instruction is tried again (R434, R439, R440). -/
def State.smResume (s : State) (m : Nat) : State :=
  let x := s.sm m
  match x.latched with
  | none => s
  | some w =>
    match x.rest with
    | some l => s.smGives m w l
    | none =>
      let op := pioOp w
      if x.st = 2 then (if op = 4 then s.smDrive m w else if op = 6 then s.smLoadTw m w else if op = 12 then s.smUnpack m w else s)
      else if x.st = 3 then (if op = 7 then s.smStoreRw m w else s)
      else if x.st = 4 then (if s.awaitMet m w then s.smAwait m w else s)
      else if x.st = 6 then (if bitOf (s.pioFlags (smBlock m)) (pioArg w % 8) then s else s.smDone m w none)
      else s

/-- The trigger an SM awaits has fired (R442): the divider restarts. -/
def State.smTimeUp (s : State) (m : Nat) : State :=
  let x := s.sm m
  match x.latched with
  | some w => (s.setSm m { x with divAt := s.ticks }).smDone m w none
  | none => s

end Sys2Proof.Machine
end

