-- ==== Sys2Proof/Machine/Pio.lean ====
section
/-! DEFINITION. PIO: the instructions, waits, control, synchronous start and DMA channels (R434–R448, R450–R454). -/

namespace Sys2Proof.Machine

/-- Run the SM's instruction if its OP is `op`. -/
def State.smRun (s : State) (m op : Nat) (f : State → Half → State) : State :=
  match s.smFetch m op with
  | some (w, t) => f t w
  | none => s

/-! ### Instructions (R440). `pins` are the block's inputs as the synchroniser gives them now. -/

def execPioB (m : Fin 32) (s : State) : Res :=
  .next (s.smRun m 0 (fun s w => s.smDone m w (some (pioArg w))))
def execPioLoopa (m : Fin 32) (s : State) : Res := .next (s.smRun m 1 (fun s w => s.smLoop m 4 w))
def execPioLoopb (m : Fin 32) (s : State) : Res := .next (s.smRun m 2 (fun s w => s.smLoop m 5 w))
def execPioBc (m : Fin 32) (pins : Half) (s : State) : Res :=
  .next ((s.pioInputs (smBlock m) pins).smRun m 3 (fun s w => s.smDone m w (if s.branchHolds m then some (pioArg w) else none)))
def execPioDrive (m : Fin 32) (s : State) : Res := .next (s.smRun m 4 (fun s w => s.smDrive m w))
def execPioSample (m : Fin 32) (pins : Half) (s : State) : Res :=
  .next ((s.pioInputs (smBlock m) pins).smRun m 5 (fun s w => s.smSample m w))
def execPioFetch (m : Fin 32) (s : State) : Res := .next (s.smRun m 6 (fun s w => s.smLoadTw m w))
def execPioStore (m : Fin 32) (s : State) : Res := .next (s.smRun m 7 (fun s w => s.smStoreRw m w))
def execPioLoad (m : Fin 32) (s : State) : Res := .next (s.smRun m 8 (fun s w => s.smLoadImm m w))
def execPioAwait (m : Fin 32) (pins : Half) (s : State) : Res :=
  .next ((s.pioInputs (smBlock m) pins).smRun m 9 (fun s w => s.smAwait m w))
def execPioFlag (m : Fin 32) (s : State) : Res := .next (s.smRun m 10 (fun s w => s.smFlag m w))
def execPioCopy (m : Fin 32) (pins : Half) (s : State) : Res :=
  .next ((s.pioInputs (smBlock m) pins).smRun m 11 (fun s w => s.smCopy m w))
def execPioUnpack (m : Fin 32) (s : State) : Res := .next (s.smRun m 12 (fun s w => s.smUnpack m w))
def execPioPack (m : Fin 32) (s : State) : Res := .next (s.smRun m 13 (fun s w => s.smPack m w))
/-- Both OP 0xE and OP 0xF. -/
def execPioNop (m : Fin 32) (s : State) : Res :=
  .next (match s.smFetch m 14 with
    | some (w, t) => t.smDone m w none
    | none => s.smRun m 15 (fun s w => s.smDone m w none))

/-- PIO_WAIT_END (R434): a waiting instruction is tried once more. -/
def execPioWaitEnd (m : Fin 32) (pins : Half) (s : State) : Res :=
  let s := s.pioInputs (smBlock m) pins
  .next (if s.smOn m && (s.sm m).st ≠ 1 then s.smResume m else s)

/-- PIO_DELAY_EXPIRY (R434): the DELAY cycles have passed. -/
def execPioDelayExpiry (m : Fin 32) (s : State) : Res :=
  .next (if s.smOn m && (s.sm m).delay ≠ 0 then s.setSm m { s.sm m with delay := 0 } else s)

/-! ### Starting and stopping (R446) -/

/-- A write of SM_ENABLE: SMs newly enabled start a divider cycle; the others keep what they hold. -/
def State.smEnable (s : State) (b v : Nat) : State :=
  let old := s.n (0x2A00 + b) 1
  let s := s.wr (0x2A00 + b) 1 v
  (List.range 8).foldl (fun s k =>
    let m := 8 * b + k
    if bitOf v k && !bitOf old k then s.setSm m { s.sm m with divAt := s.ticks } else s.setSm m (s.sm m)) s

/-- PIO_SM_ENABLE (R446): a write of SM_ENABLE that sets a bit. -/
def execPioSmEnable (q : Path) (b : Fin 4) (v : Byte) (s : State) : Res :=
  .next (if (v &&& ~~~ BitVec.ofNat 8 (s.n (0x2A00 + b.val) 1)) = 0 then s
  else s.guard q (0x2A00 + b.val) 1 v.toNat (fun s => s.smEnable b v.toNat))

/-- PIO_SM_DISABLE (R446): a write of SM_ENABLE that clears a bit; the SM stops at its cycle boundary. -/
def execPioSmDisable (q : Path) (b : Fin 4) (v : Byte) (s : State) : Res :=
  .next (if (BitVec.ofNat 8 (s.n (0x2A00 + b.val) 1) &&& ~~~ v) = 0 then s
  else s.guard q (0x2A00 + b.val) 1 v.toNat (fun s => s.smEnable b v.toNat))

/-- RESTART. -/
def State.smRestart (s : State) (m : Nat) : State :=
  (s.setSm m { s.sm m with latched := none, delay := 0, st := 1, taken := [], rest := none, tw := 0, txLeft := 0, rw := 0
                           rxHave := 0 }).wr (0x2A40 + m) 2 (s.smC m 3)

/-- PIO_RESTART (R446). -/
def execPioRestart (q : Path) (m : Fin 32) (v : Word) (s : State) : Res :=
  .next (s.guard q (0x2A10 + m.val) 8 v.toNat (fun s => if v = 1 then s.smRestart m else s))

/-- Both FIFOs are emptied. -/
def State.smClear (s : State) (m : Nat) : State := s.setSm m { s.sm m with txF := [], rxF := [] }

/-- PIO_FIFO_CLEAR (R451). -/
def execPioFifoClear (q : Path) (m : Fin 32) (v : Word) (s : State) : Res :=
  .next (s.guard q (0x2A10 + m.val) 9 v.toNat (fun s => if v = 1 then s.smClear m else s))

/-- A write of WRAP: at once while the SM is disabled, staged otherwise (R437). -/
def State.smWrap (s : State) (m v : Nat) : State :=
  let s := s.wr (0x2A10 + m) 2 v
  if s.smOn m then s else s.setSm m { s.sm m with wrap := v }

/-- PIO_WRAP_WRITE (R437). -/
def execPioWrapWrite (q : Path) (m : Fin 32) (v : Half) (s : State) : Res :=
  .next (s.guard q (0x2A10 + m.val) 2 v.toNat (fun s => s.smWrap m v.toNat))

/-- A write of STREAM: a change of DEPTH empties both FIFOs (R443). -/
def State.smStream (s : State) (m v : Nat) : State :=
  let old := s.smDepth m
  let s := s.wr (0x2A10 + m) 4 v
  if s.smDepth m = old then s else s.smClear m

/-! ### Synchronous start (R447, R453) -/

/-- The masks are applied on one tick: stop, restart of dividers, start. -/
def State.syncApply (s : State) : State :=
  let start := s.n 0x2A80 1
  let restart := s.n 0x2A80 2
  let stop := s.n 0x2A80 3
  let s := (s.wr 0x2A80 5 0).cnt 0x2A80 6
  let s := (List.range 4).foldl (fun s b =>
    let old := s.n (0x2A00 + b) 1
    s.smEnable b ((old - (old &&& fieldOf stop (8 * b) 8)) ||| fieldOf start (8 * b) 8)) s
  let s := (List.range 32).foldl (fun s m => if bitOf restart m then s.setSm m { s.sm m with divAt := s.ticks } else s) s
  (List.range 4).foldl (fun s b => if fieldOf (start ||| restart ||| stop) (8 * b) 8 = 0 then s else s.pioEvent b 26) s

/-- A write of COMMAND: 1 arms, 2 cancels an armed command. -/
def State.syncCommand (s : State) (v : Nat) : State :=
  if v = 1 then s.wr 0x2A80 5 1
  else if s.n 0x2A80 5 = 1 then (s.wr 0x2A80 5 0).cnt 0x2A80 7
  else s

/-- PIO_SYNC_APPLY_ARM (R447). -/
def execPioSyncApplyArm (q : Path) (s : State) : Res := .next (s.guard q 0x2A80 5 1 (fun s => s.syncCommand 1))

/-- PIO_SYNC_CANCEL (R447). -/
def execPioSyncCancel (q : Path) (s : State) : Res := .next (s.guard q 0x2A80 5 2 (fun s => s.syncCommand 2))

/-- PIO_SYNC_APPLY (R447): the tick after the command reached the rim; with AT_TRIGGER the trigger's firing applies it. -/
def execPioSyncApply (s : State) : Res := .next (if s.n 0x2A80 5 = 1 && !s.bit 0x2A80 4 7 then s.syncApply else s)

/-- What a firing of trigger `t` of domain `d` does in the PIO blocks (R442, R447). -/
def State.pioTrigger (s : State) (d t : Nat) : State :=
  let k := t + d * 16
  let s := (List.range 32).foldl (fun s m =>
    if s.smOn m && (s.sm m).st = 5 && s.smC m 7 = k then s.smTimeUp m else s) s
  if s.n 0x2A80 5 = 1 && s.bit 0x2A80 4 7 && fieldOf (s.n 0x2A80 4) 0 6 = k then s.syncApply else s

/-! ### Flags and FIFO objects (R442, R444, R452) -/

/-- PIO_FLAG_SET_WRITE (R442). -/
def execPioFlagSetWrite (q : Path) (b : Fin 4) (v : Byte) (s : State) : Res :=
  .next (s.guard q (0x2A00 + b.val) 6 v.toNat (fun s => s.setPioFlags b (s.pioFlags b ||| v.toNat)))

/-- PIO_FLAG_CLEAR_WRITE (R442). -/
def execPioFlagClearWrite (q : Path) (b : Fin 4) (v : Byte) (s : State) : Res :=
  .next (s.guard q (0x2A00 + b.val) 7 v.toNat (fun s => s.setPioFlags b (s.pioFlags b - (s.pioFlags b &&& v.toNat))))

/-- PIO_TX_FIFO_PUSH (R452). -/
def execPioTxFifoPush (q : Path) (m : Fin 32) (v : Word) (s : State) : Res :=
  .next (s.guard q (0x2A40 + m.val) 7 v.toNat (fun s => s.txPush m v))

/-- PIO_RX_FIFO_POP (R452): a FIFO that a channel drains may not be popped (R444). -/
def execPioRxFifoPop (q : Path) (m : Fin 32) (s : State) : Res :=
  .next (if s.readOk q (0x2A40 + m.val) 8 && !s.pioDrained m then
    let r := s.rxPop m
    r.2.emit (.reply q.id.val (leBytes r.1.toNat 4) false)
  else (s.violate q.id.val).emit (.reply q.id.val (zeros 4) false))

/-! ### DMA channels (R445, R454) -/

def dmaIdx (k : Nat) : Nat := 0x2A90 + k
def State.dmaSm (s : State) (k : Nat) : Nat := fieldOf (s.n (dmaIdx k) 1) 8 5

/-- A write of CONTROL with ENABLE = 1. -/
def State.dmaStart (s : State) (k v : Nat) : State :=
  let i := dmaIdx k
  (((s.wr i 1 v).wr i 4 (s.n i 3)).wr i 8 (s.n i 2)).wr i 5 1

/-- STOP. -/
def State.dmaStop (s : State) (k : Nat) : State := if s.n (dmaIdx k) 5 = 1 then s.wr (dmaIdx k) 5 3 else s

/-- Accepted writes of CONTROL. -/
def State.dmaControl (s : State) (k v : Nat) : State :=
  if bitOf v 0 then s.dmaStart k v else (s.dmaStop k).wr (dmaIdx k) 1 v

/-- PIO_DMA_ENABLE (R454). -/
def execPioDmaEnable (q : Path) (k : Fin 64) (v : Word) (s : State) : Res :=
  .next (if bitOf v.toNat 0 then s.guard q (dmaIdx k) 1 v.toNat (fun s => s.dmaControl k v.toNat) else s)

/-- PIO_DMA_STOP (R445): a write of STOP. -/
def execPioDmaStop (q : Path) (k : Fin 64) (v : Word) (s : State) : Res :=
  .next (s.guard q (dmaIdx k) 6 v.toNat (fun s => if v = 1 then s.dmaStop k else s))

/-- The address after `a` with RING `r`. -/
def ringNext (a r : Nat) : Nat :=
  if r = 0 then (a + 4) % 2 ^ 32 else a / 2 ^ r * 2 ^ r + (a + 4) % 2 ^ r

/-- One word was moved: count it, and end or repeat after COUNT words. -/
def State.dmaMoved (s : State) (k : Nat) : State :=
  let i := dmaIdx k
  let left := s.n i 4 - 1
  let s := ((s.cnt i 7).wr i 4 left).wr i 8 (ringNext (s.n i 8) (fieldOf (s.n i 1) 16 4))
  if left ≠ 0 then s
  else if s.bit i 1 20 then (s.wr i 4 (s.n i 3)).wr i 8 (s.n i 2)
  else (s.wr i 5 2).pioEvent (smBlock (s.dmaSm k)) 24

/-- PIO_DMA_WORD (R445): one word, when the FIFO allows and its bank is ON (R448). -/
def execPioDmaWord (k : Fin 64) (s : State) : Res :=
  let i := dmaIdx k
  let m := s.dmaSm k
  let a := s.n i 8
  .next (if s.n i 5 ≠ 1 || !s.ready a then s
  else if s.bit i 1 1 then
    if (s.sm m).rxF.isEmpty then s
    else
      let r := s.rxPop m
      (r.2.memWrite { id := 39, secure := true } a (leBytes r.1.toNat 4)).dmaMoved k
  else if !s.txRoom m then s
  else
    let r := s.dmaRead 39 a 4
    if r.2.1 then (r.2.2.wr i 5 4).pioEvent (smBlock m) 25
    else (r.2.2.txPush m (BitVec.ofNat 32 (leNat r.1))).dmaMoved k)

/-- Accepted writes of PIO objects. -/
def State.effPio (s : State) (i j v : Nat) : Option State :=
  if 0x2A00 ≤ i ∧ i ≤ 0x2A03 then
    let b := i - 0x2A00
    if j = 1 then some (s.smEnable b v)
    else if j = 6 then some (s.setPioFlags b (s.pioFlags b ||| v))
    else if j = 7 then some (s.setPioFlags b (s.pioFlags b - (s.pioFlags b &&& v)))
    else none
  else if 0x2A10 ≤ i ∧ i ≤ 0x2A2F then
    let m := i - 0x2A10
    if j = 2 then some (s.smWrap m v)
    else if j = 4 then some (s.smStream m v)
    else if j = 8 then some (if v = 1 then s.smRestart m else s)
    else if j = 9 then some (if v = 1 then s.smClear m else s)
    else none
  else if 0x2A40 ≤ i ∧ i ≤ 0x2A5F ∧ j = 7 then some (s.txPush (i - 0x2A40) (BitVec.ofNat 32 v))
  else if i = 0x2A80 ∧ j = 5 then some (s.syncCommand v)
  else if 0x2A90 ≤ i ∧ i ≤ 0x2ACF then
    let k := i - 0x2A90
    if j = 1 then some (s.dmaControl k v)
    else if j = 6 then some (if v = 1 then s.dmaStop k else s)
    else none
  else none

end Sys2Proof.Machine
end

