-- ==== Sys2Proof/Machine/Locus.lean ====
section
/-! DEFINITION. The Locus: staging of records, late records, swaps, aborts (R350–R365). -/

namespace Sys2Proof.Machine

def State.setTrkS (s : State) (t j v : Nat) : State := s.wr (0x2720 + t) j v
def State.trkCnt (s : State) (t j : Nat) : State := s.cntH (0x2720 + t) j 0x2700 7

/-- Add a signed number of ns to a 32-bit time. -/
def addNs (t : Nat) (d : Int) : Nat := (((t : Int) + d) % 2 ^ 32).toNat

/-- The instant of the source that follows `after`, given one of its instants and its period (R354). -/
def nextInstant (anchor period after : Nat) : Nat :=
  let r := ((signed32 (anchor + 2 ^ 32 - after)) % (period : Int)).toNat
  (after + (if r = 0 then period else r)) % 2 ^ 32

/-! ### Cycles (R354, R361) -/

/-- T(c) of the track's next cycle: for a ring, from the latest reference. -/
def State.trkT (s : State) (t : Nat) : Nat :=
  let x := s.track t
  match s.trkSource t with
  | some (a, p) =>
    if s.trkKind t = 0 then addNs a (signed32 (x.cycle + 2 ^ 32 - s.perS (s.trkInst t) 0xB) * p) else x.target
  | none => x.target

/-- D(c), and the start of staging. -/
def State.trkD (s : State) (t : Nat) : Nat := addNs (s.trkT t) (s.trkOff t (s.track t).cycle)
def State.trkStart (s : State) (t : Nat) : Nat := addNs (s.trkD t) (-(s.trkC t 6 : Int))

/-- The first cycle whose D(c) − LEAD lies ahead. -/
def State.trkAnchor (s : State) (t : Nat) : State :=
  let x := s.track t
  match s.trkSource t with
  | none => s
  | some (a, p) =>
    if p = 0 then s
    else
      let now := s.now32 (s.trkDom t)
      let back : Int := s.trkOff t ((s.perS (s.trkInst t) 0xB + 1) % 2 ^ 32) - s.trkC t 6
      let start := nextInstant (addNs a back) p now
      let target := addNs start (-back)
      let c := if s.trkKind t = 0 then
          addNs (s.perS (s.trkInst t) 0xB) ((signed32 (target + 2 ^ 32 - a)) / p) else x.cycle
      s.setTrack t { x with target := target, cycle := c }

/-- The track turns to the next cycle. -/
def State.trkNext (s : State) (t : Nat) : State :=
  let x := s.track t
  let target := match s.trkSource t with
    | some (a, p) => if p = 0 then x.target else nextInstant a p (s.trkT t)
    | none => x.target
  s.setTrack t { x with cycle := (x.cycle + 1) % 2 ^ 32, target := target, snap := [], data := none, late := false, push := [] }

/-! ### Enable, end, abort (R357, R359, R362) -/

/-- The track stops, leaving an armed swap to the others. -/
def State.trkStop (s : State) (t st : Nat) : State :=
  let s := (s.wr (0x2710 + t) 1 0).setTrkS t 1 st
  let x := s.track t
  (s.setTrack t { x with snap := [], data := none, late := false, push := [], abortReq := false }).swapLeave t

/-- A write of ENABLE. -/
def State.trkEnable (s : State) (t v : Nat) : State :=
  if v = 0 then (if s.trkC t 1 = 1 then s.trkStop t 0 else s)
  else if s.trkC t 1 = 1 then s
  else
    let table := (s.setTable t 9).getD []
    let s := ((s.wr (0x2710 + t) 1 1).setTrkS t 1 1).setTrkS t 0xC 0
    (s.setTrack t { table := table }).trkAnchor t

/-- TRACK_ENABLE (R357). -/
def execTrackEnable (q : Path) (t : Fin 16) (v : Word) (s : State) : Res :=
  .next (s.guard q (0x2710 + t.val) 1 v.toNat (fun s => s.trkEnable t v.toNat))

/-- A write to a memory destination is running. -/
def State.trkWriting (s : State) (t : Nat) : Bool :=
  s.trkS t 1 = 2 && (s.track t).data.isSome && s.trkDest t ≠ 2

/-- ABORT (R27, R362). -/
def State.trkAbort (s : State) (t : Nat) : State :=
  if s.trkC t 1 ≠ 1 then s
  else if s.trkWriting t then s.setTrack t { s.track t with abortReq := true }
  else (s.setTrkS t 0xC 1).trkStop t 0

/-- TRACK_ABORT (R362). -/
def execTrackAbort (q : Path) (t : Fin 16) (v : Byte) (s : State) : Res :=
  .next (s.guard q (0x2720 + t.val) 0xC v.toNat (fun s => s.trkAbort t))

/-! ### The course of the pattern (R351, R352, R359) -/

/-- INDEX, REPEAT_ENTRY and REPEAT_PASS after a record; at the end of a set they stay. -/
def State.trkAdvance (s : State) (t : Nat) : State :=
  let adv := s.trkC t 0xC
  let i := s.trkS t 2
  let e := s.trkS t 3
  let len := s.trkC t 0xB
  let ended := fun (s : State) => s.setTrack t { s.track t with overrun := true }
  if adv = 0 then (if len ≤ i + 1 then ended s else s.setTrkS t 2 (i + 1))
  else if adv = 1 then s.setTrkS t 2 ((i + 1) % len)
  else
    let tab := (s.track t).table
    match tab[e]? with
    | none => ended s
    | some (first, last, count) =>
      if i < last then s.setTrkS t 2 (i + 1)
      else if s.trkS t 4 + 1 < count then (s.setTrkS t 4 (s.trkS t 4 + 1)).setTrkS t 2 first
      else if e + 1 < tab.length ∨ adv = 3 then
        let e' := if e + 1 < tab.length then e + 1 else 0
        ((s.setTrkS t 4 0).setTrkS t 3 e').setTrkS t 2 ((tab.getD e' (0, 0, 0)).1)
      else ended s

/-- A swap that takes effect with the track's next cycle (R359, R360). -/
def State.swapDue (s : State) (t : Nat) : Bool :=
  s.n 0x2700 5 = 1 && bitOf s.locus.swapLeft t && s.n 0x2700 3 = (s.track t).cycle

/-- The end of a set. -/
def State.trkEnd (s : State) (t : Nat) : State := (s.trkStop t 4).locusEvent 18

/-- The cycle is over: the index advances, and the track waits for the next cycle or ends. -/
def State.trkFinish (s : State) (t : Nat) : State :=
  let s := ((s.trkAdvance t).trkNext t).setTrkS t 1 1
  if (s.track t).overrun && !s.swapDue t then s.trkEnd t else s

/-- The STANDBY set becomes ACTIVE and the other way round (R360). -/
def State.trkSwap (s : State) (t : Nat) : State :=
  let s := (List.range 6).foldl (fun (s : State) k =>
    let a := s.trkC t (9 + k)
    let b := s.trkC t (0xF + k)
    (s.wr (0x2710 + t) (9 + k) b).wr (0x2710 + t) (0xF + k) a) s
  let x := s.track t
  let first := match x.standby with | (f, _, _) :: _ => f | [] => 0
  let s := s.setTrack t { x with table := x.standby, standby := x.table, overrun := false }
  (((s.setTrkS t 2 first).setTrkS t 3 0).setTrkS t 4 0).swapLeave t

/-! ### Staging (R353, R356, R358) -/

/-- The record of the present index. -/
def State.trkAddr (s : State) (t : Nat) : Nat := s.trkC t 9 + s.trkS t 2 * s.trkC t 0xA

/-- The read may begin: for a ring, the reference of c − 1 has been accepted (R356). -/
def State.trkMayRead (s : State) (t : Nat) : Bool :=
  s.trkKind t ≠ 0 || decide (signed32 ((s.track t).cycle + 2 ^ 32 - s.perS (s.trkInst t) 0xB) ≤ 1)

/-- LOCUS_STAGING_START (R356, R361). -/
def State.trkBegin (s : State) (t : Nat) : State :=
  let st := s.trkS t 1
  if s.trkC t 1 ≠ 1 || (st ≠ 1 && st ≠ 3) || (s.trkSource t).isNone || !isDue (s.now32 (s.trkDom t)) (s.trkStart t) then s
  else if !s.trkHeld t && st = 3 && 6 < lateness (s.now32 (s.trkDom t)) (s.trkStart t) then (s.trkAnchor t).setTrkS t 1 1
  else if !s.trkHeld t && !s.trkMayRead t then s
  else
    let s := if s.swapDue t then s.trkSwap t else s
    if (s.track t).overrun then s.trkEnd t
    else if s.trkHeld t then ((s.trkCnt t 9).trkNext t).setTrkS t 1 3
    else
      let s := (s.setTrkS t 1 2).setTrkS t 5 (s.track t).cycle
      s.setTrack t { s.track t with snap := s.bytes (s.trkAddr t) (s.trkLen t) }

def execLocusStagingStart (t : Fin 16) (dt : Nat) (s : State) : Res := .next ((s.advance dt).trkBegin t)

/-- Words of a record for a FIFO. -/
def recWords (d : List Byte) : List Word := (List.range (d.length / 4)).map (fun k => BitVec.ofNat 32 (leNat ((d.drop (4 * k)).take 4)))

/-- The record to be written. -/
def State.trkWrite (s : State) (t : Nat) (d : List Byte) (late : Bool) : State :=
  s.setTrack t { s.track t with snap := [], data := some d, late := late, push := if s.trkDest t = 2 then recWords d else [] }

/-- HOLD_REQUEST takes a value: its reason follows (R76). -/
def State.holdRequest (s : State) (v : Nat) : State :=
  let s := s.wr 0x2001 4 v
  if v = 1 then s.hold 0x20 else s.unhold 0x20

/-- A late record (R358). -/
def State.trkLate (s : State) (t : Nat) (dbe : Bool) : State :=
  let s := (s.trkCnt t 7).locusEvent t
  let s := if dbe then (s.trkCnt t 8).locusEvent 19 else s
  let pol := s.trkC t 8
  let s := if bitOf pol 1 then s.holdRequest 1 else s
  let safe := List.replicate (s.trkLen t) (BitVec.ofNat 8 (pol / 256))
  if bitOf pol 0 then s.trkWrite t safe true
  else match (s.track t).prev with
    | none => s.trkWrite t safe true
    | some d => if s.trkDest t = 2 then s.trkWrite t d true else s.trkFinish t

/-- The record as the read took it, word by word: a word written while the read ran is the one from before or the one from
after, and which of them is free (R353). -/
def State.mixWords (s : State) (old new : List Byte) : Nat → List Byte × State
  | 0 => ([], s)
  | n + 1 =>
    let a := old.take 8
    let b := new.take 8
    if a = b then
      let r := s.mixWords (old.drop 8) (new.drop 8) n
      (a ++ r.1, r.2)
    else
      let w := if s.free 1 = 1 then b else a
      let r := s.tick.mixWords (old.drop 8) (new.drop 8) n
      (w ++ r.1, r.2)

/-- The track is reading its record. -/
def State.trkReading (s : State) (t : Nat) : Bool := s.trkS t 1 = 2 && (s.track t).data.isNone

/-- The read has ended `now` after D(c) − WB (R358): D(c) − now − WB. -/
def State.trkSlack (s : State) (t : Nat) : Int :=
  signed32 (s.trkD t + 2 ^ 32 - s.now32 (s.trkDom t)) - s.trkWb t

/-- LOCUS_READ_DONE (R356, R358): a bank that is not ON holds the read up (R459). -/
def State.trkReadDone (s : State) (t : Nat) : State :=
  let a := s.trkAddr t
  let n := s.trkLen t
  if !s.trkReading t || !s.ready a || !s.ready (a + n - 1) then s
  else
    let r := s.dmaRead 38 a n
    let slack := s.trkSlack t
    if r.2.1 then r.2.2.trkLate t true
    else if slack < 0 then r.2.2.trkLate t false
    else
      let m := r.2.2.mixWords (s.track t).snap r.1 (n / 8)
      let s := m.2.setTrack t { m.2.track t with slack := slack }
      s.trkWrite t m.1 false

def execLocusReadDone (t : Fin 16) (dt : Nat) (s : State) : Res := .next ((s.advance dt).trkReadDone t)

/-- LOCUS_DEADLINE_MISS (R358): D(c) − WB has passed while the read runs. -/
def execLocusDeadlineMiss (t : Fin 16) (dt : Nat) (s : State) : Res :=
  let s := s.advance dt
  .next (if s.trkReading t && decide (s.trkSlack t < 0) then s.trkLate t false else s)

/-- LOCUS_PIO_PUSH (R356): the next word, when the FIFO has room. -/
def execLocusPioPush (t : Fin 16) (s : State) : Res :=
  let m := fieldOf (s.trkC t 3) 8 5
  .next (match (s.track t).push with
    | [] => s
    | w :: l => if s.txRoom m then (s.txPush m w).setTrack t { s.track t with push := l } else s)

/-- The Locus's path (R20). -/
def locusPath : Path := { id := 38, secure := true }

/-- Where a record goes in memory, or none (R355). -/
def State.trkTarget (s : State) (t : Nat) : Option Nat :=
  if s.trkDest t = 0 then (s.trkEntry t (s.track t).cycle).map (fun e => entW e 4 + s.trkC t 4)
  else if s.trkDest t = 2 then none
  else some (s.trkC t 4)

/-- The record goes to its destination; an AREA as R180 states. -/
def State.trkStore (s : State) (t : Nat) (d : List Byte) : State :=
  match s.trkTarget t with
  | none => s
  | some a =>
    if s.trkDest t = 3 then
      let old := s.w32 a
      let s := s.dmaWrite locusPath a (leBytes 0xFFFF_FFFF 4)
      let s := s.dmaWrite locusPath (a + 0x10) d
      let s := s.dmaWrite locusPath (a + 4) (leBytes (s.trkS t 2) 4)
      let s := s.dmaWrite locusPath (a + 8) (leBytes (s.track t).cycle 4 ++ zeros 4)
      s.dmaWrite locusPath a (leBytes (if 0xFFFF_FFFE ≤ old then 0 else old + 1) 4)
    else s.dmaWrite locusPath a d

/-- The commit point (R25, R356). -/
def State.trkStaged (s : State) (t : Nat) : State :=
  let x := s.track t
  let there := match s.trkTarget t with | some a => s.ready a && s.ready (a + s.trkLen t + 15) | none => true
  match x.data with
  | none => s
  | some d =>
    if s.trkS t 1 ≠ 2 || !x.push.isEmpty || !there then s
    else
      let s := s.trkStore t d
      let s := if x.late then s
        else
          let low := if x.slack < signed32 (s.trkS t 0xB) then x.slack else signed32 (s.trkS t 0xB)
          let s := ((s.trkCnt t 6).setTrkS t 0xA (x.slack % 2 ^ 32).toNat).setTrkS t 0xB (low % 2 ^ 32).toNat
          s.setTrack t { s.track t with prev := some d }
      if x.abortReq then (s.setTrkS t 0xC 2).trkStop t 0 else s.trkFinish t

/-- LOCUS_STAGED (R356). -/
def execLocusStaged (t : Fin 16) (s : State) : Res := .next (s.trkStaged t)

/-! ### Swaps (R360) -/

/-- Arm the swap of SWAP_MASK. -/
def State.swapArm (s : State) (tied : Bool) : State :=
  let s := s.swapTracks.foldl (fun s t => s.setTrack t { s.track t with standby := (s.setTable t 0xF).getD [] }) s
  { s with locus := { swapSet := s.n 0x2700 2, swapLeft := s.n 0x2700 2, tied := tied } }.wr 0x2700 5 1

/-- Cancel, until staging for SWAP_CYCLE has begun. -/
def State.swapStop (s : State) : State :=
  if s.n 0x2700 5 = 1 && s.locus.swapLeft = s.locus.swapSet then s.swapCancel else s

/-- A write of SWAP_COMMAND. -/
def State.swapCommand (s : State) (v : Nat) : State := if v = 2 then s.swapStop else s.swapArm (decide (v = 3))

def execSwapArm (q : Path) (s : State) : Res := .next (s.guard q 0x2700 4 1 (fun s => s.swapCommand 1))
def execSwapCancel (q : Path) (s : State) : Res := .next (s.guard q 0x2700 4 2 (fun s => s.swapCommand 2))
def execSwapArmTied (q : Path) (s : State) : Res := .next (s.guard q 0x2700 4 3 (fun s => s.swapCommand 3))

/-- Accepted writes of Locus objects. -/
def State.effLocus (s : State) (i j v : Nat) : Option State :=
  if i = 0x2700 ∧ j = 4 then some (s.swapCommand v)
  else if 0x2710 ≤ i ∧ i ≤ 0x271F ∧ j = 1 then some (s.trkEnable (i - 0x2710) v)
  else if 0x2720 ≤ i ∧ i ≤ 0x272F ∧ j = 0xC then some (s.trkAbort (i - 0x2720))
  else none

end Sys2Proof.Machine
end

