-- ==== Sys2Proof/Machine/Triggers.lean ====
section
/-! DEFINITION. A compare trigger fires and signals the rim consumers that name it (R268). -/

namespace Sys2Proof.Machine

/-- TRIGGER_FIRE (R268): the PIO blocks follow on the same tick (R442, R447); a Locus track takes its instants from the
trigger's targets (R354). -/
def execTriggerFire (d : Fin 4) (t : Fin 16) (dt : Nat) (s : State) : Res :=
  let s := s.advance dt
  .next (match s.trigFire d t with
    | some u => u.pioTrigger d t
    | none => s)

end Sys2Proof.Machine
end

