-- ==== Sys2Proof/Machine/Power.lean ====
section
/-! DEFINITION. HOLD_N, resets of every reach, loss of the rim PLL's lock, Doze and Standby (spec/03, R13). -/

namespace Sys2Proof.Machine

/-! ### HOLD_N (R73–R76) -/

/-- A release (R74, R75): `odds` 0 when nothing overtakes it; 1 when a hold reason reaches the rim before HOLD_N would
rise; 2 when the reason comes after the rise. An accepted release ends an arming while TEST_IN_SERVICE is 0 (R531) and
is bring-up step 11. -/
def State.holdRelease (s : State) (odds : Nat) : State :=
  if s.dev ≠ 1 || s.n 0x2001 2 ≠ 0 then (s.cnt 0x2001 5).event 0x2000 5 8
  else
    let s := if s.n 0x2E80 2 = 0 then s.disarm 0 1 else s
    let s := if s.n 0x2000 2 = 10 then s.wr 0x2000 2 11 else s
    if odds = 1 || s.n 0x2001 1 = 1 then s
    else
      let s := s.wr 0x2001 1 1
      if odds = 2 then s else s.event 0x2000 5 4

/-- A write of HOLD_ACK (R76): the latched reasons it names are cleared unless their condition persists: a block still in
reset, the rim PLL still unlocked, the thermal reset still held. -/
def State.holdAck (s : State) (v : Nat) : State :=
  let busy := s.n 0x2004 2 ≠ 0 || s.n 0x2004 3 ≠ 0 || s.n 0x2004 4 ≠ 0 || s.n 0x2004 5 ≠ 0
  let m := (v &&& 4) + (if busy then 0 else v &&& 2) + (if s.pw.pllLocked then v &&& 8 else 0) +
    (if s.pw.thermalHeld then 0 else v &&& 0x80)
  s.unhold m

/-! ### Per-block resets (R83–R88) -/

/-- Objects of the indexes `lo` to `hi` return to their defaults, but for configuration that is no enable object (R86);
the routing entry of the event status at `lo` follows. -/
def State.dropVolatile (s : State) (lo hi : Nat) : State :=
  { s with od := tblKeep (fun k => !(lo ≤ k / 256 && k / 256 ≤ hi) ||
    (match odRow (k / 256) (k % 256) with | some r => r.kind = .stored | none => false)) s.od }

/-- A MAC port (R87, R185): its link drops, the frames queued for its egress station are discarded and counted, chord
directions that use it are disabled. -/
def State.portReset (s : State) (p : Nat) : State :=
  let s := (s.linkDown p).flushStation p
  let s := (List.range 16).foldl (fun s d =>
    if s.n (0x2500 + d) 1 = 1 && d < 8 && (d = p || s.n (0x2500 + d) 2 = p) then s.wr (0x2500 + d) 1 0 else s) s
  let s := ((s.dropVolatile (0x2300 + p) (0x2300 + p)).dropVolatile (0x2310 + p) (0x2310 + p)).route (routeOf (0x2300 + p)) false
  ((((s.setPort p {}).applyLinkCfg p).applyRxCfg p).applyTxCfg p).chordsFollow

/-- A Perimeter ring (R87): transmitters off, node state OFF; its schedule memory and windows are empty. -/
def State.ringReset (s : State) (n : Nat) : State :=
  let once := (s.ring n).guardOnce
  let s := s.perOff n
  let s := [0x2600 + n, 0x2610 + n, 0x2640 + n, 0x2650 + n, 0x2660 + n].foldl (fun s i => s.dropVolatile i i) s
  let s := s.dropVolatile (0x2620 + 8 * n) (0x2627 + 8 * n)
  (s.setRing n { guardOnce := once }).route (routeOf (0x2600 + n)) false

/-- A PIO block (R87, R432, R448): SMs off, FIFOs empty, the channels that serve them stopped, pins at their quiet
levels. The instruction memory is kept (R438). -/
def State.pioReset (s : State) (b : Nat) : State :=
  let s := (List.range 64).foldl (fun s k =>
    if fieldOf (s.n (0x2A90 + k) 1) 8 5 / 8 = b then s.dmaStop k else s) s
  let pins := (s.pioOf b).pins
  let s := s.dropVolatile (0x2A00 + b) (0x2A00 + b)
  let s := (s.dropVolatile (0x2A10 + 8 * b) (0x2A17 + 8 * b)).dropVolatile (0x2A40 + 8 * b) (0x2A47 + 8 * b)
  let s := { s with sms := tblClear (8 * b) (8 * b + 8) s.sms }
  ((s.setPio b { level := s.pioQuiet b, dir := 0, pins := pins }).pioShow b).route (routeOf (0x2A00 + b)) false

/-- The Locus (R87): every track disabled, an armed swap gone. -/
def State.locusReset (s : State) : State :=
  let s := s.dropVolatile 0x2700 0x272F
  ({ s with tracks := [], locus := {} }).route (routeOf 0x2700) false

/-- The switch core (R87): buffered frames discarded, the free list rebuilt, the delivery rings reset; learned forwarding
entries, counters and the course of lists and meters are volatile, table entries that software wrote stay (log entry 49). -/
def State.switchReset (s : State) : State :=
  let s := s.dropVolatile 0x2200 0x22AF
  let s := s.switchClear
  let s := s.setSw (fun w => { w with
    fdb := w.fdb.filter (fun e => e.2.isStatic), fdbCmd := none, gates := [], txTurn := []
    streams := w.streams.map (fun e => (e.1, { e.2 with
      blocked := false, matched := 0, passed := 0, gateDisc := 0, sduDisc := 0 }))
    sgates := w.sgates.map (fun e => (e.1, { e.2 with status := 0, ctl := {} }))
    meters := w.meters.map (fun e => (e.1, { e.2 with
      allRed := false, green := 0, yellow := 0, red := 0, cTok := e.2.cbs * 8000000, eTok := e.2.ebs * 8000000, at' := s.ticks }))
    cbs := w.cbs.map (fun e => (e.1, { e.2 with
      genSeq := 0, passed := 0, discarded := 0, outOfOrder := 0, rogue := 0, lost := 0, resets := 0, takeAny := true, recovSeq := 0
      history := 0 })) })
  (List.range 11).foldl (fun s k => s.route (if k = 0 then 0x2D else if k = 1 then 5 else 0x12 + (k - 2)) false) s

/-- A time domain (R87): time 0, its rate at the defaults, UNSYNCED, its launches, triggers and PPS outputs disabled. -/
def State.domainReset (s : State) (d : Nat) : State :=
  let i := 0x2100 + d
  let owner := s.n i 1
  let s := s.dropVolatile i i
  let s := (((s.dropSubs i 6 0xA).dropSubs i 0xE 0xE).setDomVal d 0).wr i 1 owner
  let s := (s.setTdom d {}).dropVolatile (trigIdx d 0) (trigIdx d 15)
  let s := (List.range 4).foldl (fun s k =>
    if s.ppsDom k = d then ((s.ppsRest k).dropSubs (0x2158 + k) 6 7).clrBits (0x2158 + k) 1 4 else s) s
  let s := (List.range 64).foldl (fun s k =>
    if s.bit (launchIdx k) 1 0 && s.launchDom k = d then s.launchOff k (s.n (launchIdx k) 1 - 1) else s) s
  s.unsync d

/-- The reset of one block, unless it is already held in reset (R88). -/
def State.blockReset (s : State) (master kind unit : Nat) : State :=
  if s.inReset kind unit then s
  else if kind = 2 then s.facetReset unit master 0
  else
    let s :=
      if kind = 1 then s.engineReset unit 0
      else if kind = 3 then s.portReset unit
      else if kind = 4 then s.ringReset unit
      else if kind = 5 then s.canReset unit
      else if kind = 6 then s.pioReset unit
      else if kind = 7 then s.locusReset
      else if kind = 8 then s.switchReset
      else s.domainReset unit
    s.noteBlockReset master kind unit 0

/-- The blocks a bit of a subindex of 0x2004 names (R85). -/
def blockOf (sub b : Nat) : Option (Nat × Nat) :=
  if sub = 2 then some (1, b)
  else if sub = 3 then (if b < 8 then some (2, b) else if b < 20 then some (3, b - 8) else none)
  else if sub = 4 then
    (if b < 4 then some (4, b) else if 8 ≤ b ∧ b < 12 then some (5, b - 8) else if 16 ≤ b ∧ b < 20 then some (6, b - 16) else none)
  else if b = 0 then some (7, 0)
  else if b = 1 then some (8, 0)
  else if 4 ≤ b ∧ b < 8 then some (9, b - 4)
  else none

/-- A write of 0x2004 sub 02–05: each 1 resets its block. -/
def State.blockResets (s : State) (master sub v : Nat) : State :=
  (List.range 32).foldl (fun s b =>
    if bitOf v b then (match blockOf sub b with | some (k, u) => s.blockReset master k u | none => s) else s) s

/-- The block leaves reset (R85, R86). -/
def State.blockReleased (s : State) (sub b : Nat) : State :=
  if s.bit 0x2004 sub b then (s.clrBits 0x2004 sub (2 ^ b)).event 0x2000 5 0x40 else s

/-! ### Resets of device reach (R77–R84, R99) -/

/-- How far a reset of a code of R78 reaches: 0 everything, 1 all but the AON content, 2 warm. -/
def reachOf (code : Nat) : Nat := if code = 1 then 0 else if code = 2 ∨ code = 9 then 1 else 2

/-- The wider of two causes; of two with one reach the later (R81). -/
def widest (old new : Nat) : Nat := if old ≠ 0 ∧ reachOf old < reachOf new then old else new

/-- Objects that keep their value through a reset of a reach (R99): those MRAM holds, those AON holds, the tags of the
banks, what the sensors show, and the host keys (log entry 50). -/
def odKept (reach k : Nat) : Bool :=
  let i := k / 256
  let j := k % 256
  (i = 0x2002 && (j = 1 || j = 5)) || (i = 0x2006 && (j = 4 || j = 5)) || (i = 0x2D00 && 4 ≤ j && j ≤ 7) ||
  (0x2481 ≤ i && i ≤ 0x24A0 && j ≤ 7) || i = 0x2E10 || (0x2F58 ≤ i && i ≤ 0x2F5F) ||
  (reach ≠ 0 && (i = 0x2005 || (i = 0x2003 && j = 2) || (i = 0x2000 && j = 4) || (i = 0x2008 && j = 7) ||
    (i = 0x2E00 && j = 5))) ||
  (reach = 2 && ((0x2B10 ≤ i && i ≤ 0x2B1B && 9 ≤ j) || (i = 0x2000 && j = 0xA)))

/-- Bytes that keep their value: MRAM always, retained memory but for POR, banks through a warm reset. -/
def memKept (reach a : Nat) : Bool :=
  (0x0800_0000 ≤ a && a < 0x0840_0000) || (reach ≠ 0 && 0x0C00_0000 ≤ a && a < 0x0C00_4000) || (reach = 2 && inBank a)

/-- The device with everything a reset reaches at its reset value (R78, R99). -/
def State.wiped (s : State) (reach : Nat) : State :=
  let t : State := { State.reset with
    pending := s.pending, freeCtr := s.freeCtr, out := s.out, ticks := s.ticks
    od := tblKeep (odKept reach) s.od, mem := tblKeep (memKept reach) s.mem
    store := { copyA := s.store.copyA, copyB := s.store.copyB }, opts := { copyA := s.opts.copyA, copyB := s.opts.copyB }
    memc := { bank := if reach = 2 then s.memc.bank else []
              sbe := tblKeep (fun k => memKept reach (8 * k)) s.memc.sbe
              dbe := tblKeep (fun k => memKept reach (8 * k)) s.memc.dbe }
    lat := { set := s.lat.set, addrs := s.lat.addrs }, host := { perstLow := s.host.perstLow }
    pw := { aonGood := s.pw.aonGood, coreGood := s.pw.coreGood, resetPin := s.pw.resetPin
            thermalHeld := s.pw.thermalHeld, tripNote := s.pw.tripNote, integrityNote := s.pw.integrityNote
            vddio := s.pw.vddio, vddioClass := if reach = 2 then s.pw.vddioClass else []
            causes := s.pw.causes, failAddr := s.pw.failAddr, cold := s.pw.cold } }
  let t := (List.range 4).foldl (fun t n =>
    if reach ≠ 0 && (s.ring n).guardOnce then t.setRing n { guardOnce := true } else t) t
  let keep := (if reach = 0 then 0 else s.n 0x2001 2 &&& 0x84) + (if s.n 0x2E10 0x10 = 0 then 0 else 0x40)
  ((t.wr 0x2001 2 (1 + keep)).errBit 2 (s.n 0x2E10 0x10 ≠ 0)).showLibrary

/-- A start begins (R77, R83, R266): the reset's records, the integrity events that caused it (R526), every domain
UNSYNCED; a start at step 1 counts in POWER_CYCLES (R512). -/
def State.beginStart (s : State) : State :=
  let s : State := { s with pw := { s.pw with starting := true } }
  let s : State := if s.pw.cold then s.cntS 0x2D00 5 else s
  let s : State := (List.range 4).foldl (fun s d => s.unsync d) s
  let s : State := s.record 0x0101 (body [(s.n 0x2003 1, 1), (0, 3), (s.pw.causes, 4), (s.n 0x2003 3, 4)])
  let s : State := if s.n 0x2003 3 = 0 then s else s.record 0x0201 (body [(s.n 0x2003 3, 4), (s.pw.failAddr, 4)])
  let s : State := match s.pw.tripNote with | some (k, v) => s.record 0x0905 (body [(k, 2), (v, 2)]) | none => s
  let s : State := if s.pw.integrityNote = 0 then s else s.event 0x2E00 6 s.pw.integrityNote
  { s with pw := { s.pw with tripNote := none, integrityNote := 0, causes := 0, failAddr := 0 } }

/-- Nothing holds the device in reset any more: bring-up starts (R79, R80). -/
def State.tryStart (s : State) : State :=
  if s.pw.aonGood && s.pw.coreGood && s.pw.resetPin ≠ .accepted && !s.pw.thermalHeld && !s.pw.starting && s.dev = 0 then s.beginStart
  else s

/-- The device is held in reset by something that still lasts. -/
def State.heldInReset (s : State) : Bool :=
  !s.pw.aonGood || !s.pw.coreGood || s.pw.resetPin = .accepted || s.pw.thermalHeld

/-- A reset of device reach with a code of R78 and the bits of 0x2003:02 of all its sources: overlapping ones are one
reset (R81). `f` puts in what the source itself leaves (a supply that is gone, a note for the next start). -/
def State.deviceReset (s : State) (code bits : Nat) (f : Power → Power) : State :=
  let held := s.heldInReset
  let last := if held then widest (s.n 0x2003 1) code else code
  let cold := reachOf code ≠ 2 || (held && s.pw.cold)
  let s := { s with pw := f { s.pw with causes := (if held then s.pw.causes else 0) ||| bits, cold := cold } }
  let s := s.wiped (reachOf code)
  ((s.wr 0x2003 1 last).setBits 0x2003 2 bits).tryStart

/-- An integrity reset (R78, R83, R526): INTEGRITY_DETAIL, the INTEGRITY reason, and the integrity events of the next
start. -/
def State.integrityReset (s : State) (detail addr : Nat) : State :=
  let note := (if bitOf detail 0 then 1 else 0) + (if fieldOf detail 1 4 ≠ 0 then 4 else 0) + (if bitOf detail 5 then 256 else 0)
  let held := s.heldInReset
  let s := { s with pw := { s.pw with causes := (if held then s.pw.causes else 0) ||| 0x20, failAddr := addr
                                      integrityNote := s.pw.integrityNote ||| note, cold := held && s.pw.cold } }
  let last := if held then widest (s.n 0x2003 1) 6 else 6
  (((((s.wiped 2).wr 0x2003 1 last).setBits 0x2003 2 0x20).wr 0x2003 3 detail).setBits 0x2001 2 4).tryStart

/-- VDD_AON, VDD_CORE and the core are up: the device can act. -/
def State.coreUp (s : State) : Bool := s.pw.aonGood && s.pw.coreGood && s.pw.sleep ≠ .standby

/-! ### Loss of the rim PLL's lock (R13) -/

/-- Launch gates close and domains become UNSYNCED; rings stop after the frame in progress and stay off until software
enables them again; HOLD_N goes low; the loss is recorded. -/
def State.rimLost (s : State) : State :=
  let s := { s with pw := { s.pw with pllLocked := false } }
  let s := (List.range 4).foldl (fun s n => if s.perState n ≠ 0 then s.perOff n else s) s
  let s := (List.range 4).foldl (fun s d => s.unsync d) s
  let e := Config.unlockEvents.toNat
  let s := s.event 0x2E00 6 (e % 8 + e / 8 * 256)
  (s.hold 8).record 0x0205 []

/-! ### Doze and Standby (R100–R105) -/

/-- A sleep request that is refused (R101). -/
def State.sleepRefused (s : State) : State := (s.cnt 0x2008 8).event 0x2000 5 0x100

/-- A transition or a wake is in progress. -/
def State.sleepBusy (s : State) : Bool :=
  s.pw.sleep = .toDoze || s.pw.sleep = .toStandby || s.pw.sleep = .waking

/-- Tracks stop, rings go off after the current cycle, engines halt (R102, R104). -/
def State.quietDown (s : State) : State :=
  let s := (List.range 16).foldl (fun s t =>
    if s.trkS t 1 = 2 then (s.setTrack t { s.track t with snap := [], data := none, late := false, push := [] }).setTrkS t 1 3
    else s) s
  let s := (List.range 4).foldl (fun s n => if s.perState n ≠ 0 then s.perOff n else s) s
  (List.range 32).foldl (fun s e =>
    if s.coreState e = 1 then
      (s.haltPending e 6).setEngine e { (s.haltPending e 6).engine e with haltWhy := 6 } else s) s

/-- Engines that run now, as a mask. -/
def State.runningEngines (s : State) : Nat :=
  (List.range 32).foldl (fun m e => if s.coreState e = 1 then m + 2 ^ e else m) 0

/-- A bank goes to its Doze state (R461): one that stays in RETENTION is tagged again (R462). -/
def State.bankDoze (s : State) (b : Nat) : State :=
  let t := fieldOf (s.n (bankIdx b) (1 + b % 8)) 2 2
  if s.inSwitch b && s.n 0x2200 1 = 1 then s
  else if t = 1 && s.bankState b = 1 && !s.changing b then s.bankRetain b
  else s.bankGo b t

/-- Doze entry (R102). -/
def State.dozeEnter (s : State) : State :=
  let run := s.runningEngines
  let s := ((s.enter 2).hold 1).cnt 0x2000 4
  let s := (s.quietDown.wr 0x2008 1 2)
  let s := (List.range 96).foldl (fun s b => s.bankDoze b) s
  { s with pw := { s.pw with sleep := .toDoze, wakeLatched := none, dozeEngines := run } }

/-- Standby request (R104): EDGE of the capture inputs is taken as it stands. -/
def State.standbyEnter (s : State) : State :=
  let edges := (List.range 4).foldl (fun m k => m + fieldOf (s.n (0x2150 + k) 1) 2 2 * 4 ^ k) 0
  let s := ((s.enter 3).hold 1).quietDown.wr 0x2008 1 3
  { s with pw := { s.pw with sleep := .toStandby, wakeLatched := none, standbyEdges := edges } }

/-- A Standby request that R101 refuses for its wake ports. -/
def State.wakePortsBad (s : State) : Bool :=
  2 < ((List.range 12).filter (fun p => s.bit 0x2008 3 p)).length || 256 ≤ s.n 0x2008 3

/-- A write of SLEEP_REQUEST (R100, R101): 1 wakes from Doze. -/
def State.sleepRequest (s : State) (v : Nat) : State :=
  if v = 1 then
    match s.pw.sleep with
    | .doze => { s with pw := { s.pw with sleep := .waking, wakeLatched := some 0xFE } }.wr 0x2008 1 1
    | .toDoze => { s with pw := { s.pw with wakeLatched := some (s.pw.wakeLatched.getD 0xFE) } }
    | _ => s
  else if s.dev = 0 || s.dev = 3 || s.dev = 5 || s.sleepBusy || (v = 3 && s.wakePortsBad) then s.sleepRefused
  else if v = 3 then s.standbyEnter
  else if s.dev = 1 then s.dozeEnter
  else s

/-- The Doze transition ends when every bank and engine has settled (R102); a latched wake starts at once (R105). -/
def State.dozeReached (s : State) : State :=
  let settled := (List.range 96).all (fun b => !s.changing b) && (List.range 32).all (fun e => s.coreState e ≠ 2)
  if s.pw.sleep = .toDoze && settled then
    { s with pw := { s.pw with sleep := if s.pw.wakeLatched.isSome then .waking else .doze } }
  else s

/-- What the wake does to the units: the engines that Doze halted resume, domains are UNSYNCED, banks return to RUN_STATE
(R461), enabled rings listen (R329). -/
def State.wokenUnits (s : State) : State :=
  let s := (List.range 32).foldl (fun s e =>
    if bitOf s.pw.dozeEngines e && s.coreState e = 0 && s.n (0x2400 + e) 6 = 6 then s.doRun e else s) s
  let s := (List.range 4).foldl (fun s d => s.unsync d) s
  let s := (List.range 96).foldl (fun s b => s.bankGo b (fieldOf (s.n (bankIdx b) (1 + b % 8)) 0 2)) s
  (List.range 4).foldl (fun s n => if s.perC n 1 = 1 then s.perGo n 1 else s) s

/-- The wake from Doze ends (R102): state 1, WAKE_STALE, LAST_WAKE; as a member of a Lattice the device compares its set
again (R387). -/
def State.dozeWoken (s : State) : State :=
  if s.pw.sleep ≠ .waking then s
  else
    let src := s.pw.wakeLatched.getD 0xFE
    let s := ((((s.enter 1).unhold 1).hold 0x10).wr 0x2008 7 src).wokenUnits
    let pw := { s.pw with sleep := .awake, wakeLatched := none, dozeEngines := 0, confirmPending := true }
    let lat := if s.latState = 2 then { s.lat with awaitHead := true } else s.lat
    ({ s with pw := pw, lat := lat }.wr 0x2008 1 1).event 0x2000 5 0x20

/-- An edge that a selection 0 rising, 1 falling, 2 both takes. -/
def edgeTaken (sel : Nat) (rising : Bool) : Bool := sel = 2 || (sel = 0 && rising) || (sel = 1 && !rising)

/-- The detector of wake source `src` sees the event (R100, R104, R214): `unit` is its pin or port. RESET_N wakes from
Standby only; elsewhere its pulse is a reset (R105). -/
def State.wakeSeen (s : State) (src unit : Nat) (rising : Bool) : Bool :=
  let standby := s.pw.sleep = .standby || s.pw.sleep = .toStandby
  if src < 4 then edgeTaken (if standby then s.pw.standbyEdges / 4 ^ src % 4 else fieldOf (s.n (0x2150 + src) 1) 2 2) rising
  else if src < 8 then true
  else if src = 8 then s.pw.sleep = .standby
  else if src = 9 then s.bit 0x2008 4 unit && (!standby || unit < 8) && edgeTaken (s.n 0x2008 6) rising
  else unit < 12 && s.bit 0x2008 3 unit && (!standby || unit < 8)

/-! ### The configuration generation (R103) -/

/-- Which configuration the device runs. -/
def State.configGen (s : State) : Nat :=
  if s.n 0x2800 1 = 1 && s.n 0x2800 0xC ≠ 0 then s.n 0x2800 0xD else s.n 0x2006 4

/-- Apex's check after a wake from Doze: `verified` whether the newest valid copy verifies with the generation `found`, or,
with none valid, that still none is. Under the Lattice a member waits for the comparison of R387. -/
def State.wakeCheck (s : State) (verified : Bool) (found : Nat) : State :=
  if !s.pw.confirmPending then s
  else if !verified then
    { s with pw := { s.pw with confirmPending := false } }.record 0x0305 (body [(s.n 0x2006 4, 4), (found, 4)])
  else if s.n 0x2800 1 = 1 && s.lat.awaitHead then s
  else s.confirmConfig s.configGen

/-! ### Accepted writes -/

/-- Accepted writes of spec/03's objects that act. -/
def State.effPower (s : State) (p : Path) (i j v : Nat) : Option State :=
  if i = 0x2000 ∧ j = 7 then some (s.confirmConfig v)
  else if i = 0x2001 then
    (if j = 1 then some (s.holdRelease 0) else if j = 3 then some (s.holdAck v) else if j = 4 then some (s.holdRequest v) else none)
  else if i = 0x2004 then
    (if j = 1 then some (s.deviceReset 5 0x10 id) else some (s.blockResets p.id.val j v))
  else if i = 0x2008 ∧ j = 1 then some (s.sleepRequest v)
  else if i = 0x2008 ∧ j = 2 then some (s.wr i j (v ||| 0x100))
  else none

end Sys2Proof.Machine
end

