-- ==== Sys2Proof/Machine/OdEffect.lean ====
section
/-! DEFINITION. What an accepted write or an allowed read of an object does beyond storing or returning its value
(the object tables and the rules they name). -/

namespace Sys2Proof.Machine

/-- A write of 1 to event status bits clears them; bits of `again` are those whose event occurs at once with the clear,
which stay set (R65). The routing entry follows as after any write to the status object (R68). -/
def State.statusClear (s : State) (i j v again : Nat) : State :=
  ((s.clrBits i j v).setBits i j again).route (routeOf i) true

/-- Effects of spec/02, 17, 18, 20, 21: parameter store, banks, mailboxes, recorder, supervision. -/
def State.effCommon (s : State) (p : Path) (i j v : Nat) : Option State :=
  if isEventStatus i j then some (s.statusClear i j v 0)
  else if i = 0x1010 then some (s.paramOp false j)
  else if i = 0x1011 then some (s.paramOp true j)
  else if i = 0x2002 ∧ j = 3 then some (s.clearTries v)
  else if i = 0x2003 then some (s.clrBits i j v)
  else if i = 0x2007 ∧ j = 9 then some s.doCommit
  else if 0x2B10 ≤ i ∧ i ≤ 0x2B1B then some (s.doBankPower ((i - 0x2B10) * 8 + (j - 1)) v)
  else if i = 0x2D00 ∧ j = 8 then some (s.clearLog p.id.val)
  else if i = 0x2E80 ∧ j = 1 then some (if v = 0 then s.disarm p.id.val 0 else s.doArm p.id.val)
  else if i = 0x2E80 ∧ j = 2 then
    some (if s.keeperWrite p false then s.doTestInService p.id.val v else s.violate p.id.val)
  else none

/-- Effects of mailbox channel objects (spec/18). -/
def State.effMbox (s : State) (i j v : Nat) : Option State :=
  match chanOf i with
  | none => none
  | some c =>
    if j = 6 then some (s.lockFree c)
    else if j = 8 then some (s.post c (BitVec.ofNat 32 v) (fieldOf v 32 11))
    else if j = 0xC then some (s.dbClear c (BitVec.ofNat 32 v))
    else if j = 0xD then some (s.maskWrite c (BitVec.ofNat 32 v))
    else none

/-- Effects of engine and library objects (spec/04). -/
def State.effEngine (s : State) (p : Path) (i j v : Nat) : Option State :=
  if 0x2400 ≤ i ∧ i ≤ 0x241F ∧ j = 2 then some (s.engCommand (i - 0x2400) v)
  else if i = 0x2480 ∧ j = 5 then some (s.libraryStart (decide (v = 1)) p.id.val)
  else none

/-- Effects of Perimeter objects (spec/10, spec/11): a change of BAUD gives FWD_DELAY its default for the rate (R324). -/
def State.effPer (s : State) (p : Path) (i j v : Nat) : Option State :=
  if 0x2600 ≤ i ∧ i ≤ 0x2603 then
    if j = 1 then some (s.perEnable (i - 0x2600) v)
    else if j = 5 then some ((s.wr i 5 v).wr i 0xE (if v = 0 then 32 else 96))
    else none
  else if 0x2620 ≤ i ∧ i ≤ 0x263F ∧ j = 2 then some (s.slotLoad ((i - 0x2620) / 8) ((i - 0x2620) % 8) v)
  else if 0x2640 ≤ i ∧ i ≤ 0x2643 ∧ j = 4 then some (if v = 1 then s.mgmtSend (i - 0x2640) else s)
  else if 0x2650 ≤ i ∧ i ≤ 0x2653 then
    let n := i - 0x2650
    if j = 2 then some (s.guardCommit n v p.id.val)
    else if j = 5 then some ((s.wr i 5 v).changeAsk n (fieldOf v 0 3) (fieldOf v 8 8) false)
    else if j = 6 then some (if v = 1 then s.changeAsk n (s.perMode n) 4 true else s)
    else none
  else none

/-- Effects of chord COMMIT and MDIO COMMAND objects (spec/06, R193), and of PUBLISH, whose end CONFIG_PUBLISH is (R384). -/
def State.effLinks (s : State) (i j v : Nat) : Option State :=
  if 0x2500 ≤ i ∧ i ≤ 0x250F ∧ j = 0xA then some (s.spliceCommit (i - 0x2500) v)
  else if (i = 0x2330 ∨ i = 0x2331) ∧ j = 2 then some (s.mdioStart (i - 0x2330) v)
  else if i = 0x2804 ∧ j = 3 then some (if v = 1 then s.wr 0x2804 4 1 else s)
  else none

/-- An object without a behaviour of its own stores the value; a write to an event enable object moves its routing entry
(R65). -/
def State.odStore (s : State) (i j v : Nat) : State :=
  if 1 ≤ j ∧ isEventStatus i (j - 1) then (s.wr i j v).route (routeOf i) false else s.wr i j v

/-- The effect of a write of one of the processor's, memory's and recorder's objects, or none. -/
def State.effCore (s : State) (p : Path) (i j v : Nat) : Option State :=
  ((s.effCommon p i j v).orElse fun _ => (s.effMbox i j v).orElse fun _ => (s.effEngine p i j v).orElse fun _ =>
    (s.effPower p i j v).orElse fun _ => s.effHost p i j v)

/-- The effect of a write of one of the rim units' or the agents' objects, or none. -/
def State.effRim (s : State) (p : Path) (i j v : Nat) : Option State :=
  ((s.effPort i j v).orElse fun _ => (s.effSwitch i j v).orElse fun _ => (s.effTime i j v).orElse fun _ =>
    (s.effLaunch i j v).orElse fun _ => (s.effPio i j v).orElse fun _ => (s.effLocus i j v).orElse fun _ =>
    (s.effLattice i j v).orElse fun _ => (s.effCan i j v).orElse fun _ => (s.effInst i j v).orElse fun _ =>
    (s.effPer p i j v).orElse fun _ => s.effLinks i j v)

/-- The effect of an accepted write: the object's own, or the value is stored. -/
def State.odEffect (s : State) (p : Path) (i j v : Nat) : State :=
  match s.effCore p i j v with
  | some t => t
  | none =>
  match s.effRim p i j v with
  | some t => t
  | none => s.odStore i j v

/-- Reads with an effect: LOCK and DOORBELL of a channel (R478, R482), a pop of RX_FIFO (R452). -/
def State.odReadEffect (s : State) (p : Path) (i j : Nat) : Option (DWord × State) :=
  match chanOf i with
  | some c =>
    if j = 6 then
      let r := s.lockRead c p.id.val
      some (BitVec.ofNat 64 r.1, r.2)
    else if j = 0xC then
      let r := s.dbRead c
      some (r.1.zeroExtend 64, r.2)
    else none
  | none =>
    if 0x2A40 ≤ i ∧ i ≤ 0x2A5F ∧ j = 8 then
      let r := s.rxPop (i - 0x2A40)
      some (r.1.zeroExtend 64, r.2)
    else none

end Sys2Proof.Machine
end

