-- ==== Sys2Proof/Machine/OdServer.lean ====
section
/-! DEFINITION. The Object Dictionary server: reads and writes with their effects, the window's slots (R44–R50), and
accesses anywhere in the device address map (R16, R18, R19). -/

namespace Sys2Proof.Machine

/-- The buffer a snapshot takes (R138): the newest valid SEQUENCE by serial comparison, or none where no buffer is
valid. -/
def State.newestBuffer (s : State) (desc size : Nat) : Option Nat :=
  (List.range 3).foldl (fun best b =>
    let q := s.w32 (desc + 0x10 + b * (size + 8))
    if q = 0xFFFF_FFFF then best
    else match best with
      | none => some b
      | some c => if newer q (s.w32 (desc + 0x10 + c * (size + 8))) then some b else best) none

/-- A read of process data `i:j` with `retries` repeated attempts (R138, R139): a word with a double-bit error gives 0
(R109); with no valid buffer the value is free (log entry 17). -/
def State.procRead (s : State) (i j retries : Nat) : Nat × State :=
  match s.procOffset i j with
  | none => (0x40, s)
  | some (e, off) =>
    let desc := s.n (0x24C0 + e) 3
    let size := s.w32 (desc + 4)
    match s.newestBuffer desc size with
    | none => ((s.free 32).toNat, (s.tick.cnt (0x24C0 + e) 4).addW (0x24C0 + e) 5 32 retries)
    | some b =>
      let r := s.fetchBytes 33 (desc + 0x10 + b * (size + 8) + 8 + off) 4
      if r.2.1 then (0, r.2.2)
      else (leNat r.1, (r.2.2.cnt (0x24C0 + e) 4).addW (0x24C0 + e) 5 32 retries)

/-- A unit of 0x1001 [4] is in a fault state (R53). -/
def State.portFault (s : State) (p : Nat) : Bool :=
  s.portN p 1 = 1 && (!s.linkUp p || (s.port p).ignored ≠ 0)
def State.ringFault (s : State) (n : Nat) : Bool := s.perC n 1 = 1 && s.perState n ≠ 3
def State.canFault (s : State) (c : Nat) : Bool :=
  (s.canN c 1 = 1 || s.canN c 1 = 2) && (fieldOf (s.canN c 0xA) 0 2 ≠ 0 || s.bit (canIdx c) 0xA 2)
def State.latticeFault (s : State) (p : Nat) : Bool :=
  s.latOn && s.bit 0x2800 3 p && (!s.linkUp p || !(s.upNbs.any (fun n => s.nbN n 5 = p)))
def State.commFault (s : State) : Bool :=
  (List.range 12).any s.portFault || (List.range 4).any s.ringFault || (List.range 4).any s.canFault ||
  (List.range 12).any s.latticeFault

/-- What 0x1001 reads (R53): the conditions a unit stores, and those that follow the units. -/
def State.errorRegister (s : State) : Nat :=
  let v := (s.n 0x1001 0 &&& 0x2C) + (if s.commFault then 0x10 else 0) + (if s.n 0x2E00 6 &&& 0x107 ≠ 0 then 0x80 else 0)
  if v = 0 then 0 else v + 1

/-- STATUS of bank `b` (R474): its state and ORIGIN, the region it lies in (R456), and the spares assigned at bring-up step 4
(R467). -/
def State.bankStatus (s : State) (b : Nat) : Nat :=
  s.n (0x2B10 + b / 8) (0x11 + b % 8) % 32 + (if s.inSwitch b then 32 else 0) + (if s.inPattern b then 64 else 0) +
    (if 4 ≤ s.n 0x2000 2 then (Config.repairedColumns b).val * 256 else 0)

/-- What objects read that follow the units at the moment of the read: the log's descriptor (R519), the time domains (R282),
suppressed tracks (R361), bank states (R474), the route entry in force (R395), the CAN bitmaps (R429), values of image objects (R403). -/
def State.odLive (s : State) (i j : Nat) : Option (DWord × State) :=
  let val := fun (v : Nat) => some (BitVec.ofNat 64 v, s)
  if i = 0x1001 then val s.errorRegister
  else if i = 0x2D01 ∧ j = 0 then val (logBase + s.n 0x2D00 3 * 2 ^ 32)
  else if 0x2100 ≤ i ∧ i ≤ 0x2103 then
    (if j = 2 then val (s.now64 (i - 0x2100)) else if j = 4 then val (s.domSeen (i - 0x2100) % 2 ^ 32)
     else if j = 0x12 then val (s.users (i - 0x2100)) else none)
  else if 0x2720 ≤ i ∧ i ≤ 0x272F ∧ j = 1 then
    let v := s.n i 1
    (if v = 1 ∨ v = 3 then val (if s.trkHeld (i - 0x2720) then 3 else 1) else none)
  else if 0x2B10 ≤ i ∧ i ≤ 0x2B1B ∧ 0x11 ≤ j ∧ j ≤ 0x18 then val (s.bankStatus ((i - 0x2B10) * 8 + (j - 0x11)))
  else if i = 0x2820 ∧ j = 2 then val (tblGet (fun _ => 0) (s.n 0x2820 1) s.lat.routes)
  else if 0x2900 ≤ i ∧ i ≤ 0x2939 ∧ (i - 0x2900) % 16 = 6 then
    let c := (i - 0x2900) / 16
    (if j = 2 then val (s.canWaiting c) else if j = 6 then val (s.canBits c 4) else if j = 0xA then val (s.canBits c 6) else none)
  else
    let o := match privInst i j with | some n => s.privSelected n | none => s.instObj i j
    o.map (fun o => let r := s.instRead o; (BitVec.ofNat 64 r.1, r.2))

/-- A path's latch and stage. -/
def State.path (s : State) (p : Path) : PathSt := tblGet (fun _ => {}) p.id.val s.paths
def State.setPath (s : State) (p : Path) (x : PathSt) : State :=
  { s with paths := tblSet (fun _ => {}) p.id.val x s.paths }

/-- What a live read gives: a behaviour, process data, a value that follows its unit, or the value stored. FRACTION reads the
fraction of the tick the path latched, while its latch still holds that domain's TIME (R282). -/
def State.odValue (s : State) (p : Path) (i j : Nat) : DWord × State :=
  match s.odReadEffect p i j with
  | some r => r
  | none =>
    if 0x6000 ≤ i ∧ i < 0xA000 then
      let r := s.procRead i j 0
      (BitVec.ofNat 64 r.1, r.2)
    else if 0x2100 ≤ i ∧ i ≤ 0x2103 ∧ j = 4 ∧ ((s.path p).latch.any (fun l => l.1 = odKey i 2)) then
      ((s.path p).frac.zeroExtend 64, s)
    else match s.odLive i j with
      | some r => r
      | none => (s.rd i j, s)

/-- A read of an RX FIFO that a channel drains is refused (R444). -/
def State.rxTaken (s : State) (i j : Nat) : Bool := 0x2A40 ≤ i && i ≤ 0x2A5F && j = 8 && s.pioDrained (i - 0x2A40)

/-- A read of object `i:j` by a path: a violation reads 0 and is counted (R50). -/
def State.odGet (s : State) (p : Path) (i j : Nat) : DWord × State :=
  if !s.readOk p i j || s.rxTaken i j then (0, s.violate p.id.val) else s.odValue p i j

/-- A write of object `i:j` by a path (R38–R44, R50). -/
def State.odSet (s : State) (p : Path) (i j v : Nat) : State := s.guard p i j v (fun s => s.odEffect p i j v)

/-- Whether `i:j` is the low slot of a 64-bit object (R47). -/
def State.isWide (s : State) (i j : Nat) : Bool := match s.rowOf i j with | some r => r.ty = .u64 | none => false

/-- Whether `i:j` is the upper slot of a 64-bit object (R47). -/
def State.isUpper (s : State) (i j : Nat) : Bool := j % 2 = 1 && (s.rowOf i j).isNone && s.isWide i (j - 1)

/-- A read of slot n: the low word, and all 64 bits into the path's latch (R47); with a domain's TIME the FRACTION of the same
tick (R282). -/
def State.readLow (s : State) (p : Path) (i j : Nat) : Nat × State :=
  if s.readOk p i j then
    let r := s.odGet p i j
    let frac := if 0x2100 ≤ i ∧ i ≤ 0x2103 ∧ j = 2 then BitVec.ofNat 32 (s.domSeen (i - 0x2100) % 2 ^ 32) else (r.2.path p).frac
    (r.1.toNat % 2 ^ 32, r.2.setPath p { r.2.path p with latch := some (odKey i j, r.1), frac := frac })
  else (0, s.violate p.id.val)

/-- A read of slot n + 1 of the object at `i:j`: the latched high word when the latch holds the object, the live one
otherwise (R47). -/
def State.readHigh (s : State) (p : Path) (i j : Nat) : Nat × State :=
  if s.readOk p i j then
    match (s.path p).latch with
    | some (k, v) =>
      if k = odKey i j then (v.toNat / 2 ^ 32, s)
      else
        let r := s.odValue p i j
        (r.1.toNat / 2 ^ 32, r.2)
    | none =>
      let r := s.odValue p i j
      (r.1.toNat / 2 ^ 32, r.2)
  else (0, s.violate p.id.val)

/-- Whether a path may write the object at all, whatever the value (R40–R43). -/
def State.mayStage (s : State) (p : Path) (i j : Nat) : Bool :=
  s.odExists i j && (match s.rowOf i j with | some r => s.codeOk p i r | none => false) && (s.dev ≠ 5 || p.secure) &&
  (match chanOf i with | some c => s.chanReach p c | none => true)

/-- A write of slot n stages the low word (R47). -/
def State.writeLow (s : State) (p : Path) (i j v : Nat) : State :=
  if s.mayStage p i j then s.setPath p { s.path p with stage := some (odKey i j, BitVec.ofNat 32 v) }
  else s.violate p.id.val

/-- A write of slot n + 1 of the object at `i:j` commits both words; without a staged low word of that object it is a
violation (R47). -/
def State.writeHigh (s : State) (p : Path) (i j v : Nat) : State :=
  match (s.path p).stage with
  | some (k, lo) =>
    if k = odKey i j then (s.setPath p { s.path p with stage := none }).odSet p i j (v * 2 ^ 32 + lo.toNat)
    else s.violate p.id.val
  | none => s.violate p.id.val

/-- One aligned 4-byte access to a slot (R46). -/
def State.slotRead (s : State) (p : Path) (i j : Nat) : Nat × State :=
  if s.isWide i j then s.readLow p i j
  else if s.isUpper i j then s.readHigh p i (j - 1)
  else
    let r := s.odGet p i j
    (r.1.toNat % 2 ^ 32, r.2)

def State.slotWrite (s : State) (p : Path) (i j v : Nat) : State :=
  if s.isWide i j then s.writeLow p i j v
  else if s.isUpper i j then s.writeHigh p i (j - 1) v
  else s.odSet p i j v

/-- The window address of an object, and the index and subindex of a window address (R45). -/
def slotAddr (i j : Nat) : Nat := 0x1000_0000 + i * 0x400 + j * 4
def slotIdx (a : Nat) : Nat := a / 0x400 % 0x1_0000
def slotSub (a : Nat) : Nat := a % 0x400 / 4

/-- An 8-byte read at slot `i`:`j`, whose second half is slot `i'`:`j'` (R46). -/
def State.readEight (s : State) (p : Path) (i j i' j' : Nat) : List Byte × State :=
  if s.isWide i j && j % 2 = 0 then
    let r := s.odGet p i j
    (leBytes r.1.toNat 8, r.2)
  else
    let r1 := s.slotRead p i j
    let r2 := r1.2.slotRead p i' j'
    (leBytes r1.1 4 ++ leBytes r2.1 4, r2.2)

/-- `n` bytes of slot `i`:`j` from byte `k` (R46). -/
def State.readPart (s : State) (p : Path) (i j k n : Nat) : List Byte × State :=
  let r := s.slotRead p i j
  (((leBytes r.1 4).drop k).take n, r.2)

/-- A read of `n` bytes in the window (R46). -/
def State.windowRead (s : State) (p : Path) (a n : Nat) : List Byte × State :=
  if n = 8 then s.readEight p (slotIdx a) (slotSub a) (slotIdx (a + 4)) (slotSub (a + 4))
  else s.readPart p (slotIdx a) (slotSub a) (a % 4) n

/-- A write of `n` bytes in the window (R46): a 1- or 2-byte write is a violation. -/
def State.windowWrite (s : State) (p : Path) (a : Nat) (d : List Byte) : State :=
  let i := slotIdx a
  let j := slotSub a
  if d.length = 8 then
    if s.isWide i j && j % 2 = 0 then s.odSet p i j (leNat d)
    else (s.slotWrite p i j (leNat (d.take 4))).slotWrite p (slotIdx (a + 4)) (slotSub (a + 4)) (leNat (d.drop 4))
  else if d.length = 4 then s.slotWrite p i j (leNat d)
  else s.violate p.id.val

/-- One aligned access of at most 8 bytes anywhere in the map, in a bank that is ON. -/
def State.mapRead1 (s : State) (p : Path) (a n : Nat) : List Byte × Bool × State :=
  if regionOf a = .window then
    let r := s.windowRead p a n
    (r.1, false, r.2)
  else s.memRead p a n

def State.mapWrite1 (s : State) (p : Path) (a : Nat) (d : List Byte) : State :=
  if regionOf a = .window then s.windowWrite p a d else s.memWrite p a d

/-- A burst of `k` accesses of `n` bytes in ascending order (R16, R46): the data, and whether any of them answered with
an error. -/
def State.mapBurst (s : State) (p : Path) (a n : Nat) : Nat → List Byte × Bool × State
  | 0 => ([], false, s)
  | k + 1 =>
    let r := s.mapRead1 p a n
    let q := r.2.2.mapBurst p (a + n) n k
    (r.1 ++ q.1, r.2.1 || q.2.1, q.2.2)

/-- The writes of a burst, in ascending order. -/
def State.mapStores (s : State) (p : Path) (a n : Nat) (d : List Byte) : Nat → State
  | 0 => s
  | k + 1 => (s.mapWrite1 p a (d.take n)).mapStores p (a + n) n (d.drop n) k

end Sys2Proof.Machine
end

