-- ==== Sys2Proof/Machine/BringUp.lean ====
section
/-! DEFINITION. Bring-up step by step, recovery and host load (R82, R89–R96, R506). -/

namespace Sys2Proof.Machine

/-- Apex's own path. -/
def apexPath : Path := { id := 33, secure := true }

/-- The step that completes next: after a warm reset the start begins at step 2 (R92). -/
def State.nextStep (s : State) : Nat := if s.n 0x2000 2 = 0 && !s.pw.cold then 2 else s.n 0x2000 2 + 1

/-! ### Step 7 (R54, R57) -/

/-- The blocks of R54 in ascending order. -/
def cfgBlocks : List (Nat × Nat) :=
  [(0x1000, 0x1FFF), (0x2000, 0x20FF), (0x2100, 0x21FF), (0x2200, 0x22FF), (0x2300, 0x23FF), (0x2400, 0x24FF),
   (0x2500, 0x25FF), (0x2600, 0x26FF), (0x2700, 0x27FF), (0x2800, 0x28FF), (0x2900, 0x29FF), (0x2A00, 0x2AFF),
   (0x2B00, 0x2BFF), (0x2C00, 0x2CFF), (0x2D00, 0x2DFF), (0x2E00, 0x2EFF), (0x2F00, 0x2F3F), (0x2F40, 0x2FFF),
   (0x3000, 0x37FF), (0x3800, 0x3FFF), (0x4000, 0x47FF), (0x4800, 0x4FFF), (0x5000, 0x57FF), (0x5800, 0x5FFF)]

/-- Stored values in the order of R54; values of image objects wait for their instance. -/
def cfgOrder (vals : Tbl DWord) : List (Nat × DWord) :=
  cfgBlocks.flatMap (fun (lo, hi) =>
    let mine := vals.filter (fun e => lo ≤ e.1 / 256 && e.1 / 256 ≤ hi && (imageKey e.1).isNone)
    mine.filter (fun e => !isEnable e.1) ++ mine.filter (fun e => isEnable e.1))

/-- One stored value is written; one that its object refuses is recorded. -/
def State.cfgWrite (s : State) (e : Nat × DWord) : State :=
  if s.writeOk apexPath (e.1 / 256) (e.1 % 256) e.2.toNat then s.odEffect apexPath (e.1 / 256) (e.1 % 256) e.2.toNat
  else s.record 0x0302 (body [(e.1 / 256, 2), (e.1 % 256, 1)])

/-- LATTICE_ID, CONFIG_GENERATION and SET_DIGEST of the set that MRAM holds (R383, R384). -/
def State.showSet (s : State) : State :=
  let d := s.lat.set
  if d.isEmpty then s
  else ((s.wr 0x2800 0xC (leNat ((d.drop 8).take 4))).wr 0x2800 0xD (leNat ((d.drop 0xC).take 4))).wr 0x2800 0xA
    (leNat ((d.drop 0x20).take 8))

/-- Step 7: the newest valid copy is loaded and written, or defaults stay; RESET_OUT_N is released. -/
def State.loadConfig (s : State) : State :=
  let s := s.showSet
  let s : State := match s.store.newest with
    | some (c, a) =>
      let s := ((s.wr 0x2006 3 (if a then 1 else 2)).wr 0x2006 4 c.gen).wr 0x2006 5 c.saves
      (cfgOrder c.vals).foldl State.cfgWrite s
    | none => (((s.wr 0x2006 3 0).wr 0x2006 4 0).event 0x2006 6 4).record 0x0303 (body [(1, 1)])
  { s with pw := { s.pw with resetOutLow := false } }

/-! ### Step 6 (R94–R96, R506, R512, R523) -/

/-- RECOVERY (R95, R96, R389): the ROM image serves the hosts and a reduced Lattice agent on span port 8. -/
def State.recover (s : State) (cause : Nat) : State :=
  let s := { s with pw := { s.pw with starting := false, faultLow := true } }
  let s := ((s.wr 0x2002 4 cause).enter 4).hold 1
  let s := ((s.wr 0x2308 1 1).wr 0x2200 1 1).switchClear
  (s.wr 0x2800 3 0x100).latEnable 1

/-- Host load (R506): STATUS 1, and the start waits. -/
def State.hostLoad (s : State) : State := (s.wr 0x2F42 3 1).event 0x2F40 6 (2 ^ 27)

/-- The boot ROM at step 6: the watchdog starts, POWER_CYCLES reaches MRAM, the start is counted, and the boot path is
chosen. `valid` says whether a slot verifies. -/
def State.bootRom (s : State) (valid : Bool) : State :=
  let s := { s with sup := { s.sup with watchdog := true } }
  let s := if s.pw.cold then s.logCounter 0x0828_0030 (s.n 0x2D00 5) else s
  let c := s.startInForce.1
  let tries := c.1
  let starts := min (c.2.1 + 1) (2 ^ 32 - 1)
  let mode := s.n 0x2000 0xA
  if mode = 3 then (s.writeStart tries starts).recover 3
  else if mode = 2 then (s.writeStart tries starts).hostLoad
  else if s.pw.threshold ≤ tries then (s.writeStart tries starts).recover 1
  else if !valid then
    (if mode = 1 then (s.writeStart tries starts).hostLoad else (s.writeStart tries starts).recover 2)
  else (s.writeStart (min (tries + 1) 255) starts).wr 0x2000 2 6

/-! ### The other steps -/

/-- Fuse load (R90). -/
def State.fuseLoad (s : State) (ok : Bool) : State :=
  if ok then { s with pw := { s.pw with fuseTries := 0 } }.wr 0x2000 2 2
  else if 2 ≤ s.pw.fuseTries then
    ({ s with pw := { s.pw with starting := false, faultLow := true, fuseTries := 0 } }.enter 6).hold 1
  else { s with pw := { s.pw with fuseTries := s.pw.fuseTries + 1 } }

/-- Step 1: the straps are sampled; a VDDIO bank without a class counts as out of range (R542). -/
def State.strapStep (s : State) (mode : Nat) : State :=
  let s := s.wr 0x2000 0xA mode
  let s := (List.range 6).foldl (fun s b =>
    if tblGet (fun _ => 0) b s.pw.vddioClass = 0 && !s.bit 0x2E10 0x10 (5 + b) then s.supplyOut (5 + b) 0 else s) s
  s.wr 0x2000 2 1

/-- Step 3: options are loaded and the pins take their quiet levels (R89). -/
def State.optionStep (s : State) : State :=
  let s := s.optionLoad
  ((List.range 4).foldl (fun s b => s.setPio b { s.pioOf b with level := s.pioQuiet b }) s).wr 0x2000 2 3

/-- Step 4: banks are zeroed in a start that began at step 1 (R92, R461). -/
def State.bankStep4 (s : State) : State :=
  (if s.pw.cold then (List.range 96).foldl (fun s b => s.bankZero b) s else s).wr 0x2000 2 4

/-- Step 5: the rim PLL locks, PCIe link training may start (R494), Apex executes its first boot ROM instruction. -/
def State.pllStep (s : State) : State :=
  let s := { s with pw := { s.pw with pllLocked := true }, host := { s.host with training := !s.host.perstLow } }
  ((s.setCoreState 32 1).setPc 32 0xC000).wr 0x2000 2 5

/-- Engines and instances are being loaded (steps 8 and 9). -/
def State.loading (s : State) : Bool := (List.range 32).any (fun e => s.coreState e = 4)

/-- The Lattice lets START_OK be written: keeper, or the join comparison is done (R377). -/
def State.latticeReady (s : State) : Bool :=
  s.n 0x2800 1 = 0 || s.latState = 3 || s.latState = 4 || (s.latState = 2 && !s.lat.awaitHead)

/-- Step 10 (R92, R94, R103, R385): the configuration generation, START_OK, START_TRIES 0, and state 1, or 5 in
quarantine. -/
def State.startOk (s : State) (micros : Nat) : State :=
  let member := s.n 0x2800 1 = 1 && (s.latState = 2 || s.latState = 4)
  let s := if member then s else s.confirmConfig s.configGen
  let s := ((s.wr 0x2002 2 1).writeStart 0 (s.n 0x2002 5)).wr 0x2000 3 micros
  let s := { s with pw := { s.pw with starting := false } }
  let s := if s.latState = 4 then s.enter 5 else (s.enter 1).unhold 1
  (s.wr 0x2000 2 10).event 0x2000 5 0x80

/-- Host load keeps step 6 open. -/
def State.hostLoading (s : State) : Bool := 1 ≤ s.n 0x2F42 3 && s.n 0x2F42 3 ≤ 3

/-- A bring-up step completes (R92). -/
def State.stepDone (s : State) (b : StepInput) : State :=
  if !s.pw.starting || s.hostLoading then s
  else match s.nextStep with
    | 1 => s.strapStep b.bootMode.toNat
    | 2 => s.fuseLoad b.fuseOk
    | 3 => s.optionStep
    | 4 => s.bankStep4
    | 5 => s.pllStep
    | 6 => s.bootRom (b.slotA || b.slotB)
    | 7 =>
      let s := s.loadConfig
      ((List.range 32).foldl (fun s e => s.doLoad e) s).wr 0x2000 2 7
    | 8 =>
      if s.loading then s
      else ((List.range 6).foldl (fun s n => if s.n (instBase n) 9 = 1 then s.instStart n else s) s).wr 0x2000 2 8
    | 9 => if s.loading || (List.range 6).any (fun n => s.instState n = 1) then s else s.wr 0x2000 2 9
    | 10 => if s.latticeReady then s.startOk b.startMicros.toNat else s
    | _ => s

/-- BRINGUP_STEP_DONE. -/
def execBringupStepDone (b : StepInput) (s : State) : Res := .next (s.stepDone b)

/-- HOST_LOAD_GO (R506, R508): GO starts the verification. -/
def execHostLoadGo (p : Path) (v : Word) (s : State) : Res :=
  .next (s.guard p 0x2F42 2 v.toNat (fun s => s.wr 0x2F42 3 2))

/-- HOST_LOAD_VERIFIED (R506): the image runs and step 6 is complete, or the device waits for another. -/
def execHostLoadVerified (ok : Bool) (s : State) : Res :=
  .next (if s.n 0x2F42 3 = 2 then
    (if ok then (s.wr 0x2F42 3 4).wr 0x2000 2 6 else (s.wr 0x2F42 3 3).event 0x2F40 6 (2 ^ 27))
  else s)

end Sys2Proof.Machine
end

