-- ==== Sys2Proof/Machine/Operands.lean ====
section
/-! DEFINITION. The operand forms of engine instructions (R145–R148): fields of the instruction word, immediates,
addresses, register pairs. -/

namespace Sys2Proof.Machine

/-- Fields of the formats of R145. -/
def opOf (w : Word) : Nat := (w.extractLsb' 26 6).toNat
def rdOf (w : Word) : Nat := (w.extractLsb' 22 4).toNat
def raOf (w : Word) : Nat := (w.extractLsb' 18 4).toNat
def rbOf (w : Word) : Nat := (w.extractLsb' 14 4).toNat
/-- REG: FN. -/
def fnOf (w : Word) : Nat := (w.extractLsb' 0 14).toNat
/-- IMM: IMM18, zero-extended and sign-extended (R148). -/
def immZ (w : Word) : Word := (w.extractLsb' 0 18).zeroExtend 32
def immS (w : Word) : Word := (w.extractLsb' 0 18).signExtend 32
/-- MEM: SZ and the signed byte offset. -/
def szOf (w : Word) : Nat := (w.extractLsb' 16 2).toNat
def offS (w : Word) : Word := (w.extractLsb' 0 16).signExtend 32
/-- BR: bits [21:16], which are 0, and the signed word offset. -/
def brZero (w : Word) : Nat := (w.extractLsb' 16 6).toNat
/-- LANE: nibble count 1–8, OFF7 and FN. -/
def laneN (w : Word) : Nat := (w.extractLsb' 11 3).toNat + 1
def laneNField (w : Word) : Nat := (w.extractLsb' 11 3).toNat
def laneOff (w : Word) : Nat := (w.extractLsb' 4 7).toNat
def laneFn (w : Word) : Nat := (w.extractLsb' 0 4).toNat

/-- General register `r` of an engine (R110). -/
def Engine.reg (e : Engine) (r : Nat) : Word := tblGet (fun _ => 0) r e.regs

/-- Write a general register. -/
def Engine.setReg (e : Engine) (r : Nat) (v : Word) : Engine := { e with regs := tblSet (fun _ => 0) r v e.regs }

/-- The 64-bit operand in the pair gn, gn+1 (R147). -/
def Engine.pair (e : Engine) (r : Nat) : Nat := (e.reg r).toNat + (e.reg (r + 1)).toNat * 2 ^ 32

/-- Write a pair. -/
def Engine.setPair (e : Engine) (r v : Nat) : Engine :=
  (e.setReg r (BitVec.ofNat 32 v)).setReg (r + 1) (BitVec.ofNat 32 (v / 2 ^ 32))

/-- A register operand of a MEM access of size `sz`: a pair for a doubleword (R153). -/
def Engine.regSized (e : Engine) (r sz : Nat) : Nat := if sz = 3 then e.pair r else (e.reg r).toNat

/-- Bytes of a MEM size. -/
def szBytes (sz : Nat) : Nat := 2 ^ sz

/-- The address RA + OFF16, modulo 2^32 (R153). -/
def Engine.memAddr (e : Engine) (w : Word) : Nat := (e.reg (raOf w) + offS w).toNat

/-- The branch target: the address of the branch plus OFF16 (R148). -/
def brTarget (w : Word) (pc : Nat) : Int := (pc : Int) + (w.extractLsb' 0 16).toInt

end Sys2Proof.Machine
end

