-- ==== Sys2Proof/Machine/EngineDecode.lean ====
section
/-! DEFINITION. Which instruction an engine word is, and every encoding the manual calls illegal (R145–R147, R150,
R152–R164, R166, R167). -/

namespace Sys2Proof.Machine

/-- The instructions of the engine set, one per command that executes one. -/
inductive EOp where
  | add | addi | sub | adc | sbc | andR | andi | orR | ori | xor | xori | cmp | cmpi | mul | lui | movi
  | shl | shr | sar | ror | ext | ins
  | nswap | bswap16 | bswap32 | clz | popc | notR | neg | sext8 | sext16
  | ldl | stl | ldf | stf | ldx | stx | faddF | swapF | faddX | swapX | fence
  | bCond | call | jr | callr | cbz | cbnz | halt | nop | hbeat
  | take | peek | skip | give | matchL | mark | skipf | gend | lstat
  | crcInit | crcFold | crcRead | crcWrite | crcTap
  | time | timeh | twait | ewait | ewaitT | epoll | lock | unlock | post | dbrd | dbclr
  | wdkick | fuserd | mramw | sha | engsec
  deriving DecidableEq, Repr

/-- The instruction, when its unused fields are as the manual wants them. -/
def okIf (c : Bool) (o : EOp) : Option EOp := if c then some o else none

/-- OP 0x10 (R152). -/
def shiftOp (w : Word) : Option EOp :=
  let k := fieldOf (fnOf w) 12 2
  okIf (fieldOf (fnOf w) 5 6 = 0 && (if bitOf (fnOf w) 11 then rbOf w = 0 else fieldOf (fnOf w) 0 5 = 0))
    (if k = 0 then .shl else if k = 1 then .shr else if k = 2 then .sar else .ror)

/-- LSB + WIDTH of ext and ins lies within the word (R152). -/
def fieldFits (w : Word) : Bool := fieldOf (immZ w).toNat 13 5 + fieldOf (immZ w).toNat 8 5 + 1 ≤ 32

/-- OP 0x13 (R152). -/
def unaryOp (w : Word) : Option EOp :=
  if rbOf w ≠ 0 then none else
  match fnOf w with
  | 0 => some .nswap
  | 1 => some .bswap16
  | 2 => some .bswap32
  | 3 => some .clz
  | 4 => some .popc
  | 5 => some .notR
  | 6 => some .neg
  | 7 => some .sext8
  | 8 => some .sext16
  | _ => none

/-- OP 0x14–0x19 (R153): a pair starts at an even register. -/
def memOp (w : Word) (o : EOp) : Option EOp := okIf (szOf w ≠ 3 || rdOf w % 2 = 0) o

/-- OP 0x1A (R154). -/
def atomOp (apex : Bool) (w : Word) : Option EOp :=
  let far := bitOf (fnOf w) 13
  let swap := bitOf (fnOf w) 12
  okIf (fieldOf (fnOf w) 0 11 = 0 && (!bitOf (fnOf w) 11 || (rdOf w % 2 = 0 && rbOf w % 2 = 0)) && (far || !apex))
    (if far then (if swap then .swapX else .faddX) else if swap then .swapF else .faddF)

/-- No field beside OP is used. -/
def bare (w : Word) : Bool := w.extractLsb' 0 26 = 0

/-- OP 0x2D (R157, R160). -/
def markOp (w : Word) : Option EOp :=
  let z := raOf w = 0 && rbOf w = 0 && laneNField w = 0
  match laneFn w with
  | 0 => okIf (z && laneOff w = 0) .mark
  | 1 => okIf (z && rdOf w = 0 && laneOff w = 0) .skipf
  | 2 => okIf (z && rdOf w = 0 && laneOff w ≤ 1) .gend
  | 3 => okIf (z && laneOff w = 0) .lstat
  | _ => none

/-- OP 0x2E (R161). A fold of an odd count under POLY 3 is found when it executes. -/
def crcOp (w : Word) : Option EOp :=
  let n0 := laneNField w = 0
  match laneFn w with
  | 0 => okIf (rdOf w = 0 && rbOf w = 0 && n0 && laneOff w ≤ 3) .crcInit
  | 1 => okIf (rdOf w = 0 && rbOf w = 0 && laneOff w = 0) .crcFold
  | 2 => okIf (raOf w = 0 && rbOf w = 0 && n0 && laneOff w = 0) .crcRead
  | 3 => okIf (rdOf w = 0 && rbOf w = 0 && n0 && laneOff w = 0) .crcWrite
  | 4 => okIf (rdOf w = 0 && raOf w = 0 && rbOf w = 0 && n0 && laneOff w ≤ 2) .crcTap
  | _ => none

/-- OP 0x3E (R167). -/
def privOp (w : Word) : Option EOp :=
  match fnOf w with
  | 0 => okIf (rdOf w = 0 && raOf w = 0 && rbOf w = 0) .wdkick
  | 1 => okIf (rbOf w = 0) .fuserd
  | 2 => okIf (rdOf w = 0 && rbOf w % 2 = 0) .mramw
  | 3 => okIf (rdOf w = 0) .sha
  | 4 => okIf (rdOf w = 0) .engsec
  | _ => none

/-- The instruction a word is, or none where its encoding is illegal on this core (R146, R166). -/
def engDecode (apex : Bool) (w : Word) : Option EOp :=
  match opOf w with
  | 0x01 => okIf (fnOf w = 0) .add
  | 0x02 => some .addi
  | 0x03 => okIf (fnOf w = 0) .sub
  | 0x04 => okIf (fnOf w = 0) .adc
  | 0x05 => okIf (fnOf w = 0) .sbc
  | 0x06 => okIf (fnOf w = 0) .andR
  | 0x07 => some .andi
  | 0x08 => okIf (fnOf w = 0) .orR
  | 0x09 => some .ori
  | 0x0A => okIf (fnOf w = 0) .xor
  | 0x0B => some .xori
  | 0x0C => okIf (rdOf w = 0 && fnOf w = 0) .cmp
  | 0x0D => okIf (rdOf w = 0) .cmpi
  | 0x0E => okIf (fnOf w = 0) .mul
  | 0x0F => okIf (raOf w = 0) .lui
  | 0x10 => shiftOp w
  | 0x11 => okIf (fieldOf (immZ w).toNat 0 7 = 0 && fieldFits w) .ext
  | 0x12 => okIf (fieldOf (immZ w).toNat 0 8 = 0 && fieldFits w) .ins
  | 0x13 => unaryOp w
  | 0x14 => memOp w .ldl
  | 0x15 => memOp w .stl
  | 0x16 => if apex then none else memOp w .ldf
  | 0x17 => if apex then none else memOp w .stf
  | 0x18 => memOp w .ldx
  | 0x19 => memOp w .stx
  | 0x1A => atomOp apex w
  | 0x1B => okIf (bare w) .fence
  | 0x1C => okIf (raOf w = 0) .movi
  | 0x20 => okIf (brZero w = 0 && rdOf w ≠ 15) .bCond
  | 0x21 => okIf (brZero w = 0 && rdOf w = 0) .call
  | 0x22 => okIf (rdOf w = 0 && rbOf w = 0 && fnOf w ≤ 1) (if fnOf w = 0 then .jr else .callr)
  | 0x23 => okIf (brZero w = 0) .cbz
  | 0x24 => okIf (brZero w = 0) .cbnz
  | 0x25 => okIf (bare w) .halt
  | 0x26 => okIf (bare w) .nop
  | 0x27 => okIf (bare w && !apex) .hbeat
  | 0x28 => okIf (raOf w = 0 && rbOf w = 0 && laneOff w = 0 && laneFn w = 0 && !apex) .take
  | 0x29 => okIf (raOf w = 0 && rbOf w = 0 && laneFn w = 0 && laneOff w + laneN w ≤ 128 && !apex) .peek
  | 0x2A => okIf (rdOf w = 0 && raOf w = 0 && fieldOf (immZ w).toNat 12 6 = 0 && !apex) .skip
  | 0x2B => okIf (rdOf w = 0 && rbOf w = 0 && laneOff w = 0 && laneFn w = 0 && !apex) .give
  | 0x2C => okIf (rdOf w = 0 && laneFn w = 0 && laneOff w + laneN w ≤ 128 && !apex) .matchL
  | 0x2D => if apex then none else markOp w
  | 0x2E => crcOp w
  | 0x30 => okIf (raOf w = 0 && rbOf w = 0 && fnOf w < 8) (if bitOf (fnOf w) 2 then .timeh else .time)
  | 0x31 => okIf (rdOf w = 0 && rbOf w = 0 && fnOf w < 4) .twait
  | 0x32 => if bitOf (fnOf w) 1 then okIf (fnOf w < 16) .ewaitT else okIf (rbOf w = 0 && fnOf w < 2) .ewait
  | 0x33 => okIf (rbOf w = 0 && fnOf w < 2) .epoll
  | 0x34 => okIf (raOf w = 0 && rbOf w = 0 && fnOf w < 48) .lock
  | 0x35 => okIf (rdOf w = 0 && raOf w = 0 && rbOf w = 0 && fnOf w < 48) .unlock
  | 0x36 => okIf (rdOf w = 0 && fnOf w < 48) .post
  | 0x37 => okIf (raOf w = 0 && rbOf w = 0 && fnOf w < 48) .dbrd
  | 0x38 => okIf (rdOf w = 0 && rbOf w = 0 && fnOf w < 48) .dbclr
  | 0x3E => if apex then privOp w else none
  | _ => none

end Sys2Proof.Machine
end

