-- ==== Sys2Proof/Machine/EngineCore.lean ====
section
/-! DEFINITION. What every engine instruction shares: fetch, exceptions, completion, posted stores (R110–R113,
R123–R127, R151, R155, R156, R165, R166). -/

namespace Sys2Proof.Machine

/-- The address instruction word `pc` of core `c` is fetched from; Apex's private code space lies at 2^32 (R166). -/
def codeAt (c pc : Nat) : Nat := if c = 32 then 0x1_0000_0000 + 4 * pc else iramAt c + 4 * pc

/-- Where a core's local data RAM lies (R111, R166), and its size. -/
def localAt (c : Nat) : Nat := if c = 32 then 0x1_1000_0000 else dramAt c
def localSize (c : Nat) : Nat := if c = 32 then 0x1_0000 else 0x4000

/-- The path of a core's far accesses (R111, R166). -/
def State.corePath (s : State) (c : Fin 33) : Path :=
  if c.val = 32 then { id := 33, secure := true }
  else { id := ⟨c.val + 1, by omega⟩, secure := s.n (0x2400 + c.val) 0xE = 1 }

/-- Words of the loaded image; with no image every word of the RAM can be fetched (log entry 22). -/
def State.codeWords (s : State) (c : Nat) : Nat := if (s.engine c).words = 0 then 8192 else (s.engine c).words

/-- A word at `pc` can be fetched (R156, R166). -/
def State.pcOk (s : State) (c pc : Nat) : Bool :=
  if c = 32 then pc < 0x8000 || (0xC000 ≤ pc && pc < 0x1_0000) else pc < s.codeWords c

/-- The instruction word at the core's program counter. -/
def State.insn (s : State) (c : Nat) : Word := BitVec.ofNat 32 (s.w32 (codeAt c (s.pc c)))

/-- A transmit frame in progress leaves with a stomped FCS (R127). -/
def State.stompTx (s : State) (e : Nat) : State :=
  let g := s.engine e
  if g.txOn then (s.setEngine e { g with txOn := false, txWire := [] }).laneSend e (bytesOf g.txWire) true else s

/-- An exception (R127, R165): FAULT with its code and program counter, ENGINE_FAULT and a 0x0401 record. Apex has no
facet event and no engine record. -/
def State.exception (s : State) (c code pc : Nat) : State :=
  let i := coreIdx c
  let s := (((s.setCoreState c 3).wr i 6 3).wr i 7 code).wr i 8 pc
  let s := s.setEngine c { s.engine c with waiting := .none, haltWhy := 0 }
  if c = 32 then s
  else ((s.engEvent c 0).record 0x0401
    (body [(c, 1), (0, 1), (code, 2), (pc, 2), ((s.engine c).image, 2)])).stompTx c |>.instFault c

/-- The core executes now. -/
def State.runs (s : State) (c : Nat) : Bool := s.coreState c = 1

/-- The instruction completes and `pc` is next; a STEP then halts (R126). -/
def State.finish (s : State) (c pc : Nat) : State :=
  let s := (s.setPc c pc).setEngine c { s.engine c with waiting := .none }
  if s.coreState c = 1 && (s.engine c).haltWhy = 7 then s.setCoreState c 2 else s

/-- The word after the present one. -/
def State.pcNext (s : State) (c : Nat) : Nat := if c = 32 then (s.pc c + 1) % 0x1_0000 else s.pc c + 1

/-- The instruction completes in sequence, with its core changed to `g`. -/
def State.finishWith (s : State) (c : Nat) (g : Engine) : State := (s.setEngine c g).finish c (s.pcNext c)

/-- The instruction waits (R151). -/
def State.await (s : State) (c : Nat) (w : WaitFor) : State := s.setEngine c { s.engine c with waiting := w }

/-- A branch or jump to `t`: PC_RANGE at the branch where it lies outside the image (R156). Apex finds it at the fetch
(R166). -/
def State.jump (s : State) (c : Nat) (t : Int) : State :=
  if c = 32 then s.finish c (t % 0x1_0000).toNat
  else if 0 ≤ t ∧ t.toNat < s.codeWords c then s.finish c t.toNat
  else s.exception c 2 (s.pc c)

/-- Execute instruction `o` with `f` when the core runs, is not waiting, and has it at its program counter. A
double-bit error in the fetched word resets the facet (R84, R109). -/
def State.runOp (s : State) (c : Nat) (o : EOp) (f : State → Word → State) : State :=
  if s.runs c && (s.engine c).waiting = .none && s.pcOk c (s.pc c) then
    if s.hasDbe (codeAt c (s.pc c)) then s.meetDbe (codeAt c (s.pc c)) (c + 1)
    else if engDecode (c = 32) (s.insn c) = some o then
      f (if s.hasSbe (codeAt c (s.pc c)) then s.correct (codeAt c (s.pc c)) else s) (s.insn c)
    else s
  else s

/-! ### Posted stores (R112) -/

/-- The bank a store goes to serves accesses. -/
def State.postedReady (s : State) (p : Posted) : Bool := s.ready p.addr

/-- Carry out one posted store. -/
def State.doPosted (s : State) (c : Fin 33) (p : Posted) : State := s.mapWrite1 (s.corePath c) p.addr p.data

/-- Complete the oldest posted stores while their banks serve them. -/
def State.drainPosted (s : State) (c : Fin 33) : Nat → State
  | 0 => s
  | k + 1 =>
    match (s.engine c).posted with
    | [] => s
    | p :: t =>
      if s.postedReady p then
        ((s.setEngine c { s.engine c with posted := t }).doPosted c p).drainPosted c k
      else s

/-- Every posted store takes effect before `f` (R112); the instruction waits while one cannot. -/
def State.afterStores (s : State) (c : Fin 33) (f : State → State) : State :=
  let s := s.drainPosted c 8
  if (s.engine c).posted.isEmpty then f s else s.await c .stores

/-- Post a store; the ninth waits until one completes (R112). -/
def State.postStore (s : State) (c : Fin 33) (p : Posted) : State :=
  let g := s.engine c
  if 8 ≤ g.posted.length then s.await c .stores
  else
    let s := if s.postedReady p then s else s.noteNotOn
    s.finishWith c { s.engine c with posted := g.posted ++ [p] }

/-- POSTED_STORE_COMPLETE (R112): the oldest posted store of the core completes. -/
def execPostedStoreComplete (c : Fin 33) (s : State) : Res :=
  .next (s.drainPosted c 1)

/-- The code of two exceptions that hold at once is not stated: a free choice of the two (log entry 23). -/
def State.eitherCode (s : State) (a b : Bool) (ca cb : Nat) : Option Nat :=
  if a && b then some (if s.free 1 = 0 then ca else cb) else if a then some ca else if b then some cb else none

/-- Raise it. -/
def State.raiseEither (s : State) (c : Nat) (a b : Bool) (ca cb : Nat) (f : State → State) : State :=
  match s.eitherCode a b ca cb with
  | some code => (if a && b then s.tick else s).exception c code (s.pc c)
  | none => f s

/-- ILLEGAL_ENCODING (R146, R156, R165, R167): the core meets a word that is no instruction, or runs past its code. -/
def State.illegal (s : State) (c : Nat) : State :=
  if !(s.runs c && (s.engine c).waiting = .none) then s
  else if !s.pcOk c (s.pc c) then s.exception c 2 (s.pc c)
  else if s.hasDbe (codeAt c (s.pc c)) then s.meetDbe (codeAt c (s.pc c)) (c + 1)
  else if engDecode (c = 32) (s.insn c) = none then
    s.exception c (if opOf (s.insn c) = 0x3E && c ≠ 32 then 9 else 1) (s.pc c)
  else s

/-- ILLEGAL_ENCODING (R146). -/
def execIllegalEncoding (c : Fin 33) (s : State) : Res := .next (s.illegal c)

end Sys2Proof.Machine
end

