-- ==== Sys2Proof/Machine/Flags.lean ====
section
/-! DEFINITION. The flag computations of engine instructions and the branch conditions (R149, R150, R152). -/

namespace Sys2Proof.Machine

/-- Z and N of a result (R149). -/
def Engine.flagsZN (e : Engine) (r : Word) : Engine := { e with z := r = 0, n := r.msb }

/-- Result and C, V of an addition with carry in: C is the carry out of bit 31, V signed overflow (R149). -/
def addC (a b : Word) (c : Bool) : Bool := decide (2 ^ 32 ≤ a.toNat + b.toNat + c.toNat)
def addR (a b : Word) (c : Bool) : Word := a + b + (if c then 1 else 0)
def addV (a b : Word) (c : Bool) : Bool :=
  let r := addR a b c
  (a.msb == b.msb) && (r.msb != a.msb)

/-- Result and C, V of a subtraction with borrow in: C is the borrow (R149). -/
def subC (a b : Word) (c : Bool) : Bool := decide (a.toNat < b.toNat + c.toNat)
def subR (a b : Word) (c : Bool) : Word := a - b - (if c then 1 else 0)
def subV (a b : Word) (c : Bool) : Bool :=
  let r := subR a b c
  (a.msb != b.msb) && (r.msb != a.msb)

/-- Z N C V of an addition. -/
def Engine.flagsAdd (e : Engine) (a b : Word) (c : Bool) : Engine :=
  { e.flagsZN (addR a b c) with c := addC a b c, v := addV a b c }

/-- Z N C V of a subtraction. -/
def Engine.flagsSub (e : Engine) (a b : Word) (c : Bool) : Engine :=
  { e.flagsZN (subR a b c) with c := subC a b c, v := subV a b c }

/-- Shift kinds of R152 and their result. -/
def shiftR (kind : Nat) (a : Word) (k : Nat) : Word :=
  if kind = 0 then a <<< k else if kind = 1 then a >>> k else if kind = 2 then a.sshiftRight k else a.rotateRight k

/-- C of a shift: the last bit shifted out, unchanged for an amount of 0; ror sets C to bit 31 of the result (R152). -/
def shiftC (kind : Nat) (a : Word) (k : Nat) (c : Bool) : Bool :=
  if k = 0 then c
  else if kind = 0 then a.getLsbD (32 - k)
  else if kind = 3 then (shiftR 3 a k).msb
  else a.getLsbD (k - 1)

/-- Whether condition `cr` holds (R150). -/
def Engine.cond (e : Engine) (cr : Nat) : Bool :=
  match cr with
  | 0 => true
  | 1 => e.z
  | 2 => !e.z
  | 3 => e.c
  | 4 => !e.c
  | 5 => !e.c && !e.z
  | 6 => e.c || e.z
  | 7 => e.n != e.v
  | 8 => e.n == e.v
  | 9 => !e.z && (e.n == e.v)
  | 10 => e.z || (e.n != e.v)
  | 11 => e.n
  | 12 => !e.n
  | 13 => e.v
  | 14 => !e.v
  | _ => false

/-- Count of leading zeros and of set bits (R152). -/
def clz (a : Word) : Word := BitVec.ofNat 32 ((List.range 32).findIdx? (fun i => a.getLsbD (31 - i)) |>.getD 32)
def popc (a : Word) : Word := BitVec.ofNat 32 ((List.range 32).filter (fun i => a.getLsbD i)).length

/-- Swap the nibbles of every byte, swap bytes (R152). -/
def nswap (a : Word) : Word := ((a &&& 0x0F0F0F0F) <<< 4) ||| ((a >>> 4) &&& 0x0F0F0F0F)
def bswap16 (a : Word) : Word := ((a &&& 0xFF) <<< 8) ||| ((a >>> 8) &&& 0xFF)
def bswap32 (a : Word) : Word :=
  (a <<< 24) ||| ((a &&& 0xFF00) <<< 8) ||| ((a >>> 8) &&& 0xFF00) ||| (a >>> 24)

/-- A mask of the low `n` bits. -/
def lowMask (n : Nat) : Word := BitVec.ofNat 32 (2 ^ n - 1)

/-- The field of `ext`: `width` bits from `lsb`, zero- or sign-extended (R152). -/
def extField (a : Word) (lsb width : Nat) (signed : Bool) : Word :=
  let f := (a >>> lsb) &&& lowMask width
  if signed && f.getLsbD (width - 1) then f ||| ~~~ lowMask width else f

/-- The result of `ins` (R152). -/
def insField (d a : Word) (lsb width : Nat) : Word :=
  (d &&& ~~~ (lowMask width <<< lsb)) ||| ((a &&& lowMask width) <<< lsb)

end Sys2Proof.Machine
end

