-- ==== Sys2Proof/Machine/EngineArith.lean ====
section
/-! DEFINITION. Arithmetic, logic and bit-field instructions (R149, R152). -/

namespace Sys2Proof.Machine

/-- An instruction whose whole effect is a change of its own registers and flags. -/
def State.regOp (s : State) (c : Nat) (o : EOp) (f : Engine → Word → Engine) : State :=
  s.runOp c o (fun s w => s.finishWith c (f (s.engine c) w))

/-- RA and RB of an instruction. -/
def Engine.ra (e : Engine) (w : Word) : Word := e.reg (raOf w)
def Engine.rb (e : Engine) (w : Word) : Word := e.reg (rbOf w)

/-- RD gets `r`, and Z and N follow it. -/
def Engine.putZN (e : Engine) (w : Word) (r : Word) : Engine := (e.setReg (rdOf w) r).flagsZN r

/-- RD ← a + b + carry in, with Z N C V. -/
def Engine.putAdd (e : Engine) (w a b : Word) (c : Bool) : Engine := (e.setReg (rdOf w) (addR a b c)).flagsAdd a b c

/-- RD ← a − b − borrow in, with Z N C V. -/
def Engine.putSub (e : Engine) (w a b : Word) (c : Bool) : Engine := (e.setReg (rdOf w) (subR a b c)).flagsSub a b c

/-- Amount of a shift: FN[4:0] or RB[4:0]. -/
def Engine.shiftAmt (e : Engine) (w : Word) : Nat :=
  if bitOf (fnOf w) 11 then fieldOf (fnOf w) 0 5 else (e.rb w).toNat % 32

/-- RD ← RA shifted, with Z N C. -/
def Engine.putShift (e : Engine) (w : Word) (kind : Nat) : Engine :=
  let k := e.shiftAmt w
  { e.putZN w (shiftR kind (e.ra w) k) with c := shiftC kind (e.ra w) k e.c }

/-- LSB and WIDTH of ext and ins. -/
def fieldLsb (w : Word) : Nat := fieldOf (immZ w).toNat 13 5
def fieldWidth (w : Word) : Nat := fieldOf (immZ w).toNat 8 5 + 1

/-- ADD: RD ← RA + RB (R152). -/
def execAdd (c : Fin 33) (s : State) : Res := .next (s.regOp c .add (fun e w => e.putAdd w (e.ra w) (e.rb w) false))

/-- ADDI: RD ← RA + IMM18, sign-extended (R148, R152). -/
def execAddi (c : Fin 33) (s : State) : Res := .next (s.regOp c .addi (fun e w => e.putAdd w (e.ra w) (immS w) false))

/-- SUB: RD ← RA − RB (R152). -/
def execSub (c : Fin 33) (s : State) : Res := .next (s.regOp c .sub (fun e w => e.putSub w (e.ra w) (e.rb w) false))

/-- ADC: RD ← RA + RB + C (R152). -/
def execAdc (c : Fin 33) (s : State) : Res := .next (s.regOp c .adc (fun e w => e.putAdd w (e.ra w) (e.rb w) e.c))

/-- SBC: RD ← RA − RB − C (R152). -/
def execSbc (c : Fin 33) (s : State) : Res := .next (s.regOp c .sbc (fun e w => e.putSub w (e.ra w) (e.rb w) e.c))

/-- AND: RD ← RA AND RB (R152). -/
def execAndReg (c : Fin 33) (s : State) : Res := .next (s.regOp c .andR (fun e w => e.putZN w (e.ra w &&& e.rb w)))

/-- ANDI (R148, R152). -/
def execAndi (c : Fin 33) (s : State) : Res := .next (s.regOp c .andi (fun e w => e.putZN w (e.ra w &&& immZ w)))

/-- OR: RD ← RA OR RB (R152). -/
def execOrReg (c : Fin 33) (s : State) : Res := .next (s.regOp c .orR (fun e w => e.putZN w (e.ra w ||| e.rb w)))

/-- ORI (R148, R152). -/
def execOri (c : Fin 33) (s : State) : Res := .next (s.regOp c .ori (fun e w => e.putZN w (e.ra w ||| immZ w)))

/-- XOR: RD ← RA XOR RB (R152). -/
def execXor (c : Fin 33) (s : State) : Res := .next (s.regOp c .xor (fun e w => e.putZN w (e.ra w ^^^ e.rb w)))

/-- XORI (R148, R152). -/
def execXori (c : Fin 33) (s : State) : Res := .next (s.regOp c .xori (fun e w => e.putZN w (e.ra w ^^^ immZ w)))

/-- CMP: flags of RA − RB (R152). -/
def execCmp (c : Fin 33) (s : State) : Res := .next (s.regOp c .cmp (fun e w => e.flagsSub (e.ra w) (e.rb w) false))

/-- CMPI: flags of RA − IMM18 (R148, R152). -/
def execCmpi (c : Fin 33) (s : State) : Res := .next (s.regOp c .cmpi (fun e w => e.flagsSub (e.ra w) (immS w) false))

/-- MUL: the low 32 bits of RA × RB (R152). -/
def execMul (c : Fin 33) (s : State) : Res := .next (s.regOp c .mul (fun e w => e.putZN w (e.ra w * e.rb w)))

/-- LUI: RD ← IMM18 << 14 (R152). -/
def execLui (c : Fin 33) (s : State) : Res := .next (s.regOp c .lui (fun e w => e.setReg (rdOf w) (immZ w <<< 14)))

/-- MOVI: RD ← IMM18, sign-extended (R148, R152). -/
def execMovi (c : Fin 33) (s : State) : Res := .next (s.regOp c .movi (fun e w => e.setReg (rdOf w) (immS w)))

/-- SHL (R152). -/
def execShl (c : Fin 33) (s : State) : Res := .next (s.regOp c .shl (fun e w => e.putShift w 0))

/-- SHR (R152). -/
def execShr (c : Fin 33) (s : State) : Res := .next (s.regOp c .shr (fun e w => e.putShift w 1))

/-- SAR (R152). -/
def execSar (c : Fin 33) (s : State) : Res := .next (s.regOp c .sar (fun e w => e.putShift w 2))

/-- ROR (R152). -/
def execRor (c : Fin 33) (s : State) : Res := .next (s.regOp c .ror (fun e w => e.putShift w 3))

/-- EXT: a bit field of RA, zero- or sign-extended (R152). -/
def execExt (c : Fin 33) (s : State) : Res :=
  .next (s.regOp c .ext (fun e w => e.putZN w (extField (e.ra w) (fieldLsb w) (fieldWidth w) (bitOf (immZ w).toNat 7))))

/-- INS: the low bits of RA into a field of RD (R152). -/
def execIns (c : Fin 33) (s : State) : Res :=
  .next (s.regOp c .ins (fun e w => e.putZN w (insField (e.reg (rdOf w)) (e.ra w) (fieldLsb w) (fieldWidth w))))

/-- NSWAP (R152). -/
def execNswap (c : Fin 33) (s : State) : Res := .next (s.regOp c .nswap (fun e w => e.putZN w (nswap (e.ra w))))

/-- BSWAP16 (R152). -/
def execBswap16 (c : Fin 33) (s : State) : Res := .next (s.regOp c .bswap16 (fun e w => e.putZN w (bswap16 (e.ra w))))

/-- BSWAP32 (R152). -/
def execBswap32 (c : Fin 33) (s : State) : Res := .next (s.regOp c .bswap32 (fun e w => e.putZN w (bswap32 (e.ra w))))

/-- CLZ (R152). -/
def execClz (c : Fin 33) (s : State) : Res := .next (s.regOp c .clz (fun e w => e.putZN w (clz (e.ra w))))

/-- POPC (R152). -/
def execPopc (c : Fin 33) (s : State) : Res := .next (s.regOp c .popc (fun e w => e.putZN w (popc (e.ra w))))

/-- NOT (R152). -/
def execNotReg (c : Fin 33) (s : State) : Res := .next (s.regOp c .notR (fun e w => e.putZN w (~~~ e.ra w)))

/-- NEG: RD ← 0 − RA, with C and V (R152). -/
def execNeg (c : Fin 33) (s : State) : Res := .next (s.regOp c .neg (fun e w => e.putSub w 0 (e.ra w) false))

/-- SEXT8 (R152). -/
def execSext8 (c : Fin 33) (s : State) : Res :=
  .next (s.regOp c .sext8 (fun e w => e.putZN w (((e.ra w).extractLsb' 0 8).signExtend 32)))

/-- SEXT16 (R152). -/
def execSext16 (c : Fin 33) (s : State) : Res :=
  .next (s.regOp c .sext16 (fun e w => e.putZN w (((e.ra w).extractLsb' 0 16).signExtend 32)))

end Sys2Proof.Machine
end

