-- ==== Sys2Proof/Machine/EngineMem.lean ====
section
/-! DEFINITION. Loads, stores, atomics and fence (R109, R112, R113, R153–R155, R166). -/

namespace Sys2Proof.Machine

/-- RD, or the pair RD, RD+1, gets the `n` loaded bytes, zero-extended. -/
def Engine.putLoad (e : Engine) (w : Word) (d : List Byte) : Engine :=
  if szOf w = 3 then e.setPair (rdOf w) (leNat d) else e.setReg (rdOf w) (BitVec.ofNat 32 (leNat d))

/-- The bytes a store writes. -/
def Engine.storeData (e : Engine) (w : Word) : List Byte := leBytes (e.regSized (rdOf w) (szOf w)) (szBytes (szOf w))

/-- Address and size of a MEM access of core `c`. -/
def State.memAt (s : State) (c : Nat) (w : Word) : Nat := (s.engine c).memAddr w

/-- A MEM access that is not naturally aligned, and one beyond `limit` (R153). -/
def misaligned (a : Nat) (w : Word) : Bool := a % szBytes (szOf w) ≠ 0

/-- LDL (R153): a double-bit error in the engine's data RAM resets the facet (R109). -/
def State.doLdl (s : State) (c : Fin 33) (w : Word) : State :=
  let a := s.memAt c w
  s.raiseEither c (misaligned a w) (decide (localSize c ≤ a)) 3 4 (fun s =>
    s.afterStores c (fun s =>
      let at' := localAt c + a
      if s.hasDbe at' then s.meetDbe at' (c + 1)
      else
        let s := if s.hasSbe at' then s.correct at' else s
        s.finishWith c ((s.engine c).putLoad w (s.bytes at' (szBytes (szOf w))))))

/-- LDL. -/
def execLdl (c : Fin 33) (s : State) : Res := .next (s.runOp c .ldl (fun s w => s.doLdl c w))

/-- A store into the core's own data RAM; like every aligned 8-byte write one of a doubleword clears an error, and a
narrower one into a word with a double-bit error is not carried out (R109). -/
def State.putLocal (s : State) (a : Nat) (d : List Byte) : State :=
  if s.hasDbe a && d.length < 8 then s
  else (if d.length = 8 then (s.setDbe a false).setSbe a false else s).setBytes a d

/-- STL (R153). -/
def State.doStl (s : State) (c : Fin 33) (w : Word) : State :=
  let a := s.memAt c w
  s.raiseEither c (misaligned a w) (decide (localSize c ≤ a)) 3 4 (fun s =>
    s.afterStores c (fun s =>
      (s.putLocal (localAt c + a) ((s.engine c).storeData w)).finish c (s.pcNext c)))

/-- STL. -/
def execStl (c : Fin 33) (s : State) : Res := .next (s.runOp c .stl (fun s w => s.doStl c w))

/-- Where the facet store of engine `c` lies (R16). -/
def facetAt (c : Nat) : Nat := 0x0D00_0000 + c / 4 * 0x4_0000

/-- The exception of a load that met a double-bit error (R155): FACET_DBE in the own store, FAR_DBE elsewhere. An error
in a RAM of the engine's own facet has already reset it. -/
def State.loadDbe (s : State) (c : Nat) (a : Nat) : State :=
  match regionOf a with
  | .store f => s.exception c (if c < 32 && f = c / 4 then 6 else 7) (s.pc c)
  | .engineRam e => if c < 32 && e / 4 = c / 4 then s else s.exception c 7 (s.pc c)
  | _ => s.exception c 7 (s.pc c)

/-- A far load of `n` bytes at `a` (R111, R153, R155), which waits while its bank is not ON (R459). -/
def State.farLoad (s : State) (c : Fin 33) (w : Word) (a : Nat) : State :=
  if !s.ready a then
    (if (s.engine c).waiting = .bank then s else s.noteNotOn).await c .bank
  else
    let r := s.mapRead1 (s.corePath c) a (szBytes (szOf w))
    if r.2.1 then r.2.2.loadDbe c a
    else r.2.2.finishWith c ((r.2.2.engine c).putLoad w r.1)

/-- LDF (R153). -/
def State.doLdf (s : State) (c : Fin 33) (w : Word) : State :=
  let a := s.memAt c w
  s.raiseEither c (misaligned a w) (decide (0x4_0000 ≤ a)) 3 5 (fun s =>
    s.afterStores c (fun s => s.farLoad c w (facetAt c + a)))

/-- LDF. -/
def execLdf (c : Fin 33) (s : State) : Res := .next (s.runOp c .ldf (fun s w => s.doLdf c w))

/-- STF (R112, R153): posted. -/
def State.doStf (s : State) (c : Fin 33) (w : Word) : State :=
  let a := s.memAt c w
  s.raiseEither c (misaligned a w) (decide (0x4_0000 ≤ a)) 3 5 (fun s =>
    s.postStore c { far := false, addr := facetAt c + a, data := (s.engine c).storeData w })

/-- STF. -/
def execStf (c : Fin 33) (s : State) : Res := .next (s.runOp c .stf (fun s w => s.doStf c w))

/-- LDX (R153). -/
def State.doLdx (s : State) (c : Fin 33) (w : Word) : State :=
  let a := s.memAt c w
  if misaligned a w then s.exception c 3 (s.pc c) else s.afterStores c (fun s => s.farLoad c w a)

/-- LDX. -/
def execLdx (c : Fin 33) (s : State) : Res := .next (s.runOp c .ldx (fun s w => s.doLdx c w))

/-- STX (R112, R153): posted. -/
def State.doStx (s : State) (c : Fin 33) (w : Word) : State :=
  let a := s.memAt c w
  if misaligned a w then s.exception c 3 (s.pc c)
  else s.postStore c { far := true, addr := a, data := (s.engine c).storeData w }

/-- STX. -/
def execStx (c : Fin 33) (s : State) : Res := .next (s.runOp c .stx (fun s w => s.doStx c w))

/-- An atomic on the word or doubleword at `a` (R108, R154, R468). -/
def State.atomAt (s : State) (c : Fin 33) (w : Word) (a : Nat) (swap : Bool) : State :=
  let wide := bitOf (fnOf w) 11
  if !s.ready a then
    (if (s.engine c).waiting = .bank then s else s.noteNotOn).await c .bank
  else
    let g := s.engine c
    let x := if wide then g.pair (rbOf w) else (g.reg (rbOf w)).toNat
    let r := s.atomic (s.corePath c) a (if wide then 8 else 4) swap x
    if r.2.1 then r.2.2.loadDbe c a
    else
      let g := r.2.2.engine c
      r.2.2.finishWith c (if wide then g.setPair (rdOf w) r.1 else g.setReg (rdOf w) (BitVec.ofNat 32 r.1))

/-- Bytes of an atomic. -/
def atomBytes (w : Word) : Nat := if bitOf (fnOf w) 11 then 8 else 4

/-- An atomic in the facet space (R154). -/
def State.doAtomF (s : State) (c : Fin 33) (w : Word) (swap : Bool) : State :=
  let a := ((s.engine c).ra w).toNat
  s.raiseEither c (decide (a % atomBytes w ≠ 0)) (decide (0x4_0000 ≤ a)) 3 5 (fun s =>
    s.afterStores c (fun s => s.atomAt c w (facetAt c + a) swap))

/-- An atomic in the far space: its target is a bank or a facet store (R154). -/
def State.doAtomX (s : State) (c : Fin 33) (w : Word) (swap : Bool) : State :=
  let a := ((s.engine c).ra w).toNat
  s.raiseEither c (decide (a % atomBytes w ≠ 0)) (!atomicTarget a) 3 8 (fun s =>
    s.afterStores c (fun s => s.atomAt c w a swap))

/-- FADD_F (R154). -/
def execFaddF (c : Fin 33) (s : State) : Res := .next (s.runOp c .faddF (fun s w => s.doAtomF c w false))

/-- SWAP_F (R154). -/
def execSwapF (c : Fin 33) (s : State) : Res := .next (s.runOp c .swapF (fun s w => s.doAtomF c w true))

/-- FADD_X (R154). -/
def execFaddX (c : Fin 33) (s : State) : Res := .next (s.runOp c .faddX (fun s w => s.doAtomX c w false))

/-- SWAP_X (R154). -/
def execSwapX (c : Fin 33) (s : State) : Res := .next (s.runOp c .swapX (fun s w => s.doAtomX c w true))

/-- FENCE completes when every posted store of the engine has completed (R155). -/
def State.doFence (s : State) (c : Fin 33) : State :=
  if (s.engine c).posted.isEmpty then s.finish c (s.pcNext c) else s.await c .stores

/-- FENCE. -/
def execFence (c : Fin 33) (s : State) : Res := .next (s.runOp c .fence (fun s _ => s.doFence c))

end Sys2Proof.Machine
end

