-- ==== Sys2Proof/Machine/EngineFlow.lean ====
section
/-! DEFINITION. Control instructions (R128, R150, R156). -/

namespace Sys2Proof.Machine

/-- B_COND: branch if the condition holds (R150, R156). -/
def execBCond (c : Fin 33) (s : State) : Res :=
  .next (s.runOp c .bCond (fun s w =>
    if (s.engine c).cond (rdOf w) then s.jump c (brTarget w (s.pc c)) else s.finish c (s.pcNext c)))

/-- g15 ← the address after the present instruction (R156). -/
def State.linked (s : State) (c : Nat) : State :=
  s.setEngine c ((s.engine c).setReg 15 (BitVec.ofNat 32 (s.pcNext c)))

/-- The target lies where a branch may go; Apex finds a bad one at the fetch (R156, R166). -/
def State.targetOk (s : State) (c : Nat) (t : Int) : Bool := c = 32 || (0 ≤ t && t.toNat < s.codeWords c)

/-- CALL: g15 ← address + 1; branch. A target out of range leaves g15 unchanged (R156, R165). -/
def execCall (c : Fin 33) (s : State) : Res :=
  .next (s.runOp c .call (fun s w =>
    let t := brTarget w (s.pc c)
    (if s.targetOk c t then s.linked c else s).jump c t))

/-- JR: jump to RA (R156). -/
def execJr (c : Fin 33) (s : State) : Res :=
  .next (s.runOp c .jr (fun s w => s.jump c (((s.engine c).ra w).toNat : Int)))

/-- CALLR: jump to RA, g15 ← address + 1 first; RA = g15 gives the old value (R156). -/
def execCallr (c : Fin 33) (s : State) : Res :=
  .next (s.runOp c .callr (fun s w =>
    let t : Int := (((s.engine c).ra w).toNat : Int)
    (if s.targetOk c t then s.linked c else s).jump c t))

/-- CBZ: branch if the register is 0 (R156). -/
def execCbz (c : Fin 33) (s : State) : Res :=
  .next (s.runOp c .cbz (fun s w =>
    if (s.engine c).reg (rdOf w) = 0 then s.jump c (brTarget w (s.pc c)) else s.finish c (s.pcNext c)))

/-- CBNZ: branch if the register is not 0 (R156). -/
def execCbnz (c : Fin 33) (s : State) : Res :=
  .next (s.runOp c .cbnz (fun s w =>
    if (s.engine c).reg (rdOf w) ≠ 0 then s.jump c (brTarget w (s.pc c)) else s.finish c (s.pcNext c)))

/-- HALT waits for the posted stores and enters HALTED with HALT_CAUSE 2 and PC ← address + 1 (R156). -/
def State.doHaltInsn (s : State) (c : Fin 33) : State :=
  if (s.engine c).posted.isEmpty then
    let s := s.setPc c (s.pcNext c)
    if c.val = 32 then ((s.setCoreState 32 0).wr (coreIdx 32) 6 2).setEngine 32 { s.engine 32 with waiting := .none }
    else (s.setEngine c { s.engine c with haltWhy := 2 }).halted c
  else s.await c .stores

/-- HALT. -/
def execHalt (c : Fin 33) (s : State) : Res := .next (s.runOp c .halt (fun s _ => s.doHaltInsn c))

/-- NOP (R156). -/
def execNop (c : Fin 33) (s : State) : Res := .next (s.runOp c .nop (fun s _ => s.finish c (s.pcNext c)))

/-- HBEAT: a heartbeat to the engine's watchdog, counted in HEARTBEATS (R128, R140, R156). -/
def execHbeat (c : Fin 33) (s : State) : Res :=
  .next (s.runOp c .hbeat (fun s _ => (s.cnt (0x2400 + c.val) 0xB).finish c (s.pcNext c)))

end Sys2Proof.Machine
end

