-- ==== Sys2Proof/Machine/EngineLanes.lean ====
section
/-! DEFINITION. Lane instructions and the CRC unit (R120–R122, R157–R161). -/

namespace Sys2Proof.Machine

/-- A receive instruction may look at the lane: it is bound and no discard runs (R159). -/
def Engine.rxFree (e : Engine) : Bool := fieldOf e.rxBound 0 5 ≠ 0 && decide (e.rxDiscard = .off)

/-- The nibbles at offsets `off` to `off + n − 1`, fewer where a marker stands first; none while they have not all
arrived and no marker has (R157). -/
def Engine.window (e : Engine) (off n : Nat) : Option (List Nib) :=
  let l := headNibs e.rx
  if off + n ≤ l.length then some ((l.drop off).take n)
  else if hasMarker e.rx then some (l.drop off) else none

/-- The little-endian word nibbles build (R158). -/
def nibWord : List Nib → Nat
  | [] => 0
  | n :: t => n.toNat + 16 * nibWord t

/-- The low `n` nibbles of a word, [3:0] first (R158). -/
def wordNibs (v : Word) (n : Nat) : List Nib := (List.range n).map (fun k => v.extractLsb' (4 * k) 4)

/-- Remove the first nibbles from the lane: counted in POS and folded under tap mode 1 (R157, R161). -/
def Engine.consume (e : Engine) (l : List Nib) : Engine :=
  let e := { e with rx := e.rx.drop l.length, rxPos := e.rxPos + l.length }
  l.foldl (fun e n => e.tap 1 n) e

/-- TAKE (R157): stops short at a marker with C = 1. -/
def State.doTake (s : State) (c : Nat) (w : Word) : State :=
  let g := s.engine c
  match (if g.rxFree then g.window 0 (laneN w) else none) with
  | none => s.await c .lane
  | some l =>
    s.finishWith c { (g.consume l).setReg (rdOf w) (BitVec.ofNat 32 (nibWord l)) with c := decide (l.length < laneN w) }

/-- TAKE. -/
def execTake (c : Fin 33) (s : State) : Res := .next (s.runOp c .take (fun s w => s.doTake c w))

/-- PEEK (R157). -/
def State.doPeek (s : State) (c : Nat) (w : Word) : State :=
  let g := s.engine c
  match (if g.rxFree then g.window (laneOff w) (laneN w) else none) with
  | none => s.await c .lane
  | some l =>
    s.finishWith c { g.setReg (rdOf w) (BitVec.ofNat 32 (nibWord l)) with c := decide (l.length < laneN w) }

/-- PEEK. -/
def execPeek (c : Fin 33) (s : State) : Res := .next (s.runOp c .peek (fun s w => s.doPeek c w))

/-- MATCH (R157): Z = 1 if ((peek XOR RA) AND RB) = 0 over the low 4n bits; C as peek. -/
def State.doMatch (s : State) (c : Nat) (w : Word) : State :=
  let g := s.engine c
  match (if g.rxFree then g.window (laneOff w) (laneN w) else none) with
  | none => s.await c .lane
  | some l =>
    let d := (BitVec.ofNat 32 (nibWord l) ^^^ g.ra w) &&& g.rb w &&& lowMask (4 * laneN w)
    s.finishWith c { g with z := decide (d = 0), c := decide (l.length < laneN w) }

/-- MATCH. -/
def execMatchLane (c : Fin 33) (s : State) : Res := .next (s.runOp c .matchL (fun s w => s.doMatch c w))

/-- SKIP (R157, R159): added to a skip that is still discarding; a running skipf goes on (log entry 24). -/
def Engine.armSkip (e : Engine) (n : Nat) : Engine :=
  match e.rxDiscard with
  | .off => if n = 0 then e else ({ e with rxDiscard := .count n }).settleRx
  | .count k => ({ e with rxDiscard := .count (k + n) }).settleRx
  | .frame => e

/-- SKIP. -/
def execSkip (c : Fin 33) (s : State) : Res :=
  .next (s.regOp c .skip (fun e w => e.armSkip (fieldOf (immZ w).toNat 0 12)))

/-- SKIPF (R157, R159): replaces a running skip. -/
def execSkipf (c : Fin 33) (s : State) : Res :=
  .next (s.regOp c .skipf (fun e _ => ({ e with rxDiscard := .frame }).settleRx))

/-- MARK (R157): a marker at the head is removed into RD. -/
def State.doMark (s : State) (c : Nat) (w : Word) : State :=
  let g := s.engine c
  if !g.rxFree then s.await c .lane
  else match g.rx with
    | [] => s.await c .lane
    | .nib _ :: _ => s.finishWith c { g with c := false }
    | .start v :: t => s.finishWith c { g.setReg (rdOf w) v with rx := t, rxPos := 0, c := true, n := false }
    | .fin v :: t => s.finishWith c { g.setReg (rdOf w) v with rx := t, c := true, n := true }

/-- MARK. -/
def execMark (c : Fin 33) (s : State) : Res := .next (s.runOp c .mark (fun s w => s.doMark c w))

/-- Nibbles in the transmit FIFO. -/
def txCount : List TxItem → Nat
  | [] => 0
  | .nib _ :: t => txCount t + 1
  | .fin _ :: t => txCount t

/-- GIVE (R112, R122, R157): waits while the FIFO lacks room; after an underrun the frame's nibbles are discarded. -/
def State.doGive (s : State) (c : Fin 33) (w : Word) : State :=
  s.afterStores c (fun s =>
    let g := s.engine c
    let l := wordNibs (g.ra w) (laneN w)
    if g.txDrop then s.finishWith c (l.foldl (fun e n => e.tap 2 n) g)
    else if 128 < txCount g.tx + laneN w then s.await c .room
    else (s.finishWith c (l.foldl (fun e n => e.tap 2 n) { g with tx := g.tx ++ l.map TxItem.nib })).settleTx c)

/-- GIVE. -/
def execGive (c : Fin 33) (s : State) : Res := .next (s.runOp c .give (fun s w => s.doGive c w))

/-- Remove the items after the last END: the frame that has not begun (R160). -/
def dropOpenFrame (l : List TxItem) : List TxItem :=
  (l.reverse.dropWhile (fun i => match i with | .nib _ => true | .fin _ => false)).reverse

/-- Whether the open frame is the one on the wire. -/
def Engine.openOnWire (e : Engine) : Bool :=
  e.txOn && e.tx.all (fun i => match i with | .nib _ => true | .fin _ => false)

/-- GEND (R122, R157, R160): waits while the FIFO is full (log entry 25). -/
def State.doGend (s : State) (c : Nat) (w : Word) : State :=
  let g := s.engine c
  let stomp := laneOff w = 1
  if g.txDrop then s.finishWith c { g with txDrop := false }
  else if stomp && !g.openOnWire then s.finishWith c { g with tx := dropOpenFrame g.tx }
  else if 128 ≤ txCount g.tx then s.await c .room
  else (s.finishWith c { g with tx := g.tx ++ [TxItem.fin stomp] }).settleTx c

/-- GEND. -/
def execGend (c : Fin 33) (s : State) : Res := .next (s.runOp c .gend (fun s w => s.doGend c w))

/-- LSTAT (R157). -/
def Engine.lstat (e : Engine) : Word :=
  BitVec.ofNat 32 (e.rxPos % 2 ^ 16 + (headNibs e.rx).length * 2 ^ 16 + (128 - txCount e.tx) * 2 ^ 24)

/-- LSTAT. -/
def execLstat (c : Fin 33) (s : State) : Res := .next (s.regOp c .lstat (fun e w => e.setReg (rdOf w) e.lstat))

/-- CRC_INIT (R161). -/
def execCrcInit (c : Fin 33) (s : State) : Res :=
  .next (s.regOp c .crcInit (fun e w =>
    { e with crcPoly := laneOff w, crc := crcTrim (laneOff w) (e.ra w), crcHalf := none }))

/-- CRC_FOLD (R161): the low n nibbles of RA; an odd n under POLY 3 is illegal. -/
def execCrcFold (c : Fin 33) (s : State) : Res :=
  .next (s.runOp c .crcFold (fun s w =>
    let g := s.engine c
    if g.crcPoly = 3 && laneN w % 2 = 1 then s.exception c 1 (s.pc c)
    else s.finishWith c { g with crc := crcTrim g.crcPoly (crcFold g.crcPoly g.crc (wordNibs (g.ra w) (laneN w))) }))

/-- CRC_READ (R161): the state XOR the polynomial's final XOR. -/
def execCrcRead (c : Fin 33) (s : State) : Res :=
  .next (s.regOp c .crcRead (fun e w => e.setReg (rdOf w) (e.crc ^^^ crcFinal e.crcPoly)))

/-- CRC_WRITE (R161). -/
def execCrcWrite (c : Fin 33) (s : State) : Res :=
  .next (s.regOp c .crcWrite (fun e w => { e with crc := crcTrim e.crcPoly (e.ra w) }))

/-- CRC_TAP (R161). -/
def execCrcTap (c : Fin 33) (s : State) : Res :=
  .next (s.regOp c .crcTap (fun e w => { e with crcTap := laneOff w }))

end Sys2Proof.Machine
end

