-- ==== Sys2Proof/Machine/EngineSync.lean ====
section
/-! DEFINITION. Time, event and mailbox instructions, Apex's privileged instruction, and the end of a wait (R124,
R151, R162–R164, R167). -/

namespace Sys2Proof.Machine

/-- TIME (R162): the low 32 bits of the domain; all 64 go into the engine's latch. `dt` rim ticks pass before it. -/
def execTimeRead (c : Fin 33) (dt : Nat) (s : State) : Res :=
  .next ((s.advance dt).runOp c .time (fun s w =>
    let d := fieldOf (fnOf w) 0 2
    let g := s.engine c
    let t := s.now64 d
    s.finishWith c { g.setReg (rdOf w) (BitVec.ofNat 32 t) with
      tdLatch := tblSet (fun _ => 0) d (BitVec.ofNat 64 t) g.tdLatch }))

/-- TIMEH (R162): the high 32 bits of the latch. -/
def execTimeh (c : Fin 33) (s : State) : Res :=
  .next (s.regOp c .timeh (fun e w =>
    e.setReg (rdOf w) ((tblGet (fun _ => 0) (fieldOf (fnOf w) 0 2) e.tdLatch).extractLsb' 32 32)))

/-- TWAIT (R162, R264): completes once (int32)(now − RA) ≥ 0. -/
def State.doTwait (s : State) (c : Nat) (w : Word) : State :=
  if isDue (s.now32 (fieldOf (fnOf w) 0 2)) ((s.engine c).ra w).toNat then s.finish c (s.pcNext c) else s.await c .time

/-- TWAIT. -/
def execTwait (c : Fin 33) (dt : Nat) (s : State) : Res :=
  .next ((s.advance dt).runOp c .twait (fun s w => s.doTwait c w))

/-- The half of EVP an event instruction selects, under its mask (R163). -/
def State.evpUnder (s : State) (c : Nat) (w : Word) : Word :=
  let e := s.evpSeen c
  (if bitOf (fnOf w) 0 then e.extractLsb' 32 32 else e.extractLsb' 0 32) &&& (s.engine c).ra w

/-- Clear the bits taken; DOORBELL follows its channels (R163). -/
def Engine.takeEvp (e : Engine) (w v : Word) : Engine :=
  { e with evp := e.evp &&& ~~~ (if bitOf (fnOf w) 0 then v ++ (0 : Word) else (0 : Word) ++ v) }

/-- RD gets the bits, they are cleared, Z says whether there were none (R163). -/
def State.giveEvents (s : State) (c : Nat) (w v : Word) : State :=
  s.finishWith c { ((s.engine c).takeEvp w v).setReg (rdOf w) v with z := decide (v = 0) }

/-- EWAIT (R163). -/
def State.doEwait (s : State) (c : Nat) (w : Word) : State :=
  if s.evpUnder c w ≠ 0 then s.giveEvents c w (s.evpUnder c w) else s.await c .event

/-- EWAIT. -/
def execEwait (c : Fin 33) (s : State) : Res := .next (s.runOp c .ewait (fun s w => s.doEwait c w))

/-- EWAIT with a timeout (R163): ends with RD ← 0 and Z = 1 when the domain reaches RB. -/
def State.doEwaitT (s : State) (c : Nat) (w : Word) : State :=
  if s.evpUnder c w ≠ 0 then s.giveEvents c w (s.evpUnder c w)
  else if isDue (s.now32 (fieldOf (fnOf w) 2 2)) ((s.engine c).rb w).toNat then s.giveEvents c w 0
  else s.await c .event

/-- EWAIT_TIMEOUT. -/
def execEwaitTimeout (c : Fin 33) (dt : Nat) (s : State) : Res :=
  .next ((s.advance dt).runOp c .ewaitT (fun s w => s.doEwaitT c w))

/-- EPOLL (R163). -/
def execEpoll (c : Fin 33) (s : State) : Res :=
  .next (s.runOp c .epoll (fun s w => s.giveEvents c w (s.evpUnder c w)))

/-! ### Mailboxes (R164) -/

/-- LOCK: RD ← 0 with C = 1 when ownership is granted or already held (R478); the owner with C = 0; a forbidden access
gives 0 with C = 0. -/
def State.doLock (s : State) (c : Fin 33) (w : Word) : State :=
  let ch := fnOf w
  let p := s.corePath c
  if s.readOk p (0x2C10 + ch) 6 then
    let r := s.lockRead ch p.id.val
    r.2.finishWith c { (r.2.engine c).setReg (rdOf w) (BitVec.ofNat 32 r.1) with c := decide (r.1 = 0) }
  else
    let s := s.violate p.id.val
    s.finishWith c { (s.engine c).setReg (rdOf w) 0 with c := false }

/-- LOCK. -/
def execLock (c : Fin 33) (s : State) : Res :=
  .next (s.runOp c .lock (fun s w => s.afterStores c (fun s => s.doLock c w)))

/-- UNLOCK: ignored unless this engine owns the lock (R164). -/
def State.doUnlock (s : State) (c : Fin 33) (w : Word) : State :=
  let ch := fnOf w
  let p := s.corePath c
  let s :=
    if !s.readOk p (0x2C10 + ch) 6 then s.violate p.id.val
    else if s.n (0x2C10 + ch) 7 = p.id.val then s.lockFree ch
    else s
  s.finish c (s.pcNext c)

/-- UNLOCK. -/
def execUnlock (c : Fin 33) (s : State) : Res :=
  .next (s.runOp c .unlock (fun s w => s.afterStores c (fun s => s.doUnlock c w)))

/-- POST: the first RB[10:0] bytes with doorbell bits RA (R164, R480). -/
def State.doPostInsn (s : State) (c : Fin 33) (w : Word) : State :=
  s.afterStores c (fun s =>
    let ch := fnOf w
    let g := s.engine c
    let len := fieldOf (g.rb w).toNat 0 11
    let s := s.guard (s.corePath c) (0x2C10 + ch) 8 ((g.ra w).toNat + len * 2 ^ 32) (fun s => s.post ch (g.ra w) len)
    s.finish c (s.pcNext c))

/-- POST. -/
def execPost (c : Fin 33) (s : State) : Res := .next (s.runOp c .post (fun s w => s.doPostInsn c w))

/-- DBRD: pending AND unmasked bits; C = 1 when the message fails its check (R164, R482). -/
def State.doDbrd (s : State) (c : Fin 33) (w : Word) : State :=
  s.afterStores c (fun s =>
    let ch := fnOf w
    let p := s.corePath c
    if s.readOk p (0x2C10 + ch) 0xC then
      let bad := !s.mboxIntact ch
      let r := s.dbRead ch
      r.2.finishWith c { (r.2.engine c).setReg (rdOf w) r.1 with c := bad }
    else
      let s := s.violate p.id.val
      s.finishWith c { (s.engine c).setReg (rdOf w) 0 with c := false })

/-- DBRD. -/
def execDbrd (c : Fin 33) (s : State) : Res := .next (s.runOp c .dbrd (fun s w => s.doDbrd c w))

/-- DBCLR (R164, R481). -/
def State.doDbclr (s : State) (c : Fin 33) (w : Word) : State :=
  s.afterStores c (fun s =>
    let ch := fnOf w
    let v := (s.engine c).ra w
    let s := s.guard (s.corePath c) (0x2C10 + ch) 0xC v.toNat (fun s => s.dbClear ch v)
    s.finish c (s.pcNext c))

/-- DBCLR. -/
def execDbclr (c : Fin 33) (s : State) : Res := .next (s.runOp c .dbclr (fun s w => s.doDbclr c w))

/-! ### Apex (R167) -/

/-- WDKICK: the Apex watchdog restarts (R167, R523). -/
def execWdkick (c : Fin 33) (s : State) : Res :=
  .next (s.runOp c .wdkick (fun s _ =>
    let s := { s with sup := { s.sup with watchdog := true } }
    s.finish c (s.pcNext c)))

/-- FUSERD (R167): 0 when RA[31:8] is not 0. -/
def execFuserd (c : Fin 33) (s : State) : Res :=
  .next (s.regOp c .fuserd (fun e w =>
    let a := (e.ra w).toNat
    e.setReg (rdOf w) (if a < 256 then Config.fuseWord a else 0)))

/-- MRAMW (R167): a doubleword of MRAM, written and verified; outside MRAM or unaligned MRAM_TARGET. It waits while MRAM
may not be written (R544). -/
def State.doMramw (s : State) (c : Fin 33) (w : Word) : State :=
  s.afterStores c (fun s =>
    let g := s.engine c
    let a := (g.ra w).toNat
    if a % 8 ≠ 0 ∨ regionOf a ≠ .mram then s.exception c 10 (s.pc c)
    else if !s.mramWritable then s.await c .stores
    else
      let s := s.setBytes a (leBytes (g.pair (rbOf w)) 8)
      s.finish c (s.pcNext c))

/-- MRAMW. -/
def execMramw (c : Fin 33) (s : State) : Res := .next (s.runOp c .mramw (fun s w => s.doMramw c w))

/-- SHA (R167): one compression of the block at local RA into the state at local RB. The words of the state lie
little-endian like every word in memory (R4); those of the block are big-endian, as SHA-256 reads a message (log entry
26). -/
def State.doSha (s : State) (c : Fin 33) (w : Word) : State :=
  s.afterStores c (fun s =>
    let g := s.engine c
    let a := (g.ra w).toNat
    let b := (g.rb w).toNat
    if localSize c < a + 64 ∨ localSize c < b + 32 then s.exception c 4 (s.pc c)
    else
      let st := (List.range 8).map (fun k => BitVec.ofNat 32 (s.w32 (localAt c + b + 4 * k)))
      let r := shaCompress st (shaBlock (s.bytes (localAt c + a) 64))
      let s := s.setBytes (localAt c + b) (r.flatMap (fun v => leBytes v.toNat 4))
      s.finish c (s.pcNext c))

/-- SHA. -/
def execSha (c : Fin 33) (s : State) : Res := .next (s.runOp c .sha (fun s w => s.doSha c w))

/-- ENGSEC (R167): takes effect only while the engine is LOADING. -/
def execEngsec (c : Fin 33) (s : State) : Res :=
  .next (s.runOp c .engsec (fun s w =>
    let g := s.engine c
    let e := (g.ra w).toNat % 32
    let s := if s.n (0x2400 + e) 1 = 4 then s.wr (0x2400 + e) 0xE ((g.rb w).toNat % 2) else s
    s.finish c (s.pcNext c)))

/-! ### The end of a wait (R124, R151) -/

/-- Take up a waiting instruction again: it completes, or goes on waiting. -/
def State.resumeOp (s : State) (c : Fin 33) (w : Word) : EOp → State
  | .ldl => s.doLdl c w
  | .stl => s.doStl c w
  | .ldf => s.doLdf c w
  | .stf => s.doStf c w
  | .ldx => s.doLdx c w
  | .stx => s.doStx c w
  | .faddF => s.doAtomF c w false
  | .swapF => s.doAtomF c w true
  | .faddX => s.doAtomX c w false
  | .swapX => s.doAtomX c w true
  | .fence => s.doFence c
  | .halt => s.doHaltInsn c
  | .take => s.doTake c w
  | .peek => s.doPeek c w
  | .matchL => s.doMatch c w
  | .mark => s.doMark c w
  | .give => s.doGive c w
  | .gend => s.doGend c w
  | .twait => s.doTwait c w
  | .ewait => s.doEwait c w
  | .ewaitT => s.doEwaitT c w
  | .lock => s.afterStores c (fun s => s.doLock c w)
  | .unlock => s.afterStores c (fun s => s.doUnlock c w)
  | .post => s.doPostInsn c w
  | .dbrd => s.doDbrd c w
  | .dbclr => s.doDbclr c w
  | .mramw => s.doMramw c w
  | .sha => s.doSha c w
  | _ => s.setEngine c { s.engine c with waiting := .none }

/-- ENGINE_WAIT_END (R151): after `dt` rim ticks the awaited condition is looked at again. -/
def execEngineWaitEnd (c : Fin 33) (dt : Nat) (s : State) : Res :=
  let s := s.advance dt
  .next (if (s.engine c).waiting ≠ .none && (s.runs c || s.coreState c = 2) then
    match engDecode (c.val = 32) (s.insn c) with
    | some o => s.resumeOp c (s.insn c) o
    | none => s
  else s)

end Sys2Proof.Machine
end

