-- ==== Sys2Proof/WellFormed.lean ====
section
/-! DEFINITION. Well-formed commands: instance numbers are `Fin` in the syntax itself; the checks here are the ones
a type does not make (alignment and length of an access, R16; record and descriptor lengths; ranges of inputs). -/

namespace Sys2Proof

/-- Whether a sender can issue the command. -/
def wellFormed : Instr → Bool
  | .mapRead _ addr size beats => decide (1 ≤ beats) && decide (beats * size.bytes ≤ 128) && decide (addr.toNat % size.bytes = 0)
  | .mapWrite _ addr size data => decide (1 ≤ data.length) && decide (data.length ≤ 128) && decide (data.length % size.bytes = 0) && decide (addr.toNat % size.bytes = 0)
  | .odWrite _ _ _ _ => true
  | .windowReadLowSlot _ _ _ => true
  | .windowReadHighSlot _ _ _ => true
  | .windowWriteLowSlot _ _ _ _ => true
  | .windowWriteHighSlot _ _ _ _ => true
  | .eventStatusClear _ _ _ _ _ => true
  | .paramSave _ _ _ => true
  | .paramRestore _ _ _ => true
  | .paramHoldExpiry => true
  | .paramCopyWritten _ => true
  | .rimPllLockLost => true
  | .rimPllRelock => true
  | .vddioPresent _ => true
  | .vddioBankLost _ => true
  | .vddioClassSense _ _ _ => true
  | .aonPowerGood => true
  | .por => true
  | .coreBrownout => true
  | .coreBrownoutRelease => true
  | .resetNFall => true
  | .resetNAccept => true
  | .resetNRise => true
  | .bringupStepDone _ => true
  | .holdRelease _ _ _ => true
  | .holdAck _ _ => true
  | .holdRequest _ _ => true
  | .deviceReset _ _ => true
  | .engineReset _ _ => true
  | .facetReset _ _ => true
  | .macPortReset _ _ => true
  | .ringReset _ _ => true
  | .canReset _ _ => true
  | .pioBlockReset _ _ => true
  | .locusReset _ => true
  | .switchReset _ => true
  | .timeDomainReset _ _ => true
  | .blockResetComplete sub _ => decide (2 ≤ sub.val)
  | .integrityReset _ _ => true
  | .lockstepMismatch => true
  | .apexWatchdogExpiry => true
  | .thermalTrip _ _ => true
  | .thermalRelease => true
  | .triesClear _ _ => true
  | .optionsCommit _ _ => true
  | .optionsCommitEnd => true
  | .dozeRequest _ => true
  | .standbyRequest _ => true
  | .dozeTransitionDone => true
  | .standbyPowerDown => true
  | .dozeWakeWrite _ => true
  | .wakeSourceEvent _ _ _ => true
  | .dozeWakeDone => true
  | .standbyWake => true
  | .wakeConfigCheck _ _ => true
  | .configConfirmedWrite _ _ => true
  | .laneBindingWrite _ _ _ _ => true
  | .laneBindingApply _ _ => true
  | .rxLaneFrame _ _ _ _ => true
  | .txLaneFrameStart _ _ _ => true
  | .txLaneUnderrun _ => true
  | .engineRun _ _ => true
  | .engineHalt _ _ => true
  | .engineStep _ _ => true
  | .engineLoad _ _ => true
  | .engineHalted _ => true
  | .engineLoadDone _ _ _ => true
  | .hbPeriodExpiry _ => true
  | .facetDbeRestart _ => true
  | .imageInstall _ => true
  | .imageRemove _ => true
  | .imageLibraryOpDone _ => true
  | .processDataRead _ _ _ retries => decide (retries ≤ 1)
  | .postedStoreComplete _ => true
  | .engineWaitEnd _ _ => true
  | .add _ => true
  | .addi _ => true
  | .sub _ => true
  | .adc _ => true
  | .sbc _ => true
  | .andReg _ => true
  | .andi _ => true
  | .orReg _ => true
  | .ori _ => true
  | .xor _ => true
  | .xori _ => true
  | .cmp _ => true
  | .cmpi _ => true
  | .mul _ => true
  | .lui _ => true
  | .movi _ => true
  | .shl _ => true
  | .shr _ => true
  | .sar _ => true
  | .ror _ => true
  | .ext _ => true
  | .ins _ => true
  | .nswap _ => true
  | .bswap16 _ => true
  | .bswap32 _ => true
  | .clz _ => true
  | .popc _ => true
  | .notReg _ => true
  | .neg _ => true
  | .sext8 _ => true
  | .sext16 _ => true
  | .ldl _ => true
  | .stl _ => true
  | .ldf _ => true
  | .stf _ => true
  | .ldx _ => true
  | .stx _ => true
  | .faddF _ => true
  | .swapF _ => true
  | .faddX _ => true
  | .swapX _ => true
  | .fence _ => true
  | .bCond _ => true
  | .call _ => true
  | .jr _ => true
  | .callr _ => true
  | .cbz _ => true
  | .cbnz _ => true
  | .halt _ => true
  | .nop _ => true
  | .hbeat _ => true
  | .take _ => true
  | .peek _ => true
  | .skip _ => true
  | .give _ => true
  | .matchLane _ => true
  | .mark _ => true
  | .skipf _ => true
  | .gend _ => true
  | .lstat _ => true
  | .crcInit _ => true
  | .crcFold _ => true
  | .crcRead _ => true
  | .crcWrite _ => true
  | .crcTap _ => true
  | .timeRead _ _ => true
  | .timeh _ => true
  | .twait _ _ => true
  | .ewait _ => true
  | .ewaitTimeout _ _ => true
  | .epoll _ => true
  | .lock _ => true
  | .unlock _ => true
  | .post _ => true
  | .dbrd _ => true
  | .dbclr _ => true
  | .wdkick _ => true
  | .fuserd _ => true
  | .mramw _ => true
  | .sha _ => true
  | .engsec _ => true
  | .chordFrame _ _ _ _ _ _ _ _ => true
  | .chordCaptureWrite _ => true
  | .spliceCommit _ _ _ => true
  | .spliceLoadDone _ => true
  | .spliceTableActivate _ => true
  | .chordConfigApply _ => true
  | .mdioC22Write _ _ _ _ _ => true
  | .mdioC22Read _ _ _ _ _ => true
  | .mdioC45Address _ _ _ _ _ => true
  | .mdioC45Write _ _ _ _ _ => true
  | .mdioC45Read _ _ _ _ _ => true
  | .mdioC45ReadIncrement _ _ _ _ _ => true
  | .mdioFrameEnd _ _ => true
  | .mdioPoll _ _ _ _ _ _ _ => true
  | .linkUp _ _ => true
  | .linkDown _ _ => true
  | .portLinkConfigChange _ => true
  | .portFrameConfigApply _ _ => true
  | .serdesLockLost _ _ => true
  | .portFrameReceived _ _ _ _ _ => true
  | .portFrameTransmitted _ _ _ => true
  | .tsRecordWrite _ => true
  | .preemptVerifySend _ => true
  | .preemptVerifyResponse _ => true
  | .preemptVerifyFailed _ => true
  | .pauseRequestReceived _ => true
  | .pauseExpiry _ _ => true
  | .pauseRefreshTimer _ _ => true
  | .pauseWatchdogExpiry _ _ => true
  | .pauseResume _ _ _ => true
  | .switchAdmission _ _ _ _ _ => true
  | .frameStoreComplete _ => true
  | .txSelection _ _ _ => true
  | .fdbAgeExpiry _ _ => true
  | .fdbReadEntry _ => true
  | .fdbInsert _ => true
  | .fdbDelete _ => true
  | .fdbFlush _ => true
  | .gateConfigChange _ _ _ => true
  | .gateConfigOperational _ _ => true
  | .gateIntervalExpiry _ _ => true
  | .streamRead _ => true
  | .streamWrite _ => true
  | .streamClearBlocked _ => true
  | .streamGateRead _ => true
  | .streamGateWrite _ => true
  | .streamGateChangeList _ => true
  | .streamGateIntervalExpiry _ _ => true
  | .meterRead _ => true
  | .meterWrite _ => true
  | .meterClearMarkAllRed _ => true
  | .cbRead _ => true
  | .cbWrite _ => true
  | .cbResetRecovery _ => true
  | .cbResetTimeout _ => true
  | .rxRingDelivery _ _ => true
  | .txRingFrame _ => true
  | .auditPass => true
  | .incrementWrite _ _ _ => true
  | .adjustStart _ _ _ => true
  | .adjustEnd _ _ => true
  | .stepDisarm _ _ => true
  | .stepNow _ _ => true
  | .stepArmAt _ _ => true
  | .stepApply _ _ => true
  | .syncWrite _ _ _ => true
  | .triggerFire _ _ _ => true
  | .captureEdge _ _ _ _ => true
  | .capturePop _ _ _ => true
  | .ppsEdge _ _ => true
  | .ppsPulseEnd _ _ => true
  | .launchEnable _ _ _ => true
  | .launchDisable _ _ _ => true
  | .launchFetchStart _ _ => true
  | .launchFetchDone _ _ => true
  | .launchBegin _ _ _ => true
  | .launchEnd _ _ => true
  | .launchAbort _ _ _ => true
  | .ringEnable _ _ _ => true
  | .perLockAcquired _ _ => true
  | .perLockLost _ _ _ _ => true
  | .healingSilenceEnd _ => true
  | .perFrameReceived _ _ _ _ _ _ _ => true
  | .echoRequestSend _ _ => true
  | .echoRequestReceived _ _ _ => true
  | .echoReplyReceived _ _ _ => true
  | .echoTimeout _ _ => true
  | .measureSend _ _ => true
  | .measureForward _ => true
  | .measureReturn _ _ => true
  | .slotTableLoad _ _ _ _ => true
  | .slotTableChecked _ _ => true
  | .slotFetchStart _ _ => true
  | .slotFetchDone _ _ => true
  | .slotInsert _ _ _ _ _ => true
  | .guardianCut _ => true
  | .guardTableCommit _ _ _ => true
  | .referenceSend _ _ _ => true
  | .referenceAccept _ => true
  | .referenceMissed _ _ => true
  | .backupTakeover _ _ _ => true
  | .coldstartListenTimeout _ => true
  | .coldstartSend _ => true
  | .coldstartReceived _ => true
  | .modeRequest _ _ _ => true
  | .restoreRequest _ _ _ => true
  | .mgmtSend _ _ _ => true
  | .mgmtReturn _ _ _ => true
  | .mgmtTimeout _ => true
  | .mgmtReadIdentity _ => true
  | .mgmtAssignNumber _ => true
  | .mgmtWriteTable _ => true
  | .mgmtCommit _ => true
  | .mgmtReadStatus _ => true
  | .mgmtReadLinks _ => true
  | .trackEnable _ _ _ => true
  | .locusStagingStart _ _ => true
  | .locusReadDone _ _ => true
  | .locusPioPush _ => true
  | .locusStaged _ => true
  | .locusDeadlineMiss _ _ => true
  | .swapArm _ => true
  | .swapCancel _ => true
  | .swapArmTied _ => true
  | .trackAbort _ _ _ => true
  | .latticeEnable _ _ => true
  | .helloSend _ => true
  | .helloReceived => true
  | .neighbourTimeout _ => true
  | .keeperClaimStale _ => true
  | .discoveryEnd => true
  | .joinSend => true
  | .joinRelay => true
  | .joinReceived => true
  | .joinGrantReceived => true
  | .linkReportSend => true
  | .linkReportReceived => true
  | .routePartReceived => true
  | .routeHeadTimeout => true
  | .latticeFrameForward _ _ _ _ => true
  | .latticeFrameDelivered _ _ => true
  | .odAccessRequest _ => true
  | .mailboxRelayRequest _ => true
  | .logRequest => true
  | .firmwareOffer _ _ _ => true
  | .firmwareBlock _ _ => true
  | .firmwareComplete _ _ => true
  | .configRequest => true
  | .resetRequest _ => true
  | .sessionRequest _ => true
  | .serviceAnswerReceived => true
  | .requestRepeatTimeout _ => true
  | .answerCacheExpiry _ => true
  | .configPublish _ _ => true
  | .configFetchComplete => true
  | .configFetchRetry => true
  | .keeperForget _ _ => true
  | .instanceStart _ _ => true
  | .instanceStartDone _ _ => true
  | .instanceStop _ _ => true
  | .privateValueAccess _ _ _ => true
  | .networkOdAccess _ _ _ => true
  | .modbusValueRead _ _ => true
  | .modbusValueCommit _ _ _ => true
  | .canModeWrite _ _ _ => true
  | .canIntegrated _ => true
  | .canFrameReceived _ _ _ _ => true
  | .canFrameStored _ => true
  | .canRxError _ _ _ _ _ => true
  | .canTxRequest _ _ _ => true
  | .canTxAttempt _ _ _ => true
  | .canTxSuccess _ _ => true
  | .canTxError _ _ _ _ _ _ => true
  | .canTxAbort _ _ _ => true
  | .canLockSet _ _ _ => true
  | .canLockClear _ _ _ => true
  | .canShadowPromoted _ _ => true
  | .canLostClear _ _ _ => true
  | .canFifoGet _ _ _ _ => true
  | .canRecover _ _ _ => true
  | .canBusOffRecovered _ => true
  | .pioB _ => true
  | .pioLoopa _ => true
  | .pioLoopb _ => true
  | .pioBc _ _ => true
  | .pioDrive _ => true
  | .pioSample _ _ => true
  | .pioFetch _ => true
  | .pioStore _ => true
  | .pioLoad _ => true
  | .pioAwait _ _ => true
  | .pioFlag _ => true
  | .pioCopy _ _ => true
  | .pioUnpack _ => true
  | .pioPack _ => true
  | .pioNop _ => true
  | .pioWaitEnd _ _ => true
  | .pioDelayExpiry _ => true
  | .pioSmEnable _ _ _ => true
  | .pioSmDisable _ _ _ => true
  | .pioRestart _ _ _ => true
  | .pioFifoClear _ _ _ => true
  | .pioWrapWrite _ _ _ => true
  | .pioSyncApplyArm _ => true
  | .pioSyncCancel _ => true
  | .pioSyncApply => true
  | .pioFlagSetWrite _ _ _ => true
  | .pioFlagClearWrite _ _ _ => true
  | .pioTxFifoPush _ _ _ => true
  | .pioRxFifoPop _ _ => true
  | .pioDmaEnable _ _ _ => true
  | .pioDmaStop _ _ _ => true
  | .pioDmaWord _ => true
  | .bankPowerWrite _ _ _ => true
  | .bankTransitionDone _ => true
  | .scrubPassStart => true
  | .scrubPassDone => true
  | .mboxLockRead _ _ => true
  | .mboxLockRelease _ _ _ => true
  | .mboxPost _ _ _ _ => true
  | .mboxDoorbellRead _ _ => true
  | .mboxDoorbellClear _ _ _ => true
  | .mboxMaskWrite _ _ _ => true
  | .mboxDiscardZeroed _ => true
  | .pciePerst => true
  | .pcieFlr => true
  | .pcieLinkDownTimeout => true
  | .pcieLinkUp width speed _ _ => decide (width.val = 1 ∨ width.val = 2) && decide (1 ≤ speed.val)
  | .pcieLinkDown => true
  | .pcieAtomicOp _ _ _ _ => true
  | .msixUnmask _ => true
  | .hostDmaTailWrite _ _ _ => true
  | .hostDmaDescriptor _ _ _ => true
  | .hostDmaAbort _ _ _ _ => true
  | .qspiReadId => true
  | .qspiReadStatus => true
  | .qspiRead _ len _ => decide (4 ≤ len)
  | .qspiWrite _ _ => true
  | .qspiAtomicAdd _ _ _ => true
  | .qspiAtomicSwap _ _ _ => true
  | .qspiAtomicResult => true
  | .qspiResetEnable => true
  | .qspiReset => true
  | .qspiUnknownOpcode _ => true
  | .sessionOpen _ => true
  | .sessionProve _ _ => true
  | .sessionOdAccess _ _ => true
  | .sessionClose _ _ => true
  | .sessionIdleTimeout _ => true
  | .hostLoadGo _ _ => true
  | .hostLoadVerified _ => true
  | .recordEvent typ b => decide (b.length ≤ 236) && decide (typ.toNat / 256 ≤ 9) && decide (1 ≤ typ.toNat / 256)
  | .recordCommitted => true
  | .logScanDone => true
  | .logClear _ _ => true
  | .operatingMinute => true
  | .tempSample temps volts => decide (temps.length = 4) && decide (volts.length = 11)
  | .supplyExcursion _ _ => true
  | .supplyRecovered _ _ => true
  | .paceUpdate factory => decide (factory.length = 21)
  | .marginRecord => true
  | .perturbArm _ _ => true
  | .perturbArmed => true
  | .perturbDisarm _ _ => true
  | .testInServiceWrite _ _ _ => true
  | .testTimeoutExpiry => true
  | .autoDisarmExpiry => true
  | .backpressureSlot => true
  | .symbolInject => true
  | .jitterDraw => true
  | .jtagUnlock _ _ => true
  | .jtagInstruction _ => true
  | .illegalEncoding _ => true
  | .resetNPulseIgnored => true
  | .pciePerstRelease => true
  | .serdesLockAcquired _ => true
  | .streamGateListOperational _ _ => true
  | .fdbCommandDone => true
  | .guardTableChecked _ => true
  | .paceWindowEnd _ _ => true
  | .triggeredHello _ _ => true

end Sys2Proof
end

