-- ==== Sys2Proof/Machine/Map.lean ====
section
/-! DEFINITION. Accesses of a path to the device address map, and to objects through the window (R16–R19, R44–R50,
R65, R116, R138, R459). -/

namespace Sys2Proof.Machine

/-- The whole access lies in one region (R16). -/
def oneRegion (a n : Nat) : Bool := regionOf a = regionOf (a + n - 1)

/-- A read of `beats` accesses of `n` bytes at `a`: data, zero or an error response (R19). In FUSE_FAULT only the window
answers (R90). -/
def State.doMapRead (s : State) (p : Path) (a : Nat) (size : Size) (beats : Nat) : State :=
  if !s.coreUp then s
  else if s.dev = 6 && regionOf a ≠ .window then s.readAnswer p (zeros (beats * size.bytes)) false
  else if !s.ready a then s.waitFor { path := p, write := false, addr := a, size := size, beats := beats, data := [] }
  else
    let r := s.mapBurst p a size.bytes beats
    r.2.2.readAnswer p r.1 r.2.1

/-- A write of the accesses that `d` fills at `a` (R16, R18). -/
def State.doMapWrite (s : State) (p : Path) (a : Nat) (size : Size) (d : List Byte) : State :=
  let beats := d.length / size.bytes
  if !s.coreUp then s
  else if s.dev = 6 && regionOf a ≠ .window then s
  else if !s.ready a then s.waitFor { path := p, write := true, addr := a, size := size, beats := beats, data := d }
  else s.mapStores p a size.bytes d beats

/-- MAP_READ (R16–R19, R46, R459). -/
def execMapRead (p : Path) (addr : Word) (size : Size) (beats : Nat) (s : State) : Res :=
  if wellFormed (.mapRead p addr size beats) && oneRegion addr.toNat (beats * size.bytes) then
    .next (s.doMapRead p addr.toNat size beats)
  else .fault .illFormed

/-- MAP_WRITE (R16–R18, R46, R459). -/
def execMapWrite (p : Path) (addr : Word) (size : Size) (data : List Byte) (s : State) : Res :=
  if wellFormed (.mapWrite p addr size data) && oneRegion addr.toNat data.length then
    .next (s.doMapWrite p addr.toNat size data)
  else .fault .illFormed

/-- OD_WRITE (R37–R44, R50). -/
def execOdWrite (p : Path) (idx : Half) (sub : Byte) (v : DWord) (s : State) : Res :=
  .next (s.odSet p idx.toNat sub.toNat v.toNat)

/-- The word a window read gives goes back to its path. -/
def State.slotReply (p : Path) (r : Nat × State) : State := r.2.emit (.reply p.id.val (leBytes r.1 4) false)

/-- WINDOW_READ_LOW_SLOT and WINDOW_READ_HIGH_SLOT (R47): `sub` is the object's; of an object of one slot the first reads
that slot, the second the slot after it. -/
def execWindowReadLowSlot (p : Path) (idx : Half) (sub : Byte) (s : State) : Res :=
  .next (State.slotReply p (if s.isWide idx.toNat sub.toNat then s.readLow p idx.toNat sub.toNat
    else s.slotRead p idx.toNat sub.toNat))
def execWindowReadHighSlot (p : Path) (idx : Half) (sub : Byte) (s : State) : Res :=
  .next (State.slotReply p (if s.isWide idx.toNat sub.toNat then s.readHigh p idx.toNat sub.toNat
    else s.slotRead p idx.toNat (sub.toNat + 1)))

/-- WINDOW_WRITE_LOW_SLOT and WINDOW_WRITE_HIGH_SLOT (R47). -/
def execWindowWriteLowSlot (p : Path) (idx : Half) (sub : Byte) (v : Word) (s : State) : Res :=
  .next (if s.isWide idx.toNat sub.toNat then s.writeLow p idx.toNat sub.toNat v.toNat
    else s.slotWrite p idx.toNat sub.toNat v.toNat)
def execWindowWriteHighSlot (p : Path) (idx : Half) (sub : Byte) (v : Word) (s : State) : Res :=
  .next (if s.isWide idx.toNat sub.toNat then s.writeHigh p idx.toNat sub.toNat v.toNat
    else s.slotWrite p idx.toNat (sub.toNat + 1) v.toNat)

/-- EVENT_STATUS_CLEAR (R65, R68): bits of `again` have their event at once with the clear and stay set. Of an object that is
no event status it is a write like any other. -/
def execEventStatusClear (p : Path) (idx : Half) (sub : Byte) (v again : Word) (s : State) : Res :=
  .next (if isEventStatus idx.toNat sub.toNat then
    s.guard p idx.toNat sub.toNat v.toNat (fun s => s.statusClear idx.toNat sub.toNat v.toNat (v &&& again).toNat)
  else s.odSet p idx.toNat sub.toNat v.toNat)

/-- PROCESS_DATA_READ (R70, R138, R139): the snapshot succeeds after `retries` repeated attempts. Of an object outside process
data it is a read like any other. -/
def execProcessDataRead (p : Path) (idx : Half) (sub : Byte) (retries : Nat) (s : State) : Res :=
  .next (State.slotReply p (
    if !s.readOk p idx.toNat sub.toNat then (0, s.violate p.id.val)
    else if 0x6000 ≤ idx.toNat && idx.toNat < 0xA000 then s.procRead idx.toNat sub.toNat retries
    else s.slotRead p idx.toNat sub.toNat))

/-- LANE_BINDING_WRITE (R116, R117, R141): lanes 0–3 of facet `f` receive, 4–7 transmit. The binding waits for the frame boundary of
its stream (R118). -/
def execLaneBindingWrite (p : Path) (f : Fin 8) (k : Fin 8) (v : Word) (s : State) : Res :=
  .next (s.guard p (0x2440 + f.val) (1 + k.val) v.toNat (fun s => s.wr (0x2440 + f.val) (1 + k.val) v.toNat))

end Sys2Proof.Machine
end

