-- ==== Sys2Proof/Machine/Host.lean ====
section
/-! DEFINITION. The PCI Express endpoint, host DMA and the quad-SPI slave (R491–R502). -/

namespace Sys2Proof.Machine

/-! ### PCI Express (R492–R495, R507) -/

/-- The path of ordinary PCIe and quad-SPI accesses (R20, R41). -/
def pciePath : Path := { id := 34, secure := false }
def qspiPath : Path := { id := 35, secure := false }

/-- PCIE_PERST (R494). -/
def execPciePerst (s : State) : Res :=
  let s := { s with host := { s.host with perstLow := true, training := false } }
  .next (if s.coreUp then s.pcieDown.pcieReset else s)

/-- PCIE_PERST_RELEASE (R494): link training starts once bring-up step 5 has completed. -/
def execPciePerstRelease (s : State) : Res :=
  .next { s with host := { s.host with perstLow := false, training := decide (5 ≤ s.n 0x2000 2) } }

/-- PCIE_FLR (R494). -/
def execPcieFlr (s : State) : Res := .next (if s.coreUp && s.bit 0x2F40 1 0 then s.pcieReset else s)

/-- PCIE_LINK_UP (R494, R507): width and speed as trained; what the host has set in configuration space. -/
def execPcieLinkUp (width speed : Fin 4) (busMaster msixEnabled : Bool) (s : State) : Res :=
  .next (if s.coreUp && s.host.training && !s.host.perstLow then
    let v := 1 + width.val * 2 + speed.val * 8 + (if busMaster then 0x20 else 0) + (if msixEnabled then 0x40 else 0)
    let up := s.bit 0x2F40 1 0
    let s := s.wr 0x2F40 1 v
    if up then s else s.event 0x2F40 6 1
  else s)

/-- PCIE_LINK_DOWN (R507), and PCIE_LINK_DOWN_TIMEOUT (R494): it has lasted for more than 1 ms. -/
def execPcieLinkDown (s : State) : Res := .next s.pcieDown
def execPcieLinkDownTimeout (s : State) : Res :=
  .next (if s.coreUp && s.host.training && !s.bit 0x2F40 1 0 then s.pcieReset else s)

/-- Bytes of an atomic's operand. -/
def atomicBytes (wide : Bool) : Nat := if wide then 8 else 4
def atomicSize (wide : Bool) : Size := if wide then .b8 else .b4

/-- An atomic of a host path at device address `a` (R468, R493, R501): to anything but an aligned word of a bank or facet
store it answers 0, writes nothing and is a violation. -/
def State.hostAtomic (s : State) (p : Path) (a : Nat) (wide swap : Bool) (x : Nat) : State :=
  let n := atomicBytes wide
  if !atomicTarget a || a % n ≠ 0 then (s.violate p.id.val).atomicAnswer p n (0, false)
  else if !s.ready a then
    s.waitFor { path := p, write := true, addr := a, size := atomicSize wide, data := [], atomic := some (swap, x) }
  else
    let r := s.atomic p a n swap x
    r.2.2.atomicAnswer p n (r.1, r.2.1)

/-- PCIE_ATOMIC_OP (R492, R493): `addr` is the BAR2 offset. -/
def execPcieAtomicOp (op : AtomicOp) (addr : DWord) (wide : Bool) (operand : DWord) (s : State) : Res :=
  let x := operand.toNat % 2 ^ (8 * atomicBytes wide)
  .next (if !s.coreUp || s.dev = 6 || !s.bit 0x2F40 1 0 then s
  else if op = .other || 0x0800_0000 ≤ addr.toNat then
    (s.violate 34).atomicAnswer pciePath (atomicBytes wide) (0, false)
  else s.hostAtomic pciePath (s.n 0x2F40 2 + addr.toNat) wide (decide (op = .swap)) x)

/-- MSIX_UNMASK (R495): a pending message is sent. -/
def execMsixUnmask (vec : Fin 64) (s : State) : Res :=
  let bit := BitVec.twoPow 64 vec.val
  let s := { s with host := { s.host with msixMask := s.host.msixMask &&& ~~~ bit } }
  .next (if bitOf s.host.msixPend.toNat vec.val && s.bit 0x2F40 1 5 && s.bit 0x2F40 1 6 then
    ({ s with host := { s.host with msixPend := s.host.msixPend &&& ~~~ bit } }).emit (.msix vec.val)
  else s)

/-! ### Host DMA (R496–R498, R509) -/

/-- HOST_DMA_TAIL_WRITE. -/
def execHostDmaTailWrite (p : Path) (k : Fin 8) (v : Word) (s : State) : Res :=
  .next (s.guard p (dmaObj k) 2 v.toNat (fun s => s.wr (dmaObj k) 2 v.toNat))

/-- The event can happen: the host has given what the descriptor asks for, and the banks concerned serve accesses. -/
def State.dmaEnabled (s : State) (k : Nat) (d : List Byte) (bad : Bool) : Bool :=
  let a := s.dmaDesc k
  let w := s.w32 (a + 0xC)
  let len := fieldOf w 0 24
  (s.dmaOn k || (s.dmaCh k).flushing) && s.dmaReady k && s.ready a &&
  ((s.dmaCh k).flushing ||
    (s.bit 0x2F40 1 0 && s.bit 0x2F40 1 5 && (s.rangeReady (s.w32 (a + 8)) len || len = 0) &&
      (bitOf w 24 || bad || len ≤ d.length)))

/-- HOST_DMA_DESCRIPTOR (R496, R497): `hostData` is what the host answers with, `hostError` that its answer ends with an
error. -/
def execHostDmaDescriptor (k : Fin 8) (hostData : List Byte) (hostError : Bool) (s : State) : Res :=
  .next (if s.coreUp && s.dmaEnabled k hostData hostError then s.dmaTake k hostData hostError else s)

/-- HOST_DMA_ABORT (R498): `moved` says that the transfer's last data write has been made. -/
def execHostDmaAbort (p : Path) (k : Fin 8) (v : Word) (moved : Bool) (s : State) : Res :=
  .next (s.guard p (dmaObj k) 4 v.toNat (fun s => if v = 1 then s.dmaAbort k moved else s))

/-! ### Quad-SPI (R500–R502) -/

/-- Every opcode but RESET_ENABLE ends its effect: RESET counts only in the next selection. -/
def State.qspiBegin (s : State) : State := { s with host := { s.host with qResetEnabled := false } }

/-- BUSY: a WRITE or atomic command is still being carried out (R502). -/
def State.qspiBusy (s : State) : Bool := s.memc.waits.any (fun w => w.path.id.val = 35)

/-- QSPI_READ_ID. -/
def execQspiReadId (s : State) : Res :=
  let s := s.qspiBegin
  .next (if s.coreUp then s.emit (.qspi ([0x16, 0x84, 0xB0] ++ leBytes (s.n 0x2000 8) 8)) else s)

/-- The status byte (R502). -/
def State.qspiStatus (s : State) : Nat :=
  (if s.qspiBusy then 1 else 0) + (if s.host.qDropped then 2 else 0) + (if s.hostIntLow then 4 else 0) + s.dev % 8 * 16

/-- QSPI_READ_STATUS: the read clears WRITE_DROPPED. -/
def execQspiReadStatus (s : State) : Res :=
  let s := s.qspiBegin
  .next (if s.coreUp then
    let s := s.emit (.qspi [BitVec.ofNat 8 s.qspiStatus])
    { s with host := { s.host with qDropped := false } }
  else s)

/-- The aligned accesses of `k` bytes from `a` on: whole words, and single bytes where a word does not fit. The third answer
says whether every bank served at once. -/
def State.qspiFetch (s : State) (a : Nat) : Nat → Nat → List Byte × Bool × Bool × State
  | 0, _ => ([], false, true, s)
  | _, 0 => ([], false, true, s)
  | f + 1, k =>
    let n := if a % 4 = 0 ∧ 4 ≤ k then 4 else 1
    let t := if s.ready a then s.mapRead1 qspiPath a n else (zeros n, false, s.noteNotOn)
    let q := t.2.2.qspiFetch (a + n) f (k - n)
    (t.1 ++ q.1, t.2.1 || q.2.1, s.ready a && q.2.2.1, q.2.2.2)

/-- A read of `k` bytes outside the window in FUSE_FAULT is zero (R90). -/
def State.qspiData (s : State) (a k : Nat) : List Byte × Bool × Bool × State :=
  if s.dev = 6 && regionOf a ≠ .window then (zeros k, false, true, s) else s.qspiFetch a k k

/-- QSPI_READ (R501): `late` says that the access has not completed within DUMMY_CYCLES. -/
def execQspiRead (addr : Word) (len : Nat) (late : Bool) (s : State) : Res :=
  let s := s.qspiBegin
  .next (if !s.coreUp then s
  else if s.qspiBusy then (s.cnt 0x2F41 1).emit (.qspi (0 :: zeros len))
  else
    let r := s.qspiData addr.toNat (min len 128)
    if late || !r.2.2.1 then (r.2.2.2.cnt 0x2F41 1).emit (.qspi (0 :: zeros len))
    else r.2.2.2.emit (.qspi ((if r.2.1 then 3 else 1) :: r.1 ++ zeros (len - 128))))

/-- A command, or a part of it, is dropped (R501). -/
def State.qspiDrop (s : State) : State :=
  { s.cnt 0x2F41 2 with host := { (s.cnt 0x2F41 2).host with qDropped := true } }

/-- The words of a WRITE, one 4-byte access each in ascending order; one that meets a bank that is not ON waits, and those
after it behind it. -/
def State.qspiStore (s : State) (a : Nat) (d : List Byte) : Nat → State
  | 0 => s
  | k + 1 =>
    if s.ready a then (s.mapWrite1 qspiPath a (d.take 4)).qspiStore (a + 4) (d.drop 4) k
    else s.waitFor { path := qspiPath, write := true, addr := a, size := .b4, beats := k + 1, data := d.take (4 * (k + 1)) }

/-- QSPI_WRITE (R501): whole words take effect after QSPI_CS_N rises; what fills no word, and bytes beyond 128, are dropped. -/
def execQspiWrite (addr : Word) (data : List Byte) (s : State) : Res :=
  let s := s.qspiBegin
  .next (if !s.coreUp || s.dev = 6 then s
  else if s.qspiBusy then s.qspiDrop
  else
    let skip := (4 - addr.toNat % 4) % 4
    let d := (data.take 128).drop skip
    let s := if data.length > 128 || skip ≠ 0 || d.length % 4 ≠ 0 then s.qspiDrop else s
    s.qspiStore (addr.toNat + skip) d (d.length / 4))

/-- An atomic command (R501). -/
def State.qspiAtomic (s : State) (a : Nat) (wide swap : Bool) (x : Nat) : State :=
  if !s.coreUp || s.dev = 6 then s
  else if s.qspiBusy then s.qspiDrop
  else ({ s with host := { s.host with qResult := none } }).hostAtomic qspiPath a wide swap (x % 2 ^ (8 * atomicBytes wide))

/-- QSPI_ATOMIC_ADD and QSPI_ATOMIC_SWAP. -/
def execQspiAtomicAdd (addr : Word) (wide : Bool) (operand : DWord) (s : State) : Res :=
  .next (s.qspiBegin.qspiAtomic addr.toNat wide false operand.toNat)
def execQspiAtomicSwap (addr : Word) (wide : Bool) (operand : DWord) (s : State) : Res :=
  .next (s.qspiBegin.qspiAtomic addr.toNat wide true operand.toNat)

/-- QSPI_ATOMIC_RESULT (R500, R501). -/
def execQspiAtomicResult (s : State) : Res :=
  let s := s.qspiBegin
  .next (if !s.coreUp then s
  else match s.host.qResult with
    | some (v, bad) =>
      if s.qspiBusy then s.emit (.qspi (zeros 9)) else s.emit (.qspi ((if bad then 3 else 1) :: leBytes v.toNat 8))
    | none => s.emit (.qspi (zeros 9)))

/-- QSPI_RESET_ENABLE and QSPI_RESET (R500, R502). -/
def execQspiResetEnable (s : State) : Res :=
  .next (if s.coreUp then { s with host := { s.host with qResetEnabled := true } } else s)
def execQspiReset (s : State) : Res :=
  .next (if s.coreUp && s.host.qResetEnabled then s.qspiReset else s.qspiBegin)

/-- QSPI_UNKNOWN_OPCODE: nothing is driven, and nothing happens. -/
def execQspiUnknownOpcode (op : Byte) (s : State) : Res :=
  .next (if [0x9F, 0x05, 0x0B, 0x02, 0x3A, 0x3B, 0x3C, 0x66, 0x99].contains op then s else s.qspiBegin)

end Sys2Proof.Machine
end

