-- ==== Sys2Proof/Machine/PowerCmds.lean ====
section
/-! DEFINITION. The commands of power, reset, HOLD_N, sleep and the rim PLL (spec/03, R13, R522, R523, R542, R545). -/

namespace Sys2Proof.Machine

/-! ### Supplies and pads -/

/-- VDDIO_PRESENT (R71): a bank rises and its pads take their reset states, then follow their blocks. -/
def execVddioPresent (bank : Fin 6) (s : State) : Res :=
  .next { s with pw := { s.pw with vddio := tblSet (fun _ => false) bank true s.pw.vddio } }

/-- VDDIO_BANK_LOST (R545): the monitor sets the SUPPLY reason; bank 4 resets the quad-SPI interface (R502). -/
def execVddioBankLost (bank : Fin 6) (s : State) : Res :=
  .next (if tblGet (fun _ => false) bank.val s.pw.vddio then
    let s := { s with pw := { s.pw with vddio := tblSet (fun _ => false) bank false s.pw.vddio } }
    let s := s.supplyOut (5 + bank) 0
    if bank.val = 4 then s.qspiReset else s
  else s)

/-- The class whose range holds `mv` (R542). -/
def classOf (mv : Nat) : Nat :=
  if 1710 ≤ mv ∧ mv ≤ 1890 then 1 else if 2375 ≤ mv ∧ mv ≤ 2625 then 2 else if 3135 ≤ mv ∧ mv ≤ 3465 then 3 else 0

/-- VDDIO_CLASS_SENSE (R542): a bank without a class is sensed at step 1 and every millisecond after; it takes a class at
step 1, or once its voltage has stayed in the range for 1 ms (`stable`). -/
def execVddioClassSense (bank : Fin 6) (mv : Half) (stable : Bool) (s : State) : Res :=
  let c := classOf mv.toNat
  .next (if tblGet (fun _ => 0) bank.val s.pw.vddioClass = 0 && tblGet (fun _ => false) bank.val s.pw.vddio then
    if c ≠ 0 && (stable || (s.pw.starting && s.n 0x2000 2 = 0 && s.pw.cold)) then
      ({ s with pw := { s.pw with vddioClass := tblSet (fun _ => 0) bank c s.pw.vddioClass } }).supplyBack (5 + bank) mv.toNat
    else if s.bit 0x2E10 0x10 (5 + bank) then s
    else s.supplyOut (5 + bank) mv.toNat
  else s)

/-! ### Resets of device reach (R78–R82) -/

/-- AON_POWER_GOOD (R79): bring-up starts at step 1 after the POR. -/
def execAonPowerGood (s : State) : Res :=
  .next (if s.pw.aonGood then s
  else
    let s := { s with pw := { s.pw with aonGood := true, cold := true, causes := s.pw.causes ||| 1 } }
    ((s.wr 0x2003 1 1).setBits 0x2003 2 1).tryStart)

/-- POR (R78). -/
def execPor (s : State) : Res := .next (s.deviceReset 1 1 (fun p => { p with aonGood := false, sleep := .awake }))

/-- CORE_BROWNOUT and its release (R78, R79). -/
def execCoreBrownout (s : State) : Res :=
  .next (if s.coreUp then s.deviceReset 2 2 (fun p => { p with coreGood := false }) else s)
def execCoreBrownoutRelease (s : State) : Res :=
  .next (if s.pw.coreGood then s else ({ s with pw := { s.pw with coreGood := true } }).tryStart)

/-- RESET_N_FALL, RESET_N_PULSE_IGNORED (R80). -/
def execResetNFall (s : State) : Res :=
  .next (if s.pw.resetPin = .high then { s with pw := { s.pw with resetPin := .judging } } else s)
def execResetNPulseIgnored (s : State) : Res :=
  .next (if s.pw.resetPin = .judging then { s with pw := { s.pw with resetPin := .high } } else s)

/-- RESET_N_ACCEPT (R80): a warm reset; in Standby the pulse is a wake through WAKE_SOURCES bit 8 (R104). -/
def execResetNAccept (s : State) : Res :=
  .next (if s.pw.resetPin = .judging then
    if s.pw.sleep = .standby then ({ s with pw := { s.pw with resetPin := .accepted } }).wake 8
    else s.deviceReset 3 4 (fun p => { p with resetPin := .accepted })
  else s)

/-- RESET_N_RISE (R80): bring-up starts. -/
def execResetNRise (s : State) : Res :=
  .next (if s.pw.resetPin = .accepted then
    let s := { s with pw := { s.pw with resetPin := .high } }
    if s.pw.sleep = .standby then s else s.tryStart
  else s)

/-- DEVICE_RESET (R85). -/
def execDeviceReset (p : Path) (v : Word) (s : State) : Res :=
  .next (s.guard p 0x2004 1 v.toNat (fun s => s.deviceReset 5 0x10 id))

/-- INTEGRITY_RESET (R78): `detail` as 0x2003:03, `addr` the failing word or 0. LOCKSTEP_MISMATCH (R522): the access is
held. -/
def execIntegrityReset (detail : BitVec 6) (addr : Word) (s : State) : Res :=
  .next (if detail ≠ 0 && s.coreUp && s.dev ≠ 6 then s.integrityReset detail.toNat addr.toNat else s)
def execLockstepMismatch (s : State) : Res :=
  .next (if s.coreUp && s.dev ≠ 6 then s.integrityReset 1 0 else s)

/-- APEX_WATCHDOG_EXPIRY (R523, R526). -/
def execApexWatchdogExpiry (s : State) : Res :=
  .next (if s.sup.watchdog && s.coreUp && s.dev ≠ 6 then
    s.deviceReset 4 8 (fun p => { p with integrityNote := p.integrityNote ||| 2 })
  else s)

/-- THERMAL_TRIP and THERMAL_RELEASE (R78): the trip is recorded at the start that follows. -/
def execThermalTrip (sensor : Fin 4) (reading : Half) (s : State) : Res :=
  .next (if s.coreUp then
    (s.deviceReset 7 0x40 (fun p => { p with thermalHeld := true, tripNote := some (sensor.val, reading.toNat) })).setBits
      0x2001 2 0x80
  else s)
def execThermalRelease (s : State) : Res :=
  .next (if s.pw.thermalHeld then ({ s with pw := { s.pw with thermalHeld := false } }).tryStart else s)

/-! ### HOLD_N (R73–R76) -/

/-- HOLD_RELEASE (R74, R75): `overtaken` 0 no, 1 by a reason before HOLD_N would rise, 2 by one after. -/
def execHoldRelease (p : Path) (v : Word) (overtaken : Fin 3) (s : State) : Res :=
  .next (s.guard p 0x2001 1 v.toNat (fun s => s.holdRelease overtaken))
/-- HOLD_ACK. -/
def execHoldAck (p : Path) (v : Word) (s : State) : Res := .next (s.guard p 0x2001 3 v.toNat (fun s => s.holdAck v.toNat))
/-- HOLD_REQUEST. -/
def execHoldRequest (p : Path) (v : Word) (s : State) : Res := .next (s.guard p 0x2001 4 v.toNat (fun s => s.holdRequest v.toNat))

/-! ### Per-block resets (R85–R88) -/

/-- A write of 0x2004 sub `sub` by a path. -/
def State.resetWrite (s : State) (p : Path) (sub v : Nat) : State :=
  s.guard p 0x2004 sub v (fun s => s.blockResets p.id.val sub v)

/-- ENGINE_RESET, FACET_RESET, MAC_PORT_RESET, RING_RESET, CAN_RESET, PIO_BLOCK_RESET, LOCUS_RESET, SWITCH_RESET,
TIME_DOMAIN_RESET. -/
def execEngineReset (p : Path) (v : Word) (s : State) : Res := .next (s.resetWrite p 2 v.toNat)
def execFacetReset (p : Path) (v : BitVec 8) (s : State) : Res := .next (s.resetWrite p 3 v.toNat)
def execMacPortReset (p : Path) (v : BitVec 12) (s : State) : Res := .next (s.resetWrite p 3 (v.toNat * 256))
def execRingReset (p : Path) (v : BitVec 4) (s : State) : Res := .next (s.resetWrite p 4 v.toNat)
def execCanReset (p : Path) (v : BitVec 4) (s : State) : Res := .next (s.resetWrite p 4 (v.toNat * 2 ^ 8))
def execPioBlockReset (p : Path) (v : BitVec 4) (s : State) : Res := .next (s.resetWrite p 4 (v.toNat * 2 ^ 16))
def execLocusReset (p : Path) (s : State) : Res := .next (s.resetWrite p 5 1)
def execSwitchReset (p : Path) (s : State) : Res := .next (s.resetWrite p 5 2)
def execTimeDomainReset (p : Path) (v : BitVec 4) (s : State) : Res := .next (s.resetWrite p 5 (v.toNat * 16))

/-- BLOCK_RESET_COMPLETE (R86). -/
def execBlockResetComplete (sub : Fin 6) (bit : Fin 32) (s : State) : Res := .next (s.blockReleased sub bit)

/-! ### Rim PLL (R13) -/

/-- RIM_PLL_LOCK_LOST and RIM_PLL_RELOCK. -/
def execRimPllLockLost (s : State) : Res := .next (if s.pw.pllLocked then s.rimLost else s)
def execRimPllRelock (s : State) : Res :=
  .next (if s.coreUp && 5 ≤ s.n 0x2000 2 then { s with pw := { s.pw with pllLocked := true } } else s)

/-! ### Sleep (R100–R105) -/

/-- DOZE_REQUEST, STANDBY_REQUEST, DOZE_WAKE_WRITE: writes of SLEEP_REQUEST. -/
def execDozeRequest (p : Path) (s : State) : Res := .next (s.guard p 0x2008 1 2 (fun s => s.sleepRequest 2))
def execStandbyRequest (p : Path) (s : State) : Res := .next (s.guard p 0x2008 1 3 (fun s => s.sleepRequest 3))
def execDozeWakeWrite (p : Path) (s : State) : Res := .next (s.guard p 0x2008 1 1 (fun s => s.sleepRequest 1))

/-- DOZE_TRANSITION_DONE, DOZE_WAKE_DONE (R102). -/
def execDozeTransitionDone (s : State) : Res := .next s.dozeReached
def execDozeWakeDone (s : State) : Res := .next s.dozeWoken

/-- STANDBY_POWER_DOWN (R104): the core is off. -/
def execStandbyPowerDown (s : State) : Res :=
  .next (if s.pw.sleep = .toStandby then { s with pw := { s.pw with sleep := .standby } } else s)

/-- WAKE_SOURCE_EVENT (R105). -/
def execWakeSourceEvent (src : Fin 11) (unit : Fin 64) (rising : Bool) (s : State) : Res :=
  .next (if s.wakeSeen src unit rising then s.wake src else s)

/-- STANDBY_WAKE (R104): a start with cause 9; a wake by RESET_N records cause 3 as well. -/
def execStandbyWake (s : State) : Res :=
  .next (match s.pw.sleep, s.pw.wakeLatched with
    | .standby, some src =>
      (s.wr 0x2008 7 src).deviceReset 9 (0x100 + if src = 8 then 4 else 0) (fun p => { p with sleep := .awake, wakeLatched := none })
    | _, _ => s)

/-- WAKE_CONFIG_CHECK and CONFIG_CONFIRMED_WRITE (R103). -/
def execWakeConfigCheck (verified : Bool) (found : Word) (s : State) : Res := .next (s.wakeCheck verified found.toNat)
def execConfigConfirmedWrite (p : Path) (v : Word) (s : State) : Res :=
  .next (s.guard p 0x2000 7 v.toNat (fun s => s.confirmConfig v.toNat))

end Sys2Proof.Machine
end

