-- ==== Sys2Proof/Machine/Sessions.lean ====
section
/-! DEFINITION. Secure sessions: the messages OPEN, PROVE, OD_ACCESS and CLOSE, over a mailbox channel or through the
Lattice (R41, R382, R483, R503–R505). -/

namespace Sys2Proof.Machine

/-! ### Operations (R382) -/

/-- One OD operation: OP 1–4, sub, index, value. -/
structure OdOp where
  op : Nat
  sub : Nat
  idx : Nat
  val : Nat

/-- The operations that `d` holds, with numbers as `num` reads them from bytes. -/
def odOps (num : List Byte → Nat) (d : List Byte) : List OdOp :=
  (List.range (d.length / 12)).map (fun k =>
    let b := d.drop (12 * k)
    { op := num (b.take 1), sub := num ((b.drop 1).take 1), idx := num ((b.drop 2).take 2), val := num ((b.drop 4).take 8) })

/-- Carry out one operation: the value read, or the one it carries. -/
def State.odOp (s : State) (p : Path) (x : OdOp) : Nat × State :=
  let a := slotAddr x.idx x.sub
  if x.op = 1 then s.slotRead p x.idx x.sub
  else if x.op = 2 then (x.val, s.slotWrite p x.idx x.sub (x.val % 2 ^ 32))
  else if x.op = 3 then
    let r := s.windowRead p a 8
    (leNat r.1, r.2)
  else if x.op = 4 then (x.val, s.windowWrite p a (leBytes x.val 8))
  else (x.val, s)

/-- Carry out operations in order as one path (R44); the answer is each operation with its value, numbers as `put` lays them
down. -/
def State.odOpsRun (s : State) (p : Path) (put : Nat → Nat → List Byte) : List OdOp → List Byte × State
  | [] => ([], s)
  | x :: rest =>
    let r := s.odOp p x
    let q := r.2.odOpsRun p put rest
    (put x.op 1 ++ put x.sub 1 ++ put x.idx 2 ++ put r.1 8 ++ q.1, q.2)

/-! ### The exchange (R503, R504) -/

/-- Numbers in a message: little-endian in a mailbox area (R4), most significant byte first in a Lattice payload (R367). -/
def numOf (big : Bool) (d : List Byte) : Nat := if big then beNat d 0 d.length else leNat d
def numPut (big : Bool) (v n : Nat) : List Byte := if big then beOf v n else leBytes v n

/-- A message: OP, session, counter and what follows the 16-byte head; `big` is its byte order. -/
structure SMsg where
  big : Bool
  op : Nat
  session : Nat
  counter : Nat
  body : List Byte

/-- The message that bytes spell. -/
def smsgOf (big : Bool) (d : List Byte) : SMsg :=
  { big := big, op := numOf big (d.take 4), session := numOf big ((d.drop 4).take 4)
    counter := numOf big ((d.drop 8).take 4), body := d.drop 16 }

/-- `n` free bytes: nonces, ephemeral keys and tags that Apex makes. -/
def State.openBytes (s : State) (n : Nat) : List Byte × State := (leBytes (s.free (8 * n)).toNat n, s.tick)

/-- A refusal (R504): counted; three in a row close the session. -/
def State.sessionRefuse (s : State) (c : Nat) : State :=
  let s := (s.cnt 0x2F50 7).event 0x2F40 6 (2 ^ 26)
  let x := s.session c
  if s.sessionState c = 0 then s
  else if 2 ≤ x.refusals then s.sessionClose c 2
  else s.setSession c { x with refusals := x.refusals + 1 }

/-- OPEN: the exchange begins under a session number that Apex gives; the answer carries the device nonce and key. An earlier
session of the channel ends. -/
def State.sessionOpen (s : State) (c path origin : Nat) (m : SMsg) : Nat × Nat × List Byte × State :=
  let s := if s.sessionState c = 0 then s else s.sessionClose c 0
  let num := (s.free 32).toNat
  let r := s.tick.openBytes 80
  let s := (r.2.wr 0x2F50 (1 + c) 1).setSession c
    { path := path, number := num, counter := m.counter, refusals := 0, keySlot := numOf m.big (m.body.take 4), origin := origin }
  (1, num, r.1, s)

/-- PROVE: the session opens. -/
def State.sessionProve (s : State) (c : Nat) (m : SMsg) : Nat × Nat × List Byte × State :=
  let x := s.session c
  let s := (((s.wr 0x2F50 (1 + c) 2).setSession c { x with counter := m.counter, refusals := 0 }).cnt 0x2F50 6).event 0x2F40 6 (2 ^ 24)
  (1, x.number, [], s.record 0x0105 (body [(44 + c, 1), (x.path, 1), (x.keySlot, 1), (0, 1), (x.origin, 2)]))

/-- OD_ACCESS: secure accesses under the path's master ID; the answer ends with a TAG. -/
def State.sessionAccess (s : State) (c : Nat) (m : SMsg) : Nat × Nat × List Byte × State :=
  let x := s.session c
  let s := s.setSession c { x with counter := m.counter, refusals := 0 }
  let r := s.odOpsRun { id := Fin.ofNat 64 x.path, secure := true } (numPut m.big) (odOps (numOf m.big) (m.body.take (m.body.length - 16)))
  let t := r.2.openBytes 16
  (1, x.number, r.1 ++ t.1, t.2)

/-- Whether a message is accepted (R504): `good` says that its TAG or signature is valid. -/
def State.sessionAccepts (s : State) (c : Nat) (m : SMsg) (good : Bool) : Bool :=
  let x := s.session c
  if m.op = 1 then s.sessionState c = 0 || x.counter < m.counter
  else
    good && m.session = x.number && x.counter < m.counter &&
    (if m.op = 2 then
       s.sessionState c = 1 && x.keySlot < 8 && s.n (0x2F58 + x.keySlot) 0x11 = 1
     else if m.op = 3 then s.sessionState c = 2 && 28 ≤ m.body.length && m.body.length ≤ 784 && (m.body.length - 16) % 12 = 0
     else s.sessionState c ≠ 0)

/-- A message is carried out or refused: STATUS, SESSION, the answer's body, and the state after it. -/
def State.sessionTake (s : State) (c path origin : Nat) (m : SMsg) (good : Bool) : Nat × Nat × List Byte × State :=
  if !s.sessionAccepts c m good then (2, m.session, [], s.sessionRefuse c)
  else if m.op = 1 then s.sessionOpen c path origin m
  else if m.op = 2 then s.sessionProve c m
  else if m.op = 3 then s.sessionAccess c m
  else (1, m.session, [], s.sessionClose c 0)

/-- The answer goes to REPLY_ADDRESS, the request's COUNTER last; an address that is not 8-byte aligned in a bank takes
none. -/
def State.sessionReply (s : State) (a status num counter : Nat) (d : List Byte) : State :=
  if a % 8 ≠ 0 || !inBank a then s
  else
    let s := (s.doMapWrite apexSide (a + 4) .b4 (leBytes status 4)).doMapWrite apexSide (a + 8) .b4 (leBytes num 4)
    (s.doMapWrite apexSide (a + 16) .b4 d).doMapWrite apexSide a .b4 (leBytes counter 4)
where
  /-- Apex's own path. -/
  apexSide : Path := { id := 33, secure := true }

/-- The path a channel's message came over: the lock's owner, else the host path among SENDERS. -/
def State.sessionPath (s : State) (ch : Nat) : Nat :=
  let o := s.n (0x2C10 + ch) 7
  if o = 34 ∨ o = 35 then o else if s.bit (0x2C10 + ch) 2 34 then 34 else 35

/-- A channel on which a session message of OP `op` is posted to Apex. -/
def State.sessionPosted (s : State) (c op : Nat) : Bool :=
  let i := 0x2C10 + 44 + c
  s.coreUp && s.dev ≠ 6 && s.n i 1 = 33 && s.bit i 4 1 && s.n i 0xA = 2 &&
  s.w32 (areaOf (44 + c)) = op

/-- Apex takes the message of session channel 44 + c: it reads the doorbells with their check, carries the message out,
answers and clears them. A message that fails its check is not used (R482). -/
def State.sessionMessage (s : State) (c op : Nat) (good : Bool) : State :=
  if !s.sessionPosted c op then s
  else
    let ch := 44 + c
    let d := s.bytes (areaOf ch) (s.n (0x2C10 + ch) 0xB)
    let whole := s.mboxIntact ch
    let s := (s.dbRead ch).2
    let s := if whole && 16 ≤ d.length then
        let m := smsgOf false d
        let r := s.sessionTake c (s.sessionPath ch) 0 m good
        r.2.2.2.sessionReply (leNat ((d.drop 12).take 4)) r.1 r.2.1 m.counter r.2.2.1
      else s
    s.dbClear ch (BitVec.allOnes 32)

/-- SESSION_OPEN. -/
def execSessionOpen (ch : Fin 4) (s : State) : Res := .next (s.sessionMessage ch 1 true)
/-- SESSION_PROVE: `good` says that the signature is valid. -/
def execSessionProve (ch : Fin 4) (good : Bool) (s : State) : Res := .next (s.sessionMessage ch 2 good)
/-- SESSION_OD_ACCESS: `good` says that the TAG is valid. -/
def execSessionOdAccess (ch : Fin 4) (good : Bool) (s : State) : Res := .next (s.sessionMessage ch 3 good)
/-- SESSION_CLOSE. -/
def execSessionClose (ch : Fin 4) (good : Bool) (s : State) : Res := .next (s.sessionMessage ch 4 good)
/-- SESSION_IDLE_TIMEOUT. -/
def execSessionIdleTimeout (ch : Fin 4) (s : State) : Res :=
  .next (if s.sessionState ch ≠ 0 then s.sessionClose ch 1 else s)

end Sys2Proof.Machine
end

