-- ==== Sys2Proof/Machine/LatServices.lean ====
section
/-! DEFINITION. Lattice services and configuration sets: requests as a target, answers as a requester, publish, fetch and
leaving quarantine (R382–R386, R389). -/

namespace Sys2Proof.Machine

/-! ### Requests as a target (R382) -/

/-- Services of the reduced agent in RECOVERY (R389). -/
def recoveryService (typ : Nat) : Bool := typ = 4 || typ = 6 || typ = 7 || typ = 10

/-- The request of type `typ` taken last, if this device serves it now. -/
def State.service (s : State) (typ : Nat) : Option (LatFrame × State) :=
  if s.dev = 4 && !recoveryService typ then none else s.latGot typ false

/-- An answer, kept for repeats. -/
def State.latAnswer (s : State) (x : LatFrame) (payload : List Byte) : State :=
  let f := latBytes x.typ (s.n 0x2800 7) x.source s.ownAddr x.cls true x.seq payload
  (s.setLat (fun l => { l with
    answers := l.answers ++ [{ addr := x.source, typ := x.typ, cls := x.cls, seq := x.seq, frame := f }] })).latTo x.source x.cls f

/-- This device holds an open session with the device at `a` (R41, R382). -/
def State.heldSession (s : State) (a : Nat) : Bool :=
  (List.range 4).any (fun c => s.sessionState c = 2 && (s.session c).path = 36 && (s.session c).origin = a)

/-- The path of the agent's accesses (R20); `secure`: the request's tag is valid for an open session. -/
def State.agentPath (s : State) (x : LatFrame) (secure : Bool) : Path :=
  { id := 36, secure := secure && s.heldSession x.source }

/-- Bytes of a request before its session number and tag. -/
def LatFrame.plain (x : LatFrame) (secure : Bool) : List Byte := if secure then x.payload.take (x.payload.length - 20) else x.payload

/-- OD_ACCESS_REQUEST: `secure` says that the request's tag is valid. -/
def execOdAccessRequest (secure : Bool) (s : State) : Res :=
  .next (match s.service 4 with
  | none => s
  | some (x, t) =>
    let d := x.plain secure
    if d.length = 0 || d.length % 12 ≠ 0 || 768 < d.length then t.latCnt 7
    else
      let r := t.odOpsRun (t.agentPath x secure) (numPut true) (odOps (numOf true) d)
      r.2.latAnswer x r.1)

/-- Post a message of a remote device into channel `c`, as a sender does: lock, write, post, unlock (R164). -/
def State.relayPost (s : State) (p : Path) (c bits : Nat) (d : List Byte) : State :=
  let i := 0x2C10 + c
  if 48 ≤ c || !s.readOk p i 6 then s.violate p.id.val
  else
    let r := s.lockRead c p.id.val
    if r.1 ≠ 0 then r.2
    else
      let s := r.2
      let s := if s.n i 0xA = 2 then s
        else (List.range ((d.length + 7) / 8)).foldl (fun s k => s.memWrite p (areaOf c + 8 * k) ((d.drop (8 * k)).take 8)) s
      let s := s.guard p i 8 (bits + d.length * 2 ^ 32) (fun s => s.post c (BitVec.ofNat 32 bits) d.length)
      s.guard p i 6 0 (fun s => s.lockFree c)

/-- MAILBOX_RELAY_REQUEST: the answer confirms receipt only. -/
def execMailboxRelayRequest (secure : Bool) (s : State) : Res :=
  .next (match s.service 5 with
  | none => s
  | some (x, t) =>
    let len := beNat x.payload 6 2
    if 1024 < len || x.payload.length < 8 + len then t.latCnt 7
    else
      ((t.relayPost (t.agentPath x secure) (beNat x.payload 0 1) (beNat x.payload 2 4) ((x.payload.drop 8).take len)).latAnswer x []))

/-- Whole records from offset `off` on, up to the committed end, with a sequence at or above `from'`, as many as `room` bytes
and `most` records allow. -/
def State.logRecords (s : State) (from' : Nat) : Nat → Nat → Nat → Nat → List Byte
  | 0, _, _, _ => []
  | f + 1, off, most, room =>
    let len := fieldOf (s.w32 (logBase + off)) 0 12
    if s.n 0x2D00 3 ≤ off || most = 0 || len < 20 then []
    else if newer from' (s.w32 (logBase + off + 4)) then s.logRecords from' f (off + len) most room
    else if room < len then []
    else s.bytes (logBase + off) len ++ s.logRecords from' f (off + len) (most - 1) (room - len)

/-- LOG_REQUEST. -/
def execLogRequest (s : State) : Res :=
  .next (match s.service 6 with
  | none => s
  | some (x, t) => t.latAnswer x (t.logRecords (beNat x.payload 0 4) 52426 0 (beNat x.payload 4 2) 1472))

/-- FIRMWARE_OFFER: length, SHA-256 and staging address that the request names. -/
def execFirmwareOffer (len : Word) (sha : List Byte) (at' : Word) (s : State) : Res :=
  .next (match s.service 7 with
  | none => s
  | some (x, t) => (t.setLat (fun l => { l with offer := some (len.toNat, sha, at'.toNat) })).latAnswer x [])

/-- FIRMWARE_BLOCK: up to 1024 bytes go to the staging area at their offset. -/
def execFirmwareBlock (off : Word) (d : List Byte) (s : State) : Res :=
  .next (match s.service 7 with
  | none => s
  | some (x, t) =>
    let t := match t.lat.offer with
      | some (len, _, a) =>
        if d.length ≤ 1024 && off.toNat + d.length ≤ len then t.doMapWrite { id := 36, secure := false } (a + off.toNat) .b1 d else t
      | none => t
    t.latAnswer x [])

/-- An Apex image goes to one of its slots (R17); which one is open. -/
def State.apexInstall (s : State) (a len : Nat) : State :=
  let slot := 0x0800_0000 + (s.free 1).toNat * 0x4_0000
  s.tick.setBytes slot (s.bytes a len)

/-- FIRMWARE_COMPLETE: the staged image, if it is the one offered, is installed as R133 states; an Apex image only from a secure
request, `apexGood` being its own verification. -/
def execFirmwareComplete (secure apexGood : Bool) (s : State) : Res :=
  .next (match s.service 7 with
  | none => s
  | some (x, t) =>
    let t := match t.lat.offer with
      | some (len, sha, a) =>
        let t := t.setLat (fun l => { l with offer := none })
        if sha256 (t.bytes a len) ≠ sha || !inStorage a len then t
        else if t.w32 a = 0x8416_E001 then
          (if t.n 0x2480 7 = 1 then t else ((t.wr 0x2480 3 a).wr 0x2480 4 len).libraryStart true 36)
        else if (t.agentPath x secure).secure then (if apexGood && len ≤ 0x4_0000 then t.apexInstall a len else t)
        else t.violate 36
      | none => t
    t.latAnswer x [])

/-- CONFIG_REQUEST: a block of the keeper's current set, or nothing. -/
def execConfigRequest (s : State) : Res :=
  .next (match s.service 8 with
  | none => s
  | some (x, t) =>
    let now := t.isKeeper && beNat x.payload 0 4 = t.n 0x2800 0xD
    t.latAnswer x (if now then (t.lat.set.drop (1024 * beNat x.payload 4 2)).take 1024 else []))

/-- RESET_REQUEST (R78, R382): secure only. -/
def execResetRequest (secure : Bool) (s : State) : Res :=
  .next (match s.service 9 with
  | none => s
  | some (x, t) => if (t.agentPath x secure).secure then t.deviceReset 8 0x80 id else t.violate 36)

/-- The session channel a remote device's message belongs to: the one it has, else one that is closed. -/
def State.remoteChannel (s : State) (a : Nat) : Option Nat :=
  match (List.range 4).find? (fun c => s.sessionState c ≠ 0 && (s.session c).path = 36 && (s.session c).origin = a) with
  | some c => some c
  | none => (List.range 4).find? (fun c => s.sessionState c = 0)

/-- SESSION_REQUEST (R382, R503, R504): `good` says that the message's TAG or signature is valid. -/
def execSessionRequest (good : Bool) (s : State) : Res :=
  .next (match s.service 10 with
  | none => s
  | some (x, t) =>
    let m := smsgOf true x.payload
    match t.remoteChannel x.source with
    | none => ((t.cnt 0x2F50 7).event 0x2F40 6 (2 ^ 26)).latAnswer x (beOf m.counter 4 ++ beOf 2 4 ++ beOf m.session 4 ++ zeros 4)
    | some c =>
      let r := t.sessionTake c 36 x.source m good
      r.2.2.2.latAnswer x (beOf m.counter 4 ++ beOf r.1 4 ++ beOf r.2.1 4 ++ zeros 4 ++ r.2.2.1))

/-- ANSWER_CACHE_EXPIRY: the `k`-th answer kept has been kept for 1 s. -/
def execAnswerCacheExpiry (k : Nat) (s : State) : Res := .next (s.setLat (fun l => { l with answers := l.answers.eraseIdx k }))

/-! ### Configuration sets (R383, R384, R386) -/

/-- Fields of a set. -/
def setMagic (d : List Byte) : Nat := leNat (d.take 4)
def setFormat (d : List Byte) : Nat := leNat ((d.drop 4).take 2)
def setId (d : List Byte) : Nat := leNat ((d.drop 8).take 4)
def setGen (d : List Byte) : Nat := leNat ((d.drop 0xC).take 4)
def setCount (d : List Byte) : Nat := leNat ((d.drop 0x10).take 4)

/-- DIGEST: over bytes 0x00–0x1F and all entries. -/
def setDigest (d : List Byte) : List Byte := sha256 (d.take 0x20 ++ d.drop 0x40)

/-- MAGIC, FORMAT, ENTRY_COUNT and the length agree. -/
def setShape (d : List Byte) : Bool :=
  setMagic d = 0x8416_5E75 && setFormat d = 1 && 1 ≤ setCount d && setCount d ≤ 4096 && d.length = 0x40 + 16 * setCount d &&
  setId d ≠ 0

/-- One entry: applied as a secure write under ID 36 if it addresses this device (R386, R393). -/
def State.applyEntry (s : State) (e : List Byte) : State :=
  let target := leNat (e.take 2)
  let i := leNat ((e.drop 2).take 2)
  let j := leNat ((e.drop 4).take 1)
  let v := leNat ((e.drop 8).take 8)
  let v := if bitOf (leNat ((e.drop 5).take 1)) 0 then v else v % 2 ^ 32
  let p : Path := { id := 36, secure := true }
  if target ≠ 0xFFFF && target ≠ s.ownAddr then s
  else if s.writeOk p i j v then (s.odSet p i j v).cnt 0x2804 5
  else (s.odSet p i j v).cnt 0x2804 6

/-- The entries that address this device, in order. -/
def State.applySet (s : State) (d : List Byte) : State :=
  (List.range (setCount d)).foldl (fun s k => s.applyEntry ((d.drop (0x40 + 16 * k)).take 16)) s

/-- LATTICE_ID, CONFIG_GENERATION and SET_DIGEST show a stored set. -/
def State.storeSet (s : State) (d : List Byte) : State :=
  let s := (((s.setLat (fun l => { l with set := d })).wr 0x2800 0xC (setId d)).wr 0x2800 0xD (setGen d)).wr 0x2800 0xA
    (leNat ((d.drop 0x20).take 8))
  s.paramOp false 1

/-- What the application of a set has counted, as a 0x0304 record. -/
def State.setRecord (s : State) (d : List Byte) (applied refused : Nat) : State :=
  s.record 0x0304 (body [(setGen d, 4), (setId d, 4), ((s.n 0x2804 5 + 2 ^ 32 - applied) % 2 ^ 32, 4),
    ((s.n 0x2804 6 + 2 ^ 32 - refused) % 2 ^ 32, 4)])

/-- The set staged at `a` may be published (R384): it is read whole, and its fields and LATTICE_ID fit. -/
def State.stagedOk (s : State) (a len : Nat) : Bool :=
  inStorage a len && s.rangeReady a len && !(s.fetchBytes 33 a len).2.1 && setShape (s.bytes a len) &&
  (s.n 0x2800 0xC = 0 || setId (s.bytes a len) = s.n 0x2800 0xC)

/-- The publish (R384): GENERATION and DIGEST are written into the staged set, which is stored, applied and announced. -/
def State.publish (s : State) : State :=
  let a := s.n 0x2804 1
  let len := s.n 0x2804 2
  if !s.stagedOk a len then ((s.fetchBytes 33 a len).2.2).wr 0x2804 4 3
  else
    let gen := (s.n 0x2800 0xD + 1) % 2 ^ 32
    let s := s.memWrite { id := 33, secure := true } (a + 0xC) (leBytes gen 4)
    let h := setDigest (s.bytes a len)
    let s := (List.range 4).foldl (fun s k => s.memWrite { id := 33, secure := true } (a + 0x20 + 8 * k) ((h.drop (8 * k)).take 8)) s
    let d := s.bytes a len
    let c := (s.n 0x2804 5, s.n 0x2804 6)
    let s := ((s.storeSet d).applySet d).setRecord d c.1 c.2
    ((s.latEvent 7).wr 0x2804 4 2).distribute.latRefresh

/-- CONFIG_PUBLISH (R384, R393): a write of PUBLISH and what follows it, or the end of a publish that a write has started. -/
def execConfigPublish (p : Path) (v : Word) (s : State) : Res :=
  .next (if s.isKeeper && s.n 0x2804 4 = 1 then s.publish
  else s.guard p 0x2804 3 v.toNat (fun s => if v = 1 then (s.wr 0x2804 4 1).publish else s))

/-! ### Answers as a requester, and the fetch (R382, R386) -/

/-- The fetch fails (R386). -/
def State.fetchFailed (s : State) : State :=
  match s.lat.fetch with
  | some f => (s.setLat (fun l => { l with fetch := some { f with failed := true } })).latEvent 8
  | none => s

/-- PROVE towards the keeper: its signature is a free value. -/
def State.proveAsk (s : State) (f : LatFetch) (num counter : Nat) : State :=
  let r := s.freeBytes 64
  (r.2.setLat (fun l => { l with fetch := some { f with stage := 1 } })).latAsk (r.2.n 0x2801 4) 10
    (beOf 2 4 ++ beOf num 4 ++ beOf (counter + 1) 4 ++ zeros 4 ++ r.1)

/-- An answer moves the fetch on: the session opens, then block after block arrives. -/
def State.fetchAnswer (s : State) (x : LatFrame) (f : LatFetch) : State :=
  if x.typ = 10 && f.stage < 2 then
    if beNat x.payload 4 4 ≠ 1 then s.fetchFailed
    else if f.stage = 0 then s.proveAsk f (beNat x.payload 8 4) (beNat x.payload 0 4)
    else s.askBlock f
  else if x.typ = 8 && f.stage = 2 then
    if x.payload.isEmpty then s.fetchFailed
    else
      let f := { f with data := f.data ++ x.payload }
      if f.data.length < 0x40 + 16 * min (setCount f.data) 4096 then s.askBlock f
      else s.setLat (fun l => { l with fetch := some f })
  else s

/-- Types of requests. -/
def requestTypes : List Nat := [4, 5, 6, 7, 8, 9, 10]

/-- SERVICE_ANSWER_RECEIVED: the response that the agent took last ends its request; one without a request is dropped. -/
def execServiceAnswerReceived (s : State) : Res :=
  .next (match s.lat.got with
  | none => s
  | some x =>
    if !s.latOn || !x.resp || !requestTypes.contains x.typ then s
    else
      let mine := fun (r : LatReq) => decide (r.addr = x.source ∧ r.typ = x.typ ∧ r.cls = x.cls ∧ r.seq = x.seq)
      let t := s.setLat (fun l => { l with got := none, reqs := l.reqs.filter (fun r => !mine r) })
      if s.lat.reqs.any mine then (match t.lat.fetch with | some f => t.fetchAnswer x f | none => t) else t)

/-- REQUEST_REPEAT_TIMEOUT: the `k`-th open request has had no answer for 50 ms; after three repeats it is given up. -/
def execRequestRepeatTimeout (k : Nat) (s : State) : Res :=
  .next (match s.lat.reqs[k]? with
  | none => s
  | some r =>
    if r.tries < 3 then
      (s.setLat (fun l => { l with reqs := l.reqs.set k { r with tries := r.tries + 1 } })).latTo r.addr r.cls r.frame
    else
      let t := s.setLat (fun l => { l with reqs := l.reqs.eraseIdx k })
      if r.typ = 8 || r.typ = 10 then t.fetchFailed else t)

/-- Quarantine ends (R386): the generation is confirmed, and the device runs with HOLD_N still low. -/
def State.leaveQuarantine (s : State) (gen : Nat) : State :=
  if s.latState ≠ 4 then s
  else
    let s := ((s.wr 0x2800 0xF 0).latEnter 2).latEvent 6
    let s := s.record 0x0704 (body [(gen, 4)])
    if s.dev = 5 then (s.enter 1).unhold 1 else s

/-- A fetched set verifies. -/
def fetchOk (f : LatFetch) : Bool := setShape f.data && setGen f.data = f.gen && (f.data.drop 0x20).take 32 = setDigest f.data

/-- A set that verifies is applied, stored and confirmed; another has to be fetched again. -/
def State.fetchDone (s : State) (f : LatFetch) : State :=
  if !fetchOk f then s.fetchFailed
  else
    let c := (s.n 0x2804 5, s.n 0x2804 6)
    let s := (s.setLat (fun l => { l with fetch := none })).applySet f.data
    let s := ((s.storeSet f.data).setRecord f.data c.1 c.2).latEvent 7
    ((s.confirmConfig f.gen).leaveQuarantine f.gen).latRefresh

/-- CONFIG_FETCH_COMPLETE (R384, R386): the last block has arrived. -/
def execConfigFetchComplete (s : State) : Res :=
  .next (match s.lat.fetch with
  | some f => if f.stage = 2 && !f.failed && 0x40 + 16 * min (setCount f.data) 4096 ≤ f.data.length then s.fetchDone f else s
  | none => s)

/-- CONFIG_FETCH_RETRY (R386): 1 s after a failure the set is fetched again. -/
def execConfigFetchRetry (s : State) : Res :=
  .next (match s.lat.fetch with
  | some f => if f.failed && s.latOn then s.fetchSet f.gen else s
  | none => s)

end Sys2Proof.Machine
end

