-- ==== Sys2Proof/Machine/Mac.lean ====
section
/-! DEFINITION. Frames that a port receives: their result and counters, MAC control frames, wake patterns; pause and its
watchdog; the verify procedure of preemption (R200–R204, R208–R214). -/

namespace Sys2Proof.Machine

/-! ### Wake patterns (R213, R214) -/

/-- Whether `d` holds the magic pattern of address `mac` at its head. -/
def magicAt (mac : Nat) (d : List Byte) : Bool :=
  d.take 102 = List.replicate 6 0xFF ++ (List.replicate 16 (beOf mac 6)).flatten

/-- Whether a tail of `d` begins with the magic pattern. -/
def hasMagic (mac : Nat) : List Byte → Bool
  | [] => false
  | b :: t => magicAt mac (b :: t) || hasMagic mac t

/-- Pattern `k` (0 or 1) of port `p` matches: every masked byte is there and equal. -/
def State.patternHits (s : State) (p k : Nat) (d : List Byte) : Bool :=
  let i := 0x2320 + p
  let mask := s.n i (2 + 2 * k)
  (List.range 64).all (fun b => !bitOf mask b ||
    (b < d.length && at' d b = fieldOf (s.n i (0x10 + 0x10 * k + b / 4)) (8 * (b % 4)) 8))

/-- What the wake detector finds in a frame with good FCS: 0 nothing, 1 magic, 2 pattern 0, 3 pattern 1. -/
def State.wakeMatch (s : State) (p : Nat) (d : List Byte) : Nat :=
  let m := s.n (0x2320 + p) 1
  if !fcsGood d then 0
  else if bitOf m 0 && hasMagic (s.portN p 0xA) d then 1
  else if bitOf m 1 && s.patternHits p 0 d then 2
  else if bitOf m 2 && s.patternHits p 1 d then 3
  else 0

/-- A match raises the MAC wake source when the port's detector stays on (R213). -/
def State.wakeFrame (s : State) (p : Nat) (d : List Byte) : State :=
  let k := s.wakeMatch p d
  if k = 0 then s
  else
    let s := ((s.wr (0x2320 + p) 6 k).cnt (0x2320 + p) 7).portEvent p 7
    if s.bit 0x2008 3 p then s.wake 10 else s

/-! ### MAC control frames (R202, R208) -/

/-- Show PAUSED_BY_PEER. -/
def State.showPaused (s : State) (p : Nat) : State := s.putBits (0x2300 + p) 9 0x80 ((s.port p).paused ≠ 0)

/-- The pending request takes effect: classes paused, classes released (R208). -/
def State.applyPause (s : State) (p : Nat) : State :=
  let g := s.port p
  match g.pauseReq with
  | none => s
  | some (on, off) =>
    let on := on - (on &&& g.ignored)
    (s.setPort p { g with paused := (g.paused - (g.paused &&& off)) ||| on, pauseReq := none }).showPaused p

/-- A pause or PFC frame: counted, and pending as a request where the port honours it (R208). -/
def State.macControl (s : State) (p : Nat) (d : List Byte) : State :=
  let pc := s.rxCfg p 0xD
  let mine := mac48 d 0 = 0x0180C2000001 || mac48 d 0 = s.portN p 0xA
  let op := be16 d 14
  let free := (s.chordEgress p).isNone
  if !mine then s
  else if op = 1 then
    let s := s.stat p 0x12
    if !bitOf pc 2 && bitOf pc 0 && free then
      (s.applyPause p).setPort p { (s.applyPause p).port p with
        pauseReq := some (if be16 d 16 = 0 then (0, 0xFF) else (0xFF, 0)) }
    else s
  else if op = 0x0101 then
    let s := s.stat p 0x13
    if bitOf pc 2 && free then
      let cls := (List.range 8).filter (fun c => bitOf pc (8 + c) && bitOf (be16 d 16) c)
      let on := (cls.filter (fun c => be16 d (18 + 2 * c) ≠ 0)).foldl (fun a c => a + 2 ^ c) 0
      let off := (cls.filter (fun c => be16 d (18 + 2 * c) = 0)).foldl (fun a c => a + 2 ^ c) 0
      (s.applyPause p).setPort p { (s.applyPause p).port p with pauseReq := some (on, off) }
    else s
  else s

/-! ### Received frames (R202, R204, R212) -/

/-- The frame is for the switch: kept until FRAME_STORE_COMPLETE; what the port passes on of it ends at MAX_FRAME. -/
def State.rxToSwitch (s : State) (p : Nat) (d : List Byte) (r : RxResult) : State :=
  let s := if (s.port p).rxDone.isSome then s.storeComplete p else s
  s.setPort p { s.port p with rxDone := some ((d.take (s.rxCfg p 0xC)).take (d.length - 4), r = .good) }

/-- A received frame: `er` is the nibble at which RX_ER or a code violation was first seen, `frags` the mPackets a
preempted frame came in (0 when it came whole). -/
def State.receive (s : State) (p : Nat) (d : List Byte) (er : Option Nat) (frags : Nat) : State :=
  let r := rxResult d er (s.rxCfg p 0xC)
  let s := s.countRx p d r
  let s := if frags = 0 then s else (s.statAdd p 0x17 32 frags).stat p 0x16
  let s := s.wakeFrame p d
  if r = .good && be16 d 12 = 0x8808 then s.macControl p d
  else s.rxToSwitch p d r

/-- PORT_FRAME_RECEIVED (R202): `br` says whether the MAC merge sublayer delivered the frame (0), or found an assembly
error (1) or an SMD error (2), which are counted (R204). In Standby only the wake detector sees it (R214). -/
def execPortFrameReceived (p : Fin 12) (d : List Byte) (er : Option Nat) (frags : Nat) (br : Fin 3) (s : State) : Res :=
  .next (if s.pw.sleep = .standby then
      (if p.val < 8 && s.bit 0x2008 3 p && s.wakeMatch p d ≠ 0 then s.wake 10 else s)
    else if !s.linkUp p then s
    else if br.val = 1 then (if frags = 0 then s else s.statAdd p 0x17 32 frags).stat p 0x14
    else if br.val = 2 then s.stat p 0x15
    else s.receive p d er frags)

/-! ### Pause (R208–R210) -/

/-- PAUSE_REQUEST_RECEIVED (R208): the honoured request that arrived takes effect. -/
def execPauseRequestReceived (p : Fin 12) (s : State) : Res := .next (s.applyPause p)

/-- PAUSE_EXPIRY (R208): the quanta of class `c` have run out; under 802.3 pause all classes resume together. -/
def execPauseExpiry (p : Fin 12) (c : Fin 8) (s : State) : Res :=
  let m := if bitOf (s.rxCfg p 0xD) 2 then 2 ^ c.val else 0xFF
  let g := s.port p
  .next ((s.setPort p { g with paused := g.paused - (g.paused &&& m) }).showPaused p)

/-- PAUSE_REFRESH_TIMER (R209): while the class is asserted its request goes out again. -/
def execPauseRefreshTimer (p : Fin 12) (c : Fin 8) (s : State) : Res :=
  .next (if s.bit (0x2250 + p) 7 c && s.portN p 0xF ≠ 0 then s.queuePause p c (s.portN p 0xE) else s)

/-- PAUSE_WATCHDOG_EXPIRY (R210). -/
def execPauseWatchdogExpiry (p : Fin 12) (c : Fin 8) (s : State) : Res :=
  let g := s.port p
  .next (if bitOf g.paused c && s.portN p 0x10 ≠ 0 then
    let s := (s.setPort p { g with paused := g.paused - 2 ^ c.val, ignored := g.ignored ||| 2 ^ c.val }).showPaused p
    ((s.portEvent p 4).stat p 0x27).record 0x0501 (body [(p, 1), (c, 1)])
  else s)

/-- PAUSE_RESUME (R210). -/
def execPauseResume (q : Path) (p : Fin 12) (v : Word) (s : State) : Res :=
  .next (s.guard q (0x2300 + p.val) 0x11 v.toNat (fun s =>
    if v = 1 then s.setPort p { s.port p with ignored := 0 } else s))

/-! ### Verify (R203) -/

/-- PREEMPT_VERIFY_SEND (R203): up to 3 verify mPackets. -/
def execPreemptVerifySend (p : Fin 12) (s : State) : Res :=
  let g := s.port p
  .next (if s.portN p 0x13 = 1 && g.verifyTries < 3 then
    (s.setPort p { g with verifyTries := g.verifyTries + 1 }).emit (.verify p)
  else s)

/-- PREEMPT_VERIFY_RESPONSE (R203). -/
def execPreemptVerifyResponse (p : Fin 12) (s : State) : Res :=
  .next (if s.portN p 0x13 = 1 && (s.port p).verifyTries ≠ 0 then (s.wr (0x2300 + p) 0x13 2).portEvent p 6 else s)

/-- PREEMPT_VERIFY_FAILED (R203). -/
def execPreemptVerifyFailed (p : Fin 12) (s : State) : Res :=
  .next (if s.portN p 0x13 = 1 && (s.port p).verifyTries = 3 then (s.wr (0x2300 + p) 0x13 3).portEvent p 5 else s)

end Sys2Proof.Machine
end

