-- ==== Sys2Proof/Machine/Mailbox.lean ====
section
/-! DEFINITION. The mailbox commands of window paths (spec/18). Engines use the instructions of R164. -/

namespace Sys2Proof.Machine

/-- MBOX_LOCK_READ (R478): a read of LOCK takes a free lock; a read the table of R477 forbids returns 0 and counts a
violation. -/
def execMboxLockRead (p : Path) (ch : Fin 48) (s : State) : Res :=
  .next (if s.readOk p (0x2C10 + ch.val) 6 then
    let r := s.lockRead ch p.id.val
    r.2.emit (.reply p.id.val (leBytes r.1 4) false)
  else (s.violate p.id.val).emit (.reply p.id.val (zeros 4) false))

/-- MBOX_LOCK_RELEASE (R478): only the owner's write of 0 is accepted. -/
def execMboxLockRelease (p : Path) (ch : Fin 48) (v : Word) (s : State) : Res :=
  .next (s.guard p (0x2C10 + ch.val) 6 v.toNat (fun s => s.lockFree ch))

/-- MBOX_POST (R480, R483). -/
def execMboxPost (p : Path) (ch : Fin 48) (bits : Word) (len : Word) (s : State) : Res :=
  .next (s.guard p (0x2C10 + ch.val) 8 (bits.toNat + len.toNat * 2 ^ 32) (fun s => s.post ch bits len.toNat))

/-- MBOX_DOORBELL_READ (R482). -/
def execMboxDoorbellRead (p : Path) (ch : Fin 48) (s : State) : Res :=
  .next (if s.readOk p (0x2C10 + ch.val) 0xC then
    let r := s.dbRead ch
    r.2.emit (.reply p.id.val (leBytes r.1.toNat 4) false)
  else (s.violate p.id.val).emit (.reply p.id.val (zeros 4) false))

/-- MBOX_DOORBELL_CLEAR (R481). -/
def execMboxDoorbellClear (p : Path) (ch : Fin 48) (v : Word) (s : State) : Res :=
  .next (s.guard p (0x2C10 + ch.val) 0xC v.toNat (fun s => s.dbClear ch v))

/-- MBOX_MASK_WRITE (R484). -/
def execMboxMaskWrite (p : Path) (ch : Fin 48) (v : Word) (s : State) : Res :=
  .next (s.guard p (0x2C10 + ch.val) 0xD v.toNat (fun s => s.maskWrite ch v))

/-- MBOX_DISCARD_ZEROED (R487, R488): the zeroing ends and the lock of the reset owner is released. -/
def execMboxDiscardZeroed (ch : Fin 48) (s : State) : Res :=
  .next (if (s.chan ch).zeroing then
    (s.setChan ch { s.chan ch with zeroing := false }).lockReleaseReset ch
  else s)

end Sys2Proof.Machine
end

