-- ==== Sys2Proof/Machine/Network.lean ====
section
/-! DEFINITION. Object access over the field networks, and PRIVATE entries (R42, R69, R404, R405). -/

namespace Sys2Proof.Machine

/-- The path of an instance's acyclic accesses: its first engine's, not secure (R42). -/
def State.netPath (s : State) (n : Nat) : Path := { id := Fin.ofNat 64 (s.instN n 2 + 1), secure := false }

/-- What a network sees at `i:j`: a PRIVATE entry of its image takes the place of the device object (R404). -/
def State.netPriv (s : State) (n i j : Nat) : Option InstObj :=
  if 0x1000 ≤ i ∧ i ≤ 0x1FFF then s.privEntry n i j else none

/-- The access code lets a network read, and write, a PRIVATE entry. -/
def InstObj.netReads (o : InstObj) : Bool := o.odAcc ≠ .wo && o.odAcc ≠ .sec
def InstObj.netWrites (o : InstObj) (v : Nat) : Bool :=
  (o.odAcc = .rw || o.odAcc = .wo) && typeOk o.odTy v && o.within v

/-- A read over the network: the value as bytes, and the state after it. A violation reads 0 (R69). -/
def State.netGet (s : State) (n i j : Nat) : List Byte × State :=
  let p := s.netPath n
  match s.netPriv n i j with
  | some o =>
    let k := if o.wide then 8 else 4
    if o.netReads then
      let r := s.instRead o
      (leBytes r.1 k, r.2)
    else (zeros k, s.violate p.id.val)
  | none =>
    let r := s.odGet p i j
    (leBytes r.1.toNat (if s.isWide i j then 8 else 4), r.2)

/-- A write over the network: a 32-bit object takes the low word. -/
def State.netSet (s : State) (n i j v : Nat) : State :=
  let p := s.netPath n
  match s.netPriv n i j with
  | some o =>
    let w := if o.wide then v else v % 2 ^ 32
    if s.dev ≠ 5 && o.netWrites w then s.instWrite o w else s.violate p.id.val
  | none => s.odSet p i j (if s.isWide i j then v else v % 2 ^ 32)

/-- A read or a write with its answer; a write is acknowledged (R69). -/
def State.netValue (s : State) (n i j : Nat) (v : Option Nat) : State :=
  match v with
  | some x => (s.netSet n i j x).emit (.network [])
  | none =>
    let r := s.netGet n i j
    r.2.emit (.network r.1)

/-- Selector of a connection (R405). -/
def State.netSel (s : State) (n conn : Nat) : Nat := tblGet (fun _ => 0) conn (s.inst n).sel
def State.setNetSel (s : State) (n conn v : Nat) : State :=
  s.setInst n { s.inst n with sel := tblSet (fun _ => 0) conn v (s.inst n).sel }
def selIdx (v : Nat) : Nat := fieldOf v 0 16
def selSub (v : Nat) : Nat := fieldOf v 16 8

/-! ### Modbus registers (R405) -/

/-- A value register 0–3 (0xF002–0xF005) of a 64-bit value, most significant first. -/
def regOf (v k : Nat) : Nat := fieldOf v (16 * (3 - k)) 16

/-- A read of 0xF002: the OD read, and its value latched. -/
def State.modbusRead (s : State) (n conn : Nat) : State :=
  let v := s.netSel n conn
  let r := s.netGet n (selIdx v) (selSub v)
  let x := leNat r.1
  let t := r.2.setInst n { r.2.inst n with latch := tblSet (fun _ => 0) conn (BitVec.ofNat 64 x) (r.2.inst n).latch }
  t.emit (.network (leBytes (regOf x 0) 2))

/-- A write of 0xF005: the registers written form the value. -/
def State.modbusCommit (s : State) (n conn v : Nat) : State :=
  let w := fun k => tblGet (fun _ => 0) (conn * 4 + k) (s.inst n).regs
  let x := w 0 * 2 ^ 48 + w 1 * 2 ^ 32 + w 2 * 2 ^ 16 + v
  let sel := s.netSel n conn
  let s := s.setInst n { s.inst n with regs := tblClear (conn * 4) (conn * 4 + 4) (s.inst n).regs }
  (s.netSet n (selIdx sel) (selSub sel) x).emit (.network [])

/-- A register of a Modbus connection: 0 the index and 1 the sub of the selector, 2–5 the value. -/
def State.modbusReg (s : State) (n conn k : Nat) (v : Option Nat) : State :=
  let sel := s.netSel n conn
  match v with
  | none =>
    if k = 0 then s.emit (.network (leBytes (selIdx sel) 2))
    else if k = 1 then s.emit (.network (leBytes (selSub sel) 2))
    else if k = 2 then s.modbusRead n conn
    else s.emit (.network (leBytes (regOf (tblGet (fun _ => 0) conn (s.inst n).latch).toNat (k - 2)) 2))
  | some x =>
    if k = 0 then (s.setNetSel n conn (selSub sel * 2 ^ 16 + x)).emit (.network [])
    else if k = 1 then (s.setNetSel n conn (selIdx sel + x % 256 * 2 ^ 16)).emit (.network [])
    else if k = 5 then s.modbusCommit n conn x
    else (s.setInst n { s.inst n with regs := tblSet (fun _ => 0) (conn * 4 + (k - 2)) x (s.inst n).regs }).emit (.network [])

/-! ### Services (R405) -/

/-- Images by how they address objects. -/
def selectorImage (id : Nat) : Bool := id = 0x0104 || id = 0x0105 || id = 0x0109
def sdoImage (id : Nat) : Bool := id = 0x0107 || id = 0x0108 || id = 0x010B

/-- An acyclic request; one that the image's service does not make has no effect. -/
def State.netAccess (s : State) (n conn : Nat) (op : NetOp) : State :=
  let id := s.instN n 1
  match op with
  | .attr i a v =>
    if id = 0x0103 && i < 0x1_0000 && 1 ≤ a && a ≤ 256 then s.netValue n i (a - 1) (v.map BitVec.toNat) else s
  | .select v => if selectorImage id then (s.setNetSel n conn v.toNat).emit (.network []) else s
  | .value v =>
    if selectorImage id then s.netValue n (selIdx (s.netSel n conn)) (selSub (s.netSel n conn)) (v.map BitVec.toNat) else s
  | .memory a v =>
    if id = 0x0106 && regionOf a.toNat = .window && a.toNat % 4 = 0 then
      match v with
      | some x => (s.slotWrite (s.netPath n) (slotIdx a.toNat) (slotSub a.toNat) x.toNat).emit (.network [])
      | none =>
        let r := s.slotRead (s.netPath n) (slotIdx a.toNat) (slotSub a.toNat)
        r.2.emit (.network (leBytes r.1 4))
    else s
  | .sdo i j v => if sdoImage id then s.netValue n i.toNat j.toNat (v.map BitVec.toNat) else s
  | .opened =>
    s.setInst n { s.inst n with
      sel := tblDel conn (s.inst n).sel, latch := tblDel conn (s.inst n).latch
      regs := tblClear (conn * 4) (conn * 4 + 4) (s.inst n).regs }
  | .register k v => if id = 0x010A then s.modbusReg n conn k (v.map BitVec.toNat) else s

/-- The instance serves its network. -/
def State.netServes (s : State) (n : Nat) : Bool := s.coreUp && s.instState n = 2

/-- NETWORK_OD_ACCESS (R405): connection `conn` of instance `n` asks for `op`. -/
def execNetworkOdAccess (n : Fin 6) (conn : Nat) (op : NetOp) (s : State) : Res :=
  .next (if s.netServes n then s.netAccess n conn op else s)

/-- MODBUS_VALUE_READ and MODBUS_VALUE_COMMIT (R405). -/
def execModbusValueRead (n : Fin 6) (conn : Nat) (s : State) : Res :=
  .next (if s.netServes n && s.instN n 1 = 0x010A then s.modbusRead n conn else s)
def execModbusValueCommit (n : Fin 6) (conn : Nat) (v : Half) (s : State) : Res :=
  .next (if s.netServes n && s.instN n 1 = 0x010A then s.modbusCommit n conn v.toNat else s)

/-- PRIVATE_VALUE_ACCESS (R404): a read of PRIVATE_VALUE, or a write of `w`. -/
def execPrivateValueAccess (p : Path) (n : Fin 6) (w : Option DWord) (s : State) : Res :=
  .next (match w with
    | some v => s.odSet p (instBase n) 0xA v.toNat
    | none =>
      let r := s.odGet p (instBase n) 0xA
      r.2.emit (.reply p.id.val (leBytes r.1.toNat 8) false))

end Sys2Proof.Machine
end

