-- ==== Sys2Proof/Machine/Dispatch.lean ====
section
/-! DEFINITION. One arm per command: the meaning that gives it its effect. -/

namespace Sys2Proof.Machine

def exec (i : Instr) (s : State) : Host.Outcome State Fault Refusal :=
  match i with
  | .mapRead p addr size beats => Sys2Proof.Machine.execMapRead p addr size beats s
  | .mapWrite p addr size data => Sys2Proof.Machine.execMapWrite p addr size data s
  | .odWrite p idx sub v => Sys2Proof.Machine.execOdWrite p idx sub v s
  | .windowReadLowSlot p idx sub => Sys2Proof.Machine.execWindowReadLowSlot p idx sub s
  | .windowReadHighSlot p idx sub => Sys2Proof.Machine.execWindowReadHighSlot p idx sub s
  | .windowWriteLowSlot p idx sub v => Sys2Proof.Machine.execWindowWriteLowSlot p idx sub v s
  | .windowWriteHighSlot p idx sub v => Sys2Proof.Machine.execWindowWriteHighSlot p idx sub v s
  | .eventStatusClear p idx sub v again => Sys2Proof.Machine.execEventStatusClear p idx sub v again s
  | .paramSave p sub v => Sys2Proof.Machine.execParamSave p sub v s
  | .paramRestore p sub v => Sys2Proof.Machine.execParamRestore p sub v s
  | .paramHoldExpiry => Sys2Proof.Machine.execParamHoldExpiry s
  | .paramCopyWritten ok => Sys2Proof.Machine.execParamCopyWritten ok s
  | .rimPllLockLost => Sys2Proof.Machine.execRimPllLockLost s
  | .rimPllRelock => Sys2Proof.Machine.execRimPllRelock s
  | .vddioPresent bank => Sys2Proof.Machine.execVddioPresent bank s
  | .vddioBankLost bank => Sys2Proof.Machine.execVddioBankLost bank s
  | .vddioClassSense bank mv stable => Sys2Proof.Machine.execVddioClassSense bank mv stable s
  | .aonPowerGood => Sys2Proof.Machine.execAonPowerGood s
  | .por => Sys2Proof.Machine.execPor s
  | .coreBrownout => Sys2Proof.Machine.execCoreBrownout s
  | .coreBrownoutRelease => Sys2Proof.Machine.execCoreBrownoutRelease s
  | .resetNFall => Sys2Proof.Machine.execResetNFall s
  | .resetNAccept => Sys2Proof.Machine.execResetNAccept s
  | .resetNRise => Sys2Proof.Machine.execResetNRise s
  | .bringupStepDone b => Sys2Proof.Machine.execBringupStepDone b s
  | .holdRelease p v overtaken => Sys2Proof.Machine.execHoldRelease p v overtaken s
  | .holdAck p v => Sys2Proof.Machine.execHoldAck p v s
  | .holdRequest p v => Sys2Proof.Machine.execHoldRequest p v s
  | .deviceReset p v => Sys2Proof.Machine.execDeviceReset p v s
  | .engineReset p v => Sys2Proof.Machine.execEngineReset p v s
  | .facetReset p v => Sys2Proof.Machine.execFacetReset p v s
  | .macPortReset p v => Sys2Proof.Machine.execMacPortReset p v s
  | .ringReset p v => Sys2Proof.Machine.execRingReset p v s
  | .canReset p v => Sys2Proof.Machine.execCanReset p v s
  | .pioBlockReset p v => Sys2Proof.Machine.execPioBlockReset p v s
  | .locusReset p => Sys2Proof.Machine.execLocusReset p s
  | .switchReset p => Sys2Proof.Machine.execSwitchReset p s
  | .timeDomainReset p v => Sys2Proof.Machine.execTimeDomainReset p v s
  | .blockResetComplete sub bit => Sys2Proof.Machine.execBlockResetComplete sub bit s
  | .integrityReset detail addr => Sys2Proof.Machine.execIntegrityReset detail addr s
  | .lockstepMismatch => Sys2Proof.Machine.execLockstepMismatch s
  | .apexWatchdogExpiry => Sys2Proof.Machine.execApexWatchdogExpiry s
  | .thermalTrip sensor reading => Sys2Proof.Machine.execThermalTrip sensor reading s
  | .thermalRelease => Sys2Proof.Machine.execThermalRelease s
  | .triesClear p v => Sys2Proof.Machine.execTriesClear p v s
  | .optionsCommit p v => Sys2Proof.Machine.execOptionsCommit p v s
  | .optionsCommitEnd => Sys2Proof.Machine.execOptionsCommitEnd s
  | .dozeRequest p => Sys2Proof.Machine.execDozeRequest p s
  | .standbyRequest p => Sys2Proof.Machine.execStandbyRequest p s
  | .dozeTransitionDone => Sys2Proof.Machine.execDozeTransitionDone s
  | .standbyPowerDown => Sys2Proof.Machine.execStandbyPowerDown s
  | .dozeWakeWrite p => Sys2Proof.Machine.execDozeWakeWrite p s
  | .wakeSourceEvent src unit rising => Sys2Proof.Machine.execWakeSourceEvent src unit rising s
  | .dozeWakeDone => Sys2Proof.Machine.execDozeWakeDone s
  | .standbyWake => Sys2Proof.Machine.execStandbyWake s
  | .wakeConfigCheck verified found => Sys2Proof.Machine.execWakeConfigCheck verified found s
  | .configConfirmedWrite p v => Sys2Proof.Machine.execConfigConfirmedWrite p v s
  | .laneBindingWrite p f k v => Sys2Proof.Machine.execLaneBindingWrite p f k v s
  | .laneBindingApply e tx => Sys2Proof.Machine.execLaneBindingApply e tx s
  | .rxLaneFrame e first nibs last => Sys2Proof.Machine.execRxLaneFrame e first nibs last s
  | .txLaneFrameStart e phase dt => Sys2Proof.Machine.execTxLaneFrameStart e phase dt s
  | .txLaneUnderrun e => Sys2Proof.Machine.execTxLaneUnderrun e s
  | .engineRun p e => Sys2Proof.Machine.execEngineRun p e s
  | .engineHalt p e => Sys2Proof.Machine.execEngineHalt p e s
  | .engineStep p e => Sys2Proof.Machine.execEngineStep p e s
  | .engineLoad p e => Sys2Proof.Machine.execEngineLoad p e s
  | .engineHalted e => Sys2Proof.Machine.execEngineHalted e s
  | .engineLoadDone e signed digestOk => Sys2Proof.Machine.execEngineLoadDone e signed digestOk s
  | .hbPeriodExpiry e => Sys2Proof.Machine.execHbPeriodExpiry e s
  | .facetDbeRestart f => Sys2Proof.Machine.execFacetDbeRestart f s
  | .imageInstall p => Sys2Proof.Machine.execImageInstall p s
  | .imageRemove p => Sys2Proof.Machine.execImageRemove p s
  | .imageLibraryOpDone signed => Sys2Proof.Machine.execImageLibraryOpDone signed s
  | .processDataRead p idx sub retries => Sys2Proof.Machine.execProcessDataRead p idx sub retries s
  | .postedStoreComplete c => Sys2Proof.Machine.execPostedStoreComplete c s
  | .engineWaitEnd c dt => Sys2Proof.Machine.execEngineWaitEnd c dt s
  | .add c => Sys2Proof.Machine.execAdd c s
  | .addi c => Sys2Proof.Machine.execAddi c s
  | .sub c => Sys2Proof.Machine.execSub c s
  | .adc c => Sys2Proof.Machine.execAdc c s
  | .sbc c => Sys2Proof.Machine.execSbc c s
  | .andReg c => Sys2Proof.Machine.execAndReg c s
  | .andi c => Sys2Proof.Machine.execAndi c s
  | .orReg c => Sys2Proof.Machine.execOrReg c s
  | .ori c => Sys2Proof.Machine.execOri c s
  | .xor c => Sys2Proof.Machine.execXor c s
  | .xori c => Sys2Proof.Machine.execXori c s
  | .cmp c => Sys2Proof.Machine.execCmp c s
  | .cmpi c => Sys2Proof.Machine.execCmpi c s
  | .mul c => Sys2Proof.Machine.execMul c s
  | .lui c => Sys2Proof.Machine.execLui c s
  | .movi c => Sys2Proof.Machine.execMovi c s
  | .shl c => Sys2Proof.Machine.execShl c s
  | .shr c => Sys2Proof.Machine.execShr c s
  | .sar c => Sys2Proof.Machine.execSar c s
  | .ror c => Sys2Proof.Machine.execRor c s
  | .ext c => Sys2Proof.Machine.execExt c s
  | .ins c => Sys2Proof.Machine.execIns c s
  | .nswap c => Sys2Proof.Machine.execNswap c s
  | .bswap16 c => Sys2Proof.Machine.execBswap16 c s
  | .bswap32 c => Sys2Proof.Machine.execBswap32 c s
  | .clz c => Sys2Proof.Machine.execClz c s
  | .popc c => Sys2Proof.Machine.execPopc c s
  | .notReg c => Sys2Proof.Machine.execNotReg c s
  | .neg c => Sys2Proof.Machine.execNeg c s
  | .sext8 c => Sys2Proof.Machine.execSext8 c s
  | .sext16 c => Sys2Proof.Machine.execSext16 c s
  | .ldl c => Sys2Proof.Machine.execLdl c s
  | .stl c => Sys2Proof.Machine.execStl c s
  | .ldf c => Sys2Proof.Machine.execLdf c s
  | .stf c => Sys2Proof.Machine.execStf c s
  | .ldx c => Sys2Proof.Machine.execLdx c s
  | .stx c => Sys2Proof.Machine.execStx c s
  | .faddF c => Sys2Proof.Machine.execFaddF c s
  | .swapF c => Sys2Proof.Machine.execSwapF c s
  | .faddX c => Sys2Proof.Machine.execFaddX c s
  | .swapX c => Sys2Proof.Machine.execSwapX c s
  | .fence c => Sys2Proof.Machine.execFence c s
  | .bCond c => Sys2Proof.Machine.execBCond c s
  | .call c => Sys2Proof.Machine.execCall c s
  | .jr c => Sys2Proof.Machine.execJr c s
  | .callr c => Sys2Proof.Machine.execCallr c s
  | .cbz c => Sys2Proof.Machine.execCbz c s
  | .cbnz c => Sys2Proof.Machine.execCbnz c s
  | .halt c => Sys2Proof.Machine.execHalt c s
  | .nop c => Sys2Proof.Machine.execNop c s
  | .hbeat c => Sys2Proof.Machine.execHbeat c s
  | .take c => Sys2Proof.Machine.execTake c s
  | .peek c => Sys2Proof.Machine.execPeek c s
  | .skip c => Sys2Proof.Machine.execSkip c s
  | .give c => Sys2Proof.Machine.execGive c s
  | .matchLane c => Sys2Proof.Machine.execMatchLane c s
  | .mark c => Sys2Proof.Machine.execMark c s
  | .skipf c => Sys2Proof.Machine.execSkipf c s
  | .gend c => Sys2Proof.Machine.execGend c s
  | .lstat c => Sys2Proof.Machine.execLstat c s
  | .crcInit c => Sys2Proof.Machine.execCrcInit c s
  | .crcFold c => Sys2Proof.Machine.execCrcFold c s
  | .crcRead c => Sys2Proof.Machine.execCrcRead c s
  | .crcWrite c => Sys2Proof.Machine.execCrcWrite c s
  | .crcTap c => Sys2Proof.Machine.execCrcTap c s
  | .timeRead c dt => Sys2Proof.Machine.execTimeRead c dt s
  | .timeh c => Sys2Proof.Machine.execTimeh c s
  | .twait c dt => Sys2Proof.Machine.execTwait c dt s
  | .ewait c => Sys2Proof.Machine.execEwait c s
  | .ewaitTimeout c dt => Sys2Proof.Machine.execEwaitTimeout c dt s
  | .epoll c => Sys2Proof.Machine.execEpoll c s
  | .lock c => Sys2Proof.Machine.execLock c s
  | .unlock c => Sys2Proof.Machine.execUnlock c s
  | .post c => Sys2Proof.Machine.execPost c s
  | .dbrd c => Sys2Proof.Machine.execDbrd c s
  | .dbclr c => Sys2Proof.Machine.execDbclr c s
  | .wdkick c => Sys2Proof.Machine.execWdkick c s
  | .fuserd c => Sys2Proof.Machine.execFuserd c s
  | .mramw c => Sys2Proof.Machine.execMramw c s
  | .sha c => Sys2Proof.Machine.execSha c s
  | .engsec c => Sys2Proof.Machine.execEngsec c s
  | .chordFrame d data er express ago phase delay lost => Sys2Proof.Machine.execChordFrame d data er express ago phase delay lost s
  | .chordCaptureWrite d => Sys2Proof.Machine.execChordCaptureWrite d s
  | .spliceCommit q d v => Sys2Proof.Machine.execSpliceCommit q d v s
  | .spliceLoadDone d => Sys2Proof.Machine.execSpliceLoadDone d s
  | .spliceTableActivate d => Sys2Proof.Machine.execSpliceTableActivate d s
  | .chordConfigApply d => Sys2Proof.Machine.execChordConfigApply d s
  | .mdioC22Write q m phy reg data => Sys2Proof.Machine.execMdioC22Write q m phy reg data s
  | .mdioC22Read q m phy reg data => Sys2Proof.Machine.execMdioC22Read q m phy reg data s
  | .mdioC45Address q m phy reg data => Sys2Proof.Machine.execMdioC45Address q m phy reg data s
  | .mdioC45Write q m phy reg data => Sys2Proof.Machine.execMdioC45Write q m phy reg data s
  | .mdioC45Read q m phy reg data => Sys2Proof.Machine.execMdioC45Read q m phy reg data s
  | .mdioC45ReadIncrement q m phy reg data => Sys2Proof.Machine.execMdioC45ReadIncrement q m phy reg data s
  | .mdioFrameEnd m data => Sys2Proof.Machine.execMdioFrameEnd m data s
  | .mdioPoll p r1 r4 r5 r9 r10 got => Sys2Proof.Machine.execMdioPoll p r1 r4 r5 r9 r10 got s
  | .linkUp p told => Sys2Proof.Machine.execLinkUp p told s
  | .linkDown p got => Sys2Proof.Machine.execLinkDown p got s
  | .portLinkConfigChange p => Sys2Proof.Machine.execPortLinkConfigChange p s
  | .portFrameConfigApply p tx => Sys2Proof.Machine.execPortFrameConfigApply p tx s
  | .serdesLockLost n got => Sys2Proof.Machine.execSerdesLockLost n got s
  | .portFrameReceived p d er frags br => Sys2Proof.Machine.execPortFrameReceived p d er frags br s
  | .portFrameTransmitted p frags dt => Sys2Proof.Machine.execPortFrameTransmitted p frags dt s
  | .tsRecordWrite p => Sys2Proof.Machine.execTsRecordWrite p s
  | .preemptVerifySend p => Sys2Proof.Machine.execPreemptVerifySend p s
  | .preemptVerifyResponse p => Sys2Proof.Machine.execPreemptVerifyResponse p s
  | .preemptVerifyFailed p => Sys2Proof.Machine.execPreemptVerifyFailed p s
  | .pauseRequestReceived p => Sys2Proof.Machine.execPauseRequestReceived p s
  | .pauseExpiry p c => Sys2Proof.Machine.execPauseExpiry p c s
  | .pauseRefreshTimer p c => Sys2Proof.Machine.execPauseRefreshTimer p c s
  | .pauseWatchdogExpiry p c => Sys2Proof.Machine.execPauseWatchdogExpiry p c s
  | .pauseResume q p v => Sys2Proof.Machine.execPauseResume q p v s
  | .switchAdmission p head ago phase whole => Sys2Proof.Machine.execSwitchAdmission p head ago phase whole s
  | .frameStoreComplete p => Sys2Proof.Machine.execFrameStoreComplete p s
  | .txSelection p phase dt => Sys2Proof.Machine.execTxSelection p phase dt s
  | .fdbAgeExpiry e dt => Sys2Proof.Machine.execFdbAgeExpiry e dt s
  | .fdbReadEntry q => Sys2Proof.Machine.execFdbReadEntry q s
  | .fdbInsert q => Sys2Proof.Machine.execFdbInsert q s
  | .fdbDelete q => Sys2Proof.Machine.execFdbDelete q s
  | .fdbFlush q => Sys2Proof.Machine.execFdbFlush q s
  | .gateConfigChange m p v => Sys2Proof.Machine.execGateConfigChange m p v s
  | .gateConfigOperational p dt => Sys2Proof.Machine.execGateConfigOperational p dt s
  | .gateIntervalExpiry p dt => Sys2Proof.Machine.execGateIntervalExpiry p dt s
  | .streamRead q => Sys2Proof.Machine.execStreamRead q s
  | .streamWrite q => Sys2Proof.Machine.execStreamWrite q s
  | .streamClearBlocked q => Sys2Proof.Machine.execStreamClearBlocked q s
  | .streamGateRead q => Sys2Proof.Machine.execStreamGateRead q s
  | .streamGateWrite q => Sys2Proof.Machine.execStreamGateWrite q s
  | .streamGateChangeList q => Sys2Proof.Machine.execStreamGateChangeList q s
  | .streamGateIntervalExpiry g dt => Sys2Proof.Machine.execStreamGateIntervalExpiry g dt s
  | .meterRead q => Sys2Proof.Machine.execMeterRead q s
  | .meterWrite q => Sys2Proof.Machine.execMeterWrite q s
  | .meterClearMarkAllRed q => Sys2Proof.Machine.execMeterClearMarkAllRed q s
  | .cbRead q => Sys2Proof.Machine.execCbRead q s
  | .cbWrite q => Sys2Proof.Machine.execCbWrite q s
  | .cbResetRecovery q => Sys2Proof.Machine.execCbResetRecovery q s
  | .cbResetTimeout h => Sys2Proof.Machine.execCbResetTimeout h s
  | .rxRingDelivery st c => Sys2Proof.Machine.execRxRingDelivery st c s
  | .txRingFrame st => Sys2Proof.Machine.execTxRingFrame st s
  | .auditPass => Sys2Proof.Machine.execAuditPass s
  | .incrementWrite q d v => Sys2Proof.Machine.execIncrementWrite q d v s
  | .adjustStart q d v => Sys2Proof.Machine.execAdjustStart q d v s
  | .adjustEnd d dt => Sys2Proof.Machine.execAdjustEnd d dt s
  | .stepDisarm q d => Sys2Proof.Machine.execStepDisarm q d s
  | .stepNow q d => Sys2Proof.Machine.execStepNow q d s
  | .stepArmAt q d => Sys2Proof.Machine.execStepArmAt q d s
  | .stepApply d dt => Sys2Proof.Machine.execStepApply d dt s
  | .syncWrite q d v => Sys2Proof.Machine.execSyncWrite q d v s
  | .triggerFire d t dt => Sys2Proof.Machine.execTriggerFire d t dt s
  | .captureEdge i' falling ago phase => Sys2Proof.Machine.execCaptureEdge i' falling ago phase s
  | .capturePop q i' v => Sys2Proof.Machine.execCapturePop q i' v s
  | .ppsEdge i' dt => Sys2Proof.Machine.execPpsEdge i' dt s
  | .ppsPulseEnd i' dt => Sys2Proof.Machine.execPpsPulseEnd i' dt s
  | .launchEnable q k v => Sys2Proof.Machine.execLaunchEnable q k v s
  | .launchDisable q k v => Sys2Proof.Machine.execLaunchDisable q k v s
  | .launchFetchStart k dt => Sys2Proof.Machine.execLaunchFetchStart k dt s
  | .launchFetchDone k dt => Sys2Proof.Machine.execLaunchFetchDone k dt s
  | .launchBegin k phase dt => Sys2Proof.Machine.execLaunchBegin k phase dt s
  | .launchEnd k dt => Sys2Proof.Machine.execLaunchEnd k dt s
  | .launchAbort q k v => Sys2Proof.Machine.execLaunchAbort q k v s
  | .ringEnable q n v => Sys2Proof.Machine.execRingEnable q n v s
  | .perLockAcquired n east => Sys2Proof.Machine.execPerLockAcquired n east s
  | .perLockLost n east lostRx lostTx => Sys2Proof.Machine.execPerLockLost n east lostRx lostTx s
  | .healingSilenceEnd n => Sys2Proof.Machine.execHealingSilenceEnd n s
  | .perFrameReceived n east f fin ago phase displaced => Sys2Proof.Machine.execPerFrameReceived n east f fin ago phase displaced s
  | .echoRequestSend n east => Sys2Proof.Machine.execEchoRequestSend n east s
  | .echoRequestReceived n east sending => Sys2Proof.Machine.execEchoRequestReceived n east sending s
  | .echoReplyReceived n east t => Sys2Proof.Machine.execEchoReplyReceived n east t s
  | .echoTimeout n east => Sys2Proof.Machine.execEchoTimeout n east s
  | .measureSend n east => Sys2Proof.Machine.execMeasureSend n east s
  | .measureForward n => Sys2Proof.Machine.execMeasureForward n s
  | .measureReturn n ids => Sys2Proof.Machine.execMeasureReturn n ids s
  | .slotTableLoad q n m v => Sys2Proof.Machine.execSlotTableLoad q n m v s
  | .slotTableChecked n m => Sys2Proof.Machine.execSlotTableChecked n m s
  | .slotFetchStart n k => Sys2Proof.Machine.execSlotFetchStart n k s
  | .slotFetchDone n k => Sys2Proof.Machine.execSlotFetchDone n k s
  | .slotInsert n k busy phase dt => Sys2Proof.Machine.execSlotInsert n k busy phase dt s
  | .guardianCut n => Sys2Proof.Machine.execGuardianCut n s
  | .guardTableCommit q n v => Sys2Proof.Machine.execGuardTableCommit q n v s
  | .referenceSend n phase dt => Sys2Proof.Machine.execReferenceSend n phase dt s
  | .referenceAccept n => Sys2Proof.Machine.execReferenceAccept n s
  | .referenceMissed n dt => Sys2Proof.Machine.execReferenceMissed n dt s
  | .backupTakeover n phase dt => Sys2Proof.Machine.execBackupTakeover n phase dt s
  | .coldstartListenTimeout n => Sys2Proof.Machine.execColdstartListenTimeout n s
  | .coldstartSend n => Sys2Proof.Machine.execColdstartSend n s
  | .coldstartReceived n => Sys2Proof.Machine.execColdstartReceived n s
  | .modeRequest q n v => Sys2Proof.Machine.execModeRequest q n v s
  | .restoreRequest q n v => Sys2Proof.Machine.execRestoreRequest q n v s
  | .mgmtSend q n v => Sys2Proof.Machine.execMgmtSend q n v s
  | .mgmtReturn n d good => Sys2Proof.Machine.execMgmtReturn n d good s
  | .mgmtTimeout n => Sys2Proof.Machine.execMgmtTimeout n s
  | .mgmtReadIdentity n => Sys2Proof.Machine.execMgmtReadIdentity n s
  | .mgmtAssignNumber n => Sys2Proof.Machine.execMgmtAssignNumber n s
  | .mgmtWriteTable n => Sys2Proof.Machine.execMgmtWriteTable n s
  | .mgmtCommit n => Sys2Proof.Machine.execMgmtCommit n s
  | .mgmtReadStatus n => Sys2Proof.Machine.execMgmtReadStatus n s
  | .mgmtReadLinks n => Sys2Proof.Machine.execMgmtReadLinks n s
  | .trackEnable q t v => Sys2Proof.Machine.execTrackEnable q t v s
  | .locusStagingStart t dt => Sys2Proof.Machine.execLocusStagingStart t dt s
  | .locusReadDone t dt => Sys2Proof.Machine.execLocusReadDone t dt s
  | .locusPioPush t => Sys2Proof.Machine.execLocusPioPush t s
  | .locusStaged t => Sys2Proof.Machine.execLocusStaged t s
  | .locusDeadlineMiss t dt => Sys2Proof.Machine.execLocusDeadlineMiss t dt s
  | .swapArm q => Sys2Proof.Machine.execSwapArm q s
  | .swapCancel q => Sys2Proof.Machine.execSwapCancel q s
  | .swapArmTied q => Sys2Proof.Machine.execSwapArmTied q s
  | .trackAbort q t v => Sys2Proof.Machine.execTrackAbort q t v s
  | .latticeEnable q v => Sys2Proof.Machine.execLatticeEnable q v s
  | .helloSend dt => Sys2Proof.Machine.execHelloSend dt s
  | .helloReceived => Sys2Proof.Machine.execHelloReceived s
  | .neighbourTimeout n => Sys2Proof.Machine.execNeighbourTimeout n s
  | .keeperClaimStale id => Sys2Proof.Machine.execKeeperClaimStale id s
  | .discoveryEnd => Sys2Proof.Machine.execDiscoveryEnd s
  | .joinSend => Sys2Proof.Machine.execJoinSend s
  | .joinRelay => Sys2Proof.Machine.execJoinRelay s
  | .joinReceived => Sys2Proof.Machine.execJoinReceived s
  | .joinGrantReceived => Sys2Proof.Machine.execJoinGrantReceived s
  | .linkReportSend => Sys2Proof.Machine.execLinkReportSend s
  | .linkReportReceived => Sys2Proof.Machine.execLinkReportReceived s
  | .routePartReceived => Sys2Proof.Machine.execRoutePartReceived s
  | .routeHeadTimeout => Sys2Proof.Machine.execRouteHeadTimeout s
  | .latticeFrameForward p head ago phase => Sys2Proof.Machine.execLatticeFrameForward p head ago phase s
  | .latticeFrameDelivered p d => Sys2Proof.Machine.execLatticeFrameDelivered p d s
  | .odAccessRequest secure => Sys2Proof.Machine.execOdAccessRequest secure s
  | .mailboxRelayRequest secure => Sys2Proof.Machine.execMailboxRelayRequest secure s
  | .logRequest => Sys2Proof.Machine.execLogRequest s
  | .firmwareOffer len sha at' => Sys2Proof.Machine.execFirmwareOffer len sha at' s
  | .firmwareBlock off d => Sys2Proof.Machine.execFirmwareBlock off d s
  | .firmwareComplete secure apexGood => Sys2Proof.Machine.execFirmwareComplete secure apexGood s
  | .configRequest => Sys2Proof.Machine.execConfigRequest s
  | .resetRequest secure => Sys2Proof.Machine.execResetRequest secure s
  | .sessionRequest good => Sys2Proof.Machine.execSessionRequest good s
  | .serviceAnswerReceived => Sys2Proof.Machine.execServiceAnswerReceived s
  | .requestRepeatTimeout k => Sys2Proof.Machine.execRequestRepeatTimeout k s
  | .answerCacheExpiry k => Sys2Proof.Machine.execAnswerCacheExpiry k s
  | .configPublish p v => Sys2Proof.Machine.execConfigPublish p v s
  | .configFetchComplete => Sys2Proof.Machine.execConfigFetchComplete s
  | .configFetchRetry => Sys2Proof.Machine.execConfigFetchRetry s
  | .keeperForget q v => Sys2Proof.Machine.execKeeperForget q v s
  | .instanceStart p n => Sys2Proof.Machine.execInstanceStart p n s
  | .instanceStartDone n binds => Sys2Proof.Machine.execInstanceStartDone n binds s
  | .instanceStop p n => Sys2Proof.Machine.execInstanceStop p n s
  | .privateValueAccess p n w => Sys2Proof.Machine.execPrivateValueAccess p n w s
  | .networkOdAccess n conn op => Sys2Proof.Machine.execNetworkOdAccess n conn op s
  | .modbusValueRead n conn => Sys2Proof.Machine.execModbusValueRead n conn s
  | .modbusValueCommit n conn v => Sys2Proof.Machine.execModbusValueCommit n conn v s
  | .canModeWrite p c v => Sys2Proof.Machine.execCanModeWrite p c v s
  | .canIntegrated c => Sys2Proof.Machine.execCanIntegrated c s
  | .canFrameReceived c f ago phase => Sys2Proof.Machine.execCanFrameReceived c f ago phase s
  | .canFrameStored c => Sys2Proof.Machine.execCanFrameStored c s
  | .canRxError c lec data res eights => Sys2Proof.Machine.execCanRxError c lec data res eights s
  | .canTxRequest p c v => Sys2Proof.Machine.execCanTxRequest p c v s
  | .canTxAttempt c phase dt => Sys2Proof.Machine.execCanTxAttempt c phase dt s
  | .canTxSuccess c delay => Sys2Proof.Machine.execCanTxSuccess c delay s
  | .canTxError c lec data free eights delay => Sys2Proof.Machine.execCanTxError c lec data free eights delay s
  | .canTxAbort p c v => Sys2Proof.Machine.execCanTxAbort p c v s
  | .canLockSet p c v => Sys2Proof.Machine.execCanLockSet p c v s
  | .canLockClear p c v => Sys2Proof.Machine.execCanLockClear p c v s
  | .canShadowPromoted c b => Sys2Proof.Machine.execCanShadowPromoted c b s
  | .canLostClear p c v => Sys2Proof.Machine.execCanLostClear p c v s
  | .canFifoGet p c k v => Sys2Proof.Machine.execCanFifoGet p c k v s
  | .canRecover p c v => Sys2Proof.Machine.execCanRecover p c v s
  | .canBusOffRecovered c => Sys2Proof.Machine.execCanBusOffRecovered c s
  | .pioB m => Sys2Proof.Machine.execPioB m s
  | .pioLoopa m => Sys2Proof.Machine.execPioLoopa m s
  | .pioLoopb m => Sys2Proof.Machine.execPioLoopb m s
  | .pioBc m pins => Sys2Proof.Machine.execPioBc m pins s
  | .pioDrive m => Sys2Proof.Machine.execPioDrive m s
  | .pioSample m pins => Sys2Proof.Machine.execPioSample m pins s
  | .pioFetch m => Sys2Proof.Machine.execPioFetch m s
  | .pioStore m => Sys2Proof.Machine.execPioStore m s
  | .pioLoad m => Sys2Proof.Machine.execPioLoad m s
  | .pioAwait m pins => Sys2Proof.Machine.execPioAwait m pins s
  | .pioFlag m => Sys2Proof.Machine.execPioFlag m s
  | .pioCopy m pins => Sys2Proof.Machine.execPioCopy m pins s
  | .pioUnpack m => Sys2Proof.Machine.execPioUnpack m s
  | .pioPack m => Sys2Proof.Machine.execPioPack m s
  | .pioNop m => Sys2Proof.Machine.execPioNop m s
  | .pioWaitEnd m pins => Sys2Proof.Machine.execPioWaitEnd m pins s
  | .pioDelayExpiry m => Sys2Proof.Machine.execPioDelayExpiry m s
  | .pioSmEnable q b v => Sys2Proof.Machine.execPioSmEnable q b v s
  | .pioSmDisable q b v => Sys2Proof.Machine.execPioSmDisable q b v s
  | .pioRestart q m v => Sys2Proof.Machine.execPioRestart q m v s
  | .pioFifoClear q m v => Sys2Proof.Machine.execPioFifoClear q m v s
  | .pioWrapWrite q m v => Sys2Proof.Machine.execPioWrapWrite q m v s
  | .pioSyncApplyArm q => Sys2Proof.Machine.execPioSyncApplyArm q s
  | .pioSyncCancel q => Sys2Proof.Machine.execPioSyncCancel q s
  | .pioSyncApply => Sys2Proof.Machine.execPioSyncApply s
  | .pioFlagSetWrite q b v => Sys2Proof.Machine.execPioFlagSetWrite q b v s
  | .pioFlagClearWrite q b v => Sys2Proof.Machine.execPioFlagClearWrite q b v s
  | .pioTxFifoPush q m v => Sys2Proof.Machine.execPioTxFifoPush q m v s
  | .pioRxFifoPop q m => Sys2Proof.Machine.execPioRxFifoPop q m s
  | .pioDmaEnable q k v => Sys2Proof.Machine.execPioDmaEnable q k v s
  | .pioDmaStop q k v => Sys2Proof.Machine.execPioDmaStop q k v s
  | .pioDmaWord k => Sys2Proof.Machine.execPioDmaWord k s
  | .bankPowerWrite p b v => Sys2Proof.Machine.execBankPowerWrite p b v s
  | .bankTransitionDone b => Sys2Proof.Machine.execBankTransitionDone b s
  | .scrubPassStart => Sys2Proof.Machine.execScrubPassStart s
  | .scrubPassDone => Sys2Proof.Machine.execScrubPassDone s
  | .mboxLockRead p ch => Sys2Proof.Machine.execMboxLockRead p ch s
  | .mboxLockRelease p ch v => Sys2Proof.Machine.execMboxLockRelease p ch v s
  | .mboxPost p ch bits len => Sys2Proof.Machine.execMboxPost p ch bits len s
  | .mboxDoorbellRead p ch => Sys2Proof.Machine.execMboxDoorbellRead p ch s
  | .mboxDoorbellClear p ch v => Sys2Proof.Machine.execMboxDoorbellClear p ch v s
  | .mboxMaskWrite p ch v => Sys2Proof.Machine.execMboxMaskWrite p ch v s
  | .mboxDiscardZeroed ch => Sys2Proof.Machine.execMboxDiscardZeroed ch s
  | .pciePerst => Sys2Proof.Machine.execPciePerst s
  | .pcieFlr => Sys2Proof.Machine.execPcieFlr s
  | .pcieLinkDownTimeout => Sys2Proof.Machine.execPcieLinkDownTimeout s
  | .pcieLinkUp width speed busMaster msixEnabled => Sys2Proof.Machine.execPcieLinkUp width speed busMaster msixEnabled s
  | .pcieLinkDown => Sys2Proof.Machine.execPcieLinkDown s
  | .pcieAtomicOp op addr wide operand => Sys2Proof.Machine.execPcieAtomicOp op addr wide operand s
  | .msixUnmask vec => Sys2Proof.Machine.execMsixUnmask vec s
  | .hostDmaTailWrite p k v => Sys2Proof.Machine.execHostDmaTailWrite p k v s
  | .hostDmaDescriptor k hostData hostError => Sys2Proof.Machine.execHostDmaDescriptor k hostData hostError s
  | .hostDmaAbort p k v moved => Sys2Proof.Machine.execHostDmaAbort p k v moved s
  | .qspiReadId => Sys2Proof.Machine.execQspiReadId s
  | .qspiReadStatus => Sys2Proof.Machine.execQspiReadStatus s
  | .qspiRead addr len late => Sys2Proof.Machine.execQspiRead addr len late s
  | .qspiWrite addr data => Sys2Proof.Machine.execQspiWrite addr data s
  | .qspiAtomicAdd addr wide operand => Sys2Proof.Machine.execQspiAtomicAdd addr wide operand s
  | .qspiAtomicSwap addr wide operand => Sys2Proof.Machine.execQspiAtomicSwap addr wide operand s
  | .qspiAtomicResult => Sys2Proof.Machine.execQspiAtomicResult s
  | .qspiResetEnable => Sys2Proof.Machine.execQspiResetEnable s
  | .qspiReset => Sys2Proof.Machine.execQspiReset s
  | .qspiUnknownOpcode op => Sys2Proof.Machine.execQspiUnknownOpcode op s
  | .sessionOpen ch => Sys2Proof.Machine.execSessionOpen ch s
  | .sessionProve ch good => Sys2Proof.Machine.execSessionProve ch good s
  | .sessionOdAccess ch good => Sys2Proof.Machine.execSessionOdAccess ch good s
  | .sessionClose ch good => Sys2Proof.Machine.execSessionClose ch good s
  | .sessionIdleTimeout ch => Sys2Proof.Machine.execSessionIdleTimeout ch s
  | .hostLoadGo p v => Sys2Proof.Machine.execHostLoadGo p v s
  | .hostLoadVerified ok => Sys2Proof.Machine.execHostLoadVerified ok s
  | .recordEvent typ b => Sys2Proof.Machine.execRecordEvent typ b s
  | .recordCommitted => Sys2Proof.Machine.execRecordCommitted s
  | .logScanDone => Sys2Proof.Machine.execLogScanDone s
  | .logClear p v => Sys2Proof.Machine.execLogClear p v s
  | .operatingMinute => Sys2Proof.Machine.execOperatingMinute s
  | .tempSample temps volts => Sys2Proof.Machine.execTempSample temps volts s
  | .supplyExcursion m mv => Sys2Proof.Machine.execSupplyExcursion m mv s
  | .supplyRecovered m mv => Sys2Proof.Machine.execSupplyRecovered m mv s
  | .paceUpdate factory => Sys2Proof.Machine.execPaceUpdate factory s
  | .marginRecord => Sys2Proof.Machine.execMarginRecord s
  | .perturbArm p v => Sys2Proof.Machine.execPerturbArm p v s
  | .perturbArmed => Sys2Proof.Machine.execPerturbArmed s
  | .perturbDisarm p v => Sys2Proof.Machine.execPerturbDisarm p v s
  | .testInServiceWrite p v keeper => Sys2Proof.Machine.execTestInServiceWrite p v keeper s
  | .testTimeoutExpiry => Sys2Proof.Machine.execTestTimeoutExpiry s
  | .autoDisarmExpiry => Sys2Proof.Machine.execAutoDisarmExpiry s
  | .backpressureSlot => Sys2Proof.Machine.execBackpressureSlot s
  | .symbolInject => Sys2Proof.Machine.execSymbolInject s
  | .jitterDraw => Sys2Proof.Machine.execJitterDraw s
  | .jtagUnlock p good => Sys2Proof.Machine.execJtagUnlock p good s
  | .jtagInstruction ir => Sys2Proof.Machine.execJtagInstruction ir s
  | .illegalEncoding c => Sys2Proof.Machine.execIllegalEncoding c s
  | .resetNPulseIgnored => Sys2Proof.Machine.execResetNPulseIgnored s
  | .pciePerstRelease => Sys2Proof.Machine.execPciePerstRelease s
  | .serdesLockAcquired n => Sys2Proof.Machine.execSerdesLockAcquired n s
  | .streamGateListOperational g dt => Sys2Proof.Machine.execStreamGateListOperational g dt s
  | .fdbCommandDone => Sys2Proof.Machine.execFdbCommandDone s
  | .guardTableChecked n => Sys2Proof.Machine.execGuardTableChecked n s
  | .paceWindowEnd k count => Sys2Proof.Machine.execPaceWindowEnd k count s
  | .triggeredHello p dt => Sys2Proof.Machine.execTriggeredHello p dt s

end Sys2Proof.Machine
end

