-- ==== Sys2Proof/Safety.lean ====
section
/-! DEFINITION. What claims call a safe run and a canonical state. -/

namespace Sys2Proof.Machine

/-- Memory in its one canonical form: addresses strictly rising, and no entry equal to what an unlisted address reads as. -/
def Memory.wf (m : List Host.Cell) : Bool := tblWf memDefault m

/-- The Object Dictionary in its one canonical form: keys strictly rising, and no entry equal to the object's default. -/
def odWf (od : Tbl DWord) : Bool := tblWf odDefault od

/-- Equal memories and equal object values are equal data. -/
def State.Canonical (s : State) : Prop := Memory.wf s.mem = true ∧ odWf s.od = true

/-- A command that the block answers: no fault and no refusal. -/
def answers (c : Instr) (s : State) : Prop := ∃ t, exec c s = .next t

/-- A run is safe when every command of the queue is answered in its turn. -/
def Safe : Nat → State → Prop
  | 0, _ => True
  | k + 1, s => ∃ t, step s = .next t ∧ Safe k t

/-- The two words of a routing entry that routing writes: ASSERTED and its notification count (R66, R67). -/
abbrev routeKey (k : Nat) : Prop := 0x2F00 ≤ k / 256 ∧ k / 256 ≤ 0x2F2F ∧ (k % 256 = 2 ∨ k % 256 = 3)

/-- Every object but those at `ks` and the words that routing writes holds what it held. -/
def ObjectsKept (s t : State) (ks : List (Nat × Nat)) : Prop :=
  ∀ i j, ¬ routeKey (odKey i j) → (∀ k ∈ ks, odKey i j ≠ odKey k.1 k.2) → t.n i j = s.n i j

/-- What a reset of device reach leaves (R77, R78, R81, R99): `reach` 0 a POR, 1 one that keeps the AON content, 2 a warm one. The
device is in bring-up with HOLD_N low and the STARTUP reason set, its cause is recorded, every engine is HALTED, MRAM
is kept, retained memory and the backup registers are kept but by a POR, banks by a warm reset only. -/
def AfterReset (s t : State) (reach code : Nat) : Prop :=
  t.dev = 0 ∧ t.n 0x2001 1 = 0 ∧ t.bit 0x2001 2 0 = true ∧ t.n 0x2003 1 = code ∧ (∀ e < 32, t.n (0x2400 + e) 1 = 0) ∧
  (∀ a, 0x0800_0000 ≤ a → a < 0x0840_0000 → t.byte a = s.byte a) ∧
  (∀ a, 0x0C00_0000 ≤ a → a < 0x0C00_4000 → t.byte a = if reach = 0 then 0 else s.byte a) ∧
  (∀ a < 0x0600_0000, t.byte a = if reach = 2 then s.byte a else 0) ∧
  (∀ k, 1 ≤ k → k ≤ 8 → t.n 0x2005 k = if reach = 0 then 0 else s.n 0x2005 k)

/-- The rule of HOLD_N (R73): the pin is driven high only while no hold reason is set. -/
def State.HoldRule (s : State) : Prop := s.n 0x2001 1 = 1 → s.n 0x2001 2 = 0

/-- What a write of the value `v` to 0x2004:`sub` leaves of the reset bits and of HOLD_N (R83–R88). -/
def BlocksInReset (s t : State) (sub v : Nat) : Prop :=
  (∀ j b, 2 ≤ j → j ≤ 5 → b < 32 → t.bit 0x2004 j b = (s.bit 0x2004 j b || (j == sub && v.testBit b))) ∧
  (∀ i < 32, i ≠ 1 → t.bit 0x2001 2 i = s.bit 0x2001 2 i) ∧
  ((∃ b < 32, v.testBit b = true ∧ s.bit 0x2004 sub b = false) → t.bit 0x2001 2 1 = true ∧ t.n 0x2001 1 ≠ 1)

/-- Core `c` runs, is not waiting, and has at its program counter the word `w`, free of memory errors, which is the
instruction `o` on this core (R123, R145, R156, R166). -/
def Executes (s : State) (c : Fin 33) (o : EOp) (w : Word) : Prop :=
  s.coreState c = 1 ∧ (s.engine c).waiting = .none ∧ s.pc c < 0x1_0000 ∧ s.pcOk c (s.pc c) = true ∧
  s.hasDbe (codeAt c (s.pc c)) = false ∧ s.hasSbe (codeAt c (s.pc c)) = false ∧ s.insn c = w ∧
  engDecode (c = 32) w = some o

/-- The instruction of core `c` completes: its program counter is `pc`, a STEP starts to halt (R126), and no other core and
no object but STATE and PC of the core changes. -/
def Ends (s t : State) (c : Fin 33) (pc : Nat) : Prop :=
  t.pc c = pc ∧ t.coreState c = (if (s.engine c).haltWhy = 7 then 2 else 1) ∧
  (∀ e, e ≠ c.val → t.engine e = s.engine e) ∧ ObjectsKept s t [(coreIdx c, 1), (coreIdx c, 5)]

/-- What of a core is neither a general register nor a flag. -/
def Engine.rest (e : Engine) : Engine := { e with regs := [], z := false, n := false, c := false, v := false }

/-- The instruction of core `c` completes in sequence, having written one general register, or none, and the flags; memory
and all else of the core stay. -/
def RegStep (s t : State) (c : Fin 33) (res : Option (Nat × Word)) (z n cf v : Bool) : Prop :=
  Ends s t c (s.pcNext c) ∧ t.mem = s.mem ∧
  (∀ r, (t.engine c).reg r = match res with
    | some (d, x) => if r = d then x else (s.engine c).reg r
    | none => (s.engine c).reg r) ∧
  (t.engine c).z = z ∧ (t.engine c).n = n ∧ (t.engine c).c = cf ∧ (t.engine c).v = v ∧
  (t.engine c).rest = (s.engine c).rest

/-- The result and flags of `a + b + k` (R149): C is the carry out of bit 31, V signed overflow. -/
def AddStep (s t : State) (c : Fin 33) (d : Nat) (a b : Word) (k : Nat) : Prop :=
  let r := a + b + BitVec.ofNat 32 k
  RegStep s t c (some (d, r)) (decide (r.toNat = 0)) (decide (r.toInt < 0)) (decide (2 ^ 32 ≤ a.toNat + b.toNat + k))
    (decide (r.toInt ≠ a.toInt + b.toInt + k))

/-- The result and flags of `a − b − k` (R149): C is the borrow; `d` is none where only the flags are wanted. -/
def SubStep (s t : State) (c : Fin 33) (d : Option Nat) (a b : Word) (k : Nat) : Prop :=
  let r := a - b - BitVec.ofNat 32 k
  RegStep s t c (d.map (fun d => (d, r))) (decide (r.toNat = 0)) (decide (r.toInt < 0)) (decide (a.toNat < b.toNat + k))
    (decide (r.toInt ≠ a.toInt - b.toInt - k))

/-- A result whose Z and N follow it while C and V stay (R149, R152). -/
def LogicStep (s t : State) (c : Fin 33) (d : Nat) (r : Word) : Prop :=
  RegStep s t c (some (d, r)) (decide (r.toNat = 0)) (decide (r.toInt < 0)) (s.engine c).c (s.engine c).v

/-- A register is loaded and no flag changes. -/
def MoveStep (s t : State) (c : Fin 33) (d : Nat) (r : Word) : Prop :=
  RegStep s t c (some (d, r)) (s.engine c).z (s.engine c).n (s.engine c).c (s.engine c).v

/-- A shift amount (R152): FN[4:0] in the immediate form, else the low five bits of RB. -/
def shiftBy (s : State) (c : Fin 33) (w : Word) : Nat :=
  if w.getLsbD 11 then w.toNat % 32 else ((s.engine c).reg (rbOf w)).toNat % 32

/-- What a shift by `k` writes: C is `out` unless `k` is 0; Z and N by the result, V unchanged (R152). -/
def ShiftStep (s t : State) (c : Fin 33) (d : Nat) (r : Word) (k : Nat) (out : Bool) : Prop :=
  RegStep s t c (some (d, r)) (decide (r.toNat = 0)) (decide (r.toInt < 0)) (if k = 0 then (s.engine c).c else out) (s.engine c).v

/-- A load of the value `v` into RD, or into the pair RD, RD+1 for a doubleword (R147, R153). -/
def LoadStep (s t : State) (c : Fin 33) (w : Word) (v : Nat) : Prop :=
  Ends s t c (s.pcNext c) ∧ t.mem = s.mem ∧
  (∀ r, (t.engine c).reg r =
    if szOf w = 3 ∧ r = rdOf w + 1 then BitVec.ofNat 32 (v / 2 ^ 32)
    else if r = rdOf w then BitVec.ofNat 32 v else (s.engine c).reg r) ∧
  { t.engine c with regs := [] } = { s.engine c with regs := [] }

/-- Memory after a store of the little-endian bytes of `v`: `k` bytes from address `a`, and no other byte changes. -/
def Stored (s t : State) (a k v : Nat) : Prop :=
  ∀ b, t.byte b = if a ≤ b ∧ b < a + k then BitVec.ofNat 8 (v / 256 ^ (b - a)) else s.byte b

/-- A branch or jump may go to `x` (R156, R166). -/
def InCode (s : State) (c : Fin 33) (x : Int) : Prop :=
  0 ≤ x ∧ x < 0x1_0000 ∧ (c.val < 32 → x < s.codeWords c)

/-- The instruction of core `c` completes at `pc` with its core as `g`. -/
def CoreStep (s t : State) (c : Fin 33) (pc : Nat) (g : Engine) : Prop :=
  Ends s t c pc ∧ t.mem = s.mem ∧ t.engine c = g

/-- No posted store is outstanding and the word at `a` has no memory error. -/
def Clean (s : State) (c : Fin 33) (a : Nat) : Prop :=
  (s.engine c).posted = [] ∧ s.hasDbe a = false ∧ s.hasSbe a = false

/-- The ordinary memories a far access reaches: banks, facet stores and retained memory. -/
def PlainMemory (a : Nat) : Prop :=
  (∃ b, regionOf a = .bank b) ∨ (∃ f, regionOf a = .store f) ∨ regionOf a = .retained

/-- State machine `m` is enabled, neither waits nor delays, and the instruction it executes next is `w`: the latched copy, or the
word at its PC (R434, R436). -/
def PioReady (s : State) (m : Nat) (w : Half) : Prop :=
  s.smOn m = true ∧ (s.sm m).st = 1 ∧ (s.sm m).delay = 0 ∧ (s.sm m).taken = [] ∧
  ((s.sm m).latched = some w ∨ ((s.sm m).latched = none ∧ s.pioWord (smBlock m) (s.smD m 2) = w))

/-- The address after the present one: WRAP_BOTTOM after WRAP_TOP (R435, R437). -/
def pioNext (s : State) (m : Nat) : Nat :=
  if s.smD m 2 = fieldOf (s.sm m).wrap 8 7 then fieldOf (s.smC m 2) 0 7 else (s.smD m 2 + 1) % 128

/-- The instruction `w` of state machine `m` completes, and PC is `pc`: its DELAY is still to pass (R434). -/
def PioEnds (s t : State) (m : Nat) (w : Half) (pc : Nat) : Prop :=
  t.smD m 2 = pc ∧ t.smD m 3 = w.toNat ∧ (t.sm m).latched = none ∧ (t.sm m).delay = fieldOf w.toNat 7 5 ∧ (t.sm m).st = 1 ∧
  t.mem = s.mem

/-- The instruction `w` waits in STATE `st` with PC where it was (R436, R452). -/
def PioWaits (s t : State) (m : Nat) (w : Half) (st : Nat) : Prop :=
  t.smD m 2 = s.smD m 2 ∧ t.smD m 1 = st ∧ (t.sm m).latched = some w ∧ (t.sm m).st = st ∧ t.mem = s.mem

/-- A group of `n` pins of state machine `m` from `base` on takes the bits `f`, where it owns the pin (R432, R439). -/
def PinsTake (s : State) (m base n : Nat) (f : Nat → Bool) (old new : Half) : Prop :=
  ∀ p < 16, new.getLsbD p =
    if s.pioOwns m p = true ∧ (p + 16 - base) % 16 < n then f ((p + 16 - base) % 16) else old.getLsbD p

/-- A frame on the bus as a slot holds it (R413): a base identifier stands in bits 28–18. -/
def heldFrame (f : BusFrame) : CanFrame :=
  { id := if f.ide then f.id.toNat else fieldOf f.id.toNat 18 11 * 2 ^ 18, ide := f.ide, rtr := f.rtr && !f.fdf,
    dlc := f.dlc.toNat, fdf := f.fdf, brs := f.brs, esi := f.esi, data := f.data, time := 0 }

end Sys2Proof.Machine
end

