-- ==== Sys2Proof/Certificates/Slice0/Obligations.lean ====
section
/-! DEFINITION. The statements for the provers, chapter by chapter. A statement about a command names the conditions
under which the spec says the command acts (the object is written by a path that may, the unit is in the state the rule names)
and what the state after it holds. -/

set_option maxRecDepth 4000

open Sys2Proof Sys2Proof.Machine

/-! ### The machine as a whole -/

/-- One step takes the command at the front of the queue and runs it on the state with the queue's rest. -/
def Obligations.StepRunsTheFrontCommand : Prop :=
  ∀ (c : Instr) (rest : List Instr) (s : State),
    Sys2Proof.Machine.step { s with pending := c :: rest } = exec c { s with pending := rest }

/-- No command touches the queue of the commands that wait: whatever a command does, it leaves the others to their turn. On an
empty queue the block idles, which is the model's choice (log entry 1). -/
def Obligations.CommandsLeaveTheQueue : Prop :=
  (∀ (c : Instr) (s t : State), exec c s = .next t → t.pending = s.pending) ∧
  (∀ (s : State), s.pending = [] → Sys2Proof.Machine.step s = .next s)

/-- Memory and the Object Dictionary keep their canonical form through every step, from every state that has it. -/
def Obligations.StepKeepsTheCanonicalForm : Prop :=
  ∀ (s t : State), s.Canonical → Sys2Proof.Machine.step s = .next t → t.Canonical

/-- Through every step, from every state: while HOLD_N is driven high, no hold reason is set (R73), so a command that sets a reason
drives the pin low in the same step, and a release waits until no reason is left. -/
def Obligations.EveryStepKeepsTheHoldRule : Prop :=
  ∀ (s t : State), s.HoldRule → Sys2Proof.Machine.step s = .next t → t.HoldRule

/-- The state after reset has the canonical form and obeys the rule of HOLD_N. -/
def Obligations.ResetObeysTheInvariants : Prop := State.reset.Canonical ∧ State.reset.HoldRule

/-- The only stop of the block is the fault of an access that no master can issue: every other command answers a next state
from every state. -/
def Obligations.OnlyIllFormedAccessesStop : Prop :=
  ∀ (c : Instr) (s : State),
    (∃ t, exec c s = .next t) ∨
    (exec c s = .fault .illFormed ∧
      ((∃ p a z b, c = .mapRead p a z b ∧ ¬ (wellFormed c = true ∧ oneRegion a.toNat (b * z.bytes) = true)) ∨
       (∃ p a z d, c = .mapWrite p a z d ∧ ¬ (wellFormed c = true ∧ oneRegion a.toNat d.length = true))))

/-- What the object tables state for the moment after reset: the device is in RESET, HOLD_N is low with the reason STARTUP,
every engine is HALTED, every ring is OFF, every domain's time is 0 and UNSYNCED, every mailbox channel is EMPTY and unlocked, no
event status bit is set. Banks read zero too: before bring-up step 4 that is the model's choice (log entry 3). -/
def Obligations.ResetHoldsTheTablesDefaults : Prop :=
  State.reset.n 0x2000 1 = 0 ∧ State.reset.n 0x2000 2 = 0 ∧ State.reset.n 0x2001 1 = 0 ∧ State.reset.n 0x2001 2 = 1 ∧
  State.reset.n 0x2E00 4 = 115 ∧ State.reset.n 0x2B00 6 = 24 ∧ State.reset.n 0x2D00 9 = 0 ∧
  (∀ e < 32, State.reset.n (0x2400 + e) 1 = 0) ∧ (∀ n < 4, State.reset.n (0x2610 + n) 1 = 0) ∧
  (∀ d < 4, State.reset.n (0x2100 + d) 2 = 0 ∧ State.reset.n (0x2100 + d) 5 = 0) ∧
  (∀ c < 48, State.reset.n (0x2C10 + c) 0xA = 0 ∧ State.reset.n (0x2C10 + c) 7 = 0) ∧
  (∀ r < 47, ∀ x ∈ routeSources r, State.reset.n x.1 x.2 = 0) ∧
  (∀ a < 0x0600_0000, State.reset.byte a = 0)

/-! ### Accesses of a path (spec/01, spec/02) -/

/-- Reads and writes of the address map in a bank that is ON, and of the window (R16, R46, R47, R65, R116). -/
def Obligations.AccessCommandsReadAndWrite : Prop :=
  (∀ (p : Path) (a : Word) (z : Size) (s : State), wellFormed (.mapRead p a z 1) = true → inBank a.toNat = true →
    oneRegion a.toNat z.bytes = true → s.coreUp = true → s.dev ≠ 6 → s.ready a.toNat = true →
    s.hasDbe a.toNat = false → s.hasSbe a.toNat = false →
    ∃ t, exec (.mapRead p a z 1) s = .next t ∧ t.out = s.out ++ [.reply p.id.val (s.bytes a.toNat z.bytes) false] ∧ t.mem = s.mem) ∧
  (∀ (p : Path) (a : Word) (z : Size) (d : List Byte) (s : State), wellFormed (.mapWrite p a z d) = true → d.length = z.bytes →
    inBank a.toNat = true → oneRegion a.toNat z.bytes = true → s.coreUp = true → s.dev ≠ 6 → s.ready a.toNat = true →
    s.mayWrite p (regionOf a.toNat) = true → s.hasDbe a.toNat = false →
    ∃ t, exec (.mapWrite p a z d) s = .next t ∧ t.bytes a.toNat z.bytes = d ∧
      ∀ b, b < a.toNat ∨ a.toNat + z.bytes ≤ b → t.byte b = s.byte b) ∧
  (∀ (p : Path) (i : Half) (j : Byte) (v : DWord) (s : State), s.writeOk p i.toNat j.toNat v.toNat = true →
    s.effCore p i.toNat j.toNat v.toNat = none → s.effRim p i.toNat j.toNat v.toNat = none →
    isEventStatus i.toNat (j.toNat - 1) = false →
    ∃ t, exec (.odWrite p i j v) s = .next t ∧ t.rd i.toNat j.toNat = v ∧
      ∀ i' j', odKey i' j' ≠ odKey i.toNat j.toNat → t.rd i' j' = s.rd i' j') ∧
  (∀ (p : Path) (i : Half) (j : Byte) (s : State), s.isWide i.toNat j.toNat = true → s.readOk p i.toNat j.toNat = true →
    s.rxTaken i.toNat j.toNat = false →
    ∃ t, exec (.windowReadLowSlot p i j) s = .next t ∧
      (t.path p).latch = some (odKey i.toNat j.toNat, (s.odValue p i.toNat j.toNat).1)) ∧
  (∀ (p : Path) (i : Half) (j : Byte) (v : DWord) (s : State), s.isWide i.toNat j.toNat = true → s.readOk p i.toNat j.toNat = true →
    (s.path p).latch = some (odKey i.toNat j.toNat, v) →
    ∃ t, exec (.windowReadHighSlot p i j) s = .next t ∧
      t.out = s.out ++ [.reply p.id.val (leBytes (v.toNat / 2 ^ 32) 4) false] ∧ t.od = s.od ∧ t.paths = s.paths) ∧
  (∀ (p : Path) (i : Half) (j : Byte) (v : Word) (s : State), s.isWide i.toNat j.toNat = true → s.mayStage p i.toNat j.toNat = true →
    ∃ t, exec (.windowWriteLowSlot p i j v) s = .next t ∧ (t.path p).stage = some (odKey i.toNat j.toNat, v) ∧ t.od = s.od) ∧
  (∀ (p : Path) (i : Half) (j : Byte) (lo v : Word) (s : State), s.isWide i.toNat j.toNat = true →
    (s.path p).stage = some (odKey i.toNat j.toNat, lo) →
    exec (.windowWriteHighSlot p i j v) s =
      exec (.odWrite p i j (v ++ lo)) (s.setPath p { s.path p with stage := none }) ∧
    ∃ t, exec (.windowWriteHighSlot p i j v) s = .next t) ∧
  (∀ (p : Path) (i : Half) (j : Byte) (v : Word) (s : State), isEventStatus i.toNat j.toNat = true →
    s.writeOk p i.toNat j.toNat v.toNat = true → i.toNat < 0x2F00 ∨ 0x2F30 ≤ i.toNat →
    ∃ t, exec (.eventStatusClear p i j v 0) s = .next t ∧
      t.n i.toNat j.toNat = s.n i.toNat j.toNat - (s.n i.toNat j.toNat &&& v.toNat)) ∧
  (∀ (p : Path) (i : Half) (j : Byte) (s : State) (e off b : Nat), s.readOk p i.toNat j.toNat = true → 0x6000 ≤ i.toNat → i.toNat < 0xA000 →
    s.procOffset i.toNat j.toNat = some (e, off) → e < 64 →
    s.newestBuffer (s.n (0x24C0 + e) 3) (s.w32 (s.n (0x24C0 + e) 3 + 4)) = some b →
    s.memc.dbe = [] →
    ∃ t, exec (.processDataRead p i j 0) s = .next t ∧ t.mem = s.mem ∧
      t.out = s.out ++ [.reply p.id.val (leBytes (s.w32 (s.n (0x24C0 + e) 3 + 0x10 + b * (s.w32 (s.n (0x24C0 + e) 3 + 4) + 8) + 8 + off)) 4) false] ∧
      t.n (0x24C0 + e) 4 = (s.n (0x24C0 + e) 4 + 1) % 2 ^ 32) ∧
  (∀ (p : Path) (f k : Fin 8) (v : Word) (s : State), s.writeOk p (0x2440 + f.val) (1 + k.val) v.toNat = true →
    ∃ t, exec (.laneBindingWrite p f k v) s = .next t ∧ t.n (0x2440 + f.val) (1 + k.val) = v.toNat ∧
      t.eng = s.eng ∧ ∀ i' j', odKey i' j' ≠ odKey (0x2440 + f.val) (1 + k.val) → t.n i' j' = s.n i' j')

/-- An access that is not allowed (R18, R50): a write that the OD does not accept counts one violation of its master and changes
nothing else; a read answers 0 and counts one violation; nothing else changes. -/
def Obligations.RefusedAccessesOnlyCount : Prop :=
  (∀ (p : Path) (i : Half) (j : Byte) (v : DWord) (s : State), s.writeOk p i.toNat j.toNat v.toNat = false →
    exec (.odWrite p i j v) s =
      .next (if 1 ≤ p.id.val ∧ p.id.val ≤ 42 then
        s.wr 0x2E20 p.id.val ((s.n 0x2E20 p.id.val + 1) % 2 ^ 32) else s)) ∧
  (∀ (p : Path) (i : Half) (j : Byte) (s : State), s.readOk p i.toNat j.toNat = false → s.isWide i.toNat j.toNat = true →
    ∃ t, exec (.windowReadLowSlot p i j) s = .next t ∧ t.out = s.out ++ [.reply p.id.val [0, 0, 0, 0] false] ∧
      t.mem = s.mem ∧ t.paths = s.paths ∧
      (∀ i' j', t.n i' j' = if 1 ≤ p.id.val ∧ p.id.val ≤ 42 ∧ odKey i' j' = odKey 0x2E20 p.id.val then
        (s.n 0x2E20 p.id.val + 1) % 2 ^ 32 else s.n i' j'))

/-- Constant and read-only objects accept no write of any path; a secure object accepts one only of a secure path, but for the
keys of R505 while no key is enabled; in quarantine only secure paths write; an accepted value fits the object's type. In RECOVERY only
the recovery objects are read or written, and in FUSE_FAULT only 0x2000:01. -/
def Obligations.AccessCodesBindEveryPath : Prop :=
  (∀ (p : Path) (i j v : Nat) (s : State) (r : OdRow), s.rowOf i j = some r → s.writeOk p i j v = true →
    r.acc ≠ .const ∧ r.acc ≠ .ro ∧ (r.acc = .rws → p.secure = true) ∧
    (r.acc = .sec → p.secure = true ∨ (0x2F58 ≤ i ∧ i ≤ 0x2F5F ∧ (p.id.val = 34 ∨ p.id.val = 35) ∧ s.noKeys = true)) ∧
    (s.dev = 5 → p.secure = true) ∧ typeOk r.ty v = true) ∧
  (∀ (p : Path) (i j v : Nat) (s : State), s.dev = 4 → recoveryIndex i = false →
    s.readOk p i j = false ∧ s.writeOk p i j v = false) ∧
  (∀ (p : Path) (i j v : Nat) (s : State), s.dev = 6 → ¬ (i = 0x2000 ∧ j = 1) →
    s.readOk p i j = false ∧ s.writeOk p i j v = false)

/-- A read of the low slot of a 64-bit object and one of its high slot by the same path give the two words of one
value. -/
def Obligations.LatchedReadsGiveOneValue : Prop :=
  ∀ (p : Path) (i : Half) (j : Byte) (s : State), s.isWide i.toNat j.toNat = true → s.readOk p i.toNat j.toNat = true →
    s.rxTaken i.toNat j.toNat = false → s.odLive i.toNat j.toNat = none → s.odReadEffect p i.toNat j.toNat = none →
    i.toNat < 0x6000 →
    ∃ t u, exec (.windowReadLowSlot p i j) s = .next t ∧ exec (.windowReadHighSlot p i j) t = .next u ∧
      u.out = s.out ++ [.reply p.id.val (leBytes ((s.rd i.toNat j.toNat).toNat % 2 ^ 32) 4) false,
        .reply p.id.val (leBytes ((s.rd i.toNat j.toNat).toNat / 2 ^ 32) 4) false]

/-! ### Parameter store, option block and start counters (spec/02, spec/03) -/

/-- Saves, restores, commits and the start counter (R55, R56, R58, R91, R94, R95). Model readings that it
rests on: log entry 54. -/
def Obligations.StoreCommandsWriteTheirCopies : Prop :=
  (∀ (p : Path) (g : Byte) (v : Word) (s : State), s.writeOk p 0x1010 g.toNat v.toNat = true → s.store.spacing = false →
    s.store.writing = none →
    ∃ t, exec (.paramSave p g v) s = .next t ∧ t.n 0x2006 1 = 2 ∧ t.store.spacing = true ∧
      t.store.writing.map (fun x => (x.1, x.2.2)) = some (s.newCopy [g.toNat] [], 1)) ∧
  (∀ (p : Path) (g : Byte) (v : Word) (s : State), s.writeOk p 0x1011 g.toNat v.toNat = true → s.store.spacing = false →
    s.store.writing = none →
    ∃ t, exec (.paramRestore p g v) s = .next t ∧ t.n 0x2006 1 = 2 ∧ t.store.spacing = true ∧
      t.store.writing.map (fun x => (x.1, x.2.2)) = some (s.newCopy [] [g.toNat], 2)) ∧
  (∀ (s : State), s.store.writing = none → s.store.heldSave ≠ [] → s.store.heldRestore = [] →
    ∃ t, exec .paramHoldExpiry s = .next t ∧ t.n 0x2006 1 = 2 ∧ t.store.heldSave = [] ∧
      t.store.writing.map (fun x => x.2.2) = some 1) ∧
  (∀ (c : ParamCopy) (a : Bool) (r : Nat) (s : State), s.store.writing = some (c, a, r) → s.store.heldSave = [] →
    s.store.heldRestore = [] → r < 2 ^ 32 →
    (∃ t, exec (.paramCopyWritten true) s = .next t ∧ (if a then t.store.copyA else t.store.copyB) = c ∧
      t.store.writing = none ∧ t.n 0x2006 2 = r ∧ t.n 0x2006 1 = 0) ∧
    ∃ t, exec (.paramCopyWritten false) s = .next t ∧ t.store.copyA = s.store.copyA ∧ t.store.copyB = s.store.copyB ∧
      t.store.writing = none ∧ t.n 0x2006 2 = 3 ∧ t.n 0x2006 1 = 0) ∧
  (∀ (p : Path) (v : Word) (s : State), s.writeOk p 0x2007 9 v.toNat = true → s.opts.writing = none →
    ∃ t, exec (.optionsCommit p v) s = .next t ∧ t.n 0x2007 9 = 1 ∧
      t.opts.writing.map (fun x => (x.1.en, x.1.level, x.1.threshold)) = some (s.rd 0x2007 2, s.rd 0x2007 4, s.n 0x2007 6)) ∧
  (∀ (c : OptCopy) (a : Bool) (s : State), s.opts.writing = some (c, a) → s.opts.held = false →
    ∃ t, exec .optionsCommitEnd s = .next t ∧ t.n 0x2007 9 = 0 ∧ t.opts.writing = none ∧
      (if a then t.opts.copyA else t.opts.copyB) = c ∧ (if a then t.opts.copyB else t.opts.copyA) = (if a then s.opts.copyB else s.opts.copyA)) ∧
  (∀ (p : Path) (s : State), s.writeOk p 0x2002 3 1 = true → s.mramWritable = true →
    ∃ t, exec (.triesClear p 1) s = .next t ∧ t.n 0x2002 1 = 0 ∧ t.n 0x2002 5 = s.n 0x2002 5)

/-! ### HOLD_N, resets, sleep and supplies (spec/03, R13, spec/21) -/

/-- HOLD_N: a release is accepted only in run with no reason set; one that is not is counted, latched and changes nothing of
HOLD_N; any other value is out of range; a reason that arrives first keeps HOLD_N low; an acknowledgement clears latched reasons whose condition is over and
moves no pin; HOLD_REQUEST holds (R73–R76). -/
def Obligations.HoldCommandsDriveThePin : Prop :=
  (∀ (p : Path) (v : Word) (s : State), s.writeOk p 0x2001 1 v.toNat = true → s.dev = 1 → s.n 0x2001 2 = 0 →
    ∃ t, exec (.holdRelease p v 0) s = .next t ∧ t.n 0x2001 1 = 1 ∧ t.n 0x2001 2 = 0 ∧
      (s.n 0x2001 1 = 0 → t.bit 0x2000 5 2 = true)) ∧
  (∀ (p : Path) (v : Word) (o : Fin 3) (s : State), s.writeOk p 0x2001 1 v.toNat = true → s.dev ≠ 1 ∨ s.n 0x2001 2 ≠ 0 →
    ∃ t, exec (.holdRelease p v o) s = .next t ∧ t.n 0x2001 5 = (s.n 0x2001 5 + 1) % 2 ^ 32 ∧ t.bit 0x2000 5 3 = true ∧
      ObjectsKept s t [(0x2001, 5), (0x2000, 5)] ∧ t.mem = s.mem) ∧
  (∀ (p : Path) (v : Word) (o : Fin 3) (s : State), v ≠ 0xA55A → exec (.holdRelease p v o) s = .next (s.violate p.id.val)) ∧
  (∀ (p : Path) (v : Word) (s : State), s.writeOk p 0x2001 1 v.toNat = true → s.dev = 1 → s.n 0x2001 2 = 0 →
    ∃ t, exec (.holdRelease p v 1) s = .next t ∧ t.n 0x2001 1 = s.n 0x2001 1) ∧
  (∀ (p : Path) (v : Word) (s : State), s.writeOk p 0x2001 3 v.toNat = true → s.pw.pllLocked = true →
    s.pw.thermalHeld = false → s.n 0x2004 2 = 0 → s.n 0x2004 3 = 0 → s.n 0x2004 4 = 0 → s.n 0x2004 5 = 0 →
    ∃ t, exec (.holdAck p v) s = .next t ∧
      (∀ b < 32, t.bit 0x2001 2 b = (s.bit 0x2001 2 b && !(v.getLsbD b && (b == 1 || b == 2 || b == 3 || b == 7)))) ∧
      ObjectsKept s t [(0x2001, 2)] ∧ t.mem = s.mem) ∧
  (∀ (p : Path) (s : State), s.writeOk p 0x2001 4 1 = true →
    ∃ t, exec (.holdRequest p 1) s = .next t ∧ t.n 0x2001 4 = 1 ∧ t.bit 0x2001 2 5 = true ∧ t.n 0x2001 1 ≠ 1 ∧
      ObjectsKept s t [(0x2001, 4), (0x2001, 2), (0x2001, 1), (0x2000, 5)]) ∧
  (∀ (p : Path) (s : State), s.writeOk p 0x2001 4 0 = true →
    ∃ t, exec (.holdRequest p 0) s = .next t ∧ t.n 0x2001 4 = 0 ∧ t.bit 0x2001 2 5 = false ∧ t.n 0x2001 1 = s.n 0x2001 1 ∧
      ObjectsKept s t [(0x2001, 4), (0x2001, 2)])

/-- Resets of device reach (R77–R81, R99): from a device that nothing else holds in reset, each source gives one reset of its own
reach, records its code, and starts the device again, unless what caused it lasts: VDD_AON or VDD_CORE that is down, RESET_N
low, a junction that is still hot. Model readings that it
rests on: log entries 13, 50, 64. -/
def Obligations.DeviceResetsReachWhatTheySay : Prop :=
  (∀ (s : State), s.heldInReset = false →
    ∃ t, exec .por s = .next t ∧ AfterReset s t 0 1 ∧ t.pw.aonGood = false ∧ t.pw.starting = false) ∧
  (∀ (s : State), s.pw.aonGood = false → s.pw.coreGood = true → s.pw.resetPin ≠ .accepted → s.pw.thermalHeld = false →
    s.pw.starting = false → s.dev = 0 →
    ∃ t, exec .aonPowerGood s = .next t ∧ t.pw.aonGood = true ∧ t.pw.starting = true ∧ t.n 0x2003 1 = 1 ∧ t.bit 0x2003 2 0 = true ∧
      t.mem = s.mem) ∧
  (∀ (s : State), s.heldInReset = false → s.coreUp = true →
    ∃ t, exec .coreBrownout s = .next t ∧ AfterReset s t 1 2 ∧ t.pw.coreGood = false ∧ t.pw.starting = false) ∧
  (∀ (s : State), s.pw.aonGood = true → s.pw.coreGood = false → s.pw.resetPin ≠ .accepted → s.pw.thermalHeld = false →
    s.pw.starting = false → s.dev = 0 →
    ∃ t, exec .coreBrownoutRelease s = .next t ∧ t.pw.coreGood = true ∧ t.pw.starting = true ∧ t.mem = s.mem) ∧
  (∀ (s : State), s.pw.resetPin = .high →
    ∃ t, exec .resetNFall s = .next t ∧ t.pw.resetPin = .judging ∧ t.od = s.od ∧ t.mem = s.mem ∧ t.eng = s.eng) ∧
  (∀ (s : State), s.pw.resetPin = .judging →
    ∃ t, exec .resetNPulseIgnored s = .next t ∧ t.pw.resetPin = .high ∧ t.od = s.od ∧ t.mem = s.mem ∧ t.eng = s.eng) ∧
  (∀ (s : State), s.pw.resetPin = .judging → s.pw.sleep ≠ .standby → s.heldInReset = false →
    ∃ t, exec .resetNAccept s = .next t ∧ AfterReset s t 2 3 ∧ t.pw.resetPin = .accepted ∧ t.pw.starting = false) ∧
  (∀ (s : State), s.pw.resetPin = .accepted → s.pw.sleep ≠ .standby → s.pw.aonGood = true → s.pw.coreGood = true →
    s.pw.thermalHeld = false → s.pw.starting = false → s.dev = 0 →
    ∃ t, exec .resetNRise s = .next t ∧ t.pw.resetPin = .high ∧ t.pw.starting = true ∧ t.mem = s.mem) ∧
  (∀ (p : Path) (v : Word) (s : State), s.writeOk p 0x2004 1 v.toNat = true → s.heldInReset = false →
    ∃ t, exec (.deviceReset p v) s = .next t ∧ AfterReset s t 2 5 ∧ t.pw.starting = true) ∧
  (∀ (d : BitVec 6) (a : Word) (s : State), d ≠ 0 → s.coreUp = true → s.dev ≠ 6 → s.heldInReset = false →
    ∃ t, exec (.integrityReset d a) s = .next t ∧ AfterReset s t 2 6 ∧ t.n 0x2003 3 = d.toNat ∧ t.bit 0x2001 2 2 = true ∧
      t.pw.starting = true) ∧
  (∀ (s : State), s.coreUp = true → s.dev ≠ 6 → s.heldInReset = false →
    ∃ t, exec .lockstepMismatch s = .next t ∧ AfterReset s t 2 6 ∧ t.n 0x2003 3 = 1 ∧ t.bit 0x2001 2 2 = true) ∧
  (∀ (s : State), s.sup.watchdog = true → s.coreUp = true → s.dev ≠ 6 → s.heldInReset = false →
    ∃ t, exec .apexWatchdogExpiry s = .next t ∧ AfterReset s t 2 4 ∧ t.pw.starting = true) ∧
  (∀ (k : Fin 4) (r : Half) (s : State), s.coreUp = true → s.heldInReset = false →
    ∃ t, exec (.thermalTrip k r) s = .next t ∧ AfterReset s t 2 7 ∧ t.bit 0x2001 2 7 = true ∧ t.pw.thermalHeld = true ∧
      t.pw.starting = false) ∧
  (∀ (s : State), s.pw.thermalHeld = true → s.pw.aonGood = true → s.pw.coreGood = true → s.pw.resetPin ≠ .accepted →
    s.pw.starting = false → s.dev = 0 →
    ∃ t, exec .thermalRelease s = .next t ∧ t.pw.thermalHeld = false ∧ t.pw.starting = true ∧ t.n 0x2001 2 = s.n 0x2001 2)

/-- Per-block resets (R83–R88): a write of 0x2004 sub 02–05 puts every block that it names into reset and no other; one that
was not yet in reset sets the hold reason of a block reset, so HOLD_N does not stay high; the end of the reset clears the block's bit
and says so. A reset of the Locus leaves no track enabled. -/
def Obligations.BlockResetsShowAndHold : Prop :=
  (∀ (p : Path) (v : Word) (s : State), s.writeOk p 0x2004 2 v.toNat = true →
    ∃ t, exec (.engineReset p v) s = .next t ∧ BlocksInReset s t 2 v.toNat) ∧
  (∀ (p : Path) (v : BitVec 8) (s : State), s.writeOk p 0x2004 3 v.toNat = true →
    ∃ t, exec (.facetReset p v) s = .next t ∧ BlocksInReset s t 3 v.toNat) ∧
  (∀ (p : Path) (v : BitVec 12) (s : State), s.writeOk p 0x2004 3 (v.toNat * 256) = true →
    ∃ t, exec (.macPortReset p v) s = .next t ∧ BlocksInReset s t 3 (v.toNat * 256)) ∧
  (∀ (p : Path) (v : BitVec 4) (s : State), s.writeOk p 0x2004 4 v.toNat = true →
    ∃ t, exec (.ringReset p v) s = .next t ∧ BlocksInReset s t 4 v.toNat) ∧
  (∀ (p : Path) (v : BitVec 4) (s : State), s.writeOk p 0x2004 4 (v.toNat * 256) = true →
    ∃ t, exec (.canReset p v) s = .next t ∧ BlocksInReset s t 4 (v.toNat * 256)) ∧
  (∀ (p : Path) (v : BitVec 4) (s : State), s.writeOk p 0x2004 4 (v.toNat * 65536) = true →
    ∃ t, exec (.pioBlockReset p v) s = .next t ∧ BlocksInReset s t 4 (v.toNat * 65536)) ∧
  (∀ (p : Path) (s : State), s.writeOk p 0x2004 5 1 = true →
    ∃ t, exec (.locusReset p) s = .next t ∧ BlocksInReset s t 5 1 ∧ (s.bit 0x2004 5 0 = false → t.tracks = [])) ∧
  (∀ (p : Path) (s : State), s.writeOk p 0x2004 5 2 = true →
    ∃ t, exec (.switchReset p) s = .next t ∧ BlocksInReset s t 5 2) ∧
  (∀ (p : Path) (v : BitVec 4) (s : State), s.writeOk p 0x2004 5 (v.toNat * 16) = true →
    ∃ t, exec (.timeDomainReset p v) s = .next t ∧ BlocksInReset s t 5 (v.toNat * 16)) ∧
  (∀ (sub : Fin 6) (b : Fin 32) (s : State), s.bit 0x2004 sub b = true →
    ∃ t, exec (.blockResetComplete sub b) s = .next t ∧ t.bit 0x2004 sub b = false ∧ t.bit 0x2000 5 6 = true ∧
      (∀ i < 32, i ≠ b.val → t.bit 0x2004 sub i = s.bit 0x2004 sub i) ∧
      ObjectsKept s t [(0x2004, sub), (0x2000, 5)] ∧ t.mem = s.mem)

/-- Doze and Standby (R100–R105): an accepted request starts the transition with the hold reason of a start set; a refused one is
counted and latched; the transition ends when banks and engines have settled; a wake source that WAKE_SOURCES enables, or a
write of 1, wakes from Doze; the wake ends in state 1 with WAKE_STALE held, which CONFIG_CONFIRMED clears; Standby ends in a
reset that keeps the AON content. Model readings that it
rests on: log entry 62. -/
def Obligations.SleepCommandsFollowTheirRules : Prop :=
  (∀ (p : Path) (s : State), s.writeOk p 0x2008 1 2 = true → s.dev = 1 → s.pw.sleep = .awake →
    ∃ t, exec (.dozeRequest p) s = .next t ∧ t.pw.sleep = .toDoze ∧ t.pw.wakeLatched = none ∧
      t.pw.dozeEngines = s.runningEngines ∧ t.bit 0x2001 2 0 = true ∧ t.n 0x2001 1 ≠ 1) ∧
  (∀ (p : Path) (s : State), s.writeOk p 0x2008 1 3 = true → s.dev = 1 → s.pw.sleep = .awake → s.wakePortsBad = false →
    ∃ t, exec (.standbyRequest p) s = .next t ∧ t.pw.sleep = .toStandby ∧ t.pw.wakeLatched = none ∧ t.n 0x2008 1 = 3 ∧
      t.bit 0x2001 2 0 = true ∧ t.n 0x2001 1 ≠ 1) ∧
  (∀ (p : Path) (s : State), s.writeOk p 0x2008 1 2 = true → s.dev = 0 ∨ s.dev = 3 ∨ s.dev = 5 ∨ s.sleepBusy = true →
    ∃ t, exec (.dozeRequest p) s = .next t ∧ t.n 0x2008 8 = (s.n 0x2008 8 + 1) % 2 ^ 32 ∧ t.bit 0x2000 5 8 = true ∧
      t.pw = s.pw ∧ ObjectsKept s t [(0x2008, 8), (0x2000, 5)] ∧ t.mem = s.mem) ∧
  (∀ (p : Path) (s : State), s.writeOk p 0x2008 1 3 = true →
    s.dev = 0 ∨ s.dev = 3 ∨ s.dev = 5 ∨ s.sleepBusy = true ∨ s.wakePortsBad = true →
    ∃ t, exec (.standbyRequest p) s = .next t ∧ t.n 0x2008 8 = (s.n 0x2008 8 + 1) % 2 ^ 32 ∧ t.bit 0x2000 5 8 = true ∧
      t.pw = s.pw ∧ ObjectsKept s t [(0x2008, 8), (0x2000, 5)] ∧ t.mem = s.mem) ∧
  (∀ (p : Path) (s : State), s.writeOk p 0x2008 1 1 = true → s.pw.sleep = .doze →
    ∃ t, exec (.dozeWakeWrite p) s = .next t ∧ t.pw.sleep = .waking ∧ t.pw.wakeLatched = some 0xFE ∧ t.n 0x2008 1 = 1 ∧
      ObjectsKept s t [(0x2008, 1)] ∧ t.mem = s.mem) ∧
  (∀ (s : State), s.pw.sleep = .toDoze → (∀ b < 96, s.changing b = false) → (∀ e < 32, s.coreState e ≠ 2) →
    ∃ t, exec .dozeTransitionDone s = .next t ∧
      t.pw.sleep = (if s.pw.wakeLatched.isSome then .waking else .doze) ∧ t.od = s.od ∧ t.mem = s.mem) ∧
  (∀ (s : State), s.pw.sleep = .waking →
    ∃ t, exec .dozeWakeDone s = .next t ∧ t.pw.sleep = .awake ∧ t.pw.wakeLatched = none ∧ t.pw.confirmPending = true ∧
      t.n 0x2008 1 = 1 ∧ t.bit 0x2000 5 5 = true ∧ t.bit 0x2001 2 4 = true ∧ t.n 0x2001 1 ≠ 1) ∧
  (∀ (s : State), s.pw.sleep = .toStandby →
    ∃ t, exec .standbyPowerDown s = .next t ∧ t.pw.sleep = .standby ∧ t.od = s.od ∧ t.mem = s.mem) ∧
  (∀ (k : Fin 11) (u : Fin 64) (up : Bool) (s : State), s.wakeSeen k u up = true → s.wakeOn k = true →
    s.pw.sleep = .doze →
    ∃ t, exec (.wakeSourceEvent k u up) s = .next t ∧ t.pw.sleep = .waking ∧ t.pw.wakeLatched = some k.val ∧
      t.od = s.od ∧ t.mem = s.mem) ∧
  (∀ (k : Fin 11) (u : Fin 64) (up : Bool) (s : State), s.wakeSeen k u up = true → s.wakeOn k = true →
    s.pw.sleep = .toDoze ∨ s.pw.sleep = .toStandby ∨ s.pw.sleep = .standby → s.pw.wakeLatched = none →
    ∃ t, exec (.wakeSourceEvent k u up) s = .next t ∧ t.pw.sleep = s.pw.sleep ∧ t.pw.wakeLatched = some k.val ∧
      t.od = s.od ∧ t.mem = s.mem) ∧
  (∀ (k : Nat) (s : State), s.pw.sleep = .standby → s.pw.wakeLatched = some k → k < 256 → s.heldInReset = false →
    ∃ t, exec .standbyWake s = .next t ∧ AfterReset s t 1 9 ∧ t.n 0x2008 7 = k) ∧
  (∀ (found : Word) (s : State), s.pw.confirmPending = true → (s.n 0x2800 1 = 1 → s.lat.awaitHead = false) →
    ∃ t, exec (.wakeConfigCheck true found) s = .next t ∧ t.pw.confirmPending = false ∧
      t.n 0x2000 7 = s.configGen % 2 ^ 64 ∧ t.bit 0x2001 2 4 = false ∧ ObjectsKept s t [(0x2000, 7), (0x2001, 2)] ∧ t.mem = s.mem) ∧
  (∀ (found : Word) (s : State), s.pw.confirmPending = true →
    ∃ t, exec (.wakeConfigCheck false found) s = .next t ∧ t.pw.confirmPending = false ∧
      t.n 0x2000 7 = s.n 0x2000 7 ∧ t.n 0x2001 2 = s.n 0x2001 2 ∧ t.mem = s.mem) ∧
  (∀ (p : Path) (v : Word) (s : State), s.writeOk p 0x2000 7 v.toNat = true →
    ∃ t, exec (.configConfirmedWrite p v) s = .next t ∧ t.n 0x2000 7 = v.toNat ∧ t.bit 0x2001 2 4 = false ∧
      t.pw.confirmPending = false ∧ ObjectsKept s t [(0x2000, 7), (0x2001, 2)] ∧ t.mem = s.mem)

/-- VDDIO banks and the rim PLL (R13, R542, R525): a bank that loses its supply latches its monitor and the SUPPLY reason; a bank
without a class takes the class of a voltage that has stood in its range; loss of lock holds HOLD_N low and leaves every domain
UNSYNCED. Model readings that it
rests on: log entries 21, 48. -/
def Obligations.SuppliesAndPllAct : Prop :=
  (∀ (b : Fin 6) (s : State),
    ∃ t, exec (.vddioPresent b) s = .next t ∧ tblGet (fun _ => false) b.val t.pw.vddio = true ∧ t.od = s.od ∧ t.mem = s.mem) ∧
  (∀ (b : Fin 6) (s : State), tblGet (fun _ => false) b.val s.pw.vddio = true → b.val ≠ 4 →
    ∃ t, exec (.vddioBankLost b) s = .next t ∧ tblGet (fun _ => false) b.val t.pw.vddio = false ∧
      t.bit 0x2E10 0x10 (5 + b) = true ∧ t.n 0x2E10 (10 + b) = 0 ∧ t.bit 0x2001 2 6 = true ∧ t.n 0x2001 1 ≠ 1 ∧
      t.bit 0x2E00 6 4 = true ∧ t.mem = s.mem) ∧
  (∀ (b : Fin 6) (mv : Half) (s : State), tblGet (fun _ => 0) b.val s.pw.vddioClass = 0 →
    tblGet (fun _ => false) b.val s.pw.vddio = true → classOf mv.toNat ≠ 0 →
    ∃ t, exec (.vddioClassSense b mv true) s = .next t ∧ tblGet (fun _ => 0) b.val t.pw.vddioClass = classOf mv.toNat ∧
      t.bit 0x2E10 0x10 (5 + b) = false ∧ t.n 0x2E10 (10 + b) = mv.toNat) ∧
  (∀ (s : State), s.pw.pllLocked = true →
    ∃ t, exec .rimPllLockLost s = .next t ∧ t.pw.pllLocked = false ∧ t.bit 0x2001 2 3 = true ∧ t.n 0x2001 1 ≠ 1 ∧
      (∀ d < 4, t.n (0x2100 + d) 5 = 0)) ∧
  (∀ (s : State), s.coreUp = true → 5 ≤ s.n 0x2000 2 →
    ∃ t, exec .rimPllRelock s = .next t ∧ t.pw.pllLocked = true ∧ t.od = s.od ∧ t.mem = s.mem)

/-- Bring-up (R89–R94, R506): each step that completes shows in BRINGUP_STEP; step 6 runs a verified slot unless too many starts
failed or a strap asks otherwise; step 10 writes START_OK, clears START_TRIES and enters state 1; a host load waits for GO and
completes step 6 when its image verifies. Model readings that it
rests on: log entries 55, 59. -/
def Obligations.BringUpGoesStepByStep : Prop :=
  (∀ (b : StepInput) (k : Nat) (s : State), s.pw.starting = true → s.hostLoading = false → s.nextStep = k →
    k = 1 ∨ k = 3 ∨ k = 4 ∨ k = 5 ∨ k = 7 →
    ∃ t, exec (.bringupStepDone b) s = .next t ∧ t.n 0x2000 2 = k) ∧
  (∀ (b : StepInput) (s : State), s.pw.starting = true → s.hostLoading = false → s.nextStep = 2 → b.fuseOk = true →
    ∃ t, exec (.bringupStepDone b) s = .next t ∧ t.n 0x2000 2 = 2 ∧ ObjectsKept s t [(0x2000, 2)] ∧ t.mem = s.mem) ∧
  (∀ (b : StepInput) (s : State), s.pw.starting = true → s.hostLoading = false → s.nextStep = 2 → b.fuseOk = false →
    2 ≤ s.pw.fuseTries →
    ∃ t, exec (.bringupStepDone b) s = .next t ∧ t.dev = 6 ∧ t.pw.faultLow = true ∧ t.pw.starting = false ∧ t.n 0x2001 1 ≠ 1) ∧
  (∀ (b : StepInput) (s : State), s.pw.starting = true → s.hostLoading = false → s.nextStep = 6 →
    s.n 0x2000 0xA = 0 → s.pw.cold = false → (b.slotA || b.slotB) = true → s.startInForce.1.1 < s.pw.threshold →
    ∃ t, exec (.bringupStepDone b) s = .next t ∧ t.n 0x2000 2 = 6 ∧ t.sup.watchdog = true) ∧
  (∀ (b : StepInput) (s : State), s.pw.starting = true → s.hostLoading = false → s.nextStep = 10 → s.latticeReady = true →
    s.latState ≠ 4 →
    ∃ t, exec (.bringupStepDone b) s = .next t ∧ t.n 0x2000 2 = 10 ∧ t.dev = 1 ∧ t.n 0x2000 3 = b.startMicros.toNat ∧
      t.bit 0x2001 2 0 = false ∧ t.bit 0x2000 5 7 = true ∧ t.pw.starting = false) ∧
  (∀ (p : Path) (v : Word) (s : State), s.writeOk p 0x2F42 2 v.toNat = true →
    ∃ t, exec (.hostLoadGo p v) s = .next t ∧ t.n 0x2F42 3 = 2 ∧ ObjectsKept s t [(0x2F42, 3)] ∧ t.mem = s.mem) ∧
  (∀ (s : State), s.n 0x2F42 3 = 2 →
    ∃ t, exec (.hostLoadVerified true) s = .next t ∧ t.n 0x2F42 3 = 4 ∧ t.n 0x2000 2 = 6 ∧
      ObjectsKept s t [(0x2F42, 3), (0x2000, 2)] ∧ t.mem = s.mem) ∧
  (∀ (s : State), s.n 0x2F42 3 = 2 →
    ∃ t, exec (.hostLoadVerified false) s = .next t ∧ t.n 0x2F42 3 = 3 ∧ t.bit 0x2F40 6 27 = true ∧
      ObjectsKept s t [(0x2F42, 3), (0x2F40, 6)] ∧ t.mem = s.mem)

/-- Engine commands (R123–R126, R128, R133–R135): RUN and STEP start a HALTED or FAULT engine where its program counter stands, HALT makes a halt pending that ENGINE_HALTED completes with its cause, LOAD makes a
stopped engine LOADING, is refused while it runs and ignored while it loads; RUN and STEP to a RUNNING engine, HALT to a HALTED one and
any command to a LOADING one change nothing; a missed heartbeat is counted and may halt the engine. -/
def Obligations.EngineCommandsMoveTheState : Prop :=
  (∀ (p : Path) (e : Fin 32) (s : State), s.writeOk p (0x2400 + e.val) 2 1 = true → s.coreState e = 0 ∨ s.coreState e = 3 →
    (s.engine e).needReload = false →
    ∃ t, exec (.engineRun p e) s = .next t ∧ t.coreState e = 1 ∧ (t.engine e).haltWhy = 0 ∧ (t.engine e).regs = (s.engine e).regs ∧
      ObjectsKept s t [(coreIdx e, 1)] ∧ t.mem = s.mem) ∧
  (∀ (p : Path) (e : Fin 32) (s : State), s.writeOk p (0x2400 + e.val) 2 3 = true → s.coreState e = 0 ∨ s.coreState e = 3 →
    (s.engine e).needReload = false →
    ∃ t, exec (.engineStep p e) s = .next t ∧ t.coreState e = 1 ∧ (t.engine e).haltWhy = 7 ∧ (t.engine e).regs = (s.engine e).regs ∧
      ObjectsKept s t [(coreIdx e, 1)] ∧ t.mem = s.mem) ∧
  (∀ (p : Path) (e : Fin 32) (s : State), s.writeOk p (0x2400 + e.val) 2 2 = true → s.coreState e = 1 →
    ∃ t, exec (.engineHalt p e) s = .next t ∧ t.coreState e = 2 ∧ (t.engine e).haltWhy = 1 ∧ t.pc e = s.pc e ∧
      ObjectsKept s t [(coreIdx e, 1)] ∧ t.mem = s.mem) ∧
  (∀ (p : Path) (e : Fin 32) (s : State), s.writeOk p (0x2400 + e.val) 2 4 = true → s.coreState e = 0 ∨ s.coreState e = 3 →
    s.n (0x2400 + e.val) 3 ≠ 0 →
    ∃ t, exec (.engineLoad p e) s = .next t ∧ t.coreState e = 4 ∧ t.eng = s.eng ∧ ObjectsKept s t [(coreIdx e, 1)] ∧ t.mem = s.mem) ∧
  (∀ (p : Path) (e : Fin 32) (s : State), s.writeOk p (0x2400 + e.val) 2 4 = true → s.coreState e = 1 ∨ s.coreState e = 2 →
    ∃ t, exec (.engineLoad p e) s = .next t ∧ t.n (0x2400 + e.val) 0xD = 5 ∧ t.coreState e = s.coreState e ∧ t.eng = s.eng ∧
      ObjectsKept s t [(0x2400 + e.val, 0xD)] ∧ t.mem = s.mem) ∧
  (∀ (p : Path) (e : Fin 32) (s : State),
    (s.writeOk p (0x2400 + e.val) 2 1 = true → s.coreState e = 1 ∨ s.coreState e = 4 → exec (.engineRun p e) s = .next s) ∧
    (s.writeOk p (0x2400 + e.val) 2 3 = true → s.coreState e = 1 ∨ s.coreState e = 4 → exec (.engineStep p e) s = .next s) ∧
    (s.writeOk p (0x2400 + e.val) 2 2 = true → s.coreState e = 0 ∨ s.coreState e = 4 → exec (.engineHalt p e) s = .next s) ∧
    (s.writeOk p (0x2400 + e.val) 2 4 = true → s.coreState e = 4 → exec (.engineLoad p e) s = .next s)) ∧
  (∀ (e : Fin 32) (s : State), s.coreState e = 2 → (s.engine e).posted = [] → (s.engine e).waiting = .none →
    (s.engine e).haltWhy < 256 →
    ∃ t, exec (.engineHalted e) s = .next t ∧ t.coreState e = 0 ∧ t.n (0x2400 + e.val) 6 = (s.engine e).haltWhy ∧
      t.bit (0x2440 + e.val / 4) 0x11 (8 + e.val % 4) = true ∧ t.pc e = s.pc e ∧ t.mem = s.mem) ∧
  (∀ (e : Fin 32) (s : State), s.n (0x2400 + e.val) 9 ≠ 0 → s.coreState e = 1 → s.n (0x2400 + e.val) 0xA = 0 →
    ∃ t, exec (.hbPeriodExpiry e) s = .next t ∧ t.n (0x2400 + e.val) 0xC = (s.n (0x2400 + e.val) 0xC + 1) % 2 ^ 32 ∧
      t.bit (0x2440 + e.val / 4) 0x11 (4 + e.val % 4) = true ∧ t.coreState e = 1 ∧ t.mem = s.mem) ∧
  (∀ (e : Fin 32) (s : State), s.n (0x2400 + e.val) 9 ≠ 0 → s.coreState e = 1 → s.n (0x2400 + e.val) 0xA = 1 →
    ∃ t, exec (.hbPeriodExpiry e) s = .next t ∧ t.coreState e = 2 ∧ (t.engine e).haltWhy = 4 ∧ t.mem = s.mem) ∧
  (∀ (f : Fin 8) (s : State), s.n (0x2440 + f.val) 0x15 = 1 → s.bit 0x2003 5 f = true → (s.engine (4 * f.val)).needReload = true →
    s.n (0x2400 + 4 * f.val) 3 ≠ 0 → s.coreState (4 * f.val) = 0 →
    ∃ t, exec (.facetDbeRestart f) s = .next t ∧ t.coreState (4 * f.val) = 4 ∧ t.mem = s.mem)

/-- Images (R131–R134, R142, R143): an install or removal makes the library busy; a verified image of the right length enters a
free directory entry and its bytes the library; an unverified one leaves memory and directory alone with STATUS 3; a
removed image leaves its entry; a load whose signatures and digests hold leaves the engine HALTED or running at the entry
point, with the code in its instruction RAM; a load that fails leaves it HALTED with the cause. RUN to an
engine that needs a reload changes nothing: the model's reading (log entry 18). -/
def Obligations.ImagesAreInstalledAndLoaded : Prop :=
  (∀ (p : Path) (e : Fin 32) (s : State), s.writeOk p (0x2400 + e.val) 2 1 = true → (s.engine e).needReload = true →
    exec (.engineRun p e) s = .next s) ∧
  (∀ (p : Path) (s : State), s.writeOk p 0x2480 5 1 = true →
    ∃ t, exec (.imageInstall p) s = .next t ∧ t.n 0x2480 7 = 1 ∧ t.lib.busy = some (true, p.id.val) ∧
      ObjectsKept s t [(0x2480, 7)] ∧ t.mem = s.mem) ∧
  (∀ (p : Path) (s : State), s.writeOk p 0x2480 5 2 = true →
    ∃ t, exec (.imageRemove p) s = .next t ∧ t.n 0x2480 7 = 1 ∧ t.lib.busy = some (false, p.id.val) ∧
      ObjectsKept s t [(0x2480, 7)] ∧ t.mem = s.mem) ∧
  (∀ (m : Nat) (s : State), s.lib.busy = some (true, m) →
    ∃ t, exec (.imageLibraryOpDone false) s = .next t ∧ t.n 0x2480 7 = 3 ∧ t.lib.busy = none ∧
      ObjectsKept s t [(0x2480, 7)] ∧ t.mem = s.mem) ∧
  (∀ (m d q : Nat) (s : State), s.lib.busy = some (true, m) →
    let a := s.n 0x2480 3
    let h := s.imageHead a
    inBankOrStore a = true → s.imageFormat a = true → h.total = s.n 0x2480 4 → s.imageDigest a = true →
    (∀ d < 32, s.n (0x2481 + d) 1 = h.id → s.n (0x2481 + d) 6 ≤ h.rollback) →
    (List.range 32).find? (fun d => !s.dirUsed d) = some d →
    (List.range 384).find? (fun q => freeRun s.imagePages ((h.total + 4095) / 4096) q = (h.total + 4095) / 4096) = some q →
    ∃ t, exec (.imageLibraryOpDone true) s = .next t ∧ t.n 0x2480 7 = 2 ∧ t.n (0x2481 + d) 1 = h.id ∧
      t.n (0x2481 + d) 4 = 0x0808_0000 + q * 4096 ∧ t.n (0x2481 + d) 5 = h.total ∧ t.lib.busy = none ∧
      ∀ b, t.byte b = if 0x0808_0000 + q * 4096 ≤ b ∧ b < 0x0808_0000 + q * 4096 + h.total
        then s.byte (a + (b - (0x0808_0000 + q * 4096))) else s.byte b) ∧
  (∀ (m d : Nat) (signed : Bool) (s : State), s.lib.busy = some (false, m) →
    (∀ e < 32, s.n (0x2400 + e) 3 = s.n 0x2480 6 → s.coreState e = 0) → s.findImage (s.n 0x2480 6) = some d → d < 32 →
    ∃ t, exec (.imageLibraryOpDone signed) s = .next t ∧ t.n 0x2480 7 = 2 ∧ t.n (0x2481 + d) 1 = 0 ∧ t.mem = s.mem) ∧
  (∀ (e : Fin 32) (d : Nat) (s : State), s.coreState e = 4 → s.findImage (s.n (0x2400 + e.val) 3) = some d → d < 32 →
    s.imageFormat (s.n (0x2481 + d) 4) = true → s.imageDigest (s.n (0x2481 + d) 4) = true →
    ∃ t, exec (.engineLoadDone e true true) s = .next t ∧
      t.coreState e = (if s.n (0x2400 + e.val) 4 = 1 then 1 else 0) ∧ t.pc e = (s.imageHead (s.n (0x2481 + d) 4)).entry ∧
      t.n (0x2400 + e.val) 0xD = 1 ∧ (t.engine e).needReload = false ∧
      (t.engine e).words = (s.imageHead (s.n (0x2481 + d) 4)).words ∧
      ∀ b, b < iramAt e ∨ iramAt e + 0xC000 ≤ b → t.byte b = s.byte b) ∧
  (∀ (e : Fin 32) (ok : Bool) (s : State), s.coreState e = 4 → s.findImage (s.n (0x2400 + e.val) 3) = none →
    ∃ t, exec (.engineLoadDone e ok ok) s = .next t ∧ t.coreState e = 0 ∧ t.n (0x2400 + e.val) 0xD = 2 ∧
      t.bit (0x2440 + e.val / 4) 0x11 15 = true ∧ t.mem = s.mem)

/-! ### Engines and Apex: arithmetic (spec/05) -/

/-- Addition, subtraction, comparison and multiplication write their result and the flags of R149, and nothing else; an
immediate of these is sign-extended (R148, R149, R152). -/
def Obligations.SumsAndDifferencesSetEveryFlag : Prop :=
  ∀ (c : Fin 33) (s : State) (w : Word),
    let a := (s.engine c).reg (raOf w)
    let b := (s.engine c).reg (rbOf w)
    let i : Word := (w.extractLsb' 0 18).signExtend 32
    let k := (s.engine c).c.toNat
    (Executes s c .add w → ∃ t, exec (.add c) s = .next t ∧ AddStep s t c (rdOf w) a b 0) ∧
    (Executes s c .addi w → ∃ t, exec (.addi c) s = .next t ∧ AddStep s t c (rdOf w) a i 0) ∧
    (Executes s c .adc w → ∃ t, exec (.adc c) s = .next t ∧ AddStep s t c (rdOf w) a b k) ∧
    (Executes s c .sub w → ∃ t, exec (.sub c) s = .next t ∧ SubStep s t c (some (rdOf w)) a b 0) ∧
    (Executes s c .sbc w → ∃ t, exec (.sbc c) s = .next t ∧ SubStep s t c (some (rdOf w)) a b k) ∧
    (Executes s c .neg w → ∃ t, exec (.neg c) s = .next t ∧ SubStep s t c (some (rdOf w)) 0 a 0) ∧
    (Executes s c .cmp w → ∃ t, exec (.cmp c) s = .next t ∧ SubStep s t c none a b 0) ∧
    (Executes s c .cmpi w → ∃ t, exec (.cmpi c) s = .next t ∧ SubStep s t c none a i 0) ∧
    (Executes s c .mul w → ∃ t r, exec (.mul c) s = .next t ∧ LogicStep s t c (rdOf w) r ∧
      r.toNat = a.toNat * b.toNat % 2 ^ 32)

/-- Logic, moves and sign extension: every bit of the result, Z and N by the result, C and V unchanged; moves change no
flag; an immediate of the logic forms is zero-extended (R148, R149, R152). -/
def Obligations.LogicAndMovesKeepCarry : Prop :=
  ∀ (c : Fin 33) (s : State) (w : Word),
    let a := (s.engine c).reg (raOf w)
    let b := (s.engine c).reg (rbOf w)
    let im := fun (j : Nat) => decide (j < 18) && w.getLsbD j
    (Executes s c .andR w → ∃ t r, exec (.andReg c) s = .next t ∧ LogicStep s t c (rdOf w) r ∧
      ∀ j < 32, r.getLsbD j = (a.getLsbD j && b.getLsbD j)) ∧
    (Executes s c .andi w → ∃ t r, exec (.andi c) s = .next t ∧ LogicStep s t c (rdOf w) r ∧
      ∀ j < 32, r.getLsbD j = (a.getLsbD j && im j)) ∧
    (Executes s c .orR w → ∃ t r, exec (.orReg c) s = .next t ∧ LogicStep s t c (rdOf w) r ∧
      ∀ j < 32, r.getLsbD j = (a.getLsbD j || b.getLsbD j)) ∧
    (Executes s c .ori w → ∃ t r, exec (.ori c) s = .next t ∧ LogicStep s t c (rdOf w) r ∧
      ∀ j < 32, r.getLsbD j = (a.getLsbD j || im j)) ∧
    (Executes s c .xor w → ∃ t r, exec (.xor c) s = .next t ∧ LogicStep s t c (rdOf w) r ∧
      ∀ j < 32, r.getLsbD j = (a.getLsbD j ^^ b.getLsbD j)) ∧
    (Executes s c .xori w → ∃ t r, exec (.xori c) s = .next t ∧ LogicStep s t c (rdOf w) r ∧
      ∀ j < 32, r.getLsbD j = (a.getLsbD j ^^ im j)) ∧
    (Executes s c .notR w → ∃ t r, exec (.notReg c) s = .next t ∧ LogicStep s t c (rdOf w) r ∧
      ∀ j < 32, r.getLsbD j = !(a.getLsbD j)) ∧
    (Executes s c .sext8 w → ∃ t r, exec (.sext8 c) s = .next t ∧ LogicStep s t c (rdOf w) r ∧
      ∀ j < 32, r.getLsbD j = a.getLsbD (min j 7)) ∧
    (Executes s c .sext16 w → ∃ t r, exec (.sext16 c) s = .next t ∧ LogicStep s t c (rdOf w) r ∧
      ∀ j < 32, r.getLsbD j = a.getLsbD (min j 15)) ∧
    (Executes s c .movi w → ∃ t r, exec (.movi c) s = .next t ∧ MoveStep s t c (rdOf w) r ∧
      ∀ j < 32, r.getLsbD j = w.getLsbD (min j 17)) ∧
    (Executes s c .lui w → ∃ t r, exec (.lui c) s = .next t ∧ MoveStep s t c (rdOf w) r ∧
      ∀ j < 32, r.getLsbD j = (decide (14 ≤ j) && w.getLsbD (j - 14)))

/-- Shifts and bit fields: every bit of the result, and C the last bit shifted out; a shift by 0 leaves C (R152). -/
def Obligations.ShiftsAndFieldsPlaceEveryBit : Prop :=
  ∀ (c : Fin 33) (s : State) (w : Word),
    let a := (s.engine c).reg (raOf w)
    let d := (s.engine c).reg (rdOf w)
    let k := shiftBy s c w
    let lsb := w.toNat / 2 ^ 13 % 32
    let width := w.toNat / 2 ^ 8 % 32 + 1
    (Executes s c .shl w → ∃ t r, exec (.shl c) s = .next t ∧ ShiftStep s t c (rdOf w) r k (a.getLsbD (32 - k)) ∧
      ∀ j < 32, r.getLsbD j = (decide (k ≤ j) && a.getLsbD (j - k))) ∧
    (Executes s c .shr w → ∃ t r, exec (.shr c) s = .next t ∧ ShiftStep s t c (rdOf w) r k (a.getLsbD (k - 1)) ∧
      ∀ j < 32, r.getLsbD j = a.getLsbD (j + k)) ∧
    (Executes s c .sar w → ∃ t r, exec (.sar c) s = .next t ∧ ShiftStep s t c (rdOf w) r k (a.getLsbD (k - 1)) ∧
      ∀ j < 32, r.getLsbD j = a.getLsbD (min (j + k) 31)) ∧
    (Executes s c .ror w → ∃ t r, exec (.ror c) s = .next t ∧ ShiftStep s t c (rdOf w) r k (r.getLsbD 31) ∧
      ∀ j < 32, r.getLsbD j = a.getLsbD ((j + k) % 32)) ∧
    (Executes s c .ext w → ∃ t r, exec (.ext c) s = .next t ∧ LogicStep s t c (rdOf w) r ∧
      ∀ j < 32, r.getLsbD j = if j < width then a.getLsbD (lsb + j) else w.getLsbD 7 && a.getLsbD (lsb + width - 1)) ∧
    (Executes s c .ins w → ∃ t r, exec (.ins c) s = .next t ∧ LogicStep s t c (rdOf w) r ∧
      ∀ j < 32, r.getLsbD j = if lsb ≤ j ∧ j < lsb + width then a.getLsbD (j - lsb) else d.getLsbD j) ∧
    (Executes s c .nswap w → ∃ t r, exec (.nswap c) s = .next t ∧ LogicStep s t c (rdOf w) r ∧
      ∀ j < 32, r.getLsbD j = a.getLsbD (if j % 8 < 4 then j + 4 else j - 4)) ∧
    (Executes s c .bswap16 w → ∃ t r, exec (.bswap16 c) s = .next t ∧ LogicStep s t c (rdOf w) r ∧
      ∀ j < 32, r.getLsbD j = (decide (j < 16) && a.getLsbD (if j < 8 then j + 8 else j - 8))) ∧
    (Executes s c .bswap32 w → ∃ t r, exec (.bswap32 c) s = .next t ∧ LogicStep s t c (rdOf w) r ∧
      ∀ j < 32, r.getLsbD j = a.getLsbD (8 * (3 - j / 8) + j % 8)) ∧
    (Executes s c .clz w → ∃ t r, exec (.clz c) s = .next t ∧ LogicStep s t c (rdOf w) r ∧ r.toNat ≤ 32 ∧
      (∀ j < r.toNat, a.getLsbD (31 - j) = false) ∧ (r.toNat < 32 → a.getLsbD (31 - r.toNat) = true)) ∧
    (Executes s c .popc w → ∃ t r, exec (.popc c) s = .next t ∧ LogicStep s t c (rdOf w) r ∧
      r.toNat = (List.range 32).countP (fun j => a.getLsbD j))

/-- Branch conditions (R150): CR 0 to 14 test the flags of the table, in bCond as everywhere, and a word with CR 15 is illegal; after a
comparison of `a` with `b` each condition says what its name says of the two words, as unsigned numbers for ult, uge, ugt and ule,
as signed ones for slt, sge, sgt and sle; C is the borrow after sbc and the carry out after additions. -/
def Obligations.ConditionsAfterACompareMeanTheirNames : Prop :=
  ∀ (e : Engine) (a b : Word),
    let f := e.flagsSub a b false
    f.cond 0 = true ∧ f.cond 1 = decide (a = b) ∧ f.cond 2 = decide (a ≠ b) ∧
    f.cond 3 = decide (a.toNat < b.toNat) ∧ f.cond 4 = decide (b.toNat ≤ a.toNat) ∧
    f.cond 5 = decide (b.toNat < a.toNat) ∧ f.cond 6 = decide (a.toNat ≤ b.toNat) ∧
    f.cond 7 = decide (a.toInt < b.toInt) ∧ f.cond 8 = decide (b.toInt ≤ a.toInt) ∧
    f.cond 9 = decide (b.toInt < a.toInt) ∧ f.cond 10 = decide (a.toInt ≤ b.toInt) ∧
    (e.cond 0 = true ∧ e.cond 1 = e.z ∧ e.cond 2 = !e.z ∧ e.cond 3 = e.c ∧ e.cond 4 = !e.c ∧ e.cond 5 = (!e.c && !e.z) ∧
      e.cond 6 = (e.c || e.z) ∧ e.cond 7 = (e.n != e.v) ∧ e.cond 8 = (e.n == e.v) ∧ e.cond 9 = (!e.z && e.n == e.v) ∧
      e.cond 10 = (e.z || e.n != e.v) ∧ e.cond 11 = e.n ∧ e.cond 12 = !e.n ∧ e.cond 13 = e.v ∧ e.cond 14 = !e.v) ∧
    (∀ k : Bool, (e.flagsSub a b k).cond 3 = decide (a.toNat < b.toNat + k.toNat) ∧
      (e.flagsAdd a b k).cond 3 = decide (2 ^ 32 ≤ a.toNat + b.toNat + k.toNat)) ∧
    (∀ (apex : Bool) (w : Word), opOf w = 0x20 → rdOf w = 15 → engDecode apex w = none) ∧
    (∀ (c : Fin 33) (s : State) (w : Word), Executes s c .bCond w →
      ((s.engine c).cond (rdOf w) = true → InCode s c (brTarget w (s.pc c)) →
        ∃ t, exec (.bCond c) s = .next t ∧ CoreStep s t c (brTarget w (s.pc c)).toNat (s.engine c)) ∧
      ((s.engine c).cond (rdOf w) = false →
        ∃ t, exec (.bCond c) s = .next t ∧ CoreStep s t c (s.pcNext c) (s.engine c)))

/-- Control instructions (R156): calls and jumps go where their words say, calls leave the address of the next word in
g15 even where RA is g15, and nothing else of the core changes; halt stops the engine with cause 2 behind itself; hbeat counts. A word
that is no instruction stops the core in FAULT with ILLEGAL at its own address, or with the code of a privileged word on an
engine; running past the code gives PC_RANGE (R127, R146, R165). -/
def Obligations.ControlInstructionsGoWhereTheySay : Prop :=
  ∀ (c : Fin 33) (s : State) (w : Word),
    let g := s.engine c
    let x := brTarget w (s.pc c)
    let a := g.reg (raOf w)
    let link := g.setReg 15 (BitVec.ofNat 32 (s.pcNext c))
    (Executes s c .call w → InCode s c x → ∃ t, exec (.call c) s = .next t ∧ CoreStep s t c x.toNat link) ∧
    (Executes s c .jr w → InCode s c a.toNat → ∃ t, exec (.jr c) s = .next t ∧ CoreStep s t c a.toNat g) ∧
    (Executes s c .callr w → InCode s c a.toNat → ∃ t, exec (.callr c) s = .next t ∧ CoreStep s t c a.toNat link) ∧
    (Executes s c .cbz w → g.reg (rdOf w) = 0 → InCode s c x → ∃ t, exec (.cbz c) s = .next t ∧ CoreStep s t c x.toNat g) ∧
    (Executes s c .cbz w → g.reg (rdOf w) ≠ 0 → ∃ t, exec (.cbz c) s = .next t ∧ CoreStep s t c (s.pcNext c) g) ∧
    (Executes s c .cbnz w → g.reg (rdOf w) ≠ 0 → InCode s c x → ∃ t, exec (.cbnz c) s = .next t ∧ CoreStep s t c x.toNat g) ∧
    (Executes s c .cbnz w → g.reg (rdOf w) = 0 → ∃ t, exec (.cbnz c) s = .next t ∧ CoreStep s t c (s.pcNext c) g) ∧
    (Executes s c .nop w → ∃ t, exec (.nop c) s = .next t ∧ CoreStep s t c (s.pcNext c) g) ∧
    (Executes s c .hbeat w →
      ∃ t, exec (.hbeat c) s = .next t ∧ t.n (0x2400 + c.val) 0xB = (s.n (0x2400 + c.val) 0xB + 1) % 2 ^ 32 ∧
        t.pc c = s.pcNext c ∧ t.engine c = g ∧ t.mem = s.mem) ∧
    (Executes s c .halt w → g.posted = [] →
      ∃ t, exec (.halt c) s = .next t ∧ t.coreState c = 0 ∧ t.n (coreIdx c) 6 = 2 ∧ t.pc c = s.pcNext c ∧ t.mem = s.mem ∧
        (c.val < 32 → t.bit (0x2440 + c.val / 4) 0x11 (8 + c.val % 4) = true)) ∧
    (Executes s c .halt w → g.posted ≠ [] →
      ∃ t, exec (.halt c) s = .next t ∧ t.engine c = { g with waiting := .stores } ∧ t.od = s.od ∧ t.mem = s.mem) ∧
    (s.coreState c = 1 → g.waiting = .none → s.pc c < 0x1_0000 → s.pcOk c (s.pc c) = true → s.hasDbe (codeAt c (s.pc c)) = false →
      engDecode (c = 32) (s.insn c) = none →
      ∃ t, exec (.illegalEncoding c) s = .next t ∧ t.coreState c = 3 ∧
        t.n (coreIdx c) 7 = (if opOf (s.insn c) = 0x3E ∧ c ≠ 32 then 9 else 1) ∧ t.n (coreIdx c) 8 = s.pc c ∧ t.pc c = s.pc c) ∧
    (s.coreState c = 1 → g.waiting = .none → s.pc c < 0x1_0000 → s.pcOk c (s.pc c) = false →
      ∃ t, exec (.illegalEncoding c) s = .next t ∧ t.coreState c = 3 ∧ t.n (coreIdx c) 7 = 2 ∧ t.n (coreIdx c) 8 = s.pc c)

/-- Loads, stores and atomics (R112, R153, R154): a load of 1, 2, 4 or 8 bytes, zero-extended, little-endian, into RD or the pair RD, RD+1,
changes no flag and no memory; a local store changes exactly its bytes; a facet or far store is posted and changes no memory
until it completes; fence and a ninth store wait. An atomic gives the old word or doubleword at RA to RD and stores the sum with RB,
or RB itself; the flags and every other byte stay. Model readings that it
rests on: log entry 67. -/
def Obligations.LoadsStoresAndAtomicsMoveTheirBytes : Prop :=
  (∀ (c : Fin 33) (s : State) (w : Word),
    let g := s.engine c
    let a := g.memAddr w
    let k := 2 ^ szOf w
    let v := g.regSized (rdOf w) (szOf w)
    (Executes s c .ldl w → a % k = 0 → a < localSize c → Clean s c (localAt c + a) →
      ∃ t, exec (.ldl c) s = .next t ∧ LoadStep s t c w (s.le (localAt c + a) k)) ∧
    (Executes s c .ldf w → a % k = 0 → a < 0x4_0000 → Clean s c (facetAt c + a) →
      ∃ t, exec (.ldf c) s = .next t ∧ LoadStep s t c w (s.le (facetAt c + a) k)) ∧
    (Executes s c .ldx w → a % k = 0 → PlainMemory a → s.ready a = true → Clean s c a →
      ∃ t, exec (.ldx c) s = .next t ∧ LoadStep s t c w (s.le a k)) ∧
    (Executes s c .stl w → a % k = 0 → a < localSize c → Clean s c (localAt c + a) →
      ∃ t, exec (.stl c) s = .next t ∧ Stored s t (localAt c + a) k v ∧ Ends s t c (s.pcNext c) ∧ t.engine c = g) ∧
    (Executes s c .stf w → a % k = 0 → a < 0x4_0000 → g.posted.length < 8 →
      ∃ t, exec (.stf c) s = .next t ∧
        CoreStep s t c (s.pcNext c) { g with posted := g.posted ++ [{ far := false, addr := facetAt c + a, data := leBytes v k }] }) ∧
    (Executes s c .stx w → a % k = 0 → s.ready a = true → g.posted.length < 8 →
      ∃ t, exec (.stx c) s = .next t ∧
        CoreStep s t c (s.pcNext c) { g with posted := g.posted ++ [{ far := true, addr := a, data := leBytes v k }] }) ∧
    (Executes s c .stx w → a % k = 0 → 8 ≤ g.posted.length →
      ∃ t, exec (.stx c) s = .next t ∧ t.engine c = { g with waiting := .stores } ∧ t.od = s.od ∧ t.mem = s.mem) ∧
    (Executes s c .fence w → g.posted = [] → ∃ t, exec (.fence c) s = .next t ∧ CoreStep s t c (s.pcNext c) g) ∧
    (Executes s c .fence w → g.posted ≠ [] →
      ∃ t, exec (.fence c) s = .next t ∧ t.engine c = { g with waiting := .stores } ∧ t.od = s.od ∧ t.mem = s.mem) ∧
    (∀ (p : Posted) (l : List Posted), g.posted = p :: l → (∃ f, regionOf p.addr = .store f) → s.hasDbe p.addr = false →
      p.data.length < 8 →
      ∃ t, exec (.postedStoreComplete c) s = .next t ∧ t.engine c = { g with posted := l } ∧ t.od = s.od ∧
        ∀ b, t.byte b = if p.addr ≤ b ∧ b < p.addr + p.data.length then p.data.getD (b - p.addr) 0 else s.byte b)) ∧
  (∀ (c : Fin 33) (s : State) (w : Word) (f : Nat),
    let g := s.engine c
    let a := (g.reg (raOf w)).toNat
    let k := if w.getLsbD 11 then 8 else 4
    let x := if w.getLsbD 11 then g.pair (rbOf w) else (g.reg (rbOf w)).toNat
    let got := fun (t : State) (at' : Nat) =>
      Ends s t c (s.pcNext c) ∧ { t.engine c with regs := [] } = { g with regs := [] } ∧
      (∀ r, (t.engine c).reg r =
        if w.getLsbD 11 = true ∧ r = rdOf w + 1 then BitVec.ofNat 32 (s.le at' k / 2 ^ 32)
        else if r = rdOf w then BitVec.ofNat 32 (s.le at' k) else g.reg r)
    (Executes s c .faddF w → a % k = 0 → a < 0x4_0000 → Clean s c (facetAt c + a) →
      ∃ t, exec (.faddF c) s = .next t ∧ got t (facetAt c + a) ∧ Stored s t (facetAt c + a) k (s.le (facetAt c + a) k + x)) ∧
    (Executes s c .swapF w → a % k = 0 → a < 0x4_0000 → Clean s c (facetAt c + a) →
      ∃ t, exec (.swapF c) s = .next t ∧ got t (facetAt c + a) ∧ Stored s t (facetAt c + a) k x) ∧
    (Executes s c .faddX w → a % k = 0 → regionOf a = .store f → Clean s c a →
      ∃ t, exec (.faddX c) s = .next t ∧ got t a ∧ Stored s t a k (s.le a k + x)) ∧
    (Executes s c .swapX w → a % k = 0 → regionOf a = .store f → Clean s c a →
      ∃ t, exec (.swapX c) s = .next t ∧ got t a ∧ Stored s t a k x))

/-! ### Lanes, CRC, time, events and mailboxes of a core (R115–R122, R157–R167) -/

/-- Receive instructions (R157–R159): take removes what it returns, peek and match only look, a short result sets C; skip and skipf
discard, mark takes a marker and says which. -/
def Obligations.ReceiveInstructionsReadTheLane : Prop :=
  ∀ (c : Fin 33) (s : State) (w : Word) (l : List Nib) (r : List LaneItem) (v : Word),
    let g := s.engine c
    let n := laneN w
    (Executes s c .take w → g.rxFree = true → g.window 0 n = some l →
      ∃ t, exec (.take c) s = .next t ∧ Ends s t c (s.pcNext c) ∧ t.mem = s.mem ∧
        (t.engine c).rx = g.rx.drop l.length ∧ (t.engine c).rxPos = g.rxPos + l.length ∧
        (t.engine c).c = decide (l.length < n) ∧
        (∀ i, (t.engine c).reg i = if i = rdOf w then BitVec.ofNat 32 (nibWord l) else g.reg i)) ∧
    (Executes s c .peek w → g.rxFree = true → g.window (laneOff w) n = some l →
      ∃ t, exec (.peek c) s = .next t ∧
        RegStep s t c (some (rdOf w, BitVec.ofNat 32 (nibWord l))) g.z g.n (decide (l.length < n)) g.v) ∧
    (Executes s c .matchL w → g.rxFree = true → g.window (laneOff w) n = some l →
      ∃ t, exec (.matchLane c) s = .next t ∧
        RegStep s t c none (decide (∀ j < 4 * n, (g.reg (rbOf w)).getLsbD j = true →
          (BitVec.ofNat 32 (nibWord l)).getLsbD j = (g.reg (raOf w)).getLsbD j)) g.n (decide (l.length < n)) g.v) ∧
    (Executes s c .skip w → g.rxDiscard = .off → g.rx = l.map LaneItem.nib ++ r → l.length = w.toNat % 4096 → l ≠ [] →
      ∃ t, exec (.skip c) s = .next t ∧ Ends s t c (s.pcNext c) ∧ t.mem = s.mem ∧ (t.engine c).rx = r ∧
        (t.engine c).rxPos = g.rxPos + l.length ∧ (t.engine c).rxDiscard = .off ∧ (t.engine c).regs = g.regs) ∧
    (Executes s c .skipf w → g.rx = l.map LaneItem.nib ++ LaneItem.fin v :: r →
      ∃ t, exec (.skipf c) s = .next t ∧ Ends s t c (s.pcNext c) ∧ t.mem = s.mem ∧ (t.engine c).rx = r ∧
        (t.engine c).rxDiscard = .off ∧ (t.engine c).regs = g.regs) ∧
    (Executes s c .mark w → g.rxFree = true → g.rx = LaneItem.start v :: r →
      ∃ t, exec (.mark c) s = .next t ∧ CoreStep s t c (s.pcNext c)
        { g.setReg (rdOf w) v with rx := r, rxPos := 0, c := true, n := false }) ∧
    (Executes s c .mark w → g.rxFree = true → g.rx = LaneItem.fin v :: r →
      ∃ t, exec (.mark c) s = .next t ∧ CoreStep s t c (s.pcNext c) { g.setReg (rdOf w) v with rx := r, c := true, n := true }) ∧
    (Executes s c .take w → g.rxFree = true → g.window 0 n = none →
      ∃ t, exec (.take c) s = .next t ∧ t.engine c = { g with waiting := .lane } ∧ t.od = s.od ∧ t.mem = s.mem)

/-- Transmit instructions, lane status and the CRC unit (R157, R160, R161): give queues its nibbles low nibble first, gend queues the
frame's end, lstat shows both lanes, crc folds the nibbles under the selected polynomial and read gives the state with
the final XOR. Model readings that it
rests on: log entry 25. -/
def Obligations.TransmitAndCrcInstructionsAct : Prop :=
  ∀ (c : Fin 33) (s : State) (w : Word),
    let g := s.engine c
    let a := g.reg (raOf w)
    (Executes s c .give w → g.posted = [] → g.txDrop = false → g.txOn = false → g.crcTap ≠ 2 → txCount g.tx + laneN w ≤ 128 →
      ∃ t, exec (.give c) s = .next t ∧ CoreStep s t c (s.pcNext c)
        { g with tx := g.tx ++ (List.range (laneN w)).map (fun k => TxItem.nib (BitVec.ofNat 4 (a.toNat / 16 ^ k))) }) ∧
    (Executes s c .gend w → g.txDrop = false → g.txOn = false → laneOff w = 0 → txCount g.tx < 128 →
      ∃ t, exec (.gend c) s = .next t ∧ CoreStep s t c (s.pcNext c) { g with tx := g.tx ++ [TxItem.fin false] }) ∧
    (Executes s c .lstat w →
      ∃ t r, exec (.lstat c) s = .next t ∧ MoveStep s t c (rdOf w) r ∧ r.toNat % 2 ^ 16 = g.rxPos % 2 ^ 16 ∧
        ((headNibs g.rx).length < 256 → txCount g.tx ≤ 128 →
          r.toNat / 2 ^ 16 % 2 ^ 8 = (headNibs g.rx).length ∧ r.toNat / 2 ^ 24 = 128 - txCount g.tx)) ∧
    (Executes s c .crcInit w →
      ∃ t, exec (.crcInit c) s = .next t ∧ CoreStep s t c (s.pcNext c)
        { g with crcPoly := laneOff w, crc := crcTrim (laneOff w) a, crcHalf := none }) ∧
    (Executes s c .crcFold w → g.crcPoly ≠ 3 ∨ laneN w % 2 = 0 →
      ∃ t, exec (.crcFold c) s = .next t ∧ CoreStep s t c (s.pcNext c)
        { g with crc := crcTrim g.crcPoly (crcFold g.crcPoly g.crc (wordNibs a (laneN w))) }) ∧
    (Executes s c .crcRead w →
      ∃ t, exec (.crcRead c) s = .next t ∧ MoveStep s t c (rdOf w) (g.crc ^^^ crcFinal g.crcPoly)) ∧
    (Executes s c .crcWrite w →
      ∃ t, exec (.crcWrite c) s = .next t ∧ CoreStep s t c (s.pcNext c) { g with crc := crcTrim g.crcPoly a }) ∧
    (Executes s c .crcTap w → ∃ t, exec (.crcTap c) s = .next t ∧ CoreStep s t c (s.pcNext c) { g with crcTap := laneOff w })

/-- Lanes (R116–R122): a frame's START, its nibbles in order and its END reach a bound receive lane whose FIFO has room; an
unbound lane takes nothing; an underrun ends the frame, is counted, and what follows is dropped to the frame's end; a new
binding takes effect between frames. Model readings that it
rests on: log entries 14, 15. -/
def Obligations.LanesCarryFrames : Prop :=
  (∀ (e : Fin 32) (ts : Word) (f : BitVec 2) (nibs : List Nib) (st : BitVec 3) (s : State),
    fieldOf (s.engine e).rxBound 0 5 ≠ 0 → (s.engine e).rxDiscard = .off → nibCount (s.engine e).rx + nibs.length ≤ 128 →
    ∃ t, exec (.rxLaneFrame e (some (ts, f)) nibs (some st)) s = .next t ∧
      (t.engine e).rx = (s.engine e).rx ++ [LaneItem.start ts] ++ nibs.map LaneItem.nib ++
        [LaneItem.fin (endWord (nibs.length / 2) st.toNat (boundPort (s.engine e).rxBound) f)] ∧
      t.od = s.od ∧ t.mem = s.mem) ∧
  (∀ (e : Fin 32) (first : Option (Word × BitVec 2)) (nibs : List Nib) (last : Option (BitVec 3)) (s : State),
    fieldOf (s.engine e).rxBound 0 5 = 0 → exec (.rxLaneFrame e first nibs last) s = .next s) ∧
  (∀ (e : Fin 32) (s : State), (s.engine e).txOn = true → (s.engine e).tx = [] →
    ∃ t, exec (.txLaneUnderrun e) s = .next t ∧ (t.engine e).txOn = false ∧ (t.engine e).txDrop = true ∧
      t.n (0x2440 + e.val / 4) (0xD + e.val % 4) = (s.n (0x2440 + e.val / 4) (0xD + e.val % 4) + 1) % 2 ^ 32) ∧
  (∀ (e : Fin 32) (s : State),
    ∃ t, exec (.laneBindingApply e false) s = .next t ∧
      t.engine e = { s.engine e with rxBound := s.n (0x2440 + e.val / 4) (1 + e.val % 4) } ∧ t.od = s.od ∧ t.mem = s.mem) ∧
  (∀ (e : Fin 32) (s : State), (s.engine e).txOn = false →
    ∃ t, exec (.laneBindingApply e true) s = .next t ∧
      t.engine e = { s.engine e with txBound := s.n (0x2440 + e.val / 4) (5 + e.val % 4) } ∧ t.od = s.od ∧ t.mem = s.mem)

/-- Time and event instructions (R151, R162, R163): time latches all 64 bits of the domain, timeh gives the high word of the latch,
twait completes when the domain has reached RA, ewait and epoll take the selected bits and clear them, a timeout gives 0. -/
def Obligations.TimeAndEventInstructionsAct : Prop :=
  ∀ (c : Fin 33) (dt : Nat) (s0 : State) (w : Word),
    let s := s0.advance dt
    let g := s.engine c
    let d := w.toNat % 4
    (Executes s c .time w →
      ∃ t, exec (.timeRead c dt) s0 = .next t ∧ CoreStep s t c (s.pcNext c)
        { g.setReg (rdOf w) (BitVec.ofNat 32 (s.now64 d)) with
          tdLatch := tblSet (fun _ => 0) d (BitVec.ofNat 64 (s.now64 d)) g.tdLatch }) ∧
    (Executes s0 c .timeh w →
      ∃ t, exec (.timeh c) s0 = .next t ∧
        MoveStep s0 t c (rdOf w) (BitVec.ofNat 32 ((tblGet (fun _ => 0) d (s0.engine c).tdLatch).toNat / 2 ^ 32))) ∧
    (Executes s c .twait w → isDue (s.now32 d) (g.reg (raOf w)).toNat = true →
      ∃ t, exec (.twait c dt) s0 = .next t ∧ CoreStep s t c (s.pcNext c) g) ∧
    (Executes s c .twait w → isDue (s.now32 d) (g.reg (raOf w)).toNat = false →
      ∃ t, exec (.twait c dt) s0 = .next t ∧ t.engine c = { g with waiting := .time } ∧ t.od = s.od ∧ t.mem = s.mem) ∧
    (Executes s0 c .ewait w → s0.evpUnder c w ≠ 0 →
      ∃ t, exec (.ewait c) s0 = .next t ∧ CoreStep s0 t c (s0.pcNext c)
        { ((s0.engine c).takeEvp w (s0.evpUnder c w)).setReg (rdOf w) (s0.evpUnder c w) with z := false }) ∧
    (Executes s0 c .ewait w → s0.evpUnder c w = 0 →
      ∃ t, exec (.ewait c) s0 = .next t ∧ t.engine c = { s0.engine c with waiting := .event } ∧ t.od = s0.od ∧ t.mem = s0.mem) ∧
    (Executes s c .ewaitT w → s.evpUnder c w = 0 →
      isDue (s.now32 (w.toNat / 4 % 4)) (g.reg (rbOf w)).toNat = true →
      ∃ t, exec (.ewaitTimeout c dt) s0 = .next t ∧ (t.engine c).reg (rdOf w) = 0 ∧ (t.engine c).z = true ∧
        (t.engine c).evp = g.evp ∧ Ends s t c (s.pcNext c) ∧ t.mem = s.mem) ∧
    (Executes s0 c .epoll w →
      ∃ t, exec (.epoll c) s0 = .next t ∧ (t.engine c).reg (rdOf w) = s0.evpUnder c w ∧
        (t.engine c).z = decide (s0.evpUnder c w = 0) ∧ Ends s0 t c (s0.pcNext c) ∧ t.mem = s0.mem) ∧
    ((s.engine c).waiting = .time → s.coreState c = 1 → s.pc c < 0x1_0000 →
      engDecode (c.val = 32) (s.insn c) = some .twait →
      isDue (s.now32 (fieldOf (fnOf (s.insn c)) 0 2)) (g.ra (s.insn c)).toNat = true →
      ∃ t, exec (.engineWaitEnd c dt) s0 = .next t ∧ CoreStep s t c (s.pcNext c) { g with waiting := .none })

/-- Mailbox instructions (R164, R478–R482): lock answers 0 with C when ownership is granted, the owner without C otherwise; unlock by
the owner frees it; post makes the channel POSTED with its length; dbrd shows what is pending and not masked; dbclr clears,
and with nothing left the channel is EMPTY. Model readings that it
rests on: log entry 67. -/
def Obligations.MailboxInstructionsAct : Prop :=
  ∀ (c : Fin 33) (s : State) (w : Word),
    let g := s.engine c
    let k := w.toNat % 2 ^ 14
    let i := 0x2C10 + k
    let m := (s.corePath c).id.val
    (Executes s c .lock w → g.posted = [] → s.readOk (s.corePath c) i 6 = true → s.n i 7 = 0 →
      ∃ t, exec (.lock c) s = .next t ∧ t.n i 7 = m ∧ (t.engine c).reg (rdOf w) = 0 ∧ (t.engine c).c = true ∧
        t.pc c = s.pcNext c ∧ t.mem = s.mem) ∧
    (Executes s c .lock w → g.posted = [] → s.readOk (s.corePath c) i 6 = true → s.n i 7 ≠ 0 → s.n i 7 ≠ m → s.n i 7 < 64 →
      ∃ t, exec (.lock c) s = .next t ∧ t.n i 7 = s.n i 7 ∧ ((t.engine c).reg (rdOf w)).toNat = s.n i 7 ∧
        (t.engine c).c = false ∧ t.pc c = s.pcNext c ∧ t.mem = s.mem) ∧
    (Executes s c .unlock w → g.posted = [] → s.readOk (s.corePath c) i 6 = true → s.n i 7 = m →
      ∃ t, exec (.unlock c) s = .next t ∧ t.n i 7 = 0 ∧ t.engine c = g ∧ t.pc c = s.pcNext c ∧ t.mem = s.mem) ∧
    (Executes s c .post w → g.posted = [] →
      s.writeOk (s.corePath c) i 8 ((g.reg (raOf w)).toNat + (g.reg (rbOf w)).toNat % 2048 * 2 ^ 32) = true → s.n i 0xA ≠ 2 →
      ∃ t, exec (.post c) s = .next t ∧ t.n i 0xA = 2 ∧ t.n i 0xB = (g.reg (rbOf w)).toNat % 2048 ∧
        (t.chan k).bits = (s.chan k).bits ||| g.reg (raOf w) ∧ t.pc c = s.pcNext c ∧ t.mem = s.mem) ∧
    (Executes s c .dbrd w → g.posted = [] → s.readOk (s.corePath c) i 0xC = true → s.mboxIntact k = true →
      ∃ t, exec (.dbrd c) s = .next t ∧ (t.engine c).reg (rdOf w) = (s.chan k).bits &&& ~~~ BitVec.ofNat 32 (s.n i 0xD) ∧
        (t.engine c).c = false ∧ t.n i 0xE = 0 ∧ t.pc c = s.pcNext c ∧ t.mem = s.mem) ∧
    (Executes s c .dbclr w → g.posted = [] → s.writeOk (s.corePath c) i 0xC (g.reg (raOf w)).toNat = true → s.n i 0xA = 2 →
      (s.chan k).bits &&& ~~~ g.reg (raOf w) = 0 →
      ∃ t, exec (.dbclr c) s = .next t ∧ (t.chan k).bits = 0 ∧ t.n i 0xA = 0 ∧ t.engine c = g ∧ t.pc c = s.pcNext c ∧
        t.mem = s.mem)

/-- Apex's own instructions (R167, R166): an engine has none of them, and what each does. Model readings that it
rests on: log entries 6, 26. -/
def Obligations.ApexInstructionsAct : Prop :=
  ∀ (s : State) (w : Word),
    let g := s.engine 32
    let a := (g.reg (raOf w)).toNat
    let b := (g.reg (rbOf w)).toNat
    (engDecode false w ≠ some .wdkick ∧ engDecode false w ≠ some .fuserd ∧ engDecode false w ≠ some .mramw ∧
      engDecode false w ≠ some .sha ∧ engDecode false w ≠ some .engsec) ∧
    (Executes s 32 .wdkick w →
      ∃ t, exec (.wdkick 32) s = .next t ∧ t.sup.watchdog = true ∧ CoreStep s t 32 (s.pcNext 32) g) ∧
    (Executes s 32 .fuserd w → 256 ≤ a → ∃ t, exec (.fuserd 32) s = .next t ∧ MoveStep s t 32 (rdOf w) 0) ∧
    (Executes s 32 .fuserd w → a < 256 →
      ∃ t, exec (.fuserd 32) s = .next t ∧ MoveStep s t 32 (rdOf w) (Config.fuseWord a)) ∧
    (Executes s 32 .mramw w → g.posted = [] → a % 8 = 0 → regionOf a = .mram → s.mramWritable = true →
      ∃ t, exec (.mramw 32) s = .next t ∧ Stored s t a 8 (g.pair (rbOf w)) ∧ t.engine 32 = g ∧ Ends s t 32 (s.pcNext 32)) ∧
    (Executes s 32 .mramw w → g.posted = [] → a % 8 ≠ 0 ∨ regionOf a ≠ .mram →
      ∃ t, exec (.mramw 32) s = .next t ∧ t.coreState 32 = 3 ∧ t.n (coreIdx 32) 7 = 10 ∧ t.mem = s.mem) ∧
    (Executes s 32 .sha w → g.posted = [] → a + 64 ≤ localSize 32 → b + 32 ≤ localSize 32 →
      ∃ t, exec (.sha 32) s = .next t ∧ t.engine 32 = g ∧ Ends s t 32 (s.pcNext 32) ∧
        (∀ x, x < localAt 32 + b ∨ localAt 32 + b + 32 ≤ x → t.byte x = s.byte x) ∧
        (List.range 8).map (fun k => BitVec.ofNat 32 (t.w32 (localAt 32 + b + 4 * k))) =
          shaCompress ((List.range 8).map (fun k => BitVec.ofNat 32 (s.w32 (localAt 32 + b + 4 * k))))
            (shaBlock (s.bytes (localAt 32 + a) 64))) ∧
    (Executes s 32 .engsec w → s.n (0x2400 + a % 32) 1 = 4 →
      ∃ t, exec (.engsec 32) s = .next t ∧ t.n (0x2400 + a % 32) 0xE = b % 2 ∧ t.engine 32 = g ∧ t.pc 32 = s.pcNext 32 ∧
        t.mem = s.mem) ∧
    (Executes s 32 .engsec w → s.n (0x2400 + a % 32) 1 ≠ 4 →
      ∃ t, exec (.engsec 32) s = .next t ∧ CoreStep s t 32 (s.pcNext 32) g)

/-! ### Banks, mailboxes, the recorder (spec/17, spec/18, spec/20) -/

/-- Memory banks (R457, R458, R461, R462, R466): a write of POWER starts the transition that RUN_STATE asks for; a bank that leaves OFF
is zeroed and becomes ON; one that goes OFF loses its bytes; entry to RETENTION tags it and keeps them; a scrub pass
corrects single-bit errors and leaves every byte. -/
def Obligations.BanksFollowTheirPowerState : Prop :=
  (∀ (p : Path) (b : Fin 96) (v : Word) (s : State), s.writeOk p (bankIdx b) (1 + b.val % 8) v.toNat = true → s.dev ≠ 2 →
    s.bankState b ≠ fieldOf v.toNat 0 2 →
    ∃ t, exec (.bankPowerWrite p b v) s = .next t ∧ t.n (bankIdx b) (1 + b.val % 8) = v.toNat ∧ t.changing b = true ∧
      t.bankState b = s.bankState b ∧ t.mem = s.mem ∧
      ObjectsKept s t [(bankIdx b, 1 + b.val % 8), (bankIdx b, bankStatusSub b)]) ∧
  (∀ (b : Fin 96) (s : State), s.changing b = true → (∀ k < b.val % 8, s.changing (b.val / 8 * 8 + k) = false) →
    s.bankState b = 2 → (tblGet (fun _ => ({} : Bank)) b.val s.memc.bank).target = 0 → s.memc.waits = [] →
    ∃ t, exec (.bankTransitionDone b) s = .next t ∧ t.bankState b = 0 ∧ t.changing b = false ∧ t.bit 0x2B00 9 3 = true ∧
      ∀ a, t.byte a = if b.val * 0x10_0000 ≤ a ∧ a < (b.val + 1) * 0x10_0000 then 0 else s.byte a) ∧
  (∀ (b : Fin 96) (s : State), s.changing b = true → (∀ k < b.val % 8, s.changing (b.val / 8 * 8 + k) = false) →
    s.bankState b = 0 → (tblGet (fun _ => ({} : Bank)) b.val s.memc.bank).target = 1 →
    ∃ t, exec (.bankTransitionDone b) s = .next t ∧ t.bankState b = 1 ∧ t.changing b = false ∧
      t.n (bankIdx b) (9 + b.val % 8) = s.n 0x2000 4 ∧ t.mem = s.mem) ∧
  (∀ (b : Fin 96) (s : State), s.changing b = true → (∀ k < b.val % 8, s.changing (b.val / 8 * 8 + k) = false) →
    s.bankState b = 0 → (tblGet (fun _ => ({} : Bank)) b.val s.memc.bank).target = 2 →
    ∃ t, exec (.bankTransitionDone b) s = .next t ∧ t.bankState b = 2 ∧ t.changing b = false ∧
      ∀ a, t.byte a = if b.val * 0x10_0000 ≤ a ∧ a < (b.val + 1) * 0x10_0000 then 0 else s.byte a) ∧
  (∀ (s : State), s.n 0x2B00 6 ≠ 0 → s.memc.scrubbing = false → s.memc.dbe = [] →
    ∃ t, exec .scrubPassStart s = .next t ∧ t.memc.scrubbing = true ∧ t.mem = s.mem ∧
      ∀ k, inBank (8 * k) = true → s.bankOn (8 * k / 0x10_0000) = true → t.hasSbe (8 * k) = false) ∧
  (∀ (s : State), s.memc.scrubbing = true →
    ∃ t, exec .scrubPassDone s = .next t ∧ t.memc.scrubbing = false ∧ t.n 0x2B00 7 = (s.n 0x2B00 7 + 1) % 2 ^ 32 ∧
      t.bit 0x2B00 9 5 = true ∧ ObjectsKept s t [(0x2B00, 7), (0x2B00, 9)] ∧ t.mem = s.mem)

/-- Mailboxes (R478–R488): a read of LOCK, or the lock instruction, takes a free lock, gives 0 to its owner and the owner to any other
reader; only the owner's write of 0 releases it; a
post makes the channel POSTED with its length and adds its bits, a second post leaves the length; a doorbell read answers what
is pending and not masked; cleared to nothing the channel is EMPTY; a mask is written; the lock of a reset owner is free once
its area is zeroed. -/
def Obligations.MailboxesPassMessages : Prop :=
  (∀ (p : Path) (k : Fin 48) (s : State), s.readOk p (0x2C10 + k.val) 6 = true → s.n (0x2C10 + k.val) 7 = 0 →
    ∃ t, exec (.mboxLockRead p k) s = .next t ∧ t.n (0x2C10 + k.val) 7 = p.id.val ∧
      t.out = s.out ++ [.reply p.id.val [0, 0, 0, 0] false] ∧ ObjectsKept s t [(0x2C10 + k.val, 7)] ∧ t.mem = s.mem) ∧
  (∀ (p : Path) (k : Fin 48) (s : State), s.readOk p (0x2C10 + k.val) 6 = true → s.n (0x2C10 + k.val) 7 ≠ 0 →
    s.n (0x2C10 + k.val) 7 ≠ p.id.val →
    ∃ t, exec (.mboxLockRead p k) s = .next t ∧ t.n (0x2C10 + k.val) 7 = s.n (0x2C10 + k.val) 7 ∧
      t.out = s.out ++ [.reply p.id.val (leBytes (s.n (0x2C10 + k.val) 7) 4) false] ∧
      t.n (0x2C10 + k.val) 0x10 = (s.n (0x2C10 + k.val) 0x10 + 1) % 2 ^ 32 ∧
      ObjectsKept s t [(0x2C10 + k.val, 0x10)] ∧ t.mem = s.mem) ∧
  (∀ (p : Path) (k : Fin 48) (v : Word) (s : State), s.writeOk p (0x2C10 + k.val) 6 v.toNat = true →
    ∃ t, exec (.mboxLockRelease p k v) s = .next t ∧ t.n (0x2C10 + k.val) 7 = 0 ∧
      ObjectsKept s t [(0x2C10 + k.val, 7)] ∧ t.mem = s.mem) ∧
  (∀ (p : Path) (k : Fin 48) (s : State), s.readOk p (0x2C10 + k.val) 6 = true → s.n (0x2C10 + k.val) 7 = p.id.val →
    p.id.val ≠ 0 → exec (.mboxLockRead p k) s = .next { s with out := s.out ++ [.reply p.id.val [0, 0, 0, 0] false] }) ∧
  (∀ (p : Path) (k : Fin 48) (v : Word) (s : State), v ≠ 0 ∨ s.n (0x2C10 + k.val) 7 ≠ p.id.val →
    exec (.mboxLockRelease p k v) s = .next (s.violate p.id.val)) ∧
  (∀ (c : Fin 33) (w : Word) (s : State),
    let i := 0x2C10 + w.toNat % 2 ^ 14
    let m := (s.corePath c).id.val
    Executes s c .lock w → (s.engine c).posted = [] → s.readOk (s.corePath c) i 6 = true → s.n i 7 < 64 →
    ∃ t, exec (.lock c) s = .next t ∧ t.n i 7 = (if s.n i 7 = 0 then m else s.n i 7) ∧
      ((t.engine c).reg (rdOf w)).toNat = (if s.n i 7 = m then 0 else s.n i 7) ∧
      t.n i 0x10 = (if s.n i 7 = 0 ∨ s.n i 7 = m then s.n i 0x10 else (s.n i 0x10 + 1) % 2 ^ 32) ∧ t.mem = s.mem) ∧
  (∀ (p : Path) (k : Fin 48) (b n : Word) (s : State), s.writeOk p (0x2C10 + k.val) 8 (b.toNat + n.toNat * 2 ^ 32) = true →
    ∃ t, exec (.mboxPost p k b n) s = .next t ∧ t.n (0x2C10 + k.val) 0xA = 2 ∧
      t.n (0x2C10 + k.val) 0xB = (if s.n (0x2C10 + k.val) 0xA = 2 then s.n (0x2C10 + k.val) 0xB else n.toNat) ∧
      (t.chan k).bits = (s.chan k).bits ||| b ∧ t.n (0x2C10 + k.val) 0xF = (s.n (0x2C10 + k.val) 0xF + 1) % 2 ^ 32 ∧
      ObjectsKept s t [(0x2C10 + k.val, 0xA), (0x2C10 + k.val, 0xB), (0x2C10 + k.val, 0xF)] ∧ t.mem = s.mem) ∧
  (∀ (p : Path) (k : Fin 48) (s : State), s.readOk p (0x2C10 + k.val) 0xC = true → s.mboxIntact k = true →
    ∃ t, exec (.mboxDoorbellRead p k) s = .next t ∧ t.n (0x2C10 + k.val) 0xE = 0 ∧
      t.out = s.out ++ [.reply p.id.val (leBytes (s.unmasked k).toNat 4) false] ∧
      ObjectsKept s t [(0x2C10 + k.val, 0xE)] ∧ t.mem = s.mem) ∧
  (∀ (p : Path) (k : Fin 48) (s : State), s.readOk p (0x2C10 + k.val) 0xC = true → s.mboxIntact k = false →
    ∃ t, exec (.mboxDoorbellRead p k) s = .next t ∧ t.n (0x2C10 + k.val) 0xE = 1 ∧
      t.n 0x2C00 6 = (s.n 0x2C00 6 + 1) % 2 ^ 32 ∧ t.bit 0x2C00 1 3 = true ∧ t.mem = s.mem) ∧
  (∀ (p : Path) (k : Fin 48) (v : Word) (s : State), s.writeOk p (0x2C10 + k.val) 0xC v.toNat = true →
    s.n (0x2C10 + k.val) 0xA = 2 →
    ∃ t, exec (.mboxDoorbellClear p k v) s = .next t ∧ (t.chan k).bits = (s.chan k).bits &&& ~~~ v ∧
      t.n (0x2C10 + k.val) 0xA = (if (s.chan k).bits &&& ~~~ v = 0 then 0 else 2) ∧
      ObjectsKept s t [(0x2C10 + k.val, 0xA), (0x2C10 + k.val, 0xB)] ∧ t.mem = s.mem) ∧
  (∀ (p : Path) (k : Fin 48) (v : Word) (s : State), s.writeOk p (0x2C10 + k.val) 0xD v.toNat = true →
    ∃ t, exec (.mboxMaskWrite p k v) s = .next t ∧ t.n (0x2C10 + k.val) 0xD = v.toNat ∧
      t.unmasked k = (s.chan k).bits &&& ~~~ v ∧ ObjectsKept s t [(0x2C10 + k.val, 0xD)] ∧ t.mem = s.mem) ∧
  (∀ (k : Fin 48) (s : State), (s.chan k).zeroing = true →
    ∃ t, exec (.mboxDiscardZeroed k) s = .next t ∧ (t.chan k).zeroing = false ∧ t.n (0x2C10 + k.val) 7 = 0 ∧
      t.n 0x2C00 3 = (s.n 0x2C00 3 + 1) % 2 ^ 32 ∧ t.bit 0x2C00 1 0 = true ∧ t.mem = s.mem)

/-- The recorder (R511–R520): a record of a listed type waits in the queue while the log is being scanned; a commit writes its bytes at
the write position, which moves behind them, with its sequence shown; the scan's end opens the log; a clear begins a new log
at the next sequence; an operating minute counts. Model readings that it
rests on: log entry 44. -/
def Obligations.TheRecorderKeepsItsLog : Prop :=
  (∀ (typ : Half) (b : List Byte) (s : State), recTypes.contains typ.toNat = true → b.length ≤ 236 → s.n 0x2D00 9 = 0 →
    queueBytes s.log.queue + recLen b ≤ 4096 →
    ∃ t, exec (.recordEvent typ b) s = .next t ∧ t.od = s.od ∧ t.mem = s.mem ∧
      t.log.queue = s.log.queue ++ [{ typ := typ.toNat, body := b, minutes := s.n 0x2D00 4, cycles := s.n 0x2D00 5, seq := 0 }]) ∧
  (∀ (r : Rec) (q : List Rec) (s : State), s.n 0x2D00 9 ≠ 0 → s.mramWritable = true → s.log.queue = r :: q → r.seq < 2 ^ 32 →
    s.n 0x2D00 3 + (recBytes r).length < 2 ^ 32 →
    ∃ t, exec .recordCommitted s = .next t ∧ t.log.queue = q ∧ t.n 0x2D00 3 = s.n 0x2D00 3 + (recBytes r).length ∧
      t.n 0x2D00 1 = r.seq ∧ t.bit 0x2D00 0xA 0 = true ∧
      ∀ a, t.byte a = if logBase + s.n 0x2D00 3 ≤ a ∧ a < logBase + s.n 0x2D00 3 + (recBytes r).length
        then (recBytes r).getD (a - (logBase + s.n 0x2D00 3)) 0 else s.byte a) ∧
  (∀ (s : State), s.n 0x2D00 9 = 0 → s.log.queue = [] →
    ∃ t, exec .logScanDone s = .next t ∧ t.n 0x2D00 9 = 1 ∧ t.n 0x2D00 2 = s.logHeadInForce.1.1 ∧
      t.bit 0x2D00 0xA 4 = true ∧ t.mem = s.mem) ∧
  (∀ (p : Path) (v : Word) (s : State), s.writeOk p 0x2D00 8 v.toNat = true → s.log.nextSeq < 2 ^ 32 →
    ∃ t, exec (.logClear p v) s = .next t ∧ t.n 0x2D00 2 = s.log.nextSeq ∧ t.n 0x2D00 1 = s.log.nextSeq ∧
      t.n 0x2D00 7 = (s.n 0x2D00 7 + 1) % 2 ^ 32 ∧ t.log.queue = [] ∧ t.log.nextSeq = (s.log.nextSeq + 1) % 2 ^ 32 ∧
      ∀ a < 0x0600_0000, t.byte a = s.byte a) ∧
  (∀ (s : State), s.minutesRun = true →
    ∃ t, exec .operatingMinute s = .next t ∧ t.n 0x2D00 4 = min (s.n 0x2D00 4 + 1) (2 ^ 32 - 1) ∧
      ∀ a < 0x0600_0000, t.byte a = s.byte a)

/-! ### Supervision, perturbation, the TAP (spec/21, spec/22) -/

/-- Sensors, supplies and pace (R76, R524–R529): a sample shows its readings and a warning latches at once; a supply that leaves its range
holds HOLD_N low, one that returns clears its bit; a window's count is the newest of at most 64; a pace value is its mean over
the factory value in 1/65536, with the margin to the floor. Model readings that it
rests on: log entry 12. -/
def Obligations.SupervisionShowsWhatItMeasures : Prop :=
  (∀ (ts vs : List Half) (s : State), ts.length = 4 → vs.length = 11 →
    (∀ t ∈ ts, t.toInt ≤ 4 * sint (s.n 0x2E00 4)) → s.bit 0x1001 0 3 = false →
    ∃ u, exec (.tempSample ts vs) s = .next u ∧ (∀ m < 11, u.n 0x2E10 (5 + m) = (vs.getD m 0).toNat) ∧
      (∀ k < 4, u.n 0x2E10 (1 + k) = ((ts.getD k 0).signExtend 32).toNat) ∧ u.bit 0x1001 0 3 = false ∧ u.mem = s.mem) ∧
  (∀ (ts vs : List Half) (k : Nat) (s : State), ts.length = 4 → ts.findIdx? (fun t => 4 * sint (s.n 0x2E00 4) < t.toInt) = some k →
    s.bit 0x1001 0 3 = false →
    ∃ u, exec (.tempSample ts vs) s = .next u ∧ u.bit 0x1001 0 3 = true ∧ u.bit 0x2E00 6 3 = true ∧ u.mem = s.mem) ∧
  (∀ (m : Fin 11) (mv : Half) (s : State), s.supplyOk m mv.toNat = false →
    ∃ t, exec (.supplyExcursion m mv) s = .next t ∧ t.bit 0x2E10 0x10 m = true ∧ t.n 0x2E10 (5 + m.val) = mv.toNat ∧
      t.bit 0x2001 2 6 = true ∧ t.n 0x2001 1 ≠ 1 ∧ t.bit 0x1001 0 2 = true ∧ t.bit 0x2E00 6 4 = true ∧ t.mem = s.mem) ∧
  (∀ (m : Fin 11) (mv : Half) (s : State), s.supplyOk m mv.toNat = true →
    (∃ k < 11, k ≠ m.val ∧ s.bit 0x2E10 0x10 k = true) →
    ∃ t, exec (.supplyRecovered m mv) s = .next t ∧ t.bit 0x2E10 0x10 m = false ∧ t.n 0x2E10 (5 + m.val) = mv.toNat ∧
      t.n 0x2001 2 = s.n 0x2001 2 ∧ ObjectsKept s t [(0x2E10, 0x10), (0x2E10, 5 + m.val)] ∧ t.mem = s.mem) ∧
  (∀ (m : Fin 11) (mv : Half) (s : State), s.supplyOk m mv.toNat = true → s.n 0x2E10 0x10 = 2 ^ m.val → s.pw.startWrite = none →
    ∃ t, exec (.supplyRecovered m mv) s = .next t ∧ t.n 0x2E10 0x10 = 0 ∧ t.bit 0x2001 2 6 = false ∧ t.bit 0x1001 0 2 = false ∧
      t.mem = s.mem) ∧
  (∀ (k : Fin 21) (n : Nat) (s : State),
    ∃ t, exec (.paceWindowEnd k n) s = .next t ∧
      tblGet (fun _ => []) k.val t.sup.pace = (n :: tblGet (fun _ => []) k.val s.sup.pace).take 64 ∧
      t.n (0x2E30 + k.val) 4 = (s.n (0x2E30 + k.val) 4 + 1) % 2 ^ 32 ∧ t.mem = s.mem) ∧
  (∀ (f : Word) (s : State), f ≠ 0 → tblGet (fun _ => []) 0 s.sup.pace ≠ [] → s.n 0x2E30 2 ≠ 0 →
    (∀ k, 1 ≤ k → k < 21 → tblGet (fun _ => []) k s.sup.pace = []) →
    let l := tblGet (fun _ => []) 0 s.sup.pace
    ∃ t, exec (.paceUpdate [f]) s = .next t ∧ t.n 0x2E30 1 = l.sum * 65536 / (l.length * f.toNat) % 2 ^ 32 ∧
      t.n 0x2E30 3 = ((BitVec.ofInt 16 ((t.n 0x2E30 1 * 10000 / s.n 0x2E30 2 : Int) - 10000)).signExtend 32).toNat ∧ t.mem = s.mem) ∧
  (∀ (s : State), s.n 0x2D00 9 = 0 → queueBytes s.log.queue + 64 ≤ 4096 →
    ∃ t, exec .marginRecord s = .next t ∧ t.od = s.od ∧ t.mem = s.mem ∧ t.log.queue.length = s.log.queue.length + 1)

/-- Perturbation and the TAP (R530–R533, R558): an arming records itself first and arms when that record is written; one with HOLD_N high
and no test, or twice, is refused and counted; 0 and either timer disarm; the patterns act only while armed; a locked TAP gives its
identity and nothing that debugs. Model readings that it
rests on: log entries 69, 70. -/
def Obligations.PerturbationNeedsArming : Prop :=
  (∀ (p : Path) (v : Word) (s : State), v ≠ 0 → s.writeOk p 0x2E80 1 v.toNat = true → s.n 0x2E80 1 = 0 →
    (s.n 0x2001 1 = 1 → s.n 0x2E80 2 ≠ 0) → s.recordable 0x0801 24 = true →
    ∃ t, exec (.perturbArm p v) s = .next t ∧ t.n 0x2E80 1 = 1 ∧ t.sup.armSeq = some s.log.nextSeq ∧ t.mem = s.mem) ∧
  (∀ (p : Path) (v : Word) (s : State), v ≠ 0 → s.writeOk p 0x2E80 1 v.toNat = true →
    s.n 0x2E80 1 ≠ 0 ∨ (s.n 0x2001 1 = 1 ∧ s.n 0x2E80 2 = 0) →
    ∃ t, exec (.perturbArm p v) s = .next t ∧ t.n 0x2E80 6 = (s.n 0x2E80 6 + 1) % 2 ^ 32 ∧
      ObjectsKept s t [(0x2E80, 6)] ∧ t.mem = s.mem) ∧
  (∀ (q : Nat) (s : State), s.sup.armSeq = some q → s.log.queue.any (fun r => r.seq = q) = false → s.perturbSet 4 = false →
    ∃ t, exec .perturbArmed s = .next t ∧ t.n 0x2E80 1 = 2 ∧ t.n 0x2E80 5 = (s.n 0x2E80 5 + 1) % 2 ^ 32 ∧
      t.bit 0x2E00 6 6 = true ∧ t.sup.armSeq = none ∧ t.sup.autoTimer = true ∧
      ObjectsKept s t [(0x2E80, 1), (0x2E84, 2), (0x2E80, 5), (0x2E00, 6)] ∧ t.mem = s.mem) ∧
  (∀ (p : Path) (s : State), s.writeOk p 0x2E80 1 0 = true → s.n 0x2E80 1 ≠ 0 →
    ∃ t, exec (.perturbDisarm p 0) s = .next t ∧ t.n 0x2E80 1 = 0 ∧ t.bit 0x2E00 6 7 = true ∧ t.sup.armSeq = none ∧
      t.sup.jitter = 0 ∧ t.mem = s.mem) ∧
  (∀ (p : Path) (v : Word) (k : Bool) (s : State), s.keeperWrite p k = true → s.writeOk p 0x2E80 2 v.toNat = true →
    ∃ t, exec (.testInServiceWrite p v k) s = .next t ∧ t.n 0x2E80 2 = v.toNat ∧ t.sup.testTimer = decide (v = 1) ∧ t.mem = s.mem) ∧
  (∀ (s : State), s.sup.testTimer = true → s.n 0x2001 1 ≠ 1 →
    ∃ t, exec .testTimeoutExpiry s = .next t ∧ t.n 0x2E80 2 = 0 ∧ t.sup.testTimer = false ∧ t.n 0x2E80 1 = s.n 0x2E80 1 ∧
      ObjectsKept s t [(0x2E80, 2)] ∧ t.mem = s.mem) ∧
  (∀ (s : State), s.sup.testTimer = true → s.n 0x2001 1 = 1 → s.n 0x2E80 1 ≠ 0 →
    ∃ t, exec .testTimeoutExpiry s = .next t ∧ t.n 0x2E80 2 = 0 ∧ t.n 0x2E80 1 = 0 ∧ t.mem = s.mem) ∧
  (∀ (s : State), s.sup.autoTimer = true → s.n 0x2E80 1 ≠ 0 →
    ∃ t, exec .autoDisarmExpiry s = .next t ∧ t.n 0x2E80 1 = 0 ∧ t.sup.autoTimer = false ∧ t.bit 0x2E00 6 7 = true ∧ t.mem = s.mem) ∧
  (∀ (s : State), s.armed = true → s.n 0x2E81 1 ≠ 0 →
    ∃ t, exec .backpressureSlot s = .next t ∧ t.sup.patternBit = (s.sup.patternBit + 1) % 32 ∧ t.mem = s.mem) ∧
  (∀ (s : State), s.armed = true → s.bit 0x2E86 1 4 = true → s.sup.symbolDone = false →
    ∃ t, exec .symbolInject s = .next t ∧ t.out = s.out ++ [.symbol (fieldOf (s.n 0x2E86 1) 0 2) (s.bit 0x2E86 1 2)] ∧
      t.sup.symbolDone = true ∧ t.n 0x2E80 7 = (s.n 0x2E80 7 + 1) % 2 ^ 32 ∧ ObjectsKept s t [(0x2E80, 7)] ∧ t.mem = s.mem) ∧
  (∀ (s : State), s.armed = true → s.bit 0x2E88 1 2 = true →
    ∃ t, exec .jitterDraw s = .next t ∧ -(s.n 0x2E88 2 : Int) ≤ t.sup.jitter ∧ t.sup.jitter ≤ s.n 0x2E88 2 ∧
      t.n 0x2E80 7 = (s.n 0x2E80 7 + 1) % 2 ^ 32 ∧ ObjectsKept s t [(0x2E80, 7)] ∧ t.mem = s.mem) ∧
  (∀ (s : State), s.armed = false →
    exec .backpressureSlot s = .next s ∧ exec .symbolInject s = .next s ∧ exec .jitterDraw s = .next s) ∧
  (∀ (p : Path) (s : State), p.secure = true →
    ∃ t, exec (.jtagUnlock p true) s = .next t ∧ t.sup.jtagUnlocked = true ∧ t.mem = s.mem) ∧
  (∀ (s : State),
    ∃ t, exec (.jtagInstruction .idcode) s = .next t ∧ t.out = s.out ++ [.tap 0x1841_654F] ∧ t.od = s.od ∧ t.mem = s.mem) ∧
  (∀ (s : State), s.sup.jtagUnlocked = false →
    ∃ t, exec (.jtagInstruction .debug) s = .next t ∧ t.sup.tap = .bypass ∧ t.out = s.out ∧ t.od = s.od ∧ t.mem = s.mem)

/-! ### Hosts (spec/19) -/

/-- PCI Express (R492–R498): the link's state shows in 0x2F40:01 and its changes are latched; a function reset masks and forgets MSI-X and is
counted; an atomic on a bank writes once and answers the old value; an unmasked vector's pending message goes out; host DMA
takes the tail, moves a descriptor's bytes and advances, and an abort before the end says so. Model readings that it
rests on: log entries 149, 150. -/
def Obligations.PcieCommandsAct : Prop :=
  (∀ (w sp : Fin 4) (bm mx : Bool) (s : State), s.coreUp = true → s.host.training = true → s.host.perstLow = false →
    ∃ t, exec (.pcieLinkUp w sp bm mx) s = .next t ∧ t.bit 0x2F40 1 0 = true ∧ t.bit 0x2F40 1 5 = bm ∧ t.bit 0x2F40 1 6 = mx ∧
      (s.bit 0x2F40 1 0 = false → t.bit 0x2F40 6 0 = true) ∧ ObjectsKept s t [(0x2F40, 1), (0x2F40, 6)] ∧ t.mem = s.mem) ∧
  (∀ (s : State), s.bit 0x2F40 1 0 = true →
    ∃ t, exec .pcieLinkDown s = .next t ∧ t.n 0x2F40 1 = 0 ∧ t.bit 0x2F40 6 1 = true ∧
      ObjectsKept s t [(0x2F40, 1), (0x2F40, 6)] ∧ t.mem = s.mem) ∧
  (∀ (s : State),
    ∃ t, exec .pciePerstRelease s = .next t ∧ t.host.perstLow = false ∧ t.host.training = decide (5 ≤ s.n 0x2000 2) ∧
      t.od = s.od ∧ t.mem = s.mem) ∧
  (∀ (s : State), s.coreUp = true →
    ∃ t, exec .pciePerst s = .next t ∧ t.host.perstLow = true ∧ t.host.training = false ∧ t.bit 0x2F40 6 2 = true) ∧
  (∀ (s : State), s.coreUp = true → s.bit 0x2F40 1 0 = true →
    ∃ t, exec .pcieFlr s = .next t ∧ t.host.msixMask = BitVec.allOnes 64 ∧ t.bit 0x2F40 6 2 = true) ∧
  (∀ (s : State), s.coreUp = true → s.host.training = true → s.bit 0x2F40 1 0 = false →
    ∃ t, exec .pcieLinkDownTimeout s = .next t ∧ t.host.msixMask = BitVec.allOnes 64 ∧ t.bit 0x2F40 6 2 = true) ∧
  (∀ (a x : DWord) (wide : Bool) (f : Nat) (s : State), s.coreUp = true → s.dev ≠ 6 → s.bit 0x2F40 1 0 = true →
    let d := s.n 0x2F40 2 + a.toNat
    let k := if wide then 8 else 4
    a.toNat < 0x0800_0000 → regionOf d = .store f → d % k = 0 → s.hasDbe d = false → s.hasSbe d = false →
    ∃ t, exec (.pcieAtomicOp .fetchAdd a wide x) s = .next t ∧ Stored s t d k (s.le d k + x.toNat % 2 ^ (8 * k)) ∧
      t.out = s.out ++ [.reply 34 (leBytes (s.le d k) k) false]) ∧
  (∀ (v : Fin 64) (s : State), bitOf s.host.msixPend.toNat v = true → s.bit 0x2F40 1 5 = true → s.bit 0x2F40 1 6 = true →
    ∃ t, exec (.msixUnmask v) s = .next t ∧ t.out = s.out ++ [.msix v.val] ∧ t.host.msixPend.getLsbD v = false ∧
      t.host.msixMask.getLsbD v = false ∧ t.od = s.od ∧ t.mem = s.mem) ∧
  (∀ (p : Path) (k : Fin 8) (v : Word) (s : State), s.writeOk p (0x2F48 + k.val) 2 v.toNat = true →
    ∃ t, exec (.hostDmaTailWrite p k v) s = .next t ∧ t.n (0x2F48 + k.val) 2 = v.toNat ∧
      ObjectsKept s t [(0x2F48 + k.val, 2)] ∧ t.mem = s.mem) ∧
  (∀ (k : Fin 8) (d : List Byte) (s : State), s.coreUp = true → s.dmaEnabled k d false = true → (s.dmaCh k).flushing = false →
    let a := s.dmaDesc k
    let len := fieldOf (s.w32 (a + 0xC)) 0 24
    let dev := s.w32 (a + 8)
    s.memc.dbe = [] → len % 4 = 0 → len ≠ 0 → dev % 4 = 0 → s.le a 8 % 4 = 0 → bitOf (s.w32 (a + 0xC)) 24 = true →
    s.dmaAllowed dev len false = true →
    ∃ t, exec (.hostDmaDescriptor k d false) s = .next t ∧ t.n (0x2F48 + k.val) 3 = (s.n (0x2F48 + k.val) 3 + 1) % 2 ^ 16 ∧
      t.n (0x2F48 + k.val) 8 = 0 ∧ t.n (0x2F48 + k.val) 5 = (s.n (0x2F48 + k.val) 5 + 1) % 2 ^ 32 ∧
      Out.hostWrite (s.le a 8) (s.bytes dev len) ∈ t.out) ∧
  (∀ (p : Path) (k : Fin 8) (s : State), s.writeOk p (0x2F48 + k.val) 4 1 = true → s.dmaOn k = true → s.dmaReady k = true →
    (s.dmaCh k).flushing = false →
    ∃ t, exec (.hostDmaAbort p k 1 true) s = .next t ∧ t.n (0x2F48 + k.val) 4 = 2 ∧
      ObjectsKept s t [(0x2F48 + k.val, 4)] ∧ t.mem = s.mem)

/-- Quad-SPI (R500–R502): identity and status are answered at once; a read gives VALID and its bytes, a late one answers with VALID 0
and is counted; a write stores its words; an atomic writes once and leaves the old value for RESULT; RESET acts only after
RESET_ENABLE; an unknown opcode does nothing. Model readings that it
rests on: log entries 151, 152, 153. -/
def Obligations.QspiCommandsAct : Prop :=
  (∀ (s : State), s.coreUp = true →
    ∃ t, exec .qspiReadId s = .next t ∧ t.out = s.out ++ [.qspi ([0x16, 0x84, 0xB0] ++ leBytes (s.n 0x2000 8) 8)] ∧
      t.od = s.od ∧ t.mem = s.mem) ∧
  (∀ (s : State), s.coreUp = true →
    ∃ t v, exec .qspiReadStatus s = .next t ∧ t.out = s.out ++ [.qspi [v]] ∧ v.getLsbD 0 = s.qspiBusy ∧
      v.getLsbD 1 = s.host.qDropped ∧ t.host.qDropped = false ∧ t.od = s.od ∧ t.mem = s.mem) ∧
  (∀ (a : Word) (f : Nat) (s : State), s.coreUp = true → s.dev ≠ 6 → s.qspiBusy = false → regionOf a.toNat = .store f →
    a.toNat % 4 = 0 → s.hasDbe a.toNat = false → s.hasSbe a.toNat = false →
    ∃ t, exec (.qspiRead a 4 false) s = .next t ∧ t.out = s.out ++ [.qspi (1 :: s.bytes a.toNat 4)] ∧ t.od = s.od ∧ t.mem = s.mem) ∧
  (∀ (a : Word) (f n : Nat) (s : State), s.coreUp = true → s.qspiBusy = false → regionOf a.toNat = .store f → n ≤ 4 →
    a.toNat % 4 = 0 → s.hasDbe a.toNat = false → s.hasSbe a.toNat = false →
    ∃ t, exec (.qspiRead a n true) s = .next t ∧ t.out = s.out ++ [.qspi (0 :: zeros n)] ∧
      t.n 0x2F41 1 = (s.n 0x2F41 1 + 1) % 2 ^ 32 ∧ t.mem = s.mem) ∧
  (∀ (a : Word) (f : Nat) (d : List Byte) (s : State), s.coreUp = true → s.dev ≠ 6 → s.qspiBusy = false →
    regionOf a.toNat = .store f → a.toNat % 4 = 0 → d.length = 4 → s.hasDbe a.toNat = false →
    ∃ t, exec (.qspiWrite a d) s = .next t ∧ t.od = s.od ∧
      ∀ b, t.byte b = if a.toNat ≤ b ∧ b < a.toNat + 4 then d.getD (b - a.toNat) 0 else s.byte b) ∧
  (∀ (a : Word) (d : List Byte) (s : State), s.coreUp = true → s.dev ≠ 6 → s.qspiBusy = true →
    ∃ t, exec (.qspiWrite a d) s = .next t ∧ t.host.qDropped = true ∧ t.n 0x2F41 2 = (s.n 0x2F41 2 + 1) % 2 ^ 32 ∧ t.mem = s.mem) ∧
  (∀ (a : Word) (wide : Bool) (x : DWord) (f : Nat) (s : State),
    let k := if wide then 8 else 4
    s.coreUp = true → s.dev ≠ 6 → s.qspiBusy = false → regionOf a.toNat = .store f → a.toNat % k = 0 →
    s.hasDbe a.toNat = false → s.hasSbe a.toNat = false →
    (∃ t, exec (.qspiAtomicAdd a wide x) s = .next t ∧ t.host.qResult = some (BitVec.ofNat 64 (s.le a.toNat k), false) ∧
      Stored s t a.toNat k (s.le a.toNat k + x.toNat % 2 ^ (8 * k))) ∧
    ∃ t, exec (.qspiAtomicSwap a wide x) s = .next t ∧ t.host.qResult = some (BitVec.ofNat 64 (s.le a.toNat k), false) ∧
      Stored s t a.toNat k (x.toNat % 2 ^ (8 * k))) ∧
  (∀ (v : DWord) (bad : Bool) (s : State), s.coreUp = true → s.qspiBusy = false → s.host.qResult = some (v, bad) →
    ∃ t, exec .qspiAtomicResult s = .next t ∧ t.out = s.out ++ [.qspi ((if bad then 3 else 1) :: leBytes v.toNat 8)] ∧
      t.od = s.od ∧ t.mem = s.mem) ∧
  (∀ (s : State), s.coreUp = true →
    ∃ t, exec .qspiResetEnable s = .next t ∧ t.host.qResetEnabled = true ∧ t.od = s.od ∧ t.mem = s.mem) ∧
  (∀ (s : State), s.coreUp = true → s.host.qResetEnabled = true →
    ∃ t, exec .qspiReset s = .next t ∧ t.host.qResetEnabled = false ∧ t.host.qResult = none ∧ t.bit 0x2F40 6 3 = true) ∧
  (∀ (s : State), s.host.qResetEnabled = false →
    ∃ t, exec .qspiReset s = .next t ∧ t.od = s.od ∧ t.mem = s.mem ∧ t.host.qResult = s.host.qResult) ∧
  (∀ (op : Byte) (s : State), op ∉ ([0x9F, 0x05, 0x0B, 0x02, 0x3A, 0x3B, 0x3C, 0x66, 0x99] : List Byte) →
    ∃ t, exec (.qspiUnknownOpcode op) s = .next t ∧ t.od = s.od ∧ t.mem = s.mem ∧ t.out = s.out)

/-! ### Sessions, field network instances, networks (spec/14, spec/19) -/

/-- Secure sessions (R503–R505): OPEN begins an exchange, a valid PROVE opens the session, an OD_ACCESS writes an object that only secure
paths write, CLOSE and idleness end it; a message that fails its check is counted and changes no session's state. Model readings that it
rests on: log entries 138, 139, 143, 144. -/
def Obligations.SessionsOpenAndEnd : Prop :=
  (∀ (c : Fin 4) (s : State), s.sessionPosted c 1 = true → s.mboxIntact (44 + c.val) = true → 16 ≤ s.n (0x2C10 + 44 + c.val) 0xB →
    s.sessionState c = 0 →
    let m := smsgOf false (s.bytes (areaOf (44 + c.val)) (s.n (0x2C10 + 44 + c.val) 0xB))
    ∃ t, exec (.sessionOpen c) s = .next t ∧ t.sessionState c = 1 ∧ (t.session c).counter = m.counter ∧
      (t.session c).path = s.sessionPath (44 + c.val) ∧ t.n (0x2C10 + 44 + c.val) 0xA = 0) ∧
  (∀ (c : Fin 4) (s : State), s.sessionPosted c 2 = true → s.mboxIntact (44 + c.val) = true → 16 ≤ s.n (0x2C10 + 44 + c.val) 0xB →
    s.sessionState c = 1 →
    let m := smsgOf false (s.bytes (areaOf (44 + c.val)) (s.n (0x2C10 + 44 + c.val) 0xB))
    m.session = (s.session c).number → (s.session c).counter < m.counter → (s.session c).keySlot < 8 →
    s.n (0x2F58 + (s.session c).keySlot) 0x11 = 1 →
    ∃ t, exec (.sessionProve c true) s = .next t ∧ t.sessionState c = 2 ∧ (t.session c).counter = m.counter ∧
      t.n 0x2F50 6 = (s.n 0x2F50 6 + 1) % 2 ^ 32 ∧ t.bit 0x2F40 6 24 = true ∧ t.n (0x2C10 + 44 + c.val) 0xA = 0) ∧
  (∀ (c : Fin 4) (s : State), s.sessionPosted c 2 = true → s.mboxIntact (44 + c.val) = true → 16 ≤ s.n (0x2C10 + 44 + c.val) 0xB →
    s.sessionState c = 1 → (s.session c).refusals = 0 →
    ∃ t, exec (.sessionProve c false) s = .next t ∧ t.sessionState c = 1 ∧ (t.session c).refusals = 1 ∧
      t.n 0x2F50 7 = (s.n 0x2F50 7 + 1) % 2 ^ 32 ∧ t.bit 0x2F40 6 26 = true) ∧
  (∀ (c : Fin 4) (v : Nat) (s : State), s.sessionPosted c 3 = true → s.mboxIntact (44 + c.val) = true → s.sessionState c = 2 →
    let m := smsgOf false (s.bytes (areaOf (44 + c.val)) (s.n (0x2C10 + 44 + c.val) 0xB))
    m.session = (s.session c).number → (s.session c).counter < m.counter → s.n (0x2C10 + 44 + c.val) 0xB = 44 →
    (odOps (numOf false) (m.body.take 12)).map (fun x => (x.op, x.idx, x.sub, x.val)) = [(2, 0x2E00, 3, v)] →
    1 ≤ v → v ≤ 20 → s.dev = 1 → s.n 0x2F42 3 = 0 →
    ∃ t, exec (.sessionOdAccess c true) s = .next t ∧ t.n 0x2E00 3 = v ∧ (t.session c).counter = m.counter ∧
      t.sessionState c = 2 ∧ t.n (0x2C10 + 44 + c.val) 0xA = 0) ∧
  (∀ (c : Fin 4) (s : State), s.sessionPosted c 4 = true → s.mboxIntact (44 + c.val) = true → 16 ≤ s.n (0x2C10 + 44 + c.val) 0xB →
    s.sessionState c = 2 →
    let m := smsgOf false (s.bytes (areaOf (44 + c.val)) (s.n (0x2C10 + 44 + c.val) 0xB))
    m.session = (s.session c).number → (s.session c).counter < m.counter →
    ∃ t, exec (.sessionClose c true) s = .next t ∧ t.sessionState c = 0 ∧ t.bit 0x2F40 6 25 = true) ∧
  (∀ (c : Fin 4) (s : State), s.sessionState c = 2 →
    ∃ t, exec (.sessionIdleTimeout c) s = .next t ∧ t.sessionState c = 0 ∧ t.bit 0x2F40 6 25 = true ∧ t.mem = s.mem)

/-- Field network instances and their object access (R398–R405): a start that a cause forbids shows STATE 3 and the cause, any other
shows STATE 1, zeroes its store area and loads its engines; when they are loaded, the image's objects exist and STATE is 2; a
stop frees all. A connection's selector and value reach the object; a PRIVATE entry is read and written at its LOCATION. Model readings that it
rests on: log entries 47, 159, 161, 162. -/
def Obligations.InstancesAndNetworksAct : Prop :=
  (∀ (p : Path) (n : Fin 6) (c : Nat) (s : State), s.writeOk p (instBase n) 6 1 = true → s.instHolds n = false →
    s.startCause n = some c →
    ∃ t, exec (.instanceStart p n) s = .next t ∧ t.instState n = 3 ∧ t.instN n 8 = c ∧
      ObjectsKept s t [(instBase n, 7), (instBase n, 8)] ∧ t.mem = s.mem) ∧
  (∀ (p : Path) (n : Fin 6) (f : ImageForm) (s : State), s.writeOk p (instBase n) 6 1 = true → s.instHolds n = false →
    s.startCause n = none → imageForm (s.instN n 1) (s.instN n 3) (s.instN n 4) = some f → s.instN n 2 < 32 →
    ∃ t, exec (.instanceStart p n) s = .next t ∧ t.instState n = 1 ∧ t.instN n 8 = 0 ∧
      t.n (0x2400 + s.instN n 2) 1 = 4 ∧ t.n (0x2400 + s.instN n 2) 3 = s.instN n 1 ∧
      let a := 0x0D00_0000 + s.instN n 2 / 4 * 0x4_0000 + t.instN n 0xD
      ∀ b, a ≤ b → b < a + f.store → t.byte b = 0) ∧
  (∀ (n : Fin 6) (l : List InstObj) (binds : List (Fin 32 × Half × Half)) (s : State), s.instState n = 1 →
    (∀ k < (s.inst n).engines, s.coreState (s.instN n 2 + k) ≠ 4 ∧ s.n (0x2400 + (s.instN n 2 + k)) 0xD = 1) →
    (s.findImage (s.instN n 1)).bind (s.objTable n) = some l →
    ∃ t, exec (.instanceStartDone n binds) s = .next t ∧ t.instState n = 2 ∧ (t.inst n).objs = l) ∧
  (∀ (p : Path) (n : Fin 6) (s : State), s.writeOk p (instBase n) 6 2 = true → s.instState n ≠ 0 →
    ∃ t, exec (.instanceStop p n) s = .next t ∧ t.instState n = 0 ∧ t.instN n 8 = 0 ∧ t.instN n 0xD = 0 ∧ t.inst n = {}) ∧
  (∀ (n : Fin 6) (conn : Nat) (v : Word) (s : State), s.netServes n = true → selectorImage (s.instN n 1) = true →
    ∃ t, exec (.networkOdAccess n conn (.select v)) s = .next t ∧ t.netSel n conn = v.toNat ∧
      t.out = s.out ++ [.network []] ∧ t.od = s.od ∧ t.mem = s.mem) ∧
  (∀ (n : Fin 6) (conn : Nat) (i : Half) (j : Byte) (s : State), s.netServes n = true → sdoImage (s.instN n 1) = true →
    i.toNat < 0x1000 ∨ 0x1FFF < i.toNat → i.toNat < 0x6000 → s.isWide i.toNat j.toNat = false →
    s.readOk (s.netPath n) i.toNat j.toNat = true → s.rxTaken i.toNat j.toNat = false →
    s.odReadEffect (s.netPath n) i.toNat j.toNat = none → s.odLive i.toNat j.toNat = none →
    ∃ t, exec (.networkOdAccess n conn (.sdo i j none)) s = .next t ∧
      t.out = s.out ++ [.network (leBytes (s.n i.toNat j.toNat) 4)] ∧ t.od = s.od ∧ t.mem = s.mem) ∧
  (∀ (n : Fin 6) (conn : Nat) (s : State), s.netServes n = true → s.instN n 1 = 0x010A →
    let i := selIdx (s.netSel n conn)
    let j := selSub (s.netSel n conn)
    i < 0x1000 ∨ 0x1FFF < i → i < 0x6000 → s.isWide i j = true → s.readOk (s.netPath n) i j = true →
    s.rxTaken i j = false → s.odReadEffect (s.netPath n) i j = none → s.odLive i j = none →
    ∃ t, exec (.modbusValueRead n conn) s = .next t ∧ tblGet (fun _ => 0) conn (t.inst n).latch = s.rd i j ∧
      t.out = s.out ++ [.network (leBytes (s.n i j / 2 ^ 48) 2)] ∧ t.od = s.od ∧ t.mem = s.mem) ∧
  (∀ (n : Fin 6) (conn : Nat) (v : Half) (s : State), s.netServes n = true → s.instN n 1 = 0x010A →
    let i := selIdx (s.netSel n conn)
    let j := selSub (s.netSel n conn)
    let w := fun k => tblGet (fun _ => 0) (conn * 4 + k) (s.inst n).regs
    let x := w 0 * 2 ^ 48 + w 1 * 2 ^ 32 + w 2 * 2 ^ 16 + v.toNat
    let s1 := s.setInst n { s.inst n with regs := tblClear (conn * 4) (conn * 4 + 4) (s.inst n).regs }
    i < 0x1000 ∨ 0x1FFF < i → s.isWide i j = true → x < 2 ^ 64 →
    ∃ t u, exec (.modbusValueCommit n conn v) s = .next t ∧
      exec (.odWrite (s.netPath n) (BitVec.ofNat 16 i) (BitVec.ofNat 8 j) (BitVec.ofNat 64 x)) s1 = .next u ∧
      t.od = u.od ∧ t.mem = u.mem ∧ t.out = u.out ++ [.network []]) ∧
  (∀ (p : Path) (n : Fin 6) (o : InstObj) (v : DWord) (f : Nat) (s : State), s.privSelected n = some o →
    s.writeOk p (instBase n) 0xA v.toNat = true → regionOf o.loc = .store f → s.hasDbe o.loc = false →
    ∃ t, exec (.privateValueAccess p n (some v)) s = .next t ∧ Stored s t o.loc o.bytes v.toNat ∧ t.od = s.od) ∧
  (∀ (p : Path) (n : Fin 6) (o : InstObj) (s : State), s.privSelected n = some o → s.readOk p (instBase n) 0xA = true →
    o.isStr = false → s.memc.dbe = [] →
    ∃ t, exec (.privateValueAccess p n none) s = .next t ∧
      t.out = s.out ++ [.reply p.id.val (leBytes (o.slot (s.le o.loc o.bytes)) 8) false] ∧ t.od = s.od ∧ t.mem = s.mem)

/-! ### Chords and links (spec/06, spec/07) -/

/-- Splice tables (R176–R181): a commit starts a load or is held while one runs; a load gives the table its entries spell or a
rejection with the first fault; the checked table becomes active at an SFD and counts; settings apply at a frame boundary. A good
frame passes with its counter, its nibbles replaced as an entry says and its FCS anew; a direction that does not forward counts it; a
capture is written with its sequence number last. Model readings that it
rests on: log entries 31, 82. -/
def Obligations.ChordsSpliceAndCapture : Prop :=
  (∀ (p : Path) (d : Fin 16) (v : Half) (s : State), s.writeOk p (0x2500 + d.val) 0xA v.toNat = true → (s.chordOf d).loading = none →
    ∃ t, exec (.spliceCommit p d v) s = .next t ∧ (t.chordOf d).loading = some v.toNat ∧ (t.chordOf d).ready = none ∧
      (t.chordOf d).table = (s.chordOf d).table ∧ t.n (0x2500 + d.val) 0xA = v.toNat ∧ t.n (0x2500 + d.val) 0xB = 1 ∧
      ObjectsKept s t [(0x2500 + d.val, 0xA), (0x2500 + d.val, 0xB)] ∧ t.mem = s.mem) ∧
  (∀ (p : Path) (d : Fin 16) (v : Half) (s : State), s.writeOk p (0x2500 + d.val) 0xA v.toNat = true → (s.chordOf d).loading ≠ none →
    ∃ t, exec (.spliceCommit p d v) s = .next t ∧ (t.chordOf d).held = some v.toNat ∧ (t.chordOf d).loading = (s.chordOf d).loading ∧
      ObjectsKept s t [(0x2500 + d.val, 0xA)] ∧ t.mem = s.mem) ∧
  (∀ (d : Fin 16) (v : Nat) (s : State), (s.chordOf d).loading = some v → (s.chordOf d).held = none → s.memc.dbe = [] →
    let a := s.chordStore d (s.n (0x2500 + d.val) 5 + fieldOf v 8 1 * 0x1000)
    let tab := (List.range (fieldOf v 0 7)).map (fun k =>
      (List.range 8).map (fun j => BitVec.ofNat 32 (s.w32 (a + 32 * k + 4 * j))))
    ∃ t, exec (.spliceLoadDone d) s = .next t ∧ (t.chordOf d).loading = none ∧ (t.chordOf d).table = (s.chordOf d).table ∧
      t.mem = s.mem ∧
      (tableFault 0 [] tab = none →
        (t.chordOf d).ready = some (tab, if tab.any entPool then s.bytes (a + 0x800) 2048 else []) ∧ t.od = s.od) ∧
      (∀ k < 256, tableFault 0 [] tab = some k → t.n (0x2500 + d.val) 0xB = 3 ∧ t.n (0x2500 + d.val) 0xC = k ∧
        t.bit 0x2510 1 16 = true ∧ (t.chordOf d).ready = (s.chordOf d).ready)) ∧
  (∀ (d : Fin 16) (tab : List (List Word)) (pool : List Byte) (s : State), (s.chordOf d).ready = some (tab, pool) →
    ∃ t, exec (.spliceTableActivate d) s = .next t ∧ (t.chordOf d).table = tab ∧ (t.chordOf d).pool = pool ∧
      (t.chordOf d).ready = none ∧ t.n (0x2500 + d.val) 0xB = 2 ∧
      t.n (0x2500 + d.val) 0xD = (s.n (0x2500 + d.val) 0xD + 1) % 2 ^ 32 ∧ t.bit 0x2510 1 19 = true ∧
      ObjectsKept s t [(0x2500 + d.val, 0xB), (0x2500 + d.val, 0xD), (0x2510, 1)] ∧ t.mem = s.mem) ∧
  (∀ (d : Fin 8) (s : State),
    ∃ t, exec (.chordConfigApply d) s = .next t ∧ (t.chordOf d).enable = decide (s.n (0x2500 + d.val) 1 = 1) ∧
      (t.chordOf d).egress = s.n (0x2500 + d.val) 2 ∧ (t.chordOf d).gate = s.n (0x2500 + d.val) 7 ∧
      (t.chordOf d).copy = decide (s.n (0x2500 + d.val) 3 = 1) ∧ t.mem = s.mem) ∧
  (∀ (d : Fin 8) (data : List Byte) (ago delay : Nat) (phase : Fin 8) (s : State), (s.chordOf d).ready = none → s.chordNow d = 2 →
    (s.chordOf d).egress < 12 → (s.chordOf d).table = [] → fcsGood data = true →
    ∃ t, exec (.chordFrame d data none true ago phase delay 0) s = .next t ∧ Out.frame (s.chordOf d).egress data false ∈ t.out ∧
      t.n (0x2500 + d.val) 0xE = (s.n (0x2500 + d.val) 0xE + 1) % 2 ^ 32 ∧ t.mem = s.mem) ∧
  (∀ (d : Fin 8) (data : List Byte) (e : List Word) (ago delay : Nat) (phase : Fin 8) (s : State), (s.chordOf d).ready = none →
    s.chordNow d = 2 → (s.chordOf d).egress < 12 → (s.chordOf d).table = [e] → fcsGood data = true → s.chordStale d = false →
    bitOf (s.chordOf d).gate 16 = false → entOp e = 1 → entPool e = false → entMatch e = false →
    let f := nibsOf (data.take (data.length - 4))
    entAt e + entLen e ≤ f.length →
    let g := f.take (entAt e) ++ (List.range (entLen e)).map (fun i => BitVec.ofNat 4 (entOperand e / 16 ^ i)) ++
      f.drop (entAt e + entLen e)
    ∃ t, exec (.chordFrame d data none true ago phase delay 0) s = .next t ∧ t.mem = s.mem ∧
      Out.frame (s.chordOf d).egress (bytesOf (g ++ nibsOf (leBytes (crc32 (bytesOf g)).toNat 4))) false ∈ t.out) ∧
  (∀ (d : Fin 8) (data : List Byte) (ago delay : Nat) (phase : Fin 8) (s : State), (s.chordOf d).ready = none →
    (s.chordOf d).enable = true → s.chordNow d ≠ 2 →
    ∃ t, exec (.chordFrame d data none true ago phase delay 0) s = .next t ∧
      t.n (0x2500 + d.val) 0x11 = (s.n (0x2500 + d.val) 0x11 + 1) % 2 ^ 32 ∧
      ObjectsKept s t [(0x2500 + d.val, 0x11), (0x2510, 1)] ∧ t.mem = s.mem) ∧
  (∀ (d : Fin 16) (len time o : Nat) (l : List Byte) (s : State), (s.chordOf d).capture = some (len, time, [(o, l)]) →
    s.memc.dbe = [] → o + l.length ≤ 4080 →
    let a := s.chordStore d (s.n (0x2500 + d.val) 6)
    (∀ b < 0x1000, ∃ f, regionOf (a + b) = .store f) →
    ∃ t, exec (.chordCaptureWrite d) s = .next t ∧ (t.chordOf d).capture = none ∧ t.od = s.od ∧
      t.w32 a = (if 0xFFFF_FFFE ≤ s.w32 a then 0 else s.w32 a + 1) ∧ t.w32 (a + 4) = len % 2 ^ 16 ∧
      t.w32 (a + 8) = time % 2 ^ 32 ∧ t.bytes (a + 0x10 + o) l.length = l)

/-- Links (R192–R199): a link comes up at the speed its source reports, or says that it does not support it; it goes down with its
event and count; changed settings apply with the link down, frame settings at the next SFD; the SerDes lock shows; an MDIO frame
carries its operation and its end gives a read its data; a poll reports the partners' speed and takes a changed link down. -/
def Obligations.LinksFollowTheirSources : Prop :=
  (∀ (p : Fin 12) (told : Fin 8) (s : State), s.linkUp p = false → s.portN p 1 ≠ 0 → s.linkCfg p 2 ≠ 0 → s.sourceSpeed p told ≠ 0 →
    ifaceSpeed (s.linkCfg p 2) (s.sourceSpeed p told) = true →
    ∃ t, exec (.linkUp p told) s = .next t ∧ t.linkUp p = true ∧ t.speedOf p = s.sourceSpeed p told ∧
      t.bit (0x2300 + p.val) 0x19 0 = true ∧ t.mem = s.mem) ∧
  (∀ (p : Fin 12) (told : Fin 8) (s : State), s.linkUp p = false → s.portN p 1 ≠ 0 → s.linkCfg p 2 ≠ 0 → s.sourceSpeed p told ≠ 0 →
    ifaceSpeed (s.linkCfg p 2) (s.sourceSpeed p told) = false →
    ∃ t, exec (.linkUp p told) s = .next t ∧ t.linkUp p = false ∧ t.bit (0x2300 + p.val) 0x19 3 = true ∧
      ObjectsKept s t [(0x2300 + p.val, 0x19)] ∧ t.mem = s.mem) ∧
  (∀ (p : Fin 12) (s : State), s.linkUp p = true → (s.port p).cur = none →
    ∃ t, exec (.linkDown p none) s = .next t ∧ t.linkUp p = false ∧ t.bit (0x2300 + p.val) 0x19 1 = true ∧
      t.n (0x2310 + p.val) 0x2C = (s.n (0x2310 + p.val) 0x2C + 1) % 2 ^ 32 ∧ t.mem = s.mem) ∧
  (∀ (p : Fin 12) (s : State), s.linkCfgDiffers p = true → (s.port p).cur = none →
    ∃ t, exec (.portLinkConfigChange p) s = .next t ∧ t.linkUp p = false ∧
      (∀ j, 2 ≤ j → j ≤ 8 → t.linkCfg p j = s.portN p j) ∧ t.mem = s.mem) ∧
  (∀ (p : Fin 12) (s : State),
    (∃ t, exec (.portFrameConfigApply p false) s = .next t ∧
      (∀ j ∈ [0xC, 0xD, 0x14, 0x15, 0x16], t.rxCfg p j = s.portN p j ∧ t.txCfg p j = s.txCfg p j) ∧ t.od = s.od ∧ t.mem = s.mem) ∧
    ∃ t, exec (.portFrameConfigApply p true) s = .next t ∧
      (∀ j ∈ [0xC, 0xD, 0x14, 0x15, 0x16], t.txCfg p j = s.portN p j ∧ t.rxCfg p j = s.rxCfg p j) ∧ t.od = s.od ∧ t.mem = s.mem) ∧
  (∀ (n : Fin 4) (s : State), s.portN (8 + n.val) 1 = 1 →
    ∃ t, exec (.serdesLockAcquired n) s = .next t ∧ t.bit (0x2308 + n.val) 9 4 = true ∧
      ObjectsKept s t [(0x2308 + n.val, 9)] ∧ t.mem = s.mem) ∧
  (∀ (n : Fin 4) (s : State), s.bit (0x2308 + n.val) 9 4 = true → (s.port (8 + n.val)).cur = none →
    ∃ t, exec (.serdesLockLost n none) s = .next t ∧ t.bit (0x2308 + n.val) 9 4 = false ∧ t.linkUp (8 + n.val) = false ∧
      t.bit (0x2308 + n.val) 0x19 9 = true ∧ t.mem = s.mem) ∧
  (∀ (q : Path) (m : Fin 2) (phy reg : BitVec 5) (data : Half) (c : Instr) (op : Nat) (s : State),
    (c, op) ∈ [(Instr.mdioC22Write q m phy reg data, 1), (Instr.mdioC22Read q m phy reg data, 2),
      (Instr.mdioC45Address q m phy reg data, 3), (Instr.mdioC45Write q m phy reg data, 4),
      (Instr.mdioC45Read q m phy reg data, 5), (Instr.mdioC45ReadIncrement q m phy reg data, 6)] →
    s.writeOk q (0x2330 + m.val) 2 (mdioWord op phy reg data) = true →
    ∃ t, exec c s = .next t ∧ t.out = s.out ++ [.mdio m op phy.toNat reg.toNat data.toNat] ∧ t.bit (0x2330 + m.val) 3 0 = true ∧
      t.n (0x2330 + m.val) 2 = mdioWord op phy reg data ∧
      ObjectsKept s t [(0x2330 + m.val, 2), (0x2330 + m.val, 3)] ∧ t.mem = s.mem) ∧
  (∀ (m : Fin 2) (data : Half) (s : State), s.bit (0x2330 + m.val) 3 0 = true →
    ∃ t, exec (.mdioFrameEnd m data) s = .next t ∧ t.bit (0x2330 + m.val) 3 0 = false ∧
      t.n (0x2330 + m.val) 3 / 2 ^ 16 =
        (if (s.mdioOf m).op ∈ [2, 5, 6] then data.toNat else s.n (0x2330 + m.val) 3 / 2 ^ 16) ∧
      ObjectsKept s t [(0x2330 + m.val, 3)] ∧ t.mem = s.mem) ∧
  (∀ (p : Fin 8) (r1 r4 r5 r9 r10 : Half) (s : State),
    let phy := s.linkCfg p 4
    let m := fieldOf phy 8 1
    let sp := if r1.getLsbD 2 then pollSpeed r4.toNat r5.toNat r9.toNat r10.toNat else 0
    s.portN p 1 = 1 → fieldOf (s.linkCfg p 3) 4 2 = 1 → s.bit (0x2330 + m) 3 0 = false →
    (s.linkUp p = false ∨ sp = s.speedOf p →
      ∃ t, exec (.mdioPoll p r1 r4 r5 r9 r10 none) s = .next t ∧ (t.port p).report = sp ∧ t.od = s.od ∧ t.mem = s.mem ∧
        t.out = s.out ++ [1, 4, 5, 9, 10].map (fun r => .mdio m 2 (fieldOf phy 0 5) r 0)) ∧
    (s.linkUp p = true → sp ≠ s.speedOf p →
      ∃ t, exec (.mdioPoll p r1 r4 r5 r9 r10 none) s = .next t ∧ t.linkUp p = false ∧ (t.port p).report = sp ∧ t.mem = s.mem))

/-! ### Ports: received frames, pause, preemption, transmission, gates (spec/07, spec/08, spec/09) -/

/-- Receiving (R200–R214): a frame has its one result, counted and handed on with it; a pause request pends and then pauses or releases
the classes it names; a pause ends at its expiry, is refreshed while asserted and is broken by the watchdog until resumed; verify
sends at most three times and its outcome shows. Model readings that it
rests on: log entry 71. -/
def Obligations.PortsReceiveAndPause : Prop :=
  (∀ (p : Fin 12) (d : List Byte) (s : State), s.pw.sleep ≠ .standby → s.linkUp p = true →
    rxResult d none (s.rxCfg p 0xC) = .good → be16 d 12 ≠ 0x8808 → s.wakeMatch p d = 0 → (s.port p).rxDone = none →
    ∃ t, exec (.portFrameReceived p d none 0 0) s = .next t ∧ (t.port p).rxDone = some (d.take (d.length - 4), true) ∧
      t.n (0x2310 + p.val) 1 = (s.n (0x2310 + p.val) 1 + 1) % 2 ^ 32 ∧ t.mem = s.mem) ∧
  (∀ (p : Fin 12) (d : List Byte) (er : Option Nat) (s : State), s.pw.sleep ≠ .standby → s.linkUp p = true →
    rxResult d er (s.rxCfg p 0xC) = .fcs → s.wakeMatch p d = 0 → (s.port p).rxDone = none →
    ∃ t, exec (.portFrameReceived p d er 0 0) s = .next t ∧
      (t.port p).rxDone = some ((d.take (s.rxCfg p 0xC)).take (d.length - 4), false) ∧
      t.n (0x2310 + p.val) 0xB = (s.n (0x2310 + p.val) 0xB + 1) % 2 ^ 32 ∧ t.mem = s.mem) ∧
  (∀ (p : Fin 12) (d : List Byte) (s : State), s.pw.sleep ≠ .standby → s.linkUp p = true →
    rxResult d none (s.rxCfg p 0xC) = .good → be16 d 12 = 0x8808 → s.wakeMatch p d = 0 → mac48 d 0 = 0x0180C2000001 →
    be16 d 14 = 1 → bitOf (s.rxCfg p 0xD) 2 = false → bitOf (s.rxCfg p 0xD) 0 = true → s.chordEgress p = none →
    ∃ t, exec (.portFrameReceived p d none 0 0) s = .next t ∧ t.mem = s.mem ∧
      (t.port p).pauseReq = some (if be16 d 16 = 0 then (0, 0xFF) else (0xFF, 0)) ∧
      t.n (0x2310 + p.val) 0x12 = (s.n (0x2310 + p.val) 0x12 + 1) % 2 ^ 32) ∧
  (∀ (p : Fin 12) (on off : Nat) (s : State), (s.port p).pauseReq = some (on, off) →
    ∃ t, exec (.pauseRequestReceived p) s = .next t ∧ (t.port p).pauseReq = none ∧
      (t.port p).paused = ((s.port p).paused - ((s.port p).paused &&& off)) ||| (on - (on &&& (s.port p).ignored)) ∧
      t.bit (0x2300 + p.val) 9 7 = decide ((t.port p).paused ≠ 0) ∧ ObjectsKept s t [(0x2300 + p.val, 9)] ∧ t.mem = s.mem) ∧
  (∀ (p : Fin 12) (c : Fin 8) (s : State), (s.port p).paused < 256 →
    ∃ t, exec (.pauseExpiry p c) s = .next t ∧
      (∀ k < 8, bitOf (t.port p).paused k =
        (bitOf (s.port p).paused k && bitOf (s.rxCfg p 0xD) 2 && decide (k ≠ c.val))) ∧
      ObjectsKept s t [(0x2300 + p.val, 9)] ∧ t.mem = s.mem) ∧
  (∀ (p : Fin 12) (c : Fin 8) (s : State), s.bit (0x2250 + p.val) 7 c = true → s.portN p 0xF ≠ 0 → s.fcSends p c = true →
    s.linkUp p = true → s.chordEgress p = none →
    ∃ t, exec (.pauseRefreshTimer p c) s = .next t ∧ t.od = s.od ∧ t.mem = s.mem ∧
      (t.port p).pauseQ = (s.port p).pauseQ ++
        [(s.pauseFrame p (s.portN p 0xE) (2 ^ c.val) (bitOf (s.txCfg p 0xD) 2), bitOf (s.txCfg p 0xD) 2)]) ∧
  (∀ (p : Fin 12) (c : Fin 8) (s : State), bitOf (s.port p).paused c = true → s.portN p 0x10 ≠ 0 →
    ∃ t, exec (.pauseWatchdogExpiry p c) s = .next t ∧ bitOf (t.port p).paused c = false ∧ bitOf (t.port p).ignored c = true ∧
      t.bit (0x2300 + p.val) 0x19 4 = true ∧ t.n (0x2310 + p.val) 0x27 = (s.n (0x2310 + p.val) 0x27 + 1) % 2 ^ 32 ∧ t.mem = s.mem) ∧
  (∀ (q : Path) (p : Fin 12) (s : State), s.writeOk q (0x2300 + p.val) 0x11 1 = true →
    ∃ t, exec (.pauseResume q p 1) s = .next t ∧ (t.port p).ignored = 0 ∧ t.od = s.od ∧ t.mem = s.mem) ∧
  (∀ (p : Fin 12) (s : State), s.portN p 0x13 = 1 → (s.port p).verifyTries < 3 →
    ∃ t, exec (.preemptVerifySend p) s = .next t ∧ (t.port p).verifyTries = (s.port p).verifyTries + 1 ∧
      t.out = s.out ++ [.verify p] ∧ t.od = s.od ∧ t.mem = s.mem) ∧
  (∀ (p : Fin 12) (s : State), s.portN p 0x13 = 1 → 3 ≤ (s.port p).verifyTries → exec (.preemptVerifySend p) s = .next s) ∧
  (∀ (p : Fin 12) (s : State), s.portN p 0x13 = 1 → (s.port p).verifyTries ≠ 0 →
    ∃ t, exec (.preemptVerifyResponse p) s = .next t ∧ t.portN p 0x13 = 2 ∧ t.bit (0x2300 + p.val) 0x19 6 = true ∧
      ObjectsKept s t [(0x2300 + p.val, 0x13), (0x2300 + p.val, 0x19)] ∧ t.mem = s.mem) ∧
  (∀ (p : Fin 12) (s : State), s.portN p 0x13 = 1 → (s.port p).verifyTries = 3 →
    ∃ t, exec (.preemptVerifyFailed p) s = .next t ∧ t.portN p 0x13 = 3 ∧ t.bit (0x2300 + p.val) 0x19 5 = true ∧
      ObjectsKept s t [(0x2300 + p.val, 0x13), (0x2300 + p.val, 0x19)] ∧ t.mem = s.mem)

/-- Transmitting (R122, R207, R212, R237–R240): at a frame boundary a pause frame goes first, then what the selection grants; a lane's
frame takes the nibbles the FIFO holds; a frame leaves padded, with its FCS, and is counted; a timestamp record goes into the
ring with its number; a gate list is taken, becomes operational and steps on. Model readings that it
rests on: log entry 15. -/
def Obligations.PortsSelectAndSend : Prop :=
  (∀ (p : Fin 12) (phase : Fin 8) (dt : Nat) (d : List Byte) (pfc : Bool) (r : List (List Byte × Bool)) (s : State),
    let u := (s.advance dt).touchCredit p
    u.txIdle p = true → u.chordEgress p = none → (u.port p).pauseQ = (d, pfc) :: r → u.guardOk p (wireNs (u.speedOf p) 60) = true →
    ∃ t, exec (.txSelection p phase dt) s = .next t ∧ (t.port p).pauseQ = r ∧ t.mem = s.mem ∧
      ∃ x, (t.port p).cur = some x ∧ x.src = .pause ∧ x.data = d ∧ x.done = true) ∧
  (∀ (p : Fin 12) (phase : Fin 8) (dt c : Nat) (e : QEntry) (r : List QEntry) (s : State),
    let u := ((s.advance dt).touchCredit p).dropOversize p
    ((s.advance dt).touchCredit p).txIdle p = true → ((s.advance dt).touchCredit p).chordEgress p = none →
    (((s.advance dt).touchCredit p).port p).pauseQ = [] → u.grant p = some (c, none) → u.queue p c = e :: r →
    u.latticeForward p e = false →
    ∃ t, exec (.txSelection p phase dt) s = .next t ∧ t.queue p c = r ∧ t.mem = s.mem ∧
      ∃ x, (t.port p).cur = some x ∧ x.src = .queue ∧ x.cls = c ∧ x.entry = some e) ∧
  (∀ (e : Fin 32) (phase : Fin 8) (s : State), fieldOf (s.engine e).txBound 0 5 = 0 → s.txReady e = true →
    (txSplit (s.engine e).tx).2.1 = none →
    ∃ t, exec (.txLaneFrameStart e phase 0) s = .next t ∧ t.od = s.od ∧ t.mem = s.mem ∧
      t.engine e = { s.engine e with txOn := true, tx := [], txWire := (txSplit (s.engine e).tx).1 }) ∧
  (∀ (e : Fin 32) (phase : Fin 8) (p : Fin 12) (c : Nat) (s : State), fieldOf (s.engine e).txBound 0 5 = p.val + 1 →
    (s.touchCredit p).grant p = some (c, some e.val) → (s.touchCredit p).txIdle p = true → (s.touchCredit p).chordEgress p = none →
    (txSplit (s.engine e).tx).2.1 = none →
    ∃ t, exec (.txLaneFrameStart e phase 0) s = .next t ∧ t.mem = s.mem ∧ (t.engine e).txOn = true ∧ (t.engine e).tx = [] ∧
      (t.engine e).txWire = (txSplit (s.engine e).tx).1 ∧
      ∃ x, (t.port p).cur = some x ∧ x.src = .lane e ∧ x.cls = c) ∧
  (∀ (p : Fin 12) (x : TxCur) (s : State), (s.port p).cur = some x → x.done = true → x.entry = none → x.newDa = none →
    x.stomp = false → x.src ≠ .chord → isSync x.data = false → x.data.length + 4 ≤ s.txCfg p 0xC →
    ∃ t, exec (.portFrameTransmitted p 0 0) s = .next t ∧ (t.port p).cur = none ∧
      Out.frame p (withFcs (pad60 x.data) false) false ∈ t.out ∧
      t.n (0x2310 + p.val) 0x18 = (s.n (0x2310 + p.val) 0x18 + 1) % 2 ^ 32 ∧ t.mem = s.mem) ∧
  (∀ (p : Fin 12) (r : List Byte) (l : List (List Byte)) (f g : Nat) (s : State),
    let a := s.portN p 0x17 + 16 * (s.port p).tsSlot
    (s.port p).tsPending = r :: l → r.length = 12 → regionOf a = .store f → regionOf (a + 8) = .store g →
    ∃ t, exec (.tsRecordWrite p) s = .next t ∧ (t.port p).tsPending = l ∧
      (t.port p).tsSlot = ((s.port p).tsSlot + 1) % 16 ∧
      t.bytes a 16 = r ++ leBytes (s.port p).tsSeq 4 ∧ t.bit (0x2300 + p.val) 0x19 8 = true ∧
      ObjectsKept s t [(0x2300 + p.val, 0x19)]) ∧
  (∀ (m : Path) (p : Fin 12) (v : Word) (l : List (Nat × Nat × Nat)) (s : State),
    s.writeOk m (0x2260 + p.val) 8 v.toNat = true →
    s.readGateList (s.n (0x2260 + p.val) 2) (s.n (0x2260 + p.val) 3) 10 = some l →
    let at0 := changeTime (s.n (0x2260 + p.val) 6) (s.n (0x2260 + p.val) 4) (s.now64 (s.txCfg p 0x14))
    ∃ t, exec (.gateConfigChange m p v) s = .next t ∧ (t.gate p).pend = some (l, s.n (0x2260 + p.val) 4, at0) ∧
      (t.gate p).oper = (s.gate p).oper ∧ t.n (0x2260 + p.val) 9 = 1 ∧
      ObjectsKept s t [(0x2260 + p.val, 9), (0x2260 + p.val, 0xA)] ∧ t.mem = s.mem) ∧
  (∀ (m : Path) (p : Fin 12) (v : Word) (s : State), s.writeOk m (0x2260 + p.val) 8 v.toNat = true →
    s.readGateList (s.n (0x2260 + p.val) 2) (s.n (0x2260 + p.val) 3) 10 = none →
    ∃ t, exec (.gateConfigChange m p v) s = .next t ∧ t.gate p = s.gate p ∧ t.n (0x2260 + p.val) 9 = 3 ∧
      t.n (0x2260 + p.val) 0xD = (s.n (0x2260 + p.val) 0xD + 1) % 2 ^ 32 ∧ t.bit 0x2200 0xF 6 = true ∧ t.mem = s.mem) ∧
  (∀ (p : Fin 12) (dt : Nat) (l : List (Nat × Nat × Nat)) (cy at0 : Nat) (s : State),
    ((s.advance dt).gate p).pend = some (l, cy, at0) → at0 ≤ (s.advance dt).now64 (s.txCfg p 0x14) →
    ∃ t, exec (.gateConfigOperational p dt) s = .next t ∧
      t.gate p = { oper := l, cycle := cy, idx := 0, entryAt := at0, cycleAt := at0, pend := none } ∧
      t.n (0x2260 + p.val) 9 = 2 ∧ t.bit 0x2200 0xF 5 = true ∧ t.mem = s.mem) ∧
  (∀ (p : Fin 12) (dt : Nat) (g : GateCtl) (s : State),
    ((s.advance dt).gate p).next ((s.advance dt).now64 (s.txCfg p 0x14)) = some g →
    ∃ t, exec (.gateIntervalExpiry p dt) s = .next t ∧ t.gate p = g ∧ t.mem = s.mem)

/-! ### The switch (spec/08) -/

/-- A frame's way through the switch (R220–R234, R246–R248, R369): it joins the queue of its destination with the charge of its port's
MAX_FRAME, or is discarded and counted without one; at its end it is kept with its length and teaches its source, or leaves every
queue when it is bad; a ring's station gets it in a descriptor and gives frames from its transmit rings; the audit counts. Model readings that it
rests on: log entries 32, 74. -/
def Obligations.FramesPassTheSwitch : Prop :=
  (∀ (p : Fin 12) (head : List Byte) (ago d : Nat) (phase : Fin 8) (s : State), s.swTakes p = true → (s.port p).ctx = none →
    be16 head 12 ≠ 0x8808 → s.waitsWhole p head = false → s.latticeType p head = false →
    let cls := (s.classify p head).1
    let vid := (s.classify p head).2
    let n := cellsOf (s.rxCfg p 0xC)
    s.streamOf p vid head = none → (stationsOf (s.lookup p (mac48 head 0) vid)).filter (s.reachable p cls) = [d] →
    s.accepting [d] cls n = [d] →
    ∃ t e, exec (.switchAdmission p head ago phase false) s = .next t ∧ t.queue d cls = s.queue d cls ++ [e] ∧
      e.frame = s.sw.nextFrame ∧ e.ingress = p.val ∧ e.cls = cls ∧ e.charge = n ∧
      (t.port p).ctx = some { frame := some s.sw.nextFrame } ∧ (t.frame s.sw.nextFrame).head = head ∧
      t.used d cls = (s.used d cls + n) % 2 ^ 64 ∧ t.mem = s.mem) ∧
  (∀ (p : Fin 12) (head : List Byte) (ago : Nat) (phase : Fin 8) (s : State), s.swTakes p = true → (s.port p).ctx = none →
    be16 head 12 ≠ 0x8808 → s.waitsWhole p head = false → s.latticeType p head = false →
    s.streamOf p (s.classify p head).2 head = none →
    (stationsOf (s.lookup p (mac48 head 0) (s.classify p head).2)).filter (s.reachable p (s.classify p head).1) = [] →
    ∃ t, exec (.switchAdmission p head ago phase false) s = .next t ∧ (t.port p).ctx = some {} ∧
      t.n 0x2200 9 = (s.n 0x2200 9 + 1) % 2 ^ 32 ∧ ObjectsKept s t [(0x2200, 9), (0x2200, 0xF)] ∧ t.mem = s.mem) ∧
  (∀ (p : Fin 12) (head : List Byte) (ago q : Nat) (phase : Fin 8) (s : State), s.swTakes p = true → (s.port p).ctx = none →
    s.waitsWhole p head = false → be16 head 12 ≠ 0x8808 → s.latticeType p head = true → s.latticeMine p head = true →
    let h := etPos head + 2
    let dest := be16 head (h + 2)
    let cls := fieldOf (s.n 0x2800 8) (4 * (at' head (h + 6) / 16)) 3
    let n := cellsOf (s.rxCfg p 0xC)
    1 ≤ dest → dest ≤ 1023 → dest ≠ s.n 0x2802 1 → at' head h / 16 = 1 → at' head (h + 6) / 16 < 8 → 1 < at' head (h + 1) →
    s.routeFor dest = some q → s.reachable p cls q = true → s.accepting [q] cls n = [q] →
    ∃ t e, exec (.latticeFrameForward p head ago phase) s = .next t ∧ t.queue q cls = s.queue q cls ++ [e] ∧
      e.frame = s.sw.nextFrame ∧ (t.frame s.sw.nextFrame).head = head ∧ t.mem = s.mem) ∧
  (∀ (p : Fin 12) (f : Nat) (d : List Byte) (s : State), (s.port p).ctx = some { frame := some f } → (s.port p).rxDone = some (d, true) →
    ∃ t, exec (.frameStoreComplete p) s = .next t ∧ (t.port p).ctx = none ∧ (t.port p).rxDone = none ∧
      (t.frame f).len = d.length ∧ (t.frame f).head = []) ∧
  (∀ (p : Fin 12) (d : List Byte) (e : Nat) (s : State), (s.port p).ctx = some {} → (s.port p).rxDone = some (d, true) →
    s.n (0x2250 + p.val) 3 ≠ 0 →
    let vid := (s.classify p d).2
    s.fdbFind (mac48 d 6) vid = none → s.fdbFree (mac48 d 6) vid = some e →
    ∃ t, exec (.frameStoreComplete p) s = .next t ∧ t.mem = s.mem ∧
      t.fdbAt e = some { mac := mac48 d 6, vid := vid, isStatic := false, mask := 2 ^ p.val, at' := s.ticks }) ∧
  (∀ (p : Fin 12) (f : Nat) (d : List Byte) (s : State), (s.port p).ctx = some { frame := some f } → (s.port p).rxDone = some (d, false) →
    ∃ t, exec (.frameStoreComplete p) s = .next t ∧ (t.port p).ctx = none ∧ t.mem = s.mem ∧
      ∀ st < 22, ∀ c < 8, ∀ e ∈ t.queue st c, e.frame ≠ f) ∧
  (∀ (st : Fin 10) (c : Fin 8) (e : QEntry) (r : List QEntry) (s : State),
    let i := 0x22A0 + st.val
    let a := ringDesc (s.n i (1 + c.val)) (s.n i (0x11 + c.val))
    let x := s.frame e.frame
    let d := ringBytes e (s.cellPrefix x.cells x.checks x.len).1
    s.queue (12 + st.val) c = e :: r → x.len ≠ 0 → ringOn (s.n i (1 + c.val)) = true →
    (s.n i (9 + c.val) + 2 ^ 16 - s.n i (0x11 + c.val)) % 2 ^ 16 ≠ 0 → (s.cellPrefix x.cells x.checks x.len).2 = false →
    d.length ≤ fieldOf (s.w32 (a + 4)) 0 16 →
    ∃ t, exec (.rxRingDelivery st c) s = .next t ∧ t.queue (12 + st.val) c = r ∧
      t.n i (0x11 + c.val) = (s.n i (0x11 + c.val) + 1) % 2 ^ 16 ∧ t.bit i 0x28 c = true) ∧
  (∀ (st : Fin 10) (k : Nat) (l : List Nat) (ok : Bool) (s : State), s.swOn = true →
    ((List.range 4).map (fun j => (tblGet (fun _ => 0) st.val s.sw.txTurn + j) % 4)).find?
      (fun j => (s.txReadyRing st j).isSome) = some k → s.txReadyRing st k = some (l, ok) →
    let i := 0x22A0 + st.val
    ∃ t, exec (.txRingFrame st) s = .next t ∧ t.n i (0x21 + k) = (s.n i (0x21 + k) + l.length) % 2 ^ 16 ∧
      t.bit i 0x28 (8 + k) = true ∧ tblGet (fun _ => 0) st.val t.sw.txTurn = (k + 1) % 4) ∧
  (∀ (s : State), s.n 0x2200 0xB ≠ 0 →
    ∃ t, exec .auditPass s = .next t ∧ t.n 0x2200 0xC = (s.n 0x2200 0xC + 1) % 2 ^ 32 ∧ t.bit 0x2200 0xF 3 = true ∧ t.mem = s.mem)

/-- Commands of the switch's tables (R222, R242–R244, R253–R257): a database command is taken and then read, inserted, deleted or
flushed with its STATUS; an entry ages out; a read command stages an entry's values, a write command stores the staged ones, the
third acts as its table says; a stream gate's list and a recovery follow their times. Model readings that it
rests on: log entries 34, 76. -/
def Obligations.SwitchTablesAnswerCommands : Prop :=
  (∀ (q : Path) (c : Instr) (k : Nat) (s : State),
    (c, k) ∈ [(Instr.fdbReadEntry q, 1), (Instr.fdbInsert q, 2), (Instr.fdbDelete q, 3), (Instr.fdbFlush q, 4)] →
    s.writeOk q 0x2290 7 k = true → s.sw.fdbCmd = none →
    ∃ t, exec c s = .next t ∧ t.sw.fdbCmd = some k ∧ t.n 0x2290 8 = 1 ∧ ObjectsKept s t [(0x2290, 8)] ∧ t.mem = s.mem) ∧
  (∀ (x : FdbEntry) (s : State), s.sw.fdbCmd = some 1 → s.fdbAt (s.n 0x2290 1) = some x →
    ∃ t, exec .fdbCommandDone s = .next t ∧ t.n 0x2290 8 = 2 ∧ t.n 0x2290 2 = x.mac % 2 ^ 64 ∧ t.n 0x2290 5 = x.mask % 2 ^ 64 ∧
      t.sw.fdb = s.sw.fdb ∧ t.sw.fdbCmd = none ∧ t.mem = s.mem) ∧
  (∀ (e : Nat) (s : State),
    let mac := s.n 0x2290 2
    let vid := fieldOf (s.n 0x2290 4) 0 12
    s.sw.fdbCmd = some 2 → s.fdbFind mac vid = some e ∨ (s.fdbFind mac vid = none ∧ s.fdbFree mac vid = some e) →
    ∃ t, exec .fdbCommandDone s = .next t ∧ t.n 0x2290 8 = 2 ∧ t.mem = s.mem ∧
      t.fdbAt e = some { mac := mac, vid := vid, isStatic := s.bit 0x2290 4 13, mask := s.n 0x2290 5, at' := s.ticks }) ∧
  (∀ (s : State), s.sw.fdbCmd = some 2 → s.fdbFind (s.n 0x2290 2) (fieldOf (s.n 0x2290 4) 0 12) = none →
    s.fdbFree (s.n 0x2290 2) (fieldOf (s.n 0x2290 4) 0 12) = none →
    ∃ t, exec .fdbCommandDone s = .next t ∧ t.n 0x2290 8 = 4 ∧ t.sw.fdb = s.sw.fdb ∧ t.mem = s.mem) ∧
  (∀ (e : Nat) (s : State), s.sw.fdbCmd = some 3 → s.fdbFind (s.n 0x2290 2) (fieldOf (s.n 0x2290 4) 0 12) = some e →
    ∃ t, exec .fdbCommandDone s = .next t ∧ t.n 0x2290 8 = 2 ∧ t.fdbAt e = none ∧ t.mem = s.mem) ∧
  (∀ (s : State), s.sw.fdbCmd = some 4 →
    ∃ t, exec .fdbCommandDone s = .next t ∧ t.n 0x2290 8 = 2 ∧ t.sw.fdb = s.sw.fdb.filter (fun e => e.2.isStatic) ∧ t.mem = s.mem) ∧
  (∀ (e : Fin 8192) (dt : Nat) (x : FdbEntry) (s : State), s.fdbAt e = some x → x.isStatic = false → s.n 0x2290 9 ≠ 0 →
    s.n 0x2290 9 * secondTicks ≤ s.ticks + dt - x.at' →
    ∃ t, exec (.fdbAgeExpiry e dt) s = .next t ∧ t.fdbAt e = none ∧ t.mem = s.mem) ∧
  (∀ (q : Path) (s : State),
    let h := s.n 0x2280 1
    (s.writeOk q 0x2280 6 1 = true → ∃ t, exec (.streamRead q) s = .next t ∧ t.sw = s.sw ∧ t.mem = s.mem ∧
      t.n 0x2280 2 = (s.stream h).mac % 2 ^ 64 ∧ t.n 0x2280 4 = (s.stream h).ident % 2 ^ 64 ∧
      t.n 0x2280 5 = (s.stream h).filter % 2 ^ 64 ∧ t.n 0x2280 8 = (s.stream h).matched % 2 ^ 64 ∧
      t.n 0x2280 9 = (s.stream h).passed % 2 ^ 64) ∧
    (s.writeOk q 0x2280 6 2 = true → ∃ t, exec (.streamWrite q) s = .next t ∧ t.od = s.od ∧ t.mem = s.mem ∧
      t.stream h = { s.stream h with mac := s.n 0x2280 2, ident := s.n 0x2280 4, filter := s.n 0x2280 5 }) ∧
    (s.writeOk q 0x2280 6 3 = true → ∃ t, exec (.streamClearBlocked q) s = .next t ∧ t.mem = s.mem ∧
      t.stream h = { s.stream h with blocked := false } ∧ ObjectsKept s t [(0x2280, 7)])) ∧
  (∀ (q : Path) (s : State),
    let g := s.n 0x2281 1
    (s.writeOk q 0x2281 9 1 = true → ∃ t, exec (.streamGateRead q) s = .next t ∧ t.sw = s.sw ∧ t.mem = s.mem ∧
      t.n 0x2281 2 = (s.sgate g).list % 2 ^ 64 ∧ t.n 0x2281 3 = (s.sgate g).len % 2 ^ 64 ∧
      t.n 0x2281 4 = (s.sgate g).cycle % 2 ^ 64 ∧ t.n 0x2281 0xA = (s.sgate g).status % 2 ^ 64) ∧
    (s.writeOk q 0x2281 9 2 = true → ∃ t, exec (.streamGateWrite q) s = .next t ∧ t.od = s.od ∧ t.mem = s.mem ∧
      t.sgate g = { s.sgate g with list := s.n 0x2281 2, len := s.n 0x2281 3, cycle := s.n 0x2281 4, base := s.n 0x2281 6
                                   dom := s.n 0x2281 8 }) ∧
    (∀ l, s.writeOk q 0x2281 9 3 = true → s.readGateList (s.sgate g).list (s.sgate g).len 5 = some l →
      ∃ t, exec (.streamGateChangeList q) s = .next t ∧ t.n 0x2281 0xA = 1 ∧ (t.sgate g).status = 1 ∧ t.mem = s.mem ∧
        (t.sgate g).ctl.oper = (s.sgate g).ctl.oper ∧ (t.sgate g).ctl.pend =
          some (l, (s.sgate g).cycle, changeTime (s.sgate g).base (s.sgate g).cycle (s.now64 (s.sgate g).dom))) ∧
    (s.writeOk q 0x2281 9 3 = true → s.readGateList (s.sgate g).list (s.sgate g).len 5 = none →
      ∃ t, exec (.streamGateChangeList q) s = .next t ∧ t.n 0x2281 0xA = 3 ∧ (t.sgate g).ctl = (s.sgate g).ctl ∧
        t.bit 0x2200 0xF 6 = true ∧ t.mem = s.mem)) ∧
  (∀ (g : Fin 64) (dt : Nat) (l : List (Nat × Nat × Nat)) (cy at0 : Nat) (s : State), (s.sgate g).ctl.pend = some (l, cy, at0) →
    at0 ≤ (s.advance dt).now64 (s.sgate g).dom →
    ∃ t, exec (.streamGateListOperational g dt) s = .next t ∧ (t.sgate g).status = 2 ∧ t.bit 0x2200 0xF 5 = true ∧ t.mem = s.mem ∧
      (t.sgate g).ctl = { oper := l, cycle := cy, idx := 0, entryAt := at0, cycleAt := at0, pend := none }) ∧
  (∀ (g : Fin 64) (dt : Nat) (x : GateCtl) (s : State), (s.sgate g).ctl.next ((s.advance dt).now64 (s.sgate g).dom) = some x →
    ∃ t, exec (.streamGateIntervalExpiry g dt) s = .next t ∧ (t.sgate g).ctl = x ∧ t.mem = s.mem) ∧
  (∀ (q : Path) (s : State),
    let i := s.n 0x2282 1
    (s.writeOk q 0x2282 7 1 = true → ∃ t, exec (.meterRead q) s = .next t ∧ t.sw = s.sw ∧ t.mem = s.mem ∧
      t.n 0x2282 2 = (s.meter i).cir % 2 ^ 64 ∧ t.n 0x2282 3 = (s.meter i).cbs % 2 ^ 64 ∧
      t.n 0x2282 4 = (s.meter i).eir % 2 ^ 64 ∧ t.n 0x2282 5 = (s.meter i).ebs % 2 ^ 64 ∧
      t.n 0x2282 9 = (s.meter i).green % 2 ^ 64) ∧
    (s.writeOk q 0x2282 7 2 = true → ∃ t, exec (.meterWrite q) s = .next t ∧ t.od = s.od ∧ t.mem = s.mem ∧
      (t.meter i).cir = s.n 0x2282 2 ∧ (t.meter i).cbs = s.n 0x2282 3 ∧ (t.meter i).eir = s.n 0x2282 4 ∧
      (t.meter i).ebs = s.n 0x2282 5 ∧ (t.meter i).mode = s.n 0x2282 6 ∧ (t.meter i).green = (s.meter i).green) ∧
    (s.writeOk q 0x2282 7 3 = true → ∃ t, exec (.meterClearMarkAllRed q) s = .next t ∧ t.mem = s.mem ∧
      t.meter i = { s.meter i with allRed := false } ∧ t.n 0x2282 8 = 0 ∧ ObjectsKept s t [(0x2282, 8)])) ∧
  (∀ (q : Path) (s : State),
    let h := s.n 0x2283 1
    (s.writeOk q 0x2283 4 1 = true → ∃ t, exec (.cbRead q) s = .next t ∧ t.sw = s.sw ∧ t.mem = s.mem ∧
      t.n 0x2283 2 = (s.cb h).func % 2 ^ 64 ∧ t.n 0x2283 3 = (s.cb h).mask % 2 ^ 64 ∧
      t.n 0x2283 5 = (s.cb h).genSeq % 2 ^ 64 ∧ t.n 0x2283 6 = (s.cb h).passed % 2 ^ 64 ∧
      t.n 0x2283 7 = (s.cb h).discarded % 2 ^ 64) ∧
    (s.writeOk q 0x2283 4 2 = true → ∃ t, exec (.cbWrite q) s = .next t ∧ t.od = s.od ∧ t.mem = s.mem ∧
      t.cb h = { s.cb h with func := s.n 0x2283 2, mask := s.n 0x2283 3 }) ∧
    (s.writeOk q 0x2283 4 3 = true → ∃ t, exec (.cbResetRecovery q) s = .next t ∧ t.od = s.od ∧ t.mem = s.mem ∧
      (t.cb h).takeAny = true ∧ (t.cb h).resets = ((s.cb h).resets + 1) % 2 ^ 32)) ∧
  (∀ (h : Fin 256) (s : State), bitOf (s.cb h).func 1 = true → fieldOf (s.cb h).func 16 16 ≠ 0 → (s.cb h).takeAny = false →
    ∃ t, exec (.cbResetTimeout h) s = .next t ∧ (t.cb h).takeAny = true ∧ (t.cb h).resets = ((s.cb h).resets + 1) % 2 ^ 32 ∧
      t.od = s.od ∧ t.mem = s.mem)

/-! ### Time and launch (spec/09) -/

/-- Time domains (R259–R271): a tick adds INCREMENT, or ADJUST_INCREMENT while an adjustment lasts; a step adds its offset when it is
due; a PPS output's edges, a capture's stamp and its overflow, the state SYNCED or UNSYNCED, and a trigger with its next target
follow their rules. -/
def Obligations.TimeDomainsKeepTime : Prop :=
  (∀ (q : Path) (d : Fin 4) (v : DWord) (s : State), s.writeOk q (0x2100 + d.val) 6 v.toNat = true →
    ∃ t, exec (.incrementWrite q d v) s = .next t ∧ t.n (0x2100 + d.val) 6 = v.toNat ∧
      ObjectsKept s t [(0x2100 + d.val, 6)] ∧ t.mem = s.mem) ∧
  (∀ (q : Path) (d : Fin 4) (v : Word) (s : State), s.writeOk q (0x2100 + d.val) 0xA v.toNat = true →
    ∃ t, exec (.adjustStart q d v) s = .next t ∧ t.n (0x2100 + d.val) 0xA = v.toNat ∧ (t.tdom d).adjusting = decide (v ≠ 0) ∧
      ObjectsKept s t [(0x2100 + d.val, 0xA)] ∧ t.mem = s.mem) ∧
  (∀ (d : Fin 4) (dt : Nat) (s : State), s.pw.pllLocked = true → (s.tdom d).adjusting = false → s.n (0x2100 + d.val) 4 < 2 ^ 32 →
    ∃ t, exec (.adjustEnd d dt) s = .next t ∧ t.domVal d = (s.domVal d + dt * s.n (0x2100 + d.val) 6) % 2 ^ 96 ∧ t.mem = s.mem) ∧
  (∀ (d : Fin 4) (dt : Nat) (s : State),
    let i := 0x2100 + d.val
    s.pw.pllLocked = true → (s.tdom d).adjusting = true → s.n i 4 < 2 ^ 32 → s.n i 0xA ≤ dt →
    ∃ t, exec (.adjustEnd d dt) s = .next t ∧ (t.tdom d).adjusting = false ∧ t.n i 0xA = 0 ∧ t.bit i 0x10 22 = true ∧
      t.domVal d = (s.domVal d + s.n i 0xA * s.n i 8 + (dt - s.n i 0xA) * s.n i 6) % 2 ^ 96 ∧ t.mem = s.mem) ∧
  (∀ (q : Path) (d : Fin 4) (c : Instr) (k : Nat) (s : State),
    (c, k) ∈ [(Instr.stepDisarm q d, 0), (Instr.stepNow q d, 1), (Instr.stepArmAt q d, 2)] →
    s.writeOk q (0x2100 + d.val) 0xE k = true →
    ∃ t, exec c s = .next t ∧ (t.tdom d).stepMode = k ∧ t.n (0x2100 + d.val) 0xE = (if k = 0 then 0 else 1) ∧
      ObjectsKept s t [(0x2100 + d.val, 0xE)] ∧ t.mem = s.mem) ∧
  (∀ (d : Fin 4) (dt : Nat) (s : State),
    let i := 0x2100 + d.val
    let u := s.advance dt
    (s.tdom d).stepMode = 1 ∨ ((s.tdom d).stepMode = 2 ∧ isDue (u.now32 d) (s.n i 0xB) = true) →
    ∃ t, exec (.stepApply d dt) s = .next t ∧ (t.tdom d).stepMode = 0 ∧ t.n i 0xE = 0 ∧
      t.domVal d = (((u.domVal d : Int) + (s.rd i 0xC).toInt * 2 ^ 32) % 2 ^ 96).toNat ∧
      t.n i 0xF = (s.n i 0xF + 1) % 2 ^ 32 ∧ t.bit i 0x10 21 = true ∧ t.mem = s.mem) ∧
  (∀ (i : Fin 4) (dt : Nat) (s : State),
    let u := s.advance dt
    let o := 0x2158 + i.val
    s.ppsRuns i = true → (s.ppsOf i).next ≤ u.now64 (s.ppsDom i) →
    ∃ t, exec (.ppsEdge i dt) s = .next t ∧ t.out = s.out ++ [.edge 1 i (!s.ppsInvert i)] ∧ t.n o 6 = (s.n o 6 + 1) % 2 ^ 32 ∧
      t.ppsOf i = { next := (ppsNext (s.ppsOf i).next (s.n o 4) (u.now64 (s.ppsDom i))).1, on := true,
                    endAt := u.now64 (s.ppsDom i) + s.n o 5 } ∧ t.mem = s.mem) ∧
  (∀ (i : Fin 4) (dt : Nat) (s : State), (s.ppsOf i).on = true → (s.ppsOf i).endAt ≤ (s.advance dt).now64 (s.ppsDom i) →
    ∃ t, exec (.ppsPulseEnd i dt) s = .next t ∧ t.out = s.out ++ [.edge 1 i (s.ppsInvert i)] ∧ (t.ppsOf i).on = false ∧
      t.mem = s.mem) ∧
  (∀ (q : Path) (d : Fin 4) (v : Word) (s : State), s.writeOk q (0x2100 + d.val) 5 v.toNat = true →
    ∃ t, exec (.syncWrite q d v) s = .next t ∧ t.n (0x2100 + d.val) 5 = (if v = 0 then 0 else 1) ∧
      (v = 0 → t.bit (0x2100 + d.val) 0x10 20 = true) ∧
      ObjectsKept s t [(0x2100 + d.val, 5), (0x2100 + d.val, 0x10)] ∧ t.mem = s.mem) ∧
  (∀ (i : Fin 4) (falling : Bool) (ago : Nat) (phase : Fin 8) (s : State),
    let o := 0x2150 + i.val
    let d := fieldOf (s.n o 1) 0 2
    let at0 := s.stampAt d ago phase 0
    s.bit o 1 4 = true → s.capSelects i falling = true → (s.capFifo i).length < 4 →
    ∃ t, exec (.captureEdge i falling ago phase) s = .next t ∧ t.n o 8 = (if falling then 0 else 1) ∧
      t.capFifo i = s.capFifo i ++ [{ time := at0 / 4 % 2 ^ 64, frac := at0 % 4, falling := falling }] ∧
      t.n o 6 = (s.n o 6 + 1) % 2 ^ 32 ∧ t.bit (0x2100 + d) 0x10 (16 + i.val) = true ∧ t.mem = s.mem) ∧
  (∀ (i : Fin 4) (falling : Bool) (ago : Nat) (phase : Fin 8) (s : State),
    let o := 0x2150 + i.val
    s.bit o 1 4 = true → s.capSelects i falling = true → 4 ≤ (s.capFifo i).length →
    ∃ t, exec (.captureEdge i falling ago phase) s = .next t ∧ t.capFifo i = s.capFifo i ∧
      t.n o 7 = (s.n o 7 + 1) % 2 ^ 32 ∧ t.bit (0x2100 + fieldOf (s.n o 1) 0 2) 0x10 23 = true ∧ t.mem = s.mem) ∧
  (∀ (q : Path) (i : Fin 4) (x y : CapEntry) (r : List CapEntry) (s : State), s.writeOk q (0x2150 + i.val) 5 1 = true →
    s.capFifo i = x :: y :: r →
    ∃ t, exec (.capturePop q i 1) s = .next t ∧ t.capFifo i = y :: r ∧ t.n (0x2150 + i.val) 2 = y.time % 2 ^ 64 ∧
      ObjectsKept s t [(0x2150 + i.val, 2), (0x2150 + i.val, 4)] ∧ t.mem = s.mem) ∧
  (∀ (d : Fin 4) (k : Fin 16) (dt : Nat) (s : State),
    let i := trigIdx d k
    let u := s.advance dt
    s.n i 1 = 1 → isDue (u.now32 d) (s.n i 6) = true →
    ∃ t, exec (.triggerFire d k dt) s = .next t ∧ t.n i 4 = (s.n i 4 + 1) % 2 ^ 32 ∧ t.bit (0x2100 + d.val) 0x10 k = true ∧
      (s.n i 3 = 0 → t.n i 1 = 0) ∧
      (s.n i 3 ≠ 0 → t.n i 1 = 1 ∧ t.n i 6 = (nextTarget (u.now32 d) (s.n i 6) (s.n i 3)).1) ∧ t.mem = s.mem)

/-- Scheduled launch (R272–R280): enabling arms an entry; an abort or a disable before its frame begins discards it, after it leaves
the frame whole; the fetch stages the bytes; on time, with its port free, it begins, too late it is discarded, in an unsynced
domain it is not launched; when the frame has left, a periodic entry has its next target and another is disabled. Model readings that it
rests on: log entries 83, 84, 87. -/
def Obligations.LaunchesKeepTheirTimes : Prop :=
  (∀ (q : Path) (k : Fin 64) (v : Half) (s : State), s.writeOk q (launchIdx k) 1 v.toNat = true → v.getLsbD 0 = true →
    ∃ t, exec (.launchEnable q k v) s = .next t ∧ t.n (launchIdx k) 1 = v.toNat ∧ t.n (launchIdx k) 7 = 1 ∧
      t.n (launchIdx k) 8 = 0 ∧ t.n (launchIdx k) 9 = s.n (launchIdx k) 4 ∧ t.launchOf k = {} ∧
      ObjectsKept s t [(launchIdx k, 1), (launchIdx k, 7), (launchIdx k, 8), (launchIdx k, 9)] ∧ t.mem = s.mem) ∧
  (∀ (q : Path) (k : Fin 64) (v : Half) (s : State), s.writeOk q (launchIdx k) 1 v.toNat = true → v.getLsbD 0 = false →
    s.bit (launchIdx k) 1 0 = true → (s.launchOf k).begun = false →
    ∃ t, exec (.launchDisable q k v) s = .next t ∧ t.n (launchIdx k) 1 = v.toNat ∧ t.n (launchIdx k) 7 = 0 ∧
      t.n (launchIdx k) 8 = 1 ∧ t.n (launchIdx k) 0xB = 7 ∧ t.launchOf k = {} ∧ t.mem = s.mem) ∧
  (∀ (q : Path) (k : Fin 64) (v : Byte) (s : State), s.writeOk q (launchIdx k) 8 v.toNat = true → s.bit (launchIdx k) 1 0 = true →
    ∃ t, exec (.launchAbort q k v) s = .next t ∧ t.bit (launchIdx k) 1 0 = false ∧ t.mem = s.mem ∧
      ((s.launchOf k).begun = false → t.n (launchIdx k) 8 = 1 ∧ t.n (launchIdx k) 0xB = 7 ∧ t.launchOf k = {}) ∧
      ((s.launchOf k).begun = true → t.n (launchIdx k) 8 = 2 ∧ t.launchOf k = s.launchOf k)) ∧
  (∀ (k : Fin 64) (dt : Nat) (s : State),
    let u := s.advance dt
    u.n (launchIdx k) 7 = 1 → (u.launchOf k).fetching = false → u.launchBuffers (u.launchPort k) < 2 →
    isDue (u.now32 (u.launchDom k)) ((u.n (launchIdx k) 9 + 2 ^ 32 - u.n (launchIdx k) 6) % 2 ^ 32) = true →
    ∃ t, exec (.launchFetchStart k dt) s = .next t ∧ t.launchOf k = { u.launchOf k with fetching := true } ∧ t.od = u.od ∧
      t.mem = s.mem) ∧
  (∀ (k : Fin 64) (dt : Nat) (s : State), (s.launchOf k).fetching = true → s.memc.dbe = [] →
    inBankOrStore (s.n (launchIdx k) 2) = true → s.n (launchIdx k) 3 ≠ 0 →
    ∃ t, exec (.launchFetchDone k dt) s = .next t ∧ t.n (launchIdx k) 7 = 2 ∧ t.mem = s.mem ∧
      t.launchOf k = { fetching := false, data := some (s.bytes (s.n (launchIdx k) 2) (s.n (launchIdx k) 3)) }) ∧
  (∀ (k : Fin 64) (phase : Fin 8) (dt : Nat) (d : List Byte) (s : State),
    let u := s.advance dt
    let p := u.launchPort k
    (u.launchOf k).data = some d → -8 ≤ u.launchLate k phase → u.launchFirst k = true → u.domHeld (u.launchDom k) = false →
    u.linkUp p = true → u.chordEgress p = none → (u.port p).cur = none →
    (u.launchLate k phase ≤ u.launchSlack p →
      ∃ t, exec (.launchBegin k phase dt) s = .next t ∧ (t.launchOf k).begun = true ∧ t.n (launchIdx k) 0xB = 1 ∧
        t.n (0x2160 + p) 9 = (s.n (0x2160 + p) 9 + 1) % 2 ^ 32 ∧ t.mem = s.mem ∧
        ∃ x, (t.port p).cur = some x ∧ x.src = .launch k ∧ x.data = d ∧ x.done = true) ∧
    (u.launchSlack p < u.launchLate k phase →
      (fieldOf (u.n (0x2160 + p) (1 + u.launchCls k)) 0 20 : Int) * 4 < u.launchLate k phase →
      u.bit (0x2160 + p) (1 + u.launchCls k) 20 = false →
      ∃ t, exec (.launchBegin k phase dt) s = .next t ∧ t.n (launchIdx k) 0xB = 4 ∧ t.launchOf k = {} ∧
        t.bit (0x2160 + p) 0x10 1 = true ∧ (t.port p).cur = none ∧ t.mem = s.mem)) ∧
  (∀ (k : Fin 64) (phase : Fin 8) (dt : Nat) (d : List Byte) (s : State),
    let u := s.advance dt
    (u.launchOf k).data = some d → -8 ≤ u.launchLate k phase → u.launchFirst k = true → u.domHeld (u.launchDom k) = true →
    ∃ t, exec (.launchBegin k phase dt) s = .next t ∧ t.n (launchIdx k) 0xB = 5 ∧ t.launchOf k = {} ∧ t.mem = s.mem) ∧
  (∀ (k : Fin 64) (dt : Nat) (s : State),
    let u := s.advance dt
    (s.launchOf k).begun = true → (∀ (p : Nat) (c : TxCur), p < 12 → (s.port p).cur = some c → c.src ≠ .launch k) →
    ∃ t, exec (.launchEnd k dt) s = .next t ∧ t.launchOf k = {} ∧ t.n (launchIdx k) 0xA = (s.n (launchIdx k) 0xA + 1) % 2 ^ 32 ∧
      (s.n (launchIdx k) 5 = 0 → t.bit (launchIdx k) 1 0 = false ∧ t.n (launchIdx k) 7 = 0) ∧
      (s.n (launchIdx k) 5 ≠ 0 → s.bit (launchIdx k) 1 0 = true → t.n (launchIdx k) 7 = 1 ∧
        t.n (launchIdx k) 9 = (nextTarget (u.now32 (u.launchDom k)) (s.n (launchIdx k) 9) (s.n (launchIdx k) 5)).1) ∧
      t.mem = s.mem)

/-! ### Perimeter rings (spec/10, spec/11) -/

/-- Perimeter links (R293, R299, R303, R314, R329, R338–R340): ENABLE starts a station in LISTEN, or turns it off; lock shows; the loss of
one lock makes a SYNCED station HEALING with that link cut, of both makes it listen; a good frame passes on, and one of a slot
in its window is accepted; a CRC error is counted and passes on; sixteen echoes give the link's delay, sixty-four timeouts none. -/
def Obligations.RingLinksHealAndForward : Prop :=
  (∀ (q : Path) (n : Fin 4) (v : Word) (s : State), s.writeOk q (0x2600 + n.val) 1 v.toNat = true → v ≠ 0 → s.perState n = 0 → s.perC n 6 < 4 →
    ∃ t, exec (.ringEnable q n v) s = .next t ∧ t.perC n 1 = 1 ∧ t.perState n = 1 ∧ t.bit (0x2600 + n.val) 0xF 0 = true ∧
      t.mem = s.mem) ∧
  (∀ (q : Path) (n : Fin 4) (s : State), s.writeOk q (0x2600 + n.val) 1 0 = true → s.perC n 6 < 4 →
    ∃ t, exec (.ringEnable q n 0) s = .next t ∧ t.perC n 1 = 0 ∧ t.perState n = 0 ∧ (t.ring n).head = false ∧
      (t.ring n).haveP = false ∧ t.mem = s.mem) ∧
  (∀ (n : Fin 4) (east : Bool) (s : State), s.perState n ≠ 0 →
    ∃ t, exec (.perLockAcquired n east) s = .next t ∧ t.perLock n east = true ∧ ObjectsKept s t [(0x2610 + n.val, 0xA)] ∧
      t.mem = s.mem) ∧
  (∀ (n : Fin 4) (east : Bool) (s : State), s.perState n = 3 → s.perLock n east = true → s.perLock n (!east) = true → s.perC n 6 < 4 →
    ∃ t, exec (.perLockLost n east false false) s = .next t ∧ t.perState n = 5 ∧ (t.ring n).cut = some east ∧
      t.perLock n east = false ∧ t.bit (0x2600 + n.val) 0xF (if east then 3 else 4) = true ∧
      t.n (0x2610 + n.val) 0x15 = (s.n (0x2610 + n.val) 0x15 + 1) % 2 ^ 32 ∧ t.mem = s.mem) ∧
  (∀ (n : Fin 4) (east : Bool) (s : State), s.perState n ≠ 0 → s.perS n 0xA = (if east then 1 else 2) → s.perC n 6 < 4 →
    ∃ t, exec (.perLockLost n east false false) s = .next t ∧ t.perState n = 1 ∧ t.bit (0x2600 + n.val) 0xF 10 = true ∧
      (t.ring n).head = false ∧ t.mem = s.mem) ∧
  (∀ (n : Fin 4) (east lostRx lostTx : Bool) (s : State), s.perState n ≠ 0 → s.perLock n east = true →
    s.n (0x2650 + n.val) 0x10 < 2 ^ 32 → s.perC n 6 < 4 →
    ∃ t, exec (.perLockLost n east lostRx lostTx) s = .next t ∧
      t.n (0x2650 + n.val) 0x10 = (s.n (0x2650 + n.val) 0x10 + lostRx.toNat + lostTx.toNat) % 2 ^ 32 ∧
      ∀ x, (t.ring n).got = some x → x.east ≠ east) ∧
  (∀ (n : Fin 4) (s : State), (s.ring n).silent = true →
    ∃ t, exec (.healingSilenceEnd n) s = .next t ∧ t.ring n = { s.ring n with silent := false } ∧ t.od = s.od ∧ t.mem = s.mem) ∧
  (∀ (n : Fin 4) (east : Bool) (f : List Nib) (ago : Nat) (phase : Fin 8) (s : State),
    let d := if east then 8 + 2 * n.val else 9 + 2 * n.val
    s.perState n ≠ 0 → s.perLock n east = true → (s.ring n).attempt = none → (s.ring n).head = false →
    (s.chordOf d).ready = none → (s.chordOf d).table = [] → perType f = 1 →
    (perCheck f = .good →
      ∃ t, exec (.perFrameReceived n east f 0 ago phase false) s = .next t ∧
        Out.perimeter n (s.perOut n (!east)) f false ∈ t.out) ∧
    (∀ e, perCheck f = .good → perSlot f < 1024 → 2 ≤ s.perState n → (s.ring n).refSeen = true → (s.ring n).refEast = east →
      s.perEntry n (perSlot f) = some e → s.perInWindow n e (s.stampAt (s.perDom n) ago phase 0) = true →
      ∃ t, exec (.perFrameReceived n east f 0 ago phase false) s = .next t ∧
        t.n (0x2610 + n.val) 0xE = (s.n (0x2610 + n.val) 0xE + 1) % 2 ^ 32) ∧
    (perCheck f = .good → perSlot f < 1024 → (s.ring n).refSeen = true → (s.ring n).refEast ≠ east →
      ∃ t, exec (.perFrameReceived n east f 0 ago phase false) s = .next t ∧ t.mem = s.mem ∧
        t.n (0x2610 + n.val) 0xE = s.n (0x2610 + n.val) 0xE ∧ (t.ring n).got = (s.ring n).got ∧
        Out.perimeter n (s.perOut n (!east)) f false ∈ t.out) ∧
    (perCheck f = .crc →
      ∃ t, exec (.perFrameReceived n east f 0 ago phase false) s = .next t ∧ t.bit (0x2600 + n.val) 0xF 8 = true ∧
        t.n (0x2610 + n.val) 0x10 = (s.n (0x2610 + n.val) 0x10 + 1) % 2 ^ 32 ∧ (t.ring n).got = (s.ring n).got ∧
        Out.perimeter n (s.perOut n (!east)) f false ∈ t.out ∧ t.mem = s.mem)) ∧
  (∀ (n : Fin 4) (east : Bool) (s : State), s.perState n ≠ 0 → s.perLock n east = true → (s.echoOf n east).waiting = false →
    (s.echoOf n east).tries < 64 →
    ∃ t, exec (.echoRequestSend n east) s = .next t ∧ t.out = s.out ++ [.linkSignal n east false] ∧ t.od = s.od ∧ t.mem = s.mem ∧
      t.echoOf n east = { s.echoOf n east with waiting := true, tries := (s.echoOf n east).tries + 1 }) ∧
  (∀ (n : Fin 4) (east : Bool) (s : State), s.perState n ≠ 0 → s.perLock n east = true →
    ∃ t, exec (.echoRequestReceived n east false) s = .next t ∧ t.out = s.out ++ [.linkSignal n east true] ∧ t.od = s.od ∧
      t.mem = s.mem) ∧
  (∀ (n : Fin 4) (east : Bool) (at0 : Nat) (s : State), (s.echoOf n east).waiting = true → (s.echoOf n east).count + 1 < 16 →
    ∃ t, exec (.echoReplyReceived n east at0) s = .next t ∧ t.od = s.od ∧ t.mem = s.mem ∧
      t.echoOf n east = { waiting := false, tries := 0, count := (s.echoOf n east).count + 1, sum := (s.echoOf n east).sum + at0 }) ∧
  (∀ (n : Fin 4) (east : Bool) (at0 : Nat) (s : State), (s.echoOf n east).waiting = true → (s.echoOf n east).count = 15 →
    ∃ t, exec (.echoReplyReceived n east at0) s = .next t ∧ t.mem = s.mem ∧
      t.perS n (if east then 8 else 9) = ((s.echoOf n east).sum + at0 - 16 * s.perTurn n + 16) / 32 % 2 ^ 64) ∧
  (∀ (n : Fin 4) (east : Bool) (s : State), (s.echoOf n east).waiting = true →
    ∃ t, exec (.echoTimeout n east) s = .next t ∧ (t.echoOf n east).waiting = false ∧ t.mem = s.mem ∧
      (64 ≤ (s.echoOf n east).tries → t.perS n (if east then 8 else 9) = 0xFFFF_FFFF) ∧
      ((s.echoOf n east).tries < 64 → t.od = s.od))

/-- Measurement and management (R305, R306, R319, R320, R327): a controller's MEASURE frames leave and return, a node adds its part and
knows its position and delay; a request is pending, then answered or timed out; a node answers over the frame's own bytes,
takes a number, stages pieces and commits only a table that is whole and valid. Model readings that it
rests on: log entries 39, 91, 93. -/
def Obligations.RingsMeasureAndManage : Prop :=
  (∀ (n : Fin 4) (east : Bool) (s : State), s.perC n 2 = 0 → s.perState n ≠ 0 → s.perLock n east = true →
    ∃ t, exec (.measureSend n east) s = .next t ∧ t.od = s.od ∧ t.mem = s.mem ∧
      (if east then (t.ring n).measP = none else (t.ring n).measS = none) ∧ t.out = s.out ++
        [.perimeter n east (perFrame 0xFFFE 0 3 (nibsOf (zeros 5 ++ leBytes (if east then 0 else 1) 1 ++ zeros 1018))) false]) ∧
  (∀ (n : Fin 4) (x : PerFrame) (s : State),
    let p := bytesOf x.payload
    (s.ring n).got = some x → x.typ = 3 → s.perC n 2 = 1 → x.payload.length = 2048 → pLe p 5 1 = 0 →
    ∃ t f, exec (.measureForward n) s = .next t ∧ t.perS n 4 = (pLe p 4 1 + 1) % 256 ∧
      t.perS n 5 = (pLe p 0 4 + s.perS n (if x.east then 8 else 9)) % 2 ^ 32 ∧ (t.ring n).haveP = true ∧ (t.ring n).got = none ∧
      t.out = s.out ++ [.perimeter n (s.perOut n (!x.east)) f false] ∧ t.mem = s.mem) ∧
  (∀ (n : Fin 4) (x : PerFrame) (ids : List (Half × DWord)) (s : State),
    let p := bytesOf x.payload
    (s.ring n).got = some x → x.typ = 3 → s.perC n 2 = 0 → x.payload.length = 2048 → pLe p 5 1 = 0 →
    ((s.ring n).measS = none →
      ∃ t, exec (.measureReturn n ids) s = .next t ∧ (t.ring n).measP = some (pLe p 4 1, pLe p 0 4, p.drop 8) ∧
        (t.ring n).got = none ∧ t.od = s.od ∧ t.mem = s.mem) ∧
    ((s.ring n).measS ≠ none →
      ∃ t, exec (.measureReturn n ids) s = .next t ∧ t.perS n 3 = pLe p 4 1 ∧ t.perS n 4 = 0 ∧
        t.perS n 5 = (pLe p 0 4 + s.perS n 9) % 2 ^ 32 ∧ t.bit (0x2600 + n.val) 0xF 1 = true)) ∧
  (∀ (q : Path) (n : Fin 4) (s : State), s.writeOk q (0x2640 + n.val) 4 1 = true → (s.ring n).head = false ∨ (s.ring n).started = true →
    ∃ t, exec (.mgmtSend q n 1) s = .next t ∧ t.n (0x2640 + n.val) 5 = 1 ∧ (t.ring n).mgmtSent = false ∧
      ObjectsKept s t [(0x2640 + n.val, 5)] ∧ t.mem = s.mem) ∧
  (∀ (n : Fin 4) (d : List Byte) (good : Bool) (s : State), s.n (0x2640 + n.val) 5 = 1 → (s.ring n).mgmtSent = true →
    d.length = s.n (0x2640 + n.val) 2 →
    ∃ t, exec (.mgmtReturn n d good) s = .next t ∧ t.n (0x2640 + n.val) 5 = (if good then 2 else 3) ∧
      t.bit (0x2600 + n.val) 0xF 6 = true ∧ (t.ring n).mgmtSent = false) ∧
  (∀ (n : Fin 4) (s : State), s.n (0x2640 + n.val) 5 = 1 → (s.ring n).mgmtSent = true →
    ∃ t, exec (.mgmtTimeout n) s = .next t ∧ t.n (0x2640 + n.val) 5 = 4 ∧ t.bit (0x2600 + n.val) 0xF 6 = true ∧
      (t.ring n).mgmtSent = false ∧ t.mem = s.mem) ∧
  (∀ (n : Fin 4) (x : PerFrame) (p : List Byte) (s : State), pLe p 2 1 ≠ 255 →
    let sent := fun (status : Nat) (reply : List Byte) => s.out ++ [.perimeter n (s.perOut n (!x.east)) (perFrame x.slot x.source x.typ
      (nibsOf (pPut (pPut p 12 (leBytes status 1)) 16 ((reply.take (pLe p 3 1)).take (p.length - 16))))) false]
    (s.mgmtFor n 1 = some (x, p) → ∃ t r, exec (.mgmtReadIdentity n) s = .next t ∧ (t.ring n).got = none ∧
      t.out = sent 1 (leBytes (s.n 0x2000 8) 8 ++ r) ∧ t.od = s.od ∧ t.mem = s.mem) ∧
    (s.mgmtFor n 2 = some (x, p) → pLe p 1 1 = 1 → 1 ≤ pLe p 4 1 → pLe p 4 1 ≤ 254 →
      ∃ t, exec (.mgmtAssignNumber n) s = .next t ∧ t.perC n 3 = pLe p 4 1 ∧ t.out = sent 1 [] ∧
        ObjectsKept s t [(0x2600 + n.val, 3)] ∧ t.mem = s.mem) ∧
    (s.mgmtFor n 3 = some (x, p) → pLe p 4 1 ≤ 8 →
      ∃ t, exec (.mgmtWriteTable n) s = .next t ∧ t.od = s.od ∧ t.mem = s.mem ∧ t.out = sent 1 [] ∧
        t.staged n (pLe p 4 1) = s.staged n (pLe p 4 1) ++ [(pLe p 6 2, p.drop 16)]) ∧
    (s.mgmtFor n 4 = some (x, p) → ((s.staged n (pLe p 8 1)).map (·.2.length)).sum ≠ pLe p 4 4 →
      ∃ t, exec (.mgmtCommit n) s = .next t ∧ t.staged n (pLe p 8 1) = [] ∧ t.out = sent 2 [] ∧ t.od = s.od ∧
        (t.ring n).tables = (s.ring n).tables ∧ t.mem = s.mem) ∧
    (s.mgmtFor n 4 = some (x, p) → pLe p 8 1 < 8 →
      let e := s.stagedEntries n (pLe p 8 1) (stagedBytes (s.staged n (pLe p 8 1)))
      ((s.staged n (pLe p 8 1)).map (·.2.length)).sum = pLe p 4 4 → (stagedBytes (s.staged n (pLe p 8 1))).length % 16 = 0 →
      e.length ≤ 1024 → s.slotsElse n (pLe p 8 1) + e.length ≤ 4096 → s.slotTableFault n (pLe p 8 1) 0 none e = none →
      ∃ t, exec (.mgmtCommit n) s = .next t ∧ t.staged n (pLe p 8 1) = [] ∧ t.perTable n (pLe p 8 1) = e ∧
        t.perModeObj n (pLe p 8 1) 4 = 2 ∧ t.out = sent 1 [] ∧ t.mem = s.mem) ∧
    (s.mgmtFor n 5 = some (x, p) → ∃ t r, exec (.mgmtReadStatus n) s = .next t ∧ (t.ring n).got = none ∧
      t.out = sent 1 (leBytes (s.perState n) 4 ++ r) ∧ t.od = s.od ∧ t.mem = s.mem) ∧
    (s.mgmtFor n 6 = some (x, p) → ∃ t r, exec (.mgmtReadLinks n) s = .next t ∧ (t.ring n).got = none ∧
      t.out = sent 1 (leBytes (s.perS n 8) 4 ++ leBytes (s.perS n 9) 4 ++ r) ∧ t.od = s.od ∧ t.mem = s.mem))

/-- References and cold start (R308, R321, R329, R331–R334): the time master sends its reference with the next CYCLE; a listening station
takes one and integrates, one of another cycle length makes a SYNCED station passive; missed references count, two
make it passive and eight make it listen; a backup takes over; the cold start is won by its second return or lost to a better one. Model readings that it
rests on: log entry 37. -/
def Obligations.ReferencesLeadTheRing : Prop :=
  (∀ (n : Fin 4) (phase : Fin 8) (dt : Nat) (s : State),
    let u := s.advance dt
    let c := if (u.ring n).started then (u.perS n 0xB + 1) % 2 ^ 32 else 0
    u.perHeadReady n = true → (u.ring n).change = none →
    (u.ring n).started = false ∨ 0 ≤ distQ (u.nowQ (u.perDom n) phase) ((u.ring n).refTx + u.perCycle n) →
    ∃ t p, exec (.referenceSend n phase dt) s = .next t ∧ t.perS n 0xB = c ∧ t.perS n 2 = u.perSelf n ∧
      t.n (0x2610 + n.val) 0xF = (s.n (0x2610 + n.val) 0xF + 1) % 2 ^ 32 ∧ (t.ring n).started = true ∧ pLe p 0 4 = c ∧
      p.length = 32 ∧ Out.perimeter n (u.perOut n (u.perInsertEast n)) (perFrame 0xFFFF (u.perSelf n) 0 (nibsOf p)) false ∈ t.out ∧
      t.mem = s.mem) ∧
  (∀ (n : Fin 4) (x : PerFrame) (s : State),
    let p := bytesOf x.payload
    (s.ring n).got = some x → x.typ = 0 → s.perState n = 1 → (s.ring n).attempt = none → (s.ring n).head = false →
    p.length = 32 → x.east = false → (s.ring n).agreed = false → s.perC n 6 < 4 →
    s.perValid n (refMode p) = false ∨ s.perModeObj n (refMode p) 3 = pLe p 20 4 →
    ∃ t, exec (.referenceAccept n) s = .next t ∧ t.perState n = 2 ∧ t.perS n 0xB = pLe p 0 4 ∧
      t.perS n 2 = x.source % 2 ^ 64 ∧ (t.ring n).refSeen = true ∧ (t.ring n).got = none ∧ t.mem = s.mem) ∧
  (∀ (n : Fin 4) (x : PerFrame) (s : State),
    let p := bytesOf x.payload
    (s.ring n).got = some x → x.typ = 0 → s.perState n = 3 → (s.ring n).attempt = none → (s.ring n).head = false →
    p.length = 32 → s.refInTime n x p = true → s.perC n 6 < 4 →
    s.perValid n (refMode p) = true → s.perModeObj n (refMode p) 3 ≠ pLe p 20 4 →
    ∃ t, exec (.referenceAccept n) s = .next t ∧ t.perState n = 4 ∧ (t.ring n).got = none ∧
      t.n (0x2610 + n.val) 0x12 = (s.n (0x2610 + n.val) 0x12 + 1) % 2 ^ 32 ∧ t.mem = s.mem) ∧
  (∀ (n : Fin 4) (dt : Nat) (s : State),
    let u := s.advance dt
    2 ≤ s.perState n → (s.ring n).head = false → (s.ring n).haveLast = true → s.perC n 6 < 4 →
    4 * (u.perGuard n : Int) < distQ (u.nowQ (u.perDom n) 0) (u.ring n).expect →
    ∃ t, exec (.referenceMissed n dt) s = .next t ∧ t.mem = s.mem ∧ t.bit (0x2600 + n.val) 0xF 2 = true ∧
      t.n (0x2610 + n.val) 0x12 = (s.n (0x2610 + n.val) 0x12 + 1) % 2 ^ 32 ∧
      ((s.ring n).missed = 0 → t.perState n = s.perState n ∧ (t.ring n).missed = 1) ∧
      (1 ≤ (s.ring n).missed → (s.ring n).missed < 7 → s.perState n = 3 → t.perState n = 4) ∧
      (7 ≤ (s.ring n).missed → t.perState n = 1)) ∧
  (∀ (n : Fin 4) (phase : Fin 8) (dt : Nat) (s : State),
    let u := s.advance dt
    s.perState n = 3 → (s.ring n).head = false → 1 ≤ s.perC n 4 → s.perC n 4 ≤ 3 → (s.ring n).haveLast = true → s.perC n 2 = 1 →
    0 ≤ distQ (u.nowQ (u.perDom n) phase) ((u.ring n).expect + u.perFwd n + u.perC n 4 * u.perGuard n) →
    ∃ t, exec (.backupTakeover n phase dt) s = .next t ∧ (t.ring n).head = true ∧ t.perS n 0xB = (s.perS n 0xB + 1) % 2 ^ 32 ∧
      t.n (0x2650 + n.val) 0x14 = (s.n (0x2650 + n.val) 0x14 + 1) % 2 ^ 32 ∧ t.mem = s.mem) ∧
  (∀ (n : Fin 4) (s : State), s.perState n = 1 → s.perC n 4 ≤ 3 → s.perS n 0xA = 3 → (s.ring n).attempt = none → s.perC n 2 = 0 →
    ∃ t, exec (.coldstartListenTimeout n) s = .next t ∧ (t.ring n).attempt = some 0 ∧ (t.ring n).returns = 0 ∧ t.od = s.od ∧
      t.mem = s.mem) ∧
  (∀ (n : Fin 4) (k : Nat) (s : State), (s.ring n).attempt = some k →
    ∃ t f, exec (.coldstartSend n) s = .next t ∧ (t.ring n).attempt = some (k + 1) ∧
      t.n (0x2650 + n.val) 0x12 = (s.n (0x2650 + n.val) 0x12 + 1) % 2 ^ 32 ∧
      t.out = s.out ++ [.perimeter n (s.perOut n true) (perFrame 0xFFFF (s.perSelf n) 4 f) false] ∧
      ObjectsKept s t [(0x2650 + n.val, 0x12)] ∧ t.mem = s.mem) ∧
  (∀ (n : Fin 4) (x : PerFrame) (k : Nat) (s : State),
    let p := bytesOf x.payload
    (s.ring n).got = some x → x.typ = 4 → (s.ring n).attempt = some k → p.length = 16 → s.perC n 6 < 4 →
    (pLe p 0 8 = s.n 0x2000 8 → x.source = s.perSelf n → (s.ring n).returns = 1 →
      ∃ t, exec (.coldstartReceived n) s = .next t ∧ (t.ring n).head = true ∧ (t.ring n).attempt = none ∧ t.perState n = 3 ∧
        t.perS n 0xC = s.perC n 8 ∧ t.mem = s.mem) ∧
    (pLe p 8 1 % 4 < s.perC n 4 ∨ (pLe p 8 1 % 4 = s.perC n 4 ∧ pLe p 0 8 < s.n 0x2000 8) → pLe p 0 8 ≠ s.n 0x2000 8 →
      ∃ t, exec (.coldstartReceived n) s = .next t ∧ (t.ring n).attempt = none ∧ (t.ring n).head = (s.ring n).head ∧
        t.n (0x2650 + n.val) 0x13 = (s.n (0x2650 + n.val) 0x13 + 1) % 2 ^ 32 ∧ ObjectsKept s t [(0x2650 + n.val, 0x13)] ∧
        t.mem = s.mem))

/-- Slots, the guardian, mode changes (R311–R313, R330, R335–R337, R343, R344): a table is loaded, checked and kept or rejected with its
entry; a payload is fetched and its frame leaves in its slot while the guardian's window is open; one that the window cuts ends with
ABT; a held domain's slots stay empty and count; windows are committed and checked; a change or a restore is asked for. Model readings that it
rests on: log entry 86. -/
def Obligations.SlotsAndTheGuardianAct : Prop :=
  (∀ (q : Path) (n : Fin 4) (m : Fin 8) (v : Half) (s : State), s.writeOk q (0x2620 + 8 * n.val + m.val) 2 v.toNat = true →
    ∃ t, exec (.slotTableLoad q n m v) s = .next t ∧ t.perModeObj n m 2 = v.toNat ∧ t.perModeObj n m 4 = 1 ∧
      ObjectsKept s t [(0x2620 + 8 * n.val + m.val, 2), (0x2620 + 8 * n.val + m.val, 4)] ∧ t.mem = s.mem) ∧
  (∀ (n : Fin 4) (m : Fin 8) (s : State),
    let o := 0x2620 + 8 * n.val + m.val
    let l := s.entriesAt (s.n o 1) (s.n o 2)
    s.n o 4 = 1 →
    ∃ t, exec (.slotTableChecked n m) s = .next t ∧ t.mem = s.mem ∧
      (s.slotTableFault n m 0 none l = none → t.perTable n m = l ∧ t.n o 4 = 2 ∧ ObjectsKept s t [(o, 4)]) ∧
      (∀ r, s.slotTableFault n m 0 none l = some r → t.perTable n m = [] ∧ t.n o 4 = 3 ∧ t.n o 5 = r % 2 ^ 64 ∧
        t.bit (0x2600 + n.val) 0xF 5 = true)) ∧
  (∀ (n : Fin 4) (k : Fin 1024) (e : List Word) (s : State), s.perEntry n k = some e → slotTx e = true → slotKind e ≠ 3 →
    s.perState n = 3 ∨ s.perState n = 5 → (s.slotFetch n k).1 = 0 →
    ∃ t, exec (.slotFetchStart n k) s = .next t ∧ t.slotFetch n k = (1, []) ∧ t.od = s.od ∧ t.mem = s.mem) ∧
  (∀ (n : Fin 4) (k : Fin 1024) (e : List Word) (s : State), s.perEntry n k = some e → (s.slotFetch n k).1 = 1 →
    s.memc.dbe = [] → inBankOrStore (entW e 4) = true → slotLen e ≠ 0 →
    ∃ t, exec (.slotFetchDone n k) s = .next t ∧ t.od = s.od ∧ t.mem = s.mem ∧
      t.slotFetch n k = (2, (nibsOf (s.bytes (entW e 4) ((slotLen e + 1) / 2))).take (slotLen e))) ∧
  (∀ (n : Fin 4) (f : List Nib) (east : Bool) (b : Nat) (s : State), (s.ring n).cutting = some (f, east, b) → s.perC n 6 < 4 →
    ∃ t, exec (.guardianCut n) s = .next t ∧ (t.ring n).cutting = none ∧ Out.perimeter n (s.perOut n east) f true ∈ t.out ∧
      t.n (0x2650 + n.val) 0xC = (s.n (0x2650 + n.val) 0xC + 1) % 2 ^ 32 ∧ t.mem = s.mem) ∧
  (∀ (n : Fin 4) (k : Fin 1024) (phase : Fin 8) (dt : Nat) (e : List Word) (l : List Nib) (close : Nat) (s : State),
    let u := s.advance dt
    let f := perFrame k (u.perSelf n) (if u.perAck n then 6 else 1) l
    let g := fun (j : Nat) => u.guardNow n (u.rimQ 0 phase + j * u.perSym n)
    u.perEntry n k = some e → slotTx e = true → slotKind e = 1 → (u.ring n).refSeen = true → (u.ring n).mute = 0 →
    0 ≤ distQ (u.nowQ (u.perDom n) phase) ((u.ring n).refTx + slotStart e * 4) → u.perState n = 3 ∨ u.perState n = 5 →
    u.perC n 2 = 0 ∨ u.perSelf n ≠ 0 → u.slotFetch n k = (2, l) →
    (u.perHeld n = false → u.guardOpen n 1 (g 0) = some close → g (f.length + 2) ≤ close →
      ∃ t, exec (.slotInsert n k false phase dt) s = .next t ∧ Out.perimeter n (u.perOut n (u.perInsertEast n)) f false ∈ t.out ∧
        t.n (0x2610 + n.val) 0xF = (s.n (0x2610 + n.val) 0xF + 1) % 2 ^ 32 ∧ t.slotFetch n k = (0, []) ∧ t.mem = s.mem) ∧
    (u.perHeld n = true →
      ∃ t, exec (.slotInsert n k false phase dt) s = .next t ∧ t.slotFetch n k = (0, []) ∧ t.mem = s.mem ∧
        t.n (0x2650 + n.val) 0xF = (s.n (0x2650 + n.val) 0xF + 1) % 2 ^ 32)) ∧
  (∀ (q : Path) (n : Fin 4) (v : Byte) (s : State), s.writeOk q (0x2650 + n.val) 2 v.toNat = true →
    ∃ t, exec (.guardTableCommit q n v) s = .next t ∧ t.n (0x2650 + n.val) 2 = v.toNat ∧ t.n (0x2650 + n.val) 3 = 1 ∧
      (t.ring n).guardMaster = q.id.val ∧ (t.ring n).guard = (s.ring n).guard ∧ t.mem = s.mem) ∧
  (∀ (n : Fin 4) (s : State),
    let a := s.n (0x2650 + n.val) 1
    let l := (List.range (s.n (0x2650 + n.val) 2)).map (fun k =>
      (BitVec.ofNat 32 (s.w32 (a + 8 * k)), BitVec.ofNat 32 (s.w32 (a + 8 * k + 4))))
    s.n (0x2650 + n.val) 3 = 1 →
    ∃ t, exec (.guardTableChecked n) s = .next t ∧ t.mem = s.mem ∧
      (l.all winOk = true → (t.ring n).guard = l ∧ t.n (0x2650 + n.val) 3 = 2) ∧
      (l.all winOk = false → (t.ring n).guard = (s.ring n).guard ∧ t.n (0x2650 + n.val) 3 = 3)) ∧
  (∀ (q : Path) (n : Fin 4) (v : Half) (s : State), s.writeOk q (0x2650 + n.val) 5 v.toNat = true →
    ∃ t, exec (.modeRequest q n v) s = .next t ∧ t.n (0x2650 + n.val) 5 = v.toNat ∧ ObjectsKept s t [(0x2650 + n.val, 5)] ∧
      (t.ring n).change = some { mode := v.toNat % 8, lead := v.toNat / 2 ^ 8, restore := false } ∧ t.mem = s.mem) ∧
  (∀ (q : Path) (n : Fin 4) (s : State), s.writeOk q (0x2650 + n.val) 6 1 = true →
    ∃ t, exec (.restoreRequest q n 1) s = .next t ∧ t.od = s.od ∧ t.mem = s.mem ∧
      (t.ring n).change = some { mode := s.perMode n, lead := 4, restore := true })

/-! ### The Locus (spec/12) -/

/-- Locus tracks (R351, R354–R362): ENABLE and ABORT, staging of the record of the present index, a suppressed cycle, a record that is
complete in time or late, a push into a FIFO, the commit point, and a swap that is armed, tied or cancelled. Model readings that it
rests on: log entries 104, 105, 107. -/
def Obligations.TracksStageTheirRecords : Prop :=
  (∀ (q : Path) (t : Fin 16) (v : Word) (s : State), s.writeOk q (0x2710 + t.val) 1 v.toNat = true → v ≠ 0 → s.trkC t 1 ≠ 1 →
    ∃ u, exec (.trackEnable q t v) s = .next u ∧ u.trkC t 1 = 1 ∧ u.trkS t 1 = 1 ∧ u.trkS t 0xC = 0 ∧
      (u.track t).table = (s.setTable t 9).getD [] ∧ (u.track t).prev = none ∧
      ObjectsKept s u [(0x2710 + t.val, 1), (0x2720 + t.val, 1), (0x2720 + t.val, 0xC)] ∧ u.mem = s.mem) ∧
  (∀ (q : Path) (t : Fin 16) (s : State), s.writeOk q (0x2710 + t.val) 1 0 = true → s.trkC t 1 = 1 →
    ∃ u, exec (.trackEnable q t 0) s = .next u ∧ u.trkC t 1 = 0 ∧ u.trkS t 1 = 0 ∧ (u.track t).data = none ∧
      (u.track t).push = [] ∧ u.mem = s.mem) ∧
  (∀ (q : Path) (t : Fin 16) (v : Byte) (s : State), s.writeOk q (0x2720 + t.val) 0xC v.toNat = true → s.trkC t 1 = 1 →
    (s.trkWriting t = false →
      ∃ u, exec (.trackAbort q t v) s = .next u ∧ u.trkC t 1 = 0 ∧ u.trkS t 1 = 0 ∧ u.trkS t 0xC = 1 ∧ (u.track t).data = none ∧
        u.mem = s.mem) ∧
    (s.trkWriting t = true →
      ∃ u, exec (.trackAbort q t v) s = .next u ∧ u.track t = { s.track t with abortReq := true } ∧ u.od = s.od ∧ u.mem = s.mem)) ∧
  (∀ (t : Fin 16) (dt : Nat) (s : State),
    let v := s.advance dt
    v.trkC t 1 = 1 → v.trkS t 1 = 1 → (v.trkSource t).isSome = true → isDue (v.now32 (v.trkDom t)) (v.trkStart t) = true →
    v.swapDue t = false → (v.track t).overrun = false →
    (v.trkHeld t = false → v.trkMayRead t = true →
      ∃ u, exec (.locusStagingStart t dt) s = .next u ∧ u.trkS t 1 = 2 ∧ u.trkS t 5 = (v.track t).cycle % 2 ^ 64 ∧
        (u.track t).snap = v.bytes (v.trkC t 9 + v.trkS t 2 * v.trkC t 0xA) (v.trkC t 7) ∧ u.trkS t 2 = v.trkS t 2 ∧
        ObjectsKept v u [(0x2720 + t.val, 1), (0x2720 + t.val, 5)] ∧ u.mem = s.mem) ∧
    (v.trkHeld t = true →
      ∃ u, exec (.locusStagingStart t dt) s = .next u ∧ u.trkS t 1 = 3 ∧ u.trkS t 9 = (v.trkS t 9 + 1) % 2 ^ 32 ∧
        u.trkS t 2 = v.trkS t 2 ∧ (u.track t).cycle = ((v.track t).cycle + 1) % 2 ^ 32 ∧ (u.track t).data = none ∧ u.mem = s.mem)) ∧
  (∀ (t : Fin 16) (dt : Nat) (s : State),
    let v := s.advance dt
    let a := v.trkC t 9 + v.trkS t 2 * v.trkC t 0xA
    let n := v.trkC t 7
    v.trkReading t = true → v.ready a = true → v.ready (a + n - 1) = true → v.memc.dbe = [] → inBankOrStore a = true →
    (0 ≤ v.trkSlack t → n % 8 = 0 → 0 < n → (v.track t).snap = v.bytes a n →
      ∃ u, exec (.locusReadDone t dt) s = .next u ∧ (u.track t).data = some (v.bytes a n) ∧ (u.track t).late = false ∧
        (u.track t).slack = v.trkSlack t ∧ u.od = v.od ∧ u.mem = s.mem) ∧
    (v.trkSlack t < 0 →
      ∃ u, exec (.locusReadDone t dt) s = .next u ∧ u.trkS t 7 = (v.trkS t 7 + 1) % 2 ^ 32 ∧ u.bit 0x2700 7 t = true ∧
        u.mem = s.mem)) ∧
  (∀ (t : Fin 16) (dt : Nat) (s : State),
    let v := s.advance dt
    v.trkReading t = true → v.trkSlack t < 0 →
    ∃ u, exec (.locusDeadlineMiss t dt) s = .next u ∧ u.trkS t 7 = (v.trkS t 7 + 1) % 2 ^ 32 ∧ u.trkS t 6 = v.trkS t 6 ∧
      u.bit 0x2700 7 t = true ∧ u.mem = s.mem ∧
      (bitOf (v.trkC t 8) 0 = true ∨ (v.track t).prev = none →
        (u.track t).data = some (List.replicate (v.trkC t 7) (BitVec.ofNat 8 (v.trkC t 8 / 256))) ∧ (u.track t).late = true) ∧
      (bitOf (v.trkC t 8) 1 = true → u.n 0x2001 4 = 1 ∧ u.n 0x2001 1 = 0)) ∧
  (∀ (t : Fin 16) (w : Word) (l : List Word) (s : State),
    let m := fieldOf (s.trkC t 3) 8 5
    (s.track t).push = w :: l → s.txRoom m = true →
    ∃ u, exec (.locusPioPush t) s = .next u ∧ (u.sm m).txF = (s.sm m).txF ++ [w] ∧ (u.track t).push = l ∧
      ObjectsKept s u [(0x2A40 + m, 1), (0x2A40 + m, 6)] ∧
      u.mem = s.mem) ∧
  (∀ (t : Fin 16) (d : List Byte) (s : State),
    let a := s.trkC t 4
    (s.track t).data = some d → s.trkS t 1 = 2 → (s.track t).push = [] → s.trkDest t = 1 → (s.track t).late = false →
    d.length % 8 = 0 → (∀ k < d.length, inFacetStore (a + k) = true) → s.ready a = true → s.ready (a + s.trkLen t + 15) = true →
    ∃ u, exec (.locusStaged t) s = .next u ∧ u.trkS t 6 = (s.trkS t 6 + 1) % 2 ^ 32 ∧ (u.track t).prev = some d ∧
      (∀ b, u.byte b = if a ≤ b ∧ b < a + d.length then d.getD (b - a) 0 else s.byte b) ∧
      ((s.track t).abortReq = true → u.trkC t 1 = 0 ∧ u.trkS t 0xC = 2) ∧
      ((s.track t).abortReq = false → s.trkC t 0xC = 1 → (s.track t).overrun = false →
        u.trkS t 2 = (s.trkS t 2 + 1) % s.trkC t 0xB % 2 ^ 64 ∧ u.trkS t 1 = 1)) ∧
  (∀ (q : Path) (c : Instr) (v : Nat) (s : State), (c, v) ∈ [(Instr.swapArm q, 1), (Instr.swapArmTied q, 3)] →
    s.writeOk q 0x2700 4 v = true →
    ∃ u, exec c s = .next u ∧ u.n 0x2700 5 = 1 ∧
      u.locus = { swapSet := s.n 0x2700 2, swapLeft := s.n 0x2700 2, tied := decide (v = 3) } ∧
      ObjectsKept s u [(0x2700, 5)] ∧ u.mem = s.mem) ∧
  (∀ (q : Path) (s : State), s.writeOk q 0x2700 4 2 = true →
    (s.n 0x2700 5 = 1 → s.locus.swapLeft = s.locus.swapSet →
      ∃ u, exec (.swapCancel q) s = .next u ∧ u.n 0x2700 5 = 3 ∧ u.locus = {} ∧ u.bit 0x2700 7 17 = true ∧
        ObjectsKept s u [(0x2700, 5), (0x2700, 7)] ∧ u.mem = s.mem) ∧
    (s.n 0x2700 5 ≠ 1 ∨ s.locus.swapLeft ≠ s.locus.swapSet →
      ∃ u, exec (.swapCancel q) s = .next u ∧ u.od = s.od ∧ u.locus = s.locus ∧ u.mem = s.mem))

/-! ### The Lattice (spec/13) -/

/-- The agent, its neighbours and its keeper (R368, R371–R373, R375–R381, R385): discovery, HELLOs, a frame that is counted or taken,
neighbours that come and go, addresses that are asked for, relayed, granted and forgotten, link reports, routes that the keeper
makes and a member takes, and the join comparison. Model readings that it
rests on: log entries 40, 42, 114, 116. -/
def Obligations.LatticeAgentsFindTheirKeeper : Prop :=
  (∀ (q : Path) (s : State), s.writeOk q 0x2800 1 1 = true → s.latOn = false →
    ∃ t, exec (.latticeEnable q 1) s = .next t ∧ t.latOn = true ∧ t.latState = 1 ∧ t.n 0x2801 2 = s.ownId) ∧
  (∀ (q : Path) (s : State), s.writeOk q 0x2800 1 0 = true →
    ∃ t, exec (.latticeEnable q 0) s = .next t ∧ t.latOn = false ∧ t.latState = 0 ∧ (∀ n < 16, t.nbN n 1 = 0) ∧
      t.lat = { set := s.lat.set, addrs := s.lat.addrs }) ∧
  (∀ (s : State), s.latState = 1 → s.upNbs = [] →
    ∃ t, exec .discoveryEnd s = .next t ∧ t.latState = 3 ∧ t.n 0x2801 2 = s.ownId ∧ t.n 0x2000 7 = s.n 0x2800 0xD ∧
      t.bit 0x2001 2 4 = false ∧ t.bit 0x2800 0x10 11 = true) ∧
  (∀ (dt : Nat) (s : State),
    let v := s.advance dt
    v.latOn = true → v.isKeeper = true → v.bestKeeper.2.1 = v.ownId → v.n 0x2801 2 = v.ownId →
    ∃ t, exec (.helloSend dt) s = .next t ∧ t.n 0x2801 5 = (v.lat.ownSeq + 1) % 2 ^ 32 ∧ t.n 0x2801 4 = v.ownAddr ∧
      t.isKeeper = true) ∧
  (∀ (p : Fin 12) (dt : Nat) (s : State),
    let v := s.advance dt
    v.latOn = true → v.latPorts.contains p.val = true → v.helloDue p = true →
    exec (.triggeredHello p dt) s = .next (v.hello p)) ∧
  (∀ (p : Fin 12) (d : List Byte) (s : State), s.latticeType p d = true → s.latticeMine p d = true →
    let x := latParse p d
    (latIntact d = false →
      ∃ t, exec (.latticeFrameDelivered p d) s = .next t ∧ t.n 0x2821 8 = (s.n 0x2821 8 + 1) % 2 ^ 32 ∧ t.lat = s.lat ∧
        t.mem = s.mem) ∧
    (latIntact d = true → at' d (etPos d + 2) / 16 = 1 → x.typ < 11 → x.payload.length ≤ 1472 → x.dest ≠ 0xFFFF → s.lat.answers = [] →
      ∃ t, exec (.latticeFrameDelivered p d) s = .next t ∧ t.n 0x2821 2 = (s.n 0x2821 2 + 1) % 2 ^ 32 ∧
        t.lat = { s.lat with got := some x } ∧ t.mem = s.mem)) ∧
  (∀ (x : LatFrame) (n : Nat) (s : State), s.lat.got = some x → x.typ = 0 → x.resp = false → s.latOn = true →
    x.payload.length = 64 → x.dest = 0 → beNat x.payload 44 8 = s.ownId → s.nbSlot (beNat x.payload 0 8) x.port true = some n →
    ∃ t, exec .helloReceived s = .next t ∧ t.nbN n 1 = 2 ∧ t.nbN n 2 = beNat x.payload 0 8 ∧ t.nbN n 4 = beNat x.payload 8 2 ∧
      t.nbN n 5 = x.port % 2 ^ 64 ∧ t.lat.got = none) ∧
  (∀ (n : Fin 16) (s : State), s.latOn = true → s.nbN n 1 ≠ 0 →
    ∃ t, exec (.neighbourTimeout n) s = .next t ∧ t.nbN n 1 = 0 ∧
      (s.nbN n 1 = 2 → t.nbN n 9 = (s.nbN n 9 + 1) % 2 ^ 32 ∧ t.bit 0x2800 0x10 3 = true)) ∧
  (∀ (id : DWord) (s : State), (∃ c ∈ s.lat.claims, c.id = id.toNat ∧ c.fresh = true) →
    ∃ t, exec (.keeperClaimStale id) s = .next t ∧
      t.lat.claims = s.lat.claims.map (fun c => if c.id = id.toNat then { c with fresh := false } else c)) ∧
  (∀ (n : Nat) (s : State), s.latState = 2 ∨ s.latState = 4 → s.ownAddr = 0 → s.sponsor = some n →
    exec .joinSend s = .next (s.latLocal (s.nbN n 5) (tblGet (fun _ => 0) n s.lat.nbMac) 3 false
      (beOf s.ownId 8 ++ beOf (s.n 0x2802 2) 2))) ∧
  (∀ (x : LatFrame) (s : State), s.lat.got = some x → x.typ = 3 → s.latOn = true → s.isKeeper = false → s.ownAddr ≠ 0 →
    (x.resp = false →
      ∃ t, exec .joinRelay s = .next t ∧ (beNat x.payload 0 8, x.port, x.mac) ∈ t.lat.relays ∧ t.lat.got = none) ∧
    (∀ m, x.resp = true → s.relayOf (beNat x.payload 0 8) = some m →
      ∃ t, exec .joinRelay s = .next t ∧ (∀ r ∈ t.lat.relays, r.1 ≠ beNat x.payload 0 8) ∧ t.lat.got = none)) ∧
  (∀ (x : LatFrame) (s : State), s.lat.got = some x → x.typ = 3 → x.resp = false → s.latOn = true → s.isKeeper = true →
    let id := beNat x.payload 0 8
    let a := s.grantFor id (beNat x.payload 8 2)
    (a ≠ 0 →
      ∃ t, exec .joinReceived s = .next t ∧ t.lat.addrs = tblSet (fun _ => 0) a id s.lat.addrs ∧
        t.n 0x2801 7 = t.lat.addrs.length % 2 ^ 64) ∧
    (a = 0 →
      ∃ t, exec .joinReceived s = .next t ∧ t.lat.addrs = s.lat.addrs ∧ t.n 0x2801 0xA = (s.n 0x2801 0xA + 1) % 2 ^ 32)) ∧
  (∀ (x : LatFrame) (s : State), s.lat.got = some x → x.typ = 3 → x.resp = true → s.latOn = true →
    beNat x.payload 0 8 = s.ownId →
    (beNat x.payload 8 2 ≠ 0 → ∃ t, exec .joinGrantReceived s = .next t ∧ t.ownAddr = beNat x.payload 8 2 ∧ t.lat.got = none) ∧
    (beNat x.payload 8 2 = 0 → ∃ t, exec .joinGrantReceived s = .next t ∧ t.ownAddr = s.ownAddr ∧
      t.n 0x2801 0xA = (s.n 0x2801 0xA + 1) % 2 ^ 32 ∧ t.mem = s.mem)) ∧
  (∀ (q : Path) (v : Half) (s : State), s.writeOk q 0x2801 0xB v.toNat = true →
    ∃ t, exec (.keeperForget q v) s = .next t ∧ t.lat = { s.lat with addrs := tblDel v.toNat s.lat.addrs } ∧
      ObjectsKept s t [(0x2801, 7)] ∧ t.mem = s.mem) ∧
  (∀ (s : State), s.latState = 2 ∨ s.latState = 4 → s.ownAddr ≠ 0 →
    exec .linkReportSend s = .next (s.latSend (s.n 0x2801 4) 1 (linkBytes s.ownLinks))) ∧
  (∀ (x : LatFrame) (s : State), s.lat.got = some x → x.typ = 1 → x.resp = false → s.latOn = true → s.isKeeper = true →
    ∃ t, exec .linkReportReceived s = .next t ∧ t.n 0x2801 8 = (s.n 0x2801 8 + 1) % 2 ^ 32 ∧ t.bit 0x2800 0x10 4 = true ∧
      t.lat.reports = tblSet (fun _ => []) x.source (linksOf x.payload) s.lat.reports ∧ t.lat.got = none) ∧
  (∀ (x : LatFrame) (s : State),
    let d := x.payload
    let h := (beNat d 8 4, beNat d 12 4, beNat d 16 8)
    let parts := tblSet (fun _ => []) (beNat d 4 1) ((List.range 256).map (fun k => beNat d (40 + 4 * k) 4))
      (if beNat d 0 4 = s.lat.partGen then s.lat.parts else [])
    s.lat.got = some x → x.typ = 2 → x.resp = false → s.latOn = true → x.source = s.n 0x2801 4 → d.length = 1064 → beNat d 4 1 < 4 →
    newer s.lat.partGen (beNat d 0 4) = false → s.latState = 2 →
    (s.lat.awaitHead = false → s.dev ≠ 1 → parts.length = 4 →
      ∃ t, exec .routePartReceived s = .next t ∧ t.lat.head = some h ∧ t.lat.parts = parts ∧ t.n 0x2801 8 = beNat d 0 4 ∧
        t.n 0x2801 9 = beNat d 6 2 ∧ t.bit 0x2800 0x10 4 = true) ∧
    (s.lat.awaitHead = true → s.joinCause h = none → ∃ t, exec .routePartReceived s = .next t ∧ t.n 0x2000 7 = h.1 ∧
      t.bit 0x2001 2 4 = false ∧ t.latState = 2 ∧ t.lat.awaitHead = false) ∧
    (∀ c, s.lat.awaitHead = true → s.joinCause h = some c → ∃ t, exec .routePartReceived s = .next t ∧ t.n 0x2800 0xF = c ∧
      t.latState = 4 ∧ t.bit 0x2800 0x10 5 = true ∧ (s.pw.starting = false → t.dev = 5 ∧ t.bit 0x2001 2 0 = true))) ∧
  (∀ (s : State), s.lat.awaitHead = true → s.latState = 2 ∨ s.latState = 4 →
    ∃ t, exec .routeHeadTimeout s = .next t ∧ t.n 0x2800 0xF = 5 ∧ t.latState = 4 ∧ t.lat.awaitHead = false ∧
      t.bit 0x2800 0x10 5 = true ∧ (s.pw.starting = false → t.dev = 5 ∧ t.bit 0x2001 2 0 = true))

/-- Services and configuration sets (R368, R382, R384, R386, R389): a request is carried out and its answer kept, a malformed one is
counted, a reset or an image needs a secure request; a set is published or refused; answers, repeats, a fetch that completes,
fails or starts again. Model readings that it
rests on: log entries 111, 112, 118, 120, 122, 124. -/
def Obligations.LatticeServicesAnswer : Prop :=
  (∀ (x : LatFrame) (s : State),
    let u := { s with lat := { s.lat with got := none } }
    let kept := fun (t : State) (typ : Nat) (answer : List Byte) => t.lat.answers = s.lat.answers ++ [{
      addr := x.source, typ := typ, cls := x.cls, seq := x.seq,
      frame := latBytes x.typ (s.n 0x2800 7) x.source s.ownAddr x.cls true x.seq answer }]
    s.lat.got = some x → x.resp = false → s.latOn = true → s.dev = 1 →
    (∀ (secure : Bool), x.typ = 4 →
      let d := x.plain secure
      let r := u.odOpsRun (u.agentPath x secure) (numPut true) (odOps (numOf true) d)
      (d.length ≠ 0 → d.length % 12 = 0 → d.length ≤ 768 → exec (.odAccessRequest secure) s = .next (r.2.latAnswer x r.1)) ∧
      (d.length = 0 ∨ d.length % 12 ≠ 0 ∨ 768 < d.length →
        ∃ t, exec (.odAccessRequest secure) s = .next t ∧ t.n 0x2821 7 = (s.n 0x2821 7 + 1) % 2 ^ 32 ∧ t.lat = u.lat ∧ t.mem = s.mem)) ∧
    (∀ (secure : Bool), x.typ = 5 →
      let n := beNat x.payload 6 2
      (n ≤ 1024 → 8 + n ≤ x.payload.length →
        exec (.mailboxRelayRequest secure) s = .next ((u.relayPost (u.agentPath x secure) (beNat x.payload 0 1) (beNat x.payload 2 4)
          ((x.payload.drop 8).take n)).latAnswer x [])) ∧
      (1024 < n ∨ x.payload.length < 8 + n →
        ∃ t, exec (.mailboxRelayRequest secure) s = .next t ∧ t.n 0x2821 7 = (s.n 0x2821 7 + 1) % 2 ^ 32 ∧ t.lat = u.lat ∧
          t.mem = s.mem)) ∧
    (x.typ = 6 → ∃ t, exec .logRequest s = .next t ∧
      kept t 6 (u.logRecords (beNat x.payload 0 4) 52426 0 (beNat x.payload 4 2) 1472)) ∧
    (∀ (len : Word) (sha : List Byte) (a : Word), x.typ = 7 → ∃ t, exec (.firmwareOffer len sha a) s = .next t ∧
      t.lat.offer = some (len.toNat, sha, a.toNat) ∧ kept t 7 []) ∧
    (∀ (off : Word) (d : List Byte) (len a : Nat) (sha : List Byte), x.typ = 7 → s.lat.offer = some (len, sha, a) →
      (d.length ≤ 1024 → off.toNat + d.length ≤ len →
        exec (.firmwareBlock off d) s = .next ((u.doMapWrite { id := 36, secure := false } (a + off.toNat) .b1 d).latAnswer x [])) ∧
      (1024 < d.length ∨ len < off.toNat + d.length → exec (.firmwareBlock off d) s = .next (u.latAnswer x []))) ∧
    (∀ (secure good : Bool) (len a : Nat) (sha : List Byte), x.typ = 7 → s.lat.offer = some (len, sha, a) →
      (sha256 (s.bytes a len) ≠ sha →
        ∃ t, exec (.firmwareComplete secure good) s = .next t ∧ t.lat.offer = none ∧ kept t 7 [] ∧ t.n 0x2480 7 = s.n 0x2480 7) ∧
      (sha256 (s.bytes a len) = sha → inStorage a len = true → s.w32 a = 0x8416_E001 → s.n 0x2480 7 ≠ 1 →
        ∃ t, exec (.firmwareComplete secure good) s = .next t ∧ t.lat.offer = none ∧ kept t 7 [] ∧ t.n 0x2480 7 = 1 ∧
          t.n 0x2480 3 = a % 2 ^ 64 ∧ t.n 0x2480 4 = len % 2 ^ 64) ∧
      (sha256 (s.bytes a len) = sha → inStorage a len = true → s.w32 a ≠ 0x8416_E001 → secure = false →
        ∃ t, exec (.firmwareComplete secure good) s = .next t ∧ t.lat.offer = none ∧ kept t 7 [] ∧
          t.n 0x2E20 36 = (s.n 0x2E20 36 + 1) % 2 ^ 32)) ∧
    (x.typ = 8 → ∃ t, exec .configRequest s = .next t ∧
      (s.isKeeper = true → beNat x.payload 0 4 = s.n 0x2800 0xD →
        kept t 8 ((s.lat.set.drop (1024 * beNat x.payload 4 2)).take 1024)) ∧
      (s.isKeeper = false ∨ beNat x.payload 0 4 ≠ s.n 0x2800 0xD → kept t 8 [])) ∧
    (∀ (secure : Bool), x.typ = 9 →
      (secure = true → s.heldSession x.source = true → s.heldInReset = false →
        ∃ t, exec (.resetRequest secure) s = .next t ∧ AfterReset s t 2 8) ∧
      (secure = false ∨ s.heldSession x.source = false →
        ∃ t, exec (.resetRequest secure) s = .next t ∧ t.n 0x2E20 36 = (s.n 0x2E20 36 + 1) % 2 ^ 32 ∧
          ObjectsKept s t [(0x2E20, 36)] ∧ t.lat = u.lat ∧ t.mem = s.mem)) ∧
    (∀ (good : Bool), x.typ = 10 →
      let m := smsgOf true x.payload
      (s.remoteChannel x.source = none →
        ∃ t, exec (.sessionRequest good) s = .next t ∧ t.n 0x2F50 7 = (s.n 0x2F50 7 + 1) % 2 ^ 32 ∧
          kept t 10 (beOf m.counter 4 ++ beOf 2 4 ++ beOf m.session 4 ++ zeros 4)) ∧
      (∀ c, s.remoteChannel x.source = some c →
        let r := u.sessionTake c 36 x.source m good
        exec (.sessionRequest good) s =
          .next (r.2.2.2.latAnswer x (beOf m.counter 4 ++ beOf r.1 4 ++ beOf r.2.1 4 ++ zeros 4 ++ r.2.2.1))))) ∧
  (∀ (k : Nat) (s : State),
    ∃ t, exec (.answerCacheExpiry k) s = .next t ∧ t.lat = { s.lat with answers := s.lat.answers.eraseIdx k } ∧ t.od = s.od ∧
      t.mem = s.mem) ∧
  (∀ (p : Path) (s : State),
    let a := s.n 0x2804 1
    let d := s.bytes a (s.n 0x2804 2)
    s.writeOk p 0x2804 3 1 = true → s.isKeeper = false ∨ s.n 0x2804 4 ≠ 1 →
    (s.stagedOk a (s.n 0x2804 2) = false → s.memc.dbe = [] →
      ∃ t, exec (.configPublish p 1) s = .next t ∧ t.n 0x2804 4 = 3 ∧ t.lat = s.lat ∧ ObjectsKept s t [(0x2804, 4)] ∧ t.mem = s.mem) ∧
    (s.stagedOk a (s.n 0x2804 2) = true → inFacetStore a = true → a % 8 = 0 →
      (∀ k < setCount d, leNat ((d.drop (0x40 + 16 * k)).take 2) ≠ 0xFFFF ∧ leNat ((d.drop (0x40 + 16 * k)).take 2) ≠ s.ownAddr) →
      ∃ t, exec (.configPublish p 1) s = .next t ∧ t.n 0x2804 4 = 2 ∧ t.n 0x2800 0xD = (s.n 0x2800 0xD + 1) % 2 ^ 32 ∧
        t.n 0x2800 0xC = setId d ∧ setGen t.lat.set = t.n 0x2800 0xD ∧ t.bit 0x2800 0x10 7 = true)) ∧
  (∀ (x : LatFrame) (s : State), s.lat.got = some x → s.latOn = true → x.resp = true → x.typ ∈ [4, 5, 6, 7, 8, 9, 10] →
    let mine := fun (r : LatReq) => decide (r.addr = x.source ∧ r.typ = x.typ ∧ r.cls = x.cls ∧ r.seq = x.seq)
    let l := { s.lat with got := none, reqs := s.lat.reqs.filter (fun r => !mine r) }
    (s.lat.reqs.any mine = false ∨ s.lat.fetch = none →
      ∃ t, exec .serviceAnswerReceived s = .next t ∧ t.lat = l ∧ t.od = s.od ∧ t.mem = s.mem) ∧
    (∀ f, s.lat.reqs.any mine = true → s.lat.fetch = some f → x.typ = 8 → f.stage = 2 → x.payload ≠ [] →
      0x40 + 16 * min (setCount (f.data ++ x.payload)) 4096 ≤ (f.data ++ x.payload).length →
      ∃ t, exec .serviceAnswerReceived s = .next t ∧ t.lat = { l with fetch := some { f with data := f.data ++ x.payload } } ∧
        t.od = s.od ∧ t.mem = s.mem)) ∧
  (∀ (k : Nat) (r : LatReq) (s : State), s.lat.reqs[k]? = some r →
    (r.tries < 3 →
      exec (.requestRepeatTimeout k) s = .next
        ({ s with lat := { s.lat with reqs := s.lat.reqs.set k { r with tries := r.tries + 1 } } }.latTo r.addr r.cls r.frame)) ∧
    (∀ f, 3 ≤ r.tries → r.typ = 8 ∨ r.typ = 10 → s.lat.fetch = some f →
      ∃ t, exec (.requestRepeatTimeout k) s = .next t ∧ t.bit 0x2800 0x10 8 = true ∧ t.mem = s.mem ∧
        t.lat = { s.lat with reqs := s.lat.reqs.eraseIdx k, fetch := some { f with failed := true } })) ∧
  (∀ (f : LatFetch) (s : State), s.lat.fetch = some f → f.stage = 2 → f.failed = false →
    0x40 + 16 * min (setCount f.data) 4096 ≤ f.data.length →
    (fetchOk f = false →
      ∃ t, exec .configFetchComplete s = .next t ∧ t.lat = { s.lat with fetch := some { f with failed := true } } ∧
        t.bit 0x2800 0x10 8 = true ∧ t.mem = s.mem) ∧
    (fetchOk f = true →
      (∀ k < setCount f.data, leNat ((f.data.drop (0x40 + 16 * k)).take 2) ≠ 0xFFFF ∧
        leNat ((f.data.drop (0x40 + 16 * k)).take 2) ≠ s.ownAddr) →
      ∃ t, exec .configFetchComplete s = .next t ∧ t.lat.fetch = none ∧ t.lat.set = f.data ∧ t.n 0x2800 0xD = f.gen ∧
        t.n 0x2000 7 = f.gen ∧ t.bit 0x2800 0x10 7 = true ∧
        (s.latState = 4 → t.latState = 2 ∧ t.n 0x2800 0xF = 0 ∧ (s.dev = 5 → t.dev = 1)))) ∧
  (∀ (f : LatFetch) (s : State), s.lat.fetch = some f → f.failed = true → s.latOn = true →
    ∃ t, exec .configFetchRetry s = .next t ∧ t.lat.reqs.length = s.lat.reqs.length + 1 ∧
      (s.latState = 4 → t.lat.fetch = some { gen := f.gen, stage := 0 }) ∧
      (s.latState ≠ 4 → t.lat.fetch = some { gen := f.gen, stage := 2 }))

/-! ### CAN FD (spec/15) -/

/-- The CAN controllers (R408, R413–R424): modes and integration, a frame received, accepted, stored or lost, locks and shadows,
requests, arbitration's winner on the bus, success, errors, UNACKED after ALONE_LIMIT acknowledge errors, aborts
(R26: an attempt on the bus ends as it ends, COMPLETED or ABORTED without a retry), bus off and recovery. -/
def Obligations.CanControllersAct : Prop :=
  (∀ (p : Path) (c : Fin 4) (v : Word) (s : State), s.writeOk p (canIdx c) 1 v.toNat = true →
    ((s.canOf c).cur = none → (s.canOf c).mode ≠ v.toNat →
      ∃ t, exec (.canModeWrite p c v) s = .next t ∧ t.canN c 1 = v.toNat ∧ (t.canOf c).mode = v.toNat ∧
        t.bit (canIdx c) 0xA 3 = decide (v.toNat = 1 ∨ v.toNat = 2) ∧
        ObjectsKept s t [(canIdx c, 1), (canIdx c, 0xA)] ∧ t.mem = s.mem) ∧
    (∀ b, (s.canOf c).cur = some b →
      ∃ t, exec (.canModeWrite p c v) s = .next t ∧ t.canN c 1 = v.toNat ∧ (t.canOf c).mode = (s.canOf c).mode ∧
        (t.canOf c).next = some v.toNat ∧ ObjectsKept s t [(canIdx c, 1)] ∧ t.mem = s.mem)) ∧
  (∀ (c : Fin 4) (s : State),
    ∃ t, exec (.canIntegrated c) s = .next t ∧ t.bit (canIdx c) 0xA 3 = false ∧
      (∀ k < 64, k ≠ 3 → t.bit (canIdx c) 0xA k = s.bit (canIdx c) 0xA k) ∧ ObjectsKept s t [(canIdx c, 0xA)] ∧ t.mem = s.mem) ∧
  (∀ (c : Fin 4) (f : BusFrame) (ago : Nat) (phase : Fin 8) (s : State),
    let hits := fun (b : Nat) => s.bufMode c b = 1 ∧
      idMatches (s.n (canIdx c + 3) (b + 1)) (s.n (canIdx c + 4) (b + 1)) (heldFrame f) = true
    s.canLive c = true → (s.canOf c).cur = none → (s.canOf c).got = none →
    (∀ b < 64, hits b → (∀ k < b, ¬ hits k) →
      ∃ t x, exec (.canFrameReceived c f ago phase) s = .next t ∧ (t.canOf c).got = some ({ heldFrame f with time := x }, b, b) ∧
        t.n (canIdx c + 1) 1 = (s.n (canIdx c + 1) 1 + 1) % 2 ^ 32 ∧ t.mem = s.mem) ∧
    ((∀ b < 64, ¬ hits b) → (∀ e < 32, fieldOf (s.n (canIdx c + 7) (e + 1)) 30 2 = 0) → fieldOf (s.canN c 9) 16 2 = 0 →
      ∃ t, exec (.canFrameReceived c f ago phase) s = .next t ∧ (t.canOf c).got = none ∧
        t.n (canIdx c + 1) 1 = (s.n (canIdx c + 1) 1 + 1) % 2 ^ 32 ∧ t.n (canIdx c + 1) 6 = (s.n (canIdx c + 1) 6 + 1) % 2 ^ 32 ∧
        t.mem = s.mem)) ∧
  (∀ (c : Fin 4) (f : BusFrame) (ago : Nat) (phase : Fin 8) (s : State), s.canLive c = true →
    ∃ t, exec (.canFrameReceived c f ago phase) s = .next t ∧ (t.canOf c).acks = 0 ∧ t.bit (canIdx c) 0xA 2 = false) ∧
  (∀ (c : Fin 4) (f : CanFrame) (b how : Nat) (s : State),
    let a := s.canN c 8 + 80 * b
    (s.canOf c).got = some (f, b, how) → b < 64 → bitOf (s.bufSt c b) 4 = false → (∀ k < 80, inFacetStore (a + k) = true) → a % 16 = 0 →
    s.memc.dbe = [] →
    ∃ t, exec (.canFrameStored c) s = .next t ∧ (t.canOf c).got = none ∧ t.bufState c b = 1 ∧ t.bit (canIdx c) 0x10 0 = true ∧
      t.w32 a = f.w0 % 2 ^ 32 ∧ t.w32 (a + 4) = f.w1 how % 2 ^ 32 ∧ t.w32 (a + 8) = f.time % 2 ^ 32 ∧
      (f.rtr = false → t.bytes (a + 0x10) 64 = (f.data.take (dlcLen f.fdf f.dlc) ++ zeros 64).take 64) ∧
      (∀ k, k < a ∨ a + 80 ≤ k → t.byte k = s.byte k) ∧
      (s.bufState c b = 1 → bitOf (t.bufSt c b) 6 = true ∧ t.n (canIdx c + 1) 4 = (s.n (canIdx c + 1) 4 + 1) % 2 ^ 32)) ∧
  (∀ (c : Fin 4) (f : CanFrame) (b how : Nat) (s : State), (s.canOf c).got = some (f, b, how) → b < 64 →
    bitOf (s.bufSt c b) 4 = true →
    ∃ t, exec (.canFrameStored c) s = .next t ∧ (t.canOf c).got = none ∧ (t.canOf c).shadow.find? (fun e => e.1 = b) = some (b, f, how) ∧
      bitOf (t.bufSt c b) 5 = true ∧ t.bufState c b = s.bufState c b ∧ t.mem = s.mem) ∧
  (∀ (c : Fin 4) (f : CanFrame) (k : Fin 2) (how : Nat) (s : State), (s.canOf c).got = some (f, 64 + k.val, how) →
    (32 ≤ s.fifoFill c k → ∃ t, exec (.canFrameStored c) s = .next t ∧ (t.canOf c).got = none ∧ t.bit (canIdx c) 0x10 4 = true ∧
      t.n (canIdx c + 1) 5 = (s.n (canIdx c + 1) 5 + 1) % 2 ^ 32 ∧ t.mem = s.mem) ∧
    (s.fifoFill c k < 32 → ∃ t, exec (.canFrameStored c) s = .next t ∧ (t.canOf c).got = none ∧
      t.n (canIdx c + 9) (2 + 2 * k.val) = (s.n (canIdx c + 9) (2 + 2 * k.val) + 1) % 256)) ∧
  (∀ (p : Path) (c : Fin 4) (v : DWord) (b : Nat) (f : CanFrame) (s : State), s.writeOk p (canIdx c + 6) 2 v.toNat = true → b < 64 →
    v.toNat = 2 ^ b → s.bufState c b ≠ 2 → s.bufState c b ≠ 3 → s.canTake c b = (f, s) →
    ((f.fdf = true → s.bit (canIdx c) 2 0 = true) → (f.brs = true → f.fdf = true) →
      ∃ t, exec (.canTxRequest p c v) s = .next t ∧ t.bufState c b = 2 ∧ (t.canOf c).store.find? (fun e => e.1 = b) = some (b, f) ∧
        ObjectsKept s t [(canIdx c + 5, b + 1)] ∧ t.mem = s.mem) ∧
    ((f.fdf = true ∧ s.bit (canIdx c) 2 0 = false) ∨ (f.brs = true ∧ f.fdf = false) →
      ∃ t, exec (.canTxRequest p c v) s = .next t ∧ t.bufState c b = 8 ∧ t.canOf c = s.canOf c ∧
        ObjectsKept s t [(canIdx c + 5, b + 1)] ∧ t.mem = s.mem)) ∧
  (∀ (c : Fin 4) (phase : Fin 8) (dt b : Nat) (f : CanFrame) (s : State),
    let v := s.advance dt
    (s.canOf c).cur = none → (s.canOf c).mode = 1 → v.canLive c = true → v.canBest c = some (b, f) → v.canInject c = none →
    ∃ t, exec (.canTxAttempt c phase dt) s = .next t ∧ t.bufState c b = 3 ∧ (t.canOf c).cur = some b ∧
      t.bit (canIdx c) 0xA 5 = true ∧ t.out = v.out ++ [.can c b f.w0 f.data] ∧ t.mem = s.mem) ∧
  (∀ (c : Fin 4) (delay : BitVec 7) (b : Nat) (f : CanFrame) (s : State), s.canSending c = some (b, f) → b < 64 →
    s.canFar c f delay.toNat = false → (s.canOf c).inject = false → (s.canOf c).mode = 1 → (s.canOf c).next = none →
    bitOf (s.canOf c).aborts b = false →
    ∃ t, exec (.canTxSuccess c delay) s = .next t ∧ t.bufState c b = 4 ∧ (t.canOf c).cur = none ∧ t.bit (canIdx c) 0x10 1 = true ∧
      t.n (canIdx c + 1) 2 = (s.n (canIdx c + 1) 2 + 1) % 2 ^ 32 ∧
      t.bit (canIdx c) 0xA 2 = false ∧ (t.canOf c).acks = 0 ∧ t.bit (canIdx c) 0xA 5 = false ∧
      (f.fdf = true → f.brs = true → fieldOf (t.canN c 0xA) 16 7 = delay.toNat)) ∧
  (∀ (c : Fin 4) (lec : Fin 7) (free : Bool) (eights : Fin 32) (delay : BitVec 7) (b : Nat) (f : CanFrame) (s : State),
    s.canSending c = some (b, f) → b < 64 → bitOf (s.canOf c).aborts b = false → (s.canOf c).next = none →
    ∃ t, exec (.canTxError c lec false free eights delay) s = .next t ∧ (t.canOf c).cur = none ∧ t.mem = s.mem ∧
      t.n (canIdx c + 1) 3 = (s.n (canIdx c + 1) 3 + 1) % 2 ^ 32 ∧ fieldOf (t.canN c 0xA) 8 3 = lec.val ∧
      (lec.val ≠ 3 → t.bufState c b = if s.oneShot c b then 7 else 2) ∧
      (lec.val = 3 → s.canN c 6 = 0 → t.bufState c b = if s.oneShot c b then 7 else 2) ∧
      (t.canOf c).mode = (s.canOf c).mode ∧ (lec.val = 3 → (t.canOf c).acks = (s.canOf c).acks + 1) ∧
      (lec.val = 3 → (s.canOf c).acks + 1 < s.canN c 6 → s.bit (canIdx c) 0xA 2 = false →
        t.bufState c b = if s.oneShot c b then 7 else 2) ∧
      (lec.val = 3 → s.canN c 6 ≠ 0 → s.canN c 6 ≤ (s.canOf c).acks + 1 ∨ s.bit (canIdx c) 0xA 2 = true →
        t.bufState c b = 6 ∧ t.bit (canIdx c) 0x10 10 = true ∧ t.bit (canIdx c) 0xA 2 = true ∧
        t.canN c 0xF = (s.canN c 0xF + 1) % 2 ^ 32)) ∧
  (∀ (c : Fin 4) (b : Nat) (f : CanFrame) (s : State), s.canSending c = some (b, f) → b < 64 → bitOf (s.canOf c).aborts b = true →
    (∀ (delay : BitVec 7), s.canFar c f delay.toNat = false → (s.canOf c).inject = false → ((s.canOf c).mode = 3 → (s.canOf c).got = none) →
      ∃ t, exec (.canTxSuccess c delay) s = .next t ∧ t.bufState c b = 4 ∧ fieldOf (t.bufSt c b) 8 2 = 2 ∧ (t.canOf c).cur = none ∧
        t.bit (canIdx c) 0x10 11 = true) ∧
    (∀ (lec : Fin 7) (data free : Bool) (eights : Fin 32) (delay : BitVec 7),
      ∃ t, exec (.canTxError c lec data free eights delay) s = .next t ∧ t.bufState c b = 5 ∧ fieldOf (t.bufSt c b) 8 2 = 1 ∧
        (t.canOf c).cur = none ∧ t.bit (canIdx c) 0x10 11 = true ∧ t.mem = s.mem)) ∧
  (∀ (p : Path) (c : Fin 4) (v : DWord) (b : Nat) (s : State), s.writeOk p (canIdx c + 6) 4 v.toNat = true → b < 64 → v.toNat = 2 ^ b →
    (s.bufState c b = 2 →
      ∃ t, exec (.canTxAbort p c v) s = .next t ∧ t.bufState c b = 5 ∧ fieldOf (t.bufSt c b) 8 2 = 1 ∧
        t.bit (canIdx c) 0x10 11 = true ∧ t.mem = s.mem) ∧
    (s.bufState c b = 3 →
      ∃ t, exec (.canTxAbort p c v) s = .next t ∧ t.od = s.od ∧ bitOf (t.canOf c).aborts b = true ∧ t.mem = s.mem)) ∧
  (∀ (p : Path) (c : Fin 4) (v : DWord) (b : Nat) (s : State), s.writeOk p (canIdx c + 6) 6 v.toNat = true → b < 64 → v.toNat = 2 ^ b →
    bitOf (s.canOf c).promo b = false →
    ∃ t, exec (.canLockSet p c v) s = .next t ∧ bitOf (t.bufSt c b) 4 = true ∧ t.bufState c b = s.bufState c b ∧
      ObjectsKept s t [(canIdx c + 5, b + 1)] ∧ t.mem = s.mem) ∧
  (∀ (p : Path) (c : Fin 4) (v : DWord) (b : Nat) (s : State), s.writeOk p (canIdx c + 6) 8 v.toNat = true → b < 64 → v.toNat = 2 ^ b →
    bitOf (s.bufSt c b) 4 = true → bitOf (s.canOf c).promo b = false →
    ∃ t, exec (.canLockClear p c v) s = .next t ∧ t.bufState c b = (if s.bufState c b = 1 then 0 else s.bufState c b) ∧ t.mem = s.mem ∧
      bitOf (t.bufSt c b) 4 = bitOf (s.bufSt c b) 5 ∧ bitOf (t.canOf c).promo b = bitOf (s.bufSt c b) 5) ∧
  (∀ (c : Fin 4) (b : Fin 64) (f : CanFrame) (how : Nat) (s : State), bitOf (s.canOf c).promo b = true →
    (s.canOf c).shadow.find? (fun e => e.1 = b.val) = some (b.val, f, how) →
    ∃ t, exec (.canShadowPromoted c b) s = .next t ∧ t.bufState c b = 1 ∧ bitOf (t.bufSt c b) 5 = false ∧
      bitOf (t.bufSt c b) 4 = bitOf (s.canOf c).relock b ∧ bitOf (t.canOf c).promo b = false ∧ t.bit (canIdx c) 0x10 0 = true) ∧
  (∀ (p : Path) (c : Fin 4) (v : DWord) (b : Nat) (s : State), s.writeOk p (canIdx c + 6) 0xA v.toNat = true → b < 64 → v.toNat = 2 ^ b →
    ∃ t, exec (.canLostClear p c v) s = .next t ∧ bitOf (t.bufSt c b) 6 = false ∧ t.bufState c b = s.bufState c b ∧
      ObjectsKept s t [(canIdx c + 5, b + 1)] ∧ t.mem = s.mem) ∧
  (∀ (p : Path) (c : Fin 4) (k : Fin 2) (v : Word) (s : State), s.writeOk p (canIdx c + 9) (1 + 2 * k.val) v.toNat = true →
    ∃ t, exec (.canFifoGet p c k v) s = .next t ∧ t.n (canIdx c + 9) (1 + 2 * k.val) = v.toNat ∧
      ObjectsKept s t [(canIdx c + 9, 1 + 2 * k.val)] ∧ t.mem = s.mem) ∧
  (∀ (p : Path) (c : Fin 4) (s : State), s.writeOk p (canIdx c) 0xE 1 = true → s.busOff c = true → s.canN c 0xD = 1 →
    ∃ t, exec (.canRecover p c 1) s = .next t ∧ t.canOf c = { s.canOf c with recovering := true } ∧ t.od = s.od ∧ t.mem = s.mem) ∧
  (∀ (c : Fin 4) (s : State), s.busOff c = true → (s.canOf c).recovering = true →
    ∃ t, exec (.canBusOffRecovered c) s = .next t ∧ t.canN c 0xB = 0 ∧ t.canN c 0xC = 0 ∧ t.busOff c = false ∧
      (t.canOf c).recovering = false ∧ t.bit (canIdx c) 0x10 8 = true ∧ t.mem = s.mem)

/-- Error counters of the CAN controllers: an error while receiving is shown with its code and counted, REC rises by 1 and by 8 for each
of the standard's further cases; TEC falls by 1 with a success and rises by 8 with an error, where the standard does not free it. The
amounts are those of ISO 11898-1, which the model presumes (log entry 126). -/
def Obligations.CanErrorsMoveTheCounters : Prop :=
  (∀ (c : Fin 4) (lec : Fin 7) (data res : Bool) (eights : Fin 32) (s : State), s.canLive c = true → (s.canOf c).cur = none →
    (res = true → s.bit (canIdx c) 2 1 = true →
      ∃ t, exec (.canRxError c lec data res eights) s = .next t ∧ t.bit (canIdx c) 0xA 3 = true ∧
        t.bit (canIdx c) 0x10 12 = true ∧ t.canN c 0xC = s.canN c 0xC ∧ t.mem = s.mem) ∧
    (res = false ∨ s.bit (canIdx c) 2 1 = false → (s.canOf c).mode = 1 → s.canN c 0xC + 1 + 8 * eights.val ≤ 127 →
      ∃ t, exec (.canRxError c lec data res eights) s = .next t ∧ t.canN c 0xC = s.canN c 0xC + 1 + 8 * eights.val ∧
        fieldOf (t.canN c 0xA) (if data then 12 else 8) 3 = lec.val ∧
        t.n (canIdx c + 1) 3 = (s.n (canIdx c + 1) 3 + 1) % 2 ^ 32 ∧ t.mem = s.mem)) ∧
  (∀ (c : Fin 4) (delay : BitVec 7) (b : Nat) (f : CanFrame) (s : State), s.canSending c = some (b, f) → b < 64 →
    s.canFar c f delay.toNat = false → (s.canOf c).inject = false → (s.canOf c).mode = 1 → (s.canOf c).next = none →
    bitOf (s.canOf c).aborts b = false →
    ∃ t, exec (.canTxSuccess c delay) s = .next t ∧ t.canN c 0xB = min (s.canN c 0xB - 1) 511) ∧
  (∀ (c : Fin 4) (lec : Fin 7) (free : Bool) (eights : Fin 32) (delay : BitVec 7) (b : Nat) (f : CanFrame) (s : State),
    let passive := fieldOf (s.canN c 0xA) 0 2 = 1
    s.canSending c = some (b, f) → b < 64 → bitOf (s.canOf c).aborts b = false → (s.canOf c).next = none →
    ∃ t, exec (.canTxError c lec false free eights delay) s = .next t ∧
      t.canN c 0xB = min (s.canN c 0xB + 8 * eights.val + (if free ∨ (passive ∧ lec.val = 3) then 0 else 8)) 511)

/-! ### PIO (spec/16) -/

/-- PIO instructions (R432, R434–R442): every instruction of the table does to counters, words, FIFOs, pins and flags what its row
says and completes at the branch target or the next address, or waits; a wait ends, a delay passes. -/
def Obligations.PioInstructionsAct : Prop :=
  (∀ (m : Fin 32) (w : Half) (s : State), PioReady s m w → pioOp w = 0 →
    ∃ t, exec (.pioB m) s = .next t ∧ PioEnds s t m w (pioArg w)) ∧
  (∀ (m : Fin 32) (w : Half) (c : Instr) (op j : Nat) (s : State),
    (c, op, j) ∈ [(Instr.pioLoopa m, 1, 4), (Instr.pioLoopb m, 2, 5)] → PioReady s m w → pioOp w = op →
    ∃ t, exec c s = .next t ∧ t.smD m j = s.smD m j - 1 ∧
      PioEnds s t m w (if s.smD m j = 0 then pioNext s m else pioArg w)) ∧
  (∀ (m : Fin 32) (pins : Half) (w : Half) (s : State), PioReady s m w → pioOp w = 3 →
    let code := fieldOf (s.smC m 6) 0 3
    let pin := pins.getLsbD (fieldOf (s.smC m 5) 20 4)
    ∀ yes : Bool, ((code = 0 → yes = pin) ∧ (code = 1 → yes = !pin) ∧ (code = 2 → yes = !(s.sm m).txF.isEmpty) ∧
      (code = 3 → yes = s.rxRoom m) ∧ (code = 4 → yes = (s.smD m 4 != s.smD m 5)) ∧ (code = 5 → yes = ((s.sm m).txLeft != 0)) ∧
      (code = 6 → yes = bitOf (s.pioFlags (smBlock m)) (fieldOf (s.smC m 6) 4 3)) ∧ (code = 7 → yes = (s.smD m 4 == 0))) →
    ∃ t, exec (.pioBc m pins) s = .next t ∧ (t.pioOf (smBlock m)).pins = pins ∧
      PioEnds s t m w (if yes then pioArg w else pioNext s m)) ∧
  (∀ (m : Fin 32) (w : Half) (s : State),
    let n := pioArg w % 16 + 1
    let base := fieldOf (s.smC m 5) 0 4
    let x := s.sm m
    let width := fieldOf (s.smC m 4) 8 6
    let level := fun (t : State) => (t.pioOf (smBlock m)).level
    PioReady s m w → pioOp w = 4 →
    (∀ k, pioArg w / 32 = k → 1 ≤ k →
      ∃ t, exec (.pioDrive m) s = .next t ∧ PioEnds s t m w (pioNext s m) ∧
        PinsTake s m base n (bitOf (if k = 1 then s.smD m 4 else if k = 2 then s.smD m 5 else 0)) (level s) (level t)) ∧
    (pioArg w / 32 = 0 → n ≤ x.txLeft →
      ∃ t, exec (.pioDrive m) s = .next t ∧ PioEnds s t m w (pioNext s m) ∧ (t.sm m).txLeft = x.txLeft - n ∧
        PinsTake s m base n (fun k => x.tw.getLsbD (if bitOf (s.smC m 4) 0 then x.txLeft - k - 1 else width - (x.txLeft - k)))
          (level s) (level t)) ∧
    (pioArg w / 32 = 0 → x.txLeft = 0 → bitOf (s.smC m 4) 2 = true → x.txF = [] →
      ∃ t, exec (.pioDrive m) s = .next t ∧ PioWaits s t m w 2 ∧ level t = level s)) ∧
  (∀ (m : Fin 32) (pins : Half) (w : Half) (s : State),
    let n := pioArg w % 16 + 1
    let x := s.sm m
    let width := fieldOf (s.smC m 4) 16 6
    PioReady s m w → pioOp w = 5 → bitOf (s.smC m 4) 3 = false → width ≤ 32 → x.rxHave + n ≤ width →
    ∃ t, exec (.pioSample m pins) s = .next t ∧ PioEnds s t m w (pioNext s m) ∧ (t.sm m).rxHave = x.rxHave + n ∧
      (∀ k < n, (t.sm m).rw.getLsbD (if bitOf (s.smC m 4) 1 then width - 1 - (x.rxHave + k) else x.rxHave + k) =
        pins.getLsbD ((fieldOf (s.smC m 5) 16 4 + k) % 16))) ∧
  (∀ (m : Fin 32) (w : Half) (s : State),
    let x := s.sm m
    let width := fieldOf (s.smC m 4) 8 6
    PioReady s m w → pioOp w = 6 →
    (∀ d l, x.txF = d :: l →
      ∃ t, exec (.pioFetch m) s = .next t ∧ PioEnds s t m w (pioNext s m) ∧ (t.sm m).tw = d ∧ (t.sm m).txLeft = width ∧
        (t.sm m).txF = l) ∧
    (x.txF = [] → bitOf (pioArg w) 0 = true →
      ∃ t, exec (.pioFetch m) s = .next t ∧ PioEnds s t m w (pioNext s m) ∧ (t.sm m).tw = BitVec.ofNat 32 (s.smC m 0xA) ∧
        (t.sm m).txLeft = width ∧ t.smD m 9 = (s.smD m 9 + 1) % 2 ^ 32) ∧
    (x.txF = [] → bitOf (pioArg w) 0 = false → ∃ t, exec (.pioFetch m) s = .next t ∧ PioWaits s t m w 2)) ∧
  (∀ (m : Fin 32) (w : Half) (s : State),
    let x := s.sm m
    PioReady s m w → pioOp w = 7 →
    (s.rxRoom m = true →
      ∃ t, exec (.pioStore m) s = .next t ∧ PioEnds s t m w (pioNext s m) ∧ (t.sm m).rxF = x.rxF ++ [s.rwSeen m] ∧ (t.sm m).rw = 0 ∧
        (t.sm m).rxHave = 0) ∧
    (s.rxRoom m = false → bitOf (pioArg w) 0 = true →
      ∃ t, exec (.pioStore m) s = .next t ∧ PioEnds s t m w (pioNext s m) ∧ (t.sm m).rxF = x.rxF ∧ (t.sm m).rw = 0 ∧
        t.smD m 0xA = (s.smD m 0xA + 1) % 2 ^ 32) ∧
    (s.rxRoom m = false → bitOf (pioArg w) 0 = false → ∃ t, exec (.pioStore m) s = .next t ∧ PioWaits s t m w 3)) ∧
  (∀ (m : Fin 32) (w : Half) (s : State),
    let k := pioArg w / 32
    let v := pioArg w % 32
    let b := s.pioOf (smBlock m)
    let put := PinsTake s m (fieldOf (s.smC m 5) 8 4) (fieldOf (s.smC m 5) 12 3) (bitOf v)
    PioReady s m w → pioOp w = 8 →
    ∃ t, exec (.pioLoad m) s = .next t ∧ PioEnds s t m w (pioNext s m) ∧
      t.smD m 4 = (if k = 0 then v else s.smD m 4) ∧ t.smD m 5 = (if k = 1 then v else s.smD m 5) ∧
      (if k = 2 then put b.level (t.pioOf (smBlock m)).level else (t.pioOf (smBlock m)).level = b.level) ∧
      (if k = 3 then put b.dir (t.pioOf (smBlock m)).dir else (t.pioOf (smBlock m)).dir = b.dir)) ∧
  (∀ (m : Fin 32) (pins : Half) (w : Half) (s : State),
    let a := pioArg w
    let v := s.pioInputs (smBlock m) pins
    PioReady s m w → pioOp w = 9 →
    (v.awaitMet m w = true →
      ∃ t, exec (.pioAwait m pins) s = .next t ∧ PioEnds s t m w (pioNext s m) ∧
        (a / 32 = 1 → bitOf a 3 = true → bitOf (t.pioFlags (smBlock m)) (a % 8) = false)) ∧
    (v.awaitMet m w = false → ∃ t, exec (.pioAwait m pins) s = .next t ∧ PioWaits s t m w (if a / 32 = 2 then 5 else 4))) ∧
  (∀ (m : Fin 32) (w : Half) (s : State),
    let a := pioArg w
    PioReady s m w → pioOp w = 10 →
    ∃ t, exec (.pioFlag m) s = .next t ∧ bitOf (t.pioFlags (smBlock m)) (a % 8) = !bitOf a 6 ∧
      (∀ k < 64, k ≠ a % 8 → bitOf (t.pioFlags (smBlock m)) k = bitOf (s.pioFlags (smBlock m)) k) ∧
      (bitOf a 4 = true → t.bit (0x2A00 + smBlock m) 8 (a % 8) = true) ∧
      (if bitOf a 5 = true ∧ bitOf a 6 = false then PioWaits s t m w 6 else PioEnds s t m w (pioNext s m))) ∧
  (∀ (m : Fin 32) (pins : Half) (w : Half) (s : State),
    let a := pioArg w
    let c := (s.pioInputs (smBlock m) pins).copySrc m (a % 8)
    let x := if bitOf a 3 then ~~~ c else c
    PioReady s m w → pioOp w = 11 →
    ∃ t, exec (.pioCopy m pins) s = .next t ∧ PioEnds s t m w (if a / 16 = 6 then x.toNat % 128 else pioNext s m) ∧
      t.smD m 4 = (if a / 16 = 0 then x.toNat else s.smD m 4) ∧ t.smD m 5 = (if a / 16 = 1 then x.toNat else s.smD m 5) ∧
      (t.sm m).tw = (if a / 16 = 2 then x else (s.sm m).tw) ∧ (t.sm m).rw = (if a / 16 = 3 then x else (s.sm m).rw)) ∧
  (∀ (m : Fin 32) (w : Half) (s : State),
    let n := pioArg w % 32 + 1
    let x := s.sm m
    let width := fieldOf (s.smC m 4) 8 6
    PioReady s m w → pioOp w = 12 → n ≤ x.txLeft → pioArg w / 32 ≤ 2 →
    ∃ t, exec (.pioUnpack m) s = .next t ∧ PioEnds s t m w (pioNext s m) ∧ (t.sm m).txLeft = x.txLeft - n ∧
      (∀ j, (pioArg w / 32, j) ∈ [(0, 4), (1, 5)] → t.smD m j < 2 ^ n ∧ (∀ k < n, bitOf (t.smD m j) k =
        x.tw.getLsbD (if bitOf (s.smC m 4) 0 then x.txLeft - k - 1 else width - (x.txLeft - k))))) ∧
  (∀ (m : Fin 32) (w : Half) (s : State),
    let n := pioArg w % 32 + 1
    let k := pioArg w / 32
    let x := s.sm m
    let width := fieldOf (s.smC m 4) 16 6
    PioReady s m w → pioOp w = 13 → bitOf (s.smC m 4) 3 = false → width ≤ 32 → x.rxHave + n ≤ width →
    ∃ t, exec (.pioPack m) s = .next t ∧ PioEnds s t m w (pioNext s m) ∧ (t.sm m).rxHave = x.rxHave + n ∧
      (∀ i < n, (t.sm m).rw.getLsbD (if bitOf (s.smC m 4) 1 then width - 1 - (x.rxHave + i) else x.rxHave + i) =
        (if k = 0 then bitOf (s.smD m 4) i else if k = 1 then bitOf (s.smD m 5) i else decide (k = 3)))) ∧
  (∀ (m : Fin 32) (w : Half) (s : State), PioReady s m w → pioOp w = 14 ∨ pioOp w = 15 →
    ∃ t, exec (.pioNop m) s = .next t ∧ PioEnds s t m w (pioNext s m) ∧
      ObjectsKept s t [(0x2A40 + m.val, 1), (0x2A40 + m.val, 2), (0x2A40 + m.val, 3), (0x2A40 + m.val, 6)]) ∧
  (∀ (m : Fin 32) (pins : Half) (w : Half) (s : State), s.smOn m = true → (s.sm m).latched = some w → (s.sm m).rest = none →
    (s.sm m).st = 4 → s.smD m 3 = w.toNat →
    ((s.pioInputs (smBlock m) pins).awaitMet m w = true →
      ∃ t, exec (.pioWaitEnd m pins) s = .next t ∧ PioEnds s t m w (pioNext s m)) ∧
    ((s.pioInputs (smBlock m) pins).awaitMet m w = false →
      ∃ t, exec (.pioWaitEnd m pins) s = .next t ∧ t.sm m = s.sm m ∧ t.smD m 2 = s.smD m 2 ∧ t.mem = s.mem)) ∧
  (∀ (m : Fin 32) (s : State), s.smOn m = true → (s.sm m).delay ≠ 0 →
    ∃ t, exec (.pioDelayExpiry m) s = .next t ∧ t.sm m = { s.sm m with delay := 0 } ∧ t.smD m 2 = s.smD m 2 ∧ t.mem = s.mem)

/-- Control of the state machines, their FIFOs and DMA channels (R437, R442–R447): enables, RESTART, WRAP, the FIFOs, flags, the masks
that take effect on one tick, and channels that start, move words, end, repeat and stop. Model readings that it
rests on: log entries 98, 99, 102. -/
def Obligations.PioControlsAct : Prop :=
  (∀ (q : Path) (b : Fin 4) (v : Byte) (c : Instr) (s : State), s.n (0x2A00 + b.val) 1 < 256 →
    (c = .pioSmEnable q b v ∧ v &&& ~~~ BitVec.ofNat 8 (s.n (0x2A00 + b.val) 1) ≠ 0) ∨
      (c = .pioSmDisable q b v ∧ BitVec.ofNat 8 (s.n (0x2A00 + b.val) 1) &&& ~~~ v ≠ 0) →
    s.writeOk q (0x2A00 + b.val) 1 v.toNat = true →
    ∃ t, exec c s = .next t ∧ t.n (0x2A00 + b.val) 1 = v.toNat ∧ t.mem = s.mem ∧ t.pio = s.pio ∧
      (∀ k < 8, t.sm (8 * b.val + k) = if bitOf v.toNat k = true ∧ s.smOn (8 * b.val + k) = false
        then { s.sm (8 * b.val + k) with divAt := s.ticks } else s.sm (8 * b.val + k)) ∧
      (∀ k < 8, t.smD (8 * b.val + k) 1 = if bitOf v.toNat k then (s.sm (8 * b.val + k)).st % 2 ^ 64 else 0)) ∧
  (∀ (q : Path) (m : Fin 32) (s : State), s.writeOk q (0x2A10 + m.val) 8 1 = true →
    ∃ t, exec (.pioRestart q m 1) s = .next t ∧ t.smD m 2 = s.smC m 3 ∧ (t.sm m).latched = none ∧ (t.sm m).delay = 0 ∧
      (t.sm m).tw = 0 ∧ (t.sm m).txLeft = 0 ∧ (t.sm m).rw = 0 ∧ (t.sm m).rxHave = 0 ∧ (t.sm m).txF = (s.sm m).txF ∧
      (t.sm m).rxF = (s.sm m).rxF ∧ t.smD m 4 = s.smD m 4 ∧ t.smD m 5 = s.smD m 5 ∧ t.pio = s.pio ∧ t.mem = s.mem) ∧
  (∀ (q : Path) (m : Fin 32) (s : State), s.writeOk q (0x2A10 + m.val) 9 1 = true →
    ∃ t, exec (.pioFifoClear q m 1) s = .next t ∧ t.sm m = { s.sm m with txF := [], rxF := [] } ∧ t.smD m 6 = 0 ∧
      t.pio = s.pio ∧ t.mem = s.mem) ∧
  (∀ (q : Path) (m : Fin 32) (v : Half) (s : State), s.writeOk q (0x2A10 + m.val) 2 v.toNat = true →
    ∃ t, exec (.pioWrapWrite q m v) s = .next t ∧ t.smC m 2 = v.toNat ∧ t.mem = s.mem ∧
      t.sm m = if s.smOn m then s.sm m else { s.sm m with wrap := v.toNat }) ∧
  (∀ (q : Path) (s : State), s.writeOk q 0x2A80 5 1 = true →
    ∃ t, exec (.pioSyncApplyArm q) s = .next t ∧ t.n 0x2A80 5 = 1 ∧ ObjectsKept s t [(0x2A80, 5)] ∧ t.mem = s.mem) ∧
  (∀ (q : Path) (s : State), s.writeOk q 0x2A80 5 2 = true →
    (s.n 0x2A80 5 = 1 → ∃ t, exec (.pioSyncCancel q) s = .next t ∧ t.n 0x2A80 5 = 0 ∧
      t.n 0x2A80 7 = (s.n 0x2A80 7 + 1) % 2 ^ 32 ∧ ObjectsKept s t [(0x2A80, 5), (0x2A80, 7)] ∧ t.mem = s.mem) ∧
    (s.n 0x2A80 5 ≠ 1 → ∃ t, exec (.pioSyncCancel q) s = .next t ∧ t.od = s.od ∧ t.mem = s.mem)) ∧
  (∀ (s : State), s.n 0x2A80 5 = 1 → s.bit 0x2A80 4 7 = false → (∀ b < 4, s.n (0x2A00 + b) 1 < 256) →
    ∃ t, exec .pioSyncApply s = .next t ∧ t.n 0x2A80 5 = 0 ∧ t.n 0x2A80 6 = (s.n 0x2A80 6 + 1) % 2 ^ 32 ∧ t.mem = s.mem ∧
      (∀ m < 32, t.smOn m = ((s.smOn m && !bitOf (s.n 0x2A80 3) m) || bitOf (s.n 0x2A80 1) m)) ∧
      (∀ m < 32, bitOf (s.n 0x2A80 2) m = true → (t.sm m).divAt = s.ticks)) ∧
  (∀ (q : Path) (b : Fin 4) (v : Byte) (s : State), s.writeOk q (0x2A00 + b.val) 6 v.toNat = true →
    ∃ t, exec (.pioFlagSetWrite q b v) s = .next t ∧ t.pioFlags b = (s.pioFlags b ||| v.toNat) ∧
      ObjectsKept s t [(0x2A00 + b.val, 6), (0x2A00 + b.val, 7)] ∧ t.mem = s.mem) ∧
  (∀ (q : Path) (b : Fin 4) (v : Byte) (s : State), s.writeOk q (0x2A00 + b.val) 7 v.toNat = true →
    ∃ t, exec (.pioFlagClearWrite q b v) s = .next t ∧
      (∀ k < 64, bitOf (t.pioFlags b) k = (bitOf (s.pioFlags b) k && !bitOf v.toNat k)) ∧
      ObjectsKept s t [(0x2A00 + b.val, 6), (0x2A00 + b.val, 7)] ∧ t.mem = s.mem) ∧
  (∀ (q : Path) (m : Fin 32) (v : Word) (s : State), s.writeOk q (0x2A40 + m.val) 7 v.toNat = true →
    ∃ t, exec (.pioTxFifoPush q m v) s = .next t ∧ t.sm m = { s.sm m with txF := (s.sm m).txF ++ [v] } ∧ t.mem = s.mem) ∧
  (∀ (q : Path) (m : Fin 32) (s : State),
    (s.readOk q (0x2A40 + m.val) 8 = true → s.pioDrained m = false →
      ∃ t, exec (.pioRxFifoPop q m) s = .next t ∧ (t.sm m).rxF = (s.sm m).rxF.tail ∧ t.mem = s.mem ∧
        t.out = s.out ++ [.reply q.id.val (leBytes ((s.sm m).rxF.headD 0).toNat 4) false]) ∧
    (s.readOk q (0x2A40 + m.val) 8 = false ∨ s.pioDrained m = true →
      ∃ t, exec (.pioRxFifoPop q m) s = .next t ∧ t.sm m = s.sm m ∧ t.out = s.out ++ [.reply q.id.val (zeros 4) false] ∧
        t.mem = s.mem)) ∧
  (∀ (q : Path) (k : Fin 64) (v : Word) (s : State), bitOf v.toNat 0 = true → s.writeOk q (0x2A90 + k.val) 1 v.toNat = true →
    ∃ t, exec (.pioDmaEnable q k v) s = .next t ∧ t.n (0x2A90 + k.val) 1 = v.toNat ∧ t.n (0x2A90 + k.val) 5 = 1 ∧
      t.n (0x2A90 + k.val) 4 = s.n (0x2A90 + k.val) 3 ∧ t.n (0x2A90 + k.val) 8 = s.n (0x2A90 + k.val) 2 ∧ t.mem = s.mem) ∧
  (∀ (q : Path) (k : Fin 64) (s : State), s.writeOk q (0x2A90 + k.val) 6 1 = true → s.n (0x2A90 + k.val) 5 = 1 →
    ∃ t, exec (.pioDmaStop q k 1) s = .next t ∧ t.n (0x2A90 + k.val) 5 = 3 ∧ ObjectsKept s t [(0x2A90 + k.val, 5)] ∧ t.mem = s.mem) ∧
  (∀ (k : Fin 64) (s : State),
    let i := 0x2A90 + k.val
    let m := fieldOf (s.n i 1) 8 5
    let a := s.n i 8
    let moved := fun (t : State) => t.n i 7 = (s.n i 7 + 1) % 2 ^ 32 ∧
      (if s.n i 4 ≤ 1 then
        (if s.bit i 1 20 then t.n i 4 = s.n i 3 ∧ t.n i 8 = s.n i 2 ∧ t.n i 5 = 1
         else t.n i 4 = 0 ∧ t.n i 5 = 2 ∧ t.bit (0x2A00 + smBlock m) 8 24 = true)
       else t.n i 4 = s.n i 4 - 1 ∧ t.n i 8 = ringNext a (fieldOf (s.n i 1) 16 4) % 2 ^ 64 ∧ t.n i 5 = 1)
    s.n i 5 = 1 → s.ready a = true → inFacetStore a = true → inFacetStore (a + 3) = true → s.memc.dbe = [] →
    (s.bit i 1 1 = false → s.txRoom m = true →
      ∃ t, exec (.pioDmaWord k) s = .next t ∧ (t.sm m).txF = (s.sm m).txF ++ [BitVec.ofNat 32 (s.w32 a)] ∧ moved t ∧ t.mem = s.mem) ∧
    (∀ d l, s.bit i 1 1 = true → (s.sm m).rxF = d :: l →
      ∃ t, exec (.pioDmaWord k) s = .next t ∧ (t.sm m).rxF = l ∧ moved t ∧ Stored s t a 4 d.toNat) ∧
    ((s.bit i 1 1 = false ∧ s.txRoom m = false) ∨ (s.bit i 1 1 = true ∧ (s.sm m).rxF = []) →
      exec (.pioDmaWord k) s = .next s))
end

