-- ==== Sys2Proof/Laws/Fields.lean ====
section
/-! SUPPORT. Every named operation of Machine/Ops.lean leaves each field of State that it does not name as it was. -/

namespace Sys2Proof.Machine
set_option linter.all false

/-! ### out -/

@[simp] theorem ite_out (c : Prop) [Decidable c] (a b : State) : (if c then a else b).out = if c then a.out else b.out := apply_ite State.out c a b
@[simp] theorem foldl_out {α : Type} (f : State → α → State) (h : ∀ s a, (f s a).out = s.out) (l : List α) (s : State) : (l.foldl f s).out = s.out := by
  induction l generalizing s with
  | nil => rfl
  | cons x l ih => simp [ih, h]


@[simp] theorem State.wr_out (s : State) (i j v : Nat) : (State.wr s i j v).out = s.out := by simp [State.wr]
@[simp] theorem State.wrD_out (s : State) (i j : Nat) (v : DWord) : (State.wrD s i j v).out = s.out := by simp [State.wrD]
@[simp] theorem State.setBits_out (s : State) (i j m : Nat) : (State.setBits s i j m).out = s.out := by simp [State.setBits]
@[simp] theorem State.clrBits_out (s : State) (i j m : Nat) : (State.clrBits s i j m).out = s.out := by simp [State.clrBits]
@[simp] theorem State.putBits_out (s : State) (i j m : Nat) (on : Bool) : (State.putBits s i j m on).out = s.out := by simp [State.putBits]
@[simp] theorem State.setBit_out (s : State) (i j b : Nat) : (State.setBit s i j b).out = s.out := by simp [State.setBit]
@[simp] theorem State.tick_out (s : State) : (State.tick s).out = s.out := by simp [State.tick]
@[simp] theorem State.setEngine_out (s : State) (c : Nat) (e : Engine) : (State.setEngine s c e).out = s.out := by simp [State.setEngine]
@[simp] theorem State.setChan_out (s : State) (c : Nat) (m : Mbox) : (State.setChan s c m).out = s.out := by simp [State.setChan]
@[simp] theorem State.setPort_out (s : State) (p : Nat) (x : Port) : (State.setPort s p x).out = s.out := by simp [State.setPort]
@[simp] theorem State.evpSet_out (s : State) (c b : Nat) : (State.evpSet s c b).out = s.out := by simp [State.evpSet]
@[simp] theorem State.addW_out (s : State) (i j w k : Nat) : (State.addW s i j w k).out = s.out := by simp [State.addW]
@[simp] theorem State.cnt_out (s : State) (i j : Nat) : (State.cnt s i j).out = s.out := by simp [State.cnt]
@[simp] theorem State.cntS_out (s : State) (i j : Nat) : (State.cntS s i j).out = s.out := by simp [State.cntS]
@[simp] theorem State.setByte_out (s : State) (a : Nat) (b : Byte) : (State.setByte s a b).out = s.out := by simp [State.setByte]
@[simp] theorem State.setBytes_out (s : State) (a : Nat) (x0 : List Byte) : (State.setBytes s a x0).out = s.out := by
  induction x0 generalizing s a <;> first | (simp_all [State.setBytes]; done) | (unfold State.setBytes; (repeat' split) <;> simp_all)
@[simp] theorem State.setW32_out (s : State) (a v : Nat) : (State.setW32 s a v).out = s.out := by simp [State.setW32]
@[simp] theorem State.zeroRange_out (s : State) (lo hi : Nat) : (State.zeroRange s lo hi).out = s.out := by simp [State.zeroRange]
@[simp] theorem State.errGeneric_out (s : State) : (State.errGeneric s).out = s.out := by simp [State.errGeneric]
@[simp] theorem State.errBit_out (s : State) (b : Nat) (on : Bool) : (State.errBit s b on).out = s.out := by simp [State.errBit]
@[simp] theorem State.unhold_out (s : State) (m : Nat) : (State.unhold s m).out = s.out := by simp [State.unhold]
@[simp] theorem State.violate_out (s : State) (id : Nat) : (State.violate s id).out = s.out := by simp [State.violate]
@[simp] theorem State.showAllowances_out (s : State) : (State.showAllowances s).out = s.out := by
  first
  | (simp [State.showAllowances]; done)
  | (unfold State.showAllowances; (repeat' split) <;> (first | (simp; done) | (simp_all; done)))
  | (simp only [State.showAllowances]; (repeat' split) <;> (first | (simp; done) | (simp_all; done)))
  | (unfold State.showAllowances; (try dsimp only); refine foldl_out _ (fun s a => ?_) _ _; (try dsimp only); (repeat' split) <;> (first | (simp; done) | (simp_all; done)))
@[simp] theorem State.setTdom_out (s : State) (d : Nat) (x : TimeDom) : (State.setTdom s d x).out = s.out := by simp [State.setTdom]
@[simp] theorem State.setLaunch_out (s : State) (k : Nat) (x : Launch) : (State.setLaunch s k x).out = s.out := by simp [State.setLaunch]
@[simp] theorem State.setDomVal_out (s : State) (d v : Nat) : (State.setDomVal s d v).out = s.out := by simp [State.setDomVal]
@[simp] theorem State.setRing_out (s : State) (n : Nat) (x : Ring) : (State.setRing s n x).out = s.out := by simp [State.setRing]
@[simp] theorem State.setTrack_out (s : State) (t : Nat) (x : Track) : (State.setTrack s t x).out = s.out := by simp [State.setTrack]
@[simp] theorem State.setInst_out (s : State) (n : Nat) (x : Inst) : (State.setInst s n x).out = s.out := by simp [State.setInst]
@[simp] theorem State.setDbe_out (s : State) (a : Nat) (b : Bool) : (State.setDbe s a b).out = s.out := by simp [State.setDbe]
@[simp] theorem State.setSbe_out (s : State) (a : Nat) (b : Bool) : (State.setSbe s a b).out = s.out := by simp [State.setSbe]
@[simp] theorem State.setChord_out (s : State) (d : Nat) (x : Chord) : (State.setChord s d x).out = s.out := by simp [State.setChord]
@[simp] theorem State.setSw_out (s : State) (f : Switch → Switch) : (State.setSw s f).out = s.out := by simp [State.setSw]
@[simp] theorem State.setQueue_out (s : State) (st c : Nat) (l : List QEntry) : (State.setQueue s st c l).out = s.out := by simp [State.setQueue]
@[simp] theorem State.setFrame_out (s : State) (f : Nat) (x : SwFrame) : (State.setFrame s f x).out = s.out := by simp [State.setFrame]
@[simp] theorem State.setUsed_out (s : State) (st c u : Nat) : (State.setUsed s st c u).out = s.out := by simp [State.setUsed]
@[simp] theorem State.setGate_out (s : State) (p : Nat) (g : GateCtl) : (State.setGate s p g).out = s.out := by simp [State.setGate]
@[simp] theorem State.setStream_out (s : State) (h : Nat) (x : Stream) : (State.setStream s h x).out = s.out := by simp [State.setStream]
@[simp] theorem State.setSgate_out (s : State) (g : Nat) (x : SGate) : (State.setSgate s g x).out = s.out := by simp [State.setSgate]
@[simp] theorem State.setMeter_out (s : State) (m : Nat) (x : Meter) : (State.setMeter s m x).out = s.out := by simp [State.setMeter]
@[simp] theorem State.setCb_out (s : State) (h : Nat) (x : Cb) : (State.setCb s h x).out = s.out := by simp [State.setCb]
@[simp] theorem State.setFdb_out (s : State) (e : Nat) (x : FdbEntry) : (State.setFdb s e x).out = s.out := by simp [State.setFdb]
@[simp] theorem State.setMdio_out (s : State) (m : Nat) (x : Mdio) : (State.setMdio s m x).out = s.out := by simp [State.setMdio]
@[simp] theorem State.setPps_out (s : State) (i : Nat) (x : Pps) : (State.setPps s i x).out = s.out := by simp [State.setPps]
@[simp] theorem State.setEcho_out (s : State) (n : Nat) (east : Bool) (x : Echo) : (State.setEcho s n east x).out = s.out := by simp [State.setEcho]
@[simp] theorem State.setSlotFetch_out (s : State) (n k : Nat) (x : Nat × List Nib) : (State.setSlotFetch s n k x).out = s.out := by simp [State.setSlotFetch]
@[simp] theorem State.setStaged_out (s : State) (n t : Nat) (l : List (Nat × List Byte)) : (State.setStaged s n t l).out = s.out := by simp [State.setStaged]
@[simp] theorem State.setLat_out (s : State) (f : Lattice → Lattice) : (State.setLat s f).out = s.out := by simp [State.setLat]
@[simp] theorem State.setPio_out (s : State) (b : Nat) (x : Pio) : (State.setPio s b x).out = s.out := by simp [State.setPio]
@[simp] theorem State.setSm_out (s : State) (m : Nat) (x : Sm) : (State.setSm s m x).out = s.out := by simp [State.setSm]
@[simp] theorem State.setPioFlags_out (s : State) (b v : Nat) : (State.setPioFlags s b v).out = s.out := by simp [State.setPioFlags]
@[simp] theorem State.setTrkS_out (s : State) (t j v : Nat) : (State.setTrkS s t j v).out = s.out := by simp [State.setTrkS]
@[simp] theorem State.setCan_out (s : State) (c : Nat) (x : Can) : (State.setCan s c x).out = s.out := by simp [State.setCan]
@[simp] theorem State.setBuf_out (s : State) (c b lsb w v : Nat) : (State.setBuf s c b lsb w v).out = s.out := by simp [State.setBuf]
@[simp] theorem State.setBufState_out (s : State) (c b v : Nat) : (State.setBufState s c b v).out = s.out := by simp [State.setBufState]
@[simp] theorem State.setCoreState_out (s : State) (c v : Nat) : (State.setCoreState s c v).out = s.out := by simp [State.setCoreState]
@[simp] theorem State.setPc_out (s : State) (c v : Nat) : (State.setPc s c v).out = s.out := by simp [State.setPc]
@[simp] theorem State.setSession_out (s : State) (c : Nat) (x : Session) : (State.setSession s c x).out = s.out := by simp [State.setSession]
@[simp] theorem State.setDmaCh_out (s : State) (k : Nat) (x : DmaCh) : (State.setDmaCh s k x).out = s.out := by simp [State.setDmaCh]
@[simp] theorem State.setPath_out (s : State) (p : Path) (x : PathSt) : (State.setPath s p x).out = s.out := by simp [State.setPath]
@[simp] theorem State.setNetSel_out (s : State) (n conn v : Nat) : (State.setNetSel s n conn v).out = s.out := by simp [State.setNetSel]
/-! ### paths -/

@[simp] theorem ite_paths (c : Prop) [Decidable c] (a b : State) : (if c then a else b).paths = if c then a.paths else b.paths := apply_ite State.paths c a b
@[simp] theorem foldl_paths {α : Type} (f : State → α → State) (h : ∀ s a, (f s a).paths = s.paths) (l : List α) (s : State) : (l.foldl f s).paths = s.paths := by
  induction l generalizing s with
  | nil => rfl
  | cons x l ih => simp [ih, h]


@[simp] theorem State.wr_paths (s : State) (i j v : Nat) : (State.wr s i j v).paths = s.paths := by simp [State.wr]
@[simp] theorem State.wrD_paths (s : State) (i j : Nat) (v : DWord) : (State.wrD s i j v).paths = s.paths := by simp [State.wrD]
@[simp] theorem State.setBits_paths (s : State) (i j m : Nat) : (State.setBits s i j m).paths = s.paths := by simp [State.setBits]
@[simp] theorem State.clrBits_paths (s : State) (i j m : Nat) : (State.clrBits s i j m).paths = s.paths := by simp [State.clrBits]
@[simp] theorem State.putBits_paths (s : State) (i j m : Nat) (on : Bool) : (State.putBits s i j m on).paths = s.paths := by simp [State.putBits]
@[simp] theorem State.setBit_paths (s : State) (i j b : Nat) : (State.setBit s i j b).paths = s.paths := by simp [State.setBit]
@[simp] theorem State.emit_paths (s : State) (o : Out) : (State.emit s o).paths = s.paths := by simp [State.emit]
@[simp] theorem State.tick_paths (s : State) : (State.tick s).paths = s.paths := by simp [State.tick]
@[simp] theorem State.setEngine_paths (s : State) (c : Nat) (e : Engine) : (State.setEngine s c e).paths = s.paths := by simp [State.setEngine]
@[simp] theorem State.setChan_paths (s : State) (c : Nat) (m : Mbox) : (State.setChan s c m).paths = s.paths := by simp [State.setChan]
@[simp] theorem State.setPort_paths (s : State) (p : Nat) (x : Port) : (State.setPort s p x).paths = s.paths := by simp [State.setPort]
@[simp] theorem State.msix_paths (s : State) (v : Nat) : (State.msix s v).paths = s.paths := by simp [State.msix]
@[simp] theorem State.evpSet_paths (s : State) (c b : Nat) : (State.evpSet s c b).paths = s.paths := by simp [State.evpSet]
@[simp] theorem State.notify_paths (s : State) (r : Nat) : (State.notify s r).paths = s.paths := by simp [State.notify]
@[simp] theorem State.route_paths (s : State) (r : Nat) (statusWritten : Bool) : (State.route s r statusWritten).paths = s.paths := by simp [State.route]
@[simp] theorem State.event_paths (s : State) (i j m : Nat) : (State.event s i j m).paths = s.paths := by simp [State.event]
@[simp] theorem State.addW_paths (s : State) (i j w k : Nat) : (State.addW s i j w k).paths = s.paths := by simp [State.addW]
@[simp] theorem State.cnt_paths (s : State) (i j : Nat) : (State.cnt s i j).paths = s.paths := by simp [State.cnt]
@[simp] theorem State.cntS_paths (s : State) (i j : Nat) : (State.cntS s i j).paths = s.paths := by simp [State.cntS]
@[simp] theorem State.addH_paths (s : State) (i j w k ei ej : Nat) : (State.addH s i j w k ei ej).paths = s.paths := by simp [State.addH]
@[simp] theorem State.cntH_paths (s : State) (i j ei ej : Nat) : (State.cntH s i j ei ej).paths = s.paths := by simp [State.cntH]
@[simp] theorem State.setByte_paths (s : State) (a : Nat) (b : Byte) : (State.setByte s a b).paths = s.paths := by simp [State.setByte]
@[simp] theorem State.setBytes_paths (s : State) (a : Nat) (x0 : List Byte) : (State.setBytes s a x0).paths = s.paths := by
  induction x0 generalizing s a <;> first | (simp_all [State.setBytes]; done) | (unfold State.setBytes; (repeat' split) <;> simp_all)
@[simp] theorem State.setW32_paths (s : State) (a v : Nat) : (State.setW32 s a v).paths = s.paths := by simp [State.setW32]
@[simp] theorem State.zeroRange_paths (s : State) (lo hi : Nat) : (State.zeroRange s lo hi).paths = s.paths := by simp [State.zeroRange]
@[simp] theorem State.enter_paths (s : State) (st : Nat) : (State.enter s st).paths = s.paths := by simp [State.enter]
@[simp] theorem State.errGeneric_paths (s : State) : (State.errGeneric s).paths = s.paths := by simp [State.errGeneric]
@[simp] theorem State.errBit_paths (s : State) (b : Nat) (on : Bool) : (State.errBit s b on).paths = s.paths := by simp [State.errBit]
@[simp] theorem State.holdLow_paths (s : State) : (State.holdLow s).paths = s.paths := by simp [State.holdLow]
@[simp] theorem State.hold_paths (s : State) (m : Nat) : (State.hold s m).paths = s.paths := by simp [State.hold]
@[simp] theorem State.unhold_paths (s : State) (m : Nat) : (State.unhold s m).paths = s.paths := by simp [State.unhold]
@[simp] theorem State.violate_paths (s : State) (id : Nat) : (State.violate s id).paths = s.paths := by simp [State.violate]
@[simp] theorem State.showAllowances_paths (s : State) : (State.showAllowances s).paths = s.paths := by
  first
  | (simp [State.showAllowances]; done)
  | (unfold State.showAllowances; (repeat' split) <;> (first | (simp; done) | (simp_all; done)))
  | (simp only [State.showAllowances]; (repeat' split) <;> (first | (simp; done) | (simp_all; done)))
  | (unfold State.showAllowances; (try dsimp only); refine foldl_paths _ (fun s a => ?_) _ _; (try dsimp only); (repeat' split) <;> (first | (simp; done) | (simp_all; done)))
@[simp] theorem State.admitRec_paths (s : State) (r : Rec) : (State.admitRec s r).paths = s.paths := by simp [State.admitRec]
@[simp] theorem State.record_paths (s : State) (typ : Nat) (body : List Byte) : (State.record s typ body).paths = s.paths := by simp [State.record]
@[simp] theorem State.setTdom_paths (s : State) (d : Nat) (x : TimeDom) : (State.setTdom s d x).paths = s.paths := by simp [State.setTdom]
@[simp] theorem State.setLaunch_paths (s : State) (k : Nat) (x : Launch) : (State.setLaunch s k x).paths = s.paths := by simp [State.setLaunch]
@[simp] theorem State.setDomVal_paths (s : State) (d v : Nat) : (State.setDomVal s d v).paths = s.paths := by simp [State.setDomVal]
@[simp] theorem State.setRing_paths (s : State) (n : Nat) (x : Ring) : (State.setRing s n x).paths = s.paths := by simp [State.setRing]
@[simp] theorem State.setTrack_paths (s : State) (t : Nat) (x : Track) : (State.setTrack s t x).paths = s.paths := by simp [State.setTrack]
@[simp] theorem State.setInst_paths (s : State) (n : Nat) (x : Inst) : (State.setInst s n x).paths = s.paths := by simp [State.setInst]
@[simp] theorem State.setDbe_paths (s : State) (a : Nat) (b : Bool) : (State.setDbe s a b).paths = s.paths := by simp [State.setDbe]
@[simp] theorem State.setSbe_paths (s : State) (a : Nat) (b : Bool) : (State.setSbe s a b).paths = s.paths := by simp [State.setSbe]
@[simp] theorem State.setChord_paths (s : State) (d : Nat) (x : Chord) : (State.setChord s d x).paths = s.paths := by simp [State.setChord]
@[simp] theorem State.setSw_paths (s : State) (f : Switch → Switch) : (State.setSw s f).paths = s.paths := by simp [State.setSw]
@[simp] theorem State.setQueue_paths (s : State) (st c : Nat) (l : List QEntry) : (State.setQueue s st c l).paths = s.paths := by simp [State.setQueue]
@[simp] theorem State.setFrame_paths (s : State) (f : Nat) (x : SwFrame) : (State.setFrame s f x).paths = s.paths := by simp [State.setFrame]
@[simp] theorem State.setUsed_paths (s : State) (st c u : Nat) : (State.setUsed s st c u).paths = s.paths := by simp [State.setUsed]
@[simp] theorem State.setGate_paths (s : State) (p : Nat) (g : GateCtl) : (State.setGate s p g).paths = s.paths := by simp [State.setGate]
@[simp] theorem State.setStream_paths (s : State) (h : Nat) (x : Stream) : (State.setStream s h x).paths = s.paths := by simp [State.setStream]
@[simp] theorem State.setSgate_paths (s : State) (g : Nat) (x : SGate) : (State.setSgate s g x).paths = s.paths := by simp [State.setSgate]
@[simp] theorem State.setMeter_paths (s : State) (m : Nat) (x : Meter) : (State.setMeter s m x).paths = s.paths := by simp [State.setMeter]
@[simp] theorem State.setCb_paths (s : State) (h : Nat) (x : Cb) : (State.setCb s h x).paths = s.paths := by simp [State.setCb]
@[simp] theorem State.setFdb_paths (s : State) (e : Nat) (x : FdbEntry) : (State.setFdb s e x).paths = s.paths := by simp [State.setFdb]
@[simp] theorem State.setMdio_paths (s : State) (m : Nat) (x : Mdio) : (State.setMdio s m x).paths = s.paths := by simp [State.setMdio]
@[simp] theorem State.setPps_paths (s : State) (i : Nat) (x : Pps) : (State.setPps s i x).paths = s.paths := by simp [State.setPps]
@[simp] theorem State.setEcho_paths (s : State) (n : Nat) (east : Bool) (x : Echo) : (State.setEcho s n east x).paths = s.paths := by simp [State.setEcho]
@[simp] theorem State.setSlotFetch_paths (s : State) (n k : Nat) (x : Nat × List Nib) : (State.setSlotFetch s n k x).paths = s.paths := by simp [State.setSlotFetch]
@[simp] theorem State.setStaged_paths (s : State) (n t : Nat) (l : List (Nat × List Byte)) : (State.setStaged s n t l).paths = s.paths := by simp [State.setStaged]
@[simp] theorem State.setLat_paths (s : State) (f : Lattice → Lattice) : (State.setLat s f).paths = s.paths := by simp [State.setLat]
@[simp] theorem State.setPio_paths (s : State) (b : Nat) (x : Pio) : (State.setPio s b x).paths = s.paths := by simp [State.setPio]
@[simp] theorem State.setSm_paths (s : State) (m : Nat) (x : Sm) : (State.setSm s m x).paths = s.paths := by simp [State.setSm]
@[simp] theorem State.setPioFlags_paths (s : State) (b v : Nat) : (State.setPioFlags s b v).paths = s.paths := by simp [State.setPioFlags]
@[simp] theorem State.setTrkS_paths (s : State) (t j v : Nat) : (State.setTrkS s t j v).paths = s.paths := by simp [State.setTrkS]
@[simp] theorem State.setCan_paths (s : State) (c : Nat) (x : Can) : (State.setCan s c x).paths = s.paths := by simp [State.setCan]
@[simp] theorem State.setBuf_paths (s : State) (c b lsb w v : Nat) : (State.setBuf s c b lsb w v).paths = s.paths := by simp [State.setBuf]
@[simp] theorem State.setBufState_paths (s : State) (c b v : Nat) : (State.setBufState s c b v).paths = s.paths := by simp [State.setBufState]
@[simp] theorem State.setCoreState_paths (s : State) (c v : Nat) : (State.setCoreState s c v).paths = s.paths := by simp [State.setCoreState]
@[simp] theorem State.setPc_paths (s : State) (c v : Nat) : (State.setPc s c v).paths = s.paths := by simp [State.setPc]
@[simp] theorem State.setSession_paths (s : State) (c : Nat) (x : Session) : (State.setSession s c x).paths = s.paths := by simp [State.setSession]
@[simp] theorem State.setDmaCh_paths (s : State) (k : Nat) (x : DmaCh) : (State.setDmaCh s k x).paths = s.paths := by simp [State.setDmaCh]
@[simp] theorem State.setRecord_paths (s : State) (d : List Byte) (applied refused : Nat) : (State.setRecord s d applied refused).paths = s.paths := by simp [State.setRecord]
@[simp] theorem State.setNetSel_paths (s : State) (n conn v : Nat) : (State.setNetSel s n conn v).paths = s.paths := by simp [State.setNetSel]
/-! ### pw -/

@[simp] theorem ite_pw (c : Prop) [Decidable c] (a b : State) : (if c then a else b).pw = if c then a.pw else b.pw := apply_ite State.pw c a b
@[simp] theorem foldl_pw {α : Type} (f : State → α → State) (h : ∀ s a, (f s a).pw = s.pw) (l : List α) (s : State) : (l.foldl f s).pw = s.pw := by
  induction l generalizing s with
  | nil => rfl
  | cons x l ih => simp [ih, h]


@[simp] theorem State.wr_pw (s : State) (i j v : Nat) : (State.wr s i j v).pw = s.pw := by simp [State.wr]
@[simp] theorem State.wrD_pw (s : State) (i j : Nat) (v : DWord) : (State.wrD s i j v).pw = s.pw := by simp [State.wrD]
@[simp] theorem State.setBits_pw (s : State) (i j m : Nat) : (State.setBits s i j m).pw = s.pw := by simp [State.setBits]
@[simp] theorem State.clrBits_pw (s : State) (i j m : Nat) : (State.clrBits s i j m).pw = s.pw := by simp [State.clrBits]
@[simp] theorem State.putBits_pw (s : State) (i j m : Nat) (on : Bool) : (State.putBits s i j m on).pw = s.pw := by simp [State.putBits]
@[simp] theorem State.setBit_pw (s : State) (i j b : Nat) : (State.setBit s i j b).pw = s.pw := by simp [State.setBit]
@[simp] theorem State.emit_pw (s : State) (o : Out) : (State.emit s o).pw = s.pw := by simp [State.emit]
@[simp] theorem State.tick_pw (s : State) : (State.tick s).pw = s.pw := by simp [State.tick]
@[simp] theorem State.setEngine_pw (s : State) (c : Nat) (e : Engine) : (State.setEngine s c e).pw = s.pw := by simp [State.setEngine]
@[simp] theorem State.setChan_pw (s : State) (c : Nat) (m : Mbox) : (State.setChan s c m).pw = s.pw := by simp [State.setChan]
@[simp] theorem State.setPort_pw (s : State) (p : Nat) (x : Port) : (State.setPort s p x).pw = s.pw := by simp [State.setPort]
@[simp] theorem State.msix_pw (s : State) (v : Nat) : (State.msix s v).pw = s.pw := by simp [State.msix]
@[simp] theorem State.evpSet_pw (s : State) (c b : Nat) : (State.evpSet s c b).pw = s.pw := by simp [State.evpSet]
@[simp] theorem State.notify_pw (s : State) (r : Nat) : (State.notify s r).pw = s.pw := by simp [State.notify]
@[simp] theorem State.route_pw (s : State) (r : Nat) (statusWritten : Bool) : (State.route s r statusWritten).pw = s.pw := by simp [State.route]
@[simp] theorem State.event_pw (s : State) (i j m : Nat) : (State.event s i j m).pw = s.pw := by simp [State.event]
@[simp] theorem State.addW_pw (s : State) (i j w k : Nat) : (State.addW s i j w k).pw = s.pw := by simp [State.addW]
@[simp] theorem State.cnt_pw (s : State) (i j : Nat) : (State.cnt s i j).pw = s.pw := by simp [State.cnt]
@[simp] theorem State.cntS_pw (s : State) (i j : Nat) : (State.cntS s i j).pw = s.pw := by simp [State.cntS]
@[simp] theorem State.addH_pw (s : State) (i j w k ei ej : Nat) : (State.addH s i j w k ei ej).pw = s.pw := by simp [State.addH]
@[simp] theorem State.cntH_pw (s : State) (i j ei ej : Nat) : (State.cntH s i j ei ej).pw = s.pw := by simp [State.cntH]
@[simp] theorem State.setByte_pw (s : State) (a : Nat) (b : Byte) : (State.setByte s a b).pw = s.pw := by simp [State.setByte]
@[simp] theorem State.setBytes_pw (s : State) (a : Nat) (x0 : List Byte) : (State.setBytes s a x0).pw = s.pw := by
  induction x0 generalizing s a <;> first | (simp_all [State.setBytes]; done) | (unfold State.setBytes; (repeat' split) <;> simp_all)
@[simp] theorem State.setW32_pw (s : State) (a v : Nat) : (State.setW32 s a v).pw = s.pw := by simp [State.setW32]
@[simp] theorem State.zeroRange_pw (s : State) (lo hi : Nat) : (State.zeroRange s lo hi).pw = s.pw := by simp [State.zeroRange]
@[simp] theorem State.enter_pw (s : State) (st : Nat) : (State.enter s st).pw = s.pw := by simp [State.enter]
@[simp] theorem State.errGeneric_pw (s : State) : (State.errGeneric s).pw = s.pw := by simp [State.errGeneric]
@[simp] theorem State.errBit_pw (s : State) (b : Nat) (on : Bool) : (State.errBit s b on).pw = s.pw := by simp [State.errBit]
@[simp] theorem State.holdLow_pw (s : State) : (State.holdLow s).pw = s.pw := by simp [State.holdLow]
@[simp] theorem State.hold_pw (s : State) (m : Nat) : (State.hold s m).pw = s.pw := by simp [State.hold]
@[simp] theorem State.unhold_pw (s : State) (m : Nat) : (State.unhold s m).pw = s.pw := by simp [State.unhold]
@[simp] theorem State.violate_pw (s : State) (id : Nat) : (State.violate s id).pw = s.pw := by simp [State.violate]
@[simp] theorem State.showAllowances_pw (s : State) : (State.showAllowances s).pw = s.pw := by
  first
  | (simp [State.showAllowances]; done)
  | (unfold State.showAllowances; (repeat' split) <;> (first | (simp; done) | (simp_all; done)))
  | (simp only [State.showAllowances]; (repeat' split) <;> (first | (simp; done) | (simp_all; done)))
  | (unfold State.showAllowances; (try dsimp only); refine foldl_pw _ (fun s a => ?_) _ _; (try dsimp only); (repeat' split) <;> (first | (simp; done) | (simp_all; done)))
@[simp] theorem State.admitRec_pw (s : State) (r : Rec) : (State.admitRec s r).pw = s.pw := by simp [State.admitRec]
@[simp] theorem State.record_pw (s : State) (typ : Nat) (body : List Byte) : (State.record s typ body).pw = s.pw := by simp [State.record]
@[simp] theorem State.setTdom_pw (s : State) (d : Nat) (x : TimeDom) : (State.setTdom s d x).pw = s.pw := by simp [State.setTdom]
@[simp] theorem State.setLaunch_pw (s : State) (k : Nat) (x : Launch) : (State.setLaunch s k x).pw = s.pw := by simp [State.setLaunch]
@[simp] theorem State.setDomVal_pw (s : State) (d v : Nat) : (State.setDomVal s d v).pw = s.pw := by simp [State.setDomVal]
@[simp] theorem State.setRing_pw (s : State) (n : Nat) (x : Ring) : (State.setRing s n x).pw = s.pw := by simp [State.setRing]
@[simp] theorem State.setTrack_pw (s : State) (t : Nat) (x : Track) : (State.setTrack s t x).pw = s.pw := by simp [State.setTrack]
@[simp] theorem State.setInst_pw (s : State) (n : Nat) (x : Inst) : (State.setInst s n x).pw = s.pw := by simp [State.setInst]
@[simp] theorem State.setDbe_pw (s : State) (a : Nat) (b : Bool) : (State.setDbe s a b).pw = s.pw := by simp [State.setDbe]
@[simp] theorem State.setSbe_pw (s : State) (a : Nat) (b : Bool) : (State.setSbe s a b).pw = s.pw := by simp [State.setSbe]
@[simp] theorem State.setChord_pw (s : State) (d : Nat) (x : Chord) : (State.setChord s d x).pw = s.pw := by simp [State.setChord]
@[simp] theorem State.setSw_pw (s : State) (f : Switch → Switch) : (State.setSw s f).pw = s.pw := by simp [State.setSw]
@[simp] theorem State.setQueue_pw (s : State) (st c : Nat) (l : List QEntry) : (State.setQueue s st c l).pw = s.pw := by simp [State.setQueue]
@[simp] theorem State.setFrame_pw (s : State) (f : Nat) (x : SwFrame) : (State.setFrame s f x).pw = s.pw := by simp [State.setFrame]
@[simp] theorem State.setUsed_pw (s : State) (st c u : Nat) : (State.setUsed s st c u).pw = s.pw := by simp [State.setUsed]
@[simp] theorem State.setGate_pw (s : State) (p : Nat) (g : GateCtl) : (State.setGate s p g).pw = s.pw := by simp [State.setGate]
@[simp] theorem State.setStream_pw (s : State) (h : Nat) (x : Stream) : (State.setStream s h x).pw = s.pw := by simp [State.setStream]
@[simp] theorem State.setSgate_pw (s : State) (g : Nat) (x : SGate) : (State.setSgate s g x).pw = s.pw := by simp [State.setSgate]
@[simp] theorem State.setMeter_pw (s : State) (m : Nat) (x : Meter) : (State.setMeter s m x).pw = s.pw := by simp [State.setMeter]
@[simp] theorem State.setCb_pw (s : State) (h : Nat) (x : Cb) : (State.setCb s h x).pw = s.pw := by simp [State.setCb]
@[simp] theorem State.setFdb_pw (s : State) (e : Nat) (x : FdbEntry) : (State.setFdb s e x).pw = s.pw := by simp [State.setFdb]
@[simp] theorem State.setMdio_pw (s : State) (m : Nat) (x : Mdio) : (State.setMdio s m x).pw = s.pw := by simp [State.setMdio]
@[simp] theorem State.setPps_pw (s : State) (i : Nat) (x : Pps) : (State.setPps s i x).pw = s.pw := by simp [State.setPps]
@[simp] theorem State.setEcho_pw (s : State) (n : Nat) (east : Bool) (x : Echo) : (State.setEcho s n east x).pw = s.pw := by simp [State.setEcho]
@[simp] theorem State.setSlotFetch_pw (s : State) (n k : Nat) (x : Nat × List Nib) : (State.setSlotFetch s n k x).pw = s.pw := by simp [State.setSlotFetch]
@[simp] theorem State.setStaged_pw (s : State) (n t : Nat) (l : List (Nat × List Byte)) : (State.setStaged s n t l).pw = s.pw := by simp [State.setStaged]
@[simp] theorem State.setLat_pw (s : State) (f : Lattice → Lattice) : (State.setLat s f).pw = s.pw := by simp [State.setLat]
@[simp] theorem State.setPio_pw (s : State) (b : Nat) (x : Pio) : (State.setPio s b x).pw = s.pw := by simp [State.setPio]
@[simp] theorem State.setSm_pw (s : State) (m : Nat) (x : Sm) : (State.setSm s m x).pw = s.pw := by simp [State.setSm]
@[simp] theorem State.setPioFlags_pw (s : State) (b v : Nat) : (State.setPioFlags s b v).pw = s.pw := by simp [State.setPioFlags]
@[simp] theorem State.setTrkS_pw (s : State) (t j v : Nat) : (State.setTrkS s t j v).pw = s.pw := by simp [State.setTrkS]
@[simp] theorem State.setCan_pw (s : State) (c : Nat) (x : Can) : (State.setCan s c x).pw = s.pw := by simp [State.setCan]
@[simp] theorem State.setBuf_pw (s : State) (c b lsb w v : Nat) : (State.setBuf s c b lsb w v).pw = s.pw := by simp [State.setBuf]
@[simp] theorem State.setBufState_pw (s : State) (c b v : Nat) : (State.setBufState s c b v).pw = s.pw := by simp [State.setBufState]
@[simp] theorem State.setCoreState_pw (s : State) (c v : Nat) : (State.setCoreState s c v).pw = s.pw := by simp [State.setCoreState]
@[simp] theorem State.setPc_pw (s : State) (c v : Nat) : (State.setPc s c v).pw = s.pw := by simp [State.setPc]
@[simp] theorem State.setSession_pw (s : State) (c : Nat) (x : Session) : (State.setSession s c x).pw = s.pw := by simp [State.setSession]
@[simp] theorem State.setDmaCh_pw (s : State) (k : Nat) (x : DmaCh) : (State.setDmaCh s k x).pw = s.pw := by simp [State.setDmaCh]
@[simp] theorem State.setPath_pw (s : State) (p : Path) (x : PathSt) : (State.setPath s p x).pw = s.pw := by simp [State.setPath]
@[simp] theorem State.setRecord_pw (s : State) (d : List Byte) (applied refused : Nat) : (State.setRecord s d applied refused).pw = s.pw := by simp [State.setRecord]
@[simp] theorem State.setNetSel_pw (s : State) (n conn v : Nat) : (State.setNetSel s n conn v).pw = s.pw := by simp [State.setNetSel]
/-! ### store -/

@[simp] theorem ite_store (c : Prop) [Decidable c] (a b : State) : (if c then a else b).store = if c then a.store else b.store := apply_ite State.store c a b
@[simp] theorem foldl_store {α : Type} (f : State → α → State) (h : ∀ s a, (f s a).store = s.store) (l : List α) (s : State) : (l.foldl f s).store = s.store := by
  induction l generalizing s with
  | nil => rfl
  | cons x l ih => simp [ih, h]


@[simp] theorem State.wr_store (s : State) (i j v : Nat) : (State.wr s i j v).store = s.store := by simp [State.wr]
@[simp] theorem State.wrD_store (s : State) (i j : Nat) (v : DWord) : (State.wrD s i j v).store = s.store := by simp [State.wrD]
@[simp] theorem State.setBits_store (s : State) (i j m : Nat) : (State.setBits s i j m).store = s.store := by simp [State.setBits]
@[simp] theorem State.clrBits_store (s : State) (i j m : Nat) : (State.clrBits s i j m).store = s.store := by simp [State.clrBits]
@[simp] theorem State.putBits_store (s : State) (i j m : Nat) (on : Bool) : (State.putBits s i j m on).store = s.store := by simp [State.putBits]
@[simp] theorem State.setBit_store (s : State) (i j b : Nat) : (State.setBit s i j b).store = s.store := by simp [State.setBit]
@[simp] theorem State.emit_store (s : State) (o : Out) : (State.emit s o).store = s.store := by simp [State.emit]
@[simp] theorem State.tick_store (s : State) : (State.tick s).store = s.store := by simp [State.tick]
@[simp] theorem State.setEngine_store (s : State) (c : Nat) (e : Engine) : (State.setEngine s c e).store = s.store := by simp [State.setEngine]
@[simp] theorem State.setChan_store (s : State) (c : Nat) (m : Mbox) : (State.setChan s c m).store = s.store := by simp [State.setChan]
@[simp] theorem State.setPort_store (s : State) (p : Nat) (x : Port) : (State.setPort s p x).store = s.store := by simp [State.setPort]
@[simp] theorem State.msix_store (s : State) (v : Nat) : (State.msix s v).store = s.store := by simp [State.msix]
@[simp] theorem State.evpSet_store (s : State) (c b : Nat) : (State.evpSet s c b).store = s.store := by simp [State.evpSet]
@[simp] theorem State.notify_store (s : State) (r : Nat) : (State.notify s r).store = s.store := by simp [State.notify]
@[simp] theorem State.route_store (s : State) (r : Nat) (statusWritten : Bool) : (State.route s r statusWritten).store = s.store := by simp [State.route]
@[simp] theorem State.event_store (s : State) (i j m : Nat) : (State.event s i j m).store = s.store := by simp [State.event]
@[simp] theorem State.addW_store (s : State) (i j w k : Nat) : (State.addW s i j w k).store = s.store := by simp [State.addW]
@[simp] theorem State.cnt_store (s : State) (i j : Nat) : (State.cnt s i j).store = s.store := by simp [State.cnt]
@[simp] theorem State.cntS_store (s : State) (i j : Nat) : (State.cntS s i j).store = s.store := by simp [State.cntS]
@[simp] theorem State.addH_store (s : State) (i j w k ei ej : Nat) : (State.addH s i j w k ei ej).store = s.store := by simp [State.addH]
@[simp] theorem State.cntH_store (s : State) (i j ei ej : Nat) : (State.cntH s i j ei ej).store = s.store := by simp [State.cntH]
@[simp] theorem State.setByte_store (s : State) (a : Nat) (b : Byte) : (State.setByte s a b).store = s.store := by simp [State.setByte]
@[simp] theorem State.setBytes_store (s : State) (a : Nat) (x0 : List Byte) : (State.setBytes s a x0).store = s.store := by
  induction x0 generalizing s a <;> first | (simp_all [State.setBytes]; done) | (unfold State.setBytes; (repeat' split) <;> simp_all)
@[simp] theorem State.setW32_store (s : State) (a v : Nat) : (State.setW32 s a v).store = s.store := by simp [State.setW32]
@[simp] theorem State.zeroRange_store (s : State) (lo hi : Nat) : (State.zeroRange s lo hi).store = s.store := by simp [State.zeroRange]
@[simp] theorem State.enter_store (s : State) (st : Nat) : (State.enter s st).store = s.store := by simp [State.enter]
@[simp] theorem State.errGeneric_store (s : State) : (State.errGeneric s).store = s.store := by simp [State.errGeneric]
@[simp] theorem State.errBit_store (s : State) (b : Nat) (on : Bool) : (State.errBit s b on).store = s.store := by simp [State.errBit]
@[simp] theorem State.holdLow_store (s : State) : (State.holdLow s).store = s.store := by simp [State.holdLow]
@[simp] theorem State.hold_store (s : State) (m : Nat) : (State.hold s m).store = s.store := by simp [State.hold]
@[simp] theorem State.unhold_store (s : State) (m : Nat) : (State.unhold s m).store = s.store := by simp [State.unhold]
@[simp] theorem State.violate_store (s : State) (id : Nat) : (State.violate s id).store = s.store := by simp [State.violate]
@[simp] theorem State.showAllowances_store (s : State) : (State.showAllowances s).store = s.store := by
  first
  | (simp [State.showAllowances]; done)
  | (unfold State.showAllowances; (repeat' split) <;> (first | (simp; done) | (simp_all; done)))
  | (simp only [State.showAllowances]; (repeat' split) <;> (first | (simp; done) | (simp_all; done)))
  | (unfold State.showAllowances; (try dsimp only); refine foldl_store _ (fun s a => ?_) _ _; (try dsimp only); (repeat' split) <;> (first | (simp; done) | (simp_all; done)))
@[simp] theorem State.admitRec_store (s : State) (r : Rec) : (State.admitRec s r).store = s.store := by simp [State.admitRec]
@[simp] theorem State.record_store (s : State) (typ : Nat) (body : List Byte) : (State.record s typ body).store = s.store := by simp [State.record]
@[simp] theorem State.setTdom_store (s : State) (d : Nat) (x : TimeDom) : (State.setTdom s d x).store = s.store := by simp [State.setTdom]
@[simp] theorem State.setLaunch_store (s : State) (k : Nat) (x : Launch) : (State.setLaunch s k x).store = s.store := by simp [State.setLaunch]
@[simp] theorem State.setDomVal_store (s : State) (d v : Nat) : (State.setDomVal s d v).store = s.store := by simp [State.setDomVal]
@[simp] theorem State.setRing_store (s : State) (n : Nat) (x : Ring) : (State.setRing s n x).store = s.store := by simp [State.setRing]
@[simp] theorem State.setTrack_store (s : State) (t : Nat) (x : Track) : (State.setTrack s t x).store = s.store := by simp [State.setTrack]
@[simp] theorem State.setInst_store (s : State) (n : Nat) (x : Inst) : (State.setInst s n x).store = s.store := by simp [State.setInst]
@[simp] theorem State.setDbe_store (s : State) (a : Nat) (b : Bool) : (State.setDbe s a b).store = s.store := by simp [State.setDbe]
@[simp] theorem State.setSbe_store (s : State) (a : Nat) (b : Bool) : (State.setSbe s a b).store = s.store := by simp [State.setSbe]
@[simp] theorem State.setChord_store (s : State) (d : Nat) (x : Chord) : (State.setChord s d x).store = s.store := by simp [State.setChord]
@[simp] theorem State.setSw_store (s : State) (f : Switch → Switch) : (State.setSw s f).store = s.store := by simp [State.setSw]
@[simp] theorem State.setQueue_store (s : State) (st c : Nat) (l : List QEntry) : (State.setQueue s st c l).store = s.store := by simp [State.setQueue]
@[simp] theorem State.setFrame_store (s : State) (f : Nat) (x : SwFrame) : (State.setFrame s f x).store = s.store := by simp [State.setFrame]
@[simp] theorem State.setUsed_store (s : State) (st c u : Nat) : (State.setUsed s st c u).store = s.store := by simp [State.setUsed]
@[simp] theorem State.setGate_store (s : State) (p : Nat) (g : GateCtl) : (State.setGate s p g).store = s.store := by simp [State.setGate]
@[simp] theorem State.setStream_store (s : State) (h : Nat) (x : Stream) : (State.setStream s h x).store = s.store := by simp [State.setStream]
@[simp] theorem State.setSgate_store (s : State) (g : Nat) (x : SGate) : (State.setSgate s g x).store = s.store := by simp [State.setSgate]
@[simp] theorem State.setMeter_store (s : State) (m : Nat) (x : Meter) : (State.setMeter s m x).store = s.store := by simp [State.setMeter]
@[simp] theorem State.setCb_store (s : State) (h : Nat) (x : Cb) : (State.setCb s h x).store = s.store := by simp [State.setCb]
@[simp] theorem State.setFdb_store (s : State) (e : Nat) (x : FdbEntry) : (State.setFdb s e x).store = s.store := by simp [State.setFdb]
@[simp] theorem State.setMdio_store (s : State) (m : Nat) (x : Mdio) : (State.setMdio s m x).store = s.store := by simp [State.setMdio]
@[simp] theorem State.setPps_store (s : State) (i : Nat) (x : Pps) : (State.setPps s i x).store = s.store := by simp [State.setPps]
@[simp] theorem State.setEcho_store (s : State) (n : Nat) (east : Bool) (x : Echo) : (State.setEcho s n east x).store = s.store := by simp [State.setEcho]
@[simp] theorem State.setSlotFetch_store (s : State) (n k : Nat) (x : Nat × List Nib) : (State.setSlotFetch s n k x).store = s.store := by simp [State.setSlotFetch]
@[simp] theorem State.setStaged_store (s : State) (n t : Nat) (l : List (Nat × List Byte)) : (State.setStaged s n t l).store = s.store := by simp [State.setStaged]
@[simp] theorem State.setLat_store (s : State) (f : Lattice → Lattice) : (State.setLat s f).store = s.store := by simp [State.setLat]
@[simp] theorem State.setPio_store (s : State) (b : Nat) (x : Pio) : (State.setPio s b x).store = s.store := by simp [State.setPio]
@[simp] theorem State.setSm_store (s : State) (m : Nat) (x : Sm) : (State.setSm s m x).store = s.store := by simp [State.setSm]
@[simp] theorem State.setPioFlags_store (s : State) (b v : Nat) : (State.setPioFlags s b v).store = s.store := by simp [State.setPioFlags]
@[simp] theorem State.setTrkS_store (s : State) (t j v : Nat) : (State.setTrkS s t j v).store = s.store := by simp [State.setTrkS]
@[simp] theorem State.setCan_store (s : State) (c : Nat) (x : Can) : (State.setCan s c x).store = s.store := by simp [State.setCan]
@[simp] theorem State.setBuf_store (s : State) (c b lsb w v : Nat) : (State.setBuf s c b lsb w v).store = s.store := by simp [State.setBuf]
@[simp] theorem State.setBufState_store (s : State) (c b v : Nat) : (State.setBufState s c b v).store = s.store := by simp [State.setBufState]
@[simp] theorem State.setCoreState_store (s : State) (c v : Nat) : (State.setCoreState s c v).store = s.store := by simp [State.setCoreState]
@[simp] theorem State.setPc_store (s : State) (c v : Nat) : (State.setPc s c v).store = s.store := by simp [State.setPc]
@[simp] theorem State.setSession_store (s : State) (c : Nat) (x : Session) : (State.setSession s c x).store = s.store := by simp [State.setSession]
@[simp] theorem State.setDmaCh_store (s : State) (k : Nat) (x : DmaCh) : (State.setDmaCh s k x).store = s.store := by simp [State.setDmaCh]
@[simp] theorem State.setPath_store (s : State) (p : Path) (x : PathSt) : (State.setPath s p x).store = s.store := by simp [State.setPath]
@[simp] theorem State.setRecord_store (s : State) (d : List Byte) (applied refused : Nat) : (State.setRecord s d applied refused).store = s.store := by simp [State.setRecord]
@[simp] theorem State.setNetSel_store (s : State) (n conn v : Nat) : (State.setNetSel s n conn v).store = s.store := by simp [State.setNetSel]
/-! ### opts -/

@[simp] theorem ite_opts (c : Prop) [Decidable c] (a b : State) : (if c then a else b).opts = if c then a.opts else b.opts := apply_ite State.opts c a b
@[simp] theorem foldl_opts {α : Type} (f : State → α → State) (h : ∀ s a, (f s a).opts = s.opts) (l : List α) (s : State) : (l.foldl f s).opts = s.opts := by
  induction l generalizing s with
  | nil => rfl
  | cons x l ih => simp [ih, h]


@[simp] theorem State.wr_opts (s : State) (i j v : Nat) : (State.wr s i j v).opts = s.opts := by simp [State.wr]
@[simp] theorem State.wrD_opts (s : State) (i j : Nat) (v : DWord) : (State.wrD s i j v).opts = s.opts := by simp [State.wrD]
@[simp] theorem State.setBits_opts (s : State) (i j m : Nat) : (State.setBits s i j m).opts = s.opts := by simp [State.setBits]
@[simp] theorem State.clrBits_opts (s : State) (i j m : Nat) : (State.clrBits s i j m).opts = s.opts := by simp [State.clrBits]
@[simp] theorem State.putBits_opts (s : State) (i j m : Nat) (on : Bool) : (State.putBits s i j m on).opts = s.opts := by simp [State.putBits]
@[simp] theorem State.setBit_opts (s : State) (i j b : Nat) : (State.setBit s i j b).opts = s.opts := by simp [State.setBit]
@[simp] theorem State.emit_opts (s : State) (o : Out) : (State.emit s o).opts = s.opts := by simp [State.emit]
@[simp] theorem State.tick_opts (s : State) : (State.tick s).opts = s.opts := by simp [State.tick]
@[simp] theorem State.setEngine_opts (s : State) (c : Nat) (e : Engine) : (State.setEngine s c e).opts = s.opts := by simp [State.setEngine]
@[simp] theorem State.setChan_opts (s : State) (c : Nat) (m : Mbox) : (State.setChan s c m).opts = s.opts := by simp [State.setChan]
@[simp] theorem State.setPort_opts (s : State) (p : Nat) (x : Port) : (State.setPort s p x).opts = s.opts := by simp [State.setPort]
@[simp] theorem State.msix_opts (s : State) (v : Nat) : (State.msix s v).opts = s.opts := by simp [State.msix]
@[simp] theorem State.evpSet_opts (s : State) (c b : Nat) : (State.evpSet s c b).opts = s.opts := by simp [State.evpSet]
@[simp] theorem State.notify_opts (s : State) (r : Nat) : (State.notify s r).opts = s.opts := by simp [State.notify]
@[simp] theorem State.route_opts (s : State) (r : Nat) (statusWritten : Bool) : (State.route s r statusWritten).opts = s.opts := by simp [State.route]
@[simp] theorem State.event_opts (s : State) (i j m : Nat) : (State.event s i j m).opts = s.opts := by simp [State.event]
@[simp] theorem State.addW_opts (s : State) (i j w k : Nat) : (State.addW s i j w k).opts = s.opts := by simp [State.addW]
@[simp] theorem State.cnt_opts (s : State) (i j : Nat) : (State.cnt s i j).opts = s.opts := by simp [State.cnt]
@[simp] theorem State.cntS_opts (s : State) (i j : Nat) : (State.cntS s i j).opts = s.opts := by simp [State.cntS]
@[simp] theorem State.addH_opts (s : State) (i j w k ei ej : Nat) : (State.addH s i j w k ei ej).opts = s.opts := by simp [State.addH]
@[simp] theorem State.cntH_opts (s : State) (i j ei ej : Nat) : (State.cntH s i j ei ej).opts = s.opts := by simp [State.cntH]
@[simp] theorem State.setByte_opts (s : State) (a : Nat) (b : Byte) : (State.setByte s a b).opts = s.opts := by simp [State.setByte]
@[simp] theorem State.setBytes_opts (s : State) (a : Nat) (x0 : List Byte) : (State.setBytes s a x0).opts = s.opts := by
  induction x0 generalizing s a <;> first | (simp_all [State.setBytes]; done) | (unfold State.setBytes; (repeat' split) <;> simp_all)
@[simp] theorem State.setW32_opts (s : State) (a v : Nat) : (State.setW32 s a v).opts = s.opts := by simp [State.setW32]
@[simp] theorem State.zeroRange_opts (s : State) (lo hi : Nat) : (State.zeroRange s lo hi).opts = s.opts := by simp [State.zeroRange]
@[simp] theorem State.enter_opts (s : State) (st : Nat) : (State.enter s st).opts = s.opts := by simp [State.enter]
@[simp] theorem State.errGeneric_opts (s : State) : (State.errGeneric s).opts = s.opts := by simp [State.errGeneric]
@[simp] theorem State.errBit_opts (s : State) (b : Nat) (on : Bool) : (State.errBit s b on).opts = s.opts := by simp [State.errBit]
@[simp] theorem State.holdLow_opts (s : State) : (State.holdLow s).opts = s.opts := by simp [State.holdLow]
@[simp] theorem State.hold_opts (s : State) (m : Nat) : (State.hold s m).opts = s.opts := by simp [State.hold]
@[simp] theorem State.unhold_opts (s : State) (m : Nat) : (State.unhold s m).opts = s.opts := by simp [State.unhold]
@[simp] theorem State.violate_opts (s : State) (id : Nat) : (State.violate s id).opts = s.opts := by simp [State.violate]
@[simp] theorem State.showAllowances_opts (s : State) : (State.showAllowances s).opts = s.opts := by
  first
  | (simp [State.showAllowances]; done)
  | (unfold State.showAllowances; (repeat' split) <;> (first | (simp; done) | (simp_all; done)))
  | (simp only [State.showAllowances]; (repeat' split) <;> (first | (simp; done) | (simp_all; done)))
  | (unfold State.showAllowances; (try dsimp only); refine foldl_opts _ (fun s a => ?_) _ _; (try dsimp only); (repeat' split) <;> (first | (simp; done) | (simp_all; done)))
@[simp] theorem State.admitRec_opts (s : State) (r : Rec) : (State.admitRec s r).opts = s.opts := by simp [State.admitRec]
@[simp] theorem State.record_opts (s : State) (typ : Nat) (body : List Byte) : (State.record s typ body).opts = s.opts := by simp [State.record]
@[simp] theorem State.setTdom_opts (s : State) (d : Nat) (x : TimeDom) : (State.setTdom s d x).opts = s.opts := by simp [State.setTdom]
@[simp] theorem State.setLaunch_opts (s : State) (k : Nat) (x : Launch) : (State.setLaunch s k x).opts = s.opts := by simp [State.setLaunch]
@[simp] theorem State.setDomVal_opts (s : State) (d v : Nat) : (State.setDomVal s d v).opts = s.opts := by simp [State.setDomVal]
@[simp] theorem State.setRing_opts (s : State) (n : Nat) (x : Ring) : (State.setRing s n x).opts = s.opts := by simp [State.setRing]
@[simp] theorem State.setTrack_opts (s : State) (t : Nat) (x : Track) : (State.setTrack s t x).opts = s.opts := by simp [State.setTrack]
@[simp] theorem State.setInst_opts (s : State) (n : Nat) (x : Inst) : (State.setInst s n x).opts = s.opts := by simp [State.setInst]
@[simp] theorem State.setDbe_opts (s : State) (a : Nat) (b : Bool) : (State.setDbe s a b).opts = s.opts := by simp [State.setDbe]
@[simp] theorem State.setSbe_opts (s : State) (a : Nat) (b : Bool) : (State.setSbe s a b).opts = s.opts := by simp [State.setSbe]
@[simp] theorem State.setChord_opts (s : State) (d : Nat) (x : Chord) : (State.setChord s d x).opts = s.opts := by simp [State.setChord]
@[simp] theorem State.setSw_opts (s : State) (f : Switch → Switch) : (State.setSw s f).opts = s.opts := by simp [State.setSw]
@[simp] theorem State.setQueue_opts (s : State) (st c : Nat) (l : List QEntry) : (State.setQueue s st c l).opts = s.opts := by simp [State.setQueue]
@[simp] theorem State.setFrame_opts (s : State) (f : Nat) (x : SwFrame) : (State.setFrame s f x).opts = s.opts := by simp [State.setFrame]
@[simp] theorem State.setUsed_opts (s : State) (st c u : Nat) : (State.setUsed s st c u).opts = s.opts := by simp [State.setUsed]
@[simp] theorem State.setGate_opts (s : State) (p : Nat) (g : GateCtl) : (State.setGate s p g).opts = s.opts := by simp [State.setGate]
@[simp] theorem State.setStream_opts (s : State) (h : Nat) (x : Stream) : (State.setStream s h x).opts = s.opts := by simp [State.setStream]
@[simp] theorem State.setSgate_opts (s : State) (g : Nat) (x : SGate) : (State.setSgate s g x).opts = s.opts := by simp [State.setSgate]
@[simp] theorem State.setMeter_opts (s : State) (m : Nat) (x : Meter) : (State.setMeter s m x).opts = s.opts := by simp [State.setMeter]
@[simp] theorem State.setCb_opts (s : State) (h : Nat) (x : Cb) : (State.setCb s h x).opts = s.opts := by simp [State.setCb]
@[simp] theorem State.setFdb_opts (s : State) (e : Nat) (x : FdbEntry) : (State.setFdb s e x).opts = s.opts := by simp [State.setFdb]
@[simp] theorem State.setMdio_opts (s : State) (m : Nat) (x : Mdio) : (State.setMdio s m x).opts = s.opts := by simp [State.setMdio]
@[simp] theorem State.setPps_opts (s : State) (i : Nat) (x : Pps) : (State.setPps s i x).opts = s.opts := by simp [State.setPps]
@[simp] theorem State.setEcho_opts (s : State) (n : Nat) (east : Bool) (x : Echo) : (State.setEcho s n east x).opts = s.opts := by simp [State.setEcho]
@[simp] theorem State.setSlotFetch_opts (s : State) (n k : Nat) (x : Nat × List Nib) : (State.setSlotFetch s n k x).opts = s.opts := by simp [State.setSlotFetch]
@[simp] theorem State.setStaged_opts (s : State) (n t : Nat) (l : List (Nat × List Byte)) : (State.setStaged s n t l).opts = s.opts := by simp [State.setStaged]
@[simp] theorem State.setLat_opts (s : State) (f : Lattice → Lattice) : (State.setLat s f).opts = s.opts := by simp [State.setLat]
@[simp] theorem State.setPio_opts (s : State) (b : Nat) (x : Pio) : (State.setPio s b x).opts = s.opts := by simp [State.setPio]
@[simp] theorem State.setSm_opts (s : State) (m : Nat) (x : Sm) : (State.setSm s m x).opts = s.opts := by simp [State.setSm]
@[simp] theorem State.setPioFlags_opts (s : State) (b v : Nat) : (State.setPioFlags s b v).opts = s.opts := by simp [State.setPioFlags]
@[simp] theorem State.setTrkS_opts (s : State) (t j v : Nat) : (State.setTrkS s t j v).opts = s.opts := by simp [State.setTrkS]
@[simp] theorem State.setCan_opts (s : State) (c : Nat) (x : Can) : (State.setCan s c x).opts = s.opts := by simp [State.setCan]
@[simp] theorem State.setBuf_opts (s : State) (c b lsb w v : Nat) : (State.setBuf s c b lsb w v).opts = s.opts := by simp [State.setBuf]
@[simp] theorem State.setBufState_opts (s : State) (c b v : Nat) : (State.setBufState s c b v).opts = s.opts := by simp [State.setBufState]
@[simp] theorem State.setCoreState_opts (s : State) (c v : Nat) : (State.setCoreState s c v).opts = s.opts := by simp [State.setCoreState]
@[simp] theorem State.setPc_opts (s : State) (c v : Nat) : (State.setPc s c v).opts = s.opts := by simp [State.setPc]
@[simp] theorem State.setSession_opts (s : State) (c : Nat) (x : Session) : (State.setSession s c x).opts = s.opts := by simp [State.setSession]
@[simp] theorem State.setDmaCh_opts (s : State) (k : Nat) (x : DmaCh) : (State.setDmaCh s k x).opts = s.opts := by simp [State.setDmaCh]
@[simp] theorem State.setPath_opts (s : State) (p : Path) (x : PathSt) : (State.setPath s p x).opts = s.opts := by simp [State.setPath]
@[simp] theorem State.setRecord_opts (s : State) (d : List Byte) (applied refused : Nat) : (State.setRecord s d applied refused).opts = s.opts := by simp [State.setRecord]
@[simp] theorem State.setNetSel_opts (s : State) (n conn v : Nat) : (State.setNetSel s n conn v).opts = s.opts := by simp [State.setNetSel]
/-! ### eng -/

@[simp] theorem ite_eng (c : Prop) [Decidable c] (a b : State) : (if c then a else b).eng = if c then a.eng else b.eng := apply_ite State.eng c a b
@[simp] theorem foldl_eng {α : Type} (f : State → α → State) (h : ∀ s a, (f s a).eng = s.eng) (l : List α) (s : State) : (l.foldl f s).eng = s.eng := by
  induction l generalizing s with
  | nil => rfl
  | cons x l ih => simp [ih, h]


@[simp] theorem State.wr_eng (s : State) (i j v : Nat) : (State.wr s i j v).eng = s.eng := by simp [State.wr]
@[simp] theorem State.wrD_eng (s : State) (i j : Nat) (v : DWord) : (State.wrD s i j v).eng = s.eng := by simp [State.wrD]
@[simp] theorem State.setBits_eng (s : State) (i j m : Nat) : (State.setBits s i j m).eng = s.eng := by simp [State.setBits]
@[simp] theorem State.clrBits_eng (s : State) (i j m : Nat) : (State.clrBits s i j m).eng = s.eng := by simp [State.clrBits]
@[simp] theorem State.putBits_eng (s : State) (i j m : Nat) (on : Bool) : (State.putBits s i j m on).eng = s.eng := by simp [State.putBits]
@[simp] theorem State.setBit_eng (s : State) (i j b : Nat) : (State.setBit s i j b).eng = s.eng := by simp [State.setBit]
@[simp] theorem State.emit_eng (s : State) (o : Out) : (State.emit s o).eng = s.eng := by simp [State.emit]
@[simp] theorem State.tick_eng (s : State) : (State.tick s).eng = s.eng := by simp [State.tick]
@[simp] theorem State.setChan_eng (s : State) (c : Nat) (m : Mbox) : (State.setChan s c m).eng = s.eng := by simp [State.setChan]
@[simp] theorem State.setPort_eng (s : State) (p : Nat) (x : Port) : (State.setPort s p x).eng = s.eng := by simp [State.setPort]
@[simp] theorem State.msix_eng (s : State) (v : Nat) : (State.msix s v).eng = s.eng := by simp [State.msix]
@[simp] theorem State.addW_eng (s : State) (i j w k : Nat) : (State.addW s i j w k).eng = s.eng := by simp [State.addW]
@[simp] theorem State.cnt_eng (s : State) (i j : Nat) : (State.cnt s i j).eng = s.eng := by simp [State.cnt]
@[simp] theorem State.cntS_eng (s : State) (i j : Nat) : (State.cntS s i j).eng = s.eng := by simp [State.cntS]
@[simp] theorem State.setByte_eng (s : State) (a : Nat) (b : Byte) : (State.setByte s a b).eng = s.eng := by simp [State.setByte]
@[simp] theorem State.setBytes_eng (s : State) (a : Nat) (x0 : List Byte) : (State.setBytes s a x0).eng = s.eng := by
  induction x0 generalizing s a <;> first | (simp_all [State.setBytes]; done) | (unfold State.setBytes; (repeat' split) <;> simp_all)
@[simp] theorem State.setW32_eng (s : State) (a v : Nat) : (State.setW32 s a v).eng = s.eng := by simp [State.setW32]
@[simp] theorem State.zeroRange_eng (s : State) (lo hi : Nat) : (State.zeroRange s lo hi).eng = s.eng := by simp [State.zeroRange]
@[simp] theorem State.errGeneric_eng (s : State) : (State.errGeneric s).eng = s.eng := by simp [State.errGeneric]
@[simp] theorem State.errBit_eng (s : State) (b : Nat) (on : Bool) : (State.errBit s b on).eng = s.eng := by simp [State.errBit]
@[simp] theorem State.unhold_eng (s : State) (m : Nat) : (State.unhold s m).eng = s.eng := by simp [State.unhold]
@[simp] theorem State.violate_eng (s : State) (id : Nat) : (State.violate s id).eng = s.eng := by simp [State.violate]
@[simp] theorem State.showAllowances_eng (s : State) : (State.showAllowances s).eng = s.eng := by
  first
  | (simp [State.showAllowances]; done)
  | (unfold State.showAllowances; (repeat' split) <;> (first | (simp; done) | (simp_all; done)))
  | (simp only [State.showAllowances]; (repeat' split) <;> (first | (simp; done) | (simp_all; done)))
  | (unfold State.showAllowances; (try dsimp only); refine foldl_eng _ (fun s a => ?_) _ _; (try dsimp only); (repeat' split) <;> (first | (simp; done) | (simp_all; done)))
@[simp] theorem State.setTdom_eng (s : State) (d : Nat) (x : TimeDom) : (State.setTdom s d x).eng = s.eng := by simp [State.setTdom]
@[simp] theorem State.setLaunch_eng (s : State) (k : Nat) (x : Launch) : (State.setLaunch s k x).eng = s.eng := by simp [State.setLaunch]
@[simp] theorem State.setDomVal_eng (s : State) (d v : Nat) : (State.setDomVal s d v).eng = s.eng := by simp [State.setDomVal]
@[simp] theorem State.setRing_eng (s : State) (n : Nat) (x : Ring) : (State.setRing s n x).eng = s.eng := by simp [State.setRing]
@[simp] theorem State.setTrack_eng (s : State) (t : Nat) (x : Track) : (State.setTrack s t x).eng = s.eng := by simp [State.setTrack]
@[simp] theorem State.setInst_eng (s : State) (n : Nat) (x : Inst) : (State.setInst s n x).eng = s.eng := by simp [State.setInst]
@[simp] theorem State.setDbe_eng (s : State) (a : Nat) (b : Bool) : (State.setDbe s a b).eng = s.eng := by simp [State.setDbe]
@[simp] theorem State.setSbe_eng (s : State) (a : Nat) (b : Bool) : (State.setSbe s a b).eng = s.eng := by simp [State.setSbe]
@[simp] theorem State.setChord_eng (s : State) (d : Nat) (x : Chord) : (State.setChord s d x).eng = s.eng := by simp [State.setChord]
@[simp] theorem State.setSw_eng (s : State) (f : Switch → Switch) : (State.setSw s f).eng = s.eng := by simp [State.setSw]
@[simp] theorem State.setQueue_eng (s : State) (st c : Nat) (l : List QEntry) : (State.setQueue s st c l).eng = s.eng := by simp [State.setQueue]
@[simp] theorem State.setFrame_eng (s : State) (f : Nat) (x : SwFrame) : (State.setFrame s f x).eng = s.eng := by simp [State.setFrame]
@[simp] theorem State.setUsed_eng (s : State) (st c u : Nat) : (State.setUsed s st c u).eng = s.eng := by simp [State.setUsed]
@[simp] theorem State.setGate_eng (s : State) (p : Nat) (g : GateCtl) : (State.setGate s p g).eng = s.eng := by simp [State.setGate]
@[simp] theorem State.setStream_eng (s : State) (h : Nat) (x : Stream) : (State.setStream s h x).eng = s.eng := by simp [State.setStream]
@[simp] theorem State.setSgate_eng (s : State) (g : Nat) (x : SGate) : (State.setSgate s g x).eng = s.eng := by simp [State.setSgate]
@[simp] theorem State.setMeter_eng (s : State) (m : Nat) (x : Meter) : (State.setMeter s m x).eng = s.eng := by simp [State.setMeter]
@[simp] theorem State.setCb_eng (s : State) (h : Nat) (x : Cb) : (State.setCb s h x).eng = s.eng := by simp [State.setCb]
@[simp] theorem State.setFdb_eng (s : State) (e : Nat) (x : FdbEntry) : (State.setFdb s e x).eng = s.eng := by simp [State.setFdb]
@[simp] theorem State.setMdio_eng (s : State) (m : Nat) (x : Mdio) : (State.setMdio s m x).eng = s.eng := by simp [State.setMdio]
@[simp] theorem State.setPps_eng (s : State) (i : Nat) (x : Pps) : (State.setPps s i x).eng = s.eng := by simp [State.setPps]
@[simp] theorem State.setEcho_eng (s : State) (n : Nat) (east : Bool) (x : Echo) : (State.setEcho s n east x).eng = s.eng := by simp [State.setEcho]
@[simp] theorem State.setSlotFetch_eng (s : State) (n k : Nat) (x : Nat × List Nib) : (State.setSlotFetch s n k x).eng = s.eng := by simp [State.setSlotFetch]
@[simp] theorem State.setStaged_eng (s : State) (n t : Nat) (l : List (Nat × List Byte)) : (State.setStaged s n t l).eng = s.eng := by simp [State.setStaged]
@[simp] theorem State.setLat_eng (s : State) (f : Lattice → Lattice) : (State.setLat s f).eng = s.eng := by simp [State.setLat]
@[simp] theorem State.setPio_eng (s : State) (b : Nat) (x : Pio) : (State.setPio s b x).eng = s.eng := by simp [State.setPio]
@[simp] theorem State.setSm_eng (s : State) (m : Nat) (x : Sm) : (State.setSm s m x).eng = s.eng := by simp [State.setSm]
@[simp] theorem State.setPioFlags_eng (s : State) (b v : Nat) : (State.setPioFlags s b v).eng = s.eng := by simp [State.setPioFlags]
@[simp] theorem State.setTrkS_eng (s : State) (t j v : Nat) : (State.setTrkS s t j v).eng = s.eng := by simp [State.setTrkS]
@[simp] theorem State.setCan_eng (s : State) (c : Nat) (x : Can) : (State.setCan s c x).eng = s.eng := by simp [State.setCan]
@[simp] theorem State.setBuf_eng (s : State) (c b lsb w v : Nat) : (State.setBuf s c b lsb w v).eng = s.eng := by simp [State.setBuf]
@[simp] theorem State.setBufState_eng (s : State) (c b v : Nat) : (State.setBufState s c b v).eng = s.eng := by simp [State.setBufState]
@[simp] theorem State.setCoreState_eng (s : State) (c v : Nat) : (State.setCoreState s c v).eng = s.eng := by simp [State.setCoreState]
@[simp] theorem State.setPc_eng (s : State) (c v : Nat) : (State.setPc s c v).eng = s.eng := by simp [State.setPc]
@[simp] theorem State.setSession_eng (s : State) (c : Nat) (x : Session) : (State.setSession s c x).eng = s.eng := by simp [State.setSession]
@[simp] theorem State.setDmaCh_eng (s : State) (k : Nat) (x : DmaCh) : (State.setDmaCh s k x).eng = s.eng := by simp [State.setDmaCh]
@[simp] theorem State.setPath_eng (s : State) (p : Path) (x : PathSt) : (State.setPath s p x).eng = s.eng := by simp [State.setPath]
@[simp] theorem State.setNetSel_eng (s : State) (n conn v : Nat) : (State.setNetSel s n conn v).eng = s.eng := by simp [State.setNetSel]
/-! ### memc -/

@[simp] theorem ite_memc (c : Prop) [Decidable c] (a b : State) : (if c then a else b).memc = if c then a.memc else b.memc := apply_ite State.memc c a b
@[simp] theorem foldl_memc {α : Type} (f : State → α → State) (h : ∀ s a, (f s a).memc = s.memc) (l : List α) (s : State) : (l.foldl f s).memc = s.memc := by
  induction l generalizing s with
  | nil => rfl
  | cons x l ih => simp [ih, h]


@[simp] theorem State.wr_memc (s : State) (i j v : Nat) : (State.wr s i j v).memc = s.memc := by simp [State.wr]
@[simp] theorem State.wrD_memc (s : State) (i j : Nat) (v : DWord) : (State.wrD s i j v).memc = s.memc := by simp [State.wrD]
@[simp] theorem State.setBits_memc (s : State) (i j m : Nat) : (State.setBits s i j m).memc = s.memc := by simp [State.setBits]
@[simp] theorem State.clrBits_memc (s : State) (i j m : Nat) : (State.clrBits s i j m).memc = s.memc := by simp [State.clrBits]
@[simp] theorem State.putBits_memc (s : State) (i j m : Nat) (on : Bool) : (State.putBits s i j m on).memc = s.memc := by simp [State.putBits]
@[simp] theorem State.setBit_memc (s : State) (i j b : Nat) : (State.setBit s i j b).memc = s.memc := by simp [State.setBit]
@[simp] theorem State.emit_memc (s : State) (o : Out) : (State.emit s o).memc = s.memc := by simp [State.emit]
@[simp] theorem State.tick_memc (s : State) : (State.tick s).memc = s.memc := by simp [State.tick]
@[simp] theorem State.setEngine_memc (s : State) (c : Nat) (e : Engine) : (State.setEngine s c e).memc = s.memc := by simp [State.setEngine]
@[simp] theorem State.setChan_memc (s : State) (c : Nat) (m : Mbox) : (State.setChan s c m).memc = s.memc := by simp [State.setChan]
@[simp] theorem State.setPort_memc (s : State) (p : Nat) (x : Port) : (State.setPort s p x).memc = s.memc := by simp [State.setPort]
@[simp] theorem State.msix_memc (s : State) (v : Nat) : (State.msix s v).memc = s.memc := by simp [State.msix]
@[simp] theorem State.evpSet_memc (s : State) (c b : Nat) : (State.evpSet s c b).memc = s.memc := by simp [State.evpSet]
@[simp] theorem State.notify_memc (s : State) (r : Nat) : (State.notify s r).memc = s.memc := by simp [State.notify]
@[simp] theorem State.route_memc (s : State) (r : Nat) (statusWritten : Bool) : (State.route s r statusWritten).memc = s.memc := by simp [State.route]
@[simp] theorem State.event_memc (s : State) (i j m : Nat) : (State.event s i j m).memc = s.memc := by simp [State.event]
@[simp] theorem State.addW_memc (s : State) (i j w k : Nat) : (State.addW s i j w k).memc = s.memc := by simp [State.addW]
@[simp] theorem State.cnt_memc (s : State) (i j : Nat) : (State.cnt s i j).memc = s.memc := by simp [State.cnt]
@[simp] theorem State.cntS_memc (s : State) (i j : Nat) : (State.cntS s i j).memc = s.memc := by simp [State.cntS]
@[simp] theorem State.addH_memc (s : State) (i j w k ei ej : Nat) : (State.addH s i j w k ei ej).memc = s.memc := by simp [State.addH]
@[simp] theorem State.cntH_memc (s : State) (i j ei ej : Nat) : (State.cntH s i j ei ej).memc = s.memc := by simp [State.cntH]
@[simp] theorem State.setByte_memc (s : State) (a : Nat) (b : Byte) : (State.setByte s a b).memc = s.memc := by simp [State.setByte]
@[simp] theorem State.setBytes_memc (s : State) (a : Nat) (x0 : List Byte) : (State.setBytes s a x0).memc = s.memc := by
  induction x0 generalizing s a <;> first | (simp_all [State.setBytes]; done) | (unfold State.setBytes; (repeat' split) <;> simp_all)
@[simp] theorem State.setW32_memc (s : State) (a v : Nat) : (State.setW32 s a v).memc = s.memc := by simp [State.setW32]
@[simp] theorem State.zeroRange_memc (s : State) (lo hi : Nat) : (State.zeroRange s lo hi).memc = s.memc := by simp [State.zeroRange]
@[simp] theorem State.enter_memc (s : State) (st : Nat) : (State.enter s st).memc = s.memc := by simp [State.enter]
@[simp] theorem State.errGeneric_memc (s : State) : (State.errGeneric s).memc = s.memc := by simp [State.errGeneric]
@[simp] theorem State.errBit_memc (s : State) (b : Nat) (on : Bool) : (State.errBit s b on).memc = s.memc := by simp [State.errBit]
@[simp] theorem State.holdLow_memc (s : State) : (State.holdLow s).memc = s.memc := by simp [State.holdLow]
@[simp] theorem State.hold_memc (s : State) (m : Nat) : (State.hold s m).memc = s.memc := by simp [State.hold]
@[simp] theorem State.unhold_memc (s : State) (m : Nat) : (State.unhold s m).memc = s.memc := by simp [State.unhold]
@[simp] theorem State.violate_memc (s : State) (id : Nat) : (State.violate s id).memc = s.memc := by simp [State.violate]
@[simp] theorem State.showAllowances_memc (s : State) : (State.showAllowances s).memc = s.memc := by
  first
  | (simp [State.showAllowances]; done)
  | (unfold State.showAllowances; (repeat' split) <;> (first | (simp; done) | (simp_all; done)))
  | (simp only [State.showAllowances]; (repeat' split) <;> (first | (simp; done) | (simp_all; done)))
  | (unfold State.showAllowances; (try dsimp only); refine foldl_memc _ (fun s a => ?_) _ _; (try dsimp only); (repeat' split) <;> (first | (simp; done) | (simp_all; done)))
@[simp] theorem State.admitRec_memc (s : State) (r : Rec) : (State.admitRec s r).memc = s.memc := by simp [State.admitRec]
@[simp] theorem State.record_memc (s : State) (typ : Nat) (body : List Byte) : (State.record s typ body).memc = s.memc := by simp [State.record]
@[simp] theorem State.setTdom_memc (s : State) (d : Nat) (x : TimeDom) : (State.setTdom s d x).memc = s.memc := by simp [State.setTdom]
@[simp] theorem State.setLaunch_memc (s : State) (k : Nat) (x : Launch) : (State.setLaunch s k x).memc = s.memc := by simp [State.setLaunch]
@[simp] theorem State.setDomVal_memc (s : State) (d v : Nat) : (State.setDomVal s d v).memc = s.memc := by simp [State.setDomVal]
@[simp] theorem State.setRing_memc (s : State) (n : Nat) (x : Ring) : (State.setRing s n x).memc = s.memc := by simp [State.setRing]
@[simp] theorem State.setTrack_memc (s : State) (t : Nat) (x : Track) : (State.setTrack s t x).memc = s.memc := by simp [State.setTrack]
@[simp] theorem State.setInst_memc (s : State) (n : Nat) (x : Inst) : (State.setInst s n x).memc = s.memc := by simp [State.setInst]
@[simp] theorem State.setChord_memc (s : State) (d : Nat) (x : Chord) : (State.setChord s d x).memc = s.memc := by simp [State.setChord]
@[simp] theorem State.setSw_memc (s : State) (f : Switch → Switch) : (State.setSw s f).memc = s.memc := by simp [State.setSw]
@[simp] theorem State.setQueue_memc (s : State) (st c : Nat) (l : List QEntry) : (State.setQueue s st c l).memc = s.memc := by simp [State.setQueue]
@[simp] theorem State.setFrame_memc (s : State) (f : Nat) (x : SwFrame) : (State.setFrame s f x).memc = s.memc := by simp [State.setFrame]
@[simp] theorem State.setUsed_memc (s : State) (st c u : Nat) : (State.setUsed s st c u).memc = s.memc := by simp [State.setUsed]
@[simp] theorem State.setGate_memc (s : State) (p : Nat) (g : GateCtl) : (State.setGate s p g).memc = s.memc := by simp [State.setGate]
@[simp] theorem State.setStream_memc (s : State) (h : Nat) (x : Stream) : (State.setStream s h x).memc = s.memc := by simp [State.setStream]
@[simp] theorem State.setSgate_memc (s : State) (g : Nat) (x : SGate) : (State.setSgate s g x).memc = s.memc := by simp [State.setSgate]
@[simp] theorem State.setMeter_memc (s : State) (m : Nat) (x : Meter) : (State.setMeter s m x).memc = s.memc := by simp [State.setMeter]
@[simp] theorem State.setCb_memc (s : State) (h : Nat) (x : Cb) : (State.setCb s h x).memc = s.memc := by simp [State.setCb]
@[simp] theorem State.setFdb_memc (s : State) (e : Nat) (x : FdbEntry) : (State.setFdb s e x).memc = s.memc := by simp [State.setFdb]
@[simp] theorem State.setMdio_memc (s : State) (m : Nat) (x : Mdio) : (State.setMdio s m x).memc = s.memc := by simp [State.setMdio]
@[simp] theorem State.setPps_memc (s : State) (i : Nat) (x : Pps) : (State.setPps s i x).memc = s.memc := by simp [State.setPps]
@[simp] theorem State.setEcho_memc (s : State) (n : Nat) (east : Bool) (x : Echo) : (State.setEcho s n east x).memc = s.memc := by simp [State.setEcho]
@[simp] theorem State.setSlotFetch_memc (s : State) (n k : Nat) (x : Nat × List Nib) : (State.setSlotFetch s n k x).memc = s.memc := by simp [State.setSlotFetch]
@[simp] theorem State.setStaged_memc (s : State) (n t : Nat) (l : List (Nat × List Byte)) : (State.setStaged s n t l).memc = s.memc := by simp [State.setStaged]
@[simp] theorem State.setLat_memc (s : State) (f : Lattice → Lattice) : (State.setLat s f).memc = s.memc := by simp [State.setLat]
@[simp] theorem State.setPio_memc (s : State) (b : Nat) (x : Pio) : (State.setPio s b x).memc = s.memc := by simp [State.setPio]
@[simp] theorem State.setSm_memc (s : State) (m : Nat) (x : Sm) : (State.setSm s m x).memc = s.memc := by simp [State.setSm]
@[simp] theorem State.setPioFlags_memc (s : State) (b v : Nat) : (State.setPioFlags s b v).memc = s.memc := by simp [State.setPioFlags]
@[simp] theorem State.setTrkS_memc (s : State) (t j v : Nat) : (State.setTrkS s t j v).memc = s.memc := by simp [State.setTrkS]
@[simp] theorem State.setCan_memc (s : State) (c : Nat) (x : Can) : (State.setCan s c x).memc = s.memc := by simp [State.setCan]
@[simp] theorem State.setBuf_memc (s : State) (c b lsb w v : Nat) : (State.setBuf s c b lsb w v).memc = s.memc := by simp [State.setBuf]
@[simp] theorem State.setBufState_memc (s : State) (c b v : Nat) : (State.setBufState s c b v).memc = s.memc := by simp [State.setBufState]
@[simp] theorem State.setCoreState_memc (s : State) (c v : Nat) : (State.setCoreState s c v).memc = s.memc := by simp [State.setCoreState]
@[simp] theorem State.setPc_memc (s : State) (c v : Nat) : (State.setPc s c v).memc = s.memc := by simp [State.setPc]
@[simp] theorem State.setSession_memc (s : State) (c : Nat) (x : Session) : (State.setSession s c x).memc = s.memc := by simp [State.setSession]
@[simp] theorem State.setDmaCh_memc (s : State) (k : Nat) (x : DmaCh) : (State.setDmaCh s k x).memc = s.memc := by simp [State.setDmaCh]
@[simp] theorem State.setPath_memc (s : State) (p : Path) (x : PathSt) : (State.setPath s p x).memc = s.memc := by simp [State.setPath]
@[simp] theorem State.setRecord_memc (s : State) (d : List Byte) (applied refused : Nat) : (State.setRecord s d applied refused).memc = s.memc := by simp [State.setRecord]
@[simp] theorem State.setNetSel_memc (s : State) (n conn v : Nat) : (State.setNetSel s n conn v).memc = s.memc := by simp [State.setNetSel]
/-! ### mbox -/

@[simp] theorem ite_mbox (c : Prop) [Decidable c] (a b : State) : (if c then a else b).mbox = if c then a.mbox else b.mbox := apply_ite State.mbox c a b
@[simp] theorem foldl_mbox {α : Type} (f : State → α → State) (h : ∀ s a, (f s a).mbox = s.mbox) (l : List α) (s : State) : (l.foldl f s).mbox = s.mbox := by
  induction l generalizing s with
  | nil => rfl
  | cons x l ih => simp [ih, h]


@[simp] theorem State.wr_mbox (s : State) (i j v : Nat) : (State.wr s i j v).mbox = s.mbox := by simp [State.wr]
@[simp] theorem State.wrD_mbox (s : State) (i j : Nat) (v : DWord) : (State.wrD s i j v).mbox = s.mbox := by simp [State.wrD]
@[simp] theorem State.setBits_mbox (s : State) (i j m : Nat) : (State.setBits s i j m).mbox = s.mbox := by simp [State.setBits]
@[simp] theorem State.clrBits_mbox (s : State) (i j m : Nat) : (State.clrBits s i j m).mbox = s.mbox := by simp [State.clrBits]
@[simp] theorem State.putBits_mbox (s : State) (i j m : Nat) (on : Bool) : (State.putBits s i j m on).mbox = s.mbox := by simp [State.putBits]
@[simp] theorem State.setBit_mbox (s : State) (i j b : Nat) : (State.setBit s i j b).mbox = s.mbox := by simp [State.setBit]
@[simp] theorem State.emit_mbox (s : State) (o : Out) : (State.emit s o).mbox = s.mbox := by simp [State.emit]
@[simp] theorem State.tick_mbox (s : State) : (State.tick s).mbox = s.mbox := by simp [State.tick]
@[simp] theorem State.setEngine_mbox (s : State) (c : Nat) (e : Engine) : (State.setEngine s c e).mbox = s.mbox := by simp [State.setEngine]
@[simp] theorem State.setPort_mbox (s : State) (p : Nat) (x : Port) : (State.setPort s p x).mbox = s.mbox := by simp [State.setPort]
@[simp] theorem State.msix_mbox (s : State) (v : Nat) : (State.msix s v).mbox = s.mbox := by simp [State.msix]
@[simp] theorem State.evpSet_mbox (s : State) (c b : Nat) : (State.evpSet s c b).mbox = s.mbox := by simp [State.evpSet]
@[simp] theorem State.notify_mbox (s : State) (r : Nat) : (State.notify s r).mbox = s.mbox := by simp [State.notify]
@[simp] theorem State.route_mbox (s : State) (r : Nat) (statusWritten : Bool) : (State.route s r statusWritten).mbox = s.mbox := by simp [State.route]
@[simp] theorem State.event_mbox (s : State) (i j m : Nat) : (State.event s i j m).mbox = s.mbox := by simp [State.event]
@[simp] theorem State.addW_mbox (s : State) (i j w k : Nat) : (State.addW s i j w k).mbox = s.mbox := by simp [State.addW]
@[simp] theorem State.cnt_mbox (s : State) (i j : Nat) : (State.cnt s i j).mbox = s.mbox := by simp [State.cnt]
@[simp] theorem State.cntS_mbox (s : State) (i j : Nat) : (State.cntS s i j).mbox = s.mbox := by simp [State.cntS]
@[simp] theorem State.addH_mbox (s : State) (i j w k ei ej : Nat) : (State.addH s i j w k ei ej).mbox = s.mbox := by simp [State.addH]
@[simp] theorem State.cntH_mbox (s : State) (i j ei ej : Nat) : (State.cntH s i j ei ej).mbox = s.mbox := by simp [State.cntH]
@[simp] theorem State.setByte_mbox (s : State) (a : Nat) (b : Byte) : (State.setByte s a b).mbox = s.mbox := by simp [State.setByte]
@[simp] theorem State.setBytes_mbox (s : State) (a : Nat) (x0 : List Byte) : (State.setBytes s a x0).mbox = s.mbox := by
  induction x0 generalizing s a <;> first | (simp_all [State.setBytes]; done) | (unfold State.setBytes; (repeat' split) <;> simp_all)
@[simp] theorem State.setW32_mbox (s : State) (a v : Nat) : (State.setW32 s a v).mbox = s.mbox := by simp [State.setW32]
@[simp] theorem State.zeroRange_mbox (s : State) (lo hi : Nat) : (State.zeroRange s lo hi).mbox = s.mbox := by simp [State.zeroRange]
@[simp] theorem State.enter_mbox (s : State) (st : Nat) : (State.enter s st).mbox = s.mbox := by simp [State.enter]
@[simp] theorem State.errGeneric_mbox (s : State) : (State.errGeneric s).mbox = s.mbox := by simp [State.errGeneric]
@[simp] theorem State.errBit_mbox (s : State) (b : Nat) (on : Bool) : (State.errBit s b on).mbox = s.mbox := by simp [State.errBit]
@[simp] theorem State.holdLow_mbox (s : State) : (State.holdLow s).mbox = s.mbox := by simp [State.holdLow]
@[simp] theorem State.hold_mbox (s : State) (m : Nat) : (State.hold s m).mbox = s.mbox := by simp [State.hold]
@[simp] theorem State.unhold_mbox (s : State) (m : Nat) : (State.unhold s m).mbox = s.mbox := by simp [State.unhold]
@[simp] theorem State.violate_mbox (s : State) (id : Nat) : (State.violate s id).mbox = s.mbox := by simp [State.violate]
@[simp] theorem State.showAllowances_mbox (s : State) : (State.showAllowances s).mbox = s.mbox := by
  first
  | (simp [State.showAllowances]; done)
  | (unfold State.showAllowances; (repeat' split) <;> (first | (simp; done) | (simp_all; done)))
  | (simp only [State.showAllowances]; (repeat' split) <;> (first | (simp; done) | (simp_all; done)))
  | (unfold State.showAllowances; (try dsimp only); refine foldl_mbox _ (fun s a => ?_) _ _; (try dsimp only); (repeat' split) <;> (first | (simp; done) | (simp_all; done)))
@[simp] theorem State.admitRec_mbox (s : State) (r : Rec) : (State.admitRec s r).mbox = s.mbox := by simp [State.admitRec]
@[simp] theorem State.record_mbox (s : State) (typ : Nat) (body : List Byte) : (State.record s typ body).mbox = s.mbox := by simp [State.record]
@[simp] theorem State.setTdom_mbox (s : State) (d : Nat) (x : TimeDom) : (State.setTdom s d x).mbox = s.mbox := by simp [State.setTdom]
@[simp] theorem State.setLaunch_mbox (s : State) (k : Nat) (x : Launch) : (State.setLaunch s k x).mbox = s.mbox := by simp [State.setLaunch]
@[simp] theorem State.setDomVal_mbox (s : State) (d v : Nat) : (State.setDomVal s d v).mbox = s.mbox := by simp [State.setDomVal]
@[simp] theorem State.setRing_mbox (s : State) (n : Nat) (x : Ring) : (State.setRing s n x).mbox = s.mbox := by simp [State.setRing]
@[simp] theorem State.setTrack_mbox (s : State) (t : Nat) (x : Track) : (State.setTrack s t x).mbox = s.mbox := by simp [State.setTrack]
@[simp] theorem State.setInst_mbox (s : State) (n : Nat) (x : Inst) : (State.setInst s n x).mbox = s.mbox := by simp [State.setInst]
@[simp] theorem State.setDbe_mbox (s : State) (a : Nat) (b : Bool) : (State.setDbe s a b).mbox = s.mbox := by simp [State.setDbe]
@[simp] theorem State.setSbe_mbox (s : State) (a : Nat) (b : Bool) : (State.setSbe s a b).mbox = s.mbox := by simp [State.setSbe]
@[simp] theorem State.setChord_mbox (s : State) (d : Nat) (x : Chord) : (State.setChord s d x).mbox = s.mbox := by simp [State.setChord]
@[simp] theorem State.setSw_mbox (s : State) (f : Switch → Switch) : (State.setSw s f).mbox = s.mbox := by simp [State.setSw]
@[simp] theorem State.setQueue_mbox (s : State) (st c : Nat) (l : List QEntry) : (State.setQueue s st c l).mbox = s.mbox := by simp [State.setQueue]
@[simp] theorem State.setFrame_mbox (s : State) (f : Nat) (x : SwFrame) : (State.setFrame s f x).mbox = s.mbox := by simp [State.setFrame]
@[simp] theorem State.setUsed_mbox (s : State) (st c u : Nat) : (State.setUsed s st c u).mbox = s.mbox := by simp [State.setUsed]
@[simp] theorem State.setGate_mbox (s : State) (p : Nat) (g : GateCtl) : (State.setGate s p g).mbox = s.mbox := by simp [State.setGate]
@[simp] theorem State.setStream_mbox (s : State) (h : Nat) (x : Stream) : (State.setStream s h x).mbox = s.mbox := by simp [State.setStream]
@[simp] theorem State.setSgate_mbox (s : State) (g : Nat) (x : SGate) : (State.setSgate s g x).mbox = s.mbox := by simp [State.setSgate]
@[simp] theorem State.setMeter_mbox (s : State) (m : Nat) (x : Meter) : (State.setMeter s m x).mbox = s.mbox := by simp [State.setMeter]
@[simp] theorem State.setCb_mbox (s : State) (h : Nat) (x : Cb) : (State.setCb s h x).mbox = s.mbox := by simp [State.setCb]
@[simp] theorem State.setFdb_mbox (s : State) (e : Nat) (x : FdbEntry) : (State.setFdb s e x).mbox = s.mbox := by simp [State.setFdb]
@[simp] theorem State.setMdio_mbox (s : State) (m : Nat) (x : Mdio) : (State.setMdio s m x).mbox = s.mbox := by simp [State.setMdio]
@[simp] theorem State.setPps_mbox (s : State) (i : Nat) (x : Pps) : (State.setPps s i x).mbox = s.mbox := by simp [State.setPps]
@[simp] theorem State.setEcho_mbox (s : State) (n : Nat) (east : Bool) (x : Echo) : (State.setEcho s n east x).mbox = s.mbox := by simp [State.setEcho]
@[simp] theorem State.setSlotFetch_mbox (s : State) (n k : Nat) (x : Nat × List Nib) : (State.setSlotFetch s n k x).mbox = s.mbox := by simp [State.setSlotFetch]
@[simp] theorem State.setStaged_mbox (s : State) (n t : Nat) (l : List (Nat × List Byte)) : (State.setStaged s n t l).mbox = s.mbox := by simp [State.setStaged]
@[simp] theorem State.setLat_mbox (s : State) (f : Lattice → Lattice) : (State.setLat s f).mbox = s.mbox := by simp [State.setLat]
@[simp] theorem State.setPio_mbox (s : State) (b : Nat) (x : Pio) : (State.setPio s b x).mbox = s.mbox := by simp [State.setPio]
@[simp] theorem State.setSm_mbox (s : State) (m : Nat) (x : Sm) : (State.setSm s m x).mbox = s.mbox := by simp [State.setSm]
@[simp] theorem State.setPioFlags_mbox (s : State) (b v : Nat) : (State.setPioFlags s b v).mbox = s.mbox := by simp [State.setPioFlags]
@[simp] theorem State.setTrkS_mbox (s : State) (t j v : Nat) : (State.setTrkS s t j v).mbox = s.mbox := by simp [State.setTrkS]
@[simp] theorem State.setCan_mbox (s : State) (c : Nat) (x : Can) : (State.setCan s c x).mbox = s.mbox := by simp [State.setCan]
@[simp] theorem State.setBuf_mbox (s : State) (c b lsb w v : Nat) : (State.setBuf s c b lsb w v).mbox = s.mbox := by simp [State.setBuf]
@[simp] theorem State.setBufState_mbox (s : State) (c b v : Nat) : (State.setBufState s c b v).mbox = s.mbox := by simp [State.setBufState]
@[simp] theorem State.setCoreState_mbox (s : State) (c v : Nat) : (State.setCoreState s c v).mbox = s.mbox := by simp [State.setCoreState]
@[simp] theorem State.setPc_mbox (s : State) (c v : Nat) : (State.setPc s c v).mbox = s.mbox := by simp [State.setPc]
@[simp] theorem State.setSession_mbox (s : State) (c : Nat) (x : Session) : (State.setSession s c x).mbox = s.mbox := by simp [State.setSession]
@[simp] theorem State.setDmaCh_mbox (s : State) (k : Nat) (x : DmaCh) : (State.setDmaCh s k x).mbox = s.mbox := by simp [State.setDmaCh]
@[simp] theorem State.setPath_mbox (s : State) (p : Path) (x : PathSt) : (State.setPath s p x).mbox = s.mbox := by simp [State.setPath]
@[simp] theorem State.setRecord_mbox (s : State) (d : List Byte) (applied refused : Nat) : (State.setRecord s d applied refused).mbox = s.mbox := by simp [State.setRecord]
@[simp] theorem State.setNetSel_mbox (s : State) (n conn v : Nat) : (State.setNetSel s n conn v).mbox = s.mbox := by simp [State.setNetSel]
/-! ### log -/

@[simp] theorem ite_log (c : Prop) [Decidable c] (a b : State) : (if c then a else b).log = if c then a.log else b.log := apply_ite State.log c a b
@[simp] theorem foldl_log {α : Type} (f : State → α → State) (h : ∀ s a, (f s a).log = s.log) (l : List α) (s : State) : (l.foldl f s).log = s.log := by
  induction l generalizing s with
  | nil => rfl
  | cons x l ih => simp [ih, h]


@[simp] theorem State.wr_log (s : State) (i j v : Nat) : (State.wr s i j v).log = s.log := by simp [State.wr]
@[simp] theorem State.wrD_log (s : State) (i j : Nat) (v : DWord) : (State.wrD s i j v).log = s.log := by simp [State.wrD]
@[simp] theorem State.setBits_log (s : State) (i j m : Nat) : (State.setBits s i j m).log = s.log := by simp [State.setBits]
@[simp] theorem State.clrBits_log (s : State) (i j m : Nat) : (State.clrBits s i j m).log = s.log := by simp [State.clrBits]
@[simp] theorem State.putBits_log (s : State) (i j m : Nat) (on : Bool) : (State.putBits s i j m on).log = s.log := by simp [State.putBits]
@[simp] theorem State.setBit_log (s : State) (i j b : Nat) : (State.setBit s i j b).log = s.log := by simp [State.setBit]
@[simp] theorem State.emit_log (s : State) (o : Out) : (State.emit s o).log = s.log := by simp [State.emit]
@[simp] theorem State.tick_log (s : State) : (State.tick s).log = s.log := by simp [State.tick]
@[simp] theorem State.setEngine_log (s : State) (c : Nat) (e : Engine) : (State.setEngine s c e).log = s.log := by simp [State.setEngine]
@[simp] theorem State.setChan_log (s : State) (c : Nat) (m : Mbox) : (State.setChan s c m).log = s.log := by simp [State.setChan]
@[simp] theorem State.setPort_log (s : State) (p : Nat) (x : Port) : (State.setPort s p x).log = s.log := by simp [State.setPort]
@[simp] theorem State.msix_log (s : State) (v : Nat) : (State.msix s v).log = s.log := by simp [State.msix]
@[simp] theorem State.evpSet_log (s : State) (c b : Nat) : (State.evpSet s c b).log = s.log := by simp [State.evpSet]
@[simp] theorem State.notify_log (s : State) (r : Nat) : (State.notify s r).log = s.log := by simp [State.notify]
@[simp] theorem State.route_log (s : State) (r : Nat) (statusWritten : Bool) : (State.route s r statusWritten).log = s.log := by simp [State.route]
@[simp] theorem State.event_log (s : State) (i j m : Nat) : (State.event s i j m).log = s.log := by simp [State.event]
@[simp] theorem State.addW_log (s : State) (i j w k : Nat) : (State.addW s i j w k).log = s.log := by simp [State.addW]
@[simp] theorem State.cnt_log (s : State) (i j : Nat) : (State.cnt s i j).log = s.log := by simp [State.cnt]
@[simp] theorem State.cntS_log (s : State) (i j : Nat) : (State.cntS s i j).log = s.log := by simp [State.cntS]
@[simp] theorem State.addH_log (s : State) (i j w k ei ej : Nat) : (State.addH s i j w k ei ej).log = s.log := by simp [State.addH]
@[simp] theorem State.cntH_log (s : State) (i j ei ej : Nat) : (State.cntH s i j ei ej).log = s.log := by simp [State.cntH]
@[simp] theorem State.setByte_log (s : State) (a : Nat) (b : Byte) : (State.setByte s a b).log = s.log := by simp [State.setByte]
@[simp] theorem State.setBytes_log (s : State) (a : Nat) (x0 : List Byte) : (State.setBytes s a x0).log = s.log := by
  induction x0 generalizing s a <;> first | (simp_all [State.setBytes]; done) | (unfold State.setBytes; (repeat' split) <;> simp_all)
@[simp] theorem State.setW32_log (s : State) (a v : Nat) : (State.setW32 s a v).log = s.log := by simp [State.setW32]
@[simp] theorem State.zeroRange_log (s : State) (lo hi : Nat) : (State.zeroRange s lo hi).log = s.log := by simp [State.zeroRange]
@[simp] theorem State.enter_log (s : State) (st : Nat) : (State.enter s st).log = s.log := by simp [State.enter]
@[simp] theorem State.errGeneric_log (s : State) : (State.errGeneric s).log = s.log := by simp [State.errGeneric]
@[simp] theorem State.errBit_log (s : State) (b : Nat) (on : Bool) : (State.errBit s b on).log = s.log := by simp [State.errBit]
@[simp] theorem State.holdLow_log (s : State) : (State.holdLow s).log = s.log := by simp [State.holdLow]
@[simp] theorem State.hold_log (s : State) (m : Nat) : (State.hold s m).log = s.log := by simp [State.hold]
@[simp] theorem State.unhold_log (s : State) (m : Nat) : (State.unhold s m).log = s.log := by simp [State.unhold]
@[simp] theorem State.violate_log (s : State) (id : Nat) : (State.violate s id).log = s.log := by simp [State.violate]
@[simp] theorem State.showAllowances_log (s : State) : (State.showAllowances s).log = s.log := by
  first
  | (simp [State.showAllowances]; done)
  | (unfold State.showAllowances; (repeat' split) <;> (first | (simp; done) | (simp_all; done)))
  | (simp only [State.showAllowances]; (repeat' split) <;> (first | (simp; done) | (simp_all; done)))
  | (unfold State.showAllowances; (try dsimp only); refine foldl_log _ (fun s a => ?_) _ _; (try dsimp only); (repeat' split) <;> (first | (simp; done) | (simp_all; done)))
@[simp] theorem State.setTdom_log (s : State) (d : Nat) (x : TimeDom) : (State.setTdom s d x).log = s.log := by simp [State.setTdom]
@[simp] theorem State.setLaunch_log (s : State) (k : Nat) (x : Launch) : (State.setLaunch s k x).log = s.log := by simp [State.setLaunch]
@[simp] theorem State.setDomVal_log (s : State) (d v : Nat) : (State.setDomVal s d v).log = s.log := by simp [State.setDomVal]
@[simp] theorem State.setRing_log (s : State) (n : Nat) (x : Ring) : (State.setRing s n x).log = s.log := by simp [State.setRing]
@[simp] theorem State.setTrack_log (s : State) (t : Nat) (x : Track) : (State.setTrack s t x).log = s.log := by simp [State.setTrack]
@[simp] theorem State.setInst_log (s : State) (n : Nat) (x : Inst) : (State.setInst s n x).log = s.log := by simp [State.setInst]
@[simp] theorem State.setDbe_log (s : State) (a : Nat) (b : Bool) : (State.setDbe s a b).log = s.log := by simp [State.setDbe]
@[simp] theorem State.setSbe_log (s : State) (a : Nat) (b : Bool) : (State.setSbe s a b).log = s.log := by simp [State.setSbe]
@[simp] theorem State.setChord_log (s : State) (d : Nat) (x : Chord) : (State.setChord s d x).log = s.log := by simp [State.setChord]
@[simp] theorem State.setSw_log (s : State) (f : Switch → Switch) : (State.setSw s f).log = s.log := by simp [State.setSw]
@[simp] theorem State.setQueue_log (s : State) (st c : Nat) (l : List QEntry) : (State.setQueue s st c l).log = s.log := by simp [State.setQueue]
@[simp] theorem State.setFrame_log (s : State) (f : Nat) (x : SwFrame) : (State.setFrame s f x).log = s.log := by simp [State.setFrame]
@[simp] theorem State.setUsed_log (s : State) (st c u : Nat) : (State.setUsed s st c u).log = s.log := by simp [State.setUsed]
@[simp] theorem State.setGate_log (s : State) (p : Nat) (g : GateCtl) : (State.setGate s p g).log = s.log := by simp [State.setGate]
@[simp] theorem State.setStream_log (s : State) (h : Nat) (x : Stream) : (State.setStream s h x).log = s.log := by simp [State.setStream]
@[simp] theorem State.setSgate_log (s : State) (g : Nat) (x : SGate) : (State.setSgate s g x).log = s.log := by simp [State.setSgate]
@[simp] theorem State.setMeter_log (s : State) (m : Nat) (x : Meter) : (State.setMeter s m x).log = s.log := by simp [State.setMeter]
@[simp] theorem State.setCb_log (s : State) (h : Nat) (x : Cb) : (State.setCb s h x).log = s.log := by simp [State.setCb]
@[simp] theorem State.setFdb_log (s : State) (e : Nat) (x : FdbEntry) : (State.setFdb s e x).log = s.log := by simp [State.setFdb]
@[simp] theorem State.setMdio_log (s : State) (m : Nat) (x : Mdio) : (State.setMdio s m x).log = s.log := by simp [State.setMdio]
@[simp] theorem State.setPps_log (s : State) (i : Nat) (x : Pps) : (State.setPps s i x).log = s.log := by simp [State.setPps]
@[simp] theorem State.setEcho_log (s : State) (n : Nat) (east : Bool) (x : Echo) : (State.setEcho s n east x).log = s.log := by simp [State.setEcho]
@[simp] theorem State.setSlotFetch_log (s : State) (n k : Nat) (x : Nat × List Nib) : (State.setSlotFetch s n k x).log = s.log := by simp [State.setSlotFetch]
@[simp] theorem State.setStaged_log (s : State) (n t : Nat) (l : List (Nat × List Byte)) : (State.setStaged s n t l).log = s.log := by simp [State.setStaged]
@[simp] theorem State.setLat_log (s : State) (f : Lattice → Lattice) : (State.setLat s f).log = s.log := by simp [State.setLat]
@[simp] theorem State.setPio_log (s : State) (b : Nat) (x : Pio) : (State.setPio s b x).log = s.log := by simp [State.setPio]
@[simp] theorem State.setSm_log (s : State) (m : Nat) (x : Sm) : (State.setSm s m x).log = s.log := by simp [State.setSm]
@[simp] theorem State.setPioFlags_log (s : State) (b v : Nat) : (State.setPioFlags s b v).log = s.log := by simp [State.setPioFlags]
@[simp] theorem State.setTrkS_log (s : State) (t j v : Nat) : (State.setTrkS s t j v).log = s.log := by simp [State.setTrkS]
@[simp] theorem State.setCan_log (s : State) (c : Nat) (x : Can) : (State.setCan s c x).log = s.log := by simp [State.setCan]
@[simp] theorem State.setBuf_log (s : State) (c b lsb w v : Nat) : (State.setBuf s c b lsb w v).log = s.log := by simp [State.setBuf]
@[simp] theorem State.setBufState_log (s : State) (c b v : Nat) : (State.setBufState s c b v).log = s.log := by simp [State.setBufState]
@[simp] theorem State.setCoreState_log (s : State) (c v : Nat) : (State.setCoreState s c v).log = s.log := by simp [State.setCoreState]
@[simp] theorem State.setPc_log (s : State) (c v : Nat) : (State.setPc s c v).log = s.log := by simp [State.setPc]
@[simp] theorem State.setSession_log (s : State) (c : Nat) (x : Session) : (State.setSession s c x).log = s.log := by simp [State.setSession]
@[simp] theorem State.setDmaCh_log (s : State) (k : Nat) (x : DmaCh) : (State.setDmaCh s k x).log = s.log := by simp [State.setDmaCh]
@[simp] theorem State.setPath_log (s : State) (p : Path) (x : PathSt) : (State.setPath s p x).log = s.log := by simp [State.setPath]
@[simp] theorem State.setNetSel_log (s : State) (n conn v : Nat) : (State.setNetSel s n conn v).log = s.log := by simp [State.setNetSel]
/-! ### sup -/

@[simp] theorem ite_sup (c : Prop) [Decidable c] (a b : State) : (if c then a else b).sup = if c then a.sup else b.sup := apply_ite State.sup c a b
@[simp] theorem foldl_sup {α : Type} (f : State → α → State) (h : ∀ s a, (f s a).sup = s.sup) (l : List α) (s : State) : (l.foldl f s).sup = s.sup := by
  induction l generalizing s with
  | nil => rfl
  | cons x l ih => simp [ih, h]


@[simp] theorem State.wr_sup (s : State) (i j v : Nat) : (State.wr s i j v).sup = s.sup := by simp [State.wr]
@[simp] theorem State.wrD_sup (s : State) (i j : Nat) (v : DWord) : (State.wrD s i j v).sup = s.sup := by simp [State.wrD]
@[simp] theorem State.setBits_sup (s : State) (i j m : Nat) : (State.setBits s i j m).sup = s.sup := by simp [State.setBits]
@[simp] theorem State.clrBits_sup (s : State) (i j m : Nat) : (State.clrBits s i j m).sup = s.sup := by simp [State.clrBits]
@[simp] theorem State.putBits_sup (s : State) (i j m : Nat) (on : Bool) : (State.putBits s i j m on).sup = s.sup := by simp [State.putBits]
@[simp] theorem State.setBit_sup (s : State) (i j b : Nat) : (State.setBit s i j b).sup = s.sup := by simp [State.setBit]
@[simp] theorem State.emit_sup (s : State) (o : Out) : (State.emit s o).sup = s.sup := by simp [State.emit]
@[simp] theorem State.tick_sup (s : State) : (State.tick s).sup = s.sup := by simp [State.tick]
@[simp] theorem State.setEngine_sup (s : State) (c : Nat) (e : Engine) : (State.setEngine s c e).sup = s.sup := by simp [State.setEngine]
@[simp] theorem State.setChan_sup (s : State) (c : Nat) (m : Mbox) : (State.setChan s c m).sup = s.sup := by simp [State.setChan]
@[simp] theorem State.setPort_sup (s : State) (p : Nat) (x : Port) : (State.setPort s p x).sup = s.sup := by simp [State.setPort]
@[simp] theorem State.msix_sup (s : State) (v : Nat) : (State.msix s v).sup = s.sup := by simp [State.msix]
@[simp] theorem State.evpSet_sup (s : State) (c b : Nat) : (State.evpSet s c b).sup = s.sup := by simp [State.evpSet]
@[simp] theorem State.notify_sup (s : State) (r : Nat) : (State.notify s r).sup = s.sup := by simp [State.notify]
@[simp] theorem State.route_sup (s : State) (r : Nat) (statusWritten : Bool) : (State.route s r statusWritten).sup = s.sup := by simp [State.route]
@[simp] theorem State.event_sup (s : State) (i j m : Nat) : (State.event s i j m).sup = s.sup := by simp [State.event]
@[simp] theorem State.addW_sup (s : State) (i j w k : Nat) : (State.addW s i j w k).sup = s.sup := by simp [State.addW]
@[simp] theorem State.cnt_sup (s : State) (i j : Nat) : (State.cnt s i j).sup = s.sup := by simp [State.cnt]
@[simp] theorem State.cntS_sup (s : State) (i j : Nat) : (State.cntS s i j).sup = s.sup := by simp [State.cntS]
@[simp] theorem State.addH_sup (s : State) (i j w k ei ej : Nat) : (State.addH s i j w k ei ej).sup = s.sup := by simp [State.addH]
@[simp] theorem State.cntH_sup (s : State) (i j ei ej : Nat) : (State.cntH s i j ei ej).sup = s.sup := by simp [State.cntH]
@[simp] theorem State.setByte_sup (s : State) (a : Nat) (b : Byte) : (State.setByte s a b).sup = s.sup := by simp [State.setByte]
@[simp] theorem State.setBytes_sup (s : State) (a : Nat) (x0 : List Byte) : (State.setBytes s a x0).sup = s.sup := by
  induction x0 generalizing s a <;> first | (simp_all [State.setBytes]; done) | (unfold State.setBytes; (repeat' split) <;> simp_all)
@[simp] theorem State.setW32_sup (s : State) (a v : Nat) : (State.setW32 s a v).sup = s.sup := by simp [State.setW32]
@[simp] theorem State.zeroRange_sup (s : State) (lo hi : Nat) : (State.zeroRange s lo hi).sup = s.sup := by simp [State.zeroRange]
@[simp] theorem State.enter_sup (s : State) (st : Nat) : (State.enter s st).sup = s.sup := by simp [State.enter]
@[simp] theorem State.errGeneric_sup (s : State) : (State.errGeneric s).sup = s.sup := by simp [State.errGeneric]
@[simp] theorem State.errBit_sup (s : State) (b : Nat) (on : Bool) : (State.errBit s b on).sup = s.sup := by simp [State.errBit]
@[simp] theorem State.holdLow_sup (s : State) : (State.holdLow s).sup = s.sup := by simp [State.holdLow]
@[simp] theorem State.hold_sup (s : State) (m : Nat) : (State.hold s m).sup = s.sup := by simp [State.hold]
@[simp] theorem State.unhold_sup (s : State) (m : Nat) : (State.unhold s m).sup = s.sup := by simp [State.unhold]
@[simp] theorem State.violate_sup (s : State) (id : Nat) : (State.violate s id).sup = s.sup := by simp [State.violate]
@[simp] theorem State.showAllowances_sup (s : State) : (State.showAllowances s).sup = s.sup := by
  first
  | (simp [State.showAllowances]; done)
  | (unfold State.showAllowances; (repeat' split) <;> (first | (simp; done) | (simp_all; done)))
  | (simp only [State.showAllowances]; (repeat' split) <;> (first | (simp; done) | (simp_all; done)))
  | (unfold State.showAllowances; (try dsimp only); refine foldl_sup _ (fun s a => ?_) _ _; (try dsimp only); (repeat' split) <;> (first | (simp; done) | (simp_all; done)))
@[simp] theorem State.admitRec_sup (s : State) (r : Rec) : (State.admitRec s r).sup = s.sup := by simp [State.admitRec]
@[simp] theorem State.record_sup (s : State) (typ : Nat) (body : List Byte) : (State.record s typ body).sup = s.sup := by simp [State.record]
@[simp] theorem State.setTdom_sup (s : State) (d : Nat) (x : TimeDom) : (State.setTdom s d x).sup = s.sup := by simp [State.setTdom]
@[simp] theorem State.setLaunch_sup (s : State) (k : Nat) (x : Launch) : (State.setLaunch s k x).sup = s.sup := by simp [State.setLaunch]
@[simp] theorem State.setDomVal_sup (s : State) (d v : Nat) : (State.setDomVal s d v).sup = s.sup := by simp [State.setDomVal]
@[simp] theorem State.setRing_sup (s : State) (n : Nat) (x : Ring) : (State.setRing s n x).sup = s.sup := by simp [State.setRing]
@[simp] theorem State.setTrack_sup (s : State) (t : Nat) (x : Track) : (State.setTrack s t x).sup = s.sup := by simp [State.setTrack]
@[simp] theorem State.setInst_sup (s : State) (n : Nat) (x : Inst) : (State.setInst s n x).sup = s.sup := by simp [State.setInst]
@[simp] theorem State.setDbe_sup (s : State) (a : Nat) (b : Bool) : (State.setDbe s a b).sup = s.sup := by simp [State.setDbe]
@[simp] theorem State.setSbe_sup (s : State) (a : Nat) (b : Bool) : (State.setSbe s a b).sup = s.sup := by simp [State.setSbe]
@[simp] theorem State.setChord_sup (s : State) (d : Nat) (x : Chord) : (State.setChord s d x).sup = s.sup := by simp [State.setChord]
@[simp] theorem State.setSw_sup (s : State) (f : Switch → Switch) : (State.setSw s f).sup = s.sup := by simp [State.setSw]
@[simp] theorem State.setQueue_sup (s : State) (st c : Nat) (l : List QEntry) : (State.setQueue s st c l).sup = s.sup := by simp [State.setQueue]
@[simp] theorem State.setFrame_sup (s : State) (f : Nat) (x : SwFrame) : (State.setFrame s f x).sup = s.sup := by simp [State.setFrame]
@[simp] theorem State.setUsed_sup (s : State) (st c u : Nat) : (State.setUsed s st c u).sup = s.sup := by simp [State.setUsed]
@[simp] theorem State.setGate_sup (s : State) (p : Nat) (g : GateCtl) : (State.setGate s p g).sup = s.sup := by simp [State.setGate]
@[simp] theorem State.setStream_sup (s : State) (h : Nat) (x : Stream) : (State.setStream s h x).sup = s.sup := by simp [State.setStream]
@[simp] theorem State.setSgate_sup (s : State) (g : Nat) (x : SGate) : (State.setSgate s g x).sup = s.sup := by simp [State.setSgate]
@[simp] theorem State.setMeter_sup (s : State) (m : Nat) (x : Meter) : (State.setMeter s m x).sup = s.sup := by simp [State.setMeter]
@[simp] theorem State.setCb_sup (s : State) (h : Nat) (x : Cb) : (State.setCb s h x).sup = s.sup := by simp [State.setCb]
@[simp] theorem State.setFdb_sup (s : State) (e : Nat) (x : FdbEntry) : (State.setFdb s e x).sup = s.sup := by simp [State.setFdb]
@[simp] theorem State.setMdio_sup (s : State) (m : Nat) (x : Mdio) : (State.setMdio s m x).sup = s.sup := by simp [State.setMdio]
@[simp] theorem State.setPps_sup (s : State) (i : Nat) (x : Pps) : (State.setPps s i x).sup = s.sup := by simp [State.setPps]
@[simp] theorem State.setEcho_sup (s : State) (n : Nat) (east : Bool) (x : Echo) : (State.setEcho s n east x).sup = s.sup := by simp [State.setEcho]
@[simp] theorem State.setSlotFetch_sup (s : State) (n k : Nat) (x : Nat × List Nib) : (State.setSlotFetch s n k x).sup = s.sup := by simp [State.setSlotFetch]
@[simp] theorem State.setStaged_sup (s : State) (n t : Nat) (l : List (Nat × List Byte)) : (State.setStaged s n t l).sup = s.sup := by simp [State.setStaged]
@[simp] theorem State.setLat_sup (s : State) (f : Lattice → Lattice) : (State.setLat s f).sup = s.sup := by simp [State.setLat]
@[simp] theorem State.setPio_sup (s : State) (b : Nat) (x : Pio) : (State.setPio s b x).sup = s.sup := by simp [State.setPio]
@[simp] theorem State.setSm_sup (s : State) (m : Nat) (x : Sm) : (State.setSm s m x).sup = s.sup := by simp [State.setSm]
@[simp] theorem State.setPioFlags_sup (s : State) (b v : Nat) : (State.setPioFlags s b v).sup = s.sup := by simp [State.setPioFlags]
@[simp] theorem State.setTrkS_sup (s : State) (t j v : Nat) : (State.setTrkS s t j v).sup = s.sup := by simp [State.setTrkS]
@[simp] theorem State.setCan_sup (s : State) (c : Nat) (x : Can) : (State.setCan s c x).sup = s.sup := by simp [State.setCan]
@[simp] theorem State.setBuf_sup (s : State) (c b lsb w v : Nat) : (State.setBuf s c b lsb w v).sup = s.sup := by simp [State.setBuf]
@[simp] theorem State.setBufState_sup (s : State) (c b v : Nat) : (State.setBufState s c b v).sup = s.sup := by simp [State.setBufState]
@[simp] theorem State.setCoreState_sup (s : State) (c v : Nat) : (State.setCoreState s c v).sup = s.sup := by simp [State.setCoreState]
@[simp] theorem State.setPc_sup (s : State) (c v : Nat) : (State.setPc s c v).sup = s.sup := by simp [State.setPc]
@[simp] theorem State.setSession_sup (s : State) (c : Nat) (x : Session) : (State.setSession s c x).sup = s.sup := by simp [State.setSession]
@[simp] theorem State.setDmaCh_sup (s : State) (k : Nat) (x : DmaCh) : (State.setDmaCh s k x).sup = s.sup := by simp [State.setDmaCh]
@[simp] theorem State.setPath_sup (s : State) (p : Path) (x : PathSt) : (State.setPath s p x).sup = s.sup := by simp [State.setPath]
@[simp] theorem State.setRecord_sup (s : State) (d : List Byte) (applied refused : Nat) : (State.setRecord s d applied refused).sup = s.sup := by simp [State.setRecord]
@[simp] theorem State.setNetSel_sup (s : State) (n conn v : Nat) : (State.setNetSel s n conn v).sup = s.sup := by simp [State.setNetSel]
/-! ### host -/

@[simp] theorem ite_host (c : Prop) [Decidable c] (a b : State) : (if c then a else b).host = if c then a.host else b.host := apply_ite State.host c a b
@[simp] theorem foldl_host {α : Type} (f : State → α → State) (h : ∀ s a, (f s a).host = s.host) (l : List α) (s : State) : (l.foldl f s).host = s.host := by
  induction l generalizing s with
  | nil => rfl
  | cons x l ih => simp [ih, h]


@[simp] theorem State.wr_host (s : State) (i j v : Nat) : (State.wr s i j v).host = s.host := by simp [State.wr]
@[simp] theorem State.wrD_host (s : State) (i j : Nat) (v : DWord) : (State.wrD s i j v).host = s.host := by simp [State.wrD]
@[simp] theorem State.setBits_host (s : State) (i j m : Nat) : (State.setBits s i j m).host = s.host := by simp [State.setBits]
@[simp] theorem State.clrBits_host (s : State) (i j m : Nat) : (State.clrBits s i j m).host = s.host := by simp [State.clrBits]
@[simp] theorem State.putBits_host (s : State) (i j m : Nat) (on : Bool) : (State.putBits s i j m on).host = s.host := by simp [State.putBits]
@[simp] theorem State.setBit_host (s : State) (i j b : Nat) : (State.setBit s i j b).host = s.host := by simp [State.setBit]
@[simp] theorem State.emit_host (s : State) (o : Out) : (State.emit s o).host = s.host := by simp [State.emit]
@[simp] theorem State.tick_host (s : State) : (State.tick s).host = s.host := by simp [State.tick]
@[simp] theorem State.setEngine_host (s : State) (c : Nat) (e : Engine) : (State.setEngine s c e).host = s.host := by simp [State.setEngine]
@[simp] theorem State.setChan_host (s : State) (c : Nat) (m : Mbox) : (State.setChan s c m).host = s.host := by simp [State.setChan]
@[simp] theorem State.setPort_host (s : State) (p : Nat) (x : Port) : (State.setPort s p x).host = s.host := by simp [State.setPort]
@[simp] theorem State.evpSet_host (s : State) (c b : Nat) : (State.evpSet s c b).host = s.host := by simp [State.evpSet]
@[simp] theorem State.addW_host (s : State) (i j w k : Nat) : (State.addW s i j w k).host = s.host := by simp [State.addW]
@[simp] theorem State.cnt_host (s : State) (i j : Nat) : (State.cnt s i j).host = s.host := by simp [State.cnt]
@[simp] theorem State.cntS_host (s : State) (i j : Nat) : (State.cntS s i j).host = s.host := by simp [State.cntS]
@[simp] theorem State.setByte_host (s : State) (a : Nat) (b : Byte) : (State.setByte s a b).host = s.host := by simp [State.setByte]
@[simp] theorem State.setBytes_host (s : State) (a : Nat) (x0 : List Byte) : (State.setBytes s a x0).host = s.host := by
  induction x0 generalizing s a <;> first | (simp_all [State.setBytes]; done) | (unfold State.setBytes; (repeat' split) <;> simp_all)
@[simp] theorem State.setW32_host (s : State) (a v : Nat) : (State.setW32 s a v).host = s.host := by simp [State.setW32]
@[simp] theorem State.zeroRange_host (s : State) (lo hi : Nat) : (State.zeroRange s lo hi).host = s.host := by simp [State.zeroRange]
@[simp] theorem State.errGeneric_host (s : State) : (State.errGeneric s).host = s.host := by simp [State.errGeneric]
@[simp] theorem State.errBit_host (s : State) (b : Nat) (on : Bool) : (State.errBit s b on).host = s.host := by simp [State.errBit]
@[simp] theorem State.unhold_host (s : State) (m : Nat) : (State.unhold s m).host = s.host := by simp [State.unhold]
@[simp] theorem State.violate_host (s : State) (id : Nat) : (State.violate s id).host = s.host := by simp [State.violate]
@[simp] theorem State.showAllowances_host (s : State) : (State.showAllowances s).host = s.host := by
  first
  | (simp [State.showAllowances]; done)
  | (unfold State.showAllowances; (repeat' split) <;> (first | (simp; done) | (simp_all; done)))
  | (simp only [State.showAllowances]; (repeat' split) <;> (first | (simp; done) | (simp_all; done)))
  | (unfold State.showAllowances; (try dsimp only); refine foldl_host _ (fun s a => ?_) _ _; (try dsimp only); (repeat' split) <;> (first | (simp; done) | (simp_all; done)))
@[simp] theorem State.setTdom_host (s : State) (d : Nat) (x : TimeDom) : (State.setTdom s d x).host = s.host := by simp [State.setTdom]
@[simp] theorem State.setLaunch_host (s : State) (k : Nat) (x : Launch) : (State.setLaunch s k x).host = s.host := by simp [State.setLaunch]
@[simp] theorem State.setDomVal_host (s : State) (d v : Nat) : (State.setDomVal s d v).host = s.host := by simp [State.setDomVal]
@[simp] theorem State.setRing_host (s : State) (n : Nat) (x : Ring) : (State.setRing s n x).host = s.host := by simp [State.setRing]
@[simp] theorem State.setTrack_host (s : State) (t : Nat) (x : Track) : (State.setTrack s t x).host = s.host := by simp [State.setTrack]
@[simp] theorem State.setInst_host (s : State) (n : Nat) (x : Inst) : (State.setInst s n x).host = s.host := by simp [State.setInst]
@[simp] theorem State.setDbe_host (s : State) (a : Nat) (b : Bool) : (State.setDbe s a b).host = s.host := by simp [State.setDbe]
@[simp] theorem State.setSbe_host (s : State) (a : Nat) (b : Bool) : (State.setSbe s a b).host = s.host := by simp [State.setSbe]
@[simp] theorem State.setChord_host (s : State) (d : Nat) (x : Chord) : (State.setChord s d x).host = s.host := by simp [State.setChord]
@[simp] theorem State.setSw_host (s : State) (f : Switch → Switch) : (State.setSw s f).host = s.host := by simp [State.setSw]
@[simp] theorem State.setQueue_host (s : State) (st c : Nat) (l : List QEntry) : (State.setQueue s st c l).host = s.host := by simp [State.setQueue]
@[simp] theorem State.setFrame_host (s : State) (f : Nat) (x : SwFrame) : (State.setFrame s f x).host = s.host := by simp [State.setFrame]
@[simp] theorem State.setUsed_host (s : State) (st c u : Nat) : (State.setUsed s st c u).host = s.host := by simp [State.setUsed]
@[simp] theorem State.setGate_host (s : State) (p : Nat) (g : GateCtl) : (State.setGate s p g).host = s.host := by simp [State.setGate]
@[simp] theorem State.setStream_host (s : State) (h : Nat) (x : Stream) : (State.setStream s h x).host = s.host := by simp [State.setStream]
@[simp] theorem State.setSgate_host (s : State) (g : Nat) (x : SGate) : (State.setSgate s g x).host = s.host := by simp [State.setSgate]
@[simp] theorem State.setMeter_host (s : State) (m : Nat) (x : Meter) : (State.setMeter s m x).host = s.host := by simp [State.setMeter]
@[simp] theorem State.setCb_host (s : State) (h : Nat) (x : Cb) : (State.setCb s h x).host = s.host := by simp [State.setCb]
@[simp] theorem State.setFdb_host (s : State) (e : Nat) (x : FdbEntry) : (State.setFdb s e x).host = s.host := by simp [State.setFdb]
@[simp] theorem State.setMdio_host (s : State) (m : Nat) (x : Mdio) : (State.setMdio s m x).host = s.host := by simp [State.setMdio]
@[simp] theorem State.setPps_host (s : State) (i : Nat) (x : Pps) : (State.setPps s i x).host = s.host := by simp [State.setPps]
@[simp] theorem State.setEcho_host (s : State) (n : Nat) (east : Bool) (x : Echo) : (State.setEcho s n east x).host = s.host := by simp [State.setEcho]
@[simp] theorem State.setSlotFetch_host (s : State) (n k : Nat) (x : Nat × List Nib) : (State.setSlotFetch s n k x).host = s.host := by simp [State.setSlotFetch]
@[simp] theorem State.setStaged_host (s : State) (n t : Nat) (l : List (Nat × List Byte)) : (State.setStaged s n t l).host = s.host := by simp [State.setStaged]
@[simp] theorem State.setLat_host (s : State) (f : Lattice → Lattice) : (State.setLat s f).host = s.host := by simp [State.setLat]
@[simp] theorem State.setPio_host (s : State) (b : Nat) (x : Pio) : (State.setPio s b x).host = s.host := by simp [State.setPio]
@[simp] theorem State.setSm_host (s : State) (m : Nat) (x : Sm) : (State.setSm s m x).host = s.host := by simp [State.setSm]
@[simp] theorem State.setPioFlags_host (s : State) (b v : Nat) : (State.setPioFlags s b v).host = s.host := by simp [State.setPioFlags]
@[simp] theorem State.setTrkS_host (s : State) (t j v : Nat) : (State.setTrkS s t j v).host = s.host := by simp [State.setTrkS]
@[simp] theorem State.setCan_host (s : State) (c : Nat) (x : Can) : (State.setCan s c x).host = s.host := by simp [State.setCan]
@[simp] theorem State.setBuf_host (s : State) (c b lsb w v : Nat) : (State.setBuf s c b lsb w v).host = s.host := by simp [State.setBuf]
@[simp] theorem State.setBufState_host (s : State) (c b v : Nat) : (State.setBufState s c b v).host = s.host := by simp [State.setBufState]
@[simp] theorem State.setCoreState_host (s : State) (c v : Nat) : (State.setCoreState s c v).host = s.host := by simp [State.setCoreState]
@[simp] theorem State.setPc_host (s : State) (c v : Nat) : (State.setPc s c v).host = s.host := by simp [State.setPc]
@[simp] theorem State.setPath_host (s : State) (p : Path) (x : PathSt) : (State.setPath s p x).host = s.host := by simp [State.setPath]
@[simp] theorem State.setNetSel_host (s : State) (n conn v : Nat) : (State.setNetSel s n conn v).host = s.host := by simp [State.setNetSel]
/-! ### lib -/

@[simp] theorem ite_lib (c : Prop) [Decidable c] (a b : State) : (if c then a else b).lib = if c then a.lib else b.lib := apply_ite State.lib c a b
@[simp] theorem foldl_lib {α : Type} (f : State → α → State) (h : ∀ s a, (f s a).lib = s.lib) (l : List α) (s : State) : (l.foldl f s).lib = s.lib := by
  induction l generalizing s with
  | nil => rfl
  | cons x l ih => simp [ih, h]


@[simp] theorem State.wr_lib (s : State) (i j v : Nat) : (State.wr s i j v).lib = s.lib := by simp [State.wr]
@[simp] theorem State.wrD_lib (s : State) (i j : Nat) (v : DWord) : (State.wrD s i j v).lib = s.lib := by simp [State.wrD]
@[simp] theorem State.setBits_lib (s : State) (i j m : Nat) : (State.setBits s i j m).lib = s.lib := by simp [State.setBits]
@[simp] theorem State.clrBits_lib (s : State) (i j m : Nat) : (State.clrBits s i j m).lib = s.lib := by simp [State.clrBits]
@[simp] theorem State.putBits_lib (s : State) (i j m : Nat) (on : Bool) : (State.putBits s i j m on).lib = s.lib := by simp [State.putBits]
@[simp] theorem State.setBit_lib (s : State) (i j b : Nat) : (State.setBit s i j b).lib = s.lib := by simp [State.setBit]
@[simp] theorem State.emit_lib (s : State) (o : Out) : (State.emit s o).lib = s.lib := by simp [State.emit]
@[simp] theorem State.tick_lib (s : State) : (State.tick s).lib = s.lib := by simp [State.tick]
@[simp] theorem State.setEngine_lib (s : State) (c : Nat) (e : Engine) : (State.setEngine s c e).lib = s.lib := by simp [State.setEngine]
@[simp] theorem State.setChan_lib (s : State) (c : Nat) (m : Mbox) : (State.setChan s c m).lib = s.lib := by simp [State.setChan]
@[simp] theorem State.setPort_lib (s : State) (p : Nat) (x : Port) : (State.setPort s p x).lib = s.lib := by simp [State.setPort]
@[simp] theorem State.msix_lib (s : State) (v : Nat) : (State.msix s v).lib = s.lib := by simp [State.msix]
@[simp] theorem State.evpSet_lib (s : State) (c b : Nat) : (State.evpSet s c b).lib = s.lib := by simp [State.evpSet]
@[simp] theorem State.notify_lib (s : State) (r : Nat) : (State.notify s r).lib = s.lib := by simp [State.notify]
@[simp] theorem State.route_lib (s : State) (r : Nat) (statusWritten : Bool) : (State.route s r statusWritten).lib = s.lib := by simp [State.route]
@[simp] theorem State.event_lib (s : State) (i j m : Nat) : (State.event s i j m).lib = s.lib := by simp [State.event]
@[simp] theorem State.addW_lib (s : State) (i j w k : Nat) : (State.addW s i j w k).lib = s.lib := by simp [State.addW]
@[simp] theorem State.cnt_lib (s : State) (i j : Nat) : (State.cnt s i j).lib = s.lib := by simp [State.cnt]
@[simp] theorem State.cntS_lib (s : State) (i j : Nat) : (State.cntS s i j).lib = s.lib := by simp [State.cntS]
@[simp] theorem State.addH_lib (s : State) (i j w k ei ej : Nat) : (State.addH s i j w k ei ej).lib = s.lib := by simp [State.addH]
@[simp] theorem State.cntH_lib (s : State) (i j ei ej : Nat) : (State.cntH s i j ei ej).lib = s.lib := by simp [State.cntH]
@[simp] theorem State.setByte_lib (s : State) (a : Nat) (b : Byte) : (State.setByte s a b).lib = s.lib := by simp [State.setByte]
@[simp] theorem State.setBytes_lib (s : State) (a : Nat) (x0 : List Byte) : (State.setBytes s a x0).lib = s.lib := by
  induction x0 generalizing s a <;> first | (simp_all [State.setBytes]; done) | (unfold State.setBytes; (repeat' split) <;> simp_all)
@[simp] theorem State.setW32_lib (s : State) (a v : Nat) : (State.setW32 s a v).lib = s.lib := by simp [State.setW32]
@[simp] theorem State.zeroRange_lib (s : State) (lo hi : Nat) : (State.zeroRange s lo hi).lib = s.lib := by simp [State.zeroRange]
@[simp] theorem State.enter_lib (s : State) (st : Nat) : (State.enter s st).lib = s.lib := by simp [State.enter]
@[simp] theorem State.errGeneric_lib (s : State) : (State.errGeneric s).lib = s.lib := by simp [State.errGeneric]
@[simp] theorem State.errBit_lib (s : State) (b : Nat) (on : Bool) : (State.errBit s b on).lib = s.lib := by simp [State.errBit]
@[simp] theorem State.holdLow_lib (s : State) : (State.holdLow s).lib = s.lib := by simp [State.holdLow]
@[simp] theorem State.hold_lib (s : State) (m : Nat) : (State.hold s m).lib = s.lib := by simp [State.hold]
@[simp] theorem State.unhold_lib (s : State) (m : Nat) : (State.unhold s m).lib = s.lib := by simp [State.unhold]
@[simp] theorem State.violate_lib (s : State) (id : Nat) : (State.violate s id).lib = s.lib := by simp [State.violate]
@[simp] theorem State.showAllowances_lib (s : State) : (State.showAllowances s).lib = s.lib := by
  first
  | (simp [State.showAllowances]; done)
  | (unfold State.showAllowances; (repeat' split) <;> (first | (simp; done) | (simp_all; done)))
  | (simp only [State.showAllowances]; (repeat' split) <;> (first | (simp; done) | (simp_all; done)))
  | (unfold State.showAllowances; (try dsimp only); refine foldl_lib _ (fun s a => ?_) _ _; (try dsimp only); (repeat' split) <;> (first | (simp; done) | (simp_all; done)))
@[simp] theorem State.admitRec_lib (s : State) (r : Rec) : (State.admitRec s r).lib = s.lib := by simp [State.admitRec]
@[simp] theorem State.record_lib (s : State) (typ : Nat) (body : List Byte) : (State.record s typ body).lib = s.lib := by simp [State.record]
@[simp] theorem State.setTdom_lib (s : State) (d : Nat) (x : TimeDom) : (State.setTdom s d x).lib = s.lib := by simp [State.setTdom]
@[simp] theorem State.setLaunch_lib (s : State) (k : Nat) (x : Launch) : (State.setLaunch s k x).lib = s.lib := by simp [State.setLaunch]
@[simp] theorem State.setDomVal_lib (s : State) (d v : Nat) : (State.setDomVal s d v).lib = s.lib := by simp [State.setDomVal]
@[simp] theorem State.setRing_lib (s : State) (n : Nat) (x : Ring) : (State.setRing s n x).lib = s.lib := by simp [State.setRing]
@[simp] theorem State.setTrack_lib (s : State) (t : Nat) (x : Track) : (State.setTrack s t x).lib = s.lib := by simp [State.setTrack]
@[simp] theorem State.setInst_lib (s : State) (n : Nat) (x : Inst) : (State.setInst s n x).lib = s.lib := by simp [State.setInst]
@[simp] theorem State.setDbe_lib (s : State) (a : Nat) (b : Bool) : (State.setDbe s a b).lib = s.lib := by simp [State.setDbe]
@[simp] theorem State.setSbe_lib (s : State) (a : Nat) (b : Bool) : (State.setSbe s a b).lib = s.lib := by simp [State.setSbe]
@[simp] theorem State.setChord_lib (s : State) (d : Nat) (x : Chord) : (State.setChord s d x).lib = s.lib := by simp [State.setChord]
@[simp] theorem State.setSw_lib (s : State) (f : Switch → Switch) : (State.setSw s f).lib = s.lib := by simp [State.setSw]
@[simp] theorem State.setQueue_lib (s : State) (st c : Nat) (l : List QEntry) : (State.setQueue s st c l).lib = s.lib := by simp [State.setQueue]
@[simp] theorem State.setFrame_lib (s : State) (f : Nat) (x : SwFrame) : (State.setFrame s f x).lib = s.lib := by simp [State.setFrame]
@[simp] theorem State.setUsed_lib (s : State) (st c u : Nat) : (State.setUsed s st c u).lib = s.lib := by simp [State.setUsed]
@[simp] theorem State.setGate_lib (s : State) (p : Nat) (g : GateCtl) : (State.setGate s p g).lib = s.lib := by simp [State.setGate]
@[simp] theorem State.setStream_lib (s : State) (h : Nat) (x : Stream) : (State.setStream s h x).lib = s.lib := by simp [State.setStream]
@[simp] theorem State.setSgate_lib (s : State) (g : Nat) (x : SGate) : (State.setSgate s g x).lib = s.lib := by simp [State.setSgate]
@[simp] theorem State.setMeter_lib (s : State) (m : Nat) (x : Meter) : (State.setMeter s m x).lib = s.lib := by simp [State.setMeter]
@[simp] theorem State.setCb_lib (s : State) (h : Nat) (x : Cb) : (State.setCb s h x).lib = s.lib := by simp [State.setCb]
@[simp] theorem State.setFdb_lib (s : State) (e : Nat) (x : FdbEntry) : (State.setFdb s e x).lib = s.lib := by simp [State.setFdb]
@[simp] theorem State.setMdio_lib (s : State) (m : Nat) (x : Mdio) : (State.setMdio s m x).lib = s.lib := by simp [State.setMdio]
@[simp] theorem State.setPps_lib (s : State) (i : Nat) (x : Pps) : (State.setPps s i x).lib = s.lib := by simp [State.setPps]
@[simp] theorem State.setEcho_lib (s : State) (n : Nat) (east : Bool) (x : Echo) : (State.setEcho s n east x).lib = s.lib := by simp [State.setEcho]
@[simp] theorem State.setSlotFetch_lib (s : State) (n k : Nat) (x : Nat × List Nib) : (State.setSlotFetch s n k x).lib = s.lib := by simp [State.setSlotFetch]
@[simp] theorem State.setStaged_lib (s : State) (n t : Nat) (l : List (Nat × List Byte)) : (State.setStaged s n t l).lib = s.lib := by simp [State.setStaged]
@[simp] theorem State.setLat_lib (s : State) (f : Lattice → Lattice) : (State.setLat s f).lib = s.lib := by simp [State.setLat]
@[simp] theorem State.setPio_lib (s : State) (b : Nat) (x : Pio) : (State.setPio s b x).lib = s.lib := by simp [State.setPio]
@[simp] theorem State.setSm_lib (s : State) (m : Nat) (x : Sm) : (State.setSm s m x).lib = s.lib := by simp [State.setSm]
@[simp] theorem State.setPioFlags_lib (s : State) (b v : Nat) : (State.setPioFlags s b v).lib = s.lib := by simp [State.setPioFlags]
@[simp] theorem State.setTrkS_lib (s : State) (t j v : Nat) : (State.setTrkS s t j v).lib = s.lib := by simp [State.setTrkS]
@[simp] theorem State.setCan_lib (s : State) (c : Nat) (x : Can) : (State.setCan s c x).lib = s.lib := by simp [State.setCan]
@[simp] theorem State.setBuf_lib (s : State) (c b lsb w v : Nat) : (State.setBuf s c b lsb w v).lib = s.lib := by simp [State.setBuf]
@[simp] theorem State.setBufState_lib (s : State) (c b v : Nat) : (State.setBufState s c b v).lib = s.lib := by simp [State.setBufState]
@[simp] theorem State.setCoreState_lib (s : State) (c v : Nat) : (State.setCoreState s c v).lib = s.lib := by simp [State.setCoreState]
@[simp] theorem State.setPc_lib (s : State) (c v : Nat) : (State.setPc s c v).lib = s.lib := by simp [State.setPc]
@[simp] theorem State.setSession_lib (s : State) (c : Nat) (x : Session) : (State.setSession s c x).lib = s.lib := by simp [State.setSession]
@[simp] theorem State.setDmaCh_lib (s : State) (k : Nat) (x : DmaCh) : (State.setDmaCh s k x).lib = s.lib := by simp [State.setDmaCh]
@[simp] theorem State.setPath_lib (s : State) (p : Path) (x : PathSt) : (State.setPath s p x).lib = s.lib := by simp [State.setPath]
@[simp] theorem State.setRecord_lib (s : State) (d : List Byte) (applied refused : Nat) : (State.setRecord s d applied refused).lib = s.lib := by simp [State.setRecord]
@[simp] theorem State.setNetSel_lib (s : State) (n conn v : Nat) : (State.setNetSel s n conn v).lib = s.lib := by simp [State.setNetSel]
/-! ### dom -/

@[simp] theorem ite_dom (c : Prop) [Decidable c] (a b : State) : (if c then a else b).dom = if c then a.dom else b.dom := apply_ite State.dom c a b
@[simp] theorem foldl_dom {α : Type} (f : State → α → State) (h : ∀ s a, (f s a).dom = s.dom) (l : List α) (s : State) : (l.foldl f s).dom = s.dom := by
  induction l generalizing s with
  | nil => rfl
  | cons x l ih => simp [ih, h]


@[simp] theorem State.wr_dom (s : State) (i j v : Nat) : (State.wr s i j v).dom = s.dom := by simp [State.wr]
@[simp] theorem State.wrD_dom (s : State) (i j : Nat) (v : DWord) : (State.wrD s i j v).dom = s.dom := by simp [State.wrD]
@[simp] theorem State.setBits_dom (s : State) (i j m : Nat) : (State.setBits s i j m).dom = s.dom := by simp [State.setBits]
@[simp] theorem State.clrBits_dom (s : State) (i j m : Nat) : (State.clrBits s i j m).dom = s.dom := by simp [State.clrBits]
@[simp] theorem State.putBits_dom (s : State) (i j m : Nat) (on : Bool) : (State.putBits s i j m on).dom = s.dom := by simp [State.putBits]
@[simp] theorem State.setBit_dom (s : State) (i j b : Nat) : (State.setBit s i j b).dom = s.dom := by simp [State.setBit]
@[simp] theorem State.emit_dom (s : State) (o : Out) : (State.emit s o).dom = s.dom := by simp [State.emit]
@[simp] theorem State.tick_dom (s : State) : (State.tick s).dom = s.dom := by simp [State.tick]
@[simp] theorem State.setEngine_dom (s : State) (c : Nat) (e : Engine) : (State.setEngine s c e).dom = s.dom := by simp [State.setEngine]
@[simp] theorem State.setChan_dom (s : State) (c : Nat) (m : Mbox) : (State.setChan s c m).dom = s.dom := by simp [State.setChan]
@[simp] theorem State.setPort_dom (s : State) (p : Nat) (x : Port) : (State.setPort s p x).dom = s.dom := by simp [State.setPort]
@[simp] theorem State.msix_dom (s : State) (v : Nat) : (State.msix s v).dom = s.dom := by simp [State.msix]
@[simp] theorem State.evpSet_dom (s : State) (c b : Nat) : (State.evpSet s c b).dom = s.dom := by simp [State.evpSet]
@[simp] theorem State.notify_dom (s : State) (r : Nat) : (State.notify s r).dom = s.dom := by simp [State.notify]
@[simp] theorem State.route_dom (s : State) (r : Nat) (statusWritten : Bool) : (State.route s r statusWritten).dom = s.dom := by simp [State.route]
@[simp] theorem State.event_dom (s : State) (i j m : Nat) : (State.event s i j m).dom = s.dom := by simp [State.event]
@[simp] theorem State.addW_dom (s : State) (i j w k : Nat) : (State.addW s i j w k).dom = s.dom := by simp [State.addW]
@[simp] theorem State.cnt_dom (s : State) (i j : Nat) : (State.cnt s i j).dom = s.dom := by simp [State.cnt]
@[simp] theorem State.cntS_dom (s : State) (i j : Nat) : (State.cntS s i j).dom = s.dom := by simp [State.cntS]
@[simp] theorem State.addH_dom (s : State) (i j w k ei ej : Nat) : (State.addH s i j w k ei ej).dom = s.dom := by simp [State.addH]
@[simp] theorem State.cntH_dom (s : State) (i j ei ej : Nat) : (State.cntH s i j ei ej).dom = s.dom := by simp [State.cntH]
@[simp] theorem State.setByte_dom (s : State) (a : Nat) (b : Byte) : (State.setByte s a b).dom = s.dom := by simp [State.setByte]
@[simp] theorem State.setBytes_dom (s : State) (a : Nat) (x0 : List Byte) : (State.setBytes s a x0).dom = s.dom := by
  induction x0 generalizing s a <;> first | (simp_all [State.setBytes]; done) | (unfold State.setBytes; (repeat' split) <;> simp_all)
@[simp] theorem State.setW32_dom (s : State) (a v : Nat) : (State.setW32 s a v).dom = s.dom := by simp [State.setW32]
@[simp] theorem State.zeroRange_dom (s : State) (lo hi : Nat) : (State.zeroRange s lo hi).dom = s.dom := by simp [State.zeroRange]
@[simp] theorem State.enter_dom (s : State) (st : Nat) : (State.enter s st).dom = s.dom := by simp [State.enter]
@[simp] theorem State.errGeneric_dom (s : State) : (State.errGeneric s).dom = s.dom := by simp [State.errGeneric]
@[simp] theorem State.errBit_dom (s : State) (b : Nat) (on : Bool) : (State.errBit s b on).dom = s.dom := by simp [State.errBit]
@[simp] theorem State.holdLow_dom (s : State) : (State.holdLow s).dom = s.dom := by simp [State.holdLow]
@[simp] theorem State.hold_dom (s : State) (m : Nat) : (State.hold s m).dom = s.dom := by simp [State.hold]
@[simp] theorem State.unhold_dom (s : State) (m : Nat) : (State.unhold s m).dom = s.dom := by simp [State.unhold]
@[simp] theorem State.violate_dom (s : State) (id : Nat) : (State.violate s id).dom = s.dom := by simp [State.violate]
@[simp] theorem State.showAllowances_dom (s : State) : (State.showAllowances s).dom = s.dom := by
  first
  | (simp [State.showAllowances]; done)
  | (unfold State.showAllowances; (repeat' split) <;> (first | (simp; done) | (simp_all; done)))
  | (simp only [State.showAllowances]; (repeat' split) <;> (first | (simp; done) | (simp_all; done)))
  | (unfold State.showAllowances; (try dsimp only); refine foldl_dom _ (fun s a => ?_) _ _; (try dsimp only); (repeat' split) <;> (first | (simp; done) | (simp_all; done)))
@[simp] theorem State.admitRec_dom (s : State) (r : Rec) : (State.admitRec s r).dom = s.dom := by simp [State.admitRec]
@[simp] theorem State.record_dom (s : State) (typ : Nat) (body : List Byte) : (State.record s typ body).dom = s.dom := by simp [State.record]
@[simp] theorem State.setLaunch_dom (s : State) (k : Nat) (x : Launch) : (State.setLaunch s k x).dom = s.dom := by simp [State.setLaunch]
@[simp] theorem State.setDomVal_dom (s : State) (d v : Nat) : (State.setDomVal s d v).dom = s.dom := by simp [State.setDomVal]
@[simp] theorem State.setRing_dom (s : State) (n : Nat) (x : Ring) : (State.setRing s n x).dom = s.dom := by simp [State.setRing]
@[simp] theorem State.setTrack_dom (s : State) (t : Nat) (x : Track) : (State.setTrack s t x).dom = s.dom := by simp [State.setTrack]
@[simp] theorem State.setInst_dom (s : State) (n : Nat) (x : Inst) : (State.setInst s n x).dom = s.dom := by simp [State.setInst]
@[simp] theorem State.setDbe_dom (s : State) (a : Nat) (b : Bool) : (State.setDbe s a b).dom = s.dom := by simp [State.setDbe]
@[simp] theorem State.setSbe_dom (s : State) (a : Nat) (b : Bool) : (State.setSbe s a b).dom = s.dom := by simp [State.setSbe]
@[simp] theorem State.setChord_dom (s : State) (d : Nat) (x : Chord) : (State.setChord s d x).dom = s.dom := by simp [State.setChord]
@[simp] theorem State.setSw_dom (s : State) (f : Switch → Switch) : (State.setSw s f).dom = s.dom := by simp [State.setSw]
@[simp] theorem State.setQueue_dom (s : State) (st c : Nat) (l : List QEntry) : (State.setQueue s st c l).dom = s.dom := by simp [State.setQueue]
@[simp] theorem State.setFrame_dom (s : State) (f : Nat) (x : SwFrame) : (State.setFrame s f x).dom = s.dom := by simp [State.setFrame]
@[simp] theorem State.setUsed_dom (s : State) (st c u : Nat) : (State.setUsed s st c u).dom = s.dom := by simp [State.setUsed]
@[simp] theorem State.setGate_dom (s : State) (p : Nat) (g : GateCtl) : (State.setGate s p g).dom = s.dom := by simp [State.setGate]
@[simp] theorem State.setStream_dom (s : State) (h : Nat) (x : Stream) : (State.setStream s h x).dom = s.dom := by simp [State.setStream]
@[simp] theorem State.setSgate_dom (s : State) (g : Nat) (x : SGate) : (State.setSgate s g x).dom = s.dom := by simp [State.setSgate]
@[simp] theorem State.setMeter_dom (s : State) (m : Nat) (x : Meter) : (State.setMeter s m x).dom = s.dom := by simp [State.setMeter]
@[simp] theorem State.setCb_dom (s : State) (h : Nat) (x : Cb) : (State.setCb s h x).dom = s.dom := by simp [State.setCb]
@[simp] theorem State.setFdb_dom (s : State) (e : Nat) (x : FdbEntry) : (State.setFdb s e x).dom = s.dom := by simp [State.setFdb]
@[simp] theorem State.setMdio_dom (s : State) (m : Nat) (x : Mdio) : (State.setMdio s m x).dom = s.dom := by simp [State.setMdio]
@[simp] theorem State.setPps_dom (s : State) (i : Nat) (x : Pps) : (State.setPps s i x).dom = s.dom := by simp [State.setPps]
@[simp] theorem State.setEcho_dom (s : State) (n : Nat) (east : Bool) (x : Echo) : (State.setEcho s n east x).dom = s.dom := by simp [State.setEcho]
@[simp] theorem State.setSlotFetch_dom (s : State) (n k : Nat) (x : Nat × List Nib) : (State.setSlotFetch s n k x).dom = s.dom := by simp [State.setSlotFetch]
@[simp] theorem State.setStaged_dom (s : State) (n t : Nat) (l : List (Nat × List Byte)) : (State.setStaged s n t l).dom = s.dom := by simp [State.setStaged]
@[simp] theorem State.setLat_dom (s : State) (f : Lattice → Lattice) : (State.setLat s f).dom = s.dom := by simp [State.setLat]
@[simp] theorem State.setPio_dom (s : State) (b : Nat) (x : Pio) : (State.setPio s b x).dom = s.dom := by simp [State.setPio]
@[simp] theorem State.setSm_dom (s : State) (m : Nat) (x : Sm) : (State.setSm s m x).dom = s.dom := by simp [State.setSm]
@[simp] theorem State.setPioFlags_dom (s : State) (b v : Nat) : (State.setPioFlags s b v).dom = s.dom := by simp [State.setPioFlags]
@[simp] theorem State.setTrkS_dom (s : State) (t j v : Nat) : (State.setTrkS s t j v).dom = s.dom := by simp [State.setTrkS]
@[simp] theorem State.setCan_dom (s : State) (c : Nat) (x : Can) : (State.setCan s c x).dom = s.dom := by simp [State.setCan]
@[simp] theorem State.setBuf_dom (s : State) (c b lsb w v : Nat) : (State.setBuf s c b lsb w v).dom = s.dom := by simp [State.setBuf]
@[simp] theorem State.setBufState_dom (s : State) (c b v : Nat) : (State.setBufState s c b v).dom = s.dom := by simp [State.setBufState]
@[simp] theorem State.setCoreState_dom (s : State) (c v : Nat) : (State.setCoreState s c v).dom = s.dom := by simp [State.setCoreState]
@[simp] theorem State.setPc_dom (s : State) (c v : Nat) : (State.setPc s c v).dom = s.dom := by simp [State.setPc]
@[simp] theorem State.setSession_dom (s : State) (c : Nat) (x : Session) : (State.setSession s c x).dom = s.dom := by simp [State.setSession]
@[simp] theorem State.setDmaCh_dom (s : State) (k : Nat) (x : DmaCh) : (State.setDmaCh s k x).dom = s.dom := by simp [State.setDmaCh]
@[simp] theorem State.setPath_dom (s : State) (p : Path) (x : PathSt) : (State.setPath s p x).dom = s.dom := by simp [State.setPath]
@[simp] theorem State.setRecord_dom (s : State) (d : List Byte) (applied refused : Nat) : (State.setRecord s d applied refused).dom = s.dom := by simp [State.setRecord]
@[simp] theorem State.setNetSel_dom (s : State) (n conn v : Nat) : (State.setNetSel s n conn v).dom = s.dom := by simp [State.setNetSel]
/-! ### caps -/

@[simp] theorem ite_caps (c : Prop) [Decidable c] (a b : State) : (if c then a else b).caps = if c then a.caps else b.caps := apply_ite State.caps c a b
@[simp] theorem foldl_caps {α : Type} (f : State → α → State) (h : ∀ s a, (f s a).caps = s.caps) (l : List α) (s : State) : (l.foldl f s).caps = s.caps := by
  induction l generalizing s with
  | nil => rfl
  | cons x l ih => simp [ih, h]


@[simp] theorem State.wr_caps (s : State) (i j v : Nat) : (State.wr s i j v).caps = s.caps := by simp [State.wr]
@[simp] theorem State.wrD_caps (s : State) (i j : Nat) (v : DWord) : (State.wrD s i j v).caps = s.caps := by simp [State.wrD]
@[simp] theorem State.setBits_caps (s : State) (i j m : Nat) : (State.setBits s i j m).caps = s.caps := by simp [State.setBits]
@[simp] theorem State.clrBits_caps (s : State) (i j m : Nat) : (State.clrBits s i j m).caps = s.caps := by simp [State.clrBits]
@[simp] theorem State.putBits_caps (s : State) (i j m : Nat) (on : Bool) : (State.putBits s i j m on).caps = s.caps := by simp [State.putBits]
@[simp] theorem State.setBit_caps (s : State) (i j b : Nat) : (State.setBit s i j b).caps = s.caps := by simp [State.setBit]
@[simp] theorem State.emit_caps (s : State) (o : Out) : (State.emit s o).caps = s.caps := by simp [State.emit]
@[simp] theorem State.tick_caps (s : State) : (State.tick s).caps = s.caps := by simp [State.tick]
@[simp] theorem State.setEngine_caps (s : State) (c : Nat) (e : Engine) : (State.setEngine s c e).caps = s.caps := by simp [State.setEngine]
@[simp] theorem State.setChan_caps (s : State) (c : Nat) (m : Mbox) : (State.setChan s c m).caps = s.caps := by simp [State.setChan]
@[simp] theorem State.setPort_caps (s : State) (p : Nat) (x : Port) : (State.setPort s p x).caps = s.caps := by simp [State.setPort]
@[simp] theorem State.msix_caps (s : State) (v : Nat) : (State.msix s v).caps = s.caps := by simp [State.msix]
@[simp] theorem State.evpSet_caps (s : State) (c b : Nat) : (State.evpSet s c b).caps = s.caps := by simp [State.evpSet]
@[simp] theorem State.notify_caps (s : State) (r : Nat) : (State.notify s r).caps = s.caps := by simp [State.notify]
@[simp] theorem State.route_caps (s : State) (r : Nat) (statusWritten : Bool) : (State.route s r statusWritten).caps = s.caps := by simp [State.route]
@[simp] theorem State.event_caps (s : State) (i j m : Nat) : (State.event s i j m).caps = s.caps := by simp [State.event]
@[simp] theorem State.addW_caps (s : State) (i j w k : Nat) : (State.addW s i j w k).caps = s.caps := by simp [State.addW]
@[simp] theorem State.cnt_caps (s : State) (i j : Nat) : (State.cnt s i j).caps = s.caps := by simp [State.cnt]
@[simp] theorem State.cntS_caps (s : State) (i j : Nat) : (State.cntS s i j).caps = s.caps := by simp [State.cntS]
@[simp] theorem State.addH_caps (s : State) (i j w k ei ej : Nat) : (State.addH s i j w k ei ej).caps = s.caps := by simp [State.addH]
@[simp] theorem State.cntH_caps (s : State) (i j ei ej : Nat) : (State.cntH s i j ei ej).caps = s.caps := by simp [State.cntH]
@[simp] theorem State.setByte_caps (s : State) (a : Nat) (b : Byte) : (State.setByte s a b).caps = s.caps := by simp [State.setByte]
@[simp] theorem State.setBytes_caps (s : State) (a : Nat) (x0 : List Byte) : (State.setBytes s a x0).caps = s.caps := by
  induction x0 generalizing s a <;> first | (simp_all [State.setBytes]; done) | (unfold State.setBytes; (repeat' split) <;> simp_all)
@[simp] theorem State.setW32_caps (s : State) (a v : Nat) : (State.setW32 s a v).caps = s.caps := by simp [State.setW32]
@[simp] theorem State.zeroRange_caps (s : State) (lo hi : Nat) : (State.zeroRange s lo hi).caps = s.caps := by simp [State.zeroRange]
@[simp] theorem State.enter_caps (s : State) (st : Nat) : (State.enter s st).caps = s.caps := by simp [State.enter]
@[simp] theorem State.errGeneric_caps (s : State) : (State.errGeneric s).caps = s.caps := by simp [State.errGeneric]
@[simp] theorem State.errBit_caps (s : State) (b : Nat) (on : Bool) : (State.errBit s b on).caps = s.caps := by simp [State.errBit]
@[simp] theorem State.holdLow_caps (s : State) : (State.holdLow s).caps = s.caps := by simp [State.holdLow]
@[simp] theorem State.hold_caps (s : State) (m : Nat) : (State.hold s m).caps = s.caps := by simp [State.hold]
@[simp] theorem State.unhold_caps (s : State) (m : Nat) : (State.unhold s m).caps = s.caps := by simp [State.unhold]
@[simp] theorem State.violate_caps (s : State) (id : Nat) : (State.violate s id).caps = s.caps := by simp [State.violate]
@[simp] theorem State.showAllowances_caps (s : State) : (State.showAllowances s).caps = s.caps := by
  first
  | (simp [State.showAllowances]; done)
  | (unfold State.showAllowances; (repeat' split) <;> (first | (simp; done) | (simp_all; done)))
  | (simp only [State.showAllowances]; (repeat' split) <;> (first | (simp; done) | (simp_all; done)))
  | (unfold State.showAllowances; (try dsimp only); refine foldl_caps _ (fun s a => ?_) _ _; (try dsimp only); (repeat' split) <;> (first | (simp; done) | (simp_all; done)))
@[simp] theorem State.admitRec_caps (s : State) (r : Rec) : (State.admitRec s r).caps = s.caps := by simp [State.admitRec]
@[simp] theorem State.record_caps (s : State) (typ : Nat) (body : List Byte) : (State.record s typ body).caps = s.caps := by simp [State.record]
@[simp] theorem State.setTdom_caps (s : State) (d : Nat) (x : TimeDom) : (State.setTdom s d x).caps = s.caps := by simp [State.setTdom]
@[simp] theorem State.setLaunch_caps (s : State) (k : Nat) (x : Launch) : (State.setLaunch s k x).caps = s.caps := by simp [State.setLaunch]
@[simp] theorem State.setDomVal_caps (s : State) (d v : Nat) : (State.setDomVal s d v).caps = s.caps := by simp [State.setDomVal]
@[simp] theorem State.setRing_caps (s : State) (n : Nat) (x : Ring) : (State.setRing s n x).caps = s.caps := by simp [State.setRing]
@[simp] theorem State.setTrack_caps (s : State) (t : Nat) (x : Track) : (State.setTrack s t x).caps = s.caps := by simp [State.setTrack]
@[simp] theorem State.setInst_caps (s : State) (n : Nat) (x : Inst) : (State.setInst s n x).caps = s.caps := by simp [State.setInst]
@[simp] theorem State.setDbe_caps (s : State) (a : Nat) (b : Bool) : (State.setDbe s a b).caps = s.caps := by simp [State.setDbe]
@[simp] theorem State.setSbe_caps (s : State) (a : Nat) (b : Bool) : (State.setSbe s a b).caps = s.caps := by simp [State.setSbe]
@[simp] theorem State.setChord_caps (s : State) (d : Nat) (x : Chord) : (State.setChord s d x).caps = s.caps := by simp [State.setChord]
@[simp] theorem State.setSw_caps (s : State) (f : Switch → Switch) : (State.setSw s f).caps = s.caps := by simp [State.setSw]
@[simp] theorem State.setQueue_caps (s : State) (st c : Nat) (l : List QEntry) : (State.setQueue s st c l).caps = s.caps := by simp [State.setQueue]
@[simp] theorem State.setFrame_caps (s : State) (f : Nat) (x : SwFrame) : (State.setFrame s f x).caps = s.caps := by simp [State.setFrame]
@[simp] theorem State.setUsed_caps (s : State) (st c u : Nat) : (State.setUsed s st c u).caps = s.caps := by simp [State.setUsed]
@[simp] theorem State.setGate_caps (s : State) (p : Nat) (g : GateCtl) : (State.setGate s p g).caps = s.caps := by simp [State.setGate]
@[simp] theorem State.setStream_caps (s : State) (h : Nat) (x : Stream) : (State.setStream s h x).caps = s.caps := by simp [State.setStream]
@[simp] theorem State.setSgate_caps (s : State) (g : Nat) (x : SGate) : (State.setSgate s g x).caps = s.caps := by simp [State.setSgate]
@[simp] theorem State.setMeter_caps (s : State) (m : Nat) (x : Meter) : (State.setMeter s m x).caps = s.caps := by simp [State.setMeter]
@[simp] theorem State.setCb_caps (s : State) (h : Nat) (x : Cb) : (State.setCb s h x).caps = s.caps := by simp [State.setCb]
@[simp] theorem State.setFdb_caps (s : State) (e : Nat) (x : FdbEntry) : (State.setFdb s e x).caps = s.caps := by simp [State.setFdb]
@[simp] theorem State.setMdio_caps (s : State) (m : Nat) (x : Mdio) : (State.setMdio s m x).caps = s.caps := by simp [State.setMdio]
@[simp] theorem State.setPps_caps (s : State) (i : Nat) (x : Pps) : (State.setPps s i x).caps = s.caps := by simp [State.setPps]
@[simp] theorem State.setEcho_caps (s : State) (n : Nat) (east : Bool) (x : Echo) : (State.setEcho s n east x).caps = s.caps := by simp [State.setEcho]
@[simp] theorem State.setSlotFetch_caps (s : State) (n k : Nat) (x : Nat × List Nib) : (State.setSlotFetch s n k x).caps = s.caps := by simp [State.setSlotFetch]
@[simp] theorem State.setStaged_caps (s : State) (n t : Nat) (l : List (Nat × List Byte)) : (State.setStaged s n t l).caps = s.caps := by simp [State.setStaged]
@[simp] theorem State.setLat_caps (s : State) (f : Lattice → Lattice) : (State.setLat s f).caps = s.caps := by simp [State.setLat]
@[simp] theorem State.setPio_caps (s : State) (b : Nat) (x : Pio) : (State.setPio s b x).caps = s.caps := by simp [State.setPio]
@[simp] theorem State.setSm_caps (s : State) (m : Nat) (x : Sm) : (State.setSm s m x).caps = s.caps := by simp [State.setSm]
@[simp] theorem State.setPioFlags_caps (s : State) (b v : Nat) : (State.setPioFlags s b v).caps = s.caps := by simp [State.setPioFlags]
@[simp] theorem State.setTrkS_caps (s : State) (t j v : Nat) : (State.setTrkS s t j v).caps = s.caps := by simp [State.setTrkS]
@[simp] theorem State.setCan_caps (s : State) (c : Nat) (x : Can) : (State.setCan s c x).caps = s.caps := by simp [State.setCan]
@[simp] theorem State.setBuf_caps (s : State) (c b lsb w v : Nat) : (State.setBuf s c b lsb w v).caps = s.caps := by simp [State.setBuf]
@[simp] theorem State.setBufState_caps (s : State) (c b v : Nat) : (State.setBufState s c b v).caps = s.caps := by simp [State.setBufState]
@[simp] theorem State.setCoreState_caps (s : State) (c v : Nat) : (State.setCoreState s c v).caps = s.caps := by simp [State.setCoreState]
@[simp] theorem State.setPc_caps (s : State) (c v : Nat) : (State.setPc s c v).caps = s.caps := by simp [State.setPc]
@[simp] theorem State.setSession_caps (s : State) (c : Nat) (x : Session) : (State.setSession s c x).caps = s.caps := by simp [State.setSession]
@[simp] theorem State.setDmaCh_caps (s : State) (k : Nat) (x : DmaCh) : (State.setDmaCh s k x).caps = s.caps := by simp [State.setDmaCh]
@[simp] theorem State.setPath_caps (s : State) (p : Path) (x : PathSt) : (State.setPath s p x).caps = s.caps := by simp [State.setPath]
@[simp] theorem State.setRecord_caps (s : State) (d : List Byte) (applied refused : Nat) : (State.setRecord s d applied refused).caps = s.caps := by simp [State.setRecord]
@[simp] theorem State.setNetSel_caps (s : State) (n conn v : Nat) : (State.setNetSel s n conn v).caps = s.caps := by simp [State.setNetSel]
/-! ### pps -/

@[simp] theorem ite_pps (c : Prop) [Decidable c] (a b : State) : (if c then a else b).pps = if c then a.pps else b.pps := apply_ite State.pps c a b
@[simp] theorem foldl_pps {α : Type} (f : State → α → State) (h : ∀ s a, (f s a).pps = s.pps) (l : List α) (s : State) : (l.foldl f s).pps = s.pps := by
  induction l generalizing s with
  | nil => rfl
  | cons x l ih => simp [ih, h]


@[simp] theorem State.wr_pps (s : State) (i j v : Nat) : (State.wr s i j v).pps = s.pps := by simp [State.wr]
@[simp] theorem State.wrD_pps (s : State) (i j : Nat) (v : DWord) : (State.wrD s i j v).pps = s.pps := by simp [State.wrD]
@[simp] theorem State.setBits_pps (s : State) (i j m : Nat) : (State.setBits s i j m).pps = s.pps := by simp [State.setBits]
@[simp] theorem State.clrBits_pps (s : State) (i j m : Nat) : (State.clrBits s i j m).pps = s.pps := by simp [State.clrBits]
@[simp] theorem State.putBits_pps (s : State) (i j m : Nat) (on : Bool) : (State.putBits s i j m on).pps = s.pps := by simp [State.putBits]
@[simp] theorem State.setBit_pps (s : State) (i j b : Nat) : (State.setBit s i j b).pps = s.pps := by simp [State.setBit]
@[simp] theorem State.emit_pps (s : State) (o : Out) : (State.emit s o).pps = s.pps := by simp [State.emit]
@[simp] theorem State.tick_pps (s : State) : (State.tick s).pps = s.pps := by simp [State.tick]
@[simp] theorem State.setEngine_pps (s : State) (c : Nat) (e : Engine) : (State.setEngine s c e).pps = s.pps := by simp [State.setEngine]
@[simp] theorem State.setChan_pps (s : State) (c : Nat) (m : Mbox) : (State.setChan s c m).pps = s.pps := by simp [State.setChan]
@[simp] theorem State.setPort_pps (s : State) (p : Nat) (x : Port) : (State.setPort s p x).pps = s.pps := by simp [State.setPort]
@[simp] theorem State.msix_pps (s : State) (v : Nat) : (State.msix s v).pps = s.pps := by simp [State.msix]
@[simp] theorem State.evpSet_pps (s : State) (c b : Nat) : (State.evpSet s c b).pps = s.pps := by simp [State.evpSet]
@[simp] theorem State.notify_pps (s : State) (r : Nat) : (State.notify s r).pps = s.pps := by simp [State.notify]
@[simp] theorem State.route_pps (s : State) (r : Nat) (statusWritten : Bool) : (State.route s r statusWritten).pps = s.pps := by simp [State.route]
@[simp] theorem State.event_pps (s : State) (i j m : Nat) : (State.event s i j m).pps = s.pps := by simp [State.event]
@[simp] theorem State.addW_pps (s : State) (i j w k : Nat) : (State.addW s i j w k).pps = s.pps := by simp [State.addW]
@[simp] theorem State.cnt_pps (s : State) (i j : Nat) : (State.cnt s i j).pps = s.pps := by simp [State.cnt]
@[simp] theorem State.cntS_pps (s : State) (i j : Nat) : (State.cntS s i j).pps = s.pps := by simp [State.cntS]
@[simp] theorem State.addH_pps (s : State) (i j w k ei ej : Nat) : (State.addH s i j w k ei ej).pps = s.pps := by simp [State.addH]
@[simp] theorem State.cntH_pps (s : State) (i j ei ej : Nat) : (State.cntH s i j ei ej).pps = s.pps := by simp [State.cntH]
@[simp] theorem State.setByte_pps (s : State) (a : Nat) (b : Byte) : (State.setByte s a b).pps = s.pps := by simp [State.setByte]
@[simp] theorem State.setBytes_pps (s : State) (a : Nat) (x0 : List Byte) : (State.setBytes s a x0).pps = s.pps := by
  induction x0 generalizing s a <;> first | (simp_all [State.setBytes]; done) | (unfold State.setBytes; (repeat' split) <;> simp_all)
@[simp] theorem State.setW32_pps (s : State) (a v : Nat) : (State.setW32 s a v).pps = s.pps := by simp [State.setW32]
@[simp] theorem State.zeroRange_pps (s : State) (lo hi : Nat) : (State.zeroRange s lo hi).pps = s.pps := by simp [State.zeroRange]
@[simp] theorem State.enter_pps (s : State) (st : Nat) : (State.enter s st).pps = s.pps := by simp [State.enter]
@[simp] theorem State.errGeneric_pps (s : State) : (State.errGeneric s).pps = s.pps := by simp [State.errGeneric]
@[simp] theorem State.errBit_pps (s : State) (b : Nat) (on : Bool) : (State.errBit s b on).pps = s.pps := by simp [State.errBit]
@[simp] theorem State.holdLow_pps (s : State) : (State.holdLow s).pps = s.pps := by simp [State.holdLow]
@[simp] theorem State.hold_pps (s : State) (m : Nat) : (State.hold s m).pps = s.pps := by simp [State.hold]
@[simp] theorem State.unhold_pps (s : State) (m : Nat) : (State.unhold s m).pps = s.pps := by simp [State.unhold]
@[simp] theorem State.violate_pps (s : State) (id : Nat) : (State.violate s id).pps = s.pps := by simp [State.violate]
@[simp] theorem State.showAllowances_pps (s : State) : (State.showAllowances s).pps = s.pps := by
  first
  | (simp [State.showAllowances]; done)
  | (unfold State.showAllowances; (repeat' split) <;> (first | (simp; done) | (simp_all; done)))
  | (simp only [State.showAllowances]; (repeat' split) <;> (first | (simp; done) | (simp_all; done)))
  | (unfold State.showAllowances; (try dsimp only); refine foldl_pps _ (fun s a => ?_) _ _; (try dsimp only); (repeat' split) <;> (first | (simp; done) | (simp_all; done)))
@[simp] theorem State.admitRec_pps (s : State) (r : Rec) : (State.admitRec s r).pps = s.pps := by simp [State.admitRec]
@[simp] theorem State.record_pps (s : State) (typ : Nat) (body : List Byte) : (State.record s typ body).pps = s.pps := by simp [State.record]
@[simp] theorem State.setTdom_pps (s : State) (d : Nat) (x : TimeDom) : (State.setTdom s d x).pps = s.pps := by simp [State.setTdom]
@[simp] theorem State.setLaunch_pps (s : State) (k : Nat) (x : Launch) : (State.setLaunch s k x).pps = s.pps := by simp [State.setLaunch]
@[simp] theorem State.setDomVal_pps (s : State) (d v : Nat) : (State.setDomVal s d v).pps = s.pps := by simp [State.setDomVal]
@[simp] theorem State.setRing_pps (s : State) (n : Nat) (x : Ring) : (State.setRing s n x).pps = s.pps := by simp [State.setRing]
@[simp] theorem State.setTrack_pps (s : State) (t : Nat) (x : Track) : (State.setTrack s t x).pps = s.pps := by simp [State.setTrack]
@[simp] theorem State.setInst_pps (s : State) (n : Nat) (x : Inst) : (State.setInst s n x).pps = s.pps := by simp [State.setInst]
@[simp] theorem State.setDbe_pps (s : State) (a : Nat) (b : Bool) : (State.setDbe s a b).pps = s.pps := by simp [State.setDbe]
@[simp] theorem State.setSbe_pps (s : State) (a : Nat) (b : Bool) : (State.setSbe s a b).pps = s.pps := by simp [State.setSbe]
@[simp] theorem State.setChord_pps (s : State) (d : Nat) (x : Chord) : (State.setChord s d x).pps = s.pps := by simp [State.setChord]
@[simp] theorem State.setSw_pps (s : State) (f : Switch → Switch) : (State.setSw s f).pps = s.pps := by simp [State.setSw]
@[simp] theorem State.setQueue_pps (s : State) (st c : Nat) (l : List QEntry) : (State.setQueue s st c l).pps = s.pps := by simp [State.setQueue]
@[simp] theorem State.setFrame_pps (s : State) (f : Nat) (x : SwFrame) : (State.setFrame s f x).pps = s.pps := by simp [State.setFrame]
@[simp] theorem State.setUsed_pps (s : State) (st c u : Nat) : (State.setUsed s st c u).pps = s.pps := by simp [State.setUsed]
@[simp] theorem State.setGate_pps (s : State) (p : Nat) (g : GateCtl) : (State.setGate s p g).pps = s.pps := by simp [State.setGate]
@[simp] theorem State.setStream_pps (s : State) (h : Nat) (x : Stream) : (State.setStream s h x).pps = s.pps := by simp [State.setStream]
@[simp] theorem State.setSgate_pps (s : State) (g : Nat) (x : SGate) : (State.setSgate s g x).pps = s.pps := by simp [State.setSgate]
@[simp] theorem State.setMeter_pps (s : State) (m : Nat) (x : Meter) : (State.setMeter s m x).pps = s.pps := by simp [State.setMeter]
@[simp] theorem State.setCb_pps (s : State) (h : Nat) (x : Cb) : (State.setCb s h x).pps = s.pps := by simp [State.setCb]
@[simp] theorem State.setFdb_pps (s : State) (e : Nat) (x : FdbEntry) : (State.setFdb s e x).pps = s.pps := by simp [State.setFdb]
@[simp] theorem State.setMdio_pps (s : State) (m : Nat) (x : Mdio) : (State.setMdio s m x).pps = s.pps := by simp [State.setMdio]
@[simp] theorem State.setEcho_pps (s : State) (n : Nat) (east : Bool) (x : Echo) : (State.setEcho s n east x).pps = s.pps := by simp [State.setEcho]
@[simp] theorem State.setSlotFetch_pps (s : State) (n k : Nat) (x : Nat × List Nib) : (State.setSlotFetch s n k x).pps = s.pps := by simp [State.setSlotFetch]
@[simp] theorem State.setStaged_pps (s : State) (n t : Nat) (l : List (Nat × List Byte)) : (State.setStaged s n t l).pps = s.pps := by simp [State.setStaged]
@[simp] theorem State.setLat_pps (s : State) (f : Lattice → Lattice) : (State.setLat s f).pps = s.pps := by simp [State.setLat]
@[simp] theorem State.setPio_pps (s : State) (b : Nat) (x : Pio) : (State.setPio s b x).pps = s.pps := by simp [State.setPio]
@[simp] theorem State.setSm_pps (s : State) (m : Nat) (x : Sm) : (State.setSm s m x).pps = s.pps := by simp [State.setSm]
@[simp] theorem State.setPioFlags_pps (s : State) (b v : Nat) : (State.setPioFlags s b v).pps = s.pps := by simp [State.setPioFlags]
@[simp] theorem State.setTrkS_pps (s : State) (t j v : Nat) : (State.setTrkS s t j v).pps = s.pps := by simp [State.setTrkS]
@[simp] theorem State.setCan_pps (s : State) (c : Nat) (x : Can) : (State.setCan s c x).pps = s.pps := by simp [State.setCan]
@[simp] theorem State.setBuf_pps (s : State) (c b lsb w v : Nat) : (State.setBuf s c b lsb w v).pps = s.pps := by simp [State.setBuf]
@[simp] theorem State.setBufState_pps (s : State) (c b v : Nat) : (State.setBufState s c b v).pps = s.pps := by simp [State.setBufState]
@[simp] theorem State.setCoreState_pps (s : State) (c v : Nat) : (State.setCoreState s c v).pps = s.pps := by simp [State.setCoreState]
@[simp] theorem State.setPc_pps (s : State) (c v : Nat) : (State.setPc s c v).pps = s.pps := by simp [State.setPc]
@[simp] theorem State.setSession_pps (s : State) (c : Nat) (x : Session) : (State.setSession s c x).pps = s.pps := by simp [State.setSession]
@[simp] theorem State.setDmaCh_pps (s : State) (k : Nat) (x : DmaCh) : (State.setDmaCh s k x).pps = s.pps := by simp [State.setDmaCh]
@[simp] theorem State.setPath_pps (s : State) (p : Path) (x : PathSt) : (State.setPath s p x).pps = s.pps := by simp [State.setPath]
@[simp] theorem State.setRecord_pps (s : State) (d : List Byte) (applied refused : Nat) : (State.setRecord s d applied refused).pps = s.pps := by simp [State.setRecord]
@[simp] theorem State.setNetSel_pps (s : State) (n conn v : Nat) : (State.setNetSel s n conn v).pps = s.pps := by simp [State.setNetSel]
/-! ### ticks -/

@[simp] theorem ite_ticks (c : Prop) [Decidable c] (a b : State) : (if c then a else b).ticks = if c then a.ticks else b.ticks := apply_ite State.ticks c a b
@[simp] theorem foldl_ticks {α : Type} (f : State → α → State) (h : ∀ s a, (f s a).ticks = s.ticks) (l : List α) (s : State) : (l.foldl f s).ticks = s.ticks := by
  induction l generalizing s with
  | nil => rfl
  | cons x l ih => simp [ih, h]


@[simp] theorem State.wr_ticks (s : State) (i j v : Nat) : (State.wr s i j v).ticks = s.ticks := by simp [State.wr]
@[simp] theorem State.wrD_ticks (s : State) (i j : Nat) (v : DWord) : (State.wrD s i j v).ticks = s.ticks := by simp [State.wrD]
@[simp] theorem State.setBits_ticks (s : State) (i j m : Nat) : (State.setBits s i j m).ticks = s.ticks := by simp [State.setBits]
@[simp] theorem State.clrBits_ticks (s : State) (i j m : Nat) : (State.clrBits s i j m).ticks = s.ticks := by simp [State.clrBits]
@[simp] theorem State.putBits_ticks (s : State) (i j m : Nat) (on : Bool) : (State.putBits s i j m on).ticks = s.ticks := by simp [State.putBits]
@[simp] theorem State.setBit_ticks (s : State) (i j b : Nat) : (State.setBit s i j b).ticks = s.ticks := by simp [State.setBit]
@[simp] theorem State.emit_ticks (s : State) (o : Out) : (State.emit s o).ticks = s.ticks := by simp [State.emit]
@[simp] theorem State.tick_ticks (s : State) : (State.tick s).ticks = s.ticks := by simp [State.tick]
@[simp] theorem State.setEngine_ticks (s : State) (c : Nat) (e : Engine) : (State.setEngine s c e).ticks = s.ticks := by simp [State.setEngine]
@[simp] theorem State.setChan_ticks (s : State) (c : Nat) (m : Mbox) : (State.setChan s c m).ticks = s.ticks := by simp [State.setChan]
@[simp] theorem State.setPort_ticks (s : State) (p : Nat) (x : Port) : (State.setPort s p x).ticks = s.ticks := by simp [State.setPort]
@[simp] theorem State.msix_ticks (s : State) (v : Nat) : (State.msix s v).ticks = s.ticks := by simp [State.msix]
@[simp] theorem State.evpSet_ticks (s : State) (c b : Nat) : (State.evpSet s c b).ticks = s.ticks := by simp [State.evpSet]
@[simp] theorem State.notify_ticks (s : State) (r : Nat) : (State.notify s r).ticks = s.ticks := by simp [State.notify]
@[simp] theorem State.route_ticks (s : State) (r : Nat) (statusWritten : Bool) : (State.route s r statusWritten).ticks = s.ticks := by simp [State.route]
@[simp] theorem State.event_ticks (s : State) (i j m : Nat) : (State.event s i j m).ticks = s.ticks := by simp [State.event]
@[simp] theorem State.addW_ticks (s : State) (i j w k : Nat) : (State.addW s i j w k).ticks = s.ticks := by simp [State.addW]
@[simp] theorem State.cnt_ticks (s : State) (i j : Nat) : (State.cnt s i j).ticks = s.ticks := by simp [State.cnt]
@[simp] theorem State.cntS_ticks (s : State) (i j : Nat) : (State.cntS s i j).ticks = s.ticks := by simp [State.cntS]
@[simp] theorem State.addH_ticks (s : State) (i j w k ei ej : Nat) : (State.addH s i j w k ei ej).ticks = s.ticks := by simp [State.addH]
@[simp] theorem State.cntH_ticks (s : State) (i j ei ej : Nat) : (State.cntH s i j ei ej).ticks = s.ticks := by simp [State.cntH]
@[simp] theorem State.setByte_ticks (s : State) (a : Nat) (b : Byte) : (State.setByte s a b).ticks = s.ticks := by simp [State.setByte]
@[simp] theorem State.setBytes_ticks (s : State) (a : Nat) (x0 : List Byte) : (State.setBytes s a x0).ticks = s.ticks := by
  induction x0 generalizing s a <;> first | (simp_all [State.setBytes]; done) | (unfold State.setBytes; (repeat' split) <;> simp_all)
@[simp] theorem State.setW32_ticks (s : State) (a v : Nat) : (State.setW32 s a v).ticks = s.ticks := by simp [State.setW32]
@[simp] theorem State.zeroRange_ticks (s : State) (lo hi : Nat) : (State.zeroRange s lo hi).ticks = s.ticks := by simp [State.zeroRange]
@[simp] theorem State.enter_ticks (s : State) (st : Nat) : (State.enter s st).ticks = s.ticks := by simp [State.enter]
@[simp] theorem State.errGeneric_ticks (s : State) : (State.errGeneric s).ticks = s.ticks := by simp [State.errGeneric]
@[simp] theorem State.errBit_ticks (s : State) (b : Nat) (on : Bool) : (State.errBit s b on).ticks = s.ticks := by simp [State.errBit]
@[simp] theorem State.holdLow_ticks (s : State) : (State.holdLow s).ticks = s.ticks := by simp [State.holdLow]
@[simp] theorem State.hold_ticks (s : State) (m : Nat) : (State.hold s m).ticks = s.ticks := by simp [State.hold]
@[simp] theorem State.unhold_ticks (s : State) (m : Nat) : (State.unhold s m).ticks = s.ticks := by simp [State.unhold]
@[simp] theorem State.violate_ticks (s : State) (id : Nat) : (State.violate s id).ticks = s.ticks := by simp [State.violate]
@[simp] theorem State.showAllowances_ticks (s : State) : (State.showAllowances s).ticks = s.ticks := by
  first
  | (simp [State.showAllowances]; done)
  | (unfold State.showAllowances; (repeat' split) <;> (first | (simp; done) | (simp_all; done)))
  | (simp only [State.showAllowances]; (repeat' split) <;> (first | (simp; done) | (simp_all; done)))
  | (unfold State.showAllowances; (try dsimp only); refine foldl_ticks _ (fun s a => ?_) _ _; (try dsimp only); (repeat' split) <;> (first | (simp; done) | (simp_all; done)))
@[simp] theorem State.admitRec_ticks (s : State) (r : Rec) : (State.admitRec s r).ticks = s.ticks := by simp [State.admitRec]
@[simp] theorem State.record_ticks (s : State) (typ : Nat) (body : List Byte) : (State.record s typ body).ticks = s.ticks := by simp [State.record]
@[simp] theorem State.setTdom_ticks (s : State) (d : Nat) (x : TimeDom) : (State.setTdom s d x).ticks = s.ticks := by simp [State.setTdom]
@[simp] theorem State.setLaunch_ticks (s : State) (k : Nat) (x : Launch) : (State.setLaunch s k x).ticks = s.ticks := by simp [State.setLaunch]
@[simp] theorem State.setDomVal_ticks (s : State) (d v : Nat) : (State.setDomVal s d v).ticks = s.ticks := by simp [State.setDomVal]
@[simp] theorem State.setRing_ticks (s : State) (n : Nat) (x : Ring) : (State.setRing s n x).ticks = s.ticks := by simp [State.setRing]
@[simp] theorem State.setTrack_ticks (s : State) (t : Nat) (x : Track) : (State.setTrack s t x).ticks = s.ticks := by simp [State.setTrack]
@[simp] theorem State.setInst_ticks (s : State) (n : Nat) (x : Inst) : (State.setInst s n x).ticks = s.ticks := by simp [State.setInst]
@[simp] theorem State.setDbe_ticks (s : State) (a : Nat) (b : Bool) : (State.setDbe s a b).ticks = s.ticks := by simp [State.setDbe]
@[simp] theorem State.setSbe_ticks (s : State) (a : Nat) (b : Bool) : (State.setSbe s a b).ticks = s.ticks := by simp [State.setSbe]
@[simp] theorem State.setChord_ticks (s : State) (d : Nat) (x : Chord) : (State.setChord s d x).ticks = s.ticks := by simp [State.setChord]
@[simp] theorem State.setSw_ticks (s : State) (f : Switch → Switch) : (State.setSw s f).ticks = s.ticks := by simp [State.setSw]
@[simp] theorem State.setQueue_ticks (s : State) (st c : Nat) (l : List QEntry) : (State.setQueue s st c l).ticks = s.ticks := by simp [State.setQueue]
@[simp] theorem State.setFrame_ticks (s : State) (f : Nat) (x : SwFrame) : (State.setFrame s f x).ticks = s.ticks := by simp [State.setFrame]
@[simp] theorem State.setUsed_ticks (s : State) (st c u : Nat) : (State.setUsed s st c u).ticks = s.ticks := by simp [State.setUsed]
@[simp] theorem State.setGate_ticks (s : State) (p : Nat) (g : GateCtl) : (State.setGate s p g).ticks = s.ticks := by simp [State.setGate]
@[simp] theorem State.setStream_ticks (s : State) (h : Nat) (x : Stream) : (State.setStream s h x).ticks = s.ticks := by simp [State.setStream]
@[simp] theorem State.setSgate_ticks (s : State) (g : Nat) (x : SGate) : (State.setSgate s g x).ticks = s.ticks := by simp [State.setSgate]
@[simp] theorem State.setMeter_ticks (s : State) (m : Nat) (x : Meter) : (State.setMeter s m x).ticks = s.ticks := by simp [State.setMeter]
@[simp] theorem State.setCb_ticks (s : State) (h : Nat) (x : Cb) : (State.setCb s h x).ticks = s.ticks := by simp [State.setCb]
@[simp] theorem State.setFdb_ticks (s : State) (e : Nat) (x : FdbEntry) : (State.setFdb s e x).ticks = s.ticks := by simp [State.setFdb]
@[simp] theorem State.setMdio_ticks (s : State) (m : Nat) (x : Mdio) : (State.setMdio s m x).ticks = s.ticks := by simp [State.setMdio]
@[simp] theorem State.setPps_ticks (s : State) (i : Nat) (x : Pps) : (State.setPps s i x).ticks = s.ticks := by simp [State.setPps]
@[simp] theorem State.setEcho_ticks (s : State) (n : Nat) (east : Bool) (x : Echo) : (State.setEcho s n east x).ticks = s.ticks := by simp [State.setEcho]
@[simp] theorem State.setSlotFetch_ticks (s : State) (n k : Nat) (x : Nat × List Nib) : (State.setSlotFetch s n k x).ticks = s.ticks := by simp [State.setSlotFetch]
@[simp] theorem State.setStaged_ticks (s : State) (n t : Nat) (l : List (Nat × List Byte)) : (State.setStaged s n t l).ticks = s.ticks := by simp [State.setStaged]
@[simp] theorem State.setLat_ticks (s : State) (f : Lattice → Lattice) : (State.setLat s f).ticks = s.ticks := by simp [State.setLat]
@[simp] theorem State.setPio_ticks (s : State) (b : Nat) (x : Pio) : (State.setPio s b x).ticks = s.ticks := by simp [State.setPio]
@[simp] theorem State.setSm_ticks (s : State) (m : Nat) (x : Sm) : (State.setSm s m x).ticks = s.ticks := by simp [State.setSm]
@[simp] theorem State.setPioFlags_ticks (s : State) (b v : Nat) : (State.setPioFlags s b v).ticks = s.ticks := by simp [State.setPioFlags]
@[simp] theorem State.setTrkS_ticks (s : State) (t j v : Nat) : (State.setTrkS s t j v).ticks = s.ticks := by simp [State.setTrkS]
@[simp] theorem State.setCan_ticks (s : State) (c : Nat) (x : Can) : (State.setCan s c x).ticks = s.ticks := by simp [State.setCan]
@[simp] theorem State.setBuf_ticks (s : State) (c b lsb w v : Nat) : (State.setBuf s c b lsb w v).ticks = s.ticks := by simp [State.setBuf]
@[simp] theorem State.setBufState_ticks (s : State) (c b v : Nat) : (State.setBufState s c b v).ticks = s.ticks := by simp [State.setBufState]
@[simp] theorem State.setCoreState_ticks (s : State) (c v : Nat) : (State.setCoreState s c v).ticks = s.ticks := by simp [State.setCoreState]
@[simp] theorem State.setPc_ticks (s : State) (c v : Nat) : (State.setPc s c v).ticks = s.ticks := by simp [State.setPc]
@[simp] theorem State.setSession_ticks (s : State) (c : Nat) (x : Session) : (State.setSession s c x).ticks = s.ticks := by simp [State.setSession]
@[simp] theorem State.setDmaCh_ticks (s : State) (k : Nat) (x : DmaCh) : (State.setDmaCh s k x).ticks = s.ticks := by simp [State.setDmaCh]
@[simp] theorem State.setPath_ticks (s : State) (p : Path) (x : PathSt) : (State.setPath s p x).ticks = s.ticks := by simp [State.setPath]
@[simp] theorem State.setRecord_ticks (s : State) (d : List Byte) (applied refused : Nat) : (State.setRecord s d applied refused).ticks = s.ticks := by simp [State.setRecord]
@[simp] theorem State.setNetSel_ticks (s : State) (n conn v : Nat) : (State.setNetSel s n conn v).ticks = s.ticks := by simp [State.setNetSel]
/-! ### ports -/

@[simp] theorem ite_ports (c : Prop) [Decidable c] (a b : State) : (if c then a else b).ports = if c then a.ports else b.ports := apply_ite State.ports c a b
@[simp] theorem foldl_ports {α : Type} (f : State → α → State) (h : ∀ s a, (f s a).ports = s.ports) (l : List α) (s : State) : (l.foldl f s).ports = s.ports := by
  induction l generalizing s with
  | nil => rfl
  | cons x l ih => simp [ih, h]


@[simp] theorem State.wr_ports (s : State) (i j v : Nat) : (State.wr s i j v).ports = s.ports := by simp [State.wr]
@[simp] theorem State.wrD_ports (s : State) (i j : Nat) (v : DWord) : (State.wrD s i j v).ports = s.ports := by simp [State.wrD]
@[simp] theorem State.setBits_ports (s : State) (i j m : Nat) : (State.setBits s i j m).ports = s.ports := by simp [State.setBits]
@[simp] theorem State.clrBits_ports (s : State) (i j m : Nat) : (State.clrBits s i j m).ports = s.ports := by simp [State.clrBits]
@[simp] theorem State.putBits_ports (s : State) (i j m : Nat) (on : Bool) : (State.putBits s i j m on).ports = s.ports := by simp [State.putBits]
@[simp] theorem State.setBit_ports (s : State) (i j b : Nat) : (State.setBit s i j b).ports = s.ports := by simp [State.setBit]
@[simp] theorem State.emit_ports (s : State) (o : Out) : (State.emit s o).ports = s.ports := by simp [State.emit]
@[simp] theorem State.tick_ports (s : State) : (State.tick s).ports = s.ports := by simp [State.tick]
@[simp] theorem State.setEngine_ports (s : State) (c : Nat) (e : Engine) : (State.setEngine s c e).ports = s.ports := by simp [State.setEngine]
@[simp] theorem State.setChan_ports (s : State) (c : Nat) (m : Mbox) : (State.setChan s c m).ports = s.ports := by simp [State.setChan]
@[simp] theorem State.msix_ports (s : State) (v : Nat) : (State.msix s v).ports = s.ports := by simp [State.msix]
@[simp] theorem State.evpSet_ports (s : State) (c b : Nat) : (State.evpSet s c b).ports = s.ports := by simp [State.evpSet]
@[simp] theorem State.notify_ports (s : State) (r : Nat) : (State.notify s r).ports = s.ports := by simp [State.notify]
@[simp] theorem State.route_ports (s : State) (r : Nat) (statusWritten : Bool) : (State.route s r statusWritten).ports = s.ports := by simp [State.route]
@[simp] theorem State.event_ports (s : State) (i j m : Nat) : (State.event s i j m).ports = s.ports := by simp [State.event]
@[simp] theorem State.addW_ports (s : State) (i j w k : Nat) : (State.addW s i j w k).ports = s.ports := by simp [State.addW]
@[simp] theorem State.cnt_ports (s : State) (i j : Nat) : (State.cnt s i j).ports = s.ports := by simp [State.cnt]
@[simp] theorem State.cntS_ports (s : State) (i j : Nat) : (State.cntS s i j).ports = s.ports := by simp [State.cntS]
@[simp] theorem State.addH_ports (s : State) (i j w k ei ej : Nat) : (State.addH s i j w k ei ej).ports = s.ports := by simp [State.addH]
@[simp] theorem State.cntH_ports (s : State) (i j ei ej : Nat) : (State.cntH s i j ei ej).ports = s.ports := by simp [State.cntH]
@[simp] theorem State.setByte_ports (s : State) (a : Nat) (b : Byte) : (State.setByte s a b).ports = s.ports := by simp [State.setByte]
@[simp] theorem State.setBytes_ports (s : State) (a : Nat) (x0 : List Byte) : (State.setBytes s a x0).ports = s.ports := by
  induction x0 generalizing s a <;> first | (simp_all [State.setBytes]; done) | (unfold State.setBytes; (repeat' split) <;> simp_all)
@[simp] theorem State.setW32_ports (s : State) (a v : Nat) : (State.setW32 s a v).ports = s.ports := by simp [State.setW32]
@[simp] theorem State.zeroRange_ports (s : State) (lo hi : Nat) : (State.zeroRange s lo hi).ports = s.ports := by simp [State.zeroRange]
@[simp] theorem State.enter_ports (s : State) (st : Nat) : (State.enter s st).ports = s.ports := by simp [State.enter]
@[simp] theorem State.errGeneric_ports (s : State) : (State.errGeneric s).ports = s.ports := by simp [State.errGeneric]
@[simp] theorem State.errBit_ports (s : State) (b : Nat) (on : Bool) : (State.errBit s b on).ports = s.ports := by simp [State.errBit]
@[simp] theorem State.holdLow_ports (s : State) : (State.holdLow s).ports = s.ports := by simp [State.holdLow]
@[simp] theorem State.hold_ports (s : State) (m : Nat) : (State.hold s m).ports = s.ports := by simp [State.hold]
@[simp] theorem State.unhold_ports (s : State) (m : Nat) : (State.unhold s m).ports = s.ports := by simp [State.unhold]
@[simp] theorem State.violate_ports (s : State) (id : Nat) : (State.violate s id).ports = s.ports := by simp [State.violate]
@[simp] theorem State.showAllowances_ports (s : State) : (State.showAllowances s).ports = s.ports := by
  first
  | (simp [State.showAllowances]; done)
  | (unfold State.showAllowances; (repeat' split) <;> (first | (simp; done) | (simp_all; done)))
  | (simp only [State.showAllowances]; (repeat' split) <;> (first | (simp; done) | (simp_all; done)))
  | (unfold State.showAllowances; (try dsimp only); refine foldl_ports _ (fun s a => ?_) _ _; (try dsimp only); (repeat' split) <;> (first | (simp; done) | (simp_all; done)))
@[simp] theorem State.admitRec_ports (s : State) (r : Rec) : (State.admitRec s r).ports = s.ports := by simp [State.admitRec]
@[simp] theorem State.record_ports (s : State) (typ : Nat) (body : List Byte) : (State.record s typ body).ports = s.ports := by simp [State.record]
@[simp] theorem State.setTdom_ports (s : State) (d : Nat) (x : TimeDom) : (State.setTdom s d x).ports = s.ports := by simp [State.setTdom]
@[simp] theorem State.setLaunch_ports (s : State) (k : Nat) (x : Launch) : (State.setLaunch s k x).ports = s.ports := by simp [State.setLaunch]
@[simp] theorem State.setDomVal_ports (s : State) (d v : Nat) : (State.setDomVal s d v).ports = s.ports := by simp [State.setDomVal]
@[simp] theorem State.setRing_ports (s : State) (n : Nat) (x : Ring) : (State.setRing s n x).ports = s.ports := by simp [State.setRing]
@[simp] theorem State.setTrack_ports (s : State) (t : Nat) (x : Track) : (State.setTrack s t x).ports = s.ports := by simp [State.setTrack]
@[simp] theorem State.setInst_ports (s : State) (n : Nat) (x : Inst) : (State.setInst s n x).ports = s.ports := by simp [State.setInst]
@[simp] theorem State.setDbe_ports (s : State) (a : Nat) (b : Bool) : (State.setDbe s a b).ports = s.ports := by simp [State.setDbe]
@[simp] theorem State.setSbe_ports (s : State) (a : Nat) (b : Bool) : (State.setSbe s a b).ports = s.ports := by simp [State.setSbe]
@[simp] theorem State.setChord_ports (s : State) (d : Nat) (x : Chord) : (State.setChord s d x).ports = s.ports := by simp [State.setChord]
@[simp] theorem State.setSw_ports (s : State) (f : Switch → Switch) : (State.setSw s f).ports = s.ports := by simp [State.setSw]
@[simp] theorem State.setQueue_ports (s : State) (st c : Nat) (l : List QEntry) : (State.setQueue s st c l).ports = s.ports := by simp [State.setQueue]
@[simp] theorem State.setFrame_ports (s : State) (f : Nat) (x : SwFrame) : (State.setFrame s f x).ports = s.ports := by simp [State.setFrame]
@[simp] theorem State.setUsed_ports (s : State) (st c u : Nat) : (State.setUsed s st c u).ports = s.ports := by simp [State.setUsed]
@[simp] theorem State.setGate_ports (s : State) (p : Nat) (g : GateCtl) : (State.setGate s p g).ports = s.ports := by simp [State.setGate]
@[simp] theorem State.setStream_ports (s : State) (h : Nat) (x : Stream) : (State.setStream s h x).ports = s.ports := by simp [State.setStream]
@[simp] theorem State.setSgate_ports (s : State) (g : Nat) (x : SGate) : (State.setSgate s g x).ports = s.ports := by simp [State.setSgate]
@[simp] theorem State.setMeter_ports (s : State) (m : Nat) (x : Meter) : (State.setMeter s m x).ports = s.ports := by simp [State.setMeter]
@[simp] theorem State.setCb_ports (s : State) (h : Nat) (x : Cb) : (State.setCb s h x).ports = s.ports := by simp [State.setCb]
@[simp] theorem State.setFdb_ports (s : State) (e : Nat) (x : FdbEntry) : (State.setFdb s e x).ports = s.ports := by simp [State.setFdb]
@[simp] theorem State.setMdio_ports (s : State) (m : Nat) (x : Mdio) : (State.setMdio s m x).ports = s.ports := by simp [State.setMdio]
@[simp] theorem State.setPps_ports (s : State) (i : Nat) (x : Pps) : (State.setPps s i x).ports = s.ports := by simp [State.setPps]
@[simp] theorem State.setEcho_ports (s : State) (n : Nat) (east : Bool) (x : Echo) : (State.setEcho s n east x).ports = s.ports := by simp [State.setEcho]
@[simp] theorem State.setSlotFetch_ports (s : State) (n k : Nat) (x : Nat × List Nib) : (State.setSlotFetch s n k x).ports = s.ports := by simp [State.setSlotFetch]
@[simp] theorem State.setStaged_ports (s : State) (n t : Nat) (l : List (Nat × List Byte)) : (State.setStaged s n t l).ports = s.ports := by simp [State.setStaged]
@[simp] theorem State.setLat_ports (s : State) (f : Lattice → Lattice) : (State.setLat s f).ports = s.ports := by simp [State.setLat]
@[simp] theorem State.setPio_ports (s : State) (b : Nat) (x : Pio) : (State.setPio s b x).ports = s.ports := by simp [State.setPio]
@[simp] theorem State.setSm_ports (s : State) (m : Nat) (x : Sm) : (State.setSm s m x).ports = s.ports := by simp [State.setSm]
@[simp] theorem State.setPioFlags_ports (s : State) (b v : Nat) : (State.setPioFlags s b v).ports = s.ports := by simp [State.setPioFlags]
@[simp] theorem State.setTrkS_ports (s : State) (t j v : Nat) : (State.setTrkS s t j v).ports = s.ports := by simp [State.setTrkS]
@[simp] theorem State.setCan_ports (s : State) (c : Nat) (x : Can) : (State.setCan s c x).ports = s.ports := by simp [State.setCan]
@[simp] theorem State.setBuf_ports (s : State) (c b lsb w v : Nat) : (State.setBuf s c b lsb w v).ports = s.ports := by simp [State.setBuf]
@[simp] theorem State.setBufState_ports (s : State) (c b v : Nat) : (State.setBufState s c b v).ports = s.ports := by simp [State.setBufState]
@[simp] theorem State.setCoreState_ports (s : State) (c v : Nat) : (State.setCoreState s c v).ports = s.ports := by simp [State.setCoreState]
@[simp] theorem State.setPc_ports (s : State) (c v : Nat) : (State.setPc s c v).ports = s.ports := by simp [State.setPc]
@[simp] theorem State.setSession_ports (s : State) (c : Nat) (x : Session) : (State.setSession s c x).ports = s.ports := by simp [State.setSession]
@[simp] theorem State.setDmaCh_ports (s : State) (k : Nat) (x : DmaCh) : (State.setDmaCh s k x).ports = s.ports := by simp [State.setDmaCh]
@[simp] theorem State.setPath_ports (s : State) (p : Path) (x : PathSt) : (State.setPath s p x).ports = s.ports := by simp [State.setPath]
@[simp] theorem State.setRecord_ports (s : State) (d : List Byte) (applied refused : Nat) : (State.setRecord s d applied refused).ports = s.ports := by simp [State.setRecord]
@[simp] theorem State.setNetSel_ports (s : State) (n conn v : Nat) : (State.setNetSel s n conn v).ports = s.ports := by simp [State.setNetSel]
/-! ### sw -/

@[simp] theorem ite_sw (c : Prop) [Decidable c] (a b : State) : (if c then a else b).sw = if c then a.sw else b.sw := apply_ite State.sw c a b
@[simp] theorem foldl_sw {α : Type} (f : State → α → State) (h : ∀ s a, (f s a).sw = s.sw) (l : List α) (s : State) : (l.foldl f s).sw = s.sw := by
  induction l generalizing s with
  | nil => rfl
  | cons x l ih => simp [ih, h]


@[simp] theorem State.wr_sw (s : State) (i j v : Nat) : (State.wr s i j v).sw = s.sw := by simp [State.wr]
@[simp] theorem State.wrD_sw (s : State) (i j : Nat) (v : DWord) : (State.wrD s i j v).sw = s.sw := by simp [State.wrD]
@[simp] theorem State.setBits_sw (s : State) (i j m : Nat) : (State.setBits s i j m).sw = s.sw := by simp [State.setBits]
@[simp] theorem State.clrBits_sw (s : State) (i j m : Nat) : (State.clrBits s i j m).sw = s.sw := by simp [State.clrBits]
@[simp] theorem State.putBits_sw (s : State) (i j m : Nat) (on : Bool) : (State.putBits s i j m on).sw = s.sw := by simp [State.putBits]
@[simp] theorem State.setBit_sw (s : State) (i j b : Nat) : (State.setBit s i j b).sw = s.sw := by simp [State.setBit]
@[simp] theorem State.emit_sw (s : State) (o : Out) : (State.emit s o).sw = s.sw := by simp [State.emit]
@[simp] theorem State.tick_sw (s : State) : (State.tick s).sw = s.sw := by simp [State.tick]
@[simp] theorem State.setEngine_sw (s : State) (c : Nat) (e : Engine) : (State.setEngine s c e).sw = s.sw := by simp [State.setEngine]
@[simp] theorem State.setChan_sw (s : State) (c : Nat) (m : Mbox) : (State.setChan s c m).sw = s.sw := by simp [State.setChan]
@[simp] theorem State.setPort_sw (s : State) (p : Nat) (x : Port) : (State.setPort s p x).sw = s.sw := by simp [State.setPort]
@[simp] theorem State.msix_sw (s : State) (v : Nat) : (State.msix s v).sw = s.sw := by simp [State.msix]
@[simp] theorem State.evpSet_sw (s : State) (c b : Nat) : (State.evpSet s c b).sw = s.sw := by simp [State.evpSet]
@[simp] theorem State.notify_sw (s : State) (r : Nat) : (State.notify s r).sw = s.sw := by simp [State.notify]
@[simp] theorem State.route_sw (s : State) (r : Nat) (statusWritten : Bool) : (State.route s r statusWritten).sw = s.sw := by simp [State.route]
@[simp] theorem State.event_sw (s : State) (i j m : Nat) : (State.event s i j m).sw = s.sw := by simp [State.event]
@[simp] theorem State.addW_sw (s : State) (i j w k : Nat) : (State.addW s i j w k).sw = s.sw := by simp [State.addW]
@[simp] theorem State.cnt_sw (s : State) (i j : Nat) : (State.cnt s i j).sw = s.sw := by simp [State.cnt]
@[simp] theorem State.cntS_sw (s : State) (i j : Nat) : (State.cntS s i j).sw = s.sw := by simp [State.cntS]
@[simp] theorem State.addH_sw (s : State) (i j w k ei ej : Nat) : (State.addH s i j w k ei ej).sw = s.sw := by simp [State.addH]
@[simp] theorem State.cntH_sw (s : State) (i j ei ej : Nat) : (State.cntH s i j ei ej).sw = s.sw := by simp [State.cntH]
@[simp] theorem State.setByte_sw (s : State) (a : Nat) (b : Byte) : (State.setByte s a b).sw = s.sw := by simp [State.setByte]
@[simp] theorem State.setBytes_sw (s : State) (a : Nat) (x0 : List Byte) : (State.setBytes s a x0).sw = s.sw := by
  induction x0 generalizing s a <;> first | (simp_all [State.setBytes]; done) | (unfold State.setBytes; (repeat' split) <;> simp_all)
@[simp] theorem State.setW32_sw (s : State) (a v : Nat) : (State.setW32 s a v).sw = s.sw := by simp [State.setW32]
@[simp] theorem State.zeroRange_sw (s : State) (lo hi : Nat) : (State.zeroRange s lo hi).sw = s.sw := by simp [State.zeroRange]
@[simp] theorem State.enter_sw (s : State) (st : Nat) : (State.enter s st).sw = s.sw := by simp [State.enter]
@[simp] theorem State.errGeneric_sw (s : State) : (State.errGeneric s).sw = s.sw := by simp [State.errGeneric]
@[simp] theorem State.errBit_sw (s : State) (b : Nat) (on : Bool) : (State.errBit s b on).sw = s.sw := by simp [State.errBit]
@[simp] theorem State.holdLow_sw (s : State) : (State.holdLow s).sw = s.sw := by simp [State.holdLow]
@[simp] theorem State.hold_sw (s : State) (m : Nat) : (State.hold s m).sw = s.sw := by simp [State.hold]
@[simp] theorem State.unhold_sw (s : State) (m : Nat) : (State.unhold s m).sw = s.sw := by simp [State.unhold]
@[simp] theorem State.violate_sw (s : State) (id : Nat) : (State.violate s id).sw = s.sw := by simp [State.violate]
@[simp] theorem State.showAllowances_sw (s : State) : (State.showAllowances s).sw = s.sw := by
  first
  | (simp [State.showAllowances]; done)
  | (unfold State.showAllowances; (repeat' split) <;> (first | (simp; done) | (simp_all; done)))
  | (simp only [State.showAllowances]; (repeat' split) <;> (first | (simp; done) | (simp_all; done)))
  | (unfold State.showAllowances; (try dsimp only); refine foldl_sw _ (fun s a => ?_) _ _; (try dsimp only); (repeat' split) <;> (first | (simp; done) | (simp_all; done)))
@[simp] theorem State.admitRec_sw (s : State) (r : Rec) : (State.admitRec s r).sw = s.sw := by simp [State.admitRec]
@[simp] theorem State.record_sw (s : State) (typ : Nat) (body : List Byte) : (State.record s typ body).sw = s.sw := by simp [State.record]
@[simp] theorem State.setTdom_sw (s : State) (d : Nat) (x : TimeDom) : (State.setTdom s d x).sw = s.sw := by simp [State.setTdom]
@[simp] theorem State.setLaunch_sw (s : State) (k : Nat) (x : Launch) : (State.setLaunch s k x).sw = s.sw := by simp [State.setLaunch]
@[simp] theorem State.setDomVal_sw (s : State) (d v : Nat) : (State.setDomVal s d v).sw = s.sw := by simp [State.setDomVal]
@[simp] theorem State.setRing_sw (s : State) (n : Nat) (x : Ring) : (State.setRing s n x).sw = s.sw := by simp [State.setRing]
@[simp] theorem State.setTrack_sw (s : State) (t : Nat) (x : Track) : (State.setTrack s t x).sw = s.sw := by simp [State.setTrack]
@[simp] theorem State.setInst_sw (s : State) (n : Nat) (x : Inst) : (State.setInst s n x).sw = s.sw := by simp [State.setInst]
@[simp] theorem State.setDbe_sw (s : State) (a : Nat) (b : Bool) : (State.setDbe s a b).sw = s.sw := by simp [State.setDbe]
@[simp] theorem State.setSbe_sw (s : State) (a : Nat) (b : Bool) : (State.setSbe s a b).sw = s.sw := by simp [State.setSbe]
@[simp] theorem State.setChord_sw (s : State) (d : Nat) (x : Chord) : (State.setChord s d x).sw = s.sw := by simp [State.setChord]
@[simp] theorem State.setUsed_sw (s : State) (st c u : Nat) : (State.setUsed s st c u).sw = s.sw := by simp [State.setUsed]
@[simp] theorem State.setMdio_sw (s : State) (m : Nat) (x : Mdio) : (State.setMdio s m x).sw = s.sw := by simp [State.setMdio]
@[simp] theorem State.setPps_sw (s : State) (i : Nat) (x : Pps) : (State.setPps s i x).sw = s.sw := by simp [State.setPps]
@[simp] theorem State.setEcho_sw (s : State) (n : Nat) (east : Bool) (x : Echo) : (State.setEcho s n east x).sw = s.sw := by simp [State.setEcho]
@[simp] theorem State.setSlotFetch_sw (s : State) (n k : Nat) (x : Nat × List Nib) : (State.setSlotFetch s n k x).sw = s.sw := by simp [State.setSlotFetch]
@[simp] theorem State.setStaged_sw (s : State) (n t : Nat) (l : List (Nat × List Byte)) : (State.setStaged s n t l).sw = s.sw := by simp [State.setStaged]
@[simp] theorem State.setLat_sw (s : State) (f : Lattice → Lattice) : (State.setLat s f).sw = s.sw := by simp [State.setLat]
@[simp] theorem State.setPio_sw (s : State) (b : Nat) (x : Pio) : (State.setPio s b x).sw = s.sw := by simp [State.setPio]
@[simp] theorem State.setSm_sw (s : State) (m : Nat) (x : Sm) : (State.setSm s m x).sw = s.sw := by simp [State.setSm]
@[simp] theorem State.setPioFlags_sw (s : State) (b v : Nat) : (State.setPioFlags s b v).sw = s.sw := by simp [State.setPioFlags]
@[simp] theorem State.setTrkS_sw (s : State) (t j v : Nat) : (State.setTrkS s t j v).sw = s.sw := by simp [State.setTrkS]
@[simp] theorem State.setCan_sw (s : State) (c : Nat) (x : Can) : (State.setCan s c x).sw = s.sw := by simp [State.setCan]
@[simp] theorem State.setBuf_sw (s : State) (c b lsb w v : Nat) : (State.setBuf s c b lsb w v).sw = s.sw := by simp [State.setBuf]
@[simp] theorem State.setBufState_sw (s : State) (c b v : Nat) : (State.setBufState s c b v).sw = s.sw := by simp [State.setBufState]
@[simp] theorem State.setCoreState_sw (s : State) (c v : Nat) : (State.setCoreState s c v).sw = s.sw := by simp [State.setCoreState]
@[simp] theorem State.setPc_sw (s : State) (c v : Nat) : (State.setPc s c v).sw = s.sw := by simp [State.setPc]
@[simp] theorem State.setSession_sw (s : State) (c : Nat) (x : Session) : (State.setSession s c x).sw = s.sw := by simp [State.setSession]
@[simp] theorem State.setDmaCh_sw (s : State) (k : Nat) (x : DmaCh) : (State.setDmaCh s k x).sw = s.sw := by simp [State.setDmaCh]
@[simp] theorem State.setPath_sw (s : State) (p : Path) (x : PathSt) : (State.setPath s p x).sw = s.sw := by simp [State.setPath]
@[simp] theorem State.setRecord_sw (s : State) (d : List Byte) (applied refused : Nat) : (State.setRecord s d applied refused).sw = s.sw := by simp [State.setRecord]
@[simp] theorem State.setNetSel_sw (s : State) (n conn v : Nat) : (State.setNetSel s n conn v).sw = s.sw := by simp [State.setNetSel]
/-! ### chord -/

@[simp] theorem ite_chord (c : Prop) [Decidable c] (a b : State) : (if c then a else b).chord = if c then a.chord else b.chord := apply_ite State.chord c a b
@[simp] theorem foldl_chord {α : Type} (f : State → α → State) (h : ∀ s a, (f s a).chord = s.chord) (l : List α) (s : State) : (l.foldl f s).chord = s.chord := by
  induction l generalizing s with
  | nil => rfl
  | cons x l ih => simp [ih, h]


@[simp] theorem State.wr_chord (s : State) (i j v : Nat) : (State.wr s i j v).chord = s.chord := by simp [State.wr]
@[simp] theorem State.wrD_chord (s : State) (i j : Nat) (v : DWord) : (State.wrD s i j v).chord = s.chord := by simp [State.wrD]
@[simp] theorem State.setBits_chord (s : State) (i j m : Nat) : (State.setBits s i j m).chord = s.chord := by simp [State.setBits]
@[simp] theorem State.clrBits_chord (s : State) (i j m : Nat) : (State.clrBits s i j m).chord = s.chord := by simp [State.clrBits]
@[simp] theorem State.putBits_chord (s : State) (i j m : Nat) (on : Bool) : (State.putBits s i j m on).chord = s.chord := by simp [State.putBits]
@[simp] theorem State.setBit_chord (s : State) (i j b : Nat) : (State.setBit s i j b).chord = s.chord := by simp [State.setBit]
@[simp] theorem State.emit_chord (s : State) (o : Out) : (State.emit s o).chord = s.chord := by simp [State.emit]
@[simp] theorem State.tick_chord (s : State) : (State.tick s).chord = s.chord := by simp [State.tick]
@[simp] theorem State.setEngine_chord (s : State) (c : Nat) (e : Engine) : (State.setEngine s c e).chord = s.chord := by simp [State.setEngine]
@[simp] theorem State.setChan_chord (s : State) (c : Nat) (m : Mbox) : (State.setChan s c m).chord = s.chord := by simp [State.setChan]
@[simp] theorem State.setPort_chord (s : State) (p : Nat) (x : Port) : (State.setPort s p x).chord = s.chord := by simp [State.setPort]
@[simp] theorem State.msix_chord (s : State) (v : Nat) : (State.msix s v).chord = s.chord := by simp [State.msix]
@[simp] theorem State.evpSet_chord (s : State) (c b : Nat) : (State.evpSet s c b).chord = s.chord := by simp [State.evpSet]
@[simp] theorem State.notify_chord (s : State) (r : Nat) : (State.notify s r).chord = s.chord := by simp [State.notify]
@[simp] theorem State.route_chord (s : State) (r : Nat) (statusWritten : Bool) : (State.route s r statusWritten).chord = s.chord := by simp [State.route]
@[simp] theorem State.event_chord (s : State) (i j m : Nat) : (State.event s i j m).chord = s.chord := by simp [State.event]
@[simp] theorem State.addW_chord (s : State) (i j w k : Nat) : (State.addW s i j w k).chord = s.chord := by simp [State.addW]
@[simp] theorem State.cnt_chord (s : State) (i j : Nat) : (State.cnt s i j).chord = s.chord := by simp [State.cnt]
@[simp] theorem State.cntS_chord (s : State) (i j : Nat) : (State.cntS s i j).chord = s.chord := by simp [State.cntS]
@[simp] theorem State.addH_chord (s : State) (i j w k ei ej : Nat) : (State.addH s i j w k ei ej).chord = s.chord := by simp [State.addH]
@[simp] theorem State.cntH_chord (s : State) (i j ei ej : Nat) : (State.cntH s i j ei ej).chord = s.chord := by simp [State.cntH]
@[simp] theorem State.setByte_chord (s : State) (a : Nat) (b : Byte) : (State.setByte s a b).chord = s.chord := by simp [State.setByte]
@[simp] theorem State.setBytes_chord (s : State) (a : Nat) (x0 : List Byte) : (State.setBytes s a x0).chord = s.chord := by
  induction x0 generalizing s a <;> first | (simp_all [State.setBytes]; done) | (unfold State.setBytes; (repeat' split) <;> simp_all)
@[simp] theorem State.setW32_chord (s : State) (a v : Nat) : (State.setW32 s a v).chord = s.chord := by simp [State.setW32]
@[simp] theorem State.zeroRange_chord (s : State) (lo hi : Nat) : (State.zeroRange s lo hi).chord = s.chord := by simp [State.zeroRange]
@[simp] theorem State.enter_chord (s : State) (st : Nat) : (State.enter s st).chord = s.chord := by simp [State.enter]
@[simp] theorem State.errGeneric_chord (s : State) : (State.errGeneric s).chord = s.chord := by simp [State.errGeneric]
@[simp] theorem State.errBit_chord (s : State) (b : Nat) (on : Bool) : (State.errBit s b on).chord = s.chord := by simp [State.errBit]
@[simp] theorem State.holdLow_chord (s : State) : (State.holdLow s).chord = s.chord := by simp [State.holdLow]
@[simp] theorem State.hold_chord (s : State) (m : Nat) : (State.hold s m).chord = s.chord := by simp [State.hold]
@[simp] theorem State.unhold_chord (s : State) (m : Nat) : (State.unhold s m).chord = s.chord := by simp [State.unhold]
@[simp] theorem State.violate_chord (s : State) (id : Nat) : (State.violate s id).chord = s.chord := by simp [State.violate]
@[simp] theorem State.showAllowances_chord (s : State) : (State.showAllowances s).chord = s.chord := by
  first
  | (simp [State.showAllowances]; done)
  | (unfold State.showAllowances; (repeat' split) <;> (first | (simp; done) | (simp_all; done)))
  | (simp only [State.showAllowances]; (repeat' split) <;> (first | (simp; done) | (simp_all; done)))
  | (unfold State.showAllowances; (try dsimp only); refine foldl_chord _ (fun s a => ?_) _ _; (try dsimp only); (repeat' split) <;> (first | (simp; done) | (simp_all; done)))
@[simp] theorem State.admitRec_chord (s : State) (r : Rec) : (State.admitRec s r).chord = s.chord := by simp [State.admitRec]
@[simp] theorem State.record_chord (s : State) (typ : Nat) (body : List Byte) : (State.record s typ body).chord = s.chord := by simp [State.record]
@[simp] theorem State.setTdom_chord (s : State) (d : Nat) (x : TimeDom) : (State.setTdom s d x).chord = s.chord := by simp [State.setTdom]
@[simp] theorem State.setLaunch_chord (s : State) (k : Nat) (x : Launch) : (State.setLaunch s k x).chord = s.chord := by simp [State.setLaunch]
@[simp] theorem State.setDomVal_chord (s : State) (d v : Nat) : (State.setDomVal s d v).chord = s.chord := by simp [State.setDomVal]
@[simp] theorem State.setRing_chord (s : State) (n : Nat) (x : Ring) : (State.setRing s n x).chord = s.chord := by simp [State.setRing]
@[simp] theorem State.setTrack_chord (s : State) (t : Nat) (x : Track) : (State.setTrack s t x).chord = s.chord := by simp [State.setTrack]
@[simp] theorem State.setInst_chord (s : State) (n : Nat) (x : Inst) : (State.setInst s n x).chord = s.chord := by simp [State.setInst]
@[simp] theorem State.setDbe_chord (s : State) (a : Nat) (b : Bool) : (State.setDbe s a b).chord = s.chord := by simp [State.setDbe]
@[simp] theorem State.setSbe_chord (s : State) (a : Nat) (b : Bool) : (State.setSbe s a b).chord = s.chord := by simp [State.setSbe]
@[simp] theorem State.setSw_chord (s : State) (f : Switch → Switch) : (State.setSw s f).chord = s.chord := by simp [State.setSw]
@[simp] theorem State.setQueue_chord (s : State) (st c : Nat) (l : List QEntry) : (State.setQueue s st c l).chord = s.chord := by simp [State.setQueue]
@[simp] theorem State.setFrame_chord (s : State) (f : Nat) (x : SwFrame) : (State.setFrame s f x).chord = s.chord := by simp [State.setFrame]
@[simp] theorem State.setUsed_chord (s : State) (st c u : Nat) : (State.setUsed s st c u).chord = s.chord := by simp [State.setUsed]
@[simp] theorem State.setGate_chord (s : State) (p : Nat) (g : GateCtl) : (State.setGate s p g).chord = s.chord := by simp [State.setGate]
@[simp] theorem State.setStream_chord (s : State) (h : Nat) (x : Stream) : (State.setStream s h x).chord = s.chord := by simp [State.setStream]
@[simp] theorem State.setSgate_chord (s : State) (g : Nat) (x : SGate) : (State.setSgate s g x).chord = s.chord := by simp [State.setSgate]
@[simp] theorem State.setMeter_chord (s : State) (m : Nat) (x : Meter) : (State.setMeter s m x).chord = s.chord := by simp [State.setMeter]
@[simp] theorem State.setCb_chord (s : State) (h : Nat) (x : Cb) : (State.setCb s h x).chord = s.chord := by simp [State.setCb]
@[simp] theorem State.setFdb_chord (s : State) (e : Nat) (x : FdbEntry) : (State.setFdb s e x).chord = s.chord := by simp [State.setFdb]
@[simp] theorem State.setMdio_chord (s : State) (m : Nat) (x : Mdio) : (State.setMdio s m x).chord = s.chord := by simp [State.setMdio]
@[simp] theorem State.setPps_chord (s : State) (i : Nat) (x : Pps) : (State.setPps s i x).chord = s.chord := by simp [State.setPps]
@[simp] theorem State.setEcho_chord (s : State) (n : Nat) (east : Bool) (x : Echo) : (State.setEcho s n east x).chord = s.chord := by simp [State.setEcho]
@[simp] theorem State.setSlotFetch_chord (s : State) (n k : Nat) (x : Nat × List Nib) : (State.setSlotFetch s n k x).chord = s.chord := by simp [State.setSlotFetch]
@[simp] theorem State.setStaged_chord (s : State) (n t : Nat) (l : List (Nat × List Byte)) : (State.setStaged s n t l).chord = s.chord := by simp [State.setStaged]
@[simp] theorem State.setLat_chord (s : State) (f : Lattice → Lattice) : (State.setLat s f).chord = s.chord := by simp [State.setLat]
@[simp] theorem State.setPio_chord (s : State) (b : Nat) (x : Pio) : (State.setPio s b x).chord = s.chord := by simp [State.setPio]
@[simp] theorem State.setSm_chord (s : State) (m : Nat) (x : Sm) : (State.setSm s m x).chord = s.chord := by simp [State.setSm]
@[simp] theorem State.setPioFlags_chord (s : State) (b v : Nat) : (State.setPioFlags s b v).chord = s.chord := by simp [State.setPioFlags]
@[simp] theorem State.setTrkS_chord (s : State) (t j v : Nat) : (State.setTrkS s t j v).chord = s.chord := by simp [State.setTrkS]
@[simp] theorem State.setCan_chord (s : State) (c : Nat) (x : Can) : (State.setCan s c x).chord = s.chord := by simp [State.setCan]
@[simp] theorem State.setBuf_chord (s : State) (c b lsb w v : Nat) : (State.setBuf s c b lsb w v).chord = s.chord := by simp [State.setBuf]
@[simp] theorem State.setBufState_chord (s : State) (c b v : Nat) : (State.setBufState s c b v).chord = s.chord := by simp [State.setBufState]
@[simp] theorem State.setCoreState_chord (s : State) (c v : Nat) : (State.setCoreState s c v).chord = s.chord := by simp [State.setCoreState]
@[simp] theorem State.setPc_chord (s : State) (c v : Nat) : (State.setPc s c v).chord = s.chord := by simp [State.setPc]
@[simp] theorem State.setSession_chord (s : State) (c : Nat) (x : Session) : (State.setSession s c x).chord = s.chord := by simp [State.setSession]
@[simp] theorem State.setDmaCh_chord (s : State) (k : Nat) (x : DmaCh) : (State.setDmaCh s k x).chord = s.chord := by simp [State.setDmaCh]
@[simp] theorem State.setPath_chord (s : State) (p : Path) (x : PathSt) : (State.setPath s p x).chord = s.chord := by simp [State.setPath]
@[simp] theorem State.setRecord_chord (s : State) (d : List Byte) (applied refused : Nat) : (State.setRecord s d applied refused).chord = s.chord := by simp [State.setRecord]
@[simp] theorem State.setNetSel_chord (s : State) (n conn v : Nat) : (State.setNetSel s n conn v).chord = s.chord := by simp [State.setNetSel]
/-! ### mdio -/

@[simp] theorem ite_mdio (c : Prop) [Decidable c] (a b : State) : (if c then a else b).mdio = if c then a.mdio else b.mdio := apply_ite State.mdio c a b
@[simp] theorem foldl_mdio {α : Type} (f : State → α → State) (h : ∀ s a, (f s a).mdio = s.mdio) (l : List α) (s : State) : (l.foldl f s).mdio = s.mdio := by
  induction l generalizing s with
  | nil => rfl
  | cons x l ih => simp [ih, h]


@[simp] theorem State.wr_mdio (s : State) (i j v : Nat) : (State.wr s i j v).mdio = s.mdio := by simp [State.wr]
@[simp] theorem State.wrD_mdio (s : State) (i j : Nat) (v : DWord) : (State.wrD s i j v).mdio = s.mdio := by simp [State.wrD]
@[simp] theorem State.setBits_mdio (s : State) (i j m : Nat) : (State.setBits s i j m).mdio = s.mdio := by simp [State.setBits]
@[simp] theorem State.clrBits_mdio (s : State) (i j m : Nat) : (State.clrBits s i j m).mdio = s.mdio := by simp [State.clrBits]
@[simp] theorem State.putBits_mdio (s : State) (i j m : Nat) (on : Bool) : (State.putBits s i j m on).mdio = s.mdio := by simp [State.putBits]
@[simp] theorem State.setBit_mdio (s : State) (i j b : Nat) : (State.setBit s i j b).mdio = s.mdio := by simp [State.setBit]
@[simp] theorem State.emit_mdio (s : State) (o : Out) : (State.emit s o).mdio = s.mdio := by simp [State.emit]
@[simp] theorem State.tick_mdio (s : State) : (State.tick s).mdio = s.mdio := by simp [State.tick]
@[simp] theorem State.setEngine_mdio (s : State) (c : Nat) (e : Engine) : (State.setEngine s c e).mdio = s.mdio := by simp [State.setEngine]
@[simp] theorem State.setChan_mdio (s : State) (c : Nat) (m : Mbox) : (State.setChan s c m).mdio = s.mdio := by simp [State.setChan]
@[simp] theorem State.setPort_mdio (s : State) (p : Nat) (x : Port) : (State.setPort s p x).mdio = s.mdio := by simp [State.setPort]
@[simp] theorem State.msix_mdio (s : State) (v : Nat) : (State.msix s v).mdio = s.mdio := by simp [State.msix]
@[simp] theorem State.evpSet_mdio (s : State) (c b : Nat) : (State.evpSet s c b).mdio = s.mdio := by simp [State.evpSet]
@[simp] theorem State.notify_mdio (s : State) (r : Nat) : (State.notify s r).mdio = s.mdio := by simp [State.notify]
@[simp] theorem State.route_mdio (s : State) (r : Nat) (statusWritten : Bool) : (State.route s r statusWritten).mdio = s.mdio := by simp [State.route]
@[simp] theorem State.event_mdio (s : State) (i j m : Nat) : (State.event s i j m).mdio = s.mdio := by simp [State.event]
@[simp] theorem State.addW_mdio (s : State) (i j w k : Nat) : (State.addW s i j w k).mdio = s.mdio := by simp [State.addW]
@[simp] theorem State.cnt_mdio (s : State) (i j : Nat) : (State.cnt s i j).mdio = s.mdio := by simp [State.cnt]
@[simp] theorem State.cntS_mdio (s : State) (i j : Nat) : (State.cntS s i j).mdio = s.mdio := by simp [State.cntS]
@[simp] theorem State.addH_mdio (s : State) (i j w k ei ej : Nat) : (State.addH s i j w k ei ej).mdio = s.mdio := by simp [State.addH]
@[simp] theorem State.cntH_mdio (s : State) (i j ei ej : Nat) : (State.cntH s i j ei ej).mdio = s.mdio := by simp [State.cntH]
@[simp] theorem State.setByte_mdio (s : State) (a : Nat) (b : Byte) : (State.setByte s a b).mdio = s.mdio := by simp [State.setByte]
@[simp] theorem State.setBytes_mdio (s : State) (a : Nat) (x0 : List Byte) : (State.setBytes s a x0).mdio = s.mdio := by
  induction x0 generalizing s a <;> first | (simp_all [State.setBytes]; done) | (unfold State.setBytes; (repeat' split) <;> simp_all)
@[simp] theorem State.setW32_mdio (s : State) (a v : Nat) : (State.setW32 s a v).mdio = s.mdio := by simp [State.setW32]
@[simp] theorem State.zeroRange_mdio (s : State) (lo hi : Nat) : (State.zeroRange s lo hi).mdio = s.mdio := by simp [State.zeroRange]
@[simp] theorem State.enter_mdio (s : State) (st : Nat) : (State.enter s st).mdio = s.mdio := by simp [State.enter]
@[simp] theorem State.errGeneric_mdio (s : State) : (State.errGeneric s).mdio = s.mdio := by simp [State.errGeneric]
@[simp] theorem State.errBit_mdio (s : State) (b : Nat) (on : Bool) : (State.errBit s b on).mdio = s.mdio := by simp [State.errBit]
@[simp] theorem State.holdLow_mdio (s : State) : (State.holdLow s).mdio = s.mdio := by simp [State.holdLow]
@[simp] theorem State.hold_mdio (s : State) (m : Nat) : (State.hold s m).mdio = s.mdio := by simp [State.hold]
@[simp] theorem State.unhold_mdio (s : State) (m : Nat) : (State.unhold s m).mdio = s.mdio := by simp [State.unhold]
@[simp] theorem State.violate_mdio (s : State) (id : Nat) : (State.violate s id).mdio = s.mdio := by simp [State.violate]
@[simp] theorem State.showAllowances_mdio (s : State) : (State.showAllowances s).mdio = s.mdio := by
  first
  | (simp [State.showAllowances]; done)
  | (unfold State.showAllowances; (repeat' split) <;> (first | (simp; done) | (simp_all; done)))
  | (simp only [State.showAllowances]; (repeat' split) <;> (first | (simp; done) | (simp_all; done)))
  | (unfold State.showAllowances; (try dsimp only); refine foldl_mdio _ (fun s a => ?_) _ _; (try dsimp only); (repeat' split) <;> (first | (simp; done) | (simp_all; done)))
@[simp] theorem State.admitRec_mdio (s : State) (r : Rec) : (State.admitRec s r).mdio = s.mdio := by simp [State.admitRec]
@[simp] theorem State.record_mdio (s : State) (typ : Nat) (body : List Byte) : (State.record s typ body).mdio = s.mdio := by simp [State.record]
@[simp] theorem State.setTdom_mdio (s : State) (d : Nat) (x : TimeDom) : (State.setTdom s d x).mdio = s.mdio := by simp [State.setTdom]
@[simp] theorem State.setLaunch_mdio (s : State) (k : Nat) (x : Launch) : (State.setLaunch s k x).mdio = s.mdio := by simp [State.setLaunch]
@[simp] theorem State.setDomVal_mdio (s : State) (d v : Nat) : (State.setDomVal s d v).mdio = s.mdio := by simp [State.setDomVal]
@[simp] theorem State.setRing_mdio (s : State) (n : Nat) (x : Ring) : (State.setRing s n x).mdio = s.mdio := by simp [State.setRing]
@[simp] theorem State.setTrack_mdio (s : State) (t : Nat) (x : Track) : (State.setTrack s t x).mdio = s.mdio := by simp [State.setTrack]
@[simp] theorem State.setInst_mdio (s : State) (n : Nat) (x : Inst) : (State.setInst s n x).mdio = s.mdio := by simp [State.setInst]
@[simp] theorem State.setDbe_mdio (s : State) (a : Nat) (b : Bool) : (State.setDbe s a b).mdio = s.mdio := by simp [State.setDbe]
@[simp] theorem State.setSbe_mdio (s : State) (a : Nat) (b : Bool) : (State.setSbe s a b).mdio = s.mdio := by simp [State.setSbe]
@[simp] theorem State.setChord_mdio (s : State) (d : Nat) (x : Chord) : (State.setChord s d x).mdio = s.mdio := by simp [State.setChord]
@[simp] theorem State.setSw_mdio (s : State) (f : Switch → Switch) : (State.setSw s f).mdio = s.mdio := by simp [State.setSw]
@[simp] theorem State.setQueue_mdio (s : State) (st c : Nat) (l : List QEntry) : (State.setQueue s st c l).mdio = s.mdio := by simp [State.setQueue]
@[simp] theorem State.setFrame_mdio (s : State) (f : Nat) (x : SwFrame) : (State.setFrame s f x).mdio = s.mdio := by simp [State.setFrame]
@[simp] theorem State.setUsed_mdio (s : State) (st c u : Nat) : (State.setUsed s st c u).mdio = s.mdio := by simp [State.setUsed]
@[simp] theorem State.setGate_mdio (s : State) (p : Nat) (g : GateCtl) : (State.setGate s p g).mdio = s.mdio := by simp [State.setGate]
@[simp] theorem State.setStream_mdio (s : State) (h : Nat) (x : Stream) : (State.setStream s h x).mdio = s.mdio := by simp [State.setStream]
@[simp] theorem State.setSgate_mdio (s : State) (g : Nat) (x : SGate) : (State.setSgate s g x).mdio = s.mdio := by simp [State.setSgate]
@[simp] theorem State.setMeter_mdio (s : State) (m : Nat) (x : Meter) : (State.setMeter s m x).mdio = s.mdio := by simp [State.setMeter]
@[simp] theorem State.setCb_mdio (s : State) (h : Nat) (x : Cb) : (State.setCb s h x).mdio = s.mdio := by simp [State.setCb]
@[simp] theorem State.setFdb_mdio (s : State) (e : Nat) (x : FdbEntry) : (State.setFdb s e x).mdio = s.mdio := by simp [State.setFdb]
@[simp] theorem State.setPps_mdio (s : State) (i : Nat) (x : Pps) : (State.setPps s i x).mdio = s.mdio := by simp [State.setPps]
@[simp] theorem State.setEcho_mdio (s : State) (n : Nat) (east : Bool) (x : Echo) : (State.setEcho s n east x).mdio = s.mdio := by simp [State.setEcho]
@[simp] theorem State.setSlotFetch_mdio (s : State) (n k : Nat) (x : Nat × List Nib) : (State.setSlotFetch s n k x).mdio = s.mdio := by simp [State.setSlotFetch]
@[simp] theorem State.setStaged_mdio (s : State) (n t : Nat) (l : List (Nat × List Byte)) : (State.setStaged s n t l).mdio = s.mdio := by simp [State.setStaged]
@[simp] theorem State.setLat_mdio (s : State) (f : Lattice → Lattice) : (State.setLat s f).mdio = s.mdio := by simp [State.setLat]
@[simp] theorem State.setPio_mdio (s : State) (b : Nat) (x : Pio) : (State.setPio s b x).mdio = s.mdio := by simp [State.setPio]
@[simp] theorem State.setSm_mdio (s : State) (m : Nat) (x : Sm) : (State.setSm s m x).mdio = s.mdio := by simp [State.setSm]
@[simp] theorem State.setPioFlags_mdio (s : State) (b v : Nat) : (State.setPioFlags s b v).mdio = s.mdio := by simp [State.setPioFlags]
@[simp] theorem State.setTrkS_mdio (s : State) (t j v : Nat) : (State.setTrkS s t j v).mdio = s.mdio := by simp [State.setTrkS]
@[simp] theorem State.setCan_mdio (s : State) (c : Nat) (x : Can) : (State.setCan s c x).mdio = s.mdio := by simp [State.setCan]
@[simp] theorem State.setBuf_mdio (s : State) (c b lsb w v : Nat) : (State.setBuf s c b lsb w v).mdio = s.mdio := by simp [State.setBuf]
@[simp] theorem State.setBufState_mdio (s : State) (c b v : Nat) : (State.setBufState s c b v).mdio = s.mdio := by simp [State.setBufState]
@[simp] theorem State.setCoreState_mdio (s : State) (c v : Nat) : (State.setCoreState s c v).mdio = s.mdio := by simp [State.setCoreState]
@[simp] theorem State.setPc_mdio (s : State) (c v : Nat) : (State.setPc s c v).mdio = s.mdio := by simp [State.setPc]
@[simp] theorem State.setSession_mdio (s : State) (c : Nat) (x : Session) : (State.setSession s c x).mdio = s.mdio := by simp [State.setSession]
@[simp] theorem State.setDmaCh_mdio (s : State) (k : Nat) (x : DmaCh) : (State.setDmaCh s k x).mdio = s.mdio := by simp [State.setDmaCh]
@[simp] theorem State.setPath_mdio (s : State) (p : Path) (x : PathSt) : (State.setPath s p x).mdio = s.mdio := by simp [State.setPath]
@[simp] theorem State.setRecord_mdio (s : State) (d : List Byte) (applied refused : Nat) : (State.setRecord s d applied refused).mdio = s.mdio := by simp [State.setRecord]
@[simp] theorem State.setNetSel_mdio (s : State) (n conn v : Nat) : (State.setNetSel s n conn v).mdio = s.mdio := by simp [State.setNetSel]
/-! ### lat -/

@[simp] theorem ite_lat (c : Prop) [Decidable c] (a b : State) : (if c then a else b).lat = if c then a.lat else b.lat := apply_ite State.lat c a b
@[simp] theorem foldl_lat {α : Type} (f : State → α → State) (h : ∀ s a, (f s a).lat = s.lat) (l : List α) (s : State) : (l.foldl f s).lat = s.lat := by
  induction l generalizing s with
  | nil => rfl
  | cons x l ih => simp [ih, h]


@[simp] theorem State.wr_lat (s : State) (i j v : Nat) : (State.wr s i j v).lat = s.lat := by simp [State.wr]
@[simp] theorem State.wrD_lat (s : State) (i j : Nat) (v : DWord) : (State.wrD s i j v).lat = s.lat := by simp [State.wrD]
@[simp] theorem State.setBits_lat (s : State) (i j m : Nat) : (State.setBits s i j m).lat = s.lat := by simp [State.setBits]
@[simp] theorem State.clrBits_lat (s : State) (i j m : Nat) : (State.clrBits s i j m).lat = s.lat := by simp [State.clrBits]
@[simp] theorem State.putBits_lat (s : State) (i j m : Nat) (on : Bool) : (State.putBits s i j m on).lat = s.lat := by simp [State.putBits]
@[simp] theorem State.setBit_lat (s : State) (i j b : Nat) : (State.setBit s i j b).lat = s.lat := by simp [State.setBit]
@[simp] theorem State.emit_lat (s : State) (o : Out) : (State.emit s o).lat = s.lat := by simp [State.emit]
@[simp] theorem State.tick_lat (s : State) : (State.tick s).lat = s.lat := by simp [State.tick]
@[simp] theorem State.setEngine_lat (s : State) (c : Nat) (e : Engine) : (State.setEngine s c e).lat = s.lat := by simp [State.setEngine]
@[simp] theorem State.setChan_lat (s : State) (c : Nat) (m : Mbox) : (State.setChan s c m).lat = s.lat := by simp [State.setChan]
@[simp] theorem State.setPort_lat (s : State) (p : Nat) (x : Port) : (State.setPort s p x).lat = s.lat := by simp [State.setPort]
@[simp] theorem State.msix_lat (s : State) (v : Nat) : (State.msix s v).lat = s.lat := by simp [State.msix]
@[simp] theorem State.evpSet_lat (s : State) (c b : Nat) : (State.evpSet s c b).lat = s.lat := by simp [State.evpSet]
@[simp] theorem State.notify_lat (s : State) (r : Nat) : (State.notify s r).lat = s.lat := by simp [State.notify]
@[simp] theorem State.route_lat (s : State) (r : Nat) (statusWritten : Bool) : (State.route s r statusWritten).lat = s.lat := by simp [State.route]
@[simp] theorem State.event_lat (s : State) (i j m : Nat) : (State.event s i j m).lat = s.lat := by simp [State.event]
@[simp] theorem State.addW_lat (s : State) (i j w k : Nat) : (State.addW s i j w k).lat = s.lat := by simp [State.addW]
@[simp] theorem State.cnt_lat (s : State) (i j : Nat) : (State.cnt s i j).lat = s.lat := by simp [State.cnt]
@[simp] theorem State.cntS_lat (s : State) (i j : Nat) : (State.cntS s i j).lat = s.lat := by simp [State.cntS]
@[simp] theorem State.addH_lat (s : State) (i j w k ei ej : Nat) : (State.addH s i j w k ei ej).lat = s.lat := by simp [State.addH]
@[simp] theorem State.cntH_lat (s : State) (i j ei ej : Nat) : (State.cntH s i j ei ej).lat = s.lat := by simp [State.cntH]
@[simp] theorem State.setByte_lat (s : State) (a : Nat) (b : Byte) : (State.setByte s a b).lat = s.lat := by simp [State.setByte]
@[simp] theorem State.setBytes_lat (s : State) (a : Nat) (x0 : List Byte) : (State.setBytes s a x0).lat = s.lat := by
  induction x0 generalizing s a <;> first | (simp_all [State.setBytes]; done) | (unfold State.setBytes; (repeat' split) <;> simp_all)
@[simp] theorem State.setW32_lat (s : State) (a v : Nat) : (State.setW32 s a v).lat = s.lat := by simp [State.setW32]
@[simp] theorem State.zeroRange_lat (s : State) (lo hi : Nat) : (State.zeroRange s lo hi).lat = s.lat := by simp [State.zeroRange]
@[simp] theorem State.enter_lat (s : State) (st : Nat) : (State.enter s st).lat = s.lat := by simp [State.enter]
@[simp] theorem State.errGeneric_lat (s : State) : (State.errGeneric s).lat = s.lat := by simp [State.errGeneric]
@[simp] theorem State.errBit_lat (s : State) (b : Nat) (on : Bool) : (State.errBit s b on).lat = s.lat := by simp [State.errBit]
@[simp] theorem State.holdLow_lat (s : State) : (State.holdLow s).lat = s.lat := by simp [State.holdLow]
@[simp] theorem State.hold_lat (s : State) (m : Nat) : (State.hold s m).lat = s.lat := by simp [State.hold]
@[simp] theorem State.unhold_lat (s : State) (m : Nat) : (State.unhold s m).lat = s.lat := by simp [State.unhold]
@[simp] theorem State.violate_lat (s : State) (id : Nat) : (State.violate s id).lat = s.lat := by simp [State.violate]
@[simp] theorem State.showAllowances_lat (s : State) : (State.showAllowances s).lat = s.lat := by
  first
  | (simp [State.showAllowances]; done)
  | (unfold State.showAllowances; (repeat' split) <;> (first | (simp; done) | (simp_all; done)))
  | (simp only [State.showAllowances]; (repeat' split) <;> (first | (simp; done) | (simp_all; done)))
  | (unfold State.showAllowances; (try dsimp only); refine foldl_lat _ (fun s a => ?_) _ _; (try dsimp only); (repeat' split) <;> (first | (simp; done) | (simp_all; done)))
@[simp] theorem State.admitRec_lat (s : State) (r : Rec) : (State.admitRec s r).lat = s.lat := by simp [State.admitRec]
@[simp] theorem State.record_lat (s : State) (typ : Nat) (body : List Byte) : (State.record s typ body).lat = s.lat := by simp [State.record]
@[simp] theorem State.setTdom_lat (s : State) (d : Nat) (x : TimeDom) : (State.setTdom s d x).lat = s.lat := by simp [State.setTdom]
@[simp] theorem State.setLaunch_lat (s : State) (k : Nat) (x : Launch) : (State.setLaunch s k x).lat = s.lat := by simp [State.setLaunch]
@[simp] theorem State.setDomVal_lat (s : State) (d v : Nat) : (State.setDomVal s d v).lat = s.lat := by simp [State.setDomVal]
@[simp] theorem State.setRing_lat (s : State) (n : Nat) (x : Ring) : (State.setRing s n x).lat = s.lat := by simp [State.setRing]
@[simp] theorem State.setTrack_lat (s : State) (t : Nat) (x : Track) : (State.setTrack s t x).lat = s.lat := by simp [State.setTrack]
@[simp] theorem State.setInst_lat (s : State) (n : Nat) (x : Inst) : (State.setInst s n x).lat = s.lat := by simp [State.setInst]
@[simp] theorem State.setDbe_lat (s : State) (a : Nat) (b : Bool) : (State.setDbe s a b).lat = s.lat := by simp [State.setDbe]
@[simp] theorem State.setSbe_lat (s : State) (a : Nat) (b : Bool) : (State.setSbe s a b).lat = s.lat := by simp [State.setSbe]
@[simp] theorem State.setChord_lat (s : State) (d : Nat) (x : Chord) : (State.setChord s d x).lat = s.lat := by simp [State.setChord]
@[simp] theorem State.setSw_lat (s : State) (f : Switch → Switch) : (State.setSw s f).lat = s.lat := by simp [State.setSw]
@[simp] theorem State.setQueue_lat (s : State) (st c : Nat) (l : List QEntry) : (State.setQueue s st c l).lat = s.lat := by simp [State.setQueue]
@[simp] theorem State.setFrame_lat (s : State) (f : Nat) (x : SwFrame) : (State.setFrame s f x).lat = s.lat := by simp [State.setFrame]
@[simp] theorem State.setUsed_lat (s : State) (st c u : Nat) : (State.setUsed s st c u).lat = s.lat := by simp [State.setUsed]
@[simp] theorem State.setGate_lat (s : State) (p : Nat) (g : GateCtl) : (State.setGate s p g).lat = s.lat := by simp [State.setGate]
@[simp] theorem State.setStream_lat (s : State) (h : Nat) (x : Stream) : (State.setStream s h x).lat = s.lat := by simp [State.setStream]
@[simp] theorem State.setSgate_lat (s : State) (g : Nat) (x : SGate) : (State.setSgate s g x).lat = s.lat := by simp [State.setSgate]
@[simp] theorem State.setMeter_lat (s : State) (m : Nat) (x : Meter) : (State.setMeter s m x).lat = s.lat := by simp [State.setMeter]
@[simp] theorem State.setCb_lat (s : State) (h : Nat) (x : Cb) : (State.setCb s h x).lat = s.lat := by simp [State.setCb]
@[simp] theorem State.setFdb_lat (s : State) (e : Nat) (x : FdbEntry) : (State.setFdb s e x).lat = s.lat := by simp [State.setFdb]
@[simp] theorem State.setMdio_lat (s : State) (m : Nat) (x : Mdio) : (State.setMdio s m x).lat = s.lat := by simp [State.setMdio]
@[simp] theorem State.setPps_lat (s : State) (i : Nat) (x : Pps) : (State.setPps s i x).lat = s.lat := by simp [State.setPps]
@[simp] theorem State.setEcho_lat (s : State) (n : Nat) (east : Bool) (x : Echo) : (State.setEcho s n east x).lat = s.lat := by simp [State.setEcho]
@[simp] theorem State.setSlotFetch_lat (s : State) (n k : Nat) (x : Nat × List Nib) : (State.setSlotFetch s n k x).lat = s.lat := by simp [State.setSlotFetch]
@[simp] theorem State.setStaged_lat (s : State) (n t : Nat) (l : List (Nat × List Byte)) : (State.setStaged s n t l).lat = s.lat := by simp [State.setStaged]
@[simp] theorem State.setPio_lat (s : State) (b : Nat) (x : Pio) : (State.setPio s b x).lat = s.lat := by simp [State.setPio]
@[simp] theorem State.setSm_lat (s : State) (m : Nat) (x : Sm) : (State.setSm s m x).lat = s.lat := by simp [State.setSm]
@[simp] theorem State.setPioFlags_lat (s : State) (b v : Nat) : (State.setPioFlags s b v).lat = s.lat := by simp [State.setPioFlags]
@[simp] theorem State.setTrkS_lat (s : State) (t j v : Nat) : (State.setTrkS s t j v).lat = s.lat := by simp [State.setTrkS]
@[simp] theorem State.setCan_lat (s : State) (c : Nat) (x : Can) : (State.setCan s c x).lat = s.lat := by simp [State.setCan]
@[simp] theorem State.setBuf_lat (s : State) (c b lsb w v : Nat) : (State.setBuf s c b lsb w v).lat = s.lat := by simp [State.setBuf]
@[simp] theorem State.setBufState_lat (s : State) (c b v : Nat) : (State.setBufState s c b v).lat = s.lat := by simp [State.setBufState]
@[simp] theorem State.setCoreState_lat (s : State) (c v : Nat) : (State.setCoreState s c v).lat = s.lat := by simp [State.setCoreState]
@[simp] theorem State.setPc_lat (s : State) (c v : Nat) : (State.setPc s c v).lat = s.lat := by simp [State.setPc]
@[simp] theorem State.setSession_lat (s : State) (c : Nat) (x : Session) : (State.setSession s c x).lat = s.lat := by simp [State.setSession]
@[simp] theorem State.setDmaCh_lat (s : State) (k : Nat) (x : DmaCh) : (State.setDmaCh s k x).lat = s.lat := by simp [State.setDmaCh]
@[simp] theorem State.setPath_lat (s : State) (p : Path) (x : PathSt) : (State.setPath s p x).lat = s.lat := by simp [State.setPath]
@[simp] theorem State.setRecord_lat (s : State) (d : List Byte) (applied refused : Nat) : (State.setRecord s d applied refused).lat = s.lat := by simp [State.setRecord]
@[simp] theorem State.setNetSel_lat (s : State) (n conn v : Nat) : (State.setNetSel s n conn v).lat = s.lat := by simp [State.setNetSel]
/-! ### launch -/

@[simp] theorem ite_launch (c : Prop) [Decidable c] (a b : State) : (if c then a else b).launch = if c then a.launch else b.launch := apply_ite State.launch c a b
@[simp] theorem foldl_launch {α : Type} (f : State → α → State) (h : ∀ s a, (f s a).launch = s.launch) (l : List α) (s : State) : (l.foldl f s).launch = s.launch := by
  induction l generalizing s with
  | nil => rfl
  | cons x l ih => simp [ih, h]


@[simp] theorem State.wr_launch (s : State) (i j v : Nat) : (State.wr s i j v).launch = s.launch := by simp [State.wr]
@[simp] theorem State.wrD_launch (s : State) (i j : Nat) (v : DWord) : (State.wrD s i j v).launch = s.launch := by simp [State.wrD]
@[simp] theorem State.setBits_launch (s : State) (i j m : Nat) : (State.setBits s i j m).launch = s.launch := by simp [State.setBits]
@[simp] theorem State.clrBits_launch (s : State) (i j m : Nat) : (State.clrBits s i j m).launch = s.launch := by simp [State.clrBits]
@[simp] theorem State.putBits_launch (s : State) (i j m : Nat) (on : Bool) : (State.putBits s i j m on).launch = s.launch := by simp [State.putBits]
@[simp] theorem State.setBit_launch (s : State) (i j b : Nat) : (State.setBit s i j b).launch = s.launch := by simp [State.setBit]
@[simp] theorem State.emit_launch (s : State) (o : Out) : (State.emit s o).launch = s.launch := by simp [State.emit]
@[simp] theorem State.tick_launch (s : State) : (State.tick s).launch = s.launch := by simp [State.tick]
@[simp] theorem State.setEngine_launch (s : State) (c : Nat) (e : Engine) : (State.setEngine s c e).launch = s.launch := by simp [State.setEngine]
@[simp] theorem State.setChan_launch (s : State) (c : Nat) (m : Mbox) : (State.setChan s c m).launch = s.launch := by simp [State.setChan]
@[simp] theorem State.setPort_launch (s : State) (p : Nat) (x : Port) : (State.setPort s p x).launch = s.launch := by simp [State.setPort]
@[simp] theorem State.msix_launch (s : State) (v : Nat) : (State.msix s v).launch = s.launch := by simp [State.msix]
@[simp] theorem State.evpSet_launch (s : State) (c b : Nat) : (State.evpSet s c b).launch = s.launch := by simp [State.evpSet]
@[simp] theorem State.notify_launch (s : State) (r : Nat) : (State.notify s r).launch = s.launch := by simp [State.notify]
@[simp] theorem State.route_launch (s : State) (r : Nat) (statusWritten : Bool) : (State.route s r statusWritten).launch = s.launch := by simp [State.route]
@[simp] theorem State.event_launch (s : State) (i j m : Nat) : (State.event s i j m).launch = s.launch := by simp [State.event]
@[simp] theorem State.addW_launch (s : State) (i j w k : Nat) : (State.addW s i j w k).launch = s.launch := by simp [State.addW]
@[simp] theorem State.cnt_launch (s : State) (i j : Nat) : (State.cnt s i j).launch = s.launch := by simp [State.cnt]
@[simp] theorem State.cntS_launch (s : State) (i j : Nat) : (State.cntS s i j).launch = s.launch := by simp [State.cntS]
@[simp] theorem State.addH_launch (s : State) (i j w k ei ej : Nat) : (State.addH s i j w k ei ej).launch = s.launch := by simp [State.addH]
@[simp] theorem State.cntH_launch (s : State) (i j ei ej : Nat) : (State.cntH s i j ei ej).launch = s.launch := by simp [State.cntH]
@[simp] theorem State.setByte_launch (s : State) (a : Nat) (b : Byte) : (State.setByte s a b).launch = s.launch := by simp [State.setByte]
@[simp] theorem State.setBytes_launch (s : State) (a : Nat) (x0 : List Byte) : (State.setBytes s a x0).launch = s.launch := by
  induction x0 generalizing s a <;> first | (simp_all [State.setBytes]; done) | (unfold State.setBytes; (repeat' split) <;> simp_all)
@[simp] theorem State.setW32_launch (s : State) (a v : Nat) : (State.setW32 s a v).launch = s.launch := by simp [State.setW32]
@[simp] theorem State.zeroRange_launch (s : State) (lo hi : Nat) : (State.zeroRange s lo hi).launch = s.launch := by simp [State.zeroRange]
@[simp] theorem State.enter_launch (s : State) (st : Nat) : (State.enter s st).launch = s.launch := by simp [State.enter]
@[simp] theorem State.errGeneric_launch (s : State) : (State.errGeneric s).launch = s.launch := by simp [State.errGeneric]
@[simp] theorem State.errBit_launch (s : State) (b : Nat) (on : Bool) : (State.errBit s b on).launch = s.launch := by simp [State.errBit]
@[simp] theorem State.holdLow_launch (s : State) : (State.holdLow s).launch = s.launch := by simp [State.holdLow]
@[simp] theorem State.hold_launch (s : State) (m : Nat) : (State.hold s m).launch = s.launch := by simp [State.hold]
@[simp] theorem State.unhold_launch (s : State) (m : Nat) : (State.unhold s m).launch = s.launch := by simp [State.unhold]
@[simp] theorem State.violate_launch (s : State) (id : Nat) : (State.violate s id).launch = s.launch := by simp [State.violate]
@[simp] theorem State.showAllowances_launch (s : State) : (State.showAllowances s).launch = s.launch := by
  first
  | (simp [State.showAllowances]; done)
  | (unfold State.showAllowances; (repeat' split) <;> (first | (simp; done) | (simp_all; done)))
  | (simp only [State.showAllowances]; (repeat' split) <;> (first | (simp; done) | (simp_all; done)))
  | (unfold State.showAllowances; (try dsimp only); refine foldl_launch _ (fun s a => ?_) _ _; (try dsimp only); (repeat' split) <;> (first | (simp; done) | (simp_all; done)))
@[simp] theorem State.admitRec_launch (s : State) (r : Rec) : (State.admitRec s r).launch = s.launch := by simp [State.admitRec]
@[simp] theorem State.record_launch (s : State) (typ : Nat) (body : List Byte) : (State.record s typ body).launch = s.launch := by simp [State.record]
@[simp] theorem State.setTdom_launch (s : State) (d : Nat) (x : TimeDom) : (State.setTdom s d x).launch = s.launch := by simp [State.setTdom]
@[simp] theorem State.setDomVal_launch (s : State) (d v : Nat) : (State.setDomVal s d v).launch = s.launch := by simp [State.setDomVal]
@[simp] theorem State.setRing_launch (s : State) (n : Nat) (x : Ring) : (State.setRing s n x).launch = s.launch := by simp [State.setRing]
@[simp] theorem State.setTrack_launch (s : State) (t : Nat) (x : Track) : (State.setTrack s t x).launch = s.launch := by simp [State.setTrack]
@[simp] theorem State.setInst_launch (s : State) (n : Nat) (x : Inst) : (State.setInst s n x).launch = s.launch := by simp [State.setInst]
@[simp] theorem State.setDbe_launch (s : State) (a : Nat) (b : Bool) : (State.setDbe s a b).launch = s.launch := by simp [State.setDbe]
@[simp] theorem State.setSbe_launch (s : State) (a : Nat) (b : Bool) : (State.setSbe s a b).launch = s.launch := by simp [State.setSbe]
@[simp] theorem State.setChord_launch (s : State) (d : Nat) (x : Chord) : (State.setChord s d x).launch = s.launch := by simp [State.setChord]
@[simp] theorem State.setSw_launch (s : State) (f : Switch → Switch) : (State.setSw s f).launch = s.launch := by simp [State.setSw]
@[simp] theorem State.setQueue_launch (s : State) (st c : Nat) (l : List QEntry) : (State.setQueue s st c l).launch = s.launch := by simp [State.setQueue]
@[simp] theorem State.setFrame_launch (s : State) (f : Nat) (x : SwFrame) : (State.setFrame s f x).launch = s.launch := by simp [State.setFrame]
@[simp] theorem State.setUsed_launch (s : State) (st c u : Nat) : (State.setUsed s st c u).launch = s.launch := by simp [State.setUsed]
@[simp] theorem State.setGate_launch (s : State) (p : Nat) (g : GateCtl) : (State.setGate s p g).launch = s.launch := by simp [State.setGate]
@[simp] theorem State.setStream_launch (s : State) (h : Nat) (x : Stream) : (State.setStream s h x).launch = s.launch := by simp [State.setStream]
@[simp] theorem State.setSgate_launch (s : State) (g : Nat) (x : SGate) : (State.setSgate s g x).launch = s.launch := by simp [State.setSgate]
@[simp] theorem State.setMeter_launch (s : State) (m : Nat) (x : Meter) : (State.setMeter s m x).launch = s.launch := by simp [State.setMeter]
@[simp] theorem State.setCb_launch (s : State) (h : Nat) (x : Cb) : (State.setCb s h x).launch = s.launch := by simp [State.setCb]
@[simp] theorem State.setFdb_launch (s : State) (e : Nat) (x : FdbEntry) : (State.setFdb s e x).launch = s.launch := by simp [State.setFdb]
@[simp] theorem State.setMdio_launch (s : State) (m : Nat) (x : Mdio) : (State.setMdio s m x).launch = s.launch := by simp [State.setMdio]
@[simp] theorem State.setPps_launch (s : State) (i : Nat) (x : Pps) : (State.setPps s i x).launch = s.launch := by simp [State.setPps]
@[simp] theorem State.setEcho_launch (s : State) (n : Nat) (east : Bool) (x : Echo) : (State.setEcho s n east x).launch = s.launch := by simp [State.setEcho]
@[simp] theorem State.setSlotFetch_launch (s : State) (n k : Nat) (x : Nat × List Nib) : (State.setSlotFetch s n k x).launch = s.launch := by simp [State.setSlotFetch]
@[simp] theorem State.setStaged_launch (s : State) (n t : Nat) (l : List (Nat × List Byte)) : (State.setStaged s n t l).launch = s.launch := by simp [State.setStaged]
@[simp] theorem State.setLat_launch (s : State) (f : Lattice → Lattice) : (State.setLat s f).launch = s.launch := by simp [State.setLat]
@[simp] theorem State.setPio_launch (s : State) (b : Nat) (x : Pio) : (State.setPio s b x).launch = s.launch := by simp [State.setPio]
@[simp] theorem State.setSm_launch (s : State) (m : Nat) (x : Sm) : (State.setSm s m x).launch = s.launch := by simp [State.setSm]
@[simp] theorem State.setPioFlags_launch (s : State) (b v : Nat) : (State.setPioFlags s b v).launch = s.launch := by simp [State.setPioFlags]
@[simp] theorem State.setTrkS_launch (s : State) (t j v : Nat) : (State.setTrkS s t j v).launch = s.launch := by simp [State.setTrkS]
@[simp] theorem State.setCan_launch (s : State) (c : Nat) (x : Can) : (State.setCan s c x).launch = s.launch := by simp [State.setCan]
@[simp] theorem State.setBuf_launch (s : State) (c b lsb w v : Nat) : (State.setBuf s c b lsb w v).launch = s.launch := by simp [State.setBuf]
@[simp] theorem State.setBufState_launch (s : State) (c b v : Nat) : (State.setBufState s c b v).launch = s.launch := by simp [State.setBufState]
@[simp] theorem State.setCoreState_launch (s : State) (c v : Nat) : (State.setCoreState s c v).launch = s.launch := by simp [State.setCoreState]
@[simp] theorem State.setPc_launch (s : State) (c v : Nat) : (State.setPc s c v).launch = s.launch := by simp [State.setPc]
@[simp] theorem State.setSession_launch (s : State) (c : Nat) (x : Session) : (State.setSession s c x).launch = s.launch := by simp [State.setSession]
@[simp] theorem State.setDmaCh_launch (s : State) (k : Nat) (x : DmaCh) : (State.setDmaCh s k x).launch = s.launch := by simp [State.setDmaCh]
@[simp] theorem State.setPath_launch (s : State) (p : Path) (x : PathSt) : (State.setPath s p x).launch = s.launch := by simp [State.setPath]
@[simp] theorem State.setRecord_launch (s : State) (d : List Byte) (applied refused : Nat) : (State.setRecord s d applied refused).launch = s.launch := by simp [State.setRecord]
@[simp] theorem State.setNetSel_launch (s : State) (n conn v : Nat) : (State.setNetSel s n conn v).launch = s.launch := by simp [State.setNetSel]
/-! ### rings -/

@[simp] theorem ite_rings (c : Prop) [Decidable c] (a b : State) : (if c then a else b).rings = if c then a.rings else b.rings := apply_ite State.rings c a b
@[simp] theorem foldl_rings {α : Type} (f : State → α → State) (h : ∀ s a, (f s a).rings = s.rings) (l : List α) (s : State) : (l.foldl f s).rings = s.rings := by
  induction l generalizing s with
  | nil => rfl
  | cons x l ih => simp [ih, h]


@[simp] theorem State.wr_rings (s : State) (i j v : Nat) : (State.wr s i j v).rings = s.rings := by simp [State.wr]
@[simp] theorem State.wrD_rings (s : State) (i j : Nat) (v : DWord) : (State.wrD s i j v).rings = s.rings := by simp [State.wrD]
@[simp] theorem State.setBits_rings (s : State) (i j m : Nat) : (State.setBits s i j m).rings = s.rings := by simp [State.setBits]
@[simp] theorem State.clrBits_rings (s : State) (i j m : Nat) : (State.clrBits s i j m).rings = s.rings := by simp [State.clrBits]
@[simp] theorem State.putBits_rings (s : State) (i j m : Nat) (on : Bool) : (State.putBits s i j m on).rings = s.rings := by simp [State.putBits]
@[simp] theorem State.setBit_rings (s : State) (i j b : Nat) : (State.setBit s i j b).rings = s.rings := by simp [State.setBit]
@[simp] theorem State.emit_rings (s : State) (o : Out) : (State.emit s o).rings = s.rings := by simp [State.emit]
@[simp] theorem State.tick_rings (s : State) : (State.tick s).rings = s.rings := by simp [State.tick]
@[simp] theorem State.setEngine_rings (s : State) (c : Nat) (e : Engine) : (State.setEngine s c e).rings = s.rings := by simp [State.setEngine]
@[simp] theorem State.setChan_rings (s : State) (c : Nat) (m : Mbox) : (State.setChan s c m).rings = s.rings := by simp [State.setChan]
@[simp] theorem State.setPort_rings (s : State) (p : Nat) (x : Port) : (State.setPort s p x).rings = s.rings := by simp [State.setPort]
@[simp] theorem State.msix_rings (s : State) (v : Nat) : (State.msix s v).rings = s.rings := by simp [State.msix]
@[simp] theorem State.evpSet_rings (s : State) (c b : Nat) : (State.evpSet s c b).rings = s.rings := by simp [State.evpSet]
@[simp] theorem State.notify_rings (s : State) (r : Nat) : (State.notify s r).rings = s.rings := by simp [State.notify]
@[simp] theorem State.route_rings (s : State) (r : Nat) (statusWritten : Bool) : (State.route s r statusWritten).rings = s.rings := by simp [State.route]
@[simp] theorem State.event_rings (s : State) (i j m : Nat) : (State.event s i j m).rings = s.rings := by simp [State.event]
@[simp] theorem State.addW_rings (s : State) (i j w k : Nat) : (State.addW s i j w k).rings = s.rings := by simp [State.addW]
@[simp] theorem State.cnt_rings (s : State) (i j : Nat) : (State.cnt s i j).rings = s.rings := by simp [State.cnt]
@[simp] theorem State.cntS_rings (s : State) (i j : Nat) : (State.cntS s i j).rings = s.rings := by simp [State.cntS]
@[simp] theorem State.addH_rings (s : State) (i j w k ei ej : Nat) : (State.addH s i j w k ei ej).rings = s.rings := by simp [State.addH]
@[simp] theorem State.cntH_rings (s : State) (i j ei ej : Nat) : (State.cntH s i j ei ej).rings = s.rings := by simp [State.cntH]
@[simp] theorem State.setByte_rings (s : State) (a : Nat) (b : Byte) : (State.setByte s a b).rings = s.rings := by simp [State.setByte]
@[simp] theorem State.setBytes_rings (s : State) (a : Nat) (x0 : List Byte) : (State.setBytes s a x0).rings = s.rings := by
  induction x0 generalizing s a <;> first | (simp_all [State.setBytes]; done) | (unfold State.setBytes; (repeat' split) <;> simp_all)
@[simp] theorem State.setW32_rings (s : State) (a v : Nat) : (State.setW32 s a v).rings = s.rings := by simp [State.setW32]
@[simp] theorem State.zeroRange_rings (s : State) (lo hi : Nat) : (State.zeroRange s lo hi).rings = s.rings := by simp [State.zeroRange]
@[simp] theorem State.enter_rings (s : State) (st : Nat) : (State.enter s st).rings = s.rings := by simp [State.enter]
@[simp] theorem State.errGeneric_rings (s : State) : (State.errGeneric s).rings = s.rings := by simp [State.errGeneric]
@[simp] theorem State.errBit_rings (s : State) (b : Nat) (on : Bool) : (State.errBit s b on).rings = s.rings := by simp [State.errBit]
@[simp] theorem State.holdLow_rings (s : State) : (State.holdLow s).rings = s.rings := by simp [State.holdLow]
@[simp] theorem State.hold_rings (s : State) (m : Nat) : (State.hold s m).rings = s.rings := by simp [State.hold]
@[simp] theorem State.unhold_rings (s : State) (m : Nat) : (State.unhold s m).rings = s.rings := by simp [State.unhold]
@[simp] theorem State.violate_rings (s : State) (id : Nat) : (State.violate s id).rings = s.rings := by simp [State.violate]
@[simp] theorem State.showAllowances_rings (s : State) : (State.showAllowances s).rings = s.rings := by
  first
  | (simp [State.showAllowances]; done)
  | (unfold State.showAllowances; (repeat' split) <;> (first | (simp; done) | (simp_all; done)))
  | (simp only [State.showAllowances]; (repeat' split) <;> (first | (simp; done) | (simp_all; done)))
  | (unfold State.showAllowances; (try dsimp only); refine foldl_rings _ (fun s a => ?_) _ _; (try dsimp only); (repeat' split) <;> (first | (simp; done) | (simp_all; done)))
@[simp] theorem State.admitRec_rings (s : State) (r : Rec) : (State.admitRec s r).rings = s.rings := by simp [State.admitRec]
@[simp] theorem State.record_rings (s : State) (typ : Nat) (body : List Byte) : (State.record s typ body).rings = s.rings := by simp [State.record]
@[simp] theorem State.setTdom_rings (s : State) (d : Nat) (x : TimeDom) : (State.setTdom s d x).rings = s.rings := by simp [State.setTdom]
@[simp] theorem State.setLaunch_rings (s : State) (k : Nat) (x : Launch) : (State.setLaunch s k x).rings = s.rings := by simp [State.setLaunch]
@[simp] theorem State.setDomVal_rings (s : State) (d v : Nat) : (State.setDomVal s d v).rings = s.rings := by simp [State.setDomVal]
@[simp] theorem State.setTrack_rings (s : State) (t : Nat) (x : Track) : (State.setTrack s t x).rings = s.rings := by simp [State.setTrack]
@[simp] theorem State.setInst_rings (s : State) (n : Nat) (x : Inst) : (State.setInst s n x).rings = s.rings := by simp [State.setInst]
@[simp] theorem State.setDbe_rings (s : State) (a : Nat) (b : Bool) : (State.setDbe s a b).rings = s.rings := by simp [State.setDbe]
@[simp] theorem State.setSbe_rings (s : State) (a : Nat) (b : Bool) : (State.setSbe s a b).rings = s.rings := by simp [State.setSbe]
@[simp] theorem State.setChord_rings (s : State) (d : Nat) (x : Chord) : (State.setChord s d x).rings = s.rings := by simp [State.setChord]
@[simp] theorem State.setSw_rings (s : State) (f : Switch → Switch) : (State.setSw s f).rings = s.rings := by simp [State.setSw]
@[simp] theorem State.setQueue_rings (s : State) (st c : Nat) (l : List QEntry) : (State.setQueue s st c l).rings = s.rings := by simp [State.setQueue]
@[simp] theorem State.setFrame_rings (s : State) (f : Nat) (x : SwFrame) : (State.setFrame s f x).rings = s.rings := by simp [State.setFrame]
@[simp] theorem State.setUsed_rings (s : State) (st c u : Nat) : (State.setUsed s st c u).rings = s.rings := by simp [State.setUsed]
@[simp] theorem State.setGate_rings (s : State) (p : Nat) (g : GateCtl) : (State.setGate s p g).rings = s.rings := by simp [State.setGate]
@[simp] theorem State.setStream_rings (s : State) (h : Nat) (x : Stream) : (State.setStream s h x).rings = s.rings := by simp [State.setStream]
@[simp] theorem State.setSgate_rings (s : State) (g : Nat) (x : SGate) : (State.setSgate s g x).rings = s.rings := by simp [State.setSgate]
@[simp] theorem State.setMeter_rings (s : State) (m : Nat) (x : Meter) : (State.setMeter s m x).rings = s.rings := by simp [State.setMeter]
@[simp] theorem State.setCb_rings (s : State) (h : Nat) (x : Cb) : (State.setCb s h x).rings = s.rings := by simp [State.setCb]
@[simp] theorem State.setFdb_rings (s : State) (e : Nat) (x : FdbEntry) : (State.setFdb s e x).rings = s.rings := by simp [State.setFdb]
@[simp] theorem State.setMdio_rings (s : State) (m : Nat) (x : Mdio) : (State.setMdio s m x).rings = s.rings := by simp [State.setMdio]
@[simp] theorem State.setPps_rings (s : State) (i : Nat) (x : Pps) : (State.setPps s i x).rings = s.rings := by simp [State.setPps]
@[simp] theorem State.setLat_rings (s : State) (f : Lattice → Lattice) : (State.setLat s f).rings = s.rings := by simp [State.setLat]
@[simp] theorem State.setPio_rings (s : State) (b : Nat) (x : Pio) : (State.setPio s b x).rings = s.rings := by simp [State.setPio]
@[simp] theorem State.setSm_rings (s : State) (m : Nat) (x : Sm) : (State.setSm s m x).rings = s.rings := by simp [State.setSm]
@[simp] theorem State.setPioFlags_rings (s : State) (b v : Nat) : (State.setPioFlags s b v).rings = s.rings := by simp [State.setPioFlags]
@[simp] theorem State.setTrkS_rings (s : State) (t j v : Nat) : (State.setTrkS s t j v).rings = s.rings := by simp [State.setTrkS]
@[simp] theorem State.setCan_rings (s : State) (c : Nat) (x : Can) : (State.setCan s c x).rings = s.rings := by simp [State.setCan]
@[simp] theorem State.setBuf_rings (s : State) (c b lsb w v : Nat) : (State.setBuf s c b lsb w v).rings = s.rings := by simp [State.setBuf]
@[simp] theorem State.setBufState_rings (s : State) (c b v : Nat) : (State.setBufState s c b v).rings = s.rings := by simp [State.setBufState]
@[simp] theorem State.setCoreState_rings (s : State) (c v : Nat) : (State.setCoreState s c v).rings = s.rings := by simp [State.setCoreState]
@[simp] theorem State.setPc_rings (s : State) (c v : Nat) : (State.setPc s c v).rings = s.rings := by simp [State.setPc]
@[simp] theorem State.setSession_rings (s : State) (c : Nat) (x : Session) : (State.setSession s c x).rings = s.rings := by simp [State.setSession]
@[simp] theorem State.setDmaCh_rings (s : State) (k : Nat) (x : DmaCh) : (State.setDmaCh s k x).rings = s.rings := by simp [State.setDmaCh]
@[simp] theorem State.setPath_rings (s : State) (p : Path) (x : PathSt) : (State.setPath s p x).rings = s.rings := by simp [State.setPath]
@[simp] theorem State.setRecord_rings (s : State) (d : List Byte) (applied refused : Nat) : (State.setRecord s d applied refused).rings = s.rings := by simp [State.setRecord]
@[simp] theorem State.setNetSel_rings (s : State) (n conn v : Nat) : (State.setNetSel s n conn v).rings = s.rings := by simp [State.setNetSel]
/-! ### pio -/

@[simp] theorem ite_pio (c : Prop) [Decidable c] (a b : State) : (if c then a else b).pio = if c then a.pio else b.pio := apply_ite State.pio c a b
@[simp] theorem foldl_pio {α : Type} (f : State → α → State) (h : ∀ s a, (f s a).pio = s.pio) (l : List α) (s : State) : (l.foldl f s).pio = s.pio := by
  induction l generalizing s with
  | nil => rfl
  | cons x l ih => simp [ih, h]


@[simp] theorem State.wr_pio (s : State) (i j v : Nat) : (State.wr s i j v).pio = s.pio := by simp [State.wr]
@[simp] theorem State.wrD_pio (s : State) (i j : Nat) (v : DWord) : (State.wrD s i j v).pio = s.pio := by simp [State.wrD]
@[simp] theorem State.setBits_pio (s : State) (i j m : Nat) : (State.setBits s i j m).pio = s.pio := by simp [State.setBits]
@[simp] theorem State.clrBits_pio (s : State) (i j m : Nat) : (State.clrBits s i j m).pio = s.pio := by simp [State.clrBits]
@[simp] theorem State.putBits_pio (s : State) (i j m : Nat) (on : Bool) : (State.putBits s i j m on).pio = s.pio := by simp [State.putBits]
@[simp] theorem State.setBit_pio (s : State) (i j b : Nat) : (State.setBit s i j b).pio = s.pio := by simp [State.setBit]
@[simp] theorem State.emit_pio (s : State) (o : Out) : (State.emit s o).pio = s.pio := by simp [State.emit]
@[simp] theorem State.tick_pio (s : State) : (State.tick s).pio = s.pio := by simp [State.tick]
@[simp] theorem State.setEngine_pio (s : State) (c : Nat) (e : Engine) : (State.setEngine s c e).pio = s.pio := by simp [State.setEngine]
@[simp] theorem State.setChan_pio (s : State) (c : Nat) (m : Mbox) : (State.setChan s c m).pio = s.pio := by simp [State.setChan]
@[simp] theorem State.setPort_pio (s : State) (p : Nat) (x : Port) : (State.setPort s p x).pio = s.pio := by simp [State.setPort]
@[simp] theorem State.msix_pio (s : State) (v : Nat) : (State.msix s v).pio = s.pio := by simp [State.msix]
@[simp] theorem State.evpSet_pio (s : State) (c b : Nat) : (State.evpSet s c b).pio = s.pio := by simp [State.evpSet]
@[simp] theorem State.notify_pio (s : State) (r : Nat) : (State.notify s r).pio = s.pio := by simp [State.notify]
@[simp] theorem State.route_pio (s : State) (r : Nat) (statusWritten : Bool) : (State.route s r statusWritten).pio = s.pio := by simp [State.route]
@[simp] theorem State.event_pio (s : State) (i j m : Nat) : (State.event s i j m).pio = s.pio := by simp [State.event]
@[simp] theorem State.addW_pio (s : State) (i j w k : Nat) : (State.addW s i j w k).pio = s.pio := by simp [State.addW]
@[simp] theorem State.cnt_pio (s : State) (i j : Nat) : (State.cnt s i j).pio = s.pio := by simp [State.cnt]
@[simp] theorem State.cntS_pio (s : State) (i j : Nat) : (State.cntS s i j).pio = s.pio := by simp [State.cntS]
@[simp] theorem State.addH_pio (s : State) (i j w k ei ej : Nat) : (State.addH s i j w k ei ej).pio = s.pio := by simp [State.addH]
@[simp] theorem State.cntH_pio (s : State) (i j ei ej : Nat) : (State.cntH s i j ei ej).pio = s.pio := by simp [State.cntH]
@[simp] theorem State.setByte_pio (s : State) (a : Nat) (b : Byte) : (State.setByte s a b).pio = s.pio := by simp [State.setByte]
@[simp] theorem State.setBytes_pio (s : State) (a : Nat) (x0 : List Byte) : (State.setBytes s a x0).pio = s.pio := by
  induction x0 generalizing s a <;> first | (simp_all [State.setBytes]; done) | (unfold State.setBytes; (repeat' split) <;> simp_all)
@[simp] theorem State.setW32_pio (s : State) (a v : Nat) : (State.setW32 s a v).pio = s.pio := by simp [State.setW32]
@[simp] theorem State.zeroRange_pio (s : State) (lo hi : Nat) : (State.zeroRange s lo hi).pio = s.pio := by simp [State.zeroRange]
@[simp] theorem State.enter_pio (s : State) (st : Nat) : (State.enter s st).pio = s.pio := by simp [State.enter]
@[simp] theorem State.errGeneric_pio (s : State) : (State.errGeneric s).pio = s.pio := by simp [State.errGeneric]
@[simp] theorem State.errBit_pio (s : State) (b : Nat) (on : Bool) : (State.errBit s b on).pio = s.pio := by simp [State.errBit]
@[simp] theorem State.holdLow_pio (s : State) : (State.holdLow s).pio = s.pio := by simp [State.holdLow]
@[simp] theorem State.hold_pio (s : State) (m : Nat) : (State.hold s m).pio = s.pio := by simp [State.hold]
@[simp] theorem State.unhold_pio (s : State) (m : Nat) : (State.unhold s m).pio = s.pio := by simp [State.unhold]
@[simp] theorem State.violate_pio (s : State) (id : Nat) : (State.violate s id).pio = s.pio := by simp [State.violate]
@[simp] theorem State.showAllowances_pio (s : State) : (State.showAllowances s).pio = s.pio := by
  first
  | (simp [State.showAllowances]; done)
  | (unfold State.showAllowances; (repeat' split) <;> (first | (simp; done) | (simp_all; done)))
  | (simp only [State.showAllowances]; (repeat' split) <;> (first | (simp; done) | (simp_all; done)))
  | (unfold State.showAllowances; (try dsimp only); refine foldl_pio _ (fun s a => ?_) _ _; (try dsimp only); (repeat' split) <;> (first | (simp; done) | (simp_all; done)))
@[simp] theorem State.admitRec_pio (s : State) (r : Rec) : (State.admitRec s r).pio = s.pio := by simp [State.admitRec]
@[simp] theorem State.record_pio (s : State) (typ : Nat) (body : List Byte) : (State.record s typ body).pio = s.pio := by simp [State.record]
@[simp] theorem State.setTdom_pio (s : State) (d : Nat) (x : TimeDom) : (State.setTdom s d x).pio = s.pio := by simp [State.setTdom]
@[simp] theorem State.setLaunch_pio (s : State) (k : Nat) (x : Launch) : (State.setLaunch s k x).pio = s.pio := by simp [State.setLaunch]
@[simp] theorem State.setDomVal_pio (s : State) (d v : Nat) : (State.setDomVal s d v).pio = s.pio := by simp [State.setDomVal]
@[simp] theorem State.setRing_pio (s : State) (n : Nat) (x : Ring) : (State.setRing s n x).pio = s.pio := by simp [State.setRing]
@[simp] theorem State.setTrack_pio (s : State) (t : Nat) (x : Track) : (State.setTrack s t x).pio = s.pio := by simp [State.setTrack]
@[simp] theorem State.setInst_pio (s : State) (n : Nat) (x : Inst) : (State.setInst s n x).pio = s.pio := by simp [State.setInst]
@[simp] theorem State.setDbe_pio (s : State) (a : Nat) (b : Bool) : (State.setDbe s a b).pio = s.pio := by simp [State.setDbe]
@[simp] theorem State.setSbe_pio (s : State) (a : Nat) (b : Bool) : (State.setSbe s a b).pio = s.pio := by simp [State.setSbe]
@[simp] theorem State.setChord_pio (s : State) (d : Nat) (x : Chord) : (State.setChord s d x).pio = s.pio := by simp [State.setChord]
@[simp] theorem State.setSw_pio (s : State) (f : Switch → Switch) : (State.setSw s f).pio = s.pio := by simp [State.setSw]
@[simp] theorem State.setQueue_pio (s : State) (st c : Nat) (l : List QEntry) : (State.setQueue s st c l).pio = s.pio := by simp [State.setQueue]
@[simp] theorem State.setFrame_pio (s : State) (f : Nat) (x : SwFrame) : (State.setFrame s f x).pio = s.pio := by simp [State.setFrame]
@[simp] theorem State.setUsed_pio (s : State) (st c u : Nat) : (State.setUsed s st c u).pio = s.pio := by simp [State.setUsed]
@[simp] theorem State.setGate_pio (s : State) (p : Nat) (g : GateCtl) : (State.setGate s p g).pio = s.pio := by simp [State.setGate]
@[simp] theorem State.setStream_pio (s : State) (h : Nat) (x : Stream) : (State.setStream s h x).pio = s.pio := by simp [State.setStream]
@[simp] theorem State.setSgate_pio (s : State) (g : Nat) (x : SGate) : (State.setSgate s g x).pio = s.pio := by simp [State.setSgate]
@[simp] theorem State.setMeter_pio (s : State) (m : Nat) (x : Meter) : (State.setMeter s m x).pio = s.pio := by simp [State.setMeter]
@[simp] theorem State.setCb_pio (s : State) (h : Nat) (x : Cb) : (State.setCb s h x).pio = s.pio := by simp [State.setCb]
@[simp] theorem State.setFdb_pio (s : State) (e : Nat) (x : FdbEntry) : (State.setFdb s e x).pio = s.pio := by simp [State.setFdb]
@[simp] theorem State.setMdio_pio (s : State) (m : Nat) (x : Mdio) : (State.setMdio s m x).pio = s.pio := by simp [State.setMdio]
@[simp] theorem State.setPps_pio (s : State) (i : Nat) (x : Pps) : (State.setPps s i x).pio = s.pio := by simp [State.setPps]
@[simp] theorem State.setEcho_pio (s : State) (n : Nat) (east : Bool) (x : Echo) : (State.setEcho s n east x).pio = s.pio := by simp [State.setEcho]
@[simp] theorem State.setSlotFetch_pio (s : State) (n k : Nat) (x : Nat × List Nib) : (State.setSlotFetch s n k x).pio = s.pio := by simp [State.setSlotFetch]
@[simp] theorem State.setStaged_pio (s : State) (n t : Nat) (l : List (Nat × List Byte)) : (State.setStaged s n t l).pio = s.pio := by simp [State.setStaged]
@[simp] theorem State.setLat_pio (s : State) (f : Lattice → Lattice) : (State.setLat s f).pio = s.pio := by simp [State.setLat]
@[simp] theorem State.setSm_pio (s : State) (m : Nat) (x : Sm) : (State.setSm s m x).pio = s.pio := by simp [State.setSm]
@[simp] theorem State.setPioFlags_pio (s : State) (b v : Nat) : (State.setPioFlags s b v).pio = s.pio := by simp [State.setPioFlags]
@[simp] theorem State.setTrkS_pio (s : State) (t j v : Nat) : (State.setTrkS s t j v).pio = s.pio := by simp [State.setTrkS]
@[simp] theorem State.setCan_pio (s : State) (c : Nat) (x : Can) : (State.setCan s c x).pio = s.pio := by simp [State.setCan]
@[simp] theorem State.setBuf_pio (s : State) (c b lsb w v : Nat) : (State.setBuf s c b lsb w v).pio = s.pio := by simp [State.setBuf]
@[simp] theorem State.setBufState_pio (s : State) (c b v : Nat) : (State.setBufState s c b v).pio = s.pio := by simp [State.setBufState]
@[simp] theorem State.setCoreState_pio (s : State) (c v : Nat) : (State.setCoreState s c v).pio = s.pio := by simp [State.setCoreState]
@[simp] theorem State.setPc_pio (s : State) (c v : Nat) : (State.setPc s c v).pio = s.pio := by simp [State.setPc]
@[simp] theorem State.setSession_pio (s : State) (c : Nat) (x : Session) : (State.setSession s c x).pio = s.pio := by simp [State.setSession]
@[simp] theorem State.setDmaCh_pio (s : State) (k : Nat) (x : DmaCh) : (State.setDmaCh s k x).pio = s.pio := by simp [State.setDmaCh]
@[simp] theorem State.setPath_pio (s : State) (p : Path) (x : PathSt) : (State.setPath s p x).pio = s.pio := by simp [State.setPath]
@[simp] theorem State.setRecord_pio (s : State) (d : List Byte) (applied refused : Nat) : (State.setRecord s d applied refused).pio = s.pio := by simp [State.setRecord]
@[simp] theorem State.setNetSel_pio (s : State) (n conn v : Nat) : (State.setNetSel s n conn v).pio = s.pio := by simp [State.setNetSel]
/-! ### sms -/

@[simp] theorem ite_sms (c : Prop) [Decidable c] (a b : State) : (if c then a else b).sms = if c then a.sms else b.sms := apply_ite State.sms c a b
@[simp] theorem foldl_sms {α : Type} (f : State → α → State) (h : ∀ s a, (f s a).sms = s.sms) (l : List α) (s : State) : (l.foldl f s).sms = s.sms := by
  induction l generalizing s with
  | nil => rfl
  | cons x l ih => simp [ih, h]


@[simp] theorem State.wr_sms (s : State) (i j v : Nat) : (State.wr s i j v).sms = s.sms := by simp [State.wr]
@[simp] theorem State.wrD_sms (s : State) (i j : Nat) (v : DWord) : (State.wrD s i j v).sms = s.sms := by simp [State.wrD]
@[simp] theorem State.setBits_sms (s : State) (i j m : Nat) : (State.setBits s i j m).sms = s.sms := by simp [State.setBits]
@[simp] theorem State.clrBits_sms (s : State) (i j m : Nat) : (State.clrBits s i j m).sms = s.sms := by simp [State.clrBits]
@[simp] theorem State.putBits_sms (s : State) (i j m : Nat) (on : Bool) : (State.putBits s i j m on).sms = s.sms := by simp [State.putBits]
@[simp] theorem State.setBit_sms (s : State) (i j b : Nat) : (State.setBit s i j b).sms = s.sms := by simp [State.setBit]
@[simp] theorem State.emit_sms (s : State) (o : Out) : (State.emit s o).sms = s.sms := by simp [State.emit]
@[simp] theorem State.tick_sms (s : State) : (State.tick s).sms = s.sms := by simp [State.tick]
@[simp] theorem State.setEngine_sms (s : State) (c : Nat) (e : Engine) : (State.setEngine s c e).sms = s.sms := by simp [State.setEngine]
@[simp] theorem State.setChan_sms (s : State) (c : Nat) (m : Mbox) : (State.setChan s c m).sms = s.sms := by simp [State.setChan]
@[simp] theorem State.setPort_sms (s : State) (p : Nat) (x : Port) : (State.setPort s p x).sms = s.sms := by simp [State.setPort]
@[simp] theorem State.msix_sms (s : State) (v : Nat) : (State.msix s v).sms = s.sms := by simp [State.msix]
@[simp] theorem State.evpSet_sms (s : State) (c b : Nat) : (State.evpSet s c b).sms = s.sms := by simp [State.evpSet]
@[simp] theorem State.notify_sms (s : State) (r : Nat) : (State.notify s r).sms = s.sms := by simp [State.notify]
@[simp] theorem State.route_sms (s : State) (r : Nat) (statusWritten : Bool) : (State.route s r statusWritten).sms = s.sms := by simp [State.route]
@[simp] theorem State.event_sms (s : State) (i j m : Nat) : (State.event s i j m).sms = s.sms := by simp [State.event]
@[simp] theorem State.addW_sms (s : State) (i j w k : Nat) : (State.addW s i j w k).sms = s.sms := by simp [State.addW]
@[simp] theorem State.cnt_sms (s : State) (i j : Nat) : (State.cnt s i j).sms = s.sms := by simp [State.cnt]
@[simp] theorem State.cntS_sms (s : State) (i j : Nat) : (State.cntS s i j).sms = s.sms := by simp [State.cntS]
@[simp] theorem State.addH_sms (s : State) (i j w k ei ej : Nat) : (State.addH s i j w k ei ej).sms = s.sms := by simp [State.addH]
@[simp] theorem State.cntH_sms (s : State) (i j ei ej : Nat) : (State.cntH s i j ei ej).sms = s.sms := by simp [State.cntH]
@[simp] theorem State.setByte_sms (s : State) (a : Nat) (b : Byte) : (State.setByte s a b).sms = s.sms := by simp [State.setByte]
@[simp] theorem State.setBytes_sms (s : State) (a : Nat) (x0 : List Byte) : (State.setBytes s a x0).sms = s.sms := by
  induction x0 generalizing s a <;> first | (simp_all [State.setBytes]; done) | (unfold State.setBytes; (repeat' split) <;> simp_all)
@[simp] theorem State.setW32_sms (s : State) (a v : Nat) : (State.setW32 s a v).sms = s.sms := by simp [State.setW32]
@[simp] theorem State.zeroRange_sms (s : State) (lo hi : Nat) : (State.zeroRange s lo hi).sms = s.sms := by simp [State.zeroRange]
@[simp] theorem State.enter_sms (s : State) (st : Nat) : (State.enter s st).sms = s.sms := by simp [State.enter]
@[simp] theorem State.errGeneric_sms (s : State) : (State.errGeneric s).sms = s.sms := by simp [State.errGeneric]
@[simp] theorem State.errBit_sms (s : State) (b : Nat) (on : Bool) : (State.errBit s b on).sms = s.sms := by simp [State.errBit]
@[simp] theorem State.holdLow_sms (s : State) : (State.holdLow s).sms = s.sms := by simp [State.holdLow]
@[simp] theorem State.hold_sms (s : State) (m : Nat) : (State.hold s m).sms = s.sms := by simp [State.hold]
@[simp] theorem State.unhold_sms (s : State) (m : Nat) : (State.unhold s m).sms = s.sms := by simp [State.unhold]
@[simp] theorem State.violate_sms (s : State) (id : Nat) : (State.violate s id).sms = s.sms := by simp [State.violate]
@[simp] theorem State.showAllowances_sms (s : State) : (State.showAllowances s).sms = s.sms := by
  first
  | (simp [State.showAllowances]; done)
  | (unfold State.showAllowances; (repeat' split) <;> (first | (simp; done) | (simp_all; done)))
  | (simp only [State.showAllowances]; (repeat' split) <;> (first | (simp; done) | (simp_all; done)))
  | (unfold State.showAllowances; (try dsimp only); refine foldl_sms _ (fun s a => ?_) _ _; (try dsimp only); (repeat' split) <;> (first | (simp; done) | (simp_all; done)))
@[simp] theorem State.admitRec_sms (s : State) (r : Rec) : (State.admitRec s r).sms = s.sms := by simp [State.admitRec]
@[simp] theorem State.record_sms (s : State) (typ : Nat) (body : List Byte) : (State.record s typ body).sms = s.sms := by simp [State.record]
@[simp] theorem State.setTdom_sms (s : State) (d : Nat) (x : TimeDom) : (State.setTdom s d x).sms = s.sms := by simp [State.setTdom]
@[simp] theorem State.setLaunch_sms (s : State) (k : Nat) (x : Launch) : (State.setLaunch s k x).sms = s.sms := by simp [State.setLaunch]
@[simp] theorem State.setDomVal_sms (s : State) (d v : Nat) : (State.setDomVal s d v).sms = s.sms := by simp [State.setDomVal]
@[simp] theorem State.setRing_sms (s : State) (n : Nat) (x : Ring) : (State.setRing s n x).sms = s.sms := by simp [State.setRing]
@[simp] theorem State.setTrack_sms (s : State) (t : Nat) (x : Track) : (State.setTrack s t x).sms = s.sms := by simp [State.setTrack]
@[simp] theorem State.setInst_sms (s : State) (n : Nat) (x : Inst) : (State.setInst s n x).sms = s.sms := by simp [State.setInst]
@[simp] theorem State.setDbe_sms (s : State) (a : Nat) (b : Bool) : (State.setDbe s a b).sms = s.sms := by simp [State.setDbe]
@[simp] theorem State.setSbe_sms (s : State) (a : Nat) (b : Bool) : (State.setSbe s a b).sms = s.sms := by simp [State.setSbe]
@[simp] theorem State.setChord_sms (s : State) (d : Nat) (x : Chord) : (State.setChord s d x).sms = s.sms := by simp [State.setChord]
@[simp] theorem State.setSw_sms (s : State) (f : Switch → Switch) : (State.setSw s f).sms = s.sms := by simp [State.setSw]
@[simp] theorem State.setQueue_sms (s : State) (st c : Nat) (l : List QEntry) : (State.setQueue s st c l).sms = s.sms := by simp [State.setQueue]
@[simp] theorem State.setFrame_sms (s : State) (f : Nat) (x : SwFrame) : (State.setFrame s f x).sms = s.sms := by simp [State.setFrame]
@[simp] theorem State.setUsed_sms (s : State) (st c u : Nat) : (State.setUsed s st c u).sms = s.sms := by simp [State.setUsed]
@[simp] theorem State.setGate_sms (s : State) (p : Nat) (g : GateCtl) : (State.setGate s p g).sms = s.sms := by simp [State.setGate]
@[simp] theorem State.setStream_sms (s : State) (h : Nat) (x : Stream) : (State.setStream s h x).sms = s.sms := by simp [State.setStream]
@[simp] theorem State.setSgate_sms (s : State) (g : Nat) (x : SGate) : (State.setSgate s g x).sms = s.sms := by simp [State.setSgate]
@[simp] theorem State.setMeter_sms (s : State) (m : Nat) (x : Meter) : (State.setMeter s m x).sms = s.sms := by simp [State.setMeter]
@[simp] theorem State.setCb_sms (s : State) (h : Nat) (x : Cb) : (State.setCb s h x).sms = s.sms := by simp [State.setCb]
@[simp] theorem State.setFdb_sms (s : State) (e : Nat) (x : FdbEntry) : (State.setFdb s e x).sms = s.sms := by simp [State.setFdb]
@[simp] theorem State.setMdio_sms (s : State) (m : Nat) (x : Mdio) : (State.setMdio s m x).sms = s.sms := by simp [State.setMdio]
@[simp] theorem State.setPps_sms (s : State) (i : Nat) (x : Pps) : (State.setPps s i x).sms = s.sms := by simp [State.setPps]
@[simp] theorem State.setEcho_sms (s : State) (n : Nat) (east : Bool) (x : Echo) : (State.setEcho s n east x).sms = s.sms := by simp [State.setEcho]
@[simp] theorem State.setSlotFetch_sms (s : State) (n k : Nat) (x : Nat × List Nib) : (State.setSlotFetch s n k x).sms = s.sms := by simp [State.setSlotFetch]
@[simp] theorem State.setStaged_sms (s : State) (n t : Nat) (l : List (Nat × List Byte)) : (State.setStaged s n t l).sms = s.sms := by simp [State.setStaged]
@[simp] theorem State.setLat_sms (s : State) (f : Lattice → Lattice) : (State.setLat s f).sms = s.sms := by simp [State.setLat]
@[simp] theorem State.setPio_sms (s : State) (b : Nat) (x : Pio) : (State.setPio s b x).sms = s.sms := by simp [State.setPio]
@[simp] theorem State.setPioFlags_sms (s : State) (b v : Nat) : (State.setPioFlags s b v).sms = s.sms := by simp [State.setPioFlags]
@[simp] theorem State.setTrkS_sms (s : State) (t j v : Nat) : (State.setTrkS s t j v).sms = s.sms := by simp [State.setTrkS]
@[simp] theorem State.setCan_sms (s : State) (c : Nat) (x : Can) : (State.setCan s c x).sms = s.sms := by simp [State.setCan]
@[simp] theorem State.setBuf_sms (s : State) (c b lsb w v : Nat) : (State.setBuf s c b lsb w v).sms = s.sms := by simp [State.setBuf]
@[simp] theorem State.setBufState_sms (s : State) (c b v : Nat) : (State.setBufState s c b v).sms = s.sms := by simp [State.setBufState]
@[simp] theorem State.setCoreState_sms (s : State) (c v : Nat) : (State.setCoreState s c v).sms = s.sms := by simp [State.setCoreState]
@[simp] theorem State.setPc_sms (s : State) (c v : Nat) : (State.setPc s c v).sms = s.sms := by simp [State.setPc]
@[simp] theorem State.setSession_sms (s : State) (c : Nat) (x : Session) : (State.setSession s c x).sms = s.sms := by simp [State.setSession]
@[simp] theorem State.setDmaCh_sms (s : State) (k : Nat) (x : DmaCh) : (State.setDmaCh s k x).sms = s.sms := by simp [State.setDmaCh]
@[simp] theorem State.setPath_sms (s : State) (p : Path) (x : PathSt) : (State.setPath s p x).sms = s.sms := by simp [State.setPath]
@[simp] theorem State.setRecord_sms (s : State) (d : List Byte) (applied refused : Nat) : (State.setRecord s d applied refused).sms = s.sms := by simp [State.setRecord]
@[simp] theorem State.setNetSel_sms (s : State) (n conn v : Nat) : (State.setNetSel s n conn v).sms = s.sms := by simp [State.setNetSel]
/-! ### tracks -/

@[simp] theorem ite_tracks (c : Prop) [Decidable c] (a b : State) : (if c then a else b).tracks = if c then a.tracks else b.tracks := apply_ite State.tracks c a b
@[simp] theorem foldl_tracks {α : Type} (f : State → α → State) (h : ∀ s a, (f s a).tracks = s.tracks) (l : List α) (s : State) : (l.foldl f s).tracks = s.tracks := by
  induction l generalizing s with
  | nil => rfl
  | cons x l ih => simp [ih, h]


@[simp] theorem State.wr_tracks (s : State) (i j v : Nat) : (State.wr s i j v).tracks = s.tracks := by simp [State.wr]
@[simp] theorem State.wrD_tracks (s : State) (i j : Nat) (v : DWord) : (State.wrD s i j v).tracks = s.tracks := by simp [State.wrD]
@[simp] theorem State.setBits_tracks (s : State) (i j m : Nat) : (State.setBits s i j m).tracks = s.tracks := by simp [State.setBits]
@[simp] theorem State.clrBits_tracks (s : State) (i j m : Nat) : (State.clrBits s i j m).tracks = s.tracks := by simp [State.clrBits]
@[simp] theorem State.putBits_tracks (s : State) (i j m : Nat) (on : Bool) : (State.putBits s i j m on).tracks = s.tracks := by simp [State.putBits]
@[simp] theorem State.setBit_tracks (s : State) (i j b : Nat) : (State.setBit s i j b).tracks = s.tracks := by simp [State.setBit]
@[simp] theorem State.emit_tracks (s : State) (o : Out) : (State.emit s o).tracks = s.tracks := by simp [State.emit]
@[simp] theorem State.tick_tracks (s : State) : (State.tick s).tracks = s.tracks := by simp [State.tick]
@[simp] theorem State.setEngine_tracks (s : State) (c : Nat) (e : Engine) : (State.setEngine s c e).tracks = s.tracks := by simp [State.setEngine]
@[simp] theorem State.setChan_tracks (s : State) (c : Nat) (m : Mbox) : (State.setChan s c m).tracks = s.tracks := by simp [State.setChan]
@[simp] theorem State.setPort_tracks (s : State) (p : Nat) (x : Port) : (State.setPort s p x).tracks = s.tracks := by simp [State.setPort]
@[simp] theorem State.msix_tracks (s : State) (v : Nat) : (State.msix s v).tracks = s.tracks := by simp [State.msix]
@[simp] theorem State.evpSet_tracks (s : State) (c b : Nat) : (State.evpSet s c b).tracks = s.tracks := by simp [State.evpSet]
@[simp] theorem State.notify_tracks (s : State) (r : Nat) : (State.notify s r).tracks = s.tracks := by simp [State.notify]
@[simp] theorem State.route_tracks (s : State) (r : Nat) (statusWritten : Bool) : (State.route s r statusWritten).tracks = s.tracks := by simp [State.route]
@[simp] theorem State.event_tracks (s : State) (i j m : Nat) : (State.event s i j m).tracks = s.tracks := by simp [State.event]
@[simp] theorem State.addW_tracks (s : State) (i j w k : Nat) : (State.addW s i j w k).tracks = s.tracks := by simp [State.addW]
@[simp] theorem State.cnt_tracks (s : State) (i j : Nat) : (State.cnt s i j).tracks = s.tracks := by simp [State.cnt]
@[simp] theorem State.cntS_tracks (s : State) (i j : Nat) : (State.cntS s i j).tracks = s.tracks := by simp [State.cntS]
@[simp] theorem State.addH_tracks (s : State) (i j w k ei ej : Nat) : (State.addH s i j w k ei ej).tracks = s.tracks := by simp [State.addH]
@[simp] theorem State.cntH_tracks (s : State) (i j ei ej : Nat) : (State.cntH s i j ei ej).tracks = s.tracks := by simp [State.cntH]
@[simp] theorem State.setByte_tracks (s : State) (a : Nat) (b : Byte) : (State.setByte s a b).tracks = s.tracks := by simp [State.setByte]
@[simp] theorem State.setBytes_tracks (s : State) (a : Nat) (x0 : List Byte) : (State.setBytes s a x0).tracks = s.tracks := by
  induction x0 generalizing s a <;> first | (simp_all [State.setBytes]; done) | (unfold State.setBytes; (repeat' split) <;> simp_all)
@[simp] theorem State.setW32_tracks (s : State) (a v : Nat) : (State.setW32 s a v).tracks = s.tracks := by simp [State.setW32]
@[simp] theorem State.zeroRange_tracks (s : State) (lo hi : Nat) : (State.zeroRange s lo hi).tracks = s.tracks := by simp [State.zeroRange]
@[simp] theorem State.enter_tracks (s : State) (st : Nat) : (State.enter s st).tracks = s.tracks := by simp [State.enter]
@[simp] theorem State.errGeneric_tracks (s : State) : (State.errGeneric s).tracks = s.tracks := by simp [State.errGeneric]
@[simp] theorem State.errBit_tracks (s : State) (b : Nat) (on : Bool) : (State.errBit s b on).tracks = s.tracks := by simp [State.errBit]
@[simp] theorem State.holdLow_tracks (s : State) : (State.holdLow s).tracks = s.tracks := by simp [State.holdLow]
@[simp] theorem State.hold_tracks (s : State) (m : Nat) : (State.hold s m).tracks = s.tracks := by simp [State.hold]
@[simp] theorem State.unhold_tracks (s : State) (m : Nat) : (State.unhold s m).tracks = s.tracks := by simp [State.unhold]
@[simp] theorem State.violate_tracks (s : State) (id : Nat) : (State.violate s id).tracks = s.tracks := by simp [State.violate]
@[simp] theorem State.showAllowances_tracks (s : State) : (State.showAllowances s).tracks = s.tracks := by
  first
  | (simp [State.showAllowances]; done)
  | (unfold State.showAllowances; (repeat' split) <;> (first | (simp; done) | (simp_all; done)))
  | (simp only [State.showAllowances]; (repeat' split) <;> (first | (simp; done) | (simp_all; done)))
  | (unfold State.showAllowances; (try dsimp only); refine foldl_tracks _ (fun s a => ?_) _ _; (try dsimp only); (repeat' split) <;> (first | (simp; done) | (simp_all; done)))
@[simp] theorem State.admitRec_tracks (s : State) (r : Rec) : (State.admitRec s r).tracks = s.tracks := by simp [State.admitRec]
@[simp] theorem State.record_tracks (s : State) (typ : Nat) (body : List Byte) : (State.record s typ body).tracks = s.tracks := by simp [State.record]
@[simp] theorem State.setTdom_tracks (s : State) (d : Nat) (x : TimeDom) : (State.setTdom s d x).tracks = s.tracks := by simp [State.setTdom]
@[simp] theorem State.setLaunch_tracks (s : State) (k : Nat) (x : Launch) : (State.setLaunch s k x).tracks = s.tracks := by simp [State.setLaunch]
@[simp] theorem State.setDomVal_tracks (s : State) (d v : Nat) : (State.setDomVal s d v).tracks = s.tracks := by simp [State.setDomVal]
@[simp] theorem State.setRing_tracks (s : State) (n : Nat) (x : Ring) : (State.setRing s n x).tracks = s.tracks := by simp [State.setRing]
@[simp] theorem State.setInst_tracks (s : State) (n : Nat) (x : Inst) : (State.setInst s n x).tracks = s.tracks := by simp [State.setInst]
@[simp] theorem State.setDbe_tracks (s : State) (a : Nat) (b : Bool) : (State.setDbe s a b).tracks = s.tracks := by simp [State.setDbe]
@[simp] theorem State.setSbe_tracks (s : State) (a : Nat) (b : Bool) : (State.setSbe s a b).tracks = s.tracks := by simp [State.setSbe]
@[simp] theorem State.setChord_tracks (s : State) (d : Nat) (x : Chord) : (State.setChord s d x).tracks = s.tracks := by simp [State.setChord]
@[simp] theorem State.setSw_tracks (s : State) (f : Switch → Switch) : (State.setSw s f).tracks = s.tracks := by simp [State.setSw]
@[simp] theorem State.setQueue_tracks (s : State) (st c : Nat) (l : List QEntry) : (State.setQueue s st c l).tracks = s.tracks := by simp [State.setQueue]
@[simp] theorem State.setFrame_tracks (s : State) (f : Nat) (x : SwFrame) : (State.setFrame s f x).tracks = s.tracks := by simp [State.setFrame]
@[simp] theorem State.setUsed_tracks (s : State) (st c u : Nat) : (State.setUsed s st c u).tracks = s.tracks := by simp [State.setUsed]
@[simp] theorem State.setGate_tracks (s : State) (p : Nat) (g : GateCtl) : (State.setGate s p g).tracks = s.tracks := by simp [State.setGate]
@[simp] theorem State.setStream_tracks (s : State) (h : Nat) (x : Stream) : (State.setStream s h x).tracks = s.tracks := by simp [State.setStream]
@[simp] theorem State.setSgate_tracks (s : State) (g : Nat) (x : SGate) : (State.setSgate s g x).tracks = s.tracks := by simp [State.setSgate]
@[simp] theorem State.setMeter_tracks (s : State) (m : Nat) (x : Meter) : (State.setMeter s m x).tracks = s.tracks := by simp [State.setMeter]
@[simp] theorem State.setCb_tracks (s : State) (h : Nat) (x : Cb) : (State.setCb s h x).tracks = s.tracks := by simp [State.setCb]
@[simp] theorem State.setFdb_tracks (s : State) (e : Nat) (x : FdbEntry) : (State.setFdb s e x).tracks = s.tracks := by simp [State.setFdb]
@[simp] theorem State.setMdio_tracks (s : State) (m : Nat) (x : Mdio) : (State.setMdio s m x).tracks = s.tracks := by simp [State.setMdio]
@[simp] theorem State.setPps_tracks (s : State) (i : Nat) (x : Pps) : (State.setPps s i x).tracks = s.tracks := by simp [State.setPps]
@[simp] theorem State.setEcho_tracks (s : State) (n : Nat) (east : Bool) (x : Echo) : (State.setEcho s n east x).tracks = s.tracks := by simp [State.setEcho]
@[simp] theorem State.setSlotFetch_tracks (s : State) (n k : Nat) (x : Nat × List Nib) : (State.setSlotFetch s n k x).tracks = s.tracks := by simp [State.setSlotFetch]
@[simp] theorem State.setStaged_tracks (s : State) (n t : Nat) (l : List (Nat × List Byte)) : (State.setStaged s n t l).tracks = s.tracks := by simp [State.setStaged]
@[simp] theorem State.setLat_tracks (s : State) (f : Lattice → Lattice) : (State.setLat s f).tracks = s.tracks := by simp [State.setLat]
@[simp] theorem State.setPio_tracks (s : State) (b : Nat) (x : Pio) : (State.setPio s b x).tracks = s.tracks := by simp [State.setPio]
@[simp] theorem State.setSm_tracks (s : State) (m : Nat) (x : Sm) : (State.setSm s m x).tracks = s.tracks := by simp [State.setSm]
@[simp] theorem State.setPioFlags_tracks (s : State) (b v : Nat) : (State.setPioFlags s b v).tracks = s.tracks := by simp [State.setPioFlags]
@[simp] theorem State.setTrkS_tracks (s : State) (t j v : Nat) : (State.setTrkS s t j v).tracks = s.tracks := by simp [State.setTrkS]
@[simp] theorem State.setCan_tracks (s : State) (c : Nat) (x : Can) : (State.setCan s c x).tracks = s.tracks := by simp [State.setCan]
@[simp] theorem State.setBuf_tracks (s : State) (c b lsb w v : Nat) : (State.setBuf s c b lsb w v).tracks = s.tracks := by simp [State.setBuf]
@[simp] theorem State.setBufState_tracks (s : State) (c b v : Nat) : (State.setBufState s c b v).tracks = s.tracks := by simp [State.setBufState]
@[simp] theorem State.setCoreState_tracks (s : State) (c v : Nat) : (State.setCoreState s c v).tracks = s.tracks := by simp [State.setCoreState]
@[simp] theorem State.setPc_tracks (s : State) (c v : Nat) : (State.setPc s c v).tracks = s.tracks := by simp [State.setPc]
@[simp] theorem State.setSession_tracks (s : State) (c : Nat) (x : Session) : (State.setSession s c x).tracks = s.tracks := by simp [State.setSession]
@[simp] theorem State.setDmaCh_tracks (s : State) (k : Nat) (x : DmaCh) : (State.setDmaCh s k x).tracks = s.tracks := by simp [State.setDmaCh]
@[simp] theorem State.setPath_tracks (s : State) (p : Path) (x : PathSt) : (State.setPath s p x).tracks = s.tracks := by simp [State.setPath]
@[simp] theorem State.setRecord_tracks (s : State) (d : List Byte) (applied refused : Nat) : (State.setRecord s d applied refused).tracks = s.tracks := by simp [State.setRecord]
@[simp] theorem State.setNetSel_tracks (s : State) (n conn v : Nat) : (State.setNetSel s n conn v).tracks = s.tracks := by simp [State.setNetSel]
/-! ### locus -/

@[simp] theorem ite_locus (c : Prop) [Decidable c] (a b : State) : (if c then a else b).locus = if c then a.locus else b.locus := apply_ite State.locus c a b
@[simp] theorem foldl_locus {α : Type} (f : State → α → State) (h : ∀ s a, (f s a).locus = s.locus) (l : List α) (s : State) : (l.foldl f s).locus = s.locus := by
  induction l generalizing s with
  | nil => rfl
  | cons x l ih => simp [ih, h]


@[simp] theorem State.wr_locus (s : State) (i j v : Nat) : (State.wr s i j v).locus = s.locus := by simp [State.wr]
@[simp] theorem State.wrD_locus (s : State) (i j : Nat) (v : DWord) : (State.wrD s i j v).locus = s.locus := by simp [State.wrD]
@[simp] theorem State.setBits_locus (s : State) (i j m : Nat) : (State.setBits s i j m).locus = s.locus := by simp [State.setBits]
@[simp] theorem State.clrBits_locus (s : State) (i j m : Nat) : (State.clrBits s i j m).locus = s.locus := by simp [State.clrBits]
@[simp] theorem State.putBits_locus (s : State) (i j m : Nat) (on : Bool) : (State.putBits s i j m on).locus = s.locus := by simp [State.putBits]
@[simp] theorem State.setBit_locus (s : State) (i j b : Nat) : (State.setBit s i j b).locus = s.locus := by simp [State.setBit]
@[simp] theorem State.emit_locus (s : State) (o : Out) : (State.emit s o).locus = s.locus := by simp [State.emit]
@[simp] theorem State.tick_locus (s : State) : (State.tick s).locus = s.locus := by simp [State.tick]
@[simp] theorem State.setEngine_locus (s : State) (c : Nat) (e : Engine) : (State.setEngine s c e).locus = s.locus := by simp [State.setEngine]
@[simp] theorem State.setChan_locus (s : State) (c : Nat) (m : Mbox) : (State.setChan s c m).locus = s.locus := by simp [State.setChan]
@[simp] theorem State.setPort_locus (s : State) (p : Nat) (x : Port) : (State.setPort s p x).locus = s.locus := by simp [State.setPort]
@[simp] theorem State.msix_locus (s : State) (v : Nat) : (State.msix s v).locus = s.locus := by simp [State.msix]
@[simp] theorem State.evpSet_locus (s : State) (c b : Nat) : (State.evpSet s c b).locus = s.locus := by simp [State.evpSet]
@[simp] theorem State.notify_locus (s : State) (r : Nat) : (State.notify s r).locus = s.locus := by simp [State.notify]
@[simp] theorem State.route_locus (s : State) (r : Nat) (statusWritten : Bool) : (State.route s r statusWritten).locus = s.locus := by simp [State.route]
@[simp] theorem State.event_locus (s : State) (i j m : Nat) : (State.event s i j m).locus = s.locus := by simp [State.event]
@[simp] theorem State.addW_locus (s : State) (i j w k : Nat) : (State.addW s i j w k).locus = s.locus := by simp [State.addW]
@[simp] theorem State.cnt_locus (s : State) (i j : Nat) : (State.cnt s i j).locus = s.locus := by simp [State.cnt]
@[simp] theorem State.cntS_locus (s : State) (i j : Nat) : (State.cntS s i j).locus = s.locus := by simp [State.cntS]
@[simp] theorem State.addH_locus (s : State) (i j w k ei ej : Nat) : (State.addH s i j w k ei ej).locus = s.locus := by simp [State.addH]
@[simp] theorem State.cntH_locus (s : State) (i j ei ej : Nat) : (State.cntH s i j ei ej).locus = s.locus := by simp [State.cntH]
@[simp] theorem State.setByte_locus (s : State) (a : Nat) (b : Byte) : (State.setByte s a b).locus = s.locus := by simp [State.setByte]
@[simp] theorem State.setBytes_locus (s : State) (a : Nat) (x0 : List Byte) : (State.setBytes s a x0).locus = s.locus := by
  induction x0 generalizing s a <;> first | (simp_all [State.setBytes]; done) | (unfold State.setBytes; (repeat' split) <;> simp_all)
@[simp] theorem State.setW32_locus (s : State) (a v : Nat) : (State.setW32 s a v).locus = s.locus := by simp [State.setW32]
@[simp] theorem State.zeroRange_locus (s : State) (lo hi : Nat) : (State.zeroRange s lo hi).locus = s.locus := by simp [State.zeroRange]
@[simp] theorem State.enter_locus (s : State) (st : Nat) : (State.enter s st).locus = s.locus := by simp [State.enter]
@[simp] theorem State.errGeneric_locus (s : State) : (State.errGeneric s).locus = s.locus := by simp [State.errGeneric]
@[simp] theorem State.errBit_locus (s : State) (b : Nat) (on : Bool) : (State.errBit s b on).locus = s.locus := by simp [State.errBit]
@[simp] theorem State.holdLow_locus (s : State) : (State.holdLow s).locus = s.locus := by simp [State.holdLow]
@[simp] theorem State.hold_locus (s : State) (m : Nat) : (State.hold s m).locus = s.locus := by simp [State.hold]
@[simp] theorem State.unhold_locus (s : State) (m : Nat) : (State.unhold s m).locus = s.locus := by simp [State.unhold]
@[simp] theorem State.violate_locus (s : State) (id : Nat) : (State.violate s id).locus = s.locus := by simp [State.violate]
@[simp] theorem State.showAllowances_locus (s : State) : (State.showAllowances s).locus = s.locus := by
  first
  | (simp [State.showAllowances]; done)
  | (unfold State.showAllowances; (repeat' split) <;> (first | (simp; done) | (simp_all; done)))
  | (simp only [State.showAllowances]; (repeat' split) <;> (first | (simp; done) | (simp_all; done)))
  | (unfold State.showAllowances; (try dsimp only); refine foldl_locus _ (fun s a => ?_) _ _; (try dsimp only); (repeat' split) <;> (first | (simp; done) | (simp_all; done)))
@[simp] theorem State.admitRec_locus (s : State) (r : Rec) : (State.admitRec s r).locus = s.locus := by simp [State.admitRec]
@[simp] theorem State.record_locus (s : State) (typ : Nat) (body : List Byte) : (State.record s typ body).locus = s.locus := by simp [State.record]
@[simp] theorem State.setTdom_locus (s : State) (d : Nat) (x : TimeDom) : (State.setTdom s d x).locus = s.locus := by simp [State.setTdom]
@[simp] theorem State.setLaunch_locus (s : State) (k : Nat) (x : Launch) : (State.setLaunch s k x).locus = s.locus := by simp [State.setLaunch]
@[simp] theorem State.setDomVal_locus (s : State) (d v : Nat) : (State.setDomVal s d v).locus = s.locus := by simp [State.setDomVal]
@[simp] theorem State.setRing_locus (s : State) (n : Nat) (x : Ring) : (State.setRing s n x).locus = s.locus := by simp [State.setRing]
@[simp] theorem State.setTrack_locus (s : State) (t : Nat) (x : Track) : (State.setTrack s t x).locus = s.locus := by simp [State.setTrack]
@[simp] theorem State.setInst_locus (s : State) (n : Nat) (x : Inst) : (State.setInst s n x).locus = s.locus := by simp [State.setInst]
@[simp] theorem State.setDbe_locus (s : State) (a : Nat) (b : Bool) : (State.setDbe s a b).locus = s.locus := by simp [State.setDbe]
@[simp] theorem State.setSbe_locus (s : State) (a : Nat) (b : Bool) : (State.setSbe s a b).locus = s.locus := by simp [State.setSbe]
@[simp] theorem State.setChord_locus (s : State) (d : Nat) (x : Chord) : (State.setChord s d x).locus = s.locus := by simp [State.setChord]
@[simp] theorem State.setSw_locus (s : State) (f : Switch → Switch) : (State.setSw s f).locus = s.locus := by simp [State.setSw]
@[simp] theorem State.setQueue_locus (s : State) (st c : Nat) (l : List QEntry) : (State.setQueue s st c l).locus = s.locus := by simp [State.setQueue]
@[simp] theorem State.setFrame_locus (s : State) (f : Nat) (x : SwFrame) : (State.setFrame s f x).locus = s.locus := by simp [State.setFrame]
@[simp] theorem State.setUsed_locus (s : State) (st c u : Nat) : (State.setUsed s st c u).locus = s.locus := by simp [State.setUsed]
@[simp] theorem State.setGate_locus (s : State) (p : Nat) (g : GateCtl) : (State.setGate s p g).locus = s.locus := by simp [State.setGate]
@[simp] theorem State.setStream_locus (s : State) (h : Nat) (x : Stream) : (State.setStream s h x).locus = s.locus := by simp [State.setStream]
@[simp] theorem State.setSgate_locus (s : State) (g : Nat) (x : SGate) : (State.setSgate s g x).locus = s.locus := by simp [State.setSgate]
@[simp] theorem State.setMeter_locus (s : State) (m : Nat) (x : Meter) : (State.setMeter s m x).locus = s.locus := by simp [State.setMeter]
@[simp] theorem State.setCb_locus (s : State) (h : Nat) (x : Cb) : (State.setCb s h x).locus = s.locus := by simp [State.setCb]
@[simp] theorem State.setFdb_locus (s : State) (e : Nat) (x : FdbEntry) : (State.setFdb s e x).locus = s.locus := by simp [State.setFdb]
@[simp] theorem State.setMdio_locus (s : State) (m : Nat) (x : Mdio) : (State.setMdio s m x).locus = s.locus := by simp [State.setMdio]
@[simp] theorem State.setPps_locus (s : State) (i : Nat) (x : Pps) : (State.setPps s i x).locus = s.locus := by simp [State.setPps]
@[simp] theorem State.setEcho_locus (s : State) (n : Nat) (east : Bool) (x : Echo) : (State.setEcho s n east x).locus = s.locus := by simp [State.setEcho]
@[simp] theorem State.setSlotFetch_locus (s : State) (n k : Nat) (x : Nat × List Nib) : (State.setSlotFetch s n k x).locus = s.locus := by simp [State.setSlotFetch]
@[simp] theorem State.setStaged_locus (s : State) (n t : Nat) (l : List (Nat × List Byte)) : (State.setStaged s n t l).locus = s.locus := by simp [State.setStaged]
@[simp] theorem State.setLat_locus (s : State) (f : Lattice → Lattice) : (State.setLat s f).locus = s.locus := by simp [State.setLat]
@[simp] theorem State.setPio_locus (s : State) (b : Nat) (x : Pio) : (State.setPio s b x).locus = s.locus := by simp [State.setPio]
@[simp] theorem State.setSm_locus (s : State) (m : Nat) (x : Sm) : (State.setSm s m x).locus = s.locus := by simp [State.setSm]
@[simp] theorem State.setPioFlags_locus (s : State) (b v : Nat) : (State.setPioFlags s b v).locus = s.locus := by simp [State.setPioFlags]
@[simp] theorem State.setTrkS_locus (s : State) (t j v : Nat) : (State.setTrkS s t j v).locus = s.locus := by simp [State.setTrkS]
@[simp] theorem State.setCan_locus (s : State) (c : Nat) (x : Can) : (State.setCan s c x).locus = s.locus := by simp [State.setCan]
@[simp] theorem State.setBuf_locus (s : State) (c b lsb w v : Nat) : (State.setBuf s c b lsb w v).locus = s.locus := by simp [State.setBuf]
@[simp] theorem State.setBufState_locus (s : State) (c b v : Nat) : (State.setBufState s c b v).locus = s.locus := by simp [State.setBufState]
@[simp] theorem State.setCoreState_locus (s : State) (c v : Nat) : (State.setCoreState s c v).locus = s.locus := by simp [State.setCoreState]
@[simp] theorem State.setPc_locus (s : State) (c v : Nat) : (State.setPc s c v).locus = s.locus := by simp [State.setPc]
@[simp] theorem State.setSession_locus (s : State) (c : Nat) (x : Session) : (State.setSession s c x).locus = s.locus := by simp [State.setSession]
@[simp] theorem State.setDmaCh_locus (s : State) (k : Nat) (x : DmaCh) : (State.setDmaCh s k x).locus = s.locus := by simp [State.setDmaCh]
@[simp] theorem State.setPath_locus (s : State) (p : Path) (x : PathSt) : (State.setPath s p x).locus = s.locus := by simp [State.setPath]
@[simp] theorem State.setRecord_locus (s : State) (d : List Byte) (applied refused : Nat) : (State.setRecord s d applied refused).locus = s.locus := by simp [State.setRecord]
@[simp] theorem State.setNetSel_locus (s : State) (n conn v : Nat) : (State.setNetSel s n conn v).locus = s.locus := by simp [State.setNetSel]
/-! ### can -/

@[simp] theorem ite_can (c : Prop) [Decidable c] (a b : State) : (if c then a else b).can = if c then a.can else b.can := apply_ite State.can c a b
@[simp] theorem foldl_can {α : Type} (f : State → α → State) (h : ∀ s a, (f s a).can = s.can) (l : List α) (s : State) : (l.foldl f s).can = s.can := by
  induction l generalizing s with
  | nil => rfl
  | cons x l ih => simp [ih, h]


@[simp] theorem State.wr_can (s : State) (i j v : Nat) : (State.wr s i j v).can = s.can := by simp [State.wr]
@[simp] theorem State.wrD_can (s : State) (i j : Nat) (v : DWord) : (State.wrD s i j v).can = s.can := by simp [State.wrD]
@[simp] theorem State.setBits_can (s : State) (i j m : Nat) : (State.setBits s i j m).can = s.can := by simp [State.setBits]
@[simp] theorem State.clrBits_can (s : State) (i j m : Nat) : (State.clrBits s i j m).can = s.can := by simp [State.clrBits]
@[simp] theorem State.putBits_can (s : State) (i j m : Nat) (on : Bool) : (State.putBits s i j m on).can = s.can := by simp [State.putBits]
@[simp] theorem State.setBit_can (s : State) (i j b : Nat) : (State.setBit s i j b).can = s.can := by simp [State.setBit]
@[simp] theorem State.emit_can (s : State) (o : Out) : (State.emit s o).can = s.can := by simp [State.emit]
@[simp] theorem State.tick_can (s : State) : (State.tick s).can = s.can := by simp [State.tick]
@[simp] theorem State.setEngine_can (s : State) (c : Nat) (e : Engine) : (State.setEngine s c e).can = s.can := by simp [State.setEngine]
@[simp] theorem State.setChan_can (s : State) (c : Nat) (m : Mbox) : (State.setChan s c m).can = s.can := by simp [State.setChan]
@[simp] theorem State.setPort_can (s : State) (p : Nat) (x : Port) : (State.setPort s p x).can = s.can := by simp [State.setPort]
@[simp] theorem State.msix_can (s : State) (v : Nat) : (State.msix s v).can = s.can := by simp [State.msix]
@[simp] theorem State.evpSet_can (s : State) (c b : Nat) : (State.evpSet s c b).can = s.can := by simp [State.evpSet]
@[simp] theorem State.notify_can (s : State) (r : Nat) : (State.notify s r).can = s.can := by simp [State.notify]
@[simp] theorem State.route_can (s : State) (r : Nat) (statusWritten : Bool) : (State.route s r statusWritten).can = s.can := by simp [State.route]
@[simp] theorem State.event_can (s : State) (i j m : Nat) : (State.event s i j m).can = s.can := by simp [State.event]
@[simp] theorem State.addW_can (s : State) (i j w k : Nat) : (State.addW s i j w k).can = s.can := by simp [State.addW]
@[simp] theorem State.cnt_can (s : State) (i j : Nat) : (State.cnt s i j).can = s.can := by simp [State.cnt]
@[simp] theorem State.cntS_can (s : State) (i j : Nat) : (State.cntS s i j).can = s.can := by simp [State.cntS]
@[simp] theorem State.addH_can (s : State) (i j w k ei ej : Nat) : (State.addH s i j w k ei ej).can = s.can := by simp [State.addH]
@[simp] theorem State.cntH_can (s : State) (i j ei ej : Nat) : (State.cntH s i j ei ej).can = s.can := by simp [State.cntH]
@[simp] theorem State.setByte_can (s : State) (a : Nat) (b : Byte) : (State.setByte s a b).can = s.can := by simp [State.setByte]
@[simp] theorem State.setBytes_can (s : State) (a : Nat) (x0 : List Byte) : (State.setBytes s a x0).can = s.can := by
  induction x0 generalizing s a <;> first | (simp_all [State.setBytes]; done) | (unfold State.setBytes; (repeat' split) <;> simp_all)
@[simp] theorem State.setW32_can (s : State) (a v : Nat) : (State.setW32 s a v).can = s.can := by simp [State.setW32]
@[simp] theorem State.zeroRange_can (s : State) (lo hi : Nat) : (State.zeroRange s lo hi).can = s.can := by simp [State.zeroRange]
@[simp] theorem State.enter_can (s : State) (st : Nat) : (State.enter s st).can = s.can := by simp [State.enter]
@[simp] theorem State.errGeneric_can (s : State) : (State.errGeneric s).can = s.can := by simp [State.errGeneric]
@[simp] theorem State.errBit_can (s : State) (b : Nat) (on : Bool) : (State.errBit s b on).can = s.can := by simp [State.errBit]
@[simp] theorem State.holdLow_can (s : State) : (State.holdLow s).can = s.can := by simp [State.holdLow]
@[simp] theorem State.hold_can (s : State) (m : Nat) : (State.hold s m).can = s.can := by simp [State.hold]
@[simp] theorem State.unhold_can (s : State) (m : Nat) : (State.unhold s m).can = s.can := by simp [State.unhold]
@[simp] theorem State.violate_can (s : State) (id : Nat) : (State.violate s id).can = s.can := by simp [State.violate]
@[simp] theorem State.showAllowances_can (s : State) : (State.showAllowances s).can = s.can := by
  first
  | (simp [State.showAllowances]; done)
  | (unfold State.showAllowances; (repeat' split) <;> (first | (simp; done) | (simp_all; done)))
  | (simp only [State.showAllowances]; (repeat' split) <;> (first | (simp; done) | (simp_all; done)))
  | (unfold State.showAllowances; (try dsimp only); refine foldl_can _ (fun s a => ?_) _ _; (try dsimp only); (repeat' split) <;> (first | (simp; done) | (simp_all; done)))
@[simp] theorem State.admitRec_can (s : State) (r : Rec) : (State.admitRec s r).can = s.can := by simp [State.admitRec]
@[simp] theorem State.record_can (s : State) (typ : Nat) (body : List Byte) : (State.record s typ body).can = s.can := by simp [State.record]
@[simp] theorem State.setTdom_can (s : State) (d : Nat) (x : TimeDom) : (State.setTdom s d x).can = s.can := by simp [State.setTdom]
@[simp] theorem State.setLaunch_can (s : State) (k : Nat) (x : Launch) : (State.setLaunch s k x).can = s.can := by simp [State.setLaunch]
@[simp] theorem State.setDomVal_can (s : State) (d v : Nat) : (State.setDomVal s d v).can = s.can := by simp [State.setDomVal]
@[simp] theorem State.setRing_can (s : State) (n : Nat) (x : Ring) : (State.setRing s n x).can = s.can := by simp [State.setRing]
@[simp] theorem State.setTrack_can (s : State) (t : Nat) (x : Track) : (State.setTrack s t x).can = s.can := by simp [State.setTrack]
@[simp] theorem State.setInst_can (s : State) (n : Nat) (x : Inst) : (State.setInst s n x).can = s.can := by simp [State.setInst]
@[simp] theorem State.setDbe_can (s : State) (a : Nat) (b : Bool) : (State.setDbe s a b).can = s.can := by simp [State.setDbe]
@[simp] theorem State.setSbe_can (s : State) (a : Nat) (b : Bool) : (State.setSbe s a b).can = s.can := by simp [State.setSbe]
@[simp] theorem State.setChord_can (s : State) (d : Nat) (x : Chord) : (State.setChord s d x).can = s.can := by simp [State.setChord]
@[simp] theorem State.setSw_can (s : State) (f : Switch → Switch) : (State.setSw s f).can = s.can := by simp [State.setSw]
@[simp] theorem State.setQueue_can (s : State) (st c : Nat) (l : List QEntry) : (State.setQueue s st c l).can = s.can := by simp [State.setQueue]
@[simp] theorem State.setFrame_can (s : State) (f : Nat) (x : SwFrame) : (State.setFrame s f x).can = s.can := by simp [State.setFrame]
@[simp] theorem State.setUsed_can (s : State) (st c u : Nat) : (State.setUsed s st c u).can = s.can := by simp [State.setUsed]
@[simp] theorem State.setGate_can (s : State) (p : Nat) (g : GateCtl) : (State.setGate s p g).can = s.can := by simp [State.setGate]
@[simp] theorem State.setStream_can (s : State) (h : Nat) (x : Stream) : (State.setStream s h x).can = s.can := by simp [State.setStream]
@[simp] theorem State.setSgate_can (s : State) (g : Nat) (x : SGate) : (State.setSgate s g x).can = s.can := by simp [State.setSgate]
@[simp] theorem State.setMeter_can (s : State) (m : Nat) (x : Meter) : (State.setMeter s m x).can = s.can := by simp [State.setMeter]
@[simp] theorem State.setCb_can (s : State) (h : Nat) (x : Cb) : (State.setCb s h x).can = s.can := by simp [State.setCb]
@[simp] theorem State.setFdb_can (s : State) (e : Nat) (x : FdbEntry) : (State.setFdb s e x).can = s.can := by simp [State.setFdb]
@[simp] theorem State.setMdio_can (s : State) (m : Nat) (x : Mdio) : (State.setMdio s m x).can = s.can := by simp [State.setMdio]
@[simp] theorem State.setPps_can (s : State) (i : Nat) (x : Pps) : (State.setPps s i x).can = s.can := by simp [State.setPps]
@[simp] theorem State.setEcho_can (s : State) (n : Nat) (east : Bool) (x : Echo) : (State.setEcho s n east x).can = s.can := by simp [State.setEcho]
@[simp] theorem State.setSlotFetch_can (s : State) (n k : Nat) (x : Nat × List Nib) : (State.setSlotFetch s n k x).can = s.can := by simp [State.setSlotFetch]
@[simp] theorem State.setStaged_can (s : State) (n t : Nat) (l : List (Nat × List Byte)) : (State.setStaged s n t l).can = s.can := by simp [State.setStaged]
@[simp] theorem State.setLat_can (s : State) (f : Lattice → Lattice) : (State.setLat s f).can = s.can := by simp [State.setLat]
@[simp] theorem State.setPio_can (s : State) (b : Nat) (x : Pio) : (State.setPio s b x).can = s.can := by simp [State.setPio]
@[simp] theorem State.setSm_can (s : State) (m : Nat) (x : Sm) : (State.setSm s m x).can = s.can := by simp [State.setSm]
@[simp] theorem State.setPioFlags_can (s : State) (b v : Nat) : (State.setPioFlags s b v).can = s.can := by simp [State.setPioFlags]
@[simp] theorem State.setTrkS_can (s : State) (t j v : Nat) : (State.setTrkS s t j v).can = s.can := by simp [State.setTrkS]
@[simp] theorem State.setBuf_can (s : State) (c b lsb w v : Nat) : (State.setBuf s c b lsb w v).can = s.can := by simp [State.setBuf]
@[simp] theorem State.setBufState_can (s : State) (c b v : Nat) : (State.setBufState s c b v).can = s.can := by simp [State.setBufState]
@[simp] theorem State.setCoreState_can (s : State) (c v : Nat) : (State.setCoreState s c v).can = s.can := by simp [State.setCoreState]
@[simp] theorem State.setPc_can (s : State) (c v : Nat) : (State.setPc s c v).can = s.can := by simp [State.setPc]
@[simp] theorem State.setSession_can (s : State) (c : Nat) (x : Session) : (State.setSession s c x).can = s.can := by simp [State.setSession]
@[simp] theorem State.setDmaCh_can (s : State) (k : Nat) (x : DmaCh) : (State.setDmaCh s k x).can = s.can := by simp [State.setDmaCh]
@[simp] theorem State.setPath_can (s : State) (p : Path) (x : PathSt) : (State.setPath s p x).can = s.can := by simp [State.setPath]
@[simp] theorem State.setRecord_can (s : State) (d : List Byte) (applied refused : Nat) : (State.setRecord s d applied refused).can = s.can := by simp [State.setRecord]
@[simp] theorem State.setNetSel_can (s : State) (n conn v : Nat) : (State.setNetSel s n conn v).can = s.can := by simp [State.setNetSel]
/-! ### insts -/

@[simp] theorem ite_insts (c : Prop) [Decidable c] (a b : State) : (if c then a else b).insts = if c then a.insts else b.insts := apply_ite State.insts c a b
@[simp] theorem foldl_insts {α : Type} (f : State → α → State) (h : ∀ s a, (f s a).insts = s.insts) (l : List α) (s : State) : (l.foldl f s).insts = s.insts := by
  induction l generalizing s with
  | nil => rfl
  | cons x l ih => simp [ih, h]


@[simp] theorem State.wr_insts (s : State) (i j v : Nat) : (State.wr s i j v).insts = s.insts := by simp [State.wr]
@[simp] theorem State.wrD_insts (s : State) (i j : Nat) (v : DWord) : (State.wrD s i j v).insts = s.insts := by simp [State.wrD]
@[simp] theorem State.setBits_insts (s : State) (i j m : Nat) : (State.setBits s i j m).insts = s.insts := by simp [State.setBits]
@[simp] theorem State.clrBits_insts (s : State) (i j m : Nat) : (State.clrBits s i j m).insts = s.insts := by simp [State.clrBits]
@[simp] theorem State.putBits_insts (s : State) (i j m : Nat) (on : Bool) : (State.putBits s i j m on).insts = s.insts := by simp [State.putBits]
@[simp] theorem State.setBit_insts (s : State) (i j b : Nat) : (State.setBit s i j b).insts = s.insts := by simp [State.setBit]
@[simp] theorem State.emit_insts (s : State) (o : Out) : (State.emit s o).insts = s.insts := by simp [State.emit]
@[simp] theorem State.tick_insts (s : State) : (State.tick s).insts = s.insts := by simp [State.tick]
@[simp] theorem State.setEngine_insts (s : State) (c : Nat) (e : Engine) : (State.setEngine s c e).insts = s.insts := by simp [State.setEngine]
@[simp] theorem State.setChan_insts (s : State) (c : Nat) (m : Mbox) : (State.setChan s c m).insts = s.insts := by simp [State.setChan]
@[simp] theorem State.setPort_insts (s : State) (p : Nat) (x : Port) : (State.setPort s p x).insts = s.insts := by simp [State.setPort]
@[simp] theorem State.msix_insts (s : State) (v : Nat) : (State.msix s v).insts = s.insts := by simp [State.msix]
@[simp] theorem State.evpSet_insts (s : State) (c b : Nat) : (State.evpSet s c b).insts = s.insts := by simp [State.evpSet]
@[simp] theorem State.notify_insts (s : State) (r : Nat) : (State.notify s r).insts = s.insts := by simp [State.notify]
@[simp] theorem State.route_insts (s : State) (r : Nat) (statusWritten : Bool) : (State.route s r statusWritten).insts = s.insts := by simp [State.route]
@[simp] theorem State.event_insts (s : State) (i j m : Nat) : (State.event s i j m).insts = s.insts := by simp [State.event]
@[simp] theorem State.addW_insts (s : State) (i j w k : Nat) : (State.addW s i j w k).insts = s.insts := by simp [State.addW]
@[simp] theorem State.cnt_insts (s : State) (i j : Nat) : (State.cnt s i j).insts = s.insts := by simp [State.cnt]
@[simp] theorem State.cntS_insts (s : State) (i j : Nat) : (State.cntS s i j).insts = s.insts := by simp [State.cntS]
@[simp] theorem State.addH_insts (s : State) (i j w k ei ej : Nat) : (State.addH s i j w k ei ej).insts = s.insts := by simp [State.addH]
@[simp] theorem State.cntH_insts (s : State) (i j ei ej : Nat) : (State.cntH s i j ei ej).insts = s.insts := by simp [State.cntH]
@[simp] theorem State.setByte_insts (s : State) (a : Nat) (b : Byte) : (State.setByte s a b).insts = s.insts := by simp [State.setByte]
@[simp] theorem State.setBytes_insts (s : State) (a : Nat) (x0 : List Byte) : (State.setBytes s a x0).insts = s.insts := by
  induction x0 generalizing s a <;> first | (simp_all [State.setBytes]; done) | (unfold State.setBytes; (repeat' split) <;> simp_all)
@[simp] theorem State.setW32_insts (s : State) (a v : Nat) : (State.setW32 s a v).insts = s.insts := by simp [State.setW32]
@[simp] theorem State.zeroRange_insts (s : State) (lo hi : Nat) : (State.zeroRange s lo hi).insts = s.insts := by simp [State.zeroRange]
@[simp] theorem State.enter_insts (s : State) (st : Nat) : (State.enter s st).insts = s.insts := by simp [State.enter]
@[simp] theorem State.errGeneric_insts (s : State) : (State.errGeneric s).insts = s.insts := by simp [State.errGeneric]
@[simp] theorem State.errBit_insts (s : State) (b : Nat) (on : Bool) : (State.errBit s b on).insts = s.insts := by simp [State.errBit]
@[simp] theorem State.holdLow_insts (s : State) : (State.holdLow s).insts = s.insts := by simp [State.holdLow]
@[simp] theorem State.hold_insts (s : State) (m : Nat) : (State.hold s m).insts = s.insts := by simp [State.hold]
@[simp] theorem State.unhold_insts (s : State) (m : Nat) : (State.unhold s m).insts = s.insts := by simp [State.unhold]
@[simp] theorem State.violate_insts (s : State) (id : Nat) : (State.violate s id).insts = s.insts := by simp [State.violate]
@[simp] theorem State.showAllowances_insts (s : State) : (State.showAllowances s).insts = s.insts := by
  first
  | (simp [State.showAllowances]; done)
  | (unfold State.showAllowances; (repeat' split) <;> (first | (simp; done) | (simp_all; done)))
  | (simp only [State.showAllowances]; (repeat' split) <;> (first | (simp; done) | (simp_all; done)))
  | (unfold State.showAllowances; (try dsimp only); refine foldl_insts _ (fun s a => ?_) _ _; (try dsimp only); (repeat' split) <;> (first | (simp; done) | (simp_all; done)))
@[simp] theorem State.admitRec_insts (s : State) (r : Rec) : (State.admitRec s r).insts = s.insts := by simp [State.admitRec]
@[simp] theorem State.record_insts (s : State) (typ : Nat) (body : List Byte) : (State.record s typ body).insts = s.insts := by simp [State.record]
@[simp] theorem State.setTdom_insts (s : State) (d : Nat) (x : TimeDom) : (State.setTdom s d x).insts = s.insts := by simp [State.setTdom]
@[simp] theorem State.setLaunch_insts (s : State) (k : Nat) (x : Launch) : (State.setLaunch s k x).insts = s.insts := by simp [State.setLaunch]
@[simp] theorem State.setDomVal_insts (s : State) (d v : Nat) : (State.setDomVal s d v).insts = s.insts := by simp [State.setDomVal]
@[simp] theorem State.setRing_insts (s : State) (n : Nat) (x : Ring) : (State.setRing s n x).insts = s.insts := by simp [State.setRing]
@[simp] theorem State.setTrack_insts (s : State) (t : Nat) (x : Track) : (State.setTrack s t x).insts = s.insts := by simp [State.setTrack]
@[simp] theorem State.setDbe_insts (s : State) (a : Nat) (b : Bool) : (State.setDbe s a b).insts = s.insts := by simp [State.setDbe]
@[simp] theorem State.setSbe_insts (s : State) (a : Nat) (b : Bool) : (State.setSbe s a b).insts = s.insts := by simp [State.setSbe]
@[simp] theorem State.setChord_insts (s : State) (d : Nat) (x : Chord) : (State.setChord s d x).insts = s.insts := by simp [State.setChord]
@[simp] theorem State.setSw_insts (s : State) (f : Switch → Switch) : (State.setSw s f).insts = s.insts := by simp [State.setSw]
@[simp] theorem State.setQueue_insts (s : State) (st c : Nat) (l : List QEntry) : (State.setQueue s st c l).insts = s.insts := by simp [State.setQueue]
@[simp] theorem State.setFrame_insts (s : State) (f : Nat) (x : SwFrame) : (State.setFrame s f x).insts = s.insts := by simp [State.setFrame]
@[simp] theorem State.setUsed_insts (s : State) (st c u : Nat) : (State.setUsed s st c u).insts = s.insts := by simp [State.setUsed]
@[simp] theorem State.setGate_insts (s : State) (p : Nat) (g : GateCtl) : (State.setGate s p g).insts = s.insts := by simp [State.setGate]
@[simp] theorem State.setStream_insts (s : State) (h : Nat) (x : Stream) : (State.setStream s h x).insts = s.insts := by simp [State.setStream]
@[simp] theorem State.setSgate_insts (s : State) (g : Nat) (x : SGate) : (State.setSgate s g x).insts = s.insts := by simp [State.setSgate]
@[simp] theorem State.setMeter_insts (s : State) (m : Nat) (x : Meter) : (State.setMeter s m x).insts = s.insts := by simp [State.setMeter]
@[simp] theorem State.setCb_insts (s : State) (h : Nat) (x : Cb) : (State.setCb s h x).insts = s.insts := by simp [State.setCb]
@[simp] theorem State.setFdb_insts (s : State) (e : Nat) (x : FdbEntry) : (State.setFdb s e x).insts = s.insts := by simp [State.setFdb]
@[simp] theorem State.setMdio_insts (s : State) (m : Nat) (x : Mdio) : (State.setMdio s m x).insts = s.insts := by simp [State.setMdio]
@[simp] theorem State.setPps_insts (s : State) (i : Nat) (x : Pps) : (State.setPps s i x).insts = s.insts := by simp [State.setPps]
@[simp] theorem State.setEcho_insts (s : State) (n : Nat) (east : Bool) (x : Echo) : (State.setEcho s n east x).insts = s.insts := by simp [State.setEcho]
@[simp] theorem State.setSlotFetch_insts (s : State) (n k : Nat) (x : Nat × List Nib) : (State.setSlotFetch s n k x).insts = s.insts := by simp [State.setSlotFetch]
@[simp] theorem State.setStaged_insts (s : State) (n t : Nat) (l : List (Nat × List Byte)) : (State.setStaged s n t l).insts = s.insts := by simp [State.setStaged]
@[simp] theorem State.setLat_insts (s : State) (f : Lattice → Lattice) : (State.setLat s f).insts = s.insts := by simp [State.setLat]
@[simp] theorem State.setPio_insts (s : State) (b : Nat) (x : Pio) : (State.setPio s b x).insts = s.insts := by simp [State.setPio]
@[simp] theorem State.setSm_insts (s : State) (m : Nat) (x : Sm) : (State.setSm s m x).insts = s.insts := by simp [State.setSm]
@[simp] theorem State.setPioFlags_insts (s : State) (b v : Nat) : (State.setPioFlags s b v).insts = s.insts := by simp [State.setPioFlags]
@[simp] theorem State.setTrkS_insts (s : State) (t j v : Nat) : (State.setTrkS s t j v).insts = s.insts := by simp [State.setTrkS]
@[simp] theorem State.setCan_insts (s : State) (c : Nat) (x : Can) : (State.setCan s c x).insts = s.insts := by simp [State.setCan]
@[simp] theorem State.setBuf_insts (s : State) (c b lsb w v : Nat) : (State.setBuf s c b lsb w v).insts = s.insts := by simp [State.setBuf]
@[simp] theorem State.setBufState_insts (s : State) (c b v : Nat) : (State.setBufState s c b v).insts = s.insts := by simp [State.setBufState]
@[simp] theorem State.setCoreState_insts (s : State) (c v : Nat) : (State.setCoreState s c v).insts = s.insts := by simp [State.setCoreState]
@[simp] theorem State.setPc_insts (s : State) (c v : Nat) : (State.setPc s c v).insts = s.insts := by simp [State.setPc]
@[simp] theorem State.setSession_insts (s : State) (c : Nat) (x : Session) : (State.setSession s c x).insts = s.insts := by simp [State.setSession]
@[simp] theorem State.setDmaCh_insts (s : State) (k : Nat) (x : DmaCh) : (State.setDmaCh s k x).insts = s.insts := by simp [State.setDmaCh]
@[simp] theorem State.setPath_insts (s : State) (p : Path) (x : PathSt) : (State.setPath s p x).insts = s.insts := by simp [State.setPath]
@[simp] theorem State.setRecord_insts (s : State) (d : List Byte) (applied refused : Nat) : (State.setRecord s d applied refused).insts = s.insts := by simp [State.setRecord]
/-! ### od -/

@[simp] theorem ite_od (c : Prop) [Decidable c] (a b : State) : (if c then a else b).od = if c then a.od else b.od := apply_ite State.od c a b
@[simp] theorem foldl_od {α : Type} (f : State → α → State) (h : ∀ s a, (f s a).od = s.od) (l : List α) (s : State) : (l.foldl f s).od = s.od := by
  induction l generalizing s with
  | nil => rfl
  | cons x l ih => simp [ih, h]


@[simp] theorem State.emit_od (s : State) (o : Out) : (State.emit s o).od = s.od := by simp [State.emit]
@[simp] theorem State.tick_od (s : State) : (State.tick s).od = s.od := by simp [State.tick]
@[simp] theorem State.setEngine_od (s : State) (c : Nat) (e : Engine) : (State.setEngine s c e).od = s.od := by simp [State.setEngine]
@[simp] theorem State.setChan_od (s : State) (c : Nat) (m : Mbox) : (State.setChan s c m).od = s.od := by simp [State.setChan]
@[simp] theorem State.setPort_od (s : State) (p : Nat) (x : Port) : (State.setPort s p x).od = s.od := by simp [State.setPort]
@[simp] theorem State.msix_od (s : State) (v : Nat) : (State.msix s v).od = s.od := by simp [State.msix]
@[simp] theorem State.evpSet_od (s : State) (c b : Nat) : (State.evpSet s c b).od = s.od := by simp [State.evpSet]
@[simp] theorem State.setByte_od (s : State) (a : Nat) (b : Byte) : (State.setByte s a b).od = s.od := by simp [State.setByte]
@[simp] theorem State.setBytes_od (s : State) (a : Nat) (x0 : List Byte) : (State.setBytes s a x0).od = s.od := by
  induction x0 generalizing s a <;> first | (simp_all [State.setBytes]; done) | (unfold State.setBytes; (repeat' split) <;> simp_all)
@[simp] theorem State.setW32_od (s : State) (a v : Nat) : (State.setW32 s a v).od = s.od := by simp [State.setW32]
@[simp] theorem State.zeroRange_od (s : State) (lo hi : Nat) : (State.zeroRange s lo hi).od = s.od := by simp [State.zeroRange]
@[simp] theorem State.setTdom_od (s : State) (d : Nat) (x : TimeDom) : (State.setTdom s d x).od = s.od := by simp [State.setTdom]
@[simp] theorem State.setLaunch_od (s : State) (k : Nat) (x : Launch) : (State.setLaunch s k x).od = s.od := by simp [State.setLaunch]
@[simp] theorem State.setRing_od (s : State) (n : Nat) (x : Ring) : (State.setRing s n x).od = s.od := by simp [State.setRing]
@[simp] theorem State.setTrack_od (s : State) (t : Nat) (x : Track) : (State.setTrack s t x).od = s.od := by simp [State.setTrack]
@[simp] theorem State.setInst_od (s : State) (n : Nat) (x : Inst) : (State.setInst s n x).od = s.od := by simp [State.setInst]
@[simp] theorem State.setDbe_od (s : State) (a : Nat) (b : Bool) : (State.setDbe s a b).od = s.od := by simp [State.setDbe]
@[simp] theorem State.setSbe_od (s : State) (a : Nat) (b : Bool) : (State.setSbe s a b).od = s.od := by simp [State.setSbe]
@[simp] theorem State.setChord_od (s : State) (d : Nat) (x : Chord) : (State.setChord s d x).od = s.od := by simp [State.setChord]
@[simp] theorem State.setSw_od (s : State) (f : Switch → Switch) : (State.setSw s f).od = s.od := by simp [State.setSw]
@[simp] theorem State.setQueue_od (s : State) (st c : Nat) (l : List QEntry) : (State.setQueue s st c l).od = s.od := by simp [State.setQueue]
@[simp] theorem State.setFrame_od (s : State) (f : Nat) (x : SwFrame) : (State.setFrame s f x).od = s.od := by simp [State.setFrame]
@[simp] theorem State.setGate_od (s : State) (p : Nat) (g : GateCtl) : (State.setGate s p g).od = s.od := by simp [State.setGate]
@[simp] theorem State.setStream_od (s : State) (h : Nat) (x : Stream) : (State.setStream s h x).od = s.od := by simp [State.setStream]
@[simp] theorem State.setSgate_od (s : State) (g : Nat) (x : SGate) : (State.setSgate s g x).od = s.od := by simp [State.setSgate]
@[simp] theorem State.setMeter_od (s : State) (m : Nat) (x : Meter) : (State.setMeter s m x).od = s.od := by simp [State.setMeter]
@[simp] theorem State.setCb_od (s : State) (h : Nat) (x : Cb) : (State.setCb s h x).od = s.od := by simp [State.setCb]
@[simp] theorem State.setFdb_od (s : State) (e : Nat) (x : FdbEntry) : (State.setFdb s e x).od = s.od := by simp [State.setFdb]
@[simp] theorem State.setMdio_od (s : State) (m : Nat) (x : Mdio) : (State.setMdio s m x).od = s.od := by simp [State.setMdio]
@[simp] theorem State.setPps_od (s : State) (i : Nat) (x : Pps) : (State.setPps s i x).od = s.od := by simp [State.setPps]
@[simp] theorem State.setEcho_od (s : State) (n : Nat) (east : Bool) (x : Echo) : (State.setEcho s n east x).od = s.od := by simp [State.setEcho]
@[simp] theorem State.setSlotFetch_od (s : State) (n k : Nat) (x : Nat × List Nib) : (State.setSlotFetch s n k x).od = s.od := by simp [State.setSlotFetch]
@[simp] theorem State.setStaged_od (s : State) (n t : Nat) (l : List (Nat × List Byte)) : (State.setStaged s n t l).od = s.od := by simp [State.setStaged]
@[simp] theorem State.setLat_od (s : State) (f : Lattice → Lattice) : (State.setLat s f).od = s.od := by simp [State.setLat]
@[simp] theorem State.setPio_od (s : State) (b : Nat) (x : Pio) : (State.setPio s b x).od = s.od := by simp [State.setPio]
@[simp] theorem State.setCan_od (s : State) (c : Nat) (x : Can) : (State.setCan s c x).od = s.od := by simp [State.setCan]
@[simp] theorem State.setSession_od (s : State) (c : Nat) (x : Session) : (State.setSession s c x).od = s.od := by simp [State.setSession]
@[simp] theorem State.setDmaCh_od (s : State) (k : Nat) (x : DmaCh) : (State.setDmaCh s k x).od = s.od := by simp [State.setDmaCh]
@[simp] theorem State.setPath_od (s : State) (p : Path) (x : PathSt) : (State.setPath s p x).od = s.od := by simp [State.setPath]
@[simp] theorem State.setNetSel_od (s : State) (n conn v : Nat) : (State.setNetSel s n conn v).od = s.od := by simp [State.setNetSel]
end Sys2Proof.Machine
end

