-- ==== Sys2Proof/Laws/FrameMem.lean ====
section
/-! SUPPORT. Every operation and command that leaves the field `mem` of State as it was. -/

namespace Sys2Proof.Machine
set_option linter.all false
set_option maxRecDepth 4000

@[simp] theorem ite_mem (c : Prop) [Decidable c] (a b : State) : (if c then a else b).mem = if c then a.mem else b.mem := apply_ite State.mem c a b
@[simp] theorem foldl_mem {α : Type} (f : State → α → State) (h : ∀ s a, (f s a).mem = s.mem) (l : List α) (s : State) : (l.foldl f s).mem = s.mem := by
  induction l generalizing s with
  | nil => rfl
  | cons x l ih => simp [ih, h]
@[simp] theorem ite_snd_mem {α β : Type} (c : Prop) [Decidable c] (a b : α × β) : (if c then a else b).2 = if c then a.2 else b.2 := apply_ite Prod.snd c a b

theorem orElse_mem {α : Type} {a : Option α} {f : Unit → Option α} {t : α} (h : a.orElse f = some t) : a = some t ∨ f () = some t := by cases a <;> simp_all

@[simp] theorem State.wr_mem (s : State) (i j v : Nat) : (State.wr s i j v).mem = s.mem := by
  first
  | (simp [State.wr]; done)
  | (unfold State.wr; (repeat' split) <;> (first | (simp; done) | (simp_all; done)))
  | (simp only [State.wr]; (repeat' split) <;> (first | (simp; done) | (simp_all; done)))
  | (unfold State.wr; (try dsimp only); refine foldl_mem _ (fun s a => ?_) _ _; (try dsimp only); (repeat' split) <;> (first | (simp; done) | (simp_all; done)))
@[simp] theorem State.wrD_mem (s : State) (i j : Nat) (v : DWord) : (State.wrD s i j v).mem = s.mem := by
  first
  | (simp [State.wrD]; done)
  | (unfold State.wrD; (repeat' split) <;> (first | (simp; done) | (simp_all; done)))
  | (simp only [State.wrD]; (repeat' split) <;> (first | (simp; done) | (simp_all; done)))
  | (unfold State.wrD; (try dsimp only); refine foldl_mem _ (fun s a => ?_) _ _; (try dsimp only); (repeat' split) <;> (first | (simp; done) | (simp_all; done)))
@[simp] theorem State.setBits_mem (s : State) (i j m : Nat) : (State.setBits s i j m).mem = s.mem := by
  first
  | (simp [State.setBits]; done)
  | (unfold State.setBits; (repeat' split) <;> (first | (simp; done) | (simp_all; done)))
  | (simp only [State.setBits]; (repeat' split) <;> (first | (simp; done) | (simp_all; done)))
  | (unfold State.setBits; (try dsimp only); refine foldl_mem _ (fun s a => ?_) _ _; (try dsimp only); (repeat' split) <;> (first | (simp; done) | (simp_all; done)))
@[simp] theorem State.clrBits_mem (s : State) (i j m : Nat) : (State.clrBits s i j m).mem = s.mem := by
  first
  | (simp [State.clrBits]; done)
  | (unfold State.clrBits; (repeat' split) <;> (first | (simp; done) | (simp_all; done)))
  | (simp only [State.clrBits]; (repeat' split) <;> (first | (simp; done) | (simp_all; done)))
  | (unfold State.clrBits; (try dsimp only); refine foldl_mem _ (fun s a => ?_) _ _; (try dsimp only); (repeat' split) <;> (first | (simp; done) | (simp_all; done)))
@[simp] theorem State.putBits_mem (s : State) (i j m : Nat) (on : Bool) : (State.putBits s i j m on).mem = s.mem := by
  first
  | (simp [State.putBits]; done)
  | (unfold State.putBits; (repeat' split) <;> (first | (simp; done) | (simp_all; done)))
  | (simp only [State.putBits]; (repeat' split) <;> (first | (simp; done) | (simp_all; done)))
  | (unfold State.putBits; (try dsimp only); refine foldl_mem _ (fun s a => ?_) _ _; (try dsimp only); (repeat' split) <;> (first | (simp; done) | (simp_all; done)))
@[simp] theorem State.setBit_mem (s : State) (i j b : Nat) : (State.setBit s i j b).mem = s.mem := by
  first
  | (simp [State.setBit]; done)
  | (unfold State.setBit; (repeat' split) <;> (first | (simp; done) | (simp_all; done)))
  | (simp only [State.setBit]; (repeat' split) <;> (first | (simp; done) | (simp_all; done)))
  | (unfold State.setBit; (try dsimp only); refine foldl_mem _ (fun s a => ?_) _ _; (try dsimp only); (repeat' split) <;> (first | (simp; done) | (simp_all; done)))
@[simp] theorem State.emit_mem (s : State) (o : Out) : (State.emit s o).mem = s.mem := by
  first
  | (simp [State.emit]; done)
  | (unfold State.emit; (repeat' split) <;> (first | (simp; done) | (simp_all; done)))
  | (simp only [State.emit]; (repeat' split) <;> (first | (simp; done) | (simp_all; done)))
  | (unfold State.emit; (try dsimp only); refine foldl_mem _ (fun s a => ?_) _ _; (try dsimp only); (repeat' split) <;> (first | (simp; done) | (simp_all; done)))
@[simp] theorem State.tick_mem (s : State) : (State.tick s).mem = s.mem := by
  first
  | (simp [State.tick]; done)
  | (unfold State.tick; (repeat' split) <;> (first | (simp; done) | (simp_all; done)))
  | (simp only [State.tick]; (repeat' split) <;> (first | (simp; done) | (simp_all; done)))
  | (unfold State.tick; (try dsimp only); refine foldl_mem _ (fun s a => ?_) _ _; (try dsimp only); (repeat' split) <;> (first | (simp; done) | (simp_all; done)))
@[simp] theorem State.setEngine_mem (s : State) (c : Nat) (e : Engine) : (State.setEngine s c e).mem = s.mem := by
  first
  | (simp [State.setEngine]; done)
  | (unfold State.setEngine; (repeat' split) <;> (first | (simp; done) | (simp_all; done)))
  | (simp only [State.setEngine]; (repeat' split) <;> (first | (simp; done) | (simp_all; done)))
  | (unfold State.setEngine; (try dsimp only); refine foldl_mem _ (fun s a => ?_) _ _; (try dsimp only); (repeat' split) <;> (first | (simp; done) | (simp_all; done)))
@[simp] theorem State.setChan_mem (s : State) (c : Nat) (m : Mbox) : (State.setChan s c m).mem = s.mem := by
  first
  | (simp [State.setChan]; done)
  | (unfold State.setChan; (repeat' split) <;> (first | (simp; done) | (simp_all; done)))
  | (simp only [State.setChan]; (repeat' split) <;> (first | (simp; done) | (simp_all; done)))
  | (unfold State.setChan; (try dsimp only); refine foldl_mem _ (fun s a => ?_) _ _; (try dsimp only); (repeat' split) <;> (first | (simp; done) | (simp_all; done)))
@[simp] theorem State.setPort_mem (s : State) (p : Nat) (x : Port) : (State.setPort s p x).mem = s.mem := by
  first
  | (simp [State.setPort]; done)
  | (unfold State.setPort; (repeat' split) <;> (first | (simp; done) | (simp_all; done)))
  | (simp only [State.setPort]; (repeat' split) <;> (first | (simp; done) | (simp_all; done)))
  | (unfold State.setPort; (try dsimp only); refine foldl_mem _ (fun s a => ?_) _ _; (try dsimp only); (repeat' split) <;> (first | (simp; done) | (simp_all; done)))
@[simp] theorem State.msix_mem (s : State) (v : Nat) : (State.msix s v).mem = s.mem := by
  first
  | (simp [State.msix]; done)
  | (unfold State.msix; (repeat' split) <;> (first | (simp; done) | (simp_all; done)))
  | (simp only [State.msix]; (repeat' split) <;> (first | (simp; done) | (simp_all; done)))
  | (unfold State.msix; (try dsimp only); refine foldl_mem _ (fun s a => ?_) _ _; (try dsimp only); (repeat' split) <;> (first | (simp; done) | (simp_all; done)))
@[simp] theorem State.evpSet_mem (s : State) (c b : Nat) : (State.evpSet s c b).mem = s.mem := by
  first
  | (simp [State.evpSet]; done)
  | (unfold State.evpSet; (repeat' split) <;> (first | (simp; done) | (simp_all; done)))
  | (simp only [State.evpSet]; (repeat' split) <;> (first | (simp; done) | (simp_all; done)))
  | (unfold State.evpSet; (try dsimp only); refine foldl_mem _ (fun s a => ?_) _ _; (try dsimp only); (repeat' split) <;> (first | (simp; done) | (simp_all; done)))
@[simp] theorem State.notify_mem (s : State) (r : Nat) : (State.notify s r).mem = s.mem := by
  first
  | (simp [State.notify]; done)
  | (unfold State.notify; (repeat' split) <;> (first | (simp; done) | (simp_all; done)))
  | (simp only [State.notify]; (repeat' split) <;> (first | (simp; done) | (simp_all; done)))
  | (unfold State.notify; (try dsimp only); refine foldl_mem _ (fun s a => ?_) _ _; (try dsimp only); (repeat' split) <;> (first | (simp; done) | (simp_all; done)))
@[simp] theorem State.route_mem (s : State) (r : Nat) (statusWritten : Bool) : (State.route s r statusWritten).mem = s.mem := by
  first
  | (simp [State.route]; done)
  | (unfold State.route; (repeat' split) <;> (first | (simp; done) | (simp_all; done)))
  | (simp only [State.route]; (repeat' split) <;> (first | (simp; done) | (simp_all; done)))
  | (unfold State.route; (try dsimp only); refine foldl_mem _ (fun s a => ?_) _ _; (try dsimp only); (repeat' split) <;> (first | (simp; done) | (simp_all; done)))
@[simp] theorem State.event_mem (s : State) (i j m : Nat) : (State.event s i j m).mem = s.mem := by
  first
  | (simp [State.event]; done)
  | (unfold State.event; (repeat' split) <;> (first | (simp; done) | (simp_all; done)))
  | (simp only [State.event]; (repeat' split) <;> (first | (simp; done) | (simp_all; done)))
  | (unfold State.event; (try dsimp only); refine foldl_mem _ (fun s a => ?_) _ _; (try dsimp only); (repeat' split) <;> (first | (simp; done) | (simp_all; done)))
@[simp] theorem State.addW_mem (s : State) (i j w k : Nat) : (State.addW s i j w k).mem = s.mem := by
  first
  | (simp [State.addW]; done)
  | (unfold State.addW; (repeat' split) <;> (first | (simp; done) | (simp_all; done)))
  | (simp only [State.addW]; (repeat' split) <;> (first | (simp; done) | (simp_all; done)))
  | (unfold State.addW; (try dsimp only); refine foldl_mem _ (fun s a => ?_) _ _; (try dsimp only); (repeat' split) <;> (first | (simp; done) | (simp_all; done)))
@[simp] theorem State.cnt_mem (s : State) (i j : Nat) : (State.cnt s i j).mem = s.mem := by
  first
  | (simp [State.cnt]; done)
  | (unfold State.cnt; (repeat' split) <;> (first | (simp; done) | (simp_all; done)))
  | (simp only [State.cnt]; (repeat' split) <;> (first | (simp; done) | (simp_all; done)))
  | (unfold State.cnt; (try dsimp only); refine foldl_mem _ (fun s a => ?_) _ _; (try dsimp only); (repeat' split) <;> (first | (simp; done) | (simp_all; done)))
@[simp] theorem State.cntS_mem (s : State) (i j : Nat) : (State.cntS s i j).mem = s.mem := by
  first
  | (simp [State.cntS]; done)
  | (unfold State.cntS; (repeat' split) <;> (first | (simp; done) | (simp_all; done)))
  | (simp only [State.cntS]; (repeat' split) <;> (first | (simp; done) | (simp_all; done)))
  | (unfold State.cntS; (try dsimp only); refine foldl_mem _ (fun s a => ?_) _ _; (try dsimp only); (repeat' split) <;> (first | (simp; done) | (simp_all; done)))
@[simp] theorem State.addH_mem (s : State) (i j w k ei ej : Nat) : (State.addH s i j w k ei ej).mem = s.mem := by
  first
  | (simp [State.addH]; done)
  | (unfold State.addH; (repeat' split) <;> (first | (simp; done) | (simp_all; done)))
  | (simp only [State.addH]; (repeat' split) <;> (first | (simp; done) | (simp_all; done)))
  | (unfold State.addH; (try dsimp only); refine foldl_mem _ (fun s a => ?_) _ _; (try dsimp only); (repeat' split) <;> (first | (simp; done) | (simp_all; done)))
@[simp] theorem State.cntH_mem (s : State) (i j ei ej : Nat) : (State.cntH s i j ei ej).mem = s.mem := by
  first
  | (simp [State.cntH]; done)
  | (unfold State.cntH; (repeat' split) <;> (first | (simp; done) | (simp_all; done)))
  | (simp only [State.cntH]; (repeat' split) <;> (first | (simp; done) | (simp_all; done)))
  | (unfold State.cntH; (try dsimp only); refine foldl_mem _ (fun s a => ?_) _ _; (try dsimp only); (repeat' split) <;> (first | (simp; done) | (simp_all; done)))
@[simp] theorem State.enter_mem (s : State) (st : Nat) : (State.enter s st).mem = s.mem := by
  first
  | (simp [State.enter]; done)
  | (unfold State.enter; (repeat' split) <;> (first | (simp; done) | (simp_all; done)))
  | (simp only [State.enter]; (repeat' split) <;> (first | (simp; done) | (simp_all; done)))
  | (unfold State.enter; (try dsimp only); refine foldl_mem _ (fun s a => ?_) _ _; (try dsimp only); (repeat' split) <;> (first | (simp; done) | (simp_all; done)))
@[simp] theorem State.errGeneric_mem (s : State) : (State.errGeneric s).mem = s.mem := by
  first
  | (simp [State.errGeneric]; done)
  | (unfold State.errGeneric; (repeat' split) <;> (first | (simp; done) | (simp_all; done)))
  | (simp only [State.errGeneric]; (repeat' split) <;> (first | (simp; done) | (simp_all; done)))
  | (unfold State.errGeneric; (try dsimp only); refine foldl_mem _ (fun s a => ?_) _ _; (try dsimp only); (repeat' split) <;> (first | (simp; done) | (simp_all; done)))
@[simp] theorem State.errBit_mem (s : State) (b : Nat) (on : Bool) : (State.errBit s b on).mem = s.mem := by
  first
  | (simp [State.errBit]; done)
  | (unfold State.errBit; (repeat' split) <;> (first | (simp; done) | (simp_all; done)))
  | (simp only [State.errBit]; (repeat' split) <;> (first | (simp; done) | (simp_all; done)))
  | (unfold State.errBit; (try dsimp only); refine foldl_mem _ (fun s a => ?_) _ _; (try dsimp only); (repeat' split) <;> (first | (simp; done) | (simp_all; done)))
@[simp] theorem State.holdLow_mem (s : State) : (State.holdLow s).mem = s.mem := by
  first
  | (simp [State.holdLow]; done)
  | (unfold State.holdLow; (repeat' split) <;> (first | (simp; done) | (simp_all; done)))
  | (simp only [State.holdLow]; (repeat' split) <;> (first | (simp; done) | (simp_all; done)))
  | (unfold State.holdLow; (try dsimp only); refine foldl_mem _ (fun s a => ?_) _ _; (try dsimp only); (repeat' split) <;> (first | (simp; done) | (simp_all; done)))
@[simp] theorem State.hold_mem (s : State) (m : Nat) : (State.hold s m).mem = s.mem := by
  first
  | (simp [State.hold]; done)
  | (unfold State.hold; (repeat' split) <;> (first | (simp; done) | (simp_all; done)))
  | (simp only [State.hold]; (repeat' split) <;> (first | (simp; done) | (simp_all; done)))
  | (unfold State.hold; (try dsimp only); refine foldl_mem _ (fun s a => ?_) _ _; (try dsimp only); (repeat' split) <;> (first | (simp; done) | (simp_all; done)))
@[simp] theorem State.unhold_mem (s : State) (m : Nat) : (State.unhold s m).mem = s.mem := by
  first
  | (simp [State.unhold]; done)
  | (unfold State.unhold; (repeat' split) <;> (first | (simp; done) | (simp_all; done)))
  | (simp only [State.unhold]; (repeat' split) <;> (first | (simp; done) | (simp_all; done)))
  | (unfold State.unhold; (try dsimp only); refine foldl_mem _ (fun s a => ?_) _ _; (try dsimp only); (repeat' split) <;> (first | (simp; done) | (simp_all; done)))
@[simp] theorem State.violate_mem (s : State) (id : Nat) : (State.violate s id).mem = s.mem := by
  first
  | (simp [State.violate]; done)
  | (unfold State.violate; (repeat' split) <;> (first | (simp; done) | (simp_all; done)))
  | (simp only [State.violate]; (repeat' split) <;> (first | (simp; done) | (simp_all; done)))
  | (unfold State.violate; (try dsimp only); refine foldl_mem _ (fun s a => ?_) _ _; (try dsimp only); (repeat' split) <;> (first | (simp; done) | (simp_all; done)))
@[simp] theorem State.showAllowances_mem (s : State) : (State.showAllowances s).mem = s.mem := by
  first
  | (simp [State.showAllowances]; done)
  | (unfold State.showAllowances; (repeat' split) <;> (first | (simp; done) | (simp_all; done)))
  | (simp only [State.showAllowances]; (repeat' split) <;> (first | (simp; done) | (simp_all; done)))
  | (unfold State.showAllowances; (try dsimp only); refine foldl_mem _ (fun s a => ?_) _ _; (try dsimp only); (repeat' split) <;> (first | (simp; done) | (simp_all; done)))
@[simp] theorem State.admitRec_mem (s : State) (r : Rec) : (State.admitRec s r).mem = s.mem := by
  first
  | (simp [State.admitRec]; done)
  | (unfold State.admitRec; (repeat' split) <;> (first | (simp; done) | (simp_all; done)))
  | (simp only [State.admitRec]; (repeat' split) <;> (first | (simp; done) | (simp_all; done)))
  | (unfold State.admitRec; (try dsimp only); refine foldl_mem _ (fun s a => ?_) _ _; (try dsimp only); (repeat' split) <;> (first | (simp; done) | (simp_all; done)))
@[simp] theorem State.record_mem (s : State) (typ : Nat) (body : List Byte) : (State.record s typ body).mem = s.mem := by
  first
  | (simp [State.record]; done)
  | (unfold State.record; (repeat' split) <;> (first | (simp; done) | (simp_all; done)))
  | (simp only [State.record]; (repeat' split) <;> (first | (simp; done) | (simp_all; done)))
  | (unfold State.record; (try dsimp only); refine foldl_mem _ (fun s a => ?_) _ _; (try dsimp only); (repeat' split) <;> (first | (simp; done) | (simp_all; done)))
@[simp] theorem State.setTdom_mem (s : State) (d : Nat) (x : TimeDom) : (State.setTdom s d x).mem = s.mem := by
  first
  | (simp [State.setTdom]; done)
  | (unfold State.setTdom; (repeat' split) <;> (first | (simp; done) | (simp_all; done)))
  | (simp only [State.setTdom]; (repeat' split) <;> (first | (simp; done) | (simp_all; done)))
  | (unfold State.setTdom; (try dsimp only); refine foldl_mem _ (fun s a => ?_) _ _; (try dsimp only); (repeat' split) <;> (first | (simp; done) | (simp_all; done)))
@[simp] theorem State.setLaunch_mem (s : State) (k : Nat) (x : Launch) : (State.setLaunch s k x).mem = s.mem := by
  first
  | (simp [State.setLaunch]; done)
  | (unfold State.setLaunch; (repeat' split) <;> (first | (simp; done) | (simp_all; done)))
  | (simp only [State.setLaunch]; (repeat' split) <;> (first | (simp; done) | (simp_all; done)))
  | (unfold State.setLaunch; (try dsimp only); refine foldl_mem _ (fun s a => ?_) _ _; (try dsimp only); (repeat' split) <;> (first | (simp; done) | (simp_all; done)))
@[simp] theorem State.setDomVal_mem (s : State) (d v : Nat) : (State.setDomVal s d v).mem = s.mem := by
  first
  | (simp [State.setDomVal]; done)
  | (unfold State.setDomVal; (repeat' split) <;> (first | (simp; done) | (simp_all; done)))
  | (simp only [State.setDomVal]; (repeat' split) <;> (first | (simp; done) | (simp_all; done)))
  | (unfold State.setDomVal; (try dsimp only); refine foldl_mem _ (fun s a => ?_) _ _; (try dsimp only); (repeat' split) <;> (first | (simp; done) | (simp_all; done)))
@[simp] theorem State.domAdvance_mem (s : State) (d k : Nat) : (State.domAdvance s d k).mem = s.mem := by
  first
  | (simp [State.domAdvance]; done)
  | (unfold State.domAdvance; (repeat' split) <;> (first | (simp; done) | (simp_all; done)))
  | (simp only [State.domAdvance]; (repeat' split) <;> (first | (simp; done) | (simp_all; done)))
  | (unfold State.domAdvance; (try dsimp only); refine foldl_mem _ (fun s a => ?_) _ _; (try dsimp only); (repeat' split) <;> (first | (simp; done) | (simp_all; done)))
@[simp] theorem State.advance_mem (s : State) (k : Nat) : (State.advance s k).mem = s.mem := by
  first
  | (simp [State.advance]; done)
  | (unfold State.advance; (repeat' split) <;> (first | (simp; done) | (simp_all; done)))
  | (simp only [State.advance]; (repeat' split) <;> (first | (simp; done) | (simp_all; done)))
  | (unfold State.advance; (try dsimp only); refine foldl_mem _ (fun s a => ?_) _ _; (try dsimp only); (repeat' split) <;> (first | (simp; done) | (simp_all; done)))
@[simp] theorem State.setRing_mem (s : State) (n : Nat) (x : Ring) : (State.setRing s n x).mem = s.mem := by
  first
  | (simp [State.setRing]; done)
  | (unfold State.setRing; (repeat' split) <;> (first | (simp; done) | (simp_all; done)))
  | (simp only [State.setRing]; (repeat' split) <;> (first | (simp; done) | (simp_all; done)))
  | (unfold State.setRing; (try dsimp only); refine foldl_mem _ (fun s a => ?_) _ _; (try dsimp only); (repeat' split) <;> (first | (simp; done) | (simp_all; done)))
@[simp] theorem State.setTrack_mem (s : State) (t : Nat) (x : Track) : (State.setTrack s t x).mem = s.mem := by
  first
  | (simp [State.setTrack]; done)
  | (unfold State.setTrack; (repeat' split) <;> (first | (simp; done) | (simp_all; done)))
  | (simp only [State.setTrack]; (repeat' split) <;> (first | (simp; done) | (simp_all; done)))
  | (unfold State.setTrack; (try dsimp only); refine foldl_mem _ (fun s a => ?_) _ _; (try dsimp only); (repeat' split) <;> (first | (simp; done) | (simp_all; done)))
@[simp] theorem State.locusEvent_mem (s : State) (b : Nat) : (State.locusEvent s b).mem = s.mem := by
  first
  | (simp [State.locusEvent]; done)
  | (unfold State.locusEvent; (repeat' split) <;> (first | (simp; done) | (simp_all; done)))
  | (simp only [State.locusEvent]; (repeat' split) <;> (first | (simp; done) | (simp_all; done)))
  | (unfold State.locusEvent; (try dsimp only); refine foldl_mem _ (fun s a => ?_) _ _; (try dsimp only); (repeat' split) <;> (first | (simp; done) | (simp_all; done)))
@[simp] theorem State.swapCancel_mem (s : State) : (State.swapCancel s).mem = s.mem := by
  first
  | (simp [State.swapCancel]; done)
  | (unfold State.swapCancel; (repeat' split) <;> (first | (simp; done) | (simp_all; done)))
  | (simp only [State.swapCancel]; (repeat' split) <;> (first | (simp; done) | (simp_all; done)))
  | (unfold State.swapCancel; (try dsimp only); refine foldl_mem _ (fun s a => ?_) _ _; (try dsimp only); (repeat' split) <;> (first | (simp; done) | (simp_all; done)))
@[simp] theorem State.swapLeave_mem (s : State) (t : Nat) : (State.swapLeave s t).mem = s.mem := by
  first
  | (simp [State.swapLeave]; done)
  | (unfold State.swapLeave; (repeat' split) <;> (first | (simp; done) | (simp_all; done)))
  | (simp only [State.swapLeave]; (repeat' split) <;> (first | (simp; done) | (simp_all; done)))
  | (unfold State.swapLeave; (try dsimp only); refine foldl_mem _ (fun s a => ?_) _ _; (try dsimp only); (repeat' split) <;> (first | (simp; done) | (simp_all; done)))
@[simp] theorem State.swapUntie_mem (s : State) (n : Nat) : (State.swapUntie s n).mem = s.mem := by
  first
  | (simp [State.swapUntie]; done)
  | (unfold State.swapUntie; (repeat' split) <;> (first | (simp; done) | (simp_all; done)))
  | (simp only [State.swapUntie]; (repeat' split) <;> (first | (simp; done) | (simp_all; done)))
  | (unfold State.swapUntie; (try dsimp only); refine foldl_mem _ (fun s a => ?_) _ _; (try dsimp only); (repeat' split) <;> (first | (simp; done) | (simp_all; done)))
@[simp] theorem State.setInst_mem (s : State) (n : Nat) (x : Inst) : (State.setInst s n x).mem = s.mem := by
  first
  | (simp [State.setInst]; done)
  | (unfold State.setInst; (repeat' split) <;> (first | (simp; done) | (simp_all; done)))
  | (simp only [State.setInst]; (repeat' split) <;> (first | (simp; done) | (simp_all; done)))
  | (unfold State.setInst; (try dsimp only); refine foldl_mem _ (fun s a => ?_) _ _; (try dsimp only); (repeat' split) <;> (first | (simp; done) | (simp_all; done)))
@[simp] theorem State.instFault_mem (s : State) (e : Nat) : (State.instFault s e).mem = s.mem := by
  first
  | (simp [State.instFault]; done)
  | (unfold State.instFault; (repeat' split) <;> (first | (simp; done) | (simp_all; done)))
  | (simp only [State.instFault]; (repeat' split) <;> (first | (simp; done) | (simp_all; done)))
  | (unfold State.instFault; (try dsimp only); refine foldl_mem _ (fun s a => ?_) _ _; (try dsimp only); (repeat' split) <;> (first | (simp; done) | (simp_all; done)))
@[simp] theorem State.chordLoss_mem (s : State) (p : Nat) : (State.chordLoss s p).mem = s.mem := by
  first
  | (simp [State.chordLoss]; done)
  | (unfold State.chordLoss; (repeat' split) <;> (first | (simp; done) | (simp_all; done)))
  | (simp only [State.chordLoss]; (repeat' split) <;> (first | (simp; done) | (simp_all; done)))
  | (unfold State.chordLoss; (try dsimp only); refine foldl_mem _ (fun s a => ?_) _ _; (try dsimp only); (repeat' split) <;> (first | (simp; done) | (simp_all; done)))
@[simp] theorem State.chordBack_mem (s : State) (p : Nat) : (State.chordBack s p).mem = s.mem := by
  first
  | (simp [State.chordBack]; done)
  | (unfold State.chordBack; (repeat' split) <;> (first | (simp; done) | (simp_all; done)))
  | (simp only [State.chordBack]; (repeat' split) <;> (first | (simp; done) | (simp_all; done)))
  | (unfold State.chordBack; (try dsimp only); refine foldl_mem _ (fun s a => ?_) _ _; (try dsimp only); (repeat' split) <;> (first | (simp; done) | (simp_all; done)))
@[simp] theorem State.guard_mem (s : State) (p : Path) (i j v : Nat) (f : State → State) (hf : ∀ s, (f s).mem = s.mem) : (State.guard s p i j v f).mem = s.mem := by
  first
  | (simp [State.guard, hf]; done)
  | (unfold State.guard; (repeat' split) <;> (first | (simp [State.guard, hf]; done) | (simp_all; done)))
  | (simp only [State.guard]; (repeat' split) <;> (first | (simp [State.guard, hf]; done) | (simp_all; done)))
  | (unfold State.guard; (try dsimp only); refine foldl_mem _ (fun s a => ?_) _ _; (try dsimp only); (repeat' split) <;> (first | (simp; done) | (simp_all; done)))
@[simp] theorem State.mboxServe_mem (s : State) (c : Nat) (was : Word) (again : Bool) : (State.mboxServe s c was again).mem = s.mem := by
  first
  | (simp [State.mboxServe]; done)
  | (unfold State.mboxServe; (repeat' split) <;> (first | (simp; done) | (simp_all; done)))
  | (simp only [State.mboxServe]; (repeat' split) <;> (first | (simp; done) | (simp_all; done)))
  | (unfold State.mboxServe; (try dsimp only); refine foldl_mem _ (fun s a => ?_) _ _; (try dsimp only); (repeat' split) <;> (first | (simp; done) | (simp_all; done)))
@[simp] theorem State.lockRead_mem (s : State) (c m : Nat) : (State.lockRead s c m).2.mem = s.mem := by
  first
  | (simp [State.lockRead]; done)
  | (unfold State.lockRead; (repeat' split) <;> (first | (simp; done) | (simp_all; done)))
  | (simp only [State.lockRead]; (repeat' split) <;> (first | (simp; done) | (simp_all; done)))
  | (unfold State.lockRead; (try dsimp only); refine foldl_mem _ (fun s a => ?_) _ _; (try dsimp only); (repeat' split) <;> (first | (simp; done) | (simp_all; done)))
@[simp] theorem State.lockFree_mem (s : State) (c : Nat) : (State.lockFree s c).mem = s.mem := by
  first
  | (simp [State.lockFree]; done)
  | (unfold State.lockFree; (repeat' split) <;> (first | (simp; done) | (simp_all; done)))
  | (simp only [State.lockFree]; (repeat' split) <;> (first | (simp; done) | (simp_all; done)))
  | (unfold State.lockFree; (try dsimp only); refine foldl_mem _ (fun s a => ?_) _ _; (try dsimp only); (repeat' split) <;> (first | (simp; done) | (simp_all; done)))
@[simp] theorem State.post_mem (s : State) (c : Nat) (bits : Word) (len : Nat) : (State.post s c bits len).mem = s.mem := by
  first
  | (simp [State.post]; done)
  | (unfold State.post; (repeat' split) <;> (first | (simp; done) | (simp_all; done)))
  | (simp only [State.post]; (repeat' split) <;> (first | (simp; done) | (simp_all; done)))
  | (unfold State.post; (try dsimp only); refine foldl_mem _ (fun s a => ?_) _ _; (try dsimp only); (repeat' split) <;> (first | (simp; done) | (simp_all; done)))
@[simp] theorem State.dbRead_mem (s : State) (c : Nat) : (State.dbRead s c).2.mem = s.mem := by
  first
  | (simp [State.dbRead]; done)
  | (unfold State.dbRead; (repeat' split) <;> (first | (simp; done) | (simp_all; done)))
  | (simp only [State.dbRead]; (repeat' split) <;> (first | (simp; done) | (simp_all; done)))
  | (unfold State.dbRead; (try dsimp only); refine foldl_mem _ (fun s a => ?_) _ _; (try dsimp only); (repeat' split) <;> (first | (simp; done) | (simp_all; done)))
@[simp] theorem State.dbClear_mem (s : State) (c : Nat) (v : Word) : (State.dbClear s c v).mem = s.mem := by
  first
  | (simp [State.dbClear]; done)
  | (unfold State.dbClear; (repeat' split) <;> (first | (simp; done) | (simp_all; done)))
  | (simp only [State.dbClear]; (repeat' split) <;> (first | (simp; done) | (simp_all; done)))
  | (unfold State.dbClear; (try dsimp only); refine foldl_mem _ (fun s a => ?_) _ _; (try dsimp only); (repeat' split) <;> (first | (simp; done) | (simp_all; done)))
@[simp] theorem State.maskWrite_mem (s : State) (c : Nat) (v : Word) : (State.maskWrite s c v).mem = s.mem := by
  first
  | (simp [State.maskWrite]; done)
  | (unfold State.maskWrite; (repeat' split) <;> (first | (simp; done) | (simp_all; done)))
  | (simp only [State.maskWrite]; (repeat' split) <;> (first | (simp; done) | (simp_all; done)))
  | (unfold State.maskWrite; (try dsimp only); refine foldl_mem _ (fun s a => ?_) _ _; (try dsimp only); (repeat' split) <;> (first | (simp; done) | (simp_all; done)))
@[simp] theorem State.composeStart_mem (s : State) (c : Nat) : (State.composeStart s c).mem = s.mem := by
  first
  | (simp [State.composeStart]; done)
  | (unfold State.composeStart; (repeat' split) <;> (first | (simp; done) | (simp_all; done)))
  | (simp only [State.composeStart]; (repeat' split) <;> (first | (simp; done) | (simp_all; done)))
  | (unfold State.composeStart; (try dsimp only); refine foldl_mem _ (fun s a => ?_) _ _; (try dsimp only); (repeat' split) <;> (first | (simp; done) | (simp_all; done)))
@[simp] theorem State.lockReleaseReset_mem (s : State) (c : Nat) : (State.lockReleaseReset s c).mem = s.mem := by
  first
  | (simp [State.lockReleaseReset]; done)
  | (unfold State.lockReleaseReset; (repeat' split) <;> (first | (simp; done) | (simp_all; done)))
  | (simp only [State.lockReleaseReset]; (repeat' split) <;> (first | (simp; done) | (simp_all; done)))
  | (unfold State.lockReleaseReset; (try dsimp only); refine foldl_mem _ (fun s a => ?_) _ _; (try dsimp only); (repeat' split) <;> (first | (simp; done) | (simp_all; done)))
@[simp] theorem State.receiverReset_mem (s : State) (c : Nat) : (State.receiverReset s c).mem = s.mem := by
  first
  | (simp [State.receiverReset]; done)
  | (unfold State.receiverReset; (repeat' split) <;> (first | (simp; done) | (simp_all; done)))
  | (simp only [State.receiverReset]; (repeat' split) <;> (first | (simp; done) | (simp_all; done)))
  | (unfold State.receiverReset; (try dsimp only); refine foldl_mem _ (fun s a => ?_) _ _; (try dsimp only); (repeat' split) <;> (first | (simp; done) | (simp_all; done)))
@[simp] theorem State.pathReset_mem (s : State) (m : Nat) : (State.pathReset s m).mem = s.mem := by
  first
  | (simp [State.pathReset]; done)
  | (unfold State.pathReset; (repeat' split) <;> (first | (simp; done) | (simp_all; done)))
  | (simp only [State.pathReset]; (repeat' split) <;> (first | (simp; done) | (simp_all; done)))
  | (unfold State.pathReset; (try dsimp only); refine foldl_mem _ (fun s a => ?_) _ _; (try dsimp only); (repeat' split) <;> (first | (simp; done) | (simp_all; done)))
@[simp] theorem State.countOverruns_mem (s : State) (e k : Nat) : (State.countOverruns s e k).mem = s.mem := by
  first
  | (simp [State.countOverruns]; done)
  | (unfold State.countOverruns; (repeat' split) <;> (first | (simp; done) | (simp_all; done)))
  | (simp only [State.countOverruns]; (repeat' split) <;> (first | (simp; done) | (simp_all; done)))
  | (unfold State.countOverruns; (try dsimp only); refine foldl_mem _ (fun s a => ?_) _ _; (try dsimp only); (repeat' split) <;> (first | (simp; done) | (simp_all; done)))
@[simp] theorem State.laneReceive_mem (s : State) (e : Nat) (first : Option (Word × BitVec 2)) (nibs : List Nib) (last : Option (BitVec 3)) : (State.laneReceive s e first nibs last).mem = s.mem := by
  first
  | (simp [State.laneReceive]; done)
  | (unfold State.laneReceive; (repeat' split) <;> (first | (simp; done) | (simp_all; done)))
  | (simp only [State.laneReceive]; (repeat' split) <;> (first | (simp; done) | (simp_all; done)))
  | (unfold State.laneReceive; (try dsimp only); refine foldl_mem _ (fun s a => ?_) _ _; (try dsimp only); (repeat' split) <;> (first | (simp; done) | (simp_all; done)))
@[simp] theorem State.laneSend_mem (s : State) (e : Nat) (d : List Byte) (stomp : Bool) : (State.laneSend s e d stomp).mem = s.mem := by
  first
  | (simp [State.laneSend]; done)
  | (unfold State.laneSend; (repeat' split) <;> (first | (simp; done) | (simp_all; done)))
  | (simp only [State.laneSend]; (repeat' split) <;> (first | (simp; done) | (simp_all; done)))
  | (unfold State.laneSend; (try dsimp only); refine foldl_mem _ (fun s a => ?_) _ _; (try dsimp only); (repeat' split) <;> (first | (simp; done) | (simp_all; done)))
@[simp] theorem State.settleTx_mem (s : State) (e : Nat) : (State.settleTx s e).mem = s.mem := by
  first
  | (simp [State.settleTx]; done)
  | (unfold State.settleTx; (repeat' split) <;> (first | (simp; done) | (simp_all; done)))
  | (simp only [State.settleTx]; (repeat' split) <;> (first | (simp; done) | (simp_all; done)))
  | (unfold State.settleTx; (try dsimp only); refine foldl_mem _ (fun s a => ?_) _ _; (try dsimp only); (repeat' split) <;> (first | (simp; done) | (simp_all; done)))
@[simp] theorem State.txUnderrun_mem (s : State) (e : Nat) : (State.txUnderrun s e).mem = s.mem := by
  first
  | (simp [State.txUnderrun]; done)
  | (unfold State.txUnderrun; (repeat' split) <;> (first | (simp; done) | (simp_all; done)))
  | (simp only [State.txUnderrun]; (repeat' split) <;> (first | (simp; done) | (simp_all; done)))
  | (unfold State.txUnderrun; (try dsimp only); refine foldl_mem _ (fun s a => ?_) _ _; (try dsimp only); (repeat' split) <;> (first | (simp; done) | (simp_all; done)))
@[simp] theorem State.endLaneFrames_mem (s : State) (e : Nat) : (State.endLaneFrames s e).mem = s.mem := by
  first
  | (simp [State.endLaneFrames]; done)
  | (unfold State.endLaneFrames; (repeat' split) <;> (first | (simp; done) | (simp_all; done)))
  | (simp only [State.endLaneFrames]; (repeat' split) <;> (first | (simp; done) | (simp_all; done)))
  | (unfold State.endLaneFrames; (try dsimp only); refine foldl_mem _ (fun s a => ?_) _ _; (try dsimp only); (repeat' split) <;> (first | (simp; done) | (simp_all; done)))
@[simp] theorem State.noteBlockReset_mem (s : State) (master kind unit reason : Nat) : (State.noteBlockReset s master kind unit reason).mem = s.mem := by
  first
  | (simp [State.noteBlockReset]; done)
  | (unfold State.noteBlockReset; (repeat' split) <;> (first | (simp; done) | (simp_all; done)))
  | (simp only [State.noteBlockReset]; (repeat' split) <;> (first | (simp; done) | (simp_all; done)))
  | (unfold State.noteBlockReset; (try dsimp only); refine foldl_mem _ (fun s a => ?_) _ _; (try dsimp only); (repeat' split) <;> (first | (simp; done) | (simp_all; done)))
@[simp] theorem State.dropSubs_mem (s : State) (i lo hi : Nat) : (State.dropSubs s i lo hi).mem = s.mem := by
  first
  | (simp [State.dropSubs]; done)
  | (unfold State.dropSubs; (repeat' split) <;> (first | (simp; done) | (simp_all; done)))
  | (simp only [State.dropSubs]; (repeat' split) <;> (first | (simp; done) | (simp_all; done)))
  | (unfold State.dropSubs; (try dsimp only); refine foldl_mem _ (fun s a => ?_) _ _; (try dsimp only); (repeat' split) <;> (first | (simp; done) | (simp_all; done)))
@[simp] theorem State.clearEngine_mem (s : State) (e cause : Nat) : (State.clearEngine s e cause).mem = s.mem := by
  first
  | (simp [State.clearEngine]; done)
  | (unfold State.clearEngine; (repeat' split) <;> (first | (simp; done) | (simp_all; done)))
  | (simp only [State.clearEngine]; (repeat' split) <;> (first | (simp; done) | (simp_all; done)))
  | (unfold State.clearEngine; (try dsimp only); refine foldl_mem _ (fun s a => ?_) _ _; (try dsimp only); (repeat' split) <;> (first | (simp; done) | (simp_all; done)))
@[simp] theorem State.noteNotOn_mem (s : State) : (State.noteNotOn s).mem = s.mem := by
  first
  | (simp [State.noteNotOn]; done)
  | (unfold State.noteNotOn; (repeat' split) <;> (first | (simp; done) | (simp_all; done)))
  | (simp only [State.noteNotOn]; (repeat' split) <;> (first | (simp; done) | (simp_all; done)))
  | (unfold State.noteNotOn; (try dsimp only); refine foldl_mem _ (fun s a => ?_) _ _; (try dsimp only); (repeat' split) <;> (first | (simp; done) | (simp_all; done)))
@[simp] theorem State.setDbe_mem (s : State) (a : Nat) (b : Bool) : (State.setDbe s a b).mem = s.mem := by
  first
  | (simp [State.setDbe]; done)
  | (unfold State.setDbe; (repeat' split) <;> (first | (simp; done) | (simp_all; done)))
  | (simp only [State.setDbe]; (repeat' split) <;> (first | (simp; done) | (simp_all; done)))
  | (unfold State.setDbe; (try dsimp only); refine foldl_mem _ (fun s a => ?_) _ _; (try dsimp only); (repeat' split) <;> (first | (simp; done) | (simp_all; done)))
@[simp] theorem State.setSbe_mem (s : State) (a : Nat) (b : Bool) : (State.setSbe s a b).mem = s.mem := by
  first
  | (simp [State.setSbe]; done)
  | (unfold State.setSbe; (repeat' split) <;> (first | (simp; done) | (simp_all; done)))
  | (simp only [State.setSbe]; (repeat' split) <;> (first | (simp; done) | (simp_all; done)))
  | (unfold State.setSbe; (try dsimp only); refine foldl_mem _ (fun s a => ?_) _ _; (try dsimp only); (repeat' split) <;> (first | (simp; done) | (simp_all; done)))
@[simp] theorem State.correct_mem (s : State) (a : Nat) : (State.correct s a).mem = s.mem := by
  first
  | (simp [State.correct]; done)
  | (unfold State.correct; (repeat' split) <;> (first | (simp; done) | (simp_all; done)))
  | (simp only [State.correct]; (repeat' split) <;> (first | (simp; done) | (simp_all; done)))
  | (unfold State.correct; (try dsimp only); refine foldl_mem _ (fun s a => ?_) _ _; (try dsimp only); (repeat' split) <;> (first | (simp; done) | (simp_all; done)))
@[simp] theorem State.originWritten_mem (s : State) (b : Nat) : (State.originWritten s b).mem = s.mem := by
  first
  | (simp [State.originWritten]; done)
  | (unfold State.originWritten; (repeat' split) <;> (first | (simp; done) | (simp_all; done)))
  | (simp only [State.originWritten]; (repeat' split) <;> (first | (simp; done) | (simp_all; done)))
  | (unfold State.originWritten; (try dsimp only); refine foldl_mem _ (fun s a => ?_) _ _; (try dsimp only); (repeat' split) <;> (first | (simp; done) | (simp_all; done)))
@[simp] theorem State.bankField_mem (s : State) (b lsb w v : Nat) : (State.bankField s b lsb w v).mem = s.mem := by
  first
  | (simp [State.bankField]; done)
  | (unfold State.bankField; (repeat' split) <;> (first | (simp; done) | (simp_all; done)))
  | (simp only [State.bankField]; (repeat' split) <;> (first | (simp; done) | (simp_all; done)))
  | (unfold State.bankField; (try dsimp only); refine foldl_mem _ (fun s a => ?_) _ _; (try dsimp only); (repeat' split) <;> (first | (simp; done) | (simp_all; done)))
@[simp] theorem State.bankGo_mem (s : State) (b t : Nat) : (State.bankGo s b t).mem = s.mem := by
  first
  | (simp [State.bankGo]; done)
  | (unfold State.bankGo; (repeat' split) <;> (first | (simp; done) | (simp_all; done)))
  | (simp only [State.bankGo]; (repeat' split) <;> (first | (simp; done) | (simp_all; done)))
  | (unfold State.bankGo; (try dsimp only); refine foldl_mem _ (fun s a => ?_) _ _; (try dsimp only); (repeat' split) <;> (first | (simp; done) | (simp_all; done)))
@[simp] theorem State.bankRetain_mem (s : State) (b : Nat) : (State.bankRetain s b).mem = s.mem := by
  first
  | (simp [State.bankRetain]; done)
  | (unfold State.bankRetain; (repeat' split) <;> (first | (simp; done) | (simp_all; done)))
  | (simp only [State.bankRetain]; (repeat' split) <;> (first | (simp; done) | (simp_all; done)))
  | (unfold State.bankRetain; (try dsimp only); refine foldl_mem _ (fun s a => ?_) _ _; (try dsimp only); (repeat' split) <;> (first | (simp; done) | (simp_all; done)))
@[simp] theorem State.waitFor_mem (s : State) (w : BankWait) : (State.waitFor s w).mem = s.mem := by
  first
  | (simp [State.waitFor]; done)
  | (unfold State.waitFor; (repeat' split) <;> (first | (simp; done) | (simp_all; done)))
  | (simp only [State.waitFor]; (repeat' split) <;> (first | (simp; done) | (simp_all; done)))
  | (unfold State.waitFor; (try dsimp only); refine foldl_mem _ (fun s a => ?_) _ _; (try dsimp only); (repeat' split) <;> (first | (simp; done) | (simp_all; done)))
@[simp] theorem State.readAnswer_mem (s : State) (p : Path) (d : List Byte) (err : Bool) : (State.readAnswer s p d err).mem = s.mem := by
  first
  | (simp [State.readAnswer]; done)
  | (unfold State.readAnswer; (repeat' split) <;> (first | (simp; done) | (simp_all; done)))
  | (simp only [State.readAnswer]; (repeat' split) <;> (first | (simp; done) | (simp_all; done)))
  | (unfold State.readAnswer; (try dsimp only); refine foldl_mem _ (fun s a => ?_) _ _; (try dsimp only); (repeat' split) <;> (first | (simp; done) | (simp_all; done)))
@[simp] theorem State.atomicAnswer_mem (s : State) (p : Path) (n : Nat) (r : Nat × Bool) : (State.atomicAnswer s p n r).mem = s.mem := by
  first
  | (simp [State.atomicAnswer]; done)
  | (unfold State.atomicAnswer; (repeat' split) <;> (first | (simp; done) | (simp_all; done)))
  | (simp only [State.atomicAnswer]; (repeat' split) <;> (first | (simp; done) | (simp_all; done)))
  | (unfold State.atomicAnswer; (try dsimp only); refine foldl_mem _ (fun s a => ?_) _ _; (try dsimp only); (repeat' split) <;> (first | (simp; done) | (simp_all; done)))
@[simp] theorem State.bankSettled_mem (s : State) (b : Nat) : (State.bankSettled s b).mem = s.mem := by
  first
  | (simp [State.bankSettled]; done)
  | (unfold State.bankSettled; (repeat' split) <;> (first | (simp; done) | (simp_all; done)))
  | (simp only [State.bankSettled]; (repeat' split) <;> (first | (simp; done) | (simp_all; done)))
  | (unfold State.bankSettled; (try dsimp only); refine foldl_mem _ (fun s a => ?_) _ _; (try dsimp only); (repeat' split) <;> (first | (simp; done) | (simp_all; done)))
@[simp] theorem State.doBankPower_mem (s : State) (b v : Nat) : (State.doBankPower s b v).mem = s.mem := by
  first
  | (simp [State.doBankPower]; done)
  | (unfold State.doBankPower; (repeat' split) <;> (first | (simp; done) | (simp_all; done)))
  | (simp only [State.doBankPower]; (repeat' split) <;> (first | (simp; done) | (simp_all; done)))
  | (unfold State.doBankPower; (try dsimp only); refine foldl_mem _ (fun s a => ?_) _ _; (try dsimp only); (repeat' split) <;> (first | (simp; done) | (simp_all; done)))
@[simp] theorem State.wake_mem (s : State) (src : Nat) : (State.wake s src).mem = s.mem := by
  first
  | (simp [State.wake]; done)
  | (unfold State.wake; (repeat' split) <;> (first | (simp; done) | (simp_all; done)))
  | (simp only [State.wake]; (repeat' split) <;> (first | (simp; done) | (simp_all; done)))
  | (unfold State.wake; (try dsimp only); refine foldl_mem _ (fun s a => ?_) _ _; (try dsimp only); (repeat' split) <;> (first | (simp; done) | (simp_all; done)))
@[simp] theorem State.setChord_mem (s : State) (d : Nat) (x : Chord) : (State.setChord s d x).mem = s.mem := by
  first
  | (simp [State.setChord]; done)
  | (unfold State.setChord; (repeat' split) <;> (first | (simp; done) | (simp_all; done)))
  | (simp only [State.setChord]; (repeat' split) <;> (first | (simp; done) | (simp_all; done)))
  | (unfold State.setChord; (try dsimp only); refine foldl_mem _ (fun s a => ?_) _ _; (try dsimp only); (repeat' split) <;> (first | (simp; done) | (simp_all; done)))
@[simp] theorem State.stat_mem (s : State) (p j : Nat) : (State.stat s p j).mem = s.mem := by
  first
  | (simp [State.stat]; done)
  | (unfold State.stat; (repeat' split) <;> (first | (simp; done) | (simp_all; done)))
  | (simp only [State.stat]; (repeat' split) <;> (first | (simp; done) | (simp_all; done)))
  | (unfold State.stat; (try dsimp only); refine foldl_mem _ (fun s a => ?_) _ _; (try dsimp only); (repeat' split) <;> (first | (simp; done) | (simp_all; done)))
@[simp] theorem State.statAdd_mem (s : State) (p j w k : Nat) : (State.statAdd s p j w k).mem = s.mem := by
  first
  | (simp [State.statAdd]; done)
  | (unfold State.statAdd; (repeat' split) <;> (first | (simp; done) | (simp_all; done)))
  | (simp only [State.statAdd]; (repeat' split) <;> (first | (simp; done) | (simp_all; done)))
  | (unfold State.statAdd; (try dsimp only); refine foldl_mem _ (fun s a => ?_) _ _; (try dsimp only); (repeat' split) <;> (first | (simp; done) | (simp_all; done)))
@[simp] theorem State.portEvent_mem (s : State) (p b : Nat) : (State.portEvent s p b).mem = s.mem := by
  first
  | (simp [State.portEvent]; done)
  | (unfold State.portEvent; (repeat' split) <;> (first | (simp; done) | (simp_all; done)))
  | (simp only [State.portEvent]; (repeat' split) <;> (first | (simp; done) | (simp_all; done)))
  | (unfold State.portEvent; (try dsimp only); refine foldl_mem _ (fun s a => ?_) _ _; (try dsimp only); (repeat' split) <;> (first | (simp; done) | (simp_all; done)))
@[simp] theorem State.countRx_mem (s : State) (p : Nat) (d : List Byte) (r : RxResult) : (State.countRx s p d r).mem = s.mem := by
  first
  | (simp [State.countRx]; done)
  | (unfold State.countRx; (repeat' split) <;> (first | (simp; done) | (simp_all; done)))
  | (simp only [State.countRx]; (repeat' split) <;> (first | (simp; done) | (simp_all; done)))
  | (unfold State.countRx; (try dsimp only); refine foldl_mem _ (fun s a => ?_) _ _; (try dsimp only); (repeat' split) <;> (first | (simp; done) | (simp_all; done)))
@[simp] theorem State.beginTx_mem (s : State) (p phase : Nat) (c : TxCur) : (State.beginTx s p phase c).mem = s.mem := by
  first
  | (simp [State.beginTx]; done)
  | (unfold State.beginTx; (repeat' split) <;> (first | (simp; done) | (simp_all; done)))
  | (simp only [State.beginTx]; (repeat' split) <;> (first | (simp; done) | (simp_all; done)))
  | (unfold State.beginTx; (try dsimp only); refine foldl_mem _ (fun s a => ?_) _ _; (try dsimp only); (repeat' split) <;> (first | (simp; done) | (simp_all; done)))
@[simp] theorem State.setSw_mem (s : State) (f : Switch → Switch) : (State.setSw s f).mem = s.mem := by
  first
  | (simp [State.setSw]; done)
  | (unfold State.setSw; (repeat' split) <;> (first | (simp; done) | (simp_all; done)))
  | (simp only [State.setSw]; (repeat' split) <;> (first | (simp; done) | (simp_all; done)))
  | (unfold State.setSw; (try dsimp only); refine foldl_mem _ (fun s a => ?_) _ _; (try dsimp only); (repeat' split) <;> (first | (simp; done) | (simp_all; done)))
@[simp] theorem State.swCnt_mem (s : State) (j : Nat) : (State.swCnt s j).mem = s.mem := by
  first
  | (simp [State.swCnt]; done)
  | (unfold State.swCnt; (repeat' split) <;> (first | (simp; done) | (simp_all; done)))
  | (simp only [State.swCnt]; (repeat' split) <;> (first | (simp; done) | (simp_all; done)))
  | (unfold State.swCnt; (try dsimp only); refine foldl_mem _ (fun s a => ?_) _ _; (try dsimp only); (repeat' split) <;> (first | (simp; done) | (simp_all; done)))
@[simp] theorem State.swEvent_mem (s : State) (b : Nat) : (State.swEvent s b).mem = s.mem := by
  first
  | (simp [State.swEvent]; done)
  | (unfold State.swEvent; (repeat' split) <;> (first | (simp; done) | (simp_all; done)))
  | (simp only [State.swEvent]; (repeat' split) <;> (first | (simp; done) | (simp_all; done)))
  | (unfold State.swEvent; (try dsimp only); refine foldl_mem _ (fun s a => ?_) _ _; (try dsimp only); (repeat' split) <;> (first | (simp; done) | (simp_all; done)))
@[simp] theorem State.drop_mem (s : State) (st c : Nat) : (State.drop s st c).mem = s.mem := by
  first
  | (simp [State.drop]; done)
  | (unfold State.drop; (repeat' split) <;> (first | (simp; done) | (simp_all; done)))
  | (simp only [State.drop]; (repeat' split) <;> (first | (simp; done) | (simp_all; done)))
  | (unfold State.drop; (try dsimp only); refine foldl_mem _ (fun s a => ?_) _ _; (try dsimp only); (repeat' split) <;> (first | (simp; done) | (simp_all; done)))
@[simp] theorem State.setQueue_mem (s : State) (st c : Nat) (l : List QEntry) : (State.setQueue s st c l).mem = s.mem := by
  first
  | (simp [State.setQueue]; done)
  | (unfold State.setQueue; (repeat' split) <;> (first | (simp; done) | (simp_all; done)))
  | (simp only [State.setQueue]; (repeat' split) <;> (first | (simp; done) | (simp_all; done)))
  | (unfold State.setQueue; (try dsimp only); refine foldl_mem _ (fun s a => ?_) _ _; (try dsimp only); (repeat' split) <;> (first | (simp; done) | (simp_all; done)))
@[simp] theorem State.setFrame_mem (s : State) (f : Nat) (x : SwFrame) : (State.setFrame s f x).mem = s.mem := by
  first
  | (simp [State.setFrame]; done)
  | (unfold State.setFrame; (repeat' split) <;> (first | (simp; done) | (simp_all; done)))
  | (simp only [State.setFrame]; (repeat' split) <;> (first | (simp; done) | (simp_all; done)))
  | (unfold State.setFrame; (try dsimp only); refine foldl_mem _ (fun s a => ?_) _ _; (try dsimp only); (repeat' split) <;> (first | (simp; done) | (simp_all; done)))
@[simp] theorem State.setUsed_mem (s : State) (st c u : Nat) : (State.setUsed s st c u).mem = s.mem := by
  first
  | (simp [State.setUsed]; done)
  | (unfold State.setUsed; (repeat' split) <;> (first | (simp; done) | (simp_all; done)))
  | (simp only [State.setUsed]; (repeat' split) <;> (first | (simp; done) | (simp_all; done)))
  | (unfold State.setUsed; (try dsimp only); refine foldl_mem _ (fun s a => ?_) _ _; (try dsimp only); (repeat' split) <;> (first | (simp; done) | (simp_all; done)))
@[simp] theorem State.writeQueue_mem (s : State) (st c v : Nat) : (State.writeQueue s st c v).mem = s.mem := by
  first
  | (simp [State.writeQueue]; done)
  | (unfold State.writeQueue; (repeat' split) <;> (first | (simp; done) | (simp_all; done)))
  | (simp only [State.writeQueue]; (repeat' split) <;> (first | (simp; done) | (simp_all; done)))
  | (unfold State.writeQueue; (try dsimp only); refine foldl_mem _ (fun s a => ?_) _ _; (try dsimp only); (repeat' split) <;> (first | (simp; done) | (simp_all; done)))
@[simp] theorem State.setGate_mem (s : State) (p : Nat) (g : GateCtl) : (State.setGate s p g).mem = s.mem := by
  first
  | (simp [State.setGate]; done)
  | (unfold State.setGate; (repeat' split) <;> (first | (simp; done) | (simp_all; done)))
  | (simp only [State.setGate]; (repeat' split) <;> (first | (simp; done) | (simp_all; done)))
  | (unfold State.setGate; (try dsimp only); refine foldl_mem _ (fun s a => ?_) _ _; (try dsimp only); (repeat' split) <;> (first | (simp; done) | (simp_all; done)))
@[simp] theorem State.touchCredit_mem (s : State) (p : Nat) : (State.touchCredit s p).mem = s.mem := by
  first
  | (simp [State.touchCredit]; done)
  | (unfold State.touchCredit; (repeat' split) <;> (first | (simp; done) | (simp_all; done)))
  | (simp only [State.touchCredit]; (repeat' split) <;> (first | (simp; done) | (simp_all; done)))
  | (unfold State.touchCredit; (try dsimp only); refine foldl_mem _ (fun s a => ?_) _ _; (try dsimp only); (repeat' split) <;> (first | (simp; done) | (simp_all; done)))
theorem State.takeCell_mem (s : State) {t1} (h : State.takeCell s = some t1) : t1.2.mem = s.mem := by
  simp only [State.takeCell] at h
  repeat' split at h
  all_goals first | (simp only [Option.some.injEq, reduceCtorEq] at h; done) | (simp only [Option.some.injEq] at h; subst h)
  all_goals first | (simp; done) | (simp_all; done)
@[simp] theorem State.freeCells_mem (s : State) (l : List Nat) : (State.freeCells s l).mem = s.mem := by
  first
  | (simp [State.freeCells]; done)
  | (unfold State.freeCells; (repeat' split) <;> (first | (simp; done) | (simp_all; done)))
  | (simp only [State.freeCells]; (repeat' split) <;> (first | (simp; done) | (simp_all; done)))
  | (unfold State.freeCells; (try dsimp only); refine foldl_mem _ (fun s a => ?_) _ _; (try dsimp only); (repeat' split) <;> (first | (simp; done) | (simp_all; done)))
@[simp] theorem State.shareCells_mem (s : State) (d : Int) : (State.shareCells s d).mem = s.mem := by
  first
  | (simp [State.shareCells]; done)
  | (unfold State.shareCells; (repeat' split) <;> (first | (simp; done) | (simp_all; done)))
  | (simp only [State.shareCells]; (repeat' split) <;> (first | (simp; done) | (simp_all; done)))
  | (unfold State.shareCells; (try dsimp only); refine foldl_mem _ (fun s a => ?_) _ _; (try dsimp only); (repeat' split) <;> (first | (simp; done) | (simp_all; done)))
@[simp] theorem State.queuePause_mem (s : State) (p c quanta : Nat) : (State.queuePause s p c quanta).mem = s.mem := by
  first
  | (simp [State.queuePause]; done)
  | (unfold State.queuePause; (repeat' split) <;> (first | (simp; done) | (simp_all; done)))
  | (simp only [State.queuePause]; (repeat' split) <;> (first | (simp; done) | (simp_all; done)))
  | (unfold State.queuePause; (try dsimp only); refine foldl_mem _ (fun s a => ?_) _ _; (try dsimp only); (repeat' split) <;> (first | (simp; done) | (simp_all; done)))
@[simp] theorem State.flowControl_mem (s : State) (p c : Nat) : (State.flowControl s p c).mem = s.mem := by
  first
  | (simp [State.flowControl]; done)
  | (unfold State.flowControl; (repeat' split) <;> (first | (simp; done) | (simp_all; done)))
  | (simp only [State.flowControl]; (repeat' split) <;> (first | (simp; done) | (simp_all; done)))
  | (unfold State.flowControl; (try dsimp only); refine foldl_mem _ (fun s a => ?_) _ _; (try dsimp only); (repeat' split) <;> (first | (simp; done) | (simp_all; done)))
@[simp] theorem State.addHeld_mem (s : State) (p c : Nat) (d : Int) : (State.addHeld s p c d).mem = s.mem := by
  first
  | (simp [State.addHeld]; done)
  | (unfold State.addHeld; (repeat' split) <;> (first | (simp; done) | (simp_all; done)))
  | (simp only [State.addHeld]; (repeat' split) <;> (first | (simp; done) | (simp_all; done)))
  | (unfold State.addHeld; (try dsimp only); refine foldl_mem _ (fun s a => ?_) _ _; (try dsimp only); (repeat' split) <;> (first | (simp; done) | (simp_all; done)))
@[simp] theorem State.freeFrame_mem (s : State) (f : Nat) : (State.freeFrame s f).mem = s.mem := by
  first
  | (simp [State.freeFrame]; done)
  | (unfold State.freeFrame; (repeat' split) <;> (first | (simp; done) | (simp_all; done)))
  | (simp only [State.freeFrame]; (repeat' split) <;> (first | (simp; done) | (simp_all; done)))
  | (unfold State.freeFrame; (try dsimp only); refine foldl_mem _ (fun s a => ?_) _ _; (try dsimp only); (repeat' split) <;> (first | (simp; done) | (simp_all; done)))
@[simp] theorem State.unref_mem (s : State) (f : Nat) : (State.unref s f).mem = s.mem := by
  first
  | (simp [State.unref]; done)
  | (unfold State.unref; (repeat' split) <;> (first | (simp; done) | (simp_all; done)))
  | (simp only [State.unref]; (repeat' split) <;> (first | (simp; done) | (simp_all; done)))
  | (unfold State.unref; (try dsimp only); refine foldl_mem _ (fun s a => ?_) _ _; (try dsimp only); (repeat' split) <;> (first | (simp; done) | (simp_all; done)))
@[simp] theorem State.releaseEntry_mem (s : State) (st c : Nat) (e : QEntry) : (State.releaseEntry s st c e).mem = s.mem := by
  first
  | (simp [State.releaseEntry]; done)
  | (unfold State.releaseEntry; (repeat' split) <;> (first | (simp; done) | (simp_all; done)))
  | (simp only [State.releaseEntry]; (repeat' split) <;> (first | (simp; done) | (simp_all; done)))
  | (unfold State.releaseEntry; (try dsimp only); refine foldl_mem _ (fun s a => ?_) _ _; (try dsimp only); (repeat' split) <;> (first | (simp; done) | (simp_all; done)))
@[simp] theorem State.flushQueue_mem (s : State) (st c : Nat) : (State.flushQueue s st c).mem = s.mem := by
  first
  | (simp [State.flushQueue]; done)
  | (unfold State.flushQueue; (repeat' split) <;> (first | (simp; done) | (simp_all; done)))
  | (simp only [State.flushQueue]; (repeat' split) <;> (first | (simp; done) | (simp_all; done)))
  | (unfold State.flushQueue; (try dsimp only); refine foldl_mem _ (fun s a => ?_) _ _; (try dsimp only); (repeat' split) <;> (first | (simp; done) | (simp_all; done)))
@[simp] theorem State.flushStation_mem (s : State) (st : Nat) : (State.flushStation s st).mem = s.mem := by
  first
  | (simp [State.flushStation]; done)
  | (unfold State.flushStation; (repeat' split) <;> (first | (simp; done) | (simp_all; done)))
  | (simp only [State.flushStation]; (repeat' split) <;> (first | (simp; done) | (simp_all; done)))
  | (unfold State.flushStation; (try dsimp only); refine foldl_mem _ (fun s a => ?_) _ _; (try dsimp only); (repeat' split) <;> (first | (simp; done) | (simp_all; done)))
@[simp] theorem State.switchClear_mem (s : State) : (State.switchClear s).mem = s.mem := by
  first
  | (simp [State.switchClear]; done)
  | (unfold State.switchClear; (repeat' split) <;> (first | (simp; done) | (simp_all; done)))
  | (simp only [State.switchClear]; (repeat' split) <;> (first | (simp; done) | (simp_all; done)))
  | (unfold State.switchClear; (try dsimp only); refine foldl_mem _ (fun s a => ?_) _ _; (try dsimp only); (repeat' split) <;> (first | (simp; done) | (simp_all; done)))
@[simp] theorem State.dropPortFrames_mem (s : State) (p : Nat) : (State.dropPortFrames s p).mem = s.mem := by
  first
  | (simp [State.dropPortFrames]; done)
  | (unfold State.dropPortFrames; (repeat' split) <;> (first | (simp; done) | (simp_all; done)))
  | (simp only [State.dropPortFrames]; (repeat' split) <;> (first | (simp; done) | (simp_all; done)))
  | (unfold State.dropPortFrames; (try dsimp only); refine foldl_mem _ (fun s a => ?_) _ _; (try dsimp only); (repeat' split) <;> (first | (simp; done) | (simp_all; done)))
@[simp] theorem State.setStream_mem (s : State) (h : Nat) (x : Stream) : (State.setStream s h x).mem = s.mem := by
  first
  | (simp [State.setStream]; done)
  | (unfold State.setStream; (repeat' split) <;> (first | (simp; done) | (simp_all; done)))
  | (simp only [State.setStream]; (repeat' split) <;> (first | (simp; done) | (simp_all; done)))
  | (unfold State.setStream; (try dsimp only); refine foldl_mem _ (fun s a => ?_) _ _; (try dsimp only); (repeat' split) <;> (first | (simp; done) | (simp_all; done)))
@[simp] theorem State.halfIf_mem (s : State) (b : Bool) : (State.halfIf s b).mem = s.mem := by
  first
  | (simp [State.halfIf]; done)
  | (unfold State.halfIf; (repeat' split) <;> (first | (simp; done) | (simp_all; done)))
  | (simp only [State.halfIf]; (repeat' split) <;> (first | (simp; done) | (simp_all; done)))
  | (unfold State.halfIf; (try dsimp only); refine foldl_mem _ (fun s a => ?_) _ _; (try dsimp only); (repeat' split) <;> (first | (simp; done) | (simp_all; done)))
@[simp] theorem State.setSgate_mem (s : State) (g : Nat) (x : SGate) : (State.setSgate s g x).mem = s.mem := by
  first
  | (simp [State.setSgate]; done)
  | (unfold State.setSgate; (repeat' split) <;> (first | (simp; done) | (simp_all; done)))
  | (simp only [State.setSgate]; (repeat' split) <;> (first | (simp; done) | (simp_all; done)))
  | (unfold State.setSgate; (try dsimp only); refine foldl_mem _ (fun s a => ?_) _ _; (try dsimp only); (repeat' split) <;> (first | (simp; done) | (simp_all; done)))
@[simp] theorem State.setMeter_mem (s : State) (m : Nat) (x : Meter) : (State.setMeter s m x).mem = s.mem := by
  first
  | (simp [State.setMeter]; done)
  | (unfold State.setMeter; (repeat' split) <;> (first | (simp; done) | (simp_all; done)))
  | (simp only [State.setMeter]; (repeat' split) <;> (first | (simp; done) | (simp_all; done)))
  | (unfold State.setMeter; (try dsimp only); refine foldl_mem _ (fun s a => ?_) _ _; (try dsimp only); (repeat' split) <;> (first | (simp; done) | (simp_all; done)))
@[simp] theorem State.metered_mem (s : State) (mi n : Nat) (yellowIn : Bool) : (State.metered s mi n yellowIn).2.mem = s.mem := by
  first
  | (simp [State.metered]; done)
  | (unfold State.metered; (repeat' split) <;> (first | (simp; done) | (simp_all; done)))
  | (simp only [State.metered]; (repeat' split) <;> (first | (simp; done) | (simp_all; done)))
  | (unfold State.metered; (try dsimp only); refine foldl_mem _ (fun s a => ?_) _ _; (try dsimp only); (repeat' split) <;> (first | (simp; done) | (simp_all; done)))
@[simp] theorem State.filterStream_mem (s : State) (h cls n : Nat) (yellowIn : Bool) : (State.filterStream s h cls n yellowIn).2.2.mem = s.mem := by
  first
  | (simp [State.filterStream]; done)
  | (unfold State.filterStream; (repeat' split) <;> (first | (simp; done) | (simp_all; done)))
  | (simp only [State.filterStream]; (repeat' split) <;> (first | (simp; done) | (simp_all; done)))
  | (unfold State.filterStream; (try dsimp only); refine foldl_mem _ (fun s a => ?_) _ _; (try dsimp only); (repeat' split) <;> (first | (simp; done) | (simp_all; done)))
@[simp] theorem State.setCb_mem (s : State) (h : Nat) (x : Cb) : (State.setCb s h x).mem = s.mem := by
  first
  | (simp [State.setCb]; done)
  | (unfold State.setCb; (repeat' split) <;> (first | (simp; done) | (simp_all; done)))
  | (simp only [State.setCb]; (repeat' split) <;> (first | (simp; done) | (simp_all; done)))
  | (unfold State.setCb; (try dsimp only); refine foldl_mem _ (fun s a => ?_) _ _; (try dsimp only); (repeat' split) <;> (first | (simp; done) | (simp_all; done)))
@[simp] theorem State.setFdb_mem (s : State) (e : Nat) (x : FdbEntry) : (State.setFdb s e x).mem = s.mem := by
  first
  | (simp [State.setFdb]; done)
  | (unfold State.setFdb; (repeat' split) <;> (first | (simp; done) | (simp_all; done)))
  | (simp only [State.setFdb]; (repeat' split) <;> (first | (simp; done) | (simp_all; done)))
  | (unfold State.setFdb; (try dsimp only); refine foldl_mem _ (fun s a => ?_) _ _; (try dsimp only); (repeat' split) <;> (first | (simp; done) | (simp_all; done)))
@[simp] theorem State.showFdb_mem (s : State) : (State.showFdb s).mem = s.mem := by
  first
  | (simp [State.showFdb]; done)
  | (unfold State.showFdb; (repeat' split) <;> (first | (simp; done) | (simp_all; done)))
  | (simp only [State.showFdb]; (repeat' split) <;> (first | (simp; done) | (simp_all; done)))
  | (unfold State.showFdb; (try dsimp only); refine foldl_mem _ (fun s a => ?_) _ _; (try dsimp only); (repeat' split) <;> (first | (simp; done) | (simp_all; done)))
@[simp] theorem State.learn_mem (s : State) (p mac vid : Nat) : (State.learn s p mac vid).mem = s.mem := by
  first
  | (simp [State.learn]; done)
  | (unfold State.learn; (repeat' split) <;> (first | (simp; done) | (simp_all; done)))
  | (simp only [State.learn]; (repeat' split) <;> (first | (simp; done) | (simp_all; done)))
  | (unfold State.learn; (try dsimp only); refine foldl_mem _ (fun s a => ?_) _ _; (try dsimp only); (repeat' split) <;> (first | (simp; done) | (simp_all; done)))
@[simp] theorem State.latCnt_mem (s : State) (j : Nat) : (State.latCnt s j).mem = s.mem := by
  first
  | (simp [State.latCnt]; done)
  | (unfold State.latCnt; (repeat' split) <;> (first | (simp; done) | (simp_all; done)))
  | (simp only [State.latCnt]; (repeat' split) <;> (first | (simp; done) | (simp_all; done)))
  | (unfold State.latCnt; (try dsimp only); refine foldl_mem _ (fun s a => ?_) _ _; (try dsimp only); (repeat' split) <;> (first | (simp; done) | (simp_all; done)))
@[simp] theorem State.enqueue_mem (s : State) (t : Nat) (e : QEntry) : (State.enqueue s t e).mem = s.mem := by
  first
  | (simp [State.enqueue]; done)
  | (unfold State.enqueue; (repeat' split) <;> (first | (simp; done) | (simp_all; done)))
  | (simp only [State.enqueue]; (repeat' split) <;> (first | (simp; done) | (simp_all; done)))
  | (unfold State.enqueue; (try dsimp only); refine foldl_mem _ (fun s a => ?_) _ _; (try dsimp only); (repeat' split) <;> (first | (simp; done) | (simp_all; done)))
@[simp] theorem State.admitFrame_mem (s : State) (ingress cls n : Nat) (dests : List Nat) (mk : Nat → QEntry) : (State.admitFrame s ingress cls n dests mk).2.mem = s.mem := by
  first
  | (simp [State.admitFrame]; done)
  | (unfold State.admitFrame; (repeat' split) <;> (first | (simp; done) | (simp_all; done)))
  | (simp only [State.admitFrame]; (repeat' split) <;> (first | (simp; done) | (simp_all; done)))
  | (unfold State.admitFrame; (try dsimp only); refine foldl_mem _ (fun s a => ?_) _ _; (try dsimp only); (repeat' split) <;> (first | (simp; done) | (simp_all; done)))
@[simp] theorem State.cbEgress_mem (s : State) (h : Option Nat) (d : List Byte) : (State.cbEgress s h d).2.2.2.2.mem = s.mem := by
  first
  | (simp [State.cbEgress]; done)
  | (unfold State.cbEgress; (repeat' split) <;> (first | (simp; done) | (simp_all; done)))
  | (simp only [State.cbEgress]; (repeat' split) <;> (first | (simp; done) | (simp_all; done)))
  | (unfold State.cbEgress; (try dsimp only); refine foldl_mem _ (fun s a => ?_) _ _; (try dsimp only); (repeat' split) <;> (first | (simp; done) | (simp_all; done)))
@[simp] theorem State.returnCharge_mem (s : State) (f n : Nat) : (State.returnCharge s f n).mem = s.mem := by
  first
  | (simp [State.returnCharge]; done)
  | (unfold State.returnCharge; (repeat' split) <;> (first | (simp; done) | (simp_all; done)))
  | (simp only [State.returnCharge]; (repeat' split) <;> (first | (simp; done) | (simp_all; done)))
  | (unfold State.returnCharge; (try dsimp only); refine foldl_mem _ (fun s a => ?_) _ _; (try dsimp only); (repeat' split) <;> (first | (simp; done) | (simp_all; done)))
@[simp] theorem State.unqueue_mem (s : State) (f : Nat) : (State.unqueue s f).mem = s.mem := by
  first
  | (simp [State.unqueue]; done)
  | (unfold State.unqueue; (repeat' split) <;> (first | (simp; done) | (simp_all; done)))
  | (simp only [State.unqueue]; (repeat' split) <;> (first | (simp; done) | (simp_all; done)))
  | (unfold State.unqueue; (try dsimp only); refine foldl_mem _ (fun s a => ?_) _ _; (try dsimp only); (repeat' split) <;> (first | (simp; done) | (simp_all; done)))
@[simp] theorem State.feedEgress_mem (s : State) (f n : Nat) (d : List Byte) (bad : Bool) : (State.feedEgress s f n d bad).mem = s.mem := by
  first
  | (simp [State.feedEgress]; done)
  | (unfold State.feedEgress; (repeat' split) <;> (first | (simp; done) | (simp_all; done)))
  | (simp only [State.feedEgress]; (repeat' split) <;> (first | (simp; done) | (simp_all; done)))
  | (unfold State.feedEgress; (try dsimp only); refine foldl_mem _ (fun s a => ?_) _ _; (try dsimp only); (repeat' split) <;> (first | (simp; done) | (simp_all; done)))
@[simp] theorem State.latEvent_mem (s : State) (b : Nat) : (State.latEvent s b).mem = s.mem := by
  first
  | (simp [State.latEvent]; done)
  | (unfold State.latEvent; (repeat' split) <;> (first | (simp; done) | (simp_all; done)))
  | (simp only [State.latEvent]; (repeat' split) <;> (first | (simp; done) | (simp_all; done)))
  | (unfold State.latEvent; (try dsimp only); refine foldl_mem _ (fun s a => ?_) _ _; (try dsimp only); (repeat' split) <;> (first | (simp; done) | (simp_all; done)))
@[simp] theorem State.neighbourLost_mem (s : State) (n : Nat) : (State.neighbourLost s n).mem = s.mem := by
  first
  | (simp [State.neighbourLost]; done)
  | (unfold State.neighbourLost; (repeat' split) <;> (first | (simp; done) | (simp_all; done)))
  | (simp only [State.neighbourLost]; (repeat' split) <;> (first | (simp; done) | (simp_all; done)))
  | (unfold State.neighbourLost; (try dsimp only); refine foldl_mem _ (fun s a => ?_) _ _; (try dsimp only); (repeat' split) <;> (first | (simp; done) | (simp_all; done)))
@[simp] theorem State.neighboursDown_mem (s : State) (p : Nat) : (State.neighboursDown s p).mem = s.mem := by
  first
  | (simp [State.neighboursDown]; done)
  | (unfold State.neighboursDown; (repeat' split) <;> (first | (simp; done) | (simp_all; done)))
  | (simp only [State.neighboursDown]; (repeat' split) <;> (first | (simp; done) | (simp_all; done)))
  | (unfold State.neighboursDown; (try dsimp only); refine foldl_mem _ (fun s a => ?_) _ _; (try dsimp only); (repeat' split) <;> (first | (simp; done) | (simp_all; done)))
@[simp] theorem State.confirmConfig_mem (s : State) (v : Nat) : (State.confirmConfig s v).mem = s.mem := by
  first
  | (simp [State.confirmConfig]; done)
  | (unfold State.confirmConfig; (repeat' split) <;> (first | (simp; done) | (simp_all; done)))
  | (simp only [State.confirmConfig]; (repeat' split) <;> (first | (simp; done) | (simp_all; done)))
  | (unfold State.confirmConfig; (try dsimp only); refine foldl_mem _ (fun s a => ?_) _ _; (try dsimp only); (repeat' split) <;> (first | (simp; done) | (simp_all; done)))
@[simp] theorem State.chordFollow_mem (s : State) (d : Nat) : (State.chordFollow s d).mem = s.mem := by
  first
  | (simp [State.chordFollow]; done)
  | (unfold State.chordFollow; (repeat' split) <;> (first | (simp; done) | (simp_all; done)))
  | (simp only [State.chordFollow]; (repeat' split) <;> (first | (simp; done) | (simp_all; done)))
  | (unfold State.chordFollow; (try dsimp only); refine foldl_mem _ (fun s a => ?_) _ _; (try dsimp only); (repeat' split) <;> (first | (simp; done) | (simp_all; done)))
@[simp] theorem State.chordsFollow_mem (s : State) : (State.chordsFollow s).mem = s.mem := by
  first
  | (simp [State.chordsFollow]; done)
  | (unfold State.chordsFollow; (repeat' split) <;> (first | (simp; done) | (simp_all; done)))
  | (simp only [State.chordsFollow]; (repeat' split) <;> (first | (simp; done) | (simp_all; done)))
  | (unfold State.chordsFollow; (try dsimp only); refine foldl_mem _ (fun s a => ?_) _ _; (try dsimp only); (repeat' split) <;> (first | (simp; done) | (simp_all; done)))
@[simp] theorem State.preemptStart_mem (s : State) (p : Nat) : (State.preemptStart s p).mem = s.mem := by
  first
  | (simp [State.preemptStart]; done)
  | (unfold State.preemptStart; (repeat' split) <;> (first | (simp; done) | (simp_all; done)))
  | (simp only [State.preemptStart]; (repeat' split) <;> (first | (simp; done) | (simp_all; done)))
  | (unfold State.preemptStart; (try dsimp only); refine foldl_mem _ (fun s a => ?_) _ _; (try dsimp only); (repeat' split) <;> (first | (simp; done) | (simp_all; done)))
@[simp] theorem State.loseLaneFrame_mem (s : State) (p : Nat) : (State.loseLaneFrame s p).mem = s.mem := by
  first
  | (simp [State.loseLaneFrame]; done)
  | (unfold State.loseLaneFrame; (repeat' split) <;> (first | (simp; done) | (simp_all; done)))
  | (simp only [State.loseLaneFrame]; (repeat' split) <;> (first | (simp; done) | (simp_all; done)))
  | (unfold State.loseLaneFrame; (try dsimp only); refine foldl_mem _ (fun s a => ?_) _ _; (try dsimp only); (repeat' split) <;> (first | (simp; done) | (simp_all; done)))
@[simp] theorem State.linkDown_mem (s : State) (p : Nat) : (State.linkDown s p).mem = s.mem := by
  first
  | (simp [State.linkDown]; done)
  | (unfold State.linkDown; (repeat' split) <;> (first | (simp; done) | (simp_all; done)))
  | (simp only [State.linkDown]; (repeat' split) <;> (first | (simp; done) | (simp_all; done)))
  | (unfold State.linkDown; (try dsimp only); refine foldl_mem _ (fun s a => ?_) _ _; (try dsimp only); (repeat' split) <;> (first | (simp; done) | (simp_all; done)))
@[simp] theorem State.linkCome_mem (s : State) (p told : Nat) : (State.linkCome s p told).mem = s.mem := by
  first
  | (simp [State.linkCome]; done)
  | (unfold State.linkCome; (repeat' split) <;> (first | (simp; done) | (simp_all; done)))
  | (simp only [State.linkCome]; (repeat' split) <;> (first | (simp; done) | (simp_all; done)))
  | (unfold State.linkCome; (try dsimp only); refine foldl_mem _ (fun s a => ?_) _ _; (try dsimp only); (repeat' split) <;> (first | (simp; done) | (simp_all; done)))
@[simp] theorem State.applyLinkCfg_mem (s : State) (p : Nat) : (State.applyLinkCfg s p).mem = s.mem := by
  first
  | (simp [State.applyLinkCfg]; done)
  | (unfold State.applyLinkCfg; (repeat' split) <;> (first | (simp; done) | (simp_all; done)))
  | (simp only [State.applyLinkCfg]; (repeat' split) <;> (first | (simp; done) | (simp_all; done)))
  | (unfold State.applyLinkCfg; (try dsimp only); refine foldl_mem _ (fun s a => ?_) _ _; (try dsimp only); (repeat' split) <;> (first | (simp; done) | (simp_all; done)))
@[simp] theorem State.applyRxCfg_mem (s : State) (p : Nat) : (State.applyRxCfg s p).mem = s.mem := by
  first
  | (simp [State.applyRxCfg]; done)
  | (unfold State.applyRxCfg; (repeat' split) <;> (first | (simp; done) | (simp_all; done)))
  | (simp only [State.applyRxCfg]; (repeat' split) <;> (first | (simp; done) | (simp_all; done)))
  | (unfold State.applyRxCfg; (try dsimp only); refine foldl_mem _ (fun s a => ?_) _ _; (try dsimp only); (repeat' split) <;> (first | (simp; done) | (simp_all; done)))
@[simp] theorem State.applyTxCfg_mem (s : State) (p : Nat) : (State.applyTxCfg s p).mem = s.mem := by
  first
  | (simp [State.applyTxCfg]; done)
  | (unfold State.applyTxCfg; (repeat' split) <;> (first | (simp; done) | (simp_all; done)))
  | (simp only [State.applyTxCfg]; (repeat' split) <;> (first | (simp; done) | (simp_all; done)))
  | (unfold State.applyTxCfg; (try dsimp only); refine foldl_mem _ (fun s a => ?_) _ _; (try dsimp only); (repeat' split) <;> (first | (simp; done) | (simp_all; done)))
theorem State.effPort_mem (s : State) (i j v : Nat) {t1} (h : State.effPort s i j v = some t1) : t1.mem = s.mem := by
  simp only [State.effPort] at h
  repeat' split at h
  all_goals first | (simp only [Option.some.injEq, reduceCtorEq] at h; done) | (simp only [Option.some.injEq] at h; subst h)
  all_goals first | (simp; done) | (simp_all; done)
@[simp] theorem State.setMdio_mem (s : State) (m : Nat) (x : Mdio) : (State.setMdio s m x).mem = s.mem := by
  first
  | (simp [State.setMdio]; done)
  | (unfold State.setMdio; (repeat' split) <;> (first | (simp; done) | (simp_all; done)))
  | (simp only [State.setMdio]; (repeat' split) <;> (first | (simp; done) | (simp_all; done)))
  | (unfold State.setMdio; (try dsimp only); refine foldl_mem _ (fun s a => ?_) _ _; (try dsimp only); (repeat' split) <;> (first | (simp; done) | (simp_all; done)))
@[simp] theorem State.mdioStart_mem (s : State) (m v : Nat) : (State.mdioStart s m v).mem = s.mem := by
  first
  | (simp [State.mdioStart]; done)
  | (unfold State.mdioStart; (repeat' split) <;> (first | (simp; done) | (simp_all; done)))
  | (simp only [State.mdioStart]; (repeat' split) <;> (first | (simp; done) | (simp_all; done)))
  | (unfold State.mdioStart; (try dsimp only); refine foldl_mem _ (fun s a => ?_) _ _; (try dsimp only); (repeat' split) <;> (first | (simp; done) | (simp_all; done)))
@[simp] theorem State.mdioFrame_mem (s : State) (q : Path) (m op : Nat) (phy reg : BitVec 5) (data : Half) : (State.mdioFrame s q m op phy reg data).mem = s.mem := by
  first
  | (simp [State.mdioFrame]; done)
  | (unfold State.mdioFrame; (repeat' split) <;> (first | (simp; done) | (simp_all; done)))
  | (simp only [State.mdioFrame]; (repeat' split) <;> (first | (simp; done) | (simp_all; done)))
  | (unfold State.mdioFrame; (try dsimp only); refine foldl_mem _ (fun s a => ?_) _ _; (try dsimp only); (repeat' split) <;> (first | (simp; done) | (simp_all; done)))
@[simp] theorem State.dropOversize_mem (s : State) (p : Nat) : (State.dropOversize s p).mem = s.mem := by
  first
  | (simp [State.dropOversize]; done)
  | (unfold State.dropOversize; (repeat' split) <;> (first | (simp; done) | (simp_all; done)))
  | (simp only [State.dropOversize]; (repeat' split) <;> (first | (simp; done) | (simp_all; done)))
  | (unfold State.dropOversize; (try dsimp only); refine foldl_mem _ (fun s a => ?_) _ _; (try dsimp only); (repeat' split) <;> (first | (simp; done) | (simp_all; done)))
@[simp] theorem State.startQueue_mem (s : State) (p c phase : Nat) : (State.startQueue s p c phase).mem = s.mem := by
  first
  | (simp [State.startQueue]; done)
  | (unfold State.startQueue; (repeat' split) <;> (first | (simp; done) | (simp_all; done)))
  | (simp only [State.startQueue]; (repeat' split) <;> (first | (simp; done) | (simp_all; done)))
  | (unfold State.startQueue; (try dsimp only); refine foldl_mem _ (fun s a => ?_) _ _; (try dsimp only); (repeat' split) <;> (first | (simp; done) | (simp_all; done)))
@[simp] theorem State.startPause_mem (s : State) (p phase : Nat) : (State.startPause s p phase).mem = s.mem := by
  first
  | (simp [State.startPause]; done)
  | (unfold State.startPause; (repeat' split) <;> (first | (simp; done) | (simp_all; done)))
  | (simp only [State.startPause]; (repeat' split) <;> (first | (simp; done) | (simp_all; done)))
  | (unfold State.startPause; (try dsimp only); refine foldl_mem _ (fun s a => ?_) _ _; (try dsimp only); (repeat' split) <;> (first | (simp; done) | (simp_all; done)))
@[simp] theorem State.startLane_mem (s : State) (e : Nat) : (State.startLane s e).mem = s.mem := by
  first
  | (simp [State.startLane]; done)
  | (unfold State.startLane; (repeat' split) <;> (first | (simp; done) | (simp_all; done)))
  | (simp only [State.startLane]; (repeat' split) <;> (first | (simp; done) | (simp_all; done)))
  | (unfold State.startLane; (try dsimp only); refine foldl_mem _ (fun s a => ?_) _ _; (try dsimp only); (repeat' split) <;> (first | (simp; done) | (simp_all; done)))
@[simp] theorem State.countTx_mem (s : State) (p : Nat) (d : List Byte) (stomp : Bool) (c : TxCur) : (State.countTx s p d stomp c).mem = s.mem := by
  first
  | (simp [State.countTx]; done)
  | (unfold State.countTx; (repeat' split) <;> (first | (simp; done) | (simp_all; done)))
  | (simp only [State.countTx]; (repeat' split) <;> (first | (simp; done) | (simp_all; done)))
  | (unfold State.countTx; (try dsimp only); refine foldl_mem _ (fun s a => ?_) _ _; (try dsimp only); (repeat' split) <;> (first | (simp; done) | (simp_all; done)))
@[simp] theorem State.gateChange_mem (s : State) (p : Nat) : (State.gateChange s p).mem = s.mem := by
  first
  | (simp [State.gateChange]; done)
  | (unfold State.gateChange; (repeat' split) <;> (first | (simp; done) | (simp_all; done)))
  | (simp only [State.gateChange]; (repeat' split) <;> (first | (simp; done) | (simp_all; done)))
  | (unfold State.gateChange; (try dsimp only); refine foldl_mem _ (fun s a => ?_) _ _; (try dsimp only); (repeat' split) <;> (first | (simp; done) | (simp_all; done)))
@[simp] theorem State.gateOp_mem (s : State) (p op : Nat) : (State.gateOp s p op).mem = s.mem := by
  first
  | (simp [State.gateOp]; done)
  | (unfold State.gateOp; (repeat' split) <;> (first | (simp; done) | (simp_all; done)))
  | (simp only [State.gateOp]; (repeat' split) <;> (first | (simp; done) | (simp_all; done)))
  | (unfold State.gateOp; (try dsimp only); refine foldl_mem _ (fun s a => ?_) _ _; (try dsimp only); (repeat' split) <;> (first | (simp; done) | (simp_all; done)))
@[simp] theorem State.moveGate_mem (s : State) (p : Nat) (g : GateCtl) : (State.moveGate s p g).mem = s.mem := by
  first
  | (simp [State.moveGate]; done)
  | (unfold State.moveGate; (repeat' split) <;> (first | (simp; done) | (simp_all; done)))
  | (simp only [State.moveGate]; (repeat' split) <;> (first | (simp; done) | (simp_all; done)))
  | (unfold State.moveGate; (try dsimp only); refine foldl_mem _ (fun s a => ?_) _ _; (try dsimp only); (repeat' split) <;> (first | (simp; done) | (simp_all; done)))
@[simp] theorem State.spliceStart_mem (s : State) (d v : Nat) : (State.spliceStart s d v).mem = s.mem := by
  first
  | (simp [State.spliceStart]; done)
  | (unfold State.spliceStart; (repeat' split) <;> (first | (simp; done) | (simp_all; done)))
  | (simp only [State.spliceStart]; (repeat' split) <;> (first | (simp; done) | (simp_all; done)))
  | (unfold State.spliceStart; (try dsimp only); refine foldl_mem _ (fun s a => ?_) _ _; (try dsimp only); (repeat' split) <;> (first | (simp; done) | (simp_all; done)))
@[simp] theorem State.spliceCommit_mem (s : State) (d v : Nat) : (State.spliceCommit s d v).mem = s.mem := by
  first
  | (simp [State.spliceCommit]; done)
  | (unfold State.spliceCommit; (repeat' split) <;> (first | (simp; done) | (simp_all; done)))
  | (simp only [State.spliceCommit]; (repeat' split) <;> (first | (simp; done) | (simp_all; done)))
  | (unfold State.spliceCommit; (try dsimp only); refine foldl_mem _ (fun s a => ?_) _ _; (try dsimp only); (repeat' split) <;> (first | (simp; done) | (simp_all; done)))
@[simp] theorem State.spliceActivate_mem (s : State) (d : Nat) : (State.spliceActivate s d).mem = s.mem := by
  first
  | (simp [State.spliceActivate]; done)
  | (unfold State.spliceActivate; (repeat' split) <;> (first | (simp; done) | (simp_all; done)))
  | (simp only [State.spliceActivate]; (repeat' split) <;> (first | (simp; done) | (simp_all; done)))
  | (unfold State.spliceActivate; (try dsimp only); refine foldl_mem _ (fun s a => ?_) _ _; (try dsimp only); (repeat' split) <;> (first | (simp; done) | (simp_all; done)))
@[simp] theorem State.chordCnt_mem (s : State) (d j : Nat) : (State.chordCnt s d j).mem = s.mem := by
  first
  | (simp [State.chordCnt]; done)
  | (unfold State.chordCnt; (repeat' split) <;> (first | (simp; done) | (simp_all; done)))
  | (simp only [State.chordCnt]; (repeat' split) <;> (first | (simp; done) | (simp_all; done)))
  | (unfold State.chordCnt; (try dsimp only); refine foldl_mem _ (fun s a => ?_) _ _; (try dsimp only); (repeat' split) <;> (first | (simp; done) | (simp_all; done)))
@[simp] theorem State.spliceWork_mem (s : State) (d : Nat) (f : List Nib) (win : List Word → Bool) : (State.spliceWork s d f win).2.mem = s.mem := by
  first
  | (simp [State.spliceWork]; done)
  | (unfold State.spliceWork; (repeat' split) <;> (first | (simp; done) | (simp_all; done)))
  | (simp only [State.spliceWork]; (repeat' split) <;> (first | (simp; done) | (simp_all; done)))
  | (unfold State.spliceWork; (try dsimp only); refine foldl_mem _ (fun s a => ?_) _ _; (try dsimp only); (repeat' split) <;> (first | (simp; done) | (simp_all; done)))
@[simp] theorem State.chordSent_mem (s : State) (p : Nat) (wire : List Byte) (stomp : Bool) (t : Nat) : (State.chordSent s p wire stomp t).mem = s.mem := by
  first
  | (simp [State.chordSent]; done)
  | (unfold State.chordSent; (repeat' split) <;> (first | (simp; done) | (simp_all; done)))
  | (simp only [State.chordSent]; (repeat' split) <;> (first | (simp; done) | (simp_all; done)))
  | (unfold State.chordSent; (try dsimp only); refine foldl_mem _ (fun s a => ?_) _ _; (try dsimp only); (repeat' split) <;> (first | (simp; done) | (simp_all; done)))
@[simp] theorem State.chordFrame_mem (s : State) (d : Nat) (data : List Byte) (er : Option Nat) (express : Bool) (ago phase delay lost : Nat) : (State.chordFrame s d data er express ago phase delay lost).mem = s.mem := by
  first
  | (simp [State.chordFrame]; done)
  | (unfold State.chordFrame; (repeat' split) <;> (first | (simp; done) | (simp_all; done)))
  | (simp only [State.chordFrame]; (repeat' split) <;> (first | (simp; done) | (simp_all; done)))
  | (unfold State.chordFrame; (try dsimp only); refine foldl_mem _ (fun s a => ?_) _ _; (try dsimp only); (repeat' split) <;> (first | (simp; done) | (simp_all; done)))
@[simp] theorem State.fdbCommand_mem (s : State) (v : Nat) : (State.fdbCommand s v).mem = s.mem := by
  first
  | (simp [State.fdbCommand]; done)
  | (unfold State.fdbCommand; (repeat' split) <;> (first | (simp; done) | (simp_all; done)))
  | (simp only [State.fdbCommand]; (repeat' split) <;> (first | (simp; done) | (simp_all; done)))
  | (unfold State.fdbCommand; (try dsimp only); refine foldl_mem _ (fun s a => ?_) _ _; (try dsimp only); (repeat' split) <;> (first | (simp; done) | (simp_all; done)))
@[simp] theorem State.fdbShow_mem (s : State) (e : Nat) : (State.fdbShow s e).mem = s.mem := by
  first
  | (simp [State.fdbShow]; done)
  | (unfold State.fdbShow; (repeat' split) <;> (first | (simp; done) | (simp_all; done)))
  | (simp only [State.fdbShow]; (repeat' split) <;> (first | (simp; done) | (simp_all; done)))
  | (unfold State.fdbShow; (try dsimp only); refine foldl_mem _ (fun s a => ?_) _ _; (try dsimp only); (repeat' split) <;> (first | (simp; done) | (simp_all; done)))
@[simp] theorem State.fdbPut_mem (s : State) : (State.fdbPut s).mem = s.mem := by
  first
  | (simp [State.fdbPut]; done)
  | (unfold State.fdbPut; (repeat' split) <;> (first | (simp; done) | (simp_all; done)))
  | (simp only [State.fdbPut]; (repeat' split) <;> (first | (simp; done) | (simp_all; done)))
  | (unfold State.fdbPut; (try dsimp only); refine foldl_mem _ (fun s a => ?_) _ _; (try dsimp only); (repeat' split) <;> (first | (simp; done) | (simp_all; done)))
@[simp] theorem State.fdbDone_mem (s : State) : (State.fdbDone s).mem = s.mem := by
  first
  | (simp [State.fdbDone]; done)
  | (unfold State.fdbDone; (repeat' split) <;> (first | (simp; done) | (simp_all; done)))
  | (simp only [State.fdbDone]; (repeat' split) <;> (first | (simp; done) | (simp_all; done)))
  | (unfold State.fdbDone; (try dsimp only); refine foldl_mem _ (fun s a => ?_) _ _; (try dsimp only); (repeat' split) <;> (first | (simp; done) | (simp_all; done)))
@[simp] theorem State.streamCommand_mem (s : State) (v : Nat) : (State.streamCommand s v).mem = s.mem := by
  first
  | (simp [State.streamCommand]; done)
  | (unfold State.streamCommand; (repeat' split) <;> (first | (simp; done) | (simp_all; done)))
  | (simp only [State.streamCommand]; (repeat' split) <;> (first | (simp; done) | (simp_all; done)))
  | (unfold State.streamCommand; (try dsimp only); refine foldl_mem _ (fun s a => ?_) _ _; (try dsimp only); (repeat' split) <;> (first | (simp; done) | (simp_all; done)))
@[simp] theorem State.sgateStatus_mem (s : State) (g v : Nat) : (State.sgateStatus s g v).mem = s.mem := by
  first
  | (simp [State.sgateStatus]; done)
  | (unfold State.sgateStatus; (repeat' split) <;> (first | (simp; done) | (simp_all; done)))
  | (simp only [State.sgateStatus]; (repeat' split) <;> (first | (simp; done) | (simp_all; done)))
  | (unfold State.sgateStatus; (try dsimp only); refine foldl_mem _ (fun s a => ?_) _ _; (try dsimp only); (repeat' split) <;> (first | (simp; done) | (simp_all; done)))
@[simp] theorem State.sgateChange_mem (s : State) (g : Nat) : (State.sgateChange s g).mem = s.mem := by
  first
  | (simp [State.sgateChange]; done)
  | (unfold State.sgateChange; (repeat' split) <;> (first | (simp; done) | (simp_all; done)))
  | (simp only [State.sgateChange]; (repeat' split) <;> (first | (simp; done) | (simp_all; done)))
  | (unfold State.sgateChange; (try dsimp only); refine foldl_mem _ (fun s a => ?_) _ _; (try dsimp only); (repeat' split) <;> (first | (simp; done) | (simp_all; done)))
@[simp] theorem State.sgateCommand_mem (s : State) (v : Nat) : (State.sgateCommand s v).mem = s.mem := by
  first
  | (simp [State.sgateCommand]; done)
  | (unfold State.sgateCommand; (repeat' split) <;> (first | (simp; done) | (simp_all; done)))
  | (simp only [State.sgateCommand]; (repeat' split) <;> (first | (simp; done) | (simp_all; done)))
  | (unfold State.sgateCommand; (try dsimp only); refine foldl_mem _ (fun s a => ?_) _ _; (try dsimp only); (repeat' split) <;> (first | (simp; done) | (simp_all; done)))
@[simp] theorem State.meterCommand_mem (s : State) (v : Nat) : (State.meterCommand s v).mem = s.mem := by
  first
  | (simp [State.meterCommand]; done)
  | (unfold State.meterCommand; (repeat' split) <;> (first | (simp; done) | (simp_all; done)))
  | (simp only [State.meterCommand]; (repeat' split) <;> (first | (simp; done) | (simp_all; done)))
  | (unfold State.meterCommand; (try dsimp only); refine foldl_mem _ (fun s a => ?_) _ _; (try dsimp only); (repeat' split) <;> (first | (simp; done) | (simp_all; done)))
@[simp] theorem State.cbCommand_mem (s : State) (v : Nat) : (State.cbCommand s v).mem = s.mem := by
  first
  | (simp [State.cbCommand]; done)
  | (unfold State.cbCommand; (repeat' split) <;> (first | (simp; done) | (simp_all; done)))
  | (simp only [State.cbCommand]; (repeat' split) <;> (first | (simp; done) | (simp_all; done)))
  | (unfold State.cbCommand; (try dsimp only); refine foldl_mem _ (fun s a => ?_) _ _; (try dsimp only); (repeat' split) <;> (first | (simp; done) | (simp_all; done)))
theorem State.effSwitch_mem (s : State) (i j v : Nat) {t1} (h : State.effSwitch s i j v = some t1) : t1.mem = s.mem := by
  simp only [State.effSwitch] at h
  repeat' split at h
  all_goals first | (simp only [Option.some.injEq, reduceCtorEq] at h; done) | (simp only [Option.some.injEq] at h; subst h)
  all_goals first | (simp; done) | (simp_all; done)
@[simp] theorem State.auditPass_mem (s : State) : (State.auditPass s).mem = s.mem := by
  first
  | (simp [State.auditPass]; done)
  | (unfold State.auditPass; (repeat' split) <;> (first | (simp; done) | (simp_all; done)))
  | (simp only [State.auditPass]; (repeat' split) <;> (first | (simp; done) | (simp_all; done)))
  | (unfold State.auditPass; (try dsimp only); refine foldl_mem _ (fun s a => ?_) _ _; (try dsimp only); (repeat' split) <;> (first | (simp; done) | (simp_all; done)))
@[simp] theorem State.adjustStart_mem (s : State) (d v : Nat) : (State.adjustStart s d v).mem = s.mem := by
  first
  | (simp [State.adjustStart]; done)
  | (unfold State.adjustStart; (repeat' split) <;> (first | (simp; done) | (simp_all; done)))
  | (simp only [State.adjustStart]; (repeat' split) <;> (first | (simp; done) | (simp_all; done)))
  | (unfold State.adjustStart; (try dsimp only); refine foldl_mem _ (fun s a => ?_) _ _; (try dsimp only); (repeat' split) <;> (first | (simp; done) | (simp_all; done)))
@[simp] theorem State.stepCommand_mem (s : State) (d v : Nat) : (State.stepCommand s d v).mem = s.mem := by
  first
  | (simp [State.stepCommand]; done)
  | (unfold State.stepCommand; (repeat' split) <;> (first | (simp; done) | (simp_all; done)))
  | (simp only [State.stepCommand]; (repeat' split) <;> (first | (simp; done) | (simp_all; done)))
  | (unfold State.stepCommand; (try dsimp only); refine foldl_mem _ (fun s a => ?_) _ _; (try dsimp only); (repeat' split) <;> (first | (simp; done) | (simp_all; done)))
@[simp] theorem State.stepAdd_mem (s : State) (d : Nat) : (State.stepAdd s d).mem = s.mem := by
  first
  | (simp [State.stepAdd]; done)
  | (unfold State.stepAdd; (repeat' split) <;> (first | (simp; done) | (simp_all; done)))
  | (simp only [State.stepAdd]; (repeat' split) <;> (first | (simp; done) | (simp_all; done)))
  | (unfold State.stepAdd; (try dsimp only); refine foldl_mem _ (fun s a => ?_) _ _; (try dsimp only); (repeat' split) <;> (first | (simp; done) | (simp_all; done)))
@[simp] theorem State.setPps_mem (s : State) (i : Nat) (x : Pps) : (State.setPps s i x).mem = s.mem := by
  first
  | (simp [State.setPps]; done)
  | (unfold State.setPps; (repeat' split) <;> (first | (simp; done) | (simp_all; done)))
  | (simp only [State.setPps]; (repeat' split) <;> (first | (simp; done) | (simp_all; done)))
  | (unfold State.setPps; (try dsimp only); refine foldl_mem _ (fun s a => ?_) _ _; (try dsimp only); (repeat' split) <;> (first | (simp; done) | (simp_all; done)))
@[simp] theorem State.ppsRest_mem (s : State) (i : Nat) : (State.ppsRest s i).mem = s.mem := by
  first
  | (simp [State.ppsRest]; done)
  | (unfold State.ppsRest; (repeat' split) <;> (first | (simp; done) | (simp_all; done)))
  | (simp only [State.ppsRest]; (repeat' split) <;> (first | (simp; done) | (simp_all; done)))
  | (unfold State.ppsRest; (try dsimp only); refine foldl_mem _ (fun s a => ?_) _ _; (try dsimp only); (repeat' split) <;> (first | (simp; done) | (simp_all; done)))
@[simp] theorem State.ppsArm_mem (s : State) (i : Nat) (count : Bool) : (State.ppsArm s i count).mem = s.mem := by
  first
  | (simp [State.ppsArm]; done)
  | (unfold State.ppsArm; (repeat' split) <;> (first | (simp; done) | (simp_all; done)))
  | (simp only [State.ppsArm]; (repeat' split) <;> (first | (simp; done) | (simp_all; done)))
  | (unfold State.ppsArm; (try dsimp only); refine foldl_mem _ (fun s a => ?_) _ _; (try dsimp only); (repeat' split) <;> (first | (simp; done) | (simp_all; done)))
@[simp] theorem State.ppsWrite_mem (s : State) (i j v : Nat) : (State.ppsWrite s i j v).mem = s.mem := by
  first
  | (simp [State.ppsWrite]; done)
  | (unfold State.ppsWrite; (repeat' split) <;> (first | (simp; done) | (simp_all; done)))
  | (simp only [State.ppsWrite]; (repeat' split) <;> (first | (simp; done) | (simp_all; done)))
  | (unfold State.ppsWrite; (try dsimp only); refine foldl_mem _ (fun s a => ?_) _ _; (try dsimp only); (repeat' split) <;> (first | (simp; done) | (simp_all; done)))
@[simp] theorem State.unsync_mem (s : State) (d : Nat) : (State.unsync s d).mem = s.mem := by
  first
  | (simp [State.unsync]; done)
  | (unfold State.unsync; (repeat' split) <;> (first | (simp; done) | (simp_all; done)))
  | (simp only [State.unsync]; (repeat' split) <;> (first | (simp; done) | (simp_all; done)))
  | (unfold State.unsync; (try dsimp only); refine foldl_mem _ (fun s a => ?_) _ _; (try dsimp only); (repeat' split) <;> (first | (simp; done) | (simp_all; done)))
@[simp] theorem State.syncWrite_mem (s : State) (d v : Nat) : (State.syncWrite s d v).mem = s.mem := by
  first
  | (simp [State.syncWrite]; done)
  | (unfold State.syncWrite; (repeat' split) <;> (first | (simp; done) | (simp_all; done)))
  | (simp only [State.syncWrite]; (repeat' split) <;> (first | (simp; done) | (simp_all; done)))
  | (unfold State.syncWrite; (try dsimp only); refine foldl_mem _ (fun s a => ?_) _ _; (try dsimp only); (repeat' split) <;> (first | (simp; done) | (simp_all; done)))
@[simp] theorem State.trigWrite_mem (s : State) (i j v : Nat) : (State.trigWrite s i j v).mem = s.mem := by
  first
  | (simp [State.trigWrite]; done)
  | (unfold State.trigWrite; (repeat' split) <;> (first | (simp; done) | (simp_all; done)))
  | (simp only [State.trigWrite]; (repeat' split) <;> (first | (simp; done) | (simp_all; done)))
  | (unfold State.trigWrite; (try dsimp only); refine foldl_mem _ (fun s a => ?_) _ _; (try dsimp only); (repeat' split) <;> (first | (simp; done) | (simp_all; done)))
theorem State.trigFire_mem (s : State) (d t : Nat) {t1} (h : State.trigFire s d t = some t1) : t1.mem = s.mem := by
  simp only [State.trigFire] at h
  repeat' split at h
  all_goals first | (simp only [Option.some.injEq, reduceCtorEq] at h; done) | (simp only [Option.some.injEq] at h; subst h)
  all_goals first | (simp; done) | (simp_all; done)
@[simp] theorem State.capShow_mem (s : State) (i : Nat) (l : List CapEntry) : (State.capShow s i l).mem = s.mem := by
  first
  | (simp [State.capShow]; done)
  | (unfold State.capShow; (repeat' split) <;> (first | (simp; done) | (simp_all; done)))
  | (simp only [State.capShow]; (repeat' split) <;> (first | (simp; done) | (simp_all; done)))
  | (unfold State.capShow; (try dsimp only); refine foldl_mem _ (fun s a => ?_) _ _; (try dsimp only); (repeat' split) <;> (first | (simp; done) | (simp_all; done)))
@[simp] theorem State.capPop_mem (s : State) (i v : Nat) : (State.capPop s i v).mem = s.mem := by
  first
  | (simp [State.capPop]; done)
  | (unfold State.capPop; (repeat' split) <;> (first | (simp; done) | (simp_all; done)))
  | (simp only [State.capPop]; (repeat' split) <;> (first | (simp; done) | (simp_all; done)))
  | (unfold State.capPop; (try dsimp only); refine foldl_mem _ (fun s a => ?_) _ _; (try dsimp only); (repeat' split) <;> (first | (simp; done) | (simp_all; done)))
theorem State.effTime_mem (s : State) (i j v : Nat) {t1} (h : State.effTime s i j v = some t1) : t1.mem = s.mem := by
  simp only [State.effTime] at h
  repeat' split at h
  all_goals first | (simp only [Option.some.injEq, reduceCtorEq] at h; done) | (simp only [Option.some.injEq] at h; subst h)
  all_goals first | (simp; done) | (simp_all; done)
@[simp] theorem State.launchArm_mem (s : State) (k v : Nat) : (State.launchArm s k v).mem = s.mem := by
  first
  | (simp [State.launchArm]; done)
  | (unfold State.launchArm; (repeat' split) <;> (first | (simp; done) | (simp_all; done)))
  | (simp only [State.launchArm]; (repeat' split) <;> (first | (simp; done) | (simp_all; done)))
  | (unfold State.launchArm; (try dsimp only); refine foldl_mem _ (fun s a => ?_) _ _; (try dsimp only); (repeat' split) <;> (first | (simp; done) | (simp_all; done)))
@[simp] theorem State.launchCnt_mem (s : State) (p j : Nat) : (State.launchCnt s p j).mem = s.mem := by
  first
  | (simp [State.launchCnt]; done)
  | (unfold State.launchCnt; (repeat' split) <;> (first | (simp; done) | (simp_all; done)))
  | (simp only [State.launchCnt]; (repeat' split) <;> (first | (simp; done) | (simp_all; done)))
  | (unfold State.launchCnt; (try dsimp only); refine foldl_mem _ (fun s a => ?_) _ _; (try dsimp only); (repeat' split) <;> (first | (simp; done) | (simp_all; done)))
@[simp] theorem State.launchEvent_mem (s : State) (p b : Nat) : (State.launchEvent s p b).mem = s.mem := by
  first
  | (simp [State.launchEvent]; done)
  | (unfold State.launchEvent; (repeat' split) <;> (first | (simp; done) | (simp_all; done)))
  | (simp only [State.launchEvent]; (repeat' split) <;> (first | (simp; done) | (simp_all; done)))
  | (unfold State.launchEvent; (try dsimp only); refine foldl_mem _ (fun s a => ?_) _ _; (try dsimp only); (repeat' split) <;> (first | (simp; done) | (simp_all; done)))
@[simp] theorem State.launchEnd_mem (s : State) (k : Nat) : (State.launchEnd s k).mem = s.mem := by
  first
  | (simp [State.launchEnd]; done)
  | (unfold State.launchEnd; (repeat' split) <;> (first | (simp; done) | (simp_all; done)))
  | (simp only [State.launchEnd]; (repeat' split) <;> (first | (simp; done) | (simp_all; done)))
  | (unfold State.launchEnd; (try dsimp only); refine foldl_mem _ (fun s a => ?_) _ _; (try dsimp only); (repeat' split) <;> (first | (simp; done) | (simp_all; done)))
@[simp] theorem State.launchResult_mem (s : State) (k r : Nat) : (State.launchResult s k r).mem = s.mem := by
  first
  | (simp [State.launchResult]; done)
  | (unfold State.launchResult; (repeat' split) <;> (first | (simp; done) | (simp_all; done)))
  | (simp only [State.launchResult]; (repeat' split) <;> (first | (simp; done) | (simp_all; done)))
  | (unfold State.launchResult; (try dsimp only); refine foldl_mem _ (fun s a => ?_) _ _; (try dsimp only); (repeat' split) <;> (first | (simp; done) | (simp_all; done)))
@[simp] theorem State.launchAbort_mem (s : State) (k : Nat) : (State.launchAbort s k).mem = s.mem := by
  first
  | (simp [State.launchAbort]; done)
  | (unfold State.launchAbort; (repeat' split) <;> (first | (simp; done) | (simp_all; done)))
  | (simp only [State.launchAbort]; (repeat' split) <;> (first | (simp; done) | (simp_all; done)))
  | (unfold State.launchAbort; (try dsimp only); refine foldl_mem _ (fun s a => ?_) _ _; (try dsimp only); (repeat' split) <;> (first | (simp; done) | (simp_all; done)))
@[simp] theorem State.launchOff_mem (s : State) (k v : Nat) : (State.launchOff s k v).mem = s.mem := by
  first
  | (simp [State.launchOff]; done)
  | (unfold State.launchOff; (repeat' split) <;> (first | (simp; done) | (simp_all; done)))
  | (simp only [State.launchOff]; (repeat' split) <;> (first | (simp; done) | (simp_all; done)))
  | (unfold State.launchOff; (try dsimp only); refine foldl_mem _ (fun s a => ?_) _ _; (try dsimp only); (repeat' split) <;> (first | (simp; done) | (simp_all; done)))
@[simp] theorem State.launchBegin_mem (s : State) (k phase : Nat) : (State.launchBegin s k phase).mem = s.mem := by
  first
  | (simp [State.launchBegin]; done)
  | (unfold State.launchBegin; (repeat' split) <;> (first | (simp; done) | (simp_all; done)))
  | (simp only [State.launchBegin]; (repeat' split) <;> (first | (simp; done) | (simp_all; done)))
  | (unfold State.launchBegin; (try dsimp only); refine foldl_mem _ (fun s a => ?_) _ _; (try dsimp only); (repeat' split) <;> (first | (simp; done) | (simp_all; done)))
theorem State.effLaunch_mem (s : State) (i j v : Nat) {t1} (h : State.effLaunch s i j v = some t1) : t1.mem = s.mem := by
  simp only [State.effLaunch] at h
  repeat' split at h
  all_goals first | (simp only [Option.some.injEq, reduceCtorEq] at h; done) | (simp only [Option.some.injEq] at h; subst h)
  all_goals first | (simp; done) | (simp_all; done)
@[simp] theorem State.perEvent_mem (s : State) (n b : Nat) : (State.perEvent s n b).mem = s.mem := by
  first
  | (simp [State.perEvent]; done)
  | (unfold State.perEvent; (repeat' split) <;> (first | (simp; done) | (simp_all; done)))
  | (simp only [State.perEvent]; (repeat' split) <;> (first | (simp; done) | (simp_all; done)))
  | (unfold State.perEvent; (try dsimp only); refine foldl_mem _ (fun s a => ?_) _ _; (try dsimp only); (repeat' split) <;> (first | (simp; done) | (simp_all; done)))
@[simp] theorem State.perCnt_mem (s : State) (n j : Nat) : (State.perCnt s n j).mem = s.mem := by
  first
  | (simp [State.perCnt]; done)
  | (unfold State.perCnt; (repeat' split) <;> (first | (simp; done) | (simp_all; done)))
  | (simp only [State.perCnt]; (repeat' split) <;> (first | (simp; done) | (simp_all; done)))
  | (unfold State.perCnt; (try dsimp only); refine foldl_mem _ (fun s a => ?_) _ _; (try dsimp only); (repeat' split) <;> (first | (simp; done) | (simp_all; done)))
@[simp] theorem State.perOpCnt_mem (s : State) (n j : Nat) : (State.perOpCnt s n j).mem = s.mem := by
  first
  | (simp [State.perOpCnt]; done)
  | (unfold State.perOpCnt; (repeat' split) <;> (first | (simp; done) | (simp_all; done)))
  | (simp only [State.perOpCnt]; (repeat' split) <;> (first | (simp; done) | (simp_all; done)))
  | (unfold State.perOpCnt; (try dsimp only); refine foldl_mem _ (fun s a => ?_) _ _; (try dsimp only); (repeat' split) <;> (first | (simp; done) | (simp_all; done)))
@[simp] theorem State.perSend_mem (s : State) (n : Nat) (east : Bool) (f : List Nib) (abt : Bool) : (State.perSend s n east f abt).mem = s.mem := by
  first
  | (simp [State.perSend]; done)
  | (unfold State.perSend; (repeat' split) <;> (first | (simp; done) | (simp_all; done)))
  | (simp only [State.perSend]; (repeat' split) <;> (first | (simp; done) | (simp_all; done)))
  | (unfold State.perSend; (try dsimp only); refine foldl_mem _ (fun s a => ?_) _ _; (try dsimp only); (repeat' split) <;> (first | (simp; done) | (simp_all; done)))
@[simp] theorem State.perSync_mem (s : State) (n : Nat) : (State.perSync s n).mem = s.mem := by
  first
  | (simp [State.perSync]; done)
  | (unfold State.perSync; (repeat' split) <;> (first | (simp; done) | (simp_all; done)))
  | (simp only [State.perSync]; (repeat' split) <;> (first | (simp; done) | (simp_all; done)))
  | (unfold State.perSync; (try dsimp only); refine foldl_mem _ (fun s a => ?_) _ _; (try dsimp only); (repeat' split) <;> (first | (simp; done) | (simp_all; done)))
@[simp] theorem State.perGo_mem (s : State) (n st : Nat) : (State.perGo s n st).mem = s.mem := by
  first
  | (simp [State.perGo]; done)
  | (unfold State.perGo; (repeat' split) <;> (first | (simp; done) | (simp_all; done)))
  | (simp only [State.perGo]; (repeat' split) <;> (first | (simp; done) | (simp_all; done)))
  | (unfold State.perGo; (try dsimp only); refine foldl_mem _ (fun s a => ?_) _ _; (try dsimp only); (repeat' split) <;> (first | (simp; done) | (simp_all; done)))
@[simp] theorem State.perForget_mem (s : State) (n : Nat) : (State.perForget s n).mem = s.mem := by
  first
  | (simp [State.perForget]; done)
  | (unfold State.perForget; (repeat' split) <;> (first | (simp; done) | (simp_all; done)))
  | (simp only [State.perForget]; (repeat' split) <;> (first | (simp; done) | (simp_all; done)))
  | (unfold State.perForget; (try dsimp only); refine foldl_mem _ (fun s a => ?_) _ _; (try dsimp only); (repeat' split) <;> (first | (simp; done) | (simp_all; done)))
@[simp] theorem State.perListen_mem (s : State) (n : Nat) : (State.perListen s n).mem = s.mem := by
  first
  | (simp [State.perListen]; done)
  | (unfold State.perListen; (repeat' split) <;> (first | (simp; done) | (simp_all; done)))
  | (simp only [State.perListen]; (repeat' split) <;> (first | (simp; done) | (simp_all; done)))
  | (unfold State.perListen; (try dsimp only); refine foldl_mem _ (fun s a => ?_) _ _; (try dsimp only); (repeat' split) <;> (first | (simp; done) | (simp_all; done)))
@[simp] theorem State.perOff_mem (s : State) (n : Nat) : (State.perOff s n).mem = s.mem := by
  first
  | (simp [State.perOff]; done)
  | (unfold State.perOff; (repeat' split) <;> (first | (simp; done) | (simp_all; done)))
  | (simp only [State.perOff]; (repeat' split) <;> (first | (simp; done) | (simp_all; done)))
  | (unfold State.perOff; (try dsimp only); refine foldl_mem _ (fun s a => ?_) _ _; (try dsimp only); (repeat' split) <;> (first | (simp; done) | (simp_all; done)))
@[simp] theorem State.perPassive_mem (s : State) (n : Nat) : (State.perPassive s n).mem = s.mem := by
  first
  | (simp [State.perPassive]; done)
  | (unfold State.perPassive; (repeat' split) <;> (first | (simp; done) | (simp_all; done)))
  | (simp only [State.perPassive]; (repeat' split) <;> (first | (simp; done) | (simp_all; done)))
  | (unfold State.perPassive; (try dsimp only); refine foldl_mem _ (fun s a => ?_) _ _; (try dsimp only); (repeat' split) <;> (first | (simp; done) | (simp_all; done)))
@[simp] theorem State.perBlocked_mem (s : State) (n before : Nat) : (State.perBlocked s n before).mem = s.mem := by
  first
  | (simp [State.perBlocked]; done)
  | (unfold State.perBlocked; (repeat' split) <;> (first | (simp; done) | (simp_all; done)))
  | (simp only [State.perBlocked]; (repeat' split) <;> (first | (simp; done) | (simp_all; done)))
  | (unfold State.perBlocked; (try dsimp only); refine foldl_mem _ (fun s a => ?_) _ _; (try dsimp only); (repeat' split) <;> (first | (simp; done) | (simp_all; done)))
@[simp] theorem State.perSwitch_mem (s : State) (n m : Nat) : (State.perSwitch s n m).mem = s.mem := by
  first
  | (simp [State.perSwitch]; done)
  | (unfold State.perSwitch; (repeat' split) <;> (first | (simp; done) | (simp_all; done)))
  | (simp only [State.perSwitch]; (repeat' split) <;> (first | (simp; done) | (simp_all; done)))
  | (unfold State.perSwitch; (try dsimp only); refine foldl_mem _ (fun s a => ?_) _ _; (try dsimp only); (repeat' split) <;> (first | (simp; done) | (simp_all; done)))
@[simp] theorem State.perEnable_mem (s : State) (n v : Nat) : (State.perEnable s n v).mem = s.mem := by
  first
  | (simp [State.perEnable]; done)
  | (unfold State.perEnable; (repeat' split) <;> (first | (simp; done) | (simp_all; done)))
  | (simp only [State.perEnable]; (repeat' split) <;> (first | (simp; done) | (simp_all; done)))
  | (unfold State.perEnable; (try dsimp only); refine foldl_mem _ (fun s a => ?_) _ _; (try dsimp only); (repeat' split) <;> (first | (simp; done) | (simp_all; done)))
@[simp] theorem State.perLockLost_mem (s : State) (n : Nat) (east lostRx lostTx : Bool) : (State.perLockLost s n east lostRx lostTx).mem = s.mem := by
  first
  | (simp [State.perLockLost]; done)
  | (unfold State.perLockLost; (repeat' split) <;> (first | (simp; done) | (simp_all; done)))
  | (simp only [State.perLockLost]; (repeat' split) <;> (first | (simp; done) | (simp_all; done)))
  | (unfold State.perLockLost; (try dsimp only); refine foldl_mem _ (fun s a => ?_) _ _; (try dsimp only); (repeat' split) <;> (first | (simp; done) | (simp_all; done)))
@[simp] theorem State.perSplice_mem (s : State) (n d : Nat) (f : List Nib) (ok : Bool) (x : PerFrame) : (State.perSplice s n d f ok x).2.2.mem = s.mem := by
  first
  | (simp [State.perSplice]; done)
  | (unfold State.perSplice; (repeat' split) <;> (first | (simp; done) | (simp_all; done)))
  | (simp only [State.perSplice]; (repeat' split) <;> (first | (simp; done) | (simp_all; done)))
  | (unfold State.perSplice; (try dsimp only); refine foldl_mem _ (fun s a => ?_) _ _; (try dsimp only); (repeat' split) <;> (first | (simp; done) | (simp_all; done)))
@[simp] theorem State.setEcho_mem (s : State) (n : Nat) (east : Bool) (x : Echo) : (State.setEcho s n east x).mem = s.mem := by
  first
  | (simp [State.setEcho]; done)
  | (unfold State.setEcho; (repeat' split) <;> (first | (simp; done) | (simp_all; done)))
  | (simp only [State.setEcho]; (repeat' split) <;> (first | (simp; done) | (simp_all; done)))
  | (unfold State.setEcho; (try dsimp only); refine foldl_mem _ (fun s a => ?_) _ _; (try dsimp only); (repeat' split) <;> (first | (simp; done) | (simp_all; done)))
@[simp] theorem State.refLeaves_mem (s : State) (n cycle phase : Nat) (pend : Option (Nat × Nat)) (flags : Nat) : (State.refLeaves s n cycle phase pend flags).mem = s.mem := by
  first
  | (simp [State.refLeaves]; done)
  | (unfold State.refLeaves; (repeat' split) <;> (first | (simp; done) | (simp_all; done)))
  | (simp only [State.refLeaves]; (repeat' split) <;> (first | (simp; done) | (simp_all; done)))
  | (unfold State.refLeaves; (try dsimp only); refine foldl_mem _ (fun s a => ?_) _ _; (try dsimp only); (repeat' split) <;> (first | (simp; done) | (simp_all; done)))
@[simp] theorem State.changeStep_mem (s : State) (n cycle : Nat) : (State.changeStep s n cycle).2.2.mem = s.mem := by
  first
  | (simp [State.changeStep]; done)
  | (unfold State.changeStep; (repeat' split) <;> (first | (simp; done) | (simp_all; done)))
  | (simp only [State.changeStep]; (repeat' split) <;> (first | (simp; done) | (simp_all; done)))
  | (unfold State.changeStep; (try dsimp only); refine foldl_mem _ (fun s a => ?_) _ _; (try dsimp only); (repeat' split) <;> (first | (simp; done) | (simp_all; done)))
@[simp] theorem State.perRestore_mem (s : State) (n : Nat) : (State.perRestore s n).mem = s.mem := by
  first
  | (simp [State.perRestore]; done)
  | (unfold State.perRestore; (repeat' split) <;> (first | (simp; done) | (simp_all; done)))
  | (simp only [State.perRestore]; (repeat' split) <;> (first | (simp; done) | (simp_all; done)))
  | (unfold State.perRestore; (try dsimp only); refine foldl_mem _ (fun s a => ?_) _ _; (try dsimp only); (repeat' split) <;> (first | (simp; done) | (simp_all; done)))
@[simp] theorem State.perRate_mem (s : State) (n : Nat) (p : List Byte) (arrival : Nat) (e : Int) : (State.perRate s n p arrival e).mem = s.mem := by
  first
  | (simp [State.perRate]; done)
  | (unfold State.perRate; (repeat' split) <;> (first | (simp; done) | (simp_all; done)))
  | (simp only [State.perRate]; (repeat' split) <;> (first | (simp; done) | (simp_all; done)))
  | (unfold State.perRate; (try dsimp only); refine foldl_mem _ (fun s a => ?_) _ _; (try dsimp only); (repeat' split) <;> (first | (simp; done) | (simp_all; done)))
@[simp] theorem State.refState_mem (s : State) (n : Nat) (e : Int) : (State.refState s n e).mem = s.mem := by
  first
  | (simp [State.refState]; done)
  | (unfold State.refState; (repeat' split) <;> (first | (simp; done) | (simp_all; done)))
  | (simp only [State.refState]; (repeat' split) <;> (first | (simp; done) | (simp_all; done)))
  | (unfold State.refState; (try dsimp only); refine foldl_mem _ (fun s a => ?_) _ _; (try dsimp only); (repeat' split) <;> (first | (simp; done) | (simp_all; done)))
@[simp] theorem State.refTaken_mem (s : State) (n : Nat) (x : PerFrame) (p : List Byte) : (State.refTaken s n x p).mem = s.mem := by
  first
  | (simp [State.refTaken]; done)
  | (unfold State.refTaken; (repeat' split) <;> (first | (simp; done) | (simp_all; done)))
  | (simp only [State.refTaken]; (repeat' split) <;> (first | (simp; done) | (simp_all; done)))
  | (unfold State.refTaken; (try dsimp only); refine foldl_mem _ (fun s a => ?_) _ _; (try dsimp only); (repeat' split) <;> (first | (simp; done) | (simp_all; done)))
@[simp] theorem State.refAtHead_mem (s : State) (n : Nat) (x : PerFrame) (p : List Byte) : (State.refAtHead s n x p).mem = s.mem := by
  first
  | (simp [State.refAtHead]; done)
  | (unfold State.refAtHead; (repeat' split) <;> (first | (simp; done) | (simp_all; done)))
  | (simp only [State.refAtHead]; (repeat' split) <;> (first | (simp; done) | (simp_all; done)))
  | (unfold State.refAtHead; (try dsimp only); refine foldl_mem _ (fun s a => ?_) _ _; (try dsimp only); (repeat' split) <;> (first | (simp; done) | (simp_all; done)))
@[simp] theorem State.refAccept_mem (s : State) (n : Nat) : (State.refAccept s n).mem = s.mem := by
  first
  | (simp [State.refAccept]; done)
  | (unfold State.refAccept; (repeat' split) <;> (first | (simp; done) | (simp_all; done)))
  | (simp only [State.refAccept]; (repeat' split) <;> (first | (simp; done) | (simp_all; done)))
  | (unfold State.refAccept; (try dsimp only); refine foldl_mem _ (fun s a => ?_) _ _; (try dsimp only); (repeat' split) <;> (first | (simp; done) | (simp_all; done)))
@[simp] theorem State.refMissed_mem (s : State) (n : Nat) : (State.refMissed s n).mem = s.mem := by
  first
  | (simp [State.refMissed]; done)
  | (unfold State.refMissed; (repeat' split) <;> (first | (simp; done) | (simp_all; done)))
  | (simp only [State.refMissed]; (repeat' split) <;> (first | (simp; done) | (simp_all; done)))
  | (unfold State.refMissed; (try dsimp only); refine foldl_mem _ (fun s a => ?_) _ _; (try dsimp only); (repeat' split) <;> (first | (simp; done) | (simp_all; done)))
@[simp] theorem State.coldWin_mem (s : State) (n : Nat) : (State.coldWin s n).mem = s.mem := by
  first
  | (simp [State.coldWin]; done)
  | (unfold State.coldWin; (repeat' split) <;> (first | (simp; done) | (simp_all; done)))
  | (simp only [State.coldWin]; (repeat' split) <;> (first | (simp; done) | (simp_all; done)))
  | (unfold State.coldWin; (try dsimp only); refine foldl_mem _ (fun s a => ?_) _ _; (try dsimp only); (repeat' split) <;> (first | (simp; done) | (simp_all; done)))
@[simp] theorem State.slotInstall_mem (s : State) (n m : Nat) (l : List (List Word)) : (State.slotInstall s n m l).2.mem = s.mem := by
  first
  | (simp [State.slotInstall]; done)
  | (unfold State.slotInstall; (repeat' split) <;> (first | (simp; done) | (simp_all; done)))
  | (simp only [State.slotInstall]; (repeat' split) <;> (first | (simp; done) | (simp_all; done)))
  | (unfold State.slotInstall; (try dsimp only); refine foldl_mem _ (fun s a => ?_) _ _; (try dsimp only); (repeat' split) <;> (first | (simp; done) | (simp_all; done)))
@[simp] theorem State.slotLoad_mem (s : State) (n m v : Nat) : (State.slotLoad s n m v).mem = s.mem := by
  first
  | (simp [State.slotLoad]; done)
  | (unfold State.slotLoad; (repeat' split) <;> (first | (simp; done) | (simp_all; done)))
  | (simp only [State.slotLoad]; (repeat' split) <;> (first | (simp; done) | (simp_all; done)))
  | (unfold State.slotLoad; (try dsimp only); refine foldl_mem _ (fun s a => ?_) _ _; (try dsimp only); (repeat' split) <;> (first | (simp; done) | (simp_all; done)))
@[simp] theorem State.setSlotFetch_mem (s : State) (n k : Nat) (x : Nat × List Nib) : (State.setSlotFetch s n k x).mem = s.mem := by
  first
  | (simp [State.setSlotFetch]; done)
  | (unfold State.setSlotFetch; (repeat' split) <;> (first | (simp; done) | (simp_all; done)))
  | (simp only [State.setSlotFetch]; (repeat' split) <;> (first | (simp; done) | (simp_all; done)))
  | (unfold State.setSlotFetch; (try dsimp only); refine foldl_mem _ (fun s a => ?_) _ _; (try dsimp only); (repeat' split) <;> (first | (simp; done) | (simp_all; done)))
@[simp] theorem State.perInsert_mem (s : State) (n : Nat) (f : List Nib) (phase : Nat) : (State.perInsert s n f phase).mem = s.mem := by
  first
  | (simp [State.perInsert]; done)
  | (unfold State.perInsert; (repeat' split) <;> (first | (simp; done) | (simp_all; done)))
  | (simp only [State.perInsert]; (repeat' split) <;> (first | (simp; done) | (simp_all; done)))
  | (unfold State.perInsert; (try dsimp only); refine foldl_mem _ (fun s a => ?_) _ _; (try dsimp only); (repeat' split) <;> (first | (simp; done) | (simp_all; done)))
@[simp] theorem State.guardCommit_mem (s : State) (n v master : Nat) : (State.guardCommit s n v master).mem = s.mem := by
  first
  | (simp [State.guardCommit]; done)
  | (unfold State.guardCommit; (repeat' split) <;> (first | (simp; done) | (simp_all; done)))
  | (simp only [State.guardCommit]; (repeat' split) <;> (first | (simp; done) | (simp_all; done)))
  | (unfold State.guardCommit; (try dsimp only); refine foldl_mem _ (fun s a => ?_) _ _; (try dsimp only); (repeat' split) <;> (first | (simp; done) | (simp_all; done)))
@[simp] theorem State.guardInstall_mem (s : State) (n master : Nat) (l : List (Word × Word)) : (State.guardInstall s n master l).2.mem = s.mem := by
  first
  | (simp [State.guardInstall]; done)
  | (unfold State.guardInstall; (repeat' split) <;> (first | (simp; done) | (simp_all; done)))
  | (simp only [State.guardInstall]; (repeat' split) <;> (first | (simp; done) | (simp_all; done)))
  | (unfold State.guardInstall; (try dsimp only); refine foldl_mem _ (fun s a => ?_) _ _; (try dsimp only); (repeat' split) <;> (first | (simp; done) | (simp_all; done)))
@[simp] theorem State.changeAsk_mem (s : State) (n mode lead : Nat) (restore : Bool) : (State.changeAsk s n mode lead restore).mem = s.mem := by
  first
  | (simp [State.changeAsk]; done)
  | (unfold State.changeAsk; (repeat' split) <;> (first | (simp; done) | (simp_all; done)))
  | (simp only [State.changeAsk]; (repeat' split) <;> (first | (simp; done) | (simp_all; done)))
  | (unfold State.changeAsk; (try dsimp only); refine foldl_mem _ (fun s a => ?_) _ _; (try dsimp only); (repeat' split) <;> (first | (simp; done) | (simp_all; done)))
@[simp] theorem State.perRelay_mem (s : State) (n : Nat) (x : PerFrame) (p : List Byte) : (State.perRelay s n x p).mem = s.mem := by
  first
  | (simp [State.perRelay]; done)
  | (unfold State.perRelay; (repeat' split) <;> (first | (simp; done) | (simp_all; done)))
  | (simp only [State.perRelay]; (repeat' split) <;> (first | (simp; done) | (simp_all; done)))
  | (unfold State.perRelay; (try dsimp only); refine foldl_mem _ (fun s a => ?_) _ _; (try dsimp only); (repeat' split) <;> (first | (simp; done) | (simp_all; done)))
@[simp] theorem State.measureNode_mem (s : State) (n : Nat) (x : PerFrame) : (State.measureNode s n x).mem = s.mem := by
  first
  | (simp [State.measureNode]; done)
  | (unfold State.measureNode; (repeat' split) <;> (first | (simp; done) | (simp_all; done)))
  | (simp only [State.measureNode]; (repeat' split) <;> (first | (simp; done) | (simp_all; done)))
  | (unfold State.measureNode; (try dsimp only); refine foldl_mem _ (fun s a => ?_) _ _; (try dsimp only); (repeat' split) <;> (first | (simp; done) | (simp_all; done)))
@[simp] theorem State.mgmtAnswer_mem (s : State) (n : Nat) (x : PerFrame) (p : List Byte) (status : Nat) (reply : List Byte) : (State.mgmtAnswer s n x p status reply).mem = s.mem := by
  first
  | (simp [State.mgmtAnswer]; done)
  | (unfold State.mgmtAnswer; (repeat' split) <;> (first | (simp; done) | (simp_all; done)))
  | (simp only [State.mgmtAnswer]; (repeat' split) <;> (first | (simp; done) | (simp_all; done)))
  | (unfold State.mgmtAnswer; (try dsimp only); refine foldl_mem _ (fun s a => ?_) _ _; (try dsimp only); (repeat' split) <;> (first | (simp; done) | (simp_all; done)))
@[simp] theorem State.setStaged_mem (s : State) (n t : Nat) (l : List (Nat × List Byte)) : (State.setStaged s n t l).mem = s.mem := by
  first
  | (simp [State.setStaged]; done)
  | (unfold State.setStaged; (repeat' split) <;> (first | (simp; done) | (simp_all; done)))
  | (simp only [State.setStaged]; (repeat' split) <;> (first | (simp; done) | (simp_all; done)))
  | (unfold State.setStaged; (try dsimp only); refine foldl_mem _ (fun s a => ?_) _ _; (try dsimp only); (repeat' split) <;> (first | (simp; done) | (simp_all; done)))
@[simp] theorem State.mgmtCommit_mem (s : State) (n t count : Nat) : (State.mgmtCommit s n t count).2.mem = s.mem := by
  first
  | (simp [State.mgmtCommit]; done)
  | (unfold State.mgmtCommit; (repeat' split) <;> (first | (simp; done) | (simp_all; done)))
  | (simp only [State.mgmtCommit]; (repeat' split) <;> (first | (simp; done) | (simp_all; done)))
  | (unfold State.mgmtCommit; (try dsimp only); refine foldl_mem _ (fun s a => ?_) _ _; (try dsimp only); (repeat' split) <;> (first | (simp; done) | (simp_all; done)))
@[simp] theorem State.scanSettled_mem (s : State) : (State.scanSettled s).mem = s.mem := by
  first
  | (simp [State.scanSettled]; done)
  | (unfold State.scanSettled; (repeat' split) <;> (first | (simp; done) | (simp_all; done)))
  | (simp only [State.scanSettled]; (repeat' split) <;> (first | (simp; done) | (simp_all; done)))
  | (unfold State.scanSettled; (try dsimp only); refine foldl_mem _ (fun s a => ?_) _ _; (try dsimp only); (repeat' split) <;> (first | (simp; done) | (simp_all; done)))
@[simp] theorem State.finishScan_mem (s : State) : (s.finishScan).mem = s.mem := by
  unfold State.finishScan
  dsimp only
  generalize s.scanLog 52426 0 _ [] = r
  rw [State.scanSettled_mem, foldl_mem _ (fun s a => State.admitRec_mem s a)]
  simp only [State.showAllowances_mem, State.wr_mem]
@[simp] theorem State.startCommit_mem (s : State) : (State.startCommit s).mem = s.mem := by
  first
  | (simp [State.startCommit]; done)
  | (unfold State.startCommit; (repeat' split) <;> (first | (simp; done) | (simp_all; done)))
  | (simp only [State.startCommit]; (repeat' split) <;> (first | (simp; done) | (simp_all; done)))
  | (unfold State.startCommit; (try dsimp only); refine foldl_mem _ (fun s a => ?_) _ _; (try dsimp only); (repeat' split) <;> (first | (simp; done) | (simp_all; done)))
@[simp] theorem State.doCommit_mem (s : State) : (State.doCommit s).mem = s.mem := by
  first
  | (simp [State.doCommit]; done)
  | (unfold State.doCommit; (repeat' split) <;> (first | (simp; done) | (simp_all; done)))
  | (simp only [State.doCommit]; (repeat' split) <;> (first | (simp; done) | (simp_all; done)))
  | (unfold State.doCommit; (try dsimp only); refine foldl_mem _ (fun s a => ?_) _ _; (try dsimp only); (repeat' split) <;> (first | (simp; done) | (simp_all; done)))
@[simp] theorem State.optionLoad_mem (s : State) : (State.optionLoad s).mem = s.mem := by
  first
  | (simp [State.optionLoad]; done)
  | (unfold State.optionLoad; (repeat' split) <;> (first | (simp; done) | (simp_all; done)))
  | (simp only [State.optionLoad]; (repeat' split) <;> (first | (simp; done) | (simp_all; done)))
  | (unfold State.optionLoad; (try dsimp only); refine foldl_mem _ (fun s a => ?_) _ _; (try dsimp only); (repeat' split) <;> (first | (simp; done) | (simp_all; done)))
@[simp] theorem State.setLat_mem (s : State) (f : Lattice → Lattice) : (State.setLat s f).mem = s.mem := by
  first
  | (simp [State.setLat]; done)
  | (unfold State.setLat; (repeat' split) <;> (first | (simp; done) | (simp_all; done)))
  | (simp only [State.setLat]; (repeat' split) <;> (first | (simp; done) | (simp_all; done)))
  | (unfold State.setLat; (try dsimp only); refine foldl_mem _ (fun s a => ?_) _ _; (try dsimp only); (repeat' split) <;> (first | (simp; done) | (simp_all; done)))
@[simp] theorem State.latSeq_mem (s : State) (cls : Nat) : (State.latSeq s cls).2.mem = s.mem := by
  first
  | (simp [State.latSeq]; done)
  | (unfold State.latSeq; (repeat' split) <;> (first | (simp; done) | (simp_all; done)))
  | (simp only [State.latSeq]; (repeat' split) <;> (first | (simp; done) | (simp_all; done)))
  | (unfold State.latSeq; (try dsimp only); refine foldl_mem _ (fun s a => ?_) _ _; (try dsimp only); (repeat' split) <;> (first | (simp; done) | (simp_all; done)))
@[simp] theorem State.latEnter_mem (s : State) (st : Nat) : (State.latEnter s st).mem = s.mem := by
  first
  | (simp [State.latEnter]; done)
  | (unfold State.latEnter; (repeat' split) <;> (first | (simp; done) | (simp_all; done)))
  | (simp only [State.latEnter]; (repeat' split) <;> (first | (simp; done) | (simp_all; done)))
  | (unfold State.latEnter; (try dsimp only); refine foldl_mem _ (fun s a => ?_) _ _; (try dsimp only); (repeat' split) <;> (first | (simp; done) | (simp_all; done)))
@[simp] theorem State.enterAddr_mem (s : State) (a id : Nat) : (State.enterAddr s a id).mem = s.mem := by
  first
  | (simp [State.enterAddr]; done)
  | (unfold State.enterAddr; (repeat' split) <;> (first | (simp; done) | (simp_all; done)))
  | (simp only [State.enterAddr]; (repeat' split) <;> (first | (simp; done) | (simp_all; done)))
  | (unfold State.enterAddr; (try dsimp only); refine foldl_mem _ (fun s a => ?_) _ _; (try dsimp only); (repeat' split) <;> (first | (simp; done) | (simp_all; done)))
@[simp] theorem State.persist_mem (s : State) (i j v : Nat) : (State.persist s i j v).mem = s.mem := by
  first
  | (simp [State.persist]; done)
  | (unfold State.persist; (repeat' split) <;> (first | (simp; done) | (simp_all; done)))
  | (simp only [State.persist]; (repeat' split) <;> (first | (simp; done) | (simp_all; done)))
  | (unfold State.persist; (try dsimp only); refine foldl_mem _ (fun s a => ?_) _ _; (try dsimp only); (repeat' split) <;> (first | (simp; done) | (simp_all; done)))
@[simp] theorem State.takeAddr_mem (s : State) (a : Nat) : (State.takeAddr s a).mem = s.mem := by
  first
  | (simp [State.takeAddr]; done)
  | (unfold State.takeAddr; (repeat' split) <;> (first | (simp; done) | (simp_all; done)))
  | (simp only [State.takeAddr]; (repeat' split) <;> (first | (simp; done) | (simp_all; done)))
  | (unfold State.takeAddr; (try dsimp only); refine foldl_mem _ (fun s a => ?_) _ _; (try dsimp only); (repeat' split) <;> (first | (simp; done) | (simp_all; done)))
@[simp] theorem State.keeperAddr_mem (s : State) : (State.keeperAddr s).mem = s.mem := by
  first
  | (simp [State.keeperAddr]; done)
  | (unfold State.keeperAddr; (repeat' split) <;> (first | (simp; done) | (simp_all; done)))
  | (simp only [State.keeperAddr]; (repeat' split) <;> (first | (simp; done) | (simp_all; done)))
  | (unfold State.keeperAddr; (try dsimp only); refine foldl_mem _ (fun s a => ?_) _ _; (try dsimp only); (repeat' split) <;> (first | (simp; done) | (simp_all; done)))
@[simp] theorem State.nameKeeper_mem (s : State) (k : Nat × Nat × Nat) : (State.nameKeeper s k).mem = s.mem := by
  first
  | (simp [State.nameKeeper]; done)
  | (unfold State.nameKeeper; (repeat' split) <;> (first | (simp; done) | (simp_all; done)))
  | (simp only [State.nameKeeper]; (repeat' split) <;> (first | (simp; done) | (simp_all; done)))
  | (unfold State.nameKeeper; (try dsimp only); refine foldl_mem _ (fun s a => ?_) _ _; (try dsimp only); (repeat' split) <;> (first | (simp; done) | (simp_all; done)))
@[simp] theorem State.elect_mem (s : State) : (State.elect s).mem = s.mem := by
  first
  | (simp [State.elect]; done)
  | (unfold State.elect; (repeat' split) <;> (first | (simp; done) | (simp_all; done)))
  | (simp only [State.elect]; (repeat' split) <;> (first | (simp; done) | (simp_all; done)))
  | (unfold State.elect; (try dsimp only); refine foldl_mem _ (fun s a => ?_) _ _; (try dsimp only); (repeat' split) <;> (first | (simp; done) | (simp_all; done)))
theorem State.latGot_mem (s : State) (typ : Nat) (resp : Bool) {t1} (h : State.latGot s typ resp = some t1) : t1.2.mem = s.mem := by
  simp only [State.latGot] at h
  repeat' split at h
  all_goals first | (simp only [Option.some.injEq, reduceCtorEq] at h; done) | (simp only [Option.some.injEq] at h; subst h)
  all_goals first | (simp; done) | (simp_all; done)
@[simp] theorem State.latClaim_mem (s : State) (id prio addr seq : Nat) : (State.latClaim s id prio addr seq).mem = s.mem := by
  first
  | (simp [State.latClaim]; done)
  | (unfold State.latClaim; (repeat' split) <;> (first | (simp; done) | (simp_all; done)))
  | (simp only [State.latClaim]; (repeat' split) <;> (first | (simp; done) | (simp_all; done)))
  | (unfold State.latClaim; (try dsimp only); refine foldl_mem _ (fun s a => ?_) _ _; (try dsimp only); (repeat' split) <;> (first | (simp; done) | (simp_all; done)))
@[simp] theorem State.latForget_mem (s : State) (a : Nat) : (State.latForget s a).mem = s.mem := by
  first
  | (simp [State.latForget]; done)
  | (unfold State.latForget; (repeat' split) <;> (first | (simp; done) | (simp_all; done)))
  | (simp only [State.latForget]; (repeat' split) <;> (first | (simp; done) | (simp_all; done)))
  | (unfold State.latForget; (try dsimp only); refine foldl_mem _ (fun s a => ?_) _ _; (try dsimp only); (repeat' split) <;> (first | (simp; done) | (simp_all; done)))
@[simp] theorem State.freeBytes_mem (s : State) (n : Nat) : (State.freeBytes s n).2.mem = s.mem := by
  first
  | (simp [State.freeBytes]; done)
  | (unfold State.freeBytes; (repeat' split) <;> (first | (simp; done) | (simp_all; done)))
  | (simp only [State.freeBytes]; (repeat' split) <;> (first | (simp; done) | (simp_all; done)))
  | (unfold State.freeBytes; (try dsimp only); refine foldl_mem _ (fun s a => ?_) _ _; (try dsimp only); (repeat' split) <;> (first | (simp; done) | (simp_all; done)))
@[simp] theorem State.sampleTemps_mem (s : State) (ts : List Half) : (State.sampleTemps s ts).mem = s.mem := by
  first
  | (simp [State.sampleTemps]; done)
  | (unfold State.sampleTemps; (repeat' split) <;> (first | (simp; done) | (simp_all; done)))
  | (simp only [State.sampleTemps]; (repeat' split) <;> (first | (simp; done) | (simp_all; done)))
  | (unfold State.sampleTemps; (try dsimp only); refine foldl_mem _ (fun s a => ?_) _ _; (try dsimp only); (repeat' split) <;> (first | (simp; done) | (simp_all; done)))
@[simp] theorem State.supplyOut_mem (s : State) (m mv : Nat) : (State.supplyOut s m mv).mem = s.mem := by
  first
  | (simp [State.supplyOut]; done)
  | (unfold State.supplyOut; (repeat' split) <;> (first | (simp; done) | (simp_all; done)))
  | (simp only [State.supplyOut]; (repeat' split) <;> (first | (simp; done) | (simp_all; done)))
  | (unfold State.supplyOut; (try dsimp only); refine foldl_mem _ (fun s a => ?_) _ _; (try dsimp only); (repeat' split) <;> (first | (simp; done) | (simp_all; done)))
@[simp] theorem State.paceOne_mem (s : State) (i factory : Nat) : (State.paceOne s i factory).mem = s.mem := by
  first
  | (simp [State.paceOne]; done)
  | (unfold State.paceOne; (repeat' split) <;> (first | (simp; done) | (simp_all; done)))
  | (simp only [State.paceOne]; (repeat' split) <;> (first | (simp; done) | (simp_all; done)))
  | (unfold State.paceOne; (try dsimp only); refine foldl_mem _ (fun s a => ?_) _ _; (try dsimp only); (repeat' split) <;> (first | (simp; done) | (simp_all; done)))
@[simp] theorem State.doArm_mem (s : State) (master : Nat) : (State.doArm s master).mem = s.mem := by
  first
  | (simp [State.doArm]; done)
  | (unfold State.doArm; (repeat' split) <;> (first | (simp; done) | (simp_all; done)))
  | (simp only [State.doArm]; (repeat' split) <;> (first | (simp; done) | (simp_all; done)))
  | (unfold State.doArm; (try dsimp only); refine foldl_mem _ (fun s a => ?_) _ _; (try dsimp only); (repeat' split) <;> (first | (simp; done) | (simp_all; done)))
@[simp] theorem State.disarm_mem (s : State) (master reason : Nat) : (State.disarm s master reason).mem = s.mem := by
  first
  | (simp [State.disarm]; done)
  | (unfold State.disarm; (repeat' split) <;> (first | (simp; done) | (simp_all; done)))
  | (simp only [State.disarm]; (repeat' split) <;> (first | (simp; done) | (simp_all; done)))
  | (unfold State.disarm; (try dsimp only); refine foldl_mem _ (fun s a => ?_) _ _; (try dsimp only); (repeat' split) <;> (first | (simp; done) | (simp_all; done)))
@[simp] theorem State.doTestInService_mem (s : State) (p v : Nat) : (State.doTestInService s p v).mem = s.mem := by
  first
  | (simp [State.doTestInService]; done)
  | (unfold State.doTestInService; (repeat' split) <;> (first | (simp; done) | (simp_all; done)))
  | (simp only [State.doTestInService]; (repeat' split) <;> (first | (simp; done) | (simp_all; done)))
  | (unfold State.doTestInService; (try dsimp only); refine foldl_mem _ (fun s a => ?_) _ _; (try dsimp only); (repeat' split) <;> (first | (simp; done) | (simp_all; done)))
@[simp] theorem State.setPio_mem (s : State) (b : Nat) (x : Pio) : (State.setPio s b x).mem = s.mem := by
  first
  | (simp [State.setPio]; done)
  | (unfold State.setPio; (repeat' split) <;> (first | (simp; done) | (simp_all; done)))
  | (simp only [State.setPio]; (repeat' split) <;> (first | (simp; done) | (simp_all; done)))
  | (unfold State.setPio; (try dsimp only); refine foldl_mem _ (fun s a => ?_) _ _; (try dsimp only); (repeat' split) <;> (first | (simp; done) | (simp_all; done)))
@[simp] theorem State.setSm_mem (s : State) (m : Nat) (x : Sm) : (State.setSm s m x).mem = s.mem := by
  first
  | (simp [State.setSm]; done)
  | (unfold State.setSm; (repeat' split) <;> (first | (simp; done) | (simp_all; done)))
  | (simp only [State.setSm]; (repeat' split) <;> (first | (simp; done) | (simp_all; done)))
  | (unfold State.setSm; (try dsimp only); refine foldl_mem _ (fun s a => ?_) _ _; (try dsimp only); (repeat' split) <;> (first | (simp; done) | (simp_all; done)))
@[simp] theorem State.pioEvent_mem (s : State) (b k : Nat) : (State.pioEvent s b k).mem = s.mem := by
  first
  | (simp [State.pioEvent]; done)
  | (unfold State.pioEvent; (repeat' split) <;> (first | (simp; done) | (simp_all; done)))
  | (simp only [State.pioEvent]; (repeat' split) <;> (first | (simp; done) | (simp_all; done)))
  | (unfold State.pioEvent; (try dsimp only); refine foldl_mem _ (fun s a => ?_) _ _; (try dsimp only); (repeat' split) <;> (first | (simp; done) | (simp_all; done)))
@[simp] theorem State.pioShow_mem (s : State) (b : Nat) : (State.pioShow s b).mem = s.mem := by
  first
  | (simp [State.pioShow]; done)
  | (unfold State.pioShow; (repeat' split) <;> (first | (simp; done) | (simp_all; done)))
  | (simp only [State.pioShow]; (repeat' split) <;> (first | (simp; done) | (simp_all; done)))
  | (unfold State.pioShow; (try dsimp only); refine foldl_mem _ (fun s a => ?_) _ _; (try dsimp only); (repeat' split) <;> (first | (simp; done) | (simp_all; done)))
@[simp] theorem State.pioDrive_mem (s : State) (m base : Nat) (dir : Bool) (bits : List Bool) : (State.pioDrive s m base dir bits).mem = s.mem := by
  first
  | (simp [State.pioDrive]; done)
  | (unfold State.pioDrive; (repeat' split) <;> (first | (simp; done) | (simp_all; done)))
  | (simp only [State.pioDrive]; (repeat' split) <;> (first | (simp; done) | (simp_all; done)))
  | (unfold State.pioDrive; (try dsimp only); refine foldl_mem _ (fun s a => ?_) _ _; (try dsimp only); (repeat' split) <;> (first | (simp; done) | (simp_all; done)))
@[simp] theorem State.pioInputs_mem (s : State) (b : Nat) (pins : Half) : (State.pioInputs s b pins).mem = s.mem := by
  first
  | (simp [State.pioInputs]; done)
  | (unfold State.pioInputs; (repeat' split) <;> (first | (simp; done) | (simp_all; done)))
  | (simp only [State.pioInputs]; (repeat' split) <;> (first | (simp; done) | (simp_all; done)))
  | (unfold State.pioInputs; (try dsimp only); refine foldl_mem _ (fun s a => ?_) _ _; (try dsimp only); (repeat' split) <;> (first | (simp; done) | (simp_all; done)))
@[simp] theorem State.setPioFlags_mem (s : State) (b v : Nat) : (State.setPioFlags s b v).mem = s.mem := by
  first
  | (simp [State.setPioFlags]; done)
  | (unfold State.setPioFlags; (repeat' split) <;> (first | (simp; done) | (simp_all; done)))
  | (simp only [State.setPioFlags]; (repeat' split) <;> (first | (simp; done) | (simp_all; done)))
  | (unfold State.setPioFlags; (try dsimp only); refine foldl_mem _ (fun s a => ?_) _ _; (try dsimp only); (repeat' split) <;> (first | (simp; done) | (simp_all; done)))
@[simp] theorem State.txPush_mem (s : State) (m : Nat) (w : Word) : (State.txPush s m w).mem = s.mem := by
  first
  | (simp [State.txPush]; done)
  | (unfold State.txPush; (repeat' split) <;> (first | (simp; done) | (simp_all; done)))
  | (simp only [State.txPush]; (repeat' split) <;> (first | (simp; done) | (simp_all; done)))
  | (unfold State.txPush; (try dsimp only); refine foldl_mem _ (fun s a => ?_) _ _; (try dsimp only); (repeat' split) <;> (first | (simp; done) | (simp_all; done)))
@[simp] theorem State.txTake_mem (s : State) (m : Nat) : (State.txTake s m).mem = s.mem := by
  first
  | (simp [State.txTake]; done)
  | (unfold State.txTake; (repeat' split) <;> (first | (simp; done) | (simp_all; done)))
  | (simp only [State.txTake]; (repeat' split) <;> (first | (simp; done) | (simp_all; done)))
  | (unfold State.txTake; (try dsimp only); refine foldl_mem _ (fun s a => ?_) _ _; (try dsimp only); (repeat' split) <;> (first | (simp; done) | (simp_all; done)))
@[simp] theorem State.rxPut_mem (s : State) (m : Nat) : (State.rxPut s m).mem = s.mem := by
  first
  | (simp [State.rxPut]; done)
  | (unfold State.rxPut; (repeat' split) <;> (first | (simp; done) | (simp_all; done)))
  | (simp only [State.rxPut]; (repeat' split) <;> (first | (simp; done) | (simp_all; done)))
  | (unfold State.rxPut; (try dsimp only); refine foldl_mem _ (fun s a => ?_) _ _; (try dsimp only); (repeat' split) <;> (first | (simp; done) | (simp_all; done)))
@[simp] theorem State.rxPop_mem (s : State) (m : Nat) : (State.rxPop s m).2.mem = s.mem := by
  first
  | (simp [State.rxPop]; done)
  | (unfold State.rxPop; (repeat' split) <;> (first | (simp; done) | (simp_all; done)))
  | (simp only [State.rxPop]; (repeat' split) <;> (first | (simp; done) | (simp_all; done)))
  | (unfold State.rxPop; (try dsimp only); refine foldl_mem _ (fun s a => ?_) _ _; (try dsimp only); (repeat' split) <;> (first | (simp; done) | (simp_all; done)))
@[simp] theorem State.txBit_mem (s : State) (m : Nat) : (State.txBit s m).2.mem = s.mem := by
  first
  | (simp [State.txBit]; done)
  | (unfold State.txBit; (repeat' split) <;> (first | (simp; done) | (simp_all; done)))
  | (simp only [State.txBit]; (repeat' split) <;> (first | (simp; done) | (simp_all; done)))
  | (unfold State.txBit; (try dsimp only); refine foldl_mem _ (fun s a => ?_) _ _; (try dsimp only); (repeat' split) <;> (first | (simp; done) | (simp_all; done)))
@[simp] theorem State.takeBits_mem (s : State) (m : Nat) (got : List Bool) (x0 : Nat) : (State.takeBits s m got x0).2.2.mem = s.mem := by
  induction x0 generalizing s m got <;> first | (simp_all [State.takeBits]; done) | (unfold State.takeBits; (repeat' split) <;> simp_all)
@[simp] theorem State.rxFlush_mem (s : State) (m : Nat) : (State.rxFlush s m).2.mem = s.mem := by
  first
  | (simp [State.rxFlush]; done)
  | (unfold State.rxFlush; (repeat' split) <;> (first | (simp; done) | (simp_all; done)))
  | (simp only [State.rxFlush]; (repeat' split) <;> (first | (simp; done) | (simp_all; done)))
  | (unfold State.rxFlush; (try dsimp only); refine foldl_mem _ (fun s a => ?_) _ _; (try dsimp only); (repeat' split) <;> (first | (simp; done) | (simp_all; done)))
@[simp] theorem State.rxBit_mem (s : State) (m : Nat) (v : Bool) : (State.rxBit s m v).mem = s.mem := by
  first
  | (simp [State.rxBit]; done)
  | (unfold State.rxBit; (repeat' split) <;> (first | (simp; done) | (simp_all; done)))
  | (simp only [State.rxBit]; (repeat' split) <;> (first | (simp; done) | (simp_all; done)))
  | (unfold State.rxBit; (try dsimp only); refine foldl_mem _ (fun s a => ?_) _ _; (try dsimp only); (repeat' split) <;> (first | (simp; done) | (simp_all; done)))
@[simp] theorem State.giveBits_mem (s : State) (m : Nat) (l : List Bool) : (s.giveBits m l).2.mem = s.mem := by
  induction l generalizing s with
  | nil => simp [State.giveBits]
  | cons v t ih => unfold State.giveBits; dsimp only; split <;> simp [ih]
@[simp] theorem State.smDone_mem (s : State) (m : Nat) (w : Half) (branch : Option Nat) : (State.smDone s m w branch).mem = s.mem := by
  first
  | (simp [State.smDone]; done)
  | (unfold State.smDone; (repeat' split) <;> (first | (simp; done) | (simp_all; done)))
  | (simp only [State.smDone]; (repeat' split) <;> (first | (simp; done) | (simp_all; done)))
  | (unfold State.smDone; (try dsimp only); refine foldl_mem _ (fun s a => ?_) _ _; (try dsimp only); (repeat' split) <;> (first | (simp; done) | (simp_all; done)))
@[simp] theorem State.smStall_mem (s : State) (m st : Nat) : (State.smStall s m st).mem = s.mem := by
  first
  | (simp [State.smStall]; done)
  | (unfold State.smStall; (repeat' split) <;> (first | (simp; done) | (simp_all; done)))
  | (simp only [State.smStall]; (repeat' split) <;> (first | (simp; done) | (simp_all; done)))
  | (unfold State.smStall; (try dsimp only); refine foldl_mem _ (fun s a => ?_) _ _; (try dsimp only); (repeat' split) <;> (first | (simp; done) | (simp_all; done)))
theorem State.smFetch_mem (s : State) (m op : Nat) {t1} (h : State.smFetch s m op = some t1) : t1.2.mem = s.mem := by
  simp only [State.smFetch] at h
  repeat' split at h
  all_goals first | (simp only [Option.some.injEq, reduceCtorEq] at h; done) | (simp only [Option.some.injEq] at h; subst h)
  all_goals first | (simp; done) | (simp_all; done)
@[simp] theorem State.smTakes_mem (s : State) (m n : Nat) (f : State → List Bool → State) (hf : ∀ s a0, (f s a0).mem = s.mem) : (State.smTakes s m n f).mem = s.mem := by
  first
  | (simp [State.smTakes, hf]; done)
  | (unfold State.smTakes; (repeat' split) <;> (first | (simp [State.smTakes, hf]; done) | (simp_all; done)))
  | (simp only [State.smTakes]; (repeat' split) <;> (first | (simp [State.smTakes, hf]; done) | (simp_all; done)))
  | (unfold State.smTakes; (try dsimp only); refine foldl_mem _ (fun s a => ?_) _ _; (try dsimp only); (repeat' split) <;> (first | (simp; done) | (simp_all; done)))
@[simp] theorem State.smGives_mem (s : State) (m : Nat) (w : Half) (l : List Bool) : (State.smGives s m w l).mem = s.mem := by
  first
  | (simp [State.smGives]; done)
  | (unfold State.smGives; (repeat' split) <;> (first | (simp; done) | (simp_all; done)))
  | (simp only [State.smGives]; (repeat' split) <;> (first | (simp; done) | (simp_all; done)))
  | (unfold State.smGives; (try dsimp only); refine foldl_mem _ (fun s a => ?_) _ _; (try dsimp only); (repeat' split) <;> (first | (simp; done) | (simp_all; done)))
@[simp] theorem State.smDrive_mem (s : State) (m : Nat) (w : Half) : (State.smDrive s m w).mem = s.mem := by
  first
  | (simp [State.smDrive]; done)
  | (unfold State.smDrive; (repeat' split) <;> (first | (simp; done) | (simp_all; done)))
  | (simp only [State.smDrive]; (repeat' split) <;> (first | (simp; done) | (simp_all; done)))
  | (unfold State.smDrive; (try dsimp only); refine foldl_mem _ (fun s a => ?_) _ _; (try dsimp only); (repeat' split) <;> (first | (simp; done) | (simp_all; done)))
@[simp] theorem State.smSample_mem (s : State) (m : Nat) (w : Half) : (State.smSample s m w).mem = s.mem := by
  first
  | (simp [State.smSample]; done)
  | (unfold State.smSample; (repeat' split) <;> (first | (simp; done) | (simp_all; done)))
  | (simp only [State.smSample]; (repeat' split) <;> (first | (simp; done) | (simp_all; done)))
  | (unfold State.smSample; (try dsimp only); refine foldl_mem _ (fun s a => ?_) _ _; (try dsimp only); (repeat' split) <;> (first | (simp; done) | (simp_all; done)))
@[simp] theorem State.smLoadTw_mem (s : State) (m : Nat) (w : Half) : (State.smLoadTw s m w).mem = s.mem := by
  first
  | (simp [State.smLoadTw]; done)
  | (unfold State.smLoadTw; (repeat' split) <;> (first | (simp; done) | (simp_all; done)))
  | (simp only [State.smLoadTw]; (repeat' split) <;> (first | (simp; done) | (simp_all; done)))
  | (unfold State.smLoadTw; (try dsimp only); refine foldl_mem _ (fun s a => ?_) _ _; (try dsimp only); (repeat' split) <;> (first | (simp; done) | (simp_all; done)))
@[simp] theorem State.smStoreRw_mem (s : State) (m : Nat) (w : Half) : (State.smStoreRw s m w).mem = s.mem := by
  first
  | (simp [State.smStoreRw]; done)
  | (unfold State.smStoreRw; (repeat' split) <;> (first | (simp; done) | (simp_all; done)))
  | (simp only [State.smStoreRw]; (repeat' split) <;> (first | (simp; done) | (simp_all; done)))
  | (unfold State.smStoreRw; (try dsimp only); refine foldl_mem _ (fun s a => ?_) _ _; (try dsimp only); (repeat' split) <;> (first | (simp; done) | (simp_all; done)))
@[simp] theorem State.smLoadImm_mem (s : State) (m : Nat) (w : Half) : (State.smLoadImm s m w).mem = s.mem := by
  first
  | (simp [State.smLoadImm]; done)
  | (unfold State.smLoadImm; (repeat' split) <;> (first | (simp; done) | (simp_all; done)))
  | (simp only [State.smLoadImm]; (repeat' split) <;> (first | (simp; done) | (simp_all; done)))
  | (unfold State.smLoadImm; (try dsimp only); refine foldl_mem _ (fun s a => ?_) _ _; (try dsimp only); (repeat' split) <;> (first | (simp; done) | (simp_all; done)))
@[simp] theorem State.smAwait_mem (s : State) (m : Nat) (w : Half) : (State.smAwait s m w).mem = s.mem := by
  first
  | (simp [State.smAwait]; done)
  | (unfold State.smAwait; (repeat' split) <;> (first | (simp; done) | (simp_all; done)))
  | (simp only [State.smAwait]; (repeat' split) <;> (first | (simp; done) | (simp_all; done)))
  | (unfold State.smAwait; (try dsimp only); refine foldl_mem _ (fun s a => ?_) _ _; (try dsimp only); (repeat' split) <;> (first | (simp; done) | (simp_all; done)))
@[simp] theorem State.smFlag_mem (s : State) (m : Nat) (w : Half) : (State.smFlag s m w).mem = s.mem := by
  first
  | (simp [State.smFlag]; done)
  | (unfold State.smFlag; (repeat' split) <;> (first | (simp; done) | (simp_all; done)))
  | (simp only [State.smFlag]; (repeat' split) <;> (first | (simp; done) | (simp_all; done)))
  | (unfold State.smFlag; (try dsimp only); refine foldl_mem _ (fun s a => ?_) _ _; (try dsimp only); (repeat' split) <;> (first | (simp; done) | (simp_all; done)))
@[simp] theorem State.smCopy_mem (s : State) (m : Nat) (w : Half) : (State.smCopy s m w).mem = s.mem := by
  first
  | (simp [State.smCopy]; done)
  | (unfold State.smCopy; (repeat' split) <;> (first | (simp; done) | (simp_all; done)))
  | (simp only [State.smCopy]; (repeat' split) <;> (first | (simp; done) | (simp_all; done)))
  | (unfold State.smCopy; (try dsimp only); refine foldl_mem _ (fun s a => ?_) _ _; (try dsimp only); (repeat' split) <;> (first | (simp; done) | (simp_all; done)))
@[simp] theorem State.smUnpack_mem (s : State) (m : Nat) (w : Half) : (State.smUnpack s m w).mem = s.mem := by
  first
  | (simp [State.smUnpack]; done)
  | (unfold State.smUnpack; (repeat' split) <;> (first | (simp; done) | (simp_all; done)))
  | (simp only [State.smUnpack]; (repeat' split) <;> (first | (simp; done) | (simp_all; done)))
  | (unfold State.smUnpack; (try dsimp only); refine foldl_mem _ (fun s a => ?_) _ _; (try dsimp only); (repeat' split) <;> (first | (simp; done) | (simp_all; done)))
@[simp] theorem State.smPack_mem (s : State) (m : Nat) (w : Half) : (State.smPack s m w).mem = s.mem := by
  first
  | (simp [State.smPack]; done)
  | (unfold State.smPack; (repeat' split) <;> (first | (simp; done) | (simp_all; done)))
  | (simp only [State.smPack]; (repeat' split) <;> (first | (simp; done) | (simp_all; done)))
  | (unfold State.smPack; (try dsimp only); refine foldl_mem _ (fun s a => ?_) _ _; (try dsimp only); (repeat' split) <;> (first | (simp; done) | (simp_all; done)))
@[simp] theorem State.smLoop_mem (s : State) (m j : Nat) (w : Half) : (State.smLoop s m j w).mem = s.mem := by
  first
  | (simp [State.smLoop]; done)
  | (unfold State.smLoop; (repeat' split) <;> (first | (simp; done) | (simp_all; done)))
  | (simp only [State.smLoop]; (repeat' split) <;> (first | (simp; done) | (simp_all; done)))
  | (unfold State.smLoop; (try dsimp only); refine foldl_mem _ (fun s a => ?_) _ _; (try dsimp only); (repeat' split) <;> (first | (simp; done) | (simp_all; done)))
@[simp] theorem State.smResume_mem (s : State) (m : Nat) : (State.smResume s m).mem = s.mem := by
  first
  | (simp [State.smResume]; done)
  | (unfold State.smResume; (repeat' split) <;> (first | (simp; done) | (simp_all; done)))
  | (simp only [State.smResume]; (repeat' split) <;> (first | (simp; done) | (simp_all; done)))
  | (unfold State.smResume; (try dsimp only); refine foldl_mem _ (fun s a => ?_) _ _; (try dsimp only); (repeat' split) <;> (first | (simp; done) | (simp_all; done)))
@[simp] theorem State.smTimeUp_mem (s : State) (m : Nat) : (State.smTimeUp s m).mem = s.mem := by
  first
  | (simp [State.smTimeUp]; done)
  | (unfold State.smTimeUp; (repeat' split) <;> (first | (simp; done) | (simp_all; done)))
  | (simp only [State.smTimeUp]; (repeat' split) <;> (first | (simp; done) | (simp_all; done)))
  | (unfold State.smTimeUp; (try dsimp only); refine foldl_mem _ (fun s a => ?_) _ _; (try dsimp only); (repeat' split) <;> (first | (simp; done) | (simp_all; done)))
@[simp] theorem State.smRun_mem (s : State) (m op : Nat) (f : State → Half → State) (hf : ∀ s a, (f s a).mem = s.mem) : (s.smRun m op f).mem = s.mem := by
  unfold State.smRun
  split
  · rename_i h
    have := State.smFetch_mem s m op h
    simp_all
  · rfl
@[simp] theorem State.smEnable_mem (s : State) (b v : Nat) : (State.smEnable s b v).mem = s.mem := by
  first
  | (simp [State.smEnable]; done)
  | (unfold State.smEnable; (repeat' split) <;> (first | (simp; done) | (simp_all; done)))
  | (simp only [State.smEnable]; (repeat' split) <;> (first | (simp; done) | (simp_all; done)))
  | (unfold State.smEnable; (try dsimp only); refine foldl_mem _ (fun s a => ?_) _ _; (try dsimp only); (repeat' split) <;> (first | (simp; done) | (simp_all; done)))
@[simp] theorem State.smRestart_mem (s : State) (m : Nat) : (State.smRestart s m).mem = s.mem := by
  first
  | (simp [State.smRestart]; done)
  | (unfold State.smRestart; (repeat' split) <;> (first | (simp; done) | (simp_all; done)))
  | (simp only [State.smRestart]; (repeat' split) <;> (first | (simp; done) | (simp_all; done)))
  | (unfold State.smRestart; (try dsimp only); refine foldl_mem _ (fun s a => ?_) _ _; (try dsimp only); (repeat' split) <;> (first | (simp; done) | (simp_all; done)))
@[simp] theorem State.smClear_mem (s : State) (m : Nat) : (State.smClear s m).mem = s.mem := by
  first
  | (simp [State.smClear]; done)
  | (unfold State.smClear; (repeat' split) <;> (first | (simp; done) | (simp_all; done)))
  | (simp only [State.smClear]; (repeat' split) <;> (first | (simp; done) | (simp_all; done)))
  | (unfold State.smClear; (try dsimp only); refine foldl_mem _ (fun s a => ?_) _ _; (try dsimp only); (repeat' split) <;> (first | (simp; done) | (simp_all; done)))
@[simp] theorem State.smWrap_mem (s : State) (m v : Nat) : (State.smWrap s m v).mem = s.mem := by
  first
  | (simp [State.smWrap]; done)
  | (unfold State.smWrap; (repeat' split) <;> (first | (simp; done) | (simp_all; done)))
  | (simp only [State.smWrap]; (repeat' split) <;> (first | (simp; done) | (simp_all; done)))
  | (unfold State.smWrap; (try dsimp only); refine foldl_mem _ (fun s a => ?_) _ _; (try dsimp only); (repeat' split) <;> (first | (simp; done) | (simp_all; done)))
@[simp] theorem State.smStream_mem (s : State) (m v : Nat) : (State.smStream s m v).mem = s.mem := by
  first
  | (simp [State.smStream]; done)
  | (unfold State.smStream; (repeat' split) <;> (first | (simp; done) | (simp_all; done)))
  | (simp only [State.smStream]; (repeat' split) <;> (first | (simp; done) | (simp_all; done)))
  | (unfold State.smStream; (try dsimp only); refine foldl_mem _ (fun s a => ?_) _ _; (try dsimp only); (repeat' split) <;> (first | (simp; done) | (simp_all; done)))
@[simp] theorem State.syncApply_mem (s : State) : (State.syncApply s).mem = s.mem := by
  first
  | (simp [State.syncApply]; done)
  | (unfold State.syncApply; (repeat' split) <;> (first | (simp; done) | (simp_all; done)))
  | (simp only [State.syncApply]; (repeat' split) <;> (first | (simp; done) | (simp_all; done)))
  | (unfold State.syncApply; (try dsimp only); refine foldl_mem _ (fun s a => ?_) _ _; (try dsimp only); (repeat' split) <;> (first | (simp; done) | (simp_all; done)))
@[simp] theorem State.syncCommand_mem (s : State) (v : Nat) : (State.syncCommand s v).mem = s.mem := by
  first
  | (simp [State.syncCommand]; done)
  | (unfold State.syncCommand; (repeat' split) <;> (first | (simp; done) | (simp_all; done)))
  | (simp only [State.syncCommand]; (repeat' split) <;> (first | (simp; done) | (simp_all; done)))
  | (unfold State.syncCommand; (try dsimp only); refine foldl_mem _ (fun s a => ?_) _ _; (try dsimp only); (repeat' split) <;> (first | (simp; done) | (simp_all; done)))
@[simp] theorem State.pioTrigger_mem (s : State) (d t : Nat) : (State.pioTrigger s d t).mem = s.mem := by
  first
  | (simp [State.pioTrigger]; done)
  | (unfold State.pioTrigger; (repeat' split) <;> (first | (simp; done) | (simp_all; done)))
  | (simp only [State.pioTrigger]; (repeat' split) <;> (first | (simp; done) | (simp_all; done)))
  | (unfold State.pioTrigger; (try dsimp only); refine foldl_mem _ (fun s a => ?_) _ _; (try dsimp only); (repeat' split) <;> (first | (simp; done) | (simp_all; done)))
@[simp] theorem State.dmaStart_mem (s : State) (k v : Nat) : (State.dmaStart s k v).mem = s.mem := by
  first
  | (simp [State.dmaStart]; done)
  | (unfold State.dmaStart; (repeat' split) <;> (first | (simp; done) | (simp_all; done)))
  | (simp only [State.dmaStart]; (repeat' split) <;> (first | (simp; done) | (simp_all; done)))
  | (unfold State.dmaStart; (try dsimp only); refine foldl_mem _ (fun s a => ?_) _ _; (try dsimp only); (repeat' split) <;> (first | (simp; done) | (simp_all; done)))
@[simp] theorem State.dmaStop_mem (s : State) (k : Nat) : (State.dmaStop s k).mem = s.mem := by
  first
  | (simp [State.dmaStop]; done)
  | (unfold State.dmaStop; (repeat' split) <;> (first | (simp; done) | (simp_all; done)))
  | (simp only [State.dmaStop]; (repeat' split) <;> (first | (simp; done) | (simp_all; done)))
  | (unfold State.dmaStop; (try dsimp only); refine foldl_mem _ (fun s a => ?_) _ _; (try dsimp only); (repeat' split) <;> (first | (simp; done) | (simp_all; done)))
@[simp] theorem State.dmaControl_mem (s : State) (k v : Nat) : (State.dmaControl s k v).mem = s.mem := by
  first
  | (simp [State.dmaControl]; done)
  | (unfold State.dmaControl; (repeat' split) <;> (first | (simp; done) | (simp_all; done)))
  | (simp only [State.dmaControl]; (repeat' split) <;> (first | (simp; done) | (simp_all; done)))
  | (unfold State.dmaControl; (try dsimp only); refine foldl_mem _ (fun s a => ?_) _ _; (try dsimp only); (repeat' split) <;> (first | (simp; done) | (simp_all; done)))
@[simp] theorem State.dmaMoved_mem (s : State) (k : Nat) : (State.dmaMoved s k).mem = s.mem := by
  first
  | (simp [State.dmaMoved]; done)
  | (unfold State.dmaMoved; (repeat' split) <;> (first | (simp; done) | (simp_all; done)))
  | (simp only [State.dmaMoved]; (repeat' split) <;> (first | (simp; done) | (simp_all; done)))
  | (unfold State.dmaMoved; (try dsimp only); refine foldl_mem _ (fun s a => ?_) _ _; (try dsimp only); (repeat' split) <;> (first | (simp; done) | (simp_all; done)))
theorem State.effPio_mem (s : State) (i j v : Nat) {t1} (h : State.effPio s i j v = some t1) : t1.mem = s.mem := by
  simp only [State.effPio] at h
  repeat' split at h
  all_goals first | (simp only [Option.some.injEq, reduceCtorEq] at h; done) | (simp only [Option.some.injEq] at h; subst h)
  all_goals first | (simp; done) | (simp_all; done)
@[simp] theorem State.setTrkS_mem (s : State) (t j v : Nat) : (State.setTrkS s t j v).mem = s.mem := by
  first
  | (simp [State.setTrkS]; done)
  | (unfold State.setTrkS; (repeat' split) <;> (first | (simp; done) | (simp_all; done)))
  | (simp only [State.setTrkS]; (repeat' split) <;> (first | (simp; done) | (simp_all; done)))
  | (unfold State.setTrkS; (try dsimp only); refine foldl_mem _ (fun s a => ?_) _ _; (try dsimp only); (repeat' split) <;> (first | (simp; done) | (simp_all; done)))
@[simp] theorem State.trkCnt_mem (s : State) (t j : Nat) : (State.trkCnt s t j).mem = s.mem := by
  first
  | (simp [State.trkCnt]; done)
  | (unfold State.trkCnt; (repeat' split) <;> (first | (simp; done) | (simp_all; done)))
  | (simp only [State.trkCnt]; (repeat' split) <;> (first | (simp; done) | (simp_all; done)))
  | (unfold State.trkCnt; (try dsimp only); refine foldl_mem _ (fun s a => ?_) _ _; (try dsimp only); (repeat' split) <;> (first | (simp; done) | (simp_all; done)))
@[simp] theorem State.trkAnchor_mem (s : State) (t : Nat) : (State.trkAnchor s t).mem = s.mem := by
  first
  | (simp [State.trkAnchor]; done)
  | (unfold State.trkAnchor; (repeat' split) <;> (first | (simp; done) | (simp_all; done)))
  | (simp only [State.trkAnchor]; (repeat' split) <;> (first | (simp; done) | (simp_all; done)))
  | (unfold State.trkAnchor; (try dsimp only); refine foldl_mem _ (fun s a => ?_) _ _; (try dsimp only); (repeat' split) <;> (first | (simp; done) | (simp_all; done)))
@[simp] theorem State.trkNext_mem (s : State) (t : Nat) : (State.trkNext s t).mem = s.mem := by
  first
  | (simp [State.trkNext]; done)
  | (unfold State.trkNext; (repeat' split) <;> (first | (simp; done) | (simp_all; done)))
  | (simp only [State.trkNext]; (repeat' split) <;> (first | (simp; done) | (simp_all; done)))
  | (unfold State.trkNext; (try dsimp only); refine foldl_mem _ (fun s a => ?_) _ _; (try dsimp only); (repeat' split) <;> (first | (simp; done) | (simp_all; done)))
@[simp] theorem State.trkStop_mem (s : State) (t st : Nat) : (State.trkStop s t st).mem = s.mem := by
  first
  | (simp [State.trkStop]; done)
  | (unfold State.trkStop; (repeat' split) <;> (first | (simp; done) | (simp_all; done)))
  | (simp only [State.trkStop]; (repeat' split) <;> (first | (simp; done) | (simp_all; done)))
  | (unfold State.trkStop; (try dsimp only); refine foldl_mem _ (fun s a => ?_) _ _; (try dsimp only); (repeat' split) <;> (first | (simp; done) | (simp_all; done)))
@[simp] theorem State.trkEnable_mem (s : State) (t v : Nat) : (State.trkEnable s t v).mem = s.mem := by
  first
  | (simp [State.trkEnable]; done)
  | (unfold State.trkEnable; (repeat' split) <;> (first | (simp; done) | (simp_all; done)))
  | (simp only [State.trkEnable]; (repeat' split) <;> (first | (simp; done) | (simp_all; done)))
  | (unfold State.trkEnable; (try dsimp only); refine foldl_mem _ (fun s a => ?_) _ _; (try dsimp only); (repeat' split) <;> (first | (simp; done) | (simp_all; done)))
@[simp] theorem State.trkAbort_mem (s : State) (t : Nat) : (State.trkAbort s t).mem = s.mem := by
  first
  | (simp [State.trkAbort]; done)
  | (unfold State.trkAbort; (repeat' split) <;> (first | (simp; done) | (simp_all; done)))
  | (simp only [State.trkAbort]; (repeat' split) <;> (first | (simp; done) | (simp_all; done)))
  | (unfold State.trkAbort; (try dsimp only); refine foldl_mem _ (fun s a => ?_) _ _; (try dsimp only); (repeat' split) <;> (first | (simp; done) | (simp_all; done)))
@[simp] theorem State.trkAdvance_mem (s : State) (t : Nat) : (State.trkAdvance s t).mem = s.mem := by
  first
  | (simp [State.trkAdvance]; done)
  | (unfold State.trkAdvance; (repeat' split) <;> (first | (simp; done) | (simp_all; done)))
  | (simp only [State.trkAdvance]; (repeat' split) <;> (first | (simp; done) | (simp_all; done)))
  | (unfold State.trkAdvance; (try dsimp only); refine foldl_mem _ (fun s a => ?_) _ _; (try dsimp only); (repeat' split) <;> (first | (simp; done) | (simp_all; done)))
@[simp] theorem State.trkEnd_mem (s : State) (t : Nat) : (State.trkEnd s t).mem = s.mem := by
  first
  | (simp [State.trkEnd]; done)
  | (unfold State.trkEnd; (repeat' split) <;> (first | (simp; done) | (simp_all; done)))
  | (simp only [State.trkEnd]; (repeat' split) <;> (first | (simp; done) | (simp_all; done)))
  | (unfold State.trkEnd; (try dsimp only); refine foldl_mem _ (fun s a => ?_) _ _; (try dsimp only); (repeat' split) <;> (first | (simp; done) | (simp_all; done)))
@[simp] theorem State.trkFinish_mem (s : State) (t : Nat) : (State.trkFinish s t).mem = s.mem := by
  first
  | (simp [State.trkFinish]; done)
  | (unfold State.trkFinish; (repeat' split) <;> (first | (simp; done) | (simp_all; done)))
  | (simp only [State.trkFinish]; (repeat' split) <;> (first | (simp; done) | (simp_all; done)))
  | (unfold State.trkFinish; (try dsimp only); refine foldl_mem _ (fun s a => ?_) _ _; (try dsimp only); (repeat' split) <;> (first | (simp; done) | (simp_all; done)))
@[simp] theorem State.trkSwap_mem (s : State) (t : Nat) : (State.trkSwap s t).mem = s.mem := by
  first
  | (simp [State.trkSwap]; done)
  | (unfold State.trkSwap; (repeat' split) <;> (first | (simp; done) | (simp_all; done)))
  | (simp only [State.trkSwap]; (repeat' split) <;> (first | (simp; done) | (simp_all; done)))
  | (unfold State.trkSwap; (try dsimp only); refine foldl_mem _ (fun s a => ?_) _ _; (try dsimp only); (repeat' split) <;> (first | (simp; done) | (simp_all; done)))
@[simp] theorem State.trkBegin_mem (s : State) (t : Nat) : (State.trkBegin s t).mem = s.mem := by
  first
  | (simp [State.trkBegin]; done)
  | (unfold State.trkBegin; (repeat' split) <;> (first | (simp; done) | (simp_all; done)))
  | (simp only [State.trkBegin]; (repeat' split) <;> (first | (simp; done) | (simp_all; done)))
  | (unfold State.trkBegin; (try dsimp only); refine foldl_mem _ (fun s a => ?_) _ _; (try dsimp only); (repeat' split) <;> (first | (simp; done) | (simp_all; done)))
@[simp] theorem State.trkWrite_mem (s : State) (t : Nat) (d : List Byte) (late : Bool) : (State.trkWrite s t d late).mem = s.mem := by
  first
  | (simp [State.trkWrite]; done)
  | (unfold State.trkWrite; (repeat' split) <;> (first | (simp; done) | (simp_all; done)))
  | (simp only [State.trkWrite]; (repeat' split) <;> (first | (simp; done) | (simp_all; done)))
  | (unfold State.trkWrite; (try dsimp only); refine foldl_mem _ (fun s a => ?_) _ _; (try dsimp only); (repeat' split) <;> (first | (simp; done) | (simp_all; done)))
@[simp] theorem State.holdRequest_mem (s : State) (v : Nat) : (State.holdRequest s v).mem = s.mem := by
  first
  | (simp [State.holdRequest]; done)
  | (unfold State.holdRequest; (repeat' split) <;> (first | (simp; done) | (simp_all; done)))
  | (simp only [State.holdRequest]; (repeat' split) <;> (first | (simp; done) | (simp_all; done)))
  | (unfold State.holdRequest; (try dsimp only); refine foldl_mem _ (fun s a => ?_) _ _; (try dsimp only); (repeat' split) <;> (first | (simp; done) | (simp_all; done)))
@[simp] theorem State.trkLate_mem (s : State) (t : Nat) (dbe : Bool) : (State.trkLate s t dbe).mem = s.mem := by
  first
  | (simp [State.trkLate]; done)
  | (unfold State.trkLate; (repeat' split) <;> (first | (simp; done) | (simp_all; done)))
  | (simp only [State.trkLate]; (repeat' split) <;> (first | (simp; done) | (simp_all; done)))
  | (unfold State.trkLate; (try dsimp only); refine foldl_mem _ (fun s a => ?_) _ _; (try dsimp only); (repeat' split) <;> (first | (simp; done) | (simp_all; done)))
@[simp] theorem State.mixWords_mem (s : State) (old new : List Byte) (x0 : Nat) : (State.mixWords s old new x0).2.mem = s.mem := by
  induction x0 generalizing s old new <;> first | (simp_all [State.mixWords]; done) | (unfold State.mixWords; (repeat' split) <;> simp_all)
@[simp] theorem State.swapArm_mem (s : State) (tied : Bool) : (State.swapArm s tied).mem = s.mem := by
  first
  | (simp [State.swapArm]; done)
  | (unfold State.swapArm; (repeat' split) <;> (first | (simp; done) | (simp_all; done)))
  | (simp only [State.swapArm]; (repeat' split) <;> (first | (simp; done) | (simp_all; done)))
  | (unfold State.swapArm; (try dsimp only); refine foldl_mem _ (fun s a => ?_) _ _; (try dsimp only); (repeat' split) <;> (first | (simp; done) | (simp_all; done)))
@[simp] theorem State.swapStop_mem (s : State) : (State.swapStop s).mem = s.mem := by
  first
  | (simp [State.swapStop]; done)
  | (unfold State.swapStop; (repeat' split) <;> (first | (simp; done) | (simp_all; done)))
  | (simp only [State.swapStop]; (repeat' split) <;> (first | (simp; done) | (simp_all; done)))
  | (unfold State.swapStop; (try dsimp only); refine foldl_mem _ (fun s a => ?_) _ _; (try dsimp only); (repeat' split) <;> (first | (simp; done) | (simp_all; done)))
@[simp] theorem State.swapCommand_mem (s : State) (v : Nat) : (State.swapCommand s v).mem = s.mem := by
  first
  | (simp [State.swapCommand]; done)
  | (unfold State.swapCommand; (repeat' split) <;> (first | (simp; done) | (simp_all; done)))
  | (simp only [State.swapCommand]; (repeat' split) <;> (first | (simp; done) | (simp_all; done)))
  | (unfold State.swapCommand; (try dsimp only); refine foldl_mem _ (fun s a => ?_) _ _; (try dsimp only); (repeat' split) <;> (first | (simp; done) | (simp_all; done)))
theorem State.effLocus_mem (s : State) (i j v : Nat) {t1} (h : State.effLocus s i j v = some t1) : t1.mem = s.mem := by
  simp only [State.effLocus] at h
  repeat' split at h
  all_goals first | (simp only [Option.some.injEq, reduceCtorEq] at h; done) | (simp only [Option.some.injEq] at h; subst h)
  all_goals first | (simp; done) | (simp_all; done)
@[simp] theorem State.setCan_mem (s : State) (c : Nat) (x : Can) : (State.setCan s c x).mem = s.mem := by
  first
  | (simp [State.setCan]; done)
  | (unfold State.setCan; (repeat' split) <;> (first | (simp; done) | (simp_all; done)))
  | (simp only [State.setCan]; (repeat' split) <;> (first | (simp; done) | (simp_all; done)))
  | (unfold State.setCan; (try dsimp only); refine foldl_mem _ (fun s a => ?_) _ _; (try dsimp only); (repeat' split) <;> (first | (simp; done) | (simp_all; done)))
@[simp] theorem State.canEvent_mem (s : State) (c b : Nat) : (State.canEvent s c b).mem = s.mem := by
  first
  | (simp [State.canEvent]; done)
  | (unfold State.canEvent; (repeat' split) <;> (first | (simp; done) | (simp_all; done)))
  | (simp only [State.canEvent]; (repeat' split) <;> (first | (simp; done) | (simp_all; done)))
  | (unfold State.canEvent; (try dsimp only); refine foldl_mem _ (fun s a => ?_) _ _; (try dsimp only); (repeat' split) <;> (first | (simp; done) | (simp_all; done)))
@[simp] theorem State.canCnt_mem (s : State) (c j : Nat) : (State.canCnt s c j).mem = s.mem := by
  first
  | (simp [State.canCnt]; done)
  | (unfold State.canCnt; (repeat' split) <;> (first | (simp; done) | (simp_all; done)))
  | (simp only [State.canCnt]; (repeat' split) <;> (first | (simp; done) | (simp_all; done)))
  | (unfold State.canCnt; (try dsimp only); refine foldl_mem _ (fun s a => ?_) _ _; (try dsimp only); (repeat' split) <;> (first | (simp; done) | (simp_all; done)))
@[simp] theorem State.setBuf_mem (s : State) (c b lsb w v : Nat) : (State.setBuf s c b lsb w v).mem = s.mem := by
  first
  | (simp [State.setBuf]; done)
  | (unfold State.setBuf; (repeat' split) <;> (first | (simp; done) | (simp_all; done)))
  | (simp only [State.setBuf]; (repeat' split) <;> (first | (simp; done) | (simp_all; done)))
  | (unfold State.setBuf; (try dsimp only); refine foldl_mem _ (fun s a => ?_) _ _; (try dsimp only); (repeat' split) <;> (first | (simp; done) | (simp_all; done)))
@[simp] theorem State.setBufState_mem (s : State) (c b v : Nat) : (State.setBufState s c b v).mem = s.mem := by
  first
  | (simp [State.setBufState]; done)
  | (unfold State.setBufState; (repeat' split) <;> (first | (simp; done) | (simp_all; done)))
  | (simp only [State.setBufState]; (repeat' split) <;> (first | (simp; done) | (simp_all; done)))
  | (unfold State.setBufState; (try dsimp only); refine foldl_mem _ (fun s a => ?_) _ _; (try dsimp only); (repeat' split) <;> (first | (simp; done) | (simp_all; done)))
@[simp] theorem State.canStamp_mem (s : State) (c ago phase : Nat) : (State.canStamp s c ago phase).2.mem = s.mem := by
  first
  | (simp [State.canStamp]; done)
  | (unfold State.canStamp; (repeat' split) <;> (first | (simp; done) | (simp_all; done)))
  | (simp only [State.canStamp]; (repeat' split) <;> (first | (simp; done) | (simp_all; done)))
  | (unfold State.canStamp; (try dsimp only); refine foldl_mem _ (fun s a => ?_) _ _; (try dsimp only); (repeat' split) <;> (first | (simp; done) | (simp_all; done)))
@[simp] theorem State.canAccept_mem (s : State) (c : Nat) (f : CanFrame) : (State.canAccept s c f).2.mem = s.mem := by
  first
  | (simp [State.canAccept]; done)
  | (unfold State.canAccept; (repeat' split) <;> (first | (simp; done) | (simp_all; done)))
  | (simp only [State.canAccept]; (repeat' split) <;> (first | (simp; done) | (simp_all; done)))
  | (unfold State.canAccept; (try dsimp only); refine foldl_mem _ (fun s a => ?_) _ _; (try dsimp only); (repeat' split) <;> (first | (simp; done) | (simp_all; done)))
@[simp] theorem State.canLose_mem (s : State) (c b : Nat) : (State.canLose s c b).mem = s.mem := by
  first
  | (simp [State.canLose]; done)
  | (unfold State.canLose; (repeat' split) <;> (first | (simp; done) | (simp_all; done)))
  | (simp only [State.canLose]; (repeat' split) <;> (first | (simp; done) | (simp_all; done)))
  | (unfold State.canLose; (try dsimp only); refine foldl_mem _ (fun s a => ?_) _ _; (try dsimp only); (repeat' split) <;> (first | (simp; done) | (simp_all; done)))
@[simp] theorem State.canStatus_mem (s : State) (c lsb w v : Nat) : (State.canStatus s c lsb w v).mem = s.mem := by
  first
  | (simp [State.canStatus]; done)
  | (unfold State.canStatus; (repeat' split) <;> (first | (simp; done) | (simp_all; done)))
  | (simp only [State.canStatus]; (repeat' split) <;> (first | (simp; done) | (simp_all; done)))
  | (unfold State.canStatus; (try dsimp only); refine foldl_mem _ (fun s a => ?_) _ _; (try dsimp only); (repeat' split) <;> (first | (simp; done) | (simp_all; done)))
@[simp] theorem State.canCounters_mem (s : State) (c tec rec : Nat) : (State.canCounters s c tec rec).mem = s.mem := by
  first
  | (simp [State.canCounters]; done)
  | (unfold State.canCounters; (repeat' split) <;> (first | (simp; done) | (simp_all; done)))
  | (simp only [State.canCounters]; (repeat' split) <;> (first | (simp; done) | (simp_all; done)))
  | (unfold State.canCounters; (try dsimp only); refine foldl_mem _ (fun s a => ?_) _ _; (try dsimp only); (repeat' split) <;> (first | (simp; done) | (simp_all; done)))
@[simp] theorem State.recUp_mem (s : State) (c k : Nat) : (State.recUp s c k).2.mem = s.mem := by
  first
  | (simp [State.recUp]; done)
  | (unfold State.recUp; (repeat' split) <;> (first | (simp; done) | (simp_all; done)))
  | (simp only [State.recUp]; (repeat' split) <;> (first | (simp; done) | (simp_all; done)))
  | (unfold State.recUp; (try dsimp only); refine foldl_mem _ (fun s a => ?_) _ _; (try dsimp only); (repeat' split) <;> (first | (simp; done) | (simp_all; done)))
@[simp] theorem State.recDown_mem (s : State) (c : Nat) : (State.recDown s c).2.mem = s.mem := by
  first
  | (simp [State.recDown]; done)
  | (unfold State.recDown; (repeat' split) <;> (first | (simp; done) | (simp_all; done)))
  | (simp only [State.recDown]; (repeat' split) <;> (first | (simp; done) | (simp_all; done)))
  | (unfold State.recDown; (try dsimp only); refine foldl_mem _ (fun s a => ?_) _ _; (try dsimp only); (repeat' split) <;> (first | (simp; done) | (simp_all; done)))
@[simp] theorem State.canErr_mem (s : State) (c lec : Nat) (data : Bool) : (State.canErr s c lec data).mem = s.mem := by
  first
  | (simp [State.canErr]; done)
  | (unfold State.canErr; (repeat' split) <;> (first | (simp; done) | (simp_all; done)))
  | (simp only [State.canErr]; (repeat' split) <;> (first | (simp; done) | (simp_all; done)))
  | (unfold State.canErr; (try dsimp only); refine foldl_mem _ (fun s a => ?_) _ _; (try dsimp only); (repeat' split) <;> (first | (simp; done) | (simp_all; done)))
@[simp] theorem State.canEnter_mem (s : State) (c m : Nat) : (State.canEnter s c m).mem = s.mem := by
  first
  | (simp [State.canEnter]; done)
  | (unfold State.canEnter; (repeat' split) <;> (first | (simp; done) | (simp_all; done)))
  | (simp only [State.canEnter]; (repeat' split) <;> (first | (simp; done) | (simp_all; done)))
  | (unfold State.canEnter; (try dsimp only); refine foldl_mem _ (fun s a => ?_) _ _; (try dsimp only); (repeat' split) <;> (first | (simp; done) | (simp_all; done)))
@[simp] theorem State.canMode_mem (s : State) (c m : Nat) : (State.canMode s c m).mem = s.mem := by
  first
  | (simp [State.canMode]; done)
  | (unfold State.canMode; (repeat' split) <;> (first | (simp; done) | (simp_all; done)))
  | (simp only [State.canMode]; (repeat' split) <;> (first | (simp; done) | (simp_all; done)))
  | (unfold State.canMode; (try dsimp only); refine foldl_mem _ (fun s a => ?_) _ _; (try dsimp only); (repeat' split) <;> (first | (simp; done) | (simp_all; done)))
@[simp] theorem State.canIdle_mem (s : State) (c : Nat) : (State.canIdle s c).mem = s.mem := by
  first
  | (simp [State.canIdle]; done)
  | (unfold State.canIdle; (repeat' split) <;> (first | (simp; done) | (simp_all; done)))
  | (simp only [State.canIdle]; (repeat' split) <;> (first | (simp; done) | (simp_all; done)))
  | (unfold State.canIdle; (try dsimp only); refine foldl_mem _ (fun s a => ?_) _ _; (try dsimp only); (repeat' split) <;> (first | (simp; done) | (simp_all; done)))
@[simp] theorem State.canHeard_mem (s : State) (c : Nat) : (State.canHeard s c).mem = s.mem := by
  first
  | (simp [State.canHeard]; done)
  | (unfold State.canHeard; (repeat' split) <;> (first | (simp; done) | (simp_all; done)))
  | (simp only [State.canHeard]; (repeat' split) <;> (first | (simp; done) | (simp_all; done)))
  | (unfold State.canHeard; (try dsimp only); refine foldl_mem _ (fun s a => ?_) _ _; (try dsimp only); (repeat' split) <;> (first | (simp; done) | (simp_all; done)))
@[simp] theorem State.canRetry_mem (s : State) (c b : Nat) : (State.canRetry s c b).mem = s.mem := by
  first
  | (simp [State.canRetry]; done)
  | (unfold State.canRetry; (repeat' split) <;> (first | (simp; done) | (simp_all; done)))
  | (simp only [State.canRetry]; (repeat' split) <;> (first | (simp; done) | (simp_all; done)))
  | (unfold State.canRetry; (try dsimp only); refine foldl_mem _ (fun s a => ?_) _ _; (try dsimp only); (repeat' split) <;> (first | (simp; done) | (simp_all; done)))
@[simp] theorem State.canLost_mem (s : State) (c : Nat) : (State.canLost s c).mem = s.mem := by
  first
  | (simp [State.canLost]; done)
  | (unfold State.canLost; (repeat' split) <;> (first | (simp; done) | (simp_all; done)))
  | (simp only [State.canLost]; (repeat' split) <;> (first | (simp; done) | (simp_all; done)))
  | (unfold State.canLost; (try dsimp only); refine foldl_mem _ (fun s a => ?_) _ _; (try dsimp only); (repeat' split) <;> (first | (simp; done) | (simp_all; done)))
@[simp] theorem State.canAttempt_mem (s : State) (c phase : Nat) : (State.canAttempt s c phase).mem = s.mem := by
  first
  | (simp [State.canAttempt]; done)
  | (unfold State.canAttempt; (repeat' split) <;> (first | (simp; done) | (simp_all; done)))
  | (simp only [State.canAttempt]; (repeat' split) <;> (first | (simp; done) | (simp_all; done)))
  | (unfold State.canAttempt; (try dsimp only); refine foldl_mem _ (fun s a => ?_) _ _; (try dsimp only); (repeat' split) <;> (first | (simp; done) | (simp_all; done)))
@[simp] theorem State.canDelay_mem (s : State) (c : Nat) (f : CanFrame) (delay : Nat) : (State.canDelay s c f delay).mem = s.mem := by
  first
  | (simp [State.canDelay]; done)
  | (unfold State.canDelay; (repeat' split) <;> (first | (simp; done) | (simp_all; done)))
  | (simp only [State.canDelay]; (repeat' split) <;> (first | (simp; done) | (simp_all; done)))
  | (unfold State.canDelay; (try dsimp only); refine foldl_mem _ (fun s a => ?_) _ _; (try dsimp only); (repeat' split) <;> (first | (simp; done) | (simp_all; done)))
@[simp] theorem State.canUnacked_mem (s : State) (c b : Nat) : (State.canUnacked s c b).mem = s.mem := by
  first
  | (simp [State.canUnacked]; done)
  | (unfold State.canUnacked; (repeat' split) <;> (first | (simp; done) | (simp_all; done)))
  | (simp only [State.canUnacked]; (repeat' split) <;> (first | (simp; done) | (simp_all; done)))
  | (unfold State.canUnacked; (try dsimp only); refine foldl_mem _ (fun s a => ?_) _ _; (try dsimp only); (repeat' split) <;> (first | (simp; done) | (simp_all; done)))
@[simp] theorem State.canAbort_mem (s : State) (c b : Nat) : (State.canAbort s c b).mem = s.mem := by
  first
  | (simp [State.canAbort]; done)
  | (unfold State.canAbort; (repeat' split) <;> (first | (simp; done) | (simp_all; done)))
  | (simp only [State.canAbort]; (repeat' split) <;> (first | (simp; done) | (simp_all; done)))
  | (unfold State.canAbort; (try dsimp only); refine foldl_mem _ (fun s a => ?_) _ _; (try dsimp only); (repeat' split) <;> (first | (simp; done) | (simp_all; done)))
@[simp] theorem State.canLock_mem (s : State) (c b : Nat) : (State.canLock s c b).mem = s.mem := by
  first
  | (simp [State.canLock]; done)
  | (unfold State.canLock; (repeat' split) <;> (first | (simp; done) | (simp_all; done)))
  | (simp only [State.canLock]; (repeat' split) <;> (first | (simp; done) | (simp_all; done)))
  | (unfold State.canLock; (try dsimp only); refine foldl_mem _ (fun s a => ?_) _ _; (try dsimp only); (repeat' split) <;> (first | (simp; done) | (simp_all; done)))
@[simp] theorem State.canUnlock_mem (s : State) (c b : Nat) : (State.canUnlock s c b).mem = s.mem := by
  first
  | (simp [State.canUnlock]; done)
  | (unfold State.canUnlock; (repeat' split) <;> (first | (simp; done) | (simp_all; done)))
  | (simp only [State.canUnlock]; (repeat' split) <;> (first | (simp; done) | (simp_all; done)))
  | (unfold State.canUnlock; (try dsimp only); refine foldl_mem _ (fun s a => ?_) _ _; (try dsimp only); (repeat' split) <;> (first | (simp; done) | (simp_all; done)))
@[simp] theorem State.canEach_mem (s : State) (v : Nat) (f : State → Nat → State) (hf : ∀ s a0, (f s a0).mem = s.mem) : (State.canEach s v f).mem = s.mem := by
  first
  | (simp [State.canEach, hf]; done)
  | (unfold State.canEach; (repeat' split) <;> (first | (simp [State.canEach, hf]; done) | (simp_all; done)))
  | (simp only [State.canEach]; (repeat' split) <;> (first | (simp [State.canEach, hf]; done) | (simp_all; done)))
  | (unfold State.canEach; (try dsimp only); refine foldl_mem _ (fun s a => ?_) _ _; (try dsimp only); (repeat' split) <;> (first | (simp; done) | (simp_all; done)))
@[simp] theorem State.canReset_mem (s : State) (c : Nat) : (State.canReset s c).mem = s.mem := by
  first
  | (simp [State.canReset]; done)
  | (unfold State.canReset; (repeat' split) <;> (first | (simp; done) | (simp_all; done)))
  | (simp only [State.canReset]; (repeat' split) <;> (first | (simp; done) | (simp_all; done)))
  | (unfold State.canReset; (try dsimp only); refine foldl_mem _ (fun s a => ?_) _ _; (try dsimp only); (repeat' split) <;> (first | (simp; done) | (simp_all; done)))
@[simp] theorem State.engEvent_mem (s : State) (e b : Nat) : (State.engEvent s e b).mem = s.mem := by
  first
  | (simp [State.engEvent]; done)
  | (unfold State.engEvent; (repeat' split) <;> (first | (simp; done) | (simp_all; done)))
  | (simp only [State.engEvent]; (repeat' split) <;> (first | (simp; done) | (simp_all; done)))
  | (unfold State.engEvent; (try dsimp only); refine foldl_mem _ (fun s a => ?_) _ _; (try dsimp only); (repeat' split) <;> (first | (simp; done) | (simp_all; done)))
@[simp] theorem State.setCoreState_mem (s : State) (c v : Nat) : (State.setCoreState s c v).mem = s.mem := by
  first
  | (simp [State.setCoreState]; done)
  | (unfold State.setCoreState; (repeat' split) <;> (first | (simp; done) | (simp_all; done)))
  | (simp only [State.setCoreState]; (repeat' split) <;> (first | (simp; done) | (simp_all; done)))
  | (unfold State.setCoreState; (try dsimp only); refine foldl_mem _ (fun s a => ?_) _ _; (try dsimp only); (repeat' split) <;> (first | (simp; done) | (simp_all; done)))
@[simp] theorem State.setPc_mem (s : State) (c v : Nat) : (State.setPc s c v).mem = s.mem := by
  first
  | (simp [State.setPc]; done)
  | (unfold State.setPc; (repeat' split) <;> (first | (simp; done) | (simp_all; done)))
  | (simp only [State.setPc]; (repeat' split) <;> (first | (simp; done) | (simp_all; done)))
  | (unfold State.setPc; (try dsimp only); refine foldl_mem _ (fun s a => ?_) _ _; (try dsimp only); (repeat' split) <;> (first | (simp; done) | (simp_all; done)))
@[simp] theorem State.haltPending_mem (s : State) (e why : Nat) : (State.haltPending s e why).mem = s.mem := by
  first
  | (simp [State.haltPending]; done)
  | (unfold State.haltPending; (repeat' split) <;> (first | (simp; done) | (simp_all; done)))
  | (simp only [State.haltPending]; (repeat' split) <;> (first | (simp; done) | (simp_all; done)))
  | (unfold State.haltPending; (try dsimp only); refine foldl_mem _ (fun s a => ?_) _ _; (try dsimp only); (repeat' split) <;> (first | (simp; done) | (simp_all; done)))
@[simp] theorem State.doRun_mem (s : State) (e : Nat) : (State.doRun s e).mem = s.mem := by
  first
  | (simp [State.doRun]; done)
  | (unfold State.doRun; (repeat' split) <;> (first | (simp; done) | (simp_all; done)))
  | (simp only [State.doRun]; (repeat' split) <;> (first | (simp; done) | (simp_all; done)))
  | (unfold State.doRun; (try dsimp only); refine foldl_mem _ (fun s a => ?_) _ _; (try dsimp only); (repeat' split) <;> (first | (simp; done) | (simp_all; done)))
@[simp] theorem State.doHalt_mem (s : State) (e : Nat) : (State.doHalt s e).mem = s.mem := by
  first
  | (simp [State.doHalt]; done)
  | (unfold State.doHalt; (repeat' split) <;> (first | (simp; done) | (simp_all; done)))
  | (simp only [State.doHalt]; (repeat' split) <;> (first | (simp; done) | (simp_all; done)))
  | (unfold State.doHalt; (try dsimp only); refine foldl_mem _ (fun s a => ?_) _ _; (try dsimp only); (repeat' split) <;> (first | (simp; done) | (simp_all; done)))
@[simp] theorem State.doStep_mem (s : State) (e : Nat) : (State.doStep s e).mem = s.mem := by
  first
  | (simp [State.doStep]; done)
  | (unfold State.doStep; (repeat' split) <;> (first | (simp; done) | (simp_all; done)))
  | (simp only [State.doStep]; (repeat' split) <;> (first | (simp; done) | (simp_all; done)))
  | (unfold State.doStep; (try dsimp only); refine foldl_mem _ (fun s a => ?_) _ _; (try dsimp only); (repeat' split) <;> (first | (simp; done) | (simp_all; done)))
@[simp] theorem State.doLoad_mem (s : State) (e : Nat) : (State.doLoad s e).mem = s.mem := by
  first
  | (simp [State.doLoad]; done)
  | (unfold State.doLoad; (repeat' split) <;> (first | (simp; done) | (simp_all; done)))
  | (simp only [State.doLoad]; (repeat' split) <;> (first | (simp; done) | (simp_all; done)))
  | (unfold State.doLoad; (try dsimp only); refine foldl_mem _ (fun s a => ?_) _ _; (try dsimp only); (repeat' split) <;> (first | (simp; done) | (simp_all; done)))
@[simp] theorem State.engCommand_mem (s : State) (e v : Nat) : (State.engCommand s e v).mem = s.mem := by
  first
  | (simp [State.engCommand]; done)
  | (unfold State.engCommand; (repeat' split) <;> (first | (simp; done) | (simp_all; done)))
  | (simp only [State.engCommand]; (repeat' split) <;> (first | (simp; done) | (simp_all; done)))
  | (unfold State.engCommand; (try dsimp only); refine foldl_mem _ (fun s a => ?_) _ _; (try dsimp only); (repeat' split) <;> (first | (simp; done) | (simp_all; done)))
@[simp] theorem State.halted_mem (s : State) (e : Nat) : (State.halted s e).mem = s.mem := by
  first
  | (simp [State.halted]; done)
  | (unfold State.halted; (repeat' split) <;> (first | (simp; done) | (simp_all; done)))
  | (simp only [State.halted]; (repeat' split) <;> (first | (simp; done) | (simp_all; done)))
  | (unfold State.halted; (try dsimp only); refine foldl_mem _ (fun s a => ?_) _ _; (try dsimp only); (repeat' split) <;> (first | (simp; done) | (simp_all; done)))
@[simp] theorem State.showLibrary_mem (s : State) : (State.showLibrary s).mem = s.mem := by
  first
  | (simp [State.showLibrary]; done)
  | (unfold State.showLibrary; (repeat' split) <;> (first | (simp; done) | (simp_all; done)))
  | (simp only [State.showLibrary]; (repeat' split) <;> (first | (simp; done) | (simp_all; done)))
  | (unfold State.showLibrary; (try dsimp only); refine foldl_mem _ (fun s a => ?_) _ _; (try dsimp only); (repeat' split) <;> (first | (simp; done) | (simp_all; done)))
@[simp] theorem State.libraryStart_mem (s : State) (install : Bool) (master : Nat) : (State.libraryStart s install master).mem = s.mem := by
  first
  | (simp [State.libraryStart]; done)
  | (unfold State.libraryStart; (repeat' split) <;> (first | (simp; done) | (simp_all; done)))
  | (simp only [State.libraryStart]; (repeat' split) <;> (first | (simp; done) | (simp_all; done)))
  | (unfold State.libraryStart; (try dsimp only); refine foldl_mem _ (fun s a => ?_) _ _; (try dsimp only); (repeat' split) <;> (first | (simp; done) | (simp_all; done)))
@[simp] theorem State.removeDone_mem (s : State) (master : Nat) : (State.removeDone s master).mem = s.mem := by
  first
  | (simp [State.removeDone]; done)
  | (unfold State.removeDone; (repeat' split) <;> (first | (simp; done) | (simp_all; done)))
  | (simp only [State.removeDone]; (repeat' split) <;> (first | (simp; done) | (simp_all; done)))
  | (unfold State.removeDone; (try dsimp only); refine foldl_mem _ (fun s a => ?_) _ _; (try dsimp only); (repeat' split) <;> (first | (simp; done) | (simp_all; done)))
@[simp] theorem State.loadFailed_mem (s : State) (e st : Nat) : (State.loadFailed s e st).mem = s.mem := by
  first
  | (simp [State.loadFailed]; done)
  | (unfold State.loadFailed; (repeat' split) <;> (first | (simp; done) | (simp_all; done)))
  | (simp only [State.loadFailed]; (repeat' split) <;> (first | (simp; done) | (simp_all; done)))
  | (unfold State.loadFailed; (try dsimp only); refine foldl_mem _ (fun s a => ?_) _ _; (try dsimp only); (repeat' split) <;> (first | (simp; done) | (simp_all; done)))
@[simp] theorem State.dbeRestart_mem (s : State) (f : Nat) : (State.dbeRestart s f).mem = s.mem := by
  first
  | (simp [State.dbeRestart]; done)
  | (unfold State.dbeRestart; (repeat' split) <;> (first | (simp; done) | (simp_all; done)))
  | (simp only [State.dbeRestart]; (repeat' split) <;> (first | (simp; done) | (simp_all; done)))
  | (unfold State.dbeRestart; (try dsimp only); refine foldl_mem _ (fun s a => ?_) _ _; (try dsimp only); (repeat' split) <;> (first | (simp; done) | (simp_all; done)))
@[simp] theorem State.holdRelease_mem (s : State) (odds : Nat) : (State.holdRelease s odds).mem = s.mem := by
  first
  | (simp [State.holdRelease]; done)
  | (unfold State.holdRelease; (repeat' split) <;> (first | (simp; done) | (simp_all; done)))
  | (simp only [State.holdRelease]; (repeat' split) <;> (first | (simp; done) | (simp_all; done)))
  | (unfold State.holdRelease; (try dsimp only); refine foldl_mem _ (fun s a => ?_) _ _; (try dsimp only); (repeat' split) <;> (first | (simp; done) | (simp_all; done)))
@[simp] theorem State.holdAck_mem (s : State) (v : Nat) : (State.holdAck s v).mem = s.mem := by
  first
  | (simp [State.holdAck]; done)
  | (unfold State.holdAck; (repeat' split) <;> (first | (simp; done) | (simp_all; done)))
  | (simp only [State.holdAck]; (repeat' split) <;> (first | (simp; done) | (simp_all; done)))
  | (unfold State.holdAck; (try dsimp only); refine foldl_mem _ (fun s a => ?_) _ _; (try dsimp only); (repeat' split) <;> (first | (simp; done) | (simp_all; done)))
@[simp] theorem State.dropVolatile_mem (s : State) (lo hi : Nat) : (State.dropVolatile s lo hi).mem = s.mem := by
  first
  | (simp [State.dropVolatile]; done)
  | (unfold State.dropVolatile; (repeat' split) <;> (first | (simp; done) | (simp_all; done)))
  | (simp only [State.dropVolatile]; (repeat' split) <;> (first | (simp; done) | (simp_all; done)))
  | (unfold State.dropVolatile; (try dsimp only); refine foldl_mem _ (fun s a => ?_) _ _; (try dsimp only); (repeat' split) <;> (first | (simp; done) | (simp_all; done)))
@[simp] theorem State.portReset_mem (s : State) (p : Nat) : (State.portReset s p).mem = s.mem := by
  first
  | (simp [State.portReset]; done)
  | (unfold State.portReset; (repeat' split) <;> (first | (simp; done) | (simp_all; done)))
  | (simp only [State.portReset]; (repeat' split) <;> (first | (simp; done) | (simp_all; done)))
  | (unfold State.portReset; (try dsimp only); refine foldl_mem _ (fun s a => ?_) _ _; (try dsimp only); (repeat' split) <;> (first | (simp; done) | (simp_all; done)))
@[simp] theorem State.ringReset_mem (s : State) (n : Nat) : (State.ringReset s n).mem = s.mem := by
  first
  | (simp [State.ringReset]; done)
  | (unfold State.ringReset; (repeat' split) <;> (first | (simp; done) | (simp_all; done)))
  | (simp only [State.ringReset]; (repeat' split) <;> (first | (simp; done) | (simp_all; done)))
  | (unfold State.ringReset; (try dsimp only); refine foldl_mem _ (fun s a => ?_) _ _; (try dsimp only); (repeat' split) <;> (first | (simp; done) | (simp_all; done)))
@[simp] theorem State.pioReset_mem (s : State) (b : Nat) : (State.pioReset s b).mem = s.mem := by
  first
  | (simp [State.pioReset]; done)
  | (unfold State.pioReset; (repeat' split) <;> (first | (simp; done) | (simp_all; done)))
  | (simp only [State.pioReset]; (repeat' split) <;> (first | (simp; done) | (simp_all; done)))
  | (unfold State.pioReset; (try dsimp only); refine foldl_mem _ (fun s a => ?_) _ _; (try dsimp only); (repeat' split) <;> (first | (simp; done) | (simp_all; done)))
@[simp] theorem State.locusReset_mem (s : State) : (State.locusReset s).mem = s.mem := by
  first
  | (simp [State.locusReset]; done)
  | (unfold State.locusReset; (repeat' split) <;> (first | (simp; done) | (simp_all; done)))
  | (simp only [State.locusReset]; (repeat' split) <;> (first | (simp; done) | (simp_all; done)))
  | (unfold State.locusReset; (try dsimp only); refine foldl_mem _ (fun s a => ?_) _ _; (try dsimp only); (repeat' split) <;> (first | (simp; done) | (simp_all; done)))
@[simp] theorem State.switchReset_mem (s : State) : (State.switchReset s).mem = s.mem := by
  first
  | (simp [State.switchReset]; done)
  | (unfold State.switchReset; (repeat' split) <;> (first | (simp; done) | (simp_all; done)))
  | (simp only [State.switchReset]; (repeat' split) <;> (first | (simp; done) | (simp_all; done)))
  | (unfold State.switchReset; (try dsimp only); refine foldl_mem _ (fun s a => ?_) _ _; (try dsimp only); (repeat' split) <;> (first | (simp; done) | (simp_all; done)))
@[simp] theorem State.domainReset_mem (s : State) (d : Nat) : (State.domainReset s d).mem = s.mem := by
  first
  | (simp [State.domainReset]; done)
  | (unfold State.domainReset; (repeat' split) <;> (first | (simp; done) | (simp_all; done)))
  | (simp only [State.domainReset]; (repeat' split) <;> (first | (simp; done) | (simp_all; done)))
  | (unfold State.domainReset; (try dsimp only); refine foldl_mem _ (fun s a => ?_) _ _; (try dsimp only); (repeat' split) <;> (first | (simp; done) | (simp_all; done)))
@[simp] theorem State.blockReleased_mem (s : State) (sub b : Nat) : (State.blockReleased s sub b).mem = s.mem := by
  first
  | (simp [State.blockReleased]; done)
  | (unfold State.blockReleased; (repeat' split) <;> (first | (simp; done) | (simp_all; done)))
  | (simp only [State.blockReleased]; (repeat' split) <;> (first | (simp; done) | (simp_all; done)))
  | (unfold State.blockReleased; (try dsimp only); refine foldl_mem _ (fun s a => ?_) _ _; (try dsimp only); (repeat' split) <;> (first | (simp; done) | (simp_all; done)))
@[simp] theorem State.beginStart_mem (s : State) : (State.beginStart s).mem = s.mem := by
  first
  | (simp [State.beginStart]; done)
  | (unfold State.beginStart; (repeat' split) <;> (first | (simp; done) | (simp_all; done)))
  | (simp only [State.beginStart]; (repeat' split) <;> (first | (simp; done) | (simp_all; done)))
  | (unfold State.beginStart; (try dsimp only); refine foldl_mem _ (fun s a => ?_) _ _; (try dsimp only); (repeat' split) <;> (first | (simp; done) | (simp_all; done)))
@[simp] theorem State.tryStart_mem (s : State) : (State.tryStart s).mem = s.mem := by
  first
  | (simp [State.tryStart]; done)
  | (unfold State.tryStart; (repeat' split) <;> (first | (simp; done) | (simp_all; done)))
  | (simp only [State.tryStart]; (repeat' split) <;> (first | (simp; done) | (simp_all; done)))
  | (unfold State.tryStart; (try dsimp only); refine foldl_mem _ (fun s a => ?_) _ _; (try dsimp only); (repeat' split) <;> (first | (simp; done) | (simp_all; done)))
@[simp] theorem State.rimLost_mem (s : State) : (State.rimLost s).mem = s.mem := by
  first
  | (simp [State.rimLost]; done)
  | (unfold State.rimLost; (repeat' split) <;> (first | (simp; done) | (simp_all; done)))
  | (simp only [State.rimLost]; (repeat' split) <;> (first | (simp; done) | (simp_all; done)))
  | (unfold State.rimLost; (try dsimp only); refine foldl_mem _ (fun s a => ?_) _ _; (try dsimp only); (repeat' split) <;> (first | (simp; done) | (simp_all; done)))
@[simp] theorem State.sleepRefused_mem (s : State) : (State.sleepRefused s).mem = s.mem := by
  first
  | (simp [State.sleepRefused]; done)
  | (unfold State.sleepRefused; (repeat' split) <;> (first | (simp; done) | (simp_all; done)))
  | (simp only [State.sleepRefused]; (repeat' split) <;> (first | (simp; done) | (simp_all; done)))
  | (unfold State.sleepRefused; (try dsimp only); refine foldl_mem _ (fun s a => ?_) _ _; (try dsimp only); (repeat' split) <;> (first | (simp; done) | (simp_all; done)))
@[simp] theorem State.quietDown_mem (s : State) : (State.quietDown s).mem = s.mem := by
  first
  | (simp [State.quietDown]; done)
  | (unfold State.quietDown; (repeat' split) <;> (first | (simp; done) | (simp_all; done)))
  | (simp only [State.quietDown]; (repeat' split) <;> (first | (simp; done) | (simp_all; done)))
  | (unfold State.quietDown; (try dsimp only); refine foldl_mem _ (fun s a => ?_) _ _; (try dsimp only); (repeat' split) <;> (first | (simp; done) | (simp_all; done)))
@[simp] theorem State.bankDoze_mem (s : State) (b : Nat) : (State.bankDoze s b).mem = s.mem := by
  first
  | (simp [State.bankDoze]; done)
  | (unfold State.bankDoze; (repeat' split) <;> (first | (simp; done) | (simp_all; done)))
  | (simp only [State.bankDoze]; (repeat' split) <;> (first | (simp; done) | (simp_all; done)))
  | (unfold State.bankDoze; (try dsimp only); refine foldl_mem _ (fun s a => ?_) _ _; (try dsimp only); (repeat' split) <;> (first | (simp; done) | (simp_all; done)))
@[simp] theorem State.dozeEnter_mem (s : State) : (State.dozeEnter s).mem = s.mem := by
  first
  | (simp [State.dozeEnter]; done)
  | (unfold State.dozeEnter; (repeat' split) <;> (first | (simp; done) | (simp_all; done)))
  | (simp only [State.dozeEnter]; (repeat' split) <;> (first | (simp; done) | (simp_all; done)))
  | (unfold State.dozeEnter; (try dsimp only); refine foldl_mem _ (fun s a => ?_) _ _; (try dsimp only); (repeat' split) <;> (first | (simp; done) | (simp_all; done)))
@[simp] theorem State.standbyEnter_mem (s : State) : (State.standbyEnter s).mem = s.mem := by
  first
  | (simp [State.standbyEnter]; done)
  | (unfold State.standbyEnter; (repeat' split) <;> (first | (simp; done) | (simp_all; done)))
  | (simp only [State.standbyEnter]; (repeat' split) <;> (first | (simp; done) | (simp_all; done)))
  | (unfold State.standbyEnter; (try dsimp only); refine foldl_mem _ (fun s a => ?_) _ _; (try dsimp only); (repeat' split) <;> (first | (simp; done) | (simp_all; done)))
@[simp] theorem State.sleepRequest_mem (s : State) (v : Nat) : (State.sleepRequest s v).mem = s.mem := by
  first
  | (simp [State.sleepRequest]; done)
  | (unfold State.sleepRequest; (repeat' split) <;> (first | (simp; done) | (simp_all; done)))
  | (simp only [State.sleepRequest]; (repeat' split) <;> (first | (simp; done) | (simp_all; done)))
  | (unfold State.sleepRequest; (try dsimp only); refine foldl_mem _ (fun s a => ?_) _ _; (try dsimp only); (repeat' split) <;> (first | (simp; done) | (simp_all; done)))
@[simp] theorem State.dozeReached_mem (s : State) : (State.dozeReached s).mem = s.mem := by
  first
  | (simp [State.dozeReached]; done)
  | (unfold State.dozeReached; (repeat' split) <;> (first | (simp; done) | (simp_all; done)))
  | (simp only [State.dozeReached]; (repeat' split) <;> (first | (simp; done) | (simp_all; done)))
  | (unfold State.dozeReached; (try dsimp only); refine foldl_mem _ (fun s a => ?_) _ _; (try dsimp only); (repeat' split) <;> (first | (simp; done) | (simp_all; done)))
@[simp] theorem State.wokenUnits_mem (s : State) : (State.wokenUnits s).mem = s.mem := by
  first
  | (simp [State.wokenUnits]; done)
  | (unfold State.wokenUnits; (repeat' split) <;> (first | (simp; done) | (simp_all; done)))
  | (simp only [State.wokenUnits]; (repeat' split) <;> (first | (simp; done) | (simp_all; done)))
  | (unfold State.wokenUnits; (try dsimp only); refine foldl_mem _ (fun s a => ?_) _ _; (try dsimp only); (repeat' split) <;> (first | (simp; done) | (simp_all; done)))
@[simp] theorem State.dozeWoken_mem (s : State) : (State.dozeWoken s).mem = s.mem := by
  first
  | (simp [State.dozeWoken]; done)
  | (unfold State.dozeWoken; (repeat' split) <;> (first | (simp; done) | (simp_all; done)))
  | (simp only [State.dozeWoken]; (repeat' split) <;> (first | (simp; done) | (simp_all; done)))
  | (unfold State.dozeWoken; (try dsimp only); refine foldl_mem _ (fun s a => ?_) _ _; (try dsimp only); (repeat' split) <;> (first | (simp; done) | (simp_all; done)))
@[simp] theorem State.wakeCheck_mem (s : State) (verified : Bool) (found : Nat) : (State.wakeCheck s verified found).mem = s.mem := by
  first
  | (simp [State.wakeCheck]; done)
  | (unfold State.wakeCheck; (repeat' split) <;> (first | (simp; done) | (simp_all; done)))
  | (simp only [State.wakeCheck]; (repeat' split) <;> (first | (simp; done) | (simp_all; done)))
  | (unfold State.wakeCheck; (try dsimp only); refine foldl_mem _ (fun s a => ?_) _ _; (try dsimp only); (repeat' split) <;> (first | (simp; done) | (simp_all; done)))
@[simp] theorem State.setSession_mem (s : State) (c : Nat) (x : Session) : (State.setSession s c x).mem = s.mem := by
  first
  | (simp [State.setSession]; done)
  | (unfold State.setSession; (repeat' split) <;> (first | (simp; done) | (simp_all; done)))
  | (simp only [State.setSession]; (repeat' split) <;> (first | (simp; done) | (simp_all; done)))
  | (unfold State.setSession; (try dsimp only); refine foldl_mem _ (fun s a => ?_) _ _; (try dsimp only); (repeat' split) <;> (first | (simp; done) | (simp_all; done)))
@[simp] theorem State.sessionClose_mem (s : State) (c reason : Nat) : (State.sessionClose s c reason).mem = s.mem := by
  first
  | (simp [State.sessionClose]; done)
  | (unfold State.sessionClose; (repeat' split) <;> (first | (simp; done) | (simp_all; done)))
  | (simp only [State.sessionClose]; (repeat' split) <;> (first | (simp; done) | (simp_all; done)))
  | (unfold State.sessionClose; (try dsimp only); refine foldl_mem _ (fun s a => ?_) _ _; (try dsimp only); (repeat' split) <;> (first | (simp; done) | (simp_all; done)))
@[simp] theorem State.sessionsEnd_mem (s : State) (path : Nat) : (State.sessionsEnd s path).mem = s.mem := by
  first
  | (simp [State.sessionsEnd]; done)
  | (unfold State.sessionsEnd; (repeat' split) <;> (first | (simp; done) | (simp_all; done)))
  | (simp only [State.sessionsEnd]; (repeat' split) <;> (first | (simp; done) | (simp_all; done)))
  | (unfold State.sessionsEnd; (try dsimp only); refine foldl_mem _ (fun s a => ?_) _ _; (try dsimp only); (repeat' split) <;> (first | (simp; done) | (simp_all; done)))
@[simp] theorem State.setDmaCh_mem (s : State) (k : Nat) (x : DmaCh) : (State.setDmaCh s k x).mem = s.mem := by
  first
  | (simp [State.setDmaCh]; done)
  | (unfold State.setDmaCh; (repeat' split) <;> (first | (simp; done) | (simp_all; done)))
  | (simp only [State.setDmaCh]; (repeat' split) <;> (first | (simp; done) | (simp_all; done)))
  | (unfold State.setDmaCh; (try dsimp only); refine foldl_mem _ (fun s a => ?_) _ _; (try dsimp only); (repeat' split) <;> (first | (simp; done) | (simp_all; done)))
@[simp] theorem State.pcieDown_mem (s : State) : (State.pcieDown s).mem = s.mem := by
  first
  | (simp [State.pcieDown]; done)
  | (unfold State.pcieDown; (repeat' split) <;> (first | (simp; done) | (simp_all; done)))
  | (simp only [State.pcieDown]; (repeat' split) <;> (first | (simp; done) | (simp_all; done)))
  | (unfold State.pcieDown; (try dsimp only); refine foldl_mem _ (fun s a => ?_) _ _; (try dsimp only); (repeat' split) <;> (first | (simp; done) | (simp_all; done)))
@[simp] theorem State.refuse_mem (s : State) (n cause : Nat) : (State.refuse s n cause).mem = s.mem := by
  first
  | (simp [State.refuse]; done)
  | (unfold State.refuse; (repeat' split) <;> (first | (simp; done) | (simp_all; done)))
  | (simp only [State.refuse]; (repeat' split) <;> (first | (simp; done) | (simp_all; done)))
  | (unfold State.refuse; (try dsimp only); refine foldl_mem _ (fun s a => ?_) _ _; (try dsimp only); (repeat' split) <;> (first | (simp; done) | (simp_all; done)))
@[simp] theorem State.instPorts_mem (s : State) (n : Nat) : (s.instPorts n).mem = s.mem := by
  unfold State.instPorts
  split
  · rfl
  · refine foldl_mem _ (fun s p => ?_) _ _
    split
    · cases h : s.effPort (0x2300 + p) 0x14 _ with
      | none => rfl
      | some t => exact State.effPort_mem _ _ _ _ h
    · rfl
@[simp] theorem State.instBind_mem (s : State) (n : Nat) (b : Nat × Nat × Nat) : (State.instBind s n b).mem = s.mem := by
  first
  | (simp [State.instBind]; done)
  | (unfold State.instBind; (repeat' split) <;> (first | (simp; done) | (simp_all; done)))
  | (simp only [State.instBind]; (repeat' split) <;> (first | (simp; done) | (simp_all; done)))
  | (unfold State.instBind; (try dsimp only); refine foldl_mem _ (fun s a => ?_) _ _; (try dsimp only); (repeat' split) <;> (first | (simp; done) | (simp_all; done)))
@[simp] theorem State.instEnd_mem (s : State) (n : Nat) : (State.instEnd s n).mem = s.mem := by
  first
  | (simp [State.instEnd]; done)
  | (unfold State.instEnd; (repeat' split) <;> (first | (simp; done) | (simp_all; done)))
  | (simp only [State.instEnd]; (repeat' split) <;> (first | (simp; done) | (simp_all; done)))
  | (unfold State.instEnd; (try dsimp only); refine foldl_mem _ (fun s a => ?_) _ _; (try dsimp only); (repeat' split) <;> (first | (simp; done) | (simp_all; done)))
@[simp] theorem State.instStop_mem (s : State) (n : Nat) : (State.instStop s n).mem = s.mem := by
  first
  | (simp [State.instStop]; done)
  | (unfold State.instStop; (repeat' split) <;> (first | (simp; done) | (simp_all; done)))
  | (simp only [State.instStop]; (repeat' split) <;> (first | (simp; done) | (simp_all; done)))
  | (unfold State.instStop; (try dsimp only); refine foldl_mem _ (fun s a => ?_) _ _; (try dsimp only); (repeat' split) <;> (first | (simp; done) | (simp_all; done)))
@[simp] theorem State.statusClear_mem (s : State) (i j v again : Nat) : (State.statusClear s i j v again).mem = s.mem := by
  first
  | (simp [State.statusClear]; done)
  | (unfold State.statusClear; (repeat' split) <;> (first | (simp; done) | (simp_all; done)))
  | (simp only [State.statusClear]; (repeat' split) <;> (first | (simp; done) | (simp_all; done)))
  | (unfold State.statusClear; (try dsimp only); refine foldl_mem _ (fun s a => ?_) _ _; (try dsimp only); (repeat' split) <;> (first | (simp; done) | (simp_all; done)))
theorem State.effMbox_mem (s : State) (i j v : Nat) {t1} (h : State.effMbox s i j v = some t1) : t1.mem = s.mem := by
  simp only [State.effMbox] at h
  repeat' split at h
  all_goals first | (simp only [Option.some.injEq, reduceCtorEq] at h; done) | (simp only [Option.some.injEq] at h; subst h)
  all_goals first | (simp; done) | (simp_all; done)
theorem State.effEngine_mem (s : State) (p : Path) (i j v : Nat) {t1} (h : State.effEngine s p i j v = some t1) : t1.mem = s.mem := by
  simp only [State.effEngine] at h
  repeat' split at h
  all_goals first | (simp only [Option.some.injEq, reduceCtorEq] at h; done) | (simp only [Option.some.injEq] at h; subst h)
  all_goals first | (simp; done) | (simp_all; done)
theorem State.effLinks_mem (s : State) (i j v : Nat) {t1} (h : State.effLinks s i j v = some t1) : t1.mem = s.mem := by
  simp only [State.effLinks] at h
  repeat' split at h
  all_goals first | (simp only [Option.some.injEq, reduceCtorEq] at h; done) | (simp only [Option.some.injEq] at h; subst h)
  all_goals first | (simp; done) | (simp_all; done)
@[simp] theorem State.odStore_mem (s : State) (i j v : Nat) : (State.odStore s i j v).mem = s.mem := by
  first
  | (simp [State.odStore]; done)
  | (unfold State.odStore; (repeat' split) <;> (first | (simp; done) | (simp_all; done)))
  | (simp only [State.odStore]; (repeat' split) <;> (first | (simp; done) | (simp_all; done)))
  | (unfold State.odStore; (try dsimp only); refine foldl_mem _ (fun s a => ?_) _ _; (try dsimp only); (repeat' split) <;> (first | (simp; done) | (simp_all; done)))
theorem State.odReadEffect_mem (s : State) (p : Path) (i j : Nat) {t1} (h : State.odReadEffect s p i j = some t1) : t1.2.mem = s.mem := by
  simp only [State.odReadEffect] at h
  repeat' split at h
  all_goals first | (simp only [Option.some.injEq, reduceCtorEq] at h; done) | (simp only [Option.some.injEq] at h; subst h)
  all_goals first | (simp; done) | (simp_all; done)
@[simp] theorem State.setPath_mem (s : State) (p : Path) (x : PathSt) : (State.setPath s p x).mem = s.mem := by
  first
  | (simp [State.setPath]; done)
  | (unfold State.setPath; (repeat' split) <;> (first | (simp; done) | (simp_all; done)))
  | (simp only [State.setPath]; (repeat' split) <;> (first | (simp; done) | (simp_all; done)))
  | (unfold State.setPath; (try dsimp only); refine foldl_mem _ (fun s a => ?_) _ _; (try dsimp only); (repeat' split) <;> (first | (simp; done) | (simp_all; done)))
@[simp] theorem State.writeLow_mem (s : State) (p : Path) (i j v : Nat) : (State.writeLow s p i j v).mem = s.mem := by
  first
  | (simp [State.writeLow]; done)
  | (unfold State.writeLow; (repeat' split) <;> (first | (simp; done) | (simp_all; done)))
  | (simp only [State.writeLow]; (repeat' split) <;> (first | (simp; done) | (simp_all; done)))
  | (unfold State.writeLow; (try dsimp only); refine foldl_mem _ (fun s a => ?_) _ _; (try dsimp only); (repeat' split) <;> (first | (simp; done) | (simp_all; done)))
@[simp] theorem State.showSet_mem (s : State) : (State.showSet s).mem = s.mem := by
  first
  | (simp [State.showSet]; done)
  | (unfold State.showSet; (repeat' split) <;> (first | (simp; done) | (simp_all; done)))
  | (simp only [State.showSet]; (repeat' split) <;> (first | (simp; done) | (simp_all; done)))
  | (unfold State.showSet; (try dsimp only); refine foldl_mem _ (fun s a => ?_) _ _; (try dsimp only); (repeat' split) <;> (first | (simp; done) | (simp_all; done)))
@[simp] theorem State.hostLoad_mem (s : State) : (State.hostLoad s).mem = s.mem := by
  first
  | (simp [State.hostLoad]; done)
  | (unfold State.hostLoad; (repeat' split) <;> (first | (simp; done) | (simp_all; done)))
  | (simp only [State.hostLoad]; (repeat' split) <;> (first | (simp; done) | (simp_all; done)))
  | (unfold State.hostLoad; (try dsimp only); refine foldl_mem _ (fun s a => ?_) _ _; (try dsimp only); (repeat' split) <;> (first | (simp; done) | (simp_all; done)))
@[simp] theorem State.fuseLoad_mem (s : State) (ok : Bool) : (State.fuseLoad s ok).mem = s.mem := by
  first
  | (simp [State.fuseLoad]; done)
  | (unfold State.fuseLoad; (repeat' split) <;> (first | (simp; done) | (simp_all; done)))
  | (simp only [State.fuseLoad]; (repeat' split) <;> (first | (simp; done) | (simp_all; done)))
  | (unfold State.fuseLoad; (try dsimp only); refine foldl_mem _ (fun s a => ?_) _ _; (try dsimp only); (repeat' split) <;> (first | (simp; done) | (simp_all; done)))
@[simp] theorem State.strapStep_mem (s : State) (mode : Nat) : (State.strapStep s mode).mem = s.mem := by
  first
  | (simp [State.strapStep]; done)
  | (unfold State.strapStep; (repeat' split) <;> (first | (simp; done) | (simp_all; done)))
  | (simp only [State.strapStep]; (repeat' split) <;> (first | (simp; done) | (simp_all; done)))
  | (unfold State.strapStep; (try dsimp only); refine foldl_mem _ (fun s a => ?_) _ _; (try dsimp only); (repeat' split) <;> (first | (simp; done) | (simp_all; done)))
@[simp] theorem State.optionStep_mem (s : State) : (State.optionStep s).mem = s.mem := by
  first
  | (simp [State.optionStep]; done)
  | (unfold State.optionStep; (repeat' split) <;> (first | (simp; done) | (simp_all; done)))
  | (simp only [State.optionStep]; (repeat' split) <;> (first | (simp; done) | (simp_all; done)))
  | (unfold State.optionStep; (try dsimp only); refine foldl_mem _ (fun s a => ?_) _ _; (try dsimp only); (repeat' split) <;> (first | (simp; done) | (simp_all; done)))
@[simp] theorem State.pllStep_mem (s : State) : (State.pllStep s).mem = s.mem := by
  first
  | (simp [State.pllStep]; done)
  | (unfold State.pllStep; (repeat' split) <;> (first | (simp; done) | (simp_all; done)))
  | (simp only [State.pllStep]; (repeat' split) <;> (first | (simp; done) | (simp_all; done)))
  | (unfold State.pllStep; (try dsimp only); refine foldl_mem _ (fun s a => ?_) _ _; (try dsimp only); (repeat' split) <;> (first | (simp; done) | (simp_all; done)))
@[simp] theorem State.stompTx_mem (s : State) (e : Nat) : (State.stompTx s e).mem = s.mem := by
  first
  | (simp [State.stompTx]; done)
  | (unfold State.stompTx; (repeat' split) <;> (first | (simp; done) | (simp_all; done)))
  | (simp only [State.stompTx]; (repeat' split) <;> (first | (simp; done) | (simp_all; done)))
  | (unfold State.stompTx; (try dsimp only); refine foldl_mem _ (fun s a => ?_) _ _; (try dsimp only); (repeat' split) <;> (first | (simp; done) | (simp_all; done)))
@[simp] theorem State.exception_mem (s : State) (c code pc : Nat) : (State.exception s c code pc).mem = s.mem := by
  first
  | (simp [State.exception]; done)
  | (unfold State.exception; (repeat' split) <;> (first | (simp; done) | (simp_all; done)))
  | (simp only [State.exception]; (repeat' split) <;> (first | (simp; done) | (simp_all; done)))
  | (unfold State.exception; (try dsimp only); refine foldl_mem _ (fun s a => ?_) _ _; (try dsimp only); (repeat' split) <;> (first | (simp; done) | (simp_all; done)))
@[simp] theorem State.finish_mem (s : State) (c pc : Nat) : (State.finish s c pc).mem = s.mem := by
  first
  | (simp [State.finish]; done)
  | (unfold State.finish; (repeat' split) <;> (first | (simp; done) | (simp_all; done)))
  | (simp only [State.finish]; (repeat' split) <;> (first | (simp; done) | (simp_all; done)))
  | (unfold State.finish; (try dsimp only); refine foldl_mem _ (fun s a => ?_) _ _; (try dsimp only); (repeat' split) <;> (first | (simp; done) | (simp_all; done)))
@[simp] theorem State.finishWith_mem (s : State) (c : Nat) (g : Engine) : (State.finishWith s c g).mem = s.mem := by
  first
  | (simp [State.finishWith]; done)
  | (unfold State.finishWith; (repeat' split) <;> (first | (simp; done) | (simp_all; done)))
  | (simp only [State.finishWith]; (repeat' split) <;> (first | (simp; done) | (simp_all; done)))
  | (unfold State.finishWith; (try dsimp only); refine foldl_mem _ (fun s a => ?_) _ _; (try dsimp only); (repeat' split) <;> (first | (simp; done) | (simp_all; done)))
@[simp] theorem State.await_mem (s : State) (c : Nat) (w : WaitFor) : (State.await s c w).mem = s.mem := by
  first
  | (simp [State.await]; done)
  | (unfold State.await; (repeat' split) <;> (first | (simp; done) | (simp_all; done)))
  | (simp only [State.await]; (repeat' split) <;> (first | (simp; done) | (simp_all; done)))
  | (unfold State.await; (try dsimp only); refine foldl_mem _ (fun s a => ?_) _ _; (try dsimp only); (repeat' split) <;> (first | (simp; done) | (simp_all; done)))
@[simp] theorem State.jump_mem (s : State) (c : Nat) (t : Int) : (State.jump s c t).mem = s.mem := by
  first
  | (simp [State.jump]; done)
  | (unfold State.jump; (repeat' split) <;> (first | (simp; done) | (simp_all; done)))
  | (simp only [State.jump]; (repeat' split) <;> (first | (simp; done) | (simp_all; done)))
  | (unfold State.jump; (try dsimp only); refine foldl_mem _ (fun s a => ?_) _ _; (try dsimp only); (repeat' split) <;> (first | (simp; done) | (simp_all; done)))
@[simp] theorem State.postStore_mem (s : State) (c : Fin 33) (p : Posted) : (State.postStore s c p).mem = s.mem := by
  first
  | (simp [State.postStore]; done)
  | (unfold State.postStore; (repeat' split) <;> (first | (simp; done) | (simp_all; done)))
  | (simp only [State.postStore]; (repeat' split) <;> (first | (simp; done) | (simp_all; done)))
  | (unfold State.postStore; (try dsimp only); refine foldl_mem _ (fun s a => ?_) _ _; (try dsimp only); (repeat' split) <;> (first | (simp; done) | (simp_all; done)))
@[simp] theorem State.raiseEither_mem (s : State) (c : Nat) (a b : Bool) (ca cb : Nat) (f : State → State) (hf : ∀ s, (f s).mem = s.mem) : (s.raiseEither c a b ca cb f).mem = s.mem := by
  unfold State.raiseEither
  split
  · simp
  · exact hf s
@[simp] theorem State.loadDbe_mem (s : State) (c : Nat) (a : Nat) : (State.loadDbe s c a).mem = s.mem := by
  first
  | (simp [State.loadDbe]; done)
  | (unfold State.loadDbe; (repeat' split) <;> (first | (simp; done) | (simp_all; done)))
  | (simp only [State.loadDbe]; (repeat' split) <;> (first | (simp; done) | (simp_all; done)))
  | (unfold State.loadDbe; (try dsimp only); refine foldl_mem _ (fun s a => ?_) _ _; (try dsimp only); (repeat' split) <;> (first | (simp; done) | (simp_all; done)))
@[simp] theorem State.doStf_mem (s : State) (c : Fin 33) (w : Word) : (State.doStf s c w).mem = s.mem := by
  first
  | (simp [State.doStf]; done)
  | (unfold State.doStf; (repeat' split) <;> (first | (simp; done) | (simp_all; done)))
  | (simp only [State.doStf]; (repeat' split) <;> (first | (simp; done) | (simp_all; done)))
  | (unfold State.doStf; (try dsimp only); refine foldl_mem _ (fun s a => ?_) _ _; (try dsimp only); (repeat' split) <;> (first | (simp; done) | (simp_all; done)))
@[simp] theorem State.doStx_mem (s : State) (c : Fin 33) (w : Word) : (State.doStx s c w).mem = s.mem := by
  first
  | (simp [State.doStx]; done)
  | (unfold State.doStx; (repeat' split) <;> (first | (simp; done) | (simp_all; done)))
  | (simp only [State.doStx]; (repeat' split) <;> (first | (simp; done) | (simp_all; done)))
  | (unfold State.doStx; (try dsimp only); refine foldl_mem _ (fun s a => ?_) _ _; (try dsimp only); (repeat' split) <;> (first | (simp; done) | (simp_all; done)))
@[simp] theorem State.doFence_mem (s : State) (c : Fin 33) : (State.doFence s c).mem = s.mem := by
  first
  | (simp [State.doFence]; done)
  | (unfold State.doFence; (repeat' split) <;> (first | (simp; done) | (simp_all; done)))
  | (simp only [State.doFence]; (repeat' split) <;> (first | (simp; done) | (simp_all; done)))
  | (unfold State.doFence; (try dsimp only); refine foldl_mem _ (fun s a => ?_) _ _; (try dsimp only); (repeat' split) <;> (first | (simp; done) | (simp_all; done)))
@[simp] theorem State.linked_mem (s : State) (c : Nat) : (State.linked s c).mem = s.mem := by
  first
  | (simp [State.linked]; done)
  | (unfold State.linked; (repeat' split) <;> (first | (simp; done) | (simp_all; done)))
  | (simp only [State.linked]; (repeat' split) <;> (first | (simp; done) | (simp_all; done)))
  | (unfold State.linked; (try dsimp only); refine foldl_mem _ (fun s a => ?_) _ _; (try dsimp only); (repeat' split) <;> (first | (simp; done) | (simp_all; done)))
@[simp] theorem State.doHaltInsn_mem (s : State) (c : Fin 33) : (State.doHaltInsn s c).mem = s.mem := by
  first
  | (simp [State.doHaltInsn]; done)
  | (unfold State.doHaltInsn; (repeat' split) <;> (first | (simp; done) | (simp_all; done)))
  | (simp only [State.doHaltInsn]; (repeat' split) <;> (first | (simp; done) | (simp_all; done)))
  | (unfold State.doHaltInsn; (try dsimp only); refine foldl_mem _ (fun s a => ?_) _ _; (try dsimp only); (repeat' split) <;> (first | (simp; done) | (simp_all; done)))
@[simp] theorem State.doTake_mem (s : State) (c : Nat) (w : Word) : (State.doTake s c w).mem = s.mem := by
  first
  | (simp [State.doTake]; done)
  | (unfold State.doTake; (repeat' split) <;> (first | (simp; done) | (simp_all; done)))
  | (simp only [State.doTake]; (repeat' split) <;> (first | (simp; done) | (simp_all; done)))
  | (unfold State.doTake; (try dsimp only); refine foldl_mem _ (fun s a => ?_) _ _; (try dsimp only); (repeat' split) <;> (first | (simp; done) | (simp_all; done)))
@[simp] theorem State.doPeek_mem (s : State) (c : Nat) (w : Word) : (State.doPeek s c w).mem = s.mem := by
  first
  | (simp [State.doPeek]; done)
  | (unfold State.doPeek; (repeat' split) <;> (first | (simp; done) | (simp_all; done)))
  | (simp only [State.doPeek]; (repeat' split) <;> (first | (simp; done) | (simp_all; done)))
  | (unfold State.doPeek; (try dsimp only); refine foldl_mem _ (fun s a => ?_) _ _; (try dsimp only); (repeat' split) <;> (first | (simp; done) | (simp_all; done)))
@[simp] theorem State.doMatch_mem (s : State) (c : Nat) (w : Word) : (State.doMatch s c w).mem = s.mem := by
  first
  | (simp [State.doMatch]; done)
  | (unfold State.doMatch; (repeat' split) <;> (first | (simp; done) | (simp_all; done)))
  | (simp only [State.doMatch]; (repeat' split) <;> (first | (simp; done) | (simp_all; done)))
  | (unfold State.doMatch; (try dsimp only); refine foldl_mem _ (fun s a => ?_) _ _; (try dsimp only); (repeat' split) <;> (first | (simp; done) | (simp_all; done)))
@[simp] theorem State.doMark_mem (s : State) (c : Nat) (w : Word) : (State.doMark s c w).mem = s.mem := by
  first
  | (simp [State.doMark]; done)
  | (unfold State.doMark; (repeat' split) <;> (first | (simp; done) | (simp_all; done)))
  | (simp only [State.doMark]; (repeat' split) <;> (first | (simp; done) | (simp_all; done)))
  | (unfold State.doMark; (try dsimp only); refine foldl_mem _ (fun s a => ?_) _ _; (try dsimp only); (repeat' split) <;> (first | (simp; done) | (simp_all; done)))
@[simp] theorem State.doGend_mem (s : State) (c : Nat) (w : Word) : (State.doGend s c w).mem = s.mem := by
  first
  | (simp [State.doGend]; done)
  | (unfold State.doGend; (repeat' split) <;> (first | (simp; done) | (simp_all; done)))
  | (simp only [State.doGend]; (repeat' split) <;> (first | (simp; done) | (simp_all; done)))
  | (unfold State.doGend; (try dsimp only); refine foldl_mem _ (fun s a => ?_) _ _; (try dsimp only); (repeat' split) <;> (first | (simp; done) | (simp_all; done)))
@[simp] theorem State.doTwait_mem (s : State) (c : Nat) (w : Word) : (State.doTwait s c w).mem = s.mem := by
  first
  | (simp [State.doTwait]; done)
  | (unfold State.doTwait; (repeat' split) <;> (first | (simp; done) | (simp_all; done)))
  | (simp only [State.doTwait]; (repeat' split) <;> (first | (simp; done) | (simp_all; done)))
  | (unfold State.doTwait; (try dsimp only); refine foldl_mem _ (fun s a => ?_) _ _; (try dsimp only); (repeat' split) <;> (first | (simp; done) | (simp_all; done)))
@[simp] theorem State.giveEvents_mem (s : State) (c : Nat) (w v : Word) : (State.giveEvents s c w v).mem = s.mem := by
  first
  | (simp [State.giveEvents]; done)
  | (unfold State.giveEvents; (repeat' split) <;> (first | (simp; done) | (simp_all; done)))
  | (simp only [State.giveEvents]; (repeat' split) <;> (first | (simp; done) | (simp_all; done)))
  | (unfold State.giveEvents; (try dsimp only); refine foldl_mem _ (fun s a => ?_) _ _; (try dsimp only); (repeat' split) <;> (first | (simp; done) | (simp_all; done)))
@[simp] theorem State.doLock_mem (s : State) (c : Fin 33) (w : Word) : (State.doLock s c w).mem = s.mem := by
  first
  | (simp [State.doLock]; done)
  | (unfold State.doLock; (repeat' split) <;> (first | (simp; done) | (simp_all; done)))
  | (simp only [State.doLock]; (repeat' split) <;> (first | (simp; done) | (simp_all; done)))
  | (unfold State.doLock; (try dsimp only); refine foldl_mem _ (fun s a => ?_) _ _; (try dsimp only); (repeat' split) <;> (first | (simp; done) | (simp_all; done)))
@[simp] theorem State.doUnlock_mem (s : State) (c : Fin 33) (w : Word) : (State.doUnlock s c w).mem = s.mem := by
  first
  | (simp [State.doUnlock]; done)
  | (unfold State.doUnlock; (repeat' split) <;> (first | (simp; done) | (simp_all; done)))
  | (simp only [State.doUnlock]; (repeat' split) <;> (first | (simp; done) | (simp_all; done)))
  | (unfold State.doUnlock; (try dsimp only); refine foldl_mem _ (fun s a => ?_) _ _; (try dsimp only); (repeat' split) <;> (first | (simp; done) | (simp_all; done)))
@[simp] theorem State.qspiBegin_mem (s : State) : (State.qspiBegin s).mem = s.mem := by
  first
  | (simp [State.qspiBegin]; done)
  | (unfold State.qspiBegin; (repeat' split) <;> (first | (simp; done) | (simp_all; done)))
  | (simp only [State.qspiBegin]; (repeat' split) <;> (first | (simp; done) | (simp_all; done)))
  | (unfold State.qspiBegin; (try dsimp only); refine foldl_mem _ (fun s a => ?_) _ _; (try dsimp only); (repeat' split) <;> (first | (simp; done) | (simp_all; done)))
@[simp] theorem State.qspiDrop_mem (s : State) : (State.qspiDrop s).mem = s.mem := by
  first
  | (simp [State.qspiDrop]; done)
  | (unfold State.qspiDrop; (repeat' split) <;> (first | (simp; done) | (simp_all; done)))
  | (simp only [State.qspiDrop]; (repeat' split) <;> (first | (simp; done) | (simp_all; done)))
  | (unfold State.qspiDrop; (try dsimp only); refine foldl_mem _ (fun s a => ?_) _ _; (try dsimp only); (repeat' split) <;> (first | (simp; done) | (simp_all; done)))
@[simp] theorem State.openBytes_mem (s : State) (n : Nat) : (State.openBytes s n).2.mem = s.mem := by
  first
  | (simp [State.openBytes]; done)
  | (unfold State.openBytes; (repeat' split) <;> (first | (simp; done) | (simp_all; done)))
  | (simp only [State.openBytes]; (repeat' split) <;> (first | (simp; done) | (simp_all; done)))
  | (unfold State.openBytes; (try dsimp only); refine foldl_mem _ (fun s a => ?_) _ _; (try dsimp only); (repeat' split) <;> (first | (simp; done) | (simp_all; done)))
@[simp] theorem State.sessionRefuse_mem (s : State) (c : Nat) : (State.sessionRefuse s c).mem = s.mem := by
  first
  | (simp [State.sessionRefuse]; done)
  | (unfold State.sessionRefuse; (repeat' split) <;> (first | (simp; done) | (simp_all; done)))
  | (simp only [State.sessionRefuse]; (repeat' split) <;> (first | (simp; done) | (simp_all; done)))
  | (unfold State.sessionRefuse; (try dsimp only); refine foldl_mem _ (fun s a => ?_) _ _; (try dsimp only); (repeat' split) <;> (first | (simp; done) | (simp_all; done)))
@[simp] theorem State.sessionOpen_mem (s : State) (c path origin : Nat) (m : SMsg) : (State.sessionOpen s c path origin m).2.2.2.mem = s.mem := by
  first
  | (simp [State.sessionOpen]; done)
  | (unfold State.sessionOpen; (repeat' split) <;> (first | (simp; done) | (simp_all; done)))
  | (simp only [State.sessionOpen]; (repeat' split) <;> (first | (simp; done) | (simp_all; done)))
  | (unfold State.sessionOpen; (try dsimp only); refine foldl_mem _ (fun s a => ?_) _ _; (try dsimp only); (repeat' split) <;> (first | (simp; done) | (simp_all; done)))
@[simp] theorem State.sessionProve_mem (s : State) (c : Nat) (m : SMsg) : (State.sessionProve s c m).2.2.2.mem = s.mem := by
  first
  | (simp [State.sessionProve]; done)
  | (unfold State.sessionProve; (repeat' split) <;> (first | (simp; done) | (simp_all; done)))
  | (simp only [State.sessionProve]; (repeat' split) <;> (first | (simp; done) | (simp_all; done)))
  | (unfold State.sessionProve; (try dsimp only); refine foldl_mem _ (fun s a => ?_) _ _; (try dsimp only); (repeat' split) <;> (first | (simp; done) | (simp_all; done)))
theorem State.service_mem (s : State) (typ : Nat) {t} (h : s.service typ = some t) : t.2.mem = s.mem := by
  unfold State.service at h
  split at h
  · simp at h
  · exact State.latGot_mem _ _ _ h
@[simp] theorem State.setRecord_mem (s : State) (d : List Byte) (applied refused : Nat) : (State.setRecord s d applied refused).mem = s.mem := by
  first
  | (simp [State.setRecord]; done)
  | (unfold State.setRecord; (repeat' split) <;> (first | (simp; done) | (simp_all; done)))
  | (simp only [State.setRecord]; (repeat' split) <;> (first | (simp; done) | (simp_all; done)))
  | (unfold State.setRecord; (try dsimp only); refine foldl_mem _ (fun s a => ?_) _ _; (try dsimp only); (repeat' split) <;> (first | (simp; done) | (simp_all; done)))
@[simp] theorem State.fetchFailed_mem (s : State) : (State.fetchFailed s).mem = s.mem := by
  first
  | (simp [State.fetchFailed]; done)
  | (unfold State.fetchFailed; (repeat' split) <;> (first | (simp; done) | (simp_all; done)))
  | (simp only [State.fetchFailed]; (repeat' split) <;> (first | (simp; done) | (simp_all; done)))
  | (unfold State.fetchFailed; (try dsimp only); refine foldl_mem _ (fun s a => ?_) _ _; (try dsimp only); (repeat' split) <;> (first | (simp; done) | (simp_all; done)))
@[simp] theorem State.leaveQuarantine_mem (s : State) (gen : Nat) : (State.leaveQuarantine s gen).mem = s.mem := by
  first
  | (simp [State.leaveQuarantine]; done)
  | (unfold State.leaveQuarantine; (repeat' split) <;> (first | (simp; done) | (simp_all; done)))
  | (simp only [State.leaveQuarantine]; (repeat' split) <;> (first | (simp; done) | (simp_all; done)))
  | (unfold State.leaveQuarantine; (try dsimp only); refine foldl_mem _ (fun s a => ?_) _ _; (try dsimp only); (repeat' split) <;> (first | (simp; done) | (simp_all; done)))
@[simp] theorem State.wakeFrame_mem (s : State) (p : Nat) (d : List Byte) : (State.wakeFrame s p d).mem = s.mem := by
  first
  | (simp [State.wakeFrame]; done)
  | (unfold State.wakeFrame; (repeat' split) <;> (first | (simp; done) | (simp_all; done)))
  | (simp only [State.wakeFrame]; (repeat' split) <;> (first | (simp; done) | (simp_all; done)))
  | (unfold State.wakeFrame; (try dsimp only); refine foldl_mem _ (fun s a => ?_) _ _; (try dsimp only); (repeat' split) <;> (first | (simp; done) | (simp_all; done)))
@[simp] theorem State.showPaused_mem (s : State) (p : Nat) : (State.showPaused s p).mem = s.mem := by
  first
  | (simp [State.showPaused]; done)
  | (unfold State.showPaused; (repeat' split) <;> (first | (simp; done) | (simp_all; done)))
  | (simp only [State.showPaused]; (repeat' split) <;> (first | (simp; done) | (simp_all; done)))
  | (unfold State.showPaused; (try dsimp only); refine foldl_mem _ (fun s a => ?_) _ _; (try dsimp only); (repeat' split) <;> (first | (simp; done) | (simp_all; done)))
@[simp] theorem State.applyPause_mem (s : State) (p : Nat) : (State.applyPause s p).mem = s.mem := by
  first
  | (simp [State.applyPause]; done)
  | (unfold State.applyPause; (repeat' split) <;> (first | (simp; done) | (simp_all; done)))
  | (simp only [State.applyPause]; (repeat' split) <;> (first | (simp; done) | (simp_all; done)))
  | (unfold State.applyPause; (try dsimp only); refine foldl_mem _ (fun s a => ?_) _ _; (try dsimp only); (repeat' split) <;> (first | (simp; done) | (simp_all; done)))
@[simp] theorem State.macControl_mem (s : State) (p : Nat) (d : List Byte) : (State.macControl s p d).mem = s.mem := by
  first
  | (simp [State.macControl]; done)
  | (unfold State.macControl; (repeat' split) <;> (first | (simp; done) | (simp_all; done)))
  | (simp only [State.macControl]; (repeat' split) <;> (first | (simp; done) | (simp_all; done)))
  | (unfold State.macControl; (try dsimp only); refine foldl_mem _ (fun s a => ?_) _ _; (try dsimp only); (repeat' split) <;> (first | (simp; done) | (simp_all; done)))
@[simp] theorem State.setNetSel_mem (s : State) (n conn v : Nat) : (State.setNetSel s n conn v).mem = s.mem := by
  first
  | (simp [State.setNetSel]; done)
  | (unfold State.setNetSel; (repeat' split) <;> (first | (simp; done) | (simp_all; done)))
  | (simp only [State.setNetSel]; (repeat' split) <;> (first | (simp; done) | (simp_all; done)))
  | (unfold State.setNetSel; (try dsimp only); refine foldl_mem _ (fun s a => ?_) _ _; (try dsimp only); (repeat' split) <;> (first | (simp; done) | (simp_all; done)))


theorem execRxLaneFrame_mem (e : Fin 32) (first : Option (Word × BitVec 2)) (nibs : List Nib) (last : Option (BitVec 3)) (s : State) {u : State} (h : execRxLaneFrame e first nibs last s = .next u) : u.mem = s.mem := by
  unfold execRxLaneFrame at h
  simp only [Host.Outcome.next.injEq] at h
  subst h
  simp
theorem execTxLaneUnderrun_mem (e : Fin 32) (s : State) {u : State} (h : execTxLaneUnderrun e s = .next u) : u.mem = s.mem := by
  unfold execTxLaneUnderrun at h
  simp only [Host.Outcome.next.injEq] at h
  subst h
  simp
theorem execLaneBindingApply_mem (e : Fin 32) (tx : Bool) (s : State) {u : State} (h : execLaneBindingApply e tx s = .next u) : u.mem = s.mem := by
  unfold execLaneBindingApply at h
  simp only [Host.Outcome.next.injEq] at h
  subst h
  simp
theorem execBankPowerWrite_mem (p : Path) (b : Fin 96) (v : Word) (s : State) {u : State} (h : execBankPowerWrite p b v s = .next u) : u.mem = s.mem := by
  unfold execBankPowerWrite at h
  simp only [Host.Outcome.next.injEq] at h
  subst h
  simp
theorem execScrubPassDone_mem (s : State) {u : State} (h : execScrubPassDone s = .next u) : u.mem = s.mem := by
  unfold execScrubPassDone at h
  simp only [Host.Outcome.next.injEq] at h
  subst h
  simp
theorem execLinkUp_mem (p : Fin 12) (told : Fin 8) (s : State) {u : State} (h : execLinkUp p told s = .next u) : u.mem = s.mem := by
  unfold execLinkUp at h
  simp only [Host.Outcome.next.injEq] at h
  subst h
  simp
theorem execPortLinkConfigChange_mem (p : Fin 12) (s : State) {u : State} (h : execPortLinkConfigChange p s = .next u) : u.mem = s.mem := by
  unfold execPortLinkConfigChange at h
  simp only [Host.Outcome.next.injEq] at h
  subst h
  simp
theorem execPortFrameConfigApply_mem (p : Fin 12) (tx : Bool) (s : State) {u : State} (h : execPortFrameConfigApply p tx s = .next u) : u.mem = s.mem := by
  unfold execPortFrameConfigApply at h
  simp only [Host.Outcome.next.injEq] at h
  subst h
  simp
theorem execSerdesLockAcquired_mem (n : Fin 4) (s : State) {u : State} (h : execSerdesLockAcquired n s = .next u) : u.mem = s.mem := by
  unfold execSerdesLockAcquired at h
  simp only [Host.Outcome.next.injEq] at h
  subst h
  simp
theorem execMdioC22Write_mem (q : Path) (m : Fin 2) (phy reg : BitVec 5) (data : Half) (s : State) {u : State} (h : execMdioC22Write q m phy reg data s = .next u) : u.mem = s.mem := by
  unfold execMdioC22Write at h
  simp only [Host.Outcome.next.injEq] at h
  subst h
  simp
theorem execMdioC22Read_mem (q : Path) (m : Fin 2) (phy reg : BitVec 5) (data : Half) (s : State) {u : State} (h : execMdioC22Read q m phy reg data s = .next u) : u.mem = s.mem := by
  unfold execMdioC22Read at h
  simp only [Host.Outcome.next.injEq] at h
  subst h
  simp
theorem execMdioC45Address_mem (q : Path) (m : Fin 2) (phy reg : BitVec 5) (data : Half) (s : State) {u : State} (h : execMdioC45Address q m phy reg data s = .next u) : u.mem = s.mem := by
  unfold execMdioC45Address at h
  simp only [Host.Outcome.next.injEq] at h
  subst h
  simp
theorem execMdioC45Write_mem (q : Path) (m : Fin 2) (phy reg : BitVec 5) (data : Half) (s : State) {u : State} (h : execMdioC45Write q m phy reg data s = .next u) : u.mem = s.mem := by
  unfold execMdioC45Write at h
  simp only [Host.Outcome.next.injEq] at h
  subst h
  simp
theorem execMdioC45Read_mem (q : Path) (m : Fin 2) (phy reg : BitVec 5) (data : Half) (s : State) {u : State} (h : execMdioC45Read q m phy reg data s = .next u) : u.mem = s.mem := by
  unfold execMdioC45Read at h
  simp only [Host.Outcome.next.injEq] at h
  subst h
  simp
theorem execMdioC45ReadIncrement_mem (q : Path) (m : Fin 2) (phy reg : BitVec 5) (data : Half) (s : State) {u : State} (h : execMdioC45ReadIncrement q m phy reg data s = .next u) : u.mem = s.mem := by
  unfold execMdioC45ReadIncrement at h
  simp only [Host.Outcome.next.injEq] at h
  subst h
  simp
theorem execMdioFrameEnd_mem (m : Fin 2) (data : Half) (s : State) {u : State} (h : execMdioFrameEnd m data s = .next u) : u.mem = s.mem := by
  unfold execMdioFrameEnd at h
  simp only [Host.Outcome.next.injEq] at h
  subst h
  simp
theorem execTxSelection_mem (p : Fin 12) (phase : Fin 8) (dt : Nat) (s : State) {u : State} (h : execTxSelection p phase dt s = .next u) : u.mem = s.mem := by
  unfold execTxSelection at h
  simp only [Host.Outcome.next.injEq] at h
  subst h
  (repeat' split) <;> simp
theorem execTxLaneFrameStart_mem (e : Fin 32) (phase : Fin 8) (dt : Nat) (s : State) {u : State} (h : execTxLaneFrameStart e phase dt s = .next u) : u.mem = s.mem := by
  unfold execTxLaneFrameStart at h
  simp only [Host.Outcome.next.injEq] at h
  subst h
  (repeat' split) <;> simp
theorem execGateConfigChange_mem (m : Path) (p : Fin 12) (v : Word) (s : State) {u : State} (h : execGateConfigChange m p v s = .next u) : u.mem = s.mem := by
  unfold execGateConfigChange at h
  simp only [Host.Outcome.next.injEq] at h
  subst h
  simp
theorem execGateConfigOperational_mem (p : Fin 12) (dt : Nat) (s : State) {u : State} (h : execGateConfigOperational p dt s = .next u) : u.mem = s.mem := by
  unfold execGateConfigOperational at h
  simp only [Host.Outcome.next.injEq] at h
  subst h
  (repeat' split) <;> simp
theorem execGateIntervalExpiry_mem (p : Fin 12) (dt : Nat) (s : State) {u : State} (h : execGateIntervalExpiry p dt s = .next u) : u.mem = s.mem := by
  unfold execGateIntervalExpiry at h
  simp only [Host.Outcome.next.injEq] at h
  subst h
  (repeat' split) <;> simp
theorem execSpliceCommit_mem (q : Path) (d : Fin 16) (v : Half) (s : State) {u : State} (h : execSpliceCommit q d v s = .next u) : u.mem = s.mem := by
  unfold execSpliceCommit at h
  simp only [Host.Outcome.next.injEq] at h
  subst h
  simp
theorem execSpliceTableActivate_mem (d : Fin 16) (s : State) {u : State} (h : execSpliceTableActivate d s = .next u) : u.mem = s.mem := by
  unfold execSpliceTableActivate at h
  simp only [Host.Outcome.next.injEq] at h
  subst h
  simp
theorem execChordConfigApply_mem (d : Fin 8) (s : State) {u : State} (h : execChordConfigApply d s = .next u) : u.mem = s.mem := by
  unfold execChordConfigApply at h
  simp only [Host.Outcome.next.injEq] at h
  subst h
  simp
theorem execChordFrame_mem (d : Fin 8) (data : List Byte) (er : Option Nat) (express : Bool) (ago : Nat) (phase : Fin 8) (delay : Nat) (lost : Fin 3) (s : State) {u : State} (h : execChordFrame d data er express ago phase delay lost s = .next u) : u.mem = s.mem := by
  unfold execChordFrame at h
  simp only [Host.Outcome.next.injEq] at h
  subst h
  simp
theorem execFdbReadEntry_mem (q : Path) (s : State) {u : State} (h : execFdbReadEntry q s = .next u) : u.mem = s.mem := by
  unfold execFdbReadEntry at h
  simp only [Host.Outcome.next.injEq] at h
  subst h
  simp
theorem execFdbInsert_mem (q : Path) (s : State) {u : State} (h : execFdbInsert q s = .next u) : u.mem = s.mem := by
  unfold execFdbInsert at h
  simp only [Host.Outcome.next.injEq] at h
  subst h
  simp
theorem execFdbDelete_mem (q : Path) (s : State) {u : State} (h : execFdbDelete q s = .next u) : u.mem = s.mem := by
  unfold execFdbDelete at h
  simp only [Host.Outcome.next.injEq] at h
  subst h
  simp
theorem execFdbFlush_mem (q : Path) (s : State) {u : State} (h : execFdbFlush q s = .next u) : u.mem = s.mem := by
  unfold execFdbFlush at h
  simp only [Host.Outcome.next.injEq] at h
  subst h
  simp
theorem execFdbCommandDone_mem (s : State) {u : State} (h : execFdbCommandDone s = .next u) : u.mem = s.mem := by
  unfold execFdbCommandDone at h
  simp only [Host.Outcome.next.injEq] at h
  subst h
  simp
theorem execFdbAgeExpiry_mem (e : Fin 8192) (dt : Nat) (s : State) {u : State} (h : execFdbAgeExpiry e dt s = .next u) : u.mem = s.mem := by
  unfold execFdbAgeExpiry at h
  simp only [Host.Outcome.next.injEq] at h
  subst h
  (repeat' split) <;> simp
theorem execStreamRead_mem (q : Path) (s : State) {u : State} (h : execStreamRead q s = .next u) : u.mem = s.mem := by
  unfold execStreamRead at h
  simp only [Host.Outcome.next.injEq] at h
  subst h
  simp
theorem execStreamWrite_mem (q : Path) (s : State) {u : State} (h : execStreamWrite q s = .next u) : u.mem = s.mem := by
  unfold execStreamWrite at h
  simp only [Host.Outcome.next.injEq] at h
  subst h
  simp
theorem execStreamClearBlocked_mem (q : Path) (s : State) {u : State} (h : execStreamClearBlocked q s = .next u) : u.mem = s.mem := by
  unfold execStreamClearBlocked at h
  simp only [Host.Outcome.next.injEq] at h
  subst h
  simp
theorem execStreamGateRead_mem (q : Path) (s : State) {u : State} (h : execStreamGateRead q s = .next u) : u.mem = s.mem := by
  unfold execStreamGateRead at h
  simp only [Host.Outcome.next.injEq] at h
  subst h
  simp
theorem execStreamGateWrite_mem (q : Path) (s : State) {u : State} (h : execStreamGateWrite q s = .next u) : u.mem = s.mem := by
  unfold execStreamGateWrite at h
  simp only [Host.Outcome.next.injEq] at h
  subst h
  simp
theorem execStreamGateChangeList_mem (q : Path) (s : State) {u : State} (h : execStreamGateChangeList q s = .next u) : u.mem = s.mem := by
  unfold execStreamGateChangeList at h
  simp only [Host.Outcome.next.injEq] at h
  subst h
  simp
theorem execStreamGateListOperational_mem (g : Fin 64) (dt : Nat) (s : State) {u : State} (h : execStreamGateListOperational g dt s = .next u) : u.mem = s.mem := by
  unfold execStreamGateListOperational at h
  simp only [Host.Outcome.next.injEq] at h
  subst h
  (repeat' split) <;> simp
theorem execStreamGateIntervalExpiry_mem (g : Fin 64) (dt : Nat) (s : State) {u : State} (h : execStreamGateIntervalExpiry g dt s = .next u) : u.mem = s.mem := by
  unfold execStreamGateIntervalExpiry at h
  simp only [Host.Outcome.next.injEq] at h
  subst h
  (repeat' split) <;> simp
theorem execMeterRead_mem (q : Path) (s : State) {u : State} (h : execMeterRead q s = .next u) : u.mem = s.mem := by
  unfold execMeterRead at h
  simp only [Host.Outcome.next.injEq] at h
  subst h
  simp
theorem execMeterWrite_mem (q : Path) (s : State) {u : State} (h : execMeterWrite q s = .next u) : u.mem = s.mem := by
  unfold execMeterWrite at h
  simp only [Host.Outcome.next.injEq] at h
  subst h
  simp
theorem execMeterClearMarkAllRed_mem (q : Path) (s : State) {u : State} (h : execMeterClearMarkAllRed q s = .next u) : u.mem = s.mem := by
  unfold execMeterClearMarkAllRed at h
  simp only [Host.Outcome.next.injEq] at h
  subst h
  simp
theorem execCbRead_mem (q : Path) (s : State) {u : State} (h : execCbRead q s = .next u) : u.mem = s.mem := by
  unfold execCbRead at h
  simp only [Host.Outcome.next.injEq] at h
  subst h
  simp
theorem execCbWrite_mem (q : Path) (s : State) {u : State} (h : execCbWrite q s = .next u) : u.mem = s.mem := by
  unfold execCbWrite at h
  simp only [Host.Outcome.next.injEq] at h
  subst h
  simp
theorem execCbResetRecovery_mem (q : Path) (s : State) {u : State} (h : execCbResetRecovery q s = .next u) : u.mem = s.mem := by
  unfold execCbResetRecovery at h
  simp only [Host.Outcome.next.injEq] at h
  subst h
  simp
theorem execCbResetTimeout_mem (h : Fin 256) (s : State) {u : State} (h : execCbResetTimeout h s = .next u) : u.mem = s.mem := by
  unfold execCbResetTimeout at h
  simp only [Host.Outcome.next.injEq] at h
  subst h
  simp
theorem execAuditPass_mem (s : State) {u : State} (h : execAuditPass s = .next u) : u.mem = s.mem := by
  unfold execAuditPass at h
  simp only [Host.Outcome.next.injEq] at h
  subst h
  simp
theorem execIncrementWrite_mem (q : Path) (d : Fin 4) (v : DWord) (s : State) {u : State} (h : execIncrementWrite q d v s = .next u) : u.mem = s.mem := by
  unfold execIncrementWrite at h
  simp only [Host.Outcome.next.injEq] at h
  subst h
  simp
theorem execAdjustStart_mem (q : Path) (d : Fin 4) (v : Word) (s : State) {u : State} (h : execAdjustStart q d v s = .next u) : u.mem = s.mem := by
  unfold execAdjustStart at h
  simp only [Host.Outcome.next.injEq] at h
  subst h
  simp
theorem execAdjustEnd_mem (d : Fin 4) (dt : Nat) (s : State) {u : State} (h : execAdjustEnd d dt s = .next u) : u.mem = s.mem := by
  unfold execAdjustEnd at h
  simp only [Host.Outcome.next.injEq] at h
  subst h
  simp
theorem execStepDisarm_mem (q : Path) (d : Fin 4) (s : State) {u : State} (h : execStepDisarm q d s = .next u) : u.mem = s.mem := by
  unfold execStepDisarm at h
  simp only [Host.Outcome.next.injEq] at h
  subst h
  simp
theorem execStepNow_mem (q : Path) (d : Fin 4) (s : State) {u : State} (h : execStepNow q d s = .next u) : u.mem = s.mem := by
  unfold execStepNow at h
  simp only [Host.Outcome.next.injEq] at h
  subst h
  simp
theorem execStepArmAt_mem (q : Path) (d : Fin 4) (s : State) {u : State} (h : execStepArmAt q d s = .next u) : u.mem = s.mem := by
  unfold execStepArmAt at h
  simp only [Host.Outcome.next.injEq] at h
  subst h
  simp
theorem execStepApply_mem (d : Fin 4) (dt : Nat) (s : State) {u : State} (h : execStepApply d dt s = .next u) : u.mem = s.mem := by
  unfold execStepApply at h
  simp only [Host.Outcome.next.injEq] at h
  subst h
  simp
theorem execPpsEdge_mem (i' : Fin 4) (dt : Nat) (s : State) {u : State} (h : execPpsEdge i' dt s = .next u) : u.mem = s.mem := by
  unfold execPpsEdge at h
  simp only [Host.Outcome.next.injEq] at h
  subst h
  simp
theorem execPpsPulseEnd_mem (i' : Fin 4) (dt : Nat) (s : State) {u : State} (h : execPpsPulseEnd i' dt s = .next u) : u.mem = s.mem := by
  unfold execPpsPulseEnd at h
  simp only [Host.Outcome.next.injEq] at h
  subst h
  simp
theorem execSyncWrite_mem (q : Path) (d : Fin 4) (v : Word) (s : State) {u : State} (h : execSyncWrite q d v s = .next u) : u.mem = s.mem := by
  unfold execSyncWrite at h
  simp only [Host.Outcome.next.injEq] at h
  subst h
  simp
theorem execCaptureEdge_mem (i' : Fin 4) (falling : Bool) (ago : Nat) (phase : Fin 8) (s : State) {u : State} (h : execCaptureEdge i' falling ago phase s = .next u) : u.mem = s.mem := by
  unfold execCaptureEdge at h
  simp only [Host.Outcome.next.injEq] at h
  subst h
  simp
theorem execCapturePop_mem (q : Path) (i' : Fin 4) (v : Word) (s : State) {u : State} (h : execCapturePop q i' v s = .next u) : u.mem = s.mem := by
  unfold execCapturePop at h
  simp only [Host.Outcome.next.injEq] at h
  subst h
  simp
theorem execLaunchEnable_mem (q : Path) (k : Fin 64) (v : Half) (s : State) {u : State} (h : execLaunchEnable q k v s = .next u) : u.mem = s.mem := by
  unfold execLaunchEnable at h
  simp only [Host.Outcome.next.injEq] at h
  subst h
  simp
theorem execLaunchDisable_mem (q : Path) (k : Fin 64) (v : Half) (s : State) {u : State} (h : execLaunchDisable q k v s = .next u) : u.mem = s.mem := by
  unfold execLaunchDisable at h
  simp only [Host.Outcome.next.injEq] at h
  subst h
  simp
theorem execLaunchAbort_mem (q : Path) (k : Fin 64) (v : Byte) (s : State) {u : State} (h : execLaunchAbort q k v s = .next u) : u.mem = s.mem := by
  unfold execLaunchAbort at h
  simp only [Host.Outcome.next.injEq] at h
  subst h
  simp
theorem execLaunchFetchStart_mem (k : Fin 64) (dt : Nat) (s : State) {u : State} (h : execLaunchFetchStart k dt s = .next u) : u.mem = s.mem := by
  unfold execLaunchFetchStart at h
  simp only [Host.Outcome.next.injEq] at h
  subst h
  simp
theorem execLaunchBegin_mem (k : Fin 64) (phase : Fin 8) (dt : Nat) (s : State) {u : State} (h : execLaunchBegin k phase dt s = .next u) : u.mem = s.mem := by
  unfold execLaunchBegin at h
  simp only [Host.Outcome.next.injEq] at h
  subst h
  simp
theorem execLaunchEnd_mem (k : Fin 64) (dt : Nat) (s : State) {u : State} (h : execLaunchEnd k dt s = .next u) : u.mem = s.mem := by
  unfold execLaunchEnd at h
  simp only [Host.Outcome.next.injEq] at h
  subst h
  simp
theorem execRingEnable_mem (q : Path) (n : Fin 4) (v : Word) (s : State) {u : State} (h : execRingEnable q n v s = .next u) : u.mem = s.mem := by
  unfold execRingEnable at h
  simp only [Host.Outcome.next.injEq] at h
  subst h
  simp
theorem execPerLockAcquired_mem (n : Fin 4) (east : Bool) (s : State) {u : State} (h : execPerLockAcquired n east s = .next u) : u.mem = s.mem := by
  unfold execPerLockAcquired at h
  simp only [Host.Outcome.next.injEq] at h
  subst h
  simp
theorem execPerLockLost_mem (n : Fin 4) (east lostRx lostTx : Bool) (s : State) {u : State} (h : execPerLockLost n east lostRx lostTx s = .next u) : u.mem = s.mem := by
  unfold execPerLockLost at h
  simp only [Host.Outcome.next.injEq] at h
  subst h
  simp
theorem execHealingSilenceEnd_mem (n : Fin 4) (s : State) {u : State} (h : execHealingSilenceEnd n s = .next u) : u.mem = s.mem := by
  unfold execHealingSilenceEnd at h
  simp only [Host.Outcome.next.injEq] at h
  subst h
  simp
theorem execEchoRequestSend_mem (n : Fin 4) (east : Bool) (s : State) {u : State} (h : execEchoRequestSend n east s = .next u) : u.mem = s.mem := by
  unfold execEchoRequestSend at h
  simp only [Host.Outcome.next.injEq] at h
  subst h
  simp
theorem execEchoRequestReceived_mem (n : Fin 4) (east sending : Bool) (s : State) {u : State} (h : execEchoRequestReceived n east sending s = .next u) : u.mem = s.mem := by
  unfold execEchoRequestReceived at h
  simp only [Host.Outcome.next.injEq] at h
  subst h
  simp
theorem execEchoReplyReceived_mem (n : Fin 4) (east : Bool) (t : Nat) (s : State) {u : State} (h : execEchoReplyReceived n east t s = .next u) : u.mem = s.mem := by
  unfold execEchoReplyReceived at h
  simp only [Host.Outcome.next.injEq] at h
  subst h
  simp
theorem execEchoTimeout_mem (n : Fin 4) (east : Bool) (s : State) {u : State} (h : execEchoTimeout n east s = .next u) : u.mem = s.mem := by
  unfold execEchoTimeout at h
  simp only [Host.Outcome.next.injEq] at h
  subst h
  simp
theorem execReferenceSend_mem (n : Fin 4) (phase : Fin 8) (dt : Nat) (s : State) {u : State} (h : execReferenceSend n phase dt s = .next u) : u.mem = s.mem := by
  unfold execReferenceSend at h
  simp only [Host.Outcome.next.injEq] at h
  subst h
  simp
theorem execReferenceAccept_mem (n : Fin 4) (s : State) {u : State} (h : execReferenceAccept n s = .next u) : u.mem = s.mem := by
  unfold execReferenceAccept at h
  simp only [Host.Outcome.next.injEq] at h
  subst h
  simp
theorem execReferenceMissed_mem (n : Fin 4) (dt : Nat) (s : State) {u : State} (h : execReferenceMissed n dt s = .next u) : u.mem = s.mem := by
  unfold execReferenceMissed at h
  simp only [Host.Outcome.next.injEq] at h
  subst h
  simp
theorem execBackupTakeover_mem (n : Fin 4) (phase : Fin 8) (dt : Nat) (s : State) {u : State} (h : execBackupTakeover n phase dt s = .next u) : u.mem = s.mem := by
  unfold execBackupTakeover at h
  simp only [Host.Outcome.next.injEq] at h
  subst h
  simp
theorem execColdstartListenTimeout_mem (n : Fin 4) (s : State) {u : State} (h : execColdstartListenTimeout n s = .next u) : u.mem = s.mem := by
  unfold execColdstartListenTimeout at h
  simp only [Host.Outcome.next.injEq] at h
  subst h
  simp
theorem execColdstartSend_mem (n : Fin 4) (s : State) {u : State} (h : execColdstartSend n s = .next u) : u.mem = s.mem := by
  unfold execColdstartSend at h
  simp only [Host.Outcome.next.injEq] at h
  subst h
  (repeat' split) <;> simp
theorem execColdstartReceived_mem (n : Fin 4) (s : State) {u : State} (h : execColdstartReceived n s = .next u) : u.mem = s.mem := by
  unfold execColdstartReceived at h
  simp only [Host.Outcome.next.injEq] at h
  subst h
  (repeat' split) <;> simp
theorem execSlotTableLoad_mem (q : Path) (n : Fin 4) (m : Fin 8) (v : Half) (s : State) {u : State} (h : execSlotTableLoad q n m v s = .next u) : u.mem = s.mem := by
  unfold execSlotTableLoad at h
  simp only [Host.Outcome.next.injEq] at h
  subst h
  simp
theorem execSlotTableChecked_mem (n : Fin 4) (m : Fin 8) (s : State) {u : State} (h : execSlotTableChecked n m s = .next u) : u.mem = s.mem := by
  unfold execSlotTableChecked at h
  simp only [Host.Outcome.next.injEq] at h
  subst h
  simp
theorem execSlotFetchStart_mem (n : Fin 4) (k : Fin 1024) (s : State) {u : State} (h : execSlotFetchStart n k s = .next u) : u.mem = s.mem := by
  unfold execSlotFetchStart at h
  simp only [Host.Outcome.next.injEq] at h
  subst h
  (repeat' split) <;> simp
theorem execGuardianCut_mem (n : Fin 4) (s : State) {u : State} (h : execGuardianCut n s = .next u) : u.mem = s.mem := by
  unfold execGuardianCut at h
  simp only [Host.Outcome.next.injEq] at h
  subst h
  (repeat' split) <;> simp
theorem execGuardTableCommit_mem (q : Path) (n : Fin 4) (v : Byte) (s : State) {u : State} (h : execGuardTableCommit q n v s = .next u) : u.mem = s.mem := by
  unfold execGuardTableCommit at h
  simp only [Host.Outcome.next.injEq] at h
  subst h
  simp
theorem execGuardTableChecked_mem (n : Fin 4) (s : State) {u : State} (h : execGuardTableChecked n s = .next u) : u.mem = s.mem := by
  unfold execGuardTableChecked at h
  simp only [Host.Outcome.next.injEq] at h
  subst h
  simp
theorem execModeRequest_mem (q : Path) (n : Fin 4) (v : Half) (s : State) {u : State} (h : execModeRequest q n v s = .next u) : u.mem = s.mem := by
  unfold execModeRequest at h
  simp only [Host.Outcome.next.injEq] at h
  subst h
  simp
theorem execRestoreRequest_mem (q : Path) (n : Fin 4) (v : Word) (s : State) {u : State} (h : execRestoreRequest q n v s = .next u) : u.mem = s.mem := by
  unfold execRestoreRequest at h
  simp only [Host.Outcome.next.injEq] at h
  subst h
  simp
theorem execMeasureSend_mem (n : Fin 4) (east : Bool) (s : State) {u : State} (h : execMeasureSend n east s = .next u) : u.mem = s.mem := by
  unfold execMeasureSend at h
  simp only [Host.Outcome.next.injEq] at h
  subst h
  simp
theorem execMeasureForward_mem (n : Fin 4) (s : State) {u : State} (h : execMeasureForward n s = .next u) : u.mem = s.mem := by
  unfold execMeasureForward at h
  simp only [Host.Outcome.next.injEq] at h
  subst h
  (repeat' split) <;> simp
theorem execMgmtTimeout_mem (n : Fin 4) (s : State) {u : State} (h : execMgmtTimeout n s = .next u) : u.mem = s.mem := by
  unfold execMgmtTimeout at h
  simp only [Host.Outcome.next.injEq] at h
  subst h
  simp
theorem execMgmtReadIdentity_mem (n : Fin 4) (s : State) {u : State} (h : execMgmtReadIdentity n s = .next u) : u.mem = s.mem := by
  unfold execMgmtReadIdentity at h
  simp only [Host.Outcome.next.injEq] at h
  subst h
  (repeat' split) <;> simp
theorem execMgmtAssignNumber_mem (n : Fin 4) (s : State) {u : State} (h : execMgmtAssignNumber n s = .next u) : u.mem = s.mem := by
  unfold execMgmtAssignNumber at h
  simp only [Host.Outcome.next.injEq] at h
  subst h
  (repeat' split) <;> simp
theorem execMgmtWriteTable_mem (n : Fin 4) (s : State) {u : State} (h : execMgmtWriteTable n s = .next u) : u.mem = s.mem := by
  unfold execMgmtWriteTable at h
  simp only [Host.Outcome.next.injEq] at h
  subst h
  (repeat' split) <;> simp
theorem execMgmtCommit_mem (n : Fin 4) (s : State) {u : State} (h : execMgmtCommit n s = .next u) : u.mem = s.mem := by
  unfold execMgmtCommit at h
  simp only [Host.Outcome.next.injEq] at h
  subst h
  (repeat' split) <;> simp
theorem execMgmtReadStatus_mem (n : Fin 4) (s : State) {u : State} (h : execMgmtReadStatus n s = .next u) : u.mem = s.mem := by
  unfold execMgmtReadStatus at h
  simp only [Host.Outcome.next.injEq] at h
  subst h
  (repeat' split) <;> simp
theorem execMgmtReadLinks_mem (n : Fin 4) (s : State) {u : State} (h : execMgmtReadLinks n s = .next u) : u.mem = s.mem := by
  unfold execMgmtReadLinks at h
  simp only [Host.Outcome.next.injEq] at h
  subst h
  (repeat' split) <;> simp
theorem execRecordEvent_mem (typ : Half) (b : List Byte) (s : State) {u : State} (h : execRecordEvent typ b s = .next u) : u.mem = s.mem := by
  unfold execRecordEvent at h
  simp only [Host.Outcome.next.injEq] at h
  subst h
  simp
theorem execLogScanDone_mem (s : State) {u : State} (h : execLogScanDone s = .next u) : u.mem = s.mem := by
  unfold execLogScanDone at h
  simp only [Host.Outcome.next.injEq] at h
  subst h
  simp
theorem execOptionsCommit_mem (p : Path) (v : Word) (s : State) {u : State} (h : execOptionsCommit p v s = .next u) : u.mem = s.mem := by
  unfold execOptionsCommit at h
  simp only [Host.Outcome.next.injEq] at h
  subst h
  simp
theorem execOptionsCommitEnd_mem (s : State) {u : State} (h : execOptionsCommitEnd s = .next u) : u.mem = s.mem := by
  unfold execOptionsCommitEnd at h
  simp only [Host.Outcome.next.injEq] at h
  subst h
  (repeat' split) <;> simp
theorem execKeeperForget_mem (q : Path) (v : Half) (s : State) {u : State} (h : execKeeperForget q v s = .next u) : u.mem = s.mem := by
  unfold execKeeperForget at h
  simp only [Host.Outcome.next.injEq] at h
  subst h
  simp
theorem execTempSample_mem (temps volts : List Half) (s : State) {u : State} (h : execTempSample temps volts s = .next u) : u.mem = s.mem := by
  unfold execTempSample at h
  simp only [Host.Outcome.next.injEq] at h
  subst h
  simp
theorem execSupplyExcursion_mem (m : Fin 11) (mv : Half) (s : State) {u : State} (h : execSupplyExcursion m mv s = .next u) : u.mem = s.mem := by
  unfold execSupplyExcursion at h
  simp only [Host.Outcome.next.injEq] at h
  subst h
  simp
theorem execPaceWindowEnd_mem (k : Fin 21) (count : Nat) (s : State) {u : State} (h : execPaceWindowEnd k count s = .next u) : u.mem = s.mem := by
  unfold execPaceWindowEnd at h
  simp only [Host.Outcome.next.injEq] at h
  subst h
  simp
theorem execPaceUpdate_mem (factory : List Word) (s : State) {u : State} (h : execPaceUpdate factory s = .next u) : u.mem = s.mem := by
  unfold execPaceUpdate at h
  simp only [Host.Outcome.next.injEq] at h
  subst h
  simp
theorem execMarginRecord_mem (s : State) {u : State} (h : execMarginRecord s = .next u) : u.mem = s.mem := by
  unfold execMarginRecord at h
  simp only [Host.Outcome.next.injEq] at h
  subst h
  simp
theorem execPerturbArm_mem (p : Path) (v : Word) (s : State) {u : State} (h : execPerturbArm p v s = .next u) : u.mem = s.mem := by
  unfold execPerturbArm at h
  simp only [Host.Outcome.next.injEq] at h
  subst h
  simp
theorem execPerturbDisarm_mem (p : Path) (v : Word) (s : State) {u : State} (h : execPerturbDisarm p v s = .next u) : u.mem = s.mem := by
  unfold execPerturbDisarm at h
  simp only [Host.Outcome.next.injEq] at h
  subst h
  simp
theorem execTestInServiceWrite_mem (p : Path) (v : Word) (keeper : Bool) (s : State) {u : State} (h : execTestInServiceWrite p v keeper s = .next u) : u.mem = s.mem := by
  unfold execTestInServiceWrite at h
  simp only [Host.Outcome.next.injEq] at h
  subst h
  simp
theorem execTestTimeoutExpiry_mem (s : State) {u : State} (h : execTestTimeoutExpiry s = .next u) : u.mem = s.mem := by
  unfold execTestTimeoutExpiry at h
  simp only [Host.Outcome.next.injEq] at h
  subst h
  simp
theorem execAutoDisarmExpiry_mem (s : State) {u : State} (h : execAutoDisarmExpiry s = .next u) : u.mem = s.mem := by
  unfold execAutoDisarmExpiry at h
  simp only [Host.Outcome.next.injEq] at h
  subst h
  simp
theorem execBackpressureSlot_mem (s : State) {u : State} (h : execBackpressureSlot s = .next u) : u.mem = s.mem := by
  unfold execBackpressureSlot at h
  simp only [Host.Outcome.next.injEq] at h
  subst h
  simp
theorem execSymbolInject_mem (s : State) {u : State} (h : execSymbolInject s = .next u) : u.mem = s.mem := by
  unfold execSymbolInject at h
  simp only [Host.Outcome.next.injEq] at h
  subst h
  simp
theorem execJitterDraw_mem (s : State) {u : State} (h : execJitterDraw s = .next u) : u.mem = s.mem := by
  unfold execJitterDraw at h
  simp only [Host.Outcome.next.injEq] at h
  subst h
  simp
theorem execJtagUnlock_mem (p : Path) (good : Bool) (s : State) {u : State} (h : execJtagUnlock p good s = .next u) : u.mem = s.mem := by
  unfold execJtagUnlock at h
  simp only [Host.Outcome.next.injEq] at h
  subst h
  simp
theorem execJtagInstruction_mem (ir : TapOp) (s : State) {u : State} (h : execJtagInstruction ir s = .next u) : u.mem = s.mem := by
  unfold execJtagInstruction at h
  simp only [Host.Outcome.next.injEq] at h
  subst h
  simp
theorem execPioB_mem (m : Fin 32) (s : State) {u : State} (h : execPioB m s = .next u) : u.mem = s.mem := by
  unfold execPioB at h
  simp only [Host.Outcome.next.injEq] at h
  subst h
  simp
theorem execPioLoopa_mem (m : Fin 32) (s : State) {u : State} (h : execPioLoopa m s = .next u) : u.mem = s.mem := by
  unfold execPioLoopa at h
  simp only [Host.Outcome.next.injEq] at h
  subst h
  simp
theorem execPioLoopb_mem (m : Fin 32) (s : State) {u : State} (h : execPioLoopb m s = .next u) : u.mem = s.mem := by
  unfold execPioLoopb at h
  simp only [Host.Outcome.next.injEq] at h
  subst h
  simp
theorem execPioBc_mem (m : Fin 32) (pins : Half) (s : State) {u : State} (h : execPioBc m pins s = .next u) : u.mem = s.mem := by
  unfold execPioBc at h
  simp only [Host.Outcome.next.injEq] at h
  subst h
  simp
theorem execPioDrive_mem (m : Fin 32) (s : State) {u : State} (h : execPioDrive m s = .next u) : u.mem = s.mem := by
  unfold execPioDrive at h
  simp only [Host.Outcome.next.injEq] at h
  subst h
  simp
theorem execPioSample_mem (m : Fin 32) (pins : Half) (s : State) {u : State} (h : execPioSample m pins s = .next u) : u.mem = s.mem := by
  unfold execPioSample at h
  simp only [Host.Outcome.next.injEq] at h
  subst h
  simp
theorem execPioFetch_mem (m : Fin 32) (s : State) {u : State} (h : execPioFetch m s = .next u) : u.mem = s.mem := by
  unfold execPioFetch at h
  simp only [Host.Outcome.next.injEq] at h
  subst h
  simp
theorem execPioStore_mem (m : Fin 32) (s : State) {u : State} (h : execPioStore m s = .next u) : u.mem = s.mem := by
  unfold execPioStore at h
  simp only [Host.Outcome.next.injEq] at h
  subst h
  simp
theorem execPioLoad_mem (m : Fin 32) (s : State) {u : State} (h : execPioLoad m s = .next u) : u.mem = s.mem := by
  unfold execPioLoad at h
  simp only [Host.Outcome.next.injEq] at h
  subst h
  simp
theorem execPioAwait_mem (m : Fin 32) (pins : Half) (s : State) {u : State} (h : execPioAwait m pins s = .next u) : u.mem = s.mem := by
  unfold execPioAwait at h
  simp only [Host.Outcome.next.injEq] at h
  subst h
  simp
theorem execPioFlag_mem (m : Fin 32) (s : State) {u : State} (h : execPioFlag m s = .next u) : u.mem = s.mem := by
  unfold execPioFlag at h
  simp only [Host.Outcome.next.injEq] at h
  subst h
  simp
theorem execPioCopy_mem (m : Fin 32) (pins : Half) (s : State) {u : State} (h : execPioCopy m pins s = .next u) : u.mem = s.mem := by
  unfold execPioCopy at h
  simp only [Host.Outcome.next.injEq] at h
  subst h
  simp
theorem execPioUnpack_mem (m : Fin 32) (s : State) {u : State} (h : execPioUnpack m s = .next u) : u.mem = s.mem := by
  unfold execPioUnpack at h
  simp only [Host.Outcome.next.injEq] at h
  subst h
  simp
theorem execPioPack_mem (m : Fin 32) (s : State) {u : State} (h : execPioPack m s = .next u) : u.mem = s.mem := by
  unfold execPioPack at h
  simp only [Host.Outcome.next.injEq] at h
  subst h
  simp
theorem execPioNop_mem (m : Fin 32) (s : State) {u : State} (h : execPioNop m s = .next u) : u.mem = s.mem := by
  unfold execPioNop at h
  simp only [Host.Outcome.next.injEq] at h
  subst h
  split <;> rename_i hh <;> first | rfl | (simp; done) | (have := State.smFetch_mem _ _ _ hh; simp_all) | (have := State.trigFire_mem _ _ _ hh; simp_all)
theorem execPioWaitEnd_mem (m : Fin 32) (pins : Half) (s : State) {u : State} (h : execPioWaitEnd m pins s = .next u) : u.mem = s.mem := by
  unfold execPioWaitEnd at h
  simp only [Host.Outcome.next.injEq] at h
  subst h
  simp
theorem execPioDelayExpiry_mem (m : Fin 32) (s : State) {u : State} (h : execPioDelayExpiry m s = .next u) : u.mem = s.mem := by
  unfold execPioDelayExpiry at h
  simp only [Host.Outcome.next.injEq] at h
  subst h
  simp
theorem execPioSmEnable_mem (q : Path) (b : Fin 4) (v : Byte) (s : State) {u : State} (h : execPioSmEnable q b v s = .next u) : u.mem = s.mem := by
  unfold execPioSmEnable at h
  simp only [Host.Outcome.next.injEq] at h
  subst h
  simp
theorem execPioSmDisable_mem (q : Path) (b : Fin 4) (v : Byte) (s : State) {u : State} (h : execPioSmDisable q b v s = .next u) : u.mem = s.mem := by
  unfold execPioSmDisable at h
  simp only [Host.Outcome.next.injEq] at h
  subst h
  simp
theorem execPioRestart_mem (q : Path) (m : Fin 32) (v : Word) (s : State) {u : State} (h : execPioRestart q m v s = .next u) : u.mem = s.mem := by
  unfold execPioRestart at h
  simp only [Host.Outcome.next.injEq] at h
  subst h
  simp
theorem execPioFifoClear_mem (q : Path) (m : Fin 32) (v : Word) (s : State) {u : State} (h : execPioFifoClear q m v s = .next u) : u.mem = s.mem := by
  unfold execPioFifoClear at h
  simp only [Host.Outcome.next.injEq] at h
  subst h
  simp
theorem execPioWrapWrite_mem (q : Path) (m : Fin 32) (v : Half) (s : State) {u : State} (h : execPioWrapWrite q m v s = .next u) : u.mem = s.mem := by
  unfold execPioWrapWrite at h
  simp only [Host.Outcome.next.injEq] at h
  subst h
  simp
theorem execPioSyncApplyArm_mem (q : Path) (s : State) {u : State} (h : execPioSyncApplyArm q s = .next u) : u.mem = s.mem := by
  unfold execPioSyncApplyArm at h
  simp only [Host.Outcome.next.injEq] at h
  subst h
  simp
theorem execPioSyncCancel_mem (q : Path) (s : State) {u : State} (h : execPioSyncCancel q s = .next u) : u.mem = s.mem := by
  unfold execPioSyncCancel at h
  simp only [Host.Outcome.next.injEq] at h
  subst h
  simp
theorem execPioSyncApply_mem (s : State) {u : State} (h : execPioSyncApply s = .next u) : u.mem = s.mem := by
  unfold execPioSyncApply at h
  simp only [Host.Outcome.next.injEq] at h
  subst h
  simp
theorem execPioFlagSetWrite_mem (q : Path) (b : Fin 4) (v : Byte) (s : State) {u : State} (h : execPioFlagSetWrite q b v s = .next u) : u.mem = s.mem := by
  unfold execPioFlagSetWrite at h
  simp only [Host.Outcome.next.injEq] at h
  subst h
  simp
theorem execPioFlagClearWrite_mem (q : Path) (b : Fin 4) (v : Byte) (s : State) {u : State} (h : execPioFlagClearWrite q b v s = .next u) : u.mem = s.mem := by
  unfold execPioFlagClearWrite at h
  simp only [Host.Outcome.next.injEq] at h
  subst h
  simp
theorem execPioTxFifoPush_mem (q : Path) (m : Fin 32) (v : Word) (s : State) {u : State} (h : execPioTxFifoPush q m v s = .next u) : u.mem = s.mem := by
  unfold execPioTxFifoPush at h
  simp only [Host.Outcome.next.injEq] at h
  subst h
  simp
theorem execPioRxFifoPop_mem (q : Path) (m : Fin 32) (s : State) {u : State} (h : execPioRxFifoPop q m s = .next u) : u.mem = s.mem := by
  unfold execPioRxFifoPop at h
  simp only [Host.Outcome.next.injEq] at h
  subst h
  simp
theorem execPioDmaEnable_mem (q : Path) (k : Fin 64) (v : Word) (s : State) {u : State} (h : execPioDmaEnable q k v s = .next u) : u.mem = s.mem := by
  unfold execPioDmaEnable at h
  simp only [Host.Outcome.next.injEq] at h
  subst h
  simp
theorem execPioDmaStop_mem (q : Path) (k : Fin 64) (v : Word) (s : State) {u : State} (h : execPioDmaStop q k v s = .next u) : u.mem = s.mem := by
  unfold execPioDmaStop at h
  simp only [Host.Outcome.next.injEq] at h
  subst h
  simp
theorem execTrackEnable_mem (q : Path) (t : Fin 16) (v : Word) (s : State) {u : State} (h : execTrackEnable q t v s = .next u) : u.mem = s.mem := by
  unfold execTrackEnable at h
  simp only [Host.Outcome.next.injEq] at h
  subst h
  simp
theorem execTrackAbort_mem (q : Path) (t : Fin 16) (v : Byte) (s : State) {u : State} (h : execTrackAbort q t v s = .next u) : u.mem = s.mem := by
  unfold execTrackAbort at h
  simp only [Host.Outcome.next.injEq] at h
  subst h
  simp
theorem execLocusStagingStart_mem (t : Fin 16) (dt : Nat) (s : State) {u : State} (h : execLocusStagingStart t dt s = .next u) : u.mem = s.mem := by
  unfold execLocusStagingStart at h
  simp only [Host.Outcome.next.injEq] at h
  subst h
  simp
theorem execLocusDeadlineMiss_mem (t : Fin 16) (dt : Nat) (s : State) {u : State} (h : execLocusDeadlineMiss t dt s = .next u) : u.mem = s.mem := by
  unfold execLocusDeadlineMiss at h
  simp only [Host.Outcome.next.injEq] at h
  subst h
  simp
theorem execLocusPioPush_mem (t : Fin 16) (s : State) {u : State} (h : execLocusPioPush t s = .next u) : u.mem = s.mem := by
  unfold execLocusPioPush at h
  simp only [Host.Outcome.next.injEq] at h
  subst h
  (repeat' split) <;> simp
theorem execSwapArm_mem (q : Path) (s : State) {u : State} (h : execSwapArm q s = .next u) : u.mem = s.mem := by
  unfold execSwapArm at h
  simp only [Host.Outcome.next.injEq] at h
  subst h
  simp
theorem execSwapCancel_mem (q : Path) (s : State) {u : State} (h : execSwapCancel q s = .next u) : u.mem = s.mem := by
  unfold execSwapCancel at h
  simp only [Host.Outcome.next.injEq] at h
  subst h
  simp
theorem execSwapArmTied_mem (q : Path) (s : State) {u : State} (h : execSwapArmTied q s = .next u) : u.mem = s.mem := by
  unfold execSwapArmTied at h
  simp only [Host.Outcome.next.injEq] at h
  subst h
  simp
theorem execTriggerFire_mem (d : Fin 4) (t : Fin 16) (dt : Nat) (s : State) {u : State} (h : execTriggerFire d t dt s = .next u) : u.mem = s.mem := by
  unfold execTriggerFire at h
  simp only [Host.Outcome.next.injEq] at h
  subst h
  split <;> rename_i hh <;> first | rfl | (simp; done) | (have := State.smFetch_mem _ _ _ hh; simp_all) | (have := State.trigFire_mem _ _ _ hh; simp_all)
theorem execCanModeWrite_mem (p : Path) (c : Fin 4) (v : Word) (s : State) {u : State} (h : execCanModeWrite p c v s = .next u) : u.mem = s.mem := by
  unfold execCanModeWrite at h
  simp only [Host.Outcome.next.injEq] at h
  subst h
  simp
theorem execCanIntegrated_mem (c : Fin 4) (s : State) {u : State} (h : execCanIntegrated c s = .next u) : u.mem = s.mem := by
  unfold execCanIntegrated at h
  simp only [Host.Outcome.next.injEq] at h
  subst h
  simp
theorem execCanRxError_mem (c : Fin 4) (lec : Fin 7) (data res : Bool) (eights : Fin 32) (s : State) {u : State} (h : execCanRxError c lec data res eights s = .next u) : u.mem = s.mem := by
  unfold execCanRxError at h
  simp only [Host.Outcome.next.injEq] at h
  subst h
  simp
theorem execCanTxAttempt_mem (c : Fin 4) (phase : Fin 8) (dt : Nat) (s : State) {u : State} (h : execCanTxAttempt c phase dt s = .next u) : u.mem = s.mem := by
  unfold execCanTxAttempt at h
  simp only [Host.Outcome.next.injEq] at h
  subst h
  simp
theorem execCanTxError_mem (c : Fin 4) (lec : Fin 7) (data free : Bool) (eights : Fin 32) (delay : BitVec 7) (s : State) {u : State} (h : execCanTxError c lec data free eights delay s = .next u) : u.mem = s.mem := by
  unfold execCanTxError at h
  simp only [Host.Outcome.next.injEq] at h
  subst h
  (repeat' split) <;> simp
theorem execCanTxAbort_mem (p : Path) (c : Fin 4) (v : DWord) (s : State) {u : State} (h : execCanTxAbort p c v s = .next u) : u.mem = s.mem := by
  unfold execCanTxAbort at h
  simp only [Host.Outcome.next.injEq] at h
  subst h
  simp
theorem execCanLockSet_mem (p : Path) (c : Fin 4) (v : DWord) (s : State) {u : State} (h : execCanLockSet p c v s = .next u) : u.mem = s.mem := by
  unfold execCanLockSet at h
  simp only [Host.Outcome.next.injEq] at h
  subst h
  simp
theorem execCanLockClear_mem (p : Path) (c : Fin 4) (v : DWord) (s : State) {u : State} (h : execCanLockClear p c v s = .next u) : u.mem = s.mem := by
  unfold execCanLockClear at h
  simp only [Host.Outcome.next.injEq] at h
  subst h
  simp
theorem execCanLostClear_mem (p : Path) (c : Fin 4) (v : DWord) (s : State) {u : State} (h : execCanLostClear p c v s = .next u) : u.mem = s.mem := by
  unfold execCanLostClear at h
  simp only [Host.Outcome.next.injEq] at h
  subst h
  simp
theorem execCanFifoGet_mem (p : Path) (c : Fin 4) (k : Fin 2) (v : Word) (s : State) {u : State} (h : execCanFifoGet p c k v s = .next u) : u.mem = s.mem := by
  unfold execCanFifoGet at h
  simp only [Host.Outcome.next.injEq] at h
  subst h
  simp
theorem execCanRecover_mem (p : Path) (c : Fin 4) (v : Word) (s : State) {u : State} (h : execCanRecover p c v s = .next u) : u.mem = s.mem := by
  unfold execCanRecover at h
  simp only [Host.Outcome.next.injEq] at h
  subst h
  simp
theorem execCanBusOffRecovered_mem (c : Fin 4) (s : State) {u : State} (h : execCanBusOffRecovered c s = .next u) : u.mem = s.mem := by
  unfold execCanBusOffRecovered at h
  simp only [Host.Outcome.next.injEq] at h
  subst h
  simp
theorem execEngineRun_mem (p : Path) (e : Fin 32) (s : State) {u : State} (h : execEngineRun p e s = .next u) : u.mem = s.mem := by
  unfold execEngineRun at h
  simp only [Host.Outcome.next.injEq] at h
  subst h
  simp
theorem execEngineHalt_mem (p : Path) (e : Fin 32) (s : State) {u : State} (h : execEngineHalt p e s = .next u) : u.mem = s.mem := by
  unfold execEngineHalt at h
  simp only [Host.Outcome.next.injEq] at h
  subst h
  simp
theorem execEngineStep_mem (p : Path) (e : Fin 32) (s : State) {u : State} (h : execEngineStep p e s = .next u) : u.mem = s.mem := by
  unfold execEngineStep at h
  simp only [Host.Outcome.next.injEq] at h
  subst h
  simp
theorem execEngineLoad_mem (p : Path) (e : Fin 32) (s : State) {u : State} (h : execEngineLoad p e s = .next u) : u.mem = s.mem := by
  unfold execEngineLoad at h
  simp only [Host.Outcome.next.injEq] at h
  subst h
  simp
theorem execEngineHalted_mem (e : Fin 32) (s : State) {u : State} (h : execEngineHalted e s = .next u) : u.mem = s.mem := by
  unfold execEngineHalted at h
  simp only [Host.Outcome.next.injEq] at h
  subst h
  simp
theorem execImageInstall_mem (p : Path) (s : State) {u : State} (h : execImageInstall p s = .next u) : u.mem = s.mem := by
  unfold execImageInstall at h
  simp only [Host.Outcome.next.injEq] at h
  subst h
  simp
theorem execImageRemove_mem (p : Path) (s : State) {u : State} (h : execImageRemove p s = .next u) : u.mem = s.mem := by
  unfold execImageRemove at h
  simp only [Host.Outcome.next.injEq] at h
  subst h
  simp
theorem execFacetDbeRestart_mem (f : Fin 8) (s : State) {u : State} (h : execFacetDbeRestart f s = .next u) : u.mem = s.mem := by
  unfold execFacetDbeRestart at h
  simp only [Host.Outcome.next.injEq] at h
  subst h
  simp
theorem execInstanceStop_mem (p : Path) (n : Fin 6) (s : State) {u : State} (h : execInstanceStop p n s = .next u) : u.mem = s.mem := by
  unfold execInstanceStop at h
  simp only [Host.Outcome.next.injEq] at h
  subst h
  simp
theorem execHostLoadGo_mem (p : Path) (v : Word) (s : State) {u : State} (h : execHostLoadGo p v s = .next u) : u.mem = s.mem := by
  unfold execHostLoadGo at h
  simp only [Host.Outcome.next.injEq] at h
  subst h
  simp
theorem execHostLoadVerified_mem (ok : Bool) (s : State) {u : State} (h : execHostLoadVerified ok s = .next u) : u.mem = s.mem := by
  unfold execHostLoadVerified at h
  simp only [Host.Outcome.next.injEq] at h
  subst h
  simp
theorem execLaneBindingWrite_mem (p : Path) (f : Fin 8) (k : Fin 8) (v : Word) (s : State) {u : State} (h : execLaneBindingWrite p f k v s = .next u) : u.mem = s.mem := by
  unfold execLaneBindingWrite at h
  simp only [Host.Outcome.next.injEq] at h
  subst h
  simp
theorem execPciePerstRelease_mem (s : State) {u : State} (h : execPciePerstRelease s = .next u) : u.mem = s.mem := by
  unfold execPciePerstRelease at h
  simp only [Host.Outcome.next.injEq] at h
  subst h
  simp
theorem execPcieLinkUp_mem (width speed : Fin 4) (busMaster msixEnabled : Bool) (s : State) {u : State} (h : execPcieLinkUp width speed busMaster msixEnabled s = .next u) : u.mem = s.mem := by
  unfold execPcieLinkUp at h
  simp only [Host.Outcome.next.injEq] at h
  subst h
  simp
theorem execPcieLinkDown_mem (s : State) {u : State} (h : execPcieLinkDown s = .next u) : u.mem = s.mem := by
  unfold execPcieLinkDown at h
  simp only [Host.Outcome.next.injEq] at h
  subst h
  simp
theorem execMsixUnmask_mem (vec : Fin 64) (s : State) {u : State} (h : execMsixUnmask vec s = .next u) : u.mem = s.mem := by
  unfold execMsixUnmask at h
  simp only [Host.Outcome.next.injEq] at h
  subst h
  simp
theorem execHostDmaTailWrite_mem (p : Path) (k : Fin 8) (v : Word) (s : State) {u : State} (h : execHostDmaTailWrite p k v s = .next u) : u.mem = s.mem := by
  unfold execHostDmaTailWrite at h
  simp only [Host.Outcome.next.injEq] at h
  subst h
  simp
theorem execQspiReadId_mem (s : State) {u : State} (h : execQspiReadId s = .next u) : u.mem = s.mem := by
  unfold execQspiReadId at h
  simp only [Host.Outcome.next.injEq] at h
  subst h
  simp
theorem execQspiReadStatus_mem (s : State) {u : State} (h : execQspiReadStatus s = .next u) : u.mem = s.mem := by
  unfold execQspiReadStatus at h
  simp only [Host.Outcome.next.injEq] at h
  subst h
  simp
theorem execQspiAtomicResult_mem (s : State) {u : State} (h : execQspiAtomicResult s = .next u) : u.mem = s.mem := by
  unfold execQspiAtomicResult at h
  simp only [Host.Outcome.next.injEq] at h
  subst h
  (repeat' split) <;> simp
theorem execQspiResetEnable_mem (s : State) {u : State} (h : execQspiResetEnable s = .next u) : u.mem = s.mem := by
  unfold execQspiResetEnable at h
  simp only [Host.Outcome.next.injEq] at h
  subst h
  simp
theorem execQspiUnknownOpcode_mem (op : Byte) (s : State) {u : State} (h : execQspiUnknownOpcode op s = .next u) : u.mem = s.mem := by
  unfold execQspiUnknownOpcode at h
  simp only [Host.Outcome.next.injEq] at h
  subst h
  simp
theorem execSessionIdleTimeout_mem (ch : Fin 4) (s : State) {u : State} (h : execSessionIdleTimeout ch s = .next u) : u.mem = s.mem := by
  unfold execSessionIdleTimeout at h
  simp only [Host.Outcome.next.injEq] at h
  subst h
  simp
theorem execVddioPresent_mem (bank : Fin 6) (s : State) {u : State} (h : execVddioPresent bank s = .next u) : u.mem = s.mem := by
  unfold execVddioPresent at h
  simp only [Host.Outcome.next.injEq] at h
  subst h
  simp
theorem execAonPowerGood_mem (s : State) {u : State} (h : execAonPowerGood s = .next u) : u.mem = s.mem := by
  unfold execAonPowerGood at h
  simp only [Host.Outcome.next.injEq] at h
  subst h
  simp
theorem execCoreBrownoutRelease_mem (s : State) {u : State} (h : execCoreBrownoutRelease s = .next u) : u.mem = s.mem := by
  unfold execCoreBrownoutRelease at h
  simp only [Host.Outcome.next.injEq] at h
  subst h
  simp
theorem execResetNFall_mem (s : State) {u : State} (h : execResetNFall s = .next u) : u.mem = s.mem := by
  unfold execResetNFall at h
  simp only [Host.Outcome.next.injEq] at h
  subst h
  simp
theorem execResetNPulseIgnored_mem (s : State) {u : State} (h : execResetNPulseIgnored s = .next u) : u.mem = s.mem := by
  unfold execResetNPulseIgnored at h
  simp only [Host.Outcome.next.injEq] at h
  subst h
  simp
theorem execResetNRise_mem (s : State) {u : State} (h : execResetNRise s = .next u) : u.mem = s.mem := by
  unfold execResetNRise at h
  simp only [Host.Outcome.next.injEq] at h
  subst h
  simp
theorem execThermalRelease_mem (s : State) {u : State} (h : execThermalRelease s = .next u) : u.mem = s.mem := by
  unfold execThermalRelease at h
  simp only [Host.Outcome.next.injEq] at h
  subst h
  simp
theorem execHoldRelease_mem (p : Path) (v : Word) (overtaken : Fin 3) (s : State) {u : State} (h : execHoldRelease p v overtaken s = .next u) : u.mem = s.mem := by
  unfold execHoldRelease at h
  simp only [Host.Outcome.next.injEq] at h
  subst h
  simp
theorem execHoldAck_mem (p : Path) (v : Word) (s : State) {u : State} (h : execHoldAck p v s = .next u) : u.mem = s.mem := by
  unfold execHoldAck at h
  simp only [Host.Outcome.next.injEq] at h
  subst h
  simp
theorem execHoldRequest_mem (p : Path) (v : Word) (s : State) {u : State} (h : execHoldRequest p v s = .next u) : u.mem = s.mem := by
  unfold execHoldRequest at h
  simp only [Host.Outcome.next.injEq] at h
  subst h
  simp
theorem execBlockResetComplete_mem (sub : Fin 6) (bit : Fin 32) (s : State) {u : State} (h : execBlockResetComplete sub bit s = .next u) : u.mem = s.mem := by
  unfold execBlockResetComplete at h
  simp only [Host.Outcome.next.injEq] at h
  subst h
  simp
theorem execRimPllLockLost_mem (s : State) {u : State} (h : execRimPllLockLost s = .next u) : u.mem = s.mem := by
  unfold execRimPllLockLost at h
  simp only [Host.Outcome.next.injEq] at h
  subst h
  simp
theorem execRimPllRelock_mem (s : State) {u : State} (h : execRimPllRelock s = .next u) : u.mem = s.mem := by
  unfold execRimPllRelock at h
  simp only [Host.Outcome.next.injEq] at h
  subst h
  simp
theorem execDozeRequest_mem (p : Path) (s : State) {u : State} (h : execDozeRequest p s = .next u) : u.mem = s.mem := by
  unfold execDozeRequest at h
  simp only [Host.Outcome.next.injEq] at h
  subst h
  simp
theorem execStandbyRequest_mem (p : Path) (s : State) {u : State} (h : execStandbyRequest p s = .next u) : u.mem = s.mem := by
  unfold execStandbyRequest at h
  simp only [Host.Outcome.next.injEq] at h
  subst h
  simp
theorem execDozeWakeWrite_mem (p : Path) (s : State) {u : State} (h : execDozeWakeWrite p s = .next u) : u.mem = s.mem := by
  unfold execDozeWakeWrite at h
  simp only [Host.Outcome.next.injEq] at h
  subst h
  simp
theorem execDozeTransitionDone_mem (s : State) {u : State} (h : execDozeTransitionDone s = .next u) : u.mem = s.mem := by
  unfold execDozeTransitionDone at h
  simp only [Host.Outcome.next.injEq] at h
  subst h
  simp
theorem execDozeWakeDone_mem (s : State) {u : State} (h : execDozeWakeDone s = .next u) : u.mem = s.mem := by
  unfold execDozeWakeDone at h
  simp only [Host.Outcome.next.injEq] at h
  subst h
  simp
theorem execStandbyPowerDown_mem (s : State) {u : State} (h : execStandbyPowerDown s = .next u) : u.mem = s.mem := by
  unfold execStandbyPowerDown at h
  simp only [Host.Outcome.next.injEq] at h
  subst h
  simp
theorem execWakeSourceEvent_mem (src : Fin 11) (unit : Fin 64) (rising : Bool) (s : State) {u : State} (h : execWakeSourceEvent src unit rising s = .next u) : u.mem = s.mem := by
  unfold execWakeSourceEvent at h
  simp only [Host.Outcome.next.injEq] at h
  subst h
  simp
theorem execWakeConfigCheck_mem (verified : Bool) (found : Word) (s : State) {u : State} (h : execWakeConfigCheck verified found s = .next u) : u.mem = s.mem := by
  unfold execWakeConfigCheck at h
  simp only [Host.Outcome.next.injEq] at h
  subst h
  simp
theorem execConfigConfirmedWrite_mem (p : Path) (v : Word) (s : State) {u : State} (h : execConfigConfirmedWrite p v s = .next u) : u.mem = s.mem := by
  unfold execConfigConfirmedWrite at h
  simp only [Host.Outcome.next.injEq] at h
  subst h
  simp
theorem execAnswerCacheExpiry_mem (k : Nat) (s : State) {u : State} (h : execAnswerCacheExpiry k s = .next u) : u.mem = s.mem := by
  unfold execAnswerCacheExpiry at h
  simp only [Host.Outcome.next.injEq] at h
  subst h
  simp
theorem execPauseRequestReceived_mem (p : Fin 12) (s : State) {u : State} (h : execPauseRequestReceived p s = .next u) : u.mem = s.mem := by
  unfold execPauseRequestReceived at h
  simp only [Host.Outcome.next.injEq] at h
  subst h
  simp
theorem execPauseExpiry_mem (p : Fin 12) (c : Fin 8) (s : State) {u : State} (h : execPauseExpiry p c s = .next u) : u.mem = s.mem := by
  unfold execPauseExpiry at h
  simp only [Host.Outcome.next.injEq] at h
  subst h
  simp
theorem execPauseRefreshTimer_mem (p : Fin 12) (c : Fin 8) (s : State) {u : State} (h : execPauseRefreshTimer p c s = .next u) : u.mem = s.mem := by
  unfold execPauseRefreshTimer at h
  simp only [Host.Outcome.next.injEq] at h
  subst h
  simp
theorem execPauseWatchdogExpiry_mem (p : Fin 12) (c : Fin 8) (s : State) {u : State} (h : execPauseWatchdogExpiry p c s = .next u) : u.mem = s.mem := by
  unfold execPauseWatchdogExpiry at h
  simp only [Host.Outcome.next.injEq] at h
  subst h
  simp
theorem execPauseResume_mem (q : Path) (p : Fin 12) (v : Word) (s : State) {u : State} (h : execPauseResume q p v s = .next u) : u.mem = s.mem := by
  unfold execPauseResume at h
  simp only [Host.Outcome.next.injEq] at h
  subst h
  simp
theorem execPreemptVerifySend_mem (p : Fin 12) (s : State) {u : State} (h : execPreemptVerifySend p s = .next u) : u.mem = s.mem := by
  unfold execPreemptVerifySend at h
  simp only [Host.Outcome.next.injEq] at h
  subst h
  simp
theorem execPreemptVerifyResponse_mem (p : Fin 12) (s : State) {u : State} (h : execPreemptVerifyResponse p s = .next u) : u.mem = s.mem := by
  unfold execPreemptVerifyResponse at h
  simp only [Host.Outcome.next.injEq] at h
  subst h
  simp
theorem execPreemptVerifyFailed_mem (p : Fin 12) (s : State) {u : State} (h : execPreemptVerifyFailed p s = .next u) : u.mem = s.mem := by
  unfold execPreemptVerifyFailed at h
  simp only [Host.Outcome.next.injEq] at h
  subst h
  simp
theorem execMboxLockRead_mem (p : Path) (ch : Fin 48) (s : State) {u : State} (h : execMboxLockRead p ch s = .next u) : u.mem = s.mem := by
  unfold execMboxLockRead at h
  simp only [Host.Outcome.next.injEq] at h
  subst h
  simp
theorem execMboxLockRelease_mem (p : Path) (ch : Fin 48) (v : Word) (s : State) {u : State} (h : execMboxLockRelease p ch v s = .next u) : u.mem = s.mem := by
  unfold execMboxLockRelease at h
  simp only [Host.Outcome.next.injEq] at h
  subst h
  simp
theorem execMboxPost_mem (p : Path) (ch : Fin 48) (bits : Word) (len : Word) (s : State) {u : State} (h : execMboxPost p ch bits len s = .next u) : u.mem = s.mem := by
  unfold execMboxPost at h
  simp only [Host.Outcome.next.injEq] at h
  subst h
  simp
theorem execMboxDoorbellRead_mem (p : Path) (ch : Fin 48) (s : State) {u : State} (h : execMboxDoorbellRead p ch s = .next u) : u.mem = s.mem := by
  unfold execMboxDoorbellRead at h
  simp only [Host.Outcome.next.injEq] at h
  subst h
  simp
theorem execMboxDoorbellClear_mem (p : Path) (ch : Fin 48) (v : Word) (s : State) {u : State} (h : execMboxDoorbellClear p ch v s = .next u) : u.mem = s.mem := by
  unfold execMboxDoorbellClear at h
  simp only [Host.Outcome.next.injEq] at h
  subst h
  simp
theorem execMboxMaskWrite_mem (p : Path) (ch : Fin 48) (v : Word) (s : State) {u : State} (h : execMboxMaskWrite p ch v s = .next u) : u.mem = s.mem := by
  unfold execMboxMaskWrite at h
  simp only [Host.Outcome.next.injEq] at h
  subst h
  simp
theorem execMboxDiscardZeroed_mem (ch : Fin 48) (s : State) {u : State} (h : execMboxDiscardZeroed ch s = .next u) : u.mem = s.mem := by
  unfold execMboxDiscardZeroed at h
  simp only [Host.Outcome.next.injEq] at h
  subst h
  simp

end Sys2Proof.Machine
end

