-- ==== Sys2Proof/Laws/Tbl.lean ====
section
/-! SUPPORT. Laws of tables: reading after an update, and that every update keeps the canonical form. -/

namespace Sys2Proof.Machine
set_option linter.all false

variable {α : Type}

theorem tblGet_del (d : Nat → α) (k j : Nat) (t : Tbl α) :
    tblGet d j (tblDel k t) = if j = k then d j else tblGet d j t := by
  induction t with
  | nil => simp [tblDel, tblGet]
  | cons p t ih =>
    obtain ⟨i, v⟩ := p
    by_cases h : i = k
    · subst h; by_cases hj : j = i
      · subst hj; simp [tblDel, ih]
      · simp [tblDel, tblGet, ih, hj, Ne.symm hj]
    · by_cases hj : i = j
      · subst hj; simp [tblDel, tblGet, h]
      · simp [tblDel, tblGet, h, hj, ih]

theorem tblGet_ins (d : Nat → α) (k j : Nat) (v : α) (t : Tbl α) (h : ∀ p ∈ t, p.1 ≠ k) :
    tblGet d j (tblIns k v t) = if j = k then v else tblGet d j t := by
  induction t with
  | nil => by_cases hj : k = j
           · simp [tblIns, tblGet, hj]
           · simp [tblIns, tblGet, hj, Ne.symm hj]
  | cons p t ih =>
    obtain ⟨i, w⟩ := p
    have hi : i ≠ k := h (i, w) (by simp)
    have ih := ih (fun q hq => h q (by simp [hq]))
    by_cases hlt : k < i
    · by_cases hj : k = j
      · subst hj; simp [tblIns, tblGet, hlt]
      · simp [tblIns, tblGet, hlt, hj, Ne.symm hj]
    · by_cases hj : i = j
      · subst hj; simp [tblIns, tblGet, hlt, hi]
      · simp [tblIns, tblGet, hlt, hj, ih]

theorem tblDel_keys (k : Nat) (t : Tbl α) : ∀ p ∈ tblDel k t, p.1 ≠ k ∧ p ∈ t := by
  induction t with
  | nil => simp [tblDel]
  | cons q t ih =>
    obtain ⟨i, v⟩ := q
    intro p hp
    by_cases h : i = k
    · simp only [tblDel, h, if_true] at hp
      exact ⟨(ih p hp).1, List.mem_cons_of_mem _ (ih p hp).2⟩
    · simp only [tblDel, h, if_false, List.mem_cons] at hp
      rcases hp with rfl | hp
      · exact ⟨h, by simp⟩
      · exact ⟨(ih p hp).1, List.mem_cons_of_mem _ (ih p hp).2⟩

/-- Reading after a write: the value at the key written, what was there elsewhere. -/
theorem tblGet_set [DecidableEq α] (d : Nat → α) (k j : Nat) (v : α) (t : Tbl α) :
    tblGet d j (tblSet d k v t) = if j = k then v else tblGet d j t := by
  unfold tblSet
  split
  · rename_i h; rw [tblGet_del]; split
    · rename_i hj; rw [hj, h]
    · rfl
  · rw [tblGet_ins _ _ _ _ _ (fun p hp => (tblDel_keys k t p hp).1), tblGet_del]
    split <;> rfl

@[simp] theorem tblGet_set_self [DecidableEq α] (d : Nat → α) (k : Nat) (v : α) (t : Tbl α) :
    tblGet d k (tblSet d k v t) = v := by simp [tblGet_set]

theorem tblGet_set_ne [DecidableEq α] (d : Nat → α) {k j : Nat} (h : j ≠ k) (v : α) (t : Tbl α) :
    tblGet d j (tblSet d k v t) = tblGet d j t := by simp [tblGet_set, h]

theorem tblGet_clear (d : Nat → α) (lo hi j : Nat) (t : Tbl α) :
    tblGet d j (tblClear lo hi t) = if lo ≤ j ∧ j < hi then d j else tblGet d j t := by
  induction t with
  | nil => simp [tblClear, tblGet]
  | cons p t ih =>
    obtain ⟨i, v⟩ := p
    by_cases h : lo ≤ i ∧ i < hi
    · simp only [tblClear, h, and_self, if_true, ih, tblGet]
      by_cases hj : i = j
      · subst hj; simp [h]
      · simp [hj]
    · simp only [tblClear, h, if_false, tblGet, ih]
      by_cases hj : i = j
      · subst hj; simp [h]
      · simp [hj]

theorem tblGet_keep (d : Nat → α) (f : Nat → Bool) (j : Nat) (t : Tbl α) :
    tblGet d j (tblKeep f t) = if f j then tblGet d j t else d j := by
  induction t with
  | nil => simp [tblKeep, tblGet]
  | cons p t ih =>
    obtain ⟨i, v⟩ := p
    by_cases hj : i = j
    · subst hj
      by_cases h : f i = true
      · simp [tblKeep, tblGet, h]
      · simp [tblKeep, h, ih]
    · by_cases h : f i = true
      · simp [tblKeep, tblGet, h, hj, ih]
      · simp [tblKeep, tblGet, h, hj, ih]

/-! ### The canonical form -/

theorem tblRising_mono {a b : Nat} (h : a ≤ b) (t : Tbl α) (ht : tblRising b t = true) : tblRising a t = true := by
  cases t with
  | nil => rfl
  | cons p t =>
    obtain ⟨i, v⟩ := p
    simp only [tblRising, Bool.and_eq_true, decide_eq_true_eq] at ht ⊢
    exact ⟨Nat.le_trans h ht.1, ht.2⟩

theorem tblRising_del (b k : Nat) (t : Tbl α) (h : tblRising b t = true) : tblRising b (tblDel k t) = true := by
  induction t generalizing b with
  | nil => rfl
  | cons p t ih =>
    obtain ⟨i, v⟩ := p
    simp only [tblRising, Bool.and_eq_true, decide_eq_true_eq] at h
    unfold tblDel
    split
    · exact tblRising_mono (by omega) _ (ih _ h.2)
    · simp only [tblRising, Bool.and_eq_true, decide_eq_true_eq]; exact ⟨h.1, ih _ h.2⟩

theorem tblRising_clear (b lo hi : Nat) (t : Tbl α) (h : tblRising b t = true) : tblRising b (tblClear lo hi t) = true := by
  induction t generalizing b with
  | nil => rfl
  | cons p t ih =>
    obtain ⟨i, v⟩ := p
    simp only [tblRising, Bool.and_eq_true, decide_eq_true_eq] at h
    unfold tblClear
    split
    · exact tblRising_mono (by omega) _ (ih _ h.2)
    · simp only [tblRising, Bool.and_eq_true, decide_eq_true_eq]; exact ⟨h.1, ih _ h.2⟩

theorem tblRising_keep (b : Nat) (f : Nat → Bool) (t : Tbl α) (h : tblRising b t = true) : tblRising b (tblKeep f t) = true := by
  induction t generalizing b with
  | nil => rfl
  | cons p t ih =>
    obtain ⟨i, v⟩ := p
    simp only [tblRising, Bool.and_eq_true, decide_eq_true_eq] at h
    unfold tblKeep
    split
    · simp only [tblRising, Bool.and_eq_true, decide_eq_true_eq]; exact ⟨h.1, ih _ h.2⟩
    · exact tblRising_mono (by omega) _ (ih _ h.2)

theorem tblRising_ins (b k : Nat) (v : α) (t : Tbl α) (h : tblRising b t = true) (hb : b ≤ k)
    (hk : ∀ p ∈ t, p.1 ≠ k) : tblRising b (tblIns k v t) = true := by
  induction t generalizing b with
  | nil => simp [tblIns, tblRising, hb]
  | cons p t ih =>
    obtain ⟨i, w⟩ := p
    have hi : i ≠ k := hk (i, w) (by simp)
    simp only [tblRising, Bool.and_eq_true, decide_eq_true_eq] at h
    unfold tblIns
    split
    · rename_i hlt
      simp only [tblRising, Bool.and_eq_true, decide_eq_true_eq]
      exact ⟨hb, by omega, h.2⟩
    · rename_i hlt
      simp only [tblRising, Bool.and_eq_true, decide_eq_true_eq]
      exact ⟨h.1, ih _ h.2 (by omega) (fun q hq => hk q (by simp [hq]))⟩

theorem tblIns_mem (k : Nat) (v : α) (t : Tbl α) : ∀ p ∈ tblIns k v t, p = (k, v) ∨ p ∈ t := by
  induction t with
  | nil => simp [tblIns]
  | cons q t ih =>
    obtain ⟨i, w⟩ := q
    unfold tblIns
    split
    · intro p hp; simpa using hp
    · intro p hp
      rw [List.mem_cons] at hp
      rcases hp with rfl | hp
      · simp
      · rcases ih p hp with h | h
        · exact .inl h
        · exact .inr (List.mem_cons_of_mem _ h)

theorem tblClear_mem (lo hi : Nat) (t : Tbl α) : ∀ p ∈ tblClear lo hi t, p ∈ t := by
  induction t with
  | nil => simp [tblClear]
  | cons q t ih =>
    obtain ⟨i, w⟩ := q
    unfold tblClear
    split
    · exact fun p hp => List.mem_cons_of_mem _ (ih p hp)
    · intro p hp
      rw [List.mem_cons] at hp ⊢
      exact hp.imp id (ih p)

theorem tblKeep_mem (f : Nat → Bool) (t : Tbl α) : ∀ p ∈ tblKeep f t, p ∈ t := by
  induction t with
  | nil => simp [tblKeep]
  | cons q t ih =>
    obtain ⟨i, w⟩ := q
    unfold tblKeep
    split
    · intro p hp
      rw [List.mem_cons] at hp ⊢
      exact hp.imp id (ih p)
    · exact fun p hp => List.mem_cons_of_mem _ (ih p hp)

theorem tblWf_iff [DecidableEq α] (d : Nat → α) (t : Tbl α) :
    tblWf d t = true ↔ tblRising 0 t = true ∧ ∀ p ∈ t, p.2 ≠ d p.1 := by
  simp [tblWf]

/-- A write keeps the canonical form. -/
theorem tblWf_set [DecidableEq α] (d : Nat → α) (k : Nat) (v : α) (t : Tbl α) (h : tblWf d t = true) :
    tblWf d (tblSet d k v t) = true := by
  rw [tblWf_iff] at h ⊢
  unfold tblSet
  split
  · exact ⟨tblRising_del _ _ _ h.1, fun p hp => h.2 p (tblDel_keys k t p hp).2⟩
  · rename_i hv
    refine ⟨tblRising_ins _ _ _ _ (tblRising_del _ _ _ h.1) (Nat.zero_le _) (fun p hp => (tblDel_keys k t p hp).1), ?_⟩
    intro p hp
    rcases tblIns_mem _ _ _ p hp with rfl | hp
    · exact hv
    · exact h.2 p (tblDel_keys k t p hp).2

theorem tblWf_clear [DecidableEq α] (d : Nat → α) (lo hi : Nat) (t : Tbl α) (h : tblWf d t = true) :
    tblWf d (tblClear lo hi t) = true := by
  rw [tblWf_iff] at h ⊢
  exact ⟨tblRising_clear _ _ _ _ h.1, fun p hp => h.2 p (tblClear_mem _ _ _ p hp)⟩

theorem tblWf_keep [DecidableEq α] (d : Nat → α) (f : Nat → Bool) (t : Tbl α) (h : tblWf d t = true) :
    tblWf d (tblKeep f t) = true := by
  rw [tblWf_iff] at h ⊢
  exact ⟨tblRising_keep _ _ _ h.1, fun p hp => h.2 p (tblKeep_mem _ _ p hp)⟩

end Sys2Proof.Machine
end

