-- ==== Sys2Proof/Laws/State.lean ====
section
/-! SUPPORT. What each basic update of State leaves of the other fields, and what the Object Dictionary reads after it:
an object written reads the value written, every other object what it read before. -/

namespace Sys2Proof.Machine
set_option linter.all false

/-! ### Objects after a store -/

theorem State.rd_wrD (s : State) (i j i' j' : Nat) (v : DWord) :
    (s.wrD i j v).rd i' j' = if odKey i' j' = odKey i j then v else s.rd i' j' := tblGet_set _ _ _ _ _

theorem State.rd_wr (s : State) (i j i' j' v : Nat) :
    (s.wr i j v).rd i' j' = if odKey i' j' = odKey i j then BitVec.ofNat 64 v else s.rd i' j' := tblGet_set _ _ _ _ _

theorem State.n_wr (s : State) (i j i' j' v : Nat) :
    (s.wr i j v).n i' j' = if odKey i' j' = odKey i j then v % 2 ^ 64 else s.n i' j' := by
  unfold State.n; rw [State.rd_wr]; split <;> simp

@[simp] theorem State.n_wr_self (s : State) (i j v : Nat) : (s.wr i j v).n i j = v % 2 ^ 64 := by simp [State.n_wr]

theorem State.n_wr_ne (s : State) {i j i' j' : Nat} (v : Nat) (h : odKey i' j' ≠ odKey i j) :
    (s.wr i j v).n i' j' = s.n i' j' := by simp [State.n_wr, h]

theorem State.bit_eq (s : State) (i j b : Nat) : s.bit i j b = bitOf (s.n i j) b := rfl

theorem State.n_lt (s : State) (i j : Nat) : s.n i j < 2 ^ 64 := (s.rd i j).isLt

theorem State.n_setBits (s : State) (i j m i' j' : Nat) (hm : m < 2 ^ 64) :
    (s.setBits i j m).n i' j' = if odKey i' j' = odKey i j then s.n i j ||| m else s.n i' j' := by
  unfold State.setBits; rw [State.n_wr, Nat.mod_eq_of_lt (Nat.or_lt_two_pow (s.n_lt i j) hm)]

theorem State.n_clrBits (s : State) (i j m i' j' : Nat) :
    (s.clrBits i j m).n i' j' = if odKey i' j' = odKey i j then s.n i j - (s.n i j &&& m) else s.n i' j' := by
  unfold State.clrBits
  rw [State.n_wr, Nat.mod_eq_of_lt (Nat.lt_of_le_of_lt (Nat.sub_le _ _) (s.n_lt i j))]

/-! ### Routing, events, counters and records leave every object that they do not name -/

theorem routeKey_of (r : Nat) (h : r ≤ 0x2F) : routeKey (odKey (0x2F00 + r) 2) ∧ routeKey (odKey (0x2F00 + r) 3) := by
  unfold routeKey odKey; omega

theorem ite_le' {c : Prop} [Decidable c] {a b n : Nat} (h1 : c → a ≤ n) (h2 : ¬ c → b ≤ n) : (if c then a else b) ≤ n := by
  split
  · exact h1 ‹_›
  · exact h2 ‹_›

theorem routeOf_le (i : Nat) : routeOf i ≤ 0x2E := by
  unfold routeOf
  repeat (refine ite_le' (fun h => ?_) (fun _ => ?_); · omega)
  omega

@[simp] theorem State.rd_emit (s : State) (o : Out) (i j : Nat) : (s.emit o).rd i j = s.rd i j := rfl
@[simp] theorem State.n_emit (s : State) (o : Out) (i j : Nat) : (s.emit o).n i j = s.n i j := rfl
@[simp] theorem State.n_tick (s : State) (i j : Nat) : (s.tick).n i j = s.n i j := rfl
@[simp] theorem State.n_setEngine (s : State) (c : Nat) (x : Engine) (i j : Nat) : (s.setEngine c x).n i j = s.n i j := rfl
@[simp] theorem State.n_setChan (s : State) (c : Nat) (x : Mbox) (i j : Nat) : (s.setChan c x).n i j = s.n i j := rfl
@[simp] theorem State.n_setPort (s : State) (c : Nat) (x : Port) (i j : Nat) : (s.setPort c x).n i j = s.n i j := rfl
@[simp] theorem State.n_setTdom (s : State) (c : Nat) (x : TimeDom) (i j : Nat) : (s.setTdom c x).n i j = s.n i j := rfl
@[simp] theorem State.n_setLaunch (s : State) (c : Nat) (x : Launch) (i j : Nat) : (s.setLaunch c x).n i j = s.n i j := rfl
@[simp] theorem State.n_setRing (s : State) (c : Nat) (x : Ring) (i j : Nat) : (s.setRing c x).n i j = s.n i j := rfl
@[simp] theorem State.n_setTrack (s : State) (c : Nat) (x : Track) (i j : Nat) : (s.setTrack c x).n i j = s.n i j := rfl
@[simp] theorem State.n_setInst (s : State) (c : Nat) (x : Inst) (i j : Nat) : (s.setInst c x).n i j = s.n i j := rfl
@[simp] theorem State.n_setByte (s : State) (a : Nat) (b : Byte) (i j : Nat) : (s.setByte a b).n i j = s.n i j := rfl
@[simp] theorem State.n_zeroRange (s : State) (a b : Nat) (i j : Nat) : (s.zeroRange a b).n i j = s.n i j := rfl
@[simp] theorem State.n_setDbe (s : State) (a : Nat) (b : Bool) (i j : Nat) : (s.setDbe a b).n i j = s.n i j := rfl
@[simp] theorem State.n_setSbe (s : State) (a : Nat) (b : Bool) (i j : Nat) : (s.setSbe a b).n i j = s.n i j := rfl
@[simp] theorem State.n_evpSet (s : State) (c b : Nat) (i j : Nat) : (s.evpSet c b).n i j = s.n i j := rfl

@[simp] theorem State.n_setBytes (s : State) (a : Nat) (d : List Byte) (i j : Nat) : (s.setBytes a d).n i j = s.n i j := by
  induction d generalizing s a with
  | nil => rfl
  | cons b t ih => simp [State.setBytes, ih]

@[simp] theorem State.n_msix (s : State) (v i j : Nat) : (s.msix v).n i j = s.n i j := by
  unfold State.msix; repeat' split
  all_goals rfl

theorem State.n_notify (s : State) (r i j : Nat) (h : ¬ routeKey (odKey i j)) (hr : r ≤ 0x2F) : (s.notify r).n i j = s.n i j := by
  have h3 : odKey i j ≠ odKey (0x2F00 + r) 3 := fun e => h (by rw [e]; exact (routeKey_of r hr).2)
  unfold State.notify
  dsimp only
  rw [State.n_wr_ne _ _ h3]
  split <;> split <;> split <;> simp

theorem State.n_route (s : State) (r : Nat) (w : Bool) (i j : Nat) (h : ¬ routeKey (odKey i j)) (hr : r ≤ 0x2F) :
    (s.route r w).n i j = s.n i j := by
  have h2 : odKey i j ≠ odKey (0x2F00 + r) 2 := fun e => h (by rw [e]; exact (routeKey_of r hr).1)
  unfold State.route
  dsimp only
  split
  · rw [State.n_notify _ _ _ _ h hr, State.n_wr_ne _ _ h2]
  · rw [State.n_wr_ne _ _ h2]

/-- An event sets its bits and nothing else outside the routing entry (R65, R68). -/
theorem State.n_event (s : State) (i j m i' j' : Nat) (h : ¬ routeKey (odKey i' j')) (hm : m < 2 ^ 64) :
    (s.event i j m).n i' j' = if odKey i' j' = odKey i j then s.n i j ||| m else s.n i' j' := by
  unfold State.event
  rw [State.n_route _ _ _ _ _ h (Nat.le_trans (routeOf_le i) (by decide)), State.n_setBits _ _ _ _ _ _ hm]

theorem State.n_event_ne (s : State) (i j m i' j' : Nat) (h : ¬ routeKey (odKey i' j')) (hk : odKey i' j' ≠ odKey i j) :
    (s.event i j m).n i' j' = s.n i' j' := by
  unfold State.event
  rw [State.n_route _ _ _ _ _ h (Nat.le_trans (routeOf_le i) (by decide))]
  unfold State.setBits; rw [State.n_wr_ne _ _ hk]

theorem State.n_addW (s : State) (i j w k i' j' : Nat) (hw : w ≤ 64) :
    (s.addW i j w k).n i' j' = if odKey i' j' = odKey i j then (s.n i j + k) % 2 ^ w else s.n i' j' := by
  unfold State.addW
  rw [State.n_wr, Nat.mod_eq_of_lt (Nat.lt_of_lt_of_le (Nat.mod_lt _ (Nat.two_pow_pos w)) (Nat.pow_le_pow_right (by decide) hw))]

/-- A [W] counter counts one and wraps (R60); no other object changes. -/
theorem State.n_cnt (s : State) (i j i' j' : Nat) :
    (s.cnt i j).n i' j' = if odKey i' j' = odKey i j then (s.n i j + 1) % 2 ^ 32 else s.n i' j' :=
  s.n_addW i j 32 1 i' j' (by decide)

theorem State.n_cntS (s : State) (i j i' j' : Nat) :
    (s.cntS i j).n i' j' = if odKey i' j' = odKey i j then min (s.n i j + 1) (2 ^ 32 - 1) else s.n i' j' := by
  unfold State.cntS
  rw [State.n_wr, Nat.mod_eq_of_lt (Nat.lt_of_le_of_lt (Nat.min_le_right _ _) (by decide))]

theorem State.n_addH_ne (s : State) (i j w k ei ej i' j' : Nat) (h : ¬ routeKey (odKey i' j')) (h1 : odKey i' j' ≠ odKey i j)
    (h2 : odKey i' j' ≠ odKey ei ej) : (s.addH i j w k ei ej).n i' j' = s.n i' j' := by
  unfold State.addH
  dsimp only
  split
  · rw [State.n_event_ne _ _ _ _ _ _ h h2, State.n_wr_ne _ _ h1]
  · rw [State.n_wr_ne _ _ h1]

/-- A violation counts in the master's entry and nowhere else (R50, R51). -/
theorem State.n_violate (s : State) (id i j : Nat) :
    (s.violate id).n i j = if 1 ≤ id ∧ id ≤ 42 ∧ odKey i j = odKey 0x2E20 id then (s.n 0x2E20 id + 1) % 2 ^ 32 else s.n i j := by
  unfold State.violate
  by_cases h : 1 ≤ id ∧ id ≤ 42
  · rw [if_pos h, State.n_cnt]; simp [h]
  · rw [if_neg h, if_neg (fun x => h ⟨x.1, x.2.1⟩)]

theorem State.n_foldl {α : Type} (f : State → α → State) (i j : Nat) (h : ∀ s a, (f s a).n i j = s.n i j) (l : List α) (s : State) :
    (l.foldl f s).n i j = s.n i j := by
  induction l generalizing s with
  | nil => rfl
  | cons x l ih => rw [List.foldl_cons, ih, h]

theorem State.n_foldl' {α : Type} {f : State → α → State} {i j : Nat} {l : List α}
    (h : ∀ s a, a ∈ l → (f s a).n i j = s.n i j) (s : State) : (l.foldl f s).n i j = s.n i j := by
  induction l generalizing s with
  | nil => rfl
  | cons x l ih =>
    rw [List.foldl_cons, ih (fun s a ha => h s a (List.mem_cons_of_mem _ ha)), h _ _ (List.mem_cons_self ..)]

theorem State.n_showAllowances (s : State) (i j : Nat) (h : odKey i j / 256 ≠ 0x2D00) :
    s.showAllowances.n i j = s.n i j := by
  unfold State.showAllowances
  rw [State.n_foldl' (fun t k hk => State.n_wr_ne t _ ?_)]
  have hk := List.mem_range.mp hk
  intro e
  apply h
  rw [e]
  unfold odKey
  omega

/-- A record changes only the recorder's own objects and their routing entry (R514, R517, R518). -/
theorem State.n_admit (s : State) (r : Rec) (i j : Nat) (h : odKey i j / 256 ≠ 0x2D00) (hr : ¬ routeKey (odKey i j))
    (ht : r.typ < 0xF000) : (s.admitRec r).n i j = s.n i j := by
  have hk : ∀ x, x < 256 → odKey i j ≠ odKey 0x2D00 x := fun x hx e => h (by rw [e]; unfold odKey; omega)
  unfold State.admitRec
  dsimp only
  split
  · rw [State.n_cntS, if_neg (hk _ (by decide))]
  · split
    · rw [State.n_event_ne _ _ _ _ _ _ hr (hk _ (by decide)), State.n_cntS]
      exact if_neg (hk _ (by omega))
    · split
      · rw [State.n_event_ne _ _ _ _ _ _ hr (hk _ (by decide)), State.n_cntS, if_neg (hk _ (by decide)),
          State.n_wr_ne _ _ (hk _ (by decide))]
      · split
        · rw [State.n_cntS, if_neg (hk _ (by decide))]
        · rw [State.n_showAllowances _ _ _ h]; rfl

theorem State.n_record (s : State) (typ : Nat) (b : List Byte) (i j : Nat) (h : odKey i j / 256 ≠ 0x2D00)
    (hr : ¬ routeKey (odKey i j)) (ht : typ < 0xF000) : (s.record typ b).n i j = s.n i j := by
  unfold State.record
  dsimp only
  split
  · split
    · rw [State.n_cntS, if_neg (fun e => h (by rw [e]; rfl))]
    · rfl
  · exact State.n_admit _ _ _ _ h hr ht

end Sys2Proof.Machine
end

