-- ==== Sys2Proof/Laws/Objects.lean ====
section
/-! SUPPORT. What an object reads after each named operation, as rewriting rules: the object that the operation names, and every
other object (its key differs; routing entries are set apart by `routeKey`). -/

namespace Sys2Proof.Machine
set_option linter.all false

theorem bitOf_testBit (n i : Nat) : bitOf n i = n.testBit i := by
  unfold bitOf; rw [Nat.testBit_eq_decide_div_mod_eq]; rfl

theorem bitOf_or (a b i : Nat) : bitOf (a ||| b) i = (bitOf a i || bitOf b i) := by
  simp [bitOf_testBit, Nat.testBit_or]

theorem bitOf_and (a b i : Nat) : bitOf (a &&& b) i = (bitOf a i && bitOf b i) := by
  simp [bitOf_testBit, Nat.testBit_and]

theorem bitOf_pow (i j : Nat) : bitOf (2 ^ i) j = decide (i = j) := by
  rw [bitOf_testBit]; exact Nat.testBit_two_pow ..

theorem sub_and_testBit (a m i : Nat) : (a - (a &&& m)).testBit i = (a.testBit i && !m.testBit i) := by
  induction i generalizing a m with
  | zero =>
    have h1 : (a &&& m) / 2 = a / 2 &&& m / 2 := Nat.and_div_two
    have h2 : (a &&& m) % 2 = a % 2 &&& m % 2 := by simpa using Nat.and_mod_two_pow (a := a) (b := m) (n := 1)
    have h3 : a / 2 &&& m / 2 ≤ a / 2 := Nat.and_le_left
    simp only [Nat.testBit_zero]
    have ha : a % 2 = 0 ∨ a % 2 = 1 := by omega
    have hm : m % 2 = 0 ∨ m % 2 = 1 := by omega
    have h4 : (a - (a &&& m)) % 2 = (a % 2) * (1 - m % 2) := by
      rcases ha with ha | ha <;> rcases hm with hm | hm <;> rw [ha, hm] at h2 <;> rw [ha, hm] <;> simp only [Nat.and_self, Nat.zero_and, Nat.and_zero] at h2 <;> omega
    rw [h4]
    rcases ha with ha | ha <;> rcases hm with hm | hm <;> simp [ha, hm]
  | succ i ih =>
    have h1 : (a &&& m) / 2 = a / 2 &&& m / 2 := Nat.and_div_two
    have h2 : (a &&& m) % 2 = a % 2 &&& m % 2 := by simpa using Nat.and_mod_two_pow (a := a) (b := m) (n := 1)
    have h3 : a % 2 &&& m % 2 ≤ a % 2 := Nat.and_le_left
    have h4 : (a - (a &&& m)) / 2 = a / 2 - (a / 2 &&& m / 2) := by omega
    rw [Nat.testBit_succ, h4, ih, Nat.testBit_succ, Nat.testBit_succ]

theorem bitOf_sub_and (a m i : Nat) : bitOf (a - (a &&& m)) i = (bitOf a i && !bitOf m i) := by
  simp [bitOf_testBit, sub_and_testBit]

/-! ### A field set in place leaves the objects and the bytes -/

variable (s : State)

@[simp] theorem State.n_same {x0 x1 x2 x4 x5 x6 x7 x8 x9 x10 x11 x12 x13 x14 x15 x16 x17 x18 x19 x20 x21 x22 x23 x24 x25 x26 x27 x28 x29 x30 x31 x32} (i j : Nat) : (State.mk x0 x1 x2 s.od x4 x5 x6 x7 x8 x9 x10 x11 x12 x13 x14 x15 x16 x17 x18 x19 x20 x21 x22 x23 x24 x25 x26 x27 x28 x29 x30 x31 x32).n i j = s.n i j := rfl
@[simp] theorem State.rd_same {x0 x1 x2 x4 x5 x6 x7 x8 x9 x10 x11 x12 x13 x14 x15 x16 x17 x18 x19 x20 x21 x22 x23 x24 x25 x26 x27 x28 x29 x30 x31 x32} (i j : Nat) : (State.mk x0 x1 x2 s.od x4 x5 x6 x7 x8 x9 x10 x11 x12 x13 x14 x15 x16 x17 x18 x19 x20 x21 x22 x23 x24 x25 x26 x27 x28 x29 x30 x31 x32).rd i j = s.rd i j := rfl
@[simp] theorem State.byte_same {x0 x1 x2 x3 x5 x6 x7 x8 x9 x10 x11 x12 x13 x14 x15 x16 x17 x18 x19 x20 x21 x22 x23 x24 x25 x26 x27 x28 x29 x30 x31 x32} (a : Nat) : (State.mk x0 x1 x2 x3 s.mem x5 x6 x7 x8 x9 x10 x11 x12 x13 x14 x15 x16 x17 x18 x19 x20 x21 x22 x23 x24 x25 x26 x27 x28 x29 x30 x31 x32).byte a = s.byte a := rfl

/-! ### Accepted and refused writes -/

theorem State.guard_ok {p : Path} {i j v : Nat} {f : State → State} (h : s.writeOk p i j v = true) : s.guard p i j v f = f s :=
  if_pos h

theorem State.guard_refused {p : Path} {i j v : Nat} {f : State → State} (h : s.writeOk p i j v = false) :
    s.guard p i j v f = s.violate p.id.val := by
  unfold State.guard; rw [h]; rfl

/-! ### Objects after each operation -/

theorem State.n_wrD_self (i j : Nat) (v : DWord) : (s.wrD i j v).n i j = v.toNat := by
  unfold State.n; rw [State.rd_wrD, if_pos rfl]

theorem State.n_wrD_ne {i j i' j' : Nat} (v : DWord) (h : odKey i' j' ≠ odKey i j) : (s.wrD i j v).n i' j' = s.n i' j' := by
  unfold State.n; rw [State.rd_wrD, if_neg h]

theorem State.rd_wr_ne {i j i' j' : Nat} (v : Nat) (h : odKey i' j' ≠ odKey i j) : (s.wr i j v).rd i' j' = s.rd i' j' := by
  rw [State.rd_wr, if_neg h]

theorem State.n_setBits_self {i j m : Nat} (hm : m < 2 ^ 64) : (s.setBits i j m).n i j = s.n i j ||| m := by
  rw [State.n_setBits _ _ _ _ _ _ hm, if_pos rfl]

theorem State.n_setBits_ne {i j i' j' : Nat} (m : Nat) (h : odKey i' j' ≠ odKey i j) : (s.setBits i j m).n i' j' = s.n i' j' := by
  unfold State.setBits; exact s.n_wr_ne _ h

theorem State.n_clrBits_self (i j m : Nat) : (s.clrBits i j m).n i j = s.n i j - (s.n i j &&& m) := by
  rw [State.n_clrBits, if_pos rfl]

theorem State.n_clrBits_ne {i j i' j' : Nat} (m : Nat) (h : odKey i' j' ≠ odKey i j) : (s.clrBits i j m).n i' j' = s.n i' j' := by
  rw [State.n_clrBits, if_neg h]

theorem State.n_putBits_ne {i j i' j' : Nat} (m : Nat) (b : Bool) (h : odKey i' j' ≠ odKey i j) :
    (s.putBits i j m b).n i' j' = s.n i' j' := by
  unfold State.putBits; split
  · exact s.n_setBits_ne m h
  · exact s.n_clrBits_ne m h

theorem State.n_setBit_self {i j b : Nat} (hb : b < 64) : (s.setBit i j b).n i j = s.n i j ||| 2 ^ b :=
  s.n_setBits_self (Nat.pow_lt_pow_right (by decide) hb)

theorem State.n_setBit_ne {i j i' j' : Nat} (b : Nat) (h : odKey i' j' ≠ odKey i j) : (s.setBit i j b).n i' j' = s.n i' j' :=
  s.n_setBits_ne _ h

theorem State.n_event_self {i j m : Nat} (h : ¬ routeKey (odKey i j)) (hm : m < 2 ^ 64) :
    (s.event i j m).n i j = s.n i j ||| m := by rw [State.n_event _ _ _ _ _ _ h hm, if_pos rfl]

theorem State.n_addW_self {i j w : Nat} (k : Nat) (hw : w ≤ 64) : (s.addW i j w k).n i j = (s.n i j + k) % 2 ^ w := by
  rw [State.n_addW _ _ _ _ _ _ _ hw, if_pos rfl]

theorem State.n_addW_ne {i j i' j' : Nat} (w k : Nat) (h : odKey i' j' ≠ odKey i j) : (s.addW i j w k).n i' j' = s.n i' j' := by
  unfold State.addW; exact s.n_wr_ne _ h

theorem State.n_cnt_self (i j : Nat) : (s.cnt i j).n i j = (s.n i j + 1) % 2 ^ 32 := by rw [State.n_cnt, if_pos rfl]

theorem State.n_cnt_ne {i j i' j' : Nat} (h : odKey i' j' ≠ odKey i j) : (s.cnt i j).n i' j' = s.n i' j' := by
  rw [State.n_cnt, if_neg h]

theorem State.n_cntS_self (i j : Nat) : (s.cntS i j).n i j = min (s.n i j + 1) (2 ^ 32 - 1) := by rw [State.n_cntS, if_pos rfl]

theorem State.n_cntS_ne {i j i' j' : Nat} (h : odKey i' j' ≠ odKey i j) : (s.cntS i j).n i' j' = s.n i' j' := by
  rw [State.n_cntS, if_neg h]

/-- An [H] counter counts and wraps (R61); the event at half range goes to another object. -/
theorem State.n_addH_self {i j w : Nat} (k : Nat) {ei ej : Nat} (hr : ¬ routeKey (odKey i j)) (he : odKey i j ≠ odKey ei ej)
    (hw : w ≤ 64) : (s.addH i j w k ei ej).n i j = (s.n i j + k) % 2 ^ w := by
  unfold State.addH
  dsimp only
  have h : (s.n i j + k) % 2 ^ w % 2 ^ 64 = (s.n i j + k) % 2 ^ w :=
    Nat.mod_eq_of_lt (Nat.lt_of_lt_of_le (Nat.mod_lt _ (Nat.two_pow_pos w)) (Nat.pow_le_pow_right (by decide) hw))
  split
  · rw [State.n_event_ne _ _ _ _ _ _ hr he, State.n_wr_self, h]
  · rw [State.n_wr_self, h]

theorem State.n_cntH_self {i j ei ej : Nat} (hr : ¬ routeKey (odKey i j)) (he : odKey i j ≠ odKey ei ej) :
    (s.cntH i j ei ej).n i j = (s.n i j + 1) % 2 ^ 32 := s.n_addH_self 1 hr he (by decide)

theorem State.n_cntH_ne {i j ei ej i' j' : Nat} (h : ¬ routeKey (odKey i' j')) (h1 : odKey i' j' ≠ odKey i j)
    (h2 : odKey i' j' ≠ odKey ei ej) : (s.cntH i j ei ej).n i' j' = s.n i' j' :=
  s.n_addH_ne _ _ _ _ _ _ _ _ h h1 h2

theorem State.n_violate_ne {id i j : Nat} (h : odKey i j ≠ odKey 0x2E20 id) : (s.violate id).n i j = s.n i j := by
  rw [State.n_violate, if_neg (fun x => h x.2.2)]

/-! ### HOLD_N, device state and 0x1001 -/

theorem State.n_holdLow_pin : s.holdLow.n 0x2001 1 = if s.n 0x2001 1 = 1 then 0 else s.n 0x2001 1 := by
  unfold State.holdLow
  split
  · rw [State.n_event_ne _ _ _ _ _ _ (by decide) (by decide), State.n_wr_self]; try rfl
  · rfl

theorem State.n_holdLow_ne {i j : Nat} (hr : ¬ routeKey (odKey i j)) (h1 : odKey i j ≠ odKey 0x2001 1)
    (h2 : odKey i j ≠ odKey 0x2000 5) : s.holdLow.n i j = s.n i j := by
  unfold State.holdLow
  split
  · rw [State.n_event_ne _ _ _ _ _ _ hr h2, State.n_wr_ne _ _ h1]
  · rfl

/-- A hold sets its reasons. -/
theorem State.n_hold_reason {m : Nat} (hm : m < 2 ^ 64) : (s.hold m).n 0x2001 2 = s.n 0x2001 2 ||| m := by
  unfold State.hold
  rw [State.n_holdLow_ne _ (by decide) (by decide) (by decide), State.n_setBits_self _ hm]

/-- A hold leaves HOLD_N low: 0 where it was 1. -/
theorem State.n_hold_pin (m : Nat) : (s.hold m).n 0x2001 1 = if s.n 0x2001 1 = 1 then 0 else s.n 0x2001 1 := by
  unfold State.hold
  rw [State.n_holdLow_pin, State.n_setBits_ne _ _ (by decide)]

theorem State.n_hold_ne {i j : Nat} (m : Nat) (hr : ¬ routeKey (odKey i j)) (h1 : odKey i j ≠ odKey 0x2001 1)
    (h2 : odKey i j ≠ odKey 0x2001 2) (h3 : odKey i j ≠ odKey 0x2000 5) : (s.hold m).n i j = s.n i j := by
  unfold State.hold
  rw [State.n_holdLow_ne _ hr h1 h3, State.n_setBits_ne _ _ h2]

theorem State.n_unhold_self (m : Nat) : (s.unhold m).n 0x2001 2 = s.n 0x2001 2 - (s.n 0x2001 2 &&& m) := s.n_clrBits_self _ _ _

theorem State.n_unhold_ne {i j : Nat} (m : Nat) (h : odKey i j ≠ odKey 0x2001 2) : (s.unhold m).n i j = s.n i j :=
  s.n_clrBits_ne m h

theorem State.n_enter_self {st : Nat} (h : st < 2 ^ 64) : (s.enter st).n 0x2000 1 = st := by
  unfold State.enter
  split
  · rename_i e; exact e
  · rw [State.n_event_ne _ _ _ _ _ _ (by decide) (by decide), State.n_wr_self, Nat.mod_eq_of_lt h]

theorem State.n_enter_ne {i j : Nat} (st : Nat) (hr : ¬ routeKey (odKey i j)) (h1 : odKey i j ≠ odKey 0x2000 1)
    (h2 : odKey i j ≠ odKey 0x2000 5) : (s.enter st).n i j = s.n i j := by
  unfold State.enter
  split
  · rfl
  · rw [State.n_event_ne _ _ _ _ _ _ hr h2, State.n_wr_ne _ _ h1]

theorem State.n_errBit_ne {i j : Nat} (b : Nat) (on : Bool) (h : odKey i j ≠ odKey 0x1001 0) : (s.errBit b on).n i j = s.n i j := by
  unfold State.errBit State.errGeneric
  dsimp only
  rw [State.n_wr_ne _ _ h, State.n_putBits_ne _ _ _ h]

/-! ### Bytes -/

theorem State.byte_congr {t : State} (h : t.mem = s.mem) (a : Nat) : t.byte a = s.byte a := by unfold State.byte; rw [h]

theorem State.byte_setByte (a b : Nat) (v : Byte) : (s.setByte a v).byte b = if b = a then v else s.byte b := tblGet_set _ _ _ _ _

theorem State.bytes_congr {t : State} {a n : Nat} (h : ∀ b, a ≤ b → b < a + n → t.byte b = s.byte b) : t.bytes a n = s.bytes a n := by
  induction n generalizing a with
  | zero => rfl
  | succ n ih =>
    simp only [State.bytes]
    rw [h a (Nat.le_refl _) (by omega), ih (fun b h1 h2 => h b (by omega) (by omega))]

theorem State.byte_setBytes (a b : Nat) (d : List Byte) :
    (s.setBytes a d).byte b = if a ≤ b ∧ b < a + d.length then d.getD (b - a) 0 else s.byte b := by
  induction d generalizing s a with
  | nil => simp [State.setBytes] <;> omega
  | cons x l ih =>
    rw [State.setBytes, ih, State.byte_setByte]
    by_cases h1 : b = a
    · subst h1; rw [if_neg (by omega), if_pos rfl, if_pos (by simp)]; try simp
    · by_cases h2 : a + 1 ≤ b ∧ b < a + 1 + l.length
      · rw [if_pos h2, if_pos (by simp; omega)]
        have : b - a = (b - (a + 1)) + 1 := by omega
        rw [this]; simp
      · rw [if_neg h2, if_neg h1, if_neg (by simp; omega)]

theorem State.bytes_setBytes (a : Nat) (d : List Byte) : (s.setBytes a d).bytes a d.length = d := by
  induction d generalizing s a with
  | nil => rfl
  | cons x l ih =>
    simp only [List.length_cons, State.bytes, State.setBytes]
    rw [ih, State.byte_setBytes, if_neg (by omega), State.byte_setByte, if_pos rfl]

end Sys2Proof.Machine
end

