-- ==== Sys2Proof/Laws/Engines.lean ====
section
/-! SUPPORT. What every engine instruction shares: the fetch, the completion, and the frame of an instruction that writes registers and flags. -/

set_option maxRecDepth 4000
set_option linter.all false

namespace Sys2Proof.Machine

theorem State.runOp_go {s : State} {c : Fin 33} {o : EOp} {w : Word} {f : State → Word → State} (h : Executes s c o w) :
    s.runOp c o f = f s w := by
  obtain ⟨h1, h2, _, h3, h4, h5, h6, h7⟩ := h
  unfold State.runOp State.runs
  simp only [h1, h2, h3, h4, h5, h6]
  have : ((c.val = 32) : Prop) = (c = 32) := by
    apply propext; constructor
    · intro e; exact Fin.ext e
    · intro e; rw [e]; rfl
  simp only [this, h7]
  simp

theorem State.setEngine_engine (s : State) (c e : Nat) (g : Engine) : (s.setEngine c g).engine e = if e = c then g else s.engine e := tblGet_set _ _ _ _ _

theorem State.engine_congr {s t : State} (h : t.eng = s.eng) (e : Nat) : t.engine e = s.engine e := by unfold State.engine; rw [h]

theorem State.finish_spec (s : State) (c : Fin 33) (pc : Nat) (hc : s.coreState c = 1) (hp : pc < 2 ^ 64) :
    (s.finish c pc).pc c = pc ∧ (s.finish c pc).coreState c = (if (s.engine c).haltWhy = 7 then 2 else 1) ∧
    (∀ e, (s.finish c pc).engine e = if e = c.val then { s.engine c with waiting := .none } else s.engine e) ∧
    ObjectsKept s (s.finish c pc) [(coreIdx c, 1), (coreIdx c, 5)] ∧ (s.finish c pc).mem = s.mem := by
  have he : ∀ e, (s.setPc c pc).engine e = s.engine e := fun e => State.engine_congr (by simp [State.setPc]) e
  have hcs : ∀ g, ((s.setPc c pc).setEngine c g).coreState c = 1 := by
    intro g
    unfold State.coreState State.setPc State.setEngine at *; (simp (disch := first | assumption | decide | (unfold odKey at *; omega) | (unfold routeKey odKey at *; omega) | omega) only [State.n_wr_self, State.n_wrD_self, State.n_setBits_self, State.n_clrBits_self, State.n_setBit_self, State.n_event_self, State.n_addW_self, State.n_cnt_self, State.n_cntS_self, State.n_addH_self, State.n_cntH_self, State.n_hold_reason, State.n_hold_pin, State.n_unhold_self, State.n_enter_self, State.n_wr_ne, State.n_wrD_ne, State.n_setBits_ne, State.n_clrBits_ne, State.n_putBits_ne, State.n_setBit_ne, State.n_event_ne, State.n_addW_ne, State.n_cnt_ne, State.n_cntS_ne, State.n_addH_ne, State.n_cntH_ne, State.n_violate_ne, State.n_hold_ne, State.n_unhold_ne, State.n_enter_ne, State.n_errBit_ne, State.n_record, State.n_same]); exact hc
  have hf : s.finish c pc = if (s.engine c).haltWhy = 7 then ((s.setPc c pc).setEngine c { s.engine c with waiting := .none }).setCoreState c 2
      else (s.setPc c pc).setEngine c { s.engine c with waiting := .none } := by
    unfold State.finish
    dsimp only
    rw [hcs, State.setEngine_engine, if_pos rfl]
    simp
  rw [hf]
  split
  · refine ⟨?_, ?_, ?_, ?_, by simp [State.setPc, State.setCoreState]⟩
    · unfold State.pc State.setCoreState State.setEngine State.setPc; (simp (disch := first | assumption | decide | (unfold odKey at *; omega) | (unfold routeKey odKey at *; omega) | omega) only [State.n_wr_self, State.n_wrD_self, State.n_setBits_self, State.n_clrBits_self, State.n_setBit_self, State.n_event_self, State.n_addW_self, State.n_cnt_self, State.n_cntS_self, State.n_addH_self, State.n_cntH_self, State.n_hold_reason, State.n_hold_pin, State.n_unhold_self, State.n_enter_self, State.n_wr_ne, State.n_wrD_ne, State.n_setBits_ne, State.n_clrBits_ne, State.n_putBits_ne, State.n_setBit_ne, State.n_event_ne, State.n_addW_ne, State.n_cnt_ne, State.n_cntS_ne, State.n_addH_ne, State.n_cntH_ne, State.n_violate_ne, State.n_hold_ne, State.n_unhold_ne, State.n_enter_ne, State.n_errBit_ne, State.n_record, State.n_same]); exact Nat.mod_eq_of_lt hp
    · unfold State.coreState State.setCoreState; (simp (disch := first | assumption | decide | (unfold odKey at *; omega) | (unfold routeKey odKey at *; omega) | omega) only [State.n_wr_self, State.n_wrD_self, State.n_setBits_self, State.n_clrBits_self, State.n_setBit_self, State.n_event_self, State.n_addW_self, State.n_cnt_self, State.n_cntS_self, State.n_addH_self, State.n_cntH_self, State.n_hold_reason, State.n_hold_pin, State.n_unhold_self, State.n_enter_self, State.n_wr_ne, State.n_wrD_ne, State.n_setBits_ne, State.n_clrBits_ne, State.n_putBits_ne, State.n_setBit_ne, State.n_event_ne, State.n_addW_ne, State.n_cnt_ne, State.n_cntS_ne, State.n_addH_ne, State.n_cntH_ne, State.n_violate_ne, State.n_hold_ne, State.n_unhold_ne, State.n_enter_ne, State.n_errBit_ne, State.n_record, State.n_same]); try rfl
    · intro e
      rw [State.engine_congr (s := ((s.setPc c pc).setEngine c { s.engine c with waiting := .none })) (by simp [State.setCoreState]) e, State.setEngine_engine, he]
    · unfold State.setCoreState State.setEngine State.setPc; (intro i j hr hk; simp only [List.mem_cons, List.not_mem_nil, or_false, forall_eq_or_imp, forall_eq] at hk; (try obtain ⟨_, _⟩ := hk); simp (disch := first | assumption | decide | (unfold odKey at *; omega) | (unfold routeKey odKey at *; omega) | omega) only [State.n_wr_self, State.n_wrD_self, State.n_setBits_self, State.n_clrBits_self, State.n_setBit_self, State.n_event_self, State.n_addW_self, State.n_cnt_self, State.n_cntS_self, State.n_addH_self, State.n_cntH_self, State.n_hold_reason, State.n_hold_pin, State.n_unhold_self, State.n_enter_self, State.n_wr_ne, State.n_wrD_ne, State.n_setBits_ne, State.n_clrBits_ne, State.n_putBits_ne, State.n_setBit_ne, State.n_event_ne, State.n_addW_ne, State.n_cnt_ne, State.n_cntS_ne, State.n_addH_ne, State.n_cntH_ne, State.n_violate_ne, State.n_hold_ne, State.n_unhold_ne, State.n_enter_ne, State.n_errBit_ne, State.n_record, State.n_same])
  · refine ⟨?_, ?_, ?_, ?_, by simp [State.setPc, State.setCoreState]⟩
    · unfold State.pc State.setEngine State.setPc; (simp (disch := first | assumption | decide | (unfold odKey at *; omega) | (unfold routeKey odKey at *; omega) | omega) only [State.n_wr_self, State.n_wrD_self, State.n_setBits_self, State.n_clrBits_self, State.n_setBit_self, State.n_event_self, State.n_addW_self, State.n_cnt_self, State.n_cntS_self, State.n_addH_self, State.n_cntH_self, State.n_hold_reason, State.n_hold_pin, State.n_unhold_self, State.n_enter_self, State.n_wr_ne, State.n_wrD_ne, State.n_setBits_ne, State.n_clrBits_ne, State.n_putBits_ne, State.n_setBit_ne, State.n_event_ne, State.n_addW_ne, State.n_cnt_ne, State.n_cntS_ne, State.n_addH_ne, State.n_cntH_ne, State.n_violate_ne, State.n_hold_ne, State.n_unhold_ne, State.n_enter_ne, State.n_errBit_ne, State.n_record, State.n_same]); exact Nat.mod_eq_of_lt hp
    · exact hcs _
    · intro e
      rw [State.setEngine_engine, he]
    · unfold State.setEngine State.setPc; (intro i j hr hk; simp only [List.mem_cons, List.not_mem_nil, or_false, forall_eq_or_imp, forall_eq] at hk; (try obtain ⟨_, _⟩ := hk); simp (disch := first | assumption | decide | (unfold odKey at *; omega) | (unfold routeKey odKey at *; omega) | omega) only [State.n_wr_self, State.n_wrD_self, State.n_setBits_self, State.n_clrBits_self, State.n_setBit_self, State.n_event_self, State.n_addW_self, State.n_cnt_self, State.n_cntS_self, State.n_addH_self, State.n_cntH_self, State.n_hold_reason, State.n_hold_pin, State.n_unhold_self, State.n_enter_self, State.n_wr_ne, State.n_wrD_ne, State.n_setBits_ne, State.n_clrBits_ne, State.n_putBits_ne, State.n_setBit_ne, State.n_event_ne, State.n_addW_ne, State.n_cnt_ne, State.n_cntS_ne, State.n_addH_ne, State.n_cntH_ne, State.n_violate_ne, State.n_hold_ne, State.n_unhold_ne, State.n_enter_ne, State.n_errBit_ne, State.n_record, State.n_same])

theorem State.pcNext_lt (s : State) (c : Fin 33) (h : s.pc c < 0x1_0000) : s.pcNext c < 2 ^ 64 := by
  unfold State.pcNext; split <;> omega

theorem ends_with (s : State) (c : Fin 33) (o : EOp) (w : Word) (g : Engine) (h : Executes s c o w) (hw : g.haltWhy = (s.engine c).haltWhy) :
    Ends s (s.finishWith c g) c (s.pcNext c) ∧ (s.finishWith c g).mem = s.mem ∧ (s.finishWith c g).engine c = { g with waiting := .none } := by
  unfold State.finishWith
  have e1 : ∀ e, (s.setEngine c g).engine e = if e = c.val then g else s.engine e := fun e => State.setEngine_engine _ _ _ _
  have hc : (s.setEngine c g).coreState c = 1 := by unfold State.coreState State.setEngine; rw [State.n_same]; exact h.1
  obtain ⟨f1, f2, f3, f4, f5⟩ := State.finish_spec (s.setEngine c g) c (s.pcNext c) hc (State.pcNext_lt s c h.2.2.1)
  refine ⟨⟨f1, ?_, ?_, ?_⟩, f5, ?_⟩
  · rw [f2, e1, if_pos rfl, hw]
  · intro e he; rw [f3, if_neg he, e1, if_neg he]
  · intro i j hr hk; rw [f4 i j hr hk]; exact State.n_same ..
  · rw [f3, if_pos rfl, e1, if_pos rfl]

theorem reg_setReg (e : Engine) (d r : Nat) (v : Word) : (e.setReg d v).reg r = if r = d then v else e.reg r := tblGet_set _ _ _ _ _

theorem reg_put (s : State) (c : Fin 33) (o : EOp) (w : Word) (g : Engine) (d : Option (Nat × Word)) (z n cf v : Bool) (h : Executes s c o w)
    (hr : ∀ r, g.reg r = match d with | some (d, x) => if r = d then x else (s.engine c).reg r | none => (s.engine c).reg r)
    (hf : g.z = z ∧ g.n = n ∧ g.c = cf ∧ g.v = v) (hs : g.rest = (s.engine c).rest) :
    RegStep s (s.finishWith c g) c d z n cf v := by
  have hw : g.haltWhy = (s.engine c).haltWhy := (by have := congrArg Engine.haltWhy hs; exact this)
  obtain ⟨e1, e2, e3⟩ := ends_with s c o w g h hw
  have hwt : g.waiting = .none := by rw [show g.waiting = (s.engine c).waiting from (by have := congrArg Engine.waiting hs; exact this)]; exact h.2.1
  have : ({ g with waiting := .none } : Engine) = g := by rw [← hwt]
  rw [this] at e3
  refine ⟨e1, e2, ?_, ?_, ?_, ?_, ?_, ?_⟩ <;> rw [e3]
  · exact hr
  · exact hf.1
  · exact hf.2.1
  · exact hf.2.2.1
  · exact hf.2.2.2
  · exact hs

theorem z_of (r : Word) : decide (r = 0) = decide (r.toNat = 0) := by
  congr 1; apply propext; constructor
  · intro h; rw [h]; rfl
  · intro h; exact BitVec.eq_of_toNat_eq h
theorem n_of (r : Word) : r.msb = decide (r.toInt < 0) := BitVec.msb_eq_toInt

theorem step_reg {s : State} {c : Fin 33} {o : EOp} {w : Word} {f : Engine → Word → Engine} (h : Executes s c o w) :
    s.regOp c o f = s.finishWith c (f (s.engine c) w) := State.runOp_go h

theorem logic_step {s : State} {c : Fin 33} {o : EOp} {w : Word} {f : Engine → Word → Engine} (h : Executes s c o w) (r : Word)
    (hf : f (s.engine c) w = (s.engine c).putZN w r) : LogicStep s (s.regOp c o f) c (rdOf w) r := by
  rw [step_reg h, hf]
  refine reg_put s c o w _ _ _ _ _ _ h ?_ ?_ ?_
  · intro k; exact reg_setReg _ _ _ _
  · exact ⟨z_of r, n_of r, rfl, rfl⟩
  · rfl

theorem move_step {s : State} {c : Fin 33} {o : EOp} {w : Word} {f : Engine → Word → Engine} (h : Executes s c o w) (r : Word)
    (hf : f (s.engine c) w = (s.engine c).setReg (rdOf w) r) : MoveStep s (s.regOp c o f) c (rdOf w) r := by
  rw [step_reg h, hf]
  refine reg_put s c o w _ _ _ _ _ _ h ?_ ?_ ?_
  · intro k; exact reg_setReg _ _ _ _
  · exact ⟨rfl, rfl, rfl, rfl⟩
  · rfl

end Sys2Proof.Machine
end

