-- ==== Sys2Proof/Laws/Low.lean ====
section
/-! SUPPORT. The objects of HOLD_N, the start counters, the reset causes and the software resets (0x2001–0x2004) hold what they
held, under every operation that does not name them. One lemma per operation. -/

namespace Sys2Proof.Machine
set_option maxRecDepth 4000
set_option linter.all false

/-- The objects 0x2001 to 0x2004 read in `s` what they read in `s0`. -/
structure Low (s0 s : State) : Prop where
  same : ∀ k, 0x2001 * 256 ≤ k → k < 0x2005 * 256 → tblGet odDefault k s.od = tblGet odDefault k s0.od

theorem low_refl (s : State) : Low s s := ⟨fun _ _ _ => rfl⟩

theorem low_same {s0 s : State} {x0 x1 x2 x4 x5 x6 x7 x8 x9 x10 x11 x12 x13 x14 x15 x16 x17 x18 x19 x20 x21 x22 x23 x24 x25 x26 x27 x28 x29 x30 x31 x32} : Low s0 (State.mk x0 x1 x2 s.od x4 x5 x6 x7 x8 x9 x10 x11 x12 x13 x14 x15 x16 x17 x18 x19 x20 x21 x22 x23 x24 x25 x26 x27 x28 x29 x30 x31 x32) ↔ Low s0 s := ⟨fun h => ⟨h.same⟩, fun h => ⟨h.same⟩⟩
theorem low_od {s0 s : State} {x0 x1 x2 x4 x5 x6 x7 x8 x9 x10 x11 x12 x13 x14 x15 x16 x17 x18 x19 x20 x21 x22 x23 x24 x25 x26 x27 x28 x29 x30 x31 x32} {k : Nat} {v : DWord} (hk : k < 0x2001 * 256 ∨ 0x2005 * 256 ≤ k) (h : Low s0 s) :
    Low s0 (State.mk x0 x1 x2 (tblSet odDefault k v s.od) x4 x5 x6 x7 x8 x9 x10 x11 x12 x13 x14 x15 x16 x17 x18 x19 x20 x21 x22 x23 x24 x25 x26 x27 x28 x29 x30 x31 x32) := ⟨fun j h1 h2 => by
  rw [← h.same j h1 h2]; show tblGet odDefault j (tblSet odDefault k v s.od) = _
  rw [tblGet_set, if_neg (by omega)]⟩
theorem low_odClear {s0 s : State} {x0 x1 x2 x4 x5 x6 x7 x8 x9 x10 x11 x12 x13 x14 x15 x16 x17 x18 x19 x20 x21 x22 x23 x24 x25 x26 x27 x28 x29 x30 x31 x32} {k v : Nat} (hk : v ≤ 0x2001 * 256 ∨ 0x2005 * 256 ≤ k) (h : Low s0 s) :
    Low s0 (State.mk x0 x1 x2 (tblClear k v s.od) x4 x5 x6 x7 x8 x9 x10 x11 x12 x13 x14 x15 x16 x17 x18 x19 x20 x21 x22 x23 x24 x25 x26 x27 x28 x29 x30 x31 x32) := ⟨fun j h1 h2 => by
  rw [← h.same j h1 h2]; show tblGet odDefault j (tblClear k v s.od) = _
  rw [tblGet_clear, if_neg (by omega)]⟩

theorem low_foldl {α : Type} {s0 : State} {f : State → α → State} (h : ∀ s a, Low s0 s → Low s0 (f s a)) {l : List α}
    {s : State} (hs : Low s0 s) : Low s0 (l.foldl f s) := by
  induction l generalizing s with
  | nil => exact hs
  | cons x l ih => exact ih (h _ _ hs)

theorem low_ite {s0 : State} {c : Prop} [Decidable c] {a b : State} (ha : Low s0 a) (hb : Low s0 b) :
    Low s0 (if c then a else b) := by
  split <;> assumption

theorem low_ite2 {α : Type} {s0 : State} {c : Prop} [Decidable c] {a b : α × State} (ha : Low s0 a.2) (hb : Low s0 b.2) :
    Low s0 (if c then a else b).2 := by
  split <;> assumption

theorem low_ite3 {α β : Type} {s0 : State} {c : Prop} [Decidable c] {a b : α × β × State} (ha : Low s0 a.2.2)
    (hb : Low s0 b.2.2) : Low s0 (if c then a else b).2.2 := by
  split <;> assumption

theorem low_ite4 {α β γ : Type} {s0 : State} {c : Prop} [Decidable c] {a b : α × β × γ × State} (ha : Low s0 a.2.2.2)
    (hb : Low s0 b.2.2.2) : Low s0 (if c then a else b).2.2.2 := by
  split <;> assumption

theorem low_orElse {α : Type} {a : Option α} {f : Unit → Option α} {t : α} (h : a.orElse f = some t) :
    a = some t ∨ f () = some t := by
  cases a <;> simp_all

/-! ### One lemma per operation -/

@[simp] theorem State.wr_low {s0 : State} (s : State) (i j v : Nat) (hk : odKey i j < 0x2001 * 256 ∨ 0x2005 * 256 ≤ odKey i j) (hc : Low s0 s) :
    Low s0 (State.wr s i j v) := by
  unfold State.wr
  repeat' first | first | omega | ((simp +zetaDelta only [odKey, bankIdx, bankStatusSub, canIdx, dmaObj, instBase, launchIdx, coreIdx, dmaIdx, logBase, trigIdx] <;> (try split)) <;> omega) | (with_reducible first | assumption | apply low_od | apply low_odClear) | simp only [low_same] | dsimp only
@[simp] theorem State.wrD_low {s0 : State} (s : State) (i j : Nat) (v : DWord) (hk : odKey i j < 0x2001 * 256 ∨ 0x2005 * 256 ≤ odKey i j) (hc : Low s0 s) :
    Low s0 (State.wrD s i j v) := by
  unfold State.wrD
  repeat' first | first | omega | ((simp +zetaDelta only [odKey, bankIdx, bankStatusSub, canIdx, dmaObj, instBase, launchIdx, coreIdx, dmaIdx, logBase, trigIdx] <;> (try split)) <;> omega) | (with_reducible first | assumption | apply low_od | apply low_odClear) | simp only [low_same] | dsimp only
@[simp] theorem State.setBits_low {s0 : State} (s : State) (i j m : Nat) (hk : odKey i j < 0x2001 * 256 ∨ 0x2005 * 256 ≤ odKey i j) (hc : Low s0 s) :
    Low s0 (State.setBits s i j m) := by
  unfold State.setBits
  repeat' first | first | omega | ((simp +zetaDelta only [odKey, bankIdx, bankStatusSub, canIdx, dmaObj, instBase, launchIdx, coreIdx, dmaIdx, logBase, trigIdx] <;> (try split)) <;> omega) | (with_reducible first | assumption | apply State.wr_low) | dsimp only
@[simp] theorem State.clrBits_low {s0 : State} (s : State) (i j m : Nat) (hk : odKey i j < 0x2001 * 256 ∨ 0x2005 * 256 ≤ odKey i j) (hc : Low s0 s) :
    Low s0 (State.clrBits s i j m) := by
  unfold State.clrBits
  repeat' first | first | omega | ((simp +zetaDelta only [odKey, bankIdx, bankStatusSub, canIdx, dmaObj, instBase, launchIdx, coreIdx, dmaIdx, logBase, trigIdx] <;> (try split)) <;> omega) | (with_reducible first | assumption | apply State.wr_low) | dsimp only
@[simp] theorem State.putBits_low {s0 : State} (s : State) (i j m : Nat) (on : Bool) (hk : odKey i j < 0x2001 * 256 ∨ 0x2005 * 256 ≤ odKey i j) (hc : Low s0 s) :
    Low s0 (State.putBits s i j m on) := by
  unfold State.putBits
  repeat' first | first | omega | ((simp +zetaDelta only [odKey, bankIdx, bankStatusSub, canIdx, dmaObj, instBase, launchIdx, coreIdx, dmaIdx, logBase, trigIdx] <;> (try split)) <;> omega) | (with_reducible first | assumption | apply low_ite | apply State.clrBits_low | apply State.setBits_low) | dsimp only
@[simp] theorem State.setBit_low {s0 : State} (s : State) (i j b : Nat) (hk : odKey i j < 0x2001 * 256 ∨ 0x2005 * 256 ≤ odKey i j) (hc : Low s0 s) :
    Low s0 (State.setBit s i j b) := by
  unfold State.setBit
  repeat' first | first | omega | ((simp +zetaDelta only [odKey, bankIdx, bankStatusSub, canIdx, dmaObj, instBase, launchIdx, coreIdx, dmaIdx, logBase, trigIdx] <;> (try split)) <;> omega) | (with_reducible first | assumption | apply State.setBits_low) | dsimp only
@[simp] theorem State.emit_low {s0 : State} (s : State) (o : Out) (hc : Low s0 s) :
    Low s0 (State.emit s o) := by
  unfold State.emit
  repeat' first | first | omega | ((simp +zetaDelta only [odKey, bankIdx, bankStatusSub, canIdx, dmaObj, instBase, launchIdx, coreIdx, dmaIdx, logBase, trigIdx] <;> (try split)) <;> omega) | (with_reducible first | assumption) | simp only [low_same] | dsimp only
@[simp] theorem State.tick_low {s0 : State} (s : State) (hc : Low s0 s) :
    Low s0 (State.tick s) := by
  unfold State.tick
  repeat' first | first | omega | ((simp +zetaDelta only [odKey, bankIdx, bankStatusSub, canIdx, dmaObj, instBase, launchIdx, coreIdx, dmaIdx, logBase, trigIdx] <;> (try split)) <;> omega) | (with_reducible first | assumption) | simp only [low_same] | dsimp only
@[simp] theorem State.setEngine_low {s0 : State} (s : State) (c : Nat) (e : Engine) (hc : Low s0 s) :
    Low s0 (State.setEngine s c e) := by
  unfold State.setEngine
  repeat' first | first | omega | ((simp +zetaDelta only [odKey, bankIdx, bankStatusSub, canIdx, dmaObj, instBase, launchIdx, coreIdx, dmaIdx, logBase, trigIdx] <;> (try split)) <;> omega) | (with_reducible first | assumption) | simp only [low_same] | intro _ | dsimp only
@[simp] theorem State.setChan_low {s0 : State} (s : State) (c : Nat) (m : Mbox) (hc : Low s0 s) :
    Low s0 (State.setChan s c m) := by
  unfold State.setChan
  repeat' first | first | omega | ((simp +zetaDelta only [odKey, bankIdx, bankStatusSub, canIdx, dmaObj, instBase, launchIdx, coreIdx, dmaIdx, logBase, trigIdx] <;> (try split)) <;> omega) | (with_reducible first | assumption) | simp only [low_same] | intro _ | dsimp only
@[simp] theorem State.setPort_low {s0 : State} (s : State) (p : Nat) (x : Port) (hc : Low s0 s) :
    Low s0 (State.setPort s p x) := by
  unfold State.setPort
  repeat' first | first | omega | ((simp +zetaDelta only [odKey, bankIdx, bankStatusSub, canIdx, dmaObj, instBase, launchIdx, coreIdx, dmaIdx, logBase, trigIdx] <;> (try split)) <;> omega) | (with_reducible first | assumption) | simp only [low_same] | intro _ | dsimp only
@[simp] theorem State.msix_low {s0 : State} (s : State) (v : Nat) (hc : Low s0 s) :
    Low s0 (State.msix s v) := by
  unfold State.msix
  repeat' first | first | omega | ((simp +zetaDelta only [odKey, bankIdx, bankStatusSub, canIdx, dmaObj, instBase, launchIdx, coreIdx, dmaIdx, logBase, trigIdx] <;> (try split)) <;> omega) | (with_reducible first | assumption | apply low_ite | apply State.emit_low) | simp only [low_same] | dsimp only
@[simp] theorem State.evpSet_low {s0 : State} (s : State) (c b : Nat) (hc : Low s0 s) :
    Low s0 (State.evpSet s c b) := by
  unfold State.evpSet
  repeat' first | first | omega | ((simp +zetaDelta only [odKey, bankIdx, bankStatusSub, canIdx, dmaObj, instBase, launchIdx, coreIdx, dmaIdx, logBase, trigIdx] <;> (try split)) <;> omega) | (with_reducible first | assumption | apply State.setEngine_low) | simp only [low_same] | dsimp only
@[simp] theorem State.notify_low {s0 : State} (s : State) (r : Nat) (hc : Low s0 s) :
    Low s0 (State.notify s r) := by
  unfold State.notify
  extract_lets z0 z1 z2 z3 z4
  have h2 : Low s0 z2 := by repeat' first | first | omega | ((simp +zetaDelta only [odKey, bankIdx, bankStatusSub, canIdx, dmaObj, instBase, launchIdx, coreIdx, dmaIdx, logBase, trigIdx] <;> (try split)) <;> omega) | (with_reducible first | assumption | apply low_ite | apply State.msix_low) | dsimp only
  try clear_value z2
  have h3 : Low s0 z3 := by repeat' first | first | omega | ((simp +zetaDelta only [odKey, bankIdx, bankStatusSub, canIdx, dmaObj, instBase, launchIdx, coreIdx, dmaIdx, logBase, trigIdx] <;> (try split)) <;> omega) | (with_reducible first | assumption | apply low_ite | apply State.evpSet_low) | dsimp only
  try clear_value z3
  have h4 : Low s0 z4 := by repeat' first | first | omega | ((simp +zetaDelta only [odKey, bankIdx, bankStatusSub, canIdx, dmaObj, instBase, launchIdx, coreIdx, dmaIdx, logBase, trigIdx] <;> (try split)) <;> omega) | (with_reducible first | assumption | apply low_ite | apply State.evpSet_low) | dsimp only
  try clear_value z4
  repeat' first | first | omega | ((simp +zetaDelta only [odKey, bankIdx, bankStatusSub, canIdx, dmaObj, instBase, launchIdx, coreIdx, dmaIdx, logBase, trigIdx] <;> (try split)) <;> omega) | (with_reducible first | assumption | apply State.wr_low) | dsimp only
@[simp] theorem State.route_low {s0 : State} (s : State) (r : Nat) (statusWritten : Bool) (hc : Low s0 s) :
    Low s0 (State.route s r statusWritten) := by
  unfold State.route
  extract_lets z0 z1 z2
  have h2 : Low s0 z2 := by repeat' first | first | omega | ((simp +zetaDelta only [odKey, bankIdx, bankStatusSub, canIdx, dmaObj, instBase, launchIdx, coreIdx, dmaIdx, logBase, trigIdx] <;> (try split)) <;> omega) | (with_reducible first | assumption | apply low_ite | apply State.wr_low) | dsimp only
  try clear_value z2
  repeat' first | first | omega | ((simp +zetaDelta only [odKey, bankIdx, bankStatusSub, canIdx, dmaObj, instBase, launchIdx, coreIdx, dmaIdx, logBase, trigIdx] <;> (try split)) <;> omega) | (with_reducible first | assumption | apply low_ite | apply State.notify_low) | dsimp only
@[simp] theorem State.event_low {s0 : State} (s : State) (i j m : Nat) (hk : odKey i j < 0x2001 * 256 ∨ 0x2005 * 256 ≤ odKey i j) (hc : Low s0 s) :
    Low s0 (State.event s i j m) := by
  unfold State.event
  repeat' first | first | omega | ((simp +zetaDelta only [odKey, bankIdx, bankStatusSub, canIdx, dmaObj, instBase, launchIdx, coreIdx, dmaIdx, logBase, trigIdx] <;> (try split)) <;> omega) | (with_reducible first | assumption | apply State.route_low | apply State.setBits_low) | dsimp only
@[simp] theorem State.addW_low {s0 : State} (s : State) (i j w k : Nat) (hk : odKey i j < 0x2001 * 256 ∨ 0x2005 * 256 ≤ odKey i j) (hc : Low s0 s) :
    Low s0 (State.addW s i j w k) := by
  unfold State.addW
  repeat' first | first | omega | ((simp +zetaDelta only [odKey, bankIdx, bankStatusSub, canIdx, dmaObj, instBase, launchIdx, coreIdx, dmaIdx, logBase, trigIdx] <;> (try split)) <;> omega) | (with_reducible first | assumption | apply State.wr_low) | dsimp only
@[simp] theorem State.cnt_low {s0 : State} (s : State) (i j : Nat) (hk : odKey i j < 0x2001 * 256 ∨ 0x2005 * 256 ≤ odKey i j) (hc : Low s0 s) :
    Low s0 (State.cnt s i j) := by
  unfold State.cnt
  repeat' first | first | omega | ((simp +zetaDelta only [odKey, bankIdx, bankStatusSub, canIdx, dmaObj, instBase, launchIdx, coreIdx, dmaIdx, logBase, trigIdx] <;> (try split)) <;> omega) | (with_reducible first | assumption | apply State.addW_low) | dsimp only
@[simp] theorem State.cntS_low {s0 : State} (s : State) (i j : Nat) (hk : odKey i j < 0x2001 * 256 ∨ 0x2005 * 256 ≤ odKey i j) (hc : Low s0 s) :
    Low s0 (State.cntS s i j) := by
  unfold State.cntS
  repeat' first | first | omega | ((simp +zetaDelta only [odKey, bankIdx, bankStatusSub, canIdx, dmaObj, instBase, launchIdx, coreIdx, dmaIdx, logBase, trigIdx] <;> (try split)) <;> omega) | (with_reducible first | assumption | apply State.wr_low) | dsimp only
@[simp] theorem State.addH_low {s0 : State} (s : State) (i j w k ei ej : Nat) (hk : odKey i j < 0x2001 * 256 ∨ 0x2005 * 256 ≤ odKey i j) (hk2 : odKey ei ej < 0x2001 * 256 ∨ 0x2005 * 256 ≤ odKey ei ej) (hc : Low s0 s) :
    Low s0 (State.addH s i j w k ei ej) := by
  unfold State.addH
  extract_lets z0 z1 z2
  have h2 : Low s0 z2 := by repeat' first | first | omega | ((simp +zetaDelta only [odKey, bankIdx, bankStatusSub, canIdx, dmaObj, instBase, launchIdx, coreIdx, dmaIdx, logBase, trigIdx] <;> (try split)) <;> omega) | (with_reducible first | assumption | apply State.wr_low) | dsimp only
  try clear_value z2
  repeat' first | first | omega | ((simp +zetaDelta only [odKey, bankIdx, bankStatusSub, canIdx, dmaObj, instBase, launchIdx, coreIdx, dmaIdx, logBase, trigIdx] <;> (try split)) <;> omega) | (with_reducible first | assumption | apply low_ite | apply State.event_low) | dsimp only
@[simp] theorem State.cntH_low {s0 : State} (s : State) (i j ei ej : Nat) (hk : odKey i j < 0x2001 * 256 ∨ 0x2005 * 256 ≤ odKey i j) (hk2 : odKey ei ej < 0x2001 * 256 ∨ 0x2005 * 256 ≤ odKey ei ej) (hc : Low s0 s) :
    Low s0 (State.cntH s i j ei ej) := by
  unfold State.cntH
  repeat' first | first | omega | ((simp +zetaDelta only [odKey, bankIdx, bankStatusSub, canIdx, dmaObj, instBase, launchIdx, coreIdx, dmaIdx, logBase, trigIdx] <;> (try split)) <;> omega) | (with_reducible first | assumption | apply State.addH_low) | dsimp only
@[simp] theorem State.setByte_low {s0 : State} (s : State) (a : Nat) (b : Byte) (hc : Low s0 s) :
    Low s0 (State.setByte s a b) := by
  unfold State.setByte
  repeat' first | first | omega | ((simp +zetaDelta only [odKey, bankIdx, bankStatusSub, canIdx, dmaObj, instBase, launchIdx, coreIdx, dmaIdx, logBase, trigIdx] <;> (try split)) <;> omega) | (with_reducible first | assumption |  apply low_memClear) | simp only [low_same] | dsimp only
@[simp] theorem State.setBytes_low {s0 : State} (s : State) (a : Nat) (x0 : List Byte) (hc : Low s0 s) :
    Low s0 (State.setBytes s a x0) := by
  induction x0 generalizing s a <;> first | (simp_all [State.setBytes]; done) | (unfold State.setBytes; (repeat' split) <;> simp_all)
@[simp] theorem State.setW32_low {s0 : State} (s : State) (a v : Nat) (hc : Low s0 s) :
    Low s0 (State.setW32 s a v) := by
  unfold State.setW32
  repeat' first | first | omega | ((simp +zetaDelta only [odKey, bankIdx, bankStatusSub, canIdx, dmaObj, instBase, launchIdx, coreIdx, dmaIdx, logBase, trigIdx] <;> (try split)) <;> omega) | (with_reducible first | assumption | apply State.setBytes_low) | dsimp only
@[simp] theorem State.zeroRange_low {s0 : State} (s : State) (lo hi : Nat) (hc : Low s0 s) :
    Low s0 (State.zeroRange s lo hi) := by
  unfold State.zeroRange
  repeat' first | first | omega | ((simp +zetaDelta only [odKey, bankIdx, bankStatusSub, canIdx, dmaObj, instBase, launchIdx, coreIdx, dmaIdx, logBase, trigIdx] <;> (try split)) <;> omega) | (with_reducible first | assumption |  apply low_memClear) | simp only [low_same] | dsimp only
@[simp] theorem State.enter_low {s0 : State} (s : State) (st : Nat) (hc : Low s0 s) :
    Low s0 (State.enter s st) := by
  unfold State.enter
  repeat' first | first | omega | ((simp +zetaDelta only [odKey, bankIdx, bankStatusSub, canIdx, dmaObj, instBase, launchIdx, coreIdx, dmaIdx, logBase, trigIdx] <;> (try split)) <;> omega) | (with_reducible first | assumption | apply low_ite | apply State.event_low | apply State.wr_low) | dsimp only
@[simp] theorem State.errGeneric_low {s0 : State} (s : State) (hc : Low s0 s) :
    Low s0 (State.errGeneric s) := by
  unfold State.errGeneric
  extract_lets z0
  repeat' first | first | omega | ((simp +zetaDelta only [odKey, bankIdx, bankStatusSub, canIdx, dmaObj, instBase, launchIdx, coreIdx, dmaIdx, logBase, trigIdx] <;> (try split)) <;> omega) | (with_reducible first | assumption | apply low_ite | apply State.wr_low) | dsimp only
@[simp] theorem State.errBit_low {s0 : State} (s : State) (b : Nat) (on : Bool) (hc : Low s0 s) :
    Low s0 (State.errBit s b on) := by
  unfold State.errBit
  repeat' first | first | omega | ((simp +zetaDelta only [odKey, bankIdx, bankStatusSub, canIdx, dmaObj, instBase, launchIdx, coreIdx, dmaIdx, logBase, trigIdx] <;> (try split)) <;> omega) | (with_reducible first | assumption | apply State.errGeneric_low | apply State.putBits_low) | dsimp only
@[simp] theorem State.violate_low {s0 : State} (s : State) (id : Nat) (hc : Low s0 s) :
    Low s0 (State.violate s id) := by
  unfold State.violate
  repeat' first | first | omega | ((simp +zetaDelta only [odKey, bankIdx, bankStatusSub, canIdx, dmaObj, instBase, launchIdx, coreIdx, dmaIdx, logBase, trigIdx] <;> (try split)) <;> omega) | (with_reducible first | assumption | apply low_ite | apply State.cnt_low) | dsimp only
@[simp] theorem State.showAllowances_low {s0 : State} (s : State) (hc : Low s0 s) :
    Low s0 (State.showAllowances s) := by
  unfold State.showAllowances
  repeat' first | first | omega | ((simp +zetaDelta only [odKey, bankIdx, bankStatusSub, canIdx, dmaObj, instBase, launchIdx, coreIdx, dmaIdx, logBase, trigIdx] <;> (try split)) <;> omega) | (with_reducible first | assumption | (apply low_foldl; intro _ _ _) | apply State.wr_low) | intro _ | dsimp only
@[simp] theorem State.admitRec_low {s0 : State} (s : State) (r : Rec) (hc : Low s0 s) :
    Low s0 (State.admitRec s r) := by
  unfold State.admitRec
  extract_lets z0 z1
  repeat' first | first | omega | ((simp +zetaDelta only [odKey, bankIdx, bankStatusSub, canIdx, dmaObj, instBase, launchIdx, coreIdx, dmaIdx, logBase, trigIdx] <;> (try split)) <;> omega) | (with_reducible first | assumption | apply low_ite | apply State.cntS_low | apply State.event_low | apply State.showAllowances_low | apply State.wr_low) | simp only [low_same] | intro _ | dsimp only
@[simp] theorem State.record_low {s0 : State} (s : State) (typ : Nat) (body : List Byte) (hc : Low s0 s) :
    Low s0 (State.record s typ body) := by
  unfold State.record
  extract_lets z0
  repeat' first | first | omega | ((simp +zetaDelta only [odKey, bankIdx, bankStatusSub, canIdx, dmaObj, instBase, launchIdx, coreIdx, dmaIdx, logBase, trigIdx] <;> (try split)) <;> omega) | (with_reducible first | assumption | apply low_ite | apply State.admitRec_low | apply State.cntS_low) | simp only [low_same] | dsimp only
@[simp] theorem State.setTdom_low {s0 : State} (s : State) (d : Nat) (x : TimeDom) (hc : Low s0 s) :
    Low s0 (State.setTdom s d x) := by
  unfold State.setTdom
  repeat' first | first | omega | ((simp +zetaDelta only [odKey, bankIdx, bankStatusSub, canIdx, dmaObj, instBase, launchIdx, coreIdx, dmaIdx, logBase, trigIdx] <;> (try split)) <;> omega) | (with_reducible first | assumption) | simp only [low_same] | intro _ | dsimp only
@[simp] theorem State.setLaunch_low {s0 : State} (s : State) (k : Nat) (x : Launch) (hc : Low s0 s) :
    Low s0 (State.setLaunch s k x) := by
  unfold State.setLaunch
  repeat' first | first | omega | ((simp +zetaDelta only [odKey, bankIdx, bankStatusSub, canIdx, dmaObj, instBase, launchIdx, coreIdx, dmaIdx, logBase, trigIdx] <;> (try split)) <;> omega) | (with_reducible first | assumption) | simp only [low_same] | intro _ | dsimp only
@[simp] theorem State.setDomVal_low {s0 : State} (s : State) (d v : Nat) (hc : Low s0 s) :
    Low s0 (State.setDomVal s d v) := by
  unfold State.setDomVal
  repeat' first | first | omega | ((simp +zetaDelta only [odKey, bankIdx, bankStatusSub, canIdx, dmaObj, instBase, launchIdx, coreIdx, dmaIdx, logBase, trigIdx] <;> (try split)) <;> omega) | (with_reducible first | assumption | apply State.wr_low) | dsimp only
@[simp] theorem State.domAdvance_low {s0 : State} (s : State) (d k : Nat) (hc : Low s0 s) :
    Low s0 (State.domAdvance s d k) := by
  unfold State.domAdvance
  extract_lets z0 z1 z2
  have h2 : Low s0 z2 := by repeat' first | first | omega | ((simp +zetaDelta only [odKey, bankIdx, bankStatusSub, canIdx, dmaObj, instBase, launchIdx, coreIdx, dmaIdx, logBase, trigIdx] <;> (try split)) <;> omega) | (with_reducible first | assumption | apply State.setDomVal_low) | dsimp only
  try clear_value z2
  repeat' first | first | omega | ((simp +zetaDelta only [odKey, bankIdx, bankStatusSub, canIdx, dmaObj, instBase, launchIdx, coreIdx, dmaIdx, logBase, trigIdx] <;> (try split)) <;> omega) | (with_reducible first | assumption | apply low_ite | apply State.wr_low) | dsimp only
@[simp] theorem State.advance_low {s0 : State} (s : State) (k : Nat) (hc : Low s0 s) :
    Low s0 (State.advance s k) := by
  unfold State.advance
  repeat' first | first | omega | ((simp +zetaDelta only [odKey, bankIdx, bankStatusSub, canIdx, dmaObj, instBase, launchIdx, coreIdx, dmaIdx, logBase, trigIdx] <;> (try split)) <;> omega) | (with_reducible first | assumption | apply low_ite | (apply low_foldl; intro _ _ _) | apply State.domAdvance_low) | simp only [low_same] | intro _ | dsimp only
@[simp] theorem State.setRing_low {s0 : State} (s : State) (n : Nat) (x : Ring) (hc : Low s0 s) :
    Low s0 (State.setRing s n x) := by
  unfold State.setRing
  repeat' first | first | omega | ((simp +zetaDelta only [odKey, bankIdx, bankStatusSub, canIdx, dmaObj, instBase, launchIdx, coreIdx, dmaIdx, logBase, trigIdx] <;> (try split)) <;> omega) | (with_reducible first | assumption) | simp only [low_same] | intro _ | dsimp only
@[simp] theorem State.setTrack_low {s0 : State} (s : State) (t : Nat) (x : Track) (hc : Low s0 s) :
    Low s0 (State.setTrack s t x) := by
  unfold State.setTrack
  repeat' first | first | omega | ((simp +zetaDelta only [odKey, bankIdx, bankStatusSub, canIdx, dmaObj, instBase, launchIdx, coreIdx, dmaIdx, logBase, trigIdx] <;> (try split)) <;> omega) | (with_reducible first | assumption) | simp only [low_same] | intro _ | dsimp only
@[simp] theorem State.locusEvent_low {s0 : State} (s : State) (b : Nat) (hc : Low s0 s) :
    Low s0 (State.locusEvent s b) := by
  unfold State.locusEvent
  repeat' first | first | omega | ((simp +zetaDelta only [odKey, bankIdx, bankStatusSub, canIdx, dmaObj, instBase, launchIdx, coreIdx, dmaIdx, logBase, trigIdx] <;> (try split)) <;> omega) | (with_reducible first | assumption | apply State.event_low) | dsimp only
@[simp] theorem State.swapCancel_low {s0 : State} (s : State) (hc : Low s0 s) :
    Low s0 (State.swapCancel s) := by
  unfold State.swapCancel
  repeat' first | first | omega | ((simp +zetaDelta only [odKey, bankIdx, bankStatusSub, canIdx, dmaObj, instBase, launchIdx, coreIdx, dmaIdx, logBase, trigIdx] <;> (try split)) <;> omega) | (with_reducible first | assumption | apply State.locusEvent_low | apply State.wr_low) | simp only [low_same] | dsimp only
@[simp] theorem State.swapLeave_low {s0 : State} (s : State) (t : Nat) (hc : Low s0 s) : Low s0 (State.swapLeave s t) := by
  unfold State.swapLeave; (repeat' (first | first | omega | ((simp +zetaDelta only [odKey, bankIdx, bankStatusSub, canIdx, dmaObj, instBase, launchIdx, coreIdx, dmaIdx, logBase, trigIdx] <;> (try split)) <;> omega) | with_reducible assumption | with_reducible apply low_ite | with_reducible apply low_ite2 | with_reducible apply low_ite3 | with_reducible apply low_ite4 | with_reducible apply State.cnt_low | with_reducible apply State.locusEvent_low | with_reducible apply State.wr_low | simp only [low_same] | intro _ | dsimp only))
@[simp] theorem State.swapUntie_low {s0 : State} (s : State) (n : Nat) (hc : Low s0 s) :
    Low s0 (State.swapUntie s n) := by
  unfold State.swapUntie
  extract_lets z0
  repeat' first | first | omega | ((simp +zetaDelta only [odKey, bankIdx, bankStatusSub, canIdx, dmaObj, instBase, launchIdx, coreIdx, dmaIdx, logBase, trigIdx] <;> (try split)) <;> omega) | (with_reducible first | assumption | apply low_ite | apply State.swapCancel_low) | intro _ | dsimp only
@[simp] theorem State.setInst_low {s0 : State} (s : State) (n : Nat) (x : Inst) (hc : Low s0 s) :
    Low s0 (State.setInst s n x) := by
  unfold State.setInst
  repeat' first | first | omega | ((simp +zetaDelta only [odKey, bankIdx, bankStatusSub, canIdx, dmaObj, instBase, launchIdx, coreIdx, dmaIdx, logBase, trigIdx] <;> (try split)) <;> omega) | (with_reducible first | assumption) | simp only [low_same] | intro _ | dsimp only
@[simp] theorem State.instFault_low {s0 : State} (s : State) (e : Nat) (hc : Low s0 s) :
    Low s0 (State.instFault s e) := by
  unfold State.instFault
  repeat' first | first | omega | ((simp +zetaDelta only [odKey, bankIdx, bankStatusSub, canIdx, dmaObj, instBase, launchIdx, coreIdx, dmaIdx, logBase, trigIdx] <;> (try split)) <;> omega) | (with_reducible first | assumption | apply low_ite | (apply low_foldl; intro _ _ _) | apply State.event_low | apply State.record_low | apply State.wr_low) | intro _ | dsimp only
@[simp] theorem State.chordLoss_low {s0 : State} (s : State) (p : Nat) (hc : Low s0 s) :
    Low s0 (State.chordLoss s p) := by
  unfold State.chordLoss
  repeat' first | first | omega | ((simp +zetaDelta only [odKey, bankIdx, bankStatusSub, canIdx, dmaObj, instBase, launchIdx, coreIdx, dmaIdx, logBase, trigIdx] <;> (try split)) <;> omega) | (with_reducible first | assumption | apply low_ite | (apply low_foldl; intro _ _ _) | apply State.wr_low) | intro _ | dsimp only
@[simp] theorem State.chordBack_low {s0 : State} (s : State) (p : Nat) (hc : Low s0 s) :
    Low s0 (State.chordBack s p) := by
  unfold State.chordBack
  repeat' first | first | omega | ((simp +zetaDelta only [odKey, bankIdx, bankStatusSub, canIdx, dmaObj, instBase, launchIdx, coreIdx, dmaIdx, logBase, trigIdx] <;> (try split)) <;> omega) | (with_reducible first | assumption | apply low_ite | (apply low_foldl; intro _ _ _) | apply State.wr_low) | intro _ | dsimp only
@[simp] theorem State.guard_low {s0 : State} (s : State) (p : Path) (i j v : Nat) (f : State → State) (hf : ∀ s, Low s0 s → Low s0 (f s)) (hc : Low s0 s) :
    Low s0 (State.guard s p i j v f) := by
  unfold State.guard
  repeat' first | first | omega | ((simp +zetaDelta only [odKey, bankIdx, bankStatusSub, canIdx, dmaObj, instBase, launchIdx, coreIdx, dmaIdx, logBase, trigIdx] <;> (try split)) <;> omega) | (with_reducible first | assumption | apply low_ite | apply State.violate_low | apply hf) | intro _ | dsimp only
@[simp] theorem State.mboxServe_low {s0 : State} (s : State) (c : Nat) (was : Word) (again : Bool) (hc : Low s0 s) :
    Low s0 (State.mboxServe s c was again) := by
  unfold State.mboxServe
  repeat' first | first | omega | ((simp +zetaDelta only [odKey, bankIdx, bankStatusSub, canIdx, dmaObj, instBase, launchIdx, coreIdx, dmaIdx, logBase, trigIdx] <;> (try split)) <;> omega) | (with_reducible first | assumption | apply low_ite | apply State.msix_low) | dsimp only
@[simp] theorem State.lockRead_low {s0 : State} (s : State) (c m : Nat) (hc : Low s0 s) :
    Low s0 (State.lockRead s c m).2 := by
  unfold State.lockRead
  extract_lets z0
  repeat' first | first | omega | ((simp +zetaDelta only [odKey, bankIdx, bankStatusSub, canIdx, dmaObj, instBase, launchIdx, coreIdx, dmaIdx, logBase, trigIdx] <;> (try split)) <;> omega) | (with_reducible first | assumption | apply low_ite | apply State.cnt_low | apply State.wr_low | apply low_ite2 | apply low_ite3 | apply low_ite4) | dsimp only
@[simp] theorem State.lockFree_low {s0 : State} (s : State) (c : Nat) (hc : Low s0 s) :
    Low s0 (State.lockFree s c) := by
  unfold State.lockFree
  repeat' first | first | omega | ((simp +zetaDelta only [odKey, bankIdx, bankStatusSub, canIdx, dmaObj, instBase, launchIdx, coreIdx, dmaIdx, logBase, trigIdx] <;> (try split)) <;> omega) | (with_reducible first | assumption | apply State.wr_low) | dsimp only
@[simp] theorem State.post_low {s0 : State} (s : State) (c : Nat) (bits : Word) (len : Nat) (hc : Low s0 s) :
    Low s0 (State.post s c bits len) := by
  unfold State.post
  extract_lets z0 z1 z2 z3
  have h3 : Low s0 z3 := by repeat' first | first | omega | ((simp +zetaDelta only [odKey, bankIdx, bankStatusSub, canIdx, dmaObj, instBase, launchIdx, coreIdx, dmaIdx, logBase, trigIdx] <;> (try split)) <;> omega) | (with_reducible first | assumption | apply low_ite | apply State.setChan_low | apply State.wr_low) | simp only [low_same] | dsimp only
  try clear_value z3
  repeat' first | first | omega | ((simp +zetaDelta only [odKey, bankIdx, bankStatusSub, canIdx, dmaObj, instBase, launchIdx, coreIdx, dmaIdx, logBase, trigIdx] <;> (try split)) <;> omega) | (with_reducible first | assumption | apply State.cnt_low | apply State.mboxServe_low) | dsimp only
@[simp] theorem State.dbRead_low {s0 : State} (s : State) (c : Nat) (hc : Low s0 s) :
    Low s0 (State.dbRead s c).2 := by
  unfold State.dbRead
  repeat' first | first | omega | ((simp +zetaDelta only [odKey, bankIdx, bankStatusSub, canIdx, dmaObj, instBase, launchIdx, coreIdx, dmaIdx, logBase, trigIdx] <;> (try split)) <;> omega) | (with_reducible first | assumption | apply low_ite | apply State.cnt_low | apply State.event_low | apply State.wr_low | apply low_ite2 | apply low_ite3 | apply low_ite4) | dsimp only
@[simp] theorem State.dbClear_low {s0 : State} (s : State) (c : Nat) (v : Word) (hc : Low s0 s) :
    Low s0 (State.dbClear s c v) := by
  unfold State.dbClear
  extract_lets z0 z1 z2
  have h2 : Low s0 z2 := by repeat' first | first | omega | ((simp +zetaDelta only [odKey, bankIdx, bankStatusSub, canIdx, dmaObj, instBase, launchIdx, coreIdx, dmaIdx, logBase, trigIdx] <;> (try split)) <;> omega) | (with_reducible first | assumption | apply State.setChan_low) | simp only [low_same] | dsimp only
  try clear_value z2
  repeat' first | first | omega | ((simp +zetaDelta only [odKey, bankIdx, bankStatusSub, canIdx, dmaObj, instBase, launchIdx, coreIdx, dmaIdx, logBase, trigIdx] <;> (try split)) <;> omega) | (with_reducible first | assumption | apply low_ite | apply State.wr_low) | dsimp only
@[simp] theorem State.maskWrite_low {s0 : State} (s : State) (c : Nat) (v : Word) (hc : Low s0 s) :
    Low s0 (State.maskWrite s c v) := by
  unfold State.maskWrite
  extract_lets z0
  repeat' first | first | omega | ((simp +zetaDelta only [odKey, bankIdx, bankStatusSub, canIdx, dmaObj, instBase, launchIdx, coreIdx, dmaIdx, logBase, trigIdx] <;> (try split)) <;> omega) | (with_reducible first | assumption | apply State.mboxServe_low | apply State.wr_low) | dsimp only
@[simp] theorem State.composeStart_low {s0 : State} (s : State) (c : Nat) (hc : Low s0 s) :
    Low s0 (State.composeStart s c) := by
  unfold State.composeStart
  repeat' first | first | omega | ((simp +zetaDelta only [odKey, bankIdx, bankStatusSub, canIdx, dmaObj, instBase, launchIdx, coreIdx, dmaIdx, logBase, trigIdx] <;> (try split)) <;> omega) | (with_reducible first | assumption | apply low_ite | apply State.wr_low) | dsimp only
@[simp] theorem State.lockReleaseReset_low {s0 : State} (s : State) (c : Nat) (hc : Low s0 s) :
    Low s0 (State.lockReleaseReset s c) := by
  unfold State.lockReleaseReset
  extract_lets z0
  repeat' first | first | omega | ((simp +zetaDelta only [odKey, bankIdx, bankStatusSub, canIdx, dmaObj, instBase, launchIdx, coreIdx, dmaIdx, logBase, trigIdx] <;> (try split)) <;> omega) | (with_reducible first | assumption | apply State.cnt_low | apply State.event_low | apply State.lockFree_low | apply State.record_low) | dsimp only
@[simp] theorem State.ownerReset_low {s0 : State} (s : State) (c : Nat) (hc : Low s0 s) :
    Low s0 (State.ownerReset s c) := by
  unfold State.ownerReset
  extract_lets z0
  repeat' first | first | omega | ((simp +zetaDelta only [odKey, bankIdx, bankStatusSub, canIdx, dmaObj, instBase, launchIdx, coreIdx, dmaIdx, logBase, trigIdx] <;> (try split)) <;> omega) | (with_reducible first | assumption | apply low_ite | apply State.cnt_low | apply State.event_low | apply State.lockReleaseReset_low | apply State.record_low | apply State.setChan_low | apply State.wr_low | apply State.zeroRange_low) | simp only [low_same] | dsimp only
@[simp] theorem State.receiverReset_low {s0 : State} (s : State) (c : Nat) (hc : Low s0 s) :
    Low s0 (State.receiverReset s c) := by
  unfold State.receiverReset
  extract_lets z0
  have h0 : Low s0 z0 := by repeat' first | first | omega | ((simp +zetaDelta only [odKey, bankIdx, bankStatusSub, canIdx, dmaObj, instBase, launchIdx, coreIdx, dmaIdx, logBase, trigIdx] <;> (try split)) <;> omega) | (with_reducible first | assumption | apply State.wr_low) | dsimp only
  try clear_value z0
  repeat' first | first | omega | ((simp +zetaDelta only [odKey, bankIdx, bankStatusSub, canIdx, dmaObj, instBase, launchIdx, coreIdx, dmaIdx, logBase, trigIdx] <;> (try split)) <;> omega) | (with_reducible first | assumption | apply low_ite | apply State.cnt_low | apply State.event_low | apply State.setChan_low | apply State.wr_low) | simp only [low_same] | dsimp only
@[simp] theorem State.masterReset_low {s0 : State} (s : State) (m : Nat) (hc : Low s0 s) :
    Low s0 (State.masterReset s m) := by
  unfold State.masterReset
  repeat' first | first | omega | ((simp +zetaDelta only [odKey, bankIdx, bankStatusSub, canIdx, dmaObj, instBase, launchIdx, coreIdx, dmaIdx, logBase, trigIdx] <;> (try split)) <;> omega) | (with_reducible first | assumption | apply low_ite | (apply low_foldl; intro _ _ _) | apply State.ownerReset_low | apply State.receiverReset_low) | intro _ | dsimp only
@[simp] theorem State.pathReset_low {s0 : State} (s : State) (m : Nat) (hc : Low s0 s) :
    Low s0 (State.pathReset s m) := by
  unfold State.pathReset
  repeat' first | first | omega | ((simp +zetaDelta only [odKey, bankIdx, bankStatusSub, canIdx, dmaObj, instBase, launchIdx, coreIdx, dmaIdx, logBase, trigIdx] <;> (try split)) <;> omega) | (with_reducible first | assumption) | simp only [low_same] | dsimp only
@[simp] theorem State.countOverruns_low {s0 : State} (s : State) (e k : Nat) (hc : Low s0 s) :
    Low s0 (State.countOverruns s e k) := by
  unfold State.countOverruns
  repeat' first | first | omega | ((simp +zetaDelta only [odKey, bankIdx, bankStatusSub, canIdx, dmaObj, instBase, launchIdx, coreIdx, dmaIdx, logBase, trigIdx] <;> (try split)) <;> omega) | (with_reducible first | assumption | apply low_ite | apply State.addH_low) | dsimp only
@[simp] theorem State.laneReceive_low {s0 : State} (s : State) (e : Nat) (first : Option (Word × BitVec 2)) (nibs : List Nib) (last : Option (BitVec 3)) (hc : Low s0 s) :
    Low s0 (State.laneReceive s e first nibs last) := by
  unfold State.laneReceive
  extract_lets z0 z1 z2 z3
  repeat' first | first | omega | ((simp +zetaDelta only [odKey, bankIdx, bankStatusSub, canIdx, dmaObj, instBase, launchIdx, coreIdx, dmaIdx, logBase, trigIdx] <;> (try split)) <;> omega) | (with_reducible first | assumption | apply State.countOverruns_low | apply State.setEngine_low) | dsimp only
@[simp] theorem State.laneSend_low {s0 : State} (s : State) (e : Nat) (d : List Byte) (stomp : Bool) (hc : Low s0 s) :
    Low s0 (State.laneSend s e d stomp) := by
  unfold State.laneSend
  extract_lets z0
  repeat' first | first | omega | ((simp +zetaDelta only [odKey, bankIdx, bankStatusSub, canIdx, dmaObj, instBase, launchIdx, coreIdx, dmaIdx, logBase, trigIdx] <;> (try split)) <;> omega) | (with_reducible first | assumption | apply low_ite | apply State.laneReceive_low | apply State.setPort_low | apply State.tick_low) | simp only [low_same] | dsimp only | split
@[simp] theorem State.settleTx_low {s0 : State} (s : State) (e : Nat) (hc : Low s0 s) :
    Low s0 (State.settleTx s e) := by
  unfold State.settleTx
  extract_lets z0
  repeat' first | first | omega | ((simp +zetaDelta only [odKey, bankIdx, bankStatusSub, canIdx, dmaObj, instBase, launchIdx, coreIdx, dmaIdx, logBase, trigIdx] <;> (try split)) <;> omega) | (with_reducible first | assumption | apply low_ite | apply State.laneSend_low | apply State.setEngine_low | apply low_ite2 | apply low_ite3 | apply low_ite4) | simp only [low_same] | dsimp only | split
@[simp] theorem State.txUnderrun_low {s0 : State} (s : State) (e : Nat) (hc : Low s0 s) :
    Low s0 (State.txUnderrun s e) := by
  unfold State.txUnderrun
  extract_lets z0 z1
  have h1 : Low s0 z1 := by repeat' first | first | omega | ((simp +zetaDelta only [odKey, bankIdx, bankStatusSub, canIdx, dmaObj, instBase, launchIdx, coreIdx, dmaIdx, logBase, trigIdx] <;> (try split)) <;> omega) | (with_reducible first | assumption | apply State.laneSend_low | apply State.setEngine_low) | simp only [low_same] | dsimp only
  try clear_value z1
  repeat' first | first | omega | ((simp +zetaDelta only [odKey, bankIdx, bankStatusSub, canIdx, dmaObj, instBase, launchIdx, coreIdx, dmaIdx, logBase, trigIdx] <;> (try split)) <;> omega) | (with_reducible first | assumption | apply State.cntH_low) | dsimp only
@[simp] theorem State.endLaneFrames_low {s0 : State} (s : State) (e : Nat) (hc : Low s0 s) :
    Low s0 (State.endLaneFrames s e) := by
  unfold State.endLaneFrames
  extract_lets z0 z1 z2
  have h1 : Low s0 z1 := by repeat' first | first | omega | ((simp +zetaDelta only [odKey, bankIdx, bankStatusSub, canIdx, dmaObj, instBase, launchIdx, coreIdx, dmaIdx, logBase, trigIdx] <;> (try split)) <;> omega) | (with_reducible first | assumption | apply low_ite | apply State.laneSend_low) | dsimp only
  try clear_value z1
  repeat' first | first | omega | ((simp +zetaDelta only [odKey, bankIdx, bankStatusSub, canIdx, dmaObj, instBase, launchIdx, coreIdx, dmaIdx, logBase, trigIdx] <;> (try split)) <;> omega) | (with_reducible first | assumption | apply State.setEngine_low) | simp only [low_same] | dsimp only
@[simp] theorem State.dropSubs_low {s0 : State} (s : State) (i lo hi : Nat) (hk : odKey i hi + 1 ≤ 0x2001 * 256 ∨ 0x2005 * 256 ≤ odKey i lo) (hc : Low s0 s) :
    Low s0 (State.dropSubs s i lo hi) := by
  unfold State.dropSubs
  repeat' first | first | omega | ((simp +zetaDelta only [odKey, bankIdx, bankStatusSub, canIdx, dmaObj, instBase, launchIdx, coreIdx, dmaIdx, logBase, trigIdx] <;> (try split)) <;> omega) | (with_reducible first | assumption | apply low_od | apply low_odClear) | simp only [low_same] | dsimp only
@[simp] theorem State.clearEngine_low {s0 : State} (s : State) (e cause : Nat) (hc : Low s0 s) :
    Low s0 (State.clearEngine s e cause) := by
  unfold State.clearEngine
  extract_lets z0 z1 z2 z3
  have h2 : Low s0 z2 := by repeat' first | first | omega | ((simp +zetaDelta only [odKey, bankIdx, bankStatusSub, canIdx, dmaObj, instBase, launchIdx, coreIdx, dmaIdx, logBase, trigIdx] <;> (try split)) <;> omega) | (with_reducible first | assumption | apply State.dropSubs_low | apply State.wr_low) | dsimp only
  try clear_value z2
  have h3 : Low s0 z3 := by repeat' first | first | omega | ((simp +zetaDelta only [odKey, bankIdx, bankStatusSub, canIdx, dmaObj, instBase, launchIdx, coreIdx, dmaIdx, logBase, trigIdx] <;> (try split)) <;> omega) | (with_reducible first | assumption | apply State.wr_low) | dsimp only
  try clear_value z3
  repeat' first | first | omega | ((simp +zetaDelta only [odKey, bankIdx, bankStatusSub, canIdx, dmaObj, instBase, launchIdx, coreIdx, dmaIdx, logBase, trigIdx] <;> (try split)) <;> omega) | (with_reducible first | assumption | apply State.setEngine_low) | dsimp only
@[simp] theorem State.engineReset_low {s0 : State} (s : State) (e cause : Nat) (hc : Low s0 s) :
    Low s0 (State.engineReset s e cause) := by
  unfold State.engineReset
  repeat' first | first | omega | ((simp +zetaDelta only [odKey, bankIdx, bankStatusSub, canIdx, dmaObj, instBase, launchIdx, coreIdx, dmaIdx, logBase, trigIdx] <;> (try split)) <;> omega) | (with_reducible first | assumption | apply State.clearEngine_low | apply State.masterReset_low | apply State.pathReset_low) | dsimp only
@[simp] theorem State.noteNotOn_low {s0 : State} (s : State) (hc : Low s0 s) :
    Low s0 (State.noteNotOn s) := by
  unfold State.noteNotOn
  repeat' first | first | omega | ((simp +zetaDelta only [odKey, bankIdx, bankStatusSub, canIdx, dmaObj, instBase, launchIdx, coreIdx, dmaIdx, logBase, trigIdx] <;> (try split)) <;> omega) | (with_reducible first | assumption | apply State.cnt_low | apply State.event_low) | dsimp only
@[simp] theorem State.setDbe_low {s0 : State} (s : State) (a : Nat) (b : Bool) (hc : Low s0 s) :
    Low s0 (State.setDbe s a b) := by
  unfold State.setDbe
  repeat' first | first | omega | ((simp +zetaDelta only [odKey, bankIdx, bankStatusSub, canIdx, dmaObj, instBase, launchIdx, coreIdx, dmaIdx, logBase, trigIdx] <;> (try split)) <;> omega) | (with_reducible first | assumption) | simp only [low_same] | intro _ | dsimp only
@[simp] theorem State.setSbe_low {s0 : State} (s : State) (a : Nat) (b : Bool) (hc : Low s0 s) :
    Low s0 (State.setSbe s a b) := by
  unfold State.setSbe
  repeat' first | first | omega | ((simp +zetaDelta only [odKey, bankIdx, bankStatusSub, canIdx, dmaObj, instBase, launchIdx, coreIdx, dmaIdx, logBase, trigIdx] <;> (try split)) <;> omega) | (with_reducible first | assumption) | simp only [low_same] | intro _ | dsimp only
@[simp] theorem State.correct_low {s0 : State} (s : State) (a : Nat) (hc : Low s0 s) :
    Low s0 (State.correct s a) := by
  unfold State.correct
  extract_lets z0
  have h0 : Low s0 z0 := by repeat' first | first | omega | ((simp +zetaDelta only [odKey, bankIdx, bankStatusSub, canIdx, dmaObj, instBase, launchIdx, coreIdx, dmaIdx, logBase, trigIdx] <;> (try split)) <;> omega) | (with_reducible first | assumption | apply State.setSbe_low) | dsimp only
  try clear_value z0
  repeat' first | first | omega | ((simp +zetaDelta only [odKey, bankIdx, bankStatusSub, canIdx, dmaObj, instBase, launchIdx, coreIdx, dmaIdx, logBase, trigIdx] <;> (try split)) <;> omega) | (with_reducible first | assumption | apply State.cnt_low | apply State.event_low) | simp only [low_same] | dsimp only | split
@[simp] theorem State.originWritten_low {s0 : State} (s : State) (b : Nat) (hc : Low s0 s) :
    Low s0 (State.originWritten s b) := by
  unfold State.originWritten
  extract_lets z0 z1
  repeat' first | first | omega | ((simp +zetaDelta only [odKey, bankIdx, bankStatusSub, canIdx, dmaObj, instBase, launchIdx, coreIdx, dmaIdx, logBase, trigIdx] <;> (try split)) <;> omega) | (with_reducible first | assumption | apply State.wr_low) | dsimp only
@[simp] theorem State.memWrite_low {s0 : State} (s : State) (p : Path) (a : Nat) (d : List Byte) (hc : Low s0 s) :
    Low s0 (State.memWrite s p a d) := by
  unfold State.memWrite
  extract_lets z0
  clear_value z0
  repeat' first | first | omega | ((simp +zetaDelta only [odKey, bankIdx, bankStatusSub, canIdx, dmaObj, instBase, launchIdx, coreIdx, dmaIdx, logBase, trigIdx] <;> (try split)) <;> omega) | (with_reducible first | assumption | apply low_ite | apply State.cnt_low | apply State.composeStart_low | apply State.event_low | apply State.originWritten_low | apply State.setBytes_low | apply State.setDbe_low | apply State.setSbe_low | apply State.violate_low) | simp only [low_same] | dsimp only | split
@[simp] theorem State.bankField_low {s0 : State} (s : State) (b lsb w v : Nat) (hc : Low s0 s) :
    Low s0 (State.bankField s b lsb w v) := by
  unfold State.bankField
  repeat' first | first | omega | ((simp +zetaDelta only [odKey, bankIdx, bankStatusSub, canIdx, dmaObj, instBase, launchIdx, coreIdx, dmaIdx, logBase, trigIdx] <;> (try split)) <;> omega) | (with_reducible first | assumption | apply State.wr_low) | dsimp only
@[simp] theorem State.bankGo_low {s0 : State} (s : State) (b t : Nat) (hc : Low s0 s) :
    Low s0 (State.bankGo s b t) := by
  unfold State.bankGo
  repeat' first | first | omega | ((simp +zetaDelta only [odKey, bankIdx, bankStatusSub, canIdx, dmaObj, instBase, launchIdx, coreIdx, dmaIdx, logBase, trigIdx] <;> (try split)) <;> omega) | (with_reducible first | assumption | apply low_ite | apply State.bankField_low) | simp only [low_same] | intro _ | dsimp only
@[simp] theorem State.bankZero_low {s0 : State} (s : State) (b : Nat) (hc : Low s0 s) : Low s0 (State.bankZero s b) := by
  unfold State.bankZero; (repeat' (first | first | omega | ((simp +zetaDelta only [odKey, bankIdx, bankStatusSub, canIdx, dmaObj, instBase, launchIdx, coreIdx, dmaIdx, logBase, trigIdx] <;> (try split)) <;> omega) | with_reducible assumption | with_reducible apply State.bankField_low | with_reducible apply State.wr_low | with_reducible apply State.zeroRange_low | simp only [low_same] | intro _ | dsimp only))
@[simp] theorem State.bankRetain_low {s0 : State} (s : State) (b : Nat) (hc : Low s0 s) :
    Low s0 (State.bankRetain s b) := by
  unfold State.bankRetain
  repeat' first | first | omega | ((simp +zetaDelta only [odKey, bankIdx, bankStatusSub, canIdx, dmaObj, instBase, launchIdx, coreIdx, dmaIdx, logBase, trigIdx] <;> (try split)) <;> omega) | (with_reducible first | assumption | apply State.bankField_low | apply State.wr_low) | dsimp only
@[simp] theorem State.waitFor_low {s0 : State} (s : State) (w : BankWait) (hc : Low s0 s) :
    Low s0 (State.waitFor s w) := by
  unfold State.waitFor
  repeat' first | first | omega | ((simp +zetaDelta only [odKey, bankIdx, bankStatusSub, canIdx, dmaObj, instBase, launchIdx, coreIdx, dmaIdx, logBase, trigIdx] <;> (try split)) <;> omega) | (with_reducible first | assumption | apply State.noteNotOn_low) | simp only [low_same] | dsimp only
@[simp] theorem State.memStores_low {s0 : State} (s : State) (p : Path) (a : Nat) (size : Size) (d : List Byte) (x0 : Nat) (hc : Low s0 s) :
    Low s0 (State.memStores s p a size d x0) := by
  induction x0 generalizing s p a size d <;> first | (simp_all [State.memStores]; done) | (unfold State.memStores; (repeat' split) <;> simp_all)
@[simp] theorem State.readAnswer_low {s0 : State} (s : State) (p : Path) (d : List Byte) (err : Bool) (hc : Low s0 s) :
    Low s0 (State.readAnswer s p d err) := by
  unfold State.readAnswer
  repeat' first | first | omega | ((simp +zetaDelta only [odKey, bankIdx, bankStatusSub, canIdx, dmaObj, instBase, launchIdx, coreIdx, dmaIdx, logBase, trigIdx] <;> (try split)) <;> omega) | (with_reducible first | assumption | apply low_ite | apply State.cnt_low | apply State.emit_low) | dsimp only
@[simp] theorem State.atomicAnswer_low {s0 : State} (s : State) (p : Path) (n : Nat) (r : Nat × Bool) (hc : Low s0 s) :
    Low s0 (State.atomicAnswer s p n r) := by
  unfold State.atomicAnswer
  repeat' first | first | omega | ((simp +zetaDelta only [odKey, bankIdx, bankStatusSub, canIdx, dmaObj, instBase, launchIdx, coreIdx, dmaIdx, logBase, trigIdx] <;> (try split)) <;> omega) | (with_reducible first | assumption | apply low_ite | apply State.readAnswer_low | apply low_ite2 | apply low_ite3 | apply low_ite4) | simp only [low_same] | dsimp only
@[simp] theorem State.bankSettled_low {s0 : State} (s : State) (b : Nat) (hc : Low s0 s) :
    Low s0 (State.bankSettled s b) := by
  unfold State.bankSettled
  repeat' first | first | omega | ((simp +zetaDelta only [odKey, bankIdx, bankStatusSub, canIdx, dmaObj, instBase, launchIdx, coreIdx, dmaIdx, logBase, trigIdx] <;> (try split)) <;> omega) | (with_reducible first | assumption | apply State.bankField_low | apply State.event_low) | simp only [low_same] | dsimp only
@[simp] theorem State.doBankPower_low {s0 : State} (s : State) (b v : Nat) (hc : Low s0 s) :
    Low s0 (State.doBankPower s b v) := by
  unfold State.doBankPower
  extract_lets z0
  have h0 : Low s0 z0 := by repeat' first | first | omega | ((simp +zetaDelta only [odKey, bankIdx, bankStatusSub, canIdx, dmaObj, instBase, launchIdx, coreIdx, dmaIdx, logBase, trigIdx] <;> (try split)) <;> omega) | (with_reducible first | assumption | apply State.wr_low) | dsimp only
  try clear_value z0
  repeat' first | first | omega | ((simp +zetaDelta only [odKey, bankIdx, bankStatusSub, canIdx, dmaObj, instBase, launchIdx, coreIdx, dmaIdx, logBase, trigIdx] <;> (try split)) <;> omega) | (with_reducible first | assumption | apply low_ite | apply State.bankGo_low) | dsimp only
@[simp] theorem State.wake_low {s0 : State} (s : State) (src : Nat) (hc : Low s0 s) :
    Low s0 (State.wake s src) := by
  unfold State.wake
  repeat' first | first | omega | ((simp +zetaDelta only [odKey, bankIdx, bankStatusSub, canIdx, dmaObj, instBase, launchIdx, coreIdx, dmaIdx, logBase, trigIdx] <;> (try split)) <;> omega) | (with_reducible first | assumption | apply low_ite) | simp only [low_same] | dsimp only | split
@[simp] theorem State.setChord_low {s0 : State} (s : State) (d : Nat) (x : Chord) (hc : Low s0 s) :
    Low s0 (State.setChord s d x) := by
  unfold State.setChord
  repeat' first | first | omega | ((simp +zetaDelta only [odKey, bankIdx, bankStatusSub, canIdx, dmaObj, instBase, launchIdx, coreIdx, dmaIdx, logBase, trigIdx] <;> (try split)) <;> omega) | (with_reducible first | assumption) | simp only [low_same] | intro _ | dsimp only
@[simp] theorem State.stat_low {s0 : State} (s : State) (p j : Nat) (hc : Low s0 s) :
    Low s0 (State.stat s p j) := by
  unfold State.stat
  repeat' first | first | omega | ((simp +zetaDelta only [odKey, bankIdx, bankStatusSub, canIdx, dmaObj, instBase, launchIdx, coreIdx, dmaIdx, logBase, trigIdx] <;> (try split)) <;> omega) | (with_reducible first | assumption | apply State.cntH_low) | dsimp only
@[simp] theorem State.statAdd_low {s0 : State} (s : State) (p j w k : Nat) (hc : Low s0 s) :
    Low s0 (State.statAdd s p j w k) := by
  unfold State.statAdd
  repeat' first | first | omega | ((simp +zetaDelta only [odKey, bankIdx, bankStatusSub, canIdx, dmaObj, instBase, launchIdx, coreIdx, dmaIdx, logBase, trigIdx] <;> (try split)) <;> omega) | (with_reducible first | assumption | apply State.addH_low) | dsimp only
@[simp] theorem State.portEvent_low {s0 : State} (s : State) (p b : Nat) (hc : Low s0 s) :
    Low s0 (State.portEvent s p b) := by
  unfold State.portEvent
  repeat' first | first | omega | ((simp +zetaDelta only [odKey, bankIdx, bankStatusSub, canIdx, dmaObj, instBase, launchIdx, coreIdx, dmaIdx, logBase, trigIdx] <;> (try split)) <;> omega) | (with_reducible first | assumption | apply State.event_low) | dsimp only
@[simp] theorem State.countRx_low {s0 : State} (s : State) (p : Nat) (d : List Byte) (r : RxResult) (hc : Low s0 s) : Low s0 (State.countRx s p d r) := by
  unfold State.countRx; (repeat' (first | first | omega | ((simp +zetaDelta only [odKey, bankIdx, bankStatusSub, canIdx, dmaObj, instBase, launchIdx, coreIdx, dmaIdx, logBase, trigIdx] <;> (try split)) <;> omega) | with_reducible assumption | with_reducible apply low_ite | with_reducible apply low_ite2 | with_reducible apply low_ite3 | with_reducible apply low_ite4 | with_reducible apply State.stat_low | with_reducible apply State.statAdd_low | simp only [low_same] | intro _ | dsimp only | split))
@[simp] theorem State.beginTx_low {s0 : State} (s : State) (p phase : Nat) (c : TxCur) (hc : Low s0 s) :
    Low s0 (State.beginTx s p phase c) := by
  unfold State.beginTx
  extract_lets z0
  repeat' first | first | omega | ((simp +zetaDelta only [odKey, bankIdx, bankStatusSub, canIdx, dmaObj, instBase, launchIdx, coreIdx, dmaIdx, logBase, trigIdx] <;> (try split)) <;> omega) | (with_reducible first | assumption | apply State.setPort_low) | simp only [low_same] | dsimp only
@[simp] theorem State.setSw_low {s0 : State} (s : State) (f : Switch → Switch) (hc : Low s0 s) :
    Low s0 (State.setSw s f) := by
  unfold State.setSw
  repeat' first | first | omega | ((simp +zetaDelta only [odKey, bankIdx, bankStatusSub, canIdx, dmaObj, instBase, launchIdx, coreIdx, dmaIdx, logBase, trigIdx] <;> (try split)) <;> omega) | (with_reducible first | assumption) | simp only [low_same] | dsimp only
@[simp] theorem State.swCnt_low {s0 : State} (s : State) (j : Nat) (hc : Low s0 s) :
    Low s0 (State.swCnt s j) := by
  unfold State.swCnt
  repeat' first | first | omega | ((simp +zetaDelta only [odKey, bankIdx, bankStatusSub, canIdx, dmaObj, instBase, launchIdx, coreIdx, dmaIdx, logBase, trigIdx] <;> (try split)) <;> omega) | (with_reducible first | assumption | apply State.cntH_low) | dsimp only
@[simp] theorem State.swEvent_low {s0 : State} (s : State) (b : Nat) (hc : Low s0 s) :
    Low s0 (State.swEvent s b) := by
  unfold State.swEvent
  repeat' first | first | omega | ((simp +zetaDelta only [odKey, bankIdx, bankStatusSub, canIdx, dmaObj, instBase, launchIdx, coreIdx, dmaIdx, logBase, trigIdx] <;> (try split)) <;> omega) | (with_reducible first | assumption | apply State.event_low) | dsimp only
@[simp] theorem State.drop_low {s0 : State} (s : State) (st c : Nat) (hc : Low s0 s) :
    Low s0 (State.drop s st c) := by
  unfold State.drop
  repeat' first | first | omega | ((simp +zetaDelta only [odKey, bankIdx, bankStatusSub, canIdx, dmaObj, instBase, launchIdx, coreIdx, dmaIdx, logBase, trigIdx] <;> (try split)) <;> omega) | (with_reducible first | assumption | apply State.cntH_low) | dsimp only
@[simp] theorem State.setQueue_low {s0 : State} (s : State) (st c : Nat) (l : List QEntry) (hc : Low s0 s) :
    Low s0 (State.setQueue s st c l) := by
  unfold State.setQueue
  repeat' first | first | omega | ((simp +zetaDelta only [odKey, bankIdx, bankStatusSub, canIdx, dmaObj, instBase, launchIdx, coreIdx, dmaIdx, logBase, trigIdx] <;> (try split)) <;> omega) | (with_reducible first | assumption | apply State.setSw_low) | simp only [low_same] | intro _ | dsimp only
@[simp] theorem State.setFrame_low {s0 : State} (s : State) (f : Nat) (x : SwFrame) (hc : Low s0 s) :
    Low s0 (State.setFrame s f x) := by
  unfold State.setFrame
  repeat' first | first | omega | ((simp +zetaDelta only [odKey, bankIdx, bankStatusSub, canIdx, dmaObj, instBase, launchIdx, coreIdx, dmaIdx, logBase, trigIdx] <;> (try split)) <;> omega) | (with_reducible first | assumption | apply State.setSw_low) | simp only [low_same] | intro _ | dsimp only
@[simp] theorem State.setUsed_low {s0 : State} (s : State) (st c u : Nat) (hc : Low s0 s) :
    Low s0 (State.setUsed s st c u) := by
  unfold State.setUsed
  extract_lets z0 z1
  repeat' first | first | omega | ((simp +zetaDelta only [odKey, bankIdx, bankStatusSub, canIdx, dmaObj, instBase, launchIdx, coreIdx, dmaIdx, logBase, trigIdx] <;> (try split)) <;> omega) | (with_reducible first | assumption | apply State.wr_low) | dsimp only
@[simp] theorem State.writeQueue_low {s0 : State} (s : State) (st c v : Nat) (hc : Low s0 s) :
    Low s0 (State.writeQueue s st c v) := by
  unfold State.writeQueue
  extract_lets z0 z1
  have h1 : Low s0 z1 := by repeat' first | first | omega | ((simp +zetaDelta only [odKey, bankIdx, bankStatusSub, canIdx, dmaObj, instBase, launchIdx, coreIdx, dmaIdx, logBase, trigIdx] <;> (try split)) <;> omega) | (with_reducible first | assumption | apply State.wr_low) | dsimp only
  try clear_value z1
  repeat' first | first | omega | ((simp +zetaDelta only [odKey, bankIdx, bankStatusSub, canIdx, dmaObj, instBase, launchIdx, coreIdx, dmaIdx, logBase, trigIdx] <;> (try split)) <;> omega) | (with_reducible first | assumption | apply State.wr_low) | dsimp only
@[simp] theorem State.setGate_low {s0 : State} (s : State) (p : Nat) (g : GateCtl) (hc : Low s0 s) :
    Low s0 (State.setGate s p g) := by
  unfold State.setGate
  repeat' first | first | omega | ((simp +zetaDelta only [odKey, bankIdx, bankStatusSub, canIdx, dmaObj, instBase, launchIdx, coreIdx, dmaIdx, logBase, trigIdx] <;> (try split)) <;> omega) | (with_reducible first | assumption | apply State.setSw_low) | simp only [low_same] | intro _ | dsimp only
@[simp] theorem State.touchCredit_low {s0 : State} (s : State) (p : Nat) (hc : Low s0 s) :
    Low s0 (State.touchCredit s p) := by
  unfold State.touchCredit
  extract_lets z0 z1 z2 z3
  repeat' first | first | omega | ((simp +zetaDelta only [odKey, bankIdx, bankStatusSub, canIdx, dmaObj, instBase, launchIdx, coreIdx, dmaIdx, logBase, trigIdx] <;> (try split)) <;> omega) | (with_reducible first | assumption | apply low_ite | apply State.setPort_low) | simp only [low_same] | dsimp only
theorem State.takeCell_low {s0 : State} (s : State) {t1} (h : State.takeCell s = some t1) (hc : Low s0 s) :
    Low s0 t1.2 := by
  simp only [State.takeCell] at h
  repeat' split at h
  all_goals first | (simp only [Option.some.injEq, reduceCtorEq] at h; done) | (simp only [Option.some.injEq] at h; subst h)
  all_goals (repeat' first | first | omega | ((simp +zetaDelta only [odKey, bankIdx, bankStatusSub, canIdx, dmaObj, instBase, launchIdx, coreIdx, dmaIdx, logBase, trigIdx] <;> (try split)) <;> omega) | (with_reducible first | assumption | apply low_ite | apply State.setSw_low | apply State.wr_low) | simp only [low_same] | intro _ | dsimp only | split)

@[simp] theorem State.freeCells_low {s0 : State} (s : State) (l : List Nat) (hc : Low s0 s) :
    Low s0 (State.freeCells s l) := by
  unfold State.freeCells
  repeat' first | first | omega | ((simp +zetaDelta only [odKey, bankIdx, bankStatusSub, canIdx, dmaObj, instBase, launchIdx, coreIdx, dmaIdx, logBase, trigIdx] <;> (try split)) <;> omega) | (with_reducible first | assumption | apply State.setSw_low | apply State.wr_low) | simp only [low_same] | intro _ | dsimp only
@[simp] theorem State.shareCells_low {s0 : State} (s : State) (d : Int) (hc : Low s0 s) :
    Low s0 (State.shareCells s d) := by
  unfold State.shareCells
  repeat' first | first | omega | ((simp +zetaDelta only [odKey, bankIdx, bankStatusSub, canIdx, dmaObj, instBase, launchIdx, coreIdx, dmaIdx, logBase, trigIdx] <;> (try split)) <;> omega) | (with_reducible first | assumption | apply State.wr_low) | dsimp only
@[simp] theorem State.queuePause_low {s0 : State} (s : State) (p c quanta : Nat) (hc : Low s0 s) :
    Low s0 (State.queuePause s p c quanta) := by
  unfold State.queuePause
  repeat' first | first | omega | ((simp +zetaDelta only [odKey, bankIdx, bankStatusSub, canIdx, dmaObj, instBase, launchIdx, coreIdx, dmaIdx, logBase, trigIdx] <;> (try split)) <;> omega) | (with_reducible first | assumption | apply low_ite | apply State.setPort_low) | simp only [low_same] | dsimp only
@[simp] theorem State.flowControl_low {s0 : State} (s : State) (p c : Nat) (hc : Low s0 s) :
    Low s0 (State.flowControl s p c) := by
  unfold State.flowControl
  extract_lets z0 z1
  repeat' first | first | omega | ((simp +zetaDelta only [odKey, bankIdx, bankStatusSub, canIdx, dmaObj, instBase, launchIdx, coreIdx, dmaIdx, logBase, trigIdx] <;> (try split)) <;> omega) | (with_reducible first | assumption | apply low_ite | apply State.clrBits_low | apply State.queuePause_low | apply State.setBit_low) | dsimp only
@[simp] theorem State.addHeld_low {s0 : State} (s : State) (p c : Nat) (d : Int) (hc : Low s0 s) :
    Low s0 (State.addHeld s p c d) := by
  unfold State.addHeld
  repeat' first | first | omega | ((simp +zetaDelta only [odKey, bankIdx, bankStatusSub, canIdx, dmaObj, instBase, launchIdx, coreIdx, dmaIdx, logBase, trigIdx] <;> (try split)) <;> omega) | (with_reducible first | assumption | apply State.flowControl_low | apply State.setSw_low) | simp only [low_same] | intro _ | dsimp only
@[simp] theorem State.storeCells_low {s0 : State} (s : State) (f k : Nat) (d : List Byte) (hc : Low s0 s) : Low s0 (s.storeCells f k d) := by
  induction k generalizing s d with
  | zero => simpa [State.storeCells] using hc
  | succ k ih =>
    unfold State.storeCells
    split
    · exact hc
    · split
      · exact hc
      · rename_i h
        exact ih _ _ (State.addHeld_low _ _ _ _ (State.shareCells_low _ _ (State.setFrame_low _ _ _
          (State.setBytes_low _ _ _ (State.takeCell_low _ h hc)))))
@[simp] theorem State.freeFrame_low {s0 : State} (s : State) (f : Nat) (hc : Low s0 s) :
    Low s0 (State.freeFrame s f) := by
  unfold State.freeFrame
  extract_lets z0 z1 z2
  have h1 : Low s0 z1 := by repeat' first | first | omega | ((simp +zetaDelta only [odKey, bankIdx, bankStatusSub, canIdx, dmaObj, instBase, launchIdx, coreIdx, dmaIdx, logBase, trigIdx] <;> (try split)) <;> omega) | (with_reducible first | assumption | apply State.freeCells_low | apply State.shareCells_low) | dsimp only
  try clear_value z1
  have h2 : Low s0 z2 := by repeat' first | first | omega | ((simp +zetaDelta only [odKey, bankIdx, bankStatusSub, canIdx, dmaObj, instBase, launchIdx, coreIdx, dmaIdx, logBase, trigIdx] <;> (try split)) <;> omega) | (with_reducible first | assumption | apply State.setSw_low) | simp only [low_same] | intro _ | dsimp only
  try clear_value z2
  repeat' first | first | omega | ((simp +zetaDelta only [odKey, bankIdx, bankStatusSub, canIdx, dmaObj, instBase, launchIdx, coreIdx, dmaIdx, logBase, trigIdx] <;> (try split)) <;> omega) | (with_reducible first | assumption | apply State.addHeld_low) | dsimp only
@[simp] theorem State.unref_low {s0 : State} (s : State) (f : Nat) (hc : Low s0 s) :
    Low s0 (State.unref s f) := by
  unfold State.unref
  extract_lets z0
  repeat' first | first | omega | ((simp +zetaDelta only [odKey, bankIdx, bankStatusSub, canIdx, dmaObj, instBase, launchIdx, coreIdx, dmaIdx, logBase, trigIdx] <;> (try split)) <;> omega) | (with_reducible first | assumption | apply low_ite | apply State.freeFrame_low | apply State.setFrame_low) | simp only [low_same] | dsimp only
@[simp] theorem State.releaseEntry_low {s0 : State} (s : State) (st c : Nat) (e : QEntry) (hc : Low s0 s) :
    Low s0 (State.releaseEntry s st c e) := by
  unfold State.releaseEntry
  repeat' first | first | omega | ((simp +zetaDelta only [odKey, bankIdx, bankStatusSub, canIdx, dmaObj, instBase, launchIdx, coreIdx, dmaIdx, logBase, trigIdx] <;> (try split)) <;> omega) | (with_reducible first | assumption | apply State.setUsed_low | apply State.unref_low | apply State.wr_low) | dsimp only
@[simp] theorem State.flushQueue_low {s0 : State} (s : State) (st c : Nat) (hc : Low s0 s) :
    Low s0 (State.flushQueue s st c) := by
  unfold State.flushQueue
  repeat' first | first | omega | ((simp +zetaDelta only [odKey, bankIdx, bankStatusSub, canIdx, dmaObj, instBase, launchIdx, coreIdx, dmaIdx, logBase, trigIdx] <;> (try split)) <;> omega) | (with_reducible first | assumption | (apply low_foldl; intro _ _ _) | apply State.drop_low | apply State.releaseEntry_low | apply State.setQueue_low) | intro _ | dsimp only
@[simp] theorem State.flushStation_low {s0 : State} (s : State) (st : Nat) (hc : Low s0 s) :
    Low s0 (State.flushStation s st) := by
  unfold State.flushStation
  repeat' first | first | omega | ((simp +zetaDelta only [odKey, bankIdx, bankStatusSub, canIdx, dmaObj, instBase, launchIdx, coreIdx, dmaIdx, logBase, trigIdx] <;> (try split)) <;> omega) | (with_reducible first | assumption | (apply low_foldl; intro _ _ _) | apply State.flushQueue_low) | intro _ | dsimp only
@[simp] theorem State.switchClear_low {s0 : State} (s : State) (hc : Low s0 s) :
    Low s0 (State.switchClear s) := by
  unfold State.switchClear
  extract_lets z0 z1 z2 z3 z4 z5
  have h0 : Low s0 z0 := by repeat' first | first | omega | ((simp +zetaDelta only [odKey, bankIdx, bankStatusSub, canIdx, dmaObj, instBase, launchIdx, coreIdx, dmaIdx, logBase, trigIdx] <;> (try split)) <;> omega) | (with_reducible first | assumption | apply low_ite | (apply low_foldl; intro _ _ _) | apply State.setUsed_low) | intro _ | dsimp only
  try clear_value z0
  have h3 : Low s0 z3 := by repeat' first | first | omega | ((simp +zetaDelta only [odKey, bankIdx, bankStatusSub, canIdx, dmaObj, instBase, launchIdx, coreIdx, dmaIdx, logBase, trigIdx] <;> (try split)) <;> omega) | (with_reducible first | assumption | apply State.wr_low) | dsimp only
  try clear_value z3
  have h4 : Low s0 z4 := by repeat' first | first | omega | ((simp +zetaDelta only [odKey, bankIdx, bankStatusSub, canIdx, dmaObj, instBase, launchIdx, coreIdx, dmaIdx, logBase, trigIdx] <;> (try split)) <;> omega) | (with_reducible first | assumption | apply State.setSw_low) | simp only [low_same] | intro _ | dsimp only
  try clear_value z4
  have h5 : Low s0 z5 := by repeat' first | first | omega | ((simp +zetaDelta only [odKey, bankIdx, bankStatusSub, canIdx, dmaObj, instBase, launchIdx, coreIdx, dmaIdx, logBase, trigIdx] <;> (try split)) <;> omega) | (with_reducible first | assumption | apply low_ite | (apply low_foldl; intro _ _ _) | apply State.wr_low) | intro _ | dsimp only
  try clear_value z5
  repeat' first | first | omega | ((simp +zetaDelta only [odKey, bankIdx, bankStatusSub, canIdx, dmaObj, instBase, launchIdx, coreIdx, dmaIdx, logBase, trigIdx] <;> (try split)) <;> omega) | (with_reducible first | assumption | apply low_ite | (apply low_foldl; intro _ _ _) | apply State.setPort_low) | simp only [low_same] | intro _ | dsimp only | split
@[simp] theorem State.dropPortFrames_low {s0 : State} (s : State) (p : Nat) (hc : Low s0 s) : Low s0 (State.dropPortFrames s p) := by
  unfold State.dropPortFrames; (repeat' (first | first | omega | ((simp +zetaDelta only [odKey, bankIdx, bankStatusSub, canIdx, dmaObj, instBase, launchIdx, coreIdx, dmaIdx, logBase, trigIdx] <;> (try split)) <;> omega) | with_reducible assumption | with_reducible apply State.drop_low | with_reducible apply State.flushStation_low | with_reducible apply State.releaseEntry_low | with_reducible apply State.setPort_low | simp only [low_same] | intro _ | dsimp only | with_reducible apply low_ite | split))
@[simp] theorem State.setStream_low {s0 : State} (s : State) (h : Nat) (x : Stream) (hc : Low s0 s) :
    Low s0 (State.setStream s h x) := by
  unfold State.setStream
  repeat' first | first | omega | ((simp +zetaDelta only [odKey, bankIdx, bankStatusSub, canIdx, dmaObj, instBase, launchIdx, coreIdx, dmaIdx, logBase, trigIdx] <;> (try split)) <;> omega) | (with_reducible first | assumption | apply State.setSw_low) | simp only [low_same] | intro _ | dsimp only
@[simp] theorem State.halfIf_low {s0 : State} (s : State) (b : Bool) (hc : Low s0 s) :
    Low s0 (State.halfIf s b) := by
  unfold State.halfIf
  repeat' first | first | omega | ((simp +zetaDelta only [odKey, bankIdx, bankStatusSub, canIdx, dmaObj, instBase, launchIdx, coreIdx, dmaIdx, logBase, trigIdx] <;> (try split)) <;> omega) | (with_reducible first | assumption | apply low_ite | apply State.swEvent_low) | dsimp only
@[simp] theorem State.setSgate_low {s0 : State} (s : State) (g : Nat) (x : SGate) (hc : Low s0 s) :
    Low s0 (State.setSgate s g x) := by
  unfold State.setSgate
  repeat' first | first | omega | ((simp +zetaDelta only [odKey, bankIdx, bankStatusSub, canIdx, dmaObj, instBase, launchIdx, coreIdx, dmaIdx, logBase, trigIdx] <;> (try split)) <;> omega) | (with_reducible first | assumption | apply State.setSw_low) | simp only [low_same] | intro _ | dsimp only
@[simp] theorem State.setMeter_low {s0 : State} (s : State) (m : Nat) (x : Meter) (hc : Low s0 s) :
    Low s0 (State.setMeter s m x) := by
  unfold State.setMeter
  repeat' first | first | omega | ((simp +zetaDelta only [odKey, bankIdx, bankStatusSub, canIdx, dmaObj, instBase, launchIdx, coreIdx, dmaIdx, logBase, trigIdx] <;> (try split)) <;> omega) | (with_reducible first | assumption | apply State.setSw_low) | simp only [low_same] | intro _ | dsimp only
@[simp] theorem State.metered_low {s0 : State} (s : State) (mi n : Nat) (yellowIn : Bool) (hc : Low s0 s) :
    Low s0 (State.metered s mi n yellowIn).2 := by
  unfold State.metered
  extract_lets z0 z1 z2 z3 z4
  repeat' first | first | omega | ((simp +zetaDelta only [odKey, bankIdx, bankStatusSub, canIdx, dmaObj, instBase, launchIdx, coreIdx, dmaIdx, logBase, trigIdx] <;> (try split)) <;> omega) | (with_reducible first | assumption | apply State.halfIf_low | apply State.setMeter_low) | dsimp only
@[simp] theorem State.filterStream_low {s0 : State} (s : State) (h cls n : Nat) (yellowIn : Bool) (hc : Low s0 s) :
    Low s0 (State.filterStream s h cls n yellowIn).2.2 := by
  unfold State.filterStream
  extract_lets z0 z1 z2 z3 z4 z5 z6 z7
  have h3 : Low s0 z3 := by repeat' first | first | omega | ((simp +zetaDelta only [odKey, bankIdx, bankStatusSub, canIdx, dmaObj, instBase, launchIdx, coreIdx, dmaIdx, logBase, trigIdx] <;> (try split)) <;> omega) | (with_reducible first | assumption | apply State.halfIf_low | apply State.setStream_low) | dsimp only
  try clear_value z3
  repeat' first | first | omega | ((simp +zetaDelta only [odKey, bankIdx, bankStatusSub, canIdx, dmaObj, instBase, launchIdx, coreIdx, dmaIdx, logBase, trigIdx] <;> (try split)) <;> omega) | (with_reducible first | assumption | apply low_ite | apply State.halfIf_low | apply State.metered_low | apply State.setStream_low | apply State.swEvent_low | apply low_ite2 | apply low_ite3 | apply low_ite4) | simp only [low_same] | dsimp only
@[simp] theorem State.setCb_low {s0 : State} (s : State) (h : Nat) (x : Cb) (hc : Low s0 s) :
    Low s0 (State.setCb s h x) := by
  unfold State.setCb
  repeat' first | first | omega | ((simp +zetaDelta only [odKey, bankIdx, bankStatusSub, canIdx, dmaObj, instBase, launchIdx, coreIdx, dmaIdx, logBase, trigIdx] <;> (try split)) <;> omega) | (with_reducible first | assumption | apply State.setSw_low) | simp only [low_same] | intro _ | dsimp only
@[simp] theorem State.setFdb_low {s0 : State} (s : State) (e : Nat) (x : FdbEntry) (hc : Low s0 s) :
    Low s0 (State.setFdb s e x) := by
  unfold State.setFdb
  repeat' first | first | omega | ((simp +zetaDelta only [odKey, bankIdx, bankStatusSub, canIdx, dmaObj, instBase, launchIdx, coreIdx, dmaIdx, logBase, trigIdx] <;> (try split)) <;> omega) | (with_reducible first | assumption | apply State.setSw_low) | simp only [low_same] | intro _ | dsimp only
@[simp] theorem State.showFdb_low {s0 : State} (s : State) (hc : Low s0 s) :
    Low s0 (State.showFdb s) := by
  unfold State.showFdb
  repeat' first | first | omega | ((simp +zetaDelta only [odKey, bankIdx, bankStatusSub, canIdx, dmaObj, instBase, launchIdx, coreIdx, dmaIdx, logBase, trigIdx] <;> (try split)) <;> omega) | (with_reducible first | assumption | apply State.wr_low) | dsimp only
@[simp] theorem State.learn_low {s0 : State} (s : State) (p mac vid : Nat) (hc : Low s0 s) :
    Low s0 (State.learn s p mac vid) := by
  unfold State.learn
  repeat' first | first | omega | ((simp +zetaDelta only [odKey, bankIdx, bankStatusSub, canIdx, dmaObj, instBase, launchIdx, coreIdx, dmaIdx, logBase, trigIdx] <;> (try split)) <;> omega) | (with_reducible first | assumption | apply low_ite | apply State.cnt_low | apply State.setFdb_low | apply State.showFdb_low | apply State.swEvent_low) | simp only [low_same] | dsimp only | split
@[simp] theorem State.latCnt_low {s0 : State} (s : State) (j : Nat) (hc : Low s0 s) :
    Low s0 (State.latCnt s j) := by
  unfold State.latCnt
  repeat' first | first | omega | ((simp +zetaDelta only [odKey, bankIdx, bankStatusSub, canIdx, dmaObj, instBase, launchIdx, coreIdx, dmaIdx, logBase, trigIdx] <;> (try split)) <;> omega) | (with_reducible first | assumption | apply State.cntH_low) | dsimp only
@[simp] theorem State.enqueue_low {s0 : State} (s : State) (t : Nat) (e : QEntry) (hc : Low s0 s) :
    Low s0 (State.enqueue s t e) := by
  unfold State.enqueue
  extract_lets z0 z1
  have h0 : Low s0 z0 := by repeat' first | first | omega | ((simp +zetaDelta only [odKey, bankIdx, bankStatusSub, canIdx, dmaObj, instBase, launchIdx, coreIdx, dmaIdx, logBase, trigIdx] <;> (try split)) <;> omega) | (with_reducible first | assumption | apply low_ite | apply State.touchCredit_low) | dsimp only
  try clear_value z0
  have h1 : Low s0 z1 := by repeat' first | first | omega | ((simp +zetaDelta only [odKey, bankIdx, bankStatusSub, canIdx, dmaObj, instBase, launchIdx, coreIdx, dmaIdx, logBase, trigIdx] <;> (try split)) <;> omega) | (with_reducible first | assumption | apply State.setQueue_low) | dsimp only
  try clear_value z1
  repeat' first | first | omega | ((simp +zetaDelta only [odKey, bankIdx, bankStatusSub, canIdx, dmaObj, instBase, launchIdx, coreIdx, dmaIdx, logBase, trigIdx] <;> (try split)) <;> omega) | (with_reducible first | assumption | apply State.setUsed_low | apply State.wr_low) | dsimp only
@[simp] theorem State.admitFrame_low {s0 : State} (s : State) (ingress cls n : Nat) (dests : List Nat) (mk : Nat → QEntry) (hc : Low s0 s) :
    Low s0 (State.admitFrame s ingress cls n dests mk).2 := by
  unfold State.admitFrame
  extract_lets z0 z1 z2
  have h2 : Low s0 z2 := by repeat' first | first | omega | ((simp +zetaDelta only [odKey, bankIdx, bankStatusSub, canIdx, dmaObj, instBase, launchIdx, coreIdx, dmaIdx, logBase, trigIdx] <;> (try split)) <;> omega) | (with_reducible first | assumption | (apply low_foldl; intro _ _ _) | apply State.drop_low) | intro _ | dsimp only
  try clear_value z2
  repeat' first | first | omega | ((simp +zetaDelta only [odKey, bankIdx, bankStatusSub, canIdx, dmaObj, instBase, launchIdx, coreIdx, dmaIdx, logBase, trigIdx] <;> (try split)) <;> omega) | (with_reducible first | assumption | apply low_ite | (apply low_foldl; intro _ _ _) | apply State.enqueue_low | apply State.setFrame_low | apply State.setSw_low | apply low_ite2 | apply low_ite3 | apply low_ite4) | simp only [low_same] | intro _ | dsimp only
@[simp] theorem State.cbEgress_low {s0 : State} (s : State) (h : Option Nat) (d : List Byte) (hc : Low s0 s) :
    Low s0 (State.cbEgress s h d).2.2.2.2 := by
  unfold State.cbEgress
  repeat' first | first | omega | ((simp +zetaDelta only [odKey, bankIdx, bankStatusSub, canIdx, dmaObj, instBase, launchIdx, coreIdx, dmaIdx, logBase, trigIdx] <;> (try split)) <;> omega) | (with_reducible first | assumption | apply low_ite | apply State.setCb_low | apply low_ite2 | apply low_ite3 | apply low_ite4) | simp only [low_same] | intro _ | dsimp only | split
@[simp] theorem State.returnCharge_low {s0 : State} (s : State) (f n : Nat) (hc : Low s0 s) :
    Low s0 (State.returnCharge s f n) := by
  unfold State.returnCharge
  repeat' first | first | omega | ((simp +zetaDelta only [odKey, bankIdx, bankStatusSub, canIdx, dmaObj, instBase, launchIdx, coreIdx, dmaIdx, logBase, trigIdx] <;> (try split)) <;> omega) | (with_reducible first | assumption | apply low_ite | (apply low_foldl; intro _ _ _) | apply State.setQueue_low | apply State.setUsed_low) | simp only [low_same] | intro _ | dsimp only | split
@[simp] theorem State.unqueue_low {s0 : State} (s : State) (f : Nat) (hc : Low s0 s) :
    Low s0 (State.unqueue s f) := by
  unfold State.unqueue
  repeat' first | first | omega | ((simp +zetaDelta only [odKey, bankIdx, bankStatusSub, canIdx, dmaObj, instBase, launchIdx, coreIdx, dmaIdx, logBase, trigIdx] <;> (try split)) <;> omega) | (with_reducible first | assumption | (apply low_foldl; intro _ _ _) | apply State.releaseEntry_low | apply State.setQueue_low) | simp only [low_same] | intro _ | dsimp only | split
@[simp] theorem State.feedEgress_low {s0 : State} (s : State) (f n : Nat) (d : List Byte) (bad : Bool) (hc : Low s0 s) :
    Low s0 (State.feedEgress s f n d bad) := by
  unfold State.feedEgress
  repeat' first | first | omega | ((simp +zetaDelta only [odKey, bankIdx, bankStatusSub, canIdx, dmaObj, instBase, launchIdx, coreIdx, dmaIdx, logBase, trigIdx] <;> (try split)) <;> omega) | (with_reducible first | assumption | apply low_ite | (apply low_foldl; intro _ _ _) | apply State.setPort_low | apply State.setUsed_low) | simp only [low_same] | intro _ | dsimp only | split
@[simp] theorem State.storeComplete_low {s0 : State} (s : State) (p : Nat) (hc : Low s0 s) :
    Low s0 (State.storeComplete s p) := by
  unfold State.storeComplete
  extract_lets z0
  repeat' first | first | omega | ((simp +zetaDelta only [odKey, bankIdx, bankStatusSub, canIdx, dmaObj, instBase, launchIdx, coreIdx, dmaIdx, logBase, trigIdx] <;> (try split)) <;> omega) | (with_reducible first | assumption | apply low_ite | apply State.feedEgress_low | apply State.learn_low | apply State.returnCharge_low | apply State.setFrame_low | apply State.setPort_low | apply State.storeCells_low | apply State.unqueue_low | apply low_ite2 | apply low_ite3 | apply low_ite4) | simp only [low_same] | intro _ | dsimp only | split
@[simp] theorem State.latEvent_low {s0 : State} (s : State) (b : Nat) (hc : Low s0 s) :
    Low s0 (State.latEvent s b) := by
  unfold State.latEvent
  repeat' first | first | omega | ((simp +zetaDelta only [odKey, bankIdx, bankStatusSub, canIdx, dmaObj, instBase, launchIdx, coreIdx, dmaIdx, logBase, trigIdx] <;> (try split)) <;> omega) | (with_reducible first | assumption | apply State.event_low) | dsimp only
@[simp] theorem State.neighbourLost_low {s0 : State} (s : State) (n : Nat) (hc : Low s0 s) : Low s0 (State.neighbourLost s n) := by
  unfold State.neighbourLost; (repeat' (first | first | omega | ((simp +zetaDelta only [odKey, bankIdx, bankStatusSub, canIdx, dmaObj, instBase, launchIdx, coreIdx, dmaIdx, logBase, trigIdx] <;> (try split)) <;> omega) | with_reducible assumption | with_reducible apply low_ite | with_reducible apply low_ite2 | with_reducible apply low_ite3 | with_reducible apply low_ite4 | with_reducible apply State.cnt_low | with_reducible apply State.latEvent_low | with_reducible apply State.wr_low | simp only [low_same] | intro _ | dsimp only))
@[simp] theorem State.neighboursDown_low {s0 : State} (s : State) (p : Nat) (hc : Low s0 s) :
    Low s0 (State.neighboursDown s p) := by
  unfold State.neighboursDown
  repeat' first | first | omega | ((simp +zetaDelta only [odKey, bankIdx, bankStatusSub, canIdx, dmaObj, instBase, launchIdx, coreIdx, dmaIdx, logBase, trigIdx] <;> (try split)) <;> omega) | (with_reducible first | assumption | apply low_ite | (apply low_foldl; intro _ _ _) | apply State.neighbourLost_low) | intro _ | dsimp only
@[simp] theorem State.chordFollow_low {s0 : State} (s : State) (d : Nat) (hc : Low s0 s) :
    Low s0 (State.chordFollow s d) := by
  unfold State.chordFollow
  extract_lets z0
  repeat' first | first | omega | ((simp +zetaDelta only [odKey, bankIdx, bankStatusSub, canIdx, dmaObj, instBase, launchIdx, coreIdx, dmaIdx, logBase, trigIdx] <;> (try split)) <;> omega) | (with_reducible first | assumption | apply low_ite | apply State.event_low | apply State.wr_low) | dsimp only
@[simp] theorem State.chordsFollow_low {s0 : State} (s : State) (hc : Low s0 s) :
    Low s0 (State.chordsFollow s) := by
  unfold State.chordsFollow
  extract_lets z0
  have h0 : Low s0 z0 := by repeat' first | first | omega | ((simp +zetaDelta only [odKey, bankIdx, bankStatusSub, canIdx, dmaObj, instBase, launchIdx, coreIdx, dmaIdx, logBase, trigIdx] <;> (try split)) <;> omega) | (with_reducible first | assumption | (apply low_foldl; intro _ _ _) | apply State.chordFollow_low) | dsimp only
  try clear_value z0
  repeat' first | first | omega | ((simp +zetaDelta only [odKey, bankIdx, bankStatusSub, canIdx, dmaObj, instBase, launchIdx, coreIdx, dmaIdx, logBase, trigIdx] <;> (try split)) <;> omega) | (with_reducible first | assumption | (apply low_foldl; intro _ _ _) | apply State.putBits_low) | intro _ | dsimp only
@[simp] theorem State.preemptStart_low {s0 : State} (s : State) (p : Nat) (hc : Low s0 s) :
    Low s0 (State.preemptStart s p) := by
  unfold State.preemptStart
  extract_lets z0 z1 z2 z3
  have h3 : Low s0 z3 := by repeat' first | first | omega | ((simp +zetaDelta only [odKey, bankIdx, bankStatusSub, canIdx, dmaObj, instBase, launchIdx, coreIdx, dmaIdx, logBase, trigIdx] <;> (try split)) <;> omega) | (with_reducible first | assumption | apply low_ite | apply State.portEvent_low | apply State.setPort_low | apply State.wr_low) | simp only [low_same] | dsimp only
  try clear_value z3
  repeat' first | first | omega | ((simp +zetaDelta only [odKey, bankIdx, bankStatusSub, canIdx, dmaObj, instBase, launchIdx, coreIdx, dmaIdx, logBase, trigIdx] <;> (try split)) <;> omega) | (with_reducible first | assumption | apply low_ite | apply State.portEvent_low | apply State.setPort_low | apply State.wr_low) | simp only [low_same] | dsimp only
@[simp] theorem State.loseLaneFrame_low {s0 : State} (s : State) (p : Nat) (hc : Low s0 s) :
    Low s0 (State.loseLaneFrame s p) := by
  unfold State.loseLaneFrame
  repeat' first | first | omega | ((simp +zetaDelta only [odKey, bankIdx, bankStatusSub, canIdx, dmaObj, instBase, launchIdx, coreIdx, dmaIdx, logBase, trigIdx] <;> (try split)) <;> omega) | (with_reducible first | assumption | apply low_ite | (apply low_foldl; intro _ _ _) | apply State.setEngine_low) | simp only [low_same] | intro _ | dsimp only
@[simp] theorem State.cutRx_low {s0 : State} (s : State) (p n : Nat) (hc : Low s0 s) :
    Low s0 (State.cutRx s p n) := by
  unfold State.cutRx
  extract_lets z0 z1 z2
  have h0 : Low s0 z0 := by repeat' first | first | omega | ((simp +zetaDelta only [odKey, bankIdx, bankStatusSub, canIdx, dmaObj, instBase, launchIdx, coreIdx, dmaIdx, logBase, trigIdx] <;> (try split)) <;> omega) | (with_reducible first | assumption | apply State.stat_low) | dsimp only
  try clear_value z0
  have h1 : Low s0 z1 := by repeat' first | first | omega | ((simp +zetaDelta only [odKey, bankIdx, bankStatusSub, canIdx, dmaObj, instBase, launchIdx, coreIdx, dmaIdx, logBase, trigIdx] <;> (try split)) <;> omega) | (with_reducible first | assumption | apply low_ite | apply State.stat_low) | dsimp only
  try clear_value z1
  have h2 : Low s0 z2 := by repeat' first | first | omega | ((simp +zetaDelta only [odKey, bankIdx, bankStatusSub, canIdx, dmaObj, instBase, launchIdx, coreIdx, dmaIdx, logBase, trigIdx] <;> (try split)) <;> omega) | (with_reducible first | assumption | apply low_ite | (apply low_foldl; intro _ _ _) | apply State.setEngine_low) | intro _ | dsimp only
  try clear_value z2
  repeat' first | first | omega | ((simp +zetaDelta only [odKey, bankIdx, bankStatusSub, canIdx, dmaObj, instBase, launchIdx, coreIdx, dmaIdx, logBase, trigIdx] <;> (try split)) <;> omega) | (with_reducible first | assumption | apply State.setPort_low | apply State.storeComplete_low) | simp only [low_same] | dsimp only
@[simp] theorem State.linkDown_low {s0 : State} (s : State) (p : Nat) (hc : Low s0 s) :
    Low s0 (State.linkDown s p) := by
  unfold State.linkDown
  repeat' first | first | omega | ((simp +zetaDelta only [odKey, bankIdx, bankStatusSub, canIdx, dmaObj, instBase, launchIdx, coreIdx, dmaIdx, logBase, trigIdx] <;> (try split)) <;> omega) | (with_reducible first | assumption | apply low_ite | apply State.chordLoss_low | apply State.chordsFollow_low | apply State.clrBits_low | apply State.dropPortFrames_low | apply State.loseLaneFrame_low | apply State.neighboursDown_low | apply State.portEvent_low | apply State.preemptStart_low | apply State.stat_low) | dsimp only
@[simp] theorem State.linkCome_low {s0 : State} (s : State) (p told : Nat) (hc : Low s0 s) :
    Low s0 (State.linkCome s p told) := by
  unfold State.linkCome
  extract_lets z0 z1
  repeat' first | first | omega | ((simp +zetaDelta only [odKey, bankIdx, bankStatusSub, canIdx, dmaObj, instBase, launchIdx, coreIdx, dmaIdx, logBase, trigIdx] <;> (try split)) <;> omega) | (with_reducible first | assumption | apply low_ite | apply State.chordBack_low | apply State.chordsFollow_low | apply State.portEvent_low | apply State.preemptStart_low | apply State.setPort_low | apply State.wr_low) | simp only [low_same] | dsimp only
@[simp] theorem State.applyLinkCfg_low {s0 : State} (s : State) (p : Nat) (hc : Low s0 s) :
    Low s0 (State.applyLinkCfg s p) := by
  unfold State.applyLinkCfg
  repeat' first | first | omega | ((simp +zetaDelta only [odKey, bankIdx, bankStatusSub, canIdx, dmaObj, instBase, launchIdx, coreIdx, dmaIdx, logBase, trigIdx] <;> (try split)) <;> omega) | (with_reducible first | assumption | apply State.setPort_low) | simp only [low_same] | dsimp only
@[simp] theorem State.applyRxCfg_low {s0 : State} (s : State) (p : Nat) (hc : Low s0 s) :
    Low s0 (State.applyRxCfg s p) := by
  unfold State.applyRxCfg
  repeat' first | first | omega | ((simp +zetaDelta only [odKey, bankIdx, bankStatusSub, canIdx, dmaObj, instBase, launchIdx, coreIdx, dmaIdx, logBase, trigIdx] <;> (try split)) <;> omega) | (with_reducible first | assumption | apply State.setPort_low) | simp only [low_same] | dsimp only
@[simp] theorem State.applyTxCfg_low {s0 : State} (s : State) (p : Nat) (hc : Low s0 s) :
    Low s0 (State.applyTxCfg s p) := by
  unfold State.applyTxCfg
  repeat' first | first | omega | ((simp +zetaDelta only [odKey, bankIdx, bankStatusSub, canIdx, dmaObj, instBase, launchIdx, coreIdx, dmaIdx, logBase, trigIdx] <;> (try split)) <;> omega) | (with_reducible first | assumption | apply State.setPort_low) | simp only [low_same] | dsimp only
theorem State.effPort_low {s0 : State} (s : State) (i j v : Nat) {t1} (h : State.effPort s i j v = some t1) (hc : Low s0 s) :
    Low s0 t1 := by
  simp only [State.effPort] at h
  repeat' split at h
  all_goals first | (simp only [Option.some.injEq, reduceCtorEq] at h; done) | (simp only [Option.some.injEq] at h; subst h)
  all_goals (repeat' first | first | omega | ((simp +zetaDelta only [odKey, bankIdx, bankStatusSub, canIdx, dmaObj, instBase, launchIdx, coreIdx, dmaIdx, logBase, trigIdx] <;> (try split)) <;> omega) | (with_reducible first | assumption | apply low_ite | apply State.applyLinkCfg_low | apply State.applyRxCfg_low | apply State.applyTxCfg_low | apply State.flushStation_low | apply State.linkDown_low | apply State.preemptStart_low | apply State.setPort_low | apply State.wr_low) | simp only [low_same] | intro _ | dsimp only | split)

@[simp] theorem State.setMdio_low {s0 : State} (s : State) (m : Nat) (x : Mdio) (hc : Low s0 s) :
    Low s0 (State.setMdio s m x) := by
  unfold State.setMdio
  repeat' first | first | omega | ((simp +zetaDelta only [odKey, bankIdx, bankStatusSub, canIdx, dmaObj, instBase, launchIdx, coreIdx, dmaIdx, logBase, trigIdx] <;> (try split)) <;> omega) | (with_reducible first | assumption) | simp only [low_same] | intro _ | dsimp only
@[simp] theorem State.mdioStart_low {s0 : State} (s : State) (m v : Nat) (hc : Low s0 s) :
    Low s0 (State.mdioStart s m v) := by
  unfold State.mdioStart
  repeat' first | first | omega | ((simp +zetaDelta only [odKey, bankIdx, bankStatusSub, canIdx, dmaObj, instBase, launchIdx, coreIdx, dmaIdx, logBase, trigIdx] <;> (try split)) <;> omega) | (with_reducible first | assumption | apply State.emit_low | apply State.setBit_low | apply State.setMdio_low | apply State.wr_low) | dsimp only
@[simp] theorem State.mdioFrame_low {s0 : State} (s : State) (q : Path) (m op : Nat) (phy reg : BitVec 5) (data : Half) (hc : Low s0 s) :
    Low s0 (State.mdioFrame s q m op phy reg data) := by
  unfold State.mdioFrame
  repeat' first | first | omega | ((simp +zetaDelta only [odKey, bankIdx, bankStatusSub, canIdx, dmaObj, instBase, launchIdx, coreIdx, dmaIdx, logBase, trigIdx] <;> (try split)) <;> omega) | (with_reducible first | assumption | apply State.guard_low | apply State.mdioStart_low) | intro _ | dsimp only
@[simp] theorem State.dropOversize_low {s0 : State} (s : State) (p : Nat) (hc : Low s0 s) :
    Low s0 (State.dropOversize s p) := by
  unfold State.dropOversize
  repeat' first | first | omega | ((simp +zetaDelta only [odKey, bankIdx, bankStatusSub, canIdx, dmaObj, instBase, launchIdx, coreIdx, dmaIdx, logBase, trigIdx] <;> (try split)) <;> omega) | (with_reducible first | assumption | apply low_ite | (apply low_foldl; intro _ _ _) | apply State.drop_low | apply State.releaseEntry_low | apply State.setQueue_low) | simp only [low_same] | intro _ | dsimp only | split
@[simp] theorem State.startQueue_low {s0 : State} (s : State) (p c phase : Nat) (hc : Low s0 s) :
    Low s0 (State.startQueue s p c phase) := by
  unfold State.startQueue
  repeat' first | first | omega | ((simp +zetaDelta only [odKey, bankIdx, bankStatusSub, canIdx, dmaObj, instBase, launchIdx, coreIdx, dmaIdx, logBase, trigIdx] <;> (try split)) <;> omega) | (with_reducible first | assumption | apply low_ite | apply State.beginTx_low | apply State.latCnt_low | apply State.releaseEntry_low | apply State.setPort_low | apply State.setQueue_low) | simp only [low_same] | dsimp only | split
@[simp] theorem State.startPause_low {s0 : State} (s : State) (p phase : Nat) (hc : Low s0 s) :
    Low s0 (State.startPause s p phase) := by
  unfold State.startPause
  repeat' first | first | omega | ((simp +zetaDelta only [odKey, bankIdx, bankStatusSub, canIdx, dmaObj, instBase, launchIdx, coreIdx, dmaIdx, logBase, trigIdx] <;> (try split)) <;> omega) | (with_reducible first | assumption | apply low_ite | apply State.beginTx_low | apply State.setPort_low) | simp only [low_same] | dsimp only | split
@[simp] theorem State.startLane_low {s0 : State} (s : State) (e : Nat) (hc : Low s0 s) :
    Low s0 (State.startLane s e) := by
  unfold State.startLane
  repeat' first | first | omega | ((simp +zetaDelta only [odKey, bankIdx, bankStatusSub, canIdx, dmaObj, instBase, launchIdx, coreIdx, dmaIdx, logBase, trigIdx] <;> (try split)) <;> omega) | (with_reducible first | assumption | apply State.setEngine_low | apply State.settleTx_low) | simp only [low_same] | dsimp only
@[simp] theorem State.countTx_low {s0 : State} (s : State) (p : Nat) (d : List Byte) (stomp : Bool) (c : TxCur) (hc : Low s0 s) :
    Low s0 (State.countTx s p d stomp c) := by
  unfold State.countTx
  extract_lets z0 z1
  have h1 : Low s0 z1 := by repeat' first | first | omega | ((simp +zetaDelta only [odKey, bankIdx, bankStatusSub, canIdx, dmaObj, instBase, launchIdx, coreIdx, dmaIdx, logBase, trigIdx] <;> (try split)) <;> omega) | (with_reducible first | assumption | apply State.stat_low) | dsimp only
  try clear_value z1
  repeat' first | first | omega | ((simp +zetaDelta only [odKey, bankIdx, bankStatusSub, canIdx, dmaObj, instBase, launchIdx, coreIdx, dmaIdx, logBase, trigIdx] <;> (try split)) <;> omega) | (with_reducible first | assumption | apply low_ite | apply State.stat_low | apply State.statAdd_low) | dsimp only
@[simp] theorem State.unitWrite_low {s0 : State} (s : State) (a : Nat) (d : List Byte) (hc : Low s0 s) :
    Low s0 (State.unitWrite s a d) := by
  unfold State.unitWrite
  repeat' first | first | omega | ((simp +zetaDelta only [odKey, bankIdx, bankStatusSub, canIdx, dmaObj, instBase, launchIdx, coreIdx, dmaIdx, logBase, trigIdx] <;> (try split)) <;> omega) | (with_reducible first | assumption | (apply low_foldl; intro _ _ _) | apply State.drop_low | apply State.memWrite_low) | intro _ | dsimp only
@[simp] theorem State.gateChange_low {s0 : State} (s : State) (p : Nat) (hc : Low s0 s) :
    Low s0 (State.gateChange s p) := by
  unfold State.gateChange
  extract_lets z0
  repeat' first | first | omega | ((simp +zetaDelta only [odKey, bankIdx, bankStatusSub, canIdx, dmaObj, instBase, launchIdx, coreIdx, dmaIdx, logBase, trigIdx] <;> (try split)) <;> omega) | (with_reducible first | assumption | apply State.cnt_low | apply State.setGate_low | apply State.swEvent_low | apply State.wr_low) | simp only [low_same] | dsimp only | split
@[simp] theorem State.gateOp_low {s0 : State} (s : State) (p op : Nat) (hc : Low s0 s) :
    Low s0 (State.gateOp s p op) := by
  unfold State.gateOp
  extract_lets z0 z1
  repeat' first | first | omega | ((simp +zetaDelta only [odKey, bankIdx, bankStatusSub, canIdx, dmaObj, instBase, launchIdx, coreIdx, dmaIdx, logBase, trigIdx] <;> (try split)) <;> omega) | (with_reducible first | assumption | apply low_ite | apply State.setPort_low | apply State.stat_low) | simp only [low_same] | dsimp only
@[simp] theorem State.moveGate_low {s0 : State} (s : State) (p : Nat) (g : GateCtl) (hc : Low s0 s) : Low s0 (State.moveGate s p g) := by
  unfold State.moveGate; extract_lets z0 z1 z2; (try (first | (have : Low s0 z0 := by (first | ((repeat' (first | first | omega | ((simp +zetaDelta only [odKey, bankIdx, bankStatusSub, canIdx, dmaObj, instBase, launchIdx, coreIdx, dmaIdx, logBase, trigIdx] <;> (try split)) <;> omega) | with_reducible assumption | with_reducible apply low_ite | with_reducible apply low_ite2 | with_reducible apply low_ite3 | with_reducible apply low_ite4 | with_reducible apply State.cntH_low | with_reducible apply State.gateOp_low | with_reducible apply State.setGate_low | with_reducible apply State.touchCredit_low | simp only [low_same] | intro _ | dsimp only | split)); done) | ((try dsimp only); (repeat' (first | first | omega | ((simp +zetaDelta only [odKey, bankIdx, bankStatusSub, canIdx, dmaObj, instBase, launchIdx, coreIdx, dmaIdx, logBase, trigIdx] <;> (try split)) <;> omega) | with_reducible assumption | with_reducible apply low_ite | with_reducible apply low_ite2 | with_reducible apply low_ite3 | with_reducible apply low_ite4 | with_reducible apply State.cntH_low | with_reducible apply State.gateOp_low | with_reducible apply State.setGate_low | with_reducible apply State.touchCredit_low | simp only [low_same] | intro _ | dsimp only | split)); done) | (simp only [z0]; (repeat' (first | first | omega | ((simp +zetaDelta only [odKey, bankIdx, bankStatusSub, canIdx, dmaObj, instBase, launchIdx, coreIdx, dmaIdx, logBase, trigIdx] <;> (try split)) <;> omega) | with_reducible assumption | with_reducible apply low_ite | with_reducible apply low_ite2 | with_reducible apply low_ite3 | with_reducible apply low_ite4 | with_reducible apply State.cntH_low | with_reducible apply State.gateOp_low | with_reducible apply State.setGate_low | with_reducible apply State.touchCredit_low | simp only [low_same] | intro _ | dsimp only | split)); done))) | (have : Low s0 z0.2 := by ((try dsimp only); (repeat' (first | first | omega | ((simp +zetaDelta only [odKey, bankIdx, bankStatusSub, canIdx, dmaObj, instBase, launchIdx, coreIdx, dmaIdx, logBase, trigIdx] <;> (try split)) <;> omega) | with_reducible assumption | with_reducible apply low_ite | with_reducible apply low_ite2 | with_reducible apply low_ite3 | with_reducible apply low_ite4 | with_reducible apply State.cntH_low | with_reducible apply State.gateOp_low | with_reducible apply State.setGate_low | with_reducible apply State.touchCredit_low | simp only [low_same] | intro _ | dsimp only | split)); done)) | (have : Low s0 z0.2.2 := by ((try dsimp only); (repeat' (first | first | omega | ((simp +zetaDelta only [odKey, bankIdx, bankStatusSub, canIdx, dmaObj, instBase, launchIdx, coreIdx, dmaIdx, logBase, trigIdx] <;> (try split)) <;> omega) | with_reducible assumption | with_reducible apply low_ite | with_reducible apply low_ite2 | with_reducible apply low_ite3 | with_reducible apply low_ite4 | with_reducible apply State.cntH_low | with_reducible apply State.gateOp_low | with_reducible apply State.setGate_low | with_reducible apply State.touchCredit_low | simp only [low_same] | intro _ | dsimp only | split)); done)))); (try clear_value z0); (try (first | (have : Low s0 z1 := by (first | ((repeat' (first | first | omega | ((simp +zetaDelta only [odKey, bankIdx, bankStatusSub, canIdx, dmaObj, instBase, launchIdx, coreIdx, dmaIdx, logBase, trigIdx] <;> (try split)) <;> omega) | with_reducible assumption | with_reducible apply low_ite | with_reducible apply low_ite2 | with_reducible apply low_ite3 | with_reducible apply low_ite4 | with_reducible apply State.cntH_low | with_reducible apply State.gateOp_low | with_reducible apply State.setGate_low | with_reducible apply State.touchCredit_low | simp only [low_same] | intro _ | dsimp only | split)); done) | ((try dsimp only); (repeat' (first | first | omega | ((simp +zetaDelta only [odKey, bankIdx, bankStatusSub, canIdx, dmaObj, instBase, launchIdx, coreIdx, dmaIdx, logBase, trigIdx] <;> (try split)) <;> omega) | with_reducible assumption | with_reducible apply low_ite | with_reducible apply low_ite2 | with_reducible apply low_ite3 | with_reducible apply low_ite4 | with_reducible apply State.cntH_low | with_reducible apply State.gateOp_low | with_reducible apply State.setGate_low | with_reducible apply State.touchCredit_low | simp only [low_same] | intro _ | dsimp only | split)); done) | (simp only [z1]; (repeat' (first | first | omega | ((simp +zetaDelta only [odKey, bankIdx, bankStatusSub, canIdx, dmaObj, instBase, launchIdx, coreIdx, dmaIdx, logBase, trigIdx] <;> (try split)) <;> omega) | with_reducible assumption | with_reducible apply low_ite | with_reducible apply low_ite2 | with_reducible apply low_ite3 | with_reducible apply low_ite4 | with_reducible apply State.cntH_low | with_reducible apply State.gateOp_low | with_reducible apply State.setGate_low | with_reducible apply State.touchCredit_low | simp only [low_same] | intro _ | dsimp only | split)); done))) | (have : Low s0 z1.2 := by ((try dsimp only); (repeat' (first | first | omega | ((simp +zetaDelta only [odKey, bankIdx, bankStatusSub, canIdx, dmaObj, instBase, launchIdx, coreIdx, dmaIdx, logBase, trigIdx] <;> (try split)) <;> omega) | with_reducible assumption | with_reducible apply low_ite | with_reducible apply low_ite2 | with_reducible apply low_ite3 | with_reducible apply low_ite4 | with_reducible apply State.cntH_low | with_reducible apply State.gateOp_low | with_reducible apply State.setGate_low | with_reducible apply State.touchCredit_low | simp only [low_same] | intro _ | dsimp only | split)); done)) | (have : Low s0 z1.2.2 := by ((try dsimp only); (repeat' (first | first | omega | ((simp +zetaDelta only [odKey, bankIdx, bankStatusSub, canIdx, dmaObj, instBase, launchIdx, coreIdx, dmaIdx, logBase, trigIdx] <;> (try split)) <;> omega) | with_reducible assumption | with_reducible apply low_ite | with_reducible apply low_ite2 | with_reducible apply low_ite3 | with_reducible apply low_ite4 | with_reducible apply State.cntH_low | with_reducible apply State.gateOp_low | with_reducible apply State.setGate_low | with_reducible apply State.touchCredit_low | simp only [low_same] | intro _ | dsimp only | split)); done)))); (try clear_value z1); (try (first | (have : Low s0 z2 := by (first | ((repeat' (first | first | omega | ((simp +zetaDelta only [odKey, bankIdx, bankStatusSub, canIdx, dmaObj, instBase, launchIdx, coreIdx, dmaIdx, logBase, trigIdx] <;> (try split)) <;> omega) | with_reducible assumption | with_reducible apply low_ite | with_reducible apply low_ite2 | with_reducible apply low_ite3 | with_reducible apply low_ite4 | with_reducible apply State.cntH_low | with_reducible apply State.gateOp_low | with_reducible apply State.setGate_low | with_reducible apply State.touchCredit_low | simp only [low_same] | intro _ | dsimp only | split)); done) | ((try dsimp only); (repeat' (first | first | omega | ((simp +zetaDelta only [odKey, bankIdx, bankStatusSub, canIdx, dmaObj, instBase, launchIdx, coreIdx, dmaIdx, logBase, trigIdx] <;> (try split)) <;> omega) | with_reducible assumption | with_reducible apply low_ite | with_reducible apply low_ite2 | with_reducible apply low_ite3 | with_reducible apply low_ite4 | with_reducible apply State.cntH_low | with_reducible apply State.gateOp_low | with_reducible apply State.setGate_low | with_reducible apply State.touchCredit_low | simp only [low_same] | intro _ | dsimp only | split)); done) | (simp only [z2]; (repeat' (first | first | omega | ((simp +zetaDelta only [odKey, bankIdx, bankStatusSub, canIdx, dmaObj, instBase, launchIdx, coreIdx, dmaIdx, logBase, trigIdx] <;> (try split)) <;> omega) | with_reducible assumption | with_reducible apply low_ite | with_reducible apply low_ite2 | with_reducible apply low_ite3 | with_reducible apply low_ite4 | with_reducible apply State.cntH_low | with_reducible apply State.gateOp_low | with_reducible apply State.setGate_low | with_reducible apply State.touchCredit_low | simp only [low_same] | intro _ | dsimp only | split)); done))) | (have : Low s0 z2.2 := by ((try dsimp only); (repeat' (first | first | omega | ((simp +zetaDelta only [odKey, bankIdx, bankStatusSub, canIdx, dmaObj, instBase, launchIdx, coreIdx, dmaIdx, logBase, trigIdx] <;> (try split)) <;> omega) | with_reducible assumption | with_reducible apply low_ite | with_reducible apply low_ite2 | with_reducible apply low_ite3 | with_reducible apply low_ite4 | with_reducible apply State.cntH_low | with_reducible apply State.gateOp_low | with_reducible apply State.setGate_low | with_reducible apply State.touchCredit_low | simp only [low_same] | intro _ | dsimp only | split)); done)) | (have : Low s0 z2.2.2 := by ((try dsimp only); (repeat' (first | first | omega | ((simp +zetaDelta only [odKey, bankIdx, bankStatusSub, canIdx, dmaObj, instBase, launchIdx, coreIdx, dmaIdx, logBase, trigIdx] <;> (try split)) <;> omega) | with_reducible assumption | with_reducible apply low_ite | with_reducible apply low_ite2 | with_reducible apply low_ite3 | with_reducible apply low_ite4 | with_reducible apply State.cntH_low | with_reducible apply State.gateOp_low | with_reducible apply State.setGate_low | with_reducible apply State.touchCredit_low | simp only [low_same] | intro _ | dsimp only | split)); done)))); (try clear_value z2); (try dsimp only); (repeat' (first | first | omega | ((simp +zetaDelta only [odKey, bankIdx, bankStatusSub, canIdx, dmaObj, instBase, launchIdx, coreIdx, dmaIdx, logBase, trigIdx] <;> (try split)) <;> omega) | with_reducible assumption | with_reducible apply low_ite | with_reducible apply low_ite2 | with_reducible apply low_ite3 | with_reducible apply low_ite4 | with_reducible apply State.cntH_low | with_reducible apply State.gateOp_low | with_reducible apply State.setGate_low | with_reducible apply State.touchCredit_low | simp only [low_same] | intro _ | dsimp only | split))
@[simp] theorem State.spliceStart_low {s0 : State} (s : State) (d v : Nat) (hc : Low s0 s) :
    Low s0 (State.spliceStart s d v) := by
  unfold State.spliceStart
  repeat' first | first | omega | ((simp +zetaDelta only [odKey, bankIdx, bankStatusSub, canIdx, dmaObj, instBase, launchIdx, coreIdx, dmaIdx, logBase, trigIdx] <;> (try split)) <;> omega) | (with_reducible first | assumption | apply State.setChord_low | apply State.wr_low) | simp only [low_same] | dsimp only
@[simp] theorem State.spliceCommit_low {s0 : State} (s : State) (d v : Nat) (hc : Low s0 s) :
    Low s0 (State.spliceCommit s d v) := by
  unfold State.spliceCommit
  extract_lets z0
  have h0 : Low s0 z0 := by repeat' first | first | omega | ((simp +zetaDelta only [odKey, bankIdx, bankStatusSub, canIdx, dmaObj, instBase, launchIdx, coreIdx, dmaIdx, logBase, trigIdx] <;> (try split)) <;> omega) | (with_reducible first | assumption | apply State.wr_low) | dsimp only
  try clear_value z0
  repeat' first | first | omega | ((simp +zetaDelta only [odKey, bankIdx, bankStatusSub, canIdx, dmaObj, instBase, launchIdx, coreIdx, dmaIdx, logBase, trigIdx] <;> (try split)) <;> omega) | (with_reducible first | assumption | apply low_ite | apply State.setChord_low | apply State.spliceStart_low) | simp only [low_same] | dsimp only
@[simp] theorem State.spliceActivate_low {s0 : State} (s : State) (d : Nat) (hc : Low s0 s) :
    Low s0 (State.spliceActivate s d) := by
  unfold State.spliceActivate
  repeat' first | first | omega | ((simp +zetaDelta only [odKey, bankIdx, bankStatusSub, canIdx, dmaObj, instBase, launchIdx, coreIdx, dmaIdx, logBase, trigIdx] <;> (try split)) <;> omega) | (with_reducible first | assumption | apply State.cnt_low | apply State.event_low | apply State.setChord_low | apply State.wr_low) | simp only [low_same] | dsimp only | split
@[simp] theorem State.chordCnt_low {s0 : State} (s : State) (d j : Nat) (hc : Low s0 s) :
    Low s0 (State.chordCnt s d j) := by
  unfold State.chordCnt
  repeat' first | first | omega | ((simp +zetaDelta only [odKey, bankIdx, bankStatusSub, canIdx, dmaObj, instBase, launchIdx, coreIdx, dmaIdx, logBase, trigIdx] <;> (try split)) <;> omega) | (with_reducible first | assumption | apply State.cntH_low) | dsimp only
@[simp] theorem State.spliceWork_low {s0 : State} (s : State) (d : Nat) (f : List Nib) (win : List Word → Bool) (hc : Low s0 s) :
    Low s0 (State.spliceWork s d f win).2 := by
  unfold State.spliceWork
  extract_lets z0 z1 z2 z3 z4 z5
  have h3 : Low s0 z3 := by repeat' first | first | omega | ((simp +zetaDelta only [odKey, bankIdx, bankStatusSub, canIdx, dmaObj, instBase, launchIdx, coreIdx, dmaIdx, logBase, trigIdx] <;> (try split)) <;> omega) | (with_reducible first | assumption | apply low_ite | apply State.chordCnt_low | apply State.event_low | apply low_ite2 | apply low_ite3 | apply low_ite4) | dsimp only
  try clear_value z3
  have h4 : Low s0 z4 := by repeat' first | first | omega | ((simp +zetaDelta only [odKey, bankIdx, bankStatusSub, canIdx, dmaObj, instBase, launchIdx, coreIdx, dmaIdx, logBase, trigIdx] <;> (try split)) <;> omega) | (with_reducible first | assumption | apply low_ite | apply State.addW_low | apply low_ite2 | apply low_ite3 | apply low_ite4) | dsimp only
  try clear_value z4
  have h5 : Low s0 z5 := by repeat' first | first | omega | ((simp +zetaDelta only [odKey, bankIdx, bankStatusSub, canIdx, dmaObj, instBase, launchIdx, coreIdx, dmaIdx, logBase, trigIdx] <;> (try split)) <;> omega) | (with_reducible first | assumption | apply low_ite | apply State.chordCnt_low | apply low_ite2 | apply low_ite3 | apply low_ite4) | dsimp only
  try clear_value z5
  repeat' first | first | omega | ((simp +zetaDelta only [odKey, bankIdx, bankStatusSub, canIdx, dmaObj, instBase, launchIdx, coreIdx, dmaIdx, logBase, trigIdx] <;> (try split)) <;> omega) | (with_reducible first | assumption | apply low_ite | apply State.setChord_low | apply low_ite2 | apply low_ite3 | apply low_ite4) | simp only [low_same] | dsimp only
@[simp] theorem State.chordSent_low {s0 : State} (s : State) (p : Nat) (wire : List Byte) (stomp : Bool) (t : Nat) (hc : Low s0 s) :
    Low s0 (State.chordSent s p wire stomp t) := by
  unfold State.chordSent
  extract_lets z0 z1 z2
  have h2 : Low s0 z2 := by repeat' first | first | omega | ((simp +zetaDelta only [odKey, bankIdx, bankStatusSub, canIdx, dmaObj, instBase, launchIdx, coreIdx, dmaIdx, logBase, trigIdx] <;> (try split)) <;> omega) | (with_reducible first | assumption | apply State.countTx_low | apply State.emit_low) | dsimp only
  try clear_value z2
  repeat' first | first | omega | ((simp +zetaDelta only [odKey, bankIdx, bankStatusSub, canIdx, dmaObj, instBase, launchIdx, coreIdx, dmaIdx, logBase, trigIdx] <;> (try split)) <;> omega) | (with_reducible first | assumption | apply low_ite | apply State.setPort_low) | simp only [low_same] | dsimp only
@[simp] theorem State.chordFrame_low {s0 : State} (s : State) (d : Nat) (data : List Byte) (er : Option Nat) (express : Bool) (ago phase delay lost : Nat) (hc : Low s0 s) :
    Low s0 (State.chordFrame s d data er express ago phase delay lost) := by
  unfold State.chordFrame
  extract_lets z0 z1 z2
  have h0 : Low s0 z0 := by repeat' first | first | omega | ((simp +zetaDelta only [odKey, bankIdx, bankStatusSub, canIdx, dmaObj, instBase, launchIdx, coreIdx, dmaIdx, logBase, trigIdx] <;> (try split)) <;> omega) | (with_reducible first | assumption | apply State.spliceActivate_low) | dsimp only
  try clear_value z0
  repeat' first | first | omega | ((simp +zetaDelta only [odKey, bankIdx, bankStatusSub, canIdx, dmaObj, instBase, launchIdx, coreIdx, dmaIdx, logBase, trigIdx] <;> (try split)) <;> omega) | (with_reducible first | assumption | apply low_ite | apply State.chordCnt_low | apply State.chordSent_low | apply State.drop_low | apply State.event_low | apply State.setChord_low | apply State.spliceWork_low | apply low_ite2 | apply low_ite3 | apply low_ite4) | simp only [low_same] | intro _ | dsimp only
@[simp] theorem State.unitBytes_low {s0 : State} (s : State) (a : Nat) (x0 : List Byte) (hc : Low s0 s) :
    Low s0 (State.unitBytes s a x0) := by
  induction x0 generalizing s a <;> first | (simp_all [State.unitBytes]; done) | (unfold State.unitBytes; (repeat' split) <;> simp_all)
@[simp] theorem State.captureWrite_low {s0 : State} (s : State) (d : Nat) (hc : Low s0 s) :
    Low s0 (State.captureWrite s d) := by
  unfold State.captureWrite
  repeat' first | first | omega | ((simp +zetaDelta only [odKey, bankIdx, bankStatusSub, canIdx, dmaObj, instBase, launchIdx, coreIdx, dmaIdx, logBase, trigIdx] <;> (try split)) <;> omega) | (with_reducible first | assumption | apply low_ite | (apply low_foldl; intro _ _ _) | apply State.setChord_low | apply State.unitBytes_low) | simp only [low_same] | intro _ | dsimp only | split
@[simp] theorem State.fdbCommand_low {s0 : State} (s : State) (v : Nat) (hc : Low s0 s) :
    Low s0 (State.fdbCommand s v) := by
  unfold State.fdbCommand
  repeat' first | first | omega | ((simp +zetaDelta only [odKey, bankIdx, bankStatusSub, canIdx, dmaObj, instBase, launchIdx, coreIdx, dmaIdx, logBase, trigIdx] <;> (try split)) <;> omega) | (with_reducible first | assumption | apply low_ite | apply State.setSw_low | apply State.wr_low) | simp only [low_same] | intro _ | dsimp only
@[simp] theorem State.fdbShow_low {s0 : State} (s : State) (e : Nat) (hc : Low s0 s) :
    Low s0 (State.fdbShow s e) := by
  unfold State.fdbShow
  extract_lets z0 z1 z2
  repeat' first | first | omega | ((simp +zetaDelta only [odKey, bankIdx, bankStatusSub, canIdx, dmaObj, instBase, launchIdx, coreIdx, dmaIdx, logBase, trigIdx] <;> (try split)) <;> omega) | (with_reducible first | assumption | apply State.wr_low) | dsimp only
@[simp] theorem State.fdbPut_low {s0 : State} (s : State) (hc : Low s0 s) :
    Low s0 (State.fdbPut s) := by
  unfold State.fdbPut
  extract_lets z0 z1 z2
  repeat' first | first | omega | ((simp +zetaDelta only [odKey, bankIdx, bankStatusSub, canIdx, dmaObj, instBase, launchIdx, coreIdx, dmaIdx, logBase, trigIdx] <;> (try split)) <;> omega) | (with_reducible first | assumption | apply State.setFdb_low | apply State.showFdb_low | apply State.wr_low) | simp only [low_same] | dsimp only | split
@[simp] theorem State.fdbDone_low {s0 : State} (s : State) (hc : Low s0 s) :
    Low s0 (State.fdbDone s) := by
  unfold State.fdbDone
  repeat' first | first | omega | ((simp +zetaDelta only [odKey, bankIdx, bankStatusSub, canIdx, dmaObj, instBase, launchIdx, coreIdx, dmaIdx, logBase, trigIdx] <;> (try split)) <;> omega) | (with_reducible first | assumption | apply low_ite | apply State.fdbPut_low | apply State.fdbShow_low | apply State.setSw_low | apply State.showFdb_low | apply State.wr_low | apply low_ite2 | apply low_ite3 | apply low_ite4) | simp only [low_same] | intro _ | dsimp only | split
@[simp] theorem State.streamCommand_low {s0 : State} (s : State) (v : Nat) (hc : Low s0 s) :
    Low s0 (State.streamCommand s v) := by
  unfold State.streamCommand
  extract_lets z0 z1
  repeat' first | first | omega | ((simp +zetaDelta only [odKey, bankIdx, bankStatusSub, canIdx, dmaObj, instBase, launchIdx, coreIdx, dmaIdx, logBase, trigIdx] <;> (try split)) <;> omega) | (with_reducible first | assumption | apply low_ite | apply State.setStream_low | apply State.wr_low) | simp only [low_same] | dsimp only
@[simp] theorem State.sgateStatus_low {s0 : State} (s : State) (g v : Nat) (hc : Low s0 s) :
    Low s0 (State.sgateStatus s g v) := by
  unfold State.sgateStatus
  extract_lets z0
  repeat' first | first | omega | ((simp +zetaDelta only [odKey, bankIdx, bankStatusSub, canIdx, dmaObj, instBase, launchIdx, coreIdx, dmaIdx, logBase, trigIdx] <;> (try split)) <;> omega) | (with_reducible first | assumption | apply low_ite | apply State.setSgate_low | apply State.wr_low) | simp only [low_same] | dsimp only
@[simp] theorem State.sgateChange_low {s0 : State} (s : State) (g : Nat) (hc : Low s0 s) :
    Low s0 (State.sgateChange s g) := by
  unfold State.sgateChange
  extract_lets z0
  repeat' first | first | omega | ((simp +zetaDelta only [odKey, bankIdx, bankStatusSub, canIdx, dmaObj, instBase, launchIdx, coreIdx, dmaIdx, logBase, trigIdx] <;> (try split)) <;> omega) | (with_reducible first | assumption | apply State.setSgate_low | apply State.sgateStatus_low | apply State.swEvent_low) | simp only [low_same] | dsimp only | split
@[simp] theorem State.sgateCommand_low {s0 : State} (s : State) (v : Nat) (hc : Low s0 s) :
    Low s0 (State.sgateCommand s v) := by
  unfold State.sgateCommand
  extract_lets z0 z1
  repeat' first | first | omega | ((simp +zetaDelta only [odKey, bankIdx, bankStatusSub, canIdx, dmaObj, instBase, launchIdx, coreIdx, dmaIdx, logBase, trigIdx] <;> (try split)) <;> omega) | (with_reducible first | assumption | apply low_ite | apply State.setSgate_low | apply State.sgateChange_low | apply State.wr_low) | simp only [low_same] | dsimp only
@[simp] theorem State.meterCommand_low {s0 : State} (s : State) (v : Nat) (hc : Low s0 s) :
    Low s0 (State.meterCommand s v) := by
  unfold State.meterCommand
  extract_lets z0 z1
  repeat' first | first | omega | ((simp +zetaDelta only [odKey, bankIdx, bankStatusSub, canIdx, dmaObj, instBase, launchIdx, coreIdx, dmaIdx, logBase, trigIdx] <;> (try split)) <;> omega) | (with_reducible first | assumption | apply low_ite | apply State.setMeter_low | apply State.wr_low) | simp only [low_same] | dsimp only
@[simp] theorem State.cbCommand_low {s0 : State} (s : State) (v : Nat) (hc : Low s0 s) :
    Low s0 (State.cbCommand s v) := by
  unfold State.cbCommand
  extract_lets z0 z1
  repeat' first | first | omega | ((simp +zetaDelta only [odKey, bankIdx, bankStatusSub, canIdx, dmaObj, instBase, launchIdx, coreIdx, dmaIdx, logBase, trigIdx] <;> (try split)) <;> omega) | (with_reducible first | assumption | apply low_ite | apply State.setCb_low | apply State.wr_low) | simp only [low_same] | intro _ | dsimp only
theorem State.effSwitch_low {s0 : State} (s : State) (i j v : Nat) {t1} (h : State.effSwitch s i j v = some t1) (hc : Low s0 s) :
    Low s0 t1 := by
  simp only [State.effSwitch] at h
  repeat' split at h
  all_goals first | (simp only [Option.some.injEq, reduceCtorEq] at h; done) | (simp only [Option.some.injEq] at h; subst h)
  all_goals (repeat' first | first | omega | ((simp +zetaDelta only [odKey, bankIdx, bankStatusSub, canIdx, dmaObj, instBase, launchIdx, coreIdx, dmaIdx, logBase, trigIdx] <;> (try split)) <;> omega) | (with_reducible first | assumption | apply low_ite | apply State.cbCommand_low | apply State.fdbCommand_low | apply State.gateChange_low | apply State.meterCommand_low | apply State.sgateCommand_low | apply State.streamCommand_low | apply State.switchClear_low | apply State.touchCredit_low | apply State.wr_low | apply State.writeQueue_low) | simp only [low_same] | intro _ | dsimp only | split)

@[simp] theorem State.dmaWrite_low {s0 : State} (s : State) (q : Path) (a : Nat) (d : List Byte) (hc : Low s0 s) :
    Low s0 (State.dmaWrite s q a d) := by
  unfold State.dmaWrite
  repeat' first | first | omega | ((simp +zetaDelta only [odKey, bankIdx, bankStatusSub, canIdx, dmaObj, instBase, launchIdx, coreIdx, dmaIdx, logBase, trigIdx] <;> (try split)) <;> omega) | (with_reducible first | assumption | (apply low_foldl; intro _ _ _) | apply State.drop_low | apply State.memWrite_low) | intro _ | dsimp only
@[simp] theorem State.fillRx_low {s0 : State} (s : State) (x : RxInfo) (k : Nat) (first : Bool) (n : Nat) (d : List Byte) (hc : Low s0 s) : Low s0 (s.fillRx x k first n d).2.2 := by
  induction n generalizing s k first d with
  | zero => exact hc
  | succ n ih =>
    unfold State.fillRx
    extract_lets a size part rest ends cut w2 s1 s2 s3 s4 s5 r
    have h5 : Low s0 s5 := State.dmaWrite_low _ _ _ _ (State.dmaWrite_low _ _ _ _ (State.dmaWrite_low _ _ _ _
      (State.dmaWrite_low _ _ _ _ (low_ite hc (State.tick_low _ hc)))))
    exact low_ite3 h5 (low_ite3 h5 (ih _ _ _ _ h5))
@[simp] theorem State.txDone_low {s0 : State} (s : State) (result : Nat) (x0 : List Nat) (hc : Low s0 s) :
    Low s0 (State.txDone s result x0) := by
  induction x0 generalizing s result <;> first | (simp_all [State.txDone]; done) | (unfold State.txDone; (repeat' split) <;> simp_all)
@[simp] theorem State.auditPass_low {s0 : State} (s : State) (hc : Low s0 s) :
    Low s0 (State.auditPass s) := by
  unfold State.auditPass
  extract_lets z0 z1 z2 z3 z4 z5 z6 z7 z8 z9 z10 z11 z12
  have h6 : Low s0 z6 := by repeat' first | first | omega | ((simp +zetaDelta only [odKey, bankIdx, bankStatusSub, canIdx, dmaObj, instBase, launchIdx, coreIdx, dmaIdx, logBase, trigIdx] <;> (try split)) <;> omega) | (with_reducible first | assumption | apply low_ite | apply State.setSw_low | apply low_ite2 | apply low_ite3 | apply low_ite4) | simp only [low_same] | intro _ | dsimp only
  try clear_value z6
  have h7 : Low s0 z7 := by repeat' first | first | omega | ((simp +zetaDelta only [odKey, bankIdx, bankStatusSub, canIdx, dmaObj, instBase, launchIdx, coreIdx, dmaIdx, logBase, trigIdx] <;> (try split)) <;> omega) | (with_reducible first | assumption | (apply low_foldl; intro _ _ _) | apply State.freeFrame_low) | intro _ | dsimp only
  try clear_value z7
  have h8 : Low s0 z8 := by repeat' first | first | omega | ((simp +zetaDelta only [odKey, bankIdx, bankStatusSub, canIdx, dmaObj, instBase, launchIdx, coreIdx, dmaIdx, logBase, trigIdx] <;> (try split)) <;> omega) | (with_reducible first | assumption | apply low_ite | apply State.freeCells_low | apply State.shareCells_low) | dsimp only
  try clear_value z8
  have h9 : Low s0 z9 := by repeat' first | first | omega | ((simp +zetaDelta only [odKey, bankIdx, bankStatusSub, canIdx, dmaObj, instBase, launchIdx, coreIdx, dmaIdx, logBase, trigIdx] <;> (try split)) <;> omega) | (with_reducible first | assumption | apply low_ite | apply State.wr_low) | dsimp only
  try clear_value z9
  have h10 : Low s0 z10 := by repeat' first | first | omega | ((simp +zetaDelta only [odKey, bankIdx, bankStatusSub, canIdx, dmaObj, instBase, launchIdx, coreIdx, dmaIdx, logBase, trigIdx] <;> (try split)) <;> omega) | (with_reducible first | assumption | apply State.cnt_low | apply State.swEvent_low) | dsimp only
  try clear_value z10
  have h11 : Low s0 z11 := by repeat' first | first | omega | ((simp +zetaDelta only [odKey, bankIdx, bankStatusSub, canIdx, dmaObj, instBase, launchIdx, coreIdx, dmaIdx, logBase, trigIdx] <;> (try split)) <;> omega) | (with_reducible first | assumption | apply low_ite | apply State.swEvent_low | apply State.wr_low) | dsimp only
  try clear_value z11
  have h12 : Low s0 z12 := by repeat' first | first | omega | ((simp +zetaDelta only [odKey, bankIdx, bankStatusSub, canIdx, dmaObj, instBase, launchIdx, coreIdx, dmaIdx, logBase, trigIdx] <;> (try split)) <;> omega) | (with_reducible first | assumption | apply low_ite | apply State.swEvent_low | apply State.wr_low) | dsimp only
  try clear_value z12
  repeat' first | first | omega | ((simp +zetaDelta only [odKey, bankIdx, bankStatusSub, canIdx, dmaObj, instBase, launchIdx, coreIdx, dmaIdx, logBase, trigIdx] <;> (try split)) <;> omega) | (with_reducible first | assumption | apply low_ite | apply State.record_low) | dsimp only
@[simp] theorem State.adjustStart_low {s0 : State} (s : State) (d v : Nat) (hc : Low s0 s) :
    Low s0 (State.adjustStart s d v) := by
  unfold State.adjustStart
  repeat' first | first | omega | ((simp +zetaDelta only [odKey, bankIdx, bankStatusSub, canIdx, dmaObj, instBase, launchIdx, coreIdx, dmaIdx, logBase, trigIdx] <;> (try split)) <;> omega) | (with_reducible first | assumption | apply State.setTdom_low | apply State.wr_low) | simp only [low_same] | dsimp only
@[simp] theorem State.stepCommand_low {s0 : State} (s : State) (d v : Nat) (hc : Low s0 s) :
    Low s0 (State.stepCommand s d v) := by
  unfold State.stepCommand
  repeat' first | first | omega | ((simp +zetaDelta only [odKey, bankIdx, bankStatusSub, canIdx, dmaObj, instBase, launchIdx, coreIdx, dmaIdx, logBase, trigIdx] <;> (try split)) <;> omega) | (with_reducible first | assumption | apply low_ite | apply State.setTdom_low | apply State.wr_low) | simp only [low_same] | dsimp only
@[simp] theorem State.stepAdd_low {s0 : State} (s : State) (d : Nat) (hc : Low s0 s) :
    Low s0 (State.stepAdd s d) := by
  unfold State.stepAdd
  extract_lets z0 z1 z2
  have h2 : Low s0 z2 := by repeat' first | first | omega | ((simp +zetaDelta only [odKey, bankIdx, bankStatusSub, canIdx, dmaObj, instBase, launchIdx, coreIdx, dmaIdx, logBase, trigIdx] <;> (try split)) <;> omega) | (with_reducible first | assumption | apply State.setDomVal_low) | dsimp only
  try clear_value z2
  repeat' first | first | omega | ((simp +zetaDelta only [odKey, bankIdx, bankStatusSub, canIdx, dmaObj, instBase, launchIdx, coreIdx, dmaIdx, logBase, trigIdx] <;> (try split)) <;> omega) | (with_reducible first | assumption | apply State.cnt_low | apply State.event_low | apply State.setTdom_low | apply State.wr_low) | simp only [low_same] | dsimp only
@[simp] theorem State.setPps_low {s0 : State} (s : State) (i : Nat) (x : Pps) (hc : Low s0 s) :
    Low s0 (State.setPps s i x) := by
  unfold State.setPps
  repeat' first | first | omega | ((simp +zetaDelta only [odKey, bankIdx, bankStatusSub, canIdx, dmaObj, instBase, launchIdx, coreIdx, dmaIdx, logBase, trigIdx] <;> (try split)) <;> omega) | (with_reducible first | assumption) | simp only [low_same] | intro _ | dsimp only
@[simp] theorem State.ppsRest_low {s0 : State} (s : State) (i : Nat) (hc : Low s0 s) :
    Low s0 (State.ppsRest s i) := by
  unfold State.ppsRest
  repeat' first | first | omega | ((simp +zetaDelta only [odKey, bankIdx, bankStatusSub, canIdx, dmaObj, instBase, launchIdx, coreIdx, dmaIdx, logBase, trigIdx] <;> (try split)) <;> omega) | (with_reducible first | assumption | apply low_ite | apply State.emit_low | apply State.setPps_low) | simp only [low_same] | dsimp only
@[simp] theorem State.ppsArm_low {s0 : State} (s : State) (i : Nat) (count : Bool) (hc : Low s0 s) :
    Low s0 (State.ppsArm s i count) := by
  unfold State.ppsArm
  extract_lets z0 z1 z2
  repeat' first | first | omega | ((simp +zetaDelta only [odKey, bankIdx, bankStatusSub, canIdx, dmaObj, instBase, launchIdx, coreIdx, dmaIdx, logBase, trigIdx] <;> (try split)) <;> omega) | (with_reducible first | assumption | apply low_ite | apply State.addW_low | apply State.setPps_low | apply low_ite2 | apply low_ite3 | apply low_ite4) | simp only [low_same] | dsimp only
@[simp] theorem State.ppsWrite_low {s0 : State} (s : State) (i j v : Nat) (hc : Low s0 s) :
    Low s0 (State.ppsWrite s i j v) := by
  unfold State.ppsWrite
  extract_lets z0
  repeat' first | first | omega | ((simp +zetaDelta only [odKey, bankIdx, bankStatusSub, canIdx, dmaObj, instBase, launchIdx, coreIdx, dmaIdx, logBase, trigIdx] <;> (try split)) <;> omega) | (with_reducible first | assumption | apply low_ite | apply State.emit_low | apply State.ppsArm_low | apply State.ppsRest_low | apply State.wr_low) | dsimp only
@[simp] theorem State.unsync_low {s0 : State} (s : State) (d : Nat) (hc : Low s0 s) :
    Low s0 (State.unsync s d) := by
  unfold State.unsync
  extract_lets z0
  have h0 : Low s0 z0 := by repeat' first | first | omega | ((simp +zetaDelta only [odKey, bankIdx, bankStatusSub, canIdx, dmaObj, instBase, launchIdx, coreIdx, dmaIdx, logBase, trigIdx] <;> (try split)) <;> omega) | (with_reducible first | assumption | apply State.event_low | apply State.wr_low) | dsimp only
  try clear_value z0
  repeat' first | first | omega | ((simp +zetaDelta only [odKey, bankIdx, bankStatusSub, canIdx, dmaObj, instBase, launchIdx, coreIdx, dmaIdx, logBase, trigIdx] <;> (try split)) <;> omega) | (with_reducible first | assumption | apply low_ite | (apply low_foldl; intro _ _ _) | apply State.ppsRest_low) | intro _ | dsimp only
@[simp] theorem State.syncWrite_low {s0 : State} (s : State) (d v : Nat) (hc : Low s0 s) :
    Low s0 (State.syncWrite s d v) := by
  unfold State.syncWrite
  repeat' first | first | omega | ((simp +zetaDelta only [odKey, bankIdx, bankStatusSub, canIdx, dmaObj, instBase, launchIdx, coreIdx, dmaIdx, logBase, trigIdx] <;> (try split)) <;> omega) | (with_reducible first | assumption | apply low_ite | apply State.unsync_low | apply State.wr_low) | dsimp only
@[simp] theorem State.trigWrite_low {s0 : State} (s : State) (i j v : Nat) (hk : i * 256 + j < 0x2001 * 256 ∨ 0x2005 * 256 ≤ i * 256) (hc : Low s0 s) :
    Low s0 (State.trigWrite s i j v) := by
  unfold State.trigWrite
  extract_lets z0
  have h0 : Low s0 z0 := by repeat' first | first | omega | ((simp +zetaDelta only [odKey, bankIdx, bankStatusSub, canIdx, dmaObj, instBase, launchIdx, coreIdx, dmaIdx, logBase, trigIdx] <;> (try split)) <;> omega) | (with_reducible first | assumption | apply State.wr_low) | dsimp only
  try clear_value z0
  repeat' first | first | omega | ((simp +zetaDelta only [odKey, bankIdx, bankStatusSub, canIdx, dmaObj, instBase, launchIdx, coreIdx, dmaIdx, logBase, trigIdx] <;> (try split)) <;> omega) | (with_reducible first | assumption | apply low_ite | apply State.wr_low) | dsimp only
theorem State.trigFire_low {s0 : State} (s : State) (d t : Nat) {t1} (h : State.trigFire s d t = some t1) (hc : Low s0 s) :
    Low s0 t1 := by
  simp only [State.trigFire] at h
  repeat' split at h
  all_goals first | (simp only [Option.some.injEq, reduceCtorEq] at h; done) | (simp only [Option.some.injEq] at h; subst h)
  all_goals (repeat' first | first | omega | ((simp +zetaDelta only [odKey, bankIdx, bankStatusSub, canIdx, dmaObj, instBase, launchIdx, coreIdx, dmaIdx, logBase, trigIdx] <;> (try split)) <;> omega) | (with_reducible first | assumption | apply low_ite | apply State.addW_low | apply State.cnt_low | apply State.event_low | apply State.wr_low) | simp only [low_same] | intro _ | dsimp only | split)

@[simp] theorem State.capShow_low {s0 : State} (s : State) (i : Nat) (l : List CapEntry) (hc : Low s0 s) :
    Low s0 (State.capShow s i l) := by
  unfold State.capShow
  extract_lets z0
  have h0 : Low s0 z0 := by simp only [z0]; repeat' first | first | omega | ((simp +zetaDelta only [odKey, bankIdx, bankStatusSub, canIdx, dmaObj, instBase, launchIdx, coreIdx, dmaIdx, logBase, trigIdx] <;> (try split)) <;> omega) | (with_reducible first | assumption) | simp only [low_same] | intro _ | dsimp only
  try clear_value z0
  repeat' first | first | omega | ((simp +zetaDelta only [odKey, bankIdx, bankStatusSub, canIdx, dmaObj, instBase, launchIdx, coreIdx, dmaIdx, logBase, trigIdx] <;> (try split)) <;> omega) | (with_reducible first | assumption | apply low_ite | apply State.tick_low | apply State.wr_low) | simp only [low_same] | dsimp only | split
@[simp] theorem State.capPop_low {s0 : State} (s : State) (i v : Nat) (hc : Low s0 s) :
    Low s0 (State.capPop s i v) := by
  unfold State.capPop
  repeat' first | first | omega | ((simp +zetaDelta only [odKey, bankIdx, bankStatusSub, canIdx, dmaObj, instBase, launchIdx, coreIdx, dmaIdx, logBase, trigIdx] <;> (try split)) <;> omega) | (with_reducible first | assumption | apply low_ite | apply State.capShow_low) | simp only [low_same] | dsimp only | split
theorem State.effTime_low {s0 : State} (s : State) (i j v : Nat) {t1} (h : State.effTime s i j v = some t1) (hc : Low s0 s) :
    Low s0 t1 := by
  simp only [State.effTime] at h
  repeat' split at h
  all_goals first | (simp only [Option.some.injEq, reduceCtorEq] at h; done) | (simp only [Option.some.injEq] at h; subst h)
  all_goals (repeat' first | first | omega | ((simp +zetaDelta only [odKey, bankIdx, bankStatusSub, canIdx, dmaObj, instBase, launchIdx, coreIdx, dmaIdx, logBase, trigIdx] <;> (try split)) <;> omega) | (with_reducible first | assumption | apply low_ite | apply State.adjustStart_low | apply State.capPop_low | apply State.ppsWrite_low | apply State.stepCommand_low | apply State.syncWrite_low | apply State.trigWrite_low) | simp only [low_same] | intro _ | dsimp only | split)

@[simp] theorem State.launchArm_low {s0 : State} (s : State) (k v : Nat) (hc : Low s0 s) :
    Low s0 (State.launchArm s k v) := by
  unfold State.launchArm
  extract_lets z0
  repeat' first | first | omega | ((simp +zetaDelta only [odKey, bankIdx, bankStatusSub, canIdx, dmaObj, instBase, launchIdx, coreIdx, dmaIdx, logBase, trigIdx] <;> (try split)) <;> omega) | (with_reducible first | assumption | apply State.setLaunch_low | apply State.wr_low) | dsimp only
@[simp] theorem State.launchCnt_low {s0 : State} (s : State) (p j : Nat) (hc : Low s0 s) :
    Low s0 (State.launchCnt s p j) := by
  unfold State.launchCnt
  repeat' first | first | omega | ((simp +zetaDelta only [odKey, bankIdx, bankStatusSub, canIdx, dmaObj, instBase, launchIdx, coreIdx, dmaIdx, logBase, trigIdx] <;> (try split)) <;> omega) | (with_reducible first | assumption | apply State.cntH_low) | dsimp only
@[simp] theorem State.launchEvent_low {s0 : State} (s : State) (p b : Nat) (hc : Low s0 s) :
    Low s0 (State.launchEvent s p b) := by
  unfold State.launchEvent
  repeat' first | first | omega | ((simp +zetaDelta only [odKey, bankIdx, bankStatusSub, canIdx, dmaObj, instBase, launchIdx, coreIdx, dmaIdx, logBase, trigIdx] <;> (try split)) <;> omega) | (with_reducible first | assumption | apply State.event_low) | dsimp only
@[simp] theorem State.launchEnd_low {s0 : State} (s : State) (k : Nat) (hc : Low s0 s) :
    Low s0 (State.launchEnd s k) := by
  unfold State.launchEnd
  extract_lets z0 z1
  have h1 : Low s0 z1 := by repeat' first | first | omega | ((simp +zetaDelta only [odKey, bankIdx, bankStatusSub, canIdx, dmaObj, instBase, launchIdx, coreIdx, dmaIdx, logBase, trigIdx] <;> (try split)) <;> omega) | (with_reducible first | assumption | apply State.cnt_low | apply State.setLaunch_low) | dsimp only
  try clear_value z1
  repeat' first | first | omega | ((simp +zetaDelta only [odKey, bankIdx, bankStatusSub, canIdx, dmaObj, instBase, launchIdx, coreIdx, dmaIdx, logBase, trigIdx] <;> (try split)) <;> omega) | (with_reducible first | assumption | apply low_ite | apply State.addH_low | apply State.clrBits_low | apply State.wr_low | apply low_ite2 | apply low_ite3 | apply low_ite4) | dsimp only
@[simp] theorem State.launchResult_low {s0 : State} (s : State) (k r : Nat) (hc : Low s0 s) :
    Low s0 (State.launchResult s k r) := by
  unfold State.launchResult
  repeat' first | first | omega | ((simp +zetaDelta only [odKey, bankIdx, bankStatusSub, canIdx, dmaObj, instBase, launchIdx, coreIdx, dmaIdx, logBase, trigIdx] <;> (try split)) <;> omega) | (with_reducible first | assumption | apply State.launchEnd_low | apply State.wr_low) | dsimp only
@[simp] theorem State.launchAbort_low {s0 : State} (s : State) (k : Nat) (hc : Low s0 s) :
    Low s0 (State.launchAbort s k) := by
  unfold State.launchAbort
  extract_lets z0
  repeat' first | first | omega | ((simp +zetaDelta only [odKey, bankIdx, bankStatusSub, canIdx, dmaObj, instBase, launchIdx, coreIdx, dmaIdx, logBase, trigIdx] <;> (try split)) <;> omega) | (with_reducible first | assumption | apply low_ite | apply State.clrBits_low | apply State.launchResult_low | apply State.wr_low) | dsimp only
@[simp] theorem State.launchOff_low {s0 : State} (s : State) (k v : Nat) (hc : Low s0 s) :
    Low s0 (State.launchOff s k v) := by
  unfold State.launchOff
  repeat' first | first | omega | ((simp +zetaDelta only [odKey, bankIdx, bankStatusSub, canIdx, dmaObj, instBase, launchIdx, coreIdx, dmaIdx, logBase, trigIdx] <;> (try split)) <;> omega) | (with_reducible first | assumption | apply State.launchAbort_low | apply State.wr_low) | dsimp only
@[simp] theorem State.launchBegin_low {s0 : State} (s : State) (k phase : Nat) (hc : Low s0 s) :
    Low s0 (State.launchBegin s k phase) := by
  unfold State.launchBegin
  extract_lets z0 z1 z2
  repeat' first | first | omega | ((simp +zetaDelta only [odKey, bankIdx, bankStatusSub, canIdx, dmaObj, instBase, launchIdx, coreIdx, dmaIdx, logBase, trigIdx] <;> (try split)) <;> omega) | (with_reducible first | assumption | apply low_ite | apply State.beginTx_low | apply State.launchCnt_low | apply State.launchEvent_low | apply State.launchResult_low | apply State.setLaunch_low | apply State.touchCredit_low | apply State.wr_low) | simp only [low_same] | dsimp only | split
theorem State.effLaunch_low {s0 : State} (s : State) (i j v : Nat) {t1} (h : State.effLaunch s i j v = some t1) (hc : Low s0 s) :
    Low s0 t1 := by
  simp only [State.effLaunch] at h
  repeat' split at h
  all_goals first | (simp only [Option.some.injEq, reduceCtorEq] at h; done) | (simp only [Option.some.injEq] at h; subst h)
  all_goals (repeat' first | first | omega | ((simp +zetaDelta only [odKey, bankIdx, bankStatusSub, canIdx, dmaObj, instBase, launchIdx, coreIdx, dmaIdx, logBase, trigIdx] <;> (try split)) <;> omega) | (with_reducible first | assumption | apply low_ite | apply State.launchAbort_low | apply State.launchArm_low | apply State.launchOff_low) | simp only [low_same] | intro _ | dsimp only | split)

@[simp] theorem State.perEvent_low {s0 : State} (s : State) (n b : Nat) (hc : Low s0 s) :
    Low s0 (State.perEvent s n b) := by
  unfold State.perEvent
  repeat' first | first | omega | ((simp +zetaDelta only [odKey, bankIdx, bankStatusSub, canIdx, dmaObj, instBase, launchIdx, coreIdx, dmaIdx, logBase, trigIdx] <;> (try split)) <;> omega) | (with_reducible first | assumption | apply State.event_low) | dsimp only
@[simp] theorem State.perCnt_low {s0 : State} (s : State) (n j : Nat) (hc : Low s0 s) :
    Low s0 (State.perCnt s n j) := by
  unfold State.perCnt
  repeat' first | first | omega | ((simp +zetaDelta only [odKey, bankIdx, bankStatusSub, canIdx, dmaObj, instBase, launchIdx, coreIdx, dmaIdx, logBase, trigIdx] <;> (try split)) <;> omega) | (with_reducible first | assumption | apply State.cntH_low) | dsimp only
@[simp] theorem State.perOpCnt_low {s0 : State} (s : State) (n j : Nat) (hc : Low s0 s) :
    Low s0 (State.perOpCnt s n j) := by
  unfold State.perOpCnt
  repeat' first | first | omega | ((simp +zetaDelta only [odKey, bankIdx, bankStatusSub, canIdx, dmaObj, instBase, launchIdx, coreIdx, dmaIdx, logBase, trigIdx] <;> (try split)) <;> omega) | (with_reducible first | assumption | apply State.cntH_low) | dsimp only
@[simp] theorem State.perSend_low {s0 : State} (s : State) (n : Nat) (east : Bool) (f : List Nib) (abt : Bool) (hc : Low s0 s) :
    Low s0 (State.perSend s n east f abt) := by
  unfold State.perSend
  repeat' first | first | omega | ((simp +zetaDelta only [odKey, bankIdx, bankStatusSub, canIdx, dmaObj, instBase, launchIdx, coreIdx, dmaIdx, logBase, trigIdx] <;> (try split)) <;> omega) | (with_reducible first | assumption | apply State.emit_low) | dsimp only
@[simp] theorem State.perSync_low {s0 : State} (s : State) (n : Nat) (hc : Low s0 s) :
    Low s0 (State.perSync s n) := by
  unfold State.perSync
  extract_lets z0
  repeat' first | first | omega | ((simp +zetaDelta only [odKey, bankIdx, bankStatusSub, canIdx, dmaObj, instBase, launchIdx, coreIdx, dmaIdx, logBase, trigIdx] <;> (try split)) <;> omega) | (with_reducible first | assumption | apply low_ite | apply State.syncWrite_low) | dsimp only
@[simp] theorem State.perForget_low {s0 : State} (s : State) (n : Nat) (hc : Low s0 s) :
    Low s0 (State.perForget s n) := by
  unfold State.perForget
  extract_lets z0 z1
  have h1 : Low s0 z1 := by repeat' first | first | omega | ((simp +zetaDelta only [odKey, bankIdx, bankStatusSub, canIdx, dmaObj, instBase, launchIdx, coreIdx, dmaIdx, logBase, trigIdx] <;> (try split)) <;> omega) | (with_reducible first | assumption | apply State.setRing_low) | simp only [low_same] | intro _ | dsimp only
  try clear_value z1
  repeat' first | first | omega | ((simp +zetaDelta only [odKey, bankIdx, bankStatusSub, canIdx, dmaObj, instBase, launchIdx, coreIdx, dmaIdx, logBase, trigIdx] <;> (try split)) <;> omega) | (with_reducible first | assumption | apply State.wr_low) | dsimp only
@[simp] theorem State.perStore_low {s0 : State} (s : State) (n : Nat) (e : List Word) (x : PerFrame) (hc : Low s0 s) :
    Low s0 (State.perStore s n e x) := by
  unfold State.perStore
  extract_lets z0 z1 z2 z3 z4 z5 z6 z7
  have h4 : Low s0 z4 := by repeat' first | first | omega | ((simp +zetaDelta only [odKey, bankIdx, bankStatusSub, canIdx, dmaObj, instBase, launchIdx, coreIdx, dmaIdx, logBase, trigIdx] <;> (try split)) <;> omega) | (with_reducible first | assumption | apply State.dmaWrite_low) | dsimp only
  try clear_value z4
  have h5 : Low s0 z5 := by repeat' first | first | omega | ((simp +zetaDelta only [odKey, bankIdx, bankStatusSub, canIdx, dmaObj, instBase, launchIdx, coreIdx, dmaIdx, logBase, trigIdx] <;> (try split)) <;> omega) | (with_reducible first | assumption | apply low_ite | apply State.dmaWrite_low) | dsimp only
  try clear_value z5
  have h6 : Low s0 z6 := by repeat' first | first | omega | ((simp +zetaDelta only [odKey, bankIdx, bankStatusSub, canIdx, dmaObj, instBase, launchIdx, coreIdx, dmaIdx, logBase, trigIdx] <;> (try split)) <;> omega) | (with_reducible first | assumption | apply State.dmaWrite_low) | dsimp only
  try clear_value z6
  have h7 : Low s0 z7 := by repeat' first | first | omega | ((simp +zetaDelta only [odKey, bankIdx, bankStatusSub, canIdx, dmaObj, instBase, launchIdx, coreIdx, dmaIdx, logBase, trigIdx] <;> (try split)) <;> omega) | (with_reducible first | assumption | apply State.dmaWrite_low) | dsimp only
  try clear_value z7
  repeat' first | first | omega | ((simp +zetaDelta only [odKey, bankIdx, bankStatusSub, canIdx, dmaObj, instBase, launchIdx, coreIdx, dmaIdx, logBase, trigIdx] <;> (try split)) <;> omega) | (with_reducible first | assumption | apply low_ite | apply State.dmaWrite_low) | dsimp only
@[simp] theorem State.perSlotFrame_low {s0 : State} (s : State) (n : Nat) (x : PerFrame) (hc : Low s0 s) :
    Low s0 (State.perSlotFrame s n x) := by
  unfold State.perSlotFrame
  extract_lets z0
  repeat' first | first | omega | ((simp +zetaDelta only [odKey, bankIdx, bankStatusSub, canIdx, dmaObj, instBase, launchIdx, coreIdx, dmaIdx, logBase, trigIdx] <;> (try split)) <;> omega) | (with_reducible first | assumption | apply low_ite | apply State.perCnt_low | apply State.perEvent_low | apply State.perOpCnt_low | apply State.perStore_low | apply State.setRing_low) | simp only [low_same] | dsimp only | split
@[simp] theorem State.perTake_low {s0 : State} (s : State) (n : Nat) (x : PerFrame) (hc : Low s0 s) :
    Low s0 (State.perTake s n x) := by
  unfold State.perTake
  extract_lets z0
  repeat' first | first | omega | ((simp +zetaDelta only [odKey, bankIdx, bankStatusSub, canIdx, dmaObj, instBase, launchIdx, coreIdx, dmaIdx, logBase, trigIdx] <;> (try split)) <;> omega) | (with_reducible first | assumption | apply low_ite | apply State.perCnt_low | apply State.perEvent_low | apply State.perOpCnt_low | apply State.perSlotFrame_low | apply State.setRing_low) | simp only [low_same] | dsimp only | split
@[simp] theorem State.setEcho_low {s0 : State} (s : State) (n : Nat) (east : Bool) (x : Echo) (hc : Low s0 s) :
    Low s0 (State.setEcho s n east x) := by
  unfold State.setEcho
  repeat' first | first | omega | ((simp +zetaDelta only [odKey, bankIdx, bankStatusSub, canIdx, dmaObj, instBase, launchIdx, coreIdx, dmaIdx, logBase, trigIdx] <;> (try split)) <;> omega) | (with_reducible first | assumption | apply low_ite | apply State.setRing_low) | simp only [low_same] | intro _ | dsimp only
@[simp] theorem State.refLeaves_low {s0 : State} (s : State) (n cycle phase : Nat) (pend : Option (Nat × Nat)) (flags : Nat) (hc : Low s0 s) :
    Low s0 (State.refLeaves s n cycle phase pend flags) := by
  unfold State.refLeaves
  extract_lets z0 z1 z2 z3 z4 z5
  have h1 : Low s0 z1 := by repeat' first | first | omega | ((simp +zetaDelta only [odKey, bankIdx, bankStatusSub, canIdx, dmaObj, instBase, launchIdx, coreIdx, dmaIdx, logBase, trigIdx] <;> (try split)) <;> omega) | (with_reducible first | assumption | apply State.perSend_low) | dsimp only
  try clear_value z1
  have h2 : Low s0 z2 := by repeat' first | first | omega | ((simp +zetaDelta only [odKey, bankIdx, bankStatusSub, canIdx, dmaObj, instBase, launchIdx, coreIdx, dmaIdx, logBase, trigIdx] <;> (try split)) <;> omega) | (with_reducible first | assumption | apply State.perCnt_low | apply State.wr_low) | dsimp only
  try clear_value z2
  have h3 : Low s0 z3 := by repeat' first | first | omega | ((simp +zetaDelta only [odKey, bankIdx, bankStatusSub, canIdx, dmaObj, instBase, launchIdx, coreIdx, dmaIdx, logBase, trigIdx] <;> (try split)) <;> omega) | (with_reducible first | assumption | apply State.wr_low) | dsimp only
  try clear_value z3
  repeat' first | first | omega | ((simp +zetaDelta only [odKey, bankIdx, bankStatusSub, canIdx, dmaObj, instBase, launchIdx, coreIdx, dmaIdx, logBase, trigIdx] <;> (try split)) <;> omega) | (with_reducible first | assumption | apply low_ite | apply State.setRing_low) | simp only [low_same] | intro _ | dsimp only
@[simp] theorem State.perRate_low {s0 : State} (s : State) (n : Nat) (p : List Byte) (arrival : Nat) (e : Int) (hc : Low s0 s) :
    Low s0 (State.perRate s n p arrival e) := by
  unfold State.perRate
  extract_lets z0 z1
  repeat' first | first | omega | ((simp +zetaDelta only [odKey, bankIdx, bankStatusSub, canIdx, dmaObj, instBase, launchIdx, coreIdx, dmaIdx, logBase, trigIdx] <;> (try split)) <;> omega) | (with_reducible first | assumption | apply low_ite | apply State.adjustStart_low | apply State.stepCommand_low | apply State.wr_low) | dsimp only
@[simp] theorem State.refAtHead_low {s0 : State} (s : State) (n : Nat) (x : PerFrame) (p : List Byte) (hc : Low s0 s) :
    Low s0 (State.refAtHead s n x p) := by
  unfold State.refAtHead
  extract_lets z0 z1
  repeat' first | first | omega | ((simp +zetaDelta only [odKey, bankIdx, bankStatusSub, canIdx, dmaObj, instBase, launchIdx, coreIdx, dmaIdx, logBase, trigIdx] <;> (try split)) <;> omega) | (with_reducible first | assumption | apply low_ite | apply State.cnt_low | apply State.perEvent_low | apply State.record_low | apply State.setRing_low) | simp only [low_same] | dsimp only
@[simp] theorem State.slotInstall_low {s0 : State} (s : State) (n m : Nat) (l : List (List Word)) (hc : Low s0 s) :
    Low s0 (State.slotInstall s n m l).2 := by
  unfold State.slotInstall
  extract_lets z0
  repeat' first | first | omega | ((simp +zetaDelta only [odKey, bankIdx, bankStatusSub, canIdx, dmaObj, instBase, launchIdx, coreIdx, dmaIdx, logBase, trigIdx] <;> (try split)) <;> omega) | (with_reducible first | assumption | apply State.perEvent_low | apply State.setRing_low | apply State.wr_low) | simp only [low_same] | intro _ | dsimp only | split
@[simp] theorem State.slotLoad_low {s0 : State} (s : State) (n m v : Nat) (hc : Low s0 s) :
    Low s0 (State.slotLoad s n m v) := by
  unfold State.slotLoad
  repeat' first | first | omega | ((simp +zetaDelta only [odKey, bankIdx, bankStatusSub, canIdx, dmaObj, instBase, launchIdx, coreIdx, dmaIdx, logBase, trigIdx] <;> (try split)) <;> omega) | (with_reducible first | assumption | apply State.wr_low) | dsimp only
@[simp] theorem State.setSlotFetch_low {s0 : State} (s : State) (n k : Nat) (x : Nat × List Nib) (hc : Low s0 s) :
    Low s0 (State.setSlotFetch s n k x) := by
  unfold State.setSlotFetch
  repeat' first | first | omega | ((simp +zetaDelta only [odKey, bankIdx, bankStatusSub, canIdx, dmaObj, instBase, launchIdx, coreIdx, dmaIdx, logBase, trigIdx] <;> (try split)) <;> omega) | (with_reducible first | assumption | apply State.setRing_low) | simp only [low_same] | intro _ | dsimp only
@[simp] theorem State.guardCommit_low {s0 : State} (s : State) (n v master : Nat) (hc : Low s0 s) :
    Low s0 (State.guardCommit s n v master) := by
  unfold State.guardCommit
  repeat' first | first | omega | ((simp +zetaDelta only [odKey, bankIdx, bankStatusSub, canIdx, dmaObj, instBase, launchIdx, coreIdx, dmaIdx, logBase, trigIdx] <;> (try split)) <;> omega) | (with_reducible first | assumption | apply State.setRing_low | apply State.wr_low) | simp only [low_same] | intro _ | dsimp only
@[simp] theorem State.guardInstall_low {s0 : State} (s : State) (n master : Nat) (l : List (Word × Word)) (hc : Low s0 s) :
    Low s0 (State.guardInstall s n master l).2 := by
  unfold State.guardInstall
  repeat' first | first | omega | ((simp +zetaDelta only [odKey, bankIdx, bankStatusSub, canIdx, dmaObj, instBase, launchIdx, coreIdx, dmaIdx, logBase, trigIdx] <;> (try split)) <;> omega) | (with_reducible first | assumption | apply low_ite | apply State.guard_low | apply State.record_low | apply State.setRing_low | apply State.wr_low | apply low_ite2 | apply low_ite3 | apply low_ite4) | simp only [low_same] | intro _ | dsimp only
@[simp] theorem State.changeAsk_low {s0 : State} (s : State) (n mode lead : Nat) (restore : Bool) (hc : Low s0 s) :
    Low s0 (State.changeAsk s n mode lead restore) := by
  unfold State.changeAsk
  repeat' first | first | omega | ((simp +zetaDelta only [odKey, bankIdx, bankStatusSub, canIdx, dmaObj, instBase, launchIdx, coreIdx, dmaIdx, logBase, trigIdx] <;> (try split)) <;> omega) | (with_reducible first | assumption | apply State.setRing_low) | simp only [low_same] | dsimp only
@[simp] theorem State.perRelay_low {s0 : State} (s : State) (n : Nat) (x : PerFrame) (p : List Byte) (hc : Low s0 s) :
    Low s0 (State.perRelay s n x p) := by
  unfold State.perRelay
  repeat' first | first | omega | ((simp +zetaDelta only [odKey, bankIdx, bankStatusSub, canIdx, dmaObj, instBase, launchIdx, coreIdx, dmaIdx, logBase, trigIdx] <;> (try split)) <;> omega) | (with_reducible first | assumption | apply State.perSend_low) | dsimp only
@[simp] theorem State.measureNode_low {s0 : State} (s : State) (n : Nat) (x : PerFrame) (hc : Low s0 s) :
    Low s0 (State.measureNode s n x) := by
  unfold State.measureNode
  extract_lets z0 z1 z2 z3 z4 z5 z6
  repeat' first | first | omega | ((simp +zetaDelta only [odKey, bankIdx, bankStatusSub, canIdx, dmaObj, instBase, launchIdx, coreIdx, dmaIdx, logBase, trigIdx] <;> (try split)) <;> omega) | (with_reducible first | assumption | apply low_ite | apply State.perRelay_low | apply State.setRing_low | apply State.wr_low) | simp only [low_same] | dsimp only
@[simp] theorem State.measured_low {s0 : State} (s : State) (n : Nat) (mp ms : Nat × Nat × List Byte) (ids : List (Half × DWord)) (hc : Low s0 s) :
    Low s0 (State.measured s n mp ms ids) := by
  unfold State.measured
  extract_lets z0 z1 z2 z3 z4 z5 z6 z7 z8 z9 z10 z11 z12 z13 z14 z15 z16 z17
  have h4 : Low s0 z4 := by repeat' first | first | omega | ((simp +zetaDelta only [odKey, bankIdx, bankStatusSub, canIdx, dmaObj, instBase, launchIdx, coreIdx, dmaIdx, logBase, trigIdx] <;> (try split)) <;> omega) | (with_reducible first | assumption | apply State.wr_low) | dsimp only
  try clear_value z4
  have h13 : Low s0 z13 := by repeat' first | first | omega | ((simp +zetaDelta only [odKey, bankIdx, bankStatusSub, canIdx, dmaObj, instBase, launchIdx, coreIdx, dmaIdx, logBase, trigIdx] <;> (try split)) <;> omega) | (with_reducible first | assumption | apply low_ite | apply State.dmaWrite_low) | dsimp only
  try clear_value z13
  have h16 : Low s0 z16 := by repeat' first | first | omega | ((simp +zetaDelta only [odKey, bankIdx, bankStatusSub, canIdx, dmaObj, instBase, launchIdx, coreIdx, dmaIdx, logBase, trigIdx] <;> (try split)) <;> omega) | (with_reducible first | assumption | apply low_ite | (apply low_foldl; intro _ _ _) | apply State.dmaWrite_low | apply State.perEvent_low | apply State.perSend_low | apply State.setRing_low | apply State.wr_low | apply low_ite2 | apply low_ite3 | apply low_ite4) | simp only [low_same] | intro _ | dsimp only
  try clear_value z16
  have h17 : Low s0 z17 := by repeat' first | first | omega | ((simp +zetaDelta only [odKey, bankIdx, bankStatusSub, canIdx, dmaObj, instBase, launchIdx, coreIdx, dmaIdx, logBase, trigIdx] <;> (try split)) <;> omega) | (with_reducible first | assumption | apply low_ite | (apply low_foldl; intro _ _ _) | apply State.dmaWrite_low | apply State.perEvent_low | apply State.perSend_low | apply State.setRing_low | apply State.wr_low | apply low_ite2 | apply low_ite3 | apply low_ite4) | simp only [low_same] | intro _ | dsimp only
  try clear_value z17
  repeat' first | first | omega | ((simp +zetaDelta only [odKey, bankIdx, bankStatusSub, canIdx, dmaObj, instBase, launchIdx, coreIdx, dmaIdx, logBase, trigIdx] <;> (try split)) <;> omega) | (with_reducible first | assumption | apply low_ite | apply State.perEvent_low) | dsimp only
@[simp] theorem State.mgmtAnswer_low {s0 : State} (s : State) (n : Nat) (x : PerFrame) (p : List Byte) (status : Nat) (reply : List Byte) (hc : Low s0 s) :
    Low s0 (State.mgmtAnswer s n x p status reply) := by
  unfold State.mgmtAnswer
  extract_lets z0
  repeat' first | first | omega | ((simp +zetaDelta only [odKey, bankIdx, bankStatusSub, canIdx, dmaObj, instBase, launchIdx, coreIdx, dmaIdx, logBase, trigIdx] <;> (try split)) <;> omega) | (with_reducible first | assumption | apply low_ite | apply State.perRelay_low | apply State.setRing_low) | simp only [low_same] | dsimp only
@[simp] theorem State.setStaged_low {s0 : State} (s : State) (n t : Nat) (l : List (Nat × List Byte)) (hc : Low s0 s) :
    Low s0 (State.setStaged s n t l) := by
  unfold State.setStaged
  repeat' first | first | omega | ((simp +zetaDelta only [odKey, bankIdx, bankStatusSub, canIdx, dmaObj, instBase, launchIdx, coreIdx, dmaIdx, logBase, trigIdx] <;> (try split)) <;> omega) | (with_reducible first | assumption | apply State.setRing_low) | simp only [low_same] | intro _ | dsimp only
@[simp] theorem State.mgmtCommit_low {s0 : State} (s : State) (n t count : Nat) (hc : Low s0 s) :
    Low s0 (State.mgmtCommit s n t count).2 := by
  unfold State.mgmtCommit
  extract_lets z0 z1
  repeat' first | first | omega | ((simp +zetaDelta only [odKey, bankIdx, bankStatusSub, canIdx, dmaObj, instBase, launchIdx, coreIdx, dmaIdx, logBase, trigIdx] <;> (try split)) <;> omega) | (with_reducible first | assumption | apply low_ite | apply State.guardInstall_low | apply State.slotInstall_low | apply low_ite2 | apply low_ite3 | apply low_ite4) | intro _ | dsimp only
@[simp] theorem State.scanSettled_low {s0 : State} (s : State) (hc : Low s0 s) :
    Low s0 (State.scanSettled s) := by
  unfold State.scanSettled
  repeat' first | first | omega | ((simp +zetaDelta only [odKey, bankIdx, bankStatusSub, canIdx, dmaObj, instBase, launchIdx, coreIdx, dmaIdx, logBase, trigIdx] <;> (try split)) <;> omega) | (with_reducible first | assumption | apply low_ite | apply State.event_low) | simp only [low_same] | dsimp only
@[simp] theorem State.commitRecord_low {s0 : State} (s : State) (hc : Low s0 s) :
    Low s0 (State.commitRecord s) := by
  unfold State.commitRecord
  repeat' first | first | omega | ((simp +zetaDelta only [odKey, bankIdx, bankStatusSub, canIdx, dmaObj, instBase, launchIdx, coreIdx, dmaIdx, logBase, trigIdx] <;> (try split)) <;> omega) | (with_reducible first | assumption | apply State.event_low | apply State.scanSettled_low | apply State.setBytes_low | apply State.wr_low) | simp only [low_same] | dsimp only | split
@[simp] theorem State.finishScan_low {s0 : State} (s : State) (hc : Low s0 s) :
    Low s0 (State.finishScan s) := by
  unfold State.finishScan
  extract_lets z0 z1 z2 z3 z4 z5
  have h4 : Low s0 z4 := by simp only [z4]; repeat' first | first | omega | ((simp +zetaDelta only [odKey, bankIdx, bankStatusSub, canIdx, dmaObj, instBase, launchIdx, coreIdx, dmaIdx, logBase, trigIdx] <;> (try split)) <;> omega) | (with_reducible first | assumption | (apply low_foldl; intro _ _ _) | apply State.admitRec_low | apply State.scanSettled_low | apply State.showAllowances_low | apply State.wr_low) | simp only [low_same] | intro _ | dsimp only
  try clear_value z4
  have h5 : Low s0 z5 := by repeat' first | first | omega | ((simp +zetaDelta only [odKey, bankIdx, bankStatusSub, canIdx, dmaObj, instBase, launchIdx, coreIdx, dmaIdx, logBase, trigIdx] <;> (try split)) <;> omega) | (with_reducible first | assumption | apply State.showAllowances_low | apply State.wr_low) | dsimp only
  try clear_value z5
  repeat' first | first | omega | ((simp +zetaDelta only [odKey, bankIdx, bankStatusSub, canIdx, dmaObj, instBase, launchIdx, coreIdx, dmaIdx, logBase, trigIdx] <;> (try split)) <;> omega) | (with_reducible first | assumption | (apply low_foldl; intro _ _ _) | apply State.admitRec_low | apply State.scanSettled_low | apply State.showAllowances_low | apply State.wr_low) | simp only [low_same] | intro _ | dsimp only
@[simp] theorem State.clearLog_low {s0 : State} (s : State) (master : Nat) (hc : Low s0 s) :
    Low s0 (State.clearLog s master) := by
  unfold State.clearLog
  extract_lets z0 z1 z2 z3 z4 z5 z6 z7 z8 z9 z10
  have h6 : Low s0 z6 := by repeat' first | first | omega | ((simp +zetaDelta only [odKey, bankIdx, bankStatusSub, canIdx, dmaObj, instBase, launchIdx, coreIdx, dmaIdx, logBase, trigIdx] <;> (try split)) <;> omega) | (with_reducible first | assumption | apply State.setBytes_low) | dsimp only
  try clear_value z6
  have h8 : Low s0 z8 := by repeat' first | first | omega | ((simp +zetaDelta only [odKey, bankIdx, bankStatusSub, canIdx, dmaObj, instBase, launchIdx, coreIdx, dmaIdx, logBase, trigIdx] <;> (try split)) <;> omega) | (with_reducible first | assumption | apply State.setBytes_low) | dsimp only
  try clear_value z8
  have h10 : Low s0 z10 := by simp only [z10]; repeat' first | first | omega | ((simp +zetaDelta only [odKey, bankIdx, bankStatusSub, canIdx, dmaObj, instBase, launchIdx, coreIdx, dmaIdx, logBase, trigIdx] <;> (try split)) <;> omega) | (with_reducible first | assumption | apply low_ite | apply State.event_low | apply State.setBytes_low | apply State.showAllowances_low | apply State.wr_low | apply low_ite2 | apply low_ite3 | apply low_ite4) | simp only [low_same] | dsimp only
  try clear_value z10
  repeat' first | first | omega | ((simp +zetaDelta only [odKey, bankIdx, bankStatusSub, canIdx, dmaObj, instBase, launchIdx, coreIdx, dmaIdx, logBase, trigIdx] <;> (try split)) <;> omega) | (with_reducible first | assumption | apply State.event_low | apply State.showAllowances_low | apply State.wr_low) | dsimp only
@[simp] theorem State.logCounter_low {s0 : State} (s : State) (a v : Nat) (hc : Low s0 s) :
    Low s0 (State.logCounter s a v) := by
  unfold State.logCounter
  repeat' first | first | omega | ((simp +zetaDelta only [odKey, bankIdx, bankStatusSub, canIdx, dmaObj, instBase, launchIdx, coreIdx, dmaIdx, logBase, trigIdx] <;> (try split)) <;> omega) | (with_reducible first | assumption | apply State.setBytes_low) | dsimp only
@[simp] theorem State.instWrite_low {s0 : State} (s : State) (o : InstObj) (v : Nat) (hc : Low s0 s) :
    Low s0 (State.instWrite s o v) := by
  unfold State.instWrite
  repeat' first | first | omega | ((simp +zetaDelta only [odKey, bankIdx, bankStatusSub, canIdx, dmaObj, instBase, launchIdx, coreIdx, dmaIdx, logBase, trigIdx] <;> (try split)) <;> omega) | (with_reducible first | assumption | apply State.memWrite_low) | dsimp only
@[simp] theorem State.startCommit_low {s0 : State} (s : State) (hc : Low s0 s) :
    Low s0 (State.startCommit s) := by
  unfold State.startCommit
  extract_lets z0 z1 z2 z3
  repeat' first | first | omega | ((simp +zetaDelta only [odKey, bankIdx, bankStatusSub, canIdx, dmaObj, instBase, launchIdx, coreIdx, dmaIdx, logBase, trigIdx] <;> (try split)) <;> omega) | (with_reducible first | assumption | apply State.wr_low) | simp only [low_same] | dsimp only
@[simp] theorem State.doCommit_low {s0 : State} (s : State) (hc : Low s0 s) :
    Low s0 (State.doCommit s) := by
  unfold State.doCommit
  repeat' first | first | omega | ((simp +zetaDelta only [odKey, bankIdx, bankStatusSub, canIdx, dmaObj, instBase, launchIdx, coreIdx, dmaIdx, logBase, trigIdx] <;> (try split)) <;> omega) | (with_reducible first | assumption | apply low_ite | apply State.startCommit_low | apply State.wr_low) | simp only [low_same] | dsimp only
@[simp] theorem State.optionLoad_low {s0 : State} (s : State) (hc : Low s0 s) :
    Low s0 (State.optionLoad s) := by
  unfold State.optionLoad
  extract_lets z0 z1 z2 z3
  have h3 : Low s0 z3 := by simp only [z3]; repeat' first | first | omega | ((simp +zetaDelta only [odKey, bankIdx, bankStatusSub, canIdx, dmaObj, instBase, launchIdx, coreIdx, dmaIdx, logBase, trigIdx] <;> (try split)) <;> omega) | (with_reducible first | assumption | apply low_ite | apply State.event_low | apply State.record_low | apply State.wr_low | apply State.wrD_low) | simp only [low_same] | dsimp only | split
  try clear_value z3
  repeat' first | first | omega | ((simp +zetaDelta only [odKey, bankIdx, bankStatusSub, canIdx, dmaObj, instBase, launchIdx, coreIdx, dmaIdx, logBase, trigIdx] <;> (try split)) <;> omega) | (with_reducible first | assumption | apply low_ite | apply State.event_low | apply State.record_low | apply State.wr_low | apply State.wrD_low) | simp only [low_same] | dsimp only | split
@[simp] theorem State.setLat_low {s0 : State} (s : State) (f : Lattice → Lattice) (hc : Low s0 s) :
    Low s0 (State.setLat s f) := by
  unfold State.setLat
  repeat' first | first | omega | ((simp +zetaDelta only [odKey, bankIdx, bankStatusSub, canIdx, dmaObj, instBase, launchIdx, coreIdx, dmaIdx, logBase, trigIdx] <;> (try split)) <;> omega) | (with_reducible first | assumption) | simp only [low_same] | dsimp only
@[simp] theorem State.latSeq_low {s0 : State} (s : State) (cls : Nat) (hc : Low s0 s) :
    Low s0 (State.latSeq s cls).2 := by
  unfold State.latSeq
  extract_lets z0
  repeat' first | first | omega | ((simp +zetaDelta only [odKey, bankIdx, bankStatusSub, canIdx, dmaObj, instBase, launchIdx, coreIdx, dmaIdx, logBase, trigIdx] <;> (try split)) <;> omega) | (with_reducible first | assumption | apply State.setLat_low) | simp only [low_same] | intro _ | dsimp only
@[simp] theorem State.latEnter_low {s0 : State} (s : State) (st : Nat) (hc : Low s0 s) :
    Low s0 (State.latEnter s st) := by
  unfold State.latEnter
  repeat' first | first | omega | ((simp +zetaDelta only [odKey, bankIdx, bankStatusSub, canIdx, dmaObj, instBase, launchIdx, coreIdx, dmaIdx, logBase, trigIdx] <;> (try split)) <;> omega) | (with_reducible first | assumption | apply low_ite | apply State.latEvent_low | apply State.wr_low) | dsimp only
@[simp] theorem State.enterAddr_low {s0 : State} (s : State) (a id : Nat) (hc : Low s0 s) :
    Low s0 (State.enterAddr s a id) := by
  unfold State.enterAddr
  extract_lets z0
  have h0 : Low s0 z0 := by repeat' first | first | omega | ((simp +zetaDelta only [odKey, bankIdx, bankStatusSub, canIdx, dmaObj, instBase, launchIdx, coreIdx, dmaIdx, logBase, trigIdx] <;> (try split)) <;> omega) | (with_reducible first | assumption | apply State.setLat_low) | simp only [low_same] | intro _ | dsimp only
  try clear_value z0
  repeat' first | first | omega | ((simp +zetaDelta only [odKey, bankIdx, bankStatusSub, canIdx, dmaObj, instBase, launchIdx, coreIdx, dmaIdx, logBase, trigIdx] <;> (try split)) <;> omega) | (with_reducible first | assumption | apply State.wr_low) | dsimp only
@[simp] theorem State.persist_low {s0 : State} (s : State) (i j v : Nat) (hc : Low s0 s) :
    Low s0 (State.persist s i j v) := by
  unfold State.persist
  extract_lets z0
  repeat' first | first | omega | ((simp +zetaDelta only [odKey, bankIdx, bankStatusSub, canIdx, dmaObj, instBase, launchIdx, coreIdx, dmaIdx, logBase, trigIdx] <;> (try split)) <;> omega) | (with_reducible first | assumption) | simp only [low_same] | dsimp only
@[simp] theorem State.takeAddr_low {s0 : State} (s : State) (a : Nat) (hc : Low s0 s) :
    Low s0 (State.takeAddr s a) := by
  unfold State.takeAddr
  extract_lets z0
  repeat' first | first | omega | ((simp +zetaDelta only [odKey, bankIdx, bankStatusSub, canIdx, dmaObj, instBase, launchIdx, coreIdx, dmaIdx, logBase, trigIdx] <;> (try split)) <;> omega) | (with_reducible first | assumption | apply low_ite | apply State.latEvent_low | apply State.persist_low | apply State.record_low | apply State.wr_low) | dsimp only
@[simp] theorem State.keeperAddr_low {s0 : State} (s : State) (hc : Low s0 s) :
    Low s0 (State.keeperAddr s) := by
  unfold State.keeperAddr
  extract_lets z0 z1
  have h1 : Low s0 z1 := by repeat' first | first | omega | ((simp +zetaDelta only [odKey, bankIdx, bankStatusSub, canIdx, dmaObj, instBase, launchIdx, coreIdx, dmaIdx, logBase, trigIdx] <;> (try split)) <;> omega) | (with_reducible first | assumption | apply State.enterAddr_low | apply State.takeAddr_low) | dsimp only
  try clear_value z1
  repeat' first | first | omega | ((simp +zetaDelta only [odKey, bankIdx, bankStatusSub, canIdx, dmaObj, instBase, launchIdx, coreIdx, dmaIdx, logBase, trigIdx] <;> (try split)) <;> omega) | (with_reducible first | assumption | apply State.wr_low) | dsimp only
@[simp] theorem State.nameKeeper_low {s0 : State} (s : State) (k : Nat × Nat × Nat) (hc : Low s0 s) :
    Low s0 (State.nameKeeper s k) := by
  unfold State.nameKeeper
  extract_lets z0 z1 z2
  have h1 : Low s0 z1 := by repeat' first | first | omega | ((simp +zetaDelta only [odKey, bankIdx, bankStatusSub, canIdx, dmaObj, instBase, launchIdx, coreIdx, dmaIdx, logBase, trigIdx] <;> (try split)) <;> omega) | (with_reducible first | assumption | apply State.wr_low) | dsimp only
  try clear_value z1
  have h2 : Low s0 z2 := by repeat' first | first | omega | ((simp +zetaDelta only [odKey, bankIdx, bankStatusSub, canIdx, dmaObj, instBase, launchIdx, coreIdx, dmaIdx, logBase, trigIdx] <;> (try split)) <;> omega) | (with_reducible first | assumption | apply low_ite | apply State.cnt_low | apply State.latEvent_low | apply State.record_low | apply low_ite2 | apply low_ite3 | apply low_ite4) | dsimp only
  try clear_value z2
  repeat' first | first | omega | ((simp +zetaDelta only [odKey, bankIdx, bankStatusSub, canIdx, dmaObj, instBase, launchIdx, coreIdx, dmaIdx, logBase, trigIdx] <;> (try split)) <;> omega) | (with_reducible first | assumption | apply low_ite | apply State.keeperAddr_low | apply State.latEnter_low | apply State.setLat_low | apply State.wr_low | apply low_ite2 | apply low_ite3 | apply low_ite4) | simp only [low_same] | intro _ | dsimp only | split
@[simp] theorem State.elect_low {s0 : State} (s : State) (hc : Low s0 s) :
    Low s0 (State.elect s) := by
  unfold State.elect
  repeat' first | first | omega | ((simp +zetaDelta only [odKey, bankIdx, bankStatusSub, canIdx, dmaObj, instBase, launchIdx, coreIdx, dmaIdx, logBase, trigIdx] <;> (try split)) <;> omega) | (with_reducible first | assumption | apply low_ite | apply State.nameKeeper_low | apply State.wr_low | apply low_ite2 | apply low_ite3 | apply low_ite4) | dsimp only
theorem State.latGot_low {s0 : State} (s : State) (typ : Nat) (resp : Bool) {t1} (h : State.latGot s typ resp = some t1) (hc : Low s0 s) :
    Low s0 t1.2 := by
  simp only [State.latGot] at h
  repeat' split at h
  all_goals first | (simp only [Option.some.injEq, reduceCtorEq] at h; done) | (simp only [Option.some.injEq] at h; subst h)
  all_goals (repeat' first | first | omega | ((simp +zetaDelta only [odKey, bankIdx, bankStatusSub, canIdx, dmaObj, instBase, launchIdx, coreIdx, dmaIdx, logBase, trigIdx] <;> (try split)) <;> omega) | (with_reducible first | assumption | apply low_ite | apply State.setLat_low) | simp only [low_same] | intro _ | dsimp only | split)

@[simp] theorem State.latClaim_low {s0 : State} (s : State) (id prio addr seq : Nat) (hc : Low s0 s) :
    Low s0 (State.latClaim s id prio addr seq) := by
  unfold State.latClaim
  repeat' first | first | omega | ((simp +zetaDelta only [odKey, bankIdx, bankStatusSub, canIdx, dmaObj, instBase, launchIdx, coreIdx, dmaIdx, logBase, trigIdx] <;> (try split)) <;> omega) | (with_reducible first | assumption | apply low_ite | apply State.setLat_low) | simp only [low_same] | intro _ | dsimp only | split
@[simp] theorem State.latForget_low {s0 : State} (s : State) (a : Nat) (hc : Low s0 s) :
    Low s0 (State.latForget s a) := by
  unfold State.latForget
  extract_lets z0
  have h0 : Low s0 z0 := by repeat' first | first | omega | ((simp +zetaDelta only [odKey, bankIdx, bankStatusSub, canIdx, dmaObj, instBase, launchIdx, coreIdx, dmaIdx, logBase, trigIdx] <;> (try split)) <;> omega) | (with_reducible first | assumption | apply State.setLat_low) | simp only [low_same] | intro _ | dsimp only
  try clear_value z0
  repeat' first | first | omega | ((simp +zetaDelta only [odKey, bankIdx, bankStatusSub, canIdx, dmaObj, instBase, launchIdx, coreIdx, dmaIdx, logBase, trigIdx] <;> (try split)) <;> omega) | (with_reducible first | assumption | apply low_ite | apply State.wr_low) | dsimp only
@[simp] theorem State.freeBytes_low {s0 : State} (s : State) (n : Nat) (hc : Low s0 s) :
    Low s0 (State.freeBytes s n).2 := by
  unfold State.freeBytes
  repeat' first | first | omega | ((simp +zetaDelta only [odKey, bankIdx, bankStatusSub, canIdx, dmaObj, instBase, launchIdx, coreIdx, dmaIdx, logBase, trigIdx] <;> (try split)) <;> omega) | (with_reducible first | assumption | apply State.tick_low) | dsimp only
@[simp] theorem State.sampleTemps_low {s0 : State} (s : State) (ts : List Half) (hc : Low s0 s) :
    Low s0 (State.sampleTemps s ts) := by
  unfold State.sampleTemps
  extract_lets z0 z1 z2 z3
  have h0 : Low s0 z0 := by repeat' first | first | omega | ((simp +zetaDelta only [odKey, bankIdx, bankStatusSub, canIdx, dmaObj, instBase, launchIdx, coreIdx, dmaIdx, logBase, trigIdx] <;> (try split)) <;> omega) | (with_reducible first | assumption | (apply low_foldl; intro _ _ _) | apply State.wr_low) | intro _ | dsimp only
  try clear_value z0
  have h2 : Low s0 z2 := by repeat' first | first | omega | ((simp +zetaDelta only [odKey, bankIdx, bankStatusSub, canIdx, dmaObj, instBase, launchIdx, coreIdx, dmaIdx, logBase, trigIdx] <;> (try split)) <;> omega) | (with_reducible first | assumption | apply State.wr_low) | dsimp only
  try clear_value z2
  repeat' first | first | omega | ((simp +zetaDelta only [odKey, bankIdx, bankStatusSub, canIdx, dmaObj, instBase, launchIdx, coreIdx, dmaIdx, logBase, trigIdx] <;> (try split)) <;> omega) | (with_reducible first | assumption | apply low_ite | apply State.errBit_low | apply State.event_low | apply State.record_low) | simp only [low_same] | intro _ | dsimp only | split
@[simp] theorem State.paceOne_low {s0 : State} (s : State) (i factory : Nat) (hc : Low s0 s) :
    Low s0 (State.paceOne s i factory) := by
  unfold State.paceOne
  extract_lets z0
  repeat' first | first | omega | ((simp +zetaDelta only [odKey, bankIdx, bankStatusSub, canIdx, dmaObj, instBase, launchIdx, coreIdx, dmaIdx, logBase, trigIdx] <;> (try split)) <;> omega) | (with_reducible first | assumption | apply low_ite | apply State.event_low | apply State.record_low | apply State.tick_low | apply State.wr_low) | dsimp only
@[simp] theorem State.doArm_low {s0 : State} (s : State) (master : Nat) (hc : Low s0 s) :
    Low s0 (State.doArm s master) := by
  unfold State.doArm
  repeat' first | first | omega | ((simp +zetaDelta only [odKey, bankIdx, bankStatusSub, canIdx, dmaObj, instBase, launchIdx, coreIdx, dmaIdx, logBase, trigIdx] <;> (try split)) <;> omega) | (with_reducible first | assumption | apply low_ite | (apply low_foldl; intro _ _ _) | apply State.cnt_low | apply State.record_low | apply State.wr_low) | simp only [low_same] | intro _ | dsimp only
@[simp] theorem State.disarm_low {s0 : State} (s : State) (master reason : Nat) (hc : Low s0 s) :
    Low s0 (State.disarm s master reason) := by
  unfold State.disarm
  repeat' first | first | omega | ((simp +zetaDelta only [odKey, bankIdx, bankStatusSub, canIdx, dmaObj, instBase, launchIdx, coreIdx, dmaIdx, logBase, trigIdx] <;> (try split)) <;> omega) | (with_reducible first | assumption | apply low_ite | apply State.event_low | apply State.record_low | apply State.wr_low) | simp only [low_same] | dsimp only
@[simp] theorem State.flipBits_low {s0 : State} (s : State) (a b1 b2 : Nat) (double : Bool) (hc : Low s0 s) : Low s0 (State.flipBits s a b1 b2 double) := by
  unfold State.flipBits; (repeat' (first | first | omega | ((simp +zetaDelta only [odKey, bankIdx, bankStatusSub, canIdx, dmaObj, instBase, launchIdx, coreIdx, dmaIdx, logBase, trigIdx] <;> (try split)) <;> omega) | with_reducible assumption | with_reducible apply low_ite | with_reducible apply low_ite2 | with_reducible apply low_ite3 | with_reducible apply low_ite4 | with_reducible apply State.cnt_low | with_reducible apply State.setByte_low | with_reducible apply State.setDbe_low | with_reducible apply State.setSbe_low | intro _ | dsimp only))
@[simp] theorem State.becomeArmed_low {s0 : State} (s : State) (hc : Low s0 s) :
    Low s0 (State.becomeArmed s) := by
  unfold State.becomeArmed
  extract_lets z0 z1 z2 z3
  have h1 : Low s0 z1 := by simp only [z1]; repeat' first | first | omega | ((simp +zetaDelta only [odKey, bankIdx, bankStatusSub, canIdx, dmaObj, instBase, launchIdx, coreIdx, dmaIdx, logBase, trigIdx] <;> (try split)) <;> omega) | (with_reducible first | assumption | apply low_ite | apply State.cnt_low | apply State.event_low | apply State.flipBits_low | apply State.wr_low) | simp only [low_same] | dsimp only
  try clear_value z1
  have h2 : Low s0 z2 := by repeat' first | first | omega | ((simp +zetaDelta only [odKey, bankIdx, bankStatusSub, canIdx, dmaObj, instBase, launchIdx, coreIdx, dmaIdx, logBase, trigIdx] <;> (try split)) <;> omega) | (with_reducible first | assumption | apply low_ite | apply State.cnt_low | apply State.event_low | apply State.flipBits_low | apply State.wr_low) | simp only [low_same] | dsimp only
  try clear_value z2
  repeat' first | first | omega | ((simp +zetaDelta only [odKey, bankIdx, bankStatusSub, canIdx, dmaObj, instBase, launchIdx, coreIdx, dmaIdx, logBase, trigIdx] <;> (try split)) <;> omega) | (with_reducible first | assumption | apply low_ite | apply State.flipBits_low) | dsimp only
@[simp] theorem State.doTestInService_low {s0 : State} (s : State) (p v : Nat) (hc : Low s0 s) :
    Low s0 (State.doTestInService s p v) := by
  unfold State.doTestInService
  extract_lets z0
  have h0 : Low s0 z0 := by repeat' first | first | omega | ((simp +zetaDelta only [odKey, bankIdx, bankStatusSub, canIdx, dmaObj, instBase, launchIdx, coreIdx, dmaIdx, logBase, trigIdx] <;> (try split)) <;> omega) | (with_reducible first | assumption | apply State.record_low | apply State.wr_low) | dsimp only
  try clear_value z0
  repeat' first | first | omega | ((simp +zetaDelta only [odKey, bankIdx, bankStatusSub, canIdx, dmaObj, instBase, launchIdx, coreIdx, dmaIdx, logBase, trigIdx] <;> (try split)) <;> omega) | (with_reducible first | assumption) | simp only [low_same] | dsimp only
@[simp] theorem State.setPio_low {s0 : State} (s : State) (b : Nat) (x : Pio) (hc : Low s0 s) :
    Low s0 (State.setPio s b x) := by
  unfold State.setPio
  repeat' first | first | omega | ((simp +zetaDelta only [odKey, bankIdx, bankStatusSub, canIdx, dmaObj, instBase, launchIdx, coreIdx, dmaIdx, logBase, trigIdx] <;> (try split)) <;> omega) | (with_reducible first | assumption) | simp only [low_same] | intro _ | dsimp only
@[simp] theorem State.setSm_low {s0 : State} (s : State) (m : Nat) (x : Sm) (hc : Low s0 s) :
    Low s0 (State.setSm s m x) := by
  unfold State.setSm
  extract_lets z0
  have h0 : Low s0 z0 := by simp only [z0]; repeat' first | first | omega | ((simp +zetaDelta only [odKey, bankIdx, bankStatusSub, canIdx, dmaObj, instBase, launchIdx, coreIdx, dmaIdx, logBase, trigIdx] <;> (try split)) <;> omega) | (with_reducible first | assumption) | simp only [low_same] | intro _ | dsimp only
  try clear_value z0
  repeat' first | first | omega | ((simp +zetaDelta only [odKey, bankIdx, bankStatusSub, canIdx, dmaObj, instBase, launchIdx, coreIdx, dmaIdx, logBase, trigIdx] <;> (try split)) <;> omega) | (with_reducible first | assumption | apply low_ite | apply State.wr_low) | dsimp only
@[simp] theorem State.pioEvent_low {s0 : State} (s : State) (b k : Nat) (hc : Low s0 s) :
    Low s0 (State.pioEvent s b k) := by
  unfold State.pioEvent
  repeat' first | first | omega | ((simp +zetaDelta only [odKey, bankIdx, bankStatusSub, canIdx, dmaObj, instBase, launchIdx, coreIdx, dmaIdx, logBase, trigIdx] <;> (try split)) <;> omega) | (with_reducible first | assumption | apply State.event_low) | dsimp only
@[simp] theorem State.pioShow_low {s0 : State} (s : State) (b : Nat) (hc : Low s0 s) :
    Low s0 (State.pioShow s b) := by
  unfold State.pioShow
  repeat' first | first | omega | ((simp +zetaDelta only [odKey, bankIdx, bankStatusSub, canIdx, dmaObj, instBase, launchIdx, coreIdx, dmaIdx, logBase, trigIdx] <;> (try split)) <;> omega) | (with_reducible first | assumption | apply State.wr_low) | dsimp only
@[simp] theorem State.pioDrive_low {s0 : State} (s : State) (m base : Nat) (dir : Bool) (bits : List Bool) (hc : Low s0 s) :
    Low s0 (State.pioDrive s m base dir bits) := by
  unfold State.pioDrive
  extract_lets z0 z1 z2 z3
  repeat' first | first | omega | ((simp +zetaDelta only [odKey, bankIdx, bankStatusSub, canIdx, dmaObj, instBase, launchIdx, coreIdx, dmaIdx, logBase, trigIdx] <;> (try split)) <;> omega) | (with_reducible first | assumption | apply low_ite | (apply low_foldl; intro _ _ _) | apply State.pioShow_low | apply State.setPio_low) | simp only [low_same] | dsimp only
@[simp] theorem State.pioInputs_low {s0 : State} (s : State) (b : Nat) (pins : Half) (hc : Low s0 s) :
    Low s0 (State.pioInputs s b pins) := by
  unfold State.pioInputs
  repeat' first | first | omega | ((simp +zetaDelta only [odKey, bankIdx, bankStatusSub, canIdx, dmaObj, instBase, launchIdx, coreIdx, dmaIdx, logBase, trigIdx] <;> (try split)) <;> omega) | (with_reducible first | assumption | apply State.pioShow_low | apply State.setPio_low) | simp only [low_same] | dsimp only
@[simp] theorem State.setPioFlags_low {s0 : State} (s : State) (b v : Nat) (hc : Low s0 s) :
    Low s0 (State.setPioFlags s b v) := by
  unfold State.setPioFlags
  repeat' first | first | omega | ((simp +zetaDelta only [odKey, bankIdx, bankStatusSub, canIdx, dmaObj, instBase, launchIdx, coreIdx, dmaIdx, logBase, trigIdx] <;> (try split)) <;> omega) | (with_reducible first | assumption | apply State.wr_low) | dsimp only
@[simp] theorem State.txPush_low {s0 : State} (s : State) (m : Nat) (w : Word) (hc : Low s0 s) :
    Low s0 (State.txPush s m w) := by
  unfold State.txPush
  repeat' first | first | omega | ((simp +zetaDelta only [odKey, bankIdx, bankStatusSub, canIdx, dmaObj, instBase, launchIdx, coreIdx, dmaIdx, logBase, trigIdx] <;> (try split)) <;> omega) | (with_reducible first | assumption | apply State.setSm_low) | simp only [low_same] | dsimp only
@[simp] theorem State.txTake_low {s0 : State} (s : State) (m : Nat) (hc : Low s0 s) :
    Low s0 (State.txTake s m) := by
  unfold State.txTake
  repeat' first | first | omega | ((simp +zetaDelta only [odKey, bankIdx, bankStatusSub, canIdx, dmaObj, instBase, launchIdx, coreIdx, dmaIdx, logBase, trigIdx] <;> (try split)) <;> omega) | (with_reducible first | assumption | apply low_ite | apply State.pioEvent_low | apply State.setSm_low) | simp only [low_same] | dsimp only | split
@[simp] theorem State.rxPut_low {s0 : State} (s : State) (m : Nat) (hc : Low s0 s) :
    Low s0 (State.rxPut s m) := by
  unfold State.rxPut
  extract_lets z0 z1
  have h1 : Low s0 z1 := by repeat' first | first | omega | ((simp +zetaDelta only [odKey, bankIdx, bankStatusSub, canIdx, dmaObj, instBase, launchIdx, coreIdx, dmaIdx, logBase, trigIdx] <;> (try split)) <;> omega) | (with_reducible first | assumption | apply State.setSm_low) | simp only [low_same] | dsimp only
  try clear_value z1
  repeat' first | first | omega | ((simp +zetaDelta only [odKey, bankIdx, bankStatusSub, canIdx, dmaObj, instBase, launchIdx, coreIdx, dmaIdx, logBase, trigIdx] <;> (try split)) <;> omega) | (with_reducible first | assumption | apply low_ite | apply State.pioEvent_low) | dsimp only
@[simp] theorem State.rxPop_low {s0 : State} (s : State) (m : Nat) (hc : Low s0 s) :
    Low s0 (State.rxPop s m).2 := by
  unfold State.rxPop
  repeat' first | first | omega | ((simp +zetaDelta only [odKey, bankIdx, bankStatusSub, canIdx, dmaObj, instBase, launchIdx, coreIdx, dmaIdx, logBase, trigIdx] <;> (try split)) <;> omega) | (with_reducible first | assumption | apply State.setSm_low) | simp only [low_same] | dsimp only | split
@[simp] theorem State.txBit_low {s0 : State} (s : State) (m : Nat) (hc : Low s0 s) :
    Low s0 (State.txBit s m).2 := by
  unfold State.txBit
  extract_lets z0 z1 z2
  repeat' first | first | omega | ((simp +zetaDelta only [odKey, bankIdx, bankStatusSub, canIdx, dmaObj, instBase, launchIdx, coreIdx, dmaIdx, logBase, trigIdx] <;> (try split)) <;> omega) | (with_reducible first | assumption | apply State.setSm_low) | simp only [low_same] | dsimp only
@[simp] theorem State.takeBits_low {s0 : State} (s : State) (m : Nat) (got : List Bool) (n : Nat) (hc : Low s0 s) : Low s0 (s.takeBits m got n).2.2 := by
  induction n generalizing s got with
  | zero => simpa [State.takeBits] using hc
  | succ n ih => unfold State.takeBits; dsimp only; repeat' split
                 all_goals simp (maxDischargeDepth := 60) [ih, hc]
@[simp] theorem State.rxFlush_low {s0 : State} (s : State) (m : Nat) (hc : Low s0 s) :
    Low s0 (State.rxFlush s m).2 := by
  unfold State.rxFlush
  repeat' first | first | omega | ((simp +zetaDelta only [odKey, bankIdx, bankStatusSub, canIdx, dmaObj, instBase, launchIdx, coreIdx, dmaIdx, logBase, trigIdx] <;> (try split)) <;> omega) | (with_reducible first | assumption | apply low_ite | apply State.rxPut_low | apply low_ite2 | apply low_ite3 | apply low_ite4) | dsimp only
@[simp] theorem State.rxBit_low {s0 : State} (s : State) (m : Nat) (v : Bool) (hc : Low s0 s) :
    Low s0 (State.rxBit s m v) := by
  unfold State.rxBit
  extract_lets z0 z1 z2
  repeat' first | first | omega | ((simp +zetaDelta only [odKey, bankIdx, bankStatusSub, canIdx, dmaObj, instBase, launchIdx, coreIdx, dmaIdx, logBase, trigIdx] <;> (try split)) <;> omega) | (with_reducible first | assumption | apply low_ite | apply State.setSm_low) | simp only [low_same] | dsimp only
@[simp] theorem State.giveBits_low {s0 : State} (s : State) (m : Nat) (l : List Bool) (hc : Low s0 s) : Low s0 (s.giveBits m l).2 := by
  induction l generalizing s with
  | nil => unfold State.giveBits; exact State.rxFlush_low _ _ hc
  | cons v t ih => unfold State.giveBits; dsimp only; split <;> simp (maxDischargeDepth := 60) [ih, hc]
@[simp] theorem State.smDone_low {s0 : State} (s : State) (m : Nat) (w : Half) (branch : Option Nat) (hc : Low s0 s) :
    Low s0 (State.smDone s m w branch) := by
  unfold State.smDone
  extract_lets z0 z1 z2 z3 z4
  repeat' first | first | omega | ((simp +zetaDelta only [odKey, bankIdx, bankStatusSub, canIdx, dmaObj, instBase, launchIdx, coreIdx, dmaIdx, logBase, trigIdx] <;> (try split)) <;> omega) | (with_reducible first | assumption | apply State.setSm_low | apply State.wr_low) | simp only [low_same] | dsimp only
@[simp] theorem State.smStall_low {s0 : State} (s : State) (m st : Nat) (hc : Low s0 s) :
    Low s0 (State.smStall s m st) := by
  unfold State.smStall
  repeat' first | first | omega | ((simp +zetaDelta only [odKey, bankIdx, bankStatusSub, canIdx, dmaObj, instBase, launchIdx, coreIdx, dmaIdx, logBase, trigIdx] <;> (try split)) <;> omega) | (with_reducible first | assumption | apply State.setSm_low) | simp only [low_same] | dsimp only
theorem State.smFetch_low {s0 : State} (s : State) (m op : Nat) {t1} (h : State.smFetch s m op = some t1) (hc : Low s0 s) :
    Low s0 t1.2 := by
  simp only [State.smFetch] at h
  repeat' split at h
  all_goals first | (simp only [Option.some.injEq, reduceCtorEq] at h; done) | (simp only [Option.some.injEq] at h; subst h)
  all_goals (repeat' first | first | omega | ((simp +zetaDelta only [odKey, bankIdx, bankStatusSub, canIdx, dmaObj, instBase, launchIdx, coreIdx, dmaIdx, logBase, trigIdx] <;> (try split)) <;> omega) | (with_reducible first | assumption | apply low_ite | apply State.setSm_low | apply State.wr_low) | simp only [low_same] | intro _ | dsimp only | split)

@[simp] theorem State.smTakes_low {s0 : State} (s : State) (m n : Nat) (f : State → List Bool → State) (hf : ∀ s a0, Low s0 s → Low s0 (f s a0)) (hc : Low s0 s) :
    Low s0 (State.smTakes s m n f) := by
  unfold State.smTakes
  extract_lets z0
  have h0 : Low s0 z0.2.2 := by repeat' first | first | omega | ((simp +zetaDelta only [odKey, bankIdx, bankStatusSub, canIdx, dmaObj, instBase, launchIdx, coreIdx, dmaIdx, logBase, trigIdx] <;> (try split)) <;> omega) | (with_reducible first | assumption | apply State.takeBits_low) | intro _ | dsimp only
  try clear_value z0
  repeat' first | first | omega | ((simp +zetaDelta only [odKey, bankIdx, bankStatusSub, canIdx, dmaObj, instBase, launchIdx, coreIdx, dmaIdx, logBase, trigIdx] <;> (try split)) <;> omega) | (with_reducible first | assumption | apply low_ite | apply State.setSm_low | apply State.smStall_low | apply hf | apply low_ite2 | apply low_ite3 | apply low_ite4) | simp only [low_same] | intro _ | dsimp only
@[simp] theorem State.smGives_low {s0 : State} (s : State) (m : Nat) (w : Half) (l : List Bool) (hc : Low s0 s) :
    Low s0 (State.smGives s m w l) := by
  unfold State.smGives
  extract_lets z0
  have h0 : Low s0 z0.2 := by repeat' first | first | omega | ((simp +zetaDelta only [odKey, bankIdx, bankStatusSub, canIdx, dmaObj, instBase, launchIdx, coreIdx, dmaIdx, logBase, trigIdx] <;> (try split)) <;> omega) | (with_reducible first | assumption | apply State.giveBits_low) | dsimp only
  try clear_value z0
  repeat' first | first | omega | ((simp +zetaDelta only [odKey, bankIdx, bankStatusSub, canIdx, dmaObj, instBase, launchIdx, coreIdx, dmaIdx, logBase, trigIdx] <;> (try split)) <;> omega) | (with_reducible first | assumption | apply State.setSm_low | apply State.smDone_low | apply State.smStall_low) | simp only [low_same] | dsimp only | split
@[simp] theorem State.smDrive_low {s0 : State} (s : State) (m : Nat) (w : Half) (hc : Low s0 s) : Low s0 (State.smDrive s m w) := by
  unfold State.smDrive; (repeat' (first | first | omega | ((simp +zetaDelta only [odKey, bankIdx, bankStatusSub, canIdx, dmaObj, instBase, launchIdx, coreIdx, dmaIdx, logBase, trigIdx] <;> (try split)) <;> omega) | with_reducible assumption | with_reducible apply low_ite | with_reducible apply low_ite2 | with_reducible apply low_ite3 | with_reducible apply low_ite4 | with_reducible apply State.pioDrive_low | with_reducible apply State.smDone_low | with_reducible apply State.smTakes_low | intro _ | dsimp only))
@[simp] theorem State.smSample_low {s0 : State} (s : State) (m : Nat) (w : Half) (hc : Low s0 s) :
    Low s0 (State.smSample s m w) := by
  unfold State.smSample
  repeat' first | first | omega | ((simp +zetaDelta only [odKey, bankIdx, bankStatusSub, canIdx, dmaObj, instBase, launchIdx, coreIdx, dmaIdx, logBase, trigIdx] <;> (try split)) <;> omega) | (with_reducible first | assumption | apply State.smGives_low) | intro _ | dsimp only
@[simp] theorem State.smLoadTw_low {s0 : State} (s : State) (m : Nat) (w : Half) (hc : Low s0 s) :
    Low s0 (State.smLoadTw s m w) := by
  unfold State.smLoadTw
  repeat' first | first | omega | ((simp +zetaDelta only [odKey, bankIdx, bankStatusSub, canIdx, dmaObj, instBase, launchIdx, coreIdx, dmaIdx, logBase, trigIdx] <;> (try split)) <;> omega) | (with_reducible first | assumption | apply low_ite | apply State.cntH_low | apply State.setSm_low | apply State.smDone_low | apply State.smStall_low | apply State.txTake_low) | simp only [low_same] | dsimp only
@[simp] theorem State.smStoreRw_low {s0 : State} (s : State) (m : Nat) (w : Half) (hc : Low s0 s) :
    Low s0 (State.smStoreRw s m w) := by
  unfold State.smStoreRw
  repeat' first | first | omega | ((simp +zetaDelta only [odKey, bankIdx, bankStatusSub, canIdx, dmaObj, instBase, launchIdx, coreIdx, dmaIdx, logBase, trigIdx] <;> (try split)) <;> omega) | (with_reducible first | assumption | apply low_ite | apply State.cntH_low | apply State.rxPut_low | apply State.setSm_low | apply State.smDone_low | apply State.smStall_low) | simp only [low_same] | dsimp only
@[simp] theorem State.smLoadImm_low {s0 : State} (s : State) (m : Nat) (w : Half) (hc : Low s0 s) :
    Low s0 (State.smLoadImm s m w) := by
  unfold State.smLoadImm
  extract_lets z0 z1 z2 z3 z4
  have h4 : Low s0 z4 := by repeat' first | first | omega | ((simp +zetaDelta only [odKey, bankIdx, bankStatusSub, canIdx, dmaObj, instBase, launchIdx, coreIdx, dmaIdx, logBase, trigIdx] <;> (try split)) <;> omega) | (with_reducible first | assumption | apply low_ite | apply State.pioDrive_low | apply State.wr_low) | dsimp only
  try clear_value z4
  repeat' first | first | omega | ((simp +zetaDelta only [odKey, bankIdx, bankStatusSub, canIdx, dmaObj, instBase, launchIdx, coreIdx, dmaIdx, logBase, trigIdx] <;> (try split)) <;> omega) | (with_reducible first | assumption | apply State.smDone_low) | dsimp only
@[simp] theorem State.smAwait_low {s0 : State} (s : State) (m : Nat) (w : Half) (hc : Low s0 s) :
    Low s0 (State.smAwait s m w) := by
  unfold State.smAwait
  extract_lets z0
  repeat' first | first | omega | ((simp +zetaDelta only [odKey, bankIdx, bankStatusSub, canIdx, dmaObj, instBase, launchIdx, coreIdx, dmaIdx, logBase, trigIdx] <;> (try split)) <;> omega) | (with_reducible first | assumption | apply low_ite | apply State.setPioFlags_low | apply State.smDone_low | apply State.smStall_low) | dsimp only
@[simp] theorem State.smFlag_low {s0 : State} (s : State) (m : Nat) (w : Half) (hc : Low s0 s) :
    Low s0 (State.smFlag s m w) := by
  unfold State.smFlag
  extract_lets z0 z1 z2 z3 z4 z5
  have h4 : Low s0 z4 := by repeat' first | first | omega | ((simp +zetaDelta only [odKey, bankIdx, bankStatusSub, canIdx, dmaObj, instBase, launchIdx, coreIdx, dmaIdx, logBase, trigIdx] <;> (try split)) <;> omega) | (with_reducible first | assumption | apply low_ite | apply State.setPioFlags_low) | dsimp only
  try clear_value z4
  have h5 : Low s0 z5 := by repeat' first | first | omega | ((simp +zetaDelta only [odKey, bankIdx, bankStatusSub, canIdx, dmaObj, instBase, launchIdx, coreIdx, dmaIdx, logBase, trigIdx] <;> (try split)) <;> omega) | (with_reducible first | assumption | apply low_ite | apply State.pioEvent_low) | dsimp only
  try clear_value z5
  repeat' first | first | omega | ((simp +zetaDelta only [odKey, bankIdx, bankStatusSub, canIdx, dmaObj, instBase, launchIdx, coreIdx, dmaIdx, logBase, trigIdx] <;> (try split)) <;> omega) | (with_reducible first | assumption | apply low_ite | apply State.smDone_low | apply State.smStall_low) | dsimp only
@[simp] theorem State.smCopy_low {s0 : State} (s : State) (m : Nat) (w : Half) (hc : Low s0 s) :
    Low s0 (State.smCopy s m w) := by
  unfold State.smCopy
  extract_lets z0 z1 z2 z3 z4 z5
  repeat' first | first | omega | ((simp +zetaDelta only [odKey, bankIdx, bankStatusSub, canIdx, dmaObj, instBase, launchIdx, coreIdx, dmaIdx, logBase, trigIdx] <;> (try split)) <;> omega) | (with_reducible first | assumption | apply low_ite | apply State.pioDrive_low | apply State.setSm_low | apply State.smDone_low | apply State.wr_low) | simp only [low_same] | dsimp only
@[simp] theorem State.smUnpack_low {s0 : State} (s : State) (m : Nat) (w : Half) (hc : Low s0 s) :
    Low s0 (State.smUnpack s m w) := by
  unfold State.smUnpack
  extract_lets z0 z1
  repeat' first | first | omega | ((simp +zetaDelta only [odKey, bankIdx, bankStatusSub, canIdx, dmaObj, instBase, launchIdx, coreIdx, dmaIdx, logBase, trigIdx] <;> (try split)) <;> omega) | (with_reducible first | assumption | apply low_ite | apply State.smDone_low | apply State.smGives_low | apply State.smTakes_low | apply State.wr_low) | intro _ | dsimp only
@[simp] theorem State.smPack_low {s0 : State} (s : State) (m : Nat) (w : Half) (hc : Low s0 s) :
    Low s0 (State.smPack s m w) := by
  unfold State.smPack
  extract_lets z0 z1
  repeat' first | first | omega | ((simp +zetaDelta only [odKey, bankIdx, bankStatusSub, canIdx, dmaObj, instBase, launchIdx, coreIdx, dmaIdx, logBase, trigIdx] <;> (try split)) <;> omega) | (with_reducible first | assumption | apply low_ite | apply State.smGives_low) | dsimp only
@[simp] theorem State.smLoop_low {s0 : State} (s : State) (m j : Nat) (w : Half) (hc : Low s0 s) :
    Low s0 (State.smLoop s m j w) := by
  unfold State.smLoop
  repeat' first | first | omega | ((simp +zetaDelta only [odKey, bankIdx, bankStatusSub, canIdx, dmaObj, instBase, launchIdx, coreIdx, dmaIdx, logBase, trigIdx] <;> (try split)) <;> omega) | (with_reducible first | assumption | apply low_ite | apply State.smDone_low | apply State.wr_low) | dsimp only
@[simp] theorem State.smResume_low {s0 : State} (s : State) (m : Nat) (hc : Low s0 s) :
    Low s0 (State.smResume s m) := by
  unfold State.smResume
  extract_lets z0
  repeat' first | first | omega | ((simp +zetaDelta only [odKey, bankIdx, bankStatusSub, canIdx, dmaObj, instBase, launchIdx, coreIdx, dmaIdx, logBase, trigIdx] <;> (try split)) <;> omega) | (with_reducible first | assumption | apply low_ite | apply State.smAwait_low | apply State.smDone_low | apply State.smDrive_low | apply State.smGives_low | apply State.smLoadTw_low | apply State.smStoreRw_low | apply State.smUnpack_low) | simp only [low_same] | dsimp only | split
@[simp] theorem State.smTimeUp_low {s0 : State} (s : State) (m : Nat) (hc : Low s0 s) :
    Low s0 (State.smTimeUp s m) := by
  unfold State.smTimeUp
  extract_lets z0
  repeat' first | first | omega | ((simp +zetaDelta only [odKey, bankIdx, bankStatusSub, canIdx, dmaObj, instBase, launchIdx, coreIdx, dmaIdx, logBase, trigIdx] <;> (try split)) <;> omega) | (with_reducible first | assumption | apply State.setSm_low | apply State.smDone_low) | simp only [low_same] | dsimp only | split
@[simp] theorem State.smRun_low {s0 : State} (s : State) (m op : Nat) (f : State → Half → State) (hf : ∀ s a, Low s0 s → Low s0 (f s a)) (hc : Low s0 s) : Low s0 (s.smRun m op f) := by
  unfold State.smRun
  split
  · rename_i h
    exact hf _ _ (State.smFetch_low s m op h hc)
  · exact hc
@[simp] theorem State.smEnable_low {s0 : State} (s : State) (b v : Nat) (hc : Low s0 s) :
    Low s0 (State.smEnable s b v) := by
  unfold State.smEnable
  extract_lets z0 z1
  have h1 : Low s0 z1 := by repeat' first | first | omega | ((simp +zetaDelta only [odKey, bankIdx, bankStatusSub, canIdx, dmaObj, instBase, launchIdx, coreIdx, dmaIdx, logBase, trigIdx] <;> (try split)) <;> omega) | (with_reducible first | assumption | apply State.wr_low) | dsimp only
  try clear_value z1
  repeat' first | first | omega | ((simp +zetaDelta only [odKey, bankIdx, bankStatusSub, canIdx, dmaObj, instBase, launchIdx, coreIdx, dmaIdx, logBase, trigIdx] <;> (try split)) <;> omega) | (with_reducible first | assumption | apply low_ite | (apply low_foldl; intro _ _ _) | apply State.setSm_low) | simp only [low_same] | intro _ | dsimp only
@[simp] theorem State.smRestart_low {s0 : State} (s : State) (m : Nat) (hc : Low s0 s) :
    Low s0 (State.smRestart s m) := by
  unfold State.smRestart
  repeat' first | first | omega | ((simp +zetaDelta only [odKey, bankIdx, bankStatusSub, canIdx, dmaObj, instBase, launchIdx, coreIdx, dmaIdx, logBase, trigIdx] <;> (try split)) <;> omega) | (with_reducible first | assumption | apply State.setSm_low | apply State.wr_low) | simp only [low_same] | dsimp only
@[simp] theorem State.smClear_low {s0 : State} (s : State) (m : Nat) (hc : Low s0 s) :
    Low s0 (State.smClear s m) := by
  unfold State.smClear
  repeat' first | first | omega | ((simp +zetaDelta only [odKey, bankIdx, bankStatusSub, canIdx, dmaObj, instBase, launchIdx, coreIdx, dmaIdx, logBase, trigIdx] <;> (try split)) <;> omega) | (with_reducible first | assumption | apply State.setSm_low) | simp only [low_same] | dsimp only
@[simp] theorem State.smWrap_low {s0 : State} (s : State) (m v : Nat) (hc : Low s0 s) :
    Low s0 (State.smWrap s m v) := by
  unfold State.smWrap
  extract_lets z0
  have h0 : Low s0 z0 := by repeat' first | first | omega | ((simp +zetaDelta only [odKey, bankIdx, bankStatusSub, canIdx, dmaObj, instBase, launchIdx, coreIdx, dmaIdx, logBase, trigIdx] <;> (try split)) <;> omega) | (with_reducible first | assumption | apply State.wr_low) | dsimp only
  try clear_value z0
  repeat' first | first | omega | ((simp +zetaDelta only [odKey, bankIdx, bankStatusSub, canIdx, dmaObj, instBase, launchIdx, coreIdx, dmaIdx, logBase, trigIdx] <;> (try split)) <;> omega) | (with_reducible first | assumption | apply low_ite | apply State.setSm_low) | simp only [low_same] | dsimp only
@[simp] theorem State.smStream_low {s0 : State} (s : State) (m v : Nat) (hc : Low s0 s) :
    Low s0 (State.smStream s m v) := by
  unfold State.smStream
  extract_lets z0 z1
  have h1 : Low s0 z1 := by repeat' first | first | omega | ((simp +zetaDelta only [odKey, bankIdx, bankStatusSub, canIdx, dmaObj, instBase, launchIdx, coreIdx, dmaIdx, logBase, trigIdx] <;> (try split)) <;> omega) | (with_reducible first | assumption | apply State.wr_low) | dsimp only
  try clear_value z1
  repeat' first | first | omega | ((simp +zetaDelta only [odKey, bankIdx, bankStatusSub, canIdx, dmaObj, instBase, launchIdx, coreIdx, dmaIdx, logBase, trigIdx] <;> (try split)) <;> omega) | (with_reducible first | assumption | apply low_ite | apply State.smClear_low) | dsimp only
@[simp] theorem State.syncApply_low {s0 : State} (s : State) (hc : Low s0 s) :
    Low s0 (State.syncApply s) := by
  unfold State.syncApply
  extract_lets z0 z1 z2 z3 z4 z5
  have h3 : Low s0 z3 := by repeat' first | first | omega | ((simp +zetaDelta only [odKey, bankIdx, bankStatusSub, canIdx, dmaObj, instBase, launchIdx, coreIdx, dmaIdx, logBase, trigIdx] <;> (try split)) <;> omega) | (with_reducible first | assumption | apply State.cnt_low | apply State.wr_low) | dsimp only
  try clear_value z3
  have h4 : Low s0 z4 := by repeat' first | first | omega | ((simp +zetaDelta only [odKey, bankIdx, bankStatusSub, canIdx, dmaObj, instBase, launchIdx, coreIdx, dmaIdx, logBase, trigIdx] <;> (try split)) <;> omega) | (with_reducible first | assumption | (apply low_foldl; intro _ _ _) | apply State.smEnable_low) | intro _ | dsimp only
  try clear_value z4
  have h5 : Low s0 z5 := by repeat' first | first | omega | ((simp +zetaDelta only [odKey, bankIdx, bankStatusSub, canIdx, dmaObj, instBase, launchIdx, coreIdx, dmaIdx, logBase, trigIdx] <;> (try split)) <;> omega) | (with_reducible first | assumption | apply low_ite | (apply low_foldl; intro _ _ _) | apply State.setSm_low) | simp only [low_same] | intro _ | dsimp only
  try clear_value z5
  repeat' first | first | omega | ((simp +zetaDelta only [odKey, bankIdx, bankStatusSub, canIdx, dmaObj, instBase, launchIdx, coreIdx, dmaIdx, logBase, trigIdx] <;> (try split)) <;> omega) | (with_reducible first | assumption | apply low_ite | (apply low_foldl; intro _ _ _) | apply State.pioEvent_low) | intro _ | dsimp only
@[simp] theorem State.syncCommand_low {s0 : State} (s : State) (v : Nat) (hc : Low s0 s) :
    Low s0 (State.syncCommand s v) := by
  unfold State.syncCommand
  repeat' first | first | omega | ((simp +zetaDelta only [odKey, bankIdx, bankStatusSub, canIdx, dmaObj, instBase, launchIdx, coreIdx, dmaIdx, logBase, trigIdx] <;> (try split)) <;> omega) | (with_reducible first | assumption | apply low_ite | apply State.cnt_low | apply State.wr_low) | dsimp only
@[simp] theorem State.pioTrigger_low {s0 : State} (s : State) (d t : Nat) (hc : Low s0 s) :
    Low s0 (State.pioTrigger s d t) := by
  unfold State.pioTrigger
  extract_lets z0 z1
  have h1 : Low s0 z1 := by repeat' first | first | omega | ((simp +zetaDelta only [odKey, bankIdx, bankStatusSub, canIdx, dmaObj, instBase, launchIdx, coreIdx, dmaIdx, logBase, trigIdx] <;> (try split)) <;> omega) | (with_reducible first | assumption | apply low_ite | (apply low_foldl; intro _ _ _) | apply State.smTimeUp_low) | intro _ | dsimp only
  try clear_value z1
  repeat' first | first | omega | ((simp +zetaDelta only [odKey, bankIdx, bankStatusSub, canIdx, dmaObj, instBase, launchIdx, coreIdx, dmaIdx, logBase, trigIdx] <;> (try split)) <;> omega) | (with_reducible first | assumption | apply low_ite | apply State.syncApply_low) | dsimp only
@[simp] theorem State.dmaStart_low {s0 : State} (s : State) (k v : Nat) (hc : Low s0 s) :
    Low s0 (State.dmaStart s k v) := by
  unfold State.dmaStart
  extract_lets z0
  repeat' first | first | omega | ((simp +zetaDelta only [odKey, bankIdx, bankStatusSub, canIdx, dmaObj, instBase, launchIdx, coreIdx, dmaIdx, logBase, trigIdx] <;> (try split)) <;> omega) | (with_reducible first | assumption | apply State.wr_low) | dsimp only
@[simp] theorem State.dmaStop_low {s0 : State} (s : State) (k : Nat) (hc : Low s0 s) :
    Low s0 (State.dmaStop s k) := by
  unfold State.dmaStop
  repeat' first | first | omega | ((simp +zetaDelta only [odKey, bankIdx, bankStatusSub, canIdx, dmaObj, instBase, launchIdx, coreIdx, dmaIdx, logBase, trigIdx] <;> (try split)) <;> omega) | (with_reducible first | assumption | apply low_ite | apply State.wr_low) | dsimp only
@[simp] theorem State.dmaControl_low {s0 : State} (s : State) (k v : Nat) (hc : Low s0 s) :
    Low s0 (State.dmaControl s k v) := by
  unfold State.dmaControl
  repeat' first | first | omega | ((simp +zetaDelta only [odKey, bankIdx, bankStatusSub, canIdx, dmaObj, instBase, launchIdx, coreIdx, dmaIdx, logBase, trigIdx] <;> (try split)) <;> omega) | (with_reducible first | assumption | apply low_ite | apply State.dmaStart_low | apply State.dmaStop_low | apply State.wr_low) | dsimp only
@[simp] theorem State.dmaMoved_low {s0 : State} (s : State) (k : Nat) (hc : Low s0 s) :
    Low s0 (State.dmaMoved s k) := by
  unfold State.dmaMoved
  extract_lets z0 z1 z2
  have h2 : Low s0 z2 := by repeat' first | first | omega | ((simp +zetaDelta only [odKey, bankIdx, bankStatusSub, canIdx, dmaObj, instBase, launchIdx, coreIdx, dmaIdx, logBase, trigIdx] <;> (try split)) <;> omega) | (with_reducible first | assumption | apply State.cnt_low | apply State.wr_low) | dsimp only
  try clear_value z2
  repeat' first | first | omega | ((simp +zetaDelta only [odKey, bankIdx, bankStatusSub, canIdx, dmaObj, instBase, launchIdx, coreIdx, dmaIdx, logBase, trigIdx] <;> (try split)) <;> omega) | (with_reducible first | assumption | apply low_ite | apply State.pioEvent_low | apply State.wr_low) | dsimp only
theorem State.effPio_low {s0 : State} (s : State) (i j v : Nat) {t1} (h : State.effPio s i j v = some t1) (hc : Low s0 s) :
    Low s0 t1 := by
  simp only [State.effPio] at h
  repeat' split at h
  all_goals first | (simp only [Option.some.injEq, reduceCtorEq] at h; done) | (simp only [Option.some.injEq] at h; subst h)
  all_goals (repeat' first | first | omega | ((simp +zetaDelta only [odKey, bankIdx, bankStatusSub, canIdx, dmaObj, instBase, launchIdx, coreIdx, dmaIdx, logBase, trigIdx] <;> (try split)) <;> omega) | (with_reducible first | assumption | apply low_ite | apply State.dmaControl_low | apply State.dmaStop_low | apply State.setPioFlags_low | apply State.smClear_low | apply State.smEnable_low | apply State.smRestart_low | apply State.smStream_low | apply State.smWrap_low | apply State.syncCommand_low | apply State.txPush_low) | simp only [low_same] | intro _ | dsimp only | split)

@[simp] theorem State.setTrkS_low {s0 : State} (s : State) (t j v : Nat) (hc : Low s0 s) :
    Low s0 (State.setTrkS s t j v) := by
  unfold State.setTrkS
  repeat' first | first | omega | ((simp +zetaDelta only [odKey, bankIdx, bankStatusSub, canIdx, dmaObj, instBase, launchIdx, coreIdx, dmaIdx, logBase, trigIdx] <;> (try split)) <;> omega) | (with_reducible first | assumption | apply State.wr_low) | dsimp only
@[simp] theorem State.trkCnt_low {s0 : State} (s : State) (t j : Nat) (hc : Low s0 s) :
    Low s0 (State.trkCnt s t j) := by
  unfold State.trkCnt
  repeat' first | first | omega | ((simp +zetaDelta only [odKey, bankIdx, bankStatusSub, canIdx, dmaObj, instBase, launchIdx, coreIdx, dmaIdx, logBase, trigIdx] <;> (try split)) <;> omega) | (with_reducible first | assumption | apply State.cntH_low) | dsimp only
@[simp] theorem State.trkAnchor_low {s0 : State} (s : State) (t : Nat) (hc : Low s0 s) :
    Low s0 (State.trkAnchor s t) := by
  unfold State.trkAnchor
  extract_lets z0
  repeat' first | first | omega | ((simp +zetaDelta only [odKey, bankIdx, bankStatusSub, canIdx, dmaObj, instBase, launchIdx, coreIdx, dmaIdx, logBase, trigIdx] <;> (try split)) <;> omega) | (with_reducible first | assumption | apply low_ite | apply State.setTrack_low) | simp only [low_same] | dsimp only | split
@[simp] theorem State.trkNext_low {s0 : State} (s : State) (t : Nat) (hc : Low s0 s) :
    Low s0 (State.trkNext s t) := by
  unfold State.trkNext
  extract_lets z0 z1
  repeat' first | first | omega | ((simp +zetaDelta only [odKey, bankIdx, bankStatusSub, canIdx, dmaObj, instBase, launchIdx, coreIdx, dmaIdx, logBase, trigIdx] <;> (try split)) <;> omega) | (with_reducible first | assumption | apply State.setTrack_low) | simp only [low_same] | dsimp only
@[simp] theorem State.trkStop_low {s0 : State} (s : State) (t st : Nat) (hc : Low s0 s) :
    Low s0 (State.trkStop s t st) := by
  unfold State.trkStop
  extract_lets z0 z1
  have h0 : Low s0 z0 := by repeat' first | first | omega | ((simp +zetaDelta only [odKey, bankIdx, bankStatusSub, canIdx, dmaObj, instBase, launchIdx, coreIdx, dmaIdx, logBase, trigIdx] <;> (try split)) <;> omega) | (with_reducible first | assumption | apply State.setTrkS_low | apply State.wr_low) | dsimp only
  try clear_value z0
  repeat' first | first | omega | ((simp +zetaDelta only [odKey, bankIdx, bankStatusSub, canIdx, dmaObj, instBase, launchIdx, coreIdx, dmaIdx, logBase, trigIdx] <;> (try split)) <;> omega) | (with_reducible first | assumption | apply State.setTrack_low | apply State.swapLeave_low) | simp only [low_same] | dsimp only
@[simp] theorem State.trkEnable_low {s0 : State} (s : State) (t v : Nat) (hc : Low s0 s) :
    Low s0 (State.trkEnable s t v) := by
  unfold State.trkEnable
  repeat' first | first | omega | ((simp +zetaDelta only [odKey, bankIdx, bankStatusSub, canIdx, dmaObj, instBase, launchIdx, coreIdx, dmaIdx, logBase, trigIdx] <;> (try split)) <;> omega) | (with_reducible first | assumption | apply low_ite | apply State.setTrack_low | apply State.setTrkS_low | apply State.trkAnchor_low | apply State.trkStop_low | apply State.wr_low) | dsimp only
@[simp] theorem State.trkAbort_low {s0 : State} (s : State) (t : Nat) (hc : Low s0 s) :
    Low s0 (State.trkAbort s t) := by
  unfold State.trkAbort
  repeat' first | first | omega | ((simp +zetaDelta only [odKey, bankIdx, bankStatusSub, canIdx, dmaObj, instBase, launchIdx, coreIdx, dmaIdx, logBase, trigIdx] <;> (try split)) <;> omega) | (with_reducible first | assumption | apply low_ite | apply State.setTrack_low | apply State.setTrkS_low | apply State.trkStop_low) | simp only [low_same] | dsimp only
@[simp] theorem State.trkAdvance_low {s0 : State} (s : State) (t : Nat) (hc : Low s0 s) : Low s0 (State.trkAdvance s t) := by
  unfold State.trkAdvance; (repeat' (first | first | omega | ((simp +zetaDelta only [odKey, bankIdx, bankStatusSub, canIdx, dmaObj, instBase, launchIdx, coreIdx, dmaIdx, logBase, trigIdx] <;> (try split)) <;> omega) | with_reducible assumption | with_reducible apply low_ite | with_reducible apply low_ite2 | with_reducible apply low_ite3 | with_reducible apply low_ite4 | with_reducible apply State.setTrack_low | with_reducible apply State.setTrkS_low | simp only [low_same] | intro _ | dsimp only | split))
@[simp] theorem State.trkEnd_low {s0 : State} (s : State) (t : Nat) (hc : Low s0 s) :
    Low s0 (State.trkEnd s t) := by
  unfold State.trkEnd
  repeat' first | first | omega | ((simp +zetaDelta only [odKey, bankIdx, bankStatusSub, canIdx, dmaObj, instBase, launchIdx, coreIdx, dmaIdx, logBase, trigIdx] <;> (try split)) <;> omega) | (with_reducible first | assumption | apply State.locusEvent_low | apply State.trkStop_low) | dsimp only
@[simp] theorem State.trkFinish_low {s0 : State} (s : State) (t : Nat) (hc : Low s0 s) :
    Low s0 (State.trkFinish s t) := by
  unfold State.trkFinish
  extract_lets z0
  have h0 : Low s0 z0 := by repeat' first | first | omega | ((simp +zetaDelta only [odKey, bankIdx, bankStatusSub, canIdx, dmaObj, instBase, launchIdx, coreIdx, dmaIdx, logBase, trigIdx] <;> (try split)) <;> omega) | (with_reducible first | assumption | apply State.setTrkS_low | apply State.trkAdvance_low | apply State.trkNext_low) | dsimp only
  try clear_value z0
  repeat' first | first | omega | ((simp +zetaDelta only [odKey, bankIdx, bankStatusSub, canIdx, dmaObj, instBase, launchIdx, coreIdx, dmaIdx, logBase, trigIdx] <;> (try split)) <;> omega) | (with_reducible first | assumption | apply low_ite | apply State.trkEnd_low) | dsimp only
@[simp] theorem State.trkSwap_low {s0 : State} (s : State) (t : Nat) (hc : Low s0 s) :
    Low s0 (State.trkSwap s t) := by
  unfold State.trkSwap
  extract_lets z0 z1 z2 z3
  have h0 : Low s0 z0 := by repeat' first | first | omega | ((simp +zetaDelta only [odKey, bankIdx, bankStatusSub, canIdx, dmaObj, instBase, launchIdx, coreIdx, dmaIdx, logBase, trigIdx] <;> (try split)) <;> omega) | (with_reducible first | assumption | (apply low_foldl; intro _ _ _) | apply State.wr_low) | intro _ | dsimp only
  try clear_value z0
  have h3 : Low s0 z3 := by repeat' first | first | omega | ((simp +zetaDelta only [odKey, bankIdx, bankStatusSub, canIdx, dmaObj, instBase, launchIdx, coreIdx, dmaIdx, logBase, trigIdx] <;> (try split)) <;> omega) | (with_reducible first | assumption | apply State.setTrack_low) | simp only [low_same] | dsimp only
  try clear_value z3
  repeat' first | first | omega | ((simp +zetaDelta only [odKey, bankIdx, bankStatusSub, canIdx, dmaObj, instBase, launchIdx, coreIdx, dmaIdx, logBase, trigIdx] <;> (try split)) <;> omega) | (with_reducible first | assumption | apply State.setTrkS_low | apply State.swapLeave_low) | dsimp only
@[simp] theorem State.trkBegin_low {s0 : State} (s : State) (t : Nat) (hc : Low s0 s) :
    Low s0 (State.trkBegin s t) := by
  unfold State.trkBegin
  extract_lets z0
  repeat' first | first | omega | ((simp +zetaDelta only [odKey, bankIdx, bankStatusSub, canIdx, dmaObj, instBase, launchIdx, coreIdx, dmaIdx, logBase, trigIdx] <;> (try split)) <;> omega) | (with_reducible first | assumption | apply low_ite | apply State.setTrack_low | apply State.setTrkS_low | apply State.trkAnchor_low | apply State.trkCnt_low | apply State.trkEnd_low | apply State.trkNext_low | apply State.trkSwap_low) | simp only [low_same] | dsimp only
@[simp] theorem State.trkWrite_low {s0 : State} (s : State) (t : Nat) (d : List Byte) (late : Bool) (hc : Low s0 s) :
    Low s0 (State.trkWrite s t d late) := by
  unfold State.trkWrite
  repeat' first | first | omega | ((simp +zetaDelta only [odKey, bankIdx, bankStatusSub, canIdx, dmaObj, instBase, launchIdx, coreIdx, dmaIdx, logBase, trigIdx] <;> (try split)) <;> omega) | (with_reducible first | assumption | apply low_ite | apply State.setTrack_low) | simp only [low_same] | dsimp only
@[simp] theorem State.mixWords_low {s0 : State} (s : State) (old new : List Byte) (n : Nat) (hc : Low s0 s) : Low s0 (s.mixWords old new n).2 := by
  induction n generalizing s old new with
  | zero => simpa [State.mixWords] using hc
  | succ n ih => unfold State.mixWords; dsimp only; repeat' split
                 all_goals simp (maxDischargeDepth := 60) [ih, hc]
@[simp] theorem State.trkStore_low {s0 : State} (s : State) (t : Nat) (d : List Byte) (hc : Low s0 s) :
    Low s0 (State.trkStore s t d) := by
  unfold State.trkStore
  repeat' first | first | omega | ((simp +zetaDelta only [odKey, bankIdx, bankStatusSub, canIdx, dmaObj, instBase, launchIdx, coreIdx, dmaIdx, logBase, trigIdx] <;> (try split)) <;> omega) | (with_reducible first | assumption | apply low_ite | apply State.dmaWrite_low) | simp only [low_same] | dsimp only | split
@[simp] theorem State.trkStaged_low {s0 : State} (s : State) (t : Nat) (hc : Low s0 s) :
    Low s0 (State.trkStaged s t) := by
  unfold State.trkStaged
  extract_lets z0 z1
  repeat' first | first | omega | ((simp +zetaDelta only [odKey, bankIdx, bankStatusSub, canIdx, dmaObj, instBase, launchIdx, coreIdx, dmaIdx, logBase, trigIdx] <;> (try split)) <;> omega) | (with_reducible first | assumption | apply low_ite | apply State.setTrack_low | apply State.setTrkS_low | apply State.trkCnt_low | apply State.trkFinish_low | apply State.trkStop_low | apply State.trkStore_low) | simp only [low_same] | dsimp only | split
@[simp] theorem State.swapArm_low {s0 : State} (s : State) (tied : Bool) (hc : Low s0 s) :
    Low s0 (State.swapArm s tied) := by
  unfold State.swapArm
  extract_lets z0
  have h0 : Low s0 z0 := by repeat' first | first | omega | ((simp +zetaDelta only [odKey, bankIdx, bankStatusSub, canIdx, dmaObj, instBase, launchIdx, coreIdx, dmaIdx, logBase, trigIdx] <;> (try split)) <;> omega) | (with_reducible first | assumption | (apply low_foldl; intro _ _ _) | apply State.setTrack_low) | simp only [low_same] | intro _ | dsimp only
  try clear_value z0
  repeat' first | first | omega | ((simp +zetaDelta only [odKey, bankIdx, bankStatusSub, canIdx, dmaObj, instBase, launchIdx, coreIdx, dmaIdx, logBase, trigIdx] <;> (try split)) <;> omega) | (with_reducible first | assumption | apply State.wr_low) | simp only [low_same] | dsimp only
@[simp] theorem State.swapStop_low {s0 : State} (s : State) (hc : Low s0 s) :
    Low s0 (State.swapStop s) := by
  unfold State.swapStop
  repeat' first | first | omega | ((simp +zetaDelta only [odKey, bankIdx, bankStatusSub, canIdx, dmaObj, instBase, launchIdx, coreIdx, dmaIdx, logBase, trigIdx] <;> (try split)) <;> omega) | (with_reducible first | assumption | apply low_ite | apply State.swapCancel_low) | dsimp only
@[simp] theorem State.swapCommand_low {s0 : State} (s : State) (v : Nat) (hc : Low s0 s) :
    Low s0 (State.swapCommand s v) := by
  unfold State.swapCommand
  repeat' first | first | omega | ((simp +zetaDelta only [odKey, bankIdx, bankStatusSub, canIdx, dmaObj, instBase, launchIdx, coreIdx, dmaIdx, logBase, trigIdx] <;> (try split)) <;> omega) | (with_reducible first | assumption | apply low_ite | apply State.swapArm_low | apply State.swapStop_low) | dsimp only
theorem State.effLocus_low {s0 : State} (s : State) (i j v : Nat) {t1} (h : State.effLocus s i j v = some t1) (hc : Low s0 s) :
    Low s0 t1 := by
  simp only [State.effLocus] at h
  repeat' split at h
  all_goals first | (simp only [Option.some.injEq, reduceCtorEq] at h; done) | (simp only [Option.some.injEq] at h; subst h)
  all_goals (repeat' first | first | omega | ((simp +zetaDelta only [odKey, bankIdx, bankStatusSub, canIdx, dmaObj, instBase, launchIdx, coreIdx, dmaIdx, logBase, trigIdx] <;> (try split)) <;> omega) | (with_reducible first | assumption | apply low_ite | apply State.swapCommand_low | apply State.trkAbort_low | apply State.trkEnable_low) | simp only [low_same] | intro _ | dsimp only | split)

@[simp] theorem State.setCan_low {s0 : State} (s : State) (c : Nat) (x : Can) (hc : Low s0 s) :
    Low s0 (State.setCan s c x) := by
  unfold State.setCan
  repeat' first | first | omega | ((simp +zetaDelta only [odKey, bankIdx, bankStatusSub, canIdx, dmaObj, instBase, launchIdx, coreIdx, dmaIdx, logBase, trigIdx] <;> (try split)) <;> omega) | (with_reducible first | assumption) | simp only [low_same] | intro _ | dsimp only
@[simp] theorem State.canEvent_low {s0 : State} (s : State) (c b : Nat) (hc : Low s0 s) :
    Low s0 (State.canEvent s c b) := by
  unfold State.canEvent
  repeat' first | first | omega | ((simp +zetaDelta only [odKey, bankIdx, bankStatusSub, canIdx, dmaObj, instBase, launchIdx, coreIdx, dmaIdx, logBase, trigIdx] <;> (try split)) <;> omega) | (with_reducible first | assumption | apply State.event_low) | dsimp only
@[simp] theorem State.canCnt_low {s0 : State} (s : State) (c j : Nat) (hc : Low s0 s) :
    Low s0 (State.canCnt s c j) := by
  unfold State.canCnt
  repeat' first | first | omega | ((simp +zetaDelta only [odKey, bankIdx, bankStatusSub, canIdx, dmaObj, instBase, launchIdx, coreIdx, dmaIdx, logBase, trigIdx] <;> (try split)) <;> omega) | (with_reducible first | assumption | apply State.cntH_low) | dsimp only
@[simp] theorem State.setBuf_low {s0 : State} (s : State) (c b lsb w v : Nat) (hc : Low s0 s) :
    Low s0 (State.setBuf s c b lsb w v) := by
  unfold State.setBuf
  repeat' first | first | omega | ((simp +zetaDelta only [odKey, bankIdx, bankStatusSub, canIdx, dmaObj, instBase, launchIdx, coreIdx, dmaIdx, logBase, trigIdx] <;> (try split)) <;> omega) | (with_reducible first | assumption | apply State.wr_low) | dsimp only
@[simp] theorem State.setBufState_low {s0 : State} (s : State) (c b v : Nat) (hc : Low s0 s) :
    Low s0 (State.setBufState s c b v) := by
  unfold State.setBufState
  repeat' first | first | omega | ((simp +zetaDelta only [odKey, bankIdx, bankStatusSub, canIdx, dmaObj, instBase, launchIdx, coreIdx, dmaIdx, logBase, trigIdx] <;> (try split)) <;> omega) | (with_reducible first | assumption | apply State.setBuf_low) | dsimp only
@[simp] theorem State.canStamp_low {s0 : State} (s : State) (c ago phase : Nat) (hc : Low s0 s) :
    Low s0 (State.canStamp s c ago phase).2 := by
  unfold State.canStamp
  repeat' first | first | omega | ((simp +zetaDelta only [odKey, bankIdx, bankStatusSub, canIdx, dmaObj, instBase, launchIdx, coreIdx, dmaIdx, logBase, trigIdx] <;> (try split)) <;> omega) | (with_reducible first | assumption | apply State.tick_low) | dsimp only
@[simp] theorem State.canPut_low {s0 : State} (s : State) (c k a : Nat) (f : CanFrame) (how : Nat) (hc : Low s0 s) :
    Low s0 (State.canPut s c k a f how) := by
  unfold State.canPut
  extract_lets z0 z1 z2 z3 z4 z5 z6 z7 z8
  have h5 : Low s0 z5 := by repeat' first | first | omega | ((simp +zetaDelta only [odKey, bankIdx, bankStatusSub, canIdx, dmaObj, instBase, launchIdx, coreIdx, dmaIdx, logBase, trigIdx] <;> (try split)) <;> omega) | (with_reducible first | assumption | apply State.setCan_low) | simp only [low_same] | intro _ | dsimp only
  try clear_value z5
  have h6 : Low s0 z6 := by repeat' first | first | omega | ((simp +zetaDelta only [odKey, bankIdx, bankStatusSub, canIdx, dmaObj, instBase, launchIdx, coreIdx, dmaIdx, logBase, trigIdx] <;> (try split)) <;> omega) | (with_reducible first | assumption | apply State.unitWrite_low) | dsimp only
  try clear_value z6
  have h7 : Low s0 z7 := by repeat' first | first | omega | ((simp +zetaDelta only [odKey, bankIdx, bankStatusSub, canIdx, dmaObj, instBase, launchIdx, coreIdx, dmaIdx, logBase, trigIdx] <;> (try split)) <;> omega) | (with_reducible first | assumption | apply State.unitWrite_low) | dsimp only
  try clear_value z7
  have h8 : Low s0 z8 := by repeat' first | first | omega | ((simp +zetaDelta only [odKey, bankIdx, bankStatusSub, canIdx, dmaObj, instBase, launchIdx, coreIdx, dmaIdx, logBase, trigIdx] <;> (try split)) <;> omega) | (with_reducible first | assumption | apply State.unitWrite_low) | dsimp only
  try clear_value z8
  repeat' first | first | omega | ((simp +zetaDelta only [odKey, bankIdx, bankStatusSub, canIdx, dmaObj, instBase, launchIdx, coreIdx, dmaIdx, logBase, trigIdx] <;> (try split)) <;> omega) | (with_reducible first | assumption | apply State.unitWrite_low) | dsimp only
@[simp] theorem State.canAccept_low {s0 : State} (s : State) (c : Nat) (f : CanFrame) (hc : Low s0 s) :
    Low s0 (State.canAccept s c f).2 := by
  unfold State.canAccept
  repeat' first | first | omega | ((simp +zetaDelta only [odKey, bankIdx, bankStatusSub, canIdx, dmaObj, instBase, launchIdx, coreIdx, dmaIdx, logBase, trigIdx] <;> (try split)) <;> omega) | (with_reducible first | assumption | apply low_ite | apply State.tick_low | apply low_ite2 | apply low_ite3 | apply low_ite4) | simp only [low_same] | intro _ | dsimp only | split
@[simp] theorem State.fifoStore_low {s0 : State} (s : State) (c k : Nat) (f : CanFrame) (how : Nat) (hc : Low s0 s) :
    Low s0 (State.fifoStore s c k f how) := by
  unfold State.fifoStore
  repeat' first | first | omega | ((simp +zetaDelta only [odKey, bankIdx, bankStatusSub, canIdx, dmaObj, instBase, launchIdx, coreIdx, dmaIdx, logBase, trigIdx] <;> (try split)) <;> omega) | (with_reducible first | assumption | apply low_ite | apply State.canCnt_low | apply State.canEvent_low | apply State.canPut_low | apply State.wr_low) | dsimp only
@[simp] theorem State.canLose_low {s0 : State} (s : State) (c b : Nat) (hc : Low s0 s) :
    Low s0 (State.canLose s c b) := by
  unfold State.canLose
  repeat' first | first | omega | ((simp +zetaDelta only [odKey, bankIdx, bankStatusSub, canIdx, dmaObj, instBase, launchIdx, coreIdx, dmaIdx, logBase, trigIdx] <;> (try split)) <;> omega) | (with_reducible first | assumption | apply State.canCnt_low | apply State.canEvent_low | apply State.setBuf_low) | dsimp only
@[simp] theorem State.bufStore_low {s0 : State} (s : State) (c b : Nat) (f : CanFrame) (how : Nat) (hc : Low s0 s) :
    Low s0 (State.bufStore s c b f how) := by
  unfold State.bufStore
  repeat' first | first | omega | ((simp +zetaDelta only [odKey, bankIdx, bankStatusSub, canIdx, dmaObj, instBase, launchIdx, coreIdx, dmaIdx, logBase, trigIdx] <;> (try split)) <;> omega) | (with_reducible first | assumption | apply low_ite | apply State.canEvent_low | apply State.canLose_low | apply State.canPut_low | apply State.setBuf_low | apply State.setBufState_low | apply State.setCan_low) | simp only [low_same] | dsimp only
@[simp] theorem State.canStore_low {s0 : State} (s : State) (c : Nat) (hc : Low s0 s) :
    Low s0 (State.canStore s c) := by
  unfold State.canStore
  repeat' first | first | omega | ((simp +zetaDelta only [odKey, bankIdx, bankStatusSub, canIdx, dmaObj, instBase, launchIdx, coreIdx, dmaIdx, logBase, trigIdx] <;> (try split)) <;> omega) | (with_reducible first | assumption | apply low_ite | apply State.bufStore_low | apply State.fifoStore_low | apply State.setCan_low) | simp only [low_same] | dsimp only | split
@[simp] theorem State.canOffer_low {s0 : State} (s : State) (c : Nat) (f : CanFrame) (hc : Low s0 s) : Low s0 (s.canOffer c f) := by
  unfold State.canOffer
  dsimp only
  have h := State.canAccept_low ((s.canStore c).canCnt c 1) c f (s0 := s0) (by simp [hc])
  split <;> rename_i e <;> rw [e] at h <;> simp_all
@[simp] theorem State.canStatus_low {s0 : State} (s : State) (c lsb w v : Nat) (hc : Low s0 s) :
    Low s0 (State.canStatus s c lsb w v) := by
  unfold State.canStatus
  repeat' first | first | omega | ((simp +zetaDelta only [odKey, bankIdx, bankStatusSub, canIdx, dmaObj, instBase, launchIdx, coreIdx, dmaIdx, logBase, trigIdx] <;> (try split)) <;> omega) | (with_reducible first | assumption | apply State.wr_low) | dsimp only
@[simp] theorem State.canCounters_low {s0 : State} (s : State) (c tec rec : Nat) (hc : Low s0 s) :
    Low s0 (State.canCounters s c tec rec) := by
  unfold State.canCounters
  extract_lets z0 z1 z2 z3
  have h1 : Low s0 z1 := by repeat' first | first | omega | ((simp +zetaDelta only [odKey, bankIdx, bankStatusSub, canIdx, dmaObj, instBase, launchIdx, coreIdx, dmaIdx, logBase, trigIdx] <;> (try split)) <;> omega) | (with_reducible first | assumption | apply State.wr_low) | dsimp only
  try clear_value z1
  have h3 : Low s0 z3 := by repeat' first | first | omega | ((simp +zetaDelta only [odKey, bankIdx, bankStatusSub, canIdx, dmaObj, instBase, launchIdx, coreIdx, dmaIdx, logBase, trigIdx] <;> (try split)) <;> omega) | (with_reducible first | assumption | apply State.canStatus_low) | dsimp only
  try clear_value z3
  repeat' first | first | omega | ((simp +zetaDelta only [odKey, bankIdx, bankStatusSub, canIdx, dmaObj, instBase, launchIdx, coreIdx, dmaIdx, logBase, trigIdx] <;> (try split)) <;> omega) | (with_reducible first | assumption | apply low_ite | apply State.canEvent_low | apply State.canStatus_low | apply State.cnt_low | apply State.record_low | apply State.setCan_low) | simp only [low_same] | dsimp only
@[simp] theorem State.recUp_low {s0 : State} (s : State) (c k : Nat) (hc : Low s0 s) :
    Low s0 (State.recUp s c k).2 := by
  unfold State.recUp
  extract_lets z0
  repeat' first | first | omega | ((simp +zetaDelta only [odKey, bankIdx, bankStatusSub, canIdx, dmaObj, instBase, launchIdx, coreIdx, dmaIdx, logBase, trigIdx] <;> (try split)) <;> omega) | (with_reducible first | assumption | apply low_ite | apply State.tick_low | apply low_ite2 | apply low_ite3 | apply low_ite4) | dsimp only
@[simp] theorem State.recDown_low {s0 : State} (s : State) (c : Nat) (hc : Low s0 s) :
    Low s0 (State.recDown s c).2 := by
  unfold State.recDown
  extract_lets z0
  repeat' first | first | omega | ((simp +zetaDelta only [odKey, bankIdx, bankStatusSub, canIdx, dmaObj, instBase, launchIdx, coreIdx, dmaIdx, logBase, trigIdx] <;> (try split)) <;> omega) | (with_reducible first | assumption | apply low_ite | apply State.tick_low | apply low_ite2 | apply low_ite3 | apply low_ite4) | dsimp only
@[simp] theorem State.canErr_low {s0 : State} (s : State) (c lec : Nat) (data : Bool) (hc : Low s0 s) :
    Low s0 (State.canErr s c lec data) := by
  unfold State.canErr
  repeat' first | first | omega | ((simp +zetaDelta only [odKey, bankIdx, bankStatusSub, canIdx, dmaObj, instBase, launchIdx, coreIdx, dmaIdx, logBase, trigIdx] <;> (try split)) <;> omega) | (with_reducible first | assumption | apply low_ite | apply State.canCnt_low | apply State.canStatus_low) | dsimp only
@[simp] theorem State.canEnter_low {s0 : State} (s : State) (c m : Nat) (hc : Low s0 s) :
    Low s0 (State.canEnter s c m) := by
  unfold State.canEnter
  extract_lets z0 z1
  repeat' first | first | omega | ((simp +zetaDelta only [odKey, bankIdx, bankStatusSub, canIdx, dmaObj, instBase, launchIdx, coreIdx, dmaIdx, logBase, trigIdx] <;> (try split)) <;> omega) | (with_reducible first | assumption | apply low_ite | apply State.canStatus_low | apply State.setCan_low) | simp only [low_same] | dsimp only
@[simp] theorem State.canMode_low {s0 : State} (s : State) (c m : Nat) (hc : Low s0 s) :
    Low s0 (State.canMode s c m) := by
  unfold State.canMode
  extract_lets z0
  have h0 : Low s0 z0 := by repeat' first | first | omega | ((simp +zetaDelta only [odKey, bankIdx, bankStatusSub, canIdx, dmaObj, instBase, launchIdx, coreIdx, dmaIdx, logBase, trigIdx] <;> (try split)) <;> omega) | (with_reducible first | assumption | apply State.wr_low) | dsimp only
  try clear_value z0
  repeat' first | first | omega | ((simp +zetaDelta only [odKey, bankIdx, bankStatusSub, canIdx, dmaObj, instBase, launchIdx, coreIdx, dmaIdx, logBase, trigIdx] <;> (try split)) <;> omega) | (with_reducible first | assumption | apply low_ite | apply State.canEnter_low | apply State.setCan_low) | simp only [low_same] | dsimp only
@[simp] theorem State.canIdle_low {s0 : State} (s : State) (c : Nat) (hc : Low s0 s) :
    Low s0 (State.canIdle s c) := by
  unfold State.canIdle
  extract_lets z0 z1
  have h1 : Low s0 z1 := by repeat' first | first | omega | ((simp +zetaDelta only [odKey, bankIdx, bankStatusSub, canIdx, dmaObj, instBase, launchIdx, coreIdx, dmaIdx, logBase, trigIdx] <;> (try split)) <;> omega) | (with_reducible first | assumption | apply State.canStatus_low | apply State.setCan_low) | simp only [low_same] | dsimp only
  try clear_value z1
  repeat' first | first | omega | ((simp +zetaDelta only [odKey, bankIdx, bankStatusSub, canIdx, dmaObj, instBase, launchIdx, coreIdx, dmaIdx, logBase, trigIdx] <;> (try split)) <;> omega) | (with_reducible first | assumption | apply State.canEnter_low) | simp only [low_same] | dsimp only | split
@[simp] theorem State.canHeard_low {s0 : State} (s : State) (c : Nat) (hc : Low s0 s) :
    Low s0 (State.canHeard s c) := by
  unfold State.canHeard
  repeat' first | first | omega | ((simp +zetaDelta only [odKey, bankIdx, bankStatusSub, canIdx, dmaObj, instBase, launchIdx, coreIdx, dmaIdx, logBase, trigIdx] <;> (try split)) <;> omega) | (with_reducible first | assumption | apply State.canStatus_low | apply State.setCan_low) | simp only [low_same] | dsimp only
@[simp] theorem State.canRetry_low {s0 : State} (s : State) (c b : Nat) (hc : Low s0 s) :
    Low s0 (State.canRetry s c b) := by
  unfold State.canRetry
  extract_lets z0
  repeat' first | first | omega | ((simp +zetaDelta only [odKey, bankIdx, bankStatusSub, canIdx, dmaObj, instBase, launchIdx, coreIdx, dmaIdx, logBase, trigIdx] <;> (try split)) <;> omega) | (with_reducible first | assumption | apply low_ite | apply State.canEvent_low | apply State.setBuf_low | apply State.setBufState_low | apply State.setCan_low) | simp only [low_same] | dsimp only
@[simp] theorem State.canLost_low {s0 : State} (s : State) (c : Nat) (hc : Low s0 s) :
    Low s0 (State.canLost s c) := by
  unfold State.canLost
  repeat' first | first | omega | ((simp +zetaDelta only [odKey, bankIdx, bankStatusSub, canIdx, dmaObj, instBase, launchIdx, coreIdx, dmaIdx, logBase, trigIdx] <;> (try split)) <;> omega) | (with_reducible first | assumption | apply State.canIdle_low | apply State.canRetry_low) | simp only [low_same] | dsimp only | split
@[simp] theorem State.canAttempt_low {s0 : State} (s : State) (c phase : Nat) (hc : Low s0 s) :
    Low s0 (State.canAttempt s c phase) := by
  unfold State.canAttempt
  repeat' first | first | omega | ((simp +zetaDelta only [odKey, bankIdx, bankStatusSub, canIdx, dmaObj, instBase, launchIdx, coreIdx, dmaIdx, logBase, trigIdx] <;> (try split)) <;> omega) | (with_reducible first | assumption | apply low_ite | apply State.canLost_low | apply State.canStamp_low | apply State.canStatus_low | apply State.cnt_low | apply State.emit_low | apply State.setBufState_low | apply State.setCan_low | apply low_ite2 | apply low_ite3 | apply low_ite4) | simp only [low_same] | dsimp only | split
@[simp] theorem State.canDelay_low {s0 : State} (s : State) (c : Nat) (f : CanFrame) (delay : Nat) (hc : Low s0 s) :
    Low s0 (State.canDelay s c f delay) := by
  unfold State.canDelay
  repeat' first | first | omega | ((simp +zetaDelta only [odKey, bankIdx, bankStatusSub, canIdx, dmaObj, instBase, launchIdx, coreIdx, dmaIdx, logBase, trigIdx] <;> (try split)) <;> omega) | (with_reducible first | assumption | apply low_ite | apply State.canStatus_low) | dsimp only
@[simp] theorem State.canSent_low {s0 : State} (s : State) (c b : Nat) (f : CanFrame) (hc : Low s0 s) :
    Low s0 (State.canSent s c b f) := by
  unfold State.canSent
  extract_lets z0 z1 z2 z3 z4 z5 z6
  have h2 : Low s0 z2 := by repeat' first | first | omega | ((simp +zetaDelta only [odKey, bankIdx, bankStatusSub, canIdx, dmaObj, instBase, launchIdx, coreIdx, dmaIdx, logBase, trigIdx] <;> (try split)) <;> omega) | (with_reducible first | assumption | apply low_ite | apply State.setBufState_low | apply State.setCan_low) | simp only [low_same] | dsimp only
  try clear_value z2
  have h3 : Low s0 z3 := by repeat' first | first | omega | ((simp +zetaDelta only [odKey, bankIdx, bankStatusSub, canIdx, dmaObj, instBase, launchIdx, coreIdx, dmaIdx, logBase, trigIdx] <;> (try split)) <;> omega) | (with_reducible first | assumption | apply low_ite | apply State.canEvent_low | apply State.setBuf_low) | dsimp only
  try clear_value z3
  have h4 : Low s0 z4 := by repeat' first | first | omega | ((simp +zetaDelta only [odKey, bankIdx, bankStatusSub, canIdx, dmaObj, instBase, launchIdx, coreIdx, dmaIdx, logBase, trigIdx] <;> (try split)) <;> omega) | (with_reducible first | assumption | apply State.canCnt_low | apply State.canEvent_low | apply State.unitWrite_low) | dsimp only
  try clear_value z4
  have h5 : Low s0 z5 := by repeat' first | first | omega | ((simp +zetaDelta only [odKey, bankIdx, bankStatusSub, canIdx, dmaObj, instBase, launchIdx, coreIdx, dmaIdx, logBase, trigIdx] <;> (try split)) <;> omega) | (with_reducible first | assumption | apply State.canCounters_low | apply State.canHeard_low) | dsimp only
  try clear_value z5
  have h6 : Low s0 z6 := by repeat' first | first | omega | ((simp +zetaDelta only [odKey, bankIdx, bankStatusSub, canIdx, dmaObj, instBase, launchIdx, coreIdx, dmaIdx, logBase, trigIdx] <;> (try split)) <;> omega) | (with_reducible first | assumption | apply low_ite | apply State.canOffer_low) | dsimp only
  try clear_value z6
  repeat' first | first | omega | ((simp +zetaDelta only [odKey, bankIdx, bankStatusSub, canIdx, dmaObj, instBase, launchIdx, coreIdx, dmaIdx, logBase, trigIdx] <;> (try split)) <;> omega) | (with_reducible first | assumption | apply State.canIdle_low) | dsimp only
@[simp] theorem State.canUnacked_low {s0 : State} (s : State) (c b : Nat) (hc : Low s0 s) :
    Low s0 (State.canUnacked s c b) := by
  unfold State.canUnacked
  extract_lets z0 z1 z2
  have h2 : Low s0 z2 := by repeat' first | first | omega | ((simp +zetaDelta only [odKey, bankIdx, bankStatusSub, canIdx, dmaObj, instBase, launchIdx, coreIdx, dmaIdx, logBase, trigIdx] <;> (try split)) <;> omega) | (with_reducible first | assumption | apply low_ite | apply State.canEvent_low | apply State.canRetry_low | apply State.canStatus_low | apply State.cnt_low | apply State.setBufState_low | apply State.setCan_low) | simp only [low_same] | dsimp only
  try clear_value z2
  repeat' first | first | omega | ((simp +zetaDelta only [odKey, bankIdx, bankStatusSub, canIdx, dmaObj, instBase, launchIdx, coreIdx, dmaIdx, logBase, trigIdx] <;> (try split)) <;> omega) | (with_reducible first | assumption | apply low_ite | apply State.canEvent_low | apply State.canRetry_low | apply State.canStatus_low | apply State.cnt_low | apply State.setBufState_low) | dsimp only
@[simp] theorem State.canAbort_low {s0 : State} (s : State) (c b : Nat) (hc : Low s0 s) :
    Low s0 (State.canAbort s c b) := by
  unfold State.canAbort
  repeat' first | first | omega | ((simp +zetaDelta only [odKey, bankIdx, bankStatusSub, canIdx, dmaObj, instBase, launchIdx, coreIdx, dmaIdx, logBase, trigIdx] <;> (try split)) <;> omega) | (with_reducible first | assumption | apply low_ite | apply State.canEvent_low | apply State.setBuf_low | apply State.setBufState_low | apply State.setCan_low) | simp only [low_same] | dsimp only
@[simp] theorem State.canLock_low {s0 : State} (s : State) (c b : Nat) (hc : Low s0 s) :
    Low s0 (State.canLock s c b) := by
  unfold State.canLock
  extract_lets z0
  repeat' first | first | omega | ((simp +zetaDelta only [odKey, bankIdx, bankStatusSub, canIdx, dmaObj, instBase, launchIdx, coreIdx, dmaIdx, logBase, trigIdx] <;> (try split)) <;> omega) | (with_reducible first | assumption | apply low_ite | apply State.setBuf_low | apply State.setCan_low) | simp only [low_same] | dsimp only
@[simp] theorem State.canUnlock_low {s0 : State} (s : State) (c b : Nat) (hc : Low s0 s) :
    Low s0 (State.canUnlock s c b) := by
  unfold State.canUnlock
  extract_lets z0
  repeat' first | first | omega | ((simp +zetaDelta only [odKey, bankIdx, bankStatusSub, canIdx, dmaObj, instBase, launchIdx, coreIdx, dmaIdx, logBase, trigIdx] <;> (try split)) <;> omega) | (with_reducible first | assumption | apply low_ite | apply State.setBuf_low | apply State.setBufState_low | apply State.setCan_low) | simp only [low_same] | dsimp only
@[simp] theorem State.canPromoted_low {s0 : State} (s : State) (c b : Nat) (hc : Low s0 s) :
    Low s0 (State.canPromoted s c b) := by
  unfold State.canPromoted
  extract_lets z0
  repeat' first | first | omega | ((simp +zetaDelta only [odKey, bankIdx, bankStatusSub, canIdx, dmaObj, instBase, launchIdx, coreIdx, dmaIdx, logBase, trigIdx] <;> (try split)) <;> omega) | (with_reducible first | assumption | apply low_ite | apply State.canEvent_low | apply State.canPut_low | apply State.setBuf_low | apply State.setBufState_low | apply State.setCan_low) | simp only [low_same] | intro _ | dsimp only | split
@[simp] theorem State.canEach_low {s0 : State} (s : State) (v : Nat) (f : State → Nat → State) (hf : ∀ s a0, Low s0 s → Low s0 (f s a0)) (hc : Low s0 s) :
    Low s0 (State.canEach s v f) := by
  unfold State.canEach
  repeat' first | first | omega | ((simp +zetaDelta only [odKey, bankIdx, bankStatusSub, canIdx, dmaObj, instBase, launchIdx, coreIdx, dmaIdx, logBase, trigIdx] <;> (try split)) <;> omega) | (with_reducible first | assumption | apply low_ite | (apply low_foldl; intro _ _ _) | apply hf) | intro _ | dsimp only
@[simp] theorem State.canReset_low {s0 : State} (s : State) (c : Nat) (hc : Low s0 s) :
    Low s0 (State.canReset s c) := by
  unfold State.canReset
  extract_lets z0 z1
  have h1 : Low s0 z1 := by repeat' first | first | omega | ((simp +zetaDelta only [odKey, bankIdx, bankStatusSub, canIdx, dmaObj, instBase, launchIdx, coreIdx, dmaIdx, logBase, trigIdx] <;> (try split)) <;> omega) | (with_reducible first | assumption | apply State.dropSubs_low | apply State.route_low | apply State.setCan_low | apply State.wr_low) | dsimp only
  try clear_value z1
  repeat' first | first | omega | ((simp +zetaDelta only [odKey, bankIdx, bankStatusSub, canIdx, dmaObj, instBase, launchIdx, coreIdx, dmaIdx, logBase, trigIdx] <;> (try split)) <;> omega) | (with_reducible first | assumption | apply State.dropSubs_low) | dsimp only
@[simp] theorem State.engEvent_low {s0 : State} (s : State) (e b : Nat) (hc : Low s0 s) :
    Low s0 (State.engEvent s e b) := by
  unfold State.engEvent
  repeat' first | first | omega | ((simp +zetaDelta only [odKey, bankIdx, bankStatusSub, canIdx, dmaObj, instBase, launchIdx, coreIdx, dmaIdx, logBase, trigIdx] <;> (try split)) <;> omega) | (with_reducible first | assumption | apply State.event_low) | dsimp only
@[simp] theorem State.setCoreState_low {s0 : State} (s : State) (c v : Nat) (hc : Low s0 s) :
    Low s0 (State.setCoreState s c v) := by
  unfold State.setCoreState
  repeat' first | first | omega | ((simp +zetaDelta only [odKey, bankIdx, bankStatusSub, canIdx, dmaObj, instBase, launchIdx, coreIdx, dmaIdx, logBase, trigIdx] <;> (try split)) <;> omega) | (with_reducible first | assumption | apply State.wr_low) | dsimp only
@[simp] theorem State.setPc_low {s0 : State} (s : State) (c v : Nat) (hc : Low s0 s) :
    Low s0 (State.setPc s c v) := by
  unfold State.setPc
  repeat' first | first | omega | ((simp +zetaDelta only [odKey, bankIdx, bankStatusSub, canIdx, dmaObj, instBase, launchIdx, coreIdx, dmaIdx, logBase, trigIdx] <;> (try split)) <;> omega) | (with_reducible first | assumption | apply State.wr_low) | dsimp only
@[simp] theorem State.haltPending_low {s0 : State} (s : State) (e why : Nat) (hc : Low s0 s) :
    Low s0 (State.haltPending s e why) := by
  unfold State.haltPending
  repeat' first | first | omega | ((simp +zetaDelta only [odKey, bankIdx, bankStatusSub, canIdx, dmaObj, instBase, launchIdx, coreIdx, dmaIdx, logBase, trigIdx] <;> (try split)) <;> omega) | (with_reducible first | assumption | apply low_ite | apply State.setCoreState_low | apply State.setEngine_low) | simp only [low_same] | dsimp only
@[simp] theorem State.doRun_low {s0 : State} (s : State) (e : Nat) (hc : Low s0 s) :
    Low s0 (State.doRun s e) := by
  unfold State.doRun
  repeat' first | first | omega | ((simp +zetaDelta only [odKey, bankIdx, bankStatusSub, canIdx, dmaObj, instBase, launchIdx, coreIdx, dmaIdx, logBase, trigIdx] <;> (try split)) <;> omega) | (with_reducible first | assumption | apply low_ite | apply State.setCoreState_low | apply State.setEngine_low) | simp only [low_same] | dsimp only
@[simp] theorem State.doHalt_low {s0 : State} (s : State) (e : Nat) (hc : Low s0 s) :
    Low s0 (State.doHalt s e) := by
  unfold State.doHalt
  repeat' first | first | omega | ((simp +zetaDelta only [odKey, bankIdx, bankStatusSub, canIdx, dmaObj, instBase, launchIdx, coreIdx, dmaIdx, logBase, trigIdx] <;> (try split)) <;> omega) | (with_reducible first | assumption | apply low_ite | apply State.haltPending_low) | dsimp only
@[simp] theorem State.doStep_low {s0 : State} (s : State) (e : Nat) (hc : Low s0 s) :
    Low s0 (State.doStep s e) := by
  unfold State.doStep
  repeat' first | first | omega | ((simp +zetaDelta only [odKey, bankIdx, bankStatusSub, canIdx, dmaObj, instBase, launchIdx, coreIdx, dmaIdx, logBase, trigIdx] <;> (try split)) <;> omega) | (with_reducible first | assumption | apply low_ite | apply State.setCoreState_low | apply State.setEngine_low) | simp only [low_same] | dsimp only
@[simp] theorem State.doLoad_low {s0 : State} (s : State) (e : Nat) (hc : Low s0 s) :
    Low s0 (State.doLoad s e) := by
  unfold State.doLoad
  extract_lets z0
  repeat' first | first | omega | ((simp +zetaDelta only [odKey, bankIdx, bankStatusSub, canIdx, dmaObj, instBase, launchIdx, coreIdx, dmaIdx, logBase, trigIdx] <;> (try split)) <;> omega) | (with_reducible first | assumption | apply low_ite | apply State.setCoreState_low | apply State.wr_low) | dsimp only
@[simp] theorem State.engCommand_low {s0 : State} (s : State) (e v : Nat) (hc : Low s0 s) :
    Low s0 (State.engCommand s e v) := by
  unfold State.engCommand
  repeat' first | first | omega | ((simp +zetaDelta only [odKey, bankIdx, bankStatusSub, canIdx, dmaObj, instBase, launchIdx, coreIdx, dmaIdx, logBase, trigIdx] <;> (try split)) <;> omega) | (with_reducible first | assumption | apply low_ite | apply State.doHalt_low | apply State.doLoad_low | apply State.doRun_low | apply State.doStep_low) | dsimp only
@[simp] theorem State.halted_low {s0 : State} (s : State) (e : Nat) (hc : Low s0 s) :
    Low s0 (State.halted s e) := by
  unfold State.halted
  repeat' first | first | omega | ((simp +zetaDelta only [odKey, bankIdx, bankStatusSub, canIdx, dmaObj, instBase, launchIdx, coreIdx, dmaIdx, logBase, trigIdx] <;> (try split)) <;> omega) | (with_reducible first | assumption | apply State.engEvent_low | apply State.setCoreState_low | apply State.setEngine_low | apply State.wr_low) | simp only [low_same] | dsimp only
@[simp] theorem State.showLibrary_low {s0 : State} (s : State) (hc : Low s0 s) :
    Low s0 (State.showLibrary s) := by
  unfold State.showLibrary
  extract_lets z0 z1
  repeat' first | first | omega | ((simp +zetaDelta only [odKey, bankIdx, bankStatusSub, canIdx, dmaObj, instBase, launchIdx, coreIdx, dmaIdx, logBase, trigIdx] <;> (try split)) <;> omega) | (with_reducible first | assumption | apply State.wr_low) | dsimp only
@[simp] theorem State.libraryStart_low {s0 : State} (s : State) (install : Bool) (master : Nat) (hc : Low s0 s) :
    Low s0 (State.libraryStart s install master) := by
  unfold State.libraryStart
  repeat' first | first | omega | ((simp +zetaDelta only [odKey, bankIdx, bankStatusSub, canIdx, dmaObj, instBase, launchIdx, coreIdx, dmaIdx, logBase, trigIdx] <;> (try split)) <;> omega) | (with_reducible first | assumption | apply State.wr_low) | simp only [low_same] | dsimp only
@[simp] theorem State.installDone_low {s0 : State} (s : State) (master : Nat) (signed : Bool) (hc : Low s0 s) :
    Low s0 (State.installDone s master signed) := by
  unfold State.installDone
  extract_lets z0 z1
  repeat' first | first | omega | ((simp +zetaDelta only [odKey, bankIdx, bankStatusSub, canIdx, dmaObj, instBase, launchIdx, coreIdx, dmaIdx, logBase, trigIdx] <;> (try split)) <;> omega) | (with_reducible first | assumption | apply low_ite | apply State.record_low | apply State.setBytes_low | apply State.showLibrary_low | apply State.wr_low) | simp only [low_same] | intro _ | dsimp only | split
@[simp] theorem State.removeDone_low {s0 : State} (s : State) (master : Nat) (hc : Low s0 s) :
    Low s0 (State.removeDone s master) := by
  unfold State.removeDone
  extract_lets z0
  repeat' first | first | omega | ((simp +zetaDelta only [odKey, bankIdx, bankStatusSub, canIdx, dmaObj, instBase, launchIdx, coreIdx, dmaIdx, logBase, trigIdx] <;> (try split)) <;> omega) | (with_reducible first | assumption | apply low_ite | apply State.dropSubs_low | apply State.record_low | apply State.showLibrary_low | apply State.wr_low) | simp only [low_same] | intro _ | dsimp only | split
@[simp] theorem State.loadFailed_low {s0 : State} (s : State) (e st : Nat) (hc : Low s0 s) :
    Low s0 (State.loadFailed s e st) := by
  unfold State.loadFailed
  repeat' first | first | omega | ((simp +zetaDelta only [odKey, bankIdx, bankStatusSub, canIdx, dmaObj, instBase, launchIdx, coreIdx, dmaIdx, logBase, trigIdx] <;> (try split)) <;> omega) | (with_reducible first | assumption | apply State.event_low | apply State.record_low | apply State.setCoreState_low | apply State.wr_low) | dsimp only
@[simp] theorem State.loadGood_low {s0 : State} (s : State) (e d : Nat) (hc : Low s0 s) :
    Low s0 (State.loadGood s e d) := by
  unfold State.loadGood
  extract_lets z0 z1 z2 z3 z4 z5 z6 z7 z8
  have h4 : Low s0 z4 := by repeat' first | first | omega | ((simp +zetaDelta only [odKey, bankIdx, bankStatusSub, canIdx, dmaObj, instBase, launchIdx, coreIdx, dmaIdx, logBase, trigIdx] <;> (try split)) <;> omega) | (with_reducible first | assumption | apply State.setBytes_low | apply State.zeroRange_low) | dsimp only
  try clear_value z4
  have h6 : Low s0 z6 := by simp only [z6]; repeat' first | first | omega | ((simp +zetaDelta only [odKey, bankIdx, bankStatusSub, canIdx, dmaObj, instBase, launchIdx, coreIdx, dmaIdx, logBase, trigIdx] <;> (try split)) <;> omega) | (with_reducible first | assumption | apply low_ite | apply State.event_low | apply State.setBytes_low | apply State.setCoreState_low | apply State.setEngine_low | apply State.setPc_low | apply State.wr_low | apply State.zeroRange_low) | simp only [low_same] | dsimp only
  try clear_value z6
  have h7 : Low s0 z7 := by repeat' first | first | omega | ((simp +zetaDelta only [odKey, bankIdx, bankStatusSub, canIdx, dmaObj, instBase, launchIdx, coreIdx, dmaIdx, logBase, trigIdx] <;> (try split)) <;> omega) | (with_reducible first | assumption | apply low_ite | apply State.event_low | apply State.setBytes_low | apply State.setCoreState_low | apply State.setEngine_low | apply State.setPc_low | apply State.wr_low | apply State.zeroRange_low) | simp only [low_same] | dsimp only
  try clear_value z7
  repeat' first | first | omega | ((simp +zetaDelta only [odKey, bankIdx, bankStatusSub, canIdx, dmaObj, instBase, launchIdx, coreIdx, dmaIdx, logBase, trigIdx] <;> (try split)) <;> omega) | (with_reducible first | assumption | apply low_ite | apply State.event_low | apply State.setBytes_low | apply State.setCoreState_low | apply State.setEngine_low | apply State.setPc_low | apply State.wr_low | apply State.zeroRange_low) | simp only [low_same] | dsimp only
@[simp] theorem State.loadDone_low {s0 : State} (s : State) (e : Nat) (signed digestOk : Bool) (hc : Low s0 s) :
    Low s0 (State.loadDone s e signed digestOk) := by
  unfold State.loadDone
  repeat' first | first | omega | ((simp +zetaDelta only [odKey, bankIdx, bankStatusSub, canIdx, dmaObj, instBase, launchIdx, coreIdx, dmaIdx, logBase, trigIdx] <;> (try split)) <;> omega) | (with_reducible first | assumption | apply low_ite | apply State.loadFailed_low | apply State.loadGood_low | apply State.wr_low) | simp only [low_same] | dsimp only | split
@[simp] theorem State.dbeRestart_low {s0 : State} (s : State) (f : Nat) (hc : Low s0 s) :
    Low s0 (State.dbeRestart s f) := by
  unfold State.dbeRestart
  extract_lets z0 z1 z2
  have h2 : Low s0 z2 := by repeat' first | first | omega | ((simp +zetaDelta only [odKey, bankIdx, bankStatusSub, canIdx, dmaObj, instBase, launchIdx, coreIdx, dmaIdx, logBase, trigIdx] <;> (try split)) <;> omega) | (with_reducible first | assumption | (apply low_foldl; intro _ _ _) | apply State.wrD_low) | intro _ | dsimp only
  try clear_value z2
  repeat' first | first | omega | ((simp +zetaDelta only [odKey, bankIdx, bankStatusSub, canIdx, dmaObj, instBase, launchIdx, coreIdx, dmaIdx, logBase, trigIdx] <;> (try split)) <;> omega) | (with_reducible first | assumption | apply low_ite | (apply low_foldl; intro _ _ _) | apply State.setCoreState_low | apply State.setEngine_low) | simp only [low_same] | intro _ | dsimp only
@[simp] theorem State.dropVolatile_low {s0 : State} (s : State) (lo hi : Nat) (hk : hi < 0x2001 ∨ 0x2005 ≤ lo) (hc : Low s0 s) :
    Low s0 (State.dropVolatile s lo hi) := by
  refine ⟨fun k h1 h2 => ?_⟩
  rw [← hc.same k h1 h2]
  show tblGet odDefault k (tblKeep _ s.od) = _
  rw [tblGet_keep, if_pos]
  simp; omega
@[simp] theorem State.portReset_low {s0 : State} (s : State) (p : Nat) (hc : Low s0 s) :
    Low s0 (State.portReset s p) := by
  unfold State.portReset
  extract_lets z0 z1 z2
  have h0 : Low s0 z0 := by repeat' first | first | omega | ((simp +zetaDelta only [odKey, bankIdx, bankStatusSub, canIdx, dmaObj, instBase, launchIdx, coreIdx, dmaIdx, logBase, trigIdx] <;> (try split)) <;> omega) | (with_reducible first | assumption | apply State.flushStation_low | apply State.linkDown_low) | dsimp only
  try clear_value z0
  have h1 : Low s0 z1 := by repeat' first | first | omega | ((simp +zetaDelta only [odKey, bankIdx, bankStatusSub, canIdx, dmaObj, instBase, launchIdx, coreIdx, dmaIdx, logBase, trigIdx] <;> (try split)) <;> omega) | (with_reducible first | assumption | apply low_ite | (apply low_foldl; intro _ _ _) | apply State.wr_low) | intro _ | dsimp only
  try clear_value z1
  have h2 : Low s0 z2 := by repeat' first | first | omega | ((simp +zetaDelta only [odKey, bankIdx, bankStatusSub, canIdx, dmaObj, instBase, launchIdx, coreIdx, dmaIdx, logBase, trigIdx] <;> (try split)) <;> omega) | (with_reducible first | assumption | apply State.dropVolatile_low | apply State.route_low) | dsimp only
  try clear_value z2
  repeat' first | first | omega | ((simp +zetaDelta only [odKey, bankIdx, bankStatusSub, canIdx, dmaObj, instBase, launchIdx, coreIdx, dmaIdx, logBase, trigIdx] <;> (try split)) <;> omega) | (with_reducible first | assumption | apply State.applyLinkCfg_low | apply State.applyRxCfg_low | apply State.applyTxCfg_low | apply State.chordsFollow_low | apply State.setPort_low) | dsimp only
@[simp] theorem State.pioReset_low {s0 : State} (s : State) (b : Nat) (hc : Low s0 s) :
    Low s0 (State.pioReset s b) := by
  unfold State.pioReset
  extract_lets z0 z1 z2 z3 z4
  have h0 : Low s0 z0 := by repeat' first | first | omega | ((simp +zetaDelta only [odKey, bankIdx, bankStatusSub, canIdx, dmaObj, instBase, launchIdx, coreIdx, dmaIdx, logBase, trigIdx] <;> (try split)) <;> omega) | (with_reducible first | assumption | apply low_ite | (apply low_foldl; intro _ _ _) | apply State.dmaStop_low) | intro _ | dsimp only
  try clear_value z0
  have h2 : Low s0 z2 := by repeat' first | first | omega | ((simp +zetaDelta only [odKey, bankIdx, bankStatusSub, canIdx, dmaObj, instBase, launchIdx, coreIdx, dmaIdx, logBase, trigIdx] <;> (try split)) <;> omega) | (with_reducible first | assumption | apply State.dropVolatile_low) | dsimp only
  try clear_value z2
  have h3 : Low s0 z3 := by repeat' first | first | omega | ((simp +zetaDelta only [odKey, bankIdx, bankStatusSub, canIdx, dmaObj, instBase, launchIdx, coreIdx, dmaIdx, logBase, trigIdx] <;> (try split)) <;> omega) | (with_reducible first | assumption | apply State.dropVolatile_low) | dsimp only
  try clear_value z3
  have h4 : Low s0 z4 := by simp only [z4]; repeat' first | first | omega | ((simp +zetaDelta only [odKey, bankIdx, bankStatusSub, canIdx, dmaObj, instBase, launchIdx, coreIdx, dmaIdx, logBase, trigIdx] <;> (try split)) <;> omega) | (with_reducible first | assumption) | simp only [low_same] | dsimp only
  try clear_value z4
  repeat' first | first | omega | ((simp +zetaDelta only [odKey, bankIdx, bankStatusSub, canIdx, dmaObj, instBase, launchIdx, coreIdx, dmaIdx, logBase, trigIdx] <;> (try split)) <;> omega) | (with_reducible first | assumption | apply State.pioShow_low | apply State.route_low | apply State.setPio_low) | dsimp only
@[simp] theorem State.locusReset_low {s0 : State} (s : State) (hc : Low s0 s) :
    Low s0 (State.locusReset s) := by
  unfold State.locusReset
  extract_lets z0
  have h0 : Low s0 z0 := by repeat' first | first | omega | ((simp +zetaDelta only [odKey, bankIdx, bankStatusSub, canIdx, dmaObj, instBase, launchIdx, coreIdx, dmaIdx, logBase, trigIdx] <;> (try split)) <;> omega) | (with_reducible first | assumption | apply State.dropVolatile_low) | dsimp only
  try clear_value z0
  repeat' first | first | omega | ((simp +zetaDelta only [odKey, bankIdx, bankStatusSub, canIdx, dmaObj, instBase, launchIdx, coreIdx, dmaIdx, logBase, trigIdx] <;> (try split)) <;> omega) | (with_reducible first | assumption | apply State.route_low) | simp only [low_same] | dsimp only
@[simp] theorem State.switchReset_low {s0 : State} (s : State) (hc : Low s0 s) :
    Low s0 (State.switchReset s) := by
  unfold State.switchReset
  extract_lets z0 z1 z2
  have h0 : Low s0 z0 := by repeat' first | first | omega | ((simp +zetaDelta only [odKey, bankIdx, bankStatusSub, canIdx, dmaObj, instBase, launchIdx, coreIdx, dmaIdx, logBase, trigIdx] <;> (try split)) <;> omega) | (with_reducible first | assumption | apply State.dropVolatile_low) | dsimp only
  try clear_value z0
  have h1 : Low s0 z1 := by repeat' first | first | omega | ((simp +zetaDelta only [odKey, bankIdx, bankStatusSub, canIdx, dmaObj, instBase, launchIdx, coreIdx, dmaIdx, logBase, trigIdx] <;> (try split)) <;> omega) | (with_reducible first | assumption | apply State.switchClear_low) | dsimp only
  try clear_value z1
  have h2 : Low s0 z2 := by repeat' first | first | omega | ((simp +zetaDelta only [odKey, bankIdx, bankStatusSub, canIdx, dmaObj, instBase, launchIdx, coreIdx, dmaIdx, logBase, trigIdx] <;> (try split)) <;> omega) | (with_reducible first | assumption | apply State.setSw_low) | simp only [low_same] | intro _ | dsimp only
  try clear_value z2
  repeat' first | first | omega | ((simp +zetaDelta only [odKey, bankIdx, bankStatusSub, canIdx, dmaObj, instBase, launchIdx, coreIdx, dmaIdx, logBase, trigIdx] <;> (try split)) <;> omega) | (with_reducible first | assumption | apply low_ite | (apply low_foldl; intro _ _ _) | apply State.route_low) | intro _ | dsimp only
@[simp] theorem State.domainReset_low {s0 : State} (s : State) (d : Nat) (hc : Low s0 s) :
    Low s0 (State.domainReset s d) := by
  unfold State.domainReset
  extract_lets z0 z1 z2 z3 z4 z5 z6
  have h2 : Low s0 z2 := by repeat' first | first | omega | ((simp +zetaDelta only [odKey, bankIdx, bankStatusSub, canIdx, dmaObj, instBase, launchIdx, coreIdx, dmaIdx, logBase, trigIdx] <;> (try split)) <;> omega) | (with_reducible first | assumption | apply State.dropVolatile_low) | dsimp only
  try clear_value z2
  have h3 : Low s0 z3 := by repeat' first | first | omega | ((simp +zetaDelta only [odKey, bankIdx, bankStatusSub, canIdx, dmaObj, instBase, launchIdx, coreIdx, dmaIdx, logBase, trigIdx] <;> (try split)) <;> omega) | (with_reducible first | assumption | apply State.dropSubs_low | apply State.setDomVal_low | apply State.wr_low) | dsimp only
  try clear_value z3
  have h4 : Low s0 z4 := by repeat' first | first | omega | ((simp +zetaDelta only [odKey, bankIdx, bankStatusSub, canIdx, dmaObj, instBase, launchIdx, coreIdx, dmaIdx, logBase, trigIdx] <;> (try split)) <;> omega) | (with_reducible first | assumption | apply State.dropVolatile_low | apply State.setTdom_low) | dsimp only
  try clear_value z4
  have h5 : Low s0 z5 := by repeat' first | first | omega | ((simp +zetaDelta only [odKey, bankIdx, bankStatusSub, canIdx, dmaObj, instBase, launchIdx, coreIdx, dmaIdx, logBase, trigIdx] <;> (try split)) <;> omega) | (with_reducible first | assumption | apply low_ite | (apply low_foldl; intro _ _ _) | apply State.clrBits_low | apply State.dropSubs_low | apply State.ppsRest_low) | intro _ | dsimp only
  try clear_value z5
  have h6 : Low s0 z6 := by repeat' first | first | omega | ((simp +zetaDelta only [odKey, bankIdx, bankStatusSub, canIdx, dmaObj, instBase, launchIdx, coreIdx, dmaIdx, logBase, trigIdx] <;> (try split)) <;> omega) | (with_reducible first | assumption | apply low_ite | (apply low_foldl; intro _ _ _) | apply State.launchOff_low) | intro _ | dsimp only
  try clear_value z6
  repeat' first | first | omega | ((simp +zetaDelta only [odKey, bankIdx, bankStatusSub, canIdx, dmaObj, instBase, launchIdx, coreIdx, dmaIdx, logBase, trigIdx] <;> (try split)) <;> omega) | (with_reducible first | assumption | apply State.unsync_low) | dsimp only
@[simp] theorem State.beginStart_low {s0 : State} (s : State) (hc : Low s0 s) : Low s0 (State.beginStart s) := by
  unfold State.beginStart; extract_lets z0 z1 z2 z3 z4 z5 z6; (try (first | (have : Low s0 z0 := by (first | ((repeat' (first | first | omega | ((simp +zetaDelta only [odKey, bankIdx, bankStatusSub, canIdx, dmaObj, instBase, launchIdx, coreIdx, dmaIdx, logBase, trigIdx] <;> (try split)) <;> omega) | with_reducible assumption | with_reducible apply low_ite | with_reducible apply low_ite2 | with_reducible apply low_ite3 | with_reducible apply low_ite4 | (with_reducible apply low_foldl; intro _ _ _) | with_reducible apply State.cntS_low | with_reducible apply State.event_low | with_reducible apply State.record_low | with_reducible apply State.unsync_low | simp only [low_same] | intro _ | dsimp only | split)); done) | ((try dsimp only); (repeat' (first | first | omega | ((simp +zetaDelta only [odKey, bankIdx, bankStatusSub, canIdx, dmaObj, instBase, launchIdx, coreIdx, dmaIdx, logBase, trigIdx] <;> (try split)) <;> omega) | with_reducible assumption | with_reducible apply low_ite | with_reducible apply low_ite2 | with_reducible apply low_ite3 | with_reducible apply low_ite4 | (with_reducible apply low_foldl; intro _ _ _) | with_reducible apply State.cntS_low | with_reducible apply State.event_low | with_reducible apply State.record_low | with_reducible apply State.unsync_low | simp only [low_same] | intro _ | dsimp only | split)); done) | (simp only [z0]; (repeat' (first | first | omega | ((simp +zetaDelta only [odKey, bankIdx, bankStatusSub, canIdx, dmaObj, instBase, launchIdx, coreIdx, dmaIdx, logBase, trigIdx] <;> (try split)) <;> omega) | with_reducible assumption | with_reducible apply low_ite | with_reducible apply low_ite2 | with_reducible apply low_ite3 | with_reducible apply low_ite4 | (with_reducible apply low_foldl; intro _ _ _) | with_reducible apply State.cntS_low | with_reducible apply State.event_low | with_reducible apply State.record_low | with_reducible apply State.unsync_low | simp only [low_same] | intro _ | dsimp only | split)); done))) | (have : Low s0 z0.2 := by ((try dsimp only); (repeat' (first | first | omega | ((simp +zetaDelta only [odKey, bankIdx, bankStatusSub, canIdx, dmaObj, instBase, launchIdx, coreIdx, dmaIdx, logBase, trigIdx] <;> (try split)) <;> omega) | with_reducible assumption | with_reducible apply low_ite | with_reducible apply low_ite2 | with_reducible apply low_ite3 | with_reducible apply low_ite4 | (with_reducible apply low_foldl; intro _ _ _) | with_reducible apply State.cntS_low | with_reducible apply State.event_low | with_reducible apply State.record_low | with_reducible apply State.unsync_low | simp only [low_same] | intro _ | dsimp only | split)); done)) | (have : Low s0 z0.2.2 := by ((try dsimp only); (repeat' (first | first | omega | ((simp +zetaDelta only [odKey, bankIdx, bankStatusSub, canIdx, dmaObj, instBase, launchIdx, coreIdx, dmaIdx, logBase, trigIdx] <;> (try split)) <;> omega) | with_reducible assumption | with_reducible apply low_ite | with_reducible apply low_ite2 | with_reducible apply low_ite3 | with_reducible apply low_ite4 | (with_reducible apply low_foldl; intro _ _ _) | with_reducible apply State.cntS_low | with_reducible apply State.event_low | with_reducible apply State.record_low | with_reducible apply State.unsync_low | simp only [low_same] | intro _ | dsimp only | split)); done)))); (try clear_value z0); (try (first | (have : Low s0 z1 := by (first | ((repeat' (first | first | omega | ((simp +zetaDelta only [odKey, bankIdx, bankStatusSub, canIdx, dmaObj, instBase, launchIdx, coreIdx, dmaIdx, logBase, trigIdx] <;> (try split)) <;> omega) | with_reducible assumption | with_reducible apply low_ite | with_reducible apply low_ite2 | with_reducible apply low_ite3 | with_reducible apply low_ite4 | (with_reducible apply low_foldl; intro _ _ _) | with_reducible apply State.cntS_low | with_reducible apply State.event_low | with_reducible apply State.record_low | with_reducible apply State.unsync_low | simp only [low_same] | intro _ | dsimp only | split)); done) | ((try dsimp only); (repeat' (first | first | omega | ((simp +zetaDelta only [odKey, bankIdx, bankStatusSub, canIdx, dmaObj, instBase, launchIdx, coreIdx, dmaIdx, logBase, trigIdx] <;> (try split)) <;> omega) | with_reducible assumption | with_reducible apply low_ite | with_reducible apply low_ite2 | with_reducible apply low_ite3 | with_reducible apply low_ite4 | (with_reducible apply low_foldl; intro _ _ _) | with_reducible apply State.cntS_low | with_reducible apply State.event_low | with_reducible apply State.record_low | with_reducible apply State.unsync_low | simp only [low_same] | intro _ | dsimp only | split)); done) | (simp only [z1]; (repeat' (first | first | omega | ((simp +zetaDelta only [odKey, bankIdx, bankStatusSub, canIdx, dmaObj, instBase, launchIdx, coreIdx, dmaIdx, logBase, trigIdx] <;> (try split)) <;> omega) | with_reducible assumption | with_reducible apply low_ite | with_reducible apply low_ite2 | with_reducible apply low_ite3 | with_reducible apply low_ite4 | (with_reducible apply low_foldl; intro _ _ _) | with_reducible apply State.cntS_low | with_reducible apply State.event_low | with_reducible apply State.record_low | with_reducible apply State.unsync_low | simp only [low_same] | intro _ | dsimp only | split)); done))) | (have : Low s0 z1.2 := by ((try dsimp only); (repeat' (first | first | omega | ((simp +zetaDelta only [odKey, bankIdx, bankStatusSub, canIdx, dmaObj, instBase, launchIdx, coreIdx, dmaIdx, logBase, trigIdx] <;> (try split)) <;> omega) | with_reducible assumption | with_reducible apply low_ite | with_reducible apply low_ite2 | with_reducible apply low_ite3 | with_reducible apply low_ite4 | (with_reducible apply low_foldl; intro _ _ _) | with_reducible apply State.cntS_low | with_reducible apply State.event_low | with_reducible apply State.record_low | with_reducible apply State.unsync_low | simp only [low_same] | intro _ | dsimp only | split)); done)) | (have : Low s0 z1.2.2 := by ((try dsimp only); (repeat' (first | first | omega | ((simp +zetaDelta only [odKey, bankIdx, bankStatusSub, canIdx, dmaObj, instBase, launchIdx, coreIdx, dmaIdx, logBase, trigIdx] <;> (try split)) <;> omega) | with_reducible assumption | with_reducible apply low_ite | with_reducible apply low_ite2 | with_reducible apply low_ite3 | with_reducible apply low_ite4 | (with_reducible apply low_foldl; intro _ _ _) | with_reducible apply State.cntS_low | with_reducible apply State.event_low | with_reducible apply State.record_low | with_reducible apply State.unsync_low | simp only [low_same] | intro _ | dsimp only | split)); done)))); (try clear_value z1); (try (first | (have : Low s0 z2 := by (first | ((repeat' (first | first | omega | ((simp +zetaDelta only [odKey, bankIdx, bankStatusSub, canIdx, dmaObj, instBase, launchIdx, coreIdx, dmaIdx, logBase, trigIdx] <;> (try split)) <;> omega) | with_reducible assumption | with_reducible apply low_ite | with_reducible apply low_ite2 | with_reducible apply low_ite3 | with_reducible apply low_ite4 | (with_reducible apply low_foldl; intro _ _ _) | with_reducible apply State.cntS_low | with_reducible apply State.event_low | with_reducible apply State.record_low | with_reducible apply State.unsync_low | simp only [low_same] | intro _ | dsimp only | split)); done) | ((try dsimp only); (repeat' (first | first | omega | ((simp +zetaDelta only [odKey, bankIdx, bankStatusSub, canIdx, dmaObj, instBase, launchIdx, coreIdx, dmaIdx, logBase, trigIdx] <;> (try split)) <;> omega) | with_reducible assumption | with_reducible apply low_ite | with_reducible apply low_ite2 | with_reducible apply low_ite3 | with_reducible apply low_ite4 | (with_reducible apply low_foldl; intro _ _ _) | with_reducible apply State.cntS_low | with_reducible apply State.event_low | with_reducible apply State.record_low | with_reducible apply State.unsync_low | simp only [low_same] | intro _ | dsimp only | split)); done) | (simp only [z2]; (repeat' (first | first | omega | ((simp +zetaDelta only [odKey, bankIdx, bankStatusSub, canIdx, dmaObj, instBase, launchIdx, coreIdx, dmaIdx, logBase, trigIdx] <;> (try split)) <;> omega) | with_reducible assumption | with_reducible apply low_ite | with_reducible apply low_ite2 | with_reducible apply low_ite3 | with_reducible apply low_ite4 | (with_reducible apply low_foldl; intro _ _ _) | with_reducible apply State.cntS_low | with_reducible apply State.event_low | with_reducible apply State.record_low | with_reducible apply State.unsync_low | simp only [low_same] | intro _ | dsimp only | split)); done))) | (have : Low s0 z2.2 := by ((try dsimp only); (repeat' (first | first | omega | ((simp +zetaDelta only [odKey, bankIdx, bankStatusSub, canIdx, dmaObj, instBase, launchIdx, coreIdx, dmaIdx, logBase, trigIdx] <;> (try split)) <;> omega) | with_reducible assumption | with_reducible apply low_ite | with_reducible apply low_ite2 | with_reducible apply low_ite3 | with_reducible apply low_ite4 | (with_reducible apply low_foldl; intro _ _ _) | with_reducible apply State.cntS_low | with_reducible apply State.event_low | with_reducible apply State.record_low | with_reducible apply State.unsync_low | simp only [low_same] | intro _ | dsimp only | split)); done)) | (have : Low s0 z2.2.2 := by ((try dsimp only); (repeat' (first | first | omega | ((simp +zetaDelta only [odKey, bankIdx, bankStatusSub, canIdx, dmaObj, instBase, launchIdx, coreIdx, dmaIdx, logBase, trigIdx] <;> (try split)) <;> omega) | with_reducible assumption | with_reducible apply low_ite | with_reducible apply low_ite2 | with_reducible apply low_ite3 | with_reducible apply low_ite4 | (with_reducible apply low_foldl; intro _ _ _) | with_reducible apply State.cntS_low | with_reducible apply State.event_low | with_reducible apply State.record_low | with_reducible apply State.unsync_low | simp only [low_same] | intro _ | dsimp only | split)); done)))); (try clear_value z2); (try (first | (have : Low s0 z3 := by (first | ((repeat' (first | first | omega | ((simp +zetaDelta only [odKey, bankIdx, bankStatusSub, canIdx, dmaObj, instBase, launchIdx, coreIdx, dmaIdx, logBase, trigIdx] <;> (try split)) <;> omega) | with_reducible assumption | with_reducible apply low_ite | with_reducible apply low_ite2 | with_reducible apply low_ite3 | with_reducible apply low_ite4 | (with_reducible apply low_foldl; intro _ _ _) | with_reducible apply State.cntS_low | with_reducible apply State.event_low | with_reducible apply State.record_low | with_reducible apply State.unsync_low | simp only [low_same] | intro _ | dsimp only | split)); done) | ((try dsimp only); (repeat' (first | first | omega | ((simp +zetaDelta only [odKey, bankIdx, bankStatusSub, canIdx, dmaObj, instBase, launchIdx, coreIdx, dmaIdx, logBase, trigIdx] <;> (try split)) <;> omega) | with_reducible assumption | with_reducible apply low_ite | with_reducible apply low_ite2 | with_reducible apply low_ite3 | with_reducible apply low_ite4 | (with_reducible apply low_foldl; intro _ _ _) | with_reducible apply State.cntS_low | with_reducible apply State.event_low | with_reducible apply State.record_low | with_reducible apply State.unsync_low | simp only [low_same] | intro _ | dsimp only | split)); done) | (simp only [z3]; (repeat' (first | first | omega | ((simp +zetaDelta only [odKey, bankIdx, bankStatusSub, canIdx, dmaObj, instBase, launchIdx, coreIdx, dmaIdx, logBase, trigIdx] <;> (try split)) <;> omega) | with_reducible assumption | with_reducible apply low_ite | with_reducible apply low_ite2 | with_reducible apply low_ite3 | with_reducible apply low_ite4 | (with_reducible apply low_foldl; intro _ _ _) | with_reducible apply State.cntS_low | with_reducible apply State.event_low | with_reducible apply State.record_low | with_reducible apply State.unsync_low | simp only [low_same] | intro _ | dsimp only | split)); done))) | (have : Low s0 z3.2 := by ((try dsimp only); (repeat' (first | first | omega | ((simp +zetaDelta only [odKey, bankIdx, bankStatusSub, canIdx, dmaObj, instBase, launchIdx, coreIdx, dmaIdx, logBase, trigIdx] <;> (try split)) <;> omega) | with_reducible assumption | with_reducible apply low_ite | with_reducible apply low_ite2 | with_reducible apply low_ite3 | with_reducible apply low_ite4 | (with_reducible apply low_foldl; intro _ _ _) | with_reducible apply State.cntS_low | with_reducible apply State.event_low | with_reducible apply State.record_low | with_reducible apply State.unsync_low | simp only [low_same] | intro _ | dsimp only | split)); done)) | (have : Low s0 z3.2.2 := by ((try dsimp only); (repeat' (first | first | omega | ((simp +zetaDelta only [odKey, bankIdx, bankStatusSub, canIdx, dmaObj, instBase, launchIdx, coreIdx, dmaIdx, logBase, trigIdx] <;> (try split)) <;> omega) | with_reducible assumption | with_reducible apply low_ite | with_reducible apply low_ite2 | with_reducible apply low_ite3 | with_reducible apply low_ite4 | (with_reducible apply low_foldl; intro _ _ _) | with_reducible apply State.cntS_low | with_reducible apply State.event_low | with_reducible apply State.record_low | with_reducible apply State.unsync_low | simp only [low_same] | intro _ | dsimp only | split)); done)))); (try clear_value z3); (try (first | (have : Low s0 z4 := by (first | ((repeat' (first | first | omega | ((simp +zetaDelta only [odKey, bankIdx, bankStatusSub, canIdx, dmaObj, instBase, launchIdx, coreIdx, dmaIdx, logBase, trigIdx] <;> (try split)) <;> omega) | with_reducible assumption | with_reducible apply low_ite | with_reducible apply low_ite2 | with_reducible apply low_ite3 | with_reducible apply low_ite4 | (with_reducible apply low_foldl; intro _ _ _) | with_reducible apply State.cntS_low | with_reducible apply State.event_low | with_reducible apply State.record_low | with_reducible apply State.unsync_low | simp only [low_same] | intro _ | dsimp only | split)); done) | ((try dsimp only); (repeat' (first | first | omega | ((simp +zetaDelta only [odKey, bankIdx, bankStatusSub, canIdx, dmaObj, instBase, launchIdx, coreIdx, dmaIdx, logBase, trigIdx] <;> (try split)) <;> omega) | with_reducible assumption | with_reducible apply low_ite | with_reducible apply low_ite2 | with_reducible apply low_ite3 | with_reducible apply low_ite4 | (with_reducible apply low_foldl; intro _ _ _) | with_reducible apply State.cntS_low | with_reducible apply State.event_low | with_reducible apply State.record_low | with_reducible apply State.unsync_low | simp only [low_same] | intro _ | dsimp only | split)); done) | (simp only [z4]; (repeat' (first | first | omega | ((simp +zetaDelta only [odKey, bankIdx, bankStatusSub, canIdx, dmaObj, instBase, launchIdx, coreIdx, dmaIdx, logBase, trigIdx] <;> (try split)) <;> omega) | with_reducible assumption | with_reducible apply low_ite | with_reducible apply low_ite2 | with_reducible apply low_ite3 | with_reducible apply low_ite4 | (with_reducible apply low_foldl; intro _ _ _) | with_reducible apply State.cntS_low | with_reducible apply State.event_low | with_reducible apply State.record_low | with_reducible apply State.unsync_low | simp only [low_same] | intro _ | dsimp only | split)); done))) | (have : Low s0 z4.2 := by ((try dsimp only); (repeat' (first | first | omega | ((simp +zetaDelta only [odKey, bankIdx, bankStatusSub, canIdx, dmaObj, instBase, launchIdx, coreIdx, dmaIdx, logBase, trigIdx] <;> (try split)) <;> omega) | with_reducible assumption | with_reducible apply low_ite | with_reducible apply low_ite2 | with_reducible apply low_ite3 | with_reducible apply low_ite4 | (with_reducible apply low_foldl; intro _ _ _) | with_reducible apply State.cntS_low | with_reducible apply State.event_low | with_reducible apply State.record_low | with_reducible apply State.unsync_low | simp only [low_same] | intro _ | dsimp only | split)); done)) | (have : Low s0 z4.2.2 := by ((try dsimp only); (repeat' (first | first | omega | ((simp +zetaDelta only [odKey, bankIdx, bankStatusSub, canIdx, dmaObj, instBase, launchIdx, coreIdx, dmaIdx, logBase, trigIdx] <;> (try split)) <;> omega) | with_reducible assumption | with_reducible apply low_ite | with_reducible apply low_ite2 | with_reducible apply low_ite3 | with_reducible apply low_ite4 | (with_reducible apply low_foldl; intro _ _ _) | with_reducible apply State.cntS_low | with_reducible apply State.event_low | with_reducible apply State.record_low | with_reducible apply State.unsync_low | simp only [low_same] | intro _ | dsimp only | split)); done)))); (try clear_value z4); (try (first | (have : Low s0 z5 := by (first | ((repeat' (first | first | omega | ((simp +zetaDelta only [odKey, bankIdx, bankStatusSub, canIdx, dmaObj, instBase, launchIdx, coreIdx, dmaIdx, logBase, trigIdx] <;> (try split)) <;> omega) | with_reducible assumption | with_reducible apply low_ite | with_reducible apply low_ite2 | with_reducible apply low_ite3 | with_reducible apply low_ite4 | (with_reducible apply low_foldl; intro _ _ _) | with_reducible apply State.cntS_low | with_reducible apply State.event_low | with_reducible apply State.record_low | with_reducible apply State.unsync_low | simp only [low_same] | intro _ | dsimp only | split)); done) | ((try dsimp only); (repeat' (first | first | omega | ((simp +zetaDelta only [odKey, bankIdx, bankStatusSub, canIdx, dmaObj, instBase, launchIdx, coreIdx, dmaIdx, logBase, trigIdx] <;> (try split)) <;> omega) | with_reducible assumption | with_reducible apply low_ite | with_reducible apply low_ite2 | with_reducible apply low_ite3 | with_reducible apply low_ite4 | (with_reducible apply low_foldl; intro _ _ _) | with_reducible apply State.cntS_low | with_reducible apply State.event_low | with_reducible apply State.record_low | with_reducible apply State.unsync_low | simp only [low_same] | intro _ | dsimp only | split)); done) | (simp only [z5]; (repeat' (first | first | omega | ((simp +zetaDelta only [odKey, bankIdx, bankStatusSub, canIdx, dmaObj, instBase, launchIdx, coreIdx, dmaIdx, logBase, trigIdx] <;> (try split)) <;> omega) | with_reducible assumption | with_reducible apply low_ite | with_reducible apply low_ite2 | with_reducible apply low_ite3 | with_reducible apply low_ite4 | (with_reducible apply low_foldl; intro _ _ _) | with_reducible apply State.cntS_low | with_reducible apply State.event_low | with_reducible apply State.record_low | with_reducible apply State.unsync_low | simp only [low_same] | intro _ | dsimp only | split)); done))) | (have : Low s0 z5.2 := by ((try dsimp only); (repeat' (first | first | omega | ((simp +zetaDelta only [odKey, bankIdx, bankStatusSub, canIdx, dmaObj, instBase, launchIdx, coreIdx, dmaIdx, logBase, trigIdx] <;> (try split)) <;> omega) | with_reducible assumption | with_reducible apply low_ite | with_reducible apply low_ite2 | with_reducible apply low_ite3 | with_reducible apply low_ite4 | (with_reducible apply low_foldl; intro _ _ _) | with_reducible apply State.cntS_low | with_reducible apply State.event_low | with_reducible apply State.record_low | with_reducible apply State.unsync_low | simp only [low_same] | intro _ | dsimp only | split)); done)) | (have : Low s0 z5.2.2 := by ((try dsimp only); (repeat' (first | first | omega | ((simp +zetaDelta only [odKey, bankIdx, bankStatusSub, canIdx, dmaObj, instBase, launchIdx, coreIdx, dmaIdx, logBase, trigIdx] <;> (try split)) <;> omega) | with_reducible assumption | with_reducible apply low_ite | with_reducible apply low_ite2 | with_reducible apply low_ite3 | with_reducible apply low_ite4 | (with_reducible apply low_foldl; intro _ _ _) | with_reducible apply State.cntS_low | with_reducible apply State.event_low | with_reducible apply State.record_low | with_reducible apply State.unsync_low | simp only [low_same] | intro _ | dsimp only | split)); done)))); (try clear_value z5); (try (first | (have : Low s0 z6 := by (first | ((repeat' (first | first | omega | ((simp +zetaDelta only [odKey, bankIdx, bankStatusSub, canIdx, dmaObj, instBase, launchIdx, coreIdx, dmaIdx, logBase, trigIdx] <;> (try split)) <;> omega) | with_reducible assumption | with_reducible apply low_ite | with_reducible apply low_ite2 | with_reducible apply low_ite3 | with_reducible apply low_ite4 | (with_reducible apply low_foldl; intro _ _ _) | with_reducible apply State.cntS_low | with_reducible apply State.event_low | with_reducible apply State.record_low | with_reducible apply State.unsync_low | simp only [low_same] | intro _ | dsimp only | split)); done) | ((try dsimp only); (repeat' (first | first | omega | ((simp +zetaDelta only [odKey, bankIdx, bankStatusSub, canIdx, dmaObj, instBase, launchIdx, coreIdx, dmaIdx, logBase, trigIdx] <;> (try split)) <;> omega) | with_reducible assumption | with_reducible apply low_ite | with_reducible apply low_ite2 | with_reducible apply low_ite3 | with_reducible apply low_ite4 | (with_reducible apply low_foldl; intro _ _ _) | with_reducible apply State.cntS_low | with_reducible apply State.event_low | with_reducible apply State.record_low | with_reducible apply State.unsync_low | simp only [low_same] | intro _ | dsimp only | split)); done) | (simp only [z6]; (repeat' (first | first | omega | ((simp +zetaDelta only [odKey, bankIdx, bankStatusSub, canIdx, dmaObj, instBase, launchIdx, coreIdx, dmaIdx, logBase, trigIdx] <;> (try split)) <;> omega) | with_reducible assumption | with_reducible apply low_ite | with_reducible apply low_ite2 | with_reducible apply low_ite3 | with_reducible apply low_ite4 | (with_reducible apply low_foldl; intro _ _ _) | with_reducible apply State.cntS_low | with_reducible apply State.event_low | with_reducible apply State.record_low | with_reducible apply State.unsync_low | simp only [low_same] | intro _ | dsimp only | split)); done))) | (have : Low s0 z6.2 := by ((try dsimp only); (repeat' (first | first | omega | ((simp +zetaDelta only [odKey, bankIdx, bankStatusSub, canIdx, dmaObj, instBase, launchIdx, coreIdx, dmaIdx, logBase, trigIdx] <;> (try split)) <;> omega) | with_reducible assumption | with_reducible apply low_ite | with_reducible apply low_ite2 | with_reducible apply low_ite3 | with_reducible apply low_ite4 | (with_reducible apply low_foldl; intro _ _ _) | with_reducible apply State.cntS_low | with_reducible apply State.event_low | with_reducible apply State.record_low | with_reducible apply State.unsync_low | simp only [low_same] | intro _ | dsimp only | split)); done)) | (have : Low s0 z6.2.2 := by ((try dsimp only); (repeat' (first | first | omega | ((simp +zetaDelta only [odKey, bankIdx, bankStatusSub, canIdx, dmaObj, instBase, launchIdx, coreIdx, dmaIdx, logBase, trigIdx] <;> (try split)) <;> omega) | with_reducible assumption | with_reducible apply low_ite | with_reducible apply low_ite2 | with_reducible apply low_ite3 | with_reducible apply low_ite4 | (with_reducible apply low_foldl; intro _ _ _) | with_reducible apply State.cntS_low | with_reducible apply State.event_low | with_reducible apply State.record_low | with_reducible apply State.unsync_low | simp only [low_same] | intro _ | dsimp only | split)); done)))); (try clear_value z6); (try dsimp only); (repeat' (first | first | omega | ((simp +zetaDelta only [odKey, bankIdx, bankStatusSub, canIdx, dmaObj, instBase, launchIdx, coreIdx, dmaIdx, logBase, trigIdx] <;> (try split)) <;> omega) | with_reducible assumption | with_reducible apply low_ite | with_reducible apply low_ite2 | with_reducible apply low_ite3 | with_reducible apply low_ite4 | (with_reducible apply low_foldl; intro _ _ _) | with_reducible apply State.cntS_low | with_reducible apply State.event_low | with_reducible apply State.record_low | with_reducible apply State.unsync_low | simp only [low_same] | intro _ | dsimp only | split))
@[simp] theorem State.tryStart_low {s0 : State} (s : State) (hc : Low s0 s) :
    Low s0 (State.tryStart s) := by
  unfold State.tryStart
  repeat' first | first | omega | ((simp +zetaDelta only [odKey, bankIdx, bankStatusSub, canIdx, dmaObj, instBase, launchIdx, coreIdx, dmaIdx, logBase, trigIdx] <;> (try split)) <;> omega) | (with_reducible first | assumption | apply low_ite | apply State.beginStart_low) | dsimp only
@[simp] theorem State.sleepRefused_low {s0 : State} (s : State) (hc : Low s0 s) :
    Low s0 (State.sleepRefused s) := by
  unfold State.sleepRefused
  repeat' first | first | omega | ((simp +zetaDelta only [odKey, bankIdx, bankStatusSub, canIdx, dmaObj, instBase, launchIdx, coreIdx, dmaIdx, logBase, trigIdx] <;> (try split)) <;> omega) | (with_reducible first | assumption | apply State.cnt_low | apply State.event_low) | dsimp only
@[simp] theorem State.bankDoze_low {s0 : State} (s : State) (b : Nat) (hc : Low s0 s) :
    Low s0 (State.bankDoze s b) := by
  unfold State.bankDoze
  extract_lets z0
  repeat' first | first | omega | ((simp +zetaDelta only [odKey, bankIdx, bankStatusSub, canIdx, dmaObj, instBase, launchIdx, coreIdx, dmaIdx, logBase, trigIdx] <;> (try split)) <;> omega) | (with_reducible first | assumption | apply low_ite | apply State.bankGo_low | apply State.bankRetain_low) | dsimp only
@[simp] theorem State.dozeReached_low {s0 : State} (s : State) (hc : Low s0 s) :
    Low s0 (State.dozeReached s) := by
  unfold State.dozeReached
  extract_lets z0
  repeat' first | first | omega | ((simp +zetaDelta only [odKey, bankIdx, bankStatusSub, canIdx, dmaObj, instBase, launchIdx, coreIdx, dmaIdx, logBase, trigIdx] <;> (try split)) <;> omega) | (with_reducible first | assumption | apply low_ite) | simp only [low_same] | dsimp only
@[simp] theorem State.setSession_low {s0 : State} (s : State) (c : Nat) (x : Session) (hc : Low s0 s) :
    Low s0 (State.setSession s c x) := by
  unfold State.setSession
  repeat' first | first | omega | ((simp +zetaDelta only [odKey, bankIdx, bankStatusSub, canIdx, dmaObj, instBase, launchIdx, coreIdx, dmaIdx, logBase, trigIdx] <;> (try split)) <;> omega) | (with_reducible first | assumption) | simp only [low_same] | intro _ | dsimp only
@[simp] theorem State.sessionClose_low {s0 : State} (s : State) (c reason : Nat) (hc : Low s0 s) :
    Low s0 (State.sessionClose s c reason) := by
  unfold State.sessionClose
  extract_lets z0 z1 z2
  have h2 : Low s0 z2 := by repeat' first | first | omega | ((simp +zetaDelta only [odKey, bankIdx, bankStatusSub, canIdx, dmaObj, instBase, launchIdx, coreIdx, dmaIdx, logBase, trigIdx] <;> (try split)) <;> omega) | (with_reducible first | assumption | apply State.setSession_low | apply State.wr_low) | dsimp only
  try clear_value z2
  repeat' first | first | omega | ((simp +zetaDelta only [odKey, bankIdx, bankStatusSub, canIdx, dmaObj, instBase, launchIdx, coreIdx, dmaIdx, logBase, trigIdx] <;> (try split)) <;> omega) | (with_reducible first | assumption | apply low_ite | apply State.event_low | apply State.record_low) | dsimp only
@[simp] theorem State.sessionsEnd_low {s0 : State} (s : State) (path : Nat) (hc : Low s0 s) :
    Low s0 (State.sessionsEnd s path) := by
  unfold State.sessionsEnd
  repeat' first | first | omega | ((simp +zetaDelta only [odKey, bankIdx, bankStatusSub, canIdx, dmaObj, instBase, launchIdx, coreIdx, dmaIdx, logBase, trigIdx] <;> (try split)) <;> omega) | (with_reducible first | assumption | apply low_ite | (apply low_foldl; intro _ _ _) | apply State.sessionClose_low) | intro _ | dsimp only
@[simp] theorem State.setDmaCh_low {s0 : State} (s : State) (k : Nat) (x : DmaCh) (hc : Low s0 s) :
    Low s0 (State.setDmaCh s k x) := by
  unfold State.setDmaCh
  repeat' first | first | omega | ((simp +zetaDelta only [odKey, bankIdx, bankStatusSub, canIdx, dmaObj, instBase, launchIdx, coreIdx, dmaIdx, logBase, trigIdx] <;> (try split)) <;> omega) | (with_reducible first | assumption) | simp only [low_same] | intro _ | dsimp only
@[simp] theorem State.dmaBack_low {s0 : State} (s : State) (k result moved : Nat) (hc : Low s0 s) :
    Low s0 (State.dmaBack s k result moved) := by
  unfold State.dmaBack
  extract_lets z0 z1 z2 z3 z4
  have h2 : Low s0 z2 := by repeat' first | first | omega | ((simp +zetaDelta only [odKey, bankIdx, bankStatusSub, canIdx, dmaObj, instBase, launchIdx, coreIdx, dmaIdx, logBase, trigIdx] <;> (try split)) <;> omega) | (with_reducible first | assumption | apply State.memWrite_low) | dsimp only
  try clear_value z2
  have h3 : Low s0 z3 := by repeat' first | first | omega | ((simp +zetaDelta only [odKey, bankIdx, bankStatusSub, canIdx, dmaObj, instBase, launchIdx, coreIdx, dmaIdx, logBase, trigIdx] <;> (try split)) <;> omega) | (with_reducible first | assumption | apply State.addW_low | apply State.cnt_low | apply State.wr_low) | dsimp only
  try clear_value z3
  repeat' first | first | omega | ((simp +zetaDelta only [odKey, bankIdx, bankStatusSub, canIdx, dmaObj, instBase, launchIdx, coreIdx, dmaIdx, logBase, trigIdx] <;> (try split)) <;> omega) | (with_reducible first | assumption | apply low_ite | apply State.addW_low | apply State.cnt_low | apply State.event_low | apply State.memWrite_low | apply State.setDmaCh_low | apply State.wr_low) | simp only [low_same] | dsimp only
@[simp] theorem State.dmaFlush_low {s0 : State} (s : State) (k : Nat) (x0 : Nat) (hc : Low s0 s) :
    Low s0 (State.dmaFlush s k x0) := by
  induction x0 generalizing s k <;> first | (simp_all [State.dmaFlush]; done) | (unfold State.dmaFlush; (repeat' split) <;> simp_all)
@[simp] theorem State.dmaPut_low {s0 : State} (s : State) (a : Nat) (d : List Byte) (hc : Low s0 s) :
    Low s0 (State.dmaPut s a d) := by
  unfold State.dmaPut
  repeat' first | first | omega | ((simp +zetaDelta only [odKey, bankIdx, bankStatusSub, canIdx, dmaObj, instBase, launchIdx, coreIdx, dmaIdx, logBase, trigIdx] <;> (try split)) <;> omega) | (with_reducible first | assumption | (apply low_foldl; intro _ _ _) | apply State.drop_low | apply State.memWrite_low) | intro _ | dsimp only
@[simp] theorem State.dmaFail_low {s0 : State} (s : State) (k result moved : Nat) (hc : Low s0 s) :
    Low s0 (State.dmaFail s k result moved) := by
  unfold State.dmaFail
  repeat' first | first | omega | ((simp +zetaDelta only [odKey, bankIdx, bankStatusSub, canIdx, dmaObj, instBase, launchIdx, coreIdx, dmaIdx, logBase, trigIdx] <;> (try split)) <;> omega) | (with_reducible first | assumption | apply State.cnt_low | apply State.dmaBack_low | apply State.dmaFlush_low | apply State.event_low) | dsimp only
@[simp] theorem State.dmaAbort_low {s0 : State} (s : State) (k : Nat) (late : Bool) (hc : Low s0 s) :
    Low s0 (State.dmaAbort s k late) := by
  unfold State.dmaAbort
  repeat' first | first | omega | ((simp +zetaDelta only [odKey, bankIdx, bankStatusSub, canIdx, dmaObj, instBase, launchIdx, coreIdx, dmaIdx, logBase, trigIdx] <;> (try split)) <;> omega) | (with_reducible first | assumption | apply low_ite | apply State.dmaFlush_low | apply State.setDmaCh_low | apply State.wr_low) | simp only [low_same] | dsimp only
@[simp] theorem State.pcieReset_low {s0 : State} (s : State) (hc : Low s0 s) :
    Low s0 (State.pcieReset s) := by
  unfold State.pcieReset
  extract_lets z0 z1 z2 z3
  have h0 : Low s0 z0 := by repeat' first | first | omega | ((simp +zetaDelta only [odKey, bankIdx, bankStatusSub, canIdx, dmaObj, instBase, launchIdx, coreIdx, dmaIdx, logBase, trigIdx] <;> (try split)) <;> omega) | (with_reducible first | assumption | apply State.clrBits_low) | dsimp only
  try clear_value z0
  have h2 : Low s0 z2 := by simp only [z2]; repeat' first | first | omega | ((simp +zetaDelta only [odKey, bankIdx, bankStatusSub, canIdx, dmaObj, instBase, launchIdx, coreIdx, dmaIdx, logBase, trigIdx] <;> (try split)) <;> omega) | (with_reducible first | assumption | (apply low_foldl; intro _ _ _) | apply State.clrBits_low | apply State.cnt_low | apply State.dmaAbort_low | apply State.event_low | apply State.masterReset_low | apply State.pathReset_low | apply State.sessionsEnd_low | apply State.setDmaCh_low) | simp only [low_same] | intro _ | dsimp only
  try clear_value z2
  have h3 : Low s0 z3 := by repeat' first | first | omega | ((simp +zetaDelta only [odKey, bankIdx, bankStatusSub, canIdx, dmaObj, instBase, launchIdx, coreIdx, dmaIdx, logBase, trigIdx] <;> (try split)) <;> omega) | (with_reducible first | assumption | (apply low_foldl; intro _ _ _) | apply State.clrBits_low | apply State.cnt_low | apply State.dmaAbort_low | apply State.event_low | apply State.masterReset_low | apply State.pathReset_low | apply State.sessionsEnd_low | apply State.setDmaCh_low) | simp only [low_same] | intro _ | dsimp only
  try clear_value z3
  repeat' first | first | omega | ((simp +zetaDelta only [odKey, bankIdx, bankStatusSub, canIdx, dmaObj, instBase, launchIdx, coreIdx, dmaIdx, logBase, trigIdx] <;> (try split)) <;> omega) | (with_reducible first | assumption | (apply low_foldl; intro _ _ _) | apply State.clrBits_low | apply State.cnt_low | apply State.dmaAbort_low | apply State.event_low | apply State.masterReset_low | apply State.pathReset_low | apply State.sessionsEnd_low | apply State.setDmaCh_low) | simp only [low_same] | intro _ | dsimp only
@[simp] theorem State.pcieDown_low {s0 : State} (s : State) (hc : Low s0 s) :
    Low s0 (State.pcieDown s) := by
  unfold State.pcieDown
  repeat' first | first | omega | ((simp +zetaDelta only [odKey, bankIdx, bankStatusSub, canIdx, dmaObj, instBase, launchIdx, coreIdx, dmaIdx, logBase, trigIdx] <;> (try split)) <;> omega) | (with_reducible first | assumption | apply low_ite | apply State.event_low | apply State.wr_low) | dsimp only
@[simp] theorem State.qspiReset_low {s0 : State} (s : State) (hc : Low s0 s) : Low s0 (State.qspiReset s) := by
  unfold State.qspiReset; (repeat' (first | first | omega | ((simp +zetaDelta only [odKey, bankIdx, bankStatusSub, canIdx, dmaObj, instBase, launchIdx, coreIdx, dmaIdx, logBase, trigIdx] <;> (try split)) <;> omega) | with_reducible assumption | with_reducible apply State.event_low | with_reducible apply State.masterReset_low | with_reducible apply State.pathReset_low | with_reducible apply State.sessionsEnd_low | simp only [low_same] | intro _ | dsimp only))
theorem State.effHost_low {s0 : State} (s : State) (p : Path) (i j v : Nat) {t1} (h : State.effHost s p i j v = some t1) (hc : Low s0 s) :
    Low s0 t1 := by
  simp only [State.effHost] at h
  repeat' split at h
  all_goals first | (simp only [Option.some.injEq, reduceCtorEq] at h; done) | (simp only [Option.some.injEq] at h; subst h)
  all_goals (repeat' first | first | omega | ((simp +zetaDelta only [odKey, bankIdx, bankStatusSub, canIdx, dmaObj, instBase, launchIdx, coreIdx, dmaIdx, logBase, trigIdx] <;> (try split)) <;> omega) | (with_reducible first | assumption | apply low_ite | apply State.dmaAbort_low | apply State.record_low | apply State.wr_low) | simp only [low_same] | intro _ | dsimp only | split)

@[simp] theorem State.refuse_low {s0 : State} (s : State) (n cause : Nat) (hc : Low s0 s) :
    Low s0 (State.refuse s n cause) := by
  unfold State.refuse
  repeat' first | first | omega | ((simp +zetaDelta only [odKey, bankIdx, bankStatusSub, canIdx, dmaObj, instBase, launchIdx, coreIdx, dmaIdx, logBase, trigIdx] <;> (try split)) <;> omega) | (with_reducible first | assumption | apply State.wr_low) | dsimp only
@[simp] theorem State.beginInst_low {s0 : State} (s : State) (n : Nat) (f : ImageForm) (at' : Nat) (hc : Low s0 s) : Low s0 (State.beginInst s n f at') := by
  unfold State.beginInst; (repeat' (first | first | omega | ((simp +zetaDelta only [odKey, bankIdx, bankStatusSub, canIdx, dmaObj, instBase, launchIdx, coreIdx, dmaIdx, logBase, trigIdx] <;> (try split)) <;> omega) | with_reducible assumption | with_reducible apply low_ite | with_reducible apply low_ite2 | with_reducible apply low_ite3 | with_reducible apply low_ite4 | (with_reducible apply low_foldl; intro _ _ _) | with_reducible apply State.doLoad_low | with_reducible apply State.setInst_low | with_reducible apply State.wr_low | with_reducible apply State.zeroRange_low | simp only [low_same] | intro _ | dsimp only))
@[simp] theorem State.instStart_low {s0 : State} (s : State) (n : Nat) (hc : Low s0 s) :
    Low s0 (State.instStart s n) := by
  unfold State.instStart
  repeat' first | first | omega | ((simp +zetaDelta only [odKey, bankIdx, bankStatusSub, canIdx, dmaObj, instBase, launchIdx, coreIdx, dmaIdx, logBase, trigIdx] <;> (try split)) <;> omega) | (with_reducible first | assumption | apply low_ite | apply State.beginInst_low | apply State.refuse_low) | simp only [low_same] | dsimp only | split
@[simp] theorem State.objPut_low {s0 : State} (s : State) (o : InstObj) (v : Nat) (hc : Low s0 s) :
    Low s0 (State.objPut s o v) := by
  unfold State.objPut
  repeat' first | first | omega | ((simp +zetaDelta only [odKey, bankIdx, bankStatusSub, canIdx, dmaObj, instBase, launchIdx, coreIdx, dmaIdx, logBase, trigIdx] <;> (try split)) <;> omega) | (with_reducible first | assumption | apply low_ite | apply State.setBytes_low) | dsimp only
@[simp] theorem State.createObjs_low {s0 : State} (s : State) (n : Nat) (l : List InstObj) (hc : Low s0 s) :
    Low s0 (State.createObjs s n l) := by
  unfold State.createObjs
  extract_lets z0
  repeat' first | first | omega | ((simp +zetaDelta only [odKey, bankIdx, bankStatusSub, canIdx, dmaObj, instBase, launchIdx, coreIdx, dmaIdx, logBase, trigIdx] <;> (try split)) <;> omega) | (with_reducible first | assumption | (apply low_foldl; intro _ _ _) | apply State.objPut_low | apply State.setInst_low) | simp only [low_same] | intro _ | dsimp only | split
@[simp] theorem State.instPorts_low {s0 : State} (s : State) (n : Nat) (hc : Low s0 s) : Low s0 (s.instPorts n) := by
  unfold State.instPorts
  split
  · exact hc
  · refine low_foldl (fun s p hs => ?_) hc
    split
    · cases h : s.effPort (0x2300 + p) 0x14 _ with
      | none => exact hs
      | some t => exact State.effPort_low _ _ _ _ h hs
    · exact hs
@[simp] theorem State.instBind_low {s0 : State} (s : State) (n : Nat) (b : Nat × Nat × Nat) (hc : Low s0 s) :
    Low s0 (State.instBind s n b) := by
  unfold State.instBind
  repeat' first | first | omega | ((simp +zetaDelta only [odKey, bankIdx, bankStatusSub, canIdx, dmaObj, instBase, launchIdx, coreIdx, dmaIdx, logBase, trigIdx] <;> (try split)) <;> omega) | (with_reducible first | assumption | apply low_ite | apply State.wr_low) | intro _ | dsimp only
@[simp] theorem State.instEnd_low {s0 : State} (s : State) (n : Nat) (hc : Low s0 s) :
    Low s0 (State.instEnd s n) := by
  unfold State.instEnd
  extract_lets z0 z1
  have h1 : Low s0 z1 := by repeat' first | first | omega | ((simp +zetaDelta only [odKey, bankIdx, bankStatusSub, canIdx, dmaObj, instBase, launchIdx, coreIdx, dmaIdx, logBase, trigIdx] <;> (try split)) <;> omega) | (with_reducible first | assumption | (apply low_foldl; intro _ _ _) | apply State.doHalt_low | apply State.wr_low) | intro _ | dsimp only
  try clear_value z1
  repeat' first | first | omega | ((simp +zetaDelta only [odKey, bankIdx, bankStatusSub, canIdx, dmaObj, instBase, launchIdx, coreIdx, dmaIdx, logBase, trigIdx] <;> (try split)) <;> omega) | (with_reducible first | assumption | apply State.setInst_low | apply State.wr_low) | dsimp only
@[simp] theorem State.instStop_low {s0 : State} (s : State) (n : Nat) (hc : Low s0 s) :
    Low s0 (State.instStop s n) := by
  unfold State.instStop
  repeat' first | first | omega | ((simp +zetaDelta only [odKey, bankIdx, bankStatusSub, canIdx, dmaObj, instBase, launchIdx, coreIdx, dmaIdx, logBase, trigIdx] <;> (try split)) <;> omega) | (with_reducible first | assumption | apply low_ite | apply State.instEnd_low | apply State.wr_low) | dsimp only
@[simp] theorem State.instDone_low {s0 : State} (s : State) (n : Nat) (binds : List (Nat × Nat × Nat)) (hc : Low s0 s) :
    Low s0 (State.instDone s n binds) := by
  unfold State.instDone
  extract_lets z0 z1
  repeat' first | first | omega | ((simp +zetaDelta only [odKey, bankIdx, bankStatusSub, canIdx, dmaObj, instBase, launchIdx, coreIdx, dmaIdx, logBase, trigIdx] <;> (try split)) <;> omega) | (with_reducible first | assumption | apply low_ite | (apply low_foldl; intro _ _ _) | apply State.chordLoss_low | apply State.createObjs_low | apply State.instBind_low | apply State.instEnd_low | apply State.instPorts_low | apply State.refuse_low | apply State.wr_low) | simp only [low_same] | intro _ | dsimp only | split
theorem State.effInst_low {s0 : State} (s : State) (i j v : Nat) {t} (h : s.effInst i j v = some t) (hc : Low s0 s) : Low s0 t := by
  unfold State.effInst at h
  split at h
  · simp only [Option.map_eq_some_iff] at h
    obtain ⟨_, _, rfl⟩ := h
    simp [hc]
  · split at h
    · cases h; simp [hc]
    · split at h
      · cases h; split <;> simp [hc]
      · cases h
@[simp] theorem State.statusClear_low {s0 : State} (s : State) (i j v again : Nat) (hk : i * 256 + j < 0x2001 * 256 ∨ 0x2005 * 256 ≤ i * 256) (hc : Low s0 s) :
    Low s0 (State.statusClear s i j v again) := by
  unfold State.statusClear
  repeat' first | first | omega | ((simp +zetaDelta only [odKey, bankIdx, bankStatusSub, canIdx, dmaObj, instBase, launchIdx, coreIdx, dmaIdx, logBase, trigIdx] <;> (try split)) <;> omega) | (with_reducible first | assumption | apply State.clrBits_low | apply State.route_low | apply State.setBits_low) | dsimp only
theorem State.effMbox_low {s0 : State} (s : State) (i j v : Nat) {t1} (h : State.effMbox s i j v = some t1) (hc : Low s0 s) :
    Low s0 t1 := by
  simp only [State.effMbox] at h
  repeat' split at h
  all_goals first | (simp only [Option.some.injEq, reduceCtorEq] at h; done) | (simp only [Option.some.injEq] at h; subst h)
  all_goals (repeat' first | first | omega | ((simp +zetaDelta only [odKey, bankIdx, bankStatusSub, canIdx, dmaObj, instBase, launchIdx, coreIdx, dmaIdx, logBase, trigIdx] <;> (try split)) <;> omega) | (with_reducible first | assumption | apply low_ite | apply State.dbClear_low | apply State.lockFree_low | apply State.maskWrite_low | apply State.post_low) | simp only [low_same] | intro _ | dsimp only | split)

theorem State.effEngine_low {s0 : State} (s : State) (p : Path) (i j v : Nat) {t1} (h : State.effEngine s p i j v = some t1) (hc : Low s0 s) :
    Low s0 t1 := by
  simp only [State.effEngine] at h
  repeat' split at h
  all_goals first | (simp only [Option.some.injEq, reduceCtorEq] at h; done) | (simp only [Option.some.injEq] at h; subst h)
  all_goals (repeat' first | first | omega | ((simp +zetaDelta only [odKey, bankIdx, bankStatusSub, canIdx, dmaObj, instBase, launchIdx, coreIdx, dmaIdx, logBase, trigIdx] <;> (try split)) <;> omega) | (with_reducible first | assumption | apply low_ite | apply State.engCommand_low | apply State.libraryStart_low) | simp only [low_same] | intro _ | dsimp only | split)

theorem State.effLinks_low {s0 : State} (s : State) (i j v : Nat) {t1} (h : State.effLinks s i j v = some t1) (hc : Low s0 s) :
    Low s0 t1 := by
  simp only [State.effLinks] at h
  repeat' split at h
  all_goals first | (simp only [Option.some.injEq, reduceCtorEq] at h; done) | (simp only [Option.some.injEq] at h; subst h)
  all_goals (repeat' first | first | omega | ((simp +zetaDelta only [odKey, bankIdx, bankStatusSub, canIdx, dmaObj, instBase, launchIdx, coreIdx, dmaIdx, logBase, trigIdx] <;> (try split)) <;> omega) | (with_reducible first | assumption | apply low_ite | apply State.mdioStart_low | apply State.spliceCommit_low | apply State.wr_low) | simp only [low_same] | intro _ | dsimp only | split)

@[simp] theorem State.odStore_low {s0 : State} (s : State) (i j v : Nat) (hk : i * 256 + j < 0x2001 * 256 ∨ 0x2005 * 256 ≤ i * 256) (hc : Low s0 s) :
    Low s0 (State.odStore s i j v) := by
  unfold State.odStore
  repeat' first | first | omega | ((simp +zetaDelta only [odKey, bankIdx, bankStatusSub, canIdx, dmaObj, instBase, launchIdx, coreIdx, dmaIdx, logBase, trigIdx] <;> (try split)) <;> omega) | (with_reducible first | assumption | apply low_ite | apply State.route_low | apply State.wr_low) | dsimp only
theorem State.odReadEffect_low {s0 : State} (s : State) (p : Path) (i j : Nat) {t1} (h : State.odReadEffect s p i j = some t1) (hc : Low s0 s) :
    Low s0 t1.2 := by
  simp only [State.odReadEffect] at h
  repeat' split at h
  all_goals first | (simp only [Option.some.injEq, reduceCtorEq] at h; done) | (simp only [Option.some.injEq] at h; subst h)
  all_goals (repeat' first | first | omega | ((simp +zetaDelta only [odKey, bankIdx, bankStatusSub, canIdx, dmaObj, instBase, launchIdx, coreIdx, dmaIdx, logBase, trigIdx] <;> (try split)) <;> omega) | (with_reducible first | assumption | apply low_ite | apply State.dbRead_low | apply State.lockRead_low | apply State.rxPop_low) | simp only [low_same] | intro _ | dsimp only | split)

@[simp] theorem State.setPath_low {s0 : State} (s : State) (p : Path) (x : PathSt) (hc : Low s0 s) :
    Low s0 (State.setPath s p x) := by
  unfold State.setPath
  repeat' first | first | omega | ((simp +zetaDelta only [odKey, bankIdx, bankStatusSub, canIdx, dmaObj, instBase, launchIdx, coreIdx, dmaIdx, logBase, trigIdx] <;> (try split)) <;> omega) | (with_reducible first | assumption) | simp only [low_same] | intro _ | dsimp only
@[simp] theorem State.writeLow_low {s0 : State} (s : State) (p : Path) (i j v : Nat) (hc : Low s0 s) :
    Low s0 (State.writeLow s p i j v) := by
  unfold State.writeLow
  repeat' first | first | omega | ((simp +zetaDelta only [odKey, bankIdx, bankStatusSub, canIdx, dmaObj, instBase, launchIdx, coreIdx, dmaIdx, logBase, trigIdx] <;> (try split)) <;> omega) | (with_reducible first | assumption | apply low_ite | apply State.setPath_low | apply State.violate_low) | simp only [low_same] | dsimp only
@[simp] theorem State.showSet_low {s0 : State} (s : State) (hc : Low s0 s) :
    Low s0 (State.showSet s) := by
  unfold State.showSet
  extract_lets z0
  repeat' first | first | omega | ((simp +zetaDelta only [odKey, bankIdx, bankStatusSub, canIdx, dmaObj, instBase, launchIdx, coreIdx, dmaIdx, logBase, trigIdx] <;> (try split)) <;> omega) | (with_reducible first | assumption | apply low_ite | apply State.drop_low | apply State.wr_low) | dsimp only
@[simp] theorem State.hostLoad_low {s0 : State} (s : State) (hc : Low s0 s) :
    Low s0 (State.hostLoad s) := by
  unfold State.hostLoad
  repeat' first | first | omega | ((simp +zetaDelta only [odKey, bankIdx, bankStatusSub, canIdx, dmaObj, instBase, launchIdx, coreIdx, dmaIdx, logBase, trigIdx] <;> (try split)) <;> omega) | (with_reducible first | assumption | apply State.event_low | apply State.wr_low) | dsimp only
@[simp] theorem State.optionStep_low {s0 : State} (s : State) (hc : Low s0 s) :
    Low s0 (State.optionStep s) := by
  unfold State.optionStep
  extract_lets z0
  have h0 : Low s0 z0 := by repeat' first | first | omega | ((simp +zetaDelta only [odKey, bankIdx, bankStatusSub, canIdx, dmaObj, instBase, launchIdx, coreIdx, dmaIdx, logBase, trigIdx] <;> (try split)) <;> omega) | (with_reducible first | assumption | apply State.optionLoad_low) | dsimp only
  try clear_value z0
  repeat' first | first | omega | ((simp +zetaDelta only [odKey, bankIdx, bankStatusSub, canIdx, dmaObj, instBase, launchIdx, coreIdx, dmaIdx, logBase, trigIdx] <;> (try split)) <;> omega) | (with_reducible first | assumption | (apply low_foldl; intro _ _ _) | apply State.setPio_low | apply State.wr_low) | simp only [low_same] | intro _ | dsimp only
@[simp] theorem State.bankStep4_low {s0 : State} (s : State) (hc : Low s0 s) :
    Low s0 (State.bankStep4 s) := by
  unfold State.bankStep4
  repeat' first | first | omega | ((simp +zetaDelta only [odKey, bankIdx, bankStatusSub, canIdx, dmaObj, instBase, launchIdx, coreIdx, dmaIdx, logBase, trigIdx] <;> (try split)) <;> omega) | (with_reducible first | assumption | apply low_ite | (apply low_foldl; intro _ _ _) | apply State.bankZero_low | apply State.wr_low) | intro _ | dsimp only
@[simp] theorem State.pllStep_low {s0 : State} (s : State) (hc : Low s0 s) : Low s0 (State.pllStep s) := by
  unfold State.pllStep; (repeat' (first | first | omega | ((simp +zetaDelta only [odKey, bankIdx, bankStatusSub, canIdx, dmaObj, instBase, launchIdx, coreIdx, dmaIdx, logBase, trigIdx] <;> (try split)) <;> omega) | with_reducible assumption | with_reducible apply State.setCoreState_low | with_reducible apply State.setPc_low | with_reducible apply State.wr_low | simp only [low_same] | intro _ | dsimp only))
@[simp] theorem State.stompTx_low {s0 : State} (s : State) (e : Nat) (hc : Low s0 s) :
    Low s0 (State.stompTx s e) := by
  unfold State.stompTx
  extract_lets z0
  repeat' first | first | omega | ((simp +zetaDelta only [odKey, bankIdx, bankStatusSub, canIdx, dmaObj, instBase, launchIdx, coreIdx, dmaIdx, logBase, trigIdx] <;> (try split)) <;> omega) | (with_reducible first | assumption | apply low_ite | apply State.laneSend_low | apply State.setEngine_low) | simp only [low_same] | dsimp only
@[simp] theorem State.exception_low {s0 : State} (s : State) (c code pc : Nat) (hc : Low s0 s) :
    Low s0 (State.exception s c code pc) := by
  unfold State.exception
  extract_lets z0 z1 z2
  have h1 : Low s0 z1 := by repeat' first | first | omega | ((simp +zetaDelta only [odKey, bankIdx, bankStatusSub, canIdx, dmaObj, instBase, launchIdx, coreIdx, dmaIdx, logBase, trigIdx] <;> (try split)) <;> omega) | (with_reducible first | assumption | apply State.setCoreState_low | apply State.wr_low) | dsimp only
  try clear_value z1
  repeat' first | first | omega | ((simp +zetaDelta only [odKey, bankIdx, bankStatusSub, canIdx, dmaObj, instBase, launchIdx, coreIdx, dmaIdx, logBase, trigIdx] <;> (try split)) <;> omega) | (with_reducible first | assumption | apply low_ite | apply State.engEvent_low | apply State.instFault_low | apply State.record_low | apply State.setCoreState_low | apply State.setEngine_low | apply State.stompTx_low | apply State.wr_low) | simp only [low_same] | dsimp only
@[simp] theorem State.finish_low {s0 : State} (s : State) (c pc : Nat) (hc : Low s0 s) :
    Low s0 (State.finish s c pc) := by
  unfold State.finish
  extract_lets z0
  repeat' first | first | omega | ((simp +zetaDelta only [odKey, bankIdx, bankStatusSub, canIdx, dmaObj, instBase, launchIdx, coreIdx, dmaIdx, logBase, trigIdx] <;> (try split)) <;> omega) | (with_reducible first | assumption | apply low_ite | apply State.setCoreState_low | apply State.setEngine_low | apply State.setPc_low) | simp only [low_same] | dsimp only
@[simp] theorem State.finishWith_low {s0 : State} (s : State) (c : Nat) (g : Engine) (hc : Low s0 s) :
    Low s0 (State.finishWith s c g) := by
  unfold State.finishWith
  repeat' first | first | omega | ((simp +zetaDelta only [odKey, bankIdx, bankStatusSub, canIdx, dmaObj, instBase, launchIdx, coreIdx, dmaIdx, logBase, trigIdx] <;> (try split)) <;> omega) | (with_reducible first | assumption | apply State.finish_low | apply State.setEngine_low) | dsimp only
@[simp] theorem State.await_low {s0 : State} (s : State) (c : Nat) (w : WaitFor) (hc : Low s0 s) :
    Low s0 (State.await s c w) := by
  unfold State.await
  repeat' first | first | omega | ((simp +zetaDelta only [odKey, bankIdx, bankStatusSub, canIdx, dmaObj, instBase, launchIdx, coreIdx, dmaIdx, logBase, trigIdx] <;> (try split)) <;> omega) | (with_reducible first | assumption | apply State.setEngine_low) | simp only [low_same] | dsimp only
@[simp] theorem State.jump_low {s0 : State} (s : State) (c : Nat) (t : Int) (hc : Low s0 s) :
    Low s0 (State.jump s c t) := by
  unfold State.jump
  repeat' first | first | omega | ((simp +zetaDelta only [odKey, bankIdx, bankStatusSub, canIdx, dmaObj, instBase, launchIdx, coreIdx, dmaIdx, logBase, trigIdx] <;> (try split)) <;> omega) | (with_reducible first | assumption | apply low_ite | apply State.exception_low | apply State.finish_low) | dsimp only
@[simp] theorem State.postStore_low {s0 : State} (s : State) (c : Fin 33) (p : Posted) (hc : Low s0 s) :
    Low s0 (State.postStore s c p) := by
  unfold State.postStore
  extract_lets z0
  repeat' first | first | omega | ((simp +zetaDelta only [odKey, bankIdx, bankStatusSub, canIdx, dmaObj, instBase, launchIdx, coreIdx, dmaIdx, logBase, trigIdx] <;> (try split)) <;> omega) | (with_reducible first | assumption | apply low_ite | apply State.await_low | apply State.finishWith_low | apply State.noteNotOn_low) | simp only [low_same] | dsimp only
@[simp] theorem State.raiseEither_low {s0 : State} (s : State) (c : Nat) (a b : Bool) (ca cb : Nat) (f : State → State) (hf : ∀ s, Low s0 s → Low s0 (f s)) (hc : Low s0 s) :
    Low s0 (State.raiseEither s c a b ca cb f) := by
  unfold State.raiseEither
  repeat' first | first | omega | ((simp +zetaDelta only [odKey, bankIdx, bankStatusSub, canIdx, dmaObj, instBase, launchIdx, coreIdx, dmaIdx, logBase, trigIdx] <;> (try split)) <;> omega) | (with_reducible first | assumption | apply low_ite | apply State.exception_low | apply State.tick_low | apply hf) | simp only [low_same] | intro _ | dsimp only | split
@[simp] theorem State.putLocal_low {s0 : State} (s : State) (a : Nat) (d : List Byte) (hc : Low s0 s) :
    Low s0 (State.putLocal s a d) := by
  unfold State.putLocal
  repeat' first | first | omega | ((simp +zetaDelta only [odKey, bankIdx, bankStatusSub, canIdx, dmaObj, instBase, launchIdx, coreIdx, dmaIdx, logBase, trigIdx] <;> (try split)) <;> omega) | (with_reducible first | assumption | apply low_ite | apply State.setBytes_low | apply State.setDbe_low | apply State.setSbe_low) | dsimp only
@[simp] theorem State.loadDbe_low {s0 : State} (s : State) (c : Nat) (a : Nat) (hc : Low s0 s) :
    Low s0 (State.loadDbe s c a) := by
  unfold State.loadDbe
  repeat' first | first | omega | ((simp +zetaDelta only [odKey, bankIdx, bankStatusSub, canIdx, dmaObj, instBase, launchIdx, coreIdx, dmaIdx, logBase, trigIdx] <;> (try split)) <;> omega) | (with_reducible first | assumption | apply low_ite | apply State.exception_low) | simp only [low_same] | dsimp only | split
@[simp] theorem State.doStf_low {s0 : State} (s : State) (c : Fin 33) (w : Word) (hc : Low s0 s) :
    Low s0 (State.doStf s c w) := by
  unfold State.doStf
  extract_lets z0
  repeat' first | first | omega | ((simp +zetaDelta only [odKey, bankIdx, bankStatusSub, canIdx, dmaObj, instBase, launchIdx, coreIdx, dmaIdx, logBase, trigIdx] <;> (try split)) <;> omega) | (with_reducible first | assumption | apply State.postStore_low | apply State.raiseEither_low) | intro _ | dsimp only
@[simp] theorem State.doStx_low {s0 : State} (s : State) (c : Fin 33) (w : Word) (hc : Low s0 s) :
    Low s0 (State.doStx s c w) := by
  unfold State.doStx
  extract_lets z0
  repeat' first | first | omega | ((simp +zetaDelta only [odKey, bankIdx, bankStatusSub, canIdx, dmaObj, instBase, launchIdx, coreIdx, dmaIdx, logBase, trigIdx] <;> (try split)) <;> omega) | (with_reducible first | assumption | apply low_ite | apply State.exception_low | apply State.postStore_low) | dsimp only
@[simp] theorem State.doFence_low {s0 : State} (s : State) (c : Fin 33) (hc : Low s0 s) :
    Low s0 (State.doFence s c) := by
  unfold State.doFence
  repeat' first | first | omega | ((simp +zetaDelta only [odKey, bankIdx, bankStatusSub, canIdx, dmaObj, instBase, launchIdx, coreIdx, dmaIdx, logBase, trigIdx] <;> (try split)) <;> omega) | (with_reducible first | assumption | apply low_ite | apply State.await_low | apply State.finish_low) | dsimp only
@[simp] theorem State.linked_low {s0 : State} (s : State) (c : Nat) (hc : Low s0 s) :
    Low s0 (State.linked s c) := by
  unfold State.linked
  repeat' first | first | omega | ((simp +zetaDelta only [odKey, bankIdx, bankStatusSub, canIdx, dmaObj, instBase, launchIdx, coreIdx, dmaIdx, logBase, trigIdx] <;> (try split)) <;> omega) | (with_reducible first | assumption | apply State.setEngine_low) | dsimp only
@[simp] theorem State.doHaltInsn_low {s0 : State} (s : State) (c : Fin 33) (hc : Low s0 s) :
    Low s0 (State.doHaltInsn s c) := by
  unfold State.doHaltInsn
  repeat' first | first | omega | ((simp +zetaDelta only [odKey, bankIdx, bankStatusSub, canIdx, dmaObj, instBase, launchIdx, coreIdx, dmaIdx, logBase, trigIdx] <;> (try split)) <;> omega) | (with_reducible first | assumption | apply low_ite | apply State.await_low | apply State.halted_low | apply State.setCoreState_low | apply State.setEngine_low | apply State.setPc_low | apply State.wr_low) | simp only [low_same] | dsimp only
@[simp] theorem State.doTake_low {s0 : State} (s : State) (c : Nat) (w : Word) (hc : Low s0 s) :
    Low s0 (State.doTake s c w) := by
  unfold State.doTake
  extract_lets z0
  repeat' first | first | omega | ((simp +zetaDelta only [odKey, bankIdx, bankStatusSub, canIdx, dmaObj, instBase, launchIdx, coreIdx, dmaIdx, logBase, trigIdx] <;> (try split)) <;> omega) | (with_reducible first | assumption | apply low_ite | apply State.await_low | apply State.finishWith_low) | simp only [low_same] | dsimp only | split
@[simp] theorem State.doPeek_low {s0 : State} (s : State) (c : Nat) (w : Word) (hc : Low s0 s) :
    Low s0 (State.doPeek s c w) := by
  unfold State.doPeek
  extract_lets z0
  repeat' first | first | omega | ((simp +zetaDelta only [odKey, bankIdx, bankStatusSub, canIdx, dmaObj, instBase, launchIdx, coreIdx, dmaIdx, logBase, trigIdx] <;> (try split)) <;> omega) | (with_reducible first | assumption | apply low_ite | apply State.await_low | apply State.finishWith_low) | simp only [low_same] | dsimp only | split
@[simp] theorem State.doMatch_low {s0 : State} (s : State) (c : Nat) (w : Word) (hc : Low s0 s) :
    Low s0 (State.doMatch s c w) := by
  unfold State.doMatch
  extract_lets z0
  repeat' first | first | omega | ((simp +zetaDelta only [odKey, bankIdx, bankStatusSub, canIdx, dmaObj, instBase, launchIdx, coreIdx, dmaIdx, logBase, trigIdx] <;> (try split)) <;> omega) | (with_reducible first | assumption | apply low_ite | apply State.await_low | apply State.finishWith_low) | simp only [low_same] | dsimp only | split
@[simp] theorem State.doMark_low {s0 : State} (s : State) (c : Nat) (w : Word) (hc : Low s0 s) :
    Low s0 (State.doMark s c w) := by
  unfold State.doMark
  extract_lets z0
  repeat' first | first | omega | ((simp +zetaDelta only [odKey, bankIdx, bankStatusSub, canIdx, dmaObj, instBase, launchIdx, coreIdx, dmaIdx, logBase, trigIdx] <;> (try split)) <;> omega) | (with_reducible first | assumption | apply low_ite | apply State.await_low | apply State.finishWith_low) | simp only [low_same] | dsimp only | split
@[simp] theorem State.doGend_low {s0 : State} (s : State) (c : Nat) (w : Word) (hc : Low s0 s) :
    Low s0 (State.doGend s c w) := by
  unfold State.doGend
  extract_lets z0 z1
  repeat' first | first | omega | ((simp +zetaDelta only [odKey, bankIdx, bankStatusSub, canIdx, dmaObj, instBase, launchIdx, coreIdx, dmaIdx, logBase, trigIdx] <;> (try split)) <;> omega) | (with_reducible first | assumption | apply low_ite | apply State.await_low | apply State.finishWith_low | apply State.settleTx_low) | simp only [low_same] | dsimp only
@[simp] theorem State.doTwait_low {s0 : State} (s : State) (c : Nat) (w : Word) (hc : Low s0 s) :
    Low s0 (State.doTwait s c w) := by
  unfold State.doTwait
  repeat' first | first | omega | ((simp +zetaDelta only [odKey, bankIdx, bankStatusSub, canIdx, dmaObj, instBase, launchIdx, coreIdx, dmaIdx, logBase, trigIdx] <;> (try split)) <;> omega) | (with_reducible first | assumption | apply low_ite | apply State.await_low | apply State.finish_low) | dsimp only
@[simp] theorem State.giveEvents_low {s0 : State} (s : State) (c : Nat) (w v : Word) (hc : Low s0 s) :
    Low s0 (State.giveEvents s c w v) := by
  unfold State.giveEvents
  repeat' first | first | omega | ((simp +zetaDelta only [odKey, bankIdx, bankStatusSub, canIdx, dmaObj, instBase, launchIdx, coreIdx, dmaIdx, logBase, trigIdx] <;> (try split)) <;> omega) | (with_reducible first | assumption | apply State.finishWith_low) | simp only [low_same] | dsimp only
@[simp] theorem State.doLock_low {s0 : State} (s : State) (c : Fin 33) (w : Word) (hc : Low s0 s) :
    Low s0 (State.doLock s c w) := by
  unfold State.doLock
  extract_lets z0 z1
  repeat' first | first | omega | ((simp +zetaDelta only [odKey, bankIdx, bankStatusSub, canIdx, dmaObj, instBase, launchIdx, coreIdx, dmaIdx, logBase, trigIdx] <;> (try split)) <;> omega) | (with_reducible first | assumption | apply low_ite | apply State.finishWith_low | apply State.lockRead_low | apply State.violate_low | apply low_ite2 | apply low_ite3 | apply low_ite4) | simp only [low_same] | dsimp only
@[simp] theorem State.doUnlock_low {s0 : State} (s : State) (c : Fin 33) (w : Word) (hc : Low s0 s) :
    Low s0 (State.doUnlock s c w) := by
  unfold State.doUnlock
  extract_lets z0 z1 z2
  have h2 : Low s0 z2 := by repeat' first | first | omega | ((simp +zetaDelta only [odKey, bankIdx, bankStatusSub, canIdx, dmaObj, instBase, launchIdx, coreIdx, dmaIdx, logBase, trigIdx] <;> (try split)) <;> omega) | (with_reducible first | assumption | apply low_ite | apply State.lockFree_low | apply State.violate_low) | dsimp only
  try clear_value z2
  repeat' first | first | omega | ((simp +zetaDelta only [odKey, bankIdx, bankStatusSub, canIdx, dmaObj, instBase, launchIdx, coreIdx, dmaIdx, logBase, trigIdx] <;> (try split)) <;> omega) | (with_reducible first | assumption | apply State.finish_low) | dsimp only
@[simp] theorem State.qspiBegin_low {s0 : State} (s : State) (hc : Low s0 s) :
    Low s0 (State.qspiBegin s) := by
  unfold State.qspiBegin
  repeat' first | first | omega | ((simp +zetaDelta only [odKey, bankIdx, bankStatusSub, canIdx, dmaObj, instBase, launchIdx, coreIdx, dmaIdx, logBase, trigIdx] <;> (try split)) <;> omega) | (with_reducible first | assumption) | simp only [low_same] | dsimp only
@[simp] theorem State.qspiDrop_low {s0 : State} (s : State) (hc : Low s0 s) :
    Low s0 (State.qspiDrop s) := by
  unfold State.qspiDrop
  repeat' first | first | omega | ((simp +zetaDelta only [odKey, bankIdx, bankStatusSub, canIdx, dmaObj, instBase, launchIdx, coreIdx, dmaIdx, logBase, trigIdx] <;> (try split)) <;> omega) | (with_reducible first | assumption | apply State.cnt_low) | simp only [low_same] | dsimp only
@[simp] theorem State.openBytes_low {s0 : State} (s : State) (n : Nat) (hc : Low s0 s) :
    Low s0 (State.openBytes s n).2 := by
  unfold State.openBytes
  repeat' first | first | omega | ((simp +zetaDelta only [odKey, bankIdx, bankStatusSub, canIdx, dmaObj, instBase, launchIdx, coreIdx, dmaIdx, logBase, trigIdx] <;> (try split)) <;> omega) | (with_reducible first | assumption | apply State.tick_low) | dsimp only
@[simp] theorem State.sessionRefuse_low {s0 : State} (s : State) (c : Nat) (hc : Low s0 s) :
    Low s0 (State.sessionRefuse s c) := by
  unfold State.sessionRefuse
  extract_lets z0 z1
  have h0 : Low s0 z0 := by repeat' first | first | omega | ((simp +zetaDelta only [odKey, bankIdx, bankStatusSub, canIdx, dmaObj, instBase, launchIdx, coreIdx, dmaIdx, logBase, trigIdx] <;> (try split)) <;> omega) | (with_reducible first | assumption | apply State.cnt_low | apply State.event_low) | dsimp only
  try clear_value z0
  repeat' first | first | omega | ((simp +zetaDelta only [odKey, bankIdx, bankStatusSub, canIdx, dmaObj, instBase, launchIdx, coreIdx, dmaIdx, logBase, trigIdx] <;> (try split)) <;> omega) | (with_reducible first | assumption | apply low_ite | apply State.sessionClose_low | apply State.setSession_low) | simp only [low_same] | dsimp only
@[simp] theorem State.sessionOpen_low {s0 : State} (s : State) (c path origin : Nat) (m : SMsg) (hc : Low s0 s) :
    Low s0 (State.sessionOpen s c path origin m).2.2.2 := by
  unfold State.sessionOpen
  extract_lets z0 z1 z2 z3
  have h0 : Low s0 z0 := by repeat' first | first | omega | ((simp +zetaDelta only [odKey, bankIdx, bankStatusSub, canIdx, dmaObj, instBase, launchIdx, coreIdx, dmaIdx, logBase, trigIdx] <;> (try split)) <;> omega) | (with_reducible first | assumption | apply low_ite | apply State.sessionClose_low | apply low_ite2 | apply low_ite3 | apply low_ite4) | dsimp only
  try clear_value z0
  have h2 : Low s0 z2.2 := by repeat' first | first | omega | ((simp +zetaDelta only [odKey, bankIdx, bankStatusSub, canIdx, dmaObj, instBase, launchIdx, coreIdx, dmaIdx, logBase, trigIdx] <;> (try split)) <;> omega) | (with_reducible first | assumption | apply State.openBytes_low | apply State.tick_low) | dsimp only
  try clear_value z2
  have h3 : Low s0 z3 := by repeat' first | first | omega | ((simp +zetaDelta only [odKey, bankIdx, bankStatusSub, canIdx, dmaObj, instBase, launchIdx, coreIdx, dmaIdx, logBase, trigIdx] <;> (try split)) <;> omega) | (with_reducible first | assumption | apply State.setSession_low | apply State.wr_low) | dsimp only
  try clear_value z3
  repeat' first | first | omega | ((simp +zetaDelta only [odKey, bankIdx, bankStatusSub, canIdx, dmaObj, instBase, launchIdx, coreIdx, dmaIdx, logBase, trigIdx] <;> (try split)) <;> omega) | (with_reducible first | assumption) | dsimp only
@[simp] theorem State.sessionProve_low {s0 : State} (s : State) (c : Nat) (m : SMsg) (hc : Low s0 s) :
    Low s0 (State.sessionProve s c m).2.2.2 := by
  unfold State.sessionProve
  extract_lets z0 z1
  have h1 : Low s0 z1 := by repeat' first | first | omega | ((simp +zetaDelta only [odKey, bankIdx, bankStatusSub, canIdx, dmaObj, instBase, launchIdx, coreIdx, dmaIdx, logBase, trigIdx] <;> (try split)) <;> omega) | (with_reducible first | assumption | apply State.cnt_low | apply State.event_low | apply State.setSession_low | apply State.wr_low) | simp only [low_same] | dsimp only
  try clear_value z1
  repeat' first | first | omega | ((simp +zetaDelta only [odKey, bankIdx, bankStatusSub, canIdx, dmaObj, instBase, launchIdx, coreIdx, dmaIdx, logBase, trigIdx] <;> (try split)) <;> omega) | (with_reducible first | assumption | apply State.record_low) | dsimp only
theorem State.service_low {s0 : State} (s : State) (typ : Nat) {t} (h : s.service typ = some t) (hc : Low s0 s) : Low s0 t.2 := by
  unfold State.service at h
  split at h
  · simp at h
  · exact State.latGot_low _ _ _ h hc
@[simp] theorem State.relayPost_low {s0 : State} (s : State) (p : Path) (c bits : Nat) (d : List Byte) (hc : Low s0 s) :
    Low s0 (State.relayPost s p c bits d) := by
  unfold State.relayPost
  extract_lets z0
  repeat' first | first | omega | ((simp +zetaDelta only [odKey, bankIdx, bankStatusSub, canIdx, dmaObj, instBase, launchIdx, coreIdx, dmaIdx, logBase, trigIdx] <;> (try split)) <;> omega) | (with_reducible first | assumption | apply low_ite | (apply low_foldl; intro _ _ _) | apply State.drop_low | apply State.guard_low | apply State.lockFree_low | apply State.lockRead_low | apply State.memWrite_low | apply State.post_low | apply State.violate_low | apply low_ite2 | apply low_ite3 | apply low_ite4) | intro _ | dsimp only
@[simp] theorem State.apexInstall_low {s0 : State} (s : State) (a len : Nat) (hc : Low s0 s) :
    Low s0 (State.apexInstall s a len) := by
  unfold State.apexInstall
  extract_lets z0
  repeat' first | first | omega | ((simp +zetaDelta only [odKey, bankIdx, bankStatusSub, canIdx, dmaObj, instBase, launchIdx, coreIdx, dmaIdx, logBase, trigIdx] <;> (try split)) <;> omega) | (with_reducible first | assumption | apply State.setBytes_low | apply State.tick_low) | dsimp only
@[simp] theorem State.setRecord_low {s0 : State} (s : State) (d : List Byte) (applied refused : Nat) (hc : Low s0 s) :
    Low s0 (State.setRecord s d applied refused) := by
  unfold State.setRecord
  repeat' first | first | omega | ((simp +zetaDelta only [odKey, bankIdx, bankStatusSub, canIdx, dmaObj, instBase, launchIdx, coreIdx, dmaIdx, logBase, trigIdx] <;> (try split)) <;> omega) | (with_reducible first | assumption | apply State.record_low) | dsimp only
@[simp] theorem State.fetchFailed_low {s0 : State} (s : State) (hc : Low s0 s) :
    Low s0 (State.fetchFailed s) := by
  unfold State.fetchFailed
  repeat' first | first | omega | ((simp +zetaDelta only [odKey, bankIdx, bankStatusSub, canIdx, dmaObj, instBase, launchIdx, coreIdx, dmaIdx, logBase, trigIdx] <;> (try split)) <;> omega) | (with_reducible first | assumption | apply State.latEvent_low | apply State.setLat_low) | simp only [low_same] | intro _ | dsimp only | split
@[simp] theorem State.wakeFrame_low {s0 : State} (s : State) (p : Nat) (d : List Byte) (hc : Low s0 s) :
    Low s0 (State.wakeFrame s p d) := by
  unfold State.wakeFrame
  extract_lets z0
  repeat' first | first | omega | ((simp +zetaDelta only [odKey, bankIdx, bankStatusSub, canIdx, dmaObj, instBase, launchIdx, coreIdx, dmaIdx, logBase, trigIdx] <;> (try split)) <;> omega) | (with_reducible first | assumption | apply low_ite | apply State.cnt_low | apply State.portEvent_low | apply State.wake_low | apply State.wr_low) | dsimp only
@[simp] theorem State.showPaused_low {s0 : State} (s : State) (p : Nat) (hc : Low s0 s) :
    Low s0 (State.showPaused s p) := by
  unfold State.showPaused
  repeat' first | first | omega | ((simp +zetaDelta only [odKey, bankIdx, bankStatusSub, canIdx, dmaObj, instBase, launchIdx, coreIdx, dmaIdx, logBase, trigIdx] <;> (try split)) <;> omega) | (with_reducible first | assumption | apply State.putBits_low) | dsimp only
@[simp] theorem State.applyPause_low {s0 : State} (s : State) (p : Nat) (hc : Low s0 s) :
    Low s0 (State.applyPause s p) := by
  unfold State.applyPause
  extract_lets z0
  repeat' first | first | omega | ((simp +zetaDelta only [odKey, bankIdx, bankStatusSub, canIdx, dmaObj, instBase, launchIdx, coreIdx, dmaIdx, logBase, trigIdx] <;> (try split)) <;> omega) | (with_reducible first | assumption | apply State.setPort_low | apply State.showPaused_low) | simp only [low_same] | dsimp only | split
@[simp] theorem State.macControl_low {s0 : State} (s : State) (p : Nat) (d : List Byte) (hc : Low s0 s) :
    Low s0 (State.macControl s p d) := by
  unfold State.macControl
  extract_lets z0 z1 z2 z3
  repeat' first | first | omega | ((simp +zetaDelta only [odKey, bankIdx, bankStatusSub, canIdx, dmaObj, instBase, launchIdx, coreIdx, dmaIdx, logBase, trigIdx] <;> (try split)) <;> omega) | (with_reducible first | assumption | apply low_ite | (apply low_foldl; intro _ _ _) | apply State.applyPause_low | apply State.setPort_low | apply State.stat_low) | simp only [low_same] | intro _ | dsimp only
@[simp] theorem State.rxToSwitch_low {s0 : State} (s : State) (p : Nat) (d : List Byte) (r : RxResult) (hc : Low s0 s) :
    Low s0 (State.rxToSwitch s p d r) := by
  unfold State.rxToSwitch
  extract_lets z0
  have h0 : Low s0 z0 := by repeat' first | first | omega | ((simp +zetaDelta only [odKey, bankIdx, bankStatusSub, canIdx, dmaObj, instBase, launchIdx, coreIdx, dmaIdx, logBase, trigIdx] <;> (try split)) <;> omega) | (with_reducible first | assumption | apply low_ite | apply State.storeComplete_low) | dsimp only
  try clear_value z0
  repeat' first | first | omega | ((simp +zetaDelta only [odKey, bankIdx, bankStatusSub, canIdx, dmaObj, instBase, launchIdx, coreIdx, dmaIdx, logBase, trigIdx] <;> (try split)) <;> omega) | (with_reducible first | assumption | apply State.setPort_low) | simp only [low_same] | dsimp only
@[simp] theorem State.receive_low {s0 : State} (s : State) (p : Nat) (d : List Byte) (er : Option Nat) (frags : Nat) (hc : Low s0 s) :
    Low s0 (State.receive s p d er frags) := by
  unfold State.receive
  extract_lets z0 z1 z2 z3
  have h1 : Low s0 z1 := by repeat' first | first | omega | ((simp +zetaDelta only [odKey, bankIdx, bankStatusSub, canIdx, dmaObj, instBase, launchIdx, coreIdx, dmaIdx, logBase, trigIdx] <;> (try split)) <;> omega) | (with_reducible first | assumption | apply State.countRx_low) | dsimp only
  try clear_value z1
  have h2 : Low s0 z2 := by repeat' first | first | omega | ((simp +zetaDelta only [odKey, bankIdx, bankStatusSub, canIdx, dmaObj, instBase, launchIdx, coreIdx, dmaIdx, logBase, trigIdx] <;> (try split)) <;> omega) | (with_reducible first | assumption | apply low_ite | apply State.stat_low | apply State.statAdd_low) | dsimp only
  try clear_value z2
  have h3 : Low s0 z3 := by repeat' first | first | omega | ((simp +zetaDelta only [odKey, bankIdx, bankStatusSub, canIdx, dmaObj, instBase, launchIdx, coreIdx, dmaIdx, logBase, trigIdx] <;> (try split)) <;> omega) | (with_reducible first | assumption | apply State.wakeFrame_low) | dsimp only
  try clear_value z3
  repeat' first | first | omega | ((simp +zetaDelta only [odKey, bankIdx, bankStatusSub, canIdx, dmaObj, instBase, launchIdx, coreIdx, dmaIdx, logBase, trigIdx] <;> (try split)) <;> omega) | (with_reducible first | assumption | apply low_ite | apply State.macControl_low | apply State.rxToSwitch_low) | dsimp only
@[simp] theorem State.setNetSel_low {s0 : State} (s : State) (n conn v : Nat) (hc : Low s0 s) :
    Low s0 (State.setNetSel s n conn v) := by
  unfold State.setNetSel
  repeat' first | first | omega | ((simp +zetaDelta only [odKey, bankIdx, bankStatusSub, canIdx, dmaObj, instBase, launchIdx, coreIdx, dmaIdx, logBase, trigIdx] <;> (try split)) <;> omega) | (with_reducible first | assumption | apply State.setInst_low) | simp only [low_same] | intro _ | dsimp only

end Sys2Proof.Machine
end

