-- ==== Sys2Proof/Laws/Resets.lean ====
section
/-! SUPPORT. What a reset of device reach and the start after it leave (R77–R83, R99). -/

set_option maxRecDepth 4000
set_option linter.all false

namespace Sys2Proof.Machine

theorem State.n_ite (c : Prop) [Decidable c] (a b : State) (i j : Nat) : (if c then a else b).n i j = if c then a.n i j else b.n i j := by
  split <;> rfl

@[simp] theorem State.n_setPps (s : State) (c : Nat) (x : Pps) (i j : Nat) : (s.setPps c x).n i j = s.n i j := rfl

@[simp] theorem State.n_ppsRest (s : State) (k i j : Nat) : (s.ppsRest k).n i j = s.n i j := by
  unfold State.ppsRest; split <;> simp

/-- Losing synchronisation changes only the domain's SYNC and event status (R266). -/
theorem State.n_unsync_ne (s : State) (d : Nat) {i j : Nat} (hr : ¬ routeKey (odKey i j)) (h1 : odKey i j ≠ odKey (0x2100 + d) 5)
    (h2 : odKey i j ≠ odKey (0x2100 + d) 0x10) : (s.unsync d).n i j = s.n i j := by
  unfold State.unsync
  dsimp only
  rw [State.n_foldl]
  · (simp (disch := first | assumption | decide | (unfold odKey at *; omega) | (unfold routeKey odKey at *; omega) | omega) only [State.n_wr_self, State.n_wrD_self, State.n_setBits_self, State.n_clrBits_self, State.n_setBit_self, State.n_event_self, State.n_addW_self, State.n_cnt_self, State.n_cntS_self, State.n_addH_self, State.n_cntH_self, State.n_hold_reason, State.n_hold_pin, State.n_unhold_self, State.n_enter_self, State.n_wr_ne, State.n_wrD_ne, State.n_setBits_ne, State.n_clrBits_ne, State.n_putBits_ne, State.n_setBit_ne, State.n_event_ne, State.n_addW_ne, State.n_cnt_ne, State.n_cntS_ne, State.n_addH_ne, State.n_cntH_ne, State.n_violate_ne, State.n_hold_ne, State.n_unhold_ne, State.n_enter_ne, State.n_errBit_ne, State.n_record, State.n_same])
  · intro s a; split <;> simp

/-- What a start changes: the power-cycle count, each domain's SYNC, the log's own objects, the integrity event (R77, R83, R266). -/
theorem State.n_beginStart_ne (s : State) {i j : Nat} (hr : ¬ routeKey (odKey i j)) (h1 : odKey i j / 256 ≠ 0x2D00)
    (h2 : odKey i j / 256 < 0x2100 ∨ 0x2104 ≤ odKey i j / 256) (h3 : odKey i j ≠ odKey 0x2E00 6) : s.beginStart.n i j = s.n i j := by
  have h4 : odKey i j ≠ odKey 0x2D00 5 := fun e => h1 (by rw [e]; decide)
  have hu : ∀ s : State, ((List.range 4).foldl (fun s d => s.unsync d) s).n i j = s.n i j := by
    intro s
    refine State.n_foldl' (fun s a ha => ?_) s
    have ha := List.mem_range.mp ha
    exact State.n_unsync_ne s a hr (by unfold odKey at *; omega) (by unfold odKey at *; omega)
  unfold State.beginStart
  extract_lets z0 z1 z2 z3 z4 z5 z6 z7 z8
  have e1 : z1.n i j = s.n i j := rfl
  clear_value z1
  have e2 : z2.n i j = s.n i j := by
    show State.n (if _ then _ else _) i j = _
    split <;> simp (disch := first | assumption | decide | (unfold odKey at *; omega) | (unfold routeKey odKey at *; omega) | omega) only [State.n_wr_self, State.n_wrD_self, State.n_setBits_self, State.n_clrBits_self, State.n_setBit_self, State.n_event_self, State.n_addW_self, State.n_cnt_self, State.n_cntS_self, State.n_addH_self, State.n_cntH_self, State.n_hold_reason, State.n_hold_pin, State.n_unhold_self, State.n_enter_self, State.n_wr_ne, State.n_wrD_ne, State.n_setBits_ne, State.n_clrBits_ne, State.n_putBits_ne, State.n_setBit_ne, State.n_event_ne, State.n_addW_ne, State.n_cnt_ne, State.n_cntS_ne, State.n_addH_ne, State.n_cntH_ne, State.n_violate_ne, State.n_hold_ne, State.n_unhold_ne, State.n_enter_ne, State.n_errBit_ne, State.n_record, e1]
  clear_value z2
  have e3 : z3.n i j = s.n i j := (hu z2).trans e2
  clear_value z3
  have e4 : z4.n i j = s.n i j := (State.n_record _ _ _ _ _ h1 hr (by decide)).trans e3
  clear_value z4
  have e5 : z5.n i j = s.n i j := by
    show State.n (if _ then _ else _) i j = _
    split
    · exact e4
    · exact (State.n_record _ _ _ _ _ h1 hr (by decide)).trans e4
  clear_value z5
  have e6 : z6.n i j = s.n i j := by
    show State.n (match z5.pw.tripNote with | some (k, v) => z5.record 0x0905 (body [(k, 2), (v, 2)]) | none => z5) i j = _
    split
    · exact (State.n_record _ _ _ _ _ h1 hr (by decide)).trans e5
    · exact e5
  clear_value z6
  have e7 : z7.n i j = s.n i j := by
    show State.n (if _ then _ else _) i j = _
    split
    · exact e6
    · exact (State.n_event_ne _ _ _ _ _ _ hr h3).trans e6
  exact e7

theorem State.n_tryStart_ne (s : State) {i j : Nat} (hr : ¬ routeKey (odKey i j)) (h1 : odKey i j / 256 ≠ 0x2D00)
    (h2 : odKey i j / 256 < 0x2100 ∨ 0x2104 ≤ odKey i j / 256) (h3 : odKey i j ≠ odKey 0x2E00 6) : s.tryStart.n i j = s.n i j := by
  unfold State.tryStart; split
  · exact s.n_beginStart_ne hr h1 h2 h3
  · rfl

/-- Nothing holds the device in reset and it is not started: the start begins (R79). -/
theorem State.tryStart_pos (s : State) (h : s.heldInReset = false) (h1 : s.pw.starting = false) (h2 : s.dev = 0) :
    s.tryStart = s.beginStart := by
  unfold State.heldInReset at h
  unfold State.tryStart
  simp at h
  rw [if_pos]
  simp [h, h1, h2]

theorem State.tryStart_stays (s : State) (h : s.heldInReset = true) : s.tryStart = s := by
  unfold State.heldInReset at h
  unfold State.tryStart
  rw [if_neg]
  simp at h ⊢
  intro a b c d
  rcases h with ((h | h) | h) | h <;> simp_all

@[simp] theorem State.ppsRest_pw (s : State) (k : Nat) : (s.ppsRest k).pw = s.pw := by
  unfold State.ppsRest; split <;> rfl

@[simp] theorem State.unsync_pw (s : State) (d : Nat) : (s.unsync d).pw = s.pw := by
  unfold State.unsync
  dsimp only
  rw [foldl_pw]
  · simp
  · intro s a; split <;> simp

/-- A start leaves the power state but for what it records (R77, R83). -/
theorem State.pw_beginStart (s : State) : s.beginStart.pw =
    { s.pw with starting := true, tripNote := none, integrityNote := 0, causes := 0, failAddr := 0 } := by
  have hu : ∀ (l : List Nat) (s : State), (l.foldl (fun s d => s.unsync d) s).pw = s.pw := by
    intro l
    induction l with
    | nil => intro s; rfl
    | cons a l ih => intro s; rw [List.foldl_cons, ih, State.unsync_pw]
  unfold State.beginStart
  extract_lets z0 z1 z2 z3 z4 z5 z6 z7 z8
  have e1 : z1.pw = { s.pw with starting := true } := rfl
  clear_value z1
  have e2 : z2.pw = z1.pw := by simp only [z2]; split <;> simp
  clear_value z2
  have e3 : z3.pw = z1.pw := by simp only [z3]; rw [hu, e2]
  clear_value z3
  have e4 : z4.pw = z1.pw := by simp only [z4]; simp [e3]
  clear_value z4
  have e5 : z5.pw = z1.pw := by simp only [z5]; split <;> simp [e4]
  clear_value z5
  have e6 : z6.pw = z1.pw := by simp only [z6]; split <;> simp [e5]
  clear_value z6
  have e7 : z7.pw = z1.pw := by simp only [z7]; split <;> simp [e6]
  simp only [z8, e7, e1]
  rfl

@[simp] theorem State.starting_beginStart (s : State) : s.beginStart.pw.starting = true := by rw [State.pw_beginStart]

/-- Whether a start begins or not, the supplies, the pin and the thermal hold stay. -/
theorem State.pw_tryStart (s : State) : s.tryStart.pw.aonGood = s.pw.aonGood ∧ s.tryStart.pw.coreGood = s.pw.coreGood ∧
    s.tryStart.pw.resetPin = s.pw.resetPin ∧ s.tryStart.pw.thermalHeld = s.pw.thermalHeld := by
  unfold State.tryStart
  split
  · rw [State.pw_beginStart]; exact ⟨rfl, rfl, rfl, rfl⟩
  · exact ⟨rfl, rfl, rfl, rfl⟩

theorem State.n_showLibrary_ne (s : State) {i j : Nat} (h1 : odKey i j ≠ odKey 0x2480 1) (h2 : odKey i j ≠ odKey 0x2480 2) :
    s.showLibrary.n i j = s.n i j := by
  unfold State.showLibrary
  extract_lets l best
  (simp (disch := first | assumption | decide | (unfold odKey at *; omega) | (unfold routeKey odKey at *; omega) | omega) only [State.n_wr_self, State.n_wrD_self, State.n_setBits_self, State.n_clrBits_self, State.n_setBit_self, State.n_event_self, State.n_addW_self, State.n_cnt_self, State.n_cntS_self, State.n_addH_self, State.n_cntH_self, State.n_hold_reason, State.n_hold_pin, State.n_unhold_self, State.n_enter_self, State.n_wr_ne, State.n_wrD_ne, State.n_setBits_ne, State.n_clrBits_ne, State.n_putBits_ne, State.n_setBit_ne, State.n_event_ne, State.n_addW_ne, State.n_cnt_ne, State.n_cntS_ne, State.n_addH_ne, State.n_cntH_ne, State.n_violate_ne, State.n_hold_ne, State.n_unhold_ne, State.n_enter_ne, State.n_errBit_ne, State.n_record, State.n_same])

/-- Objects after a reset (R99): one that MRAM, AON or a warm reset keeps holds its value, every other is at its default. -/
theorem State.n_wiped (s : State) (r : Nat) {i j : Nat} (h1 : odKey i j ≠ odKey 0x2001 2) (h2 : odKey i j ≠ odKey 0x1001 0)
    (h3 : odKey i j ≠ odKey 0x2480 1) (h4 : odKey i j ≠ odKey 0x2480 2) :
    (s.wiped r).n i j = if odKept r (odKey i j) then s.n i j else (odDefault (odKey i j)).toNat := by
  unfold State.wiped
  extract_lets q0 t0 t1 keep
  rw [State.n_showLibrary_ne _ h3 h4, State.n_errBit_ne _ _ _ h2, State.n_wr_ne _ _ h1]
  have e : t1.n i j = t0.n i j := by
    simp only [t1]
    rw [State.n_foldl]
    intro s a; split <;> simp
  rw [e]
  show (tblGet odDefault (odKey i j) (tblKeep (odKept r) s.od)).toNat = _
  rw [tblGet_keep]
  split <;> rfl

/-- Hold reasons after a reset: STARTUP, and INTEGRITY and THERMAL where the reset keeps them, and SUPPLY while a supply is out
(R76, R78). -/
theorem State.reasons_wiped (s : State) (r : Nat) : (s.wiped r).n 0x2001 2 =
    1 + ((if r = 0 then 0 else s.n 0x2001 2 &&& 0x84) + (if s.n 0x2E10 0x10 = 0 then 0 else 0x40)) := by
  unfold State.wiped
  extract_lets q0 t0 t1 keep
  rw [State.n_showLibrary_ne _ (by decide) (by decide), State.n_errBit_ne _ _ _ (by decide), State.n_wr_self]
  have : s.n 0x2001 2 &&& 0x84 ≤ 0x84 := Nat.and_le_right
  refine Nat.mod_eq_of_lt ?_
  simp only [keep]
  split <;> split <;> omega

theorem State.byte_wiped (s : State) (r a : Nat) : (s.wiped r).byte a = if memKept r a then s.byte a else memDefault a := by
  unfold State.wiped
  extract_lets q0 t0 t1 keep
  have e1 : t1.mem = t0.mem := by
    simp only [t1]
    rw [foldl_mem]
    intro s a; split <;> rfl
  have e2 : (((t1.wr 0x2001 2 (1 + keep)).errBit 2 (decide (s.n 0x2E10 0x10 ≠ 0))).showLibrary).mem = t0.mem := by
    simp [e1]
  unfold State.byte
  rw [e2]
  show tblGet memDefault a (tblKeep (memKept r) s.mem) = _
  rw [tblGet_keep]

/-- Power after a reset: what a supply, the pin, the thermal hold and the causes hold stays; the start has not begun. -/
theorem State.pw_wiped (s : State) (r : Nat) : (s.wiped r).pw =
    { aonGood := s.pw.aonGood, coreGood := s.pw.coreGood, resetPin := s.pw.resetPin
      thermalHeld := s.pw.thermalHeld, tripNote := s.pw.tripNote, integrityNote := s.pw.integrityNote
      vddio := s.pw.vddio, vddioClass := if r = 2 then s.pw.vddioClass else []
      causes := s.pw.causes, failAddr := s.pw.failAddr, cold := s.pw.cold } := by
  unfold State.wiped
  extract_lets q0 t0 t1 keep
  have e1 : t1.pw = t0.pw := by
    simp only [t1]
    rw [foldl_pw]
    intro s a; split <;> rfl
  have e2 : (((t1.wr 0x2001 2 (1 + keep)).errBit 2 (decide (s.n 0x2E10 0x10 ≠ 0))).showLibrary).pw = t0.pw := by
    rw [← e1]
    unfold State.showLibrary
    extract_lets
    simp
  rw [e2]

theorem State.eng_wiped (s : State) (r : Nat) : (s.wiped r).eng = [] := by
  unfold State.wiped
  extract_lets q0 t0 t1 keep
  have e1 : t1.eng = t0.eng := by
    simp only [t1]
    rw [foldl_eng]
    intro s a; split <;> rfl
  have e2 : (((t1.wr 0x2001 2 (1 + keep)).errBit 2 (decide (s.n 0x2E10 0x10 ≠ 0))).showLibrary).eng = t0.eng := by
    rw [← e1]
    unfold State.showLibrary
    extract_lets
    simp
  rw [e2]
  rfl

/-- Every start leaves what the reset left, apart from the log, the domains' SYNC and the integrity event. -/
theorem afterReset_tryStart (s x : State) (r c : Nat) (h : AfterReset s x r c) : AfterReset s x.tryStart r c := by
  have ne : ∀ i j, ¬ routeKey (odKey i j) → odKey i j / 256 ≠ 0x2D00 → (odKey i j / 256 < 0x2100 ∨ 0x2104 ≤ odKey i j / 256) →
      odKey i j ≠ odKey 0x2E00 6 → x.tryStart.n i j = x.n i j := fun i j a b c d => x.n_tryStart_ne a b c d
  have hb : ∀ a, x.tryStart.byte a = x.byte a := fun a => State.byte_congr _ (State.tryStart_mem x) a
  obtain ⟨h1, h2, h3, h4, h5, h6, h7, h8, h9⟩ := h
  refine ⟨?_, ?_, ?_, ?_, ?_, ?_, ?_, ?_, ?_⟩
  · unfold State.dev at *; rw [ne _ _ (by decide) (by decide) (by decide) (by decide)]; exact h1
  · rw [ne _ _ (by decide) (by decide) (by decide) (by decide)]; exact h2
  · unfold State.bit at *; rw [ne _ _ (by decide) (by decide) (by decide) (by decide)]; exact h3
  · rw [ne _ _ (by decide) (by decide) (by decide) (by decide)]; exact h4
  · intro e he
    rw [ne _ _ (by unfold routeKey odKey; omega) (by unfold odKey; omega) (by unfold odKey; omega) (by unfold odKey; omega)]
    exact h5 e he
  · intro a ha hb'; rw [hb]; exact h6 a ha hb'
  · intro a ha hb'; rw [hb]; exact h7 a ha hb'
  · intro a ha; rw [hb]; exact h8 a ha
  · intro k hk hk'
    rw [ne _ _ (by unfold routeKey odKey; omega) (by unfold odKey; omega) (by unfold odKey; omega) (by unfold odKey; omega)]
    exact h9 k hk hk'

/-- What a wipe leaves, whatever is then written to the cause objects. -/
theorem afterReset_wiped (s x y : State) (r c : Nat) (hr : r ≤ 2) (hx : x.mem = s.mem)
    (hb : ∀ k, 1 ≤ k → k ≤ 8 → x.n 0x2005 k = s.n 0x2005 k) (hm : y.mem = (x.wiped r).mem)
    (hn : ∀ i j, odKey i j / 256 ≠ 0x2003 → odKey i j ≠ odKey 0x2001 2 → y.n i j = (x.wiped r).n i j)
    (hq : y.bit 0x2001 2 0 = true) (hc : y.n 0x2003 1 = c) : AfterReset s y r c := by
  have hbyte : ∀ a, y.byte a = if memKept r a then s.byte a else memDefault a := by
    intro a
    rw [State.byte_congr _ hm, State.byte_wiped, State.byte_congr _ hx]
  refine ⟨?_, ?_, hq, hc, ?_, ?_, ?_, ?_, ?_⟩
  · unfold State.dev
    rw [hn _ _ (by decide) (by decide), State.n_wiped _ _ (by decide) (by decide) (by decide) (by decide),
      if_neg (by have hr' : r = 0 ∨ r = 1 ∨ r = 2 := by omega
                 rcases hr' with h | h | h <;> subst h <;> decide)]
    decide
  · rw [hn _ _ (by decide) (by decide), State.n_wiped _ _ (by decide) (by decide) (by decide) (by decide),
      if_neg (by have hr' : r = 0 ∨ r = 1 ∨ r = 2 := by omega
                 rcases hr' with h | h | h <;> subst h <;> decide)]
    decide
  · intro e he
    have : ∀ e : Fin 32, (odDefault (odKey (0x2400 + e.val) 1)).toNat = 0 ∧ ∀ r : Fin 3, odKept r.val (odKey (0x2400 + e.val) 1) = false := by
      decide
    have := this ⟨e, he⟩
    rw [hn _ _ (by unfold odKey; omega) (by unfold odKey; omega), State.n_wiped _ _ (by unfold odKey; omega) (by unfold odKey; omega)
      (by unfold odKey; omega) (by unfold odKey; omega), this.2 ⟨r, by omega⟩]
    exact this.1
  · intro a h1 h2
    rw [hbyte, if_pos]
    unfold memKept; simp; omega
  · intro a h1 h2
    rw [hbyte]
    by_cases h : r = 0
    · rw [if_pos h, if_neg (by unfold memKept; simp [h]; omega)]
      unfold memDefault; rw [if_neg (by omega), if_neg (by omega)]
    · rw [if_neg h, if_pos (by unfold memKept; simp [h]; omega)]
  · intro a h1
    rw [hbyte]
    by_cases h : r = 2
    · rw [if_pos h, if_pos (by unfold memKept inBank; simp [h]; omega)]
    · rw [if_neg h, if_neg (by unfold memKept; simp [h]; omega)]
      unfold memDefault; rw [if_neg (by omega), if_neg (by omega)]
  · intro k h1 h2
    have : ∀ k : Fin 9, 1 ≤ k.val → (odDefault (odKey 0x2005 k.val)).toNat = 0 ∧ odKept 0 (odKey 0x2005 k.val) = false ∧
      odKept 1 (odKey 0x2005 k.val) = true ∧ odKept 2 (odKey 0x2005 k.val) = true := by decide
    have := this ⟨k, by omega⟩ h1
    rw [hn _ _ (by unfold odKey; omega) (by unfold odKey; omega), State.n_wiped _ _ (by unfold odKey; omega) (by unfold odKey; omega)
      (by unfold odKey; omega) (by unfold odKey; omega), hb k h1 h2]
    have hr' : r = 0 ∨ r = 1 ∨ r = 2 := by omega
    rcases hr' with h | h | h <;> subst h <;> simp [this.1, this.2.1, this.2.2.1, this.2.2.2]

/-- A reset from a device that nothing else holds: what it leaves, before and after its start. -/
theorem afterReset_deviceReset (s : State) (code bits : Nat) (f : Power → Power) (h : s.heldInReset = false) (hb : bits < 2 ^ 64)
    (hc : code < 2 ^ 64) : AfterReset s (s.deviceReset code bits f) (reachOf code) code := by
  unfold State.deviceReset
  extract_lets held last cold q x y
  have hl : last = code := by simp only [last, held, h]; simp
  apply afterReset_tryStart
  refine afterReset_wiped s x _ _ _ ?_ rfl (fun _ _ _ => rfl) ?_ ?_ ?_ ?_
  · unfold reachOf; (repeat' split) <;> omega
  · simp only [State.setBits_mem, State.wr_mem, y]
  · intro i j h1 h2
    simp (disch := first | assumption | decide | (unfold odKey at *; omega) | (unfold routeKey odKey at *; omega) | omega) only [State.n_setBits_ne, State.n_wr_ne, y]
  · unfold State.bit
    (simp (disch := first | assumption | decide | (unfold odKey at *; omega) | (unfold routeKey odKey at *; omega) | omega) only [State.n_wr_self, State.n_wrD_self, State.n_setBits_self, State.n_clrBits_self, State.n_setBit_self, State.n_event_self, State.n_addW_self, State.n_cnt_self, State.n_cntS_self, State.n_addH_self, State.n_cntH_self, State.n_hold_reason, State.n_hold_pin, State.n_unhold_self, State.n_enter_self, State.n_wr_ne, State.n_wrD_ne, State.n_setBits_ne, State.n_clrBits_ne, State.n_putBits_ne, State.n_setBit_ne, State.n_event_ne, State.n_addW_ne, State.n_cnt_ne, State.n_cntS_ne, State.n_addH_ne, State.n_cntH_ne, State.n_violate_ne, State.n_hold_ne, State.n_unhold_ne, State.n_enter_ne, State.n_errBit_ne, State.n_record, State.n_same])
    simp only [y, State.reasons_wiped]
    unfold bitOf
    have : x.n 0x2001 2 &&& 0x84 = 2 * ((x.n 0x2001 2 &&& 0x84) / 2) := by
      have := Nat.and_mod_two_pow (a := x.n 0x2001 2) (b := 0x84) (n := 1)
      simp at this
      omega
    simp
    split <;> split <;> omega
  · (simp (disch := first | assumption | decide | (unfold odKey at *; omega) | (unfold routeKey odKey at *; omega) | omega) only [State.n_wr_self, State.n_wrD_self, State.n_setBits_self, State.n_clrBits_self, State.n_setBit_self, State.n_event_self, State.n_addW_self, State.n_cnt_self, State.n_cntS_self, State.n_addH_self, State.n_cntH_self, State.n_hold_reason, State.n_hold_pin, State.n_unhold_self, State.n_enter_self, State.n_wr_ne, State.n_wrD_ne, State.n_setBits_ne, State.n_clrBits_ne, State.n_putBits_ne, State.n_setBit_ne, State.n_event_ne, State.n_addW_ne, State.n_cnt_ne, State.n_cntS_ne, State.n_addH_ne, State.n_cntH_ne, State.n_violate_ne, State.n_hold_ne, State.n_unhold_ne, State.n_enter_ne, State.n_errBit_ne, State.n_record, State.n_same])
    rw [hl]; exact Nat.mod_eq_of_lt hc

theorem bit0_reasons (s : State) (r : Nat) : bitOf ((s.wiped r).n 0x2001 2) 0 = true := by
  rw [State.reasons_wiped]
  unfold bitOf
  have := Nat.and_mod_two_pow (a := s.n 0x2001 2) (b := 0x84) (n := 1)
  simp at this
  simp
  split <;> split <;> omega

theorem afterReset_integrityReset (s : State) (d a : Nat) (h : s.heldInReset = false) (hd : d < 2 ^ 64) :
    AfterReset s (s.integrityReset d a) 2 6 ∧ (s.integrityReset d a).n 0x2003 3 = d ∧ (s.integrityReset d a).bit 0x2001 2 2 = true := by
  unfold State.integrityReset
  extract_lets note held q x last
  have hl : last = 6 := by simp only [last, held, h]; simp
  refine ⟨?_, ?_, ?_⟩
  · apply afterReset_tryStart
    refine afterReset_wiped s x _ _ _ (by decide) rfl (fun _ _ _ => rfl) ?_ ?_ ?_ ?_
    · simp only [State.setBits_mem, State.wr_mem]
    · intro i j h1 h2
      (simp (disch := first | assumption | decide | (unfold odKey at *; omega) | (unfold routeKey odKey at *; omega) | omega) only [State.n_wr_self, State.n_wrD_self, State.n_setBits_self, State.n_clrBits_self, State.n_setBit_self, State.n_event_self, State.n_addW_self, State.n_cnt_self, State.n_cntS_self, State.n_addH_self, State.n_cntH_self, State.n_hold_reason, State.n_hold_pin, State.n_unhold_self, State.n_enter_self, State.n_wr_ne, State.n_wrD_ne, State.n_setBits_ne, State.n_clrBits_ne, State.n_putBits_ne, State.n_setBit_ne, State.n_event_ne, State.n_addW_ne, State.n_cnt_ne, State.n_cntS_ne, State.n_addH_ne, State.n_cntH_ne, State.n_violate_ne, State.n_hold_ne, State.n_unhold_ne, State.n_enter_ne, State.n_errBit_ne, State.n_record, State.n_same])
    · unfold State.bit
      simp (disch := first | assumption | decide | (unfold odKey at *; omega) | (unfold routeKey odKey at *; omega) | omega) only [State.n_wr_self, State.n_wrD_self, State.n_setBits_self, State.n_clrBits_self, State.n_setBit_self, State.n_event_self, State.n_addW_self, State.n_cnt_self, State.n_cntS_self, State.n_addH_self, State.n_cntH_self, State.n_hold_reason, State.n_hold_pin, State.n_unhold_self, State.n_enter_self, State.n_wr_ne, State.n_wrD_ne, State.n_setBits_ne, State.n_clrBits_ne, State.n_putBits_ne, State.n_setBit_ne, State.n_event_ne, State.n_addW_ne, State.n_cnt_ne, State.n_cntS_ne, State.n_addH_ne, State.n_cntH_ne, State.n_violate_ne, State.n_hold_ne, State.n_unhold_ne, State.n_enter_ne, State.n_errBit_ne, State.n_record, bitOf_or, bit0_reasons]
      rfl
    · (simp (disch := first | assumption | decide | (unfold odKey at *; omega) | (unfold routeKey odKey at *; omega) | omega) only [State.n_wr_self, State.n_wrD_self, State.n_setBits_self, State.n_clrBits_self, State.n_setBit_self, State.n_event_self, State.n_addW_self, State.n_cnt_self, State.n_cntS_self, State.n_addH_self, State.n_cntH_self, State.n_hold_reason, State.n_hold_pin, State.n_unhold_self, State.n_enter_self, State.n_wr_ne, State.n_wrD_ne, State.n_setBits_ne, State.n_clrBits_ne, State.n_putBits_ne, State.n_setBit_ne, State.n_event_ne, State.n_addW_ne, State.n_cnt_ne, State.n_cntS_ne, State.n_addH_ne, State.n_cntH_ne, State.n_violate_ne, State.n_hold_ne, State.n_unhold_ne, State.n_enter_ne, State.n_errBit_ne, State.n_record, State.n_same])
      rw [hl]; try rfl
  · rw [State.n_tryStart_ne _ (by decide) (by decide) (by decide) (by decide)]
    (simp (disch := first | assumption | decide | (unfold odKey at *; omega) | (unfold routeKey odKey at *; omega) | omega) only [State.n_wr_self, State.n_wrD_self, State.n_setBits_self, State.n_clrBits_self, State.n_setBit_self, State.n_event_self, State.n_addW_self, State.n_cnt_self, State.n_cntS_self, State.n_addH_self, State.n_cntH_self, State.n_hold_reason, State.n_hold_pin, State.n_unhold_self, State.n_enter_self, State.n_wr_ne, State.n_wrD_ne, State.n_setBits_ne, State.n_clrBits_ne, State.n_putBits_ne, State.n_setBit_ne, State.n_event_ne, State.n_addW_ne, State.n_cnt_ne, State.n_cntS_ne, State.n_addH_ne, State.n_cntH_ne, State.n_violate_ne, State.n_hold_ne, State.n_unhold_ne, State.n_enter_ne, State.n_errBit_ne, State.n_record, State.n_same])
    exact Nat.mod_eq_of_lt hd
  · unfold State.bit
    rw [State.n_tryStart_ne _ (by decide) (by decide) (by decide) (by decide)]
    simp (disch := first | assumption | decide | (unfold odKey at *; omega) | (unfold routeKey odKey at *; omega) | omega) only [State.n_wr_self, State.n_wrD_self, State.n_setBits_self, State.n_clrBits_self, State.n_setBit_self, State.n_event_self, State.n_addW_self, State.n_cnt_self, State.n_cntS_self, State.n_addH_self, State.n_cntH_self, State.n_hold_reason, State.n_hold_pin, State.n_unhold_self, State.n_enter_self, State.n_wr_ne, State.n_wrD_ne, State.n_setBits_ne, State.n_clrBits_ne, State.n_putBits_ne, State.n_setBit_ne, State.n_event_ne, State.n_addW_ne, State.n_cnt_ne, State.n_cntS_ne, State.n_addH_ne, State.n_cntH_ne, State.n_violate_ne, State.n_hold_ne, State.n_unhold_ne, State.n_enter_ne, State.n_errBit_ne, State.n_record, bitOf_or]
    simp [bitOf]

/-- The power state that a reset of device reach puts in place before anything starts. -/
def resetPower (s : State) (code bits : Nat) (f : Power → Power) : Power :=
  f { s.pw with causes := (if s.heldInReset then s.pw.causes else 0) ||| bits
                cold := decide (reachOf code ≠ 2) || (s.heldInReset && s.pw.cold) }

/-- The device stays in reset while its source lasts. -/
theorem deviceReset_waits (s : State) (code bits : Nat) (f : Power → Power)
    (h : (!(resetPower s code bits f).aonGood || !(resetPower s code bits f).coreGood ||
      decide ((resetPower s code bits f).resetPin = .accepted) || (resetPower s code bits f).thermalHeld) = true) :
    (s.deviceReset code bits f).pw.starting = false ∧
    (s.deviceReset code bits f).pw.aonGood = (resetPower s code bits f).aonGood ∧
    (s.deviceReset code bits f).pw.coreGood = (resetPower s code bits f).coreGood ∧
    (s.deviceReset code bits f).pw.resetPin = (resetPower s code bits f).resetPin ∧
    (s.deviceReset code bits f).pw.thermalHeld = (resetPower s code bits f).thermalHeld := by
  unfold State.deviceReset
  extract_lets held last cold q x y
  have hx : x.pw = resetPower s code bits f := rfl
  have hy : ((y.wr 0x2003 1 last).setBits 0x2003 2 bits).pw = y.pw := by simp
  rw [← hx] at h ⊢
  rw [State.tryStart_stays _ (by unfold State.heldInReset; rw [hy]; simp only [y, State.pw_wiped]; exact h), hy]
  simp only [y, State.pw_wiped]
  exact ⟨trivial, trivial, trivial, trivial, trivial⟩

/-- Otherwise the start begins at once. -/
theorem deviceReset_starts (s : State) (code bits : Nat) (f : Power → Power)
    (h : (!(resetPower s code bits f).aonGood || !(resetPower s code bits f).coreGood ||
      decide ((resetPower s code bits f).resetPin = .accepted) || (resetPower s code bits f).thermalHeld) = false) :
    (s.deviceReset code bits f).pw.starting = true := by
  unfold State.deviceReset
  extract_lets held last cold q x y
  have hx : x.pw = resetPower s code bits f := rfl
  have hy : ((y.wr 0x2003 1 last).setBits 0x2003 2 bits).pw = y.pw := by simp
  rw [← hx] at h
  rw [State.tryStart_pos _ (by unfold State.heldInReset; rw [hy]; simp only [y, State.pw_wiped]; exact h)
    (by rw [hy]; simp only [y, State.pw_wiped])]
  · simp
  · unfold State.dev
    (simp (disch := first | assumption | decide | (unfold odKey at *; omega) | (unfold routeKey odKey at *; omega) | omega) only [State.n_wr_self, State.n_wrD_self, State.n_setBits_self, State.n_clrBits_self, State.n_setBit_self, State.n_event_self, State.n_addW_self, State.n_cnt_self, State.n_cntS_self, State.n_addH_self, State.n_cntH_self, State.n_hold_reason, State.n_hold_pin, State.n_unhold_self, State.n_enter_self, State.n_wr_ne, State.n_wrD_ne, State.n_setBits_ne, State.n_clrBits_ne, State.n_putBits_ne, State.n_setBit_ne, State.n_event_ne, State.n_addW_ne, State.n_cnt_ne, State.n_cntS_ne, State.n_addH_ne, State.n_cntH_ne, State.n_violate_ne, State.n_hold_ne, State.n_unhold_ne, State.n_enter_ne, State.n_errBit_ne, State.n_record, State.n_same])
    have : ∀ r : Fin 3, odKept r.val (odKey 0x2000 1) = false := by decide
    have hr : reachOf code ≤ 2 := by unfold reachOf; (repeat' split) <;> omega
    simp only [y]
    rw [State.n_wiped _ _ (by decide) (by decide) (by decide) (by decide), this ⟨reachOf code, by omega⟩, if_neg Bool.false_ne_true]
    decide

theorem integrityReset_starts (s : State) (d a : Nat) (h : s.heldInReset = false) : (s.integrityReset d a).pw.starting = true := by
  unfold State.integrityReset
  extract_lets note held q x last
  have hy : (((((x.wiped 2).wr 0x2003 1 last).setBits 0x2003 2 0x20).wr 0x2003 3 d).setBits 0x2001 2 4).pw = (x.wiped 2).pw := by simp
  rw [State.tryStart_pos _ (by unfold State.heldInReset; rw [hy]; simp only [State.pw_wiped]; exact h)
    (by rw [hy]; simp only [State.pw_wiped])]
  · simp
  · unfold State.dev
    (simp (disch := first | assumption | decide | (unfold odKey at *; omega) | (unfold routeKey odKey at *; omega) | omega) only [State.n_wr_self, State.n_wrD_self, State.n_setBits_self, State.n_clrBits_self, State.n_setBit_self, State.n_event_self, State.n_addW_self, State.n_cnt_self, State.n_cntS_self, State.n_addH_self, State.n_cntH_self, State.n_hold_reason, State.n_hold_pin, State.n_unhold_self, State.n_enter_self, State.n_wr_ne, State.n_wrD_ne, State.n_setBits_ne, State.n_clrBits_ne, State.n_putBits_ne, State.n_setBit_ne, State.n_event_ne, State.n_addW_ne, State.n_cnt_ne, State.n_cntS_ne, State.n_addH_ne, State.n_cntH_ne, State.n_violate_ne, State.n_hold_ne, State.n_unhold_ne, State.n_enter_ne, State.n_errBit_ne, State.n_record, State.n_same])
    rw [State.n_wiped _ _ (by decide) (by decide) (by decide) (by decide), show odKept 2 (odKey 0x2000 1) = false by decide, if_neg Bool.false_ne_true]
    decide

/-- An unfinished release from reset starts the device and keeps the objects of the causes and of HOLD_N. -/
theorem tryStart_go (s : State) (h : s.heldInReset = false) (h1 : s.pw.starting = false) (h2 : s.dev = 0) :
    s.tryStart.pw.starting = true := by rw [State.tryStart_pos s h h1 h2]; simp

end Sys2Proof.Machine
end

