-- ==== Sys2Proof/Laws/Held.lean ====
section
/-! SUPPORT. Every operation keeps the rule of HOLD_N (R73): the pin is high only while no hold reason is set. One lemma per
operation; most follow from Laws/Low.lean. -/

namespace Sys2Proof.Machine
set_option maxRecDepth 4000
set_option linter.all false

/-- If `s0` obeys the rule of HOLD_N, so does `s`. -/
structure Held (s0 s : State) : Prop where
  keeps : s0.HoldRule → s.HoldRule

theorem held_refl (s : State) : Held s s := ⟨id⟩

theorem held_same {s0 s : State} {x0 x1 x2 x4 x5 x6 x7 x8 x9 x10 x11 x12 x13 x14 x15 x16 x17 x18 x19 x20 x21 x22 x23 x24 x25 x26 x27 x28 x29 x30 x31 x32} : Held s0 (State.mk x0 x1 x2 s.od x4 x5 x6 x7 x8 x9 x10 x11 x12 x13 x14 x15 x16 x17 x18 x19 x20 x21 x22 x23 x24 x25 x26 x27 x28 x29 x30 x31 x32) ↔ Held s0 s := ⟨fun h => ⟨h.keeps⟩, fun h => ⟨h.keeps⟩⟩

/-- What leaves 0x2001 alone keeps the rule. -/
theorem held_low {s0 s t : State} (h : Low s t) (hc : Held s0 s) : Held s0 t := ⟨fun h0 => by
  have h1 := hc.keeps h0
  unfold State.HoldRule State.n State.rd at *
  rw [h.same _ (by decide) (by decide), h.same _ (by decide) (by decide)]
  exact h1⟩

theorem held_od {s0 s : State} {x0 x1 x2 x4 x5 x6 x7 x8 x9 x10 x11 x12 x13 x14 x15 x16 x17 x18 x19 x20 x21 x22 x23 x24 x25 x26 x27 x28 x29 x30 x31 x32} {k : Nat} {v : DWord} (hk : k ≠ 0x2001 * 256 + 1 ∧ k ≠ 0x2001 * 256 + 2) (h : Held s0 s) :
    Held s0 (State.mk x0 x1 x2 (tblSet odDefault k v s.od) x4 x5 x6 x7 x8 x9 x10 x11 x12 x13 x14 x15 x16 x17 x18 x19 x20 x21 x22 x23 x24 x25 x26 x27 x28 x29 x30 x31 x32) := ⟨fun h0 => by
  have h1 := h.keeps h0
  unfold State.HoldRule State.n State.rd at *
  have e1 : odKey 0x2001 1 ≠ k := fun e => hk.1 e.symm
  have e2 : odKey 0x2001 2 ≠ k := fun e => hk.2 e.symm
  show (tblGet odDefault _ (tblSet odDefault k v s.od)).toNat = 1 → (tblGet odDefault _ (tblSet odDefault k v s.od)).toNat = 0
  rw [tblGet_set, tblGet_set, if_neg e1, if_neg e2]
  exact h1⟩

theorem held_foldl {α : Type} {s0 : State} {f : State → α → State} (h : ∀ s a, Held s0 s → Held s0 (f s a)) {l : List α}
    {s : State} (hs : Held s0 s) : Held s0 (l.foldl f s) := by
  induction l generalizing s with
  | nil => exact hs
  | cons x l ih => exact ih (h _ _ hs)

theorem held_ite {s0 : State} {c : Prop} [Decidable c] {a b : State} (ha : Held s0 a) (hb : Held s0 b) :
    Held s0 (if c then a else b) := by
  split <;> assumption

theorem held_ite2 {α : Type} {s0 : State} {c : Prop} [Decidable c] {a b : α × State} (ha : Held s0 a.2) (hb : Held s0 b.2) :
    Held s0 (if c then a else b).2 := by
  split <;> assumption

theorem held_ite3 {α β : Type} {s0 : State} {c : Prop} [Decidable c] {a b : α × β × State} (ha : Held s0 a.2.2)
    (hb : Held s0 b.2.2) : Held s0 (if c then a else b).2.2 := by
  split <;> assumption

theorem held_ite4 {α β γ : Type} {s0 : State} {c : Prop} [Decidable c] {a b : α × β × γ × State} (ha : Held s0 a.2.2.2)
    (hb : Held s0 b.2.2.2) : Held s0 (if c then a else b).2.2.2 := by
  split <;> assumption

theorem held_orElse {α : Type} {a : Option α} {f : Unit → Option α} {t : α} (h : a.orElse f = some t) :
    a = some t ∨ f () = some t := by
  cases a <;> simp_all

/-- Of 0x2001 a path writes only HOLD_RELEASE, HOLD_ACK and HOLD_REQUEST. -/
theorem writeOk_hold (s : State) (p : Path) (i j v : Nat) (hw : s.writeOk p i j v = true)
    (h : odKey i j = odKey 0x2001 1 ∨ odKey i j = odKey 0x2001 2) : i = 0x2001 ∧ j = 1 := by
  unfold State.writeOk at hw
  simp only [Bool.and_eq_true] at hw
  have hw2 := hw.2
  clear hw
  unfold State.rowOf at hw2
  have hi : i ≤ 0x2001 := by unfold odKey at h; omega
  have hp : privInst i j = none := by unfold privInst; rw [if_neg (by omega)]
  have ho : s.instObj i j = none := by unfold State.instObj; rw [if_neg (by omega)]
  rw [hp, ho] at hw2
  simp only [Option.map_none] at hw2
  cases hr : odRow i j with
  | none => rw [hr] at hw2; simp at hw2
  | some r =>
    rw [hr] at hw2
    have hc := List.find?_some hr
    have hm := List.mem_of_find?_eq_some hr
    have hj : r.subHi ≤ 255 := by
      have h10 : ∀ r ∈ odRows10, r.subHi ≤ 255 := by decide
      have h20 : ∀ r ∈ odRows20a ++ odRows20b, r.subHi ≤ 255 := by decide
      unfold odRowsFor at hm
      split at hm <;> first | exact h10 r hm | exact h20 r hm | (exfalso; omega) | skip
      split at hm
      · exfalso; simp at *; omega
      · simp at hm
    have hj2 : j ≤ 255 := by
      simp only [OdRow.covers, Bool.and_eq_true, decide_eq_true_eq] at hc
      omega
    have e : i = 0x2001 ∧ (j = 1 ∨ j = 2) := by unfold odKey at h; omega
    rcases e with ⟨rfl, rfl | rfl⟩
    · exact ⟨rfl, rfl⟩
    · exfalso
      have : ∀ r, odRow 0x2001 2 = some r → r.acc = .ro := by decide
      simp only [State.codeOk, this r hr] at hw2
      simp at hw2

/-- No event status object lies among 0x2001–0x2004. -/
theorem eventStatus_far (r : Nat) (hr : r ≤ 0x2E) : ∀ x ∈ routeSources r, x.1 * 256 + x.2 < 0x2001 * 256 ∨ 0x2005 * 256 ≤ x.1 * 256 := by
  have : ∀ r : Fin 0x2F, (routeSources r.val).all (fun x => x.1 * 256 + x.2 < 0x2001 * 256 || 0x2005 * 256 ≤ x.1 * 256) = true := by
    decide
  have := this ⟨r, by omega⟩
  intro x hx
  simpa using List.all_eq_true.mp this x hx

theorem isEventStatus_far (i j : Nat) (h : isEventStatus i j = true) : i * 256 + j < 0x2001 * 256 ∨ 0x2005 * 256 ≤ i * 256 := by
  unfold isEventStatus at h
  have hr := routeOf_le i
  generalize routeOf i = r at h hr
  exact eventStatus_far r hr (i, j) (List.contains_iff_mem.mp h)

theorem effCore_release (s : State) (p : Path) (v : Nat) : s.effCore p 0x2001 1 v = some (s.holdRelease 0) := by
  have h1 : isEventStatus 0x2001 1 = false := by decide
  have h2 : s.effCommon p 0x2001 1 v = none := by unfold State.effCommon; rw [h1]; rfl
  have h3 : s.effMbox 0x2001 1 v = none := rfl
  have h4 : s.effEngine p 0x2001 1 v = none := rfl
  have h5 : s.effPower p 0x2001 1 v = some (s.holdRelease 0) := rfl
  unfold State.effCore
  rw [h2, h3, h4, h5]
  rfl

theorem ite_some {c : Prop} [Decidable c] {a b : Option State} {t : State} (h : (if c then a else b) = some t) :
    (c ∧ a = some t) ∨ (¬ c ∧ b = some t) := by
  split at h
  · exact Or.inl ⟨‹_›, h⟩
  · exact Or.inr ⟨‹_›, h⟩

/-! ### One lemma per operation -/

@[simp] theorem State.wr_held {s0 : State} (s : State) (i j v : Nat) (hk : odKey i j ≠ 0x2001 * 256 + 1 ∧ odKey i j ≠ 0x2001 * 256 + 2) (hc : Held s0 s) :
    Held s0 (State.wr s i j v) := by
  unfold State.wr
  repeat' first | (first | omega | ((simp +zetaDelta only [odKey, bankIdx, bankStatusSub, canIdx, dmaObj, instBase, launchIdx, coreIdx, dmaIdx, logBase, trigIdx] <;> (try split)) <;> omega)) | (with_reducible first | assumption | apply held_od) | simp only [held_same] | dsimp only
@[simp] theorem State.wrD_held {s0 : State} (s : State) (i j : Nat) (v : DWord) (hk : odKey i j ≠ 0x2001 * 256 + 1 ∧ odKey i j ≠ 0x2001 * 256 + 2) (hc : Held s0 s) :
    Held s0 (State.wrD s i j v) := by
  unfold State.wrD
  repeat' first | (first | omega | ((simp +zetaDelta only [odKey, bankIdx, bankStatusSub, canIdx, dmaObj, instBase, launchIdx, coreIdx, dmaIdx, logBase, trigIdx] <;> (try split)) <;> omega)) | (with_reducible first | assumption | apply held_od) | simp only [held_same] | dsimp only
@[simp] theorem State.setBits_held {s0 : State} (s : State) (i j m : Nat) (hk : odKey i j ≠ 0x2001 * 256 + 1 ∧ odKey i j ≠ 0x2001 * 256 + 2) (hc : Held s0 s) :
    Held s0 (State.setBits s i j m) := by
  unfold State.setBits
  repeat' first | (first | omega | ((simp +zetaDelta only [odKey, bankIdx, bankStatusSub, canIdx, dmaObj, instBase, launchIdx, coreIdx, dmaIdx, logBase, trigIdx] <;> (try split)) <;> omega)) | (with_reducible first | assumption | apply State.wr_held) | dsimp only
@[simp] theorem State.clrBits_held {s0 : State} (s : State) (i j m : Nat) (hk : odKey i j ≠ 0x2001 * 256 + 1 ∧ odKey i j ≠ 0x2001 * 256 + 2) (hc : Held s0 s) :
    Held s0 (State.clrBits s i j m) := by
  unfold State.clrBits
  repeat' first | (first | omega | ((simp +zetaDelta only [odKey, bankIdx, bankStatusSub, canIdx, dmaObj, instBase, launchIdx, coreIdx, dmaIdx, logBase, trigIdx] <;> (try split)) <;> omega)) | (with_reducible first | assumption | apply State.wr_held) | dsimp only
@[simp] theorem State.putBits_held {s0 : State} (s : State) (i j m : Nat) (on : Bool) (hk : odKey i j ≠ 0x2001 * 256 + 1 ∧ odKey i j ≠ 0x2001 * 256 + 2) (hc : Held s0 s) :
    Held s0 (State.putBits s i j m on) := by
  unfold State.putBits
  repeat' first | (first | omega | ((simp +zetaDelta only [odKey, bankIdx, bankStatusSub, canIdx, dmaObj, instBase, launchIdx, coreIdx, dmaIdx, logBase, trigIdx] <;> (try split)) <;> omega)) | (with_reducible first | assumption | apply held_ite | apply State.clrBits_held | apply State.setBits_held) | dsimp only
@[simp] theorem State.setBit_held {s0 : State} (s : State) (i j b : Nat) (hk : odKey i j ≠ 0x2001 * 256 + 1 ∧ odKey i j ≠ 0x2001 * 256 + 2) (hc : Held s0 s) :
    Held s0 (State.setBit s i j b) := by
  unfold State.setBit
  repeat' first | (first | omega | ((simp +zetaDelta only [odKey, bankIdx, bankStatusSub, canIdx, dmaObj, instBase, launchIdx, coreIdx, dmaIdx, logBase, trigIdx] <;> (try split)) <;> omega)) | (with_reducible first | assumption | apply State.setBits_held) | dsimp only
@[simp] theorem State.emit_held {s0 : State} (s : State) (o : Out) (hc : Held s0 s) :
    Held s0 (State.emit s o) :=
  held_low (State.emit_low s o (low_refl _)) hc
@[simp] theorem State.tick_held {s0 : State} (s : State) (hc : Held s0 s) :
    Held s0 (State.tick s) :=
  held_low (State.tick_low s (low_refl _)) hc
@[simp] theorem State.setEngine_held {s0 : State} (s : State) (c : Nat) (e : Engine) (hc : Held s0 s) :
    Held s0 (State.setEngine s c e) :=
  held_low (State.setEngine_low s c e (low_refl _)) hc
@[simp] theorem State.setChan_held {s0 : State} (s : State) (c : Nat) (m : Mbox) (hc : Held s0 s) :
    Held s0 (State.setChan s c m) :=
  held_low (State.setChan_low s c m (low_refl _)) hc
@[simp] theorem State.setPort_held {s0 : State} (s : State) (p : Nat) (x : Port) (hc : Held s0 s) :
    Held s0 (State.setPort s p x) :=
  held_low (State.setPort_low s p x (low_refl _)) hc
@[simp] theorem State.msix_held {s0 : State} (s : State) (v : Nat) (hc : Held s0 s) :
    Held s0 (State.msix s v) :=
  held_low (State.msix_low s v (low_refl _)) hc
@[simp] theorem State.evpSet_held {s0 : State} (s : State) (c b : Nat) (hc : Held s0 s) :
    Held s0 (State.evpSet s c b) :=
  held_low (State.evpSet_low s c b (low_refl _)) hc
@[simp] theorem State.notify_held {s0 : State} (s : State) (r : Nat) (hc : Held s0 s) :
    Held s0 (State.notify s r) :=
  held_low (State.notify_low s r (low_refl _)) hc
@[simp] theorem State.route_held {s0 : State} (s : State) (r : Nat) (statusWritten : Bool) (hc : Held s0 s) :
    Held s0 (State.route s r statusWritten) :=
  held_low (State.route_low s r statusWritten (low_refl _)) hc
@[simp] theorem State.event_held {s0 : State} (s : State) (i j m : Nat) (hk : odKey i j ≠ 0x2001 * 256 + 1 ∧ odKey i j ≠ 0x2001 * 256 + 2) (hc : Held s0 s) :
    Held s0 (State.event s i j m) := by
  unfold State.event
  repeat' first | (first | omega | ((simp +zetaDelta only [odKey, bankIdx, bankStatusSub, canIdx, dmaObj, instBase, launchIdx, coreIdx, dmaIdx, logBase, trigIdx] <;> (try split)) <;> omega)) | (with_reducible first | assumption | apply State.route_held | apply State.setBits_held) | dsimp only
@[simp] theorem State.addW_held {s0 : State} (s : State) (i j w k : Nat) (hk : odKey i j ≠ 0x2001 * 256 + 1 ∧ odKey i j ≠ 0x2001 * 256 + 2) (hc : Held s0 s) :
    Held s0 (State.addW s i j w k) := by
  unfold State.addW
  repeat' first | (first | omega | ((simp +zetaDelta only [odKey, bankIdx, bankStatusSub, canIdx, dmaObj, instBase, launchIdx, coreIdx, dmaIdx, logBase, trigIdx] <;> (try split)) <;> omega)) | (with_reducible first | assumption | apply State.wr_held) | dsimp only
@[simp] theorem State.cnt_held {s0 : State} (s : State) (i j : Nat) (hk : odKey i j ≠ 0x2001 * 256 + 1 ∧ odKey i j ≠ 0x2001 * 256 + 2) (hc : Held s0 s) :
    Held s0 (State.cnt s i j) := by
  unfold State.cnt
  repeat' first | (first | omega | ((simp +zetaDelta only [odKey, bankIdx, bankStatusSub, canIdx, dmaObj, instBase, launchIdx, coreIdx, dmaIdx, logBase, trigIdx] <;> (try split)) <;> omega)) | (with_reducible first | assumption | apply State.addW_held) | dsimp only
@[simp] theorem State.cntS_held {s0 : State} (s : State) (i j : Nat) (hk : odKey i j ≠ 0x2001 * 256 + 1 ∧ odKey i j ≠ 0x2001 * 256 + 2) (hc : Held s0 s) :
    Held s0 (State.cntS s i j) := by
  unfold State.cntS
  repeat' first | (first | omega | ((simp +zetaDelta only [odKey, bankIdx, bankStatusSub, canIdx, dmaObj, instBase, launchIdx, coreIdx, dmaIdx, logBase, trigIdx] <;> (try split)) <;> omega)) | (with_reducible first | assumption | apply State.wr_held) | dsimp only
@[simp] theorem State.addH_held {s0 : State} (s : State) (i j w k ei ej : Nat) (hk : odKey i j ≠ 0x2001 * 256 + 1 ∧ odKey i j ≠ 0x2001 * 256 + 2) (hk2 : odKey ei ej ≠ 0x2001 * 256 + 1 ∧ odKey ei ej ≠ 0x2001 * 256 + 2) (hc : Held s0 s) :
    Held s0 (State.addH s i j w k ei ej) := by
  unfold State.addH
  extract_lets z0 z1 z2
  have h2 : Held s0 z2 := by repeat' first | (first | omega | ((simp +zetaDelta only [odKey, bankIdx, bankStatusSub, canIdx, dmaObj, instBase, launchIdx, coreIdx, dmaIdx, logBase, trigIdx] <;> (try split)) <;> omega)) | (with_reducible first | assumption | apply State.wr_held) | dsimp only
  try clear_value z2
  repeat' first | (first | omega | ((simp +zetaDelta only [odKey, bankIdx, bankStatusSub, canIdx, dmaObj, instBase, launchIdx, coreIdx, dmaIdx, logBase, trigIdx] <;> (try split)) <;> omega)) | (with_reducible first | assumption | apply held_ite | apply State.event_held) | dsimp only
@[simp] theorem State.cntH_held {s0 : State} (s : State) (i j ei ej : Nat) (hk : odKey i j ≠ 0x2001 * 256 + 1 ∧ odKey i j ≠ 0x2001 * 256 + 2) (hk2 : odKey ei ej ≠ 0x2001 * 256 + 1 ∧ odKey ei ej ≠ 0x2001 * 256 + 2) (hc : Held s0 s) :
    Held s0 (State.cntH s i j ei ej) := by
  unfold State.cntH
  repeat' first | (first | omega | ((simp +zetaDelta only [odKey, bankIdx, bankStatusSub, canIdx, dmaObj, instBase, launchIdx, coreIdx, dmaIdx, logBase, trigIdx] <;> (try split)) <;> omega)) | (with_reducible first | assumption | apply State.addH_held) | dsimp only
@[simp] theorem State.setByte_held {s0 : State} (s : State) (a : Nat) (b : Byte) (hc : Held s0 s) :
    Held s0 (State.setByte s a b) :=
  held_low (State.setByte_low s a b (low_refl _)) hc
@[simp] theorem State.setBytes_held {s0 : State} (s : State) (a : Nat) (x0 : List Byte) (hc : Held s0 s) :
    Held s0 (State.setBytes s a x0) :=
  held_low (State.setBytes_low s a x0 (low_refl _)) hc
@[simp] theorem State.setW32_held {s0 : State} (s : State) (a v : Nat) (hc : Held s0 s) :
    Held s0 (State.setW32 s a v) :=
  held_low (State.setW32_low s a v (low_refl _)) hc
@[simp] theorem State.zeroRange_held {s0 : State} (s : State) (lo hi : Nat) (hc : Held s0 s) :
    Held s0 (State.zeroRange s lo hi) :=
  held_low (State.zeroRange_low s lo hi (low_refl _)) hc
@[simp] theorem State.enter_held {s0 : State} (s : State) (st : Nat) (hc : Held s0 s) :
    Held s0 (State.enter s st) :=
  held_low (State.enter_low s st (low_refl _)) hc
@[simp] theorem State.errGeneric_held {s0 : State} (s : State) (hc : Held s0 s) :
    Held s0 (State.errGeneric s) :=
  held_low (State.errGeneric_low s (low_refl _)) hc
@[simp] theorem State.errBit_held {s0 : State} (s : State) (b : Nat) (on : Bool) (hc : Held s0 s) :
    Held s0 (State.errBit s b on) :=
  held_low (State.errBit_low s b on (low_refl _)) hc
theorem State.holdLow_held {s0 : State} (s : State) (hc : Held s0 s) : Held s0 (State.holdLow s) := ⟨fun h0 h1 => by
  rw [State.n_holdLow_pin] at h1
  split at h1 <;> simp_all⟩

@[simp] theorem State.hold_held {s0 : State} (s : State) (m : Nat) (hc : Held s0 s) : Held s0 (State.hold s m) := ⟨fun h0 h1 => by
  rw [State.n_hold_pin] at h1
  split at h1 <;> simp_all⟩

@[simp] theorem State.unhold_held {s0 : State} (s : State) (m : Nat) (hc : Held s0 s) : Held s0 (State.unhold s m) := ⟨fun h0 h1 => by
  rw [State.n_unhold_ne _ _ (by decide)] at h1
  have := hc.keeps h0 h1
  rw [State.n_unhold_self, this]; simp⟩

@[simp] theorem State.violate_held {s0 : State} (s : State) (id : Nat) (hc : Held s0 s) :
    Held s0 (State.violate s id) :=
  held_low (State.violate_low s id (low_refl _)) hc
@[simp] theorem State.showAllowances_held {s0 : State} (s : State) (hc : Held s0 s) :
    Held s0 (State.showAllowances s) :=
  held_low (State.showAllowances_low s (low_refl _)) hc
@[simp] theorem State.admitRec_held {s0 : State} (s : State) (r : Rec) (hc : Held s0 s) :
    Held s0 (State.admitRec s r) :=
  held_low (State.admitRec_low s r (low_refl _)) hc
@[simp] theorem State.record_held {s0 : State} (s : State) (typ : Nat) (body : List Byte) (hc : Held s0 s) :
    Held s0 (State.record s typ body) :=
  held_low (State.record_low s typ body (low_refl _)) hc
@[simp] theorem State.setTdom_held {s0 : State} (s : State) (d : Nat) (x : TimeDom) (hc : Held s0 s) :
    Held s0 (State.setTdom s d x) :=
  held_low (State.setTdom_low s d x (low_refl _)) hc
@[simp] theorem State.setLaunch_held {s0 : State} (s : State) (k : Nat) (x : Launch) (hc : Held s0 s) :
    Held s0 (State.setLaunch s k x) :=
  held_low (State.setLaunch_low s k x (low_refl _)) hc
@[simp] theorem State.setDomVal_held {s0 : State} (s : State) (d v : Nat) (hc : Held s0 s) :
    Held s0 (State.setDomVal s d v) :=
  held_low (State.setDomVal_low s d v (low_refl _)) hc
@[simp] theorem State.domAdvance_held {s0 : State} (s : State) (d k : Nat) (hc : Held s0 s) :
    Held s0 (State.domAdvance s d k) :=
  held_low (State.domAdvance_low s d k (low_refl _)) hc
@[simp] theorem State.advance_held {s0 : State} (s : State) (k : Nat) (hc : Held s0 s) :
    Held s0 (State.advance s k) :=
  held_low (State.advance_low s k (low_refl _)) hc
@[simp] theorem State.setRing_held {s0 : State} (s : State) (n : Nat) (x : Ring) (hc : Held s0 s) :
    Held s0 (State.setRing s n x) :=
  held_low (State.setRing_low s n x (low_refl _)) hc
@[simp] theorem State.setTrack_held {s0 : State} (s : State) (t : Nat) (x : Track) (hc : Held s0 s) :
    Held s0 (State.setTrack s t x) :=
  held_low (State.setTrack_low s t x (low_refl _)) hc
@[simp] theorem State.locusEvent_held {s0 : State} (s : State) (b : Nat) (hc : Held s0 s) :
    Held s0 (State.locusEvent s b) :=
  held_low (State.locusEvent_low s b (low_refl _)) hc
@[simp] theorem State.swapCancel_held {s0 : State} (s : State) (hc : Held s0 s) :
    Held s0 (State.swapCancel s) :=
  held_low (State.swapCancel_low s (low_refl _)) hc
@[simp] theorem State.swapLeave_held {s0 : State} (s : State) (t : Nat) (hc : Held s0 s) : Held s0 (State.swapLeave s t) :=
  held_low (State.swapLeave_low s t (low_refl _)) hc
@[simp] theorem State.swapUntie_held {s0 : State} (s : State) (n : Nat) (hc : Held s0 s) :
    Held s0 (State.swapUntie s n) :=
  held_low (State.swapUntie_low s n (low_refl _)) hc
@[simp] theorem State.setInst_held {s0 : State} (s : State) (n : Nat) (x : Inst) (hc : Held s0 s) :
    Held s0 (State.setInst s n x) :=
  held_low (State.setInst_low s n x (low_refl _)) hc
@[simp] theorem State.instFault_held {s0 : State} (s : State) (e : Nat) (hc : Held s0 s) :
    Held s0 (State.instFault s e) :=
  held_low (State.instFault_low s e (low_refl _)) hc
@[simp] theorem State.chordLoss_held {s0 : State} (s : State) (p : Nat) (hc : Held s0 s) :
    Held s0 (State.chordLoss s p) :=
  held_low (State.chordLoss_low s p (low_refl _)) hc
@[simp] theorem State.chordBack_held {s0 : State} (s : State) (p : Nat) (hc : Held s0 s) :
    Held s0 (State.chordBack s p) :=
  held_low (State.chordBack_low s p (low_refl _)) hc
@[simp] theorem State.guard_held {s0 : State} (s : State) (p : Path) (i j v : Nat) (f : State → State) (hf : ∀ s, Held s0 s → Held s0 (f s)) (hc : Held s0 s) :
    Held s0 (State.guard s p i j v f) := by
  unfold State.guard
  repeat' first | (first | omega | ((simp +zetaDelta only [odKey, bankIdx, bankStatusSub, canIdx, dmaObj, instBase, launchIdx, coreIdx, dmaIdx, logBase, trigIdx] <;> (try split)) <;> omega)) | (with_reducible first | assumption | apply held_ite | apply State.violate_held | apply hf) | intro _ | dsimp only
@[simp] theorem State.mboxServe_held {s0 : State} (s : State) (c : Nat) (was : Word) (again : Bool) (hc : Held s0 s) :
    Held s0 (State.mboxServe s c was again) :=
  held_low (State.mboxServe_low s c was again (low_refl _)) hc
@[simp] theorem State.lockRead_held {s0 : State} (s : State) (c m : Nat) (hc : Held s0 s) :
    Held s0 (State.lockRead s c m).2 :=
  held_low (State.lockRead_low s c m (low_refl _)) hc
@[simp] theorem State.lockFree_held {s0 : State} (s : State) (c : Nat) (hc : Held s0 s) :
    Held s0 (State.lockFree s c) :=
  held_low (State.lockFree_low s c (low_refl _)) hc
@[simp] theorem State.post_held {s0 : State} (s : State) (c : Nat) (bits : Word) (len : Nat) (hc : Held s0 s) :
    Held s0 (State.post s c bits len) :=
  held_low (State.post_low s c bits len (low_refl _)) hc
@[simp] theorem State.dbRead_held {s0 : State} (s : State) (c : Nat) (hc : Held s0 s) :
    Held s0 (State.dbRead s c).2 :=
  held_low (State.dbRead_low s c (low_refl _)) hc
@[simp] theorem State.dbClear_held {s0 : State} (s : State) (c : Nat) (v : Word) (hc : Held s0 s) :
    Held s0 (State.dbClear s c v) :=
  held_low (State.dbClear_low s c v (low_refl _)) hc
@[simp] theorem State.maskWrite_held {s0 : State} (s : State) (c : Nat) (v : Word) (hc : Held s0 s) :
    Held s0 (State.maskWrite s c v) :=
  held_low (State.maskWrite_low s c v (low_refl _)) hc
@[simp] theorem State.composeStart_held {s0 : State} (s : State) (c : Nat) (hc : Held s0 s) :
    Held s0 (State.composeStart s c) :=
  held_low (State.composeStart_low s c (low_refl _)) hc
@[simp] theorem State.lockReleaseReset_held {s0 : State} (s : State) (c : Nat) (hc : Held s0 s) :
    Held s0 (State.lockReleaseReset s c) :=
  held_low (State.lockReleaseReset_low s c (low_refl _)) hc
@[simp] theorem State.ownerReset_held {s0 : State} (s : State) (c : Nat) (hc : Held s0 s) :
    Held s0 (State.ownerReset s c) :=
  held_low (State.ownerReset_low s c (low_refl _)) hc
@[simp] theorem State.receiverReset_held {s0 : State} (s : State) (c : Nat) (hc : Held s0 s) :
    Held s0 (State.receiverReset s c) :=
  held_low (State.receiverReset_low s c (low_refl _)) hc
@[simp] theorem State.masterReset_held {s0 : State} (s : State) (m : Nat) (hc : Held s0 s) :
    Held s0 (State.masterReset s m) :=
  held_low (State.masterReset_low s m (low_refl _)) hc
@[simp] theorem State.pathReset_held {s0 : State} (s : State) (m : Nat) (hc : Held s0 s) :
    Held s0 (State.pathReset s m) :=
  held_low (State.pathReset_low s m (low_refl _)) hc
@[simp] theorem State.countOverruns_held {s0 : State} (s : State) (e k : Nat) (hc : Held s0 s) :
    Held s0 (State.countOverruns s e k) :=
  held_low (State.countOverruns_low s e k (low_refl _)) hc
@[simp] theorem State.laneReceive_held {s0 : State} (s : State) (e : Nat) (first : Option (Word × BitVec 2)) (nibs : List Nib) (last : Option (BitVec 3)) (hc : Held s0 s) :
    Held s0 (State.laneReceive s e first nibs last) :=
  held_low (State.laneReceive_low s e first nibs last (low_refl _)) hc
@[simp] theorem State.laneSend_held {s0 : State} (s : State) (e : Nat) (d : List Byte) (stomp : Bool) (hc : Held s0 s) :
    Held s0 (State.laneSend s e d stomp) :=
  held_low (State.laneSend_low s e d stomp (low_refl _)) hc
@[simp] theorem State.settleTx_held {s0 : State} (s : State) (e : Nat) (hc : Held s0 s) :
    Held s0 (State.settleTx s e) :=
  held_low (State.settleTx_low s e (low_refl _)) hc
@[simp] theorem State.txUnderrun_held {s0 : State} (s : State) (e : Nat) (hc : Held s0 s) :
    Held s0 (State.txUnderrun s e) :=
  held_low (State.txUnderrun_low s e (low_refl _)) hc
@[simp] theorem State.endLaneFrames_held {s0 : State} (s : State) (e : Nat) (hc : Held s0 s) :
    Held s0 (State.endLaneFrames s e) :=
  held_low (State.endLaneFrames_low s e (low_refl _)) hc
@[simp] theorem State.noteBlockReset_held {s0 : State} (s : State) (master kind unit reason : Nat) (hc : Held s0 s) :
    Held s0 (State.noteBlockReset s master kind unit reason) := by
  unfold State.noteBlockReset
  repeat' first | (first | omega | ((simp +zetaDelta only [odKey, bankIdx, bankStatusSub, canIdx, dmaObj, instBase, launchIdx, coreIdx, dmaIdx, logBase, trigIdx] <;> (try split)) <;> omega)) | (with_reducible first | assumption | apply held_ite | apply State.cnt_held | apply State.hold_held | apply State.record_held | apply State.setBit_held | apply held_ite2 | apply held_ite3 | apply held_ite4) | dsimp only
@[simp] theorem State.dropSubs_held {s0 : State} (s : State) (i lo hi : Nat) (hk : odKey i hi + 1 ≤ 0x2001 * 256 ∨ 0x2005 * 256 ≤ odKey i lo) (hc : Held s0 s) :
    Held s0 (State.dropSubs s i lo hi) :=
  held_low (State.dropSubs_low _ i lo hi hk (low_refl _)) hc
@[simp] theorem State.clearEngine_held {s0 : State} (s : State) (e cause : Nat) (hc : Held s0 s) :
    Held s0 (State.clearEngine s e cause) :=
  held_low (State.clearEngine_low s e cause (low_refl _)) hc
@[simp] theorem State.engineReset_held {s0 : State} (s : State) (e cause : Nat) (hc : Held s0 s) :
    Held s0 (State.engineReset s e cause) :=
  held_low (State.engineReset_low s e cause (low_refl _)) hc
@[simp] theorem State.facetReset_held {s0 : State} (s : State) (f master reason : Nat) (hc : Held s0 s) :
    Held s0 (State.facetReset s f master reason) := by
  unfold State.facetReset
  extract_lets z0 z1 z2 z3 z4 z5
  have h0 : Held s0 z0 := by repeat' first | (first | omega | ((simp +zetaDelta only [odKey, bankIdx, bankStatusSub, canIdx, dmaObj, instBase, launchIdx, coreIdx, dmaIdx, logBase, trigIdx] <;> (try split)) <;> omega)) | (with_reducible first | assumption | (apply held_foldl; intro _ _ _) | apply State.endLaneFrames_held | apply State.engineReset_held | apply State.setEngine_held) | simp only [held_same] | intro _ | dsimp only
  try clear_value z0
  have h2 : Held s0 z2 := by repeat' first | (first | omega | ((simp +zetaDelta only [odKey, bankIdx, bankStatusSub, canIdx, dmaObj, instBase, launchIdx, coreIdx, dmaIdx, logBase, trigIdx] <;> (try split)) <;> omega)) | (with_reducible first | assumption | apply State.dropSubs_held) | dsimp only
  try clear_value z2
  have h3 : Held s0 z3 := by repeat' first | (first | omega | ((simp +zetaDelta only [odKey, bankIdx, bankStatusSub, canIdx, dmaObj, instBase, launchIdx, coreIdx, dmaIdx, logBase, trigIdx] <;> (try split)) <;> omega)) | (with_reducible first | assumption | apply State.event_held) | dsimp only
  try clear_value z3
  have h4 : Held s0 z4 := by repeat' first | (first | omega | ((simp +zetaDelta only [odKey, bankIdx, bankStatusSub, canIdx, dmaObj, instBase, launchIdx, coreIdx, dmaIdx, logBase, trigIdx] <;> (try split)) <;> omega)) | (with_reducible first | assumption | apply held_ite | apply State.hold_held | apply State.setBits_held) | dsimp only
  try clear_value z4
  have h5 : Held s0 z5 := by repeat' first | (first | omega | ((simp +zetaDelta only [odKey, bankIdx, bankStatusSub, canIdx, dmaObj, instBase, launchIdx, coreIdx, dmaIdx, logBase, trigIdx] <;> (try split)) <;> omega)) | (with_reducible first | assumption | (apply held_foldl; intro _ _ _) | apply State.instFault_held) | intro _ | dsimp only
  try clear_value z5
  repeat' first | (first | omega | ((simp +zetaDelta only [odKey, bankIdx, bankStatusSub, canIdx, dmaObj, instBase, launchIdx, coreIdx, dmaIdx, logBase, trigIdx] <;> (try split)) <;> omega)) | (with_reducible first | assumption | apply State.noteBlockReset_held) | dsimp only
@[simp] theorem State.noteNotOn_held {s0 : State} (s : State) (hc : Held s0 s) :
    Held s0 (State.noteNotOn s) :=
  held_low (State.noteNotOn_low s (low_refl _)) hc
@[simp] theorem State.setDbe_held {s0 : State} (s : State) (a : Nat) (b : Bool) (hc : Held s0 s) :
    Held s0 (State.setDbe s a b) :=
  held_low (State.setDbe_low s a b (low_refl _)) hc
@[simp] theorem State.setSbe_held {s0 : State} (s : State) (a : Nat) (b : Bool) (hc : Held s0 s) :
    Held s0 (State.setSbe s a b) :=
  held_low (State.setSbe_low s a b (low_refl _)) hc
@[simp] theorem State.correct_held {s0 : State} (s : State) (a : Nat) (hc : Held s0 s) :
    Held s0 (State.correct s a) :=
  held_low (State.correct_low s a (low_refl _)) hc
@[simp] theorem State.meetDbe_held {s0 : State} (s : State) (a m : Nat) (hc : Held s0 s) :
    Held s0 (State.meetDbe s a m) := by
  unfold State.meetDbe
  repeat' first | (first | omega | ((simp +zetaDelta only [odKey, bankIdx, bankStatusSub, canIdx, dmaObj, instBase, launchIdx, coreIdx, dmaIdx, logBase, trigIdx] <;> (try split)) <;> omega)) | (with_reducible first | assumption | apply held_ite | apply State.cnt_held | apply State.event_held | apply State.facetReset_held | apply State.record_held | apply State.wr_held) | simp only [held_same] | dsimp only | split
@[simp] theorem State.memRead_held {s0 : State} (s : State) (p : Path) (a n : Nat) (hc : Held s0 s) :
    Held s0 (State.memRead s p a n).2.2 := by
  unfold State.memRead
  extract_lets z0
  repeat' first | (first | omega | ((simp +zetaDelta only [odKey, bankIdx, bankStatusSub, canIdx, dmaObj, instBase, launchIdx, coreIdx, dmaIdx, logBase, trigIdx] <;> (try split)) <;> omega)) | (with_reducible first | assumption | apply held_ite | apply State.correct_held | apply State.meetDbe_held | apply State.tick_held | apply State.violate_held | apply held_ite2 | apply held_ite3 | apply held_ite4) | dsimp only
@[simp] theorem State.originWritten_held {s0 : State} (s : State) (b : Nat) (hc : Held s0 s) :
    Held s0 (State.originWritten s b) :=
  held_low (State.originWritten_low s b (low_refl _)) hc
@[simp] theorem State.memWrite_held {s0 : State} (s : State) (p : Path) (a : Nat) (d : List Byte) (hc : Held s0 s) :
    Held s0 (State.memWrite s p a d) :=
  held_low (State.memWrite_low s p a d (low_refl _)) hc
@[simp] theorem State.atomic_held {s0 : State} (s : State) (p : Path) (a n : Nat) (swap : Bool) (x : Nat) (hc : Held s0 s) :
    Held s0 (State.atomic s p a n swap x).2.2 := by
  unfold State.atomic
  repeat' first | (first | omega | ((simp +zetaDelta only [odKey, bankIdx, bankStatusSub, canIdx, dmaObj, instBase, launchIdx, coreIdx, dmaIdx, logBase, trigIdx] <;> (try split)) <;> omega)) | (with_reducible first | assumption | apply held_ite | apply State.memRead_held | apply State.memWrite_held | apply held_ite2 | apply held_ite3 | apply held_ite4) | dsimp only
@[simp] theorem State.fetchBytes_held {s0 : State} (s : State) (m a n : Nat) (hc : Held s0 s) :
    Held s0 (State.fetchBytes s m a n).2.2 := by
  unfold State.fetchBytes
  extract_lets z0
  clear_value z0
  repeat' first | (with_reducible first | assumption | apply State.meetDbe_held) | simp only [held_same] | dsimp only | split

@[simp] theorem State.bankField_held {s0 : State} (s : State) (b lsb w v : Nat) (hc : Held s0 s) :
    Held s0 (State.bankField s b lsb w v) :=
  held_low (State.bankField_low s b lsb w v (low_refl _)) hc
@[simp] theorem State.bankGo_held {s0 : State} (s : State) (b t : Nat) (hc : Held s0 s) :
    Held s0 (State.bankGo s b t) :=
  held_low (State.bankGo_low s b t (low_refl _)) hc
@[simp] theorem State.bankZero_held {s0 : State} (s : State) (b : Nat) (hc : Held s0 s) : Held s0 (State.bankZero s b) :=
  held_low (State.bankZero_low s b (low_refl _)) hc
@[simp] theorem State.bankRetain_held {s0 : State} (s : State) (b : Nat) (hc : Held s0 s) :
    Held s0 (State.bankRetain s b) :=
  held_low (State.bankRetain_low s b (low_refl _)) hc
@[simp] theorem State.waitFor_held {s0 : State} (s : State) (w : BankWait) (hc : Held s0 s) :
    Held s0 (State.waitFor s w) :=
  held_low (State.waitFor_low s w (low_refl _)) hc
@[simp] theorem State.memBurst_held {s0 : State} (s : State) (p : Path) (a n : Nat) (x0 : Nat) (hc : Held s0 s) :
    Held s0 (State.memBurst s p a n x0).2.2 := by
  induction x0 generalizing s p a n <;> first | (simp_all [State.memBurst]; done) | (unfold State.memBurst; (repeat' split) <;> simp_all)
@[simp] theorem State.memStores_held {s0 : State} (s : State) (p : Path) (a : Nat) (size : Size) (d : List Byte) (x0 : Nat) (hc : Held s0 s) :
    Held s0 (State.memStores s p a size d x0) :=
  held_low (State.memStores_low s p a size d x0 (low_refl _)) hc
@[simp] theorem State.readAnswer_held {s0 : State} (s : State) (p : Path) (d : List Byte) (err : Bool) (hc : Held s0 s) :
    Held s0 (State.readAnswer s p d err) :=
  held_low (State.readAnswer_low s p d err (low_refl _)) hc
@[simp] theorem State.atomicAnswer_held {s0 : State} (s : State) (p : Path) (n : Nat) (r : Nat × Bool) (hc : Held s0 s) :
    Held s0 (State.atomicAnswer s p n r) :=
  held_low (State.atomicAnswer_low s p n r (low_refl _)) hc
@[simp] theorem State.serveWait_held {s0 : State} (s : State) (w : BankWait) (hc : Held s0 s) :
    Held s0 (State.serveWait s w) := by
  unfold State.serveWait
  repeat' first | (first | omega | ((simp +zetaDelta only [odKey, bankIdx, bankStatusSub, canIdx, dmaObj, instBase, launchIdx, coreIdx, dmaIdx, logBase, trigIdx] <;> (try split)) <;> omega)) | (with_reducible first | assumption | apply held_ite | apply State.atomic_held | apply State.atomicAnswer_held | apply State.memBurst_held | apply State.memStores_held | apply State.readAnswer_held | apply held_ite2 | apply held_ite3 | apply held_ite4) | simp only [held_same] | dsimp only | split
@[simp] theorem State.serveWaits_held {s0 : State} (s : State) (b : Nat) (hc : Held s0 s) :
    Held s0 (State.serveWaits s b) := by
  unfold State.serveWaits
  extract_lets z0 z1
  repeat' first | (first | omega | ((simp +zetaDelta only [odKey, bankIdx, bankStatusSub, canIdx, dmaObj, instBase, launchIdx, coreIdx, dmaIdx, logBase, trigIdx] <;> (try split)) <;> omega)) | (with_reducible first | assumption | (apply held_foldl; intro _ _ _) | apply State.serveWait_held) | simp only [held_same] | intro _ | dsimp only
@[simp] theorem State.bankSettled_held {s0 : State} (s : State) (b : Nat) (hc : Held s0 s) :
    Held s0 (State.bankSettled s b) :=
  held_low (State.bankSettled_low s b (low_refl _)) hc
@[simp] theorem State.bankStep_held {s0 : State} (s : State) (b : Nat) (hc : Held s0 s) :
    Held s0 (State.bankStep s b) := by
  unfold State.bankStep
  extract_lets z0 z1
  repeat' first | (first | omega | ((simp +zetaDelta only [odKey, bankIdx, bankStatusSub, canIdx, dmaObj, instBase, launchIdx, coreIdx, dmaIdx, logBase, trigIdx] <;> (try split)) <;> omega)) | (with_reducible first | assumption | apply held_ite | apply State.bankField_held | apply State.bankRetain_held | apply State.bankSettled_held | apply State.bankZero_held | apply State.serveWaits_held) | dsimp only
@[simp] theorem State.doBankPower_held {s0 : State} (s : State) (b v : Nat) (hc : Held s0 s) :
    Held s0 (State.doBankPower s b v) :=
  held_low (State.doBankPower_low s b v (low_refl _)) hc
@[simp] theorem State.wake_held {s0 : State} (s : State) (src : Nat) (hc : Held s0 s) :
    Held s0 (State.wake s src) :=
  held_low (State.wake_low s src (low_refl _)) hc
@[simp] theorem State.setChord_held {s0 : State} (s : State) (d : Nat) (x : Chord) (hc : Held s0 s) :
    Held s0 (State.setChord s d x) :=
  held_low (State.setChord_low s d x (low_refl _)) hc
@[simp] theorem State.stat_held {s0 : State} (s : State) (p j : Nat) (hc : Held s0 s) :
    Held s0 (State.stat s p j) :=
  held_low (State.stat_low s p j (low_refl _)) hc
@[simp] theorem State.statAdd_held {s0 : State} (s : State) (p j w k : Nat) (hc : Held s0 s) :
    Held s0 (State.statAdd s p j w k) :=
  held_low (State.statAdd_low s p j w k (low_refl _)) hc
@[simp] theorem State.portEvent_held {s0 : State} (s : State) (p b : Nat) (hc : Held s0 s) :
    Held s0 (State.portEvent s p b) :=
  held_low (State.portEvent_low s p b (low_refl _)) hc
@[simp] theorem State.countRx_held {s0 : State} (s : State) (p : Nat) (d : List Byte) (r : RxResult) (hc : Held s0 s) : Held s0 (State.countRx s p d r) :=
  held_low (State.countRx_low s p d r (low_refl _)) hc
@[simp] theorem State.beginTx_held {s0 : State} (s : State) (p phase : Nat) (c : TxCur) (hc : Held s0 s) :
    Held s0 (State.beginTx s p phase c) :=
  held_low (State.beginTx_low s p phase c (low_refl _)) hc
@[simp] theorem State.setSw_held {s0 : State} (s : State) (f : Switch → Switch) (hc : Held s0 s) :
    Held s0 (State.setSw s f) :=
  held_low (State.setSw_low s f (low_refl _)) hc
@[simp] theorem State.swCnt_held {s0 : State} (s : State) (j : Nat) (hc : Held s0 s) :
    Held s0 (State.swCnt s j) :=
  held_low (State.swCnt_low s j (low_refl _)) hc
@[simp] theorem State.swEvent_held {s0 : State} (s : State) (b : Nat) (hc : Held s0 s) :
    Held s0 (State.swEvent s b) :=
  held_low (State.swEvent_low s b (low_refl _)) hc
@[simp] theorem State.drop_held {s0 : State} (s : State) (st c : Nat) (hc : Held s0 s) :
    Held s0 (State.drop s st c) :=
  held_low (State.drop_low s st c (low_refl _)) hc
@[simp] theorem State.setQueue_held {s0 : State} (s : State) (st c : Nat) (l : List QEntry) (hc : Held s0 s) :
    Held s0 (State.setQueue s st c l) :=
  held_low (State.setQueue_low s st c l (low_refl _)) hc
@[simp] theorem State.setFrame_held {s0 : State} (s : State) (f : Nat) (x : SwFrame) (hc : Held s0 s) :
    Held s0 (State.setFrame s f x) :=
  held_low (State.setFrame_low s f x (low_refl _)) hc
@[simp] theorem State.setUsed_held {s0 : State} (s : State) (st c u : Nat) (hc : Held s0 s) :
    Held s0 (State.setUsed s st c u) :=
  held_low (State.setUsed_low s st c u (low_refl _)) hc
@[simp] theorem State.writeQueue_held {s0 : State} (s : State) (st c v : Nat) (hc : Held s0 s) :
    Held s0 (State.writeQueue s st c v) :=
  held_low (State.writeQueue_low s st c v (low_refl _)) hc
@[simp] theorem State.setGate_held {s0 : State} (s : State) (p : Nat) (g : GateCtl) (hc : Held s0 s) :
    Held s0 (State.setGate s p g) :=
  held_low (State.setGate_low s p g (low_refl _)) hc
@[simp] theorem State.touchCredit_held {s0 : State} (s : State) (p : Nat) (hc : Held s0 s) :
    Held s0 (State.touchCredit s p) :=
  held_low (State.touchCredit_low s p (low_refl _)) hc
theorem State.takeCell_held {s0 : State} (s : State) {t1} (h : State.takeCell s = some t1) (hc : Held s0 s) :
    Held s0 t1.2 :=
  held_low (State.takeCell_low s h (low_refl _)) hc
@[simp] theorem State.freeCells_held {s0 : State} (s : State) (l : List Nat) (hc : Held s0 s) :
    Held s0 (State.freeCells s l) :=
  held_low (State.freeCells_low s l (low_refl _)) hc
@[simp] theorem State.shareCells_held {s0 : State} (s : State) (d : Int) (hc : Held s0 s) :
    Held s0 (State.shareCells s d) :=
  held_low (State.shareCells_low s d (low_refl _)) hc
@[simp] theorem State.queuePause_held {s0 : State} (s : State) (p c quanta : Nat) (hc : Held s0 s) :
    Held s0 (State.queuePause s p c quanta) :=
  held_low (State.queuePause_low s p c quanta (low_refl _)) hc
@[simp] theorem State.flowControl_held {s0 : State} (s : State) (p c : Nat) (hc : Held s0 s) :
    Held s0 (State.flowControl s p c) :=
  held_low (State.flowControl_low s p c (low_refl _)) hc
@[simp] theorem State.addHeld_held {s0 : State} (s : State) (p c : Nat) (d : Int) (hc : Held s0 s) :
    Held s0 (State.addHeld s p c d) :=
  held_low (State.addHeld_low s p c d (low_refl _)) hc
@[simp] theorem State.storeCells_held {s0 : State} (s : State) (f k : Nat) (d : List Byte) (hc : Held s0 s) : Held s0 (s.storeCells f k d) :=
  held_low (State.storeCells_low s f k d (low_refl _)) hc
@[simp] theorem State.freeFrame_held {s0 : State} (s : State) (f : Nat) (hc : Held s0 s) :
    Held s0 (State.freeFrame s f) :=
  held_low (State.freeFrame_low s f (low_refl _)) hc
@[simp] theorem State.unref_held {s0 : State} (s : State) (f : Nat) (hc : Held s0 s) :
    Held s0 (State.unref s f) :=
  held_low (State.unref_low s f (low_refl _)) hc
@[simp] theorem State.releaseEntry_held {s0 : State} (s : State) (st c : Nat) (e : QEntry) (hc : Held s0 s) :
    Held s0 (State.releaseEntry s st c e) :=
  held_low (State.releaseEntry_low s st c e (low_refl _)) hc
@[simp] theorem State.flushQueue_held {s0 : State} (s : State) (st c : Nat) (hc : Held s0 s) :
    Held s0 (State.flushQueue s st c) :=
  held_low (State.flushQueue_low s st c (low_refl _)) hc
@[simp] theorem State.flushStation_held {s0 : State} (s : State) (st : Nat) (hc : Held s0 s) :
    Held s0 (State.flushStation s st) :=
  held_low (State.flushStation_low s st (low_refl _)) hc
@[simp] theorem State.switchClear_held {s0 : State} (s : State) (hc : Held s0 s) :
    Held s0 (State.switchClear s) :=
  held_low (State.switchClear_low s (low_refl _)) hc
@[simp] theorem State.dropPortFrames_held {s0 : State} (s : State) (p : Nat) (hc : Held s0 s) : Held s0 (State.dropPortFrames s p) :=
  held_low (State.dropPortFrames_low s p (low_refl _)) hc
@[simp] theorem State.setStream_held {s0 : State} (s : State) (h : Nat) (x : Stream) (hc : Held s0 s) :
    Held s0 (State.setStream s h x) :=
  held_low (State.setStream_low s h x (low_refl _)) hc
@[simp] theorem State.halfIf_held {s0 : State} (s : State) (b : Bool) (hc : Held s0 s) :
    Held s0 (State.halfIf s b) :=
  held_low (State.halfIf_low s b (low_refl _)) hc
@[simp] theorem State.setSgate_held {s0 : State} (s : State) (g : Nat) (x : SGate) (hc : Held s0 s) :
    Held s0 (State.setSgate s g x) :=
  held_low (State.setSgate_low s g x (low_refl _)) hc
@[simp] theorem State.setMeter_held {s0 : State} (s : State) (m : Nat) (x : Meter) (hc : Held s0 s) :
    Held s0 (State.setMeter s m x) :=
  held_low (State.setMeter_low s m x (low_refl _)) hc
@[simp] theorem State.metered_held {s0 : State} (s : State) (mi n : Nat) (yellowIn : Bool) (hc : Held s0 s) :
    Held s0 (State.metered s mi n yellowIn).2 :=
  held_low (State.metered_low s mi n yellowIn (low_refl _)) hc
@[simp] theorem State.filterStream_held {s0 : State} (s : State) (h cls n : Nat) (yellowIn : Bool) (hc : Held s0 s) :
    Held s0 (State.filterStream s h cls n yellowIn).2.2 :=
  held_low (State.filterStream_low s h cls n yellowIn (low_refl _)) hc
@[simp] theorem State.setCb_held {s0 : State} (s : State) (h : Nat) (x : Cb) (hc : Held s0 s) :
    Held s0 (State.setCb s h x) :=
  held_low (State.setCb_low s h x (low_refl _)) hc
@[simp] theorem State.recoverStep_held {s0 : State} (s : State) (h : Nat) (d : List Byte) (hc : Held s0 s) :
    Held s0 (State.recoverStep s h d).2 := by
  unfold State.recoverStep
  extract_lets z0
  repeat' first | (first | omega | ((simp +zetaDelta only [odKey, bankIdx, bankStatusSub, canIdx, dmaObj, instBase, launchIdx, coreIdx, dmaIdx, logBase, trigIdx] <;> (try split)) <;> omega)) | (with_reducible first | assumption | apply held_ite | apply State.halfIf_held | apply State.setCb_held | apply held_ite2 | apply held_ite3 | apply held_ite4) | intro _ | dsimp only
@[simp] theorem State.setFdb_held {s0 : State} (s : State) (e : Nat) (x : FdbEntry) (hc : Held s0 s) :
    Held s0 (State.setFdb s e x) :=
  held_low (State.setFdb_low s e x (low_refl _)) hc
@[simp] theorem State.showFdb_held {s0 : State} (s : State) (hc : Held s0 s) :
    Held s0 (State.showFdb s) :=
  held_low (State.showFdb_low s (low_refl _)) hc
@[simp] theorem State.learn_held {s0 : State} (s : State) (p mac vid : Nat) (hc : Held s0 s) :
    Held s0 (State.learn s p mac vid) :=
  held_low (State.learn_low s p mac vid (low_refl _)) hc
@[simp] theorem State.latCnt_held {s0 : State} (s : State) (j : Nat) (hc : Held s0 s) :
    Held s0 (State.latCnt s j) :=
  held_low (State.latCnt_low s j (low_refl _)) hc
@[simp] theorem State.enqueue_held {s0 : State} (s : State) (t : Nat) (e : QEntry) (hc : Held s0 s) :
    Held s0 (State.enqueue s t e) :=
  held_low (State.enqueue_low s t e (low_refl _)) hc
@[simp] theorem State.admitFrame_held {s0 : State} (s : State) (ingress cls n : Nat) (dests : List Nat) (mk : Nat → QEntry) (hc : Held s0 s) :
    Held s0 (State.admitFrame s ingress cls n dests mk).2 :=
  held_low (State.admitFrame_low s ingress cls n dests mk (low_refl _)) hc
@[simp] theorem State.streamSteps_held {s0 : State} (s : State) (ingress cls vid n : Nat) (d : List Byte) (hc : Held s0 s) :
    Held s0 (State.streamSteps s ingress cls vid n d).2 := by
  unfold State.streamSteps
  repeat' first | (first | omega | ((simp +zetaDelta only [odKey, bankIdx, bankStatusSub, canIdx, dmaObj, instBase, launchIdx, coreIdx, dmaIdx, logBase, trigIdx] <;> (try split)) <;> omega)) | (with_reducible first | assumption | apply held_ite | apply State.filterStream_held | apply State.recoverStep_held | apply held_ite2 | apply held_ite3 | apply held_ite4) | simp only [held_same] | dsimp only | split
@[simp] theorem State.cbEgress_held {s0 : State} (s : State) (h : Option Nat) (d : List Byte) (hc : Held s0 s) :
    Held s0 (State.cbEgress s h d).2.2.2.2 :=
  held_low (State.cbEgress_low s h d (low_refl _)) hc
@[simp] theorem State.wayOf_held {s0 : State} (s : State) (ingress cls vid n mask : Nat) (d : List Byte) (filtered : Bool) (hc : Held s0 s) :
    Held s0 (State.wayOf s ingress cls vid n mask d filtered).2 := by
  unfold State.wayOf
  extract_lets z0
  have h0 : Held s0 z0.2 := by repeat' first | (first | omega | ((simp +zetaDelta only [odKey, bankIdx, bankStatusSub, canIdx, dmaObj, instBase, launchIdx, coreIdx, dmaIdx, logBase, trigIdx] <;> (try split)) <;> omega)) | (with_reducible first | assumption | apply held_ite | apply State.streamSteps_held | apply held_ite2 | apply held_ite3 | apply held_ite4) | dsimp only
  try clear_value z0
  repeat' first | (first | omega | ((simp +zetaDelta only [odKey, bankIdx, bankStatusSub, canIdx, dmaObj, instBase, launchIdx, coreIdx, dmaIdx, logBase, trigIdx] <;> (try split)) <;> omega)) | (with_reducible first | assumption | apply held_ite | apply State.cbEgress_held | apply State.swCnt_held | apply held_ite2 | apply held_ite3 | apply held_ite4) | simp only [held_same] | dsimp only | split
@[simp] theorem State.portWay_held {s0 : State} (s : State) (p n : Nat) (d : List Byte) (hc : Held s0 s) :
    Held s0 (State.portWay s p n d).2 := by
  unfold State.portWay
  repeat' first | (first | omega | ((simp +zetaDelta only [odKey, bankIdx, bankStatusSub, canIdx, dmaObj, instBase, launchIdx, coreIdx, dmaIdx, logBase, trigIdx] <;> (try split)) <;> omega)) | (with_reducible first | assumption | apply held_ite | apply State.latCnt_held | apply State.swCnt_held | apply State.wayOf_held | apply held_ite2 | apply held_ite3 | apply held_ite4) | simp only [held_same] | dsimp only | split
@[simp] theorem State.admission_held {s0 : State} (s : State) (p : Nat) (head : List Byte) (ago phase : Nat) (whole : Bool) (hc : Held s0 s) :
    Held s0 (State.admission s p head ago phase whole) := by
  unfold State.admission
  extract_lets z0
  repeat' first | (first | omega | ((simp +zetaDelta only [odKey, bankIdx, bankStatusSub, canIdx, dmaObj, instBase, launchIdx, coreIdx, dmaIdx, logBase, trigIdx] <;> (try split)) <;> omega)) | (with_reducible first | assumption | apply held_ite | apply State.admitFrame_held | apply State.portWay_held | apply State.setFrame_held | apply State.setPort_held | apply held_ite2 | apply held_ite3 | apply held_ite4) | simp only [held_same] | intro _ | dsimp only | split
@[simp] theorem State.returnCharge_held {s0 : State} (s : State) (f n : Nat) (hc : Held s0 s) :
    Held s0 (State.returnCharge s f n) :=
  held_low (State.returnCharge_low s f n (low_refl _)) hc
@[simp] theorem State.unqueue_held {s0 : State} (s : State) (f : Nat) (hc : Held s0 s) :
    Held s0 (State.unqueue s f) :=
  held_low (State.unqueue_low s f (low_refl _)) hc
@[simp] theorem State.feedEgress_held {s0 : State} (s : State) (f n : Nat) (d : List Byte) (bad : Bool) (hc : Held s0 s) :
    Held s0 (State.feedEgress s f n d bad) :=
  held_low (State.feedEgress_low s f n d bad (low_refl _)) hc
@[simp] theorem State.storeComplete_held {s0 : State} (s : State) (p : Nat) (hc : Held s0 s) :
    Held s0 (State.storeComplete s p) :=
  held_low (State.storeComplete_low s p (low_refl _)) hc
@[simp] theorem State.latEvent_held {s0 : State} (s : State) (b : Nat) (hc : Held s0 s) :
    Held s0 (State.latEvent s b) :=
  held_low (State.latEvent_low s b (low_refl _)) hc
@[simp] theorem State.neighbourLost_held {s0 : State} (s : State) (n : Nat) (hc : Held s0 s) : Held s0 (State.neighbourLost s n) :=
  held_low (State.neighbourLost_low s n (low_refl _)) hc
@[simp] theorem State.neighboursDown_held {s0 : State} (s : State) (p : Nat) (hc : Held s0 s) :
    Held s0 (State.neighboursDown s p) :=
  held_low (State.neighboursDown_low s p (low_refl _)) hc
@[simp] theorem State.confirmConfig_held {s0 : State} (s : State) (v : Nat) (hc : Held s0 s) :
    Held s0 (State.confirmConfig s v) := by
  unfold State.confirmConfig
  repeat' first | (first | omega | ((simp +zetaDelta only [odKey, bankIdx, bankStatusSub, canIdx, dmaObj, instBase, launchIdx, coreIdx, dmaIdx, logBase, trigIdx] <;> (try split)) <;> omega)) | (with_reducible first | assumption | apply State.unhold_held | apply State.wr_held) | simp only [held_same] | dsimp only
@[simp] theorem State.chordFollow_held {s0 : State} (s : State) (d : Nat) (hc : Held s0 s) :
    Held s0 (State.chordFollow s d) :=
  held_low (State.chordFollow_low s d (low_refl _)) hc
@[simp] theorem State.chordsFollow_held {s0 : State} (s : State) (hc : Held s0 s) :
    Held s0 (State.chordsFollow s) :=
  held_low (State.chordsFollow_low s (low_refl _)) hc
@[simp] theorem State.preemptStart_held {s0 : State} (s : State) (p : Nat) (hc : Held s0 s) :
    Held s0 (State.preemptStart s p) :=
  held_low (State.preemptStart_low s p (low_refl _)) hc
@[simp] theorem State.loseLaneFrame_held {s0 : State} (s : State) (p : Nat) (hc : Held s0 s) :
    Held s0 (State.loseLaneFrame s p) :=
  held_low (State.loseLaneFrame_low s p (low_refl _)) hc
@[simp] theorem State.cutRx_held {s0 : State} (s : State) (p n : Nat) (hc : Held s0 s) :
    Held s0 (State.cutRx s p n) :=
  held_low (State.cutRx_low s p n (low_refl _)) hc
@[simp] theorem State.linkDown_held {s0 : State} (s : State) (p : Nat) (hc : Held s0 s) :
    Held s0 (State.linkDown s p) :=
  held_low (State.linkDown_low s p (low_refl _)) hc
@[simp] theorem State.linkCome_held {s0 : State} (s : State) (p told : Nat) (hc : Held s0 s) :
    Held s0 (State.linkCome s p told) :=
  held_low (State.linkCome_low s p told (low_refl _)) hc
@[simp] theorem State.applyLinkCfg_held {s0 : State} (s : State) (p : Nat) (hc : Held s0 s) :
    Held s0 (State.applyLinkCfg s p) :=
  held_low (State.applyLinkCfg_low s p (low_refl _)) hc
@[simp] theorem State.applyRxCfg_held {s0 : State} (s : State) (p : Nat) (hc : Held s0 s) :
    Held s0 (State.applyRxCfg s p) :=
  held_low (State.applyRxCfg_low s p (low_refl _)) hc
@[simp] theorem State.applyTxCfg_held {s0 : State} (s : State) (p : Nat) (hc : Held s0 s) :
    Held s0 (State.applyTxCfg s p) :=
  held_low (State.applyTxCfg_low s p (low_refl _)) hc
theorem State.effPort_held {s0 : State} (s : State) (i j v : Nat) {t1} (h : State.effPort s i j v = some t1) (hc : Held s0 s) :
    Held s0 t1 :=
  held_low (State.effPort_low s i j v h (low_refl _)) hc
@[simp] theorem State.setMdio_held {s0 : State} (s : State) (m : Nat) (x : Mdio) (hc : Held s0 s) :
    Held s0 (State.setMdio s m x) :=
  held_low (State.setMdio_low s m x (low_refl _)) hc
@[simp] theorem State.mdioStart_held {s0 : State} (s : State) (m v : Nat) (hc : Held s0 s) :
    Held s0 (State.mdioStart s m v) :=
  held_low (State.mdioStart_low s m v (low_refl _)) hc
@[simp] theorem State.mdioFrame_held {s0 : State} (s : State) (q : Path) (m op : Nat) (phy reg : BitVec 5) (data : Half) (hc : Held s0 s) :
    Held s0 (State.mdioFrame s q m op phy reg data) :=
  held_low (State.mdioFrame_low s q m op phy reg data (low_refl _)) hc
@[simp] theorem State.dropOversize_held {s0 : State} (s : State) (p : Nat) (hc : Held s0 s) :
    Held s0 (State.dropOversize s p) :=
  held_low (State.dropOversize_low s p (low_refl _)) hc
@[simp] theorem State.startQueue_held {s0 : State} (s : State) (p c phase : Nat) (hc : Held s0 s) :
    Held s0 (State.startQueue s p c phase) :=
  held_low (State.startQueue_low s p c phase (low_refl _)) hc
@[simp] theorem State.startPause_held {s0 : State} (s : State) (p phase : Nat) (hc : Held s0 s) :
    Held s0 (State.startPause s p phase) :=
  held_low (State.startPause_low s p phase (low_refl _)) hc
@[simp] theorem State.startLane_held {s0 : State} (s : State) (e : Nat) (hc : Held s0 s) :
    Held s0 (State.startLane s e) :=
  held_low (State.startLane_low s e (low_refl _)) hc
@[simp] theorem State.meetCells_held {s0 : State} (s : State) (c : TxCur) (hc : Held s0 s) :
    Held s0 (State.meetCells s c) := by
  unfold State.meetCells
  repeat' first | (first | omega | ((simp +zetaDelta only [odKey, bankIdx, bankStatusSub, canIdx, dmaObj, instBase, launchIdx, coreIdx, dmaIdx, logBase, trigIdx] <;> (try split)) <;> omega)) | (with_reducible first | assumption | apply State.meetDbe_held) | simp only [held_same] | intro _ | dsimp only | split
@[simp] theorem State.countTx_held {s0 : State} (s : State) (p : Nat) (d : List Byte) (stomp : Bool) (c : TxCur) (hc : Held s0 s) :
    Held s0 (State.countTx s p d stomp c) :=
  held_low (State.countTx_low s p d stomp c (low_refl _)) hc
@[simp] theorem State.transmitted_held {s0 : State} (s : State) (p : Nat) (c : TxCur) (hc : Held s0 s) :
    Held s0 (State.transmitted s p c) := by
  unfold State.transmitted
  extract_lets z0 z1 z2 z3 z4 z5 z6 z7 z8 z9 z10 z11
  have h1 : Held s0 z1 := by repeat' first | (first | omega | ((simp +zetaDelta only [odKey, bankIdx, bankStatusSub, canIdx, dmaObj, instBase, launchIdx, coreIdx, dmaIdx, logBase, trigIdx] <;> (try split)) <;> omega)) | (with_reducible first | assumption | apply held_ite | apply State.meetCells_held | apply State.swCnt_held | apply State.swEvent_held | apply held_ite2 | apply held_ite3 | apply held_ite4) | dsimp only
  try clear_value z1
  have h8 : Held s0 z8 := by repeat' first | (first | omega | ((simp +zetaDelta only [odKey, bankIdx, bankStatusSub, canIdx, dmaObj, instBase, launchIdx, coreIdx, dmaIdx, logBase, trigIdx] <;> (try split)) <;> omega)) | (with_reducible first | assumption | apply held_ite | apply State.cntH_held | apply held_ite2 | apply held_ite3 | apply held_ite4) | dsimp only
  try clear_value z8
  have h9 : Held s0 z9 := by repeat' first | (first | omega | ((simp +zetaDelta only [odKey, bankIdx, bankStatusSub, canIdx, dmaObj, instBase, launchIdx, coreIdx, dmaIdx, logBase, trigIdx] <;> (try split)) <;> omega)) | (with_reducible first | assumption | apply State.countTx_held | apply State.emit_held) | dsimp only
  try clear_value z9
  have h11 : Held s0 z11 := by repeat' first | (first | omega | ((simp +zetaDelta only [odKey, bankIdx, bankStatusSub, canIdx, dmaObj, instBase, launchIdx, coreIdx, dmaIdx, logBase, trigIdx] <;> (try split)) <;> omega)) | (with_reducible first | assumption | apply held_ite | apply State.cntH_held | apply State.countTx_held | apply State.emit_held | apply State.meetCells_held | apply State.releaseEntry_held | apply State.setPort_held | apply State.swCnt_held | apply State.swEvent_held | apply State.touchCredit_held | apply held_ite2 | apply held_ite3 | apply held_ite4) | simp only [held_same] | dsimp only | split
  try clear_value z11
  repeat' first | (first | omega | ((simp +zetaDelta only [odKey, bankIdx, bankStatusSub, canIdx, dmaObj, instBase, launchIdx, coreIdx, dmaIdx, logBase, trigIdx] <;> (try split)) <;> omega)) | (with_reducible first | assumption | apply held_ite | apply State.cntH_held | apply State.countTx_held | apply State.emit_held | apply State.meetCells_held | apply State.releaseEntry_held | apply State.setPort_held | apply State.swCnt_held | apply State.swEvent_held | apply State.touchCredit_held | apply held_ite2 | apply held_ite3 | apply held_ite4) | simp only [held_same] | dsimp only | split
@[simp] theorem State.unitWrite_held {s0 : State} (s : State) (a : Nat) (d : List Byte) (hc : Held s0 s) :
    Held s0 (State.unitWrite s a d) :=
  held_low (State.unitWrite_low s a d (low_refl _)) hc
@[simp] theorem State.gateChange_held {s0 : State} (s : State) (p : Nat) (hc : Held s0 s) :
    Held s0 (State.gateChange s p) :=
  held_low (State.gateChange_low s p (low_refl _)) hc
@[simp] theorem State.gateOp_held {s0 : State} (s : State) (p op : Nat) (hc : Held s0 s) :
    Held s0 (State.gateOp s p op) :=
  held_low (State.gateOp_low s p op (low_refl _)) hc
@[simp] theorem State.moveGate_held {s0 : State} (s : State) (p : Nat) (g : GateCtl) (hc : Held s0 s) : Held s0 (State.moveGate s p g) :=
  held_low (State.moveGate_low s p g (low_refl _)) hc
@[simp] theorem State.spliceStart_held {s0 : State} (s : State) (d v : Nat) (hc : Held s0 s) :
    Held s0 (State.spliceStart s d v) :=
  held_low (State.spliceStart_low s d v (low_refl _)) hc
@[simp] theorem State.spliceCommit_held {s0 : State} (s : State) (d v : Nat) (hc : Held s0 s) :
    Held s0 (State.spliceCommit s d v) :=
  held_low (State.spliceCommit_low s d v (low_refl _)) hc
@[simp] theorem State.spliceCopy_held {s0 : State} (s : State) (a pool k n : Nat) (hc : Held s0 s) : Held s0 (s.spliceCopy a pool k n).2.2 := by
  induction n generalizing s k with
  | zero => exact hc
  | succ n ih =>
    unfold State.spliceCopy
    extract_lets r e q
    have hr : Held s0 r.2.2 := State.fetchBytes_held _ _ _ _ hc
    have hq : Held s0 q.2.2 := held_ite3 (State.fetchBytes_held _ _ _ _ hr) hr
    exact held_ite3 hq (ih _ _ hq)
@[simp] theorem State.spliceLoaded_held {s0 : State} (s : State) (d : Nat) (hc : Held s0 s) :
    Held s0 (State.spliceLoaded s d) := by
  unfold State.spliceLoaded
  repeat' first | (first | omega | ((simp +zetaDelta only [odKey, bankIdx, bankStatusSub, canIdx, dmaObj, instBase, launchIdx, coreIdx, dmaIdx, logBase, trigIdx] <;> (try split)) <;> omega)) | (with_reducible first | assumption | apply held_ite | apply State.event_held | apply State.setChord_held | apply State.spliceCopy_held | apply State.spliceStart_held | apply State.wr_held | apply held_ite2 | apply held_ite3 | apply held_ite4) | simp only [held_same] | dsimp only | split
@[simp] theorem State.spliceActivate_held {s0 : State} (s : State) (d : Nat) (hc : Held s0 s) :
    Held s0 (State.spliceActivate s d) :=
  held_low (State.spliceActivate_low s d (low_refl _)) hc
@[simp] theorem State.chordCnt_held {s0 : State} (s : State) (d j : Nat) (hc : Held s0 s) :
    Held s0 (State.chordCnt s d j) :=
  held_low (State.chordCnt_low s d j (low_refl _)) hc
@[simp] theorem State.spliceWork_held {s0 : State} (s : State) (d : Nat) (f : List Nib) (win : List Word → Bool) (hc : Held s0 s) :
    Held s0 (State.spliceWork s d f win).2 :=
  held_low (State.spliceWork_low s d f win (low_refl _)) hc
@[simp] theorem State.chordSent_held {s0 : State} (s : State) (p : Nat) (wire : List Byte) (stomp : Bool) (t : Nat) (hc : Held s0 s) :
    Held s0 (State.chordSent s p wire stomp t) :=
  held_low (State.chordSent_low s p wire stomp t (low_refl _)) hc
@[simp] theorem State.chordFrame_held {s0 : State} (s : State) (d : Nat) (data : List Byte) (er : Option Nat) (express : Bool) (ago phase delay lost : Nat) (hc : Held s0 s) :
    Held s0 (State.chordFrame s d data er express ago phase delay lost) :=
  held_low (State.chordFrame_low s d data er express ago phase delay lost (low_refl _)) hc
@[simp] theorem State.unitBytes_held {s0 : State} (s : State) (a : Nat) (x0 : List Byte) (hc : Held s0 s) :
    Held s0 (State.unitBytes s a x0) :=
  held_low (State.unitBytes_low s a x0 (low_refl _)) hc
@[simp] theorem State.captureWrite_held {s0 : State} (s : State) (d : Nat) (hc : Held s0 s) :
    Held s0 (State.captureWrite s d) :=
  held_low (State.captureWrite_low s d (low_refl _)) hc
@[simp] theorem State.fdbCommand_held {s0 : State} (s : State) (v : Nat) (hc : Held s0 s) :
    Held s0 (State.fdbCommand s v) :=
  held_low (State.fdbCommand_low s v (low_refl _)) hc
@[simp] theorem State.fdbShow_held {s0 : State} (s : State) (e : Nat) (hc : Held s0 s) :
    Held s0 (State.fdbShow s e) :=
  held_low (State.fdbShow_low s e (low_refl _)) hc
@[simp] theorem State.fdbPut_held {s0 : State} (s : State) (hc : Held s0 s) :
    Held s0 (State.fdbPut s) :=
  held_low (State.fdbPut_low s (low_refl _)) hc
@[simp] theorem State.fdbDone_held {s0 : State} (s : State) (hc : Held s0 s) :
    Held s0 (State.fdbDone s) :=
  held_low (State.fdbDone_low s (low_refl _)) hc
@[simp] theorem State.streamCommand_held {s0 : State} (s : State) (v : Nat) (hc : Held s0 s) :
    Held s0 (State.streamCommand s v) :=
  held_low (State.streamCommand_low s v (low_refl _)) hc
@[simp] theorem State.sgateStatus_held {s0 : State} (s : State) (g v : Nat) (hc : Held s0 s) :
    Held s0 (State.sgateStatus s g v) :=
  held_low (State.sgateStatus_low s g v (low_refl _)) hc
@[simp] theorem State.sgateChange_held {s0 : State} (s : State) (g : Nat) (hc : Held s0 s) :
    Held s0 (State.sgateChange s g) :=
  held_low (State.sgateChange_low s g (low_refl _)) hc
@[simp] theorem State.sgateCommand_held {s0 : State} (s : State) (v : Nat) (hc : Held s0 s) :
    Held s0 (State.sgateCommand s v) :=
  held_low (State.sgateCommand_low s v (low_refl _)) hc
@[simp] theorem State.meterCommand_held {s0 : State} (s : State) (v : Nat) (hc : Held s0 s) :
    Held s0 (State.meterCommand s v) :=
  held_low (State.meterCommand_low s v (low_refl _)) hc
@[simp] theorem State.cbCommand_held {s0 : State} (s : State) (v : Nat) (hc : Held s0 s) :
    Held s0 (State.cbCommand s v) :=
  held_low (State.cbCommand_low s v (low_refl _)) hc
theorem State.effSwitch_held {s0 : State} (s : State) (i j v : Nat) {t1} (h : State.effSwitch s i j v = some t1) (hc : Held s0 s) :
    Held s0 t1 :=
  held_low (State.effSwitch_low s i j v h (low_refl _)) hc
@[simp] theorem State.dmaRead_held {s0 : State} (s : State) (m a n : Nat) (hc : Held s0 s) :
    Held s0 (State.dmaRead s m a n).2.2 := by
  unfold State.dmaRead
  repeat' first | (first | omega | ((simp +zetaDelta only [odKey, bankIdx, bankStatusSub, canIdx, dmaObj, instBase, launchIdx, coreIdx, dmaIdx, logBase, trigIdx] <;> (try split)) <;> omega)) | (with_reducible first | assumption | apply held_ite | apply State.fetchBytes_held | apply held_ite2 | apply held_ite3 | apply held_ite4) | dsimp only
@[simp] theorem State.dmaWrite_held {s0 : State} (s : State) (q : Path) (a : Nat) (d : List Byte) (hc : Held s0 s) :
    Held s0 (State.dmaWrite s q a d) :=
  held_low (State.dmaWrite_low s q a d (low_refl _)) hc
@[simp] theorem State.fillRx_held {s0 : State} (s : State) (x : RxInfo) (k : Nat) (first : Bool) (n : Nat) (d : List Byte) (hc : Held s0 s) : Held s0 (s.fillRx x k first n d).2.2 :=
  held_low (State.fillRx_low s x k first n d (low_refl _)) hc
@[simp] theorem State.deliver_held {s0 : State} (s : State) (st c : Nat) (hc : Held s0 s) :
    Held s0 (State.deliver s st c) := by
  unfold State.deliver
  extract_lets z0 z1 z2 z3
  repeat' first | (first | omega | ((simp +zetaDelta only [odKey, bankIdx, bankStatusSub, canIdx, dmaObj, instBase, launchIdx, coreIdx, dmaIdx, logBase, trigIdx] <;> (try split)) <;> omega)) | (with_reducible first | assumption | apply held_ite | apply State.cntH_held | apply State.event_held | apply State.fillRx_held | apply State.meetCells_held | apply State.releaseEntry_held | apply State.setQueue_held | apply State.wr_held | apply held_ite2 | apply held_ite3 | apply held_ite4) | simp only [held_same] | dsimp only | split
@[simp] theorem State.txBytes_held {s0 : State} (s : State) (x0 : List Nat) (hc : Held s0 s) :
    Held s0 (State.txBytes s x0).2.2 := by
  induction x0 generalizing s <;> first | (simp_all [State.txBytes]; done) | (unfold State.txBytes; (repeat' split) <;> simp_all)
@[simp] theorem State.ringAdmit_held {s0 : State} (s : State) (st mask cls : Nat) (gen ts : Bool) (d : List Byte) (hc : Held s0 s) :
    Held s0 (State.ringAdmit s st mask cls gen ts d).2 := by
  unfold State.ringAdmit
  extract_lets z0
  have h0 : Held s0 z0.2 := by repeat' first | (first | omega | ((simp +zetaDelta only [odKey, bankIdx, bankStatusSub, canIdx, dmaObj, instBase, launchIdx, coreIdx, dmaIdx, logBase, trigIdx] <;> (try split)) <;> omega)) | (with_reducible first | assumption | apply State.wayOf_held) | dsimp only
  try clear_value z0
  repeat' first | (first | omega | ((simp +zetaDelta only [odKey, bankIdx, bankStatusSub, canIdx, dmaObj, instBase, launchIdx, coreIdx, dmaIdx, logBase, trigIdx] <;> (try split)) <;> omega)) | (with_reducible first | assumption | apply State.admitFrame_held | apply State.setFrame_held | apply State.storeCells_held | apply State.tick_held) | simp only [held_same] | intro _ | dsimp only | split
@[simp] theorem State.txDone_held {s0 : State} (s : State) (result : Nat) (x0 : List Nat) (hc : Held s0 s) :
    Held s0 (State.txDone s result x0) :=
  held_low (State.txDone_low s result x0 (low_refl _)) hc
@[simp] theorem State.txRing_held {s0 : State} (s : State) (st t : Nat) (l : List Nat) (ok : Bool) (hc : Held s0 s) : Held s0 (s.txRing st t l ok) := by
  have hb : Held s0 (s.txBytes l).2.2 := State.txBytes_held _ _ hc
  unfold State.txRing
  extract_lets i w2 ts len b q r s1 s2 s3
  have hr : Held s0 r.2 := held_ite2 hc (held_ite2 hb (State.ringAdmit_held _ _ _ _ _ _ _ hb))
  have h1 : Held s0 s1 := State.wr_held _ _ _ _ (by simp only [i, odKey]; omega) (State.txDone_held _ _ _ hr)
  have h2 : Held s0 s2 := State.setSw_held _ _ h1
  have h3 : Held s0 s3 := held_ite h2 (State.cntH_held _ _ _ _ _ (by simp only [i, odKey]; omega) (by simp only [odKey]; omega) h2)
  exact State.event_held _ _ _ _ (by simp only [odKey]; omega) h3

@[simp] theorem State.auditPass_held {s0 : State} (s : State) (hc : Held s0 s) :
    Held s0 (State.auditPass s) :=
  held_low (State.auditPass_low s (low_refl _)) hc
@[simp] theorem State.adjustStart_held {s0 : State} (s : State) (d v : Nat) (hc : Held s0 s) :
    Held s0 (State.adjustStart s d v) :=
  held_low (State.adjustStart_low s d v (low_refl _)) hc
@[simp] theorem State.stepCommand_held {s0 : State} (s : State) (d v : Nat) (hc : Held s0 s) :
    Held s0 (State.stepCommand s d v) :=
  held_low (State.stepCommand_low s d v (low_refl _)) hc
@[simp] theorem State.stepAdd_held {s0 : State} (s : State) (d : Nat) (hc : Held s0 s) :
    Held s0 (State.stepAdd s d) :=
  held_low (State.stepAdd_low s d (low_refl _)) hc
@[simp] theorem State.setPps_held {s0 : State} (s : State) (i : Nat) (x : Pps) (hc : Held s0 s) :
    Held s0 (State.setPps s i x) :=
  held_low (State.setPps_low s i x (low_refl _)) hc
@[simp] theorem State.ppsRest_held {s0 : State} (s : State) (i : Nat) (hc : Held s0 s) :
    Held s0 (State.ppsRest s i) :=
  held_low (State.ppsRest_low s i (low_refl _)) hc
@[simp] theorem State.ppsArm_held {s0 : State} (s : State) (i : Nat) (count : Bool) (hc : Held s0 s) :
    Held s0 (State.ppsArm s i count) :=
  held_low (State.ppsArm_low s i count (low_refl _)) hc
@[simp] theorem State.ppsWrite_held {s0 : State} (s : State) (i j v : Nat) (hc : Held s0 s) :
    Held s0 (State.ppsWrite s i j v) :=
  held_low (State.ppsWrite_low s i j v (low_refl _)) hc
@[simp] theorem State.unsync_held {s0 : State} (s : State) (d : Nat) (hc : Held s0 s) :
    Held s0 (State.unsync s d) :=
  held_low (State.unsync_low s d (low_refl _)) hc
@[simp] theorem State.syncWrite_held {s0 : State} (s : State) (d v : Nat) (hc : Held s0 s) :
    Held s0 (State.syncWrite s d v) :=
  held_low (State.syncWrite_low s d v (low_refl _)) hc
@[simp] theorem State.trigWrite_held {s0 : State} (s : State) (i j v : Nat) (hk : i * 256 + j < 0x2001 * 256 ∨ 0x2005 * 256 ≤ i * 256) (hc : Held s0 s) :
    Held s0 (State.trigWrite s i j v) := by
  unfold State.trigWrite
  extract_lets z0
  have h0 : Held s0 z0 := by repeat' first | (first | omega | ((simp +zetaDelta only [odKey, bankIdx, bankStatusSub, canIdx, dmaObj, instBase, launchIdx, coreIdx, dmaIdx, logBase, trigIdx] <;> (try split)) <;> omega)) | (with_reducible first | assumption | apply State.wr_held) | dsimp only
  try clear_value z0
  repeat' first | (first | omega | ((simp +zetaDelta only [odKey, bankIdx, bankStatusSub, canIdx, dmaObj, instBase, launchIdx, coreIdx, dmaIdx, logBase, trigIdx] <;> (try split)) <;> omega)) | (with_reducible first | assumption | apply held_ite | apply State.wr_held) | dsimp only
theorem State.trigFire_held {s0 : State} (s : State) (d t : Nat) {t1} (h : State.trigFire s d t = some t1) (hc : Held s0 s) :
    Held s0 t1 :=
  held_low (State.trigFire_low s d t h (low_refl _)) hc
@[simp] theorem State.capShow_held {s0 : State} (s : State) (i : Nat) (l : List CapEntry) (hc : Held s0 s) :
    Held s0 (State.capShow s i l) :=
  held_low (State.capShow_low s i l (low_refl _)) hc
@[simp] theorem State.capPop_held {s0 : State} (s : State) (i v : Nat) (hc : Held s0 s) :
    Held s0 (State.capPop s i v) :=
  held_low (State.capPop_low s i v (low_refl _)) hc
theorem State.effTime_held {s0 : State} (s : State) (i j v : Nat) {t1} (h : State.effTime s i j v = some t1) (hc : Held s0 s) :
    Held s0 t1 :=
  held_low (State.effTime_low s i j v h (low_refl _)) hc
@[simp] theorem State.launchArm_held {s0 : State} (s : State) (k v : Nat) (hc : Held s0 s) :
    Held s0 (State.launchArm s k v) :=
  held_low (State.launchArm_low s k v (low_refl _)) hc
@[simp] theorem State.launchCnt_held {s0 : State} (s : State) (p j : Nat) (hc : Held s0 s) :
    Held s0 (State.launchCnt s p j) :=
  held_low (State.launchCnt_low s p j (low_refl _)) hc
@[simp] theorem State.launchEvent_held {s0 : State} (s : State) (p b : Nat) (hc : Held s0 s) :
    Held s0 (State.launchEvent s p b) :=
  held_low (State.launchEvent_low s p b (low_refl _)) hc
@[simp] theorem State.launchEnd_held {s0 : State} (s : State) (k : Nat) (hc : Held s0 s) :
    Held s0 (State.launchEnd s k) :=
  held_low (State.launchEnd_low s k (low_refl _)) hc
@[simp] theorem State.launchResult_held {s0 : State} (s : State) (k r : Nat) (hc : Held s0 s) :
    Held s0 (State.launchResult s k r) :=
  held_low (State.launchResult_low s k r (low_refl _)) hc
@[simp] theorem State.launchAbort_held {s0 : State} (s : State) (k : Nat) (hc : Held s0 s) :
    Held s0 (State.launchAbort s k) :=
  held_low (State.launchAbort_low s k (low_refl _)) hc
@[simp] theorem State.launchOff_held {s0 : State} (s : State) (k v : Nat) (hc : Held s0 s) :
    Held s0 (State.launchOff s k v) :=
  held_low (State.launchOff_low s k v (low_refl _)) hc
@[simp] theorem State.launchBegin_held {s0 : State} (s : State) (k phase : Nat) (hc : Held s0 s) :
    Held s0 (State.launchBegin s k phase) :=
  held_low (State.launchBegin_low s k phase (low_refl _)) hc
theorem State.effLaunch_held {s0 : State} (s : State) (i j v : Nat) {t1} (h : State.effLaunch s i j v = some t1) (hc : Held s0 s) :
    Held s0 t1 :=
  held_low (State.effLaunch_low s i j v h (low_refl _)) hc
@[simp] theorem State.perEvent_held {s0 : State} (s : State) (n b : Nat) (hc : Held s0 s) :
    Held s0 (State.perEvent s n b) :=
  held_low (State.perEvent_low s n b (low_refl _)) hc
@[simp] theorem State.perCnt_held {s0 : State} (s : State) (n j : Nat) (hc : Held s0 s) :
    Held s0 (State.perCnt s n j) :=
  held_low (State.perCnt_low s n j (low_refl _)) hc
@[simp] theorem State.perOpCnt_held {s0 : State} (s : State) (n j : Nat) (hc : Held s0 s) :
    Held s0 (State.perOpCnt s n j) :=
  held_low (State.perOpCnt_low s n j (low_refl _)) hc
@[simp] theorem State.perSend_held {s0 : State} (s : State) (n : Nat) (east : Bool) (f : List Nib) (abt : Bool) (hc : Held s0 s) :
    Held s0 (State.perSend s n east f abt) :=
  held_low (State.perSend_low s n east f abt (low_refl _)) hc
@[simp] theorem State.perSync_held {s0 : State} (s : State) (n : Nat) (hc : Held s0 s) :
    Held s0 (State.perSync s n) :=
  held_low (State.perSync_low s n (low_refl _)) hc
@[simp] theorem State.perGo_held {s0 : State} (s : State) (n st : Nat) (hc : Held s0 s) :
    Held s0 (State.perGo s n st) := by
  unfold State.perGo
  repeat' first | (first | omega | ((simp +zetaDelta only [odKey, bankIdx, bankStatusSub, canIdx, dmaObj, instBase, launchIdx, coreIdx, dmaIdx, logBase, trigIdx] <;> (try split)) <;> omega)) | (with_reducible first | assumption | apply held_ite | apply State.cnt_held | apply State.hold_held | apply State.perEvent_held | apply State.perSync_held | apply State.setRing_held | apply State.wr_held) | simp only [held_same] | dsimp only
@[simp] theorem State.perForget_held {s0 : State} (s : State) (n : Nat) (hc : Held s0 s) :
    Held s0 (State.perForget s n) :=
  held_low (State.perForget_low s n (low_refl _)) hc
@[simp] theorem State.perListen_held {s0 : State} (s : State) (n : Nat) (hc : Held s0 s) :
    Held s0 (State.perListen s n) := by
  unfold State.perListen
  repeat' first | (first | omega | ((simp +zetaDelta only [odKey, bankIdx, bankStatusSub, canIdx, dmaObj, instBase, launchIdx, coreIdx, dmaIdx, logBase, trigIdx] <;> (try split)) <;> omega)) | (with_reducible first | assumption | apply State.perForget_held | apply State.perGo_held) | dsimp only
@[simp] theorem State.perOff_held {s0 : State} (s : State) (n : Nat) (hc : Held s0 s) :
    Held s0 (State.perOff s n) := by
  unfold State.perOff
  extract_lets z0
  have h0 : Held s0 z0 := by repeat' first | (first | omega | ((simp +zetaDelta only [odKey, bankIdx, bankStatusSub, canIdx, dmaObj, instBase, launchIdx, coreIdx, dmaIdx, logBase, trigIdx] <;> (try split)) <;> omega)) | (with_reducible first | assumption | apply State.perForget_held | apply State.perGo_held) | dsimp only
  try clear_value z0
  repeat' first | (first | omega | ((simp +zetaDelta only [odKey, bankIdx, bankStatusSub, canIdx, dmaObj, instBase, launchIdx, coreIdx, dmaIdx, logBase, trigIdx] <;> (try split)) <;> omega)) | (with_reducible first | assumption | apply State.setRing_held) | simp only [held_same] | dsimp only
@[simp] theorem State.perPassive_held {s0 : State} (s : State) (n : Nat) (hc : Held s0 s) :
    Held s0 (State.perPassive s n) := by
  unfold State.perPassive
  repeat' first | (first | omega | ((simp +zetaDelta only [odKey, bankIdx, bankStatusSub, canIdx, dmaObj, instBase, launchIdx, coreIdx, dmaIdx, logBase, trigIdx] <;> (try split)) <;> omega)) | (with_reducible first | assumption | apply held_ite | apply State.perGo_held | apply State.setRing_held) | simp only [held_same] | dsimp only
@[simp] theorem State.perBlocked_held {s0 : State} (s : State) (n before : Nat) (hc : Held s0 s) :
    Held s0 (State.perBlocked s n before) := by
  unfold State.perBlocked
  extract_lets z0
  repeat' first | (first | omega | ((simp +zetaDelta only [odKey, bankIdx, bankStatusSub, canIdx, dmaObj, instBase, launchIdx, coreIdx, dmaIdx, logBase, trigIdx] <;> (try split)) <;> omega)) | (with_reducible first | assumption | apply held_ite | apply State.perPassive_held | apply State.setRing_held) | simp only [held_same] | dsimp only
@[simp] theorem State.perSwitch_held {s0 : State} (s : State) (n m : Nat) (hc : Held s0 s) :
    Held s0 (State.perSwitch s n m) := by
  unfold State.perSwitch
  extract_lets z0
  repeat' first | (first | omega | ((simp +zetaDelta only [odKey, bankIdx, bankStatusSub, canIdx, dmaObj, instBase, launchIdx, coreIdx, dmaIdx, logBase, trigIdx] <;> (try split)) <;> omega)) | (with_reducible first | assumption | apply held_ite | apply State.cnt_held | apply State.perEvent_held | apply State.perPassive_held | apply State.record_held | apply State.setRing_held | apply State.wr_held) | simp only [held_same] | dsimp only
@[simp] theorem State.perEnable_held {s0 : State} (s : State) (n v : Nat) (hc : Held s0 s) :
    Held s0 (State.perEnable s n v) := by
  unfold State.perEnable
  repeat' first | (first | omega | ((simp +zetaDelta only [odKey, bankIdx, bankStatusSub, canIdx, dmaObj, instBase, launchIdx, coreIdx, dmaIdx, logBase, trigIdx] <;> (try split)) <;> omega)) | (with_reducible first | assumption | apply held_ite | apply State.perGo_held | apply State.perOff_held | apply State.wr_held) | dsimp only
@[simp] theorem State.perLockLost_held {s0 : State} (s : State) (n : Nat) (east lostRx lostTx : Bool) (hc : Held s0 s) :
    Held s0 (State.perLockLost s n east lostRx lostTx) := by
  unfold State.perLockLost
  extract_lets z0 z1 z2 z3 z4
  have h0 : Held s0 z0 := by repeat' first | (first | omega | ((simp +zetaDelta only [odKey, bankIdx, bankStatusSub, canIdx, dmaObj, instBase, launchIdx, coreIdx, dmaIdx, logBase, trigIdx] <;> (try split)) <;> omega)) | (with_reducible first | assumption | apply held_ite | apply State.clrBits_held | apply State.perCnt_held | apply State.perEvent_held) | dsimp only
  try clear_value z0
  have h1 : Held s0 z1 := by repeat' first | (first | omega | ((simp +zetaDelta only [odKey, bankIdx, bankStatusSub, canIdx, dmaObj, instBase, launchIdx, coreIdx, dmaIdx, logBase, trigIdx] <;> (try split)) <;> omega)) | (with_reducible first | assumption | apply held_ite | apply State.perOpCnt_held) | dsimp only
  try clear_value z1
  have h2 : Held s0 z2 := by repeat' first | (first | omega | ((simp +zetaDelta only [odKey, bankIdx, bankStatusSub, canIdx, dmaObj, instBase, launchIdx, coreIdx, dmaIdx, logBase, trigIdx] <;> (try split)) <;> omega)) | (with_reducible first | assumption | apply held_ite | apply State.perOpCnt_held) | dsimp only
  try clear_value z2
  have h4 : Held s0 z4 := by repeat' first | (first | omega | ((simp +zetaDelta only [odKey, bankIdx, bankStatusSub, canIdx, dmaObj, instBase, launchIdx, coreIdx, dmaIdx, logBase, trigIdx] <;> (try split)) <;> omega)) | (with_reducible first | assumption | apply held_ite | apply State.setRing_held) | simp only [held_same] | dsimp only
  try clear_value z4
  repeat' first | (first | omega | ((simp +zetaDelta only [odKey, bankIdx, bankStatusSub, canIdx, dmaObj, instBase, launchIdx, coreIdx, dmaIdx, logBase, trigIdx] <;> (try split)) <;> omega)) | (with_reducible first | assumption | apply held_ite | apply State.perEvent_held | apply State.perGo_held | apply State.perListen_held | apply State.setRing_held) | simp only [held_same] | dsimp only
@[simp] theorem State.perStore_held {s0 : State} (s : State) (n : Nat) (e : List Word) (x : PerFrame) (hc : Held s0 s) :
    Held s0 (State.perStore s n e x) :=
  held_low (State.perStore_low s n e x (low_refl _)) hc
@[simp] theorem State.perSlotFrame_held {s0 : State} (s : State) (n : Nat) (x : PerFrame) (hc : Held s0 s) :
    Held s0 (State.perSlotFrame s n x) :=
  held_low (State.perSlotFrame_low s n x (low_refl _)) hc
@[simp] theorem State.perTake_held {s0 : State} (s : State) (n : Nat) (x : PerFrame) (hc : Held s0 s) :
    Held s0 (State.perTake s n x) :=
  held_low (State.perTake_low s n x (low_refl _)) hc
@[simp] theorem State.perSplice_held {s0 : State} (s : State) (n d : Nat) (f : List Nib) (ok : Bool) (x : PerFrame) (hc : Held s0 s) :
    Held s0 (State.perSplice s n d f ok x).2.2 := by
  unfold State.perSplice
  extract_lets z0 z1 z2 z3
  have h0 : Held s0 z0 := by repeat' first | (first | omega | ((simp +zetaDelta only [odKey, bankIdx, bankStatusSub, canIdx, dmaObj, instBase, launchIdx, coreIdx, dmaIdx, logBase, trigIdx] <;> (try split)) <;> omega)) | (with_reducible first | assumption | apply State.spliceActivate_held) | dsimp only
  try clear_value z0
  repeat' first | (first | omega | ((simp +zetaDelta only [odKey, bankIdx, bankStatusSub, canIdx, dmaObj, instBase, launchIdx, coreIdx, dmaIdx, logBase, trigIdx] <;> (try split)) <;> omega)) | (with_reducible first | assumption | apply held_ite | apply State.perBlocked_held | apply State.perEvent_held | apply State.perOpCnt_held | apply State.setChord_held | apply State.setRing_held | apply State.spliceWork_held | apply held_ite2 | apply held_ite3 | apply held_ite4) | simp only [held_same] | intro _ | dsimp only | split
@[simp] theorem State.perReceive_held {s0 : State} (s : State) (n : Nat) (east : Bool) (f : List Nib) (fin : PerEnd) (ago phase : Nat) (displaced : Bool) (hc : Held s0 s) :
    Held s0 (State.perReceive s n east f fin ago phase displaced) := by
  unfold State.perReceive
  extract_lets z0 z1 z2 z3 z4 z5 z6
  have h4 : Held s0 z4 := by repeat' first | (first | omega | ((simp +zetaDelta only [odKey, bankIdx, bankStatusSub, canIdx, dmaObj, instBase, launchIdx, coreIdx, dmaIdx, logBase, trigIdx] <;> (try split)) <;> omega)) | (with_reducible first | assumption | apply held_ite | apply State.perCnt_held) | dsimp only
  try clear_value z4
  have h5 : Held s0 z5 := by repeat' first | (first | omega | ((simp +zetaDelta only [odKey, bankIdx, bankStatusSub, canIdx, dmaObj, instBase, launchIdx, coreIdx, dmaIdx, logBase, trigIdx] <;> (try split)) <;> omega)) | (with_reducible first | assumption | apply held_ite | apply State.cntH_held | apply State.perCnt_held | apply State.perEvent_held | apply State.perOpCnt_held) | dsimp only
  try clear_value z5
  have h6 : Held s0 z6 := by repeat' first | (first | omega | ((simp +zetaDelta only [odKey, bankIdx, bankStatusSub, canIdx, dmaObj, instBase, launchIdx, coreIdx, dmaIdx, logBase, trigIdx] <;> (try split)) <;> omega)) | (with_reducible first | assumption | apply held_ite | apply State.cntH_held | apply State.drop_held | apply State.perCnt_held | apply State.perEvent_held | apply State.perOpCnt_held | apply State.perSend_held | apply State.perSplice_held | apply State.perTake_held | apply held_ite2 | apply held_ite3 | apply held_ite4) | dsimp only
  try clear_value z6
  repeat' first | (first | omega | ((simp +zetaDelta only [odKey, bankIdx, bankStatusSub, canIdx, dmaObj, instBase, launchIdx, coreIdx, dmaIdx, logBase, trigIdx] <;> (try split)) <;> omega)) | (with_reducible first | assumption | apply held_ite | apply State.cntH_held | apply State.drop_held | apply State.perCnt_held | apply State.perEvent_held | apply State.perOpCnt_held | apply State.perSend_held | apply State.perSplice_held | apply State.perTake_held | apply held_ite2 | apply held_ite3 | apply held_ite4) | dsimp only
@[simp] theorem State.setEcho_held {s0 : State} (s : State) (n : Nat) (east : Bool) (x : Echo) (hc : Held s0 s) :
    Held s0 (State.setEcho s n east x) :=
  held_low (State.setEcho_low s n east x (low_refl _)) hc
@[simp] theorem State.refLeaves_held {s0 : State} (s : State) (n cycle phase : Nat) (pend : Option (Nat × Nat)) (flags : Nat) (hc : Held s0 s) :
    Held s0 (State.refLeaves s n cycle phase pend flags) :=
  held_low (State.refLeaves_low s n cycle phase pend flags (low_refl _)) hc
@[simp] theorem State.changeStep_held {s0 : State} (s : State) (n cycle : Nat) (hc : Held s0 s) :
    Held s0 (State.changeStep s n cycle).2.2 := by
  unfold State.changeStep
  repeat' first | (first | omega | ((simp +zetaDelta only [odKey, bankIdx, bankStatusSub, canIdx, dmaObj, instBase, launchIdx, coreIdx, dmaIdx, logBase, trigIdx] <;> (try split)) <;> omega)) | (with_reducible first | assumption | apply held_ite | apply State.cnt_held | apply State.perEvent_held | apply State.perSwitch_held | apply State.setRing_held | apply State.swapUntie_held | apply State.wr_held | apply held_ite2 | apply held_ite3 | apply held_ite4) | simp only [held_same] | intro _ | dsimp only | split
@[simp] theorem State.perRestore_held {s0 : State} (s : State) (n : Nat) (hc : Held s0 s) :
    Held s0 (State.perRestore s n) := by
  unfold State.perRestore
  extract_lets z0
  repeat' first | (first | omega | ((simp +zetaDelta only [odKey, bankIdx, bankStatusSub, canIdx, dmaObj, instBase, launchIdx, coreIdx, dmaIdx, logBase, trigIdx] <;> (try split)) <;> omega)) | (with_reducible first | assumption | apply held_ite | apply State.perGo_held | apply State.setRing_held | apply State.wr_held) | simp only [held_same] | dsimp only
@[simp] theorem State.perRate_held {s0 : State} (s : State) (n : Nat) (p : List Byte) (arrival : Nat) (e : Int) (hc : Held s0 s) :
    Held s0 (State.perRate s n p arrival e) :=
  held_low (State.perRate_low s n p arrival e (low_refl _)) hc
@[simp] theorem State.refState_held {s0 : State} (s : State) (n : Nat) (e : Int) (hc : Held s0 s) :
    Held s0 (State.refState s n e) := by
  unfold State.refState
  extract_lets z0 z1
  repeat' first | (first | omega | ((simp +zetaDelta only [odKey, bankIdx, bankStatusSub, canIdx, dmaObj, instBase, launchIdx, coreIdx, dmaIdx, logBase, trigIdx] <;> (try split)) <;> omega)) | (with_reducible first | assumption | apply held_ite | apply State.hold_held | apply State.perGo_held | apply State.perPassive_held | apply State.setRing_held) | simp only [held_same] | dsimp only
@[simp] theorem State.refTaken_held {s0 : State} (s : State) (n : Nat) (x : PerFrame) (p : List Byte) (hc : Held s0 s) :
    Held s0 (State.refTaken s n x p) := by
  unfold State.refTaken
  extract_lets z0 z1 z2 z3 z4 z5 z6 z7 z8 z9 z10
  have h2 : Held s0 z2 := by repeat' first | (first | omega | ((simp +zetaDelta only [odKey, bankIdx, bankStatusSub, canIdx, dmaObj, instBase, launchIdx, coreIdx, dmaIdx, logBase, trigIdx] <;> (try split)) <;> omega)) | (with_reducible first | assumption | apply held_ite | apply State.perRestore_held) | dsimp only
  try clear_value z2
  have h5 : Held s0 z5 := by repeat' first | (first | omega | ((simp +zetaDelta only [odKey, bankIdx, bankStatusSub, canIdx, dmaObj, instBase, launchIdx, coreIdx, dmaIdx, logBase, trigIdx] <;> (try split)) <;> omega)) | (with_reducible first | assumption | apply held_ite | apply State.swapUntie_held) | dsimp only
  try clear_value z5
  have h6 : Held s0 z6 := by repeat' first | (first | omega | ((simp +zetaDelta only [odKey, bankIdx, bankStatusSub, canIdx, dmaObj, instBase, launchIdx, coreIdx, dmaIdx, logBase, trigIdx] <;> (try split)) <;> omega)) | (with_reducible first | assumption | apply State.perRate_held) | dsimp only
  try clear_value z6
  have h8 : Held s0 z8 := by repeat' first | (first | omega | ((simp +zetaDelta only [odKey, bankIdx, bankStatusSub, canIdx, dmaObj, instBase, launchIdx, coreIdx, dmaIdx, logBase, trigIdx] <;> (try split)) <;> omega)) | (with_reducible first | assumption | apply State.wr_held) | dsimp only
  try clear_value z8
  have h10 : Held s0 z10 := by repeat' first | (first | omega | ((simp +zetaDelta only [odKey, bankIdx, bankStatusSub, canIdx, dmaObj, instBase, launchIdx, coreIdx, dmaIdx, logBase, trigIdx] <;> (try split)) <;> omega)) | (with_reducible first | assumption | apply held_ite | apply State.setRing_held) | simp only [held_same] | intro _ | dsimp only
  try clear_value z10
  repeat' first | (first | omega | ((simp +zetaDelta only [odKey, bankIdx, bankStatusSub, canIdx, dmaObj, instBase, launchIdx, coreIdx, dmaIdx, logBase, trigIdx] <;> (try split)) <;> omega)) | (with_reducible first | assumption | apply State.perSwitch_held | apply State.refState_held) | dsimp only
@[simp] theorem State.refAtHead_held {s0 : State} (s : State) (n : Nat) (x : PerFrame) (p : List Byte) (hc : Held s0 s) :
    Held s0 (State.refAtHead s n x p) :=
  held_low (State.refAtHead_low s n x p (low_refl _)) hc
@[simp] theorem State.refAccept_held {s0 : State} (s : State) (n : Nat) (hc : Held s0 s) :
    Held s0 (State.refAccept s n) := by
  unfold State.refAccept
  repeat' first | (first | omega | ((simp +zetaDelta only [odKey, bankIdx, bankStatusSub, canIdx, dmaObj, instBase, launchIdx, coreIdx, dmaIdx, logBase, trigIdx] <;> (try split)) <;> omega)) | (with_reducible first | assumption | apply held_ite | apply State.perCnt_held | apply State.perPassive_held | apply State.refAtHead_held | apply State.refTaken_held | apply State.setRing_held | apply State.wr_held) | simp only [held_same] | dsimp only | split
@[simp] theorem State.refMissed_held {s0 : State} (s : State) (n : Nat) (hc : Held s0 s) :
    Held s0 (State.refMissed s n) := by
  unfold State.refMissed
  extract_lets z0 z1 z2
  have h1 : Held s0 z1 := by repeat' first | (first | omega | ((simp +zetaDelta only [odKey, bankIdx, bankStatusSub, canIdx, dmaObj, instBase, launchIdx, coreIdx, dmaIdx, logBase, trigIdx] <;> (try split)) <;> omega)) | (with_reducible first | assumption | apply State.perCnt_held | apply State.perEvent_held) | dsimp only
  try clear_value z1
  have h2 : Held s0 z2 := by repeat' first | (first | omega | ((simp +zetaDelta only [odKey, bankIdx, bankStatusSub, canIdx, dmaObj, instBase, launchIdx, coreIdx, dmaIdx, logBase, trigIdx] <;> (try split)) <;> omega)) | (with_reducible first | assumption | apply held_ite | apply State.hold_held | apply State.setRing_held) | simp only [held_same] | dsimp only
  try clear_value z2
  repeat' first | (first | omega | ((simp +zetaDelta only [odKey, bankIdx, bankStatusSub, canIdx, dmaObj, instBase, launchIdx, coreIdx, dmaIdx, logBase, trigIdx] <;> (try split)) <;> omega)) | (with_reducible first | assumption | apply held_ite | apply State.perListen_held | apply State.perPassive_held) | dsimp only
@[simp] theorem State.coldWin_held {s0 : State} (s : State) (n : Nat) (hc : Held s0 s) :
    Held s0 (State.coldWin s n) := by
  unfold State.coldWin
  extract_lets z0 z1
  have h1 : Held s0 z1 := by repeat' first | (first | omega | ((simp +zetaDelta only [odKey, bankIdx, bankStatusSub, canIdx, dmaObj, instBase, launchIdx, coreIdx, dmaIdx, logBase, trigIdx] <;> (try split)) <;> omega)) | (with_reducible first | assumption | apply State.perGo_held | apply State.record_held | apply State.setRing_held | apply State.wr_held) | simp only [held_same] | dsimp only
  try clear_value z1
  repeat' first | (first | omega | ((simp +zetaDelta only [odKey, bankIdx, bankStatusSub, canIdx, dmaObj, instBase, launchIdx, coreIdx, dmaIdx, logBase, trigIdx] <;> (try split)) <;> omega)) | (with_reducible first | assumption | apply State.perGo_held | apply State.record_held | apply State.setRing_held | apply State.wr_held) | simp only [held_same] | dsimp only
@[simp] theorem State.slotInstall_held {s0 : State} (s : State) (n m : Nat) (l : List (List Word)) (hc : Held s0 s) :
    Held s0 (State.slotInstall s n m l).2 :=
  held_low (State.slotInstall_low s n m l (low_refl _)) hc
@[simp] theorem State.slotLoad_held {s0 : State} (s : State) (n m v : Nat) (hc : Held s0 s) :
    Held s0 (State.slotLoad s n m v) :=
  held_low (State.slotLoad_low s n m v (low_refl _)) hc
@[simp] theorem State.setSlotFetch_held {s0 : State} (s : State) (n k : Nat) (x : Nat × List Nib) (hc : Held s0 s) :
    Held s0 (State.setSlotFetch s n k x) :=
  held_low (State.setSlotFetch_low s n k x (low_refl _)) hc
@[simp] theorem State.perInsert_held {s0 : State} (s : State) (n : Nat) (f : List Nib) (phase : Nat) (hc : Held s0 s) :
    Held s0 (State.perInsert s n f phase) := by
  unfold State.perInsert
  extract_lets z0 z1 z2
  repeat' first | (first | omega | ((simp +zetaDelta only [odKey, bankIdx, bankStatusSub, canIdx, dmaObj, instBase, launchIdx, coreIdx, dmaIdx, logBase, trigIdx] <;> (try split)) <;> omega)) | (with_reducible first | assumption | apply held_ite | apply State.perBlocked_held | apply State.perCnt_held | apply State.perEvent_held | apply State.perOpCnt_held | apply State.perSend_held | apply State.setRing_held) | simp only [held_same] | intro _ | dsimp only | split
@[simp] theorem State.mgmtLeaves_held {s0 : State} (s : State) (n slot : Nat) (put : State → List Nib → State) (hput : ∀ s a0, Held s0 s → Held s0 (put s a0)) (hc : Held s0 s) :
    Held s0 (State.mgmtLeaves s n slot put) := by
  unfold State.mgmtLeaves
  extract_lets z0 z1 z2
  have h1 : Held s0 z1.2.2 := by repeat' first | (first | omega | ((simp +zetaDelta only [odKey, bankIdx, bankStatusSub, canIdx, dmaObj, instBase, launchIdx, coreIdx, dmaIdx, logBase, trigIdx] <;> (try split)) <;> omega)) | (with_reducible first | assumption | apply State.dmaRead_held) | intro _ | dsimp only
  try clear_value z1
  have h2 : Held s0 z2 := by repeat' first | (first | omega | ((simp +zetaDelta only [odKey, bankIdx, bankStatusSub, canIdx, dmaObj, instBase, launchIdx, coreIdx, dmaIdx, logBase, trigIdx] <;> (try split)) <;> omega)) | (with_reducible first | assumption | apply State.cnt_held | apply hput) | intro _ | dsimp only
  try clear_value z2
  repeat' first | (first | omega | ((simp +zetaDelta only [odKey, bankIdx, bankStatusSub, canIdx, dmaObj, instBase, launchIdx, coreIdx, dmaIdx, logBase, trigIdx] <;> (try split)) <;> omega)) | (with_reducible first | assumption | apply State.setRing_held) | simp only [held_same] | intro _ | dsimp only
@[simp] theorem State.slotInsert_held {s0 : State} (s : State) (n k : Nat) (busy : Bool) (phase : Nat) (hc : Held s0 s) :
    Held s0 (State.slotInsert s n k busy phase) := by
  unfold State.slotInsert
  extract_lets z0
  repeat' first | (first | omega | ((simp +zetaDelta only [odKey, bankIdx, bankStatusSub, canIdx, dmaObj, instBase, launchIdx, coreIdx, dmaIdx, logBase, trigIdx] <;> (try split)) <;> omega)) | (with_reducible first | assumption | apply held_ite | apply State.mgmtLeaves_held | apply State.perCnt_held | apply State.perEvent_held | apply State.perInsert_held | apply State.perOpCnt_held | apply State.setSlotFetch_held | apply held_ite2 | apply held_ite3 | apply held_ite4) | simp only [held_same] | intro _ | dsimp only | split
@[simp] theorem State.guardCommit_held {s0 : State} (s : State) (n v master : Nat) (hc : Held s0 s) :
    Held s0 (State.guardCommit s n v master) :=
  held_low (State.guardCommit_low s n v master (low_refl _)) hc
@[simp] theorem State.guardInstall_held {s0 : State} (s : State) (n master : Nat) (l : List (Word × Word)) (hc : Held s0 s) :
    Held s0 (State.guardInstall s n master l).2 :=
  held_low (State.guardInstall_low s n master l (low_refl _)) hc
@[simp] theorem State.changeAsk_held {s0 : State} (s : State) (n mode lead : Nat) (restore : Bool) (hc : Held s0 s) :
    Held s0 (State.changeAsk s n mode lead restore) :=
  held_low (State.changeAsk_low s n mode lead restore (low_refl _)) hc
@[simp] theorem State.perRelay_held {s0 : State} (s : State) (n : Nat) (x : PerFrame) (p : List Byte) (hc : Held s0 s) :
    Held s0 (State.perRelay s n x p) :=
  held_low (State.perRelay_low s n x p (low_refl _)) hc
@[simp] theorem State.measureNode_held {s0 : State} (s : State) (n : Nat) (x : PerFrame) (hc : Held s0 s) :
    Held s0 (State.measureNode s n x) :=
  held_low (State.measureNode_low s n x (low_refl _)) hc
@[simp] theorem State.measured_held {s0 : State} (s : State) (n : Nat) (mp ms : Nat × Nat × List Byte) (ids : List (Half × DWord)) (hc : Held s0 s) :
    Held s0 (State.measured s n mp ms ids) :=
  held_low (State.measured_low s n mp ms ids (low_refl _)) hc
@[simp] theorem State.mgmtSend_held {s0 : State} (s : State) (n : Nat) (hc : Held s0 s) :
    Held s0 (State.mgmtSend s n) := by
  unfold State.mgmtSend
  extract_lets z0
  repeat' first | (first | omega | ((simp +zetaDelta only [odKey, bankIdx, bankStatusSub, canIdx, dmaObj, instBase, launchIdx, coreIdx, dmaIdx, logBase, trigIdx] <;> (try split)) <;> omega)) | (with_reducible first | assumption | apply held_ite | apply State.mgmtLeaves_held | apply State.perSend_held | apply State.setRing_held | apply State.wr_held) | simp only [held_same] | intro _ | dsimp only
@[simp] theorem State.mgmtAnswer_held {s0 : State} (s : State) (n : Nat) (x : PerFrame) (p : List Byte) (status : Nat) (reply : List Byte) (hc : Held s0 s) :
    Held s0 (State.mgmtAnswer s n x p status reply) :=
  held_low (State.mgmtAnswer_low s n x p status reply (low_refl _)) hc
@[simp] theorem State.setStaged_held {s0 : State} (s : State) (n t : Nat) (l : List (Nat × List Byte)) (hc : Held s0 s) :
    Held s0 (State.setStaged s n t l) :=
  held_low (State.setStaged_low s n t l (low_refl _)) hc
@[simp] theorem State.mgmtCommit_held {s0 : State} (s : State) (n t count : Nat) (hc : Held s0 s) :
    Held s0 (State.mgmtCommit s n t count).2 :=
  held_low (State.mgmtCommit_low s n t count (low_refl _)) hc
@[simp] theorem State.scanSettled_held {s0 : State} (s : State) (hc : Held s0 s) :
    Held s0 (State.scanSettled s) :=
  held_low (State.scanSettled_low s (low_refl _)) hc
@[simp] theorem State.commitRecord_held {s0 : State} (s : State) (hc : Held s0 s) :
    Held s0 (State.commitRecord s) :=
  held_low (State.commitRecord_low s (low_refl _)) hc
@[simp] theorem State.finishScan_held {s0 : State} (s : State) (hc : Held s0 s) :
    Held s0 (State.finishScan s) :=
  held_low (State.finishScan_low s (low_refl _)) hc
@[simp] theorem State.clearLog_held {s0 : State} (s : State) (master : Nat) (hc : Held s0 s) :
    Held s0 (State.clearLog s master) :=
  held_low (State.clearLog_low s master (low_refl _)) hc
@[simp] theorem State.logCounter_held {s0 : State} (s : State) (a v : Nat) (hc : Held s0 s) :
    Held s0 (State.logCounter s a v) :=
  held_low (State.logCounter_low s a v (low_refl _)) hc
@[simp] theorem State.instRead_held {s0 : State} (s : State) (o : InstObj) (hc : Held s0 s) :
    Held s0 (State.instRead s o).2 := by
  unfold State.instRead
  repeat' first | (first | omega | ((simp +zetaDelta only [odKey, bankIdx, bankStatusSub, canIdx, dmaObj, instBase, launchIdx, coreIdx, dmaIdx, logBase, trigIdx] <;> (try split)) <;> omega)) | (with_reducible first | assumption | apply held_ite | apply State.fetchBytes_held | apply held_ite2 | apply held_ite3 | apply held_ite4) | dsimp only
@[simp] theorem State.instWrite_held {s0 : State} (s : State) (o : InstObj) (v : Nat) (hc : Held s0 s) :
    Held s0 (State.instWrite s o v) :=
  held_low (State.instWrite_low s o v (low_refl _)) hc
@[simp] theorem State.startCopy_held {s0 : State} (s : State) (saves restores : List Nat) (hc : Held s0 s) :
    Held s0 (State.startCopy s saves restores) := by
  unfold State.startCopy
  extract_lets z0 z1 z2 z3
  repeat' first | (first | omega | ((simp +zetaDelta only [odKey, bankIdx, bankStatusSub, canIdx, dmaObj, instBase, launchIdx, coreIdx, dmaIdx, logBase, trigIdx] <;> (try split)) <;> omega)) | (with_reducible first | assumption | apply State.wr_held) | simp only [held_same] | dsimp only
@[simp] theorem State.paramOp_held {s0 : State} (s : State) (restore : Bool) (g : Nat) (hc : Held s0 s) :
    Held s0 (State.paramOp s restore g) := by
  unfold State.paramOp
  repeat' first | (first | omega | ((simp +zetaDelta only [odKey, bankIdx, bankStatusSub, canIdx, dmaObj, instBase, launchIdx, coreIdx, dmaIdx, logBase, trigIdx] <;> (try split)) <;> omega)) | (with_reducible first | assumption | apply held_ite | apply State.startCopy_held | apply State.wr_held) | simp only [held_same] | dsimp only
@[simp] theorem State.startHeld_held {s0 : State} (s : State) (hc : Held s0 s) :
    Held s0 (State.startHeld s) := by
  unfold State.startHeld
  repeat' first | (first | omega | ((simp +zetaDelta only [odKey, bankIdx, bankStatusSub, canIdx, dmaObj, instBase, launchIdx, coreIdx, dmaIdx, logBase, trigIdx] <;> (try split)) <;> omega)) | (with_reducible first | assumption | apply held_ite | apply State.startCopy_held) | dsimp only
@[simp] theorem State.copyWritten_held {s0 : State} (s : State) (ok : Bool) (hc : Held s0 s) :
    Held s0 (State.copyWritten s ok) := by
  unfold State.copyWritten
  repeat' first | (first | omega | ((simp +zetaDelta only [odKey, bankIdx, bankStatusSub, canIdx, dmaObj, instBase, launchIdx, coreIdx, dmaIdx, logBase, trigIdx] <;> (try split)) <;> omega)) | (with_reducible first | assumption | apply held_ite | apply State.event_held | apply State.startHeld_held | apply State.wr_held) | simp only [held_same] | dsimp only | split
@[simp] theorem State.startCommit_held {s0 : State} (s : State) (hc : Held s0 s) :
    Held s0 (State.startCommit s) :=
  held_low (State.startCommit_low s (low_refl _)) hc
@[simp] theorem State.doCommit_held {s0 : State} (s : State) (hc : Held s0 s) :
    Held s0 (State.doCommit s) :=
  held_low (State.doCommit_low s (low_refl _)) hc
@[simp] theorem State.optionLoad_held {s0 : State} (s : State) (hc : Held s0 s) :
    Held s0 (State.optionLoad s) :=
  held_low (State.optionLoad_low s (low_refl _)) hc
@[simp] theorem State.writeStart_held {s0 : State} (s : State) (tries starts : Nat) (hc : Held s0 s) :
    Held s0 (State.writeStart s tries starts) := by
  unfold State.writeStart
  repeat' first | (first | omega | ((simp +zetaDelta only [odKey, bankIdx, bankStatusSub, canIdx, dmaObj, instBase, launchIdx, coreIdx, dmaIdx, logBase, trigIdx] <;> (try split)) <;> omega)) | (with_reducible first | assumption | apply held_ite | apply State.setBytes_held | apply State.wr_held | apply held_ite2 | apply held_ite3 | apply held_ite4) | simp only [held_same] | dsimp only
@[simp] theorem State.writeWaiting_held {s0 : State} (s : State) (hc : Held s0 s) :
    Held s0 (State.writeWaiting s) := by
  unfold State.writeWaiting
  repeat' first | (first | omega | ((simp +zetaDelta only [odKey, bankIdx, bankStatusSub, canIdx, dmaObj, instBase, launchIdx, coreIdx, dmaIdx, logBase, trigIdx] <;> (try split)) <;> omega)) | (with_reducible first | assumption | apply held_ite | apply State.writeStart_held) | simp only [held_same] | dsimp only | split
@[simp] theorem State.clearTries_held {s0 : State} (s : State) (v : Nat) (hc : Held s0 s) :
    Held s0 (State.clearTries s v) := by
  unfold State.clearTries
  repeat' first | (first | omega | ((simp +zetaDelta only [odKey, bankIdx, bankStatusSub, canIdx, dmaObj, instBase, launchIdx, coreIdx, dmaIdx, logBase, trigIdx] <;> (try split)) <;> omega)) | (with_reducible first | assumption | apply held_ite | apply State.writeStart_held) | dsimp only
@[simp] theorem State.setLat_held {s0 : State} (s : State) (f : Lattice → Lattice) (hc : Held s0 s) :
    Held s0 (State.setLat s f) :=
  held_low (State.setLat_low s f (low_refl _)) hc
@[simp] theorem State.latOut_held {s0 : State} (s : State) (p da cls : Nat) (f : List Byte) (hc : Held s0 s) :
    Held s0 (State.latOut s p da cls f) := by
  unfold State.latOut
  repeat' first | (first | omega | ((simp +zetaDelta only [odKey, bankIdx, bankStatusSub, canIdx, dmaObj, instBase, launchIdx, coreIdx, dmaIdx, logBase, trigIdx] <;> (try split)) <;> omega)) | (with_reducible first | assumption | apply State.ringAdmit_held) | dsimp only
@[simp] theorem State.latSeq_held {s0 : State} (s : State) (cls : Nat) (hc : Held s0 s) :
    Held s0 (State.latSeq s cls).2 :=
  held_low (State.latSeq_low s cls (low_refl _)) hc
@[simp] theorem State.latToNb_held {s0 : State} (s : State) (n cls : Nat) (f : List Byte) (hc : Held s0 s) :
    Held s0 (State.latToNb s n cls f) := by
  unfold State.latToNb
  repeat' first | (first | omega | ((simp +zetaDelta only [odKey, bankIdx, bankStatusSub, canIdx, dmaObj, instBase, launchIdx, coreIdx, dmaIdx, logBase, trigIdx] <;> (try split)) <;> omega)) | (with_reducible first | assumption | apply State.latOut_held) | intro _ | dsimp only
@[simp] theorem State.latTo_held {s0 : State} (s : State) (a cls : Nat) (f : List Byte) (hc : Held s0 s) :
    Held s0 (State.latTo s a cls f) := by
  unfold State.latTo
  extract_lets z0
  repeat' first | (first | omega | ((simp +zetaDelta only [odKey, bankIdx, bankStatusSub, canIdx, dmaObj, instBase, launchIdx, coreIdx, dmaIdx, logBase, trigIdx] <;> (try split)) <;> omega)) | (with_reducible first | assumption | apply held_ite | apply State.latCnt_held | apply State.latToNb_held) | simp only [held_same] | intro _ | dsimp only | split
@[simp] theorem State.latSend_held {s0 : State} (s : State) (a typ : Nat) (payload : List Byte) (hc : Held s0 s) :
    Held s0 (State.latSend s a typ payload) := by
  unfold State.latSend
  extract_lets z0
  have h0 : Held s0 z0.2 := by repeat' first | (first | omega | ((simp +zetaDelta only [odKey, bankIdx, bankStatusSub, canIdx, dmaObj, instBase, launchIdx, coreIdx, dmaIdx, logBase, trigIdx] <;> (try split)) <;> omega)) | (with_reducible first | assumption | apply State.latSeq_held) | dsimp only
  try clear_value z0
  repeat' first | (first | omega | ((simp +zetaDelta only [odKey, bankIdx, bankStatusSub, canIdx, dmaObj, instBase, launchIdx, coreIdx, dmaIdx, logBase, trigIdx] <;> (try split)) <;> omega)) | (with_reducible first | assumption | apply State.latTo_held) | dsimp only
@[simp] theorem State.latLocal_held {s0 : State} (s : State) (port mac typ : Nat) (resp : Bool) (payload : List Byte) (hc : Held s0 s) :
    Held s0 (State.latLocal s port mac typ resp payload) := by
  unfold State.latLocal
  extract_lets z0
  have h0 : Held s0 z0.2 := by repeat' first | (first | omega | ((simp +zetaDelta only [odKey, bankIdx, bankStatusSub, canIdx, dmaObj, instBase, launchIdx, coreIdx, dmaIdx, logBase, trigIdx] <;> (try split)) <;> omega)) | (with_reducible first | assumption | apply State.latSeq_held) | dsimp only
  try clear_value z0
  repeat' first | (first | omega | ((simp +zetaDelta only [odKey, bankIdx, bankStatusSub, canIdx, dmaObj, instBase, launchIdx, coreIdx, dmaIdx, logBase, trigIdx] <;> (try split)) <;> omega)) | (with_reducible first | assumption | apply State.latOut_held) | dsimp only
@[simp] theorem State.hello_held {s0 : State} (s : State) (p : Nat) (hc : Held s0 s) :
    Held s0 (State.hello s p) := by
  unfold State.hello
  extract_lets z0 z1 z2 z3 z4
  have h3 : Held s0 z3.2 := by repeat' first | (first | omega | ((simp +zetaDelta only [odKey, bankIdx, bankStatusSub, canIdx, dmaObj, instBase, launchIdx, coreIdx, dmaIdx, logBase, trigIdx] <;> (try split)) <;> omega)) | (with_reducible first | assumption | apply State.latSeq_held) | dsimp only
  try clear_value z3
  repeat' first | (first | omega | ((simp +zetaDelta only [odKey, bankIdx, bankStatusSub, canIdx, dmaObj, instBase, launchIdx, coreIdx, dmaIdx, logBase, trigIdx] <;> (try split)) <;> omega)) | (with_reducible first | assumption | apply State.latOut_held | apply State.setLat_held) | simp only [held_same] | intro _ | dsimp only
@[simp] theorem State.latRefresh_held {s0 : State} (s : State) (hc : Held s0 s) :
    Held s0 (State.latRefresh s) := by
  unfold State.latRefresh
  repeat' first | (first | omega | ((simp +zetaDelta only [odKey, bankIdx, bankStatusSub, canIdx, dmaObj, instBase, launchIdx, coreIdx, dmaIdx, logBase, trigIdx] <;> (try split)) <;> omega)) | (with_reducible first | assumption | apply held_ite | (apply held_foldl; intro _ _ _) | apply State.hello_held) | intro _ | dsimp only
@[simp] theorem State.latEnter_held {s0 : State} (s : State) (st : Nat) (hc : Held s0 s) :
    Held s0 (State.latEnter s st) :=
  held_low (State.latEnter_low s st (low_refl _)) hc
@[simp] theorem State.enterAddr_held {s0 : State} (s : State) (a id : Nat) (hc : Held s0 s) :
    Held s0 (State.enterAddr s a id) :=
  held_low (State.enterAddr_low s a id (low_refl _)) hc
@[simp] theorem State.persist_held {s0 : State} (s : State) (i j v : Nat) (hc : Held s0 s) :
    Held s0 (State.persist s i j v) :=
  held_low (State.persist_low s i j v (low_refl _)) hc
@[simp] theorem State.takeAddr_held {s0 : State} (s : State) (a : Nat) (hc : Held s0 s) :
    Held s0 (State.takeAddr s a) :=
  held_low (State.takeAddr_low s a (low_refl _)) hc
@[simp] theorem State.keeperAddr_held {s0 : State} (s : State) (hc : Held s0 s) :
    Held s0 (State.keeperAddr s) :=
  held_low (State.keeperAddr_low s (low_refl _)) hc
@[simp] theorem State.nameKeeper_held {s0 : State} (s : State) (k : Nat × Nat × Nat) (hc : Held s0 s) :
    Held s0 (State.nameKeeper s k) :=
  held_low (State.nameKeeper_low s k (low_refl _)) hc
@[simp] theorem State.elect_held {s0 : State} (s : State) (hc : Held s0 s) :
    Held s0 (State.elect s) :=
  held_low (State.elect_low s (low_refl _)) hc
@[simp] theorem State.latEnable_held {s0 : State} (s : State) (v : Nat) (hc : Held s0 s) :
    Held s0 (State.latEnable s v) := by
  unfold State.latEnable
  repeat' first | (first | omega | ((simp +zetaDelta only [odKey, bankIdx, bankStatusSub, canIdx, dmaObj, instBase, launchIdx, coreIdx, dmaIdx, logBase, trigIdx] <;> (try split)) <;> omega)) | (with_reducible first | assumption | apply held_ite | (apply held_foldl; intro _ _ _) | apply State.latEnter_held | apply State.latRefresh_held | apply State.neighbourLost_held | apply State.setLat_held | apply State.wr_held) | intro _ | dsimp only
@[simp] theorem State.latFlood_held {s0 : State} (s : State) (x : LatFrame) (f : List Byte) (hc : Held s0 s) :
    Held s0 (State.latFlood s x f) := by
  unfold State.latFlood
  repeat' first | (first | omega | ((simp +zetaDelta only [odKey, bankIdx, bankStatusSub, canIdx, dmaObj, instBase, launchIdx, coreIdx, dmaIdx, logBase, trigIdx] <;> (try split)) <;> omega)) | (with_reducible first | assumption | apply held_ite | (apply held_foldl; intro _ _ _) | apply State.latToNb_held) | intro _ | dsimp only
theorem State.latGot_held {s0 : State} (s : State) (typ : Nat) (resp : Bool) {t1} (h : State.latGot s typ resp = some t1) (hc : Held s0 s) :
    Held s0 t1.2 :=
  held_low (State.latGot_low s typ resp h (low_refl _)) hc
@[simp] theorem State.latClaim_held {s0 : State} (s : State) (id prio addr seq : Nat) (hc : Held s0 s) :
    Held s0 (State.latClaim s id prio addr seq) :=
  held_low (State.latClaim_low s id prio addr seq (low_refl _)) hc
@[simp] theorem State.helloTaken_held {s0 : State} (s : State) (x : LatFrame) (hc : Held s0 s) : Held s0 (State.helloTaken s x) := by
  unfold State.helloTaken; extract_lets z0 z1 z2 z3 z4 z5 z6 z7; (try (first | (have : Held s0 z0 := by (first | ((repeat' (first | (first | omega | ((simp +zetaDelta only [odKey, bankIdx, bankStatusSub, canIdx, dmaObj, instBase, launchIdx, coreIdx, dmaIdx, logBase, trigIdx] <;> (try split)) <;> omega)) | with_reducible assumption | with_reducible apply held_ite | with_reducible apply held_ite2 | with_reducible apply held_ite3 | with_reducible apply held_ite4 | with_reducible apply State.cnt_held | with_reducible apply State.elect_held | with_reducible apply State.latClaim_held | with_reducible apply State.latEvent_held | with_reducible apply State.latRefresh_held | with_reducible apply State.setLat_held | with_reducible apply State.wr_held | simp only [held_same] | intro _ | dsimp only | split)); done) | ((try dsimp only); (repeat' (first | (first | omega | ((simp +zetaDelta only [odKey, bankIdx, bankStatusSub, canIdx, dmaObj, instBase, launchIdx, coreIdx, dmaIdx, logBase, trigIdx] <;> (try split)) <;> omega)) | with_reducible assumption | with_reducible apply held_ite | with_reducible apply held_ite2 | with_reducible apply held_ite3 | with_reducible apply held_ite4 | with_reducible apply State.cnt_held | with_reducible apply State.elect_held | with_reducible apply State.latClaim_held | with_reducible apply State.latEvent_held | with_reducible apply State.latRefresh_held | with_reducible apply State.setLat_held | with_reducible apply State.wr_held | simp only [held_same] | intro _ | dsimp only | split)); done) | (simp only [z0]; (repeat' (first | (first | omega | ((simp +zetaDelta only [odKey, bankIdx, bankStatusSub, canIdx, dmaObj, instBase, launchIdx, coreIdx, dmaIdx, logBase, trigIdx] <;> (try split)) <;> omega)) | with_reducible assumption | with_reducible apply held_ite | with_reducible apply held_ite2 | with_reducible apply held_ite3 | with_reducible apply held_ite4 | with_reducible apply State.cnt_held | with_reducible apply State.elect_held | with_reducible apply State.latClaim_held | with_reducible apply State.latEvent_held | with_reducible apply State.latRefresh_held | with_reducible apply State.setLat_held | with_reducible apply State.wr_held | simp only [held_same] | intro _ | dsimp only | split)); done))) | (have : Held s0 z0.2 := by ((try dsimp only); (repeat' (first | (first | omega | ((simp +zetaDelta only [odKey, bankIdx, bankStatusSub, canIdx, dmaObj, instBase, launchIdx, coreIdx, dmaIdx, logBase, trigIdx] <;> (try split)) <;> omega)) | with_reducible assumption | with_reducible apply held_ite | with_reducible apply held_ite2 | with_reducible apply held_ite3 | with_reducible apply held_ite4 | with_reducible apply State.cnt_held | with_reducible apply State.elect_held | with_reducible apply State.latClaim_held | with_reducible apply State.latEvent_held | with_reducible apply State.latRefresh_held | with_reducible apply State.setLat_held | with_reducible apply State.wr_held | simp only [held_same] | intro _ | dsimp only | split)); done)) | (have : Held s0 z0.2.2 := by ((try dsimp only); (repeat' (first | (first | omega | ((simp +zetaDelta only [odKey, bankIdx, bankStatusSub, canIdx, dmaObj, instBase, launchIdx, coreIdx, dmaIdx, logBase, trigIdx] <;> (try split)) <;> omega)) | with_reducible assumption | with_reducible apply held_ite | with_reducible apply held_ite2 | with_reducible apply held_ite3 | with_reducible apply held_ite4 | with_reducible apply State.cnt_held | with_reducible apply State.elect_held | with_reducible apply State.latClaim_held | with_reducible apply State.latEvent_held | with_reducible apply State.latRefresh_held | with_reducible apply State.setLat_held | with_reducible apply State.wr_held | simp only [held_same] | intro _ | dsimp only | split)); done)))); (try clear_value z0); (try (first | (have : Held s0 z1 := by (first | ((repeat' (first | (first | omega | ((simp +zetaDelta only [odKey, bankIdx, bankStatusSub, canIdx, dmaObj, instBase, launchIdx, coreIdx, dmaIdx, logBase, trigIdx] <;> (try split)) <;> omega)) | with_reducible assumption | with_reducible apply held_ite | with_reducible apply held_ite2 | with_reducible apply held_ite3 | with_reducible apply held_ite4 | with_reducible apply State.cnt_held | with_reducible apply State.elect_held | with_reducible apply State.latClaim_held | with_reducible apply State.latEvent_held | with_reducible apply State.latRefresh_held | with_reducible apply State.setLat_held | with_reducible apply State.wr_held | simp only [held_same] | intro _ | dsimp only | split)); done) | ((try dsimp only); (repeat' (first | (first | omega | ((simp +zetaDelta only [odKey, bankIdx, bankStatusSub, canIdx, dmaObj, instBase, launchIdx, coreIdx, dmaIdx, logBase, trigIdx] <;> (try split)) <;> omega)) | with_reducible assumption | with_reducible apply held_ite | with_reducible apply held_ite2 | with_reducible apply held_ite3 | with_reducible apply held_ite4 | with_reducible apply State.cnt_held | with_reducible apply State.elect_held | with_reducible apply State.latClaim_held | with_reducible apply State.latEvent_held | with_reducible apply State.latRefresh_held | with_reducible apply State.setLat_held | with_reducible apply State.wr_held | simp only [held_same] | intro _ | dsimp only | split)); done) | (simp only [z1]; (repeat' (first | (first | omega | ((simp +zetaDelta only [odKey, bankIdx, bankStatusSub, canIdx, dmaObj, instBase, launchIdx, coreIdx, dmaIdx, logBase, trigIdx] <;> (try split)) <;> omega)) | with_reducible assumption | with_reducible apply held_ite | with_reducible apply held_ite2 | with_reducible apply held_ite3 | with_reducible apply held_ite4 | with_reducible apply State.cnt_held | with_reducible apply State.elect_held | with_reducible apply State.latClaim_held | with_reducible apply State.latEvent_held | with_reducible apply State.latRefresh_held | with_reducible apply State.setLat_held | with_reducible apply State.wr_held | simp only [held_same] | intro _ | dsimp only | split)); done))) | (have : Held s0 z1.2 := by ((try dsimp only); (repeat' (first | (first | omega | ((simp +zetaDelta only [odKey, bankIdx, bankStatusSub, canIdx, dmaObj, instBase, launchIdx, coreIdx, dmaIdx, logBase, trigIdx] <;> (try split)) <;> omega)) | with_reducible assumption | with_reducible apply held_ite | with_reducible apply held_ite2 | with_reducible apply held_ite3 | with_reducible apply held_ite4 | with_reducible apply State.cnt_held | with_reducible apply State.elect_held | with_reducible apply State.latClaim_held | with_reducible apply State.latEvent_held | with_reducible apply State.latRefresh_held | with_reducible apply State.setLat_held | with_reducible apply State.wr_held | simp only [held_same] | intro _ | dsimp only | split)); done)) | (have : Held s0 z1.2.2 := by ((try dsimp only); (repeat' (first | (first | omega | ((simp +zetaDelta only [odKey, bankIdx, bankStatusSub, canIdx, dmaObj, instBase, launchIdx, coreIdx, dmaIdx, logBase, trigIdx] <;> (try split)) <;> omega)) | with_reducible assumption | with_reducible apply held_ite | with_reducible apply held_ite2 | with_reducible apply held_ite3 | with_reducible apply held_ite4 | with_reducible apply State.cnt_held | with_reducible apply State.elect_held | with_reducible apply State.latClaim_held | with_reducible apply State.latEvent_held | with_reducible apply State.latRefresh_held | with_reducible apply State.setLat_held | with_reducible apply State.wr_held | simp only [held_same] | intro _ | dsimp only | split)); done)))); (try clear_value z1); (try (first | (have : Held s0 z2 := by (first | ((repeat' (first | (first | omega | ((simp +zetaDelta only [odKey, bankIdx, bankStatusSub, canIdx, dmaObj, instBase, launchIdx, coreIdx, dmaIdx, logBase, trigIdx] <;> (try split)) <;> omega)) | with_reducible assumption | with_reducible apply held_ite | with_reducible apply held_ite2 | with_reducible apply held_ite3 | with_reducible apply held_ite4 | with_reducible apply State.cnt_held | with_reducible apply State.elect_held | with_reducible apply State.latClaim_held | with_reducible apply State.latEvent_held | with_reducible apply State.latRefresh_held | with_reducible apply State.setLat_held | with_reducible apply State.wr_held | simp only [held_same] | intro _ | dsimp only | split)); done) | ((try dsimp only); (repeat' (first | (first | omega | ((simp +zetaDelta only [odKey, bankIdx, bankStatusSub, canIdx, dmaObj, instBase, launchIdx, coreIdx, dmaIdx, logBase, trigIdx] <;> (try split)) <;> omega)) | with_reducible assumption | with_reducible apply held_ite | with_reducible apply held_ite2 | with_reducible apply held_ite3 | with_reducible apply held_ite4 | with_reducible apply State.cnt_held | with_reducible apply State.elect_held | with_reducible apply State.latClaim_held | with_reducible apply State.latEvent_held | with_reducible apply State.latRefresh_held | with_reducible apply State.setLat_held | with_reducible apply State.wr_held | simp only [held_same] | intro _ | dsimp only | split)); done) | (simp only [z2]; (repeat' (first | (first | omega | ((simp +zetaDelta only [odKey, bankIdx, bankStatusSub, canIdx, dmaObj, instBase, launchIdx, coreIdx, dmaIdx, logBase, trigIdx] <;> (try split)) <;> omega)) | with_reducible assumption | with_reducible apply held_ite | with_reducible apply held_ite2 | with_reducible apply held_ite3 | with_reducible apply held_ite4 | with_reducible apply State.cnt_held | with_reducible apply State.elect_held | with_reducible apply State.latClaim_held | with_reducible apply State.latEvent_held | with_reducible apply State.latRefresh_held | with_reducible apply State.setLat_held | with_reducible apply State.wr_held | simp only [held_same] | intro _ | dsimp only | split)); done))) | (have : Held s0 z2.2 := by ((try dsimp only); (repeat' (first | (first | omega | ((simp +zetaDelta only [odKey, bankIdx, bankStatusSub, canIdx, dmaObj, instBase, launchIdx, coreIdx, dmaIdx, logBase, trigIdx] <;> (try split)) <;> omega)) | with_reducible assumption | with_reducible apply held_ite | with_reducible apply held_ite2 | with_reducible apply held_ite3 | with_reducible apply held_ite4 | with_reducible apply State.cnt_held | with_reducible apply State.elect_held | with_reducible apply State.latClaim_held | with_reducible apply State.latEvent_held | with_reducible apply State.latRefresh_held | with_reducible apply State.setLat_held | with_reducible apply State.wr_held | simp only [held_same] | intro _ | dsimp only | split)); done)) | (have : Held s0 z2.2.2 := by ((try dsimp only); (repeat' (first | (first | omega | ((simp +zetaDelta only [odKey, bankIdx, bankStatusSub, canIdx, dmaObj, instBase, launchIdx, coreIdx, dmaIdx, logBase, trigIdx] <;> (try split)) <;> omega)) | with_reducible assumption | with_reducible apply held_ite | with_reducible apply held_ite2 | with_reducible apply held_ite3 | with_reducible apply held_ite4 | with_reducible apply State.cnt_held | with_reducible apply State.elect_held | with_reducible apply State.latClaim_held | with_reducible apply State.latEvent_held | with_reducible apply State.latRefresh_held | with_reducible apply State.setLat_held | with_reducible apply State.wr_held | simp only [held_same] | intro _ | dsimp only | split)); done)))); (try clear_value z2); (try (first | (have : Held s0 z3 := by (first | ((repeat' (first | (first | omega | ((simp +zetaDelta only [odKey, bankIdx, bankStatusSub, canIdx, dmaObj, instBase, launchIdx, coreIdx, dmaIdx, logBase, trigIdx] <;> (try split)) <;> omega)) | with_reducible assumption | with_reducible apply held_ite | with_reducible apply held_ite2 | with_reducible apply held_ite3 | with_reducible apply held_ite4 | with_reducible apply State.cnt_held | with_reducible apply State.elect_held | with_reducible apply State.latClaim_held | with_reducible apply State.latEvent_held | with_reducible apply State.latRefresh_held | with_reducible apply State.setLat_held | with_reducible apply State.wr_held | simp only [held_same] | intro _ | dsimp only | split)); done) | ((try dsimp only); (repeat' (first | (first | omega | ((simp +zetaDelta only [odKey, bankIdx, bankStatusSub, canIdx, dmaObj, instBase, launchIdx, coreIdx, dmaIdx, logBase, trigIdx] <;> (try split)) <;> omega)) | with_reducible assumption | with_reducible apply held_ite | with_reducible apply held_ite2 | with_reducible apply held_ite3 | with_reducible apply held_ite4 | with_reducible apply State.cnt_held | with_reducible apply State.elect_held | with_reducible apply State.latClaim_held | with_reducible apply State.latEvent_held | with_reducible apply State.latRefresh_held | with_reducible apply State.setLat_held | with_reducible apply State.wr_held | simp only [held_same] | intro _ | dsimp only | split)); done) | (simp only [z3]; (repeat' (first | (first | omega | ((simp +zetaDelta only [odKey, bankIdx, bankStatusSub, canIdx, dmaObj, instBase, launchIdx, coreIdx, dmaIdx, logBase, trigIdx] <;> (try split)) <;> omega)) | with_reducible assumption | with_reducible apply held_ite | with_reducible apply held_ite2 | with_reducible apply held_ite3 | with_reducible apply held_ite4 | with_reducible apply State.cnt_held | with_reducible apply State.elect_held | with_reducible apply State.latClaim_held | with_reducible apply State.latEvent_held | with_reducible apply State.latRefresh_held | with_reducible apply State.setLat_held | with_reducible apply State.wr_held | simp only [held_same] | intro _ | dsimp only | split)); done))) | (have : Held s0 z3.2 := by ((try dsimp only); (repeat' (first | (first | omega | ((simp +zetaDelta only [odKey, bankIdx, bankStatusSub, canIdx, dmaObj, instBase, launchIdx, coreIdx, dmaIdx, logBase, trigIdx] <;> (try split)) <;> omega)) | with_reducible assumption | with_reducible apply held_ite | with_reducible apply held_ite2 | with_reducible apply held_ite3 | with_reducible apply held_ite4 | with_reducible apply State.cnt_held | with_reducible apply State.elect_held | with_reducible apply State.latClaim_held | with_reducible apply State.latEvent_held | with_reducible apply State.latRefresh_held | with_reducible apply State.setLat_held | with_reducible apply State.wr_held | simp only [held_same] | intro _ | dsimp only | split)); done)) | (have : Held s0 z3.2.2 := by ((try dsimp only); (repeat' (first | (first | omega | ((simp +zetaDelta only [odKey, bankIdx, bankStatusSub, canIdx, dmaObj, instBase, launchIdx, coreIdx, dmaIdx, logBase, trigIdx] <;> (try split)) <;> omega)) | with_reducible assumption | with_reducible apply held_ite | with_reducible apply held_ite2 | with_reducible apply held_ite3 | with_reducible apply held_ite4 | with_reducible apply State.cnt_held | with_reducible apply State.elect_held | with_reducible apply State.latClaim_held | with_reducible apply State.latEvent_held | with_reducible apply State.latRefresh_held | with_reducible apply State.setLat_held | with_reducible apply State.wr_held | simp only [held_same] | intro _ | dsimp only | split)); done)))); (try clear_value z3); (try (first | (have : Held s0 z4 := by (first | ((repeat' (first | (first | omega | ((simp +zetaDelta only [odKey, bankIdx, bankStatusSub, canIdx, dmaObj, instBase, launchIdx, coreIdx, dmaIdx, logBase, trigIdx] <;> (try split)) <;> omega)) | with_reducible assumption | with_reducible apply held_ite | with_reducible apply held_ite2 | with_reducible apply held_ite3 | with_reducible apply held_ite4 | with_reducible apply State.cnt_held | with_reducible apply State.elect_held | with_reducible apply State.latClaim_held | with_reducible apply State.latEvent_held | with_reducible apply State.latRefresh_held | with_reducible apply State.setLat_held | with_reducible apply State.wr_held | simp only [held_same] | intro _ | dsimp only | split)); done) | ((try dsimp only); (repeat' (first | (first | omega | ((simp +zetaDelta only [odKey, bankIdx, bankStatusSub, canIdx, dmaObj, instBase, launchIdx, coreIdx, dmaIdx, logBase, trigIdx] <;> (try split)) <;> omega)) | with_reducible assumption | with_reducible apply held_ite | with_reducible apply held_ite2 | with_reducible apply held_ite3 | with_reducible apply held_ite4 | with_reducible apply State.cnt_held | with_reducible apply State.elect_held | with_reducible apply State.latClaim_held | with_reducible apply State.latEvent_held | with_reducible apply State.latRefresh_held | with_reducible apply State.setLat_held | with_reducible apply State.wr_held | simp only [held_same] | intro _ | dsimp only | split)); done) | (simp only [z4]; (repeat' (first | (first | omega | ((simp +zetaDelta only [odKey, bankIdx, bankStatusSub, canIdx, dmaObj, instBase, launchIdx, coreIdx, dmaIdx, logBase, trigIdx] <;> (try split)) <;> omega)) | with_reducible assumption | with_reducible apply held_ite | with_reducible apply held_ite2 | with_reducible apply held_ite3 | with_reducible apply held_ite4 | with_reducible apply State.cnt_held | with_reducible apply State.elect_held | with_reducible apply State.latClaim_held | with_reducible apply State.latEvent_held | with_reducible apply State.latRefresh_held | with_reducible apply State.setLat_held | with_reducible apply State.wr_held | simp only [held_same] | intro _ | dsimp only | split)); done))) | (have : Held s0 z4.2 := by ((try dsimp only); (repeat' (first | (first | omega | ((simp +zetaDelta only [odKey, bankIdx, bankStatusSub, canIdx, dmaObj, instBase, launchIdx, coreIdx, dmaIdx, logBase, trigIdx] <;> (try split)) <;> omega)) | with_reducible assumption | with_reducible apply held_ite | with_reducible apply held_ite2 | with_reducible apply held_ite3 | with_reducible apply held_ite4 | with_reducible apply State.cnt_held | with_reducible apply State.elect_held | with_reducible apply State.latClaim_held | with_reducible apply State.latEvent_held | with_reducible apply State.latRefresh_held | with_reducible apply State.setLat_held | with_reducible apply State.wr_held | simp only [held_same] | intro _ | dsimp only | split)); done)) | (have : Held s0 z4.2.2 := by ((try dsimp only); (repeat' (first | (first | omega | ((simp +zetaDelta only [odKey, bankIdx, bankStatusSub, canIdx, dmaObj, instBase, launchIdx, coreIdx, dmaIdx, logBase, trigIdx] <;> (try split)) <;> omega)) | with_reducible assumption | with_reducible apply held_ite | with_reducible apply held_ite2 | with_reducible apply held_ite3 | with_reducible apply held_ite4 | with_reducible apply State.cnt_held | with_reducible apply State.elect_held | with_reducible apply State.latClaim_held | with_reducible apply State.latEvent_held | with_reducible apply State.latRefresh_held | with_reducible apply State.setLat_held | with_reducible apply State.wr_held | simp only [held_same] | intro _ | dsimp only | split)); done)))); (try clear_value z4); (try (first | (have : Held s0 z5 := by (first | ((repeat' (first | (first | omega | ((simp +zetaDelta only [odKey, bankIdx, bankStatusSub, canIdx, dmaObj, instBase, launchIdx, coreIdx, dmaIdx, logBase, trigIdx] <;> (try split)) <;> omega)) | with_reducible assumption | with_reducible apply held_ite | with_reducible apply held_ite2 | with_reducible apply held_ite3 | with_reducible apply held_ite4 | with_reducible apply State.cnt_held | with_reducible apply State.elect_held | with_reducible apply State.latClaim_held | with_reducible apply State.latEvent_held | with_reducible apply State.latRefresh_held | with_reducible apply State.setLat_held | with_reducible apply State.wr_held | simp only [held_same] | intro _ | dsimp only | split)); done) | ((try dsimp only); (repeat' (first | (first | omega | ((simp +zetaDelta only [odKey, bankIdx, bankStatusSub, canIdx, dmaObj, instBase, launchIdx, coreIdx, dmaIdx, logBase, trigIdx] <;> (try split)) <;> omega)) | with_reducible assumption | with_reducible apply held_ite | with_reducible apply held_ite2 | with_reducible apply held_ite3 | with_reducible apply held_ite4 | with_reducible apply State.cnt_held | with_reducible apply State.elect_held | with_reducible apply State.latClaim_held | with_reducible apply State.latEvent_held | with_reducible apply State.latRefresh_held | with_reducible apply State.setLat_held | with_reducible apply State.wr_held | simp only [held_same] | intro _ | dsimp only | split)); done) | (simp only [z5]; (repeat' (first | (first | omega | ((simp +zetaDelta only [odKey, bankIdx, bankStatusSub, canIdx, dmaObj, instBase, launchIdx, coreIdx, dmaIdx, logBase, trigIdx] <;> (try split)) <;> omega)) | with_reducible assumption | with_reducible apply held_ite | with_reducible apply held_ite2 | with_reducible apply held_ite3 | with_reducible apply held_ite4 | with_reducible apply State.cnt_held | with_reducible apply State.elect_held | with_reducible apply State.latClaim_held | with_reducible apply State.latEvent_held | with_reducible apply State.latRefresh_held | with_reducible apply State.setLat_held | with_reducible apply State.wr_held | simp only [held_same] | intro _ | dsimp only | split)); done))) | (have : Held s0 z5.2 := by ((try dsimp only); (repeat' (first | (first | omega | ((simp +zetaDelta only [odKey, bankIdx, bankStatusSub, canIdx, dmaObj, instBase, launchIdx, coreIdx, dmaIdx, logBase, trigIdx] <;> (try split)) <;> omega)) | with_reducible assumption | with_reducible apply held_ite | with_reducible apply held_ite2 | with_reducible apply held_ite3 | with_reducible apply held_ite4 | with_reducible apply State.cnt_held | with_reducible apply State.elect_held | with_reducible apply State.latClaim_held | with_reducible apply State.latEvent_held | with_reducible apply State.latRefresh_held | with_reducible apply State.setLat_held | with_reducible apply State.wr_held | simp only [held_same] | intro _ | dsimp only | split)); done)) | (have : Held s0 z5.2.2 := by ((try dsimp only); (repeat' (first | (first | omega | ((simp +zetaDelta only [odKey, bankIdx, bankStatusSub, canIdx, dmaObj, instBase, launchIdx, coreIdx, dmaIdx, logBase, trigIdx] <;> (try split)) <;> omega)) | with_reducible assumption | with_reducible apply held_ite | with_reducible apply held_ite2 | with_reducible apply held_ite3 | with_reducible apply held_ite4 | with_reducible apply State.cnt_held | with_reducible apply State.elect_held | with_reducible apply State.latClaim_held | with_reducible apply State.latEvent_held | with_reducible apply State.latRefresh_held | with_reducible apply State.setLat_held | with_reducible apply State.wr_held | simp only [held_same] | intro _ | dsimp only | split)); done)))); (try clear_value z5); (try (first | (have : Held s0 z6 := by (first | ((repeat' (first | (first | omega | ((simp +zetaDelta only [odKey, bankIdx, bankStatusSub, canIdx, dmaObj, instBase, launchIdx, coreIdx, dmaIdx, logBase, trigIdx] <;> (try split)) <;> omega)) | with_reducible assumption | with_reducible apply held_ite | with_reducible apply held_ite2 | with_reducible apply held_ite3 | with_reducible apply held_ite4 | with_reducible apply State.cnt_held | with_reducible apply State.elect_held | with_reducible apply State.latClaim_held | with_reducible apply State.latEvent_held | with_reducible apply State.latRefresh_held | with_reducible apply State.setLat_held | with_reducible apply State.wr_held | simp only [held_same] | intro _ | dsimp only | split)); done) | ((try dsimp only); (repeat' (first | (first | omega | ((simp +zetaDelta only [odKey, bankIdx, bankStatusSub, canIdx, dmaObj, instBase, launchIdx, coreIdx, dmaIdx, logBase, trigIdx] <;> (try split)) <;> omega)) | with_reducible assumption | with_reducible apply held_ite | with_reducible apply held_ite2 | with_reducible apply held_ite3 | with_reducible apply held_ite4 | with_reducible apply State.cnt_held | with_reducible apply State.elect_held | with_reducible apply State.latClaim_held | with_reducible apply State.latEvent_held | with_reducible apply State.latRefresh_held | with_reducible apply State.setLat_held | with_reducible apply State.wr_held | simp only [held_same] | intro _ | dsimp only | split)); done) | (simp only [z6]; (repeat' (first | (first | omega | ((simp +zetaDelta only [odKey, bankIdx, bankStatusSub, canIdx, dmaObj, instBase, launchIdx, coreIdx, dmaIdx, logBase, trigIdx] <;> (try split)) <;> omega)) | with_reducible assumption | with_reducible apply held_ite | with_reducible apply held_ite2 | with_reducible apply held_ite3 | with_reducible apply held_ite4 | with_reducible apply State.cnt_held | with_reducible apply State.elect_held | with_reducible apply State.latClaim_held | with_reducible apply State.latEvent_held | with_reducible apply State.latRefresh_held | with_reducible apply State.setLat_held | with_reducible apply State.wr_held | simp only [held_same] | intro _ | dsimp only | split)); done))) | (have : Held s0 z6.2 := by ((try dsimp only); (repeat' (first | (first | omega | ((simp +zetaDelta only [odKey, bankIdx, bankStatusSub, canIdx, dmaObj, instBase, launchIdx, coreIdx, dmaIdx, logBase, trigIdx] <;> (try split)) <;> omega)) | with_reducible assumption | with_reducible apply held_ite | with_reducible apply held_ite2 | with_reducible apply held_ite3 | with_reducible apply held_ite4 | with_reducible apply State.cnt_held | with_reducible apply State.elect_held | with_reducible apply State.latClaim_held | with_reducible apply State.latEvent_held | with_reducible apply State.latRefresh_held | with_reducible apply State.setLat_held | with_reducible apply State.wr_held | simp only [held_same] | intro _ | dsimp only | split)); done)) | (have : Held s0 z6.2.2 := by ((try dsimp only); (repeat' (first | (first | omega | ((simp +zetaDelta only [odKey, bankIdx, bankStatusSub, canIdx, dmaObj, instBase, launchIdx, coreIdx, dmaIdx, logBase, trigIdx] <;> (try split)) <;> omega)) | with_reducible assumption | with_reducible apply held_ite | with_reducible apply held_ite2 | with_reducible apply held_ite3 | with_reducible apply held_ite4 | with_reducible apply State.cnt_held | with_reducible apply State.elect_held | with_reducible apply State.latClaim_held | with_reducible apply State.latEvent_held | with_reducible apply State.latRefresh_held | with_reducible apply State.setLat_held | with_reducible apply State.wr_held | simp only [held_same] | intro _ | dsimp only | split)); done)))); (try clear_value z6); (try (first | (have : Held s0 z7 := by (first | ((repeat' (first | (first | omega | ((simp +zetaDelta only [odKey, bankIdx, bankStatusSub, canIdx, dmaObj, instBase, launchIdx, coreIdx, dmaIdx, logBase, trigIdx] <;> (try split)) <;> omega)) | with_reducible assumption | with_reducible apply held_ite | with_reducible apply held_ite2 | with_reducible apply held_ite3 | with_reducible apply held_ite4 | with_reducible apply State.cnt_held | with_reducible apply State.elect_held | with_reducible apply State.latClaim_held | with_reducible apply State.latEvent_held | with_reducible apply State.latRefresh_held | with_reducible apply State.setLat_held | with_reducible apply State.wr_held | simp only [held_same] | intro _ | dsimp only | split)); done) | ((try dsimp only); (repeat' (first | (first | omega | ((simp +zetaDelta only [odKey, bankIdx, bankStatusSub, canIdx, dmaObj, instBase, launchIdx, coreIdx, dmaIdx, logBase, trigIdx] <;> (try split)) <;> omega)) | with_reducible assumption | with_reducible apply held_ite | with_reducible apply held_ite2 | with_reducible apply held_ite3 | with_reducible apply held_ite4 | with_reducible apply State.cnt_held | with_reducible apply State.elect_held | with_reducible apply State.latClaim_held | with_reducible apply State.latEvent_held | with_reducible apply State.latRefresh_held | with_reducible apply State.setLat_held | with_reducible apply State.wr_held | simp only [held_same] | intro _ | dsimp only | split)); done) | (simp only [z7]; (repeat' (first | (first | omega | ((simp +zetaDelta only [odKey, bankIdx, bankStatusSub, canIdx, dmaObj, instBase, launchIdx, coreIdx, dmaIdx, logBase, trigIdx] <;> (try split)) <;> omega)) | with_reducible assumption | with_reducible apply held_ite | with_reducible apply held_ite2 | with_reducible apply held_ite3 | with_reducible apply held_ite4 | with_reducible apply State.cnt_held | with_reducible apply State.elect_held | with_reducible apply State.latClaim_held | with_reducible apply State.latEvent_held | with_reducible apply State.latRefresh_held | with_reducible apply State.setLat_held | with_reducible apply State.wr_held | simp only [held_same] | intro _ | dsimp only | split)); done))) | (have : Held s0 z7.2 := by ((try dsimp only); (repeat' (first | (first | omega | ((simp +zetaDelta only [odKey, bankIdx, bankStatusSub, canIdx, dmaObj, instBase, launchIdx, coreIdx, dmaIdx, logBase, trigIdx] <;> (try split)) <;> omega)) | with_reducible assumption | with_reducible apply held_ite | with_reducible apply held_ite2 | with_reducible apply held_ite3 | with_reducible apply held_ite4 | with_reducible apply State.cnt_held | with_reducible apply State.elect_held | with_reducible apply State.latClaim_held | with_reducible apply State.latEvent_held | with_reducible apply State.latRefresh_held | with_reducible apply State.setLat_held | with_reducible apply State.wr_held | simp only [held_same] | intro _ | dsimp only | split)); done)) | (have : Held s0 z7.2.2 := by ((try dsimp only); (repeat' (first | (first | omega | ((simp +zetaDelta only [odKey, bankIdx, bankStatusSub, canIdx, dmaObj, instBase, launchIdx, coreIdx, dmaIdx, logBase, trigIdx] <;> (try split)) <;> omega)) | with_reducible assumption | with_reducible apply held_ite | with_reducible apply held_ite2 | with_reducible apply held_ite3 | with_reducible apply held_ite4 | with_reducible apply State.cnt_held | with_reducible apply State.elect_held | with_reducible apply State.latClaim_held | with_reducible apply State.latEvent_held | with_reducible apply State.latRefresh_held | with_reducible apply State.setLat_held | with_reducible apply State.wr_held | simp only [held_same] | intro _ | dsimp only | split)); done)))); (try clear_value z7); (try dsimp only); (repeat' (first | (first | omega | ((simp +zetaDelta only [odKey, bankIdx, bankStatusSub, canIdx, dmaObj, instBase, launchIdx, coreIdx, dmaIdx, logBase, trigIdx] <;> (try split)) <;> omega)) | with_reducible assumption | with_reducible apply held_ite | with_reducible apply held_ite2 | with_reducible apply held_ite3 | with_reducible apply held_ite4 | with_reducible apply State.cnt_held | with_reducible apply State.elect_held | with_reducible apply State.latClaim_held | with_reducible apply State.latEvent_held | with_reducible apply State.latRefresh_held | with_reducible apply State.setLat_held | with_reducible apply State.wr_held | simp only [held_same] | intro _ | dsimp only | split))
@[simp] theorem State.latForget_held {s0 : State} (s : State) (a : Nat) (hc : Held s0 s) :
    Held s0 (State.latForget s a) :=
  held_low (State.latForget_low s a (low_refl _)) hc
@[simp] theorem State.distribute_held {s0 : State} (s : State) (hc : Held s0 s) :
    Held s0 (State.distribute s) := by
  unfold State.distribute
  repeat' first | (first | omega | ((simp +zetaDelta only [odKey, bankIdx, bankStatusSub, canIdx, dmaObj, instBase, launchIdx, coreIdx, dmaIdx, logBase, trigIdx] <;> (try split)) <;> omega)) | (with_reducible first | assumption | apply held_ite | (apply held_foldl; intro _ _ _) | apply State.latEvent_held | apply State.latSend_held | apply State.setLat_held | apply State.wr_held | apply held_ite2 | apply held_ite3 | apply held_ite4) | simp only [held_same] | intro _ | dsimp only
@[simp] theorem State.freeBytes_held {s0 : State} (s : State) (n : Nat) (hc : Held s0 s) :
    Held s0 (State.freeBytes s n).2 :=
  held_low (State.freeBytes_low s n (low_refl _)) hc
@[simp] theorem State.latAsk_held {s0 : State} (s : State) (a typ : Nat) (payload : List Byte) (hc : Held s0 s) :
    Held s0 (State.latAsk s a typ payload) := by
  unfold State.latAsk
  extract_lets z0 z1
  have h0 : Held s0 z0.2 := by repeat' first | (first | omega | ((simp +zetaDelta only [odKey, bankIdx, bankStatusSub, canIdx, dmaObj, instBase, launchIdx, coreIdx, dmaIdx, logBase, trigIdx] <;> (try split)) <;> omega)) | (with_reducible first | assumption | apply State.latSeq_held) | dsimp only
  try clear_value z0
  repeat' first | (first | omega | ((simp +zetaDelta only [odKey, bankIdx, bankStatusSub, canIdx, dmaObj, instBase, launchIdx, coreIdx, dmaIdx, logBase, trigIdx] <;> (try split)) <;> omega)) | (with_reducible first | assumption | apply State.latTo_held | apply State.setLat_held) | simp only [held_same] | intro _ | dsimp only
@[simp] theorem State.askBlock_held {s0 : State} (s : State) (f : LatFetch) (hc : Held s0 s) :
    Held s0 (State.askBlock s f) := by
  unfold State.askBlock
  repeat' first | (first | omega | ((simp +zetaDelta only [odKey, bankIdx, bankStatusSub, canIdx, dmaObj, instBase, launchIdx, coreIdx, dmaIdx, logBase, trigIdx] <;> (try split)) <;> omega)) | (with_reducible first | assumption | apply State.latAsk_held | apply State.setLat_held) | simp only [held_same] | intro _ | dsimp only
@[simp] theorem State.fetchSet_held {s0 : State} (s : State) (gen : Nat) (hc : Held s0 s) :
    Held s0 (State.fetchSet s gen) := by
  unfold State.fetchSet
  repeat' first | (first | omega | ((simp +zetaDelta only [odKey, bankIdx, bankStatusSub, canIdx, dmaObj, instBase, launchIdx, coreIdx, dmaIdx, logBase, trigIdx] <;> (try split)) <;> omega)) | (with_reducible first | assumption | apply held_ite | apply State.askBlock_held | apply State.freeBytes_held | apply State.latAsk_held | apply State.setLat_held | apply held_ite2 | apply held_ite3 | apply held_ite4) | simp only [held_same] | intro _ | dsimp only
@[simp] theorem State.quarantine_held {s0 : State} (s : State) (cause : Nat) (hc : Held s0 s) :
    Held s0 (State.quarantine s cause) := by
  unfold State.quarantine
  extract_lets z0 z1 z2 z3
  have h1 : Held s0 z1 := by repeat' first | (first | omega | ((simp +zetaDelta only [odKey, bankIdx, bankStatusSub, canIdx, dmaObj, instBase, launchIdx, coreIdx, dmaIdx, logBase, trigIdx] <;> (try split)) <;> omega)) | (with_reducible first | assumption | apply State.latEnter_held | apply State.latEvent_held | apply State.wr_held) | dsimp only
  try clear_value z1
  have h2 : Held s0 z2 := by repeat' first | (first | omega | ((simp +zetaDelta only [odKey, bankIdx, bankStatusSub, canIdx, dmaObj, instBase, launchIdx, coreIdx, dmaIdx, logBase, trigIdx] <;> (try split)) <;> omega)) | (with_reducible first | assumption | apply State.record_held) | dsimp only
  try clear_value z2
  have h3 : Held s0 z3 := by repeat' first | (first | omega | ((simp +zetaDelta only [odKey, bankIdx, bankStatusSub, canIdx, dmaObj, instBase, launchIdx, coreIdx, dmaIdx, logBase, trigIdx] <;> (try split)) <;> omega)) | (with_reducible first | assumption | apply held_ite | apply State.enter_held | apply State.hold_held) | dsimp only
  try clear_value z3
  repeat' first | (first | omega | ((simp +zetaDelta only [odKey, bankIdx, bankStatusSub, canIdx, dmaObj, instBase, launchIdx, coreIdx, dmaIdx, logBase, trigIdx] <;> (try split)) <;> omega)) | (with_reducible first | assumption | apply held_ite | apply State.fetchSet_held) | dsimp only
@[simp] theorem State.joinCompare_held {s0 : State} (s : State) (h : Nat × Nat × Nat) (hc : Held s0 s) :
    Held s0 (State.joinCompare s h) := by
  unfold State.joinCompare
  extract_lets z0
  have h0 : Held s0 z0 := by repeat' first | (first | omega | ((simp +zetaDelta only [odKey, bankIdx, bankStatusSub, canIdx, dmaObj, instBase, launchIdx, coreIdx, dmaIdx, logBase, trigIdx] <;> (try split)) <;> omega)) | (with_reducible first | assumption | apply State.setLat_held) | simp only [held_same] | intro _ | dsimp only
  try clear_value z0
  repeat' first | (first | omega | ((simp +zetaDelta only [odKey, bankIdx, bankStatusSub, canIdx, dmaObj, instBase, launchIdx, coreIdx, dmaIdx, logBase, trigIdx] <;> (try split)) <;> omega)) | (with_reducible first | assumption | apply held_ite | apply State.confirmConfig_held | apply State.quarantine_held) | simp only [held_same] | dsimp only | split
@[simp] theorem State.headTaken_held {s0 : State} (s : State) (h : Nat × Nat × Nat) (hc : Held s0 s) :
    Held s0 (State.headTaken s h) := by
  unfold State.headTaken
  extract_lets z0
  have h0 : Held s0 z0 := by repeat' first | (first | omega | ((simp +zetaDelta only [odKey, bankIdx, bankStatusSub, canIdx, dmaObj, instBase, launchIdx, coreIdx, dmaIdx, logBase, trigIdx] <;> (try split)) <;> omega)) | (with_reducible first | assumption | apply State.setLat_held) | simp only [held_same] | intro _ | dsimp only
  try clear_value z0
  repeat' first | (first | omega | ((simp +zetaDelta only [odKey, bankIdx, bankStatusSub, canIdx, dmaObj, instBase, launchIdx, coreIdx, dmaIdx, logBase, trigIdx] <;> (try split)) <;> omega)) | (with_reducible first | assumption | apply held_ite | apply State.fetchSet_held | apply State.joinCompare_held | apply held_ite2 | apply held_ite3 | apply held_ite4) | intro _ | dsimp only
@[simp] theorem State.routePartTaken_held {s0 : State} (s : State) (x : LatFrame) (hc : Held s0 s) :
    Held s0 (State.routePartTaken s x) := by
  unfold State.routePartTaken
  extract_lets z0 z1 z2
  repeat' first | (first | omega | ((simp +zetaDelta only [odKey, bankIdx, bankStatusSub, canIdx, dmaObj, instBase, launchIdx, coreIdx, dmaIdx, logBase, trigIdx] <;> (try split)) <;> omega)) | (with_reducible first | assumption | apply held_ite | (apply held_foldl; intro _ _ _) | apply State.headTaken_held | apply State.latEvent_held | apply State.setLat_held | apply State.wr_held | apply held_ite2 | apply held_ite3 | apply held_ite4) | simp only [held_same] | intro _ | dsimp only
theorem State.effLattice_held {s0 : State} (s : State) (i j v : Nat) {t1} (h : State.effLattice s i j v = some t1) (hc : Held s0 s) :
    Held s0 t1 := by
  simp only [State.effLattice] at h
  repeat' split at h
  all_goals first | (simp only [Option.some.injEq, reduceCtorEq] at h; done) | (simp only [Option.some.injEq] at h; subst h)
  all_goals (repeat' first | (first | omega | ((simp +zetaDelta only [odKey, bankIdx, bankStatusSub, canIdx, dmaObj, instBase, launchIdx, coreIdx, dmaIdx, logBase, trigIdx] <;> (try split)) <;> omega)) | (with_reducible first | assumption | apply held_ite | apply State.latEnable_held | apply State.latForget_held) | simp only [held_same] | intro _ | dsimp only | split)

@[simp] theorem State.sampleTemps_held {s0 : State} (s : State) (ts : List Half) (hc : Held s0 s) :
    Held s0 (State.sampleTemps s ts) :=
  held_low (State.sampleTemps_low s ts (low_refl _)) hc
@[simp] theorem State.supplyOut_held {s0 : State} (s : State) (m mv : Nat) (hc : Held s0 s) :
    Held s0 (State.supplyOut s m mv) := by
  unfold State.supplyOut
  extract_lets z0
  have h0 : Held s0 z0 := by repeat' first | (first | omega | ((simp +zetaDelta only [odKey, bankIdx, bankStatusSub, canIdx, dmaObj, instBase, launchIdx, coreIdx, dmaIdx, logBase, trigIdx] <;> (try split)) <;> omega)) | (with_reducible first | assumption | apply State.setBit_held | apply State.wr_held) | dsimp only
  try clear_value z0
  repeat' first | (first | omega | ((simp +zetaDelta only [odKey, bankIdx, bankStatusSub, canIdx, dmaObj, instBase, launchIdx, coreIdx, dmaIdx, logBase, trigIdx] <;> (try split)) <;> omega)) | (with_reducible first | assumption | apply State.errBit_held | apply State.event_held | apply State.hold_held | apply State.record_held) | dsimp only
@[simp] theorem State.supplyBack_held {s0 : State} (s : State) (m mv : Nat) (hc : Held s0 s) :
    Held s0 (State.supplyBack s m mv) := by
  unfold State.supplyBack
  extract_lets z0
  have h0 : Held s0 z0 := by repeat' first | (first | omega | ((simp +zetaDelta only [odKey, bankIdx, bankStatusSub, canIdx, dmaObj, instBase, launchIdx, coreIdx, dmaIdx, logBase, trigIdx] <;> (try split)) <;> omega)) | (with_reducible first | assumption | apply State.clrBits_held | apply State.wr_held) | dsimp only
  try clear_value z0
  repeat' first | (first | omega | ((simp +zetaDelta only [odKey, bankIdx, bankStatusSub, canIdx, dmaObj, instBase, launchIdx, coreIdx, dmaIdx, logBase, trigIdx] <;> (try split)) <;> omega)) | (with_reducible first | assumption | apply held_ite | apply State.errBit_held | apply State.unhold_held | apply State.writeWaiting_held) | dsimp only
@[simp] theorem State.paceOne_held {s0 : State} (s : State) (i factory : Nat) (hc : Held s0 s) :
    Held s0 (State.paceOne s i factory) :=
  held_low (State.paceOne_low s i factory (low_refl _)) hc
@[simp] theorem State.doArm_held {s0 : State} (s : State) (master : Nat) (hc : Held s0 s) :
    Held s0 (State.doArm s master) :=
  held_low (State.doArm_low s master (low_refl _)) hc
@[simp] theorem State.disarm_held {s0 : State} (s : State) (master reason : Nat) (hc : Held s0 s) :
    Held s0 (State.disarm s master reason) :=
  held_low (State.disarm_low s master reason (low_refl _)) hc
@[simp] theorem State.flipBits_held {s0 : State} (s : State) (a b1 b2 : Nat) (double : Bool) (hc : Held s0 s) : Held s0 (State.flipBits s a b1 b2 double) :=
  held_low (State.flipBits_low s a b1 b2 double (low_refl _)) hc
@[simp] theorem State.becomeArmed_held {s0 : State} (s : State) (hc : Held s0 s) :
    Held s0 (State.becomeArmed s) :=
  held_low (State.becomeArmed_low s (low_refl _)) hc
@[simp] theorem State.doTestInService_held {s0 : State} (s : State) (p v : Nat) (hc : Held s0 s) :
    Held s0 (State.doTestInService s p v) :=
  held_low (State.doTestInService_low s p v (low_refl _)) hc
@[simp] theorem State.setPio_held {s0 : State} (s : State) (b : Nat) (x : Pio) (hc : Held s0 s) :
    Held s0 (State.setPio s b x) :=
  held_low (State.setPio_low s b x (low_refl _)) hc
@[simp] theorem State.setSm_held {s0 : State} (s : State) (m : Nat) (x : Sm) (hc : Held s0 s) :
    Held s0 (State.setSm s m x) :=
  held_low (State.setSm_low s m x (low_refl _)) hc
@[simp] theorem State.pioEvent_held {s0 : State} (s : State) (b k : Nat) (hc : Held s0 s) :
    Held s0 (State.pioEvent s b k) :=
  held_low (State.pioEvent_low s b k (low_refl _)) hc
@[simp] theorem State.pioShow_held {s0 : State} (s : State) (b : Nat) (hc : Held s0 s) :
    Held s0 (State.pioShow s b) :=
  held_low (State.pioShow_low s b (low_refl _)) hc
@[simp] theorem State.pioDrive_held {s0 : State} (s : State) (m base : Nat) (dir : Bool) (bits : List Bool) (hc : Held s0 s) :
    Held s0 (State.pioDrive s m base dir bits) :=
  held_low (State.pioDrive_low s m base dir bits (low_refl _)) hc
@[simp] theorem State.pioInputs_held {s0 : State} (s : State) (b : Nat) (pins : Half) (hc : Held s0 s) :
    Held s0 (State.pioInputs s b pins) :=
  held_low (State.pioInputs_low s b pins (low_refl _)) hc
@[simp] theorem State.setPioFlags_held {s0 : State} (s : State) (b v : Nat) (hc : Held s0 s) :
    Held s0 (State.setPioFlags s b v) :=
  held_low (State.setPioFlags_low s b v (low_refl _)) hc
@[simp] theorem State.txPush_held {s0 : State} (s : State) (m : Nat) (w : Word) (hc : Held s0 s) :
    Held s0 (State.txPush s m w) :=
  held_low (State.txPush_low s m w (low_refl _)) hc
@[simp] theorem State.txTake_held {s0 : State} (s : State) (m : Nat) (hc : Held s0 s) :
    Held s0 (State.txTake s m) :=
  held_low (State.txTake_low s m (low_refl _)) hc
@[simp] theorem State.rxPut_held {s0 : State} (s : State) (m : Nat) (hc : Held s0 s) :
    Held s0 (State.rxPut s m) :=
  held_low (State.rxPut_low s m (low_refl _)) hc
@[simp] theorem State.rxPop_held {s0 : State} (s : State) (m : Nat) (hc : Held s0 s) :
    Held s0 (State.rxPop s m).2 :=
  held_low (State.rxPop_low s m (low_refl _)) hc
@[simp] theorem State.txBit_held {s0 : State} (s : State) (m : Nat) (hc : Held s0 s) :
    Held s0 (State.txBit s m).2 :=
  held_low (State.txBit_low s m (low_refl _)) hc
@[simp] theorem State.takeBits_held {s0 : State} (s : State) (m : Nat) (got : List Bool) (n : Nat) (hc : Held s0 s) : Held s0 (s.takeBits m got n).2.2 :=
  held_low (State.takeBits_low s m got n (low_refl _)) hc
@[simp] theorem State.rxFlush_held {s0 : State} (s : State) (m : Nat) (hc : Held s0 s) :
    Held s0 (State.rxFlush s m).2 :=
  held_low (State.rxFlush_low s m (low_refl _)) hc
@[simp] theorem State.rxBit_held {s0 : State} (s : State) (m : Nat) (v : Bool) (hc : Held s0 s) :
    Held s0 (State.rxBit s m v) :=
  held_low (State.rxBit_low s m v (low_refl _)) hc
@[simp] theorem State.giveBits_held {s0 : State} (s : State) (m : Nat) (l : List Bool) (hc : Held s0 s) : Held s0 (s.giveBits m l).2 :=
  held_low (State.giveBits_low s m l (low_refl _)) hc
@[simp] theorem State.smDone_held {s0 : State} (s : State) (m : Nat) (w : Half) (branch : Option Nat) (hc : Held s0 s) :
    Held s0 (State.smDone s m w branch) :=
  held_low (State.smDone_low s m w branch (low_refl _)) hc
@[simp] theorem State.smStall_held {s0 : State} (s : State) (m st : Nat) (hc : Held s0 s) :
    Held s0 (State.smStall s m st) :=
  held_low (State.smStall_low s m st (low_refl _)) hc
theorem State.smFetch_held {s0 : State} (s : State) (m op : Nat) {t1} (h : State.smFetch s m op = some t1) (hc : Held s0 s) :
    Held s0 t1.2 :=
  held_low (State.smFetch_low s m op h (low_refl _)) hc
@[simp] theorem State.smTakes_held {s0 : State} (s : State) (m n : Nat) (f : State → List Bool → State) (hf : ∀ s a0, Held s0 s → Held s0 (f s a0)) (hc : Held s0 s) :
    Held s0 (State.smTakes s m n f) := by
  unfold State.smTakes
  extract_lets z0
  have h0 : Held s0 z0.2.2 := by repeat' first | (first | omega | ((simp +zetaDelta only [odKey, bankIdx, bankStatusSub, canIdx, dmaObj, instBase, launchIdx, coreIdx, dmaIdx, logBase, trigIdx] <;> (try split)) <;> omega)) | (with_reducible first | assumption | apply State.takeBits_held) | intro _ | dsimp only
  try clear_value z0
  repeat' first | (first | omega | ((simp +zetaDelta only [odKey, bankIdx, bankStatusSub, canIdx, dmaObj, instBase, launchIdx, coreIdx, dmaIdx, logBase, trigIdx] <;> (try split)) <;> omega)) | (with_reducible first | assumption | apply held_ite | apply State.setSm_held | apply State.smStall_held | apply hf | apply held_ite2 | apply held_ite3 | apply held_ite4) | simp only [held_same] | intro _ | dsimp only
@[simp] theorem State.smGives_held {s0 : State} (s : State) (m : Nat) (w : Half) (l : List Bool) (hc : Held s0 s) :
    Held s0 (State.smGives s m w l) :=
  held_low (State.smGives_low s m w l (low_refl _)) hc
@[simp] theorem State.smDrive_held {s0 : State} (s : State) (m : Nat) (w : Half) (hc : Held s0 s) : Held s0 (State.smDrive s m w) :=
  held_low (State.smDrive_low s m w (low_refl _)) hc
@[simp] theorem State.smSample_held {s0 : State} (s : State) (m : Nat) (w : Half) (hc : Held s0 s) :
    Held s0 (State.smSample s m w) :=
  held_low (State.smSample_low s m w (low_refl _)) hc
@[simp] theorem State.smLoadTw_held {s0 : State} (s : State) (m : Nat) (w : Half) (hc : Held s0 s) :
    Held s0 (State.smLoadTw s m w) :=
  held_low (State.smLoadTw_low s m w (low_refl _)) hc
@[simp] theorem State.smStoreRw_held {s0 : State} (s : State) (m : Nat) (w : Half) (hc : Held s0 s) :
    Held s0 (State.smStoreRw s m w) :=
  held_low (State.smStoreRw_low s m w (low_refl _)) hc
@[simp] theorem State.smLoadImm_held {s0 : State} (s : State) (m : Nat) (w : Half) (hc : Held s0 s) :
    Held s0 (State.smLoadImm s m w) :=
  held_low (State.smLoadImm_low s m w (low_refl _)) hc
@[simp] theorem State.smAwait_held {s0 : State} (s : State) (m : Nat) (w : Half) (hc : Held s0 s) :
    Held s0 (State.smAwait s m w) :=
  held_low (State.smAwait_low s m w (low_refl _)) hc
@[simp] theorem State.smFlag_held {s0 : State} (s : State) (m : Nat) (w : Half) (hc : Held s0 s) :
    Held s0 (State.smFlag s m w) :=
  held_low (State.smFlag_low s m w (low_refl _)) hc
@[simp] theorem State.smCopy_held {s0 : State} (s : State) (m : Nat) (w : Half) (hc : Held s0 s) :
    Held s0 (State.smCopy s m w) :=
  held_low (State.smCopy_low s m w (low_refl _)) hc
@[simp] theorem State.smUnpack_held {s0 : State} (s : State) (m : Nat) (w : Half) (hc : Held s0 s) :
    Held s0 (State.smUnpack s m w) :=
  held_low (State.smUnpack_low s m w (low_refl _)) hc
@[simp] theorem State.smPack_held {s0 : State} (s : State) (m : Nat) (w : Half) (hc : Held s0 s) :
    Held s0 (State.smPack s m w) :=
  held_low (State.smPack_low s m w (low_refl _)) hc
@[simp] theorem State.smLoop_held {s0 : State} (s : State) (m j : Nat) (w : Half) (hc : Held s0 s) :
    Held s0 (State.smLoop s m j w) :=
  held_low (State.smLoop_low s m j w (low_refl _)) hc
@[simp] theorem State.smResume_held {s0 : State} (s : State) (m : Nat) (hc : Held s0 s) :
    Held s0 (State.smResume s m) :=
  held_low (State.smResume_low s m (low_refl _)) hc
@[simp] theorem State.smTimeUp_held {s0 : State} (s : State) (m : Nat) (hc : Held s0 s) :
    Held s0 (State.smTimeUp s m) :=
  held_low (State.smTimeUp_low s m (low_refl _)) hc
@[simp] theorem State.smRun_held {s0 : State} (s : State) (m op : Nat) (f : State → Half → State) (hf : ∀ s a, Held s0 s → Held s0 (f s a)) (hc : Held s0 s) : Held s0 (s.smRun m op f) := by
  unfold State.smRun
  split
  · rename_i h
    exact hf _ _ (State.smFetch_held s m op h hc)
  · exact hc
@[simp] theorem State.smEnable_held {s0 : State} (s : State) (b v : Nat) (hc : Held s0 s) :
    Held s0 (State.smEnable s b v) :=
  held_low (State.smEnable_low s b v (low_refl _)) hc
@[simp] theorem State.smRestart_held {s0 : State} (s : State) (m : Nat) (hc : Held s0 s) :
    Held s0 (State.smRestart s m) :=
  held_low (State.smRestart_low s m (low_refl _)) hc
@[simp] theorem State.smClear_held {s0 : State} (s : State) (m : Nat) (hc : Held s0 s) :
    Held s0 (State.smClear s m) :=
  held_low (State.smClear_low s m (low_refl _)) hc
@[simp] theorem State.smWrap_held {s0 : State} (s : State) (m v : Nat) (hc : Held s0 s) :
    Held s0 (State.smWrap s m v) :=
  held_low (State.smWrap_low s m v (low_refl _)) hc
@[simp] theorem State.smStream_held {s0 : State} (s : State) (m v : Nat) (hc : Held s0 s) :
    Held s0 (State.smStream s m v) :=
  held_low (State.smStream_low s m v (low_refl _)) hc
@[simp] theorem State.syncApply_held {s0 : State} (s : State) (hc : Held s0 s) :
    Held s0 (State.syncApply s) :=
  held_low (State.syncApply_low s (low_refl _)) hc
@[simp] theorem State.syncCommand_held {s0 : State} (s : State) (v : Nat) (hc : Held s0 s) :
    Held s0 (State.syncCommand s v) :=
  held_low (State.syncCommand_low s v (low_refl _)) hc
@[simp] theorem State.pioTrigger_held {s0 : State} (s : State) (d t : Nat) (hc : Held s0 s) :
    Held s0 (State.pioTrigger s d t) :=
  held_low (State.pioTrigger_low s d t (low_refl _)) hc
@[simp] theorem State.dmaStart_held {s0 : State} (s : State) (k v : Nat) (hc : Held s0 s) :
    Held s0 (State.dmaStart s k v) :=
  held_low (State.dmaStart_low s k v (low_refl _)) hc
@[simp] theorem State.dmaStop_held {s0 : State} (s : State) (k : Nat) (hc : Held s0 s) :
    Held s0 (State.dmaStop s k) :=
  held_low (State.dmaStop_low s k (low_refl _)) hc
@[simp] theorem State.dmaControl_held {s0 : State} (s : State) (k v : Nat) (hc : Held s0 s) :
    Held s0 (State.dmaControl s k v) :=
  held_low (State.dmaControl_low s k v (low_refl _)) hc
@[simp] theorem State.dmaMoved_held {s0 : State} (s : State) (k : Nat) (hc : Held s0 s) :
    Held s0 (State.dmaMoved s k) :=
  held_low (State.dmaMoved_low s k (low_refl _)) hc
theorem State.effPio_held {s0 : State} (s : State) (i j v : Nat) {t1} (h : State.effPio s i j v = some t1) (hc : Held s0 s) :
    Held s0 t1 :=
  held_low (State.effPio_low s i j v h (low_refl _)) hc
@[simp] theorem State.setTrkS_held {s0 : State} (s : State) (t j v : Nat) (hc : Held s0 s) :
    Held s0 (State.setTrkS s t j v) :=
  held_low (State.setTrkS_low s t j v (low_refl _)) hc
@[simp] theorem State.trkCnt_held {s0 : State} (s : State) (t j : Nat) (hc : Held s0 s) :
    Held s0 (State.trkCnt s t j) :=
  held_low (State.trkCnt_low s t j (low_refl _)) hc
@[simp] theorem State.trkAnchor_held {s0 : State} (s : State) (t : Nat) (hc : Held s0 s) :
    Held s0 (State.trkAnchor s t) :=
  held_low (State.trkAnchor_low s t (low_refl _)) hc
@[simp] theorem State.trkNext_held {s0 : State} (s : State) (t : Nat) (hc : Held s0 s) :
    Held s0 (State.trkNext s t) :=
  held_low (State.trkNext_low s t (low_refl _)) hc
@[simp] theorem State.trkStop_held {s0 : State} (s : State) (t st : Nat) (hc : Held s0 s) :
    Held s0 (State.trkStop s t st) :=
  held_low (State.trkStop_low s t st (low_refl _)) hc
@[simp] theorem State.trkEnable_held {s0 : State} (s : State) (t v : Nat) (hc : Held s0 s) :
    Held s0 (State.trkEnable s t v) :=
  held_low (State.trkEnable_low s t v (low_refl _)) hc
@[simp] theorem State.trkAbort_held {s0 : State} (s : State) (t : Nat) (hc : Held s0 s) :
    Held s0 (State.trkAbort s t) :=
  held_low (State.trkAbort_low s t (low_refl _)) hc
@[simp] theorem State.trkAdvance_held {s0 : State} (s : State) (t : Nat) (hc : Held s0 s) : Held s0 (State.trkAdvance s t) :=
  held_low (State.trkAdvance_low s t (low_refl _)) hc
@[simp] theorem State.trkEnd_held {s0 : State} (s : State) (t : Nat) (hc : Held s0 s) :
    Held s0 (State.trkEnd s t) :=
  held_low (State.trkEnd_low s t (low_refl _)) hc
@[simp] theorem State.trkFinish_held {s0 : State} (s : State) (t : Nat) (hc : Held s0 s) :
    Held s0 (State.trkFinish s t) :=
  held_low (State.trkFinish_low s t (low_refl _)) hc
@[simp] theorem State.trkSwap_held {s0 : State} (s : State) (t : Nat) (hc : Held s0 s) :
    Held s0 (State.trkSwap s t) :=
  held_low (State.trkSwap_low s t (low_refl _)) hc
@[simp] theorem State.trkBegin_held {s0 : State} (s : State) (t : Nat) (hc : Held s0 s) :
    Held s0 (State.trkBegin s t) :=
  held_low (State.trkBegin_low s t (low_refl _)) hc
@[simp] theorem State.trkWrite_held {s0 : State} (s : State) (t : Nat) (d : List Byte) (late : Bool) (hc : Held s0 s) :
    Held s0 (State.trkWrite s t d late) :=
  held_low (State.trkWrite_low s t d late (low_refl _)) hc
@[simp] theorem State.holdRequest_held {s0 : State} (s : State) (v : Nat) (hc : Held s0 s) :
    Held s0 (State.holdRequest s v) := by
  unfold State.holdRequest
  extract_lets z0
  have h0 : Held s0 z0 := by repeat' first | (first | omega | ((simp +zetaDelta only [odKey, bankIdx, bankStatusSub, canIdx, dmaObj, instBase, launchIdx, coreIdx, dmaIdx, logBase, trigIdx] <;> (try split)) <;> omega)) | (with_reducible first | assumption | apply State.wr_held) | dsimp only
  try clear_value z0
  repeat' first | (first | omega | ((simp +zetaDelta only [odKey, bankIdx, bankStatusSub, canIdx, dmaObj, instBase, launchIdx, coreIdx, dmaIdx, logBase, trigIdx] <;> (try split)) <;> omega)) | (with_reducible first | assumption | apply held_ite | apply State.hold_held | apply State.unhold_held) | dsimp only
@[simp] theorem State.trkLate_held {s0 : State} (s : State) (t : Nat) (dbe : Bool) (hc : Held s0 s) :
    Held s0 (State.trkLate s t dbe) := by
  unfold State.trkLate
  extract_lets z0 z1 z2 z3 z4
  have h0 : Held s0 z0 := by repeat' first | (first | omega | ((simp +zetaDelta only [odKey, bankIdx, bankStatusSub, canIdx, dmaObj, instBase, launchIdx, coreIdx, dmaIdx, logBase, trigIdx] <;> (try split)) <;> omega)) | (with_reducible first | assumption | apply State.locusEvent_held | apply State.trkCnt_held) | dsimp only
  try clear_value z0
  have h1 : Held s0 z1 := by repeat' first | (first | omega | ((simp +zetaDelta only [odKey, bankIdx, bankStatusSub, canIdx, dmaObj, instBase, launchIdx, coreIdx, dmaIdx, logBase, trigIdx] <;> (try split)) <;> omega)) | (with_reducible first | assumption | apply held_ite | apply State.locusEvent_held | apply State.trkCnt_held) | dsimp only
  try clear_value z1
  have h3 : Held s0 z3 := by repeat' first | (first | omega | ((simp +zetaDelta only [odKey, bankIdx, bankStatusSub, canIdx, dmaObj, instBase, launchIdx, coreIdx, dmaIdx, logBase, trigIdx] <;> (try split)) <;> omega)) | (with_reducible first | assumption | apply held_ite | apply State.holdRequest_held) | dsimp only
  try clear_value z3
  repeat' first | (first | omega | ((simp +zetaDelta only [odKey, bankIdx, bankStatusSub, canIdx, dmaObj, instBase, launchIdx, coreIdx, dmaIdx, logBase, trigIdx] <;> (try split)) <;> omega)) | (with_reducible first | assumption | apply held_ite | apply State.trkFinish_held | apply State.trkWrite_held) | simp only [held_same] | dsimp only | split
@[simp] theorem State.mixWords_held {s0 : State} (s : State) (old new : List Byte) (n : Nat) (hc : Held s0 s) : Held s0 (s.mixWords old new n).2 :=
  held_low (State.mixWords_low s old new n (low_refl _)) hc
@[simp] theorem State.trkReadDone_held {s0 : State} (s : State) (t : Nat) (hc : Held s0 s) :
    Held s0 (State.trkReadDone s t) := by
  unfold State.trkReadDone
  extract_lets z0 z1
  repeat' first | (first | omega | ((simp +zetaDelta only [odKey, bankIdx, bankStatusSub, canIdx, dmaObj, instBase, launchIdx, coreIdx, dmaIdx, logBase, trigIdx] <;> (try split)) <;> omega)) | (with_reducible first | assumption | apply held_ite | apply State.dmaRead_held | apply State.mixWords_held | apply State.setTrack_held | apply State.trkLate_held | apply State.trkWrite_held | apply held_ite2 | apply held_ite3 | apply held_ite4) | simp only [held_same] | dsimp only
@[simp] theorem State.trkStore_held {s0 : State} (s : State) (t : Nat) (d : List Byte) (hc : Held s0 s) :
    Held s0 (State.trkStore s t d) :=
  held_low (State.trkStore_low s t d (low_refl _)) hc
@[simp] theorem State.trkStaged_held {s0 : State} (s : State) (t : Nat) (hc : Held s0 s) :
    Held s0 (State.trkStaged s t) :=
  held_low (State.trkStaged_low s t (low_refl _)) hc
@[simp] theorem State.swapArm_held {s0 : State} (s : State) (tied : Bool) (hc : Held s0 s) :
    Held s0 (State.swapArm s tied) :=
  held_low (State.swapArm_low s tied (low_refl _)) hc
@[simp] theorem State.swapStop_held {s0 : State} (s : State) (hc : Held s0 s) :
    Held s0 (State.swapStop s) :=
  held_low (State.swapStop_low s (low_refl _)) hc
@[simp] theorem State.swapCommand_held {s0 : State} (s : State) (v : Nat) (hc : Held s0 s) :
    Held s0 (State.swapCommand s v) :=
  held_low (State.swapCommand_low s v (low_refl _)) hc
theorem State.effLocus_held {s0 : State} (s : State) (i j v : Nat) {t1} (h : State.effLocus s i j v = some t1) (hc : Held s0 s) :
    Held s0 t1 :=
  held_low (State.effLocus_low s i j v h (low_refl _)) hc
@[simp] theorem State.setCan_held {s0 : State} (s : State) (c : Nat) (x : Can) (hc : Held s0 s) :
    Held s0 (State.setCan s c x) :=
  held_low (State.setCan_low s c x (low_refl _)) hc
@[simp] theorem State.canEvent_held {s0 : State} (s : State) (c b : Nat) (hc : Held s0 s) :
    Held s0 (State.canEvent s c b) :=
  held_low (State.canEvent_low s c b (low_refl _)) hc
@[simp] theorem State.canCnt_held {s0 : State} (s : State) (c j : Nat) (hc : Held s0 s) :
    Held s0 (State.canCnt s c j) :=
  held_low (State.canCnt_low s c j (low_refl _)) hc
@[simp] theorem State.setBuf_held {s0 : State} (s : State) (c b lsb w v : Nat) (hc : Held s0 s) :
    Held s0 (State.setBuf s c b lsb w v) :=
  held_low (State.setBuf_low s c b lsb w v (low_refl _)) hc
@[simp] theorem State.setBufState_held {s0 : State} (s : State) (c b v : Nat) (hc : Held s0 s) :
    Held s0 (State.setBufState s c b v) :=
  held_low (State.setBufState_low s c b v (low_refl _)) hc
@[simp] theorem State.canStamp_held {s0 : State} (s : State) (c ago phase : Nat) (hc : Held s0 s) :
    Held s0 (State.canStamp s c ago phase).2 :=
  held_low (State.canStamp_low s c ago phase (low_refl _)) hc
@[simp] theorem State.canPut_held {s0 : State} (s : State) (c k a : Nat) (f : CanFrame) (how : Nat) (hc : Held s0 s) :
    Held s0 (State.canPut s c k a f how) :=
  held_low (State.canPut_low s c k a f how (low_refl _)) hc
@[simp] theorem State.canTake_held {s0 : State} (s : State) (c b : Nat) (hc : Held s0 s) :
    Held s0 (State.canTake s c b).2 := by
  unfold State.canTake
  extract_lets z0 z1 z2 z3
  have h0 : Held s0 z0.2.2 := by repeat' first | (first | omega | ((simp +zetaDelta only [odKey, bankIdx, bankStatusSub, canIdx, dmaObj, instBase, launchIdx, coreIdx, dmaIdx, logBase, trigIdx] <;> (try split)) <;> omega)) | (with_reducible first | assumption | apply State.fetchBytes_held) | dsimp only
  try clear_value z0
  repeat' first | (first | omega | ((simp +zetaDelta only [odKey, bankIdx, bankStatusSub, canIdx, dmaObj, instBase, launchIdx, coreIdx, dmaIdx, logBase, trigIdx] <;> (try split)) <;> omega)) | (with_reducible first | assumption | apply held_ite | apply State.drop_held | apply held_ite2 | apply held_ite3 | apply held_ite4) | dsimp only
@[simp] theorem State.canAccept_held {s0 : State} (s : State) (c : Nat) (f : CanFrame) (hc : Held s0 s) :
    Held s0 (State.canAccept s c f).2 :=
  held_low (State.canAccept_low s c f (low_refl _)) hc
@[simp] theorem State.fifoStore_held {s0 : State} (s : State) (c k : Nat) (f : CanFrame) (how : Nat) (hc : Held s0 s) :
    Held s0 (State.fifoStore s c k f how) :=
  held_low (State.fifoStore_low s c k f how (low_refl _)) hc
@[simp] theorem State.canLose_held {s0 : State} (s : State) (c b : Nat) (hc : Held s0 s) :
    Held s0 (State.canLose s c b) :=
  held_low (State.canLose_low s c b (low_refl _)) hc
@[simp] theorem State.bufStore_held {s0 : State} (s : State) (c b : Nat) (f : CanFrame) (how : Nat) (hc : Held s0 s) :
    Held s0 (State.bufStore s c b f how) :=
  held_low (State.bufStore_low s c b f how (low_refl _)) hc
@[simp] theorem State.canStore_held {s0 : State} (s : State) (c : Nat) (hc : Held s0 s) :
    Held s0 (State.canStore s c) :=
  held_low (State.canStore_low s c (low_refl _)) hc
@[simp] theorem State.canOffer_held {s0 : State} (s : State) (c : Nat) (f : CanFrame) (hc : Held s0 s) : Held s0 (s.canOffer c f) :=
  held_low (State.canOffer_low s c f (low_refl _)) hc
@[simp] theorem State.canStatus_held {s0 : State} (s : State) (c lsb w v : Nat) (hc : Held s0 s) :
    Held s0 (State.canStatus s c lsb w v) :=
  held_low (State.canStatus_low s c lsb w v (low_refl _)) hc
@[simp] theorem State.canCounters_held {s0 : State} (s : State) (c tec rec : Nat) (hc : Held s0 s) :
    Held s0 (State.canCounters s c tec rec) :=
  held_low (State.canCounters_low s c tec rec (low_refl _)) hc
@[simp] theorem State.recUp_held {s0 : State} (s : State) (c k : Nat) (hc : Held s0 s) :
    Held s0 (State.recUp s c k).2 :=
  held_low (State.recUp_low s c k (low_refl _)) hc
@[simp] theorem State.recDown_held {s0 : State} (s : State) (c : Nat) (hc : Held s0 s) :
    Held s0 (State.recDown s c).2 :=
  held_low (State.recDown_low s c (low_refl _)) hc
@[simp] theorem State.canErr_held {s0 : State} (s : State) (c lec : Nat) (data : Bool) (hc : Held s0 s) :
    Held s0 (State.canErr s c lec data) :=
  held_low (State.canErr_low s c lec data (low_refl _)) hc
@[simp] theorem State.canEnter_held {s0 : State} (s : State) (c m : Nat) (hc : Held s0 s) :
    Held s0 (State.canEnter s c m) :=
  held_low (State.canEnter_low s c m (low_refl _)) hc
@[simp] theorem State.canMode_held {s0 : State} (s : State) (c m : Nat) (hc : Held s0 s) :
    Held s0 (State.canMode s c m) :=
  held_low (State.canMode_low s c m (low_refl _)) hc
@[simp] theorem State.canIdle_held {s0 : State} (s : State) (c : Nat) (hc : Held s0 s) :
    Held s0 (State.canIdle s c) :=
  held_low (State.canIdle_low s c (low_refl _)) hc
@[simp] theorem State.canHeard_held {s0 : State} (s : State) (c : Nat) (hc : Held s0 s) :
    Held s0 (State.canHeard s c) :=
  held_low (State.canHeard_low s c (low_refl _)) hc
@[simp] theorem State.canRequest_held {s0 : State} (s : State) (c b : Nat) (hc : Held s0 s) :
    Held s0 (State.canRequest s c b) := by
  unfold State.canRequest
  repeat' first | (first | omega | ((simp +zetaDelta only [odKey, bankIdx, bankStatusSub, canIdx, dmaObj, instBase, launchIdx, coreIdx, dmaIdx, logBase, trigIdx] <;> (try split)) <;> omega)) | (with_reducible first | assumption | apply held_ite | apply State.canTake_held | apply State.setBuf_held | apply State.setBufState_held | apply State.setCan_held | apply held_ite2 | apply held_ite3 | apply held_ite4) | simp only [held_same] | dsimp only
@[simp] theorem State.canRetry_held {s0 : State} (s : State) (c b : Nat) (hc : Held s0 s) :
    Held s0 (State.canRetry s c b) :=
  held_low (State.canRetry_low s c b (low_refl _)) hc
@[simp] theorem State.canLost_held {s0 : State} (s : State) (c : Nat) (hc : Held s0 s) :
    Held s0 (State.canLost s c) :=
  held_low (State.canLost_low s c (low_refl _)) hc
@[simp] theorem State.canAttempt_held {s0 : State} (s : State) (c phase : Nat) (hc : Held s0 s) :
    Held s0 (State.canAttempt s c phase) :=
  held_low (State.canAttempt_low s c phase (low_refl _)) hc
@[simp] theorem State.canDelay_held {s0 : State} (s : State) (c : Nat) (f : CanFrame) (delay : Nat) (hc : Held s0 s) :
    Held s0 (State.canDelay s c f delay) :=
  held_low (State.canDelay_low s c f delay (low_refl _)) hc
@[simp] theorem State.canSent_held {s0 : State} (s : State) (c b : Nat) (f : CanFrame) (hc : Held s0 s) :
    Held s0 (State.canSent s c b f) :=
  held_low (State.canSent_low s c b f (low_refl _)) hc
@[simp] theorem State.canUnacked_held {s0 : State} (s : State) (c b : Nat) (hc : Held s0 s) :
    Held s0 (State.canUnacked s c b) :=
  held_low (State.canUnacked_low s c b (low_refl _)) hc
@[simp] theorem State.canAbort_held {s0 : State} (s : State) (c b : Nat) (hc : Held s0 s) :
    Held s0 (State.canAbort s c b) :=
  held_low (State.canAbort_low s c b (low_refl _)) hc
@[simp] theorem State.canLock_held {s0 : State} (s : State) (c b : Nat) (hc : Held s0 s) :
    Held s0 (State.canLock s c b) :=
  held_low (State.canLock_low s c b (low_refl _)) hc
@[simp] theorem State.canUnlock_held {s0 : State} (s : State) (c b : Nat) (hc : Held s0 s) :
    Held s0 (State.canUnlock s c b) :=
  held_low (State.canUnlock_low s c b (low_refl _)) hc
@[simp] theorem State.canPromoted_held {s0 : State} (s : State) (c b : Nat) (hc : Held s0 s) :
    Held s0 (State.canPromoted s c b) :=
  held_low (State.canPromoted_low s c b (low_refl _)) hc
@[simp] theorem State.canEach_held {s0 : State} (s : State) (v : Nat) (f : State → Nat → State) (hf : ∀ s a0, Held s0 s → Held s0 (f s a0)) (hc : Held s0 s) :
    Held s0 (State.canEach s v f) := by
  unfold State.canEach
  repeat' first | (first | omega | ((simp +zetaDelta only [odKey, bankIdx, bankStatusSub, canIdx, dmaObj, instBase, launchIdx, coreIdx, dmaIdx, logBase, trigIdx] <;> (try split)) <;> omega)) | (with_reducible first | assumption | apply held_ite | (apply held_foldl; intro _ _ _) | apply hf) | intro _ | dsimp only
@[simp] theorem State.canReset_held {s0 : State} (s : State) (c : Nat) (hc : Held s0 s) :
    Held s0 (State.canReset s c) :=
  held_low (State.canReset_low s c (low_refl _)) hc
theorem State.effCan_held {s0 : State} (s : State) (i j v : Nat) {t1} (h : State.effCan s i j v = some t1) (hc : Held s0 s) :
    Held s0 t1 := by
  simp only [State.effCan] at h
  repeat' split at h
  all_goals first | (simp only [Option.some.injEq, reduceCtorEq] at h; done) | (simp only [Option.some.injEq] at h; subst h)
  all_goals (repeat' first | (first | omega | ((simp +zetaDelta only [odKey, bankIdx, bankStatusSub, canIdx, dmaObj, instBase, launchIdx, coreIdx, dmaIdx, logBase, trigIdx] <;> (try split)) <;> omega)) | (with_reducible first | assumption | apply held_ite | apply State.canAbort_held | apply State.canEach_held | apply State.canLock_held | apply State.canMode_held | apply State.canRequest_held | apply State.canUnlock_held | apply State.setBuf_held | apply State.setCan_held) | simp only [held_same] | intro _ | dsimp only | split)

@[simp] theorem State.engEvent_held {s0 : State} (s : State) (e b : Nat) (hc : Held s0 s) :
    Held s0 (State.engEvent s e b) :=
  held_low (State.engEvent_low s e b (low_refl _)) hc
@[simp] theorem State.setCoreState_held {s0 : State} (s : State) (c v : Nat) (hc : Held s0 s) :
    Held s0 (State.setCoreState s c v) :=
  held_low (State.setCoreState_low s c v (low_refl _)) hc
@[simp] theorem State.setPc_held {s0 : State} (s : State) (c v : Nat) (hc : Held s0 s) :
    Held s0 (State.setPc s c v) :=
  held_low (State.setPc_low s c v (low_refl _)) hc
@[simp] theorem State.haltPending_held {s0 : State} (s : State) (e why : Nat) (hc : Held s0 s) :
    Held s0 (State.haltPending s e why) :=
  held_low (State.haltPending_low s e why (low_refl _)) hc
@[simp] theorem State.doRun_held {s0 : State} (s : State) (e : Nat) (hc : Held s0 s) :
    Held s0 (State.doRun s e) :=
  held_low (State.doRun_low s e (low_refl _)) hc
@[simp] theorem State.doHalt_held {s0 : State} (s : State) (e : Nat) (hc : Held s0 s) :
    Held s0 (State.doHalt s e) :=
  held_low (State.doHalt_low s e (low_refl _)) hc
@[simp] theorem State.doStep_held {s0 : State} (s : State) (e : Nat) (hc : Held s0 s) :
    Held s0 (State.doStep s e) :=
  held_low (State.doStep_low s e (low_refl _)) hc
@[simp] theorem State.doLoad_held {s0 : State} (s : State) (e : Nat) (hc : Held s0 s) :
    Held s0 (State.doLoad s e) :=
  held_low (State.doLoad_low s e (low_refl _)) hc
@[simp] theorem State.engCommand_held {s0 : State} (s : State) (e v : Nat) (hc : Held s0 s) :
    Held s0 (State.engCommand s e v) :=
  held_low (State.engCommand_low s e v (low_refl _)) hc
@[simp] theorem State.halted_held {s0 : State} (s : State) (e : Nat) (hc : Held s0 s) :
    Held s0 (State.halted s e) :=
  held_low (State.halted_low s e (low_refl _)) hc
@[simp] theorem State.showLibrary_held {s0 : State} (s : State) (hc : Held s0 s) :
    Held s0 (State.showLibrary s) :=
  held_low (State.showLibrary_low s (low_refl _)) hc
@[simp] theorem State.libraryStart_held {s0 : State} (s : State) (install : Bool) (master : Nat) (hc : Held s0 s) :
    Held s0 (State.libraryStart s install master) :=
  held_low (State.libraryStart_low s install master (low_refl _)) hc
@[simp] theorem State.installDone_held {s0 : State} (s : State) (master : Nat) (signed : Bool) (hc : Held s0 s) :
    Held s0 (State.installDone s master signed) :=
  held_low (State.installDone_low s master signed (low_refl _)) hc
@[simp] theorem State.removeDone_held {s0 : State} (s : State) (master : Nat) (hc : Held s0 s) :
    Held s0 (State.removeDone s master) :=
  held_low (State.removeDone_low s master (low_refl _)) hc
@[simp] theorem State.loadFailed_held {s0 : State} (s : State) (e st : Nat) (hc : Held s0 s) :
    Held s0 (State.loadFailed s e st) :=
  held_low (State.loadFailed_low s e st (low_refl _)) hc
@[simp] theorem State.loadGood_held {s0 : State} (s : State) (e d : Nat) (hc : Held s0 s) :
    Held s0 (State.loadGood s e d) :=
  held_low (State.loadGood_low s e d (low_refl _)) hc
@[simp] theorem State.loadDone_held {s0 : State} (s : State) (e : Nat) (signed digestOk : Bool) (hc : Held s0 s) :
    Held s0 (State.loadDone s e signed digestOk) :=
  held_low (State.loadDone_low s e signed digestOk (low_refl _)) hc
@[simp] theorem State.dbeRestart_held {s0 : State} (s : State) (f : Nat) (hc : Held s0 s) :
    Held s0 (State.dbeRestart s f) :=
  held_low (State.dbeRestart_low s f (low_refl _)) hc
@[simp] theorem State.holdRelease_held {s0 : State} (s : State) (odds : Nat) (hc : Held s0 s) : Held s0 (State.holdRelease s odds) := by
  unfold State.holdRelease
  split
  · exact State.event_held _ _ _ _ (by decide) (State.cnt_held _ _ _ (by decide) hc)
  · rename_i h
    have h2 : s.n 0x2001 2 = 0 := by simp at h; exact h.2
    extract_lets z1 z2 z3
    have f1 : z1.n 0x2001 2 = 0 := by
      have : z1 = s ∨ z1 = s.disarm 0 1 := by simp only [z1]; split <;> simp
      have hl : Low s z1 := by 
        rcases this with h | h <;> rw [h]
        · exact low_refl s
        · exact State.disarm_low _ _ _ (low_refl s)
      have := hl.same (odKey 0x2001 2) (by decide) (by decide)
      unfold State.n State.rd at *; rw [this]; exact h2
    have f2 : z2.n 0x2001 2 = 0 := by
      simp only [z2]; split
      · rw [State.n_wr_ne _ _ (by decide)]; exact f1
      · exact f1
    have ok2 : z2.HoldRule := fun _ => f2
    have ok3 : z3.HoldRule := fun _ => by simp only [z3]; rw [State.n_wr_ne _ _ (by decide)]; exact f2
    have w2 : Held s0 z2 := ⟨fun _ => ok2⟩
    have w3 : Held s0 z3 := ⟨fun _ => ok3⟩
    split
    · exact w2
    · split
      · exact w3
      · exact State.event_held _ _ _ _ (by decide) w3

@[simp] theorem State.holdAck_held {s0 : State} (s : State) (v : Nat) (hc : Held s0 s) :
    Held s0 (State.holdAck s v) := by
  unfold State.holdAck
  extract_lets z0 z1
  repeat' first | (first | omega | ((simp +zetaDelta only [odKey, bankIdx, bankStatusSub, canIdx, dmaObj, instBase, launchIdx, coreIdx, dmaIdx, logBase, trigIdx] <;> (try split)) <;> omega)) | (with_reducible first | assumption | apply State.unhold_held) | dsimp only
@[simp] theorem State.dropVolatile_held {s0 : State} (s : State) (lo hi : Nat) (hk : hi < 0x2001 ∨ 0x2005 ≤ lo) (hc : Held s0 s) :
    Held s0 (State.dropVolatile s lo hi) :=
  held_low (State.dropVolatile_low _ lo hi hk (low_refl _)) hc
@[simp] theorem State.portReset_held {s0 : State} (s : State) (p : Nat) (hc : Held s0 s) :
    Held s0 (State.portReset s p) :=
  held_low (State.portReset_low s p (low_refl _)) hc
@[simp] theorem State.ringReset_held {s0 : State} (s : State) (n : Nat) (hc : Held s0 s) : Held s0 (State.ringReset s n) := by
  unfold State.ringReset
  extract_lets z0 z1 z2 z3
  have h1 : Held s0 z1 := State.perOff_held _ _ hc
  have h2 : Held s0 z2 := by
    simp only [z2, List.foldl]
    repeat' first | (with_reducible first | assumption | apply State.dropVolatile_held) | omega
  have h3 : Held s0 z3 := State.dropVolatile_held _ _ _ (by omega) h2
  exact State.route_held _ _ _ (State.setRing_held _ _ _ h3)

@[simp] theorem State.pioReset_held {s0 : State} (s : State) (b : Nat) (hc : Held s0 s) :
    Held s0 (State.pioReset s b) :=
  held_low (State.pioReset_low s b (low_refl _)) hc
@[simp] theorem State.locusReset_held {s0 : State} (s : State) (hc : Held s0 s) :
    Held s0 (State.locusReset s) :=
  held_low (State.locusReset_low s (low_refl _)) hc
@[simp] theorem State.switchReset_held {s0 : State} (s : State) (hc : Held s0 s) :
    Held s0 (State.switchReset s) :=
  held_low (State.switchReset_low s (low_refl _)) hc
@[simp] theorem State.domainReset_held {s0 : State} (s : State) (d : Nat) (hc : Held s0 s) :
    Held s0 (State.domainReset s d) :=
  held_low (State.domainReset_low s d (low_refl _)) hc
@[simp] theorem State.blockReset_held {s0 : State} (s : State) (master kind unit : Nat) (hc : Held s0 s) :
    Held s0 (State.blockReset s master kind unit) := by
  unfold State.blockReset
  repeat' first | (first | omega | ((simp +zetaDelta only [odKey, bankIdx, bankStatusSub, canIdx, dmaObj, instBase, launchIdx, coreIdx, dmaIdx, logBase, trigIdx] <;> (try split)) <;> omega)) | (with_reducible first | assumption | apply held_ite | apply State.canReset_held | apply State.domainReset_held | apply State.engineReset_held | apply State.facetReset_held | apply State.locusReset_held | apply State.noteBlockReset_held | apply State.pioReset_held | apply State.portReset_held | apply State.ringReset_held | apply State.switchReset_held) | dsimp only
@[simp] theorem State.blockResets_held {s0 : State} (s : State) (master sub v : Nat) (hc : Held s0 s) :
    Held s0 (State.blockResets s master sub v) := by
  unfold State.blockResets
  repeat' first | (first | omega | ((simp +zetaDelta only [odKey, bankIdx, bankStatusSub, canIdx, dmaObj, instBase, launchIdx, coreIdx, dmaIdx, logBase, trigIdx] <;> (try split)) <;> omega)) | (with_reducible first | assumption | apply held_ite | (apply held_foldl; intro _ _ _) | apply State.blockReset_held) | simp only [held_same] | intro _ | dsimp only | split
@[simp] theorem State.blockReleased_held {s0 : State} (s : State) (sub b : Nat) (hc : Held s0 s) :
    Held s0 (State.blockReleased s sub b) := by
  unfold State.blockReleased
  repeat' first | (first | omega | ((simp +zetaDelta only [odKey, bankIdx, bankStatusSub, canIdx, dmaObj, instBase, launchIdx, coreIdx, dmaIdx, logBase, trigIdx] <;> (try split)) <;> omega)) | (with_reducible first | assumption | apply held_ite | apply State.clrBits_held | apply State.event_held) | dsimp only
@[simp] theorem State.wiped_held {s0 : State} (s : State) (reach : Nat) (hc : Held s0 s) : Held s0 (State.wiped s reach) := ⟨fun _ h1 => by
  rw [State.n_wiped _ _ (by decide) (by decide) (by decide) (by decide)] at h1
  have : odKept reach (odKey 0x2001 1) = false := by
    simp [odKept, odKey]
  rw [this, if_neg Bool.false_ne_true] at h1
  exact absurd h1 (by decide)⟩

@[simp] theorem State.beginStart_held {s0 : State} (s : State) (hc : Held s0 s) : Held s0 (State.beginStart s) :=
  held_low (State.beginStart_low s (low_refl _)) hc
@[simp] theorem State.tryStart_held {s0 : State} (s : State) (hc : Held s0 s) :
    Held s0 (State.tryStart s) :=
  held_low (State.tryStart_low s (low_refl _)) hc
@[simp] theorem State.deviceReset_held {s0 : State} (s : State) (code bits : Nat) (f : Power → Power) (hc : Held s0 s) :
    Held s0 (State.deviceReset s code bits f) := by
  unfold State.deviceReset
  extract_lets z0 z1 z2 z3 z4
  have h4 : Held s0 z4 := by simp only [z4]; repeat' first | (first | omega | ((simp +zetaDelta only [odKey, bankIdx, bankStatusSub, canIdx, dmaObj, instBase, launchIdx, coreIdx, dmaIdx, logBase, trigIdx] <;> (try split)) <;> omega)) | (with_reducible first | assumption | apply held_ite | apply State.setBits_held | apply State.tryStart_held | apply State.wiped_held | apply State.wr_held) | simp only [held_same] | dsimp only
  try clear_value z4
  repeat' first | (first | omega | ((simp +zetaDelta only [odKey, bankIdx, bankStatusSub, canIdx, dmaObj, instBase, launchIdx, coreIdx, dmaIdx, logBase, trigIdx] <;> (try split)) <;> omega)) | (with_reducible first | assumption | apply held_ite | apply State.setBits_held | apply State.tryStart_held | apply State.wiped_held | apply State.wr_held) | simp only [held_same] | dsimp only
@[simp] theorem State.integrityReset_held {s0 : State} (s : State) (detail addr : Nat) (hc : Held s0 s) :
    Held s0 (State.integrityReset s detail addr) := by
  unfold State.integrityReset
  extract_lets note held q x last
  apply State.tryStart_held
  refine ⟨fun _ h1 => ?_⟩
  exfalso
  rw [State.n_setBits_ne _ _ (by decide), State.n_wr_ne _ _ (by decide), State.n_setBits_ne _ _ (by decide), State.n_wr_ne _ _ (by decide),
    State.n_wiped _ _ (by decide) (by decide) (by decide) (by decide), show odKept 2 (odKey 0x2001 1) = false by decide,
    if_neg Bool.false_ne_true] at h1
  exact absurd h1 (by decide)

@[simp] theorem State.rimLost_held {s0 : State} (s : State) (hc : Held s0 s) :
    Held s0 (State.rimLost s) := by
  unfold State.rimLost
  extract_lets z0 z1 z2 z3 z4
  have h1 : Held s0 z1 := by simp only [z1]; repeat' first | (first | omega | ((simp +zetaDelta only [odKey, bankIdx, bankStatusSub, canIdx, dmaObj, instBase, launchIdx, coreIdx, dmaIdx, logBase, trigIdx] <;> (try split)) <;> omega)) | (with_reducible first | assumption | apply held_ite | (apply held_foldl; intro _ _ _) | apply State.event_held | apply State.hold_held | apply State.perOff_held | apply State.record_held | apply State.unsync_held) | simp only [held_same] | intro _ | dsimp only
  try clear_value z1
  have h2 : Held s0 z2 := by repeat' first | (first | omega | ((simp +zetaDelta only [odKey, bankIdx, bankStatusSub, canIdx, dmaObj, instBase, launchIdx, coreIdx, dmaIdx, logBase, trigIdx] <;> (try split)) <;> omega)) | (with_reducible first | assumption | apply held_ite | (apply held_foldl; intro _ _ _) | apply State.event_held | apply State.hold_held | apply State.perOff_held | apply State.record_held | apply State.unsync_held) | simp only [held_same] | intro _ | dsimp only
  try clear_value z2
  have h3 : Held s0 z3 := by repeat' first | (first | omega | ((simp +zetaDelta only [odKey, bankIdx, bankStatusSub, canIdx, dmaObj, instBase, launchIdx, coreIdx, dmaIdx, logBase, trigIdx] <;> (try split)) <;> omega)) | (with_reducible first | assumption | apply held_ite | (apply held_foldl; intro _ _ _) | apply State.event_held | apply State.hold_held | apply State.perOff_held | apply State.record_held | apply State.unsync_held) | simp only [held_same] | intro _ | dsimp only
  try clear_value z3
  repeat' first | (first | omega | ((simp +zetaDelta only [odKey, bankIdx, bankStatusSub, canIdx, dmaObj, instBase, launchIdx, coreIdx, dmaIdx, logBase, trigIdx] <;> (try split)) <;> omega)) | (with_reducible first | assumption | apply held_ite | (apply held_foldl; intro _ _ _) | apply State.event_held | apply State.hold_held | apply State.perOff_held | apply State.record_held | apply State.unsync_held) | simp only [held_same] | intro _ | dsimp only
@[simp] theorem State.sleepRefused_held {s0 : State} (s : State) (hc : Held s0 s) :
    Held s0 (State.sleepRefused s) :=
  held_low (State.sleepRefused_low s (low_refl _)) hc
@[simp] theorem State.quietDown_held {s0 : State} (s : State) (hc : Held s0 s) :
    Held s0 (State.quietDown s) := by
  unfold State.quietDown
  extract_lets z0 z1
  have h0 : Held s0 z0 := by repeat' first | (first | omega | ((simp +zetaDelta only [odKey, bankIdx, bankStatusSub, canIdx, dmaObj, instBase, launchIdx, coreIdx, dmaIdx, logBase, trigIdx] <;> (try split)) <;> omega)) | (with_reducible first | assumption | apply held_ite | (apply held_foldl; intro _ _ _) | apply State.setTrack_held | apply State.setTrkS_held) | simp only [held_same] | intro _ | dsimp only
  try clear_value z0
  have h1 : Held s0 z1 := by repeat' first | (first | omega | ((simp +zetaDelta only [odKey, bankIdx, bankStatusSub, canIdx, dmaObj, instBase, launchIdx, coreIdx, dmaIdx, logBase, trigIdx] <;> (try split)) <;> omega)) | (with_reducible first | assumption | apply held_ite | (apply held_foldl; intro _ _ _) | apply State.perOff_held) | intro _ | dsimp only
  try clear_value z1
  repeat' first | (first | omega | ((simp +zetaDelta only [odKey, bankIdx, bankStatusSub, canIdx, dmaObj, instBase, launchIdx, coreIdx, dmaIdx, logBase, trigIdx] <;> (try split)) <;> omega)) | (with_reducible first | assumption | apply held_ite | (apply held_foldl; intro _ _ _) | apply State.haltPending_held | apply State.setEngine_held) | simp only [held_same] | intro _ | dsimp only
@[simp] theorem State.bankDoze_held {s0 : State} (s : State) (b : Nat) (hc : Held s0 s) :
    Held s0 (State.bankDoze s b) :=
  held_low (State.bankDoze_low s b (low_refl _)) hc
@[simp] theorem State.dozeEnter_held {s0 : State} (s : State) (hc : Held s0 s) :
    Held s0 (State.dozeEnter s) := by
  unfold State.dozeEnter
  extract_lets z0 z1 z2 z3
  have h1 : Held s0 z1 := by repeat' first | (first | omega | ((simp +zetaDelta only [odKey, bankIdx, bankStatusSub, canIdx, dmaObj, instBase, launchIdx, coreIdx, dmaIdx, logBase, trigIdx] <;> (try split)) <;> omega)) | (with_reducible first | assumption | apply State.cnt_held | apply State.enter_held | apply State.hold_held) | dsimp only
  try clear_value z1
  have h2 : Held s0 z2 := by repeat' first | (first | omega | ((simp +zetaDelta only [odKey, bankIdx, bankStatusSub, canIdx, dmaObj, instBase, launchIdx, coreIdx, dmaIdx, logBase, trigIdx] <;> (try split)) <;> omega)) | (with_reducible first | assumption | apply State.quietDown_held | apply State.wr_held) | dsimp only
  try clear_value z2
  have h3 : Held s0 z3 := by repeat' first | (first | omega | ((simp +zetaDelta only [odKey, bankIdx, bankStatusSub, canIdx, dmaObj, instBase, launchIdx, coreIdx, dmaIdx, logBase, trigIdx] <;> (try split)) <;> omega)) | (with_reducible first | assumption | (apply held_foldl; intro _ _ _) | apply State.bankDoze_held) | intro _ | dsimp only
  try clear_value z3
  repeat' first | (first | omega | ((simp +zetaDelta only [odKey, bankIdx, bankStatusSub, canIdx, dmaObj, instBase, launchIdx, coreIdx, dmaIdx, logBase, trigIdx] <;> (try split)) <;> omega)) | (with_reducible first | assumption) | simp only [held_same] | dsimp only
@[simp] theorem State.standbyEnter_held {s0 : State} (s : State) (hc : Held s0 s) :
    Held s0 (State.standbyEnter s) := by
  unfold State.standbyEnter
  extract_lets z0 z1
  have h1 : Held s0 z1 := by repeat' first | (first | omega | ((simp +zetaDelta only [odKey, bankIdx, bankStatusSub, canIdx, dmaObj, instBase, launchIdx, coreIdx, dmaIdx, logBase, trigIdx] <;> (try split)) <;> omega)) | (with_reducible first | assumption | apply State.enter_held | apply State.hold_held | apply State.quietDown_held | apply State.wr_held) | dsimp only
  try clear_value z1
  repeat' first | (first | omega | ((simp +zetaDelta only [odKey, bankIdx, bankStatusSub, canIdx, dmaObj, instBase, launchIdx, coreIdx, dmaIdx, logBase, trigIdx] <;> (try split)) <;> omega)) | (with_reducible first | assumption) | simp only [held_same] | dsimp only
@[simp] theorem State.sleepRequest_held {s0 : State} (s : State) (v : Nat) (hc : Held s0 s) :
    Held s0 (State.sleepRequest s v) := by
  unfold State.sleepRequest
  repeat' first | (first | omega | ((simp +zetaDelta only [odKey, bankIdx, bankStatusSub, canIdx, dmaObj, instBase, launchIdx, coreIdx, dmaIdx, logBase, trigIdx] <;> (try split)) <;> omega)) | (with_reducible first | assumption | apply held_ite | apply State.dozeEnter_held | apply State.sleepRefused_held | apply State.standbyEnter_held | apply State.wr_held) | simp only [held_same] | dsimp only | split
@[simp] theorem State.dozeReached_held {s0 : State} (s : State) (hc : Held s0 s) :
    Held s0 (State.dozeReached s) :=
  held_low (State.dozeReached_low s (low_refl _)) hc
@[simp] theorem State.wokenUnits_held {s0 : State} (s : State) (hc : Held s0 s) :
    Held s0 (State.wokenUnits s) := by
  unfold State.wokenUnits
  extract_lets z0 z1 z2
  have h0 : Held s0 z0 := by repeat' first | (first | omega | ((simp +zetaDelta only [odKey, bankIdx, bankStatusSub, canIdx, dmaObj, instBase, launchIdx, coreIdx, dmaIdx, logBase, trigIdx] <;> (try split)) <;> omega)) | (with_reducible first | assumption | apply held_ite | (apply held_foldl; intro _ _ _) | apply State.doRun_held) | intro _ | dsimp only
  try clear_value z0
  have h1 : Held s0 z1 := by repeat' first | (first | omega | ((simp +zetaDelta only [odKey, bankIdx, bankStatusSub, canIdx, dmaObj, instBase, launchIdx, coreIdx, dmaIdx, logBase, trigIdx] <;> (try split)) <;> omega)) | (with_reducible first | assumption | (apply held_foldl; intro _ _ _) | apply State.unsync_held) | intro _ | dsimp only
  try clear_value z1
  have h2 : Held s0 z2 := by repeat' first | (first | omega | ((simp +zetaDelta only [odKey, bankIdx, bankStatusSub, canIdx, dmaObj, instBase, launchIdx, coreIdx, dmaIdx, logBase, trigIdx] <;> (try split)) <;> omega)) | (with_reducible first | assumption | (apply held_foldl; intro _ _ _) | apply State.bankGo_held) | intro _ | dsimp only
  try clear_value z2
  repeat' first | (first | omega | ((simp +zetaDelta only [odKey, bankIdx, bankStatusSub, canIdx, dmaObj, instBase, launchIdx, coreIdx, dmaIdx, logBase, trigIdx] <;> (try split)) <;> omega)) | (with_reducible first | assumption | apply held_ite | (apply held_foldl; intro _ _ _) | apply State.perGo_held) | intro _ | dsimp only
@[simp] theorem State.dozeWoken_held {s0 : State} (s : State) (hc : Held s0 s) :
    Held s0 (State.dozeWoken s) := by
  unfold State.dozeWoken
  repeat' first | (first | omega | ((simp +zetaDelta only [odKey, bankIdx, bankStatusSub, canIdx, dmaObj, instBase, launchIdx, coreIdx, dmaIdx, logBase, trigIdx] <;> (try split)) <;> omega)) | (with_reducible first | assumption | apply held_ite | apply State.enter_held | apply State.event_held | apply State.hold_held | apply State.unhold_held | apply State.wokenUnits_held | apply State.wr_held) | simp only [held_same] | dsimp only
@[simp] theorem State.wakeCheck_held {s0 : State} (s : State) (verified : Bool) (found : Nat) (hc : Held s0 s) :
    Held s0 (State.wakeCheck s verified found) := by
  unfold State.wakeCheck
  repeat' first | (first | omega | ((simp +zetaDelta only [odKey, bankIdx, bankStatusSub, canIdx, dmaObj, instBase, launchIdx, coreIdx, dmaIdx, logBase, trigIdx] <;> (try split)) <;> omega)) | (with_reducible first | assumption | apply held_ite | apply State.confirmConfig_held | apply State.record_held) | simp only [held_same] | dsimp only
theorem State.effPower_held {s0 : State} (s : State) (p : Path) (i j v : Nat) {t1} (h : State.effPower s p i j v = some t1) (hc : Held s0 s) :
    Held s0 t1 := by
  simp only [State.effPower] at h
  repeat' split at h
  all_goals first | (simp only [Option.some.injEq, reduceCtorEq] at h; done) | (simp only [Option.some.injEq] at h; subst h)
  all_goals (repeat' first | (first | omega | ((simp +zetaDelta only [odKey, bankIdx, bankStatusSub, canIdx, dmaObj, instBase, launchIdx, coreIdx, dmaIdx, logBase, trigIdx] <;> (try split)) <;> omega)) | (with_reducible first | assumption | apply held_ite | apply State.blockResets_held | apply State.confirmConfig_held | apply State.deviceReset_held | apply State.holdAck_held | apply State.holdRelease_held | apply State.holdRequest_held | apply State.sleepRequest_held | apply State.wr_held) | simp only [held_same] | intro _ | dsimp only | split)

@[simp] theorem State.setSession_held {s0 : State} (s : State) (c : Nat) (x : Session) (hc : Held s0 s) :
    Held s0 (State.setSession s c x) :=
  held_low (State.setSession_low s c x (low_refl _)) hc
@[simp] theorem State.sessionClose_held {s0 : State} (s : State) (c reason : Nat) (hc : Held s0 s) :
    Held s0 (State.sessionClose s c reason) :=
  held_low (State.sessionClose_low s c reason (low_refl _)) hc
@[simp] theorem State.sessionsEnd_held {s0 : State} (s : State) (path : Nat) (hc : Held s0 s) :
    Held s0 (State.sessionsEnd s path) :=
  held_low (State.sessionsEnd_low s path (low_refl _)) hc
@[simp] theorem State.setDmaCh_held {s0 : State} (s : State) (k : Nat) (x : DmaCh) (hc : Held s0 s) :
    Held s0 (State.setDmaCh s k x) :=
  held_low (State.setDmaCh_low s k x (low_refl _)) hc
@[simp] theorem State.dmaBack_held {s0 : State} (s : State) (k result moved : Nat) (hc : Held s0 s) :
    Held s0 (State.dmaBack s k result moved) :=
  held_low (State.dmaBack_low s k result moved (low_refl _)) hc
@[simp] theorem State.dmaFlush_held {s0 : State} (s : State) (k : Nat) (x0 : Nat) (hc : Held s0 s) :
    Held s0 (State.dmaFlush s k x0) :=
  held_low (State.dmaFlush_low s k x0 (low_refl _)) hc
@[simp] theorem State.dmaPut_held {s0 : State} (s : State) (a : Nat) (d : List Byte) (hc : Held s0 s) :
    Held s0 (State.dmaPut s a d) :=
  held_low (State.dmaPut_low s a d (low_refl _)) hc
@[simp] theorem State.dmaFail_held {s0 : State} (s : State) (k result moved : Nat) (hc : Held s0 s) :
    Held s0 (State.dmaFail s k result moved) :=
  held_low (State.dmaFail_low s k result moved (low_refl _)) hc
@[simp] theorem State.dmaTake_held {s0 : State} (s : State) (k : Nat) (d : List Byte) (bad : Bool) (hc : Held s0 s) :
    Held s0 (State.dmaTake s k d bad) := by
  unfold State.dmaTake
  extract_lets z0
  repeat' first | (first | omega | ((simp +zetaDelta only [odKey, bankIdx, bankStatusSub, canIdx, dmaObj, instBase, launchIdx, coreIdx, dmaIdx, logBase, trigIdx] <;> (try split)) <;> omega)) | (with_reducible first | assumption | apply held_ite | apply State.dmaBack_held | apply State.dmaFail_held | apply State.dmaFlush_held | apply State.dmaPut_held | apply State.emit_held | apply State.fetchBytes_held | apply State.meetDbe_held | apply State.setDmaCh_held | apply State.violate_held | apply State.wr_held | apply held_ite2 | apply held_ite3 | apply held_ite4) | simp only [held_same] | dsimp only | split
@[simp] theorem State.dmaAbort_held {s0 : State} (s : State) (k : Nat) (late : Bool) (hc : Held s0 s) :
    Held s0 (State.dmaAbort s k late) :=
  held_low (State.dmaAbort_low s k late (low_refl _)) hc
@[simp] theorem State.pcieReset_held {s0 : State} (s : State) (hc : Held s0 s) :
    Held s0 (State.pcieReset s) :=
  held_low (State.pcieReset_low s (low_refl _)) hc
@[simp] theorem State.pcieDown_held {s0 : State} (s : State) (hc : Held s0 s) :
    Held s0 (State.pcieDown s) :=
  held_low (State.pcieDown_low s (low_refl _)) hc
@[simp] theorem State.qspiReset_held {s0 : State} (s : State) (hc : Held s0 s) : Held s0 (State.qspiReset s) :=
  held_low (State.qspiReset_low s (low_refl _)) hc
theorem State.effHost_held {s0 : State} (s : State) (p : Path) (i j v : Nat) {t1} (h : State.effHost s p i j v = some t1) (hc : Held s0 s) :
    Held s0 t1 :=
  held_low (State.effHost_low s p i j v h (low_refl _)) hc
@[simp] theorem State.refuse_held {s0 : State} (s : State) (n cause : Nat) (hc : Held s0 s) :
    Held s0 (State.refuse s n cause) :=
  held_low (State.refuse_low s n cause (low_refl _)) hc
@[simp] theorem State.beginInst_held {s0 : State} (s : State) (n : Nat) (f : ImageForm) (at' : Nat) (hc : Held s0 s) : Held s0 (State.beginInst s n f at') :=
  held_low (State.beginInst_low s n f at' (low_refl _)) hc
@[simp] theorem State.instStart_held {s0 : State} (s : State) (n : Nat) (hc : Held s0 s) :
    Held s0 (State.instStart s n) :=
  held_low (State.instStart_low s n (low_refl _)) hc
@[simp] theorem State.objPut_held {s0 : State} (s : State) (o : InstObj) (v : Nat) (hc : Held s0 s) :
    Held s0 (State.objPut s o v) :=
  held_low (State.objPut_low s o v (low_refl _)) hc
@[simp] theorem State.createObjs_held {s0 : State} (s : State) (n : Nat) (l : List InstObj) (hc : Held s0 s) :
    Held s0 (State.createObjs s n l) :=
  held_low (State.createObjs_low s n l (low_refl _)) hc
@[simp] theorem State.instPorts_held {s0 : State} (s : State) (n : Nat) (hc : Held s0 s) : Held s0 (s.instPorts n) :=
  held_low (State.instPorts_low s n (low_refl _)) hc
@[simp] theorem State.instBind_held {s0 : State} (s : State) (n : Nat) (b : Nat × Nat × Nat) (hc : Held s0 s) :
    Held s0 (State.instBind s n b) :=
  held_low (State.instBind_low s n b (low_refl _)) hc
@[simp] theorem State.instEnd_held {s0 : State} (s : State) (n : Nat) (hc : Held s0 s) :
    Held s0 (State.instEnd s n) :=
  held_low (State.instEnd_low s n (low_refl _)) hc
@[simp] theorem State.instStop_held {s0 : State} (s : State) (n : Nat) (hc : Held s0 s) :
    Held s0 (State.instStop s n) :=
  held_low (State.instStop_low s n (low_refl _)) hc
@[simp] theorem State.instDone_held {s0 : State} (s : State) (n : Nat) (binds : List (Nat × Nat × Nat)) (hc : Held s0 s) :
    Held s0 (State.instDone s n binds) :=
  held_low (State.instDone_low s n binds (low_refl _)) hc
theorem State.effInst_held {s0 : State} (s : State) (i j v : Nat) {t} (h : s.effInst i j v = some t) (hc : Held s0 s) : Held s0 t :=
  held_low (State.effInst_low s i j v h (low_refl _)) hc
@[simp] theorem State.statusClear_held {s0 : State} (s : State) (i j v again : Nat) (hk : i * 256 + j < 0x2001 * 256 ∨ 0x2005 * 256 ≤ i * 256) (hc : Held s0 s) :
    Held s0 (State.statusClear s i j v again) := by
  unfold State.statusClear
  repeat' first | (first | omega | ((simp +zetaDelta only [odKey, bankIdx, bankStatusSub, canIdx, dmaObj, instBase, launchIdx, coreIdx, dmaIdx, logBase, trigIdx] <;> (try split)) <;> omega)) | (with_reducible first | assumption | apply State.clrBits_held | apply State.route_held | apply State.setBits_held) | dsimp only
theorem State.effCommon_held {s0 : State} (s : State) (p : Path) (i j v : Nat) {t1} (h : State.effCommon s p i j v = some t1) (hc : Held s0 s) :
    Held s0 t1 := by
  unfold State.effCommon at h
  rcases ite_some h with ⟨he, h⟩ | ⟨-, h⟩
  · cases h; exact State.statusClear_held _ _ _ _ _ (isEventStatus_far i j he) hc
  rcases ite_some h with ⟨-, h⟩ | ⟨-, h⟩
  · cases h; exact State.paramOp_held _ _ _ hc
  rcases ite_some h with ⟨-, h⟩ | ⟨-, h⟩
  · cases h; exact State.paramOp_held _ _ _ hc
  rcases ite_some h with ⟨-, h⟩ | ⟨-, h⟩
  · cases h; exact State.clearTries_held _ _ hc
  rcases ite_some h with ⟨e, h⟩ | ⟨-, h⟩
  · cases h; exact State.clrBits_held _ _ _ _ (by simp only [odKey]; omega) hc
  rcases ite_some h with ⟨-, h⟩ | ⟨-, h⟩
  · cases h; exact State.doCommit_held _ hc
  rcases ite_some h with ⟨-, h⟩ | ⟨-, h⟩
  · cases h; exact State.doBankPower_held _ _ _ hc
  rcases ite_some h with ⟨-, h⟩ | ⟨-, h⟩
  · cases h; exact State.clearLog_held _ _ hc
  rcases ite_some h with ⟨-, h⟩ | ⟨-, h⟩
  · cases h; exact held_ite (State.disarm_held _ _ _ hc) (State.doArm_held _ _ hc)
  rcases ite_some h with ⟨-, h⟩ | ⟨-, h⟩
  · cases h; exact held_ite (State.doTestInService_held _ _ _ hc) (State.violate_held _ _ hc)
  · cases h

theorem State.effMbox_held {s0 : State} (s : State) (i j v : Nat) {t1} (h : State.effMbox s i j v = some t1) (hc : Held s0 s) :
    Held s0 t1 :=
  held_low (State.effMbox_low s i j v h (low_refl _)) hc
theorem State.effEngine_held {s0 : State} (s : State) (p : Path) (i j v : Nat) {t1} (h : State.effEngine s p i j v = some t1) (hc : Held s0 s) :
    Held s0 t1 :=
  held_low (State.effEngine_low s p i j v h (low_refl _)) hc
theorem State.effPer_held {s0 : State} (s : State) (p : Path) (i j v : Nat) {t1} (h : State.effPer s p i j v = some t1) (hc : Held s0 s) :
    Held s0 t1 := by
  simp only [State.effPer] at h
  repeat' split at h
  all_goals first | (simp only [Option.some.injEq, reduceCtorEq] at h; done) | (simp only [Option.some.injEq] at h; subst h)
  all_goals (repeat' first | (first | omega | ((simp +zetaDelta only [odKey, bankIdx, bankStatusSub, canIdx, dmaObj, instBase, launchIdx, coreIdx, dmaIdx, logBase, trigIdx] <;> (try split)) <;> omega)) | (with_reducible first | assumption | apply held_ite | apply State.changeAsk_held | apply State.guardCommit_held | apply State.mgmtSend_held | apply State.perEnable_held | apply State.slotLoad_held | apply State.wr_held) | simp only [held_same] | intro _ | dsimp only | split)

theorem State.effLinks_held {s0 : State} (s : State) (i j v : Nat) {t1} (h : State.effLinks s i j v = some t1) (hc : Held s0 s) :
    Held s0 t1 :=
  held_low (State.effLinks_low s i j v h (low_refl _)) hc
@[simp] theorem State.odStore_held {s0 : State} (s : State) (i j v : Nat) (hk : i * 256 + j < 0x2001 * 256 ∨ 0x2005 * 256 ≤ i * 256) (hc : Held s0 s) :
    Held s0 (State.odStore s i j v) := by
  unfold State.odStore
  repeat' first | (first | omega | ((simp +zetaDelta only [odKey, bankIdx, bankStatusSub, canIdx, dmaObj, instBase, launchIdx, coreIdx, dmaIdx, logBase, trigIdx] <;> (try split)) <;> omega)) | (with_reducible first | assumption | apply held_ite | apply State.route_held | apply State.wr_held) | dsimp only
theorem State.effCore_held {s0 : State} (s : State) (p : Path) (i j v : Nat) {t} (h : s.effCore p i j v = some t) (hc : Held s0 s) : Held s0 t := by
  unfold State.effCore at h
  rcases held_orElse h with h | h
  · exact State.effCommon_held _ _ _ _ _ h hc
  rcases held_orElse h with h | h
  · exact State.effMbox_held _ _ _ _ h hc
  rcases held_orElse h with h | h
  · exact State.effEngine_held _ _ _ _ _ h hc
  rcases held_orElse h with h | h
  · exact State.effPower_held _ _ _ _ _ h hc
  exact State.effHost_held _ _ _ _ _ h hc
theorem State.effRim_held {s0 : State} (s : State) (p : Path) (i j v : Nat) {t} (h : s.effRim p i j v = some t) (hc : Held s0 s) : Held s0 t := by
  unfold State.effRim at h
  rcases held_orElse h with h | h
  · exact State.effPort_held _ _ _ _ h hc
  rcases held_orElse h with h | h
  · exact State.effSwitch_held _ _ _ _ h hc
  rcases held_orElse h with h | h
  · exact State.effTime_held _ _ _ _ h hc
  rcases held_orElse h with h | h
  · exact State.effLaunch_held _ _ _ _ h hc
  rcases held_orElse h with h | h
  · exact State.effPio_held _ _ _ _ h hc
  rcases held_orElse h with h | h
  · exact State.effLocus_held _ _ _ _ h hc
  rcases held_orElse h with h | h
  · exact State.effLattice_held _ _ _ _ h hc
  rcases held_orElse h with h | h
  · exact State.effCan_held _ _ _ _ h hc
  rcases held_orElse h with h | h
  · exact State.effInst_held _ _ _ _ h hc
  rcases held_orElse h with h | h
  · exact State.effPer_held _ _ _ _ _ h hc
  exact State.effLinks_held _ _ _ _ h hc
theorem State.odEffect_held {s0 : State} (s : State) (p : Path) (i j v : Nat) (hw : s.writeOk p i j v = true) (hc : Held s0 s) :
    Held s0 (State.odEffect s p i j v) := by
  unfold State.odEffect
  split
  · rename_i t h; exact State.effCore_held _ _ _ _ _ h hc
  · rename_i hn
    split
    · rename_i t h; exact State.effRim_held _ _ _ _ _ h hc
    · have hk : odKey i j ≠ odKey 0x2001 1 ∧ odKey i j ≠ odKey 0x2001 2 := by
        refine ⟨fun e => ?_, fun e => ?_⟩
        · have := writeOk_hold s p i j v hw (Or.inl e)
          obtain ⟨rfl, rfl⟩ := this
          exact absurd hn (by rw [effCore_release]; simp)
        · have := writeOk_hold s p i j v hw (Or.inr e)
          obtain ⟨rfl, rfl⟩ := this
          exact absurd e (by decide)
      unfold State.odStore
      exact held_ite (State.route_held _ _ _ (State.wr_held _ _ _ _ hk hc)) (State.wr_held _ _ _ _ hk hc)


theorem State.odReadEffect_held {s0 : State} (s : State) (p : Path) (i j : Nat) {t1} (h : State.odReadEffect s p i j = some t1) (hc : Held s0 s) :
    Held s0 t1.2 :=
  held_low (State.odReadEffect_low s p i j h (low_refl _)) hc
@[simp] theorem State.procRead_held {s0 : State} (s : State) (i j retries : Nat) (hc : Held s0 s) :
    Held s0 (State.procRead s i j retries).2 := by
  unfold State.procRead
  repeat' first | (first | omega | ((simp +zetaDelta only [odKey, bankIdx, bankStatusSub, canIdx, dmaObj, instBase, launchIdx, coreIdx, dmaIdx, logBase, trigIdx] <;> (try split)) <;> omega)) | (with_reducible first | assumption | apply held_ite | apply State.addW_held | apply State.cnt_held | apply State.fetchBytes_held | apply State.tick_held | apply held_ite2 | apply held_ite3 | apply held_ite4) | simp only [held_same] | dsimp only | split
theorem State.odLive_held {s0 : State} (s : State) (i j : Nat) {t} (h : s.odLive i j = some t) (hc : Held s0 s) : Held s0 t.2 := by
  unfold State.odLive at h
  dsimp only at h
  repeat' split at h
  all_goals first | (simp only [Option.some.injEq] at h; subst h; exact hc) | skip
  all_goals first | (simp at h; done) | (simp only [Option.map_eq_some_iff] at h; obtain ⟨_, _, rfl⟩ := h; simp [hc])
@[simp] theorem State.setPath_held {s0 : State} (s : State) (p : Path) (x : PathSt) (hc : Held s0 s) :
    Held s0 (State.setPath s p x) :=
  held_low (State.setPath_low s p x (low_refl _)) hc
@[simp] theorem State.odValue_held {s0 : State} (s : State) (p : Path) (i j : Nat) (hc : Held s0 s) : Held s0 (s.odValue p i j).2 := by
  unfold State.odValue
  split
  · exact State.odReadEffect_held _ _ _ _ ‹_› hc
  · split
    · simp [hc]
    · split
      · exact hc
      · split
        · exact State.odLive_held _ _ _ ‹_› hc
        · exact hc
@[simp] theorem State.odGet_held {s0 : State} (s : State) (p : Path) (i j : Nat) (hc : Held s0 s) :
    Held s0 (State.odGet s p i j).2 := by
  unfold State.odGet
  repeat' first | (first | omega | ((simp +zetaDelta only [odKey, bankIdx, bankStatusSub, canIdx, dmaObj, instBase, launchIdx, coreIdx, dmaIdx, logBase, trigIdx] <;> (try split)) <;> omega)) | (with_reducible first | assumption | apply held_ite | apply State.odValue_held | apply State.violate_held | apply held_ite2 | apply held_ite3 | apply held_ite4) | dsimp only
@[simp] theorem State.odSet_held {s0 : State} (s : State) (p : Path) (i j v : Nat) (hc : Held s0 s) : Held s0 (State.odSet s p i j v) := by
  unfold State.odSet State.guard
  split
  · rename_i h; exact State.odEffect_held _ _ _ _ _ h hc
  · exact State.violate_held _ _ hc

@[simp] theorem State.readLow_held {s0 : State} (s : State) (p : Path) (i j : Nat) (hc : Held s0 s) :
    Held s0 (State.readLow s p i j).2 := by
  unfold State.readLow
  repeat' first | (first | omega | ((simp +zetaDelta only [odKey, bankIdx, bankStatusSub, canIdx, dmaObj, instBase, launchIdx, coreIdx, dmaIdx, logBase, trigIdx] <;> (try split)) <;> omega)) | (with_reducible first | assumption | apply held_ite | apply State.odGet_held | apply State.setPath_held | apply State.violate_held | apply held_ite2 | apply held_ite3 | apply held_ite4) | simp only [held_same] | dsimp only
@[simp] theorem State.readHigh_held {s0 : State} (s : State) (p : Path) (i j : Nat) (hc : Held s0 s) :
    Held s0 (State.readHigh s p i j).2 := by
  unfold State.readHigh
  repeat' first | (first | omega | ((simp +zetaDelta only [odKey, bankIdx, bankStatusSub, canIdx, dmaObj, instBase, launchIdx, coreIdx, dmaIdx, logBase, trigIdx] <;> (try split)) <;> omega)) | (with_reducible first | assumption | apply held_ite | apply State.odValue_held | apply State.violate_held | apply held_ite2 | apply held_ite3 | apply held_ite4) | simp only [held_same] | dsimp only | split
@[simp] theorem State.writeLow_held {s0 : State} (s : State) (p : Path) (i j v : Nat) (hc : Held s0 s) :
    Held s0 (State.writeLow s p i j v) :=
  held_low (State.writeLow_low s p i j v (low_refl _)) hc
@[simp] theorem State.writeHigh_held {s0 : State} (s : State) (p : Path) (i j v : Nat) (hc : Held s0 s) :
    Held s0 (State.writeHigh s p i j v) := by
  unfold State.writeHigh
  repeat' first | (first | omega | ((simp +zetaDelta only [odKey, bankIdx, bankStatusSub, canIdx, dmaObj, instBase, launchIdx, coreIdx, dmaIdx, logBase, trigIdx] <;> (try split)) <;> omega)) | (with_reducible first | assumption | apply held_ite | apply State.odSet_held | apply State.setPath_held | apply State.violate_held) | simp only [held_same] | dsimp only | split
@[simp] theorem State.slotRead_held {s0 : State} (s : State) (p : Path) (i j : Nat) (hc : Held s0 s) :
    Held s0 (State.slotRead s p i j).2 := by
  unfold State.slotRead
  repeat' first | (first | omega | ((simp +zetaDelta only [odKey, bankIdx, bankStatusSub, canIdx, dmaObj, instBase, launchIdx, coreIdx, dmaIdx, logBase, trigIdx] <;> (try split)) <;> omega)) | (with_reducible first | assumption | apply held_ite | apply State.odGet_held | apply State.readHigh_held | apply State.readLow_held | apply held_ite2 | apply held_ite3 | apply held_ite4) | dsimp only
@[simp] theorem State.slotWrite_held {s0 : State} (s : State) (p : Path) (i j v : Nat) (hc : Held s0 s) :
    Held s0 (State.slotWrite s p i j v) := by
  unfold State.slotWrite
  repeat' first | (first | omega | ((simp +zetaDelta only [odKey, bankIdx, bankStatusSub, canIdx, dmaObj, instBase, launchIdx, coreIdx, dmaIdx, logBase, trigIdx] <;> (try split)) <;> omega)) | (with_reducible first | assumption | apply held_ite | apply State.odSet_held | apply State.writeHigh_held | apply State.writeLow_held) | dsimp only
@[simp] theorem State.readEight_held {s0 : State} (s : State) (p : Path) (i j i' j' : Nat) (hc : Held s0 s) :
    Held s0 (State.readEight s p i j i' j').2 := by
  unfold State.readEight
  repeat' first | (first | omega | ((simp +zetaDelta only [odKey, bankIdx, bankStatusSub, canIdx, dmaObj, instBase, launchIdx, coreIdx, dmaIdx, logBase, trigIdx] <;> (try split)) <;> omega)) | (with_reducible first | assumption | apply held_ite | apply State.odGet_held | apply State.slotRead_held | apply held_ite2 | apply held_ite3 | apply held_ite4) | dsimp only
@[simp] theorem State.readPart_held {s0 : State} (s : State) (p : Path) (i j k n : Nat) (hc : Held s0 s) :
    Held s0 (State.readPart s p i j k n).2 := by
  unfold State.readPart
  extract_lets z0
  have h0 : Held s0 z0.2 := by repeat' first | (first | omega | ((simp +zetaDelta only [odKey, bankIdx, bankStatusSub, canIdx, dmaObj, instBase, launchIdx, coreIdx, dmaIdx, logBase, trigIdx] <;> (try split)) <;> omega)) | (with_reducible first | assumption | apply State.slotRead_held) | dsimp only
  try clear_value z0
  repeat' first | (first | omega | ((simp +zetaDelta only [odKey, bankIdx, bankStatusSub, canIdx, dmaObj, instBase, launchIdx, coreIdx, dmaIdx, logBase, trigIdx] <;> (try split)) <;> omega)) | (with_reducible first | assumption | apply State.drop_held) | dsimp only
@[simp] theorem State.windowRead_held {s0 : State} (s : State) (p : Path) (a n : Nat) (hc : Held s0 s) :
    Held s0 (State.windowRead s p a n).2 := by
  unfold State.windowRead
  repeat' first | (first | omega | ((simp +zetaDelta only [odKey, bankIdx, bankStatusSub, canIdx, dmaObj, instBase, launchIdx, coreIdx, dmaIdx, logBase, trigIdx] <;> (try split)) <;> omega)) | (with_reducible first | assumption | apply held_ite | apply State.readEight_held | apply State.readPart_held | apply held_ite2 | apply held_ite3 | apply held_ite4) | dsimp only
@[simp] theorem State.windowWrite_held {s0 : State} (s : State) (p : Path) (a : Nat) (d : List Byte) (hc : Held s0 s) :
    Held s0 (State.windowWrite s p a d) := by
  unfold State.windowWrite
  extract_lets z0 z1
  repeat' first | (first | omega | ((simp +zetaDelta only [odKey, bankIdx, bankStatusSub, canIdx, dmaObj, instBase, launchIdx, coreIdx, dmaIdx, logBase, trigIdx] <;> (try split)) <;> omega)) | (with_reducible first | assumption | apply held_ite | apply State.drop_held | apply State.odSet_held | apply State.slotWrite_held | apply State.violate_held) | dsimp only
@[simp] theorem State.mapRead1_held {s0 : State} (s : State) (p : Path) (a n : Nat) (hc : Held s0 s) :
    Held s0 (State.mapRead1 s p a n).2.2 := by
  unfold State.mapRead1
  repeat' first | (first | omega | ((simp +zetaDelta only [odKey, bankIdx, bankStatusSub, canIdx, dmaObj, instBase, launchIdx, coreIdx, dmaIdx, logBase, trigIdx] <;> (try split)) <;> omega)) | (with_reducible first | assumption | apply held_ite | apply State.memRead_held | apply State.windowRead_held | apply held_ite2 | apply held_ite3 | apply held_ite4) | dsimp only
@[simp] theorem State.mapWrite1_held {s0 : State} (s : State) (p : Path) (a : Nat) (d : List Byte) (hc : Held s0 s) :
    Held s0 (State.mapWrite1 s p a d) := by
  unfold State.mapWrite1
  repeat' first | (first | omega | ((simp +zetaDelta only [odKey, bankIdx, bankStatusSub, canIdx, dmaObj, instBase, launchIdx, coreIdx, dmaIdx, logBase, trigIdx] <;> (try split)) <;> omega)) | (with_reducible first | assumption | apply held_ite | apply State.memWrite_held | apply State.windowWrite_held) | dsimp only
@[simp] theorem State.mapBurst_held {s0 : State} (s : State) (p : Path) (a n : Nat) (x0 : Nat) (hc : Held s0 s) :
    Held s0 (State.mapBurst s p a n x0).2.2 := by
  induction x0 generalizing s p a n <;> first | (simp_all [State.mapBurst]; done) | (unfold State.mapBurst; (repeat' split) <;> simp_all)
@[simp] theorem State.mapStores_held {s0 : State} (s : State) (p : Path) (a n : Nat) (d : List Byte) (x0 : Nat) (hc : Held s0 s) :
    Held s0 (State.mapStores s p a n d x0) := by
  induction x0 generalizing s p a n d <;> first | (simp_all [State.mapStores]; done) | (unfold State.mapStores; (repeat' split) <;> simp_all)
@[simp] theorem State.cfgWrite_held {s0 : State} (s : State) (e : Nat × DWord) (hc : Held s0 s) : Held s0 (State.cfgWrite s e) := by
  unfold State.cfgWrite
  split
  · rename_i h; exact State.odEffect_held _ _ _ _ _ h hc
  · exact State.record_held _ _ _ hc

@[simp] theorem State.showSet_held {s0 : State} (s : State) (hc : Held s0 s) :
    Held s0 (State.showSet s) :=
  held_low (State.showSet_low s (low_refl _)) hc
@[simp] theorem State.loadConfig_held {s0 : State} (s : State) (hc : Held s0 s) : Held s0 (State.loadConfig s) := by
  unfold State.loadConfig; extract_lets z0 z1; (try (first | (have : Held s0 z0 := by (first | ((repeat' (first | (first | omega | ((simp +zetaDelta only [odKey, bankIdx, bankStatusSub, canIdx, dmaObj, instBase, launchIdx, coreIdx, dmaIdx, logBase, trigIdx] <;> (try split)) <;> omega)) | with_reducible assumption | with_reducible apply held_ite | with_reducible apply held_ite2 | with_reducible apply held_ite3 | with_reducible apply held_ite4 | (with_reducible apply held_foldl; intro _ _ _) | with_reducible apply State.cfgWrite_held | with_reducible apply State.event_held | with_reducible apply State.record_held | with_reducible apply State.showSet_held | with_reducible apply State.wr_held | simp only [held_same] | intro _ | dsimp only | split)); done) | ((try dsimp only); (repeat' (first | (first | omega | ((simp +zetaDelta only [odKey, bankIdx, bankStatusSub, canIdx, dmaObj, instBase, launchIdx, coreIdx, dmaIdx, logBase, trigIdx] <;> (try split)) <;> omega)) | with_reducible assumption | with_reducible apply held_ite | with_reducible apply held_ite2 | with_reducible apply held_ite3 | with_reducible apply held_ite4 | (with_reducible apply held_foldl; intro _ _ _) | with_reducible apply State.cfgWrite_held | with_reducible apply State.event_held | with_reducible apply State.record_held | with_reducible apply State.showSet_held | with_reducible apply State.wr_held | simp only [held_same] | intro _ | dsimp only | split)); done) | (simp only [z0]; (repeat' (first | (first | omega | ((simp +zetaDelta only [odKey, bankIdx, bankStatusSub, canIdx, dmaObj, instBase, launchIdx, coreIdx, dmaIdx, logBase, trigIdx] <;> (try split)) <;> omega)) | with_reducible assumption | with_reducible apply held_ite | with_reducible apply held_ite2 | with_reducible apply held_ite3 | with_reducible apply held_ite4 | (with_reducible apply held_foldl; intro _ _ _) | with_reducible apply State.cfgWrite_held | with_reducible apply State.event_held | with_reducible apply State.record_held | with_reducible apply State.showSet_held | with_reducible apply State.wr_held | simp only [held_same] | intro _ | dsimp only | split)); done))) | (have : Held s0 z0.2 := by ((try dsimp only); (repeat' (first | (first | omega | ((simp +zetaDelta only [odKey, bankIdx, bankStatusSub, canIdx, dmaObj, instBase, launchIdx, coreIdx, dmaIdx, logBase, trigIdx] <;> (try split)) <;> omega)) | with_reducible assumption | with_reducible apply held_ite | with_reducible apply held_ite2 | with_reducible apply held_ite3 | with_reducible apply held_ite4 | (with_reducible apply held_foldl; intro _ _ _) | with_reducible apply State.cfgWrite_held | with_reducible apply State.event_held | with_reducible apply State.record_held | with_reducible apply State.showSet_held | with_reducible apply State.wr_held | simp only [held_same] | intro _ | dsimp only | split)); done)) | (have : Held s0 z0.2.2 := by ((try dsimp only); (repeat' (first | (first | omega | ((simp +zetaDelta only [odKey, bankIdx, bankStatusSub, canIdx, dmaObj, instBase, launchIdx, coreIdx, dmaIdx, logBase, trigIdx] <;> (try split)) <;> omega)) | with_reducible assumption | with_reducible apply held_ite | with_reducible apply held_ite2 | with_reducible apply held_ite3 | with_reducible apply held_ite4 | (with_reducible apply held_foldl; intro _ _ _) | with_reducible apply State.cfgWrite_held | with_reducible apply State.event_held | with_reducible apply State.record_held | with_reducible apply State.showSet_held | with_reducible apply State.wr_held | simp only [held_same] | intro _ | dsimp only | split)); done)))); (try clear_value z0); (try (first | (have : Held s0 z1 := by (first | ((repeat' (first | (first | omega | ((simp +zetaDelta only [odKey, bankIdx, bankStatusSub, canIdx, dmaObj, instBase, launchIdx, coreIdx, dmaIdx, logBase, trigIdx] <;> (try split)) <;> omega)) | with_reducible assumption | with_reducible apply held_ite | with_reducible apply held_ite2 | with_reducible apply held_ite3 | with_reducible apply held_ite4 | (with_reducible apply held_foldl; intro _ _ _) | with_reducible apply State.cfgWrite_held | with_reducible apply State.event_held | with_reducible apply State.record_held | with_reducible apply State.showSet_held | with_reducible apply State.wr_held | simp only [held_same] | intro _ | dsimp only | split)); done) | ((try dsimp only); (repeat' (first | (first | omega | ((simp +zetaDelta only [odKey, bankIdx, bankStatusSub, canIdx, dmaObj, instBase, launchIdx, coreIdx, dmaIdx, logBase, trigIdx] <;> (try split)) <;> omega)) | with_reducible assumption | with_reducible apply held_ite | with_reducible apply held_ite2 | with_reducible apply held_ite3 | with_reducible apply held_ite4 | (with_reducible apply held_foldl; intro _ _ _) | with_reducible apply State.cfgWrite_held | with_reducible apply State.event_held | with_reducible apply State.record_held | with_reducible apply State.showSet_held | with_reducible apply State.wr_held | simp only [held_same] | intro _ | dsimp only | split)); done) | (simp only [z1]; (repeat' (first | (first | omega | ((simp +zetaDelta only [odKey, bankIdx, bankStatusSub, canIdx, dmaObj, instBase, launchIdx, coreIdx, dmaIdx, logBase, trigIdx] <;> (try split)) <;> omega)) | with_reducible assumption | with_reducible apply held_ite | with_reducible apply held_ite2 | with_reducible apply held_ite3 | with_reducible apply held_ite4 | (with_reducible apply held_foldl; intro _ _ _) | with_reducible apply State.cfgWrite_held | with_reducible apply State.event_held | with_reducible apply State.record_held | with_reducible apply State.showSet_held | with_reducible apply State.wr_held | simp only [held_same] | intro _ | dsimp only | split)); done))) | (have : Held s0 z1.2 := by ((try dsimp only); (repeat' (first | (first | omega | ((simp +zetaDelta only [odKey, bankIdx, bankStatusSub, canIdx, dmaObj, instBase, launchIdx, coreIdx, dmaIdx, logBase, trigIdx] <;> (try split)) <;> omega)) | with_reducible assumption | with_reducible apply held_ite | with_reducible apply held_ite2 | with_reducible apply held_ite3 | with_reducible apply held_ite4 | (with_reducible apply held_foldl; intro _ _ _) | with_reducible apply State.cfgWrite_held | with_reducible apply State.event_held | with_reducible apply State.record_held | with_reducible apply State.showSet_held | with_reducible apply State.wr_held | simp only [held_same] | intro _ | dsimp only | split)); done)) | (have : Held s0 z1.2.2 := by ((try dsimp only); (repeat' (first | (first | omega | ((simp +zetaDelta only [odKey, bankIdx, bankStatusSub, canIdx, dmaObj, instBase, launchIdx, coreIdx, dmaIdx, logBase, trigIdx] <;> (try split)) <;> omega)) | with_reducible assumption | with_reducible apply held_ite | with_reducible apply held_ite2 | with_reducible apply held_ite3 | with_reducible apply held_ite4 | (with_reducible apply held_foldl; intro _ _ _) | with_reducible apply State.cfgWrite_held | with_reducible apply State.event_held | with_reducible apply State.record_held | with_reducible apply State.showSet_held | with_reducible apply State.wr_held | simp only [held_same] | intro _ | dsimp only | split)); done)))); (try clear_value z1); (try dsimp only); (repeat' (first | (first | omega | ((simp +zetaDelta only [odKey, bankIdx, bankStatusSub, canIdx, dmaObj, instBase, launchIdx, coreIdx, dmaIdx, logBase, trigIdx] <;> (try split)) <;> omega)) | with_reducible assumption | with_reducible apply held_ite | with_reducible apply held_ite2 | with_reducible apply held_ite3 | with_reducible apply held_ite4 | (with_reducible apply held_foldl; intro _ _ _) | with_reducible apply State.cfgWrite_held | with_reducible apply State.event_held | with_reducible apply State.record_held | with_reducible apply State.showSet_held | with_reducible apply State.wr_held | simp only [held_same] | intro _ | dsimp only | split))
@[simp] theorem State.recover_held {s0 : State} (s : State) (cause : Nat) (hc : Held s0 s) :
    Held s0 (State.recover s cause) := by
  unfold State.recover
  extract_lets z0 z1 z2
  have h1 : Held s0 z1 := by simp only [z1]; repeat' first | (first | omega | ((simp +zetaDelta only [odKey, bankIdx, bankStatusSub, canIdx, dmaObj, instBase, launchIdx, coreIdx, dmaIdx, logBase, trigIdx] <;> (try split)) <;> omega)) | (with_reducible first | assumption | apply State.enter_held | apply State.hold_held | apply State.latEnable_held | apply State.switchClear_held | apply State.wr_held) | simp only [held_same] | dsimp only
  try clear_value z1
  have h2 : Held s0 z2 := by repeat' first | (first | omega | ((simp +zetaDelta only [odKey, bankIdx, bankStatusSub, canIdx, dmaObj, instBase, launchIdx, coreIdx, dmaIdx, logBase, trigIdx] <;> (try split)) <;> omega)) | (with_reducible first | assumption | apply State.enter_held | apply State.hold_held | apply State.latEnable_held | apply State.switchClear_held | apply State.wr_held) | simp only [held_same] | dsimp only
  try clear_value z2
  repeat' first | (first | omega | ((simp +zetaDelta only [odKey, bankIdx, bankStatusSub, canIdx, dmaObj, instBase, launchIdx, coreIdx, dmaIdx, logBase, trigIdx] <;> (try split)) <;> omega)) | (with_reducible first | assumption | apply State.enter_held | apply State.hold_held | apply State.latEnable_held | apply State.switchClear_held | apply State.wr_held) | simp only [held_same] | dsimp only
@[simp] theorem State.hostLoad_held {s0 : State} (s : State) (hc : Held s0 s) :
    Held s0 (State.hostLoad s) :=
  held_low (State.hostLoad_low s (low_refl _)) hc
@[simp] theorem State.bootRom_held {s0 : State} (s : State) (valid : Bool) (hc : Held s0 s) :
    Held s0 (State.bootRom s valid) := by
  unfold State.bootRom
  extract_lets z0 z1 z2 z3 z4 z5
  have h1 : Held s0 z1 := by simp only [z1]; repeat' first | (first | omega | ((simp +zetaDelta only [odKey, bankIdx, bankStatusSub, canIdx, dmaObj, instBase, launchIdx, coreIdx, dmaIdx, logBase, trigIdx] <;> (try split)) <;> omega)) | (with_reducible first | assumption | apply held_ite | apply State.hostLoad_held | apply State.logCounter_held | apply State.recover_held | apply State.wr_held | apply State.writeStart_held | apply held_ite2 | apply held_ite3 | apply held_ite4) | simp only [held_same] | dsimp only
  try clear_value z1
  have h2 : Held s0 z2 := by repeat' first | (first | omega | ((simp +zetaDelta only [odKey, bankIdx, bankStatusSub, canIdx, dmaObj, instBase, launchIdx, coreIdx, dmaIdx, logBase, trigIdx] <;> (try split)) <;> omega)) | (with_reducible first | assumption | apply held_ite | apply State.hostLoad_held | apply State.logCounter_held | apply State.recover_held | apply State.wr_held | apply State.writeStart_held | apply held_ite2 | apply held_ite3 | apply held_ite4) | simp only [held_same] | dsimp only
  try clear_value z2
  repeat' first | (first | omega | ((simp +zetaDelta only [odKey, bankIdx, bankStatusSub, canIdx, dmaObj, instBase, launchIdx, coreIdx, dmaIdx, logBase, trigIdx] <;> (try split)) <;> omega)) | (with_reducible first | assumption | apply held_ite | apply State.hostLoad_held | apply State.recover_held | apply State.wr_held | apply State.writeStart_held) | dsimp only
@[simp] theorem State.fuseLoad_held {s0 : State} (s : State) (ok : Bool) (hc : Held s0 s) :
    Held s0 (State.fuseLoad s ok) := by
  unfold State.fuseLoad
  repeat' first | (first | omega | ((simp +zetaDelta only [odKey, bankIdx, bankStatusSub, canIdx, dmaObj, instBase, launchIdx, coreIdx, dmaIdx, logBase, trigIdx] <;> (try split)) <;> omega)) | (with_reducible first | assumption | apply held_ite | apply State.enter_held | apply State.hold_held | apply State.wr_held) | simp only [held_same] | dsimp only
@[simp] theorem State.strapStep_held {s0 : State} (s : State) (mode : Nat) (hc : Held s0 s) :
    Held s0 (State.strapStep s mode) := by
  unfold State.strapStep
  extract_lets z0 z1
  have h0 : Held s0 z0 := by repeat' first | (first | omega | ((simp +zetaDelta only [odKey, bankIdx, bankStatusSub, canIdx, dmaObj, instBase, launchIdx, coreIdx, dmaIdx, logBase, trigIdx] <;> (try split)) <;> omega)) | (with_reducible first | assumption | apply State.wr_held) | dsimp only
  try clear_value z0
  have h1 : Held s0 z1 := by repeat' first | (first | omega | ((simp +zetaDelta only [odKey, bankIdx, bankStatusSub, canIdx, dmaObj, instBase, launchIdx, coreIdx, dmaIdx, logBase, trigIdx] <;> (try split)) <;> omega)) | (with_reducible first | assumption | apply held_ite | (apply held_foldl; intro _ _ _) | apply State.supplyOut_held) | intro _ | dsimp only
  try clear_value z1
  repeat' first | (first | omega | ((simp +zetaDelta only [odKey, bankIdx, bankStatusSub, canIdx, dmaObj, instBase, launchIdx, coreIdx, dmaIdx, logBase, trigIdx] <;> (try split)) <;> omega)) | (with_reducible first | assumption | apply State.wr_held) | dsimp only
@[simp] theorem State.optionStep_held {s0 : State} (s : State) (hc : Held s0 s) :
    Held s0 (State.optionStep s) :=
  held_low (State.optionStep_low s (low_refl _)) hc
@[simp] theorem State.bankStep4_held {s0 : State} (s : State) (hc : Held s0 s) :
    Held s0 (State.bankStep4 s) :=
  held_low (State.bankStep4_low s (low_refl _)) hc
@[simp] theorem State.pllStep_held {s0 : State} (s : State) (hc : Held s0 s) : Held s0 (State.pllStep s) :=
  held_low (State.pllStep_low s (low_refl _)) hc
@[simp] theorem State.startOk_held {s0 : State} (s : State) (micros : Nat) (hc : Held s0 s) : Held s0 (State.startOk s micros) := by
  unfold State.startOk; (repeat' (first | (first | omega | ((simp +zetaDelta only [odKey, bankIdx, bankStatusSub, canIdx, dmaObj, instBase, launchIdx, coreIdx, dmaIdx, logBase, trigIdx] <;> (try split)) <;> omega)) | with_reducible assumption | with_reducible apply held_ite | with_reducible apply held_ite2 | with_reducible apply held_ite3 | with_reducible apply held_ite4 | with_reducible apply State.confirmConfig_held | with_reducible apply State.enter_held | with_reducible apply State.event_held | with_reducible apply State.unhold_held | with_reducible apply State.wr_held | with_reducible apply State.writeStart_held | simp only [held_same] | intro _ | dsimp only))
@[simp] theorem State.stepDone_held {s0 : State} (s : State) (b : StepInput) (hc : Held s0 s) :
    Held s0 (State.stepDone s b) := by
  unfold State.stepDone
  repeat' first | (first | omega | ((simp +zetaDelta only [odKey, bankIdx, bankStatusSub, canIdx, dmaObj, instBase, launchIdx, coreIdx, dmaIdx, logBase, trigIdx] <;> (try split)) <;> omega)) | (with_reducible first | assumption | apply held_ite | (apply held_foldl; intro _ _ _) | apply State.bankStep4_held | apply State.bootRom_held | apply State.doLoad_held | apply State.fuseLoad_held | apply State.instStart_held | apply State.loadConfig_held | apply State.optionStep_held | apply State.pllStep_held | apply State.startOk_held | apply State.strapStep_held | apply State.wr_held) | simp only [held_same] | intro _ | dsimp only | split
@[simp] theorem State.stompTx_held {s0 : State} (s : State) (e : Nat) (hc : Held s0 s) :
    Held s0 (State.stompTx s e) :=
  held_low (State.stompTx_low s e (low_refl _)) hc
@[simp] theorem State.exception_held {s0 : State} (s : State) (c code pc : Nat) (hc : Held s0 s) :
    Held s0 (State.exception s c code pc) :=
  held_low (State.exception_low s c code pc (low_refl _)) hc
@[simp] theorem State.finish_held {s0 : State} (s : State) (c pc : Nat) (hc : Held s0 s) :
    Held s0 (State.finish s c pc) :=
  held_low (State.finish_low s c pc (low_refl _)) hc
@[simp] theorem State.finishWith_held {s0 : State} (s : State) (c : Nat) (g : Engine) (hc : Held s0 s) :
    Held s0 (State.finishWith s c g) :=
  held_low (State.finishWith_low s c g (low_refl _)) hc
@[simp] theorem State.await_held {s0 : State} (s : State) (c : Nat) (w : WaitFor) (hc : Held s0 s) :
    Held s0 (State.await s c w) :=
  held_low (State.await_low s c w (low_refl _)) hc
@[simp] theorem State.jump_held {s0 : State} (s : State) (c : Nat) (t : Int) (hc : Held s0 s) :
    Held s0 (State.jump s c t) :=
  held_low (State.jump_low s c t (low_refl _)) hc
@[simp] theorem State.runOp_held {s0 : State} (s : State) (c : Nat) (o : EOp) (f : State → Word → State) (hf : ∀ s a0, Held s0 s → Held s0 (f s a0)) (hc : Held s0 s) :
    Held s0 (State.runOp s c o f) := by
  unfold State.runOp
  repeat' first | (first | omega | ((simp +zetaDelta only [odKey, bankIdx, bankStatusSub, canIdx, dmaObj, instBase, launchIdx, coreIdx, dmaIdx, logBase, trigIdx] <;> (try split)) <;> omega)) | (with_reducible first | assumption | apply held_ite | apply State.correct_held | apply State.meetDbe_held | apply hf) | intro _ | dsimp only
@[simp] theorem State.doPosted_held {s0 : State} (s : State) (c : Fin 33) (p : Posted) (hc : Held s0 s) :
    Held s0 (State.doPosted s c p) := by
  unfold State.doPosted
  repeat' first | (first | omega | ((simp +zetaDelta only [odKey, bankIdx, bankStatusSub, canIdx, dmaObj, instBase, launchIdx, coreIdx, dmaIdx, logBase, trigIdx] <;> (try split)) <;> omega)) | (with_reducible first | assumption | apply State.mapWrite1_held) | dsimp only
@[simp] theorem State.drainPosted_held {s0 : State} (s : State) (c : Fin 33) (n : Nat) (hc : Held s0 s) : Held s0 (s.drainPosted c n) := by
  induction n generalizing s with
  | zero => simpa [State.drainPosted] using hc
  | succ n ih => unfold State.drainPosted; dsimp only; repeat' split
                 all_goals simp (maxDischargeDepth := 60) [ih, hc]
@[simp] theorem State.afterStores_held {s0 : State} (s : State) (c : Fin 33) (f : State → State) (hf : ∀ s, Held s0 s → Held s0 (f s)) (hc : Held s0 s) :
    Held s0 (State.afterStores s c f) := by
  unfold State.afterStores
  extract_lets z0
  have h0 : Held s0 z0 := by repeat' first | (first | omega | ((simp +zetaDelta only [odKey, bankIdx, bankStatusSub, canIdx, dmaObj, instBase, launchIdx, coreIdx, dmaIdx, logBase, trigIdx] <;> (try split)) <;> omega)) | (with_reducible first | assumption | apply State.drainPosted_held) | intro _ | dsimp only
  try clear_value z0
  repeat' first | (first | omega | ((simp +zetaDelta only [odKey, bankIdx, bankStatusSub, canIdx, dmaObj, instBase, launchIdx, coreIdx, dmaIdx, logBase, trigIdx] <;> (try split)) <;> omega)) | (with_reducible first | assumption | apply held_ite | apply State.await_held | apply hf) | intro _ | dsimp only
@[simp] theorem State.postStore_held {s0 : State} (s : State) (c : Fin 33) (p : Posted) (hc : Held s0 s) :
    Held s0 (State.postStore s c p) :=
  held_low (State.postStore_low s c p (low_refl _)) hc
@[simp] theorem State.raiseEither_held {s0 : State} (s : State) (c : Nat) (a b : Bool) (ca cb : Nat) (f : State → State) (hf : ∀ s, Held s0 s → Held s0 (f s)) (hc : Held s0 s) :
    Held s0 (State.raiseEither s c a b ca cb f) := by
  unfold State.raiseEither
  repeat' first | (first | omega | ((simp +zetaDelta only [odKey, bankIdx, bankStatusSub, canIdx, dmaObj, instBase, launchIdx, coreIdx, dmaIdx, logBase, trigIdx] <;> (try split)) <;> omega)) | (with_reducible first | assumption | apply held_ite | apply State.exception_held | apply State.tick_held | apply hf) | simp only [held_same] | intro _ | dsimp only | split
@[simp] theorem State.illegal_held {s0 : State} (s : State) (c : Nat) (hc : Held s0 s) :
    Held s0 (State.illegal s c) := by
  unfold State.illegal
  repeat' first | (first | omega | ((simp +zetaDelta only [odKey, bankIdx, bankStatusSub, canIdx, dmaObj, instBase, launchIdx, coreIdx, dmaIdx, logBase, trigIdx] <;> (try split)) <;> omega)) | (with_reducible first | assumption | apply held_ite | apply State.exception_held | apply State.meetDbe_held) | dsimp only
@[simp] theorem State.regOp_held {s0 : State} (s : State) (c : Nat) (o : EOp) (f : Engine → Word → Engine) (hc : Held s0 s) :
    Held s0 (State.regOp s c o f) := by
  unfold State.regOp
  repeat' first | (first | omega | ((simp +zetaDelta only [odKey, bankIdx, bankStatusSub, canIdx, dmaObj, instBase, launchIdx, coreIdx, dmaIdx, logBase, trigIdx] <;> (try split)) <;> omega)) | (with_reducible first | assumption | apply State.finishWith_held | apply State.runOp_held) | intro _ | dsimp only
@[simp] theorem State.doLdl_held {s0 : State} (s : State) (c : Fin 33) (w : Word) (hc : Held s0 s) :
    Held s0 (State.doLdl s c w) := by
  unfold State.doLdl
  extract_lets z0
  repeat' first | (first | omega | ((simp +zetaDelta only [odKey, bankIdx, bankStatusSub, canIdx, dmaObj, instBase, launchIdx, coreIdx, dmaIdx, logBase, trigIdx] <;> (try split)) <;> omega)) | (with_reducible first | assumption | apply held_ite | apply State.afterStores_held | apply State.correct_held | apply State.finishWith_held | apply State.meetDbe_held | apply State.raiseEither_held) | intro _ | dsimp only
@[simp] theorem State.putLocal_held {s0 : State} (s : State) (a : Nat) (d : List Byte) (hc : Held s0 s) :
    Held s0 (State.putLocal s a d) :=
  held_low (State.putLocal_low s a d (low_refl _)) hc
@[simp] theorem State.doStl_held {s0 : State} (s : State) (c : Fin 33) (w : Word) (hc : Held s0 s) :
    Held s0 (State.doStl s c w) := by
  unfold State.doStl
  extract_lets z0
  repeat' first | (first | omega | ((simp +zetaDelta only [odKey, bankIdx, bankStatusSub, canIdx, dmaObj, instBase, launchIdx, coreIdx, dmaIdx, logBase, trigIdx] <;> (try split)) <;> omega)) | (with_reducible first | assumption | apply State.afterStores_held | apply State.finish_held | apply State.putLocal_held | apply State.raiseEither_held) | intro _ | dsimp only
@[simp] theorem State.loadDbe_held {s0 : State} (s : State) (c : Nat) (a : Nat) (hc : Held s0 s) :
    Held s0 (State.loadDbe s c a) :=
  held_low (State.loadDbe_low s c a (low_refl _)) hc
@[simp] theorem State.farLoad_held {s0 : State} (s : State) (c : Fin 33) (w : Word) (a : Nat) (hc : Held s0 s) :
    Held s0 (State.farLoad s c w a) := by
  unfold State.farLoad
  repeat' first | (first | omega | ((simp +zetaDelta only [odKey, bankIdx, bankStatusSub, canIdx, dmaObj, instBase, launchIdx, coreIdx, dmaIdx, logBase, trigIdx] <;> (try split)) <;> omega)) | (with_reducible first | assumption | apply held_ite | apply State.await_held | apply State.finishWith_held | apply State.loadDbe_held | apply State.mapRead1_held | apply State.noteNotOn_held | apply held_ite2 | apply held_ite3 | apply held_ite4) | dsimp only
@[simp] theorem State.doLdf_held {s0 : State} (s : State) (c : Fin 33) (w : Word) (hc : Held s0 s) :
    Held s0 (State.doLdf s c w) := by
  unfold State.doLdf
  extract_lets z0
  repeat' first | (first | omega | ((simp +zetaDelta only [odKey, bankIdx, bankStatusSub, canIdx, dmaObj, instBase, launchIdx, coreIdx, dmaIdx, logBase, trigIdx] <;> (try split)) <;> omega)) | (with_reducible first | assumption | apply State.afterStores_held | apply State.farLoad_held | apply State.raiseEither_held) | intro _ | dsimp only
@[simp] theorem State.doStf_held {s0 : State} (s : State) (c : Fin 33) (w : Word) (hc : Held s0 s) :
    Held s0 (State.doStf s c w) :=
  held_low (State.doStf_low s c w (low_refl _)) hc
@[simp] theorem State.doLdx_held {s0 : State} (s : State) (c : Fin 33) (w : Word) (hc : Held s0 s) :
    Held s0 (State.doLdx s c w) := by
  unfold State.doLdx
  extract_lets z0
  repeat' first | (first | omega | ((simp +zetaDelta only [odKey, bankIdx, bankStatusSub, canIdx, dmaObj, instBase, launchIdx, coreIdx, dmaIdx, logBase, trigIdx] <;> (try split)) <;> omega)) | (with_reducible first | assumption | apply held_ite | apply State.afterStores_held | apply State.exception_held | apply State.farLoad_held) | intro _ | dsimp only
@[simp] theorem State.doStx_held {s0 : State} (s : State) (c : Fin 33) (w : Word) (hc : Held s0 s) :
    Held s0 (State.doStx s c w) :=
  held_low (State.doStx_low s c w (low_refl _)) hc
@[simp] theorem State.atomAt_held {s0 : State} (s : State) (c : Fin 33) (w : Word) (a : Nat) (swap : Bool) (hc : Held s0 s) :
    Held s0 (State.atomAt s c w a swap) := by
  unfold State.atomAt
  extract_lets z0
  repeat' first | (first | omega | ((simp +zetaDelta only [odKey, bankIdx, bankStatusSub, canIdx, dmaObj, instBase, launchIdx, coreIdx, dmaIdx, logBase, trigIdx] <;> (try split)) <;> omega)) | (with_reducible first | assumption | apply held_ite | apply State.atomic_held | apply State.await_held | apply State.finishWith_held | apply State.loadDbe_held | apply State.noteNotOn_held | apply held_ite2 | apply held_ite3 | apply held_ite4) | dsimp only
@[simp] theorem State.doAtomF_held {s0 : State} (s : State) (c : Fin 33) (w : Word) (swap : Bool) (hc : Held s0 s) :
    Held s0 (State.doAtomF s c w swap) := by
  unfold State.doAtomF
  extract_lets z0
  repeat' first | (first | omega | ((simp +zetaDelta only [odKey, bankIdx, bankStatusSub, canIdx, dmaObj, instBase, launchIdx, coreIdx, dmaIdx, logBase, trigIdx] <;> (try split)) <;> omega)) | (with_reducible first | assumption | apply State.afterStores_held | apply State.atomAt_held | apply State.raiseEither_held) | intro _ | dsimp only
@[simp] theorem State.doAtomX_held {s0 : State} (s : State) (c : Fin 33) (w : Word) (swap : Bool) (hc : Held s0 s) :
    Held s0 (State.doAtomX s c w swap) := by
  unfold State.doAtomX
  extract_lets z0
  repeat' first | (first | omega | ((simp +zetaDelta only [odKey, bankIdx, bankStatusSub, canIdx, dmaObj, instBase, launchIdx, coreIdx, dmaIdx, logBase, trigIdx] <;> (try split)) <;> omega)) | (with_reducible first | assumption | apply State.afterStores_held | apply State.atomAt_held | apply State.raiseEither_held) | intro _ | dsimp only
@[simp] theorem State.doFence_held {s0 : State} (s : State) (c : Fin 33) (hc : Held s0 s) :
    Held s0 (State.doFence s c) :=
  held_low (State.doFence_low s c (low_refl _)) hc
@[simp] theorem State.linked_held {s0 : State} (s : State) (c : Nat) (hc : Held s0 s) :
    Held s0 (State.linked s c) :=
  held_low (State.linked_low s c (low_refl _)) hc
@[simp] theorem State.doHaltInsn_held {s0 : State} (s : State) (c : Fin 33) (hc : Held s0 s) :
    Held s0 (State.doHaltInsn s c) :=
  held_low (State.doHaltInsn_low s c (low_refl _)) hc
@[simp] theorem State.doTake_held {s0 : State} (s : State) (c : Nat) (w : Word) (hc : Held s0 s) :
    Held s0 (State.doTake s c w) :=
  held_low (State.doTake_low s c w (low_refl _)) hc
@[simp] theorem State.doPeek_held {s0 : State} (s : State) (c : Nat) (w : Word) (hc : Held s0 s) :
    Held s0 (State.doPeek s c w) :=
  held_low (State.doPeek_low s c w (low_refl _)) hc
@[simp] theorem State.doMatch_held {s0 : State} (s : State) (c : Nat) (w : Word) (hc : Held s0 s) :
    Held s0 (State.doMatch s c w) :=
  held_low (State.doMatch_low s c w (low_refl _)) hc
@[simp] theorem State.doMark_held {s0 : State} (s : State) (c : Nat) (w : Word) (hc : Held s0 s) :
    Held s0 (State.doMark s c w) :=
  held_low (State.doMark_low s c w (low_refl _)) hc
@[simp] theorem State.doGive_held {s0 : State} (s : State) (c : Fin 33) (w : Word) (hc : Held s0 s) :
    Held s0 (State.doGive s c w) := by
  unfold State.doGive
  repeat' first | (first | omega | ((simp +zetaDelta only [odKey, bankIdx, bankStatusSub, canIdx, dmaObj, instBase, launchIdx, coreIdx, dmaIdx, logBase, trigIdx] <;> (try split)) <;> omega)) | (with_reducible first | assumption | apply held_ite | (apply held_foldl; intro _ _ _) | apply State.afterStores_held | apply State.await_held | apply State.finishWith_held | apply State.settleTx_held) | simp only [held_same] | intro _ | dsimp only
@[simp] theorem State.doGend_held {s0 : State} (s : State) (c : Nat) (w : Word) (hc : Held s0 s) :
    Held s0 (State.doGend s c w) :=
  held_low (State.doGend_low s c w (low_refl _)) hc
@[simp] theorem State.doTwait_held {s0 : State} (s : State) (c : Nat) (w : Word) (hc : Held s0 s) :
    Held s0 (State.doTwait s c w) :=
  held_low (State.doTwait_low s c w (low_refl _)) hc
@[simp] theorem State.giveEvents_held {s0 : State} (s : State) (c : Nat) (w v : Word) (hc : Held s0 s) :
    Held s0 (State.giveEvents s c w v) :=
  held_low (State.giveEvents_low s c w v (low_refl _)) hc
@[simp] theorem State.doEwait_held {s0 : State} (s : State) (c : Nat) (w : Word) (hc : Held s0 s) :
    Held s0 (State.doEwait s c w) := by
  unfold State.doEwait
  repeat' first | (first | omega | ((simp +zetaDelta only [odKey, bankIdx, bankStatusSub, canIdx, dmaObj, instBase, launchIdx, coreIdx, dmaIdx, logBase, trigIdx] <;> (try split)) <;> omega)) | (with_reducible first | assumption | apply held_ite | apply State.await_held | apply State.event_held | apply State.giveEvents_held) | dsimp only
@[simp] theorem State.doEwaitT_held {s0 : State} (s : State) (c : Nat) (w : Word) (hc : Held s0 s) :
    Held s0 (State.doEwaitT s c w) := by
  unfold State.doEwaitT
  repeat' first | (first | omega | ((simp +zetaDelta only [odKey, bankIdx, bankStatusSub, canIdx, dmaObj, instBase, launchIdx, coreIdx, dmaIdx, logBase, trigIdx] <;> (try split)) <;> omega)) | (with_reducible first | assumption | apply held_ite | apply State.await_held | apply State.event_held | apply State.giveEvents_held) | dsimp only
@[simp] theorem State.doLock_held {s0 : State} (s : State) (c : Fin 33) (w : Word) (hc : Held s0 s) :
    Held s0 (State.doLock s c w) :=
  held_low (State.doLock_low s c w (low_refl _)) hc
@[simp] theorem State.doUnlock_held {s0 : State} (s : State) (c : Fin 33) (w : Word) (hc : Held s0 s) :
    Held s0 (State.doUnlock s c w) :=
  held_low (State.doUnlock_low s c w (low_refl _)) hc
@[simp] theorem State.doPostInsn_held {s0 : State} (s : State) (c : Fin 33) (w : Word) (hc : Held s0 s) :
    Held s0 (State.doPostInsn s c w) := by
  unfold State.doPostInsn
  repeat' first | (first | omega | ((simp +zetaDelta only [odKey, bankIdx, bankStatusSub, canIdx, dmaObj, instBase, launchIdx, coreIdx, dmaIdx, logBase, trigIdx] <;> (try split)) <;> omega)) | (with_reducible first | assumption | apply State.afterStores_held | apply State.finish_held | apply State.guard_held | apply State.post_held | apply State.runOp_held) | intro _ | dsimp only
@[simp] theorem State.doDbrd_held {s0 : State} (s : State) (c : Fin 33) (w : Word) (hc : Held s0 s) :
    Held s0 (State.doDbrd s c w) := by
  unfold State.doDbrd
  repeat' first | (first | omega | ((simp +zetaDelta only [odKey, bankIdx, bankStatusSub, canIdx, dmaObj, instBase, launchIdx, coreIdx, dmaIdx, logBase, trigIdx] <;> (try split)) <;> omega)) | (with_reducible first | assumption | apply held_ite | apply State.afterStores_held | apply State.dbRead_held | apply State.finishWith_held | apply State.guard_held | apply State.runOp_held | apply State.violate_held | apply held_ite2 | apply held_ite3 | apply held_ite4) | simp only [held_same] | intro _ | dsimp only
@[simp] theorem State.doDbclr_held {s0 : State} (s : State) (c : Fin 33) (w : Word) (hc : Held s0 s) :
    Held s0 (State.doDbclr s c w) := by
  unfold State.doDbclr
  repeat' first | (first | omega | ((simp +zetaDelta only [odKey, bankIdx, bankStatusSub, canIdx, dmaObj, instBase, launchIdx, coreIdx, dmaIdx, logBase, trigIdx] <;> (try split)) <;> omega)) | (with_reducible first | assumption | apply State.afterStores_held | apply State.dbClear_held | apply State.finish_held | apply State.guard_held | apply State.runOp_held) | intro _ | dsimp only
@[simp] theorem State.doMramw_held {s0 : State} (s : State) (c : Fin 33) (w : Word) (hc : Held s0 s) :
    Held s0 (State.doMramw s c w) := by
  unfold State.doMramw
  repeat' first | (first | omega | ((simp +zetaDelta only [odKey, bankIdx, bankStatusSub, canIdx, dmaObj, instBase, launchIdx, coreIdx, dmaIdx, logBase, trigIdx] <;> (try split)) <;> omega)) | (with_reducible first | assumption | apply held_ite | apply State.afterStores_held | apply State.await_held | apply State.exception_held | apply State.finish_held | apply State.guard_held | apply State.runOp_held | apply State.setBytes_held) | intro _ | dsimp only
@[simp] theorem State.doSha_held {s0 : State} (s : State) (c : Fin 33) (w : Word) (hc : Held s0 s) :
    Held s0 (State.doSha s c w) := by
  unfold State.doSha
  repeat' first | (first | omega | ((simp +zetaDelta only [odKey, bankIdx, bankStatusSub, canIdx, dmaObj, instBase, launchIdx, coreIdx, dmaIdx, logBase, trigIdx] <;> (try split)) <;> omega)) | (with_reducible first | assumption | apply held_ite | apply State.afterStores_held | apply State.exception_held | apply State.finish_held | apply State.guard_held | apply State.runOp_held | apply State.setBytes_held) | intro _ | dsimp only
@[simp] theorem State.resumeOp_held {s0 : State} (s : State) (c : Fin 33) (w : Word) (o : EOp) (hc : Held s0 s) : Held s0 (s.resumeOp c w o) := by
  cases o <;> first
  | (simp [State.resumeOp, hc]; done)
  | (simp only [State.resumeOp]; exact State.afterStores_held _ _ _ (fun s h => by simp [h]) hc)
@[simp] theorem State.doMapRead_held {s0 : State} (s : State) (p : Path) (a : Nat) (size : Size) (beats : Nat) (hc : Held s0 s) :
    Held s0 (State.doMapRead s p a size beats) := by
  unfold State.doMapRead
  repeat' first | (first | omega | ((simp +zetaDelta only [odKey, bankIdx, bankStatusSub, canIdx, dmaObj, instBase, launchIdx, coreIdx, dmaIdx, logBase, trigIdx] <;> (try split)) <;> omega)) | (with_reducible first | assumption | apply held_ite | apply State.mapBurst_held | apply State.readAnswer_held | apply State.waitFor_held | apply held_ite2 | apply held_ite3 | apply held_ite4) | dsimp only
@[simp] theorem State.doMapWrite_held {s0 : State} (s : State) (p : Path) (a : Nat) (size : Size) (d : List Byte) (hc : Held s0 s) :
    Held s0 (State.doMapWrite s p a size d) := by
  unfold State.doMapWrite
  extract_lets z0
  repeat' first | (first | omega | ((simp +zetaDelta only [odKey, bankIdx, bankStatusSub, canIdx, dmaObj, instBase, launchIdx, coreIdx, dmaIdx, logBase, trigIdx] <;> (try split)) <;> omega)) | (with_reducible first | assumption | apply held_ite | apply State.mapStores_held | apply State.waitFor_held) | dsimp only
@[simp] theorem State.hostAtomic_held {s0 : State} (s : State) (p : Path) (a : Nat) (wide swap : Bool) (x : Nat) (hc : Held s0 s) :
    Held s0 (State.hostAtomic s p a wide swap x) := by
  unfold State.hostAtomic
  extract_lets z0
  repeat' first | (first | omega | ((simp +zetaDelta only [odKey, bankIdx, bankStatusSub, canIdx, dmaObj, instBase, launchIdx, coreIdx, dmaIdx, logBase, trigIdx] <;> (try split)) <;> omega)) | (with_reducible first | assumption | apply held_ite | apply State.atomic_held | apply State.atomicAnswer_held | apply State.violate_held | apply State.waitFor_held | apply held_ite2 | apply held_ite3 | apply held_ite4) | dsimp only
@[simp] theorem State.qspiBegin_held {s0 : State} (s : State) (hc : Held s0 s) :
    Held s0 (State.qspiBegin s) :=
  held_low (State.qspiBegin_low s (low_refl _)) hc
@[simp] theorem State.qspiFetch_held {s0 : State} (s : State) (a f k : Nat) (hc : Held s0 s) : Held s0 (s.qspiFetch a f k).2.2.2 := by
  induction f generalizing s a k with
  | zero => simpa [State.qspiFetch] using hc
  | succ f ih =>
    cases k with
    | zero => exact hc
    | succ k =>
      exact ih _ _ _ (held_ite3 (State.mapRead1_held _ _ _ _ hc) (State.noteNotOn_held _ hc))
@[simp] theorem State.qspiData_held {s0 : State} (s : State) (a k : Nat) (hc : Held s0 s) :
    Held s0 (State.qspiData s a k).2.2.2 := by
  unfold State.qspiData
  repeat' first | (first | omega | ((simp +zetaDelta only [odKey, bankIdx, bankStatusSub, canIdx, dmaObj, instBase, launchIdx, coreIdx, dmaIdx, logBase, trigIdx] <;> (try split)) <;> omega)) | (with_reducible first | assumption | apply held_ite | apply State.qspiFetch_held | apply held_ite2 | apply held_ite3 | apply held_ite4) | dsimp only
@[simp] theorem State.qspiDrop_held {s0 : State} (s : State) (hc : Held s0 s) :
    Held s0 (State.qspiDrop s) :=
  held_low (State.qspiDrop_low s (low_refl _)) hc
@[simp] theorem State.qspiStore_held {s0 : State} (s : State) (a : Nat) (d : List Byte) (x0 : Nat) (hc : Held s0 s) :
    Held s0 (State.qspiStore s a d x0) := by
  induction x0 generalizing s a d <;> first | (simp_all [State.qspiStore]; done) | (unfold State.qspiStore; (repeat' split) <;> simp_all)
@[simp] theorem State.qspiAtomic_held {s0 : State} (s : State) (a : Nat) (wide swap : Bool) (x : Nat) (hc : Held s0 s) :
    Held s0 (State.qspiAtomic s a wide swap x) := by
  unfold State.qspiAtomic
  repeat' first | (first | omega | ((simp +zetaDelta only [odKey, bankIdx, bankStatusSub, canIdx, dmaObj, instBase, launchIdx, coreIdx, dmaIdx, logBase, trigIdx] <;> (try split)) <;> omega)) | (with_reducible first | assumption | apply held_ite | apply State.hostAtomic_held | apply State.qspiDrop_held) | simp only [held_same] | dsimp only
@[simp] theorem State.odOp_held {s0 : State} (s : State) (p : Path) (x : OdOp) (hc : Held s0 s) :
    Held s0 (State.odOp s p x).2 := by
  unfold State.odOp
  extract_lets z0
  repeat' first | (first | omega | ((simp +zetaDelta only [odKey, bankIdx, bankStatusSub, canIdx, dmaObj, instBase, launchIdx, coreIdx, dmaIdx, logBase, trigIdx] <;> (try split)) <;> omega)) | (with_reducible first | assumption | apply held_ite | apply State.slotRead_held | apply State.slotWrite_held | apply State.windowRead_held | apply State.windowWrite_held | apply held_ite2 | apply held_ite3 | apply held_ite4) | dsimp only
@[simp] theorem State.odOpsRun_held {s0 : State} (s : State) (p : Path) (put : Nat → Nat → List Byte) (x0 : List OdOp) (hc : Held s0 s) :
    Held s0 (State.odOpsRun s p put x0).2 := by
  induction x0 generalizing s p put <;> first | (simp_all [State.odOpsRun]; done) | (unfold State.odOpsRun; (repeat' split) <;> simp_all)
@[simp] theorem State.openBytes_held {s0 : State} (s : State) (n : Nat) (hc : Held s0 s) :
    Held s0 (State.openBytes s n).2 :=
  held_low (State.openBytes_low s n (low_refl _)) hc
@[simp] theorem State.sessionRefuse_held {s0 : State} (s : State) (c : Nat) (hc : Held s0 s) :
    Held s0 (State.sessionRefuse s c) :=
  held_low (State.sessionRefuse_low s c (low_refl _)) hc
@[simp] theorem State.sessionOpen_held {s0 : State} (s : State) (c path origin : Nat) (m : SMsg) (hc : Held s0 s) :
    Held s0 (State.sessionOpen s c path origin m).2.2.2 :=
  held_low (State.sessionOpen_low s c path origin m (low_refl _)) hc
@[simp] theorem State.sessionProve_held {s0 : State} (s : State) (c : Nat) (m : SMsg) (hc : Held s0 s) :
    Held s0 (State.sessionProve s c m).2.2.2 :=
  held_low (State.sessionProve_low s c m (low_refl _)) hc
@[simp] theorem State.sessionAccess_held {s0 : State} (s : State) (c : Nat) (m : SMsg) (hc : Held s0 s) :
    Held s0 (State.sessionAccess s c m).2.2.2 := by
  unfold State.sessionAccess
  extract_lets z0 z1 z2 z3
  have h1 : Held s0 z1 := by repeat' first | (first | omega | ((simp +zetaDelta only [odKey, bankIdx, bankStatusSub, canIdx, dmaObj, instBase, launchIdx, coreIdx, dmaIdx, logBase, trigIdx] <;> (try split)) <;> omega)) | (with_reducible first | assumption | apply State.setSession_held) | simp only [held_same] | dsimp only
  try clear_value z1
  have h2 : Held s0 z2.2 := by repeat' first | (first | omega | ((simp +zetaDelta only [odKey, bankIdx, bankStatusSub, canIdx, dmaObj, instBase, launchIdx, coreIdx, dmaIdx, logBase, trigIdx] <;> (try split)) <;> omega)) | (with_reducible first | assumption | apply State.odOpsRun_held) | dsimp only
  try clear_value z2
  have h3 : Held s0 z3.2 := by repeat' first | (first | omega | ((simp +zetaDelta only [odKey, bankIdx, bankStatusSub, canIdx, dmaObj, instBase, launchIdx, coreIdx, dmaIdx, logBase, trigIdx] <;> (try split)) <;> omega)) | (with_reducible first | assumption | apply State.openBytes_held) | dsimp only
  try clear_value z3
  repeat' first | (first | omega | ((simp +zetaDelta only [odKey, bankIdx, bankStatusSub, canIdx, dmaObj, instBase, launchIdx, coreIdx, dmaIdx, logBase, trigIdx] <;> (try split)) <;> omega)) | (with_reducible first | assumption) | dsimp only
@[simp] theorem State.sessionTake_held {s0 : State} (s : State) (c path origin : Nat) (m : SMsg) (good : Bool) (hc : Held s0 s) :
    Held s0 (State.sessionTake s c path origin m good).2.2.2 := by
  unfold State.sessionTake
  repeat' first | (first | omega | ((simp +zetaDelta only [odKey, bankIdx, bankStatusSub, canIdx, dmaObj, instBase, launchIdx, coreIdx, dmaIdx, logBase, trigIdx] <;> (try split)) <;> omega)) | (with_reducible first | assumption | apply held_ite | apply State.sessionAccess_held | apply State.sessionClose_held | apply State.sessionOpen_held | apply State.sessionProve_held | apply State.sessionRefuse_held | apply held_ite2 | apply held_ite3 | apply held_ite4) | dsimp only
@[simp] theorem State.sessionReply_held {s0 : State} (s : State) (a status num counter : Nat) (d : List Byte) (hc : Held s0 s) :
    Held s0 (State.sessionReply s a status num counter d) := by
  unfold State.sessionReply
  repeat' first | (first | omega | ((simp +zetaDelta only [odKey, bankIdx, bankStatusSub, canIdx, dmaObj, instBase, launchIdx, coreIdx, dmaIdx, logBase, trigIdx] <;> (try split)) <;> omega)) | (with_reducible first | assumption | apply held_ite | apply State.doMapWrite_held) | dsimp only
@[simp] theorem State.sessionMessage_held {s0 : State} (s : State) (c op : Nat) (good : Bool) (hc : Held s0 s) :
    Held s0 (State.sessionMessage s c op good) := by
  unfold State.sessionMessage
  repeat' first | (first | omega | ((simp +zetaDelta only [odKey, bankIdx, bankStatusSub, canIdx, dmaObj, instBase, launchIdx, coreIdx, dmaIdx, logBase, trigIdx] <;> (try split)) <;> omega)) | (with_reducible first | assumption | apply held_ite | apply State.dbClear_held | apply State.dbRead_held | apply State.drop_held | apply State.sessionReply_held | apply State.sessionTake_held | apply held_ite2 | apply held_ite3 | apply held_ite4) | dsimp only
@[simp] theorem State.resetWrite_held {s0 : State} (s : State) (p : Path) (sub v : Nat) (hc : Held s0 s) :
    Held s0 (State.resetWrite s p sub v) := by
  unfold State.resetWrite
  repeat' first | (first | omega | ((simp +zetaDelta only [odKey, bankIdx, bankStatusSub, canIdx, dmaObj, instBase, launchIdx, coreIdx, dmaIdx, logBase, trigIdx] <;> (try split)) <;> omega)) | (with_reducible first | assumption | apply State.blockResets_held | apply State.guard_held) | intro _ | dsimp only
theorem State.service_held {s0 : State} (s : State) (typ : Nat) {t} (h : s.service typ = some t) (hc : Held s0 s) : Held s0 t.2 :=
  held_low (State.service_low s typ h (low_refl _)) hc
@[simp] theorem State.latAnswer_held {s0 : State} (s : State) (x : LatFrame) (payload : List Byte) (hc : Held s0 s) :
    Held s0 (State.latAnswer s x payload) := by
  unfold State.latAnswer
  extract_lets z0
  repeat' first | (first | omega | ((simp +zetaDelta only [odKey, bankIdx, bankStatusSub, canIdx, dmaObj, instBase, launchIdx, coreIdx, dmaIdx, logBase, trigIdx] <;> (try split)) <;> omega)) | (with_reducible first | assumption | apply State.latTo_held | apply State.setLat_held) | simp only [held_same] | intro _ | dsimp only
@[simp] theorem State.relayPost_held {s0 : State} (s : State) (p : Path) (c bits : Nat) (d : List Byte) (hc : Held s0 s) :
    Held s0 (State.relayPost s p c bits d) :=
  held_low (State.relayPost_low s p c bits d (low_refl _)) hc
@[simp] theorem State.apexInstall_held {s0 : State} (s : State) (a len : Nat) (hc : Held s0 s) :
    Held s0 (State.apexInstall s a len) :=
  held_low (State.apexInstall_low s a len (low_refl _)) hc
@[simp] theorem State.applyEntry_held {s0 : State} (s : State) (e : List Byte) (hc : Held s0 s) :
    Held s0 (State.applyEntry s e) := by
  unfold State.applyEntry
  extract_lets z0 z1 z2 z3 z4 z5
  repeat' first | (first | omega | ((simp +zetaDelta only [odKey, bankIdx, bankStatusSub, canIdx, dmaObj, instBase, launchIdx, coreIdx, dmaIdx, logBase, trigIdx] <;> (try split)) <;> omega)) | (with_reducible first | assumption | apply held_ite | apply State.cnt_held | apply State.odSet_held) | dsimp only
@[simp] theorem State.applySet_held {s0 : State} (s : State) (d : List Byte) (hc : Held s0 s) :
    Held s0 (State.applySet s d) := by
  unfold State.applySet
  repeat' first | (first | omega | ((simp +zetaDelta only [odKey, bankIdx, bankStatusSub, canIdx, dmaObj, instBase, launchIdx, coreIdx, dmaIdx, logBase, trigIdx] <;> (try split)) <;> omega)) | (with_reducible first | assumption | (apply held_foldl; intro _ _ _) | apply State.applyEntry_held | apply State.drop_held) | intro _ | dsimp only
@[simp] theorem State.storeSet_held {s0 : State} (s : State) (d : List Byte) (hc : Held s0 s) :
    Held s0 (State.storeSet s d) := by
  unfold State.storeSet
  extract_lets z0
  have h0 : Held s0 z0 := by repeat' first | (first | omega | ((simp +zetaDelta only [odKey, bankIdx, bankStatusSub, canIdx, dmaObj, instBase, launchIdx, coreIdx, dmaIdx, logBase, trigIdx] <;> (try split)) <;> omega)) | (with_reducible first | assumption | apply State.drop_held | apply State.setLat_held | apply State.wr_held) | simp only [held_same] | intro _ | dsimp only
  try clear_value z0
  repeat' first | (first | omega | ((simp +zetaDelta only [odKey, bankIdx, bankStatusSub, canIdx, dmaObj, instBase, launchIdx, coreIdx, dmaIdx, logBase, trigIdx] <;> (try split)) <;> omega)) | (with_reducible first | assumption | apply State.paramOp_held) | dsimp only
@[simp] theorem State.setRecord_held {s0 : State} (s : State) (d : List Byte) (applied refused : Nat) (hc : Held s0 s) :
    Held s0 (State.setRecord s d applied refused) :=
  held_low (State.setRecord_low s d applied refused (low_refl _)) hc
@[simp] theorem State.publish_held {s0 : State} (s : State) (hc : Held s0 s) :
    Held s0 (State.publish s) := by
  unfold State.publish
  extract_lets z0 z1
  repeat' first | (first | omega | ((simp +zetaDelta only [odKey, bankIdx, bankStatusSub, canIdx, dmaObj, instBase, launchIdx, coreIdx, dmaIdx, logBase, trigIdx] <;> (try split)) <;> omega)) | (with_reducible first | assumption | apply held_ite | (apply held_foldl; intro _ _ _) | apply State.applySet_held | apply State.distribute_held | apply State.drop_held | apply State.fetchBytes_held | apply State.latEvent_held | apply State.latRefresh_held | apply State.memWrite_held | apply State.setRecord_held | apply State.storeSet_held | apply State.wr_held | apply held_ite2 | apply held_ite3 | apply held_ite4) | intro _ | dsimp only
@[simp] theorem State.fetchFailed_held {s0 : State} (s : State) (hc : Held s0 s) :
    Held s0 (State.fetchFailed s) :=
  held_low (State.fetchFailed_low s (low_refl _)) hc
@[simp] theorem State.proveAsk_held {s0 : State} (s : State) (f : LatFetch) (num counter : Nat) (hc : Held s0 s) :
    Held s0 (State.proveAsk s f num counter) := by
  unfold State.proveAsk
  extract_lets z0
  have h0 : Held s0 z0.2 := by repeat' first | (first | omega | ((simp +zetaDelta only [odKey, bankIdx, bankStatusSub, canIdx, dmaObj, instBase, launchIdx, coreIdx, dmaIdx, logBase, trigIdx] <;> (try split)) <;> omega)) | (with_reducible first | assumption | apply State.freeBytes_held) | dsimp only
  try clear_value z0
  repeat' first | (first | omega | ((simp +zetaDelta only [odKey, bankIdx, bankStatusSub, canIdx, dmaObj, instBase, launchIdx, coreIdx, dmaIdx, logBase, trigIdx] <;> (try split)) <;> omega)) | (with_reducible first | assumption | apply State.latAsk_held | apply State.setLat_held) | simp only [held_same] | intro _ | dsimp only
@[simp] theorem State.fetchAnswer_held {s0 : State} (s : State) (x : LatFrame) (f : LatFetch) (hc : Held s0 s) :
    Held s0 (State.fetchAnswer s x f) := by
  unfold State.fetchAnswer
  repeat' first | (first | omega | ((simp +zetaDelta only [odKey, bankIdx, bankStatusSub, canIdx, dmaObj, instBase, launchIdx, coreIdx, dmaIdx, logBase, trigIdx] <;> (try split)) <;> omega)) | (with_reducible first | assumption | apply held_ite | apply State.askBlock_held | apply State.fetchFailed_held | apply State.proveAsk_held | apply State.setLat_held) | simp only [held_same] | intro _ | dsimp only
@[simp] theorem State.leaveQuarantine_held {s0 : State} (s : State) (gen : Nat) (hc : Held s0 s) :
    Held s0 (State.leaveQuarantine s gen) := by
  unfold State.leaveQuarantine
  repeat' first | (first | omega | ((simp +zetaDelta only [odKey, bankIdx, bankStatusSub, canIdx, dmaObj, instBase, launchIdx, coreIdx, dmaIdx, logBase, trigIdx] <;> (try split)) <;> omega)) | (with_reducible first | assumption | apply held_ite | apply State.enter_held | apply State.latEnter_held | apply State.latEvent_held | apply State.record_held | apply State.unhold_held | apply State.wr_held) | dsimp only
@[simp] theorem State.fetchDone_held {s0 : State} (s : State) (f : LatFetch) (hc : Held s0 s) :
    Held s0 (State.fetchDone s f) := by
  unfold State.fetchDone
  repeat' first | (first | omega | ((simp +zetaDelta only [odKey, bankIdx, bankStatusSub, canIdx, dmaObj, instBase, launchIdx, coreIdx, dmaIdx, logBase, trigIdx] <;> (try split)) <;> omega)) | (with_reducible first | assumption | apply held_ite | apply State.applySet_held | apply State.confirmConfig_held | apply State.fetchFailed_held | apply State.latEvent_held | apply State.latRefresh_held | apply State.leaveQuarantine_held | apply State.setLat_held | apply State.setRecord_held | apply State.storeSet_held | apply held_ite2 | apply held_ite3 | apply held_ite4) | simp only [held_same] | intro _ | dsimp only
@[simp] theorem State.wakeFrame_held {s0 : State} (s : State) (p : Nat) (d : List Byte) (hc : Held s0 s) :
    Held s0 (State.wakeFrame s p d) :=
  held_low (State.wakeFrame_low s p d (low_refl _)) hc
@[simp] theorem State.showPaused_held {s0 : State} (s : State) (p : Nat) (hc : Held s0 s) :
    Held s0 (State.showPaused s p) :=
  held_low (State.showPaused_low s p (low_refl _)) hc
@[simp] theorem State.applyPause_held {s0 : State} (s : State) (p : Nat) (hc : Held s0 s) :
    Held s0 (State.applyPause s p) :=
  held_low (State.applyPause_low s p (low_refl _)) hc
@[simp] theorem State.macControl_held {s0 : State} (s : State) (p : Nat) (d : List Byte) (hc : Held s0 s) :
    Held s0 (State.macControl s p d) :=
  held_low (State.macControl_low s p d (low_refl _)) hc
@[simp] theorem State.rxToSwitch_held {s0 : State} (s : State) (p : Nat) (d : List Byte) (r : RxResult) (hc : Held s0 s) :
    Held s0 (State.rxToSwitch s p d r) :=
  held_low (State.rxToSwitch_low s p d r (low_refl _)) hc
@[simp] theorem State.receive_held {s0 : State} (s : State) (p : Nat) (d : List Byte) (er : Option Nat) (frags : Nat) (hc : Held s0 s) :
    Held s0 (State.receive s p d er frags) :=
  held_low (State.receive_low s p d er frags (low_refl _)) hc
@[simp] theorem State.netGet_held {s0 : State} (s : State) (n i j : Nat) (hc : Held s0 s) :
    Held s0 (State.netGet s n i j).2 := by
  unfold State.netGet
  extract_lets z0
  repeat' first | (first | omega | ((simp +zetaDelta only [odKey, bankIdx, bankStatusSub, canIdx, dmaObj, instBase, launchIdx, coreIdx, dmaIdx, logBase, trigIdx] <;> (try split)) <;> omega)) | (with_reducible first | assumption | apply held_ite | apply State.instRead_held | apply State.odGet_held | apply State.violate_held | apply held_ite2 | apply held_ite3 | apply held_ite4) | simp only [held_same] | dsimp only | split
@[simp] theorem State.netSet_held {s0 : State} (s : State) (n i j v : Nat) (hc : Held s0 s) :
    Held s0 (State.netSet s n i j v) := by
  unfold State.netSet
  extract_lets z0
  repeat' first | (first | omega | ((simp +zetaDelta only [odKey, bankIdx, bankStatusSub, canIdx, dmaObj, instBase, launchIdx, coreIdx, dmaIdx, logBase, trigIdx] <;> (try split)) <;> omega)) | (with_reducible first | assumption | apply held_ite | apply State.instWrite_held | apply State.odSet_held | apply State.violate_held) | simp only [held_same] | dsimp only | split
@[simp] theorem State.netValue_held {s0 : State} (s : State) (n i j : Nat) (v : Option Nat) (hc : Held s0 s) :
    Held s0 (State.netValue s n i j v) := by
  unfold State.netValue
  repeat' first | (first | omega | ((simp +zetaDelta only [odKey, bankIdx, bankStatusSub, canIdx, dmaObj, instBase, launchIdx, coreIdx, dmaIdx, logBase, trigIdx] <;> (try split)) <;> omega)) | (with_reducible first | assumption | apply State.emit_held | apply State.netGet_held | apply State.netSet_held) | simp only [held_same] | dsimp only | split
@[simp] theorem State.setNetSel_held {s0 : State} (s : State) (n conn v : Nat) (hc : Held s0 s) :
    Held s0 (State.setNetSel s n conn v) :=
  held_low (State.setNetSel_low s n conn v (low_refl _)) hc
@[simp] theorem State.modbusRead_held {s0 : State} (s : State) (n conn : Nat) (hc : Held s0 s) :
    Held s0 (State.modbusRead s n conn) := by
  unfold State.modbusRead
  extract_lets z0 z1 z2 z3
  have h1 : Held s0 z1.2 := by repeat' first | (first | omega | ((simp +zetaDelta only [odKey, bankIdx, bankStatusSub, canIdx, dmaObj, instBase, launchIdx, coreIdx, dmaIdx, logBase, trigIdx] <;> (try split)) <;> omega)) | (with_reducible first | assumption | apply State.netGet_held) | dsimp only
  try clear_value z1
  repeat' first | (first | omega | ((simp +zetaDelta only [odKey, bankIdx, bankStatusSub, canIdx, dmaObj, instBase, launchIdx, coreIdx, dmaIdx, logBase, trigIdx] <;> (try split)) <;> omega)) | (with_reducible first | assumption | apply State.emit_held | apply State.netGet_held | apply State.setInst_held) | simp only [held_same] | intro _ | dsimp only
@[simp] theorem State.modbusCommit_held {s0 : State} (s : State) (n conn v : Nat) (hc : Held s0 s) :
    Held s0 (State.modbusCommit s n conn v) := by
  unfold State.modbusCommit
  extract_lets z0 z1 z2 z3
  repeat' first | (first | omega | ((simp +zetaDelta only [odKey, bankIdx, bankStatusSub, canIdx, dmaObj, instBase, launchIdx, coreIdx, dmaIdx, logBase, trigIdx] <;> (try split)) <;> omega)) | (with_reducible first | assumption | apply State.emit_held | apply State.netSet_held | apply State.setInst_held) | simp only [held_same] | intro _ | dsimp only
@[simp] theorem State.modbusReg_held {s0 : State} (s : State) (n conn k : Nat) (v : Option Nat) (hc : Held s0 s) :
    Held s0 (State.modbusReg s n conn k v) := by
  unfold State.modbusReg
  extract_lets z0
  repeat' first | (first | omega | ((simp +zetaDelta only [odKey, bankIdx, bankStatusSub, canIdx, dmaObj, instBase, launchIdx, coreIdx, dmaIdx, logBase, trigIdx] <;> (try split)) <;> omega)) | (with_reducible first | assumption | apply held_ite | apply State.emit_held | apply State.modbusCommit_held | apply State.modbusRead_held | apply State.setInst_held | apply State.setNetSel_held) | simp only [held_same] | intro _ | dsimp only | split
@[simp] theorem State.netAccess_held {s0 : State} (s : State) (n conn : Nat) (op : NetOp) (hc : Held s0 s) :
    Held s0 (State.netAccess s n conn op) := by
  unfold State.netAccess
  extract_lets z0
  repeat' first | (first | omega | ((simp +zetaDelta only [odKey, bankIdx, bankStatusSub, canIdx, dmaObj, instBase, launchIdx, coreIdx, dmaIdx, logBase, trigIdx] <;> (try split)) <;> omega)) | (with_reducible first | assumption | apply held_ite | apply State.emit_held | apply State.modbusReg_held | apply State.netValue_held | apply State.setInst_held | apply State.setNetSel_held | apply State.slotRead_held | apply State.slotWrite_held | apply held_ite2 | apply held_ite3 | apply held_ite4) | simp only [held_same] | dsimp only | split


end Sys2Proof.Machine
end

