-- ==== Sys2Proof/Laws/HeldExec.lean ====
section
/-! SUPPORT. Every command keeps the rule of HOLD_N (R73; Laws/Held.lean). -/

namespace Sys2Proof.Machine
set_option maxRecDepth 4000
set_option linter.all false

theorem execRxLaneFrame_held (e : Fin 32) (first : Option (Word × BitVec 2)) (nibs : List Nib) (last : Option (BitVec 3)) (s : State) {u : State} (h : execRxLaneFrame e first nibs last s = .next u) : Held s u := by
  unfold execRxLaneFrame at h
  simp only [Host.Outcome.next.injEq] at h
  have hc := held_refl s
  rw [← h]
  clear h
  repeat' first | (first | omega | ((simp +zetaDelta only [odKey, bankIdx, bankStatusSub, canIdx, dmaObj, instBase, launchIdx, coreIdx, dmaIdx, logBase, trigIdx] <;> (try split)) <;> omega)) | (with_reducible first | assumption | apply held_ite | apply State.guard_held | apply State.laneReceive_held) | intro _ | dsimp only
theorem execTxLaneUnderrun_held (e : Fin 32) (s : State) {u : State} (h : execTxLaneUnderrun e s = .next u) : Held s u := by
  unfold execTxLaneUnderrun at h
  simp only [Host.Outcome.next.injEq] at h
  have hc := held_refl s
  rw [← h]
  clear h
  repeat' first | (first | omega | ((simp +zetaDelta only [odKey, bankIdx, bankStatusSub, canIdx, dmaObj, instBase, launchIdx, coreIdx, dmaIdx, logBase, trigIdx] <;> (try split)) <;> omega)) | (with_reducible first | assumption | apply held_ite | apply State.guard_held | apply State.txUnderrun_held) | intro _ | dsimp only
theorem execLaneBindingApply_held (e : Fin 32) (tx : Bool) (s : State) {u : State} (h : execLaneBindingApply e tx s = .next u) : Held s u := by
  unfold execLaneBindingApply at h
  simp only [Host.Outcome.next.injEq] at h
  have hc := held_refl s
  rw [← h]
  clear h
  repeat' first | (first | omega | ((simp +zetaDelta only [odKey, bankIdx, bankStatusSub, canIdx, dmaObj, instBase, launchIdx, coreIdx, dmaIdx, logBase, trigIdx] <;> (try split)) <;> omega)) | (with_reducible first | assumption | apply held_ite | apply State.guard_held | apply State.setEngine_held) | simp only [held_same] | intro _ | dsimp only
theorem execBankPowerWrite_held (p : Path) (b : Fin 96) (v : Word) (s : State) {u : State} (h : execBankPowerWrite p b v s = .next u) : Held s u := by
  unfold execBankPowerWrite at h
  simp only [Host.Outcome.next.injEq] at h
  have hc := held_refl s
  rw [← h]
  clear h
  repeat' first | (first | omega | ((simp +zetaDelta only [odKey, bankIdx, bankStatusSub, canIdx, dmaObj, instBase, launchIdx, coreIdx, dmaIdx, logBase, trigIdx] <;> (try split)) <;> omega)) | (with_reducible first | assumption | apply State.doBankPower_held | apply State.guard_held) | intro _ | dsimp only
theorem execBankTransitionDone_held (b : Fin 96) (s : State) {u : State} (h : execBankTransitionDone b s = .next u) : Held s u := by
  unfold execBankTransitionDone at h
  simp only [Host.Outcome.next.injEq] at h
  have hc := held_refl s
  rw [← h]
  clear h
  repeat' first | (first | omega | ((simp +zetaDelta only [odKey, bankIdx, bankStatusSub, canIdx, dmaObj, instBase, launchIdx, coreIdx, dmaIdx, logBase, trigIdx] <;> (try split)) <;> omega)) | (with_reducible first | assumption | apply held_ite | apply State.bankStep_held | apply State.guard_held) | intro _ | dsimp only
theorem execScrubPassStart_held (s : State) {u : State} (h : execScrubPassStart s = .next u) : Held s u := by
  unfold execScrubPassStart at h
  simp only [Host.Outcome.next.injEq] at h
  have hc := held_refl s
  rw [← h]
  clear h
  repeat' first | (first | omega | ((simp +zetaDelta only [odKey, bankIdx, bankStatusSub, canIdx, dmaObj, instBase, launchIdx, coreIdx, dmaIdx, logBase, trigIdx] <;> (try split)) <;> omega)) | (with_reducible first | assumption | apply held_ite | (apply held_foldl; intro _ _ _) | apply State.correct_held | apply State.guard_held | apply State.meetDbe_held) | simp only [held_same] | intro _ | dsimp only
theorem execScrubPassDone_held (s : State) {u : State} (h : execScrubPassDone s = .next u) : Held s u := by
  unfold execScrubPassDone at h
  simp only [Host.Outcome.next.injEq] at h
  have hc := held_refl s
  rw [← h]
  clear h
  repeat' first | (first | omega | ((simp +zetaDelta only [odKey, bankIdx, bankStatusSub, canIdx, dmaObj, instBase, launchIdx, coreIdx, dmaIdx, logBase, trigIdx] <;> (try split)) <;> omega)) | (with_reducible first | assumption | apply held_ite | apply State.cnt_held | apply State.event_held | apply State.guard_held) | simp only [held_same] | intro _ | dsimp only
theorem execSwitchAdmission_held (p : Fin 12) (head : List Byte) (ago : Nat) (phase : Fin 8) (whole : Bool) (s : State) {u : State} (h : execSwitchAdmission p head ago phase whole s = .next u) : Held s u := by
  unfold execSwitchAdmission at h
  simp only [Host.Outcome.next.injEq] at h
  have hc := held_refl s
  rw [← h]
  clear h
  repeat' first | (first | omega | ((simp +zetaDelta only [odKey, bankIdx, bankStatusSub, canIdx, dmaObj, instBase, launchIdx, coreIdx, dmaIdx, logBase, trigIdx] <;> (try split)) <;> omega)) | (with_reducible first | assumption | apply State.admission_held | apply State.guard_held) | intro _ | dsimp only
theorem execLatticeFrameForward_held (p : Fin 12) (head : List Byte) (ago : Nat) (phase : Fin 8) (s : State) {u : State} (h : execLatticeFrameForward p head ago phase s = .next u) : Held s u := by
  unfold execLatticeFrameForward at h
  simp only [Host.Outcome.next.injEq] at h
  have hc := held_refl s
  rw [← h]
  clear h
  repeat' first | (first | omega | ((simp +zetaDelta only [odKey, bankIdx, bankStatusSub, canIdx, dmaObj, instBase, launchIdx, coreIdx, dmaIdx, logBase, trigIdx] <;> (try split)) <;> omega)) | (with_reducible first | assumption | apply held_ite | apply State.admission_held | apply State.guard_held) | intro _ | dsimp only
theorem execFrameStoreComplete_held (p : Fin 12) (s : State) {u : State} (h : execFrameStoreComplete p s = .next u) : Held s u := by
  unfold execFrameStoreComplete at h
  simp only [Host.Outcome.next.injEq] at h
  have hc := held_refl s
  rw [← h]
  clear h
  repeat' first | (first | omega | ((simp +zetaDelta only [odKey, bankIdx, bankStatusSub, canIdx, dmaObj, instBase, launchIdx, coreIdx, dmaIdx, logBase, trigIdx] <;> (try split)) <;> omega)) | (with_reducible first | assumption | apply State.guard_held | apply State.storeComplete_held) | intro _ | dsimp only
theorem execLinkUp_held (p : Fin 12) (told : Fin 8) (s : State) {u : State} (h : execLinkUp p told s = .next u) : Held s u := by
  unfold execLinkUp at h
  simp only [Host.Outcome.next.injEq] at h
  have hc := held_refl s
  rw [← h]
  clear h
  repeat' first | (first | omega | ((simp +zetaDelta only [odKey, bankIdx, bankStatusSub, canIdx, dmaObj, instBase, launchIdx, coreIdx, dmaIdx, logBase, trigIdx] <;> (try split)) <;> omega)) | (with_reducible first | assumption | apply State.guard_held | apply State.linkCome_held) | intro _ | dsimp only
theorem execLinkDown_held (p : Fin 12) (got : Option Nat) (s : State) {u : State} (h : execLinkDown p got s = .next u) : Held s u := by
  unfold execLinkDown at h
  simp only [Host.Outcome.next.injEq] at h
  have hc := held_refl s
  rw [← h]
  clear h
  repeat' first | (first | omega | ((simp +zetaDelta only [odKey, bankIdx, bankStatusSub, canIdx, dmaObj, instBase, launchIdx, coreIdx, dmaIdx, logBase, trigIdx] <;> (try split)) <;> omega)) | (with_reducible first | assumption | apply held_ite | apply State.cutRx_held | apply State.guard_held | apply State.linkDown_held | apply State.setPort_held) | simp only [held_same] | intro _ | dsimp only | split
theorem execPortLinkConfigChange_held (p : Fin 12) (s : State) {u : State} (h : execPortLinkConfigChange p s = .next u) : Held s u := by
  unfold execPortLinkConfigChange at h
  simp only [Host.Outcome.next.injEq] at h
  have hc := held_refl s
  rw [← h]
  clear h
  repeat' first | (first | omega | ((simp +zetaDelta only [odKey, bankIdx, bankStatusSub, canIdx, dmaObj, instBase, launchIdx, coreIdx, dmaIdx, logBase, trigIdx] <;> (try split)) <;> omega)) | (with_reducible first | assumption | apply held_ite | apply State.applyLinkCfg_held | apply State.guard_held | apply State.linkDown_held) | intro _ | dsimp only
theorem execPortFrameConfigApply_held (p : Fin 12) (tx : Bool) (s : State) {u : State} (h : execPortFrameConfigApply p tx s = .next u) : Held s u := by
  unfold execPortFrameConfigApply at h
  simp only [Host.Outcome.next.injEq] at h
  have hc := held_refl s
  rw [← h]
  clear h
  repeat' first | (first | omega | ((simp +zetaDelta only [odKey, bankIdx, bankStatusSub, canIdx, dmaObj, instBase, launchIdx, coreIdx, dmaIdx, logBase, trigIdx] <;> (try split)) <;> omega)) | (with_reducible first | assumption | apply held_ite | apply State.applyRxCfg_held | apply State.applyTxCfg_held | apply State.guard_held | apply State.touchCredit_held) | intro _ | dsimp only
theorem execSerdesLockAcquired_held (n : Fin 4) (s : State) {u : State} (h : execSerdesLockAcquired n s = .next u) : Held s u := by
  unfold execSerdesLockAcquired at h
  simp only [Host.Outcome.next.injEq] at h
  have hc := held_refl s
  rw [← h]
  clear h
  repeat' first | (first | omega | ((simp +zetaDelta only [odKey, bankIdx, bankStatusSub, canIdx, dmaObj, instBase, launchIdx, coreIdx, dmaIdx, logBase, trigIdx] <;> (try split)) <;> omega)) | (with_reducible first | assumption | apply held_ite | apply State.guard_held | apply State.setBits_held) | intro _ | dsimp only
theorem execSerdesLockLost_held (n : Fin 4) (got : Option Nat) (s : State) {u : State} (h : execSerdesLockLost n got s = .next u) : Held s u := by
  unfold execSerdesLockLost at h
  simp only [Host.Outcome.next.injEq] at h
  have hc := held_refl s
  rw [← h]
  clear h
  repeat' first | (first | omega | ((simp +zetaDelta only [odKey, bankIdx, bankStatusSub, canIdx, dmaObj, instBase, launchIdx, coreIdx, dmaIdx, logBase, trigIdx] <;> (try split)) <;> omega)) | (with_reducible first | assumption | apply held_ite | apply State.clrBits_held | apply State.cutRx_held | apply State.guard_held | apply State.linkDown_held | apply State.portEvent_held) | simp only [held_same] | intro _ | dsimp only | split
theorem execMdioC22Write_held (q : Path) (m : Fin 2) (phy reg : BitVec 5) (data : Half) (s : State) {u : State} (h : execMdioC22Write q m phy reg data s = .next u) : Held s u := by
  unfold execMdioC22Write at h
  simp only [Host.Outcome.next.injEq] at h
  have hc := held_refl s
  rw [← h]
  clear h
  repeat' first | (first | omega | ((simp +zetaDelta only [odKey, bankIdx, bankStatusSub, canIdx, dmaObj, instBase, launchIdx, coreIdx, dmaIdx, logBase, trigIdx] <;> (try split)) <;> omega)) | (with_reducible first | assumption | apply State.guard_held | apply State.mdioFrame_held) | intro _ | dsimp only
theorem execMdioC22Read_held (q : Path) (m : Fin 2) (phy reg : BitVec 5) (data : Half) (s : State) {u : State} (h : execMdioC22Read q m phy reg data s = .next u) : Held s u := by
  unfold execMdioC22Read at h
  simp only [Host.Outcome.next.injEq] at h
  have hc := held_refl s
  rw [← h]
  clear h
  repeat' first | (first | omega | ((simp +zetaDelta only [odKey, bankIdx, bankStatusSub, canIdx, dmaObj, instBase, launchIdx, coreIdx, dmaIdx, logBase, trigIdx] <;> (try split)) <;> omega)) | (with_reducible first | assumption | apply State.guard_held | apply State.mdioFrame_held) | intro _ | dsimp only
theorem execMdioC45Address_held (q : Path) (m : Fin 2) (phy reg : BitVec 5) (data : Half) (s : State) {u : State} (h : execMdioC45Address q m phy reg data s = .next u) : Held s u := by
  unfold execMdioC45Address at h
  simp only [Host.Outcome.next.injEq] at h
  have hc := held_refl s
  rw [← h]
  clear h
  repeat' first | (first | omega | ((simp +zetaDelta only [odKey, bankIdx, bankStatusSub, canIdx, dmaObj, instBase, launchIdx, coreIdx, dmaIdx, logBase, trigIdx] <;> (try split)) <;> omega)) | (with_reducible first | assumption | apply State.guard_held | apply State.mdioFrame_held) | intro _ | dsimp only
theorem execMdioC45Write_held (q : Path) (m : Fin 2) (phy reg : BitVec 5) (data : Half) (s : State) {u : State} (h : execMdioC45Write q m phy reg data s = .next u) : Held s u := by
  unfold execMdioC45Write at h
  simp only [Host.Outcome.next.injEq] at h
  have hc := held_refl s
  rw [← h]
  clear h
  repeat' first | (first | omega | ((simp +zetaDelta only [odKey, bankIdx, bankStatusSub, canIdx, dmaObj, instBase, launchIdx, coreIdx, dmaIdx, logBase, trigIdx] <;> (try split)) <;> omega)) | (with_reducible first | assumption | apply State.guard_held | apply State.mdioFrame_held) | intro _ | dsimp only
theorem execMdioC45Read_held (q : Path) (m : Fin 2) (phy reg : BitVec 5) (data : Half) (s : State) {u : State} (h : execMdioC45Read q m phy reg data s = .next u) : Held s u := by
  unfold execMdioC45Read at h
  simp only [Host.Outcome.next.injEq] at h
  have hc := held_refl s
  rw [← h]
  clear h
  repeat' first | (first | omega | ((simp +zetaDelta only [odKey, bankIdx, bankStatusSub, canIdx, dmaObj, instBase, launchIdx, coreIdx, dmaIdx, logBase, trigIdx] <;> (try split)) <;> omega)) | (with_reducible first | assumption | apply State.guard_held | apply State.mdioFrame_held) | intro _ | dsimp only
theorem execMdioC45ReadIncrement_held (q : Path) (m : Fin 2) (phy reg : BitVec 5) (data : Half) (s : State) {u : State} (h : execMdioC45ReadIncrement q m phy reg data s = .next u) : Held s u := by
  unfold execMdioC45ReadIncrement at h
  simp only [Host.Outcome.next.injEq] at h
  have hc := held_refl s
  rw [← h]
  clear h
  repeat' first | (first | omega | ((simp +zetaDelta only [odKey, bankIdx, bankStatusSub, canIdx, dmaObj, instBase, launchIdx, coreIdx, dmaIdx, logBase, trigIdx] <;> (try split)) <;> omega)) | (with_reducible first | assumption | apply State.guard_held | apply State.mdioFrame_held) | intro _ | dsimp only
theorem execMdioFrameEnd_held (m : Fin 2) (data : Half) (s : State) {u : State} (h : execMdioFrameEnd m data s = .next u) : Held s u := by
  unfold execMdioFrameEnd at h
  simp only [Host.Outcome.next.injEq] at h
  have hc := held_refl s
  rw [← h]
  clear h
  repeat' first | (first | omega | ((simp +zetaDelta only [odKey, bankIdx, bankStatusSub, canIdx, dmaObj, instBase, launchIdx, coreIdx, dmaIdx, logBase, trigIdx] <;> (try split)) <;> omega)) | (with_reducible first | assumption | apply held_ite | apply State.guard_held | apply State.setMdio_held | apply State.wr_held) | intro _ | dsimp only
theorem execMdioPoll_held (p : Fin 8) (r1 r4 r5 r9 r10 : Half) (got : Option Nat) (s : State) {u : State} (h : execMdioPoll p r1 r4 r5 r9 r10 got s = .next u) : Held s u := by
  unfold execMdioPoll at h
  simp only [Host.Outcome.next.injEq] at h
  have hc := held_refl s
  rw [← h]
  clear h
  repeat' first | (first | omega | ((simp +zetaDelta only [odKey, bankIdx, bankStatusSub, canIdx, dmaObj, instBase, launchIdx, coreIdx, dmaIdx, logBase, trigIdx] <;> (try split)) <;> omega)) | (with_reducible first | assumption | apply held_ite | (apply held_foldl; intro _ _ _) | apply State.cutRx_held | apply State.emit_held | apply State.guard_held | apply State.linkDown_held | apply State.setPort_held) | simp only [held_same] | intro _ | dsimp only | split
theorem execTxSelection_held (p : Fin 12) (phase : Fin 8) (dt : Nat) (s : State) {u : State} (h : execTxSelection p phase dt s = .next u) : Held s u := by
  unfold execTxSelection at h
  simp only [Host.Outcome.next.injEq] at h
  have hc := held_refl s
  rw [← h]
  clear h
  repeat' first | (first | omega | ((simp +zetaDelta only [odKey, bankIdx, bankStatusSub, canIdx, dmaObj, instBase, launchIdx, coreIdx, dmaIdx, logBase, trigIdx] <;> (try split)) <;> omega)) | (with_reducible first | assumption | apply held_ite | apply State.advance_held | apply State.dropOversize_held | apply State.guard_held | apply State.startPause_held | apply State.startQueue_held | apply State.touchCredit_held) | simp only [held_same] | intro _ | dsimp only | split
theorem execTxLaneFrameStart_held (e : Fin 32) (phase : Fin 8) (dt : Nat) (s : State) {u : State} (h : execTxLaneFrameStart e phase dt s = .next u) : Held s u := by
  unfold execTxLaneFrameStart at h
  simp only [Host.Outcome.next.injEq] at h
  have hc := held_refl s
  rw [← h]
  clear h
  repeat' first | (first | omega | ((simp +zetaDelta only [odKey, bankIdx, bankStatusSub, canIdx, dmaObj, instBase, launchIdx, coreIdx, dmaIdx, logBase, trigIdx] <;> (try split)) <;> omega)) | (with_reducible first | assumption | apply held_ite | apply State.advance_held | apply State.beginTx_held | apply State.guard_held | apply State.setPort_held | apply State.startLane_held | apply State.touchCredit_held) | simp only [held_same] | intro _ | dsimp only | split
theorem execPortFrameTransmitted_held (p : Fin 12) (frags : Nat) (dt : Nat) (s : State) {u : State} (h : execPortFrameTransmitted p frags dt s = .next u) : Held s u := by
  unfold execPortFrameTransmitted at h
  simp only [Host.Outcome.next.injEq] at h
  have hc := held_refl s
  rw [← h]
  clear h
  repeat' first | (first | omega | ((simp +zetaDelta only [odKey, bankIdx, bankStatusSub, canIdx, dmaObj, instBase, launchIdx, coreIdx, dmaIdx, logBase, trigIdx] <;> (try split)) <;> omega)) | (with_reducible first | assumption | apply held_ite | apply State.advance_held | apply State.guard_held | apply State.statAdd_held | apply State.transmitted_held) | simp only [held_same] | intro _ | dsimp only | split
theorem execTsRecordWrite_held (p : Fin 12) (s : State) {u : State} (h : execTsRecordWrite p s = .next u) : Held s u := by
  unfold execTsRecordWrite at h
  simp only [Host.Outcome.next.injEq] at h
  have hc := held_refl s
  rw [← h]
  clear h
  repeat' first | (first | omega | ((simp +zetaDelta only [odKey, bankIdx, bankStatusSub, canIdx, dmaObj, instBase, launchIdx, coreIdx, dmaIdx, logBase, trigIdx] <;> (try split)) <;> omega)) | (with_reducible first | assumption | apply held_ite | apply State.guard_held | apply State.portEvent_held | apply State.setPort_held | apply State.unitWrite_held) | simp only [held_same] | intro _ | dsimp only | split
theorem execGateConfigChange_held (m : Path) (p : Fin 12) (v : Word) (s : State) {u : State} (h : execGateConfigChange m p v s = .next u) : Held s u := by
  unfold execGateConfigChange at h
  simp only [Host.Outcome.next.injEq] at h
  have hc := held_refl s
  rw [← h]
  clear h
  repeat' first | (first | omega | ((simp +zetaDelta only [odKey, bankIdx, bankStatusSub, canIdx, dmaObj, instBase, launchIdx, coreIdx, dmaIdx, logBase, trigIdx] <;> (try split)) <;> omega)) | (with_reducible first | assumption | apply State.gateChange_held | apply State.guard_held) | intro _ | dsimp only
theorem execGateConfigOperational_held (p : Fin 12) (dt : Nat) (s : State) {u : State} (h : execGateConfigOperational p dt s = .next u) : Held s u := by
  unfold execGateConfigOperational at h
  simp only [Host.Outcome.next.injEq] at h
  have hc := held_refl s
  rw [← h]
  clear h
  repeat' first | (first | omega | ((simp +zetaDelta only [odKey, bankIdx, bankStatusSub, canIdx, dmaObj, instBase, launchIdx, coreIdx, dmaIdx, logBase, trigIdx] <;> (try split)) <;> omega)) | (with_reducible first | assumption | apply held_ite | apply State.advance_held | apply State.guard_held | apply State.moveGate_held | apply State.swEvent_held | apply State.wr_held) | simp only [held_same] | intro _ | dsimp only | split
theorem execGateIntervalExpiry_held (p : Fin 12) (dt : Nat) (s : State) {u : State} (h : execGateIntervalExpiry p dt s = .next u) : Held s u := by
  unfold execGateIntervalExpiry at h
  simp only [Host.Outcome.next.injEq] at h
  have hc := held_refl s
  rw [← h]
  clear h
  repeat' first | (first | omega | ((simp +zetaDelta only [odKey, bankIdx, bankStatusSub, canIdx, dmaObj, instBase, launchIdx, coreIdx, dmaIdx, logBase, trigIdx] <;> (try split)) <;> omega)) | (with_reducible first | assumption | apply State.advance_held | apply State.guard_held | apply State.moveGate_held) | simp only [held_same] | intro _ | dsimp only | split
theorem execSpliceCommit_held (q : Path) (d : Fin 16) (v : Half) (s : State) {u : State} (h : execSpliceCommit q d v s = .next u) : Held s u := by
  unfold execSpliceCommit at h
  simp only [Host.Outcome.next.injEq] at h
  have hc := held_refl s
  rw [← h]
  clear h
  repeat' first | (first | omega | ((simp +zetaDelta only [odKey, bankIdx, bankStatusSub, canIdx, dmaObj, instBase, launchIdx, coreIdx, dmaIdx, logBase, trigIdx] <;> (try split)) <;> omega)) | (with_reducible first | assumption | apply State.guard_held | apply State.spliceCommit_held) | intro _ | dsimp only
theorem execSpliceLoadDone_held (d : Fin 16) (s : State) {u : State} (h : execSpliceLoadDone d s = .next u) : Held s u := by
  unfold execSpliceLoadDone at h
  simp only [Host.Outcome.next.injEq] at h
  have hc := held_refl s
  rw [← h]
  clear h
  repeat' first | (first | omega | ((simp +zetaDelta only [odKey, bankIdx, bankStatusSub, canIdx, dmaObj, instBase, launchIdx, coreIdx, dmaIdx, logBase, trigIdx] <;> (try split)) <;> omega)) | (with_reducible first | assumption | apply State.guard_held | apply State.spliceLoaded_held) | intro _ | dsimp only
theorem execSpliceTableActivate_held (d : Fin 16) (s : State) {u : State} (h : execSpliceTableActivate d s = .next u) : Held s u := by
  unfold execSpliceTableActivate at h
  simp only [Host.Outcome.next.injEq] at h
  have hc := held_refl s
  rw [← h]
  clear h
  repeat' first | (first | omega | ((simp +zetaDelta only [odKey, bankIdx, bankStatusSub, canIdx, dmaObj, instBase, launchIdx, coreIdx, dmaIdx, logBase, trigIdx] <;> (try split)) <;> omega)) | (with_reducible first | assumption | apply State.guard_held | apply State.spliceActivate_held) | intro _ | dsimp only
theorem execChordConfigApply_held (d : Fin 8) (s : State) {u : State} (h : execChordConfigApply d s = .next u) : Held s u := by
  unfold execChordConfigApply at h
  simp only [Host.Outcome.next.injEq] at h
  have hc := held_refl s
  rw [← h]
  clear h
  repeat' first | (first | omega | ((simp +zetaDelta only [odKey, bankIdx, bankStatusSub, canIdx, dmaObj, instBase, launchIdx, coreIdx, dmaIdx, logBase, trigIdx] <;> (try split)) <;> omega)) | (with_reducible first | assumption | apply held_ite | apply State.chordsFollow_held | apply State.guard_held | apply State.preemptStart_held | apply State.setChord_held) | simp only [held_same] | intro _ | dsimp only
theorem execChordFrame_held (d : Fin 8) (data : List Byte) (er : Option Nat) (express : Bool) (ago : Nat) (phase : Fin 8) (delay : Nat) (lost : Fin 3) (s : State) {u : State} (h : execChordFrame d data er express ago phase delay lost s = .next u) : Held s u := by
  unfold execChordFrame at h
  simp only [Host.Outcome.next.injEq] at h
  have hc := held_refl s
  rw [← h]
  clear h
  repeat' first | (first | omega | ((simp +zetaDelta only [odKey, bankIdx, bankStatusSub, canIdx, dmaObj, instBase, launchIdx, coreIdx, dmaIdx, logBase, trigIdx] <;> (try split)) <;> omega)) | (with_reducible first | assumption | apply State.chordFrame_held | apply State.guard_held) | intro _ | dsimp only
theorem execChordCaptureWrite_held (d : Fin 16) (s : State) {u : State} (h : execChordCaptureWrite d s = .next u) : Held s u := by
  unfold execChordCaptureWrite at h
  simp only [Host.Outcome.next.injEq] at h
  have hc := held_refl s
  rw [← h]
  clear h
  repeat' first | (first | omega | ((simp +zetaDelta only [odKey, bankIdx, bankStatusSub, canIdx, dmaObj, instBase, launchIdx, coreIdx, dmaIdx, logBase, trigIdx] <;> (try split)) <;> omega)) | (with_reducible first | assumption | apply State.captureWrite_held | apply State.guard_held) | intro _ | dsimp only
theorem execFdbReadEntry_held (q : Path) (s : State) {u : State} (h : execFdbReadEntry q s = .next u) : Held s u := by
  unfold execFdbReadEntry at h
  simp only [Host.Outcome.next.injEq] at h
  have hc := held_refl s
  rw [← h]
  clear h
  repeat' first | (first | omega | ((simp +zetaDelta only [odKey, bankIdx, bankStatusSub, canIdx, dmaObj, instBase, launchIdx, coreIdx, dmaIdx, logBase, trigIdx] <;> (try split)) <;> omega)) | (with_reducible first | assumption | apply State.fdbCommand_held | apply State.guard_held) | intro _ | dsimp only
theorem execFdbInsert_held (q : Path) (s : State) {u : State} (h : execFdbInsert q s = .next u) : Held s u := by
  unfold execFdbInsert at h
  simp only [Host.Outcome.next.injEq] at h
  have hc := held_refl s
  rw [← h]
  clear h
  repeat' first | (first | omega | ((simp +zetaDelta only [odKey, bankIdx, bankStatusSub, canIdx, dmaObj, instBase, launchIdx, coreIdx, dmaIdx, logBase, trigIdx] <;> (try split)) <;> omega)) | (with_reducible first | assumption | apply State.fdbCommand_held | apply State.guard_held) | intro _ | dsimp only
theorem execFdbDelete_held (q : Path) (s : State) {u : State} (h : execFdbDelete q s = .next u) : Held s u := by
  unfold execFdbDelete at h
  simp only [Host.Outcome.next.injEq] at h
  have hc := held_refl s
  rw [← h]
  clear h
  repeat' first | (first | omega | ((simp +zetaDelta only [odKey, bankIdx, bankStatusSub, canIdx, dmaObj, instBase, launchIdx, coreIdx, dmaIdx, logBase, trigIdx] <;> (try split)) <;> omega)) | (with_reducible first | assumption | apply State.fdbCommand_held | apply State.guard_held) | intro _ | dsimp only
theorem execFdbFlush_held (q : Path) (s : State) {u : State} (h : execFdbFlush q s = .next u) : Held s u := by
  unfold execFdbFlush at h
  simp only [Host.Outcome.next.injEq] at h
  have hc := held_refl s
  rw [← h]
  clear h
  repeat' first | (first | omega | ((simp +zetaDelta only [odKey, bankIdx, bankStatusSub, canIdx, dmaObj, instBase, launchIdx, coreIdx, dmaIdx, logBase, trigIdx] <;> (try split)) <;> omega)) | (with_reducible first | assumption | apply State.fdbCommand_held | apply State.guard_held) | intro _ | dsimp only
theorem execFdbCommandDone_held (s : State) {u : State} (h : execFdbCommandDone s = .next u) : Held s u := by
  unfold execFdbCommandDone at h
  simp only [Host.Outcome.next.injEq] at h
  have hc := held_refl s
  rw [← h]
  clear h
  repeat' first | (first | omega | ((simp +zetaDelta only [odKey, bankIdx, bankStatusSub, canIdx, dmaObj, instBase, launchIdx, coreIdx, dmaIdx, logBase, trigIdx] <;> (try split)) <;> omega)) | (with_reducible first | assumption | apply State.fdbDone_held | apply State.guard_held) | intro _ | dsimp only
theorem execFdbAgeExpiry_held (e : Fin 8192) (dt : Nat) (s : State) {u : State} (h : execFdbAgeExpiry e dt s = .next u) : Held s u := by
  unfold execFdbAgeExpiry at h
  simp only [Host.Outcome.next.injEq] at h
  have hc := held_refl s
  rw [← h]
  clear h
  repeat' first | (first | omega | ((simp +zetaDelta only [odKey, bankIdx, bankStatusSub, canIdx, dmaObj, instBase, launchIdx, coreIdx, dmaIdx, logBase, trigIdx] <;> (try split)) <;> omega)) | (with_reducible first | assumption | apply held_ite | apply State.advance_held | apply State.guard_held | apply State.setSw_held | apply State.showFdb_held) | simp only [held_same] | intro _ | dsimp only | split
theorem execStreamRead_held (q : Path) (s : State) {u : State} (h : execStreamRead q s = .next u) : Held s u := by
  unfold execStreamRead at h
  simp only [Host.Outcome.next.injEq] at h
  have hc := held_refl s
  rw [← h]
  clear h
  repeat' first | (first | omega | ((simp +zetaDelta only [odKey, bankIdx, bankStatusSub, canIdx, dmaObj, instBase, launchIdx, coreIdx, dmaIdx, logBase, trigIdx] <;> (try split)) <;> omega)) | (with_reducible first | assumption | apply State.guard_held | apply State.streamCommand_held) | intro _ | dsimp only
theorem execStreamWrite_held (q : Path) (s : State) {u : State} (h : execStreamWrite q s = .next u) : Held s u := by
  unfold execStreamWrite at h
  simp only [Host.Outcome.next.injEq] at h
  have hc := held_refl s
  rw [← h]
  clear h
  repeat' first | (first | omega | ((simp +zetaDelta only [odKey, bankIdx, bankStatusSub, canIdx, dmaObj, instBase, launchIdx, coreIdx, dmaIdx, logBase, trigIdx] <;> (try split)) <;> omega)) | (with_reducible first | assumption | apply State.guard_held | apply State.streamCommand_held) | intro _ | dsimp only
theorem execStreamClearBlocked_held (q : Path) (s : State) {u : State} (h : execStreamClearBlocked q s = .next u) : Held s u := by
  unfold execStreamClearBlocked at h
  simp only [Host.Outcome.next.injEq] at h
  have hc := held_refl s
  rw [← h]
  clear h
  repeat' first | (first | omega | ((simp +zetaDelta only [odKey, bankIdx, bankStatusSub, canIdx, dmaObj, instBase, launchIdx, coreIdx, dmaIdx, logBase, trigIdx] <;> (try split)) <;> omega)) | (with_reducible first | assumption | apply State.guard_held | apply State.streamCommand_held) | intro _ | dsimp only
theorem execStreamGateRead_held (q : Path) (s : State) {u : State} (h : execStreamGateRead q s = .next u) : Held s u := by
  unfold execStreamGateRead at h
  simp only [Host.Outcome.next.injEq] at h
  have hc := held_refl s
  rw [← h]
  clear h
  repeat' first | (first | omega | ((simp +zetaDelta only [odKey, bankIdx, bankStatusSub, canIdx, dmaObj, instBase, launchIdx, coreIdx, dmaIdx, logBase, trigIdx] <;> (try split)) <;> omega)) | (with_reducible first | assumption | apply State.guard_held | apply State.sgateCommand_held) | intro _ | dsimp only
theorem execStreamGateWrite_held (q : Path) (s : State) {u : State} (h : execStreamGateWrite q s = .next u) : Held s u := by
  unfold execStreamGateWrite at h
  simp only [Host.Outcome.next.injEq] at h
  have hc := held_refl s
  rw [← h]
  clear h
  repeat' first | (first | omega | ((simp +zetaDelta only [odKey, bankIdx, bankStatusSub, canIdx, dmaObj, instBase, launchIdx, coreIdx, dmaIdx, logBase, trigIdx] <;> (try split)) <;> omega)) | (with_reducible first | assumption | apply State.guard_held | apply State.sgateCommand_held) | intro _ | dsimp only
theorem execStreamGateChangeList_held (q : Path) (s : State) {u : State} (h : execStreamGateChangeList q s = .next u) : Held s u := by
  unfold execStreamGateChangeList at h
  simp only [Host.Outcome.next.injEq] at h
  have hc := held_refl s
  rw [← h]
  clear h
  repeat' first | (first | omega | ((simp +zetaDelta only [odKey, bankIdx, bankStatusSub, canIdx, dmaObj, instBase, launchIdx, coreIdx, dmaIdx, logBase, trigIdx] <;> (try split)) <;> omega)) | (with_reducible first | assumption | apply State.guard_held | apply State.sgateCommand_held) | intro _ | dsimp only
theorem execStreamGateListOperational_held (g : Fin 64) (dt : Nat) (s : State) {u : State} (h : execStreamGateListOperational g dt s = .next u) : Held s u := by
  unfold execStreamGateListOperational at h
  simp only [Host.Outcome.next.injEq] at h
  have hc := held_refl s
  rw [← h]
  clear h
  repeat' first | (first | omega | ((simp +zetaDelta only [odKey, bankIdx, bankStatusSub, canIdx, dmaObj, instBase, launchIdx, coreIdx, dmaIdx, logBase, trigIdx] <;> (try split)) <;> omega)) | (with_reducible first | assumption | apply held_ite | apply State.advance_held | apply State.guard_held | apply State.setSgate_held | apply State.sgateStatus_held | apply State.swEvent_held) | simp only [held_same] | intro _ | dsimp only | split
theorem execStreamGateIntervalExpiry_held (g : Fin 64) (dt : Nat) (s : State) {u : State} (h : execStreamGateIntervalExpiry g dt s = .next u) : Held s u := by
  unfold execStreamGateIntervalExpiry at h
  simp only [Host.Outcome.next.injEq] at h
  have hc := held_refl s
  rw [← h]
  clear h
  repeat' first | (first | omega | ((simp +zetaDelta only [odKey, bankIdx, bankStatusSub, canIdx, dmaObj, instBase, launchIdx, coreIdx, dmaIdx, logBase, trigIdx] <;> (try split)) <;> omega)) | (with_reducible first | assumption | apply State.advance_held | apply State.guard_held | apply State.setSgate_held) | simp only [held_same] | intro _ | dsimp only | split
theorem execMeterRead_held (q : Path) (s : State) {u : State} (h : execMeterRead q s = .next u) : Held s u := by
  unfold execMeterRead at h
  simp only [Host.Outcome.next.injEq] at h
  have hc := held_refl s
  rw [← h]
  clear h
  repeat' first | (first | omega | ((simp +zetaDelta only [odKey, bankIdx, bankStatusSub, canIdx, dmaObj, instBase, launchIdx, coreIdx, dmaIdx, logBase, trigIdx] <;> (try split)) <;> omega)) | (with_reducible first | assumption | apply State.guard_held | apply State.meterCommand_held) | intro _ | dsimp only
theorem execMeterWrite_held (q : Path) (s : State) {u : State} (h : execMeterWrite q s = .next u) : Held s u := by
  unfold execMeterWrite at h
  simp only [Host.Outcome.next.injEq] at h
  have hc := held_refl s
  rw [← h]
  clear h
  repeat' first | (first | omega | ((simp +zetaDelta only [odKey, bankIdx, bankStatusSub, canIdx, dmaObj, instBase, launchIdx, coreIdx, dmaIdx, logBase, trigIdx] <;> (try split)) <;> omega)) | (with_reducible first | assumption | apply State.guard_held | apply State.meterCommand_held) | intro _ | dsimp only
theorem execMeterClearMarkAllRed_held (q : Path) (s : State) {u : State} (h : execMeterClearMarkAllRed q s = .next u) : Held s u := by
  unfold execMeterClearMarkAllRed at h
  simp only [Host.Outcome.next.injEq] at h
  have hc := held_refl s
  rw [← h]
  clear h
  repeat' first | (first | omega | ((simp +zetaDelta only [odKey, bankIdx, bankStatusSub, canIdx, dmaObj, instBase, launchIdx, coreIdx, dmaIdx, logBase, trigIdx] <;> (try split)) <;> omega)) | (with_reducible first | assumption | apply State.guard_held | apply State.meterCommand_held) | intro _ | dsimp only
theorem execCbRead_held (q : Path) (s : State) {u : State} (h : execCbRead q s = .next u) : Held s u := by
  unfold execCbRead at h
  simp only [Host.Outcome.next.injEq] at h
  have hc := held_refl s
  rw [← h]
  clear h
  repeat' first | (first | omega | ((simp +zetaDelta only [odKey, bankIdx, bankStatusSub, canIdx, dmaObj, instBase, launchIdx, coreIdx, dmaIdx, logBase, trigIdx] <;> (try split)) <;> omega)) | (with_reducible first | assumption | apply State.cbCommand_held | apply State.guard_held) | intro _ | dsimp only
theorem execCbWrite_held (q : Path) (s : State) {u : State} (h : execCbWrite q s = .next u) : Held s u := by
  unfold execCbWrite at h
  simp only [Host.Outcome.next.injEq] at h
  have hc := held_refl s
  rw [← h]
  clear h
  repeat' first | (first | omega | ((simp +zetaDelta only [odKey, bankIdx, bankStatusSub, canIdx, dmaObj, instBase, launchIdx, coreIdx, dmaIdx, logBase, trigIdx] <;> (try split)) <;> omega)) | (with_reducible first | assumption | apply State.cbCommand_held | apply State.guard_held) | intro _ | dsimp only
theorem execCbResetRecovery_held (q : Path) (s : State) {u : State} (h : execCbResetRecovery q s = .next u) : Held s u := by
  unfold execCbResetRecovery at h
  simp only [Host.Outcome.next.injEq] at h
  have hc := held_refl s
  rw [← h]
  clear h
  repeat' first | (first | omega | ((simp +zetaDelta only [odKey, bankIdx, bankStatusSub, canIdx, dmaObj, instBase, launchIdx, coreIdx, dmaIdx, logBase, trigIdx] <;> (try split)) <;> omega)) | (with_reducible first | assumption | apply State.cbCommand_held | apply State.guard_held) | intro _ | dsimp only
theorem execCbResetTimeout_held (h : Fin 256) (s : State) {u : State} (h : execCbResetTimeout h s = .next u) : Held s u := by
  unfold execCbResetTimeout at h
  simp only [Host.Outcome.next.injEq] at h
  have hc := held_refl s
  rw [← h]
  clear h
  repeat' first | (first | omega | ((simp +zetaDelta only [odKey, bankIdx, bankStatusSub, canIdx, dmaObj, instBase, launchIdx, coreIdx, dmaIdx, logBase, trigIdx] <;> (try split)) <;> omega)) | (with_reducible first | assumption | apply held_ite | apply State.guard_held | apply State.setCb_held) | intro _ | dsimp only
theorem execRxRingDelivery_held (st : Fin 10) (c : Fin 8) (s : State) {u : State} (h : execRxRingDelivery st c s = .next u) : Held s u := by
  unfold execRxRingDelivery at h
  simp only [Host.Outcome.next.injEq] at h
  have hc := held_refl s
  rw [← h]
  clear h
  repeat' first | (first | omega | ((simp +zetaDelta only [odKey, bankIdx, bankStatusSub, canIdx, dmaObj, instBase, launchIdx, coreIdx, dmaIdx, logBase, trigIdx] <;> (try split)) <;> omega)) | (with_reducible first | assumption | apply State.deliver_held | apply State.guard_held) | intro _ | dsimp only
theorem execTxRingFrame_held (st : Fin 10) (s : State) {u : State} (h : execTxRingFrame st s = .next u) : Held s u := by
  unfold execTxRingFrame at h
  simp only [Host.Outcome.next.injEq] at h
  have hc := held_refl s
  rw [← h]
  clear h
  repeat' first | (first | omega | ((simp +zetaDelta only [odKey, bankIdx, bankStatusSub, canIdx, dmaObj, instBase, launchIdx, coreIdx, dmaIdx, logBase, trigIdx] <;> (try split)) <;> omega)) | (with_reducible first | assumption | apply held_ite | apply State.guard_held | apply State.txRing_held) | simp only [held_same] | intro _ | dsimp only | split
theorem execAuditPass_held (s : State) {u : State} (h : execAuditPass s = .next u) : Held s u := by
  unfold execAuditPass at h
  simp only [Host.Outcome.next.injEq] at h
  have hc := held_refl s
  rw [← h]
  clear h
  repeat' first | (first | omega | ((simp +zetaDelta only [odKey, bankIdx, bankStatusSub, canIdx, dmaObj, instBase, launchIdx, coreIdx, dmaIdx, logBase, trigIdx] <;> (try split)) <;> omega)) | (with_reducible first | assumption | apply held_ite | apply State.auditPass_held | apply State.guard_held) | intro _ | dsimp only
theorem execIncrementWrite_held (q : Path) (d : Fin 4) (v : DWord) (s : State) {u : State} (h : execIncrementWrite q d v s = .next u) : Held s u := by
  unfold execIncrementWrite at h
  simp only [Host.Outcome.next.injEq] at h
  have hc := held_refl s
  rw [← h]
  clear h
  repeat' first | (first | omega | ((simp +zetaDelta only [odKey, bankIdx, bankStatusSub, canIdx, dmaObj, instBase, launchIdx, coreIdx, dmaIdx, logBase, trigIdx] <;> (try split)) <;> omega)) | (with_reducible first | assumption | apply State.guard_held | apply State.wr_held) | intro _ | dsimp only
theorem execAdjustStart_held (q : Path) (d : Fin 4) (v : Word) (s : State) {u : State} (h : execAdjustStart q d v s = .next u) : Held s u := by
  unfold execAdjustStart at h
  simp only [Host.Outcome.next.injEq] at h
  have hc := held_refl s
  rw [← h]
  clear h
  repeat' first | (first | omega | ((simp +zetaDelta only [odKey, bankIdx, bankStatusSub, canIdx, dmaObj, instBase, launchIdx, coreIdx, dmaIdx, logBase, trigIdx] <;> (try split)) <;> omega)) | (with_reducible first | assumption | apply State.adjustStart_held | apply State.guard_held) | intro _ | dsimp only
theorem execAdjustEnd_held (d : Fin 4) (dt : Nat) (s : State) {u : State} (h : execAdjustEnd d dt s = .next u) : Held s u := by
  unfold execAdjustEnd at h
  simp only [Host.Outcome.next.injEq] at h
  have hc := held_refl s
  rw [← h]
  clear h
  repeat' first | (first | omega | ((simp +zetaDelta only [odKey, bankIdx, bankStatusSub, canIdx, dmaObj, instBase, launchIdx, coreIdx, dmaIdx, logBase, trigIdx] <;> (try split)) <;> omega)) | (with_reducible first | assumption | apply held_ite | apply State.advance_held | apply State.event_held | apply State.guard_held | apply State.setTdom_held) | simp only [held_same] | intro _ | dsimp only
theorem execStepDisarm_held (q : Path) (d : Fin 4) (s : State) {u : State} (h : execStepDisarm q d s = .next u) : Held s u := by
  unfold execStepDisarm at h
  simp only [Host.Outcome.next.injEq] at h
  have hc := held_refl s
  rw [← h]
  clear h
  repeat' first | (first | omega | ((simp +zetaDelta only [odKey, bankIdx, bankStatusSub, canIdx, dmaObj, instBase, launchIdx, coreIdx, dmaIdx, logBase, trigIdx] <;> (try split)) <;> omega)) | (with_reducible first | assumption | apply State.guard_held | apply State.stepCommand_held) | intro _ | dsimp only
theorem execStepNow_held (q : Path) (d : Fin 4) (s : State) {u : State} (h : execStepNow q d s = .next u) : Held s u := by
  unfold execStepNow at h
  simp only [Host.Outcome.next.injEq] at h
  have hc := held_refl s
  rw [← h]
  clear h
  repeat' first | (first | omega | ((simp +zetaDelta only [odKey, bankIdx, bankStatusSub, canIdx, dmaObj, instBase, launchIdx, coreIdx, dmaIdx, logBase, trigIdx] <;> (try split)) <;> omega)) | (with_reducible first | assumption | apply State.guard_held | apply State.stepCommand_held) | intro _ | dsimp only
theorem execStepArmAt_held (q : Path) (d : Fin 4) (s : State) {u : State} (h : execStepArmAt q d s = .next u) : Held s u := by
  unfold execStepArmAt at h
  simp only [Host.Outcome.next.injEq] at h
  have hc := held_refl s
  rw [← h]
  clear h
  repeat' first | (first | omega | ((simp +zetaDelta only [odKey, bankIdx, bankStatusSub, canIdx, dmaObj, instBase, launchIdx, coreIdx, dmaIdx, logBase, trigIdx] <;> (try split)) <;> omega)) | (with_reducible first | assumption | apply State.guard_held | apply State.stepCommand_held) | intro _ | dsimp only
theorem execStepApply_held (d : Fin 4) (dt : Nat) (s : State) {u : State} (h : execStepApply d dt s = .next u) : Held s u := by
  unfold execStepApply at h
  simp only [Host.Outcome.next.injEq] at h
  have hc := held_refl s
  rw [← h]
  clear h
  repeat' first | (first | omega | ((simp +zetaDelta only [odKey, bankIdx, bankStatusSub, canIdx, dmaObj, instBase, launchIdx, coreIdx, dmaIdx, logBase, trigIdx] <;> (try split)) <;> omega)) | (with_reducible first | assumption | apply held_ite | apply State.advance_held | apply State.guard_held | apply State.stepAdd_held) | intro _ | dsimp only
theorem execPpsEdge_held (i' : Fin 4) (dt : Nat) (s : State) {u : State} (h : execPpsEdge i' dt s = .next u) : Held s u := by
  unfold execPpsEdge at h
  simp only [Host.Outcome.next.injEq] at h
  have hc := held_refl s
  rw [← h]
  clear h
  repeat' first | (first | omega | ((simp +zetaDelta only [odKey, bankIdx, bankStatusSub, canIdx, dmaObj, instBase, launchIdx, coreIdx, dmaIdx, logBase, trigIdx] <;> (try split)) <;> omega)) | (with_reducible first | assumption | apply held_ite | apply State.addW_held | apply State.advance_held | apply State.cnt_held | apply State.emit_held | apply State.guard_held | apply State.setPps_held | apply held_ite2 | apply held_ite3 | apply held_ite4) | simp only [held_same] | intro _ | dsimp only
theorem execPpsPulseEnd_held (i' : Fin 4) (dt : Nat) (s : State) {u : State} (h : execPpsPulseEnd i' dt s = .next u) : Held s u := by
  unfold execPpsPulseEnd at h
  simp only [Host.Outcome.next.injEq] at h
  have hc := held_refl s
  rw [← h]
  clear h
  repeat' first | (first | omega | ((simp +zetaDelta only [odKey, bankIdx, bankStatusSub, canIdx, dmaObj, instBase, launchIdx, coreIdx, dmaIdx, logBase, trigIdx] <;> (try split)) <;> omega)) | (with_reducible first | assumption | apply held_ite | apply State.advance_held | apply State.guard_held | apply State.ppsRest_held) | intro _ | dsimp only
theorem execSyncWrite_held (q : Path) (d : Fin 4) (v : Word) (s : State) {u : State} (h : execSyncWrite q d v s = .next u) : Held s u := by
  unfold execSyncWrite at h
  simp only [Host.Outcome.next.injEq] at h
  have hc := held_refl s
  rw [← h]
  clear h
  repeat' first | (first | omega | ((simp +zetaDelta only [odKey, bankIdx, bankStatusSub, canIdx, dmaObj, instBase, launchIdx, coreIdx, dmaIdx, logBase, trigIdx] <;> (try split)) <;> omega)) | (with_reducible first | assumption | apply State.guard_held | apply State.syncWrite_held) | intro _ | dsimp only
theorem execCaptureEdge_held (i' : Fin 4) (falling : Bool) (ago : Nat) (phase : Fin 8) (s : State) {u : State} (h : execCaptureEdge i' falling ago phase s = .next u) : Held s u := by
  unfold execCaptureEdge at h
  simp only [Host.Outcome.next.injEq] at h
  have hc := held_refl s
  rw [← h]
  clear h
  repeat' first | (first | omega | ((simp +zetaDelta only [odKey, bankIdx, bankStatusSub, canIdx, dmaObj, instBase, launchIdx, coreIdx, dmaIdx, logBase, trigIdx] <;> (try split)) <;> omega)) | (with_reducible first | assumption | apply held_ite | apply State.capShow_held | apply State.cnt_held | apply State.event_held | apply State.guard_held | apply State.wr_held) | intro _ | dsimp only
theorem execCapturePop_held (q : Path) (i' : Fin 4) (v : Word) (s : State) {u : State} (h : execCapturePop q i' v s = .next u) : Held s u := by
  unfold execCapturePop at h
  simp only [Host.Outcome.next.injEq] at h
  have hc := held_refl s
  rw [← h]
  clear h
  repeat' first | (first | omega | ((simp +zetaDelta only [odKey, bankIdx, bankStatusSub, canIdx, dmaObj, instBase, launchIdx, coreIdx, dmaIdx, logBase, trigIdx] <;> (try split)) <;> omega)) | (with_reducible first | assumption | apply State.capPop_held | apply State.guard_held) | intro _ | dsimp only
theorem execLaunchEnable_held (q : Path) (k : Fin 64) (v : Half) (s : State) {u : State} (h : execLaunchEnable q k v s = .next u) : Held s u := by
  unfold execLaunchEnable at h
  simp only [Host.Outcome.next.injEq] at h
  have hc := held_refl s
  rw [← h]
  clear h
  repeat' first | (first | omega | ((simp +zetaDelta only [odKey, bankIdx, bankStatusSub, canIdx, dmaObj, instBase, launchIdx, coreIdx, dmaIdx, logBase, trigIdx] <;> (try split)) <;> omega)) | (with_reducible first | assumption | apply held_ite | apply State.guard_held | apply State.launchArm_held) | intro _ | dsimp only
theorem execLaunchDisable_held (q : Path) (k : Fin 64) (v : Half) (s : State) {u : State} (h : execLaunchDisable q k v s = .next u) : Held s u := by
  unfold execLaunchDisable at h
  simp only [Host.Outcome.next.injEq] at h
  have hc := held_refl s
  rw [← h]
  clear h
  repeat' first | (first | omega | ((simp +zetaDelta only [odKey, bankIdx, bankStatusSub, canIdx, dmaObj, instBase, launchIdx, coreIdx, dmaIdx, logBase, trigIdx] <;> (try split)) <;> omega)) | (with_reducible first | assumption | apply held_ite | apply State.guard_held | apply State.launchOff_held) | intro _ | dsimp only
theorem execLaunchAbort_held (q : Path) (k : Fin 64) (v : Byte) (s : State) {u : State} (h : execLaunchAbort q k v s = .next u) : Held s u := by
  unfold execLaunchAbort at h
  simp only [Host.Outcome.next.injEq] at h
  have hc := held_refl s
  rw [← h]
  clear h
  repeat' first | (first | omega | ((simp +zetaDelta only [odKey, bankIdx, bankStatusSub, canIdx, dmaObj, instBase, launchIdx, coreIdx, dmaIdx, logBase, trigIdx] <;> (try split)) <;> omega)) | (with_reducible first | assumption | apply State.guard_held | apply State.launchAbort_held) | intro _ | dsimp only
theorem execLaunchFetchStart_held (k : Fin 64) (dt : Nat) (s : State) {u : State} (h : execLaunchFetchStart k dt s = .next u) : Held s u := by
  unfold execLaunchFetchStart at h
  simp only [Host.Outcome.next.injEq] at h
  have hc := held_refl s
  rw [← h]
  clear h
  repeat' first | (first | omega | ((simp +zetaDelta only [odKey, bankIdx, bankStatusSub, canIdx, dmaObj, instBase, launchIdx, coreIdx, dmaIdx, logBase, trigIdx] <;> (try split)) <;> omega)) | (with_reducible first | assumption | apply held_ite | apply State.advance_held | apply State.guard_held | apply State.setLaunch_held) | simp only [held_same] | intro _ | dsimp only
theorem execLaunchFetchDone_held (k : Fin 64) (dt : Nat) (s : State) {u : State} (h : execLaunchFetchDone k dt s = .next u) : Held s u := by
  unfold execLaunchFetchDone at h
  simp only [Host.Outcome.next.injEq] at h
  have hc := held_refl s
  rw [← h]
  clear h
  repeat' first | (first | omega | ((simp +zetaDelta only [odKey, bankIdx, bankStatusSub, canIdx, dmaObj, instBase, launchIdx, coreIdx, dmaIdx, logBase, trigIdx] <;> (try split)) <;> omega)) | (with_reducible first | assumption | apply held_ite | apply State.advance_held | apply State.dmaRead_held | apply State.guard_held | apply State.launchCnt_held | apply State.launchEvent_held | apply State.launchResult_held | apply State.setLaunch_held | apply State.wr_held | apply held_ite2 | apply held_ite3 | apply held_ite4) | intro _ | dsimp only
theorem execLaunchBegin_held (k : Fin 64) (phase : Fin 8) (dt : Nat) (s : State) {u : State} (h : execLaunchBegin k phase dt s = .next u) : Held s u := by
  unfold execLaunchBegin at h
  simp only [Host.Outcome.next.injEq] at h
  have hc := held_refl s
  rw [← h]
  clear h
  repeat' first | (first | omega | ((simp +zetaDelta only [odKey, bankIdx, bankStatusSub, canIdx, dmaObj, instBase, launchIdx, coreIdx, dmaIdx, logBase, trigIdx] <;> (try split)) <;> omega)) | (with_reducible first | assumption | apply State.advance_held | apply State.guard_held | apply State.launchBegin_held) | intro _ | dsimp only
theorem execLaunchEnd_held (k : Fin 64) (dt : Nat) (s : State) {u : State} (h : execLaunchEnd k dt s = .next u) : Held s u := by
  unfold execLaunchEnd at h
  simp only [Host.Outcome.next.injEq] at h
  have hc := held_refl s
  rw [← h]
  clear h
  repeat' first | (first | omega | ((simp +zetaDelta only [odKey, bankIdx, bankStatusSub, canIdx, dmaObj, instBase, launchIdx, coreIdx, dmaIdx, logBase, trigIdx] <;> (try split)) <;> omega)) | (with_reducible first | assumption | apply held_ite | apply State.advance_held | apply State.guard_held | apply State.launchEnd_held) | simp only [held_same] | intro _ | dsimp only | split
theorem execRingEnable_held (q : Path) (n : Fin 4) (v : Word) (s : State) {u : State} (h : execRingEnable q n v s = .next u) : Held s u := by
  unfold execRingEnable at h
  simp only [Host.Outcome.next.injEq] at h
  have hc := held_refl s
  rw [← h]
  clear h
  repeat' first | (first | omega | ((simp +zetaDelta only [odKey, bankIdx, bankStatusSub, canIdx, dmaObj, instBase, launchIdx, coreIdx, dmaIdx, logBase, trigIdx] <;> (try split)) <;> omega)) | (with_reducible first | assumption | apply State.guard_held | apply State.perEnable_held) | intro _ | dsimp only
theorem execPerLockAcquired_held (n : Fin 4) (east : Bool) (s : State) {u : State} (h : execPerLockAcquired n east s = .next u) : Held s u := by
  unfold execPerLockAcquired at h
  simp only [Host.Outcome.next.injEq] at h
  have hc := held_refl s
  rw [← h]
  clear h
  repeat' first | (first | omega | ((simp +zetaDelta only [odKey, bankIdx, bankStatusSub, canIdx, dmaObj, instBase, launchIdx, coreIdx, dmaIdx, logBase, trigIdx] <;> (try split)) <;> omega)) | (with_reducible first | assumption | apply held_ite | apply State.guard_held | apply State.setBits_held | apply State.setRing_held) | simp only [held_same] | intro _ | dsimp only
theorem execPerLockLost_held (n : Fin 4) (east lostRx lostTx : Bool) (s : State) {u : State} (h : execPerLockLost n east lostRx lostTx s = .next u) : Held s u := by
  unfold execPerLockLost at h
  simp only [Host.Outcome.next.injEq] at h
  have hc := held_refl s
  rw [← h]
  clear h
  repeat' first | (first | omega | ((simp +zetaDelta only [odKey, bankIdx, bankStatusSub, canIdx, dmaObj, instBase, launchIdx, coreIdx, dmaIdx, logBase, trigIdx] <;> (try split)) <;> omega)) | (with_reducible first | assumption | apply held_ite | apply State.guard_held | apply State.perLockLost_held) | intro _ | dsimp only
theorem execHealingSilenceEnd_held (n : Fin 4) (s : State) {u : State} (h : execHealingSilenceEnd n s = .next u) : Held s u := by
  unfold execHealingSilenceEnd at h
  simp only [Host.Outcome.next.injEq] at h
  have hc := held_refl s
  rw [← h]
  clear h
  repeat' first | (first | omega | ((simp +zetaDelta only [odKey, bankIdx, bankStatusSub, canIdx, dmaObj, instBase, launchIdx, coreIdx, dmaIdx, logBase, trigIdx] <;> (try split)) <;> omega)) | (with_reducible first | assumption | apply held_ite | apply State.guard_held | apply State.setRing_held) | simp only [held_same] | intro _ | dsimp only
theorem execPerFrameReceived_held (n : Fin 4) (east : Bool) (f : List Nib) (fin : Fin 3) (ago : Nat) (phase : Fin 8) (displaced : Bool) (s : State) {u : State} (h : execPerFrameReceived n east f fin ago phase displaced s = .next u) : Held s u := by
  unfold execPerFrameReceived at h
  simp only [Host.Outcome.next.injEq] at h
  have hc := held_refl s
  rw [← h]
  clear h
  repeat' first | (first | omega | ((simp +zetaDelta only [odKey, bankIdx, bankStatusSub, canIdx, dmaObj, instBase, launchIdx, coreIdx, dmaIdx, logBase, trigIdx] <;> (try split)) <;> omega)) | (with_reducible first | assumption | apply held_ite | apply State.guard_held | apply State.perReceive_held) | intro _ | dsimp only
theorem execEchoRequestSend_held (n : Fin 4) (east : Bool) (s : State) {u : State} (h : execEchoRequestSend n east s = .next u) : Held s u := by
  unfold execEchoRequestSend at h
  simp only [Host.Outcome.next.injEq] at h
  have hc := held_refl s
  rw [← h]
  clear h
  repeat' first | (first | omega | ((simp +zetaDelta only [odKey, bankIdx, bankStatusSub, canIdx, dmaObj, instBase, launchIdx, coreIdx, dmaIdx, logBase, trigIdx] <;> (try split)) <;> omega)) | (with_reducible first | assumption | apply held_ite | apply State.emit_held | apply State.guard_held | apply State.setEcho_held) | simp only [held_same] | intro _ | dsimp only
theorem execEchoRequestReceived_held (n : Fin 4) (east sending : Bool) (s : State) {u : State} (h : execEchoRequestReceived n east sending s = .next u) : Held s u := by
  unfold execEchoRequestReceived at h
  simp only [Host.Outcome.next.injEq] at h
  have hc := held_refl s
  rw [← h]
  clear h
  repeat' first | (first | omega | ((simp +zetaDelta only [odKey, bankIdx, bankStatusSub, canIdx, dmaObj, instBase, launchIdx, coreIdx, dmaIdx, logBase, trigIdx] <;> (try split)) <;> omega)) | (with_reducible first | assumption | apply held_ite | apply State.emit_held | apply State.guard_held) | intro _ | dsimp only
theorem execEchoReplyReceived_held (n : Fin 4) (east : Bool) (t : Nat) (s : State) {u : State} (h : execEchoReplyReceived n east t s = .next u) : Held s u := by
  unfold execEchoReplyReceived at h
  simp only [Host.Outcome.next.injEq] at h
  have hc := held_refl s
  rw [← h]
  clear h
  repeat' first | (first | omega | ((simp +zetaDelta only [odKey, bankIdx, bankStatusSub, canIdx, dmaObj, instBase, launchIdx, coreIdx, dmaIdx, logBase, trigIdx] <;> (try split)) <;> omega)) | (with_reducible first | assumption | apply held_ite | apply State.guard_held | apply State.setEcho_held | apply State.setRing_held | apply State.wr_held) | simp only [held_same] | intro _ | dsimp only
theorem execEchoTimeout_held (n : Fin 4) (east : Bool) (s : State) {u : State} (h : execEchoTimeout n east s = .next u) : Held s u := by
  unfold execEchoTimeout at h
  simp only [Host.Outcome.next.injEq] at h
  have hc := held_refl s
  rw [← h]
  clear h
  repeat' first | (first | omega | ((simp +zetaDelta only [odKey, bankIdx, bankStatusSub, canIdx, dmaObj, instBase, launchIdx, coreIdx, dmaIdx, logBase, trigIdx] <;> (try split)) <;> omega)) | (with_reducible first | assumption | apply held_ite | apply State.guard_held | apply State.setEcho_held | apply State.wr_held) | simp only [held_same] | intro _ | dsimp only
theorem execReferenceSend_held (n : Fin 4) (phase : Fin 8) (dt : Nat) (s : State) {u : State} (h : execReferenceSend n phase dt s = .next u) : Held s u := by
  unfold execReferenceSend at h
  simp only [Host.Outcome.next.injEq] at h
  have hc := held_refl s
  rw [← h]
  clear h
  repeat' first | (first | omega | ((simp +zetaDelta only [odKey, bankIdx, bankStatusSub, canIdx, dmaObj, instBase, launchIdx, coreIdx, dmaIdx, logBase, trigIdx] <;> (try split)) <;> omega)) | (with_reducible first | assumption | apply held_ite | apply State.advance_held | apply State.changeStep_held | apply State.guard_held | apply State.perRestore_held | apply State.refLeaves_held | apply held_ite2 | apply held_ite3 | apply held_ite4) | simp only [held_same] | intro _ | dsimp only | split
theorem execReferenceAccept_held (n : Fin 4) (s : State) {u : State} (h : execReferenceAccept n s = .next u) : Held s u := by
  unfold execReferenceAccept at h
  simp only [Host.Outcome.next.injEq] at h
  have hc := held_refl s
  rw [← h]
  clear h
  repeat' first | (first | omega | ((simp +zetaDelta only [odKey, bankIdx, bankStatusSub, canIdx, dmaObj, instBase, launchIdx, coreIdx, dmaIdx, logBase, trigIdx] <;> (try split)) <;> omega)) | (with_reducible first | assumption | apply State.guard_held | apply State.refAccept_held) | intro _ | dsimp only
theorem execReferenceMissed_held (n : Fin 4) (dt : Nat) (s : State) {u : State} (h : execReferenceMissed n dt s = .next u) : Held s u := by
  unfold execReferenceMissed at h
  simp only [Host.Outcome.next.injEq] at h
  have hc := held_refl s
  rw [← h]
  clear h
  repeat' first | (first | omega | ((simp +zetaDelta only [odKey, bankIdx, bankStatusSub, canIdx, dmaObj, instBase, launchIdx, coreIdx, dmaIdx, logBase, trigIdx] <;> (try split)) <;> omega)) | (with_reducible first | assumption | apply held_ite | apply State.advance_held | apply State.guard_held | apply State.refMissed_held) | intro _ | dsimp only
theorem execBackupTakeover_held (n : Fin 4) (phase : Fin 8) (dt : Nat) (s : State) {u : State} (h : execBackupTakeover n phase dt s = .next u) : Held s u := by
  unfold execBackupTakeover at h
  simp only [Host.Outcome.next.injEq] at h
  have hc := held_refl s
  rw [← h]
  clear h
  repeat' first | (first | omega | ((simp +zetaDelta only [odKey, bankIdx, bankStatusSub, canIdx, dmaObj, instBase, launchIdx, coreIdx, dmaIdx, logBase, trigIdx] <;> (try split)) <;> omega)) | (with_reducible first | assumption | apply held_ite | apply State.advance_held | apply State.cnt_held | apply State.guard_held | apply State.record_held | apply State.refLeaves_held | apply State.setRing_held) | simp only [held_same] | intro _ | dsimp only
theorem execColdstartListenTimeout_held (n : Fin 4) (s : State) {u : State} (h : execColdstartListenTimeout n s = .next u) : Held s u := by
  unfold execColdstartListenTimeout at h
  simp only [Host.Outcome.next.injEq] at h
  have hc := held_refl s
  rw [← h]
  clear h
  repeat' first | (first | omega | ((simp +zetaDelta only [odKey, bankIdx, bankStatusSub, canIdx, dmaObj, instBase, launchIdx, coreIdx, dmaIdx, logBase, trigIdx] <;> (try split)) <;> omega)) | (with_reducible first | assumption | apply held_ite | apply State.guard_held | apply State.setRing_held) | simp only [held_same] | intro _ | dsimp only
theorem execColdstartSend_held (n : Fin 4) (s : State) {u : State} (h : execColdstartSend n s = .next u) : Held s u := by
  unfold execColdstartSend at h
  simp only [Host.Outcome.next.injEq] at h
  have hc := held_refl s
  rw [← h]
  clear h
  repeat' first | (first | omega | ((simp +zetaDelta only [odKey, bankIdx, bankStatusSub, canIdx, dmaObj, instBase, launchIdx, coreIdx, dmaIdx, logBase, trigIdx] <;> (try split)) <;> omega)) | (with_reducible first | assumption | apply State.cnt_held | apply State.guard_held | apply State.perSend_held | apply State.setRing_held) | simp only [held_same] | intro _ | dsimp only | split
theorem execColdstartReceived_held (n : Fin 4) (s : State) {u : State} (h : execColdstartReceived n s = .next u) : Held s u := by
  unfold execColdstartReceived at h
  simp only [Host.Outcome.next.injEq] at h
  have hc := held_refl s
  rw [← h]
  clear h
  repeat' first | (first | omega | ((simp +zetaDelta only [odKey, bankIdx, bankStatusSub, canIdx, dmaObj, instBase, launchIdx, coreIdx, dmaIdx, logBase, trigIdx] <;> (try split)) <;> omega)) | (with_reducible first | assumption | apply held_ite | apply State.cnt_held | apply State.coldWin_held | apply State.guard_held | apply State.setRing_held) | simp only [held_same] | intro _ | dsimp only | split
theorem execSlotTableLoad_held (q : Path) (n : Fin 4) (m : Fin 8) (v : Half) (s : State) {u : State} (h : execSlotTableLoad q n m v s = .next u) : Held s u := by
  unfold execSlotTableLoad at h
  simp only [Host.Outcome.next.injEq] at h
  have hc := held_refl s
  rw [← h]
  clear h
  repeat' first | (first | omega | ((simp +zetaDelta only [odKey, bankIdx, bankStatusSub, canIdx, dmaObj, instBase, launchIdx, coreIdx, dmaIdx, logBase, trigIdx] <;> (try split)) <;> omega)) | (with_reducible first | assumption | apply State.guard_held | apply State.slotLoad_held) | intro _ | dsimp only
theorem execSlotTableChecked_held (n : Fin 4) (m : Fin 8) (s : State) {u : State} (h : execSlotTableChecked n m s = .next u) : Held s u := by
  unfold execSlotTableChecked at h
  simp only [Host.Outcome.next.injEq] at h
  have hc := held_refl s
  rw [← h]
  clear h
  repeat' first | (first | omega | ((simp +zetaDelta only [odKey, bankIdx, bankStatusSub, canIdx, dmaObj, instBase, launchIdx, coreIdx, dmaIdx, logBase, trigIdx] <;> (try split)) <;> omega)) | (with_reducible first | assumption | apply held_ite | apply State.guard_held | apply State.slotInstall_held | apply held_ite2 | apply held_ite3 | apply held_ite4) | intro _ | dsimp only
theorem execSlotFetchStart_held (n : Fin 4) (k : Fin 1024) (s : State) {u : State} (h : execSlotFetchStart n k s = .next u) : Held s u := by
  unfold execSlotFetchStart at h
  simp only [Host.Outcome.next.injEq] at h
  have hc := held_refl s
  rw [← h]
  clear h
  repeat' first | (first | omega | ((simp +zetaDelta only [odKey, bankIdx, bankStatusSub, canIdx, dmaObj, instBase, launchIdx, coreIdx, dmaIdx, logBase, trigIdx] <;> (try split)) <;> omega)) | (with_reducible first | assumption | apply held_ite | apply State.guard_held | apply State.setSlotFetch_held) | simp only [held_same] | intro _ | dsimp only | split
theorem execSlotFetchDone_held (n : Fin 4) (k : Fin 1024) (s : State) {u : State} (h : execSlotFetchDone n k s = .next u) : Held s u := by
  unfold execSlotFetchDone at h
  simp only [Host.Outcome.next.injEq] at h
  have hc := held_refl s
  rw [← h]
  clear h
  repeat' first | (first | omega | ((simp +zetaDelta only [odKey, bankIdx, bankStatusSub, canIdx, dmaObj, instBase, launchIdx, coreIdx, dmaIdx, logBase, trigIdx] <;> (try split)) <;> omega)) | (with_reducible first | assumption | apply held_ite | apply State.dmaRead_held | apply State.guard_held | apply State.setSlotFetch_held | apply held_ite2 | apply held_ite3 | apply held_ite4) | simp only [held_same] | intro _ | dsimp only | split
theorem execGuardianCut_held (n : Fin 4) (s : State) {u : State} (h : execGuardianCut n s = .next u) : Held s u := by
  unfold execGuardianCut at h
  simp only [Host.Outcome.next.injEq] at h
  have hc := held_refl s
  rw [← h]
  clear h
  repeat' first | (first | omega | ((simp +zetaDelta only [odKey, bankIdx, bankStatusSub, canIdx, dmaObj, instBase, launchIdx, coreIdx, dmaIdx, logBase, trigIdx] <;> (try split)) <;> omega)) | (with_reducible first | assumption | apply State.guard_held | apply State.perBlocked_held | apply State.perOpCnt_held | apply State.perSend_held | apply State.setRing_held) | simp only [held_same] | intro _ | dsimp only | split
theorem execSlotInsert_held (n : Fin 4) (k : Fin 1024) (busy : Bool) (phase : Fin 8) (dt : Nat) (s : State) {u : State} (h : execSlotInsert n k busy phase dt s = .next u) : Held s u := by
  unfold execSlotInsert at h
  simp only [Host.Outcome.next.injEq] at h
  have hc := held_refl s
  rw [← h]
  clear h
  repeat' first | (first | omega | ((simp +zetaDelta only [odKey, bankIdx, bankStatusSub, canIdx, dmaObj, instBase, launchIdx, coreIdx, dmaIdx, logBase, trigIdx] <;> (try split)) <;> omega)) | (with_reducible first | assumption | apply State.advance_held | apply State.guard_held | apply State.slotInsert_held) | intro _ | dsimp only
theorem execGuardTableCommit_held (q : Path) (n : Fin 4) (v : Byte) (s : State) {u : State} (h : execGuardTableCommit q n v s = .next u) : Held s u := by
  unfold execGuardTableCommit at h
  simp only [Host.Outcome.next.injEq] at h
  have hc := held_refl s
  rw [← h]
  clear h
  repeat' first | (first | omega | ((simp +zetaDelta only [odKey, bankIdx, bankStatusSub, canIdx, dmaObj, instBase, launchIdx, coreIdx, dmaIdx, logBase, trigIdx] <;> (try split)) <;> omega)) | (with_reducible first | assumption | apply State.guard_held | apply State.guardCommit_held) | intro _ | dsimp only
theorem execGuardTableChecked_held (n : Fin 4) (s : State) {u : State} (h : execGuardTableChecked n s = .next u) : Held s u := by
  unfold execGuardTableChecked at h
  simp only [Host.Outcome.next.injEq] at h
  have hc := held_refl s
  rw [← h]
  clear h
  repeat' first | (first | omega | ((simp +zetaDelta only [odKey, bankIdx, bankStatusSub, canIdx, dmaObj, instBase, launchIdx, coreIdx, dmaIdx, logBase, trigIdx] <;> (try split)) <;> omega)) | (with_reducible first | assumption | apply held_ite | apply State.guard_held | apply State.guardInstall_held | apply held_ite2 | apply held_ite3 | apply held_ite4) | intro _ | dsimp only
theorem execModeRequest_held (q : Path) (n : Fin 4) (v : Half) (s : State) {u : State} (h : execModeRequest q n v s = .next u) : Held s u := by
  unfold execModeRequest at h
  simp only [Host.Outcome.next.injEq] at h
  have hc := held_refl s
  rw [← h]
  clear h
  repeat' first | (first | omega | ((simp +zetaDelta only [odKey, bankIdx, bankStatusSub, canIdx, dmaObj, instBase, launchIdx, coreIdx, dmaIdx, logBase, trigIdx] <;> (try split)) <;> omega)) | (with_reducible first | assumption | apply State.changeAsk_held | apply State.guard_held | apply State.wr_held) | intro _ | dsimp only
theorem execMeasureSend_held (n : Fin 4) (east : Bool) (s : State) {u : State} (h : execMeasureSend n east s = .next u) : Held s u := by
  unfold execMeasureSend at h
  simp only [Host.Outcome.next.injEq] at h
  have hc := held_refl s
  rw [← h]
  clear h
  repeat' first | (first | omega | ((simp +zetaDelta only [odKey, bankIdx, bankStatusSub, canIdx, dmaObj, instBase, launchIdx, coreIdx, dmaIdx, logBase, trigIdx] <;> (try split)) <;> omega)) | (with_reducible first | assumption | apply held_ite | apply State.emit_held | apply State.guard_held | apply State.setRing_held) | simp only [held_same] | intro _ | dsimp only
theorem execMeasureForward_held (n : Fin 4) (s : State) {u : State} (h : execMeasureForward n s = .next u) : Held s u := by
  unfold execMeasureForward at h
  simp only [Host.Outcome.next.injEq] at h
  have hc := held_refl s
  rw [← h]
  clear h
  repeat' first | (first | omega | ((simp +zetaDelta only [odKey, bankIdx, bankStatusSub, canIdx, dmaObj, instBase, launchIdx, coreIdx, dmaIdx, logBase, trigIdx] <;> (try split)) <;> omega)) | (with_reducible first | assumption | apply held_ite | apply State.guard_held | apply State.measureNode_held) | simp only [held_same] | intro _ | dsimp only | split
theorem execMeasureReturn_held (n : Fin 4) (ids : List (Half × DWord)) (s : State) {u : State} (h : execMeasureReturn n ids s = .next u) : Held s u := by
  unfold execMeasureReturn at h
  simp only [Host.Outcome.next.injEq] at h
  have hc := held_refl s
  rw [← h]
  clear h
  repeat' first | (first | omega | ((simp +zetaDelta only [odKey, bankIdx, bankStatusSub, canIdx, dmaObj, instBase, launchIdx, coreIdx, dmaIdx, logBase, trigIdx] <;> (try split)) <;> omega)) | (with_reducible first | assumption | apply held_ite | apply State.drop_held | apply State.guard_held | apply State.measured_held | apply State.setRing_held) | simp only [held_same] | intro _ | dsimp only | split
theorem execMgmtReturn_held (n : Fin 4) (d : List Byte) (good : Bool) (s : State) {u : State} (h : execMgmtReturn n d good s = .next u) : Held s u := by
  unfold execMgmtReturn at h
  simp only [Host.Outcome.next.injEq] at h
  have hc := held_refl s
  rw [← h]
  clear h
  repeat' first | (first | omega | ((simp +zetaDelta only [odKey, bankIdx, bankStatusSub, canIdx, dmaObj, instBase, launchIdx, coreIdx, dmaIdx, logBase, trigIdx] <;> (try split)) <;> omega)) | (with_reducible first | assumption | apply held_ite | apply State.dmaWrite_held | apply State.guard_held | apply State.perEvent_held | apply State.setRing_held | apply State.wr_held) | simp only [held_same] | intro _ | dsimp only
theorem execMgmtTimeout_held (n : Fin 4) (s : State) {u : State} (h : execMgmtTimeout n s = .next u) : Held s u := by
  unfold execMgmtTimeout at h
  simp only [Host.Outcome.next.injEq] at h
  have hc := held_refl s
  rw [← h]
  clear h
  repeat' first | (first | omega | ((simp +zetaDelta only [odKey, bankIdx, bankStatusSub, canIdx, dmaObj, instBase, launchIdx, coreIdx, dmaIdx, logBase, trigIdx] <;> (try split)) <;> omega)) | (with_reducible first | assumption | apply held_ite | apply State.guard_held | apply State.perEvent_held | apply State.setRing_held | apply State.wr_held) | simp only [held_same] | intro _ | dsimp only
theorem execMgmtReadIdentity_held (n : Fin 4) (s : State) {u : State} (h : execMgmtReadIdentity n s = .next u) : Held s u := by
  unfold execMgmtReadIdentity at h
  simp only [Host.Outcome.next.injEq] at h
  have hc := held_refl s
  rw [← h]
  clear h
  repeat' first | (first | omega | ((simp +zetaDelta only [odKey, bankIdx, bankStatusSub, canIdx, dmaObj, instBase, launchIdx, coreIdx, dmaIdx, logBase, trigIdx] <;> (try split)) <;> omega)) | (with_reducible first | assumption | apply State.guard_held | apply State.mgmtAnswer_held) | simp only [held_same] | intro _ | dsimp only | split
theorem execMgmtAssignNumber_held (n : Fin 4) (s : State) {u : State} (h : execMgmtAssignNumber n s = .next u) : Held s u := by
  unfold execMgmtAssignNumber at h
  simp only [Host.Outcome.next.injEq] at h
  have hc := held_refl s
  rw [← h]
  clear h
  repeat' first | (first | omega | ((simp +zetaDelta only [odKey, bankIdx, bankStatusSub, canIdx, dmaObj, instBase, launchIdx, coreIdx, dmaIdx, logBase, trigIdx] <;> (try split)) <;> omega)) | (with_reducible first | assumption | apply held_ite | apply State.guard_held | apply State.mgmtAnswer_held | apply State.wr_held) | simp only [held_same] | intro _ | dsimp only | split
theorem execMgmtWriteTable_held (n : Fin 4) (s : State) {u : State} (h : execMgmtWriteTable n s = .next u) : Held s u := by
  unfold execMgmtWriteTable at h
  simp only [Host.Outcome.next.injEq] at h
  have hc := held_refl s
  rw [← h]
  clear h
  repeat' first | (first | omega | ((simp +zetaDelta only [odKey, bankIdx, bankStatusSub, canIdx, dmaObj, instBase, launchIdx, coreIdx, dmaIdx, logBase, trigIdx] <;> (try split)) <;> omega)) | (with_reducible first | assumption | apply held_ite | apply State.drop_held | apply State.guard_held | apply State.mgmtAnswer_held | apply State.setStaged_held) | simp only [held_same] | intro _ | dsimp only | split
theorem execMgmtCommit_held (n : Fin 4) (s : State) {u : State} (h : execMgmtCommit n s = .next u) : Held s u := by
  unfold execMgmtCommit at h
  simp only [Host.Outcome.next.injEq] at h
  have hc := held_refl s
  rw [← h]
  clear h
  repeat' first | (first | omega | ((simp +zetaDelta only [odKey, bankIdx, bankStatusSub, canIdx, dmaObj, instBase, launchIdx, coreIdx, dmaIdx, logBase, trigIdx] <;> (try split)) <;> omega)) | (with_reducible first | assumption | apply held_ite | apply State.guard_held | apply State.mgmtAnswer_held | apply State.mgmtCommit_held | apply State.setStaged_held | apply held_ite2 | apply held_ite3 | apply held_ite4) | simp only [held_same] | intro _ | dsimp only | split
theorem execMgmtReadStatus_held (n : Fin 4) (s : State) {u : State} (h : execMgmtReadStatus n s = .next u) : Held s u := by
  unfold execMgmtReadStatus at h
  simp only [Host.Outcome.next.injEq] at h
  have hc := held_refl s
  rw [← h]
  clear h
  repeat' first | (first | omega | ((simp +zetaDelta only [odKey, bankIdx, bankStatusSub, canIdx, dmaObj, instBase, launchIdx, coreIdx, dmaIdx, logBase, trigIdx] <;> (try split)) <;> omega)) | (with_reducible first | assumption | apply held_ite | apply State.guard_held | apply State.mgmtAnswer_held) | simp only [held_same] | intro _ | dsimp only | split
theorem execMgmtReadLinks_held (n : Fin 4) (s : State) {u : State} (h : execMgmtReadLinks n s = .next u) : Held s u := by
  unfold execMgmtReadLinks at h
  simp only [Host.Outcome.next.injEq] at h
  have hc := held_refl s
  rw [← h]
  clear h
  repeat' first | (first | omega | ((simp +zetaDelta only [odKey, bankIdx, bankStatusSub, canIdx, dmaObj, instBase, launchIdx, coreIdx, dmaIdx, logBase, trigIdx] <;> (try split)) <;> omega)) | (with_reducible first | assumption | apply held_ite | apply State.guard_held | apply State.mgmtAnswer_held) | simp only [held_same] | intro _ | dsimp only | split
theorem execRecordEvent_held (typ : Half) (b : List Byte) (s : State) {u : State} (h : execRecordEvent typ b s = .next u) : Held s u := by
  unfold execRecordEvent at h
  simp only [Host.Outcome.next.injEq] at h
  have hc := held_refl s
  rw [← h]
  clear h
  repeat' first | (first | omega | ((simp +zetaDelta only [odKey, bankIdx, bankStatusSub, canIdx, dmaObj, instBase, launchIdx, coreIdx, dmaIdx, logBase, trigIdx] <;> (try split)) <;> omega)) | (with_reducible first | assumption | apply held_ite | apply State.guard_held | apply State.record_held) | intro _ | dsimp only
theorem execRecordCommitted_held (s : State) {u : State} (h : execRecordCommitted s = .next u) : Held s u := by
  unfold execRecordCommitted at h
  simp only [Host.Outcome.next.injEq] at h
  have hc := held_refl s
  rw [← h]
  clear h
  repeat' first | (first | omega | ((simp +zetaDelta only [odKey, bankIdx, bankStatusSub, canIdx, dmaObj, instBase, launchIdx, coreIdx, dmaIdx, logBase, trigIdx] <;> (try split)) <;> omega)) | (with_reducible first | assumption | apply held_ite | apply State.commitRecord_held | apply State.guard_held) | intro _ | dsimp only
theorem execLogScanDone_held (s : State) {u : State} (h : execLogScanDone s = .next u) : Held s u := by
  unfold execLogScanDone at h
  simp only [Host.Outcome.next.injEq] at h
  have hc := held_refl s
  rw [← h]
  clear h
  repeat' first | (first | omega | ((simp +zetaDelta only [odKey, bankIdx, bankStatusSub, canIdx, dmaObj, instBase, launchIdx, coreIdx, dmaIdx, logBase, trigIdx] <;> (try split)) <;> omega)) | (with_reducible first | assumption | apply held_ite | apply State.finishScan_held | apply State.guard_held) | intro _ | dsimp only
theorem execLogClear_held (p : Path) (v : Word) (s : State) {u : State} (h : execLogClear p v s = .next u) : Held s u := by
  unfold execLogClear at h
  simp only [Host.Outcome.next.injEq] at h
  have hc := held_refl s
  rw [← h]
  clear h
  repeat' first | (first | omega | ((simp +zetaDelta only [odKey, bankIdx, bankStatusSub, canIdx, dmaObj, instBase, launchIdx, coreIdx, dmaIdx, logBase, trigIdx] <;> (try split)) <;> omega)) | (with_reducible first | assumption | apply State.clearLog_held | apply State.guard_held) | intro _ | dsimp only
theorem execOperatingMinute_held (s : State) {u : State} (h : execOperatingMinute s = .next u) : Held s u := by
  unfold execOperatingMinute at h
  simp only [Host.Outcome.next.injEq] at h
  have hc := held_refl s
  rw [← h]
  clear h
  repeat' first | (first | omega | ((simp +zetaDelta only [odKey, bankIdx, bankStatusSub, canIdx, dmaObj, instBase, launchIdx, coreIdx, dmaIdx, logBase, trigIdx] <;> (try split)) <;> omega)) | (with_reducible first | assumption | apply held_ite | apply State.cntS_held | apply State.guard_held | apply State.logCounter_held | apply State.showAllowances_held) | intro _ | dsimp only
theorem execParamSave_held (p : Path) (sub : Byte) (v : Word) (s : State) {u : State} (h : execParamSave p sub v s = .next u) : Held s u := by
  unfold execParamSave at h
  simp only [Host.Outcome.next.injEq] at h
  have hc := held_refl s
  rw [← h]
  clear h
  repeat' first | (first | omega | ((simp +zetaDelta only [odKey, bankIdx, bankStatusSub, canIdx, dmaObj, instBase, launchIdx, coreIdx, dmaIdx, logBase, trigIdx] <;> (try split)) <;> omega)) | (with_reducible first | assumption | apply State.guard_held | apply State.paramOp_held) | intro _ | dsimp only
theorem execParamRestore_held (p : Path) (sub : Byte) (v : Word) (s : State) {u : State} (h : execParamRestore p sub v s = .next u) : Held s u := by
  unfold execParamRestore at h
  simp only [Host.Outcome.next.injEq] at h
  have hc := held_refl s
  rw [← h]
  clear h
  repeat' first | (first | omega | ((simp +zetaDelta only [odKey, bankIdx, bankStatusSub, canIdx, dmaObj, instBase, launchIdx, coreIdx, dmaIdx, logBase, trigIdx] <;> (try split)) <;> omega)) | (with_reducible first | assumption | apply State.guard_held | apply State.paramOp_held) | intro _ | dsimp only
theorem execParamHoldExpiry_held (s : State) {u : State} (h : execParamHoldExpiry s = .next u) : Held s u := by
  unfold execParamHoldExpiry at h
  simp only [Host.Outcome.next.injEq] at h
  have hc := held_refl s
  rw [← h]
  clear h
  repeat' first | (first | omega | ((simp +zetaDelta only [odKey, bankIdx, bankStatusSub, canIdx, dmaObj, instBase, launchIdx, coreIdx, dmaIdx, logBase, trigIdx] <;> (try split)) <;> omega)) | (with_reducible first | assumption | apply held_ite | apply State.guard_held | apply State.startHeld_held) | simp only [held_same] | intro _ | dsimp only
theorem execParamCopyWritten_held (ok : Bool) (s : State) {u : State} (h : execParamCopyWritten ok s = .next u) : Held s u := by
  unfold execParamCopyWritten at h
  simp only [Host.Outcome.next.injEq] at h
  have hc := held_refl s
  rw [← h]
  clear h
  repeat' first | (first | omega | ((simp +zetaDelta only [odKey, bankIdx, bankStatusSub, canIdx, dmaObj, instBase, launchIdx, coreIdx, dmaIdx, logBase, trigIdx] <;> (try split)) <;> omega)) | (with_reducible first | assumption | apply State.copyWritten_held | apply State.guard_held) | intro _ | dsimp only
theorem execOptionsCommit_held (p : Path) (v : Word) (s : State) {u : State} (h : execOptionsCommit p v s = .next u) : Held s u := by
  unfold execOptionsCommit at h
  simp only [Host.Outcome.next.injEq] at h
  have hc := held_refl s
  rw [← h]
  clear h
  repeat' first | (first | omega | ((simp +zetaDelta only [odKey, bankIdx, bankStatusSub, canIdx, dmaObj, instBase, launchIdx, coreIdx, dmaIdx, logBase, trigIdx] <;> (try split)) <;> omega)) | (with_reducible first | assumption | apply State.doCommit_held | apply State.guard_held) | intro _ | dsimp only
theorem execOptionsCommitEnd_held (s : State) {u : State} (h : execOptionsCommitEnd s = .next u) : Held s u := by
  unfold execOptionsCommitEnd at h
  simp only [Host.Outcome.next.injEq] at h
  have hc := held_refl s
  rw [← h]
  clear h
  repeat' first | (first | omega | ((simp +zetaDelta only [odKey, bankIdx, bankStatusSub, canIdx, dmaObj, instBase, launchIdx, coreIdx, dmaIdx, logBase, trigIdx] <;> (try split)) <;> omega)) | (with_reducible first | assumption | apply held_ite | apply State.guard_held | apply State.startCommit_held | apply State.wr_held) | simp only [held_same] | intro _ | dsimp only | split
theorem execTriesClear_held (p : Path) (v : Word) (s : State) {u : State} (h : execTriesClear p v s = .next u) : Held s u := by
  unfold execTriesClear at h
  simp only [Host.Outcome.next.injEq] at h
  have hc := held_refl s
  rw [← h]
  clear h
  repeat' first | (first | omega | ((simp +zetaDelta only [odKey, bankIdx, bankStatusSub, canIdx, dmaObj, instBase, launchIdx, coreIdx, dmaIdx, logBase, trigIdx] <;> (try split)) <;> omega)) | (with_reducible first | assumption | apply State.clearTries_held | apply State.guard_held) | intro _ | dsimp only
theorem execLatticeEnable_held (q : Path) (v : Word) (s : State) {u : State} (h : execLatticeEnable q v s = .next u) : Held s u := by
  unfold execLatticeEnable at h
  simp only [Host.Outcome.next.injEq] at h
  have hc := held_refl s
  rw [← h]
  clear h
  repeat' first | (first | omega | ((simp +zetaDelta only [odKey, bankIdx, bankStatusSub, canIdx, dmaObj, instBase, launchIdx, coreIdx, dmaIdx, logBase, trigIdx] <;> (try split)) <;> omega)) | (with_reducible first | assumption | apply State.guard_held | apply State.latEnable_held) | intro _ | dsimp only
theorem execDiscoveryEnd_held (s : State) {u : State} (h : execDiscoveryEnd s = .next u) : Held s u := by
  unfold execDiscoveryEnd at h
  simp only [Host.Outcome.next.injEq] at h
  have hc := held_refl s
  rw [← h]
  clear h
  repeat' first | (first | omega | ((simp +zetaDelta only [odKey, bankIdx, bankStatusSub, canIdx, dmaObj, instBase, launchIdx, coreIdx, dmaIdx, logBase, trigIdx] <;> (try split)) <;> omega)) | (with_reducible first | assumption | apply held_ite | apply State.confirmConfig_held | apply State.guard_held | apply State.latEvent_held | apply State.latRefresh_held | apply State.nameKeeper_held | apply held_ite2 | apply held_ite3 | apply held_ite4) | intro _ | dsimp only
theorem execHelloSend_held (dt : Nat) (s : State) {u : State} (h : execHelloSend dt s = .next u) : Held s u := by
  unfold execHelloSend at h
  simp only [Host.Outcome.next.injEq] at h
  have hc := held_refl s
  rw [← h]
  clear h
  repeat' first | (first | omega | ((simp +zetaDelta only [odKey, bankIdx, bankStatusSub, canIdx, dmaObj, instBase, launchIdx, coreIdx, dmaIdx, logBase, trigIdx] <;> (try split)) <;> omega)) | (with_reducible first | assumption | apply held_ite | (apply held_foldl; intro _ _ _) | apply State.advance_held | apply State.elect_held | apply State.guard_held | apply State.hello_held | apply State.setLat_held | apply State.wr_held) | simp only [held_same] | intro _ | dsimp only
theorem execTriggeredHello_held (p : Fin 12) (dt : Nat) (s : State) {u : State} (h : execTriggeredHello p dt s = .next u) : Held s u := by
  unfold execTriggeredHello at h
  simp only [Host.Outcome.next.injEq] at h
  have hc := held_refl s
  rw [← h]
  clear h
  repeat' first | (first | omega | ((simp +zetaDelta only [odKey, bankIdx, bankStatusSub, canIdx, dmaObj, instBase, launchIdx, coreIdx, dmaIdx, logBase, trigIdx] <;> (try split)) <;> omega)) | (with_reducible first | assumption | apply held_ite | apply State.advance_held | apply State.guard_held | apply State.hello_held) | intro _ | dsimp only
theorem execLatticeFrameDelivered_held (p : Fin 12) (d : List Byte) (s : State) {u : State} (h : execLatticeFrameDelivered p d s = .next u) : Held s u := by
  unfold execLatticeFrameDelivered at h
  simp only [Host.Outcome.next.injEq] at h
  have hc := held_refl s
  rw [← h]
  clear h
  repeat' first | (first | omega | ((simp +zetaDelta only [odKey, bankIdx, bankStatusSub, canIdx, dmaObj, instBase, launchIdx, coreIdx, dmaIdx, logBase, trigIdx] <;> (try split)) <;> omega)) | (with_reducible first | assumption | apply held_ite | apply State.drop_held | apply State.guard_held | apply State.latCnt_held | apply State.latFlood_held | apply State.latTo_held | apply State.setLat_held) | simp only [held_same] | intro _ | dsimp only | split
theorem execHelloReceived_held (s : State) {u : State} (h : execHelloReceived s = .next u) : Held s u := by
  unfold execHelloReceived at h
  simp only [Host.Outcome.next.injEq] at h
  have hc := held_refl s
  rw [← h]
  clear h
  repeat' first | (first | omega | ((simp +zetaDelta only [odKey, bankIdx, bankStatusSub, canIdx, dmaObj, instBase, launchIdx, coreIdx, dmaIdx, logBase, trigIdx] <;> (try split)) <;> omega)) | (with_reducible first | assumption | apply held_ite | apply State.guard_held | apply State.helloTaken_held | exact State.latGot_held _ _ _ ‹_› ‹_›) | simp only [held_same] | intro _ | dsimp only | split
theorem execNeighbourTimeout_held (n : Fin 16) (s : State) {u : State} (h : execNeighbourTimeout n s = .next u) : Held s u := by
  unfold execNeighbourTimeout at h
  simp only [Host.Outcome.next.injEq] at h
  have hc := held_refl s
  rw [← h]
  clear h
  repeat' first | (first | omega | ((simp +zetaDelta only [odKey, bankIdx, bankStatusSub, canIdx, dmaObj, instBase, launchIdx, coreIdx, dmaIdx, logBase, trigIdx] <;> (try split)) <;> omega)) | (with_reducible first | assumption | apply held_ite | apply State.elect_held | apply State.guard_held | apply State.latRefresh_held | apply State.neighbourLost_held) | intro _ | dsimp only
theorem execKeeperClaimStale_held (id : DWord) (s : State) {u : State} (h : execKeeperClaimStale id s = .next u) : Held s u := by
  unfold execKeeperClaimStale at h
  simp only [Host.Outcome.next.injEq] at h
  have hc := held_refl s
  rw [← h]
  clear h
  repeat' first | (first | omega | ((simp +zetaDelta only [odKey, bankIdx, bankStatusSub, canIdx, dmaObj, instBase, launchIdx, coreIdx, dmaIdx, logBase, trigIdx] <;> (try split)) <;> omega)) | (with_reducible first | assumption | apply held_ite | apply State.elect_held | apply State.guard_held | apply State.latRefresh_held | apply State.setLat_held) | simp only [held_same] | intro _ | dsimp only
theorem execJoinSend_held (s : State) {u : State} (h : execJoinSend s = .next u) : Held s u := by
  unfold execJoinSend at h
  simp only [Host.Outcome.next.injEq] at h
  have hc := held_refl s
  rw [← h]
  clear h
  repeat' first | (first | omega | ((simp +zetaDelta only [odKey, bankIdx, bankStatusSub, canIdx, dmaObj, instBase, launchIdx, coreIdx, dmaIdx, logBase, trigIdx] <;> (try split)) <;> omega)) | (with_reducible first | assumption | apply held_ite | apply State.guard_held | apply State.latLocal_held) | simp only [held_same] | intro _ | dsimp only | split
theorem execJoinRelay_held (s : State) {u : State} (h : execJoinRelay s = .next u) : Held s u := by
  unfold execJoinRelay at h
  simp only [Host.Outcome.next.injEq] at h
  have hc := held_refl s
  rw [← h]
  clear h
  repeat' first | (first | omega | ((simp +zetaDelta only [odKey, bankIdx, bankStatusSub, canIdx, dmaObj, instBase, launchIdx, coreIdx, dmaIdx, logBase, trigIdx] <;> (try split)) <;> omega)) | (with_reducible first | assumption | apply held_ite | apply State.guard_held | exact State.latGot_held _ _ _ ‹_› ‹_› | apply State.latLocal_held | apply State.latSend_held | apply State.setLat_held) | simp only [held_same] | intro _ | dsimp only | split
theorem execJoinReceived_held (s : State) {u : State} (h : execJoinReceived s = .next u) : Held s u := by
  unfold execJoinReceived at h
  simp only [Host.Outcome.next.injEq] at h
  have hc := held_refl s
  rw [← h]
  clear h
  repeat' first | (first | omega | ((simp +zetaDelta only [odKey, bankIdx, bankStatusSub, canIdx, dmaObj, instBase, launchIdx, coreIdx, dmaIdx, logBase, trigIdx] <;> (try split)) <;> omega)) | (with_reducible first | assumption | apply held_ite | apply State.cnt_held | apply State.enterAddr_held | apply State.guard_held | exact State.latGot_held _ _ _ ‹_› ‹_› | apply State.latLocal_held | apply State.latTo_held) | simp only [held_same] | intro _ | dsimp only | split
theorem execJoinGrantReceived_held (s : State) {u : State} (h : execJoinGrantReceived s = .next u) : Held s u := by
  unfold execJoinGrantReceived at h
  simp only [Host.Outcome.next.injEq] at h
  have hc := held_refl s
  rw [← h]
  clear h
  repeat' first | (first | omega | ((simp +zetaDelta only [odKey, bankIdx, bankStatusSub, canIdx, dmaObj, instBase, launchIdx, coreIdx, dmaIdx, logBase, trigIdx] <;> (try split)) <;> omega)) | (with_reducible first | assumption | apply held_ite | apply State.cnt_held | apply State.guard_held | exact State.latGot_held _ _ _ ‹_› ‹_› | apply State.latRefresh_held | apply State.takeAddr_held) | simp only [held_same] | intro _ | dsimp only | split
theorem execKeeperForget_held (q : Path) (v : Half) (s : State) {u : State} (h : execKeeperForget q v s = .next u) : Held s u := by
  unfold execKeeperForget at h
  simp only [Host.Outcome.next.injEq] at h
  have hc := held_refl s
  rw [← h]
  clear h
  repeat' first | (first | omega | ((simp +zetaDelta only [odKey, bankIdx, bankStatusSub, canIdx, dmaObj, instBase, launchIdx, coreIdx, dmaIdx, logBase, trigIdx] <;> (try split)) <;> omega)) | (with_reducible first | assumption | apply State.guard_held | apply State.latForget_held) | intro _ | dsimp only
theorem execLinkReportSend_held (s : State) {u : State} (h : execLinkReportSend s = .next u) : Held s u := by
  unfold execLinkReportSend at h
  simp only [Host.Outcome.next.injEq] at h
  have hc := held_refl s
  rw [← h]
  clear h
  repeat' first | (first | omega | ((simp +zetaDelta only [odKey, bankIdx, bankStatusSub, canIdx, dmaObj, instBase, launchIdx, coreIdx, dmaIdx, logBase, trigIdx] <;> (try split)) <;> omega)) | (with_reducible first | assumption | apply held_ite | apply State.guard_held | apply State.latSend_held) | intro _ | dsimp only
theorem execLinkReportReceived_held (s : State) {u : State} (h : execLinkReportReceived s = .next u) : Held s u := by
  unfold execLinkReportReceived at h
  simp only [Host.Outcome.next.injEq] at h
  have hc := held_refl s
  rw [← h]
  clear h
  repeat' first | (first | omega | ((simp +zetaDelta only [odKey, bankIdx, bankStatusSub, canIdx, dmaObj, instBase, launchIdx, coreIdx, dmaIdx, logBase, trigIdx] <;> (try split)) <;> omega)) | (with_reducible first | assumption | apply held_ite | (apply held_foldl; intro _ _ _) | apply State.distribute_held | apply State.enterAddr_held | apply State.guard_held | exact State.latGot_held _ _ _ ‹_› ‹_› | apply State.latRefresh_held | apply State.setLat_held) | simp only [held_same] | intro _ | dsimp only | split
theorem execRoutePartReceived_held (s : State) {u : State} (h : execRoutePartReceived s = .next u) : Held s u := by
  unfold execRoutePartReceived at h
  simp only [Host.Outcome.next.injEq] at h
  have hc := held_refl s
  rw [← h]
  clear h
  repeat' first | (first | omega | ((simp +zetaDelta only [odKey, bankIdx, bankStatusSub, canIdx, dmaObj, instBase, launchIdx, coreIdx, dmaIdx, logBase, trigIdx] <;> (try split)) <;> omega)) | (with_reducible first | assumption | apply State.guard_held | exact State.latGot_held _ _ _ ‹_› ‹_› | apply State.latRefresh_held | apply State.routePartTaken_held) | simp only [held_same] | intro _ | dsimp only | split
theorem execRouteHeadTimeout_held (s : State) {u : State} (h : execRouteHeadTimeout s = .next u) : Held s u := by
  unfold execRouteHeadTimeout at h
  simp only [Host.Outcome.next.injEq] at h
  have hc := held_refl s
  rw [← h]
  clear h
  repeat' first | (first | omega | ((simp +zetaDelta only [odKey, bankIdx, bankStatusSub, canIdx, dmaObj, instBase, launchIdx, coreIdx, dmaIdx, logBase, trigIdx] <;> (try split)) <;> omega)) | (with_reducible first | assumption | apply held_ite | apply State.guard_held | apply State.latRefresh_held | apply State.quarantine_held | apply State.setLat_held) | simp only [held_same] | intro _ | dsimp only
theorem execTempSample_held (temps volts : List Half) (s : State) {u : State} (h : execTempSample temps volts s = .next u) : Held s u := by
  unfold execTempSample at h
  simp only [Host.Outcome.next.injEq] at h
  have hc := held_refl s
  rw [← h]
  clear h
  repeat' first | (first | omega | ((simp +zetaDelta only [odKey, bankIdx, bankStatusSub, canIdx, dmaObj, instBase, launchIdx, coreIdx, dmaIdx, logBase, trigIdx] <;> (try split)) <;> omega)) | (with_reducible first | assumption | (apply held_foldl; intro _ _ _) | apply State.guard_held | apply State.sampleTemps_held | apply State.wr_held) | intro _ | dsimp only
theorem execSupplyExcursion_held (m : Fin 11) (mv : Half) (s : State) {u : State} (h : execSupplyExcursion m mv s = .next u) : Held s u := by
  unfold execSupplyExcursion at h
  simp only [Host.Outcome.next.injEq] at h
  have hc := held_refl s
  rw [← h]
  clear h
  repeat' first | (first | omega | ((simp +zetaDelta only [odKey, bankIdx, bankStatusSub, canIdx, dmaObj, instBase, launchIdx, coreIdx, dmaIdx, logBase, trigIdx] <;> (try split)) <;> omega)) | (with_reducible first | assumption | apply held_ite | apply State.guard_held | apply State.supplyOut_held) | intro _ | dsimp only
theorem execSupplyRecovered_held (m : Fin 11) (mv : Half) (s : State) {u : State} (h : execSupplyRecovered m mv s = .next u) : Held s u := by
  unfold execSupplyRecovered at h
  simp only [Host.Outcome.next.injEq] at h
  have hc := held_refl s
  rw [← h]
  clear h
  repeat' first | (first | omega | ((simp +zetaDelta only [odKey, bankIdx, bankStatusSub, canIdx, dmaObj, instBase, launchIdx, coreIdx, dmaIdx, logBase, trigIdx] <;> (try split)) <;> omega)) | (with_reducible first | assumption | apply held_ite | apply State.guard_held | apply State.supplyBack_held) | intro _ | dsimp only
theorem execPaceWindowEnd_held (k : Fin 21) (count : Nat) (s : State) {u : State} (h : execPaceWindowEnd k count s = .next u) : Held s u := by
  unfold execPaceWindowEnd at h
  simp only [Host.Outcome.next.injEq] at h
  have hc := held_refl s
  rw [← h]
  clear h
  repeat' first | (first | omega | ((simp +zetaDelta only [odKey, bankIdx, bankStatusSub, canIdx, dmaObj, instBase, launchIdx, coreIdx, dmaIdx, logBase, trigIdx] <;> (try split)) <;> omega)) | (with_reducible first | assumption | apply State.cnt_held | apply State.guard_held) | simp only [held_same] | intro _ | dsimp only
theorem execPaceUpdate_held (factory : List Word) (s : State) {u : State} (h : execPaceUpdate factory s = .next u) : Held s u := by
  unfold execPaceUpdate at h
  simp only [Host.Outcome.next.injEq] at h
  have hc := held_refl s
  rw [← h]
  clear h
  repeat' first | (first | omega | ((simp +zetaDelta only [odKey, bankIdx, bankStatusSub, canIdx, dmaObj, instBase, launchIdx, coreIdx, dmaIdx, logBase, trigIdx] <;> (try split)) <;> omega)) | (with_reducible first | assumption | (apply held_foldl; intro _ _ _) | apply State.guard_held | apply State.paceOne_held) | intro _ | dsimp only
theorem execMarginRecord_held (s : State) {u : State} (h : execMarginRecord s = .next u) : Held s u := by
  unfold execMarginRecord at h
  simp only [Host.Outcome.next.injEq] at h
  have hc := held_refl s
  rw [← h]
  clear h
  repeat' first | (first | omega | ((simp +zetaDelta only [odKey, bankIdx, bankStatusSub, canIdx, dmaObj, instBase, launchIdx, coreIdx, dmaIdx, logBase, trigIdx] <;> (try split)) <;> omega)) | (with_reducible first | assumption | apply State.guard_held | apply State.record_held) | intro _ | dsimp only
theorem execPerturbArm_held (p : Path) (v : Word) (s : State) {u : State} (h : execPerturbArm p v s = .next u) : Held s u := by
  unfold execPerturbArm at h
  simp only [Host.Outcome.next.injEq] at h
  have hc := held_refl s
  rw [← h]
  clear h
  repeat' first | (first | omega | ((simp +zetaDelta only [odKey, bankIdx, bankStatusSub, canIdx, dmaObj, instBase, launchIdx, coreIdx, dmaIdx, logBase, trigIdx] <;> (try split)) <;> omega)) | (with_reducible first | assumption | apply held_ite | apply State.doArm_held | apply State.guard_held) | intro _ | dsimp only
theorem execPerturbArmed_held (s : State) {u : State} (h : execPerturbArmed s = .next u) : Held s u := by
  unfold execPerturbArmed at h
  simp only [Host.Outcome.next.injEq] at h
  have hc := held_refl s
  rw [← h]
  clear h
  repeat' first | (first | omega | ((simp +zetaDelta only [odKey, bankIdx, bankStatusSub, canIdx, dmaObj, instBase, launchIdx, coreIdx, dmaIdx, logBase, trigIdx] <;> (try split)) <;> omega)) | (with_reducible first | assumption | apply held_ite | apply State.becomeArmed_held | apply State.guard_held) | simp only [held_same] | intro _ | dsimp only | split
theorem execPerturbDisarm_held (p : Path) (v : Word) (s : State) {u : State} (h : execPerturbDisarm p v s = .next u) : Held s u := by
  unfold execPerturbDisarm at h
  simp only [Host.Outcome.next.injEq] at h
  have hc := held_refl s
  rw [← h]
  clear h
  repeat' first | (first | omega | ((simp +zetaDelta only [odKey, bankIdx, bankStatusSub, canIdx, dmaObj, instBase, launchIdx, coreIdx, dmaIdx, logBase, trigIdx] <;> (try split)) <;> omega)) | (with_reducible first | assumption | apply held_ite | apply State.disarm_held | apply State.guard_held) | intro _ | dsimp only
theorem execTestInServiceWrite_held (p : Path) (v : Word) (keeper : Bool) (s : State) {u : State} (h : execTestInServiceWrite p v keeper s = .next u) : Held s u := by
  unfold execTestInServiceWrite at h
  simp only [Host.Outcome.next.injEq] at h
  have hc := held_refl s
  rw [← h]
  clear h
  repeat' first | (first | omega | ((simp +zetaDelta only [odKey, bankIdx, bankStatusSub, canIdx, dmaObj, instBase, launchIdx, coreIdx, dmaIdx, logBase, trigIdx] <;> (try split)) <;> omega)) | (with_reducible first | assumption | apply held_ite | apply State.doTestInService_held | apply State.guard_held | apply State.violate_held) | intro _ | dsimp only
theorem execTestTimeoutExpiry_held (s : State) {u : State} (h : execTestTimeoutExpiry s = .next u) : Held s u := by
  unfold execTestTimeoutExpiry at h
  simp only [Host.Outcome.next.injEq] at h
  have hc := held_refl s
  rw [← h]
  clear h
  repeat' first | (first | omega | ((simp +zetaDelta only [odKey, bankIdx, bankStatusSub, canIdx, dmaObj, instBase, launchIdx, coreIdx, dmaIdx, logBase, trigIdx] <;> (try split)) <;> omega)) | (with_reducible first | assumption | apply held_ite | apply State.disarm_held | apply State.guard_held | apply State.wr_held) | simp only [held_same] | intro _ | dsimp only
theorem execAutoDisarmExpiry_held (s : State) {u : State} (h : execAutoDisarmExpiry s = .next u) : Held s u := by
  unfold execAutoDisarmExpiry at h
  simp only [Host.Outcome.next.injEq] at h
  have hc := held_refl s
  rw [← h]
  clear h
  repeat' first | (first | omega | ((simp +zetaDelta only [odKey, bankIdx, bankStatusSub, canIdx, dmaObj, instBase, launchIdx, coreIdx, dmaIdx, logBase, trigIdx] <;> (try split)) <;> omega)) | (with_reducible first | assumption | apply held_ite | apply State.disarm_held | apply State.guard_held) | intro _ | dsimp only
theorem execBackpressureSlot_held (s : State) {u : State} (h : execBackpressureSlot s = .next u) : Held s u := by
  unfold execBackpressureSlot at h
  simp only [Host.Outcome.next.injEq] at h
  have hc := held_refl s
  rw [← h]
  clear h
  repeat' first | (first | omega | ((simp +zetaDelta only [odKey, bankIdx, bankStatusSub, canIdx, dmaObj, instBase, launchIdx, coreIdx, dmaIdx, logBase, trigIdx] <;> (try split)) <;> omega)) | (with_reducible first | assumption | apply held_ite | apply State.cnt_held | apply State.guard_held) | simp only [held_same] | intro _ | dsimp only
theorem execSymbolInject_held (s : State) {u : State} (h : execSymbolInject s = .next u) : Held s u := by
  unfold execSymbolInject at h
  simp only [Host.Outcome.next.injEq] at h
  have hc := held_refl s
  rw [← h]
  clear h
  repeat' first | (first | omega | ((simp +zetaDelta only [odKey, bankIdx, bankStatusSub, canIdx, dmaObj, instBase, launchIdx, coreIdx, dmaIdx, logBase, trigIdx] <;> (try split)) <;> omega)) | (with_reducible first | assumption | apply held_ite | apply State.cnt_held | apply State.emit_held | apply State.guard_held) | simp only [held_same] | intro _ | dsimp only
theorem execJitterDraw_held (s : State) {u : State} (h : execJitterDraw s = .next u) : Held s u := by
  unfold execJitterDraw at h
  simp only [Host.Outcome.next.injEq] at h
  have hc := held_refl s
  rw [← h]
  clear h
  repeat' first | (first | omega | ((simp +zetaDelta only [odKey, bankIdx, bankStatusSub, canIdx, dmaObj, instBase, launchIdx, coreIdx, dmaIdx, logBase, trigIdx] <;> (try split)) <;> omega)) | (with_reducible first | assumption | apply held_ite | apply State.cnt_held | apply State.guard_held | apply State.tick_held) | simp only [held_same] | intro _ | dsimp only
theorem execJtagUnlock_held (p : Path) (good : Bool) (s : State) {u : State} (h : execJtagUnlock p good s = .next u) : Held s u := by
  unfold execJtagUnlock at h
  simp only [Host.Outcome.next.injEq] at h
  have hc := held_refl s
  rw [← h]
  clear h
  repeat' first | (first | omega | ((simp +zetaDelta only [odKey, bankIdx, bankStatusSub, canIdx, dmaObj, instBase, launchIdx, coreIdx, dmaIdx, logBase, trigIdx] <;> (try split)) <;> omega)) | (with_reducible first | assumption | apply held_ite | apply State.guard_held | apply State.record_held) | simp only [held_same] | intro _ | dsimp only
theorem execJtagInstruction_held (ir : TapOp) (s : State) {u : State} (h : execJtagInstruction ir s = .next u) : Held s u := by
  unfold execJtagInstruction at h
  simp only [Host.Outcome.next.injEq] at h
  have hc := held_refl s
  rw [← h]
  clear h
  repeat' first | (first | omega | ((simp +zetaDelta only [odKey, bankIdx, bankStatusSub, canIdx, dmaObj, instBase, launchIdx, coreIdx, dmaIdx, logBase, trigIdx] <;> (try split)) <;> omega)) | (with_reducible first | assumption | apply held_ite | apply State.emit_held | apply State.guard_held) | simp only [held_same] | intro _ | dsimp only
theorem execPioB_held (m : Fin 32) (s : State) {u : State} (h : execPioB m s = .next u) : Held s u := by
  unfold execPioB at h
  simp only [Host.Outcome.next.injEq] at h
  have hc := held_refl s
  rw [← h]
  clear h
  repeat' first | (first | omega | ((simp +zetaDelta only [odKey, bankIdx, bankStatusSub, canIdx, dmaObj, instBase, launchIdx, coreIdx, dmaIdx, logBase, trigIdx] <;> (try split)) <;> omega)) | (with_reducible first | assumption | apply State.guard_held | apply State.smDone_held | apply State.smRun_held) | intro _ | dsimp only
theorem execPioLoopa_held (m : Fin 32) (s : State) {u : State} (h : execPioLoopa m s = .next u) : Held s u := by
  unfold execPioLoopa at h
  simp only [Host.Outcome.next.injEq] at h
  have hc := held_refl s
  rw [← h]
  clear h
  repeat' first | (first | omega | ((simp +zetaDelta only [odKey, bankIdx, bankStatusSub, canIdx, dmaObj, instBase, launchIdx, coreIdx, dmaIdx, logBase, trigIdx] <;> (try split)) <;> omega)) | (with_reducible first | assumption | apply State.guard_held | apply State.smLoop_held | apply State.smRun_held) | intro _ | dsimp only
theorem execPioLoopb_held (m : Fin 32) (s : State) {u : State} (h : execPioLoopb m s = .next u) : Held s u := by
  unfold execPioLoopb at h
  simp only [Host.Outcome.next.injEq] at h
  have hc := held_refl s
  rw [← h]
  clear h
  repeat' first | (first | omega | ((simp +zetaDelta only [odKey, bankIdx, bankStatusSub, canIdx, dmaObj, instBase, launchIdx, coreIdx, dmaIdx, logBase, trigIdx] <;> (try split)) <;> omega)) | (with_reducible first | assumption | apply State.guard_held | apply State.smLoop_held | apply State.smRun_held) | intro _ | dsimp only
theorem execPioBc_held (m : Fin 32) (pins : Half) (s : State) {u : State} (h : execPioBc m pins s = .next u) : Held s u := by
  unfold execPioBc at h
  simp only [Host.Outcome.next.injEq] at h
  have hc := held_refl s
  rw [← h]
  clear h
  repeat' first | (first | omega | ((simp +zetaDelta only [odKey, bankIdx, bankStatusSub, canIdx, dmaObj, instBase, launchIdx, coreIdx, dmaIdx, logBase, trigIdx] <;> (try split)) <;> omega)) | (with_reducible first | assumption | apply held_ite | apply State.guard_held | apply State.pioInputs_held | apply State.smDone_held | apply State.smRun_held) | intro _ | dsimp only
theorem execPioDrive_held (m : Fin 32) (s : State) {u : State} (h : execPioDrive m s = .next u) : Held s u := by
  unfold execPioDrive at h
  simp only [Host.Outcome.next.injEq] at h
  have hc := held_refl s
  rw [← h]
  clear h
  repeat' first | (first | omega | ((simp +zetaDelta only [odKey, bankIdx, bankStatusSub, canIdx, dmaObj, instBase, launchIdx, coreIdx, dmaIdx, logBase, trigIdx] <;> (try split)) <;> omega)) | (with_reducible first | assumption | apply State.guard_held | apply State.smDrive_held | apply State.smRun_held) | intro _ | dsimp only
theorem execPioSample_held (m : Fin 32) (pins : Half) (s : State) {u : State} (h : execPioSample m pins s = .next u) : Held s u := by
  unfold execPioSample at h
  simp only [Host.Outcome.next.injEq] at h
  have hc := held_refl s
  rw [← h]
  clear h
  repeat' first | (first | omega | ((simp +zetaDelta only [odKey, bankIdx, bankStatusSub, canIdx, dmaObj, instBase, launchIdx, coreIdx, dmaIdx, logBase, trigIdx] <;> (try split)) <;> omega)) | (with_reducible first | assumption | apply State.guard_held | apply State.pioInputs_held | apply State.smRun_held | apply State.smSample_held) | intro _ | dsimp only
theorem execPioFetch_held (m : Fin 32) (s : State) {u : State} (h : execPioFetch m s = .next u) : Held s u := by
  unfold execPioFetch at h
  simp only [Host.Outcome.next.injEq] at h
  have hc := held_refl s
  rw [← h]
  clear h
  repeat' first | (first | omega | ((simp +zetaDelta only [odKey, bankIdx, bankStatusSub, canIdx, dmaObj, instBase, launchIdx, coreIdx, dmaIdx, logBase, trigIdx] <;> (try split)) <;> omega)) | (with_reducible first | assumption | apply State.guard_held | apply State.smLoadTw_held | apply State.smRun_held) | intro _ | dsimp only
theorem execPioStore_held (m : Fin 32) (s : State) {u : State} (h : execPioStore m s = .next u) : Held s u := by
  unfold execPioStore at h
  simp only [Host.Outcome.next.injEq] at h
  have hc := held_refl s
  rw [← h]
  clear h
  repeat' first | (first | omega | ((simp +zetaDelta only [odKey, bankIdx, bankStatusSub, canIdx, dmaObj, instBase, launchIdx, coreIdx, dmaIdx, logBase, trigIdx] <;> (try split)) <;> omega)) | (with_reducible first | assumption | apply State.guard_held | apply State.smRun_held | apply State.smStoreRw_held) | intro _ | dsimp only
theorem execPioLoad_held (m : Fin 32) (s : State) {u : State} (h : execPioLoad m s = .next u) : Held s u := by
  unfold execPioLoad at h
  simp only [Host.Outcome.next.injEq] at h
  have hc := held_refl s
  rw [← h]
  clear h
  repeat' first | (first | omega | ((simp +zetaDelta only [odKey, bankIdx, bankStatusSub, canIdx, dmaObj, instBase, launchIdx, coreIdx, dmaIdx, logBase, trigIdx] <;> (try split)) <;> omega)) | (with_reducible first | assumption | apply State.guard_held | apply State.smLoadImm_held | apply State.smRun_held) | intro _ | dsimp only
theorem execPioAwait_held (m : Fin 32) (pins : Half) (s : State) {u : State} (h : execPioAwait m pins s = .next u) : Held s u := by
  unfold execPioAwait at h
  simp only [Host.Outcome.next.injEq] at h
  have hc := held_refl s
  rw [← h]
  clear h
  repeat' first | (first | omega | ((simp +zetaDelta only [odKey, bankIdx, bankStatusSub, canIdx, dmaObj, instBase, launchIdx, coreIdx, dmaIdx, logBase, trigIdx] <;> (try split)) <;> omega)) | (with_reducible first | assumption | apply State.guard_held | apply State.pioInputs_held | apply State.smAwait_held | apply State.smRun_held) | intro _ | dsimp only
theorem execPioFlag_held (m : Fin 32) (s : State) {u : State} (h : execPioFlag m s = .next u) : Held s u := by
  unfold execPioFlag at h
  simp only [Host.Outcome.next.injEq] at h
  have hc := held_refl s
  rw [← h]
  clear h
  repeat' first | (first | omega | ((simp +zetaDelta only [odKey, bankIdx, bankStatusSub, canIdx, dmaObj, instBase, launchIdx, coreIdx, dmaIdx, logBase, trigIdx] <;> (try split)) <;> omega)) | (with_reducible first | assumption | apply State.guard_held | apply State.smFlag_held | apply State.smRun_held) | intro _ | dsimp only
theorem execPioCopy_held (m : Fin 32) (pins : Half) (s : State) {u : State} (h : execPioCopy m pins s = .next u) : Held s u := by
  unfold execPioCopy at h
  simp only [Host.Outcome.next.injEq] at h
  have hc := held_refl s
  rw [← h]
  clear h
  repeat' first | (first | omega | ((simp +zetaDelta only [odKey, bankIdx, bankStatusSub, canIdx, dmaObj, instBase, launchIdx, coreIdx, dmaIdx, logBase, trigIdx] <;> (try split)) <;> omega)) | (with_reducible first | assumption | apply State.guard_held | apply State.pioInputs_held | apply State.smCopy_held | apply State.smRun_held) | intro _ | dsimp only
theorem execPioUnpack_held (m : Fin 32) (s : State) {u : State} (h : execPioUnpack m s = .next u) : Held s u := by
  unfold execPioUnpack at h
  simp only [Host.Outcome.next.injEq] at h
  have hc := held_refl s
  rw [← h]
  clear h
  repeat' first | (first | omega | ((simp +zetaDelta only [odKey, bankIdx, bankStatusSub, canIdx, dmaObj, instBase, launchIdx, coreIdx, dmaIdx, logBase, trigIdx] <;> (try split)) <;> omega)) | (with_reducible first | assumption | apply State.guard_held | apply State.smRun_held | apply State.smUnpack_held) | intro _ | dsimp only
theorem execPioPack_held (m : Fin 32) (s : State) {u : State} (h : execPioPack m s = .next u) : Held s u := by
  unfold execPioPack at h
  simp only [Host.Outcome.next.injEq] at h
  have hc := held_refl s
  rw [← h]
  clear h
  repeat' first | (first | omega | ((simp +zetaDelta only [odKey, bankIdx, bankStatusSub, canIdx, dmaObj, instBase, launchIdx, coreIdx, dmaIdx, logBase, trigIdx] <;> (try split)) <;> omega)) | (with_reducible first | assumption | apply State.guard_held | apply State.smPack_held | apply State.smRun_held) | intro _ | dsimp only
theorem execPioNop_held (m : Fin 32) (s : State) {u : State} (h : execPioNop m s = .next u) : Held s u := by
  unfold execPioNop at h
  simp only [Host.Outcome.next.injEq] at h
  have hc := held_refl s
  rw [← h]
  clear h
  repeat' first | (first | omega | ((simp +zetaDelta only [odKey, bankIdx, bankStatusSub, canIdx, dmaObj, instBase, launchIdx, coreIdx, dmaIdx, logBase, trigIdx] <;> (try split)) <;> omega)) | (with_reducible first | assumption | apply State.guard_held | apply State.smDone_held | exact State.smFetch_held _ _ _ ‹_› ‹_› | apply State.smRun_held) | simp only [held_same] | intro _ | dsimp only | split
theorem execPioWaitEnd_held (m : Fin 32) (pins : Half) (s : State) {u : State} (h : execPioWaitEnd m pins s = .next u) : Held s u := by
  unfold execPioWaitEnd at h
  simp only [Host.Outcome.next.injEq] at h
  have hc := held_refl s
  rw [← h]
  clear h
  repeat' first | (first | omega | ((simp +zetaDelta only [odKey, bankIdx, bankStatusSub, canIdx, dmaObj, instBase, launchIdx, coreIdx, dmaIdx, logBase, trigIdx] <;> (try split)) <;> omega)) | (with_reducible first | assumption | apply held_ite | apply State.guard_held | apply State.pioInputs_held | apply State.smResume_held) | intro _ | dsimp only
theorem execPioDelayExpiry_held (m : Fin 32) (s : State) {u : State} (h : execPioDelayExpiry m s = .next u) : Held s u := by
  unfold execPioDelayExpiry at h
  simp only [Host.Outcome.next.injEq] at h
  have hc := held_refl s
  rw [← h]
  clear h
  repeat' first | (first | omega | ((simp +zetaDelta only [odKey, bankIdx, bankStatusSub, canIdx, dmaObj, instBase, launchIdx, coreIdx, dmaIdx, logBase, trigIdx] <;> (try split)) <;> omega)) | (with_reducible first | assumption | apply held_ite | apply State.guard_held | apply State.setSm_held) | simp only [held_same] | intro _ | dsimp only
theorem execPioSmEnable_held (q : Path) (b : Fin 4) (v : Byte) (s : State) {u : State} (h : execPioSmEnable q b v s = .next u) : Held s u := by
  unfold execPioSmEnable at h
  simp only [Host.Outcome.next.injEq] at h
  have hc := held_refl s
  rw [← h]
  clear h
  repeat' first | (first | omega | ((simp +zetaDelta only [odKey, bankIdx, bankStatusSub, canIdx, dmaObj, instBase, launchIdx, coreIdx, dmaIdx, logBase, trigIdx] <;> (try split)) <;> omega)) | (with_reducible first | assumption | apply held_ite | apply State.guard_held | apply State.smEnable_held) | intro _ | dsimp only
theorem execPioSmDisable_held (q : Path) (b : Fin 4) (v : Byte) (s : State) {u : State} (h : execPioSmDisable q b v s = .next u) : Held s u := by
  unfold execPioSmDisable at h
  simp only [Host.Outcome.next.injEq] at h
  have hc := held_refl s
  rw [← h]
  clear h
  repeat' first | (first | omega | ((simp +zetaDelta only [odKey, bankIdx, bankStatusSub, canIdx, dmaObj, instBase, launchIdx, coreIdx, dmaIdx, logBase, trigIdx] <;> (try split)) <;> omega)) | (with_reducible first | assumption | apply held_ite | apply State.guard_held | apply State.smEnable_held) | intro _ | dsimp only
theorem execPioWrapWrite_held (q : Path) (m : Fin 32) (v : Half) (s : State) {u : State} (h : execPioWrapWrite q m v s = .next u) : Held s u := by
  unfold execPioWrapWrite at h
  simp only [Host.Outcome.next.injEq] at h
  have hc := held_refl s
  rw [← h]
  clear h
  repeat' first | (first | omega | ((simp +zetaDelta only [odKey, bankIdx, bankStatusSub, canIdx, dmaObj, instBase, launchIdx, coreIdx, dmaIdx, logBase, trigIdx] <;> (try split)) <;> omega)) | (with_reducible first | assumption | apply State.guard_held | apply State.smWrap_held) | intro _ | dsimp only
theorem execPioSyncApplyArm_held (q : Path) (s : State) {u : State} (h : execPioSyncApplyArm q s = .next u) : Held s u := by
  unfold execPioSyncApplyArm at h
  simp only [Host.Outcome.next.injEq] at h
  have hc := held_refl s
  rw [← h]
  clear h
  repeat' first | (first | omega | ((simp +zetaDelta only [odKey, bankIdx, bankStatusSub, canIdx, dmaObj, instBase, launchIdx, coreIdx, dmaIdx, logBase, trigIdx] <;> (try split)) <;> omega)) | (with_reducible first | assumption | apply State.guard_held | apply State.syncCommand_held) | intro _ | dsimp only
theorem execPioSyncCancel_held (q : Path) (s : State) {u : State} (h : execPioSyncCancel q s = .next u) : Held s u := by
  unfold execPioSyncCancel at h
  simp only [Host.Outcome.next.injEq] at h
  have hc := held_refl s
  rw [← h]
  clear h
  repeat' first | (first | omega | ((simp +zetaDelta only [odKey, bankIdx, bankStatusSub, canIdx, dmaObj, instBase, launchIdx, coreIdx, dmaIdx, logBase, trigIdx] <;> (try split)) <;> omega)) | (with_reducible first | assumption | apply State.guard_held | apply State.syncCommand_held) | intro _ | dsimp only
theorem execPioSyncApply_held (s : State) {u : State} (h : execPioSyncApply s = .next u) : Held s u := by
  unfold execPioSyncApply at h
  simp only [Host.Outcome.next.injEq] at h
  have hc := held_refl s
  rw [← h]
  clear h
  repeat' first | (first | omega | ((simp +zetaDelta only [odKey, bankIdx, bankStatusSub, canIdx, dmaObj, instBase, launchIdx, coreIdx, dmaIdx, logBase, trigIdx] <;> (try split)) <;> omega)) | (with_reducible first | assumption | apply held_ite | apply State.guard_held | apply State.syncApply_held) | intro _ | dsimp only
theorem execPioFlagSetWrite_held (q : Path) (b : Fin 4) (v : Byte) (s : State) {u : State} (h : execPioFlagSetWrite q b v s = .next u) : Held s u := by
  unfold execPioFlagSetWrite at h
  simp only [Host.Outcome.next.injEq] at h
  have hc := held_refl s
  rw [← h]
  clear h
  repeat' first | (first | omega | ((simp +zetaDelta only [odKey, bankIdx, bankStatusSub, canIdx, dmaObj, instBase, launchIdx, coreIdx, dmaIdx, logBase, trigIdx] <;> (try split)) <;> omega)) | (with_reducible first | assumption | apply State.guard_held | apply State.setPioFlags_held) | intro _ | dsimp only
theorem execPioFlagClearWrite_held (q : Path) (b : Fin 4) (v : Byte) (s : State) {u : State} (h : execPioFlagClearWrite q b v s = .next u) : Held s u := by
  unfold execPioFlagClearWrite at h
  simp only [Host.Outcome.next.injEq] at h
  have hc := held_refl s
  rw [← h]
  clear h
  repeat' first | (first | omega | ((simp +zetaDelta only [odKey, bankIdx, bankStatusSub, canIdx, dmaObj, instBase, launchIdx, coreIdx, dmaIdx, logBase, trigIdx] <;> (try split)) <;> omega)) | (with_reducible first | assumption | apply State.guard_held | apply State.setPioFlags_held) | intro _ | dsimp only
theorem execPioTxFifoPush_held (q : Path) (m : Fin 32) (v : Word) (s : State) {u : State} (h : execPioTxFifoPush q m v s = .next u) : Held s u := by
  unfold execPioTxFifoPush at h
  simp only [Host.Outcome.next.injEq] at h
  have hc := held_refl s
  rw [← h]
  clear h
  repeat' first | (first | omega | ((simp +zetaDelta only [odKey, bankIdx, bankStatusSub, canIdx, dmaObj, instBase, launchIdx, coreIdx, dmaIdx, logBase, trigIdx] <;> (try split)) <;> omega)) | (with_reducible first | assumption | apply State.guard_held | apply State.txPush_held) | intro _ | dsimp only
theorem execPioRxFifoPop_held (q : Path) (m : Fin 32) (s : State) {u : State} (h : execPioRxFifoPop q m s = .next u) : Held s u := by
  unfold execPioRxFifoPop at h
  simp only [Host.Outcome.next.injEq] at h
  have hc := held_refl s
  rw [← h]
  clear h
  repeat' first | (first | omega | ((simp +zetaDelta only [odKey, bankIdx, bankStatusSub, canIdx, dmaObj, instBase, launchIdx, coreIdx, dmaIdx, logBase, trigIdx] <;> (try split)) <;> omega)) | (with_reducible first | assumption | apply held_ite | apply State.emit_held | apply State.guard_held | apply State.rxPop_held | apply State.violate_held | apply held_ite2 | apply held_ite3 | apply held_ite4) | intro _ | dsimp only
theorem execPioDmaEnable_held (q : Path) (k : Fin 64) (v : Word) (s : State) {u : State} (h : execPioDmaEnable q k v s = .next u) : Held s u := by
  unfold execPioDmaEnable at h
  simp only [Host.Outcome.next.injEq] at h
  have hc := held_refl s
  rw [← h]
  clear h
  repeat' first | (first | omega | ((simp +zetaDelta only [odKey, bankIdx, bankStatusSub, canIdx, dmaObj, instBase, launchIdx, coreIdx, dmaIdx, logBase, trigIdx] <;> (try split)) <;> omega)) | (with_reducible first | assumption | apply held_ite | apply State.dmaControl_held | apply State.guard_held) | intro _ | dsimp only
theorem execPioDmaWord_held (k : Fin 64) (s : State) {u : State} (h : execPioDmaWord k s = .next u) : Held s u := by
  unfold execPioDmaWord at h
  simp only [Host.Outcome.next.injEq] at h
  have hc := held_refl s
  rw [← h]
  clear h
  repeat' first | (first | omega | ((simp +zetaDelta only [odKey, bankIdx, bankStatusSub, canIdx, dmaObj, instBase, launchIdx, coreIdx, dmaIdx, logBase, trigIdx] <;> (try split)) <;> omega)) | (with_reducible first | assumption | apply held_ite | apply State.dmaMoved_held | apply State.dmaRead_held | apply State.guard_held | apply State.memWrite_held | apply State.pioEvent_held | apply State.rxPop_held | apply State.txPush_held | apply State.wr_held | apply held_ite2 | apply held_ite3 | apply held_ite4) | intro _ | dsimp only
theorem execTrackEnable_held (q : Path) (t : Fin 16) (v : Word) (s : State) {u : State} (h : execTrackEnable q t v s = .next u) : Held s u := by
  unfold execTrackEnable at h
  simp only [Host.Outcome.next.injEq] at h
  have hc := held_refl s
  rw [← h]
  clear h
  repeat' first | (first | omega | ((simp +zetaDelta only [odKey, bankIdx, bankStatusSub, canIdx, dmaObj, instBase, launchIdx, coreIdx, dmaIdx, logBase, trigIdx] <;> (try split)) <;> omega)) | (with_reducible first | assumption | apply State.guard_held | apply State.trkEnable_held) | intro _ | dsimp only
theorem execTrackAbort_held (q : Path) (t : Fin 16) (v : Byte) (s : State) {u : State} (h : execTrackAbort q t v s = .next u) : Held s u := by
  unfold execTrackAbort at h
  simp only [Host.Outcome.next.injEq] at h
  have hc := held_refl s
  rw [← h]
  clear h
  repeat' first | (first | omega | ((simp +zetaDelta only [odKey, bankIdx, bankStatusSub, canIdx, dmaObj, instBase, launchIdx, coreIdx, dmaIdx, logBase, trigIdx] <;> (try split)) <;> omega)) | (with_reducible first | assumption | apply State.guard_held | apply State.trkAbort_held) | intro _ | dsimp only
theorem execLocusStagingStart_held (t : Fin 16) (dt : Nat) (s : State) {u : State} (h : execLocusStagingStart t dt s = .next u) : Held s u := by
  unfold execLocusStagingStart at h
  simp only [Host.Outcome.next.injEq] at h
  have hc := held_refl s
  rw [← h]
  clear h
  repeat' first | (first | omega | ((simp +zetaDelta only [odKey, bankIdx, bankStatusSub, canIdx, dmaObj, instBase, launchIdx, coreIdx, dmaIdx, logBase, trigIdx] <;> (try split)) <;> omega)) | (with_reducible first | assumption | apply State.advance_held | apply State.guard_held | apply State.trkBegin_held) | intro _ | dsimp only
theorem execLocusReadDone_held (t : Fin 16) (dt : Nat) (s : State) {u : State} (h : execLocusReadDone t dt s = .next u) : Held s u := by
  unfold execLocusReadDone at h
  simp only [Host.Outcome.next.injEq] at h
  have hc := held_refl s
  rw [← h]
  clear h
  repeat' first | (first | omega | ((simp +zetaDelta only [odKey, bankIdx, bankStatusSub, canIdx, dmaObj, instBase, launchIdx, coreIdx, dmaIdx, logBase, trigIdx] <;> (try split)) <;> omega)) | (with_reducible first | assumption | apply State.advance_held | apply State.guard_held | apply State.trkReadDone_held) | intro _ | dsimp only
theorem execLocusDeadlineMiss_held (t : Fin 16) (dt : Nat) (s : State) {u : State} (h : execLocusDeadlineMiss t dt s = .next u) : Held s u := by
  unfold execLocusDeadlineMiss at h
  simp only [Host.Outcome.next.injEq] at h
  have hc := held_refl s
  rw [← h]
  clear h
  repeat' first | (first | omega | ((simp +zetaDelta only [odKey, bankIdx, bankStatusSub, canIdx, dmaObj, instBase, launchIdx, coreIdx, dmaIdx, logBase, trigIdx] <;> (try split)) <;> omega)) | (with_reducible first | assumption | apply held_ite | apply State.advance_held | apply State.guard_held | apply State.trkLate_held) | intro _ | dsimp only
theorem execLocusPioPush_held (t : Fin 16) (s : State) {u : State} (h : execLocusPioPush t s = .next u) : Held s u := by
  unfold execLocusPioPush at h
  simp only [Host.Outcome.next.injEq] at h
  have hc := held_refl s
  rw [← h]
  clear h
  repeat' first | (first | omega | ((simp +zetaDelta only [odKey, bankIdx, bankStatusSub, canIdx, dmaObj, instBase, launchIdx, coreIdx, dmaIdx, logBase, trigIdx] <;> (try split)) <;> omega)) | (with_reducible first | assumption | apply held_ite | apply State.guard_held | apply State.setTrack_held | apply State.txPush_held) | simp only [held_same] | intro _ | dsimp only | split
theorem execLocusStaged_held (t : Fin 16) (s : State) {u : State} (h : execLocusStaged t s = .next u) : Held s u := by
  unfold execLocusStaged at h
  simp only [Host.Outcome.next.injEq] at h
  have hc := held_refl s
  rw [← h]
  clear h
  repeat' first | (first | omega | ((simp +zetaDelta only [odKey, bankIdx, bankStatusSub, canIdx, dmaObj, instBase, launchIdx, coreIdx, dmaIdx, logBase, trigIdx] <;> (try split)) <;> omega)) | (with_reducible first | assumption | apply State.guard_held | apply State.trkStaged_held) | intro _ | dsimp only
theorem execSwapArm_held (q : Path) (s : State) {u : State} (h : execSwapArm q s = .next u) : Held s u := by
  unfold execSwapArm at h
  simp only [Host.Outcome.next.injEq] at h
  have hc := held_refl s
  rw [← h]
  clear h
  repeat' first | (first | omega | ((simp +zetaDelta only [odKey, bankIdx, bankStatusSub, canIdx, dmaObj, instBase, launchIdx, coreIdx, dmaIdx, logBase, trigIdx] <;> (try split)) <;> omega)) | (with_reducible first | assumption | apply State.guard_held | apply State.swapCommand_held) | intro _ | dsimp only
theorem execSwapCancel_held (q : Path) (s : State) {u : State} (h : execSwapCancel q s = .next u) : Held s u := by
  unfold execSwapCancel at h
  simp only [Host.Outcome.next.injEq] at h
  have hc := held_refl s
  rw [← h]
  clear h
  repeat' first | (first | omega | ((simp +zetaDelta only [odKey, bankIdx, bankStatusSub, canIdx, dmaObj, instBase, launchIdx, coreIdx, dmaIdx, logBase, trigIdx] <;> (try split)) <;> omega)) | (with_reducible first | assumption | apply State.guard_held | apply State.swapCommand_held) | intro _ | dsimp only
theorem execSwapArmTied_held (q : Path) (s : State) {u : State} (h : execSwapArmTied q s = .next u) : Held s u := by
  unfold execSwapArmTied at h
  simp only [Host.Outcome.next.injEq] at h
  have hc := held_refl s
  rw [← h]
  clear h
  repeat' first | (first | omega | ((simp +zetaDelta only [odKey, bankIdx, bankStatusSub, canIdx, dmaObj, instBase, launchIdx, coreIdx, dmaIdx, logBase, trigIdx] <;> (try split)) <;> omega)) | (with_reducible first | assumption | apply State.guard_held | apply State.swapCommand_held) | intro _ | dsimp only
theorem execTriggerFire_held (d : Fin 4) (t : Fin 16) (dt : Nat) (s : State) {u : State} (h : execTriggerFire d t dt s = .next u) : Held s u := by
  unfold execTriggerFire at h
  simp only [Host.Outcome.next.injEq] at h
  have hc := held_refl s
  rw [← h]
  clear h
  repeat' first | (first | omega | ((simp +zetaDelta only [odKey, bankIdx, bankStatusSub, canIdx, dmaObj, instBase, launchIdx, coreIdx, dmaIdx, logBase, trigIdx] <;> (try split)) <;> omega)) | (with_reducible first | assumption | apply State.advance_held | apply State.guard_held | apply State.pioTrigger_held | (apply State.trigFire_held (h := ‹_›))) | simp only [held_same] | intro _ | dsimp only | split
theorem execCanModeWrite_held (p : Path) (c : Fin 4) (v : Word) (s : State) {u : State} (h : execCanModeWrite p c v s = .next u) : Held s u := by
  unfold execCanModeWrite at h
  simp only [Host.Outcome.next.injEq] at h
  have hc := held_refl s
  rw [← h]
  clear h
  repeat' first | (first | omega | ((simp +zetaDelta only [odKey, bankIdx, bankStatusSub, canIdx, dmaObj, instBase, launchIdx, coreIdx, dmaIdx, logBase, trigIdx] <;> (try split)) <;> omega)) | (with_reducible first | assumption | apply State.canMode_held | apply State.guard_held) | intro _ | dsimp only
theorem execCanIntegrated_held (c : Fin 4) (s : State) {u : State} (h : execCanIntegrated c s = .next u) : Held s u := by
  unfold execCanIntegrated at h
  simp only [Host.Outcome.next.injEq] at h
  have hc := held_refl s
  rw [← h]
  clear h
  repeat' first | (first | omega | ((simp +zetaDelta only [odKey, bankIdx, bankStatusSub, canIdx, dmaObj, instBase, launchIdx, coreIdx, dmaIdx, logBase, trigIdx] <;> (try split)) <;> omega)) | (with_reducible first | assumption | apply State.canStatus_held | apply State.guard_held) | intro _ | dsimp only
theorem execCanFrameReceived_held (c : Fin 4) (f : BusFrame) (ago : Nat) (phase : Fin 8) (s : State) {u : State} (h : execCanFrameReceived c f ago phase s = .next u) : Held s u := by
  unfold execCanFrameReceived at h
  simp only [Host.Outcome.next.injEq] at h
  have hc := held_refl s
  rw [← h]
  clear h
  repeat' first | (first | omega | ((simp +zetaDelta only [odKey, bankIdx, bankStatusSub, canIdx, dmaObj, instBase, launchIdx, coreIdx, dmaIdx, logBase, trigIdx] <;> (try split)) <;> omega)) | (with_reducible first | assumption | apply held_ite | apply State.canCounters_held | apply State.canHeard_held | apply State.canLost_held | apply State.canOffer_held | apply State.canStamp_held | apply State.guard_held | apply State.recDown_held | apply held_ite2 | apply held_ite3 | apply held_ite4) | intro _ | dsimp only
theorem execCanFrameStored_held (c : Fin 4) (s : State) {u : State} (h : execCanFrameStored c s = .next u) : Held s u := by
  unfold execCanFrameStored at h
  simp only [Host.Outcome.next.injEq] at h
  have hc := held_refl s
  rw [← h]
  clear h
  repeat' first | (first | omega | ((simp +zetaDelta only [odKey, bankIdx, bankStatusSub, canIdx, dmaObj, instBase, launchIdx, coreIdx, dmaIdx, logBase, trigIdx] <;> (try split)) <;> omega)) | (with_reducible first | assumption | apply State.canStore_held | apply State.guard_held) | intro _ | dsimp only
theorem execCanRxError_held (c : Fin 4) (lec : Fin 7) (data res : Bool) (eights : Fin 32) (s : State) {u : State} (h : execCanRxError c lec data res eights s = .next u) : Held s u := by
  unfold execCanRxError at h
  simp only [Host.Outcome.next.injEq] at h
  have hc := held_refl s
  rw [← h]
  clear h
  repeat' first | (first | omega | ((simp +zetaDelta only [odKey, bankIdx, bankStatusSub, canIdx, dmaObj, instBase, launchIdx, coreIdx, dmaIdx, logBase, trigIdx] <;> (try split)) <;> omega)) | (with_reducible first | assumption | apply held_ite | apply State.canCounters_held | apply State.canErr_held | apply State.canEvent_held | apply State.canLost_held | apply State.canStatus_held | apply State.guard_held | apply State.recUp_held | apply held_ite2 | apply held_ite3 | apply held_ite4) | intro _ | dsimp only
theorem execCanTxRequest_held (p : Path) (c : Fin 4) (v : DWord) (s : State) {u : State} (h : execCanTxRequest p c v s = .next u) : Held s u := by
  unfold execCanTxRequest at h
  simp only [Host.Outcome.next.injEq] at h
  have hc := held_refl s
  rw [← h]
  clear h
  repeat' first | (first | omega | ((simp +zetaDelta only [odKey, bankIdx, bankStatusSub, canIdx, dmaObj, instBase, launchIdx, coreIdx, dmaIdx, logBase, trigIdx] <;> (try split)) <;> omega)) | (with_reducible first | assumption | apply State.canEach_held | apply State.canRequest_held | apply State.guard_held) | intro _ | dsimp only
theorem execCanTxAttempt_held (c : Fin 4) (phase : Fin 8) (dt : Nat) (s : State) {u : State} (h : execCanTxAttempt c phase dt s = .next u) : Held s u := by
  unfold execCanTxAttempt at h
  simp only [Host.Outcome.next.injEq] at h
  have hc := held_refl s
  rw [← h]
  clear h
  repeat' first | (first | omega | ((simp +zetaDelta only [odKey, bankIdx, bankStatusSub, canIdx, dmaObj, instBase, launchIdx, coreIdx, dmaIdx, logBase, trigIdx] <;> (try split)) <;> omega)) | (with_reducible first | assumption | apply held_ite | apply State.advance_held | apply State.canAttempt_held | apply State.guard_held) | intro _ | dsimp only
theorem execCanTxSuccess_held (c : Fin 4) (delay : BitVec 7) (s : State) {u : State} (h : execCanTxSuccess c delay s = .next u) : Held s u := by
  unfold execCanTxSuccess at h
  simp only [Host.Outcome.next.injEq] at h
  have hc := held_refl s
  rw [← h]
  clear h
  repeat' first | (first | omega | ((simp +zetaDelta only [odKey, bankIdx, bankStatusSub, canIdx, dmaObj, instBase, launchIdx, coreIdx, dmaIdx, logBase, trigIdx] <;> (try split)) <;> omega)) | (with_reducible first | assumption | apply held_ite | apply State.canDelay_held | apply State.canSent_held | apply State.guard_held) | simp only [held_same] | intro _ | dsimp only | split
theorem execCanTxError_held (c : Fin 4) (lec : Fin 7) (data free : Bool) (eights : Fin 32) (delay : BitVec 7) (s : State) {u : State} (h : execCanTxError c lec data free eights delay s = .next u) : Held s u := by
  unfold execCanTxError at h
  simp only [Host.Outcome.next.injEq] at h
  have hc := held_refl s
  rw [← h]
  clear h
  repeat' first | (first | omega | ((simp +zetaDelta only [odKey, bankIdx, bankStatusSub, canIdx, dmaObj, instBase, launchIdx, coreIdx, dmaIdx, logBase, trigIdx] <;> (try split)) <;> omega)) | (with_reducible first | assumption | apply held_ite | apply State.canCounters_held | apply State.canDelay_held | apply State.canErr_held | apply State.canEvent_held | apply State.canIdle_held | apply State.canRetry_held | apply State.canUnacked_held | apply State.guard_held) | simp only [held_same] | intro _ | dsimp only | split
theorem execCanTxAbort_held (p : Path) (c : Fin 4) (v : DWord) (s : State) {u : State} (h : execCanTxAbort p c v s = .next u) : Held s u := by
  unfold execCanTxAbort at h
  simp only [Host.Outcome.next.injEq] at h
  have hc := held_refl s
  rw [← h]
  clear h
  repeat' first | (first | omega | ((simp +zetaDelta only [odKey, bankIdx, bankStatusSub, canIdx, dmaObj, instBase, launchIdx, coreIdx, dmaIdx, logBase, trigIdx] <;> (try split)) <;> omega)) | (with_reducible first | assumption | apply State.canAbort_held | apply State.canEach_held | apply State.guard_held) | intro _ | dsimp only
theorem execCanLockSet_held (p : Path) (c : Fin 4) (v : DWord) (s : State) {u : State} (h : execCanLockSet p c v s = .next u) : Held s u := by
  unfold execCanLockSet at h
  simp only [Host.Outcome.next.injEq] at h
  have hc := held_refl s
  rw [← h]
  clear h
  repeat' first | (first | omega | ((simp +zetaDelta only [odKey, bankIdx, bankStatusSub, canIdx, dmaObj, instBase, launchIdx, coreIdx, dmaIdx, logBase, trigIdx] <;> (try split)) <;> omega)) | (with_reducible first | assumption | apply State.canEach_held | apply State.canLock_held | apply State.guard_held) | intro _ | dsimp only
theorem execCanLockClear_held (p : Path) (c : Fin 4) (v : DWord) (s : State) {u : State} (h : execCanLockClear p c v s = .next u) : Held s u := by
  unfold execCanLockClear at h
  simp only [Host.Outcome.next.injEq] at h
  have hc := held_refl s
  rw [← h]
  clear h
  repeat' first | (first | omega | ((simp +zetaDelta only [odKey, bankIdx, bankStatusSub, canIdx, dmaObj, instBase, launchIdx, coreIdx, dmaIdx, logBase, trigIdx] <;> (try split)) <;> omega)) | (with_reducible first | assumption | apply State.canEach_held | apply State.canUnlock_held | apply State.guard_held) | intro _ | dsimp only
theorem execCanShadowPromoted_held (c : Fin 4) (b : Fin 64) (s : State) {u : State} (h : execCanShadowPromoted c b s = .next u) : Held s u := by
  unfold execCanShadowPromoted at h
  simp only [Host.Outcome.next.injEq] at h
  have hc := held_refl s
  rw [← h]
  clear h
  repeat' first | (first | omega | ((simp +zetaDelta only [odKey, bankIdx, bankStatusSub, canIdx, dmaObj, instBase, launchIdx, coreIdx, dmaIdx, logBase, trigIdx] <;> (try split)) <;> omega)) | (with_reducible first | assumption | apply held_ite | apply State.canPromoted_held | apply State.guard_held) | intro _ | dsimp only
theorem execCanLostClear_held (p : Path) (c : Fin 4) (v : DWord) (s : State) {u : State} (h : execCanLostClear p c v s = .next u) : Held s u := by
  unfold execCanLostClear at h
  simp only [Host.Outcome.next.injEq] at h
  have hc := held_refl s
  rw [← h]
  clear h
  repeat' first | (first | omega | ((simp +zetaDelta only [odKey, bankIdx, bankStatusSub, canIdx, dmaObj, instBase, launchIdx, coreIdx, dmaIdx, logBase, trigIdx] <;> (try split)) <;> omega)) | (with_reducible first | assumption | apply State.canEach_held | apply State.guard_held | apply State.setBuf_held) | intro _ | dsimp only
theorem execCanFifoGet_held (p : Path) (c : Fin 4) (k : Fin 2) (v : Word) (s : State) {u : State} (h : execCanFifoGet p c k v s = .next u) : Held s u := by
  unfold execCanFifoGet at h
  simp only [Host.Outcome.next.injEq] at h
  have hc := held_refl s
  rw [← h]
  clear h
  repeat' first | (first | omega | ((simp +zetaDelta only [odKey, bankIdx, bankStatusSub, canIdx, dmaObj, instBase, launchIdx, coreIdx, dmaIdx, logBase, trigIdx] <;> (try split)) <;> omega)) | (with_reducible first | assumption | apply State.guard_held | apply State.wr_held) | intro _ | dsimp only
theorem execCanBusOffRecovered_held (c : Fin 4) (s : State) {u : State} (h : execCanBusOffRecovered c s = .next u) : Held s u := by
  unfold execCanBusOffRecovered at h
  simp only [Host.Outcome.next.injEq] at h
  have hc := held_refl s
  rw [← h]
  clear h
  repeat' first | (first | omega | ((simp +zetaDelta only [odKey, bankIdx, bankStatusSub, canIdx, dmaObj, instBase, launchIdx, coreIdx, dmaIdx, logBase, trigIdx] <;> (try split)) <;> omega)) | (with_reducible first | assumption | apply held_ite | apply State.canCounters_held | apply State.canEvent_held | apply State.guard_held | apply State.setCan_held) | simp only [held_same] | intro _ | dsimp only
theorem execEngineRun_held (p : Path) (e : Fin 32) (s : State) {u : State} (h : execEngineRun p e s = .next u) : Held s u := by
  unfold execEngineRun at h
  simp only [Host.Outcome.next.injEq] at h
  have hc := held_refl s
  rw [← h]
  clear h
  repeat' first | (first | omega | ((simp +zetaDelta only [odKey, bankIdx, bankStatusSub, canIdx, dmaObj, instBase, launchIdx, coreIdx, dmaIdx, logBase, trigIdx] <;> (try split)) <;> omega)) | (with_reducible first | assumption | apply State.doRun_held | apply State.guard_held) | intro _ | dsimp only
theorem execEngineHalt_held (p : Path) (e : Fin 32) (s : State) {u : State} (h : execEngineHalt p e s = .next u) : Held s u := by
  unfold execEngineHalt at h
  simp only [Host.Outcome.next.injEq] at h
  have hc := held_refl s
  rw [← h]
  clear h
  repeat' first | (first | omega | ((simp +zetaDelta only [odKey, bankIdx, bankStatusSub, canIdx, dmaObj, instBase, launchIdx, coreIdx, dmaIdx, logBase, trigIdx] <;> (try split)) <;> omega)) | (with_reducible first | assumption | apply State.doHalt_held | apply State.guard_held) | intro _ | dsimp only
theorem execEngineStep_held (p : Path) (e : Fin 32) (s : State) {u : State} (h : execEngineStep p e s = .next u) : Held s u := by
  unfold execEngineStep at h
  simp only [Host.Outcome.next.injEq] at h
  have hc := held_refl s
  rw [← h]
  clear h
  repeat' first | (first | omega | ((simp +zetaDelta only [odKey, bankIdx, bankStatusSub, canIdx, dmaObj, instBase, launchIdx, coreIdx, dmaIdx, logBase, trigIdx] <;> (try split)) <;> omega)) | (with_reducible first | assumption | apply State.doStep_held | apply State.guard_held) | intro _ | dsimp only
theorem execEngineLoad_held (p : Path) (e : Fin 32) (s : State) {u : State} (h : execEngineLoad p e s = .next u) : Held s u := by
  unfold execEngineLoad at h
  simp only [Host.Outcome.next.injEq] at h
  have hc := held_refl s
  rw [← h]
  clear h
  repeat' first | (first | omega | ((simp +zetaDelta only [odKey, bankIdx, bankStatusSub, canIdx, dmaObj, instBase, launchIdx, coreIdx, dmaIdx, logBase, trigIdx] <;> (try split)) <;> omega)) | (with_reducible first | assumption | apply State.doLoad_held | apply State.guard_held) | intro _ | dsimp only
theorem execEngineHalted_held (e : Fin 32) (s : State) {u : State} (h : execEngineHalted e s = .next u) : Held s u := by
  unfold execEngineHalted at h
  simp only [Host.Outcome.next.injEq] at h
  have hc := held_refl s
  rw [← h]
  clear h
  repeat' first | (first | omega | ((simp +zetaDelta only [odKey, bankIdx, bankStatusSub, canIdx, dmaObj, instBase, launchIdx, coreIdx, dmaIdx, logBase, trigIdx] <;> (try split)) <;> omega)) | (with_reducible first | assumption | apply held_ite | apply State.guard_held | apply State.halted_held) | intro _ | dsimp only
theorem execImageInstall_held (p : Path) (s : State) {u : State} (h : execImageInstall p s = .next u) : Held s u := by
  unfold execImageInstall at h
  simp only [Host.Outcome.next.injEq] at h
  have hc := held_refl s
  rw [← h]
  clear h
  repeat' first | (first | omega | ((simp +zetaDelta only [odKey, bankIdx, bankStatusSub, canIdx, dmaObj, instBase, launchIdx, coreIdx, dmaIdx, logBase, trigIdx] <;> (try split)) <;> omega)) | (with_reducible first | assumption | apply State.guard_held | apply State.libraryStart_held) | intro _ | dsimp only
theorem execImageRemove_held (p : Path) (s : State) {u : State} (h : execImageRemove p s = .next u) : Held s u := by
  unfold execImageRemove at h
  simp only [Host.Outcome.next.injEq] at h
  have hc := held_refl s
  rw [← h]
  clear h
  repeat' first | (first | omega | ((simp +zetaDelta only [odKey, bankIdx, bankStatusSub, canIdx, dmaObj, instBase, launchIdx, coreIdx, dmaIdx, logBase, trigIdx] <;> (try split)) <;> omega)) | (with_reducible first | assumption | apply State.guard_held | apply State.libraryStart_held) | intro _ | dsimp only
theorem execImageLibraryOpDone_held (signed : Bool) (s : State) {u : State} (h : execImageLibraryOpDone signed s = .next u) : Held s u := by
  unfold execImageLibraryOpDone at h
  simp only [Host.Outcome.next.injEq] at h
  have hc := held_refl s
  rw [← h]
  clear h
  repeat' first | (first | omega | ((simp +zetaDelta only [odKey, bankIdx, bankStatusSub, canIdx, dmaObj, instBase, launchIdx, coreIdx, dmaIdx, logBase, trigIdx] <;> (try split)) <;> omega)) | (with_reducible first | assumption | apply held_ite | apply State.guard_held | apply State.installDone_held | apply State.removeDone_held) | simp only [held_same] | intro _ | dsimp only | split
theorem execEngineLoadDone_held (e : Fin 32) (signed digestOk : Bool) (s : State) {u : State} (h : execEngineLoadDone e signed digestOk s = .next u) : Held s u := by
  unfold execEngineLoadDone at h
  simp only [Host.Outcome.next.injEq] at h
  have hc := held_refl s
  rw [← h]
  clear h
  repeat' first | (first | omega | ((simp +zetaDelta only [odKey, bankIdx, bankStatusSub, canIdx, dmaObj, instBase, launchIdx, coreIdx, dmaIdx, logBase, trigIdx] <;> (try split)) <;> omega)) | (with_reducible first | assumption | apply held_ite | apply State.guard_held | apply State.loadDone_held) | intro _ | dsimp only
theorem execHbPeriodExpiry_held (e : Fin 32) (s : State) {u : State} (h : execHbPeriodExpiry e s = .next u) : Held s u := by
  unfold execHbPeriodExpiry at h
  simp only [Host.Outcome.next.injEq] at h
  have hc := held_refl s
  rw [← h]
  clear h
  repeat' first | (first | omega | ((simp +zetaDelta only [odKey, bankIdx, bankStatusSub, canIdx, dmaObj, instBase, launchIdx, coreIdx, dmaIdx, logBase, trigIdx] <;> (try split)) <;> omega)) | (with_reducible first | assumption | apply held_ite | apply State.cnt_held | apply State.engEvent_held | apply State.facetReset_held | apply State.guard_held | apply State.haltPending_held) | intro _ | dsimp only
theorem execFacetDbeRestart_held (f : Fin 8) (s : State) {u : State} (h : execFacetDbeRestart f s = .next u) : Held s u := by
  unfold execFacetDbeRestart at h
  simp only [Host.Outcome.next.injEq] at h
  have hc := held_refl s
  rw [← h]
  clear h
  repeat' first | (first | omega | ((simp +zetaDelta only [odKey, bankIdx, bankStatusSub, canIdx, dmaObj, instBase, launchIdx, coreIdx, dmaIdx, logBase, trigIdx] <;> (try split)) <;> omega)) | (with_reducible first | assumption | apply held_ite | apply State.dbeRestart_held | apply State.guard_held) | intro _ | dsimp only
theorem execInstanceStart_held (p : Path) (n : Fin 6) (s : State) {u : State} (h : execInstanceStart p n s = .next u) : Held s u := by
  unfold execInstanceStart at h
  simp only [Host.Outcome.next.injEq] at h
  have hc := held_refl s
  rw [← h]
  clear h
  repeat' first | (first | omega | ((simp +zetaDelta only [odKey, bankIdx, bankStatusSub, canIdx, dmaObj, instBase, launchIdx, coreIdx, dmaIdx, logBase, trigIdx] <;> (try split)) <;> omega)) | (with_reducible first | assumption | apply State.guard_held | apply State.instStart_held) | intro _ | dsimp only
theorem execInstanceStop_held (p : Path) (n : Fin 6) (s : State) {u : State} (h : execInstanceStop p n s = .next u) : Held s u := by
  unfold execInstanceStop at h
  simp only [Host.Outcome.next.injEq] at h
  have hc := held_refl s
  rw [← h]
  clear h
  repeat' first | (first | omega | ((simp +zetaDelta only [odKey, bankIdx, bankStatusSub, canIdx, dmaObj, instBase, launchIdx, coreIdx, dmaIdx, logBase, trigIdx] <;> (try split)) <;> omega)) | (with_reducible first | assumption | apply State.guard_held | apply State.instStop_held) | intro _ | dsimp only
theorem execInstanceStartDone_held (n : Fin 6) (binds : List (Fin 32 × Half × Half)) (s : State) {u : State} (h : execInstanceStartDone n binds s = .next u) : Held s u := by
  unfold execInstanceStartDone at h
  simp only [Host.Outcome.next.injEq] at h
  have hc := held_refl s
  rw [← h]
  clear h
  repeat' first | (first | omega | ((simp +zetaDelta only [odKey, bankIdx, bankStatusSub, canIdx, dmaObj, instBase, launchIdx, coreIdx, dmaIdx, logBase, trigIdx] <;> (try split)) <;> omega)) | (with_reducible first | assumption | apply State.guard_held | apply State.instDone_held) | intro _ | dsimp only
theorem execBringupStepDone_held (b : StepInput) (s : State) {u : State} (h : execBringupStepDone b s = .next u) : Held s u := by
  unfold execBringupStepDone at h
  simp only [Host.Outcome.next.injEq] at h
  have hc := held_refl s
  rw [← h]
  clear h
  repeat' first | (first | omega | ((simp +zetaDelta only [odKey, bankIdx, bankStatusSub, canIdx, dmaObj, instBase, launchIdx, coreIdx, dmaIdx, logBase, trigIdx] <;> (try split)) <;> omega)) | (with_reducible first | assumption | apply State.guard_held | apply State.stepDone_held) | intro _ | dsimp only
theorem execHostLoadGo_held (p : Path) (v : Word) (s : State) {u : State} (h : execHostLoadGo p v s = .next u) : Held s u := by
  unfold execHostLoadGo at h
  simp only [Host.Outcome.next.injEq] at h
  have hc := held_refl s
  rw [← h]
  clear h
  repeat' first | (first | omega | ((simp +zetaDelta only [odKey, bankIdx, bankStatusSub, canIdx, dmaObj, instBase, launchIdx, coreIdx, dmaIdx, logBase, trigIdx] <;> (try split)) <;> omega)) | (with_reducible first | assumption | apply State.guard_held | apply State.wr_held) | intro _ | dsimp only
theorem execHostLoadVerified_held (ok : Bool) (s : State) {u : State} (h : execHostLoadVerified ok s = .next u) : Held s u := by
  unfold execHostLoadVerified at h
  simp only [Host.Outcome.next.injEq] at h
  have hc := held_refl s
  rw [← h]
  clear h
  repeat' first | (first | omega | ((simp +zetaDelta only [odKey, bankIdx, bankStatusSub, canIdx, dmaObj, instBase, launchIdx, coreIdx, dmaIdx, logBase, trigIdx] <;> (try split)) <;> omega)) | (with_reducible first | assumption | apply held_ite | apply State.event_held | apply State.guard_held | apply State.wr_held) | intro _ | dsimp only
theorem execPostedStoreComplete_held (c : Fin 33) (s : State) {u : State} (h : execPostedStoreComplete c s = .next u) : Held s u := by
  unfold execPostedStoreComplete at h
  simp only [Host.Outcome.next.injEq] at h
  have hc := held_refl s
  rw [← h]
  clear h
  repeat' first | (first | omega | ((simp +zetaDelta only [odKey, bankIdx, bankStatusSub, canIdx, dmaObj, instBase, launchIdx, coreIdx, dmaIdx, logBase, trigIdx] <;> (try split)) <;> omega)) | (with_reducible first | assumption | apply State.drainPosted_held | apply State.guard_held) | intro _ | dsimp only
theorem execIllegalEncoding_held (c : Fin 33) (s : State) {u : State} (h : execIllegalEncoding c s = .next u) : Held s u := by
  unfold execIllegalEncoding at h
  simp only [Host.Outcome.next.injEq] at h
  have hc := held_refl s
  rw [← h]
  clear h
  repeat' first | (first | omega | ((simp +zetaDelta only [odKey, bankIdx, bankStatusSub, canIdx, dmaObj, instBase, launchIdx, coreIdx, dmaIdx, logBase, trigIdx] <;> (try split)) <;> omega)) | (with_reducible first | assumption | apply State.guard_held | apply State.illegal_held) | intro _ | dsimp only
theorem execAdd_held (c : Fin 33) (s : State) {u : State} (h : execAdd c s = .next u) : Held s u := by
  unfold execAdd at h
  simp only [Host.Outcome.next.injEq] at h
  have hc := held_refl s
  rw [← h]
  clear h
  repeat' first | (first | omega | ((simp +zetaDelta only [odKey, bankIdx, bankStatusSub, canIdx, dmaObj, instBase, launchIdx, coreIdx, dmaIdx, logBase, trigIdx] <;> (try split)) <;> omega)) | (with_reducible first | assumption | apply State.guard_held | apply State.regOp_held) | intro _ | dsimp only
theorem execAddi_held (c : Fin 33) (s : State) {u : State} (h : execAddi c s = .next u) : Held s u := by
  unfold execAddi at h
  simp only [Host.Outcome.next.injEq] at h
  have hc := held_refl s
  rw [← h]
  clear h
  repeat' first | (first | omega | ((simp +zetaDelta only [odKey, bankIdx, bankStatusSub, canIdx, dmaObj, instBase, launchIdx, coreIdx, dmaIdx, logBase, trigIdx] <;> (try split)) <;> omega)) | (with_reducible first | assumption | apply State.guard_held | apply State.regOp_held) | intro _ | dsimp only
theorem execSub_held (c : Fin 33) (s : State) {u : State} (h : execSub c s = .next u) : Held s u := by
  unfold execSub at h
  simp only [Host.Outcome.next.injEq] at h
  have hc := held_refl s
  rw [← h]
  clear h
  repeat' first | (first | omega | ((simp +zetaDelta only [odKey, bankIdx, bankStatusSub, canIdx, dmaObj, instBase, launchIdx, coreIdx, dmaIdx, logBase, trigIdx] <;> (try split)) <;> omega)) | (with_reducible first | assumption | apply State.guard_held | apply State.regOp_held) | intro _ | dsimp only
theorem execAdc_held (c : Fin 33) (s : State) {u : State} (h : execAdc c s = .next u) : Held s u := by
  unfold execAdc at h
  simp only [Host.Outcome.next.injEq] at h
  have hc := held_refl s
  rw [← h]
  clear h
  repeat' first | (first | omega | ((simp +zetaDelta only [odKey, bankIdx, bankStatusSub, canIdx, dmaObj, instBase, launchIdx, coreIdx, dmaIdx, logBase, trigIdx] <;> (try split)) <;> omega)) | (with_reducible first | assumption | apply State.guard_held | apply State.regOp_held) | intro _ | dsimp only
theorem execSbc_held (c : Fin 33) (s : State) {u : State} (h : execSbc c s = .next u) : Held s u := by
  unfold execSbc at h
  simp only [Host.Outcome.next.injEq] at h
  have hc := held_refl s
  rw [← h]
  clear h
  repeat' first | (first | omega | ((simp +zetaDelta only [odKey, bankIdx, bankStatusSub, canIdx, dmaObj, instBase, launchIdx, coreIdx, dmaIdx, logBase, trigIdx] <;> (try split)) <;> omega)) | (with_reducible first | assumption | apply State.guard_held | apply State.regOp_held) | intro _ | dsimp only
theorem execAndReg_held (c : Fin 33) (s : State) {u : State} (h : execAndReg c s = .next u) : Held s u := by
  unfold execAndReg at h
  simp only [Host.Outcome.next.injEq] at h
  have hc := held_refl s
  rw [← h]
  clear h
  repeat' first | (first | omega | ((simp +zetaDelta only [odKey, bankIdx, bankStatusSub, canIdx, dmaObj, instBase, launchIdx, coreIdx, dmaIdx, logBase, trigIdx] <;> (try split)) <;> omega)) | (with_reducible first | assumption | apply State.guard_held | apply State.regOp_held) | intro _ | dsimp only
theorem execAndi_held (c : Fin 33) (s : State) {u : State} (h : execAndi c s = .next u) : Held s u := by
  unfold execAndi at h
  simp only [Host.Outcome.next.injEq] at h
  have hc := held_refl s
  rw [← h]
  clear h
  repeat' first | (first | omega | ((simp +zetaDelta only [odKey, bankIdx, bankStatusSub, canIdx, dmaObj, instBase, launchIdx, coreIdx, dmaIdx, logBase, trigIdx] <;> (try split)) <;> omega)) | (with_reducible first | assumption | apply State.guard_held | apply State.regOp_held) | intro _ | dsimp only
theorem execOrReg_held (c : Fin 33) (s : State) {u : State} (h : execOrReg c s = .next u) : Held s u := by
  unfold execOrReg at h
  simp only [Host.Outcome.next.injEq] at h
  have hc := held_refl s
  rw [← h]
  clear h
  repeat' first | (first | omega | ((simp +zetaDelta only [odKey, bankIdx, bankStatusSub, canIdx, dmaObj, instBase, launchIdx, coreIdx, dmaIdx, logBase, trigIdx] <;> (try split)) <;> omega)) | (with_reducible first | assumption | apply State.guard_held | apply State.regOp_held) | intro _ | dsimp only
theorem execOri_held (c : Fin 33) (s : State) {u : State} (h : execOri c s = .next u) : Held s u := by
  unfold execOri at h
  simp only [Host.Outcome.next.injEq] at h
  have hc := held_refl s
  rw [← h]
  clear h
  repeat' first | (first | omega | ((simp +zetaDelta only [odKey, bankIdx, bankStatusSub, canIdx, dmaObj, instBase, launchIdx, coreIdx, dmaIdx, logBase, trigIdx] <;> (try split)) <;> omega)) | (with_reducible first | assumption | apply State.guard_held | apply State.regOp_held) | intro _ | dsimp only
theorem execXor_held (c : Fin 33) (s : State) {u : State} (h : execXor c s = .next u) : Held s u := by
  unfold execXor at h
  simp only [Host.Outcome.next.injEq] at h
  have hc := held_refl s
  rw [← h]
  clear h
  repeat' first | (first | omega | ((simp +zetaDelta only [odKey, bankIdx, bankStatusSub, canIdx, dmaObj, instBase, launchIdx, coreIdx, dmaIdx, logBase, trigIdx] <;> (try split)) <;> omega)) | (with_reducible first | assumption | apply State.guard_held | apply State.regOp_held) | intro _ | dsimp only
theorem execXori_held (c : Fin 33) (s : State) {u : State} (h : execXori c s = .next u) : Held s u := by
  unfold execXori at h
  simp only [Host.Outcome.next.injEq] at h
  have hc := held_refl s
  rw [← h]
  clear h
  repeat' first | (first | omega | ((simp +zetaDelta only [odKey, bankIdx, bankStatusSub, canIdx, dmaObj, instBase, launchIdx, coreIdx, dmaIdx, logBase, trigIdx] <;> (try split)) <;> omega)) | (with_reducible first | assumption | apply State.guard_held | apply State.regOp_held) | intro _ | dsimp only
theorem execCmp_held (c : Fin 33) (s : State) {u : State} (h : execCmp c s = .next u) : Held s u := by
  unfold execCmp at h
  simp only [Host.Outcome.next.injEq] at h
  have hc := held_refl s
  rw [← h]
  clear h
  repeat' first | (first | omega | ((simp +zetaDelta only [odKey, bankIdx, bankStatusSub, canIdx, dmaObj, instBase, launchIdx, coreIdx, dmaIdx, logBase, trigIdx] <;> (try split)) <;> omega)) | (with_reducible first | assumption | apply State.guard_held | apply State.regOp_held) | intro _ | dsimp only
theorem execCmpi_held (c : Fin 33) (s : State) {u : State} (h : execCmpi c s = .next u) : Held s u := by
  unfold execCmpi at h
  simp only [Host.Outcome.next.injEq] at h
  have hc := held_refl s
  rw [← h]
  clear h
  repeat' first | (first | omega | ((simp +zetaDelta only [odKey, bankIdx, bankStatusSub, canIdx, dmaObj, instBase, launchIdx, coreIdx, dmaIdx, logBase, trigIdx] <;> (try split)) <;> omega)) | (with_reducible first | assumption | apply State.guard_held | apply State.regOp_held) | intro _ | dsimp only
theorem execMul_held (c : Fin 33) (s : State) {u : State} (h : execMul c s = .next u) : Held s u := by
  unfold execMul at h
  simp only [Host.Outcome.next.injEq] at h
  have hc := held_refl s
  rw [← h]
  clear h
  repeat' first | (first | omega | ((simp +zetaDelta only [odKey, bankIdx, bankStatusSub, canIdx, dmaObj, instBase, launchIdx, coreIdx, dmaIdx, logBase, trigIdx] <;> (try split)) <;> omega)) | (with_reducible first | assumption | apply State.guard_held | apply State.regOp_held) | intro _ | dsimp only
theorem execLui_held (c : Fin 33) (s : State) {u : State} (h : execLui c s = .next u) : Held s u := by
  unfold execLui at h
  simp only [Host.Outcome.next.injEq] at h
  have hc := held_refl s
  rw [← h]
  clear h
  repeat' first | (first | omega | ((simp +zetaDelta only [odKey, bankIdx, bankStatusSub, canIdx, dmaObj, instBase, launchIdx, coreIdx, dmaIdx, logBase, trigIdx] <;> (try split)) <;> omega)) | (with_reducible first | assumption | apply State.guard_held | apply State.regOp_held) | intro _ | dsimp only
theorem execMovi_held (c : Fin 33) (s : State) {u : State} (h : execMovi c s = .next u) : Held s u := by
  unfold execMovi at h
  simp only [Host.Outcome.next.injEq] at h
  have hc := held_refl s
  rw [← h]
  clear h
  repeat' first | (first | omega | ((simp +zetaDelta only [odKey, bankIdx, bankStatusSub, canIdx, dmaObj, instBase, launchIdx, coreIdx, dmaIdx, logBase, trigIdx] <;> (try split)) <;> omega)) | (with_reducible first | assumption | apply State.guard_held | apply State.regOp_held) | intro _ | dsimp only
theorem execShl_held (c : Fin 33) (s : State) {u : State} (h : execShl c s = .next u) : Held s u := by
  unfold execShl at h
  simp only [Host.Outcome.next.injEq] at h
  have hc := held_refl s
  rw [← h]
  clear h
  repeat' first | (first | omega | ((simp +zetaDelta only [odKey, bankIdx, bankStatusSub, canIdx, dmaObj, instBase, launchIdx, coreIdx, dmaIdx, logBase, trigIdx] <;> (try split)) <;> omega)) | (with_reducible first | assumption | apply State.guard_held | apply State.regOp_held) | intro _ | dsimp only
theorem execShr_held (c : Fin 33) (s : State) {u : State} (h : execShr c s = .next u) : Held s u := by
  unfold execShr at h
  simp only [Host.Outcome.next.injEq] at h
  have hc := held_refl s
  rw [← h]
  clear h
  repeat' first | (first | omega | ((simp +zetaDelta only [odKey, bankIdx, bankStatusSub, canIdx, dmaObj, instBase, launchIdx, coreIdx, dmaIdx, logBase, trigIdx] <;> (try split)) <;> omega)) | (with_reducible first | assumption | apply State.guard_held | apply State.regOp_held) | intro _ | dsimp only
theorem execSar_held (c : Fin 33) (s : State) {u : State} (h : execSar c s = .next u) : Held s u := by
  unfold execSar at h
  simp only [Host.Outcome.next.injEq] at h
  have hc := held_refl s
  rw [← h]
  clear h
  repeat' first | (first | omega | ((simp +zetaDelta only [odKey, bankIdx, bankStatusSub, canIdx, dmaObj, instBase, launchIdx, coreIdx, dmaIdx, logBase, trigIdx] <;> (try split)) <;> omega)) | (with_reducible first | assumption | apply State.guard_held | apply State.regOp_held) | intro _ | dsimp only
theorem execRor_held (c : Fin 33) (s : State) {u : State} (h : execRor c s = .next u) : Held s u := by
  unfold execRor at h
  simp only [Host.Outcome.next.injEq] at h
  have hc := held_refl s
  rw [← h]
  clear h
  repeat' first | (first | omega | ((simp +zetaDelta only [odKey, bankIdx, bankStatusSub, canIdx, dmaObj, instBase, launchIdx, coreIdx, dmaIdx, logBase, trigIdx] <;> (try split)) <;> omega)) | (with_reducible first | assumption | apply State.guard_held | apply State.regOp_held) | intro _ | dsimp only
theorem execExt_held (c : Fin 33) (s : State) {u : State} (h : execExt c s = .next u) : Held s u := by
  unfold execExt at h
  simp only [Host.Outcome.next.injEq] at h
  have hc := held_refl s
  rw [← h]
  clear h
  repeat' first | (first | omega | ((simp +zetaDelta only [odKey, bankIdx, bankStatusSub, canIdx, dmaObj, instBase, launchIdx, coreIdx, dmaIdx, logBase, trigIdx] <;> (try split)) <;> omega)) | (with_reducible first | assumption | apply State.guard_held | apply State.regOp_held) | intro _ | dsimp only
theorem execIns_held (c : Fin 33) (s : State) {u : State} (h : execIns c s = .next u) : Held s u := by
  unfold execIns at h
  simp only [Host.Outcome.next.injEq] at h
  have hc := held_refl s
  rw [← h]
  clear h
  repeat' first | (first | omega | ((simp +zetaDelta only [odKey, bankIdx, bankStatusSub, canIdx, dmaObj, instBase, launchIdx, coreIdx, dmaIdx, logBase, trigIdx] <;> (try split)) <;> omega)) | (with_reducible first | assumption | apply State.guard_held | apply State.regOp_held) | intro _ | dsimp only
theorem execNswap_held (c : Fin 33) (s : State) {u : State} (h : execNswap c s = .next u) : Held s u := by
  unfold execNswap at h
  simp only [Host.Outcome.next.injEq] at h
  have hc := held_refl s
  rw [← h]
  clear h
  repeat' first | (first | omega | ((simp +zetaDelta only [odKey, bankIdx, bankStatusSub, canIdx, dmaObj, instBase, launchIdx, coreIdx, dmaIdx, logBase, trigIdx] <;> (try split)) <;> omega)) | (with_reducible first | assumption | apply State.guard_held | apply State.regOp_held) | intro _ | dsimp only
theorem execBswap16_held (c : Fin 33) (s : State) {u : State} (h : execBswap16 c s = .next u) : Held s u := by
  unfold execBswap16 at h
  simp only [Host.Outcome.next.injEq] at h
  have hc := held_refl s
  rw [← h]
  clear h
  repeat' first | (first | omega | ((simp +zetaDelta only [odKey, bankIdx, bankStatusSub, canIdx, dmaObj, instBase, launchIdx, coreIdx, dmaIdx, logBase, trigIdx] <;> (try split)) <;> omega)) | (with_reducible first | assumption | apply State.guard_held | apply State.regOp_held) | intro _ | dsimp only
theorem execBswap32_held (c : Fin 33) (s : State) {u : State} (h : execBswap32 c s = .next u) : Held s u := by
  unfold execBswap32 at h
  simp only [Host.Outcome.next.injEq] at h
  have hc := held_refl s
  rw [← h]
  clear h
  repeat' first | (first | omega | ((simp +zetaDelta only [odKey, bankIdx, bankStatusSub, canIdx, dmaObj, instBase, launchIdx, coreIdx, dmaIdx, logBase, trigIdx] <;> (try split)) <;> omega)) | (with_reducible first | assumption | apply State.guard_held | apply State.regOp_held) | intro _ | dsimp only
theorem execClz_held (c : Fin 33) (s : State) {u : State} (h : execClz c s = .next u) : Held s u := by
  unfold execClz at h
  simp only [Host.Outcome.next.injEq] at h
  have hc := held_refl s
  rw [← h]
  clear h
  repeat' first | (first | omega | ((simp +zetaDelta only [odKey, bankIdx, bankStatusSub, canIdx, dmaObj, instBase, launchIdx, coreIdx, dmaIdx, logBase, trigIdx] <;> (try split)) <;> omega)) | (with_reducible first | assumption | apply State.guard_held | apply State.regOp_held) | intro _ | dsimp only
theorem execPopc_held (c : Fin 33) (s : State) {u : State} (h : execPopc c s = .next u) : Held s u := by
  unfold execPopc at h
  simp only [Host.Outcome.next.injEq] at h
  have hc := held_refl s
  rw [← h]
  clear h
  repeat' first | (first | omega | ((simp +zetaDelta only [odKey, bankIdx, bankStatusSub, canIdx, dmaObj, instBase, launchIdx, coreIdx, dmaIdx, logBase, trigIdx] <;> (try split)) <;> omega)) | (with_reducible first | assumption | apply State.guard_held | apply State.regOp_held) | intro _ | dsimp only
theorem execNotReg_held (c : Fin 33) (s : State) {u : State} (h : execNotReg c s = .next u) : Held s u := by
  unfold execNotReg at h
  simp only [Host.Outcome.next.injEq] at h
  have hc := held_refl s
  rw [← h]
  clear h
  repeat' first | (first | omega | ((simp +zetaDelta only [odKey, bankIdx, bankStatusSub, canIdx, dmaObj, instBase, launchIdx, coreIdx, dmaIdx, logBase, trigIdx] <;> (try split)) <;> omega)) | (with_reducible first | assumption | apply State.guard_held | apply State.regOp_held) | intro _ | dsimp only
theorem execNeg_held (c : Fin 33) (s : State) {u : State} (h : execNeg c s = .next u) : Held s u := by
  unfold execNeg at h
  simp only [Host.Outcome.next.injEq] at h
  have hc := held_refl s
  rw [← h]
  clear h
  repeat' first | (first | omega | ((simp +zetaDelta only [odKey, bankIdx, bankStatusSub, canIdx, dmaObj, instBase, launchIdx, coreIdx, dmaIdx, logBase, trigIdx] <;> (try split)) <;> omega)) | (with_reducible first | assumption | apply State.guard_held | apply State.regOp_held) | intro _ | dsimp only
theorem execSext8_held (c : Fin 33) (s : State) {u : State} (h : execSext8 c s = .next u) : Held s u := by
  unfold execSext8 at h
  simp only [Host.Outcome.next.injEq] at h
  have hc := held_refl s
  rw [← h]
  clear h
  repeat' first | (first | omega | ((simp +zetaDelta only [odKey, bankIdx, bankStatusSub, canIdx, dmaObj, instBase, launchIdx, coreIdx, dmaIdx, logBase, trigIdx] <;> (try split)) <;> omega)) | (with_reducible first | assumption | apply State.guard_held | apply State.regOp_held) | intro _ | dsimp only
theorem execSext16_held (c : Fin 33) (s : State) {u : State} (h : execSext16 c s = .next u) : Held s u := by
  unfold execSext16 at h
  simp only [Host.Outcome.next.injEq] at h
  have hc := held_refl s
  rw [← h]
  clear h
  repeat' first | (first | omega | ((simp +zetaDelta only [odKey, bankIdx, bankStatusSub, canIdx, dmaObj, instBase, launchIdx, coreIdx, dmaIdx, logBase, trigIdx] <;> (try split)) <;> omega)) | (with_reducible first | assumption | apply State.guard_held | apply State.regOp_held) | intro _ | dsimp only
theorem execLdl_held (c : Fin 33) (s : State) {u : State} (h : execLdl c s = .next u) : Held s u := by
  unfold execLdl at h
  simp only [Host.Outcome.next.injEq] at h
  have hc := held_refl s
  rw [← h]
  clear h
  repeat' first | (first | omega | ((simp +zetaDelta only [odKey, bankIdx, bankStatusSub, canIdx, dmaObj, instBase, launchIdx, coreIdx, dmaIdx, logBase, trigIdx] <;> (try split)) <;> omega)) | (with_reducible first | assumption | apply State.doLdl_held | apply State.guard_held | apply State.runOp_held) | intro _ | dsimp only
theorem execStl_held (c : Fin 33) (s : State) {u : State} (h : execStl c s = .next u) : Held s u := by
  unfold execStl at h
  simp only [Host.Outcome.next.injEq] at h
  have hc := held_refl s
  rw [← h]
  clear h
  repeat' first | (first | omega | ((simp +zetaDelta only [odKey, bankIdx, bankStatusSub, canIdx, dmaObj, instBase, launchIdx, coreIdx, dmaIdx, logBase, trigIdx] <;> (try split)) <;> omega)) | (with_reducible first | assumption | apply State.doStl_held | apply State.guard_held | apply State.runOp_held) | intro _ | dsimp only
theorem execLdf_held (c : Fin 33) (s : State) {u : State} (h : execLdf c s = .next u) : Held s u := by
  unfold execLdf at h
  simp only [Host.Outcome.next.injEq] at h
  have hc := held_refl s
  rw [← h]
  clear h
  repeat' first | (first | omega | ((simp +zetaDelta only [odKey, bankIdx, bankStatusSub, canIdx, dmaObj, instBase, launchIdx, coreIdx, dmaIdx, logBase, trigIdx] <;> (try split)) <;> omega)) | (with_reducible first | assumption | apply State.doLdf_held | apply State.guard_held | apply State.runOp_held) | intro _ | dsimp only
theorem execStf_held (c : Fin 33) (s : State) {u : State} (h : execStf c s = .next u) : Held s u := by
  unfold execStf at h
  simp only [Host.Outcome.next.injEq] at h
  have hc := held_refl s
  rw [← h]
  clear h
  repeat' first | (first | omega | ((simp +zetaDelta only [odKey, bankIdx, bankStatusSub, canIdx, dmaObj, instBase, launchIdx, coreIdx, dmaIdx, logBase, trigIdx] <;> (try split)) <;> omega)) | (with_reducible first | assumption | apply State.doStf_held | apply State.guard_held | apply State.runOp_held) | intro _ | dsimp only
theorem execLdx_held (c : Fin 33) (s : State) {u : State} (h : execLdx c s = .next u) : Held s u := by
  unfold execLdx at h
  simp only [Host.Outcome.next.injEq] at h
  have hc := held_refl s
  rw [← h]
  clear h
  repeat' first | (first | omega | ((simp +zetaDelta only [odKey, bankIdx, bankStatusSub, canIdx, dmaObj, instBase, launchIdx, coreIdx, dmaIdx, logBase, trigIdx] <;> (try split)) <;> omega)) | (with_reducible first | assumption | apply State.doLdx_held | apply State.guard_held | apply State.runOp_held) | intro _ | dsimp only
theorem execStx_held (c : Fin 33) (s : State) {u : State} (h : execStx c s = .next u) : Held s u := by
  unfold execStx at h
  simp only [Host.Outcome.next.injEq] at h
  have hc := held_refl s
  rw [← h]
  clear h
  repeat' first | (first | omega | ((simp +zetaDelta only [odKey, bankIdx, bankStatusSub, canIdx, dmaObj, instBase, launchIdx, coreIdx, dmaIdx, logBase, trigIdx] <;> (try split)) <;> omega)) | (with_reducible first | assumption | apply State.doStx_held | apply State.guard_held | apply State.runOp_held) | intro _ | dsimp only
theorem execFaddF_held (c : Fin 33) (s : State) {u : State} (h : execFaddF c s = .next u) : Held s u := by
  unfold execFaddF at h
  simp only [Host.Outcome.next.injEq] at h
  have hc := held_refl s
  rw [← h]
  clear h
  repeat' first | (first | omega | ((simp +zetaDelta only [odKey, bankIdx, bankStatusSub, canIdx, dmaObj, instBase, launchIdx, coreIdx, dmaIdx, logBase, trigIdx] <;> (try split)) <;> omega)) | (with_reducible first | assumption | apply State.doAtomF_held | apply State.guard_held | apply State.runOp_held) | intro _ | dsimp only
theorem execSwapF_held (c : Fin 33) (s : State) {u : State} (h : execSwapF c s = .next u) : Held s u := by
  unfold execSwapF at h
  simp only [Host.Outcome.next.injEq] at h
  have hc := held_refl s
  rw [← h]
  clear h
  repeat' first | (first | omega | ((simp +zetaDelta only [odKey, bankIdx, bankStatusSub, canIdx, dmaObj, instBase, launchIdx, coreIdx, dmaIdx, logBase, trigIdx] <;> (try split)) <;> omega)) | (with_reducible first | assumption | apply State.doAtomF_held | apply State.guard_held | apply State.runOp_held) | intro _ | dsimp only
theorem execFaddX_held (c : Fin 33) (s : State) {u : State} (h : execFaddX c s = .next u) : Held s u := by
  unfold execFaddX at h
  simp only [Host.Outcome.next.injEq] at h
  have hc := held_refl s
  rw [← h]
  clear h
  repeat' first | (first | omega | ((simp +zetaDelta only [odKey, bankIdx, bankStatusSub, canIdx, dmaObj, instBase, launchIdx, coreIdx, dmaIdx, logBase, trigIdx] <;> (try split)) <;> omega)) | (with_reducible first | assumption | apply State.doAtomX_held | apply State.guard_held | apply State.runOp_held) | intro _ | dsimp only
theorem execSwapX_held (c : Fin 33) (s : State) {u : State} (h : execSwapX c s = .next u) : Held s u := by
  unfold execSwapX at h
  simp only [Host.Outcome.next.injEq] at h
  have hc := held_refl s
  rw [← h]
  clear h
  repeat' first | (first | omega | ((simp +zetaDelta only [odKey, bankIdx, bankStatusSub, canIdx, dmaObj, instBase, launchIdx, coreIdx, dmaIdx, logBase, trigIdx] <;> (try split)) <;> omega)) | (with_reducible first | assumption | apply State.doAtomX_held | apply State.guard_held | apply State.runOp_held) | intro _ | dsimp only
theorem execFence_held (c : Fin 33) (s : State) {u : State} (h : execFence c s = .next u) : Held s u := by
  unfold execFence at h
  simp only [Host.Outcome.next.injEq] at h
  have hc := held_refl s
  rw [← h]
  clear h
  repeat' first | (first | omega | ((simp +zetaDelta only [odKey, bankIdx, bankStatusSub, canIdx, dmaObj, instBase, launchIdx, coreIdx, dmaIdx, logBase, trigIdx] <;> (try split)) <;> omega)) | (with_reducible first | assumption | apply State.doFence_held | apply State.guard_held | apply State.runOp_held) | intro _ | dsimp only
theorem execBCond_held (c : Fin 33) (s : State) {u : State} (h : execBCond c s = .next u) : Held s u := by
  unfold execBCond at h
  simp only [Host.Outcome.next.injEq] at h
  have hc := held_refl s
  rw [← h]
  clear h
  repeat' first | (first | omega | ((simp +zetaDelta only [odKey, bankIdx, bankStatusSub, canIdx, dmaObj, instBase, launchIdx, coreIdx, dmaIdx, logBase, trigIdx] <;> (try split)) <;> omega)) | (with_reducible first | assumption | apply held_ite | apply State.finish_held | apply State.guard_held | apply State.jump_held | apply State.runOp_held) | intro _ | dsimp only
theorem execCall_held (c : Fin 33) (s : State) {u : State} (h : execCall c s = .next u) : Held s u := by
  unfold execCall at h
  simp only [Host.Outcome.next.injEq] at h
  have hc := held_refl s
  rw [← h]
  clear h
  repeat' first | (first | omega | ((simp +zetaDelta only [odKey, bankIdx, bankStatusSub, canIdx, dmaObj, instBase, launchIdx, coreIdx, dmaIdx, logBase, trigIdx] <;> (try split)) <;> omega)) | (with_reducible first | assumption | apply held_ite | apply State.guard_held | apply State.jump_held | apply State.linked_held | apply State.runOp_held) | intro _ | dsimp only
theorem execJr_held (c : Fin 33) (s : State) {u : State} (h : execJr c s = .next u) : Held s u := by
  unfold execJr at h
  simp only [Host.Outcome.next.injEq] at h
  have hc := held_refl s
  rw [← h]
  clear h
  repeat' first | (first | omega | ((simp +zetaDelta only [odKey, bankIdx, bankStatusSub, canIdx, dmaObj, instBase, launchIdx, coreIdx, dmaIdx, logBase, trigIdx] <;> (try split)) <;> omega)) | (with_reducible first | assumption | apply State.guard_held | apply State.jump_held | apply State.runOp_held) | intro _ | dsimp only
theorem execCallr_held (c : Fin 33) (s : State) {u : State} (h : execCallr c s = .next u) : Held s u := by
  unfold execCallr at h
  simp only [Host.Outcome.next.injEq] at h
  have hc := held_refl s
  rw [← h]
  clear h
  repeat' first | (first | omega | ((simp +zetaDelta only [odKey, bankIdx, bankStatusSub, canIdx, dmaObj, instBase, launchIdx, coreIdx, dmaIdx, logBase, trigIdx] <;> (try split)) <;> omega)) | (with_reducible first | assumption | apply held_ite | apply State.guard_held | apply State.jump_held | apply State.linked_held | apply State.runOp_held) | intro _ | dsimp only
theorem execCbz_held (c : Fin 33) (s : State) {u : State} (h : execCbz c s = .next u) : Held s u := by
  unfold execCbz at h
  simp only [Host.Outcome.next.injEq] at h
  have hc := held_refl s
  rw [← h]
  clear h
  repeat' first | (first | omega | ((simp +zetaDelta only [odKey, bankIdx, bankStatusSub, canIdx, dmaObj, instBase, launchIdx, coreIdx, dmaIdx, logBase, trigIdx] <;> (try split)) <;> omega)) | (with_reducible first | assumption | apply held_ite | apply State.finish_held | apply State.guard_held | apply State.jump_held | apply State.runOp_held) | intro _ | dsimp only
theorem execCbnz_held (c : Fin 33) (s : State) {u : State} (h : execCbnz c s = .next u) : Held s u := by
  unfold execCbnz at h
  simp only [Host.Outcome.next.injEq] at h
  have hc := held_refl s
  rw [← h]
  clear h
  repeat' first | (first | omega | ((simp +zetaDelta only [odKey, bankIdx, bankStatusSub, canIdx, dmaObj, instBase, launchIdx, coreIdx, dmaIdx, logBase, trigIdx] <;> (try split)) <;> omega)) | (with_reducible first | assumption | apply held_ite | apply State.finish_held | apply State.guard_held | apply State.jump_held | apply State.runOp_held) | intro _ | dsimp only
theorem execHalt_held (c : Fin 33) (s : State) {u : State} (h : execHalt c s = .next u) : Held s u := by
  unfold execHalt at h
  simp only [Host.Outcome.next.injEq] at h
  have hc := held_refl s
  rw [← h]
  clear h
  repeat' first | (first | omega | ((simp +zetaDelta only [odKey, bankIdx, bankStatusSub, canIdx, dmaObj, instBase, launchIdx, coreIdx, dmaIdx, logBase, trigIdx] <;> (try split)) <;> omega)) | (with_reducible first | assumption | apply State.doHaltInsn_held | apply State.guard_held | apply State.runOp_held) | intro _ | dsimp only
theorem execNop_held (c : Fin 33) (s : State) {u : State} (h : execNop c s = .next u) : Held s u := by
  unfold execNop at h
  simp only [Host.Outcome.next.injEq] at h
  have hc := held_refl s
  rw [← h]
  clear h
  repeat' first | (first | omega | ((simp +zetaDelta only [odKey, bankIdx, bankStatusSub, canIdx, dmaObj, instBase, launchIdx, coreIdx, dmaIdx, logBase, trigIdx] <;> (try split)) <;> omega)) | (with_reducible first | assumption | apply State.finish_held | apply State.guard_held | apply State.runOp_held) | intro _ | dsimp only
theorem execHbeat_held (c : Fin 33) (s : State) {u : State} (h : execHbeat c s = .next u) : Held s u := by
  unfold execHbeat at h
  simp only [Host.Outcome.next.injEq] at h
  have hc := held_refl s
  rw [← h]
  clear h
  repeat' first | (first | omega | ((simp +zetaDelta only [odKey, bankIdx, bankStatusSub, canIdx, dmaObj, instBase, launchIdx, coreIdx, dmaIdx, logBase, trigIdx] <;> (try split)) <;> omega)) | (with_reducible first | assumption | apply State.cnt_held | apply State.finish_held | apply State.guard_held | apply State.runOp_held) | intro _ | dsimp only
theorem execTake_held (c : Fin 33) (s : State) {u : State} (h : execTake c s = .next u) : Held s u := by
  unfold execTake at h
  simp only [Host.Outcome.next.injEq] at h
  have hc := held_refl s
  rw [← h]
  clear h
  repeat' first | (first | omega | ((simp +zetaDelta only [odKey, bankIdx, bankStatusSub, canIdx, dmaObj, instBase, launchIdx, coreIdx, dmaIdx, logBase, trigIdx] <;> (try split)) <;> omega)) | (with_reducible first | assumption | apply State.doTake_held | apply State.guard_held | apply State.runOp_held) | intro _ | dsimp only
theorem execPeek_held (c : Fin 33) (s : State) {u : State} (h : execPeek c s = .next u) : Held s u := by
  unfold execPeek at h
  simp only [Host.Outcome.next.injEq] at h
  have hc := held_refl s
  rw [← h]
  clear h
  repeat' first | (first | omega | ((simp +zetaDelta only [odKey, bankIdx, bankStatusSub, canIdx, dmaObj, instBase, launchIdx, coreIdx, dmaIdx, logBase, trigIdx] <;> (try split)) <;> omega)) | (with_reducible first | assumption | apply State.doPeek_held | apply State.guard_held | apply State.runOp_held) | intro _ | dsimp only
theorem execMatchLane_held (c : Fin 33) (s : State) {u : State} (h : execMatchLane c s = .next u) : Held s u := by
  unfold execMatchLane at h
  simp only [Host.Outcome.next.injEq] at h
  have hc := held_refl s
  rw [← h]
  clear h
  repeat' first | (first | omega | ((simp +zetaDelta only [odKey, bankIdx, bankStatusSub, canIdx, dmaObj, instBase, launchIdx, coreIdx, dmaIdx, logBase, trigIdx] <;> (try split)) <;> omega)) | (with_reducible first | assumption | apply State.doMatch_held | apply State.guard_held | apply State.runOp_held) | intro _ | dsimp only
theorem execSkip_held (c : Fin 33) (s : State) {u : State} (h : execSkip c s = .next u) : Held s u := by
  unfold execSkip at h
  simp only [Host.Outcome.next.injEq] at h
  have hc := held_refl s
  rw [← h]
  clear h
  repeat' first | (first | omega | ((simp +zetaDelta only [odKey, bankIdx, bankStatusSub, canIdx, dmaObj, instBase, launchIdx, coreIdx, dmaIdx, logBase, trigIdx] <;> (try split)) <;> omega)) | (with_reducible first | assumption | apply State.guard_held | apply State.regOp_held) | intro _ | dsimp only
theorem execSkipf_held (c : Fin 33) (s : State) {u : State} (h : execSkipf c s = .next u) : Held s u := by
  unfold execSkipf at h
  simp only [Host.Outcome.next.injEq] at h
  have hc := held_refl s
  rw [← h]
  clear h
  repeat' first | (first | omega | ((simp +zetaDelta only [odKey, bankIdx, bankStatusSub, canIdx, dmaObj, instBase, launchIdx, coreIdx, dmaIdx, logBase, trigIdx] <;> (try split)) <;> omega)) | (with_reducible first | assumption | apply State.guard_held | apply State.regOp_held) | simp only [held_same] | intro _ | dsimp only
theorem execMark_held (c : Fin 33) (s : State) {u : State} (h : execMark c s = .next u) : Held s u := by
  unfold execMark at h
  simp only [Host.Outcome.next.injEq] at h
  have hc := held_refl s
  rw [← h]
  clear h
  repeat' first | (first | omega | ((simp +zetaDelta only [odKey, bankIdx, bankStatusSub, canIdx, dmaObj, instBase, launchIdx, coreIdx, dmaIdx, logBase, trigIdx] <;> (try split)) <;> omega)) | (with_reducible first | assumption | apply State.doMark_held | apply State.guard_held | apply State.runOp_held) | intro _ | dsimp only
theorem execGive_held (c : Fin 33) (s : State) {u : State} (h : execGive c s = .next u) : Held s u := by
  unfold execGive at h
  simp only [Host.Outcome.next.injEq] at h
  have hc := held_refl s
  rw [← h]
  clear h
  repeat' first | (first | omega | ((simp +zetaDelta only [odKey, bankIdx, bankStatusSub, canIdx, dmaObj, instBase, launchIdx, coreIdx, dmaIdx, logBase, trigIdx] <;> (try split)) <;> omega)) | (with_reducible first | assumption | apply State.doGive_held | apply State.guard_held | apply State.runOp_held) | intro _ | dsimp only
theorem execGend_held (c : Fin 33) (s : State) {u : State} (h : execGend c s = .next u) : Held s u := by
  unfold execGend at h
  simp only [Host.Outcome.next.injEq] at h
  have hc := held_refl s
  rw [← h]
  clear h
  repeat' first | (first | omega | ((simp +zetaDelta only [odKey, bankIdx, bankStatusSub, canIdx, dmaObj, instBase, launchIdx, coreIdx, dmaIdx, logBase, trigIdx] <;> (try split)) <;> omega)) | (with_reducible first | assumption | apply State.doGend_held | apply State.guard_held | apply State.runOp_held) | intro _ | dsimp only
theorem execLstat_held (c : Fin 33) (s : State) {u : State} (h : execLstat c s = .next u) : Held s u := by
  unfold execLstat at h
  simp only [Host.Outcome.next.injEq] at h
  have hc := held_refl s
  rw [← h]
  clear h
  repeat' first | (first | omega | ((simp +zetaDelta only [odKey, bankIdx, bankStatusSub, canIdx, dmaObj, instBase, launchIdx, coreIdx, dmaIdx, logBase, trigIdx] <;> (try split)) <;> omega)) | (with_reducible first | assumption | apply State.guard_held | apply State.regOp_held) | intro _ | dsimp only
theorem execCrcInit_held (c : Fin 33) (s : State) {u : State} (h : execCrcInit c s = .next u) : Held s u := by
  unfold execCrcInit at h
  simp only [Host.Outcome.next.injEq] at h
  have hc := held_refl s
  rw [← h]
  clear h
  repeat' first | (first | omega | ((simp +zetaDelta only [odKey, bankIdx, bankStatusSub, canIdx, dmaObj, instBase, launchIdx, coreIdx, dmaIdx, logBase, trigIdx] <;> (try split)) <;> omega)) | (with_reducible first | assumption | apply State.guard_held | apply State.regOp_held) | simp only [held_same] | intro _ | dsimp only
theorem execCrcFold_held (c : Fin 33) (s : State) {u : State} (h : execCrcFold c s = .next u) : Held s u := by
  unfold execCrcFold at h
  simp only [Host.Outcome.next.injEq] at h
  have hc := held_refl s
  rw [← h]
  clear h
  repeat' first | (first | omega | ((simp +zetaDelta only [odKey, bankIdx, bankStatusSub, canIdx, dmaObj, instBase, launchIdx, coreIdx, dmaIdx, logBase, trigIdx] <;> (try split)) <;> omega)) | (with_reducible first | assumption | apply held_ite | apply State.exception_held | apply State.finishWith_held | apply State.guard_held | apply State.runOp_held) | simp only [held_same] | intro _ | dsimp only
theorem execCrcRead_held (c : Fin 33) (s : State) {u : State} (h : execCrcRead c s = .next u) : Held s u := by
  unfold execCrcRead at h
  simp only [Host.Outcome.next.injEq] at h
  have hc := held_refl s
  rw [← h]
  clear h
  repeat' first | (first | omega | ((simp +zetaDelta only [odKey, bankIdx, bankStatusSub, canIdx, dmaObj, instBase, launchIdx, coreIdx, dmaIdx, logBase, trigIdx] <;> (try split)) <;> omega)) | (with_reducible first | assumption | apply State.guard_held | apply State.regOp_held) | intro _ | dsimp only
theorem execCrcWrite_held (c : Fin 33) (s : State) {u : State} (h : execCrcWrite c s = .next u) : Held s u := by
  unfold execCrcWrite at h
  simp only [Host.Outcome.next.injEq] at h
  have hc := held_refl s
  rw [← h]
  clear h
  repeat' first | (first | omega | ((simp +zetaDelta only [odKey, bankIdx, bankStatusSub, canIdx, dmaObj, instBase, launchIdx, coreIdx, dmaIdx, logBase, trigIdx] <;> (try split)) <;> omega)) | (with_reducible first | assumption | apply State.guard_held | apply State.regOp_held) | simp only [held_same] | intro _ | dsimp only
theorem execCrcTap_held (c : Fin 33) (s : State) {u : State} (h : execCrcTap c s = .next u) : Held s u := by
  unfold execCrcTap at h
  simp only [Host.Outcome.next.injEq] at h
  have hc := held_refl s
  rw [← h]
  clear h
  repeat' first | (first | omega | ((simp +zetaDelta only [odKey, bankIdx, bankStatusSub, canIdx, dmaObj, instBase, launchIdx, coreIdx, dmaIdx, logBase, trigIdx] <;> (try split)) <;> omega)) | (with_reducible first | assumption | apply State.guard_held | apply State.regOp_held) | simp only [held_same] | intro _ | dsimp only
theorem execTimeRead_held (c : Fin 33) (dt : Nat) (s : State) {u : State} (h : execTimeRead c dt s = .next u) : Held s u := by
  unfold execTimeRead at h
  simp only [Host.Outcome.next.injEq] at h
  have hc := held_refl s
  rw [← h]
  clear h
  repeat' first | (first | omega | ((simp +zetaDelta only [odKey, bankIdx, bankStatusSub, canIdx, dmaObj, instBase, launchIdx, coreIdx, dmaIdx, logBase, trigIdx] <;> (try split)) <;> omega)) | (with_reducible first | assumption | apply State.advance_held | apply State.finishWith_held | apply State.guard_held | apply State.runOp_held) | simp only [held_same] | intro _ | dsimp only
theorem execTimeh_held (c : Fin 33) (s : State) {u : State} (h : execTimeh c s = .next u) : Held s u := by
  unfold execTimeh at h
  simp only [Host.Outcome.next.injEq] at h
  have hc := held_refl s
  rw [← h]
  clear h
  repeat' first | (first | omega | ((simp +zetaDelta only [odKey, bankIdx, bankStatusSub, canIdx, dmaObj, instBase, launchIdx, coreIdx, dmaIdx, logBase, trigIdx] <;> (try split)) <;> omega)) | (with_reducible first | assumption | apply State.guard_held | apply State.regOp_held) | intro _ | dsimp only
theorem execTwait_held (c : Fin 33) (dt : Nat) (s : State) {u : State} (h : execTwait c dt s = .next u) : Held s u := by
  unfold execTwait at h
  simp only [Host.Outcome.next.injEq] at h
  have hc := held_refl s
  rw [← h]
  clear h
  repeat' first | (first | omega | ((simp +zetaDelta only [odKey, bankIdx, bankStatusSub, canIdx, dmaObj, instBase, launchIdx, coreIdx, dmaIdx, logBase, trigIdx] <;> (try split)) <;> omega)) | (with_reducible first | assumption | apply State.advance_held | apply State.doTwait_held | apply State.guard_held | apply State.runOp_held) | intro _ | dsimp only
theorem execEwait_held (c : Fin 33) (s : State) {u : State} (h : execEwait c s = .next u) : Held s u := by
  unfold execEwait at h
  simp only [Host.Outcome.next.injEq] at h
  have hc := held_refl s
  rw [← h]
  clear h
  repeat' first | (first | omega | ((simp +zetaDelta only [odKey, bankIdx, bankStatusSub, canIdx, dmaObj, instBase, launchIdx, coreIdx, dmaIdx, logBase, trigIdx] <;> (try split)) <;> omega)) | (with_reducible first | assumption | apply State.doEwait_held | apply State.guard_held | apply State.runOp_held) | intro _ | dsimp only
theorem execEwaitTimeout_held (c : Fin 33) (dt : Nat) (s : State) {u : State} (h : execEwaitTimeout c dt s = .next u) : Held s u := by
  unfold execEwaitTimeout at h
  simp only [Host.Outcome.next.injEq] at h
  have hc := held_refl s
  rw [← h]
  clear h
  repeat' first | (first | omega | ((simp +zetaDelta only [odKey, bankIdx, bankStatusSub, canIdx, dmaObj, instBase, launchIdx, coreIdx, dmaIdx, logBase, trigIdx] <;> (try split)) <;> omega)) | (with_reducible first | assumption | apply State.advance_held | apply State.doEwaitT_held | apply State.guard_held | apply State.runOp_held) | intro _ | dsimp only
theorem execEpoll_held (c : Fin 33) (s : State) {u : State} (h : execEpoll c s = .next u) : Held s u := by
  unfold execEpoll at h
  simp only [Host.Outcome.next.injEq] at h
  have hc := held_refl s
  rw [← h]
  clear h
  repeat' first | (first | omega | ((simp +zetaDelta only [odKey, bankIdx, bankStatusSub, canIdx, dmaObj, instBase, launchIdx, coreIdx, dmaIdx, logBase, trigIdx] <;> (try split)) <;> omega)) | (with_reducible first | assumption | apply State.giveEvents_held | apply State.guard_held | apply State.runOp_held) | intro _ | dsimp only
theorem execLock_held (c : Fin 33) (s : State) {u : State} (h : execLock c s = .next u) : Held s u := by
  unfold execLock at h
  simp only [Host.Outcome.next.injEq] at h
  have hc := held_refl s
  rw [← h]
  clear h
  repeat' first | (first | omega | ((simp +zetaDelta only [odKey, bankIdx, bankStatusSub, canIdx, dmaObj, instBase, launchIdx, coreIdx, dmaIdx, logBase, trigIdx] <;> (try split)) <;> omega)) | (with_reducible first | assumption | apply State.afterStores_held | apply State.doLock_held | apply State.guard_held | apply State.runOp_held) | intro _ | dsimp only
theorem execUnlock_held (c : Fin 33) (s : State) {u : State} (h : execUnlock c s = .next u) : Held s u := by
  unfold execUnlock at h
  simp only [Host.Outcome.next.injEq] at h
  have hc := held_refl s
  rw [← h]
  clear h
  repeat' first | (first | omega | ((simp +zetaDelta only [odKey, bankIdx, bankStatusSub, canIdx, dmaObj, instBase, launchIdx, coreIdx, dmaIdx, logBase, trigIdx] <;> (try split)) <;> omega)) | (with_reducible first | assumption | apply State.afterStores_held | apply State.doUnlock_held | apply State.guard_held | apply State.runOp_held) | intro _ | dsimp only
theorem execPost_held (c : Fin 33) (s : State) {u : State} (h : execPost c s = .next u) : Held s u := by
  unfold execPost at h
  simp only [Host.Outcome.next.injEq] at h
  have hc := held_refl s
  rw [← h]
  clear h
  repeat' first | (first | omega | ((simp +zetaDelta only [odKey, bankIdx, bankStatusSub, canIdx, dmaObj, instBase, launchIdx, coreIdx, dmaIdx, logBase, trigIdx] <;> (try split)) <;> omega)) | (with_reducible first | assumption | apply State.afterStores_held | apply State.finish_held | apply State.guard_held | apply State.post_held | apply State.doPostInsn_held | apply State.runOp_held) | intro _ | dsimp only
theorem execDbrd_held (c : Fin 33) (s : State) {u : State} (h : execDbrd c s = .next u) : Held s u := by
  unfold execDbrd at h
  simp only [Host.Outcome.next.injEq] at h
  have hc := held_refl s
  rw [← h]
  clear h
  repeat' first | (first | omega | ((simp +zetaDelta only [odKey, bankIdx, bankStatusSub, canIdx, dmaObj, instBase, launchIdx, coreIdx, dmaIdx, logBase, trigIdx] <;> (try split)) <;> omega)) | (with_reducible first | assumption | apply held_ite | apply State.afterStores_held | apply State.dbRead_held | apply State.finishWith_held | apply State.guard_held | apply State.doDbrd_held | apply State.runOp_held | apply State.violate_held | apply held_ite2 | apply held_ite3 | apply held_ite4) | simp only [held_same] | intro _ | dsimp only
theorem execDbclr_held (c : Fin 33) (s : State) {u : State} (h : execDbclr c s = .next u) : Held s u := by
  unfold execDbclr at h
  simp only [Host.Outcome.next.injEq] at h
  have hc := held_refl s
  rw [← h]
  clear h
  repeat' first | (first | omega | ((simp +zetaDelta only [odKey, bankIdx, bankStatusSub, canIdx, dmaObj, instBase, launchIdx, coreIdx, dmaIdx, logBase, trigIdx] <;> (try split)) <;> omega)) | (with_reducible first | assumption | apply State.afterStores_held | apply State.dbClear_held | apply State.finish_held | apply State.guard_held | apply State.doDbclr_held | apply State.runOp_held) | intro _ | dsimp only
theorem execWdkick_held (c : Fin 33) (s : State) {u : State} (h : execWdkick c s = .next u) : Held s u := by
  unfold execWdkick at h
  simp only [Host.Outcome.next.injEq] at h
  have hc := held_refl s
  rw [← h]
  clear h
  repeat' first | (first | omega | ((simp +zetaDelta only [odKey, bankIdx, bankStatusSub, canIdx, dmaObj, instBase, launchIdx, coreIdx, dmaIdx, logBase, trigIdx] <;> (try split)) <;> omega)) | (with_reducible first | assumption | apply State.finish_held | apply State.guard_held | apply State.runOp_held) | simp only [held_same] | intro _ | dsimp only
theorem execFuserd_held (c : Fin 33) (s : State) {u : State} (h : execFuserd c s = .next u) : Held s u := by
  unfold execFuserd at h
  simp only [Host.Outcome.next.injEq] at h
  have hc := held_refl s
  rw [← h]
  clear h
  repeat' first | (first | omega | ((simp +zetaDelta only [odKey, bankIdx, bankStatusSub, canIdx, dmaObj, instBase, launchIdx, coreIdx, dmaIdx, logBase, trigIdx] <;> (try split)) <;> omega)) | (with_reducible first | assumption | apply held_ite | apply State.guard_held | apply State.regOp_held) | intro _ | dsimp only
theorem execMramw_held (c : Fin 33) (s : State) {u : State} (h : execMramw c s = .next u) : Held s u := by
  unfold execMramw at h
  simp only [Host.Outcome.next.injEq] at h
  have hc := held_refl s
  rw [← h]
  clear h
  repeat' first | (first | omega | ((simp +zetaDelta only [odKey, bankIdx, bankStatusSub, canIdx, dmaObj, instBase, launchIdx, coreIdx, dmaIdx, logBase, trigIdx] <;> (try split)) <;> omega)) | (with_reducible first | assumption | apply held_ite | apply State.afterStores_held | apply State.await_held | apply State.exception_held | apply State.finish_held | apply State.guard_held | apply State.doMramw_held | apply State.runOp_held | apply State.setBytes_held) | intro _ | dsimp only
theorem execSha_held (c : Fin 33) (s : State) {u : State} (h : execSha c s = .next u) : Held s u := by
  unfold execSha at h
  simp only [Host.Outcome.next.injEq] at h
  have hc := held_refl s
  rw [← h]
  clear h
  repeat' first | (first | omega | ((simp +zetaDelta only [odKey, bankIdx, bankStatusSub, canIdx, dmaObj, instBase, launchIdx, coreIdx, dmaIdx, logBase, trigIdx] <;> (try split)) <;> omega)) | (with_reducible first | assumption | apply held_ite | apply State.afterStores_held | apply State.exception_held | apply State.finish_held | apply State.guard_held | apply State.doSha_held | apply State.runOp_held | apply State.setBytes_held) | intro _ | dsimp only
theorem execEngsec_held (c : Fin 33) (s : State) {u : State} (h : execEngsec c s = .next u) : Held s u := by
  unfold execEngsec at h
  simp only [Host.Outcome.next.injEq] at h
  have hc := held_refl s
  rw [← h]
  clear h
  repeat' first | (first | omega | ((simp +zetaDelta only [odKey, bankIdx, bankStatusSub, canIdx, dmaObj, instBase, launchIdx, coreIdx, dmaIdx, logBase, trigIdx] <;> (try split)) <;> omega)) | (with_reducible first | assumption | apply held_ite | apply State.finish_held | apply State.guard_held | apply State.runOp_held | apply State.wr_held) | intro _ | dsimp only
theorem execEngineWaitEnd_held (c : Fin 33) (dt : Nat) (s : State) {u : State} (h : execEngineWaitEnd c dt s = .next u) : Held s u := by
  unfold execEngineWaitEnd at h
  simp only [Host.Outcome.next.injEq] at h
  have hc := held_refl s
  rw [← h]
  clear h
  repeat' first | (first | omega | ((simp +zetaDelta only [odKey, bankIdx, bankStatusSub, canIdx, dmaObj, instBase, launchIdx, coreIdx, dmaIdx, logBase, trigIdx] <;> (try split)) <;> omega)) | (with_reducible first | assumption | apply held_ite | apply State.advance_held | apply State.guard_held | apply State.resumeOp_held) | simp only [held_same] | intro _ | dsimp only | split
theorem execOdWrite_held (p : Path) (idx : Half) (sub : Byte) (v : DWord) (s : State) {u : State} (h : execOdWrite p idx sub v s = .next u) : Held s u := by
  unfold execOdWrite at h
  simp only [Host.Outcome.next.injEq] at h
  have hc := held_refl s
  rw [← h]
  clear h
  repeat' first | (first | omega | ((simp +zetaDelta only [odKey, bankIdx, bankStatusSub, canIdx, dmaObj, instBase, launchIdx, coreIdx, dmaIdx, logBase, trigIdx] <;> (try split)) <;> omega)) | (with_reducible first | assumption | apply State.guard_held | apply State.odSet_held) | intro _ | dsimp only
theorem execWindowWriteLowSlot_held (p : Path) (idx : Half) (sub : Byte) (v : Word) (s : State) {u : State} (h : execWindowWriteLowSlot p idx sub v s = .next u) : Held s u := by
  unfold execWindowWriteLowSlot at h
  simp only [Host.Outcome.next.injEq] at h
  have hc := held_refl s
  rw [← h]
  clear h
  repeat' first | (first | omega | ((simp +zetaDelta only [odKey, bankIdx, bankStatusSub, canIdx, dmaObj, instBase, launchIdx, coreIdx, dmaIdx, logBase, trigIdx] <;> (try split)) <;> omega)) | (with_reducible first | assumption | apply held_ite | apply State.guard_held | apply State.slotWrite_held | apply State.writeLow_held) | intro _ | dsimp only
theorem execWindowWriteHighSlot_held (p : Path) (idx : Half) (sub : Byte) (v : Word) (s : State) {u : State} (h : execWindowWriteHighSlot p idx sub v s = .next u) : Held s u := by
  unfold execWindowWriteHighSlot at h
  simp only [Host.Outcome.next.injEq] at h
  have hc := held_refl s
  rw [← h]
  clear h
  repeat' first | (first | omega | ((simp +zetaDelta only [odKey, bankIdx, bankStatusSub, canIdx, dmaObj, instBase, launchIdx, coreIdx, dmaIdx, logBase, trigIdx] <;> (try split)) <;> omega)) | (with_reducible first | assumption | apply held_ite | apply State.guard_held | apply State.slotWrite_held | apply State.writeHigh_held) | intro _ | dsimp only
theorem execEventStatusClear_held (p : Path) (idx : Half) (sub : Byte) (v again : Word) (s : State) {u : State} (h : execEventStatusClear p idx sub v again s = .next u) : Held s u := by
  unfold execEventStatusClear at h
  simp only [Host.Outcome.next.injEq] at h
  rw [← h]
  have hc := held_refl s
  split
  · rename_i he
    exact State.guard_held _ _ _ _ _ _ (fun t ht => State.statusClear_held _ _ _ _ _ (isEventStatus_far _ _ he) ht) hc
  · exact State.odSet_held _ _ _ _ _ hc
theorem execLaneBindingWrite_held (p : Path) (f : Fin 8) (k : Fin 8) (v : Word) (s : State) {u : State} (h : execLaneBindingWrite p f k v s = .next u) : Held s u := by
  unfold execLaneBindingWrite at h
  simp only [Host.Outcome.next.injEq] at h
  have hc := held_refl s
  rw [← h]
  clear h
  repeat' first | (first | omega | ((simp +zetaDelta only [odKey, bankIdx, bankStatusSub, canIdx, dmaObj, instBase, launchIdx, coreIdx, dmaIdx, logBase, trigIdx] <;> (try split)) <;> omega)) | (with_reducible first | assumption | apply State.guard_held | apply State.wr_held) | intro _ | dsimp only
theorem execPciePerst_held (s : State) {u : State} (h : execPciePerst s = .next u) : Held s u := by
  unfold execPciePerst at h
  simp only [Host.Outcome.next.injEq] at h
  have hc := held_refl s
  rw [← h]
  clear h
  repeat' first | (first | omega | ((simp +zetaDelta only [odKey, bankIdx, bankStatusSub, canIdx, dmaObj, instBase, launchIdx, coreIdx, dmaIdx, logBase, trigIdx] <;> (try split)) <;> omega)) | (with_reducible first | assumption | apply held_ite | apply State.guard_held | apply State.pcieDown_held | apply State.pcieReset_held) | simp only [held_same] | intro _ | dsimp only
theorem execPciePerstRelease_held (s : State) {u : State} (h : execPciePerstRelease s = .next u) : Held s u := by
  unfold execPciePerstRelease at h
  simp only [Host.Outcome.next.injEq] at h
  have hc := held_refl s
  rw [← h]
  clear h
  repeat' first | (first | omega | ((simp +zetaDelta only [odKey, bankIdx, bankStatusSub, canIdx, dmaObj, instBase, launchIdx, coreIdx, dmaIdx, logBase, trigIdx] <;> (try split)) <;> omega)) | (with_reducible first | assumption | apply State.guard_held) | simp only [held_same] | intro _ | dsimp only
theorem execPcieFlr_held (s : State) {u : State} (h : execPcieFlr s = .next u) : Held s u := by
  unfold execPcieFlr at h
  simp only [Host.Outcome.next.injEq] at h
  have hc := held_refl s
  rw [← h]
  clear h
  repeat' first | (first | omega | ((simp +zetaDelta only [odKey, bankIdx, bankStatusSub, canIdx, dmaObj, instBase, launchIdx, coreIdx, dmaIdx, logBase, trigIdx] <;> (try split)) <;> omega)) | (with_reducible first | assumption | apply held_ite | apply State.guard_held | apply State.pcieReset_held) | intro _ | dsimp only
theorem execPcieLinkUp_held (width speed : Fin 4) (busMaster msixEnabled : Bool) (s : State) {u : State} (h : execPcieLinkUp width speed busMaster msixEnabled s = .next u) : Held s u := by
  unfold execPcieLinkUp at h
  simp only [Host.Outcome.next.injEq] at h
  have hc := held_refl s
  rw [← h]
  clear h
  repeat' first | (first | omega | ((simp +zetaDelta only [odKey, bankIdx, bankStatusSub, canIdx, dmaObj, instBase, launchIdx, coreIdx, dmaIdx, logBase, trigIdx] <;> (try split)) <;> omega)) | (with_reducible first | assumption | apply held_ite | apply State.event_held | apply State.guard_held | apply State.wr_held) | intro _ | dsimp only
theorem execPcieLinkDown_held (s : State) {u : State} (h : execPcieLinkDown s = .next u) : Held s u := by
  unfold execPcieLinkDown at h
  simp only [Host.Outcome.next.injEq] at h
  have hc := held_refl s
  rw [← h]
  clear h
  repeat' first | (first | omega | ((simp +zetaDelta only [odKey, bankIdx, bankStatusSub, canIdx, dmaObj, instBase, launchIdx, coreIdx, dmaIdx, logBase, trigIdx] <;> (try split)) <;> omega)) | (with_reducible first | assumption | apply State.guard_held | apply State.pcieDown_held) | intro _ | dsimp only
theorem execPcieLinkDownTimeout_held (s : State) {u : State} (h : execPcieLinkDownTimeout s = .next u) : Held s u := by
  unfold execPcieLinkDownTimeout at h
  simp only [Host.Outcome.next.injEq] at h
  have hc := held_refl s
  rw [← h]
  clear h
  repeat' first | (first | omega | ((simp +zetaDelta only [odKey, bankIdx, bankStatusSub, canIdx, dmaObj, instBase, launchIdx, coreIdx, dmaIdx, logBase, trigIdx] <;> (try split)) <;> omega)) | (with_reducible first | assumption | apply held_ite | apply State.guard_held | apply State.pcieReset_held) | intro _ | dsimp only
theorem execPcieAtomicOp_held (op : AtomicOp) (addr : DWord) (wide : Bool) (operand : DWord) (s : State) {u : State} (h : execPcieAtomicOp op addr wide operand s = .next u) : Held s u := by
  unfold execPcieAtomicOp at h
  simp only [Host.Outcome.next.injEq] at h
  have hc := held_refl s
  rw [← h]
  clear h
  repeat' first | (first | omega | ((simp +zetaDelta only [odKey, bankIdx, bankStatusSub, canIdx, dmaObj, instBase, launchIdx, coreIdx, dmaIdx, logBase, trigIdx] <;> (try split)) <;> omega)) | (with_reducible first | assumption | apply held_ite | apply State.atomicAnswer_held | apply State.guard_held | apply State.hostAtomic_held | apply State.violate_held) | intro _ | dsimp only
theorem execMsixUnmask_held (vec : Fin 64) (s : State) {u : State} (h : execMsixUnmask vec s = .next u) : Held s u := by
  unfold execMsixUnmask at h
  simp only [Host.Outcome.next.injEq] at h
  have hc := held_refl s
  rw [← h]
  clear h
  repeat' first | (first | omega | ((simp +zetaDelta only [odKey, bankIdx, bankStatusSub, canIdx, dmaObj, instBase, launchIdx, coreIdx, dmaIdx, logBase, trigIdx] <;> (try split)) <;> omega)) | (with_reducible first | assumption | apply held_ite | apply State.emit_held | apply State.guard_held | apply State.msix_held) | simp only [held_same] | intro _ | dsimp only
theorem execHostDmaTailWrite_held (p : Path) (k : Fin 8) (v : Word) (s : State) {u : State} (h : execHostDmaTailWrite p k v s = .next u) : Held s u := by
  unfold execHostDmaTailWrite at h
  simp only [Host.Outcome.next.injEq] at h
  have hc := held_refl s
  rw [← h]
  clear h
  repeat' first | (first | omega | ((simp +zetaDelta only [odKey, bankIdx, bankStatusSub, canIdx, dmaObj, instBase, launchIdx, coreIdx, dmaIdx, logBase, trigIdx] <;> (try split)) <;> omega)) | (with_reducible first | assumption | apply State.guard_held | apply State.wr_held) | intro _ | dsimp only
theorem execHostDmaDescriptor_held (k : Fin 8) (hostData : List Byte) (hostError : Bool) (s : State) {u : State} (h : execHostDmaDescriptor k hostData hostError s = .next u) : Held s u := by
  unfold execHostDmaDescriptor at h
  simp only [Host.Outcome.next.injEq] at h
  have hc := held_refl s
  rw [← h]
  clear h
  repeat' first | (first | omega | ((simp +zetaDelta only [odKey, bankIdx, bankStatusSub, canIdx, dmaObj, instBase, launchIdx, coreIdx, dmaIdx, logBase, trigIdx] <;> (try split)) <;> omega)) | (with_reducible first | assumption | apply held_ite | apply State.dmaTake_held | apply State.guard_held) | intro _ | dsimp only
theorem execQspiReadId_held (s : State) {u : State} (h : execQspiReadId s = .next u) : Held s u := by
  unfold execQspiReadId at h
  simp only [Host.Outcome.next.injEq] at h
  have hc := held_refl s
  rw [← h]
  clear h
  repeat' first | (first | omega | ((simp +zetaDelta only [odKey, bankIdx, bankStatusSub, canIdx, dmaObj, instBase, launchIdx, coreIdx, dmaIdx, logBase, trigIdx] <;> (try split)) <;> omega)) | (with_reducible first | assumption | apply held_ite | apply State.emit_held | apply State.guard_held | apply State.qspiBegin_held) | intro _ | dsimp only
theorem execQspiReadStatus_held (s : State) {u : State} (h : execQspiReadStatus s = .next u) : Held s u := by
  unfold execQspiReadStatus at h
  simp only [Host.Outcome.next.injEq] at h
  have hc := held_refl s
  rw [← h]
  clear h
  repeat' first | (first | omega | ((simp +zetaDelta only [odKey, bankIdx, bankStatusSub, canIdx, dmaObj, instBase, launchIdx, coreIdx, dmaIdx, logBase, trigIdx] <;> (try split)) <;> omega)) | (with_reducible first | assumption | apply held_ite | apply State.emit_held | apply State.guard_held | apply State.qspiBegin_held) | simp only [held_same] | intro _ | dsimp only
theorem execQspiRead_held (addr : Word) (len : Nat) (late : Bool) (s : State) {u : State} (h : execQspiRead addr len late s = .next u) : Held s u := by
  unfold execQspiRead at h
  simp only [Host.Outcome.next.injEq] at h
  have hc := held_refl s
  rw [← h]
  clear h
  repeat' first | (first | omega | ((simp +zetaDelta only [odKey, bankIdx, bankStatusSub, canIdx, dmaObj, instBase, launchIdx, coreIdx, dmaIdx, logBase, trigIdx] <;> (try split)) <;> omega)) | (with_reducible first | assumption | apply held_ite | apply State.cnt_held | apply State.emit_held | apply State.guard_held | apply State.qspiBegin_held | apply State.qspiData_held | apply held_ite2 | apply held_ite3 | apply held_ite4) | intro _ | dsimp only
theorem execQspiWrite_held (addr : Word) (data : List Byte) (s : State) {u : State} (h : execQspiWrite addr data s = .next u) : Held s u := by
  unfold execQspiWrite at h
  simp only [Host.Outcome.next.injEq] at h
  have hc := held_refl s
  rw [← h]
  clear h
  repeat' first | (first | omega | ((simp +zetaDelta only [odKey, bankIdx, bankStatusSub, canIdx, dmaObj, instBase, launchIdx, coreIdx, dmaIdx, logBase, trigIdx] <;> (try split)) <;> omega)) | (with_reducible first | assumption | apply held_ite | apply State.drop_held | apply State.guard_held | apply State.qspiBegin_held | apply State.qspiDrop_held | apply State.qspiStore_held) | intro _ | dsimp only
theorem execQspiAtomicAdd_held (addr : Word) (wide : Bool) (operand : DWord) (s : State) {u : State} (h : execQspiAtomicAdd addr wide operand s = .next u) : Held s u := by
  unfold execQspiAtomicAdd at h
  simp only [Host.Outcome.next.injEq] at h
  have hc := held_refl s
  rw [← h]
  clear h
  repeat' first | (first | omega | ((simp +zetaDelta only [odKey, bankIdx, bankStatusSub, canIdx, dmaObj, instBase, launchIdx, coreIdx, dmaIdx, logBase, trigIdx] <;> (try split)) <;> omega)) | (with_reducible first | assumption | apply State.guard_held | apply State.qspiAtomic_held | apply State.qspiBegin_held) | intro _ | dsimp only
theorem execQspiAtomicSwap_held (addr : Word) (wide : Bool) (operand : DWord) (s : State) {u : State} (h : execQspiAtomicSwap addr wide operand s = .next u) : Held s u := by
  unfold execQspiAtomicSwap at h
  simp only [Host.Outcome.next.injEq] at h
  have hc := held_refl s
  rw [← h]
  clear h
  repeat' first | (first | omega | ((simp +zetaDelta only [odKey, bankIdx, bankStatusSub, canIdx, dmaObj, instBase, launchIdx, coreIdx, dmaIdx, logBase, trigIdx] <;> (try split)) <;> omega)) | (with_reducible first | assumption | apply State.guard_held | apply State.qspiAtomic_held | apply State.qspiBegin_held) | intro _ | dsimp only
theorem execQspiAtomicResult_held (s : State) {u : State} (h : execQspiAtomicResult s = .next u) : Held s u := by
  unfold execQspiAtomicResult at h
  simp only [Host.Outcome.next.injEq] at h
  have hc := held_refl s
  rw [← h]
  clear h
  repeat' first | (first | omega | ((simp +zetaDelta only [odKey, bankIdx, bankStatusSub, canIdx, dmaObj, instBase, launchIdx, coreIdx, dmaIdx, logBase, trigIdx] <;> (try split)) <;> omega)) | (with_reducible first | assumption | apply held_ite | apply State.emit_held | apply State.guard_held | apply State.qspiBegin_held) | simp only [held_same] | intro _ | dsimp only | split
theorem execQspiResetEnable_held (s : State) {u : State} (h : execQspiResetEnable s = .next u) : Held s u := by
  unfold execQspiResetEnable at h
  simp only [Host.Outcome.next.injEq] at h
  have hc := held_refl s
  rw [← h]
  clear h
  repeat' first | (first | omega | ((simp +zetaDelta only [odKey, bankIdx, bankStatusSub, canIdx, dmaObj, instBase, launchIdx, coreIdx, dmaIdx, logBase, trigIdx] <;> (try split)) <;> omega)) | (with_reducible first | assumption | apply held_ite | apply State.guard_held) | simp only [held_same] | intro _ | dsimp only
theorem execQspiReset_held (s : State) {u : State} (h : execQspiReset s = .next u) : Held s u := by
  unfold execQspiReset at h
  simp only [Host.Outcome.next.injEq] at h
  have hc := held_refl s
  rw [← h]
  clear h
  repeat' first | (first | omega | ((simp +zetaDelta only [odKey, bankIdx, bankStatusSub, canIdx, dmaObj, instBase, launchIdx, coreIdx, dmaIdx, logBase, trigIdx] <;> (try split)) <;> omega)) | (with_reducible first | assumption | apply held_ite | apply State.guard_held | apply State.qspiBegin_held | apply State.qspiReset_held) | intro _ | dsimp only
theorem execQspiUnknownOpcode_held (op : Byte) (s : State) {u : State} (h : execQspiUnknownOpcode op s = .next u) : Held s u := by
  unfold execQspiUnknownOpcode at h
  simp only [Host.Outcome.next.injEq] at h
  have hc := held_refl s
  rw [← h]
  clear h
  repeat' first | (first | omega | ((simp +zetaDelta only [odKey, bankIdx, bankStatusSub, canIdx, dmaObj, instBase, launchIdx, coreIdx, dmaIdx, logBase, trigIdx] <;> (try split)) <;> omega)) | (with_reducible first | assumption | apply held_ite | apply State.guard_held | apply State.qspiBegin_held) | intro _ | dsimp only
theorem execSessionOpen_held (ch : Fin 4) (s : State) {u : State} (h : execSessionOpen ch s = .next u) : Held s u := by
  unfold execSessionOpen at h
  simp only [Host.Outcome.next.injEq] at h
  have hc := held_refl s
  rw [← h]
  clear h
  repeat' first | (first | omega | ((simp +zetaDelta only [odKey, bankIdx, bankStatusSub, canIdx, dmaObj, instBase, launchIdx, coreIdx, dmaIdx, logBase, trigIdx] <;> (try split)) <;> omega)) | (with_reducible first | assumption | apply State.guard_held | apply State.sessionMessage_held) | intro _ | dsimp only
theorem execSessionProve_held (ch : Fin 4) (good : Bool) (s : State) {u : State} (h : execSessionProve ch good s = .next u) : Held s u := by
  unfold execSessionProve at h
  simp only [Host.Outcome.next.injEq] at h
  have hc := held_refl s
  rw [← h]
  clear h
  repeat' first | (first | omega | ((simp +zetaDelta only [odKey, bankIdx, bankStatusSub, canIdx, dmaObj, instBase, launchIdx, coreIdx, dmaIdx, logBase, trigIdx] <;> (try split)) <;> omega)) | (with_reducible first | assumption | apply State.guard_held | apply State.sessionMessage_held) | intro _ | dsimp only
theorem execSessionOdAccess_held (ch : Fin 4) (good : Bool) (s : State) {u : State} (h : execSessionOdAccess ch good s = .next u) : Held s u := by
  unfold execSessionOdAccess at h
  simp only [Host.Outcome.next.injEq] at h
  have hc := held_refl s
  rw [← h]
  clear h
  repeat' first | (first | omega | ((simp +zetaDelta only [odKey, bankIdx, bankStatusSub, canIdx, dmaObj, instBase, launchIdx, coreIdx, dmaIdx, logBase, trigIdx] <;> (try split)) <;> omega)) | (with_reducible first | assumption | apply State.guard_held | apply State.sessionMessage_held) | intro _ | dsimp only
theorem execSessionClose_held (ch : Fin 4) (good : Bool) (s : State) {u : State} (h : execSessionClose ch good s = .next u) : Held s u := by
  unfold execSessionClose at h
  simp only [Host.Outcome.next.injEq] at h
  have hc := held_refl s
  rw [← h]
  clear h
  repeat' first | (first | omega | ((simp +zetaDelta only [odKey, bankIdx, bankStatusSub, canIdx, dmaObj, instBase, launchIdx, coreIdx, dmaIdx, logBase, trigIdx] <;> (try split)) <;> omega)) | (with_reducible first | assumption | apply State.guard_held | apply State.sessionMessage_held) | intro _ | dsimp only
theorem execSessionIdleTimeout_held (ch : Fin 4) (s : State) {u : State} (h : execSessionIdleTimeout ch s = .next u) : Held s u := by
  unfold execSessionIdleTimeout at h
  simp only [Host.Outcome.next.injEq] at h
  have hc := held_refl s
  rw [← h]
  clear h
  repeat' first | (first | omega | ((simp +zetaDelta only [odKey, bankIdx, bankStatusSub, canIdx, dmaObj, instBase, launchIdx, coreIdx, dmaIdx, logBase, trigIdx] <;> (try split)) <;> omega)) | (with_reducible first | assumption | apply held_ite | apply State.guard_held | apply State.sessionClose_held) | intro _ | dsimp only
theorem execVddioPresent_held (bank : Fin 6) (s : State) {u : State} (h : execVddioPresent bank s = .next u) : Held s u := by
  unfold execVddioPresent at h
  simp only [Host.Outcome.next.injEq] at h
  have hc := held_refl s
  rw [← h]
  clear h
  repeat' first | (first | omega | ((simp +zetaDelta only [odKey, bankIdx, bankStatusSub, canIdx, dmaObj, instBase, launchIdx, coreIdx, dmaIdx, logBase, trigIdx] <;> (try split)) <;> omega)) | (with_reducible first | assumption | apply State.guard_held) | simp only [held_same] | intro _ | dsimp only
theorem execVddioBankLost_held (bank : Fin 6) (s : State) {u : State} (h : execVddioBankLost bank s = .next u) : Held s u := by
  unfold execVddioBankLost at h
  simp only [Host.Outcome.next.injEq] at h
  have hc := held_refl s
  rw [← h]
  clear h
  repeat' first | (first | omega | ((simp +zetaDelta only [odKey, bankIdx, bankStatusSub, canIdx, dmaObj, instBase, launchIdx, coreIdx, dmaIdx, logBase, trigIdx] <;> (try split)) <;> omega)) | (with_reducible first | assumption | apply held_ite | apply State.guard_held | apply State.qspiReset_held | apply State.supplyOut_held) | simp only [held_same] | intro _ | dsimp only
theorem execVddioClassSense_held (bank : Fin 6) (mv : Half) (stable : Bool) (s : State) {u : State} (h : execVddioClassSense bank mv stable s = .next u) : Held s u := by
  unfold execVddioClassSense at h
  simp only [Host.Outcome.next.injEq] at h
  have hc := held_refl s
  rw [← h]
  clear h
  repeat' first | (first | omega | ((simp +zetaDelta only [odKey, bankIdx, bankStatusSub, canIdx, dmaObj, instBase, launchIdx, coreIdx, dmaIdx, logBase, trigIdx] <;> (try split)) <;> omega)) | (with_reducible first | assumption | apply held_ite | apply State.guard_held | apply State.supplyBack_held | apply State.supplyOut_held) | simp only [held_same] | intro _ | dsimp only
theorem execAonPowerGood_held (s : State) {u : State} (h : execAonPowerGood s = .next u) : Held s u := by
  unfold execAonPowerGood at h
  simp only [Host.Outcome.next.injEq] at h
  have hc := held_refl s
  rw [← h]
  clear h
  repeat' first | (first | omega | ((simp +zetaDelta only [odKey, bankIdx, bankStatusSub, canIdx, dmaObj, instBase, launchIdx, coreIdx, dmaIdx, logBase, trigIdx] <;> (try split)) <;> omega)) | (with_reducible first | assumption | apply held_ite | apply State.guard_held | apply State.setBits_held | apply State.tryStart_held | apply State.wr_held) | simp only [held_same] | intro _ | dsimp only
theorem execPor_held (s : State) {u : State} (h : execPor s = .next u) : Held s u := by
  unfold execPor at h
  simp only [Host.Outcome.next.injEq] at h
  have hc := held_refl s
  rw [← h]
  clear h
  repeat' first | (first | omega | ((simp +zetaDelta only [odKey, bankIdx, bankStatusSub, canIdx, dmaObj, instBase, launchIdx, coreIdx, dmaIdx, logBase, trigIdx] <;> (try split)) <;> omega)) | (with_reducible first | assumption | apply State.deviceReset_held | apply State.guard_held) | simp only [held_same] | intro _ | dsimp only
theorem execCoreBrownout_held (s : State) {u : State} (h : execCoreBrownout s = .next u) : Held s u := by
  unfold execCoreBrownout at h
  simp only [Host.Outcome.next.injEq] at h
  have hc := held_refl s
  rw [← h]
  clear h
  repeat' first | (first | omega | ((simp +zetaDelta only [odKey, bankIdx, bankStatusSub, canIdx, dmaObj, instBase, launchIdx, coreIdx, dmaIdx, logBase, trigIdx] <;> (try split)) <;> omega)) | (with_reducible first | assumption | apply held_ite | apply State.deviceReset_held | apply State.guard_held) | simp only [held_same] | intro _ | dsimp only
theorem execCoreBrownoutRelease_held (s : State) {u : State} (h : execCoreBrownoutRelease s = .next u) : Held s u := by
  unfold execCoreBrownoutRelease at h
  simp only [Host.Outcome.next.injEq] at h
  have hc := held_refl s
  rw [← h]
  clear h
  repeat' first | (first | omega | ((simp +zetaDelta only [odKey, bankIdx, bankStatusSub, canIdx, dmaObj, instBase, launchIdx, coreIdx, dmaIdx, logBase, trigIdx] <;> (try split)) <;> omega)) | (with_reducible first | assumption | apply held_ite | apply State.guard_held | apply State.tryStart_held) | simp only [held_same] | intro _ | dsimp only
theorem execResetNFall_held (s : State) {u : State} (h : execResetNFall s = .next u) : Held s u := by
  unfold execResetNFall at h
  simp only [Host.Outcome.next.injEq] at h
  have hc := held_refl s
  rw [← h]
  clear h
  repeat' first | (first | omega | ((simp +zetaDelta only [odKey, bankIdx, bankStatusSub, canIdx, dmaObj, instBase, launchIdx, coreIdx, dmaIdx, logBase, trigIdx] <;> (try split)) <;> omega)) | (with_reducible first | assumption | apply held_ite | apply State.guard_held) | simp only [held_same] | intro _ | dsimp only
theorem execResetNPulseIgnored_held (s : State) {u : State} (h : execResetNPulseIgnored s = .next u) : Held s u := by
  unfold execResetNPulseIgnored at h
  simp only [Host.Outcome.next.injEq] at h
  have hc := held_refl s
  rw [← h]
  clear h
  repeat' first | (first | omega | ((simp +zetaDelta only [odKey, bankIdx, bankStatusSub, canIdx, dmaObj, instBase, launchIdx, coreIdx, dmaIdx, logBase, trigIdx] <;> (try split)) <;> omega)) | (with_reducible first | assumption | apply held_ite | apply State.guard_held) | simp only [held_same] | intro _ | dsimp only
theorem execResetNAccept_held (s : State) {u : State} (h : execResetNAccept s = .next u) : Held s u := by
  unfold execResetNAccept at h
  simp only [Host.Outcome.next.injEq] at h
  have hc := held_refl s
  rw [← h]
  clear h
  repeat' first | (first | omega | ((simp +zetaDelta only [odKey, bankIdx, bankStatusSub, canIdx, dmaObj, instBase, launchIdx, coreIdx, dmaIdx, logBase, trigIdx] <;> (try split)) <;> omega)) | (with_reducible first | assumption | apply held_ite | apply State.deviceReset_held | apply State.guard_held | apply State.wake_held) | simp only [held_same] | intro _ | dsimp only
theorem execResetNRise_held (s : State) {u : State} (h : execResetNRise s = .next u) : Held s u := by
  unfold execResetNRise at h
  simp only [Host.Outcome.next.injEq] at h
  have hc := held_refl s
  rw [← h]
  clear h
  repeat' first | (first | omega | ((simp +zetaDelta only [odKey, bankIdx, bankStatusSub, canIdx, dmaObj, instBase, launchIdx, coreIdx, dmaIdx, logBase, trigIdx] <;> (try split)) <;> omega)) | (with_reducible first | assumption | apply held_ite | apply State.guard_held | apply State.tryStart_held) | simp only [held_same] | intro _ | dsimp only
theorem execDeviceReset_held (p : Path) (v : Word) (s : State) {u : State} (h : execDeviceReset p v s = .next u) : Held s u := by
  unfold execDeviceReset at h
  simp only [Host.Outcome.next.injEq] at h
  have hc := held_refl s
  rw [← h]
  clear h
  repeat' first | (first | omega | ((simp +zetaDelta only [odKey, bankIdx, bankStatusSub, canIdx, dmaObj, instBase, launchIdx, coreIdx, dmaIdx, logBase, trigIdx] <;> (try split)) <;> omega)) | (with_reducible first | assumption | apply State.deviceReset_held | apply State.guard_held) | intro _ | dsimp only
theorem execIntegrityReset_held (detail : BitVec 6) (addr : Word) (s : State) {u : State} (h : execIntegrityReset detail addr s = .next u) : Held s u := by
  unfold execIntegrityReset at h
  simp only [Host.Outcome.next.injEq] at h
  have hc := held_refl s
  rw [← h]
  clear h
  repeat' first | (first | omega | ((simp +zetaDelta only [odKey, bankIdx, bankStatusSub, canIdx, dmaObj, instBase, launchIdx, coreIdx, dmaIdx, logBase, trigIdx] <;> (try split)) <;> omega)) | (with_reducible first | assumption | apply held_ite | apply State.guard_held | apply State.integrityReset_held) | intro _ | dsimp only
theorem execLockstepMismatch_held (s : State) {u : State} (h : execLockstepMismatch s = .next u) : Held s u := by
  unfold execLockstepMismatch at h
  simp only [Host.Outcome.next.injEq] at h
  have hc := held_refl s
  rw [← h]
  clear h
  repeat' first | (first | omega | ((simp +zetaDelta only [odKey, bankIdx, bankStatusSub, canIdx, dmaObj, instBase, launchIdx, coreIdx, dmaIdx, logBase, trigIdx] <;> (try split)) <;> omega)) | (with_reducible first | assumption | apply held_ite | apply State.guard_held | apply State.integrityReset_held) | intro _ | dsimp only
theorem execApexWatchdogExpiry_held (s : State) {u : State} (h : execApexWatchdogExpiry s = .next u) : Held s u := by
  unfold execApexWatchdogExpiry at h
  simp only [Host.Outcome.next.injEq] at h
  have hc := held_refl s
  rw [← h]
  clear h
  repeat' first | (first | omega | ((simp +zetaDelta only [odKey, bankIdx, bankStatusSub, canIdx, dmaObj, instBase, launchIdx, coreIdx, dmaIdx, logBase, trigIdx] <;> (try split)) <;> omega)) | (with_reducible first | assumption | apply held_ite | apply State.deviceReset_held | apply State.guard_held) | simp only [held_same] | intro _ | dsimp only
theorem execThermalTrip_held (sensor : Fin 4) (reading : Half) (s : State) {u : State} (h : execThermalTrip sensor reading s = .next u) : Held s u := by
  unfold execThermalTrip at h
  simp only [Host.Outcome.next.injEq] at h
  rw [← h]
  refine held_ite ⟨fun _ h1 => ?_⟩ (held_refl s)
  exfalso
  unfold State.deviceReset at h1
  extract_lets at h1
  rw [State.n_setBits_ne _ _ (by decide), State.n_tryStart_ne _ (by decide) (by decide) (by decide) (by decide),
    State.n_setBits_ne _ _ (by decide), State.n_wr_ne _ _ (by decide),
    State.n_wiped _ _ (by decide) (by decide) (by decide) (by decide), show odKept (reachOf 7) (odKey 0x2001 1) = false by decide,
    if_neg Bool.false_ne_true] at h1
  exact absurd h1 (by decide)
theorem execThermalRelease_held (s : State) {u : State} (h : execThermalRelease s = .next u) : Held s u := by
  unfold execThermalRelease at h
  simp only [Host.Outcome.next.injEq] at h
  have hc := held_refl s
  rw [← h]
  clear h
  repeat' first | (first | omega | ((simp +zetaDelta only [odKey, bankIdx, bankStatusSub, canIdx, dmaObj, instBase, launchIdx, coreIdx, dmaIdx, logBase, trigIdx] <;> (try split)) <;> omega)) | (with_reducible first | assumption | apply held_ite | apply State.guard_held | apply State.tryStart_held) | simp only [held_same] | intro _ | dsimp only
theorem execHoldRelease_held (p : Path) (v : Word) (overtaken : Fin 3) (s : State) {u : State} (h : execHoldRelease p v overtaken s = .next u) : Held s u := by
  unfold execHoldRelease at h
  simp only [Host.Outcome.next.injEq] at h
  have hc := held_refl s
  rw [← h]
  clear h
  repeat' first | (first | omega | ((simp +zetaDelta only [odKey, bankIdx, bankStatusSub, canIdx, dmaObj, instBase, launchIdx, coreIdx, dmaIdx, logBase, trigIdx] <;> (try split)) <;> omega)) | (with_reducible first | assumption | apply State.guard_held | apply State.holdRelease_held) | intro _ | dsimp only
theorem execHoldAck_held (p : Path) (v : Word) (s : State) {u : State} (h : execHoldAck p v s = .next u) : Held s u := by
  unfold execHoldAck at h
  simp only [Host.Outcome.next.injEq] at h
  have hc := held_refl s
  rw [← h]
  clear h
  repeat' first | (first | omega | ((simp +zetaDelta only [odKey, bankIdx, bankStatusSub, canIdx, dmaObj, instBase, launchIdx, coreIdx, dmaIdx, logBase, trigIdx] <;> (try split)) <;> omega)) | (with_reducible first | assumption | apply State.guard_held | apply State.holdAck_held) | intro _ | dsimp only
theorem execHoldRequest_held (p : Path) (v : Word) (s : State) {u : State} (h : execHoldRequest p v s = .next u) : Held s u := by
  unfold execHoldRequest at h
  simp only [Host.Outcome.next.injEq] at h
  have hc := held_refl s
  rw [← h]
  clear h
  repeat' first | (first | omega | ((simp +zetaDelta only [odKey, bankIdx, bankStatusSub, canIdx, dmaObj, instBase, launchIdx, coreIdx, dmaIdx, logBase, trigIdx] <;> (try split)) <;> omega)) | (with_reducible first | assumption | apply State.guard_held | apply State.holdRequest_held) | intro _ | dsimp only
theorem execEngineReset_held (p : Path) (v : Word) (s : State) {u : State} (h : execEngineReset p v s = .next u) : Held s u := by
  unfold execEngineReset at h
  simp only [Host.Outcome.next.injEq] at h
  have hc := held_refl s
  rw [← h]
  clear h
  repeat' first | (first | omega | ((simp +zetaDelta only [odKey, bankIdx, bankStatusSub, canIdx, dmaObj, instBase, launchIdx, coreIdx, dmaIdx, logBase, trigIdx] <;> (try split)) <;> omega)) | (with_reducible first | assumption | apply State.guard_held | apply State.resetWrite_held) | intro _ | dsimp only
theorem execFacetReset_held (p : Path) (v : BitVec 8) (s : State) {u : State} (h : execFacetReset p v s = .next u) : Held s u := by
  unfold execFacetReset at h
  simp only [Host.Outcome.next.injEq] at h
  have hc := held_refl s
  rw [← h]
  clear h
  repeat' first | (first | omega | ((simp +zetaDelta only [odKey, bankIdx, bankStatusSub, canIdx, dmaObj, instBase, launchIdx, coreIdx, dmaIdx, logBase, trigIdx] <;> (try split)) <;> omega)) | (with_reducible first | assumption | apply State.guard_held | apply State.resetWrite_held) | intro _ | dsimp only
theorem execMacPortReset_held (p : Path) (v : BitVec 12) (s : State) {u : State} (h : execMacPortReset p v s = .next u) : Held s u := by
  unfold execMacPortReset at h
  simp only [Host.Outcome.next.injEq] at h
  have hc := held_refl s
  rw [← h]
  clear h
  repeat' first | (first | omega | ((simp +zetaDelta only [odKey, bankIdx, bankStatusSub, canIdx, dmaObj, instBase, launchIdx, coreIdx, dmaIdx, logBase, trigIdx] <;> (try split)) <;> omega)) | (with_reducible first | assumption | apply State.guard_held | apply State.resetWrite_held) | intro _ | dsimp only
theorem execRingReset_held (p : Path) (v : BitVec 4) (s : State) {u : State} (h : execRingReset p v s = .next u) : Held s u := by
  unfold execRingReset at h
  simp only [Host.Outcome.next.injEq] at h
  have hc := held_refl s
  rw [← h]
  clear h
  repeat' first | (first | omega | ((simp +zetaDelta only [odKey, bankIdx, bankStatusSub, canIdx, dmaObj, instBase, launchIdx, coreIdx, dmaIdx, logBase, trigIdx] <;> (try split)) <;> omega)) | (with_reducible first | assumption | apply State.guard_held | apply State.resetWrite_held) | intro _ | dsimp only
theorem execCanReset_held (p : Path) (v : BitVec 4) (s : State) {u : State} (h : execCanReset p v s = .next u) : Held s u := by
  unfold execCanReset at h
  simp only [Host.Outcome.next.injEq] at h
  have hc := held_refl s
  rw [← h]
  clear h
  repeat' first | (first | omega | ((simp +zetaDelta only [odKey, bankIdx, bankStatusSub, canIdx, dmaObj, instBase, launchIdx, coreIdx, dmaIdx, logBase, trigIdx] <;> (try split)) <;> omega)) | (with_reducible first | assumption | apply State.guard_held | apply State.resetWrite_held) | intro _ | dsimp only
theorem execPioBlockReset_held (p : Path) (v : BitVec 4) (s : State) {u : State} (h : execPioBlockReset p v s = .next u) : Held s u := by
  unfold execPioBlockReset at h
  simp only [Host.Outcome.next.injEq] at h
  have hc := held_refl s
  rw [← h]
  clear h
  repeat' first | (first | omega | ((simp +zetaDelta only [odKey, bankIdx, bankStatusSub, canIdx, dmaObj, instBase, launchIdx, coreIdx, dmaIdx, logBase, trigIdx] <;> (try split)) <;> omega)) | (with_reducible first | assumption | apply State.guard_held | apply State.resetWrite_held) | intro _ | dsimp only
theorem execLocusReset_held (p : Path) (s : State) {u : State} (h : execLocusReset p s = .next u) : Held s u := by
  unfold execLocusReset at h
  simp only [Host.Outcome.next.injEq] at h
  have hc := held_refl s
  rw [← h]
  clear h
  repeat' first | (first | omega | ((simp +zetaDelta only [odKey, bankIdx, bankStatusSub, canIdx, dmaObj, instBase, launchIdx, coreIdx, dmaIdx, logBase, trigIdx] <;> (try split)) <;> omega)) | (with_reducible first | assumption | apply State.guard_held | apply State.resetWrite_held) | intro _ | dsimp only
theorem execSwitchReset_held (p : Path) (s : State) {u : State} (h : execSwitchReset p s = .next u) : Held s u := by
  unfold execSwitchReset at h
  simp only [Host.Outcome.next.injEq] at h
  have hc := held_refl s
  rw [← h]
  clear h
  repeat' first | (first | omega | ((simp +zetaDelta only [odKey, bankIdx, bankStatusSub, canIdx, dmaObj, instBase, launchIdx, coreIdx, dmaIdx, logBase, trigIdx] <;> (try split)) <;> omega)) | (with_reducible first | assumption | apply State.guard_held | apply State.resetWrite_held) | intro _ | dsimp only
theorem execTimeDomainReset_held (p : Path) (v : BitVec 4) (s : State) {u : State} (h : execTimeDomainReset p v s = .next u) : Held s u := by
  unfold execTimeDomainReset at h
  simp only [Host.Outcome.next.injEq] at h
  have hc := held_refl s
  rw [← h]
  clear h
  repeat' first | (first | omega | ((simp +zetaDelta only [odKey, bankIdx, bankStatusSub, canIdx, dmaObj, instBase, launchIdx, coreIdx, dmaIdx, logBase, trigIdx] <;> (try split)) <;> omega)) | (with_reducible first | assumption | apply State.guard_held | apply State.resetWrite_held) | intro _ | dsimp only
theorem execBlockResetComplete_held (sub : Fin 6) (bit : Fin 32) (s : State) {u : State} (h : execBlockResetComplete sub bit s = .next u) : Held s u := by
  unfold execBlockResetComplete at h
  simp only [Host.Outcome.next.injEq] at h
  have hc := held_refl s
  rw [← h]
  clear h
  repeat' first | (first | omega | ((simp +zetaDelta only [odKey, bankIdx, bankStatusSub, canIdx, dmaObj, instBase, launchIdx, coreIdx, dmaIdx, logBase, trigIdx] <;> (try split)) <;> omega)) | (with_reducible first | assumption | apply State.blockReleased_held | apply State.guard_held) | intro _ | dsimp only
theorem execRimPllLockLost_held (s : State) {u : State} (h : execRimPllLockLost s = .next u) : Held s u := by
  unfold execRimPllLockLost at h
  simp only [Host.Outcome.next.injEq] at h
  have hc := held_refl s
  rw [← h]
  clear h
  repeat' first | (first | omega | ((simp +zetaDelta only [odKey, bankIdx, bankStatusSub, canIdx, dmaObj, instBase, launchIdx, coreIdx, dmaIdx, logBase, trigIdx] <;> (try split)) <;> omega)) | (with_reducible first | assumption | apply held_ite | apply State.guard_held | apply State.rimLost_held) | intro _ | dsimp only
theorem execRimPllRelock_held (s : State) {u : State} (h : execRimPllRelock s = .next u) : Held s u := by
  unfold execRimPllRelock at h
  simp only [Host.Outcome.next.injEq] at h
  have hc := held_refl s
  rw [← h]
  clear h
  repeat' first | (first | omega | ((simp +zetaDelta only [odKey, bankIdx, bankStatusSub, canIdx, dmaObj, instBase, launchIdx, coreIdx, dmaIdx, logBase, trigIdx] <;> (try split)) <;> omega)) | (with_reducible first | assumption | apply held_ite | apply State.guard_held) | simp only [held_same] | intro _ | dsimp only
theorem execDozeRequest_held (p : Path) (s : State) {u : State} (h : execDozeRequest p s = .next u) : Held s u := by
  unfold execDozeRequest at h
  simp only [Host.Outcome.next.injEq] at h
  have hc := held_refl s
  rw [← h]
  clear h
  repeat' first | (first | omega | ((simp +zetaDelta only [odKey, bankIdx, bankStatusSub, canIdx, dmaObj, instBase, launchIdx, coreIdx, dmaIdx, logBase, trigIdx] <;> (try split)) <;> omega)) | (with_reducible first | assumption | apply State.guard_held | apply State.sleepRequest_held) | intro _ | dsimp only
theorem execStandbyRequest_held (p : Path) (s : State) {u : State} (h : execStandbyRequest p s = .next u) : Held s u := by
  unfold execStandbyRequest at h
  simp only [Host.Outcome.next.injEq] at h
  have hc := held_refl s
  rw [← h]
  clear h
  repeat' first | (first | omega | ((simp +zetaDelta only [odKey, bankIdx, bankStatusSub, canIdx, dmaObj, instBase, launchIdx, coreIdx, dmaIdx, logBase, trigIdx] <;> (try split)) <;> omega)) | (with_reducible first | assumption | apply State.guard_held | apply State.sleepRequest_held) | intro _ | dsimp only
theorem execDozeWakeWrite_held (p : Path) (s : State) {u : State} (h : execDozeWakeWrite p s = .next u) : Held s u := by
  unfold execDozeWakeWrite at h
  simp only [Host.Outcome.next.injEq] at h
  have hc := held_refl s
  rw [← h]
  clear h
  repeat' first | (first | omega | ((simp +zetaDelta only [odKey, bankIdx, bankStatusSub, canIdx, dmaObj, instBase, launchIdx, coreIdx, dmaIdx, logBase, trigIdx] <;> (try split)) <;> omega)) | (with_reducible first | assumption | apply State.guard_held | apply State.sleepRequest_held) | intro _ | dsimp only
theorem execDozeTransitionDone_held (s : State) {u : State} (h : execDozeTransitionDone s = .next u) : Held s u := by
  unfold execDozeTransitionDone at h
  simp only [Host.Outcome.next.injEq] at h
  have hc := held_refl s
  rw [← h]
  clear h
  repeat' first | (first | omega | ((simp +zetaDelta only [odKey, bankIdx, bankStatusSub, canIdx, dmaObj, instBase, launchIdx, coreIdx, dmaIdx, logBase, trigIdx] <;> (try split)) <;> omega)) | (with_reducible first | assumption | apply State.dozeReached_held | apply State.guard_held) | intro _ | dsimp only
theorem execDozeWakeDone_held (s : State) {u : State} (h : execDozeWakeDone s = .next u) : Held s u := by
  unfold execDozeWakeDone at h
  simp only [Host.Outcome.next.injEq] at h
  have hc := held_refl s
  rw [← h]
  clear h
  repeat' first | (first | omega | ((simp +zetaDelta only [odKey, bankIdx, bankStatusSub, canIdx, dmaObj, instBase, launchIdx, coreIdx, dmaIdx, logBase, trigIdx] <;> (try split)) <;> omega)) | (with_reducible first | assumption | apply State.dozeWoken_held | apply State.guard_held) | intro _ | dsimp only
theorem execStandbyPowerDown_held (s : State) {u : State} (h : execStandbyPowerDown s = .next u) : Held s u := by
  unfold execStandbyPowerDown at h
  simp only [Host.Outcome.next.injEq] at h
  have hc := held_refl s
  rw [← h]
  clear h
  repeat' first | (first | omega | ((simp +zetaDelta only [odKey, bankIdx, bankStatusSub, canIdx, dmaObj, instBase, launchIdx, coreIdx, dmaIdx, logBase, trigIdx] <;> (try split)) <;> omega)) | (with_reducible first | assumption | apply held_ite | apply State.guard_held) | simp only [held_same] | intro _ | dsimp only
theorem execWakeSourceEvent_held (src : Fin 11) (unit : Fin 64) (rising : Bool) (s : State) {u : State} (h : execWakeSourceEvent src unit rising s = .next u) : Held s u := by
  unfold execWakeSourceEvent at h
  simp only [Host.Outcome.next.injEq] at h
  have hc := held_refl s
  rw [← h]
  clear h
  repeat' first | (first | omega | ((simp +zetaDelta only [odKey, bankIdx, bankStatusSub, canIdx, dmaObj, instBase, launchIdx, coreIdx, dmaIdx, logBase, trigIdx] <;> (try split)) <;> omega)) | (with_reducible first | assumption | apply held_ite | apply State.guard_held | apply State.wake_held) | intro _ | dsimp only
theorem execStandbyWake_held (s : State) {u : State} (h : execStandbyWake s = .next u) : Held s u := by
  unfold execStandbyWake at h
  simp only [Host.Outcome.next.injEq] at h
  have hc := held_refl s
  rw [← h]
  clear h
  repeat' first | (first | omega | ((simp +zetaDelta only [odKey, bankIdx, bankStatusSub, canIdx, dmaObj, instBase, launchIdx, coreIdx, dmaIdx, logBase, trigIdx] <;> (try split)) <;> omega)) | (with_reducible first | assumption | apply held_ite | apply State.deviceReset_held | apply State.guard_held | apply State.wr_held) | simp only [held_same] | intro _ | dsimp only | split
theorem execWakeConfigCheck_held (verified : Bool) (found : Word) (s : State) {u : State} (h : execWakeConfigCheck verified found s = .next u) : Held s u := by
  unfold execWakeConfigCheck at h
  simp only [Host.Outcome.next.injEq] at h
  have hc := held_refl s
  rw [← h]
  clear h
  repeat' first | (first | omega | ((simp +zetaDelta only [odKey, bankIdx, bankStatusSub, canIdx, dmaObj, instBase, launchIdx, coreIdx, dmaIdx, logBase, trigIdx] <;> (try split)) <;> omega)) | (with_reducible first | assumption | apply State.guard_held | apply State.wakeCheck_held) | intro _ | dsimp only
theorem execConfigConfirmedWrite_held (p : Path) (v : Word) (s : State) {u : State} (h : execConfigConfirmedWrite p v s = .next u) : Held s u := by
  unfold execConfigConfirmedWrite at h
  simp only [Host.Outcome.next.injEq] at h
  have hc := held_refl s
  rw [← h]
  clear h
  repeat' first | (first | omega | ((simp +zetaDelta only [odKey, bankIdx, bankStatusSub, canIdx, dmaObj, instBase, launchIdx, coreIdx, dmaIdx, logBase, trigIdx] <;> (try split)) <;> omega)) | (with_reducible first | assumption | apply State.confirmConfig_held | apply State.guard_held) | intro _ | dsimp only
theorem execAnswerCacheExpiry_held (k : Nat) (s : State) {u : State} (h : execAnswerCacheExpiry k s = .next u) : Held s u := by
  unfold execAnswerCacheExpiry at h
  simp only [Host.Outcome.next.injEq] at h
  have hc := held_refl s
  rw [← h]
  clear h
  repeat' first | (first | omega | ((simp +zetaDelta only [odKey, bankIdx, bankStatusSub, canIdx, dmaObj, instBase, launchIdx, coreIdx, dmaIdx, logBase, trigIdx] <;> (try split)) <;> omega)) | (with_reducible first | assumption | apply State.guard_held | apply State.setLat_held) | simp only [held_same] | intro _ | dsimp only
theorem execServiceAnswerReceived_held (s : State) {u : State} (h : execServiceAnswerReceived s = .next u) : Held s u := by
  unfold execServiceAnswerReceived at h
  simp only [Host.Outcome.next.injEq] at h
  have hc := held_refl s
  rw [← h]
  clear h
  repeat' first | (first | omega | ((simp +zetaDelta only [odKey, bankIdx, bankStatusSub, canIdx, dmaObj, instBase, launchIdx, coreIdx, dmaIdx, logBase, trigIdx] <;> (try split)) <;> omega)) | (with_reducible first | assumption | apply held_ite | apply State.fetchAnswer_held | apply State.guard_held | apply State.setLat_held) | simp only [held_same] | intro _ | dsimp only | split
theorem execRequestRepeatTimeout_held (k : Nat) (s : State) {u : State} (h : execRequestRepeatTimeout k s = .next u) : Held s u := by
  unfold execRequestRepeatTimeout at h
  simp only [Host.Outcome.next.injEq] at h
  have hc := held_refl s
  rw [← h]
  clear h
  repeat' first | (first | omega | ((simp +zetaDelta only [odKey, bankIdx, bankStatusSub, canIdx, dmaObj, instBase, launchIdx, coreIdx, dmaIdx, logBase, trigIdx] <;> (try split)) <;> omega)) | (with_reducible first | assumption | apply held_ite | apply State.fetchFailed_held | apply State.guard_held | apply State.latTo_held | apply State.setLat_held) | simp only [held_same] | intro _ | dsimp only | split
theorem execConfigFetchComplete_held (s : State) {u : State} (h : execConfigFetchComplete s = .next u) : Held s u := by
  unfold execConfigFetchComplete at h
  simp only [Host.Outcome.next.injEq] at h
  have hc := held_refl s
  rw [← h]
  clear h
  repeat' first | (first | omega | ((simp +zetaDelta only [odKey, bankIdx, bankStatusSub, canIdx, dmaObj, instBase, launchIdx, coreIdx, dmaIdx, logBase, trigIdx] <;> (try split)) <;> omega)) | (with_reducible first | assumption | apply held_ite | apply State.fetchDone_held | apply State.guard_held) | simp only [held_same] | intro _ | dsimp only | split
theorem execConfigFetchRetry_held (s : State) {u : State} (h : execConfigFetchRetry s = .next u) : Held s u := by
  unfold execConfigFetchRetry at h
  simp only [Host.Outcome.next.injEq] at h
  have hc := held_refl s
  rw [← h]
  clear h
  repeat' first | (first | omega | ((simp +zetaDelta only [odKey, bankIdx, bankStatusSub, canIdx, dmaObj, instBase, launchIdx, coreIdx, dmaIdx, logBase, trigIdx] <;> (try split)) <;> omega)) | (with_reducible first | assumption | apply held_ite | apply State.fetchSet_held | apply State.guard_held) | simp only [held_same] | intro _ | dsimp only | split
theorem execPortFrameReceived_held (p : Fin 12) (d : List Byte) (er : Option Nat) (frags : Nat) (br : Fin 3) (s : State) {u : State} (h : execPortFrameReceived p d er frags br s = .next u) : Held s u := by
  unfold execPortFrameReceived at h
  simp only [Host.Outcome.next.injEq] at h
  have hc := held_refl s
  rw [← h]
  clear h
  repeat' first | (first | omega | ((simp +zetaDelta only [odKey, bankIdx, bankStatusSub, canIdx, dmaObj, instBase, launchIdx, coreIdx, dmaIdx, logBase, trigIdx] <;> (try split)) <;> omega)) | (with_reducible first | assumption | apply held_ite | apply State.guard_held | apply State.receive_held | apply State.stat_held | apply State.statAdd_held | apply State.wake_held) | intro _ | dsimp only
theorem execPauseRequestReceived_held (p : Fin 12) (s : State) {u : State} (h : execPauseRequestReceived p s = .next u) : Held s u := by
  unfold execPauseRequestReceived at h
  simp only [Host.Outcome.next.injEq] at h
  have hc := held_refl s
  rw [← h]
  clear h
  repeat' first | (first | omega | ((simp +zetaDelta only [odKey, bankIdx, bankStatusSub, canIdx, dmaObj, instBase, launchIdx, coreIdx, dmaIdx, logBase, trigIdx] <;> (try split)) <;> omega)) | (with_reducible first | assumption | apply State.applyPause_held | apply State.guard_held) | intro _ | dsimp only
theorem execPauseExpiry_held (p : Fin 12) (c : Fin 8) (s : State) {u : State} (h : execPauseExpiry p c s = .next u) : Held s u := by
  unfold execPauseExpiry at h
  simp only [Host.Outcome.next.injEq] at h
  have hc := held_refl s
  rw [← h]
  clear h
  repeat' first | (first | omega | ((simp +zetaDelta only [odKey, bankIdx, bankStatusSub, canIdx, dmaObj, instBase, launchIdx, coreIdx, dmaIdx, logBase, trigIdx] <;> (try split)) <;> omega)) | (with_reducible first | assumption | apply held_ite | apply State.guard_held | apply State.setPort_held | apply State.showPaused_held) | simp only [held_same] | intro _ | dsimp only
theorem execPauseRefreshTimer_held (p : Fin 12) (c : Fin 8) (s : State) {u : State} (h : execPauseRefreshTimer p c s = .next u) : Held s u := by
  unfold execPauseRefreshTimer at h
  simp only [Host.Outcome.next.injEq] at h
  have hc := held_refl s
  rw [← h]
  clear h
  repeat' first | (first | omega | ((simp +zetaDelta only [odKey, bankIdx, bankStatusSub, canIdx, dmaObj, instBase, launchIdx, coreIdx, dmaIdx, logBase, trigIdx] <;> (try split)) <;> omega)) | (with_reducible first | assumption | apply held_ite | apply State.guard_held | apply State.queuePause_held) | intro _ | dsimp only
theorem execPauseWatchdogExpiry_held (p : Fin 12) (c : Fin 8) (s : State) {u : State} (h : execPauseWatchdogExpiry p c s = .next u) : Held s u := by
  unfold execPauseWatchdogExpiry at h
  simp only [Host.Outcome.next.injEq] at h
  have hc := held_refl s
  rw [← h]
  clear h
  repeat' first | (first | omega | ((simp +zetaDelta only [odKey, bankIdx, bankStatusSub, canIdx, dmaObj, instBase, launchIdx, coreIdx, dmaIdx, logBase, trigIdx] <;> (try split)) <;> omega)) | (with_reducible first | assumption | apply held_ite | apply State.guard_held | apply State.portEvent_held | apply State.record_held | apply State.setPort_held | apply State.showPaused_held | apply State.stat_held) | simp only [held_same] | intro _ | dsimp only
theorem execPreemptVerifySend_held (p : Fin 12) (s : State) {u : State} (h : execPreemptVerifySend p s = .next u) : Held s u := by
  unfold execPreemptVerifySend at h
  simp only [Host.Outcome.next.injEq] at h
  have hc := held_refl s
  rw [← h]
  clear h
  repeat' first | (first | omega | ((simp +zetaDelta only [odKey, bankIdx, bankStatusSub, canIdx, dmaObj, instBase, launchIdx, coreIdx, dmaIdx, logBase, trigIdx] <;> (try split)) <;> omega)) | (with_reducible first | assumption | apply held_ite | apply State.emit_held | apply State.guard_held | apply State.setPort_held) | simp only [held_same] | intro _ | dsimp only
theorem execPreemptVerifyResponse_held (p : Fin 12) (s : State) {u : State} (h : execPreemptVerifyResponse p s = .next u) : Held s u := by
  unfold execPreemptVerifyResponse at h
  simp only [Host.Outcome.next.injEq] at h
  have hc := held_refl s
  rw [← h]
  clear h
  repeat' first | (first | omega | ((simp +zetaDelta only [odKey, bankIdx, bankStatusSub, canIdx, dmaObj, instBase, launchIdx, coreIdx, dmaIdx, logBase, trigIdx] <;> (try split)) <;> omega)) | (with_reducible first | assumption | apply held_ite | apply State.guard_held | apply State.portEvent_held | apply State.wr_held) | intro _ | dsimp only
theorem execPreemptVerifyFailed_held (p : Fin 12) (s : State) {u : State} (h : execPreemptVerifyFailed p s = .next u) : Held s u := by
  unfold execPreemptVerifyFailed at h
  simp only [Host.Outcome.next.injEq] at h
  have hc := held_refl s
  rw [← h]
  clear h
  repeat' first | (first | omega | ((simp +zetaDelta only [odKey, bankIdx, bankStatusSub, canIdx, dmaObj, instBase, launchIdx, coreIdx, dmaIdx, logBase, trigIdx] <;> (try split)) <;> omega)) | (with_reducible first | assumption | apply held_ite | apply State.guard_held | apply State.portEvent_held | apply State.wr_held) | intro _ | dsimp only
theorem execMboxLockRead_held (p : Path) (ch : Fin 48) (s : State) {u : State} (h : execMboxLockRead p ch s = .next u) : Held s u := by
  unfold execMboxLockRead at h
  simp only [Host.Outcome.next.injEq] at h
  have hc := held_refl s
  rw [← h]
  clear h
  repeat' first | (first | omega | ((simp +zetaDelta only [odKey, bankIdx, bankStatusSub, canIdx, dmaObj, instBase, launchIdx, coreIdx, dmaIdx, logBase, trigIdx] <;> (try split)) <;> omega)) | (with_reducible first | assumption | apply held_ite | apply State.emit_held | apply State.guard_held | apply State.lockRead_held | apply State.violate_held | apply held_ite2 | apply held_ite3 | apply held_ite4) | intro _ | dsimp only
theorem execMboxLockRelease_held (p : Path) (ch : Fin 48) (v : Word) (s : State) {u : State} (h : execMboxLockRelease p ch v s = .next u) : Held s u := by
  unfold execMboxLockRelease at h
  simp only [Host.Outcome.next.injEq] at h
  have hc := held_refl s
  rw [← h]
  clear h
  repeat' first | (first | omega | ((simp +zetaDelta only [odKey, bankIdx, bankStatusSub, canIdx, dmaObj, instBase, launchIdx, coreIdx, dmaIdx, logBase, trigIdx] <;> (try split)) <;> omega)) | (with_reducible first | assumption | apply State.guard_held | apply State.lockFree_held) | intro _ | dsimp only
theorem execMboxPost_held (p : Path) (ch : Fin 48) (bits : Word) (len : Word) (s : State) {u : State} (h : execMboxPost p ch bits len s = .next u) : Held s u := by
  unfold execMboxPost at h
  simp only [Host.Outcome.next.injEq] at h
  have hc := held_refl s
  rw [← h]
  clear h
  repeat' first | (first | omega | ((simp +zetaDelta only [odKey, bankIdx, bankStatusSub, canIdx, dmaObj, instBase, launchIdx, coreIdx, dmaIdx, logBase, trigIdx] <;> (try split)) <;> omega)) | (with_reducible first | assumption | apply State.guard_held | apply State.post_held) | intro _ | dsimp only
theorem execMboxDoorbellRead_held (p : Path) (ch : Fin 48) (s : State) {u : State} (h : execMboxDoorbellRead p ch s = .next u) : Held s u := by
  unfold execMboxDoorbellRead at h
  simp only [Host.Outcome.next.injEq] at h
  have hc := held_refl s
  rw [← h]
  clear h
  repeat' first | (first | omega | ((simp +zetaDelta only [odKey, bankIdx, bankStatusSub, canIdx, dmaObj, instBase, launchIdx, coreIdx, dmaIdx, logBase, trigIdx] <;> (try split)) <;> omega)) | (with_reducible first | assumption | apply held_ite | apply State.dbRead_held | apply State.emit_held | apply State.guard_held | apply State.violate_held | apply held_ite2 | apply held_ite3 | apply held_ite4) | intro _ | dsimp only
theorem execMboxDoorbellClear_held (p : Path) (ch : Fin 48) (v : Word) (s : State) {u : State} (h : execMboxDoorbellClear p ch v s = .next u) : Held s u := by
  unfold execMboxDoorbellClear at h
  simp only [Host.Outcome.next.injEq] at h
  have hc := held_refl s
  rw [← h]
  clear h
  repeat' first | (first | omega | ((simp +zetaDelta only [odKey, bankIdx, bankStatusSub, canIdx, dmaObj, instBase, launchIdx, coreIdx, dmaIdx, logBase, trigIdx] <;> (try split)) <;> omega)) | (with_reducible first | assumption | apply State.dbClear_held | apply State.guard_held) | intro _ | dsimp only
theorem execMboxMaskWrite_held (p : Path) (ch : Fin 48) (v : Word) (s : State) {u : State} (h : execMboxMaskWrite p ch v s = .next u) : Held s u := by
  unfold execMboxMaskWrite at h
  simp only [Host.Outcome.next.injEq] at h
  have hc := held_refl s
  rw [← h]
  clear h
  repeat' first | (first | omega | ((simp +zetaDelta only [odKey, bankIdx, bankStatusSub, canIdx, dmaObj, instBase, launchIdx, coreIdx, dmaIdx, logBase, trigIdx] <;> (try split)) <;> omega)) | (with_reducible first | assumption | apply State.guard_held | apply State.maskWrite_held) | intro _ | dsimp only
theorem execMboxDiscardZeroed_held (ch : Fin 48) (s : State) {u : State} (h : execMboxDiscardZeroed ch s = .next u) : Held s u := by
  unfold execMboxDiscardZeroed at h
  simp only [Host.Outcome.next.injEq] at h
  have hc := held_refl s
  rw [← h]
  clear h
  repeat' first | (first | omega | ((simp +zetaDelta only [odKey, bankIdx, bankStatusSub, canIdx, dmaObj, instBase, launchIdx, coreIdx, dmaIdx, logBase, trigIdx] <;> (try split)) <;> omega)) | (with_reducible first | assumption | apply held_ite | apply State.guard_held | apply State.lockReleaseReset_held | apply State.setChan_held) | simp only [held_same] | intro _ | dsimp only
theorem execNetworkOdAccess_held (n : Fin 6) (conn : Nat) (op : NetOp) (s : State) {u : State} (h : execNetworkOdAccess n conn op s = .next u) : Held s u := by
  unfold execNetworkOdAccess at h
  simp only [Host.Outcome.next.injEq] at h
  have hc := held_refl s
  rw [← h]
  clear h
  repeat' first | (first | omega | ((simp +zetaDelta only [odKey, bankIdx, bankStatusSub, canIdx, dmaObj, instBase, launchIdx, coreIdx, dmaIdx, logBase, trigIdx] <;> (try split)) <;> omega)) | (with_reducible first | assumption | apply held_ite | apply State.guard_held | apply State.netAccess_held) | intro _ | dsimp only
theorem execModbusValueRead_held (n : Fin 6) (conn : Nat) (s : State) {u : State} (h : execModbusValueRead n conn s = .next u) : Held s u := by
  unfold execModbusValueRead at h
  simp only [Host.Outcome.next.injEq] at h
  have hc := held_refl s
  rw [← h]
  clear h
  repeat' first | (first | omega | ((simp +zetaDelta only [odKey, bankIdx, bankStatusSub, canIdx, dmaObj, instBase, launchIdx, coreIdx, dmaIdx, logBase, trigIdx] <;> (try split)) <;> omega)) | (with_reducible first | assumption | apply held_ite | apply State.guard_held | apply State.modbusRead_held) | intro _ | dsimp only
theorem execModbusValueCommit_held (n : Fin 6) (conn : Nat) (v : Half) (s : State) {u : State} (h : execModbusValueCommit n conn v s = .next u) : Held s u := by
  unfold execModbusValueCommit at h
  simp only [Host.Outcome.next.injEq] at h
  have hc := held_refl s
  rw [← h]
  clear h
  repeat' first | (first | omega | ((simp +zetaDelta only [odKey, bankIdx, bankStatusSub, canIdx, dmaObj, instBase, launchIdx, coreIdx, dmaIdx, logBase, trigIdx] <;> (try split)) <;> omega)) | (with_reducible first | assumption | apply held_ite | apply State.guard_held | apply State.modbusCommit_held) | intro _ | dsimp only
theorem execPrivateValueAccess_held (p : Path) (n : Fin 6) (w : Option DWord) (s : State) {u : State} (h : execPrivateValueAccess p n w s = .next u) : Held s u := by
  unfold execPrivateValueAccess at h
  simp only [Host.Outcome.next.injEq] at h
  have hc := held_refl s
  rw [← h]
  clear h
  repeat' first | (first | omega | ((simp +zetaDelta only [odKey, bankIdx, bankStatusSub, canIdx, dmaObj, instBase, launchIdx, coreIdx, dmaIdx, logBase, trigIdx] <;> (try split)) <;> omega)) | (with_reducible first | assumption | apply State.emit_held | apply State.guard_held | apply State.odGet_held | apply State.odSet_held) | simp only [held_same] | intro _ | dsimp only | split
theorem slotReply_held {s0 : State} (p : Path) (r : Nat × State) (hc : Held s0 r.2) : Held s0 (State.slotReply p r) :=
  State.emit_held _ _ hc

theorem execRestoreRequest_held (q : Path) (n : Fin 4) (v : Word) (s : State) {u : State} (h : execRestoreRequest q n v s = .next u) : Held s u := by
  have hc := held_refl s
  unfold execRestoreRequest at h
  simp only [Host.Outcome.next.injEq] at h
  rw [← h]
  apply State.guard_held _ _ _ _ _ _ ?_ hc
  intro t ht
  apply held_ite ?_ ht
  exact State.changeAsk_held _ _ _ _ _ ht
theorem execMgmtSend_held (q : Path) (n : Fin 4) (v : Word) (s : State) {u : State} (h : execMgmtSend q n v s = .next u) : Held s u := by
  have hc := held_refl s
  unfold execMgmtSend at h
  simp only [Host.Outcome.next.injEq] at h
  rw [← h]
  apply State.guard_held _ _ _ _ _ _ ?_ hc
  intro t ht
  apply held_ite ?_ ht
  exact State.mgmtSend_held _ _ ht
theorem execPioRestart_held (q : Path) (m : Fin 32) (v : Word) (s : State) {u : State} (h : execPioRestart q m v s = .next u) : Held s u := by
  have hc := held_refl s
  unfold execPioRestart at h
  simp only [Host.Outcome.next.injEq] at h
  rw [← h]
  apply State.guard_held _ _ _ _ _ _ ?_ hc
  intro t ht
  apply held_ite ?_ ht
  exact State.smRestart_held _ _ ht
theorem execPioFifoClear_held (q : Path) (m : Fin 32) (v : Word) (s : State) {u : State} (h : execPioFifoClear q m v s = .next u) : Held s u := by
  have hc := held_refl s
  unfold execPioFifoClear at h
  simp only [Host.Outcome.next.injEq] at h
  rw [← h]
  apply State.guard_held _ _ _ _ _ _ ?_ hc
  intro t ht
  apply held_ite ?_ ht
  exact State.smClear_held _ _ ht
theorem execPioDmaStop_held (q : Path) (k : Fin 64) (v : Word) (s : State) {u : State} (h : execPioDmaStop q k v s = .next u) : Held s u := by
  have hc := held_refl s
  unfold execPioDmaStop at h
  simp only [Host.Outcome.next.injEq] at h
  rw [← h]
  apply State.guard_held _ _ _ _ _ _ ?_ hc
  intro t ht
  apply held_ite ?_ ht
  exact State.dmaStop_held _ _ ht
theorem execCanRecover_held (p : Path) (c : Fin 4) (v : Word) (s : State) {u : State} (h : execCanRecover p c v s = .next u) : Held s u := by
  have hc := held_refl s
  unfold execCanRecover at h
  simp only [Host.Outcome.next.injEq] at h
  rw [← h]
  apply State.guard_held _ _ _ _ _ _ ?_ hc
  intro t ht
  apply held_ite ?_ ht
  exact State.setCan_held _ _ _ ht
theorem execHostDmaAbort_held (p : Path) (k : Fin 8) (v : Word) (moved : Bool) (s : State) {u : State} (h : execHostDmaAbort p k v moved s = .next u) : Held s u := by
  have hc := held_refl s
  unfold execHostDmaAbort at h
  simp only [Host.Outcome.next.injEq] at h
  rw [← h]
  apply State.guard_held _ _ _ _ _ _ ?_ hc
  intro t ht
  apply held_ite ?_ ht
  exact State.dmaAbort_held _ _ _ ht
theorem execPauseResume_held (q : Path) (p : Fin 12) (v : Word) (s : State) {u : State} (h : execPauseResume q p v s = .next u) : Held s u := by
  have hc := held_refl s
  unfold execPauseResume at h
  simp only [Host.Outcome.next.injEq] at h
  rw [← h]
  apply State.guard_held _ _ _ _ _ _ ?_ hc
  intro t ht
  apply held_ite ?_ ht
  exact State.setPort_held _ _ _ ht
theorem execMapRead_held (p : Path) (addr : Word) (size : Size) (beats : Nat) (s : State) {u : State} (h : execMapRead p addr size beats s = .next u) : Held s u := by
  have hc := held_refl s
  unfold execMapRead at h
  split at h
  · simp only [Host.Outcome.next.injEq] at h
    rw [← h]
    exact State.doMapRead_held _ _ _ _ _ hc
  · cases h
theorem execMapWrite_held (p : Path) (addr : Word) (size : Size) (data : List Byte) (s : State) {u : State} (h : execMapWrite p addr size data s = .next u) : Held s u := by
  have hc := held_refl s
  unfold execMapWrite at h
  split at h
  · simp only [Host.Outcome.next.injEq] at h
    rw [← h]
    exact State.doMapWrite_held _ _ _ _ _ hc
  · cases h
theorem execWindowReadLowSlot_held (p : Path) (idx : Half) (sub : Byte) (s : State) {u : State} (h : execWindowReadLowSlot p idx sub s = .next u) : Held s u := by
  have hc := held_refl s
  unfold execWindowReadLowSlot at h
  simp only [Host.Outcome.next.injEq] at h
  rw [← h]
  exact slotReply_held _ _ (held_ite2 (State.readLow_held _ _ _ _ hc) (State.slotRead_held _ _ _ _ hc))
theorem execWindowReadHighSlot_held (p : Path) (idx : Half) (sub : Byte) (s : State) {u : State} (h : execWindowReadHighSlot p idx sub s = .next u) : Held s u := by
  have hc := held_refl s
  unfold execWindowReadHighSlot at h
  simp only [Host.Outcome.next.injEq] at h
  rw [← h]
  exact slotReply_held _ _ (held_ite2 (State.readHigh_held _ _ _ _ hc) (State.slotRead_held _ _ _ _ hc))
theorem execProcessDataRead_held (p : Path) (idx : Half) (sub : Byte) (retries : Nat) (s : State) {u : State} (h : execProcessDataRead p idx sub retries s = .next u) : Held s u := by
  have hc := held_refl s
  unfold execProcessDataRead at h
  simp only [Host.Outcome.next.injEq] at h
  rw [← h]
  exact slotReply_held _ _ (held_ite2 (State.violate_held _ _ hc)
    (held_ite2 (State.procRead_held _ _ _ _ hc) (State.slotRead_held _ _ _ _ hc)))
theorem execOdAccessRequest_held (secure : Bool) (s : State) {u : State} (h : execOdAccessRequest secure s = .next u) : Held s u := by
  have hc := held_refl s
  unfold execOdAccessRequest at h
  simp only [Host.Outcome.next.injEq] at h
  rw [← h]
  split
  · exact hc
  · rename_i x t hs
    have ht : Held s t := State.service_held _ _ hs hc
    refine held_ite (State.latCnt_held _ _ ht) ?_
    exact State.latAnswer_held _ _ _ (State.odOpsRun_held _ _ _ _ ht)
theorem execMailboxRelayRequest_held (secure : Bool) (s : State) {u : State} (h : execMailboxRelayRequest secure s = .next u) : Held s u := by
  have hc := held_refl s
  unfold execMailboxRelayRequest at h
  simp only [Host.Outcome.next.injEq] at h
  rw [← h]
  split
  · exact hc
  · rename_i x t hs
    have ht : Held s t := State.service_held _ _ hs hc
    refine held_ite (State.latCnt_held _ _ ht) ?_
    exact State.latAnswer_held _ _ _ (State.relayPost_held _ _ _ _ _ ht)
theorem execLogRequest_held (s : State) {u : State} (h : execLogRequest s = .next u) : Held s u := by
  have hc := held_refl s
  unfold execLogRequest at h
  simp only [Host.Outcome.next.injEq] at h
  rw [← h]
  split
  · exact hc
  · rename_i x t hs
    have ht : Held s t := State.service_held _ _ hs hc
    exact State.latAnswer_held _ _ _ ht
theorem execFirmwareOffer_held (len : Word) (sha : List Byte) (at' : Word) (s : State) {u : State} (h : execFirmwareOffer len sha at' s = .next u) : Held s u := by
  have hc := held_refl s
  unfold execFirmwareOffer at h
  simp only [Host.Outcome.next.injEq] at h
  rw [← h]
  split
  · exact hc
  · rename_i x t hs
    have ht : Held s t := State.service_held _ _ hs hc
    exact State.latAnswer_held _ _ _ (State.setLat_held _ _ ht)
theorem execFirmwareBlock_held (off : Word) (d : List Byte) (s : State) {u : State} (h : execFirmwareBlock off d s = .next u) : Held s u := by
  have hc := held_refl s
  unfold execFirmwareBlock at h
  simp only [Host.Outcome.next.injEq] at h
  rw [← h]
  split
  · exact hc
  · rename_i x t hs
    have ht : Held s t := State.service_held _ _ hs hc
    apply State.latAnswer_held
    split
    · exact held_ite (State.doMapWrite_held _ _ _ _ _ ht) ht
    · exact ht
theorem execFirmwareComplete_held (secure apexGood : Bool) (s : State) {u : State} (h : execFirmwareComplete secure apexGood s = .next u) : Held s u := by
  have hc := held_refl s
  unfold execFirmwareComplete at h
  simp only [Host.Outcome.next.injEq] at h
  rw [← h]
  split
  · exact hc
  · rename_i x t hs
    have ht : Held s t := State.service_held _ _ hs hc
    apply State.latAnswer_held
    split
    · refine held_ite (State.setLat_held _ _ ht) (held_ite (held_ite (State.setLat_held _ _ ht) ?_) (held_ite (held_ite ?_ ?_) ?_))
      · exact State.libraryStart_held _ _ _ (State.wr_held _ _ _ _ (by decide) (State.wr_held _ _ _ _ (by decide) (State.setLat_held _ _ ht)))
      · exact State.apexInstall_held _ _ _ (State.setLat_held _ _ ht)
      · exact State.setLat_held _ _ ht
      · exact State.violate_held _ _ (State.setLat_held _ _ ht)
    · exact ht
theorem execConfigRequest_held (s : State) {u : State} (h : execConfigRequest s = .next u) : Held s u := by
  have hc := held_refl s
  unfold execConfigRequest at h
  simp only [Host.Outcome.next.injEq] at h
  rw [← h]
  split
  · exact hc
  · rename_i x t hs
    have ht : Held s t := State.service_held _ _ hs hc
    exact State.latAnswer_held _ _ _ ht
theorem execResetRequest_held (secure : Bool) (s : State) {u : State} (h : execResetRequest secure s = .next u) : Held s u := by
  have hc := held_refl s
  unfold execResetRequest at h
  simp only [Host.Outcome.next.injEq] at h
  rw [← h]
  split
  · exact hc
  · rename_i x t hs
    have ht : Held s t := State.service_held _ _ hs hc
    exact held_ite (State.deviceReset_held _ _ _ _ ht) (State.violate_held _ _ ht)
theorem execSessionRequest_held (good : Bool) (s : State) {u : State} (h : execSessionRequest good s = .next u) : Held s u := by
  have hc := held_refl s
  unfold execSessionRequest at h
  simp only [Host.Outcome.next.injEq] at h
  rw [← h]
  split
  · exact hc
  · rename_i x t hs
    have ht : Held s t := State.service_held _ _ hs hc
    have hx := ht
    split
    · exact State.latAnswer_held _ _ _ (State.event_held _ _ _ _ (by decide) (State.cnt_held _ _ _ (by decide) ht))
    · exact State.latAnswer_held _ _ _ (State.sessionTake_held _ _ _ _ _ _ ht)
theorem execConfigPublish_held (p : Path) (v : Word) (s : State) {u : State} (h : execConfigPublish p v s = .next u) : Held s u := by
  have hc := held_refl s
  unfold execConfigPublish at h
  simp only [Host.Outcome.next.injEq] at h
  rw [← h]
  apply held_ite (State.publish_held _ hc)
  apply State.guard_held _ _ _ _ _ _ ?_ hc
  intro t ht
  exact held_ite (State.publish_held _ (State.wr_held _ _ _ _ (by decide) ht)) ht
theorem exec_held (c : Instr) (s : State) {u : State} (h : exec c s = .next u) : Held s u := by
  cases c with
  | mapRead => exact execMapRead_held _ _ _ _ _ h
  | mapWrite => exact execMapWrite_held _ _ _ _ _ h
  | odWrite => exact execOdWrite_held _ _ _ _ _ h
  | windowReadLowSlot => exact execWindowReadLowSlot_held _ _ _ _ h
  | windowReadHighSlot => exact execWindowReadHighSlot_held _ _ _ _ h
  | windowWriteLowSlot => exact execWindowWriteLowSlot_held _ _ _ _ _ h
  | windowWriteHighSlot => exact execWindowWriteHighSlot_held _ _ _ _ _ h
  | eventStatusClear => exact execEventStatusClear_held _ _ _ _ _ _ h
  | paramSave => exact execParamSave_held _ _ _ _ h
  | paramRestore => exact execParamRestore_held _ _ _ _ h
  | paramHoldExpiry => exact execParamHoldExpiry_held _ h
  | paramCopyWritten => exact execParamCopyWritten_held _ _ h
  | rimPllLockLost => exact execRimPllLockLost_held _ h
  | rimPllRelock => exact execRimPllRelock_held _ h
  | vddioPresent => exact execVddioPresent_held _ _ h
  | vddioBankLost => exact execVddioBankLost_held _ _ h
  | vddioClassSense => exact execVddioClassSense_held _ _ _ _ h
  | aonPowerGood => exact execAonPowerGood_held _ h
  | por => exact execPor_held _ h
  | coreBrownout => exact execCoreBrownout_held _ h
  | coreBrownoutRelease => exact execCoreBrownoutRelease_held _ h
  | resetNFall => exact execResetNFall_held _ h
  | resetNAccept => exact execResetNAccept_held _ h
  | resetNRise => exact execResetNRise_held _ h
  | bringupStepDone => exact execBringupStepDone_held _ _ h
  | holdRelease => exact execHoldRelease_held _ _ _ _ h
  | holdAck => exact execHoldAck_held _ _ _ h
  | holdRequest => exact execHoldRequest_held _ _ _ h
  | deviceReset => exact execDeviceReset_held _ _ _ h
  | engineReset => exact execEngineReset_held _ _ _ h
  | facetReset => exact execFacetReset_held _ _ _ h
  | macPortReset => exact execMacPortReset_held _ _ _ h
  | ringReset => exact execRingReset_held _ _ _ h
  | canReset => exact execCanReset_held _ _ _ h
  | pioBlockReset => exact execPioBlockReset_held _ _ _ h
  | locusReset => exact execLocusReset_held _ _ h
  | switchReset => exact execSwitchReset_held _ _ h
  | timeDomainReset => exact execTimeDomainReset_held _ _ _ h
  | blockResetComplete => exact execBlockResetComplete_held _ _ _ h
  | integrityReset => exact execIntegrityReset_held _ _ _ h
  | lockstepMismatch => exact execLockstepMismatch_held _ h
  | apexWatchdogExpiry => exact execApexWatchdogExpiry_held _ h
  | thermalTrip => exact execThermalTrip_held _ _ _ h
  | thermalRelease => exact execThermalRelease_held _ h
  | triesClear => exact execTriesClear_held _ _ _ h
  | optionsCommit => exact execOptionsCommit_held _ _ _ h
  | optionsCommitEnd => exact execOptionsCommitEnd_held _ h
  | dozeRequest => exact execDozeRequest_held _ _ h
  | standbyRequest => exact execStandbyRequest_held _ _ h
  | dozeTransitionDone => exact execDozeTransitionDone_held _ h
  | standbyPowerDown => exact execStandbyPowerDown_held _ h
  | dozeWakeWrite => exact execDozeWakeWrite_held _ _ h
  | wakeSourceEvent => exact execWakeSourceEvent_held _ _ _ _ h
  | dozeWakeDone => exact execDozeWakeDone_held _ h
  | standbyWake => exact execStandbyWake_held _ h
  | wakeConfigCheck => exact execWakeConfigCheck_held _ _ _ h
  | configConfirmedWrite => exact execConfigConfirmedWrite_held _ _ _ h
  | laneBindingWrite => exact execLaneBindingWrite_held _ _ _ _ _ h
  | laneBindingApply => exact execLaneBindingApply_held _ _ _ h
  | rxLaneFrame => exact execRxLaneFrame_held _ _ _ _ _ h
  | txLaneFrameStart => exact execTxLaneFrameStart_held _ _ _ _ h
  | txLaneUnderrun => exact execTxLaneUnderrun_held _ _ h
  | engineRun => exact execEngineRun_held _ _ _ h
  | engineHalt => exact execEngineHalt_held _ _ _ h
  | engineStep => exact execEngineStep_held _ _ _ h
  | engineLoad => exact execEngineLoad_held _ _ _ h
  | engineHalted => exact execEngineHalted_held _ _ h
  | engineLoadDone => exact execEngineLoadDone_held _ _ _ _ h
  | hbPeriodExpiry => exact execHbPeriodExpiry_held _ _ h
  | facetDbeRestart => exact execFacetDbeRestart_held _ _ h
  | imageInstall => exact execImageInstall_held _ _ h
  | imageRemove => exact execImageRemove_held _ _ h
  | imageLibraryOpDone => exact execImageLibraryOpDone_held _ _ h
  | processDataRead => exact execProcessDataRead_held _ _ _ _ _ h
  | postedStoreComplete => exact execPostedStoreComplete_held _ _ h
  | engineWaitEnd => exact execEngineWaitEnd_held _ _ _ h
  | add => exact execAdd_held _ _ h
  | addi => exact execAddi_held _ _ h
  | sub => exact execSub_held _ _ h
  | adc => exact execAdc_held _ _ h
  | sbc => exact execSbc_held _ _ h
  | andReg => exact execAndReg_held _ _ h
  | andi => exact execAndi_held _ _ h
  | orReg => exact execOrReg_held _ _ h
  | ori => exact execOri_held _ _ h
  | xor => exact execXor_held _ _ h
  | xori => exact execXori_held _ _ h
  | cmp => exact execCmp_held _ _ h
  | cmpi => exact execCmpi_held _ _ h
  | mul => exact execMul_held _ _ h
  | lui => exact execLui_held _ _ h
  | movi => exact execMovi_held _ _ h
  | shl => exact execShl_held _ _ h
  | shr => exact execShr_held _ _ h
  | sar => exact execSar_held _ _ h
  | ror => exact execRor_held _ _ h
  | ext => exact execExt_held _ _ h
  | ins => exact execIns_held _ _ h
  | nswap => exact execNswap_held _ _ h
  | bswap16 => exact execBswap16_held _ _ h
  | bswap32 => exact execBswap32_held _ _ h
  | clz => exact execClz_held _ _ h
  | popc => exact execPopc_held _ _ h
  | notReg => exact execNotReg_held _ _ h
  | neg => exact execNeg_held _ _ h
  | sext8 => exact execSext8_held _ _ h
  | sext16 => exact execSext16_held _ _ h
  | ldl => exact execLdl_held _ _ h
  | stl => exact execStl_held _ _ h
  | ldf => exact execLdf_held _ _ h
  | stf => exact execStf_held _ _ h
  | ldx => exact execLdx_held _ _ h
  | stx => exact execStx_held _ _ h
  | faddF => exact execFaddF_held _ _ h
  | swapF => exact execSwapF_held _ _ h
  | faddX => exact execFaddX_held _ _ h
  | swapX => exact execSwapX_held _ _ h
  | fence => exact execFence_held _ _ h
  | bCond => exact execBCond_held _ _ h
  | call => exact execCall_held _ _ h
  | jr => exact execJr_held _ _ h
  | callr => exact execCallr_held _ _ h
  | cbz => exact execCbz_held _ _ h
  | cbnz => exact execCbnz_held _ _ h
  | halt => exact execHalt_held _ _ h
  | nop => exact execNop_held _ _ h
  | hbeat => exact execHbeat_held _ _ h
  | take => exact execTake_held _ _ h
  | peek => exact execPeek_held _ _ h
  | skip => exact execSkip_held _ _ h
  | give => exact execGive_held _ _ h
  | matchLane => exact execMatchLane_held _ _ h
  | mark => exact execMark_held _ _ h
  | skipf => exact execSkipf_held _ _ h
  | gend => exact execGend_held _ _ h
  | lstat => exact execLstat_held _ _ h
  | crcInit => exact execCrcInit_held _ _ h
  | crcFold => exact execCrcFold_held _ _ h
  | crcRead => exact execCrcRead_held _ _ h
  | crcWrite => exact execCrcWrite_held _ _ h
  | crcTap => exact execCrcTap_held _ _ h
  | timeRead => exact execTimeRead_held _ _ _ h
  | timeh => exact execTimeh_held _ _ h
  | twait => exact execTwait_held _ _ _ h
  | ewait => exact execEwait_held _ _ h
  | ewaitTimeout => exact execEwaitTimeout_held _ _ _ h
  | epoll => exact execEpoll_held _ _ h
  | lock => exact execLock_held _ _ h
  | unlock => exact execUnlock_held _ _ h
  | post => exact execPost_held _ _ h
  | dbrd => exact execDbrd_held _ _ h
  | dbclr => exact execDbclr_held _ _ h
  | wdkick => exact execWdkick_held _ _ h
  | fuserd => exact execFuserd_held _ _ h
  | mramw => exact execMramw_held _ _ h
  | sha => exact execSha_held _ _ h
  | engsec => exact execEngsec_held _ _ h
  | chordFrame => exact execChordFrame_held _ _ _ _ _ _ _ _ _ h
  | chordCaptureWrite => exact execChordCaptureWrite_held _ _ h
  | spliceCommit => exact execSpliceCommit_held _ _ _ _ h
  | spliceLoadDone => exact execSpliceLoadDone_held _ _ h
  | spliceTableActivate => exact execSpliceTableActivate_held _ _ h
  | chordConfigApply => exact execChordConfigApply_held _ _ h
  | mdioC22Write => exact execMdioC22Write_held _ _ _ _ _ _ h
  | mdioC22Read => exact execMdioC22Read_held _ _ _ _ _ _ h
  | mdioC45Address => exact execMdioC45Address_held _ _ _ _ _ _ h
  | mdioC45Write => exact execMdioC45Write_held _ _ _ _ _ _ h
  | mdioC45Read => exact execMdioC45Read_held _ _ _ _ _ _ h
  | mdioC45ReadIncrement => exact execMdioC45ReadIncrement_held _ _ _ _ _ _ h
  | mdioFrameEnd => exact execMdioFrameEnd_held _ _ _ h
  | mdioPoll => exact execMdioPoll_held _ _ _ _ _ _ _ _ h
  | linkUp => exact execLinkUp_held _ _ _ h
  | linkDown => exact execLinkDown_held _ _ _ h
  | portLinkConfigChange => exact execPortLinkConfigChange_held _ _ h
  | portFrameConfigApply => exact execPortFrameConfigApply_held _ _ _ h
  | serdesLockLost => exact execSerdesLockLost_held _ _ _ h
  | portFrameReceived => exact execPortFrameReceived_held _ _ _ _ _ _ h
  | portFrameTransmitted => exact execPortFrameTransmitted_held _ _ _ _ h
  | tsRecordWrite => exact execTsRecordWrite_held _ _ h
  | preemptVerifySend => exact execPreemptVerifySend_held _ _ h
  | preemptVerifyResponse => exact execPreemptVerifyResponse_held _ _ h
  | preemptVerifyFailed => exact execPreemptVerifyFailed_held _ _ h
  | pauseRequestReceived => exact execPauseRequestReceived_held _ _ h
  | pauseExpiry => exact execPauseExpiry_held _ _ _ h
  | pauseRefreshTimer => exact execPauseRefreshTimer_held _ _ _ h
  | pauseWatchdogExpiry => exact execPauseWatchdogExpiry_held _ _ _ h
  | pauseResume => exact execPauseResume_held _ _ _ _ h
  | switchAdmission => exact execSwitchAdmission_held _ _ _ _ _ _ h
  | frameStoreComplete => exact execFrameStoreComplete_held _ _ h
  | txSelection => exact execTxSelection_held _ _ _ _ h
  | fdbAgeExpiry => exact execFdbAgeExpiry_held _ _ _ h
  | fdbReadEntry => exact execFdbReadEntry_held _ _ h
  | fdbInsert => exact execFdbInsert_held _ _ h
  | fdbDelete => exact execFdbDelete_held _ _ h
  | fdbFlush => exact execFdbFlush_held _ _ h
  | gateConfigChange => exact execGateConfigChange_held _ _ _ _ h
  | gateConfigOperational => exact execGateConfigOperational_held _ _ _ h
  | gateIntervalExpiry => exact execGateIntervalExpiry_held _ _ _ h
  | streamRead => exact execStreamRead_held _ _ h
  | streamWrite => exact execStreamWrite_held _ _ h
  | streamClearBlocked => exact execStreamClearBlocked_held _ _ h
  | streamGateRead => exact execStreamGateRead_held _ _ h
  | streamGateWrite => exact execStreamGateWrite_held _ _ h
  | streamGateChangeList => exact execStreamGateChangeList_held _ _ h
  | streamGateIntervalExpiry => exact execStreamGateIntervalExpiry_held _ _ _ h
  | meterRead => exact execMeterRead_held _ _ h
  | meterWrite => exact execMeterWrite_held _ _ h
  | meterClearMarkAllRed => exact execMeterClearMarkAllRed_held _ _ h
  | cbRead => exact execCbRead_held _ _ h
  | cbWrite => exact execCbWrite_held _ _ h
  | cbResetRecovery => exact execCbResetRecovery_held _ _ h
  | cbResetTimeout => exact execCbResetTimeout_held _ _ h
  | rxRingDelivery => exact execRxRingDelivery_held _ _ _ h
  | txRingFrame => exact execTxRingFrame_held _ _ h
  | auditPass => exact execAuditPass_held _ h
  | incrementWrite => exact execIncrementWrite_held _ _ _ _ h
  | adjustStart => exact execAdjustStart_held _ _ _ _ h
  | adjustEnd => exact execAdjustEnd_held _ _ _ h
  | stepDisarm => exact execStepDisarm_held _ _ _ h
  | stepNow => exact execStepNow_held _ _ _ h
  | stepArmAt => exact execStepArmAt_held _ _ _ h
  | stepApply => exact execStepApply_held _ _ _ h
  | syncWrite => exact execSyncWrite_held _ _ _ _ h
  | triggerFire => exact execTriggerFire_held _ _ _ _ h
  | captureEdge => exact execCaptureEdge_held _ _ _ _ _ h
  | capturePop => exact execCapturePop_held _ _ _ _ h
  | ppsEdge => exact execPpsEdge_held _ _ _ h
  | ppsPulseEnd => exact execPpsPulseEnd_held _ _ _ h
  | launchEnable => exact execLaunchEnable_held _ _ _ _ h
  | launchDisable => exact execLaunchDisable_held _ _ _ _ h
  | launchFetchStart => exact execLaunchFetchStart_held _ _ _ h
  | launchFetchDone => exact execLaunchFetchDone_held _ _ _ h
  | launchBegin => exact execLaunchBegin_held _ _ _ _ h
  | launchEnd => exact execLaunchEnd_held _ _ _ h
  | launchAbort => exact execLaunchAbort_held _ _ _ _ h
  | ringEnable => exact execRingEnable_held _ _ _ _ h
  | perLockAcquired => exact execPerLockAcquired_held _ _ _ h
  | perLockLost => exact execPerLockLost_held _ _ _ _ _ h
  | healingSilenceEnd => exact execHealingSilenceEnd_held _ _ h
  | perFrameReceived => exact execPerFrameReceived_held _ _ _ _ _ _ _ _ h
  | echoRequestSend => exact execEchoRequestSend_held _ _ _ h
  | echoRequestReceived => exact execEchoRequestReceived_held _ _ _ _ h
  | echoReplyReceived => exact execEchoReplyReceived_held _ _ _ _ h
  | echoTimeout => exact execEchoTimeout_held _ _ _ h
  | measureSend => exact execMeasureSend_held _ _ _ h
  | measureForward => exact execMeasureForward_held _ _ h
  | measureReturn => exact execMeasureReturn_held _ _ _ h
  | slotTableLoad => exact execSlotTableLoad_held _ _ _ _ _ h
  | slotTableChecked => exact execSlotTableChecked_held _ _ _ h
  | slotFetchStart => exact execSlotFetchStart_held _ _ _ h
  | slotFetchDone => exact execSlotFetchDone_held _ _ _ h
  | slotInsert => exact execSlotInsert_held _ _ _ _ _ _ h
  | guardianCut => exact execGuardianCut_held _ _ h
  | guardTableCommit => exact execGuardTableCommit_held _ _ _ _ h
  | referenceSend => exact execReferenceSend_held _ _ _ _ h
  | referenceAccept => exact execReferenceAccept_held _ _ h
  | referenceMissed => exact execReferenceMissed_held _ _ _ h
  | backupTakeover => exact execBackupTakeover_held _ _ _ _ h
  | coldstartListenTimeout => exact execColdstartListenTimeout_held _ _ h
  | coldstartSend => exact execColdstartSend_held _ _ h
  | coldstartReceived => exact execColdstartReceived_held _ _ h
  | modeRequest => exact execModeRequest_held _ _ _ _ h
  | restoreRequest => exact execRestoreRequest_held _ _ _ _ h
  | mgmtSend => exact execMgmtSend_held _ _ _ _ h
  | mgmtReturn => exact execMgmtReturn_held _ _ _ _ h
  | mgmtTimeout => exact execMgmtTimeout_held _ _ h
  | mgmtReadIdentity => exact execMgmtReadIdentity_held _ _ h
  | mgmtAssignNumber => exact execMgmtAssignNumber_held _ _ h
  | mgmtWriteTable => exact execMgmtWriteTable_held _ _ h
  | mgmtCommit => exact execMgmtCommit_held _ _ h
  | mgmtReadStatus => exact execMgmtReadStatus_held _ _ h
  | mgmtReadLinks => exact execMgmtReadLinks_held _ _ h
  | trackEnable => exact execTrackEnable_held _ _ _ _ h
  | locusStagingStart => exact execLocusStagingStart_held _ _ _ h
  | locusReadDone => exact execLocusReadDone_held _ _ _ h
  | locusPioPush => exact execLocusPioPush_held _ _ h
  | locusStaged => exact execLocusStaged_held _ _ h
  | locusDeadlineMiss => exact execLocusDeadlineMiss_held _ _ _ h
  | swapArm => exact execSwapArm_held _ _ h
  | swapCancel => exact execSwapCancel_held _ _ h
  | swapArmTied => exact execSwapArmTied_held _ _ h
  | trackAbort => exact execTrackAbort_held _ _ _ _ h
  | latticeEnable => exact execLatticeEnable_held _ _ _ h
  | helloSend => exact execHelloSend_held _ _ h
  | helloReceived => exact execHelloReceived_held _ h
  | neighbourTimeout => exact execNeighbourTimeout_held _ _ h
  | keeperClaimStale => exact execKeeperClaimStale_held _ _ h
  | discoveryEnd => exact execDiscoveryEnd_held _ h
  | joinSend => exact execJoinSend_held _ h
  | joinRelay => exact execJoinRelay_held _ h
  | joinReceived => exact execJoinReceived_held _ h
  | joinGrantReceived => exact execJoinGrantReceived_held _ h
  | linkReportSend => exact execLinkReportSend_held _ h
  | linkReportReceived => exact execLinkReportReceived_held _ h
  | routePartReceived => exact execRoutePartReceived_held _ h
  | routeHeadTimeout => exact execRouteHeadTimeout_held _ h
  | latticeFrameForward => exact execLatticeFrameForward_held _ _ _ _ _ h
  | latticeFrameDelivered => exact execLatticeFrameDelivered_held _ _ _ h
  | odAccessRequest => exact execOdAccessRequest_held _ _ h
  | mailboxRelayRequest => exact execMailboxRelayRequest_held _ _ h
  | logRequest => exact execLogRequest_held _ h
  | firmwareOffer => exact execFirmwareOffer_held _ _ _ _ h
  | firmwareBlock => exact execFirmwareBlock_held _ _ _ h
  | firmwareComplete => exact execFirmwareComplete_held _ _ _ h
  | configRequest => exact execConfigRequest_held _ h
  | resetRequest => exact execResetRequest_held _ _ h
  | sessionRequest => exact execSessionRequest_held _ _ h
  | serviceAnswerReceived => exact execServiceAnswerReceived_held _ h
  | requestRepeatTimeout => exact execRequestRepeatTimeout_held _ _ h
  | answerCacheExpiry => exact execAnswerCacheExpiry_held _ _ h
  | configPublish => exact execConfigPublish_held _ _ _ h
  | configFetchComplete => exact execConfigFetchComplete_held _ h
  | configFetchRetry => exact execConfigFetchRetry_held _ h
  | keeperForget => exact execKeeperForget_held _ _ _ h
  | instanceStart => exact execInstanceStart_held _ _ _ h
  | instanceStartDone => exact execInstanceStartDone_held _ _ _ h
  | instanceStop => exact execInstanceStop_held _ _ _ h
  | privateValueAccess => exact execPrivateValueAccess_held _ _ _ _ h
  | networkOdAccess => exact execNetworkOdAccess_held _ _ _ _ h
  | modbusValueRead => exact execModbusValueRead_held _ _ _ h
  | modbusValueCommit => exact execModbusValueCommit_held _ _ _ _ h
  | canModeWrite => exact execCanModeWrite_held _ _ _ _ h
  | canIntegrated => exact execCanIntegrated_held _ _ h
  | canFrameReceived => exact execCanFrameReceived_held _ _ _ _ _ h
  | canFrameStored => exact execCanFrameStored_held _ _ h
  | canRxError => exact execCanRxError_held _ _ _ _ _ _ h
  | canTxRequest => exact execCanTxRequest_held _ _ _ _ h
  | canTxAttempt => exact execCanTxAttempt_held _ _ _ _ h
  | canTxSuccess => exact execCanTxSuccess_held _ _ _ h
  | canTxError => exact execCanTxError_held _ _ _ _ _ _ _ h
  | canTxAbort => exact execCanTxAbort_held _ _ _ _ h
  | canLockSet => exact execCanLockSet_held _ _ _ _ h
  | canLockClear => exact execCanLockClear_held _ _ _ _ h
  | canShadowPromoted => exact execCanShadowPromoted_held _ _ _ h
  | canLostClear => exact execCanLostClear_held _ _ _ _ h
  | canFifoGet => exact execCanFifoGet_held _ _ _ _ _ h
  | canRecover => exact execCanRecover_held _ _ _ _ h
  | canBusOffRecovered => exact execCanBusOffRecovered_held _ _ h
  | pioB => exact execPioB_held _ _ h
  | pioLoopa => exact execPioLoopa_held _ _ h
  | pioLoopb => exact execPioLoopb_held _ _ h
  | pioBc => exact execPioBc_held _ _ _ h
  | pioDrive => exact execPioDrive_held _ _ h
  | pioSample => exact execPioSample_held _ _ _ h
  | pioFetch => exact execPioFetch_held _ _ h
  | pioStore => exact execPioStore_held _ _ h
  | pioLoad => exact execPioLoad_held _ _ h
  | pioAwait => exact execPioAwait_held _ _ _ h
  | pioFlag => exact execPioFlag_held _ _ h
  | pioCopy => exact execPioCopy_held _ _ _ h
  | pioUnpack => exact execPioUnpack_held _ _ h
  | pioPack => exact execPioPack_held _ _ h
  | pioNop => exact execPioNop_held _ _ h
  | pioWaitEnd => exact execPioWaitEnd_held _ _ _ h
  | pioDelayExpiry => exact execPioDelayExpiry_held _ _ h
  | pioSmEnable => exact execPioSmEnable_held _ _ _ _ h
  | pioSmDisable => exact execPioSmDisable_held _ _ _ _ h
  | pioRestart => exact execPioRestart_held _ _ _ _ h
  | pioFifoClear => exact execPioFifoClear_held _ _ _ _ h
  | pioWrapWrite => exact execPioWrapWrite_held _ _ _ _ h
  | pioSyncApplyArm => exact execPioSyncApplyArm_held _ _ h
  | pioSyncCancel => exact execPioSyncCancel_held _ _ h
  | pioSyncApply => exact execPioSyncApply_held _ h
  | pioFlagSetWrite => exact execPioFlagSetWrite_held _ _ _ _ h
  | pioFlagClearWrite => exact execPioFlagClearWrite_held _ _ _ _ h
  | pioTxFifoPush => exact execPioTxFifoPush_held _ _ _ _ h
  | pioRxFifoPop => exact execPioRxFifoPop_held _ _ _ h
  | pioDmaEnable => exact execPioDmaEnable_held _ _ _ _ h
  | pioDmaStop => exact execPioDmaStop_held _ _ _ _ h
  | pioDmaWord => exact execPioDmaWord_held _ _ h
  | bankPowerWrite => exact execBankPowerWrite_held _ _ _ _ h
  | bankTransitionDone => exact execBankTransitionDone_held _ _ h
  | scrubPassStart => exact execScrubPassStart_held _ h
  | scrubPassDone => exact execScrubPassDone_held _ h
  | mboxLockRead => exact execMboxLockRead_held _ _ _ h
  | mboxLockRelease => exact execMboxLockRelease_held _ _ _ _ h
  | mboxPost => exact execMboxPost_held _ _ _ _ _ h
  | mboxDoorbellRead => exact execMboxDoorbellRead_held _ _ _ h
  | mboxDoorbellClear => exact execMboxDoorbellClear_held _ _ _ _ h
  | mboxMaskWrite => exact execMboxMaskWrite_held _ _ _ _ h
  | mboxDiscardZeroed => exact execMboxDiscardZeroed_held _ _ h
  | pciePerst => exact execPciePerst_held _ h
  | pcieFlr => exact execPcieFlr_held _ h
  | pcieLinkDownTimeout => exact execPcieLinkDownTimeout_held _ h
  | pcieLinkUp => exact execPcieLinkUp_held _ _ _ _ _ h
  | pcieLinkDown => exact execPcieLinkDown_held _ h
  | pcieAtomicOp => exact execPcieAtomicOp_held _ _ _ _ _ h
  | msixUnmask => exact execMsixUnmask_held _ _ h
  | hostDmaTailWrite => exact execHostDmaTailWrite_held _ _ _ _ h
  | hostDmaDescriptor => exact execHostDmaDescriptor_held _ _ _ _ h
  | hostDmaAbort => exact execHostDmaAbort_held _ _ _ _ _ h
  | qspiReadId => exact execQspiReadId_held _ h
  | qspiReadStatus => exact execQspiReadStatus_held _ h
  | qspiRead => exact execQspiRead_held _ _ _ _ h
  | qspiWrite => exact execQspiWrite_held _ _ _ h
  | qspiAtomicAdd => exact execQspiAtomicAdd_held _ _ _ _ h
  | qspiAtomicSwap => exact execQspiAtomicSwap_held _ _ _ _ h
  | qspiAtomicResult => exact execQspiAtomicResult_held _ h
  | qspiResetEnable => exact execQspiResetEnable_held _ h
  | qspiReset => exact execQspiReset_held _ h
  | qspiUnknownOpcode => exact execQspiUnknownOpcode_held _ _ h
  | sessionOpen => exact execSessionOpen_held _ _ h
  | sessionProve => exact execSessionProve_held _ _ _ h
  | sessionOdAccess => exact execSessionOdAccess_held _ _ _ h
  | sessionClose => exact execSessionClose_held _ _ _ h
  | sessionIdleTimeout => exact execSessionIdleTimeout_held _ _ h
  | hostLoadGo => exact execHostLoadGo_held _ _ _ h
  | hostLoadVerified => exact execHostLoadVerified_held _ _ h
  | recordEvent => exact execRecordEvent_held _ _ _ h
  | recordCommitted => exact execRecordCommitted_held _ h
  | logScanDone => exact execLogScanDone_held _ h
  | logClear => exact execLogClear_held _ _ _ h
  | operatingMinute => exact execOperatingMinute_held _ h
  | tempSample => exact execTempSample_held _ _ _ h
  | supplyExcursion => exact execSupplyExcursion_held _ _ _ h
  | supplyRecovered => exact execSupplyRecovered_held _ _ _ h
  | paceUpdate => exact execPaceUpdate_held _ _ h
  | marginRecord => exact execMarginRecord_held _ h
  | perturbArm => exact execPerturbArm_held _ _ _ h
  | perturbArmed => exact execPerturbArmed_held _ h
  | perturbDisarm => exact execPerturbDisarm_held _ _ _ h
  | testInServiceWrite => exact execTestInServiceWrite_held _ _ _ _ h
  | testTimeoutExpiry => exact execTestTimeoutExpiry_held _ h
  | autoDisarmExpiry => exact execAutoDisarmExpiry_held _ h
  | backpressureSlot => exact execBackpressureSlot_held _ h
  | symbolInject => exact execSymbolInject_held _ h
  | jitterDraw => exact execJitterDraw_held _ h
  | jtagUnlock => exact execJtagUnlock_held _ _ _ h
  | jtagInstruction => exact execJtagInstruction_held _ _ h
  | illegalEncoding => exact execIllegalEncoding_held _ _ h
  | resetNPulseIgnored => exact execResetNPulseIgnored_held _ h
  | pciePerstRelease => exact execPciePerstRelease_held _ h
  | serdesLockAcquired => exact execSerdesLockAcquired_held _ _ h
  | streamGateListOperational => exact execStreamGateListOperational_held _ _ _ h
  | fdbCommandDone => exact execFdbCommandDone_held _ h
  | guardTableChecked => exact execGuardTableChecked_held _ _ h
  | paceWindowEnd => exact execPaceWindowEnd_held _ _ _ h
  | triggeredHello => exact execTriggeredHello_held _ _ _ h

end Sys2Proof.Machine
end

