-- ==== Sys2Proof/Laws/Kept.lean ====
section
/-! SUPPORT. What every operation of the model keeps: the queue of waiting commands, what has been emitted, the clock and the
counter of free values (neither goes back), and the canonical form of memory and of the Object Dictionary. One lemma per
operation: if all of this is kept from `s0` to `s`, it is kept from `s0` to the operation's result on `s`. -/

namespace Sys2Proof.Machine
set_option maxRecDepth 4000
set_option linter.all false

/-- From `s0` to `s` the queue is the same, outputs are only appended, the clock and the counter of free values do not go back,
and a canonical state stays canonical. -/
def Kept (s0 s : State) : Prop :=
  s.pending = s0.pending ∧ (∃ l, s.out = s0.out ++ l) ∧ s0.ticks ≤ s.ticks ∧ s0.freeCtr ≤ s.freeCtr ∧
    (s0.Canonical → s.Canonical)

theorem kept_refl (s : State) : Kept s s := ⟨rfl, ⟨[], by simp⟩, Nat.le_refl _, Nat.le_refl _, id⟩

/-! ### Updates of single fields -/

theorem kept_same {s0 s : State} {x5 x6 x7 x8 x9 x10 x11 x12 x13 x14 x15 x16 x17 x18 x20 x21 x22 x23 x24 x25 x26 x27 x28 x29 x30 x31 x32} : Kept s0 (State.mk s.pending s.freeCtr s.out s.od s.mem x5 x6 x7 x8 x9 x10 x11 x12 x13 x14 x15 x16 x17 x18 s.ticks x20 x21 x22 x23 x24 x25 x26 x27 x28 x29 x30 x31 x32) ↔ Kept s0 s :=
  Iff.rfl
theorem kept_od {s0 s : State} {x5 x6 x7 x8 x9 x10 x11 x12 x13 x14 x15 x16 x17 x18 x20 x21 x22 x23 x24 x25 x26 x27 x28 x29 x30 x31 x32} {k : Nat} {v : DWord} (h : Kept s0 s) : Kept s0 (State.mk s.pending s.freeCtr s.out (tblSet odDefault k v s.od) s.mem x5 x6 x7 x8 x9 x10 x11 x12 x13 x14 x15 x16 x17 x18 s.ticks x20 x21 x22 x23 x24 x25 x26 x27 x28 x29 x30 x31 x32) :=
  ⟨h.1, h.2.1, h.2.2.1, h.2.2.2.1, fun c => ⟨(h.2.2.2.2 c).1, tblWf_set _ _ _ _ (h.2.2.2.2 c).2⟩⟩
theorem kept_odClear {s0 s : State} {x5 x6 x7 x8 x9 x10 x11 x12 x13 x14 x15 x16 x17 x18 x20 x21 x22 x23 x24 x25 x26 x27 x28 x29 x30 x31 x32} {k v : Nat} (h : Kept s0 s) : Kept s0 (State.mk s.pending s.freeCtr s.out (tblClear k v s.od) s.mem x5 x6 x7 x8 x9 x10 x11 x12 x13 x14 x15 x16 x17 x18 s.ticks x20 x21 x22 x23 x24 x25 x26 x27 x28 x29 x30 x31 x32) :=
  ⟨h.1, h.2.1, h.2.2.1, h.2.2.2.1, fun c => ⟨(h.2.2.2.2 c).1, tblWf_clear _ _ _ _ (h.2.2.2.2 c).2⟩⟩
theorem kept_odKeep {s0 s : State} {x5 x6 x7 x8 x9 x10 x11 x12 x13 x14 x15 x16 x17 x18 x20 x21 x22 x23 x24 x25 x26 x27 x28 x29 x30 x31 x32} {f : Nat → Bool} (h : Kept s0 s) : Kept s0 (State.mk s.pending s.freeCtr s.out (tblKeep f s.od) s.mem x5 x6 x7 x8 x9 x10 x11 x12 x13 x14 x15 x16 x17 x18 s.ticks x20 x21 x22 x23 x24 x25 x26 x27 x28 x29 x30 x31 x32) :=
  ⟨h.1, h.2.1, h.2.2.1, h.2.2.2.1, fun c => ⟨(h.2.2.2.2 c).1, tblWf_keep _ _ _ (h.2.2.2.2 c).2⟩⟩
theorem kept_mem {s0 s : State} {x5 x6 x7 x8 x9 x10 x11 x12 x13 x14 x15 x16 x17 x18 x20 x21 x22 x23 x24 x25 x26 x27 x28 x29 x30 x31 x32} {k : Nat} {v : Byte} (h : Kept s0 s) : Kept s0 (State.mk s.pending s.freeCtr s.out s.od (tblSet memDefault k v s.mem) x5 x6 x7 x8 x9 x10 x11 x12 x13 x14 x15 x16 x17 x18 s.ticks x20 x21 x22 x23 x24 x25 x26 x27 x28 x29 x30 x31 x32) :=
  ⟨h.1, h.2.1, h.2.2.1, h.2.2.2.1, fun c => ⟨tblWf_set _ _ _ _ (h.2.2.2.2 c).1, (h.2.2.2.2 c).2⟩⟩
theorem kept_memClear {s0 s : State} {x5 x6 x7 x8 x9 x10 x11 x12 x13 x14 x15 x16 x17 x18 x20 x21 x22 x23 x24 x25 x26 x27 x28 x29 x30 x31 x32} {k v : Nat} (h : Kept s0 s) : Kept s0 (State.mk s.pending s.freeCtr s.out s.od (tblClear k v s.mem) x5 x6 x7 x8 x9 x10 x11 x12 x13 x14 x15 x16 x17 x18 s.ticks x20 x21 x22 x23 x24 x25 x26 x27 x28 x29 x30 x31 x32) :=
  ⟨h.1, h.2.1, h.2.2.1, h.2.2.2.1, fun c => ⟨tblWf_clear _ _ _ _ (h.2.2.2.2 c).1, (h.2.2.2.2 c).2⟩⟩
theorem kept_keepBoth {s0 s : State} {x5 x6 x7 x8 x9 x10 x11 x12 x13 x14 x15 x16 x17 x18 x20 x21 x22 x23 x24 x25 x26 x27 x28 x29 x30 x31 x32} {f g : Nat → Bool} (h : Kept s0 s) : Kept s0 (State.mk s.pending s.freeCtr s.out (tblKeep g s.od) (tblKeep f s.mem) x5 x6 x7 x8 x9 x10 x11 x12 x13 x14 x15 x16 x17 x18 s.ticks x20 x21 x22 x23 x24 x25 x26 x27 x28 x29 x30 x31 x32) :=
  ⟨h.1, h.2.1, h.2.2.1, h.2.2.2.1, fun c => ⟨tblWf_keep _ _ _ (h.2.2.2.2 c).1, tblWf_keep _ _ _ (h.2.2.2.2 c).2⟩⟩
theorem kept_out {s0 s : State} {x5 x6 x7 x8 x9 x10 x11 x12 x13 x14 x15 x16 x17 x18 x20 x21 x22 x23 x24 x25 x26 x27 x28 x29 x30 x31 x32} {l : List Out} (h : Kept s0 s) : Kept s0 (State.mk s.pending s.freeCtr (s.out ++ l) s.od s.mem x5 x6 x7 x8 x9 x10 x11 x12 x13 x14 x15 x16 x17 x18 s.ticks x20 x21 x22 x23 x24 x25 x26 x27 x28 x29 x30 x31 x32) :=
  ⟨h.1, by obtain ⟨a, e⟩ := h.2.1; exact ⟨a ++ l, by rw [e, List.append_assoc]⟩, h.2.2.1, h.2.2.2.1, h.2.2.2.2⟩
theorem kept_free {s0 s : State} {x5 x6 x7 x8 x9 x10 x11 x12 x13 x14 x15 x16 x17 x18 x20 x21 x22 x23 x24 x25 x26 x27 x28 x29 x30 x31 x32} {k : Nat} (h : Kept s0 s) : Kept s0 (State.mk s.pending (s.freeCtr + k) s.out s.od s.mem x5 x6 x7 x8 x9 x10 x11 x12 x13 x14 x15 x16 x17 x18 s.ticks x20 x21 x22 x23 x24 x25 x26 x27 x28 x29 x30 x31 x32) :=
  ⟨h.1, h.2.1, h.2.2.1, Nat.le_trans h.2.2.2.1 (Nat.le_add_right _ _), h.2.2.2.2⟩
theorem kept_ticks {s0 s : State} {x5 x6 x7 x8 x9 x10 x11 x12 x13 x14 x15 x16 x17 x18 x20 x21 x22 x23 x24 x25 x26 x27 x28 x29 x30 x31 x32} {k : Nat} (h : Kept s0 s) : Kept s0 (State.mk s.pending s.freeCtr s.out s.od s.mem x5 x6 x7 x8 x9 x10 x11 x12 x13 x14 x15 x16 x17 x18 (s.ticks + k) x20 x21 x22 x23 x24 x25 x26 x27 x28 x29 x30 x31 x32) :=
  ⟨h.1, h.2.1, Nat.le_trans h.2.2.1 (Nat.le_add_right _ _), h.2.2.2.1, h.2.2.2.2⟩

theorem kept_foldl {α : Type} {s0 : State} {f : State → α → State} (h : ∀ s a, Kept s0 s → Kept s0 (f s a)) {l : List α}
    {s : State} (hs : Kept s0 s) : Kept s0 (l.foldl f s) := by
  induction l generalizing s with
  | nil => exact hs
  | cons x l ih => exact ih (h _ _ hs)

theorem kept_ite {s0 : State} {c : Prop} [Decidable c] {a b : State} (ha : Kept s0 a) (hb : Kept s0 b) :
    Kept s0 (if c then a else b) := by
  split <;> assumption

theorem kept_ite2 {α : Type} {s0 : State} {c : Prop} [Decidable c] {a b : α × State} (ha : Kept s0 a.2) (hb : Kept s0 b.2) :
    Kept s0 (if c then a else b).2 := by
  split <;> assumption

theorem kept_ite3 {α β : Type} {s0 : State} {c : Prop} [Decidable c] {a b : α × β × State} (ha : Kept s0 a.2.2)
    (hb : Kept s0 b.2.2) : Kept s0 (if c then a else b).2.2 := by
  split <;> assumption

theorem kept_ite4 {α β γ : Type} {s0 : State} {c : Prop} [Decidable c] {a b : α × β × γ × State} (ha : Kept s0 a.2.2.2)
    (hb : Kept s0 b.2.2.2) : Kept s0 (if c then a else b).2.2.2 := by
  split <;> assumption

theorem kept_orElse {α : Type} {a : Option α} {f : Unit → Option α} {t : α} (h : a.orElse f = some t) :
    a = some t ∨ f () = some t := by
  cases a <;> simp_all

/-! ### One lemma per operation -/


@[simp] theorem State.wr_kept {s0 : State} (s : State) (i j v : Nat) (hc : Kept s0 s) :
    Kept s0 (State.wr s i j v) := by
  unfold State.wr
  repeat' first | (with_reducible first | assumption | apply kept_od | apply kept_odClear | apply kept_odKeep) | simp only [kept_same] | dsimp only
@[simp] theorem State.wrD_kept {s0 : State} (s : State) (i j : Nat) (v : DWord) (hc : Kept s0 s) :
    Kept s0 (State.wrD s i j v) := by
  unfold State.wrD
  repeat' first | (with_reducible first | assumption | apply kept_od | apply kept_odClear | apply kept_odKeep) | simp only [kept_same] | dsimp only
@[simp] theorem State.setBits_kept {s0 : State} (s : State) (i j m : Nat) (hc : Kept s0 s) :
    Kept s0 (State.setBits s i j m) := by
  unfold State.setBits
  repeat' first | (with_reducible first | assumption | apply State.wr_kept) | dsimp only
@[simp] theorem State.clrBits_kept {s0 : State} (s : State) (i j m : Nat) (hc : Kept s0 s) :
    Kept s0 (State.clrBits s i j m) := by
  unfold State.clrBits
  repeat' first | (with_reducible first | assumption | apply State.wr_kept) | dsimp only
@[simp] theorem State.putBits_kept {s0 : State} (s : State) (i j m : Nat) (on : Bool) (hc : Kept s0 s) :
    Kept s0 (State.putBits s i j m on) := by
  unfold State.putBits
  repeat' first | (with_reducible first | assumption | apply kept_ite | apply State.clrBits_kept | apply State.setBits_kept) | dsimp only
@[simp] theorem State.setBit_kept {s0 : State} (s : State) (i j b : Nat) (hc : Kept s0 s) :
    Kept s0 (State.setBit s i j b) := by
  unfold State.setBit
  repeat' first | (with_reducible first | assumption | apply State.setBits_kept) | dsimp only
@[simp] theorem State.emit_kept {s0 : State} (s : State) (o : Out) (hc : Kept s0 s) :
    Kept s0 (State.emit s o) := by
  unfold State.emit
  repeat' first | (with_reducible first | assumption | apply kept_out) | simp only [kept_same] | dsimp only
@[simp] theorem State.tick_kept {s0 : State} (s : State) (hc : Kept s0 s) :
    Kept s0 (State.tick s) := by
  unfold State.tick
  repeat' first | (with_reducible first | assumption | apply kept_free) | simp only [kept_same] | dsimp only
@[simp] theorem State.setEngine_kept {s0 : State} (s : State) (c : Nat) (e : Engine) (hc : Kept s0 s) :
    Kept s0 (State.setEngine s c e) := by
  unfold State.setEngine
  repeat' first | (with_reducible first | assumption) | simp only [kept_same] | intro _ | dsimp only
@[simp] theorem State.setChan_kept {s0 : State} (s : State) (c : Nat) (m : Mbox) (hc : Kept s0 s) :
    Kept s0 (State.setChan s c m) := by
  unfold State.setChan
  repeat' first | (with_reducible first | assumption) | simp only [kept_same] | intro _ | dsimp only
@[simp] theorem State.setPort_kept {s0 : State} (s : State) (p : Nat) (x : Port) (hc : Kept s0 s) :
    Kept s0 (State.setPort s p x) := by
  unfold State.setPort
  repeat' first | (with_reducible first | assumption) | simp only [kept_same] | intro _ | dsimp only
@[simp] theorem State.msix_kept {s0 : State} (s : State) (v : Nat) (hc : Kept s0 s) :
    Kept s0 (State.msix s v) := by
  unfold State.msix
  repeat' first | (with_reducible first | assumption | apply kept_ite | apply State.emit_kept) | simp only [kept_same] | dsimp only
@[simp] theorem State.evpSet_kept {s0 : State} (s : State) (c b : Nat) (hc : Kept s0 s) :
    Kept s0 (State.evpSet s c b) := by
  unfold State.evpSet
  repeat' first | (with_reducible first | assumption | apply State.setEngine_kept) | simp only [kept_same] | dsimp only
@[simp] theorem State.notify_kept {s0 : State} (s : State) (r : Nat) (hc : Kept s0 s) :
    Kept s0 (State.notify s r) := by
  unfold State.notify
  extract_lets z0 z1 z2 z3 z4
  try clear_value z0
  try clear_value z1
  have h2 : Kept s0 z2 := by repeat' first | (with_reducible first | assumption | apply kept_ite | apply State.msix_kept) | dsimp only
  try clear_value z2
  have h3 : Kept s0 z3 := by repeat' first | (with_reducible first | assumption | apply kept_ite | apply State.evpSet_kept) | dsimp only
  try clear_value z3
  have h4 : Kept s0 z4 := by repeat' first | (with_reducible first | assumption | apply kept_ite | apply State.evpSet_kept) | dsimp only
  try clear_value z4
  repeat' first | (with_reducible first | assumption | apply State.wr_kept) | dsimp only
@[simp] theorem State.route_kept {s0 : State} (s : State) (r : Nat) (statusWritten : Bool) (hc : Kept s0 s) :
    Kept s0 (State.route s r statusWritten) := by
  unfold State.route
  extract_lets z0 z1 z2
  try clear_value z0
  try clear_value z1
  have h2 : Kept s0 z2 := by repeat' first | (with_reducible first | assumption | apply kept_ite | apply State.wr_kept) | dsimp only
  try clear_value z2
  repeat' first | (with_reducible first | assumption | apply kept_ite | apply State.notify_kept) | dsimp only
@[simp] theorem State.event_kept {s0 : State} (s : State) (i j m : Nat) (hc : Kept s0 s) :
    Kept s0 (State.event s i j m) := by
  unfold State.event
  repeat' first | (with_reducible first | assumption | apply State.route_kept | apply State.setBits_kept) | dsimp only
@[simp] theorem State.addW_kept {s0 : State} (s : State) (i j w k : Nat) (hc : Kept s0 s) :
    Kept s0 (State.addW s i j w k) := by
  unfold State.addW
  repeat' first | (with_reducible first | assumption | apply State.wr_kept) | dsimp only
@[simp] theorem State.cnt_kept {s0 : State} (s : State) (i j : Nat) (hc : Kept s0 s) :
    Kept s0 (State.cnt s i j) := by
  unfold State.cnt
  repeat' first | (with_reducible first | assumption | apply State.addW_kept) | dsimp only
@[simp] theorem State.cntS_kept {s0 : State} (s : State) (i j : Nat) (hc : Kept s0 s) :
    Kept s0 (State.cntS s i j) := by
  unfold State.cntS
  repeat' first | (with_reducible first | assumption | apply State.wr_kept) | dsimp only
@[simp] theorem State.addH_kept {s0 : State} (s : State) (i j w k ei ej : Nat) (hc : Kept s0 s) :
    Kept s0 (State.addH s i j w k ei ej) := by
  unfold State.addH
  extract_lets z0 z1 z2
  try clear_value z0
  try clear_value z1
  have h2 : Kept s0 z2 := by repeat' first | (with_reducible first | assumption | apply State.wr_kept) | dsimp only
  try clear_value z2
  repeat' first | (with_reducible first | assumption | apply kept_ite | apply State.event_kept) | dsimp only
@[simp] theorem State.cntH_kept {s0 : State} (s : State) (i j ei ej : Nat) (hc : Kept s0 s) :
    Kept s0 (State.cntH s i j ei ej) := by
  unfold State.cntH
  repeat' first | (with_reducible first | assumption | apply State.addH_kept) | dsimp only
@[simp] theorem State.setByte_kept {s0 : State} (s : State) (a : Nat) (b : Byte) (hc : Kept s0 s) :
    Kept s0 (State.setByte s a b) := by
  unfold State.setByte
  repeat' first | (with_reducible first | assumption | apply kept_mem | apply kept_memClear | apply kept_keepBoth) | simp only [kept_same] | dsimp only
@[simp] theorem State.setBytes_kept {s0 : State} (s : State) (a : Nat) (x0 : List Byte) (hc : Kept s0 s) :
    Kept s0 (State.setBytes s a x0) := by
  induction x0 generalizing s a <;> first | (simp_all [State.setBytes]; done) | (unfold State.setBytes; (repeat' split) <;> simp_all)
@[simp] theorem State.setW32_kept {s0 : State} (s : State) (a v : Nat) (hc : Kept s0 s) :
    Kept s0 (State.setW32 s a v) := by
  unfold State.setW32
  repeat' first | (with_reducible first | assumption | apply State.setBytes_kept) | dsimp only
@[simp] theorem State.zeroRange_kept {s0 : State} (s : State) (lo hi : Nat) (hc : Kept s0 s) :
    Kept s0 (State.zeroRange s lo hi) := by
  unfold State.zeroRange
  repeat' first | (with_reducible first | assumption | apply kept_mem | apply kept_memClear | apply kept_keepBoth) | simp only [kept_same] | dsimp only
@[simp] theorem State.enter_kept {s0 : State} (s : State) (st : Nat) (hc : Kept s0 s) :
    Kept s0 (State.enter s st) := by
  unfold State.enter
  repeat' first | (with_reducible first | assumption | apply kept_ite | apply State.event_kept | apply State.wr_kept) | dsimp only
@[simp] theorem State.errGeneric_kept {s0 : State} (s : State) (hc : Kept s0 s) :
    Kept s0 (State.errGeneric s) := by
  unfold State.errGeneric
  extract_lets z0
  try clear_value z0
  repeat' first | (with_reducible first | assumption | apply kept_ite | apply State.wr_kept) | dsimp only
@[simp] theorem State.errBit_kept {s0 : State} (s : State) (b : Nat) (on : Bool) (hc : Kept s0 s) :
    Kept s0 (State.errBit s b on) := by
  unfold State.errBit
  repeat' first | (with_reducible first | assumption | apply State.errGeneric_kept | apply State.putBits_kept) | dsimp only
@[simp] theorem State.holdLow_kept {s0 : State} (s : State) (hc : Kept s0 s) :
    Kept s0 (State.holdLow s) := by
  unfold State.holdLow
  repeat' first | (with_reducible first | assumption | apply kept_ite | apply State.event_kept | apply State.wr_kept) | dsimp only
@[simp] theorem State.hold_kept {s0 : State} (s : State) (m : Nat) (hc : Kept s0 s) :
    Kept s0 (State.hold s m) := by
  unfold State.hold
  repeat' first | (with_reducible first | assumption | apply State.holdLow_kept | apply State.setBits_kept) | dsimp only
@[simp] theorem State.unhold_kept {s0 : State} (s : State) (m : Nat) (hc : Kept s0 s) :
    Kept s0 (State.unhold s m) := by
  unfold State.unhold
  repeat' first | (with_reducible first | assumption | apply State.clrBits_kept) | dsimp only
@[simp] theorem State.violate_kept {s0 : State} (s : State) (id : Nat) (hc : Kept s0 s) :
    Kept s0 (State.violate s id) := by
  unfold State.violate
  repeat' first | (with_reducible first | assumption | apply kept_ite | apply State.cnt_kept) | dsimp only
@[simp] theorem State.showAllowances_kept {s0 : State} (s : State) (hc : Kept s0 s) :
    Kept s0 (State.showAllowances s) := by
  unfold State.showAllowances
  repeat' first | (with_reducible first | assumption | (apply kept_foldl; intro _ _ _) | apply State.wr_kept) | intro _ | dsimp only
@[simp] theorem State.admitRec_kept {s0 : State} (s : State) (r : Rec) (hc : Kept s0 s) :
    Kept s0 (State.admitRec s r) := by
  unfold State.admitRec
  extract_lets z0 z1
  try clear_value z0
  try clear_value z1
  repeat' first | (with_reducible first | assumption | apply kept_ite | apply State.cntS_kept | apply State.event_kept | apply State.showAllowances_kept | apply State.wr_kept) | simp only [kept_same] | intro _ | dsimp only
@[simp] theorem State.record_kept {s0 : State} (s : State) (typ : Nat) (body : List Byte) (hc : Kept s0 s) :
    Kept s0 (State.record s typ body) := by
  unfold State.record
  extract_lets z0
  try clear_value z0
  repeat' first | (with_reducible first | assumption | apply kept_ite | apply State.admitRec_kept | apply State.cntS_kept) | simp only [kept_same] | dsimp only
@[simp] theorem State.setTdom_kept {s0 : State} (s : State) (d : Nat) (x : TimeDom) (hc : Kept s0 s) :
    Kept s0 (State.setTdom s d x) := by
  unfold State.setTdom
  repeat' first | (with_reducible first | assumption) | simp only [kept_same] | intro _ | dsimp only
@[simp] theorem State.setLaunch_kept {s0 : State} (s : State) (k : Nat) (x : Launch) (hc : Kept s0 s) :
    Kept s0 (State.setLaunch s k x) := by
  unfold State.setLaunch
  repeat' first | (with_reducible first | assumption) | simp only [kept_same] | intro _ | dsimp only
@[simp] theorem State.setDomVal_kept {s0 : State} (s : State) (d v : Nat) (hc : Kept s0 s) :
    Kept s0 (State.setDomVal s d v) := by
  unfold State.setDomVal
  repeat' first | (with_reducible first | assumption | apply State.wr_kept) | dsimp only
@[simp] theorem State.domAdvance_kept {s0 : State} (s : State) (d k : Nat) (hc : Kept s0 s) :
    Kept s0 (State.domAdvance s d k) := by
  unfold State.domAdvance
  extract_lets z0 z1 z2
  try clear_value z0
  try clear_value z1
  have h2 : Kept s0 z2 := by repeat' first | (with_reducible first | assumption | apply State.setDomVal_kept) | dsimp only
  try clear_value z2
  repeat' first | (with_reducible first | assumption | apply kept_ite | apply State.wr_kept) | dsimp only
@[simp] theorem State.advance_kept {s0 : State} (s : State) (k : Nat) (hc : Kept s0 s) :
    Kept s0 (State.advance s k) := by
  unfold State.advance
  repeat' first | (with_reducible first | assumption | apply kept_ite | (apply kept_foldl; intro _ _ _) | apply State.domAdvance_kept | apply kept_ticks) | simp only [kept_same] | intro _ | dsimp only
@[simp] theorem State.setRing_kept {s0 : State} (s : State) (n : Nat) (x : Ring) (hc : Kept s0 s) :
    Kept s0 (State.setRing s n x) := by
  unfold State.setRing
  repeat' first | (with_reducible first | assumption) | simp only [kept_same] | intro _ | dsimp only
@[simp] theorem State.setTrack_kept {s0 : State} (s : State) (t : Nat) (x : Track) (hc : Kept s0 s) :
    Kept s0 (State.setTrack s t x) := by
  unfold State.setTrack
  repeat' first | (with_reducible first | assumption) | simp only [kept_same] | intro _ | dsimp only
@[simp] theorem State.locusEvent_kept {s0 : State} (s : State) (b : Nat) (hc : Kept s0 s) :
    Kept s0 (State.locusEvent s b) := by
  unfold State.locusEvent
  repeat' first | (with_reducible first | assumption | apply State.event_kept) | dsimp only
@[simp] theorem State.swapCancel_kept {s0 : State} (s : State) (hc : Kept s0 s) :
    Kept s0 (State.swapCancel s) := by
  unfold State.swapCancel
  repeat' first | (with_reducible first | assumption | apply State.locusEvent_kept | apply State.wr_kept) | simp only [kept_same] | dsimp only
@[simp] theorem State.swapLeave_kept {s0 : State} (s : State) (t : Nat) (hc : Kept s0 s) : Kept s0 (State.swapLeave s t) := by
  unfold State.swapLeave; (repeat' (first | with_reducible assumption | with_reducible apply kept_ite | with_reducible apply kept_ite2 | with_reducible apply kept_ite3 | with_reducible apply kept_ite4 | with_reducible apply State.cnt_kept | with_reducible apply State.locusEvent_kept | with_reducible apply State.wr_kept | simp only [kept_same] | intro _ | dsimp only))
@[simp] theorem State.swapUntie_kept {s0 : State} (s : State) (n : Nat) (hc : Kept s0 s) :
    Kept s0 (State.swapUntie s n) := by
  unfold State.swapUntie
  extract_lets z0
  try clear_value z0
  repeat' first | (with_reducible first | assumption | apply kept_ite | apply State.swapCancel_kept) | intro _ | dsimp only
@[simp] theorem State.setInst_kept {s0 : State} (s : State) (n : Nat) (x : Inst) (hc : Kept s0 s) :
    Kept s0 (State.setInst s n x) := by
  unfold State.setInst
  repeat' first | (with_reducible first | assumption) | simp only [kept_same] | intro _ | dsimp only
@[simp] theorem State.instFault_kept {s0 : State} (s : State) (e : Nat) (hc : Kept s0 s) :
    Kept s0 (State.instFault s e) := by
  unfold State.instFault
  repeat' first | (with_reducible first | assumption | apply kept_ite | (apply kept_foldl; intro _ _ _) | apply State.event_kept | apply State.record_kept | apply State.wr_kept) | intro _ | dsimp only
@[simp] theorem State.chordLoss_kept {s0 : State} (s : State) (p : Nat) (hc : Kept s0 s) :
    Kept s0 (State.chordLoss s p) := by
  unfold State.chordLoss
  repeat' first | (with_reducible first | assumption | apply kept_ite | (apply kept_foldl; intro _ _ _) | apply State.wr_kept) | intro _ | dsimp only
@[simp] theorem State.chordBack_kept {s0 : State} (s : State) (p : Nat) (hc : Kept s0 s) :
    Kept s0 (State.chordBack s p) := by
  unfold State.chordBack
  repeat' first | (with_reducible first | assumption | apply kept_ite | (apply kept_foldl; intro _ _ _) | apply State.wr_kept) | intro _ | dsimp only
@[simp] theorem State.guard_kept {s0 : State} (s : State) (p : Path) (i j v : Nat) (f : State → State) (hf : ∀ s, Kept s0 s → Kept s0 (f s)) (hc : Kept s0 s) :
    Kept s0 (State.guard s p i j v f) := by
  unfold State.guard
  repeat' first | (with_reducible first | assumption | apply kept_ite | apply State.violate_kept | apply hf) | intro _ | dsimp only
@[simp] theorem State.mboxServe_kept {s0 : State} (s : State) (c : Nat) (was : Word) (again : Bool) (hc : Kept s0 s) :
    Kept s0 (State.mboxServe s c was again) := by
  unfold State.mboxServe
  repeat' first | (with_reducible first | assumption | apply kept_ite | apply State.msix_kept) | dsimp only
@[simp] theorem State.lockRead_kept {s0 : State} (s : State) (c m : Nat) (hc : Kept s0 s) :
    Kept s0 (State.lockRead s c m).2 := by
  unfold State.lockRead
  extract_lets z0
  try clear_value z0
  repeat' first | (with_reducible first | assumption | apply kept_ite | apply State.cnt_kept | apply State.wr_kept | apply kept_ite2 | apply kept_ite3 | apply kept_ite4) | dsimp only
@[simp] theorem State.lockFree_kept {s0 : State} (s : State) (c : Nat) (hc : Kept s0 s) :
    Kept s0 (State.lockFree s c) := by
  unfold State.lockFree
  repeat' first | (with_reducible first | assumption | apply State.wr_kept) | dsimp only
@[simp] theorem State.post_kept {s0 : State} (s : State) (c : Nat) (bits : Word) (len : Nat) (hc : Kept s0 s) :
    Kept s0 (State.post s c bits len) := by
  unfold State.post
  extract_lets z0 z1 z2 z3
  try clear_value z0
  try clear_value z1
  try clear_value z2
  have h3 : Kept s0 z3 := by repeat' first | (with_reducible first | assumption | apply kept_ite | apply State.setChan_kept | apply State.wr_kept) | simp only [kept_same] | dsimp only
  try clear_value z3
  repeat' first | (with_reducible first | assumption | apply State.cnt_kept | apply State.mboxServe_kept) | dsimp only
@[simp] theorem State.dbRead_kept {s0 : State} (s : State) (c : Nat) (hc : Kept s0 s) :
    Kept s0 (State.dbRead s c).2 := by
  unfold State.dbRead
  repeat' first | (with_reducible first | assumption | apply kept_ite | apply State.cnt_kept | apply State.event_kept | apply State.wr_kept | apply kept_ite2 | apply kept_ite3 | apply kept_ite4) | dsimp only
@[simp] theorem State.dbClear_kept {s0 : State} (s : State) (c : Nat) (v : Word) (hc : Kept s0 s) :
    Kept s0 (State.dbClear s c v) := by
  unfold State.dbClear
  extract_lets z0 z1 z2
  try clear_value z0
  try clear_value z1
  have h2 : Kept s0 z2 := by repeat' first | (with_reducible first | assumption | apply State.setChan_kept) | simp only [kept_same] | dsimp only
  try clear_value z2
  repeat' first | (with_reducible first | assumption | apply kept_ite | apply State.wr_kept) | dsimp only
@[simp] theorem State.maskWrite_kept {s0 : State} (s : State) (c : Nat) (v : Word) (hc : Kept s0 s) :
    Kept s0 (State.maskWrite s c v) := by
  unfold State.maskWrite
  extract_lets z0
  try clear_value z0
  repeat' first | (with_reducible first | assumption | apply State.mboxServe_kept | apply State.wr_kept) | dsimp only
@[simp] theorem State.composeStart_kept {s0 : State} (s : State) (c : Nat) (hc : Kept s0 s) :
    Kept s0 (State.composeStart s c) := by
  unfold State.composeStart
  repeat' first | (with_reducible first | assumption | apply kept_ite | apply State.wr_kept) | dsimp only
@[simp] theorem State.lockReleaseReset_kept {s0 : State} (s : State) (c : Nat) (hc : Kept s0 s) :
    Kept s0 (State.lockReleaseReset s c) := by
  unfold State.lockReleaseReset
  extract_lets z0
  try clear_value z0
  repeat' first | (with_reducible first | assumption | apply State.cnt_kept | apply State.event_kept | apply State.lockFree_kept | apply State.record_kept) | dsimp only
@[simp] theorem State.ownerReset_kept {s0 : State} (s : State) (c : Nat) (hc : Kept s0 s) :
    Kept s0 (State.ownerReset s c) := by
  unfold State.ownerReset
  extract_lets z0
  try clear_value z0
  repeat' first | (with_reducible first | assumption | apply kept_ite | apply State.cnt_kept | apply State.event_kept | apply State.lockReleaseReset_kept | apply State.record_kept | apply State.setChan_kept | apply State.wr_kept | apply State.zeroRange_kept) | simp only [kept_same] | dsimp only
@[simp] theorem State.receiverReset_kept {s0 : State} (s : State) (c : Nat) (hc : Kept s0 s) :
    Kept s0 (State.receiverReset s c) := by
  unfold State.receiverReset
  extract_lets z0
  have h0 : Kept s0 z0 := by repeat' first | (with_reducible first | assumption | apply State.wr_kept) | dsimp only
  try clear_value z0
  repeat' first | (with_reducible first | assumption | apply kept_ite | apply State.cnt_kept | apply State.event_kept | apply State.setChan_kept | apply State.wr_kept) | simp only [kept_same] | dsimp only
@[simp] theorem State.masterReset_kept {s0 : State} (s : State) (m : Nat) (hc : Kept s0 s) :
    Kept s0 (State.masterReset s m) := by
  unfold State.masterReset
  repeat' first | (with_reducible first | assumption | apply kept_ite | (apply kept_foldl; intro _ _ _) | apply State.ownerReset_kept | apply State.receiverReset_kept) | intro _ | dsimp only
@[simp] theorem State.pathReset_kept {s0 : State} (s : State) (m : Nat) (hc : Kept s0 s) :
    Kept s0 (State.pathReset s m) := by
  unfold State.pathReset
  repeat' first | (with_reducible first | assumption) | simp only [kept_same] | dsimp only
@[simp] theorem State.countOverruns_kept {s0 : State} (s : State) (e k : Nat) (hc : Kept s0 s) :
    Kept s0 (State.countOverruns s e k) := by
  unfold State.countOverruns
  repeat' first | (with_reducible first | assumption | apply kept_ite | apply State.addH_kept) | dsimp only
@[simp] theorem State.laneReceive_kept {s0 : State} (s : State) (e : Nat) (first : Option (Word × BitVec 2)) (nibs : List Nib) (last : Option (BitVec 3)) (hc : Kept s0 s) :
    Kept s0 (State.laneReceive s e first nibs last) := by
  unfold State.laneReceive
  extract_lets z0 z1 z2 z3
  try clear_value z0
  try clear_value z1
  try clear_value z2
  try clear_value z3
  repeat' first | (with_reducible first | assumption | apply State.countOverruns_kept | apply State.setEngine_kept) | dsimp only
@[simp] theorem State.laneSend_kept {s0 : State} (s : State) (e : Nat) (d : List Byte) (stomp : Bool) (hc : Kept s0 s) :
    Kept s0 (State.laneSend s e d stomp) := by
  unfold State.laneSend
  extract_lets z0
  try clear_value z0
  repeat' first | (with_reducible first | assumption | apply kept_ite | apply State.laneReceive_kept | apply State.setPort_kept | apply State.tick_kept) | simp only [kept_same] | dsimp only | split
@[simp] theorem State.settleTx_kept {s0 : State} (s : State) (e : Nat) (hc : Kept s0 s) :
    Kept s0 (State.settleTx s e) := by
  unfold State.settleTx
  extract_lets z0
  try clear_value z0
  repeat' first | (with_reducible first | assumption | apply kept_ite | apply State.laneSend_kept | apply State.setEngine_kept | apply kept_ite2 | apply kept_ite3 | apply kept_ite4) | simp only [kept_same] | dsimp only | split
@[simp] theorem State.txUnderrun_kept {s0 : State} (s : State) (e : Nat) (hc : Kept s0 s) :
    Kept s0 (State.txUnderrun s e) := by
  unfold State.txUnderrun
  extract_lets z0 z1
  try clear_value z0
  have h1 : Kept s0 z1 := by repeat' first | (with_reducible first | assumption | apply State.laneSend_kept | apply State.setEngine_kept) | simp only [kept_same] | dsimp only
  try clear_value z1
  repeat' first | (with_reducible first | assumption | apply State.cntH_kept) | dsimp only
@[simp] theorem State.endLaneFrames_kept {s0 : State} (s : State) (e : Nat) (hc : Kept s0 s) :
    Kept s0 (State.endLaneFrames s e) := by
  unfold State.endLaneFrames
  extract_lets z0 z1 z2
  try clear_value z0
  have h1 : Kept s0 z1 := by repeat' first | (with_reducible first | assumption | apply kept_ite | apply State.laneSend_kept) | dsimp only
  try clear_value z1
  try clear_value z2
  repeat' first | (with_reducible first | assumption | apply State.setEngine_kept) | simp only [kept_same] | dsimp only
@[simp] theorem State.noteBlockReset_kept {s0 : State} (s : State) (master kind unit reason : Nat) (hc : Kept s0 s) :
    Kept s0 (State.noteBlockReset s master kind unit reason) := by
  unfold State.noteBlockReset
  repeat' first | (with_reducible first | assumption | apply kept_ite | apply State.cnt_kept | apply State.hold_kept | apply State.record_kept | apply State.setBit_kept | apply kept_ite2 | apply kept_ite3 | apply kept_ite4) | dsimp only
@[simp] theorem State.dropSubs_kept {s0 : State} (s : State) (i lo hi : Nat) (hc : Kept s0 s) :
    Kept s0 (State.dropSubs s i lo hi) := by
  unfold State.dropSubs
  repeat' first | (with_reducible first | assumption | apply kept_od | apply kept_odClear | apply kept_odKeep) | simp only [kept_same] | dsimp only
@[simp] theorem State.clearEngine_kept {s0 : State} (s : State) (e cause : Nat) (hc : Kept s0 s) :
    Kept s0 (State.clearEngine s e cause) := by
  unfold State.clearEngine
  extract_lets z0 z1 z2 z3
  try clear_value z0
  try clear_value z1
  have h2 : Kept s0 z2 := by repeat' first | (with_reducible first | assumption | apply State.dropSubs_kept | apply State.wr_kept) | dsimp only
  try clear_value z2
  have h3 : Kept s0 z3 := by repeat' first | (with_reducible first | assumption | apply State.wr_kept) | dsimp only
  try clear_value z3
  repeat' first | (with_reducible first | assumption | apply State.setEngine_kept) | dsimp only
@[simp] theorem State.engineReset_kept {s0 : State} (s : State) (e cause : Nat) (hc : Kept s0 s) :
    Kept s0 (State.engineReset s e cause) := by
  unfold State.engineReset
  repeat' first | (with_reducible first | assumption | apply State.clearEngine_kept | apply State.masterReset_kept | apply State.pathReset_kept) | dsimp only
@[simp] theorem State.facetReset_kept {s0 : State} (s : State) (f master reason : Nat) (hc : Kept s0 s) :
    Kept s0 (State.facetReset s f master reason) := by
  unfold State.facetReset
  extract_lets z0 z1 z2 z3 z4 z5
  have h0 : Kept s0 z0 := by repeat' first | (with_reducible first | assumption | (apply kept_foldl; intro _ _ _) | apply State.endLaneFrames_kept | apply State.engineReset_kept | apply State.setEngine_kept) | simp only [kept_same] | intro _ | dsimp only
  try clear_value z0
  try clear_value z1
  have h2 : Kept s0 z2 := by repeat' first | (with_reducible first | assumption | apply State.dropSubs_kept) | dsimp only
  try clear_value z2
  have h3 : Kept s0 z3 := by repeat' first | (with_reducible first | assumption | apply State.event_kept) | dsimp only
  try clear_value z3
  have h4 : Kept s0 z4 := by repeat' first | (with_reducible first | assumption | apply kept_ite | apply State.hold_kept | apply State.setBits_kept) | dsimp only
  try clear_value z4
  have h5 : Kept s0 z5 := by repeat' first | (with_reducible first | assumption | (apply kept_foldl; intro _ _ _) | apply State.instFault_kept) | intro _ | dsimp only
  try clear_value z5
  repeat' first | (with_reducible first | assumption | apply State.noteBlockReset_kept) | dsimp only
@[simp] theorem State.noteNotOn_kept {s0 : State} (s : State) (hc : Kept s0 s) :
    Kept s0 (State.noteNotOn s) := by
  unfold State.noteNotOn
  repeat' first | (with_reducible first | assumption | apply State.cnt_kept | apply State.event_kept) | dsimp only
@[simp] theorem State.setDbe_kept {s0 : State} (s : State) (a : Nat) (b : Bool) (hc : Kept s0 s) :
    Kept s0 (State.setDbe s a b) := by
  unfold State.setDbe
  repeat' first | (with_reducible first | assumption) | simp only [kept_same] | intro _ | dsimp only
@[simp] theorem State.setSbe_kept {s0 : State} (s : State) (a : Nat) (b : Bool) (hc : Kept s0 s) :
    Kept s0 (State.setSbe s a b) := by
  unfold State.setSbe
  repeat' first | (with_reducible first | assumption) | simp only [kept_same] | intro _ | dsimp only
@[simp] theorem State.correct_kept {s0 : State} (s : State) (a : Nat) (hc : Kept s0 s) :
    Kept s0 (State.correct s a) := by
  unfold State.correct
  extract_lets z0
  have h0 : Kept s0 z0 := by repeat' first | (with_reducible first | assumption | apply State.setSbe_kept) | dsimp only
  try clear_value z0
  repeat' first | (with_reducible first | assumption | apply State.cnt_kept | apply State.event_kept) | simp only [kept_same] | dsimp only | split
@[simp] theorem State.meetDbe_kept {s0 : State} (s : State) (a m : Nat) (hc : Kept s0 s) :
    Kept s0 (State.meetDbe s a m) := by
  unfold State.meetDbe
  repeat' first | (with_reducible first | assumption | apply kept_ite | apply State.cnt_kept | apply State.event_kept | apply State.facetReset_kept | apply State.record_kept | apply State.wr_kept) | simp only [kept_same] | dsimp only | split
@[simp] theorem State.memRead_kept {s0 : State} (s : State) (p : Path) (a n : Nat) (hc : Kept s0 s) :
    Kept s0 (State.memRead s p a n).2.2 := by
  unfold State.memRead
  extract_lets z0
  try clear_value z0
  repeat' first | (with_reducible first | assumption | apply kept_ite | apply State.correct_kept | apply State.meetDbe_kept | apply State.tick_kept | apply State.violate_kept | apply kept_ite2 | apply kept_ite3 | apply kept_ite4) | dsimp only
@[simp] theorem State.originWritten_kept {s0 : State} (s : State) (b : Nat) (hc : Kept s0 s) :
    Kept s0 (State.originWritten s b) := by
  unfold State.originWritten
  extract_lets z0 z1
  try clear_value z0
  try clear_value z1
  repeat' first | (with_reducible first | assumption | apply State.wr_kept) | dsimp only
@[simp] theorem State.memWrite_kept {s0 : State} (s : State) (p : Path) (a : Nat) (d : List Byte) (hc : Kept s0 s) :
    Kept s0 (State.memWrite s p a d) := by
  unfold State.memWrite
  extract_lets z0
  try clear_value z0
  repeat' first | (with_reducible first | assumption | apply kept_ite | apply State.cnt_kept | apply State.composeStart_kept | apply State.event_kept | apply State.originWritten_kept | apply State.setBytes_kept | apply State.setDbe_kept | apply State.setSbe_kept | apply State.violate_kept) | simp only [kept_same] | dsimp only | split
@[simp] theorem State.atomic_kept {s0 : State} (s : State) (p : Path) (a n : Nat) (swap : Bool) (x : Nat) (hc : Kept s0 s) :
    Kept s0 (State.atomic s p a n swap x).2.2 := by
  unfold State.atomic
  repeat' first | (with_reducible first | assumption | apply kept_ite | apply State.memRead_kept | apply State.memWrite_kept | apply kept_ite2 | apply kept_ite3 | apply kept_ite4) | dsimp only
@[simp] theorem State.fetchBytes_kept {s0 : State} (s : State) (m a n : Nat) (hc : Kept s0 s) :
    Kept s0 (State.fetchBytes s m a n).2.2 := by
  unfold State.fetchBytes
  extract_lets z0
  try clear_value z0
  repeat' first | (with_reducible first | assumption | apply State.meetDbe_kept) | simp only [kept_same] | dsimp only | split
@[simp] theorem State.bankField_kept {s0 : State} (s : State) (b lsb w v : Nat) (hc : Kept s0 s) :
    Kept s0 (State.bankField s b lsb w v) := by
  unfold State.bankField
  repeat' first | (with_reducible first | assumption | apply State.wr_kept) | dsimp only
@[simp] theorem State.bankGo_kept {s0 : State} (s : State) (b t : Nat) (hc : Kept s0 s) :
    Kept s0 (State.bankGo s b t) := by
  unfold State.bankGo
  repeat' first | (with_reducible first | assumption | apply kept_ite | apply State.bankField_kept) | simp only [kept_same] | intro _ | dsimp only
@[simp] theorem State.bankZero_kept {s0 : State} (s : State) (b : Nat) (hc : Kept s0 s) : Kept s0 (State.bankZero s b) := by
  unfold State.bankZero; (repeat' (first | with_reducible assumption | with_reducible apply State.bankField_kept | with_reducible apply State.wr_kept | with_reducible apply State.zeroRange_kept | simp only [kept_same] | intro _ | dsimp only))
@[simp] theorem State.bankRetain_kept {s0 : State} (s : State) (b : Nat) (hc : Kept s0 s) :
    Kept s0 (State.bankRetain s b) := by
  unfold State.bankRetain
  repeat' first | (with_reducible first | assumption | apply State.bankField_kept | apply State.wr_kept) | dsimp only
@[simp] theorem State.waitFor_kept {s0 : State} (s : State) (w : BankWait) (hc : Kept s0 s) :
    Kept s0 (State.waitFor s w) := by
  unfold State.waitFor
  repeat' first | (with_reducible first | assumption | apply State.noteNotOn_kept) | simp only [kept_same] | dsimp only
@[simp] theorem State.memBurst_kept {s0 : State} (s : State) (p : Path) (a n : Nat) (x0 : Nat) (hc : Kept s0 s) :
    Kept s0 (State.memBurst s p a n x0).2.2 := by
  induction x0 generalizing s p a n <;> first | (simp_all [State.memBurst]; done) | (unfold State.memBurst; (repeat' split) <;> simp_all)
@[simp] theorem State.memStores_kept {s0 : State} (s : State) (p : Path) (a : Nat) (size : Size) (d : List Byte) (x0 : Nat) (hc : Kept s0 s) :
    Kept s0 (State.memStores s p a size d x0) := by
  induction x0 generalizing s p a size d <;> first | (simp_all [State.memStores]; done) | (unfold State.memStores; (repeat' split) <;> simp_all)
@[simp] theorem State.readAnswer_kept {s0 : State} (s : State) (p : Path) (d : List Byte) (err : Bool) (hc : Kept s0 s) :
    Kept s0 (State.readAnswer s p d err) := by
  unfold State.readAnswer
  repeat' first | (with_reducible first | assumption | apply kept_ite | apply State.cnt_kept | apply State.emit_kept) | dsimp only
@[simp] theorem State.atomicAnswer_kept {s0 : State} (s : State) (p : Path) (n : Nat) (r : Nat × Bool) (hc : Kept s0 s) :
    Kept s0 (State.atomicAnswer s p n r) := by
  unfold State.atomicAnswer
  repeat' first | (with_reducible first | assumption | apply kept_ite | apply State.readAnswer_kept | apply kept_ite2 | apply kept_ite3 | apply kept_ite4) | simp only [kept_same] | dsimp only
@[simp] theorem State.serveWait_kept {s0 : State} (s : State) (w : BankWait) (hc : Kept s0 s) :
    Kept s0 (State.serveWait s w) := by
  unfold State.serveWait
  repeat' first | (with_reducible first | assumption | apply kept_ite | apply State.atomic_kept | apply State.atomicAnswer_kept | apply State.memBurst_kept | apply State.memStores_kept | apply State.readAnswer_kept | apply kept_ite2 | apply kept_ite3 | apply kept_ite4) | simp only [kept_same] | dsimp only | split
@[simp] theorem State.serveWaits_kept {s0 : State} (s : State) (b : Nat) (hc : Kept s0 s) :
    Kept s0 (State.serveWaits s b) := by
  unfold State.serveWaits
  extract_lets z0 z1
  try clear_value z0
  try clear_value z1
  repeat' first | (with_reducible first | assumption | (apply kept_foldl; intro _ _ _) | apply State.serveWait_kept) | simp only [kept_same] | intro _ | dsimp only
@[simp] theorem State.bankSettled_kept {s0 : State} (s : State) (b : Nat) (hc : Kept s0 s) :
    Kept s0 (State.bankSettled s b) := by
  unfold State.bankSettled
  repeat' first | (with_reducible first | assumption | apply State.bankField_kept | apply State.event_kept) | simp only [kept_same] | dsimp only
@[simp] theorem State.bankStep_kept {s0 : State} (s : State) (b : Nat) (hc : Kept s0 s) :
    Kept s0 (State.bankStep s b) := by
  unfold State.bankStep
  extract_lets z0 z1
  try clear_value z0
  try clear_value z1
  repeat' first | (with_reducible first | assumption | apply kept_ite | apply State.bankField_kept | apply State.bankRetain_kept | apply State.bankSettled_kept | apply State.bankZero_kept | apply State.serveWaits_kept) | dsimp only
@[simp] theorem State.doBankPower_kept {s0 : State} (s : State) (b v : Nat) (hc : Kept s0 s) :
    Kept s0 (State.doBankPower s b v) := by
  unfold State.doBankPower
  extract_lets z0
  have h0 : Kept s0 z0 := by repeat' first | (with_reducible first | assumption | apply State.wr_kept) | dsimp only
  try clear_value z0
  repeat' first | (with_reducible first | assumption | apply kept_ite | apply State.bankGo_kept) | dsimp only
@[simp] theorem State.wake_kept {s0 : State} (s : State) (src : Nat) (hc : Kept s0 s) :
    Kept s0 (State.wake s src) := by
  unfold State.wake
  repeat' first | (with_reducible first | assumption | apply kept_ite) | simp only [kept_same] | dsimp only | split
@[simp] theorem State.setChord_kept {s0 : State} (s : State) (d : Nat) (x : Chord) (hc : Kept s0 s) :
    Kept s0 (State.setChord s d x) := by
  unfold State.setChord
  repeat' first | (with_reducible first | assumption) | simp only [kept_same] | intro _ | dsimp only
@[simp] theorem State.stat_kept {s0 : State} (s : State) (p j : Nat) (hc : Kept s0 s) :
    Kept s0 (State.stat s p j) := by
  unfold State.stat
  repeat' first | (with_reducible first | assumption | apply State.cntH_kept) | dsimp only
@[simp] theorem State.statAdd_kept {s0 : State} (s : State) (p j w k : Nat) (hc : Kept s0 s) :
    Kept s0 (State.statAdd s p j w k) := by
  unfold State.statAdd
  repeat' first | (with_reducible first | assumption | apply State.addH_kept) | dsimp only
@[simp] theorem State.portEvent_kept {s0 : State} (s : State) (p b : Nat) (hc : Kept s0 s) :
    Kept s0 (State.portEvent s p b) := by
  unfold State.portEvent
  repeat' first | (with_reducible first | assumption | apply State.event_kept) | dsimp only
@[simp] theorem State.countRx_kept {s0 : State} (s : State) (p : Nat) (d : List Byte) (r : RxResult) (hc : Kept s0 s) : Kept s0 (State.countRx s p d r) := by
  unfold State.countRx; (repeat' (first | with_reducible assumption | with_reducible apply kept_ite | with_reducible apply kept_ite2 | with_reducible apply kept_ite3 | with_reducible apply kept_ite4 | with_reducible apply State.stat_kept | with_reducible apply State.statAdd_kept | simp only [kept_same] | intro _ | dsimp only | split))
@[simp] theorem State.beginTx_kept {s0 : State} (s : State) (p phase : Nat) (c : TxCur) (hc : Kept s0 s) :
    Kept s0 (State.beginTx s p phase c) := by
  unfold State.beginTx
  extract_lets z0
  try clear_value z0
  repeat' first | (with_reducible first | assumption | apply State.setPort_kept) | simp only [kept_same] | dsimp only
@[simp] theorem State.setSw_kept {s0 : State} (s : State) (f : Switch → Switch) (hc : Kept s0 s) :
    Kept s0 (State.setSw s f) := by
  unfold State.setSw
  repeat' first | (with_reducible first | assumption) | simp only [kept_same] | dsimp only
@[simp] theorem State.swCnt_kept {s0 : State} (s : State) (j : Nat) (hc : Kept s0 s) :
    Kept s0 (State.swCnt s j) := by
  unfold State.swCnt
  repeat' first | (with_reducible first | assumption | apply State.cntH_kept) | dsimp only
@[simp] theorem State.swEvent_kept {s0 : State} (s : State) (b : Nat) (hc : Kept s0 s) :
    Kept s0 (State.swEvent s b) := by
  unfold State.swEvent
  repeat' first | (with_reducible first | assumption | apply State.event_kept) | dsimp only
@[simp] theorem State.drop_kept {s0 : State} (s : State) (st c : Nat) (hc : Kept s0 s) :
    Kept s0 (State.drop s st c) := by
  unfold State.drop
  repeat' first | (with_reducible first | assumption | apply State.cntH_kept) | dsimp only
@[simp] theorem State.setQueue_kept {s0 : State} (s : State) (st c : Nat) (l : List QEntry) (hc : Kept s0 s) :
    Kept s0 (State.setQueue s st c l) := by
  unfold State.setQueue
  repeat' first | (with_reducible first | assumption | apply State.setSw_kept) | simp only [kept_same] | intro _ | dsimp only
@[simp] theorem State.setFrame_kept {s0 : State} (s : State) (f : Nat) (x : SwFrame) (hc : Kept s0 s) :
    Kept s0 (State.setFrame s f x) := by
  unfold State.setFrame
  repeat' first | (with_reducible first | assumption | apply State.setSw_kept) | simp only [kept_same] | intro _ | dsimp only
@[simp] theorem State.setUsed_kept {s0 : State} (s : State) (st c u : Nat) (hc : Kept s0 s) :
    Kept s0 (State.setUsed s st c u) := by
  unfold State.setUsed
  extract_lets z0 z1
  try clear_value z0
  try clear_value z1
  repeat' first | (with_reducible first | assumption | apply State.wr_kept) | dsimp only
@[simp] theorem State.writeQueue_kept {s0 : State} (s : State) (st c v : Nat) (hc : Kept s0 s) :
    Kept s0 (State.writeQueue s st c v) := by
  unfold State.writeQueue
  extract_lets z0 z1
  try clear_value z0
  have h1 : Kept s0 z1 := by repeat' first | (with_reducible first | assumption | apply State.wr_kept) | dsimp only
  try clear_value z1
  repeat' first | (with_reducible first | assumption | apply State.wr_kept) | dsimp only
@[simp] theorem State.setGate_kept {s0 : State} (s : State) (p : Nat) (g : GateCtl) (hc : Kept s0 s) :
    Kept s0 (State.setGate s p g) := by
  unfold State.setGate
  repeat' first | (with_reducible first | assumption | apply State.setSw_kept) | simp only [kept_same] | intro _ | dsimp only
@[simp] theorem State.touchCredit_kept {s0 : State} (s : State) (p : Nat) (hc : Kept s0 s) :
    Kept s0 (State.touchCredit s p) := by
  unfold State.touchCredit
  extract_lets z0 z1 z2 z3
  try clear_value z0
  try clear_value z1
  try clear_value z2
  try clear_value z3
  repeat' first | (with_reducible first | assumption | apply kept_ite | apply State.setPort_kept) | simp only [kept_same] | dsimp only
theorem State.takeCell_kept {s0 : State} (s : State) {t1} (h : State.takeCell s = some t1) (hc : Kept s0 s) :
    Kept s0 t1.2 := by
  simp only [State.takeCell] at h
  repeat' split at h
  all_goals first | (simp only [Option.some.injEq, reduceCtorEq] at h; done) | (simp only [Option.some.injEq] at h; subst h)
  all_goals first | (simp (maxDischargeDepth := 60) [*]; done) | (simp_all (maxDischargeDepth := 60); done)
@[simp] theorem State.freeCells_kept {s0 : State} (s : State) (l : List Nat) (hc : Kept s0 s) :
    Kept s0 (State.freeCells s l) := by
  unfold State.freeCells
  repeat' first | (with_reducible first | assumption | apply State.setSw_kept | apply State.wr_kept) | simp only [kept_same] | intro _ | dsimp only
@[simp] theorem State.shareCells_kept {s0 : State} (s : State) (d : Int) (hc : Kept s0 s) :
    Kept s0 (State.shareCells s d) := by
  unfold State.shareCells
  repeat' first | (with_reducible first | assumption | apply State.wr_kept) | dsimp only
@[simp] theorem State.queuePause_kept {s0 : State} (s : State) (p c quanta : Nat) (hc : Kept s0 s) :
    Kept s0 (State.queuePause s p c quanta) := by
  unfold State.queuePause
  repeat' first | (with_reducible first | assumption | apply kept_ite | apply State.setPort_kept) | simp only [kept_same] | dsimp only
@[simp] theorem State.flowControl_kept {s0 : State} (s : State) (p c : Nat) (hc : Kept s0 s) :
    Kept s0 (State.flowControl s p c) := by
  unfold State.flowControl
  extract_lets z0 z1
  try clear_value z0
  try clear_value z1
  repeat' first | (with_reducible first | assumption | apply kept_ite | apply State.clrBits_kept | apply State.queuePause_kept | apply State.setBit_kept) | dsimp only
@[simp] theorem State.addHeld_kept {s0 : State} (s : State) (p c : Nat) (d : Int) (hc : Kept s0 s) :
    Kept s0 (State.addHeld s p c d) := by
  unfold State.addHeld
  repeat' first | (with_reducible first | assumption | apply State.flowControl_kept | apply State.setSw_kept) | simp only [kept_same] | intro _ | dsimp only
@[simp] theorem State.storeCells_kept {s0 : State} (s : State) (f k : Nat) (d : List Byte) (hc : Kept s0 s) : Kept s0 (s.storeCells f k d) := by
  induction k generalizing s d with
  | zero => simpa [State.storeCells] using hc
  | succ k ih =>
    unfold State.storeCells
    split
    · exact hc
    · split
      · exact hc
      · rename_i h
        exact ih _ _ (State.addHeld_kept _ _ _ _ (State.shareCells_kept _ _ (State.setFrame_kept _ _ _
          (State.setBytes_kept _ _ _ (State.takeCell_kept _ h hc)))))
@[simp] theorem State.freeFrame_kept {s0 : State} (s : State) (f : Nat) (hc : Kept s0 s) :
    Kept s0 (State.freeFrame s f) := by
  unfold State.freeFrame
  extract_lets z0 z1 z2
  try clear_value z0
  have h1 : Kept s0 z1 := by repeat' first | (with_reducible first | assumption | apply State.freeCells_kept | apply State.shareCells_kept) | dsimp only
  try clear_value z1
  have h2 : Kept s0 z2 := by repeat' first | (with_reducible first | assumption | apply State.setSw_kept) | simp only [kept_same] | intro _ | dsimp only
  try clear_value z2
  repeat' first | (with_reducible first | assumption | apply State.addHeld_kept) | dsimp only
@[simp] theorem State.unref_kept {s0 : State} (s : State) (f : Nat) (hc : Kept s0 s) :
    Kept s0 (State.unref s f) := by
  unfold State.unref
  extract_lets z0
  try clear_value z0
  repeat' first | (with_reducible first | assumption | apply kept_ite | apply State.freeFrame_kept | apply State.setFrame_kept) | simp only [kept_same] | dsimp only
@[simp] theorem State.releaseEntry_kept {s0 : State} (s : State) (st c : Nat) (e : QEntry) (hc : Kept s0 s) :
    Kept s0 (State.releaseEntry s st c e) := by
  unfold State.releaseEntry
  repeat' first | (with_reducible first | assumption | apply State.setUsed_kept | apply State.unref_kept | apply State.wr_kept) | dsimp only
@[simp] theorem State.flushQueue_kept {s0 : State} (s : State) (st c : Nat) (hc : Kept s0 s) :
    Kept s0 (State.flushQueue s st c) := by
  unfold State.flushQueue
  repeat' first | (with_reducible first | assumption | (apply kept_foldl; intro _ _ _) | apply State.drop_kept | apply State.releaseEntry_kept | apply State.setQueue_kept) | intro _ | dsimp only
@[simp] theorem State.flushStation_kept {s0 : State} (s : State) (st : Nat) (hc : Kept s0 s) :
    Kept s0 (State.flushStation s st) := by
  unfold State.flushStation
  repeat' first | (with_reducible first | assumption | (apply kept_foldl; intro _ _ _) | apply State.flushQueue_kept) | intro _ | dsimp only
@[simp] theorem State.switchClear_kept {s0 : State} (s : State) (hc : Kept s0 s) :
    Kept s0 (State.switchClear s) := by
  unfold State.switchClear
  extract_lets z0 z1 z2 z3 z4 z5
  have h0 : Kept s0 z0 := by repeat' first | (with_reducible first | assumption | apply kept_ite | (apply kept_foldl; intro _ _ _) | apply State.setUsed_kept) | intro _ | dsimp only
  try clear_value z0
  try clear_value z1
  try clear_value z2
  have h3 : Kept s0 z3 := by repeat' first | (with_reducible first | assumption | apply State.wr_kept) | dsimp only
  try clear_value z3
  have h4 : Kept s0 z4 := by repeat' first | (with_reducible first | assumption | apply State.setSw_kept) | simp only [kept_same] | intro _ | dsimp only
  try clear_value z4
  have h5 : Kept s0 z5 := by repeat' first | (with_reducible first | assumption | apply kept_ite | (apply kept_foldl; intro _ _ _) | apply State.wr_kept) | intro _ | dsimp only
  try clear_value z5
  repeat' first | (with_reducible first | assumption | apply kept_ite | (apply kept_foldl; intro _ _ _) | apply State.setPort_kept) | simp only [kept_same] | intro _ | dsimp only | split
@[simp] theorem State.dropPortFrames_kept {s0 : State} (s : State) (p : Nat) (hc : Kept s0 s) : Kept s0 (State.dropPortFrames s p) := by
  unfold State.dropPortFrames; (repeat' (first | with_reducible assumption | with_reducible apply State.drop_kept | with_reducible apply State.flushStation_kept | with_reducible apply State.releaseEntry_kept | with_reducible apply State.setPort_kept | simp only [kept_same] | intro _ | dsimp only | with_reducible apply kept_ite | split))
@[simp] theorem State.setStream_kept {s0 : State} (s : State) (h : Nat) (x : Stream) (hc : Kept s0 s) :
    Kept s0 (State.setStream s h x) := by
  unfold State.setStream
  repeat' first | (with_reducible first | assumption | apply State.setSw_kept) | simp only [kept_same] | intro _ | dsimp only
@[simp] theorem State.halfIf_kept {s0 : State} (s : State) (b : Bool) (hc : Kept s0 s) :
    Kept s0 (State.halfIf s b) := by
  unfold State.halfIf
  repeat' first | (with_reducible first | assumption | apply kept_ite | apply State.swEvent_kept) | dsimp only
@[simp] theorem State.setSgate_kept {s0 : State} (s : State) (g : Nat) (x : SGate) (hc : Kept s0 s) :
    Kept s0 (State.setSgate s g x) := by
  unfold State.setSgate
  repeat' first | (with_reducible first | assumption | apply State.setSw_kept) | simp only [kept_same] | intro _ | dsimp only
@[simp] theorem State.setMeter_kept {s0 : State} (s : State) (m : Nat) (x : Meter) (hc : Kept s0 s) :
    Kept s0 (State.setMeter s m x) := by
  unfold State.setMeter
  repeat' first | (with_reducible first | assumption | apply State.setSw_kept) | simp only [kept_same] | intro _ | dsimp only
@[simp] theorem State.metered_kept {s0 : State} (s : State) (mi n : Nat) (yellowIn : Bool) (hc : Kept s0 s) :
    Kept s0 (State.metered s mi n yellowIn).2 := by
  unfold State.metered
  extract_lets z0 z1 z2 z3 z4
  try clear_value z0
  try clear_value z1
  try clear_value z2
  try clear_value z3
  try clear_value z4
  repeat' first | (with_reducible first | assumption | apply State.halfIf_kept | apply State.setMeter_kept) | dsimp only
@[simp] theorem State.filterStream_kept {s0 : State} (s : State) (h cls n : Nat) (yellowIn : Bool) (hc : Kept s0 s) :
    Kept s0 (State.filterStream s h cls n yellowIn).2.2 := by
  unfold State.filterStream
  extract_lets z0 z1 z2 z3 z4 z5 z6 z7
  try clear_value z0
  try clear_value z1
  try clear_value z2
  have h3 : Kept s0 z3 := by repeat' first | (with_reducible first | assumption | apply State.halfIf_kept | apply State.setStream_kept) | dsimp only
  try clear_value z3
  try clear_value z4
  try clear_value z5
  try clear_value z6
  try clear_value z7
  repeat' first | (with_reducible first | assumption | apply kept_ite | apply State.halfIf_kept | apply State.metered_kept | apply State.setStream_kept | apply State.swEvent_kept | apply kept_ite2 | apply kept_ite3 | apply kept_ite4) | simp only [kept_same] | dsimp only
@[simp] theorem State.setCb_kept {s0 : State} (s : State) (h : Nat) (x : Cb) (hc : Kept s0 s) :
    Kept s0 (State.setCb s h x) := by
  unfold State.setCb
  repeat' first | (with_reducible first | assumption | apply State.setSw_kept) | simp only [kept_same] | intro _ | dsimp only
@[simp] theorem State.recoverStep_kept {s0 : State} (s : State) (h : Nat) (d : List Byte) (hc : Kept s0 s) :
    Kept s0 (State.recoverStep s h d).2 := by
  unfold State.recoverStep
  extract_lets z0
  try clear_value z0
  repeat' first | (with_reducible first | assumption | apply kept_ite | apply State.halfIf_kept | apply State.setCb_kept | apply kept_ite2 | apply kept_ite3 | apply kept_ite4) | intro _ | dsimp only
@[simp] theorem State.setFdb_kept {s0 : State} (s : State) (e : Nat) (x : FdbEntry) (hc : Kept s0 s) :
    Kept s0 (State.setFdb s e x) := by
  unfold State.setFdb
  repeat' first | (with_reducible first | assumption | apply State.setSw_kept) | simp only [kept_same] | intro _ | dsimp only
@[simp] theorem State.showFdb_kept {s0 : State} (s : State) (hc : Kept s0 s) :
    Kept s0 (State.showFdb s) := by
  unfold State.showFdb
  repeat' first | (with_reducible first | assumption | apply State.wr_kept) | dsimp only
@[simp] theorem State.learn_kept {s0 : State} (s : State) (p mac vid : Nat) (hc : Kept s0 s) :
    Kept s0 (State.learn s p mac vid) := by
  unfold State.learn
  repeat' first | (with_reducible first | assumption | apply kept_ite | apply State.cnt_kept | apply State.setFdb_kept | apply State.showFdb_kept | apply State.swEvent_kept) | simp only [kept_same] | dsimp only | split
@[simp] theorem State.latCnt_kept {s0 : State} (s : State) (j : Nat) (hc : Kept s0 s) :
    Kept s0 (State.latCnt s j) := by
  unfold State.latCnt
  repeat' first | (with_reducible first | assumption | apply State.cntH_kept) | dsimp only
@[simp] theorem State.enqueue_kept {s0 : State} (s : State) (t : Nat) (e : QEntry) (hc : Kept s0 s) :
    Kept s0 (State.enqueue s t e) := by
  unfold State.enqueue
  extract_lets z0 z1
  have h0 : Kept s0 z0 := by repeat' first | (with_reducible first | assumption | apply kept_ite | apply State.touchCredit_kept) | dsimp only
  try clear_value z0
  have h1 : Kept s0 z1 := by repeat' first | (with_reducible first | assumption | apply State.setQueue_kept) | dsimp only
  try clear_value z1
  repeat' first | (with_reducible first | assumption | apply State.setUsed_kept | apply State.wr_kept) | dsimp only
@[simp] theorem State.admitFrame_kept {s0 : State} (s : State) (ingress cls n : Nat) (dests : List Nat) (mk : Nat → QEntry) (hc : Kept s0 s) :
    Kept s0 (State.admitFrame s ingress cls n dests mk).2 := by
  unfold State.admitFrame
  extract_lets z0 z1 z2
  try clear_value z0
  try clear_value z1
  have h2 : Kept s0 z2 := by repeat' first | (with_reducible first | assumption | (apply kept_foldl; intro _ _ _) | apply State.drop_kept) | intro _ | dsimp only
  try clear_value z2
  repeat' first | (with_reducible first | assumption | apply kept_ite | (apply kept_foldl; intro _ _ _) | apply State.enqueue_kept | apply State.setFrame_kept | apply State.setSw_kept | apply kept_ite2 | apply kept_ite3 | apply kept_ite4) | simp only [kept_same] | intro _ | dsimp only
@[simp] theorem State.streamSteps_kept {s0 : State} (s : State) (ingress cls vid n : Nat) (d : List Byte) (hc : Kept s0 s) :
    Kept s0 (State.streamSteps s ingress cls vid n d).2 := by
  unfold State.streamSteps
  repeat' first | (with_reducible first | assumption | apply kept_ite | apply State.filterStream_kept | apply State.recoverStep_kept | apply kept_ite2 | apply kept_ite3 | apply kept_ite4) | simp only [kept_same] | dsimp only | split
@[simp] theorem State.cbEgress_kept {s0 : State} (s : State) (h : Option Nat) (d : List Byte) (hc : Kept s0 s) :
    Kept s0 (State.cbEgress s h d).2.2.2.2 := by
  unfold State.cbEgress
  repeat' first | (with_reducible first | assumption | apply kept_ite | apply State.setCb_kept | apply kept_ite2 | apply kept_ite3 | apply kept_ite4) | simp only [kept_same] | intro _ | dsimp only | split
@[simp] theorem State.wayOf_kept {s0 : State} (s : State) (ingress cls vid n mask : Nat) (d : List Byte) (filtered : Bool) (hc : Kept s0 s) :
    Kept s0 (State.wayOf s ingress cls vid n mask d filtered).2 := by
  unfold State.wayOf
  extract_lets z0
  have h0 : Kept s0 z0.2 := by repeat' first | (with_reducible first | assumption | apply kept_ite | apply State.streamSteps_kept | apply kept_ite2 | apply kept_ite3 | apply kept_ite4) | dsimp only
  try clear_value z0
  repeat' first | (with_reducible first | assumption | apply kept_ite | apply State.cbEgress_kept | apply State.swCnt_kept | apply kept_ite2 | apply kept_ite3 | apply kept_ite4) | simp only [kept_same] | dsimp only | split
@[simp] theorem State.portWay_kept {s0 : State} (s : State) (p n : Nat) (d : List Byte) (hc : Kept s0 s) :
    Kept s0 (State.portWay s p n d).2 := by
  unfold State.portWay
  repeat' first | (with_reducible first | assumption | apply kept_ite | apply State.latCnt_kept | apply State.swCnt_kept | apply State.wayOf_kept | apply kept_ite2 | apply kept_ite3 | apply kept_ite4) | simp only [kept_same] | dsimp only | split
@[simp] theorem State.admission_kept {s0 : State} (s : State) (p : Nat) (head : List Byte) (ago phase : Nat) (whole : Bool) (hc : Kept s0 s) :
    Kept s0 (State.admission s p head ago phase whole) := by
  unfold State.admission
  extract_lets z0
  try clear_value z0
  repeat' first | (with_reducible first | assumption | apply kept_ite | apply State.admitFrame_kept | apply State.portWay_kept | apply State.setFrame_kept | apply State.setPort_kept | apply kept_ite2 | apply kept_ite3 | apply kept_ite4) | simp only [kept_same] | intro _ | dsimp only | split
@[simp] theorem State.returnCharge_kept {s0 : State} (s : State) (f n : Nat) (hc : Kept s0 s) :
    Kept s0 (State.returnCharge s f n) := by
  unfold State.returnCharge
  repeat' first | (with_reducible first | assumption | apply kept_ite | (apply kept_foldl; intro _ _ _) | apply State.setQueue_kept | apply State.setUsed_kept) | simp only [kept_same] | intro _ | dsimp only | split
@[simp] theorem State.unqueue_kept {s0 : State} (s : State) (f : Nat) (hc : Kept s0 s) :
    Kept s0 (State.unqueue s f) := by
  unfold State.unqueue
  repeat' first | (with_reducible first | assumption | (apply kept_foldl; intro _ _ _) | apply State.releaseEntry_kept | apply State.setQueue_kept) | simp only [kept_same] | intro _ | dsimp only | split
@[simp] theorem State.feedEgress_kept {s0 : State} (s : State) (f n : Nat) (d : List Byte) (bad : Bool) (hc : Kept s0 s) :
    Kept s0 (State.feedEgress s f n d bad) := by
  unfold State.feedEgress
  repeat' first | (with_reducible first | assumption | apply kept_ite | (apply kept_foldl; intro _ _ _) | apply State.setPort_kept | apply State.setUsed_kept) | simp only [kept_same] | intro _ | dsimp only | split
@[simp] theorem State.storeComplete_kept {s0 : State} (s : State) (p : Nat) (hc : Kept s0 s) :
    Kept s0 (State.storeComplete s p) := by
  unfold State.storeComplete
  extract_lets z0
  try clear_value z0
  repeat' first | (with_reducible first | assumption | apply kept_ite | apply State.feedEgress_kept | apply State.learn_kept | apply State.returnCharge_kept | apply State.setFrame_kept | apply State.setPort_kept | apply State.storeCells_kept | apply State.unqueue_kept | apply kept_ite2 | apply kept_ite3 | apply kept_ite4) | simp only [kept_same] | intro _ | dsimp only | split
@[simp] theorem State.latEvent_kept {s0 : State} (s : State) (b : Nat) (hc : Kept s0 s) :
    Kept s0 (State.latEvent s b) := by
  unfold State.latEvent
  repeat' first | (with_reducible first | assumption | apply State.event_kept) | dsimp only
@[simp] theorem State.neighbourLost_kept {s0 : State} (s : State) (n : Nat) (hc : Kept s0 s) : Kept s0 (State.neighbourLost s n) := by
  unfold State.neighbourLost; (repeat' (first | with_reducible assumption | with_reducible apply kept_ite | with_reducible apply kept_ite2 | with_reducible apply kept_ite3 | with_reducible apply kept_ite4 | with_reducible apply State.cnt_kept | with_reducible apply State.latEvent_kept | with_reducible apply State.wr_kept | simp only [kept_same] | intro _ | dsimp only))
@[simp] theorem State.neighboursDown_kept {s0 : State} (s : State) (p : Nat) (hc : Kept s0 s) :
    Kept s0 (State.neighboursDown s p) := by
  unfold State.neighboursDown
  repeat' first | (with_reducible first | assumption | apply kept_ite | (apply kept_foldl; intro _ _ _) | apply State.neighbourLost_kept) | intro _ | dsimp only
@[simp] theorem State.confirmConfig_kept {s0 : State} (s : State) (v : Nat) (hc : Kept s0 s) :
    Kept s0 (State.confirmConfig s v) := by
  unfold State.confirmConfig
  repeat' first | (with_reducible first | assumption | apply State.unhold_kept | apply State.wr_kept) | simp only [kept_same] | dsimp only
@[simp] theorem State.chordFollow_kept {s0 : State} (s : State) (d : Nat) (hc : Kept s0 s) :
    Kept s0 (State.chordFollow s d) := by
  unfold State.chordFollow
  extract_lets z0
  try clear_value z0
  repeat' first | (with_reducible first | assumption | apply kept_ite | apply State.event_kept | apply State.wr_kept) | dsimp only
@[simp] theorem State.chordsFollow_kept {s0 : State} (s : State) (hc : Kept s0 s) :
    Kept s0 (State.chordsFollow s) := by
  unfold State.chordsFollow
  extract_lets z0
  have h0 : Kept s0 z0 := by repeat' first | (with_reducible first | assumption | (apply kept_foldl; intro _ _ _) | apply State.chordFollow_kept) | dsimp only
  try clear_value z0
  repeat' first | (with_reducible first | assumption | (apply kept_foldl; intro _ _ _) | apply State.putBits_kept) | intro _ | dsimp only
@[simp] theorem State.preemptStart_kept {s0 : State} (s : State) (p : Nat) (hc : Kept s0 s) :
    Kept s0 (State.preemptStart s p) := by
  unfold State.preemptStart
  extract_lets z0 z1 z2 z3
  try clear_value z0
  try clear_value z1
  try clear_value z2
  have h3 : Kept s0 z3 := by repeat' first | (with_reducible first | assumption | apply kept_ite | apply State.portEvent_kept | apply State.setPort_kept | apply State.wr_kept) | simp only [kept_same] | dsimp only
  try clear_value z3
  repeat' first | (with_reducible first | assumption | apply kept_ite | apply State.portEvent_kept | apply State.setPort_kept | apply State.wr_kept) | simp only [kept_same] | dsimp only
@[simp] theorem State.loseLaneFrame_kept {s0 : State} (s : State) (p : Nat) (hc : Kept s0 s) :
    Kept s0 (State.loseLaneFrame s p) := by
  unfold State.loseLaneFrame
  repeat' first | (with_reducible first | assumption | apply kept_ite | (apply kept_foldl; intro _ _ _) | apply State.setEngine_kept) | simp only [kept_same] | intro _ | dsimp only
@[simp] theorem State.cutRx_kept {s0 : State} (s : State) (p n : Nat) (hc : Kept s0 s) :
    Kept s0 (State.cutRx s p n) := by
  unfold State.cutRx
  extract_lets z0 z1 z2
  have h0 : Kept s0 z0 := by repeat' first | (with_reducible first | assumption | apply State.stat_kept) | dsimp only
  try clear_value z0
  have h1 : Kept s0 z1 := by repeat' first | (with_reducible first | assumption | apply kept_ite | apply State.stat_kept) | dsimp only
  try clear_value z1
  have h2 : Kept s0 z2 := by repeat' first | (with_reducible first | assumption | apply kept_ite | (apply kept_foldl; intro _ _ _) | apply State.setEngine_kept) | intro _ | dsimp only
  try clear_value z2
  repeat' first | (with_reducible first | assumption | apply State.setPort_kept | apply State.storeComplete_kept) | simp only [kept_same] | dsimp only
@[simp] theorem State.linkDown_kept {s0 : State} (s : State) (p : Nat) (hc : Kept s0 s) :
    Kept s0 (State.linkDown s p) := by
  unfold State.linkDown
  repeat' first | (with_reducible first | assumption | apply kept_ite | apply State.chordLoss_kept | apply State.chordsFollow_kept | apply State.clrBits_kept | apply State.dropPortFrames_kept | apply State.loseLaneFrame_kept | apply State.neighboursDown_kept | apply State.portEvent_kept | apply State.preemptStart_kept | apply State.stat_kept) | dsimp only
@[simp] theorem State.linkCome_kept {s0 : State} (s : State) (p told : Nat) (hc : Kept s0 s) :
    Kept s0 (State.linkCome s p told) := by
  unfold State.linkCome
  extract_lets z0 z1
  try clear_value z0
  try clear_value z1
  repeat' first | (with_reducible first | assumption | apply kept_ite | apply State.chordBack_kept | apply State.chordsFollow_kept | apply State.portEvent_kept | apply State.preemptStart_kept | apply State.setPort_kept | apply State.wr_kept) | simp only [kept_same] | dsimp only
@[simp] theorem State.applyLinkCfg_kept {s0 : State} (s : State) (p : Nat) (hc : Kept s0 s) :
    Kept s0 (State.applyLinkCfg s p) := by
  unfold State.applyLinkCfg
  repeat' first | (with_reducible first | assumption | apply State.setPort_kept) | simp only [kept_same] | dsimp only
@[simp] theorem State.applyRxCfg_kept {s0 : State} (s : State) (p : Nat) (hc : Kept s0 s) :
    Kept s0 (State.applyRxCfg s p) := by
  unfold State.applyRxCfg
  repeat' first | (with_reducible first | assumption | apply State.setPort_kept) | simp only [kept_same] | dsimp only
@[simp] theorem State.applyTxCfg_kept {s0 : State} (s : State) (p : Nat) (hc : Kept s0 s) :
    Kept s0 (State.applyTxCfg s p) := by
  unfold State.applyTxCfg
  repeat' first | (with_reducible first | assumption | apply State.setPort_kept) | simp only [kept_same] | dsimp only
theorem State.effPort_kept {s0 : State} (s : State) (i j v : Nat) {t1} (h : State.effPort s i j v = some t1) (hc : Kept s0 s) :
    Kept s0 t1 := by
  simp only [State.effPort] at h
  repeat' split at h
  all_goals first | (simp only [Option.some.injEq, reduceCtorEq] at h; done) | (simp only [Option.some.injEq] at h; subst h)
  all_goals first | (simp (maxDischargeDepth := 60) [*]; done) | (simp_all (maxDischargeDepth := 60); done)
@[simp] theorem State.setMdio_kept {s0 : State} (s : State) (m : Nat) (x : Mdio) (hc : Kept s0 s) :
    Kept s0 (State.setMdio s m x) := by
  unfold State.setMdio
  repeat' first | (with_reducible first | assumption) | simp only [kept_same] | intro _ | dsimp only
@[simp] theorem State.mdioStart_kept {s0 : State} (s : State) (m v : Nat) (hc : Kept s0 s) :
    Kept s0 (State.mdioStart s m v) := by
  unfold State.mdioStart
  repeat' first | (with_reducible first | assumption | apply State.emit_kept | apply State.setBit_kept | apply State.setMdio_kept | apply State.wr_kept) | dsimp only
@[simp] theorem State.mdioFrame_kept {s0 : State} (s : State) (q : Path) (m op : Nat) (phy reg : BitVec 5) (data : Half) (hc : Kept s0 s) :
    Kept s0 (State.mdioFrame s q m op phy reg data) := by
  unfold State.mdioFrame
  repeat' first | (with_reducible first | assumption | apply State.guard_kept | apply State.mdioStart_kept) | intro _ | dsimp only
@[simp] theorem State.dropOversize_kept {s0 : State} (s : State) (p : Nat) (hc : Kept s0 s) :
    Kept s0 (State.dropOversize s p) := by
  unfold State.dropOversize
  repeat' first | (with_reducible first | assumption | apply kept_ite | (apply kept_foldl; intro _ _ _) | apply State.drop_kept | apply State.releaseEntry_kept | apply State.setQueue_kept) | simp only [kept_same] | intro _ | dsimp only | split
@[simp] theorem State.startQueue_kept {s0 : State} (s : State) (p c phase : Nat) (hc : Kept s0 s) :
    Kept s0 (State.startQueue s p c phase) := by
  unfold State.startQueue
  repeat' first | (with_reducible first | assumption | apply kept_ite | apply State.beginTx_kept | apply State.latCnt_kept | apply State.releaseEntry_kept | apply State.setPort_kept | apply State.setQueue_kept) | simp only [kept_same] | dsimp only | split
@[simp] theorem State.startPause_kept {s0 : State} (s : State) (p phase : Nat) (hc : Kept s0 s) :
    Kept s0 (State.startPause s p phase) := by
  unfold State.startPause
  repeat' first | (with_reducible first | assumption | apply kept_ite | apply State.beginTx_kept | apply State.setPort_kept) | simp only [kept_same] | dsimp only | split
@[simp] theorem State.startLane_kept {s0 : State} (s : State) (e : Nat) (hc : Kept s0 s) :
    Kept s0 (State.startLane s e) := by
  unfold State.startLane
  repeat' first | (with_reducible first | assumption | apply State.setEngine_kept | apply State.settleTx_kept) | simp only [kept_same] | dsimp only
@[simp] theorem State.meetCells_kept {s0 : State} (s : State) (c : TxCur) (hc : Kept s0 s) :
    Kept s0 (State.meetCells s c) := by
  unfold State.meetCells
  repeat' first | (with_reducible first | assumption | apply State.meetDbe_kept) | simp only [kept_same] | intro _ | dsimp only | split
@[simp] theorem State.countTx_kept {s0 : State} (s : State) (p : Nat) (d : List Byte) (stomp : Bool) (c : TxCur) (hc : Kept s0 s) :
    Kept s0 (State.countTx s p d stomp c) := by
  unfold State.countTx
  extract_lets z0 z1
  try clear_value z0
  have h1 : Kept s0 z1 := by repeat' first | (with_reducible first | assumption | apply State.stat_kept) | dsimp only
  try clear_value z1
  repeat' first | (with_reducible first | assumption | apply kept_ite | apply State.stat_kept | apply State.statAdd_kept) | dsimp only
@[simp] theorem State.transmitted_kept {s0 : State} (s : State) (p : Nat) (c : TxCur) (hc : Kept s0 s) :
    Kept s0 (State.transmitted s p c) := by
  unfold State.transmitted
  extract_lets z0 z1 z2 z3 z4 z5 z6 z7 z8 z9 z10 z11
  try clear_value z0
  have h1 : Kept s0 z1 := by repeat' first | (with_reducible first | assumption | apply kept_ite | apply State.meetCells_kept | apply State.swCnt_kept | apply State.swEvent_kept | apply kept_ite2 | apply kept_ite3 | apply kept_ite4) | dsimp only
  try clear_value z1
  try clear_value z2
  try clear_value z3
  try clear_value z4
  try clear_value z5
  try clear_value z6
  try clear_value z7
  have h8 : Kept s0 z8 := by repeat' first | (with_reducible first | assumption | apply kept_ite | apply State.cntH_kept | apply kept_ite2 | apply kept_ite3 | apply kept_ite4) | dsimp only
  try clear_value z8
  have h9 : Kept s0 z9 := by repeat' first | (with_reducible first | assumption | apply State.countTx_kept | apply State.emit_kept) | dsimp only
  try clear_value z9
  try clear_value z10
  have h11 : Kept s0 z11 := by repeat' first | (with_reducible first | assumption | apply kept_ite | apply State.cntH_kept | apply State.countTx_kept | apply State.emit_kept | apply State.meetCells_kept | apply State.releaseEntry_kept | apply State.setPort_kept | apply State.swCnt_kept | apply State.swEvent_kept | apply State.touchCredit_kept | apply kept_ite2 | apply kept_ite3 | apply kept_ite4) | simp only [kept_same] | dsimp only | split
  try clear_value z11
  repeat' first | (with_reducible first | assumption | apply kept_ite | apply State.cntH_kept | apply State.countTx_kept | apply State.emit_kept | apply State.meetCells_kept | apply State.releaseEntry_kept | apply State.setPort_kept | apply State.swCnt_kept | apply State.swEvent_kept | apply State.touchCredit_kept | apply kept_ite2 | apply kept_ite3 | apply kept_ite4) | simp only [kept_same] | dsimp only | split
@[simp] theorem State.unitWrite_kept {s0 : State} (s : State) (a : Nat) (d : List Byte) (hc : Kept s0 s) :
    Kept s0 (State.unitWrite s a d) := by
  unfold State.unitWrite
  repeat' first | (with_reducible first | assumption | (apply kept_foldl; intro _ _ _) | apply State.drop_kept | apply State.memWrite_kept) | intro _ | dsimp only
@[simp] theorem State.gateChange_kept {s0 : State} (s : State) (p : Nat) (hc : Kept s0 s) :
    Kept s0 (State.gateChange s p) := by
  unfold State.gateChange
  extract_lets z0
  try clear_value z0
  repeat' first | (with_reducible first | assumption | apply State.cnt_kept | apply State.setGate_kept | apply State.swEvent_kept | apply State.wr_kept) | simp only [kept_same] | dsimp only | split
@[simp] theorem State.gateOp_kept {s0 : State} (s : State) (p op : Nat) (hc : Kept s0 s) :
    Kept s0 (State.gateOp s p op) := by
  unfold State.gateOp
  extract_lets z0 z1
  try clear_value z0
  try clear_value z1
  repeat' first | (with_reducible first | assumption | apply kept_ite | apply State.setPort_kept | apply State.stat_kept) | simp only [kept_same] | dsimp only
@[simp] theorem State.moveGate_kept {s0 : State} (s : State) (p : Nat) (g : GateCtl) (hc : Kept s0 s) : Kept s0 (State.moveGate s p g) := by
  unfold State.moveGate; extract_lets z0 z1 z2; (try (first | (have : Kept s0 z0 := by (first | ((repeat' (first | with_reducible assumption | with_reducible apply kept_ite | with_reducible apply kept_ite2 | with_reducible apply kept_ite3 | with_reducible apply kept_ite4 | with_reducible apply State.cntH_kept | with_reducible apply State.gateOp_kept | with_reducible apply State.setGate_kept | with_reducible apply State.touchCredit_kept | simp only [kept_same] | intro _ | dsimp only | split)); done) | ((try dsimp only); (repeat' (first | with_reducible assumption | with_reducible apply kept_ite | with_reducible apply kept_ite2 | with_reducible apply kept_ite3 | with_reducible apply kept_ite4 | with_reducible apply State.cntH_kept | with_reducible apply State.gateOp_kept | with_reducible apply State.setGate_kept | with_reducible apply State.touchCredit_kept | simp only [kept_same] | intro _ | dsimp only | split)); done) | (simp only [z0]; (repeat' (first | with_reducible assumption | with_reducible apply kept_ite | with_reducible apply kept_ite2 | with_reducible apply kept_ite3 | with_reducible apply kept_ite4 | with_reducible apply State.cntH_kept | with_reducible apply State.gateOp_kept | with_reducible apply State.setGate_kept | with_reducible apply State.touchCredit_kept | simp only [kept_same] | intro _ | dsimp only | split)); done))) | (have : Kept s0 z0.2 := by ((try dsimp only); (repeat' (first | with_reducible assumption | with_reducible apply kept_ite | with_reducible apply kept_ite2 | with_reducible apply kept_ite3 | with_reducible apply kept_ite4 | with_reducible apply State.cntH_kept | with_reducible apply State.gateOp_kept | with_reducible apply State.setGate_kept | with_reducible apply State.touchCredit_kept | simp only [kept_same] | intro _ | dsimp only | split)); done)) | (have : Kept s0 z0.2.2 := by ((try dsimp only); (repeat' (first | with_reducible assumption | with_reducible apply kept_ite | with_reducible apply kept_ite2 | with_reducible apply kept_ite3 | with_reducible apply kept_ite4 | with_reducible apply State.cntH_kept | with_reducible apply State.gateOp_kept | with_reducible apply State.setGate_kept | with_reducible apply State.touchCredit_kept | simp only [kept_same] | intro _ | dsimp only | split)); done)))); (try clear_value z0); (try (first | (have : Kept s0 z1 := by (first | ((repeat' (first | with_reducible assumption | with_reducible apply kept_ite | with_reducible apply kept_ite2 | with_reducible apply kept_ite3 | with_reducible apply kept_ite4 | with_reducible apply State.cntH_kept | with_reducible apply State.gateOp_kept | with_reducible apply State.setGate_kept | with_reducible apply State.touchCredit_kept | simp only [kept_same] | intro _ | dsimp only | split)); done) | ((try dsimp only); (repeat' (first | with_reducible assumption | with_reducible apply kept_ite | with_reducible apply kept_ite2 | with_reducible apply kept_ite3 | with_reducible apply kept_ite4 | with_reducible apply State.cntH_kept | with_reducible apply State.gateOp_kept | with_reducible apply State.setGate_kept | with_reducible apply State.touchCredit_kept | simp only [kept_same] | intro _ | dsimp only | split)); done) | (simp only [z1]; (repeat' (first | with_reducible assumption | with_reducible apply kept_ite | with_reducible apply kept_ite2 | with_reducible apply kept_ite3 | with_reducible apply kept_ite4 | with_reducible apply State.cntH_kept | with_reducible apply State.gateOp_kept | with_reducible apply State.setGate_kept | with_reducible apply State.touchCredit_kept | simp only [kept_same] | intro _ | dsimp only | split)); done))) | (have : Kept s0 z1.2 := by ((try dsimp only); (repeat' (first | with_reducible assumption | with_reducible apply kept_ite | with_reducible apply kept_ite2 | with_reducible apply kept_ite3 | with_reducible apply kept_ite4 | with_reducible apply State.cntH_kept | with_reducible apply State.gateOp_kept | with_reducible apply State.setGate_kept | with_reducible apply State.touchCredit_kept | simp only [kept_same] | intro _ | dsimp only | split)); done)) | (have : Kept s0 z1.2.2 := by ((try dsimp only); (repeat' (first | with_reducible assumption | with_reducible apply kept_ite | with_reducible apply kept_ite2 | with_reducible apply kept_ite3 | with_reducible apply kept_ite4 | with_reducible apply State.cntH_kept | with_reducible apply State.gateOp_kept | with_reducible apply State.setGate_kept | with_reducible apply State.touchCredit_kept | simp only [kept_same] | intro _ | dsimp only | split)); done)))); (try clear_value z1); (try (first | (have : Kept s0 z2 := by (first | ((repeat' (first | with_reducible assumption | with_reducible apply kept_ite | with_reducible apply kept_ite2 | with_reducible apply kept_ite3 | with_reducible apply kept_ite4 | with_reducible apply State.cntH_kept | with_reducible apply State.gateOp_kept | with_reducible apply State.setGate_kept | with_reducible apply State.touchCredit_kept | simp only [kept_same] | intro _ | dsimp only | split)); done) | ((try dsimp only); (repeat' (first | with_reducible assumption | with_reducible apply kept_ite | with_reducible apply kept_ite2 | with_reducible apply kept_ite3 | with_reducible apply kept_ite4 | with_reducible apply State.cntH_kept | with_reducible apply State.gateOp_kept | with_reducible apply State.setGate_kept | with_reducible apply State.touchCredit_kept | simp only [kept_same] | intro _ | dsimp only | split)); done) | (simp only [z2]; (repeat' (first | with_reducible assumption | with_reducible apply kept_ite | with_reducible apply kept_ite2 | with_reducible apply kept_ite3 | with_reducible apply kept_ite4 | with_reducible apply State.cntH_kept | with_reducible apply State.gateOp_kept | with_reducible apply State.setGate_kept | with_reducible apply State.touchCredit_kept | simp only [kept_same] | intro _ | dsimp only | split)); done))) | (have : Kept s0 z2.2 := by ((try dsimp only); (repeat' (first | with_reducible assumption | with_reducible apply kept_ite | with_reducible apply kept_ite2 | with_reducible apply kept_ite3 | with_reducible apply kept_ite4 | with_reducible apply State.cntH_kept | with_reducible apply State.gateOp_kept | with_reducible apply State.setGate_kept | with_reducible apply State.touchCredit_kept | simp only [kept_same] | intro _ | dsimp only | split)); done)) | (have : Kept s0 z2.2.2 := by ((try dsimp only); (repeat' (first | with_reducible assumption | with_reducible apply kept_ite | with_reducible apply kept_ite2 | with_reducible apply kept_ite3 | with_reducible apply kept_ite4 | with_reducible apply State.cntH_kept | with_reducible apply State.gateOp_kept | with_reducible apply State.setGate_kept | with_reducible apply State.touchCredit_kept | simp only [kept_same] | intro _ | dsimp only | split)); done)))); (try clear_value z2); (try dsimp only); (repeat' (first | with_reducible assumption | with_reducible apply kept_ite | with_reducible apply kept_ite2 | with_reducible apply kept_ite3 | with_reducible apply kept_ite4 | with_reducible apply State.cntH_kept | with_reducible apply State.gateOp_kept | with_reducible apply State.setGate_kept | with_reducible apply State.touchCredit_kept | simp only [kept_same] | intro _ | dsimp only | split))
@[simp] theorem State.spliceStart_kept {s0 : State} (s : State) (d v : Nat) (hc : Kept s0 s) :
    Kept s0 (State.spliceStart s d v) := by
  unfold State.spliceStart
  repeat' first | (with_reducible first | assumption | apply State.setChord_kept | apply State.wr_kept) | simp only [kept_same] | dsimp only
@[simp] theorem State.spliceCommit_kept {s0 : State} (s : State) (d v : Nat) (hc : Kept s0 s) :
    Kept s0 (State.spliceCommit s d v) := by
  unfold State.spliceCommit
  extract_lets z0
  have h0 : Kept s0 z0 := by repeat' first | (with_reducible first | assumption | apply State.wr_kept) | dsimp only
  try clear_value z0
  repeat' first | (with_reducible first | assumption | apply kept_ite | apply State.setChord_kept | apply State.spliceStart_kept) | simp only [kept_same] | dsimp only
@[simp] theorem State.spliceCopy_kept {s0 : State} (s : State) (a pool k n : Nat) (hc : Kept s0 s) : Kept s0 (s.spliceCopy a pool k n).2.2 := by
  induction n generalizing s k with
  | zero => exact hc
  | succ n ih =>
    unfold State.spliceCopy
    extract_lets r e q
    have hr : Kept s0 r.2.2 := State.fetchBytes_kept _ _ _ _ hc
    have hq : Kept s0 q.2.2 := kept_ite3 (State.fetchBytes_kept _ _ _ _ hr) hr
    exact kept_ite3 hq (ih _ _ hq)
@[simp] theorem State.spliceLoaded_kept {s0 : State} (s : State) (d : Nat) (hc : Kept s0 s) :
    Kept s0 (State.spliceLoaded s d) := by
  unfold State.spliceLoaded
  repeat' first | (with_reducible first | assumption | apply kept_ite | apply State.event_kept | apply State.setChord_kept | apply State.spliceCopy_kept | apply State.spliceStart_kept | apply State.wr_kept | apply kept_ite2 | apply kept_ite3 | apply kept_ite4) | simp only [kept_same] | dsimp only | split
@[simp] theorem State.spliceActivate_kept {s0 : State} (s : State) (d : Nat) (hc : Kept s0 s) :
    Kept s0 (State.spliceActivate s d) := by
  unfold State.spliceActivate
  repeat' first | (with_reducible first | assumption | apply State.cnt_kept | apply State.event_kept | apply State.setChord_kept | apply State.wr_kept) | simp only [kept_same] | dsimp only | split
@[simp] theorem State.chordCnt_kept {s0 : State} (s : State) (d j : Nat) (hc : Kept s0 s) :
    Kept s0 (State.chordCnt s d j) := by
  unfold State.chordCnt
  repeat' first | (with_reducible first | assumption | apply State.cntH_kept) | dsimp only
@[simp] theorem State.spliceWork_kept {s0 : State} (s : State) (d : Nat) (f : List Nib) (win : List Word → Bool) (hc : Kept s0 s) :
    Kept s0 (State.spliceWork s d f win).2 := by
  unfold State.spliceWork
  extract_lets z0 z1 z2 z3 z4 z5
  try clear_value z0
  try clear_value z1
  try clear_value z2
  have h3 : Kept s0 z3 := by repeat' first | (with_reducible first | assumption | apply kept_ite | apply State.chordCnt_kept | apply State.event_kept | apply kept_ite2 | apply kept_ite3 | apply kept_ite4) | dsimp only
  try clear_value z3
  have h4 : Kept s0 z4 := by repeat' first | (with_reducible first | assumption | apply kept_ite | apply State.addW_kept | apply kept_ite2 | apply kept_ite3 | apply kept_ite4) | dsimp only
  try clear_value z4
  have h5 : Kept s0 z5 := by repeat' first | (with_reducible first | assumption | apply kept_ite | apply State.chordCnt_kept | apply kept_ite2 | apply kept_ite3 | apply kept_ite4) | dsimp only
  try clear_value z5
  repeat' first | (with_reducible first | assumption | apply kept_ite | apply State.setChord_kept | apply kept_ite2 | apply kept_ite3 | apply kept_ite4) | simp only [kept_same] | dsimp only
@[simp] theorem State.chordSent_kept {s0 : State} (s : State) (p : Nat) (wire : List Byte) (stomp : Bool) (t : Nat) (hc : Kept s0 s) :
    Kept s0 (State.chordSent s p wire stomp t) := by
  unfold State.chordSent
  extract_lets z0 z1 z2
  try clear_value z0
  try clear_value z1
  have h2 : Kept s0 z2 := by repeat' first | (with_reducible first | assumption | apply State.countTx_kept | apply State.emit_kept) | dsimp only
  try clear_value z2
  repeat' first | (with_reducible first | assumption | apply kept_ite | apply State.setPort_kept) | simp only [kept_same] | dsimp only
@[simp] theorem State.chordFrame_kept {s0 : State} (s : State) (d : Nat) (data : List Byte) (er : Option Nat) (express : Bool) (ago phase delay lost : Nat) (hc : Kept s0 s) :
    Kept s0 (State.chordFrame s d data er express ago phase delay lost) := by
  unfold State.chordFrame
  extract_lets z0 z1 z2
  have h0 : Kept s0 z0 := by repeat' first | (with_reducible first | assumption | apply State.spliceActivate_kept) | dsimp only
  try clear_value z0
  try clear_value z1
  try clear_value z2
  repeat' first | (with_reducible first | assumption | apply kept_ite | apply State.chordCnt_kept | apply State.chordSent_kept | apply State.drop_kept | apply State.event_kept | apply State.setChord_kept | apply State.spliceWork_kept | apply kept_out | apply kept_ite2 | apply kept_ite3 | apply kept_ite4) | simp only [kept_same] | intro _ | dsimp only
@[simp] theorem State.unitBytes_kept {s0 : State} (s : State) (a : Nat) (x0 : List Byte) (hc : Kept s0 s) :
    Kept s0 (State.unitBytes s a x0) := by
  induction x0 generalizing s a <;> first | (simp_all [State.unitBytes]; done) | (unfold State.unitBytes; (repeat' split) <;> simp_all)
@[simp] theorem State.captureWrite_kept {s0 : State} (s : State) (d : Nat) (hc : Kept s0 s) :
    Kept s0 (State.captureWrite s d) := by
  unfold State.captureWrite
  repeat' first | (with_reducible first | assumption | apply kept_ite | (apply kept_foldl; intro _ _ _) | apply State.setChord_kept | apply State.unitBytes_kept) | simp only [kept_same] | intro _ | dsimp only | split
@[simp] theorem State.fdbCommand_kept {s0 : State} (s : State) (v : Nat) (hc : Kept s0 s) :
    Kept s0 (State.fdbCommand s v) := by
  unfold State.fdbCommand
  repeat' first | (with_reducible first | assumption | apply kept_ite | apply State.setSw_kept | apply State.wr_kept) | simp only [kept_same] | intro _ | dsimp only
@[simp] theorem State.fdbShow_kept {s0 : State} (s : State) (e : Nat) (hc : Kept s0 s) :
    Kept s0 (State.fdbShow s e) := by
  unfold State.fdbShow
  extract_lets z0 z1 z2
  try clear_value z0
  try clear_value z1
  try clear_value z2
  repeat' first | (with_reducible first | assumption | apply State.wr_kept) | dsimp only
@[simp] theorem State.fdbPut_kept {s0 : State} (s : State) (hc : Kept s0 s) :
    Kept s0 (State.fdbPut s) := by
  unfold State.fdbPut
  extract_lets z0 z1 z2
  try clear_value z0
  try clear_value z1
  try clear_value z2
  repeat' first | (with_reducible first | assumption | apply State.setFdb_kept | apply State.showFdb_kept | apply State.wr_kept) | simp only [kept_same] | dsimp only | split
@[simp] theorem State.fdbDone_kept {s0 : State} (s : State) (hc : Kept s0 s) :
    Kept s0 (State.fdbDone s) := by
  unfold State.fdbDone
  repeat' first | (with_reducible first | assumption | apply kept_ite | apply State.fdbPut_kept | apply State.fdbShow_kept | apply State.setSw_kept | apply State.showFdb_kept | apply State.wr_kept | apply kept_ite2 | apply kept_ite3 | apply kept_ite4) | simp only [kept_same] | intro _ | dsimp only | split
@[simp] theorem State.streamCommand_kept {s0 : State} (s : State) (v : Nat) (hc : Kept s0 s) :
    Kept s0 (State.streamCommand s v) := by
  unfold State.streamCommand
  extract_lets z0 z1
  try clear_value z0
  try clear_value z1
  repeat' first | (with_reducible first | assumption | apply kept_ite | apply State.setStream_kept | apply State.wr_kept) | simp only [kept_same] | dsimp only
@[simp] theorem State.sgateStatus_kept {s0 : State} (s : State) (g v : Nat) (hc : Kept s0 s) :
    Kept s0 (State.sgateStatus s g v) := by
  unfold State.sgateStatus
  extract_lets z0
  try clear_value z0
  repeat' first | (with_reducible first | assumption | apply kept_ite | apply State.setSgate_kept | apply State.wr_kept) | simp only [kept_same] | dsimp only
@[simp] theorem State.sgateChange_kept {s0 : State} (s : State) (g : Nat) (hc : Kept s0 s) :
    Kept s0 (State.sgateChange s g) := by
  unfold State.sgateChange
  extract_lets z0
  try clear_value z0
  repeat' first | (with_reducible first | assumption | apply State.setSgate_kept | apply State.sgateStatus_kept | apply State.swEvent_kept) | simp only [kept_same] | dsimp only | split
@[simp] theorem State.sgateCommand_kept {s0 : State} (s : State) (v : Nat) (hc : Kept s0 s) :
    Kept s0 (State.sgateCommand s v) := by
  unfold State.sgateCommand
  extract_lets z0 z1
  try clear_value z0
  try clear_value z1
  repeat' first | (with_reducible first | assumption | apply kept_ite | apply State.setSgate_kept | apply State.sgateChange_kept | apply State.wr_kept) | simp only [kept_same] | dsimp only
@[simp] theorem State.meterCommand_kept {s0 : State} (s : State) (v : Nat) (hc : Kept s0 s) :
    Kept s0 (State.meterCommand s v) := by
  unfold State.meterCommand
  extract_lets z0 z1
  try clear_value z0
  try clear_value z1
  repeat' first | (with_reducible first | assumption | apply kept_ite | apply State.setMeter_kept | apply State.wr_kept) | simp only [kept_same] | dsimp only
@[simp] theorem State.cbCommand_kept {s0 : State} (s : State) (v : Nat) (hc : Kept s0 s) :
    Kept s0 (State.cbCommand s v) := by
  unfold State.cbCommand
  extract_lets z0 z1
  try clear_value z0
  try clear_value z1
  repeat' first | (with_reducible first | assumption | apply kept_ite | apply State.setCb_kept | apply State.wr_kept) | simp only [kept_same] | intro _ | dsimp only
theorem State.effSwitch_kept {s0 : State} (s : State) (i j v : Nat) {t1} (h : State.effSwitch s i j v = some t1) (hc : Kept s0 s) :
    Kept s0 t1 := by
  simp only [State.effSwitch] at h
  repeat' split at h
  all_goals first | (simp only [Option.some.injEq, reduceCtorEq] at h; done) | (simp only [Option.some.injEq] at h; subst h)
  all_goals first | (simp (maxDischargeDepth := 60) [*]; done) | (simp_all (maxDischargeDepth := 60); done)
@[simp] theorem State.dmaRead_kept {s0 : State} (s : State) (m a n : Nat) (hc : Kept s0 s) :
    Kept s0 (State.dmaRead s m a n).2.2 := by
  unfold State.dmaRead
  repeat' first | (with_reducible first | assumption | apply kept_ite | apply State.fetchBytes_kept | apply kept_ite2 | apply kept_ite3 | apply kept_ite4) | dsimp only
@[simp] theorem State.dmaWrite_kept {s0 : State} (s : State) (q : Path) (a : Nat) (d : List Byte) (hc : Kept s0 s) :
    Kept s0 (State.dmaWrite s q a d) := by
  unfold State.dmaWrite
  repeat' first | (with_reducible first | assumption | (apply kept_foldl; intro _ _ _) | apply State.drop_kept | apply State.memWrite_kept) | intro _ | dsimp only
@[simp] theorem State.fillRx_kept {s0 : State} (s : State) (x : RxInfo) (k : Nat) (first : Bool) (n : Nat) (d : List Byte) (hc : Kept s0 s) : Kept s0 (s.fillRx x k first n d).2.2 := by
  induction n generalizing s k first d with
  | zero => exact hc
  | succ n ih =>
    unfold State.fillRx
    extract_lets a size part rest ends cut w2 s1 s2 s3 s4 s5 r
    have h5 : Kept s0 s5 := State.dmaWrite_kept _ _ _ _ (State.dmaWrite_kept _ _ _ _ (State.dmaWrite_kept _ _ _ _
      (State.dmaWrite_kept _ _ _ _ (kept_ite hc (State.tick_kept _ hc)))))
    exact kept_ite3 h5 (kept_ite3 h5 (ih _ _ _ _ h5))
@[simp] theorem State.deliver_kept {s0 : State} (s : State) (st c : Nat) (hc : Kept s0 s) :
    Kept s0 (State.deliver s st c) := by
  unfold State.deliver
  extract_lets z0 z1 z2 z3
  try clear_value z0
  try clear_value z1
  try clear_value z2
  try clear_value z3
  repeat' first | (with_reducible first | assumption | apply kept_ite | apply State.cntH_kept | apply State.event_kept | apply State.fillRx_kept | apply State.meetCells_kept | apply State.releaseEntry_kept | apply State.setQueue_kept | apply State.wr_kept | apply kept_ite2 | apply kept_ite3 | apply kept_ite4) | simp only [kept_same] | dsimp only | split
@[simp] theorem State.txBytes_kept {s0 : State} (s : State) (x0 : List Nat) (hc : Kept s0 s) :
    Kept s0 (State.txBytes s x0).2.2 := by
  induction x0 generalizing s <;> first | (simp_all [State.txBytes]; done) | (unfold State.txBytes; (repeat' split) <;> simp_all)
@[simp] theorem State.ringAdmit_kept {s0 : State} (s : State) (st mask cls : Nat) (gen ts : Bool) (d : List Byte) (hc : Kept s0 s) :
    Kept s0 (State.ringAdmit s st mask cls gen ts d).2 := by
  unfold State.ringAdmit
  extract_lets z0
  have h0 : Kept s0 z0.2 := by repeat' first | (with_reducible first | assumption | apply State.wayOf_kept) | dsimp only
  try clear_value z0
  repeat' first | (with_reducible first | assumption | apply State.admitFrame_kept | apply State.setFrame_kept | apply State.storeCells_kept | apply State.tick_kept) | simp only [kept_same] | intro _ | dsimp only | split
@[simp] theorem State.txDone_kept {s0 : State} (s : State) (result : Nat) (x0 : List Nat) (hc : Kept s0 s) :
    Kept s0 (State.txDone s result x0) := by
  induction x0 generalizing s result <;> first | (simp_all [State.txDone]; done) | (unfold State.txDone; (repeat' split) <;> simp_all)
@[simp] theorem State.txRing_kept {s0 : State} (s : State) (st t : Nat) (l : List Nat) (ok : Bool) (hc : Kept s0 s) : Kept s0 (s.txRing st t l ok) := by
  have hb : Kept s0 (s.txBytes l).2.2 := State.txBytes_kept _ _ hc
  unfold State.txRing
  extract_lets i w2 ts len b q r s1 s2 s3
  have hr : Kept s0 r.2 := kept_ite2 hc (kept_ite2 hb (State.ringAdmit_kept _ _ _ _ _ _ _ hb))
  have h1 : Kept s0 s1 := State.wr_kept _ _ _ _ (State.txDone_kept _ _ _ hr)
  have h2 : Kept s0 s2 := State.setSw_kept _ _ h1
  have h3 : Kept s0 s3 := kept_ite h2 (State.cntH_kept _ _ _ _ _ h2)
  exact State.event_kept _ _ _ _ h3
@[simp] theorem State.auditPass_kept {s0 : State} (s : State) (hc : Kept s0 s) :
    Kept s0 (State.auditPass s) := by
  unfold State.auditPass
  extract_lets z0 z1 z2 z3 z4 z5 z6 z7 z8 z9 z10 z11 z12
  try clear_value z0
  try clear_value z1
  try clear_value z2
  try clear_value z3
  try clear_value z4
  try clear_value z5
  have h6 : Kept s0 z6 := by repeat' first | (with_reducible first | assumption | apply kept_ite | apply State.setSw_kept | apply kept_ite2 | apply kept_ite3 | apply kept_ite4) | simp only [kept_same] | intro _ | dsimp only
  try clear_value z6
  have h7 : Kept s0 z7 := by repeat' first | (with_reducible first | assumption | (apply kept_foldl; intro _ _ _) | apply State.freeFrame_kept) | intro _ | dsimp only
  try clear_value z7
  have h8 : Kept s0 z8 := by repeat' first | (with_reducible first | assumption | apply kept_ite | apply State.freeCells_kept | apply State.shareCells_kept) | dsimp only
  try clear_value z8
  have h9 : Kept s0 z9 := by repeat' first | (with_reducible first | assumption | apply kept_ite | apply State.wr_kept) | dsimp only
  try clear_value z9
  have h10 : Kept s0 z10 := by repeat' first | (with_reducible first | assumption | apply State.cnt_kept | apply State.swEvent_kept) | dsimp only
  try clear_value z10
  have h11 : Kept s0 z11 := by repeat' first | (with_reducible first | assumption | apply kept_ite | apply State.swEvent_kept | apply State.wr_kept) | dsimp only
  try clear_value z11
  have h12 : Kept s0 z12 := by repeat' first | (with_reducible first | assumption | apply kept_ite | apply State.swEvent_kept | apply State.wr_kept) | dsimp only
  try clear_value z12
  repeat' first | (with_reducible first | assumption | apply kept_ite | apply State.record_kept) | dsimp only
@[simp] theorem State.adjustStart_kept {s0 : State} (s : State) (d v : Nat) (hc : Kept s0 s) :
    Kept s0 (State.adjustStart s d v) := by
  unfold State.adjustStart
  repeat' first | (with_reducible first | assumption | apply State.setTdom_kept | apply State.wr_kept) | simp only [kept_same] | dsimp only
@[simp] theorem State.stepCommand_kept {s0 : State} (s : State) (d v : Nat) (hc : Kept s0 s) :
    Kept s0 (State.stepCommand s d v) := by
  unfold State.stepCommand
  repeat' first | (with_reducible first | assumption | apply kept_ite | apply State.setTdom_kept | apply State.wr_kept) | simp only [kept_same] | dsimp only
@[simp] theorem State.stepAdd_kept {s0 : State} (s : State) (d : Nat) (hc : Kept s0 s) :
    Kept s0 (State.stepAdd s d) := by
  unfold State.stepAdd
  extract_lets z0 z1 z2
  try clear_value z0
  try clear_value z1
  have h2 : Kept s0 z2 := by repeat' first | (with_reducible first | assumption | apply State.setDomVal_kept) | dsimp only
  try clear_value z2
  repeat' first | (with_reducible first | assumption | apply State.cnt_kept | apply State.event_kept | apply State.setTdom_kept | apply State.wr_kept) | simp only [kept_same] | dsimp only
@[simp] theorem State.setPps_kept {s0 : State} (s : State) (i : Nat) (x : Pps) (hc : Kept s0 s) :
    Kept s0 (State.setPps s i x) := by
  unfold State.setPps
  repeat' first | (with_reducible first | assumption) | simp only [kept_same] | intro _ | dsimp only
@[simp] theorem State.ppsRest_kept {s0 : State} (s : State) (i : Nat) (hc : Kept s0 s) :
    Kept s0 (State.ppsRest s i) := by
  unfold State.ppsRest
  repeat' first | (with_reducible first | assumption | apply kept_ite | apply State.emit_kept | apply State.setPps_kept) | simp only [kept_same] | dsimp only
@[simp] theorem State.ppsArm_kept {s0 : State} (s : State) (i : Nat) (count : Bool) (hc : Kept s0 s) :
    Kept s0 (State.ppsArm s i count) := by
  unfold State.ppsArm
  extract_lets z0 z1 z2
  try clear_value z0
  try clear_value z1
  try clear_value z2
  repeat' first | (with_reducible first | assumption | apply kept_ite | apply State.addW_kept | apply State.setPps_kept | apply kept_ite2 | apply kept_ite3 | apply kept_ite4) | simp only [kept_same] | dsimp only
@[simp] theorem State.ppsWrite_kept {s0 : State} (s : State) (i j v : Nat) (hc : Kept s0 s) :
    Kept s0 (State.ppsWrite s i j v) := by
  unfold State.ppsWrite
  extract_lets z0
  try clear_value z0
  repeat' first | (with_reducible first | assumption | apply kept_ite | apply State.emit_kept | apply State.ppsArm_kept | apply State.ppsRest_kept | apply State.wr_kept) | dsimp only
@[simp] theorem State.unsync_kept {s0 : State} (s : State) (d : Nat) (hc : Kept s0 s) :
    Kept s0 (State.unsync s d) := by
  unfold State.unsync
  extract_lets z0
  have h0 : Kept s0 z0 := by repeat' first | (with_reducible first | assumption | apply State.event_kept | apply State.wr_kept) | dsimp only
  try clear_value z0
  repeat' first | (with_reducible first | assumption | apply kept_ite | (apply kept_foldl; intro _ _ _) | apply State.ppsRest_kept) | intro _ | dsimp only
@[simp] theorem State.syncWrite_kept {s0 : State} (s : State) (d v : Nat) (hc : Kept s0 s) :
    Kept s0 (State.syncWrite s d v) := by
  unfold State.syncWrite
  repeat' first | (with_reducible first | assumption | apply kept_ite | apply State.unsync_kept | apply State.wr_kept) | dsimp only
@[simp] theorem State.trigWrite_kept {s0 : State} (s : State) (i j v : Nat) (hc : Kept s0 s) :
    Kept s0 (State.trigWrite s i j v) := by
  unfold State.trigWrite
  extract_lets z0
  have h0 : Kept s0 z0 := by repeat' first | (with_reducible first | assumption | apply State.wr_kept) | dsimp only
  try clear_value z0
  repeat' first | (with_reducible first | assumption | apply kept_ite | apply State.wr_kept) | dsimp only
theorem State.trigFire_kept {s0 : State} (s : State) (d t : Nat) {t1} (h : State.trigFire s d t = some t1) (hc : Kept s0 s) :
    Kept s0 t1 := by
  simp only [State.trigFire] at h
  repeat' split at h
  all_goals first | (simp only [Option.some.injEq, reduceCtorEq] at h; done) | (simp only [Option.some.injEq] at h; subst h)
  all_goals first | (simp (maxDischargeDepth := 60) [*]; done) | (simp_all (maxDischargeDepth := 60); done)
@[simp] theorem State.capShow_kept {s0 : State} (s : State) (i : Nat) (l : List CapEntry) (hc : Kept s0 s) :
    Kept s0 (State.capShow s i l) := by
  unfold State.capShow
  extract_lets z0
  have h0 : Kept s0 z0 := by simp only [z0]; repeat' first | (with_reducible first | assumption) | simp only [kept_same] | intro _ | dsimp only
  try clear_value z0
  repeat' first | (with_reducible first | assumption | apply kept_ite | apply State.tick_kept | apply State.wr_kept) | simp only [kept_same] | dsimp only | split
@[simp] theorem State.capPop_kept {s0 : State} (s : State) (i v : Nat) (hc : Kept s0 s) :
    Kept s0 (State.capPop s i v) := by
  unfold State.capPop
  repeat' first | (with_reducible first | assumption | apply kept_ite | apply State.capShow_kept) | simp only [kept_same] | dsimp only | split
theorem State.effTime_kept {s0 : State} (s : State) (i j v : Nat) {t1} (h : State.effTime s i j v = some t1) (hc : Kept s0 s) :
    Kept s0 t1 := by
  simp only [State.effTime] at h
  repeat' split at h
  all_goals first | (simp only [Option.some.injEq, reduceCtorEq] at h; done) | (simp only [Option.some.injEq] at h; subst h)
  all_goals first | (simp (maxDischargeDepth := 60) [*]; done) | (simp_all (maxDischargeDepth := 60); done)
@[simp] theorem State.launchArm_kept {s0 : State} (s : State) (k v : Nat) (hc : Kept s0 s) :
    Kept s0 (State.launchArm s k v) := by
  unfold State.launchArm
  extract_lets z0
  try clear_value z0
  repeat' first | (with_reducible first | assumption | apply State.setLaunch_kept | apply State.wr_kept) | dsimp only
@[simp] theorem State.launchCnt_kept {s0 : State} (s : State) (p j : Nat) (hc : Kept s0 s) :
    Kept s0 (State.launchCnt s p j) := by
  unfold State.launchCnt
  repeat' first | (with_reducible first | assumption | apply State.cntH_kept) | dsimp only
@[simp] theorem State.launchEvent_kept {s0 : State} (s : State) (p b : Nat) (hc : Kept s0 s) :
    Kept s0 (State.launchEvent s p b) := by
  unfold State.launchEvent
  repeat' first | (with_reducible first | assumption | apply State.event_kept) | dsimp only
@[simp] theorem State.launchEnd_kept {s0 : State} (s : State) (k : Nat) (hc : Kept s0 s) :
    Kept s0 (State.launchEnd s k) := by
  unfold State.launchEnd
  extract_lets z0 z1
  try clear_value z0
  have h1 : Kept s0 z1 := by repeat' first | (with_reducible first | assumption | apply State.cnt_kept | apply State.setLaunch_kept) | dsimp only
  try clear_value z1
  repeat' first | (with_reducible first | assumption | apply kept_ite | apply State.addH_kept | apply State.clrBits_kept | apply State.wr_kept | apply kept_ite2 | apply kept_ite3 | apply kept_ite4) | dsimp only
@[simp] theorem State.launchResult_kept {s0 : State} (s : State) (k r : Nat) (hc : Kept s0 s) :
    Kept s0 (State.launchResult s k r) := by
  unfold State.launchResult
  repeat' first | (with_reducible first | assumption | apply State.launchEnd_kept | apply State.wr_kept) | dsimp only
@[simp] theorem State.launchAbort_kept {s0 : State} (s : State) (k : Nat) (hc : Kept s0 s) :
    Kept s0 (State.launchAbort s k) := by
  unfold State.launchAbort
  extract_lets z0
  try clear_value z0
  repeat' first | (with_reducible first | assumption | apply kept_ite | apply State.clrBits_kept | apply State.launchResult_kept | apply State.wr_kept) | dsimp only
@[simp] theorem State.launchOff_kept {s0 : State} (s : State) (k v : Nat) (hc : Kept s0 s) :
    Kept s0 (State.launchOff s k v) := by
  unfold State.launchOff
  repeat' first | (with_reducible first | assumption | apply State.launchAbort_kept | apply State.wr_kept) | dsimp only
@[simp] theorem State.launchBegin_kept {s0 : State} (s : State) (k phase : Nat) (hc : Kept s0 s) :
    Kept s0 (State.launchBegin s k phase) := by
  unfold State.launchBegin
  extract_lets z0 z1 z2
  try clear_value z0
  try clear_value z1
  try clear_value z2
  repeat' first | (with_reducible first | assumption | apply kept_ite | apply State.beginTx_kept | apply State.launchCnt_kept | apply State.launchEvent_kept | apply State.launchResult_kept | apply State.setLaunch_kept | apply State.touchCredit_kept | apply State.wr_kept) | simp only [kept_same] | dsimp only | split
theorem State.effLaunch_kept {s0 : State} (s : State) (i j v : Nat) {t1} (h : State.effLaunch s i j v = some t1) (hc : Kept s0 s) :
    Kept s0 t1 := by
  simp only [State.effLaunch] at h
  repeat' split at h
  all_goals first | (simp only [Option.some.injEq, reduceCtorEq] at h; done) | (simp only [Option.some.injEq] at h; subst h)
  all_goals first | (simp (maxDischargeDepth := 60) [*]; done) | (simp_all (maxDischargeDepth := 60); done)
@[simp] theorem State.perEvent_kept {s0 : State} (s : State) (n b : Nat) (hc : Kept s0 s) :
    Kept s0 (State.perEvent s n b) := by
  unfold State.perEvent
  repeat' first | (with_reducible first | assumption | apply State.event_kept) | dsimp only
@[simp] theorem State.perCnt_kept {s0 : State} (s : State) (n j : Nat) (hc : Kept s0 s) :
    Kept s0 (State.perCnt s n j) := by
  unfold State.perCnt
  repeat' first | (with_reducible first | assumption | apply State.cntH_kept) | dsimp only
@[simp] theorem State.perOpCnt_kept {s0 : State} (s : State) (n j : Nat) (hc : Kept s0 s) :
    Kept s0 (State.perOpCnt s n j) := by
  unfold State.perOpCnt
  repeat' first | (with_reducible first | assumption | apply State.cntH_kept) | dsimp only
@[simp] theorem State.perSend_kept {s0 : State} (s : State) (n : Nat) (east : Bool) (f : List Nib) (abt : Bool) (hc : Kept s0 s) :
    Kept s0 (State.perSend s n east f abt) := by
  unfold State.perSend
  repeat' first | (with_reducible first | assumption | apply State.emit_kept) | dsimp only
@[simp] theorem State.perSync_kept {s0 : State} (s : State) (n : Nat) (hc : Kept s0 s) :
    Kept s0 (State.perSync s n) := by
  unfold State.perSync
  extract_lets z0
  try clear_value z0
  repeat' first | (with_reducible first | assumption | apply kept_ite | apply State.syncWrite_kept) | dsimp only
@[simp] theorem State.perGo_kept {s0 : State} (s : State) (n st : Nat) (hc : Kept s0 s) :
    Kept s0 (State.perGo s n st) := by
  unfold State.perGo
  repeat' first | (with_reducible first | assumption | apply kept_ite | apply State.cnt_kept | apply State.hold_kept | apply State.perEvent_kept | apply State.perSync_kept | apply State.setRing_kept | apply State.wr_kept) | simp only [kept_same] | dsimp only
@[simp] theorem State.perForget_kept {s0 : State} (s : State) (n : Nat) (hc : Kept s0 s) :
    Kept s0 (State.perForget s n) := by
  unfold State.perForget
  extract_lets z0 z1
  try clear_value z0
  have h1 : Kept s0 z1 := by repeat' first | (with_reducible first | assumption | apply State.setRing_kept) | simp only [kept_same] | intro _ | dsimp only
  try clear_value z1
  repeat' first | (with_reducible first | assumption | apply State.wr_kept) | dsimp only
@[simp] theorem State.perListen_kept {s0 : State} (s : State) (n : Nat) (hc : Kept s0 s) :
    Kept s0 (State.perListen s n) := by
  unfold State.perListen
  repeat' first | (with_reducible first | assumption | apply State.perForget_kept | apply State.perGo_kept) | dsimp only
@[simp] theorem State.perOff_kept {s0 : State} (s : State) (n : Nat) (hc : Kept s0 s) :
    Kept s0 (State.perOff s n) := by
  unfold State.perOff
  extract_lets z0
  have h0 : Kept s0 z0 := by repeat' first | (with_reducible first | assumption | apply State.perForget_kept | apply State.perGo_kept) | dsimp only
  try clear_value z0
  repeat' first | (with_reducible first | assumption | apply State.setRing_kept) | simp only [kept_same] | dsimp only
@[simp] theorem State.perPassive_kept {s0 : State} (s : State) (n : Nat) (hc : Kept s0 s) :
    Kept s0 (State.perPassive s n) := by
  unfold State.perPassive
  repeat' first | (with_reducible first | assumption | apply kept_ite | apply State.perGo_kept | apply State.setRing_kept) | simp only [kept_same] | dsimp only
@[simp] theorem State.perBlocked_kept {s0 : State} (s : State) (n before : Nat) (hc : Kept s0 s) :
    Kept s0 (State.perBlocked s n before) := by
  unfold State.perBlocked
  extract_lets z0
  try clear_value z0
  repeat' first | (with_reducible first | assumption | apply kept_ite | apply State.perPassive_kept | apply State.setRing_kept) | simp only [kept_same] | dsimp only
@[simp] theorem State.perSwitch_kept {s0 : State} (s : State) (n m : Nat) (hc : Kept s0 s) :
    Kept s0 (State.perSwitch s n m) := by
  unfold State.perSwitch
  extract_lets z0
  try clear_value z0
  repeat' first | (with_reducible first | assumption | apply kept_ite | apply State.cnt_kept | apply State.perEvent_kept | apply State.perPassive_kept | apply State.record_kept | apply State.setRing_kept | apply State.wr_kept) | simp only [kept_same] | dsimp only
@[simp] theorem State.perEnable_kept {s0 : State} (s : State) (n v : Nat) (hc : Kept s0 s) :
    Kept s0 (State.perEnable s n v) := by
  unfold State.perEnable
  repeat' first | (with_reducible first | assumption | apply kept_ite | apply State.perGo_kept | apply State.perOff_kept | apply State.wr_kept) | dsimp only
@[simp] theorem State.perLockLost_kept {s0 : State} (s : State) (n : Nat) (east lostRx lostTx : Bool) (hc : Kept s0 s) :
    Kept s0 (State.perLockLost s n east lostRx lostTx) := by
  unfold State.perLockLost
  extract_lets z0 z1 z2 z3 z4
  have h0 : Kept s0 z0 := by repeat' first | (with_reducible first | assumption | apply kept_ite | apply State.clrBits_kept | apply State.perCnt_kept | apply State.perEvent_kept) | dsimp only
  try clear_value z0
  have h1 : Kept s0 z1 := by repeat' first | (with_reducible first | assumption | apply kept_ite | apply State.perOpCnt_kept) | dsimp only
  try clear_value z1
  have h2 : Kept s0 z2 := by repeat' first | (with_reducible first | assumption | apply kept_ite | apply State.perOpCnt_kept) | dsimp only
  try clear_value z2
  try clear_value z3
  have h4 : Kept s0 z4 := by repeat' first | (with_reducible first | assumption | apply kept_ite | apply State.setRing_kept) | simp only [kept_same] | dsimp only
  try clear_value z4
  repeat' first | (with_reducible first | assumption | apply kept_ite | apply State.perEvent_kept | apply State.perGo_kept | apply State.perListen_kept | apply State.setRing_kept) | simp only [kept_same] | dsimp only
@[simp] theorem State.perStore_kept {s0 : State} (s : State) (n : Nat) (e : List Word) (x : PerFrame) (hc : Kept s0 s) :
    Kept s0 (State.perStore s n e x) := by
  unfold State.perStore
  extract_lets z0 z1 z2 z3 z4 z5 z6 z7
  try clear_value z0
  try clear_value z1
  try clear_value z2
  try clear_value z3
  have h4 : Kept s0 z4 := by repeat' first | (with_reducible first | assumption | apply State.dmaWrite_kept) | dsimp only
  try clear_value z4
  have h5 : Kept s0 z5 := by repeat' first | (with_reducible first | assumption | apply kept_ite | apply State.dmaWrite_kept) | dsimp only
  try clear_value z5
  have h6 : Kept s0 z6 := by repeat' first | (with_reducible first | assumption | apply State.dmaWrite_kept) | dsimp only
  try clear_value z6
  have h7 : Kept s0 z7 := by repeat' first | (with_reducible first | assumption | apply State.dmaWrite_kept) | dsimp only
  try clear_value z7
  repeat' first | (with_reducible first | assumption | apply kept_ite | apply State.dmaWrite_kept) | dsimp only
@[simp] theorem State.perSlotFrame_kept {s0 : State} (s : State) (n : Nat) (x : PerFrame) (hc : Kept s0 s) :
    Kept s0 (State.perSlotFrame s n x) := by
  unfold State.perSlotFrame
  extract_lets z0
  try clear_value z0
  repeat' first | (with_reducible first | assumption | apply kept_ite | apply State.perCnt_kept | apply State.perEvent_kept | apply State.perOpCnt_kept | apply State.perStore_kept | apply State.setRing_kept) | simp only [kept_same] | dsimp only | split
@[simp] theorem State.perTake_kept {s0 : State} (s : State) (n : Nat) (x : PerFrame) (hc : Kept s0 s) :
    Kept s0 (State.perTake s n x) := by
  unfold State.perTake
  extract_lets z0
  try clear_value z0
  repeat' first | (with_reducible first | assumption | apply kept_ite | apply State.perCnt_kept | apply State.perEvent_kept | apply State.perOpCnt_kept | apply State.perSlotFrame_kept | apply State.setRing_kept) | simp only [kept_same] | dsimp only | split
@[simp] theorem State.perSplice_kept {s0 : State} (s : State) (n d : Nat) (f : List Nib) (ok : Bool) (x : PerFrame) (hc : Kept s0 s) :
    Kept s0 (State.perSplice s n d f ok x).2.2 := by
  unfold State.perSplice
  extract_lets z0 z1 z2 z3
  have h0 : Kept s0 z0 := by repeat' first | (with_reducible first | assumption | apply State.spliceActivate_kept) | dsimp only
  try clear_value z0
  try clear_value z1
  try clear_value z2
  try clear_value z3
  repeat' first | (with_reducible first | assumption | apply kept_ite | apply State.perBlocked_kept | apply State.perEvent_kept | apply State.perOpCnt_kept | apply State.setChord_kept | apply State.setRing_kept | apply State.spliceWork_kept | apply kept_out | apply kept_ite2 | apply kept_ite3 | apply kept_ite4) | simp only [kept_same] | intro _ | dsimp only | split
@[simp] theorem State.perReceive_kept {s0 : State} (s : State) (n : Nat) (east : Bool) (f : List Nib) (fin : PerEnd) (ago phase : Nat) (displaced : Bool) (hc : Kept s0 s) :
    Kept s0 (State.perReceive s n east f fin ago phase displaced) := by
  unfold State.perReceive
  extract_lets z0 z1 z2 z3 z4 z5 z6
  try clear_value z0
  try clear_value z1
  try clear_value z2
  try clear_value z3
  have h4 : Kept s0 z4 := by repeat' first | (with_reducible first | assumption | apply kept_ite | apply State.perCnt_kept) | dsimp only
  try clear_value z4
  have h5 : Kept s0 z5 := by repeat' first | (with_reducible first | assumption | apply kept_ite | apply State.cntH_kept | apply State.perCnt_kept | apply State.perEvent_kept | apply State.perOpCnt_kept) | dsimp only
  try clear_value z5
  have h6 : Kept s0 z6 := by repeat' first | (with_reducible first | assumption | apply kept_ite | apply State.cntH_kept | apply State.drop_kept | apply State.perCnt_kept | apply State.perEvent_kept | apply State.perOpCnt_kept | apply State.perSend_kept | apply State.perSplice_kept | apply State.perTake_kept | apply kept_ite2 | apply kept_ite3 | apply kept_ite4) | dsimp only
  try clear_value z6
  repeat' first | (with_reducible first | assumption | apply kept_ite | apply State.cntH_kept | apply State.drop_kept | apply State.perCnt_kept | apply State.perEvent_kept | apply State.perOpCnt_kept | apply State.perSend_kept | apply State.perSplice_kept | apply State.perTake_kept | apply kept_ite2 | apply kept_ite3 | apply kept_ite4) | dsimp only
@[simp] theorem State.setEcho_kept {s0 : State} (s : State) (n : Nat) (east : Bool) (x : Echo) (hc : Kept s0 s) :
    Kept s0 (State.setEcho s n east x) := by
  unfold State.setEcho
  repeat' first | (with_reducible first | assumption | apply kept_ite | apply State.setRing_kept) | simp only [kept_same] | intro _ | dsimp only
@[simp] theorem State.refLeaves_kept {s0 : State} (s : State) (n cycle phase : Nat) (pend : Option (Nat × Nat)) (flags : Nat) (hc : Kept s0 s) :
    Kept s0 (State.refLeaves s n cycle phase pend flags) := by
  unfold State.refLeaves
  extract_lets z0 z1 z2 z3 z4 z5
  try clear_value z0
  have h1 : Kept s0 z1 := by repeat' first | (with_reducible first | assumption | apply State.perSend_kept) | dsimp only
  try clear_value z1
  have h2 : Kept s0 z2 := by repeat' first | (with_reducible first | assumption | apply State.perCnt_kept | apply State.wr_kept) | dsimp only
  try clear_value z2
  have h3 : Kept s0 z3 := by repeat' first | (with_reducible first | assumption | apply State.wr_kept) | dsimp only
  try clear_value z3
  try clear_value z4
  try clear_value z5
  repeat' first | (with_reducible first | assumption | apply kept_ite | apply State.setRing_kept) | simp only [kept_same] | intro _ | dsimp only
@[simp] theorem State.changeStep_kept {s0 : State} (s : State) (n cycle : Nat) (hc : Kept s0 s) :
    Kept s0 (State.changeStep s n cycle).2.2 := by
  unfold State.changeStep
  repeat' first | (with_reducible first | assumption | apply kept_ite | apply State.cnt_kept | apply State.perEvent_kept | apply State.perSwitch_kept | apply State.setRing_kept | apply State.swapUntie_kept | apply State.wr_kept | apply kept_ite2 | apply kept_ite3 | apply kept_ite4) | simp only [kept_same] | intro _ | dsimp only | split
@[simp] theorem State.perRestore_kept {s0 : State} (s : State) (n : Nat) (hc : Kept s0 s) :
    Kept s0 (State.perRestore s n) := by
  unfold State.perRestore
  extract_lets z0
  try clear_value z0
  repeat' first | (with_reducible first | assumption | apply kept_ite | apply State.perGo_kept | apply State.setRing_kept | apply State.wr_kept) | simp only [kept_same] | dsimp only
@[simp] theorem State.perRate_kept {s0 : State} (s : State) (n : Nat) (p : List Byte) (arrival : Nat) (e : Int) (hc : Kept s0 s) :
    Kept s0 (State.perRate s n p arrival e) := by
  unfold State.perRate
  extract_lets z0 z1
  try clear_value z0
  try clear_value z1
  repeat' first | (with_reducible first | assumption | apply kept_ite | apply State.adjustStart_kept | apply State.stepCommand_kept | apply State.wr_kept) | dsimp only
@[simp] theorem State.refState_kept {s0 : State} (s : State) (n : Nat) (e : Int) (hc : Kept s0 s) :
    Kept s0 (State.refState s n e) := by
  unfold State.refState
  extract_lets z0 z1
  try clear_value z0
  try clear_value z1
  repeat' first | (with_reducible first | assumption | apply kept_ite | apply State.hold_kept | apply State.perGo_kept | apply State.perPassive_kept | apply State.setRing_kept) | simp only [kept_same] | dsimp only
@[simp] theorem State.refTaken_kept {s0 : State} (s : State) (n : Nat) (x : PerFrame) (p : List Byte) (hc : Kept s0 s) :
    Kept s0 (State.refTaken s n x p) := by
  unfold State.refTaken
  extract_lets z0 z1 z2 z3 z4 z5 z6 z7 z8 z9 z10
  try clear_value z0
  try clear_value z1
  have h2 : Kept s0 z2 := by repeat' first | (with_reducible first | assumption | apply kept_ite | apply State.perRestore_kept) | dsimp only
  try clear_value z2
  try clear_value z3
  try clear_value z4
  have h5 : Kept s0 z5 := by repeat' first | (with_reducible first | assumption | apply kept_ite | apply State.swapUntie_kept) | dsimp only
  try clear_value z5
  have h6 : Kept s0 z6 := by repeat' first | (with_reducible first | assumption | apply State.perRate_kept) | dsimp only
  try clear_value z6
  try clear_value z7
  have h8 : Kept s0 z8 := by repeat' first | (with_reducible first | assumption | apply State.wr_kept) | dsimp only
  try clear_value z8
  try clear_value z9
  have h10 : Kept s0 z10 := by repeat' first | (with_reducible first | assumption | apply kept_ite | apply State.setRing_kept) | simp only [kept_same] | intro _ | dsimp only
  try clear_value z10
  repeat' first | (with_reducible first | assumption | apply State.perSwitch_kept | apply State.refState_kept) | dsimp only
@[simp] theorem State.refAtHead_kept {s0 : State} (s : State) (n : Nat) (x : PerFrame) (p : List Byte) (hc : Kept s0 s) :
    Kept s0 (State.refAtHead s n x p) := by
  unfold State.refAtHead
  extract_lets z0 z1
  try clear_value z0
  try clear_value z1
  repeat' first | (with_reducible first | assumption | apply kept_ite | apply State.cnt_kept | apply State.perEvent_kept | apply State.record_kept | apply State.setRing_kept) | simp only [kept_same] | dsimp only
@[simp] theorem State.refAccept_kept {s0 : State} (s : State) (n : Nat) (hc : Kept s0 s) :
    Kept s0 (State.refAccept s n) := by
  unfold State.refAccept
  repeat' first | (with_reducible first | assumption | apply kept_ite | apply State.perCnt_kept | apply State.perPassive_kept | apply State.refAtHead_kept | apply State.refTaken_kept | apply State.setRing_kept | apply State.wr_kept) | simp only [kept_same] | dsimp only | split
@[simp] theorem State.refMissed_kept {s0 : State} (s : State) (n : Nat) (hc : Kept s0 s) :
    Kept s0 (State.refMissed s n) := by
  unfold State.refMissed
  extract_lets z0 z1 z2
  try clear_value z0
  have h1 : Kept s0 z1 := by repeat' first | (with_reducible first | assumption | apply State.perCnt_kept | apply State.perEvent_kept) | dsimp only
  try clear_value z1
  have h2 : Kept s0 z2 := by repeat' first | (with_reducible first | assumption | apply kept_ite | apply State.hold_kept | apply State.setRing_kept) | simp only [kept_same] | dsimp only
  try clear_value z2
  repeat' first | (with_reducible first | assumption | apply kept_ite | apply State.perListen_kept | apply State.perPassive_kept) | dsimp only
@[simp] theorem State.coldWin_kept {s0 : State} (s : State) (n : Nat) (hc : Kept s0 s) :
    Kept s0 (State.coldWin s n) := by
  unfold State.coldWin
  extract_lets z0 z1
  try clear_value z0
  have h1 : Kept s0 z1 := by repeat' first | (with_reducible first | assumption | apply State.perGo_kept | apply State.record_kept | apply State.setRing_kept | apply State.wr_kept) | simp only [kept_same] | dsimp only
  try clear_value z1
  repeat' first | (with_reducible first | assumption | apply State.perGo_kept | apply State.record_kept | apply State.setRing_kept | apply State.wr_kept) | simp only [kept_same] | dsimp only
@[simp] theorem State.slotInstall_kept {s0 : State} (s : State) (n m : Nat) (l : List (List Word)) (hc : Kept s0 s) :
    Kept s0 (State.slotInstall s n m l).2 := by
  unfold State.slotInstall
  extract_lets z0
  try clear_value z0
  repeat' first | (with_reducible first | assumption | apply State.perEvent_kept | apply State.setRing_kept | apply State.wr_kept) | simp only [kept_same] | intro _ | dsimp only | split
@[simp] theorem State.slotLoad_kept {s0 : State} (s : State) (n m v : Nat) (hc : Kept s0 s) :
    Kept s0 (State.slotLoad s n m v) := by
  unfold State.slotLoad
  repeat' first | (with_reducible first | assumption | apply State.wr_kept) | dsimp only
@[simp] theorem State.setSlotFetch_kept {s0 : State} (s : State) (n k : Nat) (x : Nat × List Nib) (hc : Kept s0 s) :
    Kept s0 (State.setSlotFetch s n k x) := by
  unfold State.setSlotFetch
  repeat' first | (with_reducible first | assumption | apply State.setRing_kept) | simp only [kept_same] | intro _ | dsimp only
@[simp] theorem State.perInsert_kept {s0 : State} (s : State) (n : Nat) (f : List Nib) (phase : Nat) (hc : Kept s0 s) :
    Kept s0 (State.perInsert s n f phase) := by
  unfold State.perInsert
  extract_lets z0 z1 z2
  try clear_value z0
  try clear_value z1
  try clear_value z2
  repeat' first | (with_reducible first | assumption | apply kept_ite | apply State.perBlocked_kept | apply State.perCnt_kept | apply State.perEvent_kept | apply State.perOpCnt_kept | apply State.perSend_kept | apply State.setRing_kept) | simp only [kept_same] | intro _ | dsimp only | split
@[simp] theorem State.mgmtLeaves_kept {s0 : State} (s : State) (n slot : Nat) (put : State → List Nib → State) (hput : ∀ s a0, Kept s0 s → Kept s0 (put s a0)) (hc : Kept s0 s) :
    Kept s0 (State.mgmtLeaves s n slot put) := by
  unfold State.mgmtLeaves
  extract_lets z0 z1 z2
  try clear_value z0
  have h1 : Kept s0 z1.2.2 := by repeat' first | (with_reducible first | assumption | apply State.dmaRead_kept) | intro _ | dsimp only
  try clear_value z1
  have h2 : Kept s0 z2 := by repeat' first | (with_reducible first | assumption | apply State.cnt_kept | apply hput) | intro _ | dsimp only
  try clear_value z2
  repeat' first | (with_reducible first | assumption | apply State.setRing_kept) | simp only [kept_same] | intro _ | dsimp only
@[simp] theorem State.slotInsert_kept {s0 : State} (s : State) (n k : Nat) (busy : Bool) (phase : Nat) (hc : Kept s0 s) :
    Kept s0 (State.slotInsert s n k busy phase) := by
  unfold State.slotInsert
  extract_lets z0
  try clear_value z0
  repeat' first | (with_reducible first | assumption | apply kept_ite | apply State.mgmtLeaves_kept | apply State.perCnt_kept | apply State.perEvent_kept | apply State.perInsert_kept | apply State.perOpCnt_kept | apply State.setSlotFetch_kept | apply kept_ite2 | apply kept_ite3 | apply kept_ite4) | simp only [kept_same] | intro _ | dsimp only | split
@[simp] theorem State.guardCommit_kept {s0 : State} (s : State) (n v master : Nat) (hc : Kept s0 s) :
    Kept s0 (State.guardCommit s n v master) := by
  unfold State.guardCommit
  repeat' first | (with_reducible first | assumption | apply State.setRing_kept | apply State.wr_kept) | simp only [kept_same] | intro _ | dsimp only
@[simp] theorem State.guardInstall_kept {s0 : State} (s : State) (n master : Nat) (l : List (Word × Word)) (hc : Kept s0 s) :
    Kept s0 (State.guardInstall s n master l).2 := by
  unfold State.guardInstall
  repeat' first | (with_reducible first | assumption | apply kept_ite | apply State.guard_kept | apply State.record_kept | apply State.setRing_kept | apply State.wr_kept | apply kept_ite2 | apply kept_ite3 | apply kept_ite4) | simp only [kept_same] | intro _ | dsimp only
@[simp] theorem State.changeAsk_kept {s0 : State} (s : State) (n mode lead : Nat) (restore : Bool) (hc : Kept s0 s) :
    Kept s0 (State.changeAsk s n mode lead restore) := by
  unfold State.changeAsk
  repeat' first | (with_reducible first | assumption | apply State.setRing_kept) | simp only [kept_same] | dsimp only
@[simp] theorem State.perRelay_kept {s0 : State} (s : State) (n : Nat) (x : PerFrame) (p : List Byte) (hc : Kept s0 s) :
    Kept s0 (State.perRelay s n x p) := by
  unfold State.perRelay
  repeat' first | (with_reducible first | assumption | apply State.perSend_kept) | dsimp only
@[simp] theorem State.measureNode_kept {s0 : State} (s : State) (n : Nat) (x : PerFrame) (hc : Kept s0 s) :
    Kept s0 (State.measureNode s n x) := by
  unfold State.measureNode
  extract_lets z0 z1 z2 z3 z4 z5 z6
  try clear_value z0
  try clear_value z1
  try clear_value z2
  try clear_value z3
  try clear_value z4
  try clear_value z5
  try clear_value z6
  repeat' first | (with_reducible first | assumption | apply kept_ite | apply State.perRelay_kept | apply State.setRing_kept | apply State.wr_kept) | simp only [kept_same] | dsimp only
@[simp] theorem State.measured_kept {s0 : State} (s : State) (n : Nat) (mp ms : Nat × Nat × List Byte) (ids : List (Half × DWord)) (hc : Kept s0 s) :
    Kept s0 (State.measured s n mp ms ids) := by
  unfold State.measured
  extract_lets z0 z1 z2 z3 z4 z5 z6 z7 z8 z9 z10 z11 z12 z13 z14 z15 z16 z17
  try clear_value z0
  try clear_value z1
  try clear_value z2
  try clear_value z3
  have h4 : Kept s0 z4 := by repeat' first | (with_reducible first | assumption | apply State.wr_kept) | dsimp only
  try clear_value z4
  try clear_value z5
  try clear_value z6
  try clear_value z7
  try clear_value z8
  try clear_value z9
  try clear_value z10
  try clear_value z11
  try clear_value z12
  have h13 : Kept s0 z13 := by repeat' first | (with_reducible first | assumption | apply kept_ite | apply State.dmaWrite_kept) | dsimp only
  try clear_value z13
  try clear_value z14
  try clear_value z15
  have h16 : Kept s0 z16 := by repeat' first | (with_reducible first | assumption | apply kept_ite | (apply kept_foldl; intro _ _ _) | apply State.dmaWrite_kept | apply State.perEvent_kept | apply State.perSend_kept | apply State.setRing_kept | apply State.wr_kept | apply kept_ite2 | apply kept_ite3 | apply kept_ite4) | simp only [kept_same] | intro _ | dsimp only
  try clear_value z16
  have h17 : Kept s0 z17 := by repeat' first | (with_reducible first | assumption | apply kept_ite | (apply kept_foldl; intro _ _ _) | apply State.dmaWrite_kept | apply State.perEvent_kept | apply State.perSend_kept | apply State.setRing_kept | apply State.wr_kept | apply kept_ite2 | apply kept_ite3 | apply kept_ite4) | simp only [kept_same] | intro _ | dsimp only
  try clear_value z17
  repeat' first | (with_reducible first | assumption | apply kept_ite | apply State.perEvent_kept) | dsimp only
@[simp] theorem State.mgmtSend_kept {s0 : State} (s : State) (n : Nat) (hc : Kept s0 s) :
    Kept s0 (State.mgmtSend s n) := by
  unfold State.mgmtSend
  extract_lets z0
  try clear_value z0
  repeat' first | (with_reducible first | assumption | apply kept_ite | apply State.mgmtLeaves_kept | apply State.perSend_kept | apply State.setRing_kept | apply State.wr_kept) | simp only [kept_same] | intro _ | dsimp only
@[simp] theorem State.mgmtAnswer_kept {s0 : State} (s : State) (n : Nat) (x : PerFrame) (p : List Byte) (status : Nat) (reply : List Byte) (hc : Kept s0 s) :
    Kept s0 (State.mgmtAnswer s n x p status reply) := by
  unfold State.mgmtAnswer
  extract_lets z0
  try clear_value z0
  repeat' first | (with_reducible first | assumption | apply kept_ite | apply State.perRelay_kept | apply State.setRing_kept) | simp only [kept_same] | dsimp only
@[simp] theorem State.setStaged_kept {s0 : State} (s : State) (n t : Nat) (l : List (Nat × List Byte)) (hc : Kept s0 s) :
    Kept s0 (State.setStaged s n t l) := by
  unfold State.setStaged
  repeat' first | (with_reducible first | assumption | apply State.setRing_kept) | simp only [kept_same] | intro _ | dsimp only
@[simp] theorem State.mgmtCommit_kept {s0 : State} (s : State) (n t count : Nat) (hc : Kept s0 s) :
    Kept s0 (State.mgmtCommit s n t count).2 := by
  unfold State.mgmtCommit
  extract_lets z0 z1
  try clear_value z0
  try clear_value z1
  repeat' first | (with_reducible first | assumption | apply kept_ite | apply State.guardInstall_kept | apply State.slotInstall_kept | apply kept_ite2 | apply kept_ite3 | apply kept_ite4) | intro _ | dsimp only
@[simp] theorem State.scanSettled_kept {s0 : State} (s : State) (hc : Kept s0 s) :
    Kept s0 (State.scanSettled s) := by
  unfold State.scanSettled
  repeat' first | (with_reducible first | assumption | apply kept_ite | apply State.event_kept) | simp only [kept_same] | dsimp only
@[simp] theorem State.commitRecord_kept {s0 : State} (s : State) (hc : Kept s0 s) :
    Kept s0 (State.commitRecord s) := by
  unfold State.commitRecord
  repeat' first | (with_reducible first | assumption | apply State.event_kept | apply State.scanSettled_kept | apply State.setBytes_kept | apply State.wr_kept) | simp only [kept_same] | dsimp only | split
@[simp] theorem State.finishScan_kept {s0 : State} (s : State) (hc : Kept s0 s) :
    Kept s0 (State.finishScan s) := by
  unfold State.finishScan
  extract_lets z0 z1 z2 z3 z4 z5
  try clear_value z0
  try clear_value z1
  try clear_value z2
  try clear_value z3
  have h4 : Kept s0 z4 := by simp only [z4]; repeat' first | (with_reducible first | assumption | (apply kept_foldl; intro _ _ _) | apply State.admitRec_kept | apply State.scanSettled_kept | apply State.showAllowances_kept | apply State.wr_kept) | simp only [kept_same] | intro _ | dsimp only
  try clear_value z4
  have h5 : Kept s0 z5 := by repeat' first | (with_reducible first | assumption | apply State.showAllowances_kept | apply State.wr_kept) | dsimp only
  try clear_value z5
  repeat' first | (with_reducible first | assumption | (apply kept_foldl; intro _ _ _) | apply State.admitRec_kept | apply State.scanSettled_kept | apply State.showAllowances_kept | apply State.wr_kept) | simp only [kept_same] | intro _ | dsimp only
@[simp] theorem State.clearLog_kept {s0 : State} (s : State) (master : Nat) (hc : Kept s0 s) :
    Kept s0 (State.clearLog s master) := by
  unfold State.clearLog
  extract_lets z0 z1 z2 z3 z4 z5 z6 z7 z8 z9 z10
  try clear_value z0
  try clear_value z1
  try clear_value z2
  try clear_value z3
  try clear_value z4
  try clear_value z5
  have h6 : Kept s0 z6 := by repeat' first | (with_reducible first | assumption | apply State.setBytes_kept) | dsimp only
  try clear_value z6
  try clear_value z7
  have h8 : Kept s0 z8 := by repeat' first | (with_reducible first | assumption | apply State.setBytes_kept) | dsimp only
  try clear_value z8
  try clear_value z9
  have h10 : Kept s0 z10 := by simp only [z10]; repeat' first | (with_reducible first | assumption | apply kept_ite | apply State.event_kept | apply State.setBytes_kept | apply State.showAllowances_kept | apply State.wr_kept | apply kept_ite2 | apply kept_ite3 | apply kept_ite4) | simp only [kept_same] | dsimp only
  try clear_value z10
  repeat' first | (with_reducible first | assumption | apply State.event_kept | apply State.showAllowances_kept | apply State.wr_kept) | dsimp only
@[simp] theorem State.logCounter_kept {s0 : State} (s : State) (a v : Nat) (hc : Kept s0 s) :
    Kept s0 (State.logCounter s a v) := by
  unfold State.logCounter
  repeat' first | (with_reducible first | assumption | apply State.setBytes_kept) | dsimp only
@[simp] theorem State.instRead_kept {s0 : State} (s : State) (o : InstObj) (hc : Kept s0 s) :
    Kept s0 (State.instRead s o).2 := by
  unfold State.instRead
  repeat' first | (with_reducible first | assumption | apply kept_ite | apply State.fetchBytes_kept | apply kept_ite2 | apply kept_ite3 | apply kept_ite4) | dsimp only
@[simp] theorem State.instWrite_kept {s0 : State} (s : State) (o : InstObj) (v : Nat) (hc : Kept s0 s) :
    Kept s0 (State.instWrite s o v) := by
  unfold State.instWrite
  repeat' first | (with_reducible first | assumption | apply State.memWrite_kept) | dsimp only
@[simp] theorem State.startCopy_kept {s0 : State} (s : State) (saves restores : List Nat) (hc : Kept s0 s) :
    Kept s0 (State.startCopy s saves restores) := by
  unfold State.startCopy
  extract_lets z0 z1 z2 z3
  try clear_value z0
  try clear_value z1
  try clear_value z2
  try clear_value z3
  repeat' first | (with_reducible first | assumption | apply State.wr_kept) | simp only [kept_same] | dsimp only
@[simp] theorem State.paramOp_kept {s0 : State} (s : State) (restore : Bool) (g : Nat) (hc : Kept s0 s) :
    Kept s0 (State.paramOp s restore g) := by
  unfold State.paramOp
  repeat' first | (with_reducible first | assumption | apply kept_ite | apply State.startCopy_kept | apply State.wr_kept) | simp only [kept_same] | dsimp only
@[simp] theorem State.startHeld_kept {s0 : State} (s : State) (hc : Kept s0 s) :
    Kept s0 (State.startHeld s) := by
  unfold State.startHeld
  repeat' first | (with_reducible first | assumption | apply kept_ite | apply State.startCopy_kept) | dsimp only
@[simp] theorem State.copyWritten_kept {s0 : State} (s : State) (ok : Bool) (hc : Kept s0 s) :
    Kept s0 (State.copyWritten s ok) := by
  unfold State.copyWritten
  repeat' first | (with_reducible first | assumption | apply kept_ite | apply State.event_kept | apply State.startHeld_kept | apply State.wr_kept) | simp only [kept_same] | dsimp only | split
@[simp] theorem State.startCommit_kept {s0 : State} (s : State) (hc : Kept s0 s) :
    Kept s0 (State.startCommit s) := by
  unfold State.startCommit
  extract_lets z0 z1 z2 z3
  try clear_value z0
  try clear_value z1
  try clear_value z2
  try clear_value z3
  repeat' first | (with_reducible first | assumption | apply State.wr_kept) | simp only [kept_same] | dsimp only
@[simp] theorem State.doCommit_kept {s0 : State} (s : State) (hc : Kept s0 s) :
    Kept s0 (State.doCommit s) := by
  unfold State.doCommit
  repeat' first | (with_reducible first | assumption | apply kept_ite | apply State.startCommit_kept | apply State.wr_kept) | simp only [kept_same] | dsimp only
@[simp] theorem State.optionLoad_kept {s0 : State} (s : State) (hc : Kept s0 s) :
    Kept s0 (State.optionLoad s) := by
  unfold State.optionLoad
  extract_lets z0 z1 z2 z3
  try clear_value z0
  try clear_value z1
  try clear_value z2
  have h3 : Kept s0 z3 := by simp only [z3]; repeat' first | (with_reducible first | assumption | apply kept_ite | apply State.event_kept | apply State.record_kept | apply State.wr_kept | apply State.wrD_kept) | simp only [kept_same] | dsimp only | split
  try clear_value z3
  repeat' first | (with_reducible first | assumption | apply kept_ite | apply State.event_kept | apply State.record_kept | apply State.wr_kept | apply State.wrD_kept) | simp only [kept_same] | dsimp only | split
@[simp] theorem State.writeStart_kept {s0 : State} (s : State) (tries starts : Nat) (hc : Kept s0 s) :
    Kept s0 (State.writeStart s tries starts) := by
  unfold State.writeStart
  repeat' first | (with_reducible first | assumption | apply kept_ite | apply State.setBytes_kept | apply State.wr_kept | apply kept_ite2 | apply kept_ite3 | apply kept_ite4) | simp only [kept_same] | dsimp only
@[simp] theorem State.writeWaiting_kept {s0 : State} (s : State) (hc : Kept s0 s) :
    Kept s0 (State.writeWaiting s) := by
  unfold State.writeWaiting
  repeat' first | (with_reducible first | assumption | apply kept_ite | apply State.writeStart_kept) | simp only [kept_same] | dsimp only | split
@[simp] theorem State.clearTries_kept {s0 : State} (s : State) (v : Nat) (hc : Kept s0 s) :
    Kept s0 (State.clearTries s v) := by
  unfold State.clearTries
  repeat' first | (with_reducible first | assumption | apply kept_ite | apply State.writeStart_kept) | dsimp only
@[simp] theorem State.setLat_kept {s0 : State} (s : State) (f : Lattice → Lattice) (hc : Kept s0 s) :
    Kept s0 (State.setLat s f) := by
  unfold State.setLat
  repeat' first | (with_reducible first | assumption) | simp only [kept_same] | dsimp only
@[simp] theorem State.latOut_kept {s0 : State} (s : State) (p da cls : Nat) (f : List Byte) (hc : Kept s0 s) :
    Kept s0 (State.latOut s p da cls f) := by
  unfold State.latOut
  repeat' first | (with_reducible first | assumption | apply State.ringAdmit_kept) | dsimp only
@[simp] theorem State.latSeq_kept {s0 : State} (s : State) (cls : Nat) (hc : Kept s0 s) :
    Kept s0 (State.latSeq s cls).2 := by
  unfold State.latSeq
  extract_lets z0
  try clear_value z0
  repeat' first | (with_reducible first | assumption | apply State.setLat_kept) | simp only [kept_same] | intro _ | dsimp only
@[simp] theorem State.latToNb_kept {s0 : State} (s : State) (n cls : Nat) (f : List Byte) (hc : Kept s0 s) :
    Kept s0 (State.latToNb s n cls f) := by
  unfold State.latToNb
  repeat' first | (with_reducible first | assumption | apply State.latOut_kept) | intro _ | dsimp only
@[simp] theorem State.latTo_kept {s0 : State} (s : State) (a cls : Nat) (f : List Byte) (hc : Kept s0 s) :
    Kept s0 (State.latTo s a cls f) := by
  unfold State.latTo
  extract_lets z0
  try clear_value z0
  repeat' first | (with_reducible first | assumption | apply kept_ite | apply State.latCnt_kept | apply State.latToNb_kept) | simp only [kept_same] | intro _ | dsimp only | split
@[simp] theorem State.latSend_kept {s0 : State} (s : State) (a typ : Nat) (payload : List Byte) (hc : Kept s0 s) :
    Kept s0 (State.latSend s a typ payload) := by
  unfold State.latSend
  extract_lets z0
  have h0 : Kept s0 z0.2 := by repeat' first | (with_reducible first | assumption | apply State.latSeq_kept) | dsimp only
  try clear_value z0
  repeat' first | (with_reducible first | assumption | apply State.latTo_kept) | dsimp only
@[simp] theorem State.latLocal_kept {s0 : State} (s : State) (port mac typ : Nat) (resp : Bool) (payload : List Byte) (hc : Kept s0 s) :
    Kept s0 (State.latLocal s port mac typ resp payload) := by
  unfold State.latLocal
  extract_lets z0
  have h0 : Kept s0 z0.2 := by repeat' first | (with_reducible first | assumption | apply State.latSeq_kept) | dsimp only
  try clear_value z0
  repeat' first | (with_reducible first | assumption | apply State.latOut_kept) | dsimp only
@[simp] theorem State.hello_kept {s0 : State} (s : State) (p : Nat) (hc : Kept s0 s) :
    Kept s0 (State.hello s p) := by
  unfold State.hello
  extract_lets z0 z1 z2 z3 z4
  try clear_value z0
  try clear_value z1
  try clear_value z2
  have h3 : Kept s0 z3.2 := by repeat' first | (with_reducible first | assumption | apply State.latSeq_kept) | dsimp only
  try clear_value z3
  try clear_value z4
  repeat' first | (with_reducible first | assumption | apply State.latOut_kept | apply State.setLat_kept) | simp only [kept_same] | intro _ | dsimp only
@[simp] theorem State.latRefresh_kept {s0 : State} (s : State) (hc : Kept s0 s) :
    Kept s0 (State.latRefresh s) := by
  unfold State.latRefresh
  repeat' first | (with_reducible first | assumption | apply kept_ite | (apply kept_foldl; intro _ _ _) | apply State.hello_kept) | intro _ | dsimp only
@[simp] theorem State.latEnter_kept {s0 : State} (s : State) (st : Nat) (hc : Kept s0 s) :
    Kept s0 (State.latEnter s st) := by
  unfold State.latEnter
  repeat' first | (with_reducible first | assumption | apply kept_ite | apply State.latEvent_kept | apply State.wr_kept) | dsimp only
@[simp] theorem State.enterAddr_kept {s0 : State} (s : State) (a id : Nat) (hc : Kept s0 s) :
    Kept s0 (State.enterAddr s a id) := by
  unfold State.enterAddr
  extract_lets z0
  have h0 : Kept s0 z0 := by repeat' first | (with_reducible first | assumption | apply State.setLat_kept) | simp only [kept_same] | intro _ | dsimp only
  try clear_value z0
  repeat' first | (with_reducible first | assumption | apply State.wr_kept) | dsimp only
@[simp] theorem State.persist_kept {s0 : State} (s : State) (i j v : Nat) (hc : Kept s0 s) :
    Kept s0 (State.persist s i j v) := by
  unfold State.persist
  extract_lets z0
  try clear_value z0
  repeat' first | (with_reducible first | assumption) | simp only [kept_same] | dsimp only
@[simp] theorem State.takeAddr_kept {s0 : State} (s : State) (a : Nat) (hc : Kept s0 s) :
    Kept s0 (State.takeAddr s a) := by
  unfold State.takeAddr
  extract_lets z0
  try clear_value z0
  repeat' first | (with_reducible first | assumption | apply kept_ite | apply State.latEvent_kept | apply State.persist_kept | apply State.record_kept | apply State.wr_kept) | dsimp only
@[simp] theorem State.keeperAddr_kept {s0 : State} (s : State) (hc : Kept s0 s) :
    Kept s0 (State.keeperAddr s) := by
  unfold State.keeperAddr
  extract_lets z0 z1
  try clear_value z0
  have h1 : Kept s0 z1 := by repeat' first | (with_reducible first | assumption | apply State.enterAddr_kept | apply State.takeAddr_kept) | dsimp only
  try clear_value z1
  repeat' first | (with_reducible first | assumption | apply State.wr_kept) | dsimp only
@[simp] theorem State.nameKeeper_kept {s0 : State} (s : State) (k : Nat × Nat × Nat) (hc : Kept s0 s) :
    Kept s0 (State.nameKeeper s k) := by
  unfold State.nameKeeper
  extract_lets z0 z1 z2
  try clear_value z0
  have h1 : Kept s0 z1 := by repeat' first | (with_reducible first | assumption | apply State.wr_kept) | dsimp only
  try clear_value z1
  have h2 : Kept s0 z2 := by repeat' first | (with_reducible first | assumption | apply kept_ite | apply State.cnt_kept | apply State.latEvent_kept | apply State.record_kept | apply kept_ite2 | apply kept_ite3 | apply kept_ite4) | dsimp only
  try clear_value z2
  repeat' first | (with_reducible first | assumption | apply kept_ite | apply State.keeperAddr_kept | apply State.latEnter_kept | apply State.setLat_kept | apply State.wr_kept | apply kept_ite2 | apply kept_ite3 | apply kept_ite4) | simp only [kept_same] | intro _ | dsimp only | split
@[simp] theorem State.elect_kept {s0 : State} (s : State) (hc : Kept s0 s) :
    Kept s0 (State.elect s) := by
  unfold State.elect
  repeat' first | (with_reducible first | assumption | apply kept_ite | apply State.nameKeeper_kept | apply State.wr_kept | apply kept_ite2 | apply kept_ite3 | apply kept_ite4) | dsimp only
@[simp] theorem State.latEnable_kept {s0 : State} (s : State) (v : Nat) (hc : Kept s0 s) :
    Kept s0 (State.latEnable s v) := by
  unfold State.latEnable
  repeat' first | (with_reducible first | assumption | apply kept_ite | (apply kept_foldl; intro _ _ _) | apply State.latEnter_kept | apply State.latRefresh_kept | apply State.neighbourLost_kept | apply State.setLat_kept | apply State.wr_kept) | intro _ | dsimp only
@[simp] theorem State.latFlood_kept {s0 : State} (s : State) (x : LatFrame) (f : List Byte) (hc : Kept s0 s) :
    Kept s0 (State.latFlood s x f) := by
  unfold State.latFlood
  repeat' first | (with_reducible first | assumption | apply kept_ite | (apply kept_foldl; intro _ _ _) | apply State.latToNb_kept) | intro _ | dsimp only
theorem State.latGot_kept {s0 : State} (s : State) (typ : Nat) (resp : Bool) {t1} (h : State.latGot s typ resp = some t1) (hc : Kept s0 s) :
    Kept s0 t1.2 := by
  simp only [State.latGot] at h
  repeat' split at h
  all_goals first | (simp only [Option.some.injEq, reduceCtorEq] at h; done) | (simp only [Option.some.injEq] at h; subst h)
  all_goals first | (simp (maxDischargeDepth := 60) [*]; done) | (simp_all (maxDischargeDepth := 60); done)
@[simp] theorem State.latClaim_kept {s0 : State} (s : State) (id prio addr seq : Nat) (hc : Kept s0 s) :
    Kept s0 (State.latClaim s id prio addr seq) := by
  unfold State.latClaim
  repeat' first | (with_reducible first | assumption | apply kept_ite | apply State.setLat_kept) | simp only [kept_same] | intro _ | dsimp only | split
@[simp] theorem State.helloTaken_kept {s0 : State} (s : State) (x : LatFrame) (hc : Kept s0 s) : Kept s0 (State.helloTaken s x) := by
  unfold State.helloTaken; extract_lets z0 z1 z2 z3 z4 z5 z6 z7; (try (first | (have : Kept s0 z0 := by (first | ((repeat' (first | with_reducible assumption | with_reducible apply kept_ite | with_reducible apply kept_ite2 | with_reducible apply kept_ite3 | with_reducible apply kept_ite4 | with_reducible apply State.cnt_kept | with_reducible apply State.elect_kept | with_reducible apply State.latClaim_kept | with_reducible apply State.latEvent_kept | with_reducible apply State.latRefresh_kept | with_reducible apply State.setLat_kept | with_reducible apply State.wr_kept | simp only [kept_same] | intro _ | dsimp only | split)); done) | ((try dsimp only); (repeat' (first | with_reducible assumption | with_reducible apply kept_ite | with_reducible apply kept_ite2 | with_reducible apply kept_ite3 | with_reducible apply kept_ite4 | with_reducible apply State.cnt_kept | with_reducible apply State.elect_kept | with_reducible apply State.latClaim_kept | with_reducible apply State.latEvent_kept | with_reducible apply State.latRefresh_kept | with_reducible apply State.setLat_kept | with_reducible apply State.wr_kept | simp only [kept_same] | intro _ | dsimp only | split)); done) | (simp only [z0]; (repeat' (first | with_reducible assumption | with_reducible apply kept_ite | with_reducible apply kept_ite2 | with_reducible apply kept_ite3 | with_reducible apply kept_ite4 | with_reducible apply State.cnt_kept | with_reducible apply State.elect_kept | with_reducible apply State.latClaim_kept | with_reducible apply State.latEvent_kept | with_reducible apply State.latRefresh_kept | with_reducible apply State.setLat_kept | with_reducible apply State.wr_kept | simp only [kept_same] | intro _ | dsimp only | split)); done))) | (have : Kept s0 z0.2 := by ((try dsimp only); (repeat' (first | with_reducible assumption | with_reducible apply kept_ite | with_reducible apply kept_ite2 | with_reducible apply kept_ite3 | with_reducible apply kept_ite4 | with_reducible apply State.cnt_kept | with_reducible apply State.elect_kept | with_reducible apply State.latClaim_kept | with_reducible apply State.latEvent_kept | with_reducible apply State.latRefresh_kept | with_reducible apply State.setLat_kept | with_reducible apply State.wr_kept | simp only [kept_same] | intro _ | dsimp only | split)); done)) | (have : Kept s0 z0.2.2 := by ((try dsimp only); (repeat' (first | with_reducible assumption | with_reducible apply kept_ite | with_reducible apply kept_ite2 | with_reducible apply kept_ite3 | with_reducible apply kept_ite4 | with_reducible apply State.cnt_kept | with_reducible apply State.elect_kept | with_reducible apply State.latClaim_kept | with_reducible apply State.latEvent_kept | with_reducible apply State.latRefresh_kept | with_reducible apply State.setLat_kept | with_reducible apply State.wr_kept | simp only [kept_same] | intro _ | dsimp only | split)); done)))); (try clear_value z0); (try (first | (have : Kept s0 z1 := by (first | ((repeat' (first | with_reducible assumption | with_reducible apply kept_ite | with_reducible apply kept_ite2 | with_reducible apply kept_ite3 | with_reducible apply kept_ite4 | with_reducible apply State.cnt_kept | with_reducible apply State.elect_kept | with_reducible apply State.latClaim_kept | with_reducible apply State.latEvent_kept | with_reducible apply State.latRefresh_kept | with_reducible apply State.setLat_kept | with_reducible apply State.wr_kept | simp only [kept_same] | intro _ | dsimp only | split)); done) | ((try dsimp only); (repeat' (first | with_reducible assumption | with_reducible apply kept_ite | with_reducible apply kept_ite2 | with_reducible apply kept_ite3 | with_reducible apply kept_ite4 | with_reducible apply State.cnt_kept | with_reducible apply State.elect_kept | with_reducible apply State.latClaim_kept | with_reducible apply State.latEvent_kept | with_reducible apply State.latRefresh_kept | with_reducible apply State.setLat_kept | with_reducible apply State.wr_kept | simp only [kept_same] | intro _ | dsimp only | split)); done) | (simp only [z1]; (repeat' (first | with_reducible assumption | with_reducible apply kept_ite | with_reducible apply kept_ite2 | with_reducible apply kept_ite3 | with_reducible apply kept_ite4 | with_reducible apply State.cnt_kept | with_reducible apply State.elect_kept | with_reducible apply State.latClaim_kept | with_reducible apply State.latEvent_kept | with_reducible apply State.latRefresh_kept | with_reducible apply State.setLat_kept | with_reducible apply State.wr_kept | simp only [kept_same] | intro _ | dsimp only | split)); done))) | (have : Kept s0 z1.2 := by ((try dsimp only); (repeat' (first | with_reducible assumption | with_reducible apply kept_ite | with_reducible apply kept_ite2 | with_reducible apply kept_ite3 | with_reducible apply kept_ite4 | with_reducible apply State.cnt_kept | with_reducible apply State.elect_kept | with_reducible apply State.latClaim_kept | with_reducible apply State.latEvent_kept | with_reducible apply State.latRefresh_kept | with_reducible apply State.setLat_kept | with_reducible apply State.wr_kept | simp only [kept_same] | intro _ | dsimp only | split)); done)) | (have : Kept s0 z1.2.2 := by ((try dsimp only); (repeat' (first | with_reducible assumption | with_reducible apply kept_ite | with_reducible apply kept_ite2 | with_reducible apply kept_ite3 | with_reducible apply kept_ite4 | with_reducible apply State.cnt_kept | with_reducible apply State.elect_kept | with_reducible apply State.latClaim_kept | with_reducible apply State.latEvent_kept | with_reducible apply State.latRefresh_kept | with_reducible apply State.setLat_kept | with_reducible apply State.wr_kept | simp only [kept_same] | intro _ | dsimp only | split)); done)))); (try clear_value z1); (try (first | (have : Kept s0 z2 := by (first | ((repeat' (first | with_reducible assumption | with_reducible apply kept_ite | with_reducible apply kept_ite2 | with_reducible apply kept_ite3 | with_reducible apply kept_ite4 | with_reducible apply State.cnt_kept | with_reducible apply State.elect_kept | with_reducible apply State.latClaim_kept | with_reducible apply State.latEvent_kept | with_reducible apply State.latRefresh_kept | with_reducible apply State.setLat_kept | with_reducible apply State.wr_kept | simp only [kept_same] | intro _ | dsimp only | split)); done) | ((try dsimp only); (repeat' (first | with_reducible assumption | with_reducible apply kept_ite | with_reducible apply kept_ite2 | with_reducible apply kept_ite3 | with_reducible apply kept_ite4 | with_reducible apply State.cnt_kept | with_reducible apply State.elect_kept | with_reducible apply State.latClaim_kept | with_reducible apply State.latEvent_kept | with_reducible apply State.latRefresh_kept | with_reducible apply State.setLat_kept | with_reducible apply State.wr_kept | simp only [kept_same] | intro _ | dsimp only | split)); done) | (simp only [z2]; (repeat' (first | with_reducible assumption | with_reducible apply kept_ite | with_reducible apply kept_ite2 | with_reducible apply kept_ite3 | with_reducible apply kept_ite4 | with_reducible apply State.cnt_kept | with_reducible apply State.elect_kept | with_reducible apply State.latClaim_kept | with_reducible apply State.latEvent_kept | with_reducible apply State.latRefresh_kept | with_reducible apply State.setLat_kept | with_reducible apply State.wr_kept | simp only [kept_same] | intro _ | dsimp only | split)); done))) | (have : Kept s0 z2.2 := by ((try dsimp only); (repeat' (first | with_reducible assumption | with_reducible apply kept_ite | with_reducible apply kept_ite2 | with_reducible apply kept_ite3 | with_reducible apply kept_ite4 | with_reducible apply State.cnt_kept | with_reducible apply State.elect_kept | with_reducible apply State.latClaim_kept | with_reducible apply State.latEvent_kept | with_reducible apply State.latRefresh_kept | with_reducible apply State.setLat_kept | with_reducible apply State.wr_kept | simp only [kept_same] | intro _ | dsimp only | split)); done)) | (have : Kept s0 z2.2.2 := by ((try dsimp only); (repeat' (first | with_reducible assumption | with_reducible apply kept_ite | with_reducible apply kept_ite2 | with_reducible apply kept_ite3 | with_reducible apply kept_ite4 | with_reducible apply State.cnt_kept | with_reducible apply State.elect_kept | with_reducible apply State.latClaim_kept | with_reducible apply State.latEvent_kept | with_reducible apply State.latRefresh_kept | with_reducible apply State.setLat_kept | with_reducible apply State.wr_kept | simp only [kept_same] | intro _ | dsimp only | split)); done)))); (try clear_value z2); (try (first | (have : Kept s0 z3 := by (first | ((repeat' (first | with_reducible assumption | with_reducible apply kept_ite | with_reducible apply kept_ite2 | with_reducible apply kept_ite3 | with_reducible apply kept_ite4 | with_reducible apply State.cnt_kept | with_reducible apply State.elect_kept | with_reducible apply State.latClaim_kept | with_reducible apply State.latEvent_kept | with_reducible apply State.latRefresh_kept | with_reducible apply State.setLat_kept | with_reducible apply State.wr_kept | simp only [kept_same] | intro _ | dsimp only | split)); done) | ((try dsimp only); (repeat' (first | with_reducible assumption | with_reducible apply kept_ite | with_reducible apply kept_ite2 | with_reducible apply kept_ite3 | with_reducible apply kept_ite4 | with_reducible apply State.cnt_kept | with_reducible apply State.elect_kept | with_reducible apply State.latClaim_kept | with_reducible apply State.latEvent_kept | with_reducible apply State.latRefresh_kept | with_reducible apply State.setLat_kept | with_reducible apply State.wr_kept | simp only [kept_same] | intro _ | dsimp only | split)); done) | (simp only [z3]; (repeat' (first | with_reducible assumption | with_reducible apply kept_ite | with_reducible apply kept_ite2 | with_reducible apply kept_ite3 | with_reducible apply kept_ite4 | with_reducible apply State.cnt_kept | with_reducible apply State.elect_kept | with_reducible apply State.latClaim_kept | with_reducible apply State.latEvent_kept | with_reducible apply State.latRefresh_kept | with_reducible apply State.setLat_kept | with_reducible apply State.wr_kept | simp only [kept_same] | intro _ | dsimp only | split)); done))) | (have : Kept s0 z3.2 := by ((try dsimp only); (repeat' (first | with_reducible assumption | with_reducible apply kept_ite | with_reducible apply kept_ite2 | with_reducible apply kept_ite3 | with_reducible apply kept_ite4 | with_reducible apply State.cnt_kept | with_reducible apply State.elect_kept | with_reducible apply State.latClaim_kept | with_reducible apply State.latEvent_kept | with_reducible apply State.latRefresh_kept | with_reducible apply State.setLat_kept | with_reducible apply State.wr_kept | simp only [kept_same] | intro _ | dsimp only | split)); done)) | (have : Kept s0 z3.2.2 := by ((try dsimp only); (repeat' (first | with_reducible assumption | with_reducible apply kept_ite | with_reducible apply kept_ite2 | with_reducible apply kept_ite3 | with_reducible apply kept_ite4 | with_reducible apply State.cnt_kept | with_reducible apply State.elect_kept | with_reducible apply State.latClaim_kept | with_reducible apply State.latEvent_kept | with_reducible apply State.latRefresh_kept | with_reducible apply State.setLat_kept | with_reducible apply State.wr_kept | simp only [kept_same] | intro _ | dsimp only | split)); done)))); (try clear_value z3); (try (first | (have : Kept s0 z4 := by (first | ((repeat' (first | with_reducible assumption | with_reducible apply kept_ite | with_reducible apply kept_ite2 | with_reducible apply kept_ite3 | with_reducible apply kept_ite4 | with_reducible apply State.cnt_kept | with_reducible apply State.elect_kept | with_reducible apply State.latClaim_kept | with_reducible apply State.latEvent_kept | with_reducible apply State.latRefresh_kept | with_reducible apply State.setLat_kept | with_reducible apply State.wr_kept | simp only [kept_same] | intro _ | dsimp only | split)); done) | ((try dsimp only); (repeat' (first | with_reducible assumption | with_reducible apply kept_ite | with_reducible apply kept_ite2 | with_reducible apply kept_ite3 | with_reducible apply kept_ite4 | with_reducible apply State.cnt_kept | with_reducible apply State.elect_kept | with_reducible apply State.latClaim_kept | with_reducible apply State.latEvent_kept | with_reducible apply State.latRefresh_kept | with_reducible apply State.setLat_kept | with_reducible apply State.wr_kept | simp only [kept_same] | intro _ | dsimp only | split)); done) | (simp only [z4]; (repeat' (first | with_reducible assumption | with_reducible apply kept_ite | with_reducible apply kept_ite2 | with_reducible apply kept_ite3 | with_reducible apply kept_ite4 | with_reducible apply State.cnt_kept | with_reducible apply State.elect_kept | with_reducible apply State.latClaim_kept | with_reducible apply State.latEvent_kept | with_reducible apply State.latRefresh_kept | with_reducible apply State.setLat_kept | with_reducible apply State.wr_kept | simp only [kept_same] | intro _ | dsimp only | split)); done))) | (have : Kept s0 z4.2 := by ((try dsimp only); (repeat' (first | with_reducible assumption | with_reducible apply kept_ite | with_reducible apply kept_ite2 | with_reducible apply kept_ite3 | with_reducible apply kept_ite4 | with_reducible apply State.cnt_kept | with_reducible apply State.elect_kept | with_reducible apply State.latClaim_kept | with_reducible apply State.latEvent_kept | with_reducible apply State.latRefresh_kept | with_reducible apply State.setLat_kept | with_reducible apply State.wr_kept | simp only [kept_same] | intro _ | dsimp only | split)); done)) | (have : Kept s0 z4.2.2 := by ((try dsimp only); (repeat' (first | with_reducible assumption | with_reducible apply kept_ite | with_reducible apply kept_ite2 | with_reducible apply kept_ite3 | with_reducible apply kept_ite4 | with_reducible apply State.cnt_kept | with_reducible apply State.elect_kept | with_reducible apply State.latClaim_kept | with_reducible apply State.latEvent_kept | with_reducible apply State.latRefresh_kept | with_reducible apply State.setLat_kept | with_reducible apply State.wr_kept | simp only [kept_same] | intro _ | dsimp only | split)); done)))); (try clear_value z4); (try (first | (have : Kept s0 z5 := by (first | ((repeat' (first | with_reducible assumption | with_reducible apply kept_ite | with_reducible apply kept_ite2 | with_reducible apply kept_ite3 | with_reducible apply kept_ite4 | with_reducible apply State.cnt_kept | with_reducible apply State.elect_kept | with_reducible apply State.latClaim_kept | with_reducible apply State.latEvent_kept | with_reducible apply State.latRefresh_kept | with_reducible apply State.setLat_kept | with_reducible apply State.wr_kept | simp only [kept_same] | intro _ | dsimp only | split)); done) | ((try dsimp only); (repeat' (first | with_reducible assumption | with_reducible apply kept_ite | with_reducible apply kept_ite2 | with_reducible apply kept_ite3 | with_reducible apply kept_ite4 | with_reducible apply State.cnt_kept | with_reducible apply State.elect_kept | with_reducible apply State.latClaim_kept | with_reducible apply State.latEvent_kept | with_reducible apply State.latRefresh_kept | with_reducible apply State.setLat_kept | with_reducible apply State.wr_kept | simp only [kept_same] | intro _ | dsimp only | split)); done) | (simp only [z5]; (repeat' (first | with_reducible assumption | with_reducible apply kept_ite | with_reducible apply kept_ite2 | with_reducible apply kept_ite3 | with_reducible apply kept_ite4 | with_reducible apply State.cnt_kept | with_reducible apply State.elect_kept | with_reducible apply State.latClaim_kept | with_reducible apply State.latEvent_kept | with_reducible apply State.latRefresh_kept | with_reducible apply State.setLat_kept | with_reducible apply State.wr_kept | simp only [kept_same] | intro _ | dsimp only | split)); done))) | (have : Kept s0 z5.2 := by ((try dsimp only); (repeat' (first | with_reducible assumption | with_reducible apply kept_ite | with_reducible apply kept_ite2 | with_reducible apply kept_ite3 | with_reducible apply kept_ite4 | with_reducible apply State.cnt_kept | with_reducible apply State.elect_kept | with_reducible apply State.latClaim_kept | with_reducible apply State.latEvent_kept | with_reducible apply State.latRefresh_kept | with_reducible apply State.setLat_kept | with_reducible apply State.wr_kept | simp only [kept_same] | intro _ | dsimp only | split)); done)) | (have : Kept s0 z5.2.2 := by ((try dsimp only); (repeat' (first | with_reducible assumption | with_reducible apply kept_ite | with_reducible apply kept_ite2 | with_reducible apply kept_ite3 | with_reducible apply kept_ite4 | with_reducible apply State.cnt_kept | with_reducible apply State.elect_kept | with_reducible apply State.latClaim_kept | with_reducible apply State.latEvent_kept | with_reducible apply State.latRefresh_kept | with_reducible apply State.setLat_kept | with_reducible apply State.wr_kept | simp only [kept_same] | intro _ | dsimp only | split)); done)))); (try clear_value z5); (try (first | (have : Kept s0 z6 := by (first | ((repeat' (first | with_reducible assumption | with_reducible apply kept_ite | with_reducible apply kept_ite2 | with_reducible apply kept_ite3 | with_reducible apply kept_ite4 | with_reducible apply State.cnt_kept | with_reducible apply State.elect_kept | with_reducible apply State.latClaim_kept | with_reducible apply State.latEvent_kept | with_reducible apply State.latRefresh_kept | with_reducible apply State.setLat_kept | with_reducible apply State.wr_kept | simp only [kept_same] | intro _ | dsimp only | split)); done) | ((try dsimp only); (repeat' (first | with_reducible assumption | with_reducible apply kept_ite | with_reducible apply kept_ite2 | with_reducible apply kept_ite3 | with_reducible apply kept_ite4 | with_reducible apply State.cnt_kept | with_reducible apply State.elect_kept | with_reducible apply State.latClaim_kept | with_reducible apply State.latEvent_kept | with_reducible apply State.latRefresh_kept | with_reducible apply State.setLat_kept | with_reducible apply State.wr_kept | simp only [kept_same] | intro _ | dsimp only | split)); done) | (simp only [z6]; (repeat' (first | with_reducible assumption | with_reducible apply kept_ite | with_reducible apply kept_ite2 | with_reducible apply kept_ite3 | with_reducible apply kept_ite4 | with_reducible apply State.cnt_kept | with_reducible apply State.elect_kept | with_reducible apply State.latClaim_kept | with_reducible apply State.latEvent_kept | with_reducible apply State.latRefresh_kept | with_reducible apply State.setLat_kept | with_reducible apply State.wr_kept | simp only [kept_same] | intro _ | dsimp only | split)); done))) | (have : Kept s0 z6.2 := by ((try dsimp only); (repeat' (first | with_reducible assumption | with_reducible apply kept_ite | with_reducible apply kept_ite2 | with_reducible apply kept_ite3 | with_reducible apply kept_ite4 | with_reducible apply State.cnt_kept | with_reducible apply State.elect_kept | with_reducible apply State.latClaim_kept | with_reducible apply State.latEvent_kept | with_reducible apply State.latRefresh_kept | with_reducible apply State.setLat_kept | with_reducible apply State.wr_kept | simp only [kept_same] | intro _ | dsimp only | split)); done)) | (have : Kept s0 z6.2.2 := by ((try dsimp only); (repeat' (first | with_reducible assumption | with_reducible apply kept_ite | with_reducible apply kept_ite2 | with_reducible apply kept_ite3 | with_reducible apply kept_ite4 | with_reducible apply State.cnt_kept | with_reducible apply State.elect_kept | with_reducible apply State.latClaim_kept | with_reducible apply State.latEvent_kept | with_reducible apply State.latRefresh_kept | with_reducible apply State.setLat_kept | with_reducible apply State.wr_kept | simp only [kept_same] | intro _ | dsimp only | split)); done)))); (try clear_value z6); (try (first | (have : Kept s0 z7 := by (first | ((repeat' (first | with_reducible assumption | with_reducible apply kept_ite | with_reducible apply kept_ite2 | with_reducible apply kept_ite3 | with_reducible apply kept_ite4 | with_reducible apply State.cnt_kept | with_reducible apply State.elect_kept | with_reducible apply State.latClaim_kept | with_reducible apply State.latEvent_kept | with_reducible apply State.latRefresh_kept | with_reducible apply State.setLat_kept | with_reducible apply State.wr_kept | simp only [kept_same] | intro _ | dsimp only | split)); done) | ((try dsimp only); (repeat' (first | with_reducible assumption | with_reducible apply kept_ite | with_reducible apply kept_ite2 | with_reducible apply kept_ite3 | with_reducible apply kept_ite4 | with_reducible apply State.cnt_kept | with_reducible apply State.elect_kept | with_reducible apply State.latClaim_kept | with_reducible apply State.latEvent_kept | with_reducible apply State.latRefresh_kept | with_reducible apply State.setLat_kept | with_reducible apply State.wr_kept | simp only [kept_same] | intro _ | dsimp only | split)); done) | (simp only [z7]; (repeat' (first | with_reducible assumption | with_reducible apply kept_ite | with_reducible apply kept_ite2 | with_reducible apply kept_ite3 | with_reducible apply kept_ite4 | with_reducible apply State.cnt_kept | with_reducible apply State.elect_kept | with_reducible apply State.latClaim_kept | with_reducible apply State.latEvent_kept | with_reducible apply State.latRefresh_kept | with_reducible apply State.setLat_kept | with_reducible apply State.wr_kept | simp only [kept_same] | intro _ | dsimp only | split)); done))) | (have : Kept s0 z7.2 := by ((try dsimp only); (repeat' (first | with_reducible assumption | with_reducible apply kept_ite | with_reducible apply kept_ite2 | with_reducible apply kept_ite3 | with_reducible apply kept_ite4 | with_reducible apply State.cnt_kept | with_reducible apply State.elect_kept | with_reducible apply State.latClaim_kept | with_reducible apply State.latEvent_kept | with_reducible apply State.latRefresh_kept | with_reducible apply State.setLat_kept | with_reducible apply State.wr_kept | simp only [kept_same] | intro _ | dsimp only | split)); done)) | (have : Kept s0 z7.2.2 := by ((try dsimp only); (repeat' (first | with_reducible assumption | with_reducible apply kept_ite | with_reducible apply kept_ite2 | with_reducible apply kept_ite3 | with_reducible apply kept_ite4 | with_reducible apply State.cnt_kept | with_reducible apply State.elect_kept | with_reducible apply State.latClaim_kept | with_reducible apply State.latEvent_kept | with_reducible apply State.latRefresh_kept | with_reducible apply State.setLat_kept | with_reducible apply State.wr_kept | simp only [kept_same] | intro _ | dsimp only | split)); done)))); (try clear_value z7); (try dsimp only); (repeat' (first | with_reducible assumption | with_reducible apply kept_ite | with_reducible apply kept_ite2 | with_reducible apply kept_ite3 | with_reducible apply kept_ite4 | with_reducible apply State.cnt_kept | with_reducible apply State.elect_kept | with_reducible apply State.latClaim_kept | with_reducible apply State.latEvent_kept | with_reducible apply State.latRefresh_kept | with_reducible apply State.setLat_kept | with_reducible apply State.wr_kept | simp only [kept_same] | intro _ | dsimp only | split))
@[simp] theorem State.latForget_kept {s0 : State} (s : State) (a : Nat) (hc : Kept s0 s) :
    Kept s0 (State.latForget s a) := by
  unfold State.latForget
  extract_lets z0
  have h0 : Kept s0 z0 := by repeat' first | (with_reducible first | assumption | apply State.setLat_kept) | simp only [kept_same] | intro _ | dsimp only
  try clear_value z0
  repeat' first | (with_reducible first | assumption | apply kept_ite | apply State.wr_kept) | dsimp only
@[simp] theorem State.distribute_kept {s0 : State} (s : State) (hc : Kept s0 s) :
    Kept s0 (State.distribute s) := by
  unfold State.distribute
  repeat' first | (with_reducible first | assumption | apply kept_ite | (apply kept_foldl; intro _ _ _) | apply State.latEvent_kept | apply State.latSend_kept | apply State.setLat_kept | apply State.wr_kept | apply kept_ite2 | apply kept_ite3 | apply kept_ite4) | simp only [kept_same] | intro _ | dsimp only
@[simp] theorem State.freeBytes_kept {s0 : State} (s : State) (n : Nat) (hc : Kept s0 s) :
    Kept s0 (State.freeBytes s n).2 := by
  unfold State.freeBytes
  repeat' first | (with_reducible first | assumption | apply State.tick_kept) | dsimp only
@[simp] theorem State.latAsk_kept {s0 : State} (s : State) (a typ : Nat) (payload : List Byte) (hc : Kept s0 s) :
    Kept s0 (State.latAsk s a typ payload) := by
  unfold State.latAsk
  extract_lets z0 z1
  have h0 : Kept s0 z0.2 := by repeat' first | (with_reducible first | assumption | apply State.latSeq_kept) | dsimp only
  try clear_value z0
  try clear_value z1
  repeat' first | (with_reducible first | assumption | apply State.latTo_kept | apply State.setLat_kept) | simp only [kept_same] | intro _ | dsimp only
@[simp] theorem State.askBlock_kept {s0 : State} (s : State) (f : LatFetch) (hc : Kept s0 s) :
    Kept s0 (State.askBlock s f) := by
  unfold State.askBlock
  repeat' first | (with_reducible first | assumption | apply State.latAsk_kept | apply State.setLat_kept) | simp only [kept_same] | intro _ | dsimp only
@[simp] theorem State.fetchSet_kept {s0 : State} (s : State) (gen : Nat) (hc : Kept s0 s) :
    Kept s0 (State.fetchSet s gen) := by
  unfold State.fetchSet
  repeat' first | (with_reducible first | assumption | apply kept_ite | apply State.askBlock_kept | apply State.freeBytes_kept | apply State.latAsk_kept | apply State.setLat_kept | apply kept_ite2 | apply kept_ite3 | apply kept_ite4) | simp only [kept_same] | intro _ | dsimp only
@[simp] theorem State.quarantine_kept {s0 : State} (s : State) (cause : Nat) (hc : Kept s0 s) :
    Kept s0 (State.quarantine s cause) := by
  unfold State.quarantine
  extract_lets z0 z1 z2 z3
  try clear_value z0
  have h1 : Kept s0 z1 := by repeat' first | (with_reducible first | assumption | apply State.latEnter_kept | apply State.latEvent_kept | apply State.wr_kept) | dsimp only
  try clear_value z1
  have h2 : Kept s0 z2 := by repeat' first | (with_reducible first | assumption | apply State.record_kept) | dsimp only
  try clear_value z2
  have h3 : Kept s0 z3 := by repeat' first | (with_reducible first | assumption | apply kept_ite | apply State.enter_kept | apply State.hold_kept) | dsimp only
  try clear_value z3
  repeat' first | (with_reducible first | assumption | apply kept_ite | apply State.fetchSet_kept) | dsimp only
@[simp] theorem State.joinCompare_kept {s0 : State} (s : State) (h : Nat × Nat × Nat) (hc : Kept s0 s) :
    Kept s0 (State.joinCompare s h) := by
  unfold State.joinCompare
  extract_lets z0
  have h0 : Kept s0 z0 := by repeat' first | (with_reducible first | assumption | apply State.setLat_kept) | simp only [kept_same] | intro _ | dsimp only
  try clear_value z0
  repeat' first | (with_reducible first | assumption | apply kept_ite | apply State.confirmConfig_kept | apply State.quarantine_kept) | simp only [kept_same] | dsimp only | split
@[simp] theorem State.headTaken_kept {s0 : State} (s : State) (h : Nat × Nat × Nat) (hc : Kept s0 s) :
    Kept s0 (State.headTaken s h) := by
  unfold State.headTaken
  extract_lets z0
  have h0 : Kept s0 z0 := by repeat' first | (with_reducible first | assumption | apply State.setLat_kept) | simp only [kept_same] | intro _ | dsimp only
  try clear_value z0
  repeat' first | (with_reducible first | assumption | apply kept_ite | apply State.fetchSet_kept | apply State.joinCompare_kept | apply kept_ite2 | apply kept_ite3 | apply kept_ite4) | intro _ | dsimp only
@[simp] theorem State.routePartTaken_kept {s0 : State} (s : State) (x : LatFrame) (hc : Kept s0 s) :
    Kept s0 (State.routePartTaken s x) := by
  unfold State.routePartTaken
  extract_lets z0 z1 z2
  try clear_value z0
  try clear_value z1
  try clear_value z2
  repeat' first | (with_reducible first | assumption | apply kept_ite | (apply kept_foldl; intro _ _ _) | apply State.headTaken_kept | apply State.latEvent_kept | apply State.setLat_kept | apply State.wr_kept | apply kept_ite2 | apply kept_ite3 | apply kept_ite4) | simp only [kept_same] | intro _ | dsimp only
theorem State.effLattice_kept {s0 : State} (s : State) (i j v : Nat) {t1} (h : State.effLattice s i j v = some t1) (hc : Kept s0 s) :
    Kept s0 t1 := by
  simp only [State.effLattice] at h
  repeat' split at h
  all_goals first | (simp only [Option.some.injEq, reduceCtorEq] at h; done) | (simp only [Option.some.injEq] at h; subst h)
  all_goals first | (simp (maxDischargeDepth := 60) [*]; done) | (simp_all (maxDischargeDepth := 60); done)
@[simp] theorem State.sampleTemps_kept {s0 : State} (s : State) (ts : List Half) (hc : Kept s0 s) :
    Kept s0 (State.sampleTemps s ts) := by
  unfold State.sampleTemps
  extract_lets z0 z1 z2 z3
  have h0 : Kept s0 z0 := by repeat' first | (with_reducible first | assumption | (apply kept_foldl; intro _ _ _) | apply State.wr_kept) | intro _ | dsimp only
  try clear_value z0
  try clear_value z1
  have h2 : Kept s0 z2 := by repeat' first | (with_reducible first | assumption | apply State.wr_kept) | dsimp only
  try clear_value z2
  try clear_value z3
  repeat' first | (with_reducible first | assumption | apply kept_ite | apply State.errBit_kept | apply State.event_kept | apply State.record_kept) | simp only [kept_same] | intro _ | dsimp only | split
@[simp] theorem State.supplyOut_kept {s0 : State} (s : State) (m mv : Nat) (hc : Kept s0 s) :
    Kept s0 (State.supplyOut s m mv) := by
  unfold State.supplyOut
  extract_lets z0
  have h0 : Kept s0 z0 := by repeat' first | (with_reducible first | assumption | apply State.setBit_kept | apply State.wr_kept) | dsimp only
  try clear_value z0
  repeat' first | (with_reducible first | assumption | apply State.errBit_kept | apply State.event_kept | apply State.hold_kept | apply State.record_kept) | dsimp only
@[simp] theorem State.supplyBack_kept {s0 : State} (s : State) (m mv : Nat) (hc : Kept s0 s) :
    Kept s0 (State.supplyBack s m mv) := by
  unfold State.supplyBack
  extract_lets z0
  have h0 : Kept s0 z0 := by repeat' first | (with_reducible first | assumption | apply State.clrBits_kept | apply State.wr_kept) | dsimp only
  try clear_value z0
  repeat' first | (with_reducible first | assumption | apply kept_ite | apply State.errBit_kept | apply State.unhold_kept | apply State.writeWaiting_kept) | dsimp only
@[simp] theorem State.paceOne_kept {s0 : State} (s : State) (i factory : Nat) (hc : Kept s0 s) :
    Kept s0 (State.paceOne s i factory) := by
  unfold State.paceOne
  extract_lets z0
  try clear_value z0
  repeat' first | (with_reducible first | assumption | apply kept_ite | apply State.event_kept | apply State.record_kept | apply State.tick_kept | apply State.wr_kept) | dsimp only
@[simp] theorem State.doArm_kept {s0 : State} (s : State) (master : Nat) (hc : Kept s0 s) :
    Kept s0 (State.doArm s master) := by
  unfold State.doArm
  repeat' first | (with_reducible first | assumption | apply kept_ite | (apply kept_foldl; intro _ _ _) | apply State.cnt_kept | apply State.record_kept | apply State.wr_kept) | simp only [kept_same] | intro _ | dsimp only
@[simp] theorem State.disarm_kept {s0 : State} (s : State) (master reason : Nat) (hc : Kept s0 s) :
    Kept s0 (State.disarm s master reason) := by
  unfold State.disarm
  repeat' first | (with_reducible first | assumption | apply kept_ite | apply State.event_kept | apply State.record_kept | apply State.wr_kept) | simp only [kept_same] | dsimp only
@[simp] theorem State.flipBits_kept {s0 : State} (s : State) (a b1 b2 : Nat) (double : Bool) (hc : Kept s0 s) : Kept s0 (State.flipBits s a b1 b2 double) := by
  unfold State.flipBits; (repeat' (first | with_reducible assumption | with_reducible apply kept_ite | with_reducible apply kept_ite2 | with_reducible apply kept_ite3 | with_reducible apply kept_ite4 | with_reducible apply State.cnt_kept | with_reducible apply State.setByte_kept | with_reducible apply State.setDbe_kept | with_reducible apply State.setSbe_kept | intro _ | dsimp only))
@[simp] theorem State.becomeArmed_kept {s0 : State} (s : State) (hc : Kept s0 s) :
    Kept s0 (State.becomeArmed s) := by
  unfold State.becomeArmed
  extract_lets z0 z1 z2 z3
  try clear_value z0
  have h1 : Kept s0 z1 := by simp only [z1]; repeat' first | (with_reducible first | assumption | apply kept_ite | apply State.cnt_kept | apply State.event_kept | apply State.flipBits_kept | apply State.wr_kept) | simp only [kept_same] | dsimp only
  try clear_value z1
  have h2 : Kept s0 z2 := by repeat' first | (with_reducible first | assumption | apply kept_ite | apply State.cnt_kept | apply State.event_kept | apply State.flipBits_kept | apply State.wr_kept) | simp only [kept_same] | dsimp only
  try clear_value z2
  try clear_value z3
  repeat' first | (with_reducible first | assumption | apply kept_ite | apply State.flipBits_kept) | dsimp only
@[simp] theorem State.doTestInService_kept {s0 : State} (s : State) (p v : Nat) (hc : Kept s0 s) :
    Kept s0 (State.doTestInService s p v) := by
  unfold State.doTestInService
  extract_lets z0
  have h0 : Kept s0 z0 := by repeat' first | (with_reducible first | assumption | apply State.record_kept | apply State.wr_kept) | dsimp only
  try clear_value z0
  repeat' first | (with_reducible first | assumption) | simp only [kept_same] | dsimp only
@[simp] theorem State.setPio_kept {s0 : State} (s : State) (b : Nat) (x : Pio) (hc : Kept s0 s) :
    Kept s0 (State.setPio s b x) := by
  unfold State.setPio
  repeat' first | (with_reducible first | assumption) | simp only [kept_same] | intro _ | dsimp only
@[simp] theorem State.setSm_kept {s0 : State} (s : State) (m : Nat) (x : Sm) (hc : Kept s0 s) :
    Kept s0 (State.setSm s m x) := by
  unfold State.setSm
  extract_lets z0
  have h0 : Kept s0 z0 := by simp only [z0]; repeat' first | (with_reducible first | assumption) | simp only [kept_same] | intro _ | dsimp only
  try clear_value z0
  repeat' first | (with_reducible first | assumption | apply kept_ite | apply State.wr_kept) | dsimp only
@[simp] theorem State.pioEvent_kept {s0 : State} (s : State) (b k : Nat) (hc : Kept s0 s) :
    Kept s0 (State.pioEvent s b k) := by
  unfold State.pioEvent
  repeat' first | (with_reducible first | assumption | apply State.event_kept) | dsimp only
@[simp] theorem State.pioShow_kept {s0 : State} (s : State) (b : Nat) (hc : Kept s0 s) :
    Kept s0 (State.pioShow s b) := by
  unfold State.pioShow
  repeat' first | (with_reducible first | assumption | apply State.wr_kept) | dsimp only
@[simp] theorem State.pioDrive_kept {s0 : State} (s : State) (m base : Nat) (dir : Bool) (bits : List Bool) (hc : Kept s0 s) :
    Kept s0 (State.pioDrive s m base dir bits) := by
  unfold State.pioDrive
  extract_lets z0 z1 z2 z3
  try clear_value z0
  try clear_value z1
  try clear_value z2
  try clear_value z3
  repeat' first | (with_reducible first | assumption | apply kept_ite | (apply kept_foldl; intro _ _ _) | apply State.pioShow_kept | apply State.setPio_kept) | simp only [kept_same] | dsimp only
@[simp] theorem State.pioInputs_kept {s0 : State} (s : State) (b : Nat) (pins : Half) (hc : Kept s0 s) :
    Kept s0 (State.pioInputs s b pins) := by
  unfold State.pioInputs
  repeat' first | (with_reducible first | assumption | apply State.pioShow_kept | apply State.setPio_kept) | simp only [kept_same] | dsimp only
@[simp] theorem State.setPioFlags_kept {s0 : State} (s : State) (b v : Nat) (hc : Kept s0 s) :
    Kept s0 (State.setPioFlags s b v) := by
  unfold State.setPioFlags
  repeat' first | (with_reducible first | assumption | apply State.wr_kept) | dsimp only
@[simp] theorem State.txPush_kept {s0 : State} (s : State) (m : Nat) (w : Word) (hc : Kept s0 s) :
    Kept s0 (State.txPush s m w) := by
  unfold State.txPush
  repeat' first | (with_reducible first | assumption | apply State.setSm_kept) | simp only [kept_same] | dsimp only
@[simp] theorem State.txTake_kept {s0 : State} (s : State) (m : Nat) (hc : Kept s0 s) :
    Kept s0 (State.txTake s m) := by
  unfold State.txTake
  repeat' first | (with_reducible first | assumption | apply kept_ite | apply State.pioEvent_kept | apply State.setSm_kept) | simp only [kept_same] | dsimp only | split
@[simp] theorem State.rxPut_kept {s0 : State} (s : State) (m : Nat) (hc : Kept s0 s) :
    Kept s0 (State.rxPut s m) := by
  unfold State.rxPut
  extract_lets z0 z1
  try clear_value z0
  have h1 : Kept s0 z1 := by repeat' first | (with_reducible first | assumption | apply State.setSm_kept) | simp only [kept_same] | dsimp only
  try clear_value z1
  repeat' first | (with_reducible first | assumption | apply kept_ite | apply State.pioEvent_kept) | dsimp only
@[simp] theorem State.rxPop_kept {s0 : State} (s : State) (m : Nat) (hc : Kept s0 s) :
    Kept s0 (State.rxPop s m).2 := by
  unfold State.rxPop
  repeat' first | (with_reducible first | assumption | apply State.setSm_kept) | simp only [kept_same] | dsimp only | split
@[simp] theorem State.txBit_kept {s0 : State} (s : State) (m : Nat) (hc : Kept s0 s) :
    Kept s0 (State.txBit s m).2 := by
  unfold State.txBit
  extract_lets z0 z1 z2
  try clear_value z0
  try clear_value z1
  try clear_value z2
  repeat' first | (with_reducible first | assumption | apply State.setSm_kept) | simp only [kept_same] | dsimp only
@[simp] theorem State.takeBits_kept {s0 : State} (s : State) (m : Nat) (got : List Bool) (n : Nat) (hc : Kept s0 s) : Kept s0 (s.takeBits m got n).2.2 := by
  induction n generalizing s got with
  | zero => simpa [State.takeBits] using hc
  | succ n ih => unfold State.takeBits; dsimp only; repeat' split
                 all_goals simp (maxDischargeDepth := 60) [ih, hc]
@[simp] theorem State.rxFlush_kept {s0 : State} (s : State) (m : Nat) (hc : Kept s0 s) :
    Kept s0 (State.rxFlush s m).2 := by
  unfold State.rxFlush
  repeat' first | (with_reducible first | assumption | apply kept_ite | apply State.rxPut_kept | apply kept_ite2 | apply kept_ite3 | apply kept_ite4) | dsimp only
@[simp] theorem State.rxBit_kept {s0 : State} (s : State) (m : Nat) (v : Bool) (hc : Kept s0 s) :
    Kept s0 (State.rxBit s m v) := by
  unfold State.rxBit
  extract_lets z0 z1 z2
  try clear_value z0
  try clear_value z1
  try clear_value z2
  repeat' first | (with_reducible first | assumption | apply kept_ite | apply State.setSm_kept) | simp only [kept_same] | dsimp only
@[simp] theorem State.giveBits_kept {s0 : State} (s : State) (m : Nat) (l : List Bool) (hc : Kept s0 s) : Kept s0 (s.giveBits m l).2 := by
  induction l generalizing s with
  | nil => unfold State.giveBits; exact State.rxFlush_kept _ _ hc
  | cons v t ih => unfold State.giveBits; dsimp only; split <;> simp (maxDischargeDepth := 60) [ih, hc]
@[simp] theorem State.smDone_kept {s0 : State} (s : State) (m : Nat) (w : Half) (branch : Option Nat) (hc : Kept s0 s) :
    Kept s0 (State.smDone s m w branch) := by
  unfold State.smDone
  extract_lets z0 z1 z2 z3 z4
  try clear_value z0
  try clear_value z1
  try clear_value z2
  try clear_value z3
  try clear_value z4
  repeat' first | (with_reducible first | assumption | apply State.setSm_kept | apply State.wr_kept) | simp only [kept_same] | dsimp only
@[simp] theorem State.smStall_kept {s0 : State} (s : State) (m st : Nat) (hc : Kept s0 s) :
    Kept s0 (State.smStall s m st) := by
  unfold State.smStall
  repeat' first | (with_reducible first | assumption | apply State.setSm_kept) | simp only [kept_same] | dsimp only
theorem State.smFetch_kept {s0 : State} (s : State) (m op : Nat) {t1} (h : State.smFetch s m op = some t1) (hc : Kept s0 s) :
    Kept s0 t1.2 := by
  simp only [State.smFetch] at h
  repeat' split at h
  all_goals first | (simp only [Option.some.injEq, reduceCtorEq] at h; done) | (simp only [Option.some.injEq] at h; subst h)
  all_goals first | (simp (maxDischargeDepth := 60) [*]; done) | (simp_all (maxDischargeDepth := 60); done)
@[simp] theorem State.smTakes_kept {s0 : State} (s : State) (m n : Nat) (f : State → List Bool → State) (hf : ∀ s a0, Kept s0 s → Kept s0 (f s a0)) (hc : Kept s0 s) :
    Kept s0 (State.smTakes s m n f) := by
  unfold State.smTakes
  extract_lets z0
  have h0 : Kept s0 z0.2.2 := by repeat' first | (with_reducible first | assumption | apply State.takeBits_kept) | intro _ | dsimp only
  try clear_value z0
  repeat' first | (with_reducible first | assumption | apply kept_ite | apply State.setSm_kept | apply State.smStall_kept | apply hf | apply kept_ite2 | apply kept_ite3 | apply kept_ite4) | simp only [kept_same] | intro _ | dsimp only
@[simp] theorem State.smGives_kept {s0 : State} (s : State) (m : Nat) (w : Half) (l : List Bool) (hc : Kept s0 s) :
    Kept s0 (State.smGives s m w l) := by
  unfold State.smGives
  extract_lets z0
  have h0 : Kept s0 z0.2 := by repeat' first | (with_reducible first | assumption | apply State.giveBits_kept) | dsimp only
  try clear_value z0
  repeat' first | (with_reducible first | assumption | apply State.setSm_kept | apply State.smDone_kept | apply State.smStall_kept) | simp only [kept_same] | dsimp only | split
@[simp] theorem State.smDrive_kept {s0 : State} (s : State) (m : Nat) (w : Half) (hc : Kept s0 s) : Kept s0 (State.smDrive s m w) := by
  unfold State.smDrive; (repeat' (first | with_reducible assumption | with_reducible apply kept_ite | with_reducible apply kept_ite2 | with_reducible apply kept_ite3 | with_reducible apply kept_ite4 | with_reducible apply State.pioDrive_kept | with_reducible apply State.smDone_kept | with_reducible apply State.smTakes_kept | intro _ | dsimp only))
@[simp] theorem State.smSample_kept {s0 : State} (s : State) (m : Nat) (w : Half) (hc : Kept s0 s) :
    Kept s0 (State.smSample s m w) := by
  unfold State.smSample
  repeat' first | (with_reducible first | assumption | apply State.smGives_kept) | intro _ | dsimp only
@[simp] theorem State.smLoadTw_kept {s0 : State} (s : State) (m : Nat) (w : Half) (hc : Kept s0 s) :
    Kept s0 (State.smLoadTw s m w) := by
  unfold State.smLoadTw
  repeat' first | (with_reducible first | assumption | apply kept_ite | apply State.cntH_kept | apply State.setSm_kept | apply State.smDone_kept | apply State.smStall_kept | apply State.txTake_kept) | simp only [kept_same] | dsimp only
@[simp] theorem State.smStoreRw_kept {s0 : State} (s : State) (m : Nat) (w : Half) (hc : Kept s0 s) :
    Kept s0 (State.smStoreRw s m w) := by
  unfold State.smStoreRw
  repeat' first | (with_reducible first | assumption | apply kept_ite | apply State.cntH_kept | apply State.rxPut_kept | apply State.setSm_kept | apply State.smDone_kept | apply State.smStall_kept) | simp only [kept_same] | dsimp only
@[simp] theorem State.smLoadImm_kept {s0 : State} (s : State) (m : Nat) (w : Half) (hc : Kept s0 s) :
    Kept s0 (State.smLoadImm s m w) := by
  unfold State.smLoadImm
  extract_lets z0 z1 z2 z3 z4
  try clear_value z0
  try clear_value z1
  try clear_value z2
  try clear_value z3
  have h4 : Kept s0 z4 := by repeat' first | (with_reducible first | assumption | apply kept_ite | apply State.pioDrive_kept | apply State.wr_kept) | dsimp only
  try clear_value z4
  repeat' first | (with_reducible first | assumption | apply State.smDone_kept) | dsimp only
@[simp] theorem State.smAwait_kept {s0 : State} (s : State) (m : Nat) (w : Half) (hc : Kept s0 s) :
    Kept s0 (State.smAwait s m w) := by
  unfold State.smAwait
  extract_lets z0
  try clear_value z0
  repeat' first | (with_reducible first | assumption | apply kept_ite | apply State.setPioFlags_kept | apply State.smDone_kept | apply State.smStall_kept) | dsimp only
@[simp] theorem State.smFlag_kept {s0 : State} (s : State) (m : Nat) (w : Half) (hc : Kept s0 s) :
    Kept s0 (State.smFlag s m w) := by
  unfold State.smFlag
  extract_lets z0 z1 z2 z3 z4 z5
  try clear_value z0
  try clear_value z1
  try clear_value z2
  try clear_value z3
  have h4 : Kept s0 z4 := by repeat' first | (with_reducible first | assumption | apply kept_ite | apply State.setPioFlags_kept) | dsimp only
  try clear_value z4
  have h5 : Kept s0 z5 := by repeat' first | (with_reducible first | assumption | apply kept_ite | apply State.pioEvent_kept) | dsimp only
  try clear_value z5
  repeat' first | (with_reducible first | assumption | apply kept_ite | apply State.smDone_kept | apply State.smStall_kept) | dsimp only
@[simp] theorem State.smCopy_kept {s0 : State} (s : State) (m : Nat) (w : Half) (hc : Kept s0 s) :
    Kept s0 (State.smCopy s m w) := by
  unfold State.smCopy
  extract_lets z0 z1 z2 z3 z4 z5
  try clear_value z0
  try clear_value z1
  try clear_value z2
  try clear_value z3
  try clear_value z4
  try clear_value z5
  repeat' first | (with_reducible first | assumption | apply kept_ite | apply State.pioDrive_kept | apply State.setSm_kept | apply State.smDone_kept | apply State.wr_kept) | simp only [kept_same] | dsimp only
@[simp] theorem State.smUnpack_kept {s0 : State} (s : State) (m : Nat) (w : Half) (hc : Kept s0 s) :
    Kept s0 (State.smUnpack s m w) := by
  unfold State.smUnpack
  extract_lets z0 z1
  try clear_value z0
  try clear_value z1
  repeat' first | (with_reducible first | assumption | apply kept_ite | apply State.smDone_kept | apply State.smGives_kept | apply State.smTakes_kept | apply State.wr_kept) | intro _ | dsimp only
@[simp] theorem State.smPack_kept {s0 : State} (s : State) (m : Nat) (w : Half) (hc : Kept s0 s) :
    Kept s0 (State.smPack s m w) := by
  unfold State.smPack
  extract_lets z0 z1
  try clear_value z0
  try clear_value z1
  repeat' first | (with_reducible first | assumption | apply kept_ite | apply State.smGives_kept) | dsimp only
@[simp] theorem State.smLoop_kept {s0 : State} (s : State) (m j : Nat) (w : Half) (hc : Kept s0 s) :
    Kept s0 (State.smLoop s m j w) := by
  unfold State.smLoop
  repeat' first | (with_reducible first | assumption | apply kept_ite | apply State.smDone_kept | apply State.wr_kept) | dsimp only
@[simp] theorem State.smResume_kept {s0 : State} (s : State) (m : Nat) (hc : Kept s0 s) :
    Kept s0 (State.smResume s m) := by
  unfold State.smResume
  extract_lets z0
  try clear_value z0
  repeat' first | (with_reducible first | assumption | apply kept_ite | apply State.smAwait_kept | apply State.smDone_kept | apply State.smDrive_kept | apply State.smGives_kept | apply State.smLoadTw_kept | apply State.smStoreRw_kept | apply State.smUnpack_kept) | simp only [kept_same] | dsimp only | split
@[simp] theorem State.smTimeUp_kept {s0 : State} (s : State) (m : Nat) (hc : Kept s0 s) :
    Kept s0 (State.smTimeUp s m) := by
  unfold State.smTimeUp
  extract_lets z0
  try clear_value z0
  repeat' first | (with_reducible first | assumption | apply State.setSm_kept | apply State.smDone_kept) | simp only [kept_same] | dsimp only | split
@[simp] theorem State.smRun_kept {s0 : State} (s : State) (m op : Nat) (f : State → Half → State) (hf : ∀ s a, Kept s0 s → Kept s0 (f s a)) (hc : Kept s0 s) : Kept s0 (s.smRun m op f) := by
  unfold State.smRun
  split
  · rename_i h
    exact hf _ _ (State.smFetch_kept s m op h hc)
  · exact hc
@[simp] theorem State.smEnable_kept {s0 : State} (s : State) (b v : Nat) (hc : Kept s0 s) :
    Kept s0 (State.smEnable s b v) := by
  unfold State.smEnable
  extract_lets z0 z1
  try clear_value z0
  have h1 : Kept s0 z1 := by repeat' first | (with_reducible first | assumption | apply State.wr_kept) | dsimp only
  try clear_value z1
  repeat' first | (with_reducible first | assumption | apply kept_ite | (apply kept_foldl; intro _ _ _) | apply State.setSm_kept) | simp only [kept_same] | intro _ | dsimp only
@[simp] theorem State.smRestart_kept {s0 : State} (s : State) (m : Nat) (hc : Kept s0 s) :
    Kept s0 (State.smRestart s m) := by
  unfold State.smRestart
  repeat' first | (with_reducible first | assumption | apply State.setSm_kept | apply State.wr_kept) | simp only [kept_same] | dsimp only
@[simp] theorem State.smClear_kept {s0 : State} (s : State) (m : Nat) (hc : Kept s0 s) :
    Kept s0 (State.smClear s m) := by
  unfold State.smClear
  repeat' first | (with_reducible first | assumption | apply State.setSm_kept) | simp only [kept_same] | dsimp only
@[simp] theorem State.smWrap_kept {s0 : State} (s : State) (m v : Nat) (hc : Kept s0 s) :
    Kept s0 (State.smWrap s m v) := by
  unfold State.smWrap
  extract_lets z0
  have h0 : Kept s0 z0 := by repeat' first | (with_reducible first | assumption | apply State.wr_kept) | dsimp only
  try clear_value z0
  repeat' first | (with_reducible first | assumption | apply kept_ite | apply State.setSm_kept) | simp only [kept_same] | dsimp only
@[simp] theorem State.smStream_kept {s0 : State} (s : State) (m v : Nat) (hc : Kept s0 s) :
    Kept s0 (State.smStream s m v) := by
  unfold State.smStream
  extract_lets z0 z1
  try clear_value z0
  have h1 : Kept s0 z1 := by repeat' first | (with_reducible first | assumption | apply State.wr_kept) | dsimp only
  try clear_value z1
  repeat' first | (with_reducible first | assumption | apply kept_ite | apply State.smClear_kept) | dsimp only
@[simp] theorem State.syncApply_kept {s0 : State} (s : State) (hc : Kept s0 s) :
    Kept s0 (State.syncApply s) := by
  unfold State.syncApply
  extract_lets z0 z1 z2 z3 z4 z5
  try clear_value z0
  try clear_value z1
  try clear_value z2
  have h3 : Kept s0 z3 := by repeat' first | (with_reducible first | assumption | apply State.cnt_kept | apply State.wr_kept) | dsimp only
  try clear_value z3
  have h4 : Kept s0 z4 := by repeat' first | (with_reducible first | assumption | (apply kept_foldl; intro _ _ _) | apply State.smEnable_kept) | intro _ | dsimp only
  try clear_value z4
  have h5 : Kept s0 z5 := by repeat' first | (with_reducible first | assumption | apply kept_ite | (apply kept_foldl; intro _ _ _) | apply State.setSm_kept) | simp only [kept_same] | intro _ | dsimp only
  try clear_value z5
  repeat' first | (with_reducible first | assumption | apply kept_ite | (apply kept_foldl; intro _ _ _) | apply State.pioEvent_kept) | intro _ | dsimp only
@[simp] theorem State.syncCommand_kept {s0 : State} (s : State) (v : Nat) (hc : Kept s0 s) :
    Kept s0 (State.syncCommand s v) := by
  unfold State.syncCommand
  repeat' first | (with_reducible first | assumption | apply kept_ite | apply State.cnt_kept | apply State.wr_kept) | dsimp only
@[simp] theorem State.pioTrigger_kept {s0 : State} (s : State) (d t : Nat) (hc : Kept s0 s) :
    Kept s0 (State.pioTrigger s d t) := by
  unfold State.pioTrigger
  extract_lets z0 z1
  try clear_value z0
  have h1 : Kept s0 z1 := by repeat' first | (with_reducible first | assumption | apply kept_ite | (apply kept_foldl; intro _ _ _) | apply State.smTimeUp_kept) | intro _ | dsimp only
  try clear_value z1
  repeat' first | (with_reducible first | assumption | apply kept_ite | apply State.syncApply_kept) | dsimp only
@[simp] theorem State.dmaStart_kept {s0 : State} (s : State) (k v : Nat) (hc : Kept s0 s) :
    Kept s0 (State.dmaStart s k v) := by
  unfold State.dmaStart
  extract_lets z0
  try clear_value z0
  repeat' first | (with_reducible first | assumption | apply State.wr_kept) | dsimp only
@[simp] theorem State.dmaStop_kept {s0 : State} (s : State) (k : Nat) (hc : Kept s0 s) :
    Kept s0 (State.dmaStop s k) := by
  unfold State.dmaStop
  repeat' first | (with_reducible first | assumption | apply kept_ite | apply State.wr_kept) | dsimp only
@[simp] theorem State.dmaControl_kept {s0 : State} (s : State) (k v : Nat) (hc : Kept s0 s) :
    Kept s0 (State.dmaControl s k v) := by
  unfold State.dmaControl
  repeat' first | (with_reducible first | assumption | apply kept_ite | apply State.dmaStart_kept | apply State.dmaStop_kept | apply State.wr_kept) | dsimp only
@[simp] theorem State.dmaMoved_kept {s0 : State} (s : State) (k : Nat) (hc : Kept s0 s) :
    Kept s0 (State.dmaMoved s k) := by
  unfold State.dmaMoved
  extract_lets z0 z1 z2
  try clear_value z0
  try clear_value z1
  have h2 : Kept s0 z2 := by repeat' first | (with_reducible first | assumption | apply State.cnt_kept | apply State.wr_kept) | dsimp only
  try clear_value z2
  repeat' first | (with_reducible first | assumption | apply kept_ite | apply State.pioEvent_kept | apply State.wr_kept) | dsimp only
theorem State.effPio_kept {s0 : State} (s : State) (i j v : Nat) {t1} (h : State.effPio s i j v = some t1) (hc : Kept s0 s) :
    Kept s0 t1 := by
  simp only [State.effPio] at h
  repeat' split at h
  all_goals first | (simp only [Option.some.injEq, reduceCtorEq] at h; done) | (simp only [Option.some.injEq] at h; subst h)
  all_goals first | (simp (maxDischargeDepth := 60) [*]; done) | (simp_all (maxDischargeDepth := 60); done)
@[simp] theorem State.setTrkS_kept {s0 : State} (s : State) (t j v : Nat) (hc : Kept s0 s) :
    Kept s0 (State.setTrkS s t j v) := by
  unfold State.setTrkS
  repeat' first | (with_reducible first | assumption | apply State.wr_kept) | dsimp only
@[simp] theorem State.trkCnt_kept {s0 : State} (s : State) (t j : Nat) (hc : Kept s0 s) :
    Kept s0 (State.trkCnt s t j) := by
  unfold State.trkCnt
  repeat' first | (with_reducible first | assumption | apply State.cntH_kept) | dsimp only
@[simp] theorem State.trkAnchor_kept {s0 : State} (s : State) (t : Nat) (hc : Kept s0 s) :
    Kept s0 (State.trkAnchor s t) := by
  unfold State.trkAnchor
  extract_lets z0
  try clear_value z0
  repeat' first | (with_reducible first | assumption | apply kept_ite | apply State.setTrack_kept) | simp only [kept_same] | dsimp only | split
@[simp] theorem State.trkNext_kept {s0 : State} (s : State) (t : Nat) (hc : Kept s0 s) :
    Kept s0 (State.trkNext s t) := by
  unfold State.trkNext
  extract_lets z0 z1
  try clear_value z0
  try clear_value z1
  repeat' first | (with_reducible first | assumption | apply State.setTrack_kept) | simp only [kept_same] | dsimp only
@[simp] theorem State.trkStop_kept {s0 : State} (s : State) (t st : Nat) (hc : Kept s0 s) :
    Kept s0 (State.trkStop s t st) := by
  unfold State.trkStop
  extract_lets z0 z1
  have h0 : Kept s0 z0 := by repeat' first | (with_reducible first | assumption | apply State.setTrkS_kept | apply State.wr_kept) | dsimp only
  try clear_value z0
  try clear_value z1
  repeat' first | (with_reducible first | assumption | apply State.setTrack_kept | apply State.swapLeave_kept) | simp only [kept_same] | dsimp only
@[simp] theorem State.trkEnable_kept {s0 : State} (s : State) (t v : Nat) (hc : Kept s0 s) :
    Kept s0 (State.trkEnable s t v) := by
  unfold State.trkEnable
  repeat' first | (with_reducible first | assumption | apply kept_ite | apply State.setTrack_kept | apply State.setTrkS_kept | apply State.trkAnchor_kept | apply State.trkStop_kept | apply State.wr_kept) | dsimp only
@[simp] theorem State.trkAbort_kept {s0 : State} (s : State) (t : Nat) (hc : Kept s0 s) :
    Kept s0 (State.trkAbort s t) := by
  unfold State.trkAbort
  repeat' first | (with_reducible first | assumption | apply kept_ite | apply State.setTrack_kept | apply State.setTrkS_kept | apply State.trkStop_kept) | simp only [kept_same] | dsimp only
@[simp] theorem State.trkAdvance_kept {s0 : State} (s : State) (t : Nat) (hc : Kept s0 s) : Kept s0 (State.trkAdvance s t) := by
  unfold State.trkAdvance; (repeat' (first | with_reducible assumption | with_reducible apply kept_ite | with_reducible apply kept_ite2 | with_reducible apply kept_ite3 | with_reducible apply kept_ite4 | with_reducible apply State.setTrack_kept | with_reducible apply State.setTrkS_kept | simp only [kept_same] | intro _ | dsimp only | split))
@[simp] theorem State.trkEnd_kept {s0 : State} (s : State) (t : Nat) (hc : Kept s0 s) :
    Kept s0 (State.trkEnd s t) := by
  unfold State.trkEnd
  repeat' first | (with_reducible first | assumption | apply State.locusEvent_kept | apply State.trkStop_kept) | dsimp only
@[simp] theorem State.trkFinish_kept {s0 : State} (s : State) (t : Nat) (hc : Kept s0 s) :
    Kept s0 (State.trkFinish s t) := by
  unfold State.trkFinish
  extract_lets z0
  have h0 : Kept s0 z0 := by repeat' first | (with_reducible first | assumption | apply State.setTrkS_kept | apply State.trkAdvance_kept | apply State.trkNext_kept) | dsimp only
  try clear_value z0
  repeat' first | (with_reducible first | assumption | apply kept_ite | apply State.trkEnd_kept) | dsimp only
@[simp] theorem State.trkSwap_kept {s0 : State} (s : State) (t : Nat) (hc : Kept s0 s) :
    Kept s0 (State.trkSwap s t) := by
  unfold State.trkSwap
  extract_lets z0 z1 z2 z3
  have h0 : Kept s0 z0 := by repeat' first | (with_reducible first | assumption | (apply kept_foldl; intro _ _ _) | apply State.wr_kept) | intro _ | dsimp only
  try clear_value z0
  try clear_value z1
  try clear_value z2
  have h3 : Kept s0 z3 := by repeat' first | (with_reducible first | assumption | apply State.setTrack_kept) | simp only [kept_same] | dsimp only
  try clear_value z3
  repeat' first | (with_reducible first | assumption | apply State.setTrkS_kept | apply State.swapLeave_kept) | dsimp only
@[simp] theorem State.trkBegin_kept {s0 : State} (s : State) (t : Nat) (hc : Kept s0 s) :
    Kept s0 (State.trkBegin s t) := by
  unfold State.trkBegin
  extract_lets z0
  try clear_value z0
  repeat' first | (with_reducible first | assumption | apply kept_ite | apply State.setTrack_kept | apply State.setTrkS_kept | apply State.trkAnchor_kept | apply State.trkCnt_kept | apply State.trkEnd_kept | apply State.trkNext_kept | apply State.trkSwap_kept) | simp only [kept_same] | dsimp only
@[simp] theorem State.trkWrite_kept {s0 : State} (s : State) (t : Nat) (d : List Byte) (late : Bool) (hc : Kept s0 s) :
    Kept s0 (State.trkWrite s t d late) := by
  unfold State.trkWrite
  repeat' first | (with_reducible first | assumption | apply kept_ite | apply State.setTrack_kept) | simp only [kept_same] | dsimp only
@[simp] theorem State.holdRequest_kept {s0 : State} (s : State) (v : Nat) (hc : Kept s0 s) :
    Kept s0 (State.holdRequest s v) := by
  unfold State.holdRequest
  extract_lets z0
  have h0 : Kept s0 z0 := by repeat' first | (with_reducible first | assumption | apply State.wr_kept) | dsimp only
  try clear_value z0
  repeat' first | (with_reducible first | assumption | apply kept_ite | apply State.hold_kept | apply State.unhold_kept) | dsimp only
@[simp] theorem State.trkLate_kept {s0 : State} (s : State) (t : Nat) (dbe : Bool) (hc : Kept s0 s) :
    Kept s0 (State.trkLate s t dbe) := by
  unfold State.trkLate
  extract_lets z0 z1 z2 z3 z4
  have h0 : Kept s0 z0 := by repeat' first | (with_reducible first | assumption | apply State.locusEvent_kept | apply State.trkCnt_kept) | dsimp only
  try clear_value z0
  have h1 : Kept s0 z1 := by repeat' first | (with_reducible first | assumption | apply kept_ite | apply State.locusEvent_kept | apply State.trkCnt_kept) | dsimp only
  try clear_value z1
  try clear_value z2
  have h3 : Kept s0 z3 := by repeat' first | (with_reducible first | assumption | apply kept_ite | apply State.holdRequest_kept) | dsimp only
  try clear_value z3
  try clear_value z4
  repeat' first | (with_reducible first | assumption | apply kept_ite | apply State.trkFinish_kept | apply State.trkWrite_kept) | simp only [kept_same] | dsimp only | split
@[simp] theorem State.mixWords_kept {s0 : State} (s : State) (old new : List Byte) (n : Nat) (hc : Kept s0 s) : Kept s0 (s.mixWords old new n).2 := by
  induction n generalizing s old new with
  | zero => simpa [State.mixWords] using hc
  | succ n ih => unfold State.mixWords; dsimp only; repeat' split
                 all_goals simp (maxDischargeDepth := 60) [ih, hc]
@[simp] theorem State.trkReadDone_kept {s0 : State} (s : State) (t : Nat) (hc : Kept s0 s) :
    Kept s0 (State.trkReadDone s t) := by
  unfold State.trkReadDone
  extract_lets z0 z1
  try clear_value z0
  try clear_value z1
  repeat' first | (with_reducible first | assumption | apply kept_ite | apply State.dmaRead_kept | apply State.mixWords_kept | apply State.setTrack_kept | apply State.trkLate_kept | apply State.trkWrite_kept | apply kept_ite2 | apply kept_ite3 | apply kept_ite4) | simp only [kept_same] | dsimp only
@[simp] theorem State.trkStore_kept {s0 : State} (s : State) (t : Nat) (d : List Byte) (hc : Kept s0 s) :
    Kept s0 (State.trkStore s t d) := by
  unfold State.trkStore
  repeat' first | (with_reducible first | assumption | apply kept_ite | apply State.dmaWrite_kept) | simp only [kept_same] | dsimp only | split
@[simp] theorem State.trkStaged_kept {s0 : State} (s : State) (t : Nat) (hc : Kept s0 s) :
    Kept s0 (State.trkStaged s t) := by
  unfold State.trkStaged
  extract_lets z0 z1
  try clear_value z0
  try clear_value z1
  repeat' first | (with_reducible first | assumption | apply kept_ite | apply State.setTrack_kept | apply State.setTrkS_kept | apply State.trkCnt_kept | apply State.trkFinish_kept | apply State.trkStop_kept | apply State.trkStore_kept) | simp only [kept_same] | dsimp only | split
@[simp] theorem State.swapArm_kept {s0 : State} (s : State) (tied : Bool) (hc : Kept s0 s) :
    Kept s0 (State.swapArm s tied) := by
  unfold State.swapArm
  extract_lets z0
  have h0 : Kept s0 z0 := by repeat' first | (with_reducible first | assumption | (apply kept_foldl; intro _ _ _) | apply State.setTrack_kept) | simp only [kept_same] | intro _ | dsimp only
  try clear_value z0
  repeat' first | (with_reducible first | assumption | apply State.wr_kept) | simp only [kept_same] | dsimp only
@[simp] theorem State.swapStop_kept {s0 : State} (s : State) (hc : Kept s0 s) :
    Kept s0 (State.swapStop s) := by
  unfold State.swapStop
  repeat' first | (with_reducible first | assumption | apply kept_ite | apply State.swapCancel_kept) | dsimp only
@[simp] theorem State.swapCommand_kept {s0 : State} (s : State) (v : Nat) (hc : Kept s0 s) :
    Kept s0 (State.swapCommand s v) := by
  unfold State.swapCommand
  repeat' first | (with_reducible first | assumption | apply kept_ite | apply State.swapArm_kept | apply State.swapStop_kept) | dsimp only
theorem State.effLocus_kept {s0 : State} (s : State) (i j v : Nat) {t1} (h : State.effLocus s i j v = some t1) (hc : Kept s0 s) :
    Kept s0 t1 := by
  simp only [State.effLocus] at h
  repeat' split at h
  all_goals first | (simp only [Option.some.injEq, reduceCtorEq] at h; done) | (simp only [Option.some.injEq] at h; subst h)
  all_goals first | (simp (maxDischargeDepth := 60) [*]; done) | (simp_all (maxDischargeDepth := 60); done)
@[simp] theorem State.setCan_kept {s0 : State} (s : State) (c : Nat) (x : Can) (hc : Kept s0 s) :
    Kept s0 (State.setCan s c x) := by
  unfold State.setCan
  repeat' first | (with_reducible first | assumption) | simp only [kept_same] | intro _ | dsimp only
@[simp] theorem State.canEvent_kept {s0 : State} (s : State) (c b : Nat) (hc : Kept s0 s) :
    Kept s0 (State.canEvent s c b) := by
  unfold State.canEvent
  repeat' first | (with_reducible first | assumption | apply State.event_kept) | dsimp only
@[simp] theorem State.canCnt_kept {s0 : State} (s : State) (c j : Nat) (hc : Kept s0 s) :
    Kept s0 (State.canCnt s c j) := by
  unfold State.canCnt
  repeat' first | (with_reducible first | assumption | apply State.cntH_kept) | dsimp only
@[simp] theorem State.setBuf_kept {s0 : State} (s : State) (c b lsb w v : Nat) (hc : Kept s0 s) :
    Kept s0 (State.setBuf s c b lsb w v) := by
  unfold State.setBuf
  repeat' first | (with_reducible first | assumption | apply State.wr_kept) | dsimp only
@[simp] theorem State.setBufState_kept {s0 : State} (s : State) (c b v : Nat) (hc : Kept s0 s) :
    Kept s0 (State.setBufState s c b v) := by
  unfold State.setBufState
  repeat' first | (with_reducible first | assumption | apply State.setBuf_kept) | dsimp only
@[simp] theorem State.canStamp_kept {s0 : State} (s : State) (c ago phase : Nat) (hc : Kept s0 s) :
    Kept s0 (State.canStamp s c ago phase).2 := by
  unfold State.canStamp
  repeat' first | (with_reducible first | assumption | apply State.tick_kept) | dsimp only
@[simp] theorem State.canPut_kept {s0 : State} (s : State) (c k a : Nat) (f : CanFrame) (how : Nat) (hc : Kept s0 s) :
    Kept s0 (State.canPut s c k a f how) := by
  unfold State.canPut
  extract_lets z0 z1 z2 z3 z4 z5 z6 z7 z8
  try clear_value z0
  try clear_value z1
  try clear_value z2
  try clear_value z3
  try clear_value z4
  have h5 : Kept s0 z5 := by repeat' first | (with_reducible first | assumption | apply State.setCan_kept) | simp only [kept_same] | intro _ | dsimp only
  try clear_value z5
  have h6 : Kept s0 z6 := by repeat' first | (with_reducible first | assumption | apply State.unitWrite_kept) | dsimp only
  try clear_value z6
  have h7 : Kept s0 z7 := by repeat' first | (with_reducible first | assumption | apply State.unitWrite_kept) | dsimp only
  try clear_value z7
  have h8 : Kept s0 z8 := by repeat' first | (with_reducible first | assumption | apply State.unitWrite_kept) | dsimp only
  try clear_value z8
  repeat' first | (with_reducible first | assumption | apply State.unitWrite_kept) | dsimp only
@[simp] theorem State.canTake_kept {s0 : State} (s : State) (c b : Nat) (hc : Kept s0 s) :
    Kept s0 (State.canTake s c b).2 := by
  unfold State.canTake
  extract_lets z0 z1 z2 z3
  have h0 : Kept s0 z0.2.2 := by repeat' first | (with_reducible first | assumption | apply State.fetchBytes_kept) | dsimp only
  try clear_value z0
  try clear_value z1
  try clear_value z2
  try clear_value z3
  repeat' first | (with_reducible first | assumption | apply kept_ite | apply State.drop_kept | apply kept_ite2 | apply kept_ite3 | apply kept_ite4) | dsimp only
@[simp] theorem State.canAccept_kept {s0 : State} (s : State) (c : Nat) (f : CanFrame) (hc : Kept s0 s) :
    Kept s0 (State.canAccept s c f).2 := by
  unfold State.canAccept
  repeat' first | (with_reducible first | assumption | apply kept_ite | apply State.tick_kept | apply kept_ite2 | apply kept_ite3 | apply kept_ite4) | simp only [kept_same] | intro _ | dsimp only | split
@[simp] theorem State.fifoStore_kept {s0 : State} (s : State) (c k : Nat) (f : CanFrame) (how : Nat) (hc : Kept s0 s) :
    Kept s0 (State.fifoStore s c k f how) := by
  unfold State.fifoStore
  repeat' first | (with_reducible first | assumption | apply kept_ite | apply State.canCnt_kept | apply State.canEvent_kept | apply State.canPut_kept | apply State.wr_kept) | dsimp only
@[simp] theorem State.canLose_kept {s0 : State} (s : State) (c b : Nat) (hc : Kept s0 s) :
    Kept s0 (State.canLose s c b) := by
  unfold State.canLose
  repeat' first | (with_reducible first | assumption | apply State.canCnt_kept | apply State.canEvent_kept | apply State.setBuf_kept) | dsimp only
@[simp] theorem State.bufStore_kept {s0 : State} (s : State) (c b : Nat) (f : CanFrame) (how : Nat) (hc : Kept s0 s) :
    Kept s0 (State.bufStore s c b f how) := by
  unfold State.bufStore
  repeat' first | (with_reducible first | assumption | apply kept_ite | apply State.canEvent_kept | apply State.canLose_kept | apply State.canPut_kept | apply State.setBuf_kept | apply State.setBufState_kept | apply State.setCan_kept) | simp only [kept_same] | dsimp only
@[simp] theorem State.canStore_kept {s0 : State} (s : State) (c : Nat) (hc : Kept s0 s) :
    Kept s0 (State.canStore s c) := by
  unfold State.canStore
  repeat' first | (with_reducible first | assumption | apply kept_ite | apply State.bufStore_kept | apply State.fifoStore_kept | apply State.setCan_kept) | simp only [kept_same] | dsimp only | split
@[simp] theorem State.canOffer_kept {s0 : State} (s : State) (c : Nat) (f : CanFrame) (hc : Kept s0 s) : Kept s0 (s.canOffer c f) := by
  unfold State.canOffer
  dsimp only
  have h := State.canAccept_kept ((s.canStore c).canCnt c 1) c f (s0 := s0) (by simp [hc])
  split <;> rename_i e <;> rw [e] at h <;> simp_all
@[simp] theorem State.canStatus_kept {s0 : State} (s : State) (c lsb w v : Nat) (hc : Kept s0 s) :
    Kept s0 (State.canStatus s c lsb w v) := by
  unfold State.canStatus
  repeat' first | (with_reducible first | assumption | apply State.wr_kept) | dsimp only
@[simp] theorem State.canCounters_kept {s0 : State} (s : State) (c tec rec : Nat) (hc : Kept s0 s) :
    Kept s0 (State.canCounters s c tec rec) := by
  unfold State.canCounters
  extract_lets z0 z1 z2 z3
  try clear_value z0
  have h1 : Kept s0 z1 := by repeat' first | (with_reducible first | assumption | apply State.wr_kept) | dsimp only
  try clear_value z1
  try clear_value z2
  have h3 : Kept s0 z3 := by repeat' first | (with_reducible first | assumption | apply State.canStatus_kept) | dsimp only
  try clear_value z3
  repeat' first | (with_reducible first | assumption | apply kept_ite | apply State.canEvent_kept | apply State.canStatus_kept | apply State.cnt_kept | apply State.record_kept | apply State.setCan_kept) | simp only [kept_same] | dsimp only
@[simp] theorem State.recUp_kept {s0 : State} (s : State) (c k : Nat) (hc : Kept s0 s) :
    Kept s0 (State.recUp s c k).2 := by
  unfold State.recUp
  extract_lets z0
  try clear_value z0
  repeat' first | (with_reducible first | assumption | apply kept_ite | apply State.tick_kept | apply kept_ite2 | apply kept_ite3 | apply kept_ite4) | dsimp only
@[simp] theorem State.recDown_kept {s0 : State} (s : State) (c : Nat) (hc : Kept s0 s) :
    Kept s0 (State.recDown s c).2 := by
  unfold State.recDown
  extract_lets z0
  try clear_value z0
  repeat' first | (with_reducible first | assumption | apply kept_ite | apply State.tick_kept | apply kept_ite2 | apply kept_ite3 | apply kept_ite4) | dsimp only
@[simp] theorem State.canErr_kept {s0 : State} (s : State) (c lec : Nat) (data : Bool) (hc : Kept s0 s) :
    Kept s0 (State.canErr s c lec data) := by
  unfold State.canErr
  repeat' first | (with_reducible first | assumption | apply kept_ite | apply State.canCnt_kept | apply State.canStatus_kept) | dsimp only
@[simp] theorem State.canEnter_kept {s0 : State} (s : State) (c m : Nat) (hc : Kept s0 s) :
    Kept s0 (State.canEnter s c m) := by
  unfold State.canEnter
  extract_lets z0 z1
  try clear_value z0
  try clear_value z1
  repeat' first | (with_reducible first | assumption | apply kept_ite | apply State.canStatus_kept | apply State.setCan_kept) | simp only [kept_same] | dsimp only
@[simp] theorem State.canMode_kept {s0 : State} (s : State) (c m : Nat) (hc : Kept s0 s) :
    Kept s0 (State.canMode s c m) := by
  unfold State.canMode
  extract_lets z0
  have h0 : Kept s0 z0 := by repeat' first | (with_reducible first | assumption | apply State.wr_kept) | dsimp only
  try clear_value z0
  repeat' first | (with_reducible first | assumption | apply kept_ite | apply State.canEnter_kept | apply State.setCan_kept) | simp only [kept_same] | dsimp only
@[simp] theorem State.canIdle_kept {s0 : State} (s : State) (c : Nat) (hc : Kept s0 s) :
    Kept s0 (State.canIdle s c) := by
  unfold State.canIdle
  extract_lets z0 z1
  try clear_value z0
  have h1 : Kept s0 z1 := by repeat' first | (with_reducible first | assumption | apply State.canStatus_kept | apply State.setCan_kept) | simp only [kept_same] | dsimp only
  try clear_value z1
  repeat' first | (with_reducible first | assumption | apply State.canEnter_kept) | simp only [kept_same] | dsimp only | split
@[simp] theorem State.canHeard_kept {s0 : State} (s : State) (c : Nat) (hc : Kept s0 s) :
    Kept s0 (State.canHeard s c) := by
  unfold State.canHeard
  repeat' first | (with_reducible first | assumption | apply State.canStatus_kept | apply State.setCan_kept) | simp only [kept_same] | dsimp only
@[simp] theorem State.canRequest_kept {s0 : State} (s : State) (c b : Nat) (hc : Kept s0 s) :
    Kept s0 (State.canRequest s c b) := by
  unfold State.canRequest
  repeat' first | (with_reducible first | assumption | apply kept_ite | apply State.canTake_kept | apply State.setBuf_kept | apply State.setBufState_kept | apply State.setCan_kept | apply kept_ite2 | apply kept_ite3 | apply kept_ite4) | simp only [kept_same] | dsimp only
@[simp] theorem State.canRetry_kept {s0 : State} (s : State) (c b : Nat) (hc : Kept s0 s) :
    Kept s0 (State.canRetry s c b) := by
  unfold State.canRetry
  extract_lets z0
  try clear_value z0
  repeat' first | (with_reducible first | assumption | apply kept_ite | apply State.canEvent_kept | apply State.setBuf_kept | apply State.setBufState_kept | apply State.setCan_kept) | simp only [kept_same] | dsimp only
@[simp] theorem State.canLost_kept {s0 : State} (s : State) (c : Nat) (hc : Kept s0 s) :
    Kept s0 (State.canLost s c) := by
  unfold State.canLost
  repeat' first | (with_reducible first | assumption | apply State.canIdle_kept | apply State.canRetry_kept) | simp only [kept_same] | dsimp only | split
@[simp] theorem State.canAttempt_kept {s0 : State} (s : State) (c phase : Nat) (hc : Kept s0 s) :
    Kept s0 (State.canAttempt s c phase) := by
  unfold State.canAttempt
  repeat' first | (with_reducible first | assumption | apply kept_ite | apply State.canLost_kept | apply State.canStamp_kept | apply State.canStatus_kept | apply State.cnt_kept | apply State.emit_kept | apply State.setBufState_kept | apply State.setCan_kept | apply kept_ite2 | apply kept_ite3 | apply kept_ite4) | simp only [kept_same] | dsimp only | split
@[simp] theorem State.canDelay_kept {s0 : State} (s : State) (c : Nat) (f : CanFrame) (delay : Nat) (hc : Kept s0 s) :
    Kept s0 (State.canDelay s c f delay) := by
  unfold State.canDelay
  repeat' first | (with_reducible first | assumption | apply kept_ite | apply State.canStatus_kept) | dsimp only
@[simp] theorem State.canSent_kept {s0 : State} (s : State) (c b : Nat) (f : CanFrame) (hc : Kept s0 s) :
    Kept s0 (State.canSent s c b f) := by
  unfold State.canSent
  extract_lets z0 z1 z2 z3 z4 z5 z6
  try clear_value z0
  try clear_value z1
  have h2 : Kept s0 z2 := by repeat' first | (with_reducible first | assumption | apply kept_ite | apply State.setBufState_kept | apply State.setCan_kept) | simp only [kept_same] | dsimp only
  try clear_value z2
  have h3 : Kept s0 z3 := by repeat' first | (with_reducible first | assumption | apply kept_ite | apply State.canEvent_kept | apply State.setBuf_kept) | dsimp only
  try clear_value z3
  have h4 : Kept s0 z4 := by repeat' first | (with_reducible first | assumption | apply State.canCnt_kept | apply State.canEvent_kept | apply State.unitWrite_kept) | dsimp only
  try clear_value z4
  have h5 : Kept s0 z5 := by repeat' first | (with_reducible first | assumption | apply State.canCounters_kept | apply State.canHeard_kept) | dsimp only
  try clear_value z5
  have h6 : Kept s0 z6 := by repeat' first | (with_reducible first | assumption | apply kept_ite | apply State.canOffer_kept) | dsimp only
  try clear_value z6
  repeat' first | (with_reducible first | assumption | apply State.canIdle_kept) | dsimp only
@[simp] theorem State.canUnacked_kept {s0 : State} (s : State) (c b : Nat) (hc : Kept s0 s) :
    Kept s0 (State.canUnacked s c b) := by
  unfold State.canUnacked
  extract_lets z0 z1 z2
  try clear_value z0
  try clear_value z1
  have h2 : Kept s0 z2 := by repeat' first | (with_reducible first | assumption | apply kept_ite | apply State.canEvent_kept | apply State.canRetry_kept | apply State.canStatus_kept | apply State.cnt_kept | apply State.setBufState_kept | apply State.setCan_kept) | simp only [kept_same] | dsimp only
  try clear_value z2
  repeat' first | (with_reducible first | assumption | apply kept_ite | apply State.canEvent_kept | apply State.canRetry_kept | apply State.canStatus_kept | apply State.cnt_kept | apply State.setBufState_kept) | dsimp only
@[simp] theorem State.canAbort_kept {s0 : State} (s : State) (c b : Nat) (hc : Kept s0 s) :
    Kept s0 (State.canAbort s c b) := by
  unfold State.canAbort
  repeat' first | (with_reducible first | assumption | apply kept_ite | apply State.canEvent_kept | apply State.setBuf_kept | apply State.setBufState_kept | apply State.setCan_kept) | simp only [kept_same] | dsimp only
@[simp] theorem State.canLock_kept {s0 : State} (s : State) (c b : Nat) (hc : Kept s0 s) :
    Kept s0 (State.canLock s c b) := by
  unfold State.canLock
  extract_lets z0
  try clear_value z0
  repeat' first | (with_reducible first | assumption | apply kept_ite | apply State.setBuf_kept | apply State.setCan_kept) | simp only [kept_same] | dsimp only
@[simp] theorem State.canUnlock_kept {s0 : State} (s : State) (c b : Nat) (hc : Kept s0 s) :
    Kept s0 (State.canUnlock s c b) := by
  unfold State.canUnlock
  extract_lets z0
  try clear_value z0
  repeat' first | (with_reducible first | assumption | apply kept_ite | apply State.setBuf_kept | apply State.setBufState_kept | apply State.setCan_kept) | simp only [kept_same] | dsimp only
@[simp] theorem State.canPromoted_kept {s0 : State} (s : State) (c b : Nat) (hc : Kept s0 s) :
    Kept s0 (State.canPromoted s c b) := by
  unfold State.canPromoted
  extract_lets z0
  try clear_value z0
  repeat' first | (with_reducible first | assumption | apply kept_ite | apply State.canEvent_kept | apply State.canPut_kept | apply State.setBuf_kept | apply State.setBufState_kept | apply State.setCan_kept) | simp only [kept_same] | intro _ | dsimp only | split
@[simp] theorem State.canEach_kept {s0 : State} (s : State) (v : Nat) (f : State → Nat → State) (hf : ∀ s a0, Kept s0 s → Kept s0 (f s a0)) (hc : Kept s0 s) :
    Kept s0 (State.canEach s v f) := by
  unfold State.canEach
  repeat' first | (with_reducible first | assumption | apply kept_ite | (apply kept_foldl; intro _ _ _) | apply hf) | intro _ | dsimp only
@[simp] theorem State.canReset_kept {s0 : State} (s : State) (c : Nat) (hc : Kept s0 s) :
    Kept s0 (State.canReset s c) := by
  unfold State.canReset
  extract_lets z0 z1
  try clear_value z0
  have h1 : Kept s0 z1 := by repeat' first | (with_reducible first | assumption | apply State.dropSubs_kept | apply State.route_kept | apply State.setCan_kept | apply State.wr_kept) | dsimp only
  try clear_value z1
  repeat' first | (with_reducible first | assumption | apply State.dropSubs_kept) | dsimp only
theorem State.effCan_kept {s0 : State} (s : State) (i j v : Nat) {t1} (h : State.effCan s i j v = some t1) (hc : Kept s0 s) :
    Kept s0 t1 := by
  simp only [State.effCan] at h
  repeat' split at h
  all_goals first | (simp only [Option.some.injEq, reduceCtorEq] at h; done) | (simp only [Option.some.injEq] at h; subst h)
  all_goals first | (simp (maxDischargeDepth := 60) [*]; done) | (simp_all (maxDischargeDepth := 60); done)
@[simp] theorem State.engEvent_kept {s0 : State} (s : State) (e b : Nat) (hc : Kept s0 s) :
    Kept s0 (State.engEvent s e b) := by
  unfold State.engEvent
  repeat' first | (with_reducible first | assumption | apply State.event_kept) | dsimp only
@[simp] theorem State.setCoreState_kept {s0 : State} (s : State) (c v : Nat) (hc : Kept s0 s) :
    Kept s0 (State.setCoreState s c v) := by
  unfold State.setCoreState
  repeat' first | (with_reducible first | assumption | apply State.wr_kept) | dsimp only
@[simp] theorem State.setPc_kept {s0 : State} (s : State) (c v : Nat) (hc : Kept s0 s) :
    Kept s0 (State.setPc s c v) := by
  unfold State.setPc
  repeat' first | (with_reducible first | assumption | apply State.wr_kept) | dsimp only
@[simp] theorem State.haltPending_kept {s0 : State} (s : State) (e why : Nat) (hc : Kept s0 s) :
    Kept s0 (State.haltPending s e why) := by
  unfold State.haltPending
  repeat' first | (with_reducible first | assumption | apply kept_ite | apply State.setCoreState_kept | apply State.setEngine_kept) | simp only [kept_same] | dsimp only
@[simp] theorem State.doRun_kept {s0 : State} (s : State) (e : Nat) (hc : Kept s0 s) :
    Kept s0 (State.doRun s e) := by
  unfold State.doRun
  repeat' first | (with_reducible first | assumption | apply kept_ite | apply State.setCoreState_kept | apply State.setEngine_kept) | simp only [kept_same] | dsimp only
@[simp] theorem State.doHalt_kept {s0 : State} (s : State) (e : Nat) (hc : Kept s0 s) :
    Kept s0 (State.doHalt s e) := by
  unfold State.doHalt
  repeat' first | (with_reducible first | assumption | apply kept_ite | apply State.haltPending_kept) | dsimp only
@[simp] theorem State.doStep_kept {s0 : State} (s : State) (e : Nat) (hc : Kept s0 s) :
    Kept s0 (State.doStep s e) := by
  unfold State.doStep
  repeat' first | (with_reducible first | assumption | apply kept_ite | apply State.setCoreState_kept | apply State.setEngine_kept) | simp only [kept_same] | dsimp only
@[simp] theorem State.doLoad_kept {s0 : State} (s : State) (e : Nat) (hc : Kept s0 s) :
    Kept s0 (State.doLoad s e) := by
  unfold State.doLoad
  extract_lets z0
  try clear_value z0
  repeat' first | (with_reducible first | assumption | apply kept_ite | apply State.setCoreState_kept | apply State.wr_kept) | dsimp only
@[simp] theorem State.engCommand_kept {s0 : State} (s : State) (e v : Nat) (hc : Kept s0 s) :
    Kept s0 (State.engCommand s e v) := by
  unfold State.engCommand
  repeat' first | (with_reducible first | assumption | apply kept_ite | apply State.doHalt_kept | apply State.doLoad_kept | apply State.doRun_kept | apply State.doStep_kept) | dsimp only
@[simp] theorem State.halted_kept {s0 : State} (s : State) (e : Nat) (hc : Kept s0 s) :
    Kept s0 (State.halted s e) := by
  unfold State.halted
  repeat' first | (with_reducible first | assumption | apply State.engEvent_kept | apply State.setCoreState_kept | apply State.setEngine_kept | apply State.wr_kept) | simp only [kept_same] | dsimp only
@[simp] theorem State.showLibrary_kept {s0 : State} (s : State) (hc : Kept s0 s) :
    Kept s0 (State.showLibrary s) := by
  unfold State.showLibrary
  extract_lets z0 z1
  try clear_value z0
  try clear_value z1
  repeat' first | (with_reducible first | assumption | apply State.wr_kept) | dsimp only
@[simp] theorem State.libraryStart_kept {s0 : State} (s : State) (install : Bool) (master : Nat) (hc : Kept s0 s) :
    Kept s0 (State.libraryStart s install master) := by
  unfold State.libraryStart
  repeat' first | (with_reducible first | assumption | apply State.wr_kept) | simp only [kept_same] | dsimp only
@[simp] theorem State.installDone_kept {s0 : State} (s : State) (master : Nat) (signed : Bool) (hc : Kept s0 s) :
    Kept s0 (State.installDone s master signed) := by
  unfold State.installDone
  extract_lets z0 z1
  try clear_value z0
  try clear_value z1
  repeat' first | (with_reducible first | assumption | apply kept_ite | apply State.record_kept | apply State.setBytes_kept | apply State.showLibrary_kept | apply State.wr_kept) | simp only [kept_same] | intro _ | dsimp only | split
@[simp] theorem State.removeDone_kept {s0 : State} (s : State) (master : Nat) (hc : Kept s0 s) :
    Kept s0 (State.removeDone s master) := by
  unfold State.removeDone
  extract_lets z0
  try clear_value z0
  repeat' first | (with_reducible first | assumption | apply kept_ite | apply State.dropSubs_kept | apply State.record_kept | apply State.showLibrary_kept | apply State.wr_kept) | simp only [kept_same] | intro _ | dsimp only | split
@[simp] theorem State.loadFailed_kept {s0 : State} (s : State) (e st : Nat) (hc : Kept s0 s) :
    Kept s0 (State.loadFailed s e st) := by
  unfold State.loadFailed
  repeat' first | (with_reducible first | assumption | apply State.event_kept | apply State.record_kept | apply State.setCoreState_kept | apply State.wr_kept) | dsimp only
@[simp] theorem State.loadGood_kept {s0 : State} (s : State) (e d : Nat) (hc : Kept s0 s) :
    Kept s0 (State.loadGood s e d) := by
  unfold State.loadGood
  extract_lets z0 z1 z2 z3 z4 z5 z6 z7 z8
  try clear_value z0
  try clear_value z1
  try clear_value z2
  try clear_value z3
  have h4 : Kept s0 z4 := by repeat' first | (with_reducible first | assumption | apply State.setBytes_kept | apply State.zeroRange_kept) | dsimp only
  try clear_value z4
  try clear_value z5
  have h6 : Kept s0 z6 := by simp only [z6]; repeat' first | (with_reducible first | assumption | apply kept_ite | apply State.event_kept | apply State.setBytes_kept | apply State.setCoreState_kept | apply State.setEngine_kept | apply State.setPc_kept | apply State.wr_kept | apply State.zeroRange_kept) | simp only [kept_same] | dsimp only
  try clear_value z6
  have h7 : Kept s0 z7 := by repeat' first | (with_reducible first | assumption | apply kept_ite | apply State.event_kept | apply State.setBytes_kept | apply State.setCoreState_kept | apply State.setEngine_kept | apply State.setPc_kept | apply State.wr_kept | apply State.zeroRange_kept) | simp only [kept_same] | dsimp only
  try clear_value z7
  try clear_value z8
  repeat' first | (with_reducible first | assumption | apply kept_ite | apply State.event_kept | apply State.setBytes_kept | apply State.setCoreState_kept | apply State.setEngine_kept | apply State.setPc_kept | apply State.wr_kept | apply State.zeroRange_kept) | simp only [kept_same] | dsimp only
@[simp] theorem State.loadDone_kept {s0 : State} (s : State) (e : Nat) (signed digestOk : Bool) (hc : Kept s0 s) :
    Kept s0 (State.loadDone s e signed digestOk) := by
  unfold State.loadDone
  repeat' first | (with_reducible first | assumption | apply kept_ite | apply State.loadFailed_kept | apply State.loadGood_kept | apply State.wr_kept) | simp only [kept_same] | dsimp only | split
@[simp] theorem State.dbeRestart_kept {s0 : State} (s : State) (f : Nat) (hc : Kept s0 s) :
    Kept s0 (State.dbeRestart s f) := by
  unfold State.dbeRestart
  extract_lets z0 z1 z2
  try clear_value z0
  try clear_value z1
  have h2 : Kept s0 z2 := by repeat' first | (with_reducible first | assumption | (apply kept_foldl; intro _ _ _) | apply State.wrD_kept) | intro _ | dsimp only
  try clear_value z2
  repeat' first | (with_reducible first | assumption | apply kept_ite | (apply kept_foldl; intro _ _ _) | apply State.setCoreState_kept | apply State.setEngine_kept) | simp only [kept_same] | intro _ | dsimp only
@[simp] theorem State.holdRelease_kept {s0 : State} (s : State) (odds : Nat) (hc : Kept s0 s) :
    Kept s0 (State.holdRelease s odds) := by
  unfold State.holdRelease
  repeat' first | (with_reducible first | assumption | apply kept_ite | apply State.cnt_kept | apply State.disarm_kept | apply State.event_kept | apply State.wr_kept) | dsimp only
@[simp] theorem State.holdAck_kept {s0 : State} (s : State) (v : Nat) (hc : Kept s0 s) :
    Kept s0 (State.holdAck s v) := by
  unfold State.holdAck
  extract_lets z0 z1
  try clear_value z0
  try clear_value z1
  repeat' first | (with_reducible first | assumption | apply State.unhold_kept) | dsimp only
@[simp] theorem State.dropVolatile_kept {s0 : State} (s : State) (lo hi : Nat) (hc : Kept s0 s) :
    Kept s0 (State.dropVolatile s lo hi) := by
  unfold State.dropVolatile
  repeat' first | (with_reducible first | assumption | apply kept_od | apply kept_odClear | apply kept_odKeep) | simp only [kept_same] | intro _ | dsimp only | split
@[simp] theorem State.portReset_kept {s0 : State} (s : State) (p : Nat) (hc : Kept s0 s) :
    Kept s0 (State.portReset s p) := by
  unfold State.portReset
  extract_lets z0 z1 z2
  have h0 : Kept s0 z0 := by repeat' first | (with_reducible first | assumption | apply State.flushStation_kept | apply State.linkDown_kept) | dsimp only
  try clear_value z0
  have h1 : Kept s0 z1 := by repeat' first | (with_reducible first | assumption | apply kept_ite | (apply kept_foldl; intro _ _ _) | apply State.wr_kept) | intro _ | dsimp only
  try clear_value z1
  have h2 : Kept s0 z2 := by repeat' first | (with_reducible first | assumption | apply State.dropVolatile_kept | apply State.route_kept) | dsimp only
  try clear_value z2
  repeat' first | (with_reducible first | assumption | apply State.applyLinkCfg_kept | apply State.applyRxCfg_kept | apply State.applyTxCfg_kept | apply State.chordsFollow_kept | apply State.setPort_kept) | dsimp only
@[simp] theorem State.ringReset_kept {s0 : State} (s : State) (n : Nat) (hc : Kept s0 s) :
    Kept s0 (State.ringReset s n) := by
  unfold State.ringReset
  extract_lets z0 z1 z2 z3
  try clear_value z0
  have h1 : Kept s0 z1 := by repeat' first | (with_reducible first | assumption | apply State.perOff_kept) | dsimp only
  try clear_value z1
  have h2 : Kept s0 z2 := by repeat' first | (with_reducible first | assumption | (apply kept_foldl; intro _ _ _) | apply State.dropVolatile_kept) | intro _ | dsimp only
  try clear_value z2
  have h3 : Kept s0 z3 := by repeat' first | (with_reducible first | assumption | apply State.dropVolatile_kept) | dsimp only
  try clear_value z3
  repeat' first | (with_reducible first | assumption | apply State.route_kept | apply State.setRing_kept) | intro _ | dsimp only
@[simp] theorem State.pioReset_kept {s0 : State} (s : State) (b : Nat) (hc : Kept s0 s) :
    Kept s0 (State.pioReset s b) := by
  unfold State.pioReset
  extract_lets z0 z1 z2 z3 z4
  have h0 : Kept s0 z0 := by repeat' first | (with_reducible first | assumption | apply kept_ite | (apply kept_foldl; intro _ _ _) | apply State.dmaStop_kept) | intro _ | dsimp only
  try clear_value z0
  try clear_value z1
  have h2 : Kept s0 z2 := by repeat' first | (with_reducible first | assumption | apply State.dropVolatile_kept) | dsimp only
  try clear_value z2
  have h3 : Kept s0 z3 := by repeat' first | (with_reducible first | assumption | apply State.dropVolatile_kept) | dsimp only
  try clear_value z3
  have h4 : Kept s0 z4 := by simp only [z4]; repeat' first | (with_reducible first | assumption) | simp only [kept_same] | dsimp only
  try clear_value z4
  repeat' first | (with_reducible first | assumption | apply State.pioShow_kept | apply State.route_kept | apply State.setPio_kept) | dsimp only
@[simp] theorem State.locusReset_kept {s0 : State} (s : State) (hc : Kept s0 s) :
    Kept s0 (State.locusReset s) := by
  unfold State.locusReset
  extract_lets z0
  have h0 : Kept s0 z0 := by repeat' first | (with_reducible first | assumption | apply State.dropVolatile_kept) | dsimp only
  try clear_value z0
  repeat' first | (with_reducible first | assumption | apply State.route_kept) | simp only [kept_same] | dsimp only
@[simp] theorem State.switchReset_kept {s0 : State} (s : State) (hc : Kept s0 s) :
    Kept s0 (State.switchReset s) := by
  unfold State.switchReset
  extract_lets z0 z1 z2
  have h0 : Kept s0 z0 := by repeat' first | (with_reducible first | assumption | apply State.dropVolatile_kept) | dsimp only
  try clear_value z0
  have h1 : Kept s0 z1 := by repeat' first | (with_reducible first | assumption | apply State.switchClear_kept) | dsimp only
  try clear_value z1
  have h2 : Kept s0 z2 := by repeat' first | (with_reducible first | assumption | apply State.setSw_kept) | simp only [kept_same] | intro _ | dsimp only
  try clear_value z2
  repeat' first | (with_reducible first | assumption | apply kept_ite | (apply kept_foldl; intro _ _ _) | apply State.route_kept) | intro _ | dsimp only
@[simp] theorem State.domainReset_kept {s0 : State} (s : State) (d : Nat) (hc : Kept s0 s) :
    Kept s0 (State.domainReset s d) := by
  unfold State.domainReset
  extract_lets z0 z1 z2 z3 z4 z5 z6
  try clear_value z0
  try clear_value z1
  have h2 : Kept s0 z2 := by repeat' first | (with_reducible first | assumption | apply State.dropVolatile_kept) | dsimp only
  try clear_value z2
  have h3 : Kept s0 z3 := by repeat' first | (with_reducible first | assumption | apply State.dropSubs_kept | apply State.setDomVal_kept | apply State.wr_kept) | dsimp only
  try clear_value z3
  have h4 : Kept s0 z4 := by repeat' first | (with_reducible first | assumption | apply State.dropVolatile_kept | apply State.setTdom_kept) | dsimp only
  try clear_value z4
  have h5 : Kept s0 z5 := by repeat' first | (with_reducible first | assumption | apply kept_ite | (apply kept_foldl; intro _ _ _) | apply State.clrBits_kept | apply State.dropSubs_kept | apply State.ppsRest_kept) | intro _ | dsimp only
  try clear_value z5
  have h6 : Kept s0 z6 := by repeat' first | (with_reducible first | assumption | apply kept_ite | (apply kept_foldl; intro _ _ _) | apply State.launchOff_kept) | intro _ | dsimp only
  try clear_value z6
  repeat' first | (with_reducible first | assumption | apply State.unsync_kept) | dsimp only
@[simp] theorem State.blockReset_kept {s0 : State} (s : State) (master kind unit : Nat) (hc : Kept s0 s) :
    Kept s0 (State.blockReset s master kind unit) := by
  unfold State.blockReset
  repeat' first | (with_reducible first | assumption | apply kept_ite | apply State.canReset_kept | apply State.domainReset_kept | apply State.engineReset_kept | apply State.facetReset_kept | apply State.locusReset_kept | apply State.noteBlockReset_kept | apply State.pioReset_kept | apply State.portReset_kept | apply State.ringReset_kept | apply State.switchReset_kept) | dsimp only
@[simp] theorem State.blockResets_kept {s0 : State} (s : State) (master sub v : Nat) (hc : Kept s0 s) :
    Kept s0 (State.blockResets s master sub v) := by
  unfold State.blockResets
  repeat' first | (with_reducible first | assumption | apply kept_ite | (apply kept_foldl; intro _ _ _) | apply State.blockReset_kept) | simp only [kept_same] | intro _ | dsimp only | split
@[simp] theorem State.blockReleased_kept {s0 : State} (s : State) (sub b : Nat) (hc : Kept s0 s) :
    Kept s0 (State.blockReleased s sub b) := by
  unfold State.blockReleased
  repeat' first | (with_reducible first | assumption | apply kept_ite | apply State.clrBits_kept | apply State.event_kept) | dsimp only
@[simp] theorem State.wiped_kept {s0 : State} (s : State) (reach : Nat) (hc : Kept s0 s) :
    Kept s0 (State.wiped s reach) := by
  unfold State.wiped
  extract_lets z0 z1 z2
  try clear_value z0
  have h1 : Kept s0 z1 := by repeat' first | (with_reducible first | assumption | apply kept_ite | (apply kept_foldl; intro _ _ _) | apply State.errBit_kept | apply State.setRing_kept | apply State.showLibrary_kept | apply State.wr_kept | apply kept_od | apply kept_odClear | apply kept_odKeep | apply kept_mem | apply kept_memClear | apply kept_keepBoth | apply kept_out | apply kept_free | apply kept_ticks) | simp only [kept_same] | intro _ | dsimp only
  try clear_value z1
  have h2 : Kept s0 z2 := by repeat' first | (with_reducible first | assumption | apply kept_ite | (apply kept_foldl; intro _ _ _) | apply State.errBit_kept | apply State.setRing_kept | apply State.showLibrary_kept | apply State.wr_kept | apply kept_od | apply kept_odClear | apply kept_odKeep | apply kept_mem | apply kept_memClear | apply kept_keepBoth | apply kept_out | apply kept_free | apply kept_ticks) | simp only [kept_same] | intro _ | dsimp only
  try clear_value z2
  repeat' first | (with_reducible first | assumption | apply State.errBit_kept | apply State.showLibrary_kept | apply State.wr_kept) | dsimp only
@[simp] theorem State.beginStart_kept {s0 : State} (s : State) (hc : Kept s0 s) : Kept s0 (State.beginStart s) := by
  unfold State.beginStart; extract_lets z0 z1 z2 z3 z4 z5 z6; (try (first | (have : Kept s0 z0 := by (first | ((repeat' (first | with_reducible assumption | with_reducible apply kept_ite | with_reducible apply kept_ite2 | with_reducible apply kept_ite3 | with_reducible apply kept_ite4 | (with_reducible apply kept_foldl; intro _ _ _) | with_reducible apply State.cntS_kept | with_reducible apply State.event_kept | with_reducible apply State.record_kept | with_reducible apply State.unsync_kept | simp only [kept_same] | intro _ | dsimp only | split)); done) | ((try dsimp only); (repeat' (first | with_reducible assumption | with_reducible apply kept_ite | with_reducible apply kept_ite2 | with_reducible apply kept_ite3 | with_reducible apply kept_ite4 | (with_reducible apply kept_foldl; intro _ _ _) | with_reducible apply State.cntS_kept | with_reducible apply State.event_kept | with_reducible apply State.record_kept | with_reducible apply State.unsync_kept | simp only [kept_same] | intro _ | dsimp only | split)); done) | (simp only [z0]; (repeat' (first | with_reducible assumption | with_reducible apply kept_ite | with_reducible apply kept_ite2 | with_reducible apply kept_ite3 | with_reducible apply kept_ite4 | (with_reducible apply kept_foldl; intro _ _ _) | with_reducible apply State.cntS_kept | with_reducible apply State.event_kept | with_reducible apply State.record_kept | with_reducible apply State.unsync_kept | simp only [kept_same] | intro _ | dsimp only | split)); done))) | (have : Kept s0 z0.2 := by ((try dsimp only); (repeat' (first | with_reducible assumption | with_reducible apply kept_ite | with_reducible apply kept_ite2 | with_reducible apply kept_ite3 | with_reducible apply kept_ite4 | (with_reducible apply kept_foldl; intro _ _ _) | with_reducible apply State.cntS_kept | with_reducible apply State.event_kept | with_reducible apply State.record_kept | with_reducible apply State.unsync_kept | simp only [kept_same] | intro _ | dsimp only | split)); done)) | (have : Kept s0 z0.2.2 := by ((try dsimp only); (repeat' (first | with_reducible assumption | with_reducible apply kept_ite | with_reducible apply kept_ite2 | with_reducible apply kept_ite3 | with_reducible apply kept_ite4 | (with_reducible apply kept_foldl; intro _ _ _) | with_reducible apply State.cntS_kept | with_reducible apply State.event_kept | with_reducible apply State.record_kept | with_reducible apply State.unsync_kept | simp only [kept_same] | intro _ | dsimp only | split)); done)))); (try clear_value z0); (try (first | (have : Kept s0 z1 := by (first | ((repeat' (first | with_reducible assumption | with_reducible apply kept_ite | with_reducible apply kept_ite2 | with_reducible apply kept_ite3 | with_reducible apply kept_ite4 | (with_reducible apply kept_foldl; intro _ _ _) | with_reducible apply State.cntS_kept | with_reducible apply State.event_kept | with_reducible apply State.record_kept | with_reducible apply State.unsync_kept | simp only [kept_same] | intro _ | dsimp only | split)); done) | ((try dsimp only); (repeat' (first | with_reducible assumption | with_reducible apply kept_ite | with_reducible apply kept_ite2 | with_reducible apply kept_ite3 | with_reducible apply kept_ite4 | (with_reducible apply kept_foldl; intro _ _ _) | with_reducible apply State.cntS_kept | with_reducible apply State.event_kept | with_reducible apply State.record_kept | with_reducible apply State.unsync_kept | simp only [kept_same] | intro _ | dsimp only | split)); done) | (simp only [z1]; (repeat' (first | with_reducible assumption | with_reducible apply kept_ite | with_reducible apply kept_ite2 | with_reducible apply kept_ite3 | with_reducible apply kept_ite4 | (with_reducible apply kept_foldl; intro _ _ _) | with_reducible apply State.cntS_kept | with_reducible apply State.event_kept | with_reducible apply State.record_kept | with_reducible apply State.unsync_kept | simp only [kept_same] | intro _ | dsimp only | split)); done))) | (have : Kept s0 z1.2 := by ((try dsimp only); (repeat' (first | with_reducible assumption | with_reducible apply kept_ite | with_reducible apply kept_ite2 | with_reducible apply kept_ite3 | with_reducible apply kept_ite4 | (with_reducible apply kept_foldl; intro _ _ _) | with_reducible apply State.cntS_kept | with_reducible apply State.event_kept | with_reducible apply State.record_kept | with_reducible apply State.unsync_kept | simp only [kept_same] | intro _ | dsimp only | split)); done)) | (have : Kept s0 z1.2.2 := by ((try dsimp only); (repeat' (first | with_reducible assumption | with_reducible apply kept_ite | with_reducible apply kept_ite2 | with_reducible apply kept_ite3 | with_reducible apply kept_ite4 | (with_reducible apply kept_foldl; intro _ _ _) | with_reducible apply State.cntS_kept | with_reducible apply State.event_kept | with_reducible apply State.record_kept | with_reducible apply State.unsync_kept | simp only [kept_same] | intro _ | dsimp only | split)); done)))); (try clear_value z1); (try (first | (have : Kept s0 z2 := by (first | ((repeat' (first | with_reducible assumption | with_reducible apply kept_ite | with_reducible apply kept_ite2 | with_reducible apply kept_ite3 | with_reducible apply kept_ite4 | (with_reducible apply kept_foldl; intro _ _ _) | with_reducible apply State.cntS_kept | with_reducible apply State.event_kept | with_reducible apply State.record_kept | with_reducible apply State.unsync_kept | simp only [kept_same] | intro _ | dsimp only | split)); done) | ((try dsimp only); (repeat' (first | with_reducible assumption | with_reducible apply kept_ite | with_reducible apply kept_ite2 | with_reducible apply kept_ite3 | with_reducible apply kept_ite4 | (with_reducible apply kept_foldl; intro _ _ _) | with_reducible apply State.cntS_kept | with_reducible apply State.event_kept | with_reducible apply State.record_kept | with_reducible apply State.unsync_kept | simp only [kept_same] | intro _ | dsimp only | split)); done) | (simp only [z2]; (repeat' (first | with_reducible assumption | with_reducible apply kept_ite | with_reducible apply kept_ite2 | with_reducible apply kept_ite3 | with_reducible apply kept_ite4 | (with_reducible apply kept_foldl; intro _ _ _) | with_reducible apply State.cntS_kept | with_reducible apply State.event_kept | with_reducible apply State.record_kept | with_reducible apply State.unsync_kept | simp only [kept_same] | intro _ | dsimp only | split)); done))) | (have : Kept s0 z2.2 := by ((try dsimp only); (repeat' (first | with_reducible assumption | with_reducible apply kept_ite | with_reducible apply kept_ite2 | with_reducible apply kept_ite3 | with_reducible apply kept_ite4 | (with_reducible apply kept_foldl; intro _ _ _) | with_reducible apply State.cntS_kept | with_reducible apply State.event_kept | with_reducible apply State.record_kept | with_reducible apply State.unsync_kept | simp only [kept_same] | intro _ | dsimp only | split)); done)) | (have : Kept s0 z2.2.2 := by ((try dsimp only); (repeat' (first | with_reducible assumption | with_reducible apply kept_ite | with_reducible apply kept_ite2 | with_reducible apply kept_ite3 | with_reducible apply kept_ite4 | (with_reducible apply kept_foldl; intro _ _ _) | with_reducible apply State.cntS_kept | with_reducible apply State.event_kept | with_reducible apply State.record_kept | with_reducible apply State.unsync_kept | simp only [kept_same] | intro _ | dsimp only | split)); done)))); (try clear_value z2); (try (first | (have : Kept s0 z3 := by (first | ((repeat' (first | with_reducible assumption | with_reducible apply kept_ite | with_reducible apply kept_ite2 | with_reducible apply kept_ite3 | with_reducible apply kept_ite4 | (with_reducible apply kept_foldl; intro _ _ _) | with_reducible apply State.cntS_kept | with_reducible apply State.event_kept | with_reducible apply State.record_kept | with_reducible apply State.unsync_kept | simp only [kept_same] | intro _ | dsimp only | split)); done) | ((try dsimp only); (repeat' (first | with_reducible assumption | with_reducible apply kept_ite | with_reducible apply kept_ite2 | with_reducible apply kept_ite3 | with_reducible apply kept_ite4 | (with_reducible apply kept_foldl; intro _ _ _) | with_reducible apply State.cntS_kept | with_reducible apply State.event_kept | with_reducible apply State.record_kept | with_reducible apply State.unsync_kept | simp only [kept_same] | intro _ | dsimp only | split)); done) | (simp only [z3]; (repeat' (first | with_reducible assumption | with_reducible apply kept_ite | with_reducible apply kept_ite2 | with_reducible apply kept_ite3 | with_reducible apply kept_ite4 | (with_reducible apply kept_foldl; intro _ _ _) | with_reducible apply State.cntS_kept | with_reducible apply State.event_kept | with_reducible apply State.record_kept | with_reducible apply State.unsync_kept | simp only [kept_same] | intro _ | dsimp only | split)); done))) | (have : Kept s0 z3.2 := by ((try dsimp only); (repeat' (first | with_reducible assumption | with_reducible apply kept_ite | with_reducible apply kept_ite2 | with_reducible apply kept_ite3 | with_reducible apply kept_ite4 | (with_reducible apply kept_foldl; intro _ _ _) | with_reducible apply State.cntS_kept | with_reducible apply State.event_kept | with_reducible apply State.record_kept | with_reducible apply State.unsync_kept | simp only [kept_same] | intro _ | dsimp only | split)); done)) | (have : Kept s0 z3.2.2 := by ((try dsimp only); (repeat' (first | with_reducible assumption | with_reducible apply kept_ite | with_reducible apply kept_ite2 | with_reducible apply kept_ite3 | with_reducible apply kept_ite4 | (with_reducible apply kept_foldl; intro _ _ _) | with_reducible apply State.cntS_kept | with_reducible apply State.event_kept | with_reducible apply State.record_kept | with_reducible apply State.unsync_kept | simp only [kept_same] | intro _ | dsimp only | split)); done)))); (try clear_value z3); (try (first | (have : Kept s0 z4 := by (first | ((repeat' (first | with_reducible assumption | with_reducible apply kept_ite | with_reducible apply kept_ite2 | with_reducible apply kept_ite3 | with_reducible apply kept_ite4 | (with_reducible apply kept_foldl; intro _ _ _) | with_reducible apply State.cntS_kept | with_reducible apply State.event_kept | with_reducible apply State.record_kept | with_reducible apply State.unsync_kept | simp only [kept_same] | intro _ | dsimp only | split)); done) | ((try dsimp only); (repeat' (first | with_reducible assumption | with_reducible apply kept_ite | with_reducible apply kept_ite2 | with_reducible apply kept_ite3 | with_reducible apply kept_ite4 | (with_reducible apply kept_foldl; intro _ _ _) | with_reducible apply State.cntS_kept | with_reducible apply State.event_kept | with_reducible apply State.record_kept | with_reducible apply State.unsync_kept | simp only [kept_same] | intro _ | dsimp only | split)); done) | (simp only [z4]; (repeat' (first | with_reducible assumption | with_reducible apply kept_ite | with_reducible apply kept_ite2 | with_reducible apply kept_ite3 | with_reducible apply kept_ite4 | (with_reducible apply kept_foldl; intro _ _ _) | with_reducible apply State.cntS_kept | with_reducible apply State.event_kept | with_reducible apply State.record_kept | with_reducible apply State.unsync_kept | simp only [kept_same] | intro _ | dsimp only | split)); done))) | (have : Kept s0 z4.2 := by ((try dsimp only); (repeat' (first | with_reducible assumption | with_reducible apply kept_ite | with_reducible apply kept_ite2 | with_reducible apply kept_ite3 | with_reducible apply kept_ite4 | (with_reducible apply kept_foldl; intro _ _ _) | with_reducible apply State.cntS_kept | with_reducible apply State.event_kept | with_reducible apply State.record_kept | with_reducible apply State.unsync_kept | simp only [kept_same] | intro _ | dsimp only | split)); done)) | (have : Kept s0 z4.2.2 := by ((try dsimp only); (repeat' (first | with_reducible assumption | with_reducible apply kept_ite | with_reducible apply kept_ite2 | with_reducible apply kept_ite3 | with_reducible apply kept_ite4 | (with_reducible apply kept_foldl; intro _ _ _) | with_reducible apply State.cntS_kept | with_reducible apply State.event_kept | with_reducible apply State.record_kept | with_reducible apply State.unsync_kept | simp only [kept_same] | intro _ | dsimp only | split)); done)))); (try clear_value z4); (try (first | (have : Kept s0 z5 := by (first | ((repeat' (first | with_reducible assumption | with_reducible apply kept_ite | with_reducible apply kept_ite2 | with_reducible apply kept_ite3 | with_reducible apply kept_ite4 | (with_reducible apply kept_foldl; intro _ _ _) | with_reducible apply State.cntS_kept | with_reducible apply State.event_kept | with_reducible apply State.record_kept | with_reducible apply State.unsync_kept | simp only [kept_same] | intro _ | dsimp only | split)); done) | ((try dsimp only); (repeat' (first | with_reducible assumption | with_reducible apply kept_ite | with_reducible apply kept_ite2 | with_reducible apply kept_ite3 | with_reducible apply kept_ite4 | (with_reducible apply kept_foldl; intro _ _ _) | with_reducible apply State.cntS_kept | with_reducible apply State.event_kept | with_reducible apply State.record_kept | with_reducible apply State.unsync_kept | simp only [kept_same] | intro _ | dsimp only | split)); done) | (simp only [z5]; (repeat' (first | with_reducible assumption | with_reducible apply kept_ite | with_reducible apply kept_ite2 | with_reducible apply kept_ite3 | with_reducible apply kept_ite4 | (with_reducible apply kept_foldl; intro _ _ _) | with_reducible apply State.cntS_kept | with_reducible apply State.event_kept | with_reducible apply State.record_kept | with_reducible apply State.unsync_kept | simp only [kept_same] | intro _ | dsimp only | split)); done))) | (have : Kept s0 z5.2 := by ((try dsimp only); (repeat' (first | with_reducible assumption | with_reducible apply kept_ite | with_reducible apply kept_ite2 | with_reducible apply kept_ite3 | with_reducible apply kept_ite4 | (with_reducible apply kept_foldl; intro _ _ _) | with_reducible apply State.cntS_kept | with_reducible apply State.event_kept | with_reducible apply State.record_kept | with_reducible apply State.unsync_kept | simp only [kept_same] | intro _ | dsimp only | split)); done)) | (have : Kept s0 z5.2.2 := by ((try dsimp only); (repeat' (first | with_reducible assumption | with_reducible apply kept_ite | with_reducible apply kept_ite2 | with_reducible apply kept_ite3 | with_reducible apply kept_ite4 | (with_reducible apply kept_foldl; intro _ _ _) | with_reducible apply State.cntS_kept | with_reducible apply State.event_kept | with_reducible apply State.record_kept | with_reducible apply State.unsync_kept | simp only [kept_same] | intro _ | dsimp only | split)); done)))); (try clear_value z5); (try (first | (have : Kept s0 z6 := by (first | ((repeat' (first | with_reducible assumption | with_reducible apply kept_ite | with_reducible apply kept_ite2 | with_reducible apply kept_ite3 | with_reducible apply kept_ite4 | (with_reducible apply kept_foldl; intro _ _ _) | with_reducible apply State.cntS_kept | with_reducible apply State.event_kept | with_reducible apply State.record_kept | with_reducible apply State.unsync_kept | simp only [kept_same] | intro _ | dsimp only | split)); done) | ((try dsimp only); (repeat' (first | with_reducible assumption | with_reducible apply kept_ite | with_reducible apply kept_ite2 | with_reducible apply kept_ite3 | with_reducible apply kept_ite4 | (with_reducible apply kept_foldl; intro _ _ _) | with_reducible apply State.cntS_kept | with_reducible apply State.event_kept | with_reducible apply State.record_kept | with_reducible apply State.unsync_kept | simp only [kept_same] | intro _ | dsimp only | split)); done) | (simp only [z6]; (repeat' (first | with_reducible assumption | with_reducible apply kept_ite | with_reducible apply kept_ite2 | with_reducible apply kept_ite3 | with_reducible apply kept_ite4 | (with_reducible apply kept_foldl; intro _ _ _) | with_reducible apply State.cntS_kept | with_reducible apply State.event_kept | with_reducible apply State.record_kept | with_reducible apply State.unsync_kept | simp only [kept_same] | intro _ | dsimp only | split)); done))) | (have : Kept s0 z6.2 := by ((try dsimp only); (repeat' (first | with_reducible assumption | with_reducible apply kept_ite | with_reducible apply kept_ite2 | with_reducible apply kept_ite3 | with_reducible apply kept_ite4 | (with_reducible apply kept_foldl; intro _ _ _) | with_reducible apply State.cntS_kept | with_reducible apply State.event_kept | with_reducible apply State.record_kept | with_reducible apply State.unsync_kept | simp only [kept_same] | intro _ | dsimp only | split)); done)) | (have : Kept s0 z6.2.2 := by ((try dsimp only); (repeat' (first | with_reducible assumption | with_reducible apply kept_ite | with_reducible apply kept_ite2 | with_reducible apply kept_ite3 | with_reducible apply kept_ite4 | (with_reducible apply kept_foldl; intro _ _ _) | with_reducible apply State.cntS_kept | with_reducible apply State.event_kept | with_reducible apply State.record_kept | with_reducible apply State.unsync_kept | simp only [kept_same] | intro _ | dsimp only | split)); done)))); (try clear_value z6); (try dsimp only); (repeat' (first | with_reducible assumption | with_reducible apply kept_ite | with_reducible apply kept_ite2 | with_reducible apply kept_ite3 | with_reducible apply kept_ite4 | (with_reducible apply kept_foldl; intro _ _ _) | with_reducible apply State.cntS_kept | with_reducible apply State.event_kept | with_reducible apply State.record_kept | with_reducible apply State.unsync_kept | simp only [kept_same] | intro _ | dsimp only | split))
@[simp] theorem State.tryStart_kept {s0 : State} (s : State) (hc : Kept s0 s) :
    Kept s0 (State.tryStart s) := by
  unfold State.tryStart
  repeat' first | (with_reducible first | assumption | apply kept_ite | apply State.beginStart_kept) | dsimp only
@[simp] theorem State.deviceReset_kept {s0 : State} (s : State) (code bits : Nat) (f : Power → Power) (hc : Kept s0 s) :
    Kept s0 (State.deviceReset s code bits f) := by
  unfold State.deviceReset
  extract_lets z0 z1 z2 z3 z4
  try clear_value z0
  try clear_value z1
  try clear_value z2
  try clear_value z3
  have h4 : Kept s0 z4 := by simp only [z4]; repeat' first | (with_reducible first | assumption | apply kept_ite | apply State.setBits_kept | apply State.tryStart_kept | apply State.wiped_kept | apply State.wr_kept) | simp only [kept_same] | dsimp only
  try clear_value z4
  repeat' first | (with_reducible first | assumption | apply kept_ite | apply State.setBits_kept | apply State.tryStart_kept | apply State.wiped_kept | apply State.wr_kept) | simp only [kept_same] | dsimp only
@[simp] theorem State.integrityReset_kept {s0 : State} (s : State) (detail addr : Nat) (hc : Kept s0 s) :
    Kept s0 (State.integrityReset s detail addr) := by
  unfold State.integrityReset
  extract_lets z0 z1 z2 z3
  try clear_value z0
  try clear_value z1
  try clear_value z2
  have h3 : Kept s0 z3 := by simp only [z3]; repeat' first | (with_reducible first | assumption | apply kept_ite | apply State.setBits_kept | apply State.tryStart_kept | apply State.wiped_kept | apply State.wr_kept) | simp only [kept_same] | dsimp only
  try clear_value z3
  repeat' first | (with_reducible first | assumption | apply State.setBits_kept | apply State.tryStart_kept | apply State.wiped_kept | apply State.wr_kept) | dsimp only
@[simp] theorem State.rimLost_kept {s0 : State} (s : State) (hc : Kept s0 s) :
    Kept s0 (State.rimLost s) := by
  unfold State.rimLost
  extract_lets z0 z1 z2 z3 z4
  try clear_value z0
  have h1 : Kept s0 z1 := by simp only [z1]; repeat' first | (with_reducible first | assumption | apply kept_ite | (apply kept_foldl; intro _ _ _) | apply State.event_kept | apply State.hold_kept | apply State.perOff_kept | apply State.record_kept | apply State.unsync_kept) | simp only [kept_same] | intro _ | dsimp only
  try clear_value z1
  have h2 : Kept s0 z2 := by repeat' first | (with_reducible first | assumption | apply kept_ite | (apply kept_foldl; intro _ _ _) | apply State.event_kept | apply State.hold_kept | apply State.perOff_kept | apply State.record_kept | apply State.unsync_kept) | simp only [kept_same] | intro _ | dsimp only
  try clear_value z2
  have h3 : Kept s0 z3 := by repeat' first | (with_reducible first | assumption | apply kept_ite | (apply kept_foldl; intro _ _ _) | apply State.event_kept | apply State.hold_kept | apply State.perOff_kept | apply State.record_kept | apply State.unsync_kept) | simp only [kept_same] | intro _ | dsimp only
  try clear_value z3
  try clear_value z4
  repeat' first | (with_reducible first | assumption | apply kept_ite | (apply kept_foldl; intro _ _ _) | apply State.event_kept | apply State.hold_kept | apply State.perOff_kept | apply State.record_kept | apply State.unsync_kept) | simp only [kept_same] | intro _ | dsimp only
@[simp] theorem State.sleepRefused_kept {s0 : State} (s : State) (hc : Kept s0 s) :
    Kept s0 (State.sleepRefused s) := by
  unfold State.sleepRefused
  repeat' first | (with_reducible first | assumption | apply State.cnt_kept | apply State.event_kept) | dsimp only
@[simp] theorem State.quietDown_kept {s0 : State} (s : State) (hc : Kept s0 s) :
    Kept s0 (State.quietDown s) := by
  unfold State.quietDown
  extract_lets z0 z1
  have h0 : Kept s0 z0 := by repeat' first | (with_reducible first | assumption | apply kept_ite | (apply kept_foldl; intro _ _ _) | apply State.setTrack_kept | apply State.setTrkS_kept) | simp only [kept_same] | intro _ | dsimp only
  try clear_value z0
  have h1 : Kept s0 z1 := by repeat' first | (with_reducible first | assumption | apply kept_ite | (apply kept_foldl; intro _ _ _) | apply State.perOff_kept) | intro _ | dsimp only
  try clear_value z1
  repeat' first | (with_reducible first | assumption | apply kept_ite | (apply kept_foldl; intro _ _ _) | apply State.haltPending_kept | apply State.setEngine_kept) | simp only [kept_same] | intro _ | dsimp only
@[simp] theorem State.bankDoze_kept {s0 : State} (s : State) (b : Nat) (hc : Kept s0 s) :
    Kept s0 (State.bankDoze s b) := by
  unfold State.bankDoze
  extract_lets z0
  try clear_value z0
  repeat' first | (with_reducible first | assumption | apply kept_ite | apply State.bankGo_kept | apply State.bankRetain_kept) | dsimp only
@[simp] theorem State.dozeEnter_kept {s0 : State} (s : State) (hc : Kept s0 s) :
    Kept s0 (State.dozeEnter s) := by
  unfold State.dozeEnter
  extract_lets z0 z1 z2 z3
  try clear_value z0
  have h1 : Kept s0 z1 := by repeat' first | (with_reducible first | assumption | apply State.cnt_kept | apply State.enter_kept | apply State.hold_kept) | dsimp only
  try clear_value z1
  have h2 : Kept s0 z2 := by repeat' first | (with_reducible first | assumption | apply State.quietDown_kept | apply State.wr_kept) | dsimp only
  try clear_value z2
  have h3 : Kept s0 z3 := by repeat' first | (with_reducible first | assumption | (apply kept_foldl; intro _ _ _) | apply State.bankDoze_kept) | intro _ | dsimp only
  try clear_value z3
  repeat' first | (with_reducible first | assumption) | simp only [kept_same] | dsimp only
@[simp] theorem State.standbyEnter_kept {s0 : State} (s : State) (hc : Kept s0 s) :
    Kept s0 (State.standbyEnter s) := by
  unfold State.standbyEnter
  extract_lets z0 z1
  try clear_value z0
  have h1 : Kept s0 z1 := by repeat' first | (with_reducible first | assumption | apply State.enter_kept | apply State.hold_kept | apply State.quietDown_kept | apply State.wr_kept) | dsimp only
  try clear_value z1
  repeat' first | (with_reducible first | assumption) | simp only [kept_same] | dsimp only
@[simp] theorem State.sleepRequest_kept {s0 : State} (s : State) (v : Nat) (hc : Kept s0 s) :
    Kept s0 (State.sleepRequest s v) := by
  unfold State.sleepRequest
  repeat' first | (with_reducible first | assumption | apply kept_ite | apply State.dozeEnter_kept | apply State.sleepRefused_kept | apply State.standbyEnter_kept | apply State.wr_kept) | simp only [kept_same] | dsimp only | split
@[simp] theorem State.dozeReached_kept {s0 : State} (s : State) (hc : Kept s0 s) :
    Kept s0 (State.dozeReached s) := by
  unfold State.dozeReached
  extract_lets z0
  try clear_value z0
  repeat' first | (with_reducible first | assumption | apply kept_ite) | simp only [kept_same] | dsimp only
@[simp] theorem State.wokenUnits_kept {s0 : State} (s : State) (hc : Kept s0 s) :
    Kept s0 (State.wokenUnits s) := by
  unfold State.wokenUnits
  extract_lets z0 z1 z2
  have h0 : Kept s0 z0 := by repeat' first | (with_reducible first | assumption | apply kept_ite | (apply kept_foldl; intro _ _ _) | apply State.doRun_kept) | intro _ | dsimp only
  try clear_value z0
  have h1 : Kept s0 z1 := by repeat' first | (with_reducible first | assumption | (apply kept_foldl; intro _ _ _) | apply State.unsync_kept) | intro _ | dsimp only
  try clear_value z1
  have h2 : Kept s0 z2 := by repeat' first | (with_reducible first | assumption | (apply kept_foldl; intro _ _ _) | apply State.bankGo_kept) | intro _ | dsimp only
  try clear_value z2
  repeat' first | (with_reducible first | assumption | apply kept_ite | (apply kept_foldl; intro _ _ _) | apply State.perGo_kept) | intro _ | dsimp only
@[simp] theorem State.dozeWoken_kept {s0 : State} (s : State) (hc : Kept s0 s) :
    Kept s0 (State.dozeWoken s) := by
  unfold State.dozeWoken
  repeat' first | (with_reducible first | assumption | apply kept_ite | apply State.enter_kept | apply State.event_kept | apply State.hold_kept | apply State.unhold_kept | apply State.wokenUnits_kept | apply State.wr_kept) | simp only [kept_same] | dsimp only
@[simp] theorem State.wakeCheck_kept {s0 : State} (s : State) (verified : Bool) (found : Nat) (hc : Kept s0 s) :
    Kept s0 (State.wakeCheck s verified found) := by
  unfold State.wakeCheck
  repeat' first | (with_reducible first | assumption | apply kept_ite | apply State.confirmConfig_kept | apply State.record_kept) | simp only [kept_same] | dsimp only
theorem State.effPower_kept {s0 : State} (s : State) (p : Path) (i j v : Nat) {t1} (h : State.effPower s p i j v = some t1) (hc : Kept s0 s) :
    Kept s0 t1 := by
  simp only [State.effPower] at h
  repeat' split at h
  all_goals first | (simp only [Option.some.injEq, reduceCtorEq] at h; done) | (simp only [Option.some.injEq] at h; subst h)
  all_goals first | (simp (maxDischargeDepth := 60) [*]; done) | (simp_all (maxDischargeDepth := 60); done)
@[simp] theorem State.setSession_kept {s0 : State} (s : State) (c : Nat) (x : Session) (hc : Kept s0 s) :
    Kept s0 (State.setSession s c x) := by
  unfold State.setSession
  repeat' first | (with_reducible first | assumption) | simp only [kept_same] | intro _ | dsimp only
@[simp] theorem State.sessionClose_kept {s0 : State} (s : State) (c reason : Nat) (hc : Kept s0 s) :
    Kept s0 (State.sessionClose s c reason) := by
  unfold State.sessionClose
  extract_lets z0 z1 z2
  try clear_value z0
  try clear_value z1
  have h2 : Kept s0 z2 := by repeat' first | (with_reducible first | assumption | apply State.setSession_kept | apply State.wr_kept) | dsimp only
  try clear_value z2
  repeat' first | (with_reducible first | assumption | apply kept_ite | apply State.event_kept | apply State.record_kept) | dsimp only
@[simp] theorem State.sessionsEnd_kept {s0 : State} (s : State) (path : Nat) (hc : Kept s0 s) :
    Kept s0 (State.sessionsEnd s path) := by
  unfold State.sessionsEnd
  repeat' first | (with_reducible first | assumption | apply kept_ite | (apply kept_foldl; intro _ _ _) | apply State.sessionClose_kept) | intro _ | dsimp only
@[simp] theorem State.setDmaCh_kept {s0 : State} (s : State) (k : Nat) (x : DmaCh) (hc : Kept s0 s) :
    Kept s0 (State.setDmaCh s k x) := by
  unfold State.setDmaCh
  repeat' first | (with_reducible first | assumption) | simp only [kept_same] | intro _ | dsimp only
@[simp] theorem State.dmaBack_kept {s0 : State} (s : State) (k result moved : Nat) (hc : Kept s0 s) :
    Kept s0 (State.dmaBack s k result moved) := by
  unfold State.dmaBack
  extract_lets z0 z1 z2 z3 z4
  try clear_value z0
  try clear_value z1
  have h2 : Kept s0 z2 := by repeat' first | (with_reducible first | assumption | apply State.memWrite_kept) | dsimp only
  try clear_value z2
  have h3 : Kept s0 z3 := by repeat' first | (with_reducible first | assumption | apply State.addW_kept | apply State.cnt_kept | apply State.wr_kept) | dsimp only
  try clear_value z3
  try clear_value z4
  repeat' first | (with_reducible first | assumption | apply kept_ite | apply State.addW_kept | apply State.cnt_kept | apply State.event_kept | apply State.memWrite_kept | apply State.setDmaCh_kept | apply State.wr_kept) | simp only [kept_same] | dsimp only
@[simp] theorem State.dmaFlush_kept {s0 : State} (s : State) (k : Nat) (x0 : Nat) (hc : Kept s0 s) :
    Kept s0 (State.dmaFlush s k x0) := by
  induction x0 generalizing s k <;> first | (simp_all [State.dmaFlush]; done) | (unfold State.dmaFlush; (repeat' split) <;> simp_all)
@[simp] theorem State.dmaPut_kept {s0 : State} (s : State) (a : Nat) (d : List Byte) (hc : Kept s0 s) :
    Kept s0 (State.dmaPut s a d) := by
  unfold State.dmaPut
  repeat' first | (with_reducible first | assumption | (apply kept_foldl; intro _ _ _) | apply State.drop_kept | apply State.memWrite_kept) | intro _ | dsimp only
@[simp] theorem State.dmaFail_kept {s0 : State} (s : State) (k result moved : Nat) (hc : Kept s0 s) :
    Kept s0 (State.dmaFail s k result moved) := by
  unfold State.dmaFail
  repeat' first | (with_reducible first | assumption | apply State.cnt_kept | apply State.dmaBack_kept | apply State.dmaFlush_kept | apply State.event_kept) | dsimp only
@[simp] theorem State.dmaTake_kept {s0 : State} (s : State) (k : Nat) (d : List Byte) (bad : Bool) (hc : Kept s0 s) :
    Kept s0 (State.dmaTake s k d bad) := by
  unfold State.dmaTake
  extract_lets z0
  try clear_value z0
  repeat' first | (with_reducible first | assumption | apply kept_ite | apply State.dmaBack_kept | apply State.dmaFail_kept | apply State.dmaFlush_kept | apply State.dmaPut_kept | apply State.emit_kept | apply State.fetchBytes_kept | apply State.meetDbe_kept | apply State.setDmaCh_kept | apply State.violate_kept | apply State.wr_kept | apply kept_ite2 | apply kept_ite3 | apply kept_ite4) | simp only [kept_same] | dsimp only | split
@[simp] theorem State.dmaAbort_kept {s0 : State} (s : State) (k : Nat) (late : Bool) (hc : Kept s0 s) :
    Kept s0 (State.dmaAbort s k late) := by
  unfold State.dmaAbort
  repeat' first | (with_reducible first | assumption | apply kept_ite | apply State.dmaFlush_kept | apply State.setDmaCh_kept | apply State.wr_kept) | simp only [kept_same] | dsimp only
@[simp] theorem State.pcieReset_kept {s0 : State} (s : State) (hc : Kept s0 s) :
    Kept s0 (State.pcieReset s) := by
  unfold State.pcieReset
  extract_lets z0 z1 z2 z3
  have h0 : Kept s0 z0 := by repeat' first | (with_reducible first | assumption | apply State.clrBits_kept) | dsimp only
  try clear_value z0
  try clear_value z1
  have h2 : Kept s0 z2 := by simp only [z2]; repeat' first | (with_reducible first | assumption | (apply kept_foldl; intro _ _ _) | apply State.clrBits_kept | apply State.cnt_kept | apply State.dmaAbort_kept | apply State.event_kept | apply State.masterReset_kept | apply State.pathReset_kept | apply State.sessionsEnd_kept | apply State.setDmaCh_kept) | simp only [kept_same] | intro _ | dsimp only
  try clear_value z2
  have h3 : Kept s0 z3 := by repeat' first | (with_reducible first | assumption | (apply kept_foldl; intro _ _ _) | apply State.clrBits_kept | apply State.cnt_kept | apply State.dmaAbort_kept | apply State.event_kept | apply State.masterReset_kept | apply State.pathReset_kept | apply State.sessionsEnd_kept | apply State.setDmaCh_kept) | simp only [kept_same] | intro _ | dsimp only
  try clear_value z3
  repeat' first | (with_reducible first | assumption | (apply kept_foldl; intro _ _ _) | apply State.clrBits_kept | apply State.cnt_kept | apply State.dmaAbort_kept | apply State.event_kept | apply State.masterReset_kept | apply State.pathReset_kept | apply State.sessionsEnd_kept | apply State.setDmaCh_kept) | simp only [kept_same] | intro _ | dsimp only
@[simp] theorem State.pcieDown_kept {s0 : State} (s : State) (hc : Kept s0 s) :
    Kept s0 (State.pcieDown s) := by
  unfold State.pcieDown
  repeat' first | (with_reducible first | assumption | apply kept_ite | apply State.event_kept | apply State.wr_kept) | dsimp only
@[simp] theorem State.qspiReset_kept {s0 : State} (s : State) (hc : Kept s0 s) : Kept s0 (State.qspiReset s) := by
  unfold State.qspiReset; (repeat' (first | with_reducible assumption | with_reducible apply State.event_kept | with_reducible apply State.masterReset_kept | with_reducible apply State.pathReset_kept | with_reducible apply State.sessionsEnd_kept | simp only [kept_same] | intro _ | dsimp only))
theorem State.effHost_kept {s0 : State} (s : State) (p : Path) (i j v : Nat) {t1} (h : State.effHost s p i j v = some t1) (hc : Kept s0 s) :
    Kept s0 t1 := by
  simp only [State.effHost] at h
  repeat' split at h
  all_goals first | (simp only [Option.some.injEq, reduceCtorEq] at h; done) | (simp only [Option.some.injEq] at h; subst h)
  all_goals first | (simp (maxDischargeDepth := 60) [*]; done) | (simp_all (maxDischargeDepth := 60); done)
@[simp] theorem State.refuse_kept {s0 : State} (s : State) (n cause : Nat) (hc : Kept s0 s) :
    Kept s0 (State.refuse s n cause) := by
  unfold State.refuse
  repeat' first | (with_reducible first | assumption | apply State.wr_kept) | dsimp only
@[simp] theorem State.beginInst_kept {s0 : State} (s : State) (n : Nat) (f : ImageForm) (at' : Nat) (hc : Kept s0 s) : Kept s0 (State.beginInst s n f at') := by
  unfold State.beginInst; (repeat' (first | with_reducible assumption | with_reducible apply kept_ite | with_reducible apply kept_ite2 | with_reducible apply kept_ite3 | with_reducible apply kept_ite4 | (with_reducible apply kept_foldl; intro _ _ _) | with_reducible apply State.doLoad_kept | with_reducible apply State.setInst_kept | with_reducible apply State.wr_kept | with_reducible apply State.zeroRange_kept | simp only [kept_same] | intro _ | dsimp only))
@[simp] theorem State.instStart_kept {s0 : State} (s : State) (n : Nat) (hc : Kept s0 s) :
    Kept s0 (State.instStart s n) := by
  unfold State.instStart
  repeat' first | (with_reducible first | assumption | apply kept_ite | apply State.beginInst_kept | apply State.refuse_kept) | simp only [kept_same] | dsimp only | split
@[simp] theorem State.objPut_kept {s0 : State} (s : State) (o : InstObj) (v : Nat) (hc : Kept s0 s) :
    Kept s0 (State.objPut s o v) := by
  unfold State.objPut
  repeat' first | (with_reducible first | assumption | apply kept_ite | apply State.setBytes_kept) | dsimp only
@[simp] theorem State.createObjs_kept {s0 : State} (s : State) (n : Nat) (l : List InstObj) (hc : Kept s0 s) :
    Kept s0 (State.createObjs s n l) := by
  unfold State.createObjs
  extract_lets z0
  try clear_value z0
  repeat' first | (with_reducible first | assumption | (apply kept_foldl; intro _ _ _) | apply State.objPut_kept | apply State.setInst_kept) | simp only [kept_same] | intro _ | dsimp only | split
@[simp] theorem State.instPorts_kept {s0 : State} (s : State) (n : Nat) (hc : Kept s0 s) : Kept s0 (s.instPorts n) := by
  unfold State.instPorts
  split
  · exact hc
  · refine kept_foldl (fun s p hs => ?_) hc
    split
    · cases h : s.effPort (0x2300 + p) 0x14 _ with
      | none => exact hs
      | some t => exact State.effPort_kept _ _ _ _ h hs
    · exact hs
@[simp] theorem State.instBind_kept {s0 : State} (s : State) (n : Nat) (b : Nat × Nat × Nat) (hc : Kept s0 s) :
    Kept s0 (State.instBind s n b) := by
  unfold State.instBind
  repeat' first | (with_reducible first | assumption | apply kept_ite | apply State.wr_kept) | intro _ | dsimp only
@[simp] theorem State.instEnd_kept {s0 : State} (s : State) (n : Nat) (hc : Kept s0 s) :
    Kept s0 (State.instEnd s n) := by
  unfold State.instEnd
  extract_lets z0 z1
  try clear_value z0
  have h1 : Kept s0 z1 := by repeat' first | (with_reducible first | assumption | (apply kept_foldl; intro _ _ _) | apply State.doHalt_kept | apply State.wr_kept) | intro _ | dsimp only
  try clear_value z1
  repeat' first | (with_reducible first | assumption | apply State.setInst_kept | apply State.wr_kept) | dsimp only
@[simp] theorem State.instStop_kept {s0 : State} (s : State) (n : Nat) (hc : Kept s0 s) :
    Kept s0 (State.instStop s n) := by
  unfold State.instStop
  repeat' first | (with_reducible first | assumption | apply kept_ite | apply State.instEnd_kept | apply State.wr_kept) | dsimp only
@[simp] theorem State.instDone_kept {s0 : State} (s : State) (n : Nat) (binds : List (Nat × Nat × Nat)) (hc : Kept s0 s) :
    Kept s0 (State.instDone s n binds) := by
  unfold State.instDone
  extract_lets z0 z1
  try clear_value z0
  try clear_value z1
  repeat' first | (with_reducible first | assumption | apply kept_ite | (apply kept_foldl; intro _ _ _) | apply State.chordLoss_kept | apply State.createObjs_kept | apply State.instBind_kept | apply State.instEnd_kept | apply State.instPorts_kept | apply State.refuse_kept | apply State.wr_kept) | simp only [kept_same] | intro _ | dsimp only | split
theorem State.effInst_kept {s0 : State} (s : State) (i j v : Nat) {t} (h : s.effInst i j v = some t) (hc : Kept s0 s) : Kept s0 t := by
  unfold State.effInst at h
  split at h
  · simp only [Option.map_eq_some_iff] at h
    obtain ⟨_, _, rfl⟩ := h
    simp [hc]
  · split at h
    · cases h; simp [hc]
    · split at h
      · cases h; split <;> simp [hc]
      · cases h
@[simp] theorem State.statusClear_kept {s0 : State} (s : State) (i j v again : Nat) (hc : Kept s0 s) :
    Kept s0 (State.statusClear s i j v again) := by
  unfold State.statusClear
  repeat' first | (with_reducible first | assumption | apply State.clrBits_kept | apply State.route_kept | apply State.setBits_kept) | dsimp only
theorem State.effCommon_kept {s0 : State} (s : State) (p : Path) (i j v : Nat) {t1} (h : State.effCommon s p i j v = some t1) (hc : Kept s0 s) :
    Kept s0 t1 := by
  simp only [State.effCommon] at h
  repeat' split at h
  all_goals first | (simp only [Option.some.injEq, reduceCtorEq] at h; done) | (simp only [Option.some.injEq] at h; subst h)
  all_goals first | (simp (maxDischargeDepth := 60) [*]; done) | (simp_all (maxDischargeDepth := 60); done)
theorem State.effMbox_kept {s0 : State} (s : State) (i j v : Nat) {t1} (h : State.effMbox s i j v = some t1) (hc : Kept s0 s) :
    Kept s0 t1 := by
  simp only [State.effMbox] at h
  repeat' split at h
  all_goals first | (simp only [Option.some.injEq, reduceCtorEq] at h; done) | (simp only [Option.some.injEq] at h; subst h)
  all_goals first | (simp (maxDischargeDepth := 60) [*]; done) | (simp_all (maxDischargeDepth := 60); done)
theorem State.effEngine_kept {s0 : State} (s : State) (p : Path) (i j v : Nat) {t1} (h : State.effEngine s p i j v = some t1) (hc : Kept s0 s) :
    Kept s0 t1 := by
  simp only [State.effEngine] at h
  repeat' split at h
  all_goals first | (simp only [Option.some.injEq, reduceCtorEq] at h; done) | (simp only [Option.some.injEq] at h; subst h)
  all_goals first | (simp (maxDischargeDepth := 60) [*]; done) | (simp_all (maxDischargeDepth := 60); done)
theorem State.effPer_kept {s0 : State} (s : State) (p : Path) (i j v : Nat) {t1} (h : State.effPer s p i j v = some t1) (hc : Kept s0 s) :
    Kept s0 t1 := by
  simp only [State.effPer] at h
  repeat' split at h
  all_goals first | (simp only [Option.some.injEq, reduceCtorEq] at h; done) | (simp only [Option.some.injEq] at h; subst h)
  all_goals first | (simp (maxDischargeDepth := 60) [*]; done) | (simp_all (maxDischargeDepth := 60); done)
theorem State.effLinks_kept {s0 : State} (s : State) (i j v : Nat) {t1} (h : State.effLinks s i j v = some t1) (hc : Kept s0 s) :
    Kept s0 t1 := by
  simp only [State.effLinks] at h
  repeat' split at h
  all_goals first | (simp only [Option.some.injEq, reduceCtorEq] at h; done) | (simp only [Option.some.injEq] at h; subst h)
  all_goals first | (simp (maxDischargeDepth := 60) [*]; done) | (simp_all (maxDischargeDepth := 60); done)
@[simp] theorem State.odStore_kept {s0 : State} (s : State) (i j v : Nat) (hc : Kept s0 s) :
    Kept s0 (State.odStore s i j v) := by
  unfold State.odStore
  repeat' first | (with_reducible first | assumption | apply kept_ite | apply State.route_kept | apply State.wr_kept) | dsimp only
theorem State.effCore_kept {s0 : State} (s : State) (p : Path) (i j v : Nat) {t} (h : s.effCore p i j v = some t) (hc : Kept s0 s) : Kept s0 t := by
  unfold State.effCore at h
  rcases kept_orElse h with h | h
  · exact State.effCommon_kept _ _ _ _ _ h hc
  rcases kept_orElse h with h | h
  · exact State.effMbox_kept _ _ _ _ h hc
  rcases kept_orElse h with h | h
  · exact State.effEngine_kept _ _ _ _ _ h hc
  rcases kept_orElse h with h | h
  · exact State.effPower_kept _ _ _ _ _ h hc
  exact State.effHost_kept _ _ _ _ _ h hc
theorem State.effRim_kept {s0 : State} (s : State) (p : Path) (i j v : Nat) {t} (h : s.effRim p i j v = some t) (hc : Kept s0 s) : Kept s0 t := by
  unfold State.effRim at h
  rcases kept_orElse h with h | h
  · exact State.effPort_kept _ _ _ _ h hc
  rcases kept_orElse h with h | h
  · exact State.effSwitch_kept _ _ _ _ h hc
  rcases kept_orElse h with h | h
  · exact State.effTime_kept _ _ _ _ h hc
  rcases kept_orElse h with h | h
  · exact State.effLaunch_kept _ _ _ _ h hc
  rcases kept_orElse h with h | h
  · exact State.effPio_kept _ _ _ _ h hc
  rcases kept_orElse h with h | h
  · exact State.effLocus_kept _ _ _ _ h hc
  rcases kept_orElse h with h | h
  · exact State.effLattice_kept _ _ _ _ h hc
  rcases kept_orElse h with h | h
  · exact State.effCan_kept _ _ _ _ h hc
  rcases kept_orElse h with h | h
  · exact State.effInst_kept _ _ _ _ h hc
  rcases kept_orElse h with h | h
  · exact State.effPer_kept _ _ _ _ _ h hc
  exact State.effLinks_kept _ _ _ _ h hc
@[simp] theorem State.odEffect_kept {s0 : State} (s : State) (p : Path) (i j v : Nat) (hc : Kept s0 s) : Kept s0 (s.odEffect p i j v) := by
  unfold State.odEffect
  split
  · exact State.effCore_kept _ _ _ _ _ ‹_› hc
  · split
    · exact State.effRim_kept _ _ _ _ _ ‹_› hc
    · simp [hc]
theorem State.odReadEffect_kept {s0 : State} (s : State) (p : Path) (i j : Nat) {t1} (h : State.odReadEffect s p i j = some t1) (hc : Kept s0 s) :
    Kept s0 t1.2 := by
  simp only [State.odReadEffect] at h
  repeat' split at h
  all_goals first | (simp only [Option.some.injEq, reduceCtorEq] at h; done) | (simp only [Option.some.injEq] at h; subst h)
  all_goals first | (simp (maxDischargeDepth := 60) [*]; done) | (simp_all (maxDischargeDepth := 60); done)
@[simp] theorem State.procRead_kept {s0 : State} (s : State) (i j retries : Nat) (hc : Kept s0 s) :
    Kept s0 (State.procRead s i j retries).2 := by
  unfold State.procRead
  repeat' first | (with_reducible first | assumption | apply kept_ite | apply State.addW_kept | apply State.cnt_kept | apply State.fetchBytes_kept | apply State.tick_kept | apply kept_ite2 | apply kept_ite3 | apply kept_ite4) | simp only [kept_same] | dsimp only | split
theorem State.odLive_kept {s0 : State} (s : State) (i j : Nat) {t} (h : s.odLive i j = some t) (hc : Kept s0 s) : Kept s0 t.2 := by
  unfold State.odLive at h
  dsimp only at h
  repeat' split at h
  all_goals first | (simp only [Option.some.injEq] at h; subst h; exact hc) | skip
  all_goals first | (simp at h; done) | (simp only [Option.map_eq_some_iff] at h; obtain ⟨_, _, rfl⟩ := h; simp [hc])
@[simp] theorem State.setPath_kept {s0 : State} (s : State) (p : Path) (x : PathSt) (hc : Kept s0 s) :
    Kept s0 (State.setPath s p x) := by
  unfold State.setPath
  repeat' first | (with_reducible first | assumption) | simp only [kept_same] | intro _ | dsimp only
@[simp] theorem State.odValue_kept {s0 : State} (s : State) (p : Path) (i j : Nat) (hc : Kept s0 s) : Kept s0 (s.odValue p i j).2 := by
  unfold State.odValue
  split
  · exact State.odReadEffect_kept _ _ _ _ ‹_› hc
  · split
    · simp [hc]
    · split
      · exact hc
      · split
        · exact State.odLive_kept _ _ _ ‹_› hc
        · exact hc
@[simp] theorem State.odGet_kept {s0 : State} (s : State) (p : Path) (i j : Nat) (hc : Kept s0 s) :
    Kept s0 (State.odGet s p i j).2 := by
  unfold State.odGet
  repeat' first | (with_reducible first | assumption | apply kept_ite | apply State.odValue_kept | apply State.violate_kept | apply kept_ite2 | apply kept_ite3 | apply kept_ite4) | dsimp only
@[simp] theorem State.odSet_kept {s0 : State} (s : State) (p : Path) (i j v : Nat) (hc : Kept s0 s) :
    Kept s0 (State.odSet s p i j v) := by
  unfold State.odSet
  repeat' first | (with_reducible first | assumption | apply State.guard_kept | apply State.odEffect_kept) | intro _ | dsimp only
@[simp] theorem State.readLow_kept {s0 : State} (s : State) (p : Path) (i j : Nat) (hc : Kept s0 s) :
    Kept s0 (State.readLow s p i j).2 := by
  unfold State.readLow
  repeat' first | (with_reducible first | assumption | apply kept_ite | apply State.odGet_kept | apply State.setPath_kept | apply State.violate_kept | apply kept_ite2 | apply kept_ite3 | apply kept_ite4) | simp only [kept_same] | dsimp only
@[simp] theorem State.readHigh_kept {s0 : State} (s : State) (p : Path) (i j : Nat) (hc : Kept s0 s) :
    Kept s0 (State.readHigh s p i j).2 := by
  unfold State.readHigh
  repeat' first | (with_reducible first | assumption | apply kept_ite | apply State.odValue_kept | apply State.violate_kept | apply kept_ite2 | apply kept_ite3 | apply kept_ite4) | simp only [kept_same] | dsimp only | split
@[simp] theorem State.writeLow_kept {s0 : State} (s : State) (p : Path) (i j v : Nat) (hc : Kept s0 s) :
    Kept s0 (State.writeLow s p i j v) := by
  unfold State.writeLow
  repeat' first | (with_reducible first | assumption | apply kept_ite | apply State.setPath_kept | apply State.violate_kept) | simp only [kept_same] | dsimp only
@[simp] theorem State.writeHigh_kept {s0 : State} (s : State) (p : Path) (i j v : Nat) (hc : Kept s0 s) :
    Kept s0 (State.writeHigh s p i j v) := by
  unfold State.writeHigh
  repeat' first | (with_reducible first | assumption | apply kept_ite | apply State.odSet_kept | apply State.setPath_kept | apply State.violate_kept) | simp only [kept_same] | dsimp only | split
@[simp] theorem State.slotRead_kept {s0 : State} (s : State) (p : Path) (i j : Nat) (hc : Kept s0 s) :
    Kept s0 (State.slotRead s p i j).2 := by
  unfold State.slotRead
  repeat' first | (with_reducible first | assumption | apply kept_ite | apply State.odGet_kept | apply State.readHigh_kept | apply State.readLow_kept | apply kept_ite2 | apply kept_ite3 | apply kept_ite4) | dsimp only
@[simp] theorem State.slotWrite_kept {s0 : State} (s : State) (p : Path) (i j v : Nat) (hc : Kept s0 s) :
    Kept s0 (State.slotWrite s p i j v) := by
  unfold State.slotWrite
  repeat' first | (with_reducible first | assumption | apply kept_ite | apply State.odSet_kept | apply State.writeHigh_kept | apply State.writeLow_kept) | dsimp only
@[simp] theorem State.readEight_kept {s0 : State} (s : State) (p : Path) (i j i' j' : Nat) (hc : Kept s0 s) :
    Kept s0 (State.readEight s p i j i' j').2 := by
  unfold State.readEight
  repeat' first | (with_reducible first | assumption | apply kept_ite | apply State.odGet_kept | apply State.slotRead_kept | apply kept_ite2 | apply kept_ite3 | apply kept_ite4) | dsimp only
@[simp] theorem State.readPart_kept {s0 : State} (s : State) (p : Path) (i j k n : Nat) (hc : Kept s0 s) :
    Kept s0 (State.readPart s p i j k n).2 := by
  unfold State.readPart
  extract_lets z0
  have h0 : Kept s0 z0.2 := by repeat' first | (with_reducible first | assumption | apply State.slotRead_kept) | dsimp only
  try clear_value z0
  repeat' first | (with_reducible first | assumption | apply State.drop_kept) | dsimp only
@[simp] theorem State.windowRead_kept {s0 : State} (s : State) (p : Path) (a n : Nat) (hc : Kept s0 s) :
    Kept s0 (State.windowRead s p a n).2 := by
  unfold State.windowRead
  repeat' first | (with_reducible first | assumption | apply kept_ite | apply State.readEight_kept | apply State.readPart_kept | apply kept_ite2 | apply kept_ite3 | apply kept_ite4) | dsimp only
@[simp] theorem State.windowWrite_kept {s0 : State} (s : State) (p : Path) (a : Nat) (d : List Byte) (hc : Kept s0 s) :
    Kept s0 (State.windowWrite s p a d) := by
  unfold State.windowWrite
  extract_lets z0 z1
  try clear_value z0
  try clear_value z1
  repeat' first | (with_reducible first | assumption | apply kept_ite | apply State.drop_kept | apply State.odSet_kept | apply State.slotWrite_kept | apply State.violate_kept) | dsimp only
@[simp] theorem State.mapRead1_kept {s0 : State} (s : State) (p : Path) (a n : Nat) (hc : Kept s0 s) :
    Kept s0 (State.mapRead1 s p a n).2.2 := by
  unfold State.mapRead1
  repeat' first | (with_reducible first | assumption | apply kept_ite | apply State.memRead_kept | apply State.windowRead_kept | apply kept_ite2 | apply kept_ite3 | apply kept_ite4) | dsimp only
@[simp] theorem State.mapWrite1_kept {s0 : State} (s : State) (p : Path) (a : Nat) (d : List Byte) (hc : Kept s0 s) :
    Kept s0 (State.mapWrite1 s p a d) := by
  unfold State.mapWrite1
  repeat' first | (with_reducible first | assumption | apply kept_ite | apply State.memWrite_kept | apply State.windowWrite_kept) | dsimp only
@[simp] theorem State.mapBurst_kept {s0 : State} (s : State) (p : Path) (a n : Nat) (x0 : Nat) (hc : Kept s0 s) :
    Kept s0 (State.mapBurst s p a n x0).2.2 := by
  induction x0 generalizing s p a n <;> first | (simp_all [State.mapBurst]; done) | (unfold State.mapBurst; (repeat' split) <;> simp_all)
@[simp] theorem State.mapStores_kept {s0 : State} (s : State) (p : Path) (a n : Nat) (d : List Byte) (x0 : Nat) (hc : Kept s0 s) :
    Kept s0 (State.mapStores s p a n d x0) := by
  induction x0 generalizing s p a n d <;> first | (simp_all [State.mapStores]; done) | (unfold State.mapStores; (repeat' split) <;> simp_all)
@[simp] theorem State.cfgWrite_kept {s0 : State} (s : State) (e : Nat × DWord) (hc : Kept s0 s) :
    Kept s0 (State.cfgWrite s e) := by
  unfold State.cfgWrite
  repeat' first | (with_reducible first | assumption | apply kept_ite | apply State.odEffect_kept | apply State.record_kept | apply kept_ite2 | apply kept_ite3 | apply kept_ite4) | dsimp only
@[simp] theorem State.showSet_kept {s0 : State} (s : State) (hc : Kept s0 s) :
    Kept s0 (State.showSet s) := by
  unfold State.showSet
  extract_lets z0
  try clear_value z0
  repeat' first | (with_reducible first | assumption | apply kept_ite | apply State.drop_kept | apply State.wr_kept) | dsimp only
@[simp] theorem State.loadConfig_kept {s0 : State} (s : State) (hc : Kept s0 s) : Kept s0 (State.loadConfig s) := by
  unfold State.loadConfig; extract_lets z0 z1; (try (first | (have : Kept s0 z0 := by (first | ((repeat' (first | with_reducible assumption | with_reducible apply kept_ite | with_reducible apply kept_ite2 | with_reducible apply kept_ite3 | with_reducible apply kept_ite4 | (with_reducible apply kept_foldl; intro _ _ _) | with_reducible apply State.cfgWrite_kept | with_reducible apply State.event_kept | with_reducible apply State.record_kept | with_reducible apply State.showSet_kept | with_reducible apply State.wr_kept | simp only [kept_same] | intro _ | dsimp only | split)); done) | ((try dsimp only); (repeat' (first | with_reducible assumption | with_reducible apply kept_ite | with_reducible apply kept_ite2 | with_reducible apply kept_ite3 | with_reducible apply kept_ite4 | (with_reducible apply kept_foldl; intro _ _ _) | with_reducible apply State.cfgWrite_kept | with_reducible apply State.event_kept | with_reducible apply State.record_kept | with_reducible apply State.showSet_kept | with_reducible apply State.wr_kept | simp only [kept_same] | intro _ | dsimp only | split)); done) | (simp only [z0]; (repeat' (first | with_reducible assumption | with_reducible apply kept_ite | with_reducible apply kept_ite2 | with_reducible apply kept_ite3 | with_reducible apply kept_ite4 | (with_reducible apply kept_foldl; intro _ _ _) | with_reducible apply State.cfgWrite_kept | with_reducible apply State.event_kept | with_reducible apply State.record_kept | with_reducible apply State.showSet_kept | with_reducible apply State.wr_kept | simp only [kept_same] | intro _ | dsimp only | split)); done))) | (have : Kept s0 z0.2 := by ((try dsimp only); (repeat' (first | with_reducible assumption | with_reducible apply kept_ite | with_reducible apply kept_ite2 | with_reducible apply kept_ite3 | with_reducible apply kept_ite4 | (with_reducible apply kept_foldl; intro _ _ _) | with_reducible apply State.cfgWrite_kept | with_reducible apply State.event_kept | with_reducible apply State.record_kept | with_reducible apply State.showSet_kept | with_reducible apply State.wr_kept | simp only [kept_same] | intro _ | dsimp only | split)); done)) | (have : Kept s0 z0.2.2 := by ((try dsimp only); (repeat' (first | with_reducible assumption | with_reducible apply kept_ite | with_reducible apply kept_ite2 | with_reducible apply kept_ite3 | with_reducible apply kept_ite4 | (with_reducible apply kept_foldl; intro _ _ _) | with_reducible apply State.cfgWrite_kept | with_reducible apply State.event_kept | with_reducible apply State.record_kept | with_reducible apply State.showSet_kept | with_reducible apply State.wr_kept | simp only [kept_same] | intro _ | dsimp only | split)); done)))); (try clear_value z0); (try (first | (have : Kept s0 z1 := by (first | ((repeat' (first | with_reducible assumption | with_reducible apply kept_ite | with_reducible apply kept_ite2 | with_reducible apply kept_ite3 | with_reducible apply kept_ite4 | (with_reducible apply kept_foldl; intro _ _ _) | with_reducible apply State.cfgWrite_kept | with_reducible apply State.event_kept | with_reducible apply State.record_kept | with_reducible apply State.showSet_kept | with_reducible apply State.wr_kept | simp only [kept_same] | intro _ | dsimp only | split)); done) | ((try dsimp only); (repeat' (first | with_reducible assumption | with_reducible apply kept_ite | with_reducible apply kept_ite2 | with_reducible apply kept_ite3 | with_reducible apply kept_ite4 | (with_reducible apply kept_foldl; intro _ _ _) | with_reducible apply State.cfgWrite_kept | with_reducible apply State.event_kept | with_reducible apply State.record_kept | with_reducible apply State.showSet_kept | with_reducible apply State.wr_kept | simp only [kept_same] | intro _ | dsimp only | split)); done) | (simp only [z1]; (repeat' (first | with_reducible assumption | with_reducible apply kept_ite | with_reducible apply kept_ite2 | with_reducible apply kept_ite3 | with_reducible apply kept_ite4 | (with_reducible apply kept_foldl; intro _ _ _) | with_reducible apply State.cfgWrite_kept | with_reducible apply State.event_kept | with_reducible apply State.record_kept | with_reducible apply State.showSet_kept | with_reducible apply State.wr_kept | simp only [kept_same] | intro _ | dsimp only | split)); done))) | (have : Kept s0 z1.2 := by ((try dsimp only); (repeat' (first | with_reducible assumption | with_reducible apply kept_ite | with_reducible apply kept_ite2 | with_reducible apply kept_ite3 | with_reducible apply kept_ite4 | (with_reducible apply kept_foldl; intro _ _ _) | with_reducible apply State.cfgWrite_kept | with_reducible apply State.event_kept | with_reducible apply State.record_kept | with_reducible apply State.showSet_kept | with_reducible apply State.wr_kept | simp only [kept_same] | intro _ | dsimp only | split)); done)) | (have : Kept s0 z1.2.2 := by ((try dsimp only); (repeat' (first | with_reducible assumption | with_reducible apply kept_ite | with_reducible apply kept_ite2 | with_reducible apply kept_ite3 | with_reducible apply kept_ite4 | (with_reducible apply kept_foldl; intro _ _ _) | with_reducible apply State.cfgWrite_kept | with_reducible apply State.event_kept | with_reducible apply State.record_kept | with_reducible apply State.showSet_kept | with_reducible apply State.wr_kept | simp only [kept_same] | intro _ | dsimp only | split)); done)))); (try clear_value z1); (try dsimp only); (repeat' (first | with_reducible assumption | with_reducible apply kept_ite | with_reducible apply kept_ite2 | with_reducible apply kept_ite3 | with_reducible apply kept_ite4 | (with_reducible apply kept_foldl; intro _ _ _) | with_reducible apply State.cfgWrite_kept | with_reducible apply State.event_kept | with_reducible apply State.record_kept | with_reducible apply State.showSet_kept | with_reducible apply State.wr_kept | simp only [kept_same] | intro _ | dsimp only | split))
@[simp] theorem State.recover_kept {s0 : State} (s : State) (cause : Nat) (hc : Kept s0 s) :
    Kept s0 (State.recover s cause) := by
  unfold State.recover
  extract_lets z0 z1 z2
  try clear_value z0
  have h1 : Kept s0 z1 := by simp only [z1]; repeat' first | (with_reducible first | assumption | apply State.enter_kept | apply State.hold_kept | apply State.latEnable_kept | apply State.switchClear_kept | apply State.wr_kept) | simp only [kept_same] | dsimp only
  try clear_value z1
  have h2 : Kept s0 z2 := by repeat' first | (with_reducible first | assumption | apply State.enter_kept | apply State.hold_kept | apply State.latEnable_kept | apply State.switchClear_kept | apply State.wr_kept) | simp only [kept_same] | dsimp only
  try clear_value z2
  repeat' first | (with_reducible first | assumption | apply State.enter_kept | apply State.hold_kept | apply State.latEnable_kept | apply State.switchClear_kept | apply State.wr_kept) | simp only [kept_same] | dsimp only
@[simp] theorem State.hostLoad_kept {s0 : State} (s : State) (hc : Kept s0 s) :
    Kept s0 (State.hostLoad s) := by
  unfold State.hostLoad
  repeat' first | (with_reducible first | assumption | apply State.event_kept | apply State.wr_kept) | dsimp only
@[simp] theorem State.bootRom_kept {s0 : State} (s : State) (valid : Bool) (hc : Kept s0 s) :
    Kept s0 (State.bootRom s valid) := by
  unfold State.bootRom
  extract_lets z0 z1 z2 z3 z4 z5
  try clear_value z0
  have h1 : Kept s0 z1 := by simp only [z1]; repeat' first | (with_reducible first | assumption | apply kept_ite | apply State.hostLoad_kept | apply State.logCounter_kept | apply State.recover_kept | apply State.wr_kept | apply State.writeStart_kept | apply kept_ite2 | apply kept_ite3 | apply kept_ite4) | simp only [kept_same] | dsimp only
  try clear_value z1
  have h2 : Kept s0 z2 := by repeat' first | (with_reducible first | assumption | apply kept_ite | apply State.hostLoad_kept | apply State.logCounter_kept | apply State.recover_kept | apply State.wr_kept | apply State.writeStart_kept | apply kept_ite2 | apply kept_ite3 | apply kept_ite4) | simp only [kept_same] | dsimp only
  try clear_value z2
  try clear_value z3
  try clear_value z4
  try clear_value z5
  repeat' first | (with_reducible first | assumption | apply kept_ite | apply State.hostLoad_kept | apply State.recover_kept | apply State.wr_kept | apply State.writeStart_kept) | dsimp only
@[simp] theorem State.fuseLoad_kept {s0 : State} (s : State) (ok : Bool) (hc : Kept s0 s) :
    Kept s0 (State.fuseLoad s ok) := by
  unfold State.fuseLoad
  repeat' first | (with_reducible first | assumption | apply kept_ite | apply State.enter_kept | apply State.hold_kept | apply State.wr_kept) | simp only [kept_same] | dsimp only
@[simp] theorem State.strapStep_kept {s0 : State} (s : State) (mode : Nat) (hc : Kept s0 s) :
    Kept s0 (State.strapStep s mode) := by
  unfold State.strapStep
  extract_lets z0 z1
  have h0 : Kept s0 z0 := by repeat' first | (with_reducible first | assumption | apply State.wr_kept) | dsimp only
  try clear_value z0
  have h1 : Kept s0 z1 := by repeat' first | (with_reducible first | assumption | apply kept_ite | (apply kept_foldl; intro _ _ _) | apply State.supplyOut_kept) | intro _ | dsimp only
  try clear_value z1
  repeat' first | (with_reducible first | assumption | apply State.wr_kept) | dsimp only
@[simp] theorem State.optionStep_kept {s0 : State} (s : State) (hc : Kept s0 s) :
    Kept s0 (State.optionStep s) := by
  unfold State.optionStep
  extract_lets z0
  have h0 : Kept s0 z0 := by repeat' first | (with_reducible first | assumption | apply State.optionLoad_kept) | dsimp only
  try clear_value z0
  repeat' first | (with_reducible first | assumption | (apply kept_foldl; intro _ _ _) | apply State.setPio_kept | apply State.wr_kept) | simp only [kept_same] | intro _ | dsimp only
@[simp] theorem State.bankStep4_kept {s0 : State} (s : State) (hc : Kept s0 s) :
    Kept s0 (State.bankStep4 s) := by
  unfold State.bankStep4
  repeat' first | (with_reducible first | assumption | apply kept_ite | (apply kept_foldl; intro _ _ _) | apply State.bankZero_kept | apply State.wr_kept) | intro _ | dsimp only
@[simp] theorem State.pllStep_kept {s0 : State} (s : State) (hc : Kept s0 s) : Kept s0 (State.pllStep s) := by
  unfold State.pllStep; (repeat' (first | with_reducible assumption | with_reducible apply State.setCoreState_kept | with_reducible apply State.setPc_kept | with_reducible apply State.wr_kept | simp only [kept_same] | intro _ | dsimp only))
@[simp] theorem State.startOk_kept {s0 : State} (s : State) (micros : Nat) (hc : Kept s0 s) : Kept s0 (State.startOk s micros) := by
  unfold State.startOk; (repeat' (first | with_reducible assumption | with_reducible apply kept_ite | with_reducible apply kept_ite2 | with_reducible apply kept_ite3 | with_reducible apply kept_ite4 | with_reducible apply State.confirmConfig_kept | with_reducible apply State.enter_kept | with_reducible apply State.event_kept | with_reducible apply State.unhold_kept | with_reducible apply State.wr_kept | with_reducible apply State.writeStart_kept | simp only [kept_same] | intro _ | dsimp only))
@[simp] theorem State.stepDone_kept {s0 : State} (s : State) (b : StepInput) (hc : Kept s0 s) :
    Kept s0 (State.stepDone s b) := by
  unfold State.stepDone
  repeat' first | (with_reducible first | assumption | apply kept_ite | (apply kept_foldl; intro _ _ _) | apply State.bankStep4_kept | apply State.bootRom_kept | apply State.doLoad_kept | apply State.fuseLoad_kept | apply State.instStart_kept | apply State.loadConfig_kept | apply State.optionStep_kept | apply State.pllStep_kept | apply State.startOk_kept | apply State.strapStep_kept | apply State.wr_kept) | simp only [kept_same] | intro _ | dsimp only | split
@[simp] theorem State.stompTx_kept {s0 : State} (s : State) (e : Nat) (hc : Kept s0 s) :
    Kept s0 (State.stompTx s e) := by
  unfold State.stompTx
  extract_lets z0
  try clear_value z0
  repeat' first | (with_reducible first | assumption | apply kept_ite | apply State.laneSend_kept | apply State.setEngine_kept) | simp only [kept_same] | dsimp only
@[simp] theorem State.exception_kept {s0 : State} (s : State) (c code pc : Nat) (hc : Kept s0 s) :
    Kept s0 (State.exception s c code pc) := by
  unfold State.exception
  extract_lets z0 z1 z2
  try clear_value z0
  have h1 : Kept s0 z1 := by repeat' first | (with_reducible first | assumption | apply State.setCoreState_kept | apply State.wr_kept) | dsimp only
  try clear_value z1
  try clear_value z2
  repeat' first | (with_reducible first | assumption | apply kept_ite | apply State.engEvent_kept | apply State.instFault_kept | apply State.record_kept | apply State.setCoreState_kept | apply State.setEngine_kept | apply State.stompTx_kept | apply State.wr_kept) | simp only [kept_same] | dsimp only
@[simp] theorem State.finish_kept {s0 : State} (s : State) (c pc : Nat) (hc : Kept s0 s) :
    Kept s0 (State.finish s c pc) := by
  unfold State.finish
  extract_lets z0
  try clear_value z0
  repeat' first | (with_reducible first | assumption | apply kept_ite | apply State.setCoreState_kept | apply State.setEngine_kept | apply State.setPc_kept) | simp only [kept_same] | dsimp only
@[simp] theorem State.finishWith_kept {s0 : State} (s : State) (c : Nat) (g : Engine) (hc : Kept s0 s) :
    Kept s0 (State.finishWith s c g) := by
  unfold State.finishWith
  repeat' first | (with_reducible first | assumption | apply State.finish_kept | apply State.setEngine_kept) | dsimp only
@[simp] theorem State.await_kept {s0 : State} (s : State) (c : Nat) (w : WaitFor) (hc : Kept s0 s) :
    Kept s0 (State.await s c w) := by
  unfold State.await
  repeat' first | (with_reducible first | assumption | apply State.setEngine_kept) | simp only [kept_same] | dsimp only
@[simp] theorem State.jump_kept {s0 : State} (s : State) (c : Nat) (t : Int) (hc : Kept s0 s) :
    Kept s0 (State.jump s c t) := by
  unfold State.jump
  repeat' first | (with_reducible first | assumption | apply kept_ite | apply State.exception_kept | apply State.finish_kept) | dsimp only
@[simp] theorem State.runOp_kept {s0 : State} (s : State) (c : Nat) (o : EOp) (f : State → Word → State) (hf : ∀ s a0, Kept s0 s → Kept s0 (f s a0)) (hc : Kept s0 s) :
    Kept s0 (State.runOp s c o f) := by
  unfold State.runOp
  repeat' first | (with_reducible first | assumption | apply kept_ite | apply State.correct_kept | apply State.meetDbe_kept | apply hf) | intro _ | dsimp only
@[simp] theorem State.doPosted_kept {s0 : State} (s : State) (c : Fin 33) (p : Posted) (hc : Kept s0 s) :
    Kept s0 (State.doPosted s c p) := by
  unfold State.doPosted
  repeat' first | (with_reducible first | assumption | apply State.mapWrite1_kept) | dsimp only
@[simp] theorem State.drainPosted_kept {s0 : State} (s : State) (c : Fin 33) (n : Nat) (hc : Kept s0 s) : Kept s0 (s.drainPosted c n) := by
  induction n generalizing s with
  | zero => simpa [State.drainPosted] using hc
  | succ n ih => unfold State.drainPosted; dsimp only; repeat' split
                 all_goals simp (maxDischargeDepth := 60) [ih, hc]
@[simp] theorem State.afterStores_kept {s0 : State} (s : State) (c : Fin 33) (f : State → State) (hf : ∀ s, Kept s0 s → Kept s0 (f s)) (hc : Kept s0 s) :
    Kept s0 (State.afterStores s c f) := by
  unfold State.afterStores
  extract_lets z0
  have h0 : Kept s0 z0 := by repeat' first | (with_reducible first | assumption | apply State.drainPosted_kept) | intro _ | dsimp only
  try clear_value z0
  repeat' first | (with_reducible first | assumption | apply kept_ite | apply State.await_kept | apply hf) | intro _ | dsimp only
@[simp] theorem State.postStore_kept {s0 : State} (s : State) (c : Fin 33) (p : Posted) (hc : Kept s0 s) :
    Kept s0 (State.postStore s c p) := by
  unfold State.postStore
  extract_lets z0
  try clear_value z0
  repeat' first | (with_reducible first | assumption | apply kept_ite | apply State.await_kept | apply State.finishWith_kept | apply State.noteNotOn_kept) | simp only [kept_same] | dsimp only
@[simp] theorem State.raiseEither_kept {s0 : State} (s : State) (c : Nat) (a b : Bool) (ca cb : Nat) (f : State → State) (hf : ∀ s, Kept s0 s → Kept s0 (f s)) (hc : Kept s0 s) :
    Kept s0 (State.raiseEither s c a b ca cb f) := by
  unfold State.raiseEither
  repeat' first | (with_reducible first | assumption | apply kept_ite | apply State.exception_kept | apply State.tick_kept | apply hf) | simp only [kept_same] | intro _ | dsimp only | split
@[simp] theorem State.illegal_kept {s0 : State} (s : State) (c : Nat) (hc : Kept s0 s) :
    Kept s0 (State.illegal s c) := by
  unfold State.illegal
  repeat' first | (with_reducible first | assumption | apply kept_ite | apply State.exception_kept | apply State.meetDbe_kept) | dsimp only
@[simp] theorem State.regOp_kept {s0 : State} (s : State) (c : Nat) (o : EOp) (f : Engine → Word → Engine) (hc : Kept s0 s) :
    Kept s0 (State.regOp s c o f) := by
  unfold State.regOp
  repeat' first | (with_reducible first | assumption | apply State.finishWith_kept | apply State.runOp_kept) | intro _ | dsimp only
@[simp] theorem State.doLdl_kept {s0 : State} (s : State) (c : Fin 33) (w : Word) (hc : Kept s0 s) :
    Kept s0 (State.doLdl s c w) := by
  unfold State.doLdl
  extract_lets z0
  try clear_value z0
  repeat' first | (with_reducible first | assumption | apply kept_ite | apply State.afterStores_kept | apply State.correct_kept | apply State.finishWith_kept | apply State.meetDbe_kept | apply State.raiseEither_kept) | intro _ | dsimp only
@[simp] theorem State.putLocal_kept {s0 : State} (s : State) (a : Nat) (d : List Byte) (hc : Kept s0 s) :
    Kept s0 (State.putLocal s a d) := by
  unfold State.putLocal
  repeat' first | (with_reducible first | assumption | apply kept_ite | apply State.setBytes_kept | apply State.setDbe_kept | apply State.setSbe_kept) | dsimp only
@[simp] theorem State.doStl_kept {s0 : State} (s : State) (c : Fin 33) (w : Word) (hc : Kept s0 s) :
    Kept s0 (State.doStl s c w) := by
  unfold State.doStl
  extract_lets z0
  try clear_value z0
  repeat' first | (with_reducible first | assumption | apply State.afterStores_kept | apply State.finish_kept | apply State.putLocal_kept | apply State.raiseEither_kept) | intro _ | dsimp only
@[simp] theorem State.loadDbe_kept {s0 : State} (s : State) (c : Nat) (a : Nat) (hc : Kept s0 s) :
    Kept s0 (State.loadDbe s c a) := by
  unfold State.loadDbe
  repeat' first | (with_reducible first | assumption | apply kept_ite | apply State.exception_kept) | simp only [kept_same] | dsimp only | split
@[simp] theorem State.farLoad_kept {s0 : State} (s : State) (c : Fin 33) (w : Word) (a : Nat) (hc : Kept s0 s) :
    Kept s0 (State.farLoad s c w a) := by
  unfold State.farLoad
  repeat' first | (with_reducible first | assumption | apply kept_ite | apply State.await_kept | apply State.finishWith_kept | apply State.loadDbe_kept | apply State.mapRead1_kept | apply State.noteNotOn_kept | apply kept_ite2 | apply kept_ite3 | apply kept_ite4) | dsimp only
@[simp] theorem State.doLdf_kept {s0 : State} (s : State) (c : Fin 33) (w : Word) (hc : Kept s0 s) :
    Kept s0 (State.doLdf s c w) := by
  unfold State.doLdf
  extract_lets z0
  try clear_value z0
  repeat' first | (with_reducible first | assumption | apply State.afterStores_kept | apply State.farLoad_kept | apply State.raiseEither_kept) | intro _ | dsimp only
@[simp] theorem State.doStf_kept {s0 : State} (s : State) (c : Fin 33) (w : Word) (hc : Kept s0 s) :
    Kept s0 (State.doStf s c w) := by
  unfold State.doStf
  extract_lets z0
  try clear_value z0
  repeat' first | (with_reducible first | assumption | apply State.postStore_kept | apply State.raiseEither_kept) | intro _ | dsimp only
@[simp] theorem State.doLdx_kept {s0 : State} (s : State) (c : Fin 33) (w : Word) (hc : Kept s0 s) :
    Kept s0 (State.doLdx s c w) := by
  unfold State.doLdx
  extract_lets z0
  try clear_value z0
  repeat' first | (with_reducible first | assumption | apply kept_ite | apply State.afterStores_kept | apply State.exception_kept | apply State.farLoad_kept) | intro _ | dsimp only
@[simp] theorem State.doStx_kept {s0 : State} (s : State) (c : Fin 33) (w : Word) (hc : Kept s0 s) :
    Kept s0 (State.doStx s c w) := by
  unfold State.doStx
  extract_lets z0
  try clear_value z0
  repeat' first | (with_reducible first | assumption | apply kept_ite | apply State.exception_kept | apply State.postStore_kept) | dsimp only
@[simp] theorem State.atomAt_kept {s0 : State} (s : State) (c : Fin 33) (w : Word) (a : Nat) (swap : Bool) (hc : Kept s0 s) :
    Kept s0 (State.atomAt s c w a swap) := by
  unfold State.atomAt
  extract_lets z0
  try clear_value z0
  repeat' first | (with_reducible first | assumption | apply kept_ite | apply State.atomic_kept | apply State.await_kept | apply State.finishWith_kept | apply State.loadDbe_kept | apply State.noteNotOn_kept | apply kept_ite2 | apply kept_ite3 | apply kept_ite4) | dsimp only
@[simp] theorem State.doAtomF_kept {s0 : State} (s : State) (c : Fin 33) (w : Word) (swap : Bool) (hc : Kept s0 s) :
    Kept s0 (State.doAtomF s c w swap) := by
  unfold State.doAtomF
  extract_lets z0
  try clear_value z0
  repeat' first | (with_reducible first | assumption | apply State.afterStores_kept | apply State.atomAt_kept | apply State.raiseEither_kept) | intro _ | dsimp only
@[simp] theorem State.doAtomX_kept {s0 : State} (s : State) (c : Fin 33) (w : Word) (swap : Bool) (hc : Kept s0 s) :
    Kept s0 (State.doAtomX s c w swap) := by
  unfold State.doAtomX
  extract_lets z0
  try clear_value z0
  repeat' first | (with_reducible first | assumption | apply State.afterStores_kept | apply State.atomAt_kept | apply State.raiseEither_kept) | intro _ | dsimp only
@[simp] theorem State.doFence_kept {s0 : State} (s : State) (c : Fin 33) (hc : Kept s0 s) :
    Kept s0 (State.doFence s c) := by
  unfold State.doFence
  repeat' first | (with_reducible first | assumption | apply kept_ite | apply State.await_kept | apply State.finish_kept) | dsimp only
@[simp] theorem State.linked_kept {s0 : State} (s : State) (c : Nat) (hc : Kept s0 s) :
    Kept s0 (State.linked s c) := by
  unfold State.linked
  repeat' first | (with_reducible first | assumption | apply State.setEngine_kept) | dsimp only
@[simp] theorem State.doHaltInsn_kept {s0 : State} (s : State) (c : Fin 33) (hc : Kept s0 s) :
    Kept s0 (State.doHaltInsn s c) := by
  unfold State.doHaltInsn
  repeat' first | (with_reducible first | assumption | apply kept_ite | apply State.await_kept | apply State.halted_kept | apply State.setCoreState_kept | apply State.setEngine_kept | apply State.setPc_kept | apply State.wr_kept) | simp only [kept_same] | dsimp only
@[simp] theorem State.doTake_kept {s0 : State} (s : State) (c : Nat) (w : Word) (hc : Kept s0 s) :
    Kept s0 (State.doTake s c w) := by
  unfold State.doTake
  extract_lets z0
  try clear_value z0
  repeat' first | (with_reducible first | assumption | apply kept_ite | apply State.await_kept | apply State.finishWith_kept) | simp only [kept_same] | dsimp only | split
@[simp] theorem State.doPeek_kept {s0 : State} (s : State) (c : Nat) (w : Word) (hc : Kept s0 s) :
    Kept s0 (State.doPeek s c w) := by
  unfold State.doPeek
  extract_lets z0
  try clear_value z0
  repeat' first | (with_reducible first | assumption | apply kept_ite | apply State.await_kept | apply State.finishWith_kept) | simp only [kept_same] | dsimp only | split
@[simp] theorem State.doMatch_kept {s0 : State} (s : State) (c : Nat) (w : Word) (hc : Kept s0 s) :
    Kept s0 (State.doMatch s c w) := by
  unfold State.doMatch
  extract_lets z0
  try clear_value z0
  repeat' first | (with_reducible first | assumption | apply kept_ite | apply State.await_kept | apply State.finishWith_kept) | simp only [kept_same] | dsimp only | split
@[simp] theorem State.doMark_kept {s0 : State} (s : State) (c : Nat) (w : Word) (hc : Kept s0 s) :
    Kept s0 (State.doMark s c w) := by
  unfold State.doMark
  extract_lets z0
  try clear_value z0
  repeat' first | (with_reducible first | assumption | apply kept_ite | apply State.await_kept | apply State.finishWith_kept) | simp only [kept_same] | dsimp only | split
@[simp] theorem State.doGive_kept {s0 : State} (s : State) (c : Fin 33) (w : Word) (hc : Kept s0 s) :
    Kept s0 (State.doGive s c w) := by
  unfold State.doGive
  repeat' first | (with_reducible first | assumption | apply kept_ite | (apply kept_foldl; intro _ _ _) | apply State.afterStores_kept | apply State.await_kept | apply State.finishWith_kept | apply State.settleTx_kept) | simp only [kept_same] | intro _ | dsimp only
@[simp] theorem State.doGend_kept {s0 : State} (s : State) (c : Nat) (w : Word) (hc : Kept s0 s) :
    Kept s0 (State.doGend s c w) := by
  unfold State.doGend
  extract_lets z0 z1
  try clear_value z0
  try clear_value z1
  repeat' first | (with_reducible first | assumption | apply kept_ite | apply State.await_kept | apply State.finishWith_kept | apply State.settleTx_kept) | simp only [kept_same] | dsimp only
@[simp] theorem State.doTwait_kept {s0 : State} (s : State) (c : Nat) (w : Word) (hc : Kept s0 s) :
    Kept s0 (State.doTwait s c w) := by
  unfold State.doTwait
  repeat' first | (with_reducible first | assumption | apply kept_ite | apply State.await_kept | apply State.finish_kept) | dsimp only
@[simp] theorem State.giveEvents_kept {s0 : State} (s : State) (c : Nat) (w v : Word) (hc : Kept s0 s) :
    Kept s0 (State.giveEvents s c w v) := by
  unfold State.giveEvents
  repeat' first | (with_reducible first | assumption | apply State.finishWith_kept) | simp only [kept_same] | dsimp only
@[simp] theorem State.doEwait_kept {s0 : State} (s : State) (c : Nat) (w : Word) (hc : Kept s0 s) :
    Kept s0 (State.doEwait s c w) := by
  unfold State.doEwait
  repeat' first | (with_reducible first | assumption | apply kept_ite | apply State.await_kept | apply State.event_kept | apply State.giveEvents_kept) | dsimp only
@[simp] theorem State.doEwaitT_kept {s0 : State} (s : State) (c : Nat) (w : Word) (hc : Kept s0 s) :
    Kept s0 (State.doEwaitT s c w) := by
  unfold State.doEwaitT
  repeat' first | (with_reducible first | assumption | apply kept_ite | apply State.await_kept | apply State.event_kept | apply State.giveEvents_kept) | dsimp only
@[simp] theorem State.doLock_kept {s0 : State} (s : State) (c : Fin 33) (w : Word) (hc : Kept s0 s) :
    Kept s0 (State.doLock s c w) := by
  unfold State.doLock
  extract_lets z0 z1
  try clear_value z0
  try clear_value z1
  repeat' first | (with_reducible first | assumption | apply kept_ite | apply State.finishWith_kept | apply State.lockRead_kept | apply State.violate_kept | apply kept_ite2 | apply kept_ite3 | apply kept_ite4) | simp only [kept_same] | dsimp only
@[simp] theorem State.doUnlock_kept {s0 : State} (s : State) (c : Fin 33) (w : Word) (hc : Kept s0 s) :
    Kept s0 (State.doUnlock s c w) := by
  unfold State.doUnlock
  extract_lets z0 z1 z2
  try clear_value z0
  try clear_value z1
  have h2 : Kept s0 z2 := by repeat' first | (with_reducible first | assumption | apply kept_ite | apply State.lockFree_kept | apply State.violate_kept) | dsimp only
  try clear_value z2
  repeat' first | (with_reducible first | assumption | apply State.finish_kept) | dsimp only
@[simp] theorem State.doPostInsn_kept {s0 : State} (s : State) (c : Fin 33) (w : Word) (hc : Kept s0 s) :
    Kept s0 (State.doPostInsn s c w) := by
  unfold State.doPostInsn
  repeat' first | (with_reducible first | assumption | apply State.afterStores_kept | apply State.finish_kept | apply State.guard_kept | apply State.post_kept | apply State.runOp_kept) | intro _ | dsimp only
@[simp] theorem State.doDbrd_kept {s0 : State} (s : State) (c : Fin 33) (w : Word) (hc : Kept s0 s) :
    Kept s0 (State.doDbrd s c w) := by
  unfold State.doDbrd
  repeat' first | (with_reducible first | assumption | apply kept_ite | apply State.afterStores_kept | apply State.dbRead_kept | apply State.finishWith_kept | apply State.guard_kept | apply State.runOp_kept | apply State.violate_kept | apply kept_ite2 | apply kept_ite3 | apply kept_ite4) | simp only [kept_same] | intro _ | dsimp only
@[simp] theorem State.doDbclr_kept {s0 : State} (s : State) (c : Fin 33) (w : Word) (hc : Kept s0 s) :
    Kept s0 (State.doDbclr s c w) := by
  unfold State.doDbclr
  repeat' first | (with_reducible first | assumption | apply State.afterStores_kept | apply State.dbClear_kept | apply State.finish_kept | apply State.guard_kept | apply State.runOp_kept) | intro _ | dsimp only
@[simp] theorem State.doMramw_kept {s0 : State} (s : State) (c : Fin 33) (w : Word) (hc : Kept s0 s) :
    Kept s0 (State.doMramw s c w) := by
  unfold State.doMramw
  repeat' first | (with_reducible first | assumption | apply kept_ite | apply State.afterStores_kept | apply State.await_kept | apply State.exception_kept | apply State.finish_kept | apply State.guard_kept | apply State.runOp_kept | apply State.setBytes_kept) | intro _ | dsimp only
@[simp] theorem State.doSha_kept {s0 : State} (s : State) (c : Fin 33) (w : Word) (hc : Kept s0 s) :
    Kept s0 (State.doSha s c w) := by
  unfold State.doSha
  repeat' first | (with_reducible first | assumption | apply kept_ite | apply State.afterStores_kept | apply State.exception_kept | apply State.finish_kept | apply State.guard_kept | apply State.runOp_kept | apply State.setBytes_kept) | intro _ | dsimp only
@[simp] theorem State.resumeOp_kept {s0 : State} (s : State) (c : Fin 33) (w : Word) (o : EOp) (hc : Kept s0 s) : Kept s0 (s.resumeOp c w o) := by
  cases o <;> first
  | (simp [State.resumeOp, hc]; done)
  | (simp only [State.resumeOp]; exact State.afterStores_kept _ _ _ (fun s h => by simp [h]) hc)
@[simp] theorem State.doMapRead_kept {s0 : State} (s : State) (p : Path) (a : Nat) (size : Size) (beats : Nat) (hc : Kept s0 s) :
    Kept s0 (State.doMapRead s p a size beats) := by
  unfold State.doMapRead
  repeat' first | (with_reducible first | assumption | apply kept_ite | apply State.mapBurst_kept | apply State.readAnswer_kept | apply State.waitFor_kept | apply kept_ite2 | apply kept_ite3 | apply kept_ite4) | dsimp only
@[simp] theorem State.doMapWrite_kept {s0 : State} (s : State) (p : Path) (a : Nat) (size : Size) (d : List Byte) (hc : Kept s0 s) :
    Kept s0 (State.doMapWrite s p a size d) := by
  unfold State.doMapWrite
  extract_lets z0
  try clear_value z0
  repeat' first | (with_reducible first | assumption | apply kept_ite | apply State.mapStores_kept | apply State.waitFor_kept) | dsimp only
@[simp] theorem State.hostAtomic_kept {s0 : State} (s : State) (p : Path) (a : Nat) (wide swap : Bool) (x : Nat) (hc : Kept s0 s) :
    Kept s0 (State.hostAtomic s p a wide swap x) := by
  unfold State.hostAtomic
  extract_lets z0
  try clear_value z0
  repeat' first | (with_reducible first | assumption | apply kept_ite | apply State.atomic_kept | apply State.atomicAnswer_kept | apply State.violate_kept | apply State.waitFor_kept | apply kept_ite2 | apply kept_ite3 | apply kept_ite4) | dsimp only
@[simp] theorem State.qspiBegin_kept {s0 : State} (s : State) (hc : Kept s0 s) :
    Kept s0 (State.qspiBegin s) := by
  unfold State.qspiBegin
  repeat' first | (with_reducible first | assumption) | simp only [kept_same] | dsimp only
@[simp] theorem State.qspiFetch_kept {s0 : State} (s : State) (a f k : Nat) (hc : Kept s0 s) : Kept s0 (s.qspiFetch a f k).2.2.2 := by
  induction f generalizing s a k with
  | zero => simpa [State.qspiFetch] using hc
  | succ f ih =>
    cases k with
    | zero => exact hc
    | succ k =>
      exact ih _ _ _ (kept_ite3 (State.mapRead1_kept _ _ _ _ hc) (State.noteNotOn_kept _ hc))
@[simp] theorem State.qspiData_kept {s0 : State} (s : State) (a k : Nat) (hc : Kept s0 s) :
    Kept s0 (State.qspiData s a k).2.2.2 := by
  unfold State.qspiData
  repeat' first | (with_reducible first | assumption | apply kept_ite | apply State.qspiFetch_kept | apply kept_ite2 | apply kept_ite3 | apply kept_ite4) | dsimp only
@[simp] theorem State.qspiDrop_kept {s0 : State} (s : State) (hc : Kept s0 s) :
    Kept s0 (State.qspiDrop s) := by
  unfold State.qspiDrop
  repeat' first | (with_reducible first | assumption | apply State.cnt_kept) | simp only [kept_same] | dsimp only
@[simp] theorem State.qspiStore_kept {s0 : State} (s : State) (a : Nat) (d : List Byte) (x0 : Nat) (hc : Kept s0 s) :
    Kept s0 (State.qspiStore s a d x0) := by
  induction x0 generalizing s a d <;> first | (simp_all [State.qspiStore]; done) | (unfold State.qspiStore; (repeat' split) <;> simp_all)
@[simp] theorem State.qspiAtomic_kept {s0 : State} (s : State) (a : Nat) (wide swap : Bool) (x : Nat) (hc : Kept s0 s) :
    Kept s0 (State.qspiAtomic s a wide swap x) := by
  unfold State.qspiAtomic
  repeat' first | (with_reducible first | assumption | apply kept_ite | apply State.hostAtomic_kept | apply State.qspiDrop_kept) | simp only [kept_same] | dsimp only
@[simp] theorem State.odOp_kept {s0 : State} (s : State) (p : Path) (x : OdOp) (hc : Kept s0 s) :
    Kept s0 (State.odOp s p x).2 := by
  unfold State.odOp
  extract_lets z0
  try clear_value z0
  repeat' first | (with_reducible first | assumption | apply kept_ite | apply State.slotRead_kept | apply State.slotWrite_kept | apply State.windowRead_kept | apply State.windowWrite_kept | apply kept_ite2 | apply kept_ite3 | apply kept_ite4) | dsimp only
@[simp] theorem State.odOpsRun_kept {s0 : State} (s : State) (p : Path) (put : Nat → Nat → List Byte) (x0 : List OdOp) (hc : Kept s0 s) :
    Kept s0 (State.odOpsRun s p put x0).2 := by
  induction x0 generalizing s p put <;> first | (simp_all [State.odOpsRun]; done) | (unfold State.odOpsRun; (repeat' split) <;> simp_all)
@[simp] theorem State.openBytes_kept {s0 : State} (s : State) (n : Nat) (hc : Kept s0 s) :
    Kept s0 (State.openBytes s n).2 := by
  unfold State.openBytes
  repeat' first | (with_reducible first | assumption | apply State.tick_kept) | dsimp only
@[simp] theorem State.sessionRefuse_kept {s0 : State} (s : State) (c : Nat) (hc : Kept s0 s) :
    Kept s0 (State.sessionRefuse s c) := by
  unfold State.sessionRefuse
  extract_lets z0 z1
  have h0 : Kept s0 z0 := by repeat' first | (with_reducible first | assumption | apply State.cnt_kept | apply State.event_kept) | dsimp only
  try clear_value z0
  try clear_value z1
  repeat' first | (with_reducible first | assumption | apply kept_ite | apply State.sessionClose_kept | apply State.setSession_kept) | simp only [kept_same] | dsimp only
@[simp] theorem State.sessionOpen_kept {s0 : State} (s : State) (c path origin : Nat) (m : SMsg) (hc : Kept s0 s) :
    Kept s0 (State.sessionOpen s c path origin m).2.2.2 := by
  unfold State.sessionOpen
  extract_lets z0 z1 z2 z3
  have h0 : Kept s0 z0 := by repeat' first | (with_reducible first | assumption | apply kept_ite | apply State.sessionClose_kept | apply kept_ite2 | apply kept_ite3 | apply kept_ite4) | dsimp only
  try clear_value z0
  try clear_value z1
  have h2 : Kept s0 z2.2 := by repeat' first | (with_reducible first | assumption | apply State.openBytes_kept | apply State.tick_kept) | dsimp only
  try clear_value z2
  have h3 : Kept s0 z3 := by repeat' first | (with_reducible first | assumption | apply State.setSession_kept | apply State.wr_kept) | dsimp only
  try clear_value z3
  repeat' first | (with_reducible first | assumption) | dsimp only
@[simp] theorem State.sessionProve_kept {s0 : State} (s : State) (c : Nat) (m : SMsg) (hc : Kept s0 s) :
    Kept s0 (State.sessionProve s c m).2.2.2 := by
  unfold State.sessionProve
  extract_lets z0 z1
  try clear_value z0
  have h1 : Kept s0 z1 := by repeat' first | (with_reducible first | assumption | apply State.cnt_kept | apply State.event_kept | apply State.setSession_kept | apply State.wr_kept) | simp only [kept_same] | dsimp only
  try clear_value z1
  repeat' first | (with_reducible first | assumption | apply State.record_kept) | dsimp only
@[simp] theorem State.sessionAccess_kept {s0 : State} (s : State) (c : Nat) (m : SMsg) (hc : Kept s0 s) :
    Kept s0 (State.sessionAccess s c m).2.2.2 := by
  unfold State.sessionAccess
  extract_lets z0 z1 z2 z3
  try clear_value z0
  have h1 : Kept s0 z1 := by repeat' first | (with_reducible first | assumption | apply State.setSession_kept) | simp only [kept_same] | dsimp only
  try clear_value z1
  have h2 : Kept s0 z2.2 := by repeat' first | (with_reducible first | assumption | apply State.odOpsRun_kept) | dsimp only
  try clear_value z2
  have h3 : Kept s0 z3.2 := by repeat' first | (with_reducible first | assumption | apply State.openBytes_kept) | dsimp only
  try clear_value z3
  repeat' first | (with_reducible first | assumption) | dsimp only
@[simp] theorem State.sessionTake_kept {s0 : State} (s : State) (c path origin : Nat) (m : SMsg) (good : Bool) (hc : Kept s0 s) :
    Kept s0 (State.sessionTake s c path origin m good).2.2.2 := by
  unfold State.sessionTake
  repeat' first | (with_reducible first | assumption | apply kept_ite | apply State.sessionAccess_kept | apply State.sessionClose_kept | apply State.sessionOpen_kept | apply State.sessionProve_kept | apply State.sessionRefuse_kept | apply kept_ite2 | apply kept_ite3 | apply kept_ite4) | dsimp only
@[simp] theorem State.sessionReply_kept {s0 : State} (s : State) (a status num counter : Nat) (d : List Byte) (hc : Kept s0 s) :
    Kept s0 (State.sessionReply s a status num counter d) := by
  unfold State.sessionReply
  repeat' first | (with_reducible first | assumption | apply kept_ite | apply State.doMapWrite_kept) | dsimp only
@[simp] theorem State.sessionMessage_kept {s0 : State} (s : State) (c op : Nat) (good : Bool) (hc : Kept s0 s) :
    Kept s0 (State.sessionMessage s c op good) := by
  unfold State.sessionMessage
  repeat' first | (with_reducible first | assumption | apply kept_ite | apply State.dbClear_kept | apply State.dbRead_kept | apply State.drop_kept | apply State.sessionReply_kept | apply State.sessionTake_kept | apply kept_ite2 | apply kept_ite3 | apply kept_ite4) | dsimp only
@[simp] theorem State.resetWrite_kept {s0 : State} (s : State) (p : Path) (sub v : Nat) (hc : Kept s0 s) :
    Kept s0 (State.resetWrite s p sub v) := by
  unfold State.resetWrite
  repeat' first | (with_reducible first | assumption | apply State.blockResets_kept | apply State.guard_kept) | intro _ | dsimp only
theorem State.service_kept {s0 : State} (s : State) (typ : Nat) {t} (h : s.service typ = some t) (hc : Kept s0 s) : Kept s0 t.2 := by
  unfold State.service at h
  split at h
  · simp at h
  · exact State.latGot_kept _ _ _ h hc
@[simp] theorem State.latAnswer_kept {s0 : State} (s : State) (x : LatFrame) (payload : List Byte) (hc : Kept s0 s) :
    Kept s0 (State.latAnswer s x payload) := by
  unfold State.latAnswer
  extract_lets z0
  try clear_value z0
  repeat' first | (with_reducible first | assumption | apply State.latTo_kept | apply State.setLat_kept) | simp only [kept_same] | intro _ | dsimp only
@[simp] theorem State.relayPost_kept {s0 : State} (s : State) (p : Path) (c bits : Nat) (d : List Byte) (hc : Kept s0 s) :
    Kept s0 (State.relayPost s p c bits d) := by
  unfold State.relayPost
  extract_lets z0
  try clear_value z0
  repeat' first | (with_reducible first | assumption | apply kept_ite | (apply kept_foldl; intro _ _ _) | apply State.drop_kept | apply State.guard_kept | apply State.lockFree_kept | apply State.lockRead_kept | apply State.memWrite_kept | apply State.post_kept | apply State.violate_kept | apply kept_ite2 | apply kept_ite3 | apply kept_ite4) | intro _ | dsimp only
@[simp] theorem State.apexInstall_kept {s0 : State} (s : State) (a len : Nat) (hc : Kept s0 s) :
    Kept s0 (State.apexInstall s a len) := by
  unfold State.apexInstall
  extract_lets z0
  try clear_value z0
  repeat' first | (with_reducible first | assumption | apply State.setBytes_kept | apply State.tick_kept) | dsimp only
@[simp] theorem State.applyEntry_kept {s0 : State} (s : State) (e : List Byte) (hc : Kept s0 s) :
    Kept s0 (State.applyEntry s e) := by
  unfold State.applyEntry
  extract_lets z0 z1 z2 z3 z4 z5
  try clear_value z0
  try clear_value z1
  try clear_value z2
  try clear_value z3
  try clear_value z4
  try clear_value z5
  repeat' first | (with_reducible first | assumption | apply kept_ite | apply State.cnt_kept | apply State.odSet_kept) | dsimp only
@[simp] theorem State.applySet_kept {s0 : State} (s : State) (d : List Byte) (hc : Kept s0 s) :
    Kept s0 (State.applySet s d) := by
  unfold State.applySet
  repeat' first | (with_reducible first | assumption | (apply kept_foldl; intro _ _ _) | apply State.applyEntry_kept | apply State.drop_kept) | intro _ | dsimp only
@[simp] theorem State.storeSet_kept {s0 : State} (s : State) (d : List Byte) (hc : Kept s0 s) :
    Kept s0 (State.storeSet s d) := by
  unfold State.storeSet
  extract_lets z0
  have h0 : Kept s0 z0 := by repeat' first | (with_reducible first | assumption | apply State.drop_kept | apply State.setLat_kept | apply State.wr_kept) | simp only [kept_same] | intro _ | dsimp only
  try clear_value z0
  repeat' first | (with_reducible first | assumption | apply State.paramOp_kept) | dsimp only
@[simp] theorem State.setRecord_kept {s0 : State} (s : State) (d : List Byte) (applied refused : Nat) (hc : Kept s0 s) :
    Kept s0 (State.setRecord s d applied refused) := by
  unfold State.setRecord
  repeat' first | (with_reducible first | assumption | apply State.record_kept) | dsimp only
@[simp] theorem State.publish_kept {s0 : State} (s : State) (hc : Kept s0 s) :
    Kept s0 (State.publish s) := by
  unfold State.publish
  extract_lets z0 z1
  try clear_value z0
  try clear_value z1
  repeat' first | (with_reducible first | assumption | apply kept_ite | (apply kept_foldl; intro _ _ _) | apply State.applySet_kept | apply State.distribute_kept | apply State.drop_kept | apply State.fetchBytes_kept | apply State.latEvent_kept | apply State.latRefresh_kept | apply State.memWrite_kept | apply State.setRecord_kept | apply State.storeSet_kept | apply State.wr_kept | apply kept_ite2 | apply kept_ite3 | apply kept_ite4) | intro _ | dsimp only
@[simp] theorem State.fetchFailed_kept {s0 : State} (s : State) (hc : Kept s0 s) :
    Kept s0 (State.fetchFailed s) := by
  unfold State.fetchFailed
  repeat' first | (with_reducible first | assumption | apply State.latEvent_kept | apply State.setLat_kept) | simp only [kept_same] | intro _ | dsimp only | split
@[simp] theorem State.proveAsk_kept {s0 : State} (s : State) (f : LatFetch) (num counter : Nat) (hc : Kept s0 s) :
    Kept s0 (State.proveAsk s f num counter) := by
  unfold State.proveAsk
  extract_lets z0
  have h0 : Kept s0 z0.2 := by repeat' first | (with_reducible first | assumption | apply State.freeBytes_kept) | dsimp only
  try clear_value z0
  repeat' first | (with_reducible first | assumption | apply State.latAsk_kept | apply State.setLat_kept) | simp only [kept_same] | intro _ | dsimp only
@[simp] theorem State.fetchAnswer_kept {s0 : State} (s : State) (x : LatFrame) (f : LatFetch) (hc : Kept s0 s) :
    Kept s0 (State.fetchAnswer s x f) := by
  unfold State.fetchAnswer
  repeat' first | (with_reducible first | assumption | apply kept_ite | apply State.askBlock_kept | apply State.fetchFailed_kept | apply State.proveAsk_kept | apply State.setLat_kept) | simp only [kept_same] | intro _ | dsimp only
@[simp] theorem State.leaveQuarantine_kept {s0 : State} (s : State) (gen : Nat) (hc : Kept s0 s) :
    Kept s0 (State.leaveQuarantine s gen) := by
  unfold State.leaveQuarantine
  repeat' first | (with_reducible first | assumption | apply kept_ite | apply State.enter_kept | apply State.latEnter_kept | apply State.latEvent_kept | apply State.record_kept | apply State.unhold_kept | apply State.wr_kept) | dsimp only
@[simp] theorem State.fetchDone_kept {s0 : State} (s : State) (f : LatFetch) (hc : Kept s0 s) :
    Kept s0 (State.fetchDone s f) := by
  unfold State.fetchDone
  repeat' first | (with_reducible first | assumption | apply kept_ite | apply State.applySet_kept | apply State.confirmConfig_kept | apply State.fetchFailed_kept | apply State.latEvent_kept | apply State.latRefresh_kept | apply State.leaveQuarantine_kept | apply State.setLat_kept | apply State.setRecord_kept | apply State.storeSet_kept | apply kept_ite2 | apply kept_ite3 | apply kept_ite4) | simp only [kept_same] | intro _ | dsimp only
@[simp] theorem State.wakeFrame_kept {s0 : State} (s : State) (p : Nat) (d : List Byte) (hc : Kept s0 s) :
    Kept s0 (State.wakeFrame s p d) := by
  unfold State.wakeFrame
  extract_lets z0
  try clear_value z0
  repeat' first | (with_reducible first | assumption | apply kept_ite | apply State.cnt_kept | apply State.portEvent_kept | apply State.wake_kept | apply State.wr_kept) | dsimp only
@[simp] theorem State.showPaused_kept {s0 : State} (s : State) (p : Nat) (hc : Kept s0 s) :
    Kept s0 (State.showPaused s p) := by
  unfold State.showPaused
  repeat' first | (with_reducible first | assumption | apply State.putBits_kept) | dsimp only
@[simp] theorem State.applyPause_kept {s0 : State} (s : State) (p : Nat) (hc : Kept s0 s) :
    Kept s0 (State.applyPause s p) := by
  unfold State.applyPause
  extract_lets z0
  try clear_value z0
  repeat' first | (with_reducible first | assumption | apply State.setPort_kept | apply State.showPaused_kept) | simp only [kept_same] | dsimp only | split
@[simp] theorem State.macControl_kept {s0 : State} (s : State) (p : Nat) (d : List Byte) (hc : Kept s0 s) :
    Kept s0 (State.macControl s p d) := by
  unfold State.macControl
  extract_lets z0 z1 z2 z3
  try clear_value z0
  try clear_value z1
  try clear_value z2
  try clear_value z3
  repeat' first | (with_reducible first | assumption | apply kept_ite | (apply kept_foldl; intro _ _ _) | apply State.applyPause_kept | apply State.setPort_kept | apply State.stat_kept) | simp only [kept_same] | intro _ | dsimp only
@[simp] theorem State.rxToSwitch_kept {s0 : State} (s : State) (p : Nat) (d : List Byte) (r : RxResult) (hc : Kept s0 s) :
    Kept s0 (State.rxToSwitch s p d r) := by
  unfold State.rxToSwitch
  extract_lets z0
  have h0 : Kept s0 z0 := by repeat' first | (with_reducible first | assumption | apply kept_ite | apply State.storeComplete_kept) | dsimp only
  try clear_value z0
  repeat' first | (with_reducible first | assumption | apply State.setPort_kept) | simp only [kept_same] | dsimp only
@[simp] theorem State.receive_kept {s0 : State} (s : State) (p : Nat) (d : List Byte) (er : Option Nat) (frags : Nat) (hc : Kept s0 s) :
    Kept s0 (State.receive s p d er frags) := by
  unfold State.receive
  extract_lets z0 z1 z2 z3
  try clear_value z0
  have h1 : Kept s0 z1 := by repeat' first | (with_reducible first | assumption | apply State.countRx_kept) | dsimp only
  try clear_value z1
  have h2 : Kept s0 z2 := by repeat' first | (with_reducible first | assumption | apply kept_ite | apply State.stat_kept | apply State.statAdd_kept) | dsimp only
  try clear_value z2
  have h3 : Kept s0 z3 := by repeat' first | (with_reducible first | assumption | apply State.wakeFrame_kept) | dsimp only
  try clear_value z3
  repeat' first | (with_reducible first | assumption | apply kept_ite | apply State.macControl_kept | apply State.rxToSwitch_kept) | dsimp only
@[simp] theorem State.netGet_kept {s0 : State} (s : State) (n i j : Nat) (hc : Kept s0 s) :
    Kept s0 (State.netGet s n i j).2 := by
  unfold State.netGet
  extract_lets z0
  try clear_value z0
  repeat' first | (with_reducible first | assumption | apply kept_ite | apply State.instRead_kept | apply State.odGet_kept | apply State.violate_kept | apply kept_ite2 | apply kept_ite3 | apply kept_ite4) | simp only [kept_same] | dsimp only | split
@[simp] theorem State.netSet_kept {s0 : State} (s : State) (n i j v : Nat) (hc : Kept s0 s) :
    Kept s0 (State.netSet s n i j v) := by
  unfold State.netSet
  extract_lets z0
  try clear_value z0
  repeat' first | (with_reducible first | assumption | apply kept_ite | apply State.instWrite_kept | apply State.odSet_kept | apply State.violate_kept) | simp only [kept_same] | dsimp only | split
@[simp] theorem State.netValue_kept {s0 : State} (s : State) (n i j : Nat) (v : Option Nat) (hc : Kept s0 s) :
    Kept s0 (State.netValue s n i j v) := by
  unfold State.netValue
  repeat' first | (with_reducible first | assumption | apply State.emit_kept | apply State.netGet_kept | apply State.netSet_kept) | simp only [kept_same] | dsimp only | split
@[simp] theorem State.setNetSel_kept {s0 : State} (s : State) (n conn v : Nat) (hc : Kept s0 s) :
    Kept s0 (State.setNetSel s n conn v) := by
  unfold State.setNetSel
  repeat' first | (with_reducible first | assumption | apply State.setInst_kept) | simp only [kept_same] | intro _ | dsimp only
@[simp] theorem State.modbusRead_kept {s0 : State} (s : State) (n conn : Nat) (hc : Kept s0 s) :
    Kept s0 (State.modbusRead s n conn) := by
  unfold State.modbusRead
  extract_lets z0 z1 z2 z3
  try clear_value z0
  have h1 : Kept s0 z1.2 := by repeat' first | (with_reducible first | assumption | apply State.netGet_kept) | dsimp only
  try clear_value z1
  try clear_value z2
  try clear_value z3
  repeat' first | (with_reducible first | assumption | apply State.emit_kept | apply State.netGet_kept | apply State.setInst_kept) | simp only [kept_same] | intro _ | dsimp only
@[simp] theorem State.modbusCommit_kept {s0 : State} (s : State) (n conn v : Nat) (hc : Kept s0 s) :
    Kept s0 (State.modbusCommit s n conn v) := by
  unfold State.modbusCommit
  extract_lets z0 z1 z2 z3
  try clear_value z0
  try clear_value z1
  try clear_value z2
  try clear_value z3
  repeat' first | (with_reducible first | assumption | apply State.emit_kept | apply State.netSet_kept | apply State.setInst_kept) | simp only [kept_same] | intro _ | dsimp only
@[simp] theorem State.modbusReg_kept {s0 : State} (s : State) (n conn k : Nat) (v : Option Nat) (hc : Kept s0 s) :
    Kept s0 (State.modbusReg s n conn k v) := by
  unfold State.modbusReg
  extract_lets z0
  try clear_value z0
  repeat' first | (with_reducible first | assumption | apply kept_ite | apply State.emit_kept | apply State.modbusCommit_kept | apply State.modbusRead_kept | apply State.setInst_kept | apply State.setNetSel_kept) | simp only [kept_same] | intro _ | dsimp only | split
@[simp] theorem State.netAccess_kept {s0 : State} (s : State) (n conn : Nat) (op : NetOp) (hc : Kept s0 s) :
    Kept s0 (State.netAccess s n conn op) := by
  unfold State.netAccess
  extract_lets z0
  try clear_value z0
  repeat' first | (with_reducible first | assumption | apply kept_ite | apply State.emit_kept | apply State.modbusReg_kept | apply State.netValue_kept | apply State.setInst_kept | apply State.setNetSel_kept | apply State.slotRead_kept | apply State.slotWrite_kept | apply kept_ite2 | apply kept_ite3 | apply kept_ite4) | simp only [kept_same] | dsimp only | split

end Sys2Proof.Machine
end

