-- ==== Sys2Proof/Laws/KeptExec.lean ====
section
/-! SUPPORT. Every command keeps what every operation keeps (Laws/Kept.lean). -/

namespace Sys2Proof.Machine
set_option linter.all false
set_option maxRecDepth 4000

theorem execRxLaneFrame_kept (e : Fin 32) (first : Option (Word × BitVec 2)) (nibs : List Nib) (last : Option (BitVec 3)) (s : State) {u : State} (h : execRxLaneFrame e first nibs last s = .next u) : Kept s u := by
  unfold execRxLaneFrame at h
  simp only [Host.Outcome.next.injEq] at h
  have hc := kept_refl s
  rw [← h]
  clear h
  repeat' first | (with_reducible first | assumption | apply kept_ite | apply State.guard_kept | apply State.laneReceive_kept) | intro _ | dsimp only
theorem execTxLaneUnderrun_kept (e : Fin 32) (s : State) {u : State} (h : execTxLaneUnderrun e s = .next u) : Kept s u := by
  unfold execTxLaneUnderrun at h
  simp only [Host.Outcome.next.injEq] at h
  have hc := kept_refl s
  rw [← h]
  clear h
  repeat' first | (with_reducible first | assumption | apply kept_ite | apply State.guard_kept | apply State.txUnderrun_kept) | intro _ | dsimp only
theorem execLaneBindingApply_kept (e : Fin 32) (tx : Bool) (s : State) {u : State} (h : execLaneBindingApply e tx s = .next u) : Kept s u := by
  unfold execLaneBindingApply at h
  simp only [Host.Outcome.next.injEq] at h
  have hc := kept_refl s
  rw [← h]
  clear h
  repeat' first | (with_reducible first | assumption | apply kept_ite | apply State.guard_kept | apply State.setEngine_kept) | simp only [kept_same] | intro _ | dsimp only
theorem execBankPowerWrite_kept (p : Path) (b : Fin 96) (v : Word) (s : State) {u : State} (h : execBankPowerWrite p b v s = .next u) : Kept s u := by
  unfold execBankPowerWrite at h
  simp only [Host.Outcome.next.injEq] at h
  have hc := kept_refl s
  rw [← h]
  clear h
  repeat' first | (with_reducible first | assumption | apply State.doBankPower_kept | apply State.guard_kept) | intro _ | dsimp only
theorem execBankTransitionDone_kept (b : Fin 96) (s : State) {u : State} (h : execBankTransitionDone b s = .next u) : Kept s u := by
  unfold execBankTransitionDone at h
  simp only [Host.Outcome.next.injEq] at h
  have hc := kept_refl s
  rw [← h]
  clear h
  repeat' first | (with_reducible first | assumption | apply kept_ite | apply State.bankStep_kept | apply State.guard_kept) | intro _ | dsimp only
theorem execScrubPassStart_kept (s : State) {u : State} (h : execScrubPassStart s = .next u) : Kept s u := by
  unfold execScrubPassStart at h
  simp only [Host.Outcome.next.injEq] at h
  have hc := kept_refl s
  rw [← h]
  clear h
  repeat' first | (with_reducible first | assumption | apply kept_ite | (apply kept_foldl; intro _ _ _) | apply State.correct_kept | apply State.guard_kept | apply State.meetDbe_kept) | simp only [kept_same] | intro _ | dsimp only
theorem execScrubPassDone_kept (s : State) {u : State} (h : execScrubPassDone s = .next u) : Kept s u := by
  unfold execScrubPassDone at h
  simp only [Host.Outcome.next.injEq] at h
  have hc := kept_refl s
  rw [← h]
  clear h
  repeat' first | (with_reducible first | assumption | apply kept_ite | apply State.cnt_kept | apply State.event_kept | apply State.guard_kept) | simp only [kept_same] | intro _ | dsimp only
theorem execSwitchAdmission_kept (p : Fin 12) (head : List Byte) (ago : Nat) (phase : Fin 8) (whole : Bool) (s : State) {u : State} (h : execSwitchAdmission p head ago phase whole s = .next u) : Kept s u := by
  unfold execSwitchAdmission at h
  simp only [Host.Outcome.next.injEq] at h
  have hc := kept_refl s
  rw [← h]
  clear h
  repeat' first | (with_reducible first | assumption | apply State.admission_kept | apply State.guard_kept) | intro _ | dsimp only
theorem execLatticeFrameForward_kept (p : Fin 12) (head : List Byte) (ago : Nat) (phase : Fin 8) (s : State) {u : State} (h : execLatticeFrameForward p head ago phase s = .next u) : Kept s u := by
  unfold execLatticeFrameForward at h
  simp only [Host.Outcome.next.injEq] at h
  have hc := kept_refl s
  rw [← h]
  clear h
  repeat' first | (with_reducible first | assumption | apply kept_ite | apply State.admission_kept | apply State.guard_kept) | intro _ | dsimp only
theorem execFrameStoreComplete_kept (p : Fin 12) (s : State) {u : State} (h : execFrameStoreComplete p s = .next u) : Kept s u := by
  unfold execFrameStoreComplete at h
  simp only [Host.Outcome.next.injEq] at h
  have hc := kept_refl s
  rw [← h]
  clear h
  repeat' first | (with_reducible first | assumption | apply State.guard_kept | apply State.storeComplete_kept) | intro _ | dsimp only
theorem execLinkUp_kept (p : Fin 12) (told : Fin 8) (s : State) {u : State} (h : execLinkUp p told s = .next u) : Kept s u := by
  unfold execLinkUp at h
  simp only [Host.Outcome.next.injEq] at h
  have hc := kept_refl s
  rw [← h]
  clear h
  repeat' first | (with_reducible first | assumption | apply State.guard_kept | apply State.linkCome_kept) | intro _ | dsimp only
theorem execLinkDown_kept (p : Fin 12) (got : Option Nat) (s : State) {u : State} (h : execLinkDown p got s = .next u) : Kept s u := by
  unfold execLinkDown at h
  simp only [Host.Outcome.next.injEq] at h
  have hc := kept_refl s
  rw [← h]
  clear h
  repeat' first | (with_reducible first | assumption | apply kept_ite | apply State.cutRx_kept | apply State.guard_kept | apply State.linkDown_kept | apply State.setPort_kept) | simp only [kept_same] | intro _ | dsimp only | split
theorem execPortLinkConfigChange_kept (p : Fin 12) (s : State) {u : State} (h : execPortLinkConfigChange p s = .next u) : Kept s u := by
  unfold execPortLinkConfigChange at h
  simp only [Host.Outcome.next.injEq] at h
  have hc := kept_refl s
  rw [← h]
  clear h
  repeat' first | (with_reducible first | assumption | apply kept_ite | apply State.applyLinkCfg_kept | apply State.guard_kept | apply State.linkDown_kept) | intro _ | dsimp only
theorem execPortFrameConfigApply_kept (p : Fin 12) (tx : Bool) (s : State) {u : State} (h : execPortFrameConfigApply p tx s = .next u) : Kept s u := by
  unfold execPortFrameConfigApply at h
  simp only [Host.Outcome.next.injEq] at h
  have hc := kept_refl s
  rw [← h]
  clear h
  repeat' first | (with_reducible first | assumption | apply kept_ite | apply State.applyRxCfg_kept | apply State.applyTxCfg_kept | apply State.guard_kept | apply State.touchCredit_kept) | intro _ | dsimp only
theorem execSerdesLockAcquired_kept (n : Fin 4) (s : State) {u : State} (h : execSerdesLockAcquired n s = .next u) : Kept s u := by
  unfold execSerdesLockAcquired at h
  simp only [Host.Outcome.next.injEq] at h
  have hc := kept_refl s
  rw [← h]
  clear h
  repeat' first | (with_reducible first | assumption | apply kept_ite | apply State.guard_kept | apply State.setBits_kept) | intro _ | dsimp only
theorem execSerdesLockLost_kept (n : Fin 4) (got : Option Nat) (s : State) {u : State} (h : execSerdesLockLost n got s = .next u) : Kept s u := by
  unfold execSerdesLockLost at h
  simp only [Host.Outcome.next.injEq] at h
  have hc := kept_refl s
  rw [← h]
  clear h
  repeat' first | (with_reducible first | assumption | apply kept_ite | apply State.clrBits_kept | apply State.cutRx_kept | apply State.guard_kept | apply State.linkDown_kept | apply State.portEvent_kept) | simp only [kept_same] | intro _ | dsimp only | split
theorem execMdioC22Write_kept (q : Path) (m : Fin 2) (phy reg : BitVec 5) (data : Half) (s : State) {u : State} (h : execMdioC22Write q m phy reg data s = .next u) : Kept s u := by
  unfold execMdioC22Write at h
  simp only [Host.Outcome.next.injEq] at h
  have hc := kept_refl s
  rw [← h]
  clear h
  repeat' first | (with_reducible first | assumption | apply State.guard_kept | apply State.mdioFrame_kept) | intro _ | dsimp only
theorem execMdioC22Read_kept (q : Path) (m : Fin 2) (phy reg : BitVec 5) (data : Half) (s : State) {u : State} (h : execMdioC22Read q m phy reg data s = .next u) : Kept s u := by
  unfold execMdioC22Read at h
  simp only [Host.Outcome.next.injEq] at h
  have hc := kept_refl s
  rw [← h]
  clear h
  repeat' first | (with_reducible first | assumption | apply State.guard_kept | apply State.mdioFrame_kept) | intro _ | dsimp only
theorem execMdioC45Address_kept (q : Path) (m : Fin 2) (phy reg : BitVec 5) (data : Half) (s : State) {u : State} (h : execMdioC45Address q m phy reg data s = .next u) : Kept s u := by
  unfold execMdioC45Address at h
  simp only [Host.Outcome.next.injEq] at h
  have hc := kept_refl s
  rw [← h]
  clear h
  repeat' first | (with_reducible first | assumption | apply State.guard_kept | apply State.mdioFrame_kept) | intro _ | dsimp only
theorem execMdioC45Write_kept (q : Path) (m : Fin 2) (phy reg : BitVec 5) (data : Half) (s : State) {u : State} (h : execMdioC45Write q m phy reg data s = .next u) : Kept s u := by
  unfold execMdioC45Write at h
  simp only [Host.Outcome.next.injEq] at h
  have hc := kept_refl s
  rw [← h]
  clear h
  repeat' first | (with_reducible first | assumption | apply State.guard_kept | apply State.mdioFrame_kept) | intro _ | dsimp only
theorem execMdioC45Read_kept (q : Path) (m : Fin 2) (phy reg : BitVec 5) (data : Half) (s : State) {u : State} (h : execMdioC45Read q m phy reg data s = .next u) : Kept s u := by
  unfold execMdioC45Read at h
  simp only [Host.Outcome.next.injEq] at h
  have hc := kept_refl s
  rw [← h]
  clear h
  repeat' first | (with_reducible first | assumption | apply State.guard_kept | apply State.mdioFrame_kept) | intro _ | dsimp only
theorem execMdioC45ReadIncrement_kept (q : Path) (m : Fin 2) (phy reg : BitVec 5) (data : Half) (s : State) {u : State} (h : execMdioC45ReadIncrement q m phy reg data s = .next u) : Kept s u := by
  unfold execMdioC45ReadIncrement at h
  simp only [Host.Outcome.next.injEq] at h
  have hc := kept_refl s
  rw [← h]
  clear h
  repeat' first | (with_reducible first | assumption | apply State.guard_kept | apply State.mdioFrame_kept) | intro _ | dsimp only
theorem execMdioFrameEnd_kept (m : Fin 2) (data : Half) (s : State) {u : State} (h : execMdioFrameEnd m data s = .next u) : Kept s u := by
  unfold execMdioFrameEnd at h
  simp only [Host.Outcome.next.injEq] at h
  have hc := kept_refl s
  rw [← h]
  clear h
  repeat' first | (with_reducible first | assumption | apply kept_ite | apply State.guard_kept | apply State.setMdio_kept | apply State.wr_kept) | intro _ | dsimp only
theorem execMdioPoll_kept (p : Fin 8) (r1 r4 r5 r9 r10 : Half) (got : Option Nat) (s : State) {u : State} (h : execMdioPoll p r1 r4 r5 r9 r10 got s = .next u) : Kept s u := by
  unfold execMdioPoll at h
  simp only [Host.Outcome.next.injEq] at h
  have hc := kept_refl s
  rw [← h]
  clear h
  repeat' first | (with_reducible first | assumption | apply kept_ite | (apply kept_foldl; intro _ _ _) | apply State.cutRx_kept | apply State.emit_kept | apply State.guard_kept | apply State.linkDown_kept | apply State.setPort_kept) | simp only [kept_same] | intro _ | dsimp only | split
theorem execTxSelection_kept (p : Fin 12) (phase : Fin 8) (dt : Nat) (s : State) {u : State} (h : execTxSelection p phase dt s = .next u) : Kept s u := by
  unfold execTxSelection at h
  simp only [Host.Outcome.next.injEq] at h
  have hc := kept_refl s
  rw [← h]
  clear h
  repeat' first | (with_reducible first | assumption | apply kept_ite | apply State.advance_kept | apply State.dropOversize_kept | apply State.guard_kept | apply State.startPause_kept | apply State.startQueue_kept | apply State.touchCredit_kept) | simp only [kept_same] | intro _ | dsimp only | split
theorem execTxLaneFrameStart_kept (e : Fin 32) (phase : Fin 8) (dt : Nat) (s : State) {u : State} (h : execTxLaneFrameStart e phase dt s = .next u) : Kept s u := by
  unfold execTxLaneFrameStart at h
  simp only [Host.Outcome.next.injEq] at h
  have hc := kept_refl s
  rw [← h]
  clear h
  repeat' first | (with_reducible first | assumption | apply kept_ite | apply State.advance_kept | apply State.beginTx_kept | apply State.guard_kept | apply State.setPort_kept | apply State.startLane_kept | apply State.touchCredit_kept) | simp only [kept_same] | intro _ | dsimp only | split
theorem execPortFrameTransmitted_kept (p : Fin 12) (frags : Nat) (dt : Nat) (s : State) {u : State} (h : execPortFrameTransmitted p frags dt s = .next u) : Kept s u := by
  unfold execPortFrameTransmitted at h
  simp only [Host.Outcome.next.injEq] at h
  have hc := kept_refl s
  rw [← h]
  clear h
  repeat' first | (with_reducible first | assumption | apply kept_ite | apply State.advance_kept | apply State.guard_kept | apply State.statAdd_kept | apply State.transmitted_kept) | simp only [kept_same] | intro _ | dsimp only | split
theorem execTsRecordWrite_kept (p : Fin 12) (s : State) {u : State} (h : execTsRecordWrite p s = .next u) : Kept s u := by
  unfold execTsRecordWrite at h
  simp only [Host.Outcome.next.injEq] at h
  have hc := kept_refl s
  rw [← h]
  clear h
  repeat' first | (with_reducible first | assumption | apply kept_ite | apply State.guard_kept | apply State.portEvent_kept | apply State.setPort_kept | apply State.unitWrite_kept) | simp only [kept_same] | intro _ | dsimp only | split
theorem execGateConfigChange_kept (m : Path) (p : Fin 12) (v : Word) (s : State) {u : State} (h : execGateConfigChange m p v s = .next u) : Kept s u := by
  unfold execGateConfigChange at h
  simp only [Host.Outcome.next.injEq] at h
  have hc := kept_refl s
  rw [← h]
  clear h
  repeat' first | (with_reducible first | assumption | apply State.gateChange_kept | apply State.guard_kept) | intro _ | dsimp only
theorem execGateConfigOperational_kept (p : Fin 12) (dt : Nat) (s : State) {u : State} (h : execGateConfigOperational p dt s = .next u) : Kept s u := by
  unfold execGateConfigOperational at h
  simp only [Host.Outcome.next.injEq] at h
  have hc := kept_refl s
  rw [← h]
  clear h
  repeat' first | (with_reducible first | assumption | apply kept_ite | apply State.advance_kept | apply State.guard_kept | apply State.moveGate_kept | apply State.swEvent_kept | apply State.wr_kept) | simp only [kept_same] | intro _ | dsimp only | split
theorem execGateIntervalExpiry_kept (p : Fin 12) (dt : Nat) (s : State) {u : State} (h : execGateIntervalExpiry p dt s = .next u) : Kept s u := by
  unfold execGateIntervalExpiry at h
  simp only [Host.Outcome.next.injEq] at h
  have hc := kept_refl s
  rw [← h]
  clear h
  repeat' first | (with_reducible first | assumption | apply State.advance_kept | apply State.guard_kept | apply State.moveGate_kept) | simp only [kept_same] | intro _ | dsimp only | split
theorem execSpliceCommit_kept (q : Path) (d : Fin 16) (v : Half) (s : State) {u : State} (h : execSpliceCommit q d v s = .next u) : Kept s u := by
  unfold execSpliceCommit at h
  simp only [Host.Outcome.next.injEq] at h
  have hc := kept_refl s
  rw [← h]
  clear h
  repeat' first | (with_reducible first | assumption | apply State.guard_kept | apply State.spliceCommit_kept) | intro _ | dsimp only
theorem execSpliceLoadDone_kept (d : Fin 16) (s : State) {u : State} (h : execSpliceLoadDone d s = .next u) : Kept s u := by
  unfold execSpliceLoadDone at h
  simp only [Host.Outcome.next.injEq] at h
  have hc := kept_refl s
  rw [← h]
  clear h
  repeat' first | (with_reducible first | assumption | apply State.guard_kept | apply State.spliceLoaded_kept) | intro _ | dsimp only
theorem execSpliceTableActivate_kept (d : Fin 16) (s : State) {u : State} (h : execSpliceTableActivate d s = .next u) : Kept s u := by
  unfold execSpliceTableActivate at h
  simp only [Host.Outcome.next.injEq] at h
  have hc := kept_refl s
  rw [← h]
  clear h
  repeat' first | (with_reducible first | assumption | apply State.guard_kept | apply State.spliceActivate_kept) | intro _ | dsimp only
theorem execChordConfigApply_kept (d : Fin 8) (s : State) {u : State} (h : execChordConfigApply d s = .next u) : Kept s u := by
  unfold execChordConfigApply at h
  simp only [Host.Outcome.next.injEq] at h
  have hc := kept_refl s
  rw [← h]
  clear h
  repeat' first | (with_reducible first | assumption | apply kept_ite | apply State.chordsFollow_kept | apply State.guard_kept | apply State.preemptStart_kept | apply State.setChord_kept) | simp only [kept_same] | intro _ | dsimp only
theorem execChordFrame_kept (d : Fin 8) (data : List Byte) (er : Option Nat) (express : Bool) (ago : Nat) (phase : Fin 8) (delay : Nat) (lost : Fin 3) (s : State) {u : State} (h : execChordFrame d data er express ago phase delay lost s = .next u) : Kept s u := by
  unfold execChordFrame at h
  simp only [Host.Outcome.next.injEq] at h
  have hc := kept_refl s
  rw [← h]
  clear h
  repeat' first | (with_reducible first | assumption | apply State.chordFrame_kept | apply State.guard_kept) | intro _ | dsimp only
theorem execChordCaptureWrite_kept (d : Fin 16) (s : State) {u : State} (h : execChordCaptureWrite d s = .next u) : Kept s u := by
  unfold execChordCaptureWrite at h
  simp only [Host.Outcome.next.injEq] at h
  have hc := kept_refl s
  rw [← h]
  clear h
  repeat' first | (with_reducible first | assumption | apply State.captureWrite_kept | apply State.guard_kept) | intro _ | dsimp only
theorem execFdbReadEntry_kept (q : Path) (s : State) {u : State} (h : execFdbReadEntry q s = .next u) : Kept s u := by
  unfold execFdbReadEntry at h
  simp only [Host.Outcome.next.injEq] at h
  have hc := kept_refl s
  rw [← h]
  clear h
  repeat' first | (with_reducible first | assumption | apply State.fdbCommand_kept | apply State.guard_kept) | intro _ | dsimp only
theorem execFdbInsert_kept (q : Path) (s : State) {u : State} (h : execFdbInsert q s = .next u) : Kept s u := by
  unfold execFdbInsert at h
  simp only [Host.Outcome.next.injEq] at h
  have hc := kept_refl s
  rw [← h]
  clear h
  repeat' first | (with_reducible first | assumption | apply State.fdbCommand_kept | apply State.guard_kept) | intro _ | dsimp only
theorem execFdbDelete_kept (q : Path) (s : State) {u : State} (h : execFdbDelete q s = .next u) : Kept s u := by
  unfold execFdbDelete at h
  simp only [Host.Outcome.next.injEq] at h
  have hc := kept_refl s
  rw [← h]
  clear h
  repeat' first | (with_reducible first | assumption | apply State.fdbCommand_kept | apply State.guard_kept) | intro _ | dsimp only
theorem execFdbFlush_kept (q : Path) (s : State) {u : State} (h : execFdbFlush q s = .next u) : Kept s u := by
  unfold execFdbFlush at h
  simp only [Host.Outcome.next.injEq] at h
  have hc := kept_refl s
  rw [← h]
  clear h
  repeat' first | (with_reducible first | assumption | apply State.fdbCommand_kept | apply State.guard_kept) | intro _ | dsimp only
theorem execFdbCommandDone_kept (s : State) {u : State} (h : execFdbCommandDone s = .next u) : Kept s u := by
  unfold execFdbCommandDone at h
  simp only [Host.Outcome.next.injEq] at h
  have hc := kept_refl s
  rw [← h]
  clear h
  repeat' first | (with_reducible first | assumption | apply State.fdbDone_kept | apply State.guard_kept) | intro _ | dsimp only
theorem execFdbAgeExpiry_kept (e : Fin 8192) (dt : Nat) (s : State) {u : State} (h : execFdbAgeExpiry e dt s = .next u) : Kept s u := by
  unfold execFdbAgeExpiry at h
  simp only [Host.Outcome.next.injEq] at h
  have hc := kept_refl s
  rw [← h]
  clear h
  repeat' first | (with_reducible first | assumption | apply kept_ite | apply State.advance_kept | apply State.guard_kept | apply State.setSw_kept | apply State.showFdb_kept) | simp only [kept_same] | intro _ | dsimp only | split
theorem execStreamRead_kept (q : Path) (s : State) {u : State} (h : execStreamRead q s = .next u) : Kept s u := by
  unfold execStreamRead at h
  simp only [Host.Outcome.next.injEq] at h
  have hc := kept_refl s
  rw [← h]
  clear h
  repeat' first | (with_reducible first | assumption | apply State.guard_kept | apply State.streamCommand_kept) | intro _ | dsimp only
theorem execStreamWrite_kept (q : Path) (s : State) {u : State} (h : execStreamWrite q s = .next u) : Kept s u := by
  unfold execStreamWrite at h
  simp only [Host.Outcome.next.injEq] at h
  have hc := kept_refl s
  rw [← h]
  clear h
  repeat' first | (with_reducible first | assumption | apply State.guard_kept | apply State.streamCommand_kept) | intro _ | dsimp only
theorem execStreamClearBlocked_kept (q : Path) (s : State) {u : State} (h : execStreamClearBlocked q s = .next u) : Kept s u := by
  unfold execStreamClearBlocked at h
  simp only [Host.Outcome.next.injEq] at h
  have hc := kept_refl s
  rw [← h]
  clear h
  repeat' first | (with_reducible first | assumption | apply State.guard_kept | apply State.streamCommand_kept) | intro _ | dsimp only
theorem execStreamGateRead_kept (q : Path) (s : State) {u : State} (h : execStreamGateRead q s = .next u) : Kept s u := by
  unfold execStreamGateRead at h
  simp only [Host.Outcome.next.injEq] at h
  have hc := kept_refl s
  rw [← h]
  clear h
  repeat' first | (with_reducible first | assumption | apply State.guard_kept | apply State.sgateCommand_kept) | intro _ | dsimp only
theorem execStreamGateWrite_kept (q : Path) (s : State) {u : State} (h : execStreamGateWrite q s = .next u) : Kept s u := by
  unfold execStreamGateWrite at h
  simp only [Host.Outcome.next.injEq] at h
  have hc := kept_refl s
  rw [← h]
  clear h
  repeat' first | (with_reducible first | assumption | apply State.guard_kept | apply State.sgateCommand_kept) | intro _ | dsimp only
theorem execStreamGateChangeList_kept (q : Path) (s : State) {u : State} (h : execStreamGateChangeList q s = .next u) : Kept s u := by
  unfold execStreamGateChangeList at h
  simp only [Host.Outcome.next.injEq] at h
  have hc := kept_refl s
  rw [← h]
  clear h
  repeat' first | (with_reducible first | assumption | apply State.guard_kept | apply State.sgateCommand_kept) | intro _ | dsimp only
theorem execStreamGateListOperational_kept (g : Fin 64) (dt : Nat) (s : State) {u : State} (h : execStreamGateListOperational g dt s = .next u) : Kept s u := by
  unfold execStreamGateListOperational at h
  simp only [Host.Outcome.next.injEq] at h
  have hc := kept_refl s
  rw [← h]
  clear h
  repeat' first | (with_reducible first | assumption | apply kept_ite | apply State.advance_kept | apply State.guard_kept | apply State.setSgate_kept | apply State.sgateStatus_kept | apply State.swEvent_kept) | simp only [kept_same] | intro _ | dsimp only | split
theorem execStreamGateIntervalExpiry_kept (g : Fin 64) (dt : Nat) (s : State) {u : State} (h : execStreamGateIntervalExpiry g dt s = .next u) : Kept s u := by
  unfold execStreamGateIntervalExpiry at h
  simp only [Host.Outcome.next.injEq] at h
  have hc := kept_refl s
  rw [← h]
  clear h
  repeat' first | (with_reducible first | assumption | apply State.advance_kept | apply State.guard_kept | apply State.setSgate_kept) | simp only [kept_same] | intro _ | dsimp only | split
theorem execMeterRead_kept (q : Path) (s : State) {u : State} (h : execMeterRead q s = .next u) : Kept s u := by
  unfold execMeterRead at h
  simp only [Host.Outcome.next.injEq] at h
  have hc := kept_refl s
  rw [← h]
  clear h
  repeat' first | (with_reducible first | assumption | apply State.guard_kept | apply State.meterCommand_kept) | intro _ | dsimp only
theorem execMeterWrite_kept (q : Path) (s : State) {u : State} (h : execMeterWrite q s = .next u) : Kept s u := by
  unfold execMeterWrite at h
  simp only [Host.Outcome.next.injEq] at h
  have hc := kept_refl s
  rw [← h]
  clear h
  repeat' first | (with_reducible first | assumption | apply State.guard_kept | apply State.meterCommand_kept) | intro _ | dsimp only
theorem execMeterClearMarkAllRed_kept (q : Path) (s : State) {u : State} (h : execMeterClearMarkAllRed q s = .next u) : Kept s u := by
  unfold execMeterClearMarkAllRed at h
  simp only [Host.Outcome.next.injEq] at h
  have hc := kept_refl s
  rw [← h]
  clear h
  repeat' first | (with_reducible first | assumption | apply State.guard_kept | apply State.meterCommand_kept) | intro _ | dsimp only
theorem execCbRead_kept (q : Path) (s : State) {u : State} (h : execCbRead q s = .next u) : Kept s u := by
  unfold execCbRead at h
  simp only [Host.Outcome.next.injEq] at h
  have hc := kept_refl s
  rw [← h]
  clear h
  repeat' first | (with_reducible first | assumption | apply State.cbCommand_kept | apply State.guard_kept) | intro _ | dsimp only
theorem execCbWrite_kept (q : Path) (s : State) {u : State} (h : execCbWrite q s = .next u) : Kept s u := by
  unfold execCbWrite at h
  simp only [Host.Outcome.next.injEq] at h
  have hc := kept_refl s
  rw [← h]
  clear h
  repeat' first | (with_reducible first | assumption | apply State.cbCommand_kept | apply State.guard_kept) | intro _ | dsimp only
theorem execCbResetRecovery_kept (q : Path) (s : State) {u : State} (h : execCbResetRecovery q s = .next u) : Kept s u := by
  unfold execCbResetRecovery at h
  simp only [Host.Outcome.next.injEq] at h
  have hc := kept_refl s
  rw [← h]
  clear h
  repeat' first | (with_reducible first | assumption | apply State.cbCommand_kept | apply State.guard_kept) | intro _ | dsimp only
theorem execCbResetTimeout_kept (h : Fin 256) (s : State) {u : State} (h : execCbResetTimeout h s = .next u) : Kept s u := by
  unfold execCbResetTimeout at h
  simp only [Host.Outcome.next.injEq] at h
  have hc := kept_refl s
  rw [← h]
  clear h
  repeat' first | (with_reducible first | assumption | apply kept_ite | apply State.guard_kept | apply State.setCb_kept) | intro _ | dsimp only
theorem execRxRingDelivery_kept (st : Fin 10) (c : Fin 8) (s : State) {u : State} (h : execRxRingDelivery st c s = .next u) : Kept s u := by
  unfold execRxRingDelivery at h
  simp only [Host.Outcome.next.injEq] at h
  have hc := kept_refl s
  rw [← h]
  clear h
  repeat' first | (with_reducible first | assumption | apply State.deliver_kept | apply State.guard_kept) | intro _ | dsimp only
theorem execTxRingFrame_kept (st : Fin 10) (s : State) {u : State} (h : execTxRingFrame st s = .next u) : Kept s u := by
  unfold execTxRingFrame at h
  simp only [Host.Outcome.next.injEq] at h
  have hc := kept_refl s
  rw [← h]
  clear h
  repeat' first | (with_reducible first | assumption | apply kept_ite | apply State.guard_kept | apply State.txRing_kept) | simp only [kept_same] | intro _ | dsimp only | split
theorem execAuditPass_kept (s : State) {u : State} (h : execAuditPass s = .next u) : Kept s u := by
  unfold execAuditPass at h
  simp only [Host.Outcome.next.injEq] at h
  have hc := kept_refl s
  rw [← h]
  clear h
  repeat' first | (with_reducible first | assumption | apply kept_ite | apply State.auditPass_kept | apply State.guard_kept) | intro _ | dsimp only
theorem execIncrementWrite_kept (q : Path) (d : Fin 4) (v : DWord) (s : State) {u : State} (h : execIncrementWrite q d v s = .next u) : Kept s u := by
  unfold execIncrementWrite at h
  simp only [Host.Outcome.next.injEq] at h
  have hc := kept_refl s
  rw [← h]
  clear h
  repeat' first | (with_reducible first | assumption | apply State.guard_kept | apply State.wr_kept) | intro _ | dsimp only
theorem execAdjustStart_kept (q : Path) (d : Fin 4) (v : Word) (s : State) {u : State} (h : execAdjustStart q d v s = .next u) : Kept s u := by
  unfold execAdjustStart at h
  simp only [Host.Outcome.next.injEq] at h
  have hc := kept_refl s
  rw [← h]
  clear h
  repeat' first | (with_reducible first | assumption | apply State.adjustStart_kept | apply State.guard_kept) | intro _ | dsimp only
theorem execAdjustEnd_kept (d : Fin 4) (dt : Nat) (s : State) {u : State} (h : execAdjustEnd d dt s = .next u) : Kept s u := by
  unfold execAdjustEnd at h
  simp only [Host.Outcome.next.injEq] at h
  have hc := kept_refl s
  rw [← h]
  clear h
  repeat' first | (with_reducible first | assumption | apply kept_ite | apply State.advance_kept | apply State.event_kept | apply State.guard_kept | apply State.setTdom_kept) | simp only [kept_same] | intro _ | dsimp only
theorem execStepDisarm_kept (q : Path) (d : Fin 4) (s : State) {u : State} (h : execStepDisarm q d s = .next u) : Kept s u := by
  unfold execStepDisarm at h
  simp only [Host.Outcome.next.injEq] at h
  have hc := kept_refl s
  rw [← h]
  clear h
  repeat' first | (with_reducible first | assumption | apply State.guard_kept | apply State.stepCommand_kept) | intro _ | dsimp only
theorem execStepNow_kept (q : Path) (d : Fin 4) (s : State) {u : State} (h : execStepNow q d s = .next u) : Kept s u := by
  unfold execStepNow at h
  simp only [Host.Outcome.next.injEq] at h
  have hc := kept_refl s
  rw [← h]
  clear h
  repeat' first | (with_reducible first | assumption | apply State.guard_kept | apply State.stepCommand_kept) | intro _ | dsimp only
theorem execStepArmAt_kept (q : Path) (d : Fin 4) (s : State) {u : State} (h : execStepArmAt q d s = .next u) : Kept s u := by
  unfold execStepArmAt at h
  simp only [Host.Outcome.next.injEq] at h
  have hc := kept_refl s
  rw [← h]
  clear h
  repeat' first | (with_reducible first | assumption | apply State.guard_kept | apply State.stepCommand_kept) | intro _ | dsimp only
theorem execStepApply_kept (d : Fin 4) (dt : Nat) (s : State) {u : State} (h : execStepApply d dt s = .next u) : Kept s u := by
  unfold execStepApply at h
  simp only [Host.Outcome.next.injEq] at h
  have hc := kept_refl s
  rw [← h]
  clear h
  repeat' first | (with_reducible first | assumption | apply kept_ite | apply State.advance_kept | apply State.guard_kept | apply State.stepAdd_kept) | intro _ | dsimp only
theorem execPpsEdge_kept (i' : Fin 4) (dt : Nat) (s : State) {u : State} (h : execPpsEdge i' dt s = .next u) : Kept s u := by
  unfold execPpsEdge at h
  simp only [Host.Outcome.next.injEq] at h
  have hc := kept_refl s
  rw [← h]
  clear h
  repeat' first | (with_reducible first | assumption | apply kept_ite | apply State.addW_kept | apply State.advance_kept | apply State.cnt_kept | apply State.emit_kept | apply State.guard_kept | apply State.setPps_kept | apply kept_ite2 | apply kept_ite3 | apply kept_ite4) | simp only [kept_same] | intro _ | dsimp only
theorem execPpsPulseEnd_kept (i' : Fin 4) (dt : Nat) (s : State) {u : State} (h : execPpsPulseEnd i' dt s = .next u) : Kept s u := by
  unfold execPpsPulseEnd at h
  simp only [Host.Outcome.next.injEq] at h
  have hc := kept_refl s
  rw [← h]
  clear h
  repeat' first | (with_reducible first | assumption | apply kept_ite | apply State.advance_kept | apply State.guard_kept | apply State.ppsRest_kept) | intro _ | dsimp only
theorem execSyncWrite_kept (q : Path) (d : Fin 4) (v : Word) (s : State) {u : State} (h : execSyncWrite q d v s = .next u) : Kept s u := by
  unfold execSyncWrite at h
  simp only [Host.Outcome.next.injEq] at h
  have hc := kept_refl s
  rw [← h]
  clear h
  repeat' first | (with_reducible first | assumption | apply State.guard_kept | apply State.syncWrite_kept) | intro _ | dsimp only
theorem execCaptureEdge_kept (i' : Fin 4) (falling : Bool) (ago : Nat) (phase : Fin 8) (s : State) {u : State} (h : execCaptureEdge i' falling ago phase s = .next u) : Kept s u := by
  unfold execCaptureEdge at h
  simp only [Host.Outcome.next.injEq] at h
  have hc := kept_refl s
  rw [← h]
  clear h
  repeat' first | (with_reducible first | assumption | apply kept_ite | apply State.capShow_kept | apply State.cnt_kept | apply State.event_kept | apply State.guard_kept | apply State.wr_kept) | intro _ | dsimp only
theorem execCapturePop_kept (q : Path) (i' : Fin 4) (v : Word) (s : State) {u : State} (h : execCapturePop q i' v s = .next u) : Kept s u := by
  unfold execCapturePop at h
  simp only [Host.Outcome.next.injEq] at h
  have hc := kept_refl s
  rw [← h]
  clear h
  repeat' first | (with_reducible first | assumption | apply State.capPop_kept | apply State.guard_kept) | intro _ | dsimp only
theorem execLaunchEnable_kept (q : Path) (k : Fin 64) (v : Half) (s : State) {u : State} (h : execLaunchEnable q k v s = .next u) : Kept s u := by
  unfold execLaunchEnable at h
  simp only [Host.Outcome.next.injEq] at h
  have hc := kept_refl s
  rw [← h]
  clear h
  repeat' first | (with_reducible first | assumption | apply kept_ite | apply State.guard_kept | apply State.launchArm_kept) | intro _ | dsimp only
theorem execLaunchDisable_kept (q : Path) (k : Fin 64) (v : Half) (s : State) {u : State} (h : execLaunchDisable q k v s = .next u) : Kept s u := by
  unfold execLaunchDisable at h
  simp only [Host.Outcome.next.injEq] at h
  have hc := kept_refl s
  rw [← h]
  clear h
  repeat' first | (with_reducible first | assumption | apply kept_ite | apply State.guard_kept | apply State.launchOff_kept) | intro _ | dsimp only
theorem execLaunchAbort_kept (q : Path) (k : Fin 64) (v : Byte) (s : State) {u : State} (h : execLaunchAbort q k v s = .next u) : Kept s u := by
  unfold execLaunchAbort at h
  simp only [Host.Outcome.next.injEq] at h
  have hc := kept_refl s
  rw [← h]
  clear h
  repeat' first | (with_reducible first | assumption | apply State.guard_kept | apply State.launchAbort_kept) | intro _ | dsimp only
theorem execLaunchFetchStart_kept (k : Fin 64) (dt : Nat) (s : State) {u : State} (h : execLaunchFetchStart k dt s = .next u) : Kept s u := by
  unfold execLaunchFetchStart at h
  simp only [Host.Outcome.next.injEq] at h
  have hc := kept_refl s
  rw [← h]
  clear h
  repeat' first | (with_reducible first | assumption | apply kept_ite | apply State.advance_kept | apply State.guard_kept | apply State.setLaunch_kept) | simp only [kept_same] | intro _ | dsimp only
theorem execLaunchFetchDone_kept (k : Fin 64) (dt : Nat) (s : State) {u : State} (h : execLaunchFetchDone k dt s = .next u) : Kept s u := by
  unfold execLaunchFetchDone at h
  simp only [Host.Outcome.next.injEq] at h
  have hc := kept_refl s
  rw [← h]
  clear h
  repeat' first | (with_reducible first | assumption | apply kept_ite | apply State.advance_kept | apply State.dmaRead_kept | apply State.guard_kept | apply State.launchCnt_kept | apply State.launchEvent_kept | apply State.launchResult_kept | apply State.setLaunch_kept | apply State.wr_kept | apply kept_ite2 | apply kept_ite3 | apply kept_ite4) | intro _ | dsimp only
theorem execLaunchBegin_kept (k : Fin 64) (phase : Fin 8) (dt : Nat) (s : State) {u : State} (h : execLaunchBegin k phase dt s = .next u) : Kept s u := by
  unfold execLaunchBegin at h
  simp only [Host.Outcome.next.injEq] at h
  have hc := kept_refl s
  rw [← h]
  clear h
  repeat' first | (with_reducible first | assumption | apply State.advance_kept | apply State.guard_kept | apply State.launchBegin_kept) | intro _ | dsimp only
theorem execLaunchEnd_kept (k : Fin 64) (dt : Nat) (s : State) {u : State} (h : execLaunchEnd k dt s = .next u) : Kept s u := by
  unfold execLaunchEnd at h
  simp only [Host.Outcome.next.injEq] at h
  have hc := kept_refl s
  rw [← h]
  clear h
  repeat' first | (with_reducible first | assumption | apply kept_ite | apply State.advance_kept | apply State.guard_kept | apply State.launchEnd_kept) | simp only [kept_same] | intro _ | dsimp only | split
theorem execRingEnable_kept (q : Path) (n : Fin 4) (v : Word) (s : State) {u : State} (h : execRingEnable q n v s = .next u) : Kept s u := by
  unfold execRingEnable at h
  simp only [Host.Outcome.next.injEq] at h
  have hc := kept_refl s
  rw [← h]
  clear h
  repeat' first | (with_reducible first | assumption | apply State.guard_kept | apply State.perEnable_kept) | intro _ | dsimp only
theorem execPerLockAcquired_kept (n : Fin 4) (east : Bool) (s : State) {u : State} (h : execPerLockAcquired n east s = .next u) : Kept s u := by
  unfold execPerLockAcquired at h
  simp only [Host.Outcome.next.injEq] at h
  have hc := kept_refl s
  rw [← h]
  clear h
  repeat' first | (with_reducible first | assumption | apply kept_ite | apply State.guard_kept | apply State.setBits_kept | apply State.setRing_kept) | simp only [kept_same] | intro _ | dsimp only
theorem execPerLockLost_kept (n : Fin 4) (east lostRx lostTx : Bool) (s : State) {u : State} (h : execPerLockLost n east lostRx lostTx s = .next u) : Kept s u := by
  unfold execPerLockLost at h
  simp only [Host.Outcome.next.injEq] at h
  have hc := kept_refl s
  rw [← h]
  clear h
  repeat' first | (with_reducible first | assumption | apply kept_ite | apply State.guard_kept | apply State.perLockLost_kept) | intro _ | dsimp only
theorem execHealingSilenceEnd_kept (n : Fin 4) (s : State) {u : State} (h : execHealingSilenceEnd n s = .next u) : Kept s u := by
  unfold execHealingSilenceEnd at h
  simp only [Host.Outcome.next.injEq] at h
  have hc := kept_refl s
  rw [← h]
  clear h
  repeat' first | (with_reducible first | assumption | apply kept_ite | apply State.guard_kept | apply State.setRing_kept) | simp only [kept_same] | intro _ | dsimp only
theorem execPerFrameReceived_kept (n : Fin 4) (east : Bool) (f : List Nib) (fin : Fin 3) (ago : Nat) (phase : Fin 8) (displaced : Bool) (s : State) {u : State} (h : execPerFrameReceived n east f fin ago phase displaced s = .next u) : Kept s u := by
  unfold execPerFrameReceived at h
  simp only [Host.Outcome.next.injEq] at h
  have hc := kept_refl s
  rw [← h]
  clear h
  repeat' first | (with_reducible first | assumption | apply kept_ite | apply State.guard_kept | apply State.perReceive_kept) | intro _ | dsimp only
theorem execEchoRequestSend_kept (n : Fin 4) (east : Bool) (s : State) {u : State} (h : execEchoRequestSend n east s = .next u) : Kept s u := by
  unfold execEchoRequestSend at h
  simp only [Host.Outcome.next.injEq] at h
  have hc := kept_refl s
  rw [← h]
  clear h
  repeat' first | (with_reducible first | assumption | apply kept_ite | apply State.emit_kept | apply State.guard_kept | apply State.setEcho_kept) | simp only [kept_same] | intro _ | dsimp only
theorem execEchoRequestReceived_kept (n : Fin 4) (east sending : Bool) (s : State) {u : State} (h : execEchoRequestReceived n east sending s = .next u) : Kept s u := by
  unfold execEchoRequestReceived at h
  simp only [Host.Outcome.next.injEq] at h
  have hc := kept_refl s
  rw [← h]
  clear h
  repeat' first | (with_reducible first | assumption | apply kept_ite | apply State.emit_kept | apply State.guard_kept) | intro _ | dsimp only
theorem execEchoReplyReceived_kept (n : Fin 4) (east : Bool) (t : Nat) (s : State) {u : State} (h : execEchoReplyReceived n east t s = .next u) : Kept s u := by
  unfold execEchoReplyReceived at h
  simp only [Host.Outcome.next.injEq] at h
  have hc := kept_refl s
  rw [← h]
  clear h
  repeat' first | (with_reducible first | assumption | apply kept_ite | apply State.guard_kept | apply State.setEcho_kept | apply State.setRing_kept | apply State.wr_kept) | simp only [kept_same] | intro _ | dsimp only
theorem execEchoTimeout_kept (n : Fin 4) (east : Bool) (s : State) {u : State} (h : execEchoTimeout n east s = .next u) : Kept s u := by
  unfold execEchoTimeout at h
  simp only [Host.Outcome.next.injEq] at h
  have hc := kept_refl s
  rw [← h]
  clear h
  repeat' first | (with_reducible first | assumption | apply kept_ite | apply State.guard_kept | apply State.setEcho_kept | apply State.wr_kept) | simp only [kept_same] | intro _ | dsimp only
theorem execReferenceSend_kept (n : Fin 4) (phase : Fin 8) (dt : Nat) (s : State) {u : State} (h : execReferenceSend n phase dt s = .next u) : Kept s u := by
  unfold execReferenceSend at h
  simp only [Host.Outcome.next.injEq] at h
  have hc := kept_refl s
  rw [← h]
  clear h
  repeat' first | (with_reducible first | assumption | apply kept_ite | apply State.advance_kept | apply State.changeStep_kept | apply State.guard_kept | apply State.perRestore_kept | apply State.refLeaves_kept | apply kept_ite2 | apply kept_ite3 | apply kept_ite4) | simp only [kept_same] | intro _ | dsimp only | split
theorem execReferenceAccept_kept (n : Fin 4) (s : State) {u : State} (h : execReferenceAccept n s = .next u) : Kept s u := by
  unfold execReferenceAccept at h
  simp only [Host.Outcome.next.injEq] at h
  have hc := kept_refl s
  rw [← h]
  clear h
  repeat' first | (with_reducible first | assumption | apply State.guard_kept | apply State.refAccept_kept) | intro _ | dsimp only
theorem execReferenceMissed_kept (n : Fin 4) (dt : Nat) (s : State) {u : State} (h : execReferenceMissed n dt s = .next u) : Kept s u := by
  unfold execReferenceMissed at h
  simp only [Host.Outcome.next.injEq] at h
  have hc := kept_refl s
  rw [← h]
  clear h
  repeat' first | (with_reducible first | assumption | apply kept_ite | apply State.advance_kept | apply State.guard_kept | apply State.refMissed_kept) | intro _ | dsimp only
theorem execBackupTakeover_kept (n : Fin 4) (phase : Fin 8) (dt : Nat) (s : State) {u : State} (h : execBackupTakeover n phase dt s = .next u) : Kept s u := by
  unfold execBackupTakeover at h
  simp only [Host.Outcome.next.injEq] at h
  have hc := kept_refl s
  rw [← h]
  clear h
  repeat' first | (with_reducible first | assumption | apply kept_ite | apply State.advance_kept | apply State.cnt_kept | apply State.guard_kept | apply State.record_kept | apply State.refLeaves_kept | apply State.setRing_kept) | simp only [kept_same] | intro _ | dsimp only
theorem execColdstartListenTimeout_kept (n : Fin 4) (s : State) {u : State} (h : execColdstartListenTimeout n s = .next u) : Kept s u := by
  unfold execColdstartListenTimeout at h
  simp only [Host.Outcome.next.injEq] at h
  have hc := kept_refl s
  rw [← h]
  clear h
  repeat' first | (with_reducible first | assumption | apply kept_ite | apply State.guard_kept | apply State.setRing_kept) | simp only [kept_same] | intro _ | dsimp only
theorem execColdstartSend_kept (n : Fin 4) (s : State) {u : State} (h : execColdstartSend n s = .next u) : Kept s u := by
  unfold execColdstartSend at h
  simp only [Host.Outcome.next.injEq] at h
  have hc := kept_refl s
  rw [← h]
  clear h
  repeat' first | (with_reducible first | assumption | apply State.cnt_kept | apply State.guard_kept | apply State.perSend_kept | apply State.setRing_kept) | simp only [kept_same] | intro _ | dsimp only | split
theorem execColdstartReceived_kept (n : Fin 4) (s : State) {u : State} (h : execColdstartReceived n s = .next u) : Kept s u := by
  unfold execColdstartReceived at h
  simp only [Host.Outcome.next.injEq] at h
  have hc := kept_refl s
  rw [← h]
  clear h
  repeat' first | (with_reducible first | assumption | apply kept_ite | apply State.cnt_kept | apply State.coldWin_kept | apply State.guard_kept | apply State.setRing_kept) | simp only [kept_same] | intro _ | dsimp only | split
theorem execSlotTableLoad_kept (q : Path) (n : Fin 4) (m : Fin 8) (v : Half) (s : State) {u : State} (h : execSlotTableLoad q n m v s = .next u) : Kept s u := by
  unfold execSlotTableLoad at h
  simp only [Host.Outcome.next.injEq] at h
  have hc := kept_refl s
  rw [← h]
  clear h
  repeat' first | (with_reducible first | assumption | apply State.guard_kept | apply State.slotLoad_kept) | intro _ | dsimp only
theorem execSlotTableChecked_kept (n : Fin 4) (m : Fin 8) (s : State) {u : State} (h : execSlotTableChecked n m s = .next u) : Kept s u := by
  unfold execSlotTableChecked at h
  simp only [Host.Outcome.next.injEq] at h
  have hc := kept_refl s
  rw [← h]
  clear h
  repeat' first | (with_reducible first | assumption | apply kept_ite | apply State.guard_kept | apply State.slotInstall_kept | apply kept_ite2 | apply kept_ite3 | apply kept_ite4) | intro _ | dsimp only
theorem execSlotFetchStart_kept (n : Fin 4) (k : Fin 1024) (s : State) {u : State} (h : execSlotFetchStart n k s = .next u) : Kept s u := by
  unfold execSlotFetchStart at h
  simp only [Host.Outcome.next.injEq] at h
  have hc := kept_refl s
  rw [← h]
  clear h
  repeat' first | (with_reducible first | assumption | apply kept_ite | apply State.guard_kept | apply State.setSlotFetch_kept) | simp only [kept_same] | intro _ | dsimp only | split
theorem execSlotFetchDone_kept (n : Fin 4) (k : Fin 1024) (s : State) {u : State} (h : execSlotFetchDone n k s = .next u) : Kept s u := by
  unfold execSlotFetchDone at h
  simp only [Host.Outcome.next.injEq] at h
  have hc := kept_refl s
  rw [← h]
  clear h
  repeat' first | (with_reducible first | assumption | apply kept_ite | apply State.dmaRead_kept | apply State.guard_kept | apply State.setSlotFetch_kept | apply kept_ite2 | apply kept_ite3 | apply kept_ite4) | simp only [kept_same] | intro _ | dsimp only | split
theorem execGuardianCut_kept (n : Fin 4) (s : State) {u : State} (h : execGuardianCut n s = .next u) : Kept s u := by
  unfold execGuardianCut at h
  simp only [Host.Outcome.next.injEq] at h
  have hc := kept_refl s
  rw [← h]
  clear h
  repeat' first | (with_reducible first | assumption | apply State.guard_kept | apply State.perBlocked_kept | apply State.perOpCnt_kept | apply State.perSend_kept | apply State.setRing_kept) | simp only [kept_same] | intro _ | dsimp only | split
theorem execSlotInsert_kept (n : Fin 4) (k : Fin 1024) (busy : Bool) (phase : Fin 8) (dt : Nat) (s : State) {u : State} (h : execSlotInsert n k busy phase dt s = .next u) : Kept s u := by
  unfold execSlotInsert at h
  simp only [Host.Outcome.next.injEq] at h
  have hc := kept_refl s
  rw [← h]
  clear h
  repeat' first | (with_reducible first | assumption | apply State.advance_kept | apply State.guard_kept | apply State.slotInsert_kept) | intro _ | dsimp only
theorem execGuardTableCommit_kept (q : Path) (n : Fin 4) (v : Byte) (s : State) {u : State} (h : execGuardTableCommit q n v s = .next u) : Kept s u := by
  unfold execGuardTableCommit at h
  simp only [Host.Outcome.next.injEq] at h
  have hc := kept_refl s
  rw [← h]
  clear h
  repeat' first | (with_reducible first | assumption | apply State.guard_kept | apply State.guardCommit_kept) | intro _ | dsimp only
theorem execGuardTableChecked_kept (n : Fin 4) (s : State) {u : State} (h : execGuardTableChecked n s = .next u) : Kept s u := by
  unfold execGuardTableChecked at h
  simp only [Host.Outcome.next.injEq] at h
  have hc := kept_refl s
  rw [← h]
  clear h
  repeat' first | (with_reducible first | assumption | apply kept_ite | apply State.guard_kept | apply State.guardInstall_kept | apply kept_ite2 | apply kept_ite3 | apply kept_ite4) | intro _ | dsimp only
theorem execModeRequest_kept (q : Path) (n : Fin 4) (v : Half) (s : State) {u : State} (h : execModeRequest q n v s = .next u) : Kept s u := by
  unfold execModeRequest at h
  simp only [Host.Outcome.next.injEq] at h
  have hc := kept_refl s
  rw [← h]
  clear h
  repeat' first | (with_reducible first | assumption | apply State.changeAsk_kept | apply State.guard_kept | apply State.wr_kept) | intro _ | dsimp only
theorem execMeasureSend_kept (n : Fin 4) (east : Bool) (s : State) {u : State} (h : execMeasureSend n east s = .next u) : Kept s u := by
  unfold execMeasureSend at h
  simp only [Host.Outcome.next.injEq] at h
  have hc := kept_refl s
  rw [← h]
  clear h
  repeat' first | (with_reducible first | assumption | apply kept_ite | apply State.emit_kept | apply State.guard_kept | apply State.setRing_kept) | simp only [kept_same] | intro _ | dsimp only
theorem execMeasureForward_kept (n : Fin 4) (s : State) {u : State} (h : execMeasureForward n s = .next u) : Kept s u := by
  unfold execMeasureForward at h
  simp only [Host.Outcome.next.injEq] at h
  have hc := kept_refl s
  rw [← h]
  clear h
  repeat' first | (with_reducible first | assumption | apply kept_ite | apply State.guard_kept | apply State.measureNode_kept) | simp only [kept_same] | intro _ | dsimp only | split
theorem execMeasureReturn_kept (n : Fin 4) (ids : List (Half × DWord)) (s : State) {u : State} (h : execMeasureReturn n ids s = .next u) : Kept s u := by
  unfold execMeasureReturn at h
  simp only [Host.Outcome.next.injEq] at h
  have hc := kept_refl s
  rw [← h]
  clear h
  repeat' first | (with_reducible first | assumption | apply kept_ite | apply State.drop_kept | apply State.guard_kept | apply State.measured_kept | apply State.setRing_kept) | simp only [kept_same] | intro _ | dsimp only | split
theorem execMgmtReturn_kept (n : Fin 4) (d : List Byte) (good : Bool) (s : State) {u : State} (h : execMgmtReturn n d good s = .next u) : Kept s u := by
  unfold execMgmtReturn at h
  simp only [Host.Outcome.next.injEq] at h
  have hc := kept_refl s
  rw [← h]
  clear h
  repeat' first | (with_reducible first | assumption | apply kept_ite | apply State.dmaWrite_kept | apply State.guard_kept | apply State.perEvent_kept | apply State.setRing_kept | apply State.wr_kept) | simp only [kept_same] | intro _ | dsimp only
theorem execMgmtTimeout_kept (n : Fin 4) (s : State) {u : State} (h : execMgmtTimeout n s = .next u) : Kept s u := by
  unfold execMgmtTimeout at h
  simp only [Host.Outcome.next.injEq] at h
  have hc := kept_refl s
  rw [← h]
  clear h
  repeat' first | (with_reducible first | assumption | apply kept_ite | apply State.guard_kept | apply State.perEvent_kept | apply State.setRing_kept | apply State.wr_kept) | simp only [kept_same] | intro _ | dsimp only
theorem execMgmtReadIdentity_kept (n : Fin 4) (s : State) {u : State} (h : execMgmtReadIdentity n s = .next u) : Kept s u := by
  unfold execMgmtReadIdentity at h
  simp only [Host.Outcome.next.injEq] at h
  have hc := kept_refl s
  rw [← h]
  clear h
  repeat' first | (with_reducible first | assumption | apply State.guard_kept | apply State.mgmtAnswer_kept) | simp only [kept_same] | intro _ | dsimp only | split
theorem execMgmtAssignNumber_kept (n : Fin 4) (s : State) {u : State} (h : execMgmtAssignNumber n s = .next u) : Kept s u := by
  unfold execMgmtAssignNumber at h
  simp only [Host.Outcome.next.injEq] at h
  have hc := kept_refl s
  rw [← h]
  clear h
  repeat' first | (with_reducible first | assumption | apply kept_ite | apply State.guard_kept | apply State.mgmtAnswer_kept | apply State.wr_kept) | simp only [kept_same] | intro _ | dsimp only | split
theorem execMgmtWriteTable_kept (n : Fin 4) (s : State) {u : State} (h : execMgmtWriteTable n s = .next u) : Kept s u := by
  unfold execMgmtWriteTable at h
  simp only [Host.Outcome.next.injEq] at h
  have hc := kept_refl s
  rw [← h]
  clear h
  repeat' first | (with_reducible first | assumption | apply kept_ite | apply State.drop_kept | apply State.guard_kept | apply State.mgmtAnswer_kept | apply State.setStaged_kept) | simp only [kept_same] | intro _ | dsimp only | split
theorem execMgmtCommit_kept (n : Fin 4) (s : State) {u : State} (h : execMgmtCommit n s = .next u) : Kept s u := by
  unfold execMgmtCommit at h
  simp only [Host.Outcome.next.injEq] at h
  have hc := kept_refl s
  rw [← h]
  clear h
  repeat' first | (with_reducible first | assumption | apply kept_ite | apply State.guard_kept | apply State.mgmtAnswer_kept | apply State.mgmtCommit_kept | apply State.setStaged_kept | apply kept_ite2 | apply kept_ite3 | apply kept_ite4) | simp only [kept_same] | intro _ | dsimp only | split
theorem execMgmtReadStatus_kept (n : Fin 4) (s : State) {u : State} (h : execMgmtReadStatus n s = .next u) : Kept s u := by
  unfold execMgmtReadStatus at h
  simp only [Host.Outcome.next.injEq] at h
  have hc := kept_refl s
  rw [← h]
  clear h
  repeat' first | (with_reducible first | assumption | apply kept_ite | apply State.guard_kept | apply State.mgmtAnswer_kept) | simp only [kept_same] | intro _ | dsimp only | split
theorem execMgmtReadLinks_kept (n : Fin 4) (s : State) {u : State} (h : execMgmtReadLinks n s = .next u) : Kept s u := by
  unfold execMgmtReadLinks at h
  simp only [Host.Outcome.next.injEq] at h
  have hc := kept_refl s
  rw [← h]
  clear h
  repeat' first | (with_reducible first | assumption | apply kept_ite | apply State.guard_kept | apply State.mgmtAnswer_kept) | simp only [kept_same] | intro _ | dsimp only | split
theorem execRecordEvent_kept (typ : Half) (b : List Byte) (s : State) {u : State} (h : execRecordEvent typ b s = .next u) : Kept s u := by
  unfold execRecordEvent at h
  simp only [Host.Outcome.next.injEq] at h
  have hc := kept_refl s
  rw [← h]
  clear h
  repeat' first | (with_reducible first | assumption | apply kept_ite | apply State.guard_kept | apply State.record_kept) | intro _ | dsimp only
theorem execRecordCommitted_kept (s : State) {u : State} (h : execRecordCommitted s = .next u) : Kept s u := by
  unfold execRecordCommitted at h
  simp only [Host.Outcome.next.injEq] at h
  have hc := kept_refl s
  rw [← h]
  clear h
  repeat' first | (with_reducible first | assumption | apply kept_ite | apply State.commitRecord_kept | apply State.guard_kept) | intro _ | dsimp only
theorem execLogScanDone_kept (s : State) {u : State} (h : execLogScanDone s = .next u) : Kept s u := by
  unfold execLogScanDone at h
  simp only [Host.Outcome.next.injEq] at h
  have hc := kept_refl s
  rw [← h]
  clear h
  repeat' first | (with_reducible first | assumption | apply kept_ite | apply State.finishScan_kept | apply State.guard_kept) | intro _ | dsimp only
theorem execLogClear_kept (p : Path) (v : Word) (s : State) {u : State} (h : execLogClear p v s = .next u) : Kept s u := by
  unfold execLogClear at h
  simp only [Host.Outcome.next.injEq] at h
  have hc := kept_refl s
  rw [← h]
  clear h
  repeat' first | (with_reducible first | assumption | apply State.clearLog_kept | apply State.guard_kept) | intro _ | dsimp only
theorem execOperatingMinute_kept (s : State) {u : State} (h : execOperatingMinute s = .next u) : Kept s u := by
  unfold execOperatingMinute at h
  simp only [Host.Outcome.next.injEq] at h
  have hc := kept_refl s
  rw [← h]
  clear h
  repeat' first | (with_reducible first | assumption | apply kept_ite | apply State.cntS_kept | apply State.guard_kept | apply State.logCounter_kept | apply State.showAllowances_kept) | intro _ | dsimp only
theorem execParamSave_kept (p : Path) (sub : Byte) (v : Word) (s : State) {u : State} (h : execParamSave p sub v s = .next u) : Kept s u := by
  unfold execParamSave at h
  simp only [Host.Outcome.next.injEq] at h
  have hc := kept_refl s
  rw [← h]
  clear h
  repeat' first | (with_reducible first | assumption | apply State.guard_kept | apply State.paramOp_kept) | intro _ | dsimp only
theorem execParamRestore_kept (p : Path) (sub : Byte) (v : Word) (s : State) {u : State} (h : execParamRestore p sub v s = .next u) : Kept s u := by
  unfold execParamRestore at h
  simp only [Host.Outcome.next.injEq] at h
  have hc := kept_refl s
  rw [← h]
  clear h
  repeat' first | (with_reducible first | assumption | apply State.guard_kept | apply State.paramOp_kept) | intro _ | dsimp only
theorem execParamHoldExpiry_kept (s : State) {u : State} (h : execParamHoldExpiry s = .next u) : Kept s u := by
  unfold execParamHoldExpiry at h
  simp only [Host.Outcome.next.injEq] at h
  have hc := kept_refl s
  rw [← h]
  clear h
  repeat' first | (with_reducible first | assumption | apply kept_ite | apply State.guard_kept | apply State.startHeld_kept) | simp only [kept_same] | intro _ | dsimp only
theorem execParamCopyWritten_kept (ok : Bool) (s : State) {u : State} (h : execParamCopyWritten ok s = .next u) : Kept s u := by
  unfold execParamCopyWritten at h
  simp only [Host.Outcome.next.injEq] at h
  have hc := kept_refl s
  rw [← h]
  clear h
  repeat' first | (with_reducible first | assumption | apply State.copyWritten_kept | apply State.guard_kept) | intro _ | dsimp only
theorem execOptionsCommit_kept (p : Path) (v : Word) (s : State) {u : State} (h : execOptionsCommit p v s = .next u) : Kept s u := by
  unfold execOptionsCommit at h
  simp only [Host.Outcome.next.injEq] at h
  have hc := kept_refl s
  rw [← h]
  clear h
  repeat' first | (with_reducible first | assumption | apply State.doCommit_kept | apply State.guard_kept) | intro _ | dsimp only
theorem execOptionsCommitEnd_kept (s : State) {u : State} (h : execOptionsCommitEnd s = .next u) : Kept s u := by
  unfold execOptionsCommitEnd at h
  simp only [Host.Outcome.next.injEq] at h
  have hc := kept_refl s
  rw [← h]
  clear h
  repeat' first | (with_reducible first | assumption | apply kept_ite | apply State.guard_kept | apply State.startCommit_kept | apply State.wr_kept) | simp only [kept_same] | intro _ | dsimp only | split
theorem execTriesClear_kept (p : Path) (v : Word) (s : State) {u : State} (h : execTriesClear p v s = .next u) : Kept s u := by
  unfold execTriesClear at h
  simp only [Host.Outcome.next.injEq] at h
  have hc := kept_refl s
  rw [← h]
  clear h
  repeat' first | (with_reducible first | assumption | apply State.clearTries_kept | apply State.guard_kept) | intro _ | dsimp only
theorem execLatticeEnable_kept (q : Path) (v : Word) (s : State) {u : State} (h : execLatticeEnable q v s = .next u) : Kept s u := by
  unfold execLatticeEnable at h
  simp only [Host.Outcome.next.injEq] at h
  have hc := kept_refl s
  rw [← h]
  clear h
  repeat' first | (with_reducible first | assumption | apply State.guard_kept | apply State.latEnable_kept) | intro _ | dsimp only
theorem execDiscoveryEnd_kept (s : State) {u : State} (h : execDiscoveryEnd s = .next u) : Kept s u := by
  unfold execDiscoveryEnd at h
  simp only [Host.Outcome.next.injEq] at h
  have hc := kept_refl s
  rw [← h]
  clear h
  repeat' first | (with_reducible first | assumption | apply kept_ite | apply State.confirmConfig_kept | apply State.guard_kept | apply State.latEvent_kept | apply State.latRefresh_kept | apply State.nameKeeper_kept | apply kept_ite2 | apply kept_ite3 | apply kept_ite4) | intro _ | dsimp only
theorem execHelloSend_kept (dt : Nat) (s : State) {u : State} (h : execHelloSend dt s = .next u) : Kept s u := by
  unfold execHelloSend at h
  simp only [Host.Outcome.next.injEq] at h
  have hc := kept_refl s
  rw [← h]
  clear h
  repeat' first | (with_reducible first | assumption | apply kept_ite | (apply kept_foldl; intro _ _ _) | apply State.advance_kept | apply State.elect_kept | apply State.guard_kept | apply State.hello_kept | apply State.setLat_kept | apply State.wr_kept) | simp only [kept_same] | intro _ | dsimp only
theorem execTriggeredHello_kept (p : Fin 12) (dt : Nat) (s : State) {u : State} (h : execTriggeredHello p dt s = .next u) : Kept s u := by
  unfold execTriggeredHello at h
  simp only [Host.Outcome.next.injEq] at h
  have hc := kept_refl s
  rw [← h]
  clear h
  repeat' first | (with_reducible first | assumption | apply kept_ite | apply State.advance_kept | apply State.guard_kept | apply State.hello_kept) | intro _ | dsimp only
theorem execLatticeFrameDelivered_kept (p : Fin 12) (d : List Byte) (s : State) {u : State} (h : execLatticeFrameDelivered p d s = .next u) : Kept s u := by
  unfold execLatticeFrameDelivered at h
  simp only [Host.Outcome.next.injEq] at h
  have hc := kept_refl s
  rw [← h]
  clear h
  repeat' first | (with_reducible first | assumption | apply kept_ite | apply State.drop_kept | apply State.guard_kept | apply State.latCnt_kept | apply State.latFlood_kept | apply State.latTo_kept | apply State.setLat_kept) | simp only [kept_same] | intro _ | dsimp only | split
theorem execHelloReceived_kept (s : State) {u : State} (h : execHelloReceived s = .next u) : Kept s u := by
  unfold execHelloReceived at h
  simp only [Host.Outcome.next.injEq] at h
  have hc := kept_refl s
  rw [← h]
  clear h
  repeat' first | (with_reducible first | assumption | apply kept_ite | apply State.guard_kept | apply State.helloTaken_kept | exact State.latGot_kept _ _ _ ‹_› ‹_›) | simp only [kept_same] | intro _ | dsimp only | split
theorem execNeighbourTimeout_kept (n : Fin 16) (s : State) {u : State} (h : execNeighbourTimeout n s = .next u) : Kept s u := by
  unfold execNeighbourTimeout at h
  simp only [Host.Outcome.next.injEq] at h
  have hc := kept_refl s
  rw [← h]
  clear h
  repeat' first | (with_reducible first | assumption | apply kept_ite | apply State.elect_kept | apply State.guard_kept | apply State.latRefresh_kept | apply State.neighbourLost_kept) | intro _ | dsimp only
theorem execKeeperClaimStale_kept (id : DWord) (s : State) {u : State} (h : execKeeperClaimStale id s = .next u) : Kept s u := by
  unfold execKeeperClaimStale at h
  simp only [Host.Outcome.next.injEq] at h
  have hc := kept_refl s
  rw [← h]
  clear h
  repeat' first | (with_reducible first | assumption | apply kept_ite | apply State.elect_kept | apply State.guard_kept | apply State.latRefresh_kept | apply State.setLat_kept) | simp only [kept_same] | intro _ | dsimp only
theorem execJoinSend_kept (s : State) {u : State} (h : execJoinSend s = .next u) : Kept s u := by
  unfold execJoinSend at h
  simp only [Host.Outcome.next.injEq] at h
  have hc := kept_refl s
  rw [← h]
  clear h
  repeat' first | (with_reducible first | assumption | apply kept_ite | apply State.guard_kept | apply State.latLocal_kept) | simp only [kept_same] | intro _ | dsimp only | split
theorem execJoinRelay_kept (s : State) {u : State} (h : execJoinRelay s = .next u) : Kept s u := by
  unfold execJoinRelay at h
  simp only [Host.Outcome.next.injEq] at h
  have hc := kept_refl s
  rw [← h]
  clear h
  repeat' first | (with_reducible first | assumption | apply kept_ite | apply State.guard_kept | exact State.latGot_kept _ _ _ ‹_› ‹_› | apply State.latLocal_kept | apply State.latSend_kept | apply State.setLat_kept) | simp only [kept_same] | intro _ | dsimp only | split
theorem execJoinReceived_kept (s : State) {u : State} (h : execJoinReceived s = .next u) : Kept s u := by
  unfold execJoinReceived at h
  simp only [Host.Outcome.next.injEq] at h
  have hc := kept_refl s
  rw [← h]
  clear h
  repeat' first | (with_reducible first | assumption | apply kept_ite | apply State.cnt_kept | apply State.enterAddr_kept | apply State.guard_kept | exact State.latGot_kept _ _ _ ‹_› ‹_› | apply State.latLocal_kept | apply State.latTo_kept) | simp only [kept_same] | intro _ | dsimp only | split
theorem execJoinGrantReceived_kept (s : State) {u : State} (h : execJoinGrantReceived s = .next u) : Kept s u := by
  unfold execJoinGrantReceived at h
  simp only [Host.Outcome.next.injEq] at h
  have hc := kept_refl s
  rw [← h]
  clear h
  repeat' first | (with_reducible first | assumption | apply kept_ite | apply State.cnt_kept | apply State.guard_kept | exact State.latGot_kept _ _ _ ‹_› ‹_› | apply State.latRefresh_kept | apply State.takeAddr_kept) | simp only [kept_same] | intro _ | dsimp only | split
theorem execKeeperForget_kept (q : Path) (v : Half) (s : State) {u : State} (h : execKeeperForget q v s = .next u) : Kept s u := by
  unfold execKeeperForget at h
  simp only [Host.Outcome.next.injEq] at h
  have hc := kept_refl s
  rw [← h]
  clear h
  repeat' first | (with_reducible first | assumption | apply State.guard_kept | apply State.latForget_kept) | intro _ | dsimp only
theorem execLinkReportSend_kept (s : State) {u : State} (h : execLinkReportSend s = .next u) : Kept s u := by
  unfold execLinkReportSend at h
  simp only [Host.Outcome.next.injEq] at h
  have hc := kept_refl s
  rw [← h]
  clear h
  repeat' first | (with_reducible first | assumption | apply kept_ite | apply State.guard_kept | apply State.latSend_kept) | intro _ | dsimp only
theorem execLinkReportReceived_kept (s : State) {u : State} (h : execLinkReportReceived s = .next u) : Kept s u := by
  unfold execLinkReportReceived at h
  simp only [Host.Outcome.next.injEq] at h
  have hc := kept_refl s
  rw [← h]
  clear h
  repeat' first | (with_reducible first | assumption | apply kept_ite | (apply kept_foldl; intro _ _ _) | apply State.distribute_kept | apply State.enterAddr_kept | apply State.guard_kept | exact State.latGot_kept _ _ _ ‹_› ‹_› | apply State.latRefresh_kept | apply State.setLat_kept) | simp only [kept_same] | intro _ | dsimp only | split
theorem execRoutePartReceived_kept (s : State) {u : State} (h : execRoutePartReceived s = .next u) : Kept s u := by
  unfold execRoutePartReceived at h
  simp only [Host.Outcome.next.injEq] at h
  have hc := kept_refl s
  rw [← h]
  clear h
  repeat' first | (with_reducible first | assumption | apply State.guard_kept | exact State.latGot_kept _ _ _ ‹_› ‹_› | apply State.latRefresh_kept | apply State.routePartTaken_kept) | simp only [kept_same] | intro _ | dsimp only | split
theorem execRouteHeadTimeout_kept (s : State) {u : State} (h : execRouteHeadTimeout s = .next u) : Kept s u := by
  unfold execRouteHeadTimeout at h
  simp only [Host.Outcome.next.injEq] at h
  have hc := kept_refl s
  rw [← h]
  clear h
  repeat' first | (with_reducible first | assumption | apply kept_ite | apply State.guard_kept | apply State.latRefresh_kept | apply State.quarantine_kept | apply State.setLat_kept) | simp only [kept_same] | intro _ | dsimp only
theorem execTempSample_kept (temps volts : List Half) (s : State) {u : State} (h : execTempSample temps volts s = .next u) : Kept s u := by
  unfold execTempSample at h
  simp only [Host.Outcome.next.injEq] at h
  have hc := kept_refl s
  rw [← h]
  clear h
  repeat' first | (with_reducible first | assumption | (apply kept_foldl; intro _ _ _) | apply State.guard_kept | apply State.sampleTemps_kept | apply State.wr_kept) | intro _ | dsimp only
theorem execSupplyExcursion_kept (m : Fin 11) (mv : Half) (s : State) {u : State} (h : execSupplyExcursion m mv s = .next u) : Kept s u := by
  unfold execSupplyExcursion at h
  simp only [Host.Outcome.next.injEq] at h
  have hc := kept_refl s
  rw [← h]
  clear h
  repeat' first | (with_reducible first | assumption | apply kept_ite | apply State.guard_kept | apply State.supplyOut_kept) | intro _ | dsimp only
theorem execSupplyRecovered_kept (m : Fin 11) (mv : Half) (s : State) {u : State} (h : execSupplyRecovered m mv s = .next u) : Kept s u := by
  unfold execSupplyRecovered at h
  simp only [Host.Outcome.next.injEq] at h
  have hc := kept_refl s
  rw [← h]
  clear h
  repeat' first | (with_reducible first | assumption | apply kept_ite | apply State.guard_kept | apply State.supplyBack_kept) | intro _ | dsimp only
theorem execPaceWindowEnd_kept (k : Fin 21) (count : Nat) (s : State) {u : State} (h : execPaceWindowEnd k count s = .next u) : Kept s u := by
  unfold execPaceWindowEnd at h
  simp only [Host.Outcome.next.injEq] at h
  have hc := kept_refl s
  rw [← h]
  clear h
  repeat' first | (with_reducible first | assumption | apply State.cnt_kept | apply State.guard_kept) | simp only [kept_same] | intro _ | dsimp only
theorem execPaceUpdate_kept (factory : List Word) (s : State) {u : State} (h : execPaceUpdate factory s = .next u) : Kept s u := by
  unfold execPaceUpdate at h
  simp only [Host.Outcome.next.injEq] at h
  have hc := kept_refl s
  rw [← h]
  clear h
  repeat' first | (with_reducible first | assumption | (apply kept_foldl; intro _ _ _) | apply State.guard_kept | apply State.paceOne_kept) | intro _ | dsimp only
theorem execMarginRecord_kept (s : State) {u : State} (h : execMarginRecord s = .next u) : Kept s u := by
  unfold execMarginRecord at h
  simp only [Host.Outcome.next.injEq] at h
  have hc := kept_refl s
  rw [← h]
  clear h
  repeat' first | (with_reducible first | assumption | apply State.guard_kept | apply State.record_kept) | intro _ | dsimp only
theorem execPerturbArm_kept (p : Path) (v : Word) (s : State) {u : State} (h : execPerturbArm p v s = .next u) : Kept s u := by
  unfold execPerturbArm at h
  simp only [Host.Outcome.next.injEq] at h
  have hc := kept_refl s
  rw [← h]
  clear h
  repeat' first | (with_reducible first | assumption | apply kept_ite | apply State.doArm_kept | apply State.guard_kept) | intro _ | dsimp only
theorem execPerturbArmed_kept (s : State) {u : State} (h : execPerturbArmed s = .next u) : Kept s u := by
  unfold execPerturbArmed at h
  simp only [Host.Outcome.next.injEq] at h
  have hc := kept_refl s
  rw [← h]
  clear h
  repeat' first | (with_reducible first | assumption | apply kept_ite | apply State.becomeArmed_kept | apply State.guard_kept) | simp only [kept_same] | intro _ | dsimp only | split
theorem execPerturbDisarm_kept (p : Path) (v : Word) (s : State) {u : State} (h : execPerturbDisarm p v s = .next u) : Kept s u := by
  unfold execPerturbDisarm at h
  simp only [Host.Outcome.next.injEq] at h
  have hc := kept_refl s
  rw [← h]
  clear h
  repeat' first | (with_reducible first | assumption | apply kept_ite | apply State.disarm_kept | apply State.guard_kept) | intro _ | dsimp only
theorem execTestInServiceWrite_kept (p : Path) (v : Word) (keeper : Bool) (s : State) {u : State} (h : execTestInServiceWrite p v keeper s = .next u) : Kept s u := by
  unfold execTestInServiceWrite at h
  simp only [Host.Outcome.next.injEq] at h
  have hc := kept_refl s
  rw [← h]
  clear h
  repeat' first | (with_reducible first | assumption | apply kept_ite | apply State.doTestInService_kept | apply State.guard_kept | apply State.violate_kept) | intro _ | dsimp only
theorem execTestTimeoutExpiry_kept (s : State) {u : State} (h : execTestTimeoutExpiry s = .next u) : Kept s u := by
  unfold execTestTimeoutExpiry at h
  simp only [Host.Outcome.next.injEq] at h
  have hc := kept_refl s
  rw [← h]
  clear h
  repeat' first | (with_reducible first | assumption | apply kept_ite | apply State.disarm_kept | apply State.guard_kept | apply State.wr_kept) | simp only [kept_same] | intro _ | dsimp only
theorem execAutoDisarmExpiry_kept (s : State) {u : State} (h : execAutoDisarmExpiry s = .next u) : Kept s u := by
  unfold execAutoDisarmExpiry at h
  simp only [Host.Outcome.next.injEq] at h
  have hc := kept_refl s
  rw [← h]
  clear h
  repeat' first | (with_reducible first | assumption | apply kept_ite | apply State.disarm_kept | apply State.guard_kept) | intro _ | dsimp only
theorem execBackpressureSlot_kept (s : State) {u : State} (h : execBackpressureSlot s = .next u) : Kept s u := by
  unfold execBackpressureSlot at h
  simp only [Host.Outcome.next.injEq] at h
  have hc := kept_refl s
  rw [← h]
  clear h
  repeat' first | (with_reducible first | assumption | apply kept_ite | apply State.cnt_kept | apply State.guard_kept) | simp only [kept_same] | intro _ | dsimp only
theorem execSymbolInject_kept (s : State) {u : State} (h : execSymbolInject s = .next u) : Kept s u := by
  unfold execSymbolInject at h
  simp only [Host.Outcome.next.injEq] at h
  have hc := kept_refl s
  rw [← h]
  clear h
  repeat' first | (with_reducible first | assumption | apply kept_ite | apply State.cnt_kept | apply State.emit_kept | apply State.guard_kept) | simp only [kept_same] | intro _ | dsimp only
theorem execJitterDraw_kept (s : State) {u : State} (h : execJitterDraw s = .next u) : Kept s u := by
  unfold execJitterDraw at h
  simp only [Host.Outcome.next.injEq] at h
  have hc := kept_refl s
  rw [← h]
  clear h
  repeat' first | (with_reducible first | assumption | apply kept_ite | apply State.cnt_kept | apply State.guard_kept | apply State.tick_kept) | simp only [kept_same] | intro _ | dsimp only
theorem execJtagUnlock_kept (p : Path) (good : Bool) (s : State) {u : State} (h : execJtagUnlock p good s = .next u) : Kept s u := by
  unfold execJtagUnlock at h
  simp only [Host.Outcome.next.injEq] at h
  have hc := kept_refl s
  rw [← h]
  clear h
  repeat' first | (with_reducible first | assumption | apply kept_ite | apply State.guard_kept | apply State.record_kept) | simp only [kept_same] | intro _ | dsimp only
theorem execJtagInstruction_kept (ir : TapOp) (s : State) {u : State} (h : execJtagInstruction ir s = .next u) : Kept s u := by
  unfold execJtagInstruction at h
  simp only [Host.Outcome.next.injEq] at h
  have hc := kept_refl s
  rw [← h]
  clear h
  repeat' first | (with_reducible first | assumption | apply kept_ite | apply State.emit_kept | apply State.guard_kept) | simp only [kept_same] | intro _ | dsimp only
theorem execPioB_kept (m : Fin 32) (s : State) {u : State} (h : execPioB m s = .next u) : Kept s u := by
  unfold execPioB at h
  simp only [Host.Outcome.next.injEq] at h
  have hc := kept_refl s
  rw [← h]
  clear h
  repeat' first | (with_reducible first | assumption | apply State.guard_kept | apply State.smDone_kept | apply State.smRun_kept) | intro _ | dsimp only
theorem execPioLoopa_kept (m : Fin 32) (s : State) {u : State} (h : execPioLoopa m s = .next u) : Kept s u := by
  unfold execPioLoopa at h
  simp only [Host.Outcome.next.injEq] at h
  have hc := kept_refl s
  rw [← h]
  clear h
  repeat' first | (with_reducible first | assumption | apply State.guard_kept | apply State.smLoop_kept | apply State.smRun_kept) | intro _ | dsimp only
theorem execPioLoopb_kept (m : Fin 32) (s : State) {u : State} (h : execPioLoopb m s = .next u) : Kept s u := by
  unfold execPioLoopb at h
  simp only [Host.Outcome.next.injEq] at h
  have hc := kept_refl s
  rw [← h]
  clear h
  repeat' first | (with_reducible first | assumption | apply State.guard_kept | apply State.smLoop_kept | apply State.smRun_kept) | intro _ | dsimp only
theorem execPioBc_kept (m : Fin 32) (pins : Half) (s : State) {u : State} (h : execPioBc m pins s = .next u) : Kept s u := by
  unfold execPioBc at h
  simp only [Host.Outcome.next.injEq] at h
  have hc := kept_refl s
  rw [← h]
  clear h
  repeat' first | (with_reducible first | assumption | apply kept_ite | apply State.guard_kept | apply State.pioInputs_kept | apply State.smDone_kept | apply State.smRun_kept) | intro _ | dsimp only
theorem execPioDrive_kept (m : Fin 32) (s : State) {u : State} (h : execPioDrive m s = .next u) : Kept s u := by
  unfold execPioDrive at h
  simp only [Host.Outcome.next.injEq] at h
  have hc := kept_refl s
  rw [← h]
  clear h
  repeat' first | (with_reducible first | assumption | apply State.guard_kept | apply State.smDrive_kept | apply State.smRun_kept) | intro _ | dsimp only
theorem execPioSample_kept (m : Fin 32) (pins : Half) (s : State) {u : State} (h : execPioSample m pins s = .next u) : Kept s u := by
  unfold execPioSample at h
  simp only [Host.Outcome.next.injEq] at h
  have hc := kept_refl s
  rw [← h]
  clear h
  repeat' first | (with_reducible first | assumption | apply State.guard_kept | apply State.pioInputs_kept | apply State.smRun_kept | apply State.smSample_kept) | intro _ | dsimp only
theorem execPioFetch_kept (m : Fin 32) (s : State) {u : State} (h : execPioFetch m s = .next u) : Kept s u := by
  unfold execPioFetch at h
  simp only [Host.Outcome.next.injEq] at h
  have hc := kept_refl s
  rw [← h]
  clear h
  repeat' first | (with_reducible first | assumption | apply State.guard_kept | apply State.smLoadTw_kept | apply State.smRun_kept) | intro _ | dsimp only
theorem execPioStore_kept (m : Fin 32) (s : State) {u : State} (h : execPioStore m s = .next u) : Kept s u := by
  unfold execPioStore at h
  simp only [Host.Outcome.next.injEq] at h
  have hc := kept_refl s
  rw [← h]
  clear h
  repeat' first | (with_reducible first | assumption | apply State.guard_kept | apply State.smRun_kept | apply State.smStoreRw_kept) | intro _ | dsimp only
theorem execPioLoad_kept (m : Fin 32) (s : State) {u : State} (h : execPioLoad m s = .next u) : Kept s u := by
  unfold execPioLoad at h
  simp only [Host.Outcome.next.injEq] at h
  have hc := kept_refl s
  rw [← h]
  clear h
  repeat' first | (with_reducible first | assumption | apply State.guard_kept | apply State.smLoadImm_kept | apply State.smRun_kept) | intro _ | dsimp only
theorem execPioAwait_kept (m : Fin 32) (pins : Half) (s : State) {u : State} (h : execPioAwait m pins s = .next u) : Kept s u := by
  unfold execPioAwait at h
  simp only [Host.Outcome.next.injEq] at h
  have hc := kept_refl s
  rw [← h]
  clear h
  repeat' first | (with_reducible first | assumption | apply State.guard_kept | apply State.pioInputs_kept | apply State.smAwait_kept | apply State.smRun_kept) | intro _ | dsimp only
theorem execPioFlag_kept (m : Fin 32) (s : State) {u : State} (h : execPioFlag m s = .next u) : Kept s u := by
  unfold execPioFlag at h
  simp only [Host.Outcome.next.injEq] at h
  have hc := kept_refl s
  rw [← h]
  clear h
  repeat' first | (with_reducible first | assumption | apply State.guard_kept | apply State.smFlag_kept | apply State.smRun_kept) | intro _ | dsimp only
theorem execPioCopy_kept (m : Fin 32) (pins : Half) (s : State) {u : State} (h : execPioCopy m pins s = .next u) : Kept s u := by
  unfold execPioCopy at h
  simp only [Host.Outcome.next.injEq] at h
  have hc := kept_refl s
  rw [← h]
  clear h
  repeat' first | (with_reducible first | assumption | apply State.guard_kept | apply State.pioInputs_kept | apply State.smCopy_kept | apply State.smRun_kept) | intro _ | dsimp only
theorem execPioUnpack_kept (m : Fin 32) (s : State) {u : State} (h : execPioUnpack m s = .next u) : Kept s u := by
  unfold execPioUnpack at h
  simp only [Host.Outcome.next.injEq] at h
  have hc := kept_refl s
  rw [← h]
  clear h
  repeat' first | (with_reducible first | assumption | apply State.guard_kept | apply State.smRun_kept | apply State.smUnpack_kept) | intro _ | dsimp only
theorem execPioPack_kept (m : Fin 32) (s : State) {u : State} (h : execPioPack m s = .next u) : Kept s u := by
  unfold execPioPack at h
  simp only [Host.Outcome.next.injEq] at h
  have hc := kept_refl s
  rw [← h]
  clear h
  repeat' first | (with_reducible first | assumption | apply State.guard_kept | apply State.smPack_kept | apply State.smRun_kept) | intro _ | dsimp only
theorem execPioNop_kept (m : Fin 32) (s : State) {u : State} (h : execPioNop m s = .next u) : Kept s u := by
  unfold execPioNop at h
  simp only [Host.Outcome.next.injEq] at h
  have hc := kept_refl s
  rw [← h]
  clear h
  repeat' first | (with_reducible first | assumption | apply State.guard_kept | apply State.smDone_kept | exact State.smFetch_kept _ _ _ ‹_› ‹_› | apply State.smRun_kept) | simp only [kept_same] | intro _ | dsimp only | split
theorem execPioWaitEnd_kept (m : Fin 32) (pins : Half) (s : State) {u : State} (h : execPioWaitEnd m pins s = .next u) : Kept s u := by
  unfold execPioWaitEnd at h
  simp only [Host.Outcome.next.injEq] at h
  have hc := kept_refl s
  rw [← h]
  clear h
  repeat' first | (with_reducible first | assumption | apply kept_ite | apply State.guard_kept | apply State.pioInputs_kept | apply State.smResume_kept) | intro _ | dsimp only
theorem execPioDelayExpiry_kept (m : Fin 32) (s : State) {u : State} (h : execPioDelayExpiry m s = .next u) : Kept s u := by
  unfold execPioDelayExpiry at h
  simp only [Host.Outcome.next.injEq] at h
  have hc := kept_refl s
  rw [← h]
  clear h
  repeat' first | (with_reducible first | assumption | apply kept_ite | apply State.guard_kept | apply State.setSm_kept) | simp only [kept_same] | intro _ | dsimp only
theorem execPioSmEnable_kept (q : Path) (b : Fin 4) (v : Byte) (s : State) {u : State} (h : execPioSmEnable q b v s = .next u) : Kept s u := by
  unfold execPioSmEnable at h
  simp only [Host.Outcome.next.injEq] at h
  have hc := kept_refl s
  rw [← h]
  clear h
  repeat' first | (with_reducible first | assumption | apply kept_ite | apply State.guard_kept | apply State.smEnable_kept) | intro _ | dsimp only
theorem execPioSmDisable_kept (q : Path) (b : Fin 4) (v : Byte) (s : State) {u : State} (h : execPioSmDisable q b v s = .next u) : Kept s u := by
  unfold execPioSmDisable at h
  simp only [Host.Outcome.next.injEq] at h
  have hc := kept_refl s
  rw [← h]
  clear h
  repeat' first | (with_reducible first | assumption | apply kept_ite | apply State.guard_kept | apply State.smEnable_kept) | intro _ | dsimp only
theorem execPioWrapWrite_kept (q : Path) (m : Fin 32) (v : Half) (s : State) {u : State} (h : execPioWrapWrite q m v s = .next u) : Kept s u := by
  unfold execPioWrapWrite at h
  simp only [Host.Outcome.next.injEq] at h
  have hc := kept_refl s
  rw [← h]
  clear h
  repeat' first | (with_reducible first | assumption | apply State.guard_kept | apply State.smWrap_kept) | intro _ | dsimp only
theorem execPioSyncApplyArm_kept (q : Path) (s : State) {u : State} (h : execPioSyncApplyArm q s = .next u) : Kept s u := by
  unfold execPioSyncApplyArm at h
  simp only [Host.Outcome.next.injEq] at h
  have hc := kept_refl s
  rw [← h]
  clear h
  repeat' first | (with_reducible first | assumption | apply State.guard_kept | apply State.syncCommand_kept) | intro _ | dsimp only
theorem execPioSyncCancel_kept (q : Path) (s : State) {u : State} (h : execPioSyncCancel q s = .next u) : Kept s u := by
  unfold execPioSyncCancel at h
  simp only [Host.Outcome.next.injEq] at h
  have hc := kept_refl s
  rw [← h]
  clear h
  repeat' first | (with_reducible first | assumption | apply State.guard_kept | apply State.syncCommand_kept) | intro _ | dsimp only
theorem execPioSyncApply_kept (s : State) {u : State} (h : execPioSyncApply s = .next u) : Kept s u := by
  unfold execPioSyncApply at h
  simp only [Host.Outcome.next.injEq] at h
  have hc := kept_refl s
  rw [← h]
  clear h
  repeat' first | (with_reducible first | assumption | apply kept_ite | apply State.guard_kept | apply State.syncApply_kept) | intro _ | dsimp only
theorem execPioFlagSetWrite_kept (q : Path) (b : Fin 4) (v : Byte) (s : State) {u : State} (h : execPioFlagSetWrite q b v s = .next u) : Kept s u := by
  unfold execPioFlagSetWrite at h
  simp only [Host.Outcome.next.injEq] at h
  have hc := kept_refl s
  rw [← h]
  clear h
  repeat' first | (with_reducible first | assumption | apply State.guard_kept | apply State.setPioFlags_kept) | intro _ | dsimp only
theorem execPioFlagClearWrite_kept (q : Path) (b : Fin 4) (v : Byte) (s : State) {u : State} (h : execPioFlagClearWrite q b v s = .next u) : Kept s u := by
  unfold execPioFlagClearWrite at h
  simp only [Host.Outcome.next.injEq] at h
  have hc := kept_refl s
  rw [← h]
  clear h
  repeat' first | (with_reducible first | assumption | apply State.guard_kept | apply State.setPioFlags_kept) | intro _ | dsimp only
theorem execPioTxFifoPush_kept (q : Path) (m : Fin 32) (v : Word) (s : State) {u : State} (h : execPioTxFifoPush q m v s = .next u) : Kept s u := by
  unfold execPioTxFifoPush at h
  simp only [Host.Outcome.next.injEq] at h
  have hc := kept_refl s
  rw [← h]
  clear h
  repeat' first | (with_reducible first | assumption | apply State.guard_kept | apply State.txPush_kept) | intro _ | dsimp only
theorem execPioRxFifoPop_kept (q : Path) (m : Fin 32) (s : State) {u : State} (h : execPioRxFifoPop q m s = .next u) : Kept s u := by
  unfold execPioRxFifoPop at h
  simp only [Host.Outcome.next.injEq] at h
  have hc := kept_refl s
  rw [← h]
  clear h
  repeat' first | (with_reducible first | assumption | apply kept_ite | apply State.emit_kept | apply State.guard_kept | apply State.rxPop_kept | apply State.violate_kept | apply kept_ite2 | apply kept_ite3 | apply kept_ite4) | intro _ | dsimp only
theorem execPioDmaEnable_kept (q : Path) (k : Fin 64) (v : Word) (s : State) {u : State} (h : execPioDmaEnable q k v s = .next u) : Kept s u := by
  unfold execPioDmaEnable at h
  simp only [Host.Outcome.next.injEq] at h
  have hc := kept_refl s
  rw [← h]
  clear h
  repeat' first | (with_reducible first | assumption | apply kept_ite | apply State.dmaControl_kept | apply State.guard_kept) | intro _ | dsimp only
theorem execPioDmaWord_kept (k : Fin 64) (s : State) {u : State} (h : execPioDmaWord k s = .next u) : Kept s u := by
  unfold execPioDmaWord at h
  simp only [Host.Outcome.next.injEq] at h
  have hc := kept_refl s
  rw [← h]
  clear h
  repeat' first | (with_reducible first | assumption | apply kept_ite | apply State.dmaMoved_kept | apply State.dmaRead_kept | apply State.guard_kept | apply State.memWrite_kept | apply State.pioEvent_kept | apply State.rxPop_kept | apply State.txPush_kept | apply State.wr_kept | apply kept_ite2 | apply kept_ite3 | apply kept_ite4) | intro _ | dsimp only
theorem execTrackEnable_kept (q : Path) (t : Fin 16) (v : Word) (s : State) {u : State} (h : execTrackEnable q t v s = .next u) : Kept s u := by
  unfold execTrackEnable at h
  simp only [Host.Outcome.next.injEq] at h
  have hc := kept_refl s
  rw [← h]
  clear h
  repeat' first | (with_reducible first | assumption | apply State.guard_kept | apply State.trkEnable_kept) | intro _ | dsimp only
theorem execTrackAbort_kept (q : Path) (t : Fin 16) (v : Byte) (s : State) {u : State} (h : execTrackAbort q t v s = .next u) : Kept s u := by
  unfold execTrackAbort at h
  simp only [Host.Outcome.next.injEq] at h
  have hc := kept_refl s
  rw [← h]
  clear h
  repeat' first | (with_reducible first | assumption | apply State.guard_kept | apply State.trkAbort_kept) | intro _ | dsimp only
theorem execLocusStagingStart_kept (t : Fin 16) (dt : Nat) (s : State) {u : State} (h : execLocusStagingStart t dt s = .next u) : Kept s u := by
  unfold execLocusStagingStart at h
  simp only [Host.Outcome.next.injEq] at h
  have hc := kept_refl s
  rw [← h]
  clear h
  repeat' first | (with_reducible first | assumption | apply State.advance_kept | apply State.guard_kept | apply State.trkBegin_kept) | intro _ | dsimp only
theorem execLocusReadDone_kept (t : Fin 16) (dt : Nat) (s : State) {u : State} (h : execLocusReadDone t dt s = .next u) : Kept s u := by
  unfold execLocusReadDone at h
  simp only [Host.Outcome.next.injEq] at h
  have hc := kept_refl s
  rw [← h]
  clear h
  repeat' first | (with_reducible first | assumption | apply State.advance_kept | apply State.guard_kept | apply State.trkReadDone_kept) | intro _ | dsimp only
theorem execLocusDeadlineMiss_kept (t : Fin 16) (dt : Nat) (s : State) {u : State} (h : execLocusDeadlineMiss t dt s = .next u) : Kept s u := by
  unfold execLocusDeadlineMiss at h
  simp only [Host.Outcome.next.injEq] at h
  have hc := kept_refl s
  rw [← h]
  clear h
  repeat' first | (with_reducible first | assumption | apply kept_ite | apply State.advance_kept | apply State.guard_kept | apply State.trkLate_kept) | intro _ | dsimp only
theorem execLocusPioPush_kept (t : Fin 16) (s : State) {u : State} (h : execLocusPioPush t s = .next u) : Kept s u := by
  unfold execLocusPioPush at h
  simp only [Host.Outcome.next.injEq] at h
  have hc := kept_refl s
  rw [← h]
  clear h
  repeat' first | (with_reducible first | assumption | apply kept_ite | apply State.guard_kept | apply State.setTrack_kept | apply State.txPush_kept) | simp only [kept_same] | intro _ | dsimp only | split
theorem execLocusStaged_kept (t : Fin 16) (s : State) {u : State} (h : execLocusStaged t s = .next u) : Kept s u := by
  unfold execLocusStaged at h
  simp only [Host.Outcome.next.injEq] at h
  have hc := kept_refl s
  rw [← h]
  clear h
  repeat' first | (with_reducible first | assumption | apply State.guard_kept | apply State.trkStaged_kept) | intro _ | dsimp only
theorem execSwapArm_kept (q : Path) (s : State) {u : State} (h : execSwapArm q s = .next u) : Kept s u := by
  unfold execSwapArm at h
  simp only [Host.Outcome.next.injEq] at h
  have hc := kept_refl s
  rw [← h]
  clear h
  repeat' first | (with_reducible first | assumption | apply State.guard_kept | apply State.swapCommand_kept) | intro _ | dsimp only
theorem execSwapCancel_kept (q : Path) (s : State) {u : State} (h : execSwapCancel q s = .next u) : Kept s u := by
  unfold execSwapCancel at h
  simp only [Host.Outcome.next.injEq] at h
  have hc := kept_refl s
  rw [← h]
  clear h
  repeat' first | (with_reducible first | assumption | apply State.guard_kept | apply State.swapCommand_kept) | intro _ | dsimp only
theorem execSwapArmTied_kept (q : Path) (s : State) {u : State} (h : execSwapArmTied q s = .next u) : Kept s u := by
  unfold execSwapArmTied at h
  simp only [Host.Outcome.next.injEq] at h
  have hc := kept_refl s
  rw [← h]
  clear h
  repeat' first | (with_reducible first | assumption | apply State.guard_kept | apply State.swapCommand_kept) | intro _ | dsimp only
theorem execTriggerFire_kept (d : Fin 4) (t : Fin 16) (dt : Nat) (s : State) {u : State} (h : execTriggerFire d t dt s = .next u) : Kept s u := by
  unfold execTriggerFire at h
  simp only [Host.Outcome.next.injEq] at h
  have hc := kept_refl s
  rw [← h]
  clear h
  repeat' first | (with_reducible first | assumption | apply State.advance_kept | apply State.guard_kept | apply State.pioTrigger_kept | (apply State.trigFire_kept (h := ‹_›))) | simp only [kept_same] | intro _ | dsimp only | split
theorem execCanModeWrite_kept (p : Path) (c : Fin 4) (v : Word) (s : State) {u : State} (h : execCanModeWrite p c v s = .next u) : Kept s u := by
  unfold execCanModeWrite at h
  simp only [Host.Outcome.next.injEq] at h
  have hc := kept_refl s
  rw [← h]
  clear h
  repeat' first | (with_reducible first | assumption | apply State.canMode_kept | apply State.guard_kept) | intro _ | dsimp only
theorem execCanIntegrated_kept (c : Fin 4) (s : State) {u : State} (h : execCanIntegrated c s = .next u) : Kept s u := by
  unfold execCanIntegrated at h
  simp only [Host.Outcome.next.injEq] at h
  have hc := kept_refl s
  rw [← h]
  clear h
  repeat' first | (with_reducible first | assumption | apply State.canStatus_kept | apply State.guard_kept) | intro _ | dsimp only
theorem execCanFrameReceived_kept (c : Fin 4) (f : BusFrame) (ago : Nat) (phase : Fin 8) (s : State) {u : State} (h : execCanFrameReceived c f ago phase s = .next u) : Kept s u := by
  unfold execCanFrameReceived at h
  simp only [Host.Outcome.next.injEq] at h
  have hc := kept_refl s
  rw [← h]
  clear h
  repeat' first | (with_reducible first | assumption | apply kept_ite | apply State.canCounters_kept | apply State.canHeard_kept | apply State.canLost_kept | apply State.canOffer_kept | apply State.canStamp_kept | apply State.guard_kept | apply State.recDown_kept | apply kept_ite2 | apply kept_ite3 | apply kept_ite4) | intro _ | dsimp only
theorem execCanFrameStored_kept (c : Fin 4) (s : State) {u : State} (h : execCanFrameStored c s = .next u) : Kept s u := by
  unfold execCanFrameStored at h
  simp only [Host.Outcome.next.injEq] at h
  have hc := kept_refl s
  rw [← h]
  clear h
  repeat' first | (with_reducible first | assumption | apply State.canStore_kept | apply State.guard_kept) | intro _ | dsimp only
theorem execCanRxError_kept (c : Fin 4) (lec : Fin 7) (data res : Bool) (eights : Fin 32) (s : State) {u : State} (h : execCanRxError c lec data res eights s = .next u) : Kept s u := by
  unfold execCanRxError at h
  simp only [Host.Outcome.next.injEq] at h
  have hc := kept_refl s
  rw [← h]
  clear h
  repeat' first | (with_reducible first | assumption | apply kept_ite | apply State.canCounters_kept | apply State.canErr_kept | apply State.canEvent_kept | apply State.canLost_kept | apply State.canStatus_kept | apply State.guard_kept | apply State.recUp_kept | apply kept_ite2 | apply kept_ite3 | apply kept_ite4) | intro _ | dsimp only
theorem execCanTxRequest_kept (p : Path) (c : Fin 4) (v : DWord) (s : State) {u : State} (h : execCanTxRequest p c v s = .next u) : Kept s u := by
  unfold execCanTxRequest at h
  simp only [Host.Outcome.next.injEq] at h
  have hc := kept_refl s
  rw [← h]
  clear h
  repeat' first | (with_reducible first | assumption | apply State.canEach_kept | apply State.canRequest_kept | apply State.guard_kept) | intro _ | dsimp only
theorem execCanTxAttempt_kept (c : Fin 4) (phase : Fin 8) (dt : Nat) (s : State) {u : State} (h : execCanTxAttempt c phase dt s = .next u) : Kept s u := by
  unfold execCanTxAttempt at h
  simp only [Host.Outcome.next.injEq] at h
  have hc := kept_refl s
  rw [← h]
  clear h
  repeat' first | (with_reducible first | assumption | apply kept_ite | apply State.advance_kept | apply State.canAttempt_kept | apply State.guard_kept) | intro _ | dsimp only
theorem execCanTxSuccess_kept (c : Fin 4) (delay : BitVec 7) (s : State) {u : State} (h : execCanTxSuccess c delay s = .next u) : Kept s u := by
  unfold execCanTxSuccess at h
  simp only [Host.Outcome.next.injEq] at h
  have hc := kept_refl s
  rw [← h]
  clear h
  repeat' first | (with_reducible first | assumption | apply kept_ite | apply State.canDelay_kept | apply State.canSent_kept | apply State.guard_kept) | simp only [kept_same] | intro _ | dsimp only | split
theorem execCanTxError_kept (c : Fin 4) (lec : Fin 7) (data free : Bool) (eights : Fin 32) (delay : BitVec 7) (s : State) {u : State} (h : execCanTxError c lec data free eights delay s = .next u) : Kept s u := by
  unfold execCanTxError at h
  simp only [Host.Outcome.next.injEq] at h
  have hc := kept_refl s
  rw [← h]
  clear h
  repeat' first | (with_reducible first | assumption | apply kept_ite | apply State.canCounters_kept | apply State.canDelay_kept | apply State.canErr_kept | apply State.canEvent_kept | apply State.canIdle_kept | apply State.canRetry_kept | apply State.canUnacked_kept | apply State.guard_kept) | simp only [kept_same] | intro _ | dsimp only | split
theorem execCanTxAbort_kept (p : Path) (c : Fin 4) (v : DWord) (s : State) {u : State} (h : execCanTxAbort p c v s = .next u) : Kept s u := by
  unfold execCanTxAbort at h
  simp only [Host.Outcome.next.injEq] at h
  have hc := kept_refl s
  rw [← h]
  clear h
  repeat' first | (with_reducible first | assumption | apply State.canAbort_kept | apply State.canEach_kept | apply State.guard_kept) | intro _ | dsimp only
theorem execCanLockSet_kept (p : Path) (c : Fin 4) (v : DWord) (s : State) {u : State} (h : execCanLockSet p c v s = .next u) : Kept s u := by
  unfold execCanLockSet at h
  simp only [Host.Outcome.next.injEq] at h
  have hc := kept_refl s
  rw [← h]
  clear h
  repeat' first | (with_reducible first | assumption | apply State.canEach_kept | apply State.canLock_kept | apply State.guard_kept) | intro _ | dsimp only
theorem execCanLockClear_kept (p : Path) (c : Fin 4) (v : DWord) (s : State) {u : State} (h : execCanLockClear p c v s = .next u) : Kept s u := by
  unfold execCanLockClear at h
  simp only [Host.Outcome.next.injEq] at h
  have hc := kept_refl s
  rw [← h]
  clear h
  repeat' first | (with_reducible first | assumption | apply State.canEach_kept | apply State.canUnlock_kept | apply State.guard_kept) | intro _ | dsimp only
theorem execCanShadowPromoted_kept (c : Fin 4) (b : Fin 64) (s : State) {u : State} (h : execCanShadowPromoted c b s = .next u) : Kept s u := by
  unfold execCanShadowPromoted at h
  simp only [Host.Outcome.next.injEq] at h
  have hc := kept_refl s
  rw [← h]
  clear h
  repeat' first | (with_reducible first | assumption | apply kept_ite | apply State.canPromoted_kept | apply State.guard_kept) | intro _ | dsimp only
theorem execCanLostClear_kept (p : Path) (c : Fin 4) (v : DWord) (s : State) {u : State} (h : execCanLostClear p c v s = .next u) : Kept s u := by
  unfold execCanLostClear at h
  simp only [Host.Outcome.next.injEq] at h
  have hc := kept_refl s
  rw [← h]
  clear h
  repeat' first | (with_reducible first | assumption | apply State.canEach_kept | apply State.guard_kept | apply State.setBuf_kept) | intro _ | dsimp only
theorem execCanFifoGet_kept (p : Path) (c : Fin 4) (k : Fin 2) (v : Word) (s : State) {u : State} (h : execCanFifoGet p c k v s = .next u) : Kept s u := by
  unfold execCanFifoGet at h
  simp only [Host.Outcome.next.injEq] at h
  have hc := kept_refl s
  rw [← h]
  clear h
  repeat' first | (with_reducible first | assumption | apply State.guard_kept | apply State.wr_kept) | intro _ | dsimp only
theorem execCanBusOffRecovered_kept (c : Fin 4) (s : State) {u : State} (h : execCanBusOffRecovered c s = .next u) : Kept s u := by
  unfold execCanBusOffRecovered at h
  simp only [Host.Outcome.next.injEq] at h
  have hc := kept_refl s
  rw [← h]
  clear h
  repeat' first | (with_reducible first | assumption | apply kept_ite | apply State.canCounters_kept | apply State.canEvent_kept | apply State.guard_kept | apply State.setCan_kept) | simp only [kept_same] | intro _ | dsimp only
theorem execEngineRun_kept (p : Path) (e : Fin 32) (s : State) {u : State} (h : execEngineRun p e s = .next u) : Kept s u := by
  unfold execEngineRun at h
  simp only [Host.Outcome.next.injEq] at h
  have hc := kept_refl s
  rw [← h]
  clear h
  repeat' first | (with_reducible first | assumption | apply State.doRun_kept | apply State.guard_kept) | intro _ | dsimp only
theorem execEngineHalt_kept (p : Path) (e : Fin 32) (s : State) {u : State} (h : execEngineHalt p e s = .next u) : Kept s u := by
  unfold execEngineHalt at h
  simp only [Host.Outcome.next.injEq] at h
  have hc := kept_refl s
  rw [← h]
  clear h
  repeat' first | (with_reducible first | assumption | apply State.doHalt_kept | apply State.guard_kept) | intro _ | dsimp only
theorem execEngineStep_kept (p : Path) (e : Fin 32) (s : State) {u : State} (h : execEngineStep p e s = .next u) : Kept s u := by
  unfold execEngineStep at h
  simp only [Host.Outcome.next.injEq] at h
  have hc := kept_refl s
  rw [← h]
  clear h
  repeat' first | (with_reducible first | assumption | apply State.doStep_kept | apply State.guard_kept) | intro _ | dsimp only
theorem execEngineLoad_kept (p : Path) (e : Fin 32) (s : State) {u : State} (h : execEngineLoad p e s = .next u) : Kept s u := by
  unfold execEngineLoad at h
  simp only [Host.Outcome.next.injEq] at h
  have hc := kept_refl s
  rw [← h]
  clear h
  repeat' first | (with_reducible first | assumption | apply State.doLoad_kept | apply State.guard_kept) | intro _ | dsimp only
theorem execEngineHalted_kept (e : Fin 32) (s : State) {u : State} (h : execEngineHalted e s = .next u) : Kept s u := by
  unfold execEngineHalted at h
  simp only [Host.Outcome.next.injEq] at h
  have hc := kept_refl s
  rw [← h]
  clear h
  repeat' first | (with_reducible first | assumption | apply kept_ite | apply State.guard_kept | apply State.halted_kept) | intro _ | dsimp only
theorem execImageInstall_kept (p : Path) (s : State) {u : State} (h : execImageInstall p s = .next u) : Kept s u := by
  unfold execImageInstall at h
  simp only [Host.Outcome.next.injEq] at h
  have hc := kept_refl s
  rw [← h]
  clear h
  repeat' first | (with_reducible first | assumption | apply State.guard_kept | apply State.libraryStart_kept) | intro _ | dsimp only
theorem execImageRemove_kept (p : Path) (s : State) {u : State} (h : execImageRemove p s = .next u) : Kept s u := by
  unfold execImageRemove at h
  simp only [Host.Outcome.next.injEq] at h
  have hc := kept_refl s
  rw [← h]
  clear h
  repeat' first | (with_reducible first | assumption | apply State.guard_kept | apply State.libraryStart_kept) | intro _ | dsimp only
theorem execImageLibraryOpDone_kept (signed : Bool) (s : State) {u : State} (h : execImageLibraryOpDone signed s = .next u) : Kept s u := by
  unfold execImageLibraryOpDone at h
  simp only [Host.Outcome.next.injEq] at h
  have hc := kept_refl s
  rw [← h]
  clear h
  repeat' first | (with_reducible first | assumption | apply kept_ite | apply State.guard_kept | apply State.installDone_kept | apply State.removeDone_kept) | simp only [kept_same] | intro _ | dsimp only | split
theorem execEngineLoadDone_kept (e : Fin 32) (signed digestOk : Bool) (s : State) {u : State} (h : execEngineLoadDone e signed digestOk s = .next u) : Kept s u := by
  unfold execEngineLoadDone at h
  simp only [Host.Outcome.next.injEq] at h
  have hc := kept_refl s
  rw [← h]
  clear h
  repeat' first | (with_reducible first | assumption | apply kept_ite | apply State.guard_kept | apply State.loadDone_kept) | intro _ | dsimp only
theorem execHbPeriodExpiry_kept (e : Fin 32) (s : State) {u : State} (h : execHbPeriodExpiry e s = .next u) : Kept s u := by
  unfold execHbPeriodExpiry at h
  simp only [Host.Outcome.next.injEq] at h
  have hc := kept_refl s
  rw [← h]
  clear h
  repeat' first | (with_reducible first | assumption | apply kept_ite | apply State.cnt_kept | apply State.engEvent_kept | apply State.facetReset_kept | apply State.guard_kept | apply State.haltPending_kept) | intro _ | dsimp only
theorem execFacetDbeRestart_kept (f : Fin 8) (s : State) {u : State} (h : execFacetDbeRestart f s = .next u) : Kept s u := by
  unfold execFacetDbeRestart at h
  simp only [Host.Outcome.next.injEq] at h
  have hc := kept_refl s
  rw [← h]
  clear h
  repeat' first | (with_reducible first | assumption | apply kept_ite | apply State.dbeRestart_kept | apply State.guard_kept) | intro _ | dsimp only
theorem execInstanceStart_kept (p : Path) (n : Fin 6) (s : State) {u : State} (h : execInstanceStart p n s = .next u) : Kept s u := by
  unfold execInstanceStart at h
  simp only [Host.Outcome.next.injEq] at h
  have hc := kept_refl s
  rw [← h]
  clear h
  repeat' first | (with_reducible first | assumption | apply State.guard_kept | apply State.instStart_kept) | intro _ | dsimp only
theorem execInstanceStop_kept (p : Path) (n : Fin 6) (s : State) {u : State} (h : execInstanceStop p n s = .next u) : Kept s u := by
  unfold execInstanceStop at h
  simp only [Host.Outcome.next.injEq] at h
  have hc := kept_refl s
  rw [← h]
  clear h
  repeat' first | (with_reducible first | assumption | apply State.guard_kept | apply State.instStop_kept) | intro _ | dsimp only
theorem execInstanceStartDone_kept (n : Fin 6) (binds : List (Fin 32 × Half × Half)) (s : State) {u : State} (h : execInstanceStartDone n binds s = .next u) : Kept s u := by
  unfold execInstanceStartDone at h
  simp only [Host.Outcome.next.injEq] at h
  have hc := kept_refl s
  rw [← h]
  clear h
  repeat' first | (with_reducible first | assumption | apply State.guard_kept | apply State.instDone_kept) | intro _ | dsimp only
theorem execBringupStepDone_kept (b : StepInput) (s : State) {u : State} (h : execBringupStepDone b s = .next u) : Kept s u := by
  unfold execBringupStepDone at h
  simp only [Host.Outcome.next.injEq] at h
  have hc := kept_refl s
  rw [← h]
  clear h
  repeat' first | (with_reducible first | assumption | apply State.guard_kept | apply State.stepDone_kept) | intro _ | dsimp only
theorem execHostLoadGo_kept (p : Path) (v : Word) (s : State) {u : State} (h : execHostLoadGo p v s = .next u) : Kept s u := by
  unfold execHostLoadGo at h
  simp only [Host.Outcome.next.injEq] at h
  have hc := kept_refl s
  rw [← h]
  clear h
  repeat' first | (with_reducible first | assumption | apply State.guard_kept | apply State.wr_kept) | intro _ | dsimp only
theorem execHostLoadVerified_kept (ok : Bool) (s : State) {u : State} (h : execHostLoadVerified ok s = .next u) : Kept s u := by
  unfold execHostLoadVerified at h
  simp only [Host.Outcome.next.injEq] at h
  have hc := kept_refl s
  rw [← h]
  clear h
  repeat' first | (with_reducible first | assumption | apply kept_ite | apply State.event_kept | apply State.guard_kept | apply State.wr_kept) | intro _ | dsimp only
theorem execPostedStoreComplete_kept (c : Fin 33) (s : State) {u : State} (h : execPostedStoreComplete c s = .next u) : Kept s u := by
  unfold execPostedStoreComplete at h
  simp only [Host.Outcome.next.injEq] at h
  have hc := kept_refl s
  rw [← h]
  clear h
  repeat' first | (with_reducible first | assumption | apply State.drainPosted_kept | apply State.guard_kept) | intro _ | dsimp only
theorem execIllegalEncoding_kept (c : Fin 33) (s : State) {u : State} (h : execIllegalEncoding c s = .next u) : Kept s u := by
  unfold execIllegalEncoding at h
  simp only [Host.Outcome.next.injEq] at h
  have hc := kept_refl s
  rw [← h]
  clear h
  repeat' first | (with_reducible first | assumption | apply State.guard_kept | apply State.illegal_kept) | intro _ | dsimp only
theorem execAdd_kept (c : Fin 33) (s : State) {u : State} (h : execAdd c s = .next u) : Kept s u := by
  unfold execAdd at h
  simp only [Host.Outcome.next.injEq] at h
  have hc := kept_refl s
  rw [← h]
  clear h
  repeat' first | (with_reducible first | assumption | apply State.guard_kept | apply State.regOp_kept) | intro _ | dsimp only
theorem execAddi_kept (c : Fin 33) (s : State) {u : State} (h : execAddi c s = .next u) : Kept s u := by
  unfold execAddi at h
  simp only [Host.Outcome.next.injEq] at h
  have hc := kept_refl s
  rw [← h]
  clear h
  repeat' first | (with_reducible first | assumption | apply State.guard_kept | apply State.regOp_kept) | intro _ | dsimp only
theorem execSub_kept (c : Fin 33) (s : State) {u : State} (h : execSub c s = .next u) : Kept s u := by
  unfold execSub at h
  simp only [Host.Outcome.next.injEq] at h
  have hc := kept_refl s
  rw [← h]
  clear h
  repeat' first | (with_reducible first | assumption | apply State.guard_kept | apply State.regOp_kept) | intro _ | dsimp only
theorem execAdc_kept (c : Fin 33) (s : State) {u : State} (h : execAdc c s = .next u) : Kept s u := by
  unfold execAdc at h
  simp only [Host.Outcome.next.injEq] at h
  have hc := kept_refl s
  rw [← h]
  clear h
  repeat' first | (with_reducible first | assumption | apply State.guard_kept | apply State.regOp_kept) | intro _ | dsimp only
theorem execSbc_kept (c : Fin 33) (s : State) {u : State} (h : execSbc c s = .next u) : Kept s u := by
  unfold execSbc at h
  simp only [Host.Outcome.next.injEq] at h
  have hc := kept_refl s
  rw [← h]
  clear h
  repeat' first | (with_reducible first | assumption | apply State.guard_kept | apply State.regOp_kept) | intro _ | dsimp only
theorem execAndReg_kept (c : Fin 33) (s : State) {u : State} (h : execAndReg c s = .next u) : Kept s u := by
  unfold execAndReg at h
  simp only [Host.Outcome.next.injEq] at h
  have hc := kept_refl s
  rw [← h]
  clear h
  repeat' first | (with_reducible first | assumption | apply State.guard_kept | apply State.regOp_kept) | intro _ | dsimp only
theorem execAndi_kept (c : Fin 33) (s : State) {u : State} (h : execAndi c s = .next u) : Kept s u := by
  unfold execAndi at h
  simp only [Host.Outcome.next.injEq] at h
  have hc := kept_refl s
  rw [← h]
  clear h
  repeat' first | (with_reducible first | assumption | apply State.guard_kept | apply State.regOp_kept) | intro _ | dsimp only
theorem execOrReg_kept (c : Fin 33) (s : State) {u : State} (h : execOrReg c s = .next u) : Kept s u := by
  unfold execOrReg at h
  simp only [Host.Outcome.next.injEq] at h
  have hc := kept_refl s
  rw [← h]
  clear h
  repeat' first | (with_reducible first | assumption | apply State.guard_kept | apply State.regOp_kept) | intro _ | dsimp only
theorem execOri_kept (c : Fin 33) (s : State) {u : State} (h : execOri c s = .next u) : Kept s u := by
  unfold execOri at h
  simp only [Host.Outcome.next.injEq] at h
  have hc := kept_refl s
  rw [← h]
  clear h
  repeat' first | (with_reducible first | assumption | apply State.guard_kept | apply State.regOp_kept) | intro _ | dsimp only
theorem execXor_kept (c : Fin 33) (s : State) {u : State} (h : execXor c s = .next u) : Kept s u := by
  unfold execXor at h
  simp only [Host.Outcome.next.injEq] at h
  have hc := kept_refl s
  rw [← h]
  clear h
  repeat' first | (with_reducible first | assumption | apply State.guard_kept | apply State.regOp_kept) | intro _ | dsimp only
theorem execXori_kept (c : Fin 33) (s : State) {u : State} (h : execXori c s = .next u) : Kept s u := by
  unfold execXori at h
  simp only [Host.Outcome.next.injEq] at h
  have hc := kept_refl s
  rw [← h]
  clear h
  repeat' first | (with_reducible first | assumption | apply State.guard_kept | apply State.regOp_kept) | intro _ | dsimp only
theorem execCmp_kept (c : Fin 33) (s : State) {u : State} (h : execCmp c s = .next u) : Kept s u := by
  unfold execCmp at h
  simp only [Host.Outcome.next.injEq] at h
  have hc := kept_refl s
  rw [← h]
  clear h
  repeat' first | (with_reducible first | assumption | apply State.guard_kept | apply State.regOp_kept) | intro _ | dsimp only
theorem execCmpi_kept (c : Fin 33) (s : State) {u : State} (h : execCmpi c s = .next u) : Kept s u := by
  unfold execCmpi at h
  simp only [Host.Outcome.next.injEq] at h
  have hc := kept_refl s
  rw [← h]
  clear h
  repeat' first | (with_reducible first | assumption | apply State.guard_kept | apply State.regOp_kept) | intro _ | dsimp only
theorem execMul_kept (c : Fin 33) (s : State) {u : State} (h : execMul c s = .next u) : Kept s u := by
  unfold execMul at h
  simp only [Host.Outcome.next.injEq] at h
  have hc := kept_refl s
  rw [← h]
  clear h
  repeat' first | (with_reducible first | assumption | apply State.guard_kept | apply State.regOp_kept) | intro _ | dsimp only
theorem execLui_kept (c : Fin 33) (s : State) {u : State} (h : execLui c s = .next u) : Kept s u := by
  unfold execLui at h
  simp only [Host.Outcome.next.injEq] at h
  have hc := kept_refl s
  rw [← h]
  clear h
  repeat' first | (with_reducible first | assumption | apply State.guard_kept | apply State.regOp_kept) | intro _ | dsimp only
theorem execMovi_kept (c : Fin 33) (s : State) {u : State} (h : execMovi c s = .next u) : Kept s u := by
  unfold execMovi at h
  simp only [Host.Outcome.next.injEq] at h
  have hc := kept_refl s
  rw [← h]
  clear h
  repeat' first | (with_reducible first | assumption | apply State.guard_kept | apply State.regOp_kept) | intro _ | dsimp only
theorem execShl_kept (c : Fin 33) (s : State) {u : State} (h : execShl c s = .next u) : Kept s u := by
  unfold execShl at h
  simp only [Host.Outcome.next.injEq] at h
  have hc := kept_refl s
  rw [← h]
  clear h
  repeat' first | (with_reducible first | assumption | apply State.guard_kept | apply State.regOp_kept) | intro _ | dsimp only
theorem execShr_kept (c : Fin 33) (s : State) {u : State} (h : execShr c s = .next u) : Kept s u := by
  unfold execShr at h
  simp only [Host.Outcome.next.injEq] at h
  have hc := kept_refl s
  rw [← h]
  clear h
  repeat' first | (with_reducible first | assumption | apply State.guard_kept | apply State.regOp_kept) | intro _ | dsimp only
theorem execSar_kept (c : Fin 33) (s : State) {u : State} (h : execSar c s = .next u) : Kept s u := by
  unfold execSar at h
  simp only [Host.Outcome.next.injEq] at h
  have hc := kept_refl s
  rw [← h]
  clear h
  repeat' first | (with_reducible first | assumption | apply State.guard_kept | apply State.regOp_kept) | intro _ | dsimp only
theorem execRor_kept (c : Fin 33) (s : State) {u : State} (h : execRor c s = .next u) : Kept s u := by
  unfold execRor at h
  simp only [Host.Outcome.next.injEq] at h
  have hc := kept_refl s
  rw [← h]
  clear h
  repeat' first | (with_reducible first | assumption | apply State.guard_kept | apply State.regOp_kept) | intro _ | dsimp only
theorem execExt_kept (c : Fin 33) (s : State) {u : State} (h : execExt c s = .next u) : Kept s u := by
  unfold execExt at h
  simp only [Host.Outcome.next.injEq] at h
  have hc := kept_refl s
  rw [← h]
  clear h
  repeat' first | (with_reducible first | assumption | apply State.guard_kept | apply State.regOp_kept) | intro _ | dsimp only
theorem execIns_kept (c : Fin 33) (s : State) {u : State} (h : execIns c s = .next u) : Kept s u := by
  unfold execIns at h
  simp only [Host.Outcome.next.injEq] at h
  have hc := kept_refl s
  rw [← h]
  clear h
  repeat' first | (with_reducible first | assumption | apply State.guard_kept | apply State.regOp_kept) | intro _ | dsimp only
theorem execNswap_kept (c : Fin 33) (s : State) {u : State} (h : execNswap c s = .next u) : Kept s u := by
  unfold execNswap at h
  simp only [Host.Outcome.next.injEq] at h
  have hc := kept_refl s
  rw [← h]
  clear h
  repeat' first | (with_reducible first | assumption | apply State.guard_kept | apply State.regOp_kept) | intro _ | dsimp only
theorem execBswap16_kept (c : Fin 33) (s : State) {u : State} (h : execBswap16 c s = .next u) : Kept s u := by
  unfold execBswap16 at h
  simp only [Host.Outcome.next.injEq] at h
  have hc := kept_refl s
  rw [← h]
  clear h
  repeat' first | (with_reducible first | assumption | apply State.guard_kept | apply State.regOp_kept) | intro _ | dsimp only
theorem execBswap32_kept (c : Fin 33) (s : State) {u : State} (h : execBswap32 c s = .next u) : Kept s u := by
  unfold execBswap32 at h
  simp only [Host.Outcome.next.injEq] at h
  have hc := kept_refl s
  rw [← h]
  clear h
  repeat' first | (with_reducible first | assumption | apply State.guard_kept | apply State.regOp_kept) | intro _ | dsimp only
theorem execClz_kept (c : Fin 33) (s : State) {u : State} (h : execClz c s = .next u) : Kept s u := by
  unfold execClz at h
  simp only [Host.Outcome.next.injEq] at h
  have hc := kept_refl s
  rw [← h]
  clear h
  repeat' first | (with_reducible first | assumption | apply State.guard_kept | apply State.regOp_kept) | intro _ | dsimp only
theorem execPopc_kept (c : Fin 33) (s : State) {u : State} (h : execPopc c s = .next u) : Kept s u := by
  unfold execPopc at h
  simp only [Host.Outcome.next.injEq] at h
  have hc := kept_refl s
  rw [← h]
  clear h
  repeat' first | (with_reducible first | assumption | apply State.guard_kept | apply State.regOp_kept) | intro _ | dsimp only
theorem execNotReg_kept (c : Fin 33) (s : State) {u : State} (h : execNotReg c s = .next u) : Kept s u := by
  unfold execNotReg at h
  simp only [Host.Outcome.next.injEq] at h
  have hc := kept_refl s
  rw [← h]
  clear h
  repeat' first | (with_reducible first | assumption | apply State.guard_kept | apply State.regOp_kept) | intro _ | dsimp only
theorem execNeg_kept (c : Fin 33) (s : State) {u : State} (h : execNeg c s = .next u) : Kept s u := by
  unfold execNeg at h
  simp only [Host.Outcome.next.injEq] at h
  have hc := kept_refl s
  rw [← h]
  clear h
  repeat' first | (with_reducible first | assumption | apply State.guard_kept | apply State.regOp_kept) | intro _ | dsimp only
theorem execSext8_kept (c : Fin 33) (s : State) {u : State} (h : execSext8 c s = .next u) : Kept s u := by
  unfold execSext8 at h
  simp only [Host.Outcome.next.injEq] at h
  have hc := kept_refl s
  rw [← h]
  clear h
  repeat' first | (with_reducible first | assumption | apply State.guard_kept | apply State.regOp_kept) | intro _ | dsimp only
theorem execSext16_kept (c : Fin 33) (s : State) {u : State} (h : execSext16 c s = .next u) : Kept s u := by
  unfold execSext16 at h
  simp only [Host.Outcome.next.injEq] at h
  have hc := kept_refl s
  rw [← h]
  clear h
  repeat' first | (with_reducible first | assumption | apply State.guard_kept | apply State.regOp_kept) | intro _ | dsimp only
theorem execLdl_kept (c : Fin 33) (s : State) {u : State} (h : execLdl c s = .next u) : Kept s u := by
  unfold execLdl at h
  simp only [Host.Outcome.next.injEq] at h
  have hc := kept_refl s
  rw [← h]
  clear h
  repeat' first | (with_reducible first | assumption | apply State.doLdl_kept | apply State.guard_kept | apply State.runOp_kept) | intro _ | dsimp only
theorem execStl_kept (c : Fin 33) (s : State) {u : State} (h : execStl c s = .next u) : Kept s u := by
  unfold execStl at h
  simp only [Host.Outcome.next.injEq] at h
  have hc := kept_refl s
  rw [← h]
  clear h
  repeat' first | (with_reducible first | assumption | apply State.doStl_kept | apply State.guard_kept | apply State.runOp_kept) | intro _ | dsimp only
theorem execLdf_kept (c : Fin 33) (s : State) {u : State} (h : execLdf c s = .next u) : Kept s u := by
  unfold execLdf at h
  simp only [Host.Outcome.next.injEq] at h
  have hc := kept_refl s
  rw [← h]
  clear h
  repeat' first | (with_reducible first | assumption | apply State.doLdf_kept | apply State.guard_kept | apply State.runOp_kept) | intro _ | dsimp only
theorem execStf_kept (c : Fin 33) (s : State) {u : State} (h : execStf c s = .next u) : Kept s u := by
  unfold execStf at h
  simp only [Host.Outcome.next.injEq] at h
  have hc := kept_refl s
  rw [← h]
  clear h
  repeat' first | (with_reducible first | assumption | apply State.doStf_kept | apply State.guard_kept | apply State.runOp_kept) | intro _ | dsimp only
theorem execLdx_kept (c : Fin 33) (s : State) {u : State} (h : execLdx c s = .next u) : Kept s u := by
  unfold execLdx at h
  simp only [Host.Outcome.next.injEq] at h
  have hc := kept_refl s
  rw [← h]
  clear h
  repeat' first | (with_reducible first | assumption | apply State.doLdx_kept | apply State.guard_kept | apply State.runOp_kept) | intro _ | dsimp only
theorem execStx_kept (c : Fin 33) (s : State) {u : State} (h : execStx c s = .next u) : Kept s u := by
  unfold execStx at h
  simp only [Host.Outcome.next.injEq] at h
  have hc := kept_refl s
  rw [← h]
  clear h
  repeat' first | (with_reducible first | assumption | apply State.doStx_kept | apply State.guard_kept | apply State.runOp_kept) | intro _ | dsimp only
theorem execFaddF_kept (c : Fin 33) (s : State) {u : State} (h : execFaddF c s = .next u) : Kept s u := by
  unfold execFaddF at h
  simp only [Host.Outcome.next.injEq] at h
  have hc := kept_refl s
  rw [← h]
  clear h
  repeat' first | (with_reducible first | assumption | apply State.doAtomF_kept | apply State.guard_kept | apply State.runOp_kept) | intro _ | dsimp only
theorem execSwapF_kept (c : Fin 33) (s : State) {u : State} (h : execSwapF c s = .next u) : Kept s u := by
  unfold execSwapF at h
  simp only [Host.Outcome.next.injEq] at h
  have hc := kept_refl s
  rw [← h]
  clear h
  repeat' first | (with_reducible first | assumption | apply State.doAtomF_kept | apply State.guard_kept | apply State.runOp_kept) | intro _ | dsimp only
theorem execFaddX_kept (c : Fin 33) (s : State) {u : State} (h : execFaddX c s = .next u) : Kept s u := by
  unfold execFaddX at h
  simp only [Host.Outcome.next.injEq] at h
  have hc := kept_refl s
  rw [← h]
  clear h
  repeat' first | (with_reducible first | assumption | apply State.doAtomX_kept | apply State.guard_kept | apply State.runOp_kept) | intro _ | dsimp only
theorem execSwapX_kept (c : Fin 33) (s : State) {u : State} (h : execSwapX c s = .next u) : Kept s u := by
  unfold execSwapX at h
  simp only [Host.Outcome.next.injEq] at h
  have hc := kept_refl s
  rw [← h]
  clear h
  repeat' first | (with_reducible first | assumption | apply State.doAtomX_kept | apply State.guard_kept | apply State.runOp_kept) | intro _ | dsimp only
theorem execFence_kept (c : Fin 33) (s : State) {u : State} (h : execFence c s = .next u) : Kept s u := by
  unfold execFence at h
  simp only [Host.Outcome.next.injEq] at h
  have hc := kept_refl s
  rw [← h]
  clear h
  repeat' first | (with_reducible first | assumption | apply State.doFence_kept | apply State.guard_kept | apply State.runOp_kept) | intro _ | dsimp only
theorem execBCond_kept (c : Fin 33) (s : State) {u : State} (h : execBCond c s = .next u) : Kept s u := by
  unfold execBCond at h
  simp only [Host.Outcome.next.injEq] at h
  have hc := kept_refl s
  rw [← h]
  clear h
  repeat' first | (with_reducible first | assumption | apply kept_ite | apply State.finish_kept | apply State.guard_kept | apply State.jump_kept | apply State.runOp_kept) | intro _ | dsimp only
theorem execCall_kept (c : Fin 33) (s : State) {u : State} (h : execCall c s = .next u) : Kept s u := by
  unfold execCall at h
  simp only [Host.Outcome.next.injEq] at h
  have hc := kept_refl s
  rw [← h]
  clear h
  repeat' first | (with_reducible first | assumption | apply kept_ite | apply State.guard_kept | apply State.jump_kept | apply State.linked_kept | apply State.runOp_kept) | intro _ | dsimp only
theorem execJr_kept (c : Fin 33) (s : State) {u : State} (h : execJr c s = .next u) : Kept s u := by
  unfold execJr at h
  simp only [Host.Outcome.next.injEq] at h
  have hc := kept_refl s
  rw [← h]
  clear h
  repeat' first | (with_reducible first | assumption | apply State.guard_kept | apply State.jump_kept | apply State.runOp_kept) | intro _ | dsimp only
theorem execCallr_kept (c : Fin 33) (s : State) {u : State} (h : execCallr c s = .next u) : Kept s u := by
  unfold execCallr at h
  simp only [Host.Outcome.next.injEq] at h
  have hc := kept_refl s
  rw [← h]
  clear h
  repeat' first | (with_reducible first | assumption | apply kept_ite | apply State.guard_kept | apply State.jump_kept | apply State.linked_kept | apply State.runOp_kept) | intro _ | dsimp only
theorem execCbz_kept (c : Fin 33) (s : State) {u : State} (h : execCbz c s = .next u) : Kept s u := by
  unfold execCbz at h
  simp only [Host.Outcome.next.injEq] at h
  have hc := kept_refl s
  rw [← h]
  clear h
  repeat' first | (with_reducible first | assumption | apply kept_ite | apply State.finish_kept | apply State.guard_kept | apply State.jump_kept | apply State.runOp_kept) | intro _ | dsimp only
theorem execCbnz_kept (c : Fin 33) (s : State) {u : State} (h : execCbnz c s = .next u) : Kept s u := by
  unfold execCbnz at h
  simp only [Host.Outcome.next.injEq] at h
  have hc := kept_refl s
  rw [← h]
  clear h
  repeat' first | (with_reducible first | assumption | apply kept_ite | apply State.finish_kept | apply State.guard_kept | apply State.jump_kept | apply State.runOp_kept) | intro _ | dsimp only
theorem execHalt_kept (c : Fin 33) (s : State) {u : State} (h : execHalt c s = .next u) : Kept s u := by
  unfold execHalt at h
  simp only [Host.Outcome.next.injEq] at h
  have hc := kept_refl s
  rw [← h]
  clear h
  repeat' first | (with_reducible first | assumption | apply State.doHaltInsn_kept | apply State.guard_kept | apply State.runOp_kept) | intro _ | dsimp only
theorem execNop_kept (c : Fin 33) (s : State) {u : State} (h : execNop c s = .next u) : Kept s u := by
  unfold execNop at h
  simp only [Host.Outcome.next.injEq] at h
  have hc := kept_refl s
  rw [← h]
  clear h
  repeat' first | (with_reducible first | assumption | apply State.finish_kept | apply State.guard_kept | apply State.runOp_kept) | intro _ | dsimp only
theorem execHbeat_kept (c : Fin 33) (s : State) {u : State} (h : execHbeat c s = .next u) : Kept s u := by
  unfold execHbeat at h
  simp only [Host.Outcome.next.injEq] at h
  have hc := kept_refl s
  rw [← h]
  clear h
  repeat' first | (with_reducible first | assumption | apply State.cnt_kept | apply State.finish_kept | apply State.guard_kept | apply State.runOp_kept) | intro _ | dsimp only
theorem execTake_kept (c : Fin 33) (s : State) {u : State} (h : execTake c s = .next u) : Kept s u := by
  unfold execTake at h
  simp only [Host.Outcome.next.injEq] at h
  have hc := kept_refl s
  rw [← h]
  clear h
  repeat' first | (with_reducible first | assumption | apply State.doTake_kept | apply State.guard_kept | apply State.runOp_kept) | intro _ | dsimp only
theorem execPeek_kept (c : Fin 33) (s : State) {u : State} (h : execPeek c s = .next u) : Kept s u := by
  unfold execPeek at h
  simp only [Host.Outcome.next.injEq] at h
  have hc := kept_refl s
  rw [← h]
  clear h
  repeat' first | (with_reducible first | assumption | apply State.doPeek_kept | apply State.guard_kept | apply State.runOp_kept) | intro _ | dsimp only
theorem execMatchLane_kept (c : Fin 33) (s : State) {u : State} (h : execMatchLane c s = .next u) : Kept s u := by
  unfold execMatchLane at h
  simp only [Host.Outcome.next.injEq] at h
  have hc := kept_refl s
  rw [← h]
  clear h
  repeat' first | (with_reducible first | assumption | apply State.doMatch_kept | apply State.guard_kept | apply State.runOp_kept) | intro _ | dsimp only
theorem execSkip_kept (c : Fin 33) (s : State) {u : State} (h : execSkip c s = .next u) : Kept s u := by
  unfold execSkip at h
  simp only [Host.Outcome.next.injEq] at h
  have hc := kept_refl s
  rw [← h]
  clear h
  repeat' first | (with_reducible first | assumption | apply State.guard_kept | apply State.regOp_kept) | intro _ | dsimp only
theorem execSkipf_kept (c : Fin 33) (s : State) {u : State} (h : execSkipf c s = .next u) : Kept s u := by
  unfold execSkipf at h
  simp only [Host.Outcome.next.injEq] at h
  have hc := kept_refl s
  rw [← h]
  clear h
  repeat' first | (with_reducible first | assumption | apply State.guard_kept | apply State.regOp_kept) | simp only [kept_same] | intro _ | dsimp only
theorem execMark_kept (c : Fin 33) (s : State) {u : State} (h : execMark c s = .next u) : Kept s u := by
  unfold execMark at h
  simp only [Host.Outcome.next.injEq] at h
  have hc := kept_refl s
  rw [← h]
  clear h
  repeat' first | (with_reducible first | assumption | apply State.doMark_kept | apply State.guard_kept | apply State.runOp_kept) | intro _ | dsimp only
theorem execGive_kept (c : Fin 33) (s : State) {u : State} (h : execGive c s = .next u) : Kept s u := by
  unfold execGive at h
  simp only [Host.Outcome.next.injEq] at h
  have hc := kept_refl s
  rw [← h]
  clear h
  repeat' first | (with_reducible first | assumption | apply State.doGive_kept | apply State.guard_kept | apply State.runOp_kept) | intro _ | dsimp only
theorem execGend_kept (c : Fin 33) (s : State) {u : State} (h : execGend c s = .next u) : Kept s u := by
  unfold execGend at h
  simp only [Host.Outcome.next.injEq] at h
  have hc := kept_refl s
  rw [← h]
  clear h
  repeat' first | (with_reducible first | assumption | apply State.doGend_kept | apply State.guard_kept | apply State.runOp_kept) | intro _ | dsimp only
theorem execLstat_kept (c : Fin 33) (s : State) {u : State} (h : execLstat c s = .next u) : Kept s u := by
  unfold execLstat at h
  simp only [Host.Outcome.next.injEq] at h
  have hc := kept_refl s
  rw [← h]
  clear h
  repeat' first | (with_reducible first | assumption | apply State.guard_kept | apply State.regOp_kept) | intro _ | dsimp only
theorem execCrcInit_kept (c : Fin 33) (s : State) {u : State} (h : execCrcInit c s = .next u) : Kept s u := by
  unfold execCrcInit at h
  simp only [Host.Outcome.next.injEq] at h
  have hc := kept_refl s
  rw [← h]
  clear h
  repeat' first | (with_reducible first | assumption | apply State.guard_kept | apply State.regOp_kept) | simp only [kept_same] | intro _ | dsimp only
theorem execCrcFold_kept (c : Fin 33) (s : State) {u : State} (h : execCrcFold c s = .next u) : Kept s u := by
  unfold execCrcFold at h
  simp only [Host.Outcome.next.injEq] at h
  have hc := kept_refl s
  rw [← h]
  clear h
  repeat' first | (with_reducible first | assumption | apply kept_ite | apply State.exception_kept | apply State.finishWith_kept | apply State.guard_kept | apply State.runOp_kept) | simp only [kept_same] | intro _ | dsimp only
theorem execCrcRead_kept (c : Fin 33) (s : State) {u : State} (h : execCrcRead c s = .next u) : Kept s u := by
  unfold execCrcRead at h
  simp only [Host.Outcome.next.injEq] at h
  have hc := kept_refl s
  rw [← h]
  clear h
  repeat' first | (with_reducible first | assumption | apply State.guard_kept | apply State.regOp_kept) | intro _ | dsimp only
theorem execCrcWrite_kept (c : Fin 33) (s : State) {u : State} (h : execCrcWrite c s = .next u) : Kept s u := by
  unfold execCrcWrite at h
  simp only [Host.Outcome.next.injEq] at h
  have hc := kept_refl s
  rw [← h]
  clear h
  repeat' first | (with_reducible first | assumption | apply State.guard_kept | apply State.regOp_kept) | simp only [kept_same] | intro _ | dsimp only
theorem execCrcTap_kept (c : Fin 33) (s : State) {u : State} (h : execCrcTap c s = .next u) : Kept s u := by
  unfold execCrcTap at h
  simp only [Host.Outcome.next.injEq] at h
  have hc := kept_refl s
  rw [← h]
  clear h
  repeat' first | (with_reducible first | assumption | apply State.guard_kept | apply State.regOp_kept) | simp only [kept_same] | intro _ | dsimp only
theorem execTimeRead_kept (c : Fin 33) (dt : Nat) (s : State) {u : State} (h : execTimeRead c dt s = .next u) : Kept s u := by
  unfold execTimeRead at h
  simp only [Host.Outcome.next.injEq] at h
  have hc := kept_refl s
  rw [← h]
  clear h
  repeat' first | (with_reducible first | assumption | apply State.advance_kept | apply State.finishWith_kept | apply State.guard_kept | apply State.runOp_kept) | simp only [kept_same] | intro _ | dsimp only
theorem execTimeh_kept (c : Fin 33) (s : State) {u : State} (h : execTimeh c s = .next u) : Kept s u := by
  unfold execTimeh at h
  simp only [Host.Outcome.next.injEq] at h
  have hc := kept_refl s
  rw [← h]
  clear h
  repeat' first | (with_reducible first | assumption | apply State.guard_kept | apply State.regOp_kept) | intro _ | dsimp only
theorem execTwait_kept (c : Fin 33) (dt : Nat) (s : State) {u : State} (h : execTwait c dt s = .next u) : Kept s u := by
  unfold execTwait at h
  simp only [Host.Outcome.next.injEq] at h
  have hc := kept_refl s
  rw [← h]
  clear h
  repeat' first | (with_reducible first | assumption | apply State.advance_kept | apply State.doTwait_kept | apply State.guard_kept | apply State.runOp_kept) | intro _ | dsimp only
theorem execEwait_kept (c : Fin 33) (s : State) {u : State} (h : execEwait c s = .next u) : Kept s u := by
  unfold execEwait at h
  simp only [Host.Outcome.next.injEq] at h
  have hc := kept_refl s
  rw [← h]
  clear h
  repeat' first | (with_reducible first | assumption | apply State.doEwait_kept | apply State.guard_kept | apply State.runOp_kept) | intro _ | dsimp only
theorem execEwaitTimeout_kept (c : Fin 33) (dt : Nat) (s : State) {u : State} (h : execEwaitTimeout c dt s = .next u) : Kept s u := by
  unfold execEwaitTimeout at h
  simp only [Host.Outcome.next.injEq] at h
  have hc := kept_refl s
  rw [← h]
  clear h
  repeat' first | (with_reducible first | assumption | apply State.advance_kept | apply State.doEwaitT_kept | apply State.guard_kept | apply State.runOp_kept) | intro _ | dsimp only
theorem execEpoll_kept (c : Fin 33) (s : State) {u : State} (h : execEpoll c s = .next u) : Kept s u := by
  unfold execEpoll at h
  simp only [Host.Outcome.next.injEq] at h
  have hc := kept_refl s
  rw [← h]
  clear h
  repeat' first | (with_reducible first | assumption | apply State.giveEvents_kept | apply State.guard_kept | apply State.runOp_kept) | intro _ | dsimp only
theorem execLock_kept (c : Fin 33) (s : State) {u : State} (h : execLock c s = .next u) : Kept s u := by
  unfold execLock at h
  simp only [Host.Outcome.next.injEq] at h
  have hc := kept_refl s
  rw [← h]
  clear h
  repeat' first | (with_reducible first | assumption | apply State.afterStores_kept | apply State.doLock_kept | apply State.guard_kept | apply State.runOp_kept) | intro _ | dsimp only
theorem execUnlock_kept (c : Fin 33) (s : State) {u : State} (h : execUnlock c s = .next u) : Kept s u := by
  unfold execUnlock at h
  simp only [Host.Outcome.next.injEq] at h
  have hc := kept_refl s
  rw [← h]
  clear h
  repeat' first | (with_reducible first | assumption | apply State.afterStores_kept | apply State.doUnlock_kept | apply State.guard_kept | apply State.runOp_kept) | intro _ | dsimp only
theorem execPost_kept (c : Fin 33) (s : State) {u : State} (h : execPost c s = .next u) : Kept s u := by
  unfold execPost at h
  simp only [Host.Outcome.next.injEq] at h
  have hc := kept_refl s
  rw [← h]
  clear h
  repeat' first | (with_reducible first | assumption | apply State.afterStores_kept | apply State.finish_kept | apply State.guard_kept | apply State.post_kept | apply State.doPostInsn_kept | apply State.runOp_kept) | intro _ | dsimp only
theorem execDbrd_kept (c : Fin 33) (s : State) {u : State} (h : execDbrd c s = .next u) : Kept s u := by
  unfold execDbrd at h
  simp only [Host.Outcome.next.injEq] at h
  have hc := kept_refl s
  rw [← h]
  clear h
  repeat' first | (with_reducible first | assumption | apply kept_ite | apply State.afterStores_kept | apply State.dbRead_kept | apply State.finishWith_kept | apply State.guard_kept | apply State.doDbrd_kept | apply State.runOp_kept | apply State.violate_kept | apply kept_ite2 | apply kept_ite3 | apply kept_ite4) | simp only [kept_same] | intro _ | dsimp only
theorem execDbclr_kept (c : Fin 33) (s : State) {u : State} (h : execDbclr c s = .next u) : Kept s u := by
  unfold execDbclr at h
  simp only [Host.Outcome.next.injEq] at h
  have hc := kept_refl s
  rw [← h]
  clear h
  repeat' first | (with_reducible first | assumption | apply State.afterStores_kept | apply State.dbClear_kept | apply State.finish_kept | apply State.guard_kept | apply State.doDbclr_kept | apply State.runOp_kept) | intro _ | dsimp only
theorem execWdkick_kept (c : Fin 33) (s : State) {u : State} (h : execWdkick c s = .next u) : Kept s u := by
  unfold execWdkick at h
  simp only [Host.Outcome.next.injEq] at h
  have hc := kept_refl s
  rw [← h]
  clear h
  repeat' first | (with_reducible first | assumption | apply State.finish_kept | apply State.guard_kept | apply State.runOp_kept) | simp only [kept_same] | intro _ | dsimp only
theorem execFuserd_kept (c : Fin 33) (s : State) {u : State} (h : execFuserd c s = .next u) : Kept s u := by
  unfold execFuserd at h
  simp only [Host.Outcome.next.injEq] at h
  have hc := kept_refl s
  rw [← h]
  clear h
  repeat' first | (with_reducible first | assumption | apply kept_ite | apply State.guard_kept | apply State.regOp_kept) | intro _ | dsimp only
theorem execMramw_kept (c : Fin 33) (s : State) {u : State} (h : execMramw c s = .next u) : Kept s u := by
  unfold execMramw at h
  simp only [Host.Outcome.next.injEq] at h
  have hc := kept_refl s
  rw [← h]
  clear h
  repeat' first | (with_reducible first | assumption | apply kept_ite | apply State.afterStores_kept | apply State.await_kept | apply State.exception_kept | apply State.finish_kept | apply State.guard_kept | apply State.doMramw_kept | apply State.runOp_kept | apply State.setBytes_kept) | intro _ | dsimp only
theorem execSha_kept (c : Fin 33) (s : State) {u : State} (h : execSha c s = .next u) : Kept s u := by
  unfold execSha at h
  simp only [Host.Outcome.next.injEq] at h
  have hc := kept_refl s
  rw [← h]
  clear h
  repeat' first | (with_reducible first | assumption | apply kept_ite | apply State.afterStores_kept | apply State.exception_kept | apply State.finish_kept | apply State.guard_kept | apply State.doSha_kept | apply State.runOp_kept | apply State.setBytes_kept) | intro _ | dsimp only
theorem execEngsec_kept (c : Fin 33) (s : State) {u : State} (h : execEngsec c s = .next u) : Kept s u := by
  unfold execEngsec at h
  simp only [Host.Outcome.next.injEq] at h
  have hc := kept_refl s
  rw [← h]
  clear h
  repeat' first | (with_reducible first | assumption | apply kept_ite | apply State.finish_kept | apply State.guard_kept | apply State.runOp_kept | apply State.wr_kept) | intro _ | dsimp only
theorem execEngineWaitEnd_kept (c : Fin 33) (dt : Nat) (s : State) {u : State} (h : execEngineWaitEnd c dt s = .next u) : Kept s u := by
  unfold execEngineWaitEnd at h
  simp only [Host.Outcome.next.injEq] at h
  have hc := kept_refl s
  rw [← h]
  clear h
  repeat' first | (with_reducible first | assumption | apply kept_ite | apply State.advance_kept | apply State.guard_kept | apply State.resumeOp_kept) | simp only [kept_same] | intro _ | dsimp only | split
theorem execOdWrite_kept (p : Path) (idx : Half) (sub : Byte) (v : DWord) (s : State) {u : State} (h : execOdWrite p idx sub v s = .next u) : Kept s u := by
  unfold execOdWrite at h
  simp only [Host.Outcome.next.injEq] at h
  have hc := kept_refl s
  rw [← h]
  clear h
  repeat' first | (with_reducible first | assumption | apply State.guard_kept | apply State.odSet_kept) | intro _ | dsimp only
theorem execWindowWriteLowSlot_kept (p : Path) (idx : Half) (sub : Byte) (v : Word) (s : State) {u : State} (h : execWindowWriteLowSlot p idx sub v s = .next u) : Kept s u := by
  unfold execWindowWriteLowSlot at h
  simp only [Host.Outcome.next.injEq] at h
  have hc := kept_refl s
  rw [← h]
  clear h
  repeat' first | (with_reducible first | assumption | apply kept_ite | apply State.guard_kept | apply State.slotWrite_kept | apply State.writeLow_kept) | intro _ | dsimp only
theorem execWindowWriteHighSlot_kept (p : Path) (idx : Half) (sub : Byte) (v : Word) (s : State) {u : State} (h : execWindowWriteHighSlot p idx sub v s = .next u) : Kept s u := by
  unfold execWindowWriteHighSlot at h
  simp only [Host.Outcome.next.injEq] at h
  have hc := kept_refl s
  rw [← h]
  clear h
  repeat' first | (with_reducible first | assumption | apply kept_ite | apply State.guard_kept | apply State.slotWrite_kept | apply State.writeHigh_kept) | intro _ | dsimp only
theorem execEventStatusClear_kept (p : Path) (idx : Half) (sub : Byte) (v again : Word) (s : State) {u : State} (h : execEventStatusClear p idx sub v again s = .next u) : Kept s u := by
  unfold execEventStatusClear at h
  simp only [Host.Outcome.next.injEq] at h
  have hc := kept_refl s
  rw [← h]
  clear h
  repeat' first | (with_reducible first | assumption | apply kept_ite | apply State.guard_kept | apply State.odSet_kept | apply State.statusClear_kept) | intro _ | dsimp only
theorem execLaneBindingWrite_kept (p : Path) (f : Fin 8) (k : Fin 8) (v : Word) (s : State) {u : State} (h : execLaneBindingWrite p f k v s = .next u) : Kept s u := by
  unfold execLaneBindingWrite at h
  simp only [Host.Outcome.next.injEq] at h
  have hc := kept_refl s
  rw [← h]
  clear h
  repeat' first | (with_reducible first | assumption | apply State.guard_kept | apply State.wr_kept) | intro _ | dsimp only
theorem execPciePerst_kept (s : State) {u : State} (h : execPciePerst s = .next u) : Kept s u := by
  unfold execPciePerst at h
  simp only [Host.Outcome.next.injEq] at h
  have hc := kept_refl s
  rw [← h]
  clear h
  repeat' first | (with_reducible first | assumption | apply kept_ite | apply State.guard_kept | apply State.pcieDown_kept | apply State.pcieReset_kept) | simp only [kept_same] | intro _ | dsimp only
theorem execPciePerstRelease_kept (s : State) {u : State} (h : execPciePerstRelease s = .next u) : Kept s u := by
  unfold execPciePerstRelease at h
  simp only [Host.Outcome.next.injEq] at h
  have hc := kept_refl s
  rw [← h]
  clear h
  repeat' first | (with_reducible first | assumption | apply State.guard_kept) | simp only [kept_same] | intro _ | dsimp only
theorem execPcieFlr_kept (s : State) {u : State} (h : execPcieFlr s = .next u) : Kept s u := by
  unfold execPcieFlr at h
  simp only [Host.Outcome.next.injEq] at h
  have hc := kept_refl s
  rw [← h]
  clear h
  repeat' first | (with_reducible first | assumption | apply kept_ite | apply State.guard_kept | apply State.pcieReset_kept) | intro _ | dsimp only
theorem execPcieLinkUp_kept (width speed : Fin 4) (busMaster msixEnabled : Bool) (s : State) {u : State} (h : execPcieLinkUp width speed busMaster msixEnabled s = .next u) : Kept s u := by
  unfold execPcieLinkUp at h
  simp only [Host.Outcome.next.injEq] at h
  have hc := kept_refl s
  rw [← h]
  clear h
  repeat' first | (with_reducible first | assumption | apply kept_ite | apply State.event_kept | apply State.guard_kept | apply State.wr_kept) | intro _ | dsimp only
theorem execPcieLinkDown_kept (s : State) {u : State} (h : execPcieLinkDown s = .next u) : Kept s u := by
  unfold execPcieLinkDown at h
  simp only [Host.Outcome.next.injEq] at h
  have hc := kept_refl s
  rw [← h]
  clear h
  repeat' first | (with_reducible first | assumption | apply State.guard_kept | apply State.pcieDown_kept) | intro _ | dsimp only
theorem execPcieLinkDownTimeout_kept (s : State) {u : State} (h : execPcieLinkDownTimeout s = .next u) : Kept s u := by
  unfold execPcieLinkDownTimeout at h
  simp only [Host.Outcome.next.injEq] at h
  have hc := kept_refl s
  rw [← h]
  clear h
  repeat' first | (with_reducible first | assumption | apply kept_ite | apply State.guard_kept | apply State.pcieReset_kept) | intro _ | dsimp only
theorem execPcieAtomicOp_kept (op : AtomicOp) (addr : DWord) (wide : Bool) (operand : DWord) (s : State) {u : State} (h : execPcieAtomicOp op addr wide operand s = .next u) : Kept s u := by
  unfold execPcieAtomicOp at h
  simp only [Host.Outcome.next.injEq] at h
  have hc := kept_refl s
  rw [← h]
  clear h
  repeat' first | (with_reducible first | assumption | apply kept_ite | apply State.atomicAnswer_kept | apply State.guard_kept | apply State.hostAtomic_kept | apply State.violate_kept) | intro _ | dsimp only
theorem execMsixUnmask_kept (vec : Fin 64) (s : State) {u : State} (h : execMsixUnmask vec s = .next u) : Kept s u := by
  unfold execMsixUnmask at h
  simp only [Host.Outcome.next.injEq] at h
  have hc := kept_refl s
  rw [← h]
  clear h
  repeat' first | (with_reducible first | assumption | apply kept_ite | apply State.emit_kept | apply State.guard_kept | apply State.msix_kept) | simp only [kept_same] | intro _ | dsimp only
theorem execHostDmaTailWrite_kept (p : Path) (k : Fin 8) (v : Word) (s : State) {u : State} (h : execHostDmaTailWrite p k v s = .next u) : Kept s u := by
  unfold execHostDmaTailWrite at h
  simp only [Host.Outcome.next.injEq] at h
  have hc := kept_refl s
  rw [← h]
  clear h
  repeat' first | (with_reducible first | assumption | apply State.guard_kept | apply State.wr_kept) | intro _ | dsimp only
theorem execHostDmaDescriptor_kept (k : Fin 8) (hostData : List Byte) (hostError : Bool) (s : State) {u : State} (h : execHostDmaDescriptor k hostData hostError s = .next u) : Kept s u := by
  unfold execHostDmaDescriptor at h
  simp only [Host.Outcome.next.injEq] at h
  have hc := kept_refl s
  rw [← h]
  clear h
  repeat' first | (with_reducible first | assumption | apply kept_ite | apply State.dmaTake_kept | apply State.guard_kept) | intro _ | dsimp only
theorem execQspiReadId_kept (s : State) {u : State} (h : execQspiReadId s = .next u) : Kept s u := by
  unfold execQspiReadId at h
  simp only [Host.Outcome.next.injEq] at h
  have hc := kept_refl s
  rw [← h]
  clear h
  repeat' first | (with_reducible first | assumption | apply kept_ite | apply State.emit_kept | apply State.guard_kept | apply State.qspiBegin_kept) | intro _ | dsimp only
theorem execQspiReadStatus_kept (s : State) {u : State} (h : execQspiReadStatus s = .next u) : Kept s u := by
  unfold execQspiReadStatus at h
  simp only [Host.Outcome.next.injEq] at h
  have hc := kept_refl s
  rw [← h]
  clear h
  repeat' first | (with_reducible first | assumption | apply kept_ite | apply State.emit_kept | apply State.guard_kept | apply State.qspiBegin_kept) | simp only [kept_same] | intro _ | dsimp only
theorem execQspiRead_kept (addr : Word) (len : Nat) (late : Bool) (s : State) {u : State} (h : execQspiRead addr len late s = .next u) : Kept s u := by
  unfold execQspiRead at h
  simp only [Host.Outcome.next.injEq] at h
  have hc := kept_refl s
  rw [← h]
  clear h
  repeat' first | (with_reducible first | assumption | apply kept_ite | apply State.cnt_kept | apply State.emit_kept | apply State.guard_kept | apply State.qspiBegin_kept | apply State.qspiData_kept | apply kept_ite2 | apply kept_ite3 | apply kept_ite4) | intro _ | dsimp only
theorem execQspiWrite_kept (addr : Word) (data : List Byte) (s : State) {u : State} (h : execQspiWrite addr data s = .next u) : Kept s u := by
  unfold execQspiWrite at h
  simp only [Host.Outcome.next.injEq] at h
  have hc := kept_refl s
  rw [← h]
  clear h
  repeat' first | (with_reducible first | assumption | apply kept_ite | apply State.drop_kept | apply State.guard_kept | apply State.qspiBegin_kept | apply State.qspiDrop_kept | apply State.qspiStore_kept) | intro _ | dsimp only
theorem execQspiAtomicAdd_kept (addr : Word) (wide : Bool) (operand : DWord) (s : State) {u : State} (h : execQspiAtomicAdd addr wide operand s = .next u) : Kept s u := by
  unfold execQspiAtomicAdd at h
  simp only [Host.Outcome.next.injEq] at h
  have hc := kept_refl s
  rw [← h]
  clear h
  repeat' first | (with_reducible first | assumption | apply State.guard_kept | apply State.qspiAtomic_kept | apply State.qspiBegin_kept) | intro _ | dsimp only
theorem execQspiAtomicSwap_kept (addr : Word) (wide : Bool) (operand : DWord) (s : State) {u : State} (h : execQspiAtomicSwap addr wide operand s = .next u) : Kept s u := by
  unfold execQspiAtomicSwap at h
  simp only [Host.Outcome.next.injEq] at h
  have hc := kept_refl s
  rw [← h]
  clear h
  repeat' first | (with_reducible first | assumption | apply State.guard_kept | apply State.qspiAtomic_kept | apply State.qspiBegin_kept) | intro _ | dsimp only
theorem execQspiAtomicResult_kept (s : State) {u : State} (h : execQspiAtomicResult s = .next u) : Kept s u := by
  unfold execQspiAtomicResult at h
  simp only [Host.Outcome.next.injEq] at h
  have hc := kept_refl s
  rw [← h]
  clear h
  repeat' first | (with_reducible first | assumption | apply kept_ite | apply State.emit_kept | apply State.guard_kept | apply State.qspiBegin_kept) | simp only [kept_same] | intro _ | dsimp only | split
theorem execQspiResetEnable_kept (s : State) {u : State} (h : execQspiResetEnable s = .next u) : Kept s u := by
  unfold execQspiResetEnable at h
  simp only [Host.Outcome.next.injEq] at h
  have hc := kept_refl s
  rw [← h]
  clear h
  repeat' first | (with_reducible first | assumption | apply kept_ite | apply State.guard_kept) | simp only [kept_same] | intro _ | dsimp only
theorem execQspiReset_kept (s : State) {u : State} (h : execQspiReset s = .next u) : Kept s u := by
  unfold execQspiReset at h
  simp only [Host.Outcome.next.injEq] at h
  have hc := kept_refl s
  rw [← h]
  clear h
  repeat' first | (with_reducible first | assumption | apply kept_ite | apply State.guard_kept | apply State.qspiBegin_kept | apply State.qspiReset_kept) | intro _ | dsimp only
theorem execQspiUnknownOpcode_kept (op : Byte) (s : State) {u : State} (h : execQspiUnknownOpcode op s = .next u) : Kept s u := by
  unfold execQspiUnknownOpcode at h
  simp only [Host.Outcome.next.injEq] at h
  have hc := kept_refl s
  rw [← h]
  clear h
  repeat' first | (with_reducible first | assumption | apply kept_ite | apply State.guard_kept | apply State.qspiBegin_kept) | intro _ | dsimp only
theorem execSessionOpen_kept (ch : Fin 4) (s : State) {u : State} (h : execSessionOpen ch s = .next u) : Kept s u := by
  unfold execSessionOpen at h
  simp only [Host.Outcome.next.injEq] at h
  have hc := kept_refl s
  rw [← h]
  clear h
  repeat' first | (with_reducible first | assumption | apply State.guard_kept | apply State.sessionMessage_kept) | intro _ | dsimp only
theorem execSessionProve_kept (ch : Fin 4) (good : Bool) (s : State) {u : State} (h : execSessionProve ch good s = .next u) : Kept s u := by
  unfold execSessionProve at h
  simp only [Host.Outcome.next.injEq] at h
  have hc := kept_refl s
  rw [← h]
  clear h
  repeat' first | (with_reducible first | assumption | apply State.guard_kept | apply State.sessionMessage_kept) | intro _ | dsimp only
theorem execSessionOdAccess_kept (ch : Fin 4) (good : Bool) (s : State) {u : State} (h : execSessionOdAccess ch good s = .next u) : Kept s u := by
  unfold execSessionOdAccess at h
  simp only [Host.Outcome.next.injEq] at h
  have hc := kept_refl s
  rw [← h]
  clear h
  repeat' first | (with_reducible first | assumption | apply State.guard_kept | apply State.sessionMessage_kept) | intro _ | dsimp only
theorem execSessionClose_kept (ch : Fin 4) (good : Bool) (s : State) {u : State} (h : execSessionClose ch good s = .next u) : Kept s u := by
  unfold execSessionClose at h
  simp only [Host.Outcome.next.injEq] at h
  have hc := kept_refl s
  rw [← h]
  clear h
  repeat' first | (with_reducible first | assumption | apply State.guard_kept | apply State.sessionMessage_kept) | intro _ | dsimp only
theorem execSessionIdleTimeout_kept (ch : Fin 4) (s : State) {u : State} (h : execSessionIdleTimeout ch s = .next u) : Kept s u := by
  unfold execSessionIdleTimeout at h
  simp only [Host.Outcome.next.injEq] at h
  have hc := kept_refl s
  rw [← h]
  clear h
  repeat' first | (with_reducible first | assumption | apply kept_ite | apply State.guard_kept | apply State.sessionClose_kept) | intro _ | dsimp only
theorem execVddioPresent_kept (bank : Fin 6) (s : State) {u : State} (h : execVddioPresent bank s = .next u) : Kept s u := by
  unfold execVddioPresent at h
  simp only [Host.Outcome.next.injEq] at h
  have hc := kept_refl s
  rw [← h]
  clear h
  repeat' first | (with_reducible first | assumption | apply State.guard_kept) | simp only [kept_same] | intro _ | dsimp only
theorem execVddioBankLost_kept (bank : Fin 6) (s : State) {u : State} (h : execVddioBankLost bank s = .next u) : Kept s u := by
  unfold execVddioBankLost at h
  simp only [Host.Outcome.next.injEq] at h
  have hc := kept_refl s
  rw [← h]
  clear h
  repeat' first | (with_reducible first | assumption | apply kept_ite | apply State.guard_kept | apply State.qspiReset_kept | apply State.supplyOut_kept) | simp only [kept_same] | intro _ | dsimp only
theorem execVddioClassSense_kept (bank : Fin 6) (mv : Half) (stable : Bool) (s : State) {u : State} (h : execVddioClassSense bank mv stable s = .next u) : Kept s u := by
  unfold execVddioClassSense at h
  simp only [Host.Outcome.next.injEq] at h
  have hc := kept_refl s
  rw [← h]
  clear h
  repeat' first | (with_reducible first | assumption | apply kept_ite | apply State.guard_kept | apply State.supplyBack_kept | apply State.supplyOut_kept) | simp only [kept_same] | intro _ | dsimp only
theorem execAonPowerGood_kept (s : State) {u : State} (h : execAonPowerGood s = .next u) : Kept s u := by
  unfold execAonPowerGood at h
  simp only [Host.Outcome.next.injEq] at h
  have hc := kept_refl s
  rw [← h]
  clear h
  repeat' first | (with_reducible first | assumption | apply kept_ite | apply State.guard_kept | apply State.setBits_kept | apply State.tryStart_kept | apply State.wr_kept) | simp only [kept_same] | intro _ | dsimp only
theorem execPor_kept (s : State) {u : State} (h : execPor s = .next u) : Kept s u := by
  unfold execPor at h
  simp only [Host.Outcome.next.injEq] at h
  have hc := kept_refl s
  rw [← h]
  clear h
  repeat' first | (with_reducible first | assumption | apply State.deviceReset_kept | apply State.guard_kept) | simp only [kept_same] | intro _ | dsimp only
theorem execCoreBrownout_kept (s : State) {u : State} (h : execCoreBrownout s = .next u) : Kept s u := by
  unfold execCoreBrownout at h
  simp only [Host.Outcome.next.injEq] at h
  have hc := kept_refl s
  rw [← h]
  clear h
  repeat' first | (with_reducible first | assumption | apply kept_ite | apply State.deviceReset_kept | apply State.guard_kept) | simp only [kept_same] | intro _ | dsimp only
theorem execCoreBrownoutRelease_kept (s : State) {u : State} (h : execCoreBrownoutRelease s = .next u) : Kept s u := by
  unfold execCoreBrownoutRelease at h
  simp only [Host.Outcome.next.injEq] at h
  have hc := kept_refl s
  rw [← h]
  clear h
  repeat' first | (with_reducible first | assumption | apply kept_ite | apply State.guard_kept | apply State.tryStart_kept) | simp only [kept_same] | intro _ | dsimp only
theorem execResetNFall_kept (s : State) {u : State} (h : execResetNFall s = .next u) : Kept s u := by
  unfold execResetNFall at h
  simp only [Host.Outcome.next.injEq] at h
  have hc := kept_refl s
  rw [← h]
  clear h
  repeat' first | (with_reducible first | assumption | apply kept_ite | apply State.guard_kept) | simp only [kept_same] | intro _ | dsimp only
theorem execResetNPulseIgnored_kept (s : State) {u : State} (h : execResetNPulseIgnored s = .next u) : Kept s u := by
  unfold execResetNPulseIgnored at h
  simp only [Host.Outcome.next.injEq] at h
  have hc := kept_refl s
  rw [← h]
  clear h
  repeat' first | (with_reducible first | assumption | apply kept_ite | apply State.guard_kept) | simp only [kept_same] | intro _ | dsimp only
theorem execResetNAccept_kept (s : State) {u : State} (h : execResetNAccept s = .next u) : Kept s u := by
  unfold execResetNAccept at h
  simp only [Host.Outcome.next.injEq] at h
  have hc := kept_refl s
  rw [← h]
  clear h
  repeat' first | (with_reducible first | assumption | apply kept_ite | apply State.deviceReset_kept | apply State.guard_kept | apply State.wake_kept) | simp only [kept_same] | intro _ | dsimp only
theorem execResetNRise_kept (s : State) {u : State} (h : execResetNRise s = .next u) : Kept s u := by
  unfold execResetNRise at h
  simp only [Host.Outcome.next.injEq] at h
  have hc := kept_refl s
  rw [← h]
  clear h
  repeat' first | (with_reducible first | assumption | apply kept_ite | apply State.guard_kept | apply State.tryStart_kept) | simp only [kept_same] | intro _ | dsimp only
theorem execDeviceReset_kept (p : Path) (v : Word) (s : State) {u : State} (h : execDeviceReset p v s = .next u) : Kept s u := by
  unfold execDeviceReset at h
  simp only [Host.Outcome.next.injEq] at h
  have hc := kept_refl s
  rw [← h]
  clear h
  repeat' first | (with_reducible first | assumption | apply State.deviceReset_kept | apply State.guard_kept) | intro _ | dsimp only
theorem execIntegrityReset_kept (detail : BitVec 6) (addr : Word) (s : State) {u : State} (h : execIntegrityReset detail addr s = .next u) : Kept s u := by
  unfold execIntegrityReset at h
  simp only [Host.Outcome.next.injEq] at h
  have hc := kept_refl s
  rw [← h]
  clear h
  repeat' first | (with_reducible first | assumption | apply kept_ite | apply State.guard_kept | apply State.integrityReset_kept) | intro _ | dsimp only
theorem execLockstepMismatch_kept (s : State) {u : State} (h : execLockstepMismatch s = .next u) : Kept s u := by
  unfold execLockstepMismatch at h
  simp only [Host.Outcome.next.injEq] at h
  have hc := kept_refl s
  rw [← h]
  clear h
  repeat' first | (with_reducible first | assumption | apply kept_ite | apply State.guard_kept | apply State.integrityReset_kept) | intro _ | dsimp only
theorem execApexWatchdogExpiry_kept (s : State) {u : State} (h : execApexWatchdogExpiry s = .next u) : Kept s u := by
  unfold execApexWatchdogExpiry at h
  simp only [Host.Outcome.next.injEq] at h
  have hc := kept_refl s
  rw [← h]
  clear h
  repeat' first | (with_reducible first | assumption | apply kept_ite | apply State.deviceReset_kept | apply State.guard_kept) | simp only [kept_same] | intro _ | dsimp only
theorem execThermalTrip_kept (sensor : Fin 4) (reading : Half) (s : State) {u : State} (h : execThermalTrip sensor reading s = .next u) : Kept s u := by
  unfold execThermalTrip at h
  simp only [Host.Outcome.next.injEq] at h
  have hc := kept_refl s
  rw [← h]
  clear h
  repeat' first | (with_reducible first | assumption | apply kept_ite | apply State.deviceReset_kept | apply State.guard_kept | apply State.setBits_kept) | simp only [kept_same] | intro _ | dsimp only
theorem execThermalRelease_kept (s : State) {u : State} (h : execThermalRelease s = .next u) : Kept s u := by
  unfold execThermalRelease at h
  simp only [Host.Outcome.next.injEq] at h
  have hc := kept_refl s
  rw [← h]
  clear h
  repeat' first | (with_reducible first | assumption | apply kept_ite | apply State.guard_kept | apply State.tryStart_kept) | simp only [kept_same] | intro _ | dsimp only
theorem execHoldRelease_kept (p : Path) (v : Word) (overtaken : Fin 3) (s : State) {u : State} (h : execHoldRelease p v overtaken s = .next u) : Kept s u := by
  unfold execHoldRelease at h
  simp only [Host.Outcome.next.injEq] at h
  have hc := kept_refl s
  rw [← h]
  clear h
  repeat' first | (with_reducible first | assumption | apply State.guard_kept | apply State.holdRelease_kept) | intro _ | dsimp only
theorem execHoldAck_kept (p : Path) (v : Word) (s : State) {u : State} (h : execHoldAck p v s = .next u) : Kept s u := by
  unfold execHoldAck at h
  simp only [Host.Outcome.next.injEq] at h
  have hc := kept_refl s
  rw [← h]
  clear h
  repeat' first | (with_reducible first | assumption | apply State.guard_kept | apply State.holdAck_kept) | intro _ | dsimp only
theorem execHoldRequest_kept (p : Path) (v : Word) (s : State) {u : State} (h : execHoldRequest p v s = .next u) : Kept s u := by
  unfold execHoldRequest at h
  simp only [Host.Outcome.next.injEq] at h
  have hc := kept_refl s
  rw [← h]
  clear h
  repeat' first | (with_reducible first | assumption | apply State.guard_kept | apply State.holdRequest_kept) | intro _ | dsimp only
theorem execEngineReset_kept (p : Path) (v : Word) (s : State) {u : State} (h : execEngineReset p v s = .next u) : Kept s u := by
  unfold execEngineReset at h
  simp only [Host.Outcome.next.injEq] at h
  have hc := kept_refl s
  rw [← h]
  clear h
  repeat' first | (with_reducible first | assumption | apply State.guard_kept | apply State.resetWrite_kept) | intro _ | dsimp only
theorem execFacetReset_kept (p : Path) (v : BitVec 8) (s : State) {u : State} (h : execFacetReset p v s = .next u) : Kept s u := by
  unfold execFacetReset at h
  simp only [Host.Outcome.next.injEq] at h
  have hc := kept_refl s
  rw [← h]
  clear h
  repeat' first | (with_reducible first | assumption | apply State.guard_kept | apply State.resetWrite_kept) | intro _ | dsimp only
theorem execMacPortReset_kept (p : Path) (v : BitVec 12) (s : State) {u : State} (h : execMacPortReset p v s = .next u) : Kept s u := by
  unfold execMacPortReset at h
  simp only [Host.Outcome.next.injEq] at h
  have hc := kept_refl s
  rw [← h]
  clear h
  repeat' first | (with_reducible first | assumption | apply State.guard_kept | apply State.resetWrite_kept) | intro _ | dsimp only
theorem execRingReset_kept (p : Path) (v : BitVec 4) (s : State) {u : State} (h : execRingReset p v s = .next u) : Kept s u := by
  unfold execRingReset at h
  simp only [Host.Outcome.next.injEq] at h
  have hc := kept_refl s
  rw [← h]
  clear h
  repeat' first | (with_reducible first | assumption | apply State.guard_kept | apply State.resetWrite_kept) | intro _ | dsimp only
theorem execCanReset_kept (p : Path) (v : BitVec 4) (s : State) {u : State} (h : execCanReset p v s = .next u) : Kept s u := by
  unfold execCanReset at h
  simp only [Host.Outcome.next.injEq] at h
  have hc := kept_refl s
  rw [← h]
  clear h
  repeat' first | (with_reducible first | assumption | apply State.guard_kept | apply State.resetWrite_kept) | intro _ | dsimp only
theorem execPioBlockReset_kept (p : Path) (v : BitVec 4) (s : State) {u : State} (h : execPioBlockReset p v s = .next u) : Kept s u := by
  unfold execPioBlockReset at h
  simp only [Host.Outcome.next.injEq] at h
  have hc := kept_refl s
  rw [← h]
  clear h
  repeat' first | (with_reducible first | assumption | apply State.guard_kept | apply State.resetWrite_kept) | intro _ | dsimp only
theorem execLocusReset_kept (p : Path) (s : State) {u : State} (h : execLocusReset p s = .next u) : Kept s u := by
  unfold execLocusReset at h
  simp only [Host.Outcome.next.injEq] at h
  have hc := kept_refl s
  rw [← h]
  clear h
  repeat' first | (with_reducible first | assumption | apply State.guard_kept | apply State.resetWrite_kept) | intro _ | dsimp only
theorem execSwitchReset_kept (p : Path) (s : State) {u : State} (h : execSwitchReset p s = .next u) : Kept s u := by
  unfold execSwitchReset at h
  simp only [Host.Outcome.next.injEq] at h
  have hc := kept_refl s
  rw [← h]
  clear h
  repeat' first | (with_reducible first | assumption | apply State.guard_kept | apply State.resetWrite_kept) | intro _ | dsimp only
theorem execTimeDomainReset_kept (p : Path) (v : BitVec 4) (s : State) {u : State} (h : execTimeDomainReset p v s = .next u) : Kept s u := by
  unfold execTimeDomainReset at h
  simp only [Host.Outcome.next.injEq] at h
  have hc := kept_refl s
  rw [← h]
  clear h
  repeat' first | (with_reducible first | assumption | apply State.guard_kept | apply State.resetWrite_kept) | intro _ | dsimp only
theorem execBlockResetComplete_kept (sub : Fin 6) (bit : Fin 32) (s : State) {u : State} (h : execBlockResetComplete sub bit s = .next u) : Kept s u := by
  unfold execBlockResetComplete at h
  simp only [Host.Outcome.next.injEq] at h
  have hc := kept_refl s
  rw [← h]
  clear h
  repeat' first | (with_reducible first | assumption | apply State.blockReleased_kept | apply State.guard_kept) | intro _ | dsimp only
theorem execRimPllLockLost_kept (s : State) {u : State} (h : execRimPllLockLost s = .next u) : Kept s u := by
  unfold execRimPllLockLost at h
  simp only [Host.Outcome.next.injEq] at h
  have hc := kept_refl s
  rw [← h]
  clear h
  repeat' first | (with_reducible first | assumption | apply kept_ite | apply State.guard_kept | apply State.rimLost_kept) | intro _ | dsimp only
theorem execRimPllRelock_kept (s : State) {u : State} (h : execRimPllRelock s = .next u) : Kept s u := by
  unfold execRimPllRelock at h
  simp only [Host.Outcome.next.injEq] at h
  have hc := kept_refl s
  rw [← h]
  clear h
  repeat' first | (with_reducible first | assumption | apply kept_ite | apply State.guard_kept) | simp only [kept_same] | intro _ | dsimp only
theorem execDozeRequest_kept (p : Path) (s : State) {u : State} (h : execDozeRequest p s = .next u) : Kept s u := by
  unfold execDozeRequest at h
  simp only [Host.Outcome.next.injEq] at h
  have hc := kept_refl s
  rw [← h]
  clear h
  repeat' first | (with_reducible first | assumption | apply State.guard_kept | apply State.sleepRequest_kept) | intro _ | dsimp only
theorem execStandbyRequest_kept (p : Path) (s : State) {u : State} (h : execStandbyRequest p s = .next u) : Kept s u := by
  unfold execStandbyRequest at h
  simp only [Host.Outcome.next.injEq] at h
  have hc := kept_refl s
  rw [← h]
  clear h
  repeat' first | (with_reducible first | assumption | apply State.guard_kept | apply State.sleepRequest_kept) | intro _ | dsimp only
theorem execDozeWakeWrite_kept (p : Path) (s : State) {u : State} (h : execDozeWakeWrite p s = .next u) : Kept s u := by
  unfold execDozeWakeWrite at h
  simp only [Host.Outcome.next.injEq] at h
  have hc := kept_refl s
  rw [← h]
  clear h
  repeat' first | (with_reducible first | assumption | apply State.guard_kept | apply State.sleepRequest_kept) | intro _ | dsimp only
theorem execDozeTransitionDone_kept (s : State) {u : State} (h : execDozeTransitionDone s = .next u) : Kept s u := by
  unfold execDozeTransitionDone at h
  simp only [Host.Outcome.next.injEq] at h
  have hc := kept_refl s
  rw [← h]
  clear h
  repeat' first | (with_reducible first | assumption | apply State.dozeReached_kept | apply State.guard_kept) | intro _ | dsimp only
theorem execDozeWakeDone_kept (s : State) {u : State} (h : execDozeWakeDone s = .next u) : Kept s u := by
  unfold execDozeWakeDone at h
  simp only [Host.Outcome.next.injEq] at h
  have hc := kept_refl s
  rw [← h]
  clear h
  repeat' first | (with_reducible first | assumption | apply State.dozeWoken_kept | apply State.guard_kept) | intro _ | dsimp only
theorem execStandbyPowerDown_kept (s : State) {u : State} (h : execStandbyPowerDown s = .next u) : Kept s u := by
  unfold execStandbyPowerDown at h
  simp only [Host.Outcome.next.injEq] at h
  have hc := kept_refl s
  rw [← h]
  clear h
  repeat' first | (with_reducible first | assumption | apply kept_ite | apply State.guard_kept) | simp only [kept_same] | intro _ | dsimp only
theorem execWakeSourceEvent_kept (src : Fin 11) (unit : Fin 64) (rising : Bool) (s : State) {u : State} (h : execWakeSourceEvent src unit rising s = .next u) : Kept s u := by
  unfold execWakeSourceEvent at h
  simp only [Host.Outcome.next.injEq] at h
  have hc := kept_refl s
  rw [← h]
  clear h
  repeat' first | (with_reducible first | assumption | apply kept_ite | apply State.guard_kept | apply State.wake_kept) | intro _ | dsimp only
theorem execStandbyWake_kept (s : State) {u : State} (h : execStandbyWake s = .next u) : Kept s u := by
  unfold execStandbyWake at h
  simp only [Host.Outcome.next.injEq] at h
  have hc := kept_refl s
  rw [← h]
  clear h
  repeat' first | (with_reducible first | assumption | apply kept_ite | apply State.deviceReset_kept | apply State.guard_kept | apply State.wr_kept) | simp only [kept_same] | intro _ | dsimp only | split
theorem execWakeConfigCheck_kept (verified : Bool) (found : Word) (s : State) {u : State} (h : execWakeConfigCheck verified found s = .next u) : Kept s u := by
  unfold execWakeConfigCheck at h
  simp only [Host.Outcome.next.injEq] at h
  have hc := kept_refl s
  rw [← h]
  clear h
  repeat' first | (with_reducible first | assumption | apply State.guard_kept | apply State.wakeCheck_kept) | intro _ | dsimp only
theorem execConfigConfirmedWrite_kept (p : Path) (v : Word) (s : State) {u : State} (h : execConfigConfirmedWrite p v s = .next u) : Kept s u := by
  unfold execConfigConfirmedWrite at h
  simp only [Host.Outcome.next.injEq] at h
  have hc := kept_refl s
  rw [← h]
  clear h
  repeat' first | (with_reducible first | assumption | apply State.confirmConfig_kept | apply State.guard_kept) | intro _ | dsimp only
theorem execAnswerCacheExpiry_kept (k : Nat) (s : State) {u : State} (h : execAnswerCacheExpiry k s = .next u) : Kept s u := by
  unfold execAnswerCacheExpiry at h
  simp only [Host.Outcome.next.injEq] at h
  have hc := kept_refl s
  rw [← h]
  clear h
  repeat' first | (with_reducible first | assumption | apply State.guard_kept | apply State.setLat_kept) | simp only [kept_same] | intro _ | dsimp only
theorem execServiceAnswerReceived_kept (s : State) {u : State} (h : execServiceAnswerReceived s = .next u) : Kept s u := by
  unfold execServiceAnswerReceived at h
  simp only [Host.Outcome.next.injEq] at h
  have hc := kept_refl s
  rw [← h]
  clear h
  repeat' first | (with_reducible first | assumption | apply kept_ite | apply State.fetchAnswer_kept | apply State.guard_kept | apply State.setLat_kept) | simp only [kept_same] | intro _ | dsimp only | split
theorem execRequestRepeatTimeout_kept (k : Nat) (s : State) {u : State} (h : execRequestRepeatTimeout k s = .next u) : Kept s u := by
  unfold execRequestRepeatTimeout at h
  simp only [Host.Outcome.next.injEq] at h
  have hc := kept_refl s
  rw [← h]
  clear h
  repeat' first | (with_reducible first | assumption | apply kept_ite | apply State.fetchFailed_kept | apply State.guard_kept | apply State.latTo_kept | apply State.setLat_kept) | simp only [kept_same] | intro _ | dsimp only | split
theorem execConfigFetchComplete_kept (s : State) {u : State} (h : execConfigFetchComplete s = .next u) : Kept s u := by
  unfold execConfigFetchComplete at h
  simp only [Host.Outcome.next.injEq] at h
  have hc := kept_refl s
  rw [← h]
  clear h
  repeat' first | (with_reducible first | assumption | apply kept_ite | apply State.fetchDone_kept | apply State.guard_kept) | simp only [kept_same] | intro _ | dsimp only | split
theorem execConfigFetchRetry_kept (s : State) {u : State} (h : execConfigFetchRetry s = .next u) : Kept s u := by
  unfold execConfigFetchRetry at h
  simp only [Host.Outcome.next.injEq] at h
  have hc := kept_refl s
  rw [← h]
  clear h
  repeat' first | (with_reducible first | assumption | apply kept_ite | apply State.fetchSet_kept | apply State.guard_kept) | simp only [kept_same] | intro _ | dsimp only | split
theorem execPortFrameReceived_kept (p : Fin 12) (d : List Byte) (er : Option Nat) (frags : Nat) (br : Fin 3) (s : State) {u : State} (h : execPortFrameReceived p d er frags br s = .next u) : Kept s u := by
  unfold execPortFrameReceived at h
  simp only [Host.Outcome.next.injEq] at h
  have hc := kept_refl s
  rw [← h]
  clear h
  repeat' first | (with_reducible first | assumption | apply kept_ite | apply State.guard_kept | apply State.receive_kept | apply State.stat_kept | apply State.statAdd_kept | apply State.wake_kept) | intro _ | dsimp only
theorem execPauseRequestReceived_kept (p : Fin 12) (s : State) {u : State} (h : execPauseRequestReceived p s = .next u) : Kept s u := by
  unfold execPauseRequestReceived at h
  simp only [Host.Outcome.next.injEq] at h
  have hc := kept_refl s
  rw [← h]
  clear h
  repeat' first | (with_reducible first | assumption | apply State.applyPause_kept | apply State.guard_kept) | intro _ | dsimp only
theorem execPauseExpiry_kept (p : Fin 12) (c : Fin 8) (s : State) {u : State} (h : execPauseExpiry p c s = .next u) : Kept s u := by
  unfold execPauseExpiry at h
  simp only [Host.Outcome.next.injEq] at h
  have hc := kept_refl s
  rw [← h]
  clear h
  repeat' first | (with_reducible first | assumption | apply kept_ite | apply State.guard_kept | apply State.setPort_kept | apply State.showPaused_kept) | simp only [kept_same] | intro _ | dsimp only
theorem execPauseRefreshTimer_kept (p : Fin 12) (c : Fin 8) (s : State) {u : State} (h : execPauseRefreshTimer p c s = .next u) : Kept s u := by
  unfold execPauseRefreshTimer at h
  simp only [Host.Outcome.next.injEq] at h
  have hc := kept_refl s
  rw [← h]
  clear h
  repeat' first | (with_reducible first | assumption | apply kept_ite | apply State.guard_kept | apply State.queuePause_kept) | intro _ | dsimp only
theorem execPauseWatchdogExpiry_kept (p : Fin 12) (c : Fin 8) (s : State) {u : State} (h : execPauseWatchdogExpiry p c s = .next u) : Kept s u := by
  unfold execPauseWatchdogExpiry at h
  simp only [Host.Outcome.next.injEq] at h
  have hc := kept_refl s
  rw [← h]
  clear h
  repeat' first | (with_reducible first | assumption | apply kept_ite | apply State.guard_kept | apply State.portEvent_kept | apply State.record_kept | apply State.setPort_kept | apply State.showPaused_kept | apply State.stat_kept) | simp only [kept_same] | intro _ | dsimp only
theorem execPreemptVerifySend_kept (p : Fin 12) (s : State) {u : State} (h : execPreemptVerifySend p s = .next u) : Kept s u := by
  unfold execPreemptVerifySend at h
  simp only [Host.Outcome.next.injEq] at h
  have hc := kept_refl s
  rw [← h]
  clear h
  repeat' first | (with_reducible first | assumption | apply kept_ite | apply State.emit_kept | apply State.guard_kept | apply State.setPort_kept) | simp only [kept_same] | intro _ | dsimp only
theorem execPreemptVerifyResponse_kept (p : Fin 12) (s : State) {u : State} (h : execPreemptVerifyResponse p s = .next u) : Kept s u := by
  unfold execPreemptVerifyResponse at h
  simp only [Host.Outcome.next.injEq] at h
  have hc := kept_refl s
  rw [← h]
  clear h
  repeat' first | (with_reducible first | assumption | apply kept_ite | apply State.guard_kept | apply State.portEvent_kept | apply State.wr_kept) | intro _ | dsimp only
theorem execPreemptVerifyFailed_kept (p : Fin 12) (s : State) {u : State} (h : execPreemptVerifyFailed p s = .next u) : Kept s u := by
  unfold execPreemptVerifyFailed at h
  simp only [Host.Outcome.next.injEq] at h
  have hc := kept_refl s
  rw [← h]
  clear h
  repeat' first | (with_reducible first | assumption | apply kept_ite | apply State.guard_kept | apply State.portEvent_kept | apply State.wr_kept) | intro _ | dsimp only
theorem execMboxLockRead_kept (p : Path) (ch : Fin 48) (s : State) {u : State} (h : execMboxLockRead p ch s = .next u) : Kept s u := by
  unfold execMboxLockRead at h
  simp only [Host.Outcome.next.injEq] at h
  have hc := kept_refl s
  rw [← h]
  clear h
  repeat' first | (with_reducible first | assumption | apply kept_ite | apply State.emit_kept | apply State.guard_kept | apply State.lockRead_kept | apply State.violate_kept | apply kept_ite2 | apply kept_ite3 | apply kept_ite4) | intro _ | dsimp only
theorem execMboxLockRelease_kept (p : Path) (ch : Fin 48) (v : Word) (s : State) {u : State} (h : execMboxLockRelease p ch v s = .next u) : Kept s u := by
  unfold execMboxLockRelease at h
  simp only [Host.Outcome.next.injEq] at h
  have hc := kept_refl s
  rw [← h]
  clear h
  repeat' first | (with_reducible first | assumption | apply State.guard_kept | apply State.lockFree_kept) | intro _ | dsimp only
theorem execMboxPost_kept (p : Path) (ch : Fin 48) (bits : Word) (len : Word) (s : State) {u : State} (h : execMboxPost p ch bits len s = .next u) : Kept s u := by
  unfold execMboxPost at h
  simp only [Host.Outcome.next.injEq] at h
  have hc := kept_refl s
  rw [← h]
  clear h
  repeat' first | (with_reducible first | assumption | apply State.guard_kept | apply State.post_kept) | intro _ | dsimp only
theorem execMboxDoorbellRead_kept (p : Path) (ch : Fin 48) (s : State) {u : State} (h : execMboxDoorbellRead p ch s = .next u) : Kept s u := by
  unfold execMboxDoorbellRead at h
  simp only [Host.Outcome.next.injEq] at h
  have hc := kept_refl s
  rw [← h]
  clear h
  repeat' first | (with_reducible first | assumption | apply kept_ite | apply State.dbRead_kept | apply State.emit_kept | apply State.guard_kept | apply State.violate_kept | apply kept_ite2 | apply kept_ite3 | apply kept_ite4) | intro _ | dsimp only
theorem execMboxDoorbellClear_kept (p : Path) (ch : Fin 48) (v : Word) (s : State) {u : State} (h : execMboxDoorbellClear p ch v s = .next u) : Kept s u := by
  unfold execMboxDoorbellClear at h
  simp only [Host.Outcome.next.injEq] at h
  have hc := kept_refl s
  rw [← h]
  clear h
  repeat' first | (with_reducible first | assumption | apply State.dbClear_kept | apply State.guard_kept) | intro _ | dsimp only
theorem execMboxMaskWrite_kept (p : Path) (ch : Fin 48) (v : Word) (s : State) {u : State} (h : execMboxMaskWrite p ch v s = .next u) : Kept s u := by
  unfold execMboxMaskWrite at h
  simp only [Host.Outcome.next.injEq] at h
  have hc := kept_refl s
  rw [← h]
  clear h
  repeat' first | (with_reducible first | assumption | apply State.guard_kept | apply State.maskWrite_kept) | intro _ | dsimp only
theorem execMboxDiscardZeroed_kept (ch : Fin 48) (s : State) {u : State} (h : execMboxDiscardZeroed ch s = .next u) : Kept s u := by
  unfold execMboxDiscardZeroed at h
  simp only [Host.Outcome.next.injEq] at h
  have hc := kept_refl s
  rw [← h]
  clear h
  repeat' first | (with_reducible first | assumption | apply kept_ite | apply State.guard_kept | apply State.lockReleaseReset_kept | apply State.setChan_kept) | simp only [kept_same] | intro _ | dsimp only
theorem execNetworkOdAccess_kept (n : Fin 6) (conn : Nat) (op : NetOp) (s : State) {u : State} (h : execNetworkOdAccess n conn op s = .next u) : Kept s u := by
  unfold execNetworkOdAccess at h
  simp only [Host.Outcome.next.injEq] at h
  have hc := kept_refl s
  rw [← h]
  clear h
  repeat' first | (with_reducible first | assumption | apply kept_ite | apply State.guard_kept | apply State.netAccess_kept) | intro _ | dsimp only
theorem execModbusValueRead_kept (n : Fin 6) (conn : Nat) (s : State) {u : State} (h : execModbusValueRead n conn s = .next u) : Kept s u := by
  unfold execModbusValueRead at h
  simp only [Host.Outcome.next.injEq] at h
  have hc := kept_refl s
  rw [← h]
  clear h
  repeat' first | (with_reducible first | assumption | apply kept_ite | apply State.guard_kept | apply State.modbusRead_kept) | intro _ | dsimp only
theorem execModbusValueCommit_kept (n : Fin 6) (conn : Nat) (v : Half) (s : State) {u : State} (h : execModbusValueCommit n conn v s = .next u) : Kept s u := by
  unfold execModbusValueCommit at h
  simp only [Host.Outcome.next.injEq] at h
  have hc := kept_refl s
  rw [← h]
  clear h
  repeat' first | (with_reducible first | assumption | apply kept_ite | apply State.guard_kept | apply State.modbusCommit_kept) | intro _ | dsimp only
theorem execPrivateValueAccess_kept (p : Path) (n : Fin 6) (w : Option DWord) (s : State) {u : State} (h : execPrivateValueAccess p n w s = .next u) : Kept s u := by
  unfold execPrivateValueAccess at h
  simp only [Host.Outcome.next.injEq] at h
  have hc := kept_refl s
  rw [← h]
  clear h
  repeat' first | (with_reducible first | assumption | apply State.emit_kept | apply State.guard_kept | apply State.odGet_kept | apply State.odSet_kept) | simp only [kept_same] | intro _ | dsimp only | split
theorem slotReply_kept {s0 : State} (p : Path) (r : Nat × State) (hc : Kept s0 r.2) : Kept s0 (State.slotReply p r) :=
  State.emit_kept _ _ hc

theorem execRestoreRequest_kept (q : Path) (n : Fin 4) (v : Word) (s : State) {u : State} (h : execRestoreRequest q n v s = .next u) : Kept s u := by
  have hc := kept_refl s
  unfold execRestoreRequest at h
  simp only [Host.Outcome.next.injEq] at h
  rw [← h]
  apply State.guard_kept _ _ _ _ _ _ ?_ hc
  intro t ht
  apply kept_ite ?_ ht
  exact State.changeAsk_kept _ _ _ _ _ ht
theorem execMgmtSend_kept (q : Path) (n : Fin 4) (v : Word) (s : State) {u : State} (h : execMgmtSend q n v s = .next u) : Kept s u := by
  have hc := kept_refl s
  unfold execMgmtSend at h
  simp only [Host.Outcome.next.injEq] at h
  rw [← h]
  apply State.guard_kept _ _ _ _ _ _ ?_ hc
  intro t ht
  apply kept_ite ?_ ht
  exact State.mgmtSend_kept _ _ ht
theorem execPioRestart_kept (q : Path) (m : Fin 32) (v : Word) (s : State) {u : State} (h : execPioRestart q m v s = .next u) : Kept s u := by
  have hc := kept_refl s
  unfold execPioRestart at h
  simp only [Host.Outcome.next.injEq] at h
  rw [← h]
  apply State.guard_kept _ _ _ _ _ _ ?_ hc
  intro t ht
  apply kept_ite ?_ ht
  exact State.smRestart_kept _ _ ht
theorem execPioFifoClear_kept (q : Path) (m : Fin 32) (v : Word) (s : State) {u : State} (h : execPioFifoClear q m v s = .next u) : Kept s u := by
  have hc := kept_refl s
  unfold execPioFifoClear at h
  simp only [Host.Outcome.next.injEq] at h
  rw [← h]
  apply State.guard_kept _ _ _ _ _ _ ?_ hc
  intro t ht
  apply kept_ite ?_ ht
  exact State.smClear_kept _ _ ht
theorem execPioDmaStop_kept (q : Path) (k : Fin 64) (v : Word) (s : State) {u : State} (h : execPioDmaStop q k v s = .next u) : Kept s u := by
  have hc := kept_refl s
  unfold execPioDmaStop at h
  simp only [Host.Outcome.next.injEq] at h
  rw [← h]
  apply State.guard_kept _ _ _ _ _ _ ?_ hc
  intro t ht
  apply kept_ite ?_ ht
  exact State.dmaStop_kept _ _ ht
theorem execCanRecover_kept (p : Path) (c : Fin 4) (v : Word) (s : State) {u : State} (h : execCanRecover p c v s = .next u) : Kept s u := by
  have hc := kept_refl s
  unfold execCanRecover at h
  simp only [Host.Outcome.next.injEq] at h
  rw [← h]
  apply State.guard_kept _ _ _ _ _ _ ?_ hc
  intro t ht
  apply kept_ite ?_ ht
  exact State.setCan_kept _ _ _ ht
theorem execHostDmaAbort_kept (p : Path) (k : Fin 8) (v : Word) (moved : Bool) (s : State) {u : State} (h : execHostDmaAbort p k v moved s = .next u) : Kept s u := by
  have hc := kept_refl s
  unfold execHostDmaAbort at h
  simp only [Host.Outcome.next.injEq] at h
  rw [← h]
  apply State.guard_kept _ _ _ _ _ _ ?_ hc
  intro t ht
  apply kept_ite ?_ ht
  exact State.dmaAbort_kept _ _ _ ht
theorem execPauseResume_kept (q : Path) (p : Fin 12) (v : Word) (s : State) {u : State} (h : execPauseResume q p v s = .next u) : Kept s u := by
  have hc := kept_refl s
  unfold execPauseResume at h
  simp only [Host.Outcome.next.injEq] at h
  rw [← h]
  apply State.guard_kept _ _ _ _ _ _ ?_ hc
  intro t ht
  apply kept_ite ?_ ht
  exact State.setPort_kept _ _ _ ht
theorem execMapRead_kept (p : Path) (addr : Word) (size : Size) (beats : Nat) (s : State) {u : State} (h : execMapRead p addr size beats s = .next u) : Kept s u := by
  have hc := kept_refl s
  unfold execMapRead at h
  split at h
  · simp only [Host.Outcome.next.injEq] at h
    rw [← h]
    exact State.doMapRead_kept _ _ _ _ _ hc
  · cases h
theorem execMapWrite_kept (p : Path) (addr : Word) (size : Size) (data : List Byte) (s : State) {u : State} (h : execMapWrite p addr size data s = .next u) : Kept s u := by
  have hc := kept_refl s
  unfold execMapWrite at h
  split at h
  · simp only [Host.Outcome.next.injEq] at h
    rw [← h]
    exact State.doMapWrite_kept _ _ _ _ _ hc
  · cases h
theorem execWindowReadLowSlot_kept (p : Path) (idx : Half) (sub : Byte) (s : State) {u : State} (h : execWindowReadLowSlot p idx sub s = .next u) : Kept s u := by
  have hc := kept_refl s
  unfold execWindowReadLowSlot at h
  simp only [Host.Outcome.next.injEq] at h
  rw [← h]
  exact slotReply_kept _ _ (kept_ite2 (State.readLow_kept _ _ _ _ hc) (State.slotRead_kept _ _ _ _ hc))
theorem execWindowReadHighSlot_kept (p : Path) (idx : Half) (sub : Byte) (s : State) {u : State} (h : execWindowReadHighSlot p idx sub s = .next u) : Kept s u := by
  have hc := kept_refl s
  unfold execWindowReadHighSlot at h
  simp only [Host.Outcome.next.injEq] at h
  rw [← h]
  exact slotReply_kept _ _ (kept_ite2 (State.readHigh_kept _ _ _ _ hc) (State.slotRead_kept _ _ _ _ hc))
theorem execProcessDataRead_kept (p : Path) (idx : Half) (sub : Byte) (retries : Nat) (s : State) {u : State} (h : execProcessDataRead p idx sub retries s = .next u) : Kept s u := by
  have hc := kept_refl s
  unfold execProcessDataRead at h
  simp only [Host.Outcome.next.injEq] at h
  rw [← h]
  exact slotReply_kept _ _ (kept_ite2 (State.violate_kept _ _ hc)
    (kept_ite2 (State.procRead_kept _ _ _ _ hc) (State.slotRead_kept _ _ _ _ hc)))
theorem execOdAccessRequest_kept (secure : Bool) (s : State) {u : State} (h : execOdAccessRequest secure s = .next u) : Kept s u := by
  have hc := kept_refl s
  unfold execOdAccessRequest at h
  simp only [Host.Outcome.next.injEq] at h
  rw [← h]
  split
  · exact hc
  · rename_i x t hs
    have ht : Kept s t := State.service_kept _ _ hs hc
    refine kept_ite (State.latCnt_kept _ _ ht) ?_
    exact State.latAnswer_kept _ _ _ (State.odOpsRun_kept _ _ _ _ ht)
theorem execMailboxRelayRequest_kept (secure : Bool) (s : State) {u : State} (h : execMailboxRelayRequest secure s = .next u) : Kept s u := by
  have hc := kept_refl s
  unfold execMailboxRelayRequest at h
  simp only [Host.Outcome.next.injEq] at h
  rw [← h]
  split
  · exact hc
  · rename_i x t hs
    have ht : Kept s t := State.service_kept _ _ hs hc
    refine kept_ite (State.latCnt_kept _ _ ht) ?_
    exact State.latAnswer_kept _ _ _ (State.relayPost_kept _ _ _ _ _ ht)
theorem execLogRequest_kept (s : State) {u : State} (h : execLogRequest s = .next u) : Kept s u := by
  have hc := kept_refl s
  unfold execLogRequest at h
  simp only [Host.Outcome.next.injEq] at h
  rw [← h]
  split
  · exact hc
  · rename_i x t hs
    have ht : Kept s t := State.service_kept _ _ hs hc
    exact State.latAnswer_kept _ _ _ ht
theorem execFirmwareOffer_kept (len : Word) (sha : List Byte) (at' : Word) (s : State) {u : State} (h : execFirmwareOffer len sha at' s = .next u) : Kept s u := by
  have hc := kept_refl s
  unfold execFirmwareOffer at h
  simp only [Host.Outcome.next.injEq] at h
  rw [← h]
  split
  · exact hc
  · rename_i x t hs
    have ht : Kept s t := State.service_kept _ _ hs hc
    exact State.latAnswer_kept _ _ _ (State.setLat_kept _ _ ht)
theorem execFirmwareBlock_kept (off : Word) (d : List Byte) (s : State) {u : State} (h : execFirmwareBlock off d s = .next u) : Kept s u := by
  have hc := kept_refl s
  unfold execFirmwareBlock at h
  simp only [Host.Outcome.next.injEq] at h
  rw [← h]
  split
  · exact hc
  · rename_i x t hs
    have ht : Kept s t := State.service_kept _ _ hs hc
    apply State.latAnswer_kept
    split
    · exact kept_ite (State.doMapWrite_kept _ _ _ _ _ ht) ht
    · exact ht
theorem execFirmwareComplete_kept (secure apexGood : Bool) (s : State) {u : State} (h : execFirmwareComplete secure apexGood s = .next u) : Kept s u := by
  have hc := kept_refl s
  unfold execFirmwareComplete at h
  simp only [Host.Outcome.next.injEq] at h
  rw [← h]
  split
  · exact hc
  · rename_i x t hs
    have ht : Kept s t := State.service_kept _ _ hs hc
    apply State.latAnswer_kept
    split
    · refine kept_ite (State.setLat_kept _ _ ht) (kept_ite (kept_ite (State.setLat_kept _ _ ht) ?_) (kept_ite (kept_ite ?_ ?_) ?_))
      · exact State.libraryStart_kept _ _ _ (State.wr_kept _ _ _ _ (State.wr_kept _ _ _ _ (State.setLat_kept _ _ ht)))
      · exact State.apexInstall_kept _ _ _ (State.setLat_kept _ _ ht)
      · exact State.setLat_kept _ _ ht
      · exact State.violate_kept _ _ (State.setLat_kept _ _ ht)
    · exact ht
theorem execConfigRequest_kept (s : State) {u : State} (h : execConfigRequest s = .next u) : Kept s u := by
  have hc := kept_refl s
  unfold execConfigRequest at h
  simp only [Host.Outcome.next.injEq] at h
  rw [← h]
  split
  · exact hc
  · rename_i x t hs
    have ht : Kept s t := State.service_kept _ _ hs hc
    exact State.latAnswer_kept _ _ _ ht
theorem execResetRequest_kept (secure : Bool) (s : State) {u : State} (h : execResetRequest secure s = .next u) : Kept s u := by
  have hc := kept_refl s
  unfold execResetRequest at h
  simp only [Host.Outcome.next.injEq] at h
  rw [← h]
  split
  · exact hc
  · rename_i x t hs
    have ht : Kept s t := State.service_kept _ _ hs hc
    exact kept_ite (State.deviceReset_kept _ _ _ _ ht) (State.violate_kept _ _ ht)
theorem execSessionRequest_kept (good : Bool) (s : State) {u : State} (h : execSessionRequest good s = .next u) : Kept s u := by
  have hc := kept_refl s
  unfold execSessionRequest at h
  simp only [Host.Outcome.next.injEq] at h
  rw [← h]
  split
  · exact hc
  · rename_i x t hs
    have ht : Kept s t := State.service_kept _ _ hs hc
    have hx := ht
    split
    · exact State.latAnswer_kept _ _ _ (State.event_kept _ _ _ _ (State.cnt_kept _ _ _ ht))
    · exact State.latAnswer_kept _ _ _ (State.sessionTake_kept _ _ _ _ _ _ ht)
theorem execConfigPublish_kept (p : Path) (v : Word) (s : State) {u : State} (h : execConfigPublish p v s = .next u) : Kept s u := by
  have hc := kept_refl s
  unfold execConfigPublish at h
  simp only [Host.Outcome.next.injEq] at h
  rw [← h]
  apply kept_ite (State.publish_kept _ hc)
  apply State.guard_kept _ _ _ _ _ _ ?_ hc
  intro t ht
  exact kept_ite (State.publish_kept _ (State.wr_kept _ _ _ _ ht)) ht
/-- Whatever command answers a next state, the queue stands, outputs are only appended, the clock and the free-value
counter do not go back, and the canonical form is kept. -/
theorem exec_kept (c : Instr) (s : State) {u : State} (h : exec c s = .next u) : Kept s u := by
  cases c with
  | mapRead => exact execMapRead_kept _ _ _ _ _ h
  | mapWrite => exact execMapWrite_kept _ _ _ _ _ h
  | odWrite => exact execOdWrite_kept _ _ _ _ _ h
  | windowReadLowSlot => exact execWindowReadLowSlot_kept _ _ _ _ h
  | windowReadHighSlot => exact execWindowReadHighSlot_kept _ _ _ _ h
  | windowWriteLowSlot => exact execWindowWriteLowSlot_kept _ _ _ _ _ h
  | windowWriteHighSlot => exact execWindowWriteHighSlot_kept _ _ _ _ _ h
  | eventStatusClear => exact execEventStatusClear_kept _ _ _ _ _ _ h
  | paramSave => exact execParamSave_kept _ _ _ _ h
  | paramRestore => exact execParamRestore_kept _ _ _ _ h
  | paramHoldExpiry => exact execParamHoldExpiry_kept _ h
  | paramCopyWritten => exact execParamCopyWritten_kept _ _ h
  | rimPllLockLost => exact execRimPllLockLost_kept _ h
  | rimPllRelock => exact execRimPllRelock_kept _ h
  | vddioPresent => exact execVddioPresent_kept _ _ h
  | vddioBankLost => exact execVddioBankLost_kept _ _ h
  | vddioClassSense => exact execVddioClassSense_kept _ _ _ _ h
  | aonPowerGood => exact execAonPowerGood_kept _ h
  | por => exact execPor_kept _ h
  | coreBrownout => exact execCoreBrownout_kept _ h
  | coreBrownoutRelease => exact execCoreBrownoutRelease_kept _ h
  | resetNFall => exact execResetNFall_kept _ h
  | resetNAccept => exact execResetNAccept_kept _ h
  | resetNRise => exact execResetNRise_kept _ h
  | bringupStepDone => exact execBringupStepDone_kept _ _ h
  | holdRelease => exact execHoldRelease_kept _ _ _ _ h
  | holdAck => exact execHoldAck_kept _ _ _ h
  | holdRequest => exact execHoldRequest_kept _ _ _ h
  | deviceReset => exact execDeviceReset_kept _ _ _ h
  | engineReset => exact execEngineReset_kept _ _ _ h
  | facetReset => exact execFacetReset_kept _ _ _ h
  | macPortReset => exact execMacPortReset_kept _ _ _ h
  | ringReset => exact execRingReset_kept _ _ _ h
  | canReset => exact execCanReset_kept _ _ _ h
  | pioBlockReset => exact execPioBlockReset_kept _ _ _ h
  | locusReset => exact execLocusReset_kept _ _ h
  | switchReset => exact execSwitchReset_kept _ _ h
  | timeDomainReset => exact execTimeDomainReset_kept _ _ _ h
  | blockResetComplete => exact execBlockResetComplete_kept _ _ _ h
  | integrityReset => exact execIntegrityReset_kept _ _ _ h
  | lockstepMismatch => exact execLockstepMismatch_kept _ h
  | apexWatchdogExpiry => exact execApexWatchdogExpiry_kept _ h
  | thermalTrip => exact execThermalTrip_kept _ _ _ h
  | thermalRelease => exact execThermalRelease_kept _ h
  | triesClear => exact execTriesClear_kept _ _ _ h
  | optionsCommit => exact execOptionsCommit_kept _ _ _ h
  | optionsCommitEnd => exact execOptionsCommitEnd_kept _ h
  | dozeRequest => exact execDozeRequest_kept _ _ h
  | standbyRequest => exact execStandbyRequest_kept _ _ h
  | dozeTransitionDone => exact execDozeTransitionDone_kept _ h
  | standbyPowerDown => exact execStandbyPowerDown_kept _ h
  | dozeWakeWrite => exact execDozeWakeWrite_kept _ _ h
  | wakeSourceEvent => exact execWakeSourceEvent_kept _ _ _ _ h
  | dozeWakeDone => exact execDozeWakeDone_kept _ h
  | standbyWake => exact execStandbyWake_kept _ h
  | wakeConfigCheck => exact execWakeConfigCheck_kept _ _ _ h
  | configConfirmedWrite => exact execConfigConfirmedWrite_kept _ _ _ h
  | laneBindingWrite => exact execLaneBindingWrite_kept _ _ _ _ _ h
  | laneBindingApply => exact execLaneBindingApply_kept _ _ _ h
  | rxLaneFrame => exact execRxLaneFrame_kept _ _ _ _ _ h
  | txLaneFrameStart => exact execTxLaneFrameStart_kept _ _ _ _ h
  | txLaneUnderrun => exact execTxLaneUnderrun_kept _ _ h
  | engineRun => exact execEngineRun_kept _ _ _ h
  | engineHalt => exact execEngineHalt_kept _ _ _ h
  | engineStep => exact execEngineStep_kept _ _ _ h
  | engineLoad => exact execEngineLoad_kept _ _ _ h
  | engineHalted => exact execEngineHalted_kept _ _ h
  | engineLoadDone => exact execEngineLoadDone_kept _ _ _ _ h
  | hbPeriodExpiry => exact execHbPeriodExpiry_kept _ _ h
  | facetDbeRestart => exact execFacetDbeRestart_kept _ _ h
  | imageInstall => exact execImageInstall_kept _ _ h
  | imageRemove => exact execImageRemove_kept _ _ h
  | imageLibraryOpDone => exact execImageLibraryOpDone_kept _ _ h
  | processDataRead => exact execProcessDataRead_kept _ _ _ _ _ h
  | postedStoreComplete => exact execPostedStoreComplete_kept _ _ h
  | engineWaitEnd => exact execEngineWaitEnd_kept _ _ _ h
  | add => exact execAdd_kept _ _ h
  | addi => exact execAddi_kept _ _ h
  | sub => exact execSub_kept _ _ h
  | adc => exact execAdc_kept _ _ h
  | sbc => exact execSbc_kept _ _ h
  | andReg => exact execAndReg_kept _ _ h
  | andi => exact execAndi_kept _ _ h
  | orReg => exact execOrReg_kept _ _ h
  | ori => exact execOri_kept _ _ h
  | xor => exact execXor_kept _ _ h
  | xori => exact execXori_kept _ _ h
  | cmp => exact execCmp_kept _ _ h
  | cmpi => exact execCmpi_kept _ _ h
  | mul => exact execMul_kept _ _ h
  | lui => exact execLui_kept _ _ h
  | movi => exact execMovi_kept _ _ h
  | shl => exact execShl_kept _ _ h
  | shr => exact execShr_kept _ _ h
  | sar => exact execSar_kept _ _ h
  | ror => exact execRor_kept _ _ h
  | ext => exact execExt_kept _ _ h
  | ins => exact execIns_kept _ _ h
  | nswap => exact execNswap_kept _ _ h
  | bswap16 => exact execBswap16_kept _ _ h
  | bswap32 => exact execBswap32_kept _ _ h
  | clz => exact execClz_kept _ _ h
  | popc => exact execPopc_kept _ _ h
  | notReg => exact execNotReg_kept _ _ h
  | neg => exact execNeg_kept _ _ h
  | sext8 => exact execSext8_kept _ _ h
  | sext16 => exact execSext16_kept _ _ h
  | ldl => exact execLdl_kept _ _ h
  | stl => exact execStl_kept _ _ h
  | ldf => exact execLdf_kept _ _ h
  | stf => exact execStf_kept _ _ h
  | ldx => exact execLdx_kept _ _ h
  | stx => exact execStx_kept _ _ h
  | faddF => exact execFaddF_kept _ _ h
  | swapF => exact execSwapF_kept _ _ h
  | faddX => exact execFaddX_kept _ _ h
  | swapX => exact execSwapX_kept _ _ h
  | fence => exact execFence_kept _ _ h
  | bCond => exact execBCond_kept _ _ h
  | call => exact execCall_kept _ _ h
  | jr => exact execJr_kept _ _ h
  | callr => exact execCallr_kept _ _ h
  | cbz => exact execCbz_kept _ _ h
  | cbnz => exact execCbnz_kept _ _ h
  | halt => exact execHalt_kept _ _ h
  | nop => exact execNop_kept _ _ h
  | hbeat => exact execHbeat_kept _ _ h
  | take => exact execTake_kept _ _ h
  | peek => exact execPeek_kept _ _ h
  | skip => exact execSkip_kept _ _ h
  | give => exact execGive_kept _ _ h
  | matchLane => exact execMatchLane_kept _ _ h
  | mark => exact execMark_kept _ _ h
  | skipf => exact execSkipf_kept _ _ h
  | gend => exact execGend_kept _ _ h
  | lstat => exact execLstat_kept _ _ h
  | crcInit => exact execCrcInit_kept _ _ h
  | crcFold => exact execCrcFold_kept _ _ h
  | crcRead => exact execCrcRead_kept _ _ h
  | crcWrite => exact execCrcWrite_kept _ _ h
  | crcTap => exact execCrcTap_kept _ _ h
  | timeRead => exact execTimeRead_kept _ _ _ h
  | timeh => exact execTimeh_kept _ _ h
  | twait => exact execTwait_kept _ _ _ h
  | ewait => exact execEwait_kept _ _ h
  | ewaitTimeout => exact execEwaitTimeout_kept _ _ _ h
  | epoll => exact execEpoll_kept _ _ h
  | lock => exact execLock_kept _ _ h
  | unlock => exact execUnlock_kept _ _ h
  | post => exact execPost_kept _ _ h
  | dbrd => exact execDbrd_kept _ _ h
  | dbclr => exact execDbclr_kept _ _ h
  | wdkick => exact execWdkick_kept _ _ h
  | fuserd => exact execFuserd_kept _ _ h
  | mramw => exact execMramw_kept _ _ h
  | sha => exact execSha_kept _ _ h
  | engsec => exact execEngsec_kept _ _ h
  | chordFrame => exact execChordFrame_kept _ _ _ _ _ _ _ _ _ h
  | chordCaptureWrite => exact execChordCaptureWrite_kept _ _ h
  | spliceCommit => exact execSpliceCommit_kept _ _ _ _ h
  | spliceLoadDone => exact execSpliceLoadDone_kept _ _ h
  | spliceTableActivate => exact execSpliceTableActivate_kept _ _ h
  | chordConfigApply => exact execChordConfigApply_kept _ _ h
  | mdioC22Write => exact execMdioC22Write_kept _ _ _ _ _ _ h
  | mdioC22Read => exact execMdioC22Read_kept _ _ _ _ _ _ h
  | mdioC45Address => exact execMdioC45Address_kept _ _ _ _ _ _ h
  | mdioC45Write => exact execMdioC45Write_kept _ _ _ _ _ _ h
  | mdioC45Read => exact execMdioC45Read_kept _ _ _ _ _ _ h
  | mdioC45ReadIncrement => exact execMdioC45ReadIncrement_kept _ _ _ _ _ _ h
  | mdioFrameEnd => exact execMdioFrameEnd_kept _ _ _ h
  | mdioPoll => exact execMdioPoll_kept _ _ _ _ _ _ _ _ h
  | linkUp => exact execLinkUp_kept _ _ _ h
  | linkDown => exact execLinkDown_kept _ _ _ h
  | portLinkConfigChange => exact execPortLinkConfigChange_kept _ _ h
  | portFrameConfigApply => exact execPortFrameConfigApply_kept _ _ _ h
  | serdesLockLost => exact execSerdesLockLost_kept _ _ _ h
  | portFrameReceived => exact execPortFrameReceived_kept _ _ _ _ _ _ h
  | portFrameTransmitted => exact execPortFrameTransmitted_kept _ _ _ _ h
  | tsRecordWrite => exact execTsRecordWrite_kept _ _ h
  | preemptVerifySend => exact execPreemptVerifySend_kept _ _ h
  | preemptVerifyResponse => exact execPreemptVerifyResponse_kept _ _ h
  | preemptVerifyFailed => exact execPreemptVerifyFailed_kept _ _ h
  | pauseRequestReceived => exact execPauseRequestReceived_kept _ _ h
  | pauseExpiry => exact execPauseExpiry_kept _ _ _ h
  | pauseRefreshTimer => exact execPauseRefreshTimer_kept _ _ _ h
  | pauseWatchdogExpiry => exact execPauseWatchdogExpiry_kept _ _ _ h
  | pauseResume => exact execPauseResume_kept _ _ _ _ h
  | switchAdmission => exact execSwitchAdmission_kept _ _ _ _ _ _ h
  | frameStoreComplete => exact execFrameStoreComplete_kept _ _ h
  | txSelection => exact execTxSelection_kept _ _ _ _ h
  | fdbAgeExpiry => exact execFdbAgeExpiry_kept _ _ _ h
  | fdbReadEntry => exact execFdbReadEntry_kept _ _ h
  | fdbInsert => exact execFdbInsert_kept _ _ h
  | fdbDelete => exact execFdbDelete_kept _ _ h
  | fdbFlush => exact execFdbFlush_kept _ _ h
  | gateConfigChange => exact execGateConfigChange_kept _ _ _ _ h
  | gateConfigOperational => exact execGateConfigOperational_kept _ _ _ h
  | gateIntervalExpiry => exact execGateIntervalExpiry_kept _ _ _ h
  | streamRead => exact execStreamRead_kept _ _ h
  | streamWrite => exact execStreamWrite_kept _ _ h
  | streamClearBlocked => exact execStreamClearBlocked_kept _ _ h
  | streamGateRead => exact execStreamGateRead_kept _ _ h
  | streamGateWrite => exact execStreamGateWrite_kept _ _ h
  | streamGateChangeList => exact execStreamGateChangeList_kept _ _ h
  | streamGateIntervalExpiry => exact execStreamGateIntervalExpiry_kept _ _ _ h
  | meterRead => exact execMeterRead_kept _ _ h
  | meterWrite => exact execMeterWrite_kept _ _ h
  | meterClearMarkAllRed => exact execMeterClearMarkAllRed_kept _ _ h
  | cbRead => exact execCbRead_kept _ _ h
  | cbWrite => exact execCbWrite_kept _ _ h
  | cbResetRecovery => exact execCbResetRecovery_kept _ _ h
  | cbResetTimeout => exact execCbResetTimeout_kept _ _ h
  | rxRingDelivery => exact execRxRingDelivery_kept _ _ _ h
  | txRingFrame => exact execTxRingFrame_kept _ _ h
  | auditPass => exact execAuditPass_kept _ h
  | incrementWrite => exact execIncrementWrite_kept _ _ _ _ h
  | adjustStart => exact execAdjustStart_kept _ _ _ _ h
  | adjustEnd => exact execAdjustEnd_kept _ _ _ h
  | stepDisarm => exact execStepDisarm_kept _ _ _ h
  | stepNow => exact execStepNow_kept _ _ _ h
  | stepArmAt => exact execStepArmAt_kept _ _ _ h
  | stepApply => exact execStepApply_kept _ _ _ h
  | syncWrite => exact execSyncWrite_kept _ _ _ _ h
  | triggerFire => exact execTriggerFire_kept _ _ _ _ h
  | captureEdge => exact execCaptureEdge_kept _ _ _ _ _ h
  | capturePop => exact execCapturePop_kept _ _ _ _ h
  | ppsEdge => exact execPpsEdge_kept _ _ _ h
  | ppsPulseEnd => exact execPpsPulseEnd_kept _ _ _ h
  | launchEnable => exact execLaunchEnable_kept _ _ _ _ h
  | launchDisable => exact execLaunchDisable_kept _ _ _ _ h
  | launchFetchStart => exact execLaunchFetchStart_kept _ _ _ h
  | launchFetchDone => exact execLaunchFetchDone_kept _ _ _ h
  | launchBegin => exact execLaunchBegin_kept _ _ _ _ h
  | launchEnd => exact execLaunchEnd_kept _ _ _ h
  | launchAbort => exact execLaunchAbort_kept _ _ _ _ h
  | ringEnable => exact execRingEnable_kept _ _ _ _ h
  | perLockAcquired => exact execPerLockAcquired_kept _ _ _ h
  | perLockLost => exact execPerLockLost_kept _ _ _ _ _ h
  | healingSilenceEnd => exact execHealingSilenceEnd_kept _ _ h
  | perFrameReceived => exact execPerFrameReceived_kept _ _ _ _ _ _ _ _ h
  | echoRequestSend => exact execEchoRequestSend_kept _ _ _ h
  | echoRequestReceived => exact execEchoRequestReceived_kept _ _ _ _ h
  | echoReplyReceived => exact execEchoReplyReceived_kept _ _ _ _ h
  | echoTimeout => exact execEchoTimeout_kept _ _ _ h
  | measureSend => exact execMeasureSend_kept _ _ _ h
  | measureForward => exact execMeasureForward_kept _ _ h
  | measureReturn => exact execMeasureReturn_kept _ _ _ h
  | slotTableLoad => exact execSlotTableLoad_kept _ _ _ _ _ h
  | slotTableChecked => exact execSlotTableChecked_kept _ _ _ h
  | slotFetchStart => exact execSlotFetchStart_kept _ _ _ h
  | slotFetchDone => exact execSlotFetchDone_kept _ _ _ h
  | slotInsert => exact execSlotInsert_kept _ _ _ _ _ _ h
  | guardianCut => exact execGuardianCut_kept _ _ h
  | guardTableCommit => exact execGuardTableCommit_kept _ _ _ _ h
  | referenceSend => exact execReferenceSend_kept _ _ _ _ h
  | referenceAccept => exact execReferenceAccept_kept _ _ h
  | referenceMissed => exact execReferenceMissed_kept _ _ _ h
  | backupTakeover => exact execBackupTakeover_kept _ _ _ _ h
  | coldstartListenTimeout => exact execColdstartListenTimeout_kept _ _ h
  | coldstartSend => exact execColdstartSend_kept _ _ h
  | coldstartReceived => exact execColdstartReceived_kept _ _ h
  | modeRequest => exact execModeRequest_kept _ _ _ _ h
  | restoreRequest => exact execRestoreRequest_kept _ _ _ _ h
  | mgmtSend => exact execMgmtSend_kept _ _ _ _ h
  | mgmtReturn => exact execMgmtReturn_kept _ _ _ _ h
  | mgmtTimeout => exact execMgmtTimeout_kept _ _ h
  | mgmtReadIdentity => exact execMgmtReadIdentity_kept _ _ h
  | mgmtAssignNumber => exact execMgmtAssignNumber_kept _ _ h
  | mgmtWriteTable => exact execMgmtWriteTable_kept _ _ h
  | mgmtCommit => exact execMgmtCommit_kept _ _ h
  | mgmtReadStatus => exact execMgmtReadStatus_kept _ _ h
  | mgmtReadLinks => exact execMgmtReadLinks_kept _ _ h
  | trackEnable => exact execTrackEnable_kept _ _ _ _ h
  | locusStagingStart => exact execLocusStagingStart_kept _ _ _ h
  | locusReadDone => exact execLocusReadDone_kept _ _ _ h
  | locusPioPush => exact execLocusPioPush_kept _ _ h
  | locusStaged => exact execLocusStaged_kept _ _ h
  | locusDeadlineMiss => exact execLocusDeadlineMiss_kept _ _ _ h
  | swapArm => exact execSwapArm_kept _ _ h
  | swapCancel => exact execSwapCancel_kept _ _ h
  | swapArmTied => exact execSwapArmTied_kept _ _ h
  | trackAbort => exact execTrackAbort_kept _ _ _ _ h
  | latticeEnable => exact execLatticeEnable_kept _ _ _ h
  | helloSend => exact execHelloSend_kept _ _ h
  | helloReceived => exact execHelloReceived_kept _ h
  | neighbourTimeout => exact execNeighbourTimeout_kept _ _ h
  | keeperClaimStale => exact execKeeperClaimStale_kept _ _ h
  | discoveryEnd => exact execDiscoveryEnd_kept _ h
  | joinSend => exact execJoinSend_kept _ h
  | joinRelay => exact execJoinRelay_kept _ h
  | joinReceived => exact execJoinReceived_kept _ h
  | joinGrantReceived => exact execJoinGrantReceived_kept _ h
  | linkReportSend => exact execLinkReportSend_kept _ h
  | linkReportReceived => exact execLinkReportReceived_kept _ h
  | routePartReceived => exact execRoutePartReceived_kept _ h
  | routeHeadTimeout => exact execRouteHeadTimeout_kept _ h
  | latticeFrameForward => exact execLatticeFrameForward_kept _ _ _ _ _ h
  | latticeFrameDelivered => exact execLatticeFrameDelivered_kept _ _ _ h
  | odAccessRequest => exact execOdAccessRequest_kept _ _ h
  | mailboxRelayRequest => exact execMailboxRelayRequest_kept _ _ h
  | logRequest => exact execLogRequest_kept _ h
  | firmwareOffer => exact execFirmwareOffer_kept _ _ _ _ h
  | firmwareBlock => exact execFirmwareBlock_kept _ _ _ h
  | firmwareComplete => exact execFirmwareComplete_kept _ _ _ h
  | configRequest => exact execConfigRequest_kept _ h
  | resetRequest => exact execResetRequest_kept _ _ h
  | sessionRequest => exact execSessionRequest_kept _ _ h
  | serviceAnswerReceived => exact execServiceAnswerReceived_kept _ h
  | requestRepeatTimeout => exact execRequestRepeatTimeout_kept _ _ h
  | answerCacheExpiry => exact execAnswerCacheExpiry_kept _ _ h
  | configPublish => exact execConfigPublish_kept _ _ _ h
  | configFetchComplete => exact execConfigFetchComplete_kept _ h
  | configFetchRetry => exact execConfigFetchRetry_kept _ h
  | keeperForget => exact execKeeperForget_kept _ _ _ h
  | instanceStart => exact execInstanceStart_kept _ _ _ h
  | instanceStartDone => exact execInstanceStartDone_kept _ _ _ h
  | instanceStop => exact execInstanceStop_kept _ _ _ h
  | privateValueAccess => exact execPrivateValueAccess_kept _ _ _ _ h
  | networkOdAccess => exact execNetworkOdAccess_kept _ _ _ _ h
  | modbusValueRead => exact execModbusValueRead_kept _ _ _ h
  | modbusValueCommit => exact execModbusValueCommit_kept _ _ _ _ h
  | canModeWrite => exact execCanModeWrite_kept _ _ _ _ h
  | canIntegrated => exact execCanIntegrated_kept _ _ h
  | canFrameReceived => exact execCanFrameReceived_kept _ _ _ _ _ h
  | canFrameStored => exact execCanFrameStored_kept _ _ h
  | canRxError => exact execCanRxError_kept _ _ _ _ _ _ h
  | canTxRequest => exact execCanTxRequest_kept _ _ _ _ h
  | canTxAttempt => exact execCanTxAttempt_kept _ _ _ _ h
  | canTxSuccess => exact execCanTxSuccess_kept _ _ _ h
  | canTxError => exact execCanTxError_kept _ _ _ _ _ _ _ h
  | canTxAbort => exact execCanTxAbort_kept _ _ _ _ h
  | canLockSet => exact execCanLockSet_kept _ _ _ _ h
  | canLockClear => exact execCanLockClear_kept _ _ _ _ h
  | canShadowPromoted => exact execCanShadowPromoted_kept _ _ _ h
  | canLostClear => exact execCanLostClear_kept _ _ _ _ h
  | canFifoGet => exact execCanFifoGet_kept _ _ _ _ _ h
  | canRecover => exact execCanRecover_kept _ _ _ _ h
  | canBusOffRecovered => exact execCanBusOffRecovered_kept _ _ h
  | pioB => exact execPioB_kept _ _ h
  | pioLoopa => exact execPioLoopa_kept _ _ h
  | pioLoopb => exact execPioLoopb_kept _ _ h
  | pioBc => exact execPioBc_kept _ _ _ h
  | pioDrive => exact execPioDrive_kept _ _ h
  | pioSample => exact execPioSample_kept _ _ _ h
  | pioFetch => exact execPioFetch_kept _ _ h
  | pioStore => exact execPioStore_kept _ _ h
  | pioLoad => exact execPioLoad_kept _ _ h
  | pioAwait => exact execPioAwait_kept _ _ _ h
  | pioFlag => exact execPioFlag_kept _ _ h
  | pioCopy => exact execPioCopy_kept _ _ _ h
  | pioUnpack => exact execPioUnpack_kept _ _ h
  | pioPack => exact execPioPack_kept _ _ h
  | pioNop => exact execPioNop_kept _ _ h
  | pioWaitEnd => exact execPioWaitEnd_kept _ _ _ h
  | pioDelayExpiry => exact execPioDelayExpiry_kept _ _ h
  | pioSmEnable => exact execPioSmEnable_kept _ _ _ _ h
  | pioSmDisable => exact execPioSmDisable_kept _ _ _ _ h
  | pioRestart => exact execPioRestart_kept _ _ _ _ h
  | pioFifoClear => exact execPioFifoClear_kept _ _ _ _ h
  | pioWrapWrite => exact execPioWrapWrite_kept _ _ _ _ h
  | pioSyncApplyArm => exact execPioSyncApplyArm_kept _ _ h
  | pioSyncCancel => exact execPioSyncCancel_kept _ _ h
  | pioSyncApply => exact execPioSyncApply_kept _ h
  | pioFlagSetWrite => exact execPioFlagSetWrite_kept _ _ _ _ h
  | pioFlagClearWrite => exact execPioFlagClearWrite_kept _ _ _ _ h
  | pioTxFifoPush => exact execPioTxFifoPush_kept _ _ _ _ h
  | pioRxFifoPop => exact execPioRxFifoPop_kept _ _ _ h
  | pioDmaEnable => exact execPioDmaEnable_kept _ _ _ _ h
  | pioDmaStop => exact execPioDmaStop_kept _ _ _ _ h
  | pioDmaWord => exact execPioDmaWord_kept _ _ h
  | bankPowerWrite => exact execBankPowerWrite_kept _ _ _ _ h
  | bankTransitionDone => exact execBankTransitionDone_kept _ _ h
  | scrubPassStart => exact execScrubPassStart_kept _ h
  | scrubPassDone => exact execScrubPassDone_kept _ h
  | mboxLockRead => exact execMboxLockRead_kept _ _ _ h
  | mboxLockRelease => exact execMboxLockRelease_kept _ _ _ _ h
  | mboxPost => exact execMboxPost_kept _ _ _ _ _ h
  | mboxDoorbellRead => exact execMboxDoorbellRead_kept _ _ _ h
  | mboxDoorbellClear => exact execMboxDoorbellClear_kept _ _ _ _ h
  | mboxMaskWrite => exact execMboxMaskWrite_kept _ _ _ _ h
  | mboxDiscardZeroed => exact execMboxDiscardZeroed_kept _ _ h
  | pciePerst => exact execPciePerst_kept _ h
  | pcieFlr => exact execPcieFlr_kept _ h
  | pcieLinkDownTimeout => exact execPcieLinkDownTimeout_kept _ h
  | pcieLinkUp => exact execPcieLinkUp_kept _ _ _ _ _ h
  | pcieLinkDown => exact execPcieLinkDown_kept _ h
  | pcieAtomicOp => exact execPcieAtomicOp_kept _ _ _ _ _ h
  | msixUnmask => exact execMsixUnmask_kept _ _ h
  | hostDmaTailWrite => exact execHostDmaTailWrite_kept _ _ _ _ h
  | hostDmaDescriptor => exact execHostDmaDescriptor_kept _ _ _ _ h
  | hostDmaAbort => exact execHostDmaAbort_kept _ _ _ _ _ h
  | qspiReadId => exact execQspiReadId_kept _ h
  | qspiReadStatus => exact execQspiReadStatus_kept _ h
  | qspiRead => exact execQspiRead_kept _ _ _ _ h
  | qspiWrite => exact execQspiWrite_kept _ _ _ h
  | qspiAtomicAdd => exact execQspiAtomicAdd_kept _ _ _ _ h
  | qspiAtomicSwap => exact execQspiAtomicSwap_kept _ _ _ _ h
  | qspiAtomicResult => exact execQspiAtomicResult_kept _ h
  | qspiResetEnable => exact execQspiResetEnable_kept _ h
  | qspiReset => exact execQspiReset_kept _ h
  | qspiUnknownOpcode => exact execQspiUnknownOpcode_kept _ _ h
  | sessionOpen => exact execSessionOpen_kept _ _ h
  | sessionProve => exact execSessionProve_kept _ _ _ h
  | sessionOdAccess => exact execSessionOdAccess_kept _ _ _ h
  | sessionClose => exact execSessionClose_kept _ _ _ h
  | sessionIdleTimeout => exact execSessionIdleTimeout_kept _ _ h
  | hostLoadGo => exact execHostLoadGo_kept _ _ _ h
  | hostLoadVerified => exact execHostLoadVerified_kept _ _ h
  | recordEvent => exact execRecordEvent_kept _ _ _ h
  | recordCommitted => exact execRecordCommitted_kept _ h
  | logScanDone => exact execLogScanDone_kept _ h
  | logClear => exact execLogClear_kept _ _ _ h
  | operatingMinute => exact execOperatingMinute_kept _ h
  | tempSample => exact execTempSample_kept _ _ _ h
  | supplyExcursion => exact execSupplyExcursion_kept _ _ _ h
  | supplyRecovered => exact execSupplyRecovered_kept _ _ _ h
  | paceUpdate => exact execPaceUpdate_kept _ _ h
  | marginRecord => exact execMarginRecord_kept _ h
  | perturbArm => exact execPerturbArm_kept _ _ _ h
  | perturbArmed => exact execPerturbArmed_kept _ h
  | perturbDisarm => exact execPerturbDisarm_kept _ _ _ h
  | testInServiceWrite => exact execTestInServiceWrite_kept _ _ _ _ h
  | testTimeoutExpiry => exact execTestTimeoutExpiry_kept _ h
  | autoDisarmExpiry => exact execAutoDisarmExpiry_kept _ h
  | backpressureSlot => exact execBackpressureSlot_kept _ h
  | symbolInject => exact execSymbolInject_kept _ h
  | jitterDraw => exact execJitterDraw_kept _ h
  | jtagUnlock => exact execJtagUnlock_kept _ _ _ h
  | jtagInstruction => exact execJtagInstruction_kept _ _ h
  | illegalEncoding => exact execIllegalEncoding_kept _ _ h
  | resetNPulseIgnored => exact execResetNPulseIgnored_kept _ h
  | pciePerstRelease => exact execPciePerstRelease_kept _ h
  | serdesLockAcquired => exact execSerdesLockAcquired_kept _ _ h
  | streamGateListOperational => exact execStreamGateListOperational_kept _ _ _ h
  | fdbCommandDone => exact execFdbCommandDone_kept _ h
  | guardTableChecked => exact execGuardTableChecked_kept _ _ h
  | paceWindowEnd => exact execPaceWindowEnd_kept _ _ _ h
  | triggeredHello => exact execTriggeredHello_kept _ _ _ h

end Sys2Proof.Machine
end

