-- ==== Sys2Proof/Laws/LowMore.lean ====
section
/-! SUPPORT. What leaves HOLD_N, its reasons and the reset registers alone, for operations that span units. -/

set_option maxRecDepth 4000
set_option linter.all false

namespace Sys2Proof.Machine

theorem State.perGo_low {s0 : State} (s : State) (n st : Nat) (hc : Low s0 s) : Low s0 (s.perGo n st) := by
  unfold State.perGo
  split
  · exact hc
  · extract_lets z0 z1 z2
    have h0 : Low s0 z0 := State.perEvent_low _ _ _ (State.wr_low _ _ _ _ (by unfold odKey; omega) hc)
    have h1 : Low s0 z1 := low_ite (State.cnt_low _ _ _ (by unfold odKey; omega) (State.perEvent_low _ _ _ h0)) h0
    exact State.perSync_low _ _ (State.setRing_low _ _ _ h1)

theorem State.perOff_low {s0 : State} (s : State) (n : Nat) (hc : Low s0 s) : Low s0 (s.perOff n) := by
  unfold State.perOff
  exact State.setRing_low _ _ _ (State.perGo_low _ _ _ (State.perForget_low _ _ hc))

theorem State.ringReset_low (s : State) (n : Nat) : Low s (s.ringReset n) := by
  unfold State.ringReset
  extract_lets z0 z1 z2 z3
  have h1 : Low s z1 := State.perOff_low s n (low_refl _)
  have h2 : Low s z2 := by
    simp only [z2, List.foldl]
    repeat' first | (with_reducible first | assumption | apply State.dropVolatile_low) | omega
  have h3 : Low s z3 := State.dropVolatile_low _ _ _ (by omega) h2
  exact State.route_low _ _ _ (State.setRing_low _ _ _ h3)

theorem n_low {s t : State} (h : Low s t) {i j : Nat} (h1 : 0x2001 * 256 ≤ odKey i j := by decide) (h2 : odKey i j < 0x2005 * 256 := by decide) : t.n i j = s.n i j := by
  unfold State.n State.rd; rw [h.same _ h1 h2]


theorem State.wokenUnits_low (s : State) : Low s s.wokenUnits := by
  unfold State.wokenUnits
  extract_lets z0 z1 z2
  have h0 : Low s z0 := by
    apply low_foldl _ (low_refl _)
    intro s0 a h
    exact low_ite (State.doRun_low _ _ h) h
  have h1 : Low s z1 := low_foldl (fun s0 d h => State.unsync_low _ _ h) h0
  have h2 : Low s z2 := low_foldl (fun s0 d h => State.bankGo_low _ _ _ h) h1
  apply low_foldl _ h2
  intro s0 a h
  exact low_ite (State.perGo_low _ _ _ h) h

theorem State.quietDown_low {s0 : State} (s : State) (hc : Low s0 s) : Low s0 s.quietDown := by
  unfold State.quietDown
  extract_lets z0 z1
  have h0 : Low s0 z0 := by
    apply low_foldl _ hc
    intro x a h
    exact low_ite (State.setTrkS_low _ _ _ _ (State.setTrack_low _ _ _ h)) h
  have h1 : Low s0 z1 := low_foldl (fun x d h => low_ite (State.perOff_low _ _ h) h) h0
  apply low_foldl _ h1
  intro x a h
  exact low_ite (State.setEngine_low _ _ _ (State.haltPending_low _ _ _ h)) h

end Sys2Proof.Machine
end

