-- ==== Sys2Proof/Tests/Slice0.lean ====
section
/-! SUPPORT. The smoke tests of well-formedness, words and sums that the spec or their standards give, and for each
statement with hypotheses a named witness: concrete states and operands that meet the hypotheses of its clauses. -/

namespace Sys2Proof.Tests

set_option Elab.async false
set_option linter.unusedVariables false
set_option maxRecDepth 100000

open Sys2Proof Sys2Proof.Machine

/-! ### States -/

/-- A secure host path. -/
def P : Path := ⟨34, true⟩

/-- Objects written one after the other. -/
def put (s : State) (l : List (Nat × Nat × Nat)) : State := l.foldl (fun s x => s.wr x.1 x.2.1 x.2.2) s

/-- Bytes of memory written one after the other. -/
def poke (s : State) (l : List (Nat × List Byte)) : State := l.foldl (fun s x => s.setBytes x.1 x.2) s

/-- Supplies and the PLL are good, nothing has started. -/
def base : State := { pw := { aonGood := true, cold := false, pllLocked := true } }

/-- The device in run, HOLD_N released. -/
def live : State := put base [(0x2000, 1, 1), (0x2000, 2, 10), (0x2001, 1, 1), (0x2001, 2, 0)]

/-- Objects written to the device in run. -/
def lv (l : List (Nat × Nat × Nat)) : State := put live l

/-- Bring-live at step `k`. -/
def bring (k : Nat) : State := { put base [(0x2000, 2, k)] with pw := { base.pw with starting := true } }

/-- The engine word with OP, RD, RA and the fields below bit 18 (R145). -/
def word (op rd ra low : Nat) : Word := BitVec.ofNat 32 (op * 2 ^ 26 + rd * 2 ^ 22 + ra * 2 ^ 18 + low)

/-- Core `c` runs and has `w` at word 0 of its code memory. -/
def coded (c : Nat) (w : Word) (g : Engine := {}) : State :=
  { ((live.setCoreState c 1).setPc c 0).setEngine c g with
    mem := (List.range 4).map (fun k => (codeAt c 0 + k, w.extractLsb' (8 * k) 8)) }

/-- An engine image of one `nop` at address `a` (R131). -/
def imaged (s : State) (a : Nat) : State :=
  poke s [(a, [0x01, 0xE0, 0x16, 0x84, 1, 0, 0x05, 0x80, 1]), (a + 0x16, [1, 0]), (a + 0x24, [0x44, 1]),
    (a + 0x28, [0x20, 0x01, 0xbf, 0xb3, 0xe5, 0xda, 0xa8, 0xf8, 0x5e, 0x1e, 0xa6, 0x9f, 0xad, 0x38, 0x03, 0xd1,
      0xa8, 0x2d, 0x31, 0xdb, 0x6a, 0x2b, 0x1e, 0x5e, 0xbf, 0x2e, 0xef, 0x79, 0xbc, 0xa3, 0xc3, 0x9b]),
    (a + 0x100, [0, 0, 0, 0x98])]

/-- Session channel 47 belongs to Apex and holds the message `m`, its doorbell posted (R476, R503). -/
def posted47 (m : List Byte) (l : List (Nat × Nat × Nat)) : State :=
  (poke (lv ([(0x2C3F, 1, 33), (0x2C3F, 4, 2), (0x2C3F, 0xA, 2), (0x2C3F, 0xB, m.length)] ++ l)) [(areaOf 47, m)]).setChan 47
    { crc := crc32c m }

/-- A frame with its good FCS. -/
def sealed (d : List Byte) : List Byte := d ++ leBytes (crc32 d).toNat 4

/-- A frame of `n` bytes of FCS-less data: destination, source, EtherType and zeros. -/
def etherFrame (da sa : List Byte) (et : List Byte) (n : Nat) : List Byte := da ++ sa ++ et ++ List.replicate (n - 14) 0

/-- Port `p` is in the state `g`. -/
def atPort (s : State) (p : Nat) (g : Port) : State := { s with ports := [(p, g)] }

/-- Chord direction `d` is in the state `c`. -/
def atChord (s : State) (d : Nat) (c : Chord) : State := { s with chord := [(d, c)] }

/-- Instance 5 is in the state `g`. -/
def inst5 (s : State) (g : Inst) : State := { s with insts := [(5, g)] }

/-- Direction 15 has a capture of the greatest length to write. -/
def captured : State := atChord live 15 { capture := some (0, 0, [(4080, [])]) }

theorem captured_store : ∀ b < 0x1000, ∃ f, regionOf (captured.chordStore 15 (captured.n (0x2500 + 15) 6) + b) = .store f := by
  rw [show captured.chordStore 15 (captured.n (0x2500 + 15) 6) = 0x0D002000 by decide +kernel]
  intro b hb
  refine ⟨0, ?_⟩
  have h : (0x0D002000 + b - 0x0D000000) / 0x40000 = 0 := by omega
  unfold regionOf
  repeat rw [if_neg (by omega)]
  rw [if_pos (by omega), h]

/-- Ring 3 is in the state `g`. -/
def ring3 (s : State) (g : Ring) : State := { s with rings := [(3, g)] }

/-- Track 15 is in the state `g`. -/
def track15 (s : State) (g : Track) : State := { s with tracks := [(15, g)] }

/-- The device's unique ID is `v`. -/
def withId (s : State) (v : DWord) : State := { s with od := tblIns (odKey 0x2000 8) v s.od }

/-- A Perimeter frame of type `t` from source 1 that waits for its handling. -/
def perGot (t : Nat) (p : List Nib) : PerFrame := { east := false, slot := 0, source := 1, typ := t, payload := p, at' := 0, rim := 0 }

/-- A management request with the bytes `p` waits at ring 3, node 5. -/
def asked (p : List Byte) (l : List (Nat × Nat × Nat)) (g : Ring) : State :=
  ring3 (lv ([(0x2603, 2, 1), (0x2603, 3, 5), (0x2613, 1, 3)] ++ l)) { g with got := some (perGot 5 (nibsOf p)) }

/-- A Lattice frame of type `t` from address 9 to this device. -/
def latMsg (t : Nat) (resp : Bool) (p : List Byte) : LatFrame :=
  { port := 3, mac := 5, typ := t, hop := 1, dest := 0, source := 9, cls := 1, resp := resp, seq := 1, payload := p }

/-- The agent is on and `x` waits for its handling. -/
def latGot (x : LatFrame) (l : List (Nat × Nat × Nat)) (g : Lattice := {}) : State :=
  { lv ((0x2800, 1, 1) :: l) with lat := { g with got := some x } }

/-- A Lattice frame as a port receives it. -/
def latWire (f : List Byte) : List Byte := [2, 0, 0, 0, 0, 7, 2, 0, 0, 0, 0, 9, 0x88, 0xB5] ++ f

/-- Port 3 is a Lattice link of MAC address 7, its link up. -/
def latLinks : List (Nat × Nat × Nat) :=
  [(0x2800, 1, 1), (0x2800, 2, 0x88B5), (0x2800, 3, 8), (0x2800, 4, 0x020000000007), (0x2303, 9, 1)]

theorem tblGet_given (l : List Nat) (a : Nat) (h : a ∈ l) : tblGet (fun _ => 0) a (l.map (fun k => (k, 7))) = 7 := by
  induction l with
  | nil => cases h
  | cons b l ih =>
    by_cases e : b = a
    · simp [tblGet, e]
    · simp [tblGet, e]
      exact ih ((List.mem_cons.mp h).resolve_left fun x => e x.symm)

/-- A keeper whose 1023 addresses are all given. -/
def crowded : State :=
  latGot (latMsg 3 false (beOf 5 8 ++ zeros 2)) [(0x2800, 0xE, 3)]
    { addrs := ((List.range 1023).map (· + 1)).map (fun k => (k, 7)) }

theorem crowded_full : crowded.grantFor 5 0 = 0 := by
  have h : ((List.range 1023).map (· + 1)).find? (fun a => tblGet (fun _ => 0) a crowded.lat.addrs = 0) = none := by
    rw [List.find?_eq_none]
    intro a ha
    rw [show crowded.lat.addrs = ((List.range 1023).map (· + 1)).map (fun k => (k, 7)) from rfl, tblGet_given _ _ ha]
    decide
  simp [State.grantFor, h]

/-- A configuration set of one entry for address 7 with the digest `g` (R386). -/
def setOf (g : List Byte) : List Byte :=
  leBytes 0x84165E75 4 ++ leBytes 1 4 ++ leBytes 1 4 ++ leBytes 1 4 ++ leBytes 1 4 ++ zeros 12 ++ g ++ leBytes 7 2 ++ zeros 14

/-- A request of type `t` waits at the agent in run. -/
def askedLat (t : Nat) (p : List Byte) (l : List (Nat × Nat × Nat)) (g : Lattice := {}) : State :=
  latGot (latMsg t false p) l g

/-- The firmware on offer is the bytes `d` staged at the start of the facet store. -/
def offered (d sha : List Byte) : State :=
  poke (askedLat 7 [] [] { offer := some (d.length, sha, 0x0D000000) }) [(0x0D000000, d)]

/-- CAN controller 3 is in the state `g`. -/
def can3 (s : State) (g : Can) : State := { s with can := [(3, g)] }

/-- A base frame with no data on the bus. -/
def quietFrame : BusFrame :=
  { id := 0, ide := false, rtr := false, dlc := 0, fdf := false, brs := false, esi := false, data := [] }

/-- The PIO instruction of OP and operand (R436). -/
def pw (op arg : Nat) : Half := BitVec.ofNat 16 (op * 4096 + arg)

/-- State machine 31 is enabled and has latched `w`. -/
def pio (w : Half) (l : List (Nat × Nat × Nat)) (g : Sm := {}) : State :=
  { lv ((0x2A03, 1, 0x80) :: l) with sms := [(31, { g with latched := some w })] }

/-! ### Ill-formed commands -/

theorem test_wellFormed_read_no_beat : wellFormed (.mapRead P 0 .b4 0) = false := by decide
theorem test_wellFormed_read_long : wellFormed (.mapRead P 0 .b4 33) = false := by decide
theorem test_wellFormed_read_misaligned : wellFormed (.mapRead P 2 .b4 1) = false := by decide
theorem test_wellFormed_write_empty : wellFormed (.mapWrite P 0 .b4 []) = false := by decide
theorem test_wellFormed_write_long : wellFormed (.mapWrite P 0 .b4 (List.replicate 132 0)) = false := by decide
theorem test_wellFormed_write_part : wellFormed (.mapWrite P 0 .b4 [1]) = false := by decide
theorem test_wellFormed_write_misaligned : wellFormed (.mapWrite P 1 .b4 [1, 2, 3, 4]) = false := by decide
theorem test_wellFormed_reset_sub : wellFormed (.blockResetComplete 1 0) = false := by decide
theorem test_wellFormed_process_data_retries : wellFormed (.processDataRead P 0x2000 1 2) = false := by decide
theorem test_wellFormed_link_width : wellFormed (.pcieLinkUp 3 1 false false) = false := by decide
theorem test_wellFormed_link_speed : wellFormed (.pcieLinkUp 1 0 false false) = false := by decide
theorem test_wellFormed_qspi_short : wellFormed (.qspiRead 0 3 false) = false := by decide
theorem test_wellFormed_record_long : wellFormed (.recordEvent 0x0101 (List.replicate 237 0)) = false := by decide
theorem test_wellFormed_record_class : wellFormed (.recordEvent 0x0A01 []) = false := by decide
theorem test_wellFormed_record_class_zero : wellFormed (.recordEvent 0x0001 []) = false := by decide
theorem test_wellFormed_temperatures : wellFormed (.tempSample [] (List.replicate 11 0)) = false := by decide
theorem test_wellFormed_voltages : wellFormed (.tempSample (List.replicate 4 0) []) = false := by decide
theorem test_wellFormed_pace : wellFormed (.paceUpdate []) = false := by decide
theorem test_wellFormed_accepts : wellFormed (.mapRead P 4 .b4 32) = true := by decide

/-! ### Words and sums the spec gives -/

/-- add r1, r2, r3 (R145): OP 1, RD 1, RA 2, RB 3. -/
theorem test_decode_add : engDecode false 0x0448C000 = some .add := by decide +kernel
theorem test_decode_nop : engDecode false 0x98000000 = some .nop := by decide +kernel
theorem test_decode_halt : engDecode false 0x94000000 = some .halt := by decide +kernel
theorem test_decode_hbeat : engDecode false 0x9C000000 = some .hbeat := by decide +kernel
/-- The word of zeros is no instruction (R146). -/
theorem test_decode_zeros : engDecode false 0 = none := by decide +kernel
/-- The check values of the CRCs over the digits 1 to 9. -/
theorem test_crc32 : crc32 [0x31, 0x32, 0x33, 0x34, 0x35, 0x36, 0x37, 0x38, 0x39] = 0xCBF43926 := by decide +kernel
theorem test_crc32c : crc32c [0x31, 0x32, 0x33, 0x34, 0x35, 0x36, 0x37, 0x38, 0x39] = 0xE3069283 := by decide +kernel
/-- SHA-256 of the three bytes abc, its first byte. -/
theorem test_sha256 : (sha256 [0x61, 0x62, 0x63]).take 4 = [0xBA, 0x78, 0x16, 0xBF] := by decide +kernel

/-! ### The queue -/

theorem test_step_takes_the_front :
    step { live with pending := [.rimPllLockLost, .aonPowerGood] } =
      exec .rimPllLockLost { live with pending := [.aonPowerGood] } := rfl
theorem test_step_idles : step live = .next live := rfl
/-- No command has a word (the table gives no row bits). -/
theorem test_no_words : decodeTableWord 32 0 = none := rfl

/-! ### Witnesses: states and operands that meet the hypotheses of each statement's clauses -/

theorem witness_CommandsLeaveTheQueue :
    (∃ c s t, exec c s = .next t) ∧ ∃ s : State, s.pending = [] :=
  ⟨⟨.vddioPresent 0, live, _, rfl⟩, live, rfl⟩
theorem witness_StepKeepsTheCanonicalForm :
    ∃ s t : State, s.Canonical ∧ step s = .next t ∧ s.pending = [.vddioPresent 0] :=
  ⟨{ live with pending := [.vddioPresent 0] }, _, ⟨by decide +kernel, by decide +kernel⟩, rfl, rfl⟩
theorem witness_EveryStepKeepsTheHoldRule :
    ∃ s t : State, s.HoldRule ∧ s.n 0x2001 1 = 1 ∧ step s = .next t ∧ s.pending = [.resetNFall] :=
  ⟨{ live with pending := [.resetNFall] }, _, fun _ => by decide +kernel, by decide +kernel, rfl, rfl⟩
theorem witness_AccessCommandsReadAndWrite :
    (∃ (p : Path) (a : Word) (z : Size) (s : State), wellFormed (.mapRead p a z 1) = true ∧ inBank a.toNat = true ∧ oneRegion
      a.toNat z.bytes = true ∧ s.coreUp = true ∧ s.dev ≠ 6 ∧ s.ready a.toNat = true ∧ s.hasDbe a.toNat = false ∧ s.hasSbe
      a.toNat = false) ∧
    (∃ (p : Path) (a : Word) (z : Size) (d : List Byte) (s : State), wellFormed (.mapWrite p a z d) = true ∧ d.length =
      z.bytes ∧ inBank a.toNat = true ∧ oneRegion a.toNat z.bytes = true ∧ s.coreUp = true ∧ s.dev ≠ 6 ∧ s.ready a.toNat =
      true ∧ s.mayWrite p (regionOf a.toNat) = true ∧ s.hasDbe a.toNat = false) ∧
    (∃ (p : Path) (i : Half) (j : Byte) (v : DWord) (s : State), s.writeOk p i.toNat j.toNat v.toNat = true ∧ s.effCore p
      i.toNat j.toNat v.toNat = none ∧ s.effRim p i.toNat j.toNat v.toNat = none ∧ isEventStatus i.toNat (j.toNat - 1) =
      false) ∧
    (∃ (p : Path) (i : Half) (j : Byte) (s : State), s.isWide i.toNat j.toNat = true ∧ s.readOk p i.toNat j.toNat = true ∧
      s.rxTaken i.toNat j.toNat = false) ∧
    (∃ (p : Path) (i : Half) (j : Byte) (v : DWord) (s : State), s.isWide i.toNat j.toNat = true ∧ s.readOk p i.toNat j.toNat
      = true ∧ (s.path p).latch = some (odKey i.toNat j.toNat, v)) ∧
    (∃ (p : Path) (i : Half) (j : Byte) (s : State), s.isWide i.toNat j.toNat = true ∧ s.mayStage p i.toNat j.toNat = true) ∧
    (∃ (p : Path) (i : Half) (j : Byte) (lo : Word) (s : State), s.isWide i.toNat j.toNat = true ∧ (s.path p).stage = some
      (odKey i.toNat j.toNat, lo)) ∧
    (∃ (p : Path) (i : Half) (j : Byte) (v : Word) (s : State), isEventStatus i.toNat j.toNat = true ∧ s.writeOk p i.toNat
      j.toNat v.toNat = true ∧ (i.toNat < 0x2F00 ∨ 0x2F30 ≤ i.toNat)) ∧
    (∃ (p : Path) (i : Half) (j : Byte) (s : State) (e off b : Nat), s.readOk p i.toNat j.toNat = true ∧ 0x6000 ≤ i.toNat ∧
      i.toNat < 0xA000 ∧ s.procOffset i.toNat j.toNat = some (e, off) ∧ e < 64 ∧ s.newestBuffer (s.n (0x24C0 + e) 3) (s.w32
      (s.n (0x24C0 + e) 3 + 4)) = some b ∧ s.memc.dbe = []) ∧
    (∃ (p : Path) (f k : Fin 8) (v : Word) (s : State), s.writeOk p (0x2440 + f.val) (1 + k.val) v.toNat = true) :=
  ⟨⟨P, 0x05FFFFF8, .b8, live, by decide +kernel⟩, ⟨P, 0x05FFFFF8, .b8, [1, 2, 3, 4, 5, 6, 7, 8], live, by decide +kernel⟩, ⟨P,
    0x2300, 0x10, 1, live, by decide +kernel⟩, ⟨P, 0x2100, 2, live, by decide +kernel⟩, ⟨P, 0x2100, 2, 5, live.setPath P
    { latch := some (odKey 0x2100 2, 5) }, by decide +kernel⟩, ⟨P, 0x2100, 6, live, by decide +kernel⟩, ⟨P, 0x2100, 6, 1,
    live.setPath P { stage := some (odKey 0x2100 6, 1) }, by decide +kernel⟩, ⟨P, 0x2000, 5, 1, live, by decide +kernel⟩, ⟨P,
    0x6000, 1, { lv [(0x24C0, 1, 0x6000), (0x24C0, 2, 0x6000), (0x24C0, 3, 0x100000)] with mem := [(0x100004, 4)] }, 0, 0, 0,
    by decide +kernel⟩, ⟨P, 0, 0, 1, live, by decide +kernel⟩⟩

theorem witness_RefusedAccessesOnlyCount :
    (∃ (p : Path) (i : Half) (j : Byte) (v : DWord) (s : State), s.writeOk p i.toNat j.toNat v.toNat = false) ∧
    (∃ (p : Path) (i : Half) (j : Byte) (s : State), s.readOk p i.toNat j.toNat = false ∧ s.isWide i.toNat j.toNat = true) :=
  ⟨⟨P, 0x2000, 1, 1, live, by decide +kernel⟩, ⟨⟨1, false⟩, 0x2C30, 8, live, by decide +kernel⟩⟩

theorem witness_AccessCodesBindEveryPath :
    (∃ (p : Path) (i j v : Nat) (s : State) (r : OdRow), s.rowOf i j = some r ∧ s.writeOk p i j v = true ∧ r.acc = .rws) ∧
    (∃ (p : Path) (i j v : Nat) (s : State) (r : OdRow), s.rowOf i j = some r ∧ s.writeOk p i j v = true ∧ r.acc = .sec) ∧
    (∃ (p : Path) (i j v : Nat) (s : State) (r : OdRow), s.rowOf i j = some r ∧ s.writeOk p i j v = true ∧ s.dev = 5) ∧
    (∃ (p : Path) (i j v : Nat) (s : State) (r : OdRow), s.rowOf i j = some r ∧ s.writeOk p i j v = true) ∧
    (∃ (i : Nat) (s : State), s.dev = 4 ∧ recoveryIndex i = false) ∧
    (∃ (i j : Nat) (s : State), s.dev = 6 ∧ ¬ (i = 0x2000 ∧ j = 1)) :=
  ⟨⟨P, 0x2001, 3, 1, live, ⟨0x2001, 1, 1, 3, 3, .u32, .rws, 0, 0xff, [], 1, .plain⟩, by decide +kernel⟩, ⟨⟨34, false⟩, 0x2F5F,
    0x11, 1, live, ⟨0x2f58, 8, 1, 0x11, 0x11, .bool, .sec, 0, 1, [], 1, .plain⟩, by decide +kernel⟩, ⟨P, 0x2001, 4, 1, lv
    [(0x2000, 1, 5)], ⟨0x2001, 1, 1, 4, 4, .bool, .rw, 0, 1, [], 1, .plain⟩, by decide +kernel⟩, ⟨P, 0x2001, 4, 1, live,
    ⟨0x2001, 1, 1, 4, 4, .bool, .rw, 0, 1, [], 1, .plain⟩, by decide +kernel⟩, ⟨0x2100, lv [(0x2000, 1, 4)],
    by decide +kernel⟩, ⟨0x2000, 2, lv [(0x2000, 1, 6)], by decide +kernel⟩⟩

theorem witness_LatchedReadsGiveOneValue :
    ∃ (p : Path) (i : Half) (j : Byte) (s : State), s.isWide i.toNat j.toNat = true ∧ s.readOk p i.toNat j.toNat = true ∧
      s.rxTaken i.toNat j.toNat = false ∧ s.odLive i.toNat j.toNat = none ∧ s.odReadEffect p i.toNat j.toNat = none ∧ i.toNat
      < 0x6000 :=
  ⟨P, 0x2100, 6, live, by decide +kernel⟩

theorem witness_StoreCommandsWriteTheirCopies :
    (∃ (p : Path) (g : Byte) (v : Word) (s : State), s.writeOk p 0x1010 g.toNat v.toNat = true ∧ s.store.spacing = false ∧
      s.store.writing = none) ∧
    (∃ (p : Path) (g : Byte) (v : Word) (s : State), s.writeOk p 0x1011 g.toNat v.toNat = true ∧ s.store.spacing = false ∧
      s.store.writing = none) ∧
    (∃ s : State, s.store.writing = none ∧ s.store.heldSave ≠ [] ∧ s.store.heldRestore = []) ∧
    (∃ (c : ParamCopy) (a : Bool) (r : Nat) (s : State), s.store.writing = some (c, a, r) ∧ s.store.heldSave = [] ∧
      s.store.heldRestore = [] ∧ r < 2 ^ 32) ∧
    (∃ (p : Path) (v : Word) (s : State), s.writeOk p 0x2007 9 v.toNat = true ∧ s.opts.writing = none) ∧
    (∃ (c : OptCopy) (a : Bool) (s : State), s.opts.writing = some (c, a) ∧ s.opts.held = false) ∧
    (∃ (p : Path) (s : State), s.writeOk p 0x2002 3 1 = true ∧ s.mramWritable = true) :=
  ⟨⟨P, 1, 0x65766173, live, by decide +kernel⟩, ⟨P, 4, 0x64616F6C, live, by decide +kernel⟩,
    ⟨{ live with store := { heldSave := [1] } }, by decide +kernel⟩, ⟨{}, true, 4294967295,
    { live with store := { writing := some ({}, true, 4294967295) } }, by decide +kernel⟩, ⟨P, 0x7374706F, live,
    by decide +kernel⟩, ⟨{}, false, { live with opts := { writing := some ({}, false) } }, by decide +kernel⟩, ⟨P, live,
    by decide +kernel⟩⟩

theorem witness_HoldCommandsDriveThePin :
    (∃ (p : Path) (v : Word) (s : State), s.writeOk p 0x2001 1 v.toNat = true ∧ s.dev = 1 ∧ s.n 0x2001 2 = 0) ∧
    (∃ (p : Path) (v : Word) (s : State), s.writeOk p 0x2001 1 v.toNat = true ∧ (s.dev ≠ 1 ∨ s.n 0x2001 2 ≠ 0)) ∧
    (∃ v : Word, v ≠ 0xA55A) ∧
    (∃ (p : Path) (v : Word) (s : State), s.writeOk p 0x2001 1 v.toNat = true ∧ s.dev = 1 ∧ s.n 0x2001 2 = 0) ∧
    (∃ (p : Path) (v : Word) (s : State), s.writeOk p 0x2001 3 v.toNat = true ∧ s.pw.pllLocked = true ∧ s.pw.thermalHeld =
      false ∧ s.n 0x2004 2 = 0 ∧ s.n 0x2004 3 = 0 ∧ s.n 0x2004 4 = 0 ∧ s.n 0x2004 5 = 0) ∧
    (∃ (p : Path) (s : State), s.writeOk p 0x2001 4 1 = true) ∧
    (∃ (p : Path) (s : State), s.writeOk p 0x2001 4 0 = true) :=
  ⟨⟨P, 0xA55A, live, by decide +kernel⟩, ⟨P, 0xA55A, lv [(0x2001, 2, 1)], by decide +kernel⟩, ⟨0, by decide +kernel⟩, ⟨P,
    0xA55A, live, by decide +kernel⟩, ⟨P, 0xFF, live, by decide +kernel⟩, ⟨P, live, by decide +kernel⟩, ⟨P, live,
    by decide +kernel⟩⟩

theorem witness_DeviceResetsReachWhatTheySay_1 :
    (∃ s : State, s.heldInReset = false) ∧
    (∃ s : State, s.pw.aonGood = false ∧ s.pw.coreGood = true ∧ s.pw.resetPin ≠ .accepted ∧ s.pw.thermalHeld = false ∧
      s.pw.starting = false ∧ s.dev = 0) ∧
    (∃ s : State, s.heldInReset = false ∧ s.coreUp = true) ∧
    (∃ s : State, s.pw.aonGood = true ∧ s.pw.coreGood = false ∧ s.pw.resetPin ≠ .accepted ∧ s.pw.thermalHeld = false ∧
      s.pw.starting = false ∧ s.dev = 0) ∧
    (∃ s : State, s.pw.resetPin = .high) ∧
    (∃ s : State, s.pw.resetPin = .judging) ∧
    (∃ s : State, s.pw.resetPin = .judging ∧ s.pw.sleep ≠ .standby ∧ s.heldInReset = false) ∧
    (∃ s : State, s.pw.resetPin = .accepted ∧ s.pw.sleep ≠ .standby ∧ s.pw.aonGood = true ∧ s.pw.coreGood = true ∧
      s.pw.thermalHeld = false ∧ s.pw.starting = false ∧ s.dev = 0) ∧
    (∃ (p : Path) (v : Word) (s : State), s.writeOk p 0x2004 1 v.toNat = true ∧ s.heldInReset = false) ∧
    (∃ (d : BitVec 6) (s : State), d ≠ 0 ∧ s.coreUp = true ∧ s.dev ≠ 6 ∧ s.heldInReset = false) ∧
    (∃ s : State, s.coreUp = true ∧ s.dev ≠ 6 ∧ s.heldInReset = false) ∧
    (∃ s : State, s.sup.watchdog = true ∧ s.coreUp = true ∧ s.dev ≠ 6 ∧ s.heldInReset = false) :=
  ⟨⟨live, by decide +kernel⟩, ⟨State.reset, by decide +kernel⟩, ⟨live, by decide +kernel⟩,
    ⟨{ pw := { aonGood := true, coreGood := false } }, by decide +kernel⟩, ⟨live, by decide +kernel⟩,
    ⟨{ live with pw.resetPin := .judging }, by decide +kernel⟩, ⟨{ live with pw.resetPin := .judging }, by decide +kernel⟩,
    ⟨{ base with pw.resetPin := .accepted }, by decide +kernel⟩, ⟨P, 0x74736572, live, by decide +kernel⟩, ⟨1, live,
    by decide +kernel⟩, ⟨live, by decide +kernel⟩, ⟨{ live with sup := { watchdog := true } }, by decide +kernel⟩⟩

theorem witness_DeviceResetsReachWhatTheySay_2 :
    (∃ s : State, s.coreUp = true ∧ s.heldInReset = false) ∧
    (∃ s : State, s.pw.thermalHeld = true ∧ s.pw.aonGood = true ∧ s.pw.coreGood = true ∧ s.pw.resetPin ≠ .accepted ∧
      s.pw.starting = false ∧ s.dev = 0) :=
  ⟨⟨live, by decide +kernel⟩, ⟨{ base with pw.thermalHeld := true }, by decide +kernel⟩⟩

theorem witness_BlockResetsShowAndHold :
    (∃ (p : Path) (v : Word) (s : State), s.writeOk p 0x2004 2 v.toNat = true) ∧
    (∃ (p : Path) (v : BitVec 8) (s : State), s.writeOk p 0x2004 3 v.toNat = true) ∧
    (∃ (p : Path) (v : BitVec 12) (s : State), s.writeOk p 0x2004 3 (v.toNat * 256) = true) ∧
    (∃ (p : Path) (v : BitVec 4) (s : State), s.writeOk p 0x2004 4 v.toNat = true) ∧
    (∃ (p : Path) (v : BitVec 4) (s : State), s.writeOk p 0x2004 4 (v.toNat * 256) = true) ∧
    (∃ (p : Path) (v : BitVec 4) (s : State), s.writeOk p 0x2004 4 (v.toNat * 65536) = true) ∧
    (∃ (p : Path) (s : State), s.writeOk p 0x2004 5 1 = true) ∧
    (∃ (p : Path) (s : State), s.writeOk p 0x2004 5 2 = true) ∧
    (∃ (p : Path) (v : BitVec 4) (s : State), s.writeOk p 0x2004 5 (v.toNat * 16) = true) ∧
    (∃ (sub : Fin 6) (b : Fin 32) (s : State), s.bit 0x2004 sub b = true) :=
  ⟨⟨P, 0x80000001, live, by decide +kernel⟩, ⟨P, 0x81, live, by decide +kernel⟩, ⟨P, 0x801, live, by decide +kernel⟩, ⟨P, 9,
    live, by decide +kernel⟩, ⟨P, 9, live, by decide +kernel⟩, ⟨P, 9, live, by decide +kernel⟩, ⟨P, live, by decide +kernel⟩,
    ⟨P, live, by decide +kernel⟩, ⟨P, 9, live, by decide +kernel⟩, ⟨5, 7, lv [(0x2004, 5, 0x80)], by decide +kernel⟩⟩

theorem witness_SleepCommandsFollowTheirRules_1 :
    (∃ (p : Path) (s : State), s.writeOk p 0x2008 1 2 = true ∧ s.dev = 1 ∧ s.pw.sleep = .awake) ∧
    (∃ (p : Path) (s : State), s.writeOk p 0x2008 1 3 = true ∧ s.dev = 1 ∧ s.pw.sleep = .awake ∧ s.wakePortsBad = false) ∧
    (∃ (p : Path) (s : State), s.writeOk p 0x2008 1 2 = true ∧ (s.dev = 0 ∨ s.dev = 3 ∨ s.dev = 5 ∨ s.sleepBusy = true)) ∧
    (∃ (p : Path) (s : State), s.writeOk p 0x2008 1 3 = true ∧ (s.dev = 0 ∨ s.dev = 3 ∨ s.dev = 5 ∨ s.sleepBusy = true ∨
      s.wakePortsBad = true)) ∧
    (∃ (p : Path) (s : State), s.writeOk p 0x2008 1 1 = true ∧ s.pw.sleep = .doze) ∧
    (∃ s : State, s.pw.sleep = .toDoze ∧ (∀ b < 96, s.changing b = false) ∧ (∀ e < 32, s.coreState e ≠ 2)) ∧
    (∃ s : State, s.pw.sleep = .waking) ∧
    (∃ s : State, s.pw.sleep = .toStandby) ∧
    (∃ (k : Fin 11) (u : Fin 64) (up : Bool) (s : State), s.wakeSeen k u up = true ∧ s.wakeOn k = true ∧ s.pw.sleep = .doze) ∧
    (∃ (k : Fin 11) (u : Fin 64) (up : Bool) (s : State), s.wakeSeen k u up = true ∧ s.wakeOn k = true ∧ (s.pw.sleep = .toDoze
      ∨ s.pw.sleep = .toStandby ∨ s.pw.sleep = .standby) ∧ s.pw.wakeLatched = none) ∧
    (∃ (k : Nat) (s : State), s.pw.sleep = .standby ∧ s.pw.wakeLatched = some k ∧ k < 256 ∧ s.heldInReset = false) ∧
    (∃ s : State, s.pw.confirmPending = true ∧ (s.n 0x2800 1 = 1 → s.lat.awaitHead = false)) :=
  ⟨⟨P, live, by decide +kernel⟩, ⟨P, live, by decide +kernel⟩, ⟨P, { live with pw.sleep := .waking }, by decide +kernel⟩, ⟨P,
    lv [(0x2008, 3, 7)], by decide +kernel⟩, ⟨P, { live with pw.sleep := .doze }, by decide +kernel⟩,
    ⟨{ live with pw.sleep := .toDoze }, by decide +kernel⟩, ⟨{ live with pw.sleep := .waking }, by decide +kernel⟩,
    ⟨{ live with pw.sleep := .toStandby }, by decide +kernel⟩, ⟨10, 11, true,
    { lv [(0x2008, 2, 0x400), (0x2008, 3, 0x800)] with pw := { live.pw with sleep := .doze } }, by decide +kernel⟩, ⟨8, 0,
    true, { live with pw.sleep := .standby }, by decide +kernel⟩, ⟨255,
    { live with pw := { live.pw with sleep := .standby, wakeLatched := some 255 } }, by decide +kernel⟩,
    ⟨{ live with pw.confirmPending := true }, by decide +kernel⟩⟩

theorem witness_SleepCommandsFollowTheirRules_2 :
    (∃ s : State, s.pw.confirmPending = true) ∧
    (∃ (p : Path) (v : Word) (s : State), s.writeOk p 0x2000 7 v.toNat = true) :=
  ⟨⟨{ live with pw.confirmPending := true }, by decide +kernel⟩, ⟨P, 0, live, by decide +kernel⟩⟩

theorem witness_SuppliesAndPllAct :
    (∃ (b : Fin 6) (s : State), tblGet (fun _ => false) b.val s.pw.vddio = true ∧ b.val ≠ 4) ∧
    (∃ (b : Fin 6) (mv : Half) (s : State), tblGet (fun _ => 0) b.val s.pw.vddioClass = 0 ∧ tblGet (fun _ => false) b.val
      s.pw.vddio = true ∧ classOf mv.toNat ≠ 0) ∧
    (∃ s : State, s.pw.pllLocked = true) ∧
    (∃ s : State, s.coreUp = true ∧ 5 ≤ s.n 0x2000 2) :=
  ⟨⟨5, { live with pw.vddio := [(5, true)] }, by decide +kernel⟩, ⟨5, 3465, { live with pw.vddio := [(5, true)] },
    by decide +kernel⟩, ⟨live, by decide +kernel⟩, ⟨live, by decide +kernel⟩⟩

theorem witness_BringUpGoesStepByStep :
    (∃ (k : Nat) (s : State), s.pw.starting = true ∧ s.hostLoading = false ∧ s.nextStep = k ∧ (k = 1 ∨ k = 3 ∨ k = 4 ∨ k = 5 ∨
      k = 7)) ∧
    (∃ (b : StepInput) (s : State), s.pw.starting = true ∧ s.hostLoading = false ∧ s.nextStep = 2 ∧ b.fuseOk = true) ∧
    (∃ (b : StepInput) (s : State), s.pw.starting = true ∧ s.hostLoading = false ∧ s.nextStep = 2 ∧ b.fuseOk = false ∧ 2 ≤
      s.pw.fuseTries) ∧
    (∃ (b : StepInput) (s : State), s.pw.starting = true ∧ s.hostLoading = false ∧ s.nextStep = 6 ∧ s.n 0x2000 0xA = 0 ∧
      s.pw.cold = false ∧ (b.slotA || b.slotB) = true ∧ s.startInForce.1.1 < s.pw.threshold) ∧
    (∃ s : State, s.pw.starting = true ∧ s.hostLoading = false ∧ s.nextStep = 10 ∧ s.latticeReady = true ∧ s.latState ≠ 4) ∧
    (∃ (p : Path) (v : Word) (s : State), s.writeOk p 0x2F42 2 v.toNat = true) ∧
    (∃ s : State, s.n 0x2F42 3 = 2) ∧
    (∃ s : State, s.n 0x2F42 3 = 2) :=
  ⟨⟨7, bring 6, by decide +kernel⟩, ⟨⟨0, true, true, false, 0⟩, bring 0, by decide +kernel⟩, ⟨⟨0, false, true, false, 0⟩,
    { bring 0 with pw := { (bring 0).pw with fuseTries := 2 } }, by decide +kernel⟩, ⟨⟨0, true, true, false, 0⟩, bring 5,
    by decide +kernel⟩, ⟨bring 9, by decide +kernel⟩, ⟨P, 1, lv [(0x2F42, 3, 1)], by decide +kernel⟩, ⟨lv [(0x2F42, 3, 2)],
    by decide +kernel⟩, ⟨lv [(0x2F42, 3, 2)], by decide +kernel⟩⟩

theorem witness_EngineCommandsMoveTheState_1 :
    (∃ (p : Path) (e : Fin 32) (s : State), s.writeOk p (0x2400 + e.val) 2 1 = true ∧ (s.coreState e = 0 ∨ s.coreState e = 3)
      ∧ (s.engine e).needReload = false) ∧
    (∃ (p : Path) (e : Fin 32) (s : State), s.writeOk p (0x2400 + e.val) 2 3 = true ∧ (s.coreState e = 0 ∨ s.coreState e = 3)
      ∧ (s.engine e).needReload = false) ∧
    (∃ (p : Path) (e : Fin 32) (s : State), s.writeOk p (0x2400 + e.val) 2 2 = true ∧ s.coreState e = 1) ∧
    (∃ (p : Path) (e : Fin 32) (s : State), s.writeOk p (0x2400 + e.val) 2 4 = true ∧ (s.coreState e = 0 ∨ s.coreState e = 3)
      ∧ s.n (0x2400 + e.val) 3 ≠ 0) ∧
    (∃ (p : Path) (e : Fin 32) (s : State), s.writeOk p (0x2400 + e.val) 2 4 = true ∧ (s.coreState e = 1 ∨ s.coreState e = 2)) ∧
    (∃ (p : Path) (e : Fin 32) (s : State), s.writeOk p (0x2400 + e.val) 2 1 = true ∧ (s.coreState e = 1 ∨ s.coreState e = 4)) ∧
    (∃ (p : Path) (e : Fin 32) (s : State), s.writeOk p (0x2400 + e.val) 2 3 = true ∧ (s.coreState e = 1 ∨ s.coreState e = 4)) ∧
    (∃ (p : Path) (e : Fin 32) (s : State), s.writeOk p (0x2400 + e.val) 2 2 = true ∧ (s.coreState e = 0 ∨ s.coreState e = 4)) ∧
    (∃ (p : Path) (e : Fin 32) (s : State), s.writeOk p (0x2400 + e.val) 2 4 = true ∧ s.coreState e = 4) ∧
    (∃ (e : Fin 32) (s : State), s.coreState e = 2 ∧ (s.engine e).posted = [] ∧ (s.engine e).waiting = .none ∧ (s.engine
      e).haltWhy < 256) ∧
    (∃ (e : Fin 32) (s : State), s.n (0x2400 + e.val) 9 ≠ 0 ∧ s.coreState e = 1 ∧ s.n (0x2400 + e.val) 0xA = 0) ∧
    (∃ (e : Fin 32) (s : State), s.n (0x2400 + e.val) 9 ≠ 0 ∧ s.coreState e = 1 ∧ s.n (0x2400 + e.val) 0xA = 1) :=
  ⟨⟨P, 31, live, by decide +kernel⟩, ⟨P, 31, lv [(0x241F, 1, 3)], by decide +kernel⟩, ⟨P, 31, lv [(0x241F, 1, 1)],
    by decide +kernel⟩, ⟨P, 31, lv [(0x241F, 3, 5)], by decide +kernel⟩, ⟨P, 31, lv [(0x241F, 1, 2)], by decide +kernel⟩, ⟨P,
    31, lv [(0x241F, 1, 4)], by decide +kernel⟩, ⟨P, 31, lv [(0x241F, 1, 4)], by decide +kernel⟩, ⟨P, 31, lv [(0x241F, 1, 4)],
    by decide +kernel⟩, ⟨P, 31, lv [(0x241F, 1, 4)], by decide +kernel⟩, ⟨31, lv [(0x241F, 1, 2)], by decide +kernel⟩, ⟨31, lv
    [(0x241F, 9, 1), (0x241F, 1, 1)], by decide +kernel⟩, ⟨31, lv [(0x241F, 9, 1), (0x241F, 1, 1), (0x241F, 0xA, 1)],
    by decide +kernel⟩⟩

theorem witness_EngineCommandsMoveTheState_2 :
    ∃ (f : Fin 8) (s : State), s.n (0x2440 + f.val) 0x15 = 1 ∧ s.bit 0x2003 5 f = true ∧ (s.engine (4 * f.val)).needReload =
      true ∧ s.n (0x2400 + 4 * f.val) 3 ≠ 0 ∧ s.coreState (4 * f.val) = 0 :=
  ⟨7, (lv [(0x2447, 0x15, 1), (0x2003, 5, 0x80), (0x241C, 3, 1)]).setEngine 28 { needReload := true }, by decide +kernel⟩

theorem witness_ImagesAreInstalledAndLoaded :
    (∃ (p : Path) (e : Fin 32) (s : State), s.writeOk p (0x2400 + e.val) 2 1 = true ∧ (s.engine e).needReload = true) ∧
    (∃ (p : Path) (s : State), s.writeOk p 0x2480 5 1 = true) ∧
    (∃ (p : Path) (s : State), s.writeOk p 0x2480 5 2 = true) ∧
    (∃ (m : Nat) (s : State), s.lib.busy = some (true, m)) ∧
    (∃ (m d q : Nat) (s : State), let a := s.n 0x2480 3; let h := s.imageHead a; s.lib.busy = some (true, m) ∧ inBankOrStore a
      = true ∧ s.imageFormat a = true ∧ h.total = s.n 0x2480 4 ∧ s.imageDigest a = true ∧ (∀ d < 32, s.n (0x2481 + d) 1 = h.id
      → s.n (0x2481 + d) 6 ≤ h.rollback) ∧ (List.range 32).find? (fun d => !s.dirUsed d) = some d ∧ (List.range 384).find?
      (fun q => freeRun s.imagePages ((h.total + 4095) / 4096) q = (h.total + 4095) / 4096) = some q) ∧
    (∃ (m d : Nat) (s : State), s.lib.busy = some (false, m) ∧ (∀ e < 32, s.n (0x2400 + e) 3 = s.n 0x2480 6 → s.coreState e =
      0) ∧ s.findImage (s.n 0x2480 6) = some d ∧ d < 32) ∧
    (∃ (e : Fin 32) (d : Nat) (s : State), s.coreState e = 4 ∧ s.findImage (s.n (0x2400 + e.val) 3) = some d ∧ d < 32 ∧
      s.imageFormat (s.n (0x2481 + d) 4) = true ∧ s.imageDigest (s.n (0x2481 + d) 4) = true) ∧
    (∃ (e : Fin 32) (s : State), s.coreState e = 4 ∧ s.findImage (s.n (0x2400 + e.val) 3) = none) :=
  ⟨⟨P, 31, live.setEngine 31 { needReload := true }, by decide +kernel⟩, ⟨P, live, by decide +kernel⟩, ⟨P, live,
    by decide +kernel⟩, ⟨33, { live with lib.busy := some (true, 33) }, by decide +kernel⟩, ⟨33, 0, 0,
    { imaged (lv [(0x2480, 3, 0x100000), (0x2480, 4, 0x144)]) 0x100000 with lib.busy := some (true, 33) }, by decide +kernel⟩,
    ⟨33, 31, { lv [(0x24A0, 1, 5), (0x2480, 6, 5)] with lib.busy := some (false, 33) }, by decide +kernel⟩, ⟨31, 31, imaged
    (lv [(0x241F, 1, 4), (0x241F, 3, 0x8005), (0x24A0, 1, 0x8005), (0x24A0, 4, 0x8080000)]) 0x8080000, by decide +kernel⟩,
    ⟨31, lv [(0x241F, 1, 4)], by decide +kernel⟩⟩

theorem witness_SumsAndDifferencesSetEveryFlag :
    ∀ x ∈ ([(.add, 0x0448C000), (.addi, word 0x2 1 2 0x20000), (.adc, word 0x4 1 2 0xc000), (.sub, word 0x3 1 2 0xc000),
      (.sbc, word 0x5 1 2 0xc000), (.neg, word 0x13 1 2 6), (.cmp, word 0xC 0 2 0xc000), (.cmpi, word 0xD 0 2 7), (.mul, word
      0xE 1 2 0xc000)] : List (EOp × Word)), Executes (coded 0 x.2) 0 x.1 x.2 :=
  by unfold Executes; decide +kernel

theorem witness_LogicAndMovesKeepCarry :
    ∀ x ∈ ([(.andR, word 0x6 1 2 0xc000), (.andi, word 0x7 1 2 0x3ffff), (.orR, word 0x8 1 2 0xc000), (.ori, word 0x9 1 2
      0x3ffff), (.xor, word 0xA 1 2 0xc000), (.xori, word 0xB 1 2 1), (.notR, word 0x13 1 2 5), (.sext8, word 0x13 1 2 7),
      (.sext16, word 0x13 1 2 8), (.movi, word 0x1C 1 0 0x20000), (.lui, word 0xF 1 0 9)] : List (EOp × Word)), Executes
      (coded 0 x.2) 0 x.1 x.2 :=
  by unfold Executes; decide +kernel

theorem witness_ShiftsAndFieldsPlaceEveryBit :
    ∀ x ∈ ([(.shl, word 0x10 1 2 0xc000), (.shr, word 0x10 1 2 0xd000), (.sar, word 0x10 1 2 0xe000), (.ror, word 0x10 1 2
      0x381f), (.ext, word 0x11 1 2 0x3e000), (.ins, word 0x12 1 2 0x1f00), (.nswap, word 0x13 1 2 0), (.bswap16, word 0x13 1
      2 1), (.bswap32, word 0x13 1 2 2), (.clz, word 0x13 1 2 3), (.popc, word 0x13 1 2 4)] : List (EOp × Word)), Executes
      (coded 0 x.2) 0 x.1 x.2 :=
  by unfold Executes; decide +kernel

theorem witness_ConditionsAfterACompareMeanTheirNames :
    (∃ w : Word, opOf w = 0x20 ∧ rdOf w = 15) ∧
    (∃ (c : Fin 33) (s : State) (w : Word), Executes s c .bCond w ∧ (s.engine c).cond (rdOf w) = true ∧ InCode s c (brTarget w
      (s.pc c))) ∧
    (∃ (c : Fin 33) (s : State) (w : Word), Executes s c .bCond w ∧ (s.engine c).cond (rdOf w) = false) :=
  ⟨⟨word 0x20 15 0 0, by decide +kernel⟩, ⟨0, coded 0 (word 0x20 1 0 5) { z := true }, word 0x20 1 0 5,
    by unfold Executes InCode; decide +kernel⟩, ⟨0, coded 0 (word 0x20 1 0 5), word 0x20 1 0 5,
    by unfold Executes; decide +kernel⟩⟩

theorem witness_ControlInstructionsGoWhereTheySay :
    (∀ x ∈ ([(.nop, 0x98000000), (.hbeat, 0x9C000000)] : List (EOp × Word)), Executes (coded 0 x.2) 0 x.1 x.2) ∧
    (∃ (c : Fin 33) (s : State) (w : Word), let x := brTarget w (s.pc c); Executes s c .call w ∧ InCode s c x) ∧
    (∃ (c : Fin 33) (s : State) (w : Word), let g := s.engine c; let a := g.reg (raOf w); Executes s c .jr w ∧ InCode s c
      a.toNat) ∧
    (∃ (c : Fin 33) (s : State) (w : Word), let g := s.engine c; let a := g.reg (raOf w); Executes s c .callr w ∧ InCode s c
      a.toNat) ∧
    (∃ (c : Fin 33) (s : State) (w : Word), let g := s.engine c; let x := brTarget w (s.pc c); Executes s c .cbz w ∧ g.reg
      (rdOf w) = 0 ∧ InCode s c x) ∧
    (∃ (c : Fin 33) (s : State) (w : Word), let g := s.engine c; Executes s c .cbz w ∧ g.reg (rdOf w) ≠ 0) ∧
    (∃ (c : Fin 33) (s : State) (w : Word), let g := s.engine c; let x := brTarget w (s.pc c); Executes s c .cbnz w ∧ g.reg
      (rdOf w) ≠ 0 ∧ InCode s c x) ∧
    (∃ (c : Fin 33) (s : State) (w : Word), let g := s.engine c; Executes s c .cbnz w ∧ g.reg (rdOf w) = 0) ∧
    (∃ (c : Fin 33) (s : State) (w : Word), let g := s.engine c; Executes s c .halt w ∧ g.posted = []) ∧
    (∃ (c : Fin 33) (s : State) (w : Word), let g := s.engine c; Executes s c .halt w ∧ g.posted ≠ []) ∧
    (∃ (c : Fin 33) (s : State), let g := s.engine c; s.coreState c = 1 ∧ g.waiting = .none ∧ s.pc c < 0x1_0000 ∧ s.pcOk c
      (s.pc c) = true ∧ s.hasDbe (codeAt c (s.pc c)) = false ∧ engDecode (c = 32) (s.insn c) = none) ∧
    (∃ (c : Fin 33) (s : State), let g := s.engine c; s.coreState c = 1 ∧ g.waiting = .none ∧ s.pc c < 0x1_0000 ∧ s.pcOk c
      (s.pc c) = false) :=
  ⟨by unfold Executes; decide +kernel, ⟨0, coded 0 (word 0x21 0 0 0x1fff), word 0x21 0 0 0x1fff,
    by unfold Executes InCode; decide +kernel⟩, ⟨0, coded 0 (word 0x22 0 1 0) { regs := [(1, 8191)] }, word 0x22 0 1 0,
    by unfold Executes InCode; decide +kernel⟩, ⟨0, coded 0 (word 0x22 0 1 1), word 0x22 0 1 1,
    by unfold Executes InCode; decide +kernel⟩, ⟨0, coded 0 (word 0x23 1 0 0x1fff), word 0x23 1 0 0x1fff,
    by unfold Executes InCode; decide +kernel⟩, ⟨0, coded 0 (word 0x23 1 0 0x1fff) { regs := [(1, 1)] }, word 0x23 1 0 0x1fff,
    by unfold Executes; decide +kernel⟩, ⟨0, coded 0 (word 0x24 1 0 0x1fff) { regs := [(1, 1)] }, word 0x24 1 0 0x1fff,
    by unfold Executes InCode; decide +kernel⟩, ⟨0, coded 0 (word 0x24 1 0 0x1fff), word 0x24 1 0 0x1fff,
    by unfold Executes; decide +kernel⟩, ⟨0, coded 0 (0x94000000), 0x94000000, by unfold Executes; decide +kernel⟩, ⟨0, coded
    0 (0x94000000) { posted := [⟨true, 0, [0]⟩] }, 0x94000000, by unfold Executes; decide +kernel⟩, ⟨0, coded 0 0,
    by decide +kernel⟩, ⟨0, (coded 0 0).setPc 0 8192, by decide +kernel⟩⟩

theorem witness_LoadsStoresAndAtomicsMoveTheirBytes_1 :
    (∃ (c : Fin 33) (s : State) (w : Word), let g := s.engine c; let a := g.memAddr w; let k := 2 ^ szOf w; Executes s c .ldl
      w ∧ a % k = 0 ∧ a < localSize c ∧ Clean s c (localAt c + a)) ∧
    (∃ (c : Fin 33) (s : State) (w : Word), let g := s.engine c; let a := g.memAddr w; let k := 2 ^ szOf w; Executes s c .ldf
      w ∧ a % k = 0 ∧ a < 0x4_0000 ∧ Clean s c (facetAt c + a)) ∧
    (∃ (c : Fin 33) (s : State) (w : Word), let g := s.engine c; let a := g.memAddr w; let k := 2 ^ szOf w; Executes s c .ldx
      w ∧ a % k = 0 ∧ PlainMemory a ∧ s.ready a = true ∧ Clean s c a) ∧
    (∃ (c : Fin 33) (s : State) (w : Word), let g := s.engine c; let a := g.memAddr w; let k := 2 ^ szOf w; Executes s c .stl
      w ∧ a % k = 0 ∧ a < localSize c ∧ Clean s c (localAt c + a)) ∧
    (∃ (c : Fin 33) (s : State) (w : Word), let g := s.engine c; let a := g.memAddr w; let k := 2 ^ szOf w; Executes s c .stf
      w ∧ a % k = 0 ∧ a < 0x4_0000 ∧ g.posted.length < 8) ∧
    (∃ (c : Fin 33) (s : State) (w : Word), let g := s.engine c; let a := g.memAddr w; let k := 2 ^ szOf w; Executes s c .stx
      w ∧ a % k = 0 ∧ s.ready a = true ∧ g.posted.length < 8) ∧
    (∃ (c : Fin 33) (s : State) (w : Word), let g := s.engine c; let a := g.memAddr w; let k := 2 ^ szOf w; Executes s c .stx
      w ∧ a % k = 0 ∧ 8 ≤ g.posted.length) ∧
    (∃ (c : Fin 33) (s : State) (w : Word), let g := s.engine c; Executes s c .fence w ∧ g.posted = []) ∧
    (∃ (c : Fin 33) (s : State) (w : Word), let g := s.engine c; Executes s c .fence w ∧ g.posted ≠ []) ∧
    (∃ (c : Fin 33) (s : State), let g := s.engine c; ∃ (p : Posted) (l : List Posted), g.posted = p :: l ∧ (∃ f, regionOf
      p.addr = .store f) ∧ s.hasDbe p.addr = false ∧ p.data.length < 8) ∧
    (∃ (c : Fin 33) (s : State) (w : Word), let g := s.engine c; let a := (g.reg (raOf w)).toNat;
      let k := if w.getLsbD 11 then 8 else 4; Executes s c .faddF w ∧ a % k = 0 ∧ a < 0x4_0000 ∧ Clean s c (facetAt c + a)) ∧
    (∃ (c : Fin 33) (s : State) (w : Word), let g := s.engine c; let a := (g.reg (raOf w)).toNat;
      let k := if w.getLsbD 11 then 8 else 4; Executes s c .swapF w ∧ a % k = 0 ∧ a < 0x4_0000 ∧ Clean s c (facetAt c + a)) :=
  ⟨⟨0, coded 0 (word 0x14 2 1 0x33ff8), word 0x14 2 1 0x33ff8, by unfold Executes Clean; decide +kernel⟩, ⟨0, coded 0 (word
    0x16 2 1 0x27ffc), word 0x16 2 1 0x27ffc, by unfold Executes Clean; decide +kernel⟩, ⟨0, coded 0 (word 0x18 2 1 0x30000),
    word 0x18 2 1 0x30000, by unfold Executes; decide +kernel, by decide +kernel, Or.inl ⟨0, by decide +kernel⟩,
    by decide +kernel, by unfold Clean; decide +kernel⟩, ⟨0, coded 0 (word 0x15 2 1 0x33ff8), word 0x15 2 1 0x33ff8,
    by unfold Executes Clean; decide +kernel⟩, ⟨0, coded 0 (word 0x17 2 1 0x27ffc)
    { posted := List.replicate 7 ⟨true, 0, [0]⟩ }, word 0x17 2 1 0x27ffc, by unfold Executes; decide +kernel⟩, ⟨0, coded 0
    (word 0x19 2 1 0x30000) { posted := List.replicate 7 ⟨true, 0, [0]⟩ }, word 0x19 2 1 0x30000,
    by unfold Executes; decide +kernel⟩, ⟨0, coded 0 (word 0x19 2 1 0x30000) { posted := List.replicate 8 ⟨true, 0, [0]⟩ },
    word 0x19 2 1 0x30000, by unfold Executes; decide +kernel⟩, ⟨0, coded 0 (word 0x1B 0 0 0), word 0x1B 0 0 0,
    by unfold Executes; decide +kernel⟩, ⟨0, coded 0 (word 0x1B 0 0 0) { posted := [⟨true, 0, [0]⟩] }, word 0x1B 0 0 0,
    by unfold Executes; decide +kernel⟩, ⟨0, coded 0 0 { posted := [⟨true, 0x0D000000, [0]⟩] }, ⟨true, 0x0D000000, [0]⟩, [],
    by decide +kernel, ⟨0, by decide +kernel⟩, by decide +kernel, by decide +kernel⟩, ⟨0, coded 0 (word 0x1A 2 1 0), word 0x1A
    2 1 0, by unfold Executes Clean; decide +kernel⟩, ⟨0, coded 0 (word 0x1A 2 1 0x11800), word 0x1A 2 1 0x11800,
    by unfold Executes Clean; decide +kernel⟩⟩

theorem witness_LoadsStoresAndAtomicsMoveTheirBytes_2 :
    (∃ (c : Fin 33) (s : State) (w : Word) (f : Nat), let g := s.engine c; let a := (g.reg (raOf w)).toNat;
      let k := if w.getLsbD 11 then 8 else 4; Executes s c .faddX w ∧ a % k = 0 ∧ regionOf a = .store f ∧ Clean s c a) ∧
    (∃ (c : Fin 33) (s : State) (w : Word) (f : Nat), let g := s.engine c; let a := (g.reg (raOf w)).toNat;
      let k := if w.getLsbD 11 then 8 else 4; Executes s c .swapX w ∧ a % k = 0 ∧ regionOf a = .store f ∧ Clean s c a) :=
  ⟨⟨0, coded 0 (word 0x1A 2 1 0x12000) { regs := [(1, 0x0D000000)] }, word 0x1A 2 1 0x12000, 0,
    by unfold Executes Clean; decide +kernel⟩, ⟨0, coded 0 (word 0x1A 2 1 0x13800) { regs := [(1, 0x0D1FFFF8)] }, word 0x1A 2
    1 0x13800, 7, by unfold Executes Clean; decide +kernel⟩⟩

theorem witness_ReceiveInstructionsReadTheLane :
    (∃ (c : Fin 33) (s : State) (w : Word) (l : List Nib), let g := s.engine c; let n := laneN w; Executes s c .take w ∧
      g.rxFree = true ∧ g.window 0 n = some l) ∧
    (∃ (c : Fin 33) (s : State) (w : Word) (l : List Nib), let g := s.engine c; let n := laneN w; Executes s c .peek w ∧
      g.rxFree = true ∧ g.window (laneOff w) n = some l) ∧
    (∃ (c : Fin 33) (s : State) (w : Word) (l : List Nib), let g := s.engine c; let n := laneN w; Executes s c .matchL w ∧
      g.rxFree = true ∧ g.window (laneOff w) n = some l) ∧
    (∃ (c : Fin 33) (s : State) (w : Word) (l : List Nib) (r : List LaneItem), let g := s.engine c; Executes s c .skip w ∧
      g.rxDiscard = .off ∧ g.rx = l.map LaneItem.nib ++ r ∧ l.length = w.toNat % 4096 ∧ l ≠ []) ∧
    (∃ (c : Fin 33) (s : State) (w : Word) (l : List Nib) (r : List LaneItem) (v : Word), let g := s.engine c; Executes s c
      .skipf w ∧ g.rx = l.map LaneItem.nib ++ LaneItem.fin v :: r) ∧
    (∃ (c : Fin 33) (s : State) (w : Word) (r : List LaneItem) (v : Word), let g := s.engine c; Executes s c .mark w ∧
      g.rxFree = true ∧ g.rx = LaneItem.start v :: r) ∧
    (∃ (c : Fin 33) (s : State) (w : Word) (r : List LaneItem) (v : Word), let g := s.engine c; Executes s c .mark w ∧
      g.rxFree = true ∧ g.rx = LaneItem.fin v :: r) ∧
    (∃ (c : Fin 33) (s : State) (w : Word), let g := s.engine c; let n := laneN w; Executes s c .take w ∧ g.rxFree = true ∧
      g.window 0 n = none) :=
  ⟨⟨0, coded 0 (word 0x28 1 0 0x3800)
    { rxBound := 1, rx := [.nib 0, .nib 1, .nib 2, .nib 3, .nib 4, .nib 5, .nib 6, .nib 7] }, word 0x28 1 0 0x3800, [0, 1, 2,
    3, 4, 5, 6, 7], by unfold Executes; decide +kernel⟩, ⟨0, coded 0 (word 0x29 1 0 0x3f80)
    { rxBound := 1, rx := (List.range 128).map (fun k => .nib (BitVec.ofNat 4 k)) }, word 0x29 1 0 0x3f80, [8, 9, 10, 11, 12,
    13, 14, 15], by unfold Executes; decide +kernel⟩, ⟨0, coded 0 (word 0x2C 0 1 0x8000)
    { rxBound := 1, rx := [.nib 3, .fin 0] }, word 0x2C 0 1 0x8000, [3], by unfold Executes; decide +kernel⟩, ⟨0, coded 0
    (word 0x2A 0 0 2) { rxBound := 1, rx := [.nib 3, .nib 4] }, word 0x2A 0 0 2, [3, 4], [],
    by unfold Executes; decide +kernel⟩, ⟨0, coded 0 (word 0x2D 0 0 1) { rxBound := 1, rx := [.nib 3, .fin 7] }, word 0x2D 0 0
    1, [3], [], 7, by unfold Executes; decide +kernel⟩, ⟨0, coded 0 (word 0x2D 1 0 0) { rxBound := 1, rx := [.start 9] }, word
    0x2D 1 0 0, [], 9, by unfold Executes; decide +kernel⟩, ⟨0, coded 0 (word 0x2D 1 0 0) { rxBound := 1, rx := [.fin 9] },
    word 0x2D 1 0 0, [], 9, by unfold Executes; decide +kernel⟩, ⟨0, coded 0 (word 0x28 1 0 0x3800)
    { rxBound := 1, rx := [.nib 0] }, word 0x28 1 0 0x3800, by unfold Executes; decide +kernel⟩⟩

theorem witness_TransmitAndCrcInstructionsAct :
    (∀ x ∈ ([(.lstat, word 0x2D 1 0 3), (.crcInit, word 0x2E 0 1 0x30), (.crcRead, word 0x2E 1 0 2), (.crcWrite, word 0x2E 0 1
      3), (.crcTap, word 0x2E 0 0 0x24)] : List (EOp × Word)), Executes (coded 0 x.2) 0 x.1 x.2) ∧
    (∃ (c : Fin 33) (s : State) (w : Word), let g := s.engine c; Executes s c .give w ∧ g.posted = [] ∧ g.txDrop = false ∧
      g.txOn = false ∧ g.crcTap ≠ 2 ∧ txCount g.tx + laneN w ≤ 128) ∧
    (∃ (c : Fin 33) (s : State) (w : Word), let g := s.engine c; Executes s c .gend w ∧ g.txDrop = false ∧ g.txOn = false ∧
      laneOff w = 0 ∧ txCount g.tx < 128) ∧
    (∃ (c : Fin 33) (s : State) (w : Word), let g := s.engine c; Executes s c .crcFold w ∧ (g.crcPoly ≠ 3 ∨ laneN w % 2 = 0)) :=
  ⟨by unfold Executes; decide +kernel, ⟨0, coded 0 (word 0x2B 0 1 0x3800) { tx := List.replicate 120 (.nib 0) }, word 0x2B 0 1
    0x3800, by unfold Executes; decide +kernel⟩, ⟨0, coded 0 (word 0x2D 0 0 2) { tx := List.replicate 127 (.nib 0) }, word
    0x2D 0 0 2, by unfold Executes; decide +kernel⟩, ⟨0, coded 0 (word 0x2E 0 1 0x3801) { crcPoly := 3 }, word 0x2E 0 1
    0x3801, by unfold Executes; decide +kernel⟩⟩

theorem witness_LanesCarryFrames :
    (∃ (e : Fin 32) (nibs : List Nib) (s : State), fieldOf (s.engine e).rxBound 0 5 ≠ 0 ∧ (s.engine e).rxDiscard = .off ∧
      nibCount (s.engine e).rx + nibs.length ≤ 128) ∧
    (∃ (e : Fin 32) (s : State), fieldOf (s.engine e).rxBound 0 5 = 0) ∧
    (∃ (e : Fin 32) (s : State), (s.engine e).txOn = true ∧ (s.engine e).tx = []) ∧
    (∃ (e : Fin 32) (s : State), (s.engine e).txOn = false) :=
  ⟨⟨31, [1], live.setEngine 31 { rxBound := 1, rx := List.replicate 127 (.nib 0) }, by decide +kernel⟩, ⟨31, live,
    by decide +kernel⟩, ⟨31, live.setEngine 31 { txOn := true }, by decide +kernel⟩, ⟨31, live, by decide +kernel⟩⟩

theorem witness_TimeAndEventInstructionsAct :
    (∃ (c : Fin 33) (dt : Nat) (s0 : State) (w : Word), let s := s0.advance dt; Executes s c .time w) ∧
    (∃ (c : Fin 33) (s0 : State) (w : Word), Executes s0 c .timeh w) ∧
    (∃ (c : Fin 33) (dt : Nat) (s0 : State) (w : Word), let s := s0.advance dt; let g := s.engine c; let d := w.toNat % 4;
      Executes s c .twait w ∧ isDue (s.now32 d) (g.reg (raOf w)).toNat = true) ∧
    (∃ (c : Fin 33) (dt : Nat) (s0 : State) (w : Word), let s := s0.advance dt; let g := s.engine c; let d := w.toNat % 4;
      Executes s c .twait w ∧ isDue (s.now32 d) (g.reg (raOf w)).toNat = false) ∧
    (∃ (c : Fin 33) (s0 : State) (w : Word), Executes s0 c .ewait w ∧ s0.evpUnder c w ≠ 0) ∧
    (∃ (c : Fin 33) (s0 : State) (w : Word), Executes s0 c .ewait w ∧ s0.evpUnder c w = 0) ∧
    (∃ (c : Fin 33) (dt : Nat) (s0 : State) (w : Word), let s := s0.advance dt; let g := s.engine c; Executes s c .ewaitT w ∧
      s.evpUnder c w = 0 ∧ isDue (s.now32 (w.toNat / 4 % 4)) (g.reg (rbOf w)).toNat = true) ∧
    (∃ (c : Fin 33) (s0 : State) (w : Word), Executes s0 c .epoll w) ∧
    (∃ (c : Fin 33) (dt : Nat) (s0 : State), let s := s0.advance dt; let g := s.engine c; (s.engine c).waiting = .time ∧
      s.coreState c = 1 ∧ s.pc c < 0x1_0000 ∧ engDecode (c.val = 32) (s.insn c) = some .twait ∧ isDue (s.now32 (fieldOf (fnOf
      (s.insn c)) 0 2)) (g.ra (s.insn c)).toNat = true) :=
  ⟨⟨0, 1, coded 0 (word 0x30 1 0 3), word 0x30 1 0 3, by unfold Executes; decide +kernel⟩, ⟨0, coded 0 (word 0x30 1 0 7), word
    0x30 1 0 7, by unfold Executes; decide +kernel⟩, ⟨0, 1, coded 0 (word 0x31 0 1 3), word 0x31 0 1 3,
    by unfold Executes; decide +kernel⟩, ⟨0, 1, coded 0 (word 0x31 0 1 3) { regs := [(1, 100)] }, word 0x31 0 1 3,
    by unfold Executes; decide +kernel⟩, ⟨0, coded 0 (word 0x32 1 2 1) { regs := [(2, 1)], evp := 0x100000000 }, word 0x32 1 2
    1, by unfold Executes; decide +kernel⟩, ⟨0, coded 0 (word 0x32 1 2 1), word 0x32 1 2 1,
    by unfold Executes; decide +kernel⟩, ⟨0, 1, coded 0 (word 0x32 1 2 0xc00e), word 0x32 1 2 0xc00e,
    by unfold Executes; decide +kernel⟩, ⟨0, coded 0 (word 0x33 1 2 1), word 0x33 1 2 1, by unfold Executes; decide +kernel⟩,
    ⟨0, 1, coded 0 (word 0x31 0 1 3) { waiting := .time }, by decide +kernel⟩⟩

theorem witness_MailboxInstructionsAct :
    (∃ (c : Fin 33) (s : State) (w : Word), let g := s.engine c; let k := w.toNat % 2 ^ 14; let i := 0x2C10 + k; Executes s c
      .lock w ∧ g.posted = [] ∧ s.readOk (s.corePath c) i 6 = true ∧ s.n i 7 = 0) ∧
    (∃ (c : Fin 33) (s : State) (w : Word), let g := s.engine c; let k := w.toNat % 2 ^ 14; let i := 0x2C10 + k;
      let m := (s.corePath c).id.val; Executes s c .lock w ∧ g.posted = [] ∧ s.readOk (s.corePath c) i 6 = true ∧ s.n i 7 ≠ 0
      ∧ s.n i 7 ≠ m ∧ s.n i 7 < 64) ∧
    (∃ (c : Fin 33) (s : State) (w : Word), let g := s.engine c; let k := w.toNat % 2 ^ 14; let i := 0x2C10 + k;
      let m := (s.corePath c).id.val; Executes s c .unlock w ∧ g.posted = [] ∧ s.readOk (s.corePath c) i 6 = true ∧ s.n i 7 =
      m) ∧
    (∃ (c : Fin 33) (s : State) (w : Word), let g := s.engine c; let k := w.toNat % 2 ^ 14; let i := 0x2C10 + k; Executes s c
      .post w ∧ g.posted = [] ∧ s.writeOk (s.corePath c) i 8 ((g.reg (raOf w)).toNat + (g.reg (rbOf w)).toNat % 2048 * 2 ^ 32)
      = true ∧ s.n i 0xA ≠ 2) ∧
    (∃ (c : Fin 33) (s : State) (w : Word), let g := s.engine c; let k := w.toNat % 2 ^ 14; let i := 0x2C10 + k; Executes s c
      .dbrd w ∧ g.posted = [] ∧ s.readOk (s.corePath c) i 0xC = true ∧ s.mboxIntact k = true) ∧
    (∃ (c : Fin 33) (s : State) (w : Word), let g := s.engine c; let k := w.toNat % 2 ^ 14; let i := 0x2C10 + k; Executes s c
      .dbclr w ∧ g.posted = [] ∧ s.writeOk (s.corePath c) i 0xC (g.reg (raOf w)).toNat = true ∧ s.n i 0xA = 2 ∧ (s.chan
      k).bits &&& ~~~ g.reg (raOf w) = 0) :=
  ⟨⟨0, put (coded 0 (word 0x34 1 0 0x2f)) [(0x2400, 0xE, 1), (0x2C3F, 1, 1)], word 0x34 1 0 0x2f,
    by unfold Executes; decide +kernel⟩, ⟨0, put (coded 0 (word 0x34 1 0 0x2f)) [(0x2400, 0xE, 1), (0x2C3F, 1, 1), (0x2C3F, 7,
    63)], word 0x34 1 0 0x2f, by unfold Executes; decide +kernel⟩, ⟨0, put (coded 0 (word 0x35 0 0 0x2f)) [(0x2400, 0xE, 1),
    (0x2C3F, 1, 1), (0x2C3F, 7, 1)], word 0x35 0 0 0x2f, by unfold Executes; decide +kernel⟩, ⟨0, put (coded 0 (word 0x36 0 1
    0x802f) { regs := [(1, 1), (2, 1024)] }) [(0x2400, 0xE, 1), (0x2C3F, 1, 1), (0x2C3F, 7, 1)], word 0x36 0 1 0x802f,
    by unfold Executes; decide +kernel⟩, ⟨0, put (coded 0 (word 0x37 1 0 0x2f)) [(0x2400, 0xE, 1), (0x2C3F, 1, 1)], word 0x37
    1 0 0x2f, by unfold Executes; decide +kernel⟩, ⟨0, (put (coded 0 (word 0x38 0 1 0x2f) { regs := [(1, 1)] }) [(0x2400, 0xE,
    1), (0x2C3F, 1, 1), (0x2C3F, 10, 2)]).setChan 47 { bits := 1 }, word 0x38 0 1 0x2f, by unfold Executes; decide +kernel⟩⟩

theorem witness_ApexInstructionsAct :
    (∀ x ∈ ([(.wdkick, word 0x3E 0 0 0)] : List (EOp × Word)), Executes (coded 32 x.2) 32 x.1 x.2) ∧
    (∃ (s : State) (w : Word), let g := s.engine 32; let a := (g.reg (raOf w)).toNat; Executes s 32 .fuserd w ∧ 256 ≤ a) ∧
    (∃ (s : State) (w : Word), let g := s.engine 32; let a := (g.reg (raOf w)).toNat; Executes s 32 .fuserd w ∧ a < 256) ∧
    (∃ (s : State) (w : Word), let g := s.engine 32; let a := (g.reg (raOf w)).toNat; Executes s 32 .mramw w ∧ g.posted = [] ∧
      a % 8 = 0 ∧ regionOf a = .mram ∧ s.mramWritable = true) ∧
    (∃ (s : State) (w : Word), let g := s.engine 32; let a := (g.reg (raOf w)).toNat; Executes s 32 .mramw w ∧ g.posted = [] ∧
      (a % 8 ≠ 0 ∨ regionOf a ≠ .mram)) ∧
    (∃ (s : State) (w : Word), let g := s.engine 32; let a := (g.reg (raOf w)).toNat; let b := (g.reg (rbOf w)).toNat;
      Executes s 32 .sha w ∧ g.posted = [] ∧ a + 64 ≤ localSize 32 ∧ b + 32 ≤ localSize 32) ∧
    (∃ (s : State) (w : Word), let g := s.engine 32; let a := (g.reg (raOf w)).toNat; Executes s 32 .engsec w ∧ s.n (0x2400 +
      a % 32) 1 = 4) ∧
    (∃ (s : State) (w : Word), let g := s.engine 32; let a := (g.reg (raOf w)).toNat; Executes s 32 .engsec w ∧ s.n (0x2400 +
      a % 32) 1 ≠ 4) :=
  ⟨by unfold Executes; decide +kernel, ⟨coded 32 (word 0x3E 1 2 1) { regs := [(2, 256)] }, word 0x3E 1 2 1,
    by unfold Executes; decide +kernel⟩, ⟨coded 32 (word 0x3E 1 2 1) { regs := [(2, 255)] }, word 0x3E 1 2 1,
    by unfold Executes; decide +kernel⟩, ⟨coded 32 (word 0x3E 0 1 0x8002) { regs := [(1, 0x083FFFF8)] }, word 0x3E 0 1 0x8002,
    by unfold Executes; decide +kernel⟩, ⟨coded 32 (word 0x3E 0 1 0x8002) { regs := [(1, 0x08400000)] }, word 0x3E 0 1 0x8002,
    by unfold Executes; decide +kernel⟩, ⟨coded 32 (word 0x3E 0 1 0x8003) { regs := [(1, 0xFFC0), (2, 0xFFE0)] }, word 0x3E 0
    1 0x8003, by unfold Executes; decide +kernel⟩, ⟨put (coded 32 (word 0x3E 0 1 0x8004) { regs := [(1, 31)] }) [(0x241F, 1,
    4)], word 0x3E 0 1 0x8004, by unfold Executes; decide +kernel⟩, ⟨coded 32 (word 0x3E 0 1 0x8004) { regs := [(1, 31)] },
    word 0x3E 0 1 0x8004, by unfold Executes; decide +kernel⟩⟩

theorem witness_BanksFollowTheirPowerState :
    (∃ (p : Path) (b : Fin 96) (v : Word) (s : State), s.writeOk p (bankIdx b) (1 + b.val % 8) v.toNat = true ∧ s.dev ≠ 2 ∧
      s.bankState b ≠ fieldOf v.toNat 0 2) ∧
    (∃ (b : Fin 96) (s : State), s.changing b = true ∧ (∀ k < b.val % 8, s.changing (b.val / 8 * 8 + k) = false) ∧ s.bankState
      b = 2 ∧ (tblGet (fun _ => ({} : Bank)) b.val s.memc.bank).target = 0 ∧ s.memc.waits = []) ∧
    (∃ (b : Fin 96) (s : State), s.changing b = true ∧ (∀ k < b.val % 8, s.changing (b.val / 8 * 8 + k) = false) ∧ s.bankState
      b = 0 ∧ (tblGet (fun _ => ({} : Bank)) b.val s.memc.bank).target = 1) ∧
    (∃ (b : Fin 96) (s : State), s.changing b = true ∧ (∀ k < b.val % 8, s.changing (b.val / 8 * 8 + k) = false) ∧ s.bankState
      b = 0 ∧ (tblGet (fun _ => ({} : Bank)) b.val s.memc.bank).target = 2) ∧
    (∃ s : State, s.n 0x2B00 6 ≠ 0 ∧ s.memc.scrubbing = false ∧ s.memc.dbe = []) ∧
    (∃ s : State, s.memc.scrubbing = true) :=
  ⟨⟨P, 95, 2, live, by decide +kernel⟩, ⟨95, lv [(0x2B1B, 0x18, 6)], by decide +kernel⟩, ⟨95,
    { lv [(0x2B1B, 0x18, 4)] with memc.bank := [(95, { target := 1 })] }, by decide +kernel⟩, ⟨95,
    { lv [(0x2B1B, 0x18, 4)] with memc.bank := [(95, { target := 2 })] }, by decide +kernel⟩, ⟨live, by decide +kernel⟩,
    ⟨{ live with memc.scrubbing := true }, by decide +kernel⟩⟩

theorem witness_MailboxesPassMessages :
    (∃ (p : Path) (k : Fin 48) (s : State), s.readOk p (0x2C10 + k.val) 6 = true ∧ s.n (0x2C10 + k.val) 7 = 0) ∧
    (∃ (p : Path) (k : Fin 48) (s : State), s.readOk p (0x2C10 + k.val) 6 = true ∧ s.n (0x2C10 + k.val) 7 ≠ 0 ∧ s.n (0x2C10 +
      k.val) 7 ≠ p.id.val) ∧
    (∃ (p : Path) (k : Fin 48) (v : Word) (s : State), s.writeOk p (0x2C10 + k.val) 6 v.toNat = true) ∧
    (∃ (p : Path) (k : Fin 48) (s : State), s.readOk p (0x2C10 + k.val) 6 = true ∧ s.n (0x2C10 + k.val) 7 = p.id.val ∧
      p.id.val ≠ 0) ∧
    (∃ (p : Path) (k : Fin 48) (v : Word) (s : State), (v ≠ 0 ∨ s.n (0x2C10 + k.val) 7 ≠ p.id.val)) ∧
    (∃ (c : Fin 33) (w : Word) (s : State), let i := 0x2C10 + w.toNat % 2 ^ 14; Executes s c .lock w ∧ (s.engine c).posted =
      [] ∧ s.readOk (s.corePath c) i 6 = true ∧ s.n i 7 < 64) ∧
    (∃ (p : Path) (k : Fin 48) (b n : Word) (s : State), s.writeOk p (0x2C10 + k.val) 8 (b.toNat + n.toNat * 2 ^ 32) = true) ∧
    (∃ (p : Path) (k : Fin 48) (s : State), s.readOk p (0x2C10 + k.val) 0xC = true ∧ s.mboxIntact k = true) ∧
    (∃ (p : Path) (k : Fin 48) (s : State), s.readOk p (0x2C10 + k.val) 0xC = true ∧ s.mboxIntact k = false) ∧
    (∃ (p : Path) (k : Fin 48) (v : Word) (s : State), s.writeOk p (0x2C10 + k.val) 0xC v.toNat = true ∧ s.n (0x2C10 + k.val)
      0xA = 2) ∧
    (∃ (p : Path) (k : Fin 48) (v : Word) (s : State), s.writeOk p (0x2C10 + k.val) 0xD v.toNat = true) ∧
    (∃ (k : Fin 48) (s : State), (s.chan k).zeroing = true) :=
  ⟨⟨P, 47, lv [(0x2C3F, 1, 34)], by decide +kernel⟩, ⟨P, 47, lv [(0x2C3F, 1, 34), (0x2C3F, 7, 63)], by decide +kernel⟩, ⟨P,
    47, 0, lv [(0x2C3F, 1, 34), (0x2C3F, 7, 34)], by decide +kernel⟩, ⟨P, 47, lv [(0x2C3F, 1, 34), (0x2C3F, 7, 34)],
    by decide +kernel⟩, ⟨P, 47, 1, live, by decide +kernel⟩, ⟨0, word 0x34 1 0 0x2f, put (coded 0 (word 0x34 1 0 0x2f))
    [(0x2400, 0xE, 1), (0x2C3F, 1, 1), (0x2C3F, 7, 63)], by unfold Executes; decide +kernel⟩, ⟨P, 47, 1, 1024, lv [(0x2C3F, 1,
    34), (0x2C3F, 7, 34)], by decide +kernel⟩, ⟨P, 47, lv [(0x2C3F, 1, 34)], by decide +kernel⟩, ⟨P, 47, (lv [(0x2C3F, 1, 34),
    (0x2C3F, 0xA, 2)]).setChan 47 { crc := 1 }, by decide +kernel⟩, ⟨P, 47, 1, lv [(0x2C3F, 1, 34), (0x2C3F, 0xA, 2)],
    by decide +kernel⟩, ⟨P, 47, 0xFFFFFFFF, lv [(0x2C3F, 1, 34)], by decide +kernel⟩, ⟨47, live.setChan 47
    { zeroing := true }, by decide +kernel⟩⟩

theorem witness_TheRecorderKeepsItsLog :
    (∃ (typ : Half) (b : List Byte) (s : State), recTypes.contains typ.toNat = true ∧ b.length ≤ 236 ∧ s.n 0x2D00 9 = 0 ∧
      queueBytes s.log.queue + recLen b ≤ 4096) ∧
    (∃ (r : Rec) (q : List Rec) (s : State), s.n 0x2D00 9 ≠ 0 ∧ s.mramWritable = true ∧ s.log.queue = r :: q ∧ r.seq < 2 ^ 32
      ∧ s.n 0x2D00 3 + (recBytes r).length < 2 ^ 32) ∧
    (∃ s : State, s.n 0x2D00 9 = 0 ∧ s.log.queue = []) ∧
    (∃ (p : Path) (v : Word) (s : State), s.writeOk p 0x2D00 8 v.toNat = true ∧ s.log.nextSeq < 2 ^ 32) ∧
    (∃ s : State, s.minutesRun = true) :=
  ⟨⟨0x0905, List.replicate 236 0, { live with log.queue := List.replicate 15 ⟨0x101, List.replicate 236 0, 0, 0, 0⟩ },
    by decide +kernel⟩, ⟨⟨0x101, [], 0, 0, 4294967295⟩, [],
    { lv [(0x2D00, 9, 1)] with log.queue := [⟨0x101, [], 0, 0, 4294967295⟩] }, by decide +kernel⟩, ⟨live, by decide +kernel⟩,
    ⟨P, 0x67726C63, live, by decide +kernel⟩, ⟨live, by decide +kernel⟩⟩

theorem witness_SupervisionShowsWhatItMeasures :
    (∃ (ts vs : List Half) (s : State), ts.length = 4 ∧ vs.length = 11 ∧ (∀ t ∈ ts, t.toInt ≤ 4 * sint (s.n 0x2E00 4)) ∧ s.bit
      0x1001 0 3 = false) ∧
    (∃ (ts : List Half) (k : Nat) (s : State), ts.length = 4 ∧ ts.findIdx? (fun t => 4 * sint (s.n 0x2E00 4) < t.toInt) = some
      k ∧ s.bit 0x1001 0 3 = false) ∧
    (∃ (m : Fin 11) (mv : Half) (s : State), s.supplyOk m mv.toNat = false) ∧
    (∃ (m : Fin 11) (mv : Half) (s : State), s.supplyOk m mv.toNat = true ∧ (∃ k < 11, k ≠ m.val ∧ s.bit 0x2E10 0x10 k =
      true)) ∧
    (∃ (m : Fin 11) (mv : Half) (s : State), s.supplyOk m mv.toNat = true ∧ s.n 0x2E10 0x10 = 2 ^ m.val ∧ s.pw.startWrite =
      none) ∧
    (∃ (f : Word) (s : State), f ≠ 0 ∧ tblGet (fun _ => []) 0 s.sup.pace ≠ [] ∧ s.n 0x2E30 2 ≠ 0 ∧ (∀ k, 1 ≤ k → k < 21 →
      tblGet (fun _ => []) k s.sup.pace = [])) ∧
    (∃ s : State, s.n 0x2D00 9 = 0 ∧ queueBytes s.log.queue + 64 ≤ 4096) :=
  ⟨⟨List.replicate 4 460, List.replicate 11 0, live, by decide, by decide, fun t h =>
    by rw [List.eq_of_mem_replicate h, show live.n 0x2E00 4 = 115 by decide +kernel]; decide, by decide +kernel⟩, ⟨[0, 0, 461,
    500], 2, live, by decide +kernel⟩, ⟨0, 719, live, by decide +kernel⟩, ⟨0, 900, lv [(0x2E10, 0x10, 0x400)],
    by decide +kernel, 10, by decide, by decide, by decide +kernel⟩, ⟨0, 720, lv [(0x2E10, 0x10, 1)], by decide +kernel⟩, ⟨1,
    { od := [(odKey 0x2E30 2, 5)], sup := { pace := [(0, [1])] } }, by decide, by decide +kernel, by decide +kernel, fun k h _
    => (if_neg (by omega) : (if 0 = k then [1] else ([] : List Nat)) = [])⟩, ⟨live, by decide +kernel⟩⟩

theorem witness_PerturbationNeedsArming_1 :
    (∃ (p : Path) (v : Word) (s : State), v ≠ 0 ∧ s.writeOk p 0x2E80 1 v.toNat = true ∧ s.n 0x2E80 1 = 0 ∧ (s.n 0x2001 1 = 1 →
      s.n 0x2E80 2 ≠ 0) ∧ s.recordable 0x0801 24 = true) ∧
    (∃ (p : Path) (v : Word) (s : State), v ≠ 0 ∧ s.writeOk p 0x2E80 1 v.toNat = true ∧ (s.n 0x2E80 1 ≠ 0 ∨ (s.n 0x2001 1 = 1
      ∧ s.n 0x2E80 2 = 0))) ∧
    (∃ (q : Nat) (s : State), s.sup.armSeq = some q ∧ s.log.queue.any (fun r => r.seq = q) = false ∧ s.perturbSet 4 = false) ∧
    (∃ (p : Path) (s : State), s.writeOk p 0x2E80 1 0 = true ∧ s.n 0x2E80 1 ≠ 0) ∧
    (∃ (p : Path) (v : Word) (k : Bool) (s : State), s.keeperWrite p k = true ∧ s.writeOk p 0x2E80 2 v.toNat = true) ∧
    (∃ s : State, s.sup.testTimer = true ∧ s.n 0x2001 1 ≠ 1) ∧
    (∃ s : State, s.sup.testTimer = true ∧ s.n 0x2001 1 = 1 ∧ s.n 0x2E80 1 ≠ 0) ∧
    (∃ s : State, s.sup.autoTimer = true ∧ s.n 0x2E80 1 ≠ 0) ∧
    (∃ s : State, s.armed = true ∧ s.n 0x2E81 1 ≠ 0) ∧
    (∃ s : State, s.armed = true ∧ s.bit 0x2E86 1 4 = true ∧ s.sup.symbolDone = false) ∧
    (∃ s : State, s.armed = true ∧ s.bit 0x2E88 1 2 = true) ∧
    (∃ s : State, s.armed = false) :=
  ⟨⟨P, 0x646D7261, lv [(0x2D00, 9, 1), (0x2001, 1, 0)], by decide +kernel⟩, ⟨P, 0x646D7261, live, by decide +kernel⟩, ⟨7,
    { live with sup.armSeq := some 7 }, by decide +kernel⟩, ⟨P, lv [(0x2E80, 1, 2)], by decide +kernel⟩, ⟨⟨36, true⟩, 1, true,
    live, by decide +kernel⟩, ⟨{ lv [(0x2001, 1, 0)] with sup.testTimer := true }, by decide +kernel⟩,
    ⟨{ lv [(0x2E80, 1, 1)] with sup.testTimer := true }, by decide +kernel⟩,
    ⟨{ lv [(0x2E80, 1, 1)] with sup.autoTimer := true }, by decide +kernel⟩, ⟨lv [(0x2E80, 1, 2), (0x2E81, 1, 1)],
    by decide +kernel⟩, ⟨lv [(0x2E80, 1, 2), (0x2E86, 1, 0x10)], by decide +kernel⟩, ⟨lv [(0x2E80, 1, 2), (0x2E88, 1, 4)],
    by decide +kernel⟩, ⟨live, by decide +kernel⟩⟩

theorem witness_PerturbationNeedsArming_2 :
    (∃ p : Path, p.secure = true) ∧
    (∃ s : State, s.sup.jtagUnlocked = false) :=
  ⟨⟨P, by decide +kernel⟩, ⟨live, by decide +kernel⟩⟩

theorem witness_PcieCommandsAct :
    (∃ s : State, s.coreUp = true ∧ s.host.training = true ∧ s.host.perstLow = false) ∧
    (∃ s : State, s.bit 0x2F40 1 0 = true) ∧
    (∃ s : State, s.coreUp = true) ∧
    (∃ s : State, s.coreUp = true ∧ s.bit 0x2F40 1 0 = true) ∧
    (∃ s : State, s.coreUp = true ∧ s.host.training = true ∧ s.bit 0x2F40 1 0 = false) ∧
    (∃ (a : DWord) (wide : Bool) (f : Nat) (s : State), let d := s.n 0x2F40 2 + a.toNat; let k := if wide then 8 else 4;
      s.coreUp = true ∧ s.dev ≠ 6 ∧ s.bit 0x2F40 1 0 = true ∧ a.toNat < 0x0800_0000 ∧ regionOf d = .store f ∧ d % k = 0 ∧
      s.hasDbe d = false ∧ s.hasSbe d = false) ∧
    (∃ (v : Fin 64) (s : State), bitOf s.host.msixPend.toNat v = true ∧ s.bit 0x2F40 1 5 = true ∧ s.bit 0x2F40 1 6 = true) ∧
    (∃ (p : Path) (k : Fin 8) (v : Word) (s : State), s.writeOk p (0x2F48 + k.val) 2 v.toNat = true) ∧
    (∃ (k : Fin 8) (d : List Byte) (s : State), let a := s.dmaDesc k; let len := fieldOf (s.w32 (a + 0xC)) 0 24;
      let dev := s.w32 (a + 8); s.coreUp = true ∧ s.dmaEnabled k d false = true ∧ (s.dmaCh k).flushing = false ∧ s.memc.dbe =
      [] ∧ len % 4 = 0 ∧ len ≠ 0 ∧ dev % 4 = 0 ∧ s.le a 8 % 4 = 0 ∧ bitOf (s.w32 (a + 0xC)) 24 = true ∧ s.dmaAllowed dev len
      false = true) ∧
    (∃ (p : Path) (k : Fin 8) (s : State), s.writeOk p (0x2F48 + k.val) 4 1 = true ∧ s.dmaOn k = true ∧ s.dmaReady k = true ∧
      (s.dmaCh k).flushing = false) :=
  ⟨⟨{ live with host := { training := true, perstLow := false } }, by decide +kernel⟩, ⟨lv [(0x2F40, 1, 1)],
    by decide +kernel⟩, ⟨live, by decide +kernel⟩, ⟨lv [(0x2F40, 1, 1)], by decide +kernel⟩,
    ⟨{ live with host.training := true }, by decide +kernel⟩, ⟨0x1FFFF8, true, 7, lv [(0x2F40, 1, 1), (0x2F40, 2,
    0x0D000000)], by decide +kernel⟩, ⟨63, { lv [(0x2F40, 1, 0x60)] with host.msixPend := BitVec.twoPow 64 63 },
    by decide +kernel⟩, ⟨P, 7, 1, live, by decide +kernel⟩, ⟨7, [], poke (lv [(0x2F40, 1, 0x21), (0x2F4F, 1, 0x100010),
    (0x2F4F, 2, 1)]) [(0x100008, [0, 0, 0x20, 0, 4, 0, 0, 1])], by decide +kernel⟩, ⟨P, 7, lv [(0x2F40, 1, 0x21), (0x2F4F, 1,
    0x100010), (0x2F4F, 2, 1)], by decide +kernel⟩⟩

theorem witness_QspiCommandsAct :
    (∃ s : State, s.coreUp = true) ∧
    (∃ s : State, s.coreUp = true) ∧
    (∃ (a : Word) (f : Nat) (s : State), s.coreUp = true ∧ s.dev ≠ 6 ∧ s.qspiBusy = false ∧ regionOf a.toNat = .store f ∧
      a.toNat % 4 = 0 ∧ s.hasDbe a.toNat = false ∧ s.hasSbe a.toNat = false) ∧
    (∃ (a : Word) (f n : Nat) (s : State), s.coreUp = true ∧ s.qspiBusy = false ∧ regionOf a.toNat = .store f ∧ n ≤ 4 ∧
      a.toNat % 4 = 0 ∧ s.hasDbe a.toNat = false ∧ s.hasSbe a.toNat = false) ∧
    (∃ (a : Word) (f : Nat) (d : List Byte) (s : State), s.coreUp = true ∧ s.dev ≠ 6 ∧ s.qspiBusy = false ∧ regionOf a.toNat =
      .store f ∧ a.toNat % 4 = 0 ∧ d.length = 4 ∧ s.hasDbe a.toNat = false) ∧
    (∃ s : State, s.coreUp = true ∧ s.dev ≠ 6 ∧ s.qspiBusy = true) ∧
    (∃ (a : Word) (wide : Bool) (f : Nat) (s : State), let k := if wide then 8 else 4; s.coreUp = true ∧ s.dev ≠ 6 ∧
      s.qspiBusy = false ∧ regionOf a.toNat = .store f ∧ a.toNat % k = 0 ∧ s.hasDbe a.toNat = false ∧ s.hasSbe a.toNat =
      false) ∧
    (∃ (v : DWord) (bad : Bool) (s : State), s.coreUp = true ∧ s.qspiBusy = false ∧ s.host.qResult = some (v, bad)) ∧
    (∃ s : State, s.coreUp = true) ∧
    (∃ s : State, s.coreUp = true ∧ s.host.qResetEnabled = true) ∧
    (∃ s : State, s.host.qResetEnabled = false) ∧
    (∃ op : Byte, op ∉ ([0x9F, 0x05, 0x0B, 0x02, 0x3A, 0x3B, 0x3C, 0x66, 0x99] : List Byte)) :=
  ⟨⟨live, by decide +kernel⟩, ⟨live, by decide +kernel⟩, ⟨0x0D000000, 0, live, by decide +kernel⟩, ⟨0x0D1FFFFC, 7, 4, live,
    by decide +kernel⟩, ⟨0x0D1FFFFC, 7, [1, 2, 3, 4], live, by decide +kernel⟩,
    ⟨{ live with memc.waits := [{ path := ⟨35, false⟩, write := false, addr := 0, size := .b4, data := [] }] },
    by decide +kernel⟩, ⟨0x0D1FFFF8, true, 7, live, by decide +kernel⟩, ⟨5, true,
    { live with host.qResult := some (5, true) }, by decide +kernel⟩, ⟨live, by decide +kernel⟩,
    ⟨{ live with host.qResetEnabled := true }, by decide +kernel⟩, ⟨live, by decide +kernel⟩, ⟨0x04, by decide +kernel⟩⟩

theorem witness_SessionsOpenAndEnd :
    (∃ (c : Fin 4) (s : State), s.sessionPosted c 1 = true ∧ s.mboxIntact (44 + c.val) = true ∧ 16 ≤ s.n (0x2C10 + 44 + c.val)
      0xB ∧ s.sessionState c = 0) ∧
    (∃ (c : Fin 4) (s : State), let m := smsgOf false (s.bytes (areaOf (44 + c.val)) (s.n (0x2C10 + 44 + c.val) 0xB));
      s.sessionPosted c 2 = true ∧ s.mboxIntact (44 + c.val) = true ∧ 16 ≤ s.n (0x2C10 + 44 + c.val) 0xB ∧ s.sessionState c =
      1 ∧ m.session = (s.session c).number ∧ (s.session c).counter < m.counter ∧ (s.session c).keySlot < 8 ∧ s.n (0x2F58 +
      (s.session c).keySlot) 0x11 = 1) ∧
    (∃ (c : Fin 4) (s : State), s.sessionPosted c 2 = true ∧ s.mboxIntact (44 + c.val) = true ∧ 16 ≤ s.n (0x2C10 + 44 + c.val)
      0xB ∧ s.sessionState c = 1 ∧ (s.session c).refusals = 0) ∧
    (∃ (c : Fin 4) (v : Nat) (s : State),
      let m := smsgOf false (s.bytes (areaOf (44 + c.val)) (s.n (0x2C10 + 44 + c.val) 0xB)); s.sessionPosted c 3 = true ∧
      s.mboxIntact (44 + c.val) = true ∧ s.sessionState c = 2 ∧ m.session = (s.session c).number ∧ (s.session c).counter <
      m.counter ∧ s.n (0x2C10 + 44 + c.val) 0xB = 44 ∧ (odOps (numOf false) (m.body.take 12)).map (fun x => (x.op, x.idx,
      x.sub, x.val)) = [(2, 0x2E00, 3, v)] ∧ 1 ≤ v ∧ v ≤ 20 ∧ s.dev = 1 ∧ s.n 0x2F42 3 = 0) ∧
    (∃ (c : Fin 4) (s : State), let m := smsgOf false (s.bytes (areaOf (44 + c.val)) (s.n (0x2C10 + 44 + c.val) 0xB));
      s.sessionPosted c 4 = true ∧ s.mboxIntact (44 + c.val) = true ∧ 16 ≤ s.n (0x2C10 + 44 + c.val) 0xB ∧ s.sessionState c =
      2 ∧ m.session = (s.session c).number ∧ (s.session c).counter < m.counter) ∧
    (∃ (c : Fin 4) (s : State), s.sessionState c = 2) :=
  ⟨⟨3, posted47 [1, 0, 0, 0, 0, 0, 0, 0, 1, 0, 0, 0, 0, 0, 0, 0] [], by decide +kernel⟩, ⟨3, posted47 [2, 0, 0, 0, 0, 0, 0, 0,
    1, 0, 0, 0, 0, 0, 0, 0] [(0x2F50, 4, 1), (0x2F58, 0x11, 1)], by decide +kernel⟩, ⟨3, posted47 [2, 0, 0, 0, 0, 0, 0, 0, 1,
    0, 0, 0, 0, 0, 0, 0] [(0x2F50, 4, 1)], by decide +kernel⟩, ⟨3, 20, posted47 ([3, 0, 0, 0, 0, 0, 0, 0, 1, 0, 0, 0, 0, 0, 0,
    0] ++ [2, 3, 0, 0x2E, 20] ++ List.replicate 23 0) [(0x2F50, 4, 2)], by decide +kernel⟩, ⟨3, posted47 [4, 0, 0, 0, 0, 0, 0,
    0, 1, 0, 0, 0, 0, 0, 0, 0] [(0x2F50, 4, 2)], by decide +kernel⟩, ⟨3, lv [(0x2F50, 4, 2)], by decide +kernel⟩⟩

theorem witness_InstancesAndNetworksAct :
    (∃ (p : Path) (n : Fin 6) (c : Nat) (s : State), s.writeOk p (instBase n) 6 1 = true ∧ s.instHolds n = false ∧
      s.startCause n = some c) ∧
    (∃ (p : Path) (n : Fin 6) (f : ImageForm) (s : State), s.writeOk p (instBase n) 6 1 = true ∧ s.instHolds n = false ∧
      s.startCause n = none ∧ imageForm (s.instN n 1) (s.instN n 3) (s.instN n 4) = some f ∧ s.instN n 2 < 32) ∧
    (∃ (n : Fin 6) (l : List InstObj) (s : State), s.instState n = 1 ∧ (∀ k < (s.inst n).engines, s.coreState (s.instN n 2 +
      k) ≠ 4 ∧ s.n (0x2400 + (s.instN n 2 + k)) 0xD = 1) ∧ (s.findImage (s.instN n 1)).bind (s.objTable n) = some l) ∧
    (∃ (p : Path) (n : Fin 6) (s : State), s.writeOk p (instBase n) 6 2 = true ∧ s.instState n ≠ 0) ∧
    (∃ (n : Fin 6) (s : State), s.netServes n = true ∧ selectorImage (s.instN n 1) = true) ∧
    (∃ (n : Fin 6) (i : Half) (j : Byte) (s : State), s.netServes n = true ∧ sdoImage (s.instN n 1) = true ∧ (i.toNat < 0x1000
      ∨ 0x1FFF < i.toNat) ∧ i.toNat < 0x6000 ∧ s.isWide i.toNat j.toNat = false ∧ s.readOk (s.netPath n) i.toNat j.toNat =
      true ∧ s.rxTaken i.toNat j.toNat = false ∧ s.odReadEffect (s.netPath n) i.toNat j.toNat = none ∧ s.odLive i.toNat
      j.toNat = none) ∧
    (∃ (n : Fin 6) (conn : Nat) (s : State), let i := selIdx (s.netSel n conn); let j := selSub (s.netSel n conn); s.netServes
      n = true ∧ s.instN n 1 = 0x010A ∧ (i < 0x1000 ∨ 0x1FFF < i) ∧ i < 0x6000 ∧ s.isWide i j = true ∧ s.readOk (s.netPath n)
      i j = true ∧ s.rxTaken i j = false ∧ s.odReadEffect (s.netPath n) i j = none ∧ s.odLive i j = none) ∧
    (∃ (n : Fin 6) (conn : Nat) (v : Half) (s : State), let i := selIdx (s.netSel n conn); let j := selSub (s.netSel n conn);
      let w := fun k => tblGet (fun _ => 0) (conn * 4 + k) (s.inst n).regs;
      let x := w 0 * 2 ^ 48 + w 1 * 2 ^ 32 + w 2 * 2 ^ 16 + v.toNat; s.netServes n = true ∧ s.instN n 1 = 0x010A ∧ (i < 0x1000
      ∨ 0x1FFF < i) ∧ s.isWide i j = true ∧ x < 2 ^ 64) ∧
    (∃ (p : Path) (n : Fin 6) (o : InstObj) (v : DWord) (f : Nat) (s : State), s.privSelected n = some o ∧ s.writeOk p
      (instBase n) 0xA v.toNat = true ∧ regionOf o.loc = .store f ∧ s.hasDbe o.loc = false) ∧
    (∃ (p : Path) (n : Fin 6) (o : InstObj) (s : State), s.privSelected n = some o ∧ s.readOk p (instBase n) 0xA = true ∧
      o.isStr = false ∧ s.memc.dbe = []) :=
  ⟨⟨P, 5, 1, live, by decide +kernel⟩, ⟨P, 5, { engines := 1, domains := 0, store := 0x2000, most := 4 }, lv [(0x24A0, 1,
    0x105), (0x5800, 1, 0x105), (0x5800, 2, 31), (0x5800, 4, 0x10)], by decide +kernel⟩, ⟨5, [], inst5 (lv [(0x24A0, 1,
    0x105), (0x5800, 1, 0x105), (0x5800, 2, 31), (0x5800, 7, 1), (0x241F, 0xD, 1)]) { engines := 1 }, by decide +kernel⟩, ⟨P,
    5, lv [(0x5800, 7, 4)], by decide +kernel⟩, ⟨5, lv [(0x5800, 1, 0x109), (0x5800, 7, 2)], by decide +kernel⟩, ⟨5, 0x2300,
    0x10, lv [(0x5800, 1, 0x107), (0x5800, 7, 2)], by decide +kernel⟩, ⟨5, 0, inst5 (lv [(0x5800, 1, 0x10A), (0x5800, 7, 2)])
    { sel := [(0, 0xA2300)] }, by decide +kernel⟩, ⟨5, 0, 0xFFFF, inst5 (lv [(0x5800, 1, 0x10A), (0x5800, 7, 2)])
    { sel := [(0, 0xA2300)] }, by decide +kernel⟩, ⟨P, 5, ⟨0x10, 1, 7, 1, false, true, 0x0D000000, 0, 0⟩, 1, 0, inst5 (lv
    [(0x5800, 7, 2), (0x5800, 0xC, 0x10010)]) { objs := [⟨0x10, 1, 7, 1, false, true, 0x0D000000, 0, 0⟩] },
    by decide +kernel⟩, ⟨P, 5, ⟨0x10, 1, 7, 1, false, true, 0x0D000000, 0, 0⟩, inst5 (lv [(0x5800, 7, 2), (0x5800, 0xC,
    0x10010)]) { objs := [⟨0x10, 1, 7, 1, false, true, 0x0D000000, 0, 0⟩] }, by decide +kernel⟩⟩

theorem witness_ChordsSpliceAndCapture :
    (∃ (p : Path) (d : Fin 16) (v : Half) (s : State), s.writeOk p (0x2500 + d.val) 0xA v.toNat = true ∧ (s.chordOf d).loading
      = none) ∧
    (∃ (p : Path) (d : Fin 16) (v : Half) (s : State), s.writeOk p (0x2500 + d.val) 0xA v.toNat = true ∧ (s.chordOf d).loading
      ≠ none) ∧
    (∃ (d : Fin 16) (v : Nat) (s : State), (s.chordOf d).loading = some v ∧ (s.chordOf d).held = none ∧ s.memc.dbe = []) ∧
    (∃ (d : Fin 16) (tab : List (List Word)) (pool : List Byte) (s : State), (s.chordOf d).ready = some (tab, pool)) ∧
    (∃ (d : Fin 8) (data : List Byte) (s : State), (s.chordOf d).ready = none ∧ s.chordNow d = 2 ∧ (s.chordOf d).egress < 12 ∧
      (s.chordOf d).table = [] ∧ fcsGood data = true) ∧
    (∃ (d : Fin 8) (data : List Byte) (e : List Word) (s : State), let f := nibsOf (data.take (data.length - 4)); (s.chordOf
      d).ready = none ∧ s.chordNow d = 2 ∧ (s.chordOf d).egress < 12 ∧ (s.chordOf d).table = [e] ∧ fcsGood data = true ∧
      s.chordStale d = false ∧ bitOf (s.chordOf d).gate 16 = false ∧ entOp e = 1 ∧ entPool e = false ∧ entMatch e = false ∧
      entAt e + entLen e ≤ f.length) ∧
    (∃ (d : Fin 8) (s : State), (s.chordOf d).ready = none ∧ (s.chordOf d).enable = true ∧ s.chordNow d ≠ 2) ∧
    (∃ (d : Fin 16) (len time o : Nat) (l : List Byte) (s : State), let a := s.chordStore d (s.n (0x2500 + d.val) 6);
      (s.chordOf d).capture = some (len, time, [(o, l)]) ∧ s.memc.dbe = [] ∧ o + l.length ≤ 4080 ∧ (∀ b < 0x1000, ∃ f,
      regionOf (a + b) = .store f)) :=
  ⟨⟨P, 15, 0x140, live, by decide +kernel⟩, ⟨P, 15, 0, atChord live 15 { loading := some 0 }, by decide +kernel⟩, ⟨15, 0x140,
    atChord live 15 { loading := some 0x140 }, by decide +kernel⟩, ⟨15, [], [], atChord live 15 { ready := some ([], []) },
    by decide +kernel⟩, ⟨7, sealed (etherFrame [1, 2, 3, 4, 5, 6] [7, 8, 9, 10, 11, 12] [0x89, 0] 60), atChord (lv [(0x2307,
    9, 7), (0x2300, 9, 7)]) 7 { enable := true }, by decide +kernel⟩, ⟨7, sealed (etherFrame [1, 2, 3, 4, 5, 6] [7, 8, 9, 10,
    11, 12] [0x89, 0] 60), [1, 119], atChord (lv [(0x2307, 9, 7), (0x2300, 9, 7)]) 7 { enable := true, table := [[1, 119]] },
    by decide +kernel⟩, ⟨7, atChord live 7 { enable := true }, by decide +kernel⟩, ⟨15, 0, 0, 4080, [], captured,
    by decide +kernel, by decide +kernel, by decide +kernel, captured_store⟩⟩

theorem witness_LinksFollowTheirSources :
    (∃ (p : Fin 12) (told : Fin 8) (s : State), s.linkUp p = false ∧ s.portN p 1 ≠ 0 ∧ s.linkCfg p 2 ≠ 0 ∧ s.sourceSpeed p
      told ≠ 0 ∧ ifaceSpeed (s.linkCfg p 2) (s.sourceSpeed p told) = true) ∧
    (∃ (p : Fin 12) (told : Fin 8) (s : State), s.linkUp p = false ∧ s.portN p 1 ≠ 0 ∧ s.linkCfg p 2 ≠ 0 ∧ s.sourceSpeed p
      told ≠ 0 ∧ ifaceSpeed (s.linkCfg p 2) (s.sourceSpeed p told) = false) ∧
    (∃ (p : Fin 12) (s : State), s.linkUp p = true ∧ (s.port p).cur = none) ∧
    (∃ (p : Fin 12) (s : State), s.linkCfgDiffers p = true ∧ (s.port p).cur = none) ∧
    (∃ (n : Fin 4) (s : State), s.portN (8 + n.val) 1 = 1) ∧
    (∃ (n : Fin 4) (s : State), s.bit (0x2308 + n.val) 9 4 = true ∧ (s.port (8 + n.val)).cur = none) ∧
    (∃ (q : Path) (m : Fin 2) (phy reg : BitVec 5) (data : Half) (c : Instr) (op : Nat) (s : State), (c, op) ∈
      [(Instr.mdioC22Write q m phy reg data, 1), (Instr.mdioC22Read q m phy reg data, 2), (Instr.mdioC45Address q m phy reg
      data, 3), (Instr.mdioC45Write q m phy reg data, 4), (Instr.mdioC45Read q m phy reg data, 5), (Instr.mdioC45ReadIncrement
      q m phy reg data, 6)] ∧ s.writeOk q (0x2330 + m.val) 2 (mdioWord op phy reg data) = true) ∧
    (∃ (m : Fin 2) (s : State), s.bit (0x2330 + m.val) 3 0 = true) ∧
    (∃ (p : Fin 8) (r1 r4 r5 r9 r10 : Half) (s : State), let phy := s.linkCfg p 4; let m := fieldOf phy 8 1;
      let sp := if r1.getLsbD 2 then pollSpeed r4.toNat r5.toNat r9.toNat r10.toNat else 0; s.portN p 1 = 1 ∧ fieldOf
      (s.linkCfg p 3) 4 2 = 1 ∧ s.bit (0x2330 + m) 3 0 = false ∧ (s.linkUp p = false ∨ sp = s.speedOf p)) ∧
    (∃ (p : Fin 8) (r1 r4 r5 r9 r10 : Half) (s : State), let phy := s.linkCfg p 4; let m := fieldOf phy 8 1;
      let sp := if r1.getLsbD 2 then pollSpeed r4.toNat r5.toNat r9.toNat r10.toNat else 0; s.portN p 1 = 1 ∧ fieldOf
      (s.linkCfg p 3) 4 2 = 1 ∧ s.bit (0x2330 + m) 3 0 = false ∧ s.linkUp p = true ∧ sp ≠ s.speedOf p) :=
  ⟨⟨7, 0, atPort (lv [(0x2307, 1, 1)]) 7 { linkCfg := [(2, 3), (3, 3)] }, by decide +kernel⟩, ⟨7, 0, atPort (lv [(0x2307, 1,
    1)]) 7 { linkCfg := [(2, 1), (3, 3)] }, by decide +kernel⟩, ⟨11, lv [(0x230B, 9, 1)], by decide +kernel⟩, ⟨11, lv
    [(0x230B, 4, 1)], by decide +kernel⟩, ⟨3, lv [(0x230B, 1, 1)], by decide +kernel⟩, ⟨3, lv [(0x230B, 9, 0x10)],
    by decide +kernel⟩, ⟨P, 1, 31, 31, 0xFFFF, .mdioC45ReadIncrement P 1 31 31 0xFFFF, 6, live, by decide +kernel⟩, ⟨1, lv
    [(0x2331, 3, 1)], by decide +kernel⟩, ⟨7, 0, 0, 0, 0, 0, lv [(0x2307, 1, 1)], by decide +kernel⟩, ⟨7, 0, 0, 0, 0, 0, lv
    [(0x2307, 1, 1), (0x2307, 9, 7)], by decide +kernel⟩⟩

theorem witness_PortsReceiveAndPause :
    (∃ (p : Fin 12) (d : List Byte) (s : State), s.pw.sleep ≠ .standby ∧ s.linkUp p = true ∧ rxResult d none (s.rxCfg p 0xC) =
      .good ∧ be16 d 12 ≠ 0x8808 ∧ s.wakeMatch p d = 0 ∧ (s.port p).rxDone = none) ∧
    (∃ (p : Fin 12) (d : List Byte) (er : Option Nat) (s : State), s.pw.sleep ≠ .standby ∧ s.linkUp p = true ∧ rxResult d er
      (s.rxCfg p 0xC) = .fcs ∧ s.wakeMatch p d = 0 ∧ (s.port p).rxDone = none) ∧
    (∃ (p : Fin 12) (d : List Byte) (s : State), s.pw.sleep ≠ .standby ∧ s.linkUp p = true ∧ rxResult d none (s.rxCfg p 0xC) =
      .good ∧ be16 d 12 = 0x8808 ∧ s.wakeMatch p d = 0 ∧ mac48 d 0 = 0x0180C2000001 ∧ be16 d 14 = 1 ∧ bitOf (s.rxCfg p 0xD) 2
      = false ∧ bitOf (s.rxCfg p 0xD) 0 = true ∧ s.chordEgress p = none) ∧
    (∃ (p : Fin 12) (on off : Nat) (s : State), (s.port p).pauseReq = some (on, off)) ∧
    (∃ (p : Fin 12) (s : State), (s.port p).paused < 256) ∧
    (∃ (p : Fin 12) (c : Fin 8) (s : State), s.bit (0x2250 + p.val) 7 c = true ∧ s.portN p 0xF ≠ 0 ∧ s.fcSends p c = true ∧
      s.linkUp p = true ∧ s.chordEgress p = none) ∧
    (∃ (p : Fin 12) (c : Fin 8) (s : State), bitOf (s.port p).paused c = true ∧ s.portN p 0x10 ≠ 0) ∧
    (∃ (q : Path) (p : Fin 12) (s : State), s.writeOk q (0x2300 + p.val) 0x11 1 = true) ∧
    (∃ (p : Fin 12) (s : State), s.portN p 0x13 = 1 ∧ (s.port p).verifyTries < 3) ∧
    (∃ (p : Fin 12) (s : State), s.portN p 0x13 = 1 ∧ 3 ≤ (s.port p).verifyTries) ∧
    (∃ (p : Fin 12) (s : State), s.portN p 0x13 = 1 ∧ (s.port p).verifyTries ≠ 0) ∧
    (∃ (p : Fin 12) (s : State), s.portN p 0x13 = 1 ∧ (s.port p).verifyTries = 3) :=
  ⟨⟨11, sealed (etherFrame [1, 2, 3, 4, 5, 6] [7, 8, 9, 10, 11, 12] [0x89, 0] 60), (lv [(0x230B, 9, 7), (0x230B, 1, 1)]),
    by decide +kernel⟩, ⟨11, List.replicate 64 1, none, (lv [(0x230B, 9, 7), (0x230B, 1, 1)]), by decide +kernel⟩, ⟨11, sealed
    ([1, 0x80, 0xC2, 0, 0, 1, 7, 8, 9, 10, 11, 12, 0x88, 8, 0, 1, 0xFF, 0xFF] ++ List.replicate 42 0), atPort (lv [(0x230B, 9,
    7), (0x230B, 1, 1)]) 11 { rxCfg := [(0xD, 1)] }, by decide +kernel⟩, ⟨11, 1, 0, atPort live 11
    { pauseReq := some (1, 0) }, by decide +kernel⟩, ⟨11, atPort live 11 { paused := 255 }, by decide +kernel⟩, ⟨11, 7, atPort
    (lv [(0x225B, 7, 0x80), (0x230B, 9, 7)]) 11 { txCfg := [(0xD, 2)] }, by decide +kernel⟩, ⟨11, 7, atPort live 11
    { paused := 0x80 }, by decide +kernel⟩, ⟨P, 11, live, by decide +kernel⟩, ⟨11, atPort (lv [(0x230B, 0x13, 1)]) 11
    { verifyTries := 2 }, by decide +kernel⟩, ⟨11, atPort (lv [(0x230B, 0x13, 1)]) 11 { verifyTries := 3 },
    by decide +kernel⟩, ⟨11, atPort (lv [(0x230B, 0x13, 1)]) 11 { verifyTries := 1 }, by decide +kernel⟩, ⟨11, atPort (lv
    [(0x230B, 0x13, 1)]) 11 { verifyTries := 3 }, by decide +kernel⟩⟩

theorem witness_PortsSelectAndSend :
    (∃ (p : Fin 12) (dt : Nat) (d : List Byte) (pfc : Bool) (r : List (List Byte × Bool)) (s : State),
      let u := (s.advance dt).touchCredit p; u.txIdle p = true ∧ u.chordEgress p = none ∧ (u.port p).pauseQ = (d, pfc) :: r ∧
      u.guardOk p (wireNs (u.speedOf p) 60) = true) ∧
    (∃ (p : Fin 12) (dt c : Nat) (e : QEntry) (r : List QEntry) (s : State),
      let u := ((s.advance dt).touchCredit p).dropOversize p; ((s.advance dt).touchCredit p).txIdle p = true ∧ ((s.advance
      dt).touchCredit p).chordEgress p = none ∧ (((s.advance dt).touchCredit p).port p).pauseQ = [] ∧ u.grant p = some (c,
      none) ∧ u.queue p c = e :: r ∧ u.latticeForward p e = false) ∧
    (∃ (e : Fin 32) (s : State), fieldOf (s.engine e).txBound 0 5 = 0 ∧ s.txReady e = true ∧ (txSplit (s.engine e).tx).2.1 =
      none) ∧
    (∃ (e : Fin 32) (p : Fin 12) (c : Nat) (s : State), fieldOf (s.engine e).txBound 0 5 = p.val + 1 ∧ (s.touchCredit p).grant
      p = some (c, some e.val) ∧ (s.touchCredit p).txIdle p = true ∧ (s.touchCredit p).chordEgress p = none ∧ (txSplit
      (s.engine e).tx).2.1 = none) ∧
    (∃ (p : Fin 12) (x : TxCur) (s : State), (s.port p).cur = some x ∧ x.done = true ∧ x.entry = none ∧ x.newDa = none ∧
      x.stomp = false ∧ x.src ≠ .chord ∧ isSync x.data = false ∧ x.data.length + 4 ≤ s.txCfg p 0xC) ∧
    (∃ (p : Fin 12) (r : List Byte) (l : List (List Byte)) (f g : Nat) (s : State),
      let a := s.portN p 0x17 + 16 * (s.port p).tsSlot; (s.port p).tsPending = r :: l ∧ r.length = 12 ∧ regionOf a = .store f
      ∧ regionOf (a + 8) = .store g) ∧
    (∃ (m : Path) (p : Fin 12) (v : Word) (l : List (Nat × Nat × Nat)) (s : State), s.writeOk m (0x2260 + p.val) 8 v.toNat =
      true ∧ s.readGateList (s.n (0x2260 + p.val) 2) (s.n (0x2260 + p.val) 3) 10 = some l) ∧
    (∃ (m : Path) (p : Fin 12) (v : Word) (s : State), s.writeOk m (0x2260 + p.val) 8 v.toNat = true ∧ s.readGateList (s.n
      (0x2260 + p.val) 2) (s.n (0x2260 + p.val) 3) 10 = none) ∧
    (∃ (p : Fin 12) (dt : Nat) (l : List (Nat × Nat × Nat)) (cy at0 : Nat) (s : State), ((s.advance dt).gate p).pend = some
      (l, cy, at0) ∧ at0 ≤ (s.advance dt).now64 (s.txCfg p 0x14)) ∧
    (∃ (p : Fin 12) (dt : Nat) (g : GateCtl) (s : State), ((s.advance dt).gate p).next ((s.advance dt).now64 (s.txCfg p 0x14))
      = some g) :=
  ⟨⟨11, 1, [1], true, [], atPort (lv [(0x230B, 9, 7), (0x230B, 1, 1)]) 11 { pauseQ := [([1], true)] }, by decide +kernel⟩,
    ⟨11, 1, 7, { frame := 0, ingress := 0, cls := 7 }, [],
    { (lv [(0x230B, 9, 7), (0x230B, 1, 1)]) with sw := { frames := [(0, { len := 64, cells := [0], checks := [0], refs := 1 })], queues := [(95, [{ frame := 0, ingress := 0, cls := 7 }])] } },
    by decide +kernel⟩, ⟨31, (live.setEngine 31 { tx := List.replicate 64 (.nib 0) }).setEngine 30 { rxBound := 19 },
    by decide +kernel⟩, ⟨31, 11, 7, (lv [(0x230B, 9, 7), (0x230B, 1, 1)]).setEngine 31
    { txBound := 0x70C, tx := List.replicate 64 (.nib 0) }, by decide +kernel⟩, ⟨11,
    { src := .pause, done := true, data := List.replicate 60 0 }, atPort live 11
    { cur := some { src := .pause, done := true, data := List.replicate 60 0 } }, by decide +kernel⟩, ⟨11, List.replicate 12
    0, [], 7, 7, atPort (lv [(0x230B, 0x17, 0x0D1FFF00)]) 11 { tsPending := [List.replicate 12 0], tsSlot := 15 },
    by decide +kernel⟩, ⟨P, 11, 1, [(1, 0, 2)], poke live [(0, [1, 0, 0, 0, 2])], by decide +kernel⟩, ⟨P, 11, 1, live,
    by decide +kernel⟩, ⟨11, 1, [], 0, 0, { live with sw := { gates := [(11, { pend := some ([], 0, 0) })] } },
    by decide +kernel⟩, ⟨11, 1, { oper := [(1, 0, 2)], cycle := 2, idx := 0, entryAt := 2, cycleAt := 2 },
    { (live.wr 0x2103 1 0) with sw := { gates := [(11, { oper := [(1, 0, 2)], cycle := 2 })] } }, by decide +kernel⟩⟩

theorem witness_FramesPassTheSwitch :
    (∃ (p : Fin 12) (head : List Byte) (d : Nat) (s : State), let cls := (s.classify p head).1;
      let vid := (s.classify p head).2; let n := cellsOf (s.rxCfg p 0xC); s.swTakes p = true ∧ (s.port p).ctx = none ∧ be16
      head 12 ≠ 0x8808 ∧ s.waitsWhole p head = false ∧ s.latticeType p head = false ∧ s.streamOf p vid head = none ∧
      (stationsOf (s.lookup p (mac48 head 0) vid)).filter (s.reachable p cls) = [d] ∧ s.accepting [d] cls n = [d]) ∧
    (∃ (p : Fin 12) (head : List Byte) (s : State), s.swTakes p = true ∧ (s.port p).ctx = none ∧ be16 head 12 ≠ 0x8808 ∧
      s.waitsWhole p head = false ∧ s.latticeType p head = false ∧ s.streamOf p (s.classify p head).2 head = none ∧
      (stationsOf (s.lookup p (mac48 head 0) (s.classify p head).2)).filter (s.reachable p (s.classify p head).1) = []) ∧
    (∃ (p : Fin 12) (head : List Byte) (q : Nat) (s : State), let h := etPos head + 2; let dest := be16 head (h + 2);
      let cls := fieldOf (s.n 0x2800 8) (4 * (at' head (h + 6) / 16)) 3; let n := cellsOf (s.rxCfg p 0xC); s.swTakes p = true
      ∧ (s.port p).ctx = none ∧ s.waitsWhole p head = false ∧ be16 head 12 ≠ 0x8808 ∧ s.latticeType p head = true ∧
      s.latticeMine p head = true ∧ 1 ≤ dest ∧ dest ≤ 1023 ∧ dest ≠ s.n 0x2802 1 ∧ at' head h / 16 = 1 ∧ at' head (h + 6) / 16
      < 8 ∧ 1 < at' head (h + 1) ∧ s.routeFor dest = some q ∧ s.reachable p cls q = true ∧ s.accepting [q] cls n = [q]) ∧
    (∃ (p : Fin 12) (f : Nat) (d : List Byte) (s : State), (s.port p).ctx = some { frame := some f } ∧ (s.port p).rxDone =
      some (d, true)) ∧
    (∃ (p : Fin 12) (d : List Byte) (e : Nat) (s : State), let vid := (s.classify p d).2; (s.port p).ctx = some {} ∧ (s.port
      p).rxDone = some (d, true) ∧ s.n (0x2250 + p.val) 3 ≠ 0 ∧ s.fdbFind (mac48 d 6) vid = none ∧ s.fdbFree (mac48 d 6) vid =
      some e) ∧
    (∃ (p : Fin 12) (f : Nat) (d : List Byte) (s : State), (s.port p).ctx = some { frame := some f } ∧ (s.port p).rxDone =
      some (d, false)) ∧
    (∃ (st : Fin 10) (c : Fin 8) (e : QEntry) (r : List QEntry) (s : State), let i := 0x22A0 + st.val;
      let a := ringDesc (s.n i (1 + c.val)) (s.n i (0x11 + c.val)); let x := s.frame e.frame;
      let d := ringBytes e (s.cellPrefix x.cells x.checks x.len).1; s.queue (12 + st.val) c = e :: r ∧ x.len ≠ 0 ∧ ringOn (s.n
      i (1 + c.val)) = true ∧ (s.n i (9 + c.val) + 2 ^ 16 - s.n i (0x11 + c.val)) % 2 ^ 16 ≠ 0 ∧ (s.cellPrefix x.cells
      x.checks x.len).2 = false ∧ d.length ≤ fieldOf (s.w32 (a + 4)) 0 16) ∧
    (∃ (st : Fin 10) (k : Nat) (l : List Nat) (ok : Bool) (s : State), s.swOn = true ∧ ((List.range 4).map (fun j => (tblGet
      (fun _ => 0) st.val s.sw.txTurn + j) % 4)).find? (fun j => (s.txReadyRing st j).isSome) = some k ∧ s.txReadyRing st k =
      some (l, ok)) ∧
    (∃ s : State, s.n 0x2200 0xB ≠ 0) :=
  ⟨⟨11, etherFrame [1, 2, 3, 4, 5, 6] [7, 8, 9, 10, 11, 12] [0x89, 0] 64, 10, lv [(0x2200, 1, 1), (0x230B, 9, 7), (0x230A, 9,
    7), (0x230A, 1, 1), (0x225B, 4, 0x400)], by decide +kernel⟩, ⟨11, etherFrame [1, 2, 3, 4, 5, 6] [7, 8, 9, 10, 11, 12]
    [0x89, 0] 64, lv [(0x2200, 1, 1), (0x230B, 9, 7), (0x230A, 9, 7), (0x230A, 1, 1), (0x225B, 4, 0)], by decide +kernel⟩,
    ⟨11, [0, 0, 0, 0, 0, 0, 7, 8, 9, 10, 11, 12, 0x88, 0xB5, 0x10, 2, 0x03, 0xFF, 0, 0, 0, 0] ++ List.replicate 42 0, 10,
    { lv [(0x2200, 1, 1), (0x230B, 9, 7), (0x230A, 9, 7), (0x230A, 1, 1), (0x2800, 1, 1), (0x2800, 3, 0x800), (0x2800, 2, 0x88B5), (0x2810, 1, 2)] with lat := { routes := [(1023, 0x20A)] } },
    by decide +kernel⟩, ⟨11, 0, [], atPort live 11 { ctx := some { frame := some 0 }, rxDone := some ([], true) },
    by decide +kernel⟩, ⟨11, etherFrame [1, 2, 3, 4, 5, 6] [7, 8, 9, 10, 11, 12] [0x89, 0] 64, fdbBucket 0x0708090A0B0C 1 * 4,
    atPort (lv [(0x225B, 3, 1)]) 11
    { ctx := some {}, rxDone := some (etherFrame [1, 2, 3, 4, 5, 6] [7, 8, 9, 10, 11, 12] [0x89, 0] 64, true) },
    by decide +kernel⟩, ⟨11, 0, [], atPort live 11 { ctx := some { frame := some 0 }, rxDone := some ([], false) },
    by decide +kernel⟩, ⟨9, 7, { frame := 0, ingress := 0, cls := 7 }, [],
    { poke (lv [(0x22A9, 8, 0x100010), (0x22A9, 0x10, 1)]) [(0x100004, [64])] with sw := { frames := [(0, { len := 64, cells := [0], checks := [crc32c (List.replicate 64 0)], refs := 1 })], queues := [(175, [{ frame := 0, ingress := 0, cls := 7 }])] } },
    by decide +kernel⟩, ⟨9, 3, [0x100000], true, poke (lv [(0x2200, 1, 1), (0x22A9, 0x1C, 0x100010), (0x22A9, 0x20, 1)])
    [(0x100006, [3])], by decide +kernel⟩, ⟨live, by decide +kernel⟩⟩

theorem witness_SwitchTablesAnswerCommands_1 :
    (∃ (q : Path) (c : Instr) (k : Nat) (s : State), (c, k) ∈ [(Instr.fdbReadEntry q, 1), (Instr.fdbInsert q, 2),
      (Instr.fdbDelete q, 3), (Instr.fdbFlush q, 4)] ∧ s.writeOk q 0x2290 7 k = true ∧ s.sw.fdbCmd = none) ∧
    (∃ (x : FdbEntry) (s : State), s.sw.fdbCmd = some 1 ∧ s.fdbAt (s.n 0x2290 1) = some x) ∧
    (∃ (e : Nat) (s : State), let mac := s.n 0x2290 2; let vid := fieldOf (s.n 0x2290 4) 0 12; s.sw.fdbCmd = some 2 ∧
      (s.fdbFind mac vid = some e ∨ (s.fdbFind mac vid = none ∧ s.fdbFree mac vid = some e))) ∧
    (∃ s : State, s.sw.fdbCmd = some 2 ∧ s.fdbFind (s.n 0x2290 2) (fieldOf (s.n 0x2290 4) 0 12) = none ∧ s.fdbFree (s.n 0x2290
      2) (fieldOf (s.n 0x2290 4) 0 12) = none) ∧
    (∃ (e : Nat) (s : State), s.sw.fdbCmd = some 3 ∧ s.fdbFind (s.n 0x2290 2) (fieldOf (s.n 0x2290 4) 0 12) = some e) ∧
    (∃ s : State, s.sw.fdbCmd = some 4) ∧
    (∃ (e : Fin 8192) (dt : Nat) (x : FdbEntry) (s : State), s.fdbAt e = some x ∧ x.isStatic = false ∧ s.n 0x2290 9 ≠ 0 ∧ s.n
      0x2290 9 * secondTicks ≤ s.ticks + dt - x.at') ∧
    (∃ (q : Path) (s : State), s.writeOk q 0x2280 6 1 = true) ∧
    (∃ (q : Path) (s : State), s.writeOk q 0x2280 6 2 = true) ∧
    (∃ (q : Path) (s : State), s.writeOk q 0x2280 6 3 = true) ∧
    (∃ (q : Path) (s : State), s.writeOk q 0x2281 9 1 = true) ∧
    (∃ (q : Path) (s : State), s.writeOk q 0x2281 9 2 = true) :=
  ⟨⟨P, .fdbFlush P, 4, live, by decide +kernel⟩, ⟨{},
    { lv [(0x2290, 1, 8191)] with sw := { fdbCmd := some 1, fdb := [(8191, {})] } }, by decide +kernel⟩, ⟨fdbBucket 0 0 * 4,
    { live with sw := { fdbCmd := some 2 } }, by decide +kernel⟩,
    ⟨{ live with sw := { fdbCmd := some 2, fdb := [0, 1, 2, 3].map (fun k => (fdbBucket 0 0 * 4 + k, { mac := k + 1 })) } },
    by decide +kernel⟩, ⟨fdbBucket 0 0 * 4, { live with sw := { fdbCmd := some 3, fdb := [(fdbBucket 0 0 * 4, {})] } },
    by decide +kernel⟩, ⟨{ live with sw := { fdbCmd := some 4 } }, by decide +kernel⟩, ⟨8191, 1000000 * secondTicks, {},
    { live with sw := { fdb := [(8191, {})] } }, by decide +kernel⟩, ⟨P, live, by decide +kernel⟩, ⟨P, live,
    by decide +kernel⟩, ⟨P, live, by decide +kernel⟩, ⟨P, live, by decide +kernel⟩, ⟨P, live, by decide +kernel⟩⟩

theorem witness_SwitchTablesAnswerCommands_2 :
    (∃ (q : Path) (s : State), let g := s.n 0x2281 1; ∃ l, s.writeOk q 0x2281 9 3 = true ∧ s.readGateList (s.sgate g).list
      (s.sgate g).len 5 = some l) ∧
    (∃ (q : Path) (s : State), let g := s.n 0x2281 1; s.writeOk q 0x2281 9 3 = true ∧ s.readGateList (s.sgate g).list (s.sgate
      g).len 5 = none) ∧
    (∃ (g : Fin 64) (dt : Nat) (l : List (Nat × Nat × Nat)) (cy at0 : Nat) (s : State), (s.sgate g).ctl.pend = some (l, cy,
      at0) ∧ at0 ≤ (s.advance dt).now64 (s.sgate g).dom) ∧
    (∃ (g : Fin 64) (dt : Nat) (x : GateCtl) (s : State), (s.sgate g).ctl.next ((s.advance dt).now64 (s.sgate g).dom) = some
      x) ∧
    (∃ (q : Path) (s : State), s.writeOk q 0x2282 7 1 = true) ∧
    (∃ (q : Path) (s : State), s.writeOk q 0x2282 7 2 = true) ∧
    (∃ (q : Path) (s : State), s.writeOk q 0x2282 7 3 = true) ∧
    (∃ (q : Path) (s : State), s.writeOk q 0x2283 4 1 = true) ∧
    (∃ (q : Path) (s : State), s.writeOk q 0x2283 4 2 = true) ∧
    (∃ (q : Path) (s : State), s.writeOk q 0x2283 4 3 = true) ∧
    (∃ (h : Fin 256) (s : State), bitOf (s.cb h).func 1 = true ∧ fieldOf (s.cb h).func 16 16 ≠ 0 ∧ (s.cb h).takeAny = false) :=
  ⟨⟨P, poke live [(0, [1, 0, 0, 0, 2])], [(1, 0, 2)], by decide +kernel⟩, ⟨P, live, by decide +kernel⟩, ⟨63, 1, [], 0, 0,
    { live with sw := { sgates := [(63, { ctl := { pend := some ([], 0, 0) } })] } }, by decide +kernel⟩, ⟨63, 1,
    { oper := [(1, 0, 2)], cycle := 2, entryAt := 2, cycleAt := 2 },
    { (live.wr 0x2103 1 0) with sw := { sgates := [(63, { ctl := { oper := [(1, 0, 2)], cycle := 2 } })] } },
    by decide +kernel⟩, ⟨P, live, by decide +kernel⟩, ⟨P, live, by decide +kernel⟩, ⟨P, live, by decide +kernel⟩, ⟨P, live,
    by decide +kernel⟩, ⟨P, live, by decide +kernel⟩, ⟨P, live, by decide +kernel⟩, ⟨255,
    { live with sw := { cbs := [(255, { func := 0x10002, takeAny := false })] } }, by decide +kernel⟩⟩

theorem witness_TimeDomainsKeepTime_1 :
    (∃ (q : Path) (d : Fin 4) (v : DWord) (s : State), s.writeOk q (0x2100 + d.val) 6 v.toNat = true) ∧
    (∃ (q : Path) (d : Fin 4) (v : Word) (s : State), s.writeOk q (0x2100 + d.val) 0xA v.toNat = true) ∧
    (∃ (d : Fin 4) (s : State), s.pw.pllLocked = true ∧ (s.tdom d).adjusting = false ∧ s.n (0x2100 + d.val) 4 < 2 ^ 32) ∧
    (∃ (d : Fin 4) (dt : Nat) (s : State), let i := 0x2100 + d.val; s.pw.pllLocked = true ∧ (s.tdom d).adjusting = true ∧ s.n
      i 4 < 2 ^ 32 ∧ s.n i 0xA ≤ dt) ∧
    (∃ (q : Path) (d : Fin 4) (c : Instr) (k : Nat) (s : State), (c, k) ∈ [(Instr.stepDisarm q d, 0), (Instr.stepNow q d, 1),
      (Instr.stepArmAt q d, 2)] ∧ s.writeOk q (0x2100 + d.val) 0xE k = true) ∧
    (∃ (d : Fin 4) (dt : Nat) (s : State), let i := 0x2100 + d.val; let u := s.advance dt; ((s.tdom d).stepMode = 1 ∨ ((s.tdom
      d).stepMode = 2 ∧ isDue (u.now32 d) (s.n i 0xB) = true))) ∧
    (∃ (i : Fin 4) (dt : Nat) (s : State), let u := s.advance dt; s.ppsRuns i = true ∧ (s.ppsOf i).next ≤ u.now64 (s.ppsDom
      i)) ∧
    (∃ (i : Fin 4) (dt : Nat) (s : State), (s.ppsOf i).on = true ∧ (s.ppsOf i).endAt ≤ (s.advance dt).now64 (s.ppsDom i)) ∧
    (∃ (q : Path) (d : Fin 4) (v : Word) (s : State), s.writeOk q (0x2100 + d.val) 5 v.toNat = true) ∧
    (∃ (i : Fin 4) (falling : Bool) (s : State), let o := 0x2150 + i.val; s.bit o 1 4 = true ∧ s.capSelects i falling = true ∧
      (s.capFifo i).length < 4) ∧
    (∃ (i : Fin 4) (falling : Bool) (s : State), let o := 0x2150 + i.val; s.bit o 1 4 = true ∧ s.capSelects i falling = true ∧
      4 ≤ (s.capFifo i).length) ∧
    (∃ (q : Path) (i : Fin 4) (x y : CapEntry) (r : List CapEntry) (s : State), s.writeOk q (0x2150 + i.val) 5 1 = true ∧
      s.capFifo i = x :: y :: r) :=
  ⟨⟨P, 3, 0x240000000, live, by decide +kernel⟩, ⟨P, 3, 0xFFFFFFFF, live, by decide +kernel⟩, ⟨3, live, by decide +kernel⟩,
    ⟨3, 5, { lv [(0x2103, 0xA, 5)] with dom := [(3, { adjusting := true })] }, by decide +kernel⟩, ⟨P, 3, .stepArmAt P 3, 2,
    live, by decide +kernel⟩, ⟨3, 1, { live with dom := [(3, { stepMode := 2 })] }, by decide +kernel⟩, ⟨3, 1, lv [(0x215B, 1,
    4)], by decide +kernel⟩, ⟨3, 1, { live with pps := [(3, { on := true, endAt := 2 })] }, by decide +kernel⟩, ⟨P, 3, 1,
    live, by decide +kernel⟩, ⟨3, true, { lv [(0x2153, 1, 0x1B)] with caps := [(3, List.replicate 3 ⟨0, 0, false⟩)] },
    by decide +kernel⟩, ⟨3, true, { lv [(0x2153, 1, 0x1B)] with caps := [(3, List.replicate 4 ⟨0, 0, false⟩)] },
    by decide +kernel⟩, ⟨P, 3, ⟨0, 0, false⟩, ⟨1, 0, true⟩, [], { live with caps := [(3, [⟨0, 0, false⟩, ⟨1, 0, true⟩])] },
    by decide +kernel⟩⟩

theorem witness_TimeDomainsKeepTime_2 :
    ∃ (d : Fin 4) (k : Fin 16) (dt : Nat) (s : State), let i := trigIdx d k; let u := s.advance dt; s.n i 1 = 1 ∧ isDue
      (u.now32 d) (s.n i 6) = true :=
  ⟨3, 15, 1, live.wr (trigIdx 3 15) 1 1, by decide +kernel⟩

theorem witness_LaunchesKeepTheirTimes :
    (∃ (q : Path) (k : Fin 64) (v : Half) (s : State), s.writeOk q (launchIdx k) 1 v.toNat = true ∧ v.getLsbD 0 = true) ∧
    (∃ (q : Path) (k : Fin 64) (v : Half) (s : State), s.writeOk q (launchIdx k) 1 v.toNat = true ∧ v.getLsbD 0 = false ∧
      s.bit (launchIdx k) 1 0 = true ∧ (s.launchOf k).begun = false) ∧
    (∃ (q : Path) (k : Fin 64) (v : Byte) (s : State), s.writeOk q (launchIdx k) 8 v.toNat = true ∧ s.bit (launchIdx k) 1 0 =
      true) ∧
    (∃ (k : Fin 64) (dt : Nat) (s : State), let u := s.advance dt; u.n (launchIdx k) 7 = 1 ∧ (u.launchOf k).fetching = false ∧
      u.launchBuffers (u.launchPort k) < 2 ∧ isDue (u.now32 (u.launchDom k)) ((u.n (launchIdx k) 9 + 2 ^ 32 - u.n (launchIdx
      k) 6) % 2 ^ 32) = true) ∧
    (∃ (k : Fin 64) (s : State), (s.launchOf k).fetching = true ∧ s.memc.dbe = [] ∧ inBankOrStore (s.n (launchIdx k) 2) = true
      ∧ s.n (launchIdx k) 3 ≠ 0) ∧
    (∃ (k : Fin 64) (phase : Fin 8) (dt : Nat) (d : List Byte) (s : State), let u := s.advance dt; let p := u.launchPort k;
      (u.launchOf k).data = some d ∧ -8 ≤ u.launchLate k phase ∧ u.launchFirst k = true ∧ u.domHeld (u.launchDom k) = false ∧
      u.linkUp p = true ∧ u.chordEgress p = none ∧ (u.port p).cur = none ∧ u.launchLate k phase ≤ u.launchSlack p) ∧
    (∃ (k : Fin 64) (phase : Fin 8) (dt : Nat) (d : List Byte) (s : State), let u := s.advance dt; let p := u.launchPort k;
      (u.launchOf k).data = some d ∧ -8 ≤ u.launchLate k phase ∧ u.launchFirst k = true ∧ u.domHeld (u.launchDom k) = false ∧
      u.linkUp p = true ∧ u.chordEgress p = none ∧ (u.port p).cur = none ∧ u.launchSlack p < u.launchLate k phase ∧ (fieldOf
      (u.n (0x2160 + p) (1 + u.launchCls k)) 0 20 : Int) * 4 < u.launchLate k phase ∧ u.bit (0x2160 + p) (1 + u.launchCls k)
      20 = false) ∧
    (∃ (k : Fin 64) (phase : Fin 8) (dt : Nat) (d : List Byte) (s : State), let u := s.advance dt; (u.launchOf k).data = some
      d ∧ -8 ≤ u.launchLate k phase ∧ u.launchFirst k = true ∧ u.domHeld (u.launchDom k) = true) ∧
    (∃ (k : Fin 64) (s : State), (s.launchOf k).begun = true ∧ (∀ (p : Nat) (c : TxCur), p < 12 → (s.port p).cur = some c →
      c.src ≠ .launch k)) :=
  ⟨⟨P, 63, 1, lv [(0x21BF, 3, 60)], by decide +kernel⟩, ⟨P, 63, 0, lv [(0x21BF, 1, 1)], by decide +kernel⟩, ⟨P, 63, 1, lv
    [(0x21BF, 1, 1)], by decide +kernel⟩, ⟨63, 1, lv [(0x21BF, 7, 1)], by decide +kernel⟩, ⟨63,
    { lv [(0x21BF, 3, 60)] with launch := [(63, { fetching := true })] }, by decide +kernel⟩, ⟨63, 0, 1, [],
    { lv [(0x21BF, 1, 0xB01), (0x230B, 9, 7), (0x2100, 5, 1), (0x21BF, 9, 66)] with launch := [(63, { data := some [] })] },
    by decide +kernel⟩, ⟨63, 0, 1000, [],
    { lv [(0x21BF, 1, 0xB01), (0x230B, 9, 7), (0x2100, 5, 1)] with launch := [(63, { data := some [] })] },
    by decide +kernel⟩, ⟨63, 0, 1, [], { lv [(0x21BF, 1, 0xB01)] with launch := [(63, { data := some [] })] },
    by decide +kernel⟩, ⟨63, { launch := [(63, { begun := true })] }, by decide +kernel, fun _ _ _ h => nomatch h⟩⟩

theorem witness_RingLinksHealAndForward_1 :
    (∃ (q : Path) (n : Fin 4) (v : Word) (s : State), s.writeOk q (0x2600 + n.val) 1 v.toNat = true ∧ v ≠ 0 ∧ s.perState n = 0
      ∧ s.perC n 6 < 4) ∧
    (∃ (q : Path) (n : Fin 4) (s : State), s.writeOk q (0x2600 + n.val) 1 0 = true ∧ s.perC n 6 < 4) ∧
    (∃ (n : Fin 4) (s : State), s.perState n ≠ 0) ∧
    (∃ (n : Fin 4) (east : Bool) (s : State), s.perState n = 3 ∧ s.perLock n east = true ∧ s.perLock n (!east) = true ∧ s.perC
      n 6 < 4) ∧
    (∃ (n : Fin 4) (east : Bool) (s : State), s.perState n ≠ 0 ∧ s.perS n 0xA = (if east then 1 else 2) ∧ s.perC n 6 < 4) ∧
    (∃ (n : Fin 4) (east : Bool) (s : State), s.perState n ≠ 0 ∧ s.perLock n east = true ∧ s.n (0x2650 + n.val) 0x10 < 2 ^ 32
      ∧ s.perC n 6 < 4) ∧
    (∃ (n : Fin 4) (s : State), (s.ring n).silent = true) ∧
    (∃ (n : Fin 4) (east : Bool) (f : List Nib) (s : State), let d := if east then 8 + 2 * n.val else 9 + 2 * n.val;
      s.perState n ≠ 0 ∧ s.perLock n east = true ∧ (s.ring n).attempt = none ∧ (s.ring n).head = false ∧ (s.chordOf d).ready =
      none ∧ (s.chordOf d).table = [] ∧ perType f = 1 ∧ perCheck f = .good) ∧
    (∃ (n : Fin 4) (east : Bool) (f : List Nib) (ago : Nat) (phase : Fin 8) (s : State),
      let d := if east then 8 + 2 * n.val else 9 + 2 * n.val; ∃ e, s.perState n ≠ 0 ∧ s.perLock n east = true ∧ (s.ring
      n).attempt = none ∧ (s.ring n).head = false ∧ (s.chordOf d).ready = none ∧ (s.chordOf d).table = [] ∧ perType f = 1 ∧
      perCheck f = .good ∧ perSlot f < 1024 ∧ 2 ≤ s.perState n ∧ (s.ring n).refSeen = true ∧ (s.ring n).refEast = east ∧
      s.perEntry n (perSlot f) = some e ∧ s.perInWindow n e (s.stampAt (s.perDom n) ago phase 0) = true) ∧
    (∃ (n : Fin 4) (east : Bool) (f : List Nib) (s : State), let d := if east then 8 + 2 * n.val else 9 + 2 * n.val;
      s.perState n ≠ 0 ∧ s.perLock n east = true ∧ (s.ring n).attempt = none ∧ (s.ring n).head = false ∧ (s.chordOf d).ready =
      none ∧ (s.chordOf d).table = [] ∧ perType f = 1 ∧ perCheck f = .good ∧ perSlot f < 1024 ∧ (s.ring n).refSeen = true ∧
      (s.ring n).refEast ≠ east) ∧
    (∃ (n : Fin 4) (east : Bool) (f : List Nib) (s : State), let d := if east then 8 + 2 * n.val else 9 + 2 * n.val;
      s.perState n ≠ 0 ∧ s.perLock n east = true ∧ (s.ring n).attempt = none ∧ (s.ring n).head = false ∧ (s.chordOf d).ready =
      none ∧ (s.chordOf d).table = [] ∧ perType f = 1 ∧ perCheck f = .crc) ∧
    (∃ (n : Fin 4) (east : Bool) (s : State), s.perState n ≠ 0 ∧ s.perLock n east = true ∧ (s.echoOf n east).waiting = false ∧
      (s.echoOf n east).tries < 64) :=
  ⟨⟨P, 3, 1, lv [(0x2603, 2, 1), (0x2603, 3, 5), (0x2603, 6, 3), (0x2103, 1, 4)], by decide +kernel⟩, ⟨P, 3, live,
    by decide +kernel⟩, ⟨3, lv [(0x2613, 1, 1)], by decide +kernel⟩, ⟨3, true, lv [(0x2613, 1, 3), (0x2613, 0xA, 3)],
    by decide +kernel⟩, ⟨3, false, lv [(0x2613, 1, 1), (0x2613, 0xA, 2)], by decide +kernel⟩, ⟨3, true, lv [(0x2613, 1, 3),
    (0x2613, 0xA, 3)], by decide +kernel⟩, ⟨3, ring3 live { silent := true }, by decide +kernel⟩, ⟨3, true, perFrame 0 7 1 [],
    lv [(0x2613, 1, 3), (0x2613, 0xA, 3)], by decide +kernel⟩, ⟨3, true, perFrame 0 7 1 [], 0, 0, ring3 (lv [(0x2613, 1, 3),
    (0x2613, 0xA, 3)]) { refSeen := true, refEast := true, tables := [(0, [List.replicate 8 0])] }, List.replicate 8 0,
    by decide +kernel⟩, ⟨3, true, perFrame 0 7 1 [], ring3 (lv [(0x2613, 1, 3), (0x2613, 0xA, 3)]) { refSeen := true },
    by decide +kernel⟩, ⟨3, true, (perFrame 0 7 1 []).take 10 ++ List.replicate 8 0, lv [(0x2613, 1, 3), (0x2613, 0xA, 3)],
    by decide +kernel⟩, ⟨3, true, ring3 (lv [(0x2613, 1, 3), (0x2613, 0xA, 3)]) { echo := [(1, { tries := 63 })] },
    by decide +kernel⟩⟩

theorem witness_RingLinksHealAndForward_2 :
    (∃ (n : Fin 4) (east : Bool) (s : State), s.perState n ≠ 0 ∧ s.perLock n east = true) ∧
    (∃ (n : Fin 4) (east : Bool) (s : State), (s.echoOf n east).waiting = true ∧ (s.echoOf n east).count + 1 < 16) ∧
    (∃ (n : Fin 4) (east : Bool) (s : State), (s.echoOf n east).waiting = true ∧ (s.echoOf n east).count = 15) ∧
    (∃ (n : Fin 4) (east : Bool) (s : State), (s.echoOf n east).waiting = true) :=
  ⟨⟨3, true, lv [(0x2613, 1, 3), (0x2613, 0xA, 3)], by decide +kernel⟩, ⟨3, true, ring3 live
    { echo := [(1, { waiting := true, count := 14 })] }, by decide +kernel⟩, ⟨3, true, ring3 live
    { echo := [(1, { waiting := true, count := 15 })] }, by decide +kernel⟩, ⟨3, true, ring3 live
    { echo := [(1, { waiting := true })] }, by decide +kernel⟩⟩

theorem witness_RingsMeasureAndManage_1 :
    (∃ (n : Fin 4) (east : Bool) (s : State), s.perC n 2 = 0 ∧ s.perState n ≠ 0 ∧ s.perLock n east = true) ∧
    (∃ (n : Fin 4) (x : PerFrame) (s : State), let p := bytesOf x.payload; (s.ring n).got = some x ∧ x.typ = 3 ∧ s.perC n 2 =
      1 ∧ x.payload.length = 2048 ∧ pLe p 5 1 = 0) ∧
    (∃ (n : Fin 4) (x : PerFrame) (s : State), let p := bytesOf x.payload; (s.ring n).got = some x ∧ x.typ = 3 ∧ s.perC n 2 =
      0 ∧ x.payload.length = 2048 ∧ pLe p 5 1 = 0 ∧ (s.ring n).measS = none) ∧
    (∃ (n : Fin 4) (x : PerFrame) (s : State), let p := bytesOf x.payload; (s.ring n).got = some x ∧ x.typ = 3 ∧ s.perC n 2 =
      0 ∧ x.payload.length = 2048 ∧ pLe p 5 1 = 0 ∧ (s.ring n).measS ≠ none) ∧
    (∃ (q : Path) (n : Fin 4) (s : State), s.writeOk q (0x2640 + n.val) 4 1 = true ∧ ((s.ring n).head = false ∨ (s.ring
      n).started = true)) ∧
    (∃ (n : Fin 4) (d : List Byte) (s : State), s.n (0x2640 + n.val) 5 = 1 ∧ (s.ring n).mgmtSent = true ∧ d.length = s.n
      (0x2640 + n.val) 2) ∧
    (∃ (n : Fin 4) (s : State), s.n (0x2640 + n.val) 5 = 1 ∧ (s.ring n).mgmtSent = true) ∧
    (∃ (n : Fin 4) (x : PerFrame) (p : List Byte) (s : State), pLe p 2 1 ≠ 255 ∧ s.mgmtFor n 1 = some (x, p)) ∧
    (∃ (n : Fin 4) (x : PerFrame) (p : List Byte) (s : State), pLe p 2 1 ≠ 255 ∧ s.mgmtFor n 2 = some (x, p) ∧ pLe p 1 1 = 1 ∧
      1 ≤ pLe p 4 1 ∧ pLe p 4 1 ≤ 254) ∧
    (∃ (n : Fin 4) (x : PerFrame) (p : List Byte) (s : State), pLe p 2 1 ≠ 255 ∧ s.mgmtFor n 3 = some (x, p) ∧ pLe p 4 1 ≤ 8) ∧
    (∃ (n : Fin 4) (x : PerFrame) (p : List Byte) (s : State), pLe p 2 1 ≠ 255 ∧ s.mgmtFor n 4 = some (x, p) ∧ ((s.staged n
      (pLe p 8 1)).map (·.2.length)).sum ≠ pLe p 4 4) ∧
    (∃ (n : Fin 4) (x : PerFrame) (p : List Byte) (s : State),
      let e := s.stagedEntries n (pLe p 8 1) (stagedBytes (s.staged n (pLe p 8 1))); pLe p 2 1 ≠ 255 ∧ s.mgmtFor n 4 = some
      (x, p) ∧ pLe p 8 1 < 8 ∧ ((s.staged n (pLe p 8 1)).map (·.2.length)).sum = pLe p 4 4 ∧ (stagedBytes (s.staged n (pLe p 8
      1))).length % 16 = 0 ∧ e.length ≤ 1024 ∧ s.slotsElse n (pLe p 8 1) + e.length ≤ 4096 ∧ s.slotTableFault n (pLe p 8 1) 0
      none e = none) :=
  ⟨⟨3, true, lv [(0x2613, 1, 3), (0x2613, 0xA, 3)], by decide +kernel⟩, ⟨3, perGot 3 (List.replicate 2048 0), ring3 (lv
    [(0x2603, 2, 1)]) { got := some (perGot 3 (List.replicate 2048 0)) }, by decide +kernel⟩, ⟨3, perGot 3 (List.replicate
    2048 0), ring3 live { got := some (perGot 3 (List.replicate 2048 0)) }, by decide +kernel⟩, ⟨3, perGot 3 (List.replicate
    2048 0), ring3 live { got := some (perGot 3 (List.replicate 2048 0)), measS := some (0, 0, []) }, by decide +kernel⟩, ⟨P,
    3, live, by decide +kernel⟩, ⟨3, [1, 2, 3], ring3 (lv [(0x2643, 5, 1), (0x2643, 2, 3)]) { mgmtSent := true },
    by decide +kernel⟩, ⟨3, ring3 (lv [(0x2643, 5, 1)]) { mgmtSent := true }, by decide +kernel⟩, ⟨3, perGot 5 (nibsOf ([1, 0,
    5] ++ List.replicate 20 0)), ([1, 0, 5] ++ List.replicate 20 0), asked ([1, 0, 5] ++ List.replicate 20 0) [] {},
    by decide +kernel⟩, ⟨3, perGot 5 (nibsOf ([2, 1, 5, 0, 254] ++ List.replicate 20 0)), ([2, 1, 5, 0, 254] ++ List.replicate
    20 0), asked ([2, 1, 5, 0, 254] ++ List.replicate 20 0) [(0x2613, 4, 5)] {}, by decide +kernel⟩, ⟨3, perGot 5 (nibsOf ([3,
    0, 5, 0, 8] ++ List.replicate 20 0)), ([3, 0, 5, 0, 8] ++ List.replicate 20 0), asked ([3, 0, 5, 0, 8] ++ List.replicate
    20 0) [] {}, by decide +kernel⟩, ⟨3, perGot 5 (nibsOf ([4, 0, 5, 0, 1] ++ List.replicate 20 0)), ([4, 0, 5, 0, 1] ++
    List.replicate 20 0), asked ([4, 0, 5, 0, 1] ++ List.replicate 20 0) [] {}, by decide +kernel⟩, ⟨3, perGot 5 (nibsOf ([4,
    0, 5, 0, 0, 0, 0, 0, 7] ++ List.replicate 20 0)), ([4, 0, 5, 0, 0, 0, 0, 0, 7] ++ List.replicate 20 0), asked ([4, 0, 5,
    0, 0, 0, 0, 0, 7] ++ List.replicate 20 0) [] {}, by decide +kernel⟩⟩

theorem witness_RingsMeasureAndManage_2 :
    (∃ (n : Fin 4) (x : PerFrame) (p : List Byte) (s : State), pLe p 2 1 ≠ 255 ∧ s.mgmtFor n 5 = some (x, p)) ∧
    (∃ (n : Fin 4) (x : PerFrame) (p : List Byte) (s : State), pLe p 2 1 ≠ 255 ∧ s.mgmtFor n 6 = some (x, p)) :=
  ⟨⟨3, perGot 5 (nibsOf ([5, 0, 5] ++ List.replicate 20 0)), ([5, 0, 5] ++ List.replicate 20 0), asked ([5, 0, 5] ++
    List.replicate 20 0) [] {}, by decide +kernel⟩, ⟨3, perGot 5 (nibsOf ([6, 0, 5] ++ List.replicate 20 0)), ([6, 0, 5] ++
    List.replicate 20 0), asked ([6, 0, 5] ++ List.replicate 20 0) [] {}, by decide +kernel⟩⟩

theorem witness_ReferencesLeadTheRing :
    (∃ (n : Fin 4) (phase : Fin 8) (dt : Nat) (s : State), let u := s.advance dt; u.perHeadReady n = true ∧ (u.ring n).change
      = none ∧ ((u.ring n).started = false ∨ 0 ≤ distQ (u.nowQ (u.perDom n) phase) ((u.ring n).refTx + u.perCycle n))) ∧
    (∃ (n : Fin 4) (x : PerFrame) (s : State), let p := bytesOf x.payload; (s.ring n).got = some x ∧ x.typ = 0 ∧ s.perState n
      = 1 ∧ (s.ring n).attempt = none ∧ (s.ring n).head = false ∧ p.length = 32 ∧ x.east = false ∧ (s.ring n).agreed = false ∧
      s.perC n 6 < 4 ∧ (s.perValid n (refMode p) = false ∨ s.perModeObj n (refMode p) 3 = pLe p 20 4)) ∧
    (∃ (n : Fin 4) (x : PerFrame) (s : State), let p := bytesOf x.payload; (s.ring n).got = some x ∧ x.typ = 0 ∧ s.perState n
      = 3 ∧ (s.ring n).attempt = none ∧ (s.ring n).head = false ∧ p.length = 32 ∧ s.refInTime n x p = true ∧ s.perC n 6 < 4 ∧
      s.perValid n (refMode p) = true ∧ s.perModeObj n (refMode p) 3 ≠ pLe p 20 4) ∧
    (∃ (n : Fin 4) (dt : Nat) (s : State), let u := s.advance dt; 2 ≤ s.perState n ∧ (s.ring n).head = false ∧ (s.ring
      n).haveLast = true ∧ s.perC n 6 < 4 ∧ 4 * (u.perGuard n : Int) < distQ (u.nowQ (u.perDom n) 0) (u.ring n).expect) ∧
    (∃ (n : Fin 4) (phase : Fin 8) (dt : Nat) (s : State), let u := s.advance dt; s.perState n = 3 ∧ (s.ring n).head = false ∧
      1 ≤ s.perC n 4 ∧ s.perC n 4 ≤ 3 ∧ (s.ring n).haveLast = true ∧ s.perC n 2 = 1 ∧ 0 ≤ distQ (u.nowQ (u.perDom n) phase)
      ((u.ring n).expect + u.perFwd n + u.perC n 4 * u.perGuard n)) ∧
    (∃ (n : Fin 4) (s : State), s.perState n = 1 ∧ s.perC n 4 ≤ 3 ∧ s.perS n 0xA = 3 ∧ (s.ring n).attempt = none ∧ s.perC n 2
      = 0) ∧
    (∃ (n : Fin 4) (k : Nat) (s : State), (s.ring n).attempt = some k) ∧
    (∃ (n : Fin 4) (x : PerFrame) (k : Nat) (s : State), let p := bytesOf x.payload; (s.ring n).got = some x ∧ x.typ = 4 ∧
      (s.ring n).attempt = some k ∧ p.length = 16 ∧ s.perC n 6 < 4 ∧ pLe p 0 8 = s.n 0x2000 8 ∧ x.source = s.perSelf n ∧
      (s.ring n).returns = 1) ∧
    (∃ (n : Fin 4) (x : PerFrame) (k : Nat) (s : State), let p := bytesOf x.payload; (s.ring n).got = some x ∧ x.typ = 4 ∧
      (s.ring n).attempt = some k ∧ p.length = 16 ∧ s.perC n 6 < 4 ∧ (pLe p 8 1 % 4 < s.perC n 4 ∨ (pLe p 8 1 % 4 = s.perC n 4
      ∧ pLe p 0 8 < s.n 0x2000 8)) ∧ pLe p 0 8 ≠ s.n 0x2000 8) :=
  ⟨⟨3, 0, 1, ring3 (lv [(0x2603, 2, 1), (0x2613, 1, 3), (0x2638, 4, 2)]) { head := true }, by decide +kernel⟩, ⟨3, perGot 0
    (List.replicate 64 0), ring3 (lv [(0x2613, 1, 1)]) { got := some (perGot 0 (List.replicate 64 0)) }, by decide +kernel⟩,
    ⟨3, perGot 0 (List.replicate 64 0), ring3 (lv [(0x2613, 1, 3), (0x2638, 4, 2), (0x2638, 3, 7)])
    { got := some (perGot 0 (List.replicate 64 0)) }, by decide +kernel⟩, ⟨3, 1000, ring3 (lv [(0x2613, 1, 2)])
    { haveLast := true }, by decide +kernel⟩, ⟨3, 0, 10000, ring3 (lv [(0x2603, 2, 1), (0x2603, 4, 3), (0x2613, 1, 3)])
    { haveLast := true }, by decide +kernel⟩, ⟨3, lv [(0x2603, 4, 3), (0x2613, 1, 1), (0x2613, 0xA, 3)], by decide +kernel⟩,
    ⟨3, 5, ring3 live { attempt := some 5 }, by decide +kernel⟩, ⟨3,
    { perGot 4 (nibsOf [5, 0, 0, 0, 0, 0, 0, 0, 0, 0, 0, 0, 0, 0, 0, 0]) with source := 0 }, 5, ring3 (withId live 5)
    { got := some { perGot 4 (nibsOf [5, 0, 0, 0, 0, 0, 0, 0, 0, 0, 0, 0, 0, 0, 0, 0]) with source := 0 }, attempt := some 5, returns := 1 },
    by decide +kernel⟩, ⟨3, perGot 4 (nibsOf [5, 0, 0, 0, 0, 0, 0, 0, 0, 0, 0, 0, 0, 0, 0, 0]), 5, ring3 (withId (lv [(0x2603,
    4, 1)]) 4) { got := some (perGot 4 (nibsOf [5, 0, 0, 0, 0, 0, 0, 0, 0, 0, 0, 0, 0, 0, 0, 0])), attempt := some 5 },
    by decide +kernel⟩⟩

theorem witness_SlotsAndTheGuardianAct :
    (∃ (q : Path) (n : Fin 4) (m : Fin 8) (v : Half) (s : State), s.writeOk q (0x2620 + 8 * n.val + m.val) 2 v.toNat = true) ∧
    (∃ (n : Fin 4) (m : Fin 8) (s : State), let o := 0x2620 + 8 * n.val + m.val; s.n o 4 = 1) ∧
    (∃ (n : Fin 4) (k : Fin 1024) (e : List Word) (s : State), s.perEntry n k = some e ∧ slotTx e = true ∧ slotKind e ≠ 3 ∧
      (s.perState n = 3 ∨ s.perState n = 5) ∧ (s.slotFetch n k).1 = 0) ∧
    (∃ (n : Fin 4) (k : Fin 1024) (e : List Word) (s : State), s.perEntry n k = some e ∧ (s.slotFetch n k).1 = 1 ∧ s.memc.dbe
      = [] ∧ inBankOrStore (entW e 4) = true ∧ slotLen e ≠ 0) ∧
    (∃ (n : Fin 4) (f : List Nib) (east : Bool) (b : Nat) (s : State), (s.ring n).cutting = some (f, east, b) ∧ s.perC n 6 <
      4) ∧
    (∃ (n : Fin 4) (k : Fin 1024) (phase : Fin 8) (dt : Nat) (e : List Word) (l : List Nib) (close : Nat) (s : State),
      let u := s.advance dt; let f := perFrame k (u.perSelf n) (if u.perAck n then 6 else 1) l;
      let g := fun (j : Nat) => u.guardNow n (u.rimQ 0 phase + j * u.perSym n); u.perEntry n k = some e ∧ slotTx e = true ∧
      slotKind e = 1 ∧ (u.ring n).refSeen = true ∧ (u.ring n).mute = 0 ∧ 0 ≤ distQ (u.nowQ (u.perDom n) phase) ((u.ring
      n).refTx + slotStart e * 4) ∧ (u.perState n = 3 ∨ u.perState n = 5) ∧ (u.perC n 2 = 0 ∨ u.perSelf n ≠ 0) ∧ u.slotFetch n
      k = (2, l) ∧ u.perHeld n = false ∧ u.guardOpen n 1 (g 0) = some close ∧ g (f.length + 2) ≤ close) ∧
    (∃ (n : Fin 4) (k : Fin 1024) (phase : Fin 8) (dt : Nat) (e : List Word) (l : List Nib) (s : State),
      let u := s.advance dt; u.perEntry n k = some e ∧ slotTx e = true ∧ slotKind e = 1 ∧ (u.ring n).refSeen = true ∧ (u.ring
      n).mute = 0 ∧ 0 ≤ distQ (u.nowQ (u.perDom n) phase) ((u.ring n).refTx + slotStart e * 4) ∧ (u.perState n = 3 ∨
      u.perState n = 5) ∧ (u.perC n 2 = 0 ∨ u.perSelf n ≠ 0) ∧ u.slotFetch n k = (2, l) ∧ u.perHeld n = true) ∧
    (∃ (q : Path) (n : Fin 4) (v : Byte) (s : State), s.writeOk q (0x2650 + n.val) 2 v.toNat = true) ∧
    (∃ (n : Fin 4) (s : State), s.n (0x2650 + n.val) 3 = 1) ∧
    (∃ (q : Path) (n : Fin 4) (v : Half) (s : State), s.writeOk q (0x2650 + n.val) 5 v.toNat = true) ∧
    (∃ (q : Path) (n : Fin 4) (s : State), s.writeOk q (0x2650 + n.val) 6 1 = true) :=
  ⟨⟨P, 3, 7, 1, live, by decide +kernel⟩, ⟨3, 7, lv [(0x263F, 4, 1)], by decide +kernel⟩, ⟨3, 0, [0, 0x08000000, 1, 0, 0, 0,
    0, 0], ring3 (lv [(0x2613, 1, 3)]) { tables := [(0, [[0, 0x08000000, 1, 0, 0, 0, 0, 0]])] }, by decide +kernel⟩, ⟨3, 0,
    [0, 0x08000000, 1, 0, 0, 0, 0, 0], ring3 (lv [(0x2613, 1, 3)])
    { tables := [(0, [[0, 0x08000000, 1, 0, 0, 0, 0, 0]])], fetch := [(0, (1, []))] }, by decide +kernel⟩, ⟨3, [1], true, 0,
    ring3 live { cutting := some ([1], true, 0) }, by decide +kernel⟩, ⟨3, 0, 0, 1, [0, 0x09000000, 1, 0, 0, 0, 0, 0], [],
    261980, ring3 (lv [(0x2613, 1, 3), (0x2100, 5, 1)])
    { tables := [(0, [[0, 0x09000000, 1, 0, 0, 0, 0, 0]])], fetch := [(0, (2, []))], refSeen := true, guard := [(0, 0x0101FFFF)] },
    by decide +kernel⟩, ⟨3, 0, 0, 1, [0, 0x09000000, 1, 0, 0, 0, 0, 0], [], ring3 (lv [(0x2613, 1, 3)])
    { tables := [(0, [[0, 0x09000000, 1, 0, 0, 0, 0, 0]])], fetch := [(0, (2, []))], refSeen := true }, by decide +kernel⟩,
    ⟨P, 3, 1, live, by decide +kernel⟩, ⟨3, lv [(0x2653, 3, 1)], by decide +kernel⟩, ⟨P, 3, 0x400, ring3 (lv [(0x2638, 4, 2)])
    { head := true }, by decide +kernel⟩, ⟨P, 3, ring3 live { head := true, wrapped := true }, by decide +kernel⟩⟩

theorem witness_TracksStageTheirRecords_1 :
    (∃ (q : Path) (t : Fin 16) (v : Word) (s : State), s.writeOk q (0x2710 + t.val) 1 v.toNat = true ∧ v ≠ 0 ∧ s.trkC t 1 ≠ 1) ∧
    (∃ (q : Path) (t : Fin 16) (s : State), s.writeOk q (0x2710 + t.val) 1 0 = true ∧ s.trkC t 1 = 1) ∧
    (∃ (q : Path) (t : Fin 16) (v : Byte) (s : State), s.writeOk q (0x2720 + t.val) 0xC v.toNat = true ∧ s.trkC t 1 = 1 ∧
      s.trkWriting t = false) ∧
    (∃ (q : Path) (t : Fin 16) (v : Byte) (s : State), s.writeOk q (0x2720 + t.val) 0xC v.toNat = true ∧ s.trkC t 1 = 1 ∧
      s.trkWriting t = true) ∧
    (∃ (t : Fin 16) (dt : Nat) (s : State), let v := s.advance dt; v.trkC t 1 = 1 ∧ v.trkS t 1 = 1 ∧ (v.trkSource t).isSome =
      true ∧ isDue (v.now32 (v.trkDom t)) (v.trkStart t) = true ∧ v.swapDue t = false ∧ (v.track t).overrun = false ∧
      v.trkHeld t = false ∧ v.trkMayRead t = true) ∧
    (∃ (t : Fin 16) (dt : Nat) (s : State), let v := s.advance dt; v.trkC t 1 = 1 ∧ v.trkS t 1 = 1 ∧ (v.trkSource t).isSome =
      true ∧ isDue (v.now32 (v.trkDom t)) (v.trkStart t) = true ∧ v.swapDue t = false ∧ (v.track t).overrun = false ∧
      v.trkHeld t = true) ∧
    (∃ (t : Fin 16) (dt : Nat) (s : State), let v := s.advance dt; let a := v.trkC t 9 + v.trkS t 2 * v.trkC t 0xA;
      let n := v.trkC t 7; v.trkReading t = true ∧ v.ready a = true ∧ v.ready (a + n - 1) = true ∧ v.memc.dbe = [] ∧
      inBankOrStore a = true ∧ 0 ≤ v.trkSlack t ∧ n % 8 = 0 ∧ 0 < n ∧ (v.track t).snap = v.bytes a n) ∧
    (∃ (t : Fin 16) (dt : Nat) (s : State), let v := s.advance dt; let a := v.trkC t 9 + v.trkS t 2 * v.trkC t 0xA;
      let n := v.trkC t 7; v.trkReading t = true ∧ v.ready a = true ∧ v.ready (a + n - 1) = true ∧ v.memc.dbe = [] ∧
      inBankOrStore a = true ∧ v.trkSlack t < 0) ∧
    (∃ (t : Fin 16) (dt : Nat) (s : State), let v := s.advance dt; v.trkReading t = true ∧ v.trkSlack t < 0) ∧
    (∃ (t : Fin 16) (w : Word) (l : List Word) (s : State), let m := fieldOf (s.trkC t 3) 8 5; (s.track t).push = w :: l ∧
      s.txRoom m = true) ∧
    (∃ (t : Fin 16) (d : List Byte) (s : State), let a := s.trkC t 4; (s.track t).data = some d ∧ s.trkS t 1 = 2 ∧ (s.track
      t).push = [] ∧ s.trkDest t = 1 ∧ (s.track t).late = false ∧ d.length % 8 = 0 ∧ (∀ k < d.length, inFacetStore (a + k) =
      true) ∧ s.ready a = true ∧ s.ready (a + s.trkLen t + 15) = true) ∧
    (∃ (q : Path) (c : Instr) (v : Nat) (s : State), (c, v) ∈ [(Instr.swapArm q, 1), (Instr.swapArmTied q, 3)] ∧ s.writeOk q
      0x2700 4 v = true) :=
  ⟨⟨P, 15, 1, lv [(0x271F, 2, 2), (0x271F, 3, 1), (0x271F, 4, 0x0D000000), (trigIdx 0 0, 1, 1), (trigIdx 0 0, 3, 20000)],
    by decide +kernel⟩, ⟨P, 15, lv [(0x271F, 1, 1)], by decide +kernel⟩, ⟨P, 15, 1, lv [(0x271F, 1, 1)], by decide +kernel⟩,
    ⟨P, 15, 1, track15 (lv [(0x271F, 1, 1), (0x272F, 1, 2)]) { data := some [] }, by decide +kernel⟩, ⟨15, 1, lv [(0x271F, 1,
    1), (0x272F, 1, 1), (0x2100, 5, 1), (0x271F, 2, 2), (0x271F, 3, 1), (0x271F, 4, 0x0D000000), (trigIdx 0 0, 1, 1), (trigIdx
    0 0, 3, 20000)], by decide +kernel⟩, ⟨15, 1, lv [(0x271F, 1, 1), (0x272F, 1, 1), (0x271F, 2, 2), (0x271F, 3, 1), (0x271F,
    4, 0x0D000000), (trigIdx 0 0, 1, 1), (trigIdx 0 0, 3, 20000)], by decide +kernel⟩, ⟨15, 1, track15 (lv [(0x272F, 1, 2),
    (0x271F, 2, 2), (0x271F, 3, 1), (0x271F, 4, 0x0D000000)]) { target := 100000, snap := List.replicate 8 0 },
    by decide +kernel⟩, ⟨15, 1, track15 (lv [(0x272F, 1, 2), (0x271F, 2, 2), (0x271F, 3, 1), (0x271F, 4, 0x0D000000)]) {},
    by decide +kernel⟩, ⟨15, 1, track15 (lv [(0x272F, 1, 2), (0x271F, 2, 2), (0x271F, 3, 1), (0x271F, 4, 0x0D000000)]) {},
    by decide +kernel⟩, ⟨15, 1, [], track15 live { push := [1] }, by decide +kernel⟩, ⟨15, List.replicate 8 0, track15 (lv
    [(0x272F, 1, 2), (0x271F, 2, 2), (0x271F, 3, 1), (0x271F, 4, 0x0D000000)]) { data := some (List.replicate 8 0) },
    by decide +kernel⟩, ⟨P, .swapArm P, 1, lv [(0x2700, 2, 0x8000), (0x2700, 3, 1), (0x271F, 1, 1), (0x271F, 2, 2), (0x271F,
    3, 1), (0x271F, 4, 0x0D000000)], by decide +kernel⟩⟩

theorem witness_TracksStageTheirRecords_2 :
    (∃ (q : Path) (s : State), s.writeOk q 0x2700 4 2 = true ∧ s.n 0x2700 5 = 1 ∧ s.locus.swapLeft = s.locus.swapSet) ∧
    (∃ (q : Path) (s : State), s.writeOk q 0x2700 4 2 = true ∧ (s.n 0x2700 5 ≠ 1 ∨ s.locus.swapLeft ≠ s.locus.swapSet)) :=
  ⟨⟨P, lv [(0x2700, 5, 1)], by decide +kernel⟩, ⟨P, live, by decide +kernel⟩⟩

theorem witness_LatticeAgentsFindTheirKeeper_1 :
    (∃ (q : Path) (s : State), s.writeOk q 0x2800 1 1 = true ∧ s.latOn = false) ∧
    (∃ (q : Path) (s : State), s.writeOk q 0x2800 1 0 = true) ∧
    (∃ s : State, s.latState = 1 ∧ s.upNbs = []) ∧
    (∃ (dt : Nat) (s : State), let v := s.advance dt; v.latOn = true ∧ v.isKeeper = true ∧ v.bestKeeper.2.1 = v.ownId ∧ v.n
      0x2801 2 = v.ownId) ∧
    (∃ (p : Fin 12) (dt : Nat) (s : State), let v := s.advance dt; v.latOn = true ∧ v.latPorts.contains p.val = true ∧
      v.helloDue p = true) ∧
    (∃ (p : Fin 12) (d : List Byte) (s : State), s.latticeType p d = true ∧ s.latticeMine p d = true ∧ latIntact d = false) ∧
    (∃ (p : Fin 12) (d : List Byte) (s : State), let x := latParse p d; s.latticeType p d = true ∧ s.latticeMine p d = true ∧
      latIntact d = true ∧ at' d (etPos d + 2) / 16 = 1 ∧ x.typ < 11 ∧ x.payload.length ≤ 1472 ∧ x.dest ≠ 0xFFFF ∧
      s.lat.answers = []) ∧
    (∃ (x : LatFrame) (n : Nat) (s : State), s.lat.got = some x ∧ x.typ = 0 ∧ x.resp = false ∧ s.latOn = true ∧
      x.payload.length = 64 ∧ x.dest = 0 ∧ beNat x.payload 44 8 = s.ownId ∧ s.nbSlot (beNat x.payload 0 8) x.port true = some
      n) ∧
    (∃ (n : Fin 16) (s : State), s.latOn = true ∧ s.nbN n 1 ≠ 0) ∧
    (∃ (id : DWord) (s : State), (∃ c ∈ s.lat.claims, c.id = id.toNat ∧ c.fresh = true)) ∧
    (∃ (n : Nat) (s : State), (s.latState = 2 ∨ s.latState = 4) ∧ s.ownAddr = 0 ∧ s.sponsor = some n) ∧
    (∃ (x : LatFrame) (s : State), s.lat.got = some x ∧ x.typ = 3 ∧ s.latOn = true ∧ s.isKeeper = false ∧ s.ownAddr ≠ 0 ∧
      x.resp = false) :=
  ⟨⟨P, live, by decide +kernel⟩, ⟨P, live, by decide +kernel⟩, ⟨lv [(0x2800, 0xE, 1)], by decide +kernel⟩, ⟨0, withId (lv
    [(0x2800, 1, 1), (0x2800, 0xE, 3), (0x2801, 2, 5)]) 5, by decide +kernel⟩, ⟨3, 0, lv latLinks, by decide +kernel⟩, ⟨3,
    latWire (zeros 15), lv latLinks, by decide +kernel⟩, ⟨3, latWire (latBytes 1 1 0 9 1 false 1 [] ++ zeros 4), lv latLinks,
    by decide +kernel⟩, ⟨latMsg 0 false (zeros 44 ++ beOf 5 8 ++ zeros 12), 0, withId (latGot (latMsg 0 false (zeros 44 ++
    beOf 5 8 ++ zeros 12)) []) 5, by decide +kernel⟩, ⟨3, lv [(0x2800, 1, 1), (0x2813, 1, 1)], by decide +kernel⟩, ⟨5,
    { live with lat := { claims := [{ id := 5, prio := 0, addr := 0, seq := 0, fresh := true }] } }, by decide +kernel⟩, ⟨3,
    lv [(0x2800, 0xE, 2), (0x2813, 1, 2), (0x2813, 4, 1)], by decide +kernel⟩, ⟨latMsg 3 false (beOf 5 8 ++ zeros 2), latGot
    (latMsg 3 false (beOf 5 8 ++ zeros 2)) [(0x2802, 1, 4)] {}, by decide +kernel⟩⟩

theorem witness_LatticeAgentsFindTheirKeeper_2 :
    (∃ (x : LatFrame) (s : State), ∃ m, s.lat.got = some x ∧ x.typ = 3 ∧ s.latOn = true ∧ s.isKeeper = false ∧ s.ownAddr ≠ 0 ∧
      x.resp = true ∧ s.relayOf (beNat x.payload 0 8) = some m) ∧
    (∃ (x : LatFrame) (s : State), let id := beNat x.payload 0 8; let a := s.grantFor id (beNat x.payload 8 2); s.lat.got =
      some x ∧ x.typ = 3 ∧ x.resp = false ∧ s.latOn = true ∧ s.isKeeper = true ∧ a ≠ 0) ∧
    (∃ (x : LatFrame) (s : State), let id := beNat x.payload 0 8; let a := s.grantFor id (beNat x.payload 8 2); s.lat.got =
      some x ∧ x.typ = 3 ∧ x.resp = false ∧ s.latOn = true ∧ s.isKeeper = true ∧ a = 0) ∧
    (∃ (x : LatFrame) (s : State), s.lat.got = some x ∧ x.typ = 3 ∧ x.resp = true ∧ s.latOn = true ∧ beNat x.payload 0 8 =
      s.ownId ∧ beNat x.payload 8 2 ≠ 0) ∧
    (∃ (x : LatFrame) (s : State), s.lat.got = some x ∧ x.typ = 3 ∧ x.resp = true ∧ s.latOn = true ∧ beNat x.payload 0 8 =
      s.ownId ∧ beNat x.payload 8 2 = 0) ∧
    (∃ (q : Path) (v : Half) (s : State), s.writeOk q 0x2801 0xB v.toNat = true) ∧
    (∃ s : State, (s.latState = 2 ∨ s.latState = 4) ∧ s.ownAddr ≠ 0) ∧
    (∃ (x : LatFrame) (s : State), s.lat.got = some x ∧ x.typ = 1 ∧ x.resp = false ∧ s.latOn = true ∧ s.isKeeper = true) ∧
    (∃ (x : LatFrame) (s : State), let d := x.payload;
      let parts := tblSet (fun _ => []) (beNat d 4 1) ((List.range 256).map (fun k => beNat d (40 + 4 * k) 4)) (if beNat d 0 4 = s.lat.partGen then s.lat.parts else []);
      s.lat.got = some x ∧ x.typ = 2 ∧ x.resp = false ∧ s.latOn = true ∧ x.source = s.n 0x2801 4 ∧ d.length = 1064 ∧ beNat d 4
      1 < 4 ∧ newer s.lat.partGen (beNat d 0 4) = false ∧ s.latState = 2 ∧ s.lat.awaitHead = false ∧ s.dev ≠ 1 ∧ parts.length
      = 4) ∧
    (∃ (x : LatFrame) (s : State), let d := x.payload; let h := (beNat d 8 4, beNat d 12 4, beNat d 16 8); s.lat.got = some x
      ∧ x.typ = 2 ∧ x.resp = false ∧ s.latOn = true ∧ x.source = s.n 0x2801 4 ∧ d.length = 1064 ∧ beNat d 4 1 < 4 ∧ newer
      s.lat.partGen (beNat d 0 4) = false ∧ s.latState = 2 ∧ s.lat.awaitHead = true ∧ s.joinCause h = none) ∧
    (∃ (x : LatFrame) (s : State), let d := x.payload; let h := (beNat d 8 4, beNat d 12 4, beNat d 16 8); ∃ c, s.lat.got =
      some x ∧ x.typ = 2 ∧ x.resp = false ∧ s.latOn = true ∧ x.source = s.n 0x2801 4 ∧ d.length = 1064 ∧ beNat d 4 1 < 4 ∧
      newer s.lat.partGen (beNat d 0 4) = false ∧ s.latState = 2 ∧ s.lat.awaitHead = true ∧ s.joinCause h = some c) ∧
    (∃ s : State, s.lat.awaitHead = true ∧ (s.latState = 2 ∨ s.latState = 4)) :=
  ⟨⟨latMsg 3 true (beOf 5 8 ++ zeros 2), latGot (latMsg 3 true (beOf 5 8 ++ zeros 2)) [(0x2802, 1, 4)]
    { relays := [(5, 3, 6)] }, (3, 6), by decide +kernel⟩, ⟨latMsg 3 false (beOf 5 8 ++ zeros 2), latGot (latMsg 3 false (beOf
    5 8 ++ zeros 2)) [(0x2800, 0xE, 3)] {}, by decide +kernel⟩, ⟨_, crowded, rfl, by decide, by decide, by decide, by decide,
    by rw [show (beNat (latMsg 3 false (beOf 5 8 ++ zeros 2)).payload 0 8) = 5 by decide]; exact crowded_full⟩, ⟨latMsg 3 true
    (beOf 5 8 ++ beOf 6 2), withId (latGot (latMsg 3 true (beOf 5 8 ++ beOf 6 2)) [] {}) 5, by decide +kernel⟩, ⟨latMsg 3 true
    (beOf 5 8 ++ zeros 2), withId (latGot (latMsg 3 true (beOf 5 8 ++ zeros 2)) [] {}) 5, by decide +kernel⟩, ⟨P, 9, live,
    by decide +kernel⟩, ⟨lv [(0x2800, 0xE, 2), (0x2802, 1, 4)], by decide +kernel⟩, ⟨latMsg 1 false ([]), latGot (latMsg 1
    false ([])) [(0x2800, 0xE, 3)] {}, by decide +kernel⟩, ⟨latMsg 2 false (beOf 1 4 ++ beOf 3 1 ++ zeros 1059), latGot
    (latMsg 2 false (beOf 1 4 ++ beOf 3 1 ++ zeros 1059)) [(0x2800, 0xE, 2), (0x2801, 4, 9), (0x2000, 1, 2)]
    { partGen := 1, parts := [(0, [1]), (1, [1]), (2, [1])] }, by decide +kernel⟩, ⟨latMsg 2 false (beOf 1 4 ++ zeros 1060),
    latGot (latMsg 2 false (beOf 1 4 ++ zeros 1060)) [(0x2800, 0xE, 2), (0x2801, 4, 9)] { awaitHead := true },
    by decide +kernel⟩, ⟨latMsg 2 false (beOf 1 4 ++ zeros 4 ++ beOf 1 4 ++ beOf 5 4 ++ zeros 1048), latGot (latMsg 2 false
    (beOf 1 4 ++ zeros 4 ++ beOf 1 4 ++ beOf 5 4 ++ zeros 1048)) [(0x2800, 0xE, 2), (0x2801, 4, 9)] { awaitHead := true }, 1,
    by decide +kernel⟩, ⟨{ lv [(0x2800, 0xE, 4)] with lat := { awaitHead := true } }, by decide +kernel⟩⟩

theorem witness_LatticeServicesAnswer_1 :
    (∃ (x : LatFrame) (s : State), ∃ secure : Bool, let d := x.plain secure; s.lat.got = some x ∧ x.resp = false ∧ s.latOn =
      true ∧ s.dev = 1 ∧ x.typ = 4 ∧ d.length ≠ 0 ∧ d.length % 12 = 0 ∧ d.length ≤ 768) ∧
    (∃ (x : LatFrame) (s : State), ∃ secure : Bool, let d := x.plain secure; s.lat.got = some x ∧ x.resp = false ∧ s.latOn =
      true ∧ s.dev = 1 ∧ x.typ = 4 ∧ (d.length = 0 ∨ d.length % 12 ≠ 0 ∨ 768 < d.length)) ∧
    (∃ (x : LatFrame) (s : State), let n := beNat x.payload 6 2; s.lat.got = some x ∧ x.resp = false ∧ s.latOn = true ∧ s.dev
      = 1 ∧ x.typ = 5 ∧ n ≤ 1024 ∧ 8 + n ≤ x.payload.length) ∧
    (∃ (x : LatFrame) (s : State), let n := beNat x.payload 6 2; s.lat.got = some x ∧ x.resp = false ∧ s.latOn = true ∧ s.dev
      = 1 ∧ x.typ = 5 ∧ (1024 < n ∨ x.payload.length < 8 + n)) ∧
    (∃ (x : LatFrame) (s : State), s.lat.got = some x ∧ x.resp = false ∧ s.latOn = true ∧ s.dev = 1 ∧ x.typ = 6) ∧
    (∃ (x : LatFrame) (s : State), s.lat.got = some x ∧ x.resp = false ∧ s.latOn = true ∧ s.dev = 1 ∧ x.typ = 7) ∧
    (∃ (x : LatFrame) (s : State), ∃ (off : Word) (d : List Byte) (len a : Nat) (sha : List Byte), s.lat.got = some x ∧ x.resp
      = false ∧ s.latOn = true ∧ s.dev = 1 ∧ x.typ = 7 ∧ s.lat.offer = some (len, sha, a) ∧ d.length ≤ 1024 ∧ off.toNat +
      d.length ≤ len) ∧
    (∃ (x : LatFrame) (s : State), ∃ (off : Word) (d : List Byte) (len a : Nat) (sha : List Byte), s.lat.got = some x ∧ x.resp
      = false ∧ s.latOn = true ∧ s.dev = 1 ∧ x.typ = 7 ∧ s.lat.offer = some (len, sha, a) ∧ (1024 < d.length ∨ len < off.toNat
      + d.length)) ∧
    (∃ (x : LatFrame) (s : State), ∃ (len a : Nat) (sha : List Byte), s.lat.got = some x ∧ x.resp = false ∧ s.latOn = true ∧
      s.dev = 1 ∧ x.typ = 7 ∧ s.lat.offer = some (len, sha, a) ∧ sha256 (s.bytes a len) ≠ sha) ∧
    (∃ (x : LatFrame) (s : State), ∃ (len a : Nat) (sha : List Byte), s.lat.got = some x ∧ x.resp = false ∧ s.latOn = true ∧
      s.dev = 1 ∧ x.typ = 7 ∧ s.lat.offer = some (len, sha, a) ∧ sha256 (s.bytes a len) = sha ∧ inStorage a len = true ∧ s.w32
      a = 0x8416_E001 ∧ s.n 0x2480 7 ≠ 1) ∧
    (∃ (x : LatFrame) (s : State), ∃ (secure : Bool) (len a : Nat) (sha : List Byte), s.lat.got = some x ∧ x.resp = false ∧
      s.latOn = true ∧ s.dev = 1 ∧ x.typ = 7 ∧ s.lat.offer = some (len, sha, a) ∧ sha256 (s.bytes a len) = sha ∧ inStorage a
      len = true ∧ s.w32 a ≠ 0x8416_E001 ∧ secure = false) ∧
    (∃ (x : LatFrame) (s : State), s.lat.got = some x ∧ x.resp = false ∧ s.latOn = true ∧ s.dev = 1 ∧ x.typ = 8) :=
  ⟨⟨latMsg 4 false (zeros 12), askedLat 4 (zeros 12) [] {}, false, by decide +kernel⟩, ⟨latMsg 4 false (zeros 13), askedLat 4
    (zeros 13) [] {}, false, by decide +kernel⟩, ⟨latMsg 5 false (zeros 8), askedLat 5 (zeros 8) [] {}, by decide +kernel⟩,
    ⟨latMsg 5 false (zeros 7), askedLat 5 (zeros 7) [] {}, by decide +kernel⟩, ⟨latMsg 6 false ([]), askedLat 6 ([]) [] {},
    by decide +kernel⟩, ⟨latMsg 7 false ([]), askedLat 7 ([]) [] {}, by decide +kernel⟩, ⟨latMsg 7 false ([]), askedLat 7 ([])
    [] { offer := some (4, [], 0x0D000000) }, 1, [1, 2], 4, 0x0D000000, [], by decide +kernel⟩, ⟨latMsg 7 false ([]), askedLat
    7 ([]) [] { offer := some (4, [], 0x0D000000) }, 3, [1, 2], 4, 0x0D000000, [], by decide +kernel⟩, ⟨latMsg 7 false [],
    offered [1, 2, 3, 4] ([]), 4, 0x0D000000, [], by decide +kernel⟩, ⟨latMsg 7 false [], offered [1, 0xE0, 0x16, 0x84]
    (sha256 [1, 0xE0, 0x16, 0x84]), 4, 0x0D000000, sha256 [1, 0xE0, 0x16, 0x84], by decide +kernel⟩, ⟨latMsg 7 false [],
    offered [1, 2, 3, 4] (sha256 [1, 2, 3, 4]), false, 4, 0x0D000000, sha256 [1, 2, 3, 4], by decide +kernel⟩, ⟨latMsg 8 false
    ([]), askedLat 8 ([]) [] {}, by decide +kernel⟩⟩

theorem witness_LatticeServicesAnswer_2 :
    (∃ (x : LatFrame) (s : State), ∃ secure : Bool, s.lat.got = some x ∧ x.resp = false ∧ s.latOn = true ∧ s.dev = 1 ∧ x.typ =
      9 ∧ secure = true ∧ s.heldSession x.source = true ∧ s.heldInReset = false) ∧
    (∃ (x : LatFrame) (s : State), ∃ secure : Bool, s.lat.got = some x ∧ x.resp = false ∧ s.latOn = true ∧ s.dev = 1 ∧ x.typ =
      9 ∧ (secure = false ∨ s.heldSession x.source = false)) ∧
    (∃ (x : LatFrame) (s : State), s.lat.got = some x ∧ x.resp = false ∧ s.latOn = true ∧ s.dev = 1 ∧ x.typ = 10 ∧
      s.remoteChannel x.source = none) ∧
    (∃ (x : LatFrame) (s : State), ∃ c, s.lat.got = some x ∧ x.resp = false ∧ s.latOn = true ∧ s.dev = 1 ∧ x.typ = 10 ∧
      s.remoteChannel x.source = some c) ∧
    (∃ (p : Path) (s : State), let a := s.n 0x2804 1; s.writeOk p 0x2804 3 1 = true ∧ (s.isKeeper = false ∨ s.n 0x2804 4 ≠ 1)
      ∧ s.stagedOk a (s.n 0x2804 2) = false ∧ s.memc.dbe = []) ∧
    (∃ (p : Path) (s : State), let a := s.n 0x2804 1; let d := s.bytes a (s.n 0x2804 2); s.writeOk p 0x2804 3 1 = true ∧
      (s.isKeeper = false ∨ s.n 0x2804 4 ≠ 1) ∧ s.stagedOk a (s.n 0x2804 2) = true ∧ inFacetStore a = true ∧ a % 8 = 0 ∧ (∀ k
      < setCount d, leNat ((d.drop (0x40 + 16 * k)).take 2) ≠ 0xFFFF ∧ leNat ((d.drop (0x40 + 16 * k)).take 2) ≠ s.ownAddr)) ∧
    (∃ (x : LatFrame) (s : State),
      let mine := fun (r : LatReq) => decide (r.addr = x.source ∧ r.typ = x.typ ∧ r.cls = x.cls ∧ r.seq = x.seq); s.lat.got =
      some x ∧ s.latOn = true ∧ x.resp = true ∧ x.typ ∈ [4, 5, 6, 7, 8, 9, 10] ∧ (s.lat.reqs.any mine = false ∨ s.lat.fetch =
      none)) ∧
    (∃ (x : LatFrame) (s : State),
      let mine := fun (r : LatReq) => decide (r.addr = x.source ∧ r.typ = x.typ ∧ r.cls = x.cls ∧ r.seq = x.seq); ∃ f,
      s.lat.got = some x ∧ s.latOn = true ∧ x.resp = true ∧ x.typ ∈ [4, 5, 6, 7, 8, 9, 10] ∧ s.lat.reqs.any mine = true ∧
      s.lat.fetch = some f ∧ x.typ = 8 ∧ f.stage = 2 ∧ x.payload ≠ [] ∧ 0x40 + 16 * min (setCount (f.data ++ x.payload)) 4096
      ≤ (f.data ++ x.payload).length) ∧
    (∃ (k : Nat) (r : LatReq) (s : State), s.lat.reqs[k]? = some r ∧ r.tries < 3) ∧
    (∃ (k : Nat) (r : LatReq) (s : State), ∃ f, s.lat.reqs[k]? = some r ∧ 3 ≤ r.tries ∧ (r.typ = 8 ∨ r.typ = 10) ∧ s.lat.fetch
      = some f) ∧
    (∃ (f : LatFetch) (s : State), s.lat.fetch = some f ∧ f.stage = 2 ∧ f.failed = false ∧ 0x40 + 16 * min (setCount f.data)
      4096 ≤ f.data.length ∧ fetchOk f = false) ∧
    (∃ (f : LatFetch) (s : State), s.lat.fetch = some f ∧ f.stage = 2 ∧ f.failed = false ∧ 0x40 + 16 * min (setCount f.data)
      4096 ≤ f.data.length ∧ fetchOk f = true ∧ (∀ k < setCount f.data, leNat ((f.data.drop (0x40 + 16 * k)).take 2) ≠ 0xFFFF
      ∧ leNat ((f.data.drop (0x40 + 16 * k)).take 2) ≠ s.ownAddr)) :=
  ⟨⟨latMsg 9 false ([]), (askedLat 9 ([]) [(0x2F50, 1, 2)] {}).setSession 0
    { path := 36, number := 1, counter := 0, refusals := 0, keySlot := 0, origin := 9 }, true, by decide +kernel⟩, ⟨latMsg 9
    false ([]), askedLat 9 ([]) [] {}, false, by decide +kernel⟩, ⟨latMsg 10 false ([]), askedLat 10 ([]) [(0x2F50, 1, 1),
    (0x2F50, 2, 1), (0x2F50, 3, 1), (0x2F50, 4, 1)] {}, by decide +kernel⟩, ⟨latMsg 10 false ([]), askedLat 10 ([]) [] {}, 0,
    by decide +kernel⟩, ⟨P, lv [(0x2800, 0xE, 3)], by decide +kernel⟩, ⟨P, poke (lv [(0x2800, 0xE, 3), (0x2804, 1,
    0x0D000000), (0x2804, 2, 0x50)]) [(0x0D000000, setOf (zeros 32))], by decide +kernel⟩, ⟨latMsg 4 true ([]), latGot (latMsg
    4 true ([])) [] {}, by decide +kernel⟩, ⟨latMsg 8 true (zeros 80), latGot (latMsg 8 true (zeros 80)) []
    { reqs := [{ addr := 9, typ := 8, cls := 1, seq := 1, frame := [] }], fetch := some { gen := 1, stage := 2 } },
    ({ gen := 1, stage := 2 } : LatFetch), by decide +kernel⟩, ⟨0, { addr := 9, typ := 8, cls := 1, seq := 1, frame := [] },
    { live with lat := { reqs := [{ addr := 9, typ := 8, cls := 1, seq := 1, frame := [] }] } }, by decide +kernel⟩, ⟨0,
    { addr := 9, typ := 8, cls := 1, seq := 1, frame := [], tries := 3 },
    { live with lat := { reqs := [{ addr := 9, typ := 8, cls := 1, seq := 1, frame := [], tries := 3 }], fetch := some { gen := 1, stage := 2 } } },
    ({ gen := 1, stage := 2 } : LatFetch), by decide +kernel⟩, ⟨{ gen := 1, stage := 2, data := zeros 80 },
    { live with lat := { fetch := some { gen := 1, stage := 2, data := zeros 80 } } }, by decide +kernel⟩,
    ⟨{ gen := 1, stage := 2, data := setOf (sha256 (setOf [])) },
    { live with lat := { fetch := some { gen := 1, stage := 2, data := setOf (sha256 (setOf [])) } } }, by decide +kernel⟩⟩

theorem witness_LatticeServicesAnswer_3 :
    ∃ (f : LatFetch) (s : State), s.lat.fetch = some f ∧ f.failed = true ∧ s.latOn = true :=
  ⟨{ gen := 1, stage := 2, failed := true },
    { lv [(0x2800, 1, 1)] with lat := { fetch := some { gen := 1, stage := 2, failed := true } } }, by decide +kernel⟩

theorem witness_CanControllersAct_1 :
    (∃ (p : Path) (c : Fin 4) (v : Word) (s : State), s.writeOk p (canIdx c) 1 v.toNat = true ∧ (s.canOf c).cur = none ∧
      (s.canOf c).mode ≠ v.toNat) ∧
    (∃ (p : Path) (c : Fin 4) (v : Word) (s : State), ∃ b, s.writeOk p (canIdx c) 1 v.toNat = true ∧ (s.canOf c).cur = some b) ∧
    (∃ (c : Fin 4) (f : BusFrame) (s : State),
      let hits := fun (b : Nat) => s.bufMode c b = 1 ∧ idMatches (s.n (canIdx c + 3) (b + 1)) (s.n (canIdx c + 4) (b + 1)) (heldFrame f) = true;
      ∃ b, s.canLive c = true ∧ (s.canOf c).cur = none ∧ (s.canOf c).got = none ∧ hits b ∧ (∀ k < b, ¬ hits k)) ∧
    (∃ (c : Fin 4) (f : BusFrame) (s : State),
      let hits := fun (b : Nat) => s.bufMode c b = 1 ∧ idMatches (s.n (canIdx c + 3) (b + 1)) (s.n (canIdx c + 4) (b + 1)) (heldFrame f) = true;
      s.canLive c = true ∧ (s.canOf c).cur = none ∧ (s.canOf c).got = none ∧ (∀ b < 64, ¬ hits b) ∧ (∀ e < 32, fieldOf (s.n
      (canIdx c + 7) (e + 1)) 30 2 = 0) ∧ fieldOf (s.canN c 9) 16 2 = 0) ∧
    (∃ (c : Fin 4) (s : State), s.canLive c = true) ∧
    (∃ (c : Fin 4) (f : CanFrame) (b how : Nat) (s : State), let a := s.canN c 8 + 80 * b; (s.canOf c).got = some (f, b, how)
      ∧ b < 64 ∧ bitOf (s.bufSt c b) 4 = false ∧ (∀ k < 80, inFacetStore (a + k) = true) ∧ a % 16 = 0 ∧ s.memc.dbe = []) ∧
    (∃ (c : Fin 4) (f : CanFrame) (b how : Nat) (s : State), (s.canOf c).got = some (f, b, how) ∧ b < 64 ∧ bitOf (s.bufSt c b)
      4 = true) ∧
    (∃ (c : Fin 4) (f : CanFrame) (k : Fin 2) (how : Nat) (s : State), (s.canOf c).got = some (f, 64 + k.val, how) ∧ 32 ≤
      s.fifoFill c k) ∧
    (∃ (c : Fin 4) (f : CanFrame) (k : Fin 2) (how : Nat) (s : State), (s.canOf c).got = some (f, 64 + k.val, how) ∧
      s.fifoFill c k < 32) ∧
    (∃ (p : Path) (c : Fin 4) (v : DWord) (b : Nat) (f : CanFrame) (s : State), s.writeOk p (canIdx c + 6) 2 v.toNat = true ∧
      b < 64 ∧ v.toNat = 2 ^ b ∧ s.bufState c b ≠ 2 ∧ s.bufState c b ≠ 3 ∧ s.canTake c b = (f, s) ∧ (f.fdf = true → s.bit
      (canIdx c) 2 0 = true) ∧ (f.brs = true → f.fdf = true)) ∧
    (∃ (p : Path) (c : Fin 4) (v : DWord) (b : Nat) (f : CanFrame) (s : State), s.writeOk p (canIdx c + 6) 2 v.toNat = true ∧
      b < 64 ∧ v.toNat = 2 ^ b ∧ s.bufState c b ≠ 2 ∧ s.bufState c b ≠ 3 ∧ s.canTake c b = (f, s) ∧ ((f.fdf = true ∧ s.bit
      (canIdx c) 2 0 = false) ∨ (f.brs = true ∧ f.fdf = false))) ∧
    (∃ (c : Fin 4) (dt b : Nat) (f : CanFrame) (s : State), let v := s.advance dt; (s.canOf c).cur = none ∧ (s.canOf c).mode =
      1 ∧ v.canLive c = true ∧ v.canBest c = some (b, f) ∧ v.canInject c = none) :=
  ⟨⟨P, 3, 1, live, by decide +kernel⟩, ⟨P, 3, 1, can3 live { cur := some 2 }, 2, by decide +kernel⟩, ⟨3, quietFrame, can3 (lv
    [(0x2932, 64, 1)]) { mode := 1 }, 63, by decide +kernel⟩, ⟨3, quietFrame, can3 live { mode := 1 }, by decide +kernel⟩, ⟨3,
    can3 live { mode := 1 }, by decide +kernel⟩, ⟨3, {}, 63, 1, can3 (lv [(0x2930, 8, 0x0D000000)])
    { got := some ({}, 63, 1) }, by decide +kernel⟩, ⟨3, {}, 63, 1, can3 (lv [(0x2935, 64, 16)]) { got := some ({}, 63, 1) },
    by decide +kernel⟩, ⟨3, {}, 1, 1, can3 (lv [(0x2939, 4, 32)]) { got := some ({}, 65, 1) }, by decide +kernel⟩, ⟨3, {}, 1,
    1, can3 live { got := some ({}, 65, 1) }, by decide +kernel⟩, ⟨P, 3, 0x8000000000000000, 63, {}, poke (lv [(0x2930, 8,
    0x0D000000), (0x2932, 64, 2), (0x2930, 2, 0)]) [(0x0D0013B0, zeros 80)], by decide +kernel⟩, ⟨P, 3, 0x8000000000000000,
    63, { fdf := true }, poke (lv [(0x2930, 8, 0x0D000000), (0x2932, 64, 2), (0x2930, 2, 0)]) [(0x0D0013B0, zeros 4 ++ [16] ++
    zeros 75)], by decide +kernel⟩, ⟨3, 0, 63, {}, can3 (lv [(0x2935, 64, 2)]) { mode := 1, store := [(63, {})] },
    by decide +kernel⟩⟩

theorem witness_CanControllersAct_2 :
    (∃ (c : Fin 4) (delay : BitVec 7) (b : Nat) (f : CanFrame) (s : State), s.canSending c = some (b, f) ∧ b < 64 ∧ s.canFar c
      f delay.toNat = false ∧ (s.canOf c).inject = false ∧ (s.canOf c).mode = 1 ∧ (s.canOf c).next = none ∧ bitOf (s.canOf
      c).aborts b = false) ∧
    (∃ (c : Fin 4) (b : Nat) (f : CanFrame) (s : State), s.canSending c = some (b, f) ∧ b < 64 ∧ bitOf (s.canOf c).aborts b =
      false ∧ (s.canOf c).next = none) ∧
    (∃ (c : Fin 4) (b : Nat) (f : CanFrame) (s : State), ∃ delay : BitVec 7, s.canSending c = some (b, f) ∧ b < 64 ∧ bitOf
      (s.canOf c).aborts b = true ∧ s.canFar c f delay.toNat = false ∧ (s.canOf c).inject = false ∧ ((s.canOf c).mode = 3 →
      (s.canOf c).got = none)) ∧
    (∃ (c : Fin 4) (b : Nat) (f : CanFrame) (s : State), s.canSending c = some (b, f) ∧ b < 64 ∧ bitOf (s.canOf c).aborts b =
      true) ∧
    (∃ (p : Path) (c : Fin 4) (v : DWord) (b : Nat) (s : State), s.writeOk p (canIdx c + 6) 4 v.toNat = true ∧ b < 64 ∧
      v.toNat = 2 ^ b ∧ s.bufState c b = 2) ∧
    (∃ (p : Path) (c : Fin 4) (v : DWord) (b : Nat) (s : State), s.writeOk p (canIdx c + 6) 4 v.toNat = true ∧ b < 64 ∧
      v.toNat = 2 ^ b ∧ s.bufState c b = 3) ∧
    (∃ (p : Path) (c : Fin 4) (v : DWord) (b : Nat) (s : State), s.writeOk p (canIdx c + 6) 6 v.toNat = true ∧ b < 64 ∧
      v.toNat = 2 ^ b ∧ bitOf (s.canOf c).promo b = false) ∧
    (∃ (p : Path) (c : Fin 4) (v : DWord) (b : Nat) (s : State), s.writeOk p (canIdx c + 6) 8 v.toNat = true ∧ b < 64 ∧
      v.toNat = 2 ^ b ∧ bitOf (s.bufSt c b) 4 = true ∧ bitOf (s.canOf c).promo b = false) ∧
    (∃ (c : Fin 4) (b : Fin 64) (f : CanFrame) (how : Nat) (s : State), bitOf (s.canOf c).promo b = true ∧ (s.canOf
      c).shadow.find? (fun e => e.1 = b.val) = some (b.val, f, how)) ∧
    (∃ (p : Path) (c : Fin 4) (v : DWord) (b : Nat) (s : State), s.writeOk p (canIdx c + 6) 0xA v.toNat = true ∧ b < 64 ∧
      v.toNat = 2 ^ b) ∧
    (∃ (p : Path) (c : Fin 4) (k : Fin 2) (v : Word) (s : State), s.writeOk p (canIdx c + 9) (1 + 2 * k.val) v.toNat = true) ∧
    (∃ (p : Path) (c : Fin 4) (s : State), s.writeOk p (canIdx c) 0xE 1 = true ∧ s.busOff c = true ∧ s.canN c 0xD = 1) :=
  ⟨⟨3, 0, 63, {}, can3 live { mode := 1, cur := some 63, store := [(63, {})] }, by decide +kernel⟩, ⟨3, 63, {}, can3 live
    { mode := 1, cur := some 63, store := [(63, {})] }, by decide +kernel⟩, ⟨3, 63, {}, can3 live
    { mode := 1, aborts := 2 ^ 63, cur := some 63, store := [(63, {})] }, 0, by decide +kernel⟩, ⟨3, 63, {}, can3 live
    { mode := 1, aborts := 2 ^ 63, cur := some 63, store := [(63, {})] }, by decide +kernel⟩, ⟨P, 3, 0x8000000000000000, 63,
    lv [(0x2935, 64, 2)], by decide +kernel⟩, ⟨P, 3, 0x8000000000000000, 63, lv [(0x2935, 64, 3)], by decide +kernel⟩, ⟨P, 3,
    0x8000000000000000, 63, live, by decide +kernel⟩, ⟨P, 3, 0x8000000000000000, 63, lv [(0x2935, 64, 16)],
    by decide +kernel⟩, ⟨3, 63, {}, 1, can3 live { promo := 2 ^ 63, shadow := [(63, ({}, 1))] }, by decide +kernel⟩, ⟨P, 3,
    0x8000000000000000, 63, live, by decide +kernel⟩, ⟨P, 3, 1, 0, live, by decide +kernel⟩, ⟨P, 3, lv [(0x2930, 0xA, 2),
    (0x2930, 0xD, 1)], by decide +kernel⟩⟩

theorem witness_CanControllersAct_3 :
    ∃ (c : Fin 4) (s : State), s.busOff c = true ∧ (s.canOf c).recovering = true :=
  ⟨3, can3 (lv [(0x2930, 0xA, 2)]) { recovering := true }, by decide +kernel⟩

theorem witness_CanErrorsMoveTheCounters :
    (∃ (c : Fin 4) (res : Bool) (s : State), s.canLive c = true ∧ (s.canOf c).cur = none ∧ res = true ∧ s.bit (canIdx c) 2 1 =
      true) ∧
    (∃ (c : Fin 4) (res : Bool) (eights : Fin 32) (s : State), s.canLive c = true ∧ (s.canOf c).cur = none ∧ (res = false ∨
      s.bit (canIdx c) 2 1 = false) ∧ (s.canOf c).mode = 1 ∧ s.canN c 0xC + 1 + 8 * eights.val ≤ 127) ∧
    (∃ (c : Fin 4) (delay : BitVec 7) (b : Nat) (f : CanFrame) (s : State), s.canSending c = some (b, f) ∧ b < 64 ∧ s.canFar c
      f delay.toNat = false ∧ (s.canOf c).inject = false ∧ (s.canOf c).mode = 1 ∧ (s.canOf c).next = none ∧ bitOf (s.canOf
      c).aborts b = false) ∧
    (∃ (c : Fin 4) (b : Nat) (f : CanFrame) (s : State), s.canSending c = some (b, f) ∧ b < 64 ∧ bitOf (s.canOf c).aborts b =
      false ∧ (s.canOf c).next = none) :=
  ⟨⟨3, true, can3 (lv [(0x2930, 2, 2)]) { mode := 1 }, by decide +kernel⟩, ⟨3, false, 0, can3 live { mode := 1 },
    by decide +kernel⟩, ⟨3, 0, 63, {}, can3 live { mode := 1, cur := some 63, store := [(63, {})] }, by decide +kernel⟩, ⟨3,
    63, {}, can3 live { mode := 1, cur := some 63, store := [(63, {})] }, by decide +kernel⟩⟩

theorem witness_PioInstructionsAct_1 :
    (∃ (m : Fin 32) (w : Half) (s : State), PioReady s m w ∧ pioOp w = 0) ∧
    (∃ (m : Fin 32) (w : Half) (c : Instr) (op j : Nat) (s : State), (c, op, j) ∈ [(Instr.pioLoopa m, 1, 4), (Instr.pioLoopb
      m, 2, 5)] ∧ PioReady s m w ∧ pioOp w = op) ∧
    (∃ (m : Fin 32) (pins w : Half) (s : State), let code := fieldOf (s.smC m 6) 0 3;
      let pin := pins.getLsbD (fieldOf (s.smC m 5) 20 4); ∃ yes : Bool, PioReady s m w ∧ pioOp w = 3 ∧ ((code = 0 → yes = pin)
      ∧ (code = 1 → yes = !pin) ∧ (code = 2 → yes = !(s.sm m).txF.isEmpty) ∧ (code = 3 → yes = s.rxRoom m) ∧ (code = 4 → yes =
      (s.smD m 4 != s.smD m 5)) ∧ (code = 5 → yes = ((s.sm m).txLeft != 0)) ∧ (code = 6 → yes = bitOf (s.pioFlags (smBlock m))
      (fieldOf (s.smC m 6) 4 3)) ∧ (code = 7 → yes = (s.smD m 4 == 0)))) ∧
    (∃ (m : Fin 32) (w : Half) (s : State), ∃ k, PioReady s m w ∧ pioOp w = 4 ∧ pioArg w / 32 = k ∧ 1 ≤ k) ∧
    (∃ (m : Fin 32) (w : Half) (s : State), let n := pioArg w % 16 + 1; let x := s.sm m; PioReady s m w ∧ pioOp w = 4 ∧ pioArg
      w / 32 = 0 ∧ n ≤ x.txLeft) ∧
    (∃ (m : Fin 32) (w : Half) (s : State), let x := s.sm m; PioReady s m w ∧ pioOp w = 4 ∧ pioArg w / 32 = 0 ∧ x.txLeft = 0 ∧
      bitOf (s.smC m 4) 2 = true ∧ x.txF = []) ∧
    (∃ (m : Fin 32) (w : Half) (s : State), let n := pioArg w % 16 + 1; let x := s.sm m;
      let width := fieldOf (s.smC m 4) 16 6; PioReady s m w ∧ pioOp w = 5 ∧ bitOf (s.smC m 4) 3 = false ∧ width ≤ 32 ∧
      x.rxHave + n ≤ width) ∧
    (∃ (m : Fin 32) (w : Half) (s : State), let x := s.sm m; ∃ d l, PioReady s m w ∧ pioOp w = 6 ∧ x.txF = d :: l) ∧
    (∃ (m : Fin 32) (w : Half) (s : State), let x := s.sm m; PioReady s m w ∧ pioOp w = 6 ∧ x.txF = [] ∧ bitOf (pioArg w) 0 =
      true) ∧
    (∃ (m : Fin 32) (w : Half) (s : State), let x := s.sm m; PioReady s m w ∧ pioOp w = 6 ∧ x.txF = [] ∧ bitOf (pioArg w) 0 =
      false) ∧
    (∃ (m : Fin 32) (w : Half) (s : State), PioReady s m w ∧ pioOp w = 7 ∧ s.rxRoom m = true) ∧
    (∃ (m : Fin 32) (w : Half) (s : State), PioReady s m w ∧ pioOp w = 7 ∧ s.rxRoom m = false ∧ bitOf (pioArg w) 0 = true) :=
  ⟨⟨31, pw 0 5, pio (pw 0 5) [], by unfold PioReady; decide +kernel⟩, ⟨31, pw 1 0, .pioLoopa 31, 1, 4, pio (pw 1 0) [],
    by unfold PioReady; decide +kernel⟩, ⟨31, 0, pw 3 0, pio (pw 3 0) [], false, by unfold PioReady; decide +kernel⟩, ⟨31, pw
    4 32, pio (pw 4 32) [], 1, by unfold PioReady; decide +kernel⟩, ⟨31, pw 4 0, pio (pw 4 0) [] { txLeft := 1 },
    by unfold PioReady; decide +kernel⟩, ⟨31, pw 4 0, pio (pw 4 0) [(0x2A2F, 4, 4)], by unfold PioReady; decide +kernel⟩, ⟨31,
    pw 5 0, pio (pw 5 0) [(0x2A2F, 4, 0x80000)], by unfold PioReady; decide +kernel⟩, ⟨31, pw 6 0, pio (pw 6 0) []
    { txF := [5] }, 5, [], by unfold PioReady; decide +kernel⟩, ⟨31, pw 6 1, pio (pw 6 1) [],
    by unfold PioReady; decide +kernel⟩, ⟨31, pw 6 0, pio (pw 6 0) [], by unfold PioReady; decide +kernel⟩, ⟨31, pw 7 0, pio
    (pw 7 0) [], by unfold PioReady; decide +kernel⟩, ⟨31, pw 7 1, pio (pw 7 1) [] { rxF := List.replicate 8 0 },
    by unfold PioReady; decide +kernel⟩⟩

theorem witness_PioInstructionsAct_2 :
    (∃ (m : Fin 32) (w : Half) (s : State), PioReady s m w ∧ pioOp w = 7 ∧ s.rxRoom m = false ∧ bitOf (pioArg w) 0 = false) ∧
    (∃ (m : Fin 32) (w : Half) (s : State), PioReady s m w ∧ pioOp w = 8) ∧
    (∃ (m : Fin 32) (pins w : Half) (s : State), let v := s.pioInputs (smBlock m) pins; PioReady s m w ∧ pioOp w = 9 ∧
      v.awaitMet m w = true) ∧
    (∃ (m : Fin 32) (pins w : Half) (s : State), let v := s.pioInputs (smBlock m) pins; PioReady s m w ∧ pioOp w = 9 ∧
      v.awaitMet m w = false) ∧
    (∃ (m : Fin 32) (w : Half) (s : State), PioReady s m w ∧ pioOp w = 10) ∧
    (∃ (m : Fin 32) (w : Half) (s : State), PioReady s m w ∧ pioOp w = 11) ∧
    (∃ (m : Fin 32) (w : Half) (s : State), let n := pioArg w % 32 + 1; let x := s.sm m; PioReady s m w ∧ pioOp w = 12 ∧ n ≤
      x.txLeft ∧ pioArg w / 32 ≤ 2) ∧
    (∃ (m : Fin 32) (w : Half) (s : State), let n := pioArg w % 32 + 1; let x := s.sm m;
      let width := fieldOf (s.smC m 4) 16 6; PioReady s m w ∧ pioOp w = 13 ∧ bitOf (s.smC m 4) 3 = false ∧ width ≤ 32 ∧
      x.rxHave + n ≤ width) ∧
    (∃ (m : Fin 32) (w : Half) (s : State), PioReady s m w ∧ (pioOp w = 14 ∨ pioOp w = 15)) ∧
    (∃ (m : Fin 32) (pins w : Half) (s : State), s.smOn m = true ∧ (s.sm m).latched = some w ∧ (s.sm m).rest = none ∧ (s.sm
      m).st = 4 ∧ s.smD m 3 = w.toNat ∧ (s.pioInputs (smBlock m) pins).awaitMet m w = true) ∧
    (∃ (m : Fin 32) (pins w : Half) (s : State), s.smOn m = true ∧ (s.sm m).latched = some w ∧ (s.sm m).rest = none ∧ (s.sm
      m).st = 4 ∧ s.smD m 3 = w.toNat ∧ (s.pioInputs (smBlock m) pins).awaitMet m w = false) ∧
    (∃ (m : Fin 32) (s : State), s.smOn m = true ∧ (s.sm m).delay ≠ 0) :=
  ⟨⟨31, pw 7 0, pio (pw 7 0) [] { rxF := List.replicate 8 0 }, by unfold PioReady; decide +kernel⟩, ⟨31, pw 8 0, pio (pw 8 0)
    [], by unfold PioReady; decide +kernel⟩, ⟨31, 0, pw 9 0, pio (pw 9 0) [], by unfold PioReady; decide +kernel⟩, ⟨31, 0, pw
    9 16, pio (pw 9 16) [], by unfold PioReady; decide +kernel⟩, ⟨31, pw 10 0, pio (pw 10 0) [],
    by unfold PioReady; decide +kernel⟩, ⟨31, pw 11 0, pio (pw 11 0) [], by unfold PioReady; decide +kernel⟩, ⟨31, pw 12 0,
    pio (pw 12 0) [] { txLeft := 1 }, by unfold PioReady; decide +kernel⟩, ⟨31, pw 13 0, pio (pw 13 0) [(0x2A2F, 4, 0x80000)],
    by unfold PioReady; decide +kernel⟩, ⟨31, pw 14 0, pio (pw 14 0) [], by unfold PioReady; decide +kernel⟩, ⟨31, 0, pw 9 0,
    pio (pw 9 0) [(0x2A5F, 3, 0x9000)] { st := 4 }, by decide +kernel⟩, ⟨31, 0, pw 9 16, pio (pw 9 16) [(0x2A5F, 3, 0x9010)]
    { st := 4 }, by decide +kernel⟩, ⟨31, pio (pw 0 0) [] { delay := 1 }, by decide +kernel⟩⟩

theorem witness_PioControlsAct_1 :
    (∃ (q : Path) (b : Fin 4) (v : Byte) (c : Instr) (s : State), s.n (0x2A00 + b.val) 1 < 256 ∧ ((c = .pioSmEnable q b v ∧ v
      &&& ~~~ BitVec.ofNat 8 (s.n (0x2A00 + b.val) 1) ≠ 0) ∨ (c = .pioSmDisable q b v ∧ BitVec.ofNat 8 (s.n (0x2A00 + b.val)
      1) &&& ~~~ v ≠ 0)) ∧ s.writeOk q (0x2A00 + b.val) 1 v.toNat = true) ∧
    (∃ (q : Path) (m : Fin 32) (s : State), s.writeOk q (0x2A10 + m.val) 8 1 = true) ∧
    (∃ (q : Path) (m : Fin 32) (s : State), s.writeOk q (0x2A10 + m.val) 9 1 = true) ∧
    (∃ (q : Path) (m : Fin 32) (v : Half) (s : State), s.writeOk q (0x2A10 + m.val) 2 v.toNat = true) ∧
    (∃ (q : Path) (s : State), s.writeOk q 0x2A80 5 1 = true) ∧
    (∃ (q : Path) (s : State), s.writeOk q 0x2A80 5 2 = true ∧ s.n 0x2A80 5 = 1) ∧
    (∃ (q : Path) (s : State), s.writeOk q 0x2A80 5 2 = true ∧ s.n 0x2A80 5 ≠ 1) ∧
    (∃ s : State, s.n 0x2A80 5 = 1 ∧ s.bit 0x2A80 4 7 = false ∧ (∀ b < 4, s.n (0x2A00 + b) 1 < 256)) ∧
    (∃ (q : Path) (b : Fin 4) (v : Byte) (s : State), s.writeOk q (0x2A00 + b.val) 6 v.toNat = true) ∧
    (∃ (q : Path) (b : Fin 4) (v : Byte) (s : State), s.writeOk q (0x2A00 + b.val) 7 v.toNat = true) ∧
    (∃ (q : Path) (m : Fin 32) (v : Word) (s : State), s.writeOk q (0x2A40 + m.val) 7 v.toNat = true) ∧
    (∃ (q : Path) (m : Fin 32) (s : State), s.readOk q (0x2A40 + m.val) 8 = true ∧ s.pioDrained m = false) :=
  ⟨⟨P, 3, 0x80, .pioSmEnable P 3 0x80, live, by decide +kernel⟩, ⟨P, 31, live, by decide +kernel⟩, ⟨P, 31, live,
    by decide +kernel⟩, ⟨P, 31, 0x7F00, live, by decide +kernel⟩, ⟨P, live, by decide +kernel⟩, ⟨P, lv [(0x2A80, 5, 1)],
    by decide +kernel⟩, ⟨P, live, by decide +kernel⟩, ⟨lv [(0x2A80, 5, 1)], by decide +kernel⟩, ⟨P, 3, 255, live,
    by decide +kernel⟩, ⟨P, 3, 255, live, by decide +kernel⟩, ⟨P, 31, 7, live, by decide +kernel⟩, ⟨P, 31, live,
    by decide +kernel⟩⟩

theorem witness_PioControlsAct_2 :
    (∃ (q : Path) (m : Fin 32) (s : State), (s.readOk q (0x2A40 + m.val) 8 = false ∨ s.pioDrained m = true)) ∧
    (∃ (q : Path) (k : Fin 64) (v : Word) (s : State), bitOf v.toNat 0 = true ∧ s.writeOk q (0x2A90 + k.val) 1 v.toNat = true) ∧
    (∃ (q : Path) (k : Fin 64) (s : State), s.writeOk q (0x2A90 + k.val) 6 1 = true ∧ s.n (0x2A90 + k.val) 5 = 1) ∧
    (∃ (k : Fin 64) (s : State), let i := 0x2A90 + k.val; let m := fieldOf (s.n i 1) 8 5; let a := s.n i 8; s.n i 5 = 1 ∧
      s.ready a = true ∧ inFacetStore a = true ∧ inFacetStore (a + 3) = true ∧ s.memc.dbe = [] ∧ s.bit i 1 1 = false ∧
      s.txRoom m = true) ∧
    (∃ (k : Fin 64) (s : State), let i := 0x2A90 + k.val; let m := fieldOf (s.n i 1) 8 5; let a := s.n i 8; ∃ d l, s.n i 5 = 1
      ∧ s.ready a = true ∧ inFacetStore a = true ∧ inFacetStore (a + 3) = true ∧ s.memc.dbe = [] ∧ s.bit i 1 1 = true ∧ (s.sm
      m).rxF = d :: l) ∧
    (∃ (k : Fin 64) (s : State), let i := 0x2A90 + k.val; let m := fieldOf (s.n i 1) 8 5; let a := s.n i 8; s.n i 5 = 1 ∧
      s.ready a = true ∧ inFacetStore a = true ∧ inFacetStore (a + 3) = true ∧ s.memc.dbe = [] ∧ ((s.bit i 1 1 = false ∧
      s.txRoom m = false) ∨ (s.bit i 1 1 = true ∧ (s.sm m).rxF = []))) :=
  ⟨⟨P, 31, lv [(0x2ACF, 5, 1), (0x2ACF, 1, 0x1F02)], by decide +kernel⟩, ⟨P, 63, 1, live, by decide +kernel⟩, ⟨P, 63, lv
    [(0x2ACF, 5, 1)], by decide +kernel⟩, ⟨63,
    { lv [(0x2ACF, 5, 1), (0x2ACF, 8, 0x0D000000), (0x2ACF, 4, 1), (0x2ACF, 1, 7936)] with sms := [(31, {  })] },
    by decide +kernel⟩, ⟨63,
    { lv [(0x2ACF, 5, 1), (0x2ACF, 8, 0x0D000000), (0x2ACF, 4, 1), (0x2ACF, 1, 7938)] with sms := [(31, { rxF := [5] })] }, 5,
    [], by decide +kernel⟩, ⟨63,
    { lv [(0x2ACF, 5, 1), (0x2ACF, 8, 0x0D000000), (0x2ACF, 4, 1), (0x2ACF, 1, 7938)] with sms := [(31, {  })] },
    by decide +kernel⟩⟩

end Sys2Proof.Tests
end

section
/-! SUPPORT. Fields and bits of a number after a field is replaced (R3), and the bytes of a number (R4). -/

namespace Sys2Proof

theorem testBit_fieldOf (n l w i : Nat) : (fieldOf n l w).testBit i = (decide (i < w) && n.testBit (l + i)) := by
  simp [fieldOf, Nat.testBit_mod_two_pow, Nat.testBit_div_two_pow, Nat.add_comm]

theorem putField_eq (n l w v : Nat) :
    putField n l w v = 2 ^ l * (2 ^ w * (n / 2 ^ l / 2 ^ w) + v % 2 ^ w) + n % 2 ^ l := by
  have h1 := Nat.div_add_mod n (2 ^ l)
  have h2 := Nat.div_add_mod (n / 2 ^ l) (2 ^ w)
  have h3 : 2 ^ l * (n / 2 ^ l) = 2 ^ l * (2 ^ w * (n / 2 ^ l / 2 ^ w)) + fieldOf n l w * 2 ^ l := by
    rw [Nat.mul_comm (fieldOf n l w), ← Nat.mul_add]; exact congrArg _ h2.symm
  rw [putField, Nat.mul_add, Nat.mul_comm (v % 2 ^ w)]
  omega

/-- Replacing a field replaces its bits and no other. -/
theorem testBit_putField (n l w v i : Nat) :
    (putField n l w v).testBit i = if l ≤ i ∧ i < l + w then v.testBit (i - l) else n.testBit i := by
  rw [putField_eq, Nat.testBit_two_pow_mul_add _ (Nat.mod_lt _ (Nat.two_pow_pos l)),
    Nat.testBit_two_pow_mul_add _ (Nat.mod_lt _ (Nat.two_pow_pos w))]
  by_cases hl : i < l
  · simp [hl, Nat.testBit_mod_two_pow, Nat.not_le.mpr hl]
  · by_cases hw : i - l < w
    · rw [if_neg hl, if_pos hw, if_pos (by omega)]
      simp [Nat.testBit_mod_two_pow, hw]
    · rw [if_neg hl, if_neg hw, if_neg (by omega)]
      simp only [Nat.testBit_div_two_pow]
      congr 1; omega

theorem putField_lt {n l w : Nat} (v : Nat) {m : Nat} (hn : n < 2 ^ m) (hw : l + w ≤ m) : putField n l w v < 2 ^ m := by
  refine Nat.lt_pow_two_of_testBit _ (fun i hi => ?_)
  rw [testBit_putField, if_neg (by omega)]
  exact Nat.testBit_lt_two_pow (Nat.lt_of_lt_of_le hn (Nat.pow_le_pow_right (by decide) hi))

theorem fieldOf_putField_self (n l : Nat) {w v : Nat} (h : v < 2 ^ w) : fieldOf (putField n l w v) l w = v := by
  refine Nat.eq_of_testBit_eq (fun i => ?_)
  rw [testBit_fieldOf, testBit_putField]
  by_cases hi : i < w
  · simp [hi]
  · simp [hi, Nat.testBit_lt_two_pow (Nat.lt_of_lt_of_le h (Nat.pow_le_pow_right (by decide) (Nat.not_lt.mp hi)))]

theorem fieldOf_putField_ne (n v : Nat) {l w l' w' : Nat} (h : l' + w' ≤ l ∨ l + w ≤ l') :
    fieldOf (putField n l w v) l' w' = fieldOf n l' w' := by
  refine Nat.eq_of_testBit_eq (fun i => ?_)
  rw [testBit_fieldOf, testBit_fieldOf, testBit_putField]
  by_cases hi : i < w'
  · rw [if_neg (by omega)]
  · simp [hi]

theorem bitOf_putField_ne (n v : Nat) {l w k : Nat} (h : k < l ∨ l + w ≤ k) : bitOf (putField n l w v) k = bitOf n k := by
  rw [Machine.bitOf_testBit, Machine.bitOf_testBit, testBit_putField, if_neg (by omega)]

@[simp] theorem bitOf_putField_one (n l v : Nat) : bitOf (putField n l 1 v) l = v.testBit 0 := by
  rw [Machine.bitOf_testBit, testBit_putField, if_pos (by omega), Nat.sub_self]

theorem fieldOf_congr {a b l w : Nat} (h : ∀ k, l ≤ k → k < l + w → a.testBit k = b.testBit k) : fieldOf a l w = fieldOf b l w := by
  refine Nat.eq_of_testBit_eq (fun k => ?_)
  rw [testBit_fieldOf, testBit_fieldOf]
  by_cases hk : k < w
  · rw [h _ (by omega) (by omega)]
  · simp [hk]

theorem bitOf_add_two_pow {n b : Nat} (h : bitOf n b = false) : bitOf (n + 2 ^ b) b = true := by
  simp only [bitOf, Nat.add_div_right _ (Nat.two_pow_pos b), beq_eq_false_iff_ne, beq_iff_eq] at h ⊢
  omega

namespace Machine

@[simp] theorem length_leBytes (v n : Nat) : (leBytes v n).length = n := by
  induction n generalizing v with
  | zero => rfl
  | succ n ih => simp [leBytes, ih]

theorem leNat_leBytes (v n : Nat) : leNat (leBytes v n) = v % 256 ^ n := by
  induction n generalizing v with
  | zero => simp [leBytes, leNat, Nat.mod_one]
  | succ n ih =>
    rw [leBytes, leNat, ih, BitVec.toNat_ofNat, Nat.pow_succ' (n := n), Nat.mod_mul (a := 256) (b := 256 ^ n)]

theorem leNat_leBytes_four (v : Nat) : leNat (leBytes v 4) = v % 2 ^ 32 := leNat_leBytes v 4

end Machine
end Sys2Proof
end

section
/-! SUPPORT. What every object of the CAN controllers (0x2900–0x293F) reads after each operation of the controllers: the object that
the operation names, and every other one; what the operation leaves of the controller beyond its objects. -/

namespace Sys2Proof.Machine

/-- Keys of the objects of the CAN controllers. -/
abbrev CanObject (k : Nat) : Prop := 0x2900 * 256 ≤ k ∧ k < 0x2940 * 256

theorem canIdx_range (c : Fin 4) : 0x2900 ≤ canIdx c ∧ canIdx c ≤ 0x2930 := by
  unfold canIdx; omega

theorem CanObject.not_routeKey {i j : Nat} (h : CanObject (odKey i j)) : ¬ routeKey (odKey i j) := by
  unfold routeKey; omega

/-! ### Objects that an operation leaves alone -/

theorem ObjectsKept.trans {s t u : State} {ks : List (Nat × Nat)} (h : ObjectsKept s t ks) (h' : ObjectsKept t u ks) :
    ObjectsKept s u ks := fun i j hr hk => (h' i j hr hk).trans (h i j hr hk)

theorem ObjectsKept.mono {s t : State} {ks ls : List (Nat × Nat)} (h : ObjectsKept s t ks) (hs : ks ⊆ ls) : ObjectsKept s t ls :=
  fun i j hr hk => h i j hr (fun k hm => hk k (hs hm))

theorem objectsKept_wr (s : State) (i j v : Nat) : ObjectsKept s (s.wr i j v) [(i, j)] :=
  fun _ _ _ hk => s.n_wr_ne v (hk (i, j) (List.mem_singleton_self _))

theorem objectsKept_canStatus (s : State) (c l w v : Nat) : ObjectsKept s (s.canStatus c l w v) [(canIdx c, 0xA)] :=
  objectsKept_wr s _ _ _

theorem objectsKept_setBuf (s : State) (c b l w v : Nat) : ObjectsKept s (s.setBuf c b l w v) [(canIdx c + 5, b + 1)] :=
  objectsKept_wr s _ _ _

/-! ### Events, counters, STATUS and buffer status -/

variable {i j : Nat} (s : State) (c : Nat)

@[simp] theorem State.n_setCan (x : Can) (i j : Nat) : (s.setCan c x).n i j = s.n i j := rfl

@[simp] theorem State.n_canEvent_ne (e : Nat) (h : CanObject (odKey i j)) (hk : odKey i j ≠ odKey (canIdx c) 0x10) :
    (s.canEvent c e).n i j = s.n i j := s.n_event_ne _ _ _ _ _ h.not_routeKey hk

@[simp] theorem State.n_canEvent_self {e : Nat} (h : CanObject (odKey (canIdx c) 0x10)) (he : e < 64) :
    (s.canEvent c e).n (canIdx c) 0x10 = s.n (canIdx c) 0x10 ||| 2 ^ e :=
  s.n_event_self h.not_routeKey (Nat.pow_lt_pow_right (by decide) he)

@[simp] theorem State.n_canCnt_ne (k : Nat) (h : CanObject (odKey i j)) (hk : odKey i j ≠ odKey (canIdx c + 1) k)
    (he : odKey i j ≠ odKey (canIdx c) 0x10) : (s.canCnt c k).n i j = s.n i j :=
  s.n_cntH_ne h.not_routeKey hk he

@[simp] theorem State.n_canCnt_self {k : Nat} (h : CanObject (odKey (canIdx c + 1) k)) :
    (s.canCnt c k).n (canIdx c + 1) k = (s.n (canIdx c + 1) k + 1) % 2 ^ 32 :=
  s.n_cntH_self h.not_routeKey (by unfold odKey; omega)

/-- A counter that passes half its range sets HALF_RANGE and clears no event. -/
theorem State.event_canCnt {s : State} {c k e : Nat} (h : CanObject (odKey (canIdx c) 0x10))
    (he : bitOf (s.n (canIdx c) 0x10) e = true) : bitOf ((s.canCnt c k).n (canIdx c) 0x10) e = true := by
  have hw : (s.wr (canIdx c + 1) k ((s.n (canIdx c + 1) k + 1) % 2 ^ 32)).n (canIdx c) 0x10 = s.n (canIdx c) 0x10 :=
    s.n_wr_ne _ (by unfold odKey; omega)
  unfold State.canCnt State.cntH State.addH
  dsimp only
  split
  · rw [State.n_event_self _ h.not_routeKey (by decide), hw, bitOf_or, he, Bool.true_or]
  · rw [hw, he]

@[simp] theorem State.n_canStatus_ne (l w v : Nat) (hk : odKey i j ≠ odKey (canIdx c) 0xA) :
    (s.canStatus c l w v).n i j = s.n i j := s.n_wr_ne _ hk

@[simp] theorem State.n_canStatus_self {l w : Nat} (v : Nat) (h : l + w ≤ 64) :
    (s.canStatus c l w v).n (canIdx c) 0xA = putField (s.n (canIdx c) 0xA) l w v := by
  unfold State.canStatus State.canN
  rw [State.n_wr_self, Nat.mod_eq_of_lt (putField_lt v (s.n_lt _ _) h)]

@[simp] theorem State.n_setBuf_ne (b l w v : Nat) (hk : odKey i j ≠ odKey (canIdx c + 5) (b + 1)) :
    (s.setBuf c b l w v).n i j = s.n i j := s.n_wr_ne _ hk

@[simp] theorem State.n_setBuf_self {l w : Nat} (b v : Nat) (h : l + w ≤ 64) :
    (s.setBuf c b l w v).n (canIdx c + 5) (b + 1) = putField (s.n (canIdx c + 5) (b + 1)) l w v := by
  unfold State.setBuf State.bufSt
  rw [State.n_wr_self, Nat.mod_eq_of_lt (putField_lt v (s.n_lt _ _) h)]

@[simp] theorem State.n_setBufState_ne (b v : Nat) (hk : odKey i j ≠ odKey (canIdx c + 5) (b + 1)) :
    (s.setBufState c b v).n i j = s.n i j := s.n_setBuf_ne c b 0 4 v hk

@[simp] theorem State.n_setBufState_self (b v : Nat) :
    (s.setBufState c b v).n (canIdx c + 5) (b + 1) = putField (s.n (canIdx c + 5) (b + 1)) 0 4 v :=
  s.n_setBuf_self c b v (by decide)

/-! ### The controller beyond its objects -/

theorem State.canOf_congr {s t : State} (h : t.can = s.can) (c : Nat) : t.canOf c = s.canOf c := by
  unfold State.canOf; rw [h]

@[simp] theorem State.canOf_setCan (x : Can) : (s.setCan c x).canOf c = x := tblGet_set_self ..
@[simp] theorem State.canOf_wr (i j v : Nat) : (s.wr i j v).canOf c = s.canOf c := rfl
@[simp] theorem State.canOf_cnt (i j : Nat) : (s.cnt i j).canOf c = s.canOf c := rfl
@[simp] theorem State.canOf_tick : s.tick.canOf c = s.canOf c := rfl
@[simp] theorem State.canOf_emit (o : Out) : (s.emit o).canOf c = s.canOf c := rfl
@[simp] theorem State.canOf_canStatus (l w v : Nat) : (s.canStatus c l w v).canOf c = s.canOf c := rfl
@[simp] theorem State.canOf_setBuf (b l w v : Nat) : (s.setBuf c b l w v).canOf c = s.canOf c := rfl
@[simp] theorem State.canOf_setBufState (b v : Nat) : (s.setBufState c b v).canOf c = s.canOf c := rfl
@[simp] theorem State.canOf_canEvent (e : Nat) : (s.canEvent c e).canOf c = s.canOf c :=
  State.canOf_congr (by simp [State.canEvent]) c
@[simp] theorem State.canOf_canCnt (k : Nat) : (s.canCnt c k).canOf c = s.canOf c :=
  State.canOf_congr (by simp [State.canCnt]) c

/-! ### Commands that act on one buffer of a bitmap -/

theorem foldl_range_single (f : State → Nat → State) (b m : Nat) :
    (List.range m).foldl (fun s k => if bitOf (2 ^ b) k then f s k else s) s = if b < m then f s b else s := by
  induction m with
  | zero => rfl
  | succ m ih =>
    rw [List.range_succ, List.foldl_append, ih, List.foldl_cons, List.foldl_nil]
    by_cases h : b = m
    · subst h; simp [bitOf_pow]
    · by_cases h' : b < m
      · simp [bitOf_pow, h, h', Nat.lt_succ_of_lt h']
      · simp [bitOf_pow, h, h', show ¬ b < m + 1 by omega]

theorem State.canEach_two_pow (f : State → Nat → State) {b : Nat} (hb : b < 64) : s.canEach (2 ^ b) f = f s b := by
  unfold State.canEach; rw [foldl_range_single, if_pos hb]

/-! ### Counters and error states (R423) -/

/-- The error state that TEC and REC give (R423). -/
def errorState (tec rec : Nat) : Nat := if 255 < tec then 2 else if 127 < tec ∨ 127 < rec then 1 else 0

/-- TEC, REC and the error state take their values. -/
def State.showCounters (s : State) (c tec rec : Nat) : State :=
  ((s.wr (canIdx c) 0xB (min tec 511)).wr (canIdx c) 0xC rec).canStatus c 0 2 (errorState tec rec)

/-- Bus off is entered: its recovery, count and event, the end of an integration, and its record. -/
def State.goBusOff (s : State) (c : Nat) : State :=
  let s := s.setCan c { s.canOf c with recovering := s.canN c 0xD = 0 }
  (((s.cnt (canIdx c + 1) 7).canEvent c 7).canStatus c 3 1 0).record 0x0502 (body [(c, 1)])

theorem State.canCounters_eq (tec rec : Nat) :
    s.canCounters c tec rec =
      if errorState tec rec = 2 ∧ fieldOf (s.n (canIdx c) 0xA) 0 2 ≠ 2 then (s.showCounters c tec rec).goBusOff c
      else if errorState tec rec = 1 ∧ fieldOf (s.n (canIdx c) 0xA) 0 2 = 0 then (s.showCounters c tec rec).canEvent c 6
      else s.showCounters c tec rec := rfl

/-- What holds of the counters' new values, and is kept by bus off and by the WARNING event, holds of the result. -/
theorem State.canCounters_induct {P : State → Prop} (tec rec : Nat) (h0 : P (s.showCounters c tec rec))
    (h1 : ∀ t : State, P t → P (t.goBusOff c)) (h2 : ∀ t : State, P t → P (t.canEvent c 6)) : P (s.canCounters c tec rec) := by
  rw [State.canCounters_eq]
  split
  · exact h1 _ h0
  · split
    · exact h2 _ h0
    · exact h0

theorem State.n_record_can (typ : Nat) (d : List Byte) (h : CanObject (odKey i j)) (ht : typ < 0xF000) :
    (s.record typ d).n i j = s.n i j := s.n_record typ d i j (by omega) h.not_routeKey ht

theorem State.n_goBusOff_ne (h : CanObject (odKey i j)) (hs : odKey i j ≠ odKey (canIdx c) 0xA)
    (he : odKey i j ≠ odKey (canIdx c) 0x10) (hc : odKey i j ≠ odKey (canIdx c + 1) 7) : (s.goBusOff c).n i j = s.n i j := by
  unfold State.goBusOff
  simp only [State.n_record_can _ _ _ h (by decide : 0x0502 < 0xF000), State.n_canStatus_ne _ _ _ _ _ hs,
    State.n_canEvent_ne _ _ _ h he, State.n_cnt_ne _ hc, State.n_setCan]

theorem State.status_goBusOff (c : Fin 4) : (s.goBusOff c).n (canIdx c) 0xA = putField (s.n (canIdx c) 0xA) 3 1 0 := by
  have hr := canIdx_range c
  have h : CanObject (odKey (canIdx c) 0xA) := by unfold odKey; omega
  unfold State.goBusOff
  simp (disch := first | omega | (unfold odKey; omega)) [State.n_record_can, State.n_cnt_ne]

@[simp] theorem State.n_canCounters_ne (tec rec : Nat) (h : CanObject (odKey i j)) (hs : odKey i j ≠ odKey (canIdx c) 0xA)
    (ht : odKey i j ≠ odKey (canIdx c) 0xB) (hr : odKey i j ≠ odKey (canIdx c) 0xC)
    (he : odKey i j ≠ odKey (canIdx c) 0x10) (hc : odKey i j ≠ odKey (canIdx c + 1) 7) :
    (s.canCounters c tec rec).n i j = s.n i j := by
  refine State.canCounters_induct (P := fun t => t.n i j = s.n i j) s c tec rec ?_ ?_ ?_
  · unfold State.showCounters
    rw [State.n_canStatus_ne _ _ _ _ _ hs, State.n_wr_ne _ _ hr, State.n_wr_ne _ _ ht]
  · exact fun t ih => (t.n_goBusOff_ne c h hs he hc).trans ih
  · exact fun t ih => (t.n_canEvent_ne c 6 h he).trans ih

/-- The counters change of STATUS the error state and the integration bit. -/
theorem State.status_canCounters (c : Fin 4) (tec rec : Nat) (k : Nat) (hk : k ≠ 0 ∧ k ≠ 1 ∧ k ≠ 3) :
    ((s.canCounters c tec rec).n (canIdx c) 0xA).testBit k = (s.n (canIdx c) 0xA).testBit k := by
  refine State.canCounters_induct (P := fun t => (t.n (canIdx c) 0xA).testBit k = _) s c tec rec ?_ ?_ ?_
  · unfold State.showCounters
    simp (disch := first | omega | (unfold odKey; omega)) [testBit_putField, State.n_wr_ne]
    omega
  · intro t ih
    rw [State.status_goBusOff, testBit_putField, if_neg (by omega), ih]
  · intro t ih
    have := canIdx_range c
    rw [State.n_canEvent_ne _ _ _ (by unfold odKey; omega) (by unfold odKey; omega), ih]

@[simp] theorem State.bit_canCounters (c : Fin 4) (tec rec : Nat) {k : Nat} (hk : k ≠ 0 ∧ k ≠ 1 ∧ k ≠ 3) :
    bitOf ((s.canCounters c tec rec).n (canIdx c) 0xA) k = bitOf (s.n (canIdx c) 0xA) k := by
  rw [bitOf_testBit, bitOf_testBit, State.status_canCounters s c tec rec k hk]

@[simp] theorem State.field_canCounters (c : Fin 4) (tec rec w : Nat) {l : Nat} (hl : 4 ≤ l) :
    fieldOf ((s.canCounters c tec rec).n (canIdx c) 0xA) l w = fieldOf (s.n (canIdx c) 0xA) l w :=
  fieldOf_congr (fun k h1 h2 => State.status_canCounters s c tec rec k (by omega))

@[simp] theorem State.event_canEvent_self (c : Fin 4) {e : Nat} (he : e < 64) :
    bitOf ((s.canEvent c e).n (canIdx c) 0x10) e = true := by
  have hr := canIdx_range c
  rw [State.n_canEvent_self _ _ (by unfold odKey; omega) he, bitOf_or, bitOf_pow, decide_eq_true rfl, Bool.or_true]

theorem State.event_canEvent {s : State} {c : Fin 4} {e k : Nat} (hk : k < 64) (he : bitOf (s.n (canIdx c) 0x10) e = true) :
    bitOf ((s.canEvent c k).n (canIdx c) 0x10) e = true := by
  have hr := canIdx_range c
  rw [State.n_canEvent_self _ _ (by unfold odKey; omega) hk, bitOf_or, he, Bool.true_or]

theorem State.event_canCounters {s : State} {c : Fin 4} {tec rec e : Nat} (he : bitOf (s.n (canIdx c) 0x10) e = true) :
    bitOf ((s.canCounters c tec rec).n (canIdx c) 0x10) e = true := by
  have hr := canIdx_range c
  refine State.canCounters_induct (P := fun t => bitOf (t.n (canIdx c) 0x10) e = true) s c tec rec ?_ ?_ ?_
  · unfold State.showCounters
    simpa (disch := unfold odKey; omega) [State.n_wr_ne] using he
  · intro t ih
    unfold State.goBusOff
    simp (disch := first | omega | (unfold odKey; omega)) [State.n_record_can, State.n_cnt_ne, bitOf_or, ih]
  · exact fun t ih => State.event_canEvent (by decide) ih

@[simp] theorem State.canOf_canCounters (tec rec : Nat) :
    (s.canCounters c tec rec).canOf c = { s.canOf c with
      recovering := if errorState tec rec = 2 ∧ fieldOf (s.n (canIdx c) 0xA) 0 2 ≠ 2 then decide (s.n (canIdx c) 0xD = 0)
        else (s.canOf c).recovering } := by
  have hk : (s.showCounters c tec rec).n (canIdx c) 0xD = s.n (canIdx c) 0xD := by
    unfold State.showCounters
    simp (disch := unfold odKey; omega) [State.n_wr_ne]
  have hb (t : State) : (t.goBusOff c).canOf c = { t.canOf c with recovering := decide (t.n (canIdx c) 0xD = 0) } := by
    unfold State.goBusOff
    dsimp only
    rw [State.canOf_congr (State.record_can _ _ _), State.canOf_canStatus, State.canOf_canEvent, State.canOf_cnt,
      State.canOf_setCan]
    rfl
  rw [State.canCounters_eq]
  split
  · rw [hb, hk]; rfl
  · split
    · rw [State.canOf_canEvent]; rfl
    · rfl

@[simp] theorem State.n_recDown (i j : Nat) : (s.recDown c).2.n i j = s.n i j := by
  unfold State.recDown; dsimp only; split <;> rfl

@[simp] theorem State.canOf_recDown : (s.recDown c).2.canOf c = s.canOf c := by
  unfold State.recDown; dsimp only; split <;> rfl

/-! ### Modes, and the end of an attempt (R420–R422) -/

@[simp] theorem State.canOf_canEnter (m : Nat) : (s.canEnter c m).canOf c = { s.canOf c with mode := m, next := none } := by
  unfold State.canEnter; dsimp only; split <;> simp

@[simp] theorem State.n_canEnter_ne (m : Nat) (hk : odKey i j ≠ odKey (canIdx c) 0xA) : (s.canEnter c m).n i j = s.n i j := by
  unfold State.canEnter; dsimp only; split
  · rfl
  · rw [State.n_canStatus_ne _ _ _ _ _ hk, State.n_setCan]

theorem State.status_canEnter (m : Nat) {k : Nat} (hk : k ≠ 3) :
    ((s.canEnter c m).n (canIdx c) 0xA).testBit k = (s.n (canIdx c) 0xA).testBit k := by
  unfold State.canEnter; dsimp only; split
  · rfl
  · rw [State.n_canStatus_self _ _ _ (by decide), testBit_putField, if_neg (by omega), State.n_setCan]

/-- After an attempt nothing is on the bus, and a mode that waited is in force. -/
@[simp] theorem State.canOf_canIdle : (s.canIdle c).canOf c =
    { s.canOf c with cur := none, inject := false, next := none, mode := (s.canOf c).next.getD (s.canOf c).mode } := by
  unfold State.canIdle; dsimp only; split
  next m h => simp [h]
  next h => simp [h]

@[simp] theorem State.n_canIdle_ne (hk : odKey i j ≠ odKey (canIdx c) 0xA) : (s.canIdle c).n i j = s.n i j := by
  unfold State.canIdle; dsimp only; split
  · rw [State.n_canEnter_ne _ _ _ hk, State.n_canStatus_ne _ _ _ _ _ hk, State.n_setCan]
  · rw [State.n_canStatus_ne _ _ _ _ _ hk, State.n_setCan]

/-- Of STATUS the end of an attempt clears the on-bus bit, and a mode that waited may change the integration bit. -/
theorem State.status_canIdle {k : Nat} (hk : k ≠ 3) :
    ((s.canIdle c).n (canIdx c) 0xA).testBit k = (putField (s.n (canIdx c) 0xA) 5 1 0).testBit k := by
  unfold State.canIdle; dsimp only; split
  · rw [State.status_canEnter _ _ _ hk, State.n_canStatus_self _ _ _ (by decide), State.n_setCan]
  · rw [State.n_canStatus_self _ _ _ (by decide), State.n_setCan]

@[simp] theorem State.bit_canIdle {k : Nat} (hk : k ≠ 3 ∧ k ≠ 5) :
    bitOf ((s.canIdle c).n (canIdx c) 0xA) k = bitOf (s.n (canIdx c) 0xA) k := by
  rw [bitOf_testBit, bitOf_testBit, State.status_canIdle _ _ hk.1, testBit_putField, if_neg (by omega)]

@[simp] theorem State.onBus_canIdle : bitOf ((s.canIdle c).n (canIdx c) 0xA) 5 = false := by
  rw [bitOf_testBit, State.status_canIdle _ _ (by decide), ← bitOf_testBit, bitOf_putField_one]; rfl

@[simp] theorem State.field_canIdle (w : Nat) {l : Nat} (hl : 6 ≤ l) :
    fieldOf ((s.canIdle c).n (canIdx c) 0xA) l w = fieldOf (s.n (canIdx c) 0xA) l w :=
  fieldOf_congr (fun k h1 h2 => by rw [State.status_canIdle _ _ (by omega), testBit_putField, if_neg (by omega)])

/-! ### Attempts without success (R420, R421, R424) -/

theorem State.canRetry_of_aborted {b : Nat} (h : bitOf (s.canOf c).aborts b = true) :
    s.canRetry c b = (((s.setCan c { s.canOf c with aborts := (s.canOf c).aborts - 2 ^ b }).setBufState c b 5).setBuf c b 8 2
      1).canEvent c 11 := by
  unfold State.canRetry; exact if_pos h

theorem State.canRetry_of_not_aborted {b : Nat} (h : bitOf (s.canOf c).aborts b = false) :
    s.canRetry c b = s.setBufState c b (if s.oneShot c b then 7 else 2) := by
  unfold State.canRetry
  rw [if_neg (by simp [h])]
  split <;> rfl

theorem State.n_canRetry_ne (b : Nat) (h : CanObject (odKey i j)) (hb : odKey i j ≠ odKey (canIdx c + 5) (b + 1))
    (he : odKey i j ≠ odKey (canIdx c) 0x10) : (s.canRetry c b).n i j = s.n i j := by
  cases ha : bitOf (s.canOf c).aborts b
  · rw [State.canRetry_of_not_aborted _ _ ha, State.n_setBufState_ne _ _ _ _ hb]
  · rw [State.canRetry_of_aborted _ _ ha, State.n_canEvent_ne _ _ _ h he, State.n_setBuf_ne _ _ _ _ _ _ hb,
      State.n_setBufState_ne _ _ _ _ hb, State.n_setCan]

theorem State.canOf_canRetry (b : Nat) : ∃ m, (s.canRetry c b).canOf c = { s.canOf c with aborts := m } := by
  cases ha : bitOf (s.canOf c).aborts b
  · exact ⟨_, by rw [State.canRetry_of_not_aborted _ _ ha, State.canOf_setBufState]⟩
  · exact ⟨_, by rw [State.canRetry_of_aborted _ _ ha, State.canOf_canEvent, State.canOf_setBuf, State.canOf_setBufState,
      State.canOf_setCan]⟩

/-- An acknowledge error is counted; it ends as any other error does, or in UNACKED (R424). -/
theorem State.canUnacked_eq (b : Nat) : s.canUnacked c b =
    let t := s.setCan c { s.canOf c with acks := (s.canOf c).acks + 1 }
    let u := if bitOf (s.n (canIdx c) 0xA) 2 then t else (t.canStatus c 2 1 1).canEvent c 9
    if bitOf (s.canOf c).aborts b || decide (s.n (canIdx c) 6 = 0) ||
        (decide ((s.canOf c).acks + 1 < s.n (canIdx c) 6) && !bitOf (s.n (canIdx c) 0xA) 2) then t.canRetry c b
    else ((u.setBufState c b 6).cnt (canIdx c) 0xF).canEvent c 10 := by
  have h := State.canOf_setCan s c { s.canOf c with acks := (s.canOf c).acks + 1 }
  unfold State.canUnacked
  dsimp only
  rw [h]
  rfl

theorem State.canUnacked_retry {b : Nat} (h : bitOf (s.canOf c).aborts b = true ∨ s.n (canIdx c) 6 = 0 ∨
      ((s.canOf c).acks + 1 < s.n (canIdx c) 6 ∧ bitOf (s.n (canIdx c) 0xA) 2 = false)) :
    s.canUnacked c b = (s.setCan c { s.canOf c with acks := (s.canOf c).acks + 1 }).canRetry c b := by
  rw [State.canUnacked_eq]
  exact if_pos (by simpa [or_assoc] using h)

/-- At the limit, and while ALONE is set, the buffer ends UNACKED (R424; log entry 131: a one-shot buffer too). -/
theorem State.canUnacked_alone {b : Nat} (ha : bitOf (s.canOf c).aborts b = false) (hl : s.n (canIdx c) 6 ≠ 0)
    (h : s.n (canIdx c) 6 ≤ (s.canOf c).acks + 1 ∨ bitOf (s.n (canIdx c) 0xA) 2 = true) :
    s.canUnacked c b =
      let t := s.setCan c { s.canOf c with acks := (s.canOf c).acks + 1 }
      let u := if bitOf (s.n (canIdx c) 0xA) 2 then t else (t.canStatus c 2 1 1).canEvent c 9
      ((u.setBufState c b 6).cnt (canIdx c) 0xF).canEvent c 10 := by
  rw [State.canUnacked_eq]
  refine if_neg ?_
  simp only [ha, hl, decide_false, Bool.or_self, Bool.false_or, Bool.and_eq_true, decide_eq_true_eq, Bool.not_eq_true']
  rintro ⟨hlt, h2⟩
  rcases h with h | h
  · omega
  · rw [h2] at h; exact absurd h (by decide)

theorem State.canLost_of_idle (h : (s.canOf c).cur = none) : s.canLost c = s := by
  unfold State.canLost; rw [h]

end Sys2Proof.Machine
end

section
/-! SUPPORT. What a unit's write leaves of the CAN controllers, and what a frame stored into a slot leaves in memory (R414). -/

namespace Sys2Proof.Machine

variable {i j : Nat} (s : State) (c : Nat)

/-! ### Writes of a unit without a master ID (R20) -/

theorem regionOf_bank_lt {a b : Nat} (h : regionOf a = .bank b) : b < 0x60 := by
  unfold regionOf at h
  split at h
  · cases h; omega
  · repeat' split at h
    all_goals cases h

theorem regionOf_facet {a : Nat} (h : inFacetStore a = true) : ∃ f, regionOf a = .store f := by
  simp only [inFacetStore, Bool.and_eq_true, decide_eq_true_eq] at h
  refine ⟨(a - 0x0D00_0000) / 0x4_0000, ?_⟩
  unfold regionOf
  rw [if_neg (by omega), if_neg (by omega), if_neg (by omega), if_neg (by omega), if_pos (by omega)]

/-- A path without a master ID owns no mailbox channel. -/
theorem State.mayWrite_mailbox_unit (ch : Nat) : s.mayWrite { id := 0, secure := true } (.mailbox ch) = false := by
  unfold State.mayWrite
  by_cases h : s.n (0x2C10 + ch) 7 = 0 <;> simp [h]

theorem State.n_memWrite_unit (a : Nat) (d : List Byte) (h : CanObject (odKey i j)) :
    (s.memWrite { id := 0, secure := true } a d).n i j = s.n i j := by
  have hr := h.not_routeKey
  unfold State.memWrite
  dsimp only
  split
  · rfl
  split
  · unfold State.violate; simp
  next hm =>
    split
    · cases regionOf a with
      | bank b =>
        exact (State.n_event_ne _ _ _ _ _ _ hr (by unfold odKey at *; omega)).trans (s.n_cnt_ne (by unfold odKey at *; omega))
      | _ => rfl
    · have hd : ((if d.length = 8 then (s.setDbe a false).setSbe a false else s).setBytes a d).n i j = s.n i j := by
        rw [State.n_setBytes]; split <;> rfl
      cases hg : regionOf a with
      | bank b =>
        have hb := regionOf_bank_lt hg
        exact (State.n_wr_ne _ _ (by unfold odKey at *; omega)).trans hd
      | mailbox ch => rw [hg, State.mayWrite_mailbox_unit] at hm; simp at hm
      | _ => exact hd

theorem State.can_composeStart (ch : Nat) : (s.composeStart ch).can = s.can := by
  unfold State.composeStart; split <;> rfl

theorem State.can_memWrite (p : Path) (a : Nat) (d : List Byte) : (s.memWrite p a d).can = s.can := by
  have hs : ((if d.length = 8 then (s.setDbe a false).setSbe a false else s).setBytes a d).can = s.can := by
    rw [State.setBytes_can]; split <;> rfl
  unfold State.memWrite
  dsimp only
  split
  · rfl
  split
  · exact State.violate_can ..
  split
  · cases regionOf a with
    | bank b => exact (State.event_can ..).trans (State.cnt_can ..)
    | _ => rfl
  · cases regionOf a with
    | bank b => exact (State.wr_can ..).trans hs
    | mailbox ch => exact (State.can_composeStart _ ch).trans hs
    | _ => exact hs

theorem State.dbe_cleared {s : State} (a : Nat) (h : s.memc.dbe = []) : ((s.setDbe a false).setSbe a false).memc.dbe = [] := by
  simp [State.setDbe, State.setSbe, h, tblSet, tblDel]

theorem State.memWrite_facet {s : State} {a : Nat} (p : Path) (d : List Byte) (ha : inFacetStore a = true) (hd : s.memc.dbe = []) :
    (∀ x, (s.memWrite p a d).byte x = (s.setBytes a d).byte x) ∧ (s.memWrite p a d).memc.dbe = [] := by
  obtain ⟨f, hf⟩ := regionOf_facet ha
  have he : s.hasDbe a = false := by unfold State.hasDbe; rw [hd]; rfl
  have hw : s.memWrite p a d = (if d.length = 8 then (s.setDbe a false).setSbe a false else s).setBytes a d := by
    unfold State.memWrite
    simp [hf, he, State.mayWrite]
  rw [hw, State.setBytes_memc]
  constructor
  · intro x
    rw [State.byte_setBytes, State.byte_setBytes]
    have hb : (if d.length = 8 then (s.setDbe a false).setSbe a false else s).byte x = s.byte x := by split <;> rfl
    rw [hb]
  · split
    · exact State.dbe_cleared a hd
    · exact hd

@[simp] theorem State.n_unitWrite (a : Nat) (d : List Byte) (h : CanObject (odKey i j)) : (s.unitWrite a d).n i j = s.n i j :=
  State.n_foldl _ _ _ (fun t _ => t.n_memWrite_unit _ _ h) _ _

@[simp] theorem State.canOf_unitWrite (a : Nat) (d : List Byte) : (s.unitWrite a d).canOf c = s.canOf c :=
  State.canOf_congr (foldl_can _ (fun t _ => t.can_memWrite _ _ _) _ _) c

/-- The first `m` doublewords of a write of `d` at `a` in a facet store. -/
theorem State.byte_chunks {s : State} {a : Nat} (d : List Byte) (hd : s.memc.dbe = []) (m : Nat)
    (ha : ∀ k < m, inFacetStore (a + 8 * k) = true) :
    let t := (List.range m).foldl (fun s k => s.memWrite { id := 0, secure := true } (a + 8 * k) ((d.drop (8 * k)).take 8)) s
    t.memc.dbe = [] ∧ ∀ x, t.byte x = if a ≤ x ∧ x < a + min (8 * m) d.length then d.getD (x - a) 0 else s.byte x := by
  induction m with
  | zero => exact ⟨hd, fun x => (if_neg (by omega)).symm⟩
  | succ m ih =>
    obtain ⟨h1, h2⟩ := ih (fun k hk => ha k (by omega))
    dsimp only at h1 h2 ⊢
    rw [List.range_succ, List.foldl_append, List.foldl_cons, List.foldl_nil]
    obtain ⟨h3, h4⟩ := State.memWrite_facet { id := 0, secure := true } ((d.drop (8 * m)).take 8) (ha m (by omega)) h1
    refine ⟨h4, fun x => ?_⟩
    rw [h3, State.byte_setBytes, h2]
    simp only [List.length_take, List.length_drop]
    by_cases hx : a + 8 * m ≤ x ∧ x < a + 8 * m + min 8 (d.length - 8 * m)
    · rw [if_pos hx, if_pos (by omega), List.getD_eq_getElem?_getD, List.getD_eq_getElem?_getD, List.getElem?_take,
        if_pos (by omega), List.getElem?_drop, show 8 * m + (x - (a + 8 * m)) = x - a by omega]
    · rw [if_neg hx]
      by_cases hy : a ≤ x ∧ x < a + min (8 * m) d.length
      · rw [if_pos hy, if_pos (by omega)]
      · rw [if_neg hy, if_neg (by omega)]

/-- The bytes from `a` on lie in the facet stores, which hold no double-bit error. -/
def State.CleanFacet (s : State) (a n : Nat) : Prop := s.memc.dbe = [] ∧ ∀ k < n, inFacetStore (a + k) = true

theorem State.CleanFacet.part {s : State} {a n : Nat} (h : s.CleanFacet a n) (k m : Nat) (hm : k + m ≤ n) : s.CleanFacet (a + k) m :=
  ⟨h.1, fun x hx => by rw [Nat.add_assoc]; exact h.2 _ (by omega)⟩

theorem State.byte_unitWrite {s : State} {a : Nat} {d : List Byte} (h : s.CleanFacet a d.length) (x : Nat) :
    (s.unitWrite a d).byte x = if a ≤ x ∧ x < a + d.length then d.getD (x - a) 0 else s.byte x := by
  rw [State.unitWrite, (State.byte_chunks d h.1 _ (fun _ _ => h.2 _ (by omega))).2 x]
  congr 2
  rw [Nat.min_eq_right (by omega)]

theorem State.CleanFacet.unitWrite {s : State} {a n b : Nat} {d : List Byte} (h : s.CleanFacet a n) (hb : s.CleanFacet b d.length) :
    (s.unitWrite b d).CleanFacet a n :=
  ⟨(State.byte_chunks d h.1 _ (fun _ _ => hb.2 _ (by omega))).1, h.2⟩

theorem State.bytes_eq {t : State} {a : Nat} {l : List Byte} (h : ∀ k < l.length, t.byte (a + k) = l.getD k 0) :
    t.bytes a l.length = l := by
  induction l generalizing a with
  | nil => rfl
  | cons x l ih =>
    rw [List.length_cons, State.bytes, ih (fun k hk => ?_)]
    · rw [show t.byte a = x from h 0 (Nat.zero_lt_succ _)]
    · rw [Nat.add_assoc, Nat.add_comm 1]; exact h (k + 1) (by simpa using hk)

theorem State.bytes_unitWrite_self {s : State} {a : Nat} {d : List Byte} (h : s.CleanFacet a d.length) :
    (s.unitWrite a d).bytes a d.length = d :=
  State.bytes_eq (fun k hk => by rw [State.byte_unitWrite h, if_pos (by omega), Nat.add_sub_cancel_left])

theorem State.bytes_unitWrite_ne {s : State} {a x n : Nat} {d : List Byte} (h : s.CleanFacet a d.length)
    (hx : x + n ≤ a ∨ a + d.length ≤ x) : (s.unitWrite a d).bytes x n = s.bytes x n :=
  State.bytes_congr _ (fun b h1 h2 => by rw [State.byte_unitWrite h, if_neg (by omega)])

theorem State.bytes_append (a m n : Nat) : s.bytes a (m + n) = s.bytes a m ++ s.bytes (a + m) n := by
  induction m generalizing a with
  | zero => simp [State.bytes]
  | succ m ih => rw [Nat.succ_add, State.bytes, ih, State.bytes, List.cons_append, Nat.add_assoc, Nat.add_comm 1]

@[simp] theorem State.length_bytes (a n : Nat) : (s.bytes a n).length = n := by
  induction n generalizing a with
  | zero => rfl
  | succ n ih => simp [State.bytes, ih]

/-! ### A frame in its slot (R414) -/

/-- The data bytes of a slot: the frame's, filled up with zeros. -/
def CanFrame.slotData (f : CanFrame) : List Byte :=
  if f.rtr then zeros 64 else (f.data.take (dlcLen f.fdf f.dlc) ++ zeros 64).take 64

theorem CanFrame.length_slotData (f : CanFrame) : f.slotData.length = 64 := by
  unfold CanFrame.slotData zeros
  split <;> simp

/-- The five writes of a slot, with `q` as its count. -/
def State.slotWrites (s : State) (a : Nat) (f : CanFrame) (how q : Nat) : State :=
  ((((s.unitWrite (a + 0xC) (leBytes 0xFFFF_FFFF 4)).unitWrite (a + 0x10) f.slotData).unitWrite a
    (leBytes f.w0 4 ++ leBytes (f.w1 how) 4)).unitWrite (a + 8) (leBytes f.time 4)).unitWrite (a + 0xC) (leBytes q 4)

theorem State.canPut_eq (k a : Nat) (f : CanFrame) (how : Nat) :
    ∃ q seqs, s.canPut c k a f how = (s.setCan c { s.canOf c with seqs := seqs }).slotWrites a f how q := ⟨_, _, rfl⟩

@[simp] theorem State.n_canPut (k a : Nat) (f : CanFrame) (how : Nat) (h : CanObject (odKey i j)) :
    (s.canPut c k a f how).n i j = s.n i j := by
  obtain ⟨q, seqs, e⟩ := s.canPut_eq c k a f how
  rw [e, State.slotWrites]
  simp only [State.n_unitWrite _ _ _ h, State.n_setCan]

theorem State.canOf_canPut (k a : Nat) (f : CanFrame) (how : Nat) :
    ∃ seqs, (s.canPut c k a f how).canOf c = { s.canOf c with seqs := seqs } := by
  obtain ⟨q, seqs, e⟩ := s.canPut_eq c k a f how
  exact ⟨seqs, by rw [e, State.slotWrites]; simp⟩

theorem State.slotWrites_slot {s : State} {a : Nat} (f : CanFrame) (how q : Nat) (h : s.CleanFacet a 80) :
    let t := s.slotWrites a f how q
    t.w32 a = f.w0 % 2 ^ 32 ∧ t.w32 (a + 4) = f.w1 how % 2 ^ 32 ∧ t.w32 (a + 8) = f.time % 2 ^ 32 ∧
      t.bytes (a + 0x10) 64 = f.slotData ∧ ∀ x, x < a ∨ a + 80 ≤ x → t.byte x = s.byte x := by
  have hl := f.length_slotData
  have hw : (leBytes f.w0 4 ++ leBytes (f.w1 how) 4).length = 8 := by simp
  have p1 := h.part 0xC (leBytes 0xFFFF_FFFF 4).length (by simp)
  have h1 := h.unitWrite p1
  have p2 := h1.part 0x10 f.slotData.length (by omega)
  have h2 := h1.unitWrite p2
  have p3 : State.CleanFacet _ a (leBytes f.w0 4 ++ leBytes (f.w1 how) 4).length := h2.part 0 _ (by omega)
  have h3 := h2.unitWrite p3
  have p4 := h3.part 8 (leBytes f.time 4).length (by simp)
  have h4 := h3.unitWrite p4
  have p5 := h4.part 0xC (leBytes q 4).length (by simp)
  have head := State.bytes_unitWrite_self p3
  rw [hw, State.bytes_append _ _ 4 4] at head
  obtain ⟨e0, e1⟩ := List.append_inj head (by simp)
  have e2 := State.bytes_unitWrite_self p2
  rw [hl] at e2
  have e4 := State.bytes_unitWrite_self p4
  rw [length_leBytes] at e4
  unfold State.slotWrites State.w32 State.le
  refine ⟨?_, ?_, ?_, ?_, fun x hx => ?_⟩
  · rw [State.bytes_unitWrite_ne p5 (.inl (by omega)), State.bytes_unitWrite_ne p4 (.inl (by omega)), e0, leNat_leBytes_four]
  · rw [State.bytes_unitWrite_ne p5 (.inl (by omega)), State.bytes_unitWrite_ne p4 (.inl (by omega)), e1, leNat_leBytes_four]
  · rw [State.bytes_unitWrite_ne p5 (.inl (by omega)), e4, leNat_leBytes_four]
  · rw [State.bytes_unitWrite_ne p5 (.inr (by have := length_leBytes q 4; omega)), State.bytes_unitWrite_ne p4 (.inr (by rw [length_leBytes]; omega)),
      State.bytes_unitWrite_ne p3 (.inr (by rw [hw]; omega)), e2]
  · rw [State.byte_unitWrite p5, if_neg (by rw [length_leBytes]; omega), State.byte_unitWrite p4, if_neg (by rw [length_leBytes]; omega),
      State.byte_unitWrite p3, if_neg (by omega), State.byte_unitWrite p2, if_neg (by omega),
      State.byte_unitWrite p1, if_neg (by rw [length_leBytes]; omega)]

/-- A slot in the facet stores holds the frame that is put there, and no byte outside it changes. -/
theorem State.canPut_slot {s : State} {a : Nat} (c k : Nat) (f : CanFrame) (how : Nat) (h : s.CleanFacet a 80) :
    let t := s.canPut c k a f how
    t.w32 a = f.w0 % 2 ^ 32 ∧ t.w32 (a + 4) = f.w1 how % 2 ^ 32 ∧ t.w32 (a + 8) = f.time % 2 ^ 32 ∧
      t.bytes (a + 0x10) 64 = f.slotData ∧ ∀ x, x < a ∨ a + 80 ≤ x → t.byte x = s.byte x := by
  obtain ⟨q, seqs, e⟩ := s.canPut_eq c k a f how
  rw [e]
  exact State.slotWrites_slot (s := s.setCan c { s.canOf c with seqs := seqs }) f how q h

end Sys2Proof.Machine
end

section
/-! SUPPORT. Storage of a received frame and its offer to buffers and filters: one case each (R415–R417). -/

namespace Sys2Proof.Machine

variable {i j : Nat} (s : State)

/-! ### Storage of a received frame (R415–R417) -/

section
variable (c : Fin 4)

@[simp] theorem State.canOf_canLose (b : Nat) : (s.canLose c b).canOf c = s.canOf c := by
  unfold State.canLose; simp

theorem State.n_canLose_ne (b : Nat) (h : CanObject (odKey i j)) (hb : odKey i j ≠ odKey (canIdx c + 5) (b + 1))
    (hk : odKey i j ≠ odKey (canIdx c + 1) 4) (he : odKey i j ≠ odKey (canIdx c) 0x10) : (s.canLose c b).n i j = s.n i j := by
  unfold State.canLose
  rw [State.n_canEvent_ne _ _ _ h he, State.n_canCnt_ne _ _ _ h hk he, State.n_setBuf_ne _ _ _ _ _ _ hb]

/-- A lost frame sets LOST of its buffer and counts (R417). -/
theorem State.canLose_marks {b : Nat} (hb : b < 64) :
    (s.canLose c b).n (canIdx c + 5) (b + 1) = putField (s.n (canIdx c + 5) (b + 1)) 6 1 1 ∧
    (s.canLose c b).n (canIdx c + 1) 4 = (s.n (canIdx c + 1) 4 + 1) % 2 ^ 32 := by
  have hr := canIdx_range c
  unfold State.canLose
  constructor <;> simp (disch := first | omega | (unfold odKey; omega))

theorem State.bufStore_locked {b : Nat} (f : CanFrame) (how : Nat) (h : bitOf (s.bufSt c b) 4 = true) :
    s.bufStore c b f how =
      let t := if bitOf (s.bufSt c b) 5 then s.canLose c b else s.setBuf c b 5 1 1
      t.setCan c { t.canOf c with shadow := tblIns b (f, how) (tblDel b (t.canOf c).shadow) } := by
  unfold State.bufStore; exact if_pos h

theorem State.bufStore_open {b : Nat} (f : CanFrame) (how : Nat) (h : bitOf (s.bufSt c b) 4 = false) :
    s.bufStore c b f how =
      let t := if s.bufState c b = 1 then s.canLose c b else s
      ((t.canPut c b (t.slotAt c b) f how).setBufState c b 1).canEvent c 0 := by
  unfold State.bufStore; exact if_neg (by simp [h])

theorem State.fifoStore_full {k : Nat} (f : CanFrame) (how : Nat) (h : 32 ≤ s.fifoFill c k) :
    s.fifoStore c k f how = (s.canCnt c 5).canEvent c 4 := by
  unfold State.fifoStore; exact if_pos h

/-- A frame that enters a FIFO: its slot is written, PUT rises, and at the level the FIFO's event may be set. -/
theorem State.fifoStore_room {k : Nat} (f : CanFrame) (how : Nat) (h : s.fifoFill c k < 32) :
    ∃ a m, let t := (s.canPut c m a f how).wr (canIdx c + 9) (2 + 2 * k) ((s.n (canIdx c + 9) (2 + 2 * k) + 1) % 256)
      s.fifoStore c k f how = t ∨ s.fifoStore c k f how = t.canEvent c (2 + k) := by
  refine ⟨s.fifoAt c k (s.n (canIdx c + 9) (2 + 2 * k) % 32), 64 + 32 * k + s.n (canIdx c + 9) (2 + 2 * k) % 32, ?_⟩
  unfold State.fifoStore
  rw [if_neg (by omega)]
  dsimp only
  split
  · exact .inr rfl
  · exact .inl rfl

theorem State.canStore_none (h : (s.canOf c).got = none) : s.canStore c = s := by
  unfold State.canStore; rw [h]

theorem State.canStore_buffer {f : CanFrame} {b how : Nat} (h : (s.canOf c).got = some (f, b, how)) (hb : b < 64) :
    s.canStore c = (s.setCan c { s.canOf c with got := none }).bufStore c b f how := by
  unfold State.canStore; rw [h]; exact if_pos hb

theorem State.canStore_fifo {f : CanFrame} {k how : Nat} (h : (s.canOf c).got = some (f, 64 + k, how)) :
    s.canStore c = (s.setCan c { s.canOf c with got := none }).fifoStore c k f how := by
  unfold State.canStore; rw [h]; dsimp only; rw [if_neg (by omega), Nat.add_sub_cancel_left]

/-- Storage keeps the count of acknowledge errors and every object of 0x2900 but the events. -/
theorem State.bufStore_keeps (b : Nat) (f : CanFrame) (how : Nat) :
    ((s.bufStore c b f how).canOf c).acks = (s.canOf c).acks ∧
    ∀ j < 0x10, (s.bufStore c b f how).n (canIdx c) j = s.n (canIdx c) j := by
  have hr := canIdx_range c
  have lose : ((s.canLose c b).canOf c).acks = (s.canOf c).acks ∧ ∀ j < 0x10, (s.canLose c b).n (canIdx c) j = s.n (canIdx c) j :=
    ⟨by rw [State.canOf_canLose], fun j hj =>
      s.n_canLose_ne c b (by unfold odKey; omega) (by unfold odKey; omega) (by unfold odKey; omega) (by unfold odKey; omega)⟩
  cases hl : bitOf (s.bufSt c b) 4
  · rw [State.bufStore_open _ _ _ _ hl]
    have first : ((if s.bufState c b = 1 then s.canLose c b else s).canOf c).acks = (s.canOf c).acks ∧
        ∀ j < 0x10, (if s.bufState c b = 1 then s.canLose c b else s).n (canIdx c) j = s.n (canIdx c) j := by
      split
      · exact lose
      · exact ⟨rfl, fun _ _ => rfl⟩
    revert first
    generalize (if s.bufState c b = 1 then s.canLose c b else s) = t
    intro ⟨ha, hn⟩
    obtain ⟨q, hq⟩ := t.canOf_canPut c b (t.slotAt c b) f how
    refine ⟨by simp [hq, ha], fun j hj => ?_⟩
    simp (disch := first | omega | (unfold odKey; omega)) [hn j hj]
  · rw [State.bufStore_locked _ _ _ _ hl]
    dsimp only
    split
    · simpa using lose
    · refine ⟨by simp, fun j hj => ?_⟩
      simp (disch := first | omega | (unfold odKey; omega))

theorem State.fifoStore_keeps (k : Nat) (f : CanFrame) (how : Nat) :
    ((s.fifoStore c k f how).canOf c).acks = (s.canOf c).acks ∧
    ∀ j < 0x10, (s.fifoStore c k f how).n (canIdx c) j = s.n (canIdx c) j := by
  have hr := canIdx_range c
  by_cases hf : 32 ≤ s.fifoFill c k
  · rw [State.fifoStore_full _ _ _ _ hf]
    exact ⟨by simp, fun j hj => by simp (disch := first | omega | (unfold odKey; omega))⟩
  · obtain ⟨a, m, h⟩ := s.fifoStore_room c f how (Nat.lt_of_not_le hf)
    obtain ⟨q, hq⟩ := s.canOf_canPut c m a f how
    rcases h with h | h <;> rw [h] <;> refine ⟨by simp [hq], fun j hj => ?_⟩ <;>
      simp (disch := first | omega | (unfold odKey; omega)) [State.n_wr_ne]

theorem State.canStore_keeps :
    ((s.canStore c).canOf c).acks = (s.canOf c).acks ∧ ∀ j < 0x10, (s.canStore c).n (canIdx c) j = s.n (canIdx c) j := by
  unfold State.canStore
  split
  · exact ⟨rfl, fun _ _ => rfl⟩
  next f k how _ =>
    dsimp only
    split
    · simpa using State.bufStore_keeps (s.setCan c { s.canOf c with got := none }) c k f how
    · simpa using State.fifoStore_keeps (s.setCan c { s.canOf c with got := none }) c (k - 64) f how

/-! ### A frame offered to buffers and filters (R415) -/

/-- Receive buffer `b` accepts frame `f`. -/
def State.bufAccepts (s : State) (c b : Nat) (f : CanFrame) : Prop :=
  s.bufMode c b = 1 ∧ idMatches (s.n (canIdx c + 3) (b + 1)) (s.n (canIdx c + 4) (b + 1)) f = true

theorem State.canAccept_buffer {b : Nat} {f : CanFrame} (hb : b < 64) (h : s.bufAccepts c b f)
    (hl : ∀ k < b, ¬ s.bufAccepts c k f) : s.canAccept c f = (some (b, b), s) := by
  have hf : (List.range 64).find? (fun b => s.bufMode c b = 1 &&
      idMatches (s.n (canIdx c + 3) (b + 1)) (s.n (canIdx c + 4) (b + 1)) f) = some b := by
    rw [List.find?_range_eq_some]
    refine ⟨by simpa [State.bufAccepts] using h, by simpa using hb, fun k hk => ?_⟩
    rw [Bool.not_eq_true', Bool.eq_false_iff]
    intro hx
    simp only [Bool.and_eq_true, decide_eq_true_eq] at hx
    exact hl k hk hx
  unfold State.canAccept
  rw [hf]

theorem State.canAccept_reject {f : CanFrame} (hb : ∀ b < 64, ¬ s.bufAccepts c b f)
    (he : ∀ e < 32, fieldOf (s.n (canIdx c + 7) (e + 1)) 30 2 = 0) (hd : fieldOf (s.n (canIdx c) 9) 16 2 = 0) :
    s.canAccept c f = (none, s) := by
  have h1 : (List.range 64).find? (fun b => s.bufMode c b = 1 &&
      idMatches (s.n (canIdx c + 3) (b + 1)) (s.n (canIdx c + 4) (b + 1)) f) = none := by
    rw [List.find?_eq_none]
    intro b hm
    simpa [State.bufAccepts] using hb b (List.mem_range.mp hm)
  have h2 : (List.range 32).find? (fun e => fieldOf (s.n (canIdx c + 7) (e + 1)) 30 2 ≠ 0 &&
      idMatches (s.n (canIdx c + 7) (e + 1)) (s.n (canIdx c + 8) (e + 1)) f) = none := by
    rw [List.find?_eq_none]
    intro e hm
    simp [he e (List.mem_range.mp hm)]
  unfold State.canAccept
  rw [h1]
  dsimp only
  rw [h2]
  exact if_pos hd

theorem State.canAccept_state (f : CanFrame) : (s.canAccept c f).2 = s ∨ (s.canAccept c f).2 = s.tick := by
  unfold State.canAccept
  split
  · exact .inl rfl
  · split
    · exact .inl rfl
    · dsimp only
      split
      · exact .inl rfl
      · exact .inr rfl

/-- An offered frame is counted, and held for storage or rejected. -/
theorem State.canOffer_cases (f : CanFrame) :
    let u := (((s.canStore c).canCnt c 1).canAccept c f).2
    (∃ g, s.canOffer c f = u.setCan c { u.canOf c with got := g }) ∨ s.canOffer c f = u.canCnt c 6 := by
  unfold State.canOffer
  dsimp only
  split
  next k how t h => exact .inl ⟨_, by rw [h]⟩
  next t h => exact .inr (by rw [h])

end

end Sys2Proof.Machine
end

section
/-! SUPPORT. What the commands of modes and reception do: one lemma per command and case (R414–R417, R422). -/

namespace Sys2Proof.Machine

/-! ### Modes and reception: what the commands do -/

section
variable (s : State) (c : Fin 4)

/-- A write of MODE takes effect at once where nothing is on the bus. -/
theorem canModeWrite_idle {p : Path} {v : Word} (hw : s.writeOk p (canIdx c) 1 v.toNat = true)
    (hc : (s.canOf c).cur = none) (hm : (s.canOf c).mode ≠ v.toNat) :
    ∃ t, exec (.canModeWrite p c v) s = .next t ∧ t.canN c 1 = v.toNat ∧ (t.canOf c).mode = v.toNat ∧
      t.bit (canIdx c) 0xA 3 = decide (v.toNat = 1 ∨ v.toNat = 2) ∧
      ObjectsKept s t [(canIdx c, 1), (canIdx c, 0xA)] ∧ t.mem = s.mem := by
  have hv : v.toNat < 2 ^ 64 := Nat.lt_trans v.isLt (by decide)
  have he : s.canMode c v.toNat = ((s.wr (canIdx c) 1 v.toNat).setCan c { s.canOf c with mode := v.toNat, next := none }).canStatus c 3 1
      (if v.toNat = 1 ∨ v.toNat = 2 then 1 else 0) := by
    unfold State.canMode State.canEnter
    simp [hc, hm]
  refine ⟨s.canMode c v.toNat, congrArg _ (s.guard_ok hw), ?_, ?_, ?_, ?_, State.canMode_mem ..⟩
  · rw [he, State.canN]
    rw [State.n_canStatus_ne _ _ _ _ _ (by unfold odKey; omega), State.n_setCan, State.n_wr_self, Nat.mod_eq_of_lt hv]
  · rw [he]; simp
  · rw [he, State.bit]
    simp only [State.n_canStatus_self, bitOf_putField_one, Nat.reduceAdd, Nat.reduceLeDiff]
    split <;> simp_all
  · rw [he]
    exact ((objectsKept_wr s _ _ _).mono (by simp)).trans ((objectsKept_canStatus _ c _ _ _).mono (by simp))

/-- While a frame is on the bus the written mode waits. -/
theorem canModeWrite_busy {p : Path} {v : Word} {b : Nat} (hw : s.writeOk p (canIdx c) 1 v.toNat = true)
    (hc : (s.canOf c).cur = some b) :
    ∃ t, exec (.canModeWrite p c v) s = .next t ∧ t.canN c 1 = v.toNat ∧ (t.canOf c).mode = (s.canOf c).mode ∧
      (t.canOf c).next = some v.toNat ∧ ObjectsKept s t [(canIdx c, 1)] ∧ t.mem = s.mem := by
  have hv : v.toNat < 2 ^ 64 := Nat.lt_trans v.isLt (by decide)
  have he : s.canMode c v.toNat = (s.wr (canIdx c) 1 v.toNat).setCan c { s.canOf c with next := some v.toNat } := by
    unfold State.canMode
    simp [hc]
  refine ⟨s.canMode c v.toNat, congrArg _ (s.guard_ok hw), ?_, ?_, ?_, ?_, State.canMode_mem ..⟩
  · rw [he, State.canN, State.n_setCan, State.n_wr_self, Nat.mod_eq_of_lt hv]
  · rw [he]; simp
  · rw [he]; simp
  · rw [he]; exact objectsKept_wr s _ _ _

theorem canIntegrated_clears :
    ∃ t, exec (.canIntegrated c) s = .next t ∧ t.bit (canIdx c) 0xA 3 = false ∧
      (∀ k < 64, k ≠ 3 → t.bit (canIdx c) 0xA k = s.bit (canIdx c) 0xA k) ∧ ObjectsKept s t [(canIdx c, 0xA)] ∧ t.mem = s.mem := by
  refine ⟨s.canStatus c 3 1 0, rfl, ?_, fun k _ hk => ?_, objectsKept_canStatus s c _ _ _, State.canStatus_mem ..⟩
  · rw [State.bit, State.n_canStatus_self _ _ _ (by decide), bitOf_putField_one]; rfl
  · rw [State.bit, State.n_canStatus_self _ _ _ (by decide), bitOf_putField_ne _ _ (by omega)]; rfl

/-- The controller when a valid frame is offered to it: ALONE over, an attempt of its own lost, and in mode 1 REC lower. -/
def State.canReceiving (s : State) (c : Nat) : State :=
  let t := (s.tick.canHeard c).canLost c
  if (t.canOf c).mode = 1 then (t.recDown c).2.canCounters c (t.canN c 0xB) (t.recDown c).1 else t

theorem exec_canFrameReceived {f : BusFrame} {ago : Nat} {phase : Fin 8} (h : s.canLive c = true) :
    exec (.canFrameReceived c f ago phase) s =
      .next ((s.canReceiving c).canOffer c { heldFrame f with time := (s.canStamp c ago phase).1 }) := by
  have ht : (s.canStamp c ago phase).2 = s.tick := rfl
  show execCanFrameReceived c f ago phase s = _
  unfold execCanFrameReceived State.canReceiving heldFrame
  rw [if_pos h]
  dsimp only
  rw [ht]

theorem State.canHeard_alone : ((s.canHeard c).canOf c).acks = 0 ∧ bitOf ((s.canHeard c).n (canIdx c) 0xA) 2 = false := by
  unfold State.canHeard
  constructor
  · simp
  · rw [State.n_canStatus_self _ _ _ (by decide), bitOf_putField_one]; rfl

theorem State.canLost_keeps :
    ((s.canLost c).canOf c).acks = (s.canOf c).acks ∧
    bitOf ((s.canLost c).n (canIdx c) 0xA) 2 = bitOf (s.n (canIdx c) 0xA) 2 := by
  have hr := canIdx_range c
  unfold State.canLost
  split
  next b _ =>
    obtain ⟨m, hm⟩ := s.canOf_canRetry c b
    constructor
    · rw [State.canOf_canIdle, hm]
    · rw [State.bit_canIdle _ _ (by decide),
        State.n_canRetry_ne _ _ _ (by unfold odKey; omega) (by unfold odKey; omega) (by unfold odKey; omega)]
  · exact ⟨rfl, rfl⟩

theorem State.canReceiving_alone :
    ((s.canReceiving c).canOf c).acks = 0 ∧ bitOf ((s.canReceiving c).n (canIdx c) 0xA) 2 = false := by
  obtain ⟨h1, h2⟩ := s.tick.canHeard_alone c
  obtain ⟨h3, h4⟩ := (s.tick.canHeard c).canLost_keeps c
  unfold State.canReceiving
  dsimp only
  split
  · simp [h1, h2, h3, h4]
  · exact ⟨h3.trans h1, h4.trans h2⟩

theorem State.canOffer_keeps (f : CanFrame) :
    ((s.canOffer c f).canOf c).acks = (s.canOf c).acks ∧ ∀ j < 0x10, (s.canOffer c f).n (canIdx c) j = s.n (canIdx c) j := by
  have hr := canIdx_range c
  obtain ⟨ha, hn⟩ := s.canStore_keeps c
  have hu : ∀ u : State, u = (s.canStore c).canCnt c 1 ∨ u = ((s.canStore c).canCnt c 1).tick →
      (u.canOf c).acks = (s.canOf c).acks ∧ ∀ j < 0x10, u.n (canIdx c) j = s.n (canIdx c) j := by
    rintro u (rfl | rfl) <;> refine ⟨by simp [ha], fun j hj => ?_⟩ <;>
      simp (disch := first | omega | (unfold odKey; omega)) [hn j hj]
  have ⟨h1, h2⟩ := hu _ (State.canAccept_state _ c f)
  rcases s.canOffer_cases c f with ⟨g, h⟩ | h <;> rw [h]
  · exact ⟨by simpa using h1, fun j hj => by simpa using h2 j hj⟩
  · refine ⟨by simpa using h1, fun j hj => ?_⟩
    rw [State.n_canCnt_ne _ _ _ (by unfold odKey; omega) (by unfold odKey; omega) (by unfold odKey; omega), h2 j hj]

/-- Any valid frame ends ALONE (R424). -/
theorem canFrameReceived_endsAlone (f : BusFrame) (ago : Nat) (phase : Fin 8) (h : s.canLive c = true) :
    ∃ t, exec (.canFrameReceived c f ago phase) s = .next t ∧ (t.canOf c).acks = 0 ∧ t.bit (canIdx c) 0xA 2 = false := by
  obtain ⟨h1, h2⟩ := s.canReceiving_alone c
  obtain ⟨h3, h4⟩ := (s.canReceiving c).canOffer_keeps c { heldFrame f with time := (s.canStamp c ago phase).1 }
  exact ⟨_, exec_canFrameReceived s c h, h3.trans h1, by rw [State.bit, h4 _ (by decide), h2]⟩

/-- With nothing on the bus and nothing to store, reception leaves the acceptance objects and the counters of frames. -/
theorem State.canReceiving_idle (hc : (s.canOf c).cur = none) (hg : (s.canOf c).got = none) :
    ((s.canReceiving c).canOf c).got = none ∧ (s.canReceiving c).mem = s.mem ∧
    ∀ i j, CanObject (odKey i j) → (odKey i j < canIdx c * 256 + 0xA ∨ canIdx c * 256 + 0x10 < odKey i j) →
      odKey i j ≠ odKey (canIdx c + 1) 7 →
      (s.canReceiving c).n i j = s.n i j := by
  have hl : (s.tick.canHeard c).canLost c = s.tick.canHeard c :=
    State.canLost_of_idle _ _ (by unfold State.canHeard; simpa using hc)
  have h1 : ((s.tick.canHeard c).canOf c).got = none := by unfold State.canHeard; simpa using hg
  have h2 : ∀ i j, (odKey i j < canIdx c * 256 + 0xA ∨ canIdx c * 256 + 0x10 < odKey i j) →
      (s.tick.canHeard c).n i j = s.n i j := fun i j hk => by
    unfold State.canHeard
    rw [State.n_canStatus_ne _ _ _ _ _ (by unfold odKey at *; omega)]
    rfl
  unfold State.canReceiving
  dsimp only
  rw [hl]
  split
  · refine ⟨by simpa using h1, by simp, fun i j h hk hn => ?_⟩
    rw [State.n_canCounters_ne _ _ _ _ h (by unfold odKey at *; omega) (by unfold odKey at *; omega) (by unfold odKey at *; omega)
      (by unfold odKey at *; omega) hn, State.n_recDown, h2 i j hk]
  · exact ⟨h1, by simp, fun i j _ hk _ => h2 i j hk⟩

end

section
variable (s : State) (c : Fin 4)

theorem State.bufAccepts_iff {s t : State} {c : Fin 4} {b : Nat} (f : CanFrame) (x : Nat)
    (h : ∀ k, k = 2 ∨ k = 3 ∨ k = 4 → t.n (canIdx c + k) (b + 1) = s.n (canIdx c + k) (b + 1)) :
    t.bufAccepts c b { f with time := x } ↔ s.bufAccepts c b f := by
  unfold State.bufAccepts State.bufMode
  rw [h 2 (by decide), h 3 (by decide), h 4 (by decide)]
  exact Iff.rfl

theorem State.canOffer_accepted {b : Nat} {f : CanFrame} (hg : (s.canOf c).got = none) (hb : b < 64)
    (h : (s.canCnt c 1).bufAccepts c b f) (hl : ∀ k < b, ¬ (s.canCnt c 1).bufAccepts c k f) :
    s.canOffer c f = (s.canCnt c 1).setCan c { s.canOf c with got := some (f, b, b) } := by
  unfold State.canOffer
  rw [s.canStore_none c hg]
  dsimp only
  rw [State.canAccept_buffer _ c hb h hl]
  dsimp only
  rw [State.canOf_canCnt]

theorem State.canOffer_rejected {f : CanFrame} (hg : (s.canOf c).got = none) (hb : ∀ b < 64, ¬ (s.canCnt c 1).bufAccepts c b f)
    (he : ∀ e < 32, fieldOf ((s.canCnt c 1).n (canIdx c + 7) (e + 1)) 30 2 = 0)
    (hd : fieldOf ((s.canCnt c 1).n (canIdx c) 9) 16 2 = 0) : s.canOffer c f = (s.canCnt c 1).canCnt c 6 := by
  unfold State.canOffer
  rw [s.canStore_none c hg]
  dsimp only
  rw [State.canAccept_reject _ c hb he hd]

/-- With nothing on the bus and nothing to store, the acceptance objects and the counters of frames read in reception what they read
before. -/
theorem State.receiving_objects (hc : (s.canOf c).cur = none) (hg : (s.canOf c).got = none) :
    (∀ k b, 2 ≤ k → k ≤ 8 → b < 64 → ((s.canReceiving c).canCnt c 1).n (canIdx c + k) (b + 1) = s.n (canIdx c + k) (b + 1)) ∧
    (∀ j, j = 1 ∨ j = 6 → (s.canReceiving c).n (canIdx c + 1) j = s.n (canIdx c + 1) j) := by
  have hr := canIdx_range c
  obtain ⟨_, _, hn⟩ := s.canReceiving_idle c hc hg
  constructor
  · intro k b h2 h8 hb
    rw [State.n_canCnt_ne _ _ _ (by unfold odKey; omega) (by unfold odKey; omega) (by unfold odKey; omega),
      hn _ _ (by unfold odKey; omega) (by unfold odKey; omega) (by unfold odKey; omega)]
  · intro j hj
    exact hn _ _ (by unfold odKey; omega) (by unfold odKey; omega) (by unfold odKey; omega)

/-- The lowest receive buffer that matches takes the frame (R415). -/
theorem canFrameReceived_accepted {f : BusFrame} (ago : Nat) (phase : Fin 8) {b : Nat} (h : s.canLive c = true)
    (hc : (s.canOf c).cur = none) (hg : (s.canOf c).got = none) (hb : b < 64) (ha : s.bufAccepts c b (heldFrame f))
    (hl : ∀ k < b, ¬ s.bufAccepts c k (heldFrame f)) :
    ∃ t x, exec (.canFrameReceived c f ago phase) s = .next t ∧ (t.canOf c).got = some ({ heldFrame f with time := x }, b, b) ∧
      t.n (canIdx c + 1) 1 = (s.n (canIdx c + 1) 1 + 1) % 2 ^ 32 ∧ t.mem = s.mem := by
  have hr := canIdx_range c
  obtain ⟨hg', hm, hn⟩ := s.canReceiving_idle c hc hg
  obtain ⟨hk, hcnt⟩ := s.receiving_objects c hc hg
  have hi (k : Nat) (hk64 : k < 64) := State.bufAccepts_iff (s := s) (c := c) (b := k) (heldFrame f) (s.canStamp c ago phase).1
    (fun i h => hk i k (by omega) (by omega) hk64)
  have ho := State.canOffer_accepted (s.canReceiving c) c hg' hb ((hi b hb).mpr ha) (fun k hkb hx => hl k hkb ((hi k (by omega)).mp hx))
  refine ⟨_, (s.canStamp c ago phase).1, exec_canFrameReceived s c h, ?_, ?_, ?_⟩
  · rw [ho, State.canOf_setCan]
  · rw [ho, State.n_setCan, State.n_canCnt_self _ _ (by unfold odKey; omega), hcnt 1 (by decide)]
  · rw [ho, State.setCan_mem, State.canCnt_mem, hm]

/-- A frame that nothing accepts is counted as rejected (R415). -/
theorem canFrameReceived_rejected {f : BusFrame} (ago : Nat) (phase : Fin 8) (h : s.canLive c = true)
    (hc : (s.canOf c).cur = none) (hg : (s.canOf c).got = none) (hb : ∀ b < 64, ¬ s.bufAccepts c b (heldFrame f))
    (he : ∀ e < 32, fieldOf (s.n (canIdx c + 7) (e + 1)) 30 2 = 0) (hd : fieldOf (s.canN c 9) 16 2 = 0) :
    ∃ t, exec (.canFrameReceived c f ago phase) s = .next t ∧ (t.canOf c).got = none ∧
      t.n (canIdx c + 1) 1 = (s.n (canIdx c + 1) 1 + 1) % 2 ^ 32 ∧ t.n (canIdx c + 1) 6 = (s.n (canIdx c + 1) 6 + 1) % 2 ^ 32 ∧
      t.mem = s.mem := by
  have hr := canIdx_range c
  obtain ⟨hg', hm, hn⟩ := s.canReceiving_idle c hc hg
  obtain ⟨hk, hcnt⟩ := s.receiving_objects c hc hg
  have hi (k : Nat) (hk64 : k < 64) := State.bufAccepts_iff (s := s) (c := c) (b := k) (heldFrame f) (s.canStamp c ago phase).1
    (fun i h => hk i k (by omega) (by omega) hk64)
  have hdef : ((s.canReceiving c).canCnt c 1).n (canIdx c) 9 = s.n (canIdx c) 9 := by
    rw [State.n_canCnt_ne _ _ _ (by unfold odKey; omega) (by unfold odKey; omega) (by unfold odKey; omega),
      hn _ _ (by unfold odKey; omega) (by unfold odKey; omega) (by unfold odKey; omega)]
  have ho := State.canOffer_rejected (s.canReceiving c) c hg' (fun b hb64 hx => hb b hb64 ((hi b hb64).mp hx))
    (fun e he32 => by rw [hk 7 e (by decide) (by decide) (by omega), he e he32]) (by rw [hdef]; exact hd)
  refine ⟨_, exec_canFrameReceived s c h, ?_, ?_, ?_, ?_⟩
  · rw [ho, State.canOf_canCnt, State.canOf_canCnt, hg']
  · rw [ho, State.n_canCnt_ne _ _ _ (by unfold odKey; omega) (by unfold odKey; omega) (by unfold odKey; omega),
      State.n_canCnt_self _ _ (by unfold odKey; omega), hcnt 1 (by decide)]
  · rw [ho, State.n_canCnt_self _ _ (by unfold odKey; omega),
      State.n_canCnt_ne _ _ _ (by unfold odKey; omega) (by unfold odKey; omega) (by unfold odKey; omega), hcnt 6 (by decide)]
  · rw [ho, State.canCnt_mem, State.canCnt_mem, hm]

end

/-! ### Storage: what CAN_FRAME_STORED does (R414, R416, R417) -/

section
variable {i j : Nat} (s : State) (c : Fin 4)

/-- The frame enters its slot, and the buffer's STATE shows it (R414, R417). -/
def State.canFill (s : State) (c b : Nat) (f : CanFrame) (how : Nat) : State :=
  ((s.canPut c b (s.slotAt c b) f how).setBufState c b 1).canEvent c 0

theorem State.canOf_canFill (b : Nat) (f : CanFrame) (how : Nat) :
    ∃ seqs, (s.canFill c b f how).canOf c = { s.canOf c with seqs := seqs } := by
  obtain ⟨seqs, h⟩ := s.canOf_canPut c b (s.slotAt c b) f how
  exact ⟨seqs, by rw [State.canFill, State.canOf_canEvent, State.canOf_setBufState, h]⟩

theorem State.bufSt_canFill {b : Nat} (f : CanFrame) (how : Nat) (hb : b < 64) :
    (s.canFill c b f how).n (canIdx c + 5) (b + 1) = putField (s.n (canIdx c + 5) (b + 1)) 0 4 1 := by
  have hr := canIdx_range c
  unfold State.canFill
  simp (disch := first | omega | (unfold odKey; omega))

theorem State.event_canFill (b : Nat) (f : CanFrame) (how : Nat) : bitOf ((s.canFill c b f how).n (canIdx c) 0x10) 0 = true :=
  State.event_canEvent_self _ c (by decide)

theorem State.n_canFill_ne (b : Nat) (f : CanFrame) (how : Nat) (h : CanObject (odKey i j))
    (hb : odKey i j ≠ odKey (canIdx c + 5) (b + 1)) (he : odKey i j ≠ odKey (canIdx c) 0x10) :
    (s.canFill c b f how).n i j = s.n i j := by
  unfold State.canFill
  rw [State.n_canEvent_ne _ _ _ h he, State.n_setBufState_ne _ _ _ _ hb, State.n_canPut _ _ _ _ _ _ h]

theorem State.canFill_slot {b : Nat} (f : CanFrame) (how : Nat) (h : s.CleanFacet (s.slotAt c b) 80) :
    let a := s.slotAt c b
    let t := s.canFill c b f how
    t.w32 a = f.w0 % 2 ^ 32 ∧ t.w32 (a + 4) = f.w1 how % 2 ^ 32 ∧ t.w32 (a + 8) = f.time % 2 ^ 32 ∧
      t.bytes (a + 0x10) 64 = f.slotData ∧ ∀ x, x < a ∨ a + 80 ≤ x → t.byte x = s.byte x := by
  have hm : (s.canFill c b f how).mem = (s.canPut c b (s.slotAt c b) f how).mem := by
    unfold State.canFill; rw [State.canEvent_mem, State.setBufState_mem]
  have hs (x n : Nat) : (s.canFill c b f how).bytes x n = (s.canPut c b (s.slotAt c b) f how).bytes x n :=
    State.bytes_congr _ (fun y _ _ => State.byte_congr _ hm y)
  have h := State.canPut_slot c b f how h
  unfold State.w32 State.le at *
  simpa only [hs, State.byte_congr _ hm] using h

/-- A frame that a new one overwrites is lost first (R417). -/
def State.loseOld (s : State) (c b : Nat) : State := if s.bufState c b = 1 then s.canLose c b else s

theorem State.loseOld_keeps {b : Nat} (hb : b < 64) :
    (s.loseOld c b).canOf c = s.canOf c ∧ (s.loseOld c b).n (canIdx c) 8 = s.n (canIdx c) 8 ∧
    (∀ x, (s.loseOld c b).byte x = s.byte x) ∧ (s.loseOld c b).memc = s.memc := by
  unfold State.loseOld
  split
  · refine ⟨s.canOf_canLose c b, s.n_canLose_ne c b ?_ ?_ ?_ ?_, State.byte_congr _ (State.canLose_mem ..), ?_⟩
    · have := canIdx_range c; unfold odKey; omega
    · unfold odKey; omega
    · unfold odKey; omega
    · unfold odKey; omega
    · simp [State.canLose, State.canEvent, State.canCnt]
  · exact ⟨rfl, rfl, fun _ => rfl, rfl⟩

/-- A frame for an unlocked receive buffer is stored into its slot (R414, R417). -/
theorem canFrameStored_open {f : CanFrame} {b how : Nat} (hg : (s.canOf c).got = some (f, b, how)) (hb : b < 64)
    (hl : bitOf (s.bufSt c b) 4 = false) (hf : ∀ k < 80, inFacetStore (s.canN c 8 + 80 * b + k) = true) (hd : s.memc.dbe = []) :
    let a := s.canN c 8 + 80 * b
    ∃ t, exec (.canFrameStored c) s = .next t ∧ (t.canOf c).got = none ∧ t.bufState c b = 1 ∧ t.bit (canIdx c) 0x10 0 = true ∧
      t.w32 a = f.w0 % 2 ^ 32 ∧ t.w32 (a + 4) = f.w1 how % 2 ^ 32 ∧ t.w32 (a + 8) = f.time % 2 ^ 32 ∧
      (f.rtr = false → t.bytes (a + 0x10) 64 = (f.data.take (dlcLen f.fdf f.dlc) ++ zeros 64).take 64) ∧
      (∀ k, k < a ∨ a + 80 ≤ k → t.byte k = s.byte k) ∧
      (s.bufState c b = 1 → bitOf (t.bufSt c b) 6 = true ∧ t.n (canIdx c + 1) 4 = (s.n (canIdx c + 1) 4 + 1) % 2 ^ 32) := by
  have hr := canIdx_range c
  generalize hs : s.setCan c { s.canOf c with got := none } = u
  have hst : s.canStore c = (u.loseOld c b).canFill c b f how := by
    rw [s.canStore_buffer c hg hb, hs]
    exact State.bufStore_open u c f how (by rw [← hs]; exact hl)
  obtain ⟨hcan, h8, hby, hmemc⟩ := u.loseOld_keeps c hb
  have hat : (u.loseOld c b).slotAt c b = s.canN c 8 + 80 * b := by
    rw [State.slotAt, State.canN, h8, ← hs]; rfl
  have hbyte : ∀ x, (u.loseOld c b).byte x = s.byte x := fun x => by rw [hby, ← hs]; rfl
  obtain ⟨e0, e1, e2, ed, eo⟩ := (u.loseOld c b).canFill_slot c (b := b) f how
    (by rw [hat]; exact ⟨by rw [hmemc, ← hs]; exact hd, hf⟩)
  obtain ⟨seqs, hfill⟩ := (u.loseOld c b).canOf_canFill c b f how
  rw [hat] at e0 e1 e2 ed eo
  refine ⟨s.canStore c, rfl, ?_⟩
  rw [hst]
  refine ⟨?_, ?_, State.event_canFill .., e0, e1, e2, fun hr => ed.trans (if_neg (by simp [hr])),
    fun k hk => (eo k hk).trans (hbyte k), fun h1 => ?_⟩
  · rw [hfill, hcan, ← hs, State.canOf_setCan]
  · rw [State.bufState, State.bufSt, State.bufSt_canFill _ _ _ _ hb, fieldOf_putField_self _ _ (by decide)]
  · have hu : u.loseOld c b = u.canLose c b := if_pos (by rw [← hs]; exact h1)
    obtain ⟨m5, m4⟩ := u.canLose_marks c hb
    constructor
    · rw [State.bufSt, State.bufSt_canFill _ _ _ _ hb, bitOf_putField_ne _ _ (by decide), hu, m5, bitOf_putField_one]; rfl
    · rw [State.n_canFill_ne _ _ _ _ _ (by unfold odKey; omega) (by unfold odKey; omega) (by unfold odKey; omega), hu, m4, ← hs]
      rfl

theorem find?_tblIns_self {α : Type} (k : Nat) (v : α) (t : Tbl α) :
    (tblIns k v (tblDel k t)).find? (fun e => e.1 = k) = some (k, v) := by
  have h : ∀ u : Tbl α, (∀ p ∈ u, p.1 ≠ k) → (tblIns k v u).find? (fun e => e.1 = k) = some (k, v) := by
    intro u hu
    induction u with
    | nil => simp [tblIns]
    | cons p u ih =>
      obtain ⟨i, w⟩ := p
      have hi : i ≠ k := hu (i, w) (by simp)
      rw [tblIns]
      split
      · simp
      · rw [List.find?_cons_of_neg (by simpa using hi)]
        exact ih (fun q hq => hu q (List.mem_cons_of_mem _ hq))
  exact h _ (fun p hp => (tblDel_keys k t p hp).1)

/-- A frame for a locked receive buffer goes to its shadow (R417). -/
theorem canFrameStored_locked {f : CanFrame} {b how : Nat} (hg : (s.canOf c).got = some (f, b, how)) (hb : b < 64)
    (hl : bitOf (s.bufSt c b) 4 = true) :
    ∃ t, exec (.canFrameStored c) s = .next t ∧ (t.canOf c).got = none ∧
      (t.canOf c).shadow.find? (fun e => e.1 = b) = some (b, f, how) ∧ bitOf (t.bufSt c b) 5 = true ∧ t.bufState c b = s.bufState c b ∧ t.mem = s.mem := by
  refine ⟨s.canStore c, rfl, ?_⟩
  rw [s.canStore_buffer c hg hb]
  rw [State.bufStore_locked (s.setCan c { s.canOf c with got := none }) c f how hl]
  dsimp only
  split
  next h5 =>
    obtain ⟨hst, _⟩ := (s.setCan c { s.canOf c with got := none }).canLose_marks c hb
    refine ⟨by simp, by simpa using find?_tblIns_self b (f, how) _, ?_, ?_, by simp⟩
    · rw [State.bufSt, State.n_setCan, hst, bitOf_putField_ne _ _ (by decide)]; exact h5
    · rw [State.bufState, State.bufSt, State.n_setCan, hst, fieldOf_putField_ne _ _ (by decide)]; rfl
  next h5 =>
    refine ⟨by simp, by simpa using find?_tblIns_self b (f, how) _, ?_, ?_, by simp⟩
    · rw [State.bufSt, State.n_setCan, State.n_setBuf_self _ _ _ _ (by decide), bitOf_putField_one]; rfl
    · rw [State.bufState, State.bufSt, State.n_setCan, State.n_setBuf_self _ _ _ _ (by decide), fieldOf_putField_ne _ _ (by decide)]
      rfl

/-- A full FIFO discards the frame and counts it (R416). -/
theorem canFrameStored_fifoFull {f : CanFrame} {k how : Nat} (hg : (s.canOf c).got = some (f, 64 + k, how)) (hf : 32 ≤ s.fifoFill c k) :
    ∃ t, exec (.canFrameStored c) s = .next t ∧ (t.canOf c).got = none ∧ t.bit (canIdx c) 0x10 4 = true ∧
      t.n (canIdx c + 1) 5 = (s.n (canIdx c + 1) 5 + 1) % 2 ^ 32 ∧ t.mem = s.mem := by
  have hr := canIdx_range c
  refine ⟨s.canStore c, rfl, ?_⟩
  rw [s.canStore_fifo c hg]
  rw [State.fifoStore_full (s.setCan c { s.canOf c with got := none }) c f how hf]
  refine ⟨by simp, ?_, ?_, by simp⟩
  · exact State.event_canEvent_self _ c (by decide)
  · simp (disch := first | omega | (unfold odKey; omega))

/-- A FIFO with room takes the frame, and its PUT rises (R416). -/
theorem canFrameStored_fifoRoom {f : CanFrame} (k : Fin 2) {how : Nat} (hg : (s.canOf c).got = some (f, 64 + k.val, how))
    (hf : s.fifoFill c k < 32) :
    ∃ t, exec (.canFrameStored c) s = .next t ∧ (t.canOf c).got = none ∧
      t.n (canIdx c + 9) (2 + 2 * k.val) = (s.n (canIdx c + 9) (2 + 2 * k.val) + 1) % 256 := by
  have hr := canIdx_range c
  obtain ⟨a, m, h⟩ := (s.setCan c { s.canOf c with got := none }).fifoStore_room c f how hf
  obtain ⟨seqs, hput⟩ := (s.setCan c { s.canOf c with got := none }).canOf_canPut c m a f how
  rw [State.n_setCan] at h
  have hlt : (s.n (canIdx c + 9) (2 + 2 * k.val) + 1) % 256 < 2 ^ 64 := by omega
  refine ⟨s.canStore c, rfl, ?_⟩
  rw [s.canStore_fifo c hg]
  rcases h with h | h <;> rw [h]
  · exact ⟨by simp [hput], by rw [State.n_wr_self, Nat.mod_eq_of_lt hlt]⟩
  · refine ⟨by simp [hput], ?_⟩
    rw [State.n_canEvent_ne _ _ _ (by unfold odKey; omega) (by unfold odKey; omega), State.n_wr_self, Nat.mod_eq_of_lt hlt]

end

end Sys2Proof.Machine
end

section
/-! SUPPORT. What the commands of transmission do: one lemma per command and case (R419–R421, R423, R424). -/

namespace Sys2Proof.Machine

/-! ### Transmission: requests and attempts (R419, R420) -/

section
variable (s : State) (c : Fin 4)

/-- An accepted write of a bitmap with one bit acts on that buffer. -/
theorem State.guard_canEach {p : Path} {i j v b : Nat} {f : State → Nat → State} (hw : s.writeOk p i j v = true) (hb : b < 64)
    (hv : v = 2 ^ b) : s.guard p i j v (fun s => s.canEach v f) = f s b := by
  rw [State.guard_ok _ hw, hv, State.canEach_two_pow _ _ hb]

/-- A requested buffer is copied into the transmit store and pends. -/
theorem canTxRequest_pending {p : Path} {v : DWord} {b : Nat} {f : CanFrame} (hw : s.writeOk p (canIdx c + 6) 2 v.toNat = true)
    (hb : b < 64) (hv : v.toNat = 2 ^ b) (h2 : s.bufState c b ≠ 2) (h3 : s.bufState c b ≠ 3) (ht : s.canTake c b = (f, s))
    (hfd : f.fdf = true → s.bit (canIdx c) 2 0 = true) (hbr : f.brs = true → f.fdf = true) :
    ∃ t, exec (.canTxRequest p c v) s = .next t ∧ t.bufState c b = 2 ∧ (t.canOf c).store.find? (fun e => e.1 = b) = some (b, f) ∧
      ObjectsKept s t [(canIdx c + 5, b + 1)] ∧ t.mem = s.mem := by
  have hbit : (s.setBuf c b 8 2 0).bit (canIdx c) 2 0 = s.bit (canIdx c) 2 0 := by
    rw [State.bit, State.n_setBuf_ne _ _ _ _ _ _ (by unfold odKey; omega)]; rfl
  have he : s.canRequest c b = ((s.setBuf c b 8 2 0).setCan c
      { s.canOf c with store := tblIns b f (tblDel b (s.canOf c).store) }).setBufState c b 2 := by
    unfold State.canRequest
    rw [if_neg (by simp [h2, h3]), ht]
    dsimp only
    rw [hbit, if_neg ?_]
    · rfl
    · simp only [Bool.or_eq_true, Bool.and_eq_true, Bool.not_eq_true']
      rintro (⟨h, h'⟩ | ⟨h, h'⟩)
      · simp [hfd h] at h'
      · simp [hbr h] at h'
  refine ⟨s.canRequest c b, congrArg _ (s.guard_canEach hw hb hv), ?_⟩
  rw [he]
  refine ⟨?_, by simpa using find?_tblIns_self b f _, ?_, by simp⟩
  · rw [State.bufState, State.bufSt, State.n_setBufState_self, fieldOf_putField_self _ _ (by decide)]
  · exact (objectsKept_setBuf s c b 8 2 0).trans (objectsKept_setBuf _ c b 0 4 2)

/-- A format that the controller may not send is refused. -/
theorem canTxRequest_refused {p : Path} {v : DWord} {b : Nat} {f : CanFrame} (hw : s.writeOk p (canIdx c + 6) 2 v.toNat = true)
    (hb : b < 64) (hv : v.toNat = 2 ^ b) (h2 : s.bufState c b ≠ 2) (h3 : s.bufState c b ≠ 3) (ht : s.canTake c b = (f, s))
    (hf : (f.fdf = true ∧ s.bit (canIdx c) 2 0 = false) ∨ (f.brs = true ∧ f.fdf = false)) :
    ∃ t, exec (.canTxRequest p c v) s = .next t ∧ t.bufState c b = 8 ∧ t.canOf c = s.canOf c ∧
      ObjectsKept s t [(canIdx c + 5, b + 1)] ∧ t.mem = s.mem := by
  have hbit : (s.setBuf c b 8 2 0).bit (canIdx c) 2 0 = s.bit (canIdx c) 2 0 := by
    rw [State.bit, State.n_setBuf_ne _ _ _ _ _ _ (by unfold odKey; omega)]; rfl
  have he : s.canRequest c b = (s.setBuf c b 8 2 0).setBufState c b 8 := by
    unfold State.canRequest
    rw [if_neg (by simp [h2, h3]), ht]
    dsimp only
    rw [hbit]
    exact if_pos (by rcases hf with ⟨h, h'⟩ | ⟨h, h'⟩ <;> simp [h, h'])
  refine ⟨s.canRequest c b, congrArg _ (s.guard_canEach hw hb hv), ?_⟩
  rw [he]
  refine ⟨?_, by simp, ?_, by simp⟩
  · rw [State.bufState, State.bufSt, State.n_setBufState_self, fieldOf_putField_self _ _ (by decide)]
  · exact (objectsKept_setBuf s c b 8 2 0).trans (objectsKept_setBuf _ c b 0 4 8)

theorem State.canOf_advance (k : Nat) : (s.advance k).canOf c = s.canOf c := by
  have hd : ∀ (t : State) (d : Nat), (t.domAdvance d k).can = t.can := fun t d => by
    unfold State.domAdvance; simp
  refine State.canOf_congr ?_ c
  unfold State.advance
  split
  · rfl
  · dsimp only
    split
    · exact foldl_can _ hd _ _
    · rfl

/-- A choice that keeps the best so far or takes the present number is one of the numbers. -/
theorem foldl_range_choice {α : Type} {g : Option (Nat × α) → Nat → Option (Nat × α)} {m k : Nat} {x : α}
    (hg : ∀ best k, g best k = best ∨ ∃ x, g best k = some (k, x)) (h : (List.range m).foldl g none = some (k, x)) : k < m := by
  induction m generalizing k x with
  | zero => cases h
  | succ m ih =>
    rw [List.range_succ, List.foldl_append, List.foldl_cons, List.foldl_nil] at h
    rcases hg ((List.range m).foldl g none) m with e | ⟨y, e⟩ <;> rw [e] at h
    · exact Nat.lt_succ_of_lt (ih h)
    · cases h; exact Nat.lt_succ_self m

theorem State.canBest_lt {b : Nat} {f : CanFrame} (h : s.canBest c = some (b, f)) : b < 64 := by
  refine foldl_range_choice (fun best k => ?_) h
  split
  · exact .inl rfl
  · split
    · split
      · exact .inr ⟨_, rfl⟩
      · exact .inl rfl
    · exact .inr ⟨_, rfl⟩
    · exact .inl rfl

/-- An attempt that no injection meets: the buffer is on the bus, and its frame goes out. -/
theorem State.canAttempt_sends {b : Nat} {f : CanFrame} (phase : Nat) (hb : s.canBest c = some (b, f)) (hi : s.canInject c = none)
    (hm : (s.canOf c).mode ≠ 3) :
    ∃ x : Can, x.cur = some b ∧ s.canAttempt c phase =
      (((s.tick.setBufState c b 3).canStatus c 5 1 1).setCan c x).emit (.can c b f.w0 f.data) := by
  have hb64 := s.canBest_lt c hb
  have hr := canIdx_range c
  have hn (i : Nat) (h : 0x2E80 ≤ i) : ((s.tick.setBufState c b 3).canStatus c 5 1 1).n i 1 = s.n i 1 :=
    (State.n_canStatus_ne _ _ _ _ _ (by unfold odKey; omega)).trans (State.n_setBufState_ne _ _ _ _ (by unfold odKey; omega))
  have hinj (x : Can) (o : Out) : ((((s.tick.setBufState c b 3).canStatus c 5 1 1).setCan c x).emit o).canInject c = none := by
    rw [← hi]
    unfold State.canInject
    simp only [State.bit, State.n_emit, State.n_setCan, hn 0x2E80 (by decide), hn 0x2E87 (by decide)]
    rfl
  have ht : (s.canStamp c 0 phase).2 = s.tick := rfl
  unfold State.canAttempt
  rw [hb]
  dsimp only
  simp only [ht, State.canOf_setCan, State.canOf_canStatus, State.canOf_setBufState, State.canOf_tick, if_neg hm, hinj]
  exact ⟨_, rfl, rfl⟩

/-- At SOF the winner of arbitration within the controller is on the bus (R420). -/
theorem canTxAttempt_sends (phase : Fin 8) (dt : Nat) {b : Nat} {f : CanFrame} (hc : (s.canOf c).cur = none)
    (hm : (s.canOf c).mode = 1) (hl : (s.advance dt).canLive c = true) (hb : (s.advance dt).canBest c = some (b, f))
    (hi : (s.advance dt).canInject c = none) :
    ∃ t, exec (.canTxAttempt c phase dt) s = .next t ∧ t.bufState c b = 3 ∧ (t.canOf c).cur = some b ∧
      t.bit (canIdx c) 0xA 5 = true ∧ t.out = (s.advance dt).out ++ [.can c b f.w0 f.data] ∧ t.mem = s.mem := by
  have hcan := s.canOf_advance c dt
  obtain ⟨x, hx, he⟩ := (s.advance dt).canAttempt_sends c phase hb hi (by rw [hcan, hm]; decide)
  refine ⟨(s.advance dt).canAttempt c phase, ?_, ?_⟩
  · show execCanTxAttempt c phase dt s = _
    unfold execCanTxAttempt
    dsimp only
    rw [hcan, hc, hm, hl]
    rfl
  · rw [he]
    refine ⟨?_, ?_, ?_, ?_, by simp⟩
    · rw [State.bufState, State.bufSt, State.n_emit, State.n_setCan, State.n_canStatus_ne _ _ _ _ _ (by unfold odKey; omega),
        State.n_setBufState_self, fieldOf_putField_self _ _ (by decide)]
    · rw [State.canOf_emit, State.canOf_setCan, hx]
    · rw [State.bit, State.n_emit, State.n_setCan, State.n_canStatus_self _ _ _ (by decide), bitOf_putField_one]; rfl
    · simp [State.emit, State.canStatus]

end

/-! ### Transmission: success and error (R420, R421, R424) -/

section
variable {i j : Nat} (s : State) (c : Fin 4)

theorem State.canOf_canDelay (f : CanFrame) (d : Nat) : (s.canDelay c f d).canOf c = s.canOf c := by
  unfold State.canDelay; split <;> rfl

theorem State.n_canDelay_ne (f : CanFrame) (d : Nat) (h : odKey i j ≠ odKey (canIdx c) 0xA) : (s.canDelay c f d).n i j = s.n i j := by
  unfold State.canDelay
  split
  · exact s.n_canStatus_ne _ _ _ _ h
  · rfl

/-- The buffer of a frame that was sent: COMPLETED, and ended by an abort that came meanwhile (R421). -/
def State.canCompleted (s : State) (c b : Nat) : State :=
  let x := s.canOf c
  let ended := bitOf x.aborts b
  let t := (s.setCan c { x with store := tblDel b x.store, aborts := if ended then x.aborts - 2 ^ b else x.aborts }).setBufState c b 4
  if ended then (t.setBuf c b 8 2 2).canEvent c 11 else t

/-- A success is counted and shown, ends ALONE and lowers TEC (R420, R423, R424). -/
def State.canCredited (s : State) (c b : Nat) (f : CanFrame) : State :=
  let t := ((s.unitWrite (s.slotAt c b + 8) (leBytes f.time 4)).canCnt c 2).canEvent c 1
  (t.canHeard c).canCounters c (t.canN c 0xB - 1) (t.canN c 0xC)

theorem State.canSent_eq (b : Nat) (f : CanFrame) :
    s.canSent c b f =
      let t := (s.canCompleted c b).canCredited c b f
      (if (s.canOf c).mode = 3 then t.canOffer c f else t).canIdle c := rfl

theorem State.canOf_canCompleted (b : Nat) :
    ∃ st m, (s.canCompleted c b).canOf c = { s.canOf c with store := st, aborts := m } := by
  unfold State.canCompleted
  dsimp only
  split
  · exact ⟨_, _, by rw [State.canOf_canEvent, State.canOf_setBuf, State.canOf_setBufState, State.canOf_setCan]⟩
  · exact ⟨_, _, by rw [State.canOf_setBufState, State.canOf_setCan]⟩

theorem State.n_canCompleted_ne (b : Nat) (h : CanObject (odKey i j)) (hb : odKey i j ≠ odKey (canIdx c + 5) (b + 1))
    (he : odKey i j ≠ odKey (canIdx c) 0x10) : (s.canCompleted c b).n i j = s.n i j := by
  unfold State.canCompleted
  dsimp only
  split
  · rw [State.n_canEvent_ne _ _ _ h he, State.n_setBuf_ne _ _ _ _ _ _ hb, State.n_setBufState_ne _ _ _ _ hb, State.n_setCan]
  · rw [State.n_setBufState_ne _ _ _ _ hb, State.n_setCan]

theorem State.canCompleted_state {b : Nat} (hb : b < 64) : (s.canCompleted c b).bufState c b = 4 := by
  have hr := canIdx_range c
  unfold State.canCompleted State.bufState State.bufSt
  dsimp only
  split <;>
    simp (disch := first | omega | (unfold odKey; omega)) [fieldOf_putField_ne, fieldOf_putField_self]

theorem State.canCompleted_aborted {b : Nat} (hb : b < 64) (ha : bitOf (s.canOf c).aborts b = true) :
    fieldOf ((s.canCompleted c b).bufSt c b) 8 2 = 2 ∧ bitOf ((s.canCompleted c b).n (canIdx c) 0x10) 11 = true := by
  have hr := canIdx_range c
  unfold State.canCompleted
  dsimp only
  rw [if_pos ha]
  refine ⟨?_, State.event_canEvent_self _ c (by decide)⟩
  rw [State.bufSt, State.n_canEvent_ne _ _ _ (by unfold odKey; omega) (by unfold odKey; omega), State.n_setBuf_self _ _ _ _ (by decide),
    fieldOf_putField_self _ _ (by decide)]

theorem State.canOf_canCredited (b : Nat) (f : CanFrame) :
    ∃ r, (s.canCredited c b f).canOf c = { s.canOf c with acks := 0, recovering := r } := by
  unfold State.canCredited State.canHeard
  exact ⟨_, by rw [State.canOf_canCounters, State.canOf_canStatus, State.canOf_setCan, State.canOf_canEvent, State.canOf_canCnt,
    State.canOf_unitWrite]⟩

theorem State.bufSt_canCredited {b : Nat} (f : CanFrame) (hb : b < 64) : (s.canCredited c b f).bufSt c b = s.bufSt c b := by
  have hr := canIdx_range c
  unfold State.canCredited State.canHeard State.bufSt
  simp (disch := first | omega | (unfold odKey; omega))

theorem State.canCredited_counts (b : Nat) (f : CanFrame) :
    (s.canCredited c b f).n (canIdx c + 1) 2 = (s.n (canIdx c + 1) 2 + 1) % 2 ^ 32 := by
  have hr := canIdx_range c
  unfold State.canCredited State.canHeard
  simp (disch := first | omega | (unfold odKey; omega))

theorem State.canCredited_event (b : Nat) (f : CanFrame) : bitOf ((s.canCredited c b f).n (canIdx c) 0x10) 1 = true := by
  refine State.event_canCounters ?_
  unfold State.canHeard
  rw [State.n_canStatus_ne _ _ _ _ _ (by unfold odKey; omega), State.n_setCan]
  exact State.event_canEvent_self _ c (by decide)

theorem State.event_canCredited {b e : Nat} {f : CanFrame} (he : bitOf (s.n (canIdx c) 0x10) e = true) :
    bitOf ((s.canCredited c b f).n (canIdx c) 0x10) e = true := by
  have hr := canIdx_range c
  refine State.event_canCounters ?_
  unfold State.canHeard
  rw [State.n_canStatus_ne _ _ _ _ _ (by unfold odKey; omega), State.n_setCan]
  refine State.event_canEvent (by decide) (State.event_canCnt (by unfold odKey; omega) ?_)
  rw [State.n_unitWrite _ _ _ (by unfold odKey; omega), he]

theorem State.canCredited_status (b : Nat) (f : CanFrame) :
    bitOf ((s.canCredited c b f).n (canIdx c) 0xA) 2 = false ∧
    fieldOf ((s.canCredited c b f).n (canIdx c) 0xA) 16 7 = fieldOf (s.n (canIdx c) 0xA) 16 7 := by
  have hr := canIdx_range c
  unfold State.canCredited State.canHeard
  constructor
  · simp
  · simp (disch := first | omega | (unfold odKey; omega)) [fieldOf_putField_ne]

theorem exec_canTxSuccess {delay : BitVec 7} {b : Nat} {f : CanFrame} (hs : s.canSending c = some (b, f))
    (hf : s.canFar c f delay.toNat = false) (hi : (s.canOf c).inject = false) :
    exec (.canTxSuccess c delay) s = .next ((s.canDelay c f delay.toNat).canSent c b f) := by
  show execCanTxSuccess c delay s = _
  unfold execCanTxSuccess
  rw [hs]
  dsimp only
  rw [hf, hi]
  rfl

/-- An attempt that succeeds (R420, R424). -/
theorem canTxSuccess_completes {delay : BitVec 7} {b : Nat} {f : CanFrame} (hs : s.canSending c = some (b, f)) (hb : b < 64)
    (hf : s.canFar c f delay.toNat = false) (hi : (s.canOf c).inject = false) (hm : (s.canOf c).mode = 1) :
    ∃ t, exec (.canTxSuccess c delay) s = .next t ∧ t.bufState c b = 4 ∧ (t.canOf c).cur = none ∧ t.bit (canIdx c) 0x10 1 = true ∧
      t.n (canIdx c + 1) 2 = (s.n (canIdx c + 1) 2 + 1) % 2 ^ 32 ∧
      t.bit (canIdx c) 0xA 2 = false ∧ (t.canOf c).acks = 0 ∧ t.bit (canIdx c) 0xA 5 = false ∧
      (f.fdf = true → f.brs = true → fieldOf (t.canN c 0xA) 16 7 = delay.toNat) := by
  have hr := canIdx_range c
  generalize hu : s.canDelay c f delay.toNat = u
  have hcan : u.canOf c = s.canOf c := by rw [← hu, State.canOf_canDelay]
  obtain ⟨r, hcr⟩ := (u.canCompleted c b).canOf_canCredited c b f
  obtain ⟨hbit, hfield⟩ := (u.canCompleted c b).canCredited_status c b f
  refine ⟨_, exec_canTxSuccess s c hs hf hi, ?_⟩
  rw [hu, State.canSent_eq]
  dsimp only
  rw [if_neg (by rw [hcan, hm]; decide)]
  refine ⟨?_, by simp, ?_, ?_, ?_, by simp [hcr], State.onBus_canIdle .., fun h1 h2 => ?_⟩
  · rw [State.bufState, State.bufSt, State.n_canIdle_ne _ _ (by unfold odKey; omega)]
    exact (congrArg (fieldOf · 0 4) ((u.canCompleted c b).bufSt_canCredited c f hb)).trans (u.canCompleted_state c hb)
  · rw [State.bit, State.n_canIdle_ne _ _ (by unfold odKey; omega)]
    exact State.canCredited_event ..
  · rw [State.n_canIdle_ne _ _ (by unfold odKey; omega), State.canCredited_counts,
      State.n_canCompleted_ne _ _ _ (by unfold odKey; omega) (by unfold odKey; omega) (by unfold odKey; omega), ← hu,
      State.n_canDelay_ne _ _ _ _ (by unfold odKey; omega)]
  · rw [State.bit, State.bit_canIdle _ _ (by decide), hbit]
  · rw [State.canN, State.field_canIdle _ _ _ (by decide), hfield,
      State.n_canCompleted_ne _ _ _ (by unfold odKey; omega) (by unfold odKey; omega) (by unfold odKey; omega), ← hu]
    unfold State.canDelay
    rw [if_pos (by rw [h1, h2]; rfl), State.n_canStatus_self _ _ _ (by decide), fieldOf_putField_self _ _ delay.isLt]

/-- An offer while nothing waits for storage leaves the buffers, and clears no event. -/
theorem State.canOffer_leaves {f : CanFrame} (hg : (s.canOf c).got = none) :
    (∀ b < 64, (s.canOffer c f).bufSt c b = s.bufSt c b) ∧
    ∀ e, bitOf (s.n (canIdx c) 0x10) e = true → bitOf ((s.canOffer c f).n (canIdx c) 0x10) e = true := by
  have hr := canIdx_range c
  have h10 : CanObject (odKey (canIdx c) 0x10) := by unfold odKey; omega
  generalize hu : (s.canCnt c 1).canAccept c f = u
  have hun (i j : Nat) : u.2.n i j = (s.canCnt c 1).n i j := by
    rw [← hu]
    rcases (s.canCnt c 1).canAccept_state c f with e | e <;> rw [e]
    rfl
  have hbuf (b : Nat) (hb : b < 64) : u.2.n (canIdx c + 5) (b + 1) = s.n (canIdx c + 5) (b + 1) := by
    rw [hun, State.n_canCnt_ne _ _ _ (by unfold odKey; omega) (by unfold odKey; omega) (by unfold odKey; omega)]
  have hev (e : Nat) (he : bitOf (s.n (canIdx c) 0x10) e = true) : bitOf (u.2.n (canIdx c) 0x10) e = true := by
    rw [hun]; exact State.event_canCnt h10 he
  have ho := s.canOffer_cases c f
  rw [s.canStore_none c hg] at ho
  dsimp only at ho
  rw [hu] at ho
  rcases ho with ⟨g, ho⟩ | ho <;> rw [ho]
  · exact ⟨hbuf, hev⟩
  · refine ⟨fun b hb => ?_, fun e he => State.event_canCnt h10 (hev e he)⟩
    rw [State.bufSt, State.n_canCnt_ne _ _ _ (by unfold odKey; omega) (by unfold odKey; omega) (by unfold odKey; omega), hbuf b hb]
    rfl

/-- An abort that came while the frame was on the bus lets a success stand, and shows that it came too late (R26, R421). -/
theorem canTxSuccess_aborted {delay : BitVec 7} {b : Nat} {f : CanFrame} (hs : s.canSending c = some (b, f)) (hb : b < 64)
    (ha : bitOf (s.canOf c).aborts b = true) (hf : s.canFar c f delay.toNat = false) (hi : (s.canOf c).inject = false)
    (hg : (s.canOf c).mode = 3 → (s.canOf c).got = none) :
    ∃ t, exec (.canTxSuccess c delay) s = .next t ∧ t.bufState c b = 4 ∧ fieldOf (t.bufSt c b) 8 2 = 2 ∧ (t.canOf c).cur = none ∧
      t.bit (canIdx c) 0x10 11 = true := by
  generalize hu : s.canDelay c f delay.toNat = u
  have hcan : u.canOf c = s.canOf c := by rw [← hu, State.canOf_canDelay]
  obtain ⟨st, m, hcc⟩ := u.canOf_canCompleted c b
  obtain ⟨r, hcr⟩ := (u.canCompleted c b).canOf_canCredited c b f
  obtain ⟨hend, hev⟩ := u.canCompleted_aborted c hb (by rw [hcan, ha])
  have hst := u.canCompleted_state c hb
  rw [State.bufState, ← (u.canCompleted c b).bufSt_canCredited c f hb] at hst
  rw [← (u.canCompleted c b).bufSt_canCredited c f hb] at hend
  have hev := State.event_canCredited (u.canCompleted c b) c (b := b) (f := f) hev
  generalize hv : (u.canCompleted c b).canCredited c b f = v at hst hend hev hcr
  refine ⟨_, exec_canTxSuccess s c hs hf hi, ?_⟩
  rw [hu, State.canSent_eq]
  dsimp only
  rw [hv]
  have fin (w : State) (h1 : w.bufSt c b = v.bufSt c b) (h2 : bitOf (w.n (canIdx c) 0x10) 11 = true) :
      (w.canIdle c).bufState c b = 4 ∧ fieldOf ((w.canIdle c).bufSt c b) 8 2 = 2 ∧ ((w.canIdle c).canOf c).cur = none ∧
        (w.canIdle c).bit (canIdx c) 0x10 11 = true := by
    have hb' : (w.canIdle c).bufSt c b = v.bufSt c b := (w.n_canIdle_ne _ (by unfold odKey; omega)).trans h1
    refine ⟨by rw [State.bufState, hb', hst], by rw [hb', hend], by simp, ?_⟩
    rw [State.bit, State.n_canIdle_ne _ _ (by unfold odKey; omega), h2]
  split
  next h3 =>
    obtain ⟨hl1, hl2⟩ := v.canOffer_leaves c (f := f) (by rw [hcr, hcc, hcan]; exact hg (by rw [← hcan]; exact h3))
    exact fin _ (hl1 b hb) (hl2 11 hev)
  · exact fin _ rfl hev

end

section
variable {i j : Nat} (s : State) (c : Fin 4)

/-- An attempt's error is shown and counted, and TEC rises (R412, R423). -/
def State.canFailed (s : State) (c : Nat) (f : CanFrame) (lec : Fin 7) (data free : Bool) (eights : Fin 32) (delay : BitVec 7) : State :=
  let t := if data then s.canDelay c f delay.toNat else s
  let t := if data && s.canFar c f delay.toNat then t.canEvent c 13 else t
  let t := t.canErr c lec data
  t.canCounters c (t.canN c 0xB + 8 * eights.val + (if free || (decide (fieldOf (t.canN c 0xA) 0 2 = 1) && lec.val = 3) then 0 else 8))
    (t.canN c 0xC)

theorem exec_canTxError {lec : Fin 7} {data free : Bool} {eights : Fin 32} {delay : BitVec 7} {b : Nat} {f : CanFrame}
    (hs : s.canSending c = some (b, f)) :
    exec (.canTxError c lec data free eights delay) s =
      let t := s.canFailed c f lec data free eights delay
      .next ((if lec.val = 3 then t.canUnacked c b else t.canRetry c b).canIdle c) := by
  show execCanTxError c lec data free eights delay s = _
  unfold execCanTxError State.canFailed
  rw [hs]

theorem State.canOf_canFailed (f : CanFrame) (lec : Fin 7) (data free : Bool) (eights : Fin 32) (delay : BitVec 7) :
    ∃ r, (s.canFailed c f lec data free eights delay).canOf c = { s.canOf c with recovering := r } := by
  have hcan : ((if data && s.canFar c f delay.toNat then (if data then s.canDelay c f delay.toNat else s).canEvent c 13
      else if data then s.canDelay c f delay.toNat else s).canErr c lec data).canOf c = s.canOf c := by
    unfold State.canErr
    rw [State.canOf_canStatus, State.canOf_canCnt]
    cases data
    · rfl
    · split
      · rw [State.canOf_canEvent]; exact s.canOf_canDelay ..
      · exact s.canOf_canDelay ..
  unfold State.canFailed
  dsimp only
  rw [State.canOf_canCounters, hcan]
  exact ⟨_, rfl⟩

/-- An error outside the data phase: its count and code, and what it leaves. -/
theorem State.canFailed_nominal (f : CanFrame) (lec : Fin 7) (free : Bool) (eights : Fin 32) (delay : BitVec 7) :
    let t := s.canFailed c f lec false free eights delay
    t.n (canIdx c + 1) 3 = (s.n (canIdx c + 1) 3 + 1) % 2 ^ 32 ∧ fieldOf (t.n (canIdx c) 0xA) 8 3 = lec.val ∧
    bitOf (t.n (canIdx c) 0xA) 2 = bitOf (s.n (canIdx c) 0xA) 2 ∧ t.n (canIdx c) 6 = s.n (canIdx c) 6 ∧
    t.n (canIdx c) 0xF = s.n (canIdx c) 0xF ∧ ∀ b < 64, t.n (canIdx c + 2) (b + 1) = s.n (canIdx c + 2) (b + 1) := by
  have hr := canIdx_range c
  have hlec : lec.val < 2 ^ 3 := Nat.lt_trans lec.isLt (by decide)
  unfold State.canFailed State.canErr
  refine ⟨?_, ?_, ?_, ?_, ?_, fun b hb => ?_⟩ <;>
    simp (disch := first | omega | (unfold odKey; omega)) [fieldOf_putField_self, bitOf_putField_ne]

/-- The attempt is over and its buffer's status is kept. -/
theorem State.bufSt_canIdle (b : Nat) : (s.canIdle c).bufSt c b = s.bufSt c b := s.n_canIdle_ne _ (by unfold odKey; omega)

theorem State.event_canIdle (e : Nat) : (s.canIdle c).bit (canIdx c) 0x10 e = s.bit (canIdx c) 0x10 e := by
  rw [State.bit, State.n_canIdle_ne _ _ (by unfold odKey; omega)]; rfl

theorem State.bufState_canRetry {b : Nat} (ha : bitOf (s.canOf c).aborts b = false) :
    ((s.canRetry c b).canIdle c).bufState c b = if s.oneShot c b then 7 else 2 := by
  rw [State.bufState, State.bufSt_canIdle, State.canRetry_of_not_aborted _ _ ha, State.bufSt, State.n_setBufState_self,
    fieldOf_putField_self]
  split <;> decide

/-- UNACKED with its event, ALONE, and its count (R424). -/
theorem State.canUnacked_result {b : Nat} (hb : b < 64) (ha : bitOf (s.canOf c).aborts b = false) (hl : s.n (canIdx c) 6 ≠ 0)
    (h : s.n (canIdx c) 6 ≤ (s.canOf c).acks + 1 ∨ bitOf (s.n (canIdx c) 0xA) 2 = true) :
    (s.canUnacked c b).bufState c b = 6 ∧ bitOf ((s.canUnacked c b).n (canIdx c) 0x10) 10 = true ∧
    bitOf ((s.canUnacked c b).n (canIdx c) 0xA) 2 = true ∧
    (s.canUnacked c b).n (canIdx c) 0xF = (s.n (canIdx c) 0xF + 1) % 2 ^ 32 := by
  have hr := canIdx_range c
  rw [State.canUnacked_alone _ _ ha hl h]
  dsimp only
  have hu : ∀ u : State, u = (if bitOf (s.n (canIdx c) 0xA) 2 then s.setCan c { s.canOf c with acks := (s.canOf c).acks + 1 }
        else ((s.setCan c { s.canOf c with acks := (s.canOf c).acks + 1 }).canStatus c 2 1 1).canEvent c 9) →
      bitOf (u.n (canIdx c) 0xA) 2 = true ∧ u.n (canIdx c) 0xF = s.n (canIdx c) 0xF := by
    rintro u rfl
    split
    next h2 => exact ⟨h2, rfl⟩
    · constructor <;> simp (disch := first | omega | (unfold odKey; omega))
  obtain ⟨h2, hf⟩ := hu _ rfl
  refine ⟨?_, State.event_canEvent_self _ c (by decide), ?_, ?_⟩
  · simp (disch := first | omega | (unfold odKey; omega)) [State.bufState, State.bufSt, State.n_cnt_ne, fieldOf_putField_self]
  · simp (disch := first | omega | (unfold odKey; omega)) [State.n_cnt_ne, h2]
  · simp (disch := first | omega | (unfold odKey; omega)) [State.n_cnt_self, hf]

/-- An acknowledge error counts in ACKS, and keeps what the error itself has shown. -/
theorem State.canUnacked_keeps (b : Nat) :
    (∃ m, (s.canUnacked c b).canOf c = { s.canOf c with aborts := m, acks := (s.canOf c).acks + 1 }) ∧
    (s.canUnacked c b).n (canIdx c + 1) 3 = s.n (canIdx c + 1) 3 ∧
    fieldOf ((s.canUnacked c b).n (canIdx c) 0xA) 8 3 = fieldOf (s.n (canIdx c) 0xA) 8 3 := by
  have hr := canIdx_range c
  rw [State.canUnacked_eq]
  dsimp only
  split
  · obtain ⟨m, hm⟩ := (s.setCan c { s.canOf c with acks := (s.canOf c).acks + 1 }).canOf_canRetry c b
    have hn := State.n_canRetry_ne (i := canIdx c + 1) (j := 3) (s.setCan c { s.canOf c with acks := (s.canOf c).acks + 1 }) c b
      (by unfold odKey; omega) (by unfold odKey; omega) (by unfold odKey; omega)
    have hs := State.n_canRetry_ne (i := canIdx c) (j := 0xA) (s.setCan c { s.canOf c with acks := (s.canOf c).acks + 1 }) c b
      (by unfold odKey; omega) (by unfold odKey; omega) (by unfold odKey; omega)
    exact ⟨⟨m, by rw [hm, State.canOf_setCan]⟩, hn, by rw [hs]; rfl⟩
  · refine ⟨⟨(s.canOf c).aborts, ?_⟩, ?_, ?_⟩ <;> split <;>
      simp (disch := first | omega | (unfold odKey; omega)) [State.n_cnt_ne, fieldOf_putField_ne]

theorem State.canRetry_keeps (b : Nat) :
    (s.canRetry c b).n (canIdx c + 1) 3 = s.n (canIdx c + 1) 3 ∧ (s.canRetry c b).n (canIdx c) 0xA = s.n (canIdx c) 0xA := by
  have hr := canIdx_range c
  constructor <;> exact s.n_canRetry_ne _ _ (by unfold odKey; omega) (by unfold odKey; omega) (by unfold odKey; omega)

theorem State.canFailed_mem (f : CanFrame) (lec : Fin 7) (data free : Bool) (eights : Fin 32) (delay : BitVec 7) :
    (s.canFailed c f lec data free eights delay).mem = s.mem := by
  unfold State.canFailed; simp

/-- An attempt that ends in an error outside the data phase: the error is counted and shown, and the buffer pends again, is done as
one-shot, or is UNACKED (R420, R423, R424). -/
theorem canTxError_ends {lec : Fin 7} {free : Bool} {eights : Fin 32} {delay : BitVec 7} {b : Nat} {f : CanFrame}
    (hs : s.canSending c = some (b, f)) (hb : b < 64) (ha : bitOf (s.canOf c).aborts b = false) (hn : (s.canOf c).next = none) :
    ∃ t, exec (.canTxError c lec false free eights delay) s = .next t ∧ (t.canOf c).cur = none ∧ t.mem = s.mem ∧
      t.n (canIdx c + 1) 3 = (s.n (canIdx c + 1) 3 + 1) % 2 ^ 32 ∧ fieldOf (t.canN c 0xA) 8 3 = lec.val ∧
      (lec.val ≠ 3 → t.bufState c b = if s.oneShot c b then 7 else 2) ∧
      (lec.val = 3 → s.canN c 6 = 0 → t.bufState c b = if s.oneShot c b then 7 else 2) ∧
      (t.canOf c).mode = (s.canOf c).mode ∧ (lec.val = 3 → (t.canOf c).acks = (s.canOf c).acks + 1) ∧
      (lec.val = 3 → (s.canOf c).acks + 1 < s.canN c 6 → s.bit (canIdx c) 0xA 2 = false →
        t.bufState c b = if s.oneShot c b then 7 else 2) ∧
      (lec.val = 3 → s.canN c 6 ≠ 0 → s.canN c 6 ≤ (s.canOf c).acks + 1 ∨ s.bit (canIdx c) 0xA 2 = true →
        t.bufState c b = 6 ∧ t.bit (canIdx c) 0x10 10 = true ∧ t.bit (canIdx c) 0xA 2 = true ∧
        t.canN c 0xF = (s.canN c 0xF + 1) % 2 ^ 32) := by
  obtain ⟨r, hcan⟩ := s.canOf_canFailed c f lec false free eights delay
  obtain ⟨h3, hlec, h2, h6, hF, hmode⟩ := s.canFailed_nominal c f lec free eights delay
  have hmem := s.canFailed_mem c f lec false free eights delay
  refine ⟨_, exec_canTxError s c hs, ?_⟩
  generalize s.canFailed c f lec false free eights delay = u at hcan h3 hlec h2 h6 hF hmode hmem
  have hau : bitOf (u.canOf c).aborts b = false := by rw [hcan]; exact ha
  have hshot : u.oneShot c b = s.oneShot c b := by rw [State.oneShot, State.bit, hmode b hb]; rfl
  have hacks : (u.canOf c).acks = (s.canOf c).acks := by rw [hcan]
  by_cases hl : lec.val = 3
  · rw [if_pos hl]
    obtain ⟨⟨m, hk⟩, k3, kf⟩ := u.canUnacked_keeps c b
    have retry (h : u.n (canIdx c) 6 = 0 ∨ ((u.canOf c).acks + 1 < u.n (canIdx c) 6 ∧ bitOf (u.n (canIdx c) 0xA) 2 = false)) :
        ((u.canUnacked c b).canIdle c).bufState c b = if s.oneShot c b then 7 else 2 := by
      rw [State.canUnacked_retry _ _ (.inr h), State.bufState_canRetry _ _ (by rw [State.canOf_setCan]; exact hau), ← hshot]
      rfl
    refine ⟨by simp, by simp [hmem], ?_, ?_, fun h => absurd hl h, fun _ h => ?_, ?_, fun _ => ?_, fun _ h h' => ?_, fun _ h h' => ?_⟩
    · rw [State.n_canIdle_ne _ _ (by unfold odKey; omega), k3, h3]
    · rw [State.canN, State.field_canIdle _ _ _ (by decide), kf, hlec]
    · exact retry (.inl (h6.trans h))
    · rw [State.canOf_canIdle, hk, hcan]; simp [hn]
    · rw [State.canOf_canIdle, hk, hacks]
    · exact retry (.inr ⟨by rw [hacks, h6]; exact h, by rw [h2]; exact h'⟩)
    · obtain ⟨e1, e2, e3, e4⟩ := u.canUnacked_result c hb hau (by rw [h6]; exact h) (by rw [h6, hacks, h2]; exact h')
      refine ⟨?_, ?_, ?_, ?_⟩
      · rw [State.bufState, State.bufSt_canIdle]; exact e1
      · rw [State.event_canIdle]; exact e2
      · rw [State.bit, State.bit_canIdle _ _ (by decide), e3]
      · rw [State.canN, State.n_canIdle_ne _ _ (by unfold odKey; omega), e4, hF]; rfl
  · rw [if_neg hl]
    obtain ⟨m, hk⟩ := u.canOf_canRetry c b
    obtain ⟨k3, kA⟩ := u.canRetry_keeps c b
    refine ⟨by simp, by simp [hmem], ?_, ?_, fun _ => ?_, fun h => absurd h hl, ?_, fun h => absurd h hl, fun h => absurd h hl,
      fun h => absurd h hl⟩
    · rw [State.n_canIdle_ne _ _ (by unfold odKey; omega), k3, h3]
    · rw [State.canN, State.field_canIdle _ _ _ (by decide), kA, hlec]
    · rw [State.bufState_canRetry _ _ hau, hshot]
    · rw [State.canOf_canIdle, hk, hcan]; simp [hn]

theorem State.canRetry_aborted_result {b : Nat} (hb : b < 64) (ha : bitOf (s.canOf c).aborts b = true) :
    (s.canRetry c b).bufState c b = 5 ∧ fieldOf ((s.canRetry c b).bufSt c b) 8 2 = 1 ∧
    (s.canRetry c b).bit (canIdx c) 0x10 11 = true := by
  have hr := canIdx_range c
  rw [State.canRetry_of_aborted _ _ ha]
  unfold State.bufState State.bufSt
  refine ⟨?_, ?_, State.event_canEvent_self _ c (by decide)⟩ <;>
    simp (disch := first | omega | (unfold odKey; omega)) [fieldOf_putField_self, fieldOf_putField_ne]

/-- An abort that came while the frame was on the bus ends the buffer with the attempt's error: no retry (R26, R421). -/
theorem canTxError_aborted (lec : Fin 7) (data free : Bool) (eights : Fin 32) (delay : BitVec 7) {b : Nat} {f : CanFrame}
    (hs : s.canSending c = some (b, f)) (hb : b < 64) (ha : bitOf (s.canOf c).aborts b = true) :
    ∃ t, exec (.canTxError c lec data free eights delay) s = .next t ∧ t.bufState c b = 5 ∧ fieldOf (t.bufSt c b) 8 2 = 1 ∧
      (t.canOf c).cur = none ∧ t.bit (canIdx c) 0x10 11 = true ∧ t.mem = s.mem := by
  obtain ⟨r, hcan⟩ := s.canOf_canFailed c f lec data free eights delay
  have hmem := s.canFailed_mem c f lec data free eights delay
  refine ⟨_, exec_canTxError s c hs, ?_⟩
  generalize s.canFailed c f lec data free eights delay = u at hcan hmem
  have hau : bitOf (u.canOf c).aborts b = true := by rw [hcan]; exact ha
  have hv : ∃ v : State, bitOf (v.canOf c).aborts b = true ∧
      (if lec.val = 3 then u.canUnacked c b else u.canRetry c b) = v.canRetry c b ∧ v.mem = s.mem := by
    split
    · exact ⟨u.setCan c { u.canOf c with acks := (u.canOf c).acks + 1 }, by rw [State.canOf_setCan]; exact hau,
        u.canUnacked_retry c (.inl hau), hmem⟩
    · exact ⟨u, hau, rfl, hmem⟩
  obtain ⟨v, hva, hve, hvm⟩ := hv
  obtain ⟨e1, e2, e3⟩ := v.canRetry_aborted_result c hb hva
  rw [hve]
  refine ⟨?_, ?_, by simp, ?_, by simp [hvm]⟩
  · rw [State.bufState, State.bufSt_canIdle]; exact e1
  · rw [State.bufSt_canIdle]; exact e2
  · rw [State.event_canIdle]; exact e3

end

end Sys2Proof.Machine
end

section
/-! The remaining commands of the CAN controllers, and O57. -/

namespace Sys2Proof.Machine

/-! ### Aborts, locks, shadows, FIFOs and bus off (R416, R417, R421, R423) -/

section
variable (s : State) (c : Fin 4)

/-- The abort of a pending buffer ends it at once (R421). -/
theorem canTxAbort_pending {p : Path} {v : DWord} {b : Nat} (hw : s.writeOk p (canIdx c + 6) 4 v.toNat = true) (hb : b < 64)
    (hv : v.toNat = 2 ^ b) (h2 : s.bufState c b = 2) :
    ∃ t, exec (.canTxAbort p c v) s = .next t ∧ t.bufState c b = 5 ∧ fieldOf (t.bufSt c b) 8 2 = 1 ∧
      t.bit (canIdx c) 0x10 11 = true ∧ t.mem = s.mem := by
  have hr := canIdx_range c
  have he : s.canAbort c b = (((s.setCan c { s.canOf c with store := tblDel b (s.canOf c).store }).setBufState c b 5).setBuf c b 8 2
      1).canEvent c 11 := by
    unfold State.canAbort; exact if_pos h2
  refine ⟨s.canAbort c b, congrArg _ (s.guard_canEach hw hb hv), ?_⟩
  rw [he]
  unfold State.bufState State.bufSt
  refine ⟨?_, ?_, State.event_canEvent_self _ c (by decide), by simp⟩ <;>
    simp (disch := first | omega | (unfold odKey; omega)) [fieldOf_putField_self, fieldOf_putField_ne]

/-- The abort of a buffer on the bus is kept for the attempt's end, and changes no object (R26, R421). -/
theorem canTxAbort_onBus {p : Path} {v : DWord} {b : Nat} (hw : s.writeOk p (canIdx c + 6) 4 v.toNat = true) (hb : b < 64)
    (hv : v.toNat = 2 ^ b) (h3 : s.bufState c b = 3) :
    ∃ t, exec (.canTxAbort p c v) s = .next t ∧ t.od = s.od ∧ bitOf (t.canOf c).aborts b = true ∧ t.mem = s.mem := by
  refine ⟨s.canAbort c b, congrArg _ (s.guard_canEach hw hb hv), ?_⟩
  unfold State.canAbort
  rw [if_neg (by rw [h3]; decide)]
  cases ha : bitOf (s.canOf c).aborts b
  · rw [if_pos (by simp [h3])]
    exact ⟨rfl, by rw [State.canOf_setCan]; exact bitOf_add_two_pow ha, State.setCan_mem ..⟩
  · rw [if_neg (by simp)]
    exact ⟨rfl, ha, rfl⟩

theorem canLockSet_locks {p : Path} {v : DWord} {b : Nat} (hw : s.writeOk p (canIdx c + 6) 6 v.toNat = true) (hb : b < 64)
    (hv : v.toNat = 2 ^ b) (hp : bitOf (s.canOf c).promo b = false) :
    ∃ t, exec (.canLockSet p c v) s = .next t ∧ bitOf (t.bufSt c b) 4 = true ∧ t.bufState c b = s.bufState c b ∧
      ObjectsKept s t [(canIdx c + 5, b + 1)] ∧ t.mem = s.mem := by
  have he : s.canLock c b = s.setBuf c b 4 1 1 := by
    unfold State.canLock; exact if_neg (by simp [hp])
  refine ⟨s.canLock c b, congrArg _ (s.guard_canEach hw hb hv), ?_⟩
  rw [he]
  refine ⟨?_, ?_, objectsKept_setBuf s c b _ _ _, State.setBuf_mem ..⟩
  · rw [State.bufSt, State.n_setBuf_self _ _ _ _ (by decide), bitOf_putField_one]; rfl
  · rw [State.bufState, State.bufSt, State.n_setBuf_self _ _ _ _ (by decide), fieldOf_putField_ne _ _ (by decide)]; rfl

/-- An unlock frees the buffer, or with a full shadow starts its promotion with the lock kept (R417). -/
theorem canLockClear_unlocks {p : Path} {v : DWord} {b : Nat} (hw : s.writeOk p (canIdx c + 6) 8 v.toNat = true) (hb : b < 64)
    (hv : v.toNat = 2 ^ b) (hl : bitOf (s.bufSt c b) 4 = true) (hp : bitOf (s.canOf c).promo b = false) :
    ∃ t, exec (.canLockClear p c v) s = .next t ∧
      t.bufState c b = (if s.bufState c b = 1 then 0 else s.bufState c b) ∧ t.mem = s.mem ∧ bitOf (t.bufSt c b) 4 = bitOf (s.bufSt c b) 5 ∧ bitOf (t.canOf c).promo b = bitOf (s.bufSt c b) 5 := by
  have he : s.canUnlock c b =
      let t := if s.bufState c b = 1 then s.setBufState c b 0 else s
      if bitOf (t.bufSt c b) 5 then t.setCan c { s.canOf c with promo := (s.canOf c).promo ||| 2 ^ b } else t.setBuf c b 4 1 0 := by
    unfold State.canUnlock
    dsimp only
    rw [if_neg (by simp [hl]), if_neg (by simp [hp])]
  have ht : ∀ t : State, t = (if s.bufState c b = 1 then s.setBufState c b 0 else s) →
      t.canOf c = s.canOf c ∧ t.mem = s.mem ∧ t.bufState c b = (if s.bufState c b = 1 then 0 else s.bufState c b) ∧
      bitOf (t.bufSt c b) 4 = bitOf (s.bufSt c b) 4 ∧ bitOf (t.bufSt c b) 5 = bitOf (s.bufSt c b) 5 := by
    rintro t rfl
    split
    · unfold State.bufState State.bufSt
      rw [State.n_setBufState_self]
      exact ⟨rfl, State.setBufState_mem .., fieldOf_putField_self _ _ (by decide), bitOf_putField_ne _ _ (by decide),
        bitOf_putField_ne _ _ (by decide)⟩
    · exact ⟨rfl, rfl, rfl, rfl, rfl⟩
  obtain ⟨hcan, hmem, hst, h4, h5⟩ := ht _ rfl
  refine ⟨s.canUnlock c b, congrArg _ (s.guard_canEach hw hb hv), ?_⟩
  rw [he]
  generalize (if s.bufState c b = 1 then s.setBufState c b 0 else s) = t at hcan hmem hst h4 h5
  dsimp only
  rw [h5]
  cases hs : bitOf (s.bufSt c b) 5
  · rw [if_neg (by decide)]
    refine ⟨?_, by simp [hmem], ?_, by rw [State.canOf_setBuf, hcan, hp]⟩
    · rw [State.bufState, State.bufSt, State.n_setBuf_self _ _ _ _ (by decide), fieldOf_putField_ne _ _ (by decide)]; exact hst
    · rw [State.bufSt, State.n_setBuf_self _ _ _ _ (by decide), bitOf_putField_one]; rfl
  · rw [if_pos rfl]
    refine ⟨hst, by simp [hmem], h4.trans hl, ?_⟩
    rw [State.canOf_setCan, bitOf_or, bitOf_pow, decide_eq_true rfl, Bool.or_true]

/-- The promoted shadow is a new frame of the buffer, which is locked again only if it was meanwhile (R417; log entry 132). -/
theorem canShadowPromoted_fills {b : Fin 64} {f : CanFrame} {how : Nat} (hp : bitOf (s.canOf c).promo b = true)
    (hs : (s.canOf c).shadow.find? (fun e => e.1 = b.val) = some (b.val, f, how)) :
    ∃ t, exec (.canShadowPromoted c b) s = .next t ∧ t.bufState c b = 1 ∧ bitOf (t.bufSt c b) 5 = false ∧
      bitOf (t.bufSt c b) 4 = bitOf (s.canOf c).relock b ∧ bitOf (t.canOf c).promo b = false ∧ t.bit (canIdx c) 0x10 0 = true := by
  have hr := canIdx_range c
  generalize hu : s.setCan c { s.canOf c with
    shadow := tblDel b (s.canOf c).shadow, promo := (s.canOf c).promo - ((s.canOf c).promo &&& 2 ^ b.val)
    relock := (s.canOf c).relock - ((s.canOf c).relock &&& 2 ^ b.val) } = u
  have he : s.canPromoted c b = ((u.canFill c b f how).setBuf c b 5 1 0).setBuf c b 4 1 (if bitOf (s.canOf c).relock b then 1 else 0) := by
    unfold State.canPromoted
    dsimp only
    rw [hs, ← hu]
    rfl
  obtain ⟨seqs, hfill⟩ := u.canOf_canFill c b f how
  have hst := u.bufSt_canFill c f how b.isLt
  have hev := u.event_canFill c b f how
  have hpromo : (u.canOf c).promo = (s.canOf c).promo - ((s.canOf c).promo &&& 2 ^ b.val) := by rw [← hu, State.canOf_setCan]
  generalize u.canFill c b f how = v at he hfill hst hev
  have hst' : (s.canPromoted c b).bufSt c b =
      putField (putField (putField (u.n (canIdx c + 5) (b.val + 1)) 0 4 1) 5 1 0) 4 1 (if bitOf (s.canOf c).relock b then 1 else 0) := by
    rw [he, State.bufSt, State.n_setBuf_self _ _ _ _ (by decide), State.n_setBuf_self _ _ _ _ (by decide), hst]
  refine ⟨s.canPromoted c b, congrArg _ (if_pos hp), ?_, ?_, ?_, ?_, ?_⟩
  · rw [State.bufState, hst', fieldOf_putField_ne _ _ (by decide), fieldOf_putField_ne _ _ (by decide),
      fieldOf_putField_self _ _ (by decide)]
  · rw [hst', bitOf_putField_ne _ _ (by decide), bitOf_putField_one]; rfl
  · rw [hst', bitOf_putField_one]
    cases bitOf (s.canOf c).relock b <;> rfl
  · rw [he, State.canOf_setBuf, State.canOf_setBuf, hfill, hpromo]
    simp [bitOf_sub_and, bitOf_pow]
  · rw [he, State.bit, State.n_setBuf_ne _ _ _ _ _ _ (by unfold odKey; omega), State.n_setBuf_ne _ _ _ _ _ _ (by unfold odKey; omega),
      hev]

theorem canLostClear_clears {p : Path} {v : DWord} {b : Nat} (hw : s.writeOk p (canIdx c + 6) 0xA v.toNat = true) (hb : b < 64)
    (hv : v.toNat = 2 ^ b) :
    ∃ t, exec (.canLostClear p c v) s = .next t ∧ bitOf (t.bufSt c b) 6 = false ∧ t.bufState c b = s.bufState c b ∧
      ObjectsKept s t [(canIdx c + 5, b + 1)] ∧ t.mem = s.mem := by
  refine ⟨s.setBuf c b 6 1 0, congrArg _ (s.guard_canEach hw hb hv), ?_, ?_, objectsKept_setBuf s c b _ _ _, State.setBuf_mem ..⟩
  · rw [State.bufSt, State.n_setBuf_self _ _ _ _ (by decide), bitOf_putField_one]; rfl
  · rw [State.bufState, State.bufSt, State.n_setBuf_self _ _ _ _ (by decide), fieldOf_putField_ne _ _ (by decide)]; rfl

theorem canFifoGet_moves {p : Path} {k : Fin 2} {v : Word} (hw : s.writeOk p (canIdx c + 9) (1 + 2 * k.val) v.toNat = true) :
    ∃ t, exec (.canFifoGet p c k v) s = .next t ∧ t.n (canIdx c + 9) (1 + 2 * k.val) = v.toNat ∧
      ObjectsKept s t [(canIdx c + 9, 1 + 2 * k.val)] ∧ t.mem = s.mem :=
  ⟨s.wr (canIdx c + 9) (1 + 2 * k.val) v.toNat, congrArg _ (s.guard_ok hw),
    by rw [State.n_wr_self, Nat.mod_eq_of_lt (Nat.lt_trans v.isLt (by decide))], objectsKept_wr s _ _ _, State.wr_mem ..⟩

theorem canRecover_starts {p : Path} (hw : s.writeOk p (canIdx c) 0xE 1 = true) (ho : s.busOff c = true) (hd : s.canN c 0xD = 1) :
    ∃ t, exec (.canRecover p c 1) s = .next t ∧ t.canOf c = { s.canOf c with recovering := true } ∧ t.od = s.od ∧ t.mem = s.mem :=
  ⟨s.setCan c { s.canOf c with recovering := true }, congrArg _ ((s.guard_ok hw).trans (if_pos (by simp [ho, hd]))),
    State.canOf_setCan .., State.setCan_od .., State.setCan_mem ..⟩

/-- The end of bus off: both counters 0, the error state with them (R423). -/
theorem canBusOffRecovered_resets (ho : s.busOff c = true) (hrec : (s.canOf c).recovering = true) :
    ∃ t, exec (.canBusOffRecovered c) s = .next t ∧ t.canN c 0xB = 0 ∧ t.canN c 0xC = 0 ∧ t.busOff c = false ∧
      (t.canOf c).recovering = false ∧ t.bit (canIdx c) 0x10 8 = true ∧ t.mem = s.mem := by
  have hr := canIdx_range c
  have he (u : State) : u.canCounters c 0 0 = u.showCounters c 0 0 := by
    rw [State.canCounters_eq]; rfl
  refine ⟨((s.setCan c { s.canOf c with recovering := false }).canCounters c 0 0).canEvent c 8,
    congrArg _ (if_pos (by rw [ho, hrec]; rfl)), ?_⟩
  rw [he]
  unfold State.canN State.busOff State.canN State.showCounters
  refine ⟨?_, ?_, ?_, ?_, State.event_canEvent_self _ c (by decide), by simp⟩
  · simp (disch := first | omega | (unfold odKey; omega)) [State.n_wr_ne]
  · simp (disch := first | omega | (unfold odKey; omega))
  · simp (disch := first | omega | (unfold odKey; omega)) [errorState, fieldOf_putField_self]
  · simp

end

/-- Settles O57, command by command (R408, R413–R424): each clause is the lemma about its command. UNACKED ends one-shot buffers
too (log entry 131), and a buffer locked again while its shadow is promoted stays locked (log entry 132). -/
theorem canControllersAct : Obligations.CanControllersAct := by
  unfold Obligations.CanControllersAct
  refine ⟨fun p c v s hw => ⟨canModeWrite_idle s c hw, fun b => canModeWrite_busy s c hw⟩, fun c s => canIntegrated_clears s c,
    fun c f ago phase s hl hc hg => ⟨fun b hb ha hk => canFrameReceived_accepted s c ago phase hl hc hg hb ha hk,
      fun hb he hd => canFrameReceived_rejected s c ago phase hl hc hg hb he hd⟩,
    fun c f ago phase s hl => canFrameReceived_endsAlone s c f ago phase hl,
    fun c f b how s hg hb hl hf _ hd => canFrameStored_open s c hg hb hl hf hd,
    fun c f b how s hg hb hl => canFrameStored_locked s c hg hb hl,
    fun c f k how s hg => ⟨canFrameStored_fifoFull s c hg, canFrameStored_fifoRoom s c k hg⟩,
    fun p c v b f s hw hb hv h2 h3 ht => ⟨canTxRequest_pending s c hw hb hv h2 h3 ht, canTxRequest_refused s c hw hb hv h2 h3 ht⟩,
    fun c phase dt b f s hc hm hl hb hi => canTxAttempt_sends s c phase dt hc hm hl hb hi,
    fun c delay b f s hs hb hf hi hm _ _ => canTxSuccess_completes s c hs hb hf hi hm,
    fun c lec free eights delay b f s hs hb ha hn => canTxError_ends s c hs hb ha hn,
    fun c b f s hs hb ha => ⟨fun delay hf hi hg => canTxSuccess_aborted s c hs hb ha hf hi hg,
      fun lec data free eights delay => canTxError_aborted s c lec data free eights delay hs hb ha⟩,
    fun p c v b s hw hb hv => ⟨canTxAbort_pending s c hw hb hv, canTxAbort_onBus s c hw hb hv⟩,
    fun p c v b s hw hb hv hp => canLockSet_locks s c hw hb hv hp,
    fun p c v b s hw hb hv hl hp => canLockClear_unlocks s c hw hb hv hl hp,
    fun c b f how s hp hs => canShadowPromoted_fills s c hp hs,
    fun p c v b s hw hb hv => canLostClear_clears s c hw hb hv,
    fun p c k v s hw => canFifoGet_moves s c hw,
    fun p c s hw ho hd => canRecover_starts s c hw ho hd,
    fun c s ho hrec => canBusOffRecovered_resets s c ho hrec⟩

end Sys2Proof.Machine
end

section
/-! What the commands of HOLD_N do (R73–R76): one lemma per command and case, and O13. -/

namespace Sys2Proof.Machine

/-- The parts of a number under two masks without a common bit add up to its part under both. -/
theorem and_add_and_of_disjoint (v : Nat) {m n : Nat} (h : m &&& n = 0) : (v &&& m) + (v &&& n) = v &&& (m ||| n) := by
  have hm : v &&& (m ||| n) &&& m = v &&& m := by
    apply Nat.eq_of_testBit_eq
    intro i
    simp only [Nat.testBit_and, Nat.testBit_or]
    cases v.testBit i <;> cases m.testBit i <;> simp
  have hn : (v &&& (m ||| n)) - (v &&& (m ||| n) &&& m) = v &&& n := by
    apply Nat.eq_of_testBit_eq
    intro i
    have hi : (m.testBit i && n.testBit i) = false := by rw [← Nat.testBit_and, h, Nat.zero_testBit]
    rw [sub_and_testBit]
    simp only [Nat.testBit_and, Nat.testBit_or]
    cases hmi : m.testBit i <;> simp_all
  have hle : v &&& (m ||| n) &&& m ≤ v &&& (m ||| n) := Nat.and_le_left
  omega

section
variable (s : State)

/-- An object reads back every number that its 64 bits hold. -/
theorem State.n_wr_self_of_lt {i j v : Nat} (h : v < 2 ^ 64) : (s.wr i j v).n i j = v :=
  (s.n_wr_self i j v).trans (Nat.mod_eq_of_lt h)

/-! ### Objects that an event, a counter and a hold reason leave alone -/

theorem objectsKept_cnt (i j : Nat) : ObjectsKept s (s.cnt i j) [(i, j)] :=
  fun _ _ _ hk => s.n_cnt_ne (hk (i, j) (List.mem_singleton_self _))

theorem objectsKept_event (i j m : Nat) : ObjectsKept s (s.event i j m) [(i, j)] :=
  fun _ _ hr hk => s.n_event_ne _ _ _ _ _ hr (hk (i, j) (List.mem_singleton_self _))

theorem objectsKept_hold (m : Nat) : ObjectsKept s (s.hold m) [(0x2001, 2), (0x2001, 1), (0x2000, 5)] :=
  fun _ _ hr hk => s.n_hold_ne m hr (hk (0x2001, 1) (by simp)) (hk (0x2001, 2) (by simp)) (hk (0x2000, 5) (by simp))

theorem objectsKept_unhold (m : Nat) : ObjectsKept s (s.unhold m) [(0x2001, 2)] :=
  fun _ _ _ hk => s.n_unhold_ne m (hk (0x2001, 2) (List.mem_singleton_self _))

/-! ### HOLD_RELEASE (R74, R75) -/

/-- 0x2001:01 takes the release key only (R38, R74). -/
theorem State.writeOk_release {p : Path} {v : Nat} (h : s.writeOk p 0x2001 1 v = true) : v = 0xA55A := by
  have hrow : s.rowOf 0x2001 1 =
      some ⟨0x2001, 1, 1, 1, 1, .u32, .rws, 0, 0xffffffff, [.whole 0xa55a 0xa55a], 1, .plain⟩ := rfl
  unfold State.writeOk at h
  rw [hrow] at h
  simp only [Bool.and_eq_true, OdRow.accepts, List.all_cons, rangeOk, decide_eq_true_eq] at h
  omega

theorem holdRelease_otherValue (p : Path) {v : Word} (o : Fin 3) (hv : v ≠ 0xA55A) :
    exec (.holdRelease p v o) s = .next (s.violate p.id.val) := by
  refine congrArg _ (s.guard_refused (Bool.eq_false_iff.mpr fun hw => hv ?_))
  exact BitVec.eq_of_toNat_eq (s.writeOk_release hw)

theorem State.holdRelease_of_held (o : Nat) (h : s.dev ≠ 1 ∨ s.n 0x2001 2 ≠ 0) :
    s.holdRelease o = (s.cnt 0x2001 5).event 0x2000 5 8 := by
  unfold State.holdRelease
  exact if_pos (by simpa using h)

/-- An accepted release acts on the pin after the end of an arming (R531) and of bring-up, which leave HOLD_N and its reasons
alone. -/
theorem State.holdRelease_of_free (o : Nat) (hd : s.dev = 1) (hr : s.n 0x2001 2 = 0) :
    ∃ u, Low s u ∧ s.holdRelease o = if o = 1 ∨ s.n 0x2001 1 = 1 then u
      else if o = 2 then u.wr 0x2001 1 1 else (u.wr 0x2001 1 1).event 0x2000 5 4 := by
  unfold State.holdRelease
  rw [if_neg (by simp [hd, hr])]
  extract_lets u v
  have hu : Low s u := low_ite (State.disarm_low _ _ _ (low_refl s)) (low_refl s)
  have hv : Low s v := low_ite (State.wr_low _ _ _ _ (by decide) hu) hu
  refine ⟨v, hv, ?_⟩
  rw [n_low hv]
  simp only [Bool.or_eq_true, decide_eq_true_eq]
  rfl

theorem holdRelease_raises {p : Path} {v : Word} (hw : s.writeOk p 0x2001 1 v.toNat = true) (hd : s.dev = 1)
    (hr : s.n 0x2001 2 = 0) :
    ∃ t, exec (.holdRelease p v 0) s = .next t ∧ t.n 0x2001 1 = 1 ∧ t.n 0x2001 2 = 0 ∧
      (s.n 0x2001 1 = 0 → t.bit 0x2000 5 2 = true) := by
  refine ⟨s.holdRelease 0, congrArg _ (s.guard_ok hw), ?_⟩
  obtain ⟨u, hu, he⟩ := s.holdRelease_of_free 0 hd hr
  rw [he]
  by_cases h1 : s.n 0x2001 1 = 1
  · rw [if_pos (.inr h1), n_low hu, n_low hu]
    exact ⟨h1, hr, fun h0 => by omega⟩
  · rw [if_neg (by simp [h1]), if_neg (by decide)]
    refine ⟨?_, ?_, fun _ => ?_⟩
    · rw [State.n_event_ne _ _ _ _ _ _ (by decide) (by decide), State.n_wr_self_of_lt _ (by decide)]
    · rw [State.n_event_ne _ _ _ _ _ _ (by decide) (by decide), State.n_wr_ne _ _ (by decide), n_low hu, hr]
    · rw [State.bit, State.n_event_self _ (by decide) (by decide), bitOf_or]
      exact Bool.or_true _

/-- A reason that arrives first keeps HOLD_N as it was (R75). -/
theorem holdRelease_overtaken {p : Path} {v : Word} (hw : s.writeOk p 0x2001 1 v.toNat = true) (hd : s.dev = 1)
    (hr : s.n 0x2001 2 = 0) : ∃ t, exec (.holdRelease p v 1) s = .next t ∧ t.n 0x2001 1 = s.n 0x2001 1 := by
  obtain ⟨u, hu, he⟩ := s.holdRelease_of_free 1 hd hr
  refine ⟨s.holdRelease 1, congrArg _ (s.guard_ok hw), ?_⟩
  rw [he, if_pos (.inl rfl), n_low hu]

theorem holdRelease_refused {p : Path} {v : Word} (o : Fin 3) (hw : s.writeOk p 0x2001 1 v.toNat = true)
    (h : s.dev ≠ 1 ∨ s.n 0x2001 2 ≠ 0) :
    ∃ t, exec (.holdRelease p v o) s = .next t ∧ t.n 0x2001 5 = (s.n 0x2001 5 + 1) % 2 ^ 32 ∧ t.bit 0x2000 5 3 = true ∧
      ObjectsKept s t [(0x2001, 5), (0x2000, 5)] ∧ t.mem = s.mem := by
  refine ⟨s.holdRelease o, congrArg _ (s.guard_ok hw), ?_, ?_, ?_, State.holdRelease_mem ..⟩ <;> rw [s.holdRelease_of_held o h]
  · rw [State.n_event_ne _ _ _ _ _ _ (by decide) (by decide), State.n_cnt_self]
  · rw [State.bit, State.n_event_self _ (by decide) (by decide), bitOf_or]
    exact Bool.or_true _
  · exact ((objectsKept_cnt s _ _).mono (by simp)).trans ((objectsKept_event _ _ _ _).mono (by simp))

/-! ### HOLD_ACK and HOLD_REQUEST (R76) -/

/-- With every condition over, an acknowledgement clears the latched reasons that it names: bits 1, 2, 3 and 7. -/
theorem State.holdAck_of_over (v : Nat) (hp : s.pw.pllLocked = true) (ht : s.pw.thermalHeld = false) (h2 : s.n 0x2004 2 = 0)
    (h3 : s.n 0x2004 3 = 0) (h4 : s.n 0x2004 4 = 0) (h5 : s.n 0x2004 5 = 0) : s.holdAck v = s.unhold (v &&& 0x8E) := by
  have hm : (v &&& 4) + (v &&& 2) + (v &&& 8) + (v &&& 0x80) = v &&& 0x8E := by
    rw [and_add_and_of_disjoint v (by decide), and_add_and_of_disjoint v (by decide), and_add_and_of_disjoint v (by decide)]
    rfl
  rw [← hm]
  unfold State.holdAck
  simp [hp, ht, h2, h3, h4, h5]

theorem holdAck_clears {p : Path} {v : Word} (hw : s.writeOk p 0x2001 3 v.toNat = true) (hp : s.pw.pllLocked = true)
    (ht : s.pw.thermalHeld = false) (h2 : s.n 0x2004 2 = 0) (h3 : s.n 0x2004 3 = 0) (h4 : s.n 0x2004 4 = 0)
    (h5 : s.n 0x2004 5 = 0) :
    ∃ t, exec (.holdAck p v) s = .next t ∧
      (∀ b < 32, t.bit 0x2001 2 b = (s.bit 0x2001 2 b && !(v.getLsbD b && (b == 1 || b == 2 || b == 3 || b == 7)))) ∧
      ObjectsKept s t [(0x2001, 2)] ∧ t.mem = s.mem := by
  refine ⟨s.holdAck v.toNat, congrArg _ (s.guard_ok hw), fun b hb => ?_, ?_, State.holdAck_mem ..⟩ <;>
    rw [s.holdAck_of_over _ hp ht h2 h3 h4 h5]
  · have hmask : ∀ b < 32, bitOf 0x8E b = (b == 1 || b == 2 || b == 3 || b == 7) := by decide
    rw [State.bit, State.n_unhold_self, bitOf_sub_and, bitOf_and, hmask b hb, bitOf_testBit v.toNat, BitVec.testBit_toNat]
    rfl
  · exact objectsKept_unhold s _

/-- A hold request sets its reason and drives HOLD_N low. -/
theorem holdRequest_holds {p : Path} (hw : s.writeOk p 0x2001 4 1 = true) :
    ∃ t, exec (.holdRequest p 1) s = .next t ∧ t.n 0x2001 4 = 1 ∧ t.bit 0x2001 2 5 = true ∧ t.n 0x2001 1 ≠ 1 ∧
      ObjectsKept s t [(0x2001, 4), (0x2001, 2), (0x2001, 1), (0x2000, 5)] := by
  refine ⟨(s.wr 0x2001 4 1).hold 0x20, congrArg _ (s.guard_ok hw), ?_, ?_, ?_, ?_⟩
  · rw [State.n_hold_ne _ _ (by decide) (by decide) (by decide) (by decide), State.n_wr_self_of_lt _ (by decide)]
  · rw [State.bit, State.n_hold_reason _ (by decide), bitOf_or]
    exact Bool.or_true _
  · rw [State.n_hold_pin]
    split
    · decide
    · assumption
  · exact ((objectsKept_wr s _ _ _).mono (by simp)).trans ((objectsKept_hold _ _).mono (by simp))

/-- The end of a hold request clears its reason; HOLD_N stays as it is until a release (R73). -/
theorem holdRequest_ends {p : Path} (hw : s.writeOk p 0x2001 4 0 = true) :
    ∃ t, exec (.holdRequest p 0) s = .next t ∧ t.n 0x2001 4 = 0 ∧ t.bit 0x2001 2 5 = false ∧ t.n 0x2001 1 = s.n 0x2001 1 ∧
      ObjectsKept s t [(0x2001, 4), (0x2001, 2)] := by
  refine ⟨(s.wr 0x2001 4 0).unhold 0x20, congrArg _ (s.guard_ok hw), ?_, ?_, ?_, ?_⟩
  · rw [State.n_unhold_ne _ _ (by decide), State.n_wr_self_of_lt _ (by decide)]
  · rw [State.bit, State.n_unhold_self, bitOf_sub_and]
    exact Bool.and_false _
  · rw [State.n_unhold_ne _ _ (by decide), State.n_wr_ne _ _ (by decide)]
  · exact ((objectsKept_wr s _ _ _).mono (by simp)).trans ((objectsKept_unhold _ _).mono (by simp))

end

/-- Settles O13, command by command: each clause is the lemma about its command and case. -/
theorem holdCommandsDriveThePin : Obligations.HoldCommandsDriveThePin := by
  unfold Obligations.HoldCommandsDriveThePin
  exact ⟨fun _ _ s hw hd hr => holdRelease_raises s hw hd hr, fun _ _ o s hw h => holdRelease_refused s o hw h,
    fun p _ o s hv => holdRelease_otherValue s p o hv, fun _ _ s hw hd hr => holdRelease_overtaken s hw hd hr,
    fun _ _ s hw hp ht h2 h3 h4 h5 => holdAck_clears s hw hp ht h2 h3 h4 h5, fun _ s hw => holdRequest_holds s hw,
    fun _ s hw => holdRequest_ends s hw⟩

end Sys2Proof.Machine
end

section
/-! SUPPORT. What STATE, the program counter and the pending cause of an engine are after each operation of engine control, and
what events and counters leave of the objects of the engines (0x2400–0x241F; R123–R129, R140, R141). -/

namespace Sys2Proof.Machine

variable (s : State) {e : Nat}

theorem coreIdx_engine (he : e < 32) : coreIdx e = 0x2400 + e := if_pos he

theorem State.coreState_engine (he : e < 32) : s.coreState e = s.n (0x2400 + e) 1 := by
  rw [State.coreState, coreIdx_engine he]

theorem State.pc_engine (he : e < 32) : s.pc e = s.n (0x2400 + e) 5 := by
  rw [State.pc, coreIdx_engine he]

/-! ### Events of an engine's facet -/

theorem State.n_engEvent_engine {d j : Nat} (b : Nat) (he : e < 32) (hd : d < 32) (hj : j < 256) :
    (s.engEvent e b).n (0x2400 + d) j = s.n (0x2400 + d) j :=
  s.n_event_ne _ _ _ _ _ (by unfold routeKey odKey; omega) (by unfold odKey; omega)

theorem State.bit_engEvent_self {b : Nat} (he : e < 32) (hb : b < 32) :
    (s.engEvent e b).bit (0x2440 + e / 4) 0x11 (b + e % 4) = true := by
  have hlt : 2 ^ (b + e % 4) < 2 ^ 64 := Nat.pow_lt_pow_right (by decide) (by omega)
  rw [State.bit, State.engEvent, State.n_event_self _ (by unfold routeKey odKey; omega) hlt, bitOf_or, bitOf_pow]
  simp

/-! ### A core driven to another state -/

/-- Core `e` enters state `st` with `why` as the cause of the halt to come and `w` as its wait. -/
def State.driveCore (s : State) (e st why : Nat) (w : WaitFor) : State :=
  (s.setCoreState e st).setEngine e { s.engine e with haltWhy := why, waiting := w }

section
variable {st why : Nat} {w : WaitFor}

theorem State.coreState_driveCore (h : st < 2 ^ 64) : (s.driveCore e st why w).coreState e = st :=
  s.n_wr_self_of_lt h

@[simp] theorem State.pc_driveCore : (s.driveCore e st why w).pc e = s.pc e :=
  s.n_wr_ne _ (by unfold odKey; omega)

@[simp] theorem State.engine_driveCore :
    (s.driveCore e st why w).engine e = { s.engine e with haltWhy := why, waiting := w } := by
  rw [State.driveCore, State.setEngine_engine, if_pos rfl]

@[simp] theorem State.mem_driveCore : (s.driveCore e st why w).mem = s.mem := by
  simp [State.driveCore, State.setCoreState]

theorem objectsKept_driveCore : ObjectsKept s (s.driveCore e st why w) [(coreIdx e, 1)] :=
  objectsKept_wr s _ _ _

end

/-! ### RUN, STEP, HALT and LOAD by the state they meet (R124, R126, R129, R134, R135) -/

section
variable {s}

theorem State.doRun_of_stopped (h : s.coreState e = 0 ∨ s.coreState e = 3) (hr : (s.engine e).needReload = false) :
    s.doRun e = s.driveCore e 1 0 .none := if_pos ⟨h, hr⟩

theorem State.doStep_of_stopped (h : s.coreState e = 0 ∨ s.coreState e = 3) (hr : (s.engine e).needReload = false) :
    s.doStep e = s.driveCore e 1 7 .none := if_pos ⟨h, hr⟩

theorem State.doRun_of_busy (h : s.coreState e = 1 ∨ s.coreState e = 4) : s.doRun e = s :=
  if_neg fun hc => by omega

theorem State.doStep_of_busy (h : s.coreState e = 1 ∨ s.coreState e = 4) : s.doStep e = s :=
  if_neg fun hc => by omega

theorem State.doHalt_of_running (h : s.coreState e = 1) : s.doHalt e = s.haltPending e 1 := if_pos h

theorem State.doHalt_of_not_running (h : s.coreState e ≠ 1) : s.doHalt e = s := if_neg h

theorem State.haltPending_eq (why : Nat) : s.haltPending e why =
    s.driveCore e 2 why (if waitStays (s.engine e).waiting then (s.engine e).waiting else .none) := rfl

theorem State.doLoad_of_stopped (h : s.coreState e = 0 ∨ s.coreState e = 3) (hi : s.n (0x2400 + e) 3 ≠ 0) :
    s.doLoad e = s.setCoreState e 4 := by
  unfold State.doLoad
  rw [if_neg (by omega), if_neg (by omega)]

theorem State.doLoad_of_running (h : s.coreState e = 1 ∨ s.coreState e = 2) : s.doLoad e = s.wr (0x2400 + e) 0xD 5 := if_pos h

theorem State.doLoad_of_loading (h : s.coreState e = 4) : s.doLoad e = s := by
  unfold State.doLoad
  rw [if_neg (by omega), if_pos (.inl h)]

end

/-! ### A halt completed (R123, R141) -/

theorem State.coreState_halted (he : e < 32) : (s.halted e).coreState e = 0 := by
  rw [State.coreState_engine _ he, State.halted, State.n_engEvent_engine _ _ he he (by decide), State.n_setEngine,
    State.n_wr_ne _ _ (by unfold odKey; omega), State.setCoreState, coreIdx_engine he,
    State.n_wr_self_of_lt _ (by decide)]

theorem State.n_halted_cause (he : e < 32) (hw : (s.engine e).haltWhy < 2 ^ 64) :
    (s.halted e).n (0x2400 + e) 6 = (s.engine e).haltWhy := by
  rw [State.halted, State.n_engEvent_engine _ _ he he (by decide), State.n_setEngine, State.n_wr_self_of_lt _ hw]

theorem State.pc_halted (he : e < 32) : (s.halted e).pc e = s.pc e := by
  rw [State.pc_engine _ he, State.pc_engine _ he, State.halted, State.n_engEvent_engine _ _ he he (by decide), State.n_setEngine,
    State.n_wr_ne _ _ (by unfold odKey; omega), State.setCoreState, coreIdx_engine he, State.n_wr_ne _ _ (by unfold odKey; omega)]

/-! ### A missed heartbeat (R128) -/

/-- A missed heartbeat counted and shown, before HB_ACTION. -/
def State.missBeat (s : State) (e : Nat) : State := (s.cnt (0x2400 + e) 0xC).engEvent e 4

theorem State.n_missBeat_count (he : e < 32) :
    (s.missBeat e).n (0x2400 + e) 0xC = (s.n (0x2400 + e) 0xC + 1) % 2 ^ 32 := by
  rw [State.missBeat, State.n_engEvent_engine _ _ he he (by decide), State.n_cnt_self]

theorem State.n_missBeat_ne {j : Nat} (he : e < 32) (hj : j < 256) (hc : j ≠ 0xC) :
    (s.missBeat e).n (0x2400 + e) j = s.n (0x2400 + e) j := by
  rw [State.missBeat, State.n_engEvent_engine _ _ he he hj, State.n_cnt_ne _ (by unfold odKey; omega)]

theorem State.bit_missBeat (he : e < 32) : (s.missBeat e).bit (0x2440 + e / 4) 0x11 (4 + e % 4) = true :=
  State.bit_engEvent_self _ he (by decide)

@[simp] theorem State.mem_missBeat : (s.missBeat e).mem = s.mem := by
  simp [State.missBeat]

/-! ### The restart of a facet (R129) -/

/-- What the restart of facet `f` does for its engine `k`: bindings in effect, and the load of its image. -/
def State.restartEngine (s : State) (f k : Nat) : State :=
  let e := 4 * f + k
  let s := s.setEngine e { s.engine e with rxBound := s.n (0x2440 + f) (1 + k), txBound := s.n (0x2440 + f) (5 + k) }
  if s.n (0x2400 + e) 3 ≠ 0 && s.coreState e = 0 then s.setCoreState e 4 else s

/-- A restart restores the binding objects, then restarts the facet's engines in turn. -/
theorem State.dbeRestart_eq (f : Nat) : ∃ vals : Tbl DWord, s.dbeRestart f =
    (List.range 4).foldl (fun s k => s.restartEngine f k) ((List.range 8).foldl
      (fun s j => s.wrD (0x2440 + f) (j + 1) (tblGet odDefault (odKey (0x2440 + f) (j + 1)) vals)) s) := by
  unfold State.dbeRestart State.restartEngine
  exact ⟨_, rfl⟩

theorem State.coreState_restartEngine_self {f k : Nat} (hi : s.n (0x2400 + (4 * f + k)) 3 ≠ 0) (hc : s.coreState (4 * f + k) = 0) :
    (s.restartEngine f k).coreState (4 * f + k) = 4 := by
  unfold State.restartEngine
  extract_lets e _ t
  have ht : (t.n (0x2400 + e) 3 ≠ 0 && t.coreState e = 0) = true := by
    simp only [Bool.and_eq_true, decide_eq_true_eq]
    exact ⟨hi, hc⟩
  rw [if_pos ht]
  exact t.n_wr_self_of_lt (by decide)

theorem State.n_restartEngine_ne {f k i j : Nat} (h : odKey i j ≠ odKey (coreIdx (4 * f + k)) 1) :
    (s.restartEngine f k).n i j = s.n i j := by
  unfold State.restartEngine
  extract_lets e _ t
  split
  · exact t.n_wr_ne _ h
  · rfl

theorem State.coreState_dbeRestart {f : Nat} (hf : f < 8) (hi : s.n (0x2400 + 4 * f) 3 ≠ 0) (hc : s.coreState (4 * f) = 0) :
    (s.dbeRestart f).coreState (4 * f) = 4 := by
  obtain ⟨vals, heq⟩ := s.dbeRestart_eq f
  rw [heq]
  generalize hu : (List.range 8).foldl _ s = u
  have hn : ∀ i < 0x2440, ∀ j < 256, u.n i j = s.n i j := fun i h j hj => by
    rw [← hu]
    exact State.n_foldl' (fun t k hk => t.n_wrD_ne _ (by have := List.mem_range.mp hk; unfold odKey; omega)) s
  have hcore : u.coreState (4 * f) = 0 := by
    rw [State.coreState_engine _ (by omega), hn _ (by omega) _ (by decide), ← State.coreState_engine _ (by omega), hc]
  have himage : u.n (0x2400 + 4 * f) 3 ≠ 0 := by rwa [hn _ (by omega) _ (by decide)]
  have hrest : ∀ (t : State), ∀ k ∈ [1, 2, 3], (t.restartEngine f k).coreState (4 * f) = t.coreState (4 * f) := fun t k hk => by
    refine t.n_restartEngine_ne ?_
    have hk : 1 ≤ k ∧ k ≤ 3 := by simp at hk; omega
    rw [coreIdx_engine (by omega), coreIdx_engine (by omega)]
    unfold odKey
    omega
  rw [show List.range 4 = 0 :: [1, 2, 3] from rfl, List.foldl_cons]
  exact (State.n_foldl' hrest _).trans (u.coreState_restartEngine_self himage hcore)

end Sys2Proof.Machine
end

section
/-! What the commands of engine control do (R123–R129, R134, R135): one lemma per command and case, and O19. -/

namespace Sys2Proof.Machine

section
variable {s : State} {p : Path} {e : Fin 32}

/-! ### Accepted writes of COMMAND (R140) -/

theorem exec_engineRun (hw : s.writeOk p (0x2400 + e.val) 2 1 = true) : exec (.engineRun p e) s = .next (s.doRun e) :=
  congrArg _ (s.guard_ok hw)

theorem exec_engineStep (hw : s.writeOk p (0x2400 + e.val) 2 3 = true) : exec (.engineStep p e) s = .next (s.doStep e) :=
  congrArg _ (s.guard_ok hw)

theorem exec_engineHalt (hw : s.writeOk p (0x2400 + e.val) 2 2 = true) : exec (.engineHalt p e) s = .next (s.doHalt e) :=
  congrArg _ (s.guard_ok hw)

theorem exec_engineLoad (hw : s.writeOk p (0x2400 + e.val) 2 4 = true) : exec (.engineLoad p e) s = .next (s.doLoad e) :=
  congrArg _ (s.guard_ok hw)

theorem engineRun_starts (hw : s.writeOk p (0x2400 + e.val) 2 1 = true) (hc : s.coreState e = 0 ∨ s.coreState e = 3)
    (hr : (s.engine e).needReload = false) :
    ∃ t, exec (.engineRun p e) s = .next t ∧ t.coreState e = 1 ∧ (t.engine e).haltWhy = 0 ∧
      (t.engine e).regs = (s.engine e).regs ∧ ObjectsKept s t [(coreIdx e, 1)] ∧ t.mem = s.mem := by
  refine ⟨_, exec_engineRun hw, ?_⟩
  rw [State.doRun_of_stopped hc hr, State.engine_driveCore]
  exact ⟨s.coreState_driveCore (by decide), rfl, rfl, objectsKept_driveCore s, s.mem_driveCore⟩

theorem engineStep_starts (hw : s.writeOk p (0x2400 + e.val) 2 3 = true) (hc : s.coreState e = 0 ∨ s.coreState e = 3)
    (hr : (s.engine e).needReload = false) :
    ∃ t, exec (.engineStep p e) s = .next t ∧ t.coreState e = 1 ∧ (t.engine e).haltWhy = 7 ∧
      (t.engine e).regs = (s.engine e).regs ∧ ObjectsKept s t [(coreIdx e, 1)] ∧ t.mem = s.mem := by
  refine ⟨_, exec_engineStep hw, ?_⟩
  rw [State.doStep_of_stopped hc hr, State.engine_driveCore]
  exact ⟨s.coreState_driveCore (by decide), rfl, rfl, objectsKept_driveCore s, s.mem_driveCore⟩

theorem engineHalt_pends (hw : s.writeOk p (0x2400 + e.val) 2 2 = true) (hc : s.coreState e = 1) :
    ∃ t, exec (.engineHalt p e) s = .next t ∧ t.coreState e = 2 ∧ (t.engine e).haltWhy = 1 ∧ t.pc e = s.pc e ∧
      ObjectsKept s t [(coreIdx e, 1)] ∧ t.mem = s.mem := by
  refine ⟨_, exec_engineHalt hw, ?_⟩
  rw [State.doHalt_of_running hc, State.haltPending_eq, State.engine_driveCore]
  exact ⟨s.coreState_driveCore (by decide), rfl, s.pc_driveCore, objectsKept_driveCore s, s.mem_driveCore⟩

theorem engineLoad_starts (hw : s.writeOk p (0x2400 + e.val) 2 4 = true) (hc : s.coreState e = 0 ∨ s.coreState e = 3)
    (hi : s.n (0x2400 + e.val) 3 ≠ 0) :
    ∃ t, exec (.engineLoad p e) s = .next t ∧ t.coreState e = 4 ∧ t.eng = s.eng ∧ ObjectsKept s t [(coreIdx e, 1)] ∧
      t.mem = s.mem := by
  refine ⟨_, exec_engineLoad hw, ?_⟩
  rw [State.doLoad_of_stopped hc hi]
  exact ⟨s.n_wr_self_of_lt (by decide), s.wr_eng .., objectsKept_wr s _ _ _, s.wr_mem ..⟩

/-- A LOAD of a RUNNING or HALTING engine is refused with LOAD_STATUS 5 (R135). -/
theorem engineLoad_refused (hw : s.writeOk p (0x2400 + e.val) 2 4 = true) (hc : s.coreState e = 1 ∨ s.coreState e = 2) :
    ∃ t, exec (.engineLoad p e) s = .next t ∧ t.n (0x2400 + e.val) 0xD = 5 ∧ t.coreState e = s.coreState e ∧ t.eng = s.eng ∧
      ObjectsKept s t [(0x2400 + e.val, 0xD)] ∧ t.mem = s.mem := by
  refine ⟨_, exec_engineLoad hw, ?_⟩
  rw [State.doLoad_of_running hc]
  refine ⟨s.n_wr_self_of_lt (by decide), s.n_wr_ne _ ?_, s.wr_eng .., objectsKept_wr s _ _ _, s.wr_mem ..⟩
  rw [coreIdx_engine e.isLt]
  unfold odKey
  omega

/-! ### ENGINE_HALTED, the heartbeat and the restart of a facet -/

/-- A pending halt completes when nothing is posted and no instruction waits (R123, R124). -/
theorem engineHalted_completes (hc : s.coreState e = 2) (hp : (s.engine e).posted = []) (hw : (s.engine e).waiting = .none)
    (hy : (s.engine e).haltWhy < 256) :
    ∃ t, exec (.engineHalted e) s = .next t ∧ t.coreState e = 0 ∧ t.n (0x2400 + e.val) 6 = (s.engine e).haltWhy ∧
      t.bit (0x2440 + e.val / 4) 0x11 (8 + e.val % 4) = true ∧ t.pc e = s.pc e ∧ t.mem = s.mem := by
  refine ⟨s.halted e, congrArg _ (if_pos ?_), s.coreState_halted e.isLt, s.n_halted_cause e.isLt (by omega),
    State.bit_engEvent_self _ e.isLt (by decide), s.pc_halted e.isLt, s.halted_mem e⟩
  rw [hc, hp, hw]
  rfl

/-- A period without a heartbeat of a RUNNING engine counts a miss and takes HB_ACTION (R128). -/
theorem exec_hbPeriodExpiry (h9 : s.n (0x2400 + e.val) 9 ≠ 0) (hc : s.coreState e = 1) :
    exec (.hbPeriodExpiry e) s = .next (if s.n (0x2400 + e.val) 0xA = 1 then (s.missBeat e).haltPending e 4
      else if s.n (0x2400 + e.val) 0xA = 2 then (s.missBeat e).facetReset (e.val / 4) 0 1 else s.missBeat e) := by
  have hpos : (s.n (0x2400 + e.val) 9 ≠ 0 && s.coreState e = 1) = true := by simp [h9, hc]
  rw [← s.n_missBeat_ne e.isLt (j := 0xA) (by decide) (by decide)]
  exact congrArg _ (if_pos hpos)

theorem hbPeriodExpiry_counts (h9 : s.n (0x2400 + e.val) 9 ≠ 0) (hc : s.coreState e = 1) (ha : s.n (0x2400 + e.val) 0xA = 0) :
    ∃ t, exec (.hbPeriodExpiry e) s = .next t ∧ t.n (0x2400 + e.val) 0xC = (s.n (0x2400 + e.val) 0xC + 1) % 2 ^ 32 ∧
      t.bit (0x2440 + e.val / 4) 0x11 (4 + e.val % 4) = true ∧ t.coreState e = 1 ∧ t.mem = s.mem := by
  refine ⟨s.missBeat e, ?_, s.n_missBeat_count e.isLt, s.bit_missBeat e.isLt, ?_, s.mem_missBeat⟩
  · rw [exec_hbPeriodExpiry h9 hc, ha, if_neg (by decide), if_neg (by decide)]
  · rw [State.coreState_engine _ e.isLt, s.n_missBeat_ne e.isLt (by decide) (by decide), ← State.coreState_engine _ e.isLt, hc]

theorem hbPeriodExpiry_halts (h9 : s.n (0x2400 + e.val) 9 ≠ 0) (hc : s.coreState e = 1) (ha : s.n (0x2400 + e.val) 0xA = 1) :
    ∃ t, exec (.hbPeriodExpiry e) s = .next t ∧ t.coreState e = 2 ∧ (t.engine e).haltWhy = 4 ∧ t.mem = s.mem := by
  refine ⟨(s.missBeat e).haltPending e 4, ?_, ?_⟩
  · rw [exec_hbPeriodExpiry h9 hc, if_pos ha]
  · rw [State.haltPending_eq, State.engine_driveCore]
    exact ⟨State.coreState_driveCore _ (by decide), rfl, (State.mem_driveCore _).trans s.mem_missBeat⟩

theorem facetDbeRestart_loads {f : Fin 8} (h15 : s.n (0x2440 + f.val) 0x15 = 1) (hb : s.bit 0x2003 5 f = true)
    (hr : (s.engine (4 * f.val)).needReload = true) (hi : s.n (0x2400 + 4 * f.val) 3 ≠ 0) (hc : s.coreState (4 * f.val) = 0) :
    ∃ t, exec (.facetDbeRestart f) s = .next t ∧ t.coreState (4 * f.val) = 4 ∧ t.mem = s.mem := by
  have hgo : (s.n (0x2440 + f.val) 0x15 = 1 && s.bit 0x2003 5 f && (s.engine (4 * f.val)).needReload) = true := by
    simp [h15, hb, hr]
  have hex : execFacetDbeRestart f s = .next (s.dbeRestart f) := by
    rw [execFacetDbeRestart, if_pos hgo]
  exact ⟨s.dbeRestart f, hex, s.coreState_dbeRestart f.isLt hi hc, s.dbeRestart_mem f⟩

end

/-- Settles O19, command by command: each clause is the lemma about its command and the state that it meets. -/
theorem engineCommandsMoveTheState : Obligations.EngineCommandsMoveTheState := by
  unfold Obligations.EngineCommandsMoveTheState
  refine ⟨fun _ _ _ hw hc hr => engineRun_starts hw hc hr, fun _ _ _ hw hc hr => engineStep_starts hw hc hr,
    fun _ _ _ hw hc => engineHalt_pends hw hc, fun _ _ _ hw hc hi => engineLoad_starts hw hc hi,
    fun _ _ _ hw hc => engineLoad_refused hw hc, fun _ _ _ => ⟨fun hw hc => ?run, fun hw hc => ?step, fun hw hc => ?halt,
      fun hw hc => ?load⟩, fun _ _ hc hp hw hy => engineHalted_completes hc hp hw hy,
    fun _ _ h9 hc ha => hbPeriodExpiry_counts h9 hc ha, fun _ _ h9 hc ha => hbPeriodExpiry_halts h9 hc ha,
    fun _ _ h15 hb hr hi hc => facetDbeRestart_loads h15 hb hr hi hc⟩
  case run => rw [exec_engineRun hw, State.doRun_of_busy hc]
  case step => rw [exec_engineStep hw, State.doStep_of_busy hc]
  case halt => rw [exec_engineHalt hw, State.doHalt_of_not_running (by omega)]
  case load => rw [exec_engineLoad hw, State.doLoad_of_loading hc]

end Sys2Proof.Machine
end

section
/-! What the flags of `a − b` say of `a` and `b` (R149), each condition of R150 after them, where a conditional branch goes (R156,
R166), and O24. -/

namespace Sys2Proof.Machine

theorem subR_false (a b : Word) : subR a b false = a - b := BitVec.sub_zero (a - b)

theorem subR_false_eq_zero_iff (a b : Word) : subR a b false = 0 ↔ a = b := by
  have hzero : (0 : Word) + b = b := BitVec.zero_add b
  rw [subR_false, BitVec.sub_eq_iff_eq_add, hzero]

/-- V of a subtraction without borrow is the signed overflow of the library. -/
theorem subV_false (a b : Word) : subV a b false = a.ssubOverflow b := by
  rw [BitVec.ssubOverflow_eq, subV, subR_false]
  cases a.msb <;> cases b.msb <;> cases (a - b).msb <;> rfl

/-- The difference taken modulo 2^32 has the sign of the true one exactly where it does not overflow. -/
theorem msb_sub_bne_ssubOverflow (a b : Word) : ((a - b).msb != a.ssubOverflow b) = decide (a.toInt < b.toInt) := by
  rw [BitVec.msb_eq_toInt]
  by_cases ho : a.ssubOverflow b = true
  · have hmod : (a - b).toInt = (a.toInt - b.toInt).bmod (2 ^ 32) := BitVec.toInt_sub
    have hout : 2 ^ 31 ≤ a.toInt - b.toInt ∨ a.toInt - b.toInt < -2 ^ 31 := by
      simpa only [BitVec.ssubOverflow, Bool.or_eq_true, decide_eq_true_eq] using ho
    have ha := a.le_toInt
    have ha' := a.toInt_lt
    have hb := b.le_toInt
    have hb' := b.toInt_lt
    rw [ho, Bool.bne_true, ← decide_not, decide_eq_decide, hmod, Int.bmod_def]
    omega
  · rw [BitVec.toInt_sub_of_not_ssubOverflow ho, Bool.eq_false_iff.mpr ho, Bool.bne_false, decide_eq_decide]
    omega

section
variable (e : Engine) (a b : Word)

/-! ### The flags of a comparison -/

@[simp] theorem z_flagsSub_false : (e.flagsSub a b false).z = decide (a = b) := by
  change decide (subR a b false = 0) = _
  rw [decide_eq_decide, subR_false_eq_zero_iff]

@[simp] theorem c_flagsSub (k : Bool) : (e.flagsSub a b k).c = decide (a.toNat < b.toNat + k.toNat) := rfl

@[simp] theorem c_flagsAdd (k : Bool) : (e.flagsAdd a b k).c = decide (2 ^ 32 ≤ a.toNat + b.toNat + k.toNat) := rfl

theorem n_bne_v_flagsSub_false :
    ((e.flagsSub a b false).n != (e.flagsSub a b false).v) = decide (a.toInt < b.toInt) := by
  change ((subR a b false).msb != subV a b false) = _
  rw [subR_false, subV_false, msb_sub_bne_ssubOverflow]

theorem n_beq_v_flagsSub_false :
    ((e.flagsSub a b false).n == (e.flagsSub a b false).v) = decide (b.toInt ≤ a.toInt) := by
  have hne := n_bne_v_flagsSub_false e a b
  rw [bne, Bool.not_eq_eq_eq_not] at hne
  rw [hne, ← decide_not, decide_eq_decide, Int.not_lt]

/-! ### The conditions of R150 after a comparison -/

theorem cond_nz_flagsSub : (e.flagsSub a b false).cond 2 = decide (a ≠ b) := by
  change (!(e.flagsSub a b false).z) = _
  rw [z_flagsSub_false, ← decide_not]

theorem cond_ult_flagsSub : (e.flagsSub a b false).cond 3 = decide (a.toNat < b.toNat) := rfl

theorem cond_uge_flagsSub : (e.flagsSub a b false).cond 4 = decide (b.toNat ≤ a.toNat) := by
  change (!decide (a.toNat < b.toNat)) = _
  rw [← decide_not, decide_eq_decide, Nat.not_lt]

theorem cond_ule_flagsSub : (e.flagsSub a b false).cond 6 = decide (a.toNat ≤ b.toNat) := by
  change ((e.flagsSub a b false).c || (e.flagsSub a b false).z) = _
  rw [c_flagsSub, z_flagsSub_false, ← Bool.decide_or, decide_eq_decide, ← BitVec.toNat_inj, Bool.toNat_false, Nat.add_zero,
    Nat.le_iff_lt_or_eq]

theorem cond_ugt_flagsSub : (e.flagsSub a b false).cond 5 = decide (b.toNat < a.toNat) := by
  have hnot : (e.flagsSub a b false).cond 5 = !(e.flagsSub a b false).cond 6 := (Bool.not_or _ _).symm
  rw [hnot, cond_ule_flagsSub, ← decide_not, decide_eq_decide, Nat.not_le]

theorem cond_sle_flagsSub : (e.flagsSub a b false).cond 10 = decide (a.toInt ≤ b.toInt) := by
  change ((e.flagsSub a b false).z || (e.flagsSub a b false).n != (e.flagsSub a b false).v) = _
  rw [z_flagsSub_false, n_bne_v_flagsSub_false, ← Bool.decide_or, decide_eq_decide, ← BitVec.toInt_inj, Int.le_iff_eq_or_lt]

theorem cond_sgt_flagsSub : (e.flagsSub a b false).cond 9 = decide (b.toInt < a.toInt) := by
  change (!(e.flagsSub a b false).z && (e.flagsSub a b false).n == (e.flagsSub a b false).v) = _
  rw [z_flagsSub_false, n_beq_v_flagsSub_false, ← decide_not, ← Bool.decide_and, decide_eq_decide, ← BitVec.toInt_inj]
  omega

end

/-! ### The word of a branch, and where it goes (R150, R156, R166) -/

theorem engDecode_bCond_reserved {apex : Bool} {w : Word} (ho : opOf w = 0x20) (hr : rdOf w = 15) : engDecode apex w = none := by
  simp only [engDecode, ho, hr, okIf, ne_eq, not_true_eq_false, decide_false, Bool.and_false, Bool.false_eq_true, if_false]

theorem State.jump_inCode {s : State} {c : Fin 33} {x : Int} (h : InCode s c x) : s.jump c x = s.finish c x.toNat := by
  obtain ⟨h0, hlt, hwords⟩ := h
  unfold State.jump
  split
  · rw [Int.emod_eq_of_lt h0 hlt]
  · have hin := hwords (by omega)
    rw [if_pos ⟨h0, by omega⟩]

section
variable {s : State} {c : Fin 33} {o : EOp} {w : Word}

/-- An instruction that only moves the program counter completes with its core as it was. -/
theorem coreStep_finish {pc : Nat} (h : Executes s c o w) (hpc : pc < 2 ^ 64) : CoreStep s (s.finish c pc) c pc (s.engine c) := by
  obtain ⟨hrun, hwait, _⟩ := h
  obtain ⟨hpc, hstate, heng, hkept, hmem⟩ := State.finish_spec s c pc hrun hpc
  refine ⟨⟨hpc, hstate, fun e he => ?_, hkept⟩, hmem, ?_⟩
  · rw [heng, if_neg he]
  · rw [heng, if_pos rfl, ← hwait]

theorem coreStep_jump {x : Int} (h : Executes s c o w) (hx : InCode s c x) :
    CoreStep s (s.jump c x) c x.toNat (s.engine c) := by
  rw [State.jump_inCode hx]
  obtain ⟨_, hlt, _⟩ := hx
  exact coreStep_finish h (by omega)

theorem coreStep_next (h : Executes s c o w) : CoreStep s (s.finish c (s.pcNext c)) c (s.pcNext c) (s.engine c) := by
  have ⟨_, _, hpc, _⟩ := h
  exact coreStep_finish h (s.pcNext_lt c hpc)

theorem exec_bCond (h : Executes s c .bCond w) : exec (.bCond c) s = .next
    (if (s.engine c).cond (rdOf w) then s.jump c (brTarget w (s.pc c)) else s.finish c (s.pcNext c)) :=
  congrArg _ (State.runOp_go h)

theorem bCond_taken (h : Executes s c .bCond w) (hc : (s.engine c).cond (rdOf w) = true)
    (hx : InCode s c (brTarget w (s.pc c))) :
    ∃ t, exec (.bCond c) s = .next t ∧ CoreStep s t c (brTarget w (s.pc c)).toNat (s.engine c) :=
  ⟨_, by rw [exec_bCond h, if_pos hc], coreStep_jump h hx⟩

theorem bCond_notTaken (h : Executes s c .bCond w) (hc : (s.engine c).cond (rdOf w) = false) :
    ∃ t, exec (.bCond c) s = .next t ∧ CoreStep s t c (s.pcNext c) (s.engine c) :=
  ⟨_, by rw [exec_bCond h, hc, if_neg Bool.false_ne_true], coreStep_next h⟩

end

/-- Settles O24: the table is the definition of the conditions, each name after a comparison is the lemma about its condition, and a
branch goes where its condition sends it. -/
theorem conditionsAfterACompareMeanTheirNames : Obligations.ConditionsAfterACompareMeanTheirNames := by
  unfold Obligations.ConditionsAfterACompareMeanTheirNames
  exact fun e a b => ⟨rfl, z_flagsSub_false e a b, cond_nz_flagsSub e a b, cond_ult_flagsSub e a b, cond_uge_flagsSub e a b,
    cond_ugt_flagsSub e a b, cond_ule_flagsSub e a b, n_bne_v_flagsSub_false e a b, n_beq_v_flagsSub_false e a b,
    cond_sgt_flagsSub e a b, cond_sle_flagsSub e a b,
    ⟨rfl, rfl, rfl, rfl, rfl, rfl, rfl, rfl, rfl, rfl, rfl, rfl, rfl, rfl, rfl⟩,
    fun k => ⟨c_flagsSub e a b k, c_flagsAdd e a b k⟩, fun _ _ ho hr => engDecode_bCond_reserved ho hr,
    fun _ _ _ h => ⟨fun hc hx => bCond_taken h hc hx, fun hc => bCond_notTaken h hc⟩⟩

end Sys2Proof.Machine
end

section
/-! SUPPORT. What the objects and the pending bits of a mailbox channel are after each operation of spec/18: the lock, a post, the
doorbells, the mask, and the release of a reset owner's lock (R478–R488). -/

namespace Sys2Proof.Machine

section
variable (s : State) {c : Nat}

theorem odKey_ne_of_sub {i a b : Nat} (h : a ≠ b) : odKey i a ≠ odKey i b := by unfold odKey; omega

theorem State.bit_event_self {i j b : Nat} (h : ¬ routeKey (odKey i j)) (hb : b < 64) :
    (s.event i j (2 ^ b)).bit i j b = true := by
  rw [State.bit, State.n_event_self _ h (Nat.pow_lt_pow_right (by decide) hb), bitOf_or, bitOf_pow, decide_eq_true rfl,
    Bool.or_true]

theorem leBytes_zero_four : leBytes 0 4 = [0, 0, 0, 0] := by decide

/-! ### The channel beyond its objects -/

theorem State.chan_congr {s t : State} (h : t.mbox = s.mbox) (c : Nat) : t.chan c = s.chan c := by
  unfold State.chan; rw [h]

@[simp] theorem State.chan_setChan (m : Mbox) : (s.setChan c m).chan c = m := tblGet_set_self ..
@[simp] theorem State.chan_wr (i j v : Nat) : (s.wr i j v).chan c = s.chan c := rfl
@[simp] theorem State.chan_cnt (i j : Nat) : (s.cnt i j).chan c = s.chan c := rfl

/-! ### Notification (R484) -/

@[simp] theorem State.n_mboxServe (was : Word) (again : Bool) (i j : Nat) : (s.mboxServe c was again).n i j = s.n i j := by
  unfold State.mboxServe
  split
  · exact s.n_msix ..
  · rfl

@[simp] theorem State.chan_mboxServe (was : Word) (again : Bool) : (s.mboxServe c was again).chan c = s.chan c :=
  State.chan_congr (by unfold State.mboxServe; split <;> simp) c

/-! ### The lock (R478) -/

variable {m : Nat}

theorem State.lockRead_free (h : s.n (0x2C10 + c) 7 = 0) : s.lockRead c m = (0, s.wr (0x2C10 + c) 7 m) := if_pos h

theorem State.lockRead_owner (h : s.n (0x2C10 + c) 7 = m) (hm : m ≠ 0) : s.lockRead c m = (0, s) :=
  (if_neg (h ▸ hm)).trans (if_pos h)

theorem State.lockRead_other (h0 : s.n (0x2C10 + c) 7 ≠ 0) (hm : s.n (0x2C10 + c) 7 ≠ m) :
    s.lockRead c m = (s.n (0x2C10 + c) 7, s.cnt (0x2C10 + c) 0x10) :=
  (if_neg h0).trans (if_neg hm)

/-- The three cases of a read of LOCK in one: its answer, the owner and the count of refused reads after it. -/
theorem State.lockRead_spec (c : Nat) (hm : m < 2 ^ 64) :
    let i := 0x2C10 + c
    let o := s.n i 7
    (s.lockRead c m).1 = (if o = m then 0 else o) ∧ (s.lockRead c m).2.n i 7 = (if o = 0 then m else o) ∧
      (s.lockRead c m).2.n i 0x10 = (if o = 0 ∨ o = m then s.n i 0x10 else (s.n i 0x10 + 1) % 2 ^ 32) ∧
      ObjectsKept s (s.lockRead c m).2 [(i, 7), (i, 0x10)] := by
  intro i o
  by_cases h0 : o = 0
  · rw [s.lockRead_free h0, if_pos h0, if_pos (Or.inl h0 : o = 0 ∨ o = m), h0]
    exact ⟨(ite_self 0).symm, s.n_wr_self_of_lt hm, s.n_wr_ne _ (odKey_ne_of_sub (by decide)),
      (objectsKept_wr s i 7 m).mono (by simp)⟩
  by_cases ho : o = m
  · rw [s.lockRead_owner ho (ho ▸ h0), if_pos ho, if_neg h0, if_pos (Or.inr ho : o = 0 ∨ o = m)]
    exact ⟨rfl, rfl, rfl, fun _ _ _ _ => rfl⟩
  · rw [s.lockRead_other h0 ho, if_neg ho, if_neg h0, if_neg (not_or.mpr ⟨h0, ho⟩)]
    exact ⟨rfl, s.n_cnt_ne (odKey_ne_of_sub (by decide)), s.n_cnt_self .., (objectsKept_cnt s i 0x10).mono (by simp)⟩

@[simp] theorem State.lockRead_eng : (s.lockRead c m).2.eng = s.eng := by
  unfold State.lockRead
  dsimp only
  split
  · simp
  · split <;> simp

/-- A write that the OD accepts meets what spec/18 asks of it. -/
theorem State.condMbox_of_writeOk {p : Path} {i j v : Nat} (h : s.writeOk p i j v = true) : s.condMbox p i j v = true := by
  unfold State.writeOk at h
  split at h
  · simp at h
  · simp only [Bool.and_eq_true, State.odCond] at h
    obtain ⟨-, -, ⟨⟨⟨-, hmbox⟩, -⟩, -⟩, -⟩ := h
    exact hmbox

/-- LOCK takes only the owner's write of 0 (R38, R478). -/
theorem State.writeOk_lock {p : Path} {c : Fin 48} {v : Nat} (h : s.writeOk p (0x2C10 + c.val) 6 v = true) :
    v = 0 ∧ s.n (0x2C10 + c.val) 7 = p.id.val := by
  have hi : chanOf (0x2C10 + c.val) = some c.val := by
    unfold chanOf
    rw [if_pos (by omega), Nat.add_sub_cancel_left]
  have hc := s.condMbox_of_writeOk h
  simp only [State.condMbox, hi, Nat.reduceLeDiff, and_false, if_true, if_false, Bool.and_eq_true, decide_eq_true_eq] at hc
  obtain ⟨-, hv, -⟩ := hc
  exact hv

/-! ### Posts (R480) -/

theorem State.post_of_posted (bits : Word) (len : Nat) (h : s.n (0x2C10 + c) 0xA = 2) :
    s.post c bits len = ((s.setChan c { s.chan c with bits := (s.chan c).bits ||| bits }).cnt (0x2C10 + c) 0xF).mboxServe c
      (s.unmasked c) true := by
  unfold State.post
  dsimp only
  rw [if_pos h]

theorem State.post_of_not_posted (bits : Word) (len : Nat) (h : s.n (0x2C10 + c) 0xA ≠ 2) :
    s.post c bits len = ((((s.wr (0x2C10 + c) 0xA 2).wr (0x2C10 + c) 0xB len).setChan c { s.chan c with
      bits := (s.chan c).bits ||| bits, crc := crc32c (s.bytes (areaOf c) len) }).cnt (0x2C10 + c) 0xF).mboxServe c
      (s.unmasked c) true := by
  unfold State.post
  dsimp only
  rw [if_neg h]

theorem State.bits_post (c : Nat) (bits : Word) (len : Nat) : ((s.post c bits len).chan c).bits = (s.chan c).bits ||| bits := by
  by_cases h : s.n (0x2C10 + c) 0xA = 2
  · simp [s.post_of_posted bits len h]
  · simp [s.post_of_not_posted bits len h]

/-- A post makes the channel POSTED and is counted; only the first one gives the message its length. -/
theorem State.n_post (c : Nat) (bits : Word) {len : Nat} (hl : len < 2 ^ 64) :
    let i := 0x2C10 + c
    (s.post c bits len).n i 0xA = 2 ∧ (s.post c bits len).n i 0xB = (if s.n i 0xA = 2 then s.n i 0xB else len) ∧
      (s.post c bits len).n i 0xF = (s.n i 0xF + 1) % 2 ^ 32 ∧
      ObjectsKept s (s.post c bits len) [(i, 0xA), (i, 0xB), (i, 0xF)] := by
  intro i
  by_cases h : s.n i 0xA = 2
  · rw [s.post_of_posted bits len h, if_pos h]
    refine ⟨?_, ?_, ?_, fun a b _ hk => ?_⟩ <;> rw [State.n_mboxServe]
    · exact (State.n_cnt_ne _ (odKey_ne_of_sub (by decide))).trans h
    · exact State.n_cnt_ne _ (odKey_ne_of_sub (by decide))
    · exact State.n_cnt_self ..
    · exact State.n_cnt_ne _ (hk (i, 0xF) (by simp))
  · rw [s.post_of_not_posted bits len h, if_neg h]
    refine ⟨?_, ?_, ?_, fun a b _ hk => ?_⟩ <;> rw [State.n_mboxServe]
    · rw [State.n_cnt_ne _ (odKey_ne_of_sub (by decide)), State.n_setChan, State.n_wr_ne _ _ (odKey_ne_of_sub (by decide)),
        State.n_wr_self_of_lt _ (by decide)]
    · rw [State.n_cnt_ne _ (odKey_ne_of_sub (by decide)), State.n_setChan, State.n_wr_self_of_lt _ hl]
    · rw [State.n_cnt_self, State.n_setChan, State.n_wr_ne _ _ (odKey_ne_of_sub (by decide)),
        State.n_wr_ne _ _ (odKey_ne_of_sub (by decide))]
    · rw [State.n_cnt_ne _ (hk (i, 0xF) (by simp)), State.n_setChan, State.n_wr_ne _ _ (hk (i, 0xB) (by simp)),
        State.n_wr_ne _ _ (hk (i, 0xA) (by simp))]

/-! ### Doorbells and the mask (R481, R482, R484) -/

theorem State.dbRead_intact (h : s.mboxIntact c = true) : s.dbRead c = (s.unmasked c, s.wr (0x2C10 + c) 0xE 0) := by
  unfold State.dbRead
  rw [if_pos h]

theorem State.dbRead_corrupt (h : s.mboxIntact c = false) :
    s.dbRead c = (s.unmasked c, ((s.wr (0x2C10 + c) 0xE 1).cnt 0x2C00 6).event 0x2C00 1 8) := by
  unfold State.dbRead
  rw [if_neg (by simp [h])]

/-- The bits of `v` are cleared; a POSTED channel without any left is EMPTY. -/
theorem State.dbClear_of_posted (v : Word) (h : s.n (0x2C10 + c) 0xA = 2) :
    s.dbClear c v =
      if (s.chan c).bits &&& ~~~ v = 0 then
        (s.setChan c { s.chan c with bits := (s.chan c).bits &&& ~~~ v }).wr (0x2C10 + c) 0xA 0
      else s.setChan c { s.chan c with bits := (s.chan c).bits &&& ~~~ v } := by
  unfold State.dbClear
  simp only [State.n_setChan, h, decide_true, Bool.and_true, decide_eq_true_eq]

theorem State.bits_dbClear (v : Word) (h : s.n (0x2C10 + c) 0xA = 2) :
    ((s.dbClear c v).chan c).bits = (s.chan c).bits &&& ~~~ v := by
  rw [s.dbClear_of_posted v h]
  split <;> simp

theorem State.n_dbClear_state (v : Word) (h : s.n (0x2C10 + c) 0xA = 2) :
    (s.dbClear c v).n (0x2C10 + c) 0xA = if (s.chan c).bits &&& ~~~ v = 0 then 0 else 2 := by
  rw [s.dbClear_of_posted v h]
  split
  · exact State.n_wr_self_of_lt _ (by decide)
  · exact h

theorem objectsKept_dbClear (v : Word) (h : s.n (0x2C10 + c) 0xA = 2) : ObjectsKept s (s.dbClear c v) [(0x2C10 + c, 0xA)] := by
  rw [s.dbClear_of_posted v h]
  split
  · exact objectsKept_wr _ _ _ _
  · exact fun _ _ _ _ => rfl

theorem State.n_maskWrite (c : Nat) (v : Word) : (s.maskWrite c v).n (0x2C10 + c) 0xD = v.toNat := by
  unfold State.maskWrite
  dsimp only
  rw [State.n_mboxServe, State.n_wr_self_of_lt _ (Nat.lt_trans v.isLt (by decide))]

theorem State.unmasked_maskWrite (c : Nat) (v : Word) : (s.maskWrite c v).unmasked c = (s.chan c).bits &&& ~~~ v := by
  rw [State.unmasked, State.n_maskWrite, BitVec.ofNat_toNat, BitVec.setWidth_eq]
  unfold State.maskWrite
  dsimp only
  rw [State.chan_mboxServe, State.chan_wr]

theorem objectsKept_maskWrite (c : Nat) (v : Word) : ObjectsKept s (s.maskWrite c v) [(0x2C10 + c, 0xD)] :=
  fun i j hr hk => (State.n_mboxServe _ _ _ i j).trans (objectsKept_wr s _ _ _ i j hr hk)

/-! ### The lock of a reset owner (R487) -/

theorem State.n_lockReleaseReset_owner (c : Fin 48) : (s.lockReleaseReset c).n (0x2C10 + c.val) 7 = 0 := by
  have hr : ¬ routeKey (odKey (0x2C10 + c.val) 7) := by unfold routeKey odKey; omega
  unfold State.lockReleaseReset
  dsimp only
  rw [State.n_record _ _ _ _ _ (by unfold odKey; omega) hr (by decide),
    State.n_event_ne _ _ _ _ _ _ hr (by unfold odKey; omega), State.n_cnt_ne _ (by unfold odKey; omega), State.lockFree,
    State.n_wr_self_of_lt _ (by decide)]

theorem State.n_lockReleaseReset_count (c : Nat) : (s.lockReleaseReset c).n 0x2C00 3 = (s.n 0x2C00 3 + 1) % 2 ^ 32 := by
  unfold State.lockReleaseReset
  dsimp only
  rw [State.n_record _ _ _ _ _ (by decide) (by decide) (by decide), State.n_event_ne _ _ _ _ _ _ (by decide) (by decide),
    State.n_cnt_self, State.lockFree, State.n_wr_ne _ _ (by unfold odKey; omega)]

theorem State.bit_lockReleaseReset (c : Nat) : (s.lockReleaseReset c).bit 0x2C00 1 0 = true := by
  unfold State.lockReleaseReset
  dsimp only
  rw [State.bit, State.n_record _ _ _ _ _ (by decide) (by decide) (by decide)]
  exact State.bit_event_self _ (b := 0) (by decide) (by decide)

theorem State.chan_lockReleaseReset (c : Nat) : (s.lockReleaseReset c).chan c = s.chan c :=
  State.chan_congr (by simp [State.lockReleaseReset, State.lockFree]) c

end

/-! ### Instructions that wait for no store, and complete on a core that runs (R112, R124) -/

section
variable {s : State} {c : Fin 33}

theorem State.afterStores_of_none_posted (h : (s.engine c).posted = []) (f : State → State) : s.afterStores c f = f s := by
  have hd : s.drainPosted c 8 = s := by
    unfold State.drainPosted
    rw [h]
  unfold State.afterStores
  dsimp only
  rw [hd, h]
  rfl

theorem State.finishWith_of_running (hc : s.coreState c = 1) (hpc : s.pc c < 0x1_0000) (g : Engine) :
    (s.finishWith c g).engine c = { g with waiting := .none } ∧
      ObjectsKept s (s.finishWith c g) [(coreIdx c, 1), (coreIdx c, 5)] := by
  obtain ⟨-, -, heng, hkept, -⟩ := State.finish_spec (s.setEngine c g) c (s.pcNext c) hc (s.pcNext_lt c hpc)
  refine ⟨?_, hkept⟩
  rw [State.finishWith, heng, if_pos rfl, State.setEngine_engine, if_pos rfl]

end

/-- FN names the channel (R145, R164). -/
theorem fnOf_eq (w : Word) : fnOf w = w.toNat % 2 ^ 14 := by
  simp [fnOf, BitVec.extractLsb'_toNat]

end Sys2Proof.Machine
end

section
/-! What the mailbox commands of window paths and the lock instruction do (R164, R478–R488): one lemma per command and case, and
O34. -/

namespace Sys2Proof.Machine

section
variable {s : State} {p : Path} {k : Fin 48}

/-! ### LOCK and the lock instruction (R164, R478) -/

theorem exec_mboxLockRead (hr : s.readOk p (0x2C10 + k.val) 6 = true) : exec (.mboxLockRead p k) s =
    .next ((s.lockRead k p.id.val).2.emit (.reply p.id.val (leBytes (s.lockRead k p.id.val).1 4) false)) :=
  congrArg _ (if_pos hr)

theorem mboxLockRead_takes (hr : s.readOk p (0x2C10 + k.val) 6 = true) (h0 : s.n (0x2C10 + k.val) 7 = 0) :
    ∃ t, exec (.mboxLockRead p k) s = .next t ∧ t.n (0x2C10 + k.val) 7 = p.id.val ∧
      t.out = s.out ++ [.reply p.id.val [0, 0, 0, 0] false] ∧ ObjectsKept s t [(0x2C10 + k.val, 7)] ∧ t.mem = s.mem := by
  refine ⟨_, exec_mboxLockRead hr, ?_⟩
  rw [s.lockRead_free h0, leBytes_zero_four]
  exact ⟨s.n_wr_self_of_lt (by omega), rfl, objectsKept_wr s _ _ _, rfl⟩

theorem mboxLockRead_refused (hr : s.readOk p (0x2C10 + k.val) 6 = true) (h0 : s.n (0x2C10 + k.val) 7 ≠ 0)
    (hp : s.n (0x2C10 + k.val) 7 ≠ p.id.val) :
    ∃ t, exec (.mboxLockRead p k) s = .next t ∧ t.n (0x2C10 + k.val) 7 = s.n (0x2C10 + k.val) 7 ∧
      t.out = s.out ++ [.reply p.id.val (leBytes (s.n (0x2C10 + k.val) 7) 4) false] ∧
      t.n (0x2C10 + k.val) 0x10 = (s.n (0x2C10 + k.val) 0x10 + 1) % 2 ^ 32 ∧
      ObjectsKept s t [(0x2C10 + k.val, 0x10)] ∧ t.mem = s.mem := by
  refine ⟨_, exec_mboxLockRead hr, ?_⟩
  rw [s.lockRead_other h0 hp]
  exact ⟨s.n_cnt_ne (odKey_ne_of_sub (by decide)), rfl, s.n_cnt_self .., objectsKept_cnt s _ _, rfl⟩

theorem mboxLockRead_held (hr : s.readOk p (0x2C10 + k.val) 6 = true) (ho : s.n (0x2C10 + k.val) 7 = p.id.val)
    (hp : p.id.val ≠ 0) :
    exec (.mboxLockRead p k) s = .next { s with out := s.out ++ [.reply p.id.val [0, 0, 0, 0] false] } := by
  rw [exec_mboxLockRead hr, s.lockRead_owner ho hp, leBytes_zero_four]
  rfl

theorem mboxLockRelease_frees {v : Word} (hw : s.writeOk p (0x2C10 + k.val) 6 v.toNat = true) :
    ∃ t, exec (.mboxLockRelease p k v) s = .next t ∧ t.n (0x2C10 + k.val) 7 = 0 ∧ ObjectsKept s t [(0x2C10 + k.val, 7)] ∧
      t.mem = s.mem :=
  ⟨s.lockFree k, congrArg _ (s.guard_ok hw), s.n_wr_self_of_lt (by decide), objectsKept_wr s _ _ _, rfl⟩

theorem mboxLockRelease_refused {v : Word} (h : v ≠ 0 ∨ s.n (0x2C10 + k.val) 7 ≠ p.id.val) :
    exec (.mboxLockRelease p k v) s = .next (s.violate p.id.val) := by
  refine congrArg _ (s.guard_refused (Bool.eq_false_iff.mpr fun hw => ?_))
  obtain ⟨hv, ho⟩ := s.writeOk_lock hw
  exact h.elim (· (BitVec.eq_of_toNat_eq hv)) (· ho)

theorem exec_lock {c : Fin 33} {w : Word} (h : Executes s c .lock w) (hs : (s.engine c).posted = [])
    (hr : s.readOk (s.corePath c) (0x2C10 + w.toNat % 2 ^ 14) 6 = true) :
    let r := s.lockRead (w.toNat % 2 ^ 14) (s.corePath c).id.val
    exec (.lock c) s = .next (r.2.finishWith c
      { (s.engine c).setReg (rdOf w) (BitVec.ofNat 32 r.1) with c := decide (r.1 = 0) }) := by
  intro r
  have hrun : exec (.lock c) s = .next (s.doLock c w) :=
    congrArg _ ((State.runOp_go h).trans (State.afterStores_of_none_posted hs _))
  rw [hrun, State.doLock]
  dsimp only
  rw [fnOf_eq, if_pos hr, State.engine_congr s.lockRead_eng]

/-- The lock instruction reads LOCK, puts the answer into RD and completes, which leaves the channel's objects alone. -/
theorem lock_reads {c : Fin 33} {w : Word} (h : Executes s c .lock w) (hs : (s.engine c).posted = [])
    (hr : s.readOk (s.corePath c) (0x2C10 + w.toNat % 2 ^ 14) 6 = true) (ho : s.n (0x2C10 + w.toNat % 2 ^ 14) 7 < 64) :
    let i := 0x2C10 + w.toNat % 2 ^ 14
    let m := (s.corePath c).id.val
    ∃ t, exec (.lock c) s = .next t ∧ t.n i 7 = (if s.n i 7 = 0 then m else s.n i 7) ∧
      ((t.engine c).reg (rdOf w)).toNat = (if s.n i 7 = m then 0 else s.n i 7) ∧
      t.n i 0x10 = (if s.n i 7 = 0 ∨ s.n i 7 = m then s.n i 0x10 else (s.n i 0x10 + 1) % 2 ^ 32) ∧ t.mem = s.mem := by
  intro i m
  have ⟨hrun, _, hpc, _⟩ := h
  obtain ⟨hans, hown, hcnt, hread⟩ := s.lockRead_spec (w.toNat % 2 ^ 14) (m := m) (by omega)
  have hcore (j : Nat) (hj : j = 1 ∨ j = 5) : (s.lockRead (w.toNat % 2 ^ 14) m).2.n (coreIdx c) j = s.n (coreIdx c) j :=
    hread _ _ (by unfold routeKey odKey coreIdx; split <;> omega) (by simp [odKey]; omega)
  obtain ⟨heng, hkept⟩ := State.finishWith_of_running ((hcore 1 (.inl rfl)).trans hrun)
    (Nat.lt_of_le_of_lt (Nat.le_of_eq (hcore 5 (.inr rfl))) hpc) _
  have hobj (j : Nat) (hj : j = 7 ∨ j = 0x10) := hkept i j (by unfold routeKey odKey; omega) (by simp [odKey]; omega)
  refine ⟨_, exec_lock h hs hr, (hobj 7 (.inl rfl)).trans hown, ?_, (hobj 0x10 (.inr rfl)).trans hcnt, by simp⟩
  have hlt : (s.lockRead (w.toNat % 2 ^ 14) m).1 < 2 ^ 32 := by
    rw [hans]
    split <;> omega
  rw [heng, ← hans]
  exact (congrArg _ ((reg_setReg ..).trans (if_pos rfl))).trans ((BitVec.toNat_ofNat ..).trans (Nat.mod_eq_of_lt hlt))

/-! ### Posts, doorbells and the mask (R480–R484) -/

theorem mboxPost_posts {b n : Word} (hw : s.writeOk p (0x2C10 + k.val) 8 (b.toNat + n.toNat * 2 ^ 32) = true) :
    ∃ t, exec (.mboxPost p k b n) s = .next t ∧ t.n (0x2C10 + k.val) 0xA = 2 ∧
      t.n (0x2C10 + k.val) 0xB = (if s.n (0x2C10 + k.val) 0xA = 2 then s.n (0x2C10 + k.val) 0xB else n.toNat) ∧
      (t.chan k).bits = (s.chan k).bits ||| b ∧ t.n (0x2C10 + k.val) 0xF = (s.n (0x2C10 + k.val) 0xF + 1) % 2 ^ 32 ∧
      ObjectsKept s t [(0x2C10 + k.val, 0xA), (0x2C10 + k.val, 0xB), (0x2C10 + k.val, 0xF)] ∧ t.mem = s.mem := by
  obtain ⟨hstate, hlen, hcnt, hkept⟩ := s.n_post k b (len := n.toNat) (Nat.lt_trans n.isLt (by decide))
  exact ⟨s.post k b n.toNat, congrArg _ (s.guard_ok hw), hstate, hlen, s.bits_post .., hcnt, hkept, s.post_mem ..⟩

theorem exec_mboxDoorbellRead (hr : s.readOk p (0x2C10 + k.val) 0xC = true) : exec (.mboxDoorbellRead p k) s =
    .next ((s.dbRead k).2.emit (.reply p.id.val (leBytes (s.dbRead k).1.toNat 4) false)) :=
  congrArg _ (if_pos hr)

theorem mboxDoorbellRead_answers (hr : s.readOk p (0x2C10 + k.val) 0xC = true) (hi : s.mboxIntact k = true) :
    ∃ t, exec (.mboxDoorbellRead p k) s = .next t ∧ t.n (0x2C10 + k.val) 0xE = 0 ∧
      t.out = s.out ++ [.reply p.id.val (leBytes (s.unmasked k).toNat 4) false] ∧
      ObjectsKept s t [(0x2C10 + k.val, 0xE)] ∧ t.mem = s.mem := by
  refine ⟨_, exec_mboxDoorbellRead hr, ?_⟩
  rw [s.dbRead_intact hi]
  exact ⟨s.n_wr_self_of_lt (by decide), rfl, objectsKept_wr s _ _ _, rfl⟩

theorem mboxDoorbellRead_corrupt (hr : s.readOk p (0x2C10 + k.val) 0xC = true) (hi : s.mboxIntact k = false) :
    ∃ t, exec (.mboxDoorbellRead p k) s = .next t ∧ t.n (0x2C10 + k.val) 0xE = 1 ∧
      t.n 0x2C00 6 = (s.n 0x2C00 6 + 1) % 2 ^ 32 ∧ t.bit 0x2C00 1 3 = true ∧ t.mem = s.mem := by
  refine ⟨_, exec_mboxDoorbellRead hr, ?_⟩
  rw [s.dbRead_corrupt hi]
  refine ⟨?_, ?_, State.bit_event_self _ (b := 3) (by decide) (by decide), by simp⟩ <;> rw [State.n_emit]
  · rw [State.n_event_ne _ _ _ _ _ _ (by unfold routeKey odKey; omega) (by unfold odKey; omega),
      State.n_cnt_ne _ (by unfold odKey; omega), State.n_wr_self_of_lt _ (by decide)]
  · rw [State.n_event_ne _ _ _ _ _ _ (by decide) (by decide), State.n_cnt_self, State.n_wr_ne _ _ (by unfold odKey; omega)]

theorem mboxDoorbellClear_clears {v : Word} (hw : s.writeOk p (0x2C10 + k.val) 0xC v.toNat = true)
    (hp : s.n (0x2C10 + k.val) 0xA = 2) :
    ∃ t, exec (.mboxDoorbellClear p k v) s = .next t ∧ (t.chan k).bits = (s.chan k).bits &&& ~~~ v ∧
      t.n (0x2C10 + k.val) 0xA = (if (s.chan k).bits &&& ~~~ v = 0 then 0 else 2) ∧
      ObjectsKept s t [(0x2C10 + k.val, 0xA), (0x2C10 + k.val, 0xB)] ∧ t.mem = s.mem :=
  ⟨s.dbClear k v, congrArg _ (s.guard_ok hw), s.bits_dbClear v hp, s.n_dbClear_state v hp,
    (objectsKept_dbClear s v hp).mono (by simp), s.dbClear_mem ..⟩

theorem mboxMaskWrite_masks {v : Word} (hw : s.writeOk p (0x2C10 + k.val) 0xD v.toNat = true) :
    ∃ t, exec (.mboxMaskWrite p k v) s = .next t ∧ t.n (0x2C10 + k.val) 0xD = v.toNat ∧
      t.unmasked k = (s.chan k).bits &&& ~~~ v ∧ ObjectsKept s t [(0x2C10 + k.val, 0xD)] ∧ t.mem = s.mem :=
  ⟨s.maskWrite k v, congrArg _ (s.guard_ok hw), s.n_maskWrite .., s.unmasked_maskWrite .., objectsKept_maskWrite s k v,
    s.maskWrite_mem ..⟩

/-! ### The end of a discard (R487, R488) -/

theorem mboxDiscardZeroed_frees (hz : (s.chan k).zeroing = true) :
    ∃ t, exec (.mboxDiscardZeroed k) s = .next t ∧ (t.chan k).zeroing = false ∧ t.n (0x2C10 + k.val) 7 = 0 ∧
      t.n 0x2C00 3 = (s.n 0x2C00 3 + 1) % 2 ^ 32 ∧ t.bit 0x2C00 1 0 = true ∧ t.mem = s.mem := by
  refine ⟨(s.setChan k { s.chan k with zeroing := false }).lockReleaseReset k, congrArg _ (if_pos hz), ?_,
    State.n_lockReleaseReset_owner _ k, State.n_lockReleaseReset_count .., State.bit_lockReleaseReset .., by simp⟩
  rw [State.chan_lockReleaseReset, State.chan_setChan]

end

/-- Settles O34, command by command: each clause is the lemma about its command and case. -/
theorem mailboxesPassMessages : Obligations.MailboxesPassMessages := by
  unfold Obligations.MailboxesPassMessages
  exact ⟨fun _ _ _ hr h0 => mboxLockRead_takes hr h0, fun _ _ _ hr h0 hp => mboxLockRead_refused hr h0 hp,
    fun _ _ _ _ hw => mboxLockRelease_frees hw, fun _ _ _ hr ho hp => mboxLockRead_held hr ho hp,
    fun _ _ _ _ h => mboxLockRelease_refused h, fun _ _ _ h hs hr ho => lock_reads h hs hr ho,
    fun _ _ _ _ _ hw => mboxPost_posts hw, fun _ _ _ hr hi => mboxDoorbellRead_answers hr hi,
    fun _ _ _ hr hi => mboxDoorbellRead_corrupt hr hi, fun _ _ _ _ hw hp => mboxDoorbellClear_clears hw hp,
    fun _ _ _ _ hw => mboxMaskWrite_masks hw, fun _ _ hz => mboxDiscardZeroed_frees hz⟩

end Sys2Proof.Machine
end
